-- ==== Sys2Proof/Word.lean ====
section
/-!
DEFINITION. Word.lean: the words the spec treats as bits: bytes, the 32-bit register word, the 64-bit time of R3 and agent IDs.
-/
namespace Sys2Proof

abbrev Byte := BitVec 8
abbrev Half := BitVec 16
abbrev Word := BitVec 32
abbrev DWord := BitVec 64
/-- A timestamp (R3): bits [63:6] whole nanoseconds, bits [5:0] in units of 1/64 ns. -/
abbrev Time := BitVec 64
/-- An agent ID (R34). -/
abbrev AgentId := BitVec 16

end Sys2Proof
end

