-- ==== Sys2Proof/Syntax.lean ====
section
/-!
DEFINITION. Syntax.lean: the commands the block takes, one constructor for each row of spec/opcode_table.json, and the types of
their operands. The table gives no operands; the operands are what the row's rule needs from outside (log entry 2).
-/
namespace Sys2Proof

/-- The originators of writes (R34). No other ID is ever carried by a write. -/
inductive Agent where
  | loader
  | core (c : Fin 4)
  | pair (p : Fin 2)
  | thread (n : Fin 64)
  | loopEngine
  | host
  | debug
  | faultManager
  | peer (p : Fin 4)
  deriving DecidableEq, Repr

/-- The 16-bit ID of an agent (R34). -/
def Agent.id : Agent → AgentId
  | .loader => 0x0000
  | .core c => 0x0100 + BitVec.ofNat 16 c.val
  | .pair p => 0x0110 + BitVec.ofNat 16 p.val
  | .thread n => 0x0200 + BitVec.ofNat 16 n.val
  | .loopEngine => 0x0300
  | .host => 0x0400
  | .debug => 0x0500
  | .faultManager => 0x0600
  | .peer p => 0x0700 + BitVec.ofNat 16 p.val


/-- How the configuration flash answers at a start (R78, R79): not at all; at 1S-1S-1S only; or fully, with a list that tells of each
of the loader's reads in turn whether it brings data (reads beyond the list do). -/
inductive FlashStart where
  | silent
  | unswitched
  | ready (strobes : List Bool)
  deriving DecidableEq, Repr

/-- The operations of the IEEE 1149.1 TAP (R420); SAMPLE/PRELOAD and EXTEST load cells of the boundary register: pin, and level
0 LOW, 1 HIGH, 2 MID, 3 HIZ. -/
inductive TapOp where
  | bypass
  | idcode
  | samplePreload (cells : List (Fin 160 × Fin 4))
  | extest (cells : List (Fin 160 × Fin 4))
  | dbgport
  deriving DecidableEq, Repr

/-- A command: one constructor for each row of spec/opcode_table.json. -/
inductive Instr where
  /-- TIME_BASE_QUALIFIED (R13): The first time base qualifies after power-on reset and the Milepost starts counting from 0. -/
  | timeBaseQualified
  /-- BACKUP_FALLBACK_TIMEOUT (R13): No reference qualifies within 2 ms, so the Milepost starts on the backup oscillator in state FREE. -/
  | backupFallbackTimeout
  /-- MP_NOW_READ (R14): A read of MP_NOW_LO returns the truncated Milepost and latches the high word for the reading agent. -/
  | mpNowRead (a : Agent)
  /-- BACKUP_TRAINED (R15): The backup trim has held for 100 ms while locked, and MP_STATUS.BACKUP_TRAINED sets. -/
  | backupTrained
  /-- REF_EDGE (R16): A reference edge arrives and the 10 us average frequency is tested against FREQ_TOL. -/
  | refEdge (devPpb : Nat)
  /-- REF_MISS_TIMEOUT (R16): MISS_LIMIT nominal reference periods pass with no edge, and the reference is declared lost. -/
  | refMissTimeout
  /-- REF_QUALIFIED (R19): The reference has met the loss conditions continuously for 1 ms and counts as qualified. -/
  | refQualified
  /-- MP_CTRL_RETURN (R19): A RETURN command moves the Milepost from QUALIFYING to the reference; in any other state it is logged as rejected with cause STATE. -/
  | mpCtrlReturn (a : Agent) (v : Word)
  /-- AUTO_RETURN_WRITE (R19): Writing AUTO_RETURN = 1 while REF_STATE is QUALIFYING returns to the reference at the write's safe point. -/
  | autoReturnWrite (a : Agent) (v : Word)
  /-- MP_SET_WRITE (R21): A write of the MP_SET high word loads the Milepost before first regulation, or is rejected and logged after it. -/
  | mpSetWrite (a : Agent) (v : DWord)
  /-- MP_SLEW_WRITE (R22): A write of MP_SLEW replaces the slew remainder and restarts the adjusted-tick count. -/
  | mpSlewWrite (a : Agent) (v : Word)
  /-- SLEW_INTERVAL_WRITE (R22): A write of a new INTERVAL restarts the adjusted-tick count from the moment it takes effect. -/
  | slewIntervalWrite (a : Agent) (v : Word)
  /-- SLEW_ADJUSTED_TICK (R22): INTERVAL ns have elapsed, so one tick adds 65 or 63 fine ticks and moves the remainder one step toward zero. -/
  | slewAdjustedTick
  /-- LATE_CLEAR (R33): LATE_CLR.CLEAR zeroes LATE_COUNT, LATE_LAST and LATE_SRC. -/
  | lateClear (a : Agent) (v : Word)
  /-- PACE_MEASUREMENT (R31): The pace monitor takes a slice-evaluation or ring-step latency measurement and compares its margin with RAISE_MARGIN. -/
  | paceMeasurement (loop : Bool) (lat : Nat)
  /-- PACE_UP_HOLDOFF_END (R31): The 1 us hold-off after an up request expires and further up requests are allowed again. -/
  | paceUpHoldoffEnd
  /-- PACE_WINDOW_END (R31): A measurement window completes; PACE_WORST is updated and a down step may be requested. -/
  | paceWindowEnd
  /-- REGISTER_WRITE (R49): A write to a register with no row of its own is checked, then applied or rejected, and recorded according to its access code. -/
  | registerWrite (a : Agent) (k : Nat) (v : Word)
  /-- LIVE_FIELD_APPLY (R49): An accepted LIVE write takes effect at its field's next safe point and makes its LIVE record. -/
  | liveFieldApply
  /-- CHANGE_ADMITTED (R60): A waiting change obtains its buffer places, in arrival order, and then takes effect. -/
  | changeAdmitted
  /-- LEDGER_DRAIN (R57): A buffered record is written to the DRAM ring in sequence order and its buffer place is freed. -/
  | ledgerDrain
  /-- LEDGER_TARGET_WRITE (R57): A write of LG_CTRL.TARGET requests a change between ONCHIP and DRAM, rejected when no DRAM is trained. -/
  | ledgerTargetWrite (a : Agent) (v : Word)
  /-- LEDGER_TARGET_SWITCH (R57): The buffer has drained, and the requested target change takes effect. -/
  | ledgerTargetSwitch
  /-- LG_WIN_SEQ_WRITE (R66): A write of LG_WIN_SEQ copies the on-chip record with that sequence into LG_WIN_DATA, or sets GONE. -/
  | lgWinSeqWrite (a : Agent) (v : Word)
  /-- LEDGER_COUNTERS_CLEAR (R66): LG_CLR.CLEAR zeroes LG_NOR_DROPPED, LG_STALL_COUNT and LG_STALL_MAX. -/
  | ledgerCountersClear (a : Agent) (v : Word)
  /-- STAGED_WRITE (R36): A write to a word of STG fields replaces that word in its group's staging copy. -/
  | stagedWrite (a : Agent) (k : Nat) (v : Word)
  /-- GRP_CLAIM (R37): GRP_CLAIM.CLAIM claims the selected group without staging anything. -/
  | grpClaim (a : Agent) (b : Fin 64) (v : Word)
  /-- GRP_AT_WRITE (R37): A write of GRP_AT sets the commit time, accepted from the claimant only and not while the group is pending. -/
  | grpAtWrite (a : Agent) (b : Fin 64) (v : DWord)
  /-- GRP_COMMIT_BOUNDARY (R40): GO with MODE BOUNDARY makes the claimed group pending until the unit's next natural boundary. -/
  | grpCommitBoundary (a : Agent) (b : Fin 64) (v : Word)
  /-- GRP_COMMIT_AT (R40): GO with MODE AT makes the claimed group pending for the time held in GRP_AT. -/
  | grpCommitAt (a : Agent) (b : Fin 64) (v : Word)
  /-- GRP_COMMIT_NOW (R40): GO with MODE NOW commits at once, and is rejected with cause RUNNING for a running unit unless the owning chapter permits it. -/
  | grpCommitNow (a : Agent) (b : Fin 64) (v : Word)
  /-- COMMIT_APPLY (R41): A pending commit applies its whole staging copy at one instant, takes a commit sequence and releases the claim. -/
  | commitApply (b g : Nat)
  /-- GRP_ABORT (R38): GRP_ABORT discards the staging copy, cancels a pending commit and releases the claim, with one SYSTEM record. -/
  | grpAbort (a : Agent) (b : Fin 64) (v : Word)
  /-- CLAIM_LIMIT_WRITE (R38): A new CLAIM_LIMIT applies to every claim, and claims already older than it are aborted. -/
  | claimLimitWrite (a : Agent) (v : Word)
  /-- CLAIM_AGE_EXPIRY (R38): A claim grows older than SYS.CLAIM_LIMIT and the device aborts it. -/
  | claimAgeExpiry (b g : Nat)
  /-- GC_LIST_WRITE (R44): A write of a GC_LIST entry claims the idle global commit facility for the writer. -/
  | gcListWrite (a : Agent) (n : Fin 64) (v : Word)
  /-- GC_AT_WRITE (R44): A write of GC_AT sets the global commit time and claims the facility when it is idle. -/
  | gcAtWrite (a : Agent) (v : DWord)
  /-- GC_GO (R45): GC_CTRL.GO checks the list and makes every listed group pending as GLOBAL, or rejects with cause LIST. -/
  | gcGo (a : Agent) (v : Word)
  /-- GC_CANCEL (R46): GC_CTRL.CANCEL returns the groups of a pending global commit to CLAIMED. -/
  | gcCancel (a : Agent) (v : Word)
  /-- GC_CLEAR (R65): GC_CTRL.CLEAR invalidates the list and releases the facility, rejected while pending. -/
  | gcClear (a : Agent) (v : Word)
  /-- GLOBAL_COMMIT_APPLY (R46): All listed groups apply at one time under one commit sequence; the claims are released and the list is invalidated. -/
  | globalCommitApply
  /-- SNAP_REQUEST (R48): SNAP_CTRL.REQUEST schedules a snapshot of the selected blocks, NOW or AT. -/
  | snapRequest (a : Agent) (v : Word)
  /-- SNAPSHOT_LATCH (R48): At the snapshot time every selected block latches its shadows and SNAP_TIME records the instant. -/
  | snapshotLatch
  /-- VIN_RISE (R67): VIN rises through 4.4 V and the supply die starts its insertion wait. -/
  | vinRise
  /-- INSERTION_WAIT_END (R67): The 1.0 ms insertion wait ends and the VINT ramp begins. -/
  | insertionWaitEnd
  /-- VIN_GOOD (R67): Every internal rail is within tolerance and the boot ROM is released. -/
  | vinGood (f : FlashStart)
  /-- SUPPLY_OFF (R67): VIN falls below 4.1 V and the supply die counts as off. -/
  | supplyOff
  /-- PIN_RESET (R70): RESET_N is held low for 1 us or more; the pins go high impedance and the dies are held at power-on reset. -/
  | pinReset
  /-- PIN_RESET_RELEASE (R70): RESET_N has been high for 100 us and the device continues as from VIN-good. -/
  | pinResetRelease (f : FlashStart)
  /-- LOADER_POLL_DONE (R74): A POLL_SET or POLL_CLR condition is met and the loader goes on to the next entry. -/
  | loaderPollDone
  /-- LOADER_POLL_TIMEOUT (R74): A poll is not satisfied within 10 ms and the copy fails with result POLL. -/
  | loaderPollTimeout
  /-- LOADER_DELAY_END (R74): A DELAY entry's time elapses and the loader continues. -/
  | loaderDelayEnd
  /-- FLASH_READ_TIMEOUT (R79): No data strobe arrives within 10 us of a read command, and the copy's result becomes FLASH. -/
  | flashReadTimeout
  /-- TIE_ALIGN_WAIT_END (R81): In TIE mode the tie link reports the Milepost aligned, and the first global commit proceeds. -/
  | tieAlignWaitEnd
  /-- TIE_START_TIMEOUT (R81): The TIE timeout passes first; the global commit proceeds and TIE_TIMEOUT sets. -/
  | tieStartTimeout
  /-- FLASH_READ (R93): FL_CTRL.OP = READ copies FL_LEN bytes from the flash to the memory buffer. -/
  | flashRead (a : Agent) (v : Word)
  /-- FLASH_PROGRAM (R93): FL_CTRL.OP = PROGRAM programs up to one page, rejected for the waypoint or journal, while busy, or while LOADING. -/
  | flashProgram (a : Agent) (v : Word)
  /-- FLASH_ERASE_SECTOR (R93): FL_CTRL.OP = ERASE_SECTOR erases one 4 KiB sector, under the same restrictions as PROGRAM. -/
  | flashEraseSector (a : Agent) (v : Word)
  /-- FLASH_CHECK (R93): FL_CTRL.OP = CHECK runs steps 1 to 4 of the load on the selected copy without applying it. -/
  | flashCheck (a : Agent) (v : Word)
  /-- FLASH_OP_DONE (R93): A flash operation completes, sets DONE or ERROR and RESULT, and raises NVM_DONE. -/
  | flashOpDone
  /-- JOURNAL_APPEND (R84): After a commit of a persisted group, or a mirror or CALIB entry, bytes 0x00 to 0x3E of an entry are programmed. -/
  | journalAppend
  /-- JOURNAL_MARKER_PROGRAM (R84): The marker is programmed alone and the entry becomes applied. -/
  | journalMarkerProgram
  /-- JOURNAL_CHECKPOINT (R85): JNL_CTRL.CHECKPOINT forces a checkpoint at once. -/
  | journalCheckpoint (a : Agent) (v : Word)
  /-- CALIB_SAVE (R85): JNL_CTRL.CALIB_SAVE saves the truing results as CALIB entries now. -/
  | calibSave (a : Agent) (v : Word)
  /-- CALIB_SAVE_TIMER (R85): CALIB_MIN minutes elapse and the truing results are saved as CALIB entries. -/
  | calibSaveTimer
  /-- JOURNAL_ERASE_DONE (R85): A journal sector erase completes, keeping two free sectors erased ahead of the head. -/
  | journalEraseDone
  /-- VIN_FAIL (R87): VIN falls below the threshold; every output goes to its safe state over the hardwired path, the event is raised and a SYSTEM record entered. -/
  | vinFail (vin : Nat)
  /-- WAYPOINT_WRITE (R88): Once any page program in progress has finished, an armed waypoint is written as 16 page programs. -/
  | waypointWrite
  /-- POWER_LOSS_RESTART (R88): VIN falls below 4.1 V, or has stood above the threshold for 1 ms after the waypoint, and the device restarts at power-on reset. -/
  | powerLossRestart (below : Bool)
  /-- WP_RELEASE (R89): WP_CTRL.RELEASE erases the waypoint sector and clears FOUND. -/
  | wpRelease (a : Agent) (v : Word)
  /-- WAYPOINT_ERASE_DONE (R89): The waypoint sector erase completes, READY sets and the waypoint is armed. -/
  | waypointEraseDone
  /-- ADC_SAMPLE_INSTANT (R98): A channel's input is captured at a scheduled whole Milepost nanosecond under CONT, TRIG or TIMED. -/
  | adcSampleInstant (c : Fin 96) (vd : Int)
  /-- ADC_TRIGGER (R101): A timer event reaches a TRIG channel and schedules its sample instant, moved, late or dropped as the rule requires. -/
  | adcTrigger (c : Fin 96) (lead : Nat)
  /-- ADC_TIMED_OCCURRENCE (R102): A TIMED channel reaches its target and samples, with catch-up computing the next target. -/
  | adcTimedOccurrence (c : Fin 96) (vd : Int)
  /-- SAMPLE_DELIVERY (R105): A converted sample word goes to the loop engine, CH_LAST, the window, the stream area and trace. -/
  | sampleDelivery (c : Fin 96)
  /-- ADC_HALF_READY (R104): A half has been powered for 20 us; it becomes ready and its WAITING channels start. -/
  | adcHalfReady (h : Fin 12)
  /-- STREAM_AREA_READ (R108): A read of a stream area returns block data and releases the half when it covers the block's last word. -/
  | streamAreaRead (a : Agent) (c : Fin 96) (off n : Nat)
  /-- ADC_RELEASE (R108): CH_CLR.RELEASE releases every ready half of the channel. -/
  | adcRelease (a : Agent) (c : Fin 96) (v : Word)
  /-- ADC_DROPS_CLEAR (R116): CH_CLR.CLEAR zeroes CH_DROPS. -/
  | adcDropsClear (a : Agent) (c : Fin 96) (v : Word)
  /-- ADC_TRUE_START (R112): After INTERVAL_MS the spare takes over a channel at a converter-slot boundary and the subject converter is trued. -/
  | adcTrueStart (h : Fin 12)
  /-- ADC_TRUE_DONE (R113): A true completes; new trims are computed, a failed converter is marked, and the converter takes its conversions back. -/
  | adcTrueDone (h : Fin 12) (offset gain : Int)
  /-- COMP_INPUT_CROSSING (R119): The input crosses a threshold, OUT changes and the contribution drives the pair's trip signals. -/
  | compInputCrossing (n : Fin 192) (vd : Int)
  /-- COMP_FILTER_EXPIRY (R123): OUT has stayed asserted for the filter time F, so the rising contribution reaches the trip signal. -/
  | compFilterExpiry (n : Fin 192)
  /-- COMP_SETTLE_END (R126): The settle time ends and OUT and the contribution follow the new settings again. -/
  | compSettleEnd (n : Fin 192) (vd : Int)
  /-- COMP_DISAGREE (R127): The disagreement timer exceeds DIS_TIME; COMP_DISAGREE is raised and the pair is reported to the fault manager. -/
  | compDisagree (c : Fin 96)
  /-- COMP_SELFTEST_START (R128): After INTERVAL_MS the next eligible comparator becomes UNDER_TEST. -/
  | compSelftestStart (b : Fin 2)
  /-- COMP_TEST_CHECK (R129): A self-test check completes after its wait; OUT is read and the test advances. -/
  | compTestCheck (b : Fin 2) (out : Bool)
  /-- CMP_TEST_SEQUENCE (R132): CMP_TEST.OP = SEQUENCE runs self-test steps 1 to 6 on the comparator. -/
  | cmpTestSequence (a : Agent) (n : Fin 192) (v : Word)
  /-- CMP_TEST_TIE_TRIP (R132): CMP_TEST.OP = TIE_TRIP runs step 1, the TIE_TRIP check and step 6. -/
  | cmpTestTieTrip (a : Agent) (n : Fin 192) (v : Word)
  /-- CMP_TEST_TIE_CLEAR (R132): CMP_TEST.OP = TIE_CLEAR runs step 1, the TIE_CLEAR check and step 6. -/
  | cmpTestTieClear (a : Agent) (n : Fin 192) (v : Word)
  /-- CMP_TEST_SWAP (R132): CMP_TEST.OP = SWAP runs step 1, the SWAP check and step 6. -/
  | cmpTestSwap (a : Agent) (n : Fin 192) (v : Word)
  /-- COMP_COUNT_CLEAR (R135): CMP_TEST.CLEAR zeroes CMP_COUNT. -/
  | compCountClear (a : Agent) (n : Fin 192) (v : Word)
  /-- COMP_BANK_READY (R133): A comparator bank becomes ready 10 us after power-up and its WAITING comparators settle. -/
  | compBankReady (k : Fin 4)
  /-- SLOT_EVALUATION (R139): A slot evaluates a sample word: set-point, error, compensator, clamps, output and delivery. -/
  | slotEvaluation (n : Fin 32) (agree : Bool)
  /-- SLICE_READY (R137): A slice becomes ready 5 us after power-up and its WAITING slots start as if leaving OFF. -/
  | sliceReady (k : Fin 5)
  /-- PULSE_RISING_EDGE (R149): A rising edge on the pulse pin completes a period measurement that updates d, or restores a lost input. -/
  | pulseRisingEdge (n : Fin 32) (high : Nat)
  /-- PULSE_LOSS (R149): No valid period completes for TIMEOUT_US; the input is lost and a SYSTEM record is entered. -/
  | pulseLoss (n : Fin 32)
  /-- COEF_WRITE (R145): A coefficient word is written through either path, rejected while it is in use or named by a staged SET. -/
  | coefWrite (a : Agent) (n : Fin 32) (k : Fin 4) (j : Fin 16) (memory : Bool) (v : Word)
  /-- SP_JUMP (R150): SLOT_CMD.SP_JUMP makes the next evaluation take the set-point target at once. -/
  | spJump (a : Agent) (n : Fin 32) (v : Word)
  /-- ZERO_HIST (R144): SLOT_CMD.ZERO_HIST zeroes every history at the next safe point, rejected in RUN. -/
  | zeroHist (a : Agent) (n : Fin 32) (v : Word)
  /-- SLOT_COUNTS_CLEAR (R160): SLOT_CMD.CLEAR zeroes SLOT_COUNTS. -/
  | slotCountsClear (a : Agent) (n : Fin 32) (v : Word)
  /-- DETOUR_STATE_COPY (R167): The last agreed state of the slice's slots is checked and copied into the spare, and the spare is connected. -/
  | detourStateCopy (ns : Nat)
  /-- DETOUR_RESUME (R167): At t_r the spare begins evaluating every sample of the detoured slots at or after t_r. -/
  | detourResume
  /-- SPARE_TEST (R170): Every SPARE_TEST_US the idle spare runs its built-in test; a failure sets SPARE_FAIL. -/
  | spareTest (ok : Bool)
  /-- SUP_RETURN (R171): SUP_CMD.RETURN schedules a FAULTY slice's return at SUP_RETURN_AT, or is rejected with cause STATE. -/
  | supReturn (a : Agent) (v : Word)
  /-- SLICE_RETURN_AT (R171): At SUP_RETURN_AT the slots pass back to their home slice and FAULTY clears. -/
  | sliceReturnAt (k : Fin 4)
  /-- TRACE_RECORD (R173): At a cadence instant a trace unit writes a record once its node values exist. -/
  | traceRecord (u : Fin 4)
  /-- TRC_ARM (R174): TRC_CMD.ARM restarts a SINGLE capture at index 0. -/
  | trcArm (a : Agent) (u : Fin 4) (v : Word)
  /-- TRC_FORCE (R174): TRC_CMD.FORCE triggers the capture at the next record. -/
  | trcForce (a : Agent) (u : Fin 4) (v : Word)
  /-- TRC_STOP (R174): TRC_CMD.STOP ends the capture or stream where it stands. -/
  | trcStop (a : Agent) (u : Fin 4) (v : Word)
  /-- TRACE_STREAM_WRITE (R175): A buffered STREAM record is written to the DRAM ring and TRC_STREAM_SEQ advances. -/
  | traceStreamWrite (u : Fin 4)
  /-- TIMER_BOUNDARY (R180): A period boundary B(k) is reached; the next period starts and ZERO may be raised. -/
  | timerBoundary (t : Fin 48)
  /-- PERIOD_EVENT (R201): The middle of a period is reached and PERIOD is raised under its prescaler. -/
  | periodEvent (t : Fin 48)
  /-- FRAME_START (R181): An output's frame starts (reload); its window is formed and ramp, move, park and trip resumption take effect. -/
  | frameStart (o : Fin 96)
  /-- DRIVE_EDGE (R185): An on or off edge of an output is reached and its drive state changes, raising EDGE_A or EDGE_B on an on edge. -/
  | driveEdge (o : Fin 96)
  /-- DEAD_TIME_END (R185): A dead time elapses and the output passes from NONE to MAIN or COMP. -/
  | deadTimeEnd (o : Fin 96)
  /-- UPDATE_ARRIVAL (R188): A LOOP or RAIL value reaches the update arbiter, is stamped and applied under the output's POLICY. -/
  | updateArrival (o : Fin 96)
  /-- PWM_BANK_READY (R179): A PWM bank becomes ready 10 us after power-up and its WAITING timers start. -/
  | pwmBankReady (b : Fin 3)
  /-- TIM_ADJ (R202): A TIM_ADJ write changes the length of the first period starting at least 20 ns later. -/
  | timAdj (a : Agent) (t : Fin 48) (v : Word)
  /-- TIM_FORCE_MAIN (R196): A FORCE field of MAIN schedules a forced MAIN drive state. -/
  | timForceMain (a : Agent) (t : Fin 48) (v : Word)
  /-- TIM_FORCE_COMP (R196): A FORCE field of COMP schedules a forced COMP drive state. -/
  | timForceComp (a : Agent) (t : Fin 48) (v : Word)
  /-- TIM_FORCE_OFF (R196): A FORCE field of OFF schedules a forced NONE drive state. -/
  | timForceOff (a : Agent) (t : Fin 48) (v : Word)
  /-- TIM_FORCE_HIZ (R196): A FORCE field of HIZ schedules a forced HIZ drive state. -/
  | timForceHiz (a : Agent) (t : Fin 48) (v : Word)
  /-- TIM_FORCE_RELEASE (R196): A FORCE field of RELEASE schedules the output's return to normal drive. -/
  | timForceRelease (a : Agent) (t : Fin 48) (v : Word)
  /-- FORCE_APPLY (R196): At the boundary or AT time the force takes effect, with the dead-time rule. -/
  | forceApply (t : Fin 48)
  /-- TIM_TRIP_CLR (R200): TIM_CLR.TRIP_CLR clears a latched trip while both LATCH inputs are low, or is rejected with cause STATE. -/
  | timTripClr (a : Agent) (t : Fin 48) (v : Word)
  /-- TIMER_COUNTS_CLEAR (R208): TIM_CLR.CLEAR zeroes TIM_COUNTS, TIM_TRIPS and TIM_INSERTS. -/
  | timerCountsClear (a : Agent) (t : Fin 48) (v : Word)
  /-- SYNC_PIN_EDGE (R203): A qualified rising edge on SYNC_PIN resets the timer's grid. -/
  | syncPinEdge (t : Fin 48)
  /-- LINE_TRUE_START (R204): After INTERVAL_MS the bank starts truing the idle delay line of the next output. -/
  | lineTrueStart (b : Fin 3)
  /-- LINE_TRUE_DONE (R205): A 50 us line true completes; the line passes or is marked failed. -/
  | lineTrueDone (b : Fin 3) (lat gain : Int)
  /-- LINE_SWAP (R204): At a frame start clear of transitions by 4 ns, the delay lines exchange roles. -/
  | lineSwap (o : Fin 96)
  /-- RAIL_ACTIVE_WRITE (R214): A write of PH_RAIL_CTRL.ACTIVE changes the effective count N. -/
  | railActiveWrite (a : Agent) (r : Fin 8) (v : Word)
  /-- RAIL_ADD_EVENT (R214): ADD_EVENT reaches the rail and raises ACTIVE to ADD_TO, with a SYSTEM record. -/
  | railAddEvent (r : Fin 8)
  /-- PHASE_MOVE_DECISION (R216): At F − δ − 2 ns an earlier move is decided, or deferred if the preceding window has not ended. -/
  | phaseMoveDecision (o : Fin 96)
  /-- PH_FAIL (R217): PH_PHASE_CMD.FAIL marks the named phase FAILED. -/
  | phFail (a : Agent) (v : Word)
  /-- PH_CLEAR_FAIL (R217): PH_PHASE_CMD.CLEAR_FAIL clears a failure; the phase is parked or becomes a ready spare. -/
  | phClearFail (a : Agent) (v : Word)
  /-- RAIL_COUNTS_CLEAR (R228): PH_RAIL_CMD.CLEAR zeroes PH_RAIL_COUNTS. -/
  | railCountsClear (a : Agent) (r : Fin 8) (v : Word)
  /-- WITNESS_TRANSITION (R220): A TP ball transition is observed and matched to the nearest open search window. -/
  | witnessTransition (p : Fin 96) (ps : Int) (lvl : Fin 3)
  /-- WITNESS_WINDOW_END (R221): An edge's search window closes; the edge is classed as match, mismatch or missing and RUN is updated. -/
  | witnessWindowEnd (p : Fin 96)
  /-- WIT_CLEAR_FAULT (R229): WIT_CMD.CLEAR_FAULT clears FAULTED and RUN. -/
  | witClearFault (a : Agent) (p : Fin 96) (v : Word)
  /-- WIT_CLEAR (R229): WIT_CMD.CLEAR zeroes WIT_COUNT and WORST_PS. -/
  | witClear (a : Agent) (p : Fin 96) (v : Word)
  /-- WITNESS_BANK_READY (R223): A witness bank becomes ready 10 us after power-up. -/
  | witnessBankReady (b : Fin 3)
  /-- TIMER_DETOUR_COPY (R225): The detoured timer's state is copied into the spare and deliveries now reach both timers. -/
  | timerDetourCopy (t : Fin 48)
  /-- DETOUR_SHADOW_START (R225): At t_f + 1,000 ns the spare runs T's frames and edges without driving. -/
  | detourShadowStart (t : Fin 48)
  /-- TIMER_DETOUR_SWITCH (R225): At a steady instant, or at t_f + 1,900 ns, each pin begins its level crossing to the spare. -/
  | timerDetourSwitch (t : Fin 48)
  /-- SPARE_TAKES_PINS (R225): Four ns after the switch the spare drives T's pins; OWNER and FAULT_ACTION records are entered and T reads DETOURED. -/
  | spareTakesPins (t : Fin 48)
  /-- DET_RETURN (R227): DET_CMD.RETURN schedules a detoured timer's return at DET_RETURN_AT, or is rejected with cause STATE. -/
  | detReturn (a : Agent) (v : Word)
  /-- TIMER_RETURN (R227): At RETURN_AT the state is copied back, the pins switch back and the spare is restored and stopped. -/
  | timerReturn (t : Fin 48)
  /-- UNDEFINED_INSTRUCTION (R253): An undefined encoding issues and raises UNDEF precisely. -/
  | undefinedInstruction (c : Fin 4) (w : Word)
  /-- ADD (R263): ALU ADD: rd := ra + rb. -/
  | coreAdd (c : Fin 4) (w : Word)
  /-- SUB (R263): ALU SUB: rd := ra − rb. -/
  | coreSub (c : Fin 4) (w : Word)
  /-- ADC (R263): ALU ADC: add with carry; always sets N, Z, C and V. -/
  | coreAdc (c : Fin 4) (w : Word)
  /-- SBC (R263): ALU SBC: subtract with carry; always sets N, Z, C and V. -/
  | coreSbc (c : Fin 4) (w : Word)
  /-- AND (R263): ALU AND: bitwise and. -/
  | coreAnd (c : Fin 4) (w : Word)
  /-- OR (R263): ALU OR: bitwise or. -/
  | coreOr (c : Fin 4) (w : Word)
  /-- XOR (R263): ALU XOR: bitwise exclusive or. -/
  | coreXor (c : Fin 4) (w : Word)
  /-- ANDN (R263): ALU ANDN: ra & ~rb. -/
  | coreAndn (c : Fin 4) (w : Word)
  /-- SLL (R264): Logical left shift by rb[7:0]. -/
  | coreSll (c : Fin 4) (w : Word)
  /-- SRL (R264): Logical right shift by rb[7:0]. -/
  | coreSrl (c : Fin 4) (w : Word)
  /-- SRA (R264): Arithmetic right shift by rb[7:0]. -/
  | coreSra (c : Fin 4) (w : Word)
  /-- ROR (R264): Rotate right by rb mod 32. -/
  | coreRor (c : Fin 4) (w : Word)
  /-- MIN (R263): Signed minimum. -/
  | coreMin (c : Fin 4) (w : Word)
  /-- MAX (R263): Signed maximum. -/
  | coreMax (c : Fin 4) (w : Word)
  /-- MINU (R263): Unsigned minimum. -/
  | coreMinu (c : Fin 4) (w : Word)
  /-- MAXU (R263): Unsigned maximum. -/
  | coreMaxu (c : Fin 4) (w : Word)
  /-- SLT (R263): Signed set-less-than. -/
  | coreSlt (c : Fin 4) (w : Word)
  /-- SLTU (R263): Unsigned set-less-than. -/
  | coreSltu (c : Fin 4) (w : Word)
  /-- NEG (R263): rd := 0 − ra; always sets N, Z, C and V. -/
  | coreNeg (c : Fin 4) (w : Word)
  /-- NOT (R263): rd := ~ra. -/
  | coreNot (c : Fin 4) (w : Word)
  /-- ADDI (R254): Add a signed 15-bit immediate. -/
  | coreAddi (c : Fin 4) (w : Word)
  /-- ADDI_F (R254): Add a signed immediate and set the flags. -/
  | coreAddiF (c : Fin 4) (w : Word)
  /-- ANDI (R254): And with an unsigned immediate. -/
  | coreAndi (c : Fin 4) (w : Word)
  /-- ORI (R254): Or with an unsigned immediate. -/
  | coreOri (c : Fin 4) (w : Word)
  /-- XORI (R254): Exclusive-or with an unsigned immediate. -/
  | coreXori (c : Fin 4) (w : Word)
  /-- CMPI (R254): Set the flags from ra minus a signed immediate. -/
  | coreCmpi (c : Fin 4) (w : Word)
  /-- SLLI (R264): Logical left shift by AMT. -/
  | coreSlli (c : Fin 4) (w : Word)
  /-- SRLI (R264): Logical right shift by AMT. -/
  | coreSrli (c : Fin 4) (w : Word)
  /-- SRAI (R264): Arithmetic right shift by AMT. -/
  | coreSrai (c : Fin 4) (w : Word)
  /-- RORI (R264): Rotate right by AMT. -/
  | coreRori (c : Fin 4) (w : Word)
  /-- LUI (R254): rd := imm20 << 12. -/
  | coreLui (c : Fin 4) (w : Word)
  /-- ADDPC (R254): rd := PC + (imm20 << 12). -/
  | coreAddpc (c : Fin 4) (w : Word)
  /-- MUL (R265): Low 32 bits of the product, in 1 + s steps. -/
  | coreMul (c : Fin 4) (w : Word)
  /-- MULH (R265): High 32 bits of the signed product. -/
  | coreMulh (c : Fin 4) (w : Word)
  /-- MULHU (R265): High 32 bits of the unsigned product. -/
  | coreMulhu (c : Fin 4) (w : Word)
  /-- MULHSU (R265): High 32 bits of the product of signed ra and unsigned rb. -/
  | coreMulhsu (c : Fin 4) (w : Word)
  /-- MAC (R265): rd := rd + low 32 bits of ra × rb. -/
  | coreMac (c : Fin 4) (w : Word)
  /-- MSU (R265): rd := rd − low 32 bits of ra × rb. -/
  | coreMsu (c : Fin 4) (w : Word)
  /-- DIV (R266): Signed divide truncating toward zero; a zero divisor sets DZ and may trap to DIVZ. -/
  | coreDiv (c : Fin 4) (w : Word)
  /-- DIVU (R266): Unsigned divide. -/
  | coreDivu (c : Fin 4) (w : Word)
  /-- REM (R266): Signed remainder, taking the sign of the dividend. -/
  | coreRem (c : Fin 4) (w : Word)
  /-- REMU (R266): Unsigned remainder. -/
  | coreRemu (c : Fin 4) (w : Word)
  /-- QADD (R267): Signed saturating add, setting Q when limited. -/
  | coreQadd (c : Fin 4) (w : Word)
  /-- QSUB (R267): Signed saturating subtract. -/
  | coreQsub (c : Fin 4) (w : Word)
  /-- QADDU (R267): Unsigned saturating add. -/
  | coreQaddu (c : Fin 4) (w : Word)
  /-- QSUBU (R267): Unsigned saturating subtract. -/
  | coreQsubu (c : Fin 4) (w : Word)
  /-- QNEG (R267): Saturating negate. -/
  | coreQneg (c : Fin 4) (w : Word)
  /-- QABS (R267): Saturating absolute value. -/
  | coreQabs (c : Fin 4) (w : Word)
  /-- QDMULH (R267): Saturating doubling multiply returning the high half. -/
  | coreQdmulh (c : Fin 4) (w : Word)
  /-- SSAT (R267): Signed saturate to n bits. -/
  | coreSsat (c : Fin 4) (w : Word)
  /-- USAT (R267): Unsigned saturate to n bits. -/
  | coreUsat (c : Fin 4) (w : Word)
  /-- CLZ (R267): Count leading zeros. -/
  | coreClz (c : Fin 4) (w : Word)
  /-- CTZ (R267): Count trailing zeros. -/
  | coreCtz (c : Fin 4) (w : Word)
  /-- POPC (R267): Count one bits. -/
  | corePopc (c : Fin 4) (w : Word)
  /-- REV (R267): Reverse the bytes of the word. -/
  | coreRev (c : Fin 4) (w : Word)
  /-- REV16 (R267): Reverse the bytes within each halfword. -/
  | coreRev16 (c : Fin 4) (w : Word)
  /-- SEXTB (R267): Sign-extend from 8 bits. -/
  | coreSextb (c : Fin 4) (w : Word)
  /-- SEXTH (R267): Sign-extend from 16 bits. -/
  | coreSexth (c : Fin 4) (w : Word)
  /-- ZEXTB (R267): Zero-extend from 8 bits. -/
  | coreZextb (c : Fin 4) (w : Word)
  /-- ZEXTH (R267): Zero-extend from 16 bits. -/
  | coreZexth (c : Fin 4) (w : Word)
  /-- EXTU (R267): Extract an unsigned bit field. -/
  | coreExtu (c : Fin 4) (w : Word)
  /-- EXTS (R267): Extract a signed bit field. -/
  | coreExts (c : Fin 4) (w : Word)
  /-- INS (R267): Insert a bit field into rd. -/
  | coreIns (c : Fin 4) (w : Word)
  /-- LDB (R257): Load a sign-extended byte at ra + imm15. -/
  | coreLdb (c : Fin 4) (w : Word)
  /-- LDBU (R257): Load a zero-extended byte. -/
  | coreLdbu (c : Fin 4) (w : Word)
  /-- LDH (R257): Load a sign-extended halfword. -/
  | coreLdh (c : Fin 4) (w : Word)
  /-- LDHU (R257): Load a zero-extended halfword. -/
  | coreLdhu (c : Fin 4) (w : Word)
  /-- LDW (R257): Load a word. -/
  | coreLdw (c : Fin 4) (w : Word)
  /-- LDD (R260): Load an aligned 8-byte pair into rd and rd + 1. -/
  | coreLdd (c : Fin 4) (w : Word)
  /-- STB (R257): Store a byte through the store buffer. -/
  | coreStb (c : Fin 4) (w : Word)
  /-- STH (R257): Store a halfword. -/
  | coreSth (c : Fin 4) (w : Word)
  /-- STW (R257): Store a word. -/
  | coreStw (c : Fin 4) (w : Word)
  /-- STD (R260): Store a register pair as one 8-byte entry. -/
  | coreStd (c : Fin 4) (w : Word)
  /-- LDX (R258): Load in an indexed, post-, pre-, register-post or bank addressing mode. -/
  | coreLdx (c : Fin 4) (w : Word)
  /-- STX (R258): Store in one of the LDX addressing modes. -/
  | coreStx (c : Fin 4) (w : Word)
  /-- AMOSWAP (R261): Atomic swap of an aligned word. -/
  | coreAmoswap (c : Fin 4) (w : Word)
  /-- AMOADD (R261): Atomic add to an aligned word. -/
  | coreAmoadd (c : Fin 4) (w : Word)
  /-- AMOCAS (R261): Atomic compare-and-swap of an aligned word. -/
  | coreAmocas (c : Fin 4) (w : Word)
  /-- B_CC (R269): Conditional branch to PC + 2·OFF20. -/
  | coreBCc (c : Fin 4) (w : Word)
  /-- B (R270): Unconditional branch within ±32 MiB. -/
  | coreB (c : Fin 4) (w : Word)
  /-- CALL (R270): Branch and write g31 := PC + 4. -/
  | coreCall (c : Fin 4) (w : Word)
  /-- JR (R270): Jump to ra; an odd target raises ALIGN. -/
  | coreJr (c : Fin 4) (w : Word)
  /-- CALLR (R270): Jump to ra and write rd := PC + 4. -/
  | coreCallr (c : Fin 4) (w : Word)
  /-- LOOP (R271): Start a hardware loop level with a count from ra. -/
  | coreLoop (c : Fin 4) (w : Word)
  /-- LOOPI (R271): Start a hardware loop level with an immediate count. -/
  | coreLoopi (c : Fin 4) (w : Word)
  /-- MFS (R273): Read a special register into rd. -/
  | coreMfs (c : Fin 4) (w : Word)
  /-- MTS (R273): Write ra into a special register. -/
  | coreMts (c : Fin 4) (w : Word)
  /-- FENCE (R244): Perform no later load or store until every earlier store has drained. -/
  | coreFence (c : Fin 4) (w : Word)
  /-- SYNC (R244): FENCE, and issue nothing more until every earlier instruction has retired. -/
  | coreSync (c : Fin 4) (w : Word)
  /-- IFLUSH (R239): Wait for an empty store buffer, invalidate the cache line and the line buffer, and refetch. -/
  | coreIflush (c : Fin 4) (w : Word)
  /-- SYSCALL (R274): Take vector 12 carrying the immediate. -/
  | coreSyscall (c : Fin 4) (w : Word)
  /-- BREAK (R274): Take vector 13 carrying the immediate. -/
  | coreBreak (c : Fin 4) (w : Word)
  /-- RETE (R300): Return from an exception by unstacking the frame, chaining, or raising PRIVRET. -/
  | coreRete (c : Fin 4) (w : Word)
  /-- SLEEP (R303): Retire and stop issuing until a line would be eligible. -/
  | coreSleep (c : Fin 4) (w : Word)
  /-- PART (R310): Request that a lockstep pair split once both store buffers are empty. -/
  | corePart (c : Fin 4) (w : Word)
  /-- PART_RETIRE (R310): The store buffers are empty; PART retires as the last lockstep instruction and the agent IDs split. -/
  | partRetire (p : Fin 2)
  /-- JOIN (R311): A split core waits for its partner to join lockstep. -/
  | coreJoin (c : Fin 4) (w : Word)
  /-- JOIN_COMPLETE (R311): Both cores have executed JOIN; the state and TCM are copied and the pair resumes in lockstep. -/
  | joinComplete (p : Fin 2)
  /-- JOIN_TIMEOUT (R311): The JOIN wait exceeds TMO_US and JOIN retires with result TIMEOUT. -/
  | joinTimeout (c : Fin 4)
  /-- JOIN_PARTNER_DOWN (R311): The partner is or becomes RESET or STOPPED, and JOIN retires with result PARTNER_DOWN. -/
  | joinPartnerDown (c : Fin 4)
  /-- ATOMB (R302): Begin a non-interruptible section with a deadline. -/
  | coreAtomb (c : Fin 4) (w : Word)
  /-- ATOME (R302): End the non-interruptible section. -/
  | coreAtome (c : Fin 4) (w : Word)
  /-- ATOM_DEADLINE (R302): A section is still active at its deadline, so ATOM_OVERRUN is taken. -/
  | atomDeadline (c : Fin 4)
  /-- FADD (R283): Floating-point add. -/
  | coreFadd (c : Fin 4) (w : Word)
  /-- FSUB (R283): Floating-point subtract. -/
  | coreFsub (c : Fin 4) (w : Word)
  /-- FMUL (R283): Floating-point multiply. -/
  | coreFmul (c : Fin 4) (w : Word)
  /-- FDIV (R283): Floating-point divide on the shared divider. -/
  | coreFdiv (c : Fin 4) (w : Word)
  /-- FSQRT (R283): Floating-point square root. -/
  | coreFsqrt (c : Fin 4) (w : Word)
  /-- FMIN (R287): minimumNumber of two operands. -/
  | coreFmin (c : Fin 4) (w : Word)
  /-- FMAX (R287): maximumNumber of two operands. -/
  | coreFmax (c : Fin 4) (w : Word)
  /-- FSGNJ (R283): Magnitude of fa with the sign of fb. -/
  | coreFsgnj (c : Fin 4) (w : Word)
  /-- FSGNJN (R283): Magnitude of fa with the inverted sign of fb. -/
  | coreFsgnjn (c : Fin 4) (w : Word)
  /-- FSGNJX (R283): Magnitude of fa with the XOR of both signs. -/
  | coreFsgnjx (c : Fin 4) (w : Word)
  /-- FCMP_EQ (R287): Quiet equality compare into a g register. -/
  | coreFcmpEq (c : Fin 4) (w : Word)
  /-- FCMP_LT (R287): Signalling less-than compare. -/
  | coreFcmpLt (c : Fin 4) (w : Word)
  /-- FCMP_LE (R287): Signalling less-or-equal compare. -/
  | coreFcmpLe (c : Fin 4) (w : Word)
  /-- FCMP_UN (R287): Quiet unordered test. -/
  | coreFcmpUn (c : Fin 4) (w : Word)
  /-- FCLASS (R287): Write a one-hot class mask. -/
  | coreFclass (c : Fin 4) (w : Word)
  /-- FCVT (R288): Convert between binary32 and binary64. -/
  | coreFcvt (c : Fin 4) (w : Word)
  /-- FCVT_W (R288): Convert to a signed 32-bit integer. -/
  | coreFcvtW (c : Fin 4) (w : Word)
  /-- FCVT_WU (R288): Convert to an unsigned 32-bit integer. -/
  | coreFcvtWu (c : Fin 4) (w : Word)
  /-- FCVT_F_W (R288): Convert from a signed 32-bit integer. -/
  | coreFcvtFW (c : Fin 4) (w : Word)
  /-- FCVT_F_WU (R288): Convert from an unsigned 32-bit integer. -/
  | coreFcvtFWu (c : Fin 4) (w : Word)
  /-- FMV_X (R283): Move f register bits to g register(s). -/
  | coreFmvX (c : Fin 4) (w : Word)
  /-- FMV_F (R283): Move g register bits to an f register. -/
  | coreFmvF (c : Fin 4) (w : Word)
  /-- FMFC (R283): Read FCSR into a g register. -/
  | coreFmfc (c : Fin 4) (w : Word)
  /-- FMTC (R279): Write FCSR from a g register, keeping RM on a reserved value. -/
  | coreFmtc (c : Fin 4) (w : Word)
  /-- FMADD (R284): Fused fa × fb + fc. -/
  | coreFmadd (c : Fin 4) (w : Word)
  /-- FMSUB (R284): Fused fa × fb − fc. -/
  | coreFmsub (c : Fin 4) (w : Word)
  /-- FNMADD (R284): Fused −(fa × fb) − fc. -/
  | coreFnmadd (c : Fin 4) (w : Word)
  /-- FNMSUB (R284): Fused −(fa × fb) + fc. -/
  | coreFnmsub (c : Fin 4) (w : Word)
  /-- FLDX (R285): Load an f register in the LDX addressing modes. -/
  | coreFldx (c : Fin 4) (w : Word)
  /-- FSTX (R285): Store an f register in the LDX addressing modes. -/
  | coreFstx (c : Fin 4) (w : Word)
  /-- STORE_BUFFER_DRAIN (R241): The oldest store buffer entry is written to memory, or is refused and raises an imprecise BUSERR. -/
  | storeBufferDrain (c : Fin 4)
  /-- ORDERED_ANSWER (R236): The target of an ORDERED access answers and the instruction retires. -/
  | orderedAnswer (c : Fin 4)
  /-- INTERRUPT_ENTRY (R296): An eligible line is entered at an instruction boundary with a frame and an entry record. -/
  | interruptEntry (c : Fin 4)
  /-- CORE_WAKE (R303): A sleeping core wakes when a line would be eligible, or on an imprecise BUSERR. -/
  | coreWake (c : Fin 4)
  /-- CACHE_INVALIDATE (R239): CACHE_CTRL.INVAL invalidates the cache and the line buffer. -/
  | cacheInvalidate (c : Fin 4) (en : Bool)
  /-- PERF_CLEAR (R246): PERF_CTRL.CLEAR zeroes every PERF_ counter. -/
  | perfClear (c : Fin 4) (en user : Bool)
  /-- EVC_CLR (R294): EVC_CLR clears the pending bits of the lines written with 1. -/
  | evcClr (c : Fin 4) (hi : Bool) (v : Word)
  /-- TOLLGATE_MATCH (R308): The partner posts its request at the same count; the requests are compared and the access is performed once. -/
  | tollgateMatch (p : Fin 2)
  /-- PAIR_LAG_TIMEOUT (R312): One core stays four records ahead for 1 us, and PAIR_MISMATCH is declared. -/
  | pairLagTimeout (p : Fin 2)
  /-- PAIR_STOP (R313): Both cores of the mismatched pair stop, PAIR_MISMATCH is raised and their CORE_STATUS records are entered. -/
  | pairStop (p : Fin 2)
  /-- PAIR_MISMATCH_DELIVERY (R313): PAIR_MISMATCH is delivered to the surviving pair on its routed line. -/
  | pairMismatchDelivery
  /-- THREAD_WILIUM_INSTRUCTION (R324): A thread issues an admitted Wilium integer, memory or branch instruction in its issue slot. -/
  | threadWiliumInstruction (n : Fin 64)
  /-- THREAD_ILLEGAL (R325): An illegal encoding issues and the thread stops with cause ILLEGAL. -/
  | threadIllegal (n : Fin 64)
  /-- THREAD_ACCESS_DONE (R323): A STALLED thread's access completes, or obtains its Ledger place, and the thread issues again. -/
  | threadAccessDone (n : Fin 64)
  /-- SRD (R326): Read a shared register. -/
  | thrSrd (n : Fin 64)
  /-- SWR (R326): Write a shared register. -/
  | thrSwr (n : Fin 64)
  /-- SADD (R326): Add to a shared register, returning the old value. -/
  | thrSadd (n : Fin 64)
  /-- SCAS (R326): Compare-and-swap a shared register. -/
  | thrScas (n : Fin 64)
  /-- SWAIT (R326): Wait until a shared register and a mask are non-zero. -/
  | thrSwait (n : Fin 64)
  /-- SWAIT_RELEASE (R326): A shared-register write satisfies an SWAIT and the thread issues again. -/
  | swaitRelease (n : Fin 64)
  /-- TNOW (R326): tt := the Milepost at issue. -/
  | thrTnow (n : Fin 64)
  /-- TSET (R326): Set tt from two registers. -/
  | thrTset (n : Fin 64)
  /-- TGET (R326): Read one half of tt. -/
  | thrTget (n : Fin 64)
  /-- TADD (R326): Add nanoseconds to tt. -/
  | thrTadd (n : Fin 64)
  /-- TADDF (R326): Add fine ticks to tt. -/
  | thrTaddf (n : Fin 64)
  /-- TLEFT (R326): Return the nanoseconds remaining until tt. -/
  | thrTleft (n : Fin 64)
  /-- WAITT (R330): Wait until the Milepost reaches tt. -/
  | thrWaitt (n : Fin 64)
  /-- WAITT_EXPIRY (R330): The Milepost reaches tt and the waiting thread issues at its next slot. -/
  | waittExpiry (n : Fin 64)
  /-- PERIOD (R331): Start the thread's periodic schedule with P = ta ns from tt. -/
  | thrPeriod (n : Fin 64)
  /-- WAITP (R331): Wait for the schedule's next target, then set tt to the grid point and compute the next target. -/
  | thrWaitp (n : Fin 64)
  /-- WAITP_TARGET (R331): The schedule's target arrives for a thread waiting in WAITP, and the occurrence is applied. -/
  | waitpTarget (n : Fin 64)
  /-- PSTOP (R326): End the thread's schedule. -/
  | thrPstop (n : Fin 64)
  /-- WAITE (R332): Wait for any of the masked event inputs, then take and clear them. -/
  | thrWaite (n : Fin 64)
  /-- WAITE_WAKE (R332): A masked event input is delivered and the WAITE retires. -/
  | waiteWake (n : Fin 64)
  /-- SIGNAL (R326): Raise the thread's SIGNAL event, unlogged. -/
  | thrSignal (n : Fin 64)
  /-- BKPT (R326): The thread becomes HALTED after this instruction. -/
  | thrBkpt (n : Fin 64)
  /-- DRV (R328): Queue a pin drive action for time tt. -/
  | thrDrv (n : Fin 64)
  /-- SMP (R328): Queue a pin sample at tt and wait for its level. -/
  | thrSmp (n : Fin 64)
  /-- SMP_SAMPLE (R328): The pin is sampled at tt and the waiting SMP retires with the level. -/
  | smpSample (n : Fin 64)
  /-- ESTART (R329): Queue an engine RESTART for time tt. -/
  | thrEstart (n : Fin 64)
  /-- EPUSH (R328): Push a word into an engine's TX FIFO, waiting while it is full. -/
  | thrEpush (n : Fin 64)
  /-- EPUSH_ROOM (R328): TX gains room and a waiting EPUSH retires. -/
  | epushRoom (n : Fin 64)
  /-- EPULL (R328): Pull a word from an engine's RX FIFO, waiting while it is empty. -/
  | thrEpull (n : Fin 64)
  /-- EPULL_DATA (R328): RX receives a word and a waiting EPULL retires with it. -/
  | epullData (n : Fin 64)
  /-- EPUSHN (R328): Non-waiting push; C shows success. -/
  | thrEpushn (n : Fin 64)
  /-- EPULLN (R328): Non-waiting pull; C shows success. -/
  | thrEpulln (n : Fin 64)
  /-- ACTQ_ROOM (R329): A queued action takes effect and an action instruction waiting on a full queue retires. -/
  | actqRoom (n : Fin 64)
  /-- THREAD_ACTION_APPLY (R329): A queued DRV, SMP or ESTART reaches its target and takes effect after its ownership check. -/
  | threadActionApply (n : Fin 64)
  /-- CH_OPEN (R334): Take a place on a channel and begin a record in the staging. -/
  | thrChOpen (n : Fin 64)
  /-- CH_OPEN_WAKE (R334): A place becomes free and a waiting CH.OPEN retires. -/
  | chOpenWake (n : Fin 64)
  /-- CH_PUT (R334): Append a word to the staged record. -/
  | thrChPut (n : Fin 64)
  /-- CH_CLOSE (R334): Make the staged record visible at the end of the step. -/
  | thrChClose (n : Fin 64)
  /-- CH_RECV (R334): Open the oldest visible record of a channel for reading, waiting if none. -/
  | thrChRecv (n : Fin 64)
  /-- CH_RECV_WAKE (R334): A record becomes visible and a waiting CH.RECV opens it. -/
  | chRecvWake (n : Fin 64)
  /-- CH_GET (R334): Read the next word of the open record. -/
  | thrChGet (n : Fin 64)
  /-- CH_DONE (R334): Release the open record and its place. -/
  | thrChDone (n : Fin 64)
  /-- CH_POLL (R334): Return the number of visible records of a channel. -/
  | thrChPoll (n : Fin 64)
  /-- THR_HALT (R337): THR_CMD.HALT halts the thread at its next slot boundary. -/
  | thrHalt (a : Agent) (n : Fin 64) (v : Word)
  /-- THR_RESUME (R337): THR_CMD.RESUME issues from THR_PC at the next slot. -/
  | thrResume (a : Agent) (n : Fin 64) (v : Word)
  /-- THR_STEP (R337): THR_CMD.STEP runs one instruction and halts. -/
  | thrStep (a : Agent) (n : Fin 64) (v : Word)
  /-- THR_RESET (R336): THR_CMD.RESET resets the thread between instructions, discarding its actions, schedule, records and claims. -/
  | thrReset (a : Agent) (n : Fin 64) (v : Word)
  /-- THR_CLEAR (R341): THR_CMD.CLEAR zeroes THR_RETIRED and the W1C flags of THR_STATUS. -/
  | thrClear (a : Agent) (n : Fin 64) (v : Word)
  /-- GRIDLOCK_EVALUATION (R339): At the end of each rotation the ring evaluates its gridlock condition. -/
  | gridlockEvaluation (r : Fin 2)
  /-- RING_READY (R340): A ring becomes ready 5 us after its domain is powered. -/
  | ringReady (r : Fin 2)
  /-- BRA (R347): Engine conditional branch on a counter, slot, SR or TX condition. -/
  | engBra (e : Fin 40)
  /-- AWAIT (R344): The engine waits for a slot level, slot edge or bank flag. -/
  | engAwait (e : Fin 40)
  /-- AWAIT_SATISFIED (R344): The awaited condition holds at t_w; et := t_w and the engine continues. -/
  | awaitSatisfied (e : Fin 40)
  /-- SEND (R347): Queue n cells of SR bits onto slots at their cell times. -/
  | engSend (e : Fin 40)
  /-- TAKE (R347): Queue n cells of slot samples into CR. -/
  | engTake (e : Fin 40)
  /-- PINS (R347): Set the held level of every slot. -/
  | engPins (e : Fin 40)
  /-- DIR (R347): Set every slot's direction bit. -/
  | engDir (e : Fin 40)
  /-- FETCH (R348): Move a TX word into SR, stalling while TX is empty. -/
  | engFetch (e : Fin 40)
  /-- FETCH_STALL_END (R348): A word arrives in TX; the stall ends and et is advanced to t_r + 12 ns. -/
  | fetchStallEnd (e : Fin 40)
  /-- FETCH_NB (R348): Move a TX word into SR, or load 0 and set UNDERRUN. -/
  | engFetchNb (e : Fin 40)
  /-- STORE (R348): At its time, move CR into RX, or discard it and set OVERRUN. -/
  | engStore (e : Fin 40)
  /-- SETK (R347): Load K0 or K1 with an immediate. -/
  | engSetk (e : Fin 40)
  /-- COPY (R347): Move 32 bits between SR, CR, K0, K1, PINS, DIR, SLOTS, ZERO and STATUS with a modifier. -/
  | engCopy (e : Fin 40)
  /-- RAISE (R347): Raise a bank flag at the instruction's time. -/
  | engRaise (e : Fin 40)
  /-- LOWER (R347): Lower a bank flag at the instruction's time. -/
  | engLower (e : Fin 40)
  /-- NOTE (R347): Set ENG_FLAGS.SIGNAL. -/
  | engNote (e : Fin 40)
  /-- ENGINE_ILLEGAL (R346): An illegal engine instruction stops the logic with cause ILLEGAL and is reported and logged. -/
  | engineIllegal (e : Fin 40)
  /-- PIN_STAGE_OPERATION (R343): The Milepost reaches a queued pin-stage operation's time and it is performed, late if needed. -/
  | pinStageOperation (e : Fin 40)
  /-- ENG_STOP (R351): ENG_CMD STOP stops the logic, letting queued operations finish. -/
  | engStop (a : Agent) (e : Fin 40) (v : Word)
  /-- ENG_STOP_DISCARD (R351): ENG_CMD STOP_DISCARD stops the logic and discards queued operations. -/
  | engStopDiscard (a : Agent) (e : Fin 40) (v : Word)
  /-- ENG_RESUME (R351): ENG_CMD RESUME schedules continuation at PC at start time T. -/
  | engResume (a : Agent) (e : Fin 40) (v : Word)
  /-- ENG_RESTART (R351): ENG_CMD RESTART schedules a cleared start at address 0 at time T. -/
  | engRestart (a : Agent) (e : Fin 40) (v : Word)
  /-- ENG_FLUSH (R351): ENG_CMD FLUSH empties both FIFOs of a stopped engine. -/
  | engFlush (a : Agent) (e : Fin 40) (v : Word)
  /-- ENGINE_START (R351): Start time T arrives and a STARTING engine runs, late under R25 if needed. -/
  | engineStart (e : Fin 40)
  /-- GSTART_RESTART (R352): GSTART_CMD.GO with MODE RESTART starts every named engine at GSTART_AT. -/
  | gstartRestart (a : Agent) (v : Word)
  /-- GSTART_RESUME (R352): GSTART_CMD.GO with MODE RESUME resumes every named engine at GSTART_AT. -/
  | gstartResume (a : Agent) (v : Word)
  /-- ENG_PROG_WRITE (R351): A program word written while the engine is stopped enters a PROGRAM record. -/
  | engProgWrite (a : Agent) (e : Fin 40) (j : Fin 32) (v : Word)
  /-- ENG_OWNER_WRITE (R355): A write of ENG_OWNER changes the engine's owning thread with an OWNER record. -/
  | engOwnerWrite (a : Agent) (e : Fin 40) (v : Word)
  /-- ENGINE_BANK_READY (R342): A pin engine bank becomes ready 5 us after power-up. -/
  | engineBankReady (k : Fin 5)
  /-- PIN_OWN_WRITE (R355): A permitted PIN_OWN write changes a pin's function, index or agent with an OWNER record. -/
  | pinOwnWrite (a : Agent) (p : Fin 160) (v : Word)
  /-- LEVEL_CROSSING_END (R356): XING_NS elapses and the new function drives the pin. -/
  | levelCrossingEnd (p : Fin 160)
  /-- PIN_SOFT_WRITE (R359): A write of PIN_SOFT.LEVEL by AGENT drives a SOFT pin within 20 ns / 30 ns. -/
  | pinSoftWrite (a : Agent) (p : Fin 160) (v : Word)
  /-- PIN_INPUT_CHANGE (R358): The ball crosses VIH or VIL and the receiver's level changes. -/
  | pinInputChange (p : Fin 160) (level : Bool)
  /-- PIN_FILTER_EXPIRY (R358): A level change has held for FILT and reaches the consumers. -/
  | pinFilterExpiry (p : Fin 160)
  /-- PIN_INTF_CLEAR (R358): Clearing an interrupt flag while a HIGH or LOW level holds raises the event again. -/
  | pinIntfClear (a : Agent) (w : Fin 5) (v : Word)
  /-- RETIRE_WRITE (R368): A RETIRE entry write starts a retirement copy, rejected with cause STATE if invalid. -/
  | retireWrite (a : Agent) (j : Fin 128) (v : Word)
  /-- RETIRE_COPY_DONE (R368): The retirement copy ends and the page is remapped onto its spare. -/
  | retireCopyDone (j : Nat)
  /-- DRAM_TRAIN (R369): DRAM_CTRL.TRAINc starts training DRAM channel c. -/
  | dramTrain (a : Agent) (v : Word)
  /-- DRAM_TRAIN_DONE (R369): Training ends with the channel READY, or FAILED with DRAM_FAILED raised. -/
  | dramTrainDone (c : Fin 2) (ok : Bool)
  /-- ERR_POP (R374): ERR_POP removes the oldest error log entry. -/
  | errPop (a : Agent) (v : Word)
  /-- MEM_CLR (R375): MEM_CLR.CLEAR zeroes the ECC counts and LOST and re-arms ECC_CORR_LIMIT. -/
  | memClr (a : Agent) (v : Word)
  /-- ECC_FLIP_WRITE (R376): A write of ECC_FLIP with ARM arms one error injection, logged as LIVE. -/
  | eccFlipWrite (a : Agent) (v : Word)
  /-- SCRUB_IDLE_READ (R378): In IDLE mode the scrubber reads the next 64-byte block in a free access cycle. -/
  | scrubIdleRead
  /-- PASS_START (R379): PASS_CMD.START begins a scrub pass over the range in SERVICE mode. -/
  | passStart (a : Agent) (v : Word)
  /-- PASS_STOP (R379): PASS_CMD.STOP ends the pass early with RESULT STOPPED. -/
  | passStop (a : Agent) (v : Word)
  /-- SCRUB_PASS_BLOCK (R379): SPACING_NS elapses and the pass reads its next block. -/
  | scrubPassBlock
  /-- DMA_START (R388): CH_CTRL.START fetches the descriptor at CH_DESC and records the channel's agent. -/
  | dmaStart (a : Agent) (c : Fin 16) (v : Word)
  /-- DMA_STOP (R388): CH_CTRL.STOP issues no further beat and ends in ERROR with cause STOPPED. -/
  | dmaStop (a : Agent) (c : Fin 16) (v : Word)
  /-- DMA_TRIGGER (R383): CH_CTRL.TRIGGER sets the channel's trigger pending bit. -/
  | dmaTrigger (a : Agent) (c : Fin 16) (v : Word)
  /-- DMA_CLEAR (R392): CH_CTRL.CLEAR clears CH_FLAGS and MERGED. -/
  | dmaClear (a : Agent) (c : Fin 16) (v : Word)
  /-- DMA_DESC_FETCHED (R380): A fetched descriptor is checked and begins, waits for a trigger, or ends in ERROR. -/
  | dmaDescFetched (c : Fin 16)
  /-- DMA_READ_ANSWERED (R381): A source burst returns to the buffer, or fails with cause READ or UNCORR. -/
  | dmaReadAnswered (c : Fin 16) (data : List Byte)
  /-- DMA_WRITE_ANSWERED (R385): A destination write is answered; HALF, FULL or ERROR and chaining follow. -/
  | dmaWriteAnswered (c : Fin 16)
  /-- EVENT_RAISE (R395): An event reaches the Junction, sets RAISED, and is delivered to lines, threads, host rings, tie link and ID-selecting blocks. -/
  | eventRaise
  /-- SW_RAISE (R398): A logged write of SW_RAISE raises a software event with a value. -/
  | swRaise (a : Agent) (v : Word)
  /-- HOST_DOORBELL (R424): A DOORBELL write raises HOST_DOORBELL_n for each bit set. -/
  | hostDoorbell (a : Agent) (v : Word)
  /-- HOST_BAR_READ (R401): A host read through a BAR completes, or gets a completer abort. -/
  | hostBarRead (bar : Fin 3) (off n : Nat)
  /-- HOST_BAR_WRITE (R401): A posted host write through a BAR is applied, or discarded when refused. -/
  | hostBarWrite (bar : Fin 3) (off : Nat) (data : List Byte)
  /-- HOST_READ_TIMEOUT (R402): A DMA read through the host window gets no completion within 100 us and the beat fails. -/
  | hostReadTimeout (c : Fin 16)
  /-- HOST_LINK_DOWN (R409): DL_Down or PERST_N is seen; HOST_LINK_DOWN is raised, host claims aborted and rings disabled. -/
  | hostLinkDown
  /-- HOST_LINK_UP (R410): The link trains and HOST_LINK_UP is raised. -/
  | hostLinkUp (speed : Fin 5) (width : Fin 3) (bme : Bool)
  /-- HOST_FUNCTION_RESET (R410): PERST_N, hot reset or FLR resets the endpoint and the HOST ring and window registers. -/
  | hostFunctionReset
  /-- HOST_RECORD_WRITE (R405): A queued record is written to its ring as space allows, and MSI-X follows after COUNT records. -/
  | hostRecordWrite (r : Fin 8)
  /-- RING_IRQ_TIMEOUT (R405): A written record has waited TIME_US without a message, so the ring's MSI-X vector is sent. -/
  | ringIrqTimeout (r : Fin 8)
  /-- RING_TAIL_WRITE (R403): The host writes RING_TAIL, rejected when it moves backward or passes HEAD. -/
  | ringTailWrite (a : Agent) (r : Fin 8) (v : Word)
  /-- RING_ENABLE (R403): Setting RING_CTRL.EN zeroes HEAD and TAIL and enables the ring. -/
  | ringEnable (a : Agent) (r : Fin 8) (v : Word)
  /-- TELEMETRY_SNAPSHOT (R408): A telemetry occurrence latches the listed words and writes TELEMETRY records. -/
  | telemetrySnapshot
  /-- ECHO_SEND (R412): Every 1 us an ECHO_REQ is sent on each lane pair. -/
  | echoSend
  /-- ECHO_REQ_RECEIVE (R413): An ECHO_REQ arrives and is answered with ECHO_RSP carrying the residence time. -/
  | echoReqReceive (lane : Fin 2) (good : Bool) (departed residence : DWord)
  /-- ECHO_RSP_RECEIVE (R413): An ECHO_RSP arrives and the hop delay d is computed. -/
  | echoRspReceive (lane : Fin 2) (good : Bool) (off : Fin 64) (residence : DWord)
  /-- SYNC_SEND (R413): Every 1 us the master sends SYNC with correction d. -/
  | syncSend
  /-- SYNC_RECEIVE (R414): A follower receives SYNC, loads or slews its Milepost, and forwards SYNC. -/
  | syncReceive (good : Bool) (off : Fin 64) (stamp corr residence : DWord)
  /-- PLAN_RECEIVE (R416): A PLAN frame arrives; the follower applies the plan at GRP_AT, or at once if late. -/
  | planReceive (lane : Fin 2) (good : Bool) (g : Fin 16) (base at_ : DWord) (seq : Nat)
  /-- TIE_EVENT_RECEIVE (R418): A forwarded EVENT frame is raised locally as event 1408 + 32·POS + j. -/
  | tieEventReceive (lane : Fin 2) (good : Bool) (p : Fin 4) (j : Fin 32) (seq : Nat)
  /-- RA_REQ_RECEIVE (R419): A remote-access request is performed under agent 0x0700 + POS and answered. -/
  | raReqReceive (lane : Fin 2) (good : Bool) (p : Fin 4) (addr data : Word) (write : Bool) (seq : Nat)
  /-- RA_RSP_RECEIVE (R419): A remote-access response ends the access with its RESULT. -/
  | raRspReceive (lane : Fin 2) (good : Bool) (p : Fin 4) (data : Word) (result : Fin 3) (cause : Fin 16) (seq : Nat)
  /-- ACK_RECEIVE (R412): An ACK stops the resending of a PLAN, EVENT or RA frame. -/
  | ackReceive (lane : Fin 2) (good : Bool) (p : Fin 4) (seq : Nat)
  /-- TIE_RESEND (R412): An unacknowledged frame is sent again after 1 us, at most 8 times. -/
  | tieResend
  /-- TIE_SYNC_LOSS (R415): No SYNC arrives for LOSS_US; ALIGNED clears and TIE_ALIGN_LOST is raised. -/
  | tieSyncLoss
  /-- TIE_HOP_LOSS (R415): A hop passes no good frame for LOSS_US, goes DOWN and raises TIE_DOWN. -/
  | tieHopLoss (h : Fin 2)
  /-- TIE_RA_READ (R419): RA_CTRL.GO with WRITE = 0 sends a remote read to PEER. -/
  | tieRaRead (a : Agent) (v : Word)
  /-- TIE_RA_WRITE (R419): RA_CTRL.GO with WRITE = 1 sends a remote write of RA_DATA to PEER. -/
  | tieRaWrite (a : Agent) (v : Word)
  /-- TIE_RA_TIMEOUT (R419): No answer arrives in 50 us and RESULT becomes TIMEOUT. -/
  | tieRaTimeout
  /-- DEBUG_READ (R421): DBG_CMD.GO with READ reads at DBG_ADDR into DBG_DATA. -/
  | debugRead (a : Agent) (v : Word)
  /-- DEBUG_WRITE (R421): DBG_CMD.GO with WRITE writes DBG_DATA at DBG_ADDR. -/
  | debugWrite (a : Agent) (v : Word)
  /-- DBG_HALT (R422): DBG_CORE HALT stops a core, or a lockstep pair, after the current instruction. -/
  | dbgHalt (a : Agent) (v : Word)
  /-- DBG_RESUME (R422): DBG_CORE RESUME continues a halted core. -/
  | dbgResume (a : Agent) (v : Word)
  /-- DBG_STEP (R422): DBG_CORE STEP runs one instruction of a halted core. -/
  | dbgStep (a : Agent) (v : Word)
  /-- CONS_PROPOSE (R431): Party A's PROPOSE is checked, its digest compared, and STATE becomes PROPOSED. -/
  | consPropose (a : Agent) (v : Word)
  /-- CONS_CONFIRM (R432): Party B's matching CONFIRM applies every entry as one commit, or a mismatch is rejected. -/
  | consConfirm (a : Agent) (v : Word)
  /-- CONS_WITHDRAW (R433): Party A withdraws the proposal; RESULT becomes WITHDRAWN and CONS_SEQ increments. -/
  | consWithdraw (a : Agent) (v : Word)
  /-- CONSENT_TIMEOUT (R433): The confirmation window expires; RESULT becomes TIMEOUT and CONSENT_REJECT is raised. -/
  | consentTimeout
  /-- FAULT_OCCURRENCE (R434): A fault source reports an occurrence; the fault manager counts it and takes its fixed and configured actions. -/
  | faultOccurrence
  /-- SAFE_REL (R436): A SAFE_REL write releases fault-manager safe states at each pin's resume point. -/
  | safeRel (a : Agent) (w : Fin 5) (v : Word)
  /-- RELEASE_FAULT_N (R437): FM_CMD.RELEASE_FAULT_N releases FAULT_N, rejected while THERM_TRIP holds. -/
  | releaseFaultN (a : Agent) (v : Word)
  /-- FAULT_COUNTS_CLEAR (R453): FM_CMD.CLEAR zeroes SRC_COUNT and ACTIONS. -/
  | faultCountsClear (a : Agent) (v : Word)
  /-- EXT_FAULT (R437): FAULT_N reads low for 100 ns while the device is not asserting it, and EXT_FAULT occurs. -/
  | extFault
  /-- DOM_CTRL_WRITE (R441): A DOM_CTRL write powers domains down or up, judged against the state it leaves. -/
  | domCtrlWrite (a : Agent) (w : Fin 2) (v : Word)
  /-- DOMAIN_READY (R441): A domain's power ramp completes and its readiness time begins. -/
  | domainReady (n : Fin 59)
  /-- VIO_CFG_WRITE (R444): A VIO_CFG write changes a bank's rail level, rejected unless all its pins are FUNC NONE. -/
  | vioCfgWrite (a : Agent) (v : Word)
  /-- VIO_LEVEL_REACHED (R444): The bank rail reaches its new level and BANK_VIO shows it. -/
  | vioLevelReached (b : Fin 5)
  /-- RAIL_SAMPLE (R445): Every 1 us each rail is measured. -/
  | railSample (vin vint vcore vdda vio0 vio1 vio2 vio3 vio4 : Nat)
  /-- SUPPLY_FAULT (R445): A rail stays outside tolerance for 10 us; SUPPLY_FAULT is raised and RAIL_FLAGS set. -/
  | supplyFault (rail : Fin 8)
  /-- TEMP_SAMPLE (R445): Every 10 us the highest sensor is sampled against WARN and TRIP. -/
  | tempSample (tj : Int)
  /-- THERM_HARD_TRIP (R445): Tj reaches 150 °C and every output goes to its safe state over the hardwired path until reset. -/
  | thermHardTrip
  /-- VIN_FAIL_ARM (R445): VIN has stood above 105 % of the threshold for 1 ms and VIN_FAIL is armed. -/
  | vinFailArm
  /-- VINT_RAMP_DONE (R67): VINT rises above 4.75 V and the supply die brings up VCORE at 0.75 V, the 1.8 V analog rail and the I/O bank rails. -/
  | vintRampDone
  /-- MEMORY_INIT_DONE (R366): A freshly powered memory finishes filling with zeros and valid check bits, taking at most 100 us for a TCM or shared SRAM bank, and then reports ready. -/
  | memoryInitDone (code : Nat)
  /-- EVC_PEND_WRITE (R294): A write of EVC_PEND sets the pending bits of the lines written with 1, which can make lines eligible for entry. -/
  | evcPendWrite (c : Fin 4) (hi : Bool) (v : Word)
  /-- EXT_FAULT_REARM (R437): The FAULT_N ball has read high continuously for 100 ns, so the EXT_FAULT occurrence arms again. -/
  | extFaultRearm
  /-- TAP_OPERATION (R420): The IEEE 1149.1 TAP performs BYPASS, IDCODE, SAMPLE/PRELOAD or EXTEST, where EXTEST drives the pins from the boundary register. -/
  | tapOperation (op : TapOp)
  deriving DecidableEq, Repr

end Sys2Proof
end

