-- ==== Sys2Proof/Decode.lean ====
section
/-!
DEFINITION. Decode.lean: the commands that a word of spec/opcode_table.json spells. The table gives no row any bits.
-/
namespace Sys2Proof

/-- The command that a word of `nbits` bits spells: none, as no row of the table has bits. [Log 60 DESIGN CHOICE] -/
def decodeTableWord (_nbits _w : Nat) : Option Instr := none

end Sys2Proof
end

