-- ==== Sys2Proof/Machine/Bits.lean ====
section
/-!
DEFINITION. Machine/Bits.lean: bit fields of words, sign extension, byte order, saturating counters, modular time (R3, R4),
and the two cyclic redundancy checks the spec names (R56, and CRC-32 ISO-HDLC).
-/
namespace Sys2Proof.Machine

/-- Bits [hi:lo] of a number. -/
def bitsOf (n hi lo : Nat) : Nat := n / 2 ^ lo % 2 ^ (hi + 1 - lo)

/-- The number with bits [hi:lo] replaced by `v`. -/
def putBits (n hi lo v : Nat) : Nat :=
  n - bitsOf n hi lo * 2 ^ lo + v % 2 ^ (hi + 1 - lo) * 2 ^ lo

/-- Bit `i` of a number. -/
def bitOf (n i : Nat) : Bool := n / 2 ^ i % 2 == 1

/-- A bit as a number. -/
def b2n (b : Bool) : Nat := if b then 1 else 0

/-- The signed value of the low `w` bits of a number (two's complement). -/
def sext (w n : Nat) : Int :=
  let m := n % 2 ^ w
  if m < 2 ^ (w - 1) then (m : Int) else (m : Int) - (2 ^ w : Nat)

/-- The low `w` bits of an integer. -/
def low (w : Nat) (i : Int) : Nat := (i % ((2 ^ w : Nat) : Int)).toNat

/-- An integer kept within two limits. -/
def clampI (lo hi i : Int) : Int := if i < lo then lo else if hi < i then hi else i

/-- One more, but never past `cap`: the saturating counters of the register tables. -/
def satInc (cap n : Nat) : Nat := if n < cap then n + 1 else cap

/-- Floor division and rounding to nearest, ties upward, of an integer by a power of two. -/
def shrFloor (i : Int) (k : Nat) : Int := i / ((2 ^ k : Nat) : Int)
def shrRound (i : Int) (k : Nat) : Int := if k = 0 then i else (i + ((2 ^ (k - 1) : Nat) : Int)) / ((2 ^ k : Nat) : Int)

/-- `n` bytes of a number, little-endian (spec/00, Numbers and units). -/
def toBytes : Nat → Nat → List Byte
  | 0, _ => []
  | k + 1, n => BitVec.ofNat 8 n :: toBytes k (n / 256)

/-- The number a little-endian byte list spells. -/
def ofBytes : List Byte → Nat
  | [] => 0
  | b :: t => b.toNat + 256 * ofBytes t

/-- Population count of the low `w` bits. -/
def popCount : Nat → Nat → Nat
  | 0, _ => 0
  | k + 1, n => n % 2 + popCount k (n / 2)

/-- The positions below `w` whose bit is set, rising. -/
def setBits (w n : Nat) : List Nat := (List.range w).filter (bitOf n)

/-! ### Time (R3, R4, R25) -/

/-- Time `a` precedes time `b` (R4). -/
def before (a b : Time) : Bool := (b - a) != 0 && (b - a).toNat < 2 ^ 63

/-- Lateness of an action in fine ticks, 0 if on time (R25). -/
def lateness (target applied : Time) : Nat := if before target applied then (applied - target).toNat else 0

/-- A duration in nanoseconds as fine ticks. -/
def nsT (n : Nat) : Time := BitVec.ofNat 64 (n * 64)

/-- The whole nanosecond of a time (R24). -/
def floorNs (t : Time) : Time := t &&& ~~~(63#64)

/-- The time rounded up to the next whole nanosecond. -/
def ceilNs (t : Time) : Time := floorNs (t + 63)

/-- Whole nanoseconds of a time. -/
def nsOf (t : Time) : Nat := t.toNat / 64

/-- The later of two times. -/
def maxT (a b : Time) : Time := if before a b then b else a

/-- Time `t` has been reached within the Milepost's present nanosecond `now`. -/
def reached (t now : Time) : Bool := !before (now ||| 63#64) t

/-! ### Checks -/

/-- One bit of CRC-16/CCITT-FALSE (R56). -/
def crc16Bit (c : Nat) : Nat := if c / 0x8000 % 2 = 1 then (c * 2 % 0x10000) ^^^ 0x1021 else c * 2 % 0x10000

/-- One byte of CRC-16/CCITT-FALSE. -/
def crc16Byte (c : Nat) (b : Byte) : Nat :=
  (List.range 8).foldl (fun c _ => crc16Bit c) (c ^^^ (b.toNat * 256))

/-- CRC-16/CCITT-FALSE: polynomial 0x1021, initial 0xFFFF, no reflection, no final XOR (R56). -/
def crc16 (bs : List Byte) : Nat := bs.foldl crc16Byte 0xFFFF

/-- One bit of CRC-32 ISO-HDLC. -/
def crc32Bit (c : Nat) : Nat := if c % 2 = 1 then c / 2 ^^^ 0xEDB88320 else c / 2

/-- One byte of CRC-32 ISO-HDLC. -/
def crc32Byte (c : Nat) (b : Byte) : Nat := (List.range 8).foldl (fun c _ => crc32Bit c) (c ^^^ b.toNat)

/-- CRC-32 (ISO-HDLC) of a byte string (R55, R412). [Log 41 PRESUMED] -/
def crc32 (bs : List Byte) : Nat := bs.foldl crc32Byte 0xFFFFFFFF ^^^ 0xFFFFFFFF

end Sys2Proof.Machine
end

