-- ==== Sys2Proof/Config.lean ====
section
/-!
DEFINITION. Config.lean: what one device and its board fix (straps, fused words, keys) and the values the spec leaves open.
Every constant is opaque, so nothing can be proved of its value.
-/
namespace Sys2Proof

/-- The REF_SEL strap, sampled at power-on reset: true selects the 100 MHz reference (spec/01, R33). [Log 6 DESIGN CHOICE] -/
opaque Config.strapRef100 : Bool
/-- The strap for an external VCORE (R30, R33, R454). [Log 6 DESIGN CHOICE] -/
opaque Config.strapVcoreExt : Bool
/-- The strap for external VIO rails (R454). [Log 6 DESIGN CHOICE] -/
opaque Config.strapIoExt : Bool
/-- The TEST_EN strap (R454). [Log 6 DESIGN CHOICE] -/
opaque Config.strapTestEn : Bool
/-- The fused words of the ID block by register offset: IDCODE, PCI_ID, UID, KEY_HASH (R455). [Log 6 DESIGN CHOICE] -/
opaque Config.fused : Nat → Word
/-- The contents of the boot ROM by offset, which the spec does not give (R364). [Log 6 DESIGN CHOICE] -/
opaque Config.rom : Nat → Byte
/-- A value the spec leaves open, one per number of the free-value counter of State. [Log 3 DESIGN CHOICE] -/
opaque Config.freeValue : Nat → DWord

end Sys2Proof
end

