-- ==== Sys2Proof/Machine/RegMap.lean ====
section
/-!
DEFINITION. Machine/RegMap.lean: the address of every register and the place of every field, as the register tables of
spec/01 to spec/18 give them. A register's key is its block ID in bits [23:16] and its offset in bits [15:0] (R365). The
registers private to a core (R249) are CoreRegs.lean's. A register that several blocks carry is indexed across them
(timer 0-47, channel 0-95, comparator 0-191, slot 0-31, thread 0-63).
-/
namespace Sys2Proof.Machine

/-- A field of a register word: the word's key and the field's highest and lowest bit. -/
structure Fld where
  addr : Nat
  hi : Nat
  lo : Nat
  deriving DecidableEq, Repr


/-- MILEPOST.MP_NOW_LO (R33). -/
def MILEPOST.MP_NOW_LO : Nat := 0x20000
/-- MILEPOST.MP_NOW_HI (R33). -/
def MILEPOST.MP_NOW_HI : Nat := 0x20004
/-- MILEPOST.MP_CTRL (R33). -/
def MILEPOST.MP_CTRL : Nat := 0x20008
def MILEPOST.MP_CTRL_AUTO_RETURN : Fld := ⟨MILEPOST.MP_CTRL, 4, 4⟩
def MILEPOST.MP_CTRL_RETURN : Fld := ⟨MILEPOST.MP_CTRL, 2, 2⟩
def MILEPOST.MP_CTRL_REF_FREQ : Fld := ⟨MILEPOST.MP_CTRL, 1, 0⟩
/-- MILEPOST.MP_STATUS (R33). -/
def MILEPOST.MP_STATUS : Nat := 0x2000C
def MILEPOST.MP_STATUS_TIE_FOLLOWER : Fld := ⟨MILEPOST.MP_STATUS, 7, 7⟩
def MILEPOST.MP_STATUS_SET_OPEN : Fld := ⟨MILEPOST.MP_STATUS, 6, 6⟩
def MILEPOST.MP_STATUS_SLEWING : Fld := ⟨MILEPOST.MP_STATUS, 5, 5⟩
def MILEPOST.MP_STATUS_BACKUP_TRAINED : Fld := ⟨MILEPOST.MP_STATUS, 4, 4⟩
def MILEPOST.MP_STATUS_REF_STATE : Fld := ⟨MILEPOST.MP_STATUS, 2, 0⟩
/-- MILEPOST.MP_FLAGS (R33). -/
def MILEPOST.MP_FLAGS : Nat := 0x20010
def MILEPOST.MP_FLAGS_LATE : Fld := ⟨MILEPOST.MP_FLAGS, 3, 3⟩
def MILEPOST.MP_FLAGS_SLEW_DONE : Fld := ⟨MILEPOST.MP_FLAGS, 2, 2⟩
def MILEPOST.MP_FLAGS_REF_RETURNED : Fld := ⟨MILEPOST.MP_FLAGS, 1, 1⟩
def MILEPOST.MP_FLAGS_REF_LOST : Fld := ⟨MILEPOST.MP_FLAGS, 0, 0⟩
/-- MILEPOST.MP_SET (R33). -/
def MILEPOST.MP_SET : Nat := 0x20018
/-- MILEPOST.MP_SLEW (R33). -/
def MILEPOST.MP_SLEW : Nat := 0x20020
/-- MILEPOST.MP_SLEW_CFG (R33). -/
def MILEPOST.MP_SLEW_CFG : Nat := 0x20024
def MILEPOST.MP_SLEW_CFG_INTERVAL : Fld := ⟨MILEPOST.MP_SLEW_CFG, 15, 0⟩
/-- MILEPOST.MP_REFQUAL (R33). -/
def MILEPOST.MP_REFQUAL : Nat := 0x20028
def MILEPOST.MP_REFQUAL_FREQ_TOL : Fld := ⟨MILEPOST.MP_REFQUAL, 15, 8⟩
def MILEPOST.MP_REFQUAL_MISS_LIMIT : Fld := ⟨MILEPOST.MP_REFQUAL, 3, 0⟩
/-- MILEPOST.MP_HOLD_TIME (R33). -/
def MILEPOST.MP_HOLD_TIME : Nat := 0x2002C
/-- MILEPOST.LATE_COUNT (R33). -/
def MILEPOST.LATE_COUNT : Nat := 0x20040
/-- MILEPOST.LATE_CLR (R33). -/
def MILEPOST.LATE_CLR : Nat := 0x20044
def MILEPOST.LATE_CLR_CLEAR : Fld := ⟨MILEPOST.LATE_CLR, 0, 0⟩
/-- MILEPOST.LATE_LAST (R33). -/
def MILEPOST.LATE_LAST : Nat := 0x20048
/-- MILEPOST.LATE_SRC (R33). -/
def MILEPOST.LATE_SRC : Nat := 0x20050
def MILEPOST.LATE_SRC_BLOCK : Fld := ⟨MILEPOST.LATE_SRC, 23, 16⟩
def MILEPOST.LATE_SRC_LATE_NS : Fld := ⟨MILEPOST.LATE_SRC, 15, 0⟩
/-- MILEPOST.PACE_CTRL (R33). -/
def MILEPOST.PACE_CTRL : Nat := 0x20080
def MILEPOST.PACE_CTRL_WINDOW : Fld := ⟨MILEPOST.PACE_CTRL, 5, 4⟩
def MILEPOST.PACE_CTRL_MODE : Fld := ⟨MILEPOST.PACE_CTRL, 1, 0⟩
/-- MILEPOST.PACE_TARGET (R33). -/
def MILEPOST.PACE_TARGET : Nat := 0x20084
def MILEPOST.PACE_TARGET_RING_BUDGET : Fld := ⟨MILEPOST.PACE_TARGET, 31, 16⟩
def MILEPOST.PACE_TARGET_LOOP_BUDGET : Fld := ⟨MILEPOST.PACE_TARGET, 15, 0⟩
/-- MILEPOST.PACE_MARGIN_CFG (R33). -/
def MILEPOST.PACE_MARGIN_CFG : Nat := 0x20088
def MILEPOST.PACE_MARGIN_CFG_LOWER_MARGIN : Fld := ⟨MILEPOST.PACE_MARGIN_CFG, 15, 8⟩
def MILEPOST.PACE_MARGIN_CFG_RAISE_MARGIN : Fld := ⟨MILEPOST.PACE_MARGIN_CFG, 7, 0⟩
/-- MILEPOST.PACE_STEP (R33). -/
def MILEPOST.PACE_STEP : Nat := 0x2008C
def MILEPOST.PACE_STEP_UP_STEP : Fld := ⟨MILEPOST.PACE_STEP, 15, 8⟩
def MILEPOST.PACE_STEP_DOWN_STEP : Fld := ⟨MILEPOST.PACE_STEP, 7, 0⟩
/-- MILEPOST.PACE_WORST (R33). -/
def MILEPOST.PACE_WORST : Nat := 0x20090
def MILEPOST.PACE_WORST_RING_WORST : Fld := ⟨MILEPOST.PACE_WORST, 31, 16⟩
def MILEPOST.PACE_WORST_LOOP_WORST : Fld := ⟨MILEPOST.PACE_WORST, 15, 0⟩
/-- MILEPOST.PACE_STATUS (R33). -/
def MILEPOST.PACE_STATUS : Nat := 0x20094
def MILEPOST.PACE_STATUS_OVER_BUDGET : Fld := ⟨MILEPOST.PACE_STATUS, 15, 15⟩
def MILEPOST.PACE_STATUS_EXTERNAL : Fld := ⟨MILEPOST.PACE_STATUS, 14, 14⟩
def MILEPOST.PACE_STATUS_AT_CEILING : Fld := ⟨MILEPOST.PACE_STATUS, 13, 13⟩
def MILEPOST.PACE_STATUS_AT_FLOOR : Fld := ⟨MILEPOST.PACE_STATUS, 12, 12⟩
def MILEPOST.PACE_STATUS_VCORE_MV : Fld := ⟨MILEPOST.PACE_STATUS, 11, 0⟩
/-- SYS.WHOAMI (R65). -/
def SYS.WHOAMI : Nat := 0x8
def SYS.WHOAMI_AGENT : Fld := ⟨SYS.WHOAMI, 15, 0⟩
/-- SYS.COMMIT_SEQ (R65). -/
def SYS.COMMIT_SEQ : Nat := 0x10
def SYS.COMMIT_SEQ_SEQ : Fld := ⟨SYS.COMMIT_SEQ, 15, 0⟩
/-- SYS.CLAIM_LIMIT (R65). -/
def SYS.CLAIM_LIMIT : Nat := 0x14
def SYS.CLAIM_LIMIT_LIMIT_US : Fld := ⟨SYS.CLAIM_LIMIT, 15, 0⟩
/-- SYS.GC_CTRL (R65). -/
def SYS.GC_CTRL : Nat := 0x20
def SYS.GC_CTRL_GO : Fld := ⟨SYS.GC_CTRL, 31, 31⟩
def SYS.GC_CTRL_CANCEL : Fld := ⟨SYS.GC_CTRL, 30, 30⟩
def SYS.GC_CTRL_CLEAR : Fld := ⟨SYS.GC_CTRL, 29, 29⟩
def SYS.GC_CTRL_MODE : Fld := ⟨SYS.GC_CTRL, 0, 0⟩
/-- SYS.GC_AT (R65). -/
def SYS.GC_AT : Nat := 0x28
/-- SYS.GC_STATUS (R65). -/
def SYS.GC_STATUS : Nat := 0x30
def SYS.GC_STATUS_OWNER : Fld := ⟨SYS.GC_STATUS, 31, 16⟩
def SYS.GC_STATUS_CAUSE : Fld := ⟨SYS.GC_STATUS, 15, 12⟩
def SYS.GC_STATUS_LATE : Fld := ⟨SYS.GC_STATUS, 11, 11⟩
def SYS.GC_STATUS_STATE : Fld := ⟨SYS.GC_STATUS, 2, 0⟩
/-- SYS.GC_RESULT (R65). -/
def SYS.GC_RESULT : Nat := 0x34
def SYS.GC_RESULT_RECORDS : Fld := ⟨SYS.GC_RESULT, 31, 16⟩
def SYS.GC_RESULT_SEQ : Fld := ⟨SYS.GC_RESULT, 15, 0⟩
/-- SYS.GC_APPLIED (R65). -/
def SYS.GC_APPLIED : Nat := 0x38
/-- SYS.SNAP_CTRL (R65). -/
def SYS.SNAP_CTRL : Nat := 0x40
def SYS.SNAP_CTRL_MODE : Fld := ⟨SYS.SNAP_CTRL, 1, 1⟩
def SYS.SNAP_CTRL_REQUEST : Fld := ⟨SYS.SNAP_CTRL, 0, 0⟩
/-- SYS.SNAP_STATUS (R65). -/
def SYS.SNAP_STATUS : Nat := 0x44
def SYS.SNAP_STATUS_COUNT : Fld := ⟨SYS.SNAP_STATUS, 31, 16⟩
def SYS.SNAP_STATUS_DONE : Fld := ⟨SYS.SNAP_STATUS, 1, 1⟩
def SYS.SNAP_STATUS_PENDING : Fld := ⟨SYS.SNAP_STATUS, 0, 0⟩
/-- SYS.SNAP_AT (R65). -/
def SYS.SNAP_AT : Nat := 0x48
/-- SYS.SNAP_TIME (R65). -/
def SYS.SNAP_TIME : Nat := 0x50
/-- SYS.SNAP_MASK (R65). -/
def SYS.SNAP_MASK : Nat := 0x58
/-- SYS.GC_LIST (R65). -/
def SYS.GC_LIST (n : Nat) : Nat := 0x100 + 0x4 * n
def SYS.GC_LIST_VALID (n : Nat) : Fld := ⟨(SYS.GC_LIST n), 31, 31⟩
def SYS.GC_LIST_BLOCK (n : Nat) : Fld := ⟨(SYS.GC_LIST n), 15, 8⟩
def SYS.GC_LIST_GROUP (n : Nat) : Fld := ⟨(SYS.GC_LIST n), 7, 0⟩
/-- LEDGER.LG_CTRL (R66). -/
def LEDGER.LG_CTRL : Nat := 0x10000
def LEDGER.LG_CTRL_TARGET : Fld := ⟨LEDGER.LG_CTRL, 1, 0⟩
/-- LEDGER.LG_STATUS (R66). -/
def LEDGER.LG_STATUS : Nat := 0x10004
def LEDGER.LG_STATUS_OVERRUN : Fld := ⟨LEDGER.LG_STATUS, 18, 18⟩
def LEDGER.LG_STATUS_DRAINING : Fld := ⟨LEDGER.LG_STATUS, 17, 17⟩
def LEDGER.LG_STATUS_STALLING : Fld := ⟨LEDGER.LG_STATUS, 16, 16⟩
def LEDGER.LG_STATUS_OCC : Fld := ⟨LEDGER.LG_STATUS, 12, 0⟩
/-- LEDGER.LG_RING_BASE (R66). -/
def LEDGER.LG_RING_BASE : Nat := 0x10008
/-- LEDGER.LG_NEXT_SEQ (R66). -/
def LEDGER.LG_NEXT_SEQ : Nat := 0x10010
/-- LEDGER.LG_DRAINED_SEQ (R66). -/
def LEDGER.LG_DRAINED_SEQ : Nat := 0x10014
/-- LEDGER.LG_READ_SEQ (R66). -/
def LEDGER.LG_READ_SEQ : Nat := 0x10018
/-- LEDGER.LG_HOST_MIRROR (R66). -/
def LEDGER.LG_HOST_MIRROR : Nat := 0x10020
def LEDGER.LG_HOST_MIRROR_RING : Fld := ⟨LEDGER.LG_HOST_MIRROR, 10, 8⟩
def LEDGER.LG_HOST_MIRROR_KINDS : Fld := ⟨LEDGER.LG_HOST_MIRROR, 7, 0⟩
/-- LEDGER.LG_NOR_MIRROR (R66). -/
def LEDGER.LG_NOR_MIRROR : Nat := 0x10024
def LEDGER.LG_NOR_MIRROR_KINDS : Fld := ⟨LEDGER.LG_NOR_MIRROR, 7, 0⟩
/-- LEDGER.LG_NOR_DROPPED (R66). -/
def LEDGER.LG_NOR_DROPPED : Nat := 0x10028
/-- LEDGER.LG_STALL_COUNT (R66). -/
def LEDGER.LG_STALL_COUNT : Nat := 0x10030
/-- LEDGER.LG_STALL_MAX (R66). -/
def LEDGER.LG_STALL_MAX : Nat := 0x10034
/-- LEDGER.LG_CLR (R66). -/
def LEDGER.LG_CLR : Nat := 0x10038
def LEDGER.LG_CLR_CLEAR : Fld := ⟨LEDGER.LG_CLR, 0, 0⟩
/-- LEDGER.LG_WIN_SEQ (R66). -/
def LEDGER.LG_WIN_SEQ : Nat := 0x10040
/-- LEDGER.LG_WIN_STATUS (R66). -/
def LEDGER.LG_WIN_STATUS : Nat := 0x10044
def LEDGER.LG_WIN_STATUS_GONE : Fld := ⟨LEDGER.LG_WIN_STATUS, 1, 1⟩
def LEDGER.LG_WIN_STATUS_VALID : Fld := ⟨LEDGER.LG_WIN_STATUS, 0, 0⟩
/-- LEDGER.LG_FLAGS (R66). -/
def LEDGER.LG_FLAGS : Nat := 0x10048
def LEDGER.LG_FLAGS_STALL : Fld := ⟨LEDGER.LG_FLAGS, 0, 0⟩
/-- LEDGER.LG_WIN_DATA (R66). -/
def LEDGER.LG_WIN_DATA (n : Nat) : Nat := 0x10060 + 0x4 * n
/-- NVM.BOOT_STATUS (R93). -/
def NVM.BOOT_STATUS : Nat := 0x90000
def NVM.BOOT_STATUS_TIE_TIMEOUT : Fld := ⟨NVM.BOOT_STATUS, 16, 16⟩
def NVM.BOOT_STATUS_B_RESULT : Fld := ⟨NVM.BOOT_STATUS, 15, 12⟩
def NVM.BOOT_STATUS_A_RESULT : Fld := ⟨NVM.BOOT_STATUS, 11, 8⟩
def NVM.BOOT_STATUS_COPY : Fld := ⟨NVM.BOOT_STATUS, 4, 4⟩
def NVM.BOOT_STATUS_STATE : Fld := ⟨NVM.BOOT_STATUS, 2, 0⟩
/-- NVM.BOOT_SERIAL (R93). -/
def NVM.BOOT_SERIAL : Nat := 0x90008
/-- NVM.BOOT_TIME (R93). -/
def NVM.BOOT_TIME : Nat := 0x90010
/-- NVM.FL_CTRL (R93). -/
def NVM.FL_CTRL : Nat := 0x90040
def NVM.FL_CTRL_COPY : Fld := ⟨NVM.FL_CTRL, 8, 8⟩
def NVM.FL_CTRL_OP : Fld := ⟨NVM.FL_CTRL, 3, 0⟩
/-- NVM.FL_ADDR (R93). -/
def NVM.FL_ADDR : Nat := 0x90044
def NVM.FL_ADDR_ADDR : Fld := ⟨NVM.FL_ADDR, 27, 0⟩
/-- NVM.FL_LEN (R93). -/
def NVM.FL_LEN : Nat := 0x90048
def NVM.FL_LEN_LEN : Fld := ⟨NVM.FL_LEN, 16, 0⟩
/-- NVM.FL_BUF (R93). -/
def NVM.FL_BUF : Nat := 0x90050
/-- NVM.FL_STATUS (R93). -/
def NVM.FL_STATUS : Nat := 0x90058
def NVM.FL_STATUS_RESULT : Fld := ⟨NVM.FL_STATUS, 11, 8⟩
def NVM.FL_STATUS_ERROR : Fld := ⟨NVM.FL_STATUS, 2, 2⟩
def NVM.FL_STATUS_DONE : Fld := ⟨NVM.FL_STATUS, 1, 1⟩
def NVM.FL_STATUS_BUSY : Fld := ⟨NVM.FL_STATUS, 0, 0⟩
/-- NVM.JNL_STATUS (R93). -/
def NVM.JNL_STATUS : Nat := 0x90080
def NVM.JNL_STATUS_CHECKPOINTING : Fld := ⟨NVM.JNL_STATUS, 31, 31⟩
def NVM.JNL_STATUS_FREE : Fld := ⟨NVM.JNL_STATUS, 26, 16⟩
def NVM.JNL_STATUS_HEAD : Fld := ⟨NVM.JNL_STATUS, 10, 0⟩
/-- NVM.JNL_NEXT_SEQ (R93). -/
def NVM.JNL_NEXT_SEQ : Nat := 0x90084
/-- NVM.JNL_CP_SEQ (R93). -/
def NVM.JNL_CP_SEQ : Nat := 0x90088
/-- NVM.JNL_ERASES (R93). -/
def NVM.JNL_ERASES : Nat := 0x9008C
/-- NVM.JNL_COUNTS (R93). -/
def NVM.JNL_COUNTS : Nat := 0x90090
def NVM.JNL_COUNTS_SKIPPED : Fld := ⟨NVM.JNL_COUNTS, 31, 16⟩
def NVM.JNL_COUNTS_REPLAYED : Fld := ⟨NVM.JNL_COUNTS, 15, 0⟩
/-- NVM.JNL_CTRL (R93). -/
def NVM.JNL_CTRL : Nat := 0x90094
def NVM.JNL_CTRL_CALIB_MIN : Fld := ⟨NVM.JNL_CTRL, 23, 8⟩
def NVM.JNL_CTRL_CALIB_SAVE : Fld := ⟨NVM.JNL_CTRL, 1, 1⟩
def NVM.JNL_CTRL_CHECKPOINT : Fld := ⟨NVM.JNL_CTRL, 0, 0⟩
/-- NVM.WP_STATUS (R93). -/
def NVM.WP_STATUS : Nat := 0x900C0
def NVM.WP_STATUS_ERASING : Fld := ⟨NVM.WP_STATUS, 3, 3⟩
def NVM.WP_STATUS_FOUND : Fld := ⟨NVM.WP_STATUS, 2, 2⟩
def NVM.WP_STATUS_READY : Fld := ⟨NVM.WP_STATUS, 1, 1⟩
def NVM.WP_STATUS_ARMED : Fld := ⟨NVM.WP_STATUS, 0, 0⟩
/-- NVM.WP_CTRL (R93). -/
def NVM.WP_CTRL : Nat := 0x900C4
def NVM.WP_CTRL_RELEASE : Fld := ⟨NVM.WP_CTRL, 0, 0⟩
/-- NVM.WP_SW_ADDR (R93). -/
def NVM.WP_SW_ADDR : Nat := 0x900C8
/-- NVM.WP_SW_LEN (R93). -/
def NVM.WP_SW_LEN : Nat := 0x900CC
def NVM.WP_SW_LEN_LEN : Fld := ⟨NVM.WP_SW_LEN, 9, 0⟩
/-- NVM.WP_LAST (R93). -/
def NVM.WP_LAST : Nat := 0x900D0
/-- ADC.BLK_STATUS (R116). -/
def ADC.BLK_STATUS (n : Nat) : Nat := 0x100000 + 0x10000 * n
def ADC.BLK_STATUS_HALF1_READY (n : Nat) : Fld := ⟨(ADC.BLK_STATUS n), 1, 1⟩
def ADC.BLK_STATUS_HALF0_READY (n : Nat) : Fld := ⟨(ADC.BLK_STATUS n), 0, 0⟩
/-- ADC.TRUE_CTRL (R116). -/
def ADC.TRUE_CTRL (n : Nat) : Nat := 0x100010 + 0x10000 * n
def ADC.TRUE_CTRL_INTERVAL_MS (n : Nat) : Fld := ⟨(ADC.TRUE_CTRL n), 23, 8⟩
def ADC.TRUE_CTRL_MODE (n : Nat) : Fld := ⟨(ADC.TRUE_CTRL n), 1, 0⟩
/-- ADC.TRUE_STATUS (R116). -/
def ADC.TRUE_STATUS (n : Nat) : Nat := 0x100014 + 0x10000 * n
def ADC.TRUE_STATUS_SUBJECT_1 (n : Nat) : Fld := ⟨(ADC.TRUE_STATUS n), 27, 24⟩
def ADC.TRUE_STATUS_SPARE_FOR_1 (n : Nat) : Fld := ⟨(ADC.TRUE_STATUS n), 19, 16⟩
def ADC.TRUE_STATUS_SUBJECT_0 (n : Nat) : Fld := ⟨(ADC.TRUE_STATUS n), 11, 8⟩
def ADC.TRUE_STATUS_SPARE_FOR_0 (n : Nat) : Fld := ⟨(ADC.TRUE_STATUS n), 3, 0⟩
/-- ADC.TRUE_LAP (R116). -/
def ADC.TRUE_LAP (n : Nat) : Nat := 0x100018 + 0x10000 * n
def ADC.TRUE_LAP_LAP1_MS (n : Nat) : Fld := ⟨(ADC.TRUE_LAP n), 31, 16⟩
def ADC.TRUE_LAP_LAP0_MS (n : Nat) : Fld := ⟨(ADC.TRUE_LAP n), 15, 0⟩
/-- ADC.TRUE_FAIL (R116). -/
def ADC.TRUE_FAIL (n : Nat) : Nat := 0x10001C + 0x10000 * n
def ADC.TRUE_FAIL_FAILED_1 (n : Nat) : Fld := ⟨(ADC.TRUE_FAIL n), 19, 16⟩
def ADC.TRUE_FAIL_FLAG_1 (n : Nat) : Fld := ⟨(ADC.TRUE_FAIL n), 9, 9⟩
def ADC.TRUE_FAIL_FLAG_0 (n : Nat) : Fld := ⟨(ADC.TRUE_FAIL n), 8, 8⟩
def ADC.TRUE_FAIL_FAILED_0 (n : Nat) : Fld := ⟨(ADC.TRUE_FAIL n), 3, 0⟩
/-- ADC.SPARE_TRIM (R116). -/
def ADC.SPARE_TRIM (n : Nat) : Nat := 0x100020 + 0x10000 * (n / 2) + 0x4 * (n % 2)
def ADC.SPARE_TRIM_GAIN (n : Nat) : Fld := ⟨(ADC.SPARE_TRIM n), 31, 16⟩
def ADC.SPARE_TRIM_OFFSET (n : Nat) : Fld := ⟨(ADC.SPARE_TRIM n), 15, 0⟩
/-- ADC.CH_CFG (R116). -/
def ADC.CH_CFG (n : Nat) : Nat := 0x100100 + 0x10000 * (n / 16) + 0x40 * (n % 16)
def ADC.CH_CFG_DIV (n : Nat) : Fld := ⟨(ADC.CH_CFG n), 23, 16⟩
def ADC.CH_CFG_INPUT (n : Nat) : Fld := ⟨(ADC.CH_CFG n), 9, 8⟩
def ADC.CH_CFG_GAIN (n : Nat) : Fld := ⟨(ADC.CH_CFG n), 5, 4⟩
def ADC.CH_CFG_MODE (n : Nat) : Fld := ⟨(ADC.CH_CFG n), 2, 0⟩
/-- ADC.CH_PHASE (R116). -/
def ADC.CH_PHASE (n : Nat) : Nat := 0x100104 + 0x10000 * (n / 16) + 0x40 * (n % 16)
def ADC.CH_PHASE_PHASE (n : Nat) : Fld := ⟨(ADC.CH_PHASE n), 10, 0⟩
/-- ADC.CH_TRIG (R116). -/
def ADC.CH_TRIG (n : Nat) : Nat := 0x100108 + 0x10000 * (n / 16) + 0x40 * (n % 16)
def ADC.CH_TRIG_TIMER (n : Nat) : Fld := ⟨(ADC.CH_TRIG n), 29, 24⟩
def ADC.CH_TRIG_EVENT (n : Nat) : Fld := ⟨(ADC.CH_TRIG n), 17, 16⟩
def ADC.CH_TRIG_DELAY (n : Nat) : Fld := ⟨(ADC.CH_TRIG n), 11, 0⟩
/-- ADC.CH_TIMED_P (R116). -/
def ADC.CH_TIMED_P (n : Nat) : Nat := 0x10010C + 0x10000 * (n / 16) + 0x40 * (n % 16)
/-- ADC.CH_TIMED_T0 (R116). -/
def ADC.CH_TIMED_T0 (n : Nat) : Nat := 0x100110 + 0x10000 * (n / 16) + 0x40 * (n % 16)
/-- ADC.CH_SCHED (R116). -/
def ADC.CH_SCHED (n : Nat) : Nat := 0x100118 + 0x10000 * (n / 16) + 0x40 * (n % 16)
def ADC.CH_SCHED_CATCHUP (n : Nat) : Fld := ⟨(ADC.CH_SCHED n), 15, 8⟩
def ADC.CH_SCHED_BEHIND (n : Nat) : Fld := ⟨(ADC.CH_SCHED n), 7, 0⟩
/-- ADC.CH_WIN_LIM (R116). -/
def ADC.CH_WIN_LIM (n : Nat) : Nat := 0x10011C + 0x10000 * (n / 16) + 0x40 * (n % 16)
def ADC.CH_WIN_LIM_HIGH (n : Nat) : Fld := ⟨(ADC.CH_WIN_LIM n), 27, 16⟩
def ADC.CH_WIN_LIM_LOW (n : Nat) : Fld := ⟨(ADC.CH_WIN_LIM n), 11, 0⟩
/-- ADC.CH_WIN_CFG (R116). -/
def ADC.CH_WIN_CFG (n : Nat) : Nat := 0x100120 + 0x10000 * (n / 16) + 0x40 * (n % 16)
def ADC.CH_WIN_CFG_COUNT (n : Nat) : Fld := ⟨(ADC.CH_WIN_CFG n), 15, 8⟩
def ADC.CH_WIN_CFG_EDGES (n : Nat) : Fld := ⟨(ADC.CH_WIN_CFG n), 5, 4⟩
def ADC.CH_WIN_CFG_MODE (n : Nat) : Fld := ⟨(ADC.CH_WIN_CFG n), 1, 0⟩
/-- ADC.CH_STREAM (R116). -/
def ADC.CH_STREAM (n : Nat) : Nat := 0x100124 + 0x10000 * (n / 16) + 0x40 * (n % 16)
def ADC.CH_STREAM_ENABLE (n : Nat) : Fld := ⟨(ADC.CH_STREAM n), 8, 8⟩
def ADC.CH_STREAM_BLK8 (n : Nat) : Fld := ⟨(ADC.CH_STREAM n), 4, 0⟩
/-- ADC.CH_LAST (R116). -/
def ADC.CH_LAST (n : Nat) : Nat := 0x100128 + 0x10000 * (n / 16) + 0x40 * (n % 16)
def ADC.CH_LAST_COUNT (n : Nat) : Fld := ⟨(ADC.CH_LAST n), 31, 16⟩
def ADC.CH_LAST_WORD (n : Nat) : Fld := ⟨(ADC.CH_LAST n), 15, 0⟩
/-- ADC.CH_COUNT (R116). -/
def ADC.CH_COUNT (n : Nat) : Nat := 0x10012C + 0x10000 * (n / 16) + 0x40 * (n % 16)
/-- ADC.CH_STATUS (R116). -/
def ADC.CH_STATUS (n : Nat) : Nat := 0x100130 + 0x10000 * (n / 16) + 0x40 * (n % 16)
def ADC.CH_STATUS_NEXT (n : Nat) : Fld := ⟨(ADC.CH_STATUS n), 11, 11⟩
def ADC.CH_STATUS_READY (n : Nat) : Fld := ⟨(ADC.CH_STATUS n), 10, 9⟩
def ADC.CH_STATUS_LATE (n : Nat) : Fld := ⟨(ADC.CH_STATUS n), 8, 8⟩
def ADC.CH_STATUS_BEHIND (n : Nat) : Fld := ⟨(ADC.CH_STATUS n), 7, 7⟩
def ADC.CH_STATUS_STREAM_OVF (n : Nat) : Fld := ⟨(ADC.CH_STATUS n), 6, 6⟩
def ADC.CH_STATUS_OVR (n : Nat) : Fld := ⟨(ADC.CH_STATUS n), 5, 5⟩
def ADC.CH_STATUS_WIN_STATE (n : Nat) : Fld := ⟨(ADC.CH_STATUS n), 4, 4⟩
def ADC.CH_STATUS_TRUE_ACTIVE (n : Nat) : Fld := ⟨(ADC.CH_STATUS n), 3, 3⟩
def ADC.CH_STATUS_POWERED (n : Nat) : Fld := ⟨(ADC.CH_STATUS n), 2, 2⟩
def ADC.CH_STATUS_RUN (n : Nat) : Fld := ⟨(ADC.CH_STATUS n), 1, 0⟩
/-- ADC.CH_DROPS (R116). -/
def ADC.CH_DROPS (n : Nat) : Nat := 0x100134 + 0x10000 * (n / 16) + 0x40 * (n % 16)
def ADC.CH_DROPS_STREAM_DROP (n : Nat) : Fld := ⟨(ADC.CH_DROPS n), 31, 16⟩
def ADC.CH_DROPS_TRIG_DROP (n : Nat) : Fld := ⟨(ADC.CH_DROPS n), 15, 0⟩
/-- ADC.CH_CLR (R116). -/
def ADC.CH_CLR (n : Nat) : Nat := 0x100138 + 0x10000 * (n / 16) + 0x40 * (n % 16)
def ADC.CH_CLR_RELEASE (n : Nat) : Fld := ⟨(ADC.CH_CLR n), 1, 1⟩
def ADC.CH_CLR_CLEAR (n : Nat) : Fld := ⟨(ADC.CH_CLR n), 0, 0⟩
/-- ADC.CH_TRIM (R116). -/
def ADC.CH_TRIM (n : Nat) : Nat := 0x10013C + 0x10000 * (n / 16) + 0x40 * (n % 16)
def ADC.CH_TRIM_GAIN (n : Nat) : Fld := ⟨(ADC.CH_TRIM n), 31, 16⟩
def ADC.CH_TRIM_OFFSET (n : Nat) : Fld := ⟨(ADC.CH_TRIM n), 15, 0⟩
/-- ADC.SNAP (R116). -/
def ADC.SNAP (n : Nat) : Nat := 0x100600 + 0x10000 * (n / 16) + 0x4 * (n % 16)
def ADC.SNAP_COUNT (n : Nat) : Fld := ⟨(ADC.SNAP n), 31, 16⟩
def ADC.SNAP_WORD (n : Nat) : Fld := ⟨(ADC.SNAP n), 15, 0⟩
/-- COMP.BANK_STATUS (R135). -/
def COMP.BANK_STATUS (n : Nat) : Nat := 0x160000 + 0x10000 * n
def COMP.BANK_STATUS_BANK1_READY (n : Nat) : Fld := ⟨(COMP.BANK_STATUS n), 1, 1⟩
def COMP.BANK_STATUS_BANK0_READY (n : Nat) : Fld := ⟨(COMP.BANK_STATUS n), 0, 0⟩
/-- COMP.TEST_CTRL (R135). -/
def COMP.TEST_CTRL (n : Nat) : Nat := 0x160010 + 0x10000 * n
def COMP.TEST_CTRL_INTERVAL_MS (n : Nat) : Fld := ⟨(COMP.TEST_CTRL n), 23, 8⟩
def COMP.TEST_CTRL_HOLD (n : Nat) : Fld := ⟨(COMP.TEST_CTRL n), 0, 0⟩
/-- COMP.TEST_STATUS (R135). -/
def COMP.TEST_STATUS (n : Nat) : Nat := 0x160014 + 0x10000 * n
def COMP.TEST_STATUS_LAP_MS (n : Nat) : Fld := ⟨(COMP.TEST_STATUS n), 31, 16⟩
def COMP.TEST_STATUS_SUBJECT (n : Nat) : Fld := ⟨(COMP.TEST_STATUS n), 6, 0⟩
/-- COMP.TEST_FAILS (R135). -/
def COMP.TEST_FAILS (n : Nat) : Nat := 0x160018 + 0x10000 * n
def COMP.TEST_FAILS_COUNT (n : Nat) : Fld := ⟨(COMP.TEST_FAILS n), 6, 0⟩
/-- COMP.OUT (R135). -/
def COMP.OUT (n : Nat) : Nat := 0x160020 + 0x10000 * (n / 3) + 0x4 * (n % 3)
/-- COMP.TRIP (R135). -/
def COMP.TRIP (n : Nat) : Nat := 0x160030 + 0x10000 * (n / 3) + 0x4 * (n % 3)
/-- COMP.SNAP_OUT (R135). -/
def COMP.SNAP_OUT (n : Nat) : Nat := 0x160040 + 0x10000 * (n / 3) + 0x4 * (n % 3)
/-- COMP.SNAP_TRIP (R135). -/
def COMP.SNAP_TRIP (n : Nat) : Nat := 0x160050 + 0x10000 * (n / 3) + 0x4 * (n % 3)
/-- COMP.CMP_CFG (R135). -/
def COMP.CMP_CFG (n : Nat) : Nat := 0x160100 + 0x10000 * (n / 96) + 0x20 * (n % 96)
def COMP.CMP_CFG_EVENT (n : Nat) : Fld := ⟨(COMP.CMP_CFG n), 25, 24⟩
def COMP.CMP_CFG_HYST (n : Nat) : Fld := ⟨(COMP.CMP_CFG n), 19, 16⟩
def COMP.CMP_CFG_FILT (n : Nat) : Fld := ⟨(COMP.CMP_CFG n), 13, 12⟩
def COMP.CMP_CFG_RANGE (n : Nat) : Fld := ⟨(COMP.CMP_CFG n), 8, 8⟩
def COMP.CMP_CFG_POL (n : Nat) : Fld := ⟨(COMP.CMP_CFG n), 4, 4⟩
def COMP.CMP_CFG_MODE (n : Nat) : Fld := ⟨(COMP.CMP_CFG n), 1, 0⟩
/-- COMP.CMP_REF (R135). -/
def COMP.CMP_REF (n : Nat) : Nat := 0x160104 + 0x10000 * (n / 96) + 0x20 * (n % 96)
def COMP.CMP_REF_REF (n : Nat) : Fld := ⟨(COMP.CMP_REF n), 9, 0⟩
/-- COMP.PAIR_CFG (R135). -/
def COMP.PAIR_CFG (n : Nat) : Nat := 0x160108 + 0x10000 * (n / 96) + 0x20 * (n % 96)
def COMP.PAIR_CFG_DIS_TIME (n : Nat) : Fld := ⟨(COMP.PAIR_CFG n), 31, 24⟩
def COMP.PAIR_CFG_DIS_SCALE (n : Nat) : Fld := ⟨(COMP.PAIR_CFG n), 16, 16⟩
def COMP.PAIR_CFG_SELFTEST (n : Nat) : Fld := ⟨(COMP.PAIR_CFG n), 12, 12⟩
def COMP.PAIR_CFG_TRIP_EN (n : Nat) : Fld := ⟨(COMP.PAIR_CFG n), 8, 8⟩
def COMP.PAIR_CFG_WIN_SENSE (n : Nat) : Fld := ⟨(COMP.PAIR_CFG n), 4, 4⟩
def COMP.PAIR_CFG_PAIRING (n : Nat) : Fld := ⟨(COMP.PAIR_CFG n), 1, 0⟩
/-- COMP.CMP_TEST (R135). -/
def COMP.CMP_TEST (n : Nat) : Nat := 0x16010C + 0x10000 * (n / 96) + 0x20 * (n % 96)
def COMP.CMP_TEST_CLEAR (n : Nat) : Fld := ⟨(COMP.CMP_TEST n), 8, 8⟩
def COMP.CMP_TEST_OP (n : Nat) : Fld := ⟨(COMP.CMP_TEST n), 2, 0⟩
/-- COMP.CMP_STATUS (R135). -/
def COMP.CMP_STATUS (n : Nat) : Nat := 0x160110 + 0x10000 * (n / 96) + 0x20 * (n % 96)
def COMP.CMP_STATUS_RESULT (n : Nat) : Fld := ⟨(COMP.CMP_STATUS n), 15, 12⟩
def COMP.CMP_STATUS_TEST_FAIL (n : Nat) : Fld := ⟨(COMP.CMP_STATUS n), 11, 11⟩
def COMP.CMP_STATUS_TEST_DONE (n : Nat) : Fld := ⟨(COMP.CMP_STATUS n), 10, 10⟩
def COMP.CMP_STATUS_DISAGREE (n : Nat) : Fld := ⟨(COMP.CMP_STATUS n), 9, 9⟩
def COMP.CMP_STATUS_TRIPPED (n : Nat) : Fld := ⟨(COMP.CMP_STATUS n), 8, 8⟩
def COMP.CMP_STATUS_SERVICE (n : Nat) : Fld := ⟨(COMP.CMP_STATUS n), 6, 4⟩
def COMP.CMP_STATUS_TRIP (n : Nat) : Fld := ⟨(COMP.CMP_STATUS n), 1, 1⟩
def COMP.CMP_STATUS_OUT (n : Nat) : Fld := ⟨(COMP.CMP_STATUS n), 0, 0⟩
/-- COMP.CMP_COUNT (R135). -/
def COMP.CMP_COUNT (n : Nat) : Nat := 0x160114 + 0x10000 * (n / 96) + 0x20 * (n % 96)
def COMP.CMP_COUNT_DISAGREES (n : Nat) : Fld := ⟨(COMP.CMP_COUNT n), 31, 16⟩
def COMP.CMP_COUNT_TRIPS (n : Nat) : Fld := ⟨(COMP.CMP_COUNT n), 15, 0⟩
/-- COMP.CMP_TRIM (R135). -/
def COMP.CMP_TRIM (n : Nat) : Nat := 0x160118 + 0x10000 * (n / 96) + 0x20 * (n % 96)
def COMP.CMP_TRIM_OFFSET (n : Nat) : Fld := ⟨(COMP.CMP_TRIM n), 15, 0⟩
/-- LOOP.BLK_STATUS (R160). -/
def LOOP.BLK_STATUS (n : Nat) : Nat := 0x180000 + 0x10000 * n
def LOOP.BLK_STATUS_UPPER_READY (n : Nat) : Fld := ⟨(LOOP.BLK_STATUS n), 1, 1⟩
def LOOP.BLK_STATUS_LOWER_READY (n : Nat) : Fld := ⟨(LOOP.BLK_STATUS n), 0, 0⟩
/-- LOOP.SNAP_OUT (R160). -/
def LOOP.SNAP_OUT (n : Nat) : Nat := 0x180040 + 0x10000 * (n / 16) + 0x4 * (n % 16)
/-- LOOP.SNAP_SP (R160). -/
def LOOP.SNAP_SP (n : Nat) : Nat := 0x180080 + 0x10000 * (n / 16) + 0x4 * (n % 16)
def LOOP.SNAP_SP_SP (n : Nat) : Fld := ⟨(LOOP.SNAP_SP n), 23, 0⟩
/-- LOOP.CF (R160). -/
def LOOP.CF (n : Nat) : Nat := 0x184000 + 0x10000 * (n / 1024) + 0x4 * (n % 1024)
/-- LOOP.SLOT_CFG (R160). -/
def LOOP.SLOT_CFG (n : Nat) : Nat := 0x180200 + 0x10000 * (n / 16) + 0x80 * (n % 16)
def LOOP.SLOT_CFG_INPUT_CH (n : Nat) : Fld := ⟨(LOOP.SLOT_CFG n), 30, 24⟩
def LOOP.SLOT_CFG_SHIFT (n : Nat) : Fld := ⟨(LOOP.SLOT_CFG n), 19, 16⟩
def LOOP.SLOT_CFG_INV (n : Nat) : Fld := ⟨(LOOP.SLOT_CFG n), 12, 12⟩
def LOOP.SLOT_CFG_SWITCH (n : Nat) : Fld := ⟨(LOOP.SLOT_CFG n), 8, 8⟩
def LOOP.SLOT_CFG_SET (n : Nat) : Fld := ⟨(LOOP.SLOT_CFG n), 5, 4⟩
def LOOP.SLOT_CFG_MODE (n : Nat) : Fld := ⟨(LOOP.SLOT_CFG n), 1, 0⟩
/-- LOOP.SLOT_SP_CFG (R160). -/
def LOOP.SLOT_SP_CFG (n : Nat) : Nat := 0x180204 + 0x10000 * (n / 16) + 0x80 * (n % 16)
def LOOP.SLOT_SP_CFG_PULSE_PIN (n : Nat) : Fld := ⟨(LOOP.SLOT_SP_CFG n), 29, 24⟩
def LOOP.SLOT_SP_CFG_ANA_CH (n : Nat) : Fld := ⟨(LOOP.SLOT_SP_CFG n), 22, 16⟩
def LOOP.SLOT_SP_CFG_LOSS (n : Nat) : Fld := ⟨(LOOP.SLOT_SP_CFG n), 8, 8⟩
def LOOP.SLOT_SP_CFG_INIT (n : Nat) : Fld := ⟨(LOOP.SLOT_SP_CFG n), 4, 4⟩
def LOOP.SLOT_SP_CFG_SRC (n : Nat) : Fld := ⟨(LOOP.SLOT_SP_CFG n), 1, 0⟩
/-- LOOP.SLOT_SP_TARGET (R160). -/
def LOOP.SLOT_SP_TARGET (n : Nat) : Nat := 0x180208 + 0x10000 * (n / 16) + 0x80 * (n % 16)
def LOOP.SLOT_SP_TARGET_TARGET (n : Nat) : Fld := ⟨(LOOP.SLOT_SP_TARGET n), 23, 0⟩
/-- LOOP.SLOT_SP_SLEW (R160). -/
def LOOP.SLOT_SP_SLEW (n : Nat) : Nat := 0x18020C + 0x10000 * (n / 16) + 0x80 * (n % 16)
def LOOP.SLOT_SP_SLEW_SLEW (n : Nat) : Fld := ⟨(LOOP.SLOT_SP_SLEW n), 23, 0⟩
/-- LOOP.SLOT_ANA_SCALE (R160). -/
def LOOP.SLOT_ANA_SCALE (n : Nat) : Nat := 0x180210 + 0x10000 * (n / 16) + 0x80 * (n % 16)
def LOOP.SLOT_ANA_SCALE_MUL (n : Nat) : Fld := ⟨(LOOP.SLOT_ANA_SCALE n), 15, 0⟩
/-- LOOP.SLOT_ANA_OFS (R160). -/
def LOOP.SLOT_ANA_OFS (n : Nat) : Nat := 0x180214 + 0x10000 * (n / 16) + 0x80 * (n % 16)
def LOOP.SLOT_ANA_OFS_OFS (n : Nat) : Fld := ⟨(LOOP.SLOT_ANA_OFS n), 23, 0⟩
/-- LOOP.SLOT_PULSE_LO (R160). -/
def LOOP.SLOT_PULSE_LO (n : Nat) : Nat := 0x180218 + 0x10000 * (n / 16) + 0x80 * (n % 16)
def LOOP.SLOT_PULSE_LO_LO (n : Nat) : Fld := ⟨(LOOP.SLOT_PULSE_LO n), 23, 0⟩
/-- LOOP.SLOT_PULSE_HI (R160). -/
def LOOP.SLOT_PULSE_HI (n : Nat) : Nat := 0x18021C + 0x10000 * (n / 16) + 0x80 * (n % 16)
def LOOP.SLOT_PULSE_HI_HI (n : Nat) : Fld := ⟨(LOOP.SLOT_PULSE_HI n), 23, 0⟩
/-- LOOP.SLOT_PULSE_TMO (R160). -/
def LOOP.SLOT_PULSE_TMO (n : Nat) : Nat := 0x180220 + 0x10000 * (n / 16) + 0x80 * (n % 16)
def LOOP.SLOT_PULSE_TMO_TIMEOUT_US (n : Nat) : Fld := ⟨(LOOP.SLOT_PULSE_TMO n), 15, 0⟩
/-- LOOP.SLOT_INT_LO (R160). -/
def LOOP.SLOT_INT_LO (n : Nat) : Nat := 0x180224 + 0x10000 * (n / 16) + 0x80 * (n % 16)
/-- LOOP.SLOT_INT_HI (R160). -/
def LOOP.SLOT_INT_HI (n : Nat) : Nat := 0x180228 + 0x10000 * (n / 16) + 0x80 * (n % 16)
/-- LOOP.SLOT_OUT_LO (R160). -/
def LOOP.SLOT_OUT_LO (n : Nat) : Nat := 0x18022C + 0x10000 * (n / 16) + 0x80 * (n % 16)
/-- LOOP.SLOT_OUT_HI (R160). -/
def LOOP.SLOT_OUT_HI (n : Nat) : Nat := 0x180230 + 0x10000 * (n / 16) + 0x80 * (n % 16)
/-- LOOP.SLOT_OUT_CFG (R160). -/
def LOOP.SLOT_OUT_CFG (n : Nat) : Nat := 0x180234 + 0x10000 * (n / 16) + 0x80 * (n % 16)
def LOOP.SLOT_OUT_CFG_INDEX (n : Nat) : Fld := ⟨(LOOP.SLOT_OUT_CFG n), 14, 8⟩
def LOOP.SLOT_OUT_CFG_FORM (n : Nat) : Fld := ⟨(LOOP.SLOT_OUT_CFG n), 4, 4⟩
def LOOP.SLOT_OUT_CFG_TARGET (n : Nat) : Fld := ⟨(LOOP.SLOT_OUT_CFG n), 2, 0⟩
/-- LOOP.SLOT_MAN (R160). -/
def LOOP.SLOT_MAN (n : Nat) : Nat := 0x180238 + 0x10000 * (n / 16) + 0x80 * (n % 16)
/-- LOOP.SLOT_CMD (R160). -/
def LOOP.SLOT_CMD (n : Nat) : Nat := 0x180240 + 0x10000 * (n / 16) + 0x80 * (n % 16)
def LOOP.SLOT_CMD_SP_JUMP (n : Nat) : Fld := ⟨(LOOP.SLOT_CMD n), 2, 2⟩
def LOOP.SLOT_CMD_ZERO_HIST (n : Nat) : Fld := ⟨(LOOP.SLOT_CMD n), 1, 1⟩
def LOOP.SLOT_CMD_CLEAR (n : Nat) : Fld := ⟨(LOOP.SLOT_CMD n), 0, 0⟩
/-- LOOP.SLOT_STATUS (R160). -/
def LOOP.SLOT_STATUS (n : Nat) : Nat := 0x180244 + 0x10000 * (n / 16) + 0x80 * (n % 16)
def LOOP.SLOT_STATUS_SLICE (n : Nat) : Fld := ⟨(LOOP.SLOT_STATUS n), 26, 24⟩
def LOOP.SLOT_STATUS_E_SAT (n : Nat) : Fld := ⟨(LOOP.SLOT_STATUS n), 19, 19⟩
def LOOP.SLOT_STATUS_PULSE_LOSS (n : Nat) : Fld := ⟨(LOOP.SLOT_STATUS n), 18, 18⟩
def LOOP.SLOT_STATUS_OVR_SEEN (n : Nat) : Fld := ⟨(LOOP.SLOT_STATUS n), 17, 17⟩
def LOOP.SLOT_STATUS_CLAMP_SEEN (n : Nat) : Fld := ⟨(LOOP.SLOT_STATUS n), 16, 16⟩
def LOOP.SLOT_STATUS_INPUT_IDLE (n : Nat) : Fld := ⟨(LOOP.SLOT_STATUS n), 13, 13⟩
def LOOP.SLOT_STATUS_PULSE_LOST (n : Nat) : Fld := ⟨(LOOP.SLOT_STATUS n), 12, 12⟩
def LOOP.SLOT_STATUS_SLEWING (n : Nat) : Fld := ⟨(LOOP.SLOT_STATUS n), 11, 11⟩
def LOOP.SLOT_STATUS_WINNER (n : Nat) : Fld := ⟨(LOOP.SLOT_STATUS n), 10, 10⟩
def LOOP.SLOT_STATUS_LOSING (n : Nat) : Fld := ⟨(LOOP.SLOT_STATUS n), 9, 9⟩
def LOOP.SLOT_STATUS_OUT_LIM (n : Nat) : Fld := ⟨(LOOP.SLOT_STATUS n), 8, 8⟩
def LOOP.SLOT_STATUS_CLAMPED_HI (n : Nat) : Fld := ⟨(LOOP.SLOT_STATUS n), 7, 7⟩
def LOOP.SLOT_STATUS_CLAMPED_LO (n : Nat) : Fld := ⟨(LOOP.SLOT_STATUS n), 6, 6⟩
def LOOP.SLOT_STATUS_CUR_SET (n : Nat) : Fld := ⟨(LOOP.SLOT_STATUS n), 5, 4⟩
def LOOP.SLOT_STATUS_RUN (n : Nat) : Fld := ⟨(LOOP.SLOT_STATUS n), 2, 0⟩
/-- LOOP.SLOT_OUT (R160). -/
def LOOP.SLOT_OUT (n : Nat) : Nat := 0x180248 + 0x10000 * (n / 16) + 0x80 * (n % 16)
/-- LOOP.SLOT_SP_NOW (R160). -/
def LOOP.SLOT_SP_NOW (n : Nat) : Nat := 0x18024C + 0x10000 * (n / 16) + 0x80 * (n % 16)
def LOOP.SLOT_SP_NOW_SP (n : Nat) : Fld := ⟨(LOOP.SLOT_SP_NOW n), 23, 0⟩
/-- LOOP.SLOT_ERR (R160). -/
def LOOP.SLOT_ERR (n : Nat) : Nat := 0x180250 + 0x10000 * (n / 16) + 0x80 * (n % 16)
/-- LOOP.SLOT_EVALS (R160). -/
def LOOP.SLOT_EVALS (n : Nat) : Nat := 0x180254 + 0x10000 * (n / 16) + 0x80 * (n % 16)
/-- LOOP.SLOT_COUNTS (R160). -/
def LOOP.SLOT_COUNTS (n : Nat) : Nat := 0x180258 + 0x10000 * (n / 16) + 0x80 * (n % 16)
def LOOP.SLOT_COUNTS_E_SATS (n : Nat) : Fld := ⟨(LOOP.SLOT_COUNTS n), 31, 16⟩
def LOOP.SLOT_COUNTS_CLAMPS (n : Nat) : Fld := ⟨(LOOP.SLOT_COUNTS n), 15, 0⟩
/-- LOOP.SLOT_COMMIT_EVAL (R160). -/
def LOOP.SLOT_COMMIT_EVAL (n : Nat) : Nat := 0x18025C + 0x10000 * (n / 16) + 0x80 * (n % 16)
/-- LOOP.SLOT_STATE (R160). -/
def LOOP.SLOT_STATE (n : Nat) : Nat := 0x180260 + 0x10000 * (n / 16) + 0x80 * (n % 16)
/-- LOOP.SLOT_PULSE_MEAS (R160). -/
def LOOP.SLOT_PULSE_MEAS (n : Nat) : Nat := 0x180268 + 0x10000 * (n / 16) + 0x80 * (n % 16)
def LOOP.SLOT_PULSE_MEAS_D (n : Nat) : Fld := ⟨(LOOP.SLOT_PULSE_MEAS n), 15, 0⟩
/-- LOOP.CG_CFG (R161). -/
def LOOP.CG_CFG (n : Nat) : Nat := 0x1A0100 + 0x10 * n
def LOOP.CG_CFG_ENABLE (n : Nat) : Fld := ⟨(LOOP.CG_CFG n), 31, 31⟩
def LOOP.CG_CFG_FORM (n : Nat) : Fld := ⟨(LOOP.CG_CFG n), 16, 16⟩
def LOOP.CG_CFG_INDEX (n : Nat) : Fld := ⟨(LOOP.CG_CFG n), 14, 8⟩
def LOOP.CG_CFG_TARGET (n : Nat) : Fld := ⟨(LOOP.CG_CFG n), 2, 0⟩
/-- LOOP.CG_MARGIN (R161). -/
def LOOP.CG_MARGIN (n : Nat) : Nat := 0x1A0104 + 0x10 * n
def LOOP.CG_MARGIN_MARGIN (n : Nat) : Fld := ⟨(LOOP.CG_MARGIN n), 30, 0⟩
/-- LOOP.CG_STATUS (R161). -/
def LOOP.CG_STATUS (n : Nat) : Nat := 0x1A0108 + 0x10 * n
def LOOP.CG_STATUS_WINNER (n : Nat) : Fld := ⟨(LOOP.CG_STATUS n), 20, 16⟩
def LOOP.CG_STATUS_VALID (n : Nat) : Fld := ⟨(LOOP.CG_STATUS n), 15, 15⟩
def LOOP.CG_STATUS_MEMBERS (n : Nat) : Fld := ⟨(LOOP.CG_STATUS n), 3, 0⟩
/-- LOOP.CG_OUT (R161). -/
def LOOP.CG_OUT (n : Nat) : Nat := 0x1A010C + 0x10 * n
/-- LOOP.OSC_CFG (R177). -/
def LOOP.OSC_CFG (n : Nat) : Nat := 0x1A0400 + 0x10 * n
def LOOP.OSC_CFG_COUNT (n : Nat) : Fld := ⟨(LOOP.OSC_CFG n), 20, 16⟩
def LOOP.OSC_CFG_SAFE_SET (n : Nat) : Fld := ⟨(LOOP.OSC_CFG n), 9, 8⟩
def LOOP.OSC_CFG_SOURCE (n : Nat) : Fld := ⟨(LOOP.OSC_CFG n), 4, 4⟩
def LOOP.OSC_CFG_ACTION (n : Nat) : Fld := ⟨(LOOP.OSC_CFG n), 2, 0⟩
/-- LOOP.OSC_LIM (R177). -/
def LOOP.OSC_LIM (n : Nat) : Nat := 0x1A0404 + 0x10 * n
def LOOP.OSC_LIM_WIN (n : Nat) : Fld := ⟨(LOOP.OSC_LIM n), 31, 16⟩
def LOOP.OSC_LIM_BAND (n : Nat) : Fld := ⟨(LOOP.OSC_LIM n), 15, 0⟩
/-- LOOP.OSC_STATUS (R177). -/
def LOOP.OSC_STATUS (n : Nat) : Nat := 0x1A0408 + 0x10 * n
def LOOP.OSC_STATUS_FIRES (n : Nat) : Fld := ⟨(LOOP.OSC_STATUS n), 31, 16⟩
def LOOP.OSC_STATUS_RECENT (n : Nat) : Fld := ⟨(LOOP.OSC_STATUS n), 12, 8⟩
def LOOP.OSC_STATUS_FIRED (n : Nat) : Fld := ⟨(LOOP.OSC_STATUS n), 6, 6⟩
def LOOP.OSC_STATUS_SENSE (n : Nat) : Fld := ⟨(LOOP.OSC_STATUS n), 5, 4⟩
def LOOP.OSC_STATUS_ARMED (n : Nat) : Fld := ⟨(LOOP.OSC_STATUS n), 0, 0⟩
/-- LOOP.OSC_LAST (R177). -/
def LOOP.OSC_LAST (n : Nat) : Nat := 0x1A040C + 0x10 * n
/-- LOOP.SUP_CFG (R177). -/
def LOOP.SUP_CFG : Nat := 0x1A0800
def LOOP.SUP_CFG_SPARE_TEST_US : Fld := ⟨LOOP.SUP_CFG, 31, 16⟩
def LOOP.SUP_CFG_RESUME : Fld := ⟨LOOP.SUP_CFG, 8, 8⟩
def LOOP.SUP_CFG_DETOUR_EN : Fld := ⟨LOOP.SUP_CFG, 0, 0⟩
/-- LOOP.SUP_STATUS (R177). -/
def LOOP.SUP_STATUS : Nat := 0x1A0804
def LOOP.SUP_STATUS_SPARE_FOR : Fld := ⟨LOOP.SUP_STATUS, 26, 24⟩
def LOOP.SUP_STATUS_FAULTY : Fld := ⟨LOOP.SUP_STATUS, 20, 16⟩
def LOOP.SUP_STATUS_SPARE_FAIL : Fld := ⟨LOOP.SUP_STATUS, 13, 13⟩
def LOOP.SUP_STATUS_DETOUR_DONE : Fld := ⟨LOOP.SUP_STATUS, 12, 12⟩
def LOOP.SUP_STATUS_DETOURING : Fld := ⟨LOOP.SUP_STATUS, 11, 11⟩
def LOOP.SUP_STATUS_READY : Fld := ⟨LOOP.SUP_STATUS, 4, 0⟩
/-- LOOP.SUP_DETOUR_T (R177). -/
def LOOP.SUP_DETOUR_T : Nat := 0x1A0808
/-- LOOP.SUP_DETOUR_INFO (R177). -/
def LOOP.SUP_DETOUR_INFO : Nat := 0x1A0810
def LOOP.SUP_DETOUR_INFO_SKIPPED : Fld := ⟨LOOP.SUP_DETOUR_INFO, 31, 16⟩
def LOOP.SUP_DETOUR_INFO_TRANSFER_NS : Fld := ⟨LOOP.SUP_DETOUR_INFO, 10, 0⟩
/-- LOOP.SUP_MISMATCHES (R177). -/
def LOOP.SUP_MISMATCHES : Nat := 0x1A0814
/-- LOOP.SUP_CMD (R177). -/
def LOOP.SUP_CMD : Nat := 0x1A0818
def LOOP.SUP_CMD_RETURN : Fld := ⟨LOOP.SUP_CMD, 8, 8⟩
def LOOP.SUP_CMD_SLICE : Fld := ⟨LOOP.SUP_CMD, 2, 0⟩
/-- LOOP.SUP_RETURN_AT (R177). -/
def LOOP.SUP_RETURN_AT : Nat := 0x1A0820
/-- LOOP.TRC_CFG (R178). -/
def LOOP.TRC_CFG (n : Nat) : Nat := 0x1B0100 + 0x40 * n
def LOOP.TRC_CFG_POST (n : Nat) : Fld := ⟨(LOOP.TRC_CFG n), 27, 16⟩
def LOOP.TRC_CFG_DECIM (n : Nat) : Fld := ⟨(LOOP.TRC_CFG n), 15, 8⟩
def LOOP.TRC_CFG_TRIG_SRC (n : Nat) : Fld := ⟨(LOOP.TRC_CFG n), 5, 4⟩
def LOOP.TRC_CFG_MODE (n : Nat) : Fld := ⟨(LOOP.TRC_CFG n), 1, 0⟩
/-- LOOP.TRC_NODES (R178). -/
def LOOP.TRC_NODES (n : Nat) : Nat := 0x1B0104 + 0x40 * n
def LOOP.TRC_NODES_NODE2 (n : Nat) : Fld := ⟨(LOOP.TRC_NODES n), 29, 20⟩
def LOOP.TRC_NODES_NODE1 (n : Nat) : Fld := ⟨(LOOP.TRC_NODES n), 19, 10⟩
def LOOP.TRC_NODES_NODE0 (n : Nat) : Fld := ⟨(LOOP.TRC_NODES n), 9, 0⟩
/-- LOOP.TRC_TRIG (R178). -/
def LOOP.TRC_TRIG (n : Nat) : Nat := 0x1B0108 + 0x40 * n
def LOOP.TRC_TRIG_EVENT (n : Nat) : Fld := ⟨(LOOP.TRC_TRIG n), 26, 16⟩
def LOOP.TRC_TRIG_NODE (n : Nat) : Fld := ⟨(LOOP.TRC_TRIG n), 9, 8⟩
def LOOP.TRC_TRIG_SENSE (n : Nat) : Fld := ⟨(LOOP.TRC_TRIG n), 0, 0⟩
/-- LOOP.TRC_LEVEL (R178). -/
def LOOP.TRC_LEVEL (n : Nat) : Nat := 0x1B010C + 0x40 * n
/-- LOOP.TRC_DRAM (R178). -/
def LOOP.TRC_DRAM (n : Nat) : Nat := 0x1B0110 + 0x40 * n
def LOOP.TRC_DRAM_SIZE (n : Nat) : Fld := ⟨((LOOP.TRC_DRAM n) + 4), 28, 24⟩
/-- LOOP.TRC_CMD (R178). -/
def LOOP.TRC_CMD (n : Nat) : Nat := 0x1B0118 + 0x40 * n
def LOOP.TRC_CMD_ARM (n : Nat) : Fld := ⟨(LOOP.TRC_CMD n), 2, 2⟩
def LOOP.TRC_CMD_FORCE (n : Nat) : Fld := ⟨(LOOP.TRC_CMD n), 1, 1⟩
def LOOP.TRC_CMD_STOP (n : Nat) : Fld := ⟨(LOOP.TRC_CMD n), 0, 0⟩
/-- LOOP.TRC_STATUS (R178). -/
def LOOP.TRC_STATUS (n : Nat) : Nat := 0x1B011C + 0x40 * n
def LOOP.TRC_STATUS_TRIG_IDX (n : Nat) : Fld := ⟨(LOOP.TRC_STATUS n), 27, 16⟩
def LOOP.TRC_STATUS_WPTR (n : Nat) : Fld := ⟨(LOOP.TRC_STATUS n), 15, 4⟩
def LOOP.TRC_STATUS_WRAPPED (n : Nat) : Fld := ⟨(LOOP.TRC_STATUS n), 3, 3⟩
def LOOP.TRC_STATUS_STATE (n : Nat) : Fld := ⟨(LOOP.TRC_STATUS n), 2, 0⟩
/-- LOOP.TRC_TRIG_TIME (R178). -/
def LOOP.TRC_TRIG_TIME (n : Nat) : Nat := 0x1B0120 + 0x40 * n
/-- LOOP.TRC_STREAM_SEQ (R178). -/
def LOOP.TRC_STREAM_SEQ (n : Nat) : Nat := 0x1B0128 + 0x40 * n
/-- LOOP.TRC_DROPS (R178). -/
def LOOP.TRC_DROPS (n : Nat) : Nat := 0x1B012C + 0x40 * n
/-- PWM.BANK_STATUS (R208). -/
def PWM.BANK_STATUS (n : Nat) : Nat := 0x200000 + 0x10000 * n
def PWM.BANK_STATUS_READY (n : Nat) : Fld := ⟨(PWM.BANK_STATUS n), 0, 0⟩
/-- PWM.TRUE_CTRL (R208). -/
def PWM.TRUE_CTRL (n : Nat) : Nat := 0x200010 + 0x10000 * n
def PWM.TRUE_CTRL_INTERVAL_MS (n : Nat) : Fld := ⟨(PWM.TRUE_CTRL n), 23, 8⟩
def PWM.TRUE_CTRL_MODE (n : Nat) : Fld := ⟨(PWM.TRUE_CTRL n), 1, 0⟩
/-- PWM.TRUE_STATUS (R208). -/
def PWM.TRUE_STATUS (n : Nat) : Nat := 0x200014 + 0x10000 * n
def PWM.TRUE_STATUS_LAP_MS (n : Nat) : Fld := ⟨(PWM.TRUE_STATUS n), 31, 16⟩
def PWM.TRUE_STATUS_SUBJECT (n : Nat) : Fld := ⟨(PWM.TRUE_STATUS n), 5, 0⟩
/-- PWM.TRUE_FAIL (R208). -/
def PWM.TRUE_FAIL (n : Nat) : Nat := 0x200018 + 0x10000 * n
/-- PWM.TRUE_LINE (R208). -/
def PWM.TRUE_LINE (n : Nat) : Nat := 0x20001C + 0x10000 * n
/-- PWM.TRUE_FLAG (R208). -/
def PWM.TRUE_FLAG (n : Nat) : Nat := 0x200020 + 0x10000 * n
def PWM.TRUE_FLAG_FLAG (n : Nat) : Fld := ⟨(PWM.TRUE_FLAG n), 0, 0⟩
/-- PWM.SNAP_CMP (R208). -/
def PWM.SNAP_CMP (n : Nat) : Nat := 0x200100 + 0x10000 * (n / 32) + 0x4 * (n % 32)
/-- PWM.TIM_CFG (R208). -/
def PWM.TIM_CFG (n : Nat) : Nat := 0x200200 + 0x10000 * (n / 16) + 0x80 * (n % 16)
def PWM.TIM_CFG_COARSE (n : Nat) : Fld := ⟨(PWM.TIM_CFG n), 31, 31⟩
def PWM.TIM_CFG_PER_FINE (n : Nat) : Fld := ⟨(PWM.TIM_CFG n), 29, 24⟩
def PWM.TIM_CFG_SYNC_PIN (n : Nat) : Fld := ⟨(PWM.TIM_CFG n), 21, 16⟩
def PWM.TIM_CFG_SYNC (n : Nat) : Fld := ⟨(PWM.TIM_CFG n), 13, 12⟩
def PWM.TIM_CFG_ALIGN (n : Nat) : Fld := ⟨(PWM.TIM_CFG n), 8, 8⟩
def PWM.TIM_CFG_PAIRING (n : Nat) : Fld := ⟨(PWM.TIM_CFG n), 5, 4⟩
def PWM.TIM_CFG_MODE (n : Nat) : Fld := ⟨(PWM.TIM_CFG n), 1, 0⟩
/-- PWM.TIM_PER (R208). -/
def PWM.TIM_PER (n : Nat) : Nat := 0x200204 + 0x10000 * (n / 16) + 0x80 * (n % 16)
/-- PWM.TIM_SCHED (R208). -/
def PWM.TIM_SCHED (n : Nat) : Nat := 0x200208 + 0x10000 * (n / 16) + 0x80 * (n % 16)
def PWM.TIM_SCHED_CATCHUP (n : Nat) : Fld := ⟨(PWM.TIM_SCHED n), 15, 8⟩
def PWM.TIM_SCHED_BEHIND (n : Nat) : Fld := ⟨(PWM.TIM_SCHED n), 7, 0⟩
/-- PWM.TIM_DT (R208). -/
def PWM.TIM_DT (n : Nat) : Nat := 0x20020C + 0x10000 * (n / 16) + 0x80 * (n % 16)
def PWM.TIM_DT_DT_OFF (n : Nat) : Fld := ⟨(PWM.TIM_DT n), 29, 16⟩
def PWM.TIM_DT_DT_ON (n : Nat) : Fld := ⟨(PWM.TIM_DT n), 13, 0⟩
/-- PWM.TIM_MINP (R208). -/
def PWM.TIM_MINP (n : Nat) : Nat := 0x200210 + 0x10000 * (n / 16) + 0x80 * (n % 16)
def PWM.TIM_MINP_MODE_B (n : Nat) : Fld := ⟨(PWM.TIM_MINP n), 31, 31⟩
def PWM.TIM_MINP_MINP_B (n : Nat) : Fld := ⟨(PWM.TIM_MINP n), 29, 16⟩
def PWM.TIM_MINP_MODE_A (n : Nat) : Fld := ⟨(PWM.TIM_MINP n), 15, 15⟩
def PWM.TIM_MINP_MINP_A (n : Nat) : Fld := ⟨(PWM.TIM_MINP n), 13, 0⟩
/-- PWM.TIM_CMP_A (R208). -/
def PWM.TIM_CMP_A (n : Nat) : Nat := 0x200214 + 0x10000 * (n / 16) + 0x80 * (n % 16)
/-- PWM.TIM_CMP_B (R208). -/
def PWM.TIM_CMP_B (n : Nat) : Nat := 0x200218 + 0x10000 * (n / 16) + 0x80 * (n % 16)
/-- PWM.TIM_OFS_A (R208). -/
def PWM.TIM_OFS_A (n : Nat) : Nat := 0x20021C + 0x10000 * (n / 16) + 0x80 * (n % 16)
/-- PWM.TIM_OFS_B (R208). -/
def PWM.TIM_OFS_B (n : Nat) : Nat := 0x200220 + 0x10000 * (n / 16) + 0x80 * (n % 16)
/-- PWM.TIM_OUT_CFG (R208). -/
def PWM.TIM_OUT_CFG (n : Nat) : Nat := 0x200224 + 0x10000 * (n / 16) + 0x80 * (n % 16)
def PWM.TIM_OUT_CFG_POLICY_B (n : Nat) : Fld := ⟨(PWM.TIM_OUT_CFG n), 23, 22⟩
def PWM.TIM_OUT_CFG_LOWSIDE_B (n : Nat) : Fld := ⟨(PWM.TIM_OUT_CFG n), 20, 20⟩
def PWM.TIM_OUT_CFG_POL_B (n : Nat) : Fld := ⟨(PWM.TIM_OUT_CFG n), 19, 19⟩
def PWM.TIM_OUT_CFG_SRC_B (n : Nat) : Fld := ⟨(PWM.TIM_OUT_CFG n), 17, 16⟩
def PWM.TIM_OUT_CFG_POLICY_A (n : Nat) : Fld := ⟨(PWM.TIM_OUT_CFG n), 7, 6⟩
def PWM.TIM_OUT_CFG_LOWSIDE_A (n : Nat) : Fld := ⟨(PWM.TIM_OUT_CFG n), 4, 4⟩
def PWM.TIM_OUT_CFG_POL_A (n : Nat) : Fld := ⟨(PWM.TIM_OUT_CFG n), 3, 3⟩
def PWM.TIM_OUT_CFG_SRC_A (n : Nat) : Fld := ⟨(PWM.TIM_OUT_CFG n), 1, 0⟩
/-- PWM.TIM_LEVELS (R208). -/
def PWM.TIM_LEVELS (n : Nat) : Nat := 0x200228 + 0x10000 * (n / 16) + 0x80 * (n % 16)
def PWM.TIM_LEVELS_TRIP_B (n : Nat) : Fld := ⟨(PWM.TIM_LEVELS n), 25, 24⟩
def PWM.TIM_LEVELS_IDLE_B (n : Nat) : Fld := ⟨(PWM.TIM_LEVELS n), 21, 20⟩
def PWM.TIM_LEVELS_SAFE_B (n : Nat) : Fld := ⟨(PWM.TIM_LEVELS n), 17, 16⟩
def PWM.TIM_LEVELS_TRIP_A (n : Nat) : Fld := ⟨(PWM.TIM_LEVELS n), 9, 8⟩
def PWM.TIM_LEVELS_IDLE_A (n : Nat) : Fld := ⟨(PWM.TIM_LEVELS n), 5, 4⟩
def PWM.TIM_LEVELS_SAFE_A (n : Nat) : Fld := ⟨(PWM.TIM_LEVELS n), 1, 0⟩
/-- PWM.TIM_TRIP (R208). -/
def PWM.TIM_TRIP (n : Nat) : Nat := 0x20022C + 0x10000 * (n / 16) + 0x80 * (n % 16)
def PWM.TIM_TRIP_EN1 (n : Nat) : Fld := ⟨(PWM.TIM_TRIP n), 31, 31⟩
def PWM.TIM_TRIP_MODE1 (n : Nat) : Fld := ⟨(PWM.TIM_TRIP n), 28, 28⟩
def PWM.TIM_TRIP_SEL1 (n : Nat) : Fld := ⟨(PWM.TIM_TRIP n), 23, 16⟩
def PWM.TIM_TRIP_EN0 (n : Nat) : Fld := ⟨(PWM.TIM_TRIP n), 15, 15⟩
def PWM.TIM_TRIP_MODE0 (n : Nat) : Fld := ⟨(PWM.TIM_TRIP n), 12, 12⟩
def PWM.TIM_TRIP_SEL0 (n : Nat) : Fld := ⟨(PWM.TIM_TRIP n), 7, 0⟩
/-- PWM.TIM_BLANK (R208). -/
def PWM.TIM_BLANK (n : Nat) : Nat := 0x200230 + 0x10000 * (n / 16) + 0x80 * (n % 16)
def PWM.TIM_BLANK_BLANK1 (n : Nat) : Fld := ⟨(PWM.TIM_BLANK n), 15, 8⟩
def PWM.TIM_BLANK_BLANK0 (n : Nat) : Fld := ⟨(PWM.TIM_BLANK n), 7, 0⟩
/-- PWM.TIM_EVT (R208). -/
def PWM.TIM_EVT (n : Nat) : Nat := 0x200234 + 0x10000 * (n / 16) + 0x80 * (n % 16)
def PWM.TIM_EVT_EDGE_B (n : Nat) : Fld := ⟨(PWM.TIM_EVT n), 31, 24⟩
def PWM.TIM_EVT_EDGE_A (n : Nat) : Fld := ⟨(PWM.TIM_EVT n), 23, 16⟩
def PWM.TIM_EVT_PERIOD (n : Nat) : Fld := ⟨(PWM.TIM_EVT n), 15, 8⟩
def PWM.TIM_EVT_ZERO (n : Nat) : Fld := ⟨(PWM.TIM_EVT n), 7, 0⟩
/-- PWM.TIM_INS (R208). -/
def PWM.TIM_INS (n : Nat) : Nat := 0x200238 + 0x10000 * (n / 16) + 0x80 * (n % 16)
def PWM.TIM_INS_INS_MIN_B (n : Nat) : Fld := ⟨(PWM.TIM_INS n), 29, 16⟩
def PWM.TIM_INS_INS_MIN_A (n : Nat) : Fld := ⟨(PWM.TIM_INS n), 13, 0⟩
/-- PWM.TIM_SYNC_OFS (R208). -/
def PWM.TIM_SYNC_OFS (n : Nat) : Nat := 0x20023C + 0x10000 * (n / 16) + 0x80 * (n % 16)
/-- PWM.TIM_ADJ (R208). -/
def PWM.TIM_ADJ (n : Nat) : Nat := 0x200240 + 0x10000 * (n / 16) + 0x80 * (n % 16)
/-- PWM.TIM_FORCE (R208). -/
def PWM.TIM_FORCE (n : Nat) : Nat := 0x200244 + 0x10000 * (n / 16) + 0x80 * (n % 16)
def PWM.TIM_FORCE_WHEN (n : Nat) : Fld := ⟨(PWM.TIM_FORCE n), 16, 16⟩
def PWM.TIM_FORCE_FORCE_B (n : Nat) : Fld := ⟨(PWM.TIM_FORCE n), 10, 8⟩
def PWM.TIM_FORCE_FORCE_A (n : Nat) : Fld := ⟨(PWM.TIM_FORCE n), 2, 0⟩
/-- PWM.TIM_FORCE_AT (R208). -/
def PWM.TIM_FORCE_AT (n : Nat) : Nat := 0x200248 + 0x10000 * (n / 16) + 0x80 * (n % 16)
/-- PWM.TIM_CLR (R208). -/
def PWM.TIM_CLR (n : Nat) : Nat := 0x200250 + 0x10000 * (n / 16) + 0x80 * (n % 16)
def PWM.TIM_CLR_TRIP_CLR (n : Nat) : Fld := ⟨(PWM.TIM_CLR n), 2, 2⟩
def PWM.TIM_CLR_CLEAR (n : Nat) : Fld := ⟨(PWM.TIM_CLR n), 1, 1⟩
/-- PWM.TIM_STATUS (R208). -/
def PWM.TIM_STATUS (n : Nat) : Nat := 0x200254 + 0x10000 * (n / 16) + 0x80 * (n % 16)
def PWM.TIM_STATUS_PERIOD (n : Nat) : Fld := ⟨(PWM.TIM_STATUS n), 31, 16⟩
def PWM.TIM_STATUS_LATE (n : Nat) : Fld := ⟨(PWM.TIM_STATUS n), 15, 15⟩
def PWM.TIM_STATUS_BEHIND (n : Nat) : Fld := ⟨(PWM.TIM_STATUS n), 14, 14⟩
def PWM.TIM_STATUS_LATCHED (n : Nat) : Fld := ⟨(PWM.TIM_STATUS n), 13, 13⟩
def PWM.TIM_STATUS_CYCLE_TRIP (n : Nat) : Fld := ⟨(PWM.TIM_STATUS n), 12, 12⟩
def PWM.TIM_STATUS_FORCED_B (n : Nat) : Fld := ⟨(PWM.TIM_STATUS n), 11, 11⟩
def PWM.TIM_STATUS_FORCED_A (n : Nat) : Fld := ⟨(PWM.TIM_STATUS n), 10, 10⟩
def PWM.TIM_STATUS_TRIPPED (n : Nat) : Fld := ⟨(PWM.TIM_STATUS n), 9, 9⟩
def PWM.TIM_STATUS_ADJ_PENDING (n : Nat) : Fld := ⟨(PWM.TIM_STATUS n), 8, 8⟩
def PWM.TIM_STATUS_RUN (n : Nat) : Fld := ⟨(PWM.TIM_STATUS n), 1, 0⟩
/-- PWM.TIM_LANDED_A (R208). -/
def PWM.TIM_LANDED_A (n : Nat) : Nat := 0x200258 + 0x10000 * (n / 16) + 0x80 * (n % 16)
def PWM.TIM_LANDED_A_FRAME (n : Nat) : Fld := ⟨(PWM.TIM_LANDED_A n), 31, 16⟩
def PWM.TIM_LANDED_A_LANDED (n : Nat) : Fld := ⟨(PWM.TIM_LANDED_A n), 2, 0⟩
/-- PWM.TIM_LANDED_B (R208). -/
def PWM.TIM_LANDED_B (n : Nat) : Nat := 0x20025C + 0x10000 * (n / 16) + 0x80 * (n % 16)
def PWM.TIM_LANDED_B_FRAME (n : Nat) : Fld := ⟨(PWM.TIM_LANDED_B n), 31, 16⟩
def PWM.TIM_LANDED_B_LANDED (n : Nat) : Fld := ⟨(PWM.TIM_LANDED_B n), 2, 0⟩
/-- PWM.TIM_COUNTS_A (R208). -/
def PWM.TIM_COUNTS_A (n : Nat) : Nat := 0x200260 + 0x10000 * (n / 16) + 0x80 * (n % 16)
def PWM.TIM_COUNTS_A_STRETCHED (n : Nat) : Fld := ⟨(PWM.TIM_COUNTS_A n), 31, 16⟩
def PWM.TIM_COUNTS_A_DROPPED (n : Nat) : Fld := ⟨(PWM.TIM_COUNTS_A n), 15, 0⟩
/-- PWM.TIM_COUNTS_B (R208). -/
def PWM.TIM_COUNTS_B (n : Nat) : Nat := 0x200264 + 0x10000 * (n / 16) + 0x80 * (n % 16)
def PWM.TIM_COUNTS_B_STRETCHED (n : Nat) : Fld := ⟨(PWM.TIM_COUNTS_B n), 31, 16⟩
def PWM.TIM_COUNTS_B_DROPPED (n : Nat) : Fld := ⟨(PWM.TIM_COUNTS_B n), 15, 0⟩
/-- PWM.TIM_TRIPS (R208). -/
def PWM.TIM_TRIPS (n : Nat) : Nat := 0x200268 + 0x10000 * (n / 16) + 0x80 * (n % 16)
def PWM.TIM_TRIPS_LATCHES (n : Nat) : Fld := ⟨(PWM.TIM_TRIPS n), 31, 16⟩
def PWM.TIM_TRIPS_CYCLES (n : Nat) : Fld := ⟨(PWM.TIM_TRIPS n), 15, 0⟩
/-- PWM.TIM_INSERTS (R208). -/
def PWM.TIM_INSERTS (n : Nat) : Nat := 0x20026C + 0x10000 * (n / 16) + 0x80 * (n % 16)
def PWM.TIM_INSERTS_B (n : Nat) : Fld := ⟨(PWM.TIM_INSERTS n), 31, 16⟩
def PWM.TIM_INSERTS_A (n : Nat) : Fld := ⟨(PWM.TIM_INSERTS n), 15, 0⟩
/-- PWM.TIM_NOW_A (R208). -/
def PWM.TIM_NOW_A (n : Nat) : Nat := 0x200270 + 0x10000 * (n / 16) + 0x80 * (n % 16)
/-- PWM.TIM_NOW_B (R208). -/
def PWM.TIM_NOW_B (n : Nat) : Nat := 0x200274 + 0x10000 * (n / 16) + 0x80 * (n % 16)
/-- PWM.TIM_BOUNDARY (R208). -/
def PWM.TIM_BOUNDARY (n : Nat) : Nat := 0x200278 + 0x10000 * (n / 16) + 0x80 * (n % 16)
/-- PHASE.PH_PHASE_CMD (R228). -/
def PHASE.PH_PHASE_CMD : Nat := 0x230020
def PHASE.PH_PHASE_CMD_CLEAR_FAIL : Fld := ⟨PHASE.PH_PHASE_CMD, 9, 9⟩
def PHASE.PH_PHASE_CMD_FAIL : Fld := ⟨PHASE.PH_PHASE_CMD, 8, 8⟩
def PHASE.PH_PHASE_CMD_PHASE : Fld := ⟨PHASE.PH_PHASE_CMD, 6, 0⟩
/-- PHASE.PH_RAIL_CFG (R228). -/
def PHASE.PH_RAIL_CFG (n : Nat) : Nat := 0x230100 + 0x40 * n
def PHASE.PH_RAIL_CFG_ENABLE (n : Nat) : Fld := ⟨(PHASE.PH_RAIL_CFG n), 31, 31⟩
def PHASE.PH_RAIL_CFG_LATCH_FAIL (n : Nat) : Fld := ⟨(PHASE.PH_RAIL_CFG n), 20, 20⟩
def PHASE.PH_RAIL_CFG_ON_LOSS (n : Nat) : Fld := ⟨(PHASE.PH_RAIL_CFG n), 16, 16⟩
def PHASE.PH_RAIL_CFG_ZEROSUM (n : Nat) : Fld := ⟨(PHASE.PH_RAIL_CFG n), 12, 12⟩
/-- PHASE.PH_RAIL_OFS (R228). -/
def PHASE.PH_RAIL_OFS (n : Nat) : Nat := 0x230104 + 0x40 * n
/-- PHASE.PH_RAIL_RAMP (R228). -/
def PHASE.PH_RAIL_RAMP (n : Nat) : Nat := 0x230108 + 0x40 * n
def PHASE.PH_RAIL_RAMP_MOVE_STEP (n : Nat) : Fld := ⟨(PHASE.PH_RAIL_RAMP n), 31, 16⟩
def PHASE.PH_RAIL_RAMP_RAMP_FRAMES (n : Nat) : Fld := ⟨(PHASE.PH_RAIL_RAMP n), 7, 0⟩
/-- PHASE.PH_RAIL_TRIM (R228). -/
def PHASE.PH_RAIL_TRIM (n : Nat) : Nat := 0x23010C + 0x40 * n
def PHASE.PH_RAIL_TRIM_TRIM_LIM (n : Nat) : Fld := ⟨(PHASE.PH_RAIL_TRIM n), 30, 0⟩
/-- PHASE.PH_RAIL_ADD (R228). -/
def PHASE.PH_RAIL_ADD (n : Nat) : Nat := 0x230110 + 0x40 * n
def PHASE.PH_RAIL_ADD_ADD_EN (n : Nat) : Fld := ⟨(PHASE.PH_RAIL_ADD n), 31, 31⟩
def PHASE.PH_RAIL_ADD_ADD_EVENT (n : Nat) : Fld := ⟨(PHASE.PH_RAIL_ADD n), 26, 16⟩
def PHASE.PH_RAIL_ADD_ADD_TO (n : Nat) : Fld := ⟨(PHASE.PH_RAIL_ADD n), 6, 0⟩
/-- PHASE.PH_RAIL_CTRL (R228). -/
def PHASE.PH_RAIL_CTRL (n : Nat) : Nat := 0x230114 + 0x40 * n
def PHASE.PH_RAIL_CTRL_ACTIVE (n : Nat) : Fld := ⟨(PHASE.PH_RAIL_CTRL n), 6, 0⟩
/-- PHASE.PH_RAIL_CMD (R228). -/
def PHASE.PH_RAIL_CMD (n : Nat) : Nat := 0x230118 + 0x40 * n
def PHASE.PH_RAIL_CMD_CLEAR (n : Nat) : Fld := ⟨(PHASE.PH_RAIL_CMD n), 0, 0⟩
/-- PHASE.PH_RAIL_STATUS (R228). -/
def PHASE.PH_RAIL_STATUS (n : Nat) : Nat := 0x23011C + 0x40 * n
def PHASE.PH_RAIL_STATUS_LISTED (n : Nat) : Fld := ⟨(PHASE.PH_RAIL_STATUS n), 30, 24⟩
def PHASE.PH_RAIL_STATUS_N (n : Nat) : Fld := ⟨(PHASE.PH_RAIL_STATUS n), 22, 16⟩
def PHASE.PH_RAIL_STATUS_SPARES (n : Nat) : Fld := ⟨(PHASE.PH_RAIL_STATUS n), 14, 8⟩
def PHASE.PH_RAIL_STATUS_DEGRADED (n : Nat) : Fld := ⟨(PHASE.PH_RAIL_STATUS n), 7, 7⟩
def PHASE.PH_RAIL_STATUS_LOSS (n : Nat) : Fld := ⟨(PHASE.PH_RAIL_STATUS n), 6, 6⟩
def PHASE.PH_RAIL_STATUS_MOVING (n : Nat) : Fld := ⟨(PHASE.PH_RAIL_STATUS n), 5, 5⟩
def PHASE.PH_RAIL_STATUS_RAMPING (n : Nat) : Fld := ⟨(PHASE.PH_RAIL_STATUS n), 4, 4⟩
def PHASE.PH_RAIL_STATUS_STATE (n : Nat) : Fld := ⟨(PHASE.PH_RAIL_STATUS n), 2, 0⟩
/-- PHASE.PH_RAIL_VALUE (R228). -/
def PHASE.PH_RAIL_VALUE (n : Nat) : Nat := 0x230120 + 0x40 * n
/-- PHASE.PH_RAIL_COUNTS (R228). -/
def PHASE.PH_RAIL_COUNTS (n : Nat) : Nat := 0x230124 + 0x40 * n
def PHASE.PH_RAIL_COUNTS_SUBST (n : Nat) : Fld := ⟨(PHASE.PH_RAIL_COUNTS n), 31, 16⟩
def PHASE.PH_RAIL_COUNTS_CHANGES (n : Nat) : Fld := ⟨(PHASE.PH_RAIL_COUNTS n), 15, 0⟩
/-- PHASE.PH_MAP (R228). -/
def PHASE.PH_MAP (n : Nat) : Nat := 0x231000 + 0x10 * n
def PHASE.PH_MAP_ORDER (n : Nat) : Fld := ⟨(PHASE.PH_MAP n), 30, 24⟩
def PHASE.PH_MAP_ROLE (n : Nat) : Fld := ⟨(PHASE.PH_MAP n), 17, 16⟩
def PHASE.PH_MAP_RAIL (n : Nat) : Fld := ⟨(PHASE.PH_MAP n), 2, 0⟩
/-- PHASE.PH_TRIM (R228). -/
def PHASE.PH_TRIM (n : Nat) : Nat := 0x231004 + 0x10 * n
/-- PHASE.PH_POS (R228). -/
def PHASE.PH_POS (n : Nat) : Nat := 0x231008 + 0x10 * n
/-- PHASE.PH_STATE (R228). -/
def PHASE.PH_STATE (n : Nat) : Nat := 0x23100C + 0x10 * n
def PHASE.PH_STATE_FACTOR (n : Nat) : Fld := ⟨(PHASE.PH_STATE n), 31, 24⟩
def PHASE.PH_STATE_INDEX (n : Nat) : Fld := ⟨(PHASE.PH_STATE n), 22, 16⟩
def PHASE.PH_STATE_MOVING (n : Nat) : Fld := ⟨(PHASE.PH_STATE n), 3, 3⟩
def PHASE.PH_STATE_STATE (n : Nat) : Fld := ⟨(PHASE.PH_STATE n), 2, 0⟩
/-- WITNESS.WIT_BANK_STATUS (R229). -/
def WITNESS.WIT_BANK_STATUS : Nat := 0x240000
def WITNESS.WIT_BANK_STATUS_READY : Fld := ⟨WITNESS.WIT_BANK_STATUS, 2, 0⟩
/-- WITNESS.DET_LAST_T (R229). -/
def WITNESS.DET_LAST_T : Nat := 0x240010
/-- WITNESS.DET_LAST_INFO (R229). -/
def WITNESS.DET_LAST_INFO : Nat := 0x240018
def WITNESS.DET_LAST_INFO_SWITCH_NS : Fld := ⟨WITNESS.DET_LAST_INFO, 31, 16⟩
def WITNESS.DET_LAST_INFO_SPARE : Fld := ⟨WITNESS.DET_LAST_INFO, 13, 8⟩
def WITNESS.DET_LAST_INFO_TIMER : Fld := ⟨WITNESS.DET_LAST_INFO, 5, 0⟩
/-- WITNESS.DET_CMD (R229). -/
def WITNESS.DET_CMD : Nat := 0x240020
def WITNESS.DET_CMD_RETURN : Fld := ⟨WITNESS.DET_CMD, 31, 31⟩
def WITNESS.DET_CMD_TIMER : Fld := ⟨WITNESS.DET_CMD, 5, 0⟩
/-- WITNESS.DET_RETURN_AT (R229). -/
def WITNESS.DET_RETURN_AT : Nat := 0x240028
/-- WITNESS.DET_CFG (R229). -/
def WITNESS.DET_CFG (n : Nat) : Nat := 0x240400 + 0x10 * n
def WITNESS.DET_CFG_ENABLE (n : Nat) : Fld := ⟨(WITNESS.DET_CFG n), 31, 31⟩
def WITNESS.DET_CFG_SPARE (n : Nat) : Fld := ⟨(WITNESS.DET_CFG n), 21, 16⟩
/-- WITNESS.DET_STATUS (R229). -/
def WITNESS.DET_STATUS (n : Nat) : Nat := 0x240404 + 0x10 * n
def WITNESS.DET_STATUS_PARTNER (n : Nat) : Fld := ⟨(WITNESS.DET_STATUS n), 21, 16⟩
def WITNESS.DET_STATUS_DONE (n : Nat) : Fld := ⟨(WITNESS.DET_STATUS n), 8, 8⟩
def WITNESS.DET_STATUS_STATE (n : Nat) : Fld := ⟨(WITNESS.DET_STATUS n), 2, 0⟩
/-- WITNESS.DET_COUNT (R229). -/
def WITNESS.DET_COUNT (n : Nat) : Nat := 0x240408 + 0x10 * n
def WITNESS.DET_COUNT_DETOURS (n : Nat) : Fld := ⟨(WITNESS.DET_COUNT n), 15, 0⟩
/-- WITNESS.WIT_CFG (R229). -/
def WITNESS.WIT_CFG (n : Nat) : Nat := 0x241000 + 0x20 * n
def WITNESS.WIT_CFG_TOL (n : Nat) : Fld := ⟨(WITNESS.WIT_CFG n), 31, 16⟩
def WITNESS.WIT_CFG_COUNT (n : Nat) : Fld := ⟨(WITNESS.WIT_CFG n), 12, 8⟩
def WITNESS.WIT_CFG_ACTION (n : Nat) : Fld := ⟨(WITNESS.WIT_CFG n), 5, 4⟩
def WITNESS.WIT_CFG_ENABLE (n : Nat) : Fld := ⟨(WITNESS.WIT_CFG n), 0, 0⟩
/-- WITNESS.WIT_STATUS (R229). -/
def WITNESS.WIT_STATUS (n : Nat) : Nat := 0x241004 + 0x20 * n
def WITNESS.WIT_STATUS_RUN (n : Nat) : Fld := ⟨(WITNESS.WIT_STATUS n), 20, 16⟩
def WITNESS.WIT_STATUS_EXTRA (n : Nat) : Fld := ⟨(WITNESS.WIT_STATUS n), 10, 10⟩
def WITNESS.WIT_STATUS_MISSING (n : Nat) : Fld := ⟨(WITNESS.WIT_STATUS n), 9, 9⟩
def WITNESS.WIT_STATUS_MISMATCH (n : Nat) : Fld := ⟨(WITNESS.WIT_STATUS n), 8, 8⟩
def WITNESS.WIT_STATUS_MEASURING (n : Nat) : Fld := ⟨(WITNESS.WIT_STATUS n), 1, 1⟩
def WITNESS.WIT_STATUS_FAULTED (n : Nat) : Fld := ⟨(WITNESS.WIT_STATUS n), 0, 0⟩
/-- WITNESS.WIT_LAST (R229). -/
def WITNESS.WIT_LAST (n : Nat) : Nat := 0x241008 + 0x20 * n
/-- WITNESS.WIT_ERR (R229). -/
def WITNESS.WIT_ERR (n : Nat) : Nat := 0x241010 + 0x20 * n
def WITNESS.WIT_ERR_WORST_PS (n : Nat) : Fld := ⟨(WITNESS.WIT_ERR n), 31, 16⟩
def WITNESS.WIT_ERR_LAST_PS (n : Nat) : Fld := ⟨(WITNESS.WIT_ERR n), 15, 0⟩
/-- WITNESS.WIT_COUNT (R229). -/
def WITNESS.WIT_COUNT (n : Nat) : Nat := 0x241014 + 0x20 * n
def WITNESS.WIT_COUNT_MISMATCHES (n : Nat) : Fld := ⟨(WITNESS.WIT_COUNT n), 31, 16⟩
def WITNESS.WIT_COUNT_EDGES (n : Nat) : Fld := ⟨(WITNESS.WIT_COUNT n), 15, 0⟩
/-- WITNESS.WIT_CMD (R229). -/
def WITNESS.WIT_CMD (n : Nat) : Nat := 0x241018 + 0x20 * n
def WITNESS.WIT_CMD_CLEAR_FAULT (n : Nat) : Fld := ⟨(WITNESS.WIT_CMD n), 1, 1⟩
def WITNESS.WIT_CMD_CLEAR (n : Nat) : Fld := ⟨(WITNESS.WIT_CMD n), 0, 0⟩
/-- CORES.PAIR_CFG (R250). -/
def CORES.PAIR_CFG (n : Nat) : Nat := 0x300100 + 0x20 * n
def CORES.PAIR_CFG_START (n : Nat) : Fld := ⟨(CORES.PAIR_CFG n), 1, 0⟩
/-- CORES.ENTRY_P (R250). -/
def CORES.ENTRY_P (n : Nat) : Nat := 0x300104 + 0x20 * n
/-- CORES.ENTRY_S (R250). -/
def CORES.ENTRY_S (n : Nat) : Nat := 0x300108 + 0x20 * n
/-- CORES.CORE_STATUS (R250). -/
def CORES.CORE_STATUS (n : Nat) : Nat := 0x300200 + 0x10 * n
def CORES.CORE_STATUS_STATE (n : Nat) : Fld := ⟨(CORES.CORE_STATUS n), 10, 8⟩
def CORES.CORE_STATUS_PL (n : Nat) : Fld := ⟨(CORES.CORE_STATUS n), 5, 4⟩
def CORES.CORE_STATUS_ROLE (n : Nat) : Fld := ⟨(CORES.CORE_STATUS n), 1, 1⟩
def CORES.CORE_STATUS_LOCKSTEP (n : Nat) : Fld := ⟨(CORES.CORE_STATUS n), 0, 0⟩
/-- CORES.CORE_PC (R250). -/
def CORES.CORE_PC (n : Nat) : Nat := 0x300204 + 0x10 * n
/-- ROUND.RING_CTRL (R341). -/
def ROUND.RING_CTRL (n : Nat) : Nat := 0x280000 + 0x10000 * n
def ROUND.RING_CTRL_GRIDLOCK_EN (n : Nat) : Fld := ⟨(ROUND.RING_CTRL n), 8, 8⟩
def ROUND.RING_CTRL_CODE_LIMIT (n : Nat) : Fld := ⟨(ROUND.RING_CTRL n), 6, 0⟩
/-- ROUND.RING_STATUS (R341). -/
def ROUND.RING_STATUS (n : Nat) : Nat := 0x280004 + 0x10000 * n
def ROUND.RING_STATUS_WAITING (n : Nat) : Fld := ⟨(ROUND.RING_STATUS n), 21, 16⟩
def ROUND.RING_STATUS_ACTIVE (n : Nat) : Fld := ⟨(ROUND.RING_STATUS n), 13, 8⟩
def ROUND.RING_STATUS_GRIDLOCK (n : Nat) : Fld := ⟨(ROUND.RING_STATUS n), 2, 2⟩
def ROUND.RING_STATUS_GRIDLOCKED (n : Nat) : Fld := ⟨(ROUND.RING_STATUS n), 1, 1⟩
def ROUND.RING_STATUS_READY (n : Nat) : Fld := ⟨(ROUND.RING_STATUS n), 0, 0⟩
/-- ROUND.RING_WAITERS (R341). -/
def ROUND.RING_WAITERS (n : Nat) : Nat := 0x280008 + 0x10000 * n
/-- ROUND.POOL_STATUS (R341). -/
def ROUND.POOL_STATUS (n : Nat) : Nat := 0x280010 + 0x10000 * n
def ROUND.POOL_STATUS_RESERVED (n : Nat) : Fld := ⟨(ROUND.POOL_STATUS n), 26, 16⟩
def ROUND.POOL_STATUS_FREE (n : Nat) : Fld := ⟨(ROUND.POOL_STATUS n), 10, 0⟩
/-- ROUND.S (R341). -/
def ROUND.S (n : Nat) : Nat := 0x280100 + 0x10000 * (n / 32) + 0x4 * (n % 32)
/-- ROUND.CH_CFG (R341). -/
def ROUND.CH_CFG (n : Nat) : Nat := 0x280400 + 0x10000 * (n / 64) + 0x10 * (n % 64)
def ROUND.CH_CFG_ENABLE (n : Nat) : Fld := ⟨(ROUND.CH_CFG n), 31, 31⟩
def ROUND.CH_CFG_QMODE (n : Nat) : Fld := ⟨(ROUND.CH_CFG n), 28, 28⟩
def ROUND.CH_CFG_WRITER (n : Nat) : Fld := ⟨(ROUND.CH_CFG n), 25, 21⟩
def ROUND.CH_CFG_READER (n : Nat) : Fld := ⟨(ROUND.CH_CFG n), 20, 16⟩
def ROUND.CH_CFG_QUOTA (n : Nat) : Fld := ⟨(ROUND.CH_CFG n), 10, 0⟩
/-- ROUND.CH_STATUS (R341). -/
def ROUND.CH_STATUS (n : Nat) : Nat := 0x280404 + 0x10000 * (n / 64) + 0x10 * (n % 64)
def ROUND.CH_STATUS_VISIBLE (n : Nat) : Fld := ⟨(ROUND.CH_STATUS n), 26, 16⟩
def ROUND.CH_STATUS_HELD (n : Nat) : Fld := ⟨(ROUND.CH_STATUS n), 10, 0⟩
/-- ROUND.CH_COUNT (R341). -/
def ROUND.CH_COUNT (n : Nat) : Nat := 0x280408 + 0x10000 * (n / 64) + 0x10 * (n % 64)
/-- ROUND.THR_CFG (R341). -/
def ROUND.THR_CFG (n : Nat) : Nat := 0x281000 + 0x10000 * (n / 32) + 0x80 * (n % 32)
def ROUND.THR_CFG_HALT_ACTIONS (n : Nat) : Fld := ⟨(ROUND.THR_CFG n), 8, 8⟩
def ROUND.THR_CFG_MODE (n : Nat) : Fld := ⟨(ROUND.THR_CFG n), 1, 0⟩
/-- ROUND.THR_START (R341). -/
def ROUND.THR_START (n : Nat) : Nat := 0x281004 + 0x10000 * (n / 32) + 0x80 * (n % 32)
/-- ROUND.THR_SCHED (R341). -/
def ROUND.THR_SCHED (n : Nat) : Nat := 0x281008 + 0x10000 * (n / 32) + 0x80 * (n % 32)
def ROUND.THR_SCHED_CATCHUP (n : Nat) : Fld := ⟨(ROUND.THR_SCHED n), 15, 8⟩
def ROUND.THR_SCHED_BEHIND (n : Nat) : Fld := ⟨(ROUND.THR_SCHED n), 7, 0⟩
/-- ROUND.THR_CMD (R341). -/
def ROUND.THR_CMD (n : Nat) : Nat := 0x28100C + 0x10000 * (n / 32) + 0x80 * (n % 32)
def ROUND.THR_CMD_CLEAR (n : Nat) : Fld := ⟨(ROUND.THR_CMD n), 4, 4⟩
def ROUND.THR_CMD_RESET (n : Nat) : Fld := ⟨(ROUND.THR_CMD n), 3, 3⟩
def ROUND.THR_CMD_STEP (n : Nat) : Fld := ⟨(ROUND.THR_CMD n), 2, 2⟩
def ROUND.THR_CMD_RESUME (n : Nat) : Fld := ⟨(ROUND.THR_CMD n), 1, 1⟩
def ROUND.THR_CMD_HALT (n : Nat) : Fld := ⟨(ROUND.THR_CMD n), 0, 0⟩
/-- ROUND.THR_STATUS (R341). -/
def ROUND.THR_STATUS (n : Nat) : Nat := 0x281010 + 0x10000 * (n / 32) + 0x80 * (n % 32)
def ROUND.THR_STATUS_CAUSE (n : Nat) : Fld := ⟨(ROUND.THR_STATUS n), 23, 20⟩
def ROUND.THR_STATUS_WAIT (n : Nat) : Fld := ⟨(ROUND.THR_STATUS n), 19, 16⟩
def ROUND.THR_STATUS_CH_READING (n : Nat) : Fld := ⟨(ROUND.THR_STATUS n), 12, 12⟩
def ROUND.THR_STATUS_CH_STAGING (n : Nat) : Fld := ⟨(ROUND.THR_STATUS n), 11, 11⟩
def ROUND.THR_STATUS_BEHIND (n : Nat) : Fld := ⟨(ROUND.THR_STATUS n), 10, 10⟩
def ROUND.THR_STATUS_LATE (n : Nat) : Fld := ⟨(ROUND.THR_STATUS n), 9, 9⟩
def ROUND.THR_STATUS_ACT_REFUSED (n : Nat) : Fld := ⟨(ROUND.THR_STATUS n), 8, 8⟩
def ROUND.THR_STATUS_STATE (n : Nat) : Fld := ⟨(ROUND.THR_STATUS n), 2, 0⟩
/-- ROUND.THR_PC (R341). -/
def ROUND.THR_PC (n : Nat) : Nat := 0x281014 + 0x10000 * (n / 32) + 0x80 * (n % 32)
/-- ROUND.THR_TT (R341). -/
def ROUND.THR_TT (n : Nat) : Nat := 0x281018 + 0x10000 * (n / 32) + 0x80 * (n % 32)
/-- ROUND.THR_EVPEND (R341). -/
def ROUND.THR_EVPEND (n : Nat) : Nat := 0x281020 + 0x10000 * (n / 32) + 0x80 * (n % 32)
def ROUND.THR_EVPEND_PEND (n : Nat) : Fld := ⟨(ROUND.THR_EVPEND n), 7, 0⟩
/-- ROUND.THR_ACTQ (R341). -/
def ROUND.THR_ACTQ (n : Nat) : Nat := 0x281024 + 0x10000 * (n / 32) + 0x80 * (n % 32)
def ROUND.THR_ACTQ_COUNT (n : Nat) : Fld := ⟨(ROUND.THR_ACTQ n), 3, 0⟩
/-- ROUND.THR_FAULT_ADDR (R341). -/
def ROUND.THR_FAULT_ADDR (n : Nat) : Nat := 0x281028 + 0x10000 * (n / 32) + 0x80 * (n % 32)
/-- ROUND.THR_RETIRED (R341). -/
def ROUND.THR_RETIRED (n : Nat) : Nat := 0x28102C + 0x10000 * (n / 32) + 0x80 * (n % 32)
/-- ROUND.THR_PLATE (R341). -/
def ROUND.THR_PLATE (n : Nat) : Nat := 0x281030 + 0x10000 * (n / 32) + 0x80 * (n % 32)
/-- ROUND.THR_T (R341). -/
def ROUND.THR_T (n k : Nat) : Nat := 0x281040 + 0x10000 * (n / 32) + 0x80 * (n % 32) + 0x4 * k
/-- PENG.BANK_STATUS (R362). -/
def PENG.BANK_STATUS : Nat := 0x2C0000
def PENG.BANK_STATUS_READY : Fld := ⟨PENG.BANK_STATUS, 4, 0⟩
/-- PENG.GSTART_MASK (R362). -/
def PENG.GSTART_MASK (n : Nat) : Nat := 0x2C0010 + 0x4 * n
/-- PENG.GSTART_AT (R362). -/
def PENG.GSTART_AT : Nat := 0x2C0018
/-- PENG.GSTART_CMD (R362). -/
def PENG.GSTART_CMD : Nat := 0x2C0020
def PENG.GSTART_CMD_GO : Fld := ⟨PENG.GSTART_CMD, 31, 31⟩
def PENG.GSTART_CMD_MODE : Fld := ⟨PENG.GSTART_CMD, 0, 0⟩
/-- PENG.GFLAGS (R362). -/
def PENG.GFLAGS (n : Nat) : Nat := 0x2C0030 + 0x4 * n
/-- PENG.ENG_CLK (R362). -/
def PENG.ENG_CLK (n : Nat) : Nat := 0x2C0100 + 0x40 * n
def PENG.ENG_CLK_DIV (n : Nat) : Fld := ⟨(PENG.ENG_CLK n), 23, 8⟩
def PENG.ENG_CLK_FRAC (n : Nat) : Fld := ⟨(PENG.ENG_CLK n), 7, 0⟩
/-- PENG.ENG_SLOTS_LO (R362). -/
def PENG.ENG_SLOTS_LO (n : Nat) : Nat := 0x2C0104 + 0x40 * n
def PENG.ENG_SLOTS_LO_SLOT3 (n : Nat) : Fld := ⟨(PENG.ENG_SLOTS_LO n), 31, 24⟩
def PENG.ENG_SLOTS_LO_SLOT2 (n : Nat) : Fld := ⟨(PENG.ENG_SLOTS_LO n), 23, 16⟩
def PENG.ENG_SLOTS_LO_SLOT1 (n : Nat) : Fld := ⟨(PENG.ENG_SLOTS_LO n), 15, 8⟩
def PENG.ENG_SLOTS_LO_SLOT0 (n : Nat) : Fld := ⟨(PENG.ENG_SLOTS_LO n), 7, 0⟩
/-- PENG.ENG_SLOTS_HI (R362). -/
def PENG.ENG_SLOTS_HI (n : Nat) : Nat := 0x2C0108 + 0x40 * n
def PENG.ENG_SLOTS_HI_SLOT7 (n : Nat) : Fld := ⟨(PENG.ENG_SLOTS_HI n), 31, 24⟩
def PENG.ENG_SLOTS_HI_SLOT6 (n : Nat) : Fld := ⟨(PENG.ENG_SLOTS_HI n), 23, 16⟩
def PENG.ENG_SLOTS_HI_SLOT5 (n : Nat) : Fld := ⟨(PENG.ENG_SLOTS_HI n), 15, 8⟩
def PENG.ENG_SLOTS_HI_SLOT4 (n : Nat) : Fld := ⟨(PENG.ENG_SLOTS_HI n), 7, 0⟩
/-- PENG.ENG_CTRL (R362). -/
def PENG.ENG_CTRL (n : Nat) : Nat := 0x2C010C + 0x40 * n
def PENG.ENG_CTRL_WIDTH (n : Nat) : Fld := ⟨(PENG.ENG_CTRL n), 25, 24⟩
def PENG.ENG_CTRL_TEST_SLOT (n : Nat) : Fld := ⟨(PENG.ENG_CTRL n), 18, 16⟩
def PENG.ENG_CTRL_EVT_MASK (n : Nat) : Fld := ⟨(PENG.ENG_CTRL n), 12, 8⟩
def PENG.ENG_CTRL_ORDER_TAKE (n : Nat) : Fld := ⟨(PENG.ENG_CTRL n), 1, 1⟩
def PENG.ENG_CTRL_ORDER_SEND (n : Nat) : Fld := ⟨(PENG.ENG_CTRL n), 0, 0⟩
/-- PENG.ENG_OWNER (R362). -/
def PENG.ENG_OWNER (n : Nat) : Nat := 0x2C0110 + 0x40 * n
def PENG.ENG_OWNER_VALID (n : Nat) : Fld := ⟨(PENG.ENG_OWNER n), 16, 16⟩
def PENG.ENG_OWNER_AGENT (n : Nat) : Fld := ⟨(PENG.ENG_OWNER n), 15, 0⟩
/-- PENG.ENG_CMD (R362). -/
def PENG.ENG_CMD (n : Nat) : Nat := 0x2C0114 + 0x40 * n
def PENG.ENG_CMD_WHEN (n : Nat) : Fld := ⟨(PENG.ENG_CMD n), 8, 8⟩
def PENG.ENG_CMD_CMD (n : Nat) : Fld := ⟨(PENG.ENG_CMD n), 2, 0⟩
/-- PENG.ENG_CMD_AT (R362). -/
def PENG.ENG_CMD_AT (n : Nat) : Nat := 0x2C0118 + 0x40 * n
/-- PENG.ENG_STATUS (R362). -/
def PENG.ENG_STATUS (n : Nat) : Nat := 0x2C0120 + 0x40 * n
def PENG.ENG_STATUS_PC (n : Nat) : Fld := ⟨(PENG.ENG_STATUS n), 28, 24⟩
def PENG.ENG_STATUS_STOPPING (n : Nat) : Fld := ⟨(PENG.ENG_STATUS n), 20, 20⟩
def PENG.ENG_STATUS_CAUSE (n : Nat) : Fld := ⟨(PENG.ENG_STATUS n), 19, 16⟩
def PENG.ENG_STATUS_TX (n : Nat) : Fld := ⟨(PENG.ENG_STATUS n), 15, 12⟩
def PENG.ENG_STATUS_RX (n : Nat) : Fld := ⟨(PENG.ENG_STATUS n), 11, 8⟩
def PENG.ENG_STATUS_QUEUED (n : Nat) : Fld := ⟨(PENG.ENG_STATUS n), 7, 4⟩
def PENG.ENG_STATUS_STATE (n : Nat) : Fld := ⟨(PENG.ENG_STATUS n), 2, 0⟩
/-- PENG.ENG_FLAGS (R362). -/
def PENG.ENG_FLAGS (n : Nat) : Nat := 0x2C0124 + 0x40 * n
def PENG.ENG_FLAGS_ILLEGAL (n : Nat) : Fld := ⟨(PENG.ENG_FLAGS n), 12, 12⟩
def PENG.ENG_FLAGS_SIGNAL (n : Nat) : Fld := ⟨(PENG.ENG_FLAGS n), 11, 11⟩
def PENG.ENG_FLAGS_LATE (n : Nat) : Fld := ⟨(PENG.ENG_FLAGS n), 10, 10⟩
def PENG.ENG_FLAGS_OVERRUN (n : Nat) : Fld := ⟨(PENG.ENG_FLAGS n), 9, 9⟩
def PENG.ENG_FLAGS_UNDERRUN (n : Nat) : Fld := ⟨(PENG.ENG_FLAGS n), 8, 8⟩
/-- PENG.ENG_K (R362). -/
def PENG.ENG_K (n : Nat) : Nat := 0x2C0128 + 0x40 * n
def PENG.ENG_K_K1 (n : Nat) : Fld := ⟨(PENG.ENG_K n), 31, 16⟩
def PENG.ENG_K_K0 (n : Nat) : Fld := ⟨(PENG.ENG_K n), 15, 0⟩
/-- PENG.ENG_PSTATE (R362). -/
def PENG.ENG_PSTATE (n : Nat) : Nat := 0x2C012C + 0x40 * n
def PENG.ENG_PSTATE_SR_LEFT (n : Nat) : Fld := ⟨(PENG.ENG_PSTATE n), 29, 24⟩
def PENG.ENG_PSTATE_LEVELS (n : Nat) : Fld := ⟨(PENG.ENG_PSTATE n), 15, 8⟩
def PENG.ENG_PSTATE_DIR (n : Nat) : Fld := ⟨(PENG.ENG_PSTATE n), 7, 0⟩
/-- PENG.ENG_CR (R362). -/
def PENG.ENG_CR (n : Nat) : Nat := 0x2C0130 + 0x40 * n
/-- PENG.ENG_SR (R362). -/
def PENG.ENG_SR (n : Nat) : Nat := 0x2C0134 + 0x40 * n
/-- PENG.ENG_ET (R362). -/
def PENG.ENG_ET (n : Nat) : Nat := 0x2C0138 + 0x40 * n
/-- PENG.ENG_PROG (R362). -/
def PENG.ENG_PROG (n : Nat) : Nat := 0x2C2000 + 0x4 * n
def PENG.ENG_PROG_INSTR (n : Nat) : Fld := ⟨(PENG.ENG_PROG n), 15, 0⟩
/-- PINMUX.BANK_VIO (R363). -/
def PINMUX.BANK_VIO : Nat := 0x2D0000
def PINMUX.BANK_VIO_VIO : Fld := ⟨PINMUX.BANK_VIO, 9, 0⟩
/-- PINMUX.PIN_IN (R363). -/
def PINMUX.PIN_IN (n : Nat) : Nat := 0x2D0040 + 0x4 * n
/-- PINMUX.PIN_INTF (R363). -/
def PINMUX.PIN_INTF (n : Nat) : Nat := 0x2D0060 + 0x4 * n
/-- PINMUX.PIN_CFG (R363). -/
def PINMUX.PIN_CFG (n : Nat) : Nat := 0x2D1000 + 0x4 * n
def PINMUX.PIN_CFG_XING_NS (n : Nat) : Fld := ⟨(PINMUX.PIN_CFG n), 31, 22⟩
def PINMUX.PIN_CFG_XING_LEVEL (n : Nat) : Fld := ⟨(PINMUX.PIN_CFG n), 21, 19⟩
def PINMUX.PIN_CFG_INT (n : Nat) : Fld := ⟨(PINMUX.PIN_CFG n), 18, 16⟩
def PINMUX.PIN_CFG_SAFE (n : Nat) : Fld := ⟨(PINMUX.PIN_CFG n), 15, 14⟩
def PINMUX.PIN_CFG_FILT (n : Nat) : Fld := ⟨(PINMUX.PIN_CFG n), 13, 12⟩
def PINMUX.PIN_CFG_IDLE_IN (n : Nat) : Fld := ⟨(PINMUX.PIN_CFG n), 11, 11⟩
def PINMUX.PIN_CFG_OD (n : Nat) : Fld := ⟨(PINMUX.PIN_CFG n), 10, 10⟩
def PINMUX.PIN_CFG_SLEW (n : Nat) : Fld := ⟨(PINMUX.PIN_CFG n), 9, 9⟩
def PINMUX.PIN_CFG_DRIVE (n : Nat) : Fld := ⟨(PINMUX.PIN_CFG n), 7, 6⟩
def PINMUX.PIN_CFG_PULL (n : Nat) : Fld := ⟨(PINMUX.PIN_CFG n), 5, 4⟩
/-- PINMUX.PIN_OWN (R363). -/
def PINMUX.PIN_OWN (n : Nat) : Nat := 0x2D1400 + 0x4 * n
def PINMUX.PIN_OWN_FUNC (n : Nat) : Fld := ⟨(PINMUX.PIN_OWN n), 26, 24⟩
def PINMUX.PIN_OWN_INDEX (n : Nat) : Fld := ⟨(PINMUX.PIN_OWN n), 21, 16⟩
def PINMUX.PIN_OWN_AGENT (n : Nat) : Fld := ⟨(PINMUX.PIN_OWN n), 15, 0⟩
/-- PINMUX.PIN_SOFT (R363). -/
def PINMUX.PIN_SOFT (n : Nat) : Nat := 0x2D1800 + 0x4 * n
def PINMUX.PIN_SOFT_LEVEL (n : Nat) : Fld := ⟨(PINMUX.PIN_SOFT n), 1, 0⟩
/-- MEMCTL.SRAM_STATUS (R390). -/
def MEMCTL.SRAM_STATUS : Nat := 0xA0000
def MEMCTL.SRAM_STATUS_READY : Fld := ⟨MEMCTL.SRAM_STATUS, 7, 0⟩
/-- MEMCTL.DRAM_CFG (R390). -/
def MEMCTL.DRAM_CFG : Nat := 0xA0010
def MEMCTL.DRAM_CFG_INTERLEAVE : Fld := ⟨MEMCTL.DRAM_CFG, 8, 8⟩
def MEMCTL.DRAM_CFG_SIZE1 : Fld := ⟨MEMCTL.DRAM_CFG, 6, 4⟩
def MEMCTL.DRAM_CFG_SIZE0 : Fld := ⟨MEMCTL.DRAM_CFG, 2, 0⟩
/-- MEMCTL.DRAM_CTRL (R390). -/
def MEMCTL.DRAM_CTRL : Nat := 0xA0014
def MEMCTL.DRAM_CTRL_TRAIN1 : Fld := ⟨MEMCTL.DRAM_CTRL, 1, 1⟩
def MEMCTL.DRAM_CTRL_TRAIN0 : Fld := ⟨MEMCTL.DRAM_CTRL, 0, 0⟩
/-- MEMCTL.DRAM_STATUS (R390). -/
def MEMCTL.DRAM_STATUS : Nat := 0xA0018
def MEMCTL.DRAM_STATUS_USABLE_MB : Fld := ⟨MEMCTL.DRAM_STATUS, 31, 16⟩
def MEMCTL.DRAM_STATUS_STATE1 : Fld := ⟨MEMCTL.DRAM_STATUS, 6, 4⟩
def MEMCTL.DRAM_STATUS_STATE0 : Fld := ⟨MEMCTL.DRAM_STATUS, 2, 0⟩
/-- MEMCTL.WIN (R390). -/
def MEMCTL.WIN (n : Nat) : Nat := 0xA0020 + 0x4 * n
def MEMCTL.WIN_BASE (n : Nat) : Fld := ⟨(MEMCTL.WIN n), 5, 0⟩
/-- MEMCTL.DRAM_ARB (R390). -/
def MEMCTL.DRAM_ARB : Nat := 0xA0030
def MEMCTL.DRAM_ARB_CPU : Fld := ⟨MEMCTL.DRAM_ARB, 11, 8⟩
def MEMCTL.DRAM_ARB_HOST : Fld := ⟨MEMCTL.DRAM_ARB, 7, 4⟩
def MEMCTL.DRAM_ARB_DMA : Fld := ⟨MEMCTL.DRAM_ARB, 3, 0⟩
/-- MEMCTL.ERR_STATUS (R390). -/
def MEMCTL.ERR_STATUS : Nat := 0xA0040
def MEMCTL.ERR_STATUS_LOST : Fld := ⟨MEMCTL.ERR_STATUS, 31, 16⟩
def MEMCTL.ERR_STATUS_COUNT : Fld := ⟨MEMCTL.ERR_STATUS, 6, 0⟩
/-- MEMCTL.ERR_POP (R390). -/
def MEMCTL.ERR_POP : Nat := 0xA0044
def MEMCTL.ERR_POP_POP : Fld := ⟨MEMCTL.ERR_POP, 0, 0⟩
/-- MEMCTL.ERR_ENTRY (R390). -/
def MEMCTL.ERR_ENTRY (n : Nat) : Nat := 0xA0048 + 0x4 * n
/-- MEMCTL.ECC_COUNTS (R390). -/
def MEMCTL.ECC_COUNTS : Nat := 0xA0060
def MEMCTL.ECC_COUNTS_UE_COUNT : Fld := ⟨MEMCTL.ECC_COUNTS, 31, 16⟩
def MEMCTL.ECC_COUNTS_CE_COUNT : Fld := ⟨MEMCTL.ECC_COUNTS, 15, 0⟩
/-- MEMCTL.CE_LIMIT (R390). -/
def MEMCTL.CE_LIMIT : Nat := 0xA0064
def MEMCTL.CE_LIMIT_LIMIT : Fld := ⟨MEMCTL.CE_LIMIT, 15, 0⟩
/-- MEMCTL.MEM_CLR (R390). -/
def MEMCTL.MEM_CLR : Nat := 0xA0068
def MEMCTL.MEM_CLR_CLEAR : Fld := ⟨MEMCTL.MEM_CLR, 0, 0⟩
/-- MEMCTL.ECC_FLIP (R390). -/
def MEMCTL.ECC_FLIP : Nat := 0xA0070
def MEMCTL.ECC_FLIP_ARM : Fld := ⟨MEMCTL.ECC_FLIP, 31, 31⟩
def MEMCTL.ECC_FLIP_LANE : Fld := ⟨MEMCTL.ECC_FLIP, 26, 24⟩
def MEMCTL.ECC_FLIP_MEM : Fld := ⟨MEMCTL.ECC_FLIP, 23, 16⟩
def MEMCTL.ECC_FLIP_CHECK : Fld := ⟨MEMCTL.ECC_FLIP, 15, 8⟩
def MEMCTL.ECC_FLIP_DATA : Fld := ⟨MEMCTL.ECC_FLIP, 7, 0⟩
/-- MEMCTL.ECC_FLIP_STATUS (R390). -/
def MEMCTL.ECC_FLIP_STATUS : Nat := 0xA0074
/-- MEMCTL.RETIRE (R390). -/
def MEMCTL.RETIRE (n : Nat) : Nat := 0xA0400 + 0x4 * n
def MEMCTL.RETIRE_VALID (n : Nat) : Fld := ⟨(MEMCTL.RETIRE n), 31, 31⟩
def MEMCTL.RETIRE_PAGE (n : Nat) : Fld := ⟨(MEMCTL.RETIRE n), 7, 0⟩
/-- SCRUB.SCRUB_CTRL (R391). -/
def SCRUB.SCRUB_CTRL : Nat := 0xB0000
def SCRUB.SCRUB_CTRL_MODE : Fld := ⟨SCRUB.SCRUB_CTRL, 1, 0⟩
/-- SCRUB.SCRUB_STATUS (R391). -/
def SCRUB.SCRUB_STATUS : Nat := 0xB0004
def SCRUB.SCRUB_STATUS_LAP_COUNT : Fld := ⟨SCRUB.SCRUB_STATUS, 31, 16⟩
def SCRUB.SCRUB_STATUS_RESULT : Fld := ⟨SCRUB.SCRUB_STATUS, 3, 2⟩
def SCRUB.SCRUB_STATUS_DONE : Fld := ⟨SCRUB.SCRUB_STATUS, 1, 1⟩
def SCRUB.SCRUB_STATUS_PASSING : Fld := ⟨SCRUB.SCRUB_STATUS, 0, 0⟩
/-- SCRUB.PASS_BASE (R391). -/
def SCRUB.PASS_BASE : Nat := 0xB0010
/-- SCRUB.PASS_LEN (R391). -/
def SCRUB.PASS_LEN : Nat := 0xB0018
/-- SCRUB.PASS_CFG (R391). -/
def SCRUB.PASS_CFG : Nat := 0xB001C
def SCRUB.PASS_CFG_SPACING_NS : Fld := ⟨SCRUB.PASS_CFG, 15, 0⟩
/-- SCRUB.PASS_CMD (R391). -/
def SCRUB.PASS_CMD : Nat := 0xB0020
def SCRUB.PASS_CMD_STOP : Fld := ⟨SCRUB.PASS_CMD, 1, 1⟩
def SCRUB.PASS_CMD_START : Fld := ⟨SCRUB.PASS_CMD, 0, 0⟩
/-- SCRUB.SUM_BYTES (R391). -/
def SCRUB.SUM_BYTES : Nat := 0xB0030
/-- SCRUB.SUM_NS (R391). -/
def SCRUB.SUM_NS : Nat := 0xB0034
/-- SCRUB.SUM_ERRS (R391). -/
def SCRUB.SUM_ERRS : Nat := 0xB0038
def SCRUB.SUM_ERRS_UE : Fld := ⟨SCRUB.SUM_ERRS, 31, 16⟩
def SCRUB.SUM_ERRS_CE : Fld := ⟨SCRUB.SUM_ERRS, 15, 0⟩
/-- SCRUB.SUM_FIRST_UE (R391). -/
def SCRUB.SUM_FIRST_UE : Nat := 0xB0040
def SCRUB.SUM_FIRST_UE_VALID : Fld := ⟨(SCRUB.SUM_FIRST_UE + 4), 31, 31⟩
/-- SCRUB.LAP_US (R391). -/
def SCRUB.LAP_US : Nat := 0xB0050
/-- DMA.DMA_STATUS (R392). -/
def DMA.DMA_STATUS : Nat := 0xC0000
def DMA.DMA_STATUS_BUSY : Fld := ⟨DMA.DMA_STATUS, 15, 0⟩
/-- DMA.CH_CFG (R392). -/
def DMA.CH_CFG (n : Nat) : Nat := 0xC0100 + 0x40 * n
def DMA.CH_CFG_TRIG_EN (n : Nat) : Fld := ⟨(DMA.CH_CFG n), 31, 31⟩
def DMA.CH_CFG_TRIG_EVENT (n : Nat) : Fld := ⟨(DMA.CH_CFG n), 26, 16⟩
def DMA.CH_CFG_PRIO (n : Nat) : Fld := ⟨(DMA.CH_CFG n), 1, 0⟩
/-- DMA.CH_CPL (R392). -/
def DMA.CH_CPL (n : Nat) : Nat := 0xC0104 + 0x40 * n
def DMA.CH_CPL_SIZE (n : Nat) : Fld := ⟨((DMA.CH_CPL n) + 4), 27, 24⟩
/-- DMA.CH_DESC (R392). -/
def DMA.CH_DESC (n : Nat) : Nat := 0xC0110 + 0x40 * n
/-- DMA.CH_CTRL (R392). -/
def DMA.CH_CTRL (n : Nat) : Nat := 0xC0118 + 0x40 * n
def DMA.CH_CTRL_CLEAR (n : Nat) : Fld := ⟨(DMA.CH_CTRL n), 3, 3⟩
def DMA.CH_CTRL_TRIGGER (n : Nat) : Fld := ⟨(DMA.CH_CTRL n), 2, 2⟩
def DMA.CH_CTRL_STOP (n : Nat) : Fld := ⟨(DMA.CH_CTRL n), 1, 1⟩
def DMA.CH_CTRL_START (n : Nat) : Fld := ⟨(DMA.CH_CTRL n), 0, 0⟩
/-- DMA.CH_STATUS (R392). -/
def DMA.CH_STATUS (n : Nat) : Nat := 0xC011C + 0x40 * n
def DMA.CH_STATUS_AGENT (n : Nat) : Fld := ⟨(DMA.CH_STATUS n), 31, 16⟩
def DMA.CH_STATUS_MERGED (n : Nat) : Fld := ⟨(DMA.CH_STATUS n), 15, 12⟩
def DMA.CH_STATUS_TRIG_PEND (n : Nat) : Fld := ⟨(DMA.CH_STATUS n), 11, 11⟩
def DMA.CH_STATUS_CAUSE (n : Nat) : Fld := ⟨(DMA.CH_STATUS n), 10, 8⟩
def DMA.CH_STATUS_STATE (n : Nat) : Fld := ⟨(DMA.CH_STATUS n), 2, 0⟩
/-- DMA.CH_CUR (R392). -/
def DMA.CH_CUR (n : Nat) : Nat := 0xC0120 + 0x40 * n
/-- DMA.CH_DONE (R392). -/
def DMA.CH_DONE (n : Nat) : Nat := 0xC0128 + 0x40 * n
/-- DMA.CH_SEQ (R392). -/
def DMA.CH_SEQ (n : Nat) : Nat := 0xC012C + 0x40 * n
/-- DMA.CH_FAULT (R392). -/
def DMA.CH_FAULT (n : Nat) : Nat := 0xC0130 + 0x40 * n
def DMA.CH_FAULT_WRITE (n : Nat) : Fld := ⟨((DMA.CH_FAULT n) + 4), 31, 31⟩
/-- DMA.CH_FLAGS (R392). -/
def DMA.CH_FLAGS (n : Nat) : Nat := 0xC0138 + 0x40 * n
def DMA.CH_FLAGS_CPL_FAIL (n : Nat) : Fld := ⟨(DMA.CH_FLAGS n), 3, 3⟩
def DMA.CH_FLAGS_OVERLAP (n : Nat) : Fld := ⟨(DMA.CH_FLAGS n), 2, 2⟩
def DMA.CH_FLAGS_ERROR (n : Nat) : Fld := ⟨(DMA.CH_FLAGS n), 1, 1⟩
def DMA.CH_FLAGS_DONE (n : Nat) : Fld := ⟨(DMA.CH_FLAGS n), 0, 0⟩
/-- JUNCTION.SW_RAISE (R423). -/
def JUNCTION.SW_RAISE : Nat := 0x60010
def JUNCTION.SW_RAISE_ID : Fld := ⟨JUNCTION.SW_RAISE, 26, 16⟩
def JUNCTION.SW_RAISE_VALUE : Fld := ⟨JUNCTION.SW_RAISE, 15, 0⟩
/-- JUNCTION.RAISED (R423). -/
def JUNCTION.RAISED (n : Nat) : Nat := 0x60100 + 0x4 * n
/-- JUNCTION.TIE_FWD (R423). -/
def JUNCTION.TIE_FWD (n : Nat) : Nat := 0x60200 + 0x4 * n
def JUNCTION.TIE_FWD_VALID (n : Nat) : Fld := ⟨(JUNCTION.TIE_FWD n), 31, 31⟩
def JUNCTION.TIE_FWD_SOURCE (n : Nat) : Fld := ⟨(JUNCTION.TIE_FWD n), 10, 0⟩
/-- JUNCTION.ROUTE (R423). -/
def JUNCTION.ROUTE (n : Nat) : Nat := 0x61000 + 0x4 * n
def JUNCTION.ROUTE_HOST (n : Nat) : Fld := ⟨(JUNCTION.ROUTE n), 31, 31⟩
def JUNCTION.ROUTE_RING (n : Nat) : Fld := ⟨(JUNCTION.ROUTE n), 30, 28⟩
def JUNCTION.ROUTE_THR_EN (n : Nat) : Fld := ⟨(JUNCTION.ROUTE n), 27, 27⟩
def JUNCTION.ROUTE_INPUT (n : Nat) : Fld := ⟨(JUNCTION.ROUTE n), 26, 24⟩
def JUNCTION.ROUTE_FWD (n : Nat) : Fld := ⟨(JUNCTION.ROUTE n), 23, 23⟩
def JUNCTION.ROUTE_THREAD (n : Nat) : Fld := ⟨(JUNCTION.ROUTE n), 21, 16⟩
def JUNCTION.ROUTE_CORES (n : Nat) : Fld := ⟨(JUNCTION.ROUTE n), 15, 12⟩
def JUNCTION.ROUTE_LINE (n : Nat) : Fld := ⟨(JUNCTION.ROUTE n), 5, 0⟩
/-- HOST.LINK_STATUS (R424). -/
def HOST.LINK_STATUS : Nat := 0x70000
def HOST.LINK_STATUS_SPEED : Fld := ⟨HOST.LINK_STATUS, 10, 8⟩
def HOST.LINK_STATUS_WIDTH : Fld := ⟨HOST.LINK_STATUS, 7, 4⟩
def HOST.LINK_STATUS_BME : Fld := ⟨HOST.LINK_STATUS, 3, 3⟩
def HOST.LINK_STATUS_STATE : Fld := ⟨HOST.LINK_STATUS, 1, 0⟩
/-- HOST.OUT_CTRL (R424). -/
def HOST.OUT_CTRL : Nat := 0x70008
def HOST.OUT_CTRL_EN : Fld := ⟨HOST.OUT_CTRL, 0, 0⟩
/-- HOST.OUT_BASE (R424). -/
def HOST.OUT_BASE : Nat := 0x70010
/-- HOST.BAR4_WIN (R424). -/
def HOST.BAR4_WIN : Nat := 0x70018
def HOST.BAR4_WIN_BASE : Fld := ⟨HOST.BAR4_WIN, 39, 24⟩
/-- HOST.DOORBELL (R424). -/
def HOST.DOORBELL : Nat := 0x70020
def HOST.DOORBELL_RING : Fld := ⟨HOST.DOORBELL, 7, 0⟩
/-- HOST.DROPPED (R424). -/
def HOST.DROPPED : Nat := 0x70024
/-- HOST.QUEUE (R424). -/
def HOST.QUEUE : Nat := 0x70028
/-- HOST.TEL_CTRL (R424). -/
def HOST.TEL_CTRL : Nat := 0x70040
def HOST.TEL_CTRL_EN : Fld := ⟨HOST.TEL_CTRL, 31, 31⟩
def HOST.TEL_CTRL_RING : Fld := ⟨HOST.TEL_CTRL, 18, 16⟩
def HOST.TEL_CTRL_PERIOD_US : Fld := ⟨HOST.TEL_CTRL, 15, 0⟩
/-- HOST.TEL_SCHED (R424). -/
def HOST.TEL_SCHED : Nat := 0x70044
def HOST.TEL_SCHED_CATCHUP : Fld := ⟨HOST.TEL_SCHED, 15, 8⟩
def HOST.TEL_SCHED_BEHIND : Fld := ⟨HOST.TEL_SCHED, 7, 0⟩
/-- HOST.TEL_STATUS (R424). -/
def HOST.TEL_STATUS : Nat := 0x70048
/-- HOST.TEL_LIST (R424). -/
def HOST.TEL_LIST (n : Nat) : Nat := 0x70100 + 0x4 * n
def HOST.TEL_LIST_VALID (n : Nat) : Fld := ⟨(HOST.TEL_LIST n), 31, 31⟩
def HOST.TEL_LIST_BLOCK (n : Nat) : Fld := ⟨(HOST.TEL_LIST n), 23, 16⟩
def HOST.TEL_LIST_OFFSET (n : Nat) : Fld := ⟨(HOST.TEL_LIST n), 15, 0⟩
/-- HOST.RING_CTRL (R424). -/
def HOST.RING_CTRL (n : Nat) : Nat := 0x70400 + 0x40 * n
def HOST.RING_CTRL_EN (n : Nat) : Fld := ⟨(HOST.RING_CTRL n), 31, 31⟩
def HOST.RING_CTRL_VECTOR (n : Nat) : Fld := ⟨(HOST.RING_CTRL n), 13, 8⟩
def HOST.RING_CTRL_SIZE (n : Nat) : Fld := ⟨(HOST.RING_CTRL n), 4, 0⟩
/-- HOST.RING_BASE (R424). -/
def HOST.RING_BASE (n : Nat) : Nat := 0x70408 + 0x40 * n
/-- HOST.RING_HEAD (R424). -/
def HOST.RING_HEAD (n : Nat) : Nat := 0x70410 + 0x40 * n
/-- HOST.RING_TAIL (R424). -/
def HOST.RING_TAIL (n : Nat) : Nat := 0x70414 + 0x40 * n
/-- HOST.RING_IRQ (R424). -/
def HOST.RING_IRQ (n : Nat) : Nat := 0x70418 + 0x40 * n
def HOST.RING_IRQ_TIME_US (n : Nat) : Fld := ⟨(HOST.RING_IRQ n), 31, 16⟩
def HOST.RING_IRQ_COUNT (n : Nat) : Fld := ⟨(HOST.RING_IRQ n), 15, 0⟩
/-- HOST.RING_STATUS (R424). -/
def HOST.RING_STATUS (n : Nat) : Nat := 0x7041C + 0x40 * n
/-- TIE.TIE_CFG (R425). -/
def TIE.TIE_CFG : Nat := 0x80000
def TIE.TIE_CFG_ENABLE : Fld := ⟨TIE.TIE_CFG, 31, 31⟩
def TIE.TIE_CFG_MASTER : Fld := ⟨TIE.TIE_CFG, 9, 8⟩
def TIE.TIE_CFG_POS : Fld := ⟨TIE.TIE_CFG, 5, 4⟩
def TIE.TIE_CFG_N : Fld := ⟨TIE.TIE_CFG, 2, 0⟩
/-- TIE.TIE_STATUS (R425). -/
def TIE.TIE_STATUS : Nat := 0x80004
def TIE.TIE_STATUS_PEERS : Fld := ⟨TIE.TIE_STATUS, 11, 8⟩
def TIE.TIE_STATUS_MASTER_SEEN : Fld := ⟨TIE.TIE_STATUS, 5, 5⟩
def TIE.TIE_STATUS_ALIGNED : Fld := ⟨TIE.TIE_STATUS, 4, 4⟩
def TIE.TIE_STATUS_PREV : Fld := ⟨TIE.TIE_STATUS, 3, 2⟩
def TIE.TIE_STATUS_NEXT : Fld := ⟨TIE.TIE_STATUS, 1, 0⟩
/-- TIE.TIE_ALIGN (R425). -/
def TIE.TIE_ALIGN : Nat := 0x80008
def TIE.TIE_ALIGN_LOSS_US : Fld := ⟨TIE.TIE_ALIGN, 23, 16⟩
def TIE.TIE_ALIGN_TOL_PS : Fld := ⟨TIE.TIE_ALIGN, 15, 0⟩
/-- TIE.TIE_MEAS (R425). -/
def TIE.TIE_MEAS : Nat := 0x8000C
def TIE.TIE_MEAS_ERR_PS : Fld := ⟨TIE.TIE_MEAS, 31, 16⟩
def TIE.TIE_MEAS_HOP_PS : Fld := ⟨TIE.TIE_MEAS, 15, 0⟩
/-- TIE.TIE_COUNTS (R425). -/
def TIE.TIE_COUNTS : Nat := 0x80010
def TIE.TIE_COUNTS_RESENDS : Fld := ⟨TIE.TIE_COUNTS, 31, 16⟩
def TIE.TIE_COUNTS_CRC_ERRS : Fld := ⟨TIE.TIE_COUNTS, 15, 0⟩
/-- TIE.RA_CTRL (R425). -/
def TIE.RA_CTRL : Nat := 0x80040
def TIE.RA_CTRL_GO : Fld := ⟨TIE.RA_CTRL, 31, 31⟩
def TIE.RA_CTRL_WRITE : Fld := ⟨TIE.RA_CTRL, 4, 4⟩
def TIE.RA_CTRL_PEER : Fld := ⟨TIE.RA_CTRL, 1, 0⟩
/-- TIE.RA_ADDR (R425). -/
def TIE.RA_ADDR : Nat := 0x80044
/-- TIE.RA_DATA (R425). -/
def TIE.RA_DATA : Nat := 0x80048
/-- TIE.RA_STATUS (R425). -/
def TIE.RA_STATUS : Nat := 0x8004C
def TIE.RA_STATUS_CAUSE : Fld := ⟨TIE.RA_STATUS, 11, 8⟩
def TIE.RA_STATUS_DONE : Fld := ⟨TIE.RA_STATUS, 3, 3⟩
def TIE.RA_STATUS_RESULT : Fld := ⟨TIE.RA_STATUS, 2, 1⟩
def TIE.RA_STATUS_BUSY : Fld := ⟨TIE.RA_STATUS, 0, 0⟩
/-- TIE.PLAN_T (R425). -/
def TIE.PLAN_T (n : Nat) : Nat := 0x80100 + 0x8 * n
/-- TIE.TIMER_PLAN (R425). -/
def TIE.TIMER_PLAN (n : Nat) : Nat := 0x80200 + 0x8 * n
def TIE.TIMER_PLAN_VALID (n : Nat) : Fld := ⟨(TIE.TIMER_PLAN n), 31, 31⟩
def TIE.TIMER_PLAN_GRID (n : Nat) : Fld := ⟨(TIE.TIMER_PLAN n), 3, 0⟩
/-- TIE.TIMER_OFS (R425). -/
def TIE.TIMER_OFS (n : Nat) : Nat := 0x80204 + 0x8 * n
/-- DEBUG.DBG_CTRL (R426). -/
def DEBUG.DBG_CTRL : Nat := 0x310000
def DEBUG.DBG_CTRL_PATH : Fld := ⟨DEBUG.DBG_CTRL, 0, 0⟩
/-- DEBUG.DBG_ADDR (R426). -/
def DEBUG.DBG_ADDR : Nat := 0x310008
/-- DEBUG.DBG_DATA (R426). -/
def DEBUG.DBG_DATA : Nat := 0x310010
/-- DEBUG.DBG_CMD (R426). -/
def DEBUG.DBG_CMD : Nat := 0x310018
def DEBUG.DBG_CMD_GO : Fld := ⟨DEBUG.DBG_CMD, 31, 31⟩
def DEBUG.DBG_CMD_SIZE : Fld := ⟨DEBUG.DBG_CMD, 5, 4⟩
def DEBUG.DBG_CMD_WRITE : Fld := ⟨DEBUG.DBG_CMD, 0, 0⟩
/-- DEBUG.DBG_STATUS (R426). -/
def DEBUG.DBG_STATUS : Nat := 0x31001C
def DEBUG.DBG_STATUS_ERROR : Fld := ⟨DEBUG.DBG_STATUS, 2, 2⟩
def DEBUG.DBG_STATUS_DONE : Fld := ⟨DEBUG.DBG_STATUS, 1, 1⟩
def DEBUG.DBG_STATUS_BUSY : Fld := ⟨DEBUG.DBG_STATUS, 0, 0⟩
/-- DEBUG.DBG_CORE (R426). -/
def DEBUG.DBG_CORE : Nat := 0x310020
def DEBUG.DBG_CORE_CORE : Fld := ⟨DEBUG.DBG_CORE, 5, 4⟩
def DEBUG.DBG_CORE_OP : Fld := ⟨DEBUG.DBG_CORE, 2, 0⟩
/-- PROTECT.CONS_PARTY (R452). -/
def PROTECT.CONS_PARTY : Nat := 0x50008
def PROTECT.CONS_PARTY_PARTY_B : Fld := ⟨PROTECT.CONS_PARTY, 31, 16⟩
def PROTECT.CONS_PARTY_PARTY_A : Fld := ⟨PROTECT.CONS_PARTY, 15, 0⟩
/-- PROTECT.CONS_WINDOW (R452). -/
def PROTECT.CONS_WINDOW : Nat := 0x5000C
def PROTECT.CONS_WINDOW_WINDOW_US : Fld := ⟨PROTECT.CONS_WINDOW, 15, 0⟩
/-- PROTECT.CONS_SEQ (R452). -/
def PROTECT.CONS_SEQ : Nat := 0x50010
/-- PROTECT.CONS_COUNT (R452). -/
def PROTECT.CONS_COUNT : Nat := 0x50014
def PROTECT.CONS_COUNT_VALUE : Fld := ⟨PROTECT.CONS_COUNT, 4, 0⟩
/-- PROTECT.CONS_CMD (R452). -/
def PROTECT.CONS_CMD : Nat := 0x50018
def PROTECT.CONS_CMD_WITHDRAW : Fld := ⟨PROTECT.CONS_CMD, 2, 2⟩
def PROTECT.CONS_CMD_CONFIRM : Fld := ⟨PROTECT.CONS_CMD, 1, 1⟩
def PROTECT.CONS_CMD_PROPOSE : Fld := ⟨PROTECT.CONS_CMD, 0, 0⟩
/-- PROTECT.CONS_STATUS (R452). -/
def PROTECT.CONS_STATUS : Nat := 0x5001C
def PROTECT.CONS_STATUS_RESULT : Fld := ⟨PROTECT.CONS_STATUS, 6, 4⟩
def PROTECT.CONS_STATUS_STATE : Fld := ⟨PROTECT.CONS_STATUS, 0, 0⟩
/-- PROTECT.CONS_DIGEST (R452). -/
def PROTECT.CONS_DIGEST (n : Nat) : Nat := 0x50040 + 0x4 * n
/-- PROTECT.CONS_TARGET (R452). -/
def PROTECT.CONS_TARGET (n : Nat) : Nat := 0x50100 + 0x8 * n
def PROTECT.CONS_TARGET_VALUE (n : Nat) : Fld := ⟨(PROTECT.CONS_TARGET n), 23, 0⟩
/-- PROTECT.CONS_VALUE (R452). -/
def PROTECT.CONS_VALUE (n : Nat) : Nat := 0x50104 + 0x8 * n
/-- PROTECT.BLK_PERM (R452). -/
def PROTECT.BLK_PERM (n : Nat) : Nat := 0x50400 + 0x4 * n
def PROTECT.BLK_PERM_CLASS (n : Nat) : Fld := ⟨(PROTECT.BLK_PERM n), 15, 0⟩
/-- PROTECT.REGION_BASE (R452). -/
def PROTECT.REGION_BASE (n : Nat) : Nat := 0x50600 + 0x10 * n
def PROTECT.REGION_BASE_PAGE (n : Nat) : Fld := ⟨(PROTECT.REGION_BASE n), 27, 0⟩
/-- PROTECT.REGION_LIMIT (R452). -/
def PROTECT.REGION_LIMIT (n : Nat) : Nat := 0x50604 + 0x10 * n
def PROTECT.REGION_LIMIT_PAGE (n : Nat) : Fld := ⟨(PROTECT.REGION_LIMIT n), 27, 0⟩
/-- PROTECT.REGION_PERM (R452). -/
def PROTECT.REGION_PERM (n : Nat) : Nat := 0x50608 + 0x10 * n
def PROTECT.REGION_PERM_VALID (n : Nat) : Fld := ⟨(PROTECT.REGION_PERM n), 31, 31⟩
def PROTECT.REGION_PERM_RW (n : Nat) : Fld := ⟨(PROTECT.REGION_PERM n), 15, 0⟩
/-- PROTECT.HEIR (R452). -/
def PROTECT.HEIR : Nat := 0x50800
def PROTECT.HEIR_HEIR_B : Fld := ⟨PROTECT.HEIR, 31, 16⟩
def PROTECT.HEIR_HEIR_A : Fld := ⟨PROTECT.HEIR, 15, 0⟩
/-- FAULT.FM_STATUS (R453). -/
def FAULT.FM_STATUS : Nat := 0x40000
def FAULT.FM_STATUS_FAULT_N_ASSERTED : Fld := ⟨FAULT.FM_STATUS, 24, 24⟩
def FAULT.FM_STATUS_FAULT_N_LOW : Fld := ⟨FAULT.FM_STATUS, 23, 23⟩
def FAULT.FM_STATUS_ACTIONS : Fld := ⟨FAULT.FM_STATUS, 15, 0⟩
/-- FAULT.FM_LAST (R453). -/
def FAULT.FM_LAST : Nat := 0x40004
def FAULT.FM_LAST_SOURCE : Fld := ⟨FAULT.FM_LAST, 31, 24⟩
def FAULT.FM_LAST_UNIT : Fld := ⟨FAULT.FM_LAST, 15, 0⟩
/-- FAULT.FM_LAST_T (R453). -/
def FAULT.FM_LAST_T : Nat := 0x40008
/-- FAULT.FM_ACTIVE (R453). -/
def FAULT.FM_ACTIVE : Nat := 0x40010
/-- FAULT.FM_CMD (R453). -/
def FAULT.FM_CMD : Nat := 0x40014
def FAULT.FM_CMD_CLEAR : Fld := ⟨FAULT.FM_CMD, 1, 1⟩
def FAULT.FM_CMD_RELEASE_FAULT_N : Fld := ⟨FAULT.FM_CMD, 0, 0⟩
/-- FAULT.SRC_COUNT (R453). -/
def FAULT.SRC_COUNT (n : Nat) : Nat := 0x40020 + 0x4 * n
def FAULT.SRC_COUNT_ODD (n : Nat) : Fld := ⟨(FAULT.SRC_COUNT n), 31, 16⟩
def FAULT.SRC_COUNT_EVEN (n : Nat) : Fld := ⟨(FAULT.SRC_COUNT n), 15, 0⟩
/-- FAULT.SAFE_NOW (R453). -/
def FAULT.SAFE_NOW (n : Nat) : Nat := 0x40060 + 0x4 * n
/-- FAULT.SAFE_REL (R453). -/
def FAULT.SAFE_REL (n : Nat) : Nat := 0x40080 + 0x4 * n
/-- FAULT.SRC_CFG (R453). -/
def FAULT.SRC_CFG (n : Nat) : Nat := 0x40100 + 0x4 * n
def FAULT.SRC_CFG_SAFE_GRP (n : Nat) : Fld := ⟨(FAULT.SRC_CFG n), 26, 24⟩
def FAULT.SRC_CFG_SILL (n : Nat) : Fld := ⟨(FAULT.SRC_CFG n), 19, 16⟩
def FAULT.SRC_CFG_FAULT_N (n : Nat) : Fld := ⟨(FAULT.SRC_CFG n), 12, 12⟩
def FAULT.SRC_CFG_ACTION (n : Nat) : Fld := ⟨(FAULT.SRC_CFG n), 2, 0⟩
/-- FAULT.SAFE_GRP (R453). -/
def FAULT.SAFE_GRP (n k : Nat) : Nat := 0x40200 + 0x20 * n + 0x4 * k
/-- SUPPLY.SUP_STATUS (R454). -/
def SUPPLY.SUP_STATUS : Nat := 0x30000
def SUPPLY.SUP_STATUS_TEST_EN : Fld := ⟨SUPPLY.SUP_STATUS, 3, 3⟩
def SUPPLY.SUP_STATUS_IO_EXT : Fld := ⟨SUPPLY.SUP_STATUS, 2, 2⟩
def SUPPLY.SUP_STATUS_VCORE_EXT : Fld := ⟨SUPPLY.SUP_STATUS, 1, 1⟩
def SUPPLY.SUP_STATUS_VIN_GOOD : Fld := ⟨SUPPLY.SUP_STATUS, 0, 0⟩
/-- SUPPLY.VIN_FAIL_CFG (R454). -/
def SUPPLY.VIN_FAIL_CFG : Nat := 0x30004
def SUPPLY.VIN_FAIL_CFG_THRESH : Fld := ⟨SUPPLY.VIN_FAIL_CFG, 11, 0⟩
/-- SUPPLY.VCORE_CFG (R454). -/
def SUPPLY.VCORE_CFG : Nat := 0x30008
def SUPPLY.VCORE_CFG_MODE : Fld := ⟨SUPPLY.VCORE_CFG, 31, 31⟩
def SUPPLY.VCORE_CFG_FIXED_MV : Fld := ⟨SUPPLY.VCORE_CFG, 11, 0⟩
/-- SUPPLY.VIO_CFG (R454). -/
def SUPPLY.VIO_CFG : Nat := 0x3000C
def SUPPLY.VIO_CFG_V3P3 : Fld := ⟨SUPPLY.VIO_CFG, 4, 0⟩
/-- SUPPLY.MON_VIN (R454). -/
def SUPPLY.MON_VIN : Nat := 0x30010
/-- SUPPLY.MON_VINT (R454). -/
def SUPPLY.MON_VINT : Nat := 0x30014
/-- SUPPLY.MON_VCORE (R454). -/
def SUPPLY.MON_VCORE : Nat := 0x30018
/-- SUPPLY.MON_VDDA (R454). -/
def SUPPLY.MON_VDDA : Nat := 0x3001C
/-- SUPPLY.MON_TJ (R454). -/
def SUPPLY.MON_TJ : Nat := 0x30020
/-- SUPPLY.THERM_CFG (R454). -/
def SUPPLY.THERM_CFG : Nat := 0x30024
def SUPPLY.THERM_CFG_TRIP : Fld := ⟨SUPPLY.THERM_CFG, 15, 8⟩
def SUPPLY.THERM_CFG_WARN : Fld := ⟨SUPPLY.THERM_CFG, 7, 0⟩
/-- SUPPLY.RAIL_FLAGS (R454). -/
def SUPPLY.RAIL_FLAGS : Nat := 0x30028
def SUPPLY.RAIL_FLAGS_TRIP : Fld := ⟨SUPPLY.RAIL_FLAGS, 9, 9⟩
def SUPPLY.RAIL_FLAGS_WARN : Fld := ⟨SUPPLY.RAIL_FLAGS, 8, 8⟩
def SUPPLY.RAIL_FLAGS_VIO : Fld := ⟨SUPPLY.RAIL_FLAGS, 7, 3⟩
def SUPPLY.RAIL_FLAGS_VDDA : Fld := ⟨SUPPLY.RAIL_FLAGS, 2, 2⟩
def SUPPLY.RAIL_FLAGS_VCORE : Fld := ⟨SUPPLY.RAIL_FLAGS, 1, 1⟩
def SUPPLY.RAIL_FLAGS_VINT : Fld := ⟨SUPPLY.RAIL_FLAGS, 0, 0⟩
/-- SUPPLY.DOM_CTRL_0 (R454). -/
def SUPPLY.DOM_CTRL_0 : Nat := 0x30040
/-- SUPPLY.DOM_CTRL_1 (R454). -/
def SUPPLY.DOM_CTRL_1 : Nat := 0x30044
def SUPPLY.DOM_CTRL_1_ON : Fld := ⟨SUPPLY.DOM_CTRL_1, 26, 0⟩
/-- SUPPLY.DOM_STATUS_0 (R454). -/
def SUPPLY.DOM_STATUS_0 : Nat := 0x30048
/-- SUPPLY.DOM_STATUS_1 (R454). -/
def SUPPLY.DOM_STATUS_1 : Nat := 0x3004C
def SUPPLY.DOM_STATUS_1_READY : Fld := ⟨SUPPLY.DOM_STATUS_1, 26, 0⟩
/-- ID.PART (R455). -/
def ID.PART : Nat := 0x3F0000
def ID.PART_VALUE : Fld := ⟨ID.PART, 15, 0⟩
/-- ID.REV (R455). -/
def ID.REV : Nat := 0x3F0004
def ID.REV_VALUE : Fld := ⟨ID.REV, 15, 0⟩
/-- ID.IDCODE (R455). -/
def ID.IDCODE : Nat := 0x3F0008
/-- ID.PCI_ID (R455). -/
def ID.PCI_ID : Nat := 0x3F000C
/-- ID.UID (R455). -/
def ID.UID (n : Nat) : Nat := 0x3F0010 + 0x4 * n
/-- ID.KEY_HASH (R455). -/
def ID.KEY_HASH (n : Nat) : Nat := 0x3F0040 + 0x4 * n

end Sys2Proof.Machine
end

