-- ==== Sys2Proof/Machine/RegTable.lean ====
section
/-!
DEFINITION. Machine/RegTable.lean: the register tables of spec/01 to spec/18 as data: for each register of a block its
offset, its index ranges, its width, its reset value, the access code (R8) of every field, the largest enumeration value
that is not reserved (R9) and the range stated for the field (R51).
-/
namespace Sys2Proof.Machine

/-- The access codes of R8. -/
inductive Acc where
  | ro | rw | w1c | w1s | stg | live | cmd | stop
  deriving DecidableEq, Repr

/-- A field: its bits, its access code, its largest unreserved value, and its stated range. -/
structure FieldD where
  hi : Nat
  lo : Nat
  acc : Acc
  emax : Nat
  rlo : Nat
  rhi : Nat
  deriving DecidableEq, Repr

/-- A register of a block: offset of index 0, two index counts with their strides, whether it is 64 bits wide, its reset
value, its commit group as first + index / per (for registers of STG fields), and its fields in descending bit order. -/
structure RegD where
  off : Nat
  cnt : Nat
  stride : Nat
  cnt2 : Nat
  stride2 : Nat
  wide : Bool
  reset : Nat
  grp : Nat
  per : Nat
  fields : List FieldD
  deriving DecidableEq, Repr

/-- The registers of block 0x2 (spec rule R33). -/
def milepostRegs : List RegD := [
  -- MILEPOST.MP_NOW_LO
  ⟨0x0, 1, 0x4, 1, 0x4, false, 0x0, 0, 1048576, [⟨31, 0, .ro, 4294967295, 0, 4294967295⟩]⟩,
  -- MILEPOST.MP_NOW_HI
  ⟨0x4, 1, 0x4, 1, 0x4, false, 0x0, 0, 1048576, [⟨31, 0, .ro, 4294967295, 0, 4294967295⟩]⟩,
  -- MILEPOST.MP_CTRL
  ⟨0x8, 1, 0x4, 1, 0x4, false, 0x10, 0, 1048576, [⟨4, 4, .live, 1, 0, 1⟩, ⟨2, 2, .cmd, 1, 0, 1⟩, ⟨1, 0, .ro, 3, 0, 3⟩]⟩,
  -- MILEPOST.MP_STATUS
  ⟨0xC, 1, 0x4, 1, 0x4, false, 0x40, 0, 1048576, [⟨7, 7, .ro, 1, 0, 1⟩, ⟨6, 6, .ro, 1, 0, 1⟩, ⟨5, 5, .ro, 1, 0, 1⟩, ⟨4, 4, .ro, 1, 0, 1⟩, ⟨2, 0, .ro, 7, 0, 7⟩]⟩,
  -- MILEPOST.MP_FLAGS
  ⟨0x10, 1, 0x4, 1, 0x4, false, 0x0, 0, 1048576, [⟨3, 3, .w1c, 1, 0, 1⟩, ⟨2, 2, .w1c, 1, 0, 1⟩, ⟨1, 1, .w1c, 1, 0, 1⟩, ⟨0, 0, .w1c, 1, 0, 1⟩]⟩,
  -- MILEPOST.MP_SET
  ⟨0x18, 1, 0x4, 1, 0x4, true, 0x0, 0, 1048576, [⟨63, 0, .stop, 18446744073709551615, 0, 18446744073709551615⟩]⟩,
  -- MILEPOST.MP_SLEW
  ⟨0x20, 1, 0x4, 1, 0x4, false, 0x0, 0, 1048576, [⟨31, 0, .live, 4294967295, 0, 4294967295⟩]⟩,
  -- MILEPOST.MP_SLEW_CFG
  ⟨0x24, 1, 0x4, 1, 0x4, false, 0x400, 0, 1048576, [⟨15, 0, .live, 65535, 32, 65535⟩]⟩,
  -- MILEPOST.MP_REFQUAL
  ⟨0x28, 1, 0x4, 1, 0x4, false, 0x6404, 0, 1048576, [⟨15, 8, .live, 255, 1, 255⟩, ⟨3, 0, .live, 15, 2, 15⟩]⟩,
  -- MILEPOST.MP_HOLD_TIME
  ⟨0x2C, 1, 0x4, 1, 0x4, false, 0x0, 0, 1048576, [⟨31, 0, .ro, 4294967295, 0, 4294967295⟩]⟩,
  -- MILEPOST.LATE_COUNT
  ⟨0x40, 1, 0x4, 1, 0x4, false, 0x0, 0, 1048576, [⟨31, 0, .ro, 4294967295, 0, 4294967295⟩]⟩,
  -- MILEPOST.LATE_CLR
  ⟨0x44, 1, 0x4, 1, 0x4, false, 0x0, 0, 1048576, [⟨0, 0, .cmd, 1, 0, 1⟩]⟩,
  -- MILEPOST.LATE_LAST
  ⟨0x48, 1, 0x4, 1, 0x4, true, 0x0, 0, 1048576, [⟨63, 0, .ro, 18446744073709551615, 0, 18446744073709551615⟩]⟩,
  -- MILEPOST.LATE_SRC
  ⟨0x50, 1, 0x4, 1, 0x4, false, 0x0, 0, 1048576, [⟨23, 16, .ro, 255, 0, 255⟩, ⟨15, 0, .ro, 65535, 0, 65535⟩]⟩,
  -- MILEPOST.PACE_CTRL (reset: log entry 8)
  ⟨0x80, 1, 0x4, 1, 0x4, false, 0x11, 0, 1048576, [⟨5, 4, .live, 2, 0, 3⟩, ⟨1, 0, .live, 2, 0, 3⟩]⟩,
  -- MILEPOST.PACE_TARGET
  ⟨0x84, 1, 0x4, 1, 0x4, false, 0x600240, 0, 1048576, [⟨31, 16, .live, 65535, 0, 65535⟩, ⟨15, 0, .live, 65535, 0, 65535⟩]⟩,
  -- MILEPOST.PACE_MARGIN_CFG
  ⟨0x88, 1, 0x4, 1, 0x4, false, 0x200C, 0, 1048576, [⟨15, 8, .live, 255, 0, 255⟩, ⟨7, 0, .live, 255, 0, 255⟩]⟩,
  -- MILEPOST.PACE_STEP
  ⟨0x8C, 1, 0x4, 1, 0x4, false, 0xA05, 0, 1048576, [⟨15, 8, .live, 255, 1, 50⟩, ⟨7, 0, .live, 255, 1, 50⟩]⟩,
  -- MILEPOST.PACE_WORST
  ⟨0x90, 1, 0x4, 1, 0x4, false, 0x0, 0, 1048576, [⟨31, 16, .ro, 65535, 0, 65535⟩, ⟨15, 0, .ro, 65535, 0, 65535⟩]⟩,
  -- MILEPOST.PACE_STATUS
  ⟨0x94, 1, 0x4, 1, 0x4, false, 0x2EE, 0, 1048576, [⟨15, 15, .w1c, 1, 0, 1⟩, ⟨14, 14, .ro, 1, 0, 1⟩, ⟨13, 13, .ro, 1, 0, 1⟩, ⟨12, 12, .ro, 1, 0, 1⟩, ⟨11, 0, .ro, 4095, 0, 4095⟩]⟩]

/-- The registers of block 0x0 (spec rule R65). -/
def sysRegs : List RegD := [
  -- SYS.WHOAMI
  ⟨0x8, 1, 0x4, 1, 0x4, false, 0x0, 0, 1048576, [⟨15, 0, .ro, 65535, 0, 65535⟩]⟩,
  -- SYS.COMMIT_SEQ
  ⟨0x10, 1, 0x4, 1, 0x4, false, 0x0, 0, 1048576, [⟨15, 0, .ro, 65535, 0, 65535⟩]⟩,
  -- SYS.CLAIM_LIMIT
  ⟨0x14, 1, 0x4, 1, 0x4, false, 0x0, 0, 1048576, [⟨15, 0, .live, 65535, 0, 65535⟩]⟩,
  -- SYS.GC_CTRL
  ⟨0x20, 1, 0x4, 1, 0x4, false, 0x0, 0, 1048576, [⟨31, 31, .cmd, 1, 0, 1⟩, ⟨30, 30, .cmd, 1, 0, 1⟩, ⟨29, 29, .cmd, 1, 0, 1⟩, ⟨0, 0, .cmd, 1, 0, 1⟩]⟩,
  -- SYS.GC_AT
  ⟨0x28, 1, 0x4, 1, 0x4, true, 0x0, 0, 1048576, [⟨63, 0, .rw, 18446744073709551615, 0, 18446744073709551615⟩]⟩,
  -- SYS.GC_STATUS
  ⟨0x30, 1, 0x4, 1, 0x4, false, 0x0, 0, 1048576, [⟨31, 16, .ro, 65535, 0, 65535⟩, ⟨15, 12, .ro, 15, 0, 15⟩, ⟨11, 11, .ro, 1, 0, 1⟩, ⟨2, 0, .ro, 7, 0, 7⟩]⟩,
  -- SYS.GC_RESULT
  ⟨0x34, 1, 0x4, 1, 0x4, false, 0x0, 0, 1048576, [⟨31, 16, .ro, 65535, 0, 65535⟩, ⟨15, 0, .ro, 65535, 0, 65535⟩]⟩,
  -- SYS.GC_APPLIED
  ⟨0x38, 1, 0x4, 1, 0x4, true, 0x0, 0, 1048576, [⟨63, 0, .ro, 18446744073709551615, 0, 18446744073709551615⟩]⟩,
  -- SYS.SNAP_CTRL
  ⟨0x40, 1, 0x4, 1, 0x4, false, 0x0, 0, 1048576, [⟨1, 1, .rw, 1, 0, 1⟩, ⟨0, 0, .w1s, 1, 0, 1⟩]⟩,
  -- SYS.SNAP_STATUS
  ⟨0x44, 1, 0x4, 1, 0x4, false, 0x0, 0, 1048576, [⟨31, 16, .ro, 65535, 0, 65535⟩, ⟨1, 1, .w1c, 1, 0, 1⟩, ⟨0, 0, .ro, 1, 0, 1⟩]⟩,
  -- SYS.SNAP_AT
  ⟨0x48, 1, 0x4, 1, 0x4, true, 0x0, 0, 1048576, [⟨63, 0, .rw, 18446744073709551615, 0, 18446744073709551615⟩]⟩,
  -- SYS.SNAP_TIME
  ⟨0x50, 1, 0x4, 1, 0x4, true, 0x0, 0, 1048576, [⟨63, 0, .ro, 18446744073709551615, 0, 18446744073709551615⟩]⟩,
  -- SYS.SNAP_MASK
  ⟨0x58, 1, 0x4, 1, 0x4, true, 0x0, 0, 1048576, [⟨63, 0, .rw, 18446744073709551615, 0, 18446744073709551615⟩]⟩,
  -- SYS.GC_LIST
  ⟨0x100, 64, 0x4, 1, 0x4, false, 0x0, 0, 1048576, [⟨31, 31, .rw, 1, 0, 1⟩, ⟨15, 8, .rw, 255, 0, 255⟩, ⟨7, 0, .rw, 255, 0, 255⟩]⟩]

/-- The registers of block 0x1 (spec rule R66). -/
def ledgerRegs : List RegD := [
  -- LEDGER.LG_CTRL
  ⟨0x0, 1, 0x4, 1, 0x4, false, 0x0, 0, 1048576, [⟨1, 0, .live, 1, 0, 3⟩]⟩,
  -- LEDGER.LG_STATUS
  ⟨0x4, 1, 0x4, 1, 0x4, false, 0x0, 0, 1048576, [⟨18, 18, .w1c, 1, 0, 1⟩, ⟨17, 17, .ro, 1, 0, 1⟩, ⟨16, 16, .ro, 1, 0, 1⟩, ⟨12, 0, .ro, 8191, 0, 8191⟩]⟩,
  -- LEDGER.LG_RING_BASE
  ⟨0x8, 1, 0x4, 1, 0x4, true, 0x1000000000, 0, 1048576, [⟨39, 0, .stop, 1099511627775, 0, 1099511627775⟩]⟩,
  -- LEDGER.LG_NEXT_SEQ
  ⟨0x10, 1, 0x4, 1, 0x4, false, 0x0, 0, 1048576, [⟨31, 0, .ro, 4294967295, 0, 4294967295⟩]⟩,
  -- LEDGER.LG_DRAINED_SEQ
  ⟨0x14, 1, 0x4, 1, 0x4, false, 0x0, 0, 1048576, [⟨31, 0, .ro, 4294967295, 0, 4294967295⟩]⟩,
  -- LEDGER.LG_READ_SEQ
  ⟨0x18, 1, 0x4, 1, 0x4, false, 0x0, 0, 1048576, [⟨31, 0, .rw, 4294967295, 0, 4294967295⟩]⟩,
  -- LEDGER.LG_HOST_MIRROR
  ⟨0x20, 1, 0x4, 1, 0x4, false, 0x0, 0, 1048576, [⟨10, 8, .live, 7, 0, 7⟩, ⟨7, 0, .live, 255, 0, 255⟩]⟩,
  -- LEDGER.LG_NOR_MIRROR
  ⟨0x24, 1, 0x4, 1, 0x4, false, 0x0, 0, 1048576, [⟨7, 0, .live, 255, 0, 255⟩]⟩,
  -- LEDGER.LG_NOR_DROPPED
  ⟨0x28, 1, 0x4, 1, 0x4, false, 0x0, 0, 1048576, [⟨31, 0, .ro, 4294967295, 0, 4294967295⟩]⟩,
  -- LEDGER.LG_STALL_COUNT
  ⟨0x30, 1, 0x4, 1, 0x4, false, 0x0, 0, 1048576, [⟨31, 0, .ro, 4294967295, 0, 4294967295⟩]⟩,
  -- LEDGER.LG_STALL_MAX
  ⟨0x34, 1, 0x4, 1, 0x4, false, 0x0, 0, 1048576, [⟨31, 0, .ro, 4294967295, 0, 4294967295⟩]⟩,
  -- LEDGER.LG_CLR
  ⟨0x38, 1, 0x4, 1, 0x4, false, 0x0, 0, 1048576, [⟨0, 0, .cmd, 1, 0, 1⟩]⟩,
  -- LEDGER.LG_WIN_SEQ
  ⟨0x40, 1, 0x4, 1, 0x4, false, 0x0, 0, 1048576, [⟨31, 0, .rw, 4294967295, 0, 4294967295⟩]⟩,
  -- LEDGER.LG_WIN_STATUS
  ⟨0x44, 1, 0x4, 1, 0x4, false, 0x0, 0, 1048576, [⟨1, 1, .ro, 1, 0, 1⟩, ⟨0, 0, .ro, 1, 0, 1⟩]⟩,
  -- LEDGER.LG_FLAGS
  ⟨0x48, 1, 0x4, 1, 0x4, false, 0x0, 0, 1048576, [⟨0, 0, .w1c, 1, 0, 1⟩]⟩,
  -- LEDGER.LG_WIN_DATA
  ⟨0x60, 8, 0x4, 1, 0x4, false, 0x0, 0, 1048576, [⟨31, 0, .ro, 4294967295, 0, 4294967295⟩]⟩]

/-- The registers of block 0x9 (spec rule R93). -/
def nvmRegs : List RegD := [
  -- NVM.BOOT_STATUS
  ⟨0x0, 1, 0x4, 1, 0x4, false, 0x0, 0, 1048576, [⟨16, 16, .ro, 1, 0, 1⟩, ⟨15, 12, .ro, 15, 0, 15⟩, ⟨11, 8, .ro, 15, 0, 15⟩, ⟨4, 4, .ro, 1, 0, 1⟩, ⟨2, 0, .ro, 7, 0, 7⟩]⟩,
  -- NVM.BOOT_SERIAL
  ⟨0x8, 1, 0x4, 1, 0x4, true, 0x0, 0, 1048576, [⟨63, 0, .ro, 18446744073709551615, 0, 18446744073709551615⟩]⟩,
  -- NVM.BOOT_TIME
  ⟨0x10, 1, 0x4, 1, 0x4, true, 0x0, 0, 1048576, [⟨63, 0, .ro, 18446744073709551615, 0, 18446744073709551615⟩]⟩,
  -- NVM.FL_CTRL
  ⟨0x40, 1, 0x4, 1, 0x4, false, 0x0, 0, 1048576, [⟨8, 8, .cmd, 1, 0, 1⟩, ⟨3, 0, .cmd, 4, 0, 15⟩]⟩,
  -- NVM.FL_ADDR
  ⟨0x44, 1, 0x4, 1, 0x4, false, 0x0, 0, 1048576, [⟨27, 0, .rw, 268435455, 0, 268435455⟩]⟩,
  -- NVM.FL_LEN
  ⟨0x48, 1, 0x4, 1, 0x4, false, 0x0, 0, 1048576, [⟨16, 0, .rw, 131071, 0, 131071⟩]⟩,
  -- NVM.FL_BUF
  ⟨0x50, 1, 0x4, 1, 0x4, true, 0x0, 0, 1048576, [⟨39, 0, .rw, 1099511627775, 0, 1099511627775⟩]⟩,
  -- NVM.FL_STATUS
  ⟨0x58, 1, 0x4, 1, 0x4, false, 0x0, 0, 1048576, [⟨11, 8, .ro, 15, 0, 15⟩, ⟨2, 2, .w1c, 1, 0, 1⟩, ⟨1, 1, .w1c, 1, 0, 1⟩, ⟨0, 0, .ro, 1, 0, 1⟩]⟩,
  -- NVM.JNL_STATUS
  ⟨0x80, 1, 0x4, 1, 0x4, false, 0x0, 0, 1048576, [⟨31, 31, .ro, 1, 0, 1⟩, ⟨26, 16, .ro, 2047, 0, 2047⟩, ⟨10, 0, .ro, 2047, 0, 2047⟩]⟩,
  -- NVM.JNL_NEXT_SEQ
  ⟨0x84, 1, 0x4, 1, 0x4, false, 0x0, 0, 1048576, [⟨31, 0, .ro, 4294967295, 0, 4294967295⟩]⟩,
  -- NVM.JNL_CP_SEQ
  ⟨0x88, 1, 0x4, 1, 0x4, false, 0x0, 0, 1048576, [⟨31, 0, .ro, 4294967295, 0, 4294967295⟩]⟩,
  -- NVM.JNL_ERASES
  ⟨0x8C, 1, 0x4, 1, 0x4, false, 0x0, 0, 1048576, [⟨31, 0, .ro, 4294967295, 0, 4294967295⟩]⟩,
  -- NVM.JNL_COUNTS
  ⟨0x90, 1, 0x4, 1, 0x4, false, 0x0, 0, 1048576, [⟨31, 16, .ro, 65535, 0, 65535⟩, ⟨15, 0, .ro, 65535, 0, 65535⟩]⟩,
  -- NVM.JNL_CTRL
  ⟨0x94, 1, 0x4, 1, 0x4, false, 0x3C00, 0, 1048576, [⟨23, 8, .live, 65535, 0, 65535⟩, ⟨1, 1, .cmd, 1, 0, 1⟩, ⟨0, 0, .cmd, 1, 0, 1⟩]⟩,
  -- NVM.WP_STATUS
  ⟨0xC0, 1, 0x4, 1, 0x4, false, 0x0, 0, 1048576, [⟨3, 3, .ro, 1, 0, 1⟩, ⟨2, 2, .ro, 1, 0, 1⟩, ⟨1, 1, .ro, 1, 0, 1⟩, ⟨0, 0, .ro, 1, 0, 1⟩]⟩,
  -- NVM.WP_CTRL
  ⟨0xC4, 1, 0x4, 1, 0x4, false, 0x0, 0, 1048576, [⟨0, 0, .cmd, 1, 0, 1⟩]⟩,
  -- NVM.WP_SW_ADDR
  ⟨0xC8, 1, 0x4, 1, 0x4, false, 0x10000000, 0, 1048576, [⟨31, 0, .live, 4294967295, 0, 4294967295⟩]⟩,
  -- NVM.WP_SW_LEN
  ⟨0xCC, 1, 0x4, 1, 0x4, false, 0x0, 0, 1048576, [⟨9, 0, .live, 1023, 0, 956⟩]⟩,
  -- NVM.WP_LAST
  ⟨0xD0, 1, 0x4, 1, 0x4, true, 0x0, 0, 1048576, [⟨63, 0, .ro, 18446744073709551615, 0, 18446744073709551615⟩]⟩]

/-- The registers of block 0x10 (spec rule R116). -/
def adcRegs : List RegD := [
  -- ADC.BLK_STATUS
  ⟨0x0, 1, 0x4, 1, 0x4, false, 0x0, 0, 1, [⟨1, 1, .ro, 1, 0, 1⟩, ⟨0, 0, .ro, 1, 0, 1⟩]⟩,
  -- ADC.TRUE_CTRL
  ⟨0x10, 1, 0x4, 1, 0x4, false, 0xA00, 0, 1, [⟨23, 8, .live, 65535, 0, 65535⟩, ⟨1, 0, .live, 1, 0, 3⟩]⟩,
  -- ADC.TRUE_STATUS
  ⟨0x14, 1, 0x4, 1, 0x4, false, 0xF0F0F0F, 0, 1, [⟨27, 24, .ro, 15, 0, 15⟩, ⟨19, 16, .ro, 15, 0, 15⟩, ⟨11, 8, .ro, 15, 0, 15⟩, ⟨3, 0, .ro, 15, 0, 15⟩]⟩,
  -- ADC.TRUE_LAP
  ⟨0x18, 1, 0x4, 1, 0x4, false, 0x0, 0, 1, [⟨31, 16, .ro, 65535, 0, 65535⟩, ⟨15, 0, .ro, 65535, 0, 65535⟩]⟩,
  -- ADC.TRUE_FAIL
  ⟨0x1C, 1, 0x4, 1, 0x4, false, 0xF000F, 0, 1, [⟨19, 16, .ro, 15, 0, 15⟩, ⟨9, 9, .w1c, 1, 0, 1⟩, ⟨8, 8, .w1c, 1, 0, 1⟩, ⟨3, 0, .ro, 15, 0, 15⟩]⟩,
  -- ADC.SPARE_TRIM
  ⟨0x20, 2, 0x4, 1, 0x4, false, 0x0, 0, 1, [⟨31, 16, .ro, 65535, 0, 65535⟩, ⟨15, 0, .ro, 65535, 0, 65535⟩]⟩,
  -- ADC.CH_CFG
  ⟨0x100, 16, 0x40, 1, 0x4, false, 0x0, 0, 1, [⟨23, 16, .stg, 255, 0, 255⟩, ⟨9, 8, .stg, 3, 0, 3⟩, ⟨5, 4, .stg, 3, 0, 3⟩, ⟨2, 0, .stg, 3, 0, 7⟩]⟩,
  -- ADC.CH_PHASE
  ⟨0x104, 16, 0x40, 1, 0x4, false, 0x0, 0, 1, [⟨10, 0, .stg, 2047, 0, 2047⟩]⟩,
  -- ADC.CH_TRIG
  ⟨0x108, 16, 0x40, 1, 0x4, false, 0x0, 0, 1, [⟨29, 24, .stg, 63, 0, 47⟩, ⟨17, 16, .stg, 3, 0, 3⟩, ⟨11, 0, .stg, 4095, 0, 4095⟩]⟩,
  -- ADC.CH_TIMED_P
  ⟨0x10C, 16, 0x40, 1, 0x4, false, 0x8, 0, 1, [⟨31, 0, .stg, 4294967295, 8, 4294967295⟩]⟩,
  -- ADC.CH_TIMED_T0
  ⟨0x110, 16, 0x40, 1, 0x4, true, 0x0, 0, 1, [⟨63, 0, .stg, 18446744073709551615, 0, 18446744073709551615⟩]⟩,
  -- ADC.CH_SCHED
  ⟨0x118, 16, 0x40, 1, 0x4, false, 0x2004, 0, 1, [⟨15, 8, .stg, 255, 0, 255⟩, ⟨7, 0, .stg, 255, 0, 255⟩]⟩,
  -- ADC.CH_WIN_LIM
  ⟨0x11C, 16, 0x40, 1, 0x4, false, 0x7FF0800, 0, 1, [⟨27, 16, .stg, 4095, 0, 4095⟩, ⟨11, 0, .stg, 4095, 0, 4095⟩]⟩,
  -- ADC.CH_WIN_CFG
  ⟨0x120, 16, 0x40, 1, 0x4, false, 0x100, 0, 1, [⟨15, 8, .stg, 255, 1, 255⟩, ⟨5, 4, .stg, 1, 0, 3⟩, ⟨1, 0, .stg, 2, 0, 3⟩]⟩,
  -- ADC.CH_STREAM
  ⟨0x124, 16, 0x40, 1, 0x4, false, 0x1F, 0, 1, [⟨8, 8, .stg, 1, 0, 1⟩, ⟨4, 0, .stg, 31, 1, 31⟩]⟩,
  -- ADC.CH_LAST
  ⟨0x128, 16, 0x40, 1, 0x4, false, 0x0, 0, 1, [⟨31, 16, .ro, 65535, 0, 65535⟩, ⟨15, 0, .ro, 65535, 0, 65535⟩]⟩,
  -- ADC.CH_COUNT
  ⟨0x12C, 16, 0x40, 1, 0x4, false, 0x0, 0, 1, [⟨31, 0, .ro, 4294967295, 0, 4294967295⟩]⟩,
  -- ADC.CH_STATUS
  ⟨0x130, 16, 0x40, 1, 0x4, false, 0x0, 0, 1, [⟨11, 11, .ro, 1, 0, 1⟩, ⟨10, 9, .ro, 3, 0, 3⟩, ⟨8, 8, .w1c, 1, 0, 1⟩, ⟨7, 7, .w1c, 1, 0, 1⟩, ⟨6, 6, .w1c, 1, 0, 1⟩, ⟨5, 5, .w1c, 1, 0, 1⟩, ⟨4, 4, .ro, 1, 0, 1⟩, ⟨3, 3, .ro, 1, 0, 1⟩, ⟨2, 2, .ro, 1, 0, 1⟩, ⟨1, 0, .ro, 3, 0, 3⟩]⟩,
  -- ADC.CH_DROPS
  ⟨0x134, 16, 0x40, 1, 0x4, false, 0x0, 0, 1, [⟨31, 16, .ro, 65535, 0, 65535⟩, ⟨15, 0, .ro, 65535, 0, 65535⟩]⟩,
  -- ADC.CH_CLR
  ⟨0x138, 16, 0x40, 1, 0x4, false, 0x0, 0, 1, [⟨1, 1, .cmd, 1, 0, 1⟩, ⟨0, 0, .cmd, 1, 0, 1⟩]⟩,
  -- ADC.CH_TRIM
  ⟨0x13C, 16, 0x40, 1, 0x4, false, 0x0, 0, 1, [⟨31, 16, .ro, 65535, 0, 65535⟩, ⟨15, 0, .ro, 65535, 0, 65535⟩]⟩,
  -- ADC.SNAP
  ⟨0x600, 16, 0x4, 1, 0x4, false, 0x0, 0, 1, [⟨31, 16, .ro, 65535, 0, 65535⟩, ⟨15, 0, .ro, 65535, 0, 65535⟩]⟩]

/-- The registers of block 0x16 (spec rule R135). -/
def compRegs : List RegD := [
  -- COMP.BANK_STATUS
  ⟨0x0, 1, 0x4, 1, 0x4, false, 0x0, 0, 1, [⟨1, 1, .ro, 1, 0, 1⟩, ⟨0, 0, .ro, 1, 0, 1⟩]⟩,
  -- COMP.TEST_CTRL
  ⟨0x10, 1, 0x4, 1, 0x4, false, 0x100, 0, 1, [⟨23, 8, .live, 65535, 0, 65535⟩, ⟨0, 0, .live, 1, 0, 1⟩]⟩,
  -- COMP.TEST_STATUS
  ⟨0x14, 1, 0x4, 1, 0x4, false, 0x7F, 0, 1, [⟨31, 16, .ro, 65535, 0, 65535⟩, ⟨6, 0, .ro, 127, 0, 127⟩]⟩,
  -- COMP.TEST_FAILS
  ⟨0x18, 1, 0x4, 1, 0x4, false, 0x0, 0, 1, [⟨6, 0, .ro, 127, 0, 127⟩]⟩,
  -- COMP.OUT
  ⟨0x20, 3, 0x4, 1, 0x4, false, 0x0, 0, 1, [⟨31, 0, .ro, 4294967295, 0, 4294967295⟩]⟩,
  -- COMP.TRIP
  ⟨0x30, 3, 0x4, 1, 0x4, false, 0x0, 0, 1, [⟨31, 0, .ro, 4294967295, 0, 4294967295⟩]⟩,
  -- COMP.SNAP_OUT
  ⟨0x40, 3, 0x4, 1, 0x4, false, 0x0, 0, 1, [⟨31, 0, .ro, 4294967295, 0, 4294967295⟩]⟩,
  -- COMP.SNAP_TRIP
  ⟨0x50, 3, 0x4, 1, 0x4, false, 0x0, 0, 1, [⟨31, 0, .ro, 4294967295, 0, 4294967295⟩]⟩,
  -- COMP.CMP_CFG
  ⟨0x100, 96, 0x20, 1, 0x4, false, 0x0, 0, 1, [⟨25, 24, .stg, 3, 0, 3⟩, ⟨19, 16, .stg, 15, 0, 15⟩, ⟨13, 12, .stg, 3, 0, 3⟩, ⟨8, 8, .stg, 1, 0, 1⟩, ⟨4, 4, .stg, 1, 0, 1⟩, ⟨1, 0, .stg, 3, 0, 3⟩]⟩,
  -- COMP.CMP_REF
  ⟨0x104, 96, 0x20, 1, 0x4, false, 0x0, 0, 1, [⟨9, 0, .stg, 1023, 0, 1023⟩]⟩,
  -- COMP.PAIR_CFG
  ⟨0x108, 96, 0x20, 1, 0x4, false, 0x0, 0, 1, [⟨31, 24, .stg, 255, 0, 255⟩, ⟨16, 16, .stg, 1, 0, 1⟩, ⟨12, 12, .stg, 1, 0, 1⟩, ⟨8, 8, .stg, 1, 0, 1⟩, ⟨4, 4, .stg, 1, 0, 1⟩, ⟨1, 0, .stg, 2, 0, 3⟩]⟩,
  -- COMP.CMP_TEST
  ⟨0x10C, 96, 0x20, 1, 0x4, false, 0x0, 0, 1, [⟨8, 8, .cmd, 1, 0, 1⟩, ⟨2, 0, .cmd, 4, 0, 7⟩]⟩,
  -- COMP.CMP_STATUS
  ⟨0x110, 96, 0x20, 1, 0x4, false, 0x0, 0, 1, [⟨15, 12, .ro, 15, 0, 15⟩, ⟨11, 11, .w1c, 1, 0, 1⟩, ⟨10, 10, .w1c, 1, 0, 1⟩, ⟨9, 9, .w1c, 1, 0, 1⟩, ⟨8, 8, .w1c, 1, 0, 1⟩, ⟨6, 4, .ro, 7, 0, 7⟩, ⟨1, 1, .ro, 1, 0, 1⟩, ⟨0, 0, .ro, 1, 0, 1⟩]⟩,
  -- COMP.CMP_COUNT
  ⟨0x114, 96, 0x20, 1, 0x4, false, 0x0, 0, 1, [⟨31, 16, .ro, 65535, 0, 65535⟩, ⟨15, 0, .ro, 65535, 0, 65535⟩]⟩,
  -- COMP.CMP_TRIM
  ⟨0x118, 96, 0x20, 1, 0x4, false, 0x0, 0, 1, [⟨15, 0, .ro, 65535, 0, 65535⟩]⟩]

/-- The registers of block 0x18 (spec rule R160). -/
def loopSlotsRegs : List RegD := [
  -- LOOP.BLK_STATUS
  ⟨0x0, 1, 0x4, 1, 0x4, false, 0x0, 0, 1, [⟨1, 1, .ro, 1, 0, 1⟩, ⟨0, 0, .ro, 1, 0, 1⟩]⟩,
  -- LOOP.SNAP_OUT
  ⟨0x40, 16, 0x4, 1, 0x4, false, 0x0, 0, 1, [⟨31, 0, .ro, 4294967295, 0, 4294967295⟩]⟩,
  -- LOOP.SNAP_SP
  ⟨0x80, 16, 0x4, 1, 0x4, false, 0x0, 0, 1, [⟨23, 0, .ro, 16777215, 0, 16777215⟩]⟩,
  -- LOOP.CF
  ⟨0x4000, 1024, 0x4, 1, 0x4, false, 0x0, 0, 1, [⟨31, 0, .live, 4294967295, 0, 4294967295⟩]⟩,
  -- LOOP.SLOT_CFG
  ⟨0x200, 16, 0x80, 1, 0x4, false, 0x0, 0, 1, [⟨30, 24, .stg, 127, 0, 95⟩, ⟨19, 16, .stg, 15, 0, 15⟩, ⟨12, 12, .stg, 1, 0, 1⟩, ⟨8, 8, .stg, 1, 0, 1⟩, ⟨5, 4, .stg, 3, 0, 3⟩, ⟨1, 0, .stg, 3, 0, 3⟩]⟩,
  -- LOOP.SLOT_SP_CFG
  ⟨0x204, 16, 0x80, 1, 0x4, false, 0x0, 0, 1, [⟨29, 24, .stg, 63, 0, 63⟩, ⟨22, 16, .stg, 127, 0, 95⟩, ⟨8, 8, .stg, 1, 0, 1⟩, ⟨4, 4, .stg, 1, 0, 1⟩, ⟨1, 0, .stg, 2, 0, 3⟩]⟩,
  -- LOOP.SLOT_SP_TARGET
  ⟨0x208, 16, 0x80, 1, 0x4, false, 0x0, 0, 1, [⟨23, 0, .stg, 16777215, 0, 16777215⟩]⟩,
  -- LOOP.SLOT_SP_SLEW
  ⟨0x20C, 16, 0x80, 1, 0x4, false, 0x0, 0, 1, [⟨23, 0, .stg, 16777215, 0, 16777215⟩]⟩,
  -- LOOP.SLOT_ANA_SCALE
  ⟨0x210, 16, 0x80, 1, 0x4, false, 0x100, 0, 1, [⟨15, 0, .stg, 65535, 0, 65535⟩]⟩,
  -- LOOP.SLOT_ANA_OFS
  ⟨0x214, 16, 0x80, 1, 0x4, false, 0x0, 0, 1, [⟨23, 0, .stg, 16777215, 0, 16777215⟩]⟩,
  -- LOOP.SLOT_PULSE_LO
  ⟨0x218, 16, 0x80, 1, 0x4, false, 0x0, 0, 1, [⟨23, 0, .stg, 16777215, 0, 16777215⟩]⟩,
  -- LOOP.SLOT_PULSE_HI
  ⟨0x21C, 16, 0x80, 1, 0x4, false, 0x0, 0, 1, [⟨23, 0, .stg, 16777215, 0, 16777215⟩]⟩,
  -- LOOP.SLOT_PULSE_TMO
  ⟨0x220, 16, 0x80, 1, 0x4, false, 0x0, 0, 1, [⟨15, 0, .stg, 65535, 0, 65535⟩]⟩,
  -- LOOP.SLOT_INT_LO
  ⟨0x224, 16, 0x80, 1, 0x4, false, 0x0, 0, 1, [⟨31, 0, .stg, 4294967295, 0, 4294967295⟩]⟩,
  -- LOOP.SLOT_INT_HI
  ⟨0x228, 16, 0x80, 1, 0x4, false, 0x1000000, 0, 1, [⟨31, 0, .stg, 4294967295, 0, 4294967295⟩]⟩,
  -- LOOP.SLOT_OUT_LO
  ⟨0x22C, 16, 0x80, 1, 0x4, false, 0x0, 0, 1, [⟨31, 0, .stg, 4294967295, 0, 4294967295⟩]⟩,
  -- LOOP.SLOT_OUT_HI
  ⟨0x230, 16, 0x80, 1, 0x4, false, 0x1000000, 0, 1, [⟨31, 0, .stg, 4294967295, 0, 4294967295⟩]⟩,
  -- LOOP.SLOT_OUT_CFG
  ⟨0x234, 16, 0x80, 1, 0x4, false, 0x0, 0, 1, [⟨14, 8, .stg, 127, 0, 127⟩, ⟨4, 4, .stg, 1, 0, 1⟩, ⟨2, 0, .stg, 4, 0, 7⟩]⟩,
  -- LOOP.SLOT_MAN
  ⟨0x238, 16, 0x80, 1, 0x4, false, 0x0, 0, 1, [⟨31, 0, .stg, 4294967295, 0, 4294967295⟩]⟩,
  -- LOOP.SLOT_CMD
  ⟨0x240, 16, 0x80, 1, 0x4, false, 0x0, 0, 1, [⟨2, 2, .cmd, 1, 0, 1⟩, ⟨1, 1, .cmd, 1, 0, 1⟩, ⟨0, 0, .cmd, 1, 0, 1⟩]⟩,
  -- LOOP.SLOT_STATUS
  ⟨0x244, 16, 0x80, 1, 0x4, false, 0x0, 0, 1, [⟨26, 24, .ro, 7, 0, 7⟩, ⟨19, 19, .w1c, 1, 0, 1⟩, ⟨18, 18, .w1c, 1, 0, 1⟩, ⟨17, 17, .w1c, 1, 0, 1⟩, ⟨16, 16, .w1c, 1, 0, 1⟩, ⟨13, 13, .ro, 1, 0, 1⟩, ⟨12, 12, .ro, 1, 0, 1⟩, ⟨11, 11, .ro, 1, 0, 1⟩, ⟨10, 10, .ro, 1, 0, 1⟩, ⟨9, 9, .ro, 1, 0, 1⟩, ⟨8, 8, .ro, 1, 0, 1⟩, ⟨7, 7, .ro, 1, 0, 1⟩, ⟨6, 6, .ro, 1, 0, 1⟩, ⟨5, 4, .ro, 3, 0, 3⟩, ⟨2, 0, .ro, 7, 0, 7⟩]⟩,
  -- LOOP.SLOT_OUT
  ⟨0x248, 16, 0x80, 1, 0x4, false, 0x0, 0, 1, [⟨31, 0, .ro, 4294967295, 0, 4294967295⟩]⟩,
  -- LOOP.SLOT_SP_NOW
  ⟨0x24C, 16, 0x80, 1, 0x4, false, 0x0, 0, 1, [⟨23, 0, .ro, 16777215, 0, 16777215⟩]⟩,
  -- LOOP.SLOT_ERR
  ⟨0x250, 16, 0x80, 1, 0x4, false, 0x0, 0, 1, [⟨31, 0, .ro, 4294967295, 0, 4294967295⟩]⟩,
  -- LOOP.SLOT_EVALS
  ⟨0x254, 16, 0x80, 1, 0x4, false, 0x0, 0, 1, [⟨31, 0, .ro, 4294967295, 0, 4294967295⟩]⟩,
  -- LOOP.SLOT_COUNTS
  ⟨0x258, 16, 0x80, 1, 0x4, false, 0x0, 0, 1, [⟨31, 16, .ro, 65535, 0, 65535⟩, ⟨15, 0, .ro, 65535, 0, 65535⟩]⟩,
  -- LOOP.SLOT_COMMIT_EVAL
  ⟨0x25C, 16, 0x80, 1, 0x4, false, 0x0, 0, 1, [⟨31, 0, .ro, 4294967295, 0, 4294967295⟩]⟩,
  -- LOOP.SLOT_STATE
  ⟨0x260, 16, 0x80, 1, 0x4, true, 0x0, 0, 1, [⟨47, 0, .ro, 281474976710655, 0, 281474976710655⟩]⟩,
  -- LOOP.SLOT_PULSE_MEAS
  ⟨0x268, 16, 0x80, 1, 0x4, false, 0x0, 0, 1, [⟨15, 0, .ro, 65535, 0, 65535⟩]⟩]

/-- The registers of block 0x1a (spec rule R161, R177). -/
def loopSupRegs : List RegD := [
  -- LOOP.CG_CFG
  ⟨0x100, 8, 0x10, 1, 0x4, false, 0x0, 0, 1, [⟨31, 31, .stg, 1, 0, 1⟩, ⟨16, 16, .stg, 1, 0, 1⟩, ⟨14, 8, .stg, 127, 0, 127⟩, ⟨2, 0, .stg, 3, 0, 7⟩]⟩,
  -- LOOP.CG_MARGIN
  ⟨0x104, 8, 0x10, 1, 0x4, false, 0x0, 0, 1, [⟨30, 0, .stg, 2147483647, 0, 2147483647⟩]⟩,
  -- LOOP.CG_STATUS
  ⟨0x108, 8, 0x10, 1, 0x4, false, 0x0, 0, 1, [⟨20, 16, .ro, 31, 0, 31⟩, ⟨15, 15, .ro, 1, 0, 1⟩, ⟨3, 0, .ro, 15, 0, 15⟩]⟩,
  -- LOOP.CG_OUT
  ⟨0x10C, 8, 0x10, 1, 0x4, false, 0x0, 0, 1, [⟨31, 0, .ro, 4294967295, 0, 4294967295⟩]⟩,
  -- LOOP.OSC_CFG
  ⟨0x400, 32, 0x10, 1, 0x4, false, 0x80000, 8, 1, [⟨20, 16, .stg, 31, 2, 16⟩, ⟨9, 8, .stg, 3, 0, 3⟩, ⟨4, 4, .stg, 1, 0, 1⟩, ⟨2, 0, .stg, 4, 0, 7⟩]⟩,
  -- LOOP.OSC_LIM
  ⟨0x404, 32, 0x10, 1, 0x4, false, 0x3E80010, 8, 1, [⟨31, 16, .stg, 65535, 1, 65535⟩, ⟨15, 0, .stg, 65535, 0, 65535⟩]⟩,
  -- LOOP.OSC_STATUS
  ⟨0x408, 32, 0x10, 1, 0x4, false, 0x1, 8, 1, [⟨31, 16, .ro, 65535, 0, 65535⟩, ⟨12, 8, .ro, 31, 0, 31⟩, ⟨6, 6, .w1c, 1, 0, 1⟩, ⟨5, 4, .ro, 3, 0, 3⟩, ⟨0, 0, .ro, 1, 0, 1⟩]⟩,
  -- LOOP.OSC_LAST
  ⟨0x40C, 32, 0x10, 1, 0x4, false, 0x0, 8, 1, [⟨31, 0, .ro, 4294967295, 0, 4294967295⟩]⟩,
  -- LOOP.SUP_CFG
  ⟨0x800, 1, 0x4, 1, 0x4, false, 0x640001, 40, 1048576, [⟨31, 16, .stg, 65535, 0, 65535⟩, ⟨8, 8, .stg, 1, 0, 1⟩, ⟨0, 0, .stg, 1, 0, 1⟩]⟩,
  -- LOOP.SUP_STATUS
  ⟨0x804, 1, 0x4, 1, 0x4, false, 0x7000000, 40, 1048576, [⟨26, 24, .ro, 7, 0, 7⟩, ⟨20, 16, .ro, 31, 0, 31⟩, ⟨13, 13, .ro, 1, 0, 1⟩, ⟨12, 12, .w1c, 1, 0, 1⟩, ⟨11, 11, .ro, 1, 0, 1⟩, ⟨4, 0, .ro, 31, 0, 31⟩]⟩,
  -- LOOP.SUP_DETOUR_T
  ⟨0x808, 1, 0x4, 1, 0x4, true, 0x0, 40, 1048576, [⟨63, 0, .ro, 18446744073709551615, 0, 18446744073709551615⟩]⟩,
  -- LOOP.SUP_DETOUR_INFO
  ⟨0x810, 1, 0x4, 1, 0x4, false, 0x0, 40, 1048576, [⟨31, 16, .ro, 65535, 0, 65535⟩, ⟨10, 0, .ro, 2047, 0, 2047⟩]⟩,
  -- LOOP.SUP_MISMATCHES
  ⟨0x814, 1, 0x4, 1, 0x4, false, 0x0, 40, 1048576, [⟨31, 0, .ro, 4294967295, 0, 4294967295⟩]⟩,
  -- LOOP.SUP_CMD
  ⟨0x818, 1, 0x4, 1, 0x4, false, 0x0, 40, 1048576, [⟨8, 8, .cmd, 1, 0, 1⟩, ⟨2, 0, .cmd, 7, 0, 3⟩]⟩,
  -- LOOP.SUP_RETURN_AT
  ⟨0x820, 1, 0x4, 1, 0x4, true, 0x0, 40, 1048576, [⟨63, 0, .rw, 18446744073709551615, 0, 18446744073709551615⟩]⟩]

/-- The registers of block 0x1b (spec rule R178). -/
def loopTraceRegs : List RegD := [
  -- LOOP.TRC_CFG
  ⟨0x100, 4, 0x40, 1, 0x4, false, 0x100, 0, 1, [⟨27, 16, .stg, 4095, 0, 4095⟩, ⟨15, 8, .stg, 255, 1, 255⟩, ⟨5, 4, .stg, 2, 0, 3⟩, ⟨1, 0, .stg, 2, 0, 3⟩]⟩,
  -- LOOP.TRC_NODES
  ⟨0x104, 4, 0x40, 1, 0x4, false, 0x0, 0, 1, [⟨29, 20, .stg, 895, 0, 1023⟩, ⟨19, 10, .stg, 895, 0, 1023⟩, ⟨9, 0, .stg, 895, 0, 1023⟩]⟩,
  -- LOOP.TRC_TRIG
  ⟨0x108, 4, 0x40, 1, 0x4, false, 0x0, 0, 1, [⟨26, 16, .stg, 2047, 0, 1535⟩, ⟨9, 8, .stg, 2, 0, 3⟩, ⟨0, 0, .stg, 1, 0, 1⟩]⟩,
  -- LOOP.TRC_LEVEL
  ⟨0x10C, 4, 0x40, 1, 0x4, false, 0x0, 0, 1, [⟨31, 0, .stg, 4294967295, 0, 4294967295⟩]⟩,
  -- LOOP.TRC_DRAM
  ⟨0x110, 4, 0x40, 1, 0x4, true, 0xC00001000000000, 0, 1, [⟨60, 56, .stg, 31, 12, 24⟩, ⟨39, 0, .stg, 1099511627775, 0, 1099511627775⟩]⟩,
  -- LOOP.TRC_CMD
  ⟨0x118, 4, 0x40, 1, 0x4, false, 0x0, 0, 1, [⟨2, 2, .cmd, 1, 0, 1⟩, ⟨1, 1, .cmd, 1, 0, 1⟩, ⟨0, 0, .cmd, 1, 0, 1⟩]⟩,
  -- LOOP.TRC_STATUS
  ⟨0x11C, 4, 0x40, 1, 0x4, false, 0x0, 0, 1, [⟨27, 16, .ro, 4095, 0, 4095⟩, ⟨15, 4, .ro, 4095, 0, 4095⟩, ⟨3, 3, .ro, 1, 0, 1⟩, ⟨2, 0, .ro, 7, 0, 7⟩]⟩,
  -- LOOP.TRC_TRIG_TIME
  ⟨0x120, 4, 0x40, 1, 0x4, true, 0x0, 0, 1, [⟨63, 0, .ro, 18446744073709551615, 0, 18446744073709551615⟩]⟩,
  -- LOOP.TRC_STREAM_SEQ
  ⟨0x128, 4, 0x40, 1, 0x4, false, 0x0, 0, 1, [⟨31, 0, .ro, 4294967295, 0, 4294967295⟩]⟩,
  -- LOOP.TRC_DROPS
  ⟨0x12C, 4, 0x40, 1, 0x4, false, 0x0, 0, 1, [⟨31, 0, .ro, 4294967295, 0, 4294967295⟩]⟩]

/-- The registers of block 0x20 (spec rule R208). -/
def pwmRegs : List RegD := [
  -- PWM.BANK_STATUS
  ⟨0x0, 1, 0x4, 1, 0x4, false, 0x0, 0, 1, [⟨0, 0, .ro, 1, 0, 1⟩]⟩,
  -- PWM.TRUE_CTRL
  ⟨0x10, 1, 0x4, 1, 0x4, false, 0x100, 0, 1, [⟨23, 8, .live, 65535, 0, 65535⟩, ⟨1, 0, .live, 1, 0, 3⟩]⟩,
  -- PWM.TRUE_STATUS
  ⟨0x14, 1, 0x4, 1, 0x4, false, 0x3F, 0, 1, [⟨31, 16, .ro, 65535, 0, 65535⟩, ⟨5, 0, .ro, 63, 0, 63⟩]⟩,
  -- PWM.TRUE_FAIL
  ⟨0x18, 1, 0x4, 1, 0x4, false, 0x0, 0, 1, [⟨31, 0, .ro, 4294967295, 0, 4294967295⟩]⟩,
  -- PWM.TRUE_LINE
  ⟨0x1C, 1, 0x4, 1, 0x4, false, 0x0, 0, 1, [⟨31, 0, .ro, 4294967295, 0, 4294967295⟩]⟩,
  -- PWM.TRUE_FLAG
  ⟨0x20, 1, 0x4, 1, 0x4, false, 0x0, 0, 1, [⟨0, 0, .w1c, 1, 0, 1⟩]⟩,
  -- PWM.SNAP_CMP
  ⟨0x100, 32, 0x4, 1, 0x4, false, 0x0, 0, 1, [⟨31, 0, .ro, 4294967295, 0, 4294967295⟩]⟩,
  -- PWM.TIM_CFG
  ⟨0x200, 16, 0x80, 1, 0x4, false, 0x0, 0, 1, [⟨31, 31, .stg, 1, 0, 1⟩, ⟨29, 24, .stg, 63, 0, 63⟩, ⟨21, 16, .stg, 63, 0, 63⟩, ⟨13, 12, .stg, 2, 0, 3⟩, ⟨8, 8, .stg, 1, 0, 1⟩, ⟨5, 4, .stg, 2, 0, 3⟩, ⟨1, 0, .stg, 1, 0, 3⟩]⟩,
  -- PWM.TIM_PER
  ⟨0x204, 16, 0x80, 1, 0x4, false, 0x3E8, 0, 1, [⟨31, 0, .stg, 4294967295, 0, 4294967295⟩]⟩,
  -- PWM.TIM_SCHED
  ⟨0x208, 16, 0x80, 1, 0x4, false, 0x2004, 0, 1, [⟨15, 8, .stg, 255, 0, 255⟩, ⟨7, 0, .stg, 255, 0, 255⟩]⟩,
  -- PWM.TIM_DT
  ⟨0x20C, 16, 0x80, 1, 0x4, false, 0x0, 0, 1, [⟨29, 16, .stg, 16383, 0, 16383⟩, ⟨13, 0, .stg, 16383, 0, 16383⟩]⟩,
  -- PWM.TIM_MINP
  ⟨0x210, 16, 0x80, 1, 0x4, false, 0x400040, 0, 1, [⟨31, 31, .stg, 1, 0, 1⟩, ⟨29, 16, .stg, 16383, 0, 16383⟩, ⟨15, 15, .stg, 1, 0, 1⟩, ⟨13, 0, .stg, 16383, 0, 16383⟩]⟩,
  -- PWM.TIM_CMP_A
  ⟨0x214, 16, 0x80, 1, 0x4, false, 0x0, 0, 1, [⟨31, 0, .stg, 4294967295, 0, 4294967295⟩]⟩,
  -- PWM.TIM_CMP_B
  ⟨0x218, 16, 0x80, 1, 0x4, false, 0x0, 0, 1, [⟨31, 0, .stg, 4294967295, 0, 4294967295⟩]⟩,
  -- PWM.TIM_OFS_A
  ⟨0x21C, 16, 0x80, 1, 0x4, false, 0x0, 0, 1, [⟨31, 0, .stg, 4294967295, 0, 4294967295⟩]⟩,
  -- PWM.TIM_OFS_B
  ⟨0x220, 16, 0x80, 1, 0x4, false, 0x0, 0, 1, [⟨31, 0, .stg, 4294967295, 0, 4294967295⟩]⟩,
  -- PWM.TIM_OUT_CFG
  ⟨0x224, 16, 0x80, 1, 0x4, false, 0x100010, 0, 1, [⟨23, 22, .stg, 2, 0, 3⟩, ⟨20, 20, .stg, 1, 0, 1⟩, ⟨19, 19, .stg, 1, 0, 1⟩, ⟨17, 16, .stg, 2, 0, 3⟩, ⟨7, 6, .stg, 2, 0, 3⟩, ⟨4, 4, .stg, 1, 0, 1⟩, ⟨3, 3, .stg, 1, 0, 1⟩, ⟨1, 0, .stg, 2, 0, 3⟩]⟩,
  -- PWM.TIM_LEVELS
  ⟨0x228, 16, 0x80, 1, 0x4, false, 0x30003, 0, 1, [⟨25, 24, .stg, 2, 0, 3⟩, ⟨21, 20, .stg, 2, 0, 3⟩, ⟨17, 16, .stg, 3, 0, 3⟩, ⟨9, 8, .stg, 2, 0, 3⟩, ⟨5, 4, .stg, 2, 0, 3⟩, ⟨1, 0, .stg, 3, 0, 3⟩]⟩,
  -- PWM.TIM_TRIP
  ⟨0x22C, 16, 0x80, 1, 0x4, false, 0x0, 0, 1, [⟨31, 31, .stg, 1, 0, 1⟩, ⟨28, 28, .stg, 1, 0, 1⟩, ⟨23, 16, .stg, 255, 0, 191⟩, ⟨15, 15, .stg, 1, 0, 1⟩, ⟨12, 12, .stg, 1, 0, 1⟩, ⟨7, 0, .stg, 255, 0, 191⟩]⟩,
  -- PWM.TIM_BLANK
  ⟨0x230, 16, 0x80, 1, 0x4, false, 0x0, 0, 1, [⟨15, 8, .stg, 255, 0, 255⟩, ⟨7, 0, .stg, 255, 0, 255⟩]⟩,
  -- PWM.TIM_EVT
  ⟨0x234, 16, 0x80, 1, 0x4, false, 0x0, 0, 1, [⟨31, 24, .stg, 255, 0, 255⟩, ⟨23, 16, .stg, 255, 0, 255⟩, ⟨15, 8, .stg, 255, 0, 255⟩, ⟨7, 0, .stg, 255, 0, 255⟩]⟩,
  -- PWM.TIM_INS
  ⟨0x238, 16, 0x80, 1, 0x4, false, 0x5000500, 0, 1, [⟨29, 16, .stg, 16383, 0, 16383⟩, ⟨13, 0, .stg, 16383, 0, 16383⟩]⟩,
  -- PWM.TIM_SYNC_OFS
  ⟨0x23C, 16, 0x80, 1, 0x4, false, 0x0, 0, 1, [⟨31, 0, .stg, 4294967295, 0, 4294967295⟩]⟩,
  -- PWM.TIM_ADJ
  ⟨0x240, 16, 0x80, 1, 0x4, false, 0x0, 0, 1, [⟨31, 0, .cmd, 4294967295, 0, 4294967295⟩]⟩,
  -- PWM.TIM_FORCE
  ⟨0x244, 16, 0x80, 1, 0x4, false, 0x0, 0, 1, [⟨16, 16, .cmd, 1, 0, 1⟩, ⟨10, 8, .cmd, 5, 0, 7⟩, ⟨2, 0, .cmd, 5, 0, 7⟩]⟩,
  -- PWM.TIM_FORCE_AT
  ⟨0x248, 16, 0x80, 1, 0x4, true, 0x0, 0, 1, [⟨63, 0, .rw, 18446744073709551615, 0, 18446744073709551615⟩]⟩,
  -- PWM.TIM_CLR
  ⟨0x250, 16, 0x80, 1, 0x4, false, 0x0, 0, 1, [⟨2, 2, .cmd, 1, 0, 1⟩, ⟨1, 1, .cmd, 1, 0, 1⟩]⟩,
  -- PWM.TIM_STATUS
  ⟨0x254, 16, 0x80, 1, 0x4, false, 0x0, 0, 1, [⟨31, 16, .ro, 65535, 0, 65535⟩, ⟨15, 15, .w1c, 1, 0, 1⟩, ⟨14, 14, .w1c, 1, 0, 1⟩, ⟨13, 13, .ro, 1, 0, 1⟩, ⟨12, 12, .w1c, 1, 0, 1⟩, ⟨11, 11, .ro, 1, 0, 1⟩, ⟨10, 10, .ro, 1, 0, 1⟩, ⟨9, 9, .ro, 1, 0, 1⟩, ⟨8, 8, .ro, 1, 0, 1⟩, ⟨1, 0, .ro, 3, 0, 3⟩]⟩,
  -- PWM.TIM_LANDED_A
  ⟨0x258, 16, 0x80, 1, 0x4, false, 0x0, 0, 1, [⟨31, 16, .ro, 65535, 0, 65535⟩, ⟨2, 0, .ro, 7, 0, 7⟩]⟩,
  -- PWM.TIM_LANDED_B
  ⟨0x25C, 16, 0x80, 1, 0x4, false, 0x0, 0, 1, [⟨31, 16, .ro, 65535, 0, 65535⟩, ⟨2, 0, .ro, 7, 0, 7⟩]⟩,
  -- PWM.TIM_COUNTS_A
  ⟨0x260, 16, 0x80, 1, 0x4, false, 0x0, 0, 1, [⟨31, 16, .ro, 65535, 0, 65535⟩, ⟨15, 0, .ro, 65535, 0, 65535⟩]⟩,
  -- PWM.TIM_COUNTS_B
  ⟨0x264, 16, 0x80, 1, 0x4, false, 0x0, 0, 1, [⟨31, 16, .ro, 65535, 0, 65535⟩, ⟨15, 0, .ro, 65535, 0, 65535⟩]⟩,
  -- PWM.TIM_TRIPS
  ⟨0x268, 16, 0x80, 1, 0x4, false, 0x0, 0, 1, [⟨31, 16, .ro, 65535, 0, 65535⟩, ⟨15, 0, .ro, 65535, 0, 65535⟩]⟩,
  -- PWM.TIM_INSERTS
  ⟨0x26C, 16, 0x80, 1, 0x4, false, 0x0, 0, 1, [⟨31, 16, .ro, 65535, 0, 65535⟩, ⟨15, 0, .ro, 65535, 0, 65535⟩]⟩,
  -- PWM.TIM_NOW_A
  ⟨0x270, 16, 0x80, 1, 0x4, false, 0x0, 0, 1, [⟨31, 0, .ro, 4294967295, 0, 4294967295⟩]⟩,
  -- PWM.TIM_NOW_B
  ⟨0x274, 16, 0x80, 1, 0x4, false, 0x0, 0, 1, [⟨31, 0, .ro, 4294967295, 0, 4294967295⟩]⟩,
  -- PWM.TIM_BOUNDARY
  ⟨0x278, 16, 0x80, 1, 0x4, true, 0x0, 0, 1, [⟨63, 0, .ro, 18446744073709551615, 0, 18446744073709551615⟩]⟩]

/-- The registers of block 0x23 (spec rule R228). -/
def phaseRegs : List RegD := [
  -- PHASE.PH_PHASE_CMD
  ⟨0x20, 1, 0x4, 1, 0x4, false, 0x0, 0, 1, [⟨9, 9, .cmd, 1, 0, 1⟩, ⟨8, 8, .cmd, 1, 0, 1⟩, ⟨6, 0, .cmd, 127, 0, 95⟩]⟩,
  -- PHASE.PH_RAIL_CFG
  ⟨0x100, 8, 0x40, 1, 0x4, false, 0x1000, 0, 1, [⟨31, 31, .stg, 1, 0, 1⟩, ⟨20, 20, .stg, 1, 0, 1⟩, ⟨16, 16, .stg, 1, 0, 1⟩, ⟨12, 12, .stg, 1, 0, 1⟩]⟩,
  -- PHASE.PH_RAIL_OFS
  ⟨0x104, 8, 0x40, 1, 0x4, false, 0x0, 0, 1, [⟨31, 0, .stg, 4294967295, 0, 4294967295⟩]⟩,
  -- PHASE.PH_RAIL_RAMP
  ⟨0x108, 8, 0x40, 1, 0x4, false, 0x4000008, 0, 1, [⟨31, 16, .stg, 65535, 0, 65535⟩, ⟨7, 0, .stg, 255, 0, 255⟩]⟩,
  -- PHASE.PH_RAIL_TRIM
  ⟨0x10C, 8, 0x40, 1, 0x4, false, 0x0, 0, 1, [⟨30, 0, .stg, 2147483647, 0, 2147483647⟩]⟩,
  -- PHASE.PH_RAIL_ADD
  ⟨0x110, 8, 0x40, 1, 0x4, false, 0x1, 0, 1, [⟨31, 31, .stg, 1, 0, 1⟩, ⟨26, 16, .stg, 2047, 0, 1535⟩, ⟨6, 0, .stg, 127, 1, 96⟩]⟩,
  -- PHASE.PH_RAIL_CTRL
  ⟨0x114, 8, 0x40, 1, 0x4, false, 0x1, 0, 1, [⟨6, 0, .live, 127, 1, 96⟩]⟩,
  -- PHASE.PH_RAIL_CMD
  ⟨0x118, 8, 0x40, 1, 0x4, false, 0x0, 0, 1, [⟨0, 0, .cmd, 1, 0, 1⟩]⟩,
  -- PHASE.PH_RAIL_STATUS
  ⟨0x11C, 8, 0x40, 1, 0x4, false, 0x0, 0, 1, [⟨30, 24, .ro, 127, 0, 127⟩, ⟨22, 16, .ro, 127, 0, 127⟩, ⟨14, 8, .ro, 127, 0, 127⟩, ⟨7, 7, .w1c, 1, 0, 1⟩, ⟨6, 6, .w1c, 1, 0, 1⟩, ⟨5, 5, .ro, 1, 0, 1⟩, ⟨4, 4, .ro, 1, 0, 1⟩, ⟨2, 0, .ro, 7, 0, 7⟩]⟩,
  -- PHASE.PH_RAIL_VALUE
  ⟨0x120, 8, 0x40, 1, 0x4, false, 0x0, 0, 1, [⟨31, 0, .ro, 4294967295, 0, 4294967295⟩]⟩,
  -- PHASE.PH_RAIL_COUNTS
  ⟨0x124, 8, 0x40, 1, 0x4, false, 0x0, 0, 1, [⟨31, 16, .ro, 65535, 0, 65535⟩, ⟨15, 0, .ro, 65535, 0, 65535⟩]⟩,
  -- PHASE.PH_MAP
  ⟨0x1000, 96, 0x10, 1, 0x4, false, 0x0, 8, 1048576, [⟨30, 24, .stg, 127, 0, 127⟩, ⟨17, 16, .stg, 2, 0, 3⟩, ⟨2, 0, .stg, 7, 0, 7⟩]⟩,
  -- PHASE.PH_TRIM
  ⟨0x1004, 96, 0x10, 1, 0x4, false, 0x0, 0, 1, [⟨31, 0, .ro, 4294967295, 0, 4294967295⟩]⟩,
  -- PHASE.PH_POS
  ⟨0x1008, 96, 0x10, 1, 0x4, false, 0x0, 0, 1, [⟨31, 0, .ro, 4294967295, 0, 4294967295⟩]⟩,
  -- PHASE.PH_STATE
  ⟨0x100C, 96, 0x10, 1, 0x4, false, 0x0, 0, 1, [⟨31, 24, .ro, 255, 0, 255⟩, ⟨22, 16, .ro, 127, 0, 127⟩, ⟨3, 3, .ro, 1, 0, 1⟩, ⟨2, 0, .ro, 7, 0, 7⟩]⟩]

/-- The registers of block 0x24 (spec rule R229). -/
def witnessRegs : List RegD := [
  -- WITNESS.WIT_BANK_STATUS
  ⟨0x0, 1, 0x4, 1, 0x4, false, 0x0, 0, 1, [⟨2, 0, .ro, 7, 0, 7⟩]⟩,
  -- WITNESS.DET_LAST_T
  ⟨0x10, 1, 0x4, 1, 0x4, true, 0x0, 96, 1, [⟨63, 0, .ro, 18446744073709551615, 0, 18446744073709551615⟩]⟩,
  -- WITNESS.DET_LAST_INFO
  ⟨0x18, 1, 0x4, 1, 0x4, false, 0x0, 96, 1, [⟨31, 16, .ro, 65535, 0, 65535⟩, ⟨13, 8, .ro, 63, 0, 63⟩, ⟨5, 0, .ro, 63, 0, 63⟩]⟩,
  -- WITNESS.DET_CMD
  ⟨0x20, 1, 0x4, 1, 0x4, false, 0x0, 96, 1, [⟨31, 31, .cmd, 1, 0, 1⟩, ⟨5, 0, .cmd, 63, 0, 47⟩]⟩,
  -- WITNESS.DET_RETURN_AT
  ⟨0x28, 1, 0x4, 1, 0x4, true, 0x0, 96, 1, [⟨63, 0, .rw, 18446744073709551615, 0, 18446744073709551615⟩]⟩,
  -- WITNESS.DET_CFG
  ⟨0x400, 48, 0x10, 1, 0x4, false, 0x0, 96, 1, [⟨31, 31, .stg, 1, 0, 1⟩, ⟨21, 16, .stg, 63, 0, 47⟩]⟩,
  -- WITNESS.DET_STATUS
  ⟨0x404, 48, 0x10, 1, 0x4, false, 0x0, 96, 1, [⟨21, 16, .ro, 63, 0, 63⟩, ⟨8, 8, .w1c, 1, 0, 1⟩, ⟨2, 0, .ro, 7, 0, 7⟩]⟩,
  -- WITNESS.DET_COUNT
  ⟨0x408, 48, 0x10, 1, 0x4, false, 0x0, 96, 1, [⟨15, 0, .ro, 65535, 0, 65535⟩]⟩,
  -- WITNESS.WIT_CFG
  ⟨0x1000, 96, 0x20, 1, 0x4, false, 0x640100, 0, 1, [⟨31, 16, .stg, 65535, 100, 10000⟩, ⟨12, 8, .stg, 31, 1, 16⟩, ⟨5, 4, .stg, 2, 0, 3⟩, ⟨0, 0, .stg, 1, 0, 1⟩]⟩,
  -- WITNESS.WIT_STATUS
  ⟨0x1004, 96, 0x20, 1, 0x4, false, 0x0, 0, 1, [⟨20, 16, .ro, 31, 0, 31⟩, ⟨10, 10, .w1c, 1, 0, 1⟩, ⟨9, 9, .w1c, 1, 0, 1⟩, ⟨8, 8, .w1c, 1, 0, 1⟩, ⟨1, 1, .ro, 1, 0, 1⟩, ⟨0, 0, .ro, 1, 0, 1⟩]⟩,
  -- WITNESS.WIT_LAST
  ⟨0x1008, 96, 0x20, 1, 0x4, true, 0x0, 0, 1, [⟨63, 0, .ro, 18446744073709551615, 0, 18446744073709551615⟩]⟩,
  -- WITNESS.WIT_ERR
  ⟨0x1010, 96, 0x20, 1, 0x4, false, 0x0, 0, 1, [⟨31, 16, .ro, 65535, 0, 65535⟩, ⟨15, 0, .ro, 65535, 0, 65535⟩]⟩,
  -- WITNESS.WIT_COUNT
  ⟨0x1014, 96, 0x20, 1, 0x4, false, 0x0, 0, 1, [⟨31, 16, .ro, 65535, 0, 65535⟩, ⟨15, 0, .ro, 65535, 0, 65535⟩]⟩,
  -- WITNESS.WIT_CMD
  ⟨0x1018, 96, 0x20, 1, 0x4, false, 0x0, 0, 1, [⟨1, 1, .cmd, 1, 0, 1⟩, ⟨0, 0, .cmd, 1, 0, 1⟩]⟩]

/-- The registers of block 0x30 (spec rule R250). -/
def coresRegs : List RegD := [
  -- CORES.PAIR_CFG
  ⟨0x100, 2, 0x20, 1, 0x4, false, 0x0, 0, 1, [⟨1, 0, .stg, 2, 0, 3⟩]⟩,
  -- CORES.ENTRY_P
  ⟨0x104, 2, 0x20, 1, 0x4, false, 0x0, 0, 1, [⟨31, 0, .stg, 4294967295, 0, 4294967295⟩]⟩,
  -- CORES.ENTRY_S
  ⟨0x108, 2, 0x20, 1, 0x4, false, 0x0, 0, 1, [⟨31, 0, .stg, 4294967295, 0, 4294967295⟩]⟩,
  -- CORES.CORE_STATUS
  ⟨0x200, 4, 0x10, 1, 0x4, false, 0x0, 0, 1, [⟨10, 8, .ro, 7, 0, 7⟩, ⟨5, 4, .ro, 3, 0, 3⟩, ⟨1, 1, .ro, 1, 0, 1⟩, ⟨0, 0, .ro, 1, 0, 1⟩]⟩,
  -- CORES.CORE_PC
  ⟨0x204, 4, 0x10, 1, 0x4, false, 0x0, 0, 1, [⟨31, 0, .ro, 4294967295, 0, 4294967295⟩]⟩]

/-- The registers of block 0x28 (spec rule R341). -/
def roundRegs : List RegD := [
  -- ROUND.RING_CTRL
  ⟨0x0, 1, 0x4, 1, 0x4, false, 0x120, 0, 1, [⟨8, 8, .live, 1, 0, 1⟩, ⟨6, 0, .stop, 127, 0, 64⟩]⟩,
  -- ROUND.RING_STATUS
  ⟨0x4, 1, 0x4, 1, 0x4, false, 0x0, 0, 1, [⟨21, 16, .ro, 63, 0, 63⟩, ⟨13, 8, .ro, 63, 0, 63⟩, ⟨2, 2, .w1c, 1, 0, 1⟩, ⟨1, 1, .ro, 1, 0, 1⟩, ⟨0, 0, .ro, 1, 0, 1⟩]⟩,
  -- ROUND.RING_WAITERS
  ⟨0x8, 1, 0x4, 1, 0x4, false, 0x0, 0, 1, [⟨31, 0, .ro, 4294967295, 0, 4294967295⟩]⟩,
  -- ROUND.POOL_STATUS
  ⟨0x10, 1, 0x4, 1, 0x4, false, 0x400, 0, 1, [⟨26, 16, .ro, 2047, 0, 2047⟩, ⟨10, 0, .ro, 2047, 0, 2047⟩]⟩,
  -- ROUND.S
  ⟨0x100, 32, 0x4, 1, 0x4, false, 0x0, 0, 1, [⟨31, 0, .rw, 4294967295, 0, 4294967295⟩]⟩,
  -- ROUND.CH_CFG
  ⟨0x400, 64, 0x10, 1, 0x4, false, 0x0, 32, 1048576, [⟨31, 31, .stg, 1, 0, 1⟩, ⟨28, 28, .stg, 1, 0, 1⟩, ⟨25, 21, .stg, 31, 0, 31⟩, ⟨20, 16, .stg, 31, 0, 31⟩, ⟨10, 0, .stg, 2047, 0, 2047⟩]⟩,
  -- ROUND.CH_STATUS
  ⟨0x404, 64, 0x10, 1, 0x4, false, 0x0, 0, 1, [⟨26, 16, .ro, 2047, 0, 2047⟩, ⟨10, 0, .ro, 2047, 0, 2047⟩]⟩,
  -- ROUND.CH_COUNT
  ⟨0x408, 64, 0x10, 1, 0x4, false, 0x0, 0, 1, [⟨31, 0, .ro, 4294967295, 0, 4294967295⟩]⟩,
  -- ROUND.THR_CFG
  ⟨0x1000, 32, 0x80, 1, 0x4, false, 0x0, 0, 1, [⟨8, 8, .stg, 1, 0, 1⟩, ⟨1, 0, .stg, 1, 0, 3⟩]⟩,
  -- ROUND.THR_START
  ⟨0x1004, 32, 0x80, 1, 0x4, false, 0x20000000, 0, 1, [⟨31, 0, .stg, 4294967295, 0, 4294967295⟩]⟩,
  -- ROUND.THR_SCHED
  ⟨0x1008, 32, 0x80, 1, 0x4, false, 0x2004, 0, 1, [⟨15, 8, .stg, 255, 0, 255⟩, ⟨7, 0, .stg, 255, 0, 255⟩]⟩,
  -- ROUND.THR_CMD
  ⟨0x100C, 32, 0x80, 1, 0x4, false, 0x0, 0, 1, [⟨4, 4, .cmd, 1, 0, 1⟩, ⟨3, 3, .cmd, 1, 0, 1⟩, ⟨2, 2, .cmd, 1, 0, 1⟩, ⟨1, 1, .cmd, 1, 0, 1⟩, ⟨0, 0, .cmd, 1, 0, 1⟩]⟩,
  -- ROUND.THR_STATUS
  ⟨0x1010, 32, 0x80, 1, 0x4, false, 0x0, 0, 1, [⟨23, 20, .ro, 15, 0, 15⟩, ⟨19, 16, .ro, 15, 0, 15⟩, ⟨12, 12, .ro, 1, 0, 1⟩, ⟨11, 11, .ro, 1, 0, 1⟩, ⟨10, 10, .w1c, 1, 0, 1⟩, ⟨9, 9, .w1c, 1, 0, 1⟩, ⟨8, 8, .w1c, 1, 0, 1⟩, ⟨2, 0, .ro, 7, 0, 7⟩]⟩,
  -- ROUND.THR_PC
  ⟨0x1014, 32, 0x80, 1, 0x4, false, 0x0, 0, 1, [⟨31, 0, .stop, 4294967295, 0, 4294967295⟩]⟩,
  -- ROUND.THR_TT
  ⟨0x1018, 32, 0x80, 1, 0x4, true, 0x0, 0, 1, [⟨63, 0, .stop, 18446744073709551615, 0, 18446744073709551615⟩]⟩,
  -- ROUND.THR_EVPEND
  ⟨0x1020, 32, 0x80, 1, 0x4, false, 0x0, 0, 1, [⟨7, 0, .ro, 255, 0, 255⟩]⟩,
  -- ROUND.THR_ACTQ
  ⟨0x1024, 32, 0x80, 1, 0x4, false, 0x0, 0, 1, [⟨3, 0, .ro, 15, 0, 15⟩]⟩,
  -- ROUND.THR_FAULT_ADDR
  ⟨0x1028, 32, 0x80, 1, 0x4, false, 0x0, 0, 1, [⟨31, 0, .ro, 4294967295, 0, 4294967295⟩]⟩,
  -- ROUND.THR_RETIRED
  ⟨0x102C, 32, 0x80, 1, 0x4, false, 0x0, 0, 1, [⟨31, 0, .ro, 4294967295, 0, 4294967295⟩]⟩,
  -- ROUND.THR_PLATE
  ⟨0x1030, 32, 0x80, 1, 0x4, false, 0x0, 0, 1, [⟨31, 0, .ro, 4294967295, 0, 4294967295⟩]⟩,
  -- ROUND.THR_T
  ⟨0x1040, 32, 0x80, 16, 0x4, false, 0x0, 0, 1, [⟨31, 0, .stop, 4294967295, 0, 4294967295⟩]⟩]

/-- The registers of block 0x2c (spec rule R362). -/
def pengRegs : List RegD := [
  -- PENG.BANK_STATUS
  ⟨0x0, 1, 0x4, 1, 0x4, false, 0x0, 0, 1048576, [⟨4, 0, .ro, 31, 0, 31⟩]⟩,
  -- PENG.GSTART_MASK_LO
  ⟨0x10, 1, 0x4, 1, 0x4, false, 0x0, 0, 1048576, [⟨31, 0, .rw, 4294967295, 0, 4294967295⟩]⟩,
  -- PENG.GSTART_MASK_HI
  ⟨0x14, 1, 0x4, 1, 0x4, false, 0x0, 0, 1048576, [⟨7, 0, .rw, 255, 0, 255⟩]⟩,
  -- PENG.GSTART_AT
  ⟨0x18, 1, 0x4, 1, 0x4, true, 0x0, 0, 1048576, [⟨63, 0, .rw, 18446744073709551615, 0, 18446744073709551615⟩]⟩,
  -- PENG.GSTART_CMD
  ⟨0x20, 1, 0x4, 1, 0x4, false, 0x0, 0, 1048576, [⟨31, 31, .cmd, 1, 0, 1⟩, ⟨0, 0, .cmd, 1, 0, 1⟩]⟩,
  -- PENG.GFLAGS
  ⟨0x30, 2, 0x4, 1, 0x4, false, 0x0, 0, 1048576, [⟨31, 0, .ro, 4294967295, 0, 4294967295⟩]⟩,
  -- PENG.ENG_CLK
  ⟨0x100, 40, 0x40, 1, 0x4, false, 0x200, 0, 1048576, [⟨23, 8, .stop, 65535, 2, 65535⟩, ⟨7, 0, .stop, 255, 0, 255⟩]⟩,
  -- PENG.ENG_SLOTS_LO
  ⟨0x104, 40, 0x40, 1, 0x4, false, 0xFFFFFFFF, 0, 1048576, [⟨31, 24, .stop, 255, 0, 255⟩, ⟨23, 16, .stop, 255, 0, 255⟩, ⟨15, 8, .stop, 255, 0, 255⟩, ⟨7, 0, .stop, 255, 0, 255⟩]⟩,
  -- PENG.ENG_SLOTS_HI
  ⟨0x108, 40, 0x40, 1, 0x4, false, 0xFFFFFFFF, 0, 1048576, [⟨31, 24, .stop, 255, 0, 255⟩, ⟨23, 16, .stop, 255, 0, 255⟩, ⟨15, 8, .stop, 255, 0, 255⟩, ⟨7, 0, .stop, 255, 0, 255⟩]⟩,
  -- PENG.ENG_CTRL
  ⟨0x10C, 40, 0x40, 1, 0x4, false, 0x0, 0, 1048576, [⟨25, 24, .stop, 3, 0, 3⟩, ⟨18, 16, .stop, 7, 0, 7⟩, ⟨12, 8, .stop, 31, 0, 31⟩, ⟨1, 1, .stop, 1, 0, 1⟩, ⟨0, 0, .stop, 1, 0, 1⟩]⟩,
  -- PENG.ENG_OWNER
  ⟨0x110, 40, 0x40, 1, 0x4, false, 0x0, 0, 1048576, [⟨16, 16, .stop, 1, 0, 1⟩, ⟨15, 0, .stop, 65535, 512, 575⟩]⟩,
  -- PENG.ENG_CMD
  ⟨0x114, 40, 0x40, 1, 0x4, false, 0x0, 0, 1048576, [⟨8, 8, .cmd, 1, 0, 1⟩, ⟨2, 0, .cmd, 5, 0, 7⟩]⟩,
  -- PENG.ENG_CMD_AT
  ⟨0x118, 40, 0x40, 1, 0x4, true, 0x0, 0, 1048576, [⟨63, 0, .rw, 18446744073709551615, 0, 18446744073709551615⟩]⟩,
  -- PENG.ENG_STATUS
  ⟨0x120, 40, 0x40, 1, 0x4, false, 0x0, 0, 1048576, [⟨28, 24, .ro, 31, 0, 31⟩, ⟨20, 20, .ro, 1, 0, 1⟩, ⟨19, 16, .ro, 15, 0, 15⟩, ⟨15, 12, .ro, 15, 0, 15⟩, ⟨11, 8, .ro, 15, 0, 15⟩, ⟨7, 4, .ro, 15, 0, 15⟩, ⟨2, 0, .ro, 7, 0, 7⟩]⟩,
  -- PENG.ENG_FLAGS
  ⟨0x124, 40, 0x40, 1, 0x4, false, 0x0, 0, 1048576, [⟨12, 12, .w1c, 1, 0, 1⟩, ⟨11, 11, .w1c, 1, 0, 1⟩, ⟨10, 10, .w1c, 1, 0, 1⟩, ⟨9, 9, .w1c, 1, 0, 1⟩, ⟨8, 8, .w1c, 1, 0, 1⟩]⟩,
  -- PENG.ENG_K
  ⟨0x128, 40, 0x40, 1, 0x4, false, 0x0, 0, 1048576, [⟨31, 16, .stop, 65535, 0, 65535⟩, ⟨15, 0, .stop, 65535, 0, 65535⟩]⟩,
  -- PENG.ENG_PSTATE
  ⟨0x12C, 40, 0x40, 1, 0x4, false, 0x0, 0, 1048576, [⟨29, 24, .stop, 63, 0, 32⟩, ⟨15, 8, .stop, 255, 0, 255⟩, ⟨7, 0, .stop, 255, 0, 255⟩]⟩,
  -- PENG.ENG_CR
  ⟨0x130, 40, 0x40, 1, 0x4, false, 0x0, 0, 1048576, [⟨31, 0, .stop, 4294967295, 0, 4294967295⟩]⟩,
  -- PENG.ENG_SR
  ⟨0x134, 40, 0x40, 1, 0x4, false, 0x0, 0, 1048576, [⟨31, 0, .stop, 4294967295, 0, 4294967295⟩]⟩,
  -- PENG.ENG_ET
  ⟨0x138, 40, 0x40, 1, 0x4, true, 0x0, 0, 1048576, [⟨63, 0, .ro, 18446744073709551615, 0, 18446744073709551615⟩]⟩,
  -- PENG.ENG_PROG
  ⟨0x2000, 1280, 0x4, 1, 0x4, false, 0x0, 0, 1048576, [⟨15, 0, .stop, 65535, 0, 65535⟩]⟩]

/-- The registers of block 0x2d (spec rule R363). -/
def pinmuxRegs : List RegD := [
  -- PINMUX.BANK_VIO
  ⟨0x0, 1, 0x4, 1, 0x4, false, 0x0, 0, 32, [⟨9, 0, .ro, 1023, 0, 1023⟩]⟩,
  -- PINMUX.PIN_IN
  ⟨0x40, 5, 0x4, 1, 0x4, false, 0x0, 0, 32, [⟨31, 0, .ro, 4294967295, 0, 4294967295⟩]⟩,
  -- PINMUX.PIN_INTF
  ⟨0x60, 5, 0x4, 1, 0x4, false, 0x0, 0, 32, [⟨31, 0, .w1c, 4294967295, 0, 4294967295⟩]⟩,
  -- PINMUX.PIN_CFG
  ⟨0x1000, 160, 0x4, 1, 0x4, false, 0x100C040, 0, 32, [⟨31, 22, .stg, 1023, 4, 1000⟩, ⟨21, 19, .stg, 4, 0, 7⟩, ⟨18, 16, .stg, 5, 0, 7⟩, ⟨15, 14, .stg, 3, 0, 3⟩, ⟨13, 12, .stg, 3, 0, 3⟩, ⟨11, 11, .stg, 1, 0, 1⟩, ⟨10, 10, .stg, 1, 0, 1⟩, ⟨9, 9, .stg, 1, 0, 1⟩, ⟨7, 6, .stg, 3, 0, 3⟩, ⟨5, 4, .stg, 3, 0, 3⟩]⟩,
  -- PINMUX.PIN_OWN
  ⟨0x1400, 160, 0x4, 1, 0x4, false, 0x0, 0, 32, [⟨26, 24, .live, 5, 0, 7⟩, ⟨21, 16, .live, 63, 0, 63⟩, ⟨15, 0, .live, 65535, 0, 65535⟩]⟩,
  -- PINMUX.PIN_SOFT
  ⟨0x1800, 160, 0x4, 1, 0x4, false, 0x3, 0, 32, [⟨1, 0, .live, 3, 0, 3⟩]⟩]

/-- The registers of block 0xa (spec rule R390). -/
def memctlRegs : List RegD := [
  -- MEMCTL.SRAM_STATUS
  ⟨0x0, 1, 0x4, 1, 0x4, false, 0x0, 0, 1048576, [⟨7, 0, .ro, 255, 0, 255⟩]⟩,
  -- MEMCTL.DRAM_CFG
  ⟨0x10, 1, 0x4, 1, 0x4, false, 0x0, 0, 1048576, [⟨8, 8, .stop, 1, 0, 1⟩, ⟨6, 4, .stop, 4, 0, 7⟩, ⟨2, 0, .stop, 4, 0, 7⟩]⟩,
  -- MEMCTL.DRAM_CTRL
  ⟨0x14, 1, 0x4, 1, 0x4, false, 0x0, 0, 1048576, [⟨1, 1, .cmd, 1, 0, 1⟩, ⟨0, 0, .cmd, 1, 0, 1⟩]⟩,
  -- MEMCTL.DRAM_STATUS
  ⟨0x18, 1, 0x4, 1, 0x4, false, 0x0, 0, 1048576, [⟨31, 16, .ro, 65535, 0, 65535⟩, ⟨6, 4, .ro, 7, 0, 7⟩, ⟨2, 0, .ro, 7, 0, 7⟩]⟩,
  -- MEMCTL.WIN
  ⟨0x20, 4, 0x4, 1, 0x4, false, 0x0, 0, 1048576, [⟨5, 0, .live, 63, 0, 63⟩]⟩,
  -- MEMCTL.DRAM_ARB
  ⟨0x30, 1, 0x4, 1, 0x4, false, 0x444, 0, 1048576, [⟨11, 8, .live, 15, 0, 15⟩, ⟨7, 4, .live, 15, 0, 15⟩, ⟨3, 0, .live, 15, 0, 15⟩]⟩,
  -- MEMCTL.ERR_STATUS
  ⟨0x40, 1, 0x4, 1, 0x4, false, 0x0, 0, 1048576, [⟨31, 16, .ro, 65535, 0, 65535⟩, ⟨6, 0, .ro, 127, 0, 127⟩]⟩,
  -- MEMCTL.ERR_POP
  ⟨0x44, 1, 0x4, 1, 0x4, false, 0x0, 0, 1048576, [⟨0, 0, .cmd, 1, 0, 1⟩]⟩,
  -- MEMCTL.ERR_ENTRY
  ⟨0x48, 4, 0x4, 1, 0x4, false, 0x0, 0, 1048576, [⟨31, 0, .ro, 4294967295, 0, 4294967295⟩]⟩,
  -- MEMCTL.ECC_COUNTS
  ⟨0x60, 1, 0x4, 1, 0x4, false, 0x0, 0, 1048576, [⟨31, 16, .ro, 65535, 0, 65535⟩, ⟨15, 0, .ro, 65535, 0, 65535⟩]⟩,
  -- MEMCTL.CE_LIMIT
  ⟨0x64, 1, 0x4, 1, 0x4, false, 0x0, 0, 1048576, [⟨15, 0, .live, 65535, 0, 65535⟩]⟩,
  -- MEMCTL.MEM_CLR
  ⟨0x68, 1, 0x4, 1, 0x4, false, 0x0, 0, 1048576, [⟨0, 0, .cmd, 1, 0, 1⟩]⟩,
  -- MEMCTL.ECC_FLIP
  ⟨0x70, 1, 0x4, 1, 0x4, false, 0x0, 0, 1048576, [⟨31, 31, .live, 1, 0, 1⟩, ⟨26, 24, .live, 7, 0, 7⟩, ⟨23, 16, .live, 255, 0, 255⟩, ⟨15, 8, .live, 255, 0, 255⟩, ⟨7, 0, .live, 255, 0, 255⟩]⟩,
  -- MEMCTL.ECC_FLIP_STATUS
  ⟨0x74, 1, 0x4, 1, 0x4, true, 0x0, 0, 1048576, [⟨39, 0, .ro, 1099511627775, 0, 1099511627775⟩]⟩,
  -- MEMCTL.RETIRE
  ⟨0x400, 128, 0x4, 1, 0x4, false, 0x0, 0, 1048576, [⟨31, 31, .live, 1, 0, 1⟩, ⟨7, 0, .live, 255, 0, 255⟩]⟩]

/-- The registers of block 0xb (spec rule R391). -/
def scrubRegs : List RegD := [
  -- SCRUB.SCRUB_CTRL
  ⟨0x0, 1, 0x4, 1, 0x4, false, 0x1, 0, 1048576, [⟨1, 0, .live, 1, 0, 3⟩]⟩,
  -- SCRUB.SCRUB_STATUS
  ⟨0x4, 1, 0x4, 1, 0x4, false, 0x0, 0, 1048576, [⟨31, 16, .ro, 65535, 0, 65535⟩, ⟨3, 2, .ro, 3, 0, 3⟩, ⟨1, 1, .w1c, 1, 0, 1⟩, ⟨0, 0, .ro, 1, 0, 1⟩]⟩,
  -- SCRUB.PASS_BASE
  ⟨0x10, 1, 0x4, 1, 0x4, true, 0x0, 0, 1048576, [⟨39, 0, .rw, 1099511627775, 0, 1099511627775⟩]⟩,
  -- SCRUB.PASS_LEN
  ⟨0x18, 1, 0x4, 1, 0x4, false, 0x0, 0, 1048576, [⟨31, 0, .rw, 4294967295, 0, 4294967295⟩]⟩,
  -- SCRUB.PASS_CFG
  ⟨0x1C, 1, 0x4, 1, 0x4, false, 0x3C0, 0, 1048576, [⟨15, 0, .rw, 65535, 0, 65535⟩]⟩,
  -- SCRUB.PASS_CMD
  ⟨0x20, 1, 0x4, 1, 0x4, false, 0x0, 0, 1048576, [⟨1, 1, .cmd, 1, 0, 1⟩, ⟨0, 0, .cmd, 1, 0, 1⟩]⟩,
  -- SCRUB.SUM_BYTES
  ⟨0x30, 1, 0x4, 1, 0x4, false, 0x0, 0, 1048576, [⟨31, 0, .ro, 4294967295, 0, 4294967295⟩]⟩,
  -- SCRUB.SUM_NS
  ⟨0x34, 1, 0x4, 1, 0x4, false, 0x0, 0, 1048576, [⟨31, 0, .ro, 4294967295, 0, 4294967295⟩]⟩,
  -- SCRUB.SUM_ERRS
  ⟨0x38, 1, 0x4, 1, 0x4, false, 0x0, 0, 1048576, [⟨31, 16, .ro, 65535, 0, 65535⟩, ⟨15, 0, .ro, 65535, 0, 65535⟩]⟩,
  -- SCRUB.SUM_FIRST_UE
  ⟨0x40, 1, 0x4, 1, 0x4, true, 0x0, 0, 1048576, [⟨63, 63, .ro, 1, 0, 1⟩, ⟨39, 0, .ro, 1099511627775, 0, 1099511627775⟩]⟩,
  -- SCRUB.LAP_US
  ⟨0x50, 1, 0x4, 1, 0x4, false, 0x0, 0, 1048576, [⟨31, 0, .ro, 4294967295, 0, 4294967295⟩]⟩]

/-- The registers of block 0xc (spec rule R392). -/
def dmaRegs : List RegD := [
  -- DMA.DMA_STATUS
  ⟨0x0, 1, 0x4, 1, 0x4, false, 0x0, 0, 1, [⟨15, 0, .ro, 65535, 0, 65535⟩]⟩,
  -- DMA.CH_CFG
  ⟨0x100, 16, 0x40, 1, 0x4, false, 0x0, 0, 1, [⟨31, 31, .stg, 1, 0, 1⟩, ⟨26, 16, .stg, 2047, 0, 1535⟩, ⟨1, 0, .stg, 3, 0, 3⟩]⟩,
  -- DMA.CH_CPL
  ⟨0x104, 16, 0x40, 1, 0x4, true, 0x0, 0, 1, [⟨59, 56, .stg, 15, 0, 8⟩, ⟨39, 0, .stg, 1099511627775, 0, 1099511627775⟩]⟩,
  -- DMA.CH_DESC
  ⟨0x110, 16, 0x40, 1, 0x4, true, 0x0, 0, 1, [⟨39, 0, .rw, 1099511627775, 0, 1099511627775⟩]⟩,
  -- DMA.CH_CTRL
  ⟨0x118, 16, 0x40, 1, 0x4, false, 0x0, 0, 1, [⟨3, 3, .cmd, 1, 0, 1⟩, ⟨2, 2, .cmd, 1, 0, 1⟩, ⟨1, 1, .cmd, 1, 0, 1⟩, ⟨0, 0, .cmd, 1, 0, 1⟩]⟩,
  -- DMA.CH_STATUS
  ⟨0x11C, 16, 0x40, 1, 0x4, false, 0x0, 0, 1, [⟨31, 16, .ro, 65535, 0, 65535⟩, ⟨15, 12, .ro, 15, 0, 15⟩, ⟨11, 11, .ro, 1, 0, 1⟩, ⟨10, 8, .ro, 7, 0, 7⟩, ⟨2, 0, .ro, 7, 0, 7⟩]⟩,
  -- DMA.CH_CUR
  ⟨0x120, 16, 0x40, 1, 0x4, true, 0x0, 0, 1, [⟨39, 0, .ro, 1099511627775, 0, 1099511627775⟩]⟩,
  -- DMA.CH_DONE
  ⟨0x128, 16, 0x40, 1, 0x4, false, 0x0, 0, 1, [⟨31, 0, .ro, 4294967295, 0, 4294967295⟩]⟩,
  -- DMA.CH_SEQ
  ⟨0x12C, 16, 0x40, 1, 0x4, false, 0x0, 0, 1, [⟨31, 0, .ro, 4294967295, 0, 4294967295⟩]⟩,
  -- DMA.CH_FAULT
  ⟨0x130, 16, 0x40, 1, 0x4, true, 0x0, 0, 1, [⟨63, 63, .ro, 1, 0, 1⟩, ⟨39, 0, .ro, 1099511627775, 0, 1099511627775⟩]⟩,
  -- DMA.CH_FLAGS
  ⟨0x138, 16, 0x40, 1, 0x4, false, 0x0, 0, 1, [⟨3, 3, .w1c, 1, 0, 1⟩, ⟨2, 2, .w1c, 1, 0, 1⟩, ⟨1, 1, .w1c, 1, 0, 1⟩, ⟨0, 0, .w1c, 1, 0, 1⟩]⟩]

/-- The registers of block 0x6 (spec rule R423). -/
def junctionRegs : List RegD := [
  -- JUNCTION.SW_RAISE
  ⟨0x10, 1, 0x4, 1, 0x4, false, 0x0, 0, 64, [⟨26, 16, .cmd, 2047, 0, 2047⟩, ⟨15, 0, .cmd, 65535, 0, 65535⟩]⟩,
  -- JUNCTION.RAISED
  ⟨0x100, 48, 0x4, 1, 0x4, false, 0x0, 0, 64, [⟨31, 0, .w1c, 4294967295, 0, 4294967295⟩]⟩,
  -- JUNCTION.TIE_FWD
  ⟨0x200, 32, 0x4, 1, 0x4, false, 0x0, 24, 1048576, [⟨31, 31, .stg, 1, 0, 1⟩, ⟨10, 0, .stg, 2047, 0, 1407⟩]⟩,
  -- JUNCTION.ROUTE
  ⟨0x1000, 1536, 0x4, 1, 0x4, false, 0x0, 0, 64, [⟨31, 31, .stg, 1, 0, 1⟩, ⟨30, 28, .stg, 7, 0, 7⟩, ⟨27, 27, .stg, 1, 0, 1⟩, ⟨26, 24, .stg, 7, 0, 7⟩, ⟨23, 23, .stg, 1, 0, 1⟩, ⟨21, 16, .stg, 63, 0, 63⟩, ⟨15, 12, .stg, 15, 0, 15⟩, ⟨5, 0, .stg, 63, 0, 63⟩]⟩]

/-- The registers of block 0x7 (spec rule R424). -/
def hostRegs : List RegD := [
  -- HOST.LINK_STATUS
  ⟨0x0, 1, 0x4, 1, 0x4, false, 0x0, 0, 1048576, [⟨10, 8, .ro, 7, 0, 7⟩, ⟨7, 4, .ro, 15, 0, 15⟩, ⟨3, 3, .ro, 1, 0, 1⟩, ⟨1, 0, .ro, 3, 0, 3⟩]⟩,
  -- HOST.OUT_CTRL
  ⟨0x8, 1, 0x4, 1, 0x4, false, 0x0, 0, 1048576, [⟨0, 0, .live, 1, 0, 1⟩]⟩,
  -- HOST.OUT_BASE
  ⟨0x10, 1, 0x4, 1, 0x4, true, 0x0, 0, 1048576, [⟨63, 12, .live, 4503599627370495, 0, 4503599627370495⟩]⟩,
  -- HOST.BAR4_WIN
  ⟨0x18, 1, 0x4, 1, 0x4, true, 0x0, 0, 1048576, [⟨39, 24, .rw, 65535, 0, 65535⟩]⟩,
  -- HOST.DOORBELL
  ⟨0x20, 1, 0x4, 1, 0x4, false, 0x0, 0, 1048576, [⟨7, 0, .cmd, 255, 0, 255⟩]⟩,
  -- HOST.DROPPED
  ⟨0x24, 1, 0x4, 1, 0x4, false, 0x0, 0, 1048576, [⟨31, 0, .ro, 4294967295, 0, 4294967295⟩]⟩,
  -- HOST.QUEUE
  ⟨0x28, 1, 0x4, 1, 0x4, false, 0x0, 0, 1048576, [⟨31, 0, .ro, 4294967295, 0, 4294967295⟩]⟩,
  -- HOST.TEL_CTRL
  ⟨0x40, 1, 0x4, 1, 0x4, false, 0x3E8, 0, 1048576, [⟨31, 31, .stg, 1, 0, 1⟩, ⟨18, 16, .stg, 7, 0, 7⟩, ⟨15, 0, .stg, 65535, 10, 65535⟩]⟩,
  -- HOST.TEL_SCHED
  ⟨0x44, 1, 0x4, 1, 0x4, false, 0x2004, 0, 1048576, [⟨15, 8, .stg, 255, 0, 255⟩, ⟨7, 0, .stg, 255, 0, 255⟩]⟩,
  -- HOST.TEL_STATUS
  ⟨0x48, 1, 0x4, 1, 0x4, false, 0x0, 0, 1048576, [⟨31, 0, .ro, 4294967295, 0, 4294967295⟩]⟩,
  -- HOST.TEL_LIST
  ⟨0x100, 64, 0x4, 1, 0x4, false, 0x0, 0, 1048576, [⟨31, 31, .stg, 1, 0, 1⟩, ⟨23, 16, .stg, 255, 0, 255⟩, ⟨15, 0, .stg, 65535, 0, 65535⟩]⟩,
  -- HOST.RING_CTRL
  ⟨0x400, 8, 0x40, 1, 0x4, false, 0x106, 0, 1048576, [⟨31, 31, .live, 1, 0, 1⟩, ⟨13, 8, .live, 63, 0, 63⟩, ⟨4, 0, .stop, 31, 6, 16⟩]⟩,
  -- HOST.RING_BASE
  ⟨0x408, 8, 0x40, 1, 0x4, true, 0x0, 0, 1048576, [⟨63, 0, .stop, 18446744073709551615, 0, 18446744073709551615⟩]⟩,
  -- HOST.RING_HEAD
  ⟨0x410, 8, 0x40, 1, 0x4, false, 0x0, 0, 1048576, [⟨31, 0, .ro, 4294967295, 0, 4294967295⟩]⟩,
  -- HOST.RING_TAIL
  ⟨0x414, 8, 0x40, 1, 0x4, false, 0x0, 0, 1048576, [⟨31, 0, .rw, 4294967295, 0, 4294967295⟩]⟩,
  -- HOST.RING_IRQ
  ⟨0x418, 8, 0x40, 1, 0x4, false, 0x10001, 0, 1048576, [⟨31, 16, .live, 65535, 0, 65535⟩, ⟨15, 0, .live, 65535, 0, 65535⟩]⟩,
  -- HOST.RING_STATUS
  ⟨0x41C, 8, 0x40, 1, 0x4, false, 0x0, 0, 1048576, [⟨31, 0, .ro, 4294967295, 0, 4294967295⟩]⟩]

/-- The registers of block 0x8 (spec rule R425). -/
def tieRegs : List RegD := [
  -- TIE.TIE_CFG (reset: log entry 8)
  ⟨0x0, 1, 0x4, 1, 0x4, false, 0x2, 0, 1048576, [⟨31, 31, .stop, 1, 0, 1⟩, ⟨9, 8, .stop, 3, 0, 3⟩, ⟨5, 4, .stop, 3, 0, 3⟩, ⟨2, 0, .stop, 7, 2, 4⟩]⟩,
  -- TIE.TIE_STATUS
  ⟨0x4, 1, 0x4, 1, 0x4, false, 0x0, 0, 1048576, [⟨11, 8, .ro, 15, 0, 15⟩, ⟨5, 5, .ro, 1, 0, 1⟩, ⟨4, 4, .ro, 1, 0, 1⟩, ⟨3, 2, .ro, 3, 0, 3⟩, ⟨1, 0, .ro, 3, 0, 3⟩]⟩,
  -- TIE.TIE_ALIGN
  ⟨0x8, 1, 0x4, 1, 0x4, false, 0xA03E8, 0, 1048576, [⟨23, 16, .live, 255, 2, 255⟩, ⟨15, 0, .live, 65535, 250, 65535⟩]⟩,
  -- TIE.TIE_MEAS
  ⟨0xC, 1, 0x4, 1, 0x4, false, 0x0, 0, 1048576, [⟨31, 16, .ro, 65535, 0, 65535⟩, ⟨15, 0, .ro, 65535, 0, 65535⟩]⟩,
  -- TIE.TIE_COUNTS
  ⟨0x10, 1, 0x4, 1, 0x4, false, 0x0, 0, 1048576, [⟨31, 16, .ro, 65535, 0, 65535⟩, ⟨15, 0, .ro, 65535, 0, 65535⟩]⟩,
  -- TIE.RA_CTRL
  ⟨0x40, 1, 0x4, 1, 0x4, false, 0x0, 0, 1048576, [⟨31, 31, .cmd, 1, 0, 1⟩, ⟨4, 4, .cmd, 1, 0, 1⟩, ⟨1, 0, .cmd, 3, 0, 3⟩]⟩,
  -- TIE.RA_ADDR
  ⟨0x44, 1, 0x4, 1, 0x4, false, 0x0, 0, 1048576, [⟨31, 0, .rw, 4294967295, 0, 4294967295⟩]⟩,
  -- TIE.RA_DATA
  ⟨0x48, 1, 0x4, 1, 0x4, false, 0x0, 0, 1048576, [⟨31, 0, .rw, 4294967295, 0, 4294967295⟩]⟩,
  -- TIE.RA_STATUS
  ⟨0x4C, 1, 0x4, 1, 0x4, false, 0x0, 0, 1048576, [⟨11, 8, .ro, 15, 0, 15⟩, ⟨3, 3, .w1c, 1, 0, 1⟩, ⟨2, 1, .ro, 3, 0, 3⟩, ⟨0, 0, .ro, 1, 0, 1⟩]⟩,
  -- TIE.PLAN_T
  ⟨0x100, 16, 0x8, 1, 0x4, true, 0x0, 0, 1048576, [⟨63, 0, .stg, 18446744073709551615, 0, 18446744073709551615⟩]⟩,
  -- TIE.TIMER_PLAN
  ⟨0x200, 48, 0x8, 1, 0x4, false, 0x0, 0, 1048576, [⟨31, 31, .stg, 1, 0, 1⟩, ⟨3, 0, .stg, 15, 0, 15⟩]⟩,
  -- TIE.TIMER_OFS
  ⟨0x204, 48, 0x8, 1, 0x4, false, 0x0, 0, 1048576, [⟨31, 0, .stg, 4294967295, 0, 4294967295⟩]⟩]

/-- The registers of block 0x31 (spec rule R426). -/
def debugRegs : List RegD := [
  -- DEBUG.DBG_CTRL
  ⟨0x0, 1, 0x4, 1, 0x4, false, 0x0, 0, 1048576, [⟨0, 0, .live, 1, 0, 1⟩]⟩,
  -- DEBUG.DBG_ADDR
  ⟨0x8, 1, 0x4, 1, 0x4, true, 0x0, 0, 1048576, [⟨39, 0, .rw, 1099511627775, 0, 1099511627775⟩]⟩,
  -- DEBUG.DBG_DATA
  ⟨0x10, 1, 0x4, 1, 0x4, true, 0x0, 0, 1048576, [⟨63, 0, .rw, 18446744073709551615, 0, 18446744073709551615⟩]⟩,
  -- DEBUG.DBG_CMD
  ⟨0x18, 1, 0x4, 1, 0x4, false, 0x0, 0, 1048576, [⟨31, 31, .cmd, 1, 0, 1⟩, ⟨5, 4, .cmd, 3, 0, 3⟩, ⟨0, 0, .cmd, 1, 0, 1⟩]⟩,
  -- DEBUG.DBG_STATUS
  ⟨0x1C, 1, 0x4, 1, 0x4, false, 0x0, 0, 1048576, [⟨2, 2, .w1c, 1, 0, 1⟩, ⟨1, 1, .w1c, 1, 0, 1⟩, ⟨0, 0, .ro, 1, 0, 1⟩]⟩,
  -- DEBUG.DBG_CORE
  ⟨0x20, 1, 0x4, 1, 0x4, false, 0x0, 0, 1048576, [⟨5, 4, .cmd, 3, 0, 3⟩, ⟨2, 0, .cmd, 3, 0, 7⟩]⟩]

/-- The registers of block 0x5 (spec rule R452). -/
def protectRegs : List RegD := [
  -- PROTECT.CONS_PARTY
  ⟨0x8, 1, 0x4, 1, 0x4, false, 0xFFFFFFFF, 0, 1048576, [⟨31, 16, .stop, 65535, 0, 65535⟩, ⟨15, 0, .stop, 65535, 0, 65535⟩]⟩,
  -- PROTECT.CONS_WINDOW
  ⟨0xC, 1, 0x4, 1, 0x4, false, 0x3E8, 0, 1048576, [⟨15, 0, .stop, 65535, 10, 65535⟩]⟩,
  -- PROTECT.CONS_SEQ
  ⟨0x10, 1, 0x4, 1, 0x4, false, 0x0, 0, 1048576, [⟨31, 0, .ro, 4294967295, 0, 4294967295⟩]⟩,
  -- PROTECT.CONS_COUNT
  ⟨0x14, 1, 0x4, 1, 0x4, false, 0x0, 0, 1048576, [⟨4, 0, .rw, 31, 0, 31⟩]⟩,
  -- PROTECT.CONS_CMD
  ⟨0x18, 1, 0x4, 1, 0x4, false, 0x0, 0, 1048576, [⟨2, 2, .cmd, 1, 0, 1⟩, ⟨1, 1, .cmd, 1, 0, 1⟩, ⟨0, 0, .cmd, 1, 0, 1⟩]⟩,
  -- PROTECT.CONS_STATUS
  ⟨0x1C, 1, 0x4, 1, 0x4, false, 0x0, 0, 1048576, [⟨6, 4, .ro, 7, 0, 7⟩, ⟨0, 0, .ro, 1, 0, 1⟩]⟩,
  -- PROTECT.CONS_DIGEST
  ⟨0x40, 12, 0x4, 1, 0x4, false, 0x0, 0, 1048576, [⟨31, 0, .rw, 4294967295, 0, 4294967295⟩]⟩,
  -- PROTECT.CONS_TARGET
  ⟨0x100, 16, 0x8, 1, 0x4, false, 0x0, 0, 1048576, [⟨23, 0, .rw, 16777215, 0, 16777215⟩]⟩,
  -- PROTECT.CONS_VALUE
  ⟨0x104, 16, 0x8, 1, 0x4, false, 0x0, 0, 1048576, [⟨31, 0, .rw, 4294967295, 0, 4294967295⟩]⟩,
  -- PROTECT.BLK_PERM
  ⟨0x400, 64, 0x4, 1, 0x4, false, 0xAAAA, 0, 1048576, [⟨15, 0, .stop, 65535, 0, 65535⟩]⟩,
  -- PROTECT.REGION_BASE
  ⟨0x600, 16, 0x10, 1, 0x4, false, 0x0, 0, 1048576, [⟨27, 0, .stop, 268435455, 0, 268435455⟩]⟩,
  -- PROTECT.REGION_LIMIT
  ⟨0x604, 16, 0x10, 1, 0x4, false, 0x0, 0, 1048576, [⟨27, 0, .stop, 268435455, 0, 268435455⟩]⟩,
  -- PROTECT.REGION_PERM
  ⟨0x608, 16, 0x10, 1, 0x4, false, 0x0, 0, 1048576, [⟨31, 31, .stop, 1, 0, 1⟩, ⟨15, 0, .stop, 65535, 0, 65535⟩]⟩,
  -- PROTECT.HEIR
  ⟨0x800, 1, 0x4, 1, 0x4, false, 0xFFFFFFFF, 0, 1048576, [⟨31, 16, .stop, 65535, 0, 65535⟩, ⟨15, 0, .stop, 65535, 0, 65535⟩]⟩]

/-- The registers of block 0x4 (spec rule R453). -/
def faultRegs : List RegD := [
  -- FAULT.FM_STATUS
  ⟨0x0, 1, 0x4, 1, 0x4, false, 0x1000000, 0, 1048576, [⟨24, 24, .ro, 1, 0, 1⟩, ⟨23, 23, .ro, 1, 0, 1⟩, ⟨15, 0, .ro, 65535, 0, 65535⟩]⟩,
  -- FAULT.FM_LAST
  ⟨0x4, 1, 0x4, 1, 0x4, false, 0x0, 0, 1048576, [⟨31, 24, .ro, 255, 0, 255⟩, ⟨15, 0, .ro, 65535, 0, 65535⟩]⟩,
  -- FAULT.FM_LAST_T
  ⟨0x8, 1, 0x4, 1, 0x4, true, 0x0, 0, 1048576, [⟨63, 0, .ro, 18446744073709551615, 0, 18446744073709551615⟩]⟩,
  -- FAULT.FM_ACTIVE
  ⟨0x10, 1, 0x4, 1, 0x4, false, 0x0, 0, 1048576, [⟨31, 0, .w1c, 4294967295, 0, 4294967295⟩]⟩,
  -- FAULT.FM_CMD
  ⟨0x14, 1, 0x4, 1, 0x4, false, 0x0, 0, 1048576, [⟨1, 1, .cmd, 1, 0, 1⟩, ⟨0, 0, .cmd, 1, 0, 1⟩]⟩,
  -- FAULT.SRC_COUNT
  ⟨0x20, 16, 0x4, 1, 0x4, false, 0x0, 0, 1048576, [⟨31, 16, .ro, 65535, 0, 65535⟩, ⟨15, 0, .ro, 65535, 0, 65535⟩]⟩,
  -- FAULT.SAFE_NOW
  ⟨0x60, 5, 0x4, 1, 0x4, false, 0x0, 0, 1048576, [⟨31, 0, .ro, 4294967295, 0, 4294967295⟩]⟩,
  -- FAULT.SAFE_REL
  ⟨0x80, 5, 0x4, 1, 0x4, false, 0x0, 0, 1048576, [⟨31, 0, .cmd, 4294967295, 0, 4294967295⟩]⟩,
  -- FAULT.SRC_CFG
  ⟨0x100, 32, 0x4, 1, 0x4, false, 0x0, 0, 1048576, [⟨26, 24, .stg, 7, 0, 7⟩, ⟨19, 16, .stg, 15, 0, 15⟩, ⟨12, 12, .stg, 1, 0, 1⟩, ⟨2, 0, .stg, 3, 0, 7⟩]⟩,
  -- FAULT.SAFE_GRP
  ⟨0x200, 8, 0x20, 5, 0x4, false, 0x0, 0, 1048576, [⟨31, 0, .stg, 4294967295, 0, 4294967295⟩]⟩]

/-- The registers of block 0x3 (spec rule R454). -/
def supplyRegs : List RegD := [
  -- SUPPLY.SUP_STATUS
  ⟨0x0, 1, 0x4, 1, 0x4, false, 0x1, 0, 1048576, [⟨3, 3, .ro, 1, 0, 1⟩, ⟨2, 2, .ro, 1, 0, 1⟩, ⟨1, 1, .ro, 1, 0, 1⟩, ⟨0, 0, .ro, 1, 0, 1⟩]⟩,
  -- SUPPLY.VIN_FAIL_CFG
  ⟨0x4, 1, 0x4, 1, 0x4, false, 0x5A, 0, 1048576, [⟨11, 0, .live, 4095, 90, 1400⟩]⟩,
  -- SUPPLY.VCORE_CFG
  ⟨0x8, 1, 0x4, 1, 0x4, false, 0x2EE, 0, 1048576, [⟨31, 31, .live, 1, 0, 1⟩, ⟨11, 0, .live, 4095, 0, 4095⟩]⟩,
  -- SUPPLY.VIO_CFG
  ⟨0xC, 1, 0x4, 1, 0x4, false, 0x0, 0, 1048576, [⟨4, 0, .live, 31, 0, 31⟩]⟩,
  -- SUPPLY.MON_VIN
  ⟨0x10, 1, 0x4, 1, 0x4, false, 0x0, 0, 1048576, [⟨31, 0, .ro, 4294967295, 0, 4294967295⟩]⟩,
  -- SUPPLY.MON_VINT
  ⟨0x14, 1, 0x4, 1, 0x4, false, 0x0, 0, 1048576, [⟨31, 0, .ro, 4294967295, 0, 4294967295⟩]⟩,
  -- SUPPLY.MON_VCORE
  ⟨0x18, 1, 0x4, 1, 0x4, false, 0x0, 0, 1048576, [⟨31, 0, .ro, 4294967295, 0, 4294967295⟩]⟩,
  -- SUPPLY.MON_VDDA
  ⟨0x1C, 1, 0x4, 1, 0x4, false, 0x0, 0, 1048576, [⟨31, 0, .ro, 4294967295, 0, 4294967295⟩]⟩,
  -- SUPPLY.MON_TJ
  ⟨0x20, 1, 0x4, 1, 0x4, false, 0x0, 0, 1048576, [⟨31, 0, .ro, 4294967295, 0, 4294967295⟩]⟩,
  -- SUPPLY.THERM_CFG
  ⟨0x24, 1, 0x4, 1, 0x4, false, 0x8773, 0, 1048576, [⟨15, 8, .live, 255, 125, 145⟩, ⟨7, 0, .live, 255, 0, 255⟩]⟩,
  -- SUPPLY.RAIL_FLAGS
  ⟨0x28, 1, 0x4, 1, 0x4, false, 0x0, 0, 1048576, [⟨9, 9, .w1c, 1, 0, 1⟩, ⟨8, 8, .w1c, 1, 0, 1⟩, ⟨7, 3, .w1c, 31, 0, 31⟩, ⟨2, 2, .w1c, 1, 0, 1⟩, ⟨1, 1, .w1c, 1, 0, 1⟩, ⟨0, 0, .w1c, 1, 0, 1⟩]⟩,
  -- SUPPLY.DOM_CTRL_0
  ⟨0x40, 1, 0x4, 1, 0x4, false, 0xFFFFFFFF, 0, 1048576, [⟨31, 0, .live, 4294967295, 0, 4294967295⟩]⟩,
  -- SUPPLY.DOM_CTRL_1
  ⟨0x44, 1, 0x4, 1, 0x4, false, 0x7FFFFFF, 0, 1048576, [⟨26, 0, .live, 134217727, 0, 134217727⟩]⟩,
  -- SUPPLY.DOM_STATUS_0
  ⟨0x48, 1, 0x4, 1, 0x4, false, 0x0, 0, 1048576, [⟨31, 0, .ro, 4294967295, 0, 4294967295⟩]⟩,
  -- SUPPLY.DOM_STATUS_1
  ⟨0x4C, 1, 0x4, 1, 0x4, false, 0x0, 0, 1048576, [⟨26, 0, .ro, 134217727, 0, 134217727⟩]⟩]

/-- The registers of block 0x3f (spec rule R455). -/
def idBlockRegs : List RegD := [
  -- ID.PART
  ⟨0x0, 1, 0x4, 1, 0x4, false, 0x9664, 0, 1048576, [⟨15, 0, .ro, 65535, 0, 65535⟩]⟩,
  -- ID.REV
  ⟨0x4, 1, 0x4, 1, 0x4, false, 0xB0, 0, 1048576, [⟨15, 0, .ro, 65535, 0, 65535⟩]⟩,
  -- ID.IDCODE
  ⟨0x8, 1, 0x4, 1, 0x4, false, 0x0, 0, 1048576, [⟨31, 0, .ro, 4294967295, 0, 4294967295⟩]⟩,
  -- ID.PCI_ID
  ⟨0xC, 1, 0x4, 1, 0x4, false, 0x0, 0, 1048576, [⟨31, 0, .ro, 4294967295, 0, 4294967295⟩]⟩,
  -- ID.UID
  ⟨0x10, 4, 0x4, 1, 0x4, false, 0x0, 0, 1048576, [⟨31, 0, .ro, 4294967295, 0, 4294967295⟩]⟩,
  -- ID.KEY_HASH
  ⟨0x40, 12, 0x4, 1, 0x4, false, 0x0, 0, 1048576, [⟨31, 0, .ro, 4294967295, 0, 4294967295⟩]⟩]

/-- The registers of the block with the given number (R365); none for a range that holds no block. -/
def blockRegs : Nat → List RegD
  | 0x2 => milepostRegs
  | 0x0 => sysRegs
  | 0x1 => ledgerRegs
  | 0x9 => nvmRegs
  | 0x10 => adcRegs
  | 0x11 => adcRegs
  | 0x12 => adcRegs
  | 0x13 => adcRegs
  | 0x14 => adcRegs
  | 0x15 => adcRegs
  | 0x16 => compRegs
  | 0x17 => compRegs
  | 0x18 => loopSlotsRegs
  | 0x19 => loopSlotsRegs
  | 0x1A => loopSupRegs
  | 0x1B => loopTraceRegs
  | 0x20 => pwmRegs
  | 0x21 => pwmRegs
  | 0x22 => pwmRegs
  | 0x23 => phaseRegs
  | 0x24 => witnessRegs
  | 0x30 => coresRegs
  | 0x28 => roundRegs
  | 0x29 => roundRegs
  | 0x2C => pengRegs
  | 0x2D => pinmuxRegs
  | 0xA => memctlRegs
  | 0xB => scrubRegs
  | 0xC => dmaRegs
  | 0x6 => junctionRegs
  | 0x7 => hostRegs
  | 0x8 => tieRegs
  | 0x31 => debugRegs
  | 0x5 => protectRegs
  | 0x4 => faultRegs
  | 0x3 => supplyRegs
  | 0x3F => idBlockRegs
  | _ => []

/-- The block IDs that exist (R365). -/
def blockExists (b : Nat) : Bool := b < 0x100 && !(blockRegs b).isEmpty

end Sys2Proof.Machine
end

