-- ==== Sys2Proof/Machine/Tab.lean ====
section
/-!
DEFINITION. Machine/Tab.lean: sparse tables by a numeric key. A table lists, in strictly rising key order, only the entries
that differ from the value an unlisted key has.
-/
namespace Sys2Proof.Machine

/-- A sparse table: pairs of a key and its value. -/
abbrev Tab (α : Type) := List (Nat × α)

/-- The value at key `k`; `dflt` where the table lists none. -/
def Tab.get {α : Type} (dflt : α) (k : Nat) : Tab α → α
  | [] => dflt
  | (j, v) :: t => if j = k then v else Tab.get dflt k t

/-- The table without key `k`. -/
def Tab.del {α : Type} (k : Nat) : Tab α → Tab α
  | [] => []
  | (j, v) :: t => if j = k then Tab.del k t else (j, v) :: Tab.del k t

/-- The table with the pair `(k, v)` put in key order. -/
def Tab.ins {α : Type} (k : Nat) (v : α) : Tab α → Tab α
  | [] => [(k, v)]
  | (j, w) :: t => if k < j then (k, v) :: (j, w) :: t else (j, w) :: Tab.ins k v t

/-- The table with value `v` at key `k`; a value equal to `dflt` is not listed. -/
def Tab.set {α : Type} [DecidableEq α] (dflt : α) (k : Nat) (v : α) (t : Tab α) : Tab α :=
  if v = dflt then Tab.del k t else Tab.ins k v (Tab.del k t)

/-- The value listed at key `k`, if any. -/
def Tab.find {α : Type} (k : Nat) : Tab α → Option α
  | [] => none
  | (j, v) :: t => if j = k then some v else Tab.find k t

/-- The table with `v` listed at key `k`. -/
def Tab.put {α : Type} (k : Nat) (v : α) (t : Tab α) : Tab α := Tab.ins k v (Tab.del k t)

/-- The table with a function applied to every listed value; a result equal to `dflt` is not listed. -/
def Tab.remap {α : Type} [DecidableEq α] (dflt : α) (f : α → α) (t : Tab α) : Tab α :=
  (t.map fun p => (p.1, f p.2)).filter fun p => decide (p.2 ≠ dflt)

/-- Keys strictly rise. -/
def Tab.sorted {α : Type} : Tab α → Bool
  | [] => true
  | [_] => true
  | (j, _) :: (k, v) :: t => decide (j < k) && Tab.sorted ((k, v) :: t)

/-- The canonical form: keys strictly rise and no listed value equals the unlisted one. -/
def Tab.wf {α : Type} [DecidableEq α] (dflt : α) (t : Tab α) : Bool :=
  Tab.sorted t && t.all (fun p => decide (p.2 ≠ dflt))

end Sys2Proof.Machine
end

