-- ==== Sys2Proof/Machine/Wilium.lean ====
section
/-!
DEFINITION. Machine/Wilium.lean: the Wilium instruction words (spec/11, spec/12: R251 to R274, R283 to R286): what a 16-bit or
a 32-bit word spells. A core's command carries the word it issues, a 16-bit word in bits [15:0].
-/
namespace Sys2Proof.Machine

/-- The ALU operations in the order of their codes (R263). -/
inductive AluOp where
  | add | sub | adc | sbc | and | or | xor | andn | sll | srl | sra | ror | min | max | minu | maxu | slt | sltu | neg | not
  deriving DecidableEq, Repr

/-- The multiply group (R265). -/
inductive MulOp where
  | mul | mulh | mulhu | mulhsu | mac | msu
  deriving DecidableEq, Repr

/-- The divide group (R266). -/
inductive DivOp where
  | div | divu | rem | remu
  deriving DecidableEq, Repr

/-- The saturating group (R267). -/
inductive SatOp where
  | qadd | qsub | qaddu | qsubu | qneg | qabs | qdmulh | ssat | usat
  deriving DecidableEq, Repr

/-- The bit group (R267). -/
inductive BitOp where
  | clz | ctz | popc | rev | rev16 | sextb | sexth | zextb | zexth
  deriving DecidableEq, Repr

/-- The bit-field group (R267). -/
inductive BfOp where
  | extu | exts | ins
  deriving DecidableEq, Repr

/-- The atomic group (R261). -/
inductive AmoOp where
  | swap | add | cas
  deriving DecidableEq, Repr

/-- The addressing modes: the base and displacement of R257 and the modes of R258. -/
inductive AddrMode where
  | disp (k : Word)
  | idx (rb : Nat)
  | idxu (rb : Nat)
  | post (k : Word)
  | pre (k : Word)
  | postr (rb : Nat)
  | bank (k : Word)
  deriving DecidableEq, Repr

/-- The two-operand arithmetic of the floating-point unit (R283). -/
inductive FpOp where
  | add | sub | mul | div
  deriving DecidableEq, Repr

/-- The fused operations (R284). -/
inductive FmaOp where
  | madd | msub | nmadd | nmsub
  deriving DecidableEq, Repr

/-- A decoded word. Registers are numbers below 32; `size` is SZ of R258 (0 to 3); `rm` the rounding field of R279; `dbl` is
FMT D. -/
inductive WInstr where
  | undef
  | alu (op : AluOp) (f : Bool) (rd ra rb : Nat)
  | addi (f : Bool) (rd ra : Nat) (imm : Word)
  | logi (op : AluOp) (rd ra : Nat) (imm : Word)
  | cmpi (ra : Nat) (imm : Word)
  | shi (op : AluOp) (f : Bool) (rd ra amt : Nat)
  | lui (rd : Nat) (imm : Word)
  | addpc (rd : Nat) (imm : Word)
  | mul (op : MulOp) (rd ra rb : Nat)
  | div (op : DivOp) (rd ra rb : Nat)
  | sat (op : SatOp) (rd ra rb : Nat)
  | bit (op : BitOp) (rd ra : Nat)
  | bf (op : BfOp) (w pos rd ra : Nat)
  | load (sg : Bool) (size : Nat) (m : AddrMode) (rd ra : Nat) (x : Bool)
  | store (size : Nat) (m : AddrMode) (rs ra : Nat) (x : Bool)
  | amo (op : AmoOp) (rd ra rb : Nat)
  | bcc (cond : Nat) (off : Word)
  | br (off : Word)
  | call (off : Word)
  | jr (ra : Nat)
  | callr (rd ra : Nat)
  | loop (lvl ra : Nat) (body : Nat) (cnt : Option Nat)
  | mfs (rd sr : Nat)
  | mts (sr ra : Nat)
  | fence
  | sync
  | iflush (ra : Nat)
  | syscall (imm : Nat)
  | brk (imm : Nat)
  | rete
  | sleep
  | part
  | join
  | atomb (imm : Nat)
  | atome
  | fp (op : FpOp) (dbl : Bool) (rm fd fa fb : Nat)
  | fsqrt (dbl : Bool) (rm fd fa : Nat)
  | fminmax (max : Bool) (dbl : Bool) (fd fa fb : Nat)
  | fsgn (kind : Nat) (dbl : Bool) (fd fa fb : Nat)
  | fcmp (pred : Nat) (dbl : Bool) (gd fa fb : Nat)
  | fclass (dbl : Bool) (gd fa : Nat)
  | fcvt (dbl : Bool) (rm fd fa : Nat)
  | fcvtw (uns : Bool) (dbl : Bool) (rm gd fa : Nat)
  | fcvtf (uns : Bool) (dbl : Bool) (rm fd ga : Nat)
  | fmvx (dbl : Bool) (gd fa : Nat)
  | fmvf (dbl : Bool) (fd ga : Nat)
  | fmfc (gd : Nat)
  | fmtc (ga : Nat)
  | fma (op : FmaOp) (dbl : Bool) (rm fd fa fb fc : Nat)
  | fload (size : Nat) (m : AddrMode) (fd ra : Nat)
  | fstore (size : Nat) (m : AddrMode) (fs ra : Nat)
  deriving DecidableEq, Repr

/-- A field of an instruction word, sign-extended to a register word. -/
def simm (width n : Nat) : Word := BitVec.ofInt 32 (sext width n)

/-- Bits of a word whose low bit tells its length: a 32-bit word (R251). -/
def isLong (w : Word) : Bool := w.toNat % 2 == 1

/-- The length of a word in bytes (R251). -/
def wordLen (w : Word) : Nat := if isLong w then 4 else 2

/-- The word EXC_ADDR shows: a 16-bit instruction in bits [15:0] (R291). -/
def shownWord (w : Word) : Word := if isLong w then w else BitVec.ofNat 32 (w.toNat % 0x10000)

/-- The operation of an ALU code (R263). -/
def aluOf : Nat → Option AluOp
  | 0 => some .add | 1 => some .sub | 2 => some .adc | 3 => some .sbc | 4 => some .and | 5 => some .or | 6 => some .xor
  | 7 => some .andn | 8 => some .sll | 9 => some .srl | 10 => some .sra | 11 => some .ror | 12 => some .min | 13 => some .max
  | 14 => some .minu | 15 => some .maxu | 16 => some .slt | 17 => some .sltu | 18 => some .neg | 19 => some .not
  | _ => none

/-- The operation of a multiply FN (R265). -/
def mulOf : Nat → Option MulOp
  | 0 => some .mul | 1 => some .mulh | 2 => some .mulhu | 3 => some .mulhsu | 4 => some .mac | 5 => some .msu
  | _ => none

/-- The operation of a divide FN (R266). -/
def divOf : Nat → Option DivOp
  | 0 => some .div | 1 => some .divu | 2 => some .rem | 3 => some .remu
  | _ => none

/-- The operation of a saturating FN (R267). -/
def satOf : Nat → Option SatOp
  | 0 => some .qadd | 1 => some .qsub | 2 => some .qaddu | 3 => some .qsubu | 4 => some .qneg | 5 => some .qabs
  | 6 => some .qdmulh | 7 => some .ssat | 8 => some .usat
  | _ => none

/-- The operation of a bit FN (R267). -/
def bitOpOf : Nat → Option BitOp
  | 0 => some .clz | 1 => some .ctz | 2 => some .popc | 3 => some .rev | 4 => some .rev16 | 5 => some .sextb
  | 6 => some .sexth | 7 => some .zextb | 8 => some .zexth
  | _ => none

/-- The condition code of R269: a number below 15. -/
def condOk (n : Nat) : Bool := decide (n < 15)

/-- An instruction that stands where a check holds, and an undefined encoding where it does not (R253). -/
def orUndef (ok : Bool) (i : WInstr) : WInstr := if ok then i else .undef

/-- The addressing mode of format M (R258); none where MODE is reserved. -/
def modeOf (n : Nat) : Option AddrMode :=
  let f := bitsOf n 21 17
  match bitsOf n 27 25 with
  | 0 => some (.idx f)
  | 1 => some (.idxu f)
  | 2 => some (.post (simm 5 f))
  | 3 => some (.pre (simm 5 f))
  | 4 => some (.postr f)
  | 5 => some (.bank (simm 5 f))
  | _ => none

/-- A mode that writes its base register (R258). -/
def AddrMode.updates : AddrMode → Bool
  | .post _ => true
  | .pre _ => true
  | .postr _ => true
  | _ => false

/-- LDX and STX (R258 to R260). -/
def decodeX (isStore : Bool) (n : Nat) : WInstr :=
  let sz := bitsOf n 23 22
  let sg := bitOf n 24
  let rd := bitsOf n 11 7
  let ra := bitsOf n 16 12
  match modeOf n with
  | none => .undef
  | some m =>
    let pairOk := decide (sz ≠ 3 ∨ rd % 2 = 0)
    if bitsOf n 31 28 ≠ 0 then .undef
    else if isStore then orUndef (!sg && pairOk) (.store sz m rd ra true)
    else
      orUndef ((!sg || decide (sz < 2)) && pairOk
          && !(m.updates && (decide (rd = ra) || (decide (sz = 3) && decide (rd + 1 = ra)))))
        (.load sg sz m rd ra true)

/-- FLDX and FSTX (R285, R286). -/
def decodeFX (isStore : Bool) (n : Nat) : WInstr :=
  let sz := bitsOf n 23 22
  match modeOf n with
  | none => .undef
  | some m =>
    let ok := decide (bitsOf n 31 28 = 0) && !bitOf n 24 && decide (sz ≥ 2)
    orUndef ok (if isStore then .fstore sz m (bitsOf n 11 7) (bitsOf n 16 12) else .fload sz m (bitsOf n 11 7) (bitsOf n 16 12))

/-- A rounding field is not reserved (R279). -/
def rmOk (rm : Nat) : Bool := decide (rm < 5) || decide (rm = 7)

/-- Major 0x30: the operations of R283. -/
def decodeFp (n : Nat) : WInstr :=
  let rm := bitsOf n 24 22
  let rb := bitsOf n 21 17
  let ra := bitsOf n 16 12
  let rd := bitsOf n 11 7
  let fmt := bitsOf n 26 25
  let dbl := decide (fmt = 1)
  if fmt > 1 then .undef
  else match bitsOf n 31 27 with
    | 0 => orUndef (rmOk rm) (.fp .add dbl rm rd ra rb)
    | 1 => orUndef (rmOk rm) (.fp .sub dbl rm rd ra rb)
    | 2 => orUndef (rmOk rm) (.fp .mul dbl rm rd ra rb)
    | 3 => orUndef (rmOk rm) (.fp .div dbl rm rd ra rb)
    | 4 => orUndef (rmOk rm && decide (rb = 0)) (.fsqrt dbl rm rd ra)
    | 5 => orUndef (decide (rm = 0)) (.fminmax false dbl rd ra rb)
    | 6 => orUndef (decide (rm = 0)) (.fminmax true dbl rd ra rb)
    | 7 => orUndef (decide (rm < 3)) (.fsgn rm dbl rd ra rb)
    | 8 => orUndef (decide (rm < 4)) (.fcmp rm dbl rd ra rb)
    | 9 => orUndef (decide (rm = 0) && decide (rb = 0)) (.fclass dbl rd ra)
    | 10 => orUndef (rmOk rm && decide (rb = 0)) (.fcvt dbl rm rd ra)
    | 11 => orUndef (rmOk rm && decide (rb < 2)) (.fcvtw (decide (rb = 1)) dbl rm rd ra)
    | 12 => orUndef (rmOk rm && decide (rb < 2)) (.fcvtf (decide (rb = 1)) dbl rm rd ra)
    | 13 => orUndef (decide (rm = 0) && decide (rb = 0) && (!dbl || decide (rd % 2 = 0))) (.fmvx dbl rd ra)
    | 14 => orUndef (decide (rm = 0) && decide (rb = 0) && (!dbl || decide (ra % 2 = 0))) (.fmvf dbl rd ra)
    | 15 =>
      if rb ≠ 0 ∨ fmt ≠ 0 then .undef
      else if rm = 0 then orUndef (decide (ra = 0)) (.fmfc rd)
      else if rm = 1 then orUndef (decide (rd = 0)) (.fmtc ra)
      else .undef
    | _ => .undef

/-- The special registers of R273. -/
def srOk (sr : Nat) : Bool := decide (sr = 0) || decide (sr = 1) || (decide (4 ≤ sr) && decide (sr < 16))

/-- The system group (R274). -/
def decodeSys (n : Nat) : WInstr :=
  let imm := bitsOf n 21 12
  let rd0 := decide (bitsOf n 11 7 = 0)
  let no := rd0 && decide (imm = 0)
  match bitsOf n 31 22 with
  | 0 => orUndef no .fence
  | 1 => orUndef no .sync
  | 2 => orUndef (rd0 && decide (bitsOf n 21 17 = 0)) (.iflush (bitsOf n 16 12))
  | 3 => orUndef rd0 (.syscall imm)
  | 4 => orUndef rd0 (.brk imm)
  | 5 => orUndef no .rete
  | 6 => orUndef no .sleep
  | 7 => orUndef no .part
  | 8 => orUndef no .join
  | 9 => orUndef rd0 (.atomb imm)
  | 10 => orUndef no .atome
  | _ => .undef

/-- The loads and stores of format I (R257, R260). -/
def decodeMem (op n : Nat) : WInstr :=
  let imm := simm 15 (bitsOf n 31 17)
  let ra := bitsOf n 16 12
  let rd := bitsOf n 11 7
  match op with
  | 0x10 => .load true 0 (.disp imm) rd ra false
  | 0x11 => .load false 0 (.disp imm) rd ra false
  | 0x12 => .load true 1 (.disp imm) rd ra false
  | 0x13 => .load false 1 (.disp imm) rd ra false
  | 0x14 => .load false 2 (.disp imm) rd ra false
  | 0x15 => orUndef (decide (rd % 2 = 0)) (.load false 3 (.disp imm) rd ra false)
  | 0x18 => .store 0 (.disp imm) rd ra false
  | 0x19 => .store 1 (.disp imm) rd ra false
  | 0x1A => .store 2 (.disp imm) rd ra false
  | 0x1B => orUndef (decide (rd % 2 = 0)) (.store 3 (.disp imm) rd ra false)
  | _ => .undef

/-- The immediate, ALU, shift and upper-immediate majors (R254, R263, R264). -/
def decodeAlu (op n : Nat) : WInstr :=
  let imm := bitsOf n 31 17
  let rb := bitsOf n 21 17
  let ra := bitsOf n 16 12
  let rd := bitsOf n 11 7
  match op with
  | 0x01 =>
    match aluOf (bitsOf n 30 22) with
    | none => .undef
    | some o => orUndef (decide (rb = 0) || (decide (o ≠ .neg) && decide (o ≠ .not))) (.alu o (bitOf n 31) rd ra rb)
  | 0x02 => .addi false rd ra (simm 15 imm)
  | 0x03 => .addi true rd ra (simm 15 imm)
  | 0x04 => .logi .and rd ra (BitVec.ofNat 32 imm)
  | 0x05 => .logi .or rd ra (BitVec.ofNat 32 imm)
  | 0x06 => .logi .xor rd ra (BitVec.ofNat 32 imm)
  | 0x07 => orUndef (decide (rd = 0)) (.cmpi ra (simm 15 imm))
  | 0x08 =>
    match bitsOf n 30 22 with
    | 0 => .shi .sll (bitOf n 31) rd ra rb
    | 1 => .shi .srl (bitOf n 31) rd ra rb
    | 2 => .shi .sra (bitOf n 31) rd ra rb
    | 3 => .shi .ror (bitOf n 31) rd ra rb
    | _ => .undef
  | 0x09 => .lui rd (BitVec.ofNat 32 (bitsOf n 31 12 * 0x1000))
  | 0x0A => .addpc rd (BitVec.ofNat 32 (bitsOf n 31 12 * 0x1000))
  | _ => .undef

/-- The multiply, divide, saturating, bit, bit-field and atomic groups (R261, R265 to R267). -/
def decodeGroup (op n : Nat) : WInstr :=
  let fn := bitsOf n 31 22
  let rb := bitsOf n 21 17
  let ra := bitsOf n 16 12
  let rd := bitsOf n 11 7
  match op with
  | 0x0B => match mulOf fn with
    | some o => .mul o rd ra rb
    | none => .undef
  | 0x0C => match divOf fn with
    | some o => .div o rd ra rb
    | none => .undef
  | 0x0D => match satOf fn with
    | some o => orUndef (decide (rb = 0) || (decide (o ≠ .qneg) && decide (o ≠ .qabs))) (.sat o rd ra rb)
    | none => .undef
  | 0x0E => match bitOpOf fn with
    | some o => orUndef (decide (rb = 0)) (.bit o rd ra)
    | none => .undef
  | 0x0F =>
    let w := bitsOf n 26 22 + 1
    let ok := decide (rb + w ≤ 32)
    match bitsOf n 31 27 with
    | 0 => orUndef ok (.bf .extu w rb rd ra)
    | 1 => orUndef ok (.bf .exts w rb rd ra)
    | 2 => orUndef ok (.bf .ins w rb rd ra)
    | _ => .undef
  | 0x1E =>
    match fn with
    | 0 => .amo .swap rd ra rb
    | 1 => .amo .add rd ra rb
    | 2 => .amo .cas rd ra rb
    | _ => .undef
  | _ => .undef

/-- Branches, calls, hardware loops and special registers (R269 to R273). -/
def decodeFlow (op n : Nat) : WInstr :=
  let fn := bitsOf n 31 22
  let rb := bitsOf n 21 17
  let ra := bitsOf n 16 12
  let rd := bitsOf n 11 7
  match op with
  | 0x20 => orUndef (!bitOf n 11 && condOk (bitsOf n 10 7)) (.bcc (bitsOf n 10 7) (simm 20 (bitsOf n 31 12)))
  | 0x21 => .br (simm 25 (bitsOf n 31 7))
  | 0x22 => .call (simm 25 (bitsOf n 31 7))
  | 0x23 =>
    if fn = 0 then orUndef (decide (rb = 0) && decide (rd = 0)) (.jr ra)
    else if fn = 1 then orUndef (decide (rb = 0)) (.callr rd ra)
    else .undef
  | 0x24 =>
    orUndef (decide (bitsOf n 11 9 = 0) && decide (bitsOf n 31 17 ≠ 0)) (.loop (bitsOf n 8 7) ra (bitsOf n 31 17) none)
  | 0x25 =>
    orUndef (decide (bitsOf n 11 9 = 0) && decide (fn ≠ 0)) (.loop (bitsOf n 8 7) 0 fn (some (bitsOf n 21 12)))
  | 0x26 =>
    if fn = 0 then orUndef (decide (ra = 0) && srOk rb) (.mfs rd rb)
    else if fn = 1 then orUndef (decide (rd = 0) && srOk rb) (.mts rb ra)
    else .undef
  | _ => .undef

/-- The fused operations (R284). -/
def decodeFma (o : FmaOp) (n : Nat) : WInstr :=
  orUndef (rmOk (bitsOf n 24 22) && decide (bitsOf n 26 25 < 2))
    (.fma o (decide (bitsOf n 26 25 = 1)) (bitsOf n 24 22) (bitsOf n 11 7) (bitsOf n 16 12) (bitsOf n 21 17) (bitsOf n 31 27))

/-- What a 32-bit word spells: the major opcode map of R254. -/
def decode32 (n : Nat) : WInstr :=
  let op := bitsOf n 6 1
  if op ≤ 0x0A then decodeAlu op n
  else if op ≤ 0x0F ∨ op = 0x1E then decodeGroup op n
  else if op ≤ 0x1B then decodeMem op n
  else if op = 0x1C then decodeX false n
  else if op = 0x1D then decodeX true n
  else if op ≤ 0x26 then decodeFlow op n
  else if op = 0x27 then decodeSys n
  else if op = 0x30 then decodeFp n
  else if op = 0x31 then decodeFma .madd n
  else if op = 0x32 then decodeFma .msub n
  else if op = 0x33 then decodeFma .nmadd n
  else if op = 0x34 then decodeFma .nmsub n
  else if op = 0x35 then decodeFX false n
  else if op = 0x36 then decodeFX true n
  else .undef

/-- The 16-bit misc group (R255). -/
def decodeMisc (sub rs : Nat) : WInstr :=
  match sub with
  | 0 => orUndef (decide (rs = 0)) (.addi false 0 0 0)
  | 1 => .jr rs
  | 2 => .callr 31 rs
  | 3 => orUndef (decide (rs = 0)) (.jr 31)
  | 4 => .brk rs
  | 5 => .syscall rs
  | _ => .undef

/-- What a 16-bit word spells, as the 32-bit instruction it abbreviates (R255). -/
def decode16 (h : Nat) : WInstr :=
  let rd := bitsOf h 10 6
  let rs := bitsOf h 15 11
  match bitsOf h 5 1 with
  | 0x01 => .alu .or false rd rs 0
  | 0x02 => .alu .add false rd rd rs
  | 0x03 => .alu .sub false rd rd rs
  | 0x04 => .alu .and false rd rd rs
  | 0x05 => .alu .or false rd rd rs
  | 0x06 => .alu .xor false rd rd rs
  | 0x07 => .alu .sub true 0 rd rs
  | 0x08 => .addi false rd rd (simm 5 rs)
  | 0x09 => .addi false rd 0 (simm 5 rs)
  | 0x0A => .shi .sll false rd rd rs
  | 0x0B => .shi .srl false rd rd rs
  | 0x0C => .shi .sra false rd rd rs
  | 0x0D => .cmpi rd (simm 5 rs)
  | 0x0E => .load false 2 (.disp (BitVec.ofNat 32 (4 * rs))) rd 30 false
  | 0x0F => .store 2 (.disp (BitVec.ofNat 32 (4 * rs))) rd 30 false
  | 0x10 => .load false 2 (.disp 0) rd rs false
  | 0x11 => .store 2 (.disp 0) rd rs false
  | 0x12 => orUndef (condOk (bitsOf h 9 6)) (.bcc (bitsOf h 9 6) (simm 6 (bitsOf h 15 10)))
  | 0x13 => .br (simm 10 (bitsOf h 15 6))
  | 0x14 => decodeMisc rd rs
  | 0x15 => .alu .neg true rd rs 0
  | 0x16 => .alu .not false rd rs 0
  | 0x17 => .addi false 30 30 (BitVec.ofNat 32 4 * simm 10 (bitsOf h 15 6))
  | 0x18 => orUndef (decide (rd ≠ rs)) (.load false 2 (.post 1) rd rs true)
  | 0x19 => .store 2 (.pre (BitVec.ofInt 32 (-1))) rd rs true
  | _ => .undef

/-- What a word spells (R251). [Log 13 DESIGN CHOICE] -/
def decodeW (w : Word) : WInstr := if isLong w then decode32 w.toNat else decode16 (w.toNat % 0x10000)

end Sys2Proof.Machine
end

