-- ==== Sys2Proof/Machine/State.lean ====
section
/-!
DEFINITION. Machine/State.lean: everything the spec gives the device, as plain data. A register word is held in `Dev.regs`
under its key (RegMap.lean) when it differs from its reset value; what a register shows of a unit is held there and
nowhere else, and each structure below holds what a unit keeps that no register shows.
-/
namespace Sys2Proof.Machine

/-- The kinds of Ledger record (R55). -/
inductive RecKind where
  | commit | live | reject | consent | owner | program | faultAction | system
  deriving DecidableEq, Repr

/-- The kind byte of R55. -/
def RecKind.code : RecKind → Nat
  | .commit => 1 | .live => 2 | .reject => 3 | .consent => 4
  | .owner => 5 | .program => 6 | .faultAction => 7 | .system => 8

/-- A Ledger record (R55) without its CRC, which is computed from it (R56). -/
structure Record where
  seq : Word := 0
  kind : RecKind
  flags : Byte
  origin : AgentId
  time : Time
  block : Byte
  off : Half
  new : Word
  old : Word
  cseq : Half := 0
  deriving DecidableEq, Repr

/-- The reject causes of R52, with their codes. -/
inductive Cause where
  | busy | pending | reserved | range | running | permission | state | size | consent | list
  deriving DecidableEq, Repr

/-- The code of a cause (R52). -/
def Cause.code : Cause → Nat
  | .busy => 1 | .pending => 2 | .reserved => 3 | .range => 4 | .running => 5
  | .permission => 6 | .state => 7 | .size => 8 | .consent => 9 | .list => 10

/-- What the bus answered to the latest access: the model's own field, which shows a command's answer. -/
inductive Answer where
  | none
  | ok
  | value (v : Word)
  | wide (v : DWord)
  | data (bs : List Byte)
  | rejected (c : Cause)
  | ignored
  | busError
  | waits
  deriving DecidableEq, Repr

/-- The state of a commit group (R64 GRP_STATUS.STATE). -/
inductive GrpState where
  | idle | claimed | pending | global
  deriving DecidableEq, Repr

/-- The mode of a commit (R40). -/
inductive CommitMode where
  | boundary | atTime | now
  deriving DecidableEq, Repr

/-- A commit group (R36 to R47, R64); a BOUNDARY commit that waited for the Ledger holds its places once it is admitted (R60). -/
structure Grp where
  st : GrpState := .idle
  owner : AgentId := 0
  claimT : Time := 0
  mode : CommitMode := .boundary
  atT : Time := 0
  goT : Time := 0
  target : Time := 0
  staged : List (Nat × Word) := []
  seq : Half := 0
  cause : Nat := 0
  late : Bool := false
  applied : Time := 0
  admitted : Bool := false
  deriving DecidableEq, Repr

/-- A pending global commit (R45): the groups in R46's order, the stated time and the time of application. -/
structure GlobalCommit where
  groups : List Nat := []
  target : Time := 0
  applyAt : Time := 0
  late : Bool := false
  deriving DecidableEq, Repr

/-- A pending snapshot (R48). -/
structure Snapshot where
  mask : DWord
  latchAt : Time
  target : Time
  late : Bool
  deriving DecidableEq, Repr

/-- A change that waits for Ledger places (R60): a register write, a LIVE write at its safe point (R49), a program load (R322), a page
retirement (R368), the application of a commit, or of a global commit. -/
inductive WaitKind where
  | write (addr : Nat) (v : Word)
  | live (addr : Nat) (v : Word)
  | retire (entry : Nat)
  | program (addr : Nat) (bs : List Byte)
  | apply (key : Nat)
  | globalApply
  deriving DecidableEq, Repr

/-- A waiting change with its agent and the time since when it waits. [Log 22 DESIGN CHOICE] -/
structure Waiting where
  agent : AgentId
  kind : WaitKind
  since : Time
  deriving DecidableEq, Repr

/-- A LIVE write accepted while its unit is in the middle of an operation (R49). -/
structure LivePend where
  agent : AgentId
  addr : Nat
  v : Word
  deriving DecidableEq, Repr

/-- An event on its way to the Junction (R396): its ID, the value and agent it carries, and its stamp. -/
structure Raised where
  id : Nat
  value : Half := 0
  agent : AgentId := 0xFFFF
  stamp : Time
  deriving DecidableEq, Repr

/-- An occurrence on its way to the fault manager (R434, R435): source, unit, and stamp. -/
structure FaultOcc where
  src : Nat
  unit : Nat
  stamp : Time
  deriving DecidableEq, Repr

/-- The Milepost's internal state (R13 to R32): the worst latency of each path since the window began, where one was
measured, and the state of the qualification, the holdover and the adjusted-tick count. The reference state, the slew remainder and every flag are the registers
of R33 and live there. -/
structure Timebase where
  milepost : Time := 0
  counting : Bool := false
  refSeen : Bool := false
  lastEdge : Time := 0
  qualSince : Option Time := none
  lockedSince : Time := 0
  holdStart : Time := 0
  slewTicks : Nat := 0
  loopWorst : Option Nat := none
  ringWorst : Option Nat := none
  windowStart : Time := 0
  upHold : Option Time := none
  downBlocked : Nat := 0
  deriving DecidableEq, Repr

/-- The Ledger's internal state (R57 to R62): the records of the change being made, oldest first, which take their sequence
numbers when it is complete; the records on chip, newest first; the changes that wait, oldest first; the queue of the NOR mirror, oldest first. -/
structure LedgerSt where
  fresh : List Record := []
  chip : List Record := []
  waiting : List Waiting := []
  norQ : List Record := []
  deriving DecidableEq, Repr

/-- A record waiting for its host ring (R403 to R407). -/
structure HostRec where
  ring : Nat
  typ : Nat
  event : Half
  agent : AgentId
  time : Time
  payload : List Byte
  merged : Nat := 0
  deriving DecidableEq, Repr

/-- A message the latest command sent out of the device (the model's own view of the links): an MSI-X message, a write
or a read request to host memory, a tie-link frame on a lane pair. -/
inductive OutMsg where
  | msix (vector : Nat)
  | hostWrite (addr : DWord) (data : List Byte)
  | hostRead (addr : DWord) (len : Nat)
  | frame (lane : Nat) (typ : Nat) (seq : Nat) (body : List Byte)
  deriving DecidableEq, Repr

/-- A periodic schedule under the catch-up rule (R27 to R29): grid origin, period in fine ticks, the number of the next
occurrence, its target, and whether SCHEDULE_BEHIND is armed. -/
structure Sched where
  t0 : Time := 0
  p : Nat := 0
  k : Nat := 0
  target : Time := 0
  armed : Bool := true
  deriving DecidableEq, Repr

/-- How far the supply has come up (R67, R70): off; the insertion wait; the VINT ramp; the other rails coming up; VIN-good; held by
RESET_N. -/
inductive SupplyPhase where
  | off | insertion | ramp | rails | good | pinReset
  deriving DecidableEq, Repr

/-- What the loader waits for (R74, R78, R79, R81). -/
inductive LoadWait where
  | read
  | poll (addr : Nat) (v : Word) (set : Bool)
  | delay
  | tie
  | go
  deriving DecidableEq, Repr

/-- The cut list loader at work (R78): the copy, the part of the image that is still to be applied as (type, offset, length) of
sections, the REGISTERS section in hand as its offset and remaining length, whether anything has been written to a block, the offset of
the START section, and what it waits for since when, or until when. -/
structure Loader where
  copyB : Bool := false
  sections : List (Nat × Nat × Nat) := []
  cur : Option (Nat × Nat) := none
  applied : Bool := false
  start : Nat := 0
  wait : Option LoadWait := none
  since : Time := 0
  until_ : Time := 0
  deriving DecidableEq, Repr

/-- The flash operations of FL_CTRL (R93). -/
inductive FlOp where
  | read | program | erase | check
  deriving DecidableEq, Repr

/-- A flash operation in progress; a page program that a power loss lets finish keeps the bytes of its buffer (R88). -/
structure FlashOp where
  op : FlOp
  addr : Nat
  len : Nat
  buf : Nat
  copyB : Bool
  agent : AgentId
  data : Option (List Byte) := none
  deriving DecidableEq, Repr

/-- The types of a journal entry (R83). -/
inductive JType where
  | persist | mirror | calib | cpBegin | cpEnd
  deriving DecidableEq, Repr

/-- A journal entry to append: its type and its body. -/
structure JEntry where
  typ : JType
  body : List Byte
  deriving DecidableEq, Repr

/-- The flash and what is kept of it (R71, R72, R83 to R89): the bytes that are not 0xFF, whether it answers, whether each
of the loader's next reads brings data (beyond the list, it does),
the operations asked for, the first in progress, the size of the journal in sectors, the place of the next entry, the entries to
append, oldest first, the address of an entry whose marker is to be programmed, the entries appended since the last CP_END, the
persisted groups, the sequence of a checkpoint's CP_BEGIN being written, the sector of the latest applied CP_BEGIN and the count
of the entries since, the newest CALIB body of each item, when CALIB entries are saved next, and an erase of the waypoint sector.
[Log 81 DESIGN CHOICE, 150 DESIGN CHOICE] -/
structure FlashSt where
  nor : List Host.Cell := []
  answers : Bool := true
  strobes : List Bool := []
  ops : List FlashOp := []
  jsect : Nat := 16
  headAt : Nat := 0
  queue : List JEntry := []
  unmarked : Option (Nat × JType) := none
  since : Nat := 0
  persisted : List Nat := []
  cpSeq : Option Word := none
  cpStart : Nat := 0
  cpCount : Nat := 0
  calibs : Tab (List Byte) := []
  calibAt : Time := 0
  wpErase : Bool := false
  deriving DecidableEq, Repr

/-- A sample of the supplies (R91): VIN in 10 mV, VINT and VCORE in mV, Tj in 1/8 °C. -/
structure SupplySample where
  vin : Nat
  vint : Nat
  vcore : Nat
  tj : Nat
  deriving DecidableEq, Repr

/-- What a power loss keeps for the waypoint (R87, R91): the time of the trip, VIN, Tj and the Ledger's sequence numbers then, and
what it interrupted; when the waypoint was written or skipped, and since when VIN stands above the threshold again (R88). -/
structure PowerLoss where
  t : Time
  vin : Nat
  tj : Nat
  nextSeq : Word
  drained : Word
  eraseAbandoned : Bool
  appendLost : Bool
  written : Option Time := none
  above : Option Time := none
  deriving DecidableEq, Repr

/-- A trigger's sample instant (R101): the instant, whether it was moved, and the target it is late against. -/
structure TrigAt where
  at_ : Time
  moved : Bool := false
  late : Option Time := none
  deriving DecidableEq, Repr

/-- A sample taken: its instant, its word and its number (R97, R98), the words CH_WIN_LIM, CH_WIN_CFG and CH_STREAM in force at its
instant, whether a commit has reset the window since, and whether its block closes with it (R103, R109, R111). -/
structure Sample where
  t : Time
  word : Half
  num : Word
  lim : Word := 0
  cfg : Word := 0
  strm : Word := 0
  past : Bool := false
  closes : Bool := false
  deriving DecidableEq, Repr

/-- What an ADC channel keeps: the start of the configuration in force, when the channel last left OFF or WAITING, the previous instant,
the trigger instants pending, the TIMED schedule, whether the next sample carries NEWCFG, the samples converting, the latest samples taken,
the window's run, the run and the qualification of the window before its latest reset, which the samples taken before it still meet, and
the block being streamed: half, words, first sample, samples dropped, and the sample counts of the two halves (R97 to R110). -/
structure AdcSt where
  start : Time := 0
  left : Time := 0
  prev : Option Time := none
  trigs : List TrigAt := []
  sched : Sched := {}
  newcfg : Bool := true
  conv : List Sample := []
  taken : List Sample := []
  winRun : Nat := 0
  pastRun : Nat := 0
  pastQ : Bool := false
  blkHalf : Option Nat := none
  blkLen : Nat := 0
  blkFirst : Time := 0
  blkNum : Word := 0
  blkDrop : Nat := 0
  blkCount : Nat := 0
  nextHalf : Nat := 0
  drops : Nat := 0
  cnt0 : Nat := 0
  cnt1 : Nat := 0
  deriving DecidableEq, Repr

/-- What an ADC half keeps of its truing: the next converter, when it may start, the end of the true in progress, the start of
the lap in progress, the channel converter that failed, whether the half has stopped swapping, and the trims of its nine converters
(R112, R113). -/
structure AdcHalf where
  next : Nat := 8
  nextAt : Time := 0
  subject : Option Nat := none
  doneAt : Time := 0
  lapStart : Option Time := none
  failed : Option Nat := none
  stopped : Bool := false
  trims : Tab Word := []
  deriving DecidableEq, Repr


/-- What a comparator keeps: its filtered contribution, the start of a rise that the filter holds back, the end of its settle
time, whether it is marked FAILED, and, for comparator A, the disagreement timer and whether the event is armed (R119 to R130). -/
structure CompSt where
  contrib : Bool := false
  riseAt : Option Time := none
  settleEnd : Time := 0
  failed : Bool := false
  disSince : Option Time := none
  disArmed : Bool := true
  deriving DecidableEq, Repr

/-- A self-test in progress (R129, R132): the index, the checks still to make (1 TIE_TRIP, 2 TIE_CLEAR, 3 SWAP, 4 truing), the
result bits, whether it can mark the comparator FAILED, whether one failed, the truing's step and trim, and the next check. -/
structure CompTest where
  n : Nat
  checks : List Nat
  result : Nat := 0
  marks : Bool
  bad : Bool := false
  step : Nat := 8
  trim : Int := -128
  nextAt : Time
  deriving DecidableEq, Repr

/-- What a comparator block keeps of its self-test (R128): the test, the manual tests that wait (index and OP), the index after
which the next is looked for, the earliest start and the start of the pass. -/
structure CompBlk where
  test : Option CompTest := none
  queue : List (Nat × Nat) := []
  pos : Nat := 0
  nextAt : Time := 0
  lapStart : Time := 0
  deriving DecidableEq, Repr


/-- One evaluation of a slot as its consumers see it (R139): instant, output, set-point, error and yc. -/
structure Eval where
  t : Time
  u : Int
  r : Int
  e : Int
  yc : Int
  deriving DecidableEq, Repr

/-- The state of a slot (R139 to R168): the instant it left OFF, whether its first evaluation is to come, rq, the previous
evaluated instant, the error and output histories, the partial, the flags of SP_JUMP and of a commit not used yet, the CLAMP
arming with its run, the samples that wait, the latest evaluations, the pulse input's latest edge and latest valid period, an
AT commit whose earlier samples are not all evaluated (its time and the words before it), the oscillation detector's
extreme, first run, reversals and firing instant; the instant from which its samples are taken (`since`), the instant of its
slice's latest mismatch (`gap`), the slice whose mismatch stopped it (`held`), the time before which its samples belong to the
spare (`spareTo`, R171), and the time of a snapshot that an evaluation still to come may reach (`snapT`, R159). -/
structure SlotSt where
  start : Time := 0
  since : Time := 0
  gap : Option Time := none
  held : Option Nat := none
  spareTo : Option Time := none
  snapT : Option Time := none
  first : Bool := true
  rq : Int := 0
  tPrev : Time := 0
  e1 : Int := 0
  e2 : Int := 0
  e3 : Int := 0
  e4 : Int := 0
  y1 : Int := 0
  y2 : Int := 0
  y3 : Int := 0
  y4 : Int := 0
  p : Int := 0
  spJump : Bool := false
  commitNew : Bool := false
  armed : Bool := true
  calm : Nat := 0
  queue : List (Time × Half) := []
  evs : List Eval := []
  pulseEdge : Option Time := none
  pulseOk : Time := 0
  defer : Option (Time × List (Nat × Word)) := none
  oscExt : Int := 0
  oscFirst : Bool := true
  oscHist : List Time := []
  oscFire : Time := 0
  deriving DecidableEq, Repr

/-- A decision of a competition group (R152): instant, winner and winning output; `won` tells whether a member was eligible. -/
structure Decision where
  t : Time
  slot : Nat
  u : Int
  won : Bool := true
  deriving DecidableEq, Repr

/-- A competition group's latest decisions, newest first; the instants whose decision waits for a member (R152, R153); and the
slots that left with the time of the commit and the instant they had left OFF: they count for decisions of earlier instants. -/
structure GroupSt where
  made : List Decision := []
  want : List Time := []
  left : List (Nat × Time × Time) := []
  deriving DecidableEq, Repr

/-- A slice detour in progress (R167): the slice, t_m, whether the state is copied and the spare evaluates, and the slots that
have not delivered since. -/
structure SliceDet where
  k : Nat
  tm : Time
  copied : Bool := false
  resumed : Bool := false
  left : List Nat := []
  deriving DecidableEq, Repr

/-- A trace unit (R172 to R175): the time it started, the cadence instants to record, the count of cadence instants, the trigger
asked for by FORCE or reached by its event, the records written since the trigger, and the records that wait for DRAM. -/
structure TrcSt where
  start : Time := 0
  due : List Time := []
  count : Nat := 0
  force : Bool := false
  event : Bool := false
  since : Nat := 0
  buf : List (List Byte) := []
  deriving DecidableEq, Repr


/-- The drive states of an output (R185). -/
inductive Drive where
  | main | comp | off | hiz
  deriving DecidableEq, Repr

/-- The levels of a timing pin (R186). -/
inductive Level where
  | high | low | mid | hiz
  deriving DecidableEq, Repr

/-- A value delivered by the loop engine or a rail (R143, R183). -/
inductive UpdVal where
  | duty (d : Nat)
  | ontime (c : Nat)
  deriving DecidableEq, Repr

/-- A window (R182) with its edges as placed, the number of its frame, the dead times and minimum pulse it was formed under (R193), and
what R187 makes of it: the off edge in force, whether it conducts, whether its off edge is not made because it merges with the
next window, and the intervals dropped or stretched. -/
structure Win where
  on : Time
  off : Time
  evt : Bool := true
  ins : Bool := false
  begun : Bool := false
  dOn : Nat := 0
  dOff : Nat := 0
  m : Nat := 64
  str : Bool := false
  compOk : Bool := false
  eOff : Time := 0
  conduct : Bool := true
  noOff : Bool := false
  sMain : Bool := false
  sComp : Bool := false
  dComp : Bool := false
  k : Nat := 0
  deriving DecidableEq, Repr

/-- What an output keeps: the latest value delivered, the on-time, start, length and number of the current frame, the start of
the next one and whether its window is already formed, deferred into the next period, moved earlier or moved later, the windows not ended, the
normal drive with its dead time, the drive delivered with its dead time, the level at the pin, the trip, force and
parking in force, whether the frame being formed is parked, the time of the latest change of drive, the start of the latest MAIN of
the normal drive, whether the current frame's window was dropped, and MAIN or COMP with the time its latest interval ended
(R181 to R200, R213). -/
structure OutSt where
  val : Option UpdVal := none
  cur : Nat := 0
  frF : Time := 0
  frL : Nat := 0
  frK : Nat := 0
  nextF : Time := 0
  formed : Bool := false
  deferred : Bool := false
  moved : Bool := false
  later : Bool := false
  wins : List Win := []
  inserted : Bool := false
  insBase : Nat := 0
  nd : Drive := .off
  ndDt : Option (Time × Drive) := none
  out : Drive := .off
  outDt : Option (Time × Drive) := none
  special : Bool := true
  level : Level := .mid
  lastOn : Time := 0
  tripped : Bool := false
  force : Option Drive := none
  parked : Bool := false
  parkNext : Bool := false
  lastCh : Time := 0
  mainAt : Time := 0
  dropped : Bool := false
  ended : Option (Drive × Time) := none
  deriving DecidableEq, Repr

/-- A force that waits (R196): the two FORCE fields, its time (of its arrival while it waits for a boundary), whether it waits for a
boundary, whether it is late, and the time at which it takes effect (R25). -/
structure PendForce where
  fa : Nat
  fb : Nat
  time : Time
  boundary : Bool
  late : Bool := false
  eff : Time := time
  deriving DecidableEq, Repr

/-- What a timer keeps: the period number, the length of the period in progress, a start that waits, a TIM_ADJ that waits with
its arrival, the occurrence counts of the four events, the time of the next PERIOD, the forces that wait in arrival order, its
schedule under SYNC = TIE, the grid origin under SYNC = PIN, and for the period in progress the schedule before it and its
adjustment (R180 to R203). -/
structure TimSt where
  k : Nat := 0
  p : Nat := 0
  startAt : Option Time := none
  wantStart : Option Time := none
  adj : Option (Int × Time) := none
  cntZero : Nat := 0
  cntPeriod : Nat := 0
  cntA : Nat := 0
  cntB : Nat := 0
  periodT : Option Time := none
  forces : List PendForce := []
  sched : Sched := {}
  grid : Option Time := none
  sched0 : Sched := {}
  adjIn : Int := 0
  deriving DecidableEq, Repr

/-- A value on its way to an output's update arbiter (R188), from a slot or group, or from a rail. -/
structure PendUpd where
  out : Nat
  val : UpdVal
  rail : Bool
  deriving DecidableEq, Repr

/-- A measured edge whose search window is open (R221): its commanded time and level. -/
structure WitEdge where
  t : Time
  level : Level
  deriving DecidableEq, Repr

/-- A transition the witness has observed and not yet judged (R220, R221): a Milepost time, the picoseconds after it, and the level
reached. -/
structure WitTr where
  base : Time
  ps : Int
  level : Level
  deriving DecidableEq, Repr

/-- What the witness keeps of an output (R220 to R222): the edges whose search windows are open, the transitions not yet judged,
the unmeasured changes that still matter, the latest commanded change, the commanded time of the edge that declared a fault, and
the times of the extra transitions that count at a coming edge. -/
structure WitSt where
  edges : List WitEdge := []
  trs : List WitTr := []
  unmeasured : List Time := []
  lastCmd : Option Time := none
  tf : Time := 0
  extras : List Time := []
  deriving DecidableEq, Repr

/-- A bank's truing of delay lines (R204): the output, the instant of the end, the next output, the start of the lap in progress, and when the
next true may start. -/
structure LineTrue where
  subject : Option Nat := none
  doneAt : Time := 0
  next : Nat := 0
  lapStart : Option Time := none
  nextAt : Time := 0
  deriving DecidableEq, Repr

/-- What the rails keep of a phase (R211 to R217): its latest trim; its target position, and the targets that take effect at stated
times; whether it is joining or staying (some true), leaving (some false) or waits to join (none), and the changes of that at
stated times; whether it joins with the whole ramp factor; and the latest value of its rail, before its ramp. -/
structure PhSt where
  trim : Int := 0
  target : Nat := 0
  aims : List (Time × Nat) := []
  dir : Option Bool := none
  turns : List (Time × Bool) := []
  whole : Bool := false
  offer : Option UpdVal := none
  deriving DecidableEq, Repr

/-- A detour of a timer (R225 to R227): t_f, whether the state has been copied, whether the spare runs, t_s once the pins switch, the
words the spare's configuration had, the time of return, and the words the timer's own configuration had when its state came back. -/
structure DetSt where
  tf : Time := 0
  copied : Bool := false
  shadow : Bool := false
  ts : Option Time := none
  saved : List (Nat × Word) := []
  returnAt : Option Time := none
  back : List (Nat × Word) := []
  deriving DecidableEq, Repr

/-- A level crossing of a pin: its end and the level it drives (R225, R356). -/
structure Xing where
  endT : Time
  level : Level
  deriving DecidableEq, Repr


/-- What a load leaves in registers: nothing; a g register (a pair for SZ 3), sign-extended or not; an f register. -/
inductive Dest where
  | none
  | g (r : Nat) (sg : Bool) (size : Nat)
  | f (r : Nat) (size : Nat)
  deriving DecidableEq, Repr

/-- A memory access a core has made or waits for (R236, R257 to R261): address as the core gives it, bytes, store data, the
atomic operation with its rd and rb, destination, base register update, length of the instruction, and when it was issued. -/
structure MemReq where
  addr : Word
  len : Nat
  data : Option DWord := none
  amo : Option (AmoOp × Word × Word) := none
  dest : Dest := .none
  upd : Option (Nat × Word) := none
  ilen : Nat := 4
  since : Time := 0
  sent : Bool := false
  deriving DecidableEq, Repr

/-- What a store buffer entry is: a store of the program, or part of an exception frame with its vector (R297). -/
inductive SbKind where
  | plain
  | frame (vec : Nat)
  deriving DecidableEq, Repr

/-- A store buffer entry (R241): the address a core gives, its aligned 8-byte address in the 40-bit map, the byte mask, the data, and the
retired count of its store, by which the two cores of a pair are matched (R308). -/
structure SbEntry where
  core : Word
  addr : Nat
  mask : Nat
  data : DWord
  count : Nat
  kind : SbKind := .plain
  deriving DecidableEq, Repr

/-- A retire record (R307): PC, length, registers written with their new values, and the memory access. [Log 91 DEDUCED] -/
structure RetRec where
  num : Nat
  pc : Word
  len : Nat
  regs : List (Nat × DWord)
  mem : Option (Word × Nat × Option DWord)
  deriving DecidableEq, Repr

/-- A 64-byte line of the line buffer or the cache (R238, R240): its number, the bytes it holds, and the offsets of those whose code
was uncorrectable when the line was filled. -/
structure FetchLine where
  no : Nat
  bytes : List Byte
  bad : List Nat := []
  deriving DecidableEq, Repr

/-- A Wilium core (R230 to R249, R273, R293 to R316). The current level's g30 is the bank its STATUS.PL names.
[Log 7 DESIGN CHOICE, 87 DEDUCED] -/
structure CoreSt where
  /-- g1 to g29 and g31 (R230). -/
  g : Tab Word := []
  /-- The three banks of g30 (R233). -/
  spUser : Word := 0
  spKernel : Word := 0
  spSill : Word := 0
  /-- f0 to f31 (R231). -/
  f : Tab DWord := []
  status : Word := 1
  fcsr : Word := 0
  /-- The address of the next instruction. -/
  pc : Word := 0
  lctrl : Word := 0
  lstart : Tab Word := []
  lend : Tab Word := []
  lcount : Tab Word := []
  /-- Per-core system registers that differ from their reset values, by offset (R249, R316). -/
  sys : Tab Word := []
  /-- Entry records, newest first: PL and running priority left (R298). -/
  entries : List (Nat × Nat) := []
  /-- The deadline of the active section (R302). -/
  atom : Option Time := none
  /-- The store buffer, oldest first (R241). -/
  sb : List SbEntry := []
  /-- The lines of the line buffer and of the cache, most recently used first (R238). -/
  lineBuf : List FetchLine := []
  cache : List FetchLine := []
  /-- Instructions retired since the release, and retire records the partner has not matched (R307). -/
  retired : Nat := 0
  unmatched : List RetRec := []
  lagSince : Time := 0
  /-- The access in progress, or held at the tollgate (R236, R308). -/
  req : Option MemReq := none
  /-- The imprecise BUSERRs that are due, with their addresses, oldest first (R292). -/
  busErr : List Word := []
  /-- An escalation that is due, met by a frame write: cause, vector being entered, address (R297, R305). -/
  escDue : Option (Nat × Nat × Word) := none
  /-- DIVZ, FPTRAP or SYSCALL due after its instruction: vector and INFO, and whether the instruction was at SILL (R292, R306). -/
  trapDue : Option (Nat × Nat) := none
  trapSill : Bool := false
  /-- The PC of a stepped instruction whose STEP is due (R304). -/
  stepDue : Option Word := none
  /-- A Sill request that is held (R305). -/
  sillHeld : Bool := false
  /-- DBG_CORE stops the core after its current instruction, and whether the core was asleep when it stopped (R422). -/
  haltReq : Bool := false
  asleep : Bool := false
  /-- PART has been executed and waits (R310); JOIN waits since a time (R311). -/
  parting : Bool := false
  joinSince : Option Time := none
  /-- The wait of the instruction in progress has been counted (R241, R242). -/
  waited : Bool := false
  /-- The high word of PERF_RET that a read of the low word latched, for the core itself and for the debug port (R7, R249). -/
  retHi : Option Word := none
  dbgHi : Option Word := none
  /-- An ORDERED access that was in flight when the pair was put in reset, with its agent: it still completes (R248). -/
  lost : Option (AgentId × MemReq) := none
  deriving DecidableEq, Repr

/-- What the tollgate of a pair has fixed for retired count N (R309). -/
inductive DecKind where
  | line
  | deadline
  deriving DecidableEq, Repr

/-- A lockstep pair: the decision fixed with its count, the cores that have acted on it and the line chosen, the line a RETE at a
count chains to, the counts at which an error of a buffered store is taken and at which a Sill request enters (R309), the time at which a mismatch was declared, whether the pair has stopped for it (R312, R313), and the retired
count at which DBG_CORE stops both cores (R422). -/
structure PairSt where
  decide_ : Option (DecKind × Nat) := none
  acted : List Nat := []
  chosen : Option Nat := none
  chain : Option (Nat × Option Nat) := none
  errAt : Option Nat := none
  sillAt : Option Nat := none
  declared : Option Time := none
  stopped : Bool := false
  haltAt : Option Nat := none
  deriving DecidableEq, Repr


/-- A time-stamped action of a thread (R328, R329): a DRV of a level on a pin, an SMP of a pin, an ESTART of an engine. -/
inductive ActKind where
  | drv (pin : Nat) (level : Nat)
  | smp (pin : Nat)
  | estart (eng : Nat)
  deriving DecidableEq, Repr

/-- A queued action: its target and the start of the issue slot that made it. -/
structure Act where
  kind : ActKind
  target : Time
  issued : Time
  deriving DecidableEq, Repr

/-- What a thread keeps beside its registers (R320 to R338): flags in the places of STATUS, schedule, queued actions, the staged
record with its channel, the open record with its channel and the words read, an access in progress, what a HALT, a STEP or a RESET waits for, and
the result of a sample taken. -/
structure ThrSt where
  flags : Word := 0
  sched : Option Sched := none
  acts : List Act := []
  staging : Option (Nat × List Word) := none
  reading : Option (Nat × List Word × Nat) := none
  req : Option MemReq := none
  haltReq : Bool := false
  resetReq : Bool := false
  stepping : Bool := false
  sample : Option (Option Bool) := none
  deriving DecidableEq, Repr

/-- A channel: its visible records, oldest first (R333, R334). -/
structure ChanSt where
  visible : List (List Word) := []
  deriving DecidableEq, Repr

/-- A ring: the record closed in the current rotation step with its channel and issue slot, the threads waiting in CH.OPEN in the
order of their issue, the gridlock condition at the previous evaluation, and whether GRIDLOCK is armed (R318, R333, R339). -/
structure RingSt where
  closing : Option (Nat × List Word × Nat) := none
  openQ : List Nat := []
  gridPrev : Bool := false
  gridArmed : Bool := true
  deriving DecidableEq, Repr


/-- What a pin keeps: the level its thread's latest action drives, the receiver's level, since when that differs from the
filtered level, and, newest first, the changes of the filtered level and of the level its function sees, IDLE_IN during a crossing
(R328, R344, R356, R358). -/
structure PinSt where
  thr : Level := .hiz
  raw : Bool := false
  since : Option Time := none
  hist : List (Time × Bool) := []
  seen : List (Time × Bool) := []
  deriving DecidableEq, Repr

/-- An operation of the pin stage (R343): levels of the slots in a mask; direction bits; a TAKE cell of the slots from one; a copy
to CR; a STORE; a bank flag. -/
inductive PinOp where
  | levels (mask v : Nat)
  | dir (v : Nat)
  | take (slot : Nat)
  | toCr (v : Word)
  | store
  | flag (idx : Nat) (v : Bool)
  deriving DecidableEq, Repr

/-- A queued pin-stage operation: its time and the time at which it reached the pin stage. -/
structure StageOp where
  t : Time
  queued : Time
  op : PinOp
  deriving DecidableEq, Repr

/-- What a pin engine keeps beside its registers (R342 to R351): engine time in 1/256 ns, the two FIFOs, the pin-stage queue, the
cells of the current SEND or TAKE that are queued, and a start that is due: T, whether it is a RESTART, and the command's arrival. -/
structure EngSt where
  et : BitVec 66 := 0
  tx : List Word := []
  rx : List Word := []
  q : List StageOp := []
  cells : Nat := 0
  start : Option (Time × Bool × Time) := none
  deriving DecidableEq, Repr


/-- An entry of the error log (R374): its four words. -/
structure ErrEntry where
  w0 : Word
  w1 : Word
  w2 : Word
  w3 : Word
  deriving DecidableEq, Repr

/-- A scrub pass in progress (R379): the range and spacing taken at START, the address of the next block, the instant of
the start and of the next read, and the errors found. -/
structure Pass where
  base : Nat
  len : Nat
  spacing : Nat
  pos : Nat
  startT : Time
  nextT : Time
  ce : Nat := 0
  ue : Nat := 0
  deriving DecidableEq, Repr

/-- A DMA channel (R380 to R388): the descriptor in force, whether it was chained, whether it runs downward, the bytes read and
not yet written, in transfer order, the bytes read so far, whether HALF has been raised, whether its latest write beat waits for the
Ledger, the end in ERROR that waits for that beat (cause, address, write side), the bits in error of buffered bytes by the
number of the byte, and since when its next source beat is awaited (R402). -/
structure DmaSt where
  src : Nat := 0
  dst : Nat := 0
  len : Nat := 0
  ctl : Nat := 0
  cpl : Bool := false
  next : Nat := 0
  chained : Bool := false
  down : Bool := false
  buf : List Byte := []
  read : Nat := 0
  half : Bool := false
  held : Bool := false
  ending : Option (Nat × Nat × Bool) := none
  flips : Tab Nat := []
  since : Time := 0
  rdTurn : Nat := 0
  wrTurn : Nat := 0
  deriving DecidableEq, Repr

/-- A tie-link frame that waits for its acknowledgement (R412): sequence, type, destination position, body, the times it has
been sent, and when it is sent again. -/
structure TieFrame where
  seq : Nat
  typ : Nat
  peer : Nat
  body : List Byte
  sends : Nat := 1
  nextAt : Time
  deriving DecidableEq, Repr

/-- What a hop keeps (R412, R415): its consecutive good frames and when the last one arrived. -/
structure HopSt where
  good : Nat := 0
  last : Time := 0
  deriving DecidableEq, Repr

/-- The tie link (R411 to R419): the two hops (0 to the next device, 1 from the previous one), the departure of the latest
ECHO_REQ on each pair, the measured delay d in fine ticks, the next times of ECHO and SYNC, the time of the latest SYNC, the run of
SYNCs within the tolerance, the frames not acknowledged, the next sequence number, the latest frames received, as position and sequence, newest first, when each peer was last heard, the
start of the remote access, its target and whether it writes, the addresses of the accesses of peers that wait for the Ledger, whether
any plan has applied, and whether a SYNC has loaded the Milepost. -/
structure TieSt where
  hop0 : HopSt := {}
  hop1 : HopSt := {}
  echo0 : Option Time := none
  echo1 : Option Time := none
  delay : Int := 0
  echoAt : Time := 0
  syncAt : Time := 0
  lastSync : Time := 0
  run : Nat := 0
  unacked : List TieFrame := []
  seq : Nat := 0
  recvd : List (Nat × Nat) := []
  heard : Tab Time := []
  raSince : Time := 0
  raPeer : Nat := 0
  raWrite : Bool := false
  raHeld : Tab Nat := []
  planned : Bool := false
  synced : Bool := false
  deriving DecidableEq, Repr

/-- What a host ring keeps for its messages (R405): records written since the last message, and when the first of them was. -/
structure RingIrq where
  count : Nat := 0
  since : Time := 0
  deriving DecidableEq, Repr

/-- What the fault manager keeps (R436, R437): FAULT_N held by an occurrence, the ball held low by another device, whether
EXT_FAULT is armed, and when the device last released the ball. -/
structure FaultSt where
  held : Bool := false
  extLow : Bool := false
  extArmed : Bool := true
  relT : Time := 0
  deriving DecidableEq, Repr

/-- What the supply die keeps (R441 to R445): the domains whose power ramps, those that wait for a ramp, when each rail left its
tolerance with the rails reported since, whether THERM_WARN has been raised and THERM_TRIP's condition holds, the VCORE set value
on its slew, since when VIN stands above 105 % of the threshold, whether VIN_FAIL is armed, whether it has tripped, and the VIO
levels on their way, and when each domain's rail came up. -/
structure SupplySt where
  ramping : List Nat := []
  rampWait : List Nat := []
  railOut : Tab Time := []
  railTold : List Nat := []
  warned : Bool := false
  tripHeld : Bool := false
  vcoreSet : Nat := 750
  vinSince : Option Time := none
  armed : Bool := false
  failed : Bool := false
  vioMove : Tab Time := []
  upAt : Tab Time := []
  deriving DecidableEq, Repr

/-- What dual consent keeps (R431 to R433): the end of the window of the proposal in force. -/
structure ConsentSt where
  until_ : Time := 0
  deriving DecidableEq, Repr

/-- The device: everything but the queue of waiting commands. -/
structure Dev where
  /-- Register words that differ from their reset value, by key (R6). -/
  regs : Tab Word := []
  /-- What the bus answered to the latest access (the model's own field). -/
  answer : Answer := .none
  /-- What the latest command sent out of the device (the model's own field). -/
  sent : List OutMsg := []
  /-- Low words written and held per agent and register (R7). -/
  halfW : Tab Word := []
  /-- High words latched by a read of the low word, per agent and register (R7). -/
  halfR : Tab Word := []
  /-- GRP_SELECT per agent and block (R39). -/
  sel : Tab Word := []
  /-- Commit groups by 256 · block + group (R36). -/
  groups : Tab Grp := []
  /-- The pending global commit (R45). -/
  gc : Option GlobalCommit := none
  /-- The pending snapshot (R48). -/
  snap : Option Snapshot := none
  time : Timebase := {}
  led : LedgerSt := {}
  /-- LIVE writes waiting for their safe point (R49), oldest first. -/
  livePend : List LivePend := []
  /-- Events on their way to the Junction (R395, R396), oldest first. -/
  events : List Raised := []
  /-- Occurrences on their way to the fault manager (R434), oldest first. -/
  faults : List FaultOcc := []
  /-- The number of free values drawn so far (the model's own field). -/
  freeCount : Nat := 0
  /-- On-chip memories and DRAM by 40-bit address (R364); an unlisted byte reads 0. -/
  mem : List Host.Cell := []
  /-- Bytes (on chip) or aligned words (DRAM) whose code holds an error: 1 corrected, 2 uncorrectable (R366, R371). -/
  ecc : Tab Nat := []
  /-- Records waiting for the host rings, oldest first (R405). -/
  hostQ : List HostRec := []
  /-- Milepost of the first record lost, per ring (R407). -/
  hostLost : Tab Time := []
  /-- How far the supply has come up (R67). -/
  phase : SupplyPhase := .off
  /-- The cut list loader at work (R78). -/
  loader : Option Loader := none
  /-- The flash and the journal (R71, R83). -/
  flash : FlashSt := {}
  /-- The latest 32 supply samples, newest first (R91). -/
  samples : List SupplySample := []
  /-- The power loss in progress (R87). -/
  loss : Option PowerLoss := none
  /-- The newest truing result of each item since power-on, as the body of its CALIB entry (R114, R131, R206). -/
  trued : Tab (List Byte) := []
  /-- ADC channels 0 to 95 (R94 to R111). -/
  adcs : Tab AdcSt := []
  /-- Truing of ADC halves 0 to 11 (R112, R113). -/
  adcHalves : Tab AdcHalf := []
  /-- Comparators 0 to 191 (R117 to R130). -/
  comps : Tab CompSt := []
  /-- The self-test of comparator blocks 0 and 1 (R128 to R132). -/
  compBlks : Tab CompBlk := []
  /-- Loop slots 0 to 31 (R136 to R168). -/
  slots : Tab SlotSt := []
  /-- Competition groups 0 to 7 (R151 to R153). -/
  compGroups : Tab GroupSt := []
  /-- The slice detour in progress (R167). -/
  sliceDet : Option SliceDet := none
  /-- Slice returns that wait for their time: slice and time (R171). -/
  sliceRet : List (Nat × Time) := []
  /-- The spare slice's latest test (R170). -/
  spareTestT : Time := 0
  /-- Trace units 0 to 3 (R172 to R175). -/
  traces : Tab TrcSt := []
  /-- Timers 0 to 47 (R180 to R203). -/
  tims : Tab TimSt := []
  /-- Outputs 0 to 95 (R181 to R200). -/
  outs : Tab OutSt := []
  /-- Values on their way to the update arbiters, oldest first (R188). -/
  updQ : List PendUpd := []
  /-- The witness, by output (R220). -/
  wits : Tab WitSt := []
  /-- Truing of the delay lines, by bank, and the outputs whose lines wait to change roles, with the end of the true (R204). -/
  lineTrue : Tab LineTrue := []
  lineSwap : Tab Time := []
  /-- Lines that failed: 2 · output + line (R205). -/
  lineFailed : List Nat := []
  /-- Timer triggers on their way to ADC channels: channel and event time (R101). -/
  adcTrig : List (Nat × Time) := []
  /-- The grid origins a tie-link plan gave timers (R203, R416). -/
  planT0 : Tab Time := []
  /-- The hardwired path holds every output at its safe state (R87, R445). -/
  hardSafe : Bool := false
  /-- Pins released by SAFE_REL that wait for a frame start (R436). -/
  safeRel : List Nat := []
  /-- The phases (R209 to R217). -/
  phs : Tab PhSt := []
  /-- The active lists of the rails, in list order (R211). -/
  rails : Tab (List Nat) := []
  /-- Detours, by timer (R225). -/
  dets : Tab DetSt := []
  /-- Level crossings in progress, by pin (R225, R356). -/
  xings : Tab Xing := []
  /-- The cores (R230). -/
  cores : Tab CoreSt := []
  /-- The pairs (R307). -/
  pairs : Tab PairSt := []
  /-- Threads 0 to 63, channels 0 to 127, rings 0 and 1 (R317). -/
  thrs : Tab ThrSt := []
  chans : Tab ChanSt := []
  rings : Tab RingSt := []
  /-- The pins (R354). -/
  pins : Tab PinSt := []
  /-- The pin engines (R342). -/
  engs : Tab EngSt := []
  /-- The changes of the bank flags, newest first, by 8 · bank + flag (R344). -/
  flagHist : Tab (List (Time × Bool)) := []
  /-- The error log, oldest first (R374). -/
  errLog : List ErrEntry := []
  /-- ECC_CORR_LIMIT is armed (R375). -/
  ceArmed : Bool := true
  /-- The next block of the IDLE scrub and the start of its lap (R378). -/
  scrubPos : Nat := 0
  lapStart : Time := 0
  /-- The scrub pass in progress (R379). -/
  pass : Option Pass := none
  /-- Retirement copies in progress: RETIRE entry, the word written and its writer (R368). -/
  retiring : List (Nat × Word × AgentId) := []
  /-- Domains whose rail is up, whether or not they are ready yet (R441). -/
  domUp : List Nat := []
  /-- The DMA channels (R380). -/
  dmas : Tab DmaSt := []
  /-- The tie link (R411). -/
  tie : TieSt := {}
  /-- The host rings' messages (R405). -/
  ringIrqs : Tab RingIrq := []
  /-- The telemetry schedule, while it runs (R408). -/
  telSched : Option Sched := none
  /-- Words of the MSI-X table and of the pending-bit array that are not zero, by offset in HOST (R424). -/
  msix : Tab Word := []
  /-- The TAP's instruction and its boundary register, pin by pin (R420). -/
  tapIr : Nat := 0
  tapBsr : Tab Nat := []
  /-- The core that the latest write of DBG_CORE named (R421). -/
  dbgCore : Nat := 0
  /-- The fault manager (R434). -/
  fm : FaultSt := {}
  /-- The supply die (R441). -/
  sup : SupplySt := {}
  /-- Dual consent (R431). -/
  cons : ConsentSt := {}
  deriving DecidableEq, Repr

/-- The machine: the device and the queue of the commands that wait, first in, first out. -/
structure State where
  dev : Dev := {}
  pending : List Instr := []
  deriving DecidableEq, Repr

/-- The reasons for which a step would stop with a fault. -/
inductive Fault where
  /-- Raised by no meaning: every fault the spec describes is a next state (BUSERR, a reject record, an exception, a thread
  or engine stop). Safe. -/
  | unreached
  deriving DecidableEq, Repr

/-- The reasons for which a step is refused. -/
inductive Refusal where
  /-- Raised by an arm of exec for a command that has no meaning yet. Safe: nothing can be proved of its effect. -/
  | notModelled (mnemonic : String)
  deriving DecidableEq, Repr

/-- The device right after power-on reset (R13, R56, R67): VIN has just risen and the insertion wait begins; every register is at its
reset value, the Milepost is 0 and does not count, the memories are empty, and the Ledger holds its first record.
[Log 7 DESIGN CHOICE, 141 PRESUMED] -/
def Dev.powerOn : Dev :=
  { regs := [(LEDGER.LG_STATUS, 1), (LEDGER.LG_NEXT_SEQ, 1)]
    led := { chip := [{ kind := .system, flags := 3, origin := 0x0600, time := 0, block := 0x01, off := 0, new := 0, old := 0 }] }
    phase := .insertion }

/-- The machine right after power-on reset, with no command waiting.
[Log 3 DESIGN CHOICE, 7 DESIGN CHOICE, 38 DEDUCED, 60 DESIGN CHOICE, 81 DESIGN CHOICE, 141 PRESUMED] -/
def State.reset : State := { dev := Dev.powerOn }


end Sys2Proof.Machine
end

