-- ==== Sys2Proof/Machine/Ops.lean ====
section
/-!
DEFINITION. Machine/Ops.lean: the operations every unit shares: register words and fields, the Ledger (R53 to R63), events
on their way to the Junction (R395), occurrences on their way to the fault manager (R434), late actions (R25), periodic
schedules (R28), bytes of memory, the protection map (R427, R428), and the abort of a claim (R38).
-/
namespace Sys2Proof.Machine

/-! ### Registers -/

/-- A register word found in the tables: the register, its two indices and whether it is the high word. -/
structure RegHit where
  r : RegD
  i : Nat
  j : Nat
  hiWord : Bool
  deriving DecidableEq, Repr

/-- The register whose word lies at offset `o` of a block. -/
def findReg : List RegD → Nat → Option RegHit
  | [], _ => none
  | r :: t, o =>
    let x := o - r.off
    let i := if r.cnt = 1 then 0 else x / r.stride
    let y := x - i * r.stride
    if o < r.off ∨ i ≥ r.cnt then findReg t o
    else if r.cnt2 = 1 then
      if y = 0 then some ⟨r, i, 0, false⟩
      else if r.wide ∧ y = 4 then some ⟨r, i, 0, true⟩
      else findReg t o
    else if y % r.stride2 = 0 ∧ y / r.stride2 < r.cnt2 then some ⟨r, i, y / r.stride2, false⟩
    else findReg t o

/-- The register at a key; none where the block has no register at that offset. -/
def regHit (a : Nat) : Option RegHit := findReg (blockRegs (a / 0x10000)) (a % 0x10000)

/-- The bits of a register that show a strap (R33, R454). -/
def strapBits (a : Nat) : Word :=
  if a = MILEPOST.MP_CTRL then (if Config.strapRef100 then 1 else 0)
  else if a = MILEPOST.PACE_STATUS then (if Config.strapVcoreExt then 0x4000 else 0)
  else if a = SUPPLY.SUP_STATUS then
    (if Config.strapTestEn then 8 else 0) ||| (if Config.strapIoExt then 4 else 0) ||| (if Config.strapVcoreExt then 2 else 0)
  else 0

/-- The reset value of the register word at a key. -/
def regReset (a : Nat) : Word :=
  match regHit a with
  | none => 0
  | some h =>
    if a / 0x10000 = 0x3F ∧ a % 0x10000 ≥ 8 then Config.fused (a % 0x10000)
    else if a / 0x10000 = 0x0A ∧ h.r.off = 0x20 then BitVec.ofNat 32 h.i
    else BitVec.ofNat 32 (if h.hiWord then h.r.reset / 2 ^ 32 else h.r.reset) ||| strapBits a

/-- The register word at a key. -/
def Dev.reg (d : Dev) (a : Nat) : Word := Tab.get (regReset a) a d.regs

/-- The device with a register word set. -/
def Dev.setReg (d : Dev) (a : Nat) (v : Word) : Dev := { d with regs := Tab.set (regReset a) a v d.regs }

/-- A 64-bit register (R7): low word first. -/
def Dev.reg64 (d : Dev) (a : Nat) : DWord := (d.reg (a + 4)) ++ (d.reg a)

/-- The device with a 64-bit register set. -/
def Dev.setReg64 (d : Dev) (a : Nat) (v : DWord) : Dev :=
  (d.setReg a (v.setWidth 32)).setReg (a + 4) ((v >>> 32).setWidth 32)

/-- A register word as a number. -/
def Dev.num (d : Dev) (a : Nat) : Nat := (d.reg a).toNat

/-- The device with a register word set from a number. -/
def Dev.setNum (d : Dev) (a : Nat) (n : Nat) : Dev := d.setReg a (BitVec.ofNat 32 n)

/-- A field as a number. -/
def Dev.fld (d : Dev) (f : Fld) : Nat := bitsOf (d.num f.addr) f.hi f.lo

/-- The device with a field set. -/
def Dev.setFld (d : Dev) (f : Fld) (v : Nat) : Dev := d.setNum f.addr (putBits (d.num f.addr) f.hi f.lo v)

/-- A single-bit field. -/
def Dev.flag (d : Dev) (f : Fld) : Bool := d.fld f != 0

/-- A field counted up by one, saturating at its largest value. -/
def Dev.incFld (d : Dev) (f : Fld) : Dev := d.setFld f (satInc (2 ^ (f.hi + 1 - f.lo) - 1) (d.fld f))

/-- A whole-word counter counted up by one, saturating. -/
def Dev.incNum (d : Dev) (a : Nat) : Dev := d.setNum a (satInc 0xFFFFFFFF (d.num a))

/-- A whole-word counter counted up by one, wrapping. -/
def Dev.wrapNum (d : Dev) (a : Nat) : Dev := d.setReg a (d.reg a + 1)

/-- Bits of a word set. -/
def Dev.orReg (d : Dev) (a : Nat) (m : Word) : Dev := d.setReg a (d.reg a ||| m)

/-- Bits of a word cleared. -/
def Dev.clrReg (d : Dev) (a : Nat) (m : Word) : Dev := d.setReg a (d.reg a &&& ~~~m)

/-- Bit `i` of a bitmap that starts at word `a`. -/
def Dev.mapBit (d : Dev) (a i : Nat) : Bool := bitOf (d.num (a + 4 * (i / 32))) (i % 32)

/-- A bit of a bitmap that starts at word `a`, set to `b`. -/
def Dev.setMapBit (d : Dev) (a i : Nat) (b : Bool) : Dev :=
  d.setNum (a + 4 * (i / 32)) (putBits (d.num (a + 4 * (i / 32))) (i % 32) (i % 32) (b2n b))

/-- Every register of a block back at its reset value. -/
def Dev.resetBlock (d : Dev) (b : Nat) : Dev := { d with regs := d.regs.filter (fun p => p.1 / 0x10000 ≠ b) }

/-- A value the spec leaves open, drawn anew (log entry 3). [Log 3 DESIGN CHOICE] -/
def Dev.draw (d : Dev) : DWord × Dev := (Config.freeValue d.freeCount, { d with freeCount := d.freeCount + 1 })

/-- The key of a group: 256 · block + group number. -/
def grpKey (block g : Nat) : Nat := 256 * block + g

/-! ### Register fields by access code -/

/-- The bits of a register's word that lie in fields of some access codes. -/
def RegHit.mask (h : RegHit) (p : Acc → Bool) : Nat :=
  let m := h.r.fields.foldl (fun m f => if p f.acc then m + (2 ^ (f.hi + 1) - 2 ^ f.lo) else m) 0
  if h.hiWord then m / 2 ^ 32 else m % 2 ^ 32

/-- The word is one of STG fields (R36). -/
def RegHit.stg (h : RegHit) : Bool := h.r.fields.any fun f => f.acc = .stg

/-- The commit group of a word of STG fields. -/
def RegHit.group (h : RegHit) : Nat := h.r.grp + h.i / h.r.per

/-- The key of the commit group a word belongs to. -/
def groupOf (a : Nat) : Option Nat :=
  match regHit a with
  | some h => if h.stg then some (grpKey (a / 0x10000) h.group) else none
  | none => none

/-! ### Time -/

/-- The Milepost. -/
def Dev.now (d : Dev) : Time := d.time.milepost

/-- The Milepost as a plain read shows it: whole nanoseconds (R5). -/
def Dev.nowNs (d : Dev) : Time := floorNs d.now

/-- The time a target names has been reached. [Log 1 DESIGN CHOICE, 19 DESIGN CHOICE] -/
def Dev.due (d : Dev) (t : Time) : Bool := reached t d.now

/-- A late action applied by a block (R25). -/
def Dev.lateAct (d : Dev) (block : Nat) (target applied : Time) : Dev :=
  let d := d.incNum MILEPOST.LATE_COUNT
  let d := d.setReg64 MILEPOST.LATE_LAST target
  let d := d.setNum MILEPOST.LATE_SRC (block * 0x10000 + min 0xFFFF (lateness target applied / 64))
  d.setFld MILEPOST.MP_FLAGS_LATE 1

/-- The occurrence of a schedule applied at `applied`: the schedule's next state and whether SCHEDULE_BEHIND is raised
(R28, R29). [Log 99 DEDUCED] -/
def Sched.advance (s : Sched) (catchup behind : Nat) (applied : Time) : Sched × Bool :=
  let g := s.t0 + BitVec.ofNat 64 (s.k * s.p)
  let dk := lateness g applied
  let c := s.p * catchup / 256
  let s' : Sched :=
    if catchup = 0 then
      { s with t0 := applied - BitVec.ofNat 64 (s.k * s.p), k := s.k + 1, target := applied + BitVec.ofNat 64 s.p }
    else { s with k := s.k + 1, target := g + BitVec.ofNat 64 s.p + BitVec.ofNat 64 (dk - c) }
  let fire := decide (behind ≠ 0) && decide (dk > behind * s.p) && s.armed
  ({ s' with armed := if dk = 0 then true else s.armed && !fire }, fire)

/-! ### Events and occurrences -/

/-- An event raised to the Junction, stamped with the whole nanosecond of its arrival (R396). -/
def Dev.raiseV (d : Dev) (id : Nat) (value : Half) (agent : AgentId) : Dev :=
  { d with events := d.events ++ [{ id := id, value := value, agent := agent, stamp := d.nowNs }] }

/-- An event that carries no value. -/
def Dev.raise (d : Dev) (id : Nat) : Dev := d.raiseV id 0 0xFFFF

/-- An occurrence reported to the fault manager, stamped with the whole nanosecond (R5, R434). -/
def Dev.report (d : Dev) (src unit : Nat) : Dev :=
  { d with faults := d.faults ++ [{ src := src, unit := unit, stamp := d.nowNs }] }

/-! ### Bytes of memory -/

/-- The byte at a 40-bit address; one never written reads 0 (R366; for DRAM log entry 5). [Log 5 DESIGN CHOICE] -/
def Dev.byte (d : Dev) (a : Nat) : Byte := Tab.get 0 a d.mem

/-- The memory with one byte stored. -/
def Dev.setByte (d : Dev) (a : Nat) (b : Byte) : Dev := { d with mem := Tab.set 0 a b d.mem }

/-- `n` bytes from an address. [Log 5 DESIGN CHOICE] -/
def Dev.bytes (d : Dev) : Nat → Nat → List Byte
  | _, 0 => []
  | a, n + 1 => d.byte a :: d.bytes (a + 1) n

/-- Bytes stored from an address. -/
def Dev.setBytes (d : Dev) : Nat → List Byte → Dev
  | _, [] => d
  | a, b :: t => (d.setByte a b).setBytes (a + 1) t

/-- The bytes of a range all zero, with valid check bits (R366). -/
def Dev.zeroRange (d : Dev) (base size : Nat) : Dev :=
  { d with
    mem := d.mem.filter (fun p => p.1 < base ∨ base + size ≤ p.1)
    ecc := d.ecc.filter (fun p => p.1 < base ∨ base + size ≤ p.1) }

/-! ### The host rings' queue (R405 to R407) -/

/-- A record placed in the queue, whatever room there is. -/
def Dev.hostPush (d : Dev) (r : HostRec) : Dev := { d with hostQ := d.hostQ ++ [r] }

/-- A record that finds the queue full (R407). -/
def Dev.hostLose (d : Dev) (r : HostRec) : Dev :=
  let first := d.num (HOST.RING_STATUS r.ring) = 0
  let d1 := if first then { d with hostLost := Tab.set 0 r.ring r.time d.hostLost }.raise 1194 else d
  d1.incNum (HOST.RING_STATUS r.ring)

/-- The OVERFLOW record of a ring (R404, R407). -/
def Dev.overflowRec (d : Dev) (ring : Nat) : HostRec :=
  { ring := ring, typ := 4, event := 0xFFFD, agent := 0xFFFF, time := d.nowNs
    payload := toBytes 4 (d.num (HOST.RING_STATUS ring)) ++ toBytes 8 (Tab.get 0 ring d.hostLost).toNat ++ toBytes 4 0 }

/-- A record for a host ring: discarded at a disabled ring, merged into an unwritten EVENT record of its ID, lost at a full
queue, or placed, after the OVERFLOW record its ring owes (R405 to R407). -/
def Dev.hostEnqueue (d : Dev) (r : HostRec) : Dev :=
  if d.fld (HOST.RING_CTRL_EN r.ring) = 0 then d.incNum HOST.DROPPED
  else if r.typ = 1 ∧ d.hostQ.any (fun q => q.ring = r.ring ∧ q.typ = 1 ∧ q.event = r.event) then
    { d with hostQ := d.hostQ.map (fun q =>
        if q.ring = r.ring ∧ q.typ = 1 ∧ q.event = r.event then { q with merged := satInc 0xFFFF q.merged } else q) }
  else if d.hostQ.length ≥ 2048 then d.hostLose r
  else if d.num (HOST.RING_STATUS r.ring) ≠ 0 then
    let d := d.hostPush (d.overflowRec r.ring)
    let d : Dev := { d.setNum (HOST.RING_STATUS r.ring) 0 with hostLost := Tab.set 0 r.ring 0 d.hostLost }
    if d.hostQ.length ≥ 2048 then d.hostLose r else d.hostPush r
  else d.hostPush r

/-! ### The Ledger -/

/-- The Ledger's target is DRAM (R57). -/
def Dev.lgDram (d : Dev) : Bool := d.fld LEDGER.LG_CTRL_TARGET = 1

/-- The 32 bytes of a record (R55, R56). -/
def Record.bytes (r : Record) : List Byte :=
  let b := toBytes 4 r.seq.toNat ++ [BitVec.ofNat 8 r.kind.code, r.flags] ++ toBytes 2 r.origin.toNat ++ toBytes 8 r.time.toNat
    ++ [r.block, 0] ++ toBytes 2 r.off.toNat ++ toBytes 4 r.new.toNat ++ toBytes 4 r.old.toNat ++ toBytes 2 r.cseq.toNat
  b ++ toBytes 2 (crc16 b)

/-- The DRAM address of a sequence number's place in the ring (R57). -/
def Dev.ringAddr (d : Dev) (seq : Word) : Nat := (d.reg64 LEDGER.LG_RING_BASE).toNat % 2 ^ 40 + 32 * (seq.toNat % 2 ^ 24)

/-- The record with a sequence number, if it is on chip. -/
def Dev.onChip (d : Dev) (seq : Word) : Option Record := d.led.chip.find? (fun r => r.seq = seq)

/-- The oldest buffered record written to the DRAM ring (R57). -/
def Dev.drainOne (d : Dev) : Dev :=
  let occ := d.fld LEDGER.LG_STATUS_OCC
  if occ = 0 then d
  else
    let seq := d.reg LEDGER.LG_NEXT_SEQ - BitVec.ofNat 32 occ
    let d := match d.onChip seq with
      | some r => d.setBytes (d.ringAddr seq) r.bytes
      | none => d
    (d.setFld LEDGER.LG_STATUS_OCC (occ - 1)).setReg LEDGER.LG_DRAINED_SEQ (seq + 1)

/-- The payload of a host mirror record (R63). -/
def Record.mirrorPayload (r : Record) : List Byte :=
  toBytes 4 r.seq.toNat ++ [BitVec.ofNat 8 r.kind.code, r.flags, r.block, 0] ++ toBytes 2 r.off.toNat ++ toBytes 2 r.cseq.toNat
    ++ toBytes 4 r.new.toNat

/-- A record copied to the host ring and to the NOR queue as the mirrors select (R62). -/
def Dev.mirror (d : Dev) (r : Record) : Dev :=
  let d :=
    if bitOf (d.fld LEDGER.LG_HOST_MIRROR_KINDS) (r.kind.code - 1) then
      d.hostEnqueue { ring := d.fld LEDGER.LG_HOST_MIRROR_RING, typ := 2, event := 0xFFFF, agent := r.origin, time := r.time
                      payload := r.mirrorPayload }
    else d
  if bitOf (d.fld LEDGER.LG_NOR_MIRROR_KINDS) (r.kind.code - 1) then
    if d.led.norQ.length ≥ 256 then d.incNum LEDGER.LG_NOR_DROPPED
    else { d with led := { d.led with norQ := d.led.norQ ++ [r] } }
  else d

/-- A record entered in the Ledger: it takes the next sequence number and a place on chip (R54, R61), and is mirrored. A
record that finds all 4,096 places of the DRAM buffer in use takes the next drained place. [Log 21 DEDUCED] -/
def Dev.enter (d : Dev) (r : Record) : Dev :=
  let d := if d.lgDram && decide (d.fld LEDGER.LG_STATUS_OCC ≥ 4096) then d.drainOne else d
  let r := { r with seq := d.reg LEDGER.LG_NEXT_SEQ }
  let d := { d with led := { d.led with chip := r :: d.led.chip } }
  let d := d.wrapNum LEDGER.LG_NEXT_SEQ
  let d := d.setFld LEDGER.LG_STATUS_OCC (satInc 4096 (d.fld LEDGER.LG_STATUS_OCC))
  d.mirror r

/-- A record of one register word, made by the change in progress. FIRST is 1, LAST 2, LATE 4 (R55). -/
def Dev.logAt (d : Dev) (t : Time) (k : RecKind) (flags : Nat) (origin : AgentId) (a : Nat) (new old : Word) (cseq : Half) : Dev :=
  { d with led := { d.led with fresh := d.led.fresh ++ [
      { kind := k, flags := BitVec.ofNat 8 flags, origin := origin, time := t, block := BitVec.ofNat 8 (a / 0x10000)
        off := BitVec.ofNat 16 a, new := new, old := old, cseq := cseq }] } }

/-- A record at the present time, in whole nanoseconds (R5), outside a commit. -/
def Dev.logRec (d : Dev) (k : RecKind) (flags : Nat) (origin : AgentId) (a : Nat) (new old : Word) : Dev :=
  d.logAt d.nowNs k flags origin a new old 0

/-- Records cut into runs, each ending with the record that carries LAST (R54). [Log 21 DEDUCED] -/
def runsOf : List Record → List (List Record)
  | [] => []
  | r :: t =>
    if bitOf r.flags.toNat 1 then [r] :: runsOf t
    else match runsOf t with
      | [] => [[r]]
      | u :: us => (r :: u) :: us

/-- The place of a run among the records of one instant: the block and offset of its first record (R54). -/
def runKey : List Record → Nat
  | [] => 0
  | r :: _ => r.block.toNat * 0x10000 + r.off.toNat

/-- Run `u` comes before run `v`: at an earlier instant, or at the same one by its place (R54). -/
def runBefore : List Record → List Record → Bool
  | x :: u, y :: v => before x.time y.time || (decide (x.time = y.time) && decide (runKey (x :: u) < runKey (y :: v)))
  | _, _ => false

/-- A run put in its place, after those already there that it does not come before. -/
def insertRun (u : List Record) : List (List Record) → List (List Record)
  | [] => [u]
  | v :: vs => if runBefore u v then u :: v :: vs else v :: insertRun u vs

/-- The runs of one command in the order of R54. [Log 21 DEDUCED] -/
def orderRuns (l : List Record) : List (List Record) := (runsOf l).foldl (fun acc u => insertRun u acc) []

/-- The runs among the latest `n` records of a list, newest first, that are not older than `t`: oldest first. [Log 21 DEDUCED] -/
def movable (t : Time) (n : Nat) (l : List Record) : List (List Record) :=
  match runsOf ((l.take n).takeWhile fun v => !before v.time t).reverse with
  | (x :: u) :: us => if bitOf x.flags.toNat 0 then (x :: u) :: us else us
  | us => us

/-- The latest `n` records of a list, newest first, are one run: the run and those that it may come before, put in the order of R54,
newest first. `occ` records have not been drained. -/
def placed (n occ : Nat) (l : List Record) : List Record :=
  match (l.take n).reverse with
  | [] => []
  | x :: u => (insertRun (x :: u) (movable x.time (occ - n) (l.drop n))).flatten.reverse

/-- Records numbered downward from `s` (R54). -/
def numbered (s : Word) : List Record → List Record
  | [] => []
  | r :: t => { r with seq := s } :: numbered (s - 1) t

/-- The on-chip records, newest first, with the run of the latest `n` in its place: sequence numbers follow the order of R54.
[Log 21 DEDUCED] -/
def inPlace (n occ : Nat) (l : List Record) : List Record :=
  let p := placed n occ l
  match l with
  | [] => []
  | r :: _ => if p.length = n then l else numbered r.seq p ++ l.drop p.length

/-- The sequence number a record has once a run is in its place. -/
def newSeq (n occ : Nat) (l : List Record) (s : Word) : Word :=
  match l with
  | [] => s
  | r :: t =>
    match (List.zip (placed n occ (r :: t)) (numbered r.seq (placed n occ (r :: t)))).find? fun p => p.1.seq = s with
    | some p => p.2.seq
    | none => s

/-- The bytes of a record in the journal's append queue with another sequence number. -/
def reseqBytes (f : Word → Word) (b : List Byte) : List Byte :=
  let c := toBytes 4 (f (BitVec.ofNat 32 (ofBytes (b.take 4)))).toNat ++ (b.drop 4).take 26
  c ++ toBytes 2 (crc16 c) ++ b.drop 32

/-- The agent ID under which the device records its own actions (R56). -/
def devAgent : AgentId := 0x0600

/-- The sequence numbers in the copies that the mirrors and the journal's queue still hold follow those on chip (R62, R84). -/
def Dev.reseq (d : Dev) (f : Word → Word) : Dev :=
  { d with
    hostQ := d.hostQ.map fun q =>
      if q.typ = 2 then { q with payload := toBytes 4 (f (BitVec.ofNat 32 (ofBytes (q.payload.take 4)))).toNat ++ q.payload.drop 4 } else q
    led := { d.led with norQ := d.led.norQ.map fun r => { r with seq := f r.seq } }
    flash := { d.flash with queue := d.flash.queue.map fun j =>
      if j.typ = .mirror ∨ (j.typ = .persist ∧ ofBytes ((j.body.drop 6).take 2) ≠ devAgent.toNat) then
        { j with body := reseqBytes f j.body } else j } }

/-- A run entered: record by record at the head, then put in its place among the records of its instant (R54). -/
def Dev.enterRun (d : Dev) (u : List Record) : Dev :=
  let e := u.foldl Dev.enter d
  let occ := e.fld LEDGER.LG_STATUS_OCC
  let l := e.led.chip
  let e := if (placed u.length occ l).length = u.length then e else e.reseq (newSeq u.length occ l)
  { e with led := { e.led with chip := inPlace u.length occ l } }

/-- The persisted group that a COMMIT record belongs to (R85). [Log 44 DEDUCED] -/
def Dev.persistGroup (d : Dev) (r : Record) : Option Nat :=
  if r.kind ≠ .commit then none
  else
    let b := r.block.toNat
    let k := if r.off = 0xFF08 then some (grpKey b r.new.toNat) else groupOf (b * 0x10000 + r.off.toNat)
    match k with
    | some k => if d.flash.persisted.contains k then some k else none
    | none => none

/-- The PERSIST entries of the records of persisted groups, each commit of a group marked FIRST to LAST (R84; log entry 44).
[Log 44 DEDUCED] -/
def persistEntries : Option (Half × Nat) → List (Nat × Record) → List JEntry
  | _, [] => []
  | prev, (k, r) :: rest =>
    let me := (r.cseq, k)
    let first := decide (prev ≠ some me)
    let last := match rest with | [] => true | (k', r') :: _ => decide ((r'.cseq, k') ≠ me)
    let fl : Byte := (r.flags &&& 0xFC) ||| BitVec.ofNat 8 (b2n first + 2 * b2n last)
    { typ := .persist, body := ({ r with flags := fl } : Record).bytes } :: persistEntries (some me) rest

/-- The commits of persisted groups among the records on chip from sequence `s` on, placed in the journal's append queue, each commit
once (R84). [Log 44 DEDUCED] -/
def Dev.persist (d : Dev) (us : List (List Record)) : Dev :=
  let l := us.flatten.filterMap fun r => (d.persistGroup r).map fun k => (k, r)
  if l.isEmpty then d else { d with flash := { d.flash with queue := d.flash.queue ++ persistEntries none l } }

/-- The run as it stands on chip: its records with their sequence numbers. -/
def Dev.onChipRun (d : Dev) (u : List Record) : List Record :=
  u.map fun r => { r with seq := ((d.led.chip.find? fun q => decide ({ q with seq := r.seq } = r)).getD r).seq }

/-- The records of the change in progress entered in the Ledger, and the commits of persisted groups among them queued for the
journal. [Log 21 DEDUCED] -/
def Dev.enterAll (d : Dev) : Dev :=
  let us := orderRuns d.led.fresh
  let e := us.foldl Dev.enterRun { d with led := { d.led with fresh := [] } }
  e.persist (us.map e.onChipRun)

/-- A SYSTEM record of the device for a register word: its value now against its old value. -/
def Dev.sysRec (d : Dev) (a : Nat) (old : Word) : Dev := d.logRec .system 3 devAgent a (d.reg a) old

/-- A LIVE record (R49). -/
def Dev.liveRec (d : Dev) (origin : AgentId) (a : Nat) (new old : Word) : Dev := d.logRec .live 3 origin a new old

/-- A REJECT record (R51). -/
def Dev.rejectRec (d : Dev) (origin : AgentId) (a : Nat) (new old : Word) (c : Cause) : Dev :=
  { d.logRec .reject (3 + 16 * c.code) origin a new old with answer := .rejected c }

/-- The two records of a 64-bit register (R7). -/
def Dev.recPair (d : Dev) (k : RecKind) (fl : Nat) (origin : AgentId) (a : Nat) (new old : DWord) : Dev :=
  (d.logRec k (1 + fl) origin a (new.setWidth 32) (old.setWidth 32)).logRec k (2 + fl) origin (a + 4)
    ((new >>> 32).setWidth 32) ((old >>> 32).setWidth 32)

/-- The changed words of one action of the fault manager or the loop engine, one FAULT_ACTION record each (R435). -/
def Dev.faultRec (d : Dev) (origin : AgentId) (a : Nat) (old : Word) : Dev := d.logRec .faultAction 3 origin a (d.reg a) old

/-! ### Truing results (R83, R114, R131, R206) -/

/-- The newest result of a trued item: the body of its CALIB entry, filled with 0xFF to 32 bytes. -/
def Dev.noteCalib (d : Dev) (block idx : Nat) (body : List Byte) : Dev :=
  let b := [BitVec.ofNat 8 block, BitVec.ofNat 8 idx] ++ body
  let key := block * 0x10000 + idx * 0x100 + (if block / 16 = 2 then (body.headD 0).toNat else 0)
  { d with trued := Tab.put key (b ++ List.replicate (32 - b.length) 0xFF) d.trued }

/-- The latest junction temperature as two bytes. -/
def Dev.tjBytes (d : Dev) : List Byte := toBytes 2 (d.num SUPPLY.MON_TJ)

/-! ### Commit groups -/

/-- A commit group. -/
def Dev.grp (d : Dev) (k : Nat) : Grp := Tab.get {} k d.groups

/-- A commit group set. -/
def Dev.setGrp (d : Dev) (k : Nat) (g : Grp) : Dev := { d with groups := Tab.set {} k g d.groups }

/-- A claim ended: the staging copy discarded and the group idle. GRP_AT keeps its value (R64). -/
def Grp.release (g : Grp) : Grp :=
  { g with st := .idle, owner := 0, claimT := 0, staged := [], goT := 0, target := 0, admitted := false }

/-- A group taken from a pending global commit and from its list (R164, R225). -/
def Dev.gcDrop (d : Dev) (k : Nat) : Dev :=
  match d.gc with
  | none => d
  | some x =>
    let ns := (List.range 64).filter fun n => decide (grpKey (d.fld (SYS.GC_LIST_BLOCK n)) (d.fld (SYS.GC_LIST_GROUP n)) = k)
    let d := if x.groups.contains k then ns.foldl (fun d n => d.setFld (SYS.GC_LIST_VALID n) 0) d else d
    { d with gc := some { x with groups := x.groups.filter (· ≠ k) } }

/-- The abort of a claim with its SYSTEM record (R38); the group leaves a pending global commit (R164, R225). -/
def Dev.abortGrp (d : Dev) (origin : AgentId) (k : Nat) : Dev :=
  let g := d.grp k
  let d := (d.setGrp k g.release).gcDrop k
  d.logRec .system 3 origin (k / 256 * 0x10000 + 0xFF0C) (BitVec.ofNat 32 g.staged.length) (BitVec.ofNat 32 (k % 256))

/-- The claims of a lost claimant aborted by the device; a commit already issued still applies (R38). -/
def Dev.abortClaims (d : Dev) (agent : AgentId) : Dev :=
  (d.groups.filter (fun p => p.2.st = .claimed ∧ p.2.owner = agent)).foldl (fun d p => d.abortGrp devAgent p.1) d

/-- The claim on a group, or its pending commit, aborted by an automatic action on one of its fields (R38, R435). -/
def Dev.abortForFault (d : Dev) (k : Nat) : Dev := if (d.grp k).st = .idle then d else d.abortGrp devAgent k

/-- The claims of one agent passed to another (R35). [Log 148 DESIGN CHOICE] -/
def Dev.passClaims (d : Dev) (old new : AgentId) : Dev :=
  { d with groups := d.groups.map (fun p => if p.2.st ≠ .idle ∧ p.2.owner = old then (p.1, { p.2 with owner := new }) else p) }

/-! ### The protection map -/

/-- The class of an agent ID (R427). -/
def classOf (a : AgentId) : Nat := a.toNat / 256

/-- The level a class holds on a block: 0 none, 1 read, 2 write (R427, R452). [Log 139 DEDUCED] -/
def Dev.blkLevel (d : Dev) (a : AgentId) (block : Nat) : Nat :=
  let c := classOf a
  if c = 0 ∨ c = 6 then 2 else bitsOf (d.num (PROTECT.BLK_PERM block)) (2 * c + 1) (2 * c)

/-- One page of memory is open to an agent (R428). -/
def Dev.pageOpen (d : Dev) (a : AgentId) (page : Nat) (write : Bool) : Bool :=
  let cov := (List.range 16).filter (fun n =>
    d.flag (PROTECT.REGION_PERM_VALID n) && decide (d.fld (PROTECT.REGION_BASE_PAGE n) ≤ page)
      && decide (page ≤ d.fld (PROTECT.REGION_LIMIT_PAGE n)))
  cov.isEmpty || cov.any (fun n => bitOf (d.num (PROTECT.REGION_PERM n)) (2 * classOf a + b2n write))

/-- Every page an access touches is open to the agent (R428). [Log 115 DEDUCED, 139 DEDUCED] -/
def Dev.memOpen (d : Dev) (a : AgentId) (addr len : Nat) (write : Bool) : Bool :=
  d.pageOpen a (addr / 4096) write && d.pageOpen a ((addr + (len - 1)) / 4096) write

/-! ### Domains -/

/-- A domain's READY bit (R441). -/
def Dev.domReady (d : Dev) (n : Nat) : Bool := d.mapBit SUPPLY.DOM_STATUS_0 n

/-- A domain's rail has been up for `ns` nanoseconds: its readiness time has run (R441). -/
def Dev.powered (d : Dev) (n ns : Nat) : Bool :=
  match Tab.find n d.sup.upAt with
  | some t => d.domUp.contains n && d.due (t + nsT ns)
  | none => false

/-- A domain's ON bit (R441). -/
def Dev.domOn (d : Dev) (n : Nat) : Bool := d.mapBit SUPPLY.DOM_CTRL_0 n

/-- First regulation has been reached (R81). -/
def Dev.regulated (d : Dev) : Bool := decide (d.fld NVM.BOOT_STATUS_STATE = 2)

/-! ### The end of every command -/

/-- The ring size of the Ledger's present mode (R57). -/
def Dev.ringSize (d : Dev) : Nat := if d.lgDram then 2 ^ 24 else 4096

/-- What holds at the end of every command: the records made are entered (R54), the chip keeps the last 4,096 records, and OVERRUN sets when the reader is more
than a ring behind (R57, R58). [Log 21 DEDUCED] -/
def settle (d : Dev) : Dev :=
  let d := d.enterAll
  let d := { d with led := { d.led with chip := d.led.chip.take 4096 } }
  if (d.reg LEDGER.LG_NEXT_SEQ - d.reg LEDGER.LG_READ_SEQ).toNat > d.ringSize ∧ d.fld LEDGER.LG_STATUS_OVERRUN = 0 then
    (d.setFld LEDGER.LG_STATUS_OVERRUN 1).raise 1209
  else d

/-- A command's effect on the device; the queue of waiting commands stays. [Log 1 DESIGN CHOICE, 4 DESIGN CHOICE] -/
def State.onDev (s : State) (f : Dev → Dev) : Host.Outcome State Fault Refusal :=
  .next { s with dev := settle (f { s.dev with answer := .none, sent := [] }) }

/-- The device where a condition holds, unchanged otherwise. -/
def Dev.when (d : Dev) (c : Bool) (f : Dev → Dev) : Dev := if c then f d else d

/-- A function applied for each number of a list in turn. -/
def Dev.each (d : Dev) (l : List Nat) (f : Dev → Nat → Dev) : Dev := l.foldl f d

end Sys2Proof.Machine
end

