-- ==== Sys2Proof/Machine/Mem.lean ====
section
/-!
DEFINITION. Machine/Mem.lean: the memories of the 40-bit map, their check bits, page retirement, the DRAM port and the
scrubber (spec/16, R364 to R379, R390, R391). A byte or word whose code holds an error keeps the value the code stands for
in `Dev.mem` and its error in `Dev.ecc`: 1 corrected when read, 2 uncorrectable.
-/
namespace Sys2Proof.Machine

/-! ### The map (R364, R370) -/

/-- MiB of a DRAM size code, without the eighth that holds check bits (R370, R390). -/
def sizeMb (code : Nat) : Nat := if code = 0 then 0 else 896 * 2 ^ (code - 1)

/-- Usable DRAM of a channel in bytes. -/
def Dev.chanBytes (d : Dev) (c : Nat) : Nat :=
  (if c = 0 then sizeMb (d.fld MEMCTL.DRAM_CFG_SIZE0) else sizeMb (d.fld MEMCTL.DRAM_CFG_SIZE1)) * 0x100000

/-- Usable DRAM in bytes. [Log 114 DEDUCED] -/
def Dev.dramBytes (d : Dev) : Nat := d.chanBytes 0 + d.chanBytes 1

/-- The channel of a usable DRAM offset (R370). -/
def Dev.dramChan (d : Dev) (u : Nat) : Nat :=
  if d.flag MEMCTL.DRAM_CFG_INTERLEAVE then u / 256 % 2 else if u < d.chanBytes 0 then 0 else 1

/-- The state of a DRAM channel: 0 OFF, 1 UNTRAINED, 2 TRAINING, 3 READY, 4 FAILED. -/
def Dev.dramState (d : Dev) (c : Nat) : Nat :=
  if c = 0 then d.fld MEMCTL.DRAM_STATUS_STATE0 else d.fld MEMCTL.DRAM_STATUS_STATE1

/-- The state of a DRAM channel set. -/
def Dev.setDramState (d : Dev) (c v : Nat) : Dev :=
  if c = 0 then d.setFld MEMCTL.DRAM_STATUS_STATE0 v else d.setFld MEMCTL.DRAM_STATUS_STATE1 v

/-- The first address of usable DRAM. -/
def dramBase : Nat := 0x1000000000

/-- The memory code (R374) of a 40-bit address that lies in a memory; 0x40 the boot ROM. -/
def Dev.memCode (d : Dev) (a : Nat) : Option Nat :=
  if 0x08000000 ≤ a ∧ a < 0x08200000 then some ((a - 0x08000000) / 0x80000)
  else if 0x10000000 ≤ a ∧ a < 0x10800000 then some (8 + (a - 0x10000000) / 0x100000)
  else if 0x20000000 ≤ a ∧ a < 0x20080000 then some (0x10 + (a - 0x20000000) / 0x40000)
  else if 0x30000000 ≤ a ∧ a < 0x30010000 then some 0x18
  else if 0x30100000 ≤ a ∧ a < 0x30140000 then some 0x19
  else if 0x40100000 ≤ a ∧ a < 0x40160000 ∧ 0x8000 ≤ a % 0x10000 ∧ a % 0x10000 < 0xC000 then some (0x20 + (a - 0x40100000) / 0x10000)
  else if 0xF0000000 ≤ a ∧ a < 0xF0010000 then some 0x40
  else if dramBase ≤ a ∧ a < dramBase + d.dramBytes then some (0x30 + d.dramChan (a - dramBase))
  else none

/-- The memory answers (R366, R368, R369). -/
def Dev.memReady (d : Dev) (code : Nat) : Bool :=
  if code < 4 then d.domReady (4 + code)
  else if code < 0x10 then bitOf (d.fld MEMCTL.SRAM_STATUS_READY) (code - 8)
  else if code < 0x12 then d.domReady (18 + (code - 0x10))
  else if code = 0x30 ∨ code = 0x31 then decide (d.dramState (code - 0x30) = 3)
  else if 0x20 ≤ code ∧ code < 0x26 then d.domReady (36 + 2 * (code - 0x20)) || d.domReady (37 + 2 * (code - 0x20))
  else if code = 0x1A then d.domReady 56
  else true

/-- The range lies in one memory that answers. -/
def Dev.memMapped (d : Dev) (a n : Nat) : Bool :=
  match d.memCode a, d.memCode (a + (n - 1)) with
  | some c, some c' =>
    d.memReady c && d.memReady c' && (decide (c = c') || (decide (c ≥ 0x30) && decide (c < 0x32) && decide (c' ≥ 0x30)))
  | _, _ => false

/-! ### Errors (R366, R367, R374, R375) -/

/-- The registers that show the error log follow it (R374). -/
def Dev.showErr (d : Dev) : Dev :=
  let d := d.setFld MEMCTL.ERR_STATUS_COUNT d.errLog.length
  match d.errLog with
  | [] => (((d.setReg (MEMCTL.ERR_ENTRY 0) 0).setReg (MEMCTL.ERR_ENTRY 1) 0).setReg (MEMCTL.ERR_ENTRY 2) 0).setReg (MEMCTL.ERR_ENTRY 3) 0
  | e :: _ =>
    (((d.setReg (MEMCTL.ERR_ENTRY 0) e.w0).setReg (MEMCTL.ERR_ENTRY 1) e.w1).setReg (MEMCTL.ERR_ENTRY 2) e.w2).setReg
      (MEMCTL.ERR_ENTRY 3) e.w3

/-- A CE (1) or UE (2) found at an address by an access of a source, entered in the log and counted (R374, R375). The
syndrome is a free value. -/
def Dev.noteErr (d : Dev) (a code src : Nat) (agent : AgentId) (typ : Nat) : Dev :=
  let (syn, d) := d.draw
  let dram := decide (code = 0x30 ∨ code = 0x31)
  let e : ErrEntry :=
    { w0 := BitVec.ofNat 32 a
      w1 := BitVec.ofNat 32 (code * 0x1000000 + a / 2 ^ 32 % 256 * 256 + src * 16 + typ)
      w2 := BitVec.ofNat 32 (agent.toNat * 0x10000 + a % 8 * 256 + syn.toNat % (if dram then 256 else 32))
      w3 := BitVec.ofNat 32 (nsOf d.now) }
  let d := if d.errLog.length ≥ 64 then d.incFld MEMCTL.ERR_STATUS_LOST else ({ d with errLog := d.errLog ++ [e] } : Dev).showErr
  if typ = 1 then
    let d := d.incFld MEMCTL.ECC_COUNTS_CE_COUNT
    let lim := d.fld MEMCTL.CE_LIMIT_LIMIT
    if d.ceArmed ∧ lim ≠ 0 ∧ d.fld MEMCTL.ECC_COUNTS_CE_COUNT ≥ lim then { d with ceArmed := false }.raise 1204 else d
  else d.incFld MEMCTL.ECC_COUNTS_UE_COUNT

/-- A UE: the log, ECC_UNCORR, a SYSTEM record of ERR_STATUS, and the fault manager (R367, R434). -/
def Dev.noteUe (d : Dev) (a code src : Nat) (agent : AgentId) : Dev :=
  let old := d.reg MEMCTL.ERR_STATUS
  let d := d.noteErr a code src agent 2
  ((d.raise 1203).report 0x11 code).sysRec MEMCTL.ERR_STATUS old

/-- The unit of code an address belongs to: a byte on chip, an aligned 8-byte word in DRAM (R366, R371). -/
def codeUnit (a : Nat) : Nat := if a ≥ dramBase then a / 8 * 8 else a

/-- One unit of code checked by a read: a CE is corrected in place, a UE is reported; true where the unit is good.
[Log 110 DEDUCED] -/
def Dev.checkUnit (d : Dev) (src : Nat) (agent : AgentId) (u : Nat) : Bool × Dev :=
  match Tab.get 0 u d.ecc with
  | 0 => (true, d)
  | 1 => (true, { d.noteErr u ((d.memCode u).getD 0) src agent 1 with ecc := Tab.set 0 u 0 d.ecc })
  | _ => (false, d.noteUe u ((d.memCode u).getD 0) src agent)

/-- Units of code checked in turn. -/
def Dev.checkUnits (d : Dev) (src : Nat) (agent : AgentId) : List Nat → Bool × Dev
  | [] => (true, d)
  | u :: t =>
    let (ok, d) := d.checkUnit src agent u
    let (ok', d) := d.checkUnits src agent t
    (ok && ok', d)

/-- The units of code a range touches. -/
def unitsOf (a n : Nat) : List Nat := ((List.range n).map (fun i => codeUnit (a + i))).eraseDups

/-- A read of memory by an agent: the bytes, and whether every code was good (R366, R367). -/
def Dev.readMem (d : Dev) (src : Nat) (agent : AgentId) (a n : Nat) : Bool × List Byte × Dev :=
  if d.memCode a = some 0x40 then (true, (List.range n).map (fun i => Config.rom (a + i - 0xF0000000)), d)
  else if d.ecc.isEmpty then (true, d.bytes a n, d)
  else
    let (ok, d) := d.checkUnits src agent (unitsOf a n)
    (ok, d.bytes a n, d)

/-! ### Writes (R366, R371, R376) -/

/-- The code of a unit after a write of `n` bytes at `a`: new on chip; in DRAM new where all 8 bytes are covered, and
merged otherwise, which corrects a CE and keeps a UE. -/
def Dev.writeUnit (d : Dev) (agent : AgentId) (a n u : Nat) : Dev :=
  if u < dramBase then { d with ecc := Tab.set 0 u 0 d.ecc }
  else if a ≤ u ∧ u + 8 ≤ a + n then { d with ecc := Tab.set 0 u 0 d.ecc }
  else match Tab.get 0 u d.ecc with
    | 0 => d
    | 1 => { d.noteErr u ((d.memCode u).getD 0) 2 agent 1 with ecc := Tab.set 0 u 0 d.ecc }
    | _ => d.noteUe u ((d.memCode u).getD 0) 2 agent

/-- The first address of a range at byte lane `lane` of a memory of a kind (R376). -/
def Dev.laneAddr (d : Dev) (kind lane a n : Nat) : Option Nat :=
  ((List.range n).map (a + ·)).find? (fun x => decide (x % 8 = lane) && decide (d.memCode x = some kind))

/-- An armed injection taken by a write that covers its lane (R376). [Log 110 DEDUCED] -/
def Dev.inject (d : Dev) (a n : Nat) : Dev :=
  if !d.flag MEMCTL.ECC_FLIP_ARM then d
  else match d.laneAddr (d.fld MEMCTL.ECC_FLIP_MEM) (d.fld MEMCTL.ECC_FLIP_LANE) a n with
    | none => d
    | some x =>
      let dram := decide (x ≥ dramBase)
      let flips := popCount 8 (d.fld MEMCTL.ECC_FLIP_DATA) + popCount (if dram then 8 else 5) (d.fld MEMCTL.ECC_FLIP_CHECK)
      let u := codeUnit x
      let d : Dev := if flips = 0 then d else { d with ecc := Tab.set 0 u (if flips = 1 ∧ Tab.get 0 u d.ecc = 0 then 1 else 2) d.ecc }
      (d.setFld MEMCTL.ECC_FLIP_ARM 0).setReg64 MEMCTL.ECC_FLIP_STATUS (BitVec.ofNat 64 a)

/-- A write of memory by an agent. -/
def Dev.writeMem (d : Dev) (agent : AgentId) (a : Nat) (bs : List Byte) : Dev :=
  let d := if d.ecc.isEmpty then d else d.each (unitsOf a bs.length) (fun d u => d.writeUnit agent a bs.length u)
  (d.setBytes a bs).inject a bs.length

/-! ### Memories coming up (R366, R441) -/

/-- The domain of a memory and its range. -/
def memDomain (code : Nat) : Option (Nat × Nat × Nat) :=
  if code < 4 then some (4 + code, 0x08000000 + 0x80000 * code, 0x80000)
  else if 8 ≤ code ∧ code < 0x10 then some (code, 0x10000000 + 0x100000 * (code - 8), 0x100000)
  else if code = 0x10 ∨ code = 0x11 then some (18 + (code - 0x10), 0x20000000 + 0x40000 * (code - 0x10), 0x40000)
  else none

/-- MEMORY_INIT_DONE (R366): a powered memory is filled with zeros and reports ready. -/
def execMemoryInitDone (code : Nat) (s : State) : Host.Outcome State Fault Refusal :=
  s.onDev fun d =>
    match memDomain code with
    | none => d
    | some (dom, base, size) =>
      if ¬ d.domUp.contains dom ∨ d.domReady dom then d
      else
        let d := (d.zeroRange base size).setMapBit SUPPLY.DOM_STATUS_0 dom true
        d.when (decide (8 ≤ code) && decide (code < 0x10)) fun d =>
          d.setFld MEMCTL.SRAM_STATUS_READY (putBits (d.fld MEMCTL.SRAM_STATUS_READY) (code - 8) (code - 8) 1)

/-! ### Page retirement (R368) -/

/-- The copy of RETIRE entry `i` has ended, single errors corrected on the way: the entry takes effect with its LIVE record (R368). -/
def Dev.retireDone (d : Dev) (i : Nat) : Dev :=
  match d.retiring.find? (fun p => p.1 = i) with
  | none => d
  | some (_, w, agent) =>
    let base := 0x10000000 + 0x100000 * (i / 16) + 4096 * (w.toNat % 256)
    let d : Dev := { d with retiring := d.retiring.filter (fun p => p.1 ≠ i) }
    let ces := d.ecc.filter (fun p => decide (base ≤ p.1) && decide (p.1 < base + 4096) && decide (p.2 = 1))
    let d := ces.foldl (fun d p => (d.checkUnit 1 devAgent p.1).2) d
    let old := d.reg (MEMCTL.RETIRE i)
    (d.setReg (MEMCTL.RETIRE i) w).liveRec agent (MEMCTL.RETIRE i) w old

/-! ### DRAM training (R369) -/

/-- DRAM_TRAIN_DONE (R369): training of channel `c` ends, READY or FAILED. [Log 114 DEDUCED] -/
def execDramTrainDone (c : Fin 2) (ok : Bool) (s : State) : Host.Outcome State Fault Refusal :=
  s.onDev fun d => d.when (decide (d.dramState c = 2)) fun d =>
    if ok then d.setDramState c 3
    else ((d.setDramState c 4).raise 1206).report 0x12 c

/-! ### The scrubber (R377 to R379) -/

/-- Where the scrubber's lap puts the DMA buffer, which no address of the map names: behind every memory.
[Log 111 DESIGN CHOICE] -/
def dmaBufBase : Nat := 2 ^ 40

/-- The place of a byte of a transfer in the DMA buffer: each channel has a share of 4 KiB. [Log 111 DESIGN CHOICE] -/
def bufPlace (c i : Nat) : Nat := 4096 * c + i % 4096

/-- Byte `j` of channel `c`'s transfer, which stands in the DMA buffer, read by the scrubber (R366, R378). -/
def Dev.scrubBufByte (c : Nat) (d : Dev) (j : Nat) : Dev :=
  let x : DmaSt := Tab.get {} c d.dmas
  match Tab.get 0 j x.flips with
  | 0 => d
  | 1 => { d.noteErr (bufPlace c j) 0x1A 3 devAgent 1 with dmas := Tab.set {} c { x with flips := Tab.set 0 j 0 x.flips } d.dmas }
  | _ => d.noteUe (bufPlace c j) 0x1A 3 devAgent

/-- A 64-byte block at offset `o` of the DMA buffer read by the scrubber: the bytes of the channel's transfer that stand there.
[Log 111 DESIGN CHOICE] -/
def Dev.scrubBuf (d : Dev) (o : Nat) : Dev :=
  let x : DmaSt := Tab.get {} (o / 4096) d.dmas
  ((x.flips.map Prod.fst).filter fun j =>
    decide (x.read ≤ j + x.buf.length) && decide (j < x.read) && decide (j % 4096 / 64 = o % 4096 / 64)).foldl (Dev.scrubBufByte (o / 4096)) d

/-- The memories the scrubber reads, as base and size in address order, those that are ready (R378). [Log 111 DESIGN CHOICE] -/
def Dev.scrubRanges (d : Dev) : List (Nat × Nat) :=
  ((List.range 4).map fun c => (c, 0x08000000 + 0x80000 * c, 0x80000)) ++
  ((List.range 8).map fun b => (8 + b, 0x10000000 + 0x100000 * b, 0x100000)) ++
  ((List.range 2).map fun r => (0x10 + r, 0x20000000 + 0x40000 * r, 0x40000)) ++
  [(0x18, 0x30000000, 0x10000), (0x19, 0x30100000, 0x40000)] ++
  ((List.range 6).map fun b => (0x20 + b, 0x40108000 + 0x10000 * b, 0x4000)) ++
  (if d.flag MEMCTL.DRAM_CFG_INTERLEAVE then [(0x30, dramBase, d.dramBytes)]
   else [(0x30, dramBase, d.chanBytes 0), (0x31, dramBase + d.chanBytes 0, d.chanBytes 1)]) ++
  [(0x1A, dmaBufBase, 0x10000)]
  |>.filterMap fun (c, b, n) => if d.memReady c ∧ n > 0 then some (b, n) else none

/-- The first block at or after a position in the ranges. -/
def nextBlock (pos : Nat) : List (Nat × Nat) → Option Nat
  | [] => none
  | (b, n) :: t => if pos < b + n then some (max pos b) else nextBlock pos t

/-- A 64-byte block read by the scrubber: CEs corrected, UEs left (R378). -/
def Dev.scrubBlock (d : Dev) (a : Nat) : Dev := if d.ecc.isEmpty then d else (d.checkUnits 3 devAgent (unitsOf a 64)).2

/-- The next block of a lap read: of a memory, or of the DMA buffer. [Log 111 DESIGN CHOICE] -/
def Dev.scrubNext (d : Dev) (a : Nat) : Dev := if a < dmaBufBase then d.scrubBlock a else d.scrubBuf (a - dmaBufBase)

/-- SCRUB_IDLE_READ (R378). [Log 111 DESIGN CHOICE] -/
def execScrubIdleRead (s : State) : Host.Outcome State Fault Refusal :=
  s.onDev fun d => d.when (decide (d.fld SCRUB.SCRUB_CTRL_MODE = 1) && d.domReady 57) fun d =>
    let rs := d.scrubRanges
    match nextBlock d.scrubPos rs with
    | some a => { d.scrubNext a with scrubPos := a + 64 }
    | none =>
      let d := d.setFld SCRUB.SCRUB_STATUS_LAP_COUNT (d.fld SCRUB.SCRUB_STATUS_LAP_COUNT + 1)
      let d := d.setNum SCRUB.LAP_US (min 0xFFFFFFFF ((d.now - d.lapStart).toNat / 64000))
      let d : Dev := { d with lapStart := d.now }
      match nextBlock 0 rs with
      | some a => { d.scrubNext a with scrubPos := a + 64 }
      | none => { d with scrubPos := 0 }

/-- The end of a pass with its RESULT (R379). -/
def Dev.passEnd (d : Dev) (p : Pass) (result : Nat) : Dev :=
  let d : Dev := { d with pass := none }
  let d := d.setNum SCRUB.SUM_BYTES (min 0xFFFFFFFF (p.pos - p.base))
  let d := d.setNum SCRUB.SUM_NS (min 0xFFFFFFFF ((d.now - p.startT).toNat / 64))
  let d := d.setNum SCRUB.SUM_ERRS (min 0xFFFF p.ue * 0x10000 + min 0xFFFF p.ce)
  let d := d.setFld SCRUB.SCRUB_STATUS_RESULT result
  ((d.setFld SCRUB.SCRUB_STATUS_DONE 1).setFld SCRUB.SCRUB_STATUS_PASSING 0).raise 1205

/-- SCRUB_PASS_BLOCK (R379): the pass reads its next block. -/
def execScrubPassBlock (s : State) : Host.Outcome State Fault Refusal :=
  s.onDev fun d =>
    match d.pass with
    | none => d
    | some p =>
      if !d.due p.nextT then d
      else
        let us := unitsOf p.pos 64
        let ce := (us.filter fun u => Tab.get 0 u d.ecc = 1).length
        let ues := us.filter fun u => Tab.get 0 u d.ecc > 1
        let d := d.scrubBlock p.pos
        let d := match ues with
          | u :: _ => if p.ue = 0 then d.setReg64 SCRUB.SUM_FIRST_UE (BitVec.ofNat 64 (2 ^ 63 + u)) else d
          | [] => d
        let p := { p with pos := p.pos + 64, nextT := p.nextT + nsT p.spacing, ce := p.ce + ce, ue := p.ue + ues.length }
        if p.pos ≥ p.base + p.len then d.passEnd p 1 else { d with pass := some p }

/-- The memory of a pass's range (R379): its code, its range and the least spacing. [Log 112 DEDUCED] -/
def Dev.passMemory (d : Dev) (a : Nat) : Option (Nat × Nat × Nat × Nat) :=
  if 0x08000000 ≤ a ∧ a < 0x08200000 then let c := (a - 0x08000000) / 0x80000; some (c, 0x08000000 + 0x80000 * c, 0x80000, 960)
  else if 0x10000000 ≤ a ∧ a < 0x10800000 then
    let b := (a - 0x10000000) / 0x100000; some (8 + b, 0x10000000 + 0x100000 * b, 0x100000, 480)
  else if 0x20000000 ≤ a ∧ a < 0x20080000 then
    let r := (a - 0x20000000) / 0x40000; some (0x10 + r, 0x20000000 + 0x40000 * r, 0x40000, 1200)
  else if 0x30000000 ≤ a ∧ a < 0x30010000 then some (0x18, 0x30000000, 0x10000, 960)
  else if 0x30100000 ≤ a ∧ a < 0x30140000 then some (0x19, 0x30100000, 0x40000, 960)
  else if dramBase ≤ a ∧ a < dramBase + d.dramBytes then
    if d.flag MEMCTL.DRAM_CFG_INTERLEAVE then some (0x30, dramBase, d.dramBytes, 336)
    else if a < dramBase + d.chanBytes 0 then some (0x30, dramBase, d.chanBytes 0, 336)
    else some (0x31, dramBase + d.chanBytes 0, d.chanBytes 1, 336)
  else none

/-- The first cause that refuses PASS_CMD.START (R377, R379). [Log 112 DEDUCED] -/
def Dev.passRefusal (d : Dev) : Option Cause :=
  let base := (d.reg64 SCRUB.PASS_BASE).toNat % 2 ^ 40
  let len := d.num SCRUB.PASS_LEN
  match d.passMemory base with
  | none => some .range
  | some (code, b, n, least) =>
    if base % 64 ≠ 0 ∨ len % 64 ≠ 0 ∨ len = 0 ∨ base + len > b + n ∨ d.fld SCRUB.PASS_CFG_SPACING_NS < least then some .range
    else if ¬ d.memReady code ∨ d.pass.isSome ∨ d.fld SCRUB.SCRUB_CTRL_MODE ≠ 0 then some .state
    else none

/-! ### Writes of the MEMCTL and SCRUB registers -/

/-- The memory codes of R374. -/
def memCodeListed (c : Nat) : Bool :=
  decide (c < 4) || (decide (8 ≤ c) && decide (c ≤ 0x11)) || (decide (0x18 ≤ c) && decide (c ≤ 0x1A))
    || (decide (0x20 ≤ c) && decide (c ≤ 0x25)) || decide (c = 0x30) || decide (c = 0x31)

/-- What refuses a write of a MEMCTL or SCRUB register beside its fields' ranges (R368 to R370, R376, R377, R379, R390).
[Log 113 DEDUCED] -/
def Dev.memRefusals (d : Dev) (a : Nat) (v : Word) : List (Nat × Nat × Cause) :=
  let n := v.toNat
  if a = MEMCTL.DRAM_CFG then
    (if bitOf n 8 ∧ bitsOf n 6 4 ≠ bitsOf n 2 0 then [(3, 8, .range)] else [])
  else if a = MEMCTL.DRAM_CTRL then
    (if bitOf n 1 ∧ d.dramState 1 ≠ 1 ∧ d.dramState 1 ≠ 4 then [(3, 1, .state)] else []) ++
    (if bitOf n 0 ∧ d.dramState 0 ≠ 1 ∧ d.dramState 0 ≠ 4 then [(3, 0, .state)] else [])
  else if a = MEMCTL.DRAM_ARB then (if n % 4096 = 0 then [(3, 11, .range)] else [])
  else if a = MEMCTL.ECC_FLIP then (if memCodeListed (bitsOf n 23 16) then [] else [(2, 23, .reserved)])
  else if MEMCTL.RETIRE 0 ≤ a ∧ a < MEMCTL.RETIRE 128 then
    let i := (a - MEMCTL.RETIRE 0) / 4
    let same := (List.range 16).any fun s =>
      let j := i / 16 * 16 + s
      decide (j ≠ i) && ((d.flag (MEMCTL.RETIRE_VALID j) && decide (d.fld (MEMCTL.RETIRE_PAGE j) = n % 256))
        || d.retiring.any fun p => p.1 = j ∧ p.2.1.toNat % 256 = n % 256)
    if d.flag (MEMCTL.RETIRE_VALID i) ∨ (d.retiring.any fun p => p.1 = i) ∨ ¬ d.memReady (8 + i / 16) then [(3, 31, .state)]
    else if bitOf n 31 ∧ same then [(3, 31, .state)] else []
  else if a = SCRUB.SCRUB_CTRL then (if d.pass.isSome then [(3, 1, .state)] else [])
  else if a = SCRUB.PASS_CMD then
    (if bitOf n 1 ∧ d.pass.isNone then [(3, 1, .state)] else []) ++
    (if bitOf n 0 then (match d.passRefusal with | some c => [(3, 0, c)] | none => []) else [])
  else []

/-- DRAM_CFG counts as running, for its STOP fields, unless both channels are UNTRAINED or OFF (R390). -/
def Dev.dramRunning (d : Dev) : Bool := decide (d.dramState 0 > 1) || decide (d.dramState 1 > 1)

/-- The action of an accepted write of a MEMCTL or SCRUB register. -/
def Dev.memEffect (d : Dev) (a : Nat) (v : Word) : Dev :=
  let n := v.toNat
  if a = MEMCTL.DRAM_CFG then d.setFld MEMCTL.DRAM_STATUS_USABLE_MB (d.dramBytes / 0x100000)
  else if a = MEMCTL.DRAM_CTRL then
    (d.when (bitOf n 0) fun d => d.setDramState 0 2).when (bitOf n 1) fun d => d.setDramState 1 2
  else if a = MEMCTL.ERR_POP then d.when (bitOf n 0) fun d => ({ d with errLog := d.errLog.drop 1 } : Dev).showErr
  else if a = MEMCTL.MEM_CLR then
    d.when (bitOf n 0) fun d => { (d.setNum MEMCTL.ECC_COUNTS 0).setFld MEMCTL.ERR_STATUS_LOST 0 with ceArmed := true }
  else if a = SCRUB.PASS_CMD then
    if bitOf n 1 then (match d.pass with | some p => d.passEnd p 2 | none => d)
    else if bitOf n 0 then
      let sp := d.fld SCRUB.PASS_CFG_SPACING_NS
      let p : Pass := { base := (d.reg64 SCRUB.PASS_BASE).toNat % 2 ^ 40, len := d.num SCRUB.PASS_LEN, spacing := sp
                        pos := (d.reg64 SCRUB.PASS_BASE).toNat % 2 ^ 40, startT := d.now, nextT := d.now + nsT sp }
      (({ d with pass := some p } : Dev).setFld SCRUB.SCRUB_STATUS_PASSING 1).setReg64 SCRUB.SUM_FIRST_UE 0
    else d
  else d

end Sys2Proof.Machine
end

