-- ==== Sys2Proof/Machine/PwmCfg.lean ====
section
/-!
DEFINITION. Machine/PwmCfg.lean: what the timers' registers configure, windows, drive states and levels (spec/08). A timer is numbered 0 to 47 and its outputs 2T and 2T + 1 across the three banks.
-/
namespace Sys2Proof.Machine

/-! ### Reading a timer's configuration -/

def Dev.tim (d : Dev) (t : Nat) : TimSt := Tab.get {} t d.tims
def Dev.setTim (d : Dev) (t : Nat) (x : TimSt) : Dev := { d with tims := Tab.set {} t x d.tims }
def Dev.out (d : Dev) (o : Nat) : OutSt := Tab.get {} o d.outs
def Dev.setOut (d : Dev) (o : Nat) (x : OutSt) : Dev := { d with outs := Tab.set {} o x d.outs }
def Dev.wit (d : Dev) (p : Nat) : WitSt := Tab.get {} p d.wits
def Dev.setWit (d : Dev) (p : Nat) (x : WitSt) : Dev := { d with wits := Tab.set {} p x d.wits }
def Dev.det (d : Dev) (t : Nat) : DetSt := Tab.get {} t d.dets
def Dev.setDet (d : Dev) (t : Nat) (x : DetSt) : Dev := { d with dets := Tab.set {} t x d.dets }

/-- The signed distance from one time to another. -/
def dist (a b : Time) : Int := (b - a).toInt

/-- A number of fine ticks as a time. -/
def tks (n : Nat) : Time := BitVec.ofNat 64 n

/-- The update setup S of 2 ns (R188). -/
def setupS : Time := 128

/-- RUN of TIM_STATUS: 0 OFF, 1 RUNNING, 2 WAITING. -/
def Dev.timRun (d : Dev) (t : Nat) : Nat := d.fld (PWM.TIM_STATUS_RUN t)

/-- The configured period in fine ticks (R180). -/
def Dev.timP (d : Dev) (t : Nat) : Nat := d.num (PWM.TIM_PER t) * 64 + d.fld (PWM.TIM_CFG_PER_FINE t)

def Dev.coarse (d : Dev) (t : Nat) : Bool := d.flag (PWM.TIM_CFG_COARSE t)

/-- A counted on-time or offset in fine ticks (R184). -/
def Dev.unitTicks (d : Dev) (t n : Nat) : Nat := if d.coarse t then n * 64 else n

/-- A dead time in force: 1 to 63 ticks act as 64 (R195). -/
def deadTicks (n : Nat) : Nat := if n = 0 then 0 else max n 64

def Dev.dtOn (d : Dev) (t : Nat) : Nat := deadTicks (d.fld (PWM.TIM_DT_DT_ON t))

/-- DT_OFF is ignored under DUAL_2L (R186). -/
def Dev.dtOff (d : Dev) (t : Nat) : Nat := if d.fld (PWM.TIM_CFG_PAIRING t) = 2 then 0 else deadTicks (d.fld (PWM.TIM_DT_DT_OFF t))

/-- The field of output o, from the pair of an A field and a B field. -/
def ab (o : Nat) (fa fb : Nat → Fld) : Fld := if o % 2 = 0 then fa (o / 2) else fb (o / 2)

def Dev.outSrc (d : Dev) (o : Nat) : Nat := d.fld (ab o PWM.TIM_OUT_CFG_SRC_A PWM.TIM_OUT_CFG_SRC_B)
def Dev.outPolicy (d : Dev) (o : Nat) : Nat := d.fld (ab o PWM.TIM_OUT_CFG_POLICY_A PWM.TIM_OUT_CFG_POLICY_B)
def Dev.outMinp (d : Dev) (o : Nat) : Nat := max 64 (d.fld (ab o PWM.TIM_MINP_MINP_A PWM.TIM_MINP_MINP_B))
def Dev.outStretch (d : Dev) (o : Nat) : Bool := d.flag (ab o PWM.TIM_MINP_MODE_A PWM.TIM_MINP_MODE_B)
def Dev.outInsMin (d : Dev) (o : Nat) : Nat := d.fld (ab o PWM.TIM_INS_INS_MIN_A PWM.TIM_INS_INS_MIN_B)
def Dev.outCmp (d : Dev) (o : Nat) : Nat := d.num (if o % 2 = 0 then PWM.TIM_CMP_A (o / 2) else PWM.TIM_CMP_B (o / 2))
def outNow (o : Nat) : Nat := if o % 2 = 0 then PWM.TIM_NOW_A (o / 2) else PWM.TIM_NOW_B (o / 2)

/-- Output B does nothing of its own under COMPL (R186). -/
def Dev.outUsed (d : Dev) (o : Nat) : Bool := !(decide (d.fld (PWM.TIM_CFG_PAIRING (o / 2)) = 1) && decide (o % 2 = 1))

/-- COMP maps to a conducting level, so that R187 applies to it. -/
def Dev.compConducts (d : Dev) (o : Nat) : Bool :=
  decide (d.fld (PWM.TIM_CFG_PAIRING (o / 2)) ≠ 2) && d.flag (ab o PWM.TIM_OUT_CFG_LOWSIDE_A PWM.TIM_OUT_CFG_LOWSIDE_B)

/-- DET_STATUS.STATE of a timer: 0 NORMAL, 1 DETOURING, 2 DETOURED, 3 SERVING, 4 RETURNING (R225). -/
def Dev.detState (d : Dev) (t : Nat) : Nat := d.fld (WITNESS.DET_STATUS_STATE t)
def Dev.detPartner (d : Dev) (t : Nat) : Nat := d.fld (WITNESS.DET_STATUS_PARTNER t)

/-- The timer a physical timer acts as: itself, the timer it serves, or none (R225, R226). -/
def Dev.actsAs (d : Dev) (t : Nat) : Option Nat :=
  if d.detState t = 2 ∨ d.detState t = 4 then none
  else if d.detState t = 3 then
    let p := d.detPartner t
    if d.detState p = 2 ∨ d.detState p = 4 then some p else none
  else some t

/-- The timer that does the work of timer `t` (R226). -/
def Dev.server (d : Dev) (t : Nat) : Nat := if d.detState t = 2 ∨ d.detState t = 4 then d.detPartner t else t

/-- The physical timers that make the frames of timer `t`: from the copy of its state to the switch of its pins both timers of a detour
or of a return do (R225, R227). -/
def Dev.runners (d : Dev) (t : Nat) : List Nat :=
  if d.detState t = 1 then [t, d.detPartner t]
  else if d.detState t = 4 ∧ (d.det t).copied then [d.detPartner t, t]
  else [d.server t]

/-- The phase, and pin, of a physical output (R209). -/
def Dev.phaseOf (d : Dev) (o : Nat) : Option Nat := (d.actsAs (o / 2)).map (fun t => 2 * t + o % 2)

/-- The phase whose frames an output makes: a spare timer makes those of the timer it serves, from the copy on (R225). -/
def Dev.phaseFor (d : Dev) (o : Nat) : Nat := if d.detState (o / 2) = 3 then 2 * d.detPartner (o / 2) + o % 2 else o

/-- An output's frame offset: the phase's position under SRC = RAIL (R181, R211). -/
def Dev.outPos (d : Dev) (o : Nat) : Nat :=
  if d.outSrc o = 2 then d.num (PHASE.PH_POS (d.phaseFor o))
  else d.unitTicks (o / 2) (d.num (if o % 2 = 0 then PWM.TIM_OFS_A (o / 2) else PWM.TIM_OFS_B (o / 2)))

/-! ### On-times and windows (R182 to R184) -/

/-- The number of an output's frame before its first (R192): the next is number 0. -/
def noFrame : Nat := 2 ^ 64 - 1

/-- The on-time that stands for 100 %. -/
def fullC : Nat := 0xFFFFFFFF

/-- A delivered value as an on-time for a frame of length `l` (R183, R184). -/
def Dev.convert (d : Dev) (t : Nat) (v : UpdVal) (l : Nat) : Nat :=
  match v with
  | .ontime c => c
  | .duty x =>
    if x = 0 then 0
    else if x ≥ 2 ^ 24 then fullC
    else min 0xFFFFFFFE (if d.coarse t then (x * l + 2 ^ 29) / 2 ^ 30 else (x * l + 2 ^ 23) / 2 ^ 24)

/-- A rail's value scaled by the phase's ramp factor (R212, R215). -/
def Dev.ramped (d : Dev) (o : Nat) (v : UpdVal) : UpdVal :=
  let ph := d.phaseFor o
  let st := d.fld (PHASE.PH_STATE_STATE ph)
  let fr := d.fld (PHASE.PH_RAIL_RAMP_RAMP_FRAMES (d.fld (PHASE.PH_MAP_RAIL ph)))
  if d.outSrc o = 2 ∧ (st = 2 ∨ st = 4) ∧ fr ≠ 0 then
    let f := d.fld (PHASE.PH_STATE_FACTOR ph)
    match v with
    | .duty x => .duty (x * f / fr)
    | .ontime c => .ontime (c * f / fr)
  else v

/-- The on-time in force for a frame of length `l` that starts now (R183). -/
def Dev.frameC (d : Dev) (o l : Nat) : Nat :=
  if d.outSrc o = 0 then d.outCmp o
  else match (d.out o).val with
    | none => d.outCmp o
    | some v => d.convert (o / 2) (d.ramped o v) l

/-- The window an on-time gives in the frame from `f` of length `l` (R182). -/
def Dev.windowOf (d : Dev) (o : Nat) (f : Time) (l c : Nat) : Option (Time × Time × Bool) :=
  let ct := d.unitTicks (o / 2) c
  if c = 0 then none
  else if c = fullC ∨ ct ≥ l then some (f, f + tks l, false)
  else if d.flag (PWM.TIM_CFG_ALIGN (o / 2)) then
    let on := f + tks ((l - ct) / 2)
    some (on, on + tks ct, true)
  else some (f, f + tks ct, true)

/-- The later of two times, as signed distance has it. -/
def laterT (a b : Time) : Time := if dist a b > 0 then b else a

/-- Where the MAIN interval of a window begins, unless it runs on from an earlier one. -/
def Win.mainStart (w : Win) : Time := w.on + tks w.dOn

/-- A MAIN interval from `s` to the window's off edge is short (R187). -/
def Win.shortMain (w : Win) (s : Time) : Bool := decide (0 < dist s w.off) && decide (dist s w.off < w.m)

/-- A COMP interval between an off edge and the next on edge is short (R187); one that does not conduct still lasts 1 ns (R195). -/
def Win.shortComp (w : Win) (off n : Time) : Bool :=
  let gap := dist (off + tks w.dOff) n
  decide (0 < gap) && decide (gap < if w.compOk then max w.m 64 else 64)

/-- A window conducts by itself. -/
def Win.alone (w : Win) : Bool := w.begun || w.str || !w.shortMain w.mainStart

/-- The first on edge along a list of windows, and then `last`. -/
def nextOn (last : Option Time) : List Win → Option Time
  | [] => last
  | v :: t => if v.alone then some v.on else nextOn last t

/-- What R187 makes of a window whose MAIN runs on from `carry`, with the next window's on edge `imm` and the next on edge of a
window that conducts `nx`. An off edge before `placed` stays. [Log 80 DESIGN CHOICE, 156 DEDUCED] -/
def effWin (placed : Time) (carry : Option Time) (w : Win) (imm nx : Option Time) : Win :=
  if w.begun ∧ dist placed w.eOff < 0 then w
  else
    let s := carry.getD w.mainStart
    let w := { w with eOff := w.off, conduct := true, noOff := false, sMain := false, sComp := false, dComp := false }
    let w :=
      if carry.isSome then { w with eOff := laterT w.off (s + tks w.m) }
      else if w.begun ∨ ¬ w.shortMain s then w
      else if w.str then { w with eOff := s + tks w.m, sMain := true }
      else { w with conduct := false }
    let meets := fun o : Option Time => match o with | some n => decide (dist w.eOff n ≤ 0) | none => false
    if !w.conduct then w
    else if meets imm || meets nx then { w with noOff := true }
    else match nx with
      | none => w
      | some n =>
        if ¬ w.shortComp w.eOff n then w
        else
          let e := n - tks w.dOff - tks (max w.m 64)
          if w.str ∧ dist (s + tks w.m) e ≥ 0 then { w with eOff := e, sComp := w.compOk } else { w with noOff := true, dComp := w.compOk }

/-- R187 applied along a list of windows. -/
def planWins (placed : Time) (last carry : Option Time) : List Win → List Win
  | [] => []
  | w :: t =>
    let e := effWin placed carry w (t.head?.map Win.on) (nextOn last t)
    e :: planWins placed last (if e.conduct ∧ e.noOff then some (carry.getD e.mainStart) else none) t

/-- A window of an output under its configuration now (R193), in frame `k`. -/
def Dev.mkWin (d : Dev) (o k : Nat) (on off : Time) (evt ins : Bool) : Win :=
  { on := on, off := off, eOff := off, evt := evt, ins := ins, dOn := d.dtOn (o / 2), dOff := d.dtOff (o / 2), m := d.outMinp o
    str := d.outStretch o, compOk := d.compConducts o, k := k }

/-- The on edge the next frame will have, as things stand. -/
def Dev.predNext (d : Dev) (o : Nat) : Option Time :=
  let x := d.out o
  let l := d.timP (o / 2)
  match d.windowOf o x.nextF l (d.frameC o l) with
  | some (on, off, evt) => if (d.mkWin o 0 on off evt false).alone then some on else none
  | none => none

/-- The windows of an output decided again (R187): edges within the setup of now are placed (R188). -/
def Dev.replan (d : Dev) (o : Nat) : Dev :=
  let x := d.out o
  d.setOut o { x with wins := planWins (d.now + setupS) (if x.formed then none else d.predNext o) none x.wins }

/-! ### Levels (R186, R197) -/

/-- HIGH and LOW exchanged (POL). -/
def Level.flip : Level → Level
  | .high => .low | .low => .high | l => l

/-- The level of a drive state at pin o (R186). -/
def Dev.levelOf (d : Dev) (o : Nat) (dr : Drive) : Level :=
  let t := o / 2
  let pairing := d.fld (PWM.TIM_CFG_PAIRING t)
  let low := d.flag (ab o PWM.TIM_OUT_CFG_LOWSIDE_A PWM.TIM_OUT_CFG_LOWSIDE_B)
  let l : Level :=
    match dr with
    | .hiz => .hiz
    | .main => if pairing = 1 ∧ o % 2 = 1 then .low else .high
    | .comp =>
      if pairing = 0 then (if low then .low else .mid)
      else if pairing = 1 ∧ o % 2 = 1 then (if d.flag (PWM.TIM_OUT_CFG_LOWSIDE_A t) then .high else .low)
      else .low
    | .off => if pairing = 0 then .mid else .low
  if d.flag (ab o PWM.TIM_OUT_CFG_POL_A PWM.TIM_OUT_CFG_POL_B) then l.flip else l

/-- The drive state a TRIP or IDLE field names. -/
def drive3 (n : Nat) : Drive := if n = 1 then .comp else if n = 2 then .hiz else .off

/-- A pin is in a safe state, of the fault manager or of the hardwired path (R197). -/
def Dev.pinSafe (d : Dev) (p : Nat) : Bool := d.hardSafe || d.mapBit (FAULT.SAFE_NOW 0) p

/-- The safe level of a timing output (R197). -/
def Dev.safeLevel (d : Dev) (o : Nat) : Level :=
  match d.fld (ab o PWM.TIM_LEVELS_SAFE_A PWM.TIM_LEVELS_SAFE_B) with
  | 0 => .mid | 1 => .low | 2 => .high | _ => .hiz

/-- The output whose drive pin o follows: under COMPL both pins follow output A (R186). -/
def Dev.leader (d : Dev) (o : Nat) : Nat := if d.fld (PWM.TIM_CFG_PAIRING (o / 2)) = 1 then o / 2 * 2 else o

/-- The level a timer commands at the pin of a physical output (R197). -/
def Dev.outLevel (d : Dev) (o : Nat) : Level :=
  if d.pinSafe ((d.phaseOf o).getD o) then d.safeLevel o else d.levelOf o (d.out (d.leader o)).out

/-- The drive state an output is to have, and whether it is other than normal drive (R194, R197, R213). -/
def Dev.wanted (d : Dev) (o : Nat) : Drive × Bool :=
  let x := d.out o
  if x.tripped then (drive3 (d.fld (ab o PWM.TIM_LEVELS_TRIP_A PWM.TIM_LEVELS_TRIP_B)), true)
  else match x.force with
    | some f => (f, true)
    | none =>
      if x.parked then (.off, true)
      else if d.timRun (o / 2) ≠ 1 then (drive3 (d.fld (ab o PWM.TIM_LEVELS_IDLE_A PWM.TIM_LEVELS_IDLE_B)), true)
      else (x.nd, false)

/-- An unmeasured change of a pin's level at a time (R220): it is kept as long as an edge or a transition near it may be judged. -/
def Dev.witNote (d : Dev) (p : Nat) (t : Time) : Dev :=
  let w := d.wit p
  let old := if w.edges.isEmpty && w.trs.isEmpty then w.unmeasured.filter fun u => decide ((dist u t).natAbs ≤ 1280) else w.unmeasured
  d.setWit p { w with unmeasured := old ++ [t] }

/-- The commanded level of an output changes at a time; the witness measures the change or not (R220). While a level crossing drives
the pin, the change does not reach the ball. -/
def Dev.witCommand (d : Dev) (o : Nat) (t : Time) (old new : Level) (measured : Bool) : Dev :=
  match d.phaseOf o with
  | none => d
  | some p =>
    let w := d.wit p
    let close := match w.lastCmd with | some l => decide (dist l t < 128) | none => false
    let meas := measured && !close && decide (old ≠ .hiz) && decide (new ≠ .hiz) && (Tab.find p d.xings).isNone
      && d.flag (WITNESS.WIT_CFG_ENABLE p) && d.flag (WITNESS.WIT_STATUS_MEASURING p)
    let d := d.setWit p { w with lastCmd := some t }
    if meas then d.setWit p { d.wit p with edges := w.edges ++ [{ t := t, level := new }] } else d.witNote p t

/-- The levels of the pins an output leads brought up to date at time `t`. -/
def Dev.relevel (d : Dev) (o : Nat) (t : Time) (measured : Bool) : Dev :=
  let os := if d.fld (PWM.TIM_CFG_PAIRING (o / 2)) = 1 then [o / 2 * 2, o / 2 * 2 + 1] else [o]
  d.each os fun d q =>
    let new := d.outLevel q
    let old := (d.out q).level
    if new = old then d
    else (d.setOut q { d.out q with level := new }).witCommand q t old new (measured && !d.pinSafe ((d.phaseOf q).getD q))

/-- When a drive other than normal may begin, asked for at `t`: MAIN and COMP are parted by the dead time of their direction, counted
from the end of the other, and the state they end lasts 1 ns (R185, R195, R196). [Log 156 DEDUCED] -/
def Dev.driveFrom (d : Dev) (o : Nat) (w : Drive) (t : Time) : Time :=
  let x := d.out o
  let after := fun (other : Drive) (dead : Nat) =>
    if dead = 0 then t
    else if x.out = other then t + tks dead
    else match x.ended with | some (a, e) => if a = other then laterT t (e + tks dead) else t | none => t
  let r := match w with
    | .main => after .comp (d.dtOn (o / 2))
    | .comp => after .main (d.dtOff (o / 2))
    | _ => t
  if (w = .main ∨ w = .comp) ∧ (x.out = .off ∨ x.out = .hiz) ∧ x.lastCh ≠ 0 then laterT r (x.lastCh + 64) else r

/-- The drive delivered brought to what is wanted, through NONE for the dead time between MAIN and COMP (R185, R194, R196).
[Log 77 DEDUCED, 156 DEDUCED] -/
def Dev.refresh (d : Dev) (o : Nat) (t : Time) : Dev :=
  let x := d.out o
  let (w, sp) := d.wanted o
  let r := d.driveFrom o w t
  let x' : OutSt :=
    if (!sp && !x.special && x.outDt.isNone) ∨ x.out = w ∨ dist t r ≤ 0 then { x with out := w, outDt := none }
    else { x with out := .off, outDt := some (r, w) }
  let x' := { x' with
    special := sp || x'.outDt.isSome
    lastCh := if x'.out = x.out then x.lastCh else t
    ended := if x'.out ≠ x.out ∧ (x.out = .main ∨ x.out = .comp) then some (x.out, t) else x.ended }
  (d.setOut o x').relevel o t (decide (!x.tripped))

end Sys2Proof.Machine
end

