-- ==== Sys2Proof/Machine/Frame.lean ====
section
/-!
DEFINITION. Machine/Frame.lean: the frames of the outputs: the ranks, list entries, positions, ramps and moves of phases (spec/09, R209 to
R216), the length of a period, and the forming of a frame (spec/08, R180 to R183).
-/
namespace Sys2Proof.Machine

def Dev.ph (d : Dev) (p : Nat) : PhSt := Tab.get {} p d.phs
def Dev.setPh (d : Dev) (p : Nat) (x : PhSt) : Dev := { d with phs := Tab.set {} p x d.phs }
def Dev.railList (d : Dev) (r : Nat) : List Nat := Tab.get [] r d.rails
def Dev.setRailList (d : Dev) (r : Nat) (l : List Nat) : Dev := { d with rails := Tab.set [] r l d.rails }

/-- PH_MAP.ROLE: 0 NONE, 1 MEMBER, 2 SPARE (R209). -/
def Dev.phRole (d : Dev) (p : Nat) : Nat := d.fld (PHASE.PH_MAP_ROLE p)
def Dev.phRail (d : Dev) (p : Nat) : Nat := d.fld (PHASE.PH_MAP_RAIL p)

/-- PH_STATE.STATE: 0 UNUSED, 1 PARKED, 2 RAMP_UP, 3 ACTIVE, 4 RAMP_DOWN, 5 FAILED. -/
def Dev.phState (d : Dev) (p : Nat) : Nat := d.fld (PHASE.PH_STATE_STATE p)

/-- The rail distributes. -/
def Dev.railRuns (d : Dev) (r : Nat) : Bool := decide (d.fld (PHASE.PH_RAIL_STATUS_STATE r) = 1)

/-- A number put in a list sorted by a key, after its equals. -/
def insertBy (key : Nat → Nat) (p : Nat) : List Nat → List Nat
  | [] => [p]
  | q :: t => if key p < key q then p :: q :: t else q :: insertBy key p t

/-- Numbers sorted by a key, equal keys in the order they had. -/
def sortBy (key : Nat → Nat) (l : List Nat) : List Nat := l.foldl (fun acc p => insertBy key p acc) []

/-- The phases of a rail with a role, by rank (R209). -/
def Dev.ranked (d : Dev) (r role : Nat) : List Nat :=
  sortBy (fun p => d.fld (PHASE.PH_MAP_ORDER p))
    ((List.range 96).filter fun p => decide (d.phRole p = role) && decide (d.phRail p = r))

/-- Members and spares of a rail, by rank, members first. -/
def Dev.railPhases (d : Dev) (r : Nat) : List Nat := d.ranked r 1 ++ d.ranked r 2

/-- The outputs that make a phase's frames (R225, R226). -/
def Dev.outsOf (d : Dev) (p : Nat) : List Nat := (d.runners (p / 2)).map fun t => 2 * t + p % 2

/-- The period of a phase in fine ticks. -/
def Dev.phP (d : Dev) (p : Nat) : Nat := d.timP (d.server (p / 2))

/-- The target position of index `j` of `n` (R211). -/
def railPos (ofs p j n : Nat) : Nat := (ofs + j * p / n) % max 1 p

/-! ### What changes at frame starts (R214) -/

/-- A value as of a time, from a base and the changes to it, in the order they came. -/
def asOf {α : Type} (f : Time) (base : α) (l : List (Time × α)) : α := l.foldl (fun a c => if before f c.1 then a else c.2) base

/-- The target position for a frame that starts at `f`. -/
def PhSt.aimAt (x : PhSt) (f : Time) : Nat := asOf f x.target x.aims

/-- The target position once every change has taken effect. -/
def PhSt.goal (x : PhSt) : Nat := x.aims.foldl (fun _ c => c.2) x.target

/-- Joining or staying, leaving, or waiting to join, for a frame that starts at `f`. -/
def PhSt.dirAt (x : PhSt) (f : Time) : Option Bool := asOf f x.dir (x.turns.map fun c => (c.1, some c.2))

/-- The entry is to stay in the active list. -/
def PhSt.stays (x : PhSt) : Bool := decide (x.turns.foldl (fun _ c => some c.2) x.dir = some true)

/-- A target that takes effect from `at_` on. -/
def PhSt.aim (x : PhSt) (now at_ : Time) (v : Nat) : PhSt :=
  { x with target := x.aimAt now, aims := x.aims.filter (fun c => before now c.1) ++ [(at_, v)] }

/-- A change to joining or to leaving that takes effect from `at_` on. -/
def PhSt.turn (x : PhSt) (now at_ : Time) (up : Bool) : PhSt :=
  { x with dir := x.dirAt now, turns := x.turns.filter (fun c => before now c.1) ++ [(at_, up)] }

/-- What stays of an entry that leaves its list. -/
def PhSt.out (x : PhSt) : PhSt := { trim := x.trim, offer := x.offer }

/-! ### Positions -/

/-- MOVING of a phase: its position differs from its target. -/
def Dev.showMoving (d : Dev) (p : Nat) : Dev :=
  d.setFld (PHASE.PH_STATE_MOVING p) (b2n (decide (d.num (PHASE.PH_POS p) ≠ (d.ph p).goal)))

/-- The summary fields of a rail's status. -/
def Dev.railShow (d : Dev) (r : Nat) : Dev :=
  let l := d.railList r
  let spares := (d.ranked r 2).filter fun p => decide (d.phState p ≠ 5) && !l.contains p
  let d := d.setFld (PHASE.PH_RAIL_STATUS_LISTED r) l.length
  let d := d.setFld (PHASE.PH_RAIL_STATUS_SPARES r) spares.length
  let d := d.setFld (PHASE.PH_RAIL_STATUS_MOVING r) (b2n (l.any fun p => d.flag (PHASE.PH_STATE_MOVING p)))
  d.setFld (PHASE.PH_RAIL_STATUS_RAMPING r) (b2n (l.any fun p => decide (d.phState p = 2) || decide (d.phState p = 4)))

/-- The frames of a phase's outputs from now on start at a position. -/
def Dev.placePhase (d : Dev) (p pos : Nat) : Dev :=
  let d := (d.setNum (PHASE.PH_POS p) pos).showMoving p
  d.each (d.outsOf p) fun d o =>
    let x := d.out o
    let t := o / 2
    let c := d.reg64 (PWM.TIM_BOUNDARY t) + tks pos
    d.when (!x.formed) fun d =>
      d.setOut o { x with nextF := if dist d.now c > 0 then c else c + tks (d.tim t).p, deferred := false, moved := false, later := false }

/-- A phase that joins starts at its target position (R215). -/
def Dev.placeAtTarget (d : Dev) (p : Nat) : Dev := d.placePhase p (d.ph p).goal

/-- The entries that stay in the active list take the index and target of their places, from frame starts at `at_` on; an entry that
leaves keeps its own (R211, R214, R215). An entry that has not started yet and stands at its target starts at the new one.
[Log 70 DEDUCED, 160 DEDUCED] -/
def Dev.retarget (d : Dev) (r : Nat) (at_ : Time) : Dev :=
  let l := d.railList r
  let ofs := d.num (PHASE.PH_RAIL_OFS r)
  let d := l.zipIdx.foldl (fun d (p, j) =>
    let x := d.ph p
    d.when x.stays fun d =>
      let v := railPos ofs (d.phP p) j l.length
      let d := d.setFld (PHASE.PH_STATE_INDEX p) j
      if d.phState p = 1 then
        let here := decide (d.num (PHASE.PH_POS p) = x.goal)
        let d := d.setPh p { x with target := v, aims := [] }
        if here then d.placePhase p v else d.showMoving p
      else if x.goal = v then d
      else (d.setPh p (x.aim d.now at_ v)).showMoving p) d
  d.railShow r

/-! ### Ramps and parking (R213, R215) -/

/-- The state of a phase for the frame that starts at `f`: its ramp steps, and the answer tells whether the frame is parked.
[Log 160 DEDUCED] -/
def Dev.phaseFrame (d : Dev) (p : Nat) (f : Time) : Bool × Dev :=
  let r := d.phRail p
  let x := d.ph p
  let st := d.phState p
  if d.phRole p = 0 then (false, d)
  else if !d.railRuns r ∨ !(d.railList r).contains p ∨ st = 5 then (true, d)
  else match x.dirAt f with
    | none => (true, d)
    | some up =>
      if up ∧ st = 3 then (false, d)
      else
        let fr := d.fld (PHASE.PH_RAIL_RAMP_RAMP_FRAMES r)
        let f0 := if st = 1 then 0 else if st = 3 then fr else d.fld (PHASE.PH_STATE_FACTOR p)
        let f1 := if x.whole then fr else if up then min fr (f0 + 1) else f0 - 1
        let st' := if x.whole then 3 else if up then (if f1 ≥ fr then 3 else 2) else if f1 = 0 then 1 else 4
        let d := (d.setFld (PHASE.PH_STATE_FACTOR p) f1).setFld (PHASE.PH_STATE_STATE p) st'
        if st' = 1 then
          let d := (d.setFld (PHASE.PH_STATE_INDEX p) 0).setFld (PHASE.PH_STATE_MOVING p) 0
          let d := (d.setPh p x.out).setRailList r ((d.railList r).erase p)
          (true, d.retarget r d.now)
        else
          let x := { x with whole := false }
          let x := if st' = 4 ∧ st ≠ 4 then { x with target := d.num (PHASE.PH_POS p), aims := [] } else x
          (false, ((d.setPh p x).showMoving p).railShow r)

/-! ### Moves (R216) -/

/-- The move a phase makes at its next frame start, in fine ticks, later positive; 0 where it makes none (R216): an entry that leaves
keeps its position. [Log 70 DEDUCED] -/
def Dev.moveOf (d : Dev) (p : Nat) (f : Time) : Int :=
  let r := d.phRail p
  let x := d.ph p
  if d.phRole p = 0 ∨ !d.railRuns r ∨ !(d.railList r).contains p ∨ x.dirAt f ≠ some true ∨ d.phState p < 2 ∨ d.phState p = 5 then 0
  else
    let per := max 1 (d.phP p)
    let ahead := (x.aimAt f + per - d.num (PHASE.PH_POS p) % per) % per
    let step := d.fld (PHASE.PH_RAIL_RAMP_MOVE_STEP r)
    let lim := fun n => if step = 0 then n else min step n
    if ahead = 0 then 0 else if 2 * ahead ≤ per then (lim ahead : Nat) else -((lim (per - ahead) : Nat) : Int)

/-- The position of a phase after a move. -/
def Dev.movePos (d : Dev) (p : Nat) (m : Int) : Dev :=
  let per := max 1 (d.phP p)
  let d := d.setNum (PHASE.PH_POS p) (((d.num (PHASE.PH_POS p) : Int) + m) % (per : Int)).toNat
  (d.showMoving p).railShow (d.phRail p)

/-- A move later, decided when the frame start comes: it lengthens the preceding frame (R216). [Log 70 DEDUCED] -/
def Dev.laterMove (d : Dev) (o : Nat) : Dev :=
  let x := d.out o
  let p := d.phaseFor o
  if d.outSrc o ≠ 2 ∨ x.later ∨ x.moved ∨ x.formed then d
  else
    let m := d.moveOf p x.nextF
    if m ≤ 0 then d
    else
      let t := o / 2
      let f := x.nextF + tks m.toNat
      let b := d.reg64 (PWM.TIM_BOUNDARY t) + tks (d.tim t).p
      let d := d.each (d.outsOf p) fun d q => d.setOut q { d.out q with nextF := f, later := true, deferred := dist b f ≥ 0 }
      d.movePos p m

/-! ### The length of a period (R180, R202, R203) -/

/-- The length of the period that starts at boundary `b`, from the schedule before it and an adjustment: with the schedule after it, and
whether SCHEDULE_BEHIND is raised (R180, R202, R203). -/
def Dev.periodFrom (d : Dev) (t : Nat) (s0 : Sched) (adj : Int) (b : Time) : Nat × Sched × Bool :=
  let p := d.timP t
  match d.fld (PWM.TIM_CFG_SYNC t) with
  | 1 =>
    let sc := if s0.p = p then s0 else { s0 with p := p, k := (b - s0.t0).toNat / max 1 p }
    let (sc', fire) := sc.advance (d.fld (PWM.TIM_SCHED_CATCHUP t)) (d.fld (PWM.TIM_SCHED_BEHIND t)) b
    ((sc'.target - b).toNat, sc', fire)
  | 2 =>
    match (d.tim t).grid with
    | none => (p, s0, false)
    | some g =>
      let c : Int := (p * d.fld (PWM.TIM_SCHED_CATCHUP t) / 256 : Nat)
      let r := ((b + tks p - g).toInt % (p : Int))
      let err : Int := if 2 * r > p then r - p else r
      ((p - clampI (-c) c err).toNat, s0, false)
  | _ => (((p : Int) + adj).toNat, s0, false)

/-- BEHIND of a timer's schedule raised (R29, R203); a timer that follows another without driving raises nothing (R225). -/
def Dev.timBehind (d : Dev) (t : Nat) : Dev :=
  match d.actsAs t with
  | some lt => (d.setFld (PWM.TIM_STATUS_BEHIND lt) 1).raise 15
  | none => d

/-- The length of the period that starts at boundary `b`, with an adjustment accepted 20 ns or more before (R180, R202, R203). -/
def Dev.nextPeriod (d : Dev) (t : Nat) (b : Time) : Nat × Dev :=
  let x := d.tim t
  let use := match x.adj with
    | some (j, arr) => if d.fld (PWM.TIM_CFG_SYNC t) = 0 ∧ dist (arr + nsT 20) b ≥ 0 then some j else none
    | none => none
  let (p, sc, fire) := d.periodFrom t x.sched (use.getD 0) b
  let d := d.setTim t { x with sched0 := x.sched, sched := sc, adjIn := use.getD 0, adj := if use.isSome then none else x.adj }
  let d := d.when use.isSome fun d => d.setFld (PWM.TIM_STATUS_ADJ_PENDING t) 0
  (p, d.when fire fun d => d.timBehind t)

/-- The period that started at boundary `b` under a configuration that applies there (R180, R193). [Log 157 DEDUCED] -/
def Dev.rePeriod (d : Dev) (t : Nat) (b : Time) : Dev :=
  let x := d.tim t
  let (p, sc, fire) := d.periodFrom t x.sched0 x.adjIn b
  let told := x.sched0.armed && !x.sched.armed
  let d := d.setTim t { x with p := p, sched := sc, periodT := x.periodT.map fun _ => b + tks (p / 2) }
  d.when (fire && !told) fun d => d.timBehind t

/-! ### Frames -/

/-- The window of the frame that starts at `f` formed with length `l`: C taken, the window listed; a window that fills its frame, or
whose MAIN was to run on, ends at a frame without one (R182, R183, R187). -/
def Dev.formFrame (d : Dev) (o : Nat) (f : Time) (l k : Nat) : Dev :=
  let c := d.frameC o l
  let x := d.out o
  let wins := match d.windowOf o f l c with
    | none => x.wins.map fun w =>
        if w.begun ∧ (w.noOff ∨ (!w.evt ∧ dist f w.off > 0)) then { w with off := f, eOff := f, noOff := false, dComp := false } else w
    | some (on, off, evt) => x.wins ++ [d.mkWin o k on off evt false]
  (d.setOut o { x with cur := c, frF := f, frL := l, frK := k, wins := wins, formed := true, inserted := false, insBase := c
                       dropped := false }).replan o

/-- The output that drives the pin whose frames a timer's output makes without driving it, during a detour or a return (R225, R227). -/
def Dev.driver (d : Dev) (o : Nat) : Option Nat :=
  if (d.actsAs (o / 2)).isSome then none
  else if d.detState (o / 2) = 3 then some (d.phaseFor o)
  else some (2 * d.detPartner (o / 2) + o % 2)

/-- The next frame of an output that drives its pin formed: its length and number, the ramp step or parking of its phase, and its window
(R181, R213). -/
def Dev.formOwn (d : Dev) (o : Nat) (parked : Option Bool) : Dev :=
  let t := o / 2
  let f := (d.out o).nextF
  let x := d.tim t
  let b := d.reg64 (PWM.TIM_BOUNDARY t) + tks x.p
  let inP := decide (dist f b > 0)
  let (park, d) := match parked with | some k => (k, d) | none => d.phaseFrame (d.phaseFor o) f
  let d := d.setOut o { d.out o with parkNext := park }
  d.formFrame o f (if inP then x.p else (d.nextPeriod t b).1) (if inP then x.k else x.k + 1)

/-- An output's next frame formed; one that does not drive its pin forms the frame as the output does that drives it. -/
def Dev.formNext (d : Dev) (o : Nat) : Dev :=
  match d.driver o with
  | none => d.formOwn o none
  | some q =>
    let f := (d.out o).nextF
    let d := d.when (!(d.out q).formed && decide ((d.out q).nextF = f)) fun d => d.formOwn q none
    let y := d.out q
    d.formOwn o (some (if y.formed then y.parkNext else y.parked))

/-- The frames of phases that start within the update setup S are formed: whether they are parked is decided by then (R213).
[Log 160 DEDUCED] -/
def Dev.formSoon (d : Dev) (ps : List Nat) : Dev :=
  d.each ps fun d p => d.each (d.outsOf p) fun d o =>
    let near := fun (d : Dev) => !(d.out o).formed && decide (dist (d.out o).nextF (d.now + setupS) > 0)
    d.when (decide (d.timRun (o / 2) = 1) && d.outUsed o && near d) fun d =>
      let d := d.laterMove o
      d.when (near d) fun d => d.formNext o

end Sys2Proof.Machine
end

