-- ==== Sys2Proof/Machine/Rail.lean ====
section
/-!
DEFINITION. Machine/Rail.lean: rails: the effective count, enabling and disabling, values and trims, moves earlier, failures and
substitution, and what a commit of a rail or of the phase map asks and does (spec/09, R209 to R219).
-/
namespace Sys2Proof.Machine

/-- The agent ID of the PHASE block's own records (R219). -/
def railAgent : AgentId := 0x0300

/-! ### The effective count (R214) -/

/-- A phase can be active: not FAILED. -/
def Dev.phGood (d : Dev) (p : Nat) : Bool := decide (d.phState p ≠ 5)

/-- N: the requested phases, as far as there are any that have not failed. -/
def Dev.effCount (d : Dev) (r : Nat) : Nat :=
  min (d.fld (PHASE.PH_RAIL_CTRL_ACTIVE r)) ((d.railPhases r).filter d.phGood).length

/-- The last entries of the list begin to leave. [Log 160 DEDUCED] -/
def Dev.leaveLast (d : Dev) (r k : Nat) : Dev :=
  let ups := (d.railList r).filter fun p => (d.ph p).stays
  d.each (ups.drop (ups.length - k)) fun d p =>
    let x := d.ph p
    d.setPh p { x.turn d.now (d.now + nsT 20) false with whole := false }

/-- The outputs of a phase that starts are supplied the latest value of its rail; TIM_CMP until there is one (R212, R215).
[Log 160 DEDUCED] -/
def Dev.supply (d : Dev) (p : Nat) : Dev := d.each (d.outsOf p) fun d o => d.setOut o { d.out o with val := (d.ph p).offer }

/-- Entries come back, and then the best-ranked parked phases join at the end of the list. [Log 160 DEDUCED] -/
def Dev.joinMore (d : Dev) (r k : Nat) : Dev :=
  let back := ((d.railList r).filter fun p => !(d.ph p).stays).take k
  let d := d.each back fun d p => d.setPh p ((d.ph p).turn d.now (d.now + nsT 20) true)
  let new := ((d.railPhases r).filter fun p => d.phGood p && !(d.railList r).contains p).take (k - back.length)
  let d := d.setRailList r (d.railList r ++ new)
  let d := d.each new fun d p => d.setPh p { (d.ph p).out with turns := [(d.now + nsT 20, true)] }
  (d.retarget r (d.now + nsT 20)).each new fun d p => (d.placeAtTarget p).supply p

/-- N beside its value in the old status word: a change is counted and recorded (R219). [Log 74 DEDUCED] -/
def Dev.noteCount (d : Dev) (r : Nat) (old : Word) : Dev :=
  if d.fld (PHASE.PH_RAIL_STATUS_N r) = bitsOf old.toNat (PHASE.PH_RAIL_STATUS_N r).hi (PHASE.PH_RAIL_STATUS_N r).lo then d
  else (d.incFld (PHASE.PH_RAIL_COUNTS_CHANGES r)).logRec .system 3 railAgent (PHASE.PH_RAIL_STATUS r) (d.reg (PHASE.PH_RAIL_STATUS r)) old

/-- The count of a running rail brought to its effective count, with R219's record when it changes. [Log 76 DEDUCED] -/
def Dev.recount (d : Dev) (r : Nat) : Dev :=
  if !d.railRuns r then d.railShow r
  else
    let d := d.formSoon (d.railPhases r)
    let n := d.effCount r
    let old := d.reg (PHASE.PH_RAIL_STATUS r)
    let k := ((d.railList r).filter fun p => (d.ph p).stays).length
    let d := if n < k then d.leaveLast r (k - n) else if n > k then d.joinMore r (n - k) else d
    ((d.setFld (PHASE.PH_RAIL_STATUS_N r) n).retarget r (d.now + nsT 20)).noteCount r old

/-! ### Enabling and disabling (R210, R211, R213) -/

/-- A rail enabled: its first N phases form the list, at their target positions and not ramping, on TIM_CMP until its first delivery.
[Log 74 DEDUCED] -/
def Dev.railStart (d : Dev) (r : Nat) : Dev :=
  let d := d.formSoon (d.railPhases r)
  let old := d.reg (PHASE.PH_RAIL_STATUS r)
  let n := d.effCount r
  let all := (d.railPhases r).filter d.phGood
  let l := all.take n
  let d := (d.setFld (PHASE.PH_RAIL_STATUS_STATE r) 1).setFld (PHASE.PH_RAIL_STATUS_N r) n
  let d := d.each all fun d p => d.setFld (PHASE.PH_STATE_STATE p) 1
  let d := d.setRailList r l
  let os := (d.railPhases r).flatMap d.outsOf
  let d := { d with updQ := d.updQ.filter fun u => !(u.rail && os.contains u.out) }
  let d := d.each (d.railPhases r) fun d p => (d.setPh p { trim := (d.ph p).trim }).supply p
  let d := d.each l fun d p => d.setPh p { d.ph p with turns := [(d.now + nsT 20, true)], whole := true }
  let d := (d.retarget r d.now).each l Dev.placeAtTarget
  (d.railShow r).noteCount r old

/-- A rail that stops distributing, in STATE OFF or SAFE: its phases are parked and its count is 0 (R213). [Log 74 DEDUCED] -/
def Dev.railStop (d : Dev) (r state : Nat) : Dev :=
  let d := d.formSoon (d.railPhases r)
  let old := d.reg (PHASE.PH_RAIL_STATUS r)
  let d := d.each (d.railPhases r) fun d p =>
    let d := if d.phState p = 5 then d else d.setNum (PHASE.PH_STATE p) 1
    d.setPh p (d.ph p).out
  let d := d.setRailList r []
  let d := (d.setFld (PHASE.PH_RAIL_STATUS_STATE r) state).setFld (PHASE.PH_RAIL_STATUS_N r) 0
  (d.railShow r).noteCount r old

/-- The states of the phases after a change of the phase map: a phase outside every rail is UNUSED, one of a rail that does not
distribute is parked, and a failed one stays FAILED (R209, R213, R217). [Log 74 DEDUCED] -/
def Dev.mapStates (d : Dev) : Dev :=
  d.each (List.range 96) fun d p =>
    if d.phState p = 5 ∨ (d.phRole p ≠ 0 ∧ d.railRuns (d.phRail p)) then d
    else d.setNum (PHASE.PH_STATE p) (b2n (decide (d.phRole p ≠ 0)))

/-! ### Moves earlier (R216) -/

/-- PHASE_MOVE_DECISION (R216): 2 ns before its earlier start, a frame is moved if the frame before it has ended.
[Log 70 DEDUCED] -/
def execPhaseMoveDecision (o : Fin 96) (s : State) : Host.Outcome State Fault Refusal :=
  s.onDev fun d =>
    let x := d.out o
    let p := d.phaseFor o
    d.when (decide (d.timRun (o / 2) = 1) && decide (d.outSrc o = 2) && !x.moved && !x.formed && !x.later) fun d =>
      let m := d.moveOf p x.nextF
      let f := x.nextF - tks (-m).toNat
      let ended := x.wins.isEmpty && (match x.ndDt with | some (e, _) => decide (dist e f ≥ 0) | none => true)
      if m < 0 ∧ d.due (f - setupS) ∧ ended ∧ dist d.now f ≥ 0 then
        (d.each (d.outsOf p) fun d q => d.setOut q { d.out q with nextF := f, moved := true }).movePos p m
      else d

/-! ### Values and trims (R212) -/

/-- The top of a form: 100 %. -/
def formTop (v : UpdVal) : Nat := match v with | .duty _ => 2 ^ 24 | .ontime _ => 0x7FFFFFFF

/-- The number a value carries. -/
def UpdVal.num (v : UpdVal) : Nat := match v with | .duty n => n | .ontime n => n

/-- A value of the same form. -/
def UpdVal.put (v : UpdVal) (n : Nat) : UpdVal := match v with | .duty _ => .duty n | .ontime _ => .ontime n

/-- The value of one phase before its ramp (R212). -/
def phaseValue (d top : Nat) (tc m : Int) : Nat :=
  if d = 0 then 0 else if d ≥ top then top else (clampI 0 top ((d : Int) + tc - m)).toNat

/-- A value delivered to a rail: every phase of the list is supplied in the same instant, and a phase that joins later takes it when
it starts (R212, R215). -/
def Dev.deliverRail (d : Dev) (r : Nat) (v : UpdVal) : Dev :=
  d.when (d.railRuns r) fun d =>
    let l := d.railList r
    let lim := (d.fld (PHASE.PH_RAIL_TRIM_TRIM_LIM r) : Int)
    let tc := fun p => clampI (-lim) lim (d.ph p).trim
    let m := if d.flag (PHASE.PH_RAIL_CFG_ZEROSUM r) ∧ ¬ l.isEmpty then (l.map tc).sum / (l.length : Int) else 0
    let d := d.setNum (PHASE.PH_RAIL_VALUE r) v.num
    let val := fun p => v.put (phaseValue v.num (formTop v) (tc p) m)
    let d := d.each (d.railPhases r) fun d p => d.setPh p { d.ph p with offer := some (val p) }
    l.foldl (fun d p =>
      let u := val p
      let d := d.setNum (PHASE.PH_TRIM p) (low 32 (tc p - m))
      { d with updQ := d.updQ ++ (d.outsOf p).map fun o => { out := o, val := u, rail := true } }) d

/-- A trim delivered to a phase (R154, R212). -/
def Dev.deliverTrim (d : Dev) (p : Nat) (v : Int) : Dev := d.setPh p { d.ph p with trim := v }

/-! ### Failure and substitution (R217 to R219) -/

/-- A record of a phase's state word. -/
def Dev.phRec (d : Dev) (p : Nat) (old : Word) : Dev := d.logRec .system 3 railAgent (PHASE.PH_STATE p) (d.reg (PHASE.PH_STATE p)) old

/-- A spare takes the index `j` and the position of a failed entry, with the whole ramp factor (R217). [Log 160 DEDUCED] -/
def Dev.substitute (d : Dev) (r p q j : Nat) : Dev :=
  let old := d.reg (PHASE.PH_STATE q)
  let x := d.ph p
  let d := d.setRailList r ((d.railList r).map fun e => if e = p then q else e)
  let d := (d.setFld (PHASE.PH_STATE_INDEX q) j).setPh q
    { (d.ph q).out with target := x.target, aims := x.aims, turns := [(d.now + nsT 200, x.stays)], whole := true }
  let d := (((d.placePhase q (d.num (PHASE.PH_POS p))).supply q).setPh p (d.ph p).out).railShow r
  let d := (d.setFld (PHASE.PH_RAIL_STATUS_DEGRADED r) 1).incFld (PHASE.PH_RAIL_COUNTS_SUBST r)
  d.phRec q old

/-- A failure that finds no spare (R218): under RESPACE the failed entry leaves the list and the count is restored; under SAFE the
list stands until the fault manager's response. [Log 161 DEDUCED] -/
def Dev.phLoss (d : Dev) (r p : Nat) : Dev :=
  let d := ((d.setFld (PHASE.PH_RAIL_STATUS_LOSS r) 1).setFld (PHASE.PH_RAIL_STATUS_DEGRADED r) 1).report 0x0D r
  if d.flag (PHASE.PH_RAIL_CFG_ON_LOSS r) then
    let old := d.reg (PHASE.PH_RAIL_STATUS r)
    ((d.setFld (PHASE.PH_RAIL_STATUS_N r) (d.effCount r)).railShow r).noteCount r old
  else
    let d := (d.setPh p (d.ph p).out).setRailList r ((d.railList r).erase p)
    (d.retarget r (d.now + nsT 20)).recount r

/-- A phase fails (R217). -/
def Dev.phFail (d : Dev) (p : Nat) : Dev :=
  if d.phState p = 5 then d
  else
    let r := d.phRail p
    let d := d.formSoon (if d.phRole p = 0 then [p] else d.railPhases r)
    let old := d.reg (PHASE.PH_STATE p)
    let j := d.fld (PHASE.PH_STATE_INDEX p)
    let listed := decide (d.phRole p ≠ 0) && d.railRuns r && (d.railList r).contains p
    let d := (d.setNum (PHASE.PH_STATE p) 5).phRec p old
    if !listed then d.when (decide (d.phRole p ≠ 0)) fun d => d.recount r
    else match (d.ranked r 2).find? fun q => d.phGood q && !(d.railList r).contains q with
      | some q => (d.substitute r p q j).recount r
      | none => d.phLoss r p

/-- The failure of a phase cleared: it is parked, or a ready spare (R217). [Log 76 DEDUCED] -/
def Dev.phClear (d : Dev) (p : Nat) : Dev :=
  if d.phState p ≠ 5 then d
  else
    let r := d.phRail p
    let old := d.reg (PHASE.PH_STATE p)
    let d := (d.setNum (PHASE.PH_STATE p) (b2n (decide (d.phRole p ≠ 0)))).phRec p old
    d.when (decide (d.phRole p ≠ 0)) fun d => d.recount r

/-- A change of ACTIVE by an event that reaches a rail (R214). -/
def Dev.railAdd (d : Dev) (r : Nat) : Dev :=
  let old := d.reg (PHASE.PH_RAIL_CTRL r)
  let n := max (d.fld (PHASE.PH_RAIL_CTRL_ACTIVE r)) (d.fld (PHASE.PH_RAIL_ADD_ADD_TO r))
  let d := d.setFld (PHASE.PH_RAIL_CTRL_ACTIVE r) n
  (d.logRec .system 3 railAgent (PHASE.PH_RAIL_CTRL r) (d.reg (PHASE.PH_RAIL_CTRL r)) old).recount r

/-- The rails an event adds phases to (R214, R395). -/
def Dev.railEvent (d : Dev) (id : Nat) : Dev :=
  d.each (List.range 8) fun d r =>
    d.when (d.flag (PHASE.PH_RAIL_ADD_ADD_EN r) && decide (d.fld (PHASE.PH_RAIL_ADD_ADD_EVENT r) = id)) fun d => d.railAdd r

/-! ### Writes of the PHASE registers (R228) -/

/-- What refuses a write of a PHASE register beside its fields' ranges: stage, bit and cause. -/
def phaseRefusals (a : Nat) (v : Word) : List (Nat × Nat × Cause) :=
  if a = PHASE.PH_PHASE_CMD then (if bitOf v.toNat 9 ∧ bitOf v.toNat 8 then [(3, 9, .state)] else []) else []

/-- The action of an accepted write of a PHASE register. -/
def Dev.phaseEffect (d : Dev) (a : Nat) (v : Word) : Dev :=
  let n := v.toNat
  if a = PHASE.PH_PHASE_CMD then
    if bitOf n 8 then d.phFail (n % 128) else if bitOf n 9 then d.phClear (n % 128) else d
  else if PHASE.PH_RAIL_CFG 0 ≤ a ∧ a < PHASE.PH_RAIL_CFG 8 then
    let r := (a - PHASE.PH_RAIL_CFG 0) / 0x40
    if a = PHASE.PH_RAIL_CTRL r then d.recount r
    else if a = PHASE.PH_RAIL_CMD r ∧ bitOf n 0 then d.setNum (PHASE.PH_RAIL_COUNTS r) 0
    else d
  else d

/-- The timers of a rail agree and run, as R184 and R210 ask. -/
def Dev.railReady (d : Dev) (r : Nat) : Bool :=
  let ps := d.railPhases r
  let b0 := match ps with | p :: _ => d.reg64 (PWM.TIM_BOUNDARY (d.server (p / 2))) | [] => 0
  let p0 := match ps with | p :: _ => d.phP p | [] => 0
  ps.all fun p =>
    let t := d.server (p / 2)
    decide (d.timRun t = 1) && decide (d.outSrc (2 * t + p % 2) = 2) && !d.coarse t && decide (d.phP p = p0) && decide (p0 < 2 ^ 32)
      && decide ((d.reg64 (PWM.TIM_BOUNDARY t) - b0).toNat % max 1 p0 = 0)

/-- What refuses a commit of group `g` of the PHASE block (R184, R210); `e` is the device as the commit would leave it.
[Log 75 DEDUCED] -/
def Dev.phaseCommit (d e : Dev) (g : Nat) : Option Cause :=
  if g = 8 then
    let touched := (List.range 96).any fun p =>
      decide (d.num (PHASE.PH_MAP p) ≠ e.num (PHASE.PH_MAP p))
        && ((decide (d.phRole p ≠ 0) && d.railRuns (d.phRail p)) || (decide (e.phRole p ≠ 0) && d.railRuns (e.phRail p)))
    if touched then some .state else none
  else
    let p0 := match e.railPhases g with | p :: _ => e.phP p | [] => 2 ^ 64
    if e.num (PHASE.PH_RAIL_OFS g) ≥ p0 then some .range
    else if e.flag (PHASE.PH_RAIL_CFG_ENABLE g) ∧ ¬ d.railRuns g ∧ ¬ e.railReady g then some .state
    else none

/-- What the rails take up after group 0 to 7, a rail, or group 8, the phase map, has applied (R210, R228). -/
def Dev.phaseApplied (d : Dev) (g : Nat) : Dev :=
  if g = 8 then d.mapStates.each (List.range 8) Dev.recount
  else
    let on := d.flag (PHASE.PH_RAIL_CFG_ENABLE g)
    if on ∧ ¬ d.railRuns g then d.railStart g
    else if ¬ on ∧ d.fld (PHASE.PH_RAIL_STATUS_STATE g) ≠ 0 then d.railStop g 0
    else d.retarget g (d.now + nsT 20)

end Sys2Proof.Machine
end

