-- ==== Sys2Proof/Machine/Pwm.lean ====
section
/-!
DEFINITION. Machine/Pwm.lean: the frames, edges, updates, forces, trips and synchronisation of the timers (spec/08).
-/
namespace Sys2Proof.Machine

/-! ### Events (R201) -/

/-- Occurrence of event `j` (0 ZERO, 1 PERIOD, 2 EDGE_A, 3 EDGE_B) at time `e`: raised, and sent to the ADC channels triggered
by it, at each multiple of its prescaler (R101, R201). -/
def Dev.timerEvent (d : Dev) (t j : Nat) (e : Time) : Dev :=
  let n := bitsOf (d.num (PWM.TIM_EVT t)) (8 * j + 7) (8 * j)
  let x := d.tim t
  let c := if j = 0 then x.cntZero else if j = 1 then x.cntPeriod else if j = 2 then x.cntA else x.cntB
  let x := if j = 0 then { x with cntZero := c + 1 } else if j = 1 then { x with cntPeriod := c + 1 }
    else if j = 2 then { x with cntA := c + 1 } else { x with cntB := c + 1 }
  let d := d.setTim t x
  match d.actsAs t with
  | none => d
  | some lt =>
    if n = 0 ∨ c % n ≠ 0 then d
    else
      let chans := (List.range 96).filter fun ch =>
        decide (d.fld (ADC.CH_CFG_MODE ch) = 2) && decide (d.fld (ADC.CH_TRIG_TIMER ch) = lt) && decide (d.fld (ADC.CH_TRIG_EVENT ch) = j)
      { d with adcTrig := d.adcTrig ++ chans.map (fun ch => (ch, floorNs e)) }.raise (448 + 4 * lt + j)

/-! ### Edges -/

/-- MAIN is in force, or is due to begin, in the normal drive. -/
def OutSt.mainOn (x : OutSt) : Bool := decide (x.nd = .main)

/-- The on edge of a window at its time (R185, R199, R201). -/
def Dev.onEdge (d : Dev) (o : Nat) (w : Win) : Dev :=
  let t := o / 2
  let x := d.out o
  if x.mainOn then d
  else
    let dt := w.dOn
    let x := if dt = 0 then { x with nd := .main, ndDt := none, mainAt := w.on }
      else { x with nd := .off, ndDt := some (w.on + tks dt, .main) }
    let d := d.setOut o { x with lastOn := w.on }
    let d := d.when w.evt fun d => d.timerEvent t (2 + o % 2) w.on
    d.refresh o w.on

def Dev.countsReg (o : Nat) : Nat := if o % 2 = 0 then PWM.TIM_COUNTS_A (o / 2) else PWM.TIM_COUNTS_B (o / 2)
def Dev.countDropped (d : Dev) (o : Nat) : Dev := d.incFld ⟨Dev.countsReg o, 15, 0⟩
def Dev.countStretched (d : Dev) (o : Nat) : Dev := d.incFld ⟨Dev.countsReg o, 31, 16⟩

/-- The off edge of a window at its time (R185): a COMP interval that would be short before a placed on edge is dropped, and the drive
stays NONE (R187, R195). [Log 156 DEDUCED] -/
def Dev.offEdge (d : Dev) (o : Nat) (w : Win) (next : Option Time) : Dev :=
  let x := d.out o
  let e := w.eOff
  if (match next with | some n => w.shortComp e n | none => false) then
    let d := (d.setOut o { x with nd := .off, ndDt := none }).refresh o e
    d.when w.compOk fun d => d.countDropped o
  else
    let x := if w.dOff = 0 then { x with nd := .comp, ndDt := none } else { x with nd := .off, ndDt := some (e + tks w.dOff, .comp) }
    (d.setOut o x).refresh o e

/-- A window merges with the next, whose MAIN runs on until the later off edge (R182). -/
def Win.merge (w v : Win) : Win := { v with begun := true, off := laterT v.off w.off, eOff := laterT v.eOff w.eOff }

/-- DRIVE_EDGE (R185, R187): the earliest edge of an output that has been reached. [Log 80 DESIGN CHOICE] -/
def execDriveEdge (o : Fin 96) (s : State) : Host.Outcome State Fault Refusal :=
  s.onDev fun d => d.when (decide (d.timRun (o / 2) = 1)) fun d =>
    let x := d.out o
    match x.wins with
    | [] => d
    | w :: rest =>
      if !w.begun then
        if !d.due w.on then d
        else if !w.conduct then (d.setOut o { x with wins := rest, dropped := x.dropped || decide (w.k = x.frK) }).countDropped o
        else
          let d := (d.setOut o { x with wins := { w with begun := true } :: rest }).onEdge o w
          d.when w.sMain fun d => d.countStretched o
      else if w.noOff then
        match rest with
        | v :: t =>
          d.when (d.due v.on) fun d =>
            (d.setOut o { x with wins := w.merge v :: t }).when w.dComp fun d => d.countDropped o
        | [] => d
      else if d.due w.eOff then
        let d := (d.setOut o { x with wins := rest }).offEdge o w (rest.head?.map Win.on)
        d.when w.sComp fun d => d.countStretched o
      else d

/-- DEAD_TIME_END (R185, R187): a dead time of an output elapses. [Log 80 DESIGN CHOICE] -/
def execDeadTimeEnd (o : Fin 96) (s : State) : Host.Outcome State Fault Refusal :=
  s.onDev fun d =>
    let x := d.out o
    match x.ndDt with
    | some (e, dr) =>
      if d.due e then
        let x' := { x with nd := dr, ndDt := none, mainAt := if dr = .main then e else x.mainAt }
        match x.wins with
        | w :: rest =>
          if ¬ w.begun ∨ dr ≠ .main ∨ w.noOff ∨ dist e w.eOff ≥ w.m then (d.setOut o x').refresh o e
          else if dist e w.eOff ≤ 0 then d.setOut o { x with ndDt := none }
          else if w.str then
            let v := { w with off := e + tks w.m, eOff := e + tks w.m }
            (((d.setOut o { x' with wins := v :: rest }).countStretched o).replan o).refresh o e
          else (d.setOut o { x with ndDt := none, dropped := x.dropped || decide (w.k = x.frK) }).countDropped o
        | [] => (d.setOut o x').refresh o e
      else d
    | none =>
      match x.outDt with
      | some (e, dr) =>
        if d.due e then (d.setOut o { x with out := dr, outDt := none, special := true, lastCh := e }).relevel o e (decide (!x.tripped)) else d
      | none => d

/-! ### Updates (R188 to R192) -/

def landedReg (o : Nat) : Nat := if o % 2 = 0 then PWM.TIM_LANDED_A (o / 2) else PWM.TIM_LANDED_B (o / 2)

/-- Where a value took effect (R192). -/
def Dev.landed (d : Dev) (o frame code : Nat) : Dev := d.setNum (landedReg o) (frame % 0x10000 * 0x10000 + code)

/-- The windows with the last one replaced. -/
def setLast (ws : List Win) (w : Win) : List Win := ws.dropLast ++ [w]

/-- A value applied to the open edges of a window as EARLIEST has it (R190): the window of C' in this frame is `tgt`; none
where no edge is open. -/
def Dev.earliest (d : Dev) (o : Nat) (w : Win) (tgt : Option (Time × Time)) (as : Time) : Option (List Win) :=
  let x := d.out o
  if ¬ w.begun ∧ dist as w.on ≥ 0 then
    match tgt with
    | none => some x.wins.dropLast
    | some (on, off) =>
      let on' := laterT on as
      let off' := laterT off as
      if on' = off' then some x.wins.dropLast else some (setLast x.wins { w with on := on', off := off' })
  else if dist as w.eOff ≥ 0 ∨ w.noOff then
    let off := match tgt with | some (_, off) => off | none => as
    let off' := laterT off as
    let off' := if x.nd = .main then laterT off' (x.mainAt + tks w.m) else off'
    some (setLast x.wins { w with off := off' })
  else none

/-- TIM_NOW shows the on-time of the current frame once it has started. -/
def Dev.showCur (d : Dev) (o : Nat) : Dev := d.when (d.due (d.out o).frF) fun d => d.setNum (outNow o) (d.out o).cur

/-- The room of an inserted window (R191): a COMP interval that it would cut short before it has begun is dropped (R187, R195).
[Log 156 DEDUCED] -/
def Dev.insertWin (d : Dev) (o : Nat) (w : Win) : Dev :=
  let x := d.out o
  let cut := match x.ndDt with
    | some (e, dr) => decide (dr = .comp) && { w with dOff := 0 }.shortComp e w.on
    | none => false
  let d := d.setOut o { x with wins := x.wins ++ [w], ndDt := if cut then none else x.ndDt, inserted := true }
  (d.when (cut && w.compOk) fun d => d.countDropped o).replan o

/-- An update that reaches the arbiter at `a` (R189 to R192). A value that reaches a tripped output, or one before its first frame, changes
no edge (R200). -/
def Dev.arrive (d : Dev) (o : Nat) (v : UpdVal) (a : Time) : Dev :=
  let t := o / 2
  let as := a + setupS
  let x := d.out o
  let d := if dist x.nextF as > 0 ∧ ¬ x.formed then d.laterMove o else d
  let x := d.out o
  let race := decide (dist x.nextF as > 0)
  let d := if race ∧ ¬ x.formed then d.formNext o else d
  let d := d.setOut o { d.out o with val := some v }
  let x := d.out o
  let c' := d.convert t (d.ramped o v) x.frL
  let nextCode := if race then 3 else 2
  let pol := d.outPolicy o
  if pol = 0 ∨ (x.moved ∧ ¬ race) ∨ (d.out (d.leader o)).tripped ∨ x.frK = noFrame then (d.replan o).landed o (x.frK + 1) nextCode
  else
    let tgt : Option (Time × Time) := (d.windowOf o x.frF x.frL c').map fun q => (q.1, q.2.1)
    let w? := x.wins.getLast?.filter fun w => w.k = x.frK
    let insT : Option (Time × Time) := match w? with
      | some w => if w.ins then
          (if c' > x.insBase then
             let e := w.on + tks (d.unitTicks t (c' - x.insBase))
             some (w.on, if dist x.nextF e > 0 then x.nextF else e)
           else none) else tgt
      | none => tgt
    match (w?.bind fun w => d.earliest o w insT as) with
    | some ws => (((d.setOut o { x with wins := ws, cur := c' }).replan o).showCur o).landed o x.frK (if x.inserted then 4 else 1)
    | none =>
      let c0 := if x.dropped ∨ (d.windowOf o x.frF x.frL x.cur).isNone then 0 else x.cur
      let more := d.unitTicks t (c' - c0)
      let endF := if race then x.frF + tks x.frL else x.nextF
      let e0 := as + tks more
      let e := if dist endF e0 > 0 then endF else e0
      if pol = 2 ∧ ¬ x.inserted ∧ c' ≥ c0 ∧ more ≥ d.outInsMin o ∧ dist as e ≥ ((d.dtOn t + d.outMinp o : Nat) : Int) then
        let d := ((d.setOut o { x with insBase := c0, cur := c' }).insertWin o (d.mkWin o x.frK as e true true)).showCur o
        (d.incFld (if o % 2 = 0 then PWM.TIM_INSERTS_A t else PWM.TIM_INSERTS_B t)).landed o x.frK 4
      else (d.replan o).landed o (x.frK + 1) nextCode

/-- UPDATE_ARRIVAL (R188): the oldest value on its way to an output reaches its arbiter. -/
def execUpdateArrival (o : Fin 96) (s : State) : Host.Outcome State Fault Refusal :=
  s.onDev fun d =>
    match d.updQ.find? (fun u => u.out = o.val) with
    | none => d
    | some u =>
      let d := { d with updQ := d.updQ.erase u }
      if d.timRun (o / 2) ≠ 1 ∨ ¬ d.outUsed o ∨ d.outSrc o ≠ (if u.rail then 2 else 1) then d
      else d.arrive o u.val (floorNs d.now)

/-- A value delivered to a timer by the loop engine (R154, R183): to both outputs, and to both timers of a detour (R225). -/
def Dev.deliverTimer (d : Dev) (t : Nat) (v : UpdVal) : Dev :=
  let os := ((d.runners t).map fun q => [2 * q, 2 * q + 1]).flatten
  let us := os.filter fun o => decide (d.outSrc o = 1) && decide (d.timRun (o / 2) = 1)
  { d with updQ := d.updQ ++ us.map fun o => { out := o, val := v, rail := false } }

/-! ### Periods, starting and stopping (R180, R194, R202, R203) -/

/-- The first grid point of origin `g` and period `p` at or after a time. [Log 136 DEDUCED] -/
def gridFrom (g : Time) (p : Nat) (t : Time) : Time :=
  if dist g t ≤ 0 ∨ p = 0 then g else g + tks (((t - g).toNat + p - 1) / p * p)

/-- The forces that wait for a boundary take the first one at least 20 ns after their arrival (R196). [Log 158 DEDUCED] -/
def Dev.forcesAt (d : Dev) (t : Nat) (b : Time) : Dev :=
  let x := d.tim t
  d.setTim t { x with forces := x.forces.map fun f =>
    if f.boundary ∧ dist (f.time + nsT 20) b ≥ 0 then { f with boundary := false, time := b, eff := b } else f }

/-- Boundary B(k) at time `b`: the next period starts and ZERO occurs (R180, R201). -/
def Dev.boundaryAt (d : Dev) (t : Nat) (b : Time) (k : Nat) : Dev :=
  let (p, d) := d.nextPeriod t b
  let d := d.setTim t { d.tim t with k := k, p := p, periodT := some (b + tks (p / 2)) }
  let d := (d.setReg64 (PWM.TIM_BOUNDARY t) b).setFld (PWM.TIM_STATUS_PERIOD t) k
  let d := d.each [2 * t, 2 * t + 1] fun d o =>
    let x := d.out o
    if x.deferred ∨ x.formed ∨ x.moved then d else d.setOut o { x with nextF := b + tks (d.outPos o) }
  (d.forcesAt t b).timerEvent t 0 b

/-- A stopped timer starts with boundary B(0) = `b` (R185, R194). -/
def Dev.startTimer (d : Dev) (t : Nat) (b : Time) : Dev :=
  let x := d.tim t
  let g := Tab.get 0 t d.planT0
  let sc : Sched := { t0 := g, p := d.timP t, k := (b - g).toNat / max 1 (d.timP t), target := b }
  let d := d.setTim t { forces := x.forces, grid := x.grid, adj := x.adj, sched := sc }
  let d := d.setFld (PWM.TIM_STATUS_RUN t) 1
  let d := d.each [2 * t, 2 * t + 1] fun d o =>
    let x := d.out o
    let y : OutSt := { out := x.out, outDt := x.outDt, special := true, level := x.level, tripped := x.tripped, force := x.force
                       parked := x.parked, nd := .off, ndDt := some (b + tks (d.dtOff t), .comp), frK := noFrame
                       lastCh := x.lastCh, ended := x.ended }
    let y := if d.dtOff t = 0 then { y with nd := .comp, ndDt := none } else y
    ((d.setOut o y).setNum (outNow o) 0).refresh o b
  d.boundaryAt t b 0

/-- A commit asked for MODE = RUN at a time: B(0) is that time rounded up, or the first grid point (R194, R203). -/
def Dev.requestStart (d : Dev) (t : Nat) (at_ : Time) : Dev :=
  let x := d.tim t
  match d.fld (PWM.TIM_CFG_SYNC t) with
  | 1 =>
    match Tab.find t d.planT0 with
    | some g => d.setTim t { x with startAt := some (gridFrom g (d.timP t) at_) }
    | none => (d.setTim t { x with wantStart := some at_ }).setFld (PWM.TIM_STATUS_RUN t) 2
  | 2 =>
    match x.grid with
    | some g => d.setTim t { x with startAt := some (gridFrom g (d.timP t) at_) }
    | none => d.setTim t { x with wantStart := some at_ }
  | _ => if d.due at_ then d.startTimer t at_ else d.setTim t { x with startAt := some at_ }

/-- A commit of MODE = OFF at a boundary (R194). -/
def Dev.stopTimer (d : Dev) (t : Nat) (b : Time) : Dev :=
  let d := d.setTim t { forces := (d.tim t).forces, grid := (d.tim t).grid }
  let d := (d.setFld (PWM.TIM_STATUS_RUN t) 0).setFld (PWM.TIM_STATUS_ADJ_PENDING t) 0
  let d := { d with updQ := d.updQ.filter fun u => u.out / 2 ≠ t }
  d.each [2 * t, 2 * t + 1] fun d o =>
    let x := d.out o
    (d.setOut o { x with val := none, wins := [], nd := .off, ndDt := none, formed := false, deferred := false, moved := false
                         special := true }).refresh o b

/-- TIMER_BOUNDARY (R180, R194): a boundary is reached, or a start whose time has come. -/
def execTimerBoundary (t : Fin 48) (s : State) : Host.Outcome State Fault Refusal :=
  s.onDev fun d =>
    let x := d.tim t
    match x.startAt with
    | some b => d.when (d.due b && d.flag (PWM.BANK_STATUS_READY (t / 16))) fun d => d.startTimer t b
    | none =>
      let b := d.reg64 (PWM.TIM_BOUNDARY t) + tks x.p
      d.when (decide (d.timRun t = 1) && d.due b) fun d => d.boundaryAt t b (x.k + 1)

/-- PERIOD_EVENT (R201): the middle of a period. [Log 80 DESIGN CHOICE] -/
def execPeriodEvent (t : Fin 48) (s : State) : Host.Outcome State Fault Refusal :=
  s.onDev fun d =>
    let x := d.tim t
    match x.periodT with
    | some e => d.when (decide (d.timRun t = 1) && d.due e) fun d => (d.setTim t { x with periodT := none }).timerEvent t 1 e
    | none => d

/-- PWM_BANK_READY (R179): 10 µs after power-up the bank's WAITING timers start. -/
def execPwmBankReady (b : Fin 3) (s : State) : Host.Outcome State Fault Refusal :=
  s.onDev fun d => d.when (d.powered (30 + b) 10000) fun d =>
    let d := (d.setFld (PWM.BANK_STATUS_READY b) 1).setMapBit SUPPLY.DOM_STATUS_0 (30 + b) true
    d.each ((List.range 16).map (16 * b.val + ·)) fun d t =>
      d.when (decide (d.timRun t = 2)) fun d => d.requestStart t (ceilNs d.now)

/-! ### Adjustment and synchronisation -/

/-- A TIM_ADJ accepted (R202). -/
def Dev.adjust (d : Dev) (t : Nat) (j : Word) : Dev :=
  (d.setTim t { d.tim t with adj := some (j.toInt, d.now) }).setFld (PWM.TIM_STATUS_ADJ_PENDING t) 1

/-- SYNC_PIN_EDGE (R203): a qualified rising edge of the sync pin resets the grid, and starts a timer that waits for it.
[Log 73 DEDUCED] -/
def execSyncPinEdge (t : Fin 48) (s : State) : Host.Outcome State Fault Refusal :=
  s.onDev fun d => d.when (decide (d.fld (PWM.TIM_CFG_SYNC t) = 2)) fun d =>
    let x := d.tim t
    let g := d.now + tks (d.num (PWM.TIM_SYNC_OFS t))
    let x := { x with grid := some g }
    match x.wantStart with
    | some w => d.setTim t { x with wantStart := none, startAt := some (gridFrom g (d.timP t) w) }
    | none => d.setTim t x

/-! ### Forces (R196) -/

/-- The drive a FORCE field names: none for NONE, some none for RELEASE. -/
def forceDrive (n : Nat) : Option (Option Drive) :=
  match n with
  | 1 => some none | 2 => some (some .main) | 3 => some (some .comp) | 4 => some (some .off) | 5 => some (some .hiz) | _ => none

/-- A TIM_FORCE write accepted: the force waits for its boundary or its time; a late one acts as soon as it can, and never before a late
one that arrived earlier (R196, R25). [Log 158 DEDUCED] -/
def Dev.forceWrite (d : Dev) (t : Nat) (v : Word) : Dev :=
  let n := v.toNat
  let at_ := d.reg64 (PWM.TIM_FORCE_AT t)
  let isAt := bitOf n 16
  let late := isAt && before (at_ - nsT 20) d.now
  let x := d.tim t
  let soonest := x.forces.foldl (fun e f => if f.late then laterT e f.eff else e) (laterT at_ d.now)
  let f : PendForce := { fa := bitsOf n 2 0, fb := bitsOf n 10 8, time := if isAt then at_ else d.now, boundary := !isAt, late := late
                         eff := if late then soonest else if isAt then at_ else d.now }
  d.setTim t { x with forces := x.forces ++ [f] }

/-- One output's part of a force. -/
def Dev.forceOut (d : Dev) (o n : Nat) (e : Time) : Dev :=
  match forceDrive n with
  | none => d
  | some f =>
    let d := d.setOut o { d.out o with force := f, special := true }
    (d.setFld (ab o PWM.TIM_STATUS_FORCED_A PWM.TIM_STATUS_FORCED_B) (b2n f.isSome)).refresh o e

/-- The earliest force of a list: the earliest effect, and of equal times the first to arrive (R26). [Log 158 DEDUCED] -/
def firstForce : List PendForce → Option PendForce
  | [] => none
  | f :: t =>
    match firstForce t with
    | some g => if dist f.eff g.eff < 0 then some g else some f
    | none => some f

/-- FORCE_APPLY (R196): the force whose time has come takes effect. [Log 158 DEDUCED] -/
def execForceApply (t : Fin 48) (s : State) : Host.Outcome State Fault Refusal :=
  s.onDev fun d =>
    let x := d.tim t
    match firstForce (x.forces.filter fun f => d.due f.eff && !f.boundary) with
    | none => d
    | some f =>
      let d := d.setTim t { x with forces := x.forces.erase f }
      let d := d.when f.late fun d => (d.lateAct (0x20 + t / 16) f.time f.eff).setFld (PWM.TIM_STATUS_LATE t) 1
      let d := d.forceOut (2 * t) f.fa f.eff
      if d.fld (PWM.TIM_CFG_PAIRING t) = 1 then d else d.forceOut (2 * t + 1) f.fb f.eff

/-! ### Trips (R198 to R200) -/

/-- Trip signal `n` (R121). -/
def Dev.tripSig (d : Dev) (n : Nat) : Bool := bitOf (d.num (COMP.TRIP (n / 96 * 3 + n % 96 / 32))) (n % 32)

def Dev.tripEn (d : Dev) (t i : Nat) : Bool := d.flag (if i = 0 then PWM.TIM_TRIP_EN0 t else PWM.TIM_TRIP_EN1 t)
def Dev.tripLatch (d : Dev) (t i : Nat) : Bool := d.flag (if i = 0 then PWM.TIM_TRIP_MODE0 t else PWM.TIM_TRIP_MODE1 t)
def Dev.tripSel (d : Dev) (t i : Nat) : Nat := d.fld (if i = 0 then PWM.TIM_TRIP_SEL0 t else PWM.TIM_TRIP_SEL1 t)
def Dev.tripBlank (d : Dev) (t i : Nat) : Nat := d.fld (if i = 0 then PWM.TIM_BLANK_BLANK0 t else PWM.TIM_BLANK_BLANK1 t)

/-- An enabled trip input of a mode is high. -/
def Dev.tripHigh (d : Dev) (t : Nat) (latch : Bool) : Bool :=
  [0, 1].any fun i => d.tripEn t i && (d.tripLatch t i == latch) && d.tripSig (d.tripSel t i)

/-- The outputs of a timer that make frames of their own (R186). -/
def Dev.timOuts (d : Dev) (t : Nat) : List Nat := [2 * t, 2 * t + 1].filter d.outUsed

/-- TRIPPED follows the outputs. -/
def Dev.showTripped (d : Dev) (t : Nat) : Dev :=
  d.setFld (PWM.TIM_STATUS_TRIPPED t) (b2n ((d.timOuts t).any fun o => (d.out o).tripped))

/-- One output tripped. [Log 71 DEDUCED] -/
def Dev.tripOut (d : Dev) (o : Nat) : Dev := (d.setOut o { d.out o with tripped := true, special := true }).refresh o d.now

/-- The timer latches (R200, R217). -/
def Dev.tripLatchNow (d : Dev) (t : Nat) : Dev :=
  if d.flag (PWM.TIM_STATUS_LATCHED t) then d
  else
    let d := (d.setFld (PWM.TIM_STATUS_LATCHED t) 1).incFld (PWM.TIM_TRIPS_LATCHES t)
    let d := (d.each (d.timOuts t) Dev.tripOut).showTripped t
    match d.actsAs t with
    | none => d
    | some lt =>
      let d := d.report 0x0B lt
      d.each [2 * lt, 2 * lt + 1] fun d p =>
        d.when (decide (d.phRole p ≠ 0) && d.flag (PHASE.PH_RAIL_CFG_LATCH_FAIL (d.phRail p))) fun d => d.phFail p

/-- A rising trip signal on a CYCLE input trips the outputs that are not blanked (R199). [Log 71 DEDUCED] -/
def Dev.tripCycle (d : Dev) (t i : Nat) : Dev :=
  let os := (d.timOuts t).filter fun o => decide (dist d.now ((d.out o).lastOn + nsT (d.tripBlank t i)) ≤ 0)
  if os.isEmpty then d
  else
    let d := (d.setFld (PWM.TIM_STATUS_CYCLE_TRIP t) 1).incFld (PWM.TIM_TRIPS_CYCLES t)
    (d.each os Dev.tripOut).showTripped t

/-- Trip signal `n` rises: every timer input that selects it responds (R198). [Log 71 DEDUCED] -/
def Dev.tripRises (d : Dev) (n : Nat) : Dev :=
  d.each (List.range 48) fun d t =>
    d.each [0, 1] fun d i =>
      if !d.tripEn t i ∨ d.tripSel t i ≠ n then d
      else if d.tripLatch t i then d.tripLatchNow t else d.tripCycle t i

/-! ### Frame starts -/

/-- A tripped output resumes at its frame start (R199, R200). -/
def Dev.resumeTrip (d : Dev) (o : Nat) : Dev :=
  let t := o / 2
  if (d.out o).tripped ∧ ¬ d.flag (PWM.TIM_STATUS_LATCHED t) ∧ ¬ d.tripHigh t false then
    (d.setOut o { d.out o with tripped := false }).showTripped t
  else d

/-- A released safe state ends at the frame start (R436). -/
def Dev.resumeSafe (d : Dev) (o : Nat) : Dev :=
  match d.phaseOf o with
  | none => d
  | some p => d.when (d.safeRel.contains p) fun d =>
    ({ d with safeRel := d.safeRel.erase p } : Dev).setMapBit (FAULT.SAFE_NOW 0) p false

/-- FRAME_START (R181): an output's frame starts, after a move later that it owes. [Log 80 DESIGN CHOICE] -/
def execFrameStart (o : Fin 96) (s : State) : Host.Outcome State Fault Refusal :=
  s.onDev fun d =>
    d.when (decide (d.timRun (o / 2) = 1) && d.outUsed o && d.due (d.out o).nextF) fun d =>
      let d := d.laterMove o
      let f := (d.out o).nextF
      d.when (d.due f) fun d =>
        let d := if (d.out o).formed then d else d.formNext o
        let t := o / 2
        let next := d.reg64 (PWM.TIM_BOUNDARY t) + tks (d.tim t).p + tks (d.outPos o)
        let x := d.out o
        let d := d.setOut o { x with nextF := next, formed := false, moved := false, later := false, deferred := false, parked := x.parkNext }
        (((d.setNum (outNow o) x.cur).resumeTrip o).resumeSafe o).refresh o f

/-! ### Writes and commits of the PWM registers (R180 to R202, R208) -/

/-- A timer of an enabled rail, by its own number or by that of the timer it serves (R209, R210). -/
def Dev.timRail (d : Dev) (t : Nat) : Bool :=
  (if d.detState t = 3 then [t, d.detPartner t] else [t]).any fun q =>
    [2 * q, 2 * q + 1].any fun p => decide (d.phRole p ≠ 0) && d.railRuns (d.phRail p)

/-- The timer whose registers hold an address, and the register's offset. -/
def timAt (a : Nat) : Option (Nat × Nat) :=
  if PWM.TIM_CFG 0 ≤ a ∧ a < 0x230000 ∧ 0x200 ≤ a % 0x10000 ∧ a % 0x10000 < 0xA00 then
    some ((a - 0x200000) / 0x10000 * 16 + (a % 0x10000 - 0x200) / 0x80, (a % 0x10000 - 0x200) % 0x80)
  else none

/-- What refuses a write of a PWM register beside its fields' ranges (R200, R202, R210): stage, bit and cause. [Log 72 DEDUCED] -/
def Dev.pwmRefusals (d : Dev) (a : Nat) (v : Word) : List (Nat × Nat × Cause) :=
  match timAt a with
  | none => []
  | some (t, off) =>
    if off = 0x40 then
      (if d.fld (PWM.TIM_CFG_MODE t) = 0 ∨ d.fld (PWM.TIM_CFG_SYNC t) ≠ 0 ∨ d.flag (PWM.TIM_STATUS_ADJ_PENDING t) ∨ d.timRail t then [(3, 31, .state)] else []) ++
      (if (d.timP t : Int) + v.toInt < 1024 then [(3, 31, .range)] else [])
    else if off = 0x50 then (if bitOf v.toNat 2 ∧ d.tripHigh t true then [(3, 2, .state)] else [])
    else []

/-- The action of an accepted write of a PWM register. -/
def Dev.pwmEffect (d : Dev) (a : Nat) (v : Word) : Dev :=
  match timAt a with
  | none => d
  | some (t, off) =>
    if off = 0x40 then d.adjust t v
    else if off = 0x44 then d.forceWrite t v
    else if off = 0x50 then
      let d := d.when (bitOf v.toNat 1) fun d =>
        (((d.setNum (PWM.TIM_COUNTS_A t) 0).setNum (PWM.TIM_COUNTS_B t) 0).setNum (PWM.TIM_TRIPS t) 0).setNum (PWM.TIM_INSERTS t) 0
      d.when (bitOf v.toNat 2) fun d => d.setFld (PWM.TIM_STATUS_LATCHED t) 0
    else d

/-- A register word or field differs between two states of the device. -/
def fldDiff (d e : Dev) (f : Fld) : Bool := decide (d.fld f ≠ e.fld f)

/-- What refuses a commit of timer `t` (R180, R181, R184, R186, R203, R210, R226); `e` is the device as the commit would leave it.
[Log 73 DEDUCED] -/
def Dev.pwmCommit (d e : Dev) (t : Nat) : Option Cause :=
  let run := decide (d.timRun t = 1)
  if e.timP t < 1024 ∨ e.unitTicks t (e.num (PWM.TIM_OFS_A t)) ≥ e.timP t
      ∨ (e.outUsed (2 * t + 1) ∧ e.unitTicks t (e.num (PWM.TIM_OFS_B t)) ≥ e.timP t) then some .range
  else if run ∧ (fldDiff d e (PWM.TIM_CFG_PAIRING t) ∨ fldDiff d e (PWM.TIM_CFG_ALIGN t) ∨ fldDiff d e (PWM.TIM_CFG_SYNC t)
      ∨ fldDiff d e (PWM.TIM_CFG_COARSE t)) then some .running
  else if d.timRail t ∧ (d.timP t ≠ e.timP t ∨ fldDiff d e (PWM.TIM_OUT_CFG_SRC_A t) ∨ fldDiff d e (PWM.TIM_OUT_CFG_SRC_B t)
      ∨ fldDiff d e (PWM.TIM_CFG_MODE t)) then some .state
  else if e.fld (PWM.TIM_CFG_SYNC t) = 2 ∧ (e.fld (PINMUX.PIN_OWN_FUNC (96 + e.fld (PWM.TIM_CFG_SYNC_PIN t))) ≠ 4
      ∨ e.fld (PINMUX.PIN_OWN_INDEX (96 + e.fld (PWM.TIM_CFG_SYNC_PIN t))) ≠ t / 16) then some .state
  else if (d.detState t = 2 ∨ d.detState t = 4) ∧ d.fld (PWM.TIM_CFG_MODE t) = 0 ∧ e.fld (PWM.TIM_CFG_MODE t) ≠ 0 then some .state
  else none

/-- The frame of an output that a commit at `at_` reaches before it starts: of a frame not formed yet the start follows the offset, and
one formed in the reload race takes the new settings, its edges that are not placed following its value (R181, R193).
[Log 157 DEDUCED] -/
def Dev.reframe (d : Dev) (o : Nat) (at_ : Time) : Dev :=
  let t := o / 2
  let x := d.out o
  let y := d.tim t
  if !x.formed then
    if x.deferred ∨ x.moved ∨ x.frK = y.k then d else d.setOut o { x with nextF := at_ + tks (d.outPos o) }
  else if dist at_ x.frF < 0 then d
  else
    let l := if dist x.frF (at_ + tks y.p) > 0 then y.p else x.frL
    let c := d.frameC o l
    let open_ := at_ + setupS
    let wins := match x.wins.getLast?, d.windowOf o x.frF l c with
      | some w, some (on, off, evt) =>
        if w.k ≠ x.frK ∨ w.begun then x.wins
        else
          let move := fun old new => if dist open_ old ≥ 0 then laterT new open_ else old
          x.wins.dropLast ++ [d.mkWin o x.frK (move w.on on) (move w.off off) evt w.ins]
      | _, _ => x.wins
    (d.setOut o { x with cur := c, frL := l, wins := wins }).replan o

/-- What a timer takes up when a commit has applied at time `at_`, an AT commit or not (R193, R194, R201); `old` is the device before
it. [Log 157 DEDUCED] -/
def Dev.pwmApplied (old d : Dev) (t : Nat) (at_ : Time) (byTime : Bool) : Dev :=
  let mode := d.fld (PWM.TIM_CFG_MODE t)
  let x := d.tim t
  let byte := fun i => decide (bitsOf (old.num (PWM.TIM_EVT t)) (8 * i + 7) (8 * i) ≠ bitsOf (d.num (PWM.TIM_EVT t)) (8 * i + 7) (8 * i))
  let x := { x with
    cntZero := if byte 0 then 0 else x.cntZero
    cntPeriod := if byte 1 then 0 else x.cntPeriod
    cntA := if byte 2 then 0 else x.cntA
    cntB := if byte 3 then 0 else x.cntB }
  let d := d.setTim t x
  let d := d.when (d.tripHigh t true) fun d => d.tripLatchNow t
  if d.timRun t = 0 then
    if mode = 0 then
      let d := d.setTim t { d.tim t with startAt := none, wantStart := none }
      (d.refresh (2 * t) at_).refresh (2 * t + 1) at_
    else if d.flag (PWM.BANK_STATUS_READY (t / 16)) then d.requestStart t (if byTime then at_ else ceilNs at_)
    else d.setFld (PWM.TIM_STATUS_RUN t) 2
  else if mode = 0 then
    d.stopTimer t at_
  else if d.timRun t = 2 then d
  else
    let d := if at_ = d.reg64 (PWM.TIM_BOUNDARY t) then d.rePeriod t at_ else d.boundaryAt t at_ (x.k + 1)
    (d.reframe (2 * t) at_).reframe (2 * t + 1) at_

/-! ### Truing of the delay lines (R204, R205) -/

/-- LINE_TRUE_START (R204): the bank begins truing the idle line of its next output; output 0's true begins a lap and ends the one before
it. -/
def execLineTrueStart (b : Fin 3) (s : State) : Host.Outcome State Fault Refusal :=
  s.onDev fun d =>
    let x := Tab.get {} b.val d.lineTrue
    d.when (decide (d.fld (PWM.TRUE_CTRL_MODE b) = 0) && d.flag (PWM.BANK_STATUS_READY b) && x.subject.isNone && d.due x.nextAt) fun d =>
      let d := match x.lapStart with
        | some t => d.when (decide (x.next = 0)) fun d => d.setFld (PWM.TRUE_STATUS_LAP_MS b) (min 0xFFFF ((d.now - t).toNat / 64000000))
        | none => d
      let x := { x with subject := some x.next, doneAt := d.now + nsT 50000, lapStart := if x.next = 0 then some d.now else x.lapStart }
      ({ d with lineTrue := Tab.set {} b.val x d.lineTrue } : Dev).setFld (PWM.TRUE_STATUS_SUBJECT b) x.next

/-- A delay line lies within its limits: latency within 150 ps in 1/256 ns, gain within 3 % in units of 2^-16 (R205). -/
def lineOk (lat gain : Int) : Bool := decide (lat.natAbs * 1000 ≤ 150 * 256) && decide (gain.natAbs * 100 ≤ 3 * 65536)

/-- LINE_TRUE_DONE (R204 to R206): a 50 µs true ends with the line's latency and tap gain. [Log 56 DEDUCED] -/
def execLineTrueDone (b : Fin 3) (lat gain : Int) (s : State) : Host.Outcome State Fault Refusal :=
  s.onDev fun d =>
    let x := Tab.get {} b.val d.lineTrue
    match x.subject with
    | none => d
    | some i => d.when (d.due x.doneAt) fun d =>
      let o := 32 * b.val + i
      let nextAt := d.now + nsT (d.fld (PWM.TRUE_CTRL_INTERVAL_MS b) * 1000000)
      let x' : LineTrue := { x with subject := none, next := (i + 1) % 32, nextAt := nextAt }
      let d : Dev := { d with lineTrue := Tab.set {} b.val x' d.lineTrue }
      let d := d.setFld (PWM.TRUE_STATUS_SUBJECT b) 0x3F
      let idle := 2 * o + (1 - b2n (bitOf (d.num (PWM.TRUE_LINE b)) i))
      let ok := lineOk lat gain
      let d := d.noteCalib (0x20 + b) i ([BitVec.ofNat 8 (idle % 2), BitVec.ofNat 8 (b2n (!ok))] ++ d.tjBytes ++ toBytes 2 (low 16 lat) ++ toBytes 2 (low 16 gain))
      if ok then (if d.lineFailed.contains idle then d else { d with lineSwap := Tab.put o d.now d.lineSwap })
      else
        let d : Dev := { d with lineFailed := d.lineFailed ++ [idle] }
        let d := d.setNum (PWM.TRUE_FAIL b) (putBits (d.num (PWM.TRUE_FAIL b)) i i 1)
        (d.setFld (PWM.TRUE_FLAG_FLAG b) 1).report 0x0C o

/-- The failed lines of a bank whose other state is lost stay out of service until power-on reset (R205). -/
def Dev.lineKeep (d : Dev) (b : Nat) : Dev :=
  d.each ((List.range 32).map (32 * b + ·)) fun d o =>
    let x := d.lineFailed.contains (2 * o)
    if x || d.lineFailed.contains (2 * o + 1) then
      let d := d.setNum (PWM.TRUE_FAIL b) (putBits (d.num (PWM.TRUE_FAIL b)) (o % 32) (o % 32) 1)
      d.setNum (PWM.TRUE_LINE b) (putBits (d.num (PWM.TRUE_LINE b)) (o % 32) (o % 32) (b2n x))
    else d

/-- No change of an output's drive falls from `lo` before now to `hi` after now: none has, and no edge, dead time, force or resumption
that is known does. [Log 159 DESIGN CHOICE] -/
def Dev.quietOut (d : Dev) (o : Nat) (lo hi : Time) : Bool :=
  let x := d.out o
  let far := fun (e : Time) => decide (dist (d.now + hi) e > 0) || decide (dist e (d.now - lo) > 0)
  let farO := fun (e : Option Time) => match e with | some t => far t | none => true
  decide (dist (x.lastCh + lo) d.now ≥ 0 ∨ x.lastCh = 0) && farO (x.ndDt.map (·.1)) && farO (x.outDt.map (·.1))
    && (x.wins.all fun w => (w.begun || !w.conduct || far w.on) && (w.noOff || !w.conduct || far w.eOff))
    && (decide (d.timRun (o / 2) ≠ 1) || ((x.formed || farO (d.predNext o)) && (!x.tripped || far x.nextF)
      && (!(x.formed && x.parked != x.parkNext) || far x.nextF)))
    && (d.tim (o / 2)).forces.all fun f => if f.boundary then far (d.reg64 (PWM.TIM_BOUNDARY (o / 2)) + tks (d.tim (o / 2)).p) else far f.eff

/-- LINE_SWAP (R204): the two lines of an output change roles after its next frame start, clear of every transition by 4 ns.
[Log 159 DESIGN CHOICE] -/
def execLineSwap (o : Fin 96) (s : State) : Host.Outcome State Fault Refusal :=
  s.onDev fun d =>
    match Tab.find o.val d.lineSwap with
    | none => d
    | some t =>
      d.when ((decide (d.timRun (o / 2) ≠ 1) || decide (dist t (d.out o).frF ≥ 0)) && d.quietOut o (nsT 4) (nsT 4)) fun d =>
        let b := o.val / 32
        let d : Dev := { d with lineSwap := Tab.del o.val d.lineSwap }
        d.setNum (PWM.TRUE_LINE b) (d.num (PWM.TRUE_LINE b) ^^^ 2 ^ (o.val % 32))

end Sys2Proof.Machine
end

