-- ==== Sys2Proof/Machine/Witness.lean ====
section
/-!
DEFINITION. Machine/Witness.lean: the edge witness and the detours of timers (spec/09, R220 to R229).
-/
namespace Sys2Proof.Machine

/-- TOL in picoseconds. -/
def Dev.witTol (d : Dev) (p : Nat) : Nat := d.fld (WITNESS.WIT_CFG_TOL p)

/-- The half width of a search window in fine ticks, rounded up (R221). [Log 77 DEDUCED] -/
def Dev.witHalf (d : Dev) (p : Nat) : Nat := ((d.witTol p + 1000) * 64 + 999) / 1000

/-- MEASURING: enabled, the bank ready and the pin owned by a PWM bank (R220); what is open when that ends is dropped.
[Log 77 DEDUCED] -/
def Dev.showMeasuring (d : Dev) (p : Nat) : Dev :=
  let m := d.flag (WITNESS.WIT_CFG_ENABLE p) && bitOf (d.fld WITNESS.WIT_BANK_STATUS_READY) (p / 32)
    && decide (d.fld (PINMUX.PIN_OWN_FUNC p) = 4)
  let d := d.setFld (WITNESS.WIT_STATUS_MEASURING p) (b2n m)
  d.when (!m) fun d => d.setWit p { d.wit p with edges := [], trs := [], extras := [] }

/-! ### Edges and transitions (R220 to R222) -/

/-- The time of a transition, in fine ticks. -/
def WitTr.time (x : WitTr) : Time := x.base + BitVec.ofInt 64 (x.ps * 64 / 1000)

/-- The error of a transition against an edge in picoseconds. -/
def witError (e : WitEdge) (x : WitTr) : Int := dist e.t x.base * 125 / 8 + x.ps

/-- The number of the edge a transition is matched to: the nearest whose window of `h` picoseconds to either side holds it, the earlier
of two equally near. [Log 77 DEDUCED] -/
def nearest (es : List WitEdge) (h : Nat) (x : WitTr) : Option Nat :=
  ((es.zipIdx.filter fun (e, _) => decide ((witError e x).natAbs ≤ h)).foldl
    (fun best (e, i) =>
      match best with
      | some (j, b) => if (witError e x).natAbs < (witError b x).natAbs then some (i, e) else some (j, b)
      | none => some (i, e)) none).map (·.1)

/-- An unmeasured change lies within 10 ns of a time. [Log 77 DEDUCED] -/
def WitSt.nearUnmeasured (w : WitSt) (t : Time) : Bool := w.unmeasured.any fun u => decide ((dist u t).natAbs ≤ 640)

/-- A transition belongs to the window of an edge that is open. -/
def Dev.witBelongs (d : Dev) (p : Nat) (x : WitTr) : Bool := (nearest (d.wit p).edges (d.witTol p + 1000) x).isSome

/-- The transitions that belong to no window and that no window still to come can hold are extra, but for those near an unmeasured
change (R220, R221). [Log 77 DEDUCED] -/
def Dev.witSettle (d : Dev) (p : Nat) : Dev :=
  let w := d.wit p
  let gone := w.trs.filter fun x => !d.witBelongs p x && d.due (x.time + tks (max (d.witHalf p) 640))
  let new := (gone.map WitTr.time).filter fun t => !w.nearUnmeasured t
  let d := d.setWit p { w with trs := w.trs.filter (fun x => !gone.contains x), extras := w.extras ++ new }
  d.when (!new.isEmpty) fun d => d.setFld (WITNESS.WIT_STATUS_EXTRA p) 1

/-- WITNESS_TRANSITION (R220, R221): the ball of phase `p` crosses to a level, `ps` picoseconds from the Milepost's present
whole nanosecond. [Log 77 DEDUCED] -/
def execWitnessTransition (p : Fin 96) (ps : Int) (lvl : Fin 3) (s : State) : Host.Outcome State Fault Refusal :=
  s.onDev fun d => d.when (d.flag (WITNESS.WIT_STATUS_MEASURING p)) fun d =>
    let d := d.witSettle p
    let w := d.wit p
    let level : Level := match lvl with | 0 => .low | 1 => .mid | 2 => .high
    d.setWit p { w with trs := w.trs ++ [{ base := d.now, ps := ps, level := level }] }

/-- A fault of an output declared (R222). -/
def Dev.witDeclare (d : Dev) (p : Nat) (t : Time) : Dev :=
  let old := d.reg (WITNESS.WIT_STATUS p)
  let d := d.setFld (WITNESS.WIT_STATUS_FAULTED p) 1
  let d := d.setWit p { d.wit p with tf := t }
  (((d.raise 11).raise (640 + p)).report 0x0A p).sysRec (WITNESS.WIT_STATUS p) old

/-- The error of a matched transition shown. -/
def Dev.witShowErr (d : Dev) (p : Nat) (err : Int) (t : Time) : Dev :=
  let d := d.setReg64 (WITNESS.WIT_LAST p) t
  let d := d.setFld (WITNESS.WIT_ERR_LAST_PS p) (low 16 (clampI (-32767) 32767 err))
  d.setFld (WITNESS.WIT_ERR_WORST_PS p) (max (d.fld (WITNESS.WIT_ERR_WORST_PS p)) (min 0xFFFF err.natAbs))

/-- A mismatched or missing edge: flags, counts, RUN and a fault at COUNT. -/
def Dev.witBad (d : Dev) (p : Nat) (flag : Fld) (t : Time) : Dev :=
  let d := (d.setFld flag 1).incFld (WITNESS.WIT_COUNT_MISMATCHES p)
  let d := d.incFld (WITNESS.WIT_STATUS_RUN p)
  if d.fld (WITNESS.WIT_STATUS_RUN p) ≥ d.fld (WITNESS.WIT_CFG_COUNT p) ∧ ¬ d.flag (WITNESS.WIT_STATUS_FAULTED p) then d.witDeclare p t else d

/-- A transition is the one an edge asks for, within the tolerance (R221). -/
def Dev.witMatches (d : Dev) (p : Nat) (e : WitEdge) (x : WitTr) : Bool :=
  decide (x.level = e.level) && decide ((witError e x).natAbs ≤ d.witTol p)

/-- The outcome of an edge that has a transition in its window, or none, with an extra transition before it or not (R221, R222).
[Log 77 DEDUCED] -/
def Dev.witJudge (d : Dev) (p : Nat) (e : WitEdge) (seen : Option WitTr) (extra : Bool) : Dev :=
  let d := d.setFld (WITNESS.WIT_COUNT_EDGES p) (d.fld (WITNESS.WIT_COUNT_EDGES p) + 1)
  match seen with
  | none => (d.when extra fun d => d.setFld (WITNESS.WIT_STATUS_MISMATCH p) 1).witBad p (WITNESS.WIT_STATUS_MISSING p) e.t
  | some x =>
    let d := d.witShowErr p (witError e x) x.time
    if d.witMatches p e x ∧ ¬ extra then d.setFld (WITNESS.WIT_STATUS_RUN p) 0 else d.witBad p (WITNESS.WIT_STATUS_MISMATCH p) e.t

/-- WITNESS_WINDOW_END (R221, R222): the oldest open search window of an output closes. An edge is judged once no edge to come can be
nearer to its transitions; a missing edge, and one beside transitions of no window, only after the 10 ns in which an unmeasured change
would excuse them (R220). [Log 77 DEDUCED] -/
def execWitnessWindowEnd (p : Fin 96) (s : State) : Host.Outcome State Fault Refusal :=
  s.onDev fun d =>
    let d := d.witSettle p
    let w := d.wit p
    match w.edges with
    | [] => d
    | e :: rest =>
      let mine := w.trs.filter fun x => nearest w.edges (d.witTol p + 1000) x = some 0
      let loose := w.trs.filter fun x => !d.witBelongs p x
      let wait := if mine.isEmpty ∨ ¬ loose.isEmpty then max (d.witHalf p) 640 else d.witHalf p
      if !d.due (e.t + tks wait) ∨ (mine.any fun x => decide (dist x.time d.now < dist e.t x.time)) then d
      else
        let left := w.trs.filter fun x => !mine.contains x
        if mine.isEmpty ∧ w.nearUnmeasured e.t then d.setWit p { w with edges := rest, trs := left }
        else
          let d := d.setWit p { w with edges := rest, trs := left, extras := w.extras.filter fun t => !before t e.t }
          d.witJudge p e ((mine.find? fun x => d.witMatches p e x).or mine.head?) (w.extras.any fun t => before t e.t)

/-- WITNESS_BANK_READY (R223): 10 µs after power-up. -/
def execWitnessBankReady (b : Fin 3) (s : State) : Host.Outcome State Fault Refusal :=
  s.onDev fun d => d.when (d.powered (33 + b) 10000) fun d =>
    let rd := d.fld WITNESS.WIT_BANK_STATUS_READY
    let d := (d.setFld WITNESS.WIT_BANK_STATUS_READY (putBits rd b b 1)).setMapBit SUPPLY.DOM_STATUS_0 (33 + b) true
    d.each ((List.range 32).map (32 * b.val + ·)) Dev.showMeasuring

/-! ### Detours (R224 to R227) -/

/-- A timer's configuration words (R208). -/
def timWords (t : Nat) : List Nat := (List.range 16).map fun i => PWM.TIM_CFG t + 4 * i

/-- A timer may take a detour now (R224); the detour of an output its spare already drives is not one. -/
def Dev.detourOk (d : Dev) (t : Nat) : Bool :=
  let s := d.fld (WITNESS.DET_CFG_SPARE t)
  d.flag (WITNESS.DET_CFG_ENABLE t) && decide (s < 48) && decide (s / 16 ≠ t / 16) && d.flag (PWM.BANK_STATUS_READY (s / 16))
    && decide (d.fld (PWM.TIM_CFG_MODE s) = 0) && decide (d.detState t = 0) && decide (d.detState s = 0)

/-- A change of the level of both pins of a timer that the witness does not measure (R220). -/
def Dev.noteBoth (d : Dev) (t : Nat) : Dev := (d.witNote (2 * t) d.now).witNote (2 * t + 1) d.now

/-- A detour begins when its fault is declared (R225); the spare's own pins become HIZ (R226). -/
def Dev.detourStart (d : Dev) (t : Nat) (tf : Time) : Dev :=
  let s := d.fld (WITNESS.DET_CFG_SPARE t)
  let d := d.noteBoth s
  let d := (d.setFld (WITNESS.DET_STATUS_STATE t) 1).setFld (WITNESS.DET_STATUS_PARTNER t) s
  let d := (d.setFld (WITNESS.DET_STATUS_STATE s) 3).setFld (WITNESS.DET_STATUS_PARTNER s) t
  d.setDet t { tf := tf }

/-- The state of one timer's outputs and periods copied to another. -/
def Dev.copyRun (d : Dev) (t s : Nat) : Dev :=
  let d := (d.setTim s (d.tim t)).setReg64 (PWM.TIM_BOUNDARY s) (d.reg64 (PWM.TIM_BOUNDARY t))
  let d := d.setNum (PWM.TIM_STATUS s) (d.num (PWM.TIM_STATUS t))
  let d := d.each [0, 1] fun d x =>
    let o := 2 * s + x
    let y := d.out (2 * t + x)
    (d.setOut o { y with level := (d.out o).level }).setNum (outNow o) (d.num (outNow (2 * t + x)))
  let mine := (d.updQ.filter fun u => u.out / 2 = t).map fun u => { u with out := 2 * s + u.out % 2 }
  { d with updQ := (d.updQ.filter fun u => u.out / 2 ≠ s) ++ mine }

/-- The claims and pending commits on a timer's group aborted, and the group dropped from a pending global commit (R225). -/
def Dev.abortTim (d : Dev) (t : Nat) : Dev :=
  let k := grpKey (0x20 + t / 16) (t % 16)
  d.abortForFault k

/-- The configuration of one timer copied to another. -/
def Dev.copyWords (d : Dev) (t s : Nat) : Dev :=
  (List.range 16).foldl (fun d i => d.setReg (PWM.TIM_CFG s + 4 * i) (d.reg (PWM.TIM_CFG t + 4 * i))) d

/-- The values of a timer's configuration words, kept for their records. -/
def Dev.keepWords (d : Dev) (t : Nat) : List (Nat × Word) := (timWords t).map fun a => (a, d.reg a)

/-- TIMER_DETOUR_COPY (R225): the state of a detouring timer is copied into its spare. [Log 78 DEDUCED] -/
def execTimerDetourCopy (t : Fin 48) (s : State) : Host.Outcome State Fault Refusal :=
  s.onDev fun d =>
    let x := d.det t
    d.when (decide (d.detState t = 1) && !x.copied) fun d =>
      let sp := d.detPartner t
      let d := (d.setDet t { x with copied := true, saved := d.keepWords sp }).copyWords t sp
      ((d.copyRun t sp).abortTim t).abortTim sp

/-- DETOUR_SHADOW_START (R225): from t_f + 1,000 ns the spare makes the same frames and edges, without driving.
[Log 78 DEDUCED] -/
def execDetourShadowStart (t : Fin 48) (s : State) : Host.Outcome State Fault Refusal :=
  s.onDev fun d =>
    let x := d.det t
    d.when (decide (d.detState t = 1) && x.copied && !x.shadow && d.due (x.tf + nsT 1000)) fun d =>
      (d.setDet t { x with shadow := true }).copyRun t (d.detPartner t)

/-- Both outputs of a timer hold one drive state from 4 ns before now to 8 ns after (R225). -/
def Dev.timSteady (d : Dev) (t : Nat) : Bool := d.quietOut (2 * t) (nsT 4) (nsT 8) && d.quietOut (2 * t + 1) (nsT 4) (nsT 8)

/-- The first instant at or after `from_` from which both outputs of a timer have held their drive states for 4 ns up to now. -/
def Dev.steadyFrom (d : Dev) (t : Nat) (from_ : Time) : Time :=
  [2 * t, 2 * t + 1].foldl (fun a o => if (d.out o).lastCh = 0 then a else laterT a ((d.out o).lastCh + nsT 4)) from_

/-- The instant a switch of pins that may come from `from_` on falls at, driven until then by timer `by_`, and whether it holds their
levels: the first steady instant, or 900 ns after `from_` at the latest (R225, R227). [Log 78 DEDUCED] -/
def Dev.switchAt (d : Dev) (by_ : Nat) (from_ : Time) : Option (Time × Bool) :=
  let last := from_ + nsT 900
  if !d.due from_ then none
  else if d.timSteady by_ ∧ dist (d.steadyFrom by_ from_) last ≥ 0 then some (d.steadyFrom by_ from_, true)
  else if d.due last then some (last, false)
  else none

/-- The pins of timer `t` make the level crossing of a switch that began at `ts`: 4 ns, HOLD or MID; a change of level is not measured
(R220, R225). -/
def Dev.detourCross (d : Dev) (t from_ : Nat) (ts : Time) (hold : Bool) : Dev :=
  d.each [0, 1] fun d x =>
    let was := (d.out (2 * from_ + x)).level
    let c : Xing := { endT := ts + nsT 4, level := if hold then was else .mid }
    let d : Dev := { d with xings := Tab.put (2 * t + x) c d.xings }
    d.when (decide (c.level ≠ was)) fun d => d.witNote (2 * t + x) ts

/-- The level crossing of a pin ends where its new driver's level is `now`; a change of level is not measured (R220). -/
def Dev.crossDone (d : Dev) (p : Nat) (now : Level) (t : Time) : Dev :=
  match Tab.find p d.xings with
  | none => d
  | some x =>
    let d : Dev := { d with xings := Tab.del p d.xings }
    d.when (decide (x.level ≠ now)) fun d => d.witNote p t

/-- TIMER_DETOUR_SWITCH (R225): at a steady instant, or at t_f + 1,900 ns, the pins begin their crossing. [Log 78 DEDUCED] -/
def execTimerDetourSwitch (t : Fin 48) (s : State) : Host.Outcome State Fault Refusal :=
  s.onDev fun d =>
    let x := d.det t
    match d.switchAt t (x.tf + nsT 1000) with
    | some (ts, hold) => d.when (decide (d.detState t = 1) && x.shadow && x.ts.isNone) fun d =>
        (d.setDet t { x with ts := some ts }).detourCross t t ts hold
    | none => d

/-- PIN_OWN of a timer's pins names the timer that drives them, with OWNER records (R225, R355). [Log 78 DEDUCED] -/
def Dev.detourOwn (d : Dev) (t by_ : Nat) : Dev :=
  d.each [2 * t, 2 * t + 1] fun d p =>
    d.when (decide (d.fld (PINMUX.PIN_OWN_FUNC p) = 4)) fun d =>
      let old := d.reg (PINMUX.PIN_OWN p)
      let d := d.setFld (PINMUX.PIN_OWN_INDEX p) by_
      d.logRec .owner 3 devAgent (PINMUX.PIN_OWN p) (d.reg (PINMUX.PIN_OWN p)) old

/-- A timer stopped without a boundary: its outputs stand where IDLE puts them. -/
def Dev.haltTimer (d : Dev) (t : Nat) : Dev := d.stopTimer t d.now

/-- FAULT_ACTION records of words against their old values (R435). [Log 78 DEDUCED] -/
def Dev.faultRecs (d : Dev) (l : List (Nat × Word)) : Dev := l.foldl (fun d (a, old) => d.faultRec devAgent a old) d

/-- Witness edges measure the pin whatever timer drives it: the level the new driver's output stands at becomes the level of
the pin without an edge, and the crossing of pin `p` ends. -/
def Dev.adoptLevel (d : Dev) (o p : Nat) (t : Time) : Dev :=
  let l := d.outLevel o
  (d.setOut o { d.out o with level := l }).crossDone p l t

/-- SPARE_TAKES_PINS (R225): 4 ns after the switch the spare drives the pins. [Log 78 DEDUCED] -/
def execSpareTakesPins (t : Fin 48) (s : State) : Host.Outcome State Fault Refusal :=
  s.onDev fun d =>
    let x := d.det t
    match x.ts with
    | none => d
    | some ts =>
      d.when (decide (d.detState t = 1) && d.due (ts + nsT 4)) fun d =>
        let sp := d.detPartner t
        let old := d.reg (PWM.TIM_CFG t)
        let d := d.detourOwn t sp
        let d := d.setFld (PWM.TIM_CFG_MODE t) 0
        let d := ((d.faultRec devAgent (PWM.TIM_CFG t) old).faultRecs x.saved).raise 13
        let d := (d.setFld (WITNESS.DET_STATUS_STATE t) 2).setFld (WITNESS.DET_STATUS_DONE t) 1
        let d := d.haltTimer t
        let d := (d.adoptLevel (2 * sp) (2 * t) (ts + nsT 4)).adoptLevel (2 * sp + 1) (2 * t + 1) (ts + nsT 4)
        let d := d.incFld (WITNESS.DET_COUNT_DETOURS t)
        let d := d.setReg64 WITNESS.DET_LAST_T x.tf
        let d := d.setFld WITNESS.DET_LAST_INFO_SWITCH_NS ((dist x.tf ts).toNat / 64)
        (d.setFld WITNESS.DET_LAST_INFO_SPARE sp).setFld WITNESS.DET_LAST_INFO_TIMER t

/-- DET_CMD.RETURN is refused where R227 does not hold. -/
def Dev.detReturnOk (d : Dev) (t : Nat) : Bool :=
  decide (t < 48) && decide (d.detState t = 2) && d.flag (PWM.BANK_STATUS_READY (t / 16))
    && decide (bitsOf (d.num (PWM.TRUE_FAIL (t / 16))) (2 * (t % 16) + 1) (2 * (t % 16)) = 0)
    && !d.flag (WITNESS.WIT_STATUS_FAULTED (2 * t)) && !d.flag (WITNESS.WIT_STATUS_FAULTED (2 * t + 1))
    && decide (dist (d.now + nsT 2000) (d.reg64 WITNESS.DET_RETURN_AT) ≥ 0)

/-- The state of a served timer comes back to it: it makes the same frames and edges from then on, without driving (R227).
[Log 78 DEDUCED] -/
def Dev.returnCopy (d : Dev) (t : Nat) : Dev :=
  let sp := d.detPartner t
  let d := (d.setDet t { d.det t with copied := true, back := d.keepWords t }).copyWords sp t
  ((d.copyRun sp t).abortTim t).abortTim sp

/-- A timer that returns drives its pins, and its spare is restored and stopped (R227); `ts` is the instant of the switch.
[Log 78 DEDUCED] -/
def Dev.returnDone (d : Dev) (t : Nat) (ts : Time) : Dev :=
  let x := d.det t
  let sp := d.detPartner t
  let olds := d.keepWords sp
  let d := d.detourOwn t t
  let d := (x.saved.foldl (fun d (a, w) => d.setReg a w) d).haltTimer sp
  let d := ((d.faultRecs x.back).faultRecs olds).raise 13
  let d := (d.setNum (WITNESS.DET_STATUS t) 0x100).setFld (WITNESS.DET_STATUS_STATE sp) 0
  let d := (d.setFld (WITNESS.DET_STATUS_PARTNER sp) 0).setDet t {}
  ((d.adoptLevel (2 * t) (2 * t) (ts + nsT 4)).adoptLevel (2 * t + 1) (2 * t + 1) (ts + nsT 4)).noteBoth sp

/-- TIMER_RETURN (R227): from RETURN_AT on the state is copied back, the pins begin their crossing at a steady instant or 900 ns later, and
4 ns after that the timer drives and the spare is restored and stopped. [Log 78 DEDUCED] -/
def execTimerReturn (t : Fin 48) (s : State) : Host.Outcome State Fault Refusal :=
  s.onDev fun d =>
    match (d.det t).returnAt with
    | none => d
    | some r => d.when (decide (d.detState t = 4) && d.due r) fun d =>
        let d := if (d.det t).copied then d else d.returnCopy t
        let sp := d.detPartner t
        let d := match (d.det t).ts, d.switchAt sp r with
          | none, some (ts, hold) => (d.setDet t { d.det t with ts := some ts }).detourCross t sp ts hold
          | _, _ => d
        match (d.det t).ts with
        | some ts => d.when (d.due (ts + nsT 4)) fun d => d.returnDone t ts
        | none => d

/-! ### Commits of a timer during a detour (R225, R226) -/

/-- The words of a timer taken up by the timer that makes the same frames: the spare's registers read its configuration, but for MODE
where the timer itself is stopped (R226). [Log 78 DEDUCED] -/
def Dev.mirrorWords (d : Dev) (t sp : Nat) : Dev :=
  let mode := d.fld (PWM.TIM_CFG_MODE sp)
  let e := d.copyWords t sp
  if d.timRun t = 0 then e.setFld (PWM.TIM_CFG_MODE sp) mode else e

/-- What follows a commit of timer `t` (R193, R225, R226): its spare takes the same words up once it has the timer's state.
[Log 78 DEDUCED] -/
def Dev.timApplied (old d : Dev) (t : Nat) (at_ : Time) (byTime : Bool) : Dev :=
  let e := Dev.pwmApplied old d t at_ byTime
  let st := d.detState t
  if (st = 1 ∧ (d.det t).copied) ∨ st = 2 ∨ st = 4 then
    Dev.pwmApplied e (e.mirrorWords t (d.detPartner t)) (d.detPartner t) at_ byTime
  else e

/-! ### Writes and commits of the WITNESS registers (R229) -/

/-- The output whose registers hold an address, and the register's offset. -/
def witAt (a : Nat) : Option (Nat × Nat) :=
  if WITNESS.WIT_CFG 0 ≤ a ∧ a < WITNESS.WIT_CFG 96 then some ((a - WITNESS.WIT_CFG 0) / 0x20, (a - WITNESS.WIT_CFG 0) % 0x20) else none

/-- What refuses a write of a WITNESS register beside its fields' ranges: stage, bit and cause. -/
def Dev.witRefusals (d : Dev) (a : Nat) (v : Word) : List (Nat × Nat × Cause) :=
  if a = WITNESS.DET_CMD then (if bitOf v.toNat 31 ∧ ¬ d.detReturnOk (v.toNat % 64) then [(3, 31, .state)] else []) else []

/-- The action of an accepted write of a WITNESS register. -/
def Dev.witEffect (d : Dev) (a : Nat) (v : Word) : Dev :=
  let n := v.toNat
  if a = WITNESS.DET_CMD then
    d.when (bitOf n 31) fun d =>
      (d.setDet (n % 64) { d.det (n % 64) with copied := false, ts := none, returnAt := some (d.reg64 WITNESS.DET_RETURN_AT) }).setFld (WITNESS.DET_STATUS_STATE (n % 64)) 4
  else match witAt a with
    | none => d
    | some (p, off) =>
      if off ≠ 0x18 then d
      else
        let d := d.when (bitOf n 0) fun d => (d.setNum (WITNESS.WIT_COUNT p) 0).setFld (WITNESS.WIT_ERR_WORST_PS p) 0
        d.when (bitOf n 1) fun d => (d.setFld (WITNESS.WIT_STATUS_FAULTED p) 0).setFld (WITNESS.WIT_STATUS_RUN p) 0

/-- What refuses a commit of group `g` (R224, R229); `e` is the device as the commit would leave it. [Log 79 DEDUCED] -/
def Dev.witCommit (d e : Dev) (g : Nat) : Option Cause :=
  if g < 96 then none
  else
    let t := g - 96
    if d.detState t ≠ 0 then some .state
    else if e.fld (WITNESS.DET_CFG_SPARE t) / 16 = t / 16 then some .state
    else none

/-- What the witness takes up after a commit of group `g`. -/
def Dev.witApplied (d : Dev) (g : Nat) : Dev :=
  if g < 96 then (d.setFld (WITNESS.WIT_STATUS_RUN g) 0).showMeasuring g else d

end Sys2Proof.Machine
end

