-- ==== Sys2Proof/Machine/Adc.lean ====
section
/-!
DEFINITION. Machine/Adc.lean: analog inputs: codes, sample instants, delivery, streams, windows and truing (spec/04).
A channel is numbered 0 to 95; half h of the twelve holds channels 8h to 8h + 7.
-/
namespace Sys2Proof.Machine

def Dev.adc (d : Dev) (c : Nat) : AdcSt := Tab.get {} c d.adcs
def Dev.setAdc (d : Dev) (c : Nat) (x : AdcSt) : Dev := { d with adcs := Tab.set {} c x d.adcs }
def Dev.half (d : Dev) (h : Nat) : AdcHalf := Tab.get {} h d.adcHalves
def Dev.setHalf (d : Dev) (h : Nat) (x : AdcHalf) : Dev := { d with adcHalves := Tab.set {} h x d.adcHalves }

/-- CH_CFG.MODE: 0 OFF, 1 CONT, 2 TRIG, 3 TIMED. -/
def Dev.adcMode (d : Dev) (c : Nat) : Nat := d.fld (ADC.CH_CFG_MODE c)
def Dev.adcRun (d : Dev) (c : Nat) : Nat := d.fld (ADC.CH_STATUS_RUN c)

/-- The half of a channel is ready (R104). -/
def Dev.halfReady (d : Dev) (h : Nat) : Bool := d.flag (if h % 2 = 0 then ADC.BLK_STATUS_HALF0_READY (h / 2) else ADC.BLK_STATUS_HALF1_READY (h / 2))

/-! ### Codes and words (R95 to R97) -/

/-- Twice the input in units of 1 / 1.2e9 LSB: `vd` in nanovolts, or the internal levels of R96. -/
def Dev.adcInput (d : Dev) (c : Nat) (vd : Int) : Int :=
  match d.fld (ADC.CH_CFG_INPUT c) with
  | 0 => vd * (2 ^ d.fld (ADC.CH_CFG_GAIN c) : Nat) * 2048
  | 1 => 0
  | 2 => 1920 * 1200000000
  | _ => -1920 * 1200000000

/-- The code of an input (R95). [Log 56 DEDUCED] -/
def adcCode (x : Int) : Int := clampI (-2048) 2047 ((2 * x + 1200000000) / 2400000000)

/-- The input is beyond full scale (R95). -/
def adcOver (x : Int) : Bool := decide (2 * x ≥ 4095 * 1200000000) || decide (2 * x < -4097 * 1200000000)

/-- A sample word (R97). -/
def adcWord (x : Int) (newcfg : Bool) (num : Word) : Half :=
  BitVec.ofNat 16 (low 12 (adcCode x) * 16 + b2n (adcOver x) * 8 + b2n newcfg * 4 + num.toNat % 4)

/-- The signed code of a sample word. -/
def codeOf (w : Half) : Int := sext 12 (w.toNat / 16)

/-! ### Sample instants (R98 to R102) -/

/-- The first instant of CONT at or after a whole nanosecond (R100). -/
def contAt (div phase n : Nat) : Nat :=
  let m := 8 * max 1 div
  n + (phase % m + m - n % m) % m

/-- The earliest whole nanosecond at which a channel may sample: the start of its configuration, and 8 ns after the previous
instant. -/
def Dev.adcFrom (d : Dev) (c : Nat) : Time :=
  let x := d.adc c
  let s := ceilNs x.start
  match x.prev with | some p => laterT s (p + nsT 8) | none => s

/-- The next CONT instant. -/
def Dev.contNext (d : Dev) (c : Nat) : Time :=
  nsT (contAt (d.fld (ADC.CH_CFG_DIV c)) (d.fld (ADC.CH_PHASE_PHASE c)) (nsOf (d.adcFrom c)))

/-- The TIMED target: that of R28, rounded down to a whole nanosecond (R24, R98), and 8 ns after the previous instant (R102). -/
def Dev.timedTarget (d : Dev) (c : Nat) : Time :=
  let x := d.adc c
  let t := floorNs x.sched.target
  match x.prev with | some p => laterT t (p + nsT 8) | none => t

/-- The instant at which a TIMED occurrence is taken: its target, or the start of the channel. -/
def Dev.timedAt (d : Dev) (c : Nat) : Time := laterT (d.timedTarget c) (ceilNs (d.adc c).start)

/-- A sample captured at `t` (R97, R98). [Log 59 DEDUCED] -/
def Dev.capture (d : Dev) (c : Nat) (t : Time) (vd : Int) : Dev :=
  let x := d.adc c
  let num := d.reg (ADC.CH_COUNT c)
  let smp : Sample := { t := t, word := adcWord (d.adcInput c vd) x.newcfg num, num := num
                        lim := d.reg (ADC.CH_WIN_LIM c), cfg := d.reg (ADC.CH_WIN_CFG c), strm := d.reg (ADC.CH_STREAM c) }
  (d.setAdc c { x with prev := some t, newcfg := false, conv := x.conv ++ [smp], taken := (smp :: x.taken).take 8 }).wrapNum (ADC.CH_COUNT c)

/-- A late sample (R25, R101, R102). -/
def Dev.adcLate (d : Dev) (c : Nat) (target t : Time) : Dev :=
  (d.lateAct (0x10 + c / 16) target t).setFld (ADC.CH_STATUS_LATE c) 1

/-- The TIMED occurrence of a channel (R102). -/
def Dev.timedSample (d : Dev) (c : Nat) (vd : Int) : Dev :=
  let t := d.timedAt c
  let target := d.timedTarget c
  d.when (d.due t) fun d =>
    let x := d.adc c
    let (sc, fire) := x.sched.advance (d.fld (ADC.CH_SCHED_CATCHUP c)) (d.fld (ADC.CH_SCHED_BEHIND c)) t
    let d := d.setAdc c { x with sched := sc }
    let d := d.when fire fun d => (d.setFld (ADC.CH_STATUS_BEHIND c) 1).raise 15
    let d := d.when (before target t) fun d => d.adcLate c target t
    d.capture c t vd

/-- ADC_SAMPLE_INSTANT (R98): the next instant of a channel is reached and its input, `vd` nanovolts, is captured.
[Log 56 DEDUCED] -/
def execAdcSampleInstant (c : Fin 96) (vd : Int) (s : State) : Host.Outcome State Fault Refusal :=
  s.onDev fun d => d.when (decide (d.adcRun c = 1)) fun d =>
    match d.adcMode c with
    | 1 => d.when (d.due (d.contNext c)) fun d => d.capture c (d.contNext c) vd
    | 2 =>
      let x := d.adc c
      match x.trigs with
      | [] => d
      | g :: rest => d.when (d.due g.at_) fun d =>
        let d := d.setAdc c { x with trigs := rest }
        let d := match g.late with | some tgt => d.adcLate c tgt g.at_ | none => d
        d.capture c g.at_ vd
    | 3 => d.timedSample c vd
    | _ => d

/-- ADC_TIMED_OCCURRENCE (R102). -/
def execAdcTimedOccurrence (c : Fin 96) (vd : Int) (s : State) : Host.Outcome State Fault Refusal :=
  s.onDev fun d => d.when (decide (d.adcRun c = 1) && decide (d.adcMode c = 3)) fun d => d.timedSample c vd

/-- A trigger of event time `e` that reaches a channel at `a` (R101). [Log 58 DESIGN CHOICE] -/
def Dev.adcTrigger (d : Dev) (c : Nat) (e a : Time) : Dev :=
  let x := d.adc c
  let i := e + nsT (d.fld (ADC.CH_TRIG_DELAY c))
  let late := decide (dist (a + nsT 2) i < 0)
  let t := if late then ceilNs (a + nsT 2) else i
  let last := match x.trigs.getLast? with | some g => some g.at_ | none => x.prev
  let room := match last with | some p => decide (dist (p + nsT 8) t ≥ 0) | none => true
  let g : TrigAt := { at_ := if room then t else (last.getD 0) + nsT 8, moved := !room, late := if late then some i else none }
  if x.trigs.any TrigAt.moved then d.incFld (ADC.CH_DROPS_TRIG_DROP c)
  else d.setAdc c { x with trigs := x.trigs ++ [g] }

/-- ADC_TRIGGER (R101): the oldest timer trigger on its way to a channel, which arrives `lead` ns, at least 1, before its event.
[Log 58 DESIGN CHOICE] -/
def execAdcTrigger (c : Fin 96) (lead : Nat) (s : State) : Host.Outcome State Fault Refusal :=
  s.onDev fun d =>
    match d.adcTrig.find? (fun p => p.1 = c.val) with
    | none => d
    | some p =>
      let d := { d with adcTrig := d.adcTrig.erase p }
      d.when (decide (d.adcRun c = 1) && decide (d.adcMode c = 2)) fun d => d.adcTrigger c p.2 (p.2 - nsT (max 1 lead))

/-! ### Streams (R107 to R109) -/

/-- The address of a channel's stream area. -/
def streamAddr (c : Nat) : Nat := 0x40100000 + 0x10000 * (c / 16) + 0x8000 + 0x400 * (c % 16)

/-- The block being filled becomes ready (R107, R109). -/
def Dev.closeBlock (d : Dev) (c : Nat) : Dev :=
  let x := d.adc c
  match x.blkHalf with
  | none => d
  | some h =>
    if x.blkCount = 0 then d.setAdc c { x with blkHalf := none }
    else
      let hdr := toBytes 8 x.blkFirst.toNat ++ toBytes 4 x.blkNum.toNat ++ toBytes 2 x.blkDrop ++ toBytes 2 x.blkCount
      let d := d.writeMem devAgent (streamAddr c + 0x200 * h) hdr
      let rd := d.fld (ADC.CH_STATUS_READY c)
      let d := d.when (decide (rd = 0)) fun d => d.setFld (ADC.CH_STATUS_NEXT c) h
      let d := d.setFld (ADC.CH_STATUS_READY c) (putBits rd h h 1)
      let x := { x with blkHalf := none, nextHalf := 1 - h }
      let x := if h = 0 then { x with cnt0 := x.blkCount } else { x with cnt1 := x.blkCount }
      (d.setAdc c x).raise (256 + 2 * c)

/-- A block opened in a half that is free: the one whose turn it is, or the other (R107, R108). -/
def Dev.openBlock (d : Dev) (c : Nat) (smp : Sample) : Dev :=
  let x := d.adc c
  let rd := d.fld (ADC.CH_STATUS_READY c)
  let free := [x.nextHalf, 1 - x.nextHalf].find? fun h => !bitOf rd h
  match free with
  | none => d
  | some h =>
    let x := { x with blkHalf := some h, blkLen := 8 * bitsOf smp.strm.toNat 4 0, blkFirst := smp.t, blkNum := smp.num }
    d.setAdc c { x with blkDrop := min 0xFFFF x.drops, drops := 0, blkCount := 0 }

/-- A sample offered to its stream (R107, R108). -/
def Dev.streamSample (d : Dev) (c : Nat) (smp : Sample) : Dev :=
  let d := if (d.adc c).blkHalf.isNone then d.openBlock c smp else d
  let x := d.adc c
  match x.blkHalf with
  | none =>
    let d := (d.setAdc c { x with drops := x.drops + 1 }).incFld (ADC.CH_DROPS_STREAM_DROP c)
    d.setFld (ADC.CH_STATUS_STREAM_OVF c) 1
  | some h =>
    let d := d.writeMem devAgent (streamAddr c + 0x200 * h + 0x10 + 2 * x.blkCount) (toBytes 2 smp.word.toNat)
    let d := d.setAdc c { x with blkCount := x.blkCount + 1 }
    if x.blkCount + 1 ≥ x.blkLen then d.closeBlock c else d

/-- A ready half released (R108). -/
def Dev.releaseHalf (d : Dev) (c h : Nat) : Dev :=
  let rd := putBits (d.fld (ADC.CH_STATUS_READY c)) h h 0
  (d.setFld (ADC.CH_STATUS_READY c) rd).setFld (ADC.CH_STATUS_NEXT c) (if rd = 2 then 1 else 0)

/-- A read of `n` bytes at offset `off` of a channel's stream area: the bytes, and the release of a half whose last word it
covers (R108). -/
def Dev.readStream (d : Dev) (src : Nat) (agent : AgentId) (c off n : Nat) : Bool × List Byte × Dev :=
  let h := off / 0x200 % 2
  if !bitOf (d.fld (ADC.CH_STATUS_READY c)) h then (true, List.replicate n 0, d)
  else
    let (ok, bs, d) := d.readMem src agent (streamAddr c + off) n
    let x := d.adc c
    let last := 0x200 * h + 0x10 + 2 * (if h = 0 then x.cnt0 else x.cnt1) - 2
    (ok, bs, if off ≤ last ∧ last < off + n then d.releaseHalf c h else d)

/-! ### Windows (R110, R111) -/

/-- A sample matches the window in force at its instant (R103, R110). -/
def Sample.inWindow (m : Sample) : Bool :=
  let k := codeOf m.word
  let lo := sext 12 (bitsOf m.lim.toNat 11 0)
  let hi := sext 12 (bitsOf m.lim.toNat 27 16)
  if bitsOf m.cfg.toNat 1 0 = 1 then decide (k < lo) || decide (k > hi) else decide (lo ≤ k) && decide (k ≤ hi)

/-- What a sample makes of a window with its run and its qualification, and whether WINDOW is raised (R110). -/
def Sample.winStep (m : Sample) (run : Nat) (q : Bool) : Nat × Bool × Bool :=
  if bitsOf m.cfg.toNat 1 0 = 0 then (run, q, false)
  else if m.inWindow = q then (0, q, false)
  else if run + 1 < bitsOf m.cfg.toNat 15 8 then (run + 1, q, false)
  else (0, !q, !q || decide (bitsOf m.cfg.toNat 5 4 = 1))

/-- A sample tested against its window. One taken before a commit that reset the window still meets the window as it was (R103, R111). -/
def Dev.winSample (d : Dev) (c : Nat) (m : Sample) : Dev :=
  let x := d.adc c
  let r := if m.past then m.winStep x.pastRun x.pastQ else m.winStep x.winRun (d.flag (ADC.CH_STATUS_WIN_STATE c))
  let d := if m.past then d.setAdc c { x with pastRun := r.1, pastQ := r.2.1 }
    else (d.setAdc c { x with winRun := r.1 }).setFld (ADC.CH_STATUS_WIN_STATE c) (b2n r.2.1)
  d.when r.2.2 fun d => d.raise (257 + 2 * c)

/-! ### Delivery (R105) -/

/-- A converted sample reaches CH_LAST, the window and the stream, by the words in force at its instant (R103); the last sample of a stream
that a commit ended closes its block (R109). -/
def Dev.deliverSample (d : Dev) (c : Nat) (smp : Sample) : Dev :=
  let d := d.setNum (ADC.CH_LAST c) (smp.num.toNat % 0x10000 * 0x10000 + smp.word.toNat)
  let d := d.when (bitOf smp.word.toNat 3) fun d => d.setFld (ADC.CH_STATUS_OVR c) 1
  let d := d.winSample c smp
  let d := d.when (bitOf smp.strm.toNat 8) fun d => d.streamSample c smp
  d.when smp.closes fun d => d.closeBlock c

/-! ### Starting and readiness (R104) -/

/-- A channel leaves OFF or WAITING at `t` (R97, R102, R105). Its samples still converting, the spacing from its latest instant and what
its stream has not delivered go on. -/
def Dev.adcStart (d : Dev) (c : Nat) (t : Time) : Dev :=
  let t0 := floorNs (d.reg64 (ADC.CH_TIMED_T0 c))
  let x := d.adc c
  let sc : Sched := { t0 := t0, p := d.num (ADC.CH_TIMED_P c) * 64, k := 0, target := t0 }
  let d := d.setAdc c { x with start := t, left := t, newcfg := true, trigs := [], sched := sc }
  ((d.setFld (ADC.CH_STATUS_RUN c) 1).setNum (ADC.CH_COUNT c) 0)

/-- ADC_HALF_READY (R104): a half powered for 20 µs is ready. -/
def execAdcHalfReady (h : Fin 12) (s : State) : Host.Outcome State Fault Refusal :=
  s.onDev fun d => d.when (d.powered (36 + h) 20000) fun d =>
    let d := d.setFld (if h.val % 2 = 0 then ADC.BLK_STATUS_HALF0_READY (h / 2) else ADC.BLK_STATUS_HALF1_READY (h / 2)) 1
    let d := d.setMapBit SUPPLY.DOM_STATUS_0 (36 + h) true
    d.each ((List.range 8).map (8 * h.val + ·)) fun d c =>
      let d := d.setFld (ADC.CH_STATUS_POWERED c) 1
      d.when (decide (d.adcRun c = 2)) fun d => d.adcStart c d.now

/-! ### Truing (R112, R113) -/

def trueSubject (h : Nat) : Fld := if h % 2 = 0 then ADC.TRUE_STATUS_SUBJECT_0 (h / 2) else ADC.TRUE_STATUS_SUBJECT_1 (h / 2)
def trueSpareFor (h : Nat) : Fld := if h % 2 = 0 then ADC.TRUE_STATUS_SPARE_FOR_0 (h / 2) else ADC.TRUE_STATUS_SPARE_FOR_1 (h / 2)
def trueFailed (h : Nat) : Fld := if h % 2 = 0 then ADC.TRUE_FAIL_FAILED_0 (h / 2) else ADC.TRUE_FAIL_FAILED_1 (h / 2)
def trueFlag (h : Nat) : Fld := if h % 2 = 0 then ADC.TRUE_FAIL_FLAG_0 (h / 2) else ADC.TRUE_FAIL_FLAG_1 (h / 2)
def trueLap (h : Nat) : Fld := if h % 2 = 0 then ADC.TRUE_LAP_LAP0_MS (h / 2) else ADC.TRUE_LAP_LAP1_MS (h / 2)

/-- The trim words follow the converters: CH_TRIM that of the converter serving the channel. -/
def Dev.showTrims (d : Dev) (h : Nat) : Dev :=
  let x := d.half h
  let d := d.setReg (ADC.SPARE_TRIM h) (Tab.get 0 8 x.trims)
  d.each (List.range 8) fun d i =>
    d.setReg (ADC.CH_TRIM (8 * h + i)) (Tab.get 0 (if d.fld (trueSpareFor h) = i then 8 else i) x.trims)

/-- The channel served by the spare changes; the first sample after each swap carries NEWCFG. [Log 57 DEDUCED] -/
def Dev.swapSpare (d : Dev) (h new : Nat) : Dev :=
  let old := d.fld (trueSpareFor h)
  if old = new then d
  else
    let d := d.setFld (trueSpareFor h) new
    let d := d.each ([old, new].filter (· < 8)) fun d i =>
      let c := 8 * h + i
      (d.setAdc c { d.adc c with newcfg := true }).setFld (ADC.CH_STATUS_TRUE_ACTIVE c) (b2n (decide (i = new)))
    d.showTrims h

/-- The spare's true begins a lap and ends the one before it (R112). [Log 57 DEDUCED] -/
def Dev.lapStarts (d : Dev) (h : Nat) : Dev :=
  let x := d.half h
  let d := match x.lapStart with
    | some t => d.setFld (trueLap h) (min 0xFFFF ((d.now - t).toNat / 64000000))
    | none => d
  d.setHalf h { x with lapStart := some d.now }

/-- ADC_TRUE_START (R112): the next converter of a half is trued, the spare serving its channel. [Log 57 DEDUCED] -/
def execAdcTrueStart (h : Fin 12) (s : State) : Host.Outcome State Fault Refusal :=
  s.onDev fun d =>
    let x := d.half h
    d.when (decide (d.fld (ADC.TRUE_CTRL_MODE (h / 2)) = 0) && d.halfReady h && x.subject.isNone && !x.stopped && d.due x.nextAt) fun d =>
      let i := x.next
      let d := d.when (decide (i = 8)) fun d => d.lapStarts h
      let d := d.setHalf h { d.half h with subject := some i, doneAt := d.now + nsT 500000 }
      let d := d.setFld (trueSubject h) i
      if i < 8 ∧ x.failed.isNone then d.swapSpare h i else d

/-- The converter after another in a lap, the spare first; one that failed is passed over. [Log 57 DEDUCED] -/
def AdcHalf.after (x : AdcHalf) (i : Nat) : Nat :=
  let n := (i + 1) % 9
  if x.failed = some n then (n + 1) % 9 else n

/-- A converter of a half fails (R113). [Log 57 DEDUCED] -/
def Dev.adcFail (d : Dev) (h i : Nat) : Dev :=
  let x := d.half h
  let d := if i < 8 ∧ x.failed.isNone then (d.setHalf h { x with failed := some i }).setFld (trueFailed h) i
    else (d.setHalf h { x with stopped := true }).setFld (trueFailed h) i
  (d.setFld (trueFlag h) 1).report 0x10 h

/-- ADC_TRUE_DONE (R112, R113): a true ends with a new offset trim in 1/16 LSB and a new gain trim in units of 2^-16.
[Log 56 DEDUCED, 57 DEDUCED] -/
def execAdcTrueDone (h : Fin 12) (offset gain : Int) (s : State) : Host.Outcome State Fault Refusal :=
  s.onDev fun d =>
    let x := d.half h
    match x.subject with
    | none => d
    | some i => d.when (d.due x.doneAt) fun d =>
      let ms := d.fld (ADC.TRUE_CTRL_INTERVAL_MS (h / 2))
      let bad := decide (offset.natAbs > 512) || decide (gain.natAbs * 50 > 65536)
      let trims := if bad then x.trims else Tab.set 0 i (BitVec.ofNat 32 (low 16 gain * 65536 + low 16 offset)) x.trims
      let d := d.setHalf h { x with subject := none, next := x.after i, nextAt := d.now + nsT (ms * 1000000), trims := trims }
      let d := d.setFld (trueSubject h) 0xF
      let d := if bad then d.adcFail h i else d
      let conv := if i = 8 then 0x10 + h.val % 2 else h.val % 2 * 8 + i
      let d := d.noteCalib (0x10 + h / 2) conv (toBytes 2 (low 16 offset) ++ toBytes 2 (low 16 gain) ++ d.tjBytes ++ [BitVec.ofNat 8 (b2n bad)])
      let d := if x.failed.isNone ∧ ¬ (bad ∧ i < 8) then d.swapSpare h 0xF else d
      d.showTrims h

/-- What outlasts the contents of a half: a failed converter, with the channel that the spare serves for good, until power-on reset
(R113); `old` is the device before they were lost. [Log 57 DEDUCED] -/
def Dev.adcKeep (old d : Dev) (h : Nat) : Dev :=
  let x := old.half h
  let d := d.setHalf h { failed := x.failed, stopped := x.stopped }
  let d := ((d.setFld (trueFailed h) (old.fld (trueFailed h))).setFld (trueSpareFor h) (x.failed.getD 0xF)).setFld (trueSubject h) 0xF
  let d := match x.failed with | some i => d.setFld (ADC.CH_STATUS_TRUE_ACTIVE (8 * h + i)) 1 | none => d
  d.showTrims h

/-! ### Writes and commits (R103, R108, R109, R111, R116) -/

/-- The channel whose registers hold an address, and the register's offset. -/
def adcAt (a : Nat) : Option (Nat × Nat) :=
  if ADC.CH_CFG 0 ≤ a ∧ a < 0x160000 ∧ 0x100 ≤ a % 0x10000 ∧ a % 0x10000 < 0x500 then
    some ((a - 0x100000) / 0x10000 * 16 + (a % 0x10000 - 0x100) / 0x40, (a % 0x10000 - 0x100) % 0x40)
  else none

/-- What refuses a write of an ADC register beside its fields' ranges (R111, R116): stage, bit and cause. -/
def adcRefusals (a : Nat) (v : Word) : List (Nat × Nat × Cause) :=
  let n := v.toNat
  match adcAt a with
  | none => []
  | some (_, off) =>
    if off = 0x00 then (if bitsOf n 23 16 = 0 ∧ bitsOf n 2 0 = 1 then [(3, 23, .range)] else [])
    else if off = 0x1C then (if sext 12 (bitsOf n 11 0) > sext 12 (bitsOf n 27 16) then [(3, 27, .range)] else [])
    else []

/-- The action of an accepted write of an ADC register. -/
def Dev.adcEffect (d : Dev) (a : Nat) (v : Word) : Dev :=
  match adcAt a with
  | none => d
  | some (c, off) =>
    if off ≠ 0x38 then d
    else
      let d := d.when (bitOf v.toNat 0) fun d => d.setNum (ADC.CH_DROPS c) 0
      d.when (bitOf v.toNat 1) fun d => d.setFld (ADC.CH_STATUS_READY c) 0

/-- A NOW commit is permitted on a running channel where it leaves MODE OFF (R103). -/
def adcNowOk (e : Dev) (c : Nat) : Bool := decide (e.adcMode c = 0)

/-- A commit ends a stream: the block being filled closes with the last sample that is still converting, or at once (R109).
[Log 154 DEDUCED] -/
def Dev.streamEnds (d : Dev) (c : Nat) : Dev :=
  let x := d.adc c
  match x.conv.getLast? with
  | none => d.closeBlock c
  | some m => d.setAdc c { x with conv := x.conv.dropLast ++ [{ m with closes := true }] }

/-- A commit resets the window; the samples still converting meet it as it was (R103, R111). [Log 154 DEDUCED] -/
def Dev.winReset (d : Dev) (c : Nat) : Dev :=
  let x := d.adc c
  let conv := x.conv.map fun m => { m with past := true }
  let q := d.flag (ADC.CH_STATUS_WIN_STATE c)
  (d.setAdc c { x with winRun := 0, pastRun := x.winRun, pastQ := q, conv := conv }).setFld (ADC.CH_STATUS_WIN_STATE c) 0

/-- What a channel takes up when a commit has applied at `at_` (R97, R103, R109, R111); `old` is the device before it.
[Log 152 DESIGN CHOICE] -/
def Dev.adcApplied (old d : Dev) (c : Nat) (at_ : Time) : Dev :=
  let diff := fun a => decide (old.num a ≠ d.num a)
  let conv := diff (ADC.CH_CFG c) || diff (ADC.CH_PHASE c) || diff (ADC.CH_TRIG c) || diff (ADC.CH_TIMED_P c) || diff (ADC.CH_TIMED_T0 c)
    || diff (ADC.CH_TIMED_T0 c + 4)
  let win := diff (ADC.CH_WIN_LIM c) || diff (ADC.CH_WIN_CFG c) || fldDiff old d (ADC.CH_CFG_GAIN c) || fldDiff old d (ADC.CH_CFG_INPUT c)
    || fldDiff old d (ADC.CH_CFG_MODE c)
  let mode := d.adcMode c
  let was := old.adcMode c
  let ends := old.flag (ADC.CH_STREAM_ENABLE c) && (!d.flag (ADC.CH_STREAM_ENABLE c) || (decide (mode = 0) && decide (was ≠ 0)))
  let d := d.when ends fun d => d.streamEnds c
  let d := d.when win fun d => d.winReset c
  if mode = 0 then
    (d.setAdc c { d.adc c with trigs := [] }).setFld (ADC.CH_STATUS_RUN c) 0
  else if was = 0 then
    if d.halfReady (c / 8) then d.adcStart c (floorNs at_) else d.setFld (ADC.CH_STATUS_RUN c) 2
  else if d.adcRun c = 2 then d
  else
    let x := d.adc c
    let t0 := floorNs (d.reg64 (ADC.CH_TIMED_T0 c))
    let p := d.num (ADC.CH_TIMED_P c) * 64
    let re := decide (was ≠ mode) || diff (ADC.CH_TIMED_P c) || diff (ADC.CH_TIMED_T0 c) || diff (ADC.CH_TIMED_T0 c + 4)
    let x := if conv then { x with newcfg := true, start := floorNs at_ } else x
    let x := if was ≠ mode then { x with trigs := [] } else x
    let x := if re then { x with sched := { t0 := t0, p := p, k := 0, target := t0 } } else x
    d.setAdc c x

/-- The shadows of an ADC block latched at a time (R106). [Log 59 DEDUCED] -/
def Dev.adcSnap (d : Dev) (b : Nat) (t : Time) : Dev :=
  d.each ((List.range 16).map (16 * b + ·)) fun d c =>
    match (d.adc c).taken.find? (fun s => decide (dist s.t t ≥ 0) && decide (dist (d.adc c).left s.t ≥ 0)) with
    | some s => d.setNum (ADC.SNAP c) (s.num.toNat % 0x10000 * 0x10000 + s.word.toNat)
    | none => d.setNum (ADC.SNAP c) 0

end Sys2Proof.Machine
end

