-- ==== Sys2Proof/Machine/Pins.lean ====
section
/-!
DEFINITION. Machine/Pins.lean: the 160 digital pins: functions and ownership, level crossings, the level the device drives, inputs
and interrupts (spec/15, R350, R354 to R359, R363). The level of a ball comes from outside with PIN_INPUT_CHANGE.
-/
namespace Sys2Proof.Machine

def Dev.pin (d : Dev) (p : Nat) : PinSt := Tab.get {} p d.pins
def Dev.setPin (d : Dev) (p : Nat) (x : PinSt) : Dev := { d with pins := Tab.set {} p x d.pins }

/-- FUNC of a pin: 0 NONE, 1 SOFT, 2 THREAD, 3 ENGINE, 4 PWM, 5 LOOP (R355). -/
def Dev.pinFunc (d : Dev) (p : Nat) : Nat := d.fld (PINMUX.PIN_OWN_FUNC p)

/-- The accountable agent of a pin. -/
def Dev.pinAgent (d : Dev) (p : Nat) : AgentId := BitVec.ofNat 16 (d.fld (PINMUX.PIN_OWN_AGENT p))

/-- The level of a drive action or of PIN_SOFT.LEVEL (R328, R363). -/
def level4 : Nat → Level
  | 0 => .low
  | 1 => .high
  | 2 => .mid
  | _ => .hiz

/-- The level of PIN_CFG.SAFE (R363). -/
def safe4 : Nat → Level
  | 0 => .mid
  | 1 => .low
  | 2 => .high
  | _ => .hiz

/-! ### What drives a pin (R350, R355 to R357) -/

/-- The pin an engine's slot maps to; 0xFF where it maps to none (R350). -/
def Dev.slotPin (d : Dev) (e i : Nat) : Nat :=
  if i < 4 then bitsOf (d.num (PENG.ENG_SLOTS_LO e)) (8 * i + 7) (8 * i)
  else bitsOf (d.num (PENG.ENG_SLOTS_HI e)) (8 * i - 25) (8 * i - 32)

/-- The level one engine drives on a pin: that of its highest-numbered slot mapped to it that drives (R350). -/
def Dev.engLevel (d : Dev) (e p : Nat) : Option Bool :=
  (List.range 8).foldl (fun acc i =>
    if d.slotPin e i = p ∧ bitOf (d.fld (PENG.ENG_PSTATE_DIR e)) i then some (bitOf (d.fld (PENG.ENG_PSTATE_LEVELS e)) i) else acc) none

/-- The level the engines drive on a pin: that of the highest-numbered engine that drives it (R350). -/
def Dev.enginesLevel (d : Dev) (p : Nat) : Level :=
  match (List.range 40).foldl (fun acc e => (d.engLevel e p).or acc) none with
  | some true => .high
  | some false => .low
  | none => .hiz

/-- The level of a timing pin whose function is PWM: that of the timer PIN_OWN names; the own pins of a serving spare are HIZ (R226). -/
def Dev.pwmLevel (d : Dev) (p : Nat) : Level :=
  let t := d.fld (PINMUX.PIN_OWN_INDEX p)
  if d.detState t = 3 ∧ t = p / 2 then .hiz else (d.out (2 * t + p % 2)).level

/-- The drive of a pin's function (R355). -/
def Dev.funcLevel (d : Dev) (p : Nat) : Level :=
  match d.pinFunc p with
  | 1 => level4 (d.fld (PINMUX.PIN_SOFT_LEVEL p))
  | 2 => (d.pin p).thr
  | 3 => d.enginesLevel p
  | 4 => if p < 96 then d.pwmLevel p else .hiz
  | _ => .hiz

/-- The safe level of a pin (R357): of TIM_LEVELS on a TP pin whose function is PWM, else of PIN_CFG. -/
def Dev.pinSafeLevel (d : Dev) (p : Nat) : Level :=
  if p < 96 ∧ d.pinFunc p = 4 then d.safeLevel (2 * d.fld (PINMUX.PIN_OWN_INDEX p) + p % 2) else safe4 (d.fld (PINMUX.PIN_CFG_SAFE p))

/-- Open drain: a driven HIGH is released and MID is driven as HIZ (R357). -/
def openDrain (od : Bool) (l : Level) : Level := if od && (decide (l = .high) || decide (l = .mid)) then .hiz else l

/-- The instructions of the TAP (R420), numbered by the model (log entry 46). [Log 46 DESIGN CHOICE, 141 PRESUMED] -/
def TAP.IDCODE : Nat := 0
def TAP.BYPASS : Nat := 1
def TAP.SAMPLE : Nat := 2
def TAP.EXTEST : Nat := 3
def TAP.DBGPORT : Nat := 4

/-- The level the device drives at a ball (R357): high impedance until first regulation (R68), the safe level on the hardwired path
(R87), and under EXTEST the level of the boundary register (R420). [Log 46 DESIGN CHOICE, 108 DESIGN CHOICE] -/
def Dev.ballLevel (d : Dev) (p : Nat) : Level :=
  openDrain (d.flag (PINMUX.PIN_CFG_OD p))
    (if !d.regulated then .hiz
     else if d.hardSafe then d.pinSafeLevel p
     else if d.tapIr = TAP.EXTEST then level4 (Tab.get 3 p d.tapBsr)
     else if d.pinSafe p then d.pinSafeLevel p
     else match Tab.find p d.xings with
       | some x => x.level
       | none => d.funcLevel p)

/-- The level a crossing drives (R356). -/
def Dev.crossLevel (d : Dev) (p : Nat) : Level :=
  match d.fld (PINMUX.PIN_CFG_XING_LEVEL p) with
  | 1 => .low
  | 2 => .high
  | 3 => .mid
  | 4 => .hiz
  | _ => d.ballLevel p

/-- A change of a ball's level between two states of the device that a level crossing makes: the witness does not measure it (R220). -/
def Dev.noteCross (old d : Dev) (p : Nat) : Dev :=
  d.when (decide (p < 96) && decide (old.ballLevel p ≠ d.ballLevel p)) fun d => d.witNote p d.now

/-- The filtered level of a pin. [Log 108 DESIGN CHOICE] -/
def Dev.pinIn (d : Dev) (p : Nat) : Bool := d.mapBit (PINMUX.PIN_IN 0) p

/-- The level the function of a pin sees: IDLE_IN during a crossing (R356). -/
def Dev.funcIn (d : Dev) (p : Nat) : Bool :=
  if (Tab.find p d.xings).isSome then d.flag (PINMUX.PIN_CFG_IDLE_IN p) else d.pinIn p

/-- The level the function of a pin sees kept where it has changed. [Log 103 DEDUCED] -/
def Dev.see (d : Dev) (p : Nat) (t : Time) : Dev :=
  let x := d.pin p
  let l := d.funcIn p
  if (x.seen.head?.any Prod.snd) = l then d else d.setPin p { x with seen := (t, l) :: x.seen }

/-- A level crossing of a pin begins (R356). -/
def Dev.startXing (d : Dev) (p : Nat) : Dev :=
  let x : Xing := { endT := d.now + nsT (d.fld (PINMUX.PIN_CFG_XING_NS p)), level := d.crossLevel p }
  (Dev.noteCross d { d with xings := Tab.put p x d.xings } p).see p d.now

/-- A pin that gets the function THREAD drives a level the spec leaves open until its first action (log entry 3).
[Log 98 DEDUCED] -/
def Dev.freshThread (d : Dev) (p : Nat) : Dev :=
  if d.pinFunc p ≠ 2 then d
  else
    let (v, d) := d.draw
    d.setPin p { d.pin p with thr := level4 (if p < 96 then v.toNat % 4 else [0, 1, 3].getD (v.toNat % 3) 3) }

/-- A PIN_OWN word changed: the crossing begins, and what follows the word is brought up to date (R220, R356).
[Log 107 DEDUCED] -/
def Dev.changeOwn (d : Dev) (p : Nat) (w : Word) : Dev :=
  let old := d.reg (PINMUX.PIN_OWN p)
  if old = w then d
  else
    let d := (d.startXing p).setReg (PINMUX.PIN_OWN p) w
    let d := d.freshThread p
    if p < 96 then d.showMeasuring p else d

/-! ### Inputs and interrupts (R358) -/

/-- The changes of a pin's level, newest first: as its function sees them for a pin engine, the filtered level of any other pin
(R350, R356). [Log 103 DEDUCED] -/
def Dev.pinHist (d : Dev) (p : Nat) : List (Time × Bool) := if d.pinFunc p = 3 then (d.pin p).seen else (d.pin p).hist

/-- The level of a pin at a past time (R345). [Log 103 DEDUCED] -/
def Dev.pinInAt (d : Dev) (p : Nat) (t : Time) : Bool :=
  match (d.pinHist p).find? (fun h => !before t h.1) with
  | some (_, l) => l
  | none => false

/-- The interrupt flag set and event 968 + p raised. -/
def Dev.pinEvent (d : Dev) (p : Nat) : Dev := (d.setMapBit (PINMUX.PIN_INTF 0) p true).raise (968 + p)

/-- HIGH and LOW interrupts: while the level holds and the flag is clear (R358). [Log 109 DEDUCED] -/
def Dev.levelInterrupt (d : Dev) (p : Nat) : Dev :=
  let k := d.fld (PINMUX.PIN_CFG_INT p)
  if ((k = 4 ∧ d.pinIn p) ∨ (k = 5 ∧ !d.pinIn p)) ∧ !d.mapBit (PINMUX.PIN_INTF 0) p then d.pinEvent p else d

/-- PIN_INTERRUPT: what a change of the filtered level raises (R358). -/
def Dev.edgeInterrupt (d : Dev) (p : Nat) : Dev :=
  match d.fld (PINMUX.PIN_CFG_INT p) with
  | 1 => if d.pinIn p then d.pinEvent p else d
  | 2 => if d.pinIn p then d else d.pinEvent p
  | 3 => d.pinEvent p
  | _ => d.levelInterrupt p

/-- A level change reaches the consumers at a time (R358). -/
def Dev.consumeLevel (d : Dev) (p : Nat) (t : Time) : Dev :=
  let x := d.pin p
  let d := d.setPin p { x with since := none, hist := (t, x.raw) :: x.hist }
  ((d.setMapBit (PINMUX.PIN_IN 0) p x.raw).see p t).edgeInterrupt p

/-- The nanoseconds of FILT (R358). -/
def filtNs (f : Nat) : Nat := if f = 0 then 0 else 2 ^ f

/-- PIN_INPUT_CHANGE (R358): the receiver of pin `p` changes to a level. [Log 108 DESIGN CHOICE] -/
def execPinInputChange (p : Fin 160) (level : Bool) (s : State) : Host.Outcome State Fault Refusal :=
  s.onDev fun d =>
    let x := d.pin p
    if x.raw = level then d
    else
      let d := d.setPin p { x with raw := level, since := if level = d.pinIn p then none else some d.now }
      if level = d.pinIn p then d
      else if d.fld (PINMUX.PIN_CFG_FILT p) = 0 then d.consumeLevel p d.now
      else d

/-- PIN_FILTER_EXPIRY (R358): the change has held for FILT. -/
def execPinFilterExpiry (p : Fin 160) (s : State) : Host.Outcome State Fault Refusal :=
  s.onDev fun d =>
    match (d.pin p).since with
    | none => d
    | some t =>
      let t := t + nsT (filtNs (d.fld (PINMUX.PIN_CFG_FILT p)))
      d.when (d.due t) fun d => d.consumeLevel p t

/-- LEVEL_CROSSING_END (R356): the crossing ends and the new function drives. -/
def execLevelCrossingEnd (p : Fin 160) (s : State) : Host.Outcome State Fault Refusal :=
  s.onDev fun d =>
    match Tab.find p d.xings with
    | none => d
    | some x => d.when (d.due x.endT) fun d => (Dev.noteCross d { d with xings := Tab.del p d.xings } p).see p x.endT

/-! ### Writes and commits of the PINMUX registers (R355, R359, R363) -/

/-- The pin whose PIN_OWN word a key names. -/
def ownPin (a : Nat) : Option Nat :=
  if PINMUX.PIN_OWN 0 ≤ a ∧ a < PINMUX.PIN_OWN 160 ∧ a % 4 = 0 then some ((a - PINMUX.PIN_OWN 0) / 4) else none

/-- The pin whose PIN_CFG word a key names. -/
def cfgPin (a : Nat) : Option Nat :=
  if PINMUX.PIN_CFG 0 ≤ a ∧ a < PINMUX.PIN_CFG 160 ∧ a % 4 = 0 then some ((a - PINMUX.PIN_CFG 0) / 4) else none

/-- The pin whose PIN_SOFT word a key names. -/
def softPin (a : Nat) : Option Nat :=
  if PINMUX.PIN_SOFT 0 ≤ a ∧ a < PINMUX.PIN_SOFT 160 ∧ a % 4 = 0 then some ((a - PINMUX.PIN_SOFT 0) / 4) else none

/-- The field rules of a PIN_OWN word for a writer (R355). -/
def ownRefusals (agent : AgentId) (p : Nat) (v : Word) : List (Nat × Nat × Cause) :=
  let n := v.toNat
  let func := bitsOf n 26 24
  let idx := bitsOf n 21 16
  (if func = 5 ∧ p < 96 then [(2, 26, .range)] else []) ++
  (if func = 4 then
     (if p < 96 then
        (if idx ≥ 48 then [(3, 26, .range)] else if idx ≠ p / 2 ∧ agent ≠ 0x0600 then [(3, 26, .state)] else [])
      else if idx ≥ 3 then [(3, 26, .range)] else [])
   else if idx ≠ 0 then [(3, 26, .range)] else [])

/-- The field rules of the PINMUX words that the register table does not state: MID on a GP pin (R359, R363). -/
def pinmuxRefusals (agent : AgentId) (a : Nat) (v : Word) : List (Nat × Nat × Cause) :=
  match ownPin a, cfgPin a, softPin a with
  | some p, _, _ => ownRefusals agent p v
  | _, some p, _ =>
    if p < 96 then []
    else
      (if bitsOf v.toNat 21 19 = 3 then [(2, 21, .range)] else []) ++ (if bitsOf v.toNat 15 14 = 0 then [(2, 15, .range)] else [])
  | _, _, some p => if p ≥ 96 ∧ v.toNat % 4 = 2 then [(2, 1, .range)] else []
  | _, _, _ => []

/-- A writer may not write a PINMUX word whatever the protection map holds: PIN_OWN but by the loader, the fault manager and a
consent; PIN_SOFT but by the pin's agent (R355, R359). [Log 107 DEDUCED] -/
def Dev.pinmuxForbids (d : Dev) (agent : AgentId) (a : Nat) : Bool :=
  match ownPin a, softPin a with
  | some _, _ => decide (agent ≠ 0x0000 ∧ agent ≠ 0x0600)
  | _, some p => decide (agent ≠ d.pinAgent p)
  | _, _ => false

/-- A commit of PIN_CFG words applied: an interrupt level that holds raises its event (R358, R363). [Log 109 DEDUCED] -/
def Dev.pinmuxApplied (d : Dev) (b : Nat) : Dev := d.each ((List.range 32).map (fun i => 32 * b + i)) Dev.levelInterrupt

/-- The flags of a PIN_INTF word cleared; a HIGH or LOW level that still holds raises its event again (R358). [Log 109 DEDUCED] -/
def Dev.clearIntf (d : Dev) (w : Nat) (v : Word) : Dev :=
  let d := d.clrReg (PINMUX.PIN_INTF w) v
  d.each ((setBits 32 v.toNat).map (fun i => 32 * w + i)) Dev.levelInterrupt

end Sys2Proof.Machine
end

