-- ==== Sys2Proof/Machine/Flags.lean ====
section
/-!
DEFINITION. Machine/Flags.lean: the integer results of Wilium and the flags they set (R262 to R269). A result carries its value
and what it does to the flags; `IntRes.flags` writes them into a STATUS word (R232).
-/
namespace Sys2Proof.Machine

/-- The flag bits of STATUS (R232). -/
def STATUS.Q : Nat := 20
def STATUS.V : Nat := 19
def STATUS.C : Nat := 18
def STATUS.Z : Nat := 17
def STATUS.N : Nat := 16
def STATUS.DZT : Nat := 9
def STATUS.DZ : Nat := 8
def STATUS.IE : Nat := 2

/-- A bit of a word set to a truth value. -/
def putFlag (w : Word) (i : Nat) (b : Bool) : Word := BitVec.ofNat 32 (putBits w.toNat i i (b2n b))

/-- A bit of a word. -/
def wordBit (w : Word) (i : Nat) : Bool := bitOf w.toNat i

/-- An integer result: its value, whether it sets N and Z, the new C and V where it sets them, and whether it sets the
sticky Q or DZ. -/
structure IntRes where
  val : Word
  nz : Bool := false
  c : Option Bool := none
  v : Option Bool := none
  q : Bool := false
  dz : Bool := false
  deriving DecidableEq, Repr

/-- A flag set where a value is given. -/
def putFlagOpt (w : Word) (i : Nat) : Option Bool → Word
  | none => w
  | some b => putFlag w i b

/-- The STATUS word after a result (R262). -/
def IntRes.flags (r : IntRes) (st : Word) : Word :=
  let st := if r.nz then putFlag (putFlag st STATUS.N r.val.msb) STATUS.Z (decide (r.val = 0)) else st
  let st := putFlagOpt (putFlagOpt st STATUS.C r.c) STATUS.V r.v
  let st := if r.q then putFlag st STATUS.Q true else st
  if r.dz then putFlag st STATUS.DZ true else st

/-- An addition with a carry in: the carry out of bit 31 and signed overflow (R262). -/
def addRes (a b : Word) (cin : Bool) (set : Bool) : IntRes :=
  let v : Word := a + b + BitVec.ofNat 32 (b2n cin)
  let full := a.toNat + b.toNat + b2n cin
  let s : Int := a.toInt + b.toInt + (b2n cin : Nat)
  { val := v, nz := set, c := if set then some (decide (full ≥ 2 ^ 32)) else none
    v := if set then some (decide (s ≠ v.toInt)) else none }

/-- A subtraction a − b − (1 − carry): C where no borrow, and signed overflow (R262, R263). -/
def subRes (a b : Word) (cin : Bool) (set : Bool) : IntRes :=
  let bor := b2n (!cin)
  let v : Word := a - b - BitVec.ofNat 32 bor
  let s : Int := a.toInt - b.toInt - (bor : Nat)
  { val := v, nz := set, c := if set then some (decide (b.toNat + bor ≤ a.toNat)) else none
    v := if set then some (decide (s ≠ v.toInt)) else none }

/-- A result that sets only N and Z. -/
def logRes (v : Word) (set : Bool) : IntRes := { val := v, nz := set }

/-- The shifts and the rotation by `n` (R264). -/
def shiftRes (op : AluOp) (a : Word) (n : Nat) (set : Bool) : IntRes :=
  let sra : Word := a.sshiftRight (min n 32)
  let last : Bool :=
    match op with
    | .sll => decide (1 ≤ n) && decide (n ≤ 32) && bitOf a.toNat (32 - n)
    | .sra => if n ≤ 32 then bitOf a.toNat (n - 1) else false
    | _ => decide (1 ≤ n) && decide (n ≤ 32) && bitOf a.toNat (n - 1)
  let val : Word :=
    match op with
    | .sll => a <<< n
    | .srl => a >>> n
    | .sra => sra
    | _ => a.rotateRight (n % 32)
  let rot := decide (op = .ror)
  let c : Option Bool :=
    if !set || decide (n = 0) then none
    else if rot then some val.msb
    else some last
  { val := val, nz := set, c := c }

/-- The ALU operations (R263, R264): the two operands, the carry and F. -/
def aluRes (op : AluOp) (a b : Word) (c f : Bool) : IntRes :=
  match op with
  | .add => addRes a b false f
  | .sub => subRes a b true f
  | .adc => addRes a b c true
  | .sbc => subRes a b c true
  | .and => logRes (a &&& b) f
  | .or => logRes (a ||| b) f
  | .xor => logRes (a ^^^ b) f
  | .andn => logRes (a &&& ~~~b) f
  | .sll => shiftRes .sll a (b.toNat % 256) f
  | .srl => shiftRes .srl a (b.toNat % 256) f
  | .sra => shiftRes .sra a (b.toNat % 256) f
  | .ror => shiftRes .ror a (b.toNat % 256) f
  | .min => logRes (if a.slt b then a else b) f
  | .max => logRes (if a.slt b then b else a) f
  | .minu => logRes (if a.ult b then a else b) f
  | .maxu => logRes (if a.ult b then b else a) f
  | .slt => logRes (if a.slt b then 1 else 0) f
  | .sltu => logRes (if a.ult b then 1 else 0) f
  | .neg => subRes 0 a true true
  | .not => logRes (~~~a) f

/-- The multiply group (R265): rd before, and the two operands. -/
def mulRes (op : MulOp) (d a b : Word) : Word :=
  match op with
  | .mul => a * b
  | .mulh => BitVec.ofInt 32 (shrFloor (a.toInt * b.toInt) 32)
  | .mulhu => BitVec.ofNat 32 (a.toNat * b.toNat / 2 ^ 32)
  | .mulhsu => BitVec.ofInt 32 (shrFloor (a.toInt * (b.toNat : Int)) 32)
  | .mac => d + a * b
  | .msu => d - a * b

/-- The divide group with its edges (R266, R268). -/
def divRes (op : DivOp) (a b : Word) : IntRes :=
  let zero := decide (b = 0)
  let ovf := decide (a = 0x80000000#32) && decide (b = 0xFFFFFFFF#32)
  match op with
  | .div =>
    { val := if zero then 0xFFFFFFFF else BitVec.ofInt 32 (a.toInt.tdiv b.toInt), v := some (ovf && !zero), dz := zero }
  | .divu => { val := if zero then 0xFFFFFFFF else a / b, v := some false, dz := zero }
  | .rem => { val := if zero then a else BitVec.ofInt 32 (a.toInt.tmod b.toInt), v := some (ovf && !zero), dz := zero }
  | .remu => { val := if zero then a else a % b, v := some false, dz := zero }

/-- A value limited to a range; Q where it is limited (R267). -/
def satRes (lo hi i : Int) : IntRes := { val := BitVec.ofInt 32 (clampI lo hi i), q := decide (i < lo ∨ hi < i) }

/-- The signed 32-bit range. -/
def satS32 (i : Int) : IntRes := satRes (-(2 ^ 31)) (2 ^ 31 - 1) i

/-- The unsigned 32-bit range. -/
def satU32 (i : Int) : IntRes := satRes 0 (2 ^ 32 - 1) i

/-- The saturating group (R267): `n` is the RB field. -/
def satOpRes (op : SatOp) (a b : Word) (n : Nat) : IntRes :=
  match op with
  | .qadd => satS32 (a.toInt + b.toInt)
  | .qsub => satS32 (a.toInt - b.toInt)
  | .qaddu => satU32 ((a.toNat : Int) + b.toNat)
  | .qsubu => satU32 ((a.toNat : Int) - b.toNat)
  | .qneg => satS32 (-a.toInt)
  | .qabs => satS32 (a.toInt.natAbs : Int)
  | .qdmulh => satS32 (shrFloor (2 * a.toInt * b.toInt) 32)
  | .ssat => satRes (-((2 ^ n : Nat) : Int)) (((2 ^ n : Nat) : Int) - 1) a.toInt
  | .usat => satRes 0 (((2 ^ n : Nat) : Int) - 1) a.toInt

/-- Leading zeros of the low `k` bits of a number. -/
def clzN : Nat → Nat → Nat
  | 0, _ => 0
  | k + 1, n => if bitOf n k then 0 else 1 + clzN k n

/-- Trailing zeros of the low `k` bits of a number. -/
def ctzN : Nat → Nat → Nat
  | 0, _ => 0
  | k + 1, n => if n % 2 = 1 then 0 else 1 + ctzN k (n / 2)

/-- The bytes of a word in the other order (R267). -/
def revBytes (a : Word) : Word := BitVec.ofNat 32 (ofBytes (toBytes 4 a.toNat).reverse)

/-- The bit group (R267). -/
def bitRes (op : BitOp) (a : Word) : Word :=
  match op with
  | .clz => BitVec.ofNat 32 (clzN 32 a.toNat)
  | .ctz => BitVec.ofNat 32 (ctzN 32 a.toNat)
  | .popc => BitVec.ofNat 32 (popCount 32 a.toNat)
  | .rev => revBytes a
  | .rev16 => (revBytes a).rotateRight 16
  | .sextb => BitVec.ofInt 32 (sext 8 a.toNat)
  | .sexth => BitVec.ofInt 32 (sext 16 a.toNat)
  | .zextb => BitVec.ofNat 32 (a.toNat % 256)
  | .zexth => BitVec.ofNat 32 (a.toNat % 65536)

/-- The bit-field group (R267): rd before and ra. -/
def bfRes (op : BfOp) (w pos : Nat) (d a : Word) : Word :=
  match op with
  | .extu => BitVec.ofNat 32 (bitsOf a.toNat (pos + w - 1) pos)
  | .exts => BitVec.ofInt 32 (sext w (bitsOf a.toNat (pos + w - 1) pos))
  | .ins => BitVec.ofNat 32 (putBits d.toNat (pos + w - 1) pos a.toNat)

/-- The steps a multiply takes for its multiplier (R265). -/
def mulSteps (op : MulOp) (b : Word) : Nat :=
  let fits : Nat → Bool := fun s =>
    match op with
    | .mulhu => decide (b.toNat < 2 ^ (8 * s))
    | .mulhsu => decide (b.toNat < 2 ^ (8 * s))
    | _ => decide (sext (8 * s) b.toNat = b.toInt)
  if fits 1 then 1 else if fits 2 then 2 else if fits 3 then 3 else 4

/-- The conditions of R269 on a STATUS word. -/
def condHolds (cond : Nat) (st : Word) : Bool :=
  let n := wordBit st STATUS.N
  let z := wordBit st STATUS.Z
  let c := wordBit st STATUS.C
  let v := wordBit st STATUS.V
  match cond with
  | 0 => true
  | 1 => z
  | 2 => !z
  | 3 => n != v
  | 4 => n == v
  | 5 => z || n != v
  | 6 => !z && n == v
  | 7 => !c
  | 8 => c
  | 9 => !c || z
  | 10 => c && !z
  | 11 => n
  | 12 => !n
  | 13 => v
  | 14 => !v
  | _ => false

end Sys2Proof.Machine
end

