-- ==== Sys2Proof/Machine/Operands.lean ====
section
/-!
DEFINITION. Machine/Operands.lean: the operand and addressing forms of Wilium (R257 to R260), how a loaded or stored value lies
in registers, and what an instruction that touches registers alone computes (R254, R263 to R270), for cores and threads alike.
-/
namespace Sys2Proof.Machine

/-- The address of an access and the value written back to its base register, if the mode writes one (R257, R258). `rd`
reads a register, `bank` is CORE.BANK.BANK. -/
def addrOf (m : AddrMode) (rd : Nat → Word) (ra size : Nat) (bank : Nat) : Word × Option Word :=
  let b := rd ra
  match m with
  | .disp k => (b + k, none)
  | .idx rb => (b + (rd rb <<< size), none)
  | .idxu rb => (b + rd rb, none)
  | .post k => (b, some (b + (k <<< size)))
  | .pre k => (b + (k <<< size), some (b + (k <<< size)))
  | .postr rb => (b, some (b + rd rb))
  | .bank k => (BitVec.ofNat 32 (bank * 0x10000 + (b + (k <<< size)).toNat % 0x10000), none)

/-- The bytes of an access of SZ `size` (R258). -/
def accessLen (size : Nat) : Nat := 2 ^ size

/-- An address aligned to the access (R236). -/
def alignedTo (a : Word) (len : Nat) : Bool := a.toNat % len == 0

/-- A loaded byte, halfword or word in a register (R257, R258). -/
def loadedWord (sg : Bool) (size : Nat) (v : Nat) : Word :=
  if sg then BitVec.ofInt 32 (sext (8 * 2 ^ size) v) else BitVec.ofNat 32 (v % 2 ^ (8 * 2 ^ size))

/-- A binary32 value in an f register (R276). -/
def boxS (v : Nat) : DWord := BitVec.ofNat 64 (0xFFFFFFFF00000000 + v % 2 ^ 32)

/-- What an instruction that touches registers alone does: the register it writes, the STATUS word after it, the address of a
branch it takes, and whether it divided by zero. -/
structure WRes where
  wr : Option (Nat × Word) := none
  st : Word
  target : Option Word := none
  dz : Bool := false
  deriving DecidableEq, Repr

/-- A result written to a register. -/
def wrote (r : Nat) (x : IntRes) (st : Word) : WRes := { wr := some (r, x.val), st := x.flags st, dz := x.dz }

/-- A value written to a register, no flag changed. -/
def wroteVal (r : Nat) (v : Word) (st : Word) : WRes := { wr := some (r, v), st := st }

/-- What a register instruction computes; none where the instruction does more than that. `rd` reads a register, `link` is
the register CALL writes, `len` the length of the instruction. -/
def evalRegs (i : WInstr) (rd : Nat → Word) (st pc : Word) (len link : Nat) : Option WRes :=
  let c := wordBit st STATUS.C
  match i with
  | .alu op f d a b => some (wrote d (aluRes op (rd a) (rd b) c f) st)
  | .addi f d a imm => some (wrote d (addRes (rd a) imm false f) st)
  | .logi op d a imm => some (wrote d (aluRes op (rd a) imm c false) st)
  | .cmpi a imm => some { st := (subRes (rd a) imm true true).flags st }
  | .shi op f d a n => some (wrote d (shiftRes op (rd a) n f) st)
  | .lui d imm => some (wroteVal d imm st)
  | .addpc d imm => some (wroteVal d (pc + imm) st)
  | .mul op d a b => some (wroteVal d (mulRes op (rd d) (rd a) (rd b)) st)
  | .div op d a b => some (wrote d (divRes op (rd a) (rd b)) st)
  | .sat op d a b => some (wrote d (satOpRes op (rd a) (rd b) b) st)
  | .bit op d a => some (wroteVal d (bitRes op (rd a)) st)
  | .bf op w pos d a => some (wroteVal d (bfRes op w pos (rd d) (rd a)) st)
  | .bcc cond off => some { st := st, target := if condHolds cond st then some (pc + 2 * off) else none }
  | .br off => some { st := st, target := some (pc + 2 * off) }
  | .call off => some { wr := some (link, pc + BitVec.ofNat 32 len), st := st, target := some (pc + 2 * off) }
  | .jr a => some { st := st, target := some (rd a) }
  | .callr d a => some { wr := some (d, pc + BitVec.ofNat 32 len), st := st, target := some (rd a) }
  | _ => none

/-- What an atomic operation leaves in memory; none where it writes nothing (R261). -/
def amoNew (op : AmoOp) (old d b : Word) : Option Word :=
  match op with
  | .swap => some b
  | .add => some (old + b)
  | .cas => if old = d then some b else none

end Sys2Proof.Machine
end

