-- ==== Sys2Proof/Machine/CoreRegs.lean ====
section
/-!
DEFINITION. Machine/CoreRegs.lean: the cores' registers, system registers and privilege (R230 to R234, R249, R273, R316), the store
buffer (R241, R242), exceptions and their return (R291 to R306), retirement with the hardware-loop end check (R272) and the
lockstep comparison (R307 to R309). Taking an exception is `Dev.enterExc`; an operation that must wait for the other core of a pair
answers none.
-/
namespace Sys2Proof.Machine

/-! ### Offsets of the system registers (R249, R316) -/

def CORE.CORE_ID : Nat := 0x0000
def CORE.BANK : Nat := 0x0004
def CORE.SP_USER : Nat := 0x0008
def CORE.SP_KERNEL : Nat := 0x000C
def CORE.SP_SILL : Nat := 0x0010
def CORE.CACHE_CTRL : Nat := 0x0020
def CORE.SB_STATUS : Nat := 0x0024
def CORE.PERF_CTRL : Nat := 0x0040
def CORE.PERF_RET : Nat := 0x0048
def CORE.PERF_IC_MISS : Nat := 0x0050
def CORE.PERF_LB_MISS : Nat := 0x0054
def CORE.PERF_SB_FULL : Nat := 0x0058
def CORE.PERF_FWD : Nat := 0x005C
def CORE.PERF_PARTIAL_FWD_WAITS : Nat := 0x0060
def CORE.PERF_ORDERED_NS : Nat := 0x0064
def CORE.MPU_CTRL : Nat := 0x0080
def CORE.MPU_BASE (n : Nat) : Nat := 0x0090 + 8 * n
def CORE.MPU_LIM (n : Nat) : Nat := 0x0094 + 8 * n
def CORE.EXC_CAUSE : Nat := 0x0100
def CORE.EXC_ADDR : Nat := 0x0104
def CORE.ENTRY_TOP : Nat := 0x0108
def CORE.EVC_RUN : Nat := 0x010C
def CORE.EVC_THRESH : Nat := 0x0110
def CORE.STK_LO : Nat := 0x0114
def CORE.STK_HI : Nat := 0x0118
def CORE.ATOM_STATUS : Nat := 0x011C
def CORE.STEP_CTRL : Nat := 0x0120
def CORE.PAIR_STATUS : Nat := 0x0124
def CORE.JOIN_CTRL : Nat := 0x0128
def CORE.EVC_PEND : Nat := 0x0140
def CORE.EVC_CLR : Nat := 0x0148
def CORE.EVC_ACTIVE : Nat := 0x0150
def CORE.EVC_MERGED : Nat := 0x0158
def CORE.EVC_LINE (n : Nat) : Nat := 0x0200 + 4 * n

/-- The reset value of a system register (R249, R316). -/
def sysReset (o : Nat) : Word :=
  if o = CORE.CACHE_CTRL ∨ o = CORE.PERF_CTRL then 1
  else if o = CORE.EVC_RUN then 0x1F
  else if o = CORE.JOIN_CTRL then 0x64
  else 0

/-- A system register's word. -/
def CoreSt.s (cs : CoreSt) (o : Nat) : Word := Tab.get (sysReset o) o cs.sys

/-- A system register set. -/
def CoreSt.setS (cs : CoreSt) (o : Nat) (v : Word) : CoreSt := { cs with sys := Tab.set (sysReset o) o v cs.sys }

/-- A field of a system register. -/
def CoreSt.sf (cs : CoreSt) (o hi lo : Nat) : Nat := bitsOf (cs.s o).toNat hi lo

/-- A field of a system register set. -/
def CoreSt.setSf (cs : CoreSt) (o hi lo v : Nat) : CoreSt := cs.setS o (BitVec.ofNat 32 (putBits (cs.s o).toNat hi lo v))

/-- A bit of a pair of system registers that holds one bit per line. -/
def CoreSt.lineBit (cs : CoreSt) (o l : Nat) : Bool := wordBit (cs.s (o + 4 * (l / 32))) (l % 32)

/-- That bit set to a value. -/
def CoreSt.setLineBit (cs : CoreSt) (o l : Nat) (b : Bool) : CoreSt :=
  cs.setSf (o + 4 * (l / 32)) (l % 32) (l % 32) (b2n b)

/-! ### Registers -/

/-- The privilege level: 0 USER, 1 KERNEL, 2 SILL (R232). -/
def CoreSt.pl (cs : CoreSt) : Nat := bitsOf cs.status.toNat 1 0

/-- A bank of g30 (R233). -/
def CoreSt.bank (cs : CoreSt) (pl : Nat) : Word := if pl = 0 then cs.spUser else if pl = 1 then cs.spKernel else cs.spSill

/-- A bank of g30 set. -/
def CoreSt.setBank (cs : CoreSt) (pl : Nat) (v : Word) : CoreSt :=
  if pl = 0 then { cs with spUser := v } else if pl = 1 then { cs with spKernel := v } else { cs with spSill := v }

/-- A general register: g0 reads 0 and g30 is the bank of the current level (R230, R233). -/
def CoreSt.rg (cs : CoreSt) (r : Nat) : Word := if r = 0 then 0 else if r = 30 then cs.bank cs.pl else Tab.get 0 r cs.g

/-- A general register written; a write of g0 is discarded (R230). -/
def CoreSt.setG (cs : CoreSt) (r : Nat) (v : Word) : CoreSt :=
  if r = 0 then cs else if r = 30 then cs.setBank cs.pl v else { cs with g := Tab.set 0 r v cs.g }

/-- A floating-point register (R231). -/
def CoreSt.rf (cs : CoreSt) (r : Nat) : DWord := Tab.get 0 r cs.f

/-- A floating-point register written. -/
def CoreSt.setF (cs : CoreSt) (r : Nat) (v : DWord) : CoreSt := { cs with f := Tab.set 0 r v cs.f }

/-- The special registers of R273. -/
def CoreSt.special (cs : CoreSt) (sr : Nat) : Word :=
  if sr = 0 then cs.status
  else if sr = 1 then cs.lctrl
  else if sr < 8 then Tab.get 0 (sr - 4) cs.lstart
  else if sr < 12 then Tab.get 0 (sr - 8) cs.lend
  else Tab.get 0 (sr - 12) cs.lcount

/-- The bits of STATUS a write at a level may change: at USER the flags, Q, DZ and DZT (R232). -/
def statusMask (pl : Nat) : Nat := if pl = 0 then 0x1F0300 else 0x1F0304

/-- A special register written (R232, R273). -/
def CoreSt.setSpecial (cs : CoreSt) (sr : Nat) (v : Word) : CoreSt :=
  if sr = 0 then
    let m : Word := BitVec.ofNat 32 (statusMask cs.pl)
    { cs with status := (cs.status &&& ~~~m) ||| (v &&& m) }
  else if sr = 1 then { cs with lctrl := v &&& 0xF }
  else if sr < 8 then { cs with lstart := Tab.set 0 (sr - 4) (v &&& ~~~(1 : Word)) cs.lstart }
  else if sr < 12 then { cs with lend := Tab.set 0 (sr - 8) (v &&& ~~~(1 : Word)) cs.lend }
  else { cs with lcount := Tab.set 0 (sr - 12) v cs.lcount }

/-! ### Cores in the device -/

/-- A core. -/
def Dev.core (d : Dev) (c : Nat) : CoreSt := Tab.get {} c d.cores

/-- A core set; CORE_STATUS.PL follows STATUS.PL (R250). -/
def Dev.putCore (d : Dev) (c : Nat) (cs : CoreSt) : Dev :=
  ({ d with cores := Tab.set {} c cs d.cores } : Dev).setFld (CORES.CORE_STATUS_PL c) cs.pl

/-- CORE_STATUS.STATE: 0 RESET, 1 ROM, 2 RUN, 3 SLEEP, 4 HALTED, 5 STOPPED. -/
def Dev.coreState (d : Dev) (c : Nat) : Nat := d.fld (CORES.CORE_STATUS_STATE c)

/-- CORE_STATUS.STATE set. -/
def Dev.setCoreState (d : Dev) (c v : Nat) : Dev := d.setFld (CORES.CORE_STATUS_STATE c) v

/-- The core's pair runs in lockstep. -/
def Dev.lockstep (d : Dev) (c : Nat) : Bool := d.flag (CORES.CORE_STATUS_LOCKSTEP c)

/-- The other core of the pair. -/
def partner (c : Nat) : Nat := if c % 2 = 0 then c + 1 else c - 1

/-- The agent a core acts as (R34, R35). -/
def Dev.coreAgent (d : Dev) (c : Nat) : AgentId :=
  if d.lockstep c then 0x0110 + BitVec.ofNat 16 (c / 2) else 0x0100 + BitVec.ofNat 16 c

/-- A pair. -/
def Dev.pair (d : Dev) (p : Nat) : PairSt := Tab.get {} p d.pairs

/-- A pair set. -/
def Dev.putPair (d : Dev) (p : Nat) (x : PairSt) : Dev := { d with pairs := Tab.set {} p x d.pairs }

/-- A performance counter counted up, while PERF_CTRL.EN = 1; it wraps (R246). -/
def CoreSt.perf (cs : CoreSt) (o n : Nat) : CoreSt :=
  if wordBit (cs.s CORE.PERF_CTRL) 0 then cs.setS o (cs.s o + BitVec.ofNat 32 n) else cs

/-- PERF_RET counted up by one. -/
def CoreSt.perfRet (cs : CoreSt) : CoreSt :=
  if !wordBit (cs.s CORE.PERF_CTRL) 0 then cs
  else
    let v := cs.s CORE.PERF_RET + 1
    let cs := cs.setS CORE.PERF_RET v
    if v = 0 then cs.setS (CORE.PERF_RET + 4) (cs.s (CORE.PERF_RET + 4) + 1) else cs

/-- The wait of an instruction counted once, however long it is (R241, R242). [Log 85 DEDUCED] -/
def CoreSt.tickWait (cs : CoreSt) (o : Nat) : CoreSt := if cs.waited then cs else { cs.perf o 1 with waited := true }

/-- A trap due after the instruction that raised it (R266, R281). [Log 87 DEDUCED] -/
def CoreSt.dueTrap (cs : CoreSt) (vec info : Nat) : CoreSt := { cs with trapDue := some (vec, info), trapSill := decide (cs.pl = 2) }

/-- Every performance counter zero (R246). -/
def CoreSt.perfClear (cs : CoreSt) : CoreSt :=
  [CORE.PERF_RET, CORE.PERF_RET + 4, CORE.PERF_IC_MISS, CORE.PERF_LB_MISS, CORE.PERF_SB_FULL, CORE.PERF_FWD,
    CORE.PERF_PARTIAL_FWD_WAITS, CORE.PERF_ORDERED_NS].foldl (fun cs o => cs.setS o 0) cs

/-! ### System registers (R249, R316) -/

/-- A system register as it reads: CORE_ID, the banks, and what a register shows of the core. -/
def Dev.sysRead (d : Dev) (c o : Nat) : Word :=
  let cs := d.core c
  if o = CORE.CORE_ID then
    let id := if d.lockstep c then c / 2 * 2 else c
    BitVec.ofNat 32 (id % 2 * 0x200 + b2n (d.lockstep c) * 0x100 + c / 2 * 0x10 + id)
  else if o = CORE.SP_USER then cs.spUser
  else if o = CORE.SP_KERNEL then cs.spKernel
  else if o = CORE.SP_SILL then cs.spSill
  else if o = CORE.SB_STATUS then BitVec.ofNat 32 cs.sb.length
  else if o = CORE.ENTRY_TOP then
    match cs.entries with
    | [] => 0x00001F00
    | (pl, pri) :: _ => BitVec.ofNat 32 (cs.entries.length * 0x10000 + pri * 0x100 + pl)
  else if o = CORE.ATOM_STATUS then
    match cs.atom with
    | none => cs.s o
    | some t => cs.s o ||| BitVec.ofNat 32 (1 + (if before d.now t then min 0xFFFF ((t - d.now).toNat / 64) else 0) * 0x10000)
  else if o = CORE.PAIR_STATUS then cs.s o ||| BitVec.ofNat 32 (b2n cs.joinSince.isSome * 0x100)
  else cs.s o

/-- The bits of a system register that a write sets as written; the others are read-only or have an effect of their own. -/
def sysMask (o : Nat) : Nat :=
  if o = CORE.BANK then 0xFFFF
  else if o = CORE.CACHE_CTRL then 1
  else if o = CORE.PERF_CTRL then 3
  else if o = CORE.MPU_CTRL ∨ o = CORE.STEP_CTRL then 1
  else if o = CORE.STK_LO ∨ o = CORE.STK_HI then 0xFFFFFFF8
  else if o = CORE.JOIN_CTRL then 0xFFFF
  else if 0x90 ≤ o ∧ o < 0xD0 ∧ o % 8 = 0 then 0xFFFFFFE0
  else if 0x90 ≤ o ∧ o < 0xD0 ∧ o % 8 = 4 then 0xFFFFFFEF
  else if 0x200 ≤ o ∧ o < 0x300 then 0x8000000F
  else 0

/-- Bits of a system register cleared where a word has ones. -/
def CoreSt.clearBits (cs : CoreSt) (o : Nat) (v : Word) : CoreSt := cs.setS o (cs.s o &&& ~~~v)

/-- The cache and the line buffer invalid (R239). -/
def CoreSt.invalidate (cs : CoreSt) : CoreSt := { cs with cache := [], lineBuf := [] }

/-- A write of a system register (R249, R294, R316). -/
def CoreSt.sysWrite (cs : CoreSt) (o : Nat) (v : Word) : CoreSt :=
  if o = CORE.SP_USER then { cs with spUser := v }
  else if o = CORE.SP_KERNEL then { cs with spKernel := v }
  else if o = CORE.SP_SILL then { cs with spSill := v }
  else if o = CORE.EVC_THRESH then cs.setS o (BitVec.ofNat 32 (min 16 (v.toNat % 32)))
  else if o = CORE.ATOM_STATUS then cs.clearBits o (v &&& 0xE)
  else if o = CORE.EVC_PEND ∨ o = CORE.EVC_PEND + 4 then cs.setS o (cs.s o ||| v)
  else if o = CORE.EVC_CLR ∨ o = CORE.EVC_CLR + 4 then cs.clearBits (o - CORE.EVC_CLR + CORE.EVC_PEND) v
  else if o = CORE.EVC_MERGED ∨ o = CORE.EVC_MERGED + 4 then cs.clearBits o v
  else
    let m : Word := BitVec.ofNat 32 (sysMask o)
    let cs := if m = 0 then cs else cs.setS o ((cs.s o &&& ~~~m) ||| (v &&& m))
    if o = CORE.CACHE_CTRL ∧ wordBit v 8 then cs.invalidate
    else if o = CORE.PERF_CTRL ∧ wordBit v 8 then cs.perfClear
    else cs

/-- A system register written on a core, and on both cores of a lockstep pair (R308). -/
def Dev.putSys (d : Dev) (c o : Nat) (v : Word) : Dev :=
  let d := d.putCore c ((d.core c).sysWrite o v)
  d.when (d.lockstep c) fun d => d.putCore (partner c) ((d.core (partner c)).sysWrite o v)

/-- A USER access to a system register is refused (R234). -/
def CoreSt.sysPrivate (cs : CoreSt) (o : Nat) : Bool :=
  decide (cs.pl = 0) && !(decide (o = CORE.CORE_ID) || decide (o = CORE.BANK)
    || (decide (0x48 ≤ o) && decide (o < 0x68) && wordBit (cs.s CORE.PERF_CTRL) 1))

/-- The MPU grants an access at USER: some valid region holds it and grants the right in bit `right` (R234). -/
def CoreSt.mpuGrants (cs : CoreSt) (a : Word) (right : Nat) : Bool :=
  decide (cs.pl ≠ 0) || !wordBit (cs.s CORE.MPU_CTRL) 0 ||
    (List.range 8).any fun n =>
      wordBit (cs.s (CORE.MPU_LIM n)) 0 && wordBit (cs.s (CORE.MPU_LIM n)) right
        && decide (cs.sf (CORE.MPU_BASE n) 31 5 ≤ a.toNat / 32) && decide (a.toNat / 32 ≤ cs.sf (CORE.MPU_LIM n) 31 5)

/-! ### Addresses (R235) -/

/-- Where an address a core gives lies. -/
inductive Place where
  | ownTcm (a : Nat)
  | normal (a : Nat)
  | ordered (a : Nat)
  | sysReg (o : Nat)
  | absent
  deriving DecidableEq, Repr

/-- The type of an address and its place in the 40-bit map (R235, R370). A pair in lockstep reaches its own TCMs, through their
aliases too, each core in its own copy (R308). -/
def Dev.place (d : Dev) (c : Nat) (w : Word) : Place :=
  let a := w.toNat
  if a < 0x80000 then .ownTcm (0x08000000 + 0x80000 * c + a)
  else if 0x08000000 ≤ a ∧ a < 0x08200000 then
    if d.lockstep c ∧ (a - 0x08000000) / 0x100000 = c / 2 then .ownTcm (0x08000000 + 0x80000 * c + a % 0x80000) else .normal a
  else if 0x10000000 ≤ a ∧ a < 0x10800000 then .normal a
  else if 0x80000000 ≤ a ∧ a < 0xC0000000 then
    let n := (a - 0x80000000) / 0x10000000
    let u := d.fld (MEMCTL.WIN_BASE n) * 0x10000000 + a % 0x10000000
    if u < d.dramBytes then .normal (dramBase + u) else .absent
  else if (0x20000000 ≤ a ∧ a < 0x20080000) ∨ (0x30000000 ≤ a ∧ a < 0x30010000) ∨ (0x30100000 ≤ a ∧ a < 0x30140000)
      ∨ (0x40000000 ≤ a ∧ a < 0x41000000) ∨ (0xF0000000 ≤ a ∧ a < 0xF0010000) then .ordered a
  else if 0xE0000000 ≤ a ∧ a < 0xE0010000 then .sysReg (a - 0xE0000000)
  else .absent

/-- A range a fetch may read (R235). -/
def fetchable (w : Word) : Bool :=
  let a := w.toNat
  decide (a < 0x80000) || (decide (0x10000000 ≤ a) && decide (a < 0x10800000))
    || (decide (0x80000000 ≤ a) && decide (a < 0xC0000000)) || (decide (0xF0000000 ≤ a) && decide (a < 0xF0010000))

/-- The addresses of both copies of a TCM place: a pair in lockstep keeps its two TCMs alike (R308). -/
def Dev.tcmTwins (d : Dev) (a : Nat) : List Nat :=
  if 0x08000000 ≤ a ∧ a < 0x08200000 then
    let c := (a - 0x08000000) / 0x80000
    if d.lockstep c then [0x08000000 + 0x80000 * (c / 2 * 2) + a % 0x80000, 0x08000000 + 0x80000 * (c / 2 * 2 + 1) + a % 0x80000]
    else [a]
  else [a]

/-- A write of memory as every agent but a core in its own TCM makes it: to both TCMs of a lockstep pair (R308). -/
def Dev.putMem (d : Dev) (agent : AgentId) (a : Nat) (bs : List Byte) : Dev :=
  (d.tcmTwins a).foldl (fun d x => d.writeMem agent x bs) d

/-- A read of memory as every agent but a core in its own TCM makes it: from the primary's TCM of a lockstep pair (R308). -/
def Dev.getMem (d : Dev) (src : Nat) (agent : AgentId) (a n : Nat) : Bool × List Byte × Dev :=
  d.readMem src agent ((d.tcmTwins a).headD a) n

/-! ### Exceptions (R291 to R306) -/

/-- An exception to be taken: vector, INFO, EXC_ADDR and the PC it saves (R291). -/
structure Exc where
  vec : Nat
  info : Nat := 0
  addr : Word := 0
  pc : Word
  deriving DecidableEq, Repr

/-- The running priority as a rank: NONE below 0, FAULT 16, SILL 17 (R293). -/
def priRank (p : Nat) : Int := if p = 0x1F then -1 else p

/-- The running priority (R293). -/
def CoreSt.runPri (cs : CoreSt) : Nat := cs.sf CORE.EVC_RUN 4 0

/-- A line is eligible against a running priority with interrupts enabled or not (R295); `section_` says whether an active
section holds it back. -/
def CoreSt.lineEligible (cs : CoreSt) (run : Nat) (ie section_ : Bool) (l : Nat) : Bool :=
  cs.lineBit CORE.EVC_PEND l && wordBit (cs.s (CORE.EVC_LINE l)) 31 && ie
    && decide (cs.sf CORE.EVC_THRESH 4 0 ≤ cs.sf (CORE.EVC_LINE l) 3 0)
    && decide (priRank run < (cs.sf (CORE.EVC_LINE l) 3 0 : Int)) && !(section_ && cs.atom.isSome)

/-- The better of two lines: the higher priority, and the lower number among equals (R295). -/
def CoreSt.betterLine (cs : CoreSt) (best : Option Nat) (l : Nat) : Option Nat :=
  match best with
  | none => some l
  | some b => if cs.sf (CORE.EVC_LINE b) 3 0 < cs.sf (CORE.EVC_LINE l) 3 0 then some l else some b

/-- The line the core takes (R295). -/
def CoreSt.bestLine (cs : CoreSt) (run : Nat) (ie section_ : Bool) : Option Nat :=
  ((List.range 64).filter (cs.lineEligible run ie section_)).foldl cs.betterLine none

/-- The interrupt enable bit. -/
def CoreSt.ie (cs : CoreSt) : Bool := wordBit cs.status STATUS.IE

/-- The line that is eligible now. -/
def CoreSt.eligible (cs : CoreSt) : Option Nat := cs.bestLine cs.runPri cs.ie true

/-- A mismatch of a pair declared (R312). -/
def Dev.declare (d : Dev) (p : Nat) : Dev :=
  let x := d.pair p
  if x.declared.isSome then d else d.putPair p { x with declared := some d.now }

/-- The core stops (R306). -/
def Dev.stopCore (d : Dev) (c : Nat) : Dev :=
  let cs := d.core c
  let old := d.reg (CORES.CORE_STATUS c)
  let d := d.putCore c { cs with
    sb := [], sillHeld := false, escDue := none, busErr := [], trapDue := none, trapSill := false, stepDue := none, joinSince := none }
  let d := ((d.setCoreState c 5).raise 9).report 6 c
  (d.sysRec (CORES.CORE_STATUS c) old).abortClaims (d.coreAgent c)

/-- The oldest entry of a store buffer dropped. -/
def CoreSt.popSb (cs : CoreSt) : CoreSt := { cs with sb := cs.sb.tail }

/-- The bytes an entry writes, each with its address, in runs of consecutive bytes (R241). -/
def SbEntry.runs (e : SbEntry) : List (Nat × List Byte) :=
  let bs := toBytes 8 e.data.toNat
  let step : List (Nat × List Byte) → Nat → List (Nat × List Byte) := fun acc i =>
    if !bitOf e.mask i then acc
    else match acc with
      | (a, l) :: t => if a + l.length = e.addr + i then (a, l ++ [bs.getD i 0]) :: t else (e.addr + i, [bs.getD i 0]) :: acc
      | [] => [(e.addr + i, [bs.getD i 0])]
  ((List.range 8).foldl step []).reverse

/-- The memory of an entry accepts it (R241, R428). -/
def Dev.sbAccepts (d : Dev) (c : Nat) (e : SbEntry) : Bool :=
  d.memMapped e.addr 8 && (decide ((d.memCode e.addr) = some c) || d.memOpen (d.coreAgent c) e.addr 8 true)

/-- An entry written to its memory. -/
def Dev.sbPut (d : Dev) (c : Nat) (e : SbEntry) : Dev :=
  e.runs.foldl (fun d r =>
    if d.memCode e.addr = some c then d.writeMem (d.coreAgent c) r.1 r.2 else d.putMem (d.coreAgent c) r.1 r.2) d

/-- An entry refused: an imprecise BUSERR, or the escalation of a frame write (R291, R297). -/
def Dev.sbRefuse (d : Dev) (c : Nat) (e : SbEntry) : Dev :=
  let cs := d.core c
  match e.kind with
  | .plain => d.putCore c { cs with busErr := cs.busErr ++ [e.core] }
  | .frame v => d.putCore c { cs with escDue := some (cs.escDue.getD (2, v, e.core)) }

/-- The retired count at which both cores of a lockstep pair take an error of a buffered store (R309). -/
def Dev.fixErr (d : Dev) (c : Nat) : Dev :=
  if !d.lockstep c then d
  else
    let x := d.pair (c / 2)
    let a := (d.core c).retired
    let b := (d.core (partner c)).retired
    match x.errAt with
    | some n => if n ≤ min a b then d.putPair (c / 2) { x with errAt := some (max a b + 1) } else d
    | none => d.putPair (c / 2) { x with errAt := some (max a b + 1) }

/-- The oldest entry drained on one core. -/
def Dev.drainOwn (d : Dev) (c : Nat) (e : SbEntry) : Dev :=
  let d := d.putCore c (d.core c).popSb
  if d.sbAccepts c e then d.sbPut c e else d.sbRefuse c e

/-- The oldest store buffer entry drained: to the own TCM by the core itself; elsewhere, in lockstep, once for both cores when both
hold it (R308). None where the partner's entry has yet to come. -/
def Dev.drain (d : Dev) (c : Nat) : Option Dev :=
  match (d.core c).sb with
  | [] => some d
  | e :: _ =>
    if !d.lockstep c || decide (d.memCode e.addr = some c) then some (d.drainOwn c e)
    else
      match (d.core (partner c)).sb with
      | [] => none
      | e' :: _ =>
        if d.memCode e'.addr = some (partner c) ∨ (d.pair (c / 2)).declared.isSome then none
        else if { e' with kind := e.kind } ≠ e then some (d.declare (c / 2))
        else
          let d := (d.putCore c (d.core c).popSb).putCore (partner c) (d.core (partner c)).popSb
          if d.sbAccepts c e then some (d.sbPut c e) else some (((d.sbRefuse c e).sbRefuse (partner c) e).fixErr c)

/-- Entries drained until at most `keep` are left. -/
def Dev.drainTo (d : Dev) (c keep : Nat) : Nat → Option Dev
  | 0 => if (d.core c).sb.length ≤ keep then some d else none
  | fuel + 1 => if (d.core c).sb.length ≤ keep then some d else (d.drain c).bind (fun d => d.drainTo c keep fuel)

/-- The store buffer empty. -/
def Dev.drainAll (d : Dev) (c : Nat) : Option Dev := d.drainTo c 0 8

/-- The place of a frame's byte in the 40-bit map: own TCM or shared SRAM (R296). -/
def frameAddr (c : Nat) (w : Word) : Nat := if w.toNat < 0x80000 then 0x08000000 + 0x80000 * c + w.toNat else w.toNat

/-- A frame address lies wholly in the own TCM or wholly in shared SRAM (R296). -/
def frameInMemory (f : Nat) : Bool :=
  decide (f + 32 ≤ 0x80000) || (decide (0x10000000 ≤ f) && decide (f + 32 ≤ 0x10800000))

/-- The frame below a stack pointer is valid for the KERNEL stack (R296). -/
def CoreSt.frameValid (cs : CoreSt) (sp : Word) : Bool :=
  decide (sp.toNat % 8 = 0) && decide (32 ≤ sp.toNat) && decide ((cs.s CORE.STK_LO).toNat ≤ sp.toNat - 32)
    && decide (sp.toNat ≤ (cs.s CORE.STK_HI).toNat) && frameInMemory (sp.toNat - 32)

/-- The Sill frame a RETE at SILL names lies in the Sill stack (R300, R305). [Log 87 DEDUCED] -/
def sillFrameValid (sp : Word) : Bool :=
  decide (sp.toNat % 8 = 0) && decide (0x7F020 ≤ sp.toNat) && decide (sp.toNat ≤ 0x80000)

/-- The four store buffer entries of a frame at `f` (R297). -/
def CoreSt.frameEntries (cs : CoreSt) (c vec : Nat) (f pc cause addr : Word) : List SbEntry :=
  let e : Nat → Word → Word → SbEntry := fun o lo hi =>
    { core := f + BitVec.ofNat 32 o, addr := frameAddr c f + o, mask := 0xFF, data := hi ++ lo, count := cs.retired
      kind := .frame vec }
  [e 0 pc cs.status, e 8 cause addr, e 16 (cs.rg 1) (cs.rg 2), e 24 (cs.rg 3) (cs.rg 31)]

/-- The EXC_CAUSE word (R291, R316). -/
def causeWord (info orig vec : Nat) : Word := BitVec.ofNat 32 (info * 0x400000 + orig * 0x100 + vec)

/-- An active section ended by an entry (R302). -/
def CoreSt.breakSection (cs : CoreSt) : CoreSt :=
  match cs.atom with
  | none => cs
  | some _ => { cs with atom := none }.setSf CORE.ATOM_STATUS 2 2 1

/-- Sill entered with a cause (R305). -/
def Dev.enterSill (d : Dev) (c cause orig : Nat) (addr pc : Word) : Option Dev :=
  (d.drainTo c 4 8).map fun d =>
    let cs := d.core c
    let w := causeWord cause orig 1
    let cs : CoreSt := { cs with sb := cs.sb ++ cs.frameEntries c 1 0x7FFE0 pc w addr, entries := (cs.pl, cs.runPri) :: cs.entries }
    let cs := cs.breakSection
    let st : Word := BitVec.ofNat 32 (putBits (putBits cs.status.toNat 1 0 2) STATUS.IE STATUS.IE 0)
    let cs : CoreSt := { cs with spSill := 0x7FFE0, status := st, pc := 0x10, waited := false }
    d.putCore c (((cs.setS CORE.EXC_CAUSE w).setS CORE.EXC_ADDR addr).setSf CORE.EVC_RUN 4 0 0x11)

/-- A line that a core's line buffer or cache holds. -/
def lineIn (no : Nat) (ls : List FetchLine) : Option FetchLine := ls.find? fun l => l.no = no

/-- The fetch at a vector meets an uncorrectable error (R297): in the line buffer's copy where that holds the line. -/
def Dev.vectorFaults (d : Dev) (c vec : Nat) : Bool :=
  match lineIn (vec / 4) (d.core c).lineBuf with
  | some l => (List.range 4).any fun i => l.bad.contains (16 * vec % 64 + i)
  | none => !d.ecc.isEmpty && ((List.range 4).any fun i => decide (Tab.get 0 (0x08000000 + 0x80000 * c + 16 * vec + i) d.ecc > 1))

/-- The running priority of a handler: FAULT for vectors 2 to 11, unchanged for 12 to 14, and a line's own (R293). -/
def CoreSt.handlerPri (cs : CoreSt) (vec : Nat) : Nat :=
  if vec < 12 then 0x10 else if vec < 16 then cs.runPri else cs.sf (CORE.EVC_LINE (vec - 16)) 3 0

/-- The entry itself, its frame being valid and its store buffer holding room (R297, R298). -/
def CoreSt.enter (cs : CoreSt) (c : Nat) (x : Exc) : CoreSt :=
  let f := cs.spKernel - 32
  let w := causeWord x.info 0 x.vec
  let pri := cs.handlerPri x.vec
  let cs : CoreSt := { cs with sb := cs.sb ++ cs.frameEntries c x.vec f x.pc w x.addr, entries := (cs.pl, cs.runPri) :: cs.entries }
  let cs := cs.breakSection
  let st : Word := BitVec.ofNat 32 (putBits cs.status.toNat 1 0 1)
  let cs : CoreSt := { cs with spKernel := f, status := st, pc := BitVec.ofNat 32 (16 * x.vec), waited := false }
  ((cs.setS CORE.EXC_CAUSE w).setS CORE.EXC_ADDR x.addr).setSf CORE.EVC_RUN 4 0 pri

/-- TAKING AN EXCEPTION (R291 to R298, R305, R306): the entry of vector `x.vec`, or its escalation to Sill, or the stop of a core
at SILL. `sync` says that an instruction raised it. None where the store buffer waits for the partner. -/
def Dev.enterExc (d : Dev) (c : Nat) (sync : Bool) (x : Exc) : Option Dev :=
  let cs := d.core c
  if sync && decide (cs.pl = 2) then some (d.stopCore c)
  else if sync && decide (cs.runPri = 0x10) then d.enterSill c 4 x.vec x.addr x.pc
  else if !cs.frameValid cs.spKernel then d.enterSill c 1 x.vec cs.spKernel x.pc
  else if cs.entries.length ≥ 32 then d.enterSill c 5 x.vec 0 x.pc
  else if d.vectorFaults c x.vec then d.enterSill c 3 x.vec (BitVec.ofNat 32 (16 * x.vec)) x.pc
  else (d.drainTo c 4 8).map fun d => d.putCore c ((d.core c).enter c x)

/-- A line entered: its pending bit clears and ACTIVE sets (R294). -/
def Dev.enterLine (d : Dev) (c l : Nat) : Option Dev :=
  (d.enterExc c false { vec := 16 + l, pc := (d.core c).pc }).map fun d =>
    let cs := d.core c
    if cs.runPri = 0x11 then d else d.putCore c ((cs.setLineBit CORE.EVC_PEND l false).setLineBit CORE.EVC_ACTIVE l true)

/-- A delivery to a line: PEND sets, and MERGED where it was set (R294). -/
def CoreSt.deliver (cs : CoreSt) (l : Nat) : CoreSt :=
  if cs.lineBit CORE.EVC_PEND l then cs.setLineBit CORE.EVC_MERGED l true else cs.setLineBit CORE.EVC_PEND l true

/-- A Junction delivery to line `l` of core `c`: in lockstep it reaches both cores (R294, R309, R310). [Log 119 DEDUCED] -/
def Dev.deliverLine (d : Dev) (c l : Nat) : Dev :=
  if d.coreState c = 0 ∨ d.coreState c = 5 then d
  else
    let d := d.putCore c ((d.core c).deliver l)
    if d.lockstep c then d.putCore (partner c) ((d.core (partner c)).deliver l) else d

/-! ### Instruction boundaries -/

/-- A held Sill request enters at this boundary: below SILL and, where the tollgate has fixed a count, once it is reached. -/
def Dev.sillNow (d : Dev) (c : Nat) : Bool :=
  let cs := d.core c
  cs.sillHeld && decide (cs.pl < 2) &&
    (!d.lockstep c || match (d.pair (c / 2)).sillAt with
      | some n => decide (n ≤ cs.retired)
      | none => true)

/-- The held Sill request entered (R305). [Log 87 DEDUCED] -/
def Dev.enterHeldSill (d : Dev) (c : Nat) : Option Dev :=
  let cs := d.core c
  let d := d.putCore c { cs with sillHeld := false }
  let d := if (d.core (partner c)).sillHeld then d else d.putPair (c / 2) { d.pair (c / 2) with sillAt := none }
  d.enterSill c 6 0x7F 0 cs.pc

/-- An error of a buffered store is taken at this boundary: in lockstep once the count fixed for it is reached (R309).
[Log 87 DEDUCED] -/
def Dev.errNow (d : Dev) (c : Nat) : Bool :=
  !d.lockstep c || match (d.pair (c / 2)).errAt with
    | some n => decide (n ≤ (d.core c).retired)
    | none => true

/-- The Sill entry that is due at this boundary: the escalation of a frame write, or a held request (R292, R305). -/
def Dev.sillDue (d : Dev) (c : Nat) : Option (Option Dev) :=
  let cs := d.core c
  match if cs.pl < 2 ∧ d.errNow c then cs.escDue else none with
  | some (k, v, a) => some ((d.putCore c { cs with escDue := none }).enterSill c k v a cs.pc)
  | none => if d.sillNow c then some (d.enterHeldSill c) else none

/-- ATOM_OVERRUN taken by a core whose section is still active. [Log 89 DEDUCED] -/
def Dev.overrun (d : Dev) (c : Nat) : Option Dev :=
  let cs := d.core c
  match cs.atom with
  | none => some d
  | some t =>
    let cs := ({ cs with atom := none } : CoreSt).setSf CORE.ATOM_STATUS 1 1 1
    (d.putCore c cs).enterExc c false { vec := 11, addr := BitVec.ofNat 32 (nsOf t), pc := cs.pc }

/-- A section's deadline has passed. [Log 89 DEDUCED] -/
def Dev.overdue (d : Dev) (c : Nat) : Bool :=
  match (d.core c).atom with
  | some t => d.due t
  | none => false

/-- The tollgate has fixed a deadline for a count this core has reached, and the core has yet to act on it (R309). -/
def Dev.deadlineHeld (d : Dev) (c : Nat) : Bool :=
  d.lockstep c && match (d.pair (c / 2)).decide_ with
    | some (.deadline, n) => decide (n ≤ (d.core c).retired) && !(d.pair (c / 2)).acted.contains c
    | _ => false

/-- The causes due at an instruction boundary besides a precise exception, in the order of R292: Sill; DIVZ, FPTRAP and SYSCALL; an
imprecise BUSERR; ATOM_OVERRUN, which the tollgate of a lockstep pair times; STEP. A trap that an instruction at SILL raised stops the
core there; any other cause waits until the core leaves SILL (R305). [Log 87 DEDUCED, 89 DEDUCED] -/
def Dev.boundary (d : Dev) (c : Nat) : Option Dev :=
  let cs := d.core c
  if d.coreState c ≠ 2 ∧ d.coreState c ≠ 4 then some d
  else match d.sillDue c with
    | some e => e
    | none =>
      match (if cs.pl < 2 ∨ cs.trapSill then cs.trapDue else none), (if cs.pl < 2 ∧ d.errNow c then cs.busErr.head? else none) with
      | some (v, i), _ =>
        (d.putCore c { cs with trapDue := none, trapSill := false }).enterExc c true { vec := v, info := i, pc := cs.pc }
      | none, some a => (d.putCore c { cs with busErr := cs.busErr.tail }).enterExc c false { vec := 6, info := 4, addr := a, pc := cs.pc }
      | none, none =>
        if !d.lockstep c && d.overdue c && decide (cs.pl < 2) then d.overrun c
        else match (if cs.pl = 0 ∧ !d.deadlineHeld c then cs.stepDue else none) with
          | some a => (d.putCore c { cs with stepDue := none }).enterExc c true { vec := 14, addr := a, pc := cs.pc }
          | none => some d

/-- A request of Sill by the fault manager on a split core (R305): entered at once between instructions, held at SILL and during
an instruction. -/
def Dev.requestSill1 (d : Dev) (c : Nat) : Dev :=
  let d := d.putCore c { d.core c with sillHeld := true }
  if (d.core c).pl = 2 ∨ (d.core c).req.isSome ∨ (d.core c).joinSince.isSome ∨ d.coreState c = 4 then d
  else ((d.setCoreState c 2).boundary c).getD d

/-- The same on a lockstep pair (R305, R309): a sleeping pair enters at once; otherwise each core enters after the instruction
the tollgate fixes. -/
def Dev.requestSill2 (d : Dev) (c : Nat) : Dev :=
  let q := partner c
  let d := (d.putCore c { d.core c with sillHeld := true }).putCore q { d.core q with sillHeld := true }
  if d.coreState c = 3 ∧ d.coreState q = 3 then
    let d := (d.setCoreState c 2).setCoreState q 2
    (((d.boundary c).getD d).boundary q).getD d
  else if (d.core c).pl = 2 then d
  else d.putPair (c / 2) { d.pair (c / 2) with sillAt := some (max (d.core c).retired (d.core q).retired + 1) }

/-- A request of Sill by the fault manager (R305); a core that is in reset or stopped discards it. [Log 91 DEDUCED] -/
def Dev.requestSill (d : Dev) (c : Nat) : Dev :=
  let st := d.coreState c
  if st ≠ 2 ∧ st ≠ 3 ∧ st ≠ 4 then d
  else if d.lockstep c then d.requestSill2 c
  else d.requestSill1 c

/-! ### Retirement (R272, R304, R307) -/

/-- The innermost active level of an ACTIVE mask below `n` levels. -/
def topLevel (active : Nat) : Nat → Option Nat
  | 0 => none
  | n + 1 => if bitOf active n then some n else topLevel active n

/-- The end check of R272 from the innermost level, at most four levels deep. -/
def CoreSt.endCheck (cs : CoreSt) (next : Word) : Nat → CoreSt
  | 0 => { cs with pc := next }
  | fuel + 1 =>
    match topLevel cs.lctrl.toNat 4 with
    | none => { cs with pc := next }
    | some l =>
      if Tab.get 0 l cs.lend ≠ next then { cs with pc := next }
      else
        let n := Tab.get 0 l cs.lcount - 1
        let cs : CoreSt := { cs with lcount := Tab.set 0 l n cs.lcount }
        if n ≠ 0 then { cs with pc := Tab.get 0 l cs.lstart }
        else ({ cs with lctrl := putFlag cs.lctrl l false } : CoreSt).endCheck next fuel

/-- The architectural registers by number, as a retire record names them (R307). -/
def CoreSt.arch (cs : CoreSt) (k : Nat) : DWord :=
  if k < 32 then (if k = 30 then 0 else (cs.rg k).setWidth 64)
  else if k < 64 then cs.rf (k - 32)
  else if k = 64 then cs.status.setWidth 64
  else if k = 65 then cs.fcsr.setWidth 64
  else if k = 66 then cs.lctrl.setWidth 64
  else if k = 67 then cs.spUser.setWidth 64
  else if k = 68 then cs.spKernel.setWidth 64
  else if k = 69 then cs.spSill.setWidth 64
  else (cs.special (k - 66)).setWidth 64

/-- The registers an instruction changed, with their new values (R307). -/
def archDiff (old new : CoreSt) : List (Nat × DWord) :=
  (List.range 82).filterMap fun k => if old.arch k = new.arch k then none else some (k, new.arch k)

/-- A retire record entered and compared with the partner's of the same number (R307, R312). -/
def Dev.compareRetire (d : Dev) (c : Nat) (r : RetRec) : Dev :=
  let q := (d.core (partner c)).unmatched
  match q with
  | [] =>
    let cs := d.core c
    let cs := { cs with unmatched := cs.unmatched ++ [r] }
    d.putCore c (if cs.unmatched.length = 4 then { cs with lagSince := d.now } else cs)
  | r' :: t =>
    let d := d.putCore (partner c) { d.core (partner c) with unmatched := t }
    if r' = r then d else d.declare (c / 2)

/-- The retirement of an instruction: the PC after the end check or the branch, the counts, the record of a lockstep pair, and
STEP and a debug halt (R272, R304, R307, R422). `old` is the core before the instruction, `cs` after its own effect. -/
def Dev.retire (d : Dev) (c : Nat) (old cs : CoreSt) (target : Option Word) (len : Nat) (mem : Option (Word × Nat × Option DWord)) : Dev :=
  let cs : CoreSt :=
    match target with
    | some t => { cs with pc := t }
    | none => cs.endCheck (old.pc + BitVec.ofNat 32 len) 4
  let cs : CoreSt := { cs.perfRet with retired := cs.retired + 1, req := none, waited := false }
  let cs : CoreSt := if wordBit (cs.s CORE.STEP_CTRL) 0 && decide (old.pl = 0) then { cs with stepDue := some old.pc } else cs
  let halt := if d.lockstep c then (match (d.pair (c / 2)).haltAt with | some n => decide (n ≤ cs.retired) | none => false) else cs.haltReq
  let d := (d.putCore c { cs with haltReq := false }).setReg (CORES.CORE_PC c) old.pc
  let d := d.when halt fun d => d.setCoreState c 4
  if d.lockstep c then
    d.compareRetire c { num := old.retired, pc := old.pc, len := len, regs := archDiff old cs, mem := mem }
  else d

/-! ### Issue -/

/-- What keeps a core of a lockstep pair from issuing: four records ahead, a mismatch declared, or a decision fixed for the
count it has reached (R307, R309, R312). -/
def Dev.pairHolds (d : Dev) (c : Nat) : Bool :=
  d.lockstep c &&
    (decide ((d.core c).unmatched.length ≥ 4) || (d.pair (c / 2)).declared.isSome ||
      match (d.pair (c / 2)).decide_ with
      | some (_, n) => decide (n ≤ (d.core c).retired) && !(d.pair (c / 2)).acted.contains c
      | none => false)

/-- The core can issue an instruction now. -/
def Dev.canIssue (d : Dev) (c : Nat) : Bool :=
  let cs := d.core c
  decide (d.coreState c = 2) && cs.req.isNone && !cs.parting && cs.joinSince.isNone && !d.pairHolds c

/-! ### The line buffer and the cache (R238 to R240) -/

/-- A line brought into a list of most recently used lines that keeps `n` of those `same` holds of. -/
def touchLine (same : Nat → Bool) (n : Nat) (l : FetchLine) (ls : List FetchLine) : List FetchLine :=
  let rest := ls.filter (·.no ≠ l.no)
  let keep := (rest.filter fun x => same x.no).take (n - 1)
  l :: rest.filter (fun x => !same x.no || keep.contains x)

/-- The 40-bit address a fetch reads. -/
def Dev.fetchAddr (d : Dev) (c : Nat) (w : Word) : Option Nat :=
  match d.place c w with
  | .ownTcm a => some a
  | .normal a => some a
  | .ordered a => some a
  | _ => none

/-- A line passes through the instruction cache: it lies outside the own TCM and the cache is in use. -/
def CoreSt.caches (cs : CoreSt) (no : Nat) : Bool := decide (0x80000 ≤ no * 64) && wordBit (cs.s CORE.CACHE_CTRL) 0

/-- The place a line can be filled from, where the core may read it. -/
def Dev.lineAddr (d : Dev) (c no : Nat) : Option Nat :=
  let w : Word := BitVec.ofNat 32 (no * 64)
  (d.fetchAddr c w).filter fun a =>
    fetchable w && d.memMapped a 64 && (decide (no * 64 < 0x80000) || d.memOpen (d.coreAgent c) a 64 false)

/-- A line read from memory, with the errors its codes show. -/
def Dev.readLine (d : Dev) (c no a : Nat) : FetchLine × Dev :=
  let bad := if d.ecc.isEmpty then [] else (List.range 64).filter fun o => decide (Tab.get 0 (codeUnit (a + o)) d.ecc > 1)
  let (_, bs, d) := d.readMem 0 (d.coreAgent c) a 64
  ({ no := no, bytes := bs, bad := bad }, d)

/-- One line brought into the line buffer, through the cache where that is used, with the misses counted (R238, R246); a line that cannot
be read is not brought in. [Log 86 DEDUCED] -/
def Dev.fetchLine (d : Dev) (c no : Nat) : Dev :=
  let put := fun (d : Dev) (l : FetchLine) =>
    let cs := d.core c
    let cs : CoreSt := { cs with lineBuf := touchLine (fun _ => true) 4 l cs.lineBuf }
    d.putCore c cs
  let cached := fun (d : Dev) (l : FetchLine) =>
    let cs := d.core c
    d.putCore c { cs with cache := touchLine (fun x => x % 256 = no % 256) 4 l cs.cache }
  match lineIn no (d.core c).lineBuf with
  | some l => put d l
  | none =>
    let d := d.putCore c ((d.core c).perf CORE.PERF_LB_MISS 1)
    let use_ := (d.core c).caches no
    match (if use_ then lineIn no (d.core c).cache else none) with
    | some l => cached (put d l) l
    | none =>
      let d := d.when use_ fun d => d.putCore c ((d.core c).perf CORE.PERF_IC_MISS 1)
      match d.lineAddr c no with
      | none => d
      | some a =>
        let (l, d) := d.readLine c no a
        let d := put d l
        d.when use_ fun d => cached d l

/-- The lines that an instruction at `pc` and the 32 bytes after it lie in, brought in (R238). [Log 86 DEDUCED] -/
def Dev.fetchLines (d : Dev) (c pc len : Nat) : Dev :=
  let first := pc / 64
  let last := (pc + len + 31) / 64
  (List.range (last + 1 - first)).foldl (fun d i =>
    if fetchable (BitVec.ofNat 32 ((first + i) * 64)) then d.fetchLine c (first + i) else d) d

/-- The byte the line buffer holds at an address, and whether its code was uncorrectable. [Log 86 DEDUCED] -/
def CoreSt.lineByte (cs : CoreSt) (a : Nat) : Option (Byte × Bool) :=
  (lineIn (a / 64) cs.lineBuf).map fun l => (l.bytes.getD (a % 64) 0, l.bad.contains (a % 64))

/-- The first `len` bytes of the instruction at the PC, from the line buffer, or their exception, in the order BUSERR, MPU, ECC (R292).
What the line buffer holds it holds in the form it was filled in (R240). [Log 13 DESIGN CHOICE, 86 DEDUCED, 95 DEDUCED] -/
def Dev.fetch (d : Dev) (c len : Nat) : Except Exc (List Byte) × Dev :=
  let pc := (d.core c).pc
  let x : Nat → Exc := fun v => { vec := v, addr := pc, pc := pc }
  let last := pc + BitVec.ofNat 32 (len - 1)
  if !fetchable pc || !fetchable last then (.error (x 6), d)
  else
    let e := d.fetchLines c pc.toNat len
    let bs := (List.range len).map fun i => (e.core c).lineByte (pc.toNat + i)
    if bs.contains none then (.error (x 6), e)
    else if !(d.core c).mpuGrants pc 3 || !(d.core c).mpuGrants last 3 then (.error (x 7), d)
    else if bs.any fun b => (b.map (·.2)).getD true then (.error (x 8), e)
    else (.ok (bs.map fun b => (b.map (·.1)).getD 0), e)

/-- The instruction word `w` fetched at the PC (R240): the exception of its fetch, if any, with the device after it; nothing where the line
buffer holds another word. [Log 13 DESIGN CHOICE] -/
def Dev.fetchWord (d : Dev) (c : Nat) (w : Word) : Option (Option Exc × Dev) :=
  let n := wordLen w
  match d.fetch c 2 with
  | (.error x, e) => some (some x, e)
  | (.ok bs, e) =>
    if bs ≠ toBytes 2 w.toNat then none
    else if n = 2 then some (none, e)
    else match e.fetch c n with
      | (.error x, e) => some (some x, e)
      | (.ok bs, e) => if bs = toBytes n w.toNat then some (none, e) else none

/-- A device, or the same device with the answer that the command must be given again. -/
def Dev.orWait (d : Dev) : Option Dev → Dev
  | some d' => d'
  | none => { d with answer := .waits }

/-- An exception of the instruction itself taken precisely, unless Sill is due (R292): then the instruction is the next one there.
[Log 87 DEDUCED] -/
def Dev.takeExc (d : Dev) (c : Nat) (x : Exc) : Option Dev :=
  match d.sillDue c with
  | some e => e
  | none => d.enterExc c true x

/-- What an instruction does, once it is fetched: the device after it has retired; a precise exception; the device with the
instruction in progress; or nothing yet. -/
inductive Issue where
  | done (d : Dev)
  | exc (d : Dev) (x : Exc)
  | posted (d : Dev)
  | wait
  deriving DecidableEq, Repr

/-- The exceptions of an issued instruction and of the boundary that follows it (R292). -/
def Issue.finish (c : Nat) : Issue → Option Dev
  | .done d => d.boundary c
  | .exc d x => d.takeExc c x
  | .posted d => some d
  | .wait => none

/-- The word of the command, which the line buffer holds at the PC: fetched, then executed by `f` (R238, R291 to R309). A core that cannot
issue, or holds another word there, leaves the command without effect. -/
def Dev.issue (d : Dev) (c : Nat) (w : Word) (f : Dev → Issue) : Dev :=
  if !d.canIssue c then { d with answer := .ignored }
  else match d.fetchWord c w with
    | none => { d with answer := .ignored }
    | some (some x, d') => d.orWait (d'.takeExc c x)
    | some (none, d') => d.orWait ((f d').finish c)

/-! ### Pairs started and stopped (R247, R248) -/

/-- One core released (R247). -/
def Dev.releaseCore (d : Dev) (c : Nat) (entry : Word) (lock : Bool) : Dev :=
  let d := d.putCore c { pc := entry, lost := (d.core c).lost }
  let d := (d.setCoreState c 2).setFld (CORES.CORE_STATUS_ROLE c) (c % 2)
  d.setFld (CORES.CORE_STATUS_LOCKSTEP c) (b2n lock)

/-- A pair released in the mode its START names (R247, R248). -/
def Dev.startPair (d : Dev) (p : Nat) : Dev :=
  let lock := decide (d.fld (CORES.PAIR_CFG_START p) = 1)
  let d := d.putPair p {}
  let d := d.releaseCore (2 * p) (d.reg (CORES.ENTRY_P p)) lock
  d.releaseCore (2 * p + 1) (d.reg (if lock then CORES.ENTRY_P p else CORES.ENTRY_S p)) lock

/-- The ORDERED access a core has in flight, not yet performed, with its agent (R236). -/
def Dev.inFlight (d : Dev) (c : Nat) : Option (AgentId × MemReq) :=
  match (d.core c).req with
  | none => none
  | some q =>
    match d.place c q.addr with
    | .ordered _ => if q.sent then none else some (d.coreAgent c, q)
    | _ => none

/-- Two requests of a pair ask for the same access. -/
def MemReq.same (q r : MemReq) : Bool :=
  decide (q.addr = r.addr) && decide (q.len = r.len) && decide (q.data = r.data) && decide (q.amo = r.amo)

/-- The accesses of a pair that have passed the tollgate: in lockstep one, which both cores have asked for (R308). -/
def Dev.pairFlight (d : Dev) (p : Nat) : Option (AgentId × MemReq) × Option (AgentId × MemReq) :=
  if !d.lockstep (2 * p) then (d.inFlight (2 * p), d.inFlight (2 * p + 1))
  else match (d.core (2 * p)).req, (d.core (2 * p + 1)).req with
    | some q, some r =>
      if q.same r ∧ (d.core (2 * p)).retired = (d.core (2 * p + 1)).retired then (d.inFlight (2 * p), none) else (none, none)
    | _, _ => (none, none)

/-- One core put in reset: an ORDERED access in flight still completes (R248). -/
def Dev.resetCore (d : Dev) (c : Nat) (flight : Option (AgentId × MemReq)) : Dev :=
  let d := ({ d with cores := Tab.set {} c { lost := flight.or (d.core c).lost } d.cores } : Dev)
  ((d.setCoreState c 0).setFld (CORES.CORE_STATUS_LOCKSTEP c) 0).setFld (CORES.CORE_STATUS_PL c) 0

/-- A pair put in reset (R248). -/
def Dev.resetPair (d : Dev) (p : Nat) : Dev :=
  let ids : List AgentId := [0x0110 + BitVec.ofNat 16 p, 0x0100 + BitVec.ofNat 16 (2 * p), 0x0101 + BitVec.ofNat 16 (2 * p)]
  let (x, y) := d.pairFlight p
  let d := ((d.resetCore (2 * p) x).resetCore (2 * p + 1) y).putPair p {}
  ids.foldl Dev.abortClaims d

/-- A commit of CORES group `p` is refused: between LOCKSTEP and SPLIT on a running pair (R248). -/
def Dev.coresCommit (d e : Dev) (p : Nat) : Option Cause :=
  let a := d.fld (CORES.PAIR_CFG_START p)
  let b := e.fld (CORES.PAIR_CFG_START p)
  if d.regulated ∧ a ≠ 0 ∧ b ≠ 0 ∧ a ≠ b then some .running else none

/-- A commit of CORES group `p` applied (R248). -/
def Dev.coresApplied (old d : Dev) (p : Nat) : Dev :=
  if !old.regulated then d
  else
    let a := old.fld (CORES.PAIR_CFG_START p)
    let b := d.fld (CORES.PAIR_CFG_START p)
    if a = b then d else if b = 0 then d.resetPair p else d.startPair p

/-- The cores released at first regulation (R248). [Log 95 DEDUCED] -/
def Dev.coresFirst (d : Dev) : Dev :=
  d.each [0, 1] fun d p =>
    if d.fld (CORES.PAIR_CFG_START p) = 0 then d.resetPair p else d.startPair p

end Sys2Proof.Machine
end

