-- ==== Sys2Proof/Machine/DmaCh.lean ====
section
/-!
DEFINITION. Machine/DmaCh.lean: the DMA channels as registers and the Junction see them (spec/16, R383, R388, R392): state, triggers,
start and stop. The transfers themselves are in Dma.lean.
-/
namespace Sys2Proof.Machine

/-- A DMA channel. -/
def Dev.dma (d : Dev) (c : Nat) : DmaSt := Tab.get {} c d.dmas

/-- A DMA channel set. -/
def Dev.setDma (d : Dev) (c : Nat) (x : DmaSt) : Dev := { d with dmas := Tab.set {} c x d.dmas }

/-- What a channel keeps from one descriptor to the next: its place in the rotation of each engine (R382). -/
def DmaSt.fresh (x : DmaSt) : DmaSt := { rdTurn := x.rdTurn, wrTurn := x.wrTurn }

/-- CH_STATUS.STATE: 0 IDLE, 1 FETCH, 2 WAIT, 3 ACTIVE, 4 DRAIN, 5 DONE, 6 ERROR. -/
def Dev.dmaState (d : Dev) (c : Nat) : Nat := d.fld (DMA.CH_STATUS_STATE c)

/-- The channel is IDLE, DONE or ERROR. -/
def dmaRests (st : Nat) : Bool := decide (st = 0) || decide (st = 5) || decide (st = 6)

/-- A channel's state set; DMA_STATUS.BUSY follows (R392). -/
def Dev.setDmaState (d : Dev) (c st : Nat) : Dev :=
  (d.setFld (DMA.CH_STATUS_STATE c) st).setNum DMA.DMA_STATUS (putBits (d.num DMA.DMA_STATUS) c c (b2n (!dmaRests st)))

/-- The agent a channel acts for (R35). -/
def Dev.dmaAgent (d : Dev) (c : Nat) : AgentId := BitVec.ofNat 16 (d.fld (DMA.CH_STATUS_AGENT c))

/-- The address field of a 64-bit register. -/
def addr40 (v : DWord) : Nat := v.toNat % 2 ^ 40

/-- A descriptor begins: a chained one raises CHAIN (R384). [Log 117 DEDUCED] -/
def Dev.dmaBegin (d : Dev) (c : Nat) : Dev :=
  ((d.setDmaState c 3).setDma c { d.dma c with since := d.now }).when (d.dma c).chained fun d => d.raise (1131 + 4 * c)

/-- A channel waiting for its trigger takes it and becomes active (R383). -/
def Dev.dmaTake (d : Dev) (c : Nat) : Dev :=
  d.when (decide (d.dmaState c = 2) && d.flag (DMA.CH_STATUS_TRIG_PEND c)) fun d =>
    (d.setFld (DMA.CH_STATUS_TRIG_PEND c) 0).dmaBegin c

/-- A trigger delivered to a channel (R383). -/
def Dev.dmaTrig (d : Dev) (c : Nat) : Dev :=
  d.when (d.flag (DMA.CH_CFG_TRIG_EN c)) fun d =>
    if d.flag (DMA.CH_STATUS_TRIG_PEND c) then d.incFld (DMA.CH_STATUS_MERGED c)
    else (d.setFld (DMA.CH_STATUS_TRIG_PEND c) 1).dmaTake c

/-- The channels that select a Junction event as their trigger (R383, R395). -/
def Dev.dmaEvent (d : Dev) (id : Nat) : Dev :=
  d.each (List.range 16) fun d c => d.when (decide (d.fld (DMA.CH_CFG_TRIG_EVENT c) = id)) fun d => d.dmaTrig c

/-- A channel enters ERROR (R384, R385): cause, failing address with bit 63 for a write. The completion record is its caller's. -/
def Dev.dmaFail (d : Dev) (c cause : Nat) (addr : DWord) : Dev :=
  let d := ((d.setDmaState c 6).setFld (DMA.CH_STATUS_CAUSE c) cause).setReg64 (DMA.CH_FAULT c) addr
  let d := (d.setFld (DMA.CH_FLAGS_ERROR c) 1).setDma c { d.dma c with buf := [], held := false, ending := none, flips := [] }
  (d.when (decide (cause = 6)) fun d => (d.setFld (DMA.CH_FLAGS_OVERLAP c) 1).raise 1207).raise (1130 + 4 * c)

/-- The channel of a DMA channel register. -/
def dmaChan (a : Nat) : Nat := (a - DMA.CH_CFG 0) / 0x40

/-- What refuses a write of a DMA register beside its fields' ranges (R388): stage, bit and cause. -/
def Dev.dmaRefusals (d : Dev) (a : Nat) (v : Word) : List (Nat × Nat × Cause) :=
  if DMA.CH_CFG 0 ≤ a ∧ a < DMA.CH_CFG 16 ∧ a % 0x40 = 0x18 then
    let st := d.dmaState (dmaChan a)
    (if bitOf v.toNat 1 ∧ dmaRests st then [(3, 1, .state)] else [])
      ++ (if bitOf v.toNat 0 ∧ ¬ dmaRests st then [(3, 0, .state)] else [])
  else []

end Sys2Proof.Machine
end

