-- ==== Sys2Proof/Machine/Peng.lean ====
section
/-!
DEFINITION. Machine/Peng.lean: the pin engines (spec/15, R342 to R353, R362): their instructions, read from ENG_PROG at the PC,
the pin stage, the FIFOs and the commands of ENG_CMD and GSTART_CMD. An operation is late when its instruction is reached after the
operation's time; the steps of the self-timed logic are not modelled.
-/
namespace Sys2Proof.Machine

def Dev.eng (d : Dev) (e : Nat) : EngSt := Tab.get {} e d.engs

/-- An engine set; the registers that show it follow (R362). -/
def Dev.putEng (d : Dev) (e : Nat) (x : EngSt) : Dev :=
  let d : Dev := { d with engs := Tab.set {} e x d.engs }
  let d := (d.setFld (PENG.ENG_STATUS_TX e) x.tx.length).setFld (PENG.ENG_STATUS_RX e) x.rx.length
  let d := d.setFld (PENG.ENG_STATUS_QUEUED e) x.q.length
  d.setReg64 (PENG.ENG_ET e) (BitVec.ofNat 64 (x.et.toNat / 4))

/-- STATE of an engine: 0 STOPPED, 1 STARTING, 2 RUNNING, 3 WAITING, 4 STALLED. -/
def Dev.engState (d : Dev) (e : Nat) : Nat := d.fld (PENG.ENG_STATUS_STATE e)

def Dev.setEngState (d : Dev) (e v : Nat) : Dev := d.setFld (PENG.ENG_STATUS_STATE e) v

/-- The program word at the PC (R351). -/
def Dev.engWord (d : Dev) (e : Nat) : Nat := d.fld (PENG.ENG_PROG_INSTR (32 * e + d.fld (PENG.ENG_STATUS_PC e)))

/-- The program counter moved on, wrapping after 31 (R347). -/
def Dev.setEngPc (d : Dev) (e pc : Nat) : Dev := d.setFld (PENG.ENG_STATUS_PC e) (pc % 32)

/-! ### Instructions (R346) -/

/-- The condition of a BRA. -/
inductive EngCond where
  | always | k0Loop | k1Loop | k0Zero | slotHi | slotLo | srEmpty | txReady
  deriving DecidableEq, Repr

/-- The operations of COPY: destinations and sources in the order of their codes. -/
inductive EngDst where
  | sr | cr | k0 | k1 | pins | dir
  deriving DecidableEq, Repr

inductive EngSrc where
  | sr | cr | k0 | k1 | slots | zero | status
  deriving DecidableEq, Repr

/-- An engine instruction without its LEN (R346). -/
inductive EngInstr where
  | illegal
  | bra (c : EngCond) (addr : Nat)
  | await (lvl : Bool) (src idx : Nat)
  | send (slot n : Nat)
  | take (slot n : Nat)
  | pins (v : Nat)
  | dir (v : Nat)
  | fetch
  | fetchNb
  | store
  | setk (k1 : Bool) (imm : Nat)
  | copy (dst : EngDst) (src : EngSrc) (mod : Nat)
  | raise (idx : Nat)
  | lower (idx : Nat)
  | note
  deriving DecidableEq, Repr

def engCond : Nat → EngCond
  | 0 => .always | 1 => .k0Loop | 2 => .k1Loop | 3 => .k0Zero | 4 => .slotHi | 5 => .slotLo | 6 => .srEmpty | _ => .txReady

def engDst : Nat → Option EngDst
  | 0 => some .sr | 1 => some .cr | 2 => some .k0 | 3 => some .k1 | 4 => some .pins | 5 => some .dir | _ => none

def engSrc : Nat → Option EngSrc
  | 0 => some .sr | 1 => some .cr | 2 => some .k0 | 3 => some .k1 | 4 => some .slots | 5 => some .zero | 6 => some .status
  | _ => none

/-- Cells of a SEND or TAKE: 0 stands for 32. -/
def cellCount (n : Nat) : Nat := if n = 0 then 32 else n

/-- What an instruction word spells for cells of `w` slots (R346). -/
def engDecode (w n : Nat) : EngInstr :=
  let op := bitsOf n 7 0
  match bitsOf n 15 12 with
  | 1 => .bra (engCond (bitsOf op 7 5)) (bitsOf op 4 0)
  | 2 => if bitsOf op 6 5 = 3 ∨ bitsOf op 4 3 ≠ 0 then .illegal else .await (bitOf op 7) (bitsOf op 6 5) (bitsOf op 2 0)
  | 3 => if bitsOf op 7 5 + w > 8 then .illegal else .send (bitsOf op 7 5) (cellCount (bitsOf op 4 0))
  | 4 => if bitsOf op 7 5 + w > 8 then .illegal else .take (bitsOf op 7 5) (cellCount (bitsOf op 4 0))
  | 5 => .pins op
  | 6 => .dir op
  | 7 =>
    if bitsOf op 5 0 ≠ 0 then .illegal
    else match bitsOf op 7 6 with
      | 0 => .fetch | 1 => .fetchNb | 2 => .store | _ => .illegal
  | 8 => .setk (bitOf op 7) (bitsOf op 6 0)
  | 9 =>
    match engDst (bitsOf op 7 5), engSrc (bitsOf op 4 2) with
    | some d, some s => .copy d s (bitsOf op 1 0)
    | _, _ => .illegal
  | 10 =>
    if bitsOf op 5 3 ≠ 0 then .illegal
    else match bitsOf op 7 6 with
      | 0 => .raise (bitsOf op 2 0)
      | 1 => .lower (bitsOf op 2 0)
      | 2 => if bitsOf op 2 0 = 0 then .note else .illegal
      | _ => .illegal
  | _ => .illegal

/-- The slots of a cell, W (R347). -/
def Dev.engWidth (d : Dev) (e : Nat) : Nat := 2 ^ d.fld (PENG.ENG_CTRL_WIDTH e)

/-- The instruction an engine has reached. [Log 101 DEDUCED] -/
def Dev.engInstr (d : Dev) (e : Nat) : EngInstr := engDecode (d.engWidth e) (d.engWord e)

/-! ### Engine time (R343) -/

/-- One tick in 1/256 ns. -/
def Dev.engTick (d : Dev) (e : Nat) : Nat := 256 * d.fld (PENG.ENG_CLK_DIV e) + d.fld (PENG.ENG_CLK_FRAC e)

/-- The length of one cell, or of an instruction, in 1/256 ns. -/
def Dev.engLen (d : Dev) (e : Nat) : Nat := (1 + bitsOf (d.engWord e) 11 8) * d.engTick e

/-- An engine time in whole nanoseconds of the Milepost. [Log 102 DEDUCED] -/
def etNs (et : BitVec 66) : Time := floorNs (BitVec.ofNat 64 (et.toNat / 4))

/-- A time of the Milepost as an engine time. [Log 102 DEDUCED] -/
def nsEt (t : Time) : BitVec 66 := BitVec.ofNat 66 (t.toNat * 4)

/-- The later of two engine times. -/
def maxEt (a b : BitVec 66) : BitVec 66 := if (b - a).toNat < 2 ^ 65 then b else a

/-! ### Flags, stops (R346, R349, R351) -/

/-- A flag of ENG_FLAGS sets; event 928 + e where it was 0 and EVT_MASK selects it (R349). -/
def Dev.engFlag (d : Dev) (e : Nat) (f : Nat → Fld) : Dev :=
  if d.flag (f e) then d
  else
    let d := d.setFld (f e) 1
    if bitOf (d.fld (PENG.ENG_CTRL_EVT_MASK e)) ((f e).lo - 8) then d.raise (928 + e) else d

/-- A stop takes hold: STOPPED where no cell of an instruction in progress is left to queue and the queue is empty (R351).
[Log 52 DEDUCED] -/
def Dev.engSettle (d : Dev) (e : Nat) : Dev :=
  let x := d.eng e
  if d.flag (PENG.ENG_STATUS_STOPPING e) && x.q.isEmpty && decide (x.cells = 0) then
    (d.setFld (PENG.ENG_STATUS_STOPPING e) 0).setEngState e 0
  else d

/-- The logic of an engine stopped, after a SEND or TAKE in progress (R351). [Log 52 DEDUCED] -/
def Dev.engHalt (d : Dev) (e cause : Nat) : Dev :=
  let d := (d.setFld (PENG.ENG_STATUS_CAUSE e) cause).setFld (PENG.ENG_STATUS_STOPPING e) 1
  (d.setEngState e 2).engSettle e

/-- The logic runs and takes its next instruction, or goes on with a SEND or TAKE in progress. -/
def Dev.engGoes (d : Dev) (e : Nat) : Bool :=
  (decide (d.engState e = 2) || decide (d.engState e = 3))
    && (!d.flag (PENG.ENG_STATUS_STOPPING e) || decide ((d.eng e).cells > 0))

/-- An instruction retired: et advances by its ticks and the PC moves to `pc` (R343, R347). -/
def Dev.engRetire (d : Dev) (e : Nat) (et : BitVec 66) (cells pc : Nat) : Dev :=
  let d := d.putEng e { d.eng e with et := et + BitVec.ofNat 66 (cells * d.engLen e), cells := 0 }
  ((d.setEngPc e pc).setEngState e 2).engSettle e

/-- The PC of the next instruction in sequence. -/
def Dev.engNext (d : Dev) (e : Nat) : Nat := d.fld (PENG.ENG_STATUS_PC e) + 1

/-- An operation put in the pin stage's queue, which has room (R343). -/
def Dev.stage (d : Dev) (e : Nat) (et : BitVec 66) (o : PinOp) : Dev :=
  let x := d.eng e
  d.putEng e { x with q := x.q ++ [{ t := etNs et, queued := d.now, op := o }] }

/-- The pin stage has room. -/
def Dev.stageRoom (d : Dev) (e : Nat) : Bool := decide ((d.eng e).q.length < 8)

/-- An instruction of one engine: run by `f` where the engine has reached it. [Log 101 DEDUCED] -/
def Dev.engStep (d : Dev) (e : Nat) (f : EngInstr → Option Dev) : Dev :=
  if !d.engGoes e then { d with answer := .ignored }
  else match f (d.engInstr e) with
    | some d' => d'
    | none => { d with answer := .ignored }

/-! ### Slots and bank flags -/

/-- The input level of a slot: 0 where it maps to no pin (R350, R356). -/
def Dev.slotIn (d : Dev) (e i : Nat) : Bool :=
  let p := d.slotPin e i
  if p ≥ 160 then false else if d.pinFunc p = 3 then d.funcIn p else d.pinIn p

/-- The level of a slot at a time the Milepost has reached. -/
def Dev.slotInAt (d : Dev) (e i : Nat) (t : Time) : Bool :=
  let p := d.slotPin e i
  if p ≥ 160 then false else d.pinInAt p t

/-- The levels of all slots at a time. -/
def Dev.slotsAt (d : Dev) (e : Nat) (t : Time) : Nat := (List.range 8).foldl (fun n i => n + b2n (d.slotInAt e i t) * 2 ^ i) 0

/-- The changes of a slot or a bank flag, newest first. -/
def Dev.awaitHist (d : Dev) (e src idx : Nat) : List (Time × Bool) :=
  if src = 2 then Tab.get [] (8 * (e / 8) + idx) d.flagHist
  else if d.slotPin e idx ≥ 160 then [] else d.pinHist (d.slotPin e idx)

/-- The first change to a level at or after a time, in changes listed newest first. [Log 103 DEDUCED] -/
def firstChange (lvl : Bool) (t : Time) (h : List (Time × Bool)) : Option Time :=
  ((h.filter fun x => decide (x.2 = lvl) && !before x.1 t).getLast?).map Prod.fst

/-- The level at a time, from changes listed newest first. [Log 103 DEDUCED] -/
def levelAt (t : Time) (h : List (Time × Bool)) : Bool :=
  match h.find? (fun x => !before t x.1) with
  | some (_, l) => l
  | none => false

/-- The whole nanoseconds from a time on at which a level can first hold: the time, and each change to it, from changes listed newest
first. [Log 102 DEDUCED] -/
def levelTimes (lvl : Bool) (t : Time) (h : List (Time × Bool)) : List Time :=
  t :: ((h.filter fun x => decide (x.2 = lvl) && !before x.1 t).reverse.map fun x => ceilNs x.1)

/-- t_w of an AWAIT, once it is known: a level must hold at the whole nanosecond itself (R344). [Log 102 DEDUCED] -/
def Dev.awaitTime (d : Dev) (e : Nat) (lvl : Bool) (src idx : Nat) : Option Time :=
  let t := etNs (d.eng e).et
  let h := d.awaitHist e src idx
  if !d.due t then none
  else if src = 1 then (firstChange lvl t h).map floorNs
  else (levelTimes lvl t h).find? fun t => d.due t && decide (levelAt t h = lvl)

/-! ### The pin stage (R343, R345, R347, R348) -/

/-- The bits of a TAKE cell shifted into CR (R347). -/
def takeInto (lsb : Bool) (w : Nat) (cr : Word) (bits : List Bool) : Word :=
  if lsb then
    let v := bits.zipIdx.foldl (fun n (b, i) => n + b2n b * 2 ^ i) 0
    (cr >>> w) ||| (BitVec.ofNat 32 v <<< (32 - w))
  else (cr <<< w) ||| BitVec.ofNat 32 (bits.foldl (fun n b => 2 * n + b2n b) 0)

/-- A bank flag takes a value at a time (R347). -/
def Dev.setBankFlag (d : Dev) (e idx : Nat) (v : Bool) (t : Time) : Dev :=
  let k := 8 * (e / 8) + idx
  if d.mapBit (PENG.GFLAGS 0) k = v then d
  else
    let d := d.setMapBit (PENG.GFLAGS 0) k v
    { d with flagHist := Tab.put k ((t, v) :: Tab.get [] k d.flagHist) d.flagHist }

/-- The effect of a pin-stage operation at the time `at_` at which it is performed. [Log 102 DEDUCED] -/
def Dev.stageEffect (d : Dev) (e : Nat) (o : StageOp) (at_ : Time) : Dev :=
  match o.op with
  | .levels m v =>
    let old := d.fld (PENG.ENG_PSTATE_LEVELS e)
    d.setFld (PENG.ENG_PSTATE_LEVELS e) (old - (old &&& m) + (v &&& m))
  | .dir v => d.setFld (PENG.ENG_PSTATE_DIR e) v
  | .take s =>
    let past := decide (lateness o.t o.queued ≤ 32 * 64)
    let bits := (List.range (d.engWidth e)).map fun i => if past then d.slotInAt e (s + i) o.t else d.slotIn e (s + i)
    d.setReg (PENG.ENG_CR e) (takeInto (d.flag (PENG.ENG_CTRL_ORDER_TAKE e)) (d.engWidth e) (d.reg (PENG.ENG_CR e)) bits)
  | .toCr v => d.setReg (PENG.ENG_CR e) v
  | .store =>
    let x := d.eng e
    let w := d.reg (PENG.ENG_CR e)
    let d := d.setReg (PENG.ENG_CR e) 0
    if x.rx.length ≥ 8 then d.engFlag e PENG.ENG_FLAGS_OVERRUN else d.putEng e { x with rx := x.rx ++ [w] }
  | .flag idx v => d.setBankFlag e idx v at_

/-- The operation's time is that of an output effect, which can be late (R345). [Log 102 DEDUCED] -/
def PinOp.output : PinOp → Bool
  | .levels _ _ => true
  | .dir _ => true
  | _ => false

/-- PIN_STAGE_OPERATION (R343): the oldest queued operation of engine `e` is performed when the Milepost has reached its time; an
output effect that reached the pin stage after its time is late (R345). [Log 101 DEDUCED] -/
def execPinStageOperation (e : Fin 40) (s : State) : Host.Outcome State Fault Refusal :=
  s.onDev fun d =>
    match (d.eng e).q with
    | [] => d
    | o :: rest => d.when (d.due o.t) fun d =>
      let d := d.putEng e { d.eng e with q := rest }
      let at_ := maxT o.t o.queued
      let d := d.stageEffect e o at_
      let d := if o.op.output && decide (lateness o.t o.queued > 0) then (d.lateAct 0x2C o.t at_).engFlag e PENG.ENG_FLAGS_LATE else d
      d.engSettle e

/-! ### The instructions (R344, R347, R348) -/

/-- A BRA waits for the Milepost where it tests a slot (R344). -/
def EngCond.slot : EngCond → Bool
  | .slotHi => true
  | .slotLo => true
  | _ => false

/-- A counter decremented, and whether it is then not 0 (R347). -/
def Dev.kLoop (d : Dev) (f : Fld) : Bool × Dev :=
  let k := (d.fld f + 65535) % 65536
  (decide (k ≠ 0), d.setFld f k)

/-- The test of a BRA (R347). -/
def Dev.engTest (d : Dev) (e : Nat) (c : EngCond) : Bool × Dev :=
  let lvl := d.slotInAt e (d.fld (PENG.ENG_CTRL_TEST_SLOT e)) (etNs (d.eng e).et)
  match c with
  | .always => (true, d)
  | .k0Loop => d.kLoop (PENG.ENG_K_K0 e)
  | .k1Loop => d.kLoop (PENG.ENG_K_K1 e)
  | .k0Zero => (decide (d.fld (PENG.ENG_K_K0 e) = 0), d)
  | .slotHi => (lvl, d)
  | .slotLo => (!lvl, d)
  | .srEmpty => (decide (d.fld (PENG.ENG_PSTATE_SR_LEFT e) = 0), d)
  | .txReady => (!(d.eng e).tx.isEmpty, d)

/-- BRA (R347): a branch on a counter, slot, SR or TX condition of engine `e`. -/
def execEngBra (e : Fin 40) (s : State) : Host.Outcome State Fault Refusal :=
  s.onDev fun d => d.engStep e fun i =>
    match i with
    | .bra c addr =>
      if c.slot && !d.due (etNs (d.eng e).et) then some (d.setEngState e 3)
      else
        let et := (d.eng e).et
        let next := d.engNext e
        let (t, d) := d.engTest e c
        some (d.engRetire e et 1 (if t then addr else next))
    | _ => none

/-- An AWAIT whose t_w is known retires (R344). -/
def Dev.awaitDone (d : Dev) (e : Nat) (lvl : Bool) (src idx : Nat) : Option Dev :=
  (d.awaitTime e lvl src idx).map fun t => d.engRetire e (nsEt t) 1 (d.engNext e)

/-- AWAIT (R344): the engine waits for a slot level, a slot edge or a bank flag. -/
def execEngAwait (e : Fin 40) (s : State) : Host.Outcome State Fault Refusal :=
  s.onDev fun d => d.engStep e fun i =>
    match i with
    | .await lvl src idx => some ((d.awaitDone e lvl src idx).getD (d.setEngState e 3))
    | _ => none

/-- AWAIT_SATISFIED (R344): the awaited condition holds at t_w. -/
def execAwaitSatisfied (e : Fin 40) (s : State) : Host.Outcome State Fault Refusal :=
  s.onDev fun d => d.engStep e fun i =>
    match i with
    | .await lvl src idx => if d.engState e = 3 then d.awaitDone e lvl src idx else none
    | _ => none

/-- The bits a SEND cell takes from SR onto slots from `s`: the mask and the levels, the SR left (R347). -/
def sendCell (lsb : Bool) (w s : Nat) (sr : Word) : Nat × Nat × Word :=
  let mask := (2 ^ w - 1) * 2 ^ s
  if lsb then (mask, sr.toNat % 2 ^ w * 2 ^ s, sr >>> w)
  else
    let v := (List.range w).foldl (fun n i => n + b2n (bitOf sr.toNat (31 - i)) * 2 ^ (s + i)) 0
    (mask, v, sr <<< w)

/-- One SEND cell queued. -/
def Dev.sendOne (d : Dev) (e s : Nat) : Dev :=
  let w := d.engWidth e
  let x := d.eng e
  let (m, v, sr) := sendCell (d.flag (PENG.ENG_CTRL_ORDER_SEND e)) w s (d.reg (PENG.ENG_SR e))
  let d := d.stage e (x.et + BitVec.ofNat 66 (x.cells * d.engLen e)) (.levels m v)
  let d := (d.setReg (PENG.ENG_SR e) sr).setFld (PENG.ENG_PSTATE_SR_LEFT e) (d.fld (PENG.ENG_PSTATE_SR_LEFT e) - w)
  d.putEng e { d.eng e with cells := x.cells + 1 }

/-- One TAKE cell queued. -/
def Dev.takeOne (d : Dev) (e s : Nat) : Dev :=
  let x := d.eng e
  let d := d.stage e (x.et + BitVec.ofNat 66 (x.cells * d.engLen e)) (.take s)
  d.putEng e { d.eng e with cells := x.cells + 1 }

/-- The cells of a SEND or TAKE queued as long as the pin stage has room; the instruction retires with its last (R343).
[Log 101 DEDUCED] -/
def Dev.cellsGo (d : Dev) (e n : Nat) (one : Dev → Dev) : Nat → Dev
  | 0 => d
  | fuel + 1 =>
    if (d.eng e).cells ≥ n then d.engRetire e (d.eng e).et n (d.engNext e)
    else if d.stageRoom e then (one d).cellsGo e n one fuel
    else { d with answer := .waits }

/-- SEND (R347): cells of SR bits queued onto slots at their cell times. -/
def execEngSend (e : Fin 40) (s : State) : Host.Outcome State Fault Refusal :=
  s.onDev fun d => d.engStep e fun i =>
    match i with
    | .send slot n => some (d.cellsGo e n (fun d => d.sendOne e slot) 33)
    | _ => none

/-- TAKE (R347): cells of slot samples queued into CR. -/
def execEngTake (e : Fin 40) (s : State) : Host.Outcome State Fault Refusal :=
  s.onDev fun d => d.engStep e fun i =>
    match i with
    | .take slot n => some (d.cellsGo e n (fun d => d.takeOne e slot) 33)
    | _ => none

/-- An instruction that queues one operation at et. -/
def Dev.engQueue (d : Dev) (e : Nat) (o : PinOp) : Dev :=
  if !d.stageRoom e then { d with answer := .waits }
  else
    let et := (d.eng e).et
    (d.stage e et o).engRetire e et 1 (d.engNext e)

/-- PINS (R347). -/
def execEngPins (e : Fin 40) (s : State) : Host.Outcome State Fault Refusal :=
  s.onDev fun d => d.engStep e fun i =>
    match i with
    | .pins v => some (d.engQueue e (.levels 0xFF v))
    | _ => none

/-- DIR (R347). -/
def execEngDir (e : Fin 40) (s : State) : Host.Outcome State Fault Refusal :=
  s.onDev fun d => d.engStep e fun i =>
    match i with
    | .dir v => some (d.engQueue e (.dir v))
    | _ => none

/-- A word in SR with all its bits to send (R347, R348). -/
def Dev.loadSr (d : Dev) (e : Nat) (w : Word) : Dev := (d.setReg (PENG.ENG_SR e) w).setFld (PENG.ENG_PSTATE_SR_LEFT e) 32

/-- FETCH (R348): a TX word moves into SR; the engine stalls while TX is empty. [Log 106 DEDUCED] -/
def execEngFetch (e : Fin 40) (s : State) : Host.Outcome State Fault Refusal :=
  s.onDev fun d => d.engStep e fun i =>
    match i, (d.eng e).tx with
    | .fetch, [] => some (d.setEngState e 4)
    | .fetch, w :: t =>
      let d := d.putEng e { d.eng e with tx := t }
      some ((d.loadSr e w).engRetire e (d.eng e).et 1 (d.engNext e))
    | _, _ => none

/-- FETCH_STALL_END (R348): a word has arrived in TX; et becomes the later of et and t_r + 12 ns. [Log 106 DEDUCED] -/
def execFetchStallEnd (e : Fin 40) (s : State) : Host.Outcome State Fault Refusal :=
  s.onDev fun d =>
    match (d.eng e).tx with
    | [] => d
    | w :: t => d.when (decide (d.engState e = 4)) fun d =>
      let et := maxEt (d.eng e).et (nsEt (floorNs d.now + nsT 12))
      let d := d.putEng e { d.eng e with tx := t }
      (d.loadSr e w).engRetire e et 1 (d.engNext e)

/-- FETCH_NB (R348). -/
def execEngFetchNb (e : Fin 40) (s : State) : Host.Outcome State Fault Refusal :=
  s.onDev fun d => d.engStep e fun i =>
    match i with
    | .fetchNb =>
      let x := d.eng e
      let d := match x.tx with
        | [] => (d.loadSr e 0).engFlag e PENG.ENG_FLAGS_UNDERRUN
        | w :: t => (d.putEng e { x with tx := t }).loadSr e w
      some (d.engRetire e x.et 1 (d.engNext e))
    | _ => none

/-- STORE (R348). -/
def execEngStore (e : Fin 40) (s : State) : Host.Outcome State Fault Refusal :=
  s.onDev fun d => d.engStep e fun i =>
    match i with
    | .store => some (d.engQueue e .store)
    | _ => none

/-- SETK (R347). -/
def execEngSetk (e : Fin 40) (s : State) : Host.Outcome State Fault Refusal :=
  s.onDev fun d => d.engStep e fun i =>
    match i with
    | .setk k1 imm =>
      let d := d.setFld (if k1 then PENG.ENG_K_K1 e else PENG.ENG_K_K0 e) imm
      some (d.engRetire e (d.eng e).et 1 (d.engNext e))
    | _ => none

/-- The bits of a word exchanged end for end (R347). -/
def revBits (w : Word) : Word := w.reverse

/-- The source of a COPY after MOD (R347). -/
def Dev.copySource (d : Dev) (e : Nat) (src : EngSrc) (mod : Nat) : Word :=
  let x := d.eng e
  let v : Word :=
    match src with
    | .sr => d.reg (PENG.ENG_SR e)
    | .cr => d.reg (PENG.ENG_CR e)
    | .k0 => BitVec.ofNat 32 (d.fld (PENG.ENG_K_K0 e))
    | .k1 => BitVec.ofNat 32 (d.fld (PENG.ENG_K_K1 e))
    | .slots => BitVec.ofNat 32 (d.slotsAt e (etNs x.et))
    | .zero => 0
    | .status => BitVec.ofNat 32 (x.tx.length + x.rx.length * 0x100 + d.fld (PENG.ENG_PSTATE_SR_LEFT e) * 0x10000)
  match mod with
  | 0 => v
  | 1 => ~~~v
  | 2 => revBits v
  | _ => BitVec.ofNat 32 (ofBytes (toBytes 4 v.toNat).reverse)

/-- The source is not known yet (R344): slots before et, CR before every queued operation has been performed. -/
def Dev.copyWaits (d : Dev) (e : Nat) (src : EngSrc) : Bool :=
  match src with
  | .slots => !d.due (etNs (d.eng e).et)
  | .cr => !(d.eng e).q.isEmpty
  | _ => false

/-- COPY (R347). -/
def execEngCopy (e : Fin 40) (s : State) : Host.Outcome State Fault Refusal :=
  s.onDev fun d => d.engStep e fun i =>
    match i with
    | .copy dst src mod =>
      if d.copyWaits e src then some (d.setEngState e 3)
      else
        let v := d.copySource e src mod
        let et := (d.eng e).et
        let fin : Dev → Dev := fun d => d.engRetire e et 1 (d.engNext e)
        some (match dst with
          | .sr => fin (d.loadSr e v)
          | .cr => d.engQueue e (.toCr v)
          | .k0 => fin (d.setFld (PENG.ENG_K_K0 e) v.toNat)
          | .k1 => fin (d.setFld (PENG.ENG_K_K1 e) v.toNat)
          | .pins => d.engQueue e (.levels 0xFF (v.toNat % 256))
          | .dir => d.engQueue e (.dir (v.toNat % 256)))
    | _ => none

/-- RAISE (R347): bank flag IDX sets at the instruction's time. -/
def execEngRaise (e : Fin 40) (s : State) : Host.Outcome State Fault Refusal :=
  s.onDev fun d => d.engStep e fun i =>
    match i with
    | .raise idx => some (d.engQueue e (.flag idx true))
    | _ => none

/-- LOWER (R347): bank flag IDX clears at the instruction's time. -/
def execEngLower (e : Fin 40) (s : State) : Host.Outcome State Fault Refusal :=
  s.onDev fun d => d.engStep e fun i =>
    match i with
    | .lower idx => some (d.engQueue e (.flag idx false))
    | _ => none

/-- NOTE (R347): ENG_FLAGS.SIGNAL sets. -/
def execEngNote (e : Fin 40) (s : State) : Host.Outcome State Fault Refusal :=
  s.onDev fun d => d.engStep e fun i =>
    match i with
    | .note => some ((d.engFlag e PENG.ENG_FLAGS_SIGNAL).engRetire e (d.eng e).et 1 (d.engNext e))
    | _ => none

/-- ENGINE_ILLEGAL (R346): the instruction reached is illegal; the logic stops, and the stop is flagged, reported and recorded. -/
def execEngineIllegal (e : Fin 40) (s : State) : Host.Outcome State Fault Refusal :=
  s.onDev fun d => d.engStep e fun i =>
    match i with
    | .illegal =>
      let old := d.reg (PENG.ENG_STATUS e)
      let d := (d.engHalt e 2).engFlag e PENG.ENG_FLAGS_ILLEGAL
      some ((d.report 0x14 e).sysRec (PENG.ENG_STATUS e) old)
    | _ => none

/-! ### Commands and starts (R351, R352) -/

/-- STOP and STOP_DISCARD are valid (R351). -/
def Dev.engStoppable (d : Dev) (e : Nat) : Bool := decide (d.engState e ≠ 0)

/-- STOP (R351): queued operations take effect at their targets. [Log 52 DEDUCED] -/
def Dev.engStop (d : Dev) (e : Nat) : Dev :=
  if d.engState e = 1 then (d.putEng e { d.eng e with start := none }).setEngState e 0
  else if d.flag (PENG.ENG_STATUS_STOPPING e) then d
  else d.engHalt e 1

/-- Every queued operation discarded. -/
def Dev.engDiscard (d : Dev) (e : Nat) : Dev := d.putEng e { d.eng e with q := [] }

/-- A SEND or TAKE in progress brought to its end with its operations discarded. [Log 104 DEDUCED] -/
def Dev.engEndCells (d : Dev) (e : Nat) : Nat → Dev
  | 0 => d
  | fuel + 1 =>
    if (d.eng e).cells = 0 then d
    else
      let d := d.engDiscard e
      let d := match d.engInstr e with
        | .send slot n => d.cellsGo e n (fun d => d.sendOne e slot) 33
        | .take slot n => d.cellsGo e n (fun d => d.takeOne e slot) 33
        | _ => d
      d.engEndCells e fuel

/-- STOP_DISCARD (R351): queued operations are discarded. [Log 104 DEDUCED] -/
def Dev.engStopDiscard (d : Dev) (e : Nat) : Dev :=
  let d := ((d.engEndCells e 5).engDiscard e).engSettle e
  if d.engState e = 0 then d else d.engStop e

/-- A start at T scheduled (R351). -/
def Dev.engSchedule (d : Dev) (e : Nat) (t : Time) (restart : Bool) : Dev :=
  (d.putEng e { d.eng e with start := some (t, restart, d.now) }).setEngState e 1

/-- The start time an ENG_CMD names (R351). [Log 105 DEDUCED] -/
def Dev.engCmdTime (d : Dev) (e : Nat) (atTime : Bool) : Time :=
  if atTime then floorNs (d.reg64 (PENG.ENG_CMD_AT e)) else floorNs d.now + nsT 20

/-- An accepted ENG_CMD (R351). -/
def Dev.engCommand (d : Dev) (e cmd : Nat) (atTime : Bool) : Dev :=
  match cmd with
  | 1 => d.engStop e
  | 2 => d.engStopDiscard e
  | 3 => d.engSchedule e (d.engCmdTime e atTime) false
  | 4 => d.engSchedule e (d.engCmdTime e atTime) true
  | 5 => d.putEng e { d.eng e with tx := [], rx := [] }
  | _ => d

/-- A start performed: et becomes the instant of the start where it is late (R351). [Log 105 DEDUCED] -/
def Dev.engStart (d : Dev) (e : Nat) (t at_ : Time) (restart : Bool) : Dev :=
  let x := { d.eng e with start := none }
  let d := (d.setEngState e 2).setFld (PENG.ENG_STATUS_CAUSE e) 0
  if restart then
    let d := d.putEng e { x with et := nsEt at_, cells := 0 }
    let d := ((d.setReg (PENG.ENG_SR e) 0).setReg (PENG.ENG_CR e) 0).setReg (PENG.ENG_K e) 0
    let d := (d.setFld (PENG.ENG_PSTATE_SR_LEFT e) 0).setFld (PENG.ENG_PSTATE_DIR e) 0
    d.setEngPc e 0
  else d.putEng e { x with et := if t = at_ then maxEt x.et (nsEt t) else nsEt at_, cells := 0 }

/-- ENGINE_START (R351): start time T of engine `e` has arrived; a start commanded after T is late (R25).
[Log 105 DEDUCED, 145 DESIGN CHOICE] -/
def execEngineStart (e : Fin 40) (s : State) : Host.Outcome State Fault Refusal :=
  s.onDev fun d =>
    match (d.eng e).start with
    | none => d
    | some (t, restart, arr) => d.when (d.due t) fun d =>
      let at_ := if before t arr then ceilNs arr else t
      let d := d.engStart e t at_ restart
      if at_ = t then d else (d.lateAct 0x2C t at_).engFlag e PENG.ENG_FLAGS_LATE

/-- ENGINE_BANK_READY (R342): a bank powered for 5 us is ready. -/
def execEngineBankReady (k : Fin 5) (s : State) : Host.Outcome State Fault Refusal :=
  s.onDev fun d => d.when (d.powered (20 + k) 5000 && !d.domReady (20 + k)) fun d =>
    (d.setMapBit SUPPLY.DOM_STATUS_0 (20 + k) true).setMapBit PENG.BANK_STATUS k true

/-- A bank powered down loses its programs and all engine state (R342). -/
def Dev.engBankOff (d : Dev) (k : Nat) : Dev :=
  let d : Dev := d.each ((List.range 8).map (8 * k + ·)) fun d e =>
    let inEng : Nat → Bool := fun a => (decide (PENG.ENG_CLK e ≤ a) && decide (a < PENG.ENG_CLK e + 0x40))
      || (decide (PENG.ENG_PROG (32 * e) ≤ a) && decide (a < PENG.ENG_PROG (32 * e) + 0x80))
    { d with engs := Tab.del e d.engs, regs := d.regs.filter fun p => !inEng p.1 }
  let d : Dev := { d with flagHist := d.flagHist.filter fun p => p.1 / 8 ≠ k }
  (d.each (List.range 8) fun d j => d.setMapBit (PENG.GFLAGS 0) (8 * k + j) false).setMapBit PENG.BANK_STATUS k false

/-! ### Writes of the PENG registers (R351, R352, R355) -/

/-- The engine whose registers hold a key, with the register's offset; the program words have offsets from 0x1000. -/
def engAt (a : Nat) : Option (Nat × Nat) :=
  if PENG.ENG_CLK 0 ≤ a ∧ a < PENG.ENG_CLK 40 then some ((a - PENG.ENG_CLK 0) / 0x40, (a - PENG.ENG_CLK 0) % 0x40)
  else if PENG.ENG_PROG 0 ≤ a ∧ a < PENG.ENG_PROG 1280 then
    some ((a - PENG.ENG_PROG 0) / 0x80, 0x1000 + (a - PENG.ENG_PROG 0) % 0x80)
  else none

/-- The engines a group start names (R352). -/
def Dev.gstartNames (d : Dev) : List Nat := (List.range 40).filter fun e => d.mapBit (PENG.GSTART_MASK 0) e

/-- The field rules of the PENG words that the register table does not state (R350, R351, R352). -/
def Dev.pengRefusals (d : Dev) (a : Nat) (v : Word) : List (Nat × Nat × Cause) :=
  if a = PENG.GSTART_CMD then
    (if bitOf v.toNat 31 ∧ (d.gstartNames.isEmpty || d.gstartNames.any fun e => decide (d.engState e ≠ 0)) then [(3, 31, .state)] else [])
  else match engAt a with
    | some (_, 0x04) => slotRange v
    | some (_, 0x08) => slotRange v
    | some (e, 0x14) =>
      let c := v.toNat % 8
      if (c = 1 ∨ c = 2) ∧ d.engState e = 0 then [(3, 2, .state)]
      else if (c = 3 ∨ c = 4 ∨ c = 5) ∧ d.engState e ≠ 0 then [(3, 2, .state)] else []
    | _ => []
where
  slotRange (v : Word) : List (Nat × Nat × Cause) :=
    (List.range 4).filterMap fun i =>
      let x := bitsOf v.toNat (8 * i + 7) (8 * i)
      if 160 ≤ x ∧ x < 255 then some (2, 8 * i + 7, Cause.range) else none

/-- The STOP fields of an engine may be written: it is STOPPED (R351). -/
def Dev.engWritable (d : Dev) (a : Nat) : Bool :=
  match engAt a with
  | some (e, _) => decide (d.engState e = 0)
  | none => true

/-- A group start: every named engine takes the same T (R352). [Log 105 DEDUCED] -/
def Dev.groupStart (d : Dev) (restart : Bool) : Dev :=
  let t := floorNs (d.reg64 PENG.GSTART_AT)
  d.each d.gstartNames fun d e => d.engSchedule e t restart

/-- The action of an accepted write of a PENG register. -/
def Dev.pengEffect (d : Dev) (a : Nat) (v : Word) : Dev :=
  if a = PENG.GSTART_CMD then (if bitOf v.toNat 31 then d.groupStart (!bitOf v.toNat 0) else d)
  else match engAt a with
    | some (e, 0x14) => d.engCommand e (v.toNat % 8) (bitOf v.toNat 8)
    | _ => d

/-! ### The threads' side of the FIFOs (R348) -/

/-- A word pushed into TX; none where it is full. -/
def Dev.txPush (d : Dev) (e : Nat) (w : Word) : Option Dev :=
  let x := d.eng e
  if x.tx.length ≥ 8 then none else some (d.putEng e { x with tx := x.tx ++ [w] })

/-- A word pulled from RX; none where it is empty. -/
def Dev.rxPull (d : Dev) (e : Nat) : Option (Word × Dev) :=
  let x := d.eng e
  match x.rx with
  | [] => none
  | w :: t => some (w, d.putEng e { x with rx := t })

end Sys2Proof.Machine
end

