-- ==== Sys2Proof/Machine/Round.lean ====
section
/-!
DEFINITION. Machine/Round.lean: the Roundabout's threads (spec/14, R317 to R341): Wilium-T decoding, thread states, shared
registers, time, actions, events, channels, gridlock, and the commands of THR_CMD. An instruction is read from the thread memory at
THR_PC. The instructions that access memory are in ThreadMem.lean.
-/
namespace Sys2Proof.Machine

/-! ### Wilium-T (R324 to R334) -/

/-- A thread instruction. -/
inductive TInstr where
  | illegal
  | wil (i : WInstr)
  | srd (td n : Nat) | swr (n ta : Nat) | sadd (td n ta : Nat) | scas (td n ta : Nat) | swait (n ta : Nat)
  | tnow | tset (ta tb : Nat) | tget (td sel : Nat) | tadd (ta : Nat) | taddf (ta : Nat) | tleft (td : Nat)
  | waitt | period (ta : Nat) | waitp | pstop | waite (td ta : Nat) | signal | bkpt
  | drv (ta tb : Nat) | smp (td ta : Nat) | estart (ta : Nat)
  | epush (ta tb : Nat) | epull (td ta : Nat) | epushn (ta tb : Nat) | epulln (td ta : Nat)
  | chOpen (ta : Nat) | chPut (ta : Nat) | chClose | chRecv (td ta : Nat) | chGet (td : Nat) | chDone | chPoll (td ta : Nat)
  deriving DecidableEq, Repr

/-- Every register of a list has a number below 16 (R324). -/
def lowRegs (l : List Nat) : Bool := l.all fun r => decide (r < 16)

/-- An addressing mode a thread may use, with its index register below 16 (R324). -/
def AddrMode.thread : AddrMode → Bool
  | .idx rb => decide (rb < 16)
  | .idxu rb => decide (rb < 16)
  | .postr rb => decide (rb < 16)
  | .bank _ => false
  | _ => true

/-- The encodings admitted from Wilium (R324). -/
def admitted : WInstr → Bool
  | .alu _ _ d a b => lowRegs [d, a, b]
  | .addi _ d a _ => lowRegs [d, a]
  | .logi _ d a _ => lowRegs [d, a]
  | .cmpi a _ => lowRegs [a]
  | .shi _ _ d a _ => lowRegs [d, a]
  | .lui d _ => lowRegs [d]
  | .addpc d _ => lowRegs [d]
  | .mul _ d a b => lowRegs [d, a, b]
  | .sat o d a b => lowRegs [d, a] && (decide (o = .ssat) || decide (o = .usat) || lowRegs [b])
  | .bit _ d a => lowRegs [d, a]
  | .bf _ _ _ d a => lowRegs [d, a]
  | .load _ sz m d a _ => lowRegs [d, a] && decide (sz < 3) && m.thread
  | .store sz m r a _ => lowRegs [r, a] && decide (sz < 3) && m.thread
  | .amo _ d a b => lowRegs [d, a, b]
  | .bcc _ _ => true
  | .br _ => true
  | .call _ => true
  | .jr a => lowRegs [a]
  | .callr d a => lowRegs [d, a]
  | .mfs d sr => lowRegs [d] && decide (sr = 0)
  | .mts sr a => lowRegs [a] && decide (sr = 0)
  | .fence => true
  | _ => false

/-- A thread instruction whose named register fields are below 16 and whose other fields are 0. -/
def tOk (regs zeros : List Nat) (i : TInstr) : TInstr := if lowRegs regs && zeros.all (fun z => decide (z = 0)) then i else .illegal

/-- The thread group, major 0x28 (R326). -/
def tGroup (fn d a b : Nat) : TInstr :=
  match fn with
  | 0x000 => tOk [d] [a] (.srd d b)
  | 0x001 => tOk [a] [d] (.swr b a)
  | 0x002 => tOk [d, a] [] (.sadd d b a)
  | 0x003 => tOk [d, a] [] (.scas d b a)
  | 0x004 => tOk [a] [d] (.swait b a)
  | 0x010 => tOk [] [d, a, b] .tnow
  | 0x011 => tOk [a, b] [d] (.tset a b)
  | 0x012 => if b < 2 then tOk [d] [a] (.tget d b) else .illegal
  | 0x013 => tOk [a] [d, b] (.tadd a)
  | 0x014 => tOk [a] [d, b] (.taddf a)
  | 0x015 => tOk [d] [a, b] (.tleft d)
  | 0x018 => tOk [] [d, a, b] .waitt
  | 0x019 => tOk [a] [d, b] (.period a)
  | 0x01A => tOk [] [d, a, b] .waitp
  | 0x01B => tOk [] [d, a, b] .pstop
  | 0x020 => tOk [d, a] [b] (.waite d a)
  | 0x021 => tOk [] [d, a, b] .signal
  | 0x022 => tOk [] [d, a, b] .bkpt
  | _ => .illegal

/-- The action group, major 0x29 (R328). -/
def tAction (fn d a b : Nat) : TInstr :=
  match fn with
  | 0 => tOk [a, b] [d] (.drv a b)
  | 1 => tOk [d, a] [b] (.smp d a)
  | 2 => tOk [a] [d, b] (.estart a)
  | 3 => tOk [a, b] [d] (.epush a b)
  | 4 => tOk [d, a] [b] (.epull d a)
  | 5 => tOk [a, b] [d] (.epushn a b)
  | 6 => tOk [d, a] [b] (.epulln d a)
  | _ => .illegal

/-- The channel group, major 0x2A (R334). -/
def tChannel (fn d a b : Nat) : TInstr :=
  match fn with
  | 0 => tOk [a] [d, b] (.chOpen a)
  | 1 => tOk [a] [d, b] (.chPut a)
  | 2 => tOk [] [d, a, b] .chClose
  | 3 => tOk [d, a] [b] (.chRecv d a)
  | 4 => tOk [d] [a, b] (.chGet d)
  | 5 => tOk [] [d, a, b] .chDone
  | 6 => tOk [d, a] [b] (.chPoll d a)
  | _ => .illegal

/-- What a word spells for a thread (R324, R325). -/
def tDecode (w : Word) : TInstr :=
  if !isLong w then .illegal
  else
    let n := w.toNat
    let fn := bitsOf n 31 22
    let b := bitsOf n 21 17
    let a := bitsOf n 16 12
    let d := bitsOf n 11 7
    match bitsOf n 6 1 with
    | 0x28 => tGroup fn d a b
    | 0x29 => tAction fn d a b
    | 0x2A => tChannel fn d a b
    | _ => if admitted (decode32 n) then .wil (decode32 n) else .illegal

/-! ### Threads and rings (R317, R320) -/

def Dev.thr (d : Dev) (n : Nat) : ThrSt := Tab.get {} n d.thrs
def Dev.setThr (d : Dev) (n : Nat) (x : ThrSt) : Dev := { d with thrs := Tab.set {} n x d.thrs }
def Dev.ring (d : Dev) (r : Nat) : RingSt := Tab.get {} r d.rings
def Dev.setRing (d : Dev) (r : Nat) (x : RingSt) : Dev := { d with rings := Tab.set {} r x d.rings }
def Dev.chan (d : Dev) (c : Nat) : ChanSt := Tab.get {} c d.chans
def Dev.setChan (d : Dev) (c : Nat) (x : ChanSt) : Dev := { d with chans := Tab.set {} c x d.chans }

/-- The agent ID of a thread (R317). -/
def thrAgent (n : Nat) : AgentId := 0x0200 + BitVec.ofNat 16 n

/-- STATE of a thread: 0 OFF, 1 RUNNING, 2 WAITING, 3 STALLED, 4 HALTED, 5 STOPPED. -/
def Dev.thrState (d : Dev) (n : Nat) : Nat := d.fld (ROUND.THR_STATUS_STATE n)

/-- WAIT of a thread (R341). -/
def Dev.thrWait (d : Dev) (n : Nat) : Nat := d.fld (ROUND.THR_STATUS_WAIT n)

/-- A thread waits on an internal condition: CH_RECV, CH_OPEN or SWAIT (R339). -/
def Dev.thrInternal (d : Dev) (n : Nat) : Bool := decide (d.thrState n = 2) && decide (1 ≤ d.thrWait n) && decide (d.thrWait n ≤ 3)

/-- The threads of a ring. -/
def ringThreads (r : Nat) : List Nat := (List.range 32).map (32 * r + ·)

/-- RING_STATUS and RING_WAITERS follow the threads (R341). -/
def Dev.showRing (d : Dev) (r : Nat) : Dev :=
  let ts := ringThreads r
  let d := d.setFld (ROUND.RING_STATUS_WAITING r) (ts.filter fun n => decide (d.thrState n = 2)).length
  let d := d.setFld (ROUND.RING_STATUS_ACTIVE r) (ts.filter fun n => decide (d.thrState n ≠ 0)).length
  d.setNum (ROUND.RING_WAITERS r) (ts.foldl (fun m n => m + b2n (d.thrInternal n) * 2 ^ (n % 32)) 0)

/-- A thread's STATE and WAIT set. -/
def Dev.setThrState (d : Dev) (n st wait : Nat) : Dev :=
  ((d.setFld (ROUND.THR_STATUS_STATE n) st).setFld (ROUND.THR_STATUS_WAIT n) wait).showRing (n / 32)

/-- The registers that show a thread's actions and records follow them. -/
def Dev.putThr (d : Dev) (n : Nat) (x : ThrSt) : Dev :=
  let d := (d.setThr n x).setFld (ROUND.THR_ACTQ_COUNT n) x.acts.length
  (d.setFld (ROUND.THR_STATUS_CH_READING n) (b2n x.reading.isSome)).setFld (ROUND.THR_STATUS_CH_STAGING n) (b2n x.staging.isSome)

/-- A register of a thread: t0 reads 0 (R324). -/
def Dev.t (d : Dev) (n k : Nat) : Word := if k = 0 then 0 else d.reg (ROUND.THR_T n k)

/-- A register of a thread written; a write of t0 is discarded. -/
def Dev.setT (d : Dev) (n k : Nat) (v : Word) : Dev := if k = 0 then d else d.setReg (ROUND.THR_T n k) v

/-- The time register tt. -/
def Dev.tt (d : Dev) (n : Nat) : Time := d.reg64 (ROUND.THR_TT n)

/-- A thread stops with a cause (R325). -/
def Dev.thrStop (d : Dev) (n cause : Nat) (v : Word) : Dev :=
  let old := d.reg (ROUND.THR_STATUS n)
  let d := (d.setFld (ROUND.THR_STATUS_CAUSE n) cause).setReg (ROUND.THR_FAULT_ADDR n) v
  let d := d.putThr n { d.thr n with req := none, stepping := false, haltReq := false }
  let d := d.setThrState n 5 0
  ((d.raise (801 + 2 * n)).report 0x13 n).sysRec (ROUND.THR_STATUS n) old

/-- The address of a ring's thread memory (R322). -/
def ringBase (r : Nat) : Nat := 0x20000000 + 0x40000 * r

/-- A word address in a ring's code part (R322). -/
def Dev.inCode (d : Dev) (r a : Nat) : Bool :=
  decide (ringBase r ≤ a) && decide (a < ringBase r + 4096 * d.fld (ROUND.RING_CTRL_CODE_LIMIT r)) && decide (a % 4 = 0)

/-- The word at a thread's PC; or the stop of its fetch: BUSERR outside the code part, ECC (R321 to R323). [Log 96 DEDUCED] -/
def Dev.thrFetch (d : Dev) (n : Nat) : Word × Option Nat × Dev :=
  let pc := d.num (ROUND.THR_PC n)
  if !d.inCode (n / 32) pc || !d.memReady (0x10 + n / 32) then (0, some 3, d)
  else
    let (ok, bs, d) := d.readMem 0 (thrAgent n) pc 4
    (BitVec.ofNat 32 (ofBytes bs), if ok then none else some 4, d)

/-! ### The end of a rotation step (R318, R334) -/

/-- A record closed earlier becomes visible (R334). [Log 97 DEDUCED] -/
def Dev.flushClosing (d : Dev) (r : Nat) : Dev :=
  match (d.ring r).closing with
  | none => d
  | some (c, ws, _) =>
    let d := d.setRing r { d.ring r with closing := none }
    let x := d.chan c
    (d.setChan c { x with visible := x.visible ++ [ws] }).setFld (ROUND.CH_STATUS_VISIBLE c) (x.visible.length + 1)

/-- An issue slot other than that of the CH.CLOSE begins: its step has ended (R318). [Log 97 DEDUCED] -/
def Dev.stepBefore (d : Dev) (n : Nat) : Dev :=
  match (d.ring (n / 32)).closing with
  | some (_, _, by_) => if by_ / 2 = n / 2 ∧ by_ ≠ n then d else d.flushClosing (n / 32)
  | none => d

/-! ### Resetting and retiring (R336 to R338) -/

/-- Places held by a channel changed by an amount; the pool's FREE follows (R341). -/
def Dev.holdPlaces (d : Dev) (c : Nat) (k : Int) : Dev :=
  let d := d.setFld (ROUND.CH_STATUS_HELD c) ((d.fld (ROUND.CH_STATUS_HELD c) : Int) + k).toNat
  d.setFld (ROUND.POOL_STATUS_FREE (c / 64)) ((d.fld (ROUND.POOL_STATUS_FREE (c / 64)) : Int) - k).toNat

/-- A staged record discarded (R338). -/
def Dev.abandon (d : Dev) (n : Nat) : Dev :=
  match (d.thr n).staging with
  | none => d
  | some (c, _) =>
    let old := d.reg (ROUND.CH_STATUS c)
    let d := (d.putThr n { d.thr n with staging := none }).holdPlaces c (-1)
    (d.raise 17).sysRec (ROUND.CH_STATUS c) old

/-- A record open for reading released (R336). -/
def Dev.dropReading (d : Dev) (n : Nat) : Dev :=
  match (d.thr n).reading with
  | none => d
  | some (c, _) => (d.putThr n { d.thr n with reading := none }).holdPlaces c (-1)

/-- A wait abandoned: the waiting instruction's own queued sample and its place among the waiters go (R336, R337). -/
def Dev.endWait (d : Dev) (n : Nat) : Dev :=
  let x := d.thr n
  let isSmp : Act → Bool := fun a => match a.kind with
    | .smp _ => true
    | _ => false
  let d := d.putThr n { x with acts := x.acts.filter (fun a => !isSmp a), sample := none }
  d.setRing (n / 32) { d.ring (n / 32) with openQ := (d.ring (n / 32)).openQ.filter (· ≠ n) }

/-- The effects of a thread's reset, its MODE being OFF (R336). -/
def Dev.thrReset (d : Dev) (n : Nat) : Dev :=
  let d := ((d.endWait n).dropReading n).abandon n
  let d := d.putThr n { flags := (d.thr n).flags }
  (d.setThrState n 0 0).abortClaims (thrAgent n)

/-- THR_CMD.RESET performed: MODE goes to OFF with a SYSTEM record (R336). -/
def Dev.thrResetCmd (d : Dev) (n : Nat) : Dev :=
  let old := d.reg (ROUND.THR_CFG n)
  let d := (d.setFld (ROUND.THR_CFG_MODE n) 0).sysRec (ROUND.THR_CFG n) old
  d.thrReset n

/-- What happens between two instructions of a thread: a reset, a halt, or the next instruction (R336, R337). [Log 100 DEDUCED] -/
def Dev.thrBetween (d : Dev) (n : Nat) : Dev :=
  let x := d.thr n
  if x.resetReq then (d.putThr n { x with resetReq := false }).thrResetCmd n
  else if d.fld (ROUND.THR_CFG_MODE n) = 0 then d.thrReset n
  else if x.haltReq || x.stepping then (d.putThr n { x with haltReq := false, stepping := false }).setThrState n 4 0
  else d.setThrState n 1 0

/-- An instruction retired: the PC, the count, and what follows (R319, R320). [Log 96 DEDUCED] -/
def Dev.thrRetireTo (d : Dev) (n : Nat) (pc : Word) : Dev :=
  let d := (d.setReg (ROUND.THR_PC n) pc).wrapNum (ROUND.THR_RETIRED n)
  let d := d.putThr n { d.thr n with req := none, sample := none }
  let d := d.setRing (n / 32) { d.ring (n / 32) with openQ := (d.ring (n / 32)).openQ.filter (· ≠ n) }
  d.thrBetween n

/-- An instruction retired in sequence. -/
def Dev.thrRetire (d : Dev) (n : Nat) : Dev := d.thrRetireTo n (d.reg (ROUND.THR_PC n) + 4)

/-- The instruction at the PC issues in the thread's slot, run by `f`; a fetch that fails stops the thread (R318, R321).
[Log 96 DEDUCED] -/
def Dev.thrIssue (d : Dev) (n : Nat) (f : Dev → TInstr → Word → Option Dev) : Dev :=
  if d.thrState n ≠ 1 ∨ !d.domReady (16 + n / 32) then { d with answer := .ignored }
  else
    let d := d.stepBefore n
    let d := d.setRing (n / 32) { d.ring (n / 32) with gridArmed := true }
    let (w, bad, d) := d.thrFetch n
    match bad with
    | some cause => d.thrStop n cause (d.reg (ROUND.THR_PC n))
    | none => (f d (tDecode w) w).getD { d with answer := .ignored }

/-- The instruction a WAITING thread waits in. -/
def Dev.thrHere (d : Dev) (n : Nat) : TInstr :=
  let (w, _, _) := d.thrFetch n
  tDecode w

/-- An instruction that waits: it completes by `f` where it can, and otherwise the thread is WAITING with a reason. -/
def Dev.thrTry (d : Dev) (n reason : Nat) (r : Option Dev) : Dev :=
  match r with
  | some d' => d'
  | none => d.setThrState n 2 reason

/-- The end of a wait: `f` completes the instruction the thread waits in, where it now can. [Log 96 DEDUCED] -/
def Dev.thrWake (d : Dev) (n reason : Nat) (f : Dev → TInstr → Option Dev) : Dev :=
  if d.thrState n ≠ 2 ∨ d.thrWait n ≠ reason then { d with answer := .ignored }
  else
    let d' := d.flushClosing (n / 32)
    (f d' (d'.thrHere n)).getD d

/-! ### Shared registers (R326, R327) -/

/-- The key of shared register `k` of a thread's ring. -/
def sReg (n k : Nat) : Nat := ROUND.S (32 * (n / 32) + k)

/-- SRD (R326). -/
def execThrSrd (n : Fin 64) (s : State) : Host.Outcome State Fault Refusal :=
  s.onDev fun d => d.thrIssue n fun d i _ =>
    match i with
    | .srd td k => some ((d.setT n td (d.reg (sReg n k))).thrRetire n)
    | _ => none

/-- SWR (R326). -/
def execThrSwr (n : Fin 64) (s : State) : Host.Outcome State Fault Refusal :=
  s.onDev fun d => d.thrIssue n fun d i _ =>
    match i with
    | .swr k ta => some ((d.setReg (sReg n k) (d.t n ta)).thrRetire n)
    | _ => none

/-- SADD (R326). -/
def execThrSadd (n : Fin 64) (s : State) : Host.Outcome State Fault Refusal :=
  s.onDev fun d => d.thrIssue n fun d i _ =>
    match i with
    | .sadd td k ta =>
      let old := d.reg (sReg n k)
      some (((d.setReg (sReg n k) (old + d.t n ta)).setT n td old).thrRetire n)
    | _ => none

/-- SCAS (R326). -/
def execThrScas (n : Fin 64) (s : State) : Host.Outcome State Fault Refusal :=
  s.onDev fun d => d.thrIssue n fun d i _ =>
    match i with
    | .scas td k ta =>
      let old := d.reg (sReg n k)
      let d := if old = d.t n td then d.setReg (sReg n k) (d.t n ta) else d
      some ((d.setT n td old).thrRetire n)
    | _ => none

/-- The condition of SWAIT; the instruction retires where it holds. -/
def Dev.swaitDone (d : Dev) (n k ta : Nat) : Option Dev := if d.reg (sReg n k) &&& d.t n ta = 0 then none else some (d.thrRetire n)

/-- SWAIT (R326). -/
def execThrSwait (n : Fin 64) (s : State) : Host.Outcome State Fault Refusal :=
  s.onDev fun d => d.thrIssue n fun d i _ =>
    match i with
    | .swait k ta => some (d.thrTry n 3 (d.swaitDone n k ta))
    | _ => none

/-- SWAIT_RELEASE (R326): a write of the shared register satisfies the SWAIT. -/
def execSwaitRelease (n : Fin 64) (s : State) : Host.Outcome State Fault Refusal :=
  s.onDev fun d => d.thrWake n 3 fun d i =>
    match i with
    | .swait k ta => d.swaitDone n k ta
    | _ => none

/-! ### Time (R326, R330, R331) -/

/-- tt set and the instruction retired. -/
def Dev.setTt (d : Dev) (n : Nat) (t : Time) : Dev := (d.setReg64 (ROUND.THR_TT n) t).thrRetire n

/-- TNOW (R326). -/
def execThrTnow (n : Fin 64) (s : State) : Host.Outcome State Fault Refusal :=
  s.onDev fun d => d.thrIssue n fun d i _ =>
    match i with
    | .tnow => some (d.setTt n (floorNs d.now))
    | _ => none

/-- TSET (R326). -/
def execThrTset (n : Fin 64) (s : State) : Host.Outcome State Fault Refusal :=
  s.onDev fun d => d.thrIssue n fun d i _ =>
    match i with
    | .tset ta tb => some (d.setTt n (d.t n tb ++ d.t n ta))
    | _ => none

/-- TGET (R326). -/
def execThrTget (n : Fin 64) (s : State) : Host.Outcome State Fault Refusal :=
  s.onDev fun d => d.thrIssue n fun d i _ =>
    match i with
    | .tget td sel => some ((d.setT n td (d.reg (ROUND.THR_TT n + 4 * sel))).thrRetire n)
    | _ => none

/-- TADD (R326). -/
def execThrTadd (n : Fin 64) (s : State) : Host.Outcome State Fault Refusal :=
  s.onDev fun d => d.thrIssue n fun d i _ =>
    match i with
    | .tadd ta => some (d.setTt n (d.tt n + ((d.t n ta).signExtend 64 <<< 6)))
    | _ => none

/-- TADDF (R326). -/
def execThrTaddf (n : Fin 64) (s : State) : Host.Outcome State Fault Refusal :=
  s.onDev fun d => d.thrIssue n fun d i _ =>
    match i with
    | .taddf ta => some (d.setTt n (d.tt n + (d.t n ta).signExtend 64))
    | _ => none

/-- TLEFT (R326). -/
def execThrTleft (n : Fin 64) (s : State) : Host.Outcome State Fault Refusal :=
  s.onDev fun d => d.thrIssue n fun d i _ =>
    match i with
    | .tleft td => some ((d.setT n td (satS32 (shrFloor (d.tt n - d.now).toInt 6)).val).thrRetire n)
    | _ => none

/-- tt has been reached; WAITT retires (R330). -/
def Dev.waittDone (d : Dev) (n : Nat) : Option Dev := if d.due (floorNs (d.tt n)) then some (d.thrRetire n) else none

/-- WAITT (R330). -/
def execThrWaitt (n : Fin 64) (s : State) : Host.Outcome State Fault Refusal :=
  s.onDev fun d => d.thrIssue n fun d i _ =>
    match i with
    | .waitt => some (d.thrTry n 4 (d.waittDone n))
    | _ => none

/-- WAITT_EXPIRY (R330). -/
def execWaittExpiry (n : Fin 64) (s : State) : Host.Outcome State Fault Refusal :=
  s.onDev fun d => d.thrWake n 4 fun d i =>
    match i with
    | .waitt => d.waittDone n
    | _ => none

/-- PERIOD (R331): the schedule starts with P of at least 32 ns from tt. -/
def execThrPeriod (n : Fin 64) (s : State) : Host.Outcome State Fault Refusal :=
  s.onDev fun d => d.thrIssue n fun d i _ =>
    match i with
    | .period ta =>
      let t0 := floorNs (d.tt n)
      let sc : Sched := { t0 := t0, p := 64 * max 32 (d.t n ta).toNat, k := 0, target := t0 }
      some ((d.putThr n { d.thr n with sched := some sc }).thrRetire n)
    | _ => none

/-- The occurrence of a thread's schedule applied at A(k): tt, THR_PLATE and the next target (R28, R331). [Log 99 DEDUCED] -/
def Dev.waitpApply (d : Dev) (n : Nat) (sc : Sched) (a : Time) : Dev :=
  let g := sc.t0 + BitVec.ofNat 64 (sc.k * sc.p)
  let (sc', fire) := sc.advance (d.fld (ROUND.THR_SCHED_CATCHUP n)) (d.fld (ROUND.THR_SCHED_BEHIND n)) a
  let d := d.putThr n { d.thr n with sched := some sc' }
  let d := d.setNum (ROUND.THR_PLATE n) (min 0xFFFFFFFF (lateness g a / 64))
  let d := d.when fire fun d => (d.setFld (ROUND.THR_STATUS_BEHIND n) 1).raise 15
  d.setTt n g

/-- WAITP (R331): without a schedule it retires at once; a target already past is applied at the issue. [Log 99 DEDUCED] -/
def execThrWaitp (n : Fin 64) (s : State) : Host.Outcome State Fault Refusal :=
  s.onDev fun d => d.thrIssue n fun d i _ =>
    match i, (d.thr n).sched with
    | .waitp, none => some (d.thrRetire n)
    | .waitp, some sc => some (d.thrTry n 5 (if d.due (floorNs sc.target) then some (d.waitpApply n sc (floorNs d.now)) else none))
    | _, _ => none

/-- WAITP_TARGET (R331): the target arrives for a thread waiting in WAITP. [Log 99 DEDUCED] -/
def execWaitpTarget (n : Fin 64) (s : State) : Host.Outcome State Fault Refusal :=
  s.onDev fun d => d.thrWake n 5 fun d i =>
    match i, (d.thr n).sched with
    | .waitp, some sc => if d.due (floorNs sc.target) then some (d.waitpApply n sc (floorNs sc.target)) else none
    | _, _ => none

/-- PSTOP (R326). -/
def execThrPstop (n : Fin 64) (s : State) : Host.Outcome State Fault Refusal :=
  s.onDev fun d => d.thrIssue n fun d i _ =>
    match i with
    | .pstop => some ((d.putThr n { d.thr n with sched := none }).thrRetire n)
    | _ => none

/-! ### Events (R332) -/

/-- A Junction delivery to event input `j` of a thread. -/
def Dev.deliverThread (d : Dev) (n j : Nat) : Dev :=
  d.setFld (ROUND.THR_EVPEND_PEND n) (putBits (d.fld (ROUND.THR_EVPEND_PEND n)) j j 1)

/-- WAITE takes the masked bits that are pending. -/
def Dev.waiteDone (d : Dev) (n td ta : Nat) : Option Dev :=
  let p := d.fld (ROUND.THR_EVPEND_PEND n)
  let m := p &&& (d.t n ta).toNat % 256
  if m = 0 then none
  else some (((d.setFld (ROUND.THR_EVPEND_PEND n) (p - m)).setT n td (BitVec.ofNat 32 m)).thrRetire n)

/-- WAITE (R332). -/
def execThrWaite (n : Fin 64) (s : State) : Host.Outcome State Fault Refusal :=
  s.onDev fun d => d.thrIssue n fun d i _ =>
    match i with
    | .waite td ta => some (d.thrTry n 8 (d.waiteDone n td ta))
    | _ => none

/-- WAITE_WAKE (R332). -/
def execWaiteWake (n : Fin 64) (s : State) : Host.Outcome State Fault Refusal :=
  s.onDev fun d => d.thrWake n 8 fun d i =>
    match i with
    | .waite td ta => d.waiteDone n td ta
    | _ => none

/-- SIGNAL (R326): the thread's SIGNAL event, unlogged. -/
def execThrSignal (n : Fin 64) (s : State) : Host.Outcome State Fault Refusal :=
  s.onDev fun d => d.thrIssue n fun d i _ =>
    match i with
    | .signal => some ((d.raise (800 + 2 * n)).thrRetire n)
    | _ => none

/-- BKPT (R326): the thread becomes HALTED after this instruction. -/
def execThrBkpt (n : Fin 64) (s : State) : Host.Outcome State Fault Refusal :=
  s.onDev fun d => d.thrIssue n fun d i _ =>
    match i with
    | .bkpt => some ((d.putThr n { d.thr n with haltReq := true }).thrRetire n)
    | _ => none

/-- THREAD_ILLEGAL (R325). -/
def execThreadIllegal (n : Fin 64) (s : State) : Host.Outcome State Fault Refusal :=
  s.onDev fun d => d.thrIssue n fun d i w =>
    match i with
    | .illegal => some (d.thrStop n 1 w)
    | _ => none

/-! ### Time-stamped actions (R328, R329) -/

/-- The instant at which an action can first take effect: 8 ns after its issue slot began (R329). -/
def Act.ready (a : Act) : Time := a.issued + nsT 8

/-- The instant at which an action takes effect (R25, R329). -/
def Act.applyAt (a : Act) : Time := maxT (floorNs a.target) a.ready

/-- The pin an action acts on. -/
def ActKind.pin? : ActKind → Option Nat
  | .drv p _ => some p
  | .smp p => some p
  | .estart _ => none

/-- A thread owns a pin (R355). -/
def Dev.thrOwnsPin (d : Dev) (n p : Nat) : Bool := decide (p < 160) && decide (d.pinFunc p = 2) && decide (d.pinAgent p = thrAgent n)

/-- A thread may use an engine (R329, R355). -/
def Dev.thrOwnsEng (d : Dev) (n e : Nat) : Bool :=
  decide (e < 40) && d.flag (PENG.ENG_OWNER_VALID e) && decide (BitVec.ofNat 16 (d.fld (PENG.ENG_OWNER_AGENT e)) = thrAgent n)

/-- An action is refused at its target (R329, R351). -/
def Dev.actRefused (d : Dev) (n : Nat) (k : ActKind) : Bool :=
  match k with
  | .drv p l => !d.thrOwnsPin n p || (decide (p ≥ 96) && decide (l = 2))
  | .smp p => !d.thrOwnsPin n p
  | .estart e => !d.thrOwnsEng n e || decide (d.engState e ≠ 0)

/-- A thread's actions are held (R337). -/
def Dev.actsHeld (d : Dev) (n : Nat) : Bool :=
  d.flag (ROUND.THR_CFG_HALT_ACTIONS n) && (decide (d.thrState n = 4) || decide (d.thrState n = 5))

/-- An action can take effect now: its instant has come and no crossing holds its pin (R356). [Log 98 DEDUCED] -/
def Dev.actDue (d : Dev) (a : Act) : Bool :=
  d.due a.applyAt && match a.kind.pin? with
    | some p => (Tab.find p d.xings).isNone
    | none => true

/-- The first of a thread's actions that can take effect, in the order of their instants and then of their issue. -/
def Dev.firstAct (d : Dev) (acts : List Act) : Option Act :=
  (acts.filter d.actDue).foldl (fun best a =>
    match best with
    | none => some a
    | some b => if before a.applyAt b.applyAt then some a else some b) none

/-- A refused action: ACT_REFUSED and the FAULT event; the thread runs on (R329). -/
def Dev.actRefuse (d : Dev) (n : Nat) : Dev := (d.setFld (ROUND.THR_STATUS_ACT_REFUSED n) 1).raise (801 + 2 * n)

/-- The effect of an action. -/
def Dev.actEffect (d : Dev) (n : Nat) (a : Act) : Dev :=
  match a.kind with
  | .drv p l => d.setPin p { d.pin p with thr := level4 l }
  | .smp p => d.setThr n { d.thr n with sample := some (some (d.pinIn p)) }
  | .estart e => d.engStart e (floorNs a.target) a.applyAt true

/-- A queued action taken: refused, or performed, late where it was made too late (R25, R329). A late action held by HALT_ACTIONS
counts from the resume. [Log 98 DEDUCED] -/
def Dev.actTake (d : Dev) (n : Nat) (a : Act) : Dev :=
  let d := d.putThr n { d.thr n with acts := (d.thr n).acts.erase a }
  if d.actRefused n a.kind then
    let d := match a.kind with
      | .smp _ => d.setThr n { d.thr n with sample := some none }
      | _ => d
    d.actRefuse n
  else
    let d := d.actEffect n a
    if lateness (floorNs a.target) a.applyAt = 0 then d
    else (d.lateAct (0x28 + n / 32) a.target a.applyAt).setFld (ROUND.THR_STATUS_LATE n) 1

/-- THREAD_ACTION_APPLY (R329): a queued DRV, SMP or ESTART of thread `n` reaches its target. [Log 98 DEDUCED] -/
def execThreadActionApply (n : Fin 64) (s : State) : Host.Outcome State Fault Refusal :=
  s.onDev fun d =>
    if d.actsHeld n then d
    else match d.firstAct (d.thr n).acts with
      | none => d
      | some a => d.actTake n a

/-- An action queued (R329). -/
def Dev.actQueue (d : Dev) (n : Nat) (k : ActKind) : Dev :=
  let x := d.thr n
  d.putThr n { x with acts := x.acts ++ [{ kind := k, target := d.tt n, issued := d.now }] }

/-- The action an action instruction makes. -/
def Dev.actOf (d : Dev) (n : Nat) : TInstr → Option ActKind
  | .drv ta tb => some (.drv ((d.t n ta).toNat % 256) ((d.t n tb).toNat % 4))
  | .smp _ ta => some (.smp ((d.t n ta).toNat % 256))
  | .estart ta => some (.estart ((d.t n ta).toNat % 64))
  | _ => none

/-- An action instruction: it queues its action, or waits while 8 are queued; an SMP then waits for its sample (R328, R329). -/
def Dev.actIssue (d : Dev) (n : Nat) (i : TInstr) : Dev :=
  match d.actOf n i with
  | none => d
  | some k =>
    if (d.thr n).acts.length ≥ 8 then d.setThrState n 2 7
    else
      let d := d.actQueue n k
      match k with
      | .smp _ => d.setThrState n 2 6
      | _ => d.thrRetire n

/-- DRV (R328). -/
def execThrDrv (n : Fin 64) (s : State) : Host.Outcome State Fault Refusal :=
  s.onDev fun d => d.thrIssue n fun d i _ =>
    match i with
    | .drv _ _ => some (d.actIssue n i)
    | _ => none

/-- SMP (R328): the thread waits for the level of the pin at tt. -/
def execThrSmp (n : Fin 64) (s : State) : Host.Outcome State Fault Refusal :=
  s.onDev fun d => d.thrIssue n fun d i _ =>
    match i with
    | .smp _ _ => some (d.actIssue n i)
    | _ => none

/-- ESTART (R328, R351). -/
def execThrEstart (n : Fin 64) (s : State) : Host.Outcome State Fault Refusal :=
  s.onDev fun d => d.thrIssue n fun d i _ =>
    match i with
    | .estart _ => some (d.actIssue n i)
    | _ => none

/-- The sample of a waiting SMP taken, where it is due and not yet taken. [Log 98 DEDUCED] -/
def Dev.takeSample (d : Dev) (n : Nat) : Dev :=
  let smps := (d.thr n).acts.filter fun a => match a.kind with
    | .smp _ => true
    | _ => false
  match d.firstAct smps with
  | some a => d.actTake n a
  | none => d

/-- SMP_SAMPLE (R328): the pin is sampled at tt and the SMP retires with the level; a refused SMP retires and leaves td. -/
def execSmpSample (n : Fin 64) (s : State) : Host.Outcome State Fault Refusal :=
  s.onDev fun d => d.thrWake n 6 fun d i =>
    match i with
    | .smp td _ =>
      let d := if (d.thr n).sample.isNone && !d.actsHeld n then d.takeSample n else d
      match (d.thr n).sample with
      | none => none
      | some none => some (d.thrRetire n)
      | some (some l) => some ((d.setT n td (BitVec.ofNat 32 (b2n l))).thrRetire n)
    | _ => none

/-- ACTQ_ROOM (R329): an action instruction that waited on a full queue goes on. -/
def execActqRoom (n : Fin 64) (s : State) : Host.Outcome State Fault Refusal :=
  s.onDev fun d => d.thrWake n 7 fun d i =>
    if (d.thr n).acts.length < 8 then some (d.actIssue n i) else none

/-! ### Engine FIFOs (R328, R329) -/

/-- The engine a FIFO instruction names, which the thread must own; otherwise it stops with cause RESOURCE (R329). -/
def Dev.fifoOf (d : Dev) (n ta : Nat) (f : Nat → Dev) : Dev :=
  let e := (d.t n ta).toNat % 64
  if d.thrOwnsEng n e then f e else d.thrStop n 6 (BitVec.ofNat 32 e)

/-- C of a thread. -/
def Dev.setThrC (d : Dev) (n : Nat) (b : Bool) : Dev := d.setThr n { d.thr n with flags := putFlag (d.thr n).flags STATUS.C b }

/-- EPUSH (R328). -/
def execThrEpush (n : Fin 64) (s : State) : Host.Outcome State Fault Refusal :=
  s.onDev fun d => d.thrIssue n fun d i _ =>
    match i with
    | .epush ta tb => some (d.fifoOf n ta fun e => d.thrTry n 9 ((d.txPush e (d.t n tb)).map fun d => d.thrRetire n))
    | _ => none

/-- EPUSH_ROOM (R328). -/
def execEpushRoom (n : Fin 64) (s : State) : Host.Outcome State Fault Refusal :=
  s.onDev fun d => d.thrWake n 9 fun d i =>
    match i with
    | .epush ta tb => (d.txPush ((d.t n ta).toNat % 64) (d.t n tb)).map fun d => d.thrRetire n
    | _ => none

/-- A word of RX moved to td; none where RX is empty. -/
def Dev.pullTo (d : Dev) (n e td : Nat) : Option Dev := (d.rxPull e).map fun (w, d) => (d.setT n td w).thrRetire n

/-- EPULL (R328). -/
def execThrEpull (n : Fin 64) (s : State) : Host.Outcome State Fault Refusal :=
  s.onDev fun d => d.thrIssue n fun d i _ =>
    match i with
    | .epull td ta => some (d.fifoOf n ta fun e => d.thrTry n 9 (d.pullTo n e td))
    | _ => none

/-- EPULL_DATA (R328). -/
def execEpullData (n : Fin 64) (s : State) : Host.Outcome State Fault Refusal :=
  s.onDev fun d => d.thrWake n 9 fun d i =>
    match i with
    | .epull td ta => d.pullTo n ((d.t n ta).toNat % 64) td
    | _ => none

/-- EPUSHN (R328). -/
def execThrEpushn (n : Fin 64) (s : State) : Host.Outcome State Fault Refusal :=
  s.onDev fun d => d.thrIssue n fun d i _ =>
    match i with
    | .epushn ta tb => some (d.fifoOf n ta fun e =>
        match d.txPush e (d.t n tb) with
        | some d' => (d'.setThrC n true).thrRetire n
        | none => (d.setThrC n false).thrRetire n)
    | _ => none

/-- EPULLN (R328). -/
def execThrEpulln (n : Fin 64) (s : State) : Host.Outcome State Fault Refusal :=
  s.onDev fun d => d.thrIssue n fun d i _ =>
    match i with
    | .epulln td ta => some (d.fifoOf n ta fun e =>
        match d.rxPull e with
        | some (w, d') => ((d'.setT n td w).setThrC n true).thrRetire n
        | none => (d.setThrC n false).thrRetire n)
    | _ => none

/-! ### Channels (R333 to R335) -/

/-- The channel a register of a thread names. -/
def Dev.chanOf (d : Dev) (n ta : Nat) : Nat := 64 * (n / 32) + (d.t n ta).toNat % 64

/-- A stop for a misuse of a channel (R335). [Log 97 DEDUCED] -/
def Dev.chanStop (d : Dev) (n c : Nat) : Dev := d.thrStop n 5 (BitVec.ofNat 32 (c % 64))

/-- Places the enabled static quotas of a ring reserve (R333). -/
def Dev.staticPlaces (d : Dev) (r : Nat) : Nat :=
  (List.range 64).foldl (fun m c =>
    if d.flag (ROUND.CH_CFG_ENABLE (64 * r + c)) && !d.flag (ROUND.CH_CFG_QMODE (64 * r + c)) then m + d.fld (ROUND.CH_CFG_QUOTA (64 * r + c))
    else m) 0

/-- Places the dynamic channels of a ring hold. -/
def Dev.dynamicHeld (d : Dev) (r : Nat) : Nat :=
  (List.range 64).foldl (fun m c =>
    if d.flag (ROUND.CH_CFG_QMODE (64 * r + c)) then m + d.fld (ROUND.CH_STATUS_HELD (64 * r + c)) else m) 0

/-- A place is free for a channel (R333). [Log 97 DEDUCED] -/
def Dev.placeFree (d : Dev) (c : Nat) : Bool :=
  decide (0 < d.fld (ROUND.POOL_STATUS_FREE (c / 64))) && decide (d.fld (ROUND.CH_STATUS_HELD c) < d.fld (ROUND.CH_CFG_QUOTA c)) &&
    (!d.flag (ROUND.CH_CFG_QMODE c) || decide (d.dynamicHeld (c / 64) + d.staticPlaces (c / 64) < 1024))

/-- The channel that the CH.OPEN a thread waits in names. -/
def Dev.openChan (d : Dev) (n : Nat) : Option Nat :=
  match d.thrHere n with
  | .chOpen ta => some (d.chanOf n ta)
  | _ => none

/-- A waiter that issued its CH.OPEN earlier could take a dynamic place now (R333). [Log 97 DEDUCED] -/
def Dev.earlierOpen (d : Dev) (n : Nat) : Bool :=
  ((d.ring (n / 32)).openQ.takeWhile (· ≠ n)).any fun m =>
    match d.openChan m with
    | some c => d.flag (ROUND.CH_CFG_QMODE c) && d.placeFree c
    | none => false

/-- A CH.OPEN is a misuse (R335). -/
def Dev.openBad (d : Dev) (n c : Nat) : Bool :=
  (d.thr n).staging.isSome || !d.flag (ROUND.CH_CFG_ENABLE c) || decide (d.fld (ROUND.CH_CFG_WRITER c) ≠ n % 32)

/-- CH.OPEN takes a place where one is free. [Log 97 DEDUCED] -/
def Dev.openDone (d : Dev) (n c : Nat) : Option Dev :=
  if !d.placeFree c || (d.flag (ROUND.CH_CFG_QMODE c) && d.earlierOpen n) then none
  else some (((d.putThr n { d.thr n with staging := some (c, []) }).holdPlaces c 1).thrRetire n)

/-- CH.OPEN (R334, R335). -/
def execThrChOpen (n : Fin 64) (s : State) : Host.Outcome State Fault Refusal :=
  s.onDev fun d => d.thrIssue n fun d i _ =>
    match i with
    | .chOpen ta =>
      let c := d.chanOf n ta
      if d.openBad n c then some (d.chanStop n c)
      else match d.openDone n c with
        | some d' => some d'
        | none =>
          let x := d.ring (n.val / 32)
          some ((d.setRing (n.val / 32) { x with openQ := x.openQ ++ [n.val] }).setThrState n 2 2)
    | _ => none

/-- CH_OPEN_WAKE (R334): a place becomes free. -/
def execChOpenWake (n : Fin 64) (s : State) : Host.Outcome State Fault Refusal :=
  s.onDev fun d => d.thrWake n 2 fun d i =>
    match i with
    | .chOpen ta => d.openDone n (d.chanOf n ta)
    | _ => none

/-- CH.PUT (R334, R335). -/
def execThrChPut (n : Fin 64) (s : State) : Host.Outcome State Fault Refusal :=
  s.onDev fun d => d.thrIssue n fun d i _ =>
    match i, (d.thr n).staging with
    | .chPut ta, none => some (d.chanStop n (d.chanOf n ta))
    | .chPut ta, some (c, ws) =>
      if ws.length ≥ 8 then some (d.chanStop n c)
      else some ((d.putThr n { d.thr n with staging := some (c, ws ++ [d.t n ta]) }).thrRetire n)
    | _, _ => none

/-- CH.CLOSE (R334): the record becomes visible at the end of the step. -/
def execThrChClose (n : Fin 64) (s : State) : Host.Outcome State Fault Refusal :=
  s.onDev fun d => d.thrIssue n fun d i _ =>
    match i, (d.thr n).staging with
    | .chClose, none => some (d.chanStop n 0)
    | .chClose, some (c, ws) =>
      let d := (d.putThr n { d.thr n with staging := none }).flushClosing (n.val / 32)
      let d := d.setRing (n.val / 32) { d.ring (n.val / 32) with closing := some (c, ws, n.val) }
      some (d.thrRetire n)
    | _, _ => none

/-- A CH.RECV is a misuse (R335). -/
def Dev.recvBad (d : Dev) (n c : Nat) : Bool :=
  (d.thr n).reading.isSome || !d.flag (ROUND.CH_CFG_ENABLE c) || decide (d.fld (ROUND.CH_CFG_READER c) ≠ n % 32)

/-- CH.RECV opens the oldest visible record, if there is one. [Log 97 DEDUCED] -/
def Dev.recvDone (d : Dev) (n td c : Nat) : Option Dev :=
  match (d.chan c).visible with
  | [] => none
  | ws :: t =>
    let d := (d.setChan c { d.chan c with visible := t }).setFld (ROUND.CH_STATUS_VISIBLE c) t.length
    let d := d.putThr n { d.thr n with reading := some (c, ws, 0) }
    some ((d.setT n td (BitVec.ofNat 32 ws.length)).thrRetire n)

/-- CH.RECV (R334, R335). -/
def execThrChRecv (n : Fin 64) (s : State) : Host.Outcome State Fault Refusal :=
  s.onDev fun d => d.thrIssue n fun d i _ =>
    match i with
    | .chRecv td ta =>
      let c := d.chanOf n ta
      if d.recvBad n c then some (d.chanStop n c) else some (d.thrTry n 1 (d.recvDone n td c))
    | _ => none

/-- CH_RECV_WAKE (R334): a record becomes visible. -/
def execChRecvWake (n : Fin 64) (s : State) : Host.Outcome State Fault Refusal :=
  s.onDev fun d => d.thrWake n 1 fun d i =>
    match i with
    | .chRecv td ta => d.recvDone n td (d.chanOf n ta)
    | _ => none

/-- CH.GET (R334, R335): 0 beyond the record's count. -/
def execThrChGet (n : Fin 64) (s : State) : Host.Outcome State Fault Refusal :=
  s.onDev fun d => d.thrIssue n fun d i _ =>
    match i, (d.thr n).reading with
    | .chGet _, none => some (d.chanStop n 0)
    | .chGet td, some (c, ws, k) =>
      let d := d.putThr n { d.thr n with reading := some (c, ws, k + 1) }
      some ((d.setT n td (ws.getD k 0)).thrRetire n)
    | _, _ => none

/-- CH.DONE (R334, R335). -/
def execThrChDone (n : Fin 64) (s : State) : Host.Outcome State Fault Refusal :=
  s.onDev fun d => d.thrIssue n fun d i _ =>
    match i, (d.thr n).reading with
    | .chDone, none => some (d.chanStop n 0)
    | .chDone, some (c, _) => some (((d.dropReading n).wrapNum (ROUND.CH_COUNT c)).thrRetire n)
    | _, _ => none

/-- CH.POLL (R334). -/
def execThrChPoll (n : Fin 64) (s : State) : Host.Outcome State Fault Refusal :=
  s.onDev fun d => d.thrIssue n fun d i _ =>
    match i with
    | .chPoll td ta => some ((d.setT n td (BitVec.ofNat 32 (d.chan (d.chanOf n ta)).visible.length)).thrRetire n)
    | _ => none

/-! ### Gridlock and power (R339, R340) -/

/-- The gridlock condition of a ring (R339). -/
def Dev.gridlocked (d : Dev) (r : Nat) : Bool :=
  let ts := ringThreads r
  (ts.any fun n => decide (d.thrState n = 2)) && (ts.all fun n => decide (d.thrState n = 0) || decide (d.thrState n = 5) || d.thrInternal n)
    && (ts.all fun n => (d.thr n).acts.isEmpty)

/-- GRIDLOCK_EVALUATION (R339): at the end of a rotation of ring `r`. [Log 96 DEDUCED] -/
def execGridlockEvaluation (r : Fin 2) (s : State) : Host.Outcome State Fault Refusal :=
  s.onDev fun d => d.when (d.domReady (16 + r)) fun d =>
    let d := d.flushClosing r
    let g := d.gridlocked r
    let x := d.ring r
    let old := d.reg (ROUND.RING_STATUS r)
    let d := d.setFld (ROUND.RING_STATUS_GRIDLOCKED r) (b2n g)
    let fire := g && x.gridPrev && x.gridArmed && d.flag (ROUND.RING_CTRL_GRIDLOCK_EN r)
    let d := d.setRing r { x with gridPrev := g, gridArmed := x.gridArmed && !fire }
    d.when fire fun d => ((d.setFld (ROUND.RING_STATUS_GRIDLOCK r) 1).raise 16).sysRec (ROUND.RING_STATUS r) old

/-- RING_READY (R340): a ring powered for 5 us is ready. -/
def execRingReady (r : Fin 2) (s : State) : Host.Outcome State Fault Refusal :=
  s.onDev fun d => d.when (d.powered (16 + r) 5000 && !d.domReady (16 + r)) fun d =>
    (d.setMapBit SUPPLY.DOM_STATUS_0 (16 + r) true).setFld (ROUND.RING_STATUS_READY r) 1

/-! ### Writes and commits of the ROUND registers (R333, R336, R337, R341) -/

/-- The thread whose registers hold a key, with the register's offset. -/
def thrAt (a : Nat) : Option (Nat × Nat) :=
  let b := a / 0x10000
  let o := a % 0x10000
  if (b = 0x28 ∨ b = 0x29) ∧ 0x1000 ≤ o ∧ o < 0x2000 then some (32 * (b - 0x28) + (o - 0x1000) / 0x80, (o - 0x1000) % 0x80) else none

/-- THR_CMD: more than one bit, or a command not valid in the thread's state (R337). -/
def Dev.thrCmdBad (d : Dev) (n v : Nat) : Bool :=
  let st := d.thrState n
  decide (popCount 5 v > 1) || (bitOf v 0 && !(decide (1 ≤ st) && decide (st ≤ 3)))
    || ((bitOf v 1 || bitOf v 2) && !(decide (st = 4) || decide (st = 5)))

/-- The rules of the ROUND words that the register table does not state. -/
def Dev.roundRefusals (d : Dev) (a : Nat) (v : Word) : List (Nat × Nat × Cause) :=
  match thrAt a with
  | some (n, 0x04) => if d.inCode (n / 32) v.toNat then [] else [(3, 31, .range)]
  | some (n, 0x0C) => if d.thrCmdBad n v.toNat then [(3, 4, .state)] else []
  | some (n, 0x14) => if d.inCode (n / 32) v.toNat then [] else [(3, 31, .range)]
  | _ =>
    let o := a % 0x10000
    if (a / 0x10000 = 0x28 ∨ a / 0x10000 = 0x29) ∧ 0x400 ≤ o ∧ o < 0x800 ∧ o % 0x10 = 0 then
      (if bitOf v.toNat 31 ∧ (bitsOf v.toNat 10 0 = 0 ∨ bitsOf v.toNat 10 0 > 1024) then [(3, 31, .range)] else [])
    else []

/-- The STOP fields of a ROUND word may be written: the thread is OFF, HALTED or STOPPED; for CODE_LIMIT every thread is OFF
(R320, R341). -/
def Dev.roundWritable (d : Dev) (a : Nat) : Bool :=
  match thrAt a with
  | some (n, _) => decide (d.thrState n = 0) || decide (d.thrState n = 4) || decide (d.thrState n = 5)
  | none =>
    if a % 0x10000 = 0 then (ringThreads (a / 0x10000 - 0x28)).all fun n => decide (d.thrState n = 0) else true

/-- HALT (R337). [Log 100 DEDUCED] -/
def Dev.thrHalt (d : Dev) (n : Nat) : Dev :=
  if d.thrState n = 3 then d.setThr n { d.thr n with haltReq := true }
  else (d.endWait n).setThrState n 4 0

/-- RESUME or STEP (R337): actions held until now whose targets have passed are late from now. [Log 98 DEDUCED, 100 DEDUCED] -/
def Dev.thrGo (d : Dev) (n : Nat) (step : Bool) : Dev :=
  let x := d.thr n
  let held := d.actsHeld n
  let acts := if held then x.acts.map fun a => if before a.applyAt d.now then { a with issued := d.now - nsT 8 } else a else x.acts
  let d := d.putThr n { x with acts := acts, stepping := step, haltReq := false }
  (d.setFld (ROUND.THR_STATUS_CAUSE n) 0).setThrState n 1 0

/-- RESET (R336): between two instructions. -/
def Dev.thrResetNow (d : Dev) (n : Nat) : Dev :=
  if d.thrState n = 3 then d.setThr n { d.thr n with resetReq := true } else d.thrResetCmd n

/-- CLEAR (R341). -/
def Dev.thrClear (d : Dev) (n : Nat) : Dev :=
  (d.setNum (ROUND.THR_RETIRED n) 0).clrReg (ROUND.THR_STATUS n) 0x700

/-- The action of an accepted write of a ROUND register. -/
def Dev.roundEffect (d : Dev) (a : Nat) (v : Word) : Dev :=
  match thrAt a with
  | some (n, 0x0C) =>
    if bitOf v.toNat 0 then d.thrHalt n
    else if bitOf v.toNat 1 then d.thrGo n false
    else if bitOf v.toNat 2 then d.thrGo n true
    else if bitOf v.toNat 3 then d.thrResetNow n
    else if bitOf v.toNat 4 then d.thrClear n
    else d
  | some (n, 0x40) => d.setNum (ROUND.THR_T n 0) 0
  | _ => d

/-- A commit of a thread's group is refused (R336, R340). -/
def Dev.thrCommit (d e : Dev) (n : Nat) : Option Cause :=
  let starts := decide (d.fld (ROUND.THR_CFG_MODE n) = 0) && decide (e.fld (ROUND.THR_CFG_MODE n) = 1)
  if starts && !e.inCode (n / 32) (e.num (ROUND.THR_START n)) then some .range
  else if starts && !d.flag (ROUND.RING_STATUS_READY (n / 32)) then some .state
  else none

/-- A thread's group can apply now: between two of its instructions (R336). -/
def Dev.thrBoundary (d : Dev) (n : Nat) : Bool := decide (d.thrState n ≠ 3)

/-- A commit of a thread's group applied (R336). -/
def Dev.thrApplied (old d : Dev) (n : Nat) : Dev :=
  let a := old.fld (ROUND.THR_CFG_MODE n)
  let b := d.fld (ROUND.THR_CFG_MODE n)
  if a = 0 ∧ b = 1 then (d.setReg (ROUND.THR_PC n) (d.reg (ROUND.THR_START n))).setThrState n 1 0
  else if a = 1 ∧ b = 0 then d.thrReset n
  else d

/-- A commit of group 32 changes a channel in a way that needs it idle: disabling it, or another WRITER, READER or QMODE (R333). -/
def chanChanges (d e : Dev) (c : Nat) : Bool :=
  (d.flag (ROUND.CH_CFG_ENABLE c) && !e.flag (ROUND.CH_CFG_ENABLE c))
    || decide (d.fld (ROUND.CH_CFG_WRITER c) ≠ e.fld (ROUND.CH_CFG_WRITER c))
    || decide (d.fld (ROUND.CH_CFG_READER c) ≠ e.fld (ROUND.CH_CFG_READER c))
    || decide (d.fld (ROUND.CH_CFG_QMODE c) ≠ e.fld (ROUND.CH_CFG_QMODE c))

/-- A commit of the channel group of a ring is refused (R333). -/
def Dev.chanCommit (d e : Dev) (r : Nat) : Option Cause :=
  let cs := (List.range 64).map (64 * r + ·)
  if e.staticPlaces r > 1024 then some .range
  else if cs.any fun c => decide (d.fld (ROUND.CH_STATUS_HELD c) ≠ 0) && chanChanges d e c then some .state
  else if cs.any fun c => e.flag (ROUND.CH_CFG_ENABLE c) && decide (e.fld (ROUND.CH_CFG_QUOTA c) < d.fld (ROUND.CH_STATUS_HELD c)) then
    some .state
  else none

/-- A commit of the channel group applied: the reserved places, and the stop of threads whose wait has become a misuse (R333). -/
def Dev.chanApplied (old d : Dev) (r : Nat) : Dev :=
  let d := d.setFld (ROUND.POOL_STATUS_RESERVED r) (d.staticPlaces r)
  d.each (ringThreads r) fun d n =>
    if d.thrState n ≠ 2 then d
    else match d.thrHere n with
      | .chOpen ta =>
        let c := d.chanOf n ta
        if chanChanges old d c && d.openBad n c then (d.endWait n).chanStop n c else d
      | .chRecv _ ta =>
        let c := d.chanOf n ta
        if chanChanges old d c && d.recvBad n c then (d.endWait n).chanStop n c else d
      | _ => d

end Sys2Proof.Machine
end

