-- ==== Sys2Proof/Machine/Comp.lean ====
section
/-!
DEFINITION. Machine/Comp.lean: comparators, pairs, trip signals, disagreement and self-test (spec/05). A comparator is numbered
0 to 191; its pair is the even one and the odd one after it.
-/
namespace Sys2Proof.Machine

def Dev.comp (d : Dev) (n : Nat) : CompSt := Tab.get {} n d.comps
def Dev.setComp (d : Dev) (n : Nat) (x : CompSt) : Dev := { d with comps := Tab.set {} n x d.comps }
def Dev.compBlk (d : Dev) (b : Nat) : CompBlk := Tab.get {} b d.compBlks
def Dev.setCompBlk (d : Dev) (b : Nat) (x : CompBlk) : Dev := { d with compBlks := Tab.set {} b x d.compBlks }

/-- CMP_STATUS.SERVICE: 0 OFF, 1 IN_SERVICE, 2 UNDER_TEST, 3 SETTLING, 4 FAILED, 5 WAITING. -/
def Dev.service (d : Dev) (n : Nat) : Nat := d.fld (COMP.CMP_STATUS_SERVICE n)
def Dev.setService (d : Dev) (n v : Nat) : Dev := d.setFld (COMP.CMP_STATUS_SERVICE n) v

/-- PAIRING of a comparator's pair: 0 INDEPENDENT, 1 WINDOW, 2 REDUNDANT (R121). -/
def Dev.pairing (d : Dev) (n : Nat) : Nat := d.fld (COMP.PAIR_CFG_PAIRING (n / 2 * 2))

/-- The other comparator of a pair. -/
def mate (n : Nat) : Nat := if n % 2 = 0 then n + 1 else n - 1

def Dev.compMode (d : Dev) (n : Nat) : Nat := d.fld (COMP.CMP_CFG_MODE n)

/-- Settle time and response time in nanoseconds by mode (R120); the response time of FAST, 2.5 ns, doubled. -/
def settleNs (mode : Nat) : Nat := if mode = 1 then 10 else if mode = 2 then 100 else 8000
def twoResponses (mode : Nat) : Nat := if mode = 1 then 5 else if mode = 2 then 80 else 8000

/-- Two LSB in nanovolts (R118). -/
def Dev.lsb2 (d : Dev) (n : Nat) : Int := if d.flag (COMP.CMP_CFG_RANGE n) then 1171875 else 4687500

/-- The comparator acts as BELOW (R119, R121). -/
def Dev.compBelow (d : Dev) (n : Nat) : Bool := if d.pairing n = 1 then decide (n % 2 = 1) else d.flag (COMP.CMP_CFG_POL n)

/-- OUT for an input of `vd` nanovolts and the OUT before (R119). -/
def Dev.compOut (d : Dev) (n : Nat) (vd : Int) (was : Bool) : Bool :=
  let r := sext 10 (d.fld (COMP.CMP_REF_REF n))
  let h := (d.fld (COMP.CMP_CFG_HYST n) : Int)
  let l := d.lsb2 n
  if d.compMode n = 0 then false
  else if d.compBelow n then
    if 2 * vd < r * l then true else if 2 * vd > clampI (-512) 511 (r + h) * l then false else was
  else
    if 2 * vd > r * l then true else if 2 * vd < clampI (-512) 511 (r - h) * l then false else was

def Dev.outBit (d : Dev) (n : Nat) : Bool := d.flag (COMP.CMP_STATUS_OUT n)

/-- OUT set in the status and in the bitmap (R124). -/
def Dev.setOutBit (d : Dev) (n : Nat) (b : Bool) : Dev :=
  let a := COMP.OUT (n / 96 * 3 + n % 96 / 32)
  (d.setFld (COMP.CMP_STATUS_OUT n) (b2n b)).setNum a (putBits (d.num a) (n % 32) (n % 32) (b2n b))

/-! ### Trip signals (R121, R124) -/

/-- What a comparator contributes (R126, R129, R130). -/
def Dev.contribution (d : Dev) (n : Nat) : Bool :=
  let s := d.service n
  (decide (s = 1) || decide (s = 3)) && (d.comp n).contrib

/-- The trip signal of a comparator as its pair makes it (R121). -/
def Dev.tripOf (d : Dev) (n : Nat) : Bool :=
  let a := n / 2 * 2
  let either := d.contribution a || d.contribution (a + 1)
  d.flag (COMP.PAIR_CFG_TRIP_EN a) &&
    match d.pairing n with
    | 0 => d.contribution n
    | 1 => if d.flag (COMP.PAIR_CFG_WIN_SENSE a) then !either else either
    | _ => either

/-- One trip signal brought up to date: status, bitmap, counts, events and the timers (R124, R198). -/
def Dev.showTrip (d : Dev) (n : Nat) : Dev :=
  let new := d.tripOf n
  let old := d.tripSig n
  if new = old then d
  else
    let a := COMP.TRIP (n / 96 * 3 + n % 96 / 32)
    let d := (d.setFld (COMP.CMP_STATUS_TRIP n) (b2n new)).setNum a (putBits (d.num a) (n % 32) (n % 32) (b2n new))
    let d := d.when new fun d => (d.setFld (COMP.CMP_STATUS_TRIPPED n) 1).incFld (COMP.CMP_COUNT_TRIPS n)
    let d := d.when (bitOf (d.fld (COMP.CMP_CFG_EVENT n)) (if new then 0 else 1)) fun d => d.raise (64 + n)
    d.when new fun d => d.tripRises n

/-- The disagreement timer of a pair runs or clears (R127). -/
def Dev.pairWatch (d : Dev) (n : Nat) : Dev :=
  let a := n / 2 * 2
  let x := d.comp a
  let differ := decide (d.outBit a ≠ d.outBit (a + 1))
  let run := decide (d.pairing a = 2) && decide (d.fld (COMP.PAIR_CFG_DIS_TIME a) ≠ 0) && decide (d.service a = 1)
    && decide (d.service (a + 1) = 1) && differ
  let since := if run then (if x.disSince.isSome then x.disSince else some d.now) else none
  d.setComp a { x with disSince := since, disArmed := x.disArmed || !differ }

/-- Both trip signals of a pair and its disagreement timer brought up to date. -/
def Dev.pairShow (d : Dev) (n : Nat) : Dev := ((d.showTrip (n / 2 * 2)).showTrip (n / 2 * 2 + 1)).pairWatch n

/-- OUT of a comparator that follows its input changes (R119, R123). -/
def Dev.compSetOut (d : Dev) (n : Nat) (b : Bool) : Dev :=
  let x := d.comp n
  let d := d.setOutBit n b
  let x :=
    if !b then { x with contrib := false, riseAt := none }
    else if x.contrib then x
    else if d.fld (COMP.CMP_CFG_FILT n) = 0 then { x with contrib := true, riseAt := none }
    else if x.riseAt.isSome then x
    else { x with riseAt := some d.now }
  (d.setComp n x).pairShow n

/-- COMP_INPUT_CROSSING (R119): the input of a comparator stands at `vd` nanovolts. One marked FAILED still shows OUT; it contributes
nothing (R130). [Log 56 DEDUCED] -/
def execCompInputCrossing (n : Fin 192) (vd : Int) (s : State) : Host.Outcome State Fault Refusal :=
  s.onDev fun d =>
    let b := d.compOut n vd (d.outBit n)
    if d.service n = 1 then d.compSetOut n b else if d.service n = 4 then d.setOutBit n b else d

/-- The filter time in nanoseconds (R123). -/
def compFilt (f : Nat) : Nat := if f = 0 then 0 else 2 ^ f

/-- COMP_FILTER_EXPIRY (R123): OUT has stayed asserted for F. -/
def execCompFilterExpiry (n : Fin 192) (s : State) : Host.Outcome State Fault Refusal :=
  s.onDev fun d =>
    let x := d.comp n
    let f := d.fld (COMP.CMP_CFG_FILT n)
    match x.riseAt with
    | none => d
    | some t => d.when (decide (d.service n = 1) && d.outBit n && d.due (t + nsT (compFilt f))) fun d =>
      (d.setComp n { x with contrib := true, riseAt := none }).pairShow n

/-! ### Settling (R126, R133) -/

/-- A comparator begins to settle; what it contributes and OUT are held. [Log 61 DEDUCED] -/
def Dev.settleStart (d : Dev) (n : Nat) (t : Time) : Dev :=
  let x := d.comp n
  ((d.setComp n { x with settleEnd := t + nsT (settleNs (d.compMode n)), riseAt := none }).setService n 3).pairShow n

/-- COMP_SETTLE_END (R126): OUT follows R119 again, for an input of `vd` nanovolts. -/
def execCompSettleEnd (n : Fin 192) (vd : Int) (s : State) : Host.Outcome State Fault Refusal :=
  s.onDev fun d =>
    let x := d.comp n
    d.when (decide (d.service n = 3) && d.due x.settleEnd) fun d =>
      let d := d.setService n 1
      d.compSetOut n (d.compOut n vd (d.outBit n))

/-- COMP_BANK_READY (R133): 10 µs after power-up. -/
def execCompBankReady (k : Fin 4) (s : State) : Host.Outcome State Fault Refusal :=
  s.onDev fun d => d.when (d.powered (48 + k) 10000) fun d =>
    let f := if k.val % 2 = 0 then COMP.BANK_STATUS_BANK0_READY (k / 2) else COMP.BANK_STATUS_BANK1_READY (k / 2)
    let d := (d.setFld f 1).setMapBit SUPPLY.DOM_STATUS_0 (48 + k) true
    d.each ((List.range 48).map (48 * k.val + ·)) fun d n => d.when (decide (d.service n = 5)) fun d => d.settleStart n d.now

/-! ### Disagreement (R127) -/

/-- COMP_DISAGREE (R127): the disagreement timer of pair `c` exceeds its limit. -/
def execCompDisagree (c : Fin 96) (s : State) : Host.Outcome State Fault Refusal :=
  s.onDev fun d =>
    let a := 2 * c.val
    let x := d.comp a
    let lim := d.fld (COMP.PAIR_CFG_DIS_TIME a) * (if d.flag (COMP.PAIR_CFG_DIS_SCALE a) then 1000 else 10)
    match x.disSince with
    | none => d
    | some t => d.when (x.disArmed && before (t + nsT lim) (d.now ||| 63)) fun d =>
      let d := (d.setComp a { x with disArmed := false }).setFld (COMP.CMP_STATUS_DISAGREE a) 1
      ((d.incFld (COMP.CMP_COUNT_DISAGREES a)).raise 12).report 0x0E a

/-! ### Self-test (R128 to R132) -/

/-- The checks of an OP: 1 SEQUENCE, 2 TIE_TRIP, 3 TIE_CLEAR, 4 SWAP. -/
def opChecks (op : Nat) : List Nat := if op = 1 then [1, 2, 3, 4] else [op - 1]

/-- The wait before a check: two responses, and a settle time before each step of the truing (R129). [Log 61 DEDUCED] -/
def checkWait (mode : Nat) (checks : List Nat) : Nat :=
  twoResponses mode + (if checks.head? = some 4 then settleNs mode else 0)

/-- A test of comparator `n` begins: it becomes UNDER_TEST (R129 step 1). [Log 61 DEDUCED] -/
def Dev.testStart (d : Dev) (n op : Nat) : Dev :=
  let b := n / 96
  let t : CompTest := { n := n, checks := opChecks op, marks := decide (op = 1), nextAt := d.now + nsT (checkWait (d.compMode n) (opChecks op)) }
  let d := (d.setCompBlk b { d.compBlk b with test := some t }).setComp n { d.comp n with contrib := false, riseAt := none }
  let d := (d.setFld (COMP.TEST_STATUS_SUBJECT b) (n % 96)).setFld (COMP.CMP_STATUS_RESULT n) 0
  (d.setService n 2).pairShow n

/-- A manual test may run (R132). -/
def Dev.testOk (d : Dev) (n : Nat) : Bool :=
  (decide (d.service n = 1) || decide (d.service n = 4))
    && ((decide (d.pairing n = 2) && decide (d.service (mate n) = 1)) || !d.flag (COMP.PAIR_CFG_TRIP_EN (n / 2 * 2)))

/-- The block is free of its test; the next manual test that waits begins. [Log 61 DEDUCED] -/
def Dev.testFree (d : Dev) (b : Nat) : Dev :=
  let x := d.compBlk b
  let nextAt := d.now + nsT (d.fld (COMP.TEST_CTRL_INTERVAL_MS b) * 1000000)
  let d := (d.setCompBlk b { x with test := none, nextAt := nextAt, queue := x.queue.drop 1 }).setFld (COMP.TEST_STATUS_SUBJECT b) 0x7F
  match x.queue with
  | [] => d
  | (n, op) :: _ => if d.testOk n then d.testStart n op else d

/-- The next comparator the automatic test visits: eligible, at or after the block's position (R128). -/
def Dev.testNext (d : Dev) (b : Nat) : Option Nat :=
  let ok := fun i =>
    let n := 96 * b + i
    decide (d.pairing n = 2) && d.flag (COMP.PAIR_CFG_SELFTEST (n / 2 * 2)) && decide (d.service n = 1) && decide (d.service (mate n) = 1)
  let l := (List.range 96).filter ok
  match l.find? (fun i => decide (i ≥ (d.compBlk b).pos)) with
  | some i => some i
  | none => l.head?

/-- COMP_SELFTEST_START (R128): the next eligible comparator of a block becomes UNDER_TEST. -/
def execCompSelftestStart (b : Fin 2) (s : State) : Host.Outcome State Fault Refusal :=
  s.onDev fun d =>
    let x := d.compBlk b
    d.when (x.test.isNone && !d.flag (COMP.TEST_CTRL_HOLD b) && d.due x.nextAt) fun d =>
      match d.testNext b with
      | none => d
      | some i =>
        let lap := decide (i < x.pos)
        let d := d.when lap fun d => d.setFld (COMP.TEST_STATUS_LAP_MS b) (min 0xFFFF ((d.now - x.lapStart).toNat / 64000000))
        let d := d.setCompBlk b { x with pos := i + 1, lapStart := if lap ∨ x.pos = 0 then d.now else x.lapStart }
        d.testStart (96 * b.val + i) 1

/-- A failed comparator (R130). -/
def Dev.compFail (d : Dev) (n : Nat) (old : Word) : Dev :=
  let x := d.comp n
  let d := d.setService n 4
  if x.failed then d
  else
    let d := d.setFld (COMP.CMP_STATUS_TEST_FAIL n) 1
    let d := (d.setComp n { x with failed := true, contrib := false }).incFld (COMP.TEST_FAILS_COUNT (n / 96))
    (d.report 0x0F n).sysRec (COMP.CMP_STATUS n) old

/-- The FAILED marks of comparators whose other state is lost: they hold until power-on reset (R130). [Log 61 DEDUCED] -/
def Dev.compKeep (d : Dev) (old : Tab CompSt) : Dev :=
  { d with comps := (old.filter fun p => p.2.failed).foldl (fun t p => Tab.set {} p.1 { Tab.get {} p.1 t with failed := true } t) d.comps }

/-- The end of a test (R129 step 6, R130). [Log 61 DEDUCED] -/
def Dev.testEnd (d : Dev) (t : CompTest) : Dev :=
  let n := t.n
  let failed := (t.bad && t.marks) || (d.comp n).failed
  let old := d.reg (COMP.CMP_STATUS n)
  let d := (d.setFld (COMP.CMP_STATUS_RESULT n) t.result).setFld (COMP.CMP_STATUS_TEST_DONE n) 1
  let d := d.when (bitOf t.result 3) fun d =>
    (d.setFld (COMP.CMP_TRIM_OFFSET n) (low 16 t.trim)).noteCalib (0x16 + n / 96) (n % 96) (toBytes 2 (low 16 t.trim) ++ d.tjBytes ++ [BitVec.ofNat 8 (b2n failed)])
  let d := if failed then d.compFail n old else d.settleStart n d.now
  (d.pairShow n).testFree (n / 96)

/-- One check of a test with its OUT (R129). In the truing a step keeps its weight where OUT shows the reference below the input: 1 for
ABOVE, 0 for BELOW. [Log 61 DEDUCED] -/
def CompTest.check (t : CompTest) (below out : Bool) : CompTest :=
  match t.checks with
  | 1 :: r => { t with checks := r, result := t.result + b2n out, bad := t.bad || !out }
  | 2 :: r => { t with checks := r, result := t.result + 2 * b2n !out, bad := t.bad || out }
  | 3 :: r => { t with checks := r, result := t.result + 4 * b2n !out, bad := t.bad || out }
  | 4 :: r =>
    let trim := if out ≠ below then t.trim + (2 ^ (t.step - 1) : Nat) else t.trim
    if t.step > 1 then { t with step := t.step - 1, trim := trim }
    else
      let ok := decide (trim.natAbs ≤ 32)
      { t with checks := r, step := 0, trim := trim, result := t.result + 8 * b2n ok, bad := t.bad || !ok }
  | _ => t

/-- COMP_TEST_CHECK (R129): a check of a block's test has waited its time; OUT is read. [Log 56 DEDUCED, 61 DEDUCED] -/
def execCompTestCheck (b : Fin 2) (out : Bool) (s : State) : Host.Outcome State Fault Refusal :=
  s.onDev fun d =>
    let x := d.compBlk b
    match x.test with
    | none => d
    | some t => d.when (d.due t.nextAt) fun d =>
      let t := t.check (d.compBelow t.n) out
      if t.checks.isEmpty then d.testEnd t
      else d.setCompBlk b { x with test := some { t with nextAt := d.now + nsT (checkWait (d.compMode t.n) t.checks) } }

/-- A commit that applies to a comparator at `at_` ends the test of its pair without a result (R131). [Log 61 DEDUCED] -/
def Dev.testAbort (d : Dev) (n : Nat) (at_ : Time) : Dev :=
  match (d.compBlk (n / 96)).test with
  | none => d
  | some t =>
    if t.n / 2 ≠ n / 2 then d
    else
      let d := if (d.comp t.n).failed then d.setService t.n 4 else d.settleStart t.n at_
      (d.pairShow t.n).testFree (n / 96)

/-! ### Writes and commits (R126, R132, R135) -/

/-- The comparator whose registers hold an address, and the register's offset. -/
def compAt (a : Nat) : Option (Nat × Nat) :=
  if COMP.CMP_CFG 0 ≤ a ∧ a < 0x180000 ∧ 0x100 ≤ a % 0x10000 ∧ a % 0x10000 < 0xD00 then
    some ((a - 0x160000) / 0x10000 * 96 + (a % 0x10000 - 0x100) / 0x20, (a % 0x10000 - 0x100) % 0x20)
  else none

/-- What refuses a write of a COMP register beside its fields' ranges (R132): stage, bit and cause. -/
def Dev.compRefusals (d : Dev) (a : Nat) (v : Word) : List (Nat × Nat × Cause) :=
  match compAt a with
  | none => []
  | some (n, off) => if off = 0x0C ∧ v.toNat % 8 ≠ 0 ∧ ¬ d.testOk n then [(3, 2, .state)] else []

/-- The action of an accepted write of a COMP register. -/
def Dev.compEffect (d : Dev) (a : Nat) (v : Word) : Dev :=
  match compAt a with
  | none => d
  | some (n, off) =>
    if off ≠ 0x0C then d
    else
      let d := d.when (bitOf v.toNat 8) fun d => d.setNum (COMP.CMP_COUNT n) 0
      let op := v.toNat % 8
      let x := d.compBlk (n / 96)
      if op = 0 then d
      else if x.test.isSome then d.setCompBlk (n / 96) { x with queue := x.queue ++ [(n, op)] }
      else d.testStart n op

/-- The first instant at which a comparator is not SETTLING (R126). -/
def Dev.compBoundary (d : Dev) (n : Nat) : Time := if d.service n = 3 then laterT d.now (d.comp n).settleEnd else d.now

/-- The bank of a comparator is ready (R133). -/
def Dev.compReady (d : Dev) (n : Nat) : Bool :=
  d.flag (if n / 48 % 2 = 0 then COMP.BANK_STATUS_BANK0_READY (n / 96) else COMP.BANK_STATUS_BANK1_READY (n / 96))

/-- What a comparator takes up when a commit has applied at `at_` (R126, R127, R131, R133); `old` is the device before it.
[Log 61 DEDUCED] -/
def Dev.compApplied (old d : Dev) (n : Nat) (at_ : Time) : Dev :=
  let d := d.testAbort n at_
  let mode := d.compMode n
  let changed := fldDiff old d (COMP.CMP_CFG_MODE n) || fldDiff old d (COMP.CMP_REF_REF n) || fldDiff old d (COMP.CMP_CFG_RANGE n)
    || fldDiff old d (COMP.CMP_CFG_POL n) || fldDiff old d (COMP.CMP_CFG_HYST n)
  let d := d.when (decide (old.num (COMP.PAIR_CFG n) ≠ d.num (COMP.PAIR_CFG n))) fun d => d.setComp n { d.comp n with disSince := none }
  let x := d.comp n
  if mode = 0 then
    (((d.setComp n { x with contrib := false, riseAt := none }).setOutBit n false).setService n 0).pairShow n
  else if x.failed then (d.setService n 4).pairShow n
  else if !d.compReady n then (d.setService n 5).pairShow n
  else if changed then d.settleStart n at_
  else if x.riseAt.isSome ∧ d.fld (COMP.CMP_CFG_FILT n) = 0 then (d.setComp n { x with contrib := true, riseAt := none }).pairShow n
  else d.pairShow n

/-- The shadows of a COMP block latched (R125). -/
def Dev.compSnap (d : Dev) (b : Nat) : Dev :=
  d.each [0, 1, 2] fun d i =>
    (d.setReg (COMP.SNAP_OUT (3 * b + i)) (d.reg (COMP.OUT (3 * b + i)))).setReg (COMP.SNAP_TRIP (3 * b + i)) (d.reg (COMP.TRIP (3 * b + i)))

end Sys2Proof.Machine
end

