-- ==== Sys2Proof/Machine/Loop.lean ====
section
/-!
DEFINITION. Machine/Loop.lean: the loop engine: slots, set-points, the evaluation of R139, competition groups, the oscillation
detector, duplex slices and detours (spec/06, spec/07 R162 to R171).
-/
namespace Sys2Proof.Machine

def Dev.slot (d : Dev) (s : Nat) : SlotSt := Tab.get {} s d.slots
def Dev.setSlot (d : Dev) (s : Nat) (x : SlotSt) : Dev := { d with slots := Tab.set {} s x d.slots }
def Dev.cgrp (d : Dev) (g : Nat) : GroupSt := Tab.get {} g d.compGroups
def Dev.setCgrp (d : Dev) (g : Nat) (x : GroupSt) : Dev := { d with compGroups := Tab.set {} g x d.compGroups }
def Dev.trc (d : Dev) (u : Nat) : TrcSt := Tab.get {} u d.traces
def Dev.setTrc (d : Dev) (u : Nat) (x : TrcSt) : Dev := { d with traces := Tab.set {} u x d.traces }

/-- The agent ID of the loop engine (R34). -/
def loopAgent : AgentId := 0x0300

/-- A word as a signed number. -/
def Dev.int (d : Dev) (a : Nat) : Int := (d.reg a).toInt

/-- The low 24 bits of a word as a signed number. -/
def Dev.int24 (d : Dev) (a : Nat) : Int := sext 24 (d.num a)

/-- Clamped to the signed N-bit range. -/
def satI (n : Nat) (i : Int) : Int := clampI (-(2 ^ (n - 1) : Nat)) ((2 ^ (n - 1) : Nat) - 1) i

/-- R139's clamp: the lower limit prevails. -/
def clampLo (v lo hi : Int) : Int := max lo (min v hi)

/-- SLOT_STATUS.RUN: 0 OFF, 1 RUNNING, 2 HOLDING, 3 MANUAL, 4 WAITING. -/
def Dev.slotRun (d : Dev) (s : Nat) : Nat := d.fld (LOOP.SLOT_STATUS_RUN s)
def Dev.slotMode (d : Dev) (s : Nat) : Nat := d.fld (LOOP.SLOT_CFG_MODE s)

/-- The slice that evaluates a slot: its home slice, or the spare from its first delivery there (R136, R167). -/
def Dev.slotSlice (d : Dev) (s : Nat) : Nat :=
  if d.fld LOOP.SUP_STATUS_SPARE_FOR ≠ s / 8 then s / 8
  else match d.sliceDet with
    | some x => if s / 8 = x.k ∧ (!x.resumed ∨ x.left.contains s) then s / 8 else 4
    | none => 4

/-- A slice is ready (R137). -/
def Dev.sliceReady (d : Dev) (k : Nat) : Bool := bitOf (d.fld LOOP.SUP_STATUS_READY) k

/-- The words of a slot's configuration. -/
def slotWords (s : Nat) : List Nat := (List.range 15).map fun i => LOOP.SLOT_CFG s + 4 * i

/-- The device with some registers at given values: the view of an earlier configuration. -/
def Dev.withWords (d : Dev) (l : List (Nat × Word)) : Dev := l.foldl (fun d p => d.setReg p.1 p.2) d

/-- The configuration of a slot before an AT commit whose earlier samples are not all evaluated (R158). -/
def Dev.slotOld (d : Dev) (s : Nat) : Dev := match (d.slot s).defer with | some (_, ws) => d.withWords ws | none => d

/-- The configuration of a slot for a sample of an instant (R158). -/
def Dev.slotView (d : Dev) (s : Nat) (t : Time) : Dev :=
  match (d.slot s).defer with
  | some (at_, _) => if dist t at_ > 0 then d.slotOld s else d
  | none => d

/-- The word of SLOT_STATUS as it reads: with the slice that evaluates the slot (R136) and the state of its input (R138). -/
def Dev.slotStatus (d : Dev) (s : Nat) : Word :=
  let v := putBits (d.num (LOOP.SLOT_STATUS s)) 26 24 (d.slotSlice s)
  BitVec.ofNat 32 (putBits v 13 13 (b2n (decide (d.adcRun (d.fld (LOOP.SLOT_CFG_INPUT_CH s)) ≠ 1))))

/-! ### Coefficients (R145) -/

/-- The address of coefficient word i of set k of a slot. -/
def coefAddr (s k i : Nat) : Nat := 0x30000000 + 0x100 * s + 0x40 * k + 4 * i

/-- The nine coefficients of a set, B0 to B4 and A1 to A4. -/
def Dev.coefs (d : Dev) (s k : Nat) : List Int :=
  (List.range 9).map fun i => sext 32 (ofBytes (d.bytes (coefAddr s k i) 4))

/-- The dot product of two lists. -/
def dot : List Int → List Int → Int
  | a :: x, b :: y => a * b + dot x y
  | _, _ => 0

/-- The partial of R139 from the histories. -/
def SlotSt.partialOf (x : SlotSt) (c : List Int) : Int :=
  dot ((c.drop 1).take 4) [x.e1, x.e2, x.e3, x.e4] * 4096 + dot (c.drop 5) [x.y1, x.y2, x.y3, x.y4]

/-- The partial of a slot recomputed with the set in use. -/
def Dev.recompute (d : Dev) (s : Nat) : Dev :=
  let x := d.slot s
  d.setSlot s { x with p := x.partialOf (d.coefs s (d.fld (LOOP.SLOT_STATUS_CUR_SET s))) }

/-! ### Set-points (R147 to R150) -/

/-- The target of a pulse duty d (R147). -/
def Dev.pulseTarget (d : Dev) (s : Nat) : Int :=
  let lo := d.int24 (LOOP.SLOT_PULSE_LO s)
  lo + (d.int24 (LOOP.SLOT_PULSE_HI s) - lo) * d.fld (LOOP.SLOT_PULSE_MEAS_D s) / 65536

/-- The latest sample of a channel at or before an instant, taken since another. [Log 59 DEDUCED] -/
def Dev.sampleAt (d : Dev) (c : Nat) (since t : Time) : Option Sample :=
  (d.adc c).taken.find? fun m => decide (dist m.t t ≥ 0) && decide (dist since m.t ≥ 0)

/-- The set-point target at an evaluation's instant (R147 to R149). -/
def Dev.spTarget (d : Dev) (s : Nat) (t : Time) : Int :=
  let reg := d.int24 (LOOP.SLOT_SP_TARGET s)
  match d.fld (LOOP.SLOT_SP_CFG_SRC s) with
  | 1 =>
    match d.sampleAt (d.fld (LOOP.SLOT_SP_CFG_ANA_CH s)) (d.slot s).start (t - nsT 8) with
    | some m => satI 24 (codeOf m.word * sext 16 (d.fld (LOOP.SLOT_ANA_SCALE_MUL s)) + d.int24 (LOOP.SLOT_ANA_OFS s))
    | none => reg
  | 2 => if d.flag (LOOP.SLOT_STATUS_PULSE_LOST s) ∧ d.flag (LOOP.SLOT_SP_CFG_LOSS s) then reg else d.pulseTarget s
  | _ => reg

/-- rq of an evaluation (R150). -/
def Dev.nextRq (d : Dev) (s : Nat) (t : Time) (x tgt : Int) : Int :=
  let st := d.slot s
  let slew := d.fld (LOOP.SLOT_SP_SLEW_SLEW s)
  if st.first then (if d.flag (LOOP.SLOT_SP_CFG_INIT s) then x * 256 else tgt)
  else if slew = 0 ∨ st.spJump then tgt
  else
    let step : Int := min (slew * ((t - st.tPrev).toNat / 64)) 0x7FFFFFFF
    if tgt > st.rq then min (st.rq + step) tgt else max (st.rq - step) tgt

/-! ### Delivery (R143, R154) -/

/-- An output delivered to a target: 1 TIMER, 2 RAIL, 3 TRIM. -/
def Dev.deliver (d : Dev) (target index : Nat) (ontime : Bool) (u : Int) : Dev :=
  let v : UpdVal := if ontime then .ontime (clampI 0 0x7FFFFFFF u).toNat else .duty (clampI 0 (2 ^ 24) u).toNat
  match target with
  | 1 => d.deliverTimer index v
  | 2 => d.deliverRail index v
  | 3 => d.deliverTrim index u
  | _ => d

/-! ### Competition groups (R151 to R153) -/

def Dev.cgOn (d : Dev) (g : Nat) : Bool := d.flag (LOOP.CG_CFG_ENABLE g)

/-- The members of a group (R151). -/
def Dev.members (d : Dev) (g : Nat) : List Nat :=
  (List.range 32).filter fun s => decide (d.fld (LOOP.SLOT_OUT_CFG_TARGET s) = 4) && decide (d.fld (LOOP.SLOT_OUT_CFG_INDEX s) = g)

/-- MEMBERS follows the slots. -/
def Dev.showMembers (d : Dev) : Dev :=
  d.each (List.range 8) fun d g => d.setFld (LOOP.CG_STATUS_MEMBERS g) (min 8 (d.members g).length)

/-- The slot of a configuration is a member of a group (R151). -/
def Dev.memberOf (d : Dev) (g s : Nat) : Bool :=
  decide (d.fld (LOOP.SLOT_OUT_CFG_TARGET s) = 4) && decide (d.fld (LOOP.SLOT_OUT_CFG_INDEX s) = g)

/-- A slot's output for its latest sample at or before an instant since it left OFF at `start`; from a mismatch of its slice to its
first output from the spare it has none (R152, R168). [Log 65 DEDUCED] -/
def SlotSt.outAt (x : SlotSt) (start t : Time) : Option Int :=
  ((x.evs.find? fun e => decide (dist e.t t ≥ 0)).filter fun e => decide (dist start e.t ≥ 0) &&
    match x.gap with | some g => decide (dist g t < 0) || decide (dist g e.t ≥ 0) | none => true).map (·.u)

/-- The output that a slot enters in a group's decision for an instant: a slot that has left counts for the instants before its
commit (R152). [Log 65 DEDUCED] -/
def Dev.memberOut (d : Dev) (g s : Nat) (t : Time) : Option Int :=
  let x := d.slot s
  match (d.cgrp g).left.find? fun p => decide (p.1 = s) && decide (dist t p.2.1 > 0) with
  | some p => x.outAt p.2.2 t
  | none =>
    let e := d.slotView s t
    if e.memberOf g s ∧ e.slotMode s ≠ 0 then x.outAt x.start t else none

/-- The winner among eligible members: the lowest output, and of equals the lowest slot. [Log 65 DEDUCED] -/
def Dev.winnerAt (d : Dev) (g : Nat) (t : Time) : Option (Nat × Int) :=
  (List.range 32).foldl (fun best s =>
    match d.memberOut g s t, best with
    | none, b => b
    | some u, none => some (s, u)
    | some u, some (w, v) => if u < v then some (s, u) else some (w, v)) none

/-- Cadence instants of the trace units whose node 0 is a node (R172). -/
def Dev.cadence (d : Dev) (kind index : Nat) (t : Time) : Dev :=
  d.each (List.range 4) fun d u =>
    let node := d.fld (LOOP.TRC_NODES_NODE0 u)
    let st := d.fld (LOOP.TRC_STATUS_STATE u)
    if node = kind * 128 + index ∧ (st = 1 ∨ st = 2 ∨ st = 4) ∧ dist (d.trc u).start t ≥ 0 then
      let x := d.trc u
      let hit := decide ((x.count + 1) % max 1 (d.fld (LOOP.TRC_CFG_DECIM u)) = 0)
      d.setTrc u { x with count := x.count + 1, due := if hit then x.due ++ [t] else x.due }
    else d

/-- A decision put among those made, newest instant first. -/
def insertMade (x : Decision) : List Decision → List Decision
  | [] => [x]
  | y :: r => if dist y.t x.t ≥ 0 then x :: y :: r else y :: insertMade x r

/-- The decision of a group for an instant (R152). [Log 65 DEDUCED] -/
def Dev.decideAt (d : Dev) (g : Nat) (t : Time) : Dev :=
  let best := d.winnerAt g t
  let x := d.cgrp g
  let made : Decision := match best with
    | some (w, u) => { t := t, slot := w, u := u }
    | none => { t := t, slot := 0, u := 0, won := false }
  let d := d.setCgrp g { x with made := (insertMade made x.made).take 32, left := x.left.filter fun p => dist t p.2.1 > 0 }
  let d := d.each (d.members g) fun d s => d.setFld (LOOP.SLOT_STATUS_WINNER s) (b2n (decide (best.map (·.1) = some s)))
  match best with
  | none => d.setFld (LOOP.CG_STATUS_VALID g) 0
  | some (w, u) =>
    let d := (d.setFld (LOOP.CG_STATUS_VALID g) 1).setFld (LOOP.CG_STATUS_WINNER g) w
    let d := d.setNum (LOOP.CG_OUT g) (low 32 u)
    (d.deliver (d.fld (LOOP.CG_CFG_TARGET g)) (d.fld (LOOP.CG_CFG_INDEX g)) (d.flag (LOOP.CG_CFG_FORM g)) u).cadence 6 g t

/-- The slot belongs to a detour, and its samples before t_r are not evaluated (R168). -/
def Dev.skipped (d : Dev) (s : Nat) (t : Time) : Bool :=
  match d.sliceDet with
  | some x => decide (s / 8 = x.k) && decide (dist t (x.tm + nsT 1500) > 0)
  | none => false

/-- A slot evaluates a sample of channel `c` of instant `t` (R138, R158). -/
def Dev.slotTakes (d : Dev) (s c : Nat) (t : Time) : Bool :=
  let cfg := d.slotView s t
  let mode := cfg.slotMode s
  decide (cfg.fld (LOOP.SLOT_CFG_INPUT_CH s) = c) && (decide (mode = 1) || decide (mode = 3)) && decide (d.slotRun s ≠ 4)
    && decide (dist (d.slot s).since t ≥ 0)

/-- A slot has a sample at or before an instant that it has still to evaluate. [Log 65 DEDUCED] -/
def Dev.slotPending (d : Dev) (s : Nat) (t : Time) : Bool :=
  let now := d.fld (LOOP.SLOT_CFG_INPUT_CH s)
  let was := (d.slotOld s).fld (LOOP.SLOT_CFG_INPUT_CH s)
  let todo := fun x => decide (dist x t ≥ 0) && !d.skipped s x
  decide (d.slotRun s ≠ 4) && (((d.slot s).queue.any fun q => todo q.1)
    || [now, was].any fun c => (d.adc c).conv.any fun m => todo m.t && d.slotTakes s c m.t)

/-- A slot holds up a group's decision for an instant. [Log 65 DEDUCED] -/
def Dev.groupWaits (d : Dev) (g : Nat) (t : Time) : Bool :=
  (List.range 32).any fun s => (d.memberOf g s || (d.slotOld s).memberOf g s) && d.slotPending s t

/-- The decisions that no member holds up any more, in order of instant. [Log 65 DEDUCED] -/
def Dev.runGroup (d : Dev) (g : Nat) : Nat → Dev
  | 0 => d
  | n + 1 =>
    match (d.cgrp g).want with
    | [] => d
    | t :: rest =>
      if d.groupWaits g t then d
      else ((d.setCgrp g { d.cgrp g with want := rest }).decideAt g t).runGroup g n

/-- The groups of some slots make the decisions that no member holds up any more. -/
def Dev.runGroupsOf (d : Dev) (ss : List Nat) : Dev :=
  d.each (List.range 8) fun d g =>
    d.when (d.cgOn g && ss.any fun s => d.memberOf g s || (d.slotOld s).memberOf g s) fun d => d.runGroup g 64

/-- An instant put in order among those that wait, once. -/
def insertT (t : Time) : List Time → List Time
  | [] => [t]
  | u :: r => if t = u then u :: r else if dist t u > 0 then t :: u :: r else u :: insertT t r

/-- A member has produced an output for an instant. -/
def Dev.groupOutput (d : Dev) (g : Nat) (t : Time) : Dev :=
  d.when (d.cgOn g) fun d =>
    let x := d.cgrp g
    let d := d.setCgrp g { x with want := insertT t x.want }
    d.runGroup g 64

/-- The reference decision of a member's evaluation at an instant (R153). [Log 65 DEDUCED] -/
def Dev.refDecision (d : Dev) (g : Nat) (t : Time) : Option Decision :=
  if d.cgOn g then ((d.cgrp g).made.find? fun x => decide (dist x.t (t - nsT 16) ≥ 0)).filter (·.won) else none

/-! ### The oscillation detector (R162 to R165) -/

/-- The detector reset. -/
def Dev.oscReset (d : Dev) (s : Nat) : Dev :=
  let d := d.setSlot s { d.slot s with oscHist := [], oscFirst := true, oscExt := 0 }
  ((d.setFld (LOOP.OSC_STATUS_SENSE s) 0).setFld (LOOP.OSC_STATUS_ARMED s) 1).setFld (LOOP.OSC_STATUS_RECENT s) 0

/-- A reversal found by the detector: the reversal, the new sense (0 UNKNOWN, 1 POS, 2 NEG) and the new extreme (R162). -/
def oscStep (output : Bool) (band : Nat) (first : Bool) (sense : Nat) (ext dErr u : Int) : Bool × Nat × Int :=
  if !output then
    let b : Int := band * 16
    if sense ≠ 1 ∧ dErr > b then (decide (sense = 2), 1, ext)
    else if sense ≠ 2 ∧ dErr < -b then (decide (sense = 1), 2, ext)
    else (false, sense, ext)
  else
    let b : Int := band * 256
    if first then (false, sense, u)
    else if sense = 1 then (if u > ext then (false, 1, u) else if u < ext - b then (true, 2, u) else (false, 1, ext))
    else if sense = 2 then (if u < ext then (false, 2, u) else if u > ext + b then (true, 1, u) else (false, 2, ext))
    else if u > ext + b then (false, 1, u)
    else if u < ext - b then (false, 2, u)
    else (false, sense, ext)

/-- An automatic change of a slot's SLOT_CFG with its FAULT_ACTION record; the claim or pending commit of its group is aborted,
and the group is taken from a pending global commit (R164, R367). It holds also for samples before an AT commit that are still to
be evaluated. [Log 66 DEDUCED] -/
def Dev.slotForce (d : Dev) (s : Nat) (f : Nat → Nat) : Dev :=
  let a := LOOP.SLOT_CFG s
  let k := grpKey (0x18 + s / 16) (s % 16)
  let old := d.reg a
  let x := d.slot s
  let force := fun w : Word => BitVec.ofNat 32 (f w.toNat)
  let d := d.setSlot s { x with defer := x.defer.map fun p => (p.1, p.2.map fun q => if q.1 = a then (q.1, force q.2) else q) }
  let d := (d.setReg a (force old)).faultRec loopAgent a old
  d.abortForFault k

/-- The latest yc of a slot: of its latest evaluation, or before its first what its history was filled with. -/
def Dev.latestYc (d : Dev) (s : Nat) : Int :=
  if (d.slot s).first then (d.slot s).y1 else sext 48 ((d.reg64 (LOOP.SLOT_STATE s)).toNat % 2 ^ 48)

/-- A new set in use (R146): 1 REBASE, 0 KEEP. -/
def Dev.switchSet (d : Dev) (s set : Nat) (rebase : Bool) : Dev :=
  let x := d.slot s
  let y := d.latestYc s
  let d := d.setFld (LOOP.SLOT_STATUS_CUR_SET s) set
  let x := if rebase then { x with e1 := 0, e2 := 0, e3 := 0, e4 := 0, y1 := y, y2 := y, y3 := y, y4 := y } else x
  (d.setSlot s x).recompute s

/-! ### The end of a detour (R167) -/

/-- The record of SUP_STATUS against its old value. -/
def Dev.supRec (d : Dev) (old : Word) : Dev := d.sysRec LOOP.SUP_STATUS old

/-- A detour ends (R167). -/
def Dev.detourEnd (d : Dev) : Dev :=
  let old := d.reg LOOP.SUP_STATUS
  let d := (d.setFld LOOP.SUP_STATUS_DETOURING 0).setFld LOOP.SUP_STATUS_DETOUR_DONE 1
  ({ d with sliceDet := none } : Dev).supRec old

/-- A slot of a detour has delivered from the spare, or delivers no more; the detour ends with the last (R167).
[Log 69 DEDUCED] -/
def Dev.detourDelivered (d : Dev) (s : Nat) : Dev :=
  match d.sliceDet with
  | none => d
  | some x =>
    if !x.resumed ∨ !x.left.contains s then d
    else
      let left := x.left.erase s
      if left.isEmpty then d.detourEnd else { d with sliceDet := some { x with left := left } }

/-- A slot stops evaluating: its samples that wait are dropped, and a detour waits for it no longer. -/
def Dev.slotQuiet (d : Dev) (s : Nat) : Dev := (d.setSlot s { d.slot s with queue := [] }).detourDelivered s

/-- A slot held by an automatic action: SLOT_CFG.MODE is HOLD (R164, R367). -/
def Dev.slotHold (d : Dev) (s : Nat) : Dev :=
  ((d.slotForce s fun n => putBits n 1 0 2).setFld (LOOP.SLOT_STATUS_RUN s) 2).slotQuiet s

/-- The detector fires (R164). [Log 66 DEDUCED] -/
def Dev.oscFire (d : Dev) (s : Nat) (t : Time) : Dev :=
  let d := (d.raise (737 + 2 * s)).setFld (LOOP.OSC_STATUS_FIRED s) 1
  let d := (d.incFld (LOOP.OSC_STATUS_FIRES s)).setNum (LOOP.OSC_LAST s) (nsOf t)
  let d := d.report 0x09 s
  match d.fld (LOOP.OSC_CFG_ACTION s) with
  | 2 => d.slotHold s
  | 3 =>
    let set := d.fld (LOOP.OSC_CFG_SAFE_SET s)
    (d.slotForce s fun n => putBits (putBits n 5 4 set) 8 8 1).switchSet s set true
  | 4 => (d.slotForce s fun n => putBits n 1 0 3).setFld (LOOP.SLOT_STATUS_RUN s) 3
  | _ => d

/-- The detector after an evaluation (R162, R163). -/
def Dev.oscRun (d : Dev) (s : Nat) (t : Time) (dErr u : Int) : Dev :=
  if d.fld (LOOP.OSC_CFG_ACTION s) = 0 then d.oscReset s
  else
    let x := d.slot s
    let win := nsT (d.fld (LOOP.OSC_LIM_WIN s) * 10)
    let (rev, sense, ext) := oscStep (d.flag (LOOP.OSC_CFG_SOURCE s)) (d.fld (LOOP.OSC_LIM_BAND s)) x.oscFirst
      (d.fld (LOOP.OSC_STATUS_SENSE s)) x.oscExt dErr u
    let hist := if rev then (t :: x.oscHist).take 16 else x.oscHist
    let count := d.fld (LOOP.OSC_CFG_COUNT s)
    let armed := d.flag (LOOP.OSC_STATUS_ARMED s)
    let fire := rev && armed && decide (hist.length ≥ count) &&
      (match hist[count - 1]? with | some h => decide (dist h t ≤ dist 0 win) | none => false)
    let tf := if fire then t else x.oscFire
    let hist := if fire then [] else hist
    let armed := (armed && !fire) || decide (dist tf t ≥ dist 0 win) && !fire
    let d := d.setSlot s { x with oscExt := ext, oscFirst := false, oscHist := hist, oscFire := tf }
    let d := (d.setFld (LOOP.OSC_STATUS_SENSE s) sense).setFld (LOOP.OSC_STATUS_ARMED s) (b2n armed)
    let d := d.setFld (LOOP.OSC_STATUS_RECENT s) (hist.filter fun h => decide (dist h t ≤ dist 0 win)).length
    if fire then d.oscFire s t else d

/-! ### The evaluation (R139 to R142) -/

/-- The coefficients of the set in use read by the slice: false where a word is uncorrectable (R367). -/
def Dev.coefsOk (d : Dev) (s : Nat) : Bool × Dev :=
  let (ok, _, d) := d.readMem 6 loopAgent (coefAddr s (d.fld (LOOP.SLOT_STATUS_CUR_SET s)) 0) 36
  (ok, d)

/-- The output of one evaluation on its way to the consumers (R142, R143, R152). -/
def Dev.slotOutput (d cfg : Dev) (s : Nat) (t : Time) (u : Int) : Dev :=
  let tgt := cfg.fld (LOOP.SLOT_OUT_CFG_TARGET s)
  let idx := cfg.fld (LOOP.SLOT_OUT_CFG_INDEX s)
  if tgt = 4 then d.groupOutput idx t else d.deliver tgt idx (cfg.flag (LOOP.SLOT_OUT_CFG_FORM s)) u

/-- A snapshot whose time the evaluation does not follow takes its output and set-point (R159). [Log 155 DEDUCED] -/
def Dev.snapEval (d : Dev) (s : Nat) (t : Time) (u r : Int) : Dev :=
  match (d.slot s).snapT with
  | none => d
  | some x =>
    if dist t x ≥ 0 then (d.setNum (LOOP.SNAP_OUT s) (low 32 u)).setNum (LOOP.SNAP_SP s) (low 24 r)
    else d.setSlot s { d.slot s with snapT := none }

/-- The CLAMP event of an evaluation (R142). -/
def Dev.clampEvent (d : Dev) (s : Nat) (clamped : Bool) : Dev :=
  let x := d.slot s
  if !clamped then d.setSlot s { x with calm := x.calm + 1, armed := x.armed || decide (x.calm + 1 ≥ 16) }
  else if !x.armed then d.setSlot s { x with calm := 0 }
  else
    let d := d.setSlot s { x with calm := 0, armed := false }
    ((d.raise (736 + 2 * s)).setFld (LOOP.SLOT_STATUS_CLAMP_SEEN s) 1).incFld (LOOP.SLOT_COUNTS_CLAMPS s)

/-- An evaluation of sample word `w` of instant `t` under the configuration of `cfg` (R139). [Log 62 DEDUCED] -/
def Dev.evaluate (d cfg : Dev) (s : Nat) (t : Time) (w : Half) : Dev :=
  let st := d.slot s
  let k := codeOf w
  let x := (if cfg.flag (LOOP.SLOT_CFG_INV s) then -k else k) * 256
  let tgt := cfg.spTarget s t * 256
  let rq := cfg.nextRq s t x tgt
  let r := shrFloor rq 8
  let dErr := r - x
  let eFull := dErr * (2 ^ cfg.fld (LOOP.SLOT_CFG_SHIFT s) : Nat)
  let e := satI 32 eFull
  let c := d.coefs s (d.fld (LOOP.SLOT_STATUS_CUR_SET s))
  let acc := (c.headD 0) * e * 4096 + st.p
  let y := satI 48 (shrFloor (acc + 2 ^ 27) 28)
  let lo := cfg.int (LOOP.SLOT_INT_LO s) * 4096
  let hi := cfg.int (LOOP.SLOT_INT_HI s) * 4096
  let g := cfg.fld (LOOP.SLOT_OUT_CFG_INDEX s)
  let held := if cfg.fld (LOOP.SLOT_OUT_CFG_TARGET s) = 4 then (d.refDecision g t).filter fun x => decide (x.slot ≠ s) else none
  let hi' := match held with
    | some x => min hi ((x.u + (d.num (LOOP.CG_MARGIN g) : Nat)) * 4096)
    | none => hi
  let yc := if cfg.slotMode s = 3 then clampLo (cfg.int (LOOP.SLOT_MAN s) * 4096) lo hi' else clampLo y lo hi'
  let u0 := satI 32 (shrFloor (yc + 2048) 12)
  let u := clampLo u0 (cfg.int (LOOP.SLOT_OUT_LO s)) (cfg.int (LOOP.SLOT_OUT_HI s))
  let st : SlotSt := { st with
    first := false, spJump := false, rq := rq, tPrev := t
    e1 := e, e2 := st.e1, e3 := st.e2, e4 := st.e3, y1 := yc, y2 := st.y1, y3 := st.y2, y4 := st.y3
    evs := ({ t := t, u := u, r := r, e := e, yc := yc } :: st.evs).take 16 }
  let st := { st with p := st.partialOf c }
  let new := st.commitNew
  let d := d.setSlot s { st with commitNew := false }
  let d := d.wrapNum (LOOP.SLOT_EVALS s)
  let d := d.when new fun d => d.setReg (LOOP.SLOT_COMMIT_EVAL s) (d.reg (LOOP.SLOT_EVALS s))
  let d := ((d.setNum (LOOP.SLOT_OUT s) (low 32 u)).setNum (LOOP.SLOT_SP_NOW s) (low 24 r)).setNum (LOOP.SLOT_ERR s) (low 32 e)
  let d := d.setReg64 (LOOP.SLOT_STATE s) (BitVec.ofNat 64 (low 48 yc))
  let d := d.when (decide (e ≠ eFull)) fun d => (d.setFld (LOOP.SLOT_STATUS_E_SAT s) 1).incFld (LOOP.SLOT_COUNTS_E_SATS s)
  let d := d.when (bitOf w.toNat 3) fun d => d.setFld (LOOP.SLOT_STATUS_OVR_SEEN s) 1
  let d := (d.setFld (LOOP.SLOT_STATUS_CLAMPED_LO s) (b2n (decide (y < lo)))).setFld (LOOP.SLOT_STATUS_CLAMPED_HI s) (b2n (decide (y > hi)))
  let d := (d.setFld (LOOP.SLOT_STATUS_LOSING s) (b2n held.isSome)).setFld (LOOP.SLOT_STATUS_OUT_LIM s) (b2n (decide (u ≠ u0)))
  let d := (d.setFld (LOOP.SLOT_STATUS_SLEWING s) (b2n (decide (rq ≠ tgt)))).snapEval s t u r
  let d := (d.clampEvent s (decide (y < lo) || decide (y > hi))).oscRun s t dErr u
  let d := d.slotOutput cfg s t u
  ((((d.cadence 2 s t).cadence 3 s t).cadence 4 s t).cadence 5 s t)

/-! ### Leaving OFF and commits (R144, R146, R157, R158) -/

/-- A slot leaves OFF at `t` (R144). -/
def Dev.slotStart (d : Dev) (s : Nat) (t : Time) : Dev :=
  let y := clampLo (d.int (LOOP.SLOT_MAN s) * 4096) (d.int (LOOP.SLOT_INT_LO s) * 4096) (d.int (LOOP.SLOT_INT_HI s) * 4096)
  let x := d.slot s
  let d := d.setSlot s { start := t, since := t, y1 := y, y2 := y, y3 := y, y4 := y, evs := x.evs, commitNew := x.commitNew,
                         pulseEdge := x.pulseEdge, pulseOk := x.pulseOk, defer := x.defer }
  let d := (d.setNum (LOOP.SLOT_EVALS s) 0).setFld (LOOP.SLOT_STATUS_RUN s) (d.slotMode s)
  let d := d.setFld (LOOP.SLOT_STATUS_CUR_SET s) (d.fld (LOOP.SLOT_CFG_SET s))
  (d.oscReset s).recompute s

/-- A slot that leaves its group's eligible members by a commit at `t`: a decision at the apply removes it, after those of earlier
instants, in which it still counts (R152). [Log 65 DEDUCED] -/
def Dev.groupLeave (d : Dev) (g s : Nat) (start t : Time) : Dev :=
  let d := d.setFld (LOOP.SLOT_STATUS_WINNER s) 0
  d.when (d.cgOn g) fun d =>
    let x := d.cgrp g
    (d.setCgrp g { x with left := x.left ++ [(s, t, start)], want := insertT t x.want }).runGroup g 64

/-- The pulse input of a slot after a commit at `t`: its loss time counts from the selection of PULSE, and without PULSE nothing is
lost (R149). [Log 67 DEDUCED] -/
def Dev.pulseTake (old d : Dev) (s : Nat) (t : Time) : Dev :=
  let is := decide (d.fld (LOOP.SLOT_SP_CFG_SRC s) = 2)
  let was := decide (old.fld (LOOP.SLOT_SP_CFG_SRC s) = 2)
  let pin := decide (d.fld (LOOP.SLOT_SP_CFG_PULSE_PIN s) ≠ old.fld (LOOP.SLOT_SP_CFG_PULSE_PIN s))
  let d := d.when (is && (!was || pin)) fun d => d.setSlot s { d.slot s with pulseEdge := none, pulseOk := t }
  d.when (was && !is) fun d => d.setFld (LOOP.SLOT_STATUS_PULSE_LOST s) 0

/-- A slot takes up its new mode at `t`: leaving OFF, waiting for its slice, stopping or going on (R137, R144, R146). -/
def Dev.modeTake (old d : Dev) (s : Nat) (t : Time) : Dev :=
  let mode := d.slotMode s
  let was := old.slotMode s
  if was = 0 ∧ mode ≠ 0 ∧ d.sliceReady (d.slotSlice s) ∧ (d.slot s).held = none then d.slotStart s t
  else
    let run := if mode = 0 then 0 else if was = 0 ∨ d.slotRun s = 4 then 4 else mode
    let d := d.setFld (LOOP.SLOT_STATUS_RUN s) run
    let d := d.when (decide (mode = 0) || decide (mode = 2)) fun d => d.slotQuiet s
    d.when (decide (d.fld (LOOP.SLOT_CFG_SET s) ≠ d.fld (LOOP.SLOT_STATUS_CUR_SET s))) fun d =>
      d.switchSet s (d.fld (LOOP.SLOT_CFG_SET s)) (d.flag (LOOP.SLOT_CFG_SWITCH s))

/-- What a slot takes up when a commit has applied at `t`; `old` is the device before it. An AT commit (`byTime`) that ends a hold or
selects another channel acts for samples from its time on (R158); of a channel no longer selected no sample stays.
[Log 155 DEDUCED] -/
def Dev.slotTake (old d : Dev) (s : Nat) (t : Time) (byTime : Bool) : Dev :=
  let x := d.slot s
  let d := d.setSlot s { x with commitNew := true }
  let d := Dev.pulseTake old d s t
  let moved := fldDiff old d (LOOP.SLOT_CFG_INPUT_CH s)
  let d := d.when moved fun d => d.setSlot s { d.slot s with queue := [] }
  let d := d.when (byTime && (moved || decide (old.slotMode s = 2))) fun d => d.setSlot s { d.slot s with since := t }
  let d := (Dev.modeTake old d s t).showMembers
  let d := d.each (List.range 8) fun d g =>
    d.when (old.memberOf g s && decide (old.slotMode s ≠ 0) && !(d.memberOf g s && decide (d.slotMode s ≠ 0))) fun d =>
      d.groupLeave g s x.start t
  d.runGroupsOf [s]

/-- A commit that waits for earlier samples takes effect (R158). [Log 155 DEDUCED] -/
def Dev.slotFinish (d : Dev) (s : Nat) : Dev :=
  match (d.slot s).defer with
  | none => d
  | some (t, ws) => Dev.slotTake (d.withWords ws) (d.setSlot s { d.slot s with defer := none }) s t true

/-- A commit that waits for earlier samples takes effect once none is left (R158). [Log 155 DEDUCED] -/
def Dev.slotDue (d : Dev) (s : Nat) : Dev :=
  match (d.slot s).defer with
  | none => d
  | some (t, _) => if d.slotPending s (t - 1) then d else d.slotFinish s

/-- A commit of a slot has applied at `at_`: at once, or after the samples before `at_` that are still to be evaluated.
[Log 67 DEDUCED, 155 DEDUCED] -/
def Dev.slotApplied (old d : Dev) (s : Nat) (at_ : Time) (byTime : Bool) : Dev :=
  let d := d.slotFinish s
  let t := floorNs at_
  if byTime ∧ old.slotPending s (t - 1) then d.setSlot s { d.slot s with defer := some (t, (slotWords s).map fun a => (a, old.reg a)) }
  else Dev.slotTake old d s t byTime

/-! ### Duplex slices (R166 to R169) -/

/-- A detour of slice k is possible (R169). -/
def Dev.sliceDetourOk (d : Dev) (k : Nat) : Bool :=
  decide (k < 4) && d.flag LOOP.SUP_CFG_DETOUR_EN && d.sliceReady 4 && !d.flag LOOP.SUP_STATUS_SPARE_FAIL
    && decide (d.fld LOOP.SUP_STATUS_SPARE_FOR = 7) && d.sliceDet.isNone

/-- The slots of a home slice (R136). -/
def homeSlots (k : Nat) : List Nat := (List.range 8).map (8 * k + ·)

/-- The slots a slice evaluates. -/
def Dev.slotsOf (d : Dev) (k : Nat) : List Nat := (List.range 32).filter fun s => decide (d.slotSlice s = k)

/-- The slice that evaluates a slot's sample of an instant: the spare from a detour's resume on, and before the return of a slice
(R167, R171). [Log 69 DEDUCED] -/
def Dev.evalSlice (d : Dev) (s : Nat) (t : Time) : Nat :=
  match (d.slot s).spareTo with
  | some r => if dist t r > 0 then 4 else s / 8
  | none =>
    if d.fld LOOP.SUP_STATUS_SPARE_FOR ≠ s / 8 then s / 8
    else match d.sliceDet with
      | some x => if s / 8 = x.k ∧ !x.resumed then s / 8 else 4
      | none => 4

/-- SKIPPED counts samples not evaluated (R168). [Log 69 DEDUCED] -/
def Dev.skip (d : Dev) (n : Nat) : Dev :=
  d.setFld LOOP.SUP_DETOUR_INFO_SKIPPED (min 0xFFFF (d.fld LOOP.SUP_DETOUR_INFO_SKIPPED + n))

/-- A slot of a slice that no detour serves stops (R169). [Log 69 DEDUCED] -/
def Dev.slotStop (d : Dev) (k s : Nat) : Dev :=
  let d := d.setSlot s { d.slot s with held := some k }
  d.when (decide (d.slotMode s ≠ 0)) fun d =>
    (d.setSlot s { d.slot s with queue := [] }).setFld (LOOP.SLOT_STATUS_RUN s) 4

/-- A mismatch of slot `s` at the evaluation of instant `t` (R166, R167, R169). [Log 69 DEDUCED] -/
def Dev.mismatch (d : Dev) (s : Nat) (t : Time) : Dev :=
  let k := d.evalSlice s t
  let home := s / 8
  let old := d.reg LOOP.SUP_STATUS
  let ok := d.sliceDetourOk k
  let d := (d.incNum LOOP.SUP_MISMATCHES).setReg64 LOOP.SUP_DETOUR_T t
  let d := d.setFld LOOP.SUP_STATUS_FAULTY (putBits (putBits (d.fld LOOP.SUP_STATUS_FAULTY) k k 1) home home 1)
  let d := d.each (homeSlots home) fun d s => d.setSlot s { d.slot s with gap := some t, spareTo := none }
  let d :=
    if ok then
      let d := (d.setFld LOOP.SUP_STATUS_DETOURING 1).setNum LOOP.SUP_DETOUR_INFO 0
      ({ d with sliceDet := some { k := k, tm := t } } : Dev).skip 1
    else
      let d := d.each (homeSlots home) fun d s => d.slotStop k s
      match d.sliceDet with
      | some x => if x.k = home then { d.setFld LOOP.SUP_STATUS_DETOURING 0 with sliceDet := none } else d
      | none => d
  (((d.raise 10).report 0x07 k).supRec old).runGroupsOf (homeSlots home)

/-- A slot waits for the spare and cannot evaluate yet. -/
def Dev.slotBlocked (d : Dev) (s : Nat) : Bool :=
  match d.sliceDet with | some x => decide (s / 8 = x.k) && !x.resumed | none => false

/-- A slot with its oldest sample taken evaluates it, the two computations agreeing or not (R139, R166, R367). -/
def Dev.evalSample (d : Dev) (s : Nat) (agree : Bool) (t : Time) (w : Half) : Dev :=
  if !agree then d.mismatch s t
  else
    let (ok, e) := d.coefsOk s
    if !ok then e.slotHold s else (e.evaluate (d.slotView s t) s t w).detourDelivered s

/-- The oldest sample of a slot (R138, R139, R158, R166, R168): one of a detour before t_r is skipped, one that waits for the spare
or for earlier samples of the slot's former channel waits, and any other is evaluated if the slot runs. -/
def Dev.slotEval (d : Dev) (s : Nat) (agree : Bool) : Dev :=
  let x := d.slot s
  match x.queue with
  | [] => d
  | (t, w) :: rest =>
    if d.skipped s t then (((d.setSlot s { x with queue := rest }).skip 1).slotDue s).runGroupsOf [s]
    else if d.slotBlocked s then { d with answer := .waits }
    else
      let later := match x.defer with | some (at_, _) => decide (dist at_ t ≥ 0) | none => false
      if later && (match x.defer with | some (at_, _) => d.slotPending s (at_ - 1) | none => false) then { d with answer := .waits }
      else
        let d := if later then d.slotFinish s else d
        let d := d.setSlot s { d.slot s with queue := rest }
        if d.slotRun s ≠ 1 ∧ d.slotRun s ≠ 3 then d
        else ((d.evalSample s agree t w).slotDue s).runGroupsOf [s]

/-- DETOUR_STATE_COPY (R167): the last agreed state is checked and copied into the spare in `ns` nanoseconds. -/
def execDetourStateCopy (ns : Nat) (s : State) : Host.Outcome State Fault Refusal :=
  s.onDev fun d =>
    match d.sliceDet with
    | none => d
    | some x => d.when (!x.copied) fun d =>
      let d := { d with sliceDet := some { x with copied := true } }
      (d.setFld LOOP.SUP_DETOUR_INFO_TRANSFER_NS (min 2047 ns)).setFld LOOP.SUP_STATUS_SPARE_FOR x.k

/-- The slots of a detour at t_r: earlier samples are dropped and counted, and RESUME = REBASE acts (R168). [Log 69 DEDUCED] -/
def Dev.resumeSlots (d : Dev) (x : SliceDet) : Dev :=
  let tr := x.tm + nsT 1500
  d.each (homeSlots x.k) fun d s =>
    let y := d.slot s
    let q := y.queue.filter fun e => decide (dist tr e.1 ≥ 0)
    let d := (d.setSlot s { y with queue := q }).skip (y.queue.length - q.length)
    d.when (d.flag LOOP.SUP_CFG_RESUME) fun d => d.switchSet s (d.fld (LOOP.SLOT_STATUS_CUR_SET s)) true

/-- The spare evaluates from t_r on; a detour that no slot waits for ends (R167). -/
def Dev.detourOpen (d : Dev) (x : SliceDet) : Dev :=
  let left := (homeSlots x.k).filter fun s => decide (d.slotRun s = 1) || decide (d.slotRun s = 3)
  if left.isEmpty then d.detourEnd else { d with sliceDet := some { x with resumed := true, left := left } }

/-- SPARE_TEST (R170): the idle spare's built-in test, passed or not. -/
def execSpareTest (ok : Bool) (s : State) : Host.Outcome State Fault Refusal :=
  s.onDev fun d =>
    let us := d.fld LOOP.SUP_CFG_SPARE_TEST_US
    let idle := d.sliceReady 4 && decide (d.fld LOOP.SUP_STATUS_SPARE_FOR = 7) && d.sliceDet.isNone
    d.when (decide (us ≠ 0) && idle && d.due (d.spareTestT + nsT (us * 1000))) fun d =>
      let old := d.reg LOOP.SUP_STATUS
      let d : Dev := { d with spareTestT := d.now }
      if ok then d
      else (((d.incNum LOOP.SUP_MISMATCHES).setFld LOOP.SUP_STATUS_SPARE_FAIL 1).report 0x08 4).supRec old

/-- SLICE_READY (R137): a slice powered for 5 µs is ready and its WAITING slots start, unless a mismatch stopped them. -/
def execSliceReady (k : Fin 5) (s : State) : Host.Outcome State Fault Refusal :=
  s.onDev fun d => d.when (d.powered (25 + k) 5000) fun d =>
    let d := (d.setFld LOOP.SUP_STATUS_READY (putBits (d.fld LOOP.SUP_STATUS_READY) k k 1)).setMapBit SUPPLY.DOM_STATUS_0 (25 + k) true
    let d := d.when (decide (k.val < 4)) fun d =>
      d.setFld (if k.val % 2 = 0 then LOOP.BLK_STATUS_LOWER_READY (k / 2) else LOOP.BLK_STATUS_UPPER_READY (k / 2)) 1
    d.each ((d.slotsOf k).filter fun s => decide (d.slotRun s = 4) && decide ((d.slot s).held = none)) fun d s => d.slotStart s d.now

/-- SLICE_RETURN_AT (R171): at SUP_RETURN_AT a slice's slots pass back to it. -/
def execSliceReturnAt (k : Fin 4) (s : State) : Host.Outcome State Fault Refusal :=
  s.onDev fun d =>
    match d.sliceRet.find? (fun p => p.1 = k.val) with
    | none => d
    | some (_, t) => d.when (d.due t) fun d =>
      let old := d.reg LOOP.SUP_STATUS
      let d : Dev := { d with sliceRet := d.sliceRet.filter fun p => p.1 ≠ k.val }
      let served := decide (d.fld LOOP.SUP_STATUS_SPARE_FOR = k)
      let d := d.setFld LOOP.SUP_STATUS_FAULTY (putBits (d.fld LOOP.SUP_STATUS_FAULTY) k k 0)
      let d := d.each (homeSlots k) fun d s =>
        let d := d.setSlot s { d.slot s with held := none, spareTo := if served then some t else none }
        d.when (decide (d.slotRun s = 4)) fun d => d.slotStart s t
      (d.when served fun d => d.setFld LOOP.SUP_STATUS_SPARE_FOR 7).supRec old

/-! ### The pulse input (R149) -/

/-- A change of PULSE_LOST with its record. -/
def Dev.setPulseLost (d : Dev) (s : Nat) (b : Bool) : Dev :=
  let old := d.slotStatus s
  let d := d.setFld (LOOP.SLOT_STATUS_PULSE_LOST s) (b2n b)
  let d := d.when b fun d => d.setFld (LOOP.SLOT_STATUS_PULSE_LOSS s) 1
  d.logRec .system 3 loopAgent (LOOP.SLOT_STATUS s) (d.slotStatus s) old

/-- PULSE_RISING_EDGE (R149): a rising edge on a slot's pulse pin, high for `high` ns in the period that it ends.
[Log 67 DEDUCED] -/
def execPulseRisingEdge (s : Fin 32) (high : Nat) (st : State) : Host.Outcome State Fault Refusal :=
  st.onDev fun d => d.when (decide (d.fld (LOOP.SLOT_SP_CFG_SRC s) = 2)) fun d =>
    let x := d.slot s
    let d := d.setSlot s { x with pulseEdge := some d.now }
    match x.pulseEdge with
    | none => d
    | some p =>
      let t := nsOf d.now - nsOf p
      if t < 40 ∨ t > 16777215 then d
      else
        let d := d.setFld (LOOP.SLOT_PULSE_MEAS_D s) (min (high * 65536 / t) 65535)
        let d := d.setSlot s { d.slot s with pulseOk := d.now }
        d.when (d.flag (LOOP.SLOT_STATUS_PULSE_LOST s)) fun d => d.setPulseLost s false

/-- PULSE_LOSS (R149): no valid period has completed for TIMEOUT_US. [Log 67 DEDUCED] -/
def execPulseLoss (s : Fin 32) (st : State) : Host.Outcome State Fault Refusal :=
  st.onDev fun d =>
    let us := d.fld (LOOP.SLOT_PULSE_TMO_TIMEOUT_US s)
    d.when (decide (us ≠ 0) && decide (d.fld (LOOP.SLOT_SP_CFG_SRC s) = 2)
        && !d.flag (LOOP.SLOT_STATUS_PULSE_LOST s) && d.due ((d.slot s).pulseOk + nsT (us * 1000))) fun d => d.setPulseLost s true

/-! ### Delivery of samples (R105, R138) -/

/-- A sample put among those of a slot that wait, in order of instant (R138). -/
def insertQ (t : Time) (w : Half) : List (Time × Half) → List (Time × Half)
  | [] => [(t, w)]
  | q :: r => if dist t q.1 > 0 then (t, w) :: q :: r else q :: insertQ t w r

/-- A delivered sample offered to the slots whose input it is. -/
def Dev.feedSlots (d : Dev) (c : Nat) (m : Sample) : Dev :=
  d.each (List.range 32) fun d s =>
    d.when (d.slotTakes s c m.t) fun d => d.setSlot s { d.slot s with queue := insertQ m.t m.word (d.slot s).queue }

/-- SAMPLE_DELIVERY (R105): the oldest converted sample of a channel reaches its consumers, 12 ns or more after its instant. -/
def execSampleDelivery (c : Fin 96) (s : State) : Host.Outcome State Fault Refusal :=
  s.onDev fun d =>
    let x := d.adc c
    match x.conv with
    | [] => d
    | m :: rest => d.when (d.due (m.t + nsT 12)) fun d =>
      let d := d.setAdc c { x with conv := rest }
      ((d.deliverSample c m).feedSlots c m).cadence 1 c m.t

/-! ### Writes and commits (R143 to R154, R160, R161, R171, R177) -/

/-- The slot whose registers hold an address, and the register's offset. -/
def slotAt (a : Nat) : Option (Nat × Nat) :=
  if LOOP.SLOT_CFG 0 ≤ a ∧ a < 0x1A0000 ∧ 0x200 ≤ a % 0x10000 ∧ a % 0x10000 < 0xA00 then
    some ((a - 0x180000) / 0x10000 * 16 + (a % 0x10000 - 0x200) / 0x80, (a % 0x10000 - 0x200) % 0x80)
  else none

/-- The range of an INDEX by TARGET (R154). -/
def targetRange (t : Nat) : Nat := if t = 1 then 48 else if t = 2 ∨ t = 4 then 8 else if t = 3 then 96 else 128

/-- SUP_CMD.RETURN may be accepted (R171). -/
def Dev.sliceReturnOk (d : Dev) (k : Nat) : Bool :=
  bitOf (d.fld LOOP.SUP_STATUS_FAULTY) k && d.sliceReady k && decide (dist (d.now + nsT 2000) (d.reg64 LOOP.SUP_RETURN_AT) ≥ 0)

/-- What refuses a write of a LOOP register beside its fields' ranges: stage, bit and cause. -/
def Dev.loopRefusals (d : Dev) (a : Nat) (v : Word) : List (Nat × Nat × Cause) :=
  let n := v.toNat
  if a = LOOP.SUP_CMD then (if bitOf n 8 ∧ ¬ d.sliceReturnOk (n % 8) then [(3, 8, .state)] else [])
  else if LOOP.CG_CFG 0 ≤ a ∧ a < LOOP.CG_CFG 8 ∧ a % 0x10 = 0 then
    (if bitsOf n 14 8 ≥ targetRange (n % 8) then [(3, 14, .range)] else [])
  else match slotAt a with
    | none => []
    | some (s, off) =>
      if off = 0x34 then (if bitsOf n 14 8 ≥ targetRange (n % 8) then [(3, 14, .range)] else [])
      else if off = 0x40 then (if bitOf n 1 ∧ d.slotMode s = 1 then [(3, 1, .state)] else [])
      else []

/-- Every history of a slot zero (R144). -/
def Dev.zeroHist (d : Dev) (s : Nat) : Dev :=
  d.setSlot s { d.slot s with e1 := 0, e2 := 0, e3 := 0, e4 := 0, y1 := 0, y2 := 0, y3 := 0, y4 := 0, p := 0 }

/-- The action of an accepted write of a LOOP register. -/
def Dev.loopEffect (d : Dev) (a : Nat) (v : Word) : Dev :=
  let n := v.toNat
  if a = LOOP.SUP_CMD then
    d.when (bitOf n 8) fun d =>
      { d with sliceRet := (d.sliceRet.filter fun p => p.1 ≠ n % 8) ++ [(n % 8, d.reg64 LOOP.SUP_RETURN_AT)] }
  else match slotAt a with
    | none => d
    | some (s, off) =>
      if off ≠ 0x40 then d
      else
        let d := d.when (bitOf n 0) fun d => d.setNum (LOOP.SLOT_COUNTS s) 0
        let d := d.when (bitOf n 1) fun d => d.zeroHist s
        d.when (bitOf n 2) fun d => d.setSlot s { d.slot s with spJump := true }

/-- The sources that deliver to a target: slots that are not OFF, and enabled groups. [Log 63 DEDUCED] -/
def Dev.sources (d : Dev) (target index : Nat) : Nat :=
  ((List.range 32).filter fun s => decide (d.slotMode s ≠ 0) && decide (d.fld (LOOP.SLOT_OUT_CFG_TARGET s) = target)
    && decide (d.fld (LOOP.SLOT_OUT_CFG_INDEX s) = index)).length
  + ((List.range 8).filter fun g => d.cgOn g && decide (d.fld (LOOP.CG_CFG_TARGET g) = target)
    && decide (d.fld (LOOP.CG_CFG_INDEX g) = index)).length

/-- What refuses a commit of slot `s` (R143, R149, R151, R154); `e` is the device as the commit would leave it.
[Log 63 DEDUCED] -/
def Dev.slotCommit (e : Dev) (s : Nat) : Option Cause :=
  let t := e.fld (LOOP.SLOT_OUT_CFG_TARGET s)
  let i := e.fld (LOOP.SLOT_OUT_CFG_INDEX s)
  if e.int (LOOP.SLOT_INT_LO s) > e.int (LOOP.SLOT_INT_HI s) ∨ e.int (LOOP.SLOT_OUT_LO s) > e.int (LOOP.SLOT_OUT_HI s) then some .range
  else if t = 4 ∧ (e.members i).length > 8 then some .range
  else if 1 ≤ t ∧ t ≤ 3 ∧ e.slotMode s ≠ 0 ∧ e.sources t i > 1 then some .state
  else if e.fld (LOOP.SLOT_SP_CFG_SRC s) = 2 ∧ e.fld (PINMUX.PIN_OWN_FUNC (96 + e.fld (LOOP.SLOT_SP_CFG_PULSE_PIN s))) ≠ 5 then some .state
  else none

/-- What refuses a commit of group `g` of block 0x1A (R154). [Log 63 DEDUCED] -/
def Dev.supCommit (e : Dev) (g : Nat) : Option Cause :=
  if g < 8 then
    let t := e.fld (LOOP.CG_CFG_TARGET g)
    if e.cgOn g ∧ 1 ≤ t ∧ e.sources t (e.fld (LOOP.CG_CFG_INDEX g)) > 1 then some .state else none
  else none

/-- What block 0x1A takes up after a commit of group `g`. -/
def Dev.supApplied (d : Dev) (g : Nat) : Dev :=
  if g < 8 then (if d.cgOn g then d else d.setCgrp g {})
  else if g < 40 then (d.oscReset (g - 8)).setFld (LOOP.OSC_STATUS_FIRES (g - 8)) 0
  else d

/-- The shadows of a LOOP slot block latched at a time (R159): an evaluation still to come of a sample at or before it is taken when
it is made. [Log 155 DEDUCED] -/
def Dev.loopSnap (d : Dev) (b : Nat) (t : Time) : Dev :=
  d.each ((List.range 16).map (16 * b + ·)) fun d s =>
    let x := d.slot s
    let d := d.setSlot s { x with snapT := if d.slotPending s t then some t else none }
    match x.evs.find? fun e => decide (dist e.t t ≥ 0) && decide (dist x.start e.t ≥ 0) with
    | some e => (d.setNum (LOOP.SNAP_OUT s) (low 32 e.u)).setNum (LOOP.SNAP_SP s) (low 24 e.r)
    | none => (d.setNum (LOOP.SNAP_OUT s) 0).setNum (LOOP.SNAP_SP s) 0

end Sys2Proof.Machine
end

