-- ==== Sys2Proof/Machine/Trace.lean ====
section
/-!
DEFINITION. Machine/Trace.lean: the four trace units (spec/07, R172 to R175, R178).
-/
namespace Sys2Proof.Machine

/-- TRC_STATUS.STATE: 0 IDLE, 1 ARMED, 2 TRIGGERED, 3 DONE, 4 STREAMING. -/
def Dev.trcState (d : Dev) (u : Nat) : Nat := d.fld (LOOP.TRC_STATUS_STATE u)
def Dev.trcMode (d : Dev) (u : Nat) : Nat := d.fld (LOOP.TRC_CFG_MODE u)

/-- The latest value of a node at or before an instant: none while it does not exist yet, or a later one is still to come (R172). -/
def Dev.nodeValue (d : Dev) (node : Nat) (t : Time) : Option Nat :=
  let i := node % 128
  let ev := if d.slotPending i t then none else (d.slot i).evs.find? fun e => decide (dist e.t t ≥ 0)
  match node / 128 with
  | 0 => some 0
  | 1 =>
    if (d.adc i).conv.any fun m => decide (dist m.t t ≥ 0) then none
    else ((d.adc i).taken.find? fun m => decide (dist m.t t ≥ 0)).map fun m => m.num.toNat % 65536 * 65536 + m.word.toNat
  | 2 => ev.map fun e => low 32 e.r
  | 3 => ev.map fun e => low 32 e.e
  | 4 => ev.map fun e => low 32 e.u
  | 5 => ev.map fun e => low 32 (shrFloor e.yc 12)
  | 6 =>
    if d.groupWaits i t || (d.cgrp i).want.any fun w => decide (dist w t ≥ 0) then none
    else ((d.cgrp i).made.find? fun x => x.won && decide (dist x.t t ≥ 0)).map fun x => low 32 x.u
  | _ => some 0

/-- The three nodes of a unit. -/
def Dev.trcNode (d : Dev) (u j : Nat) : Nat :=
  d.fld (if j = 0 then LOOP.TRC_NODES_NODE0 u else if j = 1 then LOOP.TRC_NODES_NODE1 u else LOOP.TRC_NODES_NODE2 u)

/-- The level trigger of a record (R174). -/
def Dev.levelHit (d : Dev) (u : Nat) (v : Nat → Nat) : Bool :=
  let x := sext 32 (v (d.fld (LOOP.TRC_TRIG_NODE u)))
  let l := d.int (LOOP.TRC_LEVEL u)
  if d.flag (LOOP.TRC_TRIG_SENSE u) then decide (x < l) else decide (x > l)

/-- A capture or stream starts at index 0 at a time (R174, R175). -/
def Dev.trcRestart (d : Dev) (u : Nat) (t : Time) : Dev :=
  let st := if d.trcMode u = 0 then 0 else if d.trcMode u = 1 then 1 else 4
  let x := d.trc u
  let d := d.setTrc u { start := t, buf := x.buf }
  d.setNum (LOOP.TRC_STATUS u) st

/-- The unit reaches POST records after its trigger (R174). -/
def Dev.trcDone (d : Dev) (u : Nat) : Dev :=
  if d.trcState u = 2 ∧ (d.trc u).since ≥ d.fld (LOOP.TRC_CFG_POST u) then
    (d.setFld (LOOP.TRC_STATUS_STATE u) 3).setTrc u { d.trc u with due := [] }
  else d

/-- A record of a SINGLE capture (R174). -/
def Dev.trcSingle (d : Dev) (u : Nat) (t : Time) (v : Nat → Nat) (rec_ : List Byte) : Dev :=
  let i := d.fld (LOOP.TRC_STATUS_WPTR u)
  let d := d.writeMem loopAgent (0x30100000 + 0x10000 * u + 16 * i) rec_
  let d := d.setFld (LOOP.TRC_STATUS_WPTR u) (i + 1)
  let d := d.when (decide (i = 4095)) fun d => d.setFld (LOOP.TRC_STATUS_WRAPPED u) 1
  let x := d.trc u
  if d.trcState u = 2 then (d.setTrc u { x with since := x.since + 1 }).trcDone u
  else
    let src := d.fld (LOOP.TRC_CFG_TRIG_SRC u)
    let hit := x.force || (decide (src = 1) && d.levelHit u v) || (decide (src = 2) && x.event)
    if !hit then d
    else
      let d := (d.setFld (LOOP.TRC_STATUS_STATE u) 2).setFld (LOOP.TRC_STATUS_TRIG_IDX u) i
      let d := d.setReg64 (LOOP.TRC_TRIG_TIME u) t
      (d.setTrc u { x with force := false, event := false, since := 0 }).trcDone u

/-- A record of a stream (R175). -/
def Dev.trcStream (d : Dev) (u : Nat) (rec_ : List Byte) : Dev :=
  let x := d.trc u
  if x.buf.length ≥ 4096 then d.incNum (LOOP.TRC_DROPS u)
  else
    let q := d.num (LOOP.TRC_STREAM_SEQ u) + x.buf.length
    (d.writeMem loopAgent (0x30100000 + 0x10000 * u + 16 * (q % 4096)) rec_).setTrc u { x with buf := x.buf ++ [rec_] }

/-- TRACE_RECORD (R172 to R175): a unit writes its oldest due record once the values of its nodes exist. [Log 68 DEDUCED] -/
def execTraceRecord (u : Fin 4) (s : State) : Host.Outcome State Fault Refusal :=
  s.onDev fun d =>
    let x := d.trc u
    match x.due with
    | [] => d
    | t :: rest =>
      match d.nodeValue (d.trcNode u 0) t, d.nodeValue (d.trcNode u 1) t, d.nodeValue (d.trcNode u 2) t with
      | some a, some b, some c =>
        let v := fun j => if j = 0 then a else if j = 1 then b else c
        let rec_ := toBytes 4 (nsOf t) ++ toBytes 4 a ++ toBytes 4 b ++ toBytes 4 c
        let d := d.setTrc u { x with due := rest }
        if d.trcState u = 4 then d.trcStream u rec_
        else if d.trcState u = 1 ∨ d.trcState u = 2 then d.trcSingle u t v rec_ else d
      | _, _, _ => d

/-- TRACE_STREAM_WRITE (R175): the oldest buffered record of a stream goes to its ring in DRAM. -/
def execTraceStreamWrite (u : Fin 4) (s : State) : Host.Outcome State Fault Refusal :=
  s.onDev fun d =>
    let x := d.trc u
    match x.buf with
    | [] => d
    | r :: rest =>
      let base := (d.reg64 (LOOP.TRC_DRAM u)).toNat % 2 ^ 40
      let size := d.fld (LOOP.TRC_DRAM_SIZE u)
      let a := base + 16 * (d.num (LOOP.TRC_STREAM_SEQ u) % 2 ^ size)
      d.when (d.memMapped a 16) fun d =>
        ((d.writeMem loopAgent a r).setTrc u { x with buf := rest }).wrapNum (LOOP.TRC_STREAM_SEQ u)

/-- A Junction event reaches the trace units that select it (R174, R395). -/
def Dev.traceEvent (d : Dev) (id : Nat) : Dev :=
  d.each (List.range 4) fun d u =>
    d.when (decide (d.trcState u = 1) && decide (d.fld (LOOP.TRC_CFG_TRIG_SRC u) = 2) && decide (d.fld (LOOP.TRC_TRIG_EVENT u) = id)) fun d =>
      d.setTrc u { d.trc u with event := true }

/-! ### Writes and commits (R172, R174, R175, R178) -/

/-- The action of an accepted write of TRC_CMD (R174). [Log 68 DEDUCED] -/
def Dev.traceEffect (d : Dev) (a : Nat) (v : Word) : Dev :=
  if LOOP.TRC_CFG 0 ≤ a ∧ a < LOOP.TRC_CFG 4 ∧ a % 0x40 = 0x18 then
    let u := (a - LOOP.TRC_CFG 0) / 0x40
    let n := v.toNat
    let d := d.when (bitOf n 2 && decide (d.trcMode u = 1)) fun d => d.trcRestart u d.nowNs
    let d := d.when (bitOf n 1 && decide (d.trcState u = 1)) fun d => d.setTrc u { d.trc u with force := true }
    d.when (bitOf n 0 && decide (d.trcState u ≠ 0)) fun d => (d.setFld (LOOP.TRC_STATUS_STATE u) 3).setTrc u { d.trc u with due := [] }
  else d

/-- An INDEX lies in the range of its KIND (R172). -/
def nodeOk (node : Nat) : Bool :=
  let k := node / 128
  let i := node % 128
  if k = 0 then true else if k = 1 then decide (i < 96) else if k = 6 then decide (i < 8) else decide (i < 32)

/-- What refuses a commit of trace unit `u` (R172, R175); `e` is the device as the commit would leave it. -/
def Dev.traceCommit (d e : Dev) (u : Nat) : Option Cause :=
  let mode := e.trcMode u
  let base := (e.reg64 (LOOP.TRC_DRAM u)).toNat % 2 ^ 40
  let len := 16 * 2 ^ e.fld (LOOP.TRC_DRAM_SIZE u)
  if mode ≠ 0 ∧ (e.trcNode u 0 / 128 = 0 ∨ ¬ nodeOk (e.trcNode u 0) ∨ ¬ nodeOk (e.trcNode u 1) ∨ ¬ nodeOk (e.trcNode u 2)) then some .range
  else if mode = 2 ∧ d.dramState 0 ≠ 3 ∧ d.dramState 1 ≠ 3 then some .state
  else if mode = 2 ∧ (base % len ≠ 0 ∨ base < dramBase ∨ base + len > dramBase + d.dramBytes) then some .range
  else none

/-- What a trace unit takes up after a commit; `old` is the device before it (R174, R175). [Log 68 DEDUCED] -/
def Dev.traceApplied (old d : Dev) (u : Nat) (t : Time) : Dev :=
  let diff := decide (old.num (LOOP.TRC_NODES u) ≠ d.num (LOOP.TRC_NODES u)) || fldDiff old d (LOOP.TRC_CFG_DECIM u) || fldDiff old d (LOOP.TRC_CFG_MODE u)
  let d := d.when (decide (old.trcMode u = 0) && decide (d.trcMode u ≠ 0)) fun d => d.setNum (LOOP.TRC_DROPS u) 0
  if diff then d.trcRestart u t else d.trcDone u

end Sys2Proof.Machine
end

