-- ==== Sys2Proof/Machine/Junction.lean ====
section
/-!
DEFINITION. Machine/Junction.lean: the event router (spec/17, R393 to R398, R418): the delivery of the events that wait, and the
forwarding over the tie link with the frames that wait for their acknowledgement (R412).
-/
namespace Sys2Proof.Machine

/-! ### Event numbers (R393, R394) -/

/-- An ID that a source raises: the others are reserved. -/
def eventIdUsed (id : Nat) : Bool :=
  decide (id < 18) || (decide (64 ≤ id) && decide (id < 1218)) || (decide (1256 ≤ id) && decide (id < 1536))

/-! ### Tie-link frames (R411, R412, R418) -/

/-- This device's position, and the number of devices. -/
def Dev.tiePos (d : Dev) : Nat := d.fld TIE.TIE_CFG_POS
def Dev.tieN (d : Dev) : Nat := d.fld TIE.TIE_CFG_N

/-- The tie link is in use. -/
def Dev.tieOn (d : Dev) : Bool := d.flag TIE.TIE_CFG_ENABLE

/-- The other positions. -/
def Dev.tiePeers (d : Dev) : List Nat := (List.range d.tieN).filter (· ≠ d.tiePos)

/-- The lane pair frames leave on: the one to the next device while that hop is UP, else the other (log entry 40).
[Log 40 DESIGN CHOICE] -/
def Dev.tieLane (d : Dev) : Nat := if d.fld TIE.TIE_STATUS_NEXT = 2 ∨ d.fld TIE.TIE_STATUS_PREV ≠ 2 then 0 else 1

/-- A message sent by the command in progress. -/
def Dev.send (d : Dev) (m : OutMsg) : Dev := { d with sent := d.sent ++ [m] }

/-- Frame types (R412), numbered in the order of the table (log entry 40). [Log 40 DESIGN CHOICE] -/
def FRAME.ECHO_REQ : Nat := 1
def FRAME.ECHO_RSP : Nat := 2
def FRAME.SYNC : Nat := 3
def FRAME.PLAN : Nat := 4
def FRAME.EVENT : Nat := 5
def FRAME.RA_REQ : Nat := 6
def FRAME.RA_RSP : Nat := 7
def FRAME.ACK : Nat := 8

/-- A frame that is sent again until it is acknowledged (R412). [Log 40 DESIGN CHOICE, 138 DEDUCED] -/
def Dev.sendAcked (d : Dev) (typ peer : Nat) (body : List Byte) : Dev :=
  let f : TieFrame := { seq := d.tie.seq, typ := typ, peer := peer, body := body, nextAt := d.now + nsT 1000 }
  ({ d with tie := { d.tie with seq := d.tie.seq + 1, unacked := d.tie.unacked ++ [f] } } : Dev).send (.frame d.tieLane typ f.seq body)

/-- An EVENT frame of entry `j` to a peer, unless an earlier one of the entry is not acknowledged yet (R418). [Log 138 DEDUCED] -/
def Dev.forwardTo (d : Dev) (j q : Nat) : Dev :=
  let body := [BitVec.ofNat 8 d.tiePos, BitVec.ofNat 8 j]
  if d.tie.unacked.any (fun f => f.typ = FRAME.EVENT ∧ f.peer = q ∧ f.body = body) then d else d.sendAcked FRAME.EVENT q body

/-- A raise forwarded to every peer by the entries that name its source (R418). -/
def Dev.forward (d : Dev) (id : Nat) : Dev :=
  d.when d.tieOn fun d =>
    d.each (List.range 32) fun d j =>
      d.when (d.flag (JUNCTION.TIE_FWD_VALID j) && decide (d.fld (JUNCTION.TIE_FWD_SOURCE j) = id)) fun d =>
        d.each d.tiePeers fun d q => d.forwardTo j q

/-! ### Delivery (R395, R396) -/

/-- The agent ID an EVENT record carries (R403). -/
def Raised.recAgent (r : Raised) : AgentId :=
  if 800 ≤ r.id ∧ r.id < 928 then 0x0200 + BitVec.ofNat 16 ((r.id - 800) / 2) else r.agent

/-- The EVENT record of a raise (R403, R404). -/
def Raised.hostRec (r : Raised) (ring : Nat) : HostRec :=
  { ring := ring, typ := 1, event := BitVec.ofNat 16 r.id, agent := r.recAgent, time := r.stamp
    payload := toBytes 2 r.value.toNat }

/-- A delivery to the cores of a mask: a pair in lockstep is reached once (R395). -/
def Dev.deliverCores (d : Dev) (mask line : Nat) : Dev :=
  d.each [0, 1, 2, 3] fun d c =>
    d.when (bitOf mask c && !(d.lockstep c && decide (c % 2 = 1) && bitOf mask (c - 1))) fun d => d.deliverLine c line

/-- A raise delivered to the places its ROUTE word names, and to the blocks that select it by its ID (R395). -/
def Dev.deliverEvent (d : Dev) (r : Raised) : Dev :=
  let k := JUNCTION.ROUTE r.id
  let d := d.setMapBit (JUNCTION.RAISED 0) r.id true
  let d := d.deliverCores (d.fld (JUNCTION.ROUTE_CORES r.id)) (d.fld (JUNCTION.ROUTE_LINE r.id))
  let d := d.when (bitOf (d.num k) 27) fun d => d.deliverThread (d.fld (JUNCTION.ROUTE_THREAD r.id)) (d.fld (JUNCTION.ROUTE_INPUT r.id))
  let d := d.when (bitOf (d.num k) 31) fun d => d.hostEnqueue (r.hostRec (d.fld (JUNCTION.ROUTE_RING r.id)))
  let d := d.when (bitOf (d.num k) 23) fun d => d.forward r.id
  ((d.dmaEvent r.id).traceEvent r.id).railEvent r.id

/-- The raise delivered next: of those stamped first the one of the lowest ID, and of one ID the oldest (R396).
[Log 119 DEDUCED] -/
def nextRaise : List Raised → Option Raised
  | [] => none
  | r :: t =>
    match nextRaise t with
    | none => some r
    | some q => if q.stamp = r.stamp ∧ q.id < r.id then some q else some r

/-- EVENT_RAISE (R395, R396): the next event that waits is delivered, once its nanosecond has ended. [Log 119 DEDUCED] -/
def execEventRaise (s : State) : Host.Outcome State Fault Refusal :=
  s.onDev fun d =>
    match nextRaise d.events with
    | none => d
    | some r =>
      if r.stamp = floorNs d.now then { d with answer := .waits }
      else ({ d with events := d.events.erase r } : Dev).deliverEvent r

/-! ### Writes and commits (R397, R398, R423) -/

/-- What refuses a write of a JUNCTION register beside its fields' ranges: stage, bit and cause. -/
def junctionRefusals (a : Nat) (v : Word) : List (Nat × Nat × Cause) :=
  if a = JUNCTION.SW_RAISE then
    let id := bitsOf v.toNat 26 16
    (if id < 1256 ∨ 1407 < id then [(2, 26, .range)] else [])
  else []

/-- The action of an accepted write of a JUNCTION register. -/
def Dev.junctionEffect (d : Dev) (agent : AgentId) (a : Nat) (v : Word) : Dev :=
  if a = JUNCTION.SW_RAISE then d.raiseV (bitsOf v.toNat 26 16) (v.setWidth 16) agent else d

end Sys2Proof.Machine
end

