-- ==== Sys2Proof/Machine/LinkRegs.lean ====
section
/-!
DEFINITION. Machine/LinkRegs.lean: the registers of the HOST, TIE and DEBUG blocks (spec/17, R403, R408, R411 to R426): what refuses
their writes, what an accepted write does, and what their commit groups take up.
-/
namespace Sys2Proof.Machine

/-! ### HOST (R403, R405, R408, R424) -/

/-- The ring whose registers hold an address, with the register's offset. -/
def hostRingAt (a : Nat) : Option (Nat × Nat) :=
  if HOST.RING_CTRL 0 ≤ a ∧ a < HOST.RING_CTRL 8 then some ((a - HOST.RING_CTRL 0) / 0x40, (a - HOST.RING_CTRL 0) % 0x40) else none

/-- A ring counts as stopped while its EN is 0 (R424). -/
def Dev.hostRingStopped (d : Dev) (a : Nat) : Bool :=
  match hostRingAt a with
  | some (r, _) => !d.flag (HOST.RING_CTRL_EN r)
  | none => true

/-- What refuses a write of a HOST register beside its fields' ranges: stage, bit and cause. `v` is the whole value of a 64-bit
register. [Log 130 DEDUCED] -/
def Dev.hostRefusals (d : Dev) (a v : Nat) : List (Nat × Nat × Cause) :=
  match hostRingAt a with
  | some (r, 0x08) => if v % (32 * 2 ^ d.fld (HOST.RING_CTRL_SIZE r)) ≠ 0 then [(3, 63, .range)] else []
  | some (r, 0x14) =>
    let tail := d.reg (HOST.RING_TAIL r)
    if (BitVec.ofNat 32 v - tail).toNat > (d.reg (HOST.RING_HEAD r) - tail).toNat then [(3, 31, .range)] else []
  | some _ => []
  | none => if HOST.TEL_LIST 0 ≤ a ∧ a < HOST.TEL_LIST 64 ∧ v % 4 ≠ 0 then [(2, 15, .range)] else []

/-- The action of an accepted write of a HOST register: a doorbell, or the start of a ring (R403, R424). -/
def Dev.hostEffect (d : Dev) (a : Nat) (old v : Word) : Dev :=
  if a = HOST.DOORBELL then d.each (setBits 8 v.toNat) fun d n => d.raise (1195 + n)
  else match hostRingAt a with
    | some (r, 0x00) =>
      if v.toNat / 2 ^ 31 = 1 ∧ old.toNat / 2 ^ 31 = 0 then
        let d := (d.setNum (HOST.RING_HEAD r) 0).setNum (HOST.RING_TAIL r) 0
        { d with ringIrqs := Tab.set {} r {} d.ringIrqs }
      else d
    | _ => d

/-- Telemetry after a commit at `at_`: it stops, or its schedule starts with an occurrence one period later, where EN became 1 or
the period changed (R408; log entry 43). [Log 43 DEDUCED] -/
def Dev.telApplied (old d : Dev) (at_ : Time) : Dev :=
  let p := d.fld HOST.TEL_CTRL_PERIOD_US * 64000
  if ¬ d.flag HOST.TEL_CTRL_EN then { d with telSched := none }
  else if d.telSched.isSome ∧ old.fld HOST.TEL_CTRL_PERIOD_US = d.fld HOST.TEL_CTRL_PERIOD_US then d
  else
    let t := floorNs at_
    { d with telSched := some { t0 := t, p := p, k := 1, target := t + BitVec.ofNat 64 p } }

/-! ### TIE (R411, R416, R417, R419, R425) -/

/-- This device is the time master: alone, or at MASTER's position (R411, R416). -/
def Dev.tieMaster (d : Dev) : Bool := !d.tieOn || decide (d.tiePos = d.fld TIE.TIE_CFG_MASTER)

/-- TIE_CFG counts as stopped while both hops are DOWN (R425). -/
def Dev.tieStopped (d : Dev) : Bool := decide (d.fld TIE.TIE_STATUS_NEXT = 0) && decide (d.fld TIE.TIE_STATUS_PREV = 0)

/-- What refuses a write of a TIE register beside its fields' ranges: stage, bit and cause. -/
def Dev.tieRefusals (d : Dev) (a v : Nat) : List (Nat × Nat × Cause) :=
  if a = TIE.TIE_CFG then (if bitsOf v 5 4 ≥ bitsOf v 2 0 then [(3, 5, .range)] else [])
  else if a = TIE.RA_CTRL then
    (if v % 4 = d.tiePos then [(3, 1, .range)] else []) ++ (if bitOf v 31 ∧ d.flag TIE.RA_STATUS_BUSY then [(3, 31, .state)] else [])
  else if TIE.PLAN_T 0 ≤ a ∧ a < TIE.PLAN_T 16 then (if d.tieMaster then [] else [(3, 63, .state)])
  else []

/-- A remote access begins (R419): an RA_REQ frame of address, data, direction, target and requester. [Log 40 DESIGN CHOICE] -/
def Dev.raStart (d : Dev) (v : Word) : Dev :=
  let q := v.toNat % 4
  let body := toBytes 4 (d.num TIE.RA_ADDR) ++ toBytes 4 (d.num TIE.RA_DATA)
    ++ [BitVec.ofNat 8 (b2n (bitOf v.toNat 4)), BitVec.ofNat 8 q, BitVec.ofNat 8 d.tiePos]
  let d := (d.setFld TIE.RA_STATUS_BUSY 1).setFld TIE.RA_STATUS_DONE 0
  let d := (d.setFld TIE.RA_STATUS_RESULT 0).setFld TIE.RA_STATUS_CAUSE 0
  ({ d with tie := { d.tie with raSince := d.now, raPeer := q, raWrite := bitOf v.toNat 4 } } : Dev).sendAcked FRAME.RA_REQ q body

/-- The answer to a peer's remote access at address `a`: data, RESULT and CAUSE (R419). -/
def Dev.raRespond (d : Dev) (p a data result cause : Nat) : Dev :=
  d.sendAcked FRAME.RA_RSP p (toBytes 4 a ++ toBytes 4 data ++ [BitVec.ofNat 8 result, BitVec.ofNat 8 cause])

/-- A peer's write that waited for the Ledger has been made or refused: it is answered (R60, R419). [Log 137 DEDUCED] -/
def Dev.raAnswered (d : Dev) (agent : AgentId) : Dev :=
  let p := agent.toNat % 0x100
  match if agent.toNat / 0x100 = 7 then Tab.find p d.tie.raHeld else none with
  | none => d
  | some a =>
    let d' : Dev := { d with tie := { d.tie with raHeld := Tab.del p d.tie.raHeld } }
    match d.answer with
    | .rejected c => d'.raRespond p a 0 1 c.code
    | _ => d'.raRespond p a 0 0 0

/-- The action of an accepted write of a TIE register; a device that TIE_CFG makes follow anew is disciplined by no SYNC yet. -/
def Dev.tieEffect (d : Dev) (a : Nat) (v : Word) : Dev :=
  if a = TIE.TIE_CFG then
    ({ d with tie := { d.tie with echoAt := d.now, syncAt := d.now, lastSync := d.now, run := 0 } } : Dev).setFld MILEPOST.MP_STATUS_TIE_FOLLOWER 0
  else if a = TIE.RA_CTRL then d.when (bitOf v.toNat 31) fun d => d.raStart v
  else d

/-- The grid origins of the timers brought up to date: a running timer meets its new origin at its next boundary, and one that
waited for it starts (R203, R417). [Log 135 DEDUCED, 136 DEDUCED] -/
def Dev.planRefresh (d : Dev) : Dev :=
  d.when d.tie.planned fun d =>
    d.each (List.range 48) fun d t =>
      if ¬ d.flag (TIE.TIMER_PLAN_VALID t) then { d with planT0 := Tab.del t d.planT0 }
      else
        let g := d.reg64 (TIE.PLAN_T (d.fld (TIE.TIMER_PLAN_GRID t))) + tks (d.num (TIE.TIMER_OFS t))
        let d : Dev := { d with planT0 := Tab.put t g d.planT0 }
        let x := d.tim t
        if d.fld (PWM.TIM_CFG_SYNC t) ≠ 1 then d
        else match x.wantStart with
          | some w => d.setTim t { x with wantStart := none, startAt := some (gridFrom g (d.timP t) (maxT w d.now)) }
          | none =>
            if x.sched.t0 = g then d
            else d.setTim t { x with sched := { x.sched with t0 := g, k := (x.sched.target - g).toNat / max 1 x.sched.p } }

/-- The plan of the master sent to every follower: each grid staged, or all where none is, with its base, the time of the apply and
the follower (R416); `e` is the device as the commit would leave it. [Log 40 DESIGN CHOICE] -/
def Dev.sendPlan (d e : Dev) (grids : List Nat) (at_ : Time) : Dev :=
  d.each d.tiePeers fun d q =>
    d.each (if grids.isEmpty then List.range 16 else grids) fun d g =>
      d.sendAcked FRAME.PLAN q ([BitVec.ofNat 8 g] ++ toBytes 8 (e.reg64 (TIE.PLAN_T g)).toNat ++ toBytes 8 at_.toNat ++ [BitVec.ofNat 8 q])

/-- What the TIE block takes up after a commit of group `g` (R416, R417). -/
def Dev.tieApplied (d : Dev) (g : Nat) : Dev :=
  if g = 0 then (({ d with tie := { d.tie with planned := true } } : Dev).planRefresh).raise 1217 else d.planRefresh

/-! ### DEBUG (R420 to R422, R426) -/

/-- A write of the DEBUG block from the path that DBG_CTRL does not select: the host's while PATH is TAP, the TAP's while it is
HOST (R420). [Log 126 DEDUCED] -/
def Dev.debugOther (d : Dev) (agent : AgentId) : Bool :=
  decide (agent = (if d.flag DEBUG.DBG_CTRL_PATH then 0x0500 else 0x0400))

/-- What refuses a write of a DEBUG register beside its fields' ranges: stage, bit and cause. -/
def Dev.debugRefusals (d : Dev) (agent : AgentId) (a v : Nat) : List (Nat × Nat × Cause) :=
  (if d.debugOther agent then [(3, 31, .state)] else []) ++
  (if a = DEBUG.DBG_CORE ∧ (v % 8 = 2 ∨ v % 8 = 3) ∧ d.coreState (bitsOf v 5 4) ≠ 4 then [(3, 5, .state)] else [])

/-- A core stopped by DBG_CORE: at once between instructions, else after the one in hand (R422). -/
def Dev.haltCore (d : Dev) (c : Nat) : Dev :=
  let cs := d.core c
  if d.coreState c = 3 then (d.putCore c { cs with asleep := true }).setCoreState c 4
  else if d.coreState c ≠ 2 then d
  else if cs.req.isSome ∨ cs.parting ∨ cs.joinSince.isSome then d.putCore c { cs with haltReq := true }
  else d.setCoreState c 4

/-- A lockstep pair stopped at one retired count (R422): the later core's, which the other one reaches first. [Log 126 DEDUCED] -/
def Dev.haltPair (d : Dev) (p : Nat) : Dev :=
  let n0 := (d.core (2 * p)).retired
  let n1 := (d.core (2 * p + 1)).retired
  let busy := (d.core (2 * p)).req.isSome || (d.core (2 * p + 1)).req.isSome
  let n := max n0 n1 + (if busy then 1 else 0)
  let d := d.putPair p { d.pair p with haltAt := some n }
  let d := if n0 = n ∨ d.coreState (2 * p) = 3 then d.haltCore (2 * p) else d
  if n1 = n ∨ d.coreState (2 * p + 1) = 3 then d.haltCore (2 * p + 1) else d

/-- A halted core goes on (R422). -/
def Dev.resumeCore (d : Dev) (c : Nat) (step : Bool) : Dev :=
  let cs := d.core c
  (d.putCore c { cs with asleep := false, haltReq := step }).setCoreState c (if cs.asleep then 3 else 2)

/-- DBG_CORE's operation on a core, or on both cores of a lockstep pair (R422). [Log 126 DEDUCED] -/
def Dev.debugCore (d : Dev) (c op : Nat) : Dev :=
  if op = 1 then (if d.lockstep c then d.haltPair (c / 2) else d.haltCore c)
  else if op = 2 ∨ op = 3 then
    let step := decide (op = 3)
    if d.lockstep c then
      let p := c / 2
      let n := max (d.core (2 * p)).retired (d.core (2 * p + 1)).retired
      let d := d.putPair p { d.pair p with haltAt := if step then some (n + 1) else none }
      (d.resumeCore (2 * p) false).resumeCore (2 * p + 1) false
    else d.resumeCore c step
  else d

end Sys2Proof.Machine
end

