-- ==== Sys2Proof/Machine/Nvm.lean ====
section
/-!
DEFINITION. Machine/Nvm.lean: the configuration flash, the journal and the waypoint sector (spec/03, R71, R72, R83 to R85, R89 to R93).
-/
namespace Sys2Proof.Machine

/-! ### Flash bytes (R71, R72) -/

/-- A byte of the flash; one that was never programmed reads 0xFF. [Log 42 PRESUMED, 81 DESIGN CHOICE] -/
def Dev.nor (d : Dev) (a : Nat) : Byte := Tab.get 0xFF a d.flash.nor

/-- `n` bytes of the flash. -/
def Dev.norBytes (d : Dev) (a n : Nat) : List Byte := (List.range n).map fun i => d.nor (a + i)

/-- Bytes programmed: programming clears bits (log entry 42). [Log 42 PRESUMED] -/
def Dev.norProgram (d : Dev) : Nat → List Byte → Dev
  | _, [] => d
  | a, b :: t => ({ d with flash := { d.flash with nor := Tab.set 0xFF a (d.nor a &&& b) d.flash.nor } } : Dev).norProgram (a + 1) t

/-- A 4 KiB sector erased. -/
def Dev.norErase (d : Dev) (a : Nat) : Dev :=
  { d with flash := { d.flash with nor := d.flash.nor.filter fun x => x.1 / 4096 ≠ a / 4096 } }

/-- A sector holds no programmed byte. -/
def Dev.norBlank (d : Dev) (a : Nat) : Bool := !d.flash.nor.any fun x => x.1 / 4096 = a / 4096

/-- The fixed places of the layout (R72). -/
def flashCopy (b : Bool) : Nat := if b then 0x400000 else 0
def flashWaypoint : Nat := 0x800000
def flashJournal : Nat := 0x801000

/-! ### Journal entries (R83 to R85) -/

/-- The type byte of an entry. -/
def JType.code : JType → Nat
  | .persist => 1 | .mirror => 2 | .calib => 3 | .cpBegin => 4 | .cpEnd => 5

/-- The 63 bytes an append programs first (R83, R84). -/
def entryBytes (seq : Word) (typ : JType) (body : List Byte) : List Byte :=
  let head := toBytes 4 seq.toNat ++ [BitVec.ofNat 8 typ.code, 0x01, 0xFF, 0xFF]
    ++ body ++ List.replicate (48 - body.length) 0xFF
  head ++ toBytes 4 (crc32 head) ++ [0xFF, 0xFF, 0xFF]

/-- The entry at a flash address is applied: its marker is 0x00 and its CRC is right (R84). -/
def Dev.entryApplied (d : Dev) (a : Nat) : Bool :=
  decide (d.nor (a + 0x3F) = 0) && decide (ofBytes (d.norBytes (a + 0x38) 4) = crc32 (d.norBytes a 0x38))

/-- The sequence and the type code of the entry at an address. -/
def Dev.entrySeq (d : Dev) (a : Nat) : Nat := ofBytes (d.norBytes a 4)
def Dev.entryType (d : Dev) (a : Nat) : Nat := (d.nor (a + 4)).toNat

/-- The number of entries the journal has places for. -/
def Dev.jPlaces (d : Dev) : Nat := 64 * d.flash.jsect

/-- The flash address of a place of the journal. -/
def Dev.jAddr (d : Dev) (i : Nat) : Nat := flashJournal + 64 * (i % d.jPlaces)

/-- The sector a place lies in. -/
def Dev.jSector (d : Dev) (i : Nat) : Nat := i % d.jPlaces / 64

/-- JNL_STATUS follows the head; the sectors from the latest applied CP_BEGIN to the head are in use (R85). [Log 48 DEDUCED] -/
def Dev.showJournal (d : Dev) : Dev :=
  let h := d.jSector d.flash.headAt
  let used := (h + d.flash.jsect - d.flash.cpStart) % d.flash.jsect + 1
  let d := (d.setFld NVM.JNL_STATUS_HEAD h).setFld NVM.JNL_STATUS_FREE (d.flash.jsect - used)
  d.setFld NVM.JNL_STATUS_CHECKPOINTING (b2n (d.flash.cpSeq.isSome || d.flash.queue.any fun e => e.typ = .cpBegin ∨ e.typ = .cpEnd))

/-- Entries placed in the append queue. -/
def Dev.jQueue (d : Dev) (es : List JEntry) : Dev :=
  ({ d with flash := { d.flash with queue := d.flash.queue ++ es } } : Dev).showJournal

/-- The item of a CALIB body: block ID and index, and for a PWM bank the line (R85, R206). -/
def calibKey (b : List Byte) : Nat :=
  (b.getD 0 0).toNat * 0x10000 + (b.getD 1 0).toNat * 0x100 + (if (b.getD 0 0).toNat / 16 = 2 then (b.getD 2 0).toNat else 0)

/-- The newest CALIB body of each item once the entries that are still to be appended are (R85). [Log 48 DEDUCED] -/
def Dev.newestCalibs (d : Dev) : Tab (List Byte) :=
  let last := match d.flash.unmarked with | some (a, .calib) => [d.norBytes (a + 8) 32] | _ => []
  (last ++ (d.flash.queue.filter fun e => e.typ = .calib).map (·.body)).foldl (fun t b => Tab.put (calibKey b) b t) d.flash.calibs

/-- The CALIB entries of every truing result (R85). -/
def Dev.jCalib (d : Dev) : Dev := d.jQueue (d.trued.map fun x => { typ := .calib, body := x.2 })

/-! ### Appending (R84, R85) -/

/-- A place is erased. -/
def Dev.placeBlank (d : Dev) (i : Nat) : Bool := (d.norBytes (d.jAddr i) 64).all fun b => b = 0xFF

/-- An entry may be written at a place: it is erased, and before the first place of a sector the whole sector is (R85).
[Log 48 DEDUCED] -/
def Dev.placeReady (d : Dev) (i : Nat) : Bool :=
  d.placeBlank i && (decide (i % 64 ≠ 0) || d.norBlank (flashJournal + 4096 * d.jSector i))

/-- JOURNAL_APPEND (R84): bytes 0x00 to 0x3E of the next entry are programmed. MIRROR entries follow the others, from their own
queue (R62). An entry for which the head has no place waits. [Log 48 DEDUCED, 151 DESIGN CHOICE] -/
def execJournalAppend (s : State) : Host.Outcome State Fault Refusal :=
  s.onDev fun d =>
    let next : Option (JEntry × Dev) :=
      match d.flash.queue with
      | e :: rest => some (e, { d with flash := { d.flash with queue := rest } })
      | [] =>
        match d.led.norQ with
        | r :: rest => some ({ typ := .mirror, body := r.bytes }, { d with led := { d.led with norQ := rest } })
        | [] => none
    match next with
    | none => d
    | some (e, d') =>
      if d.flash.unmarked.isSome ∨ ¬ d.placeReady d.flash.headAt then { d with answer := .waits }
      else
        let seq := d.reg NVM.JNL_NEXT_SEQ
        let body :=
          match e.typ, d.flash.cpSeq with
          | .cpEnd, some q => toBytes 4 q.toNat ++ toBytes 4 d.flash.cpCount
          | _, _ => e.body
        let a := d.jAddr d.flash.headAt
        let d := (d'.norProgram a (entryBytes seq e.typ body)).wrapNum NVM.JNL_NEXT_SEQ
        { d with flash := { d.flash with unmarked := some (a, e.typ), headAt := (d.flash.headAt + 1) % d.jPlaces } }

/-- The bookkeeping of an applied entry (R85). -/
def Dev.entryDone (d : Dev) (a : Nat) (typ : JType) : Dev :=
  let f := d.flash
  match typ with
  | .cpBegin =>
    { d with flash := { f with cpSeq := some (BitVec.ofNat 32 (d.entrySeq a)), cpStart := (a - flashJournal) / 4096, cpCount := 0, since := f.since + 1 } }
  | .cpEnd =>
    let d := match f.cpSeq with | some q => d.setReg NVM.JNL_CP_SEQ q | none => d
    { d with flash := { f with cpSeq := none, since := 0 } }
  | .calib =>
    let b := d.norBytes (a + 8) 32
    { d with flash := { f with calibs := Tab.put (calibKey b) b f.calibs, cpCount := f.cpCount + 1, since := f.since + 1 } }
  | _ => { d with flash := { f with cpCount := f.cpCount + 1, since := f.since + 1 } }

/-- A sector holds an applied entry. -/
def Dev.sectorLive (d : Dev) (x : Nat) : Bool := (List.range 64).any fun i => d.entryApplied (d.jAddr (64 * x + i))

/-- The sector the head is about to enter and the next two ahead of it, where they are free but not erased (R85). Where the head has come
round to the sector of the latest CP_BEGIN, no sector is free: the journal is full. [Log 48 DEDUCED, 151 DESIGN CHOICE] -/
def Dev.toErase (d : Dev) : List Nat :=
  let h := d.jSector d.flash.headAt
  let full := decide (d.flash.headAt % 64 = 0) && decide (h = d.flash.cpStart) && d.sectorLive h
  let used := fun x => decide ((x + d.flash.jsect - d.flash.cpStart) % d.flash.jsect ≤ (h + d.flash.jsect - d.flash.cpStart) % d.flash.jsect)
  let first := if d.flash.headAt % 64 = 0 ∧ ¬ d.norBlank (flashJournal + 4096 * h) then [h] else []
  if full then [] else first ++ (([1, 2].map fun i => (h + i) % d.flash.jsect).filter fun x => !used x && !d.norBlank (flashJournal + 4096 * x))

/-- JOURNAL_ERASE_DONE (R85): the erase of the next sector ahead that is free completes. -/
def execJournalEraseDone (s : State) : Host.Outcome State Fault Refusal :=
  s.onDev fun d =>
    match d.toErase with
    | [] => d
    | x :: _ => ((d.norErase (flashJournal + 4096 * x)).incNum NVM.JNL_ERASES).showJournal

/-! ### The waypoint sector (R89) -/

/-- A waypoint is armed from the first global commit on, while its sector is erased. -/
def Dev.showArmed (d : Dev) : Dev :=
  d.setFld NVM.WP_STATUS_ARMED (b2n (decide (d.fld NVM.BOOT_STATUS_STATE = 2) && d.flag NVM.WP_STATUS_READY))

/-- WAYPOINT_ERASE_DONE (R89): READY sets and the waypoint is armed. [Log 48 DEDUCED] -/
def execWaypointEraseDone (s : State) : Host.Outcome State Fault Refusal :=
  s.onDev fun d => d.when d.flash.wpErase fun d =>
    let d := d.norErase flashWaypoint
    let d : Dev := { d with flash := { d.flash with wpErase := false } }
    ((d.setFld NVM.WP_STATUS_ERASING 0).setFld NVM.WP_STATUS_READY 1).showArmed

/-! ### Writes of the NVM registers (R93) -/

/-- FL_ADDR lies in the waypoint sector or the journal. [Log 150 DESIGN CHOICE] -/
def Dev.flashKept (d : Dev) : Bool :=
  let a := d.fld NVM.FL_ADDR_ADDR
  decide (flashWaypoint ≤ a) && decide (a < flashJournal + 4096 * d.flash.jsect)

/-- What refuses a write of an NVM register beside its fields' ranges: stage, bit and cause. -/
def Dev.nvmRefusals (d : Dev) (a : Nat) (v : Word) : List (Nat × Nat × Cause) :=
  let n := v.toNat
  if a = NVM.FL_CTRL then
    if (n % 16 = 2 ∨ n % 16 = 3) ∧ (d.flashKept ∨ d.flag NVM.FL_STATUS_BUSY ∨ d.fld NVM.BOOT_STATUS_STATE = 1) then [(3, 3, .state)] else []
  else if a = NVM.WP_SW_ADDR then (if n % 4 ≠ 0 ∨ n < 0x10000000 ∨ 0x10800000 ≤ n then [(2, 31, .range)] else [])
  else if a = NVM.WP_SW_LEN then (if n % 4 ≠ 0 ∨ n % 1024 > 956 then [(2, 9, .range)] else [])
  else []

/-- A flash operation asked for (R93). [Log 47 DEDUCED] -/
def Dev.flashStart (d : Dev) (agent : AgentId) (n : Nat) : Dev :=
  let op : Option FlOp := match n % 16 with | 1 => some .read | 2 => some .program | 3 => some .erase | 4 => some .check | _ => none
  match op with
  | none => d
  | some o =>
    let x : FlashOp := { op := o, addr := d.fld NVM.FL_ADDR_ADDR, len := d.fld NVM.FL_LEN_LEN
                         buf := (d.reg64 NVM.FL_BUF).toNat % 2 ^ 40, copyB := bitOf n 8, agent := agent }
    ({ d with flash := { d.flash with ops := d.flash.ops ++ [x] } } : Dev).setFld NVM.FL_STATUS_BUSY 1

end Sys2Proof.Machine
end

