-- ==== Sys2Proof/Machine/Fault.lean ====
section
/-!
DEFINITION. Machine/Fault.lean: the fault manager (spec/18, R434 to R438, R453): occurrences, safe states and their release, FAULT_N,
and the pins of a mismatched pair.
-/
namespace Sys2Proof.Machine

/-! ### Actions (R435, R436) -/

/-- The end of an action of the fault manager: where it entered a FAULT_ACTION record it is counted and raised (R435).
[Log 120 DEDUCED] -/
def Dev.acted (old d : Dev) : Dev :=
  let n := fun (x : Dev) => (x.led.fresh.filter fun r => r.kind = .faultAction).length
  d.when (decide (n old < n d)) fun d => (d.incFld FAULT.FM_STATUS_ACTIONS).raise 13

/-- The outputs that drive timing pin `p` brought up to date (R197). -/
def Dev.relevelPin (d : Dev) (p : Nat) : Dev :=
  d.each ((List.range 96).filter fun o => decide (d.phaseOf o = some p)) fun d o => d.relevel (d.leader o) d.now false

/-- One pin put in its safe state (R436). -/
def Dev.safePin (d : Dev) (p : Nat) : Dev :=
  let d : Dev := { d with safeRel := d.safeRel.erase p }
  if d.mapBit (FAULT.SAFE_NOW 0) p then d else (d.setMapBit (FAULT.SAFE_NOW 0) p true).relevelPin p

/-- Pins put in their safe states, with one record for each word that changes (R436). -/
def Dev.safePins (d : Dev) (ps : List Nat) : Dev :=
  let e := d.each (ps.filter (· < 160)) Dev.safePin
  e.each (List.range 5) fun e w =>
    let old := d.reg (FAULT.SAFE_NOW w)
    if e.reg (FAULT.SAFE_NOW w) = old then e else e.faultRec devAgent (FAULT.SAFE_NOW w) old

/-- The pins of a slot's or a group's target (R435). -/
def Dev.targetPins (d : Dev) (target index : Nat) : List Nat :=
  match target with
  | 1 => [2 * index, 2 * index + 1]
  | 2 => d.railPhases index
  | 3 => [index]
  | _ => []

/-- The pins of a slot's target (R435). -/
def Dev.slotPins (d : Dev) (s : Nat) : List Nat :=
  let t := d.fld (LOOP.SLOT_OUT_CFG_TARGET s)
  let i := d.fld (LOOP.SLOT_OUT_CFG_INDEX s)
  if t = 4 then d.targetPins (d.fld (LOOP.CG_CFG_TARGET i)) (d.fld (LOOP.CG_CFG_INDEX i)) else d.targetPins t i

/-- The pins the unit of a source drives (R435). -/
def Dev.unitPins (d : Dev) (src unit : Nat) : List Nat :=
  match src with
  | 0x0A => [unit]
  | 0x0C => [unit]
  | 0x0B => [2 * unit, 2 * unit + 1]
  | 0x09 => d.slotPins unit
  | 0x0D => d.railPhases unit
  | 0x13 => (List.range 160).filter fun p => decide (d.pinFunc p = 2) && decide (d.pinAgent p = 0x0200 + BitVec.ofNat 16 unit)
  | 0x14 => ((List.range 8).map (d.slotPin unit)).filter fun p => decide (p < 160) && decide (d.pinFunc p = 3)
  | _ => []

/-- The pins of a safe group. -/
def Dev.groupPins (d : Dev) (g : Nat) : List Nat := (List.range 160).filter fun p => d.mapBit (FAULT.SAFE_GRP g 0) p

/-- FM_STATUS follows the ball (R437). [Log 55 DESIGN CHOICE] -/
def Dev.showFaultN (d : Dev) : Dev :=
  let a := d.fm.held || !d.regulated
  (d.setFld FAULT.FM_STATUS_FAULT_N_ASSERTED (b2n a)).setFld FAULT.FM_STATUS_FAULT_N_LOW (b2n (a || d.fm.extLow))

/-- FAULT_N asserted by an occurrence: an action of its own unless it was asserted already (R435, R437). [Log 120 DEDUCED] -/
def Dev.assertFaultN (d : Dev) : Dev :=
  let was := d.flag FAULT.FM_STATUS_FAULT_N_ASSERTED
  let old := d.reg FAULT.FM_STATUS
  let e := ({ d with fm := { d.fm with held := true } } : Dev).showFaultN
  if was then e else d.acted (e.faultRec devAgent FAULT.FM_STATUS old)

/-! ### Fixed responses (R434) -/

/-- A rail without a spare under ON_LOSS = SAFE (R218). -/
def Dev.lossResponse (d : Dev) (r : Nat) : Dev :=
  if ¬ d.flag (PHASE.PH_RAIL_CFG_ON_LOSS r) then d
  else
    let old := d.reg (PHASE.PH_RAIL_CFG r)
    let e := (d.safePins (d.railPhases r)).setFld (PHASE.PH_RAIL_CFG_ENABLE r) 0
    let e := (e.faultRec devAgent (PHASE.PH_RAIL_CFG r) old).railStop r 2
    d.acted (e.abortForFault (grpKey 0x23 r))

/-- The response to a declared witness fault (R222): an output put to its safe level fails its phase (R217), and one that a spare drives
has no other response (R226). -/
def Dev.witnessResponse (d : Dev) (p : Nat) : Dev :=
  let act := d.fld (WITNESS.WIT_CFG_ACTION p)
  let served := decide (d.detState (p / 2) = 2) || decide (d.detState (p / 2) = 4)
  if act = 0 ∧ ¬ served then d
  else if act = 1 ∧ d.detourOk (p / 2) then d.detourStart (p / 2) (d.wit p).tf
  else (d.acted (d.safePins [p])).phFail p

/-- The targets of the slots a faulty slice was evaluating, where no detour takes place (R169). -/
def Dev.sliceResponse (d : Dev) (k : Nat) : Dev :=
  let ss := (List.range 32).filter fun s => decide (d.fld (LOOP.SLOT_STATUS_RUN s) = 4) && decide ((d.slot s).held = some k)
  d.acted (d.safePins (ss.map d.slotPins).flatten)

/-- One pin of a mismatched pair passed to the heir, or to FUNC NONE (R438). [Log 107 DEDUCED, 122 DEDUCED] -/
def Dev.handPin (d : Dev) (heir : Nat) (p : Nat) : Dev :=
  let old := d.reg (PINMUX.PIN_OWN p)
  let w : Word := BitVec.ofNat 32 (if heir = 0xFFFF then putBits old.toNat 26 24 0 else putBits old.toNat 15 0 heir)
  (d.changeOwn p w).logRec .owner 3 devAgent (PINMUX.PIN_OWN p) w old

/-- The pins of a mismatched pair (R438). [Log 122 DEDUCED] -/
def Dev.pairResponse (d : Dev) (x : Nat) : Dev :=
  let ids : List AgentId := [0x0110 + BitVec.ofNat 16 x, 0x0100 + BitVec.ofNat 16 (2 * x), 0x0101 + BitVec.ofNat 16 (2 * x)]
  let ps := (List.range 160).filter fun p => ids.contains (d.pinAgent p)
  let heir := if x = 0 then d.fld PROTECT.HEIR_HEIR_A else d.fld PROTECT.HEIR_HEIR_B
  (d.acted (d.safePins ps)).each ps fun d p => d.handPin heir p

/-- The fixed response of a source (R434). [Log 120 DEDUCED] -/
def Dev.fixedResponse (d : Dev) (o : FaultOcc) : Dev :=
  match o.src with
  | 0x03 => (d.acted (d.safePins (List.range 160))).assertFaultN
  | 0x05 => d.pairResponse o.unit
  | 0x07 => d.sliceResponse o.unit
  | 0x0A => d.witnessResponse o.unit
  | 0x0D => d.lossResponse o.unit
  | _ => d

/-! ### Occurrences (R434, R435) -/

/-- The bookkeeping of an occurrence (R434). -/
def Dev.noteOcc (d : Dev) (o : FaultOcc) : Dev :=
  let f := if o.src % 2 = 0 then FAULT.SRC_COUNT_EVEN (o.src / 2) else FAULT.SRC_COUNT_ODD (o.src / 2)
  let d := (d.incFld f).setMapBit FAULT.FM_ACTIVE o.src true
  let d := (d.setFld FAULT.FM_LAST_SOURCE o.src).setFld FAULT.FM_LAST_UNIT o.unit
  d.setReg64 FAULT.FM_LAST_T o.stamp

/-- The configured action of a source (R435). [Log 120 DEDUCED] -/
def Dev.configuredAction (d : Dev) (o : FaultOcc) : Dev :=
  match d.fld (FAULT.SRC_CFG_ACTION o.src) with
  | 1 => d.acted (d.safePins (d.unitPins o.src o.unit))
  | 2 => d.acted (d.safePins (d.groupPins (d.fld (FAULT.SRC_CFG_SAFE_GRP o.src))))
  | 3 => d.acted (d.safePins (List.range 160))
  | _ => d

/-- The Sill requests of a source: a pair in lockstep receives one (R435). -/
def Dev.sillRequests (d : Dev) (mask : Nat) : Dev :=
  d.each [0, 1, 2, 3] fun d c =>
    d.when (bitOf mask c && !(d.lockstep c && decide (c % 2 = 1) && bitOf mask (c - 1))) fun d => d.requestSill c

/-- An occurrence handled whole (R434, R435). [Log 121 DEDUCED] -/
def Dev.handleOcc (d : Dev) (o : FaultOcc) : Dev :=
  let d := ((d.noteOcc o).fixedResponse o).configuredAction o
  let d := d.sillRequests (d.fld (FAULT.SRC_CFG_SILL o.src))
  d.when (d.flag (FAULT.SRC_CFG_FAULT_N o.src)) Dev.assertFaultN

/-- Of two occurrences of one nanosecond the first is handled later: its source is higher, or its witness fault is on a higher timer
(R224, R435). -/
def FaultOcc.after (o q : FaultOcc) : Bool :=
  decide (q.src < o.src) || (decide (q.src = o.src) && decide (q.src = 0x0A) && decide (q.unit / 2 < o.unit / 2))

/-- The occurrence handled next: of those that arrived in the first nanosecond the one of the lowest source (R435).
[Log 119 DEDUCED] -/
def nextOcc : List FaultOcc → Option FaultOcc
  | [] => none
  | o :: t =>
    match nextOcc t with
    | none => some o
    | some q => if floorNs q.stamp = floorNs o.stamp ∧ o.after q then some q else some o

/-- FAULT_OCCURRENCE (R434): the next occurrence is handled, once its nanosecond has ended. [Log 119 DEDUCED] -/
def execFaultOccurrence (s : State) : Host.Outcome State Fault Refusal :=
  s.onDev fun d =>
    match nextOcc d.faults with
    | none => d
    | some o =>
      if floorNs o.stamp = floorNs d.now then { d with answer := .waits }
      else ({ d with faults := d.faults.erase o } : Dev).handleOcc o

/-- EXT_FAULT (R437): the ball has read low for 100 ns while the device was not asserting it.
[Log 55 DESIGN CHOICE, 123 DEDUCED] -/
def execExtFault (s : State) : Host.Outcome State Fault Refusal :=
  s.onDev fun d =>
    d.when (!d.flag FAULT.FM_STATUS_FAULT_N_ASSERTED && d.fm.extArmed && d.due (d.fm.relT + nsT 100)) fun d =>
      (({ d with fm := { d.fm with extLow := true, extArmed := false } } : Dev).showFaultN).report 0x17 0

/-- EXT_FAULT_REARM (R437): the ball has read high for 100 ns. [Log 55 DESIGN CHOICE] -/
def execExtFaultRearm (s : State) : Host.Outcome State Fault Refusal :=
  s.onDev fun d =>
    d.when (!d.flag FAULT.FM_STATUS_FAULT_N_ASSERTED) fun d =>
      ({ d with fm := { d.fm with extLow := false, extArmed := true } } : Dev).showFaultN

/-! ### Writes (R436, R437, R453) -/

/-- A released pin: a PWM pin whose timer runs waits for its frame start, any other resumes at once (R436). -/
def Dev.releasePin (d : Dev) (p : Nat) : Dev :=
  if ¬ d.mapBit (FAULT.SAFE_NOW 0) p ∨ d.safeRel.contains p then d
  else if p < 96 ∧ d.pinFunc p = 4 ∧ d.timRun (d.server (p / 2)) = 1 then { d with safeRel := d.safeRel ++ [p] }
  else (d.setMapBit (FAULT.SAFE_NOW 0) p false).relevelPin p

/-- What refuses a write of a FAULT register beside its fields' ranges (R437): stage, bit and cause. [Log 123 DEDUCED] -/
def Dev.faultRefusals (d : Dev) (a : Nat) (v : Word) : List (Nat × Nat × Cause) :=
  if a = FAULT.FM_CMD then (if bitOf v.toNat 0 ∧ d.sup.tripHeld then [(3, 0, .state)] else []) else []

/-- The action of an accepted write of a FAULT register. [Log 123 DEDUCED] -/
def Dev.faultEffect (d : Dev) (a : Nat) (v : Word) : Dev :=
  if a = FAULT.FM_CMD then
    let d := d.when (bitOf v.toNat 1) fun d =>
      (d.each (List.range 16) fun d k => d.setNum (FAULT.SRC_COUNT k) 0).setFld FAULT.FM_STATUS_ACTIONS 0
    d.when (bitOf v.toNat 0) fun d => ({ d with fm := { d.fm with held := false, relT := d.now } } : Dev).showFaultN
  else if FAULT.SAFE_REL 0 ≤ a ∧ a < FAULT.SAFE_REL 5 then
    let w := (a - FAULT.SAFE_REL 0) / 4
    d.each ((setBits 32 v.toNat).map (32 * w + ·)) Dev.releasePin
  else d

end Sys2Proof.Machine
end

