-- ==== Sys2Proof/Machine/Supply.lean ====
section
/-!
DEFINITION. Machine/Supply.lean: the switched power domains, the rails and the temperature (spec/18, R440 to R445, R454).
-/
namespace Sys2Proof.Machine

/-! ### Power-down (R441) -/

/-- Every register key that a test holds of, back at its reset value. -/
def Dev.dropRegs (d : Dev) (p : Nat → Bool) : Dev := { d with regs := d.regs.filter fun x => !p x.1 }

/-- A table without the keys of a range. -/
def Tab.cut {α : Type} (lo n : Nat) (t : Tab α) : Tab α := t.filter fun x => x.1 < lo ∨ lo + n ≤ x.1

/-- A PWM bank without power. [Log 49 DEDUCED] -/
def Dev.pwmOff (d : Dev) (b : Nat) : Dev :=
  let d := d.resetBlock (0x20 + b)
  let d : Dev := { d with tims := d.tims.cut (16 * b) 16, outs := d.outs.map fun x =>
    if x.1 / 32 = b then (x.1, { level := x.2.level }) else x }
  let d : Dev := { d with updQ := d.updQ.filter fun u => u.out / 32 ≠ b, lineTrue := Tab.del b d.lineTrue, lineSwap := d.lineSwap.cut (32 * b) 32 }.lineKeep b
  d.each ((List.range 32).map (32 * b + ·)) fun d o => d.relevel o d.now false

/-- An ADC half without power. [Log 49 DEDUCED] -/
def Dev.adcOff (d : Dev) (h : Nat) : Dev :=
  let lo := ADC.CH_CFG (8 * h)
  let e := d.dropRegs fun a => decide (lo ≤ a) && decide (a < lo + 0x200)
  let d := Dev.adcKeep d { e with adcs := e.adcs.cut (8 * h) 8 } h
  let d := d.zeroRange (streamAddr (8 * h)) 0x2000
  d.setFld (if h % 2 = 0 then ADC.BLK_STATUS_HALF0_READY (h / 2) else ADC.BLK_STATUS_HALF1_READY (h / 2)) 0

/-- A comparator bank without power. [Log 49 DEDUCED] -/
def Dev.compOff (d : Dev) (k : Nat) : Dev :=
  let lo := COMP.CMP_CFG (48 * k)
  let e := d.dropRegs fun a => decide (lo ≤ a) && decide (a < lo + 0x600)
  let d : Dev := { e with comps := e.comps.cut (48 * k) 48 }.compKeep d.comps
  let d := d.each ((List.range 48).map (48 * k + ·)) fun d n => (d.setOutBit n false).showTrip n
  d.setFld (if k % 2 = 0 then COMP.BANK_STATUS_BANK0_READY (k / 2) else COMP.BANK_STATUS_BANK1_READY (k / 2)) 0

/-- A loop slice without power. -/
def Dev.sliceOff (d : Dev) (k : Nat) : Dev :=
  let d := d.setFld LOOP.SUP_STATUS_READY (putBits (d.fld LOOP.SUP_STATUS_READY) k k 0)
  d.when (decide (k < 4)) fun d =>
    d.setFld (if k % 2 = 0 then LOOP.BLK_STATUS_LOWER_READY (k / 2) else LOOP.BLK_STATUS_UPPER_READY (k / 2)) 0

/-- A witness bank without power. -/
def Dev.witOff (d : Dev) (b : Nat) : Dev :=
  let d := d.setFld WITNESS.WIT_BANK_STATUS_READY (putBits (d.fld WITNESS.WIT_BANK_STATUS_READY) b b 0)
  let d : Dev := { d with wits := d.wits.cut (32 * b) 32 }
  d.each ((List.range 32).map (32 * b + ·)) Dev.showMeasuring

/-- A ring without power. -/
def Dev.ringOff (d : Dev) (r : Nat) : Dev :=
  { d.resetBlock (0x28 + r) with thrs := d.thrs.cut (32 * r) 32, chans := d.chans.cut (64 * r) 64, rings := Tab.del r d.rings }

/-- A DRAM channel without power (R373). [Log 114 DEDUCED] -/
def Dev.dramOff (d : Dev) (c : Nat) : Dev :=
  let gone := fun a => decide (dramBase ≤ a) && decide (d.dramChan (a - dramBase) = c)
  ({ d with mem := d.mem.filter fun x => !gone x.1, ecc := d.ecc.filter fun x => !gone x.1 } : Dev).setDramState c 0

/-- The contents of a domain lost (R441). [Log 49 DEDUCED] -/
def Dev.domLose (d : Dev) (n : Nat) : Dev :=
  if n < 4 then { d with cores := Tab.del n d.cores }
  else if n < 8 then d.zeroRange (0x08000000 + 0x80000 * (n - 4)) 0x80000
  else if n < 16 then (d.zeroRange (0x10000000 + 0x100000 * (n - 8)) 0x100000).setFld MEMCTL.SRAM_STATUS_READY
    (putBits (d.fld MEMCTL.SRAM_STATUS_READY) (n - 8) (n - 8) 0)
  else if n < 18 then d.ringOff (n - 16)
  else if n < 20 then d.zeroRange (0x20000000 + 0x40000 * (n - 18)) 0x40000
  else if n < 25 then d.engBankOff (n - 20)
  else if n < 30 then d.sliceOff (n - 25)
  else if n < 33 then d.pwmOff (n - 30)
  else if n < 36 then d.witOff (n - 33)
  else if n < 48 then d.adcOff (n - 36)
  else if n < 52 then d.compOff (n - 48)
  else if n = 52 then { d.resetBlock 0x07 with hostQ := [], hostLost := [], ringIrqs := [], telSched := none, msix := [] }
  else if n < 55 then d.dramOff (n - 53)
  else if n = 55 then { d.resetBlock 0x08 with tie := {} }
  else if n = 56 then { d.resetBlock 0x0C with dmas := [] }
  else if n = 57 then d.resetBlock 0x0B
  else { d.resetBlock 0x31 with tapIr := 0, tapBsr := [] }

/-- Power-ups that wait take a free ramp, in ascending domain number (R441). -/
def Dev.pumpRamps (d : Dev) : Dev :=
  let k := 4 - d.sup.ramping.length
  let w := sortBy id d.sup.rampWait
  { d with sup := { d.sup with ramping := d.sup.ramping ++ w.take k, rampWait := w.drop k } }

/-- A domain powered down (R441). [Log 49 DEDUCED, 140 DEDUCED] -/
def Dev.domDown (d : Dev) (n : Nat) : Dev :=
  let d := (d.domLose n).setMapBit SUPPLY.DOM_STATUS_0 n false
  let d : Dev := { d with domUp := d.domUp.erase n, sup := { d.sup with upAt := Tab.del n d.sup.upAt } }
  ({ d with sup := { d.sup with ramping := d.sup.ramping.erase n, rampWait := d.sup.rampWait.erase n } } : Dev).pumpRamps

/-- A domain powered up (R441). [Log 140 DEDUCED] -/
def Dev.domRaise (d : Dev) (n : Nat) : Dev :=
  ({ d with sup := { d.sup with rampWait := d.sup.rampWait ++ [n] } } : Dev).pumpRamps

/-- The domains whose chapter gives them a readiness time; the others are ready when their ramp ends. -/
def domTimed (n : Nat) : Bool := decide (4 ≤ n) && decide (n < 52)

/-- The rail of a domain is up: its readiness time begins, or it is ready (R441). -/
def Dev.domPowered (d : Dev) (n : Nat) : Dev :=
  let d : Dev := { d with
    domUp := if d.domUp.contains n then d.domUp else n :: d.domUp
    sup := { d.sup with upAt := Tab.put n d.now d.sup.upAt } }
  let d := d.when (decide (n = 53 ∨ n = 54)) fun d => d.setDramState (n - 53) 1
  if domTimed n then d else d.setMapBit SUPPLY.DOM_STATUS_0 n true

/-- DOMAIN_READY (R441): the power ramp of domain `n` ends. [Log 140 DEDUCED] -/
def execDomainReady (n : Fin 59) (s : State) : Host.Outcome State Fault Refusal :=
  s.onDev fun d => d.when (d.sup.ramping.contains n.val) fun d =>
    (({ d with sup := { d.sup with ramping := d.sup.ramping.erase n.val } } : Dev).pumpRamps).domPowered n

/-! ### Refusals of power-downs -/

/-- A pass covers a memory code. -/
def Dev.passCovers (d : Dev) (code : Nat) : Bool :=
  match d.pass with
  | none => false
  | some p => (List.range 2).any fun i => d.memCode (if i = 0 then p.base else p.base + p.len - 1) = some code

/-- A pass covers DRAM. -/
def Dev.passDram (d : Dev) : Bool := match d.pass with | some p => decide (dramBase ≤ p.base) | none => false

/-- A power-down of domain `n` that its chapter refuses, judged with the ON bits the write leaves (R441). [Log 140 DEDUCED] -/
def Dev.downRefused (d : Dev) (on : Nat → Bool) (n : Nat) : Bool :=
  if n < 4 then decide (d.fld (CORES.PAIR_CFG_START (n / 2)) ≠ 0)
  else if n < 8 then on (n - 4) || d.passCovers (n - 4)
  else if n < 16 then !d.regulated || d.passCovers n
  else if n < 18 then (List.range 32).any fun i => decide (d.thrState (32 * (n - 16) + i) ≠ 0)
  else if n < 20 then on (n - 2) || d.passCovers (0x10 + (n - 18))
  else if n < 25 then (List.range 8).any fun i => decide (d.engState (8 * (n - 20) + i) ≠ 0)
  else if n < 30 then (List.range 32).any fun s => decide (d.slotMode s ≠ 0) && decide (d.slotSlice s = n - 25)
  else if n < 33 then (List.range 16).any fun i => decide (d.fld (PWM.TIM_CFG_MODE (16 * (n - 30) + i)) ≠ 0)
  else if n < 36 then (List.range 32).any fun i => d.flag (WITNESS.WIT_CFG_ENABLE (32 * (n - 33) + i))
  else if n < 48 then (List.range 8).any fun i => decide (d.adcMode (8 * (n - 36) + i) ≠ 0)
  else if n < 52 then (List.range 48).any fun i => decide (d.compMode (48 * (n - 48) + i) ≠ 0)
  else if n = 52 then decide (d.fld HOST.LINK_STATUS_STATE ≠ 0)
  else if n < 55 then d.lgDram || ((List.range 4).any fun u => decide (d.trcState u = 4)) || decide (d.num DMA.DMA_STATUS ≠ 0) || d.passDram
    || (d.flag MEMCTL.DRAM_CFG_INTERLEAVE && on (107 - n) && decide (d.dramState (54 - n) = 3))
  else if n = 55 then d.flag TIE.TIE_CFG_ENABLE
  else if n = 56 then decide (d.num DMA.DMA_STATUS ≠ 0)
  else if n = 57 then d.lgDram || decide (d.fld LEDGER.LG_HOST_MIRROR_KINDS ≠ 0) || decide (d.fld LEDGER.LG_NOR_MIRROR_KINDS ≠ 0) || d.pass.isSome
  else d.flag DEBUG.DBG_STATUS_BUSY

/-- A DOM_CTRL write is refused (R441). [Log 140 DEDUCED] -/
def Dev.domRefused (d : Dev) (a : Nat) (v : Word) : Bool :=
  let w := (a - SUPPLY.DOM_CTRL_0) / 4
  let on := fun n => if n / 32 = w then wordBit v (n % 32) else d.domOn n
  (List.range 59).any fun n =>
    (d.domOn n && !on n && d.downRefused on n) || (!d.domOn n && on n && decide (n < 4) && !on (n + 4))

/-! ### Rails and temperature (R442 to R445) -/

/-- The VCORE request in force, mV (R443). -/
def Dev.vcoreWant (d : Dev) : Nat :=
  if d.fld SUPPLY.VCORE_CFG_MODE = 1 then d.fld SUPPLY.VCORE_CFG_FIXED_MV else d.fld MILEPOST.PACE_STATUS_VCORE_MV

/-- A number brought two steps toward another. -/
def toward (a b : Nat) : Nat := if a < b then min b (a + 2) else max b (a - 2)

/-- A value lies within a tolerance, in per cent, of a set value. -/
def within (v set pct : Nat) : Bool := decide (100 * v ≤ (100 + pct) * set) && decide ((100 - pct) * set ≤ 100 * v)

/-- A measured rail lies within its tolerance: 0 VINT, 1 VCORE, 2 VDDA, 3 to 7 VIO (R442). [Log 54 DEDUCED] -/
def Dev.railOk (d : Dev) (rail v : Nat) : Bool :=
  match rail with
  | 0 => within v 5000 3
  | 1 => if Config.strapVcoreExt then decide (673 ≤ v) && decide (v ≤ 858) else within v d.sup.vcoreSet 1
  | 2 => within v 1800 2
  | k =>
    if Config.strapIoExt then within v 1800 5 || within v 3300 5
    else if Tab.find (k - 3) d.sup.vioMove ≠ none then true
    else within v (if bitsOf (d.fld PINMUX.BANK_VIO_VIO) (2 * (k - 3) + 1) (2 * (k - 3)) = 2 then 3300 else 1800) 5

/-- One rail's measurement against its tolerance. [Log 54 DEDUCED] -/
def Dev.railSeen (d : Dev) (rail v : Nat) : Dev :=
  if d.railOk rail v then
    { d with sup := { d.sup with railOut := Tab.del rail d.sup.railOut, railTold := d.sup.railTold.erase rail } }
  else match Tab.find rail d.sup.railOut with
    | some _ => d
    | none => { d with sup := { d.sup with railOut := Tab.put rail d.now d.sup.railOut } }

/-- With the VIO rails external, VIO_CFG and BANK_VIO show the level measured of each bank, where it is one of the two (R363, R444).
[Log 54 DEDUCED] -/
def Dev.vioSeen (d : Dev) (b v : Nat) : Dev :=
  d.when (Config.strapIoExt && (within v 1800 5 || within v 3300 5)) fun d =>
    let hi := b2n (within v 3300 5)
    let d := d.setFld SUPPLY.VIO_CFG_V3P3 (putBits (d.fld SUPPLY.VIO_CFG_V3P3) b b hi)
    d.setFld PINMUX.BANK_VIO_VIO (putBits (d.fld PINMUX.BANK_VIO_VIO) (2 * b + 1) (2 * b) (1 + hi))

/-- The time since when VIN stands above 105 % of the threshold (R445), and after a trip above the threshold itself (R88).
[Log 36 DEDUCED] -/
def Dev.vinSeen (d : Dev) (vin : Nat) : Dev :=
  let high := decide (vin * 1000 > d.fld SUPPLY.VIN_FAIL_CFG_THRESH * 5 * 105 * 10)
  let back := decide (vin > d.fld SUPPLY.VIN_FAIL_CFG_THRESH * 5)
  { d with
    sup := { d.sup with vinSince := if high then some (d.sup.vinSince.getD d.now) else none }
    loss := d.loss.map fun l => { l with above := if back then some (l.above.getD d.now) else none } }

/-- RAIL_SAMPLE (R445): the rails measured: VIN in 10 mV; VINT, VCORE, VDDA and the VIO rails in mV. [Log 54 DEDUCED] -/
def execRailSample (vin vint vcore vdda vio0 vio1 vio2 vio3 vio4 : Nat) (s : State) : Host.Outcome State Fault Refusal :=
  s.onDev fun d =>
    let d := ((d.setNum SUPPLY.MON_VIN vin).setNum SUPPLY.MON_VINT vint).setNum SUPPLY.MON_VCORE vcore
    let d := d.setNum SUPPLY.MON_VDDA vdda
    let d : Dev := { d with samples := ({ vin := vin, vint := vint, vcore := vcore, tj := d.num SUPPLY.MON_TJ } :: d.samples).take 32 }
    let d : Dev := { d with sup := { d.sup with vcoreSet := toward d.sup.vcoreSet d.vcoreWant } }
    let d := (List.zip (List.range 5) [vio0, vio1, vio2, vio3, vio4]).foldl (fun d x => d.vioSeen x.1 x.2) (d.vinSeen vin)
    (List.zip (List.range 8) [vint, vcore, vdda, vio0, vio1, vio2, vio3, vio4]).foldl (fun d x => d.railSeen x.1 x.2) d

/-- SUPPLY_FAULT (R445): rail `rail` has stood outside its tolerance for 10 µs. [Log 54 DEDUCED] -/
def execSupplyFault (rail : Fin 8) (s : State) : Host.Outcome State Fault Refusal :=
  s.onDev fun d =>
    match Tab.find rail.val d.sup.railOut with
    | none => d
    | some t =>
      d.when (d.due (t + nsT 10000) && !d.sup.railTold.contains rail.val) fun d =>
        let d : Dev := { d with sup := { d.sup with railTold := rail.val :: d.sup.railTold } }
        ((d.setMapBit SUPPLY.RAIL_FLAGS rail true).raise 6).report 4 rail

/-- TEMP_SAMPLE (R445): the highest sensor read, in 1/8 °C. [Log 54 DEDUCED] -/
def execTempSample (tj : Int) (s : State) : Host.Outcome State Fault Refusal :=
  s.onDev fun d =>
    let d := d.setReg SUPPLY.MON_TJ (BitVec.ofInt 32 tj)
    let warn := decide (tj ≥ 8 * (d.fld SUPPLY.THERM_CFG_WARN : Int))
    let trip := decide (tj ≥ 8 * (d.fld SUPPLY.THERM_CFG_TRIP : Int))
    let d : Dev := if warn then d else { d with sup := { d.sup with warned := false, tripHeld := false } }
    let d := d.when (warn && !d.sup.warned) fun d =>
      ((({ d with sup := { d.sup with warned := true } } : Dev).setFld SUPPLY.RAIL_FLAGS_WARN 1).raise 4).report 2 0
    d.when (trip && !d.sup.tripHeld) fun d =>
      ((({ d with sup := { d.sup with tripHeld := true } } : Dev).setFld SUPPLY.RAIL_FLAGS_TRIP 1).raise 5).report 3 0

/-- Every output to its safe state over the hardwired path (R87, R445). -/
def Dev.hardwire (d : Dev) : Dev :=
  ({ d with hardSafe := true } : Dev).each (List.range 96) fun d o => d.relevel o d.now false

/-- THERM_HARD_TRIP (R445): Tj reaches 150 °C. -/
def execThermHardTrip (s : State) : Host.Outcome State Fault Refusal := s.onDev Dev.hardwire

/-- VIN_FAIL_ARM (R445): VIN has stood above 105 % of the threshold for 1 ms. -/
def execVinFailArm (s : State) : Host.Outcome State Fault Refusal :=
  s.onDev fun d =>
    match d.sup.vinSince with
    | none => d
    | some t => d.when (d.due (t + nsT 1000000)) fun d => { d with sup := { d.sup with armed := true } }

/-- VIO_LEVEL_REACHED (R444): the rail of bank `b` has reached the level of VIO_CFG. -/
def execVioLevelReached (b : Fin 5) (s : State) : Host.Outcome State Fault Refusal :=
  s.onDev fun d =>
    match Tab.find b.val d.sup.vioMove with
    | none => d
    | some _ =>
      let v := if bitOf (d.fld SUPPLY.VIO_CFG_V3P3) b then 2 else 1
      let d : Dev := { d with sup := { d.sup with vioMove := Tab.del b.val d.sup.vioMove } }
      d.setFld PINMUX.BANK_VIO_VIO (putBits (d.fld PINMUX.BANK_VIO_VIO) (2 * b + 1) (2 * b) v)

/-! ### Writes (R441 to R445, R454) -/

/-- A bank of pins has no pin with a function (R444). -/
def Dev.bankIdle (d : Dev) (b : Nat) : Bool := (List.range 32).all fun i => decide (d.pinFunc (32 * b + i) = 0)

/-- What refuses a write of a SUPPLY register beside its fields' ranges: stage, bit and cause. -/
def Dev.supplyRefusals (d : Dev) (a : Nat) (v : Word) : List (Nat × Nat × Cause) :=
  let n := v.toNat
  if a = SUPPLY.DOM_CTRL_0 ∨ a = SUPPLY.DOM_CTRL_1 then (if d.domRefused a v then [(3, 31, .state)] else [])
  else if a = SUPPLY.VIN_FAIL_CFG then
    (if n % 4096 * 100 > d.num SUPPLY.MON_VIN * 19 then [(3, 11, .range)] else [])
  else if a = SUPPLY.VCORE_CFG then
    let mv := n % 4096
    (if mv % 5 ≠ 0 ∨ mv > 850 ∨ mv < (if Config.strapTestEn then 650 else 680) then [(2, 11, .range)] else [])
  else if a = SUPPLY.VIO_CFG then
    (if (List.range 5).any fun b => decide (bitOf n b ≠ bitOf (d.num a) b) && !d.bankIdle b then [(3, 4, .state)] else [])
  else if a = SUPPLY.THERM_CFG then
    (if bitsOf n 7 0 < 60 then [(2, 7, .range)] else []) ++ (if bitsOf n 7 0 + 5 > bitsOf n 15 8 then [(3, 15, .range)] else [])
  else []

/-- The action of an accepted write of a SUPPLY register. -/
def Dev.supplyEffect (d : Dev) (a : Nat) (old v : Word) : Dev :=
  if a = SUPPLY.DOM_CTRL_0 ∨ a = SUPPLY.DOM_CTRL_1 then
    let w := (a - SUPPLY.DOM_CTRL_0) / 4
    d.each ((List.range 32).filter fun i => decide (32 * w + i < 59)) fun d i =>
      if wordBit old i ∧ ¬ wordBit v i then d.domDown (32 * w + i)
      else if wordBit v i ∧ ¬ wordBit old i then d.domRaise (32 * w + i)
      else d
  else if a = SUPPLY.VIO_CFG then
    { d with sup := { d.sup with vioMove := (List.range 5).foldl (fun t b =>
        if wordBit old b = wordBit v b then t else Tab.put b d.now t) d.sup.vioMove } }
  else d

end Sys2Proof.Machine
end

