-- ==== Sys2Proof/Machine/Commit.lean ====
section
/-!
DEFINITION. Machine/Commit.lean: commit groups, claims, single and global commits, snapshots, and the admission of changes to the
Ledger (spec/02, R34 to R48, R57 to R66).
-/
namespace Sys2Proof.Machine

/-! ### The blocks' groups and their words -/

/-- The number of groups of a block (R64, and the map of each block). -/
def grpCount (b : Nat) : Nat :=
  if 0x10 ≤ b ∧ b ≤ 0x15 then 16
  else if b = 0x16 ∨ b = 0x17 then 96
  else if b = 0x18 ∨ b = 0x19 then 16
  else if b = 0x1A then 41
  else if b = 0x1B then 4
  else if 0x20 ≤ b ∧ b ≤ 0x22 then 16
  else if b = 0x23 then 9
  else if b = 0x24 then 144
  else if b = 0x28 ∨ b = 0x29 then 33
  else if b = 0x2D then 5
  else if b = 0x30 then 2
  else if b = 0x04 then 1
  else if b = 0x06 then 25
  else if b = 0x07 then 1
  else if b = 0x08 then 2
  else if b = 0x0C then 16
  else 0

/-- The words of a register at an index. -/
def regWords (b : Nat) (r : RegD) (i : Nat) : List Nat :=
  let o := b * 0x10000 + r.off + i * r.stride
  if r.wide then [o, o + 4] else (List.range r.cnt2).map fun j => o + j * r.stride2

/-- The words of STG fields of a group, in ascending offset. -/
def groupWords (k : Nat) : List Nat :=
  let b := k / 256
  let ws := (blockRegs b).flatMap fun r =>
    if r.fields.any fun f => f.acc = .stg then
      ((List.range r.cnt).filter fun i => decide (r.grp + i / r.per = k % 256)).flatMap fun i => regWords b r i
    else []
  sortBy id ws

/-! ### Staging and claims (R36 to R39) -/

/-- The active word with the STG bits of a staged one. -/
def Dev.mergeStg (d : Dev) (a : Nat) (v : Word) : Word :=
  match regHit a with
  | some h =>
    let m : Word := BitVec.ofNat 32 (h.mask fun c => c = .stg)
    (d.reg a &&& ~~~m) ||| (v &&& m)
  | none => d.reg a

/-- Why an agent may not write what belongs to a group's claimant (R37, R40). -/
def Dev.claimRefusal (d : Dev) (agent : AgentId) (k : Nat) : Option Cause :=
  let g := d.grp k
  if g.st = .idle then none
  else if g.owner ≠ agent then some .busy
  else if g.st = .claimed then none
  else some .pending

/-- A group claimed for an agent, unless it holds it already (R37). -/
def Dev.claim (d : Dev) (agent : AgentId) (k : Nat) : Dev :=
  let g := d.grp k
  if g.st = .idle then d.setGrp k { g with st := .claimed, owner := agent, claimT := d.now, staged := [] } else d

/-- A word put in the staging copy of its group, which this claims (R36, R37). -/
def Dev.stageWord (d : Dev) (agent : AgentId) (k a : Nat) (v : Word) : Dev :=
  let d := d.claim agent k
  d.setGrp k { d.grp k with staged := Tab.put a v (d.grp k).staged }

/-- The cause of the last rejected write to a group (R64). -/
def Dev.noteCause (d : Dev) (k : Nat) (c : Cause) : Dev := d.setGrp k { d.grp k with cause := c.code }

/-- The device as the commit of a group would leave its words. [Log 16 DEDUCED] -/
def Dev.groupWould (d : Dev) (k : Nat) : Dev := (d.grp k).staged.foldl (fun e p => e.setReg p.1 (d.mergeStg p.1 p.2)) d

/-- The group an agent has selected in a block, and its VIEW (R39, R64). -/
def selKey (agent : AgentId) (b : Nat) : Nat := agent.toNat * 256 + b
def Dev.selected (d : Dev) (agent : AgentId) (b : Nat) : Nat := (Tab.get 0 (selKey agent b) d.sel).toNat % 256
def Dev.viewsStaged (d : Dev) (agent : AgentId) (b : Nat) : Bool := wordBit (Tab.get 0 (selKey agent b) d.sel) 16

/-- The claims older than CLAIM_LIMIT aborted (R38). -/
def Dev.tooOld (d : Dev) (k : Nat) : Bool :=
  let lim := d.fld SYS.CLAIM_LIMIT_LIMIT_US
  let g := d.grp k
  decide (lim ≠ 0) && decide (g.st ≠ .idle) && decide (nsT (lim * 1000) < d.now - g.claimT)
def Dev.ageClaims (d : Dev) : Dev := d.each (d.groups.map (·.1)) fun d k => d.when (d.tooOld k) fun d => d.abortGrp devAgent k

/-! ### What the blocks say of their groups -/

/-- The unit of a group runs (R40). [Log 17 DESIGN CHOICE] -/
def Dev.unitRuns (d : Dev) (k : Nat) : Bool :=
  let b := k / 256
  let g := k % 256
  if 0x20 ≤ b ∧ b ≤ 0x22 then decide (d.timRun (d.server (16 * (b - 0x20) + g)) = 1)
  else if 0x10 ≤ b ∧ b ≤ 0x15 then decide (d.adcMode (16 * (b - 0x10) + g) ≠ 0)
  else if b = 0x16 ∨ b = 0x17 then decide (d.compMode (96 * (b - 0x16) + g) ≠ 0)
  else if b = 0x18 ∨ b = 0x19 then decide (d.slotMode (16 * (b - 0x18) + g) ≠ 0)
  else if b = 0x1A then
    if g < 8 then d.cgOn g else if g < 40 then decide (d.slotMode (g - 8) ≠ 0) else d.sliceDet.isSome
  else if b = 0x1B then decide (d.trcMode g ≠ 0)
  else if b = 0x23 then decide (g < 8) && d.railRuns g
  else if b = 0x30 then d.regulated && decide (d.fld (CORES.PAIR_CFG_START g) ≠ 0)
  else if b = 0x28 ∨ b = 0x29 then
    let st := d.thrState (32 * (b - 0x28) + g)
    decide (g < 32) && (decide (st = 1) || decide (st = 2) || decide (st = 3))
  else if b = 0x0C then !dmaRests (d.dmaState g)
  else if b = 0x07 then d.telSched.isSome
  else false

/-- A NOW commit is permitted: the unit is stopped, or the commit stops an ADC channel (R40, R103). [Log 17 DESIGN CHOICE] -/
def Dev.nowOk (d e : Dev) (k : Nat) : Bool :=
  !d.unitRuns k || (decide (0x10 ≤ k / 256) && decide (k / 256 ≤ 0x15) && adcNowOk e (16 * (k / 256 - 0x10) + k % 256))

/-- The setup of an AT commit (R42, R103, R126, R158, R177, R193, R336, R416). -/
def commitSetup (b : Nat) : Time :=
  if b = 0x08 then nsT 10000
  else if (0x10 ≤ b ∧ b ≤ 0x1A) ∨ (0x20 ≤ b ∧ b ≤ 0x22) ∨ b = 0x28 ∨ b = 0x29 then nsT 20
  else nsT 100

/-- A time as a block's units resolve it: timers to the fine tick, the others to whole nanoseconds (R24, R45). -/
def unitTime (b : Nat) (t : Time) : Time := if 0x20 ≤ b ∧ b ≤ 0x22 then t else floorNs t

/-- The time at which a BOUNDARY commit of a group applies, once its boundary is reached; the witness of an output has its boundary
between two measured edges (R229). -/
def Dev.boundaryNow (d : Dev) (k : Nat) : Option Time :=
  let b := k / 256
  let g := k % 256
  let goT := (d.grp k).goT
  if b = 0x24 ∧ g < 96 then (if (d.wit g).edges.isEmpty then some d.nowNs else none)
  else if !d.unitRuns k then some d.nowNs
  else if 0x20 ≤ b ∧ b ≤ 0x22 then
    let t := d.reg64 (PWM.TIM_BOUNDARY (d.server (16 * (b - 0x20) + g)))
    if d.due t ∧ dist (goT + nsT 20) t ≥ 0 then some t else none
  else if 0x10 ≤ b ∧ b ≤ 0x15 then
    let t : Time := (goT + nsT 20 + 511) &&& ~~~(511#64)
    if d.due t then some t else none
  else if b = 0x16 ∨ b = 0x17 then
    let t := d.compBoundary (96 * (b - 0x16) + g)
    if d.due t then some t else none
  else if b = 0x1A ∧ g = 40 then none
  else if b = 0x28 ∨ b = 0x29 then (if g < 32 ∧ ¬ d.thrBoundary (32 * (b - 0x28) + g) then none else some d.nowNs)
  else if b = 0x0C then (if d.dmaState g = 1 then some d.nowNs else none)
  else some d.nowNs

/-- What a block refuses a commit of a group for; `e` is the device as the commit would leave it. [Log 16 DEDUCED] -/
def Dev.commitCheck (d e : Dev) (k : Nat) : Option Cause :=
  let b := k / 256
  let g := k % 256
  if 0x20 ≤ b ∧ b ≤ 0x22 then d.pwmCommit e (16 * (b - 0x20) + g)
  else if b = 0x18 ∨ b = 0x19 then e.slotCommit (16 * (b - 0x18) + g)
  else if b = 0x1A then e.supCommit g
  else if b = 0x1B then d.traceCommit e g
  else if b = 0x23 then d.phaseCommit e g
  else if b = 0x24 then d.witCommit e g
  else if b = 0x28 ∨ b = 0x29 then (if g < 32 then d.thrCommit e (32 * (b - 0x28) + g) else d.chanCommit e (b - 0x28))
  else if b = 0x30 then d.coresCommit e g
  else none

/-- What a block's units take up when a commit of a group has applied at `t`; `old` is the device before it. A slot takes an AT
commit by the instants of its samples (R158). -/
def Dev.commitApplied (old d : Dev) (k : Nat) (t : Time) (byTime : Bool) : Dev :=
  let b := k / 256
  let g := k % 256
  if 0x20 ≤ b ∧ b ≤ 0x22 then
    let n := 16 * (b - 0x20) + g
    Dev.timApplied old d n t byTime
  else if 0x10 ≤ b ∧ b ≤ 0x15 then Dev.adcApplied old d (16 * (b - 0x10) + g) t
  else if b = 0x16 ∨ b = 0x17 then Dev.compApplied old d (96 * (b - 0x16) + g) t
  else if b = 0x18 ∨ b = 0x19 then
    let n := 16 * (b - 0x18) + g
    Dev.slotApplied old d n t byTime
  else if b = 0x1A then d.supApplied g
  else if b = 0x1B then Dev.traceApplied old d g t
  else if b = 0x23 then d.phaseApplied g
  else if b = 0x24 then d.witApplied g
  else if b = 0x28 ∨ b = 0x29 then (if g < 32 then Dev.thrApplied old d (32 * (b - 0x28) + g) else Dev.chanApplied old d (b - 0x28))
  else if b = 0x2D then d.pinmuxApplied g
  else if b = 0x30 then Dev.coresApplied old d g
  else if b = 0x07 then Dev.telApplied old d t
  else if b = 0x08 then d.tieApplied g
  else d

/-! ### Admission to the Ledger (R59 to R61) -/

/-- The records of the change in progress that ordinary places hold: all but SYSTEM and FAULT_ACTION records (R61). -/
def Dev.ordinary (d : Dev) : Nat := (d.led.fresh.filter fun r => r.kind ≠ .system ∧ r.kind ≠ .faultAction).length

/-- The words that a commit of a group changes: key, new and old value. -/
def Dev.grpChanges (d : Dev) (k : Nat) : List (Nat × Word × Word) :=
  (d.grp k).staged.filterMap fun p =>
    let v := d.mergeStg p.1 p.2
    if d.reg p.1 = v then none else some (p.1, v, d.reg p.1)

/-- The records of a group's commit: one for each changed word, or the one at 0xFF08 where none changes (R43). -/
def Dev.grpRecs (d : Dev) (k : Nat) : List (AgentId × Nat × Word × Word) :=
  let o := (d.grp k).owner
  match d.grpChanges k with
  | [] => [(o, k / 256 * 0x10000 + 0xFF08, BitVec.ofNat 32 (k % 256), BitVec.ofNat 32 (k % 256))]
  | l => l.map fun x => (o, x)

/-- The places held by admitted BOUNDARY commits that wait for their boundary (R60). -/
def Dev.heldPlaces (d : Dev) : Nat :=
  d.groups.foldl (fun n p => if p.2.admitted then n + (d.grpRecs p.1).length else n) 0

/-- A change of `n` records is not admitted now (R59, R60). -/
def Dev.lgFull (d : Dev) (n : Nat) : Bool :=
  d.lgDram && decide (n ≠ 0)
    && (!d.led.waiting.isEmpty || decide (d.fld LEDGER.LG_STATUS_OCC + d.ordinary + d.heldPlaces + n > 4032))

/-- A change waits (R60). [Log 22 DESIGN CHOICE] -/
def Dev.stall (d : Dev) (w : Waiting) : Dev :=
  let d : Dev := { d with led := { d.led with waiting := d.led.waiting ++ [w] }, answer := .waits }
  let d := (d.incNum LEDGER.LG_STALL_COUNT).setFld LEDGER.LG_STATUS_STALLING 1
  d.when (!d.flag LEDGER.LG_FLAGS_STALL) fun d => (d.setFld LEDGER.LG_FLAGS_STALL 1).raise 1208

/-- LEDGER_DRAIN (R57): the oldest buffered record is written to the ring. -/
def execLedgerDrain (s : State) : Host.Outcome State Fault Refusal := s.onDev fun d => d.when d.lgDram Dev.drainOne

/-! ### Applying (R41, R43, R46) -/

/-- A run of COMMIT records with one timestamp and one sequence (R43, R55). -/
def Dev.logRun (t : Time) (late : Bool) (cs : Half) : Bool → List (AgentId × Nat × Word × Word) → Dev → Dev
  | _, [], d => d
  | first, (o, a, new, old) :: rest, d =>
    Dev.logRun t late cs false rest (d.logAt t .commit (b2n first + 2 * b2n rest.isEmpty + 4 * b2n late) o a new old cs)

/-- The next commit sequence (R43). -/
def Dev.nextSeq (d : Dev) : Half × Dev :=
  let n := d.fld SYS.COMMIT_SEQ_SEQ
  let n := if n = 0xFFFF then 1 else n + 1
  (BitVec.ofNat 16 n, d.setFld SYS.COMMIT_SEQ_SEQ n)

/-- A late commit flagged in the status of a unit that has a flag of its own (R25, R208). -/
def Dev.unitLate (d : Dev) (k : Nat) : Dev :=
  d.when (decide (0x20 ≤ k / 256) && decide (k / 256 ≤ 0x22)) fun d => d.setFld (PWM.TIM_STATUS_LATE (16 * (k / 256 - 0x20) + k % 256)) 1

/-- A late commit of a block's group flagged (R25, R42). [Log 18 DEDUCED] -/
def Dev.lateCommit (d : Dev) (k : Nat) (target t : Time) : Dev := (d.lateAct (k / 256) target t).unitLate k

/-- Groups applied together at one time with one sequence: every word, the records, the ends of the claims, and what the units
take up (R41, R43, R46, R47). [Log 18 DEDUCED] -/
def Dev.applyGroups (d : Dev) (ks : List Nat) (t : Time) (late byTime : Bool) : Half × Nat × Dev :=
  let (cs, d) := d.nextSeq
  let recs := ks.flatMap d.grpRecs
  let d := d.when (ks.any fun k => k / 256 = 0x23) fun d => d.formSoon (List.range 96)
  let e := ks.foldl (fun e k => (d.grp k).staged.foldl (fun e p => e.setReg p.1 (d.mergeStg p.1 p.2)) e) d
  let e := Dev.logRun t late cs true recs e
  let e := e.each ks fun e k => e.setGrp k { (e.grp k).release with seq := cs, late := late, applied := unitTime (k / 256) t }
  (cs, recs.length, e.each ks fun e k => Dev.commitApplied d e k (unitTime (k / 256) t) byTime)

/-- One group applied at `t`; `late` holds the stated time of a late commit. -/
def Dev.applyOne (d : Dev) (k : Nat) (t : Time) (late : Option Time) : Dev :=
  let byTime := decide ((d.grp k).mode = .atTime)
  let (_, _, e) := d.applyGroups [k] t late.isSome byTime
  match late with
  | some s => e.lateCommit k s t
  | none => e

/-- One group applied, or left waiting for its Ledger places unless it holds them (R59, R60). -/
def Dev.tryApply (d : Dev) (k : Nat) (t : Time) (late : Option Time) : Dev :=
  if d.led.waiting.any fun w => w.kind = .apply k then d
  else if !(d.grp k).admitted && d.lgFull (d.grpRecs k).length then d.stall { agent := (d.grp k).owner, kind := .apply k, since := d.now }
  else d.applyOne k t late

/-- A pending commit applied where its boundary or its time is reached (R40 to R42). [Log 18 DEDUCED, 19 DESIGN CHOICE] -/
def Dev.applyDue (d : Dev) (k : Nat) : Dev :=
  let g := d.grp k
  if g.st ≠ .pending then d
  else match g.mode with
    | .now => d.tryApply k d.nowNs none
    | .boundary => match d.boundaryNow k with | some t => d.tryApply k t none | none => d
    | .atTime =>
      if ¬ d.due g.target then d
      else if dist (g.goT + commitSetup (k / 256)) g.target ≥ 0 then d.tryApply k g.target none
      else d.tryApply k (maxT g.goT g.target) (some g.target)

/-- A unit has stopped in the command that led from `old` to `d`: its pending BOUNDARY commit applies as it stops (R42).
[Log 19 DESIGN CHOICE] -/
def Dev.applyStopped (old d : Dev) (k : Nat) : Dev :=
  d.when (old.unitRuns k && !d.unitRuns k && decide ((d.grp k).st = .pending) && decide ((d.grp k).mode = .boundary)) fun d => d.applyDue k

/-- The boundary of a group's unit may have been reached: its pending BOUNDARY commit applies if it has (R42).
[Log 19 DESIGN CHOICE] -/
def Dev.applyReached (d : Dev) (k : Nat) : Dev :=
  d.when (decide ((d.grp k).st = .pending) && decide ((d.grp k).mode = .boundary)) fun d => d.applyDue k

/-- The commit group of slice supervision (R177): it stops, for its BOUNDARY commits, when a detour ends. -/
def supGroup : Nat := grpKey 0x1A 40

/-- COMMIT_APPLY (R41): the pending commit of group `g` of block `b` reaches its boundary or its time. -/
def execCommitApply (b g : Nat) (s : State) : Host.Outcome State Fault Refusal :=
  s.onDev fun d => Dev.applyStopped d (d.applyDue (grpKey b g)) supGroup

/-- The unit of a group is a loop slot, whose BOUNDARY commit applies at its own COMMIT_APPLY (R157). -/
def slotGroup (k : Nat) : Bool := decide (k / 256 = 0x18) || decide (k / 256 = 0x19)

/-- An admitted application of a waiting commit: an AT commit is late by then, and a BOUNDARY commit of a running unit holds its places
and applies at the unit's next boundary (R42, R60). [Log 22 DESIGN CHOICE] -/
def Dev.applyAdmitted (d : Dev) (k : Nat) : Dev :=
  let g := d.grp k
  if g.st ≠ .pending then d
  else match g.mode with
    | .now => d.applyOne k d.nowNs none
    | .boundary =>
      if ¬ d.unitRuns k ∧ (d.boundaryNow k).isSome then d.applyOne k d.nowNs none
      else
        let d := d.setGrp k { g with admitted := true, goT := d.now - nsT 20 }
        if slotGroup k then d else d.applyDue k
    | .atTime => d.applyOne k d.nowNs (some g.target)

/-! ### The group control registers (R64) -/

/-- What refuses GRP_COMMIT.GO (R40, R45, R59, R416). [Log 16 DEDUCED] -/
def Dev.goRefusal (d : Dev) (agent : AgentId) (k mode : Nat) : Option Cause :=
  let e := d.groupWould k
  match d.claimRefusal agent k with
  | some c => some c
  | none =>
    if mode = 3 then some .reserved
    else if (d.grp k).st = .idle then some .state
    else if mode = 2 ∧ ¬ Dev.nowOk d e k then some .running
    else if k = grpKey 0x08 0 ∧ mode ≠ 1 then some .state
    else match d.commitCheck e k with
      | some c => some c
      | none => if (d.grpChanges k).length > 4032 then some .size else none

/-- An accepted GO: the group is PENDING, and applies at once where its mode and its unit allow (R40). A running slot applies at
its own COMMIT_APPLY (R157). -/
def Dev.grpGo (d : Dev) (k mode : Nat) : Dev :=
  let g := d.grp k
  let m : CommitMode := if mode = 0 then .boundary else if mode = 1 then .atTime else .now
  let g := { g with st := .pending, mode := m, goT := d.now, target := unitTime (k / 256) g.atT }
  let d := d.setGrp k g
  let d := d.when (decide (k = grpKey 0x08 0) && d.tieOn) fun d =>
    d.sendPlan (d.groupWould k) ((List.range 16).filter fun i => g.staged.any fun p => p.1 = TIE.PLAN_T i ∨ p.1 = TIE.PLAN_T i + 4) g.target
  if slotGroup k && decide (mode = 0) && d.unitRuns k then d else d.applyDue k

/-- What refuses an accepted-looking GRP_ABORT (R37, R38, R40, R46). -/
def Dev.abortRefusal (d : Dev) (agent : AgentId) (k : Nat) : Option Cause :=
  let g := d.grp k
  if g.st = .idle then some .state
  else if g.owner ≠ agent ∧ agent ≠ 0x0500 ∧ agent ≠ 0x0600 then some .busy
  else if g.st = .global then some .state
  else none

/-- CLAIM_AGE_EXPIRY (R38): the claim on group `g` of block `b` has grown older than the limit. -/
def execClaimAgeExpiry (b g : Nat) (s : State) : Host.Outcome State Fault Refusal :=
  s.onDev fun d => d.when (d.tooOld (grpKey b g)) fun d => d.abortGrp devAgent (grpKey b g)

/-! ### The global commit facility (R44 to R46) -/

/-- GC_STATUS: 0 IDLE, 1 CLAIMED, 2 PENDING; and the owner. -/
def Dev.gcState (d : Dev) : Nat := d.fld SYS.GC_STATUS_STATE
def Dev.gcOwner (d : Dev) : AgentId := BitVec.ofNat 16 (d.fld SYS.GC_STATUS_OWNER)

/-- The facility's state shown. -/
def Dev.gcShow (d : Dev) (st : Nat) (owner : AgentId) : Dev := (d.setFld SYS.GC_STATUS_STATE st).setFld SYS.GC_STATUS_OWNER owner.toNat

/-- The facility is claimed by another agent (R44). -/
def Dev.gcBusy (d : Dev) (agent : AgentId) : Bool := decide (d.gcState ≠ 0) && decide (d.gcOwner ≠ agent)

/-- The groups the valid entries name, in list order. -/
def Dev.gcEntries (d : Dev) : List Nat :=
  ((List.range 64).filter fun n => d.flag (SYS.GC_LIST_VALID n)).map fun n =>
    grpKey (d.fld (SYS.GC_LIST_BLOCK n)) (d.fld (SYS.GC_LIST_GROUP n))

/-- A list has no repeats. -/
def distinct : List Nat → Bool
  | [] => true
  | x :: t => !t.contains x && distinct t

/-- The list is valid (R45). -/
def Dev.gcListOk (d : Dev) : Bool :=
  let l := d.gcEntries
  !l.isEmpty && distinct l && l.all fun k =>
    decide (k % 256 < grpCount (k / 256)) && decide ((d.grp k).st = .claimed) && decide ((d.grp k).owner = d.gcOwner)

/-- What refuses GC_CTRL.GO (R45, R46, R59): the list, a block's own conditions over the state the whole commit leaves, or its size.
[Log 16 DEDUCED] -/
def Dev.gcGoRefusal (d : Dev) : Option Cause :=
  if !d.gcListOk then some .list
  else if d.gcEntries.contains (grpKey 0x08 0) ∧ ¬ d.tieMaster then some .state
  else
    let l := d.gcEntries
    let e := l.foldl (fun e k => (d.grp k).staged.foldl (fun e p => e.setReg p.1 (d.mergeStg p.1 p.2)) e) d
    match l.findSome? (fun k => d.commitCheck e k) with
    | some c => some c
    | none => if (l.flatMap d.grpRecs).length > 4032 then some .size else none

/-- What refuses a write of GC_CTRL (R45, R46, R65). [Log 147 DESIGN CHOICE] -/
def Dev.gcCtrlRefusal (d : Dev) (agent : AgentId) (v : Nat) : Option Cause :=
  if v / 2 ^ 29 = 0 then none
  else if d.gcBusy agent then some .busy
  else if popCount 3 (v / 2 ^ 29) > 1 then some .state
  else if bitOf v 29 then (if d.gcState = 2 then some .state else none)
  else if bitOf v 30 then (if d.gcState = 2 then none else some .state)
  else if d.gcState = 2 then some .pending
  else if d.gcState = 0 then some .state
  else d.gcGoRefusal

/-- Every entry of the list invalid. -/
def Dev.gcClearList (d : Dev) : Dev := d.each (List.range 64) fun d n => d.setFld (SYS.GC_LIST_VALID n) 0

/-- A time at least 250 ns from now, on a whole nanosecond (R45, R48). -/
def Dev.soon (d : Dev) : Time := ceilNs (d.now + nsT 250)

/-- An accepted write of GC_CTRL (R45, R46, R65). -/
def Dev.gcCtrl (d : Dev) (v : Nat) : Dev :=
  if bitOf v 29 then (d.gcClearList).gcShow 0 0
  else if bitOf v 30 then
    let ks := match d.gc with | some g => g.groups | none => []
    let d := d.each ks fun d k => d.setGrp k { d.grp k with st := .claimed }
    ({ d with gc := none } : Dev).gcShow 1 d.gcOwner
  else if bitOf v 31 then
    let ks := sortBy id d.gcEntries
    let asap := bitOf v 0
    let at_ := d.reg64 SYS.GC_AT
    let late := !asap && decide (dist (d.now + nsT 250) at_ < 0)
    let d := d.each ks fun d k => d.setGrp k { d.grp k with st := .global, goT := d.now }
    let g : GlobalCommit := { groups := ks, target := if asap then d.soon else at_, applyAt := if asap ∨ late then d.soon else at_, late := late }
    ({ d with gc := some g } : Dev).gcShow 2 d.gcOwner
  else d

/-- First regulation (R21, R81, R248, R437): regulation has begun, the cores are released, and event 7 is raised.
[Log 33 DEDUCED, 34 DEDUCED] -/
def Dev.firstRegulation (d : Dev) (t : Time) : Dev :=
  let d := ((d.setFld NVM.BOOT_STATUS_STATE 2).setReg64 NVM.BOOT_TIME t).setFld MILEPOST.MP_STATUS_SET_OPEN 0
  let d : Dev := { d.coresFirst with loader := none, fm := { d.fm with relT := t } }
  ((d.showFaultN).showArmed).raise 7

/-- The groups of the pending global commit applied at `t` (R46). [Log 18 DEDUCED, 34 DEDUCED, 146 DESIGN CHOICE] -/
def Dev.gcApply (d : Dev) (g : GlobalCommit) (t : Time) (late : Bool) : Dev :=
  let owner := d.gcOwner
  let (cs, n, d) := if g.groups.isEmpty then (0, 0, d) else d.applyGroups g.groups t late true
  let d := d.when late fun d => (d.lateAct 0 g.target t).each g.groups Dev.unitLate
  let d := (d.setFld SYS.GC_RESULT_RECORDS n).setFld SYS.GC_RESULT_SEQ cs.toNat
  let d := ((d.setReg64 SYS.GC_APPLIED t).setFld SYS.GC_STATUS_LATE (b2n late)).gcClearList
  let d := ({ d with gc := none } : Dev).gcShow 0 0
  d.when (decide (owner = 0) && !d.regulated && !g.groups.isEmpty) fun d => d.firstRegulation t

/-- GLOBAL_COMMIT_APPLY (R46): the time of the pending global commit is reached. [Log 19 DESIGN CHOICE] -/
def execGlobalCommitApply (s : State) : Host.Outcome State Fault Refusal :=
  s.onDev fun d =>
    match d.gc with
    | none => d
    | some g =>
      if ¬ d.due g.applyAt ∨ (d.led.waiting.any fun w => w.kind = .globalApply) then d
      else if d.lgFull (g.groups.flatMap d.grpRecs).length then
        d.stall { agent := d.gcOwner, kind := .globalApply, since := d.now }
      else Dev.applyStopped d (d.gcApply g g.applyAt g.late) supGroup

/-! ### Snapshots (R48) -/

/-- A snapshot requested (R48); one that is pending already goes on. [Log 23 DEDUCED] -/
def Dev.snapRequest (d : Dev) : Dev :=
  if d.snap.isSome then d
  else
    let at_ := floorNs (d.reg64 SYS.SNAP_AT)
    let byTime := d.flag SYS.SNAP_CTRL_MODE
    let late := byTime && decide (dist (d.now + nsT 250) at_ < 0)
    let x : Snapshot := { mask := d.reg64 SYS.SNAP_MASK, latchAt := if byTime && !late then at_ else d.soon, target := at_, late := late }
    ({ d with snap := some x } : Dev).setFld SYS.SNAP_STATUS_PENDING 1

/-- The shadows of one block latched at `t` (R106, R125, R159, R207). [Log 23 DEDUCED] -/
def Dev.latchBlock (d : Dev) (t : Time) (b : Nat) : Dev :=
  if 0x10 ≤ b ∧ b ≤ 0x15 then d.adcSnap (b - 0x10) t
  else if b = 0x16 ∨ b = 0x17 then d.compSnap (b - 0x16)
  else if b = 0x18 ∨ b = 0x19 then d.loopSnap (b - 0x18) t
  else if 0x20 ≤ b ∧ b ≤ 0x22 then
    d.each ((List.range 32).map (32 * (b - 0x20) + ·)) fun d o => d.setReg (PWM.SNAP_CMP o) (d.reg (outNow o))
  else d

/-- SNAPSHOT_LATCH (R48): the shadows of the selected blocks are latched at one whole nanosecond.
[Log 19 DESIGN CHOICE, 23 DEDUCED] -/
def execSnapshotLatch (s : State) : Host.Outcome State Fault Refusal :=
  s.onDev fun d =>
    match d.snap with
    | none => d
    | some x => d.when (d.due x.latchAt) fun d =>
      let d := d.each (setBits 64 x.mask.toNat) fun d b => d.latchBlock x.latchAt b
      let d := d.when x.late fun d => d.lateAct 0 x.target x.latchAt
      let d := ((d.setReg64 SYS.SNAP_TIME x.latchAt).setFld SYS.SNAP_STATUS_COUNT (d.fld SYS.SNAP_STATUS_COUNT + 1)).setFld SYS.SNAP_STATUS_DONE 1
      ({ d with snap := none } : Dev).setFld SYS.SNAP_STATUS_PENDING 0 |>.setFld SYS.SNAP_CTRL_REQUEST 0

end Sys2Proof.Machine
end

