-- ==== Sys2Proof/Machine/Time.lean ====
section
/-!
DEFINITION. Machine/Time.lean: the Milepost, its reference and holdover, the slew and the pace monitor (spec/01).
-/
namespace Sys2Proof.Machine

/-! ### The reference (R16 to R20) -/

/-- REF_STATE as the register shows it: 0 START, 1 LOCKED, 2 HOLDOVER, 3 QUALIFYING, 4 FREE. -/
def Dev.refState (d : Dev) : Nat := d.fld MILEPOST.MP_STATUS_REF_STATE

/-- A nominal reference period in nanoseconds: 10 at 100 MHz, 40 at 25 MHz. -/
def Dev.refPeriod (d : Dev) : Nat := if d.fld MILEPOST.MP_CTRL_REF_FREQ = 1 then 10 else 40

/-- The reference is declared lost (R17). -/
def Dev.refLost (d : Dev) : Dev :=
  let old := d.reg MILEPOST.MP_STATUS
  let d := d.setFld MILEPOST.MP_STATUS_REF_STATE 2
  let d := (d.setFld MILEPOST.MP_FLAGS_REF_LOST 1).setNum MILEPOST.MP_HOLD_TIME 0
  let d := { d with time := { d.time with holdStart := d.now, qualSince := none } }
  ((d.raise 1).report 1 0).sysRec MILEPOST.MP_STATUS old

/-- The Milepost returns to the reference (R19), or takes it from FREE (R20). [Log 27 DEDUCED] -/
def Dev.refReturn (d : Dev) : Dev :=
  let old := d.reg MILEPOST.MP_STATUS
  let d := d.setFld MILEPOST.MP_STATUS_REF_STATE 1
  let d := d.setFld MILEPOST.MP_FLAGS_REF_RETURNED 1
  let d := { d with time := { d.time with lockedSince := d.now, qualSince := none } }
  (d.raise 2).sysRec MILEPOST.MP_STATUS old

/-- R16's conditions break: a loss when LOCKED, back to HOLDOVER when QUALIFYING, qualification restarted otherwise. -/
def Dev.refBreak (d : Dev) : Dev :=
  let d' := { d with time := { d.time with qualSince := none } }
  if d.refState = 1 then d.refLost
  else if d.refState = 3 then d'.setFld MILEPOST.MP_STATUS_REF_STATE 2
  else d'

/-- TIME_BASE_QUALIFIED (R13): the Milepost starts counting on the reference. [Log 28 DESIGN CHOICE] -/
def execTimeBaseQualified (s : State) : Host.Outcome State Fault Refusal :=
  s.onDev fun d => d.when (!d.time.counting) fun d =>
    let d := { d with time := { d.time with counting := true, lastEdge := d.now, lockedSince := d.now, windowStart := d.now } }
    d.setFld MILEPOST.MP_STATUS_REF_STATE 1

/-- BACKUP_FALLBACK_TIMEOUT (R13): no reference within 2 ms, so the Milepost starts on the backup oscillator. -/
def execBackupFallbackTimeout (s : State) : Host.Outcome State Fault Refusal :=
  s.onDev fun d => d.when (!d.time.counting) fun d =>
    let d := { d with time := { d.time with counting := true, lastEdge := d.now, windowStart := d.now } }
    d.setFld MILEPOST.MP_STATUS_REF_STATE 4

/-- BACKUP_TRAINED (R18): the trim has held for 100 ms while locked. -/
def execBackupTrained (s : State) : Host.Outcome State Fault Refusal :=
  s.onDev fun d =>
    d.when (decide (d.refState = 1) && d.due (d.time.lockedSince + nsT 100000000)) fun d =>
      d.setFld MILEPOST.MP_STATUS_BACKUP_TRAINED 1

/-- REF_EDGE (R16): an edge arrives; `devPpb` is the deviation of the 10 µs average from nominal in parts per billion.
[Log 28 DESIGN CHOICE] -/
def execRefEdge (devPpb : Nat) (s : State) : Host.Outcome State Fault Refusal :=
  s.onDev fun d => d.when (decide (d.refState ≠ 0)) fun d =>
    let d := { d with time := { d.time with lastEdge := d.now } }
    if devPpb > d.fld MILEPOST.MP_REFQUAL_FREQ_TOL * 10000 then d.refBreak
    else if (d.refState = 2 ∨ d.refState = 4) ∧ d.time.qualSince = none then
      { d with time := { d.time with qualSince := some d.now } }
    else d

/-- REF_MISS_TIMEOUT (R16): MISS_LIMIT nominal periods have passed since the last edge. -/
def execRefMissTimeout (s : State) : Host.Outcome State Fault Refusal :=
  s.onDev fun d =>
    d.when (decide (d.refState ≠ 0)
      && d.due (d.time.lastEdge + nsT (d.fld MILEPOST.MP_REFQUAL_MISS_LIMIT * d.refPeriod))) Dev.refBreak

/-- REF_QUALIFIED (R19, R20): the conditions have held for 1 ms. -/
def execRefQualified (s : State) : Host.Outcome State Fault Refusal :=
  s.onDev fun d =>
    match d.time.qualSince with
    | none => d
    | some t =>
      if !d.due (t + nsT 1000000) then d
      else if d.refState = 4 then d.refReturn
      else if d.refState = 2 then
        let d := d.setFld MILEPOST.MP_STATUS_REF_STATE 3
        if d.flag MILEPOST.MP_CTRL_AUTO_RETURN then d.refReturn else d
      else d

/-! ### Loads of the Milepost (R14, R21, R414) -/

/-- A stamp from which an elapsed time is counted, moved by the step of a load. [Log 153 DEDUCED] -/
def Timebase.shift (x : Timebase) (s : Time) : Timebase :=
  { x with
    milepost := x.milepost + s, lastEdge := x.lastEdge + s, qualSince := x.qualSince.map (· + s)
    lockedSince := x.lockedSince + s, holdStart := x.holdStart + s, windowStart := x.windowStart + s, upHold := x.upHold.map (· + s) }

/-- The tie link's stamps moved by the step of a load. -/
def TieSt.shift (x : TieSt) (s : Time) : TieSt :=
  { x with
    hop0 := { x.hop0 with last := x.hop0.last + s }, hop1 := { x.hop1 with last := x.hop1.last + s }
    echo0 := x.echo0.map (· + s), echo1 := x.echo1.map (· + s), echoAt := x.echoAt + s, syncAt := x.syncAt + s
    lastSync := x.lastSync + s, raSince := x.raSince + s, heard := x.heard.map fun p => (p.1, p.2 + s)
    unacked := x.unacked.map fun f => { f with nextAt := f.nextAt + s } }

/-- The supply die's stamps moved by the step of a load. -/
def SupplySt.shift (x : SupplySt) (s : Time) : SupplySt :=
  { x with
    railOut := x.railOut.map fun p => (p.1, p.2 + s), vinSince := x.vinSince.map (· + s)
    vioMove := x.vioMove.map fun p => (p.1, p.2 + s), upAt := x.upAt.map fun p => (p.1, p.2 + s) }

/-- A load moves the Milepost by a step. What a unit counts as elapsed time goes on across it, so the stamps it is counted from move
with it; times that are Milepost times (targets, instants, records) stay. [Log 153 DEDUCED] -/
def Dev.loadStep (d : Dev) (s : Time) : Dev :=
  { d with
    time := d.time.shift s, tie := d.tie.shift s, sup := d.sup.shift s
    groups := d.groups.map fun p => (p.1, if p.2.st = .idle then p.2 else { p.2 with claimT := p.2.claimT + s })
    led := { d.led with waiting := d.led.waiting.map fun w => { w with since := w.since + s } }
    loader := d.loader.map fun l => { l with since := l.since + s, until_ := l.until_ + s }
    flash := { d.flash with calibAt := d.flash.calibAt + s }
    adcHalves := Tab.remap {} (fun x => { x with nextAt := x.nextAt + s, doneAt := x.doneAt + s, lapStart := x.lapStart.map (· + s) }) d.adcHalves
    comps := Tab.remap {} (fun x => { x with
      riseAt := x.riseAt.map (· + s), settleEnd := x.settleEnd + s, disSince := x.disSince.map (· + s) }) d.comps
    compBlks := Tab.remap {} (fun x => { x with
      nextAt := x.nextAt + s, lapStart := x.lapStart + s, test := x.test.map fun t => { t with nextAt := t.nextAt + s } }) d.compBlks
    lineTrue := Tab.remap {} (fun x => { x with doneAt := x.doneAt + s, lapStart := x.lapStart.map (· + s), nextAt := x.nextAt + s }) d.lineTrue
    pins := Tab.remap {} (fun x => { x with since := x.since.map (· + s) }) d.pins
    xings := d.xings.map fun p => (p.1, { p.2 with endT := p.2.endT + s })
    dmas := Tab.remap {} (fun x => { x with since := x.since + s }) d.dmas
    ringIrqs := Tab.remap {} (fun x => { x with since := x.since + s }) d.ringIrqs
    pass := d.pass.map fun p => { p with startT := p.startT + s, nextT := p.nextT + s }
    lapStart := d.lapStart + s, spareTestT := d.spareTestT + s
    fm := { d.fm with relT := d.fm.relT + s }, cons := { d.cons with until_ := d.cons.until_ + s } }

/-! ### The counter (R13, R14, R22) -/

/-- The signed slew remainder (R22). -/
def Dev.slewRemain (d : Dev) : Int := (d.reg MILEPOST.MP_SLEW).toInt

/-- A new slew remainder; SLEW_DONE sets when it is zero, and the count of ticks restarts (R22). [Log 25 DEDUCED] -/
def Dev.setSlew (d : Dev) (v : Word) : Dev :=
  let d := (d.setReg MILEPOST.MP_SLEW v).setFld MILEPOST.MP_STATUS_SLEWING (b2n (v != 0))
  let d := { d with time := { d.time with slewTicks := 0 } }
  d.when (v == 0) fun d => d.setFld MILEPOST.MP_FLAGS_SLEW_DONE 1

/-- The next tick is the adjusted tick of its INTERVAL (R22). -/
def Dev.slewDue (d : Dev) : Bool :=
  d.time.counting && decide (d.reg MILEPOST.MP_SLEW ≠ 0) && decide (d.time.slewTicks + 1 ≥ d.fld MILEPOST.MP_SLEW_CFG_INTERVAL)

/-- MP_HOLD_TIME follows the microseconds of the present holdover (R18). -/
def Dev.holdTime (d : Dev) : Dev :=
  d.when (decide (d.refState = 2) || decide (d.refState = 3)) fun d =>
    d.setNum MILEPOST.MP_HOLD_TIME (min 0xFFFFFFFF ((d.now - d.time.holdStart).toNat / 64000))

/-- An adjusted tick: 65 or 63 fine ticks, and the remainder one step toward zero (R22). -/
def Dev.slewTick (d : Dev) : Dev :=
  let up := decide (d.slewRemain > 0)
  let d := { d with time := { d.time with milepost := d.now + (if up then 65 else 63) } }
  (d.setSlew (if up then d.reg MILEPOST.MP_SLEW - 1 else d.reg MILEPOST.MP_SLEW + 1)).holdTime

/-- One tick of the 1 GHz time base (R13, R22). [Log 1 DESIGN CHOICE] -/
def Dev.tick (d : Dev) : Dev :=
  if !d.time.counting then d
  else if d.slewDue then d.slewTick
  else { d with time := { d.time with milepost := d.now + 64, slewTicks := d.time.slewTicks + 1 } }.holdTime

/-- SLEW_ADJUSTED_TICK (R22). -/
def execSlewAdjustedTick (s : State) : Host.Outcome State Fault Refusal :=
  s.onDev fun d => d.when d.slewDue Dev.slewTick

/-- A high word latched for an agent by its read of the low word (R7). -/
def halfKey (agent : AgentId) (a : Nat) : Nat := agent.toNat * 0x10000000 + a

/-- The value an agent reads of MP_NOW: whole nanoseconds, the high word latched (R14). -/
def Dev.readNow (d : Dev) (agent : AgentId) : Word × Dev :=
  let v := floorNs d.now
  (v.setWidth 32, { d with halfR := Tab.put (halfKey agent MILEPOST.MP_NOW_LO) ((v >>> 32).setWidth 32) d.halfR })

/-- MP_NOW_READ (R14): refused where the protection map gives the agent no read of the block (R427). -/
def execMpNowRead (a : Agent) (s : State) : Host.Outcome State Fault Refusal :=
  s.onDev fun d =>
    if d.blkLevel a.id 0x02 = 0 then { d with answer := .busError }
    else
      let (v, d) := d.readNow a.id
      { d with answer := .value v }

/-! ### The pace monitor (R30 to R32) -/

/-- A latency leaves a margin of at least `m` / 256 of its budget. [Log 26 DEDUCED] -/
def marginOk (budget lat m : Nat) : Bool := decide (lat * 256 + m * budget ≤ budget * 256)

/-- A VCORE request (R31, R32), kept within 680 mV and 850 mV (R30). [Log 26 DEDUCED] -/
def Dev.requestVcore (d : Dev) (mv : Nat) (old : Word) : Dev :=
  let mv := min 850 (max 680 mv)
  let d := d.setFld MILEPOST.PACE_STATUS_VCORE_MV mv
  let d := d.setFld MILEPOST.PACE_STATUS_AT_CEILING (b2n (mv == 850))
  (d.setFld MILEPOST.PACE_STATUS_AT_FLOOR (b2n (mv == 680))).sysRec MILEPOST.PACE_STATUS old

/-- The worst of a window's measurements. -/
def worse (w : Option Nat) (lat : Nat) : Option Nat := some (max lat (w.getD 0))

/-- A measurement in ADAPT mode: OVER_BUDGET, and an up request at once (R31). [Log 26 DEDUCED] -/
def Dev.paceAdapt (d : Dev) (budget lat : Nat) : Dev :=
  let old := d.reg MILEPOST.PACE_STATUS
  let d := d.when (decide (lat > budget) && !d.flag MILEPOST.PACE_STATUS_OVER_BUDGET) fun d =>
    (d.setFld MILEPOST.PACE_STATUS_OVER_BUDGET 1).raise 3
  if marginOk budget lat (d.fld MILEPOST.PACE_MARGIN_CFG_RAISE_MARGIN) ∨ d.flag MILEPOST.PACE_STATUS_EXTERNAL
      ∨ d.time.upHold ≠ none ∨ d.fld MILEPOST.PACE_STATUS_VCORE_MV ≥ 850 then d
  else
    let d := { d with time := { d.time with upHold := some (d.now + nsT 1000), downBlocked := 5 } }
    d.requestVcore (d.fld MILEPOST.PACE_STATUS_VCORE_MV + d.fld MILEPOST.PACE_STEP_UP_STEP) old

/-- PACE_MEASUREMENT (R31): a latency in fine ticks of a slice evaluation (`loop`) or of a ring's rotation step. -/
def execPaceMeasurement (loop : Bool) (lat : Nat) (s : State) : Host.Outcome State Fault Refusal :=
  s.onDev fun d => d.when (decide (d.fld MILEPOST.PACE_CTRL_MODE ≠ 0)) fun d =>
    let budget := if loop then d.fld MILEPOST.PACE_TARGET_LOOP_BUDGET else d.fld MILEPOST.PACE_TARGET_RING_BUDGET
    let d : Dev := { d with time :=
      if loop then { d.time with loopWorst := worse d.time.loopWorst lat }
      else { d.time with ringWorst := worse d.time.ringWorst lat } }
    d.when (decide (d.fld MILEPOST.PACE_CTRL_MODE = 2)) fun d => d.paceAdapt budget lat

/-- PACE_UP_HOLDOFF_END (R31): 1 µs after an up request. -/
def execPaceUpHoldoffEnd (s : State) : Host.Outcome State Fault Refusal :=
  s.onDev fun d =>
    match d.time.upHold with
    | none => d
    | some t => d.when (d.due t) fun d => { d with time := { d.time with upHold := none } }

/-- The window's length in nanoseconds (R33 PACE_CTRL.WINDOW). -/
def Dev.paceWindow (d : Dev) : Nat := 10000 * 10 ^ d.fld MILEPOST.PACE_CTRL_WINDOW

/-- A worst value is absent or keeps the LOWER_MARGIN of its budget. -/
def Dev.lowerOk (d : Dev) (w : Option Nat) (budget : Nat) : Bool :=
  match w with
  | none => true
  | some lat => marginOk budget lat (d.fld MILEPOST.PACE_MARGIN_CFG_LOWER_MARGIN)

/-- PACE_WINDOW_END (R31): PACE_WORST is updated, and a down step may be requested. [Log 26 DEDUCED, 144 DESIGN CHOICE] -/
def execPaceWindowEnd (s : State) : Host.Outcome State Fault Refusal :=
  s.onDev fun d =>
    d.when (decide (d.fld MILEPOST.PACE_CTRL_MODE ≠ 0) && d.due (d.time.windowStart + nsT d.paceWindow)) fun d =>
      let lw := d.time.loopWorst
      let rw := d.time.ringWorst
      let ok := d.lowerOk lw (d.fld MILEPOST.PACE_TARGET_LOOP_BUDGET) && d.lowerOk rw (d.fld MILEPOST.PACE_TARGET_RING_BUDGET)
      let blocked := d.time.downBlocked
      let d := d.setNum MILEPOST.PACE_WORST (min 0xFFFF (rw.getD 0) * 0x10000 + min 0xFFFF (lw.getD 0))
      let d := { d with time := { d.time with windowStart := d.now, loopWorst := none, ringWorst := none, downBlocked := blocked - 1 } }
      if d.fld MILEPOST.PACE_CTRL_MODE = 2 ∧ ok ∧ blocked = 0 ∧ ¬ d.flag MILEPOST.PACE_STATUS_EXTERNAL
          ∧ d.fld MILEPOST.PACE_STATUS_VCORE_MV > 680 then
        d.requestVcore (d.fld MILEPOST.PACE_STATUS_VCORE_MV - d.fld MILEPOST.PACE_STEP_DOWN_STEP) (d.reg MILEPOST.PACE_STATUS)
      else d

/-! ### Writes of the MILEPOST registers -/

/-- What refuses a write of a MILEPOST register beside its fields' ranges (R19, R33): stage, bit and cause (R51). -/
def Dev.milepostRefusals (d : Dev) (a : Nat) (v : Word) : List (Nat × Nat × Cause) :=
  if a = MILEPOST.MP_CTRL then (if bitOf v.toNat 2 ∧ d.refState ≠ 3 then [(3, 2, .state)] else [])
  else if a = MILEPOST.PACE_MARGIN_CFG then
    (if bitsOf v.toNat 15 8 ≤ bitsOf v.toNat 7 0 then [(3, 15, .range)] else [])
  else []

/-- The action of an accepted write of a MILEPOST register. [Log 24 DEDUCED, 27 DEDUCED, 144 DESIGN CHOICE] -/
def Dev.milepostEffect (d : Dev) (a : Nat) (old v : Word) : Dev :=
  if a = MILEPOST.MP_CTRL then d.when (decide (d.refState = 3) && (bitOf v.toNat 2 || bitOf v.toNat 4)) Dev.refReturn
  else if a = MILEPOST.MP_SET + 4 then d.loadStep (d.reg64 MILEPOST.MP_SET - d.now)
  else if a = MILEPOST.MP_SLEW then d.setSlew v
  else if a = MILEPOST.MP_SLEW_CFG then (if old = v then d else { d with time := { d.time with slewTicks := 0 } })
  else if a = MILEPOST.LATE_CLR then
    d.when (bitOf v.toNat 0) fun d =>
      ((d.setNum MILEPOST.LATE_COUNT 0).setReg64 MILEPOST.LATE_LAST 0).setNum MILEPOST.LATE_SRC 0
  else d

end Sys2Proof.Machine
end

