-- ==== Sys2Proof/Machine/Refuse.lean ====
section
/-!
DEFINITION. Machine/Refuse.lean: register words as they read, and what refuses a write of one (spec/00 R6 to R9, spec/02 R49 to R52,
and each block's own rules).
-/
namespace Sys2Proof.Machine

/-! ### Words that read 0 and ignore writes -/

/-- The coefficient word a LOOP block's window address names: slot, set and index (R145). -/
def coefAt (a : Nat) : Option (Nat × Nat × Nat) :=
  if (a / 0x10000 = 0x18 ∨ a / 0x10000 = 0x19) ∧ 0x4000 ≤ a % 0x10000 ∧ a % 0x10000 < 0x5000 then
    let x := a % 0x10000 - 0x4000
    some (16 * (a / 0x10000 - 0x18) + x / 0x100, x / 0x40 % 4, x / 4 % 16)
  else none

/-- A word that reads 0 and ignores writes although its table lists it: a route of a reserved event, a reserved fault source, a
reserved coefficient word, PAIR_CFG of an odd comparator (R135, R145, R423, R453). [Log 11 DESIGN CHOICE] -/
def deadWord (a : Nat) : Bool :=
  if JUNCTION.ROUTE 0 ≤ a ∧ a < JUNCTION.ROUTE 1536 then !eventIdUsed ((a - JUNCTION.ROUTE 0) / 4)
  else if FAULT.SRC_CFG 0 ≤ a ∧ a < FAULT.SRC_CFG 32 then decide ((a - FAULT.SRC_CFG 0) / 4 ≥ 0x18)
  else match coefAt a with
    | some (_, _, i) => decide (i ≥ 9)
    | none =>
      (decide (a / 0x10000 = 0x16) || decide (a / 0x10000 = 0x17)) && decide (0x100 ≤ a % 0x10000) && decide (a % 0x10000 < 0xD00)
        && decide (a % 0x20 = 0x08) && decide ((a % 0x10000 - 0x100) / 0x20 % 2 = 1)

/-! ### Reading (R7, R39, R64) -/

/-- The group control registers lie at 0xFF00 to 0xFF27 of every block (R64). -/
def isGrpReg (a : Nat) : Bool := decide (0xFF00 ≤ a % 0x10000) && decide (a % 0x10000 < 0xFF28)

/-- A group control register as an agent reads it (R39, R64). -/
def Dev.grpRead (d : Dev) (agent : AgentId) (a : Nat) : Word :=
  let b := a / 0x10000
  let o := a % 0x10000
  let n := d.selected agent b
  let g := if grpCount b = 0 then {} else d.grp (grpKey b n)
  if o = 0xFF00 then BitVec.ofNat 32 (b2n (d.viewsStaged agent b) * 0x10000 + grpCount b * 0x100 + n)
  else if o = 0xFF04 then (if g.st = .idle then 0 else BitVec.ofNat 32 (0x10000 + g.owner.toNat))
  else if o = 0xFF10 then
    let st := match g.st with | .idle => 0 | .claimed => 1 | .pending => 2 | .global => 3
    BitVec.ofNat 32 (g.seq.toNat * 0x10000 + g.cause * 0x1000 + b2n g.late * 0x800 + st)
  else if o = 0xFF14 then BitVec.ofNat 32 g.staged.length
  else if o = 0xFF18 then g.atT.setWidth 32
  else if o = 0xFF1C then (g.atT >>> 32).setWidth 32
  else if o = 0xFF20 then g.applied.setWidth 32
  else if o = 0xFF24 then (g.applied >>> 32).setWidth 32
  else 0

/-- The Ledger/scrub domain is off for a block that needs it (R441). [Log 49 DEDUCED] -/
def Dev.ledgerOff (d : Dev) (b : Nat) : Bool := (decide (b = 0x01) || decide (b = 0x0B)) && !d.domReady 57

/-- The staged word an agent sees in place of the active one (R39). -/
def Dev.stagedView (d : Dev) (agent : AgentId) (a : Nat) : Option Word :=
  match groupOf a with
  | none => none
  | some k =>
    let g := d.grp k
    if d.viewsStaged agent (a / 0x10000) ∧ d.selected agent (a / 0x10000) = k % 256 ∧ g.st ≠ .idle ∧ g.owner = agent then
      (Tab.find a g.staged).map fun v => d.mergeStg a v
    else none

/-- A register word as it reads to an agent, without the latch of a 64-bit register. [Log 11 DESIGN CHOICE] -/
def Dev.readWord (d : Dev) (agent : AgentId) (a : Nat) : Word :=
  if d.ledgerOff (a / 0x10000) || deadWord a then 0
  else if isGrpReg a then d.grpRead agent a
  else if a = SYS.WHOAMI then agent.setWidth 32
  else if a = HOST.QUEUE then BitVec.ofNat 32 d.hostQ.length
  else if a = MILEPOST.MP_NOW_LO then (floorNs d.now).setWidth 32
  else if 0x78000 ≤ a ∧ a < 0x78400 then Tab.get 0 (a % 0x10000) d.msix
  else match coefAt a with
    | some (s, k, i) => BitVec.ofNat 32 (ofBytes (d.bytes (coefAddr s k i) 4))
    | none =>
      match slotAt a with
      | some (s, 0x44) => d.slotStatus s
      | _ =>
        match d.stagedView agent a with
        | some v => v
        | none => if (regHit a).isSome then d.reg a else 0

/-- The low word of the 64-bit register a word belongs to, where it belongs to one. -/
def wideBase (a : Nat) : Option Nat :=
  if isGrpReg a then
    (if 0xFF18 ≤ a % 0x10000 then some (a / 8 * 8) else none)
  else if a = MILEPOST.MP_NOW_LO ∨ a = MILEPOST.MP_NOW_HI then some MILEPOST.MP_NOW_LO
  else match regHit a with
    | some h => if h.r.wide then some (if h.hiWord then a - 4 else a) else none
    | none => none

/-- A read of a register word (R7, R14): the low word of a 64-bit register latches the high word for the agent, whose next read of
the high word returns it. [Log 142 DESIGN CHOICE] -/
def Dev.regRead (d : Dev) (agent : AgentId) (a : Nat) : Word × Dev :=
  match wideBase a with
  | none => (d.readWord agent a, d)
  | some lo =>
    if a = lo then
      let hi := if lo = MILEPOST.MP_NOW_LO then (floorNs d.now >>> 32).setWidth 32 else d.readWord agent (lo + 4)
      (d.readWord agent lo, { d with halfR := Tab.put (halfKey agent lo) hi d.halfR })
    else if lo = MILEPOST.MP_NOW_LO then ((Tab.find (halfKey agent lo) d.halfR).getD (d.reg MILEPOST.MP_NOW_HI), d)
    else match Tab.find (halfKey agent lo) d.halfR with
      | some v => (v, { d with halfR := Tab.del (halfKey agent lo) d.halfR })
      | none => (d.readWord agent a, d)

/-! ### The order of refusals (R51) -/

/-- The first of two refusals: the lower stage, then the higher bit. [Log 12 DEDUCED] -/
def firstRefusal (x y : Nat × Nat × Cause) : Nat × Nat × Cause :=
  if y.1 < x.1 ∨ (y.1 = x.1 ∧ x.2.1 < y.2.1) then y else x

/-- The cause of the refusal found first (R51). [Log 12 DEDUCED] -/
def causeOf : List (Nat × Nat × Cause) → Option Cause
  | [] => none
  | x :: t => some (t.foldl firstRefusal x).2.2

/-- What a register's table refuses in a written value: a STOP field of a unit that runs, a reserved value, a value out of range
(R9, R51). [Log 14 DEDUCED] -/
def tableRefusals (h : RegHit) (v : Nat) (stopped : Bool) : List (Nat × Nat × Cause) :=
  h.r.fields.flatMap fun f =>
    if f.acc = .ro then []
    else
      let x := bitsOf v f.hi f.lo
      if f.acc = .stop ∧ ¬ stopped then [(2, f.hi, .running)]
      else if x > f.emax then [(2, f.hi, .reserved)]
      else if x < f.rlo ∨ f.rhi < x then [(2, f.hi, .range)]
      else []

/-- The unit of a STOP word is stopped (R21, R66, R320, R341, R351, R390, R424, R425, R429). [Log 14 DEDUCED] -/
def Dev.stopOk (d : Dev) (a : Nat) : Bool :=
  let b := a / 0x10000
  if b = 0x02 ∨ b = 0x05 then !d.regulated
  else if b = 0x01 then !d.lgDram
  else if b = 0x28 ∨ b = 0x29 then d.roundWritable a
  else if b = 0x2C then d.engWritable a
  else if b = 0x0A then [0, 1].all fun c => decide (d.dramState c = 0) || decide (d.dramState c = 1)
  else if b = 0x07 then d.hostRingStopped a
  else if b = 0x08 then d.tieStopped
  else true

/-! ### SYS and LEDGER (R44, R45, R57, R65, R66) -/

/-- What refuses a write of a SYS register. -/
def Dev.sysRefusals (d : Dev) (agent : AgentId) (a v : Nat) : List (Nat × Nat × Cause) :=
  if a = SYS.GC_CTRL then (match d.gcCtrlRefusal agent v with | some c => [(1, 31, c)] | none => [])
  else if a = SYS.GC_AT ∨ (SYS.GC_LIST 0 ≤ a ∧ a < SYS.GC_LIST 64) then
    (if d.gcBusy agent then [(1, 63, .busy)] else if d.gcState = 2 then [(1, 63, .pending)] else [])
  else []

/-- What refuses a write of a LEDGER register: DRAM without a trained channel; a ring that is not aligned or not in DRAM. -/
def Dev.ledgerRefusals (d : Dev) (a v : Nat) : List (Nat × Nat × Cause) :=
  if a = LEDGER.LG_CTRL then
    (if v % 4 = 1 ∧ d.dramState 0 ≠ 3 ∧ d.dramState 1 ≠ 3 then [(3, 1, .state)] else [])
  else if a = LEDGER.LG_RING_BASE then
    let x := v % 2 ^ 40
    (if x % 2 ^ 29 ≠ 0 ∨ x < dramBase ∨ dramBase + d.dramBytes < x + 2 ^ 29 then [(2, 39, .range)] else [])
  else []

/-- A coefficient word is in use, or named by a staged SET (R145). [Log 64 DEDUCED] -/
def Dev.coefRefusals (d : Dev) (a : Nat) : List (Nat × Nat × Cause) :=
  match coefAt a with
  | none => []
  | some (s, k, _) =>
    let g := d.grp (grpKey (0x18 + s / 16) (s % 16))
    let named := decide (g.st ≠ .idle) && (match Tab.find (LOOP.SLOT_CFG s) g.staged with
      | some w => decide (bitsOf w.toNat (LOOP.SLOT_CFG_SET s).hi (LOOP.SLOT_CFG_SET s).lo = k)
      | none => false)
    if (d.slotMode s ≠ 0 ∧ d.fld (LOOP.SLOT_STATUS_CUR_SET s) = k) ∨ named then [(3, 31, .state)] else []

/-! ### PROTECT (R429 to R433, R452) -/

/-- An agent ID that may not be a consent party (R430). -/
def badParty (x : Nat) : Bool := decide (x = 0) || decide (x = 0x0600)

/-- The field rules of the PROTECT words that the register table does not state. -/
def protectRefusals (a v : Nat) : List (Nat × Nat × Cause) :=
  if a = PROTECT.CONS_PARTY then
    (if badParty (bitsOf v 31 16) then [(2, 31, .range)] else []) ++ (if badParty (bitsOf v 15 0) then [(2, 15, .range)] else [])
      ++ (if bitsOf v 31 16 = bitsOf v 15 0 then [(3, 31, .range)] else [])
  else if PROTECT.BLK_PERM 0 ≤ a ∧ a < PROTECT.BLK_PERM 64 then
    (if [1, 2, 3, 4, 5, 7].any fun k => decide (bitsOf v (2 * k + 1) (2 * k) = 3) then [(2, 15, .reserved)] else [])
  else []

/-- The consent parties. -/
def Dev.partyA (d : Dev) : AgentId := BitVec.ofNat 16 (d.fld PROTECT.CONS_PARTY_PARTY_A)
def Dev.partyB (d : Dev) : AgentId := BitVec.ofNat 16 (d.fld PROTECT.CONS_PARTY_PARTY_B)

/-- A consent is proposed (R431). -/
def Dev.proposed (d : Dev) : Bool := d.flag PROTECT.CONS_STATUS_STATE

/-- Who may write the words of a consent, and when (R431, R432). -/
def Dev.consentRefusals (d : Dev) (agent : AgentId) (a : Nat) : List (Nat × Nat × Cause) :=
  let entry := decide (PROTECT.CONS_TARGET 0 ≤ a) && decide (a < PROTECT.CONS_TARGET 16)
  let digest := decide (PROTECT.CONS_DIGEST 0 ≤ a) && decide (a < PROTECT.CONS_DIGEST 12)
  if entry || decide (a = PROTECT.CONS_COUNT) then
    (if agent ≠ d.partyA then [(1, 31, .permission)] else if d.proposed then [(1, 31, .pending)] else [])
  else if digest then
    (if agent = d.partyB then [] else if agent ≠ d.partyA then [(1, 31, .permission)] else if d.proposed then [(1, 31, .pending)] else [])
  else []

/-! ### The word as a whole -/

/-- Rules that name which agents may write a word (R355, R359, R429). -/
def Dev.writerForbidden (d : Dev) (agent : AgentId) (a : Nat) (h : RegHit) : Bool :=
  decide (d.blkLevel agent (a / 0x10000) < 2)
    || (decide (a / 0x10000 = 0x05) && !d.regulated && decide (agent ≠ 0) && (h.r.fields.any fun f => f.acc = .stop))
    || (decide (a / 0x10000 = 0x2D) && d.pinmuxForbids agent a)

/-- The rules of a block for the fields of a word, beside its table: stage, bit and cause. `v` is the whole value of a 64-bit
register, and `a` its low word. [Log 12 DEDUCED] -/
def Dev.blockRefusals (d : Dev) (agent : AgentId) (a v : Nat) : List (Nat × Nat × Cause) :=
  let b := a / 0x10000
  let w : Word := BitVec.ofNat 32 v
  if b = 0x00 then d.sysRefusals agent a v
  else if b = 0x01 then d.ledgerRefusals a v
  else if b = 0x02 then d.milepostRefusals a w
  else if b = 0x03 then d.supplyRefusals a w
  else if b = 0x04 then d.faultRefusals a w
  else if b = 0x05 then protectRefusals a v ++ d.consentRefusals agent a
  else if b = 0x06 then junctionRefusals a w
  else if b = 0x07 then d.hostRefusals a v
  else if b = 0x08 then d.tieRefusals a v
  else if b = 0x09 then d.nvmRefusals a w
  else if b = 0x0A ∨ b = 0x0B then d.memRefusals a w
  else if b = 0x0C then d.dmaRefusals a w
  else if 0x10 ≤ b ∧ b ≤ 0x15 then adcRefusals a w
  else if b = 0x16 ∨ b = 0x17 then d.compRefusals a w
  else if b = 0x18 ∨ b = 0x19 ∨ b = 0x1A then d.loopRefusals a w ++ d.coefRefusals a
  else if 0x20 ≤ b ∧ b ≤ 0x22 then d.pwmRefusals a w
  else if b = 0x23 then phaseRefusals a w
  else if b = 0x24 then d.witRefusals a w
  else if b = 0x28 ∨ b = 0x29 then d.roundRefusals a w
  else if b = 0x2C then d.pengRefusals a w
  else if b = 0x2D then pinmuxRefusals agent a w
  else if b = 0x30 then (if a % 0x20 = 4 ∨ a % 0x20 = 8 then (if v % 2 = 1 then [(2, 31, .range)] else []) else [])
  else if b = 0x31 then d.debugRefusals agent a v
  else []

/-- What refuses a write of a register: its writer, its fields, and what its fields are held against (R51). [Log 12 DEDUCED] -/
def Dev.refusals (d : Dev) (agent : AgentId) (h : RegHit) (a v : Nat) : List (Nat × Nat × Cause) :=
  (if d.writerForbidden agent a h then [(1, 99, .permission)] else [])
    ++ (if d.ledgerOff (a / 0x10000) then [(1, 98, .state)] else [])
    ++ (if h.stg then (match groupOf a with
        | some k => (match d.claimRefusal agent k with | some c => [(1, 97, c)] | none => [])
        | none => []) else [])
    ++ tableRefusals h v (d.stopOk a) ++ d.blockRefusals agent a v

/-- The fields of a word that are only operands of its command (R49). -/
def operandMask (a : Nat) : Nat :=
  let b := a / 0x10000
  if a = SYS.GC_CTRL then 1
  else if a = NVM.FL_CTRL then 0x100
  else if a = LOOP.SUP_CMD then 0xFF
  else if a = PHASE.PH_PHASE_CMD then 2 ^ 32 - 1 - (2 ^ PHASE.PH_PHASE_CMD_FAIL.lo + 2 ^ PHASE.PH_PHASE_CMD_CLEAR_FAIL.lo)
  else if a = WITNESS.DET_CMD then 2 ^ 32 - 1 - 2 ^ WITNESS.DET_CMD_RETURN.lo
  else if a = PENG.GSTART_CMD then 1
  else if a = TIE.RA_CTRL then 0x1F
  else if a = DEBUG.DBG_CMD then 0x31
  else if a = DEBUG.DBG_CORE then 0x30
  else if 0x20 ≤ b ∧ b ≤ 0x22 then (match timAt a with | some (t, 0x44) => (2 ^ ((PWM.TIM_FORCE_WHEN t).hi + 1) - 2 ^ (PWM.TIM_FORCE_WHEN t).lo) | _ => 0)
  else if b = 0x2C then (match engAt a with | some (_, 0x14) => 0x100 | _ => 0)
  else 0

/-- A word whose fields are operands alone, so that every write of it acts (R49). -/
def alwaysActs (a : Nat) : Bool :=
  decide (a = JUNCTION.SW_RAISE) || (match timAt a with | some (_, 0x40) => true | _ => false)

/-- A write that requests no action of a word that holds CMD fields alone (R49). [Log 15 DEDUCED] -/
def noAction (h : RegHit) (a v : Nat) : Bool :=
  (h.r.fields.any fun f => f.acc = .cmd) && !(h.r.fields.any fun f => f.acc = .live ∨ f.acc = .stop) && !alwaysActs a
    && decide (Nat.land v (Nat.land (h.mask fun c => c = .cmd) (2 ^ 32 - 1 - operandMask a)) = 0)

end Sys2Proof.Machine
end

