-- ==== Sys2Proof/Machine/Consent.lean ====
section
/-!
DEFINITION. Machine/Consent.lean: dual consent (spec/18, R430 to R433): the consent string and its digest, what PROPOSE, CONFIRM and
WITHDRAW are refused for and do, and the end of the window.
-/
namespace Sys2Proof.Machine

/-- What a written configuration word holds when it has been taken: reserved bits keep what they read, and the classes that the
protection map fixes stay WRITE (R9, R427). [Log 139 DEDUCED] -/
def Dev.configWord (d : Dev) (h : RegHit) (a : Nat) (v : Word) : Word :=
  let m : Word := BitVec.ofNat 32 (h.mask fun c => c ≠ .ro)
  let w := (d.reg a &&& ~~~m) ||| (v &&& m)
  if PROTECT.BLK_PERM 0 ≤ a ∧ a < PROTECT.BLK_PERM 64 then (w &&& 0xFFFFCFFC) ||| 0x2002 else w

/-- Word `n` of a proposal's entries: its target's key, and its value (R431). -/
def Dev.consTarget (d : Dev) (n : Nat) : Nat := d.num (PROTECT.CONS_TARGET n)
def Dev.consValue (d : Dev) (n : Nat) : Word := d.reg (PROTECT.CONS_VALUE n)

/-- The number of entries proposed. -/
def Dev.consCount (d : Dev) : Nat := d.fld PROTECT.CONS_COUNT_VALUE

/-- The consent string (R431). -/
def Dev.consString (d : Dev) : List Byte :=
  toBytes 4 (d.num PROTECT.CONS_SEQ) ++ toBytes 4 d.consCount
    ++ (List.range d.consCount).flatMap fun n =>
      let t := d.consTarget n
      [BitVec.ofNat 8 (t / 0x10000), 0] ++ toBytes 2 (t % 0x10000) ++ toBytes 4 (d.consValue n).toNat

/-- The digest that stands in CONS_DIGEST: byte 4n in bits [31:24] of word n. -/
def Dev.consHeld (d : Dev) : List Byte := (List.range 12).flatMap fun n => beBytes 4 (d.num (PROTECT.CONS_DIGEST n))

/-- The digest held is the device's own (R431, R432). -/
def Dev.consDigestOk (d : Dev) : Bool := decide (d.consHeld = sha384 d.consString)

/-- A word that consent may change: a STOP word of PROTECT, or a PIN_OWN word (R429, R431). -/
def consWord (t : Nat) : Bool :=
  (ownPin t).isSome || (decide (t / 0x10000 = 0x05) && (match regHit t with
    | some h => h.r.fields.any fun f => f.acc = .stop
    | none => false))

/-- What an entry's value breaks of its field's rules (R431). -/
def consValueRefusal (t : Nat) (v : Word) : Option Cause :=
  match regHit t with
  | none => some .range
  | some h =>
    causeOf (tableRefusals h v.toNat true ++ (match ownPin t with
      | some p => ownRefusals 0x0000 p v
      | none => protectRefusals t v.toNat))

/-- What refuses PROPOSE after its writer: state, count, targets, values, digest (R430, R431). [Log 124 DEDUCED] -/
def Dev.proposeRefusal (d : Dev) : Option Cause :=
  let ns := List.range d.consCount
  if d.proposed then some .pending
  else if d.consCount = 0 ∨ d.consCount > 16 then some .range
  else if !ns.all fun n => consWord (d.consTarget n) then some .range
  else match ns.findSome? fun n => consValueRefusal (d.consTarget n) (d.consValue n) with
    | some c => some c
    | none => if d.consDigestOk then none else some .consent

/-- What refuses a write of CONS_CMD (R430 to R433). No consent is proposed while a party is 0xFFFF. [Log 124 DEDUCED] -/
def Dev.consRefusal (d : Dev) (agent : AgentId) (v : Nat) : Option Cause :=
  let unset := decide (d.partyA = 0xFFFF) || decide (d.partyB = 0xFFFF)
  if (bitOf v 2 ∨ bitOf v 0) ∧ agent ≠ d.partyA then some .permission
  else if bitOf v 1 ∧ agent ≠ d.partyB then some .permission
  else if unset then some .state
  else if bitOf v 2 ∧ ¬ d.proposed then some .state
  else if bitOf v 1 then (if ¬ d.proposed then some .state else if d.consDigestOk then none else some .consent)
  else if bitOf v 0 then d.proposeRefusal
  else none

/-- A consent ends: its result, STATE back to IDLE and the next CONS_SEQ (R433). -/
def Dev.consEnd (d : Dev) (result : Nat) : Dev :=
  ((d.setFld PROTECT.CONS_STATUS_RESULT result).setFld PROTECT.CONS_STATUS_STATE 0).wrapNum PROTECT.CONS_SEQ

/-- The window expires (R433). -/
def Dev.consTimeout (d : Dev) : Dev :=
  let old := d.reg PROTECT.CONS_STATUS
  ((d.consEnd 3).raise 14).sysRec PROTECT.CONS_STATUS old

/-- A refusal with cause CONSENT raises CONSENT_REJECT, and a mismatching CONFIRM ends the consent (R433). -/
def Dev.consRefused (d : Dev) (v : Nat) (c : Cause) : Dev :=
  if c ≠ .consent then d
  else if bitOf v 1 then (d.consEnd 2).raise 14
  else d.raise 14

/-- The entries that change their word: key, new and old word. [Log 125 DEDUCED] -/
def Dev.consChanges (d : Dev) : List (Nat × Word × Word) :=
  (List.range d.consCount).filterMap fun n =>
    let t := d.consTarget n
    match regHit t with
    | none => none
    | some h =>
      let w := d.configWord h t (d.consValue n)
      if w = d.reg t then none else some (t, w, d.reg t)

/-- The changed words recorded in entry order as one run with one commit sequence (R432). [Log 125 DEDUCED] -/
def Dev.consRecords (agent : AgentId) (cs : Half) : Bool → List (Nat × Word × Word) → Dev → Dev
  | _, [], d => d
  | first, (t, new, old) :: rest, d =>
    let k : RecKind := if (ownPin t).isSome then .owner else .commit
    Dev.consRecords agent cs false rest (d.logAt d.nowNs k (b2n first + 2 * b2n rest.isEmpty) agent t new old cs)

/-- All entries applied at one instant as one commit (R432). [Log 125 DEDUCED] -/
def Dev.consApply (d : Dev) (agent : AgentId) : Dev :=
  let l := d.consChanges
  let (cs, d) := d.nextSeq
  let d := Dev.consRecords agent cs true l d
  let d := l.foldl (fun d x => match ownPin x.1 with | some p => d.changeOwn p x.2.1 | none => d.setReg x.1 x.2.1) d
  d.consEnd 1

/-- A CONSENT record at CONS_CMD. -/
def Dev.consRec (d : Dev) (agent : AgentId) (new old : Word) : Dev := d.logRec .consent 3 agent PROTECT.CONS_CMD new old

/-- An accepted write of CONS_CMD (R431 to R433). -/
def Dev.consEffect (d : Dev) (agent : AgentId) (v : Nat) : Dev :=
  let digest := d.reg (PROTECT.CONS_DIGEST 0)
  if bitOf v 0 then
    let d := (d.consRec agent digest (d.reg PROTECT.CONS_COUNT)).setFld PROTECT.CONS_STATUS_STATE 1
    { d with cons := { d.cons with until_ := d.now + nsT (d.fld PROTECT.CONS_WINDOW_WINDOW_US * 1000) } }
  else if bitOf v 1 then (d.consRec agent digest (d.reg PROTECT.CONS_SEQ)).consApply agent
  else if bitOf v 2 then (d.consRec agent 0 (d.reg PROTECT.CONS_COUNT)).consEnd 4
  else d

/-- A consent whose window is over before a command arrives has ended (R433). [Log 125 DEDUCED] -/
def Dev.consLapse (d : Dev) : Dev := d.when (d.proposed && before d.cons.until_ (floorNs d.now)) Dev.consTimeout

/-- CONSENT_TIMEOUT (R433): the confirmation window expires. -/
def execConsentTimeout (s : State) : Host.Outcome State Fault Refusal :=
  s.onDev fun d => d.when (d.proposed && d.due d.cons.until_) Dev.consTimeout

end Sys2Proof.Machine
end

