-- ==== Sys2Proof/Machine/MemBus.lean ====
section
/-!
DEFINITION. Machine/MemBus.lean: accesses to the memories of the 40-bit map (spec/16, R364), program loads into the thread memories
(R322), the host window (R402), changes that wait for the Ledger (R60), and the end of a DMA descriptor (R384 to R388).
-/
namespace Sys2Proof.Machine

/-! ### Waiting for the Ledger (R59, R60) -/

/-- A change of an agent, `e`, in place of the device `d`; it waits where its records find no place. The fault manager's changes
never wait. [Log 22 DESIGN CHOICE] -/
def Dev.letIn (d : Dev) (agent : AgentId) (w : WaitKind) (e : Dev) : Dev :=
  if agent ≠ devAgent ∧ d.lgFull (e.ordinary - d.ordinary) then d.stall { agent := agent, kind := w, since := d.now } else e

/-- The latest change waits. -/
def Dev.waits (d : Dev) : Bool := decide (d.answer = .waits)

/-- An agent has a change that waits. -/
def Dev.agentWaits (d : Dev) (agent : AgentId) : Bool :=
  d.led.waiting.any fun w => decide (w.agent = agent) && (match w.kind with | .write _ _ => true | .program _ _ => true | _ => false)

/-- RETIRE_COPY_DONE (R368): the copy of RETIRE entry `i` ends, and the entry takes effect, or waits for its place in the Ledger (R60).
[Log 113 DEDUCED] -/
def execRetireCopyDone (i : Nat) (s : State) : Host.Outcome State Fault Refusal :=
  s.onDev fun d =>
    match d.retiring.find? (fun p => p.1 = i) with
    | none => d
    | some (_, _, agent) =>
      if d.led.waiting.any fun w => w.kind = .retire i then d else d.letIn agent (.retire i) (d.retireDone i)

/-! ### Memories (R322, R364, R366) -/

/-- The rings into which a write of `n` bytes at `a` is a program load: it meets their code part (R322), or, for the cut list loader,
any part of their thread memory (R75). -/
def Dev.loadRings (d : Dev) (agent : AgentId) (a n : Nat) : List Nat :=
  [0, 1].filter fun r =>
    let size := if agent = 0 then 0x40000 else 4096 * d.fld (ROUND.RING_CTRL_CODE_LIMIT r)
    decide (a < ringBase r + size) && decide (ringBase r < a + n)

/-- The PROGRAM record of a write of `n` bytes at `a`, as far as it lies in the thread memory of ring `r`, made after the write (R322). -/
def Dev.programRec (d : Dev) (agent : AgentId) (a n r : Nat) : Dev :=
  let w0 := (max a (ringBase r) - ringBase r) / 4
  let words := (min (a + n) (ringBase r + 0x40000) - 1 - ringBase r) / 4 - w0 + 1
  let crc := crc32 (d.bytes (ringBase r + 4 * w0) (4 * words))
  d.logRec .program 3 agent ((0x28 + r) * 0x10000 + w0) (BitVec.ofNat 32 words) (BitVec.ofNat 32 crc)

/-- Bytes stored in a memory by an agent, with the PROGRAM record of each ring they load. -/
def Dev.store (d : Dev) (agent : AgentId) (a : Nat) (bs : List Byte) : Dev :=
  (d.putMem agent a bs).each (d.loadRings agent a bs.length) fun d r => d.programRec agent a bs.length r

/-- The same, where it is admitted. -/
def Dev.storeAdmitted (d : Dev) (agent : AgentId) (a : Nat) (bs : List Byte) : Dev :=
  if d.loadRings agent a bs.length = [] then d.putMem agent a bs else d.letIn agent (.program a bs) (d.store agent a bs)

/-- An address lies in a memory that takes stores: TCMs, shared SRAM, thread memories, DRAM. -/
def Dev.storable (d : Dev) (a : Nat) : Bool :=
  match d.memCode a with
  | some c => decide (c < 0x18) || decide (c = 0x30) || decide (c = 0x31)
  | none => false

/-- A store to a memory by an agent; none where it is refused. -/
def Dev.memStore (d : Dev) (agent : AgentId) (a : Nat) (bs : List Byte) : Option Dev :=
  if d.storable a ∧ d.memMapped a bs.length ∧ d.memOpen agent a bs.length true then some (d.storeAdmitted agent a bs) else none

/-- A load from a memory by an agent: whether every code was good, the bytes, and the device after it; none where it is refused. -/
def Dev.memLoad (d : Dev) (src : Nat) (agent : AgentId) (a n : Nat) : Option (Bool × List Byte × Dev) :=
  if d.memMapped a n ∧ d.memOpen agent a n false then some (d.getMem src agent a n) else none

/-! ### The host window (R402) -/

/-- The host address of a range of the host window; none where the window is unmapped or the link is not up (R402, R409). -/
def Dev.hostWindow (d : Dev) (a n : Nat) : Option DWord :=
  if d.flag HOST.OUT_CTRL_EN ∧ d.flag HOST.LINK_STATUS_BME ∧ d.fld HOST.LINK_STATUS_STATE = 2 ∧ 0x0800000000 ≤ a
      ∧ a + n ≤ 0x1000000000 then
    some (d.reg64 HOST.OUT_BASE + BitVec.ofNat 64 (a - 0x0800000000))
  else none

/-! ### The end of a descriptor (R384, R385, R387, R388) -/

/-- The completion record of a descriptor that ended (R387). [Log 53 DEDUCED] -/
def Dev.dmaRecord (d : Dev) (c : Nat) (ok : Bool) : List Byte :=
  toBytes 8 (d.reg64 (DMA.CH_CUR c)).toNat ++ toBytes 8 (if ok then 0 else (d.reg64 (DMA.CH_FAULT c)).toNat)
    ++ toBytes 4 (d.num (DMA.CH_DONE c)) ++ [if ok then 0x01 else 0x02, if ok then 0 else BitVec.ofNat 8 (d.fld (DMA.CH_STATUS_CAUSE c))]
    ++ toBytes 2 (d.num (DMA.CH_SEQ c)) ++ toBytes 8 d.nowNs.toNat

/-- The completion record written, where the descriptor asks for it (R387). [Log 53 DEDUCED, 116 DESIGN CHOICE] -/
def Dev.dmaCpl (d : Dev) (c : Nat) (ok : Bool) : Dev :=
  d.when (d.dma c).cpl fun d =>
    let base := addr40 (d.reg64 (DMA.CH_CPL c))
    let a := base + 32 * (d.num (DMA.CH_SEQ c) % 2 ^ d.fld (DMA.CH_CPL_SIZE c))
    let rec_ := d.dmaRecord c ok
    let d :=
      if base = 0 then d
      else match d.memStore (d.dmaAgent c) a rec_ with
        | some e => e
        | none => match d.hostWindow a 32 with
          | some h => d.send (.hostWrite h rec_)
          | none => d.setFld (DMA.CH_FLAGS_CPL_FAIL c) 1
    d.wrapNum (DMA.CH_SEQ c)

/-- A channel ends in ERROR (R385): cause, failing address and side, event and completion record. -/
def Dev.dmaError (d : Dev) (c cause : Nat) (addr : Nat) (write : Bool) : Dev :=
  (d.dmaFail c cause (BitVec.ofNat 64 (b2n write * 2 ^ 63 + addr))).dmaCpl c false

/-- The same, once a write beat that waits for the Ledger has been answered (R385, R388). [Log 118 DEDUCED] -/
def Dev.dmaStopAt (d : Dev) (c cause addr : Nat) (write : Bool) : Dev :=
  if (d.dma c).held then
    if (d.dma c).ending.isSome then d else d.setDma c { d.dma c with ending := some (cause, addr, write) }
  else d.dmaError c cause addr write

/-- The commit group of a channel, whose pending BOUNDARY commit applies as the channel stops or before its next fetch (R42, R392). -/
def dmaGroup (c : Nat) : Nat := grpKey 0x0C c

/-- An accepted write of CH_CTRL (R383, R388, R392). [Log 53 DEDUCED] -/
def Dev.dmaEffect (d : Dev) (agent : AgentId) (a : Nat) (v : Word) : Dev :=
  if DMA.CH_CFG 0 ≤ a ∧ a < DMA.CH_CFG 16 ∧ a % 0x40 = 0x18 then
    let c := dmaChan a
    let n := v.toNat
    let d := d.when (bitOf n 3) fun d => (d.setNum (DMA.CH_FLAGS c) 0).setFld (DMA.CH_STATUS_MERGED c) 0
    let d := d.when (bitOf n 2) fun d => d.dmaTrig c
    let d := d.when (bitOf n 1) fun d => (d.dmaStopAt c 7 0 false).applyReached (dmaGroup c)
    d.when (bitOf n 0) fun d =>
      let desc := addr40 (d.reg64 (DMA.CH_DESC c))
      let d := (d.setReg64 (DMA.CH_CUR c) (BitVec.ofNat 64 desc)).setFld (DMA.CH_STATUS_AGENT c) agent.toNat
      let d := (d.setNum (DMA.CH_DONE c) 0).setReg64 (DMA.CH_FAULT c) 0
      let d := (d.setDma c (d.dma c).fresh).setFld (DMA.CH_STATUS_CAUSE c) 0
      if desc % 32 ≠ 0 then d.dmaError c 4 desc false else d.setDmaState c 1
  else d

end Sys2Proof.Machine
end

