-- ==== Sys2Proof/Machine/RegWrite.lean ====
section
/-!
DEFINITION. Machine/RegWrite.lean: a write of a register word by an agent (spec/00 R6 to R9, spec/02 R36 to R52, R57, R60, R64 to R66):
what is ignored, refused, staged, held back or taken, its record, and the action of its block.
-/
namespace Sys2Proof.Machine

/-! ### What a word holds after a write (R8, R9) -/

/-- A register word as its own storage holds it. -/
def Dev.wordNow (d : Dev) (a : Nat) : Word :=
  match coefAt a with
  | some (s, k, i) => BitVec.ofNat 32 (ofBytes (d.bytes (coefAddr s k i) 4))
  | none => d.reg a

/-- A register word stored. -/
def Dev.putWord (d : Dev) (agent : AgentId) (a : Nat) (v : Word) : Dev :=
  match coefAt a with
  | some (s, k, i) => d.writeMem agent (coefAddr s k i) (toBytes 4 v.toNat)
  | none => d.setReg a v

/-- The word after an accepted write, by the access codes of its fields; CMD fields read 0. -/
def Dev.wordAfter (d : Dev) (h : RegHit) (a : Nat) (v : Word) : Word :=
  if a / 0x10000 = 0x05 then (if a = PROTECT.CONS_CMD then 0 else d.configWord h a v)
  else
    let m := fun p => (BitVec.ofNat 32 (h.mask p) : Word)
    let cur := d.wordNow a
    let w := (cur &&& ~~~(m fun c => c = .rw ∨ c = .live ∨ c = .stop ∨ c = .cmd)) ||| (v &&& m fun c => c = .rw ∨ c = .live ∨ c = .stop)
    (w &&& ~~~(v &&& m fun c => c = .w1c)) ||| (v &&& m fun c => c = .w1s)

/-- The word holds LIVE or STOP fields, or CMD fields (R49). -/
def RegHit.logged (h : RegHit) : Bool := h.r.fields.any fun f => f.acc = .live ∨ f.acc = .stop
def RegHit.command (h : RegHit) : Bool := h.r.fields.any fun f => f.acc = .cmd

/-! ### SYS, LEDGER and NVM (R38, R44, R48, R57, R66, R85, R89, R93) -/

/-- The action of an accepted write of a SYS register. -/
def Dev.sysEffect (d : Dev) (agent : AgentId) (a : Nat) (v : Word) : Dev :=
  if a = SYS.CLAIM_LIMIT then d.ageClaims
  else if a = SYS.GC_CTRL then d.gcCtrl v.toNat
  else if a = SYS.GC_AT + 4 ∨ (SYS.GC_LIST 0 ≤ a ∧ a < SYS.GC_LIST 64) then d.when (decide (d.gcState = 0)) fun d => d.gcShow 1 agent
  else if a = SYS.SNAP_CTRL then d.when (bitOf v.toNat 0) Dev.snapRequest
  else d

/-- The window of LG_WIN_SEQ filled (R66). -/
def Dev.ledgerWindow (d : Dev) (seq : Word) : Dev :=
  match d.onChip seq with
  | none => (d.setFld LEDGER.LG_WIN_STATUS_VALID 0).setFld LEDGER.LG_WIN_STATUS_GONE 1
  | some r =>
    let bs := r.bytes
    let d := d.each (List.range 8) fun d i => d.setNum (LEDGER.LG_WIN_DATA i) (ofBytes ((bs.drop (4 * i)).take 4))
    (d.setFld LEDGER.LG_WIN_STATUS_VALID 1).setFld LEDGER.LG_WIN_STATUS_GONE 0

/-- The action of an accepted write of a LEDGER register. [Log 20 DEDUCED] -/
def Dev.ledgerEffect (d : Dev) (a : Nat) (v : Word) : Dev :=
  if a = LEDGER.LG_CLR then
    d.when (bitOf v.toNat 0) fun d => ((d.setNum LEDGER.LG_NOR_DROPPED 0).setNum LEDGER.LG_STALL_COUNT 0).setNum LEDGER.LG_STALL_MAX 0
  else if a = LEDGER.LG_WIN_SEQ then d.ledgerWindow v
  else d

/-- The COMMIT record that a checkpoint holds of a word (R85; log entry 45). [Log 45 DESIGN CHOICE] -/
def Dev.cpRecord (d : Dev) (k a : Nat) : Record :=
  { kind := .commit, flags := 3, origin := devAgent, time := d.nowNs, block := BitVec.ofNat 8 (a / 0x10000), off := BitVec.ofNat 16 a
    new := d.reg a, old := d.reg a, cseq := (d.grp k).seq }

/-- A checkpoint placed in the append queue (R85). [Log 45 DESIGN CHOICE] -/
def Dev.checkpoint (d : Dev) : Dev :=
  let words := d.flash.persisted.flatMap fun k => (groupWords k).map fun a => (k, a)
  let d := d.jQueue ([{ typ := .cpBegin, body := [] }] ++ words.map fun p => { typ := .persist, body := (d.cpRecord p.1 p.2).bytes })
  d.jQueue ((d.newestCalibs.map fun x => { typ := .calib, body := x.2 }) ++ [{ typ := .cpEnd, body := [] }])

/-- The action of an accepted write of an NVM register. -/
def Dev.nvmEffect (d : Dev) (agent : AgentId) (a : Nat) (old v : Word) : Dev :=
  if a = NVM.FL_CTRL then d.flashStart agent v.toNat
  else if a = NVM.JNL_CTRL then
    let d := d.when (decide (bitsOf v.toNat 23 8 ≠ bitsOf old.toNat 23 8)) fun d =>
      { d with flash := { d.flash with calibAt := d.now + nsT (bitsOf v.toNat 23 8 * 60000000000) } }
    let d := d.when (bitOf v.toNat 1) Dev.jCalib
    d.when (bitOf v.toNat 0) Dev.checkpoint
  else if a = NVM.WP_CTRL then
    d.when (bitOf v.toNat 0) fun d =>
      let d : Dev := { d with flash := { d.flash with wpErase := true } }
      (((d.setFld NVM.WP_STATUS_FOUND 0).setFld NVM.WP_STATUS_READY 0).setFld NVM.WP_STATUS_ERASING 1).showArmed
  else d

/-- The action of an accepted write of DBG_CORE (R421, R422). -/
def Dev.debugEffect (d : Dev) (a : Nat) (v : Word) : Dev :=
  if a = DEBUG.DBG_CORE then
    ({ d with dbgCore := bitsOf v.toNat 5 4 } : Dev).debugCore (bitsOf v.toNat 5 4) (v.toNat % 8)
  else d

/-! ### The action of an accepted write -/

/-- The action of an accepted write of the word at `a`: `old` was its value, `v` the word written, `ev` the word after the write with
its CMD fields as written. -/
def Dev.blockEffect (d : Dev) (agent : AgentId) (a : Nat) (old v ev : Word) : Dev :=
  let b := a / 0x10000
  if b = 0x00 then d.sysEffect agent a v
  else if b = 0x01 then d.ledgerEffect a v
  else if b = 0x02 then d.milepostEffect a old ev
  else if b = 0x03 then d.supplyEffect a old ev
  else if b = 0x04 then d.faultEffect a ev
  else if b = 0x05 then (if a = PROTECT.CONS_CMD then d.consEffect agent v.toNat else d)
  else if b = 0x06 then d.junctionEffect agent a ev
  else if b = 0x07 then d.hostEffect a old ev
  else if b = 0x08 then d.tieEffect a ev
  else if b = 0x09 then d.nvmEffect agent a old ev
  else if b = 0x0A ∨ b = 0x0B then d.memEffect a ev
  else if b = 0x0C then d.dmaEffect agent a ev
  else if 0x10 ≤ b ∧ b ≤ 0x15 then d.adcEffect a ev
  else if b = 0x16 ∨ b = 0x17 then d.compEffect a ev
  else if b = 0x18 ∨ b = 0x19 ∨ b = 0x1A then d.loopEffect a ev
  else if b = 0x1B then d.traceEffect a ev
  else if 0x20 ≤ b ∧ b ≤ 0x22 then d.pwmEffect a ev
  else if b = 0x23 then d.phaseEffect a ev
  else if b = 0x24 then d.witEffect a ev
  else if b = 0x28 ∨ b = 0x29 then d.roundEffect a ev
  else if b = 0x2C then d.pengEffect a ev
  else if b = 0x2D then
    (if PINMUX.PIN_INTF 0 ≤ a ∧ a < PINMUX.PIN_INTF 5 then d.clearIntf ((a - PINMUX.PIN_INTF 0) / 4) v else d)
  else if b = 0x31 then d.debugEffect a v
  else d

/-- The record of an accepted write (R49). -/
def Dev.writeRecord (d : Dev) (h : RegHit) (agent : AgentId) (a : Nat) (v ev old : Word) : Dev :=
  if a = PROTECT.CONS_CMD then d
  else if h.logged then d.liveRec agent a ev old
  else if h.command then d.liveRec agent a v 0
  else d

/-- An accepted write of a 32-bit word taken: PIN_OWN and ENG_OWNER make an OWNER record, a program word a PROGRAM record
(R351, R355), every other word the record of R49. -/
def Dev.takeWord (d : Dev) (agent : AgentId) (h : RegHit) (a : Nat) (v : Word) : Dev :=
  let old := d.wordNow a
  let w := d.wordAfter h a v
  let ev := w ||| (v &&& BitVec.ofNat 32 (h.mask fun c => c = .cmd))
  let d := { d with answer := .ok }
  match ownPin a, engAt a with
  | some p, _ => (d.changeOwn p w).logRec .owner 3 agent a w old
  | none, some (_, off) =>
    if off = 0x10 then (d.setReg a w).logRec .owner 3 agent a w old
    else if off ≥ 0x1000 then (d.setReg a w).logRec .program 3 agent a 1 (BitVec.ofNat 32 (crc32 (toBytes 4 w.toNat)))
    else ((d.setReg a w).writeRecord h agent a v ev old).blockEffect agent a old v ev
  | none, none =>
    if MEMCTL.RETIRE 0 ≤ a ∧ a < MEMCTL.RETIRE 128 then { d with retiring := d.retiring ++ [((a - MEMCTL.RETIRE 0) / 4, w, agent)] }
    else ((d.putWord agent a w).writeRecord h agent a v ev old).blockEffect agent a old v ev

/-- An accepted write of a 64-bit register taken (R7); `lo` is its low word. -/
def Dev.takeWide (d : Dev) (agent : AgentId) (h : RegHit) (lo : Nat) (v : DWord) : Dev :=
  let old := d.reg64 lo
  let l := d.wordAfter { h with hiWord := false } lo (v.setWidth 32)
  let u := d.wordAfter { h with hiWord := true } (lo + 4) ((v >>> 32).setWidth 32)
  let d := (d.setReg lo l).setReg (lo + 4) u
  let d := d.when h.logged fun d => d.recPair .live 0 agent lo (u ++ l) old
  ({ d with answer := .ok } : Dev).blockEffect agent (lo + 4) ((old >>> 32).setWidth 32) u u

/-! ### LIVE fields of a unit that is busy (R49, R57) -/

/-- The unit of a LIVE word is in the middle of an operation: a true, or a comparator's test (R112, R128, R204). -/
def Dev.midOperation (d : Dev) (a : Nat) : Bool :=
  ((List.range 6).any fun b => decide (a = ADC.TRUE_CTRL b) && [2 * b, 2 * b + 1].any fun h => (Tab.get {} h d.adcHalves).subject.isSome)
    || ((List.range 2).any fun b => decide (a = COMP.TEST_CTRL b) && (d.compBlk b).test.isSome)
    || ((List.range 3).any fun b => decide (a = PWM.TRUE_CTRL b) && (Tab.get {} b d.lineTrue).subject.isSome)

/-- A LIVE word waits for its safe point: its unit is busy, an earlier write of it waits, or the Ledger is to leave DRAM.
[Log 20 DEDUCED] -/
def Dev.holdsBack (d : Dev) (a : Nat) (v : Word) : Bool :=
  d.midOperation a || (d.livePend.any fun p => p.addr = a) || (decide (a = LEDGER.LG_CTRL) && d.lgDram && decide (v.toNat % 4 = 0))

/-- A LIVE write kept for its safe point. -/
def Dev.holdBack (d : Dev) (agent : AgentId) (a : Nat) (v : Word) : Dev :=
  let d : Dev := { d with livePend := d.livePend ++ [{ agent := agent, addr := a, v := v }], answer := .ok }
  d.when (decide (a = LEDGER.LG_CTRL)) fun d => d.setFld LEDGER.LG_STATUS_DRAINING 1

/-! ### Refusals (R51, R64) -/

/-- What a refusal leaves beside its record: the cause shown, and the end of a consent (R64, R65, R433). -/
def Dev.afterRefusal (d : Dev) (h : RegHit) (a v : Nat) (c : Cause) : Dev :=
  let d := match (if h.stg then groupOf a else none) with | some k => d.noteCause k c | none => d
  if a = SYS.GC_CTRL ∨ a = SYS.GC_AT ∨ (SYS.GC_LIST 0 ≤ a ∧ a < SYS.GC_LIST 64) then d.setFld SYS.GC_STATUS_CAUSE c.code
  else if a = PROTECT.CONS_CMD then d.consRefused v c
  else d

/-- A refused write of a 32-bit word. -/
def Dev.refuseWord (d : Dev) (agent : AgentId) (h : RegHit) (a : Nat) (v : Word) (c : Cause) : Dev :=
  (d.rejectRec agent a v (d.wordNow a) c).afterRefusal h a v.toNat c

/-- A refused write of a 64-bit register. -/
def Dev.refuseWide (d : Dev) (agent : AgentId) (h : RegHit) (lo : Nat) (v : DWord) (c : Cause) : Dev :=
  let d := d.recPair .reject (16 * c.code) agent lo v (d.reg64 lo)
  ({ d with answer := .rejected c } : Dev).afterRefusal h lo v.toNat c

/-- Why a write of a register is refused; CONS_CMD has an order of its own (R431). -/
def Dev.writeRefusal (d : Dev) (agent : AgentId) (h : RegHit) (a v : Nat) : Option Cause :=
  match causeOf (d.refusals agent h a v) with
  | some c => some c
  | none => if a = PROTECT.CONS_CMD then d.consRefusal agent v else none

/-! ### The group control registers (R37 to R40, R64) -/

/-- A refused write of a group control register. [Log 15 DEDUCED] -/
def Dev.refuseGrp (d : Dev) (agent : AgentId) (a : Nat) (v : Word) (k : Option Nat) (c : Cause) : Dev :=
  let d := d.rejectRec agent a v (d.grpRead agent a) c
  match k with
  | some k => d.noteCause k c
  | none => d

/-- A write of GRP_AT's high word (R7, R37, R40, R64). -/
def Dev.grpAtWrite (d : Dev) (agent : AgentId) (lo k : Nat) (exists_ : Bool) (v : Word) : Dev :=
  let g := d.grp k
  let l := (Tab.find (halfKey agent lo) d.halfW).getD (g.atT.setWidth 32)
  let d : Dev := { d with halfW := Tab.del (halfKey agent lo) d.halfW }
  let w : DWord := v ++ l
  let c : Option Cause :=
    if d.blkLevel agent (lo / 0x10000) < 2 then some .permission
    else if !exists_ then some .state
    else match d.claimRefusal agent k with
      | some c => some c
      | none => if g.st = .idle then some .state else none
  match c with
  | some c =>
    let d := d.recPair .reject (16 * c.code) agent lo w g.atT
    ({ d with answer := .rejected c } : Dev).noteCause k c
  | none => ({ d with answer := .ok } : Dev).setGrp k { g with atT := w }

/-- A write of a group control register. [Log 15 DEDUCED] -/
def Dev.grpWrite (d : Dev) (agent : AgentId) (a : Nat) (v : Word) : Dev :=
  let b := a / 0x10000
  let o := a % 0x10000
  let n := v.toNat
  let cnt := grpCount b
  let k := grpKey b (d.selected agent b)
  let denied := decide (d.blkLevel agent b < 2)
  let first := fun (c : Option Cause) => if denied then some Cause.permission else if cnt = 0 then some .state else c
  let done : Dev := { d with answer := .ok }
  if o = 0xFF00 then
    if denied then d.refuseGrp agent a v none .permission
    else if n % 256 ≥ cnt then d.refuseGrp agent a v none .range
    else { done with sel := Tab.set 0 (selKey agent b) (v &&& 0x100FF) d.sel }
  else if o = 0xFF04 then
    if !bitOf n 31 then done
    else match first (d.claimRefusal agent k) with
      | some c => d.refuseGrp agent a v (some k) c
      | none => (done.liveRec agent a v 0).claim agent k
  else if o = 0xFF08 then
    if !bitOf n 31 then done
    else match first (d.goRefusal agent k (n % 4)) with
      | some c => d.refuseGrp agent a v (some k) c
      | none => (done.liveRec agent a v 0).grpGo k (n % 4)
  else if o = 0xFF0C then
    if !bitOf n 0 then done
    else match first (d.abortRefusal agent k) with
      | some c => d.refuseGrp agent a v (some k) c
      | none => done.abortGrp agent k
  else if o = 0xFF18 then { done with halfW := Tab.put (halfKey agent a) v d.halfW }
  else if o = 0xFF1C then d.grpAtWrite agent (a - 4) k (decide (cnt ≠ 0)) v
  else { d with answer := .ignored }

/-! ### A write of a register word -/

/-- A write of a 32-bit word that a block lists (R36, R49, R51). -/
def Dev.writeWord (d : Dev) (agent : AgentId) (h : RegHit) (a : Nat) (v : Word) : Dev :=
  if noAction h a v.toNat then { d with answer := .ok }
  else
    let d := d.when (decide (a = PROTECT.CONS_CMD)) Dev.consLapse
    match d.writeRefusal agent h a v.toNat with
    | some c => d.refuseWord agent h a v c
    | none =>
      match (if h.stg then groupOf a else none) with
      | some k => ({ d with answer := .ok } : Dev).stageWord agent k a v
      | none => if d.holdsBack a v then d.holdBack agent a v else d.takeWord agent h a v

/-- A write of a word of a 64-bit register (R7). [Log 143 DESIGN CHOICE] -/
def Dev.writeWide (d : Dev) (agent : AgentId) (h : RegHit) (a : Nat) (v : Word) : Dev :=
  let lo := if h.hiWord then a - 4 else a
  let key := halfKey agent lo
  if !h.hiWord then { d with halfW := Tab.put key v d.halfW, answer := .ok }
  else
    let w : DWord := v ++ (Tab.find key d.halfW).getD (d.reg lo)
    let d : Dev := { d with halfW := Tab.del key d.halfW }
    let h0 := { h with hiWord := false }
    match d.writeRefusal agent h0 lo w.toNat with
    | some c => d.refuseWide agent h0 lo w c
    | none =>
      match (if h.stg then groupOf lo else none) with
      | some k => ((({ d with answer := .ok } : Dev).stageWord agent k lo (w.setWidth 32)).stageWord agent k (lo + 4) v)
      | none => d.takeWide agent h0 lo w

/-- The MSI-X table lies in the HOST block, and is no register table of this spec (R400, R424). -/
def isMsix (a : Nat) : Bool := decide (0x78000 ≤ a) && decide (a < 0x78400)

/-- A write of the register word at key `a` by an agent, with whatever records it makes: an access that is not aligned or meets no
block is answered with a bus error (R6, R365); a word that is not listed or holds RO fields alone ignores it.
[Log 11 DESIGN CHOICE] -/
def Dev.regTry (d : Dev) (agent : AgentId) (a : Nat) (v : Word) : Dev :=
  if a % 4 ≠ 0 ∨ ¬ blockExists (a / 0x10000) then { d with answer := .busError }
  else if isGrpReg a then d.grpWrite agent a v
  else if isMsix a then
    if d.blkLevel agent 0x07 < 2 then d.rejectRec agent a v (Tab.get 0 (a % 0x10000) d.msix) .permission
    else { d with msix := Tab.set 0 (a % 0x10000) v d.msix, answer := .ok }
  else if deadWord a then { d with answer := .ignored }
  else match regHit a with
    | none => { d with answer := .ignored }
    | some h =>
      if (h.r.fields.all fun f => f.acc = .ro) ∨ (a = SUPPLY.VIO_CFG ∧ Config.strapIoExt) then { d with answer := .ignored }
      else if h.r.wide then d.writeWide agent h a v
      else d.writeWord agent h a v

/-- A write of a register word, admitted to the Ledger or left waiting (R59, R60). The access that DBG_CMD asks for is not made here
(Bus.lean). -/
def Dev.regStore (d : Dev) (agent : AgentId) (a : Nat) (v : Word) : Dev := d.letIn agent (.write a v) (d.regTry agent a v)

/-! ### Changes that waited (R49, R57, R60) -/

/-- A LIVE write taken at its safe point. -/
def Dev.takeHeld (d : Dev) (p : LivePend) : Dev :=
  match regHit p.addr with
  | some h => d.takeWord p.agent h p.addr p.v
  | none => d

/-- A LIVE write whose safe point has come, taken, or left waiting for its place in the Ledger (R49, R60). -/
def Dev.admitHeld (d : Dev) (p : LivePend) : Dev :=
  let d : Dev := { d with livePend := d.livePend.erase p }
  d.letIn p.agent (.live p.addr p.v) (d.takeHeld p)

/-- LIVE_FIELD_APPLY (R49): the oldest LIVE write whose unit is between operations takes effect. -/
def execLiveFieldApply (s : State) : Host.Outcome State Fault Refusal :=
  s.onDev fun d =>
    match d.livePend.find? fun p => p.addr ≠ LEDGER.LG_CTRL ∧ ¬ d.midOperation p.addr with
    | some p => d.admitHeld p
    | none => d

/-- LEDGER_TARGET_SWITCH (R57): the buffer has drained, and the change of TARGET takes effect. [Log 20 DEDUCED] -/
def execLedgerTargetSwitch (s : State) : Host.Outcome State Fault Refusal :=
  s.onDev fun d =>
    match d.livePend.find? fun p => p.addr = LEDGER.LG_CTRL with
    | none => d
    | some p =>
      d.when (decide (d.fld LEDGER.LG_STATUS_OCC = 0) || decide (p.v.toNat % 4 = 1)) fun d =>
        let d := d.admitHeld p
        d.when (!d.livePend.any fun p => p.addr = LEDGER.LG_CTRL) fun d => d.setFld LEDGER.LG_STATUS_DRAINING 0

end Sys2Proof.Machine
end

