-- ==== Sys2Proof/Machine/Bus.lean ====
section
/-!
DEFINITION. Machine/Bus.lean: an access of a bus master to the 40-bit map (spec/16, R364, R365, R381; spec/18, R427, R428), the access
of DBG_CMD (spec/17, R421), a register write with all its actions, and the admission of changes that waited (R60).
-/
namespace Sys2Proof.Machine

/-- How a bus access was answered: done, with the bytes of a read; refused, unmapped or not of this width; an uncorrectable error;
waiting for the Ledger; rejected by its block. -/
inductive BusAns where
  | done (bs : List Byte)
  | abort
  | bad
  | waits
  | rejected (c : Cause)
  deriving DecidableEq, Repr

/-- An address in the peripheral region, and its key. -/
def inPeripherals (a : Nat) : Bool := decide (0x40000000 ≤ a) && decide (a < 0x41000000)
def regKey (a : Nat) : Nat := a - 0x40000000

/-- The ADC channel whose stream area holds a key, and the offset in it (R104, R108). [Log 115 DEDUCED] -/
def streamAt (k : Nat) : Option (Nat × Nat) :=
  if 0x100000 ≤ k ∧ k < 0x160000 ∧ 0x8000 ≤ k % 0x10000 ∧ k % 0x10000 < 0xC000 then
    some (16 * (k / 0x10000 - 0x10) + (k % 0x10000 - 0x8000) / 0x400, k % 0x400)
  else none

/-- Reads of 32, 64 or 128 bits, aligned: those that stream areas and trace RAM accept (R108, R173). -/
def wideRead (a n : Nat) : Bool := (decide (n = 4) || decide (n = 8) || decide (n = 16)) && decide (a % n = 0)

/-- An aligned 32-bit access (R6). -/
def wordAccess (a n : Nat) : Bool := decide (n = 4) && decide (a % 4 = 0)

/-- The coefficient memory and the trace RAM (R145, R173). -/
def inCoef (a : Nat) : Bool := decide (0x30000000 ≤ a) && decide (a < 0x30010000)
def inTrace (a : Nat) : Bool := decide (0x30100000 ≤ a) && decide (a < 0x30140000)

/-- The key in the block window of a coefficient word of the coefficient memory; none for a word that reads 0 (R145).
[Log 115 DEDUCED] -/
def coefKey (a : Nat) : Option Nat :=
  let x := a - 0x30000000
  if x < 0x2000 ∧ x / 4 % 16 < 9 then some ((0x18 + x / 0x1000) * 0x10000 + 0x4000 + x % 0x1000) else none

/-- The answer of a read of memory. -/
def BusAns.ofLoad (d : Dev) : Option (Bool × List Byte × Dev) → BusAns × Dev
  | none => (.abort, d)
  | some (true, bs, e) => (.done bs, e)
  | some (false, _, e) => (.bad, e)

/-- A read of `n` bytes at a 40-bit address by an agent; `src` is the SOURCE code of R374. [Log 115 DEDUCED] -/
def Dev.busRead (d : Dev) (src : Nat) (agent : AgentId) (a n : Nat) : BusAns × Dev :=
  if inPeripherals a then
    let k := regKey a
    if d.blkLevel agent (k / 0x10000) = 0 then (.abort, d)
    else match streamAt k with
      | some (c, off) => if wideRead a n ∧ d.memMapped a n then BusAns.ofLoad d (some (d.readStream src agent c off n)) else (.abort, d)
      | none =>
        if ¬ wordAccess a n ∨ ¬ blockExists (k / 0x10000) then (.abort, d)
        else
          let (v, e) := d.regRead agent k
          (.done (toBytes 4 v.toNat), e)
  else if inCoef a then
    if ¬ wordAccess a n ∨ ¬ d.memOpen agent a n false then (.abort, d)
    else if (coefKey a).isNone then (.done (toBytes 4 0), d)
    else BusAns.ofLoad d (d.memLoad src agent a n)
  else if inTrace a && !wideRead a n then (.abort, d)
  else BusAns.ofLoad d (d.memLoad src agent a n)

/-- The answer of a write that a block has taken. -/
def BusAns.ofAnswer : Answer → BusAns
  | .busError => .abort
  | .rejected c => .rejected c
  | .waits => .waits
  | _ => .done []

/-- A write of bytes at a 40-bit address by an agent; `put` writes a register word. [Log 115 DEDUCED] -/
def Dev.busWriteBy (put : Dev → AgentId → Nat → Word → Dev) (d : Dev) (agent : AgentId) (a : Nat) (bs : List Byte) : BusAns × Dev :=
  let w : Word := BitVec.ofNat 32 (ofBytes bs)
  if inPeripherals a then
    if ¬ wordAccess a bs.length ∨ (streamAt (regKey a)).isSome then (.abort, d)
    else
      let e := put d agent (regKey a) w
      (BusAns.ofAnswer e.answer, e)
  else if inCoef a then
    if ¬ wordAccess a bs.length ∨ ¬ d.memOpen agent a 4 true then (.abort, d)
    else match coefKey a with
      | none => (.done [], d)
      | some k =>
        let e := put d agent k w
        (BusAns.ofAnswer e.answer, e)
  else match ({ d with answer := .ok } : Dev).memStore agent a bs with
    | none => (.abort, d)
    | some e => (BusAns.ofAnswer e.answer, e)

/-- The protection map refuses an agent's write of the register at a 40-bit address (R427): a DMA beat then ends in ERROR and a remote
access in ABORT, beside the record of the refused write (R51). [Log 115 DEDUCED, 137 DEDUCED] -/
def Dev.mapRefuses (d : Dev) (agent : AgentId) (a : Nat) : Bool :=
  match if inPeripherals a then some (regKey a) else if inCoef a then coefKey a else none with
  | some k => decide (d.blkLevel agent (k / 0x10000) < 2)
  | none => false

/-! ### The access of DBG_CMD (R421, R426, R427) -/

/-- The end of a debug access: DONE, and ERROR where it was refused, unmapped or uncorrectable. [Log 127 DEDUCED] -/
def Dev.debugEnd (d : Dev) (ok : Bool) : Dev :=
  ((d.setFld DEBUG.DBG_STATUS_BUSY 0).setFld DEBUG.DBG_STATUS_DONE 1).setFld DEBUG.DBG_STATUS_ERROR (b2n !ok)

/-- The data of a debug read. -/
def Dev.debugData (d : Dev) (bs : List Byte) : Dev := (d.setReg64 DEBUG.DBG_DATA (BitVec.ofNat 64 (ofBytes bs))).debugEnd true

/-- A system register of a halted core, the one DBG_CORE named last; the cores of a lockstep pair stay alike. A read of the low word of
PERF_RET latches the high word for the debug port (R7). [Log 126 DEDUCED, 162 DEDUCED] -/
def Dev.debugSys (d : Dev) (o n : Nat) (write : Bool) (v : Word) : Dev :=
  let c := d.dbgCore
  if n ≠ 4 ∨ o % 4 ≠ 0 ∨ d.coreState c ≠ 4 then d.debugEnd false
  else if write then (d.putSys c o v).debugEnd true
  else
    let cs := d.core c
    if o = CORE.PERF_RET then
      (d.putCore c { cs with dbgHi := some (cs.s (CORE.PERF_RET + 4)) }).debugData (toBytes 4 (d.sysRead c o).toNat)
    else if o = CORE.PERF_RET + 4 then
      (d.putCore c { cs with dbgHi := none }).debugData (toBytes 4 (cs.dbgHi.getD (d.sysRead c o)).toNat)
    else d.debugData (toBytes 4 (d.sysRead c o).toNat)

/-- The access that DBG_CMD asks for, as agent 0x0500. [Log 127 DEDUCED] -/
def Dev.debugAccess (d : Dev) (size : Nat) (write : Bool) : Dev :=
  let a := addr40 (d.reg64 DEBUG.DBG_ADDR)
  let n := 2 ^ size
  let v := d.reg64 DEBUG.DBG_DATA
  let d := d.setFld DEBUG.DBG_STATUS_BUSY 1
  if 0xE0000000 ≤ a ∧ a < 0xE0010000 then d.debugSys (a - 0xE0000000) n write (v.setWidth 32)
  else if write then
    match d.busWriteBy Dev.regStore 0x0500 a (toBytes n v.toNat) with
    | (.done _, d) => d.debugEnd true
    | (.waits, d) => d
    | (_, d) => d.debugEnd false
  else
    match d.busRead 1 0x0500 a n with
    | (.done bs, d) => d.debugData bs
    | (_, d) => d.debugEnd false

/-- The debug access of an accepted write of DBG_CMD with GO. [Log 127 DEDUCED] -/
def Dev.debugGo (d : Dev) (a : Nat) (v : Word) : Dev :=
  if a = DEBUG.DBG_CMD ∧ d.answer = .ok ∧ wordBit v 31 then
    { d.debugAccess (bitsOf v.toNat 5 4) (wordBit v 0) with answer := .ok }
  else d

/-! ### Writes with all their actions -/

/-- A write of the register word at key `a` by an agent (R49, R51, R60). -/
def Dev.regWrite (d : Dev) (agent : AgentId) (a : Nat) (v : Word) : Dev := (d.regStore agent a v).debugGo a v

/-- A write of bytes at a 40-bit address by an agent. -/
def Dev.busWrite (d : Dev) (agent : AgentId) (a : Nat) (bs : List Byte) : BusAns × Dev := d.busWriteBy Dev.regWrite agent a bs

/-- The same for a DMA channel or a peer, which a refusal of the protection map stops (R427). [Log 115 DEDUCED] -/
def Dev.busWriteFor (d : Dev) (agent : AgentId) (a : Nat) (bs : List Byte) : BusAns × Dev :=
  match d.busWrite agent a bs with
  | (.rejected c, e) => (if d.mapRefuses agent a then .abort else .rejected c, e)
  | r => r

/-! ### Changes that waited (R60) -/

/-- A waiting change made now, whatever room the Ledger has. [Log 22 DESIGN CHOICE] -/
def Dev.makeChange (d : Dev) (w : Waiting) : Dev :=
  match w.kind with
  | .write a v => (d.regTry w.agent a v).debugGo a v
  | .program a bs => d.store w.agent a bs
  | .apply k => d.applyAdmitted k
  | .globalApply =>
    match d.gc with
    | some g => d.gcApply g d.nowNs true
    | none => d
  | .live a v => d.takeHeld { agent := w.agent, addr := a, v := v }
  | .retire i => d.retireDone i

/-- CHANGE_ADMITTED (R60): the oldest waiting change obtains its places and takes effect. [Log 22 DESIGN CHOICE] -/
def execChangeAdmitted (s : State) : Host.Outcome State Fault Refusal :=
  s.onDev fun d =>
    match d.led.waiting with
    | [] => d
    | w :: rest =>
      let e := ({ d with led := { d.led with waiting := [] } } : Dev).makeChange w
      if d.lgDram ∧ d.fld LEDGER.LG_STATUS_OCC + e.ordinary + e.heldPlaces > 4032 then { d with answer := .waits }
      else
        let e : Dev := { e with led := { e.led with waiting := rest ++ e.led.waiting } }
        let e := e.setNum LEDGER.LG_STALL_MAX (max (e.num LEDGER.LG_STALL_MAX) (min 0xFFFFFFFF ((d.now - w.since).toNat / 64)))
        let e := e.setFld LEDGER.LG_STATUS_STALLING (b2n !e.led.waiting.isEmpty)
        let e := e.raAnswered w.agent
        e.when (decide (w.agent = 0x0500) && e.flag DEBUG.DBG_STATUS_BUSY && !e.agentWaits 0x0500) fun e => e.debugEnd true

end Sys2Proof.Machine
end

