-- ==== Sys2Proof/Machine/Boot.lean ====
section
/-!
DEFINITION. Machine/Boot.lean: the cut list and its loader (spec/03, R72 to R81), and the replay of the journal (R86). Results are the
codes of BOOT_STATUS: 1 OK, 2 FLASH, 3 HEADER, 4 KEY, 5 SIGNATURE, 6 SECTION, 7 ENTRY, 8 REJECT, 9 POLL, 10 START.
-/
namespace Sys2Proof.Machine

/-! ### The cut list format (R73, R77) -/

/-- The number that `n` bytes at offset `o` spell. -/
def numAt (bs : List Byte) (o n : Nat) : Nat := ofBytes ((bs.drop o).take n)

/-- Where the loader keeps the cut list: the upper 4 MiB of shared SRAM (R75, R78). -/
def cutBase : Nat := 0x10400000

/-- The header is right (R73, R78 step 1); a flash that meets R71 has room for any journal. [Log 30 DESIGN CHOICE] -/
def headerOk (h : List Byte) : Bool :=
  let l := numAt h 8 4
  let j := numAt h 0x1A 2
  decide (numAt h 0 4 = 0x5455434C) && decide (numAt h 4 2 = 1) && decide (numAt h 6 2 = 0x100) && decide (l % 16 = 0)
    && decide (0x200 ≤ l) && decide (l ≤ 0x400000) && decide (numAt h 0xC 2 = 0x9664) && decide (numAt h 0xE 1 ≤ 0xB0)
    && decide (numAt h 0xF 1 = 0) && decide (16 ≤ j) && decide (j ≤ 1024)

/-- The key hash in the fuses (R455). -/
def fusedHash : List Byte := (List.range 12).flatMap fun n => beBytes 4 (Config.fused (0x40 + 4 * n)).toNat

/-- The key of a header is the fused one (R78 step 2). -/
def keyOk (h : List Byte) : Bool := decide (sha384 ((h.drop 0x80).take 96) = fusedHash)

/-- The signature of a cut list is right (R73, R78 step 3). -/
def sigOk (m : List Byte) : Bool :=
  let l := m.length
  let be := fun o => beNum ((m.drop o).take 48)
  ecdsaOk (be 0x80) (be 0xB0) (be (l - 96)) (be (l - 48)) (beNum (sha384 (m.take (l - 96))))

/-- The section table: type, offset and length of each section. -/
def sectionsOf (m : List Byte) : List (Nat × Nat × Nat) :=
  (List.range (numAt m 0x18 2)).map fun i =>
    let o := 0x100 + 16 * i
    (numAt m o 1, numAt m (o + 4) 4, numAt m (o + 8) 4)

/-- Two sections share no byte. -/
def sectionsApart (a b : Nat × Nat × Nat) : Bool :=
  decide (a.2.1 + a.2.2 ≤ b.2.1) || decide (b.2.1 + b.2.2 ≤ a.2.1)

/-- No two sections of a list overlap. -/
def allApart : List (Nat × Nat × Nat) → Bool
  | [] => true
  | a :: t => t.all (sectionsApart a) && allApart t

/-- The section table is right (R73, R78 step 4). -/
def tableOk (m : List Byte) : Bool :=
  let n := numAt m 0x18 2
  let l := sectionsOf m
  decide (1 ≤ n) && decide (n ≤ 64) && decide (0x100 + 16 * n ≤ m.length - 96)
    && (l.all fun x => decide (1 ≤ x.1) && decide (x.1 ≤ 4) && decide (x.2.1 % 4 = 0) && decide (x.2.2 % 4 = 0)
      && decide (0x100 + 16 * n ≤ x.2.1) && decide (x.2.1 + x.2.2 ≤ m.length - 96))
    && allApart l && decide ((l.filter fun x => x.1 = 4).length = 1) && decide ((l.filter fun x => x.1 = 3).length ≤ 1)

/-- Steps 1 to 4 of R78 on a copy whose reads bring data: the failure, if any, and the whole cut list. -/
def checkCopy (h m : List Byte) : Option Nat :=
  if !headerOk h then some 3
  else if !keyOk h then some 4
  else if !sigOk m then some 5
  else if !tableOk m then some 6
  else none

/-- The bytes of a copy in the flash, as its header gives its length. -/
def Dev.cutImage (d : Dev) (b : Bool) : List Byte := d.norBytes (flashCopy b) (numAt (d.norBytes (flashCopy b) 0x100) 8 4)

/-- The cut list read into shared SRAM (R78 step 3). -/
def Dev.cutStore (d : Dev) (m : List Byte) : Dev := d.writeMem 0x0000 cutBase m

/-! ### Ranges of memory -/

/-- The parts of a range that lie in one page each. -/
def pagePieces (a n : Nat) : List (Nat × Nat) :=
  (List.range ((a + (n - 1)) / 4096 - a / 4096 + 1)).map fun i =>
    let lo := max a ((a / 4096 + i) * 4096)
    (lo, min (a + n) ((a / 4096 + i + 1) * 4096) - lo)

/-- Every page of a range is a memory that is ready and open to the agent; a range to be written takes stores. -/
def Dev.rangeOpen (d : Dev) (agent : AgentId) (a n : Nat) (write : Bool) : Bool :=
  (pagePieces a n).all fun x => d.memMapped x.1 x.2 && d.pageOpen agent (x.1 / 4096) write && (!write || d.storable x.1)

/-! ### The start of the loader's work -/

/-- A loader's state set. -/
def Dev.setLoader (d : Dev) (l : Loader) : Dev := { d with loader := some l }

/-- The loader waits. -/
def Dev.loaderWait (d : Dev) (l : Loader) (w : LoadWait) (until_ : Time) : Dev :=
  d.setLoader { l with wait := some w, since := d.now, until_ := until_ }

/-- Whether the loader's next read brings data. [Log 30 DESIGN CHOICE] -/
def Dev.takeStrobe (d : Dev) : Bool × Dev :=
  match d.flash.strobes with
  | [] => (true, d)
  | b :: t => (b, { d with flash := { d.flash with strobes := t } })

/-- The blocks that a configuration reset leaves as they are (R80). [Log 35 DEDUCED] -/
def keepsReset (b : Nat) : Bool := decide (b ≤ 4) || decide (b = 9)

/-- Register words that a configuration reset leaves: those of the blocks it excepts, what holds until power-on reset (R130, R170, R177,
R368), and what shows the readiness of powered units, the input levels, the link and the VIO rails. [Log 35 DEDUCED] -/
def resetKeeps (a : Nat) : Bool :=
  keepsReset (a / 0x10000)
    || ((List.range 6).any fun b => decide (a = ADC.BLK_STATUS b)) || ((List.range 2).any fun b => decide (a = COMP.BANK_STATUS b))
    || ((List.range 2).any fun b => decide (a = LOOP.BLK_STATUS b)) || decide (a = LOOP.SUP_STATUS) || decide (a = LOOP.SUP_MISMATCHES)
    || ((List.range 2).any fun b => decide (a = COMP.TEST_FAILS b)) || (decide (MEMCTL.RETIRE 0 ≤ a) && decide (a < MEMCTL.RETIRE 128))
    || ((List.range 3).any fun b => decide (a = PWM.BANK_STATUS b)) || decide (a = WITNESS.WIT_BANK_STATUS)
    || ((List.range 2).any fun r => decide (a = ROUND.RING_STATUS r)) || decide (a = PENG.BANK_STATUS) || decide (a = MEMCTL.SRAM_STATUS)
    || decide (a = PINMUX.BANK_VIO) || (decide (PINMUX.PIN_IN 0 ≤ a) && decide (a < PINMUX.PIN_IN 5)) || decide (a = HOST.LINK_STATUS)

/-- The state of every unit but those of the blocks that a configuration reset excepts, back at reset. [Log 35 DEDUCED] -/
def Dev.unitsReset (d : Dev) : Dev :=
  { d with
    sel := d.sel.filter fun p => keepsReset (p.1 % 256)
    halfW := d.halfW.filter fun p => keepsReset (p.1 % 0x10000000 / 0x10000)
    halfR := d.halfR.filter fun p => keepsReset (p.1 % 0x10000000 / 0x10000)
    groups := d.groups.filter fun p => keepsReset (p.1 / 256)
    adcs := [], adcHalves := [], comps := [], compBlks := [], slots := [], compGroups := [], sliceDet := none, sliceRet := []
    traces := [], tims := [], outs := [], updQ := [], wits := [], lineTrue := [], lineSwap := [], adcTrig := [], spareTestT := d.now
    planT0 := [], phs := [], rails := [], dets := [], xings := [], cores := [], pairs := [], thrs := [], chans := [], rings := []
    pins := d.pins.map fun p => (p.1, { p.2 with thr := .hiz })
    engs := [], flagHist := [], errLog := [], ceArmed := true, scrubPos := 0, lapStart := d.now, pass := none, retiring := [], dmas := [], tie := {}
    hostQ := [], hostLost := [], ringIrqs := [], telSched := none, msix := [], tapIr := 0, tapBsr := [], dbgCore := 0, cons := {}
    livePend := d.livePend.filter fun p => keepsReset (p.addr / 0x10000) }

/-- What a configuration reset leaves of the units: the failures that hold until power-on reset (R113, R130, R170, R205), and the readiness
of the halves as their channels show it (R116); `old` is the device before it. [Log 35 DEDUCED] -/
def Dev.unitsKeep (old d : Dev) : Dev :=
  let d := d.each (List.range 12) (Dev.adcKeep old)
  let d := d.each ((List.range 96).filter fun c => d.halfReady (c / 8)) fun d c => d.setFld (ADC.CH_STATUS_POWERED c) 1
  let d := (d.compKeep old.comps).each [0, 1, 2] Dev.lineKeep
  let d := ((d.setFld LOOP.SUP_STATUS_FAULTY 0).setFld LOOP.SUP_STATUS_DETOUR_DONE 0).setFld LOOP.SUP_STATUS_DETOURING 0
  d.setFld LOOP.SUP_STATUS_SPARE_FOR 7

/-- The configuration reset (R80): every claim of 0x0000 is aborted, and every block but SYS, LEDGER, MILEPOST, SUPPLY, FAULT and NVM
returns to its reset state. [Log 35 DEDUCED] -/
def Dev.configReset (d : Dev) : Dev :=
  let d := d.abortClaims 0x0000
  let d := if d.gcOwner = 0 then (({ d with gc := none } : Dev).gcClearList).gcShow 0 0 else d
  let d := Dev.unitsKeep d { d.unitsReset with regs := d.regs.filter fun p => resetKeeps p.1 }
  let d := d.each [0, 1] fun d c => d.when (d.domUp.contains (53 + c)) fun d => (d.dramOff c).setDramState c 1
  (d.zeroRange 0x30000000 0x10000).setCoreState 0 1

/-- The field that shows a copy's result. -/
def resultFld (b : Bool) : Fld := if b then NVM.BOOT_STATUS_B_RESULT else NVM.BOOT_STATUS_A_RESULT

/-! ### Sections (R74 to R77) -/

/-- A poll's condition holds. -/
def Dev.pollMet (d : Dev) (a : Nat) (v : Word) (set : Bool) : Bool :=
  let x := d.readWord 0x0000 a &&& v
  if set then x == v else x == 0

/-- A LOAD section's destination lies within one of the ranges it may have (R75). -/
def loadDest (a n : Nat) : Bool :=
  let within_ := fun lo hi => decide (lo ≤ a) && decide (a + n ≤ hi)
  within_ 0x08000000 0x08200000 || within_ 0x10000000 0x10400000 || within_ 0x20000000 0x20080000 || within_ 0x30000000 0x30010000
    || decide (dramBase ≤ a)

/-- Words written to the coefficient memory as the loader's register writes; a refused one is told (R75, R145). -/
def Dev.loadCoef (d : Dev) : Nat → List (List Byte) → Option Nat × Dev
  | _, [] => (none, d)
  | a, w :: t =>
    let e := match coefKey a with
      | none => ({ d with answer := .ok } : Dev)
      | some k => d.regWrite 0x0000 k (BitVec.ofNat 32 (ofBytes w))
    match e.answer with
    | .rejected _ => (some 8, e)
    | _ => e.loadCoef (a + 4) t

/-- A LOAD section applied (R75). [Log 31 DEDUCED] -/
def Dev.loadLoad (d : Dev) (off len : Nat) : Option Nat × Dev :=
  let a := ofBytes (d.bytes (cutBase + off) 5)
  let n := len - 8
  let bs := d.bytes (cutBase + off + 8) n
  if len < 8 ∨ ¬ (d.bytes (cutBase + off + 5) 3).all (fun b => decide (b = 0)) ∨ ¬ loadDest a n then (some 7, d)
  else if n = 0 then (none, d)
  else if inCoef a then (if a % 4 = 0 then d.loadCoef a (chunks 4 n bs) else (some 7, d))
  else if ¬ d.rangeOpen 0x0000 a n true then (some 7, d)
  else (none, ({ d with answer := .ok } : Dev).storeAdmitted 0x0000 a bs)

/-- The groups that a list of entries names, block and group number. -/
def groupEntries (bs : List Byte) (step n : Nat) : List Nat :=
  (List.range n).map fun i => grpKey (numAt bs (step * i) 1) (numAt bs (step * i + 1) 1)

/-- A PERSIST section applied: the persisted groups (R76). [Log 31 DEDUCED] -/
def Dev.loadPersist (d : Dev) (off len : Nat) : Option Nat × Dev :=
  let bs := d.bytes (cutBase + off) len
  let n := numAt bs 0 4
  let ks := groupEntries (bs.drop 4) 4 n
  if len < 4 ∨ n > 256 ∨ 4 + 4 * n > len ∨ ¬ (ks.all fun k => decide (k % 256 < grpCount (k / 256)))
      ∨ (ks.flatMap groupWords).length > 2048 then (some 7, d)
  else (none, { d with flash := { d.flash with persisted := ks } })

/-- The START section: TIE mode, the timeout in units of 100 µs, and the groups (R77). -/
def Dev.startSection (d : Dev) (off : Nat) : Nat × Nat × List Nat :=
  let h := d.bytes (cutBase + off) 4
  let m := numAt h 1 1
  (numAt h 0 1, numAt h 2 2, groupEntries (d.bytes (cutBase + off + 4) (2 * m)) 2 m)

/-- A START section is well formed (R77). [Log 31 DEDUCED] -/
def Dev.startOk (d : Dev) (off len : Nat) : Bool :=
  let x := d.startSection off
  decide (4 ≤ len) && decide (x.1 ≤ 1) && decide (1 ≤ x.2.2.length) && decide (x.2.2.length ≤ 64) && decide (4 + 2 * x.2.2.length ≤ len)

/-! ### Journal replay (R86) -/

/-- An entry put in place by its sequence. -/
def insertSeq (e : Nat × Nat) : List (Nat × Nat) → List (Nat × Nat)
  | [] => [e]
  | x :: t => if e.1 < x.1 then e :: x :: t else x :: insertSeq e t

/-- The applied entries, by sequence: sequence and place. -/
def Dev.jEntries (d : Dev) : List (Nat × Nat) :=
  ((List.range d.jPlaces).filter fun i => d.entryApplied (d.jAddr i)).foldl (fun l i => insertSeq (d.entrySeq (d.jAddr i), i) l) []

/-- The CP_BEGIN of the latest checkpoint that is whole, and the sequence of its CP_END. [Log 29 DESIGN CHOICE] -/
def Dev.jCheckpoint (d : Dev) (es : List (Nat × Nat)) : Option ((Nat × Nat) × Nat) :=
  (es.reverse.filter fun e => d.entryType (d.jAddr e.2) = 5).findSome? fun e =>
    let q := ofBytes (d.norBytes (d.jAddr e.2 + 8) 4)
    let n := ofBytes (d.norBytes (d.jAddr e.2 + 12) 4)
    match es.find? fun x => x.1 = q ∧ d.entryType (d.jAddr x.2) = 4 with
    | some b => if (es.filter fun x => q < x.1 ∧ x.1 < e.1).length = n then some (b, e.1) else none
    | none => none

/-- A word of a persisted commit written by the loader; the other half of a 64-bit register stays as it is.
[Log 29 DESIGN CHOICE] -/
def Dev.replayWord (d : Dev) (a : Nat) (v : Word) : Dev :=
  match regHit a with
  | none => d
  | some h =>
    if ¬ h.r.wide then d.regWrite 0x0000 a v
    else
      let lo := if h.hiWord then a - 4 else a
      let now := fun x => match groupOf lo with
        | some k => (Tab.find x (d.grp k).staged).getD (d.reg x)
        | none => d.reg x
      (d.regWrite 0x0000 lo (if h.hiWord then now lo else v)).regWrite 0x0000 (lo + 4) (if h.hiWord then v else now (lo + 4))

/-- The trims of a CALIB entry taken by the unit it names (R112, R114, R131); a FAILED entry gives none. -/
def Dev.calibTake (d : Dev) (b : List Byte) : Dev :=
  let blk := numAt b 0 1
  let i := numAt b 1 1
  if 0x10 ≤ blk ∧ blk ≤ 0x15 then
    if numAt b 8 1 ≠ 0 then d
    else
      let h := 2 * (blk - 0x10) + (if i ≥ 0x10 then i % 2 else i / 8 % 2)
      let x : AdcHalf := Tab.get {} h d.adcHalves
      let k := if i ≥ 0x10 then 8 else i % 8
      (d.setHalf h { x with trims := Tab.set 0 k (BitVec.ofNat 32 (numAt b 4 2 * 65536 + numAt b 2 2)) x.trims }).showTrims h
  else if (blk = 0x16 ∨ blk = 0x17) ∧ i < 96 ∧ numAt b 6 1 = 0 then d.setFld (COMP.CMP_TRIM_OFFSET (96 * (blk - 0x16) + i)) (numAt b 2 2)
  else d

/-- A CALIB entry replayed. -/
def Dev.replayCalib (d : Dev) (b : List Byte) : Dev :=
  let d := d.calibTake b
  { d with trued := Tab.put (calibKey b) b d.trued, flash := { d.flash with calibs := Tab.put (calibKey b) b d.flash.calibs } }

/-- What the replay keeps between entries: the words of the commit in hand, newest first, and the sequence of its latest entry. -/
structure Replay where
  run : List (Nat × Word) := []
  last : Nat := 0
  done : Nat := 0
  skipped : Nat := 0

/-- One entry replayed (R86). [Log 29 DESIGN CHOICE] -/
def Dev.replayOne (d : Dev) (r : Replay) (e : Nat × Nat) : Replay × Dev :=
  let a := d.jAddr e.2
  let b := d.norBytes (a + 8) 32
  match d.entryType a with
  | 1 =>
    let x : Record := { kind := .commit, flags := b.getD 5 0, origin := 0, time := 0, block := b.getD 0x10 0
                        off := BitVec.ofNat 16 (numAt b 0x12 2), new := BitVec.ofNat 32 (numAt b 0x14 4), old := 0 }
    if (d.persistGroup x).isNone then ({ r with run := [], skipped := r.skipped + 1 }, d)
    else
      let w := (x.block.toNat * 0x10000 + x.off.toNat, x.new)
      let first := bitOf x.flags.toNat 0
      let go_ := first || (!r.run.isEmpty && decide (r.last + 1 = e.1))
      let run := if first then [w] else if go_ then w :: r.run else []
      if go_ ∧ bitOf x.flags.toNat 1 then
        ({ r with run := [], done := r.done + run.length }, run.reverse.foldl (fun d w => d.replayWord w.1 w.2) d)
      else ({ r with run := run, last := e.1 }, d)
  | 3 => ({ r with run := [], done := r.done + 1 }, d.replayCalib b)
  | 2 => ({ r with run := [] }, d)
  | 4 => ({ r with run := [] }, d)
  | 5 => ({ r with run := [] }, d)
  | _ => ({ r with run := [], skipped := r.skipped + 1 }, d)

/-- The first place from `i` on after which its sector is erased to its end; else the next sector, which is checked before it is written.
[Log 29 DESIGN CHOICE] -/
def Dev.headFrom (d : Dev) (i : Nat) : Nat :=
  let ends := 64 - i % 64
  let j := if i % 64 = 0 then some 0 else (List.range ends).find? fun j => (List.range ends).all fun x => x < j || d.placeBlank (i + x)
  (i + j.getD ends) % d.jPlaces

/-- The journal replayed into staging, and its head found (R86). [Log 29 DESIGN CHOICE] -/
def Dev.replay (d : Dev) : Dev :=
  let es := d.jEntries
  let cp := d.jCheckpoint es
  let from_ := match cp with | some (b, _) => b.1 | none => 0
  let (r, d) := (es.filter fun e => from_ ≤ e.1).foldl (fun x e => x.2.replayOne x.1 e) ((({} : Replay), d))
  let next := match es.getLast? with | some e => e.1 + 1 | none => 0
  let at_ := match es.getLast? with | some e => e.2 + 1 | none => 0
  let d : Dev := { d with flash := { d.flash with
    headAt := d.headFrom at_
    since := match cp with | some (_, e) => (es.filter fun x => e < x.1).length | none => es.length
    cpStart := match (es.reverse.find? fun e => d.entryType (d.jAddr e.2) = 4) with
      | some b => d.jSector b.2
      | none => (match es.head? with | some e => d.jSector e.2 | none => 0) } }
  let d := (d.setNum NVM.JNL_NEXT_SEQ (next % 2 ^ 32)).setNum NVM.JNL_CP_SEQ from_
  let d := (d.setFld NVM.JNL_COUNTS_REPLAYED (min 0xFFFF r.done)).setFld NVM.JNL_COUNTS_SKIPPED (min 0xFFFF r.skipped)
  d.showJournal

/-! ### The end of a load (R78 steps 7 and 8, R81) -/

/-- A NOW commit by the loader, as its write of GRP_COMMIT. -/
def Dev.nowCommit (d : Dev) (k : Nat) : Option Nat × Dev :=
  let a := k / 256 * 0x10000 + 0xFF08
  match d.goRefusal 0x0000 k 2 with
  | some c => (some 8, (d.rejectRec 0x0000 a 0x80000002 (d.grpRead 0x0000 a) c).noteCause k c)
  | none => (none, (d.liveRec 0x0000 a 0x80000002 0).grpGo k 2)

/-- NOW commits of some groups in turn, up to one that is refused. [Log 31 DEDUCED] -/
def Dev.nowCommits (d : Dev) : List Nat → Option Nat × Dev
  | [] => (none, d)
  | k :: t =>
    match d.nowCommit k with
    | (some r, d) => (some r, d)
    | (none, d) => d.nowCommits t

/-- The groups claimed by the loader, in ascending block ID and group number. -/
def Dev.loaderGroups (d : Dev) : List Nat :=
  sortBy id ((d.groups.filter fun p => p.2.st = .claimed ∧ p.2.owner = 0).map (·.1))

/-- GC_LIST written from its entry `i` on; a refused write is told. -/
def Dev.writeGcList (d : Dev) : Nat → List Nat → Bool × Dev
  | _, [] => (true, d)
  | i, k :: t =>
    let d := d.regWrite 0x0000 (SYS.GC_LIST i) (BitVec.ofNat 32 (2 ^ 31 + k))
    match d.answer with
    | .rejected _ => (false, d)
    | _ => d.writeGcList (i + 1) t

/-- The first global commit started (R78 step 8): START where it is rejected. [Log 33 DEDUCED] -/
def Dev.loadGo (d : Dev) (l : Loader) : Option Nat × Dev :=
  let d := d.regWrite 0x0000 SYS.GC_CTRL 0x80000001
  match d.answer with
  | .rejected _ => (some 10, d)
  | _ =>
    let d := d.setFld (resultFld l.copyB) 1
    let d := d.setReg64 NVM.BOOT_SERIAL (BitVec.ofNat 64 (ofBytes (d.bytes (cutBase + 0x10) 8)))
    (none, d.loaderWait l .go 0)

/-- Steps 7 and 8 (R78). -/
def Dev.loadStart (d : Dev) (l : Loader) : Option Nat × Dev :=
  let (mode, timeout, ks) := d.startSection l.start
  match d.nowCommits (d.loaderGroups.filter fun k => !ks.contains k) with
  | (some r, d) => (some r, d)
  | (none, d) =>
    match d.writeGcList 0 ks with
    | (false, d) => (some 10, d)
    | (true, d) =>
      if mode = 1 ∧ ¬ d.flag TIE.TIE_STATUS_ALIGNED ∧ ¬ d.tieMaster then
        (none, d.loaderWait l .tie (d.now + nsT (100000 * timeout)))
      else d.loadGo l

/-- Steps 6 to 8 (R78): the journal's read, its replay, and the commits. -/
def Dev.loadFinish (d : Dev) (l : Loader) : Option Nat × Dev :=
  match d.takeStrobe with
  | (false, d) => (none, d.loaderWait l .read 0)
  | (true, d) => d.replay.loadStart l

/-! ### The loader at work (R78 step 5) -/

/-- A REGISTERS entry carried out (R74): whether the loader goes on at once, its failure, and the device. [Log 31 DEDUCED] -/
def Dev.loadEntry (d : Dev) (l : Loader) (e : List Byte) : Bool × Option Nat × Dev :=
  let b := numAt e 0 1
  let o := numAt e 2 2
  let a := b * 0x10000 + o
  let v : Word := BitVec.ofNat 32 (numAt e 4 4)
  match numAt e 1 1 with
  | 0 =>
    let d := d.regWrite 0x0000 a v
    match d.answer with
    | .rejected _ => (false, some 8, d)
    | .busError => (false, some 7, d)
    | .waits => (false, none, d.loaderWait l .delay d.now)
    | _ => (true, none, d)
  | 1 => if d.pollMet a v true then (true, none, d) else (false, none, d.loaderWait l (.poll a v true) 0)
  | 2 => if d.pollMet a v false then (true, none, d) else (false, none, d.loaderWait l (.poll a v false) 0)
  | 3 =>
    if b ≠ 0 ∨ o ≠ 0 then (false, some 7, d)
    else if v = 0 then (true, none, d)
    else (false, none, d.loaderWait l .delay (d.now + nsT v.toNat))
  | _ => (false, some 7, d)

/-- The sections applied until the loader waits, fails or ends: the failure, if any. [Log 32 DESIGN CHOICE] -/
def Dev.loadRun : Nat → Dev → Option Nat × Dev
  | 0, d => (none, d)
  | fuel + 1, d =>
    match d.loader with
    | none => (none, d)
    | some l =>
      match l.cur with
      | some (off, len) =>
        if len = 0 then Dev.loadRun fuel (d.setLoader { l with cur := none })
        else if len < 8 then (some 7, d)
        else
          let l := { l with cur := some (off + 8, len - 8) }
          match (d.setLoader l).loadEntry l (d.bytes (cutBase + off) 8) with
          | (true, _, d) => Dev.loadRun fuel d
          | (false, r, d) => (r, d)
      | none =>
        match l.sections with
        | [] => d.loadFinish l
        | (t, off, len) :: rest =>
          let l := { l with sections := rest }
          let d := d.setLoader l
          if t = 1 then Dev.loadRun fuel (d.setLoader { l with cur := some (off, len) })
          else if t = 4 then
            if d.startOk off len then Dev.loadRun fuel (d.setLoader { l with start := off }) else (some 7, d)
          else
            match (if t = 2 then d.loadLoad off len else d.loadPersist off len) with
            | (some r, d) => (some r, d)
            | (none, d) => if d.answer = .waits then (none, d.loaderWait l .delay d.now) else Dev.loadRun fuel d

/-- Steps of the loader's work, more than any cut list asks for. [Log 32 DESIGN CHOICE] -/
def loadFuel : Nat := 0x90000

/-- A copy tried from its first step (R78). -/
def Dev.startCopy (d : Dev) (b : Bool) : Option Nat × Dev :=
  let d := d.setFld NVM.BOOT_STATUS_COPY (b2n b)
  let l : Loader := { copyB := b }
  match d.takeStrobe with
  | (false, d) => (none, d.loaderWait l .read 0)
  | (true, d) =>
    let h := d.norBytes (flashCopy b) 0x100
    if !headerOk h then (some 3, d)
    else if !keyOk h then (some 4, d)
    else match d.takeStrobe with
      | (false, d) => (none, d.loaderWait l .read 0)
      | (true, d) =>
        let m := d.cutImage b
        let d := d.cutStore m
        match checkCopy h m with
        | some r => (some r, d)
        | none =>
          let d : Dev := { d with flash := { d.flash with jsect := numAt h 0x1A 2, persisted := [] } }
          Dev.loadRun loadFuel (d.setLoader { l with sections := sectionsOf m, applied := true })

/-- A failed copy: its result, and the configuration reset where something was written (R80). -/
def Dev.copyFailed (d : Dev) (b : Bool) (r : Nat) : Dev :=
  let applied := match d.loader with | some l => l.applied | none => false
  let d := ({ d with loader := none } : Dev).setFld (resultFld b) r
  d.when applied Dev.configReset

/-- No copy could be loaded (R80). -/
def Dev.noConfig (d : Dev) : Dev := ({ d with loader := none } : Dev).setFld NVM.BOOT_STATUS_STATE 3

/-- What follows the loader's work on a copy: a failure of copy A leads to copy B, one of copy B to NOCONFIG (R78 to R80). -/
def Dev.afterLoad (b : Bool) (x : Option Nat × Dev) : Dev :=
  let d := match x with
    | (none, d) => d
    | (some r, d) =>
      let d := d.copyFailed b r
      if b then d.noConfig
      else match d.startCopy true with
        | (none, d) => d
        | (some r, d) => (d.copyFailed true r).noConfig
  { d with answer := .none }

/-- The loader goes on with its work. [Log 32 DESIGN CHOICE] -/
def Dev.loaderResume (d : Dev) (l : Loader) : Dev := Dev.afterLoad l.copyB (Dev.loadRun loadFuel (d.setLoader { l with wait := none }))

/-- LOADER_POLL_DONE (R74): the condition of the poll in hand is met. -/
def execLoaderPollDone (s : State) : Host.Outcome State Fault Refusal :=
  s.onDev fun d =>
    match d.loader with
    | some l =>
      match l.wait with
      | some (.poll a v set) => d.when (d.pollMet a v set) fun d => d.loaderResume l
      | _ => d
    | none => d

/-- LOADER_POLL_TIMEOUT (R74): a poll has not been satisfied for 10 ms. -/
def execLoaderPollTimeout (s : State) : Host.Outcome State Fault Refusal :=
  s.onDev fun d =>
    match d.loader with
    | some l =>
      match l.wait with
      | some (.poll _ _ _) => d.when (d.due (l.since + nsT 10000000)) fun d => Dev.afterLoad l.copyB (some 9, d)
      | _ => d
    | none => d

/-- LOADER_DELAY_END (R74): a DELAY has passed, or a write that waited for the Ledger has been made. -/
def execLoaderDelayEnd (s : State) : Host.Outcome State Fault Refusal :=
  s.onDev fun d =>
    match d.loader with
    | some l => d.when (decide (l.wait = some .delay) && d.due l.until_ && !d.agentWaits 0x0000) fun d => d.loaderResume l
    | none => d

/-- FLASH_READ_TIMEOUT (R79): no data strobe within 10 µs of the loader's read command. -/
def execFlashReadTimeout (s : State) : Host.Outcome State Fault Refusal :=
  s.onDev fun d =>
    match d.loader with
    | some l => d.when (decide (l.wait = some .read) && d.due (l.since + nsT 10000)) fun d => Dev.afterLoad l.copyB (some 2, d)
    | none => d

/-- TIE_ALIGN_WAIT_END (R81): the Milepost is aligned, or this device is the master. -/
def execTieAlignWaitEnd (s : State) : Host.Outcome State Fault Refusal :=
  s.onDev fun d =>
    match d.loader with
    | some l => d.when (decide (l.wait = some .tie) && (d.flag TIE.TIE_STATUS_ALIGNED || d.tieMaster)) fun d =>
      Dev.afterLoad l.copyB (d.loadGo l)
    | none => d

/-- TIE_START_TIMEOUT (R81): the TIE timeout passes first. -/
def execTieStartTimeout (s : State) : Host.Outcome State Fault Refusal :=
  s.onDev fun d =>
    match d.loader with
    | some l => d.when (decide (l.wait = some .tie) && d.due l.until_) fun d =>
      Dev.afterLoad l.copyB ((d.setFld NVM.BOOT_STATUS_TIE_TIMEOUT 1).loadGo l)
    | none => d

end Sys2Proof.Machine
end

