-- ==== Sys2Proof/Machine/CoreMem.lean ====
section
/-!
DEFINITION. Machine/CoreMem.lean: the memory accesses of a core (R234 to R236, R241 to R244, R257 to R261, R285), the tollgate of a
lockstep pair (R308), the drain of the store buffer and the writes of system registers that are rows of their own.
-/
namespace Sys2Proof.Machine

/-! ### The store buffer and loads (R241, R242) -/

/-- The access kinds of R291. -/
def MemReq.kind (q : MemReq) : Nat := if q.amo.isSome then 3 else if q.data.isSome then 2 else 1

/-- The byte an entry writes at a 40-bit address. -/
def SbEntry.byteAt (e : SbEntry) (x : Nat) : Option Byte :=
  if e.addr ≤ x ∧ x < e.addr + 8 ∧ bitOf e.mask (x - e.addr) then some (BitVec.ofNat 8 (e.data.toNat / 2 ^ (8 * (x - e.addr)))) else none

/-- The byte the youngest entry that writes an address holds; entries are listed oldest first (R242). -/
def sbByte (sb : List SbEntry) (x : Nat) : Option Byte :=
  sb.foldl (fun r e => match e.byteAt x with | some b => some b | none => r) none

/-- Entries drained until none writes a byte of a range. [Log 85 DEDUCED] -/
def Dev.drainOverlap (d : Dev) (c a n : Nat) : Nat → Option Dev
  | 0 => some d
  | fuel + 1 =>
    if (List.range n).any fun i => (sbByte (d.core c).sb (a + i)).isSome then
      (d.drain c).bind fun d => d.drainOverlap c a n fuel
    else some d

/-- What the store buffer gives a load: its bytes; nothing, once the entries that overlap it have drained; or the wait for the
partner's entry. -/
inductive Forward where
  | bytes (bs : List Byte)
  | memory
  | waits
  deriving DecidableEq, Repr

/-- The comparison of a load with the store buffer (R242). `count` says that the counters of R246 see it; a load that waits is counted
once, however long it waits. -/
def Dev.forward242 (d : Dev) (c : Nat) (count : Bool) (a n : Nat) : Forward × Dev :=
  let bs := (List.range n).map fun i => sbByte (d.core c).sb (a + i)
  if bs.all Option.isSome then
    (.bytes (bs.map fun b => b.getD 0), d.when count fun d => d.putCore c ((d.core c).perf CORE.PERF_FWD 1))
  else if bs.any Option.isSome then
    let d := d.when count fun d => d.putCore c ((d.core c).tickWait CORE.PERF_PARTIAL_FWD_WAITS)
    match d.drainOverlap c a n 8 with
    | some d => (.memory, d)
    | none => (.waits, d)
  else (.memory, d)

/-- A place of a core's own TCM. -/
def Dev.ownPlace (d : Dev) (c a : Nat) : Bool := decide (d.memCode a = some c)

/-- A read of NORMAL memory by a core: the bytes, or the vector of the exception it raises (R235, R367, R428). -/
def Dev.readNormal (d : Dev) (c a n : Nat) : Except Nat (List Byte) × Dev :=
  let own := d.ownPlace c a
  if !d.memMapped a n || !(own || d.memOpen (d.coreAgent c) a n false) then (.error 6, d)
  else
    let (ok, bs, d) := if own then d.readMem 1 (d.coreAgent c) a n else d.getMem 1 (d.coreAgent c) a n
    (if ok then .ok bs else .error 8, d)

/-- A loaded value in its registers (R257 to R260, R276). -/
def CoreSt.loaded (cs : CoreSt) (dest : Dest) (v : Nat) : CoreSt :=
  match dest with
  | .none => cs
  | .g r sg size =>
    if size = 3 then (cs.setG r (BitVec.ofNat 32 v)).setG (r + 1) (BitVec.ofNat 32 (v / 2 ^ 32))
    else cs.setG r (loadedWord sg size v)
  | .f r size => cs.setF r (if size = 3 then BitVec.ofNat 64 v else boxS v)

/-- The end of an access whose instruction began in `old`: its exception, or its retirement with the base register and the loaded
value written (R259). -/
def Dev.endAccess (d : Dev) (c : Nat) (old : CoreSt) (q : MemReq) : Except Nat Nat → Issue
  | .error v => .exc (d.putCore c { d.core c with req := none, waited := false }) { vec := v, info := q.kind, addr := q.addr, pc := old.pc }
  | .ok v =>
    let cs := d.core c
    let cs := match q.upd with
      | some (r, x) => cs.setG r x
      | none => cs
    .done (d.retire c old (cs.loaded q.dest v) none q.ilen (some (q.addr, q.len, q.data)))

/-- The instruction left in progress with its access. -/
def Dev.postAccess (d : Dev) (c : Nat) (q : MemReq) : Issue :=
  .posted (d.putCore c { d.core c with req := some { q with since := d.now } })

/-- The instruction waits for the partner's entry, with its wait counted. -/
def Dev.stillWaits (d : Dev) : Issue := .posted { d with answer := .waits }

/-- A NORMAL load (R242). In lockstep a load that reads memory outside the own TCM goes to the tollgate. -/
def Dev.loadAccess (d : Dev) (c : Nat) (q : MemReq) (a : Nat) : Issue :=
  match d.forward242 c true a q.len with
  | (.waits, d) => d.stillWaits
  | (.bytes bs, d) => d.endAccess c (d.core c) q (.ok (ofBytes bs))
  | (.memory, d) =>
    if d.lockstep c && !d.ownPlace c a then d.postAccess c q
    else
      let (r, d) := d.readNormal c a q.len
      d.endAccess c (d.core c) q (r.map ofBytes)

/-- The entry of a store (R241). -/
def MemReq.entry (q : MemReq) (count a : Nat) (v : DWord) : SbEntry :=
  { core := q.addr, addr := a / 8 * 8, mask := (2 ^ q.len - 1) * 2 ^ (a % 8)
    data := BitVec.ofNat 64 (v.toNat % 2 ^ (8 * q.len) * 2 ^ (8 * (a % 8))), count := count }

/-- A NORMAL store: into the store buffer, which drains its oldest entry first where it is full (R241). [Log 85 DEDUCED] -/
def Dev.storeAccess (d : Dev) (c : Nat) (q : MemReq) (a : Nat) (v : DWord) : Issue :=
  let full := decide ((d.core c).sb.length ≥ 8)
  let d := d.when full fun d => d.putCore c ((d.core c).tickWait CORE.PERF_SB_FULL)
  match if full then d.drain c else some d with
  | none => d.stillWaits
  | some d =>
    let cs := d.core c
    let d := d.putCore c { cs with sb := cs.sb ++ [q.entry cs.retired a v] }
    d.endAccess c (d.core c) q (.ok 0)

/-- An atomic operation performed: the old word, or its exception's vector (R261). -/
def Dev.amoDo (d : Dev) (c : Nat) (q : MemReq) (a : Nat) : Except Nat Nat × Dev :=
  match q.amo with
  | none => (.error 6, d)
  | some (op, x, b) =>
    let own := d.ownPlace c a
    if !d.memMapped a 4 || !(own || (d.memOpen (d.coreAgent c) a 4 false && d.memOpen (d.coreAgent c) a 4 true)) then (.error 6, d)
    else match d.readNormal c a 4 with
      | (.error v, d) => (.error v, d)
      | (.ok bs, d) =>
        let o := ofBytes bs
        match amoNew op (BitVec.ofNat 32 o) x b with
        | none => (.ok o, d)
        | some n =>
          let w := toBytes 4 n.toNat
          (.ok o, if own then d.writeMem (d.coreAgent c) a w else d.putMem (d.coreAgent c) a w)

/-- An atomic operation, issued once the store buffer is empty; on own TCM, TCM aliases and shared SRAM only (R261). -/
def Dev.amoAccess (d : Dev) (c : Nat) (q : MemReq) (a : Nat) : Issue :=
  if a ≥ 0x10800000 then d.endAccess c (d.core c) q (.error 6)
  else match d.drainAll c with
    | none => .wait
    | some d =>
      if d.lockstep c && !d.ownPlace c a then d.postAccess c q
      else
        let (r, d) := d.amoDo c q a
        d.endAccess c (d.core c) q r

/-- An ORDERED access, issued once the store buffer is empty (R236). [Log 84 DEDUCED] -/
def Dev.orderedAccess (d : Dev) (c : Nat) (q : MemReq) : Issue :=
  match d.drainAll c with
  | none => .wait
  | some d => d.postAccess c q

/-- The MPU grants an access of a kind (R234). [Log 84 DEDUCED] -/
def CoreSt.mpuOk (cs : CoreSt) (q : MemReq) : Bool :=
  match q.kind with
  | 1 => cs.mpuGrants q.addr 1
  | 2 => cs.mpuGrants q.addr 2
  | _ => cs.mpuGrants q.addr 1 && cs.mpuGrants q.addr 2

/-- A USER access to a system register that is refused (R234). -/
def Dev.privAccess (d : Dev) (c : Nat) (q : MemReq) : Bool :=
  match d.place c q.addr with
  | .sysReg o => (d.core c).sysPrivate o
  | _ => false

/-- A place that holds registers, where a misaligned access is a bus error (R6, R236). -/
def Place.registers : Place → Bool
  | .sysReg _ => true
  | .ordered a => inPeripherals a
  | _ => false

/-- A load, a store or an atomic operation, with its exceptions in the order of R292: PRIVOP, ALIGN, MPU, BUSERR, ECC. A register is
accessed as a whole word, and a misaligned access to one is a bus error (R6). [Log 84 DEDUCED] -/
def Dev.access (d : Dev) (c : Nat) (w : Word) (q : MemReq) : Issue :=
  let cs := d.core c
  let bad := fun v => d.endAccess c cs q (.error v)
  if d.privAccess c q then .exc d { vec := 3, addr := shownWord w, pc := cs.pc }
  else if !alignedTo q.addr q.len && !(d.place c q.addr).registers then bad 5
  else if !cs.mpuOk q then bad 7
  else match d.place c q.addr with
    | .absent => bad 6
    | .sysReg _ => if q.len ≠ 4 ∨ q.amo.isSome ∨ ¬ alignedTo q.addr q.len then bad 6 else d.orderedAccess c q
    | .ordered _ => if q.amo.isSome ∨ ¬ alignedTo q.addr q.len then bad 6 else d.orderedAccess c q
    | .ownTcm a => if q.amo.isSome then d.amoAccess c q a else match q.data with
      | some v => d.storeAccess c q a v
      | none => d.loadAccess c q a
    | .normal a => if q.amo.isSome then d.amoAccess c q a else match q.data with
      | some v => d.storeAccess c q a v
      | none => d.loadAccess c q a

/-! ### Requests in progress (R236, R308) -/

/-- An ORDERED access of an agent at a place of the 40-bit map (R236). -/
def Dev.orderedDo (d : Dev) (agent : AgentId) (q : MemReq) (a : Nat) : BusAns × Dev :=
  match q.data with
  | some v => d.busWrite agent a (toBytes q.len v.toNat)
  | none => d.busRead 1 agent a q.len

/-- The access of a request performed once on the device: memory, peripheral or ROM. -/
def Dev.reqDo (d : Dev) (c : Nat) (q : MemReq) : BusAns × Dev :=
  match d.place c q.addr with
  | .ordered a => d.orderedDo (d.coreAgent c) q a
  | .normal a =>
    if q.amo.isSome then
      match d.amoDo c q a with
      | (.ok v, d) => (.done (toBytes 4 v), d)
      | (.error v, d) => (if v = 8 then .bad else .abort, d)
    else match d.readNormal c a q.len with
      | (.ok bs, d) => (.done bs, d)
      | (.error v, d) => (if v = 8 then .bad else .abort, d)
  | _ => (.abort, d)

/-- The time an ORDERED access has waited, counted (R246). -/
def Dev.orderedTime (d : Dev) (c : Nat) (q : MemReq) : Dev :=
  match d.place c q.addr with
  | .normal _ => d
  | _ => d.putCore c ((d.core c).perf CORE.PERF_ORDERED_NS ((d.now - q.since).toNat / 64))

/-- The answer of a request at its core: the write that waits for the Ledger stays in progress. -/
def Dev.endAnswer (d : Dev) (c : Nat) (old : CoreSt) (q : MemReq) (a : BusAns) : Issue :=
  let d := d.when (decide (a ≠ .waits)) fun d => d.orderedTime c q
  match a with
  | .done bs => d.endAccess c old q (.ok (ofBytes bs))
  | .rejected _ => d.endAccess c old q (.ok 0)
  | .abort => d.endAccess c old q (.error 6)
  | .bad => d.endAccess c old q (.error 8)
  | .waits => .posted (d.putCore c { d.core c with req := some { q with sent := true } })

/-- A system register that a lockstep pair reads from its primary core (R246). -/
def primaryReg (o : Nat) : Bool :=
  decide (o = CORE.CORE_ID) || decide (o = CORE.SB_STATUS) || (decide (0x48 ≤ o) && decide (o < 0x68))

/-- A system register read by its core, or by its pair through the primary core. A read of the low word of PERF_RET latches the high word
for the read that follows (R7). [Log 162 DEDUCED] -/
def Dev.sysTake (d : Dev) (c o : Nat) : Word × Dev :=
  let p := if d.lockstep c && primaryReg o then c / 2 * 2 else c
  let cs := d.core p
  if o = CORE.PERF_RET then (d.sysRead p o, d.putCore p { cs with retHi := some (cs.s (CORE.PERF_RET + 4)) })
  else if o = CORE.PERF_RET + 4 then (cs.retHi.getD (d.sysRead p o), d.putCore p { cs with retHi := none })
  else (d.sysRead p o, d)

/-- An access of a core to one of its system registers. -/
def Dev.sysAccess (d : Dev) (c o : Nat) (q : MemReq) : Issue :=
  let old := d.core c
  match q.data with
  | some v => (d.putCore c (old.sysWrite o (v.setWidth 32))).endAnswer c old q (.done [])
  | none =>
    let (v, d) := d.sysTake c o
    d.endAnswer c old q (.done (toBytes 4 v.toNat))

/-- The answer of a split core's request: performed now, or ended where it has waited for the Ledger. -/
def Dev.answerReq (d : Dev) (c : Nat) (q : MemReq) : Issue :=
  if q.sent then if d.agentWaits (d.coreAgent c) then .wait else d.endAnswer c (d.core c) q (.done [])
  else match d.place c q.addr with
    | .sysReg o => d.sysAccess c o q
    | _ =>
      let (a, e) := d.reqDo c q
      e.endAnswer c (e.core c) q a

/-- An ORDERED access that was in flight when its core was put in reset completes, and no instruction retires (R248).
[Log 84 DEDUCED] -/
def Dev.answerLost (d : Dev) (c : Nat) (agent : AgentId) (q : MemReq) : Dev :=
  let e := match d.place c q.addr with
    | .ordered a => (d.orderedDo agent q a).2
    | _ => d
  e.putCore c { e.core c with lost := none }

/-- ORDERED_ANSWER (R236): the target of a split core's ORDERED access answers, and its instruction retires. An access that a core put in
reset has left in flight is answered first (R248). [Log 84 DEDUCED] -/
def execOrderedAnswer (c : Fin 4) (s : State) : Host.Outcome State Fault Refusal :=
  s.onDev fun d =>
    match (d.core c).lost, (d.core c).req with
    | some (agent, q), _ => d.answerLost c agent q
    | none, none => { d with answer := .ignored }
    | none, some q =>
      if d.coreState c = 0 ∨ d.coreState c = 5 ∨ d.lockstep c then { d with answer := .ignored }
      else d.orWait ((d.answerReq c q).finish c)

/-- One answer delivered to both cores of a pair. -/
def Dev.bothAnswered (d : Dev) (p : Nat) (q r : MemReq) (a : BusAns) : Option Dev :=
  ((d.endAnswer (2 * p) (d.core (2 * p)) q a).finish (2 * p)).bind fun d =>
    (d.endAnswer (2 * p + 1) (d.core (2 * p + 1)) r a).finish (2 * p + 1)

/-- The access of a pair whose two requests agree, performed once (R308). -/
def Dev.tollDo (d : Dev) (p : Nat) (q r : MemReq) : Option Dev :=
  if q.sent then if d.agentWaits (d.coreAgent (2 * p)) then none else d.bothAnswered p q r (.done [])
  else match d.place (2 * p) q.addr with
    | .sysReg o =>
      if q.data.isNone && primaryReg o then
        let (v, e) := d.sysTake (2 * p) o
        e.bothAnswered p q r (.done (toBytes 4 v.toNat))
      else ((d.sysAccess (2 * p) o q).finish (2 * p)).bind fun d => (d.sysAccess (2 * p + 1) o r).finish (2 * p + 1)
    | _ =>
      let (a, e) := d.reqDo (2 * p) q
      e.bothAnswered p q r a

/-- TOLLGATE_MATCH (R308, R312): both cores of a pair have a request at the same retired count; the requests are compared and the access is
performed once. [Log 91 DEDUCED] -/
def execTollgateMatch (p : Fin 2) (s : State) : Host.Outcome State Fault Refusal :=
  s.onDev fun d =>
    match (d.core (2 * p)).req, (d.core (2 * p + 1)).req with
    | some q, some r =>
      if !d.lockstep (2 * p) || (d.pair p).declared.isSome || decide ((d.core (2 * p)).retired ≠ (d.core (2 * p + 1)).retired) then
        { d with answer := .ignored }
      else if !q.same r then d.declare p
      else d.orWait (d.tollDo p q r)
    | _, _ => { d with answer := .ignored }

/-! ### The store buffer's own steps and direct writes of system registers -/

/-- A core between two instructions. -/
def Dev.between (d : Dev) (c : Nat) : Bool :=
  decide (d.coreState c = 2) && (d.core c).req.isNone && (d.core c).joinSince.isNone && !(d.core c).parting

/-- STORE_BUFFER_DRAIN (R241): the oldest entry is written to its memory, or refused. An error it meets is taken at once by a core
that stands between two instructions. [Log 85 DEDUCED] -/
def execStoreBufferDrain (c : Fin 4) (s : State) : Host.Outcome State Fault Refusal :=
  s.onDev fun d =>
    if (d.core c).sb.isEmpty then { d with answer := .ignored }
    else d.orWait ((d.drain c).bind fun d => if d.between c then d.boundary c else some d)

/-- The store buffers of a core, and of its partner in lockstep, empty: what an ORDERED access waits for (R236). -/
def Dev.drainPair (d : Dev) (c : Nat) : Option Dev :=
  (d.drainAll c).bind fun d => if d.lockstep c then d.drainAll (partner c) else some d

/-- A write of a system register by the command itself: a running core makes it once its store buffer is empty (R236), the debug port at a
halted one at once; a core that does not run, or is at USER, makes none (R234). [Log 93 DEDUCED] -/
def Dev.sysCommand (d : Dev) (c o : Nat) (v : Word) : Dev :=
  if (d.coreState c ≠ 2 ∧ d.coreState c ≠ 4) ∨ (d.core c).pl = 0 then { d with answer := .ignored }
  else if d.coreState c = 4 then d.putSys c o v
  else d.orWait ((d.drainPair c).map fun d => d.putSys c o v)

/-- CACHE_INVALIDATE (R239): CACHE_CTRL written with INVAL = 1; `en` is IC_EN. [Log 93 DEDUCED] -/
def execCacheInvalidate (c : Fin 4) (en : Bool) (s : State) : Host.Outcome State Fault Refusal :=
  s.onDev fun d => d.sysCommand c CORE.CACHE_CTRL (BitVec.ofNat 32 (0x100 + b2n en))

/-- PERF_CLEAR (R246): PERF_CTRL written with CLEAR = 1; `en` is EN and `user` is USER. [Log 93 DEDUCED] -/
def execPerfClear (c : Fin 4) (en user : Bool) (s : State) : Host.Outcome State Fault Refusal :=
  s.onDev fun d => d.sysCommand c CORE.PERF_CTRL (BitVec.ofNat 32 (0x100 + 2 * b2n user + b2n en))

/-- EVC_CLR (R294): the pending bits of the lines written with 1 clear; `hi` names lines 32 to 63. [Log 93 DEDUCED] -/
def execEvcClr (c : Fin 4) (hi : Bool) (v : Word) (s : State) : Host.Outcome State Fault Refusal :=
  s.onDev fun d => d.sysCommand c (CORE.EVC_CLR + 4 * b2n hi) v

/-- EVC_PEND_WRITE (R294): the pending bits of the lines written with 1 set. [Log 93 DEDUCED] -/
def execEvcPendWrite (c : Fin 4) (hi : Bool) (v : Word) (s : State) : Host.Outcome State Fault Refusal :=
  s.onDev fun d => d.sysCommand c (CORE.EVC_PEND + 4 * b2n hi) v

end Sys2Proof.Machine
end

