-- ==== Sys2Proof/Machine/CoreExec.lean ====
section
/-!
DEFINITION. Machine/CoreExec.lean: what an instruction of a core does (R253 to R274, R291 to R304, R310, R311), beside the floating-point unit
(CoreFp.lean): registers and branches, loops and special registers, barriers, system instructions, and the return from an exception.
-/
namespace Sys2Proof.Machine

/-- The retirement of an instruction that changed its core to `cs`. [Log 83 DEDUCED] -/
def Dev.retired (d : Dev) (c : Nat) (cs : CoreSt) (target : Option Word) (len : Nat) : Issue :=
  .done (d.retire c (d.core c) cs target len none)

/-- A precise exception of the instruction at the PC (R291). [Log 50 DEDUCED] -/
def Dev.precise (d : Dev) (c vec info : Nat) (addr : Word) : Issue :=
  .exc d { vec := vec, info := info, addr := addr, pc := (d.core c).pc }

/-! ### Registers and branches (R262 to R270) -/

/-- An instruction on registers alone; a jump to an odd address raises ALIGN (R270), a zero divisor DIVZ with DZT = 1 (R266).
[Log 50 DEDUCED] -/
def Dev.runRegs (d : Dev) (c : Nat) (i : WInstr) (len : Nat) : Issue :=
  let cs := d.core c
  match evalRegs i cs.rg cs.status cs.pc len 31 with
  | none => .wait
  | some r =>
    let odd := match r.target with
      | some t => wordBit t 0
      | none => false
    if odd then d.precise c 5 0 (r.target.getD 0)
    else
      let cs' : CoreSt := { cs with status := r.st }
      let cs' := match r.wr with
        | some (rd, v) => cs'.setG rd v
        | none => cs'
      let cs' : CoreSt := if r.dz && wordBit r.st STATUS.DZT then cs'.dueTrap 9 0 else cs'
      d.retired c cs' r.target len

/-! ### Hardware loops and special registers (R271, R273) -/

/-- A loop started at a level: its registers, and the branch of a count of 0 (R271). [Log 51 DEDUCED] -/
def CoreSt.startLoop (cs : CoreSt) (l body : Nat) (n : Word) : CoreSt × Option Word :=
  let st := cs.pc + 4
  let en := st + BitVec.ofNat 32 (2 * body)
  let cs' : CoreSt := { cs with
    lstart := Tab.set 0 l st cs.lstart
    lend := Tab.set 0 l en cs.lend
    lcount := Tab.set 0 l n cs.lcount }
  if n = 0 then (cs', some en)
  else ({ cs' with lctrl := BitVec.ofNat 32 (cs.lctrl.toNat % 2 ^ l + 2 ^ l) }, none)

/-- LOOP and LOOPI (R271). [Log 51 DEDUCED] -/
def Dev.runLoop (d : Dev) (c l ra body : Nat) (cnt : Option Nat) : Issue :=
  let cs := d.core c
  let n := match cnt with
    | some k => BitVec.ofNat 32 k
    | none => cs.rg ra
  let (cs', t) := cs.startLoop l body n
  d.retired c cs' t 4

/-- MTS: its own end check sees the registers as they were (R273). [Log 82 DEDUCED] -/
def Dev.runMts (d : Dev) (c sr ra : Nat) : Issue :=
  let cs := d.core c
  let next := cs.endCheck (cs.pc + 4) 4
  d.retired c (next.setSpecial sr (cs.rg ra)) (some next.pc) 4

/-! ### Loads, stores and atomic operations (R257 to R261) -/

/-- The request of a load. -/
def Dev.loadReq (d : Dev) (c : Nat) (size : Nat) (m : AddrMode) (ra : Nat) (dest : Dest) (len : Nat) : MemReq :=
  let cs := d.core c
  let (a, u) := addrOf m cs.rg ra size (cs.sf CORE.BANK 15 0)
  { addr := a, len := accessLen size, dest := dest, upd := u.map fun v => (ra, v), ilen := len }

/-- The value a store of a g register, or of a pair, stores (R257, R260). -/
def CoreSt.storeWord (cs : CoreSt) (size rs : Nat) : DWord :=
  if size = 3 then cs.rg (rs + 1) ++ cs.rg rs else BitVec.ofNat 64 ((cs.rg rs).toNat % 2 ^ (8 * 2 ^ size))

/-- The request of a store. -/
def Dev.storeReq (d : Dev) (c : Nat) (size : Nat) (m : AddrMode) (ra : Nat) (v : DWord) (len : Nat) : MemReq :=
  { d.loadReq c size m ra .none len with data := some v }

/-- The request of an atomic operation. -/
def Dev.amoReq (d : Dev) (c : Nat) (op : AmoOp) (rd ra rb : Nat) : MemReq :=
  let cs := d.core c
  { addr := cs.rg ra, len := 4, amo := some (op, cs.rg rd, cs.rg rb), dest := .g rd false 2 }

/-! ### Barriers (R239, R244) -/

/-- An instruction that retires once the store buffer is empty. [Log 85 DEDUCED] -/
def Dev.drained (d : Dev) (c : Nat) (f : CoreSt → CoreSt) (len : Nat) : Issue :=
  match d.drainAll c with
  | none => .wait
  | some d => d.retired c (f (d.core c)) none len

/-- IFLUSH of an address (R239). [Log 86 DEDUCED] -/
def CoreSt.iflush (cs : CoreSt) (a : Word) : CoreSt :=
  { cs with cache := cs.cache.filter (·.no ≠ a.toNat / 64), lineBuf := [] }

/-! ### RETE (R300, R301) -/

/-- The 8-byte pieces of a frame, as words; or the exception of a piece and its offset. -/
def Dev.framePieces (d : Dev) (c a : Nat) : List Nat → Option (Except (Nat × Nat) (List Word) × Dev)
  | [] => some (.ok [], d)
  | o :: rest =>
    match d.forward242 c false (a + o) 8 with
    | (.waits, _) => none
    | (fwd, d) =>
      let (r, d) := match fwd with
        | .bytes bs => (Except.ok bs, d)
        | _ => d.readNormal c (a + o) 8
      match r with
      | .error v => some (.error (v, o), d)
      | .ok bs =>
        (d.framePieces c a rest).map fun (r, d) =>
          (r.map fun ws => BitVec.ofNat 32 (ofBytes (bs.take 4)) :: BitVec.ofNat 32 (ofBytes (bs.drop 4)) :: ws, d)

/-- The line whose handler a frame's EXC_CAUSE word names is no longer active. [Log 88 DEDUCED] -/
def CoreSt.endActive (cs : CoreSt) (cause : Word) : CoreSt :=
  let v := bitsOf cause.toNat 6 0
  if 16 ≤ v ∧ v < 80 then cs.setLineBit CORE.EVC_ACTIVE (v - 16) false else cs

/-- The core after RETE unstacks: `ws` are the words of its frame, `ent` its record (R300). [Log 88 DEDUCED] -/
def CoreSt.unstack (cs : CoreSt) (ws : List Word) (pri : Nat) : CoreSt :=
  let cs1 := ((((cs.setG 1 (ws.getD 4 0)).setG 2 (ws.getD 5 0)).setG 3 (ws.getD 6 0)).setG 31 (ws.getD 7 0)).setBank cs.pl (cs.rg 30 + 32)
  let cs1 := (cs1.endActive (ws.getD 2 0)).setSf CORE.EVC_RUN 4 0 pri
  { cs1 with status := ws.getD 1 0 &&& 0x1F0307, entries := cs.entries.tail }

/-- The core after RETE chains to line `l` (R301). [Log 88 DEDUCED] -/
def CoreSt.chain (cs : CoreSt) (c l : Nat) (ws : List Word) : CoreSt :=
  let f := cs.rg 30
  let w := causeWord 0 0 (16 + l)
  let e : SbEntry := { core := f + 8, addr := frameAddr c f + 8, mask := 0xFF, data := w.setWidth 64, count := cs.retired
                       kind := .frame (16 + l) }
  let cs1 := ((({ cs with sb := cs.sb ++ [e] } : CoreSt).endActive (ws.getD 2 0)).setLineBit CORE.EVC_PEND l false).setLineBit
    CORE.EVC_ACTIVE l true
  ((cs1.setS CORE.EXC_CAUSE w).setS CORE.EXC_ADDR 0).setSf CORE.EVC_RUN 4 0 (cs.sf (CORE.EVC_LINE l) 3 0)

/-- The line that RETE chains to: in lockstep the first core fixes it for both (R301, R309). [Log 88 DEDUCED] -/
def Dev.chainLine (d : Dev) (c : Nat) (pri : Nat) (ie : Bool) : Option Nat × Dev :=
  let cs := d.core c
  let l := cs.bestLine pri ie true
  if !d.lockstep c then (l, d)
  else
    let x := d.pair (c / 2)
    match x.chain with
    | some (k, l') =>
      if k = cs.retired then (l', d.putPair (c / 2) { x with chain := none })
      else (l, d.putPair (c / 2) { x with chain := some (cs.retired, l) })
    | none => (l, d.putPair (c / 2) { x with chain := some (cs.retired, l) })

/-- The pending and merged bits of a core that follows its partner's decision (R309: the pair has one controller state). -/
def Dev.followLines (d : Dev) (c : Nat) : Dev :=
  let q := d.core (partner c)
  d.putCore c ([CORE.EVC_PEND, CORE.EVC_PEND + 4, CORE.EVC_MERGED, CORE.EVC_MERGED + 4].foldl (fun cs o => cs.setS o (q.s o)) (d.core c))

/-- RETE with a good frame, whose words 0 to 3 are `ws` (R300, R301): it chains, or reads the other words and unstacks. -/
def Dev.leave (d0 : Dev) (c : Nat) (ws : List Word) (pri : Nat) : Issue :=
  let s := ws.getD 1 0
  let f := (d0.core c).rg 30
  let second := decide ((d0.pair (c / 2)).chain.any fun p => p.1 = (d0.core c).retired)
  let (l, d) := d0.chainLine c pri (wordBit s STATUS.IE)
  match l with
  | none =>
    match d.framePieces c (frameAddr c f) [16, 24] with
    | none => .wait
    | some (.error (v, o), d) => Dev.precise { d with pairs := d0.pairs } c v 1 (f + BitVec.ofNat 32 o)
    | some (.ok more, d) =>
      let cs := d.core c
      d.retired c (cs.unstack (ws ++ more) pri) (some (ws.getD 0 0)) 4
  | some l =>
    match d.drainTo c 7 8 with
    | none => .wait
    | some d =>
      let old := d.core c
      let d := d.retire c old (old.chain c l ws) (some (BitVec.ofNat 32 (16 * (16 + l)))) 4 none
      let d := d.when second fun d => d.followLines c
      if d.vectorFaults c (16 + l) then
        match d.enterSill c 3 (16 + l) (BitVec.ofNat 32 (16 * (16 + l))) (ws.getD 0 0) with
        | none => .wait
        | some d => .posted d
      else .done d

/-- RETE at KERNEL or SILL (R300). [Log 88 DEDUCED] -/
def Dev.runRete (d : Dev) (c : Nat) : Issue :=
  let cs := d.core c
  let f := cs.rg 30
  let bad := fun (d : Dev) n => d.precise c 4 n f
  match cs.entries with
  | [] => bad d 1
  | (pl, pri) :: _ =>
    if !(if cs.pl = 1 then cs.frameValid (f + 32) else sillFrameValid (f + 32)) then bad d 3
    else match d.framePieces c (frameAddr c f) [0] with
      | none => .wait
      | some (.error (v, o), d) => d.precise c v 1 (f + BitVec.ofNat 32 o)
      | some (.ok ws, d) =>
        if wordBit (ws.getD 0 0) 0 then bad d 3
        else if bitsOf (ws.getD 1 0).toNat 1 0 > pl then bad d 2
        else match d.framePieces c (frameAddr c f) [8] with
          | none => .wait
          | some (.error (v, o), d) => d.precise c v 1 (f + BitVec.ofNat 32 o)
          | some (.ok w, d) => d.leave c (ws ++ w) pri

/-! ### SLEEP, PART, JOIN and sections (R302, R303, R310, R311) -/

/-- SLEEP: the core issues nothing more, unless a cause due at the boundary is taken (R303). -/
def Dev.runSleep (d : Dev) (c : Nat) : Issue :=
  let d := d.retire c (d.core c) (d.core c) none 4 none
  match d.boundary c with
  | none => .wait
  | some e =>
    if (e.core c).entries.length ≠ (d.core c).entries.length then .posted e
    else if e.coreState c = 4 then .posted (e.putCore c { e.core c with asleep := true })
    else if e.coreState c = 2 then .posted (e.setCoreState c 3)
    else .posted e

/-- ATOMB: a section of 2 (i + 1) ns (R302). -/
def Dev.runAtomb (d : Dev) (c i : Nat) : Issue :=
  let cs := d.core c
  d.retired c (if cs.atom.isSome then cs.setSf CORE.ATOM_STATUS 3 3 1 else { cs with atom := some (d.now + nsT (2 * (i + 1))) }) none 4

/-! ### Every instruction -/

/-- What is undefined in the pair's present mode (R310, R311). -/
def Dev.undefinedNow (d : Dev) (c : Nat) : WInstr → Bool
  | .undef => true
  | .part => !d.lockstep c
  | .join => d.lockstep c
  | _ => false

/-- The privileged instructions (R256). -/
def privileged : WInstr → Bool
  | .rete => true
  | .sleep => true
  | .part => true
  | .join => true
  | .atomb _ => true
  | .atome => true
  | _ => false

/-- The effect of an instruction that is neither undefined nor refused; none for those of the floating-point unit.
[Log 83 DEDUCED] -/
def Dev.runInt (d : Dev) (c : Nat) (w : Word) : WInstr → Option Issue
  | .load sg size m rd ra _ => some (d.access c w (d.loadReq c size m ra (.g rd sg size) (wordLen w)))
  | .store size m rs ra _ => some (d.access c w (d.storeReq c size m ra ((d.core c).storeWord size rs) (wordLen w)))
  | .amo op rd ra rb => some (d.access c w (d.amoReq c op rd ra rb))
  | .loop l ra body cnt => some (d.runLoop c l ra body cnt)
  | .mfs rd sr => some (d.retired c ((d.core c).setG rd ((d.core c).special sr)) none 4)
  | .mts sr ra => some (d.runMts c sr ra)
  | .fence => some (d.drained c id 4)
  | .sync => some (d.drained c id 4)
  | .iflush ra => some (d.drained c (fun cs => cs.iflush (cs.rg ra)) 4)
  | .syscall imm =>
    let cs := d.core c
    let d := d.retire c cs (cs.dueTrap 12 imm) (some (cs.pc + BitVec.ofNat 32 (wordLen w))) (wordLen w) none
    some (.done (d.putCore c { d.core c with stepDue := none }))
  | .brk imm => some (d.precise c 13 imm 0)
  | .rete => some (d.runRete c)
  | .sleep => some (d.runSleep c)
  | .part => some (.posted (d.putCore c { d.core c with parting := true }))
  | .join => some (.posted (d.putCore c { d.core c with joinSince := some d.now }))
  | .atomb imm => some (d.runAtomb c imm)
  | .atome => some (d.retired c { d.core c with atom := none } none 4)
  | i =>
    let cs := d.core c
    if (evalRegs i cs.rg cs.status cs.pc (wordLen w) 31).isSome then some (d.runRegs c i (wordLen w)) else none

end Sys2Proof.Machine
end

