-- ==== Sys2Proof/Machine/Float.lean ====
section
/-!
DEFINITION. Machine/Float.lean: IEEE 754-2019 binary32 and binary64 arithmetic with the choices of spec/12 (R276 to R288): exact
results as integers times powers of two, one rounding, flags, tininess after rounding, and the canonical NaN.
-/
namespace Sys2Proof.Machine

/-- A format: precision, width of the exponent field, and smallest normal exponent. -/
structure FFmt where
  p : Nat
  ew : Nat
  emin : Int
  deriving DecidableEq, Repr

/-- binary32. -/
def fmtS : FFmt := { p := 24, ew := 8, emin := -126 }

/-- binary64. -/
def fmtD : FFmt := { p := 53, ew := 11, emin := -1022 }

/-- The format FMT names (R283). -/
def fmtOf (dbl : Bool) : FFmt := if dbl then fmtD else fmtS

/-- A datum: a NaN, signalling or quiet; an infinity; or (−1)^sign · m · 2^e. -/
inductive FVal where
  | nan (signalling : Bool)
  | inf (neg : Bool)
  | fin (neg : Bool) (m : Nat) (e : Int)
  deriving DecidableEq, Repr

/-- The flags of R280 as bits of FCSR[4:0]. -/
def FLAG.NV : Nat := 16
def FLAG.DZ : Nat := 8
def FLAG.OF : Nat := 4
def FLAG.UF : Nat := 2
def FLAG.NX : Nat := 1

/-- A result: its bits and the flags raised. -/
structure FRes where
  bits : Nat
  flags : Nat := 0
  deriving DecidableEq, Repr

/-- The bits of +∞ in a format. -/
def FFmt.infBits (f : FFmt) : Nat := (2 ^ f.ew - 1) * 2 ^ (f.p - 1)

/-- The sign bit's weight. -/
def FFmt.signBit (f : FFmt) : Nat := 2 ^ (f.p - 1 + f.ew)

/-- The canonical quiet NaN (R282). -/
def FFmt.nanBits (f : FFmt) : Nat := f.infBits + 2 ^ (f.p - 2)

/-- A sign put on magnitude bits. -/
def FFmt.signed (f : FFmt) (neg : Bool) (mag : Nat) : Nat := mag + (if neg then f.signBit else 0)

/-- The canonical NaN with NV or without. -/
def FFmt.nanRes (f : FFmt) (nv : Bool) : FRes := { bits := f.nanBits, flags := if nv then FLAG.NV else 0 }

/-- The datum a bit pattern holds. -/
def FFmt.unpack (f : FFmt) (bits : Nat) : FVal :=
  let frac := bits % 2 ^ (f.p - 1)
  let ex := bits / 2 ^ (f.p - 1) % 2 ^ f.ew
  let neg := bitOf bits (f.p - 1 + f.ew)
  if ex = 2 ^ f.ew - 1 then (if frac = 0 then .inf neg else .nan (!bitOf frac (f.p - 2)))
  else if ex = 0 then .fin neg frac (f.emin - ((f.p : Int) - 1))
  else .fin neg (frac + 2 ^ (f.p - 1)) (f.emin - ((f.p : Int) - 1) + ((ex : Int) - 1))

/-- The number of bits of a number. -/
def bitLen (n : Nat) : Nat := if n = 0 then 0 else Nat.log2 n + 1

/-- Whether rounding mode `rm` rounds a magnitude up (R279): the kept digits, the rest below them against half a unit, and
whether anything at all lies below. -/
def roundsUp (rm : Nat) (neg odd : Bool) (cmpHalf : Ordering) (inexact : Bool) : Bool :=
  match rm with
  | 0 => decide (cmpHalf = .gt) || (decide (cmpHalf = .eq) && odd)
  | 1 => false
  | 2 => neg && inexact
  | 3 => !neg && inexact
  | _ => decide (cmpHalf ≠ .lt)

/-- The digits kept of m · 2^e when everything below 2^qe is rounded away: the integer count of 2^qe, and whether the result is
inexact. `sticky` says that something nonzero lies below m. -/
def roundAt (rm : Nat) (neg : Bool) (m : Nat) (e : Int) (sticky : Bool) (qe : Int) : Nat × Bool :=
  if qe ≤ e then (m * 2 ^ (e - qe).toNat, sticky)
  else
    let sh := (qe - e).toNat
    let q := m / 2 ^ sh
    let rest := m % 2 ^ sh
    let half := 2 ^ (sh - 1)
    let cmp : Ordering := if rest < half then .lt else if rest = half ∧ !sticky then .eq else .gt
    let inexact := decide (rest ≠ 0) || sticky
    (if roundsUp rm neg (bitOf q 0) cmp inexact then q + 1 else q, inexact)

/-- A nonzero exact magnitude m · 2^e rounded to a format (R279, R280). -/
def FFmt.round (f : FFmt) (rm : Nat) (neg : Bool) (m : Nat) (e : Int) (sticky : Bool) : FRes :=
  let top : Int := e + (bitLen m : Int) - 1
  let low : Int := f.emin - ((f.p : Int) - 1)
  let free : Int := top - ((f.p : Int) - 1)
  let qe := max free low
  let (q, inexact) := roundAt rm neg m e sticky qe
  let (qu, _) := roundAt rm neg m e sticky free
  let tiny := decide (top < f.emin) && !(decide (top = f.emin - 1) && decide (qu = 2 ^ f.p))
  let mag := (qe - low).toNat * 2 ^ (f.p - 1) + q
  if mag ≥ f.infBits then
    let toInf := decide (rm = 0) || decide (rm = 4) || (decide (rm = 2) && neg) || (decide (rm = 3) && !neg)
    { bits := f.signed neg (if toInf then f.infBits else f.infBits - 1), flags := FLAG.OF + FLAG.NX }
  else
    { bits := f.signed neg mag
      flags := (if tiny && inexact then FLAG.UF else 0) + (if inexact then FLAG.NX else 0) }

/-- A signed integer times 2^e rounded to a format; an exact zero has the sign given. -/
def FFmt.roundInt (f : FFmt) (rm : Nat) (zeroNeg : Bool) (i : Int) (e : Int) : FRes :=
  if i = 0 then { bits := f.signed zeroNeg 0 } else f.round rm (decide (i < 0)) i.natAbs e false

/-- A datum with its sign changed where asked. -/
def FVal.negIf (b : Bool) : FVal → FVal
  | .nan s => .nan s
  | .inf n => .inf (n != b)
  | .fin n m e => .fin (n != b) m e

/-- An operand is a signalling NaN. -/
def FVal.snan : FVal → Bool
  | .nan s => s
  | _ => false

/-- An operand is a NaN. -/
def FVal.isNan : FVal → Bool
  | .nan _ => true
  | _ => false

/-- The sign of a datum. -/
def FVal.neg : FVal → Bool
  | .nan _ => false
  | .inf n => n
  | .fin n _ _ => n

/-- A signed magnitude as an integer. -/
def sgnInt (neg : Bool) (m : Nat) : Int := if neg then -(m : Int) else m

/-- The exact sum of two finite data, rounded once (R280, R282). -/
def FFmt.sumFin (f : FFmt) (rm : Nat) (n1 : Bool) (m1 : Nat) (e1 : Int) (n2 : Bool) (m2 : Nat) (e2 : Int) : FRes :=
  let e := min e1 e2
  let i := sgnInt n1 (m1 * 2 ^ (e1 - e).toNat) + sgnInt n2 (m2 * 2 ^ (e2 - e).toNat)
  f.roundInt rm (if n1 = n2 then n1 else decide (rm = 2)) i e

/-- Addition. -/
def FFmt.add (f : FFmt) (rm : Nat) (a b : FVal) : FRes :=
  match a, b with
  | .nan _, _ => f.nanRes (a.snan || b.snan)
  | _, .nan _ => f.nanRes (a.snan || b.snan)
  | .inf n, .inf n' => if n = n' then { bits := f.signed n f.infBits } else f.nanRes true
  | .inf n, _ => { bits := f.signed n f.infBits }
  | _, .inf n => { bits := f.signed n f.infBits }
  | .fin n1 m1 e1, .fin n2 m2 e2 => f.sumFin rm n1 m1 e1 n2 m2 e2

/-- Multiplication. -/
def FFmt.mul (f : FFmt) (rm : Nat) (a b : FVal) : FRes :=
  let neg := a.neg != b.neg
  match a, b with
  | .nan _, _ => f.nanRes (a.snan || b.snan)
  | _, .nan _ => f.nanRes (a.snan || b.snan)
  | .inf _, .inf _ => { bits := f.signed neg f.infBits }
  | .inf _, .fin _ m _ => if m = 0 then f.nanRes true else { bits := f.signed neg f.infBits }
  | .fin _ m _, .inf _ => if m = 0 then f.nanRes true else { bits := f.signed neg f.infBits }
  | .fin _ m1 e1, .fin _ m2 e2 => f.roundInt rm neg (sgnInt neg (m1 * m2)) (e1 + e2)

/-- Division (R280). -/
def FFmt.div (f : FFmt) (rm : Nat) (a b : FVal) : FRes :=
  let neg := a.neg != b.neg
  match a, b with
  | .nan _, _ => f.nanRes (a.snan || b.snan)
  | _, .nan _ => f.nanRes (a.snan || b.snan)
  | .inf _, .inf _ => f.nanRes true
  | .inf _, .fin _ _ _ => { bits := f.signed neg f.infBits }
  | .fin _ _ _, .inf _ => { bits := f.signed neg 0 }
  | .fin _ m1 e1, .fin _ m2 e2 =>
    if m2 = 0 then (if m1 = 0 then f.nanRes true else { bits := f.signed neg f.infBits, flags := FLAG.DZ })
    else if m1 = 0 then { bits := f.signed neg 0 }
    else
      let k := f.p + 3 + bitLen m2
      f.round rm neg (m1 * 2 ^ k / m2) (e1 - e2 - (k : Int)) (decide (m1 * 2 ^ k % m2 ≠ 0))

/-- Integer square root, digit by digit from bit `i`. -/
def isqrtAux : Nat → Nat → Nat → Nat
  | 0, r, _ => r
  | i + 1, r, n => if (r + 2 ^ i) * (r + 2 ^ i) ≤ n then isqrtAux i (r + 2 ^ i) n else isqrtAux i r n

/-- Square root (R280, R282). -/
def FFmt.sqrt (f : FFmt) (rm : Nat) (a : FVal) : FRes :=
  match a with
  | .nan s => f.nanRes s
  | .inf n => if n then f.nanRes true else { bits := f.infBits }
  | .fin n m e =>
    if m = 0 then { bits := f.signed n 0 }
    else if n then f.nanRes true
    else
      let k : Nat := 2 * f.p + 6 + (e % 2).toNat
      let v := m * 2 ^ k
      let r := isqrtAux (2 * f.p + 8) 0 v
      f.round rm false r ((e - (k : Int)) / 2) (decide (r * r ≠ v))

/-- The fused operations: (±a × b) ± c with one rounding (R284). -/
def FFmt.fma (f : FFmt) (rm : Nat) (op : FmaOp) (a b c : FVal) : FRes :=
  let negP := decide (op = .nmadd) || decide (op = .nmsub)
  let negC := decide (op = .msub) || decide (op = .nmadd)
  let c := c.negIf negC
  let pn := (a.neg != b.neg) != negP
  let zeroInf : Bool :=
    match a, b with
    | .inf _, .fin _ m _ => decide (m = 0)
    | .fin _ m _, .inf _ => decide (m = 0)
    | _, _ => false
  if zeroInf then f.nanRes true
  else if a.isNan || b.isNan || c.isNan then f.nanRes (a.snan || b.snan || c.snan)
  else match a, b, c with
    | .fin _ m1 e1, .fin _ m2 e2, .fin nc mc ec => f.sumFin rm pn (m1 * m2) (e1 + e2) nc mc ec
    | .fin _ _ _, .fin _ _ _, .inf n => { bits := f.signed n f.infBits }
    | _, _, .inf n => if n = pn then { bits := f.signed n f.infBits } else f.nanRes true
    | _, _, _ => { bits := f.signed pn f.infBits }

/-- Comparison of two data that are no NaN: −0 equals +0 (R287). -/
def FVal.cmp (a b : FVal) : Ordering :=
  match a, b with
  | .fin n1 m1 e1, .fin n2 m2 e2 =>
    let e := min e1 e2
    compare (sgnInt n1 (m1 * 2 ^ (e1 - e).toNat)) (sgnInt n2 (m2 * 2 ^ (e2 - e).toNat))
  | .inf n, .inf n' => if n = n' then .eq else if n then .lt else .gt
  | .inf n, _ => if n then .lt else .gt
  | _, .inf n => if n then .gt else .lt
  | _, _ => .eq

/-- FMIN and FMAX: minimumNumber and maximumNumber of two bit patterns (R287). -/
def FFmt.minMax (f : FFmt) (max : Bool) (x y : Nat) : FRes :=
  let a := f.unpack x
  let b := f.unpack y
  let fl := if a.snan || b.snan then FLAG.NV else 0
  if a.isNan && b.isNan then { bits := f.nanBits, flags := fl }
  else if a.isNan then { bits := y, flags := fl }
  else if b.isNan then { bits := x, flags := fl }
  else
    let less : Bool :=
      match a.cmp b with
      | .lt => true
      | .gt => false
      | .eq => a.neg && !b.neg
    { bits := if less != max then x else y, flags := fl }

/-- The predicates of FCMP: 0 EQ, 1 LT, 2 LE, 3 UN (R287). -/
def FFmt.fcmp (f : FFmt) (pred x y : Nat) : Bool × Nat :=
  let a := f.unpack x
  let b := f.unpack y
  let un := a.isNan || b.isNan
  let nv := if pred = 1 ∨ pred = 2 then un else a.snan || b.snan
  let v : Bool :=
    match pred with
    | 0 => !un && decide (a.cmp b = .eq)
    | 1 => !un && decide (a.cmp b = .lt)
    | 2 => !un && decide (a.cmp b ≠ .gt)
    | _ => un
  (v, if nv then FLAG.NV else 0)

/-- FCLASS (R287). -/
def FFmt.fclass (f : FFmt) (x : Nat) : Nat :=
  match f.unpack x with
  | .nan s => if s then 256 else 512
  | .inf n => if n then 1 else 128
  | .fin n m _ =>
    if m = 0 then (if n then 8 else 16)
    else if m < 2 ^ (f.p - 1) then (if n then 4 else 32)
    else if n then 2 else 64

/-- FSGNJ, FSGNJN and FSGNJX: the magnitude of one pattern with a sign (R283). -/
def FFmt.sgnj (f : FFmt) (kind x y : Nat) : Nat :=
  let sx := bitOf x (f.p - 1 + f.ew)
  let sy := bitOf y (f.p - 1 + f.ew)
  f.signed (match kind with
    | 0 => sy
    | 1 => !sy
    | _ => sx != sy) (x % f.signBit)

/-- A datum of one format converted to format `g` (R288). -/
def FFmt.cvt (g : FFmt) (rm : Nat) (a : FVal) : FRes :=
  match a with
  | .nan s => g.nanRes s
  | .inf n => { bits := g.signed n g.infBits }
  | .fin n m e => g.roundInt rm n (sgnInt n m) e

/-- A datum converted to a 32-bit integer (R288). -/
def cvtToInt (uns : Bool) (rm : Nat) (a : FVal) : Word × Nat :=
  let hiW : Word := if uns then 0xFFFFFFFF else 0x7FFFFFFF
  let loW : Word := if uns then 0 else 0x80000000
  let hi : Int := if uns then 2 ^ 32 - 1 else 2 ^ 31 - 1
  let lo : Int := if uns then 0 else -(2 ^ 31)
  match a with
  | .nan _ => (hiW, FLAG.NV)
  | .inf n => (if n then loW else hiW, FLAG.NV)
  | .fin n m e =>
    let (q, inexact) := roundAt rm n m e false 0
    let i := sgnInt n q
    if i > hi then (hiW, FLAG.NV)
    else if i < lo then (loW, FLAG.NV)
    else (BitVec.ofInt 32 i, if inexact then FLAG.NX else 0)

/-- A 32-bit integer converted to a format (R288). -/
def FFmt.ofInt (f : FFmt) (uns : Bool) (rm : Nat) (w : Word) : FRes :=
  f.roundInt rm false (if uns then (w.toNat : Int) else w.toInt) 0

/-- A two-operand operation on bit patterns (R283). -/
def FFmt.op2 (f : FFmt) (op : FpOp) (rm x y : Nat) : FRes :=
  match op with
  | .add => f.add rm (f.unpack x) (f.unpack y)
  | .sub => f.add rm (f.unpack x) ((f.unpack y).negIf true)
  | .mul => f.mul rm (f.unpack x) (f.unpack y)
  | .div => f.div rm (f.unpack x) (f.unpack y)

end Sys2Proof.Machine
end

