-- ==== Sys2Proof/Machine/CoreFp.lean ====
section
/-!
DEFINITION. Machine/CoreFp.lean: what a floating-point instruction of a core does (spec/12): operands and results in registers (R276), FCSR
and its traps (R278 to R281), loads and stores (R285); and the issue of any instruction word.
-/
namespace Sys2Proof.Machine

/-- What a floating-point instruction writes: an f register, g registers, and the flags it raises. -/
structure FOut where
  fw : Option (Nat × DWord) := none
  gw : List (Nat × Word) := []
  flags : Nat := 0
  deriving DecidableEq, Repr

/-- An operand's bits in a format (R276). -/
def CoreSt.fop (cs : CoreSt) (dbl : Bool) (r : Nat) : Nat := if dbl then (cs.rf r).toNat else (cs.rf r).toNat % 2 ^ 32

/-- A result's bits in an f register (R276). -/
def fval (dbl : Bool) (v : Nat) : DWord := if dbl then BitVec.ofNat 64 v else boxS v

/-- The rounding mode an instruction uses (R279). -/
def CoreSt.rmOf (cs : CoreSt) (rm : Nat) : Nat := if rm = 7 then bitsOf cs.fcsr.toNat 7 5 else rm

/-- A result written to an f register. -/
def FOut.f (dbl : Bool) (r : Nat) (x : FRes) : FOut := { fw := some (r, fval dbl x.bits), flags := x.flags }

/-- What a floating-point instruction on registers computes (R283, R284, R287, R288); none for any other. -/
def CoreSt.fpOut (cs : CoreSt) : WInstr → Option FOut
  | .fp op dbl rm fd fa fb => some (.f dbl fd ((fmtOf dbl).op2 op (cs.rmOf rm) (cs.fop dbl fa) (cs.fop dbl fb)))
  | .fsqrt dbl rm fd fa => some (.f dbl fd ((fmtOf dbl).sqrt (cs.rmOf rm) ((fmtOf dbl).unpack (cs.fop dbl fa))))
  | .fminmax mx dbl fd fa fb => some (.f dbl fd ((fmtOf dbl).minMax mx (cs.fop dbl fa) (cs.fop dbl fb)))
  | .fsgn k dbl fd fa fb => some (.f dbl fd { bits := (fmtOf dbl).sgnj k (cs.fop dbl fa) (cs.fop dbl fb) })
  | .fcmp pred dbl gd fa fb =>
    let (b, fl) := (fmtOf dbl).fcmp pred (cs.fop dbl fa) (cs.fop dbl fb)
    some { gw := [(gd, BitVec.ofNat 32 (b2n b))], flags := fl }
  | .fclass dbl gd fa => some { gw := [(gd, BitVec.ofNat 32 ((fmtOf dbl).fclass (cs.fop dbl fa)))] }
  | .fcvt dbl rm fd fa => some (.f dbl fd ((fmtOf dbl).cvt (cs.rmOf rm) ((fmtOf (!dbl)).unpack (cs.fop (!dbl) fa))))
  | .fcvtw uns dbl rm gd fa =>
    let (v, fl) := cvtToInt uns (cs.rmOf rm) ((fmtOf dbl).unpack (cs.fop dbl fa))
    some { gw := [(gd, v)], flags := fl }
  | .fcvtf uns dbl rm fd ga => some (.f dbl fd ((fmtOf dbl).ofInt uns (cs.rmOf rm) (cs.rg ga)))
  | .fmvx dbl gd fa =>
    let v := (cs.rf fa).toNat
    some { gw := if dbl then [(gd, BitVec.ofNat 32 v), (gd + 1, BitVec.ofNat 32 (v / 2 ^ 32))] else [(gd, BitVec.ofNat 32 v)] }
  | .fmvf dbl fd ga =>
    some { fw := some (fd, if dbl then cs.rg (ga + 1) ++ cs.rg ga else boxS (cs.rg ga).toNat) }
  | .fmfc gd => some { gw := [(gd, cs.fcsr)] }
  | .fma op dbl rm fd fa fb fc =>
    let u := fun r => (fmtOf dbl).unpack (cs.fop dbl r)
    some (.f dbl fd ((fmtOf dbl).fma (cs.rmOf rm) op (u fa) (u fb) (u fc)))
  | _ => none

/-- The registers, the flags and the trap of a floating-point instruction (R280, R281). -/
def CoreSt.fpDone (cs : CoreSt) (o : FOut) : CoreSt :=
  let cs := match o.fw with
    | some (r, v) => cs.setF r v
    | none => cs
  let cs := o.gw.foldl (fun cs p => cs.setG p.1 p.2) cs
  let cs : CoreSt := { cs with fcsr := cs.fcsr ||| BitVec.ofNat 32 o.flags }
  if o.flags &&& bitsOf cs.fcsr.toNat 12 8 = 0 then cs
  else ({ cs with fcsr := BitVec.ofNat 32 (putBits cs.fcsr.toNat 20 16 o.flags) } : CoreSt).dueTrap 10 0

/-- FMTC: a reserved RM keeps the old one (R279). -/
def CoreSt.writeFcsr (cs : CoreSt) (v : Word) : CoreSt :=
  let v := v &&& 0x1F1FFF
  { cs with fcsr := if bitsOf v.toNat 7 5 < 5 then v else BitVec.ofNat 32 (putBits v.toNat 7 5 (bitsOf cs.fcsr.toNat 7 5)) }

/-- The effect of a floating-point instruction; none for any other. -/
def Dev.runFp (d : Dev) (c : Nat) (w : Word) : WInstr → Option Issue
  | .fmtc ga => some (d.retired c ((d.core c).writeFcsr ((d.core c).rg ga)) none 4)
  | .fload size m fd ra => some (d.access c w (d.loadReq c size m ra (.f fd size) 4))
  | .fstore size m fs ra => some (d.access c w (d.storeReq c size m ra (BitVec.ofNat 64 ((d.core c).fop (decide (size = 3)) fs)) 4))
  | i => ((d.core c).fpOut i).map fun o => d.retired c ((d.core c).fpDone o) none 4

/-! ### Issue -/

/-- What an instruction word does once it is fetched: UNDEF, then PRIVOP, then the instruction (R253, R256, R292). -/
def Dev.runInstr (d : Dev) (c : Nat) (w : Word) : Issue :=
  let i := decodeW w
  if d.undefinedNow c i then d.precise c 2 0 (shownWord w)
  else if privileged i && decide ((d.core c).pl = 0) then d.precise c 3 0 (shownWord w)
  else (d.runInt c w i).getD ((d.runFp c w i).getD .wait)

/-- A core issues the word of its command, where the word is one of the row's instruction and is the one at the PC.
[Log 13 DESIGN CHOICE] -/
def Dev.runWord (d : Dev) (c : Nat) (w : Word) (row : WInstr → Bool) : Dev :=
  if row (decodeW w) then d.issue c w fun d => d.runInstr c w else { d with answer := .ignored }

end Sys2Proof.Machine
end

