-- ==== Sys2Proof/Machine/CoreEvents.lean ====
section
/-!
DEFINITION. Machine/CoreEvents.lean: what happens to a core between its instructions (spec/13): interrupt lines (R294 to R297, R309), waking
(R303), section deadlines (R302), PART and JOIN (R310, R311), and the mismatch of a lockstep pair (R312, R313).
-/
namespace Sys2Proof.Machine

/-! ### Interrupt lines (R295, R309) -/

/-- A line taken by a core between two instructions, where one is chosen. -/
def Dev.takeLine (d : Dev) (c : Nat) : Option Nat → Option Dev
  | none => some d
  | some l => d.enterLine c l

/-- The greater of a pair's two retired counts, and one: the count the tollgate fixes (R309). -/
def Dev.nextCount (d : Dev) (c : Nat) : Nat := max (d.core c).retired (d.core (partner c)).retired + 1

/-- A decision of the tollgate fixed. [Log 91 DEDUCED] -/
def Dev.fixDecision (d : Dev) (c : Nat) (k : DecKind) : Dev :=
  d.putPair (c / 2) { d.pair (c / 2) with decide_ := some (k, d.nextCount c), acted := [], chosen := none }

/-- The second core of a pair has acted: the decision is past. -/
def Dev.clearDecision (d : Dev) (c : Nat) : Dev :=
  d.putPair (c / 2) { d.pair (c / 2) with decide_ := none, acted := [], chosen := none }

/-- A core of a lockstep pair at the count fixed for a line: the first core chooses for both (R309). [Log 91 DEDUCED] -/
def Dev.lineTurn (d : Dev) (c : Nat) : Option Dev :=
  let x := d.pair (c / 2)
  if x.acted.isEmpty then
    let l := (d.core c).eligible
    (d.putPair (c / 2) { x with acted := [c], chosen := l }).takeLine c l
  else if x.acted.contains c then some { d with answer := .ignored }
  else ((d.takeLine c x.chosen).map fun d => d.followLines c).map fun d => d.clearDecision c

/-- A line seen by the tollgate, or taken at the count it fixed. -/
def Dev.lineLockstep (d : Dev) (c : Nat) : Option Dev :=
  let x := d.pair (c / 2)
  if x.declared.isSome then some { d with answer := .ignored }
  else match x.decide_ with
    | none => some (if (d.core c).eligible.isSome then d.fixDecision c .line else { d with answer := .ignored })
    | some (.line, n) => if n ≤ (d.core c).retired ∧ d.between c then d.lineTurn c else some { d with answer := .ignored }
    | some (.deadline, _) => some { d with answer := .ignored }

/-- A JOIN that waited retires with a result (R311). -/
def Dev.joinEnd (d : Dev) (c r : Nat) : Option Dev :=
  let old := d.core c
  (d.retire c old (({ old with joinSince := none } : CoreSt).setSf CORE.PAIR_STATUS 2 0 r) none 4 none).boundary c

/-- A line taken by a split core: between instructions, or in a JOIN that it ends (R295, R311). [Log 90 DEDUCED] -/
def Dev.lineSplit (d : Dev) (c : Nat) : Option Dev :=
  if d.coreState c ≠ 2 ∨ (d.core c).req.isSome ∨ (d.core c).eligible.isNone then some { d with answer := .ignored }
  else if (d.core c).joinSince.isSome then (d.joinEnd c 4).bind fun d => d.takeLine c (d.core c).eligible
  else d.takeLine c (d.core c).eligible

/-- INTERRUPT_ENTRY (R295 to R297, R309): the eligible line of the highest priority is entered at an instruction boundary; in
lockstep, each core enters it after the instruction the tollgate fixes. [Log 90 DEDUCED] -/
def execInterruptEntry (c : Fin 4) (s : State) : Host.Outcome State Fault Refusal :=
  s.onDev fun d => d.orWait (if d.lockstep c then d.lineLockstep c else d.lineSplit c)

/-! ### Waking (R303) -/

/-- A sleeping core has a cause to wake: a line that would be eligible with IE as 1, or an error of a buffered store. -/
def Dev.wakeDue (d : Dev) (c : Nat) : Bool :=
  let cs := d.core c
  (cs.bestLine cs.runPri true false).isSome || (decide (cs.pl < 2) && (!cs.busErr.isEmpty || cs.escDue.isSome))

/-- A sleeping core wakes, takes the error, or else the line that is eligible. [Log 89 DEDUCED] -/
def Dev.wake (d : Dev) (c : Nat) : Option Dev :=
  let d := d.setCoreState c 2
  let l := (d.core c).eligible
  if (d.core c).pl < 2 ∧ (¬ (d.core c).busErr.isEmpty ∨ (d.core c).escDue.isSome) then d.boundary c else d.takeLine c l

/-- CORE_WAKE (R303, R309): a sleeping core wakes; the cores of a lockstep pair wake together. -/
def execCoreWake (c : Fin 4) (s : State) : Host.Outcome State Fault Refusal :=
  s.onDev fun d =>
    if d.coreState c ≠ 3 ∨ !d.wakeDue c then { d with answer := .ignored }
    else if !d.lockstep c then d.orWait (d.wake c)
    else if d.coreState (partner c) ≠ 3 then { d with answer := .waits }
    else d.orWait (((d.clearDecision c).wake c).bind fun d => d.wake (partner c))

/-! ### Section deadlines (R302) -/

/-- A deadline seen by the tollgate, or acted on at the count it fixed (R309). -/
def Dev.deadlineLockstep (d : Dev) (c : Nat) : Option Dev :=
  let x := d.pair (c / 2)
  if x.declared.isSome then some { d with answer := .ignored }
  else match x.decide_ with
    | none => some (if d.overdue c && decide ((d.core c).pl < 2) then d.fixDecision c .deadline else { d with answer := .ignored })
    | some (.deadline, n) =>
      if n ≤ (d.core c).retired ∧ d.between c ∧ ¬ x.acted.contains c then
        (d.overrun c).map fun d =>
          if x.acted.isEmpty then d.putPair (c / 2) { d.pair (c / 2) with acted := [c] } else d.clearDecision c
      else some { d with answer := .ignored }
    | some (.line, _) => some { d with answer := .ignored }

/-- ATOM_DEADLINE (R302, R309): a section is still active at its deadline, so ATOM_OVERRUN is taken. [Log 89 DEDUCED] -/
def execAtomDeadline (c : Fin 4) (s : State) : Host.Outcome State Fault Refusal :=
  s.onDev fun d =>
    if d.lockstep c then d.orWait (d.deadlineLockstep c)
    else if d.overdue c && d.between c && decide ((d.core c).pl < 2) then d.orWait (d.overrun c)
    else { d with answer := .ignored }

/-! ### PART and JOIN (R35, R310, R311) -/

/-- The agent IDs of a pair and of its cores (R34). -/
def pairId (p : Nat) : AgentId := 0x0110 + BitVec.ofNat 16 p
def splitId (c : Nat) : AgentId := 0x0100 + BitVec.ofNat 16 c

/-- LOCKSTEP of a core's CORE_STATUS set, with a SYSTEM record of the pair where asked. -/
def Dev.setLockstep (d : Dev) (c : Nat) (b rec_ : Bool) : Dev :=
  let old := d.reg (CORES.CORE_STATUS c)
  let d := d.setFld (CORES.CORE_STATUS_LOCKSTEP c) (b2n b)
  d.when rec_ fun d => d.logRec .system 3 (pairId (c / 2)) (CORES.CORE_STATUS c) (d.reg (CORES.CORE_STATUS c)) old

/-- PART retires on one core as its last lockstep instruction. -/
def Dev.partOne (d : Dev) (c : Nat) : Dev :=
  let old := d.core c
  d.retire c old { old with parting := false } none 4 none

/-- A lockstep pair split (R310). -/
def Dev.splitPair (d : Dev) (p : Nat) : Dev :=
  let d := (d.partOne (2 * p)).partOne (2 * p + 1)
  let d := ((d.setLockstep (2 * p) false true).setLockstep (2 * p + 1) false true).passClaims (pairId p) (splitId (2 * p))
  let d := d.putPair p {}
  d.putCore (2 * p + 1) (((d.core (2 * p + 1)).setS CORE.EVC_PEND 0).setS (CORE.EVC_PEND + 4) 0)

/-- PART_RETIRE (R310): both store buffers are empty, PART retires, and the agent IDs split. [Log 92 DEDUCED] -/
def execPartRetire (p : Fin 2) (s : State) : Host.Outcome State Fault Refusal :=
  s.onDev fun d =>
    let a := d.core (2 * p)
    let b := d.core (2 * p + 1)
    if !(a.parting && b.parting && d.lockstep (2 * p) && decide (a.retired = b.retired) && (d.pair p).declared.isNone) then
      { d with answer := .ignored }
    else
      d.orWait <| (d.drainAll (2 * p)).bind fun d => (d.drainAll (2 * p + 1)).bind fun d =>
        ((d.splitPair p).boundary (2 * p)).bind fun d => d.boundary (2 * p + 1)

/-- The bytes of one TCM, and the errors in their codes, copied over those of another (R311). [Log 92 DEDUCED] -/
def Dev.copyTcm (d : Dev) (src dst : Nat) : Dev :=
  let s := 0x08000000 + 0x80000 * src
  let t := 0x08000000 + 0x80000 * dst
  let inT := fun (a : Nat) => decide (t ≤ a) && decide (a < t + 0x80000)
  let from_ {α : Type} (l : List (Nat × α)) : List (Nat × α) :=
    (l.filter fun p => decide (s ≤ p.1) && decide (p.1 < s + 0x80000)).map fun p => (p.1 - s + t, p.2)
  { d with
    mem := (from_ d.mem).foldl (fun m p => Tab.set 0 p.1 p.2 m) (d.mem.filter fun p => !inT p.1)
    ecc := (from_ d.ecc).foldl (fun m p => Tab.set 0 p.1 p.2 m) (d.ecc.filter fun p => !inT p.1) }

/-- A core's pending lines joined with another's (R311). -/
def CoreSt.unionPend (cs : CoreSt) (q : CoreSt) : CoreSt :=
  [CORE.EVC_PEND, CORE.EVC_PEND + 4].foldl (fun cs o => cs.setS o (cs.s o ||| q.s o)) cs

/-- Two split cores joined: the secondary takes the primary's state (R311). [Log 92 DEDUCED] -/
def Dev.joinPair (d : Dev) (p : Nat) : Dev :=
  let a := 2 * p
  let b := 2 * p + 1
  let q := d.core b
  let old := d.core a
  let d := d.retire a old (({ old with joinSince := none } : CoreSt).setSf CORE.PAIR_STATUS 2 0 1) none 4 none
  let held := (d.core a).sillHeld || q.sillHeld
  let cs : CoreSt := { ((d.core a).unionPend q).invalidate with sillHeld := held, unmatched := [], haltReq := false }
  let d := (((d.putCore a cs).putCore b { cs with lost := q.lost }).copyTcm a b).putPair p {}
  let d := (d.setLockstep a true true).setLockstep b true false
  (d.passClaims (splitId a) (pairId p)).passClaims (splitId b) (pairId p)

/-- JOIN_COMPLETE (R311): both cores have executed JOIN; the pair resumes in lockstep after the primary's. [Log 92 DEDUCED] -/
def execJoinComplete (p : Fin 2) (s : State) : Host.Outcome State Fault Refusal :=
  s.onDev fun d =>
    if (d.core (2 * p)).joinSince.isNone ∨ (d.core (2 * p + 1)).joinSince.isNone then { d with answer := .ignored }
    else
      d.orWait <| (d.drainAll (2 * p)).bind fun d => (d.drainAll (2 * p + 1)).bind fun d =>
        ((d.joinPair p).boundary (2 * p)).bind fun d => d.boundary (2 * p + 1)

/-- JOIN_TIMEOUT (R311): the wait exceeds TMO_US. -/
def execJoinTimeout (c : Fin 4) (s : State) : Host.Outcome State Fault Refusal :=
  s.onDev fun d =>
    let n := (d.core c).sf CORE.JOIN_CTRL 15 0
    match (d.core c).joinSince with
    | none => { d with answer := .ignored }
    | some t => if n ≠ 0 ∧ d.due (t + nsT (1000 * n)) then d.orWait (d.joinEnd c 2) else { d with answer := .ignored }

/-- JOIN_PARTNER_DOWN (R311): the partner is in RESET or STOPPED. -/
def execJoinPartnerDown (c : Fin 4) (s : State) : Host.Outcome State Fault Refusal :=
  s.onDev fun d =>
    let st := d.coreState (partner c)
    if (d.core c).joinSince.isSome ∧ (st = 0 ∨ st = 5) then d.orWait (d.joinEnd c 3) else { d with answer := .ignored }

/-! ### The mismatch of a pair (R312, R313) -/

/-- PAIR_LAG_TIMEOUT (R312): one core stays four records ahead for 1 µs. [Log 91 DEDUCED] -/
def execPairLagTimeout (p : Fin 2) (s : State) : Host.Outcome State Fault Refusal :=
  s.onDev fun d =>
    let lags := fun c => d.lockstep c && decide ((d.core c).unmatched.length ≥ 4) && d.due ((d.core c).lagSince + nsT 1000)
    if lags (2 * p) || lags (2 * p + 1) then d.declare p else { d with answer := .ignored }

/-- One core of a mismatched pair stops: its buffered stores and its request are discarded, and its record is entered (R313). -/
def Dev.stopMismatched (d : Dev) (c : Nat) : Dev :=
  let cs := d.core c
  let old := d.reg (CORES.CORE_STATUS c)
  let d := d.putCore c { cs with
    sb := [], req := none, sillHeld := false, escDue := none, busErr := [], trapDue := none, trapSill := false, stepDue := none, parting := false }
  (d.setCoreState c 5).sysRec (CORES.CORE_STATUS c) old

/-- PAIR_STOP (R313): 100 ns after the declaration both cores stop, PAIR_MISMATCH is raised and reported, and the pair's claims are
aborted. -/
def execPairStop (p : Fin 2) (s : State) : Host.Outcome State Fault Refusal :=
  s.onDev fun d =>
    let x := d.pair p
    match x.declared with
    | none => { d with answer := .ignored }
    | some t =>
      if x.stopped ∨ ¬ d.due (t + nsT 100) then { d with answer := .ignored }
      else
        let d := (d.stopMismatched (2 * p)).stopMismatched (2 * p + 1)
        let d := ((d.putPair p { x with stopped := true }).raise 8).report 5 p
        d.abortClaims (pairId p)

/-- PAIR_MISMATCH_DELIVERY (R313, R395): the oldest PAIR_MISMATCH that waits is delivered where it is routed. [Log 94 DEDUCED] -/
def execPairMismatchDelivery (s : State) : Host.Outcome State Fault Refusal :=
  s.onDev fun d =>
    match d.events.find? fun r => r.id = 8 with
    | none => { d with answer := .ignored }
    | some r =>
      if r.stamp = floorNs d.now then { d with answer := .waits }
      else ({ d with events := d.events.erase r } : Dev).deliverEvent r

end Sys2Proof.Machine
end

