-- ==== Sys2Proof/Machine/CoreRows.lean ====
section
/-!
DEFINITION. Machine/CoreRows.lean: the commands by which core `c` issues the word `w` (spec/11, spec/12), one for each instruction of the
table; a 16-bit word stands in bits [15:0] and belongs to the row of the instruction it abbreviates (R255). A word of another
instruction leaves the core unchanged.
-/
namespace Sys2Proof.Machine

/-- ADD (R263). -/
def execCoreAdd (c : Fin 4) (w : Word) (s : State) : Host.Outcome State Fault Refusal :=
  s.onDev fun d => d.runWord c w fun
    | .alu .add _ _ _ _ => true
    | _ => false

/-- SUB (R263). -/
def execCoreSub (c : Fin 4) (w : Word) (s : State) : Host.Outcome State Fault Refusal :=
  s.onDev fun d => d.runWord c w fun
    | .alu .sub _ _ _ _ => true
    | _ => false

/-- ADC (R263). -/
def execCoreAdc (c : Fin 4) (w : Word) (s : State) : Host.Outcome State Fault Refusal :=
  s.onDev fun d => d.runWord c w fun
    | .alu .adc _ _ _ _ => true
    | _ => false

/-- SBC (R263). -/
def execCoreSbc (c : Fin 4) (w : Word) (s : State) : Host.Outcome State Fault Refusal :=
  s.onDev fun d => d.runWord c w fun
    | .alu .sbc _ _ _ _ => true
    | _ => false

/-- AND (R263). -/
def execCoreAnd (c : Fin 4) (w : Word) (s : State) : Host.Outcome State Fault Refusal :=
  s.onDev fun d => d.runWord c w fun
    | .alu .and _ _ _ _ => true
    | _ => false

/-- OR (R263). -/
def execCoreOr (c : Fin 4) (w : Word) (s : State) : Host.Outcome State Fault Refusal :=
  s.onDev fun d => d.runWord c w fun
    | .alu .or _ _ _ _ => true
    | _ => false

/-- XOR (R263). -/
def execCoreXor (c : Fin 4) (w : Word) (s : State) : Host.Outcome State Fault Refusal :=
  s.onDev fun d => d.runWord c w fun
    | .alu .xor _ _ _ _ => true
    | _ => false

/-- ANDN (R263). -/
def execCoreAndn (c : Fin 4) (w : Word) (s : State) : Host.Outcome State Fault Refusal :=
  s.onDev fun d => d.runWord c w fun
    | .alu .andn _ _ _ _ => true
    | _ => false

/-- SLL (R264). -/
def execCoreSll (c : Fin 4) (w : Word) (s : State) : Host.Outcome State Fault Refusal :=
  s.onDev fun d => d.runWord c w fun
    | .alu .sll _ _ _ _ => true
    | _ => false

/-- SRL (R264). -/
def execCoreSrl (c : Fin 4) (w : Word) (s : State) : Host.Outcome State Fault Refusal :=
  s.onDev fun d => d.runWord c w fun
    | .alu .srl _ _ _ _ => true
    | _ => false

/-- SRA (R264). -/
def execCoreSra (c : Fin 4) (w : Word) (s : State) : Host.Outcome State Fault Refusal :=
  s.onDev fun d => d.runWord c w fun
    | .alu .sra _ _ _ _ => true
    | _ => false

/-- ROR (R264). -/
def execCoreRor (c : Fin 4) (w : Word) (s : State) : Host.Outcome State Fault Refusal :=
  s.onDev fun d => d.runWord c w fun
    | .alu .ror _ _ _ _ => true
    | _ => false

/-- MIN (R263). -/
def execCoreMin (c : Fin 4) (w : Word) (s : State) : Host.Outcome State Fault Refusal :=
  s.onDev fun d => d.runWord c w fun
    | .alu .min _ _ _ _ => true
    | _ => false

/-- MAX (R263). -/
def execCoreMax (c : Fin 4) (w : Word) (s : State) : Host.Outcome State Fault Refusal :=
  s.onDev fun d => d.runWord c w fun
    | .alu .max _ _ _ _ => true
    | _ => false

/-- MINU (R263). -/
def execCoreMinu (c : Fin 4) (w : Word) (s : State) : Host.Outcome State Fault Refusal :=
  s.onDev fun d => d.runWord c w fun
    | .alu .minu _ _ _ _ => true
    | _ => false

/-- MAXU (R263). -/
def execCoreMaxu (c : Fin 4) (w : Word) (s : State) : Host.Outcome State Fault Refusal :=
  s.onDev fun d => d.runWord c w fun
    | .alu .maxu _ _ _ _ => true
    | _ => false

/-- SLT (R263). -/
def execCoreSlt (c : Fin 4) (w : Word) (s : State) : Host.Outcome State Fault Refusal :=
  s.onDev fun d => d.runWord c w fun
    | .alu .slt _ _ _ _ => true
    | _ => false

/-- SLTU (R263). -/
def execCoreSltu (c : Fin 4) (w : Word) (s : State) : Host.Outcome State Fault Refusal :=
  s.onDev fun d => d.runWord c w fun
    | .alu .sltu _ _ _ _ => true
    | _ => false

/-- NEG (R263). -/
def execCoreNeg (c : Fin 4) (w : Word) (s : State) : Host.Outcome State Fault Refusal :=
  s.onDev fun d => d.runWord c w fun
    | .alu .neg _ _ _ _ => true
    | _ => false

/-- NOT (R263). -/
def execCoreNot (c : Fin 4) (w : Word) (s : State) : Host.Outcome State Fault Refusal :=
  s.onDev fun d => d.runWord c w fun
    | .alu .not _ _ _ _ => true
    | _ => false

/-- ADDI (R254). -/
def execCoreAddi (c : Fin 4) (w : Word) (s : State) : Host.Outcome State Fault Refusal :=
  s.onDev fun d => d.runWord c w fun
    | .addi false _ _ _ => true
    | _ => false

/-- ADDI_F (R254). -/
def execCoreAddiF (c : Fin 4) (w : Word) (s : State) : Host.Outcome State Fault Refusal :=
  s.onDev fun d => d.runWord c w fun
    | .addi true _ _ _ => true
    | _ => false

/-- ANDI (R254). -/
def execCoreAndi (c : Fin 4) (w : Word) (s : State) : Host.Outcome State Fault Refusal :=
  s.onDev fun d => d.runWord c w fun
    | .logi .and _ _ _ => true
    | _ => false

/-- ORI (R254). -/
def execCoreOri (c : Fin 4) (w : Word) (s : State) : Host.Outcome State Fault Refusal :=
  s.onDev fun d => d.runWord c w fun
    | .logi .or _ _ _ => true
    | _ => false

/-- XORI (R254). -/
def execCoreXori (c : Fin 4) (w : Word) (s : State) : Host.Outcome State Fault Refusal :=
  s.onDev fun d => d.runWord c w fun
    | .logi .xor _ _ _ => true
    | _ => false

/-- CMPI (R254). -/
def execCoreCmpi (c : Fin 4) (w : Word) (s : State) : Host.Outcome State Fault Refusal :=
  s.onDev fun d => d.runWord c w fun
    | .cmpi _ _ => true
    | _ => false

/-- SLLI (R264). -/
def execCoreSlli (c : Fin 4) (w : Word) (s : State) : Host.Outcome State Fault Refusal :=
  s.onDev fun d => d.runWord c w fun
    | .shi .sll _ _ _ _ => true
    | _ => false

/-- SRLI (R264). -/
def execCoreSrli (c : Fin 4) (w : Word) (s : State) : Host.Outcome State Fault Refusal :=
  s.onDev fun d => d.runWord c w fun
    | .shi .srl _ _ _ _ => true
    | _ => false

/-- SRAI (R264). -/
def execCoreSrai (c : Fin 4) (w : Word) (s : State) : Host.Outcome State Fault Refusal :=
  s.onDev fun d => d.runWord c w fun
    | .shi .sra _ _ _ _ => true
    | _ => false

/-- RORI (R264). -/
def execCoreRori (c : Fin 4) (w : Word) (s : State) : Host.Outcome State Fault Refusal :=
  s.onDev fun d => d.runWord c w fun
    | .shi .ror _ _ _ _ => true
    | _ => false

/-- LUI (R254). -/
def execCoreLui (c : Fin 4) (w : Word) (s : State) : Host.Outcome State Fault Refusal :=
  s.onDev fun d => d.runWord c w fun
    | .lui _ _ => true
    | _ => false

/-- ADDPC (R254). -/
def execCoreAddpc (c : Fin 4) (w : Word) (s : State) : Host.Outcome State Fault Refusal :=
  s.onDev fun d => d.runWord c w fun
    | .addpc _ _ => true
    | _ => false

/-- MUL (R265). -/
def execCoreMul (c : Fin 4) (w : Word) (s : State) : Host.Outcome State Fault Refusal :=
  s.onDev fun d => d.runWord c w fun
    | .mul .mul _ _ _ => true
    | _ => false

/-- MULH (R265). -/
def execCoreMulh (c : Fin 4) (w : Word) (s : State) : Host.Outcome State Fault Refusal :=
  s.onDev fun d => d.runWord c w fun
    | .mul .mulh _ _ _ => true
    | _ => false

/-- MULHU (R265). -/
def execCoreMulhu (c : Fin 4) (w : Word) (s : State) : Host.Outcome State Fault Refusal :=
  s.onDev fun d => d.runWord c w fun
    | .mul .mulhu _ _ _ => true
    | _ => false

/-- MULHSU (R265). -/
def execCoreMulhsu (c : Fin 4) (w : Word) (s : State) : Host.Outcome State Fault Refusal :=
  s.onDev fun d => d.runWord c w fun
    | .mul .mulhsu _ _ _ => true
    | _ => false

/-- MAC (R265). -/
def execCoreMac (c : Fin 4) (w : Word) (s : State) : Host.Outcome State Fault Refusal :=
  s.onDev fun d => d.runWord c w fun
    | .mul .mac _ _ _ => true
    | _ => false

/-- MSU (R265). -/
def execCoreMsu (c : Fin 4) (w : Word) (s : State) : Host.Outcome State Fault Refusal :=
  s.onDev fun d => d.runWord c w fun
    | .mul .msu _ _ _ => true
    | _ => false

/-- DIV (R266). -/
def execCoreDiv (c : Fin 4) (w : Word) (s : State) : Host.Outcome State Fault Refusal :=
  s.onDev fun d => d.runWord c w fun
    | .div .div _ _ _ => true
    | _ => false

/-- DIVU (R266). -/
def execCoreDivu (c : Fin 4) (w : Word) (s : State) : Host.Outcome State Fault Refusal :=
  s.onDev fun d => d.runWord c w fun
    | .div .divu _ _ _ => true
    | _ => false

/-- REM (R266). -/
def execCoreRem (c : Fin 4) (w : Word) (s : State) : Host.Outcome State Fault Refusal :=
  s.onDev fun d => d.runWord c w fun
    | .div .rem _ _ _ => true
    | _ => false

/-- REMU (R266). -/
def execCoreRemu (c : Fin 4) (w : Word) (s : State) : Host.Outcome State Fault Refusal :=
  s.onDev fun d => d.runWord c w fun
    | .div .remu _ _ _ => true
    | _ => false

/-- QADD (R267). -/
def execCoreQadd (c : Fin 4) (w : Word) (s : State) : Host.Outcome State Fault Refusal :=
  s.onDev fun d => d.runWord c w fun
    | .sat .qadd _ _ _ => true
    | _ => false

/-- QSUB (R267). -/
def execCoreQsub (c : Fin 4) (w : Word) (s : State) : Host.Outcome State Fault Refusal :=
  s.onDev fun d => d.runWord c w fun
    | .sat .qsub _ _ _ => true
    | _ => false

/-- QADDU (R267). -/
def execCoreQaddu (c : Fin 4) (w : Word) (s : State) : Host.Outcome State Fault Refusal :=
  s.onDev fun d => d.runWord c w fun
    | .sat .qaddu _ _ _ => true
    | _ => false

/-- QSUBU (R267). -/
def execCoreQsubu (c : Fin 4) (w : Word) (s : State) : Host.Outcome State Fault Refusal :=
  s.onDev fun d => d.runWord c w fun
    | .sat .qsubu _ _ _ => true
    | _ => false

/-- QNEG (R267). -/
def execCoreQneg (c : Fin 4) (w : Word) (s : State) : Host.Outcome State Fault Refusal :=
  s.onDev fun d => d.runWord c w fun
    | .sat .qneg _ _ _ => true
    | _ => false

/-- QABS (R267). -/
def execCoreQabs (c : Fin 4) (w : Word) (s : State) : Host.Outcome State Fault Refusal :=
  s.onDev fun d => d.runWord c w fun
    | .sat .qabs _ _ _ => true
    | _ => false

/-- QDMULH (R267). -/
def execCoreQdmulh (c : Fin 4) (w : Word) (s : State) : Host.Outcome State Fault Refusal :=
  s.onDev fun d => d.runWord c w fun
    | .sat .qdmulh _ _ _ => true
    | _ => false

/-- SSAT (R267). -/
def execCoreSsat (c : Fin 4) (w : Word) (s : State) : Host.Outcome State Fault Refusal :=
  s.onDev fun d => d.runWord c w fun
    | .sat .ssat _ _ _ => true
    | _ => false

/-- USAT (R267). -/
def execCoreUsat (c : Fin 4) (w : Word) (s : State) : Host.Outcome State Fault Refusal :=
  s.onDev fun d => d.runWord c w fun
    | .sat .usat _ _ _ => true
    | _ => false

/-- CLZ (R267). -/
def execCoreClz (c : Fin 4) (w : Word) (s : State) : Host.Outcome State Fault Refusal :=
  s.onDev fun d => d.runWord c w fun
    | .bit .clz _ _ => true
    | _ => false

/-- CTZ (R267). -/
def execCoreCtz (c : Fin 4) (w : Word) (s : State) : Host.Outcome State Fault Refusal :=
  s.onDev fun d => d.runWord c w fun
    | .bit .ctz _ _ => true
    | _ => false

/-- POPC (R267). -/
def execCorePopc (c : Fin 4) (w : Word) (s : State) : Host.Outcome State Fault Refusal :=
  s.onDev fun d => d.runWord c w fun
    | .bit .popc _ _ => true
    | _ => false

/-- REV (R267). -/
def execCoreRev (c : Fin 4) (w : Word) (s : State) : Host.Outcome State Fault Refusal :=
  s.onDev fun d => d.runWord c w fun
    | .bit .rev _ _ => true
    | _ => false

/-- REV16 (R267). -/
def execCoreRev16 (c : Fin 4) (w : Word) (s : State) : Host.Outcome State Fault Refusal :=
  s.onDev fun d => d.runWord c w fun
    | .bit .rev16 _ _ => true
    | _ => false

/-- SEXTB (R267). -/
def execCoreSextb (c : Fin 4) (w : Word) (s : State) : Host.Outcome State Fault Refusal :=
  s.onDev fun d => d.runWord c w fun
    | .bit .sextb _ _ => true
    | _ => false

/-- SEXTH (R267). -/
def execCoreSexth (c : Fin 4) (w : Word) (s : State) : Host.Outcome State Fault Refusal :=
  s.onDev fun d => d.runWord c w fun
    | .bit .sexth _ _ => true
    | _ => false

/-- ZEXTB (R267). -/
def execCoreZextb (c : Fin 4) (w : Word) (s : State) : Host.Outcome State Fault Refusal :=
  s.onDev fun d => d.runWord c w fun
    | .bit .zextb _ _ => true
    | _ => false

/-- ZEXTH (R267). -/
def execCoreZexth (c : Fin 4) (w : Word) (s : State) : Host.Outcome State Fault Refusal :=
  s.onDev fun d => d.runWord c w fun
    | .bit .zexth _ _ => true
    | _ => false

/-- EXTU (R267). -/
def execCoreExtu (c : Fin 4) (w : Word) (s : State) : Host.Outcome State Fault Refusal :=
  s.onDev fun d => d.runWord c w fun
    | .bf .extu _ _ _ _ => true
    | _ => false

/-- EXTS (R267). -/
def execCoreExts (c : Fin 4) (w : Word) (s : State) : Host.Outcome State Fault Refusal :=
  s.onDev fun d => d.runWord c w fun
    | .bf .exts _ _ _ _ => true
    | _ => false

/-- INS (R267). -/
def execCoreIns (c : Fin 4) (w : Word) (s : State) : Host.Outcome State Fault Refusal :=
  s.onDev fun d => d.runWord c w fun
    | .bf .ins _ _ _ _ => true
    | _ => false

/-- LDB (R257). -/
def execCoreLdb (c : Fin 4) (w : Word) (s : State) : Host.Outcome State Fault Refusal :=
  s.onDev fun d => d.runWord c w fun
    | .load true 0 _ _ _ false => true
    | _ => false

/-- LDBU (R257). -/
def execCoreLdbu (c : Fin 4) (w : Word) (s : State) : Host.Outcome State Fault Refusal :=
  s.onDev fun d => d.runWord c w fun
    | .load false 0 _ _ _ false => true
    | _ => false

/-- LDH (R257). -/
def execCoreLdh (c : Fin 4) (w : Word) (s : State) : Host.Outcome State Fault Refusal :=
  s.onDev fun d => d.runWord c w fun
    | .load true 1 _ _ _ false => true
    | _ => false

/-- LDHU (R257). -/
def execCoreLdhu (c : Fin 4) (w : Word) (s : State) : Host.Outcome State Fault Refusal :=
  s.onDev fun d => d.runWord c w fun
    | .load false 1 _ _ _ false => true
    | _ => false

/-- LDW (R257). -/
def execCoreLdw (c : Fin 4) (w : Word) (s : State) : Host.Outcome State Fault Refusal :=
  s.onDev fun d => d.runWord c w fun
    | .load _ 2 _ _ _ false => true
    | _ => false

/-- LDD (R260). -/
def execCoreLdd (c : Fin 4) (w : Word) (s : State) : Host.Outcome State Fault Refusal :=
  s.onDev fun d => d.runWord c w fun
    | .load _ 3 _ _ _ false => true
    | _ => false

/-- STB (R257). -/
def execCoreStb (c : Fin 4) (w : Word) (s : State) : Host.Outcome State Fault Refusal :=
  s.onDev fun d => d.runWord c w fun
    | .store 0 _ _ _ false => true
    | _ => false

/-- STH (R257). -/
def execCoreSth (c : Fin 4) (w : Word) (s : State) : Host.Outcome State Fault Refusal :=
  s.onDev fun d => d.runWord c w fun
    | .store 1 _ _ _ false => true
    | _ => false

/-- STW (R257). -/
def execCoreStw (c : Fin 4) (w : Word) (s : State) : Host.Outcome State Fault Refusal :=
  s.onDev fun d => d.runWord c w fun
    | .store 2 _ _ _ false => true
    | _ => false

/-- STD (R260). -/
def execCoreStd (c : Fin 4) (w : Word) (s : State) : Host.Outcome State Fault Refusal :=
  s.onDev fun d => d.runWord c w fun
    | .store 3 _ _ _ false => true
    | _ => false

/-- LDX (R258). -/
def execCoreLdx (c : Fin 4) (w : Word) (s : State) : Host.Outcome State Fault Refusal :=
  s.onDev fun d => d.runWord c w fun
    | .load _ _ _ _ _ true => true
    | _ => false

/-- STX (R258). -/
def execCoreStx (c : Fin 4) (w : Word) (s : State) : Host.Outcome State Fault Refusal :=
  s.onDev fun d => d.runWord c w fun
    | .store _ _ _ _ true => true
    | _ => false

/-- AMOSWAP (R261). -/
def execCoreAmoswap (c : Fin 4) (w : Word) (s : State) : Host.Outcome State Fault Refusal :=
  s.onDev fun d => d.runWord c w fun
    | .amo .swap _ _ _ => true
    | _ => false

/-- AMOADD (R261). -/
def execCoreAmoadd (c : Fin 4) (w : Word) (s : State) : Host.Outcome State Fault Refusal :=
  s.onDev fun d => d.runWord c w fun
    | .amo .add _ _ _ => true
    | _ => false

/-- AMOCAS (R261). -/
def execCoreAmocas (c : Fin 4) (w : Word) (s : State) : Host.Outcome State Fault Refusal :=
  s.onDev fun d => d.runWord c w fun
    | .amo .cas _ _ _ => true
    | _ => false

/-- B_CC (R269). -/
def execCoreBCc (c : Fin 4) (w : Word) (s : State) : Host.Outcome State Fault Refusal :=
  s.onDev fun d => d.runWord c w fun
    | .bcc _ _ => true
    | _ => false

/-- B (R270). -/
def execCoreB (c : Fin 4) (w : Word) (s : State) : Host.Outcome State Fault Refusal :=
  s.onDev fun d => d.runWord c w fun
    | .br _ => true
    | _ => false

/-- CALL (R270). -/
def execCoreCall (c : Fin 4) (w : Word) (s : State) : Host.Outcome State Fault Refusal :=
  s.onDev fun d => d.runWord c w fun
    | .call _ => true
    | _ => false

/-- JR (R270). -/
def execCoreJr (c : Fin 4) (w : Word) (s : State) : Host.Outcome State Fault Refusal :=
  s.onDev fun d => d.runWord c w fun
    | .jr _ => true
    | _ => false

/-- CALLR (R270). -/
def execCoreCallr (c : Fin 4) (w : Word) (s : State) : Host.Outcome State Fault Refusal :=
  s.onDev fun d => d.runWord c w fun
    | .callr _ _ => true
    | _ => false

/-- LOOP (R271). -/
def execCoreLoop (c : Fin 4) (w : Word) (s : State) : Host.Outcome State Fault Refusal :=
  s.onDev fun d => d.runWord c w fun
    | .loop _ _ _ none => true
    | _ => false

/-- LOOPI (R271). -/
def execCoreLoopi (c : Fin 4) (w : Word) (s : State) : Host.Outcome State Fault Refusal :=
  s.onDev fun d => d.runWord c w fun
    | .loop _ _ _ (some _) => true
    | _ => false

/-- MFS (R273). -/
def execCoreMfs (c : Fin 4) (w : Word) (s : State) : Host.Outcome State Fault Refusal :=
  s.onDev fun d => d.runWord c w fun
    | .mfs _ _ => true
    | _ => false

/-- MTS (R273). -/
def execCoreMts (c : Fin 4) (w : Word) (s : State) : Host.Outcome State Fault Refusal :=
  s.onDev fun d => d.runWord c w fun
    | .mts _ _ => true
    | _ => false

/-- FENCE (R244). -/
def execCoreFence (c : Fin 4) (w : Word) (s : State) : Host.Outcome State Fault Refusal :=
  s.onDev fun d => d.runWord c w fun
    | .fence => true
    | _ => false

/-- SYNC (R244). -/
def execCoreSync (c : Fin 4) (w : Word) (s : State) : Host.Outcome State Fault Refusal :=
  s.onDev fun d => d.runWord c w fun
    | .sync => true
    | _ => false

/-- RETE (R300). -/
def execCoreRete (c : Fin 4) (w : Word) (s : State) : Host.Outcome State Fault Refusal :=
  s.onDev fun d => d.runWord c w fun
    | .rete => true
    | _ => false

/-- SLEEP (R303). -/
def execCoreSleep (c : Fin 4) (w : Word) (s : State) : Host.Outcome State Fault Refusal :=
  s.onDev fun d => d.runWord c w fun
    | .sleep => true
    | _ => false

/-- PART (R310). -/
def execCorePart (c : Fin 4) (w : Word) (s : State) : Host.Outcome State Fault Refusal :=
  s.onDev fun d => d.runWord c w fun
    | .part => true
    | _ => false

/-- JOIN (R311). -/
def execCoreJoin (c : Fin 4) (w : Word) (s : State) : Host.Outcome State Fault Refusal :=
  s.onDev fun d => d.runWord c w fun
    | .join => true
    | _ => false

/-- ATOME (R302). -/
def execCoreAtome (c : Fin 4) (w : Word) (s : State) : Host.Outcome State Fault Refusal :=
  s.onDev fun d => d.runWord c w fun
    | .atome => true
    | _ => false

/-- IFLUSH (R239). -/
def execCoreIflush (c : Fin 4) (w : Word) (s : State) : Host.Outcome State Fault Refusal :=
  s.onDev fun d => d.runWord c w fun
    | .iflush _ => true
    | _ => false

/-- SYSCALL (R274). -/
def execCoreSyscall (c : Fin 4) (w : Word) (s : State) : Host.Outcome State Fault Refusal :=
  s.onDev fun d => d.runWord c w fun
    | .syscall _ => true
    | _ => false

/-- BREAK (R274). -/
def execCoreBreak (c : Fin 4) (w : Word) (s : State) : Host.Outcome State Fault Refusal :=
  s.onDev fun d => d.runWord c w fun
    | .brk _ => true
    | _ => false

/-- ATOMB (R302). -/
def execCoreAtomb (c : Fin 4) (w : Word) (s : State) : Host.Outcome State Fault Refusal :=
  s.onDev fun d => d.runWord c w fun
    | .atomb _ => true
    | _ => false

/-- FADD (R283). -/
def execCoreFadd (c : Fin 4) (w : Word) (s : State) : Host.Outcome State Fault Refusal :=
  s.onDev fun d => d.runWord c w fun
    | .fp .add _ _ _ _ _ => true
    | _ => false

/-- FSUB (R283). -/
def execCoreFsub (c : Fin 4) (w : Word) (s : State) : Host.Outcome State Fault Refusal :=
  s.onDev fun d => d.runWord c w fun
    | .fp .sub _ _ _ _ _ => true
    | _ => false

/-- FMUL (R283). -/
def execCoreFmul (c : Fin 4) (w : Word) (s : State) : Host.Outcome State Fault Refusal :=
  s.onDev fun d => d.runWord c w fun
    | .fp .mul _ _ _ _ _ => true
    | _ => false

/-- FDIV (R283). -/
def execCoreFdiv (c : Fin 4) (w : Word) (s : State) : Host.Outcome State Fault Refusal :=
  s.onDev fun d => d.runWord c w fun
    | .fp .div _ _ _ _ _ => true
    | _ => false

/-- FSQRT (R283). -/
def execCoreFsqrt (c : Fin 4) (w : Word) (s : State) : Host.Outcome State Fault Refusal :=
  s.onDev fun d => d.runWord c w fun
    | .fsqrt _ _ _ _ => true
    | _ => false

/-- FMIN (R287). -/
def execCoreFmin (c : Fin 4) (w : Word) (s : State) : Host.Outcome State Fault Refusal :=
  s.onDev fun d => d.runWord c w fun
    | .fminmax false _ _ _ _ => true
    | _ => false

/-- FMAX (R287). -/
def execCoreFmax (c : Fin 4) (w : Word) (s : State) : Host.Outcome State Fault Refusal :=
  s.onDev fun d => d.runWord c w fun
    | .fminmax true _ _ _ _ => true
    | _ => false

/-- FSGNJ (R283). -/
def execCoreFsgnj (c : Fin 4) (w : Word) (s : State) : Host.Outcome State Fault Refusal :=
  s.onDev fun d => d.runWord c w fun
    | .fsgn 0 _ _ _ _ => true
    | _ => false

/-- FSGNJN (R283). -/
def execCoreFsgnjn (c : Fin 4) (w : Word) (s : State) : Host.Outcome State Fault Refusal :=
  s.onDev fun d => d.runWord c w fun
    | .fsgn 1 _ _ _ _ => true
    | _ => false

/-- FSGNJX (R283). -/
def execCoreFsgnjx (c : Fin 4) (w : Word) (s : State) : Host.Outcome State Fault Refusal :=
  s.onDev fun d => d.runWord c w fun
    | .fsgn 2 _ _ _ _ => true
    | _ => false

/-- FCMP_EQ (R287). -/
def execCoreFcmpEq (c : Fin 4) (w : Word) (s : State) : Host.Outcome State Fault Refusal :=
  s.onDev fun d => d.runWord c w fun
    | .fcmp 0 _ _ _ _ => true
    | _ => false

/-- FCMP_LT (R287). -/
def execCoreFcmpLt (c : Fin 4) (w : Word) (s : State) : Host.Outcome State Fault Refusal :=
  s.onDev fun d => d.runWord c w fun
    | .fcmp 1 _ _ _ _ => true
    | _ => false

/-- FCMP_LE (R287). -/
def execCoreFcmpLe (c : Fin 4) (w : Word) (s : State) : Host.Outcome State Fault Refusal :=
  s.onDev fun d => d.runWord c w fun
    | .fcmp 2 _ _ _ _ => true
    | _ => false

/-- FCMP_UN (R287). -/
def execCoreFcmpUn (c : Fin 4) (w : Word) (s : State) : Host.Outcome State Fault Refusal :=
  s.onDev fun d => d.runWord c w fun
    | .fcmp 3 _ _ _ _ => true
    | _ => false

/-- FCLASS (R287). -/
def execCoreFclass (c : Fin 4) (w : Word) (s : State) : Host.Outcome State Fault Refusal :=
  s.onDev fun d => d.runWord c w fun
    | .fclass _ _ _ => true
    | _ => false

/-- FCVT (R288). -/
def execCoreFcvt (c : Fin 4) (w : Word) (s : State) : Host.Outcome State Fault Refusal :=
  s.onDev fun d => d.runWord c w fun
    | .fcvt _ _ _ _ => true
    | _ => false

/-- FCVT_W (R288). -/
def execCoreFcvtW (c : Fin 4) (w : Word) (s : State) : Host.Outcome State Fault Refusal :=
  s.onDev fun d => d.runWord c w fun
    | .fcvtw false _ _ _ _ => true
    | _ => false

/-- FCVT_WU (R288). -/
def execCoreFcvtWu (c : Fin 4) (w : Word) (s : State) : Host.Outcome State Fault Refusal :=
  s.onDev fun d => d.runWord c w fun
    | .fcvtw true _ _ _ _ => true
    | _ => false

/-- FCVT_F_W (R288). -/
def execCoreFcvtFW (c : Fin 4) (w : Word) (s : State) : Host.Outcome State Fault Refusal :=
  s.onDev fun d => d.runWord c w fun
    | .fcvtf false _ _ _ _ => true
    | _ => false

/-- FCVT_F_WU (R288). -/
def execCoreFcvtFWu (c : Fin 4) (w : Word) (s : State) : Host.Outcome State Fault Refusal :=
  s.onDev fun d => d.runWord c w fun
    | .fcvtf true _ _ _ _ => true
    | _ => false

/-- FMV_X (R283). -/
def execCoreFmvX (c : Fin 4) (w : Word) (s : State) : Host.Outcome State Fault Refusal :=
  s.onDev fun d => d.runWord c w fun
    | .fmvx _ _ _ => true
    | _ => false

/-- FMV_F (R283). -/
def execCoreFmvF (c : Fin 4) (w : Word) (s : State) : Host.Outcome State Fault Refusal :=
  s.onDev fun d => d.runWord c w fun
    | .fmvf _ _ _ => true
    | _ => false

/-- FMFC (R283). -/
def execCoreFmfc (c : Fin 4) (w : Word) (s : State) : Host.Outcome State Fault Refusal :=
  s.onDev fun d => d.runWord c w fun
    | .fmfc _ => true
    | _ => false

/-- FMTC (R279). -/
def execCoreFmtc (c : Fin 4) (w : Word) (s : State) : Host.Outcome State Fault Refusal :=
  s.onDev fun d => d.runWord c w fun
    | .fmtc _ => true
    | _ => false

/-- FMADD (R284). -/
def execCoreFmadd (c : Fin 4) (w : Word) (s : State) : Host.Outcome State Fault Refusal :=
  s.onDev fun d => d.runWord c w fun
    | .fma .madd _ _ _ _ _ _ => true
    | _ => false

/-- FMSUB (R284). -/
def execCoreFmsub (c : Fin 4) (w : Word) (s : State) : Host.Outcome State Fault Refusal :=
  s.onDev fun d => d.runWord c w fun
    | .fma .msub _ _ _ _ _ _ => true
    | _ => false

/-- FNMADD (R284). -/
def execCoreFnmadd (c : Fin 4) (w : Word) (s : State) : Host.Outcome State Fault Refusal :=
  s.onDev fun d => d.runWord c w fun
    | .fma .nmadd _ _ _ _ _ _ => true
    | _ => false

/-- FNMSUB (R284). -/
def execCoreFnmsub (c : Fin 4) (w : Word) (s : State) : Host.Outcome State Fault Refusal :=
  s.onDev fun d => d.runWord c w fun
    | .fma .nmsub _ _ _ _ _ _ => true
    | _ => false

/-- FLDX (R285). -/
def execCoreFldx (c : Fin 4) (w : Word) (s : State) : Host.Outcome State Fault Refusal :=
  s.onDev fun d => d.runWord c w fun
    | .fload _ _ _ _ => true
    | _ => false

/-- FSTX (R285). -/
def execCoreFstx (c : Fin 4) (w : Word) (s : State) : Host.Outcome State Fault Refusal :=
  s.onDev fun d => d.runWord c w fun
    | .fstore _ _ _ _ => true
    | _ => false

/-- UNDEFINED_INSTRUCTION (R253). -/
def execUndefinedInstruction (c : Fin 4) (w : Word) (s : State) : Host.Outcome State Fault Refusal :=
  s.onDev fun d => d.runWord c w fun
    | .undef => true
    | _ => false

end Sys2Proof.Machine
end

