-- ==== Sys2Proof/Machine/Dma.lean ====
section
/-!
DEFINITION. Machine/Dma.lean: the transfers of the DMA (spec/16, R380 to R387): descriptors, source bursts into the channel's share of the
buffer, destination bursts out of it, and the end of a descriptor.
-/
namespace Sys2Proof.Machine

/-! ### Descriptors (R380, R386) -/

/-- The fields of a control word (R380). -/
def ctlSw (k : Nat) : Nat := 2 ^ bitsOf k 2 0
def ctlDw (k : Nat) : Nat := 2 ^ bitsOf k 5 3
def ctlSinc (k : Nat) : Bool := bitOf k 6
def ctlDinc (k : Nat) : Bool := bitOf k 7
def ctlBurst (k : Nat) : Nat := bitsOf k 11 8 + 1
def ctlWait (k : Nat) : Bool := bitOf k 12
def ctlHalf (k : Nat) : Bool := bitOf k 13
def ctlFull (k : Nat) : Bool := bitOf k 14
def ctlChain (k : Nat) : Bool := bitOf k 15

/-- A number spelled by some bytes of a descriptor. -/
def descNum (bs : List Byte) (off n : Nat) : Nat := ofBytes ((bs.drop off).take n)

/-- A descriptor is well formed (R380). -/
def descOk (bs : List Byte) : Bool :=
  let src := descNum bs 0 8
  let dst := descNum bs 8 8
  let len := descNum bs 16 4
  let k := descNum bs 20 2
  let next := descNum bs 24 8
  decide (src < 2 ^ 40) && decide (dst < 2 ^ 40) && decide (next < 2 ^ 40) && decide (next % 32 = 0)
    && decide (bitsOf k 2 0 < 5) && decide (bitsOf k 5 3 < 5) && decide (descNum bs 22 2 < 2)
    && decide (1 ≤ len) && decide (len ≤ 0x01000000) && decide (len % ctlSw k = 0) && decide (len % ctlDw k = 0)
    && decide (src % ctlSw k = 0) && decide (dst % ctlDw k = 0)

/-- Two incrementing ranges share a byte (R386). -/
def dmaOverlap (x : DmaSt) : Bool :=
  ctlSinc x.ctl && ctlDinc x.ctl && decide (x.src < x.dst + x.len) && decide (x.dst < x.src + x.len)

/-- A fetched descriptor begins, waits for its trigger, or ends in ERROR. [Log 53 DEDUCED] -/
def Dev.dmaLoad (d : Dev) (c desc : Nat) (bs : List Byte) : Dev :=
  let k := descNum bs 20 2
  let x : DmaSt :=
    { src := descNum bs 0 8, dst := descNum bs 8 8, len := descNum bs 16 4, ctl := k, cpl := bitOf (descNum bs 22 2) 0
      next := descNum bs 24 8, chained := (d.dma c).chained, rdTurn := (d.dma c).rdTurn, wrTurn := (d.dma c).wrTurn }
  let d := (d.setDma c { x with down := dmaOverlap x && decide (x.src < x.dst) }).setNum (DMA.CH_DONE c) 0
  if !descOk bs then d.dmaError c 4 desc false
  else if dmaOverlap x ∧ ctlSw k ≠ ctlDw k then d.dmaError c 6 0 false
  else if ctlWait k then (d.setDmaState c 2).dmaTake c
  else d.dmaBegin c

/-- A memory that holds descriptors: a TCM, shared SRAM or usable DRAM. -/
def Dev.descMemory (d : Dev) (a : Nat) : Bool :=
  match d.memCode a with
  | some k => decide (k < 0x10) || decide (k = 0x30) || decide (k = 0x31)
  | none => false

/-- The descriptor at CH_CUR is fetched. -/
def Dev.dmaFetched (d : Dev) (c : Nat) : Dev :=
  if d.dmaState c ≠ 1 then { d with answer := .ignored }
  else
    let a := addr40 (d.reg64 (DMA.CH_CUR c))
    let d := d.setDma c { d.dma c with cpl := false }
    if !d.descMemory a then d.dmaError c 5 a false
    else match d.memLoad 4 (d.dmaAgent c) a 32 with
      | none => d.dmaError c 5 a false
      | some (false, _, d) => d.dmaError c 5 a false
      | some (true, bs, d) => d.dmaLoad c a bs

/-- DMA_DESC_FETCHED (R380, R385): a fetched descriptor is checked. -/
def execDmaDescFetched (c : Fin 16) (s : State) : Host.Outcome State Fault Refusal :=
  s.onDev fun d => (d.dmaFetched c).applyReached (dmaGroup c)

/-! ### The engines (R382) -/

/-- A channel has a source burst for the read engine. -/
def Dev.dmaReadWork (d : Dev) (c : Nat) : Bool :=
  decide (d.dmaState c = 3) && (d.dma c).ending.isNone && decide ((d.dma c).buf.length + ctlSw (d.dma c).ctl ≤ 4096)

/-- A channel has a destination burst for the write engine. -/
def Dev.dmaWriteWork (d : Dev) (c : Nat) : Bool :=
  (decide (d.dmaState c = 3) || decide (d.dmaState c = 4)) && !(d.dma c).held && decide (ctlDw (d.dma c).ctl ≤ (d.dma c).buf.length)

/-- The channel an engine serves, of those with work: the highest PRIO, and of equal priority the one it served longest ago (R382).
[Log 53 DEDUCED] -/
def Dev.dmaServed (d : Dev) (work : Nat → Bool) (turn : Nat → Nat) : Option Nat :=
  ((List.range 16).filter work).foldl (fun b c =>
    match b with
    | none => some c
    | some q =>
      let pc := d.fld (DMA.CH_CFG_PRIO c)
      let pq := d.fld (DMA.CH_CFG_PRIO q)
      if pc > pq ∨ (pc = pq ∧ turn c < turn q) then some c else some q) none

/-- The turn after every turn so far. -/
def nextTurn (turn : Nat → Nat) : Nat := (List.range 16).foldl (fun m c => max m (turn c)) 0 + 1

/-! ### The buffer (R366, R376) -/

/-- An armed injection into the DMA buffer taken by a beat of `n` bytes that begins with byte `i` of the transfer (R376).
[Log 110 DEDUCED] -/
def Dev.injectBuf (d : Dev) (c i n : Nat) : Dev :=
  if !d.flag MEMCTL.ECC_FLIP_ARM || decide (d.fld MEMCTL.ECC_FLIP_MEM ≠ 0x1A) then d
  else match ((List.range n).map (i + ·)).find? fun j => decide (bufPlace c j % 8 = d.fld MEMCTL.ECC_FLIP_LANE) with
    | none => d
    | some j =>
      let k := popCount 8 (d.fld MEMCTL.ECC_FLIP_DATA) + popCount 5 (d.fld MEMCTL.ECC_FLIP_CHECK)
      let d := d.setDma c { d.dma c with flips := Tab.set 0 j k (d.dma c).flips }
      (d.setFld MEMCTL.ECC_FLIP_ARM 0).setReg64 MEMCTL.ECC_FLIP_STATUS (BitVec.ofNat 64 (bufPlace c i))

/-- Bytes of a transfer read from the buffer: whether every code was good. [Log 53 DEDUCED] -/
def Dev.checkBuf (d : Dev) (c i n : Nat) : Bool × Dev :=
  ((List.range n).map (i + ·)).foldl (fun r j =>
    match Tab.get 0 j (r.2.dma c).flips with
    | 0 => r
    | 1 => (r.1, r.2.noteErr (bufPlace c j) 0x1A 4 (r.2.dmaAgent c) 1)
    | _ => (false, r.2.noteUe (bufPlace c j) 0x1A 4 (r.2.dmaAgent c))) (true, d)

/-! ### Source bursts (R381) -/

/-- The address of the beat of `w` bytes that follows `k` bytes of a side. -/
def beatAddr (x : DmaSt) (base : Nat) (inc : Bool) (w k : Nat) : Nat :=
  if !inc then base else if x.down then base + x.len - k - w else base + k

/-- A source beat: its bytes, or the cause it fails with; host memory answers with bytes of the command.
[Log 116 DESIGN CHOICE] -/
def Dev.dmaRead (d : Dev) (c a w : Nat) (data : List Byte) : Except Nat (List Byte) × List Byte × Dev :=
  match d.hostWindow a w with
  | some h => (if data.length < w then .error 1 else .ok (data.take w), data.drop w, d.send (.hostRead h w))
  | none =>
    match d.busRead 4 (d.dmaAgent c) a w with
    | (.done bs, d) => (.ok bs, data, d)
    | (.bad, d) => (.error 3, data, d)
    | (_, d) => (.error 1, data, d)

/-- The source beats of one burst that stay within the 1 KiB of `first`. [Log 118 DEDUCED] -/
def Dev.dmaReads (d : Dev) (c first : Nat) (data : List Byte) : Nat → Dev
  | 0 => d
  | fuel + 1 =>
    let x := d.dma c
    let w := ctlSw x.ctl
    let a := beatAddr x x.src (ctlSinc x.ctl) w x.read
    if x.read ≥ x.len ∨ x.buf.length + w > 4096 ∨ a / 1024 ≠ first / 1024 then d
    else match d.dmaRead c a w data with
      | (.error k, _, d) => d.dmaStopAt c k a false
      | (.ok bs, data, d) =>
        let d := (d.setDma c { d.dma c with buf := (d.dma c).buf ++ bs, read := x.read + w, since := d.now }).injectBuf c x.read w
        d.dmaReads c first data fuel

/-- The address of a channel's next source beat. -/
def DmaSt.readAt (x : DmaSt) : Nat := beatAddr x x.src (ctlSinc x.ctl) (ctlSw x.ctl) x.read

/-- A channel's next source beat goes to host memory, which answers in its own time. -/
def Dev.dmaFromHost (d : Dev) (c : Nat) : Bool := (d.hostWindow (d.dma c).readAt (ctlSw (d.dma c).ctl)).isSome

/-- The read engine serves a channel now; a burst issued to host memory does not hold it up (R382). [Log 53 DEDUCED] -/
def Dev.dmaMayRead (d : Dev) (c : Nat) : Bool :=
  d.dmaReadWork c && (d.dmaFromHost c ||
    decide (d.dmaServed (fun q => d.dmaReadWork q && !d.dmaFromHost q) (fun q => (d.dma q).rdTurn) = some c))

/-- A source burst returns to the buffer. -/
def Dev.dmaReadBurst (d : Dev) (c : Nat) (data : List Byte) : Dev :=
  if !d.dmaMayRead c then { d with answer := .ignored }
  else
    let x := d.dma c
    let d := d.setDma c { x with rdTurn := nextTurn fun q => (d.dma q).rdTurn }
    let d := d.dmaReads c x.readAt data (ctlBurst x.ctl)
    d.when (decide (d.dmaState c = 3) && decide ((d.dma c).read ≥ x.len)) fun d => d.setDmaState c 4

/-- DMA_READ_ANSWERED (R381, R382): a source burst returns to the buffer, or fails with cause READ or UNCORR. `data` is what host memory
answers; fewer bytes than a beat asks for stand for a completion with an error. [Log 53 DEDUCED, 116 DESIGN CHOICE] -/
def execDmaReadAnswered (c : Fin 16) (data : List Byte) (s : State) : Host.Outcome State Fault Refusal :=
  s.onDev fun d => (d.dmaReadBurst c data).applyReached (dmaGroup c)

/-! ### Destination bursts and the end of a descriptor (R381, R384, R385, R387) -/

/-- Bytes written and answered without error (R384). -/
def Dev.dmaCount (d : Dev) (c n : Nat) : Dev :=
  let x := d.dma c
  let done := d.num (DMA.CH_DONE c) + n
  let d := d.setNum (DMA.CH_DONE c) done
  let w := ctlDw x.ctl
  if ctlHalf x.ctl ∧ ¬ x.half ∧ done ≥ (x.len + 2 * w - 1) / (2 * w) * w then
    (d.setDma c { x with half := true }).raise (1128 + 4 * c)
  else d

/-- Every write of a descriptor answered without error: FULL, the completion record, and the chained descriptor (R384, R387). -/
def Dev.dmaDone (d : Dev) (c : Nat) : Dev :=
  let x := d.dma c
  let d := (d.setDmaState c 5).setFld (DMA.CH_FLAGS_DONE c) 1
  let d := (d.when (ctlFull x.ctl) fun d => d.raise (1129 + 4 * c)).dmaCpl c true
  d.when (ctlChain x.ctl) fun d =>
    ((d.setReg64 (DMA.CH_CUR c) (BitVec.ofNat 64 x.next)).setDma c { x.fresh with chained := true }).setDmaState c 1

/-- A destination beat written: its answer. -/
def Dev.dmaWrite (d : Dev) (c a : Nat) (bs : List Byte) : BusAns × Dev :=
  match d.hostWindow a bs.length with
  | some h => (.done [], d.send (.hostWrite h bs))
  | none => d.busWriteFor (d.dmaAgent c) a bs

/-- The destination beats of one burst. [Log 118 DEDUCED] -/
def Dev.dmaWrites (d : Dev) (c first : Nat) : Nat → Dev
  | 0 => d
  | fuel + 1 =>
    let x := d.dma c
    let w := ctlDw x.ctl
    let k := x.read - x.buf.length
    let a := beatAddr x x.dst (ctlDinc x.ctl) w k
    if x.buf.length < w ∨ a / 1024 ≠ first / 1024 then d
    else
      let bs := x.buf.take w
      let d := d.setDma c { x with buf := x.buf.drop w }
      match d.checkBuf c k w with
      | (false, d) => d.dmaError c 3 a true
      | (true, d) =>
        match d.dmaWrite c a bs with
        | (.done _, d) => (d.dmaCount c w).dmaWrites c first fuel
        | (.rejected _, d) => (d.dmaCount c w).dmaWrites c first fuel
        | (.waits, d) => d.setDma c { d.dma c with held := true }
        | (_, d) => d.dmaError c 2 a true

/-- What follows a burst: the end of the descriptor once every byte has been written. -/
def Dev.dmaAfter (d : Dev) (c : Nat) : Dev :=
  let x := d.dma c
  if (d.dmaState c = 3 ∨ d.dmaState c = 4) ∧ ¬ x.held ∧ x.read ≥ x.len ∧ x.buf = [] then d.dmaDone c else d

/-- A write beat that waited for the Ledger is answered (R60, R385). [Log 118 DEDUCED] -/
def Dev.dmaHeld (d : Dev) (c : Nat) : Dev :=
  let x := d.dma c
  if d.agentWaits (d.dmaAgent c) then { d with answer := .waits }
  else
    let d := (d.setDma c { x with held := false }).dmaCount c (ctlDw x.ctl)
    match x.ending with
    | some (k, a, wr) => d.dmaError c k a wr
    | none => d.dmaAfter c

/-- The write engine serves a channel now; a write that waits for the Ledger holds it (R381, R382). [Log 53 DEDUCED] -/
def Dev.dmaMayWrite (d : Dev) (c : Nat) : Bool :=
  ((List.range 16).all fun q => !(d.dma q).held) && decide (d.dmaServed d.dmaWriteWork (fun q => (d.dma q).wrTurn) = some c)

/-- A destination burst written and answered. -/
def Dev.dmaWriteBurst (d : Dev) (c : Nat) : Dev :=
  let x := d.dma c
  if x.held then d.dmaHeld c
  else if !d.dmaMayWrite c then { d with answer := .ignored }
  else
    let a := beatAddr x x.dst (ctlDinc x.ctl) (ctlDw x.ctl) (x.read - x.buf.length)
    let d := d.setDma c { x with wrTurn := nextTurn fun q => (d.dma q).wrTurn }
    let d := d.dmaWrites c a (ctlBurst x.ctl)
    let d := d.when (decide (x.buf.length + ctlSw x.ctl > 4096)) fun d => d.setDma c { d.dma c with since := d.now }
    d.dmaAfter c

/-- DMA_WRITE_ANSWERED (R382, R385): a destination burst is written and answered; HALF, FULL or ERROR and chaining follow.
[Log 117 DEDUCED] -/
def execDmaWriteAnswered (c : Fin 16) (s : State) : Host.Outcome State Fault Refusal :=
  s.onDev fun d => (d.dmaWriteBurst c).applyReached (dmaGroup c)

/-- HOST_READ_TIMEOUT (R402): a source beat through the host window has had no completion for 100 µs, and fails.
[Log 117 DEDUCED] -/
def execHostReadTimeout (c : Fin 16) (s : State) : Host.Outcome State Fault Refusal :=
  s.onDev fun d =>
    let x := d.dma c
    d.when (d.dmaReadWork c && d.dmaFromHost c && d.due (x.since + nsT 100000)) fun d =>
      (d.dmaStopAt c 1 x.readAt false).applyReached (dmaGroup c)

end Sys2Proof.Machine
end

