-- ==== Sys2Proof/Machine/HostIf.lean ====
section
/-!
DEFINITION. Machine/HostIf.lean: the PCIe endpoint (spec/17, R399 to R410): accesses through the BARs, the link, the host event rings
and their messages, and telemetry.
-/
namespace Sys2Proof.Machine

/-! ### The BARs (R400, R401) -/

/-- The link is up, and the host's requests reach the device. [Log 128 DEDUCED] -/
def Dev.hostUp (d : Dev) : Bool := decide (d.fld HOST.LINK_STATUS_STATE = 2)

/-- The 40-bit address that `n` bytes at offset `x` of a BAR reach: BAR0, BAR2 or BAR4. -/
def Dev.barAddr (d : Dev) (bar x n : Nat) : Option Nat :=
  match bar with
  | 0 => if x + n ≤ 0x1000000 then some (0x40000000 + x) else none
  | 1 => if x + n ≤ 0x800000 then some (0x10000000 + x) else none
  | _ => if x + n ≤ 0x1000000 then some ((d.reg64 HOST.BAR4_WIN).toNat % 2 ^ 40 + x) else none

/-- The address of a host access that its BAR takes: one through BAR0 is 32-bit and aligned (R401). -/
def Dev.barTakes (d : Dev) (bar x n : Nat) : Option Nat :=
  if n = 0 ∨ (bar = 0 ∧ ¬ wordAccess x n) then none else d.barAddr bar x n

/-- HOST_BAR_READ (R401): the bytes, or a completer abort. A request behind a posted write that waits for the Ledger waits.
[Log 128 DEDUCED] -/
def execHostBarRead (bar : Fin 3) (off n : Nat) (s : State) : Host.Outcome State Fault Refusal :=
  s.onDev fun d =>
    if ¬ d.hostUp then { d with answer := .ignored }
    else if d.agentWaits 0x0400 then { d with answer := .waits }
    else match d.barTakes bar off n with
      | none => { d with answer := .busError }
      | some a =>
        match d.busRead 5 0x0400 a n with
        | (.done bs, d) => { d with answer := .data bs }
        | (_, d) => { d with answer := .busError }

/-- HOST_BAR_WRITE (R401): a posted write applied, or discarded where it is refused. [Log 128 DEDUCED] -/
def execHostBarWrite (bar : Fin 3) (off : Nat) (data : List Byte) (s : State) : Host.Outcome State Fault Refusal :=
  s.onDev fun d =>
    if ¬ d.hostUp then { d with answer := .ignored }
    else if d.agentWaits 0x0400 then { d with answer := .waits }
    else match d.barTakes bar off data.length with
      | none => { d with answer := .ignored }
      | some a =>
        match d.busWrite 0x0400 a data with
        | (.abort, d) => { d with answer := .ignored }
        | (_, d) => d

/-! ### The link (R409, R410) -/

/-- Queued records discarded and counted (R409). [Log 129 DEDUCED] -/
def Dev.dropHostQ (d : Dev) : Dev :=
  ({ d with hostQ := [] } : Dev).setNum HOST.DROPPED (min 0xFFFFFFFF (d.num HOST.DROPPED + d.hostQ.length))

/-- Every ring disabled (R409). [Log 130 DEDUCED] -/
def Dev.ringsOff (d : Dev) : Dev := ({ d with ringIrqs := [] } : Dev).each (List.range 8) fun d r => d.setFld (HOST.RING_CTRL_EN r) 0

/-- The link declared down (R409). -/
def Dev.linkDown (d : Dev) : Dev :=
  let old := d.reg HOST.LINK_STATUS
  let d := ((d.setFld HOST.LINK_STATUS_STATE 0).setFld HOST.LINK_STATUS_SPEED 0).setFld HOST.LINK_STATUS_WIDTH 0
  ((((((d.raise 1193).report 0x16 0).sysRec HOST.LINK_STATUS old).abortClaims 0x0400).ringsOff).dropHostQ)

/-- HOST_LINK_DOWN (R409): the Data Link layer goes down, or PERST_N is asserted. [Log 128 DEDUCED] -/
def execHostLinkDown (s : State) : Host.Outcome State Fault Refusal :=
  s.onDev fun d => d.when (decide (d.fld HOST.LINK_STATUS_STATE ≠ 0)) Dev.linkDown

/-- HOST_LINK_UP (R410): the link trains at a speed, 2.5 to 32 GT/s, and a width of 1, 2 or 4 lanes; `bme` is the Bus Master Enable
that the host configures. [Log 128 DEDUCED] -/
def execHostLinkUp (speed : Fin 5) (width : Fin 3) (bme : Bool) (s : State) : Host.Outcome State Fault Refusal :=
  s.onDev fun d => d.when (d.domReady 52) fun d =>
    let d := ((d.setFld HOST.LINK_STATUS_STATE 2).setFld HOST.LINK_STATUS_SPEED (speed + 1)).setFld HOST.LINK_STATUS_WIDTH (2 ^ width.val)
    (d.setFld HOST.LINK_STATUS_BME (b2n bme)).raise 1192

/-- HOST_FUNCTION_RESET (R410): the endpoint and the ring and window registers return to their reset values. [Log 129 DEDUCED] -/
def execHostFunctionReset (s : State) : Host.Outcome State Fault Refusal :=
  s.onDev fun d =>
    let ring := fun a => decide (HOST.RING_CTRL 0 ≤ a) && decide (a < HOST.RING_CTRL 8)
    let win := fun a => decide (HOST.OUT_CTRL ≤ a) && decide (a < HOST.DOORBELL)
    let d : Dev := { d with regs := d.regs.filter fun p => !(ring p.1 || win p.1), msix := [], hostLost := [], ringIrqs := [] }
    ((d.setFld HOST.LINK_STATUS_BME 0).abortClaims 0x0400).dropHostQ

/-! ### The rings (R403 to R407) -/

/-- The 32 bytes of a record with its ring sequence (R403, R404). -/
def HostRec.bytes (r : HostRec) (head : Word) : List Byte :=
  let p := if r.typ = 1 then r.payload ++ toBytes 2 r.merged else r.payload
  toBytes 2 r.typ ++ toBytes 2 r.event.toNat ++ toBytes 2 r.agent.toNat ++ toBytes 2 head.toNat ++ toBytes 8 r.time.toNat
    ++ p ++ List.replicate (16 - p.length) 0

/-- The device can write to host memory: the link is up and the host lets it be a master. -/
def Dev.hostMaster (d : Dev) : Bool := d.hostUp && d.flag HOST.LINK_STATUS_BME

/-- A ring holds as many records as it has places (R403). [Log 130 DEDUCED] -/
def Dev.ringFull (d : Dev) (r : Nat) : Bool :=
  decide ((d.reg (HOST.RING_HEAD r) - d.reg (HOST.RING_TAIL r)).toNat ≥ 2 ^ d.fld (HOST.RING_CTRL_SIZE r))

/-- What a ring keeps for its messages. -/
def Dev.ringIrq (d : Dev) (r : Nat) : RingIrq := Tab.get {} r d.ringIrqs

/-- The message of a ring sent (R405). [Log 131 DEDUCED] -/
def Dev.ringMsg (d : Dev) (r : Nat) : Dev :=
  ({ d with ringIrqs := Tab.set {} r {} d.ringIrqs } : Dev).send (.msix (d.fld (HOST.RING_CTRL_VECTOR r)))

/-- A record written, counted for the ring's message (R405). -/
def Dev.ringCount (d : Dev) (r : Nat) : Dev :=
  let x := d.ringIrq r
  let n := x.count + 1
  let d : Dev := { d with ringIrqs := Tab.set {} r { count := n, since := if x.count = 0 then d.now else x.since } d.ringIrqs }
  let lim := d.fld (HOST.RING_IRQ_COUNT r)
  d.when (decide (lim ≠ 0) && decide (n ≥ lim)) fun d => d.ringMsg r

/-- A record written to its ring's next place (R403, R405). -/
def Dev.ringWrite (d : Dev) (r : Nat) (q : HostRec) : Dev :=
  let head := d.reg (HOST.RING_HEAD r)
  let slot := head.toNat % 2 ^ d.fld (HOST.RING_CTRL_SIZE r)
  let d := d.send (.hostWrite (d.reg64 (HOST.RING_BASE r) + BitVec.ofNat 64 (32 * slot)) (q.bytes head))
  (({ d with hostQ := d.hostQ.erase q } : Dev).wrapNum (HOST.RING_HEAD r)).ringCount r

/-- HOST_RECORD_WRITE (R405): the oldest queued record of ring `r` is written, where the ring has room. [Log 130 DEDUCED] -/
def execHostRecordWrite (r : Fin 8) (s : State) : Host.Outcome State Fault Refusal :=
  s.onDev fun d =>
    match d.hostQ.find? fun q => q.ring = r.val with
    | none => d
    | some q => d.when (d.hostMaster && d.flag (HOST.RING_CTRL_EN r) && !d.ringFull r) fun d => d.ringWrite r q

/-- RING_IRQ_TIMEOUT (R405): a record written to ring `r` has waited TIME_US without a message. [Log 131 DEDUCED] -/
def execRingIrqTimeout (r : Fin 8) (s : State) : Host.Outcome State Fault Refusal :=
  s.onDev fun d =>
    let x := d.ringIrq r
    let us := d.fld (HOST.RING_IRQ_TIME_US r)
    d.when (decide (x.count ≠ 0) && decide (us ≠ 0) && d.hostMaster && d.due (x.since + nsT (1000 * us))) fun d => d.ringMsg r

/-! ### Telemetry (R408) -/

/-- The word of a list entry latched at `t`. [Log 132 DEDUCED] -/
def Dev.telWord (d : Dev) (k : Nat) (t : Time) : Word :=
  if k = MILEPOST.MP_NOW_LO then t.setWidth 32
  else if k = MILEPOST.MP_NOW_HI then (t >>> 32).setWidth 32
  else d.readWord devAgent k

/-- The TELEMETRY record of list entry `n` in snapshot `num`, latched at `t` (R404). [Log 132 DEDUCED] -/
def Dev.telRec (d : Dev) (n : Nat) (num : Word) (t : Time) : HostRec :=
  let b := d.fld (HOST.TEL_LIST_BLOCK n)
  let o := d.fld (HOST.TEL_LIST_OFFSET n)
  { ring := d.fld HOST.TEL_CTRL_RING, typ := 3, event := 0xFFFE, agent := 0xFFFF, time := t
    payload := [BitVec.ofNat 8 b, 0] ++ toBytes 2 o ++ toBytes 4 (d.telWord (b * 0x10000 + o) t).toNat ++ toBytes 4 num.toNat ++ toBytes 4 0 }

/-- The records of one snapshot at `t`, in list order. -/
def Dev.telRecs (d : Dev) (num : Word) (t : Time) : List HostRec :=
  ((List.range 64).filter fun n => d.flag (HOST.TEL_LIST_VALID n)).map fun n => d.telRec n num t

/-- TELEMETRY_SNAPSHOT (R408): the occurrence that is due latches the listed words at one whole nanosecond and queues a record of
each. [Log 43 DEDUCED, 132 DEDUCED] -/
def execTelemetrySnapshot (s : State) : Host.Outcome State Fault Refusal :=
  s.onDev fun d =>
    match d.telSched with
    | none => d
    | some sc => d.when (d.due sc.target) fun d =>
      let target := floorNs sc.target
      let t := maxT target (floorNs d.now)
      let (sc, fire) := sc.advance (d.fld HOST.TEL_SCHED_CATCHUP) (d.fld HOST.TEL_SCHED_BEHIND) t
      let d := (({ d with telSched := some sc } : Dev).wrapNum HOST.TEL_STATUS).when fire fun d => d.raise 15
      let d := d.when (before target t) fun d => d.lateAct 0x07 target t
      (d.telRecs (d.reg HOST.TEL_STATUS) t).foldl Dev.hostEnqueue d

end Sys2Proof.Machine
end

