-- ==== Sys2Proof/Machine/LoopRun.lean ====
section
/-!
DEFINITION. Machine/LoopRun.lean: the commands of the slices that end in commits: an evaluation and the resume of a detour
(spec/06, spec/07 R166 to R168).
-/
namespace Sys2Proof.Machine

/-- SLOT_EVALUATION (R138, R139, R166): a slot evaluates its oldest sample; `agree` tells whether the two computations do. With the
last slot of a detour a BOUNDARY commit of the supervision applies (R177). [Log 69 DEDUCED] -/
def execSlotEvaluation (s : Fin 32) (agree : Bool) (st : State) : Host.Outcome State Fault Refusal :=
  st.onDev fun d => Dev.applyStopped d (d.slotEval s agree) supGroup

/-- The BOUNDARY commits pending on the slots of a slice, applied (R168). -/
def Dev.slotCommits (d : Dev) (k : Nat) : Dev :=
  d.each (homeSlots k) fun d s => d.applyReached (grpKey (0x18 + s / 16) (s % 16))

/-- DETOUR_RESUME (R167, R168): at t_r the spare begins to evaluate. [Log 69 DEDUCED] -/
def execDetourResume (s : State) : Host.Outcome State Fault Refusal :=
  s.onDev fun d =>
    match d.sliceDet with
    | none => d
    | some x =>
      d.when (x.copied && !x.resumed && d.due (x.tm + nsT 1500)) fun d =>
        let e := ((d.resumeSlots x).slotCommits x.k).each (homeSlots x.k) Dev.slotDue
        Dev.applyStopped d ((e.detourOpen x).runGroupsOf (homeSlots x.k)) supGroup

end Sys2Proof.Machine
end

