-- ==== Sys2Proof/Machine/NvmOps.lean ====
section
/-!
DEFINITION. Machine/NvmOps.lean: the flash operations of FL_CTRL, the second phase of a journal append, and the saving of truing results
(spec/03, R84, R85, R93).
-/
namespace Sys2Proof.Machine

/-! ### Flash operations (R93) -/

/-- The end of the flash operation in progress: DONE or ERROR, and the event (R93, R394). -/
def Dev.flashEnd (d : Dev) (ok : Bool) : Dev :=
  let rest := d.flash.ops.drop 1
  let d : Dev := { d with flash := { d.flash with ops := rest } }
  let d := d.setFld NVM.FL_STATUS_BUSY (b2n (!rest.isEmpty))
  (d.setFld (if ok then NVM.FL_STATUS_DONE else NVM.FL_STATUS_ERROR) 1).raise 1210

/-- A READ: FL_LEN bytes of the flash stored in the buffer. [Log 47 DEDUCED] -/
def Dev.flashRead (d : Dev) (x : FlashOp) : Dev :=
  if x.len = 0 ∨ x.len > 65536 ∨ ¬ d.flash.answers ∨ ¬ d.rangeOpen x.agent x.buf x.len true then d.flashEnd false
  else (d.store x.agent x.buf (d.norBytes x.addr x.len)).flashEnd true

/-- The bytes a PROGRAM of at most one page takes from its buffer; none where it fails. -/
def Dev.flashFetch (d : Dev) (x : FlashOp) : Option (List Byte) × Dev :=
  match x.data with
  | some bs => (some bs, d)
  | none =>
    if x.len = 0 ∨ x.len > 256 ∨ x.addr / 256 ≠ (x.addr + (x.len - 1)) / 256 ∨ ¬ d.flash.answers
        ∨ ¬ d.rangeOpen x.agent x.buf x.len false then (none, d)
    else
      let (ok, bs, d) := d.readMem 5 x.agent x.buf x.len
      (if ok then some bs else none, d)

/-- A PROGRAM carried out. [Log 47 DEDUCED] -/
def Dev.flashProgram (d : Dev) (x : FlashOp) : Dev :=
  match d.flashFetch x with
  | (some bs, d) => (d.norProgram x.addr bs).flashEnd true
  | (none, d) => d.flashEnd false

/-- The page program in progress takes its buffer, and no other operation goes on (R88). -/
def Dev.flashHold (d : Dev) : Dev :=
  match d.flash.ops with
  | [] => d
  | x :: _ =>
    if x.op ≠ .program then { d with flash := { d.flash with ops := [] } }
    else
      let (bs, d) := d.flashFetch x
      { d with flash := { d.flash with ops := [{ x with data := bs }] } }

/-- An ERASE_SECTOR. -/
def Dev.flashErase (d : Dev) (x : FlashOp) : Dev :=
  if x.addr % 4096 ≠ 0 ∨ ¬ d.flash.answers then d.flashEnd false else (d.norErase x.addr).flashEnd true

/-- A CHECK: steps 1 to 4 of R78 on a copy, with its RESULT. [Log 47 DEDUCED] -/
def Dev.flashCheck (d : Dev) (x : FlashOp) : Dev :=
  if ¬ d.flash.answers then (d.setFld NVM.FL_STATUS_RESULT 2).flashEnd false
  else
    let h := d.norBytes (flashCopy x.copyB) 0x100
    let m := if headerOk h ∧ keyOk h then d.cutImage x.copyB else []
    let r := (checkCopy h m).getD 1
    let d := if m = [] then d else d.cutStore m
    (d.setFld NVM.FL_STATUS_RESULT r).flashEnd true

/-- The flash operation in progress carried out. [Log 47 DEDUCED] -/
def Dev.flashDo (d : Dev) : Dev :=
  match d.flash.ops with
  | [] => d
  | x :: _ =>
    match x.op with
    | .read => d.flashRead x
    | .program => d.flashProgram x
    | .erase => d.flashErase x
    | .check => d.flashCheck x

/-- FLASH_OP_DONE (R93): the flash operation in progress completes. -/
def execFlashOpDone (s : State) : Host.Outcome State Fault Refusal := s.onDev Dev.flashDo

/-! ### The journal (R84, R85) -/

/-- A checkpoint waits or is being written. -/
def Dev.checkpointing (d : Dev) : Bool := d.flash.cpSeq.isSome || d.flash.queue.any fun e => decide (e.typ = .cpBegin) || decide (e.typ = .cpEnd)

/-- JOURNAL_MARKER_PROGRAM (R84, R85): the marker of the latest entry is programmed, and after 2,048 entries a checkpoint follows. -/
def execJournalMarkerProgram (s : State) : Host.Outcome State Fault Refusal :=
  s.onDev fun d =>
    match d.flash.unmarked with
    | none => d
    | some (a, typ) =>
      let d := ({ d with flash := { d.flash with unmarked := none } } : Dev).norProgram (a + 0x3F) [0]
      let d := d.entryDone a typ
      (d.when (decide (d.flash.since ≥ 2048) && !d.checkpointing) Dev.checkpoint).showJournal

/-- CALIB_SAVE_TIMER (R85): CALIB_MIN minutes have passed since the latest save. -/
def execCalibSaveTimer (s : State) : Host.Outcome State Fault Refusal :=
  s.onDev fun d =>
    let m := d.fld NVM.JNL_CTRL_CALIB_MIN
    d.when (decide (m ≠ 0) && d.due d.flash.calibAt) fun d =>
      ({ d with flash := { d.flash with calibAt := d.flash.calibAt + nsT (m * 60000000000) } } : Dev).jCalib

end Sys2Proof.Machine
end

