-- ==== Sys2Proof/Machine/Power.lean ====
section
/-!
DEFINITION. Machine/Power.lean: supply bring-up, pin reset, and the loss of input power with its waypoint (spec/03, R67 to R70,
R87 to R91).
-/
namespace Sys2Proof.Machine

/-! ### Reset (R13, R56, R67, R70) -/

/-- Power-on reset: what is kept is the flash's contents; the count of values drawn goes on. [Log 38 DEDUCED] -/
def Dev.powerReset (d : Dev) (p : SupplyPhase) : Dev :=
  { Dev.powerOn with phase := p, flash := { nor := d.flash.nor }, freeCount := d.freeCount }

/-- VIN_RISE (R67): VIN rises through 4.4 V; the insertion wait begins at power-on reset. [Log 10 DESIGN CHOICE] -/
def execVinRise (s : State) : Host.Outcome State Fault Refusal :=
  s.onDev fun d => d.when (decide (d.phase = .off)) fun d => d.powerReset .insertion

/-- INSERTION_WAIT_END (R67): VINT ramps. [Log 39 DESIGN CHOICE] -/
def execInsertionWaitEnd (s : State) : Host.Outcome State Fault Refusal :=
  s.onDev fun d => d.when (decide (d.phase = .insertion)) fun d => { d with phase := .ramp }

/-- VINT_RAMP_DONE (R67): VINT is above 4.75 V, and the other rails come up. [Log 39 DESIGN CHOICE] -/
def execVintRampDone (s : State) : Host.Outcome State Fault Refusal :=
  s.onDev fun d => d.when (decide (d.phase = .ramp)) fun d => { d with phase := .rails }

/-- SUPPLY_OFF (R67, R87): VIN falls below 4.1 V. From a VIN_FAIL trip on, that is ignored while VINT stays at 3.0 V or more and the
waypoint has not been written. [Log 37 DEDUCED] -/
def execSupplyOff (s : State) : Host.Outcome State Fault Refusal :=
  s.onDev fun d =>
    let held := match d.loss with
      | some l => l.written.isNone && decide (d.num SUPPLY.MON_VINT ≥ 3000)
      | none => false
    if held then { d with answer := .ignored } else d.powerReset .off

/-! ### VIN-good (R67, R78, R79, R89, R440) -/

/-- The domains that are ON powered; the memories are filled with zeros before the loader starts (R366, R440). -/
def Dev.powerDomains (d : Dev) : Dev :=
  let d := d.each ((List.range 59).filter d.domOn) Dev.domPowered
  let d := d.each (((List.range 16).filter fun n => decide (4 ≤ n)) ++ [18, 19]) fun d n =>
    d.when (d.domOn n) fun d => d.setMapBit SUPPLY.DOM_STATUS_0 n true
  d.each (List.range 8) fun d b => d.when (d.domOn (8 + b)) fun d =>
    d.setFld MEMCTL.SRAM_STATUS_READY (putBits (d.fld MEMCTL.SRAM_STATUS_READY) b b 1)

/-- The waypoint sector holds a valid waypoint (R91). -/
def Dev.waypointValid (d : Dev) : Bool :=
  decide (ofBytes (d.norBytes flashWaypoint 4) = 0x50594157)
    && decide (ofBytes (d.norBytes (flashWaypoint + 0xFFC) 4) = crc32 (d.norBytes flashWaypoint 0xFFC))

/-- The waypoint sector looked at: found, ready, or to be erased (R89). -/
def Dev.waypointLook (d : Dev) : Dev :=
  if d.waypointValid then
    ((d.setFld NVM.WP_STATUS_FOUND 1).setReg64 NVM.WP_LAST (BitVec.ofNat 64 (ofBytes (d.norBytes (flashWaypoint + 8) 8)))).raise 1211
  else if d.norBlank flashWaypoint then d.setFld NVM.WP_STATUS_READY 1
  else ({ d with flash := { d.flash with wpErase := true } } : Dev).setFld NVM.WP_STATUS_ERASING 1

/-- The flash cannot be brought up: both copies fail with FLASH (R79). [Log 30 DESIGN CHOICE] -/
def Dev.flashFailed (d : Dev) : Dev :=
  ((d.setFld NVM.BOOT_STATUS_A_RESULT 2).setFld NVM.BOOT_STATUS_B_RESULT 2).noConfig

/-- The device goes on from VIN-good: the domains are powered, core 0 runs the boot ROM, and the loader tries copy A. -/
def Dev.vinGood (d : Dev) (f : FlashStart) : Dev :=
  let d := (({ d with phase := .good } : Dev).powerDomains).setCoreState 0 1
  let d : Dev := { d with flash := { d.flash with calibAt := d.now + nsT (d.fld NVM.JNL_CTRL_CALIB_MIN * 60000000000) } }
  match f with
  | .silent => ({ d with flash := { d.flash with answers := false } } : Dev).flashFailed
  | .unswitched => d.flashFailed
  | .ready l =>
    let d := ({ d with flash := { d.flash with strobes := l } } : Dev).waypointLook
    let d := d.setFld NVM.BOOT_STATUS_STATE 1
    Dev.afterLoad false (d.startCopy false)

/-- VIN_GOOD (R67): every internal rail is within its tolerance; `f` tells how the flash answers.
[Log 10 DESIGN CHOICE, 30 DESIGN CHOICE, 39 DESIGN CHOICE] -/
def execVinGood (f : FlashStart) (s : State) : Host.Outcome State Fault Refusal :=
  s.onDev fun d => d.when (decide (d.phase = .rails)) fun d => d.vinGood f

/-- PIN_RESET (R70): RESET_N is low; the dies are held at power-on reset, while every rail stays up. [Log 10 DESIGN CHOICE] -/
def execPinReset (s : State) : Host.Outcome State Fault Refusal :=
  s.onDev fun d => d.when (decide (d.phase = .good)) fun d => { d.powerReset .pinReset with domUp := d.domUp }

/-- PIN_RESET_RELEASE (R70): the device leaves reset and goes on as from VIN-good. [Log 39 DESIGN CHOICE] -/
def execPinResetRelease (f : FlashStart) (s : State) : Host.Outcome State Fault Refusal :=
  s.onDev fun d => d.when (decide (d.phase = .pinReset)) fun d => (d.powerReset .good).vinGood f

/-! ### Power loss (R87, R88) -/

/-- Every timer, loop slot, ring, pin engine and DMA channel stops; DRAM, PCIe, the ADC groups and the comparator banks lose their
power (R88). Each output stays in its safe state over the hardwired path. [Log 37 DEDUCED] -/
def Dev.lossStop (d : Dev) : Dev :=
  let d : Dev := { d with tims := [], updQ := [], adcTrig := [], compGroups := [], dmas := []
                          slots := d.slots.map fun x => (x.1, { x.2 with queue := [], defer := none }) }
  let d := d.each (List.range 48) fun d t => d.setFld (PWM.TIM_STATUS_RUN t) 0
  let d := ((d.ringOff 0).ringOff 1).resetBlock 0x0C
  let d := d.each (List.range 5) Dev.engBankOff
  d.each ([53, 54, 52] ++ ((List.range 16).map (36 + ·))) Dev.domDown

/-- The trip of VIN_FAIL at a measured VIN, in 10 mV (R87): the safe states, the event, the record, and what the waypoint keeps.
[Log 36 DEDUCED, 149 DESIGN CHOICE] -/
def Dev.vinTrip (d : Dev) (vin : Nat) : Dev :=
  let old := d.reg SUPPLY.MON_VIN
  let erasing := d.flash.wpErase || !d.toErase.isEmpty || (match d.flash.ops with | x :: _ => decide (x.op = .erase) | [] => false)
  let l : PowerLoss := { t := d.nowNs, vin := vin, tj := d.num SUPPLY.MON_TJ, nextSeq := d.reg LEDGER.LG_NEXT_SEQ
                         drained := d.reg LEDGER.LG_DRAINED_SEQ, eraseAbandoned := erasing
                         appendLost := d.flash.unmarked.isSome || !d.flash.queue.isEmpty }
  let d := ((d.hardwire).setNum SUPPLY.MON_VIN vin).raise 0
  let d := (d.report 0 0).sysRec SUPPLY.MON_VIN old
  let d := d.flashHold
  let d : Dev := { d with
    loss := some l
    sup := { d.sup with armed := false, failed := true }
    flash := { d.flash with queue := [], unmarked := none, wpErase := false }
    led := { d.led with norQ := [] } }
  d.lossStop

/-- VIN_FAIL (R87): VIN, `vin` in 10 mV, has fallen below the threshold. [Log 37 DEDUCED] -/
def execVinFail (vin : Nat) (s : State) : Host.Outcome State Fault Refusal :=
  s.onDev fun d => d.when (d.sup.armed && decide (vin < d.fld SUPPLY.VIN_FAIL_CFG_THRESH * 5)) fun d => d.vinTrip vin

/-! ### The waypoint (R88, R89, R91) -/

/-- Bytes filled with 0xFF to a length. -/
def fill (n : Nat) (bs : List Byte) : List Byte := bs.take n ++ List.replicate (n - bs.length) 0xFF

/-- The 16 bytes of a slot. -/
def Dev.wpSlot (d : Dev) (n : Nat) : List Byte :=
  [LOOP.SLOT_SP_NOW n, LOOP.SLOT_OUT n, LOOP.SLOT_STATUS n, LOOP.SLOT_EVALS n].flatMap fun a => toBytes 4 (d.readWord devAgent a).toNat

/-- The 8 bytes of a supply sample. -/
def SupplySample.bytes (x : SupplySample) : List Byte := toBytes 2 x.vin ++ toBytes 2 x.vint ++ toBytes 2 x.vcore ++ toBytes 2 x.tj

/-- The first 0xFFC bytes of the waypoint (R91). -/
def Dev.wpBody (d : Dev) (l : PowerLoss) : List Byte :=
  let flags := b2n d.lgDram + 2 * b2n l.eraseAbandoned + 4 * b2n l.appendLost
  let head := toBytes 4 0x50594157 ++ toBytes 2 1 ++ toBytes 2 flags ++ toBytes 8 l.t.toNat ++ toBytes 4 l.nextSeq.toNat
    ++ toBytes 4 l.drained.toNat ++ toBytes 4 (d.num NVM.JNL_NEXT_SEQ) ++ toBytes 2 (d.fld SYS.COMMIT_SEQ_SEQ) ++ toBytes 2 l.vin
    ++ toBytes 2 l.tj ++ [if d.flag NVM.BOOT_STATUS_COPY then 0x0B else 0x0A, 0xFF] ++ toBytes 8 (d.reg64 NVM.BOOT_SERIAL).toNat
    ++ toBytes 4 (d.num MILEPOST.LATE_COUNT)
  let fault := (List.range 64).flatMap fun i => toBytes 4 (d.readWord devAgent (0x40000 + 4 * i)).toNat
  let sw := d.bytes (d.num NVM.WP_SW_ADDR) (min 956 (d.fld NVM.WP_SW_LEN_LEN))
  fill 0x40 head ++ fault ++ (List.range 32).flatMap d.wpSlot ++ fill 256 ((d.samples.take 32).reverse.flatMap SupplySample.bytes)
    ++ fill 2048 ((d.led.chip.take 64).reverse.flatMap Record.bytes) ++ fill 956 sw

/-- The waypoint programmed into its sector. [Log 36 DEDUCED] -/
def Dev.wpProgram (d : Dev) (l : PowerLoss) : Dev :=
  let b := d.wpBody l
  (d.norProgram flashWaypoint (b ++ toBytes 4 (crc32 b))).setFld NVM.WP_STATUS_READY 0 |>.showArmed

/-- WAYPOINT_WRITE (R88): the page program in progress finishes, and an armed waypoint is written; one that is not armed is skipped.
[Log 36 DEDUCED] -/
def execWaypointWrite (s : State) : Host.Outcome State Fault Refusal :=
  s.onDev fun d =>
    match d.loss with
    | none => d
    | some l => d.when l.written.isNone fun d =>
      let d := d.flashDo
      let d := d.when (d.flag NVM.WP_STATUS_ARMED) fun d => d.wpProgram l
      { d with loss := some { l with written := some d.now } }

/-- POWER_LOSS_RESTART (R88): VIN has fallen below 4.1 V (`below`), or has stood above the threshold for 1 ms after the waypoint was
written or skipped; the device restarts at power-on reset. [Log 36 DEDUCED] -/
def execPowerLossRestart (below : Bool) (s : State) : Host.Outcome State Fault Refusal :=
  s.onDev fun d =>
    match d.loss with
    | none => d
    | some l =>
      match l.written with
      | none => d
      | some t =>
        if below then d.powerReset .off
        else match l.above with
          | none => d
          | some a => d.when (d.due (laterT t a + nsT 1000000)) fun d => d.powerReset .insertion

end Sys2Proof.Machine
end

