-- ==== Sys2Proof/Machine/Tap.lean ====
section
/-!
DEFINITION. Machine/Tap.lean: the IEEE 1149.1 test access port (spec/17, R420). Its boundary register has one cell for each of the 160
pins (log entry 46).
-/
namespace Sys2Proof.Machine

/-- The levels that the receivers of the pins see, one byte a pin. [Log 46 DESIGN CHOICE] -/
def Dev.tapCapture (d : Dev) : List Byte := (List.range 160).map fun p => BitVec.ofNat 8 (b2n (d.pin p).raw)

/-- The boundary register loaded: pin and level. [Log 46 DESIGN CHOICE] -/
def Dev.bsrLoad (d : Dev) (cells : List (Fin 160 × Fin 4)) : Dev :=
  cells.foldl (fun d x => { d with tapBsr := Tab.set 3 x.1.val x.2.val d.tapBsr }) d

/-- TAP_OPERATION (R420): an instruction of the TAP is loaded and carried out, while the debug domain is powered.
[Log 46 DESIGN CHOICE] -/
def execTapOperation (op : TapOp) (s : State) : Host.Outcome State Fault Refusal :=
  s.onDev fun d =>
    if ¬ d.domReady 58 then { d with answer := .ignored }
    else match op with
      | .bypass => { d with tapIr := TAP.BYPASS, answer := .ok }
      | .idcode => { d with tapIr := TAP.IDCODE, answer := .value (d.reg ID.IDCODE) }
      | .samplePreload cells => { d.bsrLoad cells with tapIr := TAP.SAMPLE, answer := .data d.tapCapture }
      | .extest cells => { d.bsrLoad cells with tapIr := TAP.EXTEST, answer := .data d.tapCapture }
      | .dbgport => { d with tapIr := TAP.DBGPORT, answer := .ok }

end Sys2Proof.Machine
end

