-- ==== Sys2Proof/Machine/ThreadMem.lean ====
section
/-!
DEFINITION. Machine/ThreadMem.lean: the Wilium instructions of a thread (spec/14, R323, R324): registers, branches, loads, stores and
atomic operations, and the end of an access in progress.
-/
namespace Sys2Proof.Machine

/-- The flags of a thread's STATUS (R324). -/
def thrFlagMask : Word := 0x1F0000

/-- The memories and blocks a thread may load from and store to (R323). -/
def thrReaches (q : MemReq) : Bool :=
  let a := q.addr.toNat
  (decide (0x10000000 ≤ a) && decide (a < 0x10800000)) || (decide (0x20000000 ≤ a) && decide (a < 0x20080000))
    || (inPeripherals a && q.amo.isNone)

/-- An access to the memory of the thread's own ring completes before the thread's next slot (R323). -/
def ownRing (n : Nat) (q : MemReq) : Bool :=
  decide (ringBase (n / 32) ≤ q.addr.toNat) && decide (q.addr.toNat < ringBase (n / 32) + 0x40000)

/-- An atomic operation of a thread: the old word, in an answer that is refused, uncorrectable, waiting or done (R261, R323). -/
def Dev.thrAmo (d : Dev) (n : Nat) (q : MemReq) (op : AmoOp) (x b : Word) : BusAns × Nat × Dev :=
  let a := q.addr.toNat
  if !d.memOpen (thrAgent n) a 4 true then (.abort, 0, d)
  else match d.memLoad 1 (thrAgent n) a 4 with
    | none => (.abort, 0, d)
    | some (false, _, d) => (.bad, 0, d)
    | some (true, bs, d) =>
      match amoNew op (BitVec.ofNat 32 (ofBytes bs)) x b with
      | none => (.done bs, ofBytes bs, d)
      | some v =>
        match ({ d with answer := .ok } : Dev).memStore (thrAgent n) a (toBytes 4 v.toNat) with
        | none => (.abort, 0, d)
        | some e => (if e.answer = .waits then .waits else .done bs, ofBytes bs, e)

/-- A thread's access performed; the request keeps the word an atomic operation read. -/
def Dev.thrDo (d : Dev) (n : Nat) (q : MemReq) : BusAns × MemReq × Dev :=
  match q.amo, q.data with
  | some (op, x, b), _ =>
    let (a, v, d) := d.thrAmo n q op x b
    (a, { q with data := some (BitVec.ofNat 64 v) }, d)
  | none, some v =>
    let (a, d) := d.busWrite (thrAgent n) q.addr.toNat (toBytes q.len v.toNat)
    (a, q, d)
  | none, none =>
    let (a, d) := d.busRead 1 (thrAgent n) q.addr.toNat q.len
    (a, q, d)

/-- The registers a completed access writes. -/
def Dev.thrLoaded (d : Dev) (n : Nat) (q : MemReq) (v : Nat) : Dev :=
  let d := match q.upd with
    | some (r, x) => d.setT n r x
    | none => d
  match q.dest with
  | .g r sg size => d.setT n r (loadedWord sg size v)
  | _ => d

/-- The end of a thread's access: retirement, the stop of its cause, or the wait for the Ledger (R323). -/
def Dev.thrAnswer (d : Dev) (n : Nat) (q : MemReq) (a : BusAns) : Dev :=
  match a with
  | .done bs => (d.thrLoaded n q (ofBytes bs)).thrRetire n
  | .rejected _ => (d.thrLoaded n q 0).thrRetire n
  | .abort => d.thrStop n 3 q.addr
  | .bad => d.thrStop n 4 q.addr
  | .waits => (d.putThr n { d.thr n with req := some { q with sent := true } }).setThrState n 3 0

/-- A load, a store or an atomic operation of a thread (R323): ALIGN, then BUSERR; an access to the own ring's memory completes at
once, any other leaves the thread STALLED. -/
def Dev.thrAccess (d : Dev) (n : Nat) (q : MemReq) : Dev :=
  if !alignedTo q.addr q.len then d.thrStop n 2 q.addr
  else if !thrReaches q then d.thrStop n 3 q.addr
  else if ownRing n q then
    let (a, q, d) := d.thrDo n q
    d.thrAnswer n q a
  else (d.putThr n { d.thr n with req := some { q with since := d.now } }).setThrState n 3 0

/-- The request of a thread's load. -/
def Dev.thrReq (d : Dev) (n size : Nat) (m : AddrMode) (ra : Nat) (dest : Dest) : MemReq :=
  let (a, u) := addrOf m (d.t n) ra size 0
  { addr := a, len := accessLen size, dest := dest, upd := u.map fun v => (ra, v) }

/-- A register, flag or branch instruction of a thread; a jump off a word address stops it with cause ALIGN (R322). -/
def Dev.thrRegs (d : Dev) (n : Nat) (i : WInstr) : Option Dev :=
  let x := d.thr n
  let pc := d.reg (ROUND.THR_PC n)
  (evalRegs i (d.t n) x.flags pc 4 15).map fun r =>
    let bad := match r.target with
      | some t => decide (t.toNat % 4 ≠ 0)
      | none => false
    if bad then d.thrStop n 2 (r.target.getD 0)
    else
      let d := d.putThr n { x with flags := r.st &&& thrFlagMask }
      let d := match r.wr with
        | some (rd, v) => d.setT n rd v
        | none => d
      d.thrRetireTo n (r.target.getD (pc + 4))

/-- The effect of a Wilium instruction of a thread (R324). -/
def Dev.thrWilium (d : Dev) (n : Nat) (i : WInstr) : Option Dev :=
  match i with
  | .load sg size m rd ra _ => some (d.thrAccess n (d.thrReq n size m ra (.g rd sg size)))
  | .store size m rs ra _ =>
    some (d.thrAccess n { d.thrReq n size m ra .none with
      data := some (BitVec.ofNat 64 ((d.t n rs).toNat % 2 ^ (8 * 2 ^ size))) })
  | .amo op rd ra rb =>
    some (d.thrAccess n { addr := d.t n ra, len := 4, amo := some (op, d.t n rd, d.t n rb), dest := .g rd false 2 })
  | .mfs rd _ => some ((d.setT n rd ((d.thr n).flags &&& thrFlagMask)).thrRetire n)
  | .mts _ ra => some ((d.putThr n { d.thr n with flags := d.t n ra &&& thrFlagMask }).thrRetire n)
  | .fence => some (d.thrRetire n)
  | i => d.thrRegs n i

/-- THREAD_WILIUM_INSTRUCTION (R324). -/
def execThreadWiliumInstruction (n : Fin 64) (s : State) : Host.Outcome State Fault Refusal :=
  s.onDev fun d => d.thrIssue n fun d i _ =>
    match i with
    | .wil i => d.thrWilium n i
    | _ => none

/-- The access of a STALLED thread completes, or obtains its Ledger place. -/
def Dev.thrAccessDone (d : Dev) (n : Nat) : Dev :=
  match (d.thr n).req with
  | none => { d with answer := .ignored }
  | some q =>
    if d.thrState n ≠ 3 then { d with answer := .ignored }
    else if q.sent then
      if d.agentWaits (thrAgent n) then { d with answer := .waits }
      else d.thrAnswer n q (.done (toBytes 8 (q.data.getD 0).toNat))
    else
      let (a, q, d) := d.thrDo n q
      d.thrAnswer n q a

/-- THREAD_ACCESS_DONE (R323): the access of a STALLED thread completes, and with it the instruction: a BOUNDARY commit of the thread
applies (R336). -/
def execThreadAccessDone (n : Fin 64) (s : State) : Host.Outcome State Fault Refusal :=
  s.onDev fun d => (d.thrAccessDone n).applyReached (grpKey (0x28 + n / 32) (n % 32))

end Sys2Proof.Machine
end

