-- ==== Sys2Proof/Machine/TieRx.lean ====
section
/-!
DEFINITION. Machine/TieRx.lean: the tie link at work (spec/17, R411 to R419): echoes, SYNC, alignment, plan and event frames, remote
accesses, acknowledgements and losses. A lane pair is 0 or 1: pair 0 sends to the next device and receives from the previous one,
pair 1 the reverse (R411). `off` is the arrival's fine tick within the present nanosecond; `good` tells whether the CRC is right.
-/
namespace Sys2Proof.Machine

/-! ### Hops and peers (R412, R415) -/

/-- The device at the other end of the pair a frame arrives on. -/
def Dev.tieNeighbour (d : Dev) (lane : Nat) : Nat := (d.tiePos + (if lane = 0 then d.tieN - 1 else 1)) % max 1 d.tieN

/-- A hop: 0 to the next device, 1 from the previous one. -/
def Dev.hop (d : Dev) (h : Nat) : HopSt := if h = 0 then d.tie.hop0 else d.tie.hop1

/-- A hop set. -/
def Dev.setHop (d : Dev) (h : Nat) (x : HopSt) : Dev :=
  { d with tie := if h = 0 then { d.tie with hop0 := x } else { d.tie with hop1 := x } }

/-- The field of TIE_STATUS that shows a hop: 0 DOWN, 1 TRAINING, 2 UP. -/
def hopFld (h : Nat) : Fld := if h = 0 then TIE.TIE_STATUS_NEXT else TIE.TIE_STATUS_PREV

/-- LOSS_US as a time. -/
def Dev.tieLoss (d : Dev) : Time := nsT (1000 * d.fld TIE.TIE_ALIGN_LOSS_US)

/-- A frame from peer `p` has arrived. [Log 133 DEDUCED] -/
def Dev.hear (d : Dev) (p : Nat) : Dev :=
  d.when (decide (p ≠ d.tiePos)) fun d => ({ d with tie := { d.tie with heard := Tab.put p d.now d.tie.heard } } : Dev).setFld TIE.TIE_STATUS_PEERS
    (putBits (d.fld TIE.TIE_STATUS_PEERS) p p 1)

/-- A good frame has passed hop `h`: it trains, and is UP after 64 in a row (R412). [Log 133 DEDUCED] -/
def Dev.goodFrame (d : Dev) (h : Nat) : Dev :=
  let n := (d.hop h).good + 1
  let d := d.setHop h { good := n, last := d.now }
  if d.fld (hopFld h) = 2 then d
  else if n ≥ 64 then (d.setFld (hopFld h) 2).raise 1212
  else d.setFld (hopFld h) 1

/-- A frame received on a pair: a bad one is counted and discarded, a good one is taken (R412). [Log 133 DEDUCED] -/
def Dev.tieRx (d : Dev) (lane : Nat) (good : Bool) (f : Dev → Dev) : Dev :=
  let h := 1 - lane
  if ¬ d.tieOn then { d with answer := .ignored }
  else if ¬ good then (d.setHop h { d.hop h with good := 0 }).incFld TIE.TIE_COUNTS_CRC_ERRS
  else f ((d.goodFrame h).hear (d.tieNeighbour lane))

/-- A frame of peer `p` that asks for an acknowledgement: it is acknowledged, and taken unless it was taken before (R412).
[Log 40 DESIGN CHOICE] -/
def Dev.tieRxAcked (d : Dev) (lane : Nat) (good : Bool) (p seq : Nat) (f : Dev → Dev) : Dev :=
  d.tieRx lane good fun d =>
    let d := (d.hear p).send (.frame (1 - lane) FRAME.ACK 0 (toBytes 4 seq))
    if d.tie.recvd.contains (p, seq) then d
    else f { d with tie := { d.tie with recvd := ((p, seq) :: d.tie.recvd).take 256 } }

/-! ### Echoes (R413) -/

/-- ECHO_SEND (R412): an ECHO_REQ with its departure time leaves on each pair. -/
def execEchoSend (s : State) : Host.Outcome State Fault Refusal :=
  s.onDev fun d => d.when (d.tieOn && d.due d.tie.echoAt) fun d =>
    let body := toBytes 8 d.now.toNat
    let d : Dev := { d with tie := { d.tie with echo0 := some d.now, echo1 := some d.now, echoAt := d.tie.echoAt + nsT 1000 } }
    (d.send (.frame 0 FRAME.ECHO_REQ 0 body)).send (.frame 1 FRAME.ECHO_REQ 0 body)

/-- ECHO_REQ_RECEIVE (R413): answered on the way back with the residence time, in fine ticks. -/
def execEchoReqReceive (lane : Fin 2) (good : Bool) (departed : DWord) (residence : DWord) (s : State) :
    Host.Outcome State Fault Refusal :=
  s.onDev fun d => d.tieRx lane good fun d =>
    d.send (.frame (1 - lane) FRAME.ECHO_RSP 0 (toBytes 8 departed.toNat ++ toBytes 8 residence.toNat))

/-- The delay d of a hop from an echo: departure, arrival and residence (R413). [Log 134 DEDUCED] -/
def echoDelay (t1 t4 r : Time) : Int := (t4 - t1 - r).toInt / 2

/-- ECHO_RSP_RECEIVE (R413): the response that comes from the next device gives its delay d, also shown in units of 4 ps. -/
def execEchoRspReceive (lane : Fin 2) (good : Bool) (off : Fin 64) (residence : DWord) (s : State) : Host.Outcome State Fault Refusal :=
  s.onDev fun d => d.tieRx lane good fun d =>
    if lane = 0 then { d with tie := { d.tie with echo1 := none } }
    else match d.tie.echo0 with
      | none => d
      | some t1 =>
        let x := echoDelay t1 (d.now + tks off) residence
        ({ d with tie := { d.tie with delay := x, echo0 := none } } : Dev).setFld TIE.TIE_MEAS_HOP_PS
          (clampI 0 0xFFFF (x * 125 / 32)).toNat

/-! ### SYNC and alignment (R413 to R415) -/

/-- A SYNC frame: the master's time at departure and the correction. [Log 40 DESIGN CHOICE] -/
def syncBody (stamp corr : Time) : List Byte := toBytes 8 stamp.toNat ++ toBytes 8 corr.toNat

/-- SYNC_SEND (R413): the master sends SYNC with correction d. -/
def execSyncSend (s : State) : Host.Outcome State Fault Refusal :=
  s.onDev fun d => d.when (d.tieOn && d.tieMaster && d.due d.tie.syncAt) fun d =>
    ({ d with tie := { d.tie with syncAt := d.tie.syncAt + nsT 1000 } } : Dev).send
      (.frame 0 FRAME.SYNC 0 (syncBody d.now (BitVec.ofInt 64 d.tie.delay)))

/-- The error e of a SYNC counted for the alignment (R414). [Log 134 DEDUCED] -/
def Dev.alignSeen (d : Dev) (e : Int) : Dev :=
  let d := d.setFld TIE.TIE_MEAS_ERR_PS (low 16 (clampI (-0x8000) 0x7FFF (e * 125 / 8)))
  let ok := decide (e.natAbs * 125 ≤ d.fld TIE.TIE_ALIGN_TOL_PS * 8)
  let n := if ok then d.tie.run + 1 else 0
  let d : Dev := { d with tie := { d.tie with run := n } }
  d.when (decide (n ≥ 16) && !d.flag TIE.TIE_STATUS_ALIGNED) fun d => (d.setFld TIE.TIE_STATUS_ALIGNED 1).raise 1214

/-- A follower's Milepost takes up a SYNC that arrived at `t` with the estimate `est` (R414): the first one loads it while MP_SET is
open, a later one writes −e to the slew remainder. From then on the master disciplines it (R33 TIE_FOLLOWER).
[Log 134 DEDUCED] -/
def Dev.syncTake (d : Dev) (t est : Time) : Dev :=
  let d := d.setFld MILEPOST.MP_STATUS_TIE_FOLLOWER 1
  if d.flag MILEPOST.MP_STATUS_SET_OPEN ∧ ¬ d.tie.synced then
    ({ d.loadStep (est - t) with tie := { (d.loadStep (est - t)).tie with synced := true } } : Dev).alignSeen 0
  else
    let e := (t - est).toInt
    (({ d with tie := { d.tie with synced := true } } : Dev).setSlew (BitVec.ofInt 32 (clampI (-0x80000000) 0x7FFFFFFF (-e)))).alignSeen e

/-- SYNC_RECEIVE (R413, R414): a follower takes a SYNC that comes from the previous device, and forwards it with its residence and its
own d added. [Log 134 DEDUCED] -/
def execSyncReceive (good : Bool) (off : Fin 64) (stamp corr residence : DWord) (s : State) : Host.Outcome State Fault Refusal :=
  s.onDev fun d => d.tieRx 0 good fun d =>
    if d.tieMaster then d
    else
      let t := d.now + tks off
      let d := (d.hear (d.fld TIE.TIE_CFG_MASTER)).syncTake t (stamp + corr)
      let d : Dev := { d.setFld TIE.TIE_STATUS_MASTER_SEEN 1 with tie := { d.tie with lastSync := d.now } }
      d.send (.frame 0 FRAME.SYNC 0 (syncBody stamp (corr + residence + BitVec.ofInt 64 d.tie.delay)))

/-- TIE_SYNC_LOSS (R415): a follower has received no SYNC for LOSS_US. -/
def execTieSyncLoss (s : State) : Host.Outcome State Fault Refusal :=
  s.onDev fun d => d.when (d.tieOn && !d.tieMaster && (d.flag TIE.TIE_STATUS_MASTER_SEEN || d.flag TIE.TIE_STATUS_ALIGNED)
      && d.due (d.tie.lastSync + d.tieLoss)) fun d =>
    let old := d.reg TIE.TIE_STATUS
    let d : Dev := { (d.setFld TIE.TIE_STATUS_MASTER_SEEN 0).setFld TIE.TIE_STATUS_ALIGNED 0 with tie := { d.tie with run := 0 } }
    let d := d.setFld MILEPOST.MP_STATUS_TIE_FOLLOWER 0
    (d.when (bitOf old.toNat 4) fun d => d.raise 1215).sysRec TIE.TIE_STATUS old

/-- A peer from which nothing has arrived for LOSS_US is lost (R415). [Log 133 DEDUCED] -/
def Dev.peerLoss (d : Dev) (p : Nat) : Dev :=
  d.when (bitOf (d.fld TIE.TIE_STATUS_PEERS) p && d.due (Tab.get 0 p d.tie.heard + d.tieLoss)) fun d =>
    let old := d.reg TIE.TIE_STATUS
    let d := d.setFld TIE.TIE_STATUS_PEERS (putBits (d.fld TIE.TIE_STATUS_PEERS) p p 0)
    (((d.raise 1216).report 0x15 p).sysRec TIE.TIE_STATUS old).abortClaims (0x0700 + BitVec.ofNat 16 p)

/-- TIE_HOP_LOSS (R415): hop `h`, 0 to the next device or 1 from the previous one, has passed no good frame for LOSS_US.
[Log 133 DEDUCED] -/
def execTieHopLoss (h : Fin 2) (s : State) : Host.Outcome State Fault Refusal :=
  s.onDev fun d => d.when (decide (d.fld (hopFld h) ≠ 0) && d.due ((d.hop h).last + d.tieLoss)) fun d =>
    let old := d.reg TIE.TIE_STATUS
    let d := (((d.setHop h { d.hop h with good := 0 }).setFld (hopFld h) 0).raise 1213).sysRec TIE.TIE_STATUS old
    d.each [0, 1, 2, 3] Dev.peerLoss

/-! ### Plan and event frames (R416, R418) -/

/-- The master's agent ID (R34, R411). [Log 135 DEDUCED] -/
def Dev.masterAgent (d : Dev) : AgentId := 0x0700 + BitVec.ofNat 16 (d.fld TIE.TIE_CFG_MASTER)

/-- A grid base of the plan, to apply at `at_`, put in the plan group as the master's AT commit (R416). [Log 135 DEDUCED] -/
def Dev.planStage (d : Dev) (g : Nat) (base at_ : Time) : Dev :=
  let k := grpKey 0x08 0
  let d := d.when (decide ((d.grp k).st = .pending) && decide ((d.grp k).target ≠ at_)) fun d => d.applyDue k
  let d := d.when (decide ((d.grp k).st ≠ .idle) && decide ((d.grp k).owner ≠ d.masterAgent)) fun d => d.abortGrp devAgent k
  let d := d.stageWord d.masterAgent k (TIE.PLAN_T g) (base.setWidth 32)
  let d := d.stageWord d.masterAgent k (TIE.PLAN_T g + 4) ((base >>> 32).setWidth 32)
  let x := d.grp k
  let late := before at_ d.now
  (d.setGrp k { x with st := .pending, mode := .atTime, atT := at_, target := at_,
                       goT := if late then d.now else at_ - commitSetup 0x08 }).applyDue k

/-- PLAN_RECEIVE (R416): a follower applies the plan at its time, or at once where that has passed. [Log 135 DEDUCED] -/
def execPlanReceive (lane : Fin 2) (good : Bool) (g : Fin 16) (base at_ : DWord) (seq : Nat) (s : State) :
    Host.Outcome State Fault Refusal :=
  s.onDev fun d => d.tieRxAcked lane good (d.fld TIE.TIE_CFG_MASTER) seq fun d =>
    d.when (!d.tieMaster) fun d => d.planStage g base at_

/-- TIE_EVENT_RECEIVE (R418): entry `j` of peer `p` is raised here. -/
def execTieEventReceive (lane : Fin 2) (good : Bool) (p : Fin 4) (j : Fin 32) (seq : Nat) (s : State) :
    Host.Outcome State Fault Refusal :=
  s.onDev fun d => d.tieRxAcked lane good p seq fun d => d.raise (1408 + 32 * p + j)

/-! ### Remote access (R419) -/

/-- What a peer reaches: shared SRAM, the thread memories and the peripheral blocks, 32 bits at a time (R364).
[Log 137 DEDUCED] -/
def raReaches (a : Nat) : Bool :=
  decide (a % 4 = 0) && ((decide (0x10000000 ≤ a) && decide (a < 0x10800000)) || (decide (0x20000000 ≤ a) && decide (a < 0x20080000))
    || inPeripherals a)

/-- A peer's access performed and answered; a write that waits for the Ledger is answered when it has been made.
[Log 137 DEDUCED] -/
def Dev.raPerform (d : Dev) (p a v : Nat) (write : Bool) : Dev :=
  let agent : AgentId := 0x0700 + BitVec.ofNat 16 p
  if ¬ raReaches a then d.raRespond p a 0 2 0
  else
    match (if write then d.busWriteFor agent a (toBytes 4 v) else d.busRead 1 agent a 4) with
    | (.done bs, d) => d.raRespond p a (ofBytes bs) 0 0
    | (.rejected c, d) => d.raRespond p a 0 1 c.code
    | (.waits, d) => { d with tie := { d.tie with raHeld := Tab.put p a d.tie.raHeld } }
    | (_, d) => d.raRespond p a 0 2 0

/-- RA_REQ_RECEIVE (R419): peer `p` asks for an access, performed as agent 0x0700 + p. -/
def execRaReqReceive (lane : Fin 2) (good : Bool) (p : Fin 4) (addr data : Word) (write : Bool) (seq : Nat) (s : State) :
    Host.Outcome State Fault Refusal :=
  s.onDev fun d => d.tieRxAcked lane good p seq fun d => d.raPerform p addr.toNat data.toNat write

/-- The remote access in progress ends with a RESULT and a CAUSE. -/
def Dev.raEnd (d : Dev) (result cause : Nat) : Dev :=
  ((d.setFld TIE.RA_STATUS_BUSY 0).setFld TIE.RA_STATUS_DONE 1).setFld TIE.RA_STATUS_RESULT result |>.setFld TIE.RA_STATUS_CAUSE cause

/-- RA_RSP_RECEIVE (R419): the target's answer: 0 OK, 1 REJECT with its cause, 2 ABORT. [Log 137 DEDUCED] -/
def execRaRspReceive (lane : Fin 2) (good : Bool) (p : Fin 4) (data : Word) (result : Fin 3) (cause : Fin 16) (seq : Nat) (s : State) :
    Host.Outcome State Fault Refusal :=
  s.onDev fun d => d.tieRxAcked lane good p seq fun d =>
    d.when (d.flag TIE.RA_STATUS_BUSY && decide (d.tie.raPeer = p.val)) fun d =>
      let d := d.when (!d.tie.raWrite && decide (result.val = 0)) fun d => d.setReg TIE.RA_DATA data
      d.raEnd result (if result.val = 1 then cause else 0)

/-- TIE_RA_TIMEOUT (R419): no answer in 50 µs. -/
def execTieRaTimeout (s : State) : Host.Outcome State Fault Refusal :=
  s.onDev fun d => d.when (d.flag TIE.RA_STATUS_BUSY && d.due (d.tie.raSince + nsT 50000)) fun d => d.raEnd 3 0

/-! ### Acknowledgements (R412) -/

/-- ACK_RECEIVE (R412): peer `p` acknowledges frame `seq`, which is not sent again. [Log 138 DEDUCED] -/
def execAckReceive (lane : Fin 2) (good : Bool) (p : Fin 4) (seq : Nat) (s : State) : Host.Outcome State Fault Refusal :=
  s.onDev fun d => d.tieRx lane good fun d =>
    let d := d.hear p
    { d with tie := { d.tie with unacked := d.tie.unacked.filter fun f => ¬ (f.peer = p.val ∧ f.seq = seq) } }

/-- TIE_RESEND (R412): the first frame that is due is sent again; after eight times it is given up. [Log 138 DEDUCED] -/
def execTieResend (s : State) : Host.Outcome State Fault Refusal :=
  s.onDev fun d =>
    match d.tie.unacked.find? fun f => d.due f.nextAt with
    | none => d
    | some f =>
      if f.sends > 8 then { d with tie := { d.tie with unacked := d.tie.unacked.erase f } }
      else
        let f' := { f with sends := f.sends + 1, nextAt := f.nextAt + nsT 1000 }
        let d : Dev := { d with tie := { d.tie with unacked := d.tie.unacked.map fun x => if x = f then f' else x } }
        (d.incFld TIE.TIE_COUNTS_RESENDS).send (.frame d.tieLane f.typ f.seq f.body)

end Sys2Proof.Machine
end

