-- ==== Sys2Proof/Machine/Writes.lean ====
section
/-!
DEFINITION. Machine/Writes.lean: the commands that are a write of one register, each by any agent. Each has the effect of the
register write of Bus.lean; a command whose word does not ask for the row's action is ignored.
-/
namespace Sys2Proof.Machine

/-- A group control register of block `b` (R64). -/
def grpReg (b : Fin 64) (o : Nat) : Nat := b.val * 0x10000 + o

/-- A register write that asks for the action of its row; another word is ignored. -/
def Dev.writeIf (d : Dev) (asks : Bool) (agent : AgentId) (a : Nat) (v : Word) : Dev :=
  if asks then d.regWrite agent a v else { d with answer := .ignored }

/-- A write of both words of a 64-bit register, low word first (R7). -/
def Dev.writeBoth (d : Dev) (agent : AgentId) (lo : Nat) (v : DWord) : Dev :=
  (d.regWrite agent lo (v.setWidth 32)).regWrite agent (lo + 4) ((v >>> 32).setWidth 32)

/-- REGISTER_WRITE (R49): a write of the register word at key `k`. -/
def execRegisterWrite (a : Agent) (k : Nat) (v : Word) (s : State) : Host.Outcome State Fault Refusal :=
  s.onDev fun d => d.regWrite a.id k v

/-- STAGED_WRITE (R36): a write of a word of STG fields. -/
def execStagedWrite (a : Agent) (k : Nat) (v : Word) (s : State) : Host.Outcome State Fault Refusal :=
  s.onDev fun d => d.writeIf (groupOf k).isSome a.id k v

/-- MP_SET_WRITE (R21): both words of MP_SET, low word first. -/
def execMpSetWrite (a : Agent) (v : DWord) (s : State) : Host.Outcome State Fault Refusal :=
  s.onDev fun d => d.writeBoth a.id MILEPOST.MP_SET v

/-- GRP_AT_WRITE (R37): both words of GRP_AT of block `b`. -/
def execGrpAtWrite (a : Agent) (b : Fin 64) (v : DWord) (s : State) : Host.Outcome State Fault Refusal :=
  s.onDev fun d => d.writeBoth a.id (grpReg b 0xFF18) v

/-- GC_AT_WRITE (R44): both words of GC_AT. -/
def execGcAtWrite (a : Agent) (v : DWord) (s : State) : Host.Outcome State Fault Refusal :=
  s.onDev fun d => d.writeBoth a.id SYS.GC_AT v

/-- COEF_WRITE (R145): coefficient word `i` of set `k` of slot `n`, through the coefficient memory or the block window. -/
def execCoefWrite (a : Agent) (n : Fin 32) (k : Fin 4) (i : Fin 16) (memory : Bool) (v : Word) (s : State) :
    Host.Outcome State Fault Refusal :=
  s.onDev fun d =>
    if memory then (d.busWrite a.id (coefAddr n k i) (toBytes 4 v.toNat)).2
    else d.regWrite a.id ((0x18 + n.val / 16) * 0x10000 + 0x4000 + 0x100 * (n.val % 16) + 0x40 * k.val + 4 * i.val) v

/-- The answer of a read shown. -/
def Dev.showRead : BusAns × Dev → Dev
  | (.done bs, e) => { e with answer := .data bs }
  | (_, e) => { e with answer := .busError }

/-- STREAM_AREA_READ (R108): a read of `n` bytes at offset `off` of a channel's stream area. -/
def execStreamAreaRead (a : Agent) (c : Fin 96) (off n : Nat) (s : State) : Host.Outcome State Fault Refusal :=
  s.onDev fun d =>
    if off + n ≤ 0x400 then Dev.showRead (d.busRead (if a = .host then 5 else 1) a.id (streamAddr c + off) n)
    else { d with answer := .busError }

/-- RAIL_ADD_EVENT (R214): ADD_EVENT reaches rail `r`. -/
def execRailAddEvent (r : Fin 8) (s : State) : Host.Outcome State Fault Refusal :=
  s.onDev fun d => d.when (d.flag (PHASE.PH_RAIL_ADD_ADD_EN r)) fun d => d.railAdd r

/-- MP_CTRL_RETURN (R19): A RETURN command moves the Milepost from QUALIFYING to the reference; in any other state it is logged
as rejected with cause STATE. -/
def execMpCtrlReturn (a : Agent) (v : Word) (s : State) : Host.Outcome State Fault Refusal :=
  s.onDev fun d => d.writeIf (wordBit v 2) a.id MILEPOST.MP_CTRL v

/-- AUTO_RETURN_WRITE (R19): Writing AUTO_RETURN = 1 while REF_STATE is QUALIFYING returns to the reference at the write's safe
point. -/
def execAutoReturnWrite (a : Agent) (v : Word) (s : State) : Host.Outcome State Fault Refusal :=
  s.onDev fun d => d.writeIf (wordBit v 4) a.id MILEPOST.MP_CTRL v

/-- MP_SLEW_WRITE (R22): A write of MP_SLEW replaces the slew remainder and restarts the adjusted-tick count. -/
def execMpSlewWrite (a : Agent) (v : Word) (s : State) : Host.Outcome State Fault Refusal :=
  s.onDev fun d => d.regWrite a.id MILEPOST.MP_SLEW v

/-- SLEW_INTERVAL_WRITE (R22): A write of a new INTERVAL restarts the adjusted-tick count from the moment it takes effect. -/
def execSlewIntervalWrite (a : Agent) (v : Word) (s : State) : Host.Outcome State Fault Refusal :=
  s.onDev fun d => d.regWrite a.id MILEPOST.MP_SLEW_CFG v

/-- LATE_CLEAR (R33): LATE_CLR.CLEAR zeroes LATE_COUNT, LATE_LAST and LATE_SRC. -/
def execLateClear (a : Agent) (v : Word) (s : State) : Host.Outcome State Fault Refusal :=
  s.onDev fun d => d.writeIf (wordBit v 0) a.id MILEPOST.LATE_CLR v

/-- LEDGER_TARGET_WRITE (R57): A write of LG_CTRL.TARGET requests a change between ONCHIP and DRAM, rejected when no DRAM is
trained. -/
def execLedgerTargetWrite (a : Agent) (v : Word) (s : State) : Host.Outcome State Fault Refusal :=
  s.onDev fun d => d.regWrite a.id LEDGER.LG_CTRL v

/-- LG_WIN_SEQ_WRITE (R66): A write of LG_WIN_SEQ copies the on-chip record with that sequence into LG_WIN_DATA, or sets GONE. -/
def execLgWinSeqWrite (a : Agent) (v : Word) (s : State) : Host.Outcome State Fault Refusal :=
  s.onDev fun d => d.regWrite a.id LEDGER.LG_WIN_SEQ v

/-- LEDGER_COUNTERS_CLEAR (R66): LG_CLR.CLEAR zeroes LG_NOR_DROPPED, LG_STALL_COUNT and LG_STALL_MAX. -/
def execLedgerCountersClear (a : Agent) (v : Word) (s : State) : Host.Outcome State Fault Refusal :=
  s.onDev fun d => d.writeIf (wordBit v 0) a.id LEDGER.LG_CLR v

/-- GRP_CLAIM (R37): GRP_CLAIM.CLAIM claims the selected group without staging anything. -/
def execGrpClaim (a : Agent) (b : Fin 64) (v : Word) (s : State) : Host.Outcome State Fault Refusal :=
  s.onDev fun d => d.writeIf (wordBit v 31) a.id (grpReg b 0xFF04) v

/-- GRP_COMMIT_BOUNDARY (R40): GO with MODE BOUNDARY makes the claimed group pending until the unit's next natural boundary. -/
def execGrpCommitBoundary (a : Agent) (b : Fin 64) (v : Word) (s : State) : Host.Outcome State Fault Refusal :=
  s.onDev fun d => d.writeIf (wordBit v 31 && decide (v.toNat % 4 = 0)) a.id (grpReg b 0xFF08) v

/-- GRP_COMMIT_AT (R40): GO with MODE AT makes the claimed group pending for the time held in GRP_AT. -/
def execGrpCommitAt (a : Agent) (b : Fin 64) (v : Word) (s : State) : Host.Outcome State Fault Refusal :=
  s.onDev fun d => d.writeIf (wordBit v 31 && decide (v.toNat % 4 = 1)) a.id (grpReg b 0xFF08) v

/-- GRP_COMMIT_NOW (R40): GO with MODE NOW commits at once, and is rejected with cause RUNNING for a running unit unless the
owning chapter permits it. -/
def execGrpCommitNow (a : Agent) (b : Fin 64) (v : Word) (s : State) : Host.Outcome State Fault Refusal :=
  s.onDev fun d => d.writeIf (wordBit v 31 && decide (v.toNat % 4 = 2)) a.id (grpReg b 0xFF08) v

/-- GRP_ABORT (R38): GRP_ABORT discards the staging copy, cancels a pending commit and releases the claim, with one SYSTEM
record. -/
def execGrpAbort (a : Agent) (b : Fin 64) (v : Word) (s : State) : Host.Outcome State Fault Refusal :=
  s.onDev fun d => d.writeIf (wordBit v 0) a.id (grpReg b 0xFF0C) v

/-- CLAIM_LIMIT_WRITE (R38): A new CLAIM_LIMIT applies to every claim, and claims already older than it are aborted. -/
def execClaimLimitWrite (a : Agent) (v : Word) (s : State) : Host.Outcome State Fault Refusal :=
  s.onDev fun d => d.regWrite a.id SYS.CLAIM_LIMIT v

/-- GC_LIST_WRITE (R44): A write of a GC_LIST entry claims the idle global commit facility for the writer. -/
def execGcListWrite (a : Agent) (n : Fin 64) (v : Word) (s : State) : Host.Outcome State Fault Refusal :=
  s.onDev fun d => d.regWrite a.id (SYS.GC_LIST n) v

/-- GC_GO (R45): GC_CTRL.GO checks the list and makes every listed group pending as GLOBAL, or rejects with cause LIST. -/
def execGcGo (a : Agent) (v : Word) (s : State) : Host.Outcome State Fault Refusal :=
  s.onDev fun d => d.writeIf (wordBit v 31) a.id SYS.GC_CTRL v

/-- GC_CANCEL (R46): GC_CTRL.CANCEL returns the groups of a pending global commit to CLAIMED. -/
def execGcCancel (a : Agent) (v : Word) (s : State) : Host.Outcome State Fault Refusal :=
  s.onDev fun d => d.writeIf (wordBit v 30) a.id SYS.GC_CTRL v

/-- GC_CLEAR (R65): GC_CTRL.CLEAR invalidates the list and releases the facility, rejected while pending. -/
def execGcClear (a : Agent) (v : Word) (s : State) : Host.Outcome State Fault Refusal :=
  s.onDev fun d => d.writeIf (wordBit v 29) a.id SYS.GC_CTRL v

/-- SNAP_REQUEST (R48): SNAP_CTRL.REQUEST schedules a snapshot of the selected blocks, NOW or AT. -/
def execSnapRequest (a : Agent) (v : Word) (s : State) : Host.Outcome State Fault Refusal :=
  s.onDev fun d => d.writeIf (wordBit v 0) a.id SYS.SNAP_CTRL v

/-- FLASH_READ (R93): FL_CTRL.OP = READ copies FL_LEN bytes from the flash to the memory buffer. -/
def execFlashRead (a : Agent) (v : Word) (s : State) : Host.Outcome State Fault Refusal :=
  s.onDev fun d => d.writeIf (decide (v.toNat % 16 = 1)) a.id NVM.FL_CTRL v

/-- FLASH_PROGRAM (R93): FL_CTRL.OP = PROGRAM programs up to one page, rejected for the waypoint or journal, while busy, or
while LOADING. -/
def execFlashProgram (a : Agent) (v : Word) (s : State) : Host.Outcome State Fault Refusal :=
  s.onDev fun d => d.writeIf (decide (v.toNat % 16 = 2)) a.id NVM.FL_CTRL v

/-- FLASH_ERASE_SECTOR (R93): FL_CTRL.OP = ERASE_SECTOR erases one 4 KiB sector, under the same restrictions as PROGRAM. -/
def execFlashEraseSector (a : Agent) (v : Word) (s : State) : Host.Outcome State Fault Refusal :=
  s.onDev fun d => d.writeIf (decide (v.toNat % 16 = 3)) a.id NVM.FL_CTRL v

/-- FLASH_CHECK (R93): FL_CTRL.OP = CHECK runs steps 1 to 4 of the load on the selected copy without applying it. -/
def execFlashCheck (a : Agent) (v : Word) (s : State) : Host.Outcome State Fault Refusal :=
  s.onDev fun d => d.writeIf (decide (v.toNat % 16 = 4)) a.id NVM.FL_CTRL v

/-- JOURNAL_CHECKPOINT (R85): JNL_CTRL.CHECKPOINT forces a checkpoint at once. -/
def execJournalCheckpoint (a : Agent) (v : Word) (s : State) : Host.Outcome State Fault Refusal :=
  s.onDev fun d => d.writeIf (wordBit v 0) a.id NVM.JNL_CTRL v

/-- CALIB_SAVE (R85): JNL_CTRL.CALIB_SAVE saves the truing results as CALIB entries now. -/
def execCalibSave (a : Agent) (v : Word) (s : State) : Host.Outcome State Fault Refusal :=
  s.onDev fun d => d.writeIf (wordBit v 1) a.id NVM.JNL_CTRL v

/-- WP_RELEASE (R89): WP_CTRL.RELEASE erases the waypoint sector and clears FOUND. -/
def execWpRelease (a : Agent) (v : Word) (s : State) : Host.Outcome State Fault Refusal :=
  s.onDev fun d => d.writeIf (wordBit v 0) a.id NVM.WP_CTRL v

/-- ADC_RELEASE (R108): CH_CLR.RELEASE releases every ready half of the channel. -/
def execAdcRelease (a : Agent) (c : Fin 96) (v : Word) (s : State) : Host.Outcome State Fault Refusal :=
  s.onDev fun d => d.writeIf (wordBit v 1) a.id (ADC.CH_CLR c) v

/-- ADC_DROPS_CLEAR (R116): CH_CLR.CLEAR zeroes CH_DROPS. -/
def execAdcDropsClear (a : Agent) (c : Fin 96) (v : Word) (s : State) : Host.Outcome State Fault Refusal :=
  s.onDev fun d => d.writeIf (wordBit v 0) a.id (ADC.CH_CLR c) v

/-- CMP_TEST_SEQUENCE (R132): CMP_TEST.OP = SEQUENCE runs self-test steps 1 to 6 on the comparator. -/
def execCmpTestSequence (a : Agent) (n : Fin 192) (v : Word) (s : State) : Host.Outcome State Fault Refusal :=
  s.onDev fun d => d.writeIf (decide (v.toNat % 8 = 1)) a.id (COMP.CMP_TEST n) v

/-- CMP_TEST_TIE_TRIP (R132): CMP_TEST.OP = TIE_TRIP runs step 1, the TIE_TRIP check and step 6. -/
def execCmpTestTieTrip (a : Agent) (n : Fin 192) (v : Word) (s : State) : Host.Outcome State Fault Refusal :=
  s.onDev fun d => d.writeIf (decide (v.toNat % 8 = 2)) a.id (COMP.CMP_TEST n) v

/-- CMP_TEST_TIE_CLEAR (R132): CMP_TEST.OP = TIE_CLEAR runs step 1, the TIE_CLEAR check and step 6. -/
def execCmpTestTieClear (a : Agent) (n : Fin 192) (v : Word) (s : State) : Host.Outcome State Fault Refusal :=
  s.onDev fun d => d.writeIf (decide (v.toNat % 8 = 3)) a.id (COMP.CMP_TEST n) v

/-- CMP_TEST_SWAP (R132): CMP_TEST.OP = SWAP runs step 1, the SWAP check and step 6. -/
def execCmpTestSwap (a : Agent) (n : Fin 192) (v : Word) (s : State) : Host.Outcome State Fault Refusal :=
  s.onDev fun d => d.writeIf (decide (v.toNat % 8 = 4)) a.id (COMP.CMP_TEST n) v

/-- COMP_COUNT_CLEAR (R135): CMP_TEST.CLEAR zeroes CMP_COUNT. -/
def execCompCountClear (a : Agent) (n : Fin 192) (v : Word) (s : State) : Host.Outcome State Fault Refusal :=
  s.onDev fun d => d.writeIf (wordBit v 8) a.id (COMP.CMP_TEST n) v

/-- SP_JUMP (R150): SLOT_CMD.SP_JUMP makes the next evaluation take the set-point target at once. -/
def execSpJump (a : Agent) (n : Fin 32) (v : Word) (s : State) : Host.Outcome State Fault Refusal :=
  s.onDev fun d => d.writeIf (wordBit v 2) a.id (LOOP.SLOT_CMD n) v

/-- ZERO_HIST (R144): SLOT_CMD.ZERO_HIST zeroes every history at the next safe point, rejected in RUN. -/
def execZeroHist (a : Agent) (n : Fin 32) (v : Word) (s : State) : Host.Outcome State Fault Refusal :=
  s.onDev fun d => d.writeIf (wordBit v 1) a.id (LOOP.SLOT_CMD n) v

/-- SLOT_COUNTS_CLEAR (R160): SLOT_CMD.CLEAR zeroes SLOT_COUNTS. -/
def execSlotCountsClear (a : Agent) (n : Fin 32) (v : Word) (s : State) : Host.Outcome State Fault Refusal :=
  s.onDev fun d => d.writeIf (wordBit v 0) a.id (LOOP.SLOT_CMD n) v

/-- SUP_RETURN (R171): SUP_CMD.RETURN schedules a FAULTY slice's return at SUP_RETURN_AT, or is rejected with cause STATE. -/
def execSupReturn (a : Agent) (v : Word) (s : State) : Host.Outcome State Fault Refusal :=
  s.onDev fun d => d.writeIf (wordBit v 8) a.id LOOP.SUP_CMD v

/-- TRC_ARM (R174): TRC_CMD.ARM restarts a SINGLE capture at index 0. -/
def execTrcArm (a : Agent) (u : Fin 4) (v : Word) (s : State) : Host.Outcome State Fault Refusal :=
  s.onDev fun d => d.writeIf (wordBit v 2) a.id (LOOP.TRC_CMD u) v

/-- TRC_FORCE (R174): TRC_CMD.FORCE triggers the capture at the next record. -/
def execTrcForce (a : Agent) (u : Fin 4) (v : Word) (s : State) : Host.Outcome State Fault Refusal :=
  s.onDev fun d => d.writeIf (wordBit v 1) a.id (LOOP.TRC_CMD u) v

/-- TRC_STOP (R174): TRC_CMD.STOP ends the capture or stream where it stands. -/
def execTrcStop (a : Agent) (u : Fin 4) (v : Word) (s : State) : Host.Outcome State Fault Refusal :=
  s.onDev fun d => d.writeIf (wordBit v 0) a.id (LOOP.TRC_CMD u) v

/-- TIM_ADJ (R202): A TIM_ADJ write changes the length of the first period starting at least 20 ns later. -/
def execTimAdj (a : Agent) (t : Fin 48) (v : Word) (s : State) : Host.Outcome State Fault Refusal :=
  s.onDev fun d => d.regWrite a.id (PWM.TIM_ADJ t) v

/-- TIM_FORCE_RELEASE (R196): A FORCE field of RELEASE schedules the output's return to normal drive. -/
def execTimForceRelease (a : Agent) (t : Fin 48) (v : Word) (s : State) : Host.Outcome State Fault Refusal :=
  s.onDev fun d => d.writeIf (decide (bitsOf v.toNat 2 0 = 1) || decide (bitsOf v.toNat 10 8 = 1)) a.id (PWM.TIM_FORCE t) v

/-- TIM_FORCE_MAIN (R196): A FORCE field of MAIN schedules a forced MAIN drive state. -/
def execTimForceMain (a : Agent) (t : Fin 48) (v : Word) (s : State) : Host.Outcome State Fault Refusal :=
  s.onDev fun d => d.writeIf (decide (bitsOf v.toNat 2 0 = 2) || decide (bitsOf v.toNat 10 8 = 2)) a.id (PWM.TIM_FORCE t) v

/-- TIM_FORCE_COMP (R196): A FORCE field of COMP schedules a forced COMP drive state. -/
def execTimForceComp (a : Agent) (t : Fin 48) (v : Word) (s : State) : Host.Outcome State Fault Refusal :=
  s.onDev fun d => d.writeIf (decide (bitsOf v.toNat 2 0 = 3) || decide (bitsOf v.toNat 10 8 = 3)) a.id (PWM.TIM_FORCE t) v

/-- TIM_FORCE_OFF (R196): A FORCE field of OFF schedules a forced NONE drive state. -/
def execTimForceOff (a : Agent) (t : Fin 48) (v : Word) (s : State) : Host.Outcome State Fault Refusal :=
  s.onDev fun d => d.writeIf (decide (bitsOf v.toNat 2 0 = 4) || decide (bitsOf v.toNat 10 8 = 4)) a.id (PWM.TIM_FORCE t) v

/-- TIM_FORCE_HIZ (R196): A FORCE field of HIZ schedules a forced HIZ drive state. -/
def execTimForceHiz (a : Agent) (t : Fin 48) (v : Word) (s : State) : Host.Outcome State Fault Refusal :=
  s.onDev fun d => d.writeIf (decide (bitsOf v.toNat 2 0 = 5) || decide (bitsOf v.toNat 10 8 = 5)) a.id (PWM.TIM_FORCE t) v

/-- TIM_TRIP_CLR (R200): TIM_CLR.TRIP_CLR clears a latched trip while both LATCH inputs are low, or is rejected with cause
STATE. -/
def execTimTripClr (a : Agent) (t : Fin 48) (v : Word) (s : State) : Host.Outcome State Fault Refusal :=
  s.onDev fun d => d.writeIf (wordBit v 2) a.id (PWM.TIM_CLR t) v

/-- TIMER_COUNTS_CLEAR (R208): TIM_CLR.CLEAR zeroes TIM_COUNTS, TIM_TRIPS and TIM_INSERTS. -/
def execTimerCountsClear (a : Agent) (t : Fin 48) (v : Word) (s : State) : Host.Outcome State Fault Refusal :=
  s.onDev fun d => d.writeIf (wordBit v 1) a.id (PWM.TIM_CLR t) v

/-- RAIL_ACTIVE_WRITE (R214): A write of PH_RAIL_CTRL.ACTIVE changes the effective count N. -/
def execRailActiveWrite (a : Agent) (r : Fin 8) (v : Word) (s : State) : Host.Outcome State Fault Refusal :=
  s.onDev fun d => d.regWrite a.id (PHASE.PH_RAIL_CTRL r) v

/-- PH_FAIL (R217): PH_PHASE_CMD.FAIL marks the named phase FAILED. -/
def execPhFail (a : Agent) (v : Word) (s : State) : Host.Outcome State Fault Refusal :=
  s.onDev fun d => d.writeIf (wordBit v 8) a.id PHASE.PH_PHASE_CMD v

/-- PH_CLEAR_FAIL (R217): PH_PHASE_CMD.CLEAR_FAIL clears a failure; the phase is parked or becomes a ready spare. -/
def execPhClearFail (a : Agent) (v : Word) (s : State) : Host.Outcome State Fault Refusal :=
  s.onDev fun d => d.writeIf (wordBit v 9) a.id PHASE.PH_PHASE_CMD v

/-- RAIL_COUNTS_CLEAR (R228): PH_RAIL_CMD.CLEAR zeroes PH_RAIL_COUNTS. -/
def execRailCountsClear (a : Agent) (r : Fin 8) (v : Word) (s : State) : Host.Outcome State Fault Refusal :=
  s.onDev fun d => d.writeIf (wordBit v 0) a.id (PHASE.PH_RAIL_CMD r) v

/-- WIT_CLEAR_FAULT (R229): WIT_CMD.CLEAR_FAULT clears FAULTED and RUN. -/
def execWitClearFault (a : Agent) (p : Fin 96) (v : Word) (s : State) : Host.Outcome State Fault Refusal :=
  s.onDev fun d => d.writeIf (wordBit v 1) a.id (WITNESS.WIT_CMD p) v

/-- WIT_CLEAR (R229): WIT_CMD.CLEAR zeroes WIT_COUNT and WORST_PS. -/
def execWitClear (a : Agent) (p : Fin 96) (v : Word) (s : State) : Host.Outcome State Fault Refusal :=
  s.onDev fun d => d.writeIf (wordBit v 0) a.id (WITNESS.WIT_CMD p) v

/-- DET_RETURN (R227): DET_CMD.RETURN schedules a detoured timer's return at DET_RETURN_AT, or is rejected with cause STATE. -/
def execDetReturn (a : Agent) (v : Word) (s : State) : Host.Outcome State Fault Refusal :=
  s.onDev fun d => d.writeIf (wordBit v 31) a.id WITNESS.DET_CMD v

/-- THR_HALT (R337): THR_CMD.HALT halts the thread at its next slot boundary. -/
def execThrHalt (a : Agent) (n : Fin 64) (v : Word) (s : State) : Host.Outcome State Fault Refusal :=
  s.onDev fun d => d.writeIf (wordBit v 0) a.id (ROUND.THR_CMD n) v

/-- THR_RESUME (R337): THR_CMD.RESUME issues from THR_PC at the next slot. -/
def execThrResume (a : Agent) (n : Fin 64) (v : Word) (s : State) : Host.Outcome State Fault Refusal :=
  s.onDev fun d => d.writeIf (wordBit v 1) a.id (ROUND.THR_CMD n) v

/-- THR_STEP (R337): THR_CMD.STEP runs one instruction and halts. -/
def execThrStep (a : Agent) (n : Fin 64) (v : Word) (s : State) : Host.Outcome State Fault Refusal :=
  s.onDev fun d => d.writeIf (wordBit v 2) a.id (ROUND.THR_CMD n) v

/-- THR_RESET (R336): THR_CMD.RESET resets the thread between instructions, discarding its actions, schedule, records and
claims. -/
def execThrReset (a : Agent) (n : Fin 64) (v : Word) (s : State) : Host.Outcome State Fault Refusal :=
  s.onDev fun d => d.writeIf (wordBit v 3) a.id (ROUND.THR_CMD n) v

/-- THR_CLEAR (R341): THR_CMD.CLEAR zeroes THR_RETIRED and the W1C flags of THR_STATUS. -/
def execThrClear (a : Agent) (n : Fin 64) (v : Word) (s : State) : Host.Outcome State Fault Refusal :=
  s.onDev fun d => d.writeIf (wordBit v 4) a.id (ROUND.THR_CMD n) v

/-- ENG_STOP (R351): ENG_CMD STOP stops the logic, letting queued operations finish. -/
def execEngStop (a : Agent) (e : Fin 40) (v : Word) (s : State) : Host.Outcome State Fault Refusal :=
  s.onDev fun d => d.writeIf (decide (v.toNat % 8 = 1)) a.id (PENG.ENG_CMD e) v

/-- ENG_STOP_DISCARD (R351): ENG_CMD STOP_DISCARD stops the logic and discards queued operations. -/
def execEngStopDiscard (a : Agent) (e : Fin 40) (v : Word) (s : State) : Host.Outcome State Fault Refusal :=
  s.onDev fun d => d.writeIf (decide (v.toNat % 8 = 2)) a.id (PENG.ENG_CMD e) v

/-- ENG_RESUME (R351): ENG_CMD RESUME schedules continuation at PC at start time T. -/
def execEngResume (a : Agent) (e : Fin 40) (v : Word) (s : State) : Host.Outcome State Fault Refusal :=
  s.onDev fun d => d.writeIf (decide (v.toNat % 8 = 3)) a.id (PENG.ENG_CMD e) v

/-- ENG_RESTART (R351): ENG_CMD RESTART schedules a cleared start at address 0 at time T. -/
def execEngRestart (a : Agent) (e : Fin 40) (v : Word) (s : State) : Host.Outcome State Fault Refusal :=
  s.onDev fun d => d.writeIf (decide (v.toNat % 8 = 4)) a.id (PENG.ENG_CMD e) v

/-- ENG_FLUSH (R351): ENG_CMD FLUSH empties both FIFOs of a stopped engine. -/
def execEngFlush (a : Agent) (e : Fin 40) (v : Word) (s : State) : Host.Outcome State Fault Refusal :=
  s.onDev fun d => d.writeIf (decide (v.toNat % 8 = 5)) a.id (PENG.ENG_CMD e) v

/-- GSTART_RESTART (R352): GSTART_CMD.GO with MODE RESTART starts every named engine at GSTART_AT. -/
def execGstartRestart (a : Agent) (v : Word) (s : State) : Host.Outcome State Fault Refusal :=
  s.onDev fun d => d.writeIf (wordBit v 31 && !wordBit v 0) a.id PENG.GSTART_CMD v

/-- GSTART_RESUME (R352): GSTART_CMD.GO with MODE RESUME resumes every named engine at GSTART_AT. -/
def execGstartResume (a : Agent) (v : Word) (s : State) : Host.Outcome State Fault Refusal :=
  s.onDev fun d => d.writeIf (wordBit v 31 && wordBit v 0) a.id PENG.GSTART_CMD v

/-- ENG_PROG_WRITE (R351): A program word written while the engine is stopped enters a PROGRAM record. -/
def execEngProgWrite (a : Agent) (e : Fin 40) (i : Fin 32) (v : Word) (s : State) : Host.Outcome State Fault Refusal :=
  s.onDev fun d => d.regWrite a.id (PENG.ENG_PROG (32 * e.val + i.val)) v

/-- ENG_OWNER_WRITE (R355): A write of ENG_OWNER changes the engine's owning thread with an OWNER record. -/
def execEngOwnerWrite (a : Agent) (e : Fin 40) (v : Word) (s : State) : Host.Outcome State Fault Refusal :=
  s.onDev fun d => d.regWrite a.id (PENG.ENG_OWNER e) v

/-- PIN_OWN_WRITE (R355): A permitted PIN_OWN write changes a pin's function, index or agent with an OWNER record. -/
def execPinOwnWrite (a : Agent) (p : Fin 160) (v : Word) (s : State) : Host.Outcome State Fault Refusal :=
  s.onDev fun d => d.regWrite a.id (PINMUX.PIN_OWN p) v

/-- PIN_SOFT_WRITE (R359): A write of PIN_SOFT.LEVEL by AGENT drives a SOFT pin within 20 ns / 30 ns. -/
def execPinSoftWrite (a : Agent) (p : Fin 160) (v : Word) (s : State) : Host.Outcome State Fault Refusal :=
  s.onDev fun d => d.regWrite a.id (PINMUX.PIN_SOFT p) v

/-- PIN_INTF_CLEAR (R358): Clearing an interrupt flag while a HIGH or LOW level holds raises the event again. -/
def execPinIntfClear (a : Agent) (w : Fin 5) (v : Word) (s : State) : Host.Outcome State Fault Refusal :=
  s.onDev fun d => d.regWrite a.id (PINMUX.PIN_INTF w) v

/-- RETIRE_WRITE (R368): A RETIRE entry write starts a retirement copy, rejected with cause STATE if invalid. -/
def execRetireWrite (a : Agent) (i : Fin 128) (v : Word) (s : State) : Host.Outcome State Fault Refusal :=
  s.onDev fun d => d.regWrite a.id (MEMCTL.RETIRE i) v

/-- DRAM_TRAIN (R369): DRAM_CTRL.TRAINc starts training DRAM channel c. -/
def execDramTrain (a : Agent) (v : Word) (s : State) : Host.Outcome State Fault Refusal :=
  s.onDev fun d => d.writeIf (wordBit v 0 || wordBit v 1) a.id MEMCTL.DRAM_CTRL v

/-- ERR_POP (R374): ERR_POP removes the oldest error log entry. -/
def execErrPop (a : Agent) (v : Word) (s : State) : Host.Outcome State Fault Refusal :=
  s.onDev fun d => d.writeIf (wordBit v 0) a.id MEMCTL.ERR_POP v

/-- MEM_CLR (R375): MEM_CLR.CLEAR zeroes the ECC counts and LOST and re-arms ECC_CORR_LIMIT. -/
def execMemClr (a : Agent) (v : Word) (s : State) : Host.Outcome State Fault Refusal :=
  s.onDev fun d => d.writeIf (wordBit v 0) a.id MEMCTL.MEM_CLR v

/-- ECC_FLIP_WRITE (R376): A write of ECC_FLIP with ARM arms one error injection, logged as LIVE. -/
def execEccFlipWrite (a : Agent) (v : Word) (s : State) : Host.Outcome State Fault Refusal :=
  s.onDev fun d => d.regWrite a.id MEMCTL.ECC_FLIP v

/-- PASS_START (R379): PASS_CMD.START begins a scrub pass over the range in SERVICE mode. -/
def execPassStart (a : Agent) (v : Word) (s : State) : Host.Outcome State Fault Refusal :=
  s.onDev fun d => d.writeIf (wordBit v 0) a.id SCRUB.PASS_CMD v

/-- PASS_STOP (R379): PASS_CMD.STOP ends the pass early with RESULT STOPPED. -/
def execPassStop (a : Agent) (v : Word) (s : State) : Host.Outcome State Fault Refusal :=
  s.onDev fun d => d.writeIf (wordBit v 1) a.id SCRUB.PASS_CMD v

/-- DMA_START (R388): CH_CTRL.START fetches the descriptor at CH_DESC and records the channel's agent. -/
def execDmaStart (a : Agent) (c : Fin 16) (v : Word) (s : State) : Host.Outcome State Fault Refusal :=
  s.onDev fun d => d.writeIf (wordBit v 0) a.id (DMA.CH_CTRL c) v

/-- DMA_STOP (R388): CH_CTRL.STOP issues no further beat and ends in ERROR with cause STOPPED. -/
def execDmaStop (a : Agent) (c : Fin 16) (v : Word) (s : State) : Host.Outcome State Fault Refusal :=
  s.onDev fun d => d.writeIf (wordBit v 1) a.id (DMA.CH_CTRL c) v

/-- DMA_TRIGGER (R383): CH_CTRL.TRIGGER sets the channel's trigger pending bit. -/
def execDmaTrigger (a : Agent) (c : Fin 16) (v : Word) (s : State) : Host.Outcome State Fault Refusal :=
  s.onDev fun d => d.writeIf (wordBit v 2) a.id (DMA.CH_CTRL c) v

/-- DMA_CLEAR (R392): CH_CTRL.CLEAR clears CH_FLAGS and MERGED. -/
def execDmaClear (a : Agent) (c : Fin 16) (v : Word) (s : State) : Host.Outcome State Fault Refusal :=
  s.onDev fun d => d.writeIf (wordBit v 3) a.id (DMA.CH_CTRL c) v

/-- SW_RAISE (R398): A logged write of SW_RAISE raises a software event with a value. -/
def execSwRaise (a : Agent) (v : Word) (s : State) : Host.Outcome State Fault Refusal :=
  s.onDev fun d => d.regWrite a.id JUNCTION.SW_RAISE v

/-- HOST_DOORBELL (R424): A DOORBELL write raises HOST_DOORBELL_n for each bit set. -/
def execHostDoorbell (a : Agent) (v : Word) (s : State) : Host.Outcome State Fault Refusal :=
  s.onDev fun d => d.regWrite a.id HOST.DOORBELL v

/-- RING_TAIL_WRITE (R403): The host writes RING_TAIL, rejected when it moves backward or passes HEAD. -/
def execRingTailWrite (a : Agent) (r : Fin 8) (v : Word) (s : State) : Host.Outcome State Fault Refusal :=
  s.onDev fun d => d.regWrite a.id (HOST.RING_TAIL r) v

/-- RING_ENABLE (R403): Setting RING_CTRL.EN zeroes HEAD and TAIL and enables the ring. -/
def execRingEnable (a : Agent) (r : Fin 8) (v : Word) (s : State) : Host.Outcome State Fault Refusal :=
  s.onDev fun d => d.writeIf (wordBit v 31) a.id (HOST.RING_CTRL r) v

/-- TIE_RA_READ (R419): RA_CTRL.GO with WRITE = 0 sends a remote read to PEER. -/
def execTieRaRead (a : Agent) (v : Word) (s : State) : Host.Outcome State Fault Refusal :=
  s.onDev fun d => d.writeIf (wordBit v 31 && !wordBit v 4) a.id TIE.RA_CTRL v

/-- TIE_RA_WRITE (R419): RA_CTRL.GO with WRITE = 1 sends a remote write of RA_DATA to PEER. -/
def execTieRaWrite (a : Agent) (v : Word) (s : State) : Host.Outcome State Fault Refusal :=
  s.onDev fun d => d.writeIf (wordBit v 31 && wordBit v 4) a.id TIE.RA_CTRL v

/-- DEBUG_READ (R421): DBG_CMD.GO with READ reads at DBG_ADDR into DBG_DATA. -/
def execDebugRead (a : Agent) (v : Word) (s : State) : Host.Outcome State Fault Refusal :=
  s.onDev fun d => d.writeIf (wordBit v 31 && !wordBit v 0) a.id DEBUG.DBG_CMD v

/-- DEBUG_WRITE (R421): DBG_CMD.GO with WRITE writes DBG_DATA at DBG_ADDR. -/
def execDebugWrite (a : Agent) (v : Word) (s : State) : Host.Outcome State Fault Refusal :=
  s.onDev fun d => d.writeIf (wordBit v 31 && wordBit v 0) a.id DEBUG.DBG_CMD v

/-- DBG_HALT (R422): DBG_CORE HALT stops a core, or a lockstep pair, after the current instruction. -/
def execDbgHalt (a : Agent) (v : Word) (s : State) : Host.Outcome State Fault Refusal :=
  s.onDev fun d => d.writeIf (decide (v.toNat % 8 = 1)) a.id DEBUG.DBG_CORE v

/-- DBG_RESUME (R422): DBG_CORE RESUME continues a halted core. -/
def execDbgResume (a : Agent) (v : Word) (s : State) : Host.Outcome State Fault Refusal :=
  s.onDev fun d => d.writeIf (decide (v.toNat % 8 = 2)) a.id DEBUG.DBG_CORE v

/-- DBG_STEP (R422): DBG_CORE STEP runs one instruction of a halted core. -/
def execDbgStep (a : Agent) (v : Word) (s : State) : Host.Outcome State Fault Refusal :=
  s.onDev fun d => d.writeIf (decide (v.toNat % 8 = 3)) a.id DEBUG.DBG_CORE v

/-- CONS_PROPOSE (R431): Party A's PROPOSE is checked, its digest compared, and STATE becomes PROPOSED. -/
def execConsPropose (a : Agent) (v : Word) (s : State) : Host.Outcome State Fault Refusal :=
  s.onDev fun d => d.writeIf (wordBit v 0) a.id PROTECT.CONS_CMD v

/-- CONS_CONFIRM (R432): Party B's matching CONFIRM applies every entry as one commit, or a mismatch is rejected. -/
def execConsConfirm (a : Agent) (v : Word) (s : State) : Host.Outcome State Fault Refusal :=
  s.onDev fun d => d.writeIf (wordBit v 1) a.id PROTECT.CONS_CMD v

/-- CONS_WITHDRAW (R433): Party A withdraws the proposal; RESULT becomes WITHDRAWN and CONS_SEQ increments. -/
def execConsWithdraw (a : Agent) (v : Word) (s : State) : Host.Outcome State Fault Refusal :=
  s.onDev fun d => d.writeIf (wordBit v 2) a.id PROTECT.CONS_CMD v

/-- SAFE_REL (R436): A SAFE_REL write releases fault-manager safe states at each pin's resume point. -/
def execSafeRel (a : Agent) (w : Fin 5) (v : Word) (s : State) : Host.Outcome State Fault Refusal :=
  s.onDev fun d => d.regWrite a.id (FAULT.SAFE_REL w) v

/-- RELEASE_FAULT_N (R437): FM_CMD.RELEASE_FAULT_N releases FAULT_N, rejected while THERM_TRIP holds. -/
def execReleaseFaultN (a : Agent) (v : Word) (s : State) : Host.Outcome State Fault Refusal :=
  s.onDev fun d => d.writeIf (wordBit v 0) a.id FAULT.FM_CMD v

/-- FAULT_COUNTS_CLEAR (R453): FM_CMD.CLEAR zeroes SRC_COUNT and ACTIONS. -/
def execFaultCountsClear (a : Agent) (v : Word) (s : State) : Host.Outcome State Fault Refusal :=
  s.onDev fun d => d.writeIf (wordBit v 1) a.id FAULT.FM_CMD v

/-- DOM_CTRL_WRITE (R441): A DOM_CTRL write powers domains down or up, judged against the state it leaves. -/
def execDomCtrlWrite (a : Agent) (w : Fin 2) (v : Word) (s : State) : Host.Outcome State Fault Refusal :=
  s.onDev fun d => d.regWrite a.id (SUPPLY.DOM_CTRL_0 + 4 * w.val) v

/-- VIO_CFG_WRITE (R444): A VIO_CFG write changes a bank's rail level, rejected unless all its pins are FUNC NONE. -/
def execVioCfgWrite (a : Agent) (v : Word) (s : State) : Host.Outcome State Fault Refusal :=
  s.onDev fun d => d.regWrite a.id SUPPLY.VIO_CFG v

end Sys2Proof.Machine
end

