-- ==== Sys2Proof/Machine/Dispatch.lean ====
section
/-!
DEFINITION. Machine/Dispatch.lean: the meaning of every command, one arm for each constructor of Instr.
-/
namespace Sys2Proof.Machine

def exec (i : Instr) (s : State) : Host.Outcome State Fault Refusal :=
  match i with
  | .timeBaseQualified => Sys2Proof.Machine.execTimeBaseQualified s
  | .backupFallbackTimeout => Sys2Proof.Machine.execBackupFallbackTimeout s
  | .mpNowRead a => Sys2Proof.Machine.execMpNowRead a s
  | .backupTrained => Sys2Proof.Machine.execBackupTrained s
  | .refEdge devPpb => Sys2Proof.Machine.execRefEdge devPpb s
  | .refMissTimeout => Sys2Proof.Machine.execRefMissTimeout s
  | .refQualified => Sys2Proof.Machine.execRefQualified s
  | .mpCtrlReturn a v => Sys2Proof.Machine.execMpCtrlReturn a v s
  | .autoReturnWrite a v => Sys2Proof.Machine.execAutoReturnWrite a v s
  | .mpSetWrite a v => Sys2Proof.Machine.execMpSetWrite a v s
  | .mpSlewWrite a v => Sys2Proof.Machine.execMpSlewWrite a v s
  | .slewIntervalWrite a v => Sys2Proof.Machine.execSlewIntervalWrite a v s
  | .slewAdjustedTick => Sys2Proof.Machine.execSlewAdjustedTick s
  | .lateClear a v => Sys2Proof.Machine.execLateClear a v s
  | .paceMeasurement loop lat => Sys2Proof.Machine.execPaceMeasurement loop lat s
  | .paceUpHoldoffEnd => Sys2Proof.Machine.execPaceUpHoldoffEnd s
  | .paceWindowEnd => Sys2Proof.Machine.execPaceWindowEnd s
  | .registerWrite a k v => Sys2Proof.Machine.execRegisterWrite a k v s
  | .liveFieldApply => Sys2Proof.Machine.execLiveFieldApply s
  | .changeAdmitted => Sys2Proof.Machine.execChangeAdmitted s
  | .ledgerDrain => Sys2Proof.Machine.execLedgerDrain s
  | .ledgerTargetWrite a v => Sys2Proof.Machine.execLedgerTargetWrite a v s
  | .ledgerTargetSwitch => Sys2Proof.Machine.execLedgerTargetSwitch s
  | .lgWinSeqWrite a v => Sys2Proof.Machine.execLgWinSeqWrite a v s
  | .ledgerCountersClear a v => Sys2Proof.Machine.execLedgerCountersClear a v s
  | .stagedWrite a k v => Sys2Proof.Machine.execStagedWrite a k v s
  | .grpClaim a b v => Sys2Proof.Machine.execGrpClaim a b v s
  | .grpAtWrite a b v => Sys2Proof.Machine.execGrpAtWrite a b v s
  | .grpCommitBoundary a b v => Sys2Proof.Machine.execGrpCommitBoundary a b v s
  | .grpCommitAt a b v => Sys2Proof.Machine.execGrpCommitAt a b v s
  | .grpCommitNow a b v => Sys2Proof.Machine.execGrpCommitNow a b v s
  | .commitApply b g => Sys2Proof.Machine.execCommitApply b g s
  | .grpAbort a b v => Sys2Proof.Machine.execGrpAbort a b v s
  | .claimLimitWrite a v => Sys2Proof.Machine.execClaimLimitWrite a v s
  | .claimAgeExpiry b g => Sys2Proof.Machine.execClaimAgeExpiry b g s
  | .gcListWrite a n v => Sys2Proof.Machine.execGcListWrite a n v s
  | .gcAtWrite a v => Sys2Proof.Machine.execGcAtWrite a v s
  | .gcGo a v => Sys2Proof.Machine.execGcGo a v s
  | .gcCancel a v => Sys2Proof.Machine.execGcCancel a v s
  | .gcClear a v => Sys2Proof.Machine.execGcClear a v s
  | .globalCommitApply => Sys2Proof.Machine.execGlobalCommitApply s
  | .snapRequest a v => Sys2Proof.Machine.execSnapRequest a v s
  | .snapshotLatch => Sys2Proof.Machine.execSnapshotLatch s
  | .vinRise => Sys2Proof.Machine.execVinRise s
  | .insertionWaitEnd => Sys2Proof.Machine.execInsertionWaitEnd s
  | .vinGood f => Sys2Proof.Machine.execVinGood f s
  | .supplyOff => Sys2Proof.Machine.execSupplyOff s
  | .pinReset => Sys2Proof.Machine.execPinReset s
  | .pinResetRelease f => Sys2Proof.Machine.execPinResetRelease f s
  | .loaderPollDone => Sys2Proof.Machine.execLoaderPollDone s
  | .loaderPollTimeout => Sys2Proof.Machine.execLoaderPollTimeout s
  | .loaderDelayEnd => Sys2Proof.Machine.execLoaderDelayEnd s
  | .flashReadTimeout => Sys2Proof.Machine.execFlashReadTimeout s
  | .tieAlignWaitEnd => Sys2Proof.Machine.execTieAlignWaitEnd s
  | .tieStartTimeout => Sys2Proof.Machine.execTieStartTimeout s
  | .flashRead a v => Sys2Proof.Machine.execFlashRead a v s
  | .flashProgram a v => Sys2Proof.Machine.execFlashProgram a v s
  | .flashEraseSector a v => Sys2Proof.Machine.execFlashEraseSector a v s
  | .flashCheck a v => Sys2Proof.Machine.execFlashCheck a v s
  | .flashOpDone => Sys2Proof.Machine.execFlashOpDone s
  | .journalAppend => Sys2Proof.Machine.execJournalAppend s
  | .journalMarkerProgram => Sys2Proof.Machine.execJournalMarkerProgram s
  | .journalCheckpoint a v => Sys2Proof.Machine.execJournalCheckpoint a v s
  | .calibSave a v => Sys2Proof.Machine.execCalibSave a v s
  | .calibSaveTimer => Sys2Proof.Machine.execCalibSaveTimer s
  | .journalEraseDone => Sys2Proof.Machine.execJournalEraseDone s
  | .vinFail vin => Sys2Proof.Machine.execVinFail vin s
  | .waypointWrite => Sys2Proof.Machine.execWaypointWrite s
  | .powerLossRestart below => Sys2Proof.Machine.execPowerLossRestart below s
  | .wpRelease a v => Sys2Proof.Machine.execWpRelease a v s
  | .waypointEraseDone => Sys2Proof.Machine.execWaypointEraseDone s
  | .adcSampleInstant c vd => Sys2Proof.Machine.execAdcSampleInstant c vd s
  | .adcTrigger c lead => Sys2Proof.Machine.execAdcTrigger c lead s
  | .adcTimedOccurrence c vd => Sys2Proof.Machine.execAdcTimedOccurrence c vd s
  | .sampleDelivery c => Sys2Proof.Machine.execSampleDelivery c s
  | .adcHalfReady h => Sys2Proof.Machine.execAdcHalfReady h s
  | .streamAreaRead a c off n => Sys2Proof.Machine.execStreamAreaRead a c off n s
  | .adcRelease a c v => Sys2Proof.Machine.execAdcRelease a c v s
  | .adcDropsClear a c v => Sys2Proof.Machine.execAdcDropsClear a c v s
  | .adcTrueStart h => Sys2Proof.Machine.execAdcTrueStart h s
  | .adcTrueDone h offset gain => Sys2Proof.Machine.execAdcTrueDone h offset gain s
  | .compInputCrossing n vd => Sys2Proof.Machine.execCompInputCrossing n vd s
  | .compFilterExpiry n => Sys2Proof.Machine.execCompFilterExpiry n s
  | .compSettleEnd n vd => Sys2Proof.Machine.execCompSettleEnd n vd s
  | .compDisagree c => Sys2Proof.Machine.execCompDisagree c s
  | .compSelftestStart b => Sys2Proof.Machine.execCompSelftestStart b s
  | .compTestCheck b out => Sys2Proof.Machine.execCompTestCheck b out s
  | .cmpTestSequence a n v => Sys2Proof.Machine.execCmpTestSequence a n v s
  | .cmpTestTieTrip a n v => Sys2Proof.Machine.execCmpTestTieTrip a n v s
  | .cmpTestTieClear a n v => Sys2Proof.Machine.execCmpTestTieClear a n v s
  | .cmpTestSwap a n v => Sys2Proof.Machine.execCmpTestSwap a n v s
  | .compCountClear a n v => Sys2Proof.Machine.execCompCountClear a n v s
  | .compBankReady k => Sys2Proof.Machine.execCompBankReady k s
  | .slotEvaluation n agree => Sys2Proof.Machine.execSlotEvaluation n agree s
  | .sliceReady k => Sys2Proof.Machine.execSliceReady k s
  | .pulseRisingEdge n high => Sys2Proof.Machine.execPulseRisingEdge n high s
  | .pulseLoss n => Sys2Proof.Machine.execPulseLoss n s
  | .coefWrite a n k j memory v => Sys2Proof.Machine.execCoefWrite a n k j memory v s
  | .spJump a n v => Sys2Proof.Machine.execSpJump a n v s
  | .zeroHist a n v => Sys2Proof.Machine.execZeroHist a n v s
  | .slotCountsClear a n v => Sys2Proof.Machine.execSlotCountsClear a n v s
  | .detourStateCopy ns => Sys2Proof.Machine.execDetourStateCopy ns s
  | .detourResume => Sys2Proof.Machine.execDetourResume s
  | .spareTest ok => Sys2Proof.Machine.execSpareTest ok s
  | .supReturn a v => Sys2Proof.Machine.execSupReturn a v s
  | .sliceReturnAt k => Sys2Proof.Machine.execSliceReturnAt k s
  | .traceRecord u => Sys2Proof.Machine.execTraceRecord u s
  | .trcArm a u v => Sys2Proof.Machine.execTrcArm a u v s
  | .trcForce a u v => Sys2Proof.Machine.execTrcForce a u v s
  | .trcStop a u v => Sys2Proof.Machine.execTrcStop a u v s
  | .traceStreamWrite u => Sys2Proof.Machine.execTraceStreamWrite u s
  | .timerBoundary t => Sys2Proof.Machine.execTimerBoundary t s
  | .periodEvent t => Sys2Proof.Machine.execPeriodEvent t s
  | .frameStart o => Sys2Proof.Machine.execFrameStart o s
  | .driveEdge o => Sys2Proof.Machine.execDriveEdge o s
  | .deadTimeEnd o => Sys2Proof.Machine.execDeadTimeEnd o s
  | .updateArrival o => Sys2Proof.Machine.execUpdateArrival o s
  | .pwmBankReady b => Sys2Proof.Machine.execPwmBankReady b s
  | .timAdj a t v => Sys2Proof.Machine.execTimAdj a t v s
  | .timForceMain a t v => Sys2Proof.Machine.execTimForceMain a t v s
  | .timForceComp a t v => Sys2Proof.Machine.execTimForceComp a t v s
  | .timForceOff a t v => Sys2Proof.Machine.execTimForceOff a t v s
  | .timForceHiz a t v => Sys2Proof.Machine.execTimForceHiz a t v s
  | .timForceRelease a t v => Sys2Proof.Machine.execTimForceRelease a t v s
  | .forceApply t => Sys2Proof.Machine.execForceApply t s
  | .timTripClr a t v => Sys2Proof.Machine.execTimTripClr a t v s
  | .timerCountsClear a t v => Sys2Proof.Machine.execTimerCountsClear a t v s
  | .syncPinEdge t => Sys2Proof.Machine.execSyncPinEdge t s
  | .lineTrueStart b => Sys2Proof.Machine.execLineTrueStart b s
  | .lineTrueDone b lat gain => Sys2Proof.Machine.execLineTrueDone b lat gain s
  | .lineSwap o => Sys2Proof.Machine.execLineSwap o s
  | .railActiveWrite a r v => Sys2Proof.Machine.execRailActiveWrite a r v s
  | .railAddEvent r => Sys2Proof.Machine.execRailAddEvent r s
  | .phaseMoveDecision o => Sys2Proof.Machine.execPhaseMoveDecision o s
  | .phFail a v => Sys2Proof.Machine.execPhFail a v s
  | .phClearFail a v => Sys2Proof.Machine.execPhClearFail a v s
  | .railCountsClear a r v => Sys2Proof.Machine.execRailCountsClear a r v s
  | .witnessTransition p ps lvl => Sys2Proof.Machine.execWitnessTransition p ps lvl s
  | .witnessWindowEnd p => Sys2Proof.Machine.execWitnessWindowEnd p s
  | .witClearFault a p v => Sys2Proof.Machine.execWitClearFault a p v s
  | .witClear a p v => Sys2Proof.Machine.execWitClear a p v s
  | .witnessBankReady b => Sys2Proof.Machine.execWitnessBankReady b s
  | .timerDetourCopy t => Sys2Proof.Machine.execTimerDetourCopy t s
  | .detourShadowStart t => Sys2Proof.Machine.execDetourShadowStart t s
  | .timerDetourSwitch t => Sys2Proof.Machine.execTimerDetourSwitch t s
  | .spareTakesPins t => Sys2Proof.Machine.execSpareTakesPins t s
  | .detReturn a v => Sys2Proof.Machine.execDetReturn a v s
  | .timerReturn t => Sys2Proof.Machine.execTimerReturn t s
  | .undefinedInstruction c w => Sys2Proof.Machine.execUndefinedInstruction c w s
  | .coreAdd c w => Sys2Proof.Machine.execCoreAdd c w s
  | .coreSub c w => Sys2Proof.Machine.execCoreSub c w s
  | .coreAdc c w => Sys2Proof.Machine.execCoreAdc c w s
  | .coreSbc c w => Sys2Proof.Machine.execCoreSbc c w s
  | .coreAnd c w => Sys2Proof.Machine.execCoreAnd c w s
  | .coreOr c w => Sys2Proof.Machine.execCoreOr c w s
  | .coreXor c w => Sys2Proof.Machine.execCoreXor c w s
  | .coreAndn c w => Sys2Proof.Machine.execCoreAndn c w s
  | .coreSll c w => Sys2Proof.Machine.execCoreSll c w s
  | .coreSrl c w => Sys2Proof.Machine.execCoreSrl c w s
  | .coreSra c w => Sys2Proof.Machine.execCoreSra c w s
  | .coreRor c w => Sys2Proof.Machine.execCoreRor c w s
  | .coreMin c w => Sys2Proof.Machine.execCoreMin c w s
  | .coreMax c w => Sys2Proof.Machine.execCoreMax c w s
  | .coreMinu c w => Sys2Proof.Machine.execCoreMinu c w s
  | .coreMaxu c w => Sys2Proof.Machine.execCoreMaxu c w s
  | .coreSlt c w => Sys2Proof.Machine.execCoreSlt c w s
  | .coreSltu c w => Sys2Proof.Machine.execCoreSltu c w s
  | .coreNeg c w => Sys2Proof.Machine.execCoreNeg c w s
  | .coreNot c w => Sys2Proof.Machine.execCoreNot c w s
  | .coreAddi c w => Sys2Proof.Machine.execCoreAddi c w s
  | .coreAddiF c w => Sys2Proof.Machine.execCoreAddiF c w s
  | .coreAndi c w => Sys2Proof.Machine.execCoreAndi c w s
  | .coreOri c w => Sys2Proof.Machine.execCoreOri c w s
  | .coreXori c w => Sys2Proof.Machine.execCoreXori c w s
  | .coreCmpi c w => Sys2Proof.Machine.execCoreCmpi c w s
  | .coreSlli c w => Sys2Proof.Machine.execCoreSlli c w s
  | .coreSrli c w => Sys2Proof.Machine.execCoreSrli c w s
  | .coreSrai c w => Sys2Proof.Machine.execCoreSrai c w s
  | .coreRori c w => Sys2Proof.Machine.execCoreRori c w s
  | .coreLui c w => Sys2Proof.Machine.execCoreLui c w s
  | .coreAddpc c w => Sys2Proof.Machine.execCoreAddpc c w s
  | .coreMul c w => Sys2Proof.Machine.execCoreMul c w s
  | .coreMulh c w => Sys2Proof.Machine.execCoreMulh c w s
  | .coreMulhu c w => Sys2Proof.Machine.execCoreMulhu c w s
  | .coreMulhsu c w => Sys2Proof.Machine.execCoreMulhsu c w s
  | .coreMac c w => Sys2Proof.Machine.execCoreMac c w s
  | .coreMsu c w => Sys2Proof.Machine.execCoreMsu c w s
  | .coreDiv c w => Sys2Proof.Machine.execCoreDiv c w s
  | .coreDivu c w => Sys2Proof.Machine.execCoreDivu c w s
  | .coreRem c w => Sys2Proof.Machine.execCoreRem c w s
  | .coreRemu c w => Sys2Proof.Machine.execCoreRemu c w s
  | .coreQadd c w => Sys2Proof.Machine.execCoreQadd c w s
  | .coreQsub c w => Sys2Proof.Machine.execCoreQsub c w s
  | .coreQaddu c w => Sys2Proof.Machine.execCoreQaddu c w s
  | .coreQsubu c w => Sys2Proof.Machine.execCoreQsubu c w s
  | .coreQneg c w => Sys2Proof.Machine.execCoreQneg c w s
  | .coreQabs c w => Sys2Proof.Machine.execCoreQabs c w s
  | .coreQdmulh c w => Sys2Proof.Machine.execCoreQdmulh c w s
  | .coreSsat c w => Sys2Proof.Machine.execCoreSsat c w s
  | .coreUsat c w => Sys2Proof.Machine.execCoreUsat c w s
  | .coreClz c w => Sys2Proof.Machine.execCoreClz c w s
  | .coreCtz c w => Sys2Proof.Machine.execCoreCtz c w s
  | .corePopc c w => Sys2Proof.Machine.execCorePopc c w s
  | .coreRev c w => Sys2Proof.Machine.execCoreRev c w s
  | .coreRev16 c w => Sys2Proof.Machine.execCoreRev16 c w s
  | .coreSextb c w => Sys2Proof.Machine.execCoreSextb c w s
  | .coreSexth c w => Sys2Proof.Machine.execCoreSexth c w s
  | .coreZextb c w => Sys2Proof.Machine.execCoreZextb c w s
  | .coreZexth c w => Sys2Proof.Machine.execCoreZexth c w s
  | .coreExtu c w => Sys2Proof.Machine.execCoreExtu c w s
  | .coreExts c w => Sys2Proof.Machine.execCoreExts c w s
  | .coreIns c w => Sys2Proof.Machine.execCoreIns c w s
  | .coreLdb c w => Sys2Proof.Machine.execCoreLdb c w s
  | .coreLdbu c w => Sys2Proof.Machine.execCoreLdbu c w s
  | .coreLdh c w => Sys2Proof.Machine.execCoreLdh c w s
  | .coreLdhu c w => Sys2Proof.Machine.execCoreLdhu c w s
  | .coreLdw c w => Sys2Proof.Machine.execCoreLdw c w s
  | .coreLdd c w => Sys2Proof.Machine.execCoreLdd c w s
  | .coreStb c w => Sys2Proof.Machine.execCoreStb c w s
  | .coreSth c w => Sys2Proof.Machine.execCoreSth c w s
  | .coreStw c w => Sys2Proof.Machine.execCoreStw c w s
  | .coreStd c w => Sys2Proof.Machine.execCoreStd c w s
  | .coreLdx c w => Sys2Proof.Machine.execCoreLdx c w s
  | .coreStx c w => Sys2Proof.Machine.execCoreStx c w s
  | .coreAmoswap c w => Sys2Proof.Machine.execCoreAmoswap c w s
  | .coreAmoadd c w => Sys2Proof.Machine.execCoreAmoadd c w s
  | .coreAmocas c w => Sys2Proof.Machine.execCoreAmocas c w s
  | .coreBCc c w => Sys2Proof.Machine.execCoreBCc c w s
  | .coreB c w => Sys2Proof.Machine.execCoreB c w s
  | .coreCall c w => Sys2Proof.Machine.execCoreCall c w s
  | .coreJr c w => Sys2Proof.Machine.execCoreJr c w s
  | .coreCallr c w => Sys2Proof.Machine.execCoreCallr c w s
  | .coreLoop c w => Sys2Proof.Machine.execCoreLoop c w s
  | .coreLoopi c w => Sys2Proof.Machine.execCoreLoopi c w s
  | .coreMfs c w => Sys2Proof.Machine.execCoreMfs c w s
  | .coreMts c w => Sys2Proof.Machine.execCoreMts c w s
  | .coreFence c w => Sys2Proof.Machine.execCoreFence c w s
  | .coreSync c w => Sys2Proof.Machine.execCoreSync c w s
  | .coreIflush c w => Sys2Proof.Machine.execCoreIflush c w s
  | .coreSyscall c w => Sys2Proof.Machine.execCoreSyscall c w s
  | .coreBreak c w => Sys2Proof.Machine.execCoreBreak c w s
  | .coreRete c w => Sys2Proof.Machine.execCoreRete c w s
  | .coreSleep c w => Sys2Proof.Machine.execCoreSleep c w s
  | .corePart c w => Sys2Proof.Machine.execCorePart c w s
  | .partRetire p => Sys2Proof.Machine.execPartRetire p s
  | .coreJoin c w => Sys2Proof.Machine.execCoreJoin c w s
  | .joinComplete p => Sys2Proof.Machine.execJoinComplete p s
  | .joinTimeout c => Sys2Proof.Machine.execJoinTimeout c s
  | .joinPartnerDown c => Sys2Proof.Machine.execJoinPartnerDown c s
  | .coreAtomb c w => Sys2Proof.Machine.execCoreAtomb c w s
  | .coreAtome c w => Sys2Proof.Machine.execCoreAtome c w s
  | .atomDeadline c => Sys2Proof.Machine.execAtomDeadline c s
  | .coreFadd c w => Sys2Proof.Machine.execCoreFadd c w s
  | .coreFsub c w => Sys2Proof.Machine.execCoreFsub c w s
  | .coreFmul c w => Sys2Proof.Machine.execCoreFmul c w s
  | .coreFdiv c w => Sys2Proof.Machine.execCoreFdiv c w s
  | .coreFsqrt c w => Sys2Proof.Machine.execCoreFsqrt c w s
  | .coreFmin c w => Sys2Proof.Machine.execCoreFmin c w s
  | .coreFmax c w => Sys2Proof.Machine.execCoreFmax c w s
  | .coreFsgnj c w => Sys2Proof.Machine.execCoreFsgnj c w s
  | .coreFsgnjn c w => Sys2Proof.Machine.execCoreFsgnjn c w s
  | .coreFsgnjx c w => Sys2Proof.Machine.execCoreFsgnjx c w s
  | .coreFcmpEq c w => Sys2Proof.Machine.execCoreFcmpEq c w s
  | .coreFcmpLt c w => Sys2Proof.Machine.execCoreFcmpLt c w s
  | .coreFcmpLe c w => Sys2Proof.Machine.execCoreFcmpLe c w s
  | .coreFcmpUn c w => Sys2Proof.Machine.execCoreFcmpUn c w s
  | .coreFclass c w => Sys2Proof.Machine.execCoreFclass c w s
  | .coreFcvt c w => Sys2Proof.Machine.execCoreFcvt c w s
  | .coreFcvtW c w => Sys2Proof.Machine.execCoreFcvtW c w s
  | .coreFcvtWu c w => Sys2Proof.Machine.execCoreFcvtWu c w s
  | .coreFcvtFW c w => Sys2Proof.Machine.execCoreFcvtFW c w s
  | .coreFcvtFWu c w => Sys2Proof.Machine.execCoreFcvtFWu c w s
  | .coreFmvX c w => Sys2Proof.Machine.execCoreFmvX c w s
  | .coreFmvF c w => Sys2Proof.Machine.execCoreFmvF c w s
  | .coreFmfc c w => Sys2Proof.Machine.execCoreFmfc c w s
  | .coreFmtc c w => Sys2Proof.Machine.execCoreFmtc c w s
  | .coreFmadd c w => Sys2Proof.Machine.execCoreFmadd c w s
  | .coreFmsub c w => Sys2Proof.Machine.execCoreFmsub c w s
  | .coreFnmadd c w => Sys2Proof.Machine.execCoreFnmadd c w s
  | .coreFnmsub c w => Sys2Proof.Machine.execCoreFnmsub c w s
  | .coreFldx c w => Sys2Proof.Machine.execCoreFldx c w s
  | .coreFstx c w => Sys2Proof.Machine.execCoreFstx c w s
  | .storeBufferDrain c => Sys2Proof.Machine.execStoreBufferDrain c s
  | .orderedAnswer c => Sys2Proof.Machine.execOrderedAnswer c s
  | .interruptEntry c => Sys2Proof.Machine.execInterruptEntry c s
  | .coreWake c => Sys2Proof.Machine.execCoreWake c s
  | .cacheInvalidate c en => Sys2Proof.Machine.execCacheInvalidate c en s
  | .perfClear c en user => Sys2Proof.Machine.execPerfClear c en user s
  | .evcClr c hi v => Sys2Proof.Machine.execEvcClr c hi v s
  | .tollgateMatch p => Sys2Proof.Machine.execTollgateMatch p s
  | .pairLagTimeout p => Sys2Proof.Machine.execPairLagTimeout p s
  | .pairStop p => Sys2Proof.Machine.execPairStop p s
  | .pairMismatchDelivery => Sys2Proof.Machine.execPairMismatchDelivery s
  | .threadWiliumInstruction n => Sys2Proof.Machine.execThreadWiliumInstruction n s
  | .threadIllegal n => Sys2Proof.Machine.execThreadIllegal n s
  | .threadAccessDone n => Sys2Proof.Machine.execThreadAccessDone n s
  | .thrSrd n => Sys2Proof.Machine.execThrSrd n s
  | .thrSwr n => Sys2Proof.Machine.execThrSwr n s
  | .thrSadd n => Sys2Proof.Machine.execThrSadd n s
  | .thrScas n => Sys2Proof.Machine.execThrScas n s
  | .thrSwait n => Sys2Proof.Machine.execThrSwait n s
  | .swaitRelease n => Sys2Proof.Machine.execSwaitRelease n s
  | .thrTnow n => Sys2Proof.Machine.execThrTnow n s
  | .thrTset n => Sys2Proof.Machine.execThrTset n s
  | .thrTget n => Sys2Proof.Machine.execThrTget n s
  | .thrTadd n => Sys2Proof.Machine.execThrTadd n s
  | .thrTaddf n => Sys2Proof.Machine.execThrTaddf n s
  | .thrTleft n => Sys2Proof.Machine.execThrTleft n s
  | .thrWaitt n => Sys2Proof.Machine.execThrWaitt n s
  | .waittExpiry n => Sys2Proof.Machine.execWaittExpiry n s
  | .thrPeriod n => Sys2Proof.Machine.execThrPeriod n s
  | .thrWaitp n => Sys2Proof.Machine.execThrWaitp n s
  | .waitpTarget n => Sys2Proof.Machine.execWaitpTarget n s
  | .thrPstop n => Sys2Proof.Machine.execThrPstop n s
  | .thrWaite n => Sys2Proof.Machine.execThrWaite n s
  | .waiteWake n => Sys2Proof.Machine.execWaiteWake n s
  | .thrSignal n => Sys2Proof.Machine.execThrSignal n s
  | .thrBkpt n => Sys2Proof.Machine.execThrBkpt n s
  | .thrDrv n => Sys2Proof.Machine.execThrDrv n s
  | .thrSmp n => Sys2Proof.Machine.execThrSmp n s
  | .smpSample n => Sys2Proof.Machine.execSmpSample n s
  | .thrEstart n => Sys2Proof.Machine.execThrEstart n s
  | .thrEpush n => Sys2Proof.Machine.execThrEpush n s
  | .epushRoom n => Sys2Proof.Machine.execEpushRoom n s
  | .thrEpull n => Sys2Proof.Machine.execThrEpull n s
  | .epullData n => Sys2Proof.Machine.execEpullData n s
  | .thrEpushn n => Sys2Proof.Machine.execThrEpushn n s
  | .thrEpulln n => Sys2Proof.Machine.execThrEpulln n s
  | .actqRoom n => Sys2Proof.Machine.execActqRoom n s
  | .threadActionApply n => Sys2Proof.Machine.execThreadActionApply n s
  | .thrChOpen n => Sys2Proof.Machine.execThrChOpen n s
  | .chOpenWake n => Sys2Proof.Machine.execChOpenWake n s
  | .thrChPut n => Sys2Proof.Machine.execThrChPut n s
  | .thrChClose n => Sys2Proof.Machine.execThrChClose n s
  | .thrChRecv n => Sys2Proof.Machine.execThrChRecv n s
  | .chRecvWake n => Sys2Proof.Machine.execChRecvWake n s
  | .thrChGet n => Sys2Proof.Machine.execThrChGet n s
  | .thrChDone n => Sys2Proof.Machine.execThrChDone n s
  | .thrChPoll n => Sys2Proof.Machine.execThrChPoll n s
  | .thrHalt a n v => Sys2Proof.Machine.execThrHalt a n v s
  | .thrResume a n v => Sys2Proof.Machine.execThrResume a n v s
  | .thrStep a n v => Sys2Proof.Machine.execThrStep a n v s
  | .thrReset a n v => Sys2Proof.Machine.execThrReset a n v s
  | .thrClear a n v => Sys2Proof.Machine.execThrClear a n v s
  | .gridlockEvaluation r => Sys2Proof.Machine.execGridlockEvaluation r s
  | .ringReady r => Sys2Proof.Machine.execRingReady r s
  | .engBra e => Sys2Proof.Machine.execEngBra e s
  | .engAwait e => Sys2Proof.Machine.execEngAwait e s
  | .awaitSatisfied e => Sys2Proof.Machine.execAwaitSatisfied e s
  | .engSend e => Sys2Proof.Machine.execEngSend e s
  | .engTake e => Sys2Proof.Machine.execEngTake e s
  | .engPins e => Sys2Proof.Machine.execEngPins e s
  | .engDir e => Sys2Proof.Machine.execEngDir e s
  | .engFetch e => Sys2Proof.Machine.execEngFetch e s
  | .fetchStallEnd e => Sys2Proof.Machine.execFetchStallEnd e s
  | .engFetchNb e => Sys2Proof.Machine.execEngFetchNb e s
  | .engStore e => Sys2Proof.Machine.execEngStore e s
  | .engSetk e => Sys2Proof.Machine.execEngSetk e s
  | .engCopy e => Sys2Proof.Machine.execEngCopy e s
  | .engRaise e => Sys2Proof.Machine.execEngRaise e s
  | .engLower e => Sys2Proof.Machine.execEngLower e s
  | .engNote e => Sys2Proof.Machine.execEngNote e s
  | .engineIllegal e => Sys2Proof.Machine.execEngineIllegal e s
  | .pinStageOperation e => Sys2Proof.Machine.execPinStageOperation e s
  | .engStop a e v => Sys2Proof.Machine.execEngStop a e v s
  | .engStopDiscard a e v => Sys2Proof.Machine.execEngStopDiscard a e v s
  | .engResume a e v => Sys2Proof.Machine.execEngResume a e v s
  | .engRestart a e v => Sys2Proof.Machine.execEngRestart a e v s
  | .engFlush a e v => Sys2Proof.Machine.execEngFlush a e v s
  | .engineStart e => Sys2Proof.Machine.execEngineStart e s
  | .gstartRestart a v => Sys2Proof.Machine.execGstartRestart a v s
  | .gstartResume a v => Sys2Proof.Machine.execGstartResume a v s
  | .engProgWrite a e j v => Sys2Proof.Machine.execEngProgWrite a e j v s
  | .engOwnerWrite a e v => Sys2Proof.Machine.execEngOwnerWrite a e v s
  | .engineBankReady k => Sys2Proof.Machine.execEngineBankReady k s
  | .pinOwnWrite a p v => Sys2Proof.Machine.execPinOwnWrite a p v s
  | .levelCrossingEnd p => Sys2Proof.Machine.execLevelCrossingEnd p s
  | .pinSoftWrite a p v => Sys2Proof.Machine.execPinSoftWrite a p v s
  | .pinInputChange p level => Sys2Proof.Machine.execPinInputChange p level s
  | .pinFilterExpiry p => Sys2Proof.Machine.execPinFilterExpiry p s
  | .pinIntfClear a w v => Sys2Proof.Machine.execPinIntfClear a w v s
  | .retireWrite a j v => Sys2Proof.Machine.execRetireWrite a j v s
  | .retireCopyDone j => Sys2Proof.Machine.execRetireCopyDone j s
  | .dramTrain a v => Sys2Proof.Machine.execDramTrain a v s
  | .dramTrainDone c ok => Sys2Proof.Machine.execDramTrainDone c ok s
  | .errPop a v => Sys2Proof.Machine.execErrPop a v s
  | .memClr a v => Sys2Proof.Machine.execMemClr a v s
  | .eccFlipWrite a v => Sys2Proof.Machine.execEccFlipWrite a v s
  | .scrubIdleRead => Sys2Proof.Machine.execScrubIdleRead s
  | .passStart a v => Sys2Proof.Machine.execPassStart a v s
  | .passStop a v => Sys2Proof.Machine.execPassStop a v s
  | .scrubPassBlock => Sys2Proof.Machine.execScrubPassBlock s
  | .dmaStart a c v => Sys2Proof.Machine.execDmaStart a c v s
  | .dmaStop a c v => Sys2Proof.Machine.execDmaStop a c v s
  | .dmaTrigger a c v => Sys2Proof.Machine.execDmaTrigger a c v s
  | .dmaClear a c v => Sys2Proof.Machine.execDmaClear a c v s
  | .dmaDescFetched c => Sys2Proof.Machine.execDmaDescFetched c s
  | .dmaReadAnswered c data => Sys2Proof.Machine.execDmaReadAnswered c data s
  | .dmaWriteAnswered c => Sys2Proof.Machine.execDmaWriteAnswered c s
  | .eventRaise => Sys2Proof.Machine.execEventRaise s
  | .swRaise a v => Sys2Proof.Machine.execSwRaise a v s
  | .hostDoorbell a v => Sys2Proof.Machine.execHostDoorbell a v s
  | .hostBarRead bar off n => Sys2Proof.Machine.execHostBarRead bar off n s
  | .hostBarWrite bar off data => Sys2Proof.Machine.execHostBarWrite bar off data s
  | .hostReadTimeout c => Sys2Proof.Machine.execHostReadTimeout c s
  | .hostLinkDown => Sys2Proof.Machine.execHostLinkDown s
  | .hostLinkUp speed width bme => Sys2Proof.Machine.execHostLinkUp speed width bme s
  | .hostFunctionReset => Sys2Proof.Machine.execHostFunctionReset s
  | .hostRecordWrite r => Sys2Proof.Machine.execHostRecordWrite r s
  | .ringIrqTimeout r => Sys2Proof.Machine.execRingIrqTimeout r s
  | .ringTailWrite a r v => Sys2Proof.Machine.execRingTailWrite a r v s
  | .ringEnable a r v => Sys2Proof.Machine.execRingEnable a r v s
  | .telemetrySnapshot => Sys2Proof.Machine.execTelemetrySnapshot s
  | .echoSend => Sys2Proof.Machine.execEchoSend s
  | .echoReqReceive lane good departed residence => Sys2Proof.Machine.execEchoReqReceive lane good departed residence s
  | .echoRspReceive lane good off residence => Sys2Proof.Machine.execEchoRspReceive lane good off residence s
  | .syncSend => Sys2Proof.Machine.execSyncSend s
  | .syncReceive good off stamp corr residence => Sys2Proof.Machine.execSyncReceive good off stamp corr residence s
  | .planReceive lane good g base at_ seq => Sys2Proof.Machine.execPlanReceive lane good g base at_ seq s
  | .tieEventReceive lane good p j seq => Sys2Proof.Machine.execTieEventReceive lane good p j seq s
  | .raReqReceive lane good p addr data write seq => Sys2Proof.Machine.execRaReqReceive lane good p addr data write seq s
  | .raRspReceive lane good p data result cause seq => Sys2Proof.Machine.execRaRspReceive lane good p data result cause seq s
  | .ackReceive lane good p seq => Sys2Proof.Machine.execAckReceive lane good p seq s
  | .tieResend => Sys2Proof.Machine.execTieResend s
  | .tieSyncLoss => Sys2Proof.Machine.execTieSyncLoss s
  | .tieHopLoss h => Sys2Proof.Machine.execTieHopLoss h s
  | .tieRaRead a v => Sys2Proof.Machine.execTieRaRead a v s
  | .tieRaWrite a v => Sys2Proof.Machine.execTieRaWrite a v s
  | .tieRaTimeout => Sys2Proof.Machine.execTieRaTimeout s
  | .debugRead a v => Sys2Proof.Machine.execDebugRead a v s
  | .debugWrite a v => Sys2Proof.Machine.execDebugWrite a v s
  | .dbgHalt a v => Sys2Proof.Machine.execDbgHalt a v s
  | .dbgResume a v => Sys2Proof.Machine.execDbgResume a v s
  | .dbgStep a v => Sys2Proof.Machine.execDbgStep a v s
  | .consPropose a v => Sys2Proof.Machine.execConsPropose a v s
  | .consConfirm a v => Sys2Proof.Machine.execConsConfirm a v s
  | .consWithdraw a v => Sys2Proof.Machine.execConsWithdraw a v s
  | .consentTimeout => Sys2Proof.Machine.execConsentTimeout s
  | .faultOccurrence => Sys2Proof.Machine.execFaultOccurrence s
  | .safeRel a w v => Sys2Proof.Machine.execSafeRel a w v s
  | .releaseFaultN a v => Sys2Proof.Machine.execReleaseFaultN a v s
  | .faultCountsClear a v => Sys2Proof.Machine.execFaultCountsClear a v s
  | .extFault => Sys2Proof.Machine.execExtFault s
  | .domCtrlWrite a w v => Sys2Proof.Machine.execDomCtrlWrite a w v s
  | .domainReady n => Sys2Proof.Machine.execDomainReady n s
  | .vioCfgWrite a v => Sys2Proof.Machine.execVioCfgWrite a v s
  | .vioLevelReached b => Sys2Proof.Machine.execVioLevelReached b s
  | .railSample vin vint vcore vdda vio0 vio1 vio2 vio3 vio4 => Sys2Proof.Machine.execRailSample vin vint vcore vdda vio0 vio1 vio2 vio3 vio4 s
  | .supplyFault rail => Sys2Proof.Machine.execSupplyFault rail s
  | .tempSample tj => Sys2Proof.Machine.execTempSample tj s
  | .thermHardTrip => Sys2Proof.Machine.execThermHardTrip s
  | .vinFailArm => Sys2Proof.Machine.execVinFailArm s
  | .vintRampDone => Sys2Proof.Machine.execVintRampDone s
  | .memoryInitDone code => Sys2Proof.Machine.execMemoryInitDone code s
  | .evcPendWrite c hi v => Sys2Proof.Machine.execEvcPendWrite c hi v s
  | .extFaultRearm => Sys2Proof.Machine.execExtFaultRearm s
  | .tapOperation op => Sys2Proof.Machine.execTapOperation op s

end Sys2Proof.Machine
end

