-- ==== Sys2Proof/Safety.lean ====
section
/-!
DEFINITION. Safety.lean: the terms in which statements about the block are made: a command that completes with a property of the device
after it, and what a command leaves as it was.
-/
namespace Sys2Proof.Machine

/-- Command `i` completes from `s`: it answers a next state whose queue is that of `s` and whose device has property `P`. -/
def Does (i : Instr) (s : State) (P : Dev → Prop) : Prop :=
  ∃ t : State, exec i s = .next t ∧ t.pending = s.pending ∧ P t.dev

/-- The device `d` with everything of `d'` that answers and records touch: register words, the answer and what was sent, the Ledger and
its mirrors (R54 to R63), events on their way, and memory, into which the Ledger may drain (R57). -/
def Dev.rest (d d' : Dev) : Dev :=
  { d with
    regs := d'.regs
    answer := d'.answer
    sent := d'.sent
    led := d'.led
    hostQ := d'.hostQ
    hostLost := d'.hostLost
    events := d'.events
    flash := { d.flash with queue := d'.flash.queue }
    mem := d'.mem }

/-- Nothing but register words, answers, records and events differs between `d` and `d'`: no unit, no group, and no byte of memory
unless the Ledger drains to DRAM. -/
def Dev.keepsUnits (d d' : Dev) : Prop := d' = d.rest d' ∧ (d.lgDram = false → d'.mem = d.mem)

/-- Every register word is unchanged but those at the keys in `l`, the Ledger's own (block 0x01) and the host rings' (block 0x07),
which records change. -/
def Dev.keepsRegs (d d' : Dev) (l : List Nat) : Prop :=
  ∀ k, k ∉ l → k / 0x10000 ≠ 0x01 → k / 0x10000 ≠ 0x07 → d'.reg k = d.reg k

/-- No record was entered between `d` and `d'`. -/
def Dev.noRecord (d d' : Dev) : Prop :=
  d.led.fresh = [] → d'.led.chip = d.led.chip.take 4096 ∧ d'.reg LEDGER.LG_NEXT_SEQ = d.reg LEDGER.LG_NEXT_SEQ

/-- The on-chip records after the run `l`, newest first, has been entered and put in its place (R54); `d'` is the device then. -/
def Dev.withRun (d d' : Dev) (l : List Record) : List Record :=
  (inPlace l.length (d'.fld LEDGER.LG_STATUS_OCC) (l ++ d.led.chip)).take 4096

/-- Exactly one record was entered between `d` and `d'`: `r`, with the next sequence number, in its place among the records of its
instant (R54). -/
def Dev.oneRecord (d d' : Dev) (r : Record) : Prop :=
  d.led.fresh = [] → d'.led.chip = d.withRun d' [{ r with seq := d.reg LEDGER.LG_NEXT_SEQ }]
    ∧ d'.reg LEDGER.LG_NEXT_SEQ = d.reg LEDGER.LG_NEXT_SEQ + 1

/-- A record of one word, made at `t` outside a commit (R55): FIRST and LAST, with any flags in `fl` beside them. -/
def wordRecord (t : Time) (k : RecKind) (fl : Nat) (origin : AgentId) (a : Nat) (new old : Word) : Record :=
  { kind := k, flags := BitVec.ofNat 8 (3 + fl), origin := origin, time := t, block := BitVec.ofNat 8 (a / 0x10000)
    off := BitVec.ofNat 16 a, new := new, old := old, cseq := 0 }

/-- The events `ids` were raised between `d` and `d'`, in this order, stamped with the present nanosecond (R396). -/
def Dev.raised (d d' : Dev) (ids : List Nat) : Prop :=
  d.events ++ ids.map (fun id => { id := id, stamp := floorNs d.now }) <+: d'.events

/-- The Ledger has room for what a write records (R59): it is on chip, or no change waits and 64 ordinary places are free. -/
def Dev.lgRoom (d : Dev) : Bool :=
  !d.lgDram || (d.led.waiting.isEmpty && decide (d.fld LEDGER.LG_STATUS_OCC + d.ordinary + d.heldPlaces + 64 ≤ 4032))

/-- A register that its block lists at the word `a`, of 32 bits, not staged and not read-only (R6, R36); CONS_CMD, which has an order of
checks of its own (R431), and VIO_CFG, which a strap makes read-only (R454), stand apart. -/
def plainWord (a : Nat) (h : RegHit) : Bool :=
  decide (a % 4 = 0) && blockExists (a / 0x10000) && !isGrpReg a && !isMsix a && !deadWord a
    && (h.r.fields.any fun f => decide (f.acc ≠ .ro)) && !h.r.wide && !h.stg && decide (a ≠ SUPPLY.VIO_CFG)
    && decide (a ≠ PROTECT.CONS_CMD)

/-- A write of `v` to the word at `a` by an agent is taken at once: the write asks for an action if the word holds commands alone, nothing
refuses it (R51), it is at its safe point (R49), and its records find room (R59). -/
def Dev.takes (d : Dev) (agent : AgentId) (a : Nat) (v : Word) : Bool :=
  match regHit a with
  | none => false
  | some h =>
    plainWord a h && !noAction h a v.toNat && (d.writeRefusal agent h a v.toNat).isNone && !d.holdsBack a v && d.lgRoom

/-- A write of `v` to the word at `a` by an agent is refused with cause `c` (R51). -/
def Dev.refuses (d : Dev) (agent : AgentId) (a : Nat) (v : Word) (c : Cause) : Bool :=
  match regHit a with
  | none => false
  | some h => plainWord a h && !noAction h a v.toNat && decide (d.writeRefusal agent h a v.toNat = some c) && d.lgRoom

/-- A write of `v` to the 64-bit register at `lo` by an agent is taken (R7, R51). -/
def Dev.takesWide (d : Dev) (agent : AgentId) (lo : Nat) (v : DWord) : Bool :=
  match regHit lo, regHit (lo + 4) with
  | some h, some u =>
    decide (lo % 4 = 0) && blockExists (lo / 0x10000) && !isGrpReg lo && !isGrpReg (lo + 4) && !isMsix lo && !deadWord lo
      && !deadWord (lo + 4) && (h.r.fields.any fun f => decide (f.acc ≠ .ro)) && h.r.wide && !h.hiWord && u.hiWord && decide (u.r = h.r)
      && !h.stg && (d.writeRefusal agent { u with hiWord := false } lo v.toNat).isNone && d.lgRoom
  | _, _ => false

/-- A write of `v` to the staged word at `a` by an agent is accepted into the staging copy of group `k` (R36, R37, R51). -/
def Dev.stages (d : Dev) (agent : AgentId) (a : Nat) (v : Word) (k : Nat) : Bool :=
  match regHit a with
  | none => false
  | some h =>
    decide (a % 4 = 0) && blockExists (a / 0x10000) && !isGrpReg a && !isMsix a && !deadWord a && h.stg && !h.r.wide
      && (h.r.fields.any fun f => decide (f.acc ≠ .ro)) && decide (a ≠ SUPPLY.VIO_CFG) && !noAction h a v.toNat
      && decide (a ≠ PROTECT.CONS_CMD) && (d.writeRefusal agent h a v.toNat).isNone && decide (groupOf a = some k) && d.lgRoom

/-- An agent may write the group control registers of block `b`, which has groups (R37, R64). -/
def Dev.grpOpen (d : Dev) (agent : AgentId) (b : Nat) : Bool :=
  blockExists b && decide (d.blkLevel agent b ≥ 2) && decide (grpCount b ≠ 0) && d.lgRoom

/-- The records of a group's commit, as `applyGroups` makes them at `t`: those of R43 with the sequence `cs`. -/
def commitRecords (t : Time) (late : Bool) (cs : Half) (l : List (AgentId × Nat × Word × Word)) : List Record :=
  (Dev.logRun t late cs true l {}).led.fresh

/-- The bits of the word at `a` that lie in fields of an access code; 0 where no word is listed. -/
def accBits (a : Nat) (c : Acc) : Word :=
  match regHit a with
  | some h => BitVec.ofNat 32 (h.mask fun x => decide (x = c))
  | none => 0

/-- Why a write of the word at `a` is refused (R51). -/
def Dev.refusalAt (d : Dev) (agent : AgentId) (a : Nat) (v : Word) : Option Cause :=
  match regHit a with
  | some h => d.writeRefusal agent h a v.toNat
  | none => none

/-- The word at `a` after an accepted write of `v` (R8, R9). -/
def Dev.afterWrite (d : Dev) (a : Nat) (v : Word) : Word :=
  match regHit a with
  | some h => d.wordAfter h a v
  | none => d.reg a

/-- Every register word at the keys of `p` is at its reset value: the table of words that differ from it lists none. -/
def Dev.atReset (d : Dev) (p : Nat → Bool) : Bool := d.regs.all fun x => !p x.1 || decide (d.reg x.1 = regReset x.1)

/-- Two tables agree at every key that is not in `l`. -/
def Tab.keeps {α : Type} (dflt : α) (l : List Nat) (t t' : Tab α) : Prop := ∀ k, k ∉ l → Tab.get dflt k t' = Tab.get dflt k t

/-- The registers of an armed injection, which a write of memory may take (R376). -/
def eccWords : List Nat := [MEMCTL.ECC_FLIP_ARM.addr, MEMCTL.ECC_FLIP_STATUS, MEMCTL.ECC_FLIP_STATUS + 4]

/-- The error e of an evaluation, for the set-point `r`, the input `x` and SHIFT (R139). -/
def pidErr (shift : Nat) (r x : Int) : Int := satI 32 ((r - x) * (2 ^ shift : Nat))

/-- y of an evaluation: the coefficient B0, the error e and the partial p, rounded and saturated to 48 bits (R139). -/
def pidY (b0 e p : Int) : Int := satI 48 ((b0 * e * 4096 + p + 2 ^ 27) / 2 ^ 28)

/-- u of an evaluation from yc: rounded to 32 bits, and clamped with the lower limit prevailing (R139). -/
def pidU (yc lo hi : Int) : Int := max lo (min (satI 32 ((yc + 2048) / 4096)) hi)

/-- Every byte of memory outside `lo` to `hi`, the latter excluded, is unchanged. -/
def Dev.bytesKept (d d' : Dev) (lo hi : Nat) : Prop := ∀ k : Nat, k < lo ∨ hi ≤ k → d'.byte k = d.byte k

/-! ### What an instruction of a core leaves (spec/11 to spec/13) -/

/-- The device in which a command begins: nothing answered, nothing sent. -/
def Dev.begun (d : Dev) : Dev := { d with answer := .none, sent := [] }

/-- Core `cs` but for the records its partner is to match (R307). -/
def CoreSt.bare (cs : CoreSt) : CoreSt := { cs with unmatched := [], lagSince := 0 }

/-- The device after core `c` has fetched the word `w` at its PC (R238); no change where its line buffer holds another word there. -/
def Dev.fetched (d : Dev) (c : Nat) (w : Word) : Dev :=
  match d.begun.fetchWord c w with
  | some (_, e) => e
  | none => d.begun

/-- No cause waits at core `c` for the next instruction boundary, no deadline of a split core has passed, no STEP will come, and nothing asks
the core to stop there (R292, R302, R304, R422). -/
def Dev.calm (d : Dev) (c : Nat) : Bool :=
  let cs := d.core c
  cs.escDue.isNone && cs.trapDue.isNone && cs.busErr.isEmpty && cs.stepDue.isNone && !cs.sillHeld && !cs.haltReq
    && (!wordBit (cs.s CORE.STEP_CTRL) 0 || decide (cs.pl ≠ 0)) && (d.pair (c / 2)).haltAt.isNone
    && (d.lockstep c || !d.overdue c)

/-- Core `c` can issue the word `w`: it runs, the word stands at its PC and its fetch raises no exception, and no other cause is due. -/
def Dev.runs (d : Dev) (c : Nat) (w : Word) : Bool :=
  d.begun.canIssue c && d.calm c && match d.begun.fetchWord c w with
    | some (none, _) => true
    | _ => false

/-- Between `e` and `d` only core `c` and the comparison of its pair changed (R307), with no record made. -/
def Dev.ranAlone (e d : Dev) (c : Nat) : Prop :=
  (∀ k, k ≠ c → (d.core k).bare = (e.core k).bare)
    ∧ (∀ p, { d.pair p with declared := none } = { e.pair p with declared := none })
    ∧ { e with cores := d.cores, pairs := d.pairs }.keepsUnits d
    ∧ e.keepsRegs d [CORES.CORE_STATUS c, CORES.CORE_STATUS (partner c), CORES.CORE_PC c] ∧ e.noRecord d ∧ d.answer = .none

/-- The counts of an instruction that retires at a core that had retired `n` (R246, R307). -/
def CoreSt.counted (cs : CoreSt) (n : Nat) : CoreSt := { cs.perfRet with retired := n + 1 }

/-- Between `e` and `d` core `c` retired an instruction that left it as `cs`: the counts of R246 and R307 go up, CORE_PC shows its PC,
and the core runs on. -/
def Dev.retires (e d : Dev) (c : Nat) (cs : CoreSt) : Prop :=
  (d.core c).bare = (cs.counted (e.core c).retired).bare ∧ d.reg (CORES.CORE_PC c) = (e.core c).pc
    ∧ d.coreState c = 2 ∧ e.ranAlone d c

/-- The core gone on to the instruction `len` bytes on, or to where a loop that ends there goes (R272). -/
def CoreSt.thenNext (cs : CoreSt) (len : Nat) : CoreSt := cs.endCheck (cs.pc + BitVec.ofNat 32 len) 4

/-- The word `w`, issued by core `c` in `s`, changed the core as `f` says and went on to the next instruction. -/
def Dev.computes (s d : Dev) (c : Nat) (w : Word) (f : CoreSt → CoreSt) : Prop :=
  (s.fetched c w).retires d c ((f ((s.fetched c w).core c)).thenNext (wordLen w))

/-- The word `w`, issued by core `c` in `s`, changed the core, its PC among the rest, as `f` says. -/
def Dev.jumps (s d : Dev) (c : Nat) (w : Word) (f : CoreSt → CoreSt) : Prop :=
  (s.fetched c w).retires d c (f ((s.fetched c w).core c))

/-- The core with `v` in a general register and STATUS `st`. -/
def CoreSt.puts (cs : CoreSt) (rd : Nat) (v st : Word) : CoreSt := ({ cs with status := st } : CoreSt).setG rd v

/-- A word with bits set and cleared, in turn. -/
def withBits (w : Word) (l : List (Nat × Bool)) : Word :=
  l.foldl (fun w p => if p.2 then w ||| (1#32 <<< p.1) else w &&& ~~~(1#32 <<< p.1)) w

/-- STATUS with N and Z of a result, where `f` holds (R262). -/
def statusNZ (f : Bool) (st v : Word) : Word := if f then withBits st [(16, v.msb), (17, decide (v = 0))] else st

/-- STATUS with the four flags of an addition of `a`, `b` and a carry that gives `v`, where `f` holds: C is the carry out of bit 31, V
that operands of one sign give a result of the other (R262). -/
def statusAdd (f : Bool) (st a b v : Word) (cin : Bool) : Word :=
  if f then withBits (statusNZ true st v)
    [(18, decide (2 ^ 32 ≤ a.toNat + b.toNat + cin.toNat)), (19, a.msb == b.msb && v.msb != a.msb)]
  else st

/-- STATUS with the four flags of a subtraction of `b` and a borrow from `a` that gives `v`, where `f` holds: C is 1 where there is no
borrow, V that operands of different signs give a result of the sign of `b` (R262). -/
def statusSub (f : Bool) (st a b v : Word) (bor : Bool) : Word :=
  if f then withBits (statusNZ true st v) [(18, decide (b.toNat + bor.toNat ≤ a.toNat)), (19, a.msb != b.msb && v.msb == b.msb)]
  else st

/-- STATUS with N and Z of a shift by `n` that gives `v`, where `f` holds, and C where `n` is not 0 (R264). -/
def statusShift (f : Bool) (st v : Word) (n : Nat) (c : Bool) : Word :=
  if f then (if n = 0 then statusNZ true st v else withBits (statusNZ true st v) [(18, c)]) else st

/-- The frame of an entry at `f`, as the store buffer entries that write it: PC and STATUS, cause and address, g1 and g2, g3 and g31
(R297). -/
def CoreSt.frame (cs : CoreSt) (c vec : Nat) (f cause addr pc : Word) : List SbEntry :=
  [(0, cs.status ++ pc), (8, addr ++ cause), (16, cs.rg 2 ++ cs.rg 1), (24, cs.rg 31 ++ cs.rg 3)].map fun p =>
    { core := f + BitVec.ofNat 32 p.1, addr := frameAddr c f + p.1, mask := 255, data := p.2, count := cs.retired, kind := .frame vec }

/-- A section that is active ends and sets BROKEN (R297, R302). -/
def CoreSt.sectionEnded (cs : CoreSt) : CoreSt :=
  if cs.atom.isSome then ({ cs with atom := none } : CoreSt).setSf CORE.ATOM_STATUS 2 2 1 else cs

/-- The core with its EXC registers and running priority written (R291, R293). -/
def CoreSt.caused (cs : CoreSt) (cause addr : Word) (pri : Nat) : CoreSt :=
  ((cs.setS CORE.EXC_CAUSE cause).setS CORE.EXC_ADDR addr).setSf CORE.EVC_RUN 4 0 pri

/-- The core at the handler of vector `vec`, with running priority `pri` (R296 to R298). -/
def CoreSt.handling (cs : CoreSt) (c vec info pri : Nat) (addr pc : Word) : CoreSt :=
  let f := cs.spKernel - 32
  let w : Word := BitVec.ofNat 32 (info * 2 ^ 22 + vec)
  { (({ cs with
      sb := cs.sb ++ cs.frame c vec f w addr pc
      entries := (cs.pl, cs.runPri) :: cs.entries } : CoreSt).sectionEnded.caused w addr pri) with
    spKernel := f, status := withBits cs.status [(0, true), (1, false)], pc := BitVec.ofNat 32 (16 * vec) }

/-- The core at Sill, entered with a cause and the vector that escalated (R305). -/
def CoreSt.atSill (cs : CoreSt) (c cause orig : Nat) (addr pc : Word) : CoreSt :=
  let w : Word := BitVec.ofNat 32 (cause * 2 ^ 22 + orig * 2 ^ 8 + 1)
  { (({ cs with
      sb := cs.sb ++ cs.frame c 1 0x7FFE0 w addr pc
      entries := (cs.pl, cs.runPri) :: cs.entries } : CoreSt).sectionEnded.caused w addr 0x11) with
    spSill := 0x7FFE0, status := withBits cs.status [(0, false), (1, true), (2, false)], pc := 0x10 }

/-- The entry of vector `vec` does not escalate and its frame finds room (R296, R297, R305). -/
def Dev.canEnter (d : Dev) (c vec : Nat) : Bool :=
  let cs := d.core c
  decide (cs.pl < 2) && decide (cs.runPri ≠ 0x10) && cs.frameValid cs.spKernel && decide (cs.entries.length < 32)
    && !d.vectorFaults c vec && decide (cs.sb.length ≤ 4)

/-- Between `e` and `d` core `c` became `cs` without retiring an instruction. -/
def Dev.becomes (e d : Dev) (c : Nat) (cs : CoreSt) : Prop :=
  (d.core c).bare = cs.bare ∧ d.coreState c = e.coreState c ∧ e.ranAlone d c

/-- The fetched word of core `c` raised exception `vec` precisely: the PC saved is its own (R291). -/
def Dev.traps (s d : Dev) (c : Nat) (w : Word) (vec info : Nat) (addr : Word) : Prop :=
  let x := (s.fetched c w).core c
  (s.fetched c w).becomes d c (x.handling c vec info (x.handlerPri vec) addr x.pc)

/-- The word `w`, issued by core `c` in `s`, completed as `f` says and exception `vec` was taken after it: the PC saved is that of the next
instruction (R266, R281, R291). -/
def Dev.trapsAfter (s d : Dev) (c : Nat) (w : Word) (vec info : Nat) (f : CoreSt → CoreSt) : Prop :=
  let e := s.fetched c w
  let x := ((f (e.core c)).thenNext (wordLen w)).counted (e.core c).retired
  e.becomes d c (x.handling c vec info (x.handlerPri vec) 0 x.pc) ∧ d.reg (CORES.CORE_PC c) = (e.core c).pc

/-! ### Loads, stores and atomic operations of a core (R234 to R242, R257 to R261) -/

/-- The `n` bytes from `a`, little-endian. -/
def Dev.le (d : Dev) (a n : Nat) : Nat := ofBytes ((List.range n).map fun i => d.byte (a + i))

/-- A load of `n` bytes at `w` reads the bytes at `a` of the 40-bit map at once: aligned, granted by the MPU, in NORMAL memory that
answers with no error known, with none of its bytes in the store buffer, and, in lockstep, in the own TCM. -/
def Dev.loads (d : Dev) (c : Nat) (w : Word) (n a : Nat) : Bool :=
  let cs := d.core c
  let free := fun p => (List.range n).all fun i => (sbByte cs.sb (p + i)).isNone
  decide (w.toNat % n = 0) && cs.mpuGrants w 1 && d.ecc.isEmpty && match d.place c w with
    | .ownTcm p => decide (p = a) && d.memMapped p n && free p
    | .normal p =>
      !d.lockstep c && d.memMapped p n && (d.ownPlace c p || d.memOpen (d.coreAgent c) p n false) && free p
        && decide ((d.tcmTwins p).headD p = a)
    | _ => false

/-- A store of `n` bytes at `w`, which lies at `a`, enters the store buffer at once: aligned, granted by the MPU, in NORMAL memory, with
an entry free. -/
def Dev.stores (d : Dev) (c : Nat) (w : Word) (n a : Nat) : Bool :=
  let cs := d.core c
  decide (w.toNat % n = 0) && cs.mpuGrants w 2 && decide (cs.sb.length < 8)
    && (decide (d.place c w = .ownTcm a) || decide (d.place c w = .normal a))

/-- An atomic operation at `w`, which lies at `a`, is performed at once: aligned, granted by the MPU, in memory that admits it and answers
with no error known, with the store buffer empty, and, in lockstep, in the own TCM. -/
def Dev.atomics (d : Dev) (c : Nat) (w : Word) (a : Nat) : Bool :=
  let cs := d.core c
  decide (w.toNat % 4 = 0) && cs.mpuGrants w 1 && cs.mpuGrants w 2 && d.ecc.isEmpty && cs.sb.isEmpty && d.memMapped a 4
    && decide (a < 0x10800000)
    && (decide (d.place c w = .ownTcm a)
      || (decide (d.place c w = .normal a) && !d.lockstep c && decide (d.tcmTwins a = [a])
        && (d.ownPlace c a || (d.memOpen (d.coreAgent c) a 4 false && d.memOpen (d.coreAgent c) a 4 true))))

/-- The core with a loaded value of SZ `size` in its general register, or its pair (R257 to R260). -/
def CoreSt.getsG (cs : CoreSt) (sg : Bool) (size rd v : Nat) : CoreSt :=
  if size = 3 then (cs.setG rd (BitVec.ofNat 32 v)).setG (rd + 1) (BitVec.ofNat 32 (v / 2 ^ 32))
  else cs.setG rd (if sg then (BitVec.ofNat (8 * 2 ^ size) v).signExtend 32 else BitVec.ofNat 32 v)

/-- The core with a store of the low `n` bytes of `v` at `w`, which lies at `a`, in its store buffer (R241). -/
def CoreSt.buffers (cs : CoreSt) (w : Word) (n a : Nat) (v : DWord) : CoreSt :=
  { cs with sb := cs.sb ++ [{ core := w, addr := a - a % 8, mask := (2 ^ n - 1) <<< (a % 8)
                              data := (v &&& BitVec.ofNat 64 (2 ^ (8 * n) - 1)) <<< (8 * (a % 8)), count := cs.retired }] }

/-- The value a store of SZ `size` takes from a general register or its pair (R257, R260). -/
def CoreSt.gValue (cs : CoreSt) (size rs : Nat) : DWord :=
  if size = 3 then cs.rg (rs + 1) ++ cs.rg rs else (cs.rg rs).setWidth 64

/-- Between `e` and `d` an atomic operation of core `c` wrote the word `v` at `a`, if any, and left the core as `cs` (R261). -/
def Dev.swaps (e d : Dev) (c a : Nat) (v : Option Word) (cs : CoreSt) : Prop :=
  (d.core c).bare = (cs.counted (e.core c).retired).bare ∧ d.coreState c = 2 ∧ d.answer = .none
    ∧ (e.lgDram = false → (∀ x, v = some x → d.le a 4 = x.toNat) ∧ e.bytesKept d a (if v.isSome then a + 4 else a))
    ∧ (∀ k, k ≠ c → (d.core k).bare = (e.core k).bare)
    ∧ { e with cores := d.cores, pairs := d.pairs, ecc := d.ecc }.rest d = d
    ∧ e.keepsRegs d (CORES.CORE_STATUS c :: CORES.CORE_STATUS (partner c) :: CORES.CORE_PC c :: eccWords)

/-! ### What an instruction of a thread leaves (spec/14) -/

/-- The device as the issue slot of thread `n` begins: a record closed in an earlier step is visible (R318), and GRIDLOCK is armed again
(R339). -/
def Dev.thrSlot (d : Dev) (n : Nat) : Dev :=
  let e := d.begun.stepBefore n
  e.setRing (n / 32) { e.ring (n / 32) with gridArmed := true }

/-- The fetch of thread `n` succeeds: its PC lies in the code part and no error is known (R321, R322). -/
def Dev.thrReads (d : Dev) (n : Nat) : Bool :=
  d.inCode (n / 32) (d.num (ROUND.THR_PC n)) && d.memReady (0x10 + n / 32) && d.ecc.isEmpty

/-- The word at the PC of thread `n`, and the instruction it spells. -/
def Dev.thrWord (d : Dev) (n : Nat) : Word := BitVec.ofNat 32 (d.le (d.num (ROUND.THR_PC n)) 4)
def Dev.thrCode (d : Dev) (n : Nat) : TInstr := tDecode (d.thrWord n)

/-- Thread `n` is RUNNING on a ring that is powered, its fetch succeeds, and nothing asks it to stop after the instruction (R318, R320,
R336, R337). -/
def Dev.thrRuns (d : Dev) (n : Nat) : Bool :=
  let x := d.thr n
  decide (d.thrState n = 1) && d.domReady (16 + n / 32) && d.thrReads n && !x.resetReq && !x.haltReq && !x.stepping
    && decide (d.fld (ROUND.THR_CFG_MODE n) ≠ 0)

/-- Thread `n` waits with a reason, in the instruction at its PC, and nothing asks it to stop after it. -/
def Dev.thrWaits (d : Dev) (n reason : Nat) : Bool :=
  let x := d.thr n
  decide (d.thrState n = 2) && decide (d.thrWait n = reason) && d.thrReads n && !x.resetReq && !x.haltReq && !x.stepping
    && decide (d.fld (ROUND.THR_CFG_MODE n) ≠ 0)

/-- The registers that show a thread and its ring (R341). -/
def thrKeys (n : Nat) : List Nat :=
  [ROUND.THR_PC n, ROUND.THR_RETIRED n, ROUND.THR_STATUS n, ROUND.THR_ACTQ n, ROUND.RING_STATUS (n / 32), ROUND.RING_WAITERS (n / 32)]

/-- The register of a thread that a result goes to: none for t0 (R324). -/
def tKey (n td : Nat) : List Nat := if td = 0 then [] else [ROUND.THR_T n td]

/-- Between `e` and `d` nothing but thread `n`, the queue of its ring and the registers in `l` changed. -/
def Dev.thrAlone (e d : Dev) (n : Nat) (l : List Nat) : Prop :=
  (∀ k, k ≠ n → d.thr k = e.thr k) ∧ (∀ r, { d.ring r with openQ := [] } = { e.ring r with openQ := [] })
    ∧ { e with thrs := d.thrs, rings := d.rings }.keepsUnits d ∧ e.keepsRegs d (thrKeys n ++ l)

/-- Between `e` and `d` thread `n` retired an instruction: it goes on at `pc` as `x`. -/
def Dev.thrGoes (e d : Dev) (n : Nat) (pc : Word) (x : ThrSt) (l : List Nat) : Prop :=
  d.reg (ROUND.THR_PC n) = pc ∧ d.reg (ROUND.THR_RETIRED n) = e.reg (ROUND.THR_RETIRED n) + 1 ∧ d.thrState n = 1 ∧ d.thrWait n = 0
    ∧ d.thr n = { x with req := none, sample := none } ∧ e.thrAlone d n l ∧ e.noRecord d ∧ d.answer = .none

/-- Between `e` and `d` thread `n` came to a state at its instruction, as `x`. -/
def Dev.thrHolds (e d : Dev) (n st wait : Nat) (x : ThrSt) (l : List Nat) : Prop :=
  d.reg (ROUND.THR_PC n) = e.reg (ROUND.THR_PC n) ∧ d.reg (ROUND.THR_RETIRED n) = e.reg (ROUND.THR_RETIRED n) ∧ d.thrState n = st
    ∧ d.thrWait n = wait ∧ d.thr n = x ∧ e.thrAlone d n l ∧ e.noRecord d ∧ d.answer = .none

/-- Between `e` and `d` thread `n` stopped with a cause and an address: its FAULT event, its fault source and a SYSTEM record (R325). -/
def Dev.thrStops (e d : Dev) (n cause : Nat) (v : Word) : Prop :=
  d.thrState n = 5 ∧ d.fld (ROUND.THR_STATUS_CAUSE n) = cause ∧ d.reg (ROUND.THR_FAULT_ADDR n) = v
    ∧ d.reg (ROUND.THR_PC n) = e.reg (ROUND.THR_PC n) ∧ d.reg (ROUND.THR_RETIRED n) = e.reg (ROUND.THR_RETIRED n)
    ∧ e.raised d [801 + 2 * n] ∧ d.faults = e.faults ++ [{ src := 0x13, unit := n, stamp := e.nowNs }]
    ∧ d.thr n = { e.thr n with req := none, stepping := false, haltReq := false }
    ∧ { e with faults := d.faults }.thrAlone d n [ROUND.THR_FAULT_ADDR n]
    ∧ e.oneRecord d (wordRecord e.nowNs .system 0 0x0600 (ROUND.THR_STATUS n) (d.reg (ROUND.THR_STATUS n)) (e.reg (ROUND.THR_STATUS n)))

/-! ### What an instruction of a pin engine leaves (spec/15) -/

/-- The registers that show an engine's state, its queue and its time (R362). -/
def engKeys (n : Nat) : List Nat := [PENG.ENG_STATUS n, PENG.ENG_ET n, PENG.ENG_ET n + 4]

/-- The logic of engine `n` runs, or waits in the instruction it has reached, and is not told to stop (R351). -/
def Dev.engRuns (d : Dev) (n : Nat) : Bool :=
  (decide (d.engState n = 2) || decide (d.engState n = 3)) && !d.flag (PENG.ENG_STATUS_STOPPING n)

/-- The engine time, in 1/256 ns, of `c` cells of the instruction at the PC: c x (1 + LEN) x tau (R343). -/
def Dev.engTime (d : Dev) (n c : Nat) : BitVec 66 :=
  BitVec.ofNat 66 (c * ((1 + bitsOf (d.engWord n) 11 8) * (256 * d.fld (PENG.ENG_CLK_DIV n) + d.fld (PENG.ENG_CLK_FRAC n))))

/-- Between `e` and `d` nothing but engine `n` and the registers in `l` changed. -/
def Dev.engAlone (e d : Dev) (n : Nat) (l : List Nat) : Prop :=
  Tab.keeps {} [n] e.engs d.engs ∧ { e with engs := d.engs }.keepsUnits d ∧ e.keepsRegs d (engKeys n ++ l)

/-- Between `e` and `d` engine `n`, then at `x`, retired an instruction of `c` cells; it goes on at `pc` (R343, R347). -/
def Dev.engGoesOn (e d : Dev) (n c pc : Nat) (x : EngSt) (l : List Nat) : Prop :=
  d.eng n = { x with et := x.et + e.engTime n c, cells := 0 }
    ∧ d.reg64 (PENG.ENG_ET n) = BitVec.ofNat 64 ((x.et + e.engTime n c).toNat / 4) ∧ d.fld (PENG.ENG_STATUS_PC n) = pc % 32
    ∧ d.engState n = 2 ∧ e.engAlone d n l ∧ e.noRecord d ∧ d.answer = .none

/-- Between `e` and `d` engine `n` came to a state at its instruction, which has not retired. -/
def Dev.engHolds (e d : Dev) (n st : Nat) : Prop :=
  d.engState n = st ∧ d.fld (PENG.ENG_STATUS_PC n) = e.fld (PENG.ENG_STATUS_PC n) ∧ e.keepsUnits d
    ∧ e.keepsRegs d [PENG.ENG_STATUS n] ∧ e.noRecord d ∧ d.answer = .none

/-- The operation `o` of engine `n`, queued at the present time for the engine time `et` (R343). -/
def Dev.queued (d : Dev) (et : BitVec 66) (o : PinOp) : StageOp := { t := etNs et, queued := d.now, op := o }

/-- The levels that cell `i` of a SEND of `w` slots from `s` takes from SR, bit by bit (R347). -/
def cellLevels (lsb : Bool) (w s i : Nat) (sr : Word) : Nat :=
  ((List.range w).map fun j => if sr.getLsbD (if lsb then i * w + j else 31 - (i * w + j)) && decide (i * w + j < 32) then 2 ^ (s + j) else 0).sum

/-- The operations of `m` cells of a SEND, from the cell at `et`. -/
def Dev.sendOps (d : Dev) (n w s m c : Nat) : List StageOp :=
  let x := d.eng n
  (List.range m).map fun i => d.queued (x.et + d.engTime n (c + i))
    (.levels ((2 ^ w - 1) * 2 ^ s) (cellLevels (d.flag (PENG.ENG_CTRL_ORDER_SEND n)) w s i (d.reg (PENG.ENG_SR n))))

/-- SR after `b` bits have been sent (R347). -/
def Dev.srAfter (d : Dev) (n b : Nat) : Word :=
  if d.flag (PENG.ENG_CTRL_ORDER_SEND n) then d.reg (PENG.ENG_SR n) >>> b else d.reg (PENG.ENG_SR n) <<< b

/-- The 32 bits of a COPY's source before MOD (R347). -/
def Dev.engSource (d : Dev) (n : Nat) : EngSrc → Word
  | .sr => d.reg (PENG.ENG_SR n)
  | .cr => d.reg (PENG.ENG_CR n)
  | .k0 => d.reg (PENG.ENG_K n) &&& 0xFFFF
  | .k1 => d.reg (PENG.ENG_K n) >>> 16
  | .slots => BitVec.ofNat 32 (((List.range 8).map fun i => if d.slotInAt n i (etNs (d.eng n).et) then 2 ^ i else 0).sum)
  | .zero => 0
  | .status =>
    BitVec.ofNat 32 ((d.eng n).tx.length + (d.eng n).rx.length * 2 ^ 8 + d.fld (PENG.ENG_PSTATE_SR_LEFT n) * 2 ^ 16)

/-- MOD of a COPY (R347). -/
def copyMod (m : Nat) (v : Word) : Word :=
  match m with
  | 0 => v
  | 1 => v ^^^ 0xFFFFFFFF
  | 2 => BitVec.ofNat 32 (((List.range 32).map fun i => if v.getLsbD i then 2 ^ (31 - i) else 0).sum)
  | _ => v.extractLsb' 0 8 ++ v.extractLsb' 8 8 ++ v.extractLsb' 16 8 ++ v.extractLsb' 24 8

/-- Between `e` and `d` flag `f` of engine `n` came to be set, with event 928 + n where EVT_MASK selects it (bit `i`) and it was 0
(R349). -/
def Dev.engFlagged (e d : Dev) (n : Nat) (f : Nat → Fld) (i : Nat) : Prop :=
  d.flag (f n) = true
    ∧ e.raised d (if !e.flag (f n) && bitOf (e.fld (PENG.ENG_CTRL_EVT_MASK n)) i then [928 + n] else [])

/-! ### Errors found in memories (spec/16) -/

/-- The registers that show the error log and its counts (R374, R375). -/
def errKeys : List Nat :=
  [MEMCTL.ERR_STATUS, MEMCTL.ECC_COUNTS, MEMCTL.ERR_ENTRY 0, MEMCTL.ERR_ENTRY 1, MEMCTL.ERR_ENTRY 2, MEMCTL.ERR_ENTRY 3]

/-- The log entry of an error of TYPE `typ` at address `a` in memory `code`, found by a reader of SOURCE `src`, but for its syndrome (R374). -/
def errEntry (a code src : Nat) (agent : AgentId) (typ : Nat) (t : Time) : ErrEntry :=
  { w0 := BitVec.ofNat 32 a
    w1 := BitVec.ofNat 8 code ++ 0#8 ++ BitVec.ofNat 8 (a / 2 ^ 32) ++ BitVec.ofNat 4 src ++ BitVec.ofNat 4 typ
    w2 := agent ++ BitVec.ofNat 8 (a % 8) ++ 0#8
    w3 := BitVec.ofNat 32 (t.toNat / 64) }

/-- An entry without its syndrome, which the spec leaves open (log entry 3). -/
def ErrEntry.bare (e : ErrEntry) : ErrEntry := { e with w2 := e.w2 &&& 0xFFFFFF00 }

/-- Between `e` and `d`, whose log had room, one error was entered in the log and counted (R374, R375). -/
def Dev.errFound (e d : Dev) (a code src : Nat) (agent : AgentId) (typ : Nat) : Prop :=
  d.errLog.map ErrEntry.bare = e.errLog.map ErrEntry.bare ++ [errEntry a code src agent typ e.now]
    ∧ d.fld MEMCTL.ERR_STATUS_COUNT = e.errLog.length + 1 ∧ d.freeCount = e.freeCount + 1
    ∧ d.fld MEMCTL.ECC_COUNTS_CE_COUNT = (if typ = 1 then satInc 0xFFFF else id) (e.fld MEMCTL.ECC_COUNTS_CE_COUNT)
    ∧ d.fld MEMCTL.ECC_COUNTS_UE_COUNT = (if typ = 2 then satInc 0xFFFF else id) (e.fld MEMCTL.ECC_COUNTS_UE_COUNT)

/-- The words that show the oldest entry of an error log (R374). -/
def Dev.showsOldest (d : Dev) : Prop :=
  ∀ i : Fin 4, d.reg (MEMCTL.ERR_ENTRY i) = match d.errLog with
    | [] => 0
    | e :: _ => [e.w0, e.w1, e.w2, e.w3].getD i 0

/-! ### What a command of the DMA leaves (spec/16) -/

/-- Between `e` and `d` nothing but channel `c`, its state and BUSY, and the registers in `l` changed. -/
def Dev.dmaAlone (e d : Dev) (c : Nat) (l : List Nat) : Prop :=
  Tab.keeps {} [c] e.dmas d.dmas ∧ { e with dmas := d.dmas }.keepsUnits d ∧ e.keepsRegs d ([DMA.CH_STATUS c, DMA.DMA_STATUS] ++ l)
    ∧ (∀ k : Fin 16, k.val ≠ c → wordBit (d.reg DMA.DMA_STATUS) k = wordBit (e.reg DMA.DMA_STATUS) k)

/-- Channel `c` is in state `st`, and BUSY shows whether that is IDLE, DONE or ERROR (R392). -/
def Dev.dmaIn (d : Dev) (c st : Nat) : Prop :=
  d.dmaState c = st ∧ wordBit (d.reg DMA.DMA_STATUS) c = !(decide (st = 0) || decide (st = 5) || decide (st = 6))

/-- Between `e` and `d` channel `c`, then at `x`, ended in ERROR without a completion record (R384 to R386). -/
def Dev.dmaFailed (e d : Dev) (c cause : Nat) (addr : DWord) (x : DmaSt) (l : List Nat) : Prop :=
  d.dmaIn c 6 ∧ d.fld (DMA.CH_STATUS_CAUSE c) = cause ∧ d.reg64 (DMA.CH_FAULT c) = addr ∧ d.flag (DMA.CH_FLAGS_ERROR c) = true
    ∧ d.dma c = { x with buf := [], held := false, ending := none, flips := [] }
    ∧ e.raised d (if cause = 6 then [1207, 1130 + 4 * c] else [1130 + 4 * c])
    ∧ (cause = 6 → d.flag (DMA.CH_FLAGS_OVERLAP c) = true)
    ∧ e.dmaAlone d c ([DMA.CH_FAULT c, DMA.CH_FAULT c + 4, DMA.CH_FLAGS c] ++ l)

/-- The address of beat `k` of a side, from its address `base`: one address where it does not increment; downward from the end where the
transfer runs downward (R386). -/
def DmaSt.beat (x : DmaSt) (base : Nat) (inc : Bool) (w k : Nat) : Nat :=
  if !inc then base else if x.down then base + x.len - k - w else base + k

/-- A beat of `n` bytes at `a` goes to memory, not to the host window, a register or the coefficient memory. -/
def Dev.memBeat (d : Dev) (a n : Nat) : Bool :=
  (d.hostWindow a n).isNone && !inPeripherals a && !inCoef a && !inTrace a && decide (d.memCode a ≠ some 0x40)

/-- The bytes that a memory answers to a beat: of a lockstep pair's TCMs the primary's (R308). -/
def Dev.beatBytes (d : Dev) (a n : Nat) : List Byte := d.bytes ((d.tcmTwins a).headD a) n

/-- A write beat of `n` bytes at `a` by an agent is stored at once: in memory that answers and is open, outside every code part, and with
no error or injection known there. -/
def Dev.memTakes (d : Dev) (agent : AgentId) (a n : Nat) : Bool :=
  d.memBeat a n && d.storable a && d.memMapped a n && d.memOpen agent a n true && (d.loadRings agent a n).isEmpty && d.ecc.isEmpty
    && !d.flag MEMCTL.ECC_FLIP_ARM && decide (d.tcmTwins a = [a]) && !d.lgDram

/-! ### Events and the host (spec/17) -/

/-- No block selects an event by its ID: no DMA channel, no armed trace unit and no rail (R395). -/
def Dev.unheard (d : Dev) (id : Nat) : Bool :=
  ((List.range 16).all fun c => !d.flag (DMA.CH_CFG_TRIG_EN c) || decide (d.fld (DMA.CH_CFG_TRIG_EVENT c) ≠ id))
    && ((List.range 4).all fun u => decide (d.fld (LOOP.TRC_TRIG_EVENT u) ≠ id) || decide (d.fld (LOOP.TRC_CFG_TRIG_SRC u) ≠ 2))
    && ((List.range 8).all fun r => !d.flag (PHASE.PH_RAIL_ADD_ADD_EN r) || decide (d.fld (PHASE.PH_RAIL_ADD_ADD_EVENT r) ≠ id))

/-- The raise `r` is the next to be delivered: those before it that wait carry its stamp and a higher ID, those after it do not come
before it (R396). -/
def comesFirst (r : Raised) (l m : List Raised) : Bool :=
  (l.all fun q => decide (q.stamp = r.stamp) && decide (r.id < q.id)) && m.all fun q => !(decide (q.stamp = r.stamp) && decide (q.id < r.id))

/-- Every register word of the HOST block is unchanged but those at the keys in `l`. -/
def Dev.keepsHost (d d' : Dev) (l : List Nat) : Prop := ∀ k, k / 0x10000 = 0x07 → k ∉ l → d'.reg k = d.reg k

/-- A record for a host ring finds it enabled, with no unwritten EVENT record of its ID, no loss to report and room in the queue (R405 to
R407). -/
def Dev.ringTakes (d : Dev) (r : HostRec) : Bool :=
  d.flag (HOST.RING_CTRL_EN r.ring) && !(decide (r.typ = 1) && d.hostQ.any fun q => decide (q.ring = r.ring ∧ q.typ = 1 ∧ q.event = r.event))
    && decide (d.hostQ.length < 2048) && decide (d.reg (HOST.RING_STATUS r.ring) = 0)

/-- The Ledger copies no record to a host ring (R62). -/
def Dev.noMirror (d : Dev) : Bool := decide (d.fld LEDGER.LG_HOST_MIRROR_KINDS = 0)

/-- No group is claimed by an agent (R38). -/
def Dev.holdsNone (d : Dev) (a : AgentId) : Bool := d.groups.all fun p => !(decide (p.2.st = .claimed) && decide (p.2.owner = a))

/-! ### What a tie-link frame leaves (spec/17) -/

/-- The tie link after a good frame on a lane pair, from the neighbour and the positions `ps` (R412, R415). -/
def Dev.tieMet (e : Dev) (lane : Nat) (ps : List Nat) : TieSt :=
  let h := if lane = 0 then e.tie.hop1 else e.tie.hop0
  let h : HopSt := { good := h.good + 1, last := e.now }
  let t : TieSt := if lane = 0 then { e.tie with hop1 := h } else { e.tie with hop0 := h }
  { t with heard := (e.tieNeighbour lane :: ps).foldl (fun l p => if p = e.tiePos then l else Tab.put p e.now l) e.tie.heard }

/-- The state of the hop a frame on a lane pair passed: UP after 64 good frames in a row (R412). -/
def Dev.hopAfter (e : Dev) (lane : Nat) : Nat :=
  let h := if lane = 0 then e.tie.hop1 else e.tie.hop0
  if e.fld (hopFld (1 - lane)) = 2 ∨ 64 ≤ h.good + 1 then 2 else 1

/-- The events of a hop that comes UP with a good frame (R412). -/
def Dev.hopEvents (e : Dev) (lane : Nat) : List Nat :=
  if e.fld (hopFld (1 - lane)) ≠ 2 ∧ e.hopAfter lane = 2 then [1212] else []

/-- Between `e` and `d` a good frame on a lane pair arrived: TIE_STATUS shows the hop and the peers, and beside the tie link nothing
changed but the registers in `l`. -/
def Dev.tieTakes (e d : Dev) (lane : Nat) (ps : List Nat) (l : List Nat) : Prop :=
  d.fld (hopFld (1 - lane)) = e.hopAfter lane ∧ d.fld (hopFld lane) = e.fld (hopFld lane)
    ∧ (∀ p : Fin 4, bitOf (d.fld TIE.TIE_STATUS_PEERS) p
      = (bitOf (e.fld TIE.TIE_STATUS_PEERS) p || (decide (p.val ≠ e.tiePos) && (e.tieNeighbour lane :: ps).contains p.val)))
    ∧ { e with tie := d.tie }.keepsUnits d ∧ e.keepsRegs d (TIE.TIE_STATUS :: l) ∧ e.noRecord d

/-- The command acknowledged a frame that arrived on a lane pair, with its sequence (R412), and sent `more`. -/
def Dev.tieAcks (d : Dev) (lane seq : Nat) (more : List OutMsg) : Prop :=
  d.sent = .frame (1 - lane) 8 0 (toBytes 4 seq) :: more

/-- The latest frames of a tie link with one more (log entry 40). -/
def TieSt.received (t : TieSt) (p seq : Nat) : TieSt := { t with recvd := ((p, seq) :: t.recvd).take 256 }

/-- The tie link with a frame that waits for its acknowledgement (R412). -/
def TieSt.sends (t : TieSt) (typ peer : Nat) (body : List Byte) (now : Time) : TieSt :=
  { t with seq := t.seq + 1, unacked := t.unacked ++ [{ seq := t.seq, typ := typ, peer := peer, body := body, nextAt := now + nsT 1000 }] }

/-! ### The fault manager and the supply (spec/18) -/

/-- The occurrence `o` is handled next: those before it arrived in its nanosecond from a higher source, and none after it comes before
it (R435). -/
def faultFirst (o : FaultOcc) (l m : List FaultOcc) : Bool :=
  (l.all fun q => decide (floorNs q.stamp = floorNs o.stamp) && decide (o.src < q.src))
    && m.all fun q => !(decide (floorNs q.stamp = floorNs o.stamp) && decide (q.src < o.src))

/-- The field that counts the occurrences of a source (R453). -/
def srcCount (src : Nat) : Fld := if src % 2 = 0 then FAULT.SRC_COUNT_EVEN (src / 2) else FAULT.SRC_COUNT_ODD (src / 2)

/-- Between `e` and `d` an occurrence was counted, flagged and noted (R434). -/
def Dev.noted (e d : Dev) (o : FaultOcc) : Prop :=
  d.fld (srcCount o.src) = satInc 0xFFFF (e.fld (srcCount o.src)) ∧ d.reg FAULT.FM_ACTIVE = e.reg FAULT.FM_ACTIVE ||| (1#32 <<< o.src)
    ∧ d.fld FAULT.FM_LAST_SOURCE = o.src ∧ d.fld FAULT.FM_LAST_UNIT = o.unit ∧ d.reg64 FAULT.FM_LAST_T = o.stamp

/-- The registers in which an occurrence of a source is noted. -/
def noteKeys (src : Nat) : List Nat :=
  [FAULT.SRC_COUNT (src / 2), FAULT.FM_ACTIVE, FAULT.FM_LAST, FAULT.FM_LAST_T, FAULT.FM_LAST_T + 4]

/-- The registers that show the safe states and the actions of the fault manager. -/
def safeKeys : List Nat := FAULT.FM_STATUS :: (List.range 5).map FAULT.SAFE_NOW

/-- Between `e` and `d` the pins `ps`, and no others, came to be in their safe states, if they were not (R436). -/
def Dev.madeSafe (e d : Dev) (ps : List Nat) : Prop :=
  (∀ p : Fin 160, d.mapBit (FAULT.SAFE_NOW 0) p = (e.mapBit (FAULT.SAFE_NOW 0) p || ps.contains p.val))
    ∧ ∀ p : Fin 160, (ps.contains p.val && e.regulated && !e.hardSafe && decide (e.tapIr ≠ TAP.EXTEST)) = true →
      d.ballLevel p = openDrain (e.flag (PINMUX.PIN_CFG_OD p)) (e.pinSafeLevel p)

/-- What pin `p` keeps of the level its function sees, once its filtered level is `l` from `t` on, with a crossing in progress or not: a
change is put before the earlier ones (R356). -/
def Dev.sees (e : Dev) (p : Nat) (crossing l : Bool) (t : Time) : List (Time × Bool) :=
  let f := if crossing then e.flag (PINMUX.PIN_CFG_IDLE_IN p) else l
  match (e.pin p).seen with
  | [] => if f then [(t, f)] else []
  | (u, g) :: rest => if f = g then (u, g) :: rest else (t, f) :: (u, g) :: rest

/-- Some of the pins `ps` are not in a safe state, so that a safe state on them is an action with records (R435). -/
def Dev.someNew (e : Dev) (ps : List Nat) : Bool := ps.any fun p => decide (p < 160) && !e.mapBit (FAULT.SAFE_NOW 0) p

/-- Between `e` and `d` the fault manager took `n` actions that entered records (R435). -/
def Dev.actions (e d : Dev) (n : Nat) : Prop :=
  d.fld FAULT.FM_STATUS_ACTIONS = min 0xFFFF (e.fld FAULT.FM_STATUS_ACTIONS + n) ∧ e.raised d (List.replicate n 13)

/-- The occurrence of a source is answered by its configured action alone: it has no fixed response here (R434). -/
def Dev.unanswered (d : Dev) (o : FaultOcc) : Bool :=
  !([0x03, 0x05, 0x07].contains o.src) && (decide (o.src ≠ 0x0A) || decide (d.fld (WITNESS.WIT_CFG_ACTION o.unit) = 0))
    && (decide (o.src ≠ 0x0D) || !d.flag (PHASE.PH_RAIL_CFG_ON_LOSS o.unit))

/-! ### The whole machine -/

/-- The Ledger at the end of a command: no record of a change waits to be entered, at most 4,096 records are on chip, and OVERRUN is set
while the reader is more than a ring behind (R54, R57, R58). -/
def Dev.ledgerShown (d : Dev) : Prop :=
  d.led.fresh = [] ∧ d.led.chip.length ≤ 4096
    ∧ (d.ringSize < (d.reg LEDGER.LG_NEXT_SEQ - d.reg LEDGER.LG_READ_SEQ).toNat → d.flag LEDGER.LG_STATUS_OVERRUN = true)

/-- The number a finite datum stands for; 0 for the others. -/
def FVal.rat : FVal → ℚ
  | .fin neg m e => (if neg then -1 else 1) * m * (2 : ℚ) ^ e
  | _ => 0

/-- The least magnitude that rounds to infinity under round to nearest: half a unit in the last place above the largest finite number. -/
def FFmt.overflowAt (f : FFmt) : ℚ := (2 - (2 : ℚ) ^ (-(f.p : Int))) * (2 : ℚ) ^ (1 - f.emin)

end Sys2Proof.Machine
end

