-- ==== Sys2Proof/Certificates/Slice0/Obligations.lean ====
section
/-!
DEFINITION. Certificates/Slice0/Obligations.lean: the statements about the block, by chapter of the spec. In each clause `s` is the state
before the command and `d` the device after it.
-/
open Sys2Proof Sys2Proof.Machine

/-- For every state: TIME_BASE_QUALIFIED and BACKUP_FALLBACK_TIMEOUT start a Milepost that does not count, in state LOCKED or FREE, at its present value; BACKUP_TRAINED sets its bit once 100 ms of lock have passed; REF_EDGE starts the qualification in HOLDOVER or FREE, and at an edge whose 10 us average is off by more than FREQ_TOL declares a locked reference lost; REF_MISS_TIMEOUT does so once MISS_LIMIT periods have passed since the last edge; a loss sets HOLDOVER and REF_LOST, zeroes MP_HOLD_TIME, raises event 1, reports source 1 and enters one SYSTEM record; REF_QUALIFIED after 1 ms returns from FREE or, with AUTO_RETURN, from HOLDOVER (LOCKED, REF_RETURNED, event 2, one SYSTEM record), and otherwise shows QUALIFYING. Each clause says which other registers and units stay. Where a clause rests on a reading or a choice of the model, it is the model's and not the spec's: log entries 1, 27 and 28. -/
def Obligations.ReferenceCommands : Prop :=
  ∀ s : State,
  (s.dev.time.counting = false → Does (.timeBaseQualified) s fun d =>
      d.time = { s.dev.time with counting := true, lastEdge := s.dev.now, lockedSince := s.dev.now, windowStart := s.dev.now } ∧
      d.refState = 1 ∧ s.dev.keepsRegs d [MILEPOST.MP_STATUS] ∧ { s.dev with time := d.time }.keepsUnits d ∧ s.dev.noRecord d) ∧
  (s.dev.time.counting = false → Does (.backupFallbackTimeout) s fun d =>
      d.time = { s.dev.time with counting := true, lastEdge := s.dev.now, windowStart := s.dev.now } ∧ d.refState = 4 ∧
      s.dev.keepsRegs d [MILEPOST.MP_STATUS] ∧ { s.dev with time := d.time }.keepsUnits d ∧ s.dev.noRecord d) ∧
  (s.dev.refState = 1 → s.dev.due (s.dev.time.lockedSince + nsT 100000000) = true → Does (.backupTrained) s fun d =>
      d.flag MILEPOST.MP_STATUS_BACKUP_TRAINED = true ∧ d.refState = 1 ∧ s.dev.keepsRegs d [MILEPOST.MP_STATUS] ∧
      s.dev.keepsUnits d ∧ s.dev.noRecord d) ∧
  (∀ (dev : Nat), (s.dev.refState = 2 ∨ s.dev.refState = 4) → s.dev.time.qualSince = none →
      dev ≤ s.dev.fld MILEPOST.MP_REFQUAL_FREQ_TOL * 10000 → Does (.refEdge dev) s fun d =>
      d.time = { s.dev.time with lastEdge := s.dev.now, qualSince := some s.dev.now } ∧ s.dev.keepsRegs d [] ∧
      { s.dev with time := d.time }.keepsUnits d ∧ s.dev.noRecord d) ∧
  (∀ (dev : Nat), s.dev.refState = 1 → s.dev.fld MILEPOST.MP_REFQUAL_FREQ_TOL * 10000 < dev → Does (.refEdge dev) s fun d =>
      d.time = { s.dev.time with lastEdge := s.dev.now, holdStart := s.dev.now, qualSince := none } ∧ d.refState = 2 ∧
      d.flag MILEPOST.MP_FLAGS_REF_LOST = true ∧ d.num MILEPOST.MP_HOLD_TIME = 0 ∧ s.dev.raised d [1] ∧
      d.faults = s.dev.faults ++ [{ src := 1, unit := 0, stamp := s.dev.nowNs }] ∧
      s.dev.oneRecord d (wordRecord s.dev.nowNs .system 0 0x0600 MILEPOST.MP_STATUS (d.reg MILEPOST.MP_STATUS) (s.dev.reg MILEPOST.MP_STATUS)) ∧
      s.dev.keepsRegs d [MILEPOST.MP_STATUS, MILEPOST.MP_FLAGS, MILEPOST.MP_HOLD_TIME] ∧
      { s.dev with time := d.time, faults := d.faults }.keepsUnits d) ∧
  (s.dev.refState = 1 →
      s.dev.due (s.dev.time.lastEdge + nsT (s.dev.fld MILEPOST.MP_REFQUAL_MISS_LIMIT * s.dev.refPeriod)) = true →
      Does (.refMissTimeout) s fun d => d.time = { s.dev.time with holdStart := s.dev.now, qualSince := none } ∧ d.refState = 2 ∧
      d.flag MILEPOST.MP_FLAGS_REF_LOST = true ∧ d.num MILEPOST.MP_HOLD_TIME = 0 ∧ s.dev.raised d [1] ∧
      d.faults = s.dev.faults ++ [{ src := 1, unit := 0, stamp := s.dev.nowNs }] ∧
      s.dev.oneRecord d (wordRecord s.dev.nowNs .system 0 0x0600 MILEPOST.MP_STATUS (d.reg MILEPOST.MP_STATUS) (s.dev.reg MILEPOST.MP_STATUS)) ∧
      s.dev.keepsRegs d [MILEPOST.MP_STATUS, MILEPOST.MP_FLAGS, MILEPOST.MP_HOLD_TIME] ∧
      { s.dev with time := d.time, faults := d.faults }.keepsUnits d) ∧
  (∀ (t : Time), s.dev.time.qualSince = some t → s.dev.due (t + nsT 1000000) = true → s.dev.refState = 4 →
      Does (.refQualified) s fun d => d.refState = 1 ∧ d.flag MILEPOST.MP_FLAGS_REF_RETURNED = true ∧ s.dev.raised d [2] ∧
      d.time = { s.dev.time with lockedSince := s.dev.now, qualSince := none } ∧
      s.dev.oneRecord d (wordRecord s.dev.nowNs .system 0 0x0600 MILEPOST.MP_STATUS (d.reg MILEPOST.MP_STATUS) (s.dev.reg MILEPOST.MP_STATUS)) ∧
      s.dev.keepsRegs d [MILEPOST.MP_STATUS, MILEPOST.MP_FLAGS] ∧ { s.dev with time := d.time }.keepsUnits d) ∧
  (∀ (t : Time), s.dev.time.qualSince = some t → s.dev.due (t + nsT 1000000) = true → s.dev.refState = 2 →
      s.dev.flag MILEPOST.MP_CTRL_AUTO_RETURN = false → Does (.refQualified) s fun d => d.refState = 3 ∧ d.time = s.dev.time ∧
      s.dev.keepsRegs d [MILEPOST.MP_STATUS] ∧ s.dev.keepsUnits d ∧ s.dev.noRecord d) ∧
  (∀ (t : Time), s.dev.time.qualSince = some t → s.dev.due (t + nsT 1000000) = true → s.dev.refState = 2 →
      s.dev.flag MILEPOST.MP_CTRL_AUTO_RETURN = true → Does (.refQualified) s fun d => d.refState = 1 ∧
      d.flag MILEPOST.MP_FLAGS_REF_RETURNED = true ∧ s.dev.raised d [2] ∧
      d.time = { s.dev.time with lockedSince := s.dev.now, qualSince := none } ∧
      s.dev.keepsRegs d [MILEPOST.MP_STATUS, MILEPOST.MP_FLAGS] ∧ { s.dev with time := d.time }.keepsUnits d)

/-- For every state: MP_NOW_READ answers the low word of the Milepost cut to whole nanoseconds and latches its high word for the agent; RETURN, and AUTO_RETURN = 1, take a QUALIFYING Milepost back to the reference, and RETURN in any other state is refused with cause STATE; MP_SET loads the Milepost before first regulation, with what counts elapsed time going on across the load, and is refused with cause RUNNING after it; MP_SLEW sets the remainder and restarts the tick count; a new INTERVAL restarts it; an adjusted tick adds 65 or 63 fine ticks and moves the remainder one step toward zero; LATE_CLR zeroes the three lateness registers. Each clause says which other registers and units stay. Where a clause rests on a reading or a choice of the model, it is the model's and not the spec's: log entries 1, 4, 19, 24, 25, 27 and 153. -/
def Obligations.MilepostCommands : Prop :=
  ∀ s : State,
  (∀ (a : Agent), s.dev.blkLevel a.id 0x02 ≠ 0 → Does (.mpNowRead a) s fun d =>
      d.answer = .value ((floorNs s.dev.now).setWidth 32) ∧
      d.halfR = Tab.put (halfKey a.id MILEPOST.MP_NOW_LO) ((floorNs s.dev.now >>> 32).setWidth 32) s.dev.halfR ∧
      s.dev.keepsRegs d [] ∧ { s.dev with halfR := d.halfR }.keepsUnits d ∧ s.dev.noRecord d) ∧
  (∀ (a : Agent) (v : Word), s.dev.takes a.id MILEPOST.MP_CTRL v = true → wordBit v 2 = true → s.dev.refState = 3 →
      Does (.mpCtrlReturn a v) s fun d => d.answer = .ok ∧ d.refState = 1 ∧ d.flag MILEPOST.MP_FLAGS_REF_RETURNED = true ∧
      s.dev.raised d [2] ∧ d.time = { s.dev.time with lockedSince := s.dev.now, qualSince := none } ∧
      s.dev.keepsRegs d [MILEPOST.MP_CTRL, MILEPOST.MP_STATUS, MILEPOST.MP_FLAGS] ∧ { s.dev with time := d.time }.keepsUnits d) ∧
  (∀ (a : Agent) (v : Word), s.dev.takes a.id MILEPOST.MP_CTRL v = true → wordBit v 4 = true → s.dev.refState = 3 →
      Does (.autoReturnWrite a v) s fun d => d.answer = .ok ∧ d.refState = 1 ∧ d.flag MILEPOST.MP_FLAGS_REF_RETURNED = true ∧
      s.dev.raised d [2] ∧ d.time = { s.dev.time with lockedSince := s.dev.now, qualSince := none } ∧
      s.dev.keepsRegs d [MILEPOST.MP_CTRL, MILEPOST.MP_STATUS, MILEPOST.MP_FLAGS] ∧ { s.dev with time := d.time }.keepsUnits d) ∧
  (∀ (a : Agent) (v : Word), s.dev.blkLevel a.id 0x02 ≥ 2 → v = 4 → s.dev.refState ≠ 3 → s.dev.lgRoom = true →
      Does (.mpCtrlReturn a v) s fun d => d.answer = .rejected .state ∧
      s.dev.oneRecord d (wordRecord s.dev.nowNs .reject (16 * Cause.state.code) a.id MILEPOST.MP_CTRL v (s.dev.reg MILEPOST.MP_CTRL)) ∧
      s.dev.keepsRegs d [] ∧ s.dev.keepsUnits d) ∧
  (∀ (a : Agent) (v : DWord), s.dev.blkLevel a.id 0x02 ≥ 2 → s.dev.regulated = false → s.dev.lgRoom = true →
      Does (.mpSetWrite a v) s fun d => d.answer = .ok ∧ d.now = v ∧
      d.now - d.time.lockedSince = s.dev.now - s.dev.time.lockedSince ∧
      d.now - d.time.holdStart = s.dev.now - s.dev.time.holdStart ∧
      d.now - d.time.windowStart = s.dev.now - s.dev.time.windowStart ∧
      (d.time.qualSince = s.dev.time.qualSince.map fun t => t + (v - s.dev.now)) ∧
      (d.time.upHold = s.dev.time.upHold.map fun t => t + (v - s.dev.now)) ∧ d.reg64 MILEPOST.MP_SET = v ∧
      s.dev.keepsRegs d [MILEPOST.MP_SET, MILEPOST.MP_SET + 4] ∧
      { s.dev.loadStep (v - s.dev.now) with halfW := d.halfW }.keepsUnits d) ∧
  (∀ (a : Agent) (v : DWord), s.dev.blkLevel a.id 0x02 ≥ 2 → s.dev.regulated = true → s.dev.lgRoom = true →
      Does (.mpSetWrite a v) s fun d => d.answer = .rejected .running ∧ d.time = s.dev.time ∧ s.dev.keepsRegs d [] ∧
      { s.dev with halfW := d.halfW }.keepsUnits d) ∧
  (∀ (a : Agent) (v : Word), s.dev.takes a.id MILEPOST.MP_SLEW v = true → Does (.mpSlewWrite a v) s fun d => d.answer = .ok ∧
      d.reg MILEPOST.MP_SLEW = v ∧ d.flag MILEPOST.MP_STATUS_SLEWING = decide (v ≠ 0) ∧
      d.time = { s.dev.time with slewTicks := 0 } ∧
      d.flag MILEPOST.MP_FLAGS_SLEW_DONE = (decide (v = 0) || s.dev.flag MILEPOST.MP_FLAGS_SLEW_DONE) ∧
      s.dev.keepsRegs d [MILEPOST.MP_SLEW, MILEPOST.MP_STATUS, MILEPOST.MP_FLAGS] ∧ { s.dev with time := d.time }.keepsUnits d) ∧
  (∀ (a : Agent) (v : Word), s.dev.takes a.id MILEPOST.MP_SLEW_CFG v = true →
      s.dev.fld MILEPOST.MP_SLEW_CFG_INTERVAL ≠ bitsOf v.toNat MILEPOST.MP_SLEW_CFG_INTERVAL.hi MILEPOST.MP_SLEW_CFG_INTERVAL.lo →
      Does (.slewIntervalWrite a v) s fun d => d.answer = .ok ∧
      d.fld MILEPOST.MP_SLEW_CFG_INTERVAL = bitsOf v.toNat MILEPOST.MP_SLEW_CFG_INTERVAL.hi MILEPOST.MP_SLEW_CFG_INTERVAL.lo ∧
      d.time = { s.dev.time with slewTicks := 0 } ∧ s.dev.keepsRegs d [MILEPOST.MP_SLEW_CFG] ∧
      { s.dev with time := d.time }.keepsUnits d) ∧
  (s.dev.slewDue = true → 0 < s.dev.slewRemain → Does (.slewAdjustedTick) s fun d => d.time.milepost = s.dev.now + 65 ∧
      d.slewRemain = s.dev.slewRemain - 1 ∧
      d.flag MILEPOST.MP_FLAGS_SLEW_DONE = (decide (d.slewRemain = 0) || s.dev.flag MILEPOST.MP_FLAGS_SLEW_DONE) ∧
      s.dev.keepsRegs d [MILEPOST.MP_SLEW, MILEPOST.MP_STATUS, MILEPOST.MP_FLAGS, MILEPOST.MP_HOLD_TIME] ∧
      { s.dev with time := d.time }.keepsUnits d ∧ s.dev.noRecord d) ∧
  (s.dev.slewDue = true → s.dev.slewRemain < 0 → Does (.slewAdjustedTick) s fun d => d.time.milepost = s.dev.now + 63 ∧
      d.slewRemain = s.dev.slewRemain + 1 ∧
      d.flag MILEPOST.MP_FLAGS_SLEW_DONE = (decide (d.slewRemain = 0) || s.dev.flag MILEPOST.MP_FLAGS_SLEW_DONE) ∧
      s.dev.keepsRegs d [MILEPOST.MP_SLEW, MILEPOST.MP_STATUS, MILEPOST.MP_FLAGS, MILEPOST.MP_HOLD_TIME] ∧
      { s.dev with time := d.time }.keepsUnits d ∧ s.dev.noRecord d) ∧
  (∀ (a : Agent) (v : Word), s.dev.takes a.id MILEPOST.LATE_CLR v = true → wordBit v 0 = true → Does (.lateClear a v) s fun d =>
      d.answer = .ok ∧ d.num MILEPOST.LATE_COUNT = 0 ∧ d.reg64 MILEPOST.LATE_LAST = 0 ∧ d.num MILEPOST.LATE_SRC = 0 ∧
      s.dev.oneRecord d (wordRecord s.dev.nowNs .live 0 a.id MILEPOST.LATE_CLR v 0) ∧
      s.dev.keepsRegs d [MILEPOST.LATE_COUNT, MILEPOST.LATE_LAST, MILEPOST.LATE_LAST + 4, MILEPOST.LATE_SRC, MILEPOST.LATE_CLR] ∧
      s.dev.keepsUnits d)

/-- For every state with PACE_CTRL.MODE not OFF: PACE_MEASUREMENT keeps the worst latency of its path; in ADAPT it sets OVER_BUDGET with event 3 where the latency passes its budget, and where the margin falls short, VCORE is internal, no hold-off runs and VCORE is below 850 mV it requests UP_STEP more, at most 850 mV, with a SYSTEM record, a hold-off of 1 us and a block on down steps; PACE_UP_HOLDOFF_END ends the hold-off; PACE_WINDOW_END shows both worst values and starts a new window, and in ADAPT with both margins kept and nothing blocked it requests DOWN_STEP less, at least 680 mV. Where a clause rests on a reading or a choice of the model, it is the model's and not the spec's: log entries 26, 56 and 144. -/
def Obligations.PaceCommands : Prop :=
  ∀ s : State,
  (∀ (loop : Bool) (lat : Nat), s.dev.fld MILEPOST.PACE_CTRL_MODE = 1 → Does (.paceMeasurement loop lat) s fun d =>
      d.time = (if loop then { s.dev.time with loopWorst := some (max lat (s.dev.time.loopWorst.getD 0)) } else { s.dev.time with ringWorst := some (max lat (s.dev.time.ringWorst.getD 0)) }) ∧
      s.dev.keepsRegs d [] ∧ { s.dev with time := d.time }.keepsUnits d ∧ s.dev.noRecord d) ∧
  (∀ (lat : Nat), s.dev.fld MILEPOST.PACE_CTRL_MODE = 2 → s.dev.fld MILEPOST.PACE_TARGET_LOOP_BUDGET < lat →
      s.dev.flag MILEPOST.PACE_STATUS_OVER_BUDGET = false → s.dev.flag MILEPOST.PACE_STATUS_EXTERNAL = false →
      s.dev.time.upHold = none → s.dev.fld MILEPOST.PACE_STATUS_VCORE_MV < 850 → Does (.paceMeasurement true lat) s fun d =>
      d.flag MILEPOST.PACE_STATUS_OVER_BUDGET = true ∧ s.dev.raised d [3] ∧
      d.fld MILEPOST.PACE_STATUS_VCORE_MV = min 850 (max 680 (s.dev.fld MILEPOST.PACE_STATUS_VCORE_MV + s.dev.fld MILEPOST.PACE_STEP_UP_STEP)) ∧
      d.time = { s.dev.time with loopWorst := some (max lat (s.dev.time.loopWorst.getD 0)), upHold := some (s.dev.now + nsT 1000), downBlocked := 5 } ∧
      s.dev.oneRecord d (wordRecord s.dev.nowNs .system 0 0x0600 MILEPOST.PACE_STATUS (d.reg MILEPOST.PACE_STATUS) (s.dev.reg MILEPOST.PACE_STATUS)) ∧
      s.dev.keepsRegs d [MILEPOST.PACE_STATUS] ∧ { s.dev with time := d.time }.keepsUnits d) ∧
  (∀ (t : Time), s.dev.time.upHold = some t → s.dev.due t = true → Does (.paceUpHoldoffEnd) s fun d =>
      d.time = { s.dev.time with upHold := none } ∧ s.dev.keepsRegs d [] ∧ { s.dev with time := d.time }.keepsUnits d ∧
      s.dev.noRecord d) ∧
  (s.dev.fld MILEPOST.PACE_CTRL_MODE = 1 → s.dev.due (s.dev.time.windowStart + nsT s.dev.paceWindow) = true →
      Does (.paceWindowEnd) s fun d => d.fld MILEPOST.PACE_WORST_LOOP_WORST = min 0xFFFF (s.dev.time.loopWorst.getD 0) ∧
      d.fld MILEPOST.PACE_WORST_RING_WORST = min 0xFFFF (s.dev.time.ringWorst.getD 0) ∧
      d.time = { s.dev.time with windowStart := s.dev.now, loopWorst := none, ringWorst := none, downBlocked := s.dev.time.downBlocked - 1 } ∧
      s.dev.keepsRegs d [MILEPOST.PACE_WORST] ∧ { s.dev with time := d.time }.keepsUnits d ∧ s.dev.noRecord d) ∧
  (s.dev.fld MILEPOST.PACE_CTRL_MODE = 2 → s.dev.due (s.dev.time.windowStart + nsT s.dev.paceWindow) = true →
      s.dev.lowerOk s.dev.time.loopWorst (s.dev.fld MILEPOST.PACE_TARGET_LOOP_BUDGET) = true →
      s.dev.lowerOk s.dev.time.ringWorst (s.dev.fld MILEPOST.PACE_TARGET_RING_BUDGET) = true → s.dev.time.downBlocked = 0 →
      s.dev.flag MILEPOST.PACE_STATUS_EXTERNAL = false → 680 < s.dev.fld MILEPOST.PACE_STATUS_VCORE_MV →
      Does (.paceWindowEnd) s fun d =>
      d.fld MILEPOST.PACE_STATUS_VCORE_MV = min 850 (max 680 (s.dev.fld MILEPOST.PACE_STATUS_VCORE_MV - s.dev.fld MILEPOST.PACE_STEP_DOWN_STEP)) ∧
      d.flag MILEPOST.PACE_STATUS_AT_FLOOR = decide (d.fld MILEPOST.PACE_STATUS_VCORE_MV = 680) ∧
      s.dev.keepsRegs d [MILEPOST.PACE_WORST, MILEPOST.PACE_STATUS] ∧ { s.dev with time := d.time }.keepsUnits d ∧
      s.dev.oneRecord d (wordRecord s.dev.nowNs .system 0 0x0600 MILEPOST.PACE_STATUS (d.reg MILEPOST.PACE_STATUS) (s.dev.reg MILEPOST.PACE_STATUS)))

/-- For every state, agent, word and key: a write that is refused answers its cause, enters one REJECT record with the word written and the word now, and leaves every register and unit; a write of a word that its block does not list is ignored; a write at an unaligned key or of no block answers a bus error; a taken write of a LIVE word of MILEPOST without an action of its own puts the written bits in its writable fields, keeps the others, and enters one LIVE record; LIVE_FIELD_APPLY takes the oldest held write whose unit is between operations. Where a clause rests on a reading or a choice of the model, it is the model's and not the spec's: log entries 11, 12, 14, 22, 139, 142 and 143. -/
def Obligations.RegisterWrites : Prop :=
  ∀ s : State,
  (∀ (a : Agent) (k : Nat) (v : Word) (c : Cause), s.dev.refuses a.id k v c = true → k / 0x10000 ≠ 0 →
      Does (.registerWrite a k v) s fun d => d.answer = .rejected c ∧
      s.dev.oneRecord d (wordRecord s.dev.nowNs .reject (16 * c.code) a.id k v (s.dev.wordNow k)) ∧ s.dev.keepsRegs d [] ∧
      s.dev.keepsUnits d) ∧
  (∀ (a : Agent) (k : Nat) (v : Word), k % 4 = 0 → blockExists (k / 0x10000) = true → isGrpReg k = false → isMsix k = false →
      regHit k = none → Does (.registerWrite a k v) s fun d => d.answer = .ignored ∧ s.dev.keepsRegs d [] ∧ s.dev.keepsUnits d ∧
      s.dev.noRecord d) ∧
  (∀ (a : Agent) (k : Nat) (v : Word), (k % 4 ≠ 0 ∨ blockExists (k / 0x10000) = false) → Does (.registerWrite a k v) s fun d =>
      d.answer = .busError ∧ s.dev.keepsRegs d [] ∧ s.dev.keepsUnits d ∧ s.dev.noRecord d) ∧
  (∀ (a : Agent) (k : Nat) (v : Word), s.dev.takes a.id k v = true →
      k ∈ [MILEPOST.PACE_CTRL, MILEPOST.PACE_TARGET, MILEPOST.PACE_MARGIN_CFG, MILEPOST.PACE_STEP, MILEPOST.MP_REFQUAL] →
      Does (.registerWrite a k v) s fun d => d.answer = .ok ∧
      d.reg k = (s.dev.reg k &&& ~~~(accBits k .live)) ||| (v &&& accBits k .live) ∧
      s.dev.oneRecord d (wordRecord s.dev.nowNs .live 0 a.id k (d.reg k) (s.dev.reg k)) ∧ s.dev.keepsRegs d [k] ∧
      s.dev.keepsUnits d) ∧
  (∀ (p : LivePend), s.dev.livePend.find? (fun p => p.addr ≠ LEDGER.LG_CTRL ∧ ¬ s.dev.midOperation p.addr) = some p →
      p.addr ∈ [ADC.TRUE_CTRL 0, ADC.TRUE_CTRL 5, PWM.TRUE_CTRL 0, PWM.TRUE_CTRL 2] → Does (.liveFieldApply) s fun d =>
      d.livePend = s.dev.livePend.erase p ∧ d.reg p.addr = s.dev.afterWrite p.addr p.v ∧ s.dev.keepsRegs d [p.addr] ∧
      { s.dev with livePend := d.livePend }.keepsUnits d)

/-- For every state: LEDGER_DRAIN in DRAM mode writes the oldest buffered record to its ring place and frees its buffer place; a write of LG_CTRL that keeps or sets a target is taken and recorded, and one that leaves DRAM while records are buffered sets DRAINING and waits; LEDGER_TARGET_SWITCH makes that change once the buffer is empty; LG_WIN_SEQ copies the on-chip record of that sequence into the window, or sets GONE; LG_CLR zeroes the three counters; CHANGE_ADMITTED carries out the oldest waiting commit and takes it off the queue. Where a clause rests on a reading or a choice of the model, it is the model's and not the spec's: log entries 20, 21 and 22. -/
def Obligations.LedgerCommands : Prop :=
  ∀ s : State,
  (∀ (r : Record), s.dev.lgDram = true → s.dev.led.fresh = [] → s.dev.fld LEDGER.LG_STATUS_OCC ≠ 0 →
      s.dev.onChip (s.dev.reg LEDGER.LG_NEXT_SEQ - BitVec.ofNat 32 (s.dev.fld LEDGER.LG_STATUS_OCC)) = some r →
      Does (.ledgerDrain) s fun d => d.fld LEDGER.LG_STATUS_OCC = s.dev.fld LEDGER.LG_STATUS_OCC - 1 ∧
      d.reg LEDGER.LG_DRAINED_SEQ = s.dev.reg LEDGER.LG_NEXT_SEQ - BitVec.ofNat 32 (s.dev.fld LEDGER.LG_STATUS_OCC) + 1 ∧
      d.bytes (s.dev.ringAddr (s.dev.reg LEDGER.LG_NEXT_SEQ - BitVec.ofNat 32 (s.dev.fld LEDGER.LG_STATUS_OCC))) 32 = r.bytes ∧
      s.dev.keepsRegs d []) ∧
  (∀ (a : Agent) (v : Word), s.dev.takes a.id LEDGER.LG_CTRL v = true → s.dev.lgDram = false →
      Does (.ledgerTargetWrite a v) s fun d => d.answer = .ok ∧ d.fld LEDGER.LG_CTRL_TARGET = v.toNat % 4 ∧
      s.dev.keepsRegs d [] ∧
      s.dev.oneRecord d (wordRecord s.dev.nowNs .live 0 a.id LEDGER.LG_CTRL (d.reg LEDGER.LG_CTRL) (s.dev.reg LEDGER.LG_CTRL))) ∧
  (∀ (a : Agent) (v : Word), s.dev.lgDram = true → v.toNat % 4 = 0 → s.dev.refusalAt a.id LEDGER.LG_CTRL v = none →
      s.dev.ledgerOff 1 = false → Does (.ledgerTargetWrite a v) s fun d => d.answer = .ok ∧ d.lgDram = true ∧
      d.flag LEDGER.LG_STATUS_DRAINING = true ∧
      d.livePend = s.dev.livePend ++ [{ agent := a.id, addr := LEDGER.LG_CTRL, v := v }] ∧ s.dev.noRecord d) ∧
  (∀ (p : LivePend), s.dev.livePend = [p] → s.dev.led.waiting = [] → p.addr = LEDGER.LG_CTRL → p.v.toNat % 4 = 0 →
      s.dev.fld LEDGER.LG_STATUS_OCC = 0 → Does (.ledgerTargetSwitch) s fun d => d.lgDram = false ∧ d.livePend = [] ∧
      d.flag LEDGER.LG_STATUS_DRAINING = false ∧ s.dev.keepsRegs d []) ∧
  (∀ (a : Agent) (v : Word) (r : Record), s.dev.takes a.id LEDGER.LG_WIN_SEQ v = true → s.dev.onChip v = some r →
      Does (.lgWinSeqWrite a v) s fun d => d.answer = .ok ∧ d.reg LEDGER.LG_WIN_SEQ = v ∧
      (List.range 8).map (fun i => d.num (LEDGER.LG_WIN_DATA i)) = (List.range 8).map (fun i => ofBytes ((r.bytes.drop (4 * i)).take 4)) ∧
      d.flag LEDGER.LG_WIN_STATUS_VALID = true ∧ d.flag LEDGER.LG_WIN_STATUS_GONE = false ∧ s.dev.keepsRegs d [] ∧
      s.dev.keepsUnits d) ∧
  (∀ (a : Agent) (v : Word), s.dev.takes a.id LEDGER.LG_WIN_SEQ v = true → s.dev.onChip v = none →
      Does (.lgWinSeqWrite a v) s fun d => d.flag LEDGER.LG_WIN_STATUS_VALID = false ∧ d.flag LEDGER.LG_WIN_STATUS_GONE = true ∧
      s.dev.keepsRegs d [] ∧ s.dev.keepsUnits d) ∧
  (∀ (a : Agent) (v : Word), s.dev.takes a.id LEDGER.LG_CLR v = true → wordBit v 0 = true → s.dev.led.norQ.length < 256 →
      s.dev.led.fresh = [] → Does (.ledgerCountersClear a v) s fun d => d.answer = .ok ∧ d.num LEDGER.LG_NOR_DROPPED = 0 ∧
      d.num LEDGER.LG_STALL_COUNT = 0 ∧ d.num LEDGER.LG_STALL_MAX = 0 ∧ s.dev.keepsRegs d [] ∧ s.dev.keepsUnits d) ∧
  (∀ (w : Waiting) (v : Word), s.dev.led.waiting = [w] → w.kind = .write MILEPOST.PACE_STEP v → w.agent.toNat / 256 = 4 →
      s.dev.lgDram = false → s.dev.takes w.agent MILEPOST.PACE_STEP v = true → Does (.changeAdmitted) s fun d =>
      d.led.waiting = [] ∧ d.reg MILEPOST.PACE_STEP = s.dev.afterWrite MILEPOST.PACE_STEP v ∧
      d.flag LEDGER.LG_STATUS_STALLING = false ∧ d.answer = .ok)

/-- For every state and block: a staged write puts the word in the staging copy, claims an idle group for the writer and leaves the active word; GRP_CLAIM claims an idle group without staging; GRP_AT sets the commit time of the claimant; GRP_ABORT by the claimant releases the group, discards its staging copy and enters one SYSTEM record; CLAIM_LIMIT and CLAIM_AGE_EXPIRY abort a claim that is older than the limit and no other. Each clause says what stays. Where a clause rests on a reading or a choice of the model, it is the model's and not the spec's: log entries 11, 15, 16, 17, 19 and 148. -/
def Obligations.StagingAndClaims : Prop :=
  ∀ s : State,
  (∀ (a : Agent) (k : Nat) (v : Word) (g : Nat), s.dev.stages a.id k v g = true → Does (.stagedWrite a k v) s fun d =>
      d.answer = .ok ∧ Tab.find k (d.grp g).staged = some v ∧ (d.grp g).owner = a.id ∧ (d.grp g).st = .claimed ∧
      s.dev.noRecord d ∧ s.dev.keepsRegs d [] ∧ { s.dev with groups := d.groups }.keepsUnits d) ∧
  (∀ (a : Agent) (b : Fin 64) (v : Word), s.dev.grpOpen a.id b.val = true → wordBit v 31 = true →
      (s.dev.grp (grpKey b.val (s.dev.selected a.id b.val))).st = .idle → Does (.grpClaim a b v) s fun d => d.answer = .ok ∧
      d.grp (grpKey b.val (s.dev.selected a.id b.val)) = { s.dev.grp (grpKey b.val (s.dev.selected a.id b.val)) with st := .claimed, owner := a.id, claimT := s.dev.now, staged := [] } ∧
      s.dev.oneRecord d (wordRecord s.dev.nowNs .live 0 a.id (grpReg b 0xFF04) v 0) ∧ s.dev.keepsRegs d [] ∧
      { s.dev with groups := d.groups }.keepsUnits d) ∧
  (∀ (a : Agent) (b : Fin 64) (v : DWord), s.dev.grpOpen a.id b.val = true →
      (s.dev.grp (grpKey b.val (s.dev.selected a.id b.val))).st = .claimed →
      (s.dev.grp (grpKey b.val (s.dev.selected a.id b.val))).owner = a.id → Does (.grpAtWrite a b v) s fun d => d.answer = .ok ∧
      d.grp (grpKey b.val (s.dev.selected a.id b.val)) = { s.dev.grp (grpKey b.val (s.dev.selected a.id b.val)) with atT := v } ∧
      s.dev.keepsRegs d [] ∧ { s.dev with groups := d.groups, halfW := d.halfW }.keepsUnits d ∧ s.dev.noRecord d) ∧
  (∀ (a : Agent) (b : Fin 64) (v : Word), s.dev.grpOpen a.id b.val = true → wordBit v 0 = true →
      ((s.dev.grp (grpKey b.val (s.dev.selected a.id b.val))).st = .claimed ∨ (s.dev.grp (grpKey b.val (s.dev.selected a.id b.val))).st = .pending) →
      (s.dev.grp (grpKey b.val (s.dev.selected a.id b.val))).owner = a.id → Does (.grpAbort a b v) s fun d => d.answer = .ok ∧
      d.grp (grpKey b.val (s.dev.selected a.id b.val)) = (s.dev.grp (grpKey b.val (s.dev.selected a.id b.val))).release ∧
      s.dev.oneRecord d (wordRecord s.dev.nowNs .system 0 a.id (b.val * 0x10000 + 0xFF0C) (BitVec.ofNat 32 (s.dev.grp (grpKey b.val (s.dev.selected a.id b.val))).staged.length) (BitVec.ofNat 32 (s.dev.selected a.id b.val))) ∧
      s.dev.keepsRegs d [] ∧ { s.dev with groups := d.groups, gc := d.gc }.keepsUnits d) ∧
  (∀ (b g : Nat), g < 256 → s.dev.fld SYS.CLAIM_LIMIT_LIMIT_US ≠ 0 → (s.dev.grp (grpKey b g)).st ≠ .idle →
      nsT (s.dev.fld SYS.CLAIM_LIMIT_LIMIT_US * 1000) < s.dev.now - (s.dev.grp (grpKey b g)).claimT →
      Does (.claimAgeExpiry b g) s fun d => d.grp (grpKey b g) = (s.dev.grp (grpKey b g)).release ∧ s.dev.keepsRegs d [] ∧
      { s.dev with groups := d.groups, gc := d.gc }.keepsUnits d ∧
      s.dev.oneRecord d (wordRecord s.dev.nowNs .system 0 0x0600 (b * 0x10000 + 0xFF0C) (BitVec.ofNat 32 (s.dev.grp (grpKey b g)).staged.length) (BitVec.ofNat 32 g))) ∧
  (∀ (a : Agent) (v : Word), s.dev.takes a.id SYS.CLAIM_LIMIT v = true →
      (∀ p ∈ s.dev.groups, (s.dev.grp p.1).st = .idle ∨ v.toNat % 0x10000 = 0) → Does (.claimLimitWrite a v) s fun d =>
      d.answer = .ok ∧ d.fld SYS.CLAIM_LIMIT_LIMIT_US = v.toNat % 0x10000 ∧ d.groups = s.dev.groups ∧
      s.dev.keepsRegs d [SYS.CLAIM_LIMIT] ∧ s.dev.keepsUnits d) ∧
  (∀ (a : Agent) (v : Word) (k : Nat), s.dev.takes a.id SYS.CLAIM_LIMIT v = true → v.toNat % 0x10000 ≠ 0 →
      s.dev.groups.map (·.1) = [k] → (s.dev.grp k).st ≠ .idle →
      nsT (v.toNat % 0x10000 * 1000) < s.dev.now - (s.dev.grp k).claimT → Does (.claimLimitWrite a v) s fun d => d.answer = .ok ∧
      d.grp k = (s.dev.grp k).release ∧ s.dev.keepsRegs d [SYS.CLAIM_LIMIT] ∧
      { s.dev with groups := d.groups, gc := d.gc }.keepsUnits d)

/-- For every state and block: an accepted GO with MODE BOUNDARY or AT makes the claimed group PENDING with that mode, at this time, and leaves it so while its boundary or its time is not reached; GO with MODE NOW on a group of the fault manager or the Junction, and COMMIT_APPLY of a group pending AT a time that is reached, apply every staged word, take the next commit sequence, release the claim, note the time of application and enter the COMMIT records of the changed words. Where a clause rests on a reading or a choice of the model, it is the model's and not the spec's: log entries 16, 17, 18 and 19. -/
def Obligations.CommitsOfOneGroup : Prop :=
  ∀ s : State,
  (∀ (a : Agent) (b : Fin 64) (v : Word), s.dev.grpOpen a.id b.val = true → wordBit v 31 = true → v.toNat % 4 = 0 →
      s.dev.goRefusal a.id (grpKey b.val (s.dev.selected a.id b.val)) 0 = none → b.val ≠ 0x08 →
      s.dev.unitRuns (grpKey b.val (s.dev.selected a.id b.val)) = true → (b.val = 0x18 ∨ b.val = 0x19) →
      Does (.grpCommitBoundary a b v) s fun d => d.answer = .ok ∧
      d.grp (grpKey b.val (s.dev.selected a.id b.val)) = { s.dev.grp (grpKey b.val (s.dev.selected a.id b.val)) with st := .pending, mode := .boundary, goT := s.dev.now, target := unitTime b.val (s.dev.grp (grpKey b.val (s.dev.selected a.id b.val))).atT } ∧
      s.dev.oneRecord d (wordRecord s.dev.nowNs .live 0 a.id (grpReg b 0xFF08) v 0) ∧ s.dev.keepsRegs d [] ∧
      { s.dev with groups := d.groups }.keepsUnits d) ∧
  (∀ (a : Agent) (b : Fin 64) (v : Word), s.dev.grpOpen a.id b.val = true → wordBit v 31 = true → v.toNat % 4 = 1 →
      s.dev.goRefusal a.id (grpKey b.val (s.dev.selected a.id b.val)) 1 = none → b.val ≠ 0x08 →
      s.dev.due (unitTime b.val (s.dev.grp (grpKey b.val (s.dev.selected a.id b.val))).atT) = false →
      Does (.grpCommitAt a b v) s fun d => d.answer = .ok ∧
      d.grp (grpKey b.val (s.dev.selected a.id b.val)) = { s.dev.grp (grpKey b.val (s.dev.selected a.id b.val)) with st := .pending, mode := .atTime, goT := s.dev.now, target := unitTime b.val (s.dev.grp (grpKey b.val (s.dev.selected a.id b.val))).atT } ∧
      s.dev.oneRecord d (wordRecord s.dev.nowNs .live 0 a.id (grpReg b 0xFF08) v 0) ∧ s.dev.keepsRegs d [] ∧
      { s.dev with groups := d.groups }.keepsUnits d) ∧
  (∀ (a : Agent) (b : Fin 64) (v : Word), s.dev.grpOpen a.id b.val = true → wordBit v 31 = true → v.toNat % 4 = 2 →
      s.dev.goRefusal a.id (grpKey b.val (s.dev.selected a.id b.val)) 2 = none → (b.val = 0x04 ∨ b.val = 0x06) →
      s.dev.lgDram = false → s.dev.led.waiting = [] →
      Tab.sorted (s.dev.grp (grpKey b.val (s.dev.selected a.id b.val))).staged = true →
      (∀ p ∈ (s.dev.grp (grpKey b.val (s.dev.selected a.id b.val))).staged, groupOf p.1 = some (grpKey b.val (s.dev.selected a.id b.val))) →
      Does (.grpCommitNow a b v) s fun d => d.answer = .ok ∧
      (s.dev.grp (grpKey b.val (s.dev.selected a.id b.val))).staged.all (fun p => decide (d.reg p.1 = s.dev.mergeStg p.1 p.2)) = true ∧
      ((d.grp (grpKey b.val (s.dev.selected a.id b.val))).st = .idle ∧
      (d.grp (grpKey b.val (s.dev.selected a.id b.val))).staged = [] ∧
      (d.grp (grpKey b.val (s.dev.selected a.id b.val))).seq = s.dev.nextSeq.1 ∧
      (d.grp (grpKey b.val (s.dev.selected a.id b.val))).applied = unitTime ((grpKey b.val (s.dev.selected a.id b.val)) / 256) s.dev.now) ∧
      d.fld SYS.COMMIT_SEQ_SEQ = s.dev.nextSeq.1.toNat ∧
      s.dev.keepsRegs d (SYS.COMMIT_SEQ :: (s.dev.grp (grpKey b.val (s.dev.selected a.id b.val))).staged.map (·.1)) ∧
      { s.dev with groups := d.groups }.keepsUnits d) ∧
  (∀ (b g : Nat), (b = 0x04 ∨ b = 0x06) → g < 256 → (s.dev.grp (grpKey b g)).st = .pending →
      (s.dev.grp (grpKey b g)).mode = .atTime → s.dev.due (s.dev.grp (grpKey b g)).target = true →
      dist ((s.dev.grp (grpKey b g)).goT + commitSetup b) (s.dev.grp (grpKey b g)).target ≥ 0 → s.dev.lgDram = false →
      s.dev.led.waiting = [] → Tab.sorted (s.dev.grp (grpKey b g)).staged = true →
      (∀ p ∈ (s.dev.grp (grpKey b g)).staged, groupOf p.1 = some (grpKey b g)) → (s.dev.grpRecs (grpKey b g)).length ≤ 4032 →
      Does (.commitApply b g) s fun d =>
      (s.dev.grp (grpKey b g)).staged.all (fun p => decide (d.reg p.1 = s.dev.mergeStg p.1 p.2)) = true ∧
      ((d.grp (grpKey b g)).st = .idle ∧ (d.grp (grpKey b g)).staged = [] ∧ (d.grp (grpKey b g)).seq = s.dev.nextSeq.1 ∧
      (d.grp (grpKey b g)).applied = unitTime ((grpKey b g) / 256) (s.dev.grp (grpKey b g)).target) ∧
      d.fld SYS.COMMIT_SEQ_SEQ = s.dev.nextSeq.1.toNat ∧
      s.dev.keepsRegs d (SYS.COMMIT_SEQ :: (s.dev.grp (grpKey b g)).staged.map (·.1)) ∧
      { s.dev with groups := d.groups }.keepsUnits d ∧
      (∀ r ∈ commitRecords (s.dev.grp (grpKey b g)).target false s.dev.nextSeq.1 (s.dev.grpRecs (grpKey b g)), s.dev.led.fresh = [] →
      d.led.chip.any (fun q => decide ({ q with seq := r.seq } = r)) = true)) ∧
  (∀ (a : Agent) (b : Fin 64) (v : Word), s.dev.grpOpen a.id b.val = true → wordBit v 31 = true → v.toNat % 4 = 0 →
      s.dev.goRefusal a.id (grpKey b.val (s.dev.selected a.id b.val)) 0 = none → (b.val = 0x04 ∨ b.val = 0x06) →
      s.dev.lgDram = false → s.dev.led.waiting = [] →
      Tab.sorted (s.dev.grp (grpKey b.val (s.dev.selected a.id b.val))).staged = true →
      (∀ p ∈ (s.dev.grp (grpKey b.val (s.dev.selected a.id b.val))).staged, groupOf p.1 = some (grpKey b.val (s.dev.selected a.id b.val))) →
      Does (.grpCommitBoundary a b v) s fun d => d.answer = .ok ∧
      (s.dev.grp (grpKey b.val (s.dev.selected a.id b.val))).staged.all (fun p => decide (d.reg p.1 = s.dev.mergeStg p.1 p.2)) = true ∧
      ((d.grp (grpKey b.val (s.dev.selected a.id b.val))).st = .idle ∧
      (d.grp (grpKey b.val (s.dev.selected a.id b.val))).staged = [] ∧
      (d.grp (grpKey b.val (s.dev.selected a.id b.val))).seq = s.dev.nextSeq.1 ∧
      (d.grp (grpKey b.val (s.dev.selected a.id b.val))).applied = unitTime ((grpKey b.val (s.dev.selected a.id b.val)) / 256) s.dev.now) ∧
      d.fld SYS.COMMIT_SEQ_SEQ = s.dev.nextSeq.1.toNat ∧
      s.dev.keepsRegs d (SYS.COMMIT_SEQ :: (s.dev.grp (grpKey b.val (s.dev.selected a.id b.val))).staged.map (·.1)) ∧
      { s.dev with groups := d.groups }.keepsUnits d) ∧
  (∀ (b g : Nat), (b = 0x04 ∨ b = 0x06) → g < 256 → (s.dev.grp (grpKey b g)).st = .pending →
      (s.dev.grp (grpKey b g)).mode = .atTime → s.dev.due (s.dev.grp (grpKey b g)).target = true →
      dist ((s.dev.grp (grpKey b g)).goT + commitSetup b) (s.dev.grp (grpKey b g)).target < 0 → s.dev.lgDram = false →
      s.dev.led.waiting = [] → Tab.sorted (s.dev.grp (grpKey b g)).staged = true →
      (∀ p ∈ (s.dev.grp (grpKey b g)).staged, groupOf p.1 = some (grpKey b g)) → (s.dev.grpRecs (grpKey b g)).length ≤ 4032 →
      Does (.commitApply b g) s fun d =>
      (s.dev.grp (grpKey b g)).staged.all (fun p => decide (d.reg p.1 = s.dev.mergeStg p.1 p.2)) = true ∧
      ((d.grp (grpKey b g)).st = .idle ∧ (d.grp (grpKey b g)).late = true ∧
      (d.grp (grpKey b g)).applied = floorNs (maxT (s.dev.grp (grpKey b g)).goT (s.dev.grp (grpKey b g)).target)) ∧
      d.num MILEPOST.LATE_COUNT = satInc 0xFFFFFFFF (s.dev.num MILEPOST.LATE_COUNT) ∧
      d.reg64 MILEPOST.LATE_LAST = (s.dev.grp (grpKey b g)).target ∧ d.flag MILEPOST.MP_FLAGS_LATE = true)

/-- For every state: a write of a list entry or of GC_AT is taken, and claims an idle facility for its writer; GO with MODE ASAP makes every listed group GLOBAL and the facility PENDING for the first whole nanosecond at least 250 ns ahead; CANCEL returns the groups to CLAIMED and the facility to its owner; CLEAR invalidates the list and releases the facility; GLOBAL_COMMIT_APPLY of an empty set of groups shows its result, clears the list and releases the facility, and of a group of the fault manager or the Junction applies every staged word and releases its claim; a snapshot request waits for a time at least 250 ns ahead, and SNAPSHOT_LATCH at that time notes it, counts it and sets DONE. Where a clause rests on a reading or a choice of the model, it is the model's and not the spec's: log entries 16, 18, 19, 23, 34, 146 and 147. -/
def Obligations.GlobalCommitAndSnapshots : Prop :=
  ∀ s : State,
  (∀ (a : Agent) (n : Fin 64) (v : Word), s.dev.takes a.id (SYS.GC_LIST n) v = true → s.dev.gcState = 0 →
      Does (.gcListWrite a n v) s fun d => d.answer = .ok ∧ d.reg (SYS.GC_LIST n) = s.dev.afterWrite (SYS.GC_LIST n) v ∧
      d.gcState = 1 ∧ d.gcOwner = a.id ∧ s.dev.keepsRegs d [SYS.GC_LIST n, SYS.GC_STATUS] ∧ s.dev.keepsUnits d) ∧
  (∀ (a : Agent) (v : DWord), s.dev.takesWide a.id SYS.GC_AT v = true → s.dev.gcState = 0 → Does (.gcAtWrite a v) s fun d =>
      d.answer = .ok ∧ d.reg64 SYS.GC_AT = v ∧ d.gcState = 1 ∧ d.gcOwner = a.id ∧
      s.dev.keepsRegs d [SYS.GC_AT, SYS.GC_AT + 4, SYS.GC_STATUS] ∧ { s.dev with halfW := d.halfW }.keepsUnits d) ∧
  (∀ (a : Agent) (v : Word), s.dev.takes a.id SYS.GC_CTRL v = true → wordBit v 31 = true → wordBit v 0 = true →
      s.dev.gcOwner = a.id → Does (.gcGo a v) s fun d => d.answer = .ok ∧
      d.gc = some { groups := sortBy id s.dev.gcEntries, target := s.dev.soon, applyAt := s.dev.soon, late := false } ∧
      d.gcState = 2 ∧ d.gcOwner = a.id ∧
      s.dev.gcEntries.all (fun k => decide (d.grp k = { s.dev.grp k with st := .global, goT := s.dev.now })) = true ∧
      s.dev.keepsRegs d [SYS.GC_STATUS, SYS.GC_CTRL] ∧ { s.dev with gc := d.gc, groups := d.groups }.keepsUnits d) ∧
  (∀ (a : Agent) (v : Word) (k : Nat) (g : GlobalCommit), s.dev.takes a.id SYS.GC_CTRL v = true → wordBit v 30 = true →
      s.dev.gc = some g → k ∈ g.groups → Does (.gcCancel a v) s fun d => d.answer = .ok ∧ d.gc = none ∧ d.gcState = 1 ∧
      d.gcOwner = s.dev.gcOwner ∧ ((d.grp k).st = .claimed ∧ (d.grp k).staged = (s.dev.grp k).staged) ∧
      s.dev.keepsRegs d [SYS.GC_STATUS, SYS.GC_CTRL] ∧ { s.dev with gc := d.gc, groups := d.groups }.keepsUnits d) ∧
  (∀ (a : Agent) (v : Word), s.dev.takes a.id SYS.GC_CTRL v = true → wordBit v 29 = true → Does (.gcClear a v) s fun d =>
      d.answer = .ok ∧ d.gcState = 0 ∧ d.gcOwner = 0 ∧ d.gcEntries = [] ∧
      s.dev.keepsRegs d (SYS.GC_STATUS :: SYS.GC_CTRL :: (List.range 64).map SYS.GC_LIST) ∧ s.dev.keepsUnits d) ∧
  (∀ (g : GlobalCommit), s.dev.gc = some g → g.groups = [] → g.late = false → s.dev.due g.applyAt = true →
      s.dev.led.waiting = [] → Does (.globalCommitApply) s fun d => d.gc = none ∧ d.gcState = 0 ∧ d.gcEntries = [] ∧
      d.reg64 SYS.GC_APPLIED = g.applyAt ∧ d.num SYS.GC_RESULT = 0 ∧ d.flag SYS.GC_STATUS_LATE = false ∧
      { s.dev with gc := none }.keepsUnits d ∧ s.dev.noRecord d) ∧
  (∀ (g : GlobalCommit) (k : Nat), s.dev.gc = some g → g.groups = [k] → (k / 256 = 0x04 ∨ k / 256 = 0x06) → g.late = false →
      s.dev.due g.applyAt = true → s.dev.lgDram = false → s.dev.led.waiting = [] → s.dev.regulated = true →
      Tab.sorted (s.dev.grp k).staged = true → (∀ p ∈ (s.dev.grp k).staged, groupOf p.1 = some k) →
      Does (.globalCommitApply) s fun d => d.gc = none ∧ d.gcState = 0 ∧ d.gcEntries = [] ∧ d.reg64 SYS.GC_APPLIED = g.applyAt ∧
      d.fld SYS.GC_RESULT_SEQ = s.dev.nextSeq.1.toNat ∧ d.fld SYS.GC_RESULT_RECORDS = (s.dev.grpRecs k).length % 0x10000 ∧
      ((d.grp k).st = .idle ∧ (d.grp k).staged = []) ∧
      (s.dev.grp k).staged.all (fun p => decide (d.reg p.1 = s.dev.mergeStg p.1 p.2)) = true) ∧
  (∀ (a : Agent) (v : Word), s.dev.takes a.id SYS.SNAP_CTRL v = true → wordBit v 0 = true → wordBit v 1 = false →
      s.dev.snap = none → Does (.snapRequest a v) s fun d => d.answer = .ok ∧
      d.snap = some { mask := s.dev.reg64 SYS.SNAP_MASK, latchAt := s.dev.soon, target := floorNs (s.dev.reg64 SYS.SNAP_AT), late := false } ∧
      d.flag SYS.SNAP_STATUS_PENDING = true ∧ s.dev.keepsRegs d [SYS.SNAP_CTRL, SYS.SNAP_STATUS] ∧
      { s.dev with snap := d.snap }.keepsUnits d) ∧
  (∀ (x : Snapshot), s.dev.snap = some x → x.mask = 0 → x.late = false → s.dev.due x.latchAt = true →
      Does (.snapshotLatch) s fun d => d.snap = none ∧ d.reg64 SYS.SNAP_TIME = x.latchAt ∧
      d.fld SYS.SNAP_STATUS_COUNT = (s.dev.fld SYS.SNAP_STATUS_COUNT + 1) % 0x10000 ∧ d.flag SYS.SNAP_STATUS_DONE = true ∧
      d.flag SYS.SNAP_STATUS_PENDING = false ∧ d.flag SYS.SNAP_CTRL_REQUEST = false ∧ { s.dev with snap := none }.keepsUnits d) ∧
  (∀ (x : Snapshot) (o : Nat), s.dev.snap = some x → x.mask = 0x100000000 → x.late = false → o < 32 →
      s.dev.due x.latchAt = true → Does (.snapshotLatch) s fun d => d.snap = none ∧ d.flag SYS.SNAP_STATUS_DONE = true ∧
      d.reg (PWM.SNAP_CMP o) = s.dev.reg (outNow o))

/-- For every state: VIN_RISE from off, SUPPLY_OFF outside a power loss, PIN_RESET and POWER_LOSS_RESTART put the whole device at its power-on state (R13, R56) in the phase that follows, keeping only the flash contents, for PIN_RESET also the powered rails, and the count of open values drawn; INSERTION_WAIT_END and VINT_RAMP_DONE move the phase on and change nothing else; SUPPLY_OFF is ignored while a VIN_FAIL trip has not written its waypoint and VINT stands at 3.0 V or more; VIN_FAIL_ARM arms VIN_FAIL after 1 ms and changes nothing else. Where a clause rests on a reading or a choice of the model, it is the model's and not the spec's: log entries 7, 10, 30, 38 and 39. -/
def Obligations.SupplyCommands : Prop :=
  ∀ s : State,
  (s.dev.phase = .off → Does (.vinRise) s fun d =>
      d = { Dev.powerOn with phase := .insertion, flash := { nor := s.dev.flash.nor }, freeCount := s.dev.freeCount }) ∧
  (s.dev.phase = .insertion → Does (.insertionWaitEnd) s fun d => d.phase = .ramp ∧ s.dev.keepsRegs d [] ∧
      { s.dev with phase := .ramp }.keepsUnits d ∧ s.dev.noRecord d) ∧
  (s.dev.phase = .ramp → Does (.vintRampDone) s fun d => d.phase = .rails ∧ s.dev.keepsRegs d [] ∧
      { s.dev with phase := .rails }.keepsUnits d ∧ s.dev.noRecord d) ∧
  (s.dev.loss = none → Does (.supplyOff) s fun d =>
      d = { Dev.powerOn with phase := .off, flash := { nor := s.dev.flash.nor }, freeCount := s.dev.freeCount }) ∧
  (∀ (l : PowerLoss), s.dev.loss = some l → l.written = none → 3000 ≤ s.dev.num SUPPLY.MON_VINT → Does (.supplyOff) s fun d =>
      d.answer = .ignored ∧ s.dev.keepsRegs d [] ∧ s.dev.keepsUnits d ∧ s.dev.noRecord d) ∧
  (s.dev.phase = .good → Does (.pinReset) s fun d =>
      d = { { Dev.powerOn with phase := .pinReset, flash := { nor := s.dev.flash.nor }, freeCount := s.dev.freeCount } with domUp := s.dev.domUp }) ∧
  (∀ (t : Time), s.dev.sup.vinSince = some t → s.dev.due (t + nsT 1000000) = true → Does (.vinFailArm) s fun d =>
      d.sup = { s.dev.sup with armed := true } ∧ s.dev.keepsRegs d [] ∧ { s.dev with sup := d.sup }.keepsUnits d ∧
      s.dev.noRecord d) ∧
  (∀ (l : PowerLoss) (t : Time), s.dev.loss = some l → l.written = some t → Does (.powerLossRestart true) s fun d =>
      d = { Dev.powerOn with phase := .off, flash := { nor := s.dev.flash.nor }, freeCount := s.dev.freeCount }) ∧
  (∀ (l : PowerLoss) (t a : Time), s.dev.loss = some l → l.written = some t → l.above = some a →
      s.dev.due (laterT t a + nsT 1000000) = true → Does (.powerLossRestart false) s fun d =>
      d = { Dev.powerOn with phase := .insertion, flash := { nor := s.dev.flash.nor }, freeCount := s.dev.freeCount })

/-- For every state: VIN_GOOD, and PIN_RESET_RELEASE from a reset device, power the domains that are ON, start core 0 in the boot ROM and the loader; a flash that never answers or cannot be switched gives FLASH for both copies and NOCONFIG; a read without data waits. In a loading device: FLASH_READ_TIMEOUT of copy A gives its result FLASH and tries copy B, and of copy B gives NOCONFIG; LOADER_POLL_TIMEOUT of copy B gives POLL, NOCONFIG and the configuration reset of R80; LOADER_POLL_DONE and LOADER_DELAY_END take up the next entry, here a DELAY; TIE_ALIGN_WAIT_END and TIE_START_TIMEOUT issue the first global commit and show OK and the serial number, the timeout setting TIE_TIMEOUT; MEMORY_INIT_DONE fills a powered memory with zeros and makes its domain ready. Where a clause rests on a reading or a choice of the model, it is the model's and not the spec's: log entries 30, 31, 32, 33, 34, 35 and 41. -/
def Obligations.LoaderCommands : Prop :=
  ∀ s : State,
  (s.dev.phase = .rails → Does (.vinGood .silent) s fun d => d.phase = .good ∧ d.coreState 0 = 1 ∧
      (∀ n : Fin 59, s.dev.domOn n.val = true → domTimed n.val = false → d.domReady n.val = true) ∧
      (∀ n : Fin 12, s.dev.domOn (n.val + 4) = true → d.domReady (n.val + 4) = true) ∧ d.fld NVM.BOOT_STATUS_STATE = 3 ∧
      d.fld NVM.BOOT_STATUS_A_RESULT = 2 ∧ d.fld NVM.BOOT_STATUS_B_RESULT = 2 ∧ d.loader = none ∧
      d.flash = { s.dev.flash with answers := false, calibAt := d.flash.calibAt, queue := d.flash.queue } ∧
      d.groups = s.dev.groups) ∧
  (s.dev.phase = .rails → Does (.vinGood .unswitched) s fun d => d.phase = .good ∧ d.coreState 0 = 1 ∧
      (∀ n : Fin 59, s.dev.domOn n.val = true → domTimed n.val = false → d.domReady n.val = true) ∧
      (∀ n : Fin 12, s.dev.domOn (n.val + 4) = true → d.domReady (n.val + 4) = true) ∧ d.fld NVM.BOOT_STATUS_STATE = 3 ∧
      d.fld NVM.BOOT_STATUS_A_RESULT = 2 ∧ d.fld NVM.BOOT_STATUS_B_RESULT = 2 ∧ d.loader = none ∧
      d.flash = { s.dev.flash with answers := s.dev.flash.answers, calibAt := d.flash.calibAt, queue := d.flash.queue } ∧
      d.groups = s.dev.groups) ∧
  (∀ (l : List Bool), s.dev.phase = .rails → Does (.vinGood (.ready (false :: l))) s fun d => d.phase = .good ∧
      d.coreState 0 = 1 ∧ (∀ n : Fin 59, s.dev.domOn n.val = true → domTimed n.val = false → d.domReady n.val = true) ∧
      (∀ n : Fin 12, s.dev.domOn (n.val + 4) = true → d.domReady (n.val + 4) = true) ∧
      d.loader = some { copyB := false, wait := some .read, since := s.dev.now, until_ := 0 } ∧ d.fld NVM.BOOT_STATUS_STATE = 1 ∧
      d.fld NVM.BOOT_STATUS_COPY = 0) ∧
  (∀ (f : FlashStart), s.dev.phase = .pinReset → (f = .silent ∨ f = .unswitched) → Does (.pinResetRelease f) s fun d =>
      d.phase = .good ∧ d.coreState 0 = 1 ∧ (∀ n : Fin 59, Dev.powerOn.domOn n.val = true → domTimed n.val = false →
      d.domReady n.val = true) ∧ (∀ n : Fin 12, Dev.powerOn.domOn (n.val + 4) = true → d.domReady (n.val + 4) = true) ∧
      d.fld NVM.BOOT_STATUS_STATE = 3 ∧ d.fld NVM.BOOT_STATUS_A_RESULT = 2 ∧ d.fld NVM.BOOT_STATUS_B_RESULT = 2 ∧
      d.loader = none ∧ d.groups = [] ∧ d.time = {} ∧ d.freeCount = s.dev.freeCount) ∧
  (∀ (l : Loader) (x : List Bool), s.dev.loader = some l → l.wait = some .read → l.copyB = false → l.applied = false →
      s.dev.due (l.since + nsT 10000) = true → s.dev.flash.strobes = false :: x → Does (.flashReadTimeout) s fun d =>
      d.fld NVM.BOOT_STATUS_A_RESULT = 2 ∧ d.fld NVM.BOOT_STATUS_COPY = 1 ∧
      d.loader = some { copyB := true, wait := some .read, since := s.dev.now, until_ := 0 } ∧
      d.flash = { s.dev.flash with strobes := x, queue := d.flash.queue } ∧ s.dev.keepsRegs d [NVM.BOOT_STATUS] ∧
      { s.dev with loader := d.loader, flash := d.flash }.keepsUnits d ∧ s.dev.noRecord d) ∧
  (∀ (l : Loader), s.dev.loader = some l → l.wait = some .read → l.copyB = true → l.applied = false →
      s.dev.due (l.since + nsT 10000) = true → Does (.flashReadTimeout) s fun d => d.fld NVM.BOOT_STATUS_B_RESULT = 2 ∧
      d.fld NVM.BOOT_STATUS_STATE = 3 ∧ d.loader = none ∧ s.dev.keepsRegs d [NVM.BOOT_STATUS] ∧
      { s.dev with loader := d.loader }.keepsUnits d ∧ s.dev.noRecord d) ∧
  (∀ (l : Loader) (k : Nat) (v : Word) (x : Bool), s.dev.loader = some l → l.wait = some (.poll k v x) → l.copyB = true →
      l.applied = true → s.dev.due (l.since + nsT 10000000) = true → Does (.loaderPollTimeout) s fun d =>
      d.fld NVM.BOOT_STATUS_B_RESULT = 9 ∧ d.fld NVM.BOOT_STATUS_STATE = 3 ∧ d.loader = none ∧ (d.slots = [] ∧ d.tims = [] ∧
      d.adcs = [] ∧ d.comps = [] ∧ d.outs = [] ∧ d.phs = [] ∧ d.engs = [] ∧ d.thrs = [] ∧ d.dmas = [] ∧ d.tie = {}) ∧
      d.atReset (fun k => decide (0x100000 ≤ k) && decide (k < 0x300000) && !resetKeeps k && decide (k ≠ LOOP.SUP_STATUS) && !(decide (k < 0x160000) && ((List.range 6).any fun b => k = ADC.TRUE_STATUS b || k = ADC.TRUE_FAIL b)) && !((List.range 96).any fun c => k = ADC.CH_STATUS c) && !((List.range 3).any fun b => k = PWM.TRUE_FAIL b || k = PWM.TRUE_LINE b)) = true ∧
      d.coreState 0 = 1 ∧ d.time = s.dev.time ∧ d.flash = { s.dev.flash with queue := d.flash.queue }) ∧
  (∀ (l : Loader) (o n : Nat) (x : Word) (k : Nat) (v : Word) (y : Bool), s.dev.loader = some l → l.cur = some (o, n) → 8 ≤ n →
      s.dev.bytes (cutBase + o) 8 = [0, 3, 0, 0] ++ toBytes 4 x.toNat → x ≠ 0 → l.wait = some (.poll k v y) →
      s.dev.pollMet k v y = true → Does (.loaderPollDone) s fun d =>
      d.loader = some { l with wait := some .delay, cur := some (o + 8, n - 8), since := s.dev.now, until_ := s.dev.now + nsT x.toNat } ∧
      s.dev.keepsRegs d [] ∧ { s.dev with loader := d.loader }.keepsUnits d ∧ s.dev.noRecord d) ∧
  (∀ (l : Loader) (o n : Nat) (x : Word), s.dev.loader = some l → l.cur = some (o, n) → 8 ≤ n →
      s.dev.bytes (cutBase + o) 8 = [0, 3, 0, 0] ++ toBytes 4 x.toNat → x ≠ 0 → l.wait = some .delay →
      s.dev.due l.until_ = true → s.dev.led.waiting = [] → Does (.loaderDelayEnd) s fun d =>
      d.loader = some { l with wait := some .delay, cur := some (o + 8, n - 8), since := s.dev.now, until_ := s.dev.now + nsT x.toNat } ∧
      s.dev.keepsRegs d [] ∧ { s.dev with loader := d.loader }.keepsUnits d ∧ s.dev.noRecord d) ∧
  (∀ (l : Loader), s.dev.loader = some l → l.wait = some .tie →
      (s.dev.flag TIE.TIE_STATUS_ALIGNED = true ∨ s.dev.tieMaster = true) → s.dev.takes 0 SYS.GC_CTRL 0x80000001 = true →
      s.dev.gcOwner = 0 → Does (.tieAlignWaitEnd) s fun d =>
      d.gc = some { groups := sortBy id s.dev.gcEntries, target := s.dev.soon, applyAt := s.dev.soon, late := false } ∧
      d.gcState = 2 ∧ d.fld (resultFld l.copyB) = 1 ∧
      d.reg64 NVM.BOOT_SERIAL = BitVec.ofNat 64 (ofBytes (s.dev.bytes (cutBase + 0x10) 8)) ∧
      d.loader = some { l with wait := some .go, since := s.dev.now, until_ := 0 } ∧
      { s.dev with gc := d.gc, groups := d.groups, loader := d.loader }.keepsUnits d ∧
      s.dev.keepsRegs d [SYS.GC_STATUS, SYS.GC_CTRL, NVM.BOOT_STATUS, NVM.BOOT_SERIAL, NVM.BOOT_SERIAL + 4] ∧
      d.flag NVM.BOOT_STATUS_TIE_TIMEOUT = s.dev.flag NVM.BOOT_STATUS_TIE_TIMEOUT) ∧
  (∀ (l : Loader), s.dev.loader = some l → l.wait = some .tie → s.dev.due l.until_ = true →
      s.dev.takes 0 SYS.GC_CTRL 0x80000001 = true → s.dev.gcOwner = 0 → Does (.tieStartTimeout) s fun d =>
      d.gc = some { groups := sortBy id s.dev.gcEntries, target := s.dev.soon, applyAt := s.dev.soon, late := false } ∧
      d.gcState = 2 ∧ d.fld (resultFld l.copyB) = 1 ∧
      d.reg64 NVM.BOOT_SERIAL = BitVec.ofNat 64 (ofBytes (s.dev.bytes (cutBase + 0x10) 8)) ∧
      d.loader = some { l with wait := some .go, since := s.dev.now, until_ := 0 } ∧
      { s.dev with gc := d.gc, groups := d.groups, loader := d.loader }.keepsUnits d ∧
      s.dev.keepsRegs d [SYS.GC_STATUS, SYS.GC_CTRL, NVM.BOOT_STATUS, NVM.BOOT_SERIAL, NVM.BOOT_SERIAL + 4] ∧
      d.flag NVM.BOOT_STATUS_TIE_TIMEOUT = true) ∧
  (∀ (c m base n : Nat), memDomain c = some (m, base, n) → s.dev.domUp.contains m = true → s.dev.domReady m = false →
      Does (.memoryInitDone c) s fun d => d.domReady m = true ∧ (∀ i, i < n → d.byte (base + i) = 0) ∧
      (c < 8 ∨ 0x10 ≤ c ∨ bitOf (d.fld MEMCTL.SRAM_STATUS_READY) (c - 8) = true) ∧
      s.dev.keepsRegs d [SUPPLY.DOM_STATUS_0, SUPPLY.DOM_STATUS_1, MEMCTL.SRAM_STATUS] ∧ s.dev.noRecord d)

/-- For every state: VIN_FAIL, armed and with VIN below the threshold, drives every output over the hardwired path, shows VIN, raises event 0, reports source 0, disarms, stops every timer and DMA channel and keeps for the waypoint the time, VIN, Tj and the Ledger sequence numbers; WAYPOINT_WRITE programs an armed waypoint into its erased sector, so that the sector then holds a waypoint that the check of R91 accepts, with the time of the trip, and skips one that is not armed; WP_RELEASE starts the erase of the sector and WAYPOINT_ERASE_DONE completes it: READY sets, and the waypoint is armed after first regulation. Where a clause rests on a reading or a choice of the model, it is the model's and not the spec's: log entries 36, 37, 42, 48 and 149. -/
def Obligations.PowerLossCommands : Prop :=
  ∀ s : State,
  (∀ (v : Nat), s.dev.sup.armed = true → v < s.dev.fld SUPPLY.VIN_FAIL_CFG_THRESH * 5 → Does (.vinFail v) s fun d =>
      d.hardSafe = true ∧ d.num SUPPLY.MON_VIN = v ∧
      d.events.any (fun e => decide (e.id = 0) && decide (e.stamp = floorNs s.dev.now)) = true ∧
      d.faults = s.dev.faults ++ [{ src := 0, unit := 0, stamp := s.dev.nowNs }] ∧ d.sup.armed = false ∧ d.tims = [] ∧
      d.dmas = [] ∧ d.adcTrig = [] ∧
      d.loss.any (fun l => decide (l.t = s.dev.nowNs) && decide (l.appendLost = (s.dev.flash.unmarked.isSome || !s.dev.flash.queue.isEmpty)) &&  decide (l.vin = v) && decide (l.tj = s.dev.num SUPPLY.MON_TJ) && decide (l.nextSeq = s.dev.reg LEDGER.LG_NEXT_SEQ) && decide (l.drained = s.dev.reg LEDGER.LG_DRAINED_SEQ) && l.written.isNone) = true ∧
      d.groups = s.dev.groups ∧ (d.led.norQ = [] ∨ s.dev.fld LEDGER.LG_NOR_MIRROR_KINDS ≠ 0)) ∧
  (∀ (l : PowerLoss), s.dev.loss = some l → l.written = none → s.dev.flash.ops = [] → s.dev.flag NVM.WP_STATUS_ARMED = true →
      s.dev.norBlank flashWaypoint = true → Does (.waypointWrite) s fun d => d.loss = some { l with written := some s.dev.now } ∧
      d.waypointValid = true ∧ ofBytes (d.norBytes (flashWaypoint + 8) 8) = l.t.toNat ∧ d.flag NVM.WP_STATUS_READY = false ∧
      d.flag NVM.WP_STATUS_ARMED = false ∧ s.dev.keepsRegs d [NVM.WP_STATUS] ∧
      { s.dev with loss := d.loss, flash := d.flash }.keepsUnits d ∧ s.dev.noRecord d) ∧
  (∀ (l : PowerLoss), s.dev.loss = some l → l.written = none → s.dev.flash.ops = [] → s.dev.flag NVM.WP_STATUS_ARMED = false →
      Does (.waypointWrite) s fun d => d.loss = some { l with written := some s.dev.now } ∧ s.dev.keepsRegs d [] ∧
      { s.dev with loss := d.loss }.keepsUnits d ∧ s.dev.noRecord d) ∧
  (∀ (a : Agent) (v : Word), s.dev.takes a.id NVM.WP_CTRL v = true → wordBit v 0 = true → Does (.wpRelease a v) s fun d =>
      d.answer = .ok ∧ d.flag NVM.WP_STATUS_FOUND = false ∧ d.flag NVM.WP_STATUS_READY = false ∧
      d.flag NVM.WP_STATUS_ERASING = true ∧ d.flag NVM.WP_STATUS_ARMED = false ∧ d.flash.wpErase = true ∧
      s.dev.keepsRegs d [NVM.WP_STATUS, NVM.WP_CTRL] ∧
      { s.dev with flash := { s.dev.flash with wpErase := true } }.keepsUnits d ∧
      s.dev.oneRecord d (wordRecord s.dev.nowNs .live 0 a.id NVM.WP_CTRL v 0)) ∧
  (s.dev.flash.wpErase = true → Does (.waypointEraseDone) s fun d => d.flag NVM.WP_STATUS_ERASING = false ∧
      d.flag NVM.WP_STATUS_READY = true ∧ d.flag NVM.WP_STATUS_ARMED = s.dev.regulated ∧ d.norBlank flashWaypoint = true ∧
      (∀ k : Nat, k / 4096 ≠ flashWaypoint / 4096 → d.nor k = s.dev.nor k) ∧ s.dev.keepsRegs d [NVM.WP_STATUS] ∧
      { s.dev with flash := d.flash }.keepsUnits d ∧ s.dev.noRecord d)

/-- For every state: an accepted FL_CTRL write with OP READ, PROGRAM, ERASE_SECTOR or CHECK takes FL_ADDR, FL_LEN and FL_BUF into an operation at the end of the queue, sets BUSY and makes a LIVE record; FLASH_OP_DONE carries out the operation in front: a READ of a legal length stores the flash bytes into the open on-chip buffer; a PROGRAM within one page clears bits of the flash by the bytes of the buffer; an ERASE_SECTOR of an aligned address makes the sector read all ones and changes no other byte; an unaligned one or a length of 0 sets ERROR; each raises event 1210 and clears BUSY when no operation waits. Where a clause rests on a reading or a choice of the model, it is the model's and not the spec's: log entries 30, 42, 47, 81 and 150. -/
def Obligations.FlashCommands : Prop :=
  ∀ s : State,
  (∀ (a : Agent) (v : Word), s.dev.takes a.id NVM.FL_CTRL v = true → v.toNat % 16 = 1 → Does (.flashRead a v) s fun d =>
      d.answer = .ok ∧
      d.flash = { s.dev.flash with ops := s.dev.flash.ops ++ [{ op := .read, addr := s.dev.fld NVM.FL_ADDR_ADDR, len := s.dev.fld NVM.FL_LEN_LEN, buf := (s.dev.reg64 NVM.FL_BUF).toNat % 2 ^ 40, copyB := wordBit v 8, agent := a.id }], queue := d.flash.queue } ∧
      d.flag NVM.FL_STATUS_BUSY = true ∧ s.dev.keepsRegs d [NVM.FL_CTRL, NVM.FL_STATUS] ∧
      { s.dev with flash := d.flash }.keepsUnits d ∧ s.dev.oneRecord d (wordRecord s.dev.nowNs .live 0 a.id NVM.FL_CTRL v 0)) ∧
  (∀ (a : Agent) (v : Word), s.dev.takes a.id NVM.FL_CTRL v = true → v.toNat % 16 = 2 → Does (.flashProgram a v) s fun d =>
      d.answer = .ok ∧
      d.flash = { s.dev.flash with ops := s.dev.flash.ops ++ [{ op := .program, addr := s.dev.fld NVM.FL_ADDR_ADDR, len := s.dev.fld NVM.FL_LEN_LEN, buf := (s.dev.reg64 NVM.FL_BUF).toNat % 2 ^ 40, copyB := wordBit v 8, agent := a.id }], queue := d.flash.queue } ∧
      d.flag NVM.FL_STATUS_BUSY = true ∧ s.dev.keepsRegs d [NVM.FL_CTRL, NVM.FL_STATUS] ∧
      { s.dev with flash := d.flash }.keepsUnits d ∧ s.dev.oneRecord d (wordRecord s.dev.nowNs .live 0 a.id NVM.FL_CTRL v 0)) ∧
  (∀ (a : Agent) (v : Word), s.dev.takes a.id NVM.FL_CTRL v = true → v.toNat % 16 = 3 → Does (.flashEraseSector a v) s fun d =>
      d.answer = .ok ∧
      d.flash = { s.dev.flash with ops := s.dev.flash.ops ++ [{ op := .erase, addr := s.dev.fld NVM.FL_ADDR_ADDR, len := s.dev.fld NVM.FL_LEN_LEN, buf := (s.dev.reg64 NVM.FL_BUF).toNat % 2 ^ 40, copyB := wordBit v 8, agent := a.id }], queue := d.flash.queue } ∧
      d.flag NVM.FL_STATUS_BUSY = true ∧ s.dev.keepsRegs d [NVM.FL_CTRL, NVM.FL_STATUS] ∧
      { s.dev with flash := d.flash }.keepsUnits d ∧ s.dev.oneRecord d (wordRecord s.dev.nowNs .live 0 a.id NVM.FL_CTRL v 0)) ∧
  (∀ (a : Agent) (v : Word), s.dev.takes a.id NVM.FL_CTRL v = true → v.toNat % 16 = 4 → Does (.flashCheck a v) s fun d =>
      d.answer = .ok ∧
      d.flash = { s.dev.flash with ops := s.dev.flash.ops ++ [{ op := .check, addr := s.dev.fld NVM.FL_ADDR_ADDR, len := s.dev.fld NVM.FL_LEN_LEN, buf := (s.dev.reg64 NVM.FL_BUF).toNat % 2 ^ 40, copyB := wordBit v 8, agent := a.id }], queue := d.flash.queue } ∧
      d.flag NVM.FL_STATUS_BUSY = true ∧ s.dev.keepsRegs d [NVM.FL_CTRL, NVM.FL_STATUS] ∧
      { s.dev with flash := d.flash }.keepsUnits d ∧ s.dev.oneRecord d (wordRecord s.dev.nowNs .live 0 a.id NVM.FL_CTRL v 0)) ∧
  (∀ (x : FlashOp) (rest : List FlashOp), s.dev.flash.ops = x :: rest → x.op = .erase → x.addr % 4096 = 0 →
      s.dev.flash.answers = true → Does (.flashOpDone) s fun d => d.flash.ops = rest ∧
      d.flag NVM.FL_STATUS_BUSY = !rest.isEmpty ∧ s.dev.raised d [1210] ∧ s.dev.keepsRegs d (NVM.FL_STATUS :: eccWords) ∧
      d.flag NVM.FL_STATUS_DONE = true ∧ d.norBlank x.addr = true ∧ (∀ k : Nat, k / 4096 ≠ x.addr / 4096 →
      d.nor k = s.dev.nor k) ∧ s.dev.noRecord d ∧ { s.dev with flash := d.flash }.keepsUnits d) ∧
  (∀ (x : FlashOp) (rest : List FlashOp), s.dev.flash.ops = x :: rest → x.op = .erase → x.addr % 4096 ≠ 0 →
      Does (.flashOpDone) s fun d => d.flash.ops = rest ∧ d.flag NVM.FL_STATUS_BUSY = !rest.isEmpty ∧ s.dev.raised d [1210] ∧
      s.dev.keepsRegs d (NVM.FL_STATUS :: eccWords) ∧ d.flag NVM.FL_STATUS_ERROR = true ∧
      d.flash = { s.dev.flash with ops := rest, queue := d.flash.queue } ∧ s.dev.noRecord d ∧
      { s.dev with flash := d.flash }.keepsUnits d) ∧
  (∀ (x : FlashOp) (rest : List FlashOp), s.dev.flash.ops = x :: rest → x.op = .program → x.len = 0 →
      Does (.flashOpDone) s fun d => d.flash.ops = rest ∧ d.flag NVM.FL_STATUS_BUSY = !rest.isEmpty ∧ s.dev.raised d [1210] ∧
      s.dev.keepsRegs d (NVM.FL_STATUS :: eccWords) ∧ d.flag NVM.FL_STATUS_ERROR = true ∧
      d.flash = { s.dev.flash with ops := rest, queue := d.flash.queue } ∧ s.dev.noRecord d ∧
      { s.dev with flash := d.flash }.keepsUnits d) ∧
  (∀ (x : FlashOp) (rest : List FlashOp), s.dev.flash.ops = x :: rest → x.op = .read → 1 ≤ x.len → x.len ≤ 65536 →
      s.dev.flash.answers = true → 0x10000000 ≤ x.buf → x.buf + x.len ≤ 0x10800000 →
      s.dev.rangeOpen x.agent x.buf x.len true = true → Does (.flashOpDone) s fun d => d.flash.ops = rest ∧
      d.flag NVM.FL_STATUS_BUSY = !rest.isEmpty ∧ s.dev.raised d [1210] ∧ s.dev.keepsRegs d (NVM.FL_STATUS :: eccWords) ∧
      d.flag NVM.FL_STATUS_DONE = true ∧ d.bytes x.buf x.len = s.dev.norBytes x.addr x.len ∧
      (s.dev.lgDram = true ∨ s.dev.bytesKept d x.buf (x.buf + x.len)) ∧
      { s.dev with flash := d.flash, mem := d.mem, ecc := d.ecc }.keepsUnits d) ∧
  (∀ (x : FlashOp) (rest : List FlashOp), s.dev.flash.ops = x :: rest → x.op = .program → 1 ≤ x.len → x.len ≤ 256 →
      x.addr / 256 = (x.addr + (x.len - 1)) / 256 → s.dev.flash.answers = true → 0x10000000 ≤ x.buf →
      x.buf + x.len ≤ 0x10800000 → s.dev.ecc = [] → s.dev.rangeOpen x.agent x.buf x.len false = true →
      Does (.flashOpDone) s fun d => d.flash.ops = rest ∧ d.flag NVM.FL_STATUS_BUSY = !rest.isEmpty ∧ s.dev.raised d [1210] ∧
      s.dev.keepsRegs d (NVM.FL_STATUS :: eccWords) ∧ d.flag NVM.FL_STATUS_DONE = true ∧
      d.norBytes x.addr x.len = (List.zip (s.dev.norBytes x.addr x.len) (s.dev.bytes x.buf x.len)).map (fun p => p.1 &&& p.2) ∧
      (∀ k : Nat, k < x.addr ∨ x.addr + x.len ≤ k → d.nor k = s.dev.nor k) ∧ { s.dev with flash := d.flash }.keepsUnits d)

/-- For every state: JOURNAL_APPEND programs the 63 bytes of the first queued entry at the head, where it is erased and no marker is outstanding, advances the head and JNL_NEXT_SEQ, and waits where it is not; JOURNAL_MARKER_PROGRAM programs the marker of the outstanding entry, so that it is applied; JOURNAL_ERASE_DONE erases the next sector ahead and counts it; CHECKPOINT queues CP_BEGIN, every word of the persisted groups and the newest CALIB entries, and CP_END; CALIB_SAVE and CALIB_SAVE_TIMER queue the CALIB entry of every truing result, the timer starting its period anew. Where a clause rests on a reading or a choice of the model, it is the model's and not the spec's: log entries 41, 42, 44, 45, 48 and 151. -/
def Obligations.JournalCommands : Prop :=
  ∀ s : State,
  (∀ (e : JEntry) (q : List JEntry), s.dev.flash.queue = e :: q → e.typ ≠ .cpEnd → e.body.length ≤ 48 →
      s.dev.flash.unmarked = none → s.dev.placeBlank s.dev.flash.headAt = true → s.dev.led.fresh = [] →
      Does (.journalAppend) s fun d =>
      d.norBytes (s.dev.jAddr s.dev.flash.headAt) 63 = entryBytes (s.dev.reg NVM.JNL_NEXT_SEQ) e.typ e.body ∧
      d.reg NVM.JNL_NEXT_SEQ = s.dev.reg NVM.JNL_NEXT_SEQ + 1 ∧ d.flash.unmarked = some (s.dev.jAddr s.dev.flash.headAt, e.typ) ∧
      d.flash.headAt = (s.dev.flash.headAt + 1) % s.dev.jPlaces ∧ d.flash.queue = q ∧
      (∀ k : Nat, k < s.dev.jAddr s.dev.flash.headAt ∨ s.dev.jAddr s.dev.flash.headAt + 63 ≤ k → d.nor k = s.dev.nor k) ∧
      s.dev.keepsRegs d [NVM.JNL_NEXT_SEQ] ∧ { s.dev with flash := d.flash }.keepsUnits d ∧ s.dev.noRecord d) ∧
  (∀ (e : JEntry) (q : List JEntry), s.dev.flash.queue = e :: q →
      (s.dev.flash.unmarked ≠ none ∨ s.dev.placeBlank s.dev.flash.headAt = false) → Does (.journalAppend) s fun d =>
      d.answer = .waits ∧ s.dev.keepsRegs d [] ∧ s.dev.keepsUnits d ∧ s.dev.noRecord d) ∧
  (∀ (k : Nat) (t : JType), s.dev.flash.unmarked = some (k, t) → (t = .persist ∨ t = .mirror) → s.dev.flash.since < 2047 →
      Does (.journalMarkerProgram) s fun d => d.nor (k + 0x3F) = 0 ∧ d.flash.unmarked = none ∧
      d.flash.since = s.dev.flash.since + 1 ∧ d.flash.cpCount = s.dev.flash.cpCount + 1 ∧ (∀ j : Nat, j ≠ k + 0x3F →
      d.nor j = s.dev.nor j) ∧ s.dev.keepsRegs d [NVM.JNL_STATUS] ∧ { s.dev with flash := d.flash }.keepsUnits d ∧
      s.dev.noRecord d) ∧
  (∀ (x : Nat) (r : List Nat), s.dev.toErase = x :: r → Does (.journalEraseDone) s fun d =>
      d.norBlank (flashJournal + 4096 * x) = true ∧ (∀ j : Nat, j / 4096 ≠ (flashJournal + 4096 * x) / 4096 →
      d.nor j = s.dev.nor j) ∧ d.num NVM.JNL_ERASES = satInc 0xFFFFFFFF (s.dev.num NVM.JNL_ERASES) ∧
      s.dev.keepsRegs d [NVM.JNL_ERASES, NVM.JNL_STATUS] ∧ { s.dev with flash := d.flash }.keepsUnits d ∧ s.dev.noRecord d) ∧
  (∀ (a : Agent) (v : Word), s.dev.takes a.id NVM.JNL_CTRL v = true → wordBit v 0 = true → wordBit v 1 = false →
      Does (.journalCheckpoint a v) s fun d => d.answer = .ok ∧
      (d.flash.queue.take (s.dev.flash.queue.length + 1)).getLast? = some ⟨.cpBegin, []⟩ ∧
      d.flash.queue.any (fun e => decide (e = ⟨.cpEnd, []⟩)) = true ∧
      (∀ k ∈ s.dev.flash.persisted, ∀ x ∈ groupWords k, (d.flash.queue.filter (fun e => decide (e.typ = .persist))).any (fun e => decide (e.body = (d.cpRecord k x).bytes)) = true) ∧
      s.dev.keepsRegs d [NVM.JNL_CTRL, NVM.JNL_STATUS] ∧ { s.dev with flash := d.flash }.keepsUnits d ∧
      s.dev.oneRecord d (wordRecord s.dev.nowNs .live 0 a.id NVM.JNL_CTRL (d.reg NVM.JNL_CTRL ||| (v &&& accBits NVM.JNL_CTRL .cmd)) (s.dev.reg NVM.JNL_CTRL))) ∧
  (∀ (a : Agent) (v : Word), s.dev.takes a.id NVM.JNL_CTRL v = true → wordBit v 1 = true → wordBit v 0 = false →
      Does (.calibSave a v) s fun d => d.answer = .ok ∧
      (s.dev.flash.queue ++ s.dev.trued.map fun x => (⟨.calib, x.2⟩ : JEntry)) <+: d.flash.queue ∧
      s.dev.keepsRegs d [NVM.JNL_CTRL, NVM.JNL_STATUS] ∧ { s.dev with flash := d.flash }.keepsUnits d ∧
      s.dev.oneRecord d (wordRecord s.dev.nowNs .live 0 a.id NVM.JNL_CTRL (d.reg NVM.JNL_CTRL ||| (v &&& accBits NVM.JNL_CTRL .cmd)) (s.dev.reg NVM.JNL_CTRL))) ∧
  (s.dev.fld NVM.JNL_CTRL_CALIB_MIN ≠ 0 → s.dev.due s.dev.flash.calibAt = true → s.dev.led.fresh = [] →
      Does (.calibSaveTimer) s fun d =>
      (d.flash.queue = s.dev.flash.queue ++ s.dev.trued.map fun x => (⟨.calib, x.2⟩ : JEntry)) ∧
      d.flash.calibAt = s.dev.flash.calibAt + nsT (s.dev.fld NVM.JNL_CTRL_CALIB_MIN * 60000000000) ∧
      s.dev.keepsRegs d [NVM.JNL_STATUS] ∧ { s.dev with flash := d.flash }.keepsUnits d)

/-- For every state, channel and input: at its next CONT instant, at its oldest trigger instant and at its TIMED occurrence an operating channel captures one sample whose word R95 to R97 give (the code clamped to 12 bits, OVR, NEWCFG, the low bits of the count), counts it, and keeps it as converting and taken; a late trigger sample sets LATE and the lateness registers; a TIMED occurrence moves its schedule on by the catch-up rule; ADC_TRIGGER in TRIG mode takes the trigger off its way and adds the instant of R101, or counts TRIG_DROP where an instant was already moved. No other channel and no other register changes. Where a clause rests on a reading or a choice of the model, it is the model's and not the spec's: log entries 56, 58, 59, 152 and 154. -/
def Obligations.AdcSampling : Prop :=
  ∀ s : State,
  (∀ (c : Fin 96) (vd : Int), s.dev.adcRun c.val = 1 → s.dev.adcMode c.val = 1 → s.dev.due (s.dev.contNext c.val) = true →
      Does (.adcSampleInstant c vd) s fun d =>
      d.adc c.val = { (s.dev.adc c.val) with prev := some (s.dev.contNext c.val), newcfg := false, conv := (s.dev.adc c.val).conv ++ [⟨(s.dev.contNext c.val), adcWord (s.dev.adcInput c.val vd) (s.dev.adc c.val).newcfg (s.dev.reg (ADC.CH_COUNT c.val)), s.dev.reg (ADC.CH_COUNT c.val), s.dev.reg (ADC.CH_WIN_LIM c.val), s.dev.reg (ADC.CH_WIN_CFG c.val), s.dev.reg (ADC.CH_STREAM c.val), false, false⟩], taken := (⟨(s.dev.contNext c.val), adcWord (s.dev.adcInput c.val vd) (s.dev.adc c.val).newcfg (s.dev.reg (ADC.CH_COUNT c.val)), s.dev.reg (ADC.CH_COUNT c.val), s.dev.reg (ADC.CH_WIN_LIM c.val), s.dev.reg (ADC.CH_WIN_CFG c.val), s.dev.reg (ADC.CH_STREAM c.val), false, false⟩ :: (s.dev.adc c.val).taken).take 8 } ∧
      d.reg (ADC.CH_COUNT c.val) = s.dev.reg (ADC.CH_COUNT c.val) + 1 ∧ Tab.keeps {} [c.val] s.dev.adcs d.adcs ∧
      { s.dev with adcs := d.adcs }.keepsUnits d ∧ s.dev.noRecord d ∧ s.dev.keepsRegs d [ADC.CH_COUNT c.val]) ∧
  (∀ (c : Fin 96) (vd : Int) (g : TrigAt) (rest : List TrigAt), s.dev.adcRun c.val = 1 → s.dev.adcMode c.val = 2 →
      (s.dev.adc c.val).trigs = g :: rest → s.dev.due g.at_ = true → g.late = none → Does (.adcSampleInstant c vd) s fun d =>
      d.adc c.val = { (s.dev.adc c.val) with trigs := rest, prev := some g.at_, newcfg := false, conv := (s.dev.adc c.val).conv ++ [⟨g.at_, adcWord (s.dev.adcInput c.val vd) (s.dev.adc c.val).newcfg (s.dev.reg (ADC.CH_COUNT c.val)), s.dev.reg (ADC.CH_COUNT c.val), s.dev.reg (ADC.CH_WIN_LIM c.val), s.dev.reg (ADC.CH_WIN_CFG c.val), s.dev.reg (ADC.CH_STREAM c.val), false, false⟩], taken := (⟨g.at_, adcWord (s.dev.adcInput c.val vd) (s.dev.adc c.val).newcfg (s.dev.reg (ADC.CH_COUNT c.val)), s.dev.reg (ADC.CH_COUNT c.val), s.dev.reg (ADC.CH_WIN_LIM c.val), s.dev.reg (ADC.CH_WIN_CFG c.val), s.dev.reg (ADC.CH_STREAM c.val), false, false⟩ :: (s.dev.adc c.val).taken).take 8 } ∧
      d.reg (ADC.CH_COUNT c.val) = s.dev.reg (ADC.CH_COUNT c.val) + 1 ∧ Tab.keeps {} [c.val] s.dev.adcs d.adcs ∧
      { s.dev with adcs := d.adcs }.keepsUnits d ∧ s.dev.noRecord d ∧ s.dev.keepsRegs d [ADC.CH_COUNT c.val]) ∧
  (∀ (c : Fin 96) (vd : Int) (g : TrigAt) (rest : List TrigAt) (t : Time), s.dev.adcRun c.val = 1 → s.dev.adcMode c.val = 2 →
      (s.dev.adc c.val).trigs = g :: rest → s.dev.due g.at_ = true → g.late = some t → Does (.adcSampleInstant c vd) s fun d =>
      d.adc c.val = { (s.dev.adc c.val) with trigs := rest, prev := some g.at_, newcfg := false, conv := (s.dev.adc c.val).conv ++ [⟨g.at_, adcWord (s.dev.adcInput c.val vd) (s.dev.adc c.val).newcfg (s.dev.reg (ADC.CH_COUNT c.val)), s.dev.reg (ADC.CH_COUNT c.val), s.dev.reg (ADC.CH_WIN_LIM c.val), s.dev.reg (ADC.CH_WIN_CFG c.val), s.dev.reg (ADC.CH_STREAM c.val), false, false⟩], taken := (⟨g.at_, adcWord (s.dev.adcInput c.val vd) (s.dev.adc c.val).newcfg (s.dev.reg (ADC.CH_COUNT c.val)), s.dev.reg (ADC.CH_COUNT c.val), s.dev.reg (ADC.CH_WIN_LIM c.val), s.dev.reg (ADC.CH_WIN_CFG c.val), s.dev.reg (ADC.CH_STREAM c.val), false, false⟩ :: (s.dev.adc c.val).taken).take 8 } ∧
      d.reg (ADC.CH_COUNT c.val) = s.dev.reg (ADC.CH_COUNT c.val) + 1 ∧ Tab.keeps {} [c.val] s.dev.adcs d.adcs ∧
      { s.dev with adcs := d.adcs }.keepsUnits d ∧ s.dev.noRecord d ∧ d.flag (ADC.CH_STATUS_LATE c.val) = true ∧
      d.num MILEPOST.LATE_COUNT = satInc 0xFFFFFFFF (s.dev.num MILEPOST.LATE_COUNT) ∧ d.reg64 MILEPOST.LATE_LAST = t ∧
      d.flag MILEPOST.MP_FLAGS_LATE = true ∧
      s.dev.keepsRegs d [ADC.CH_COUNT c.val, ADC.CH_STATUS c.val, MILEPOST.LATE_COUNT, MILEPOST.LATE_LAST, MILEPOST.LATE_LAST + 4, MILEPOST.LATE_SRC, MILEPOST.MP_FLAGS]) ∧
  (∀ (c : Fin 96) (vd : Int), s.dev.adcRun c.val = 1 → s.dev.adcMode c.val = 3 → s.dev.due (s.dev.timedAt c.val) = true →
      before (s.dev.timedTarget c.val) (s.dev.timedAt c.val) = false → s.dev.fld (ADC.CH_SCHED_BEHIND c.val) = 0 →
      Does (.adcSampleInstant c vd) s fun d =>
      d.adc c.val = { (s.dev.adc c.val) with sched := ((s.dev.adc c.val).sched.advance (s.dev.fld (ADC.CH_SCHED_CATCHUP c.val)) (s.dev.fld (ADC.CH_SCHED_BEHIND c.val)) (s.dev.timedAt c.val)).1, prev := some (s.dev.timedAt c.val), newcfg := false, conv := (s.dev.adc c.val).conv ++ [⟨(s.dev.timedAt c.val), adcWord (s.dev.adcInput c.val vd) (s.dev.adc c.val).newcfg (s.dev.reg (ADC.CH_COUNT c.val)), s.dev.reg (ADC.CH_COUNT c.val), s.dev.reg (ADC.CH_WIN_LIM c.val), s.dev.reg (ADC.CH_WIN_CFG c.val), s.dev.reg (ADC.CH_STREAM c.val), false, false⟩], taken := (⟨(s.dev.timedAt c.val), adcWord (s.dev.adcInput c.val vd) (s.dev.adc c.val).newcfg (s.dev.reg (ADC.CH_COUNT c.val)), s.dev.reg (ADC.CH_COUNT c.val), s.dev.reg (ADC.CH_WIN_LIM c.val), s.dev.reg (ADC.CH_WIN_CFG c.val), s.dev.reg (ADC.CH_STREAM c.val), false, false⟩ :: (s.dev.adc c.val).taken).take 8 } ∧
      d.reg (ADC.CH_COUNT c.val) = s.dev.reg (ADC.CH_COUNT c.val) + 1 ∧ Tab.keeps {} [c.val] s.dev.adcs d.adcs ∧
      { s.dev with adcs := d.adcs }.keepsUnits d ∧ s.dev.noRecord d ∧ s.dev.keepsRegs d [ADC.CH_COUNT c.val]) ∧
  (∀ (c : Fin 96) (vd : Int), s.dev.adcRun c.val = 1 → s.dev.adcMode c.val = 3 → s.dev.due (s.dev.timedAt c.val) = true →
      before (s.dev.timedTarget c.val) (s.dev.timedAt c.val) = false → s.dev.fld (ADC.CH_SCHED_BEHIND c.val) = 0 →
      Does (.adcTimedOccurrence c vd) s fun d =>
      d.adc c.val = { (s.dev.adc c.val) with sched := ((s.dev.adc c.val).sched.advance (s.dev.fld (ADC.CH_SCHED_CATCHUP c.val)) (s.dev.fld (ADC.CH_SCHED_BEHIND c.val)) (s.dev.timedAt c.val)).1, prev := some (s.dev.timedAt c.val), newcfg := false, conv := (s.dev.adc c.val).conv ++ [⟨(s.dev.timedAt c.val), adcWord (s.dev.adcInput c.val vd) (s.dev.adc c.val).newcfg (s.dev.reg (ADC.CH_COUNT c.val)), s.dev.reg (ADC.CH_COUNT c.val), s.dev.reg (ADC.CH_WIN_LIM c.val), s.dev.reg (ADC.CH_WIN_CFG c.val), s.dev.reg (ADC.CH_STREAM c.val), false, false⟩], taken := (⟨(s.dev.timedAt c.val), adcWord (s.dev.adcInput c.val vd) (s.dev.adc c.val).newcfg (s.dev.reg (ADC.CH_COUNT c.val)), s.dev.reg (ADC.CH_COUNT c.val), s.dev.reg (ADC.CH_WIN_LIM c.val), s.dev.reg (ADC.CH_WIN_CFG c.val), s.dev.reg (ADC.CH_STREAM c.val), false, false⟩ :: (s.dev.adc c.val).taken).take 8 } ∧
      d.reg (ADC.CH_COUNT c.val) = s.dev.reg (ADC.CH_COUNT c.val) + 1 ∧ Tab.keeps {} [c.val] s.dev.adcs d.adcs ∧
      { s.dev with adcs := d.adcs }.keepsUnits d ∧ s.dev.noRecord d ∧ s.dev.keepsRegs d [ADC.CH_COUNT c.val]) ∧
  (∀ (c : Fin 96) (n : Nat) (p : Nat × Time), s.dev.adcTrig.find? (fun y => decide (y.1 = c.val)) = some p →
      s.dev.adcRun c.val = 1 → s.dev.adcMode c.val = 2 → (s.dev.adc c.val).trigs = [] → (s.dev.adc c.val).prev = none →
      dist (p.2 - nsT (max 1 n) + nsT 2) (p.2 + nsT (s.dev.fld (ADC.CH_TRIG_DELAY c.val))) ≥ 0 →
      Does (.adcTrigger c n) s fun d => { s.dev with adcs := d.adcs, adcTrig := d.adcTrig }.keepsUnits d ∧ s.dev.noRecord d ∧
      d.adcTrig = s.dev.adcTrig.erase p ∧
      d.adc c.val = { (s.dev.adc c.val) with trigs := [⟨(p.2 + nsT (s.dev.fld (ADC.CH_TRIG_DELAY c.val))), false, none⟩] } ∧
      Tab.keeps {} [c.val] s.dev.adcs d.adcs ∧ s.dev.keepsRegs d []) ∧
  (∀ (c : Fin 96) (n : Nat) (p : Nat × Time), s.dev.adcTrig.find? (fun y => decide (y.1 = c.val)) = some p →
      s.dev.adcRun c.val = 1 → s.dev.adcMode c.val = 2 → (s.dev.adc c.val).trigs.any TrigAt.moved = true →
      Does (.adcTrigger c n) s fun d => { s.dev with adcs := d.adcs, adcTrig := d.adcTrig }.keepsUnits d ∧ s.dev.noRecord d ∧
      d.adcTrig = s.dev.adcTrig.erase p ∧ d.adc c.val = (s.dev.adc c.val) ∧
      d.fld (ADC.CH_DROPS_TRIG_DROP c.val) = satInc 0xFFFF (s.dev.fld (ADC.CH_DROPS_TRIG_DROP c.val)) ∧
      s.dev.keepsRegs d [ADC.CH_DROPS c.val])

/-- For every state: SAMPLE_DELIVERY of a channel whose sample has converted shows it in CH_LAST, sets OVR from its word, and with no stream, window, slot or trace attached changes nothing else; with a window in force at its instant whose COUNT is reached it toggles WIN_STATE and raises the window event; with a stream in force it is stored in the open block, or, with no free half, counts STREAM_DROP and sets STREAM_OVF; the last sample before a stream closes ends its block with the header of R107. STREAM_AREA_READ completes from every state: a ready half answers its bytes and is released with its last word, one that is not ready answers zeros, and a width, a range or an agent that the block does not admit gets a bus error; RELEASE frees both halves and DROPS_CLEAR zeroes the drop counts. ADC_HALF_READY makes a powered half and its channels ready and starts those that WAIT; ADC_TRUE_START and ADC_TRUE_DONE follow R112, the latter failing a converter whose trim is out of range (R113). Where a clause rests on a reading or a choice of the model, it is the model's and not the spec's: log entries 56, 57, 59 and 154. -/
def Obligations.AdcDelivery : Prop :=
  ∀ s : State,
  (∀ (c : Fin 96) (m : Sample) (rest : List Sample), (s.dev.adc c.val).conv = m :: rest → s.dev.due (m.t + nsT 12) = true →
      (∀ n : Fin 32, s.dev.slotMode n.val = 0 ∧ (s.dev.slot n.val).defer = none) → (∀ u : Fin 4, s.dev.trcState u.val = 0) →
      bitsOf m.cfg.toNat 1 0 = 0 → bitOf m.strm.toNat 8 = false → m.closes = false → Does (.sampleDelivery c) s fun d =>
      d.num (ADC.CH_LAST c.val) = m.num.toNat % 0x10000 * 0x10000 + m.word.toNat ∧
      d.flag (ADC.CH_STATUS_OVR c.val) = (s.dev.flag (ADC.CH_STATUS_OVR c.val) || bitOf m.word.toNat 3) ∧
      d.adc c.val = { (s.dev.adc c.val) with conv := rest } ∧ Tab.keeps {} [c.val] s.dev.adcs d.adcs ∧
      s.dev.keepsRegs d [ADC.CH_LAST c.val, ADC.CH_STATUS c.val] ∧ { s.dev with adcs := d.adcs }.keepsUnits d ∧ s.dev.noRecord d) ∧
  (∀ (c : Fin 96) (m : Sample) (rest : List Sample), (s.dev.adc c.val).conv = m :: rest → s.dev.due (m.t + nsT 12) = true →
      (∀ n : Fin 32, s.dev.slotMode n.val = 0 ∧ (s.dev.slot n.val).defer = none) → (∀ u : Fin 4, s.dev.trcState u.val = 0) →
      bitsOf m.cfg.toNat 1 0 ≠ 0 → m.past = false → s.dev.flag (ADC.CH_STATUS_WIN_STATE c.val) = false → m.inWindow = true →
      bitsOf m.cfg.toNat 15 8 ≤ (s.dev.adc c.val).winRun + 1 → bitOf m.strm.toNat 8 = false → m.closes = false →
      Does (.sampleDelivery c) s fun d => d.num (ADC.CH_LAST c.val) = m.num.toNat % 0x10000 * 0x10000 + m.word.toNat ∧
      d.flag (ADC.CH_STATUS_WIN_STATE c.val) = true ∧ (d.adc c.val).winRun = 0 ∧
      s.dev.keepsRegs d [ADC.CH_LAST c.val, ADC.CH_STATUS c.val] ∧ { s.dev with adcs := d.adcs }.keepsUnits d ∧
      s.dev.raised d [257 + 2 * c.val]) ∧
  (∀ (c : Fin 96) (m : Sample) (rest : List Sample), (s.dev.adc c.val).conv = m :: rest → s.dev.due (m.t + nsT 12) = true →
      (∀ n : Fin 32, s.dev.slotMode n.val = 0 ∧ (s.dev.slot n.val).defer = none) → (∀ u : Fin 4, s.dev.trcState u.val = 0) →
      bitsOf m.cfg.toNat 1 0 ≠ 0 → m.past = false → s.dev.flag (ADC.CH_STATUS_WIN_STATE c.val) = true → m.inWindow = false →
      bitsOf m.cfg.toNat 15 8 ≤ (s.dev.adc c.val).winRun + 1 → bitOf m.strm.toNat 8 = false → m.closes = false →
      Does (.sampleDelivery c) s fun d => d.num (ADC.CH_LAST c.val) = m.num.toNat % 0x10000 * 0x10000 + m.word.toNat ∧
      d.flag (ADC.CH_STATUS_WIN_STATE c.val) = false ∧ (d.adc c.val).winRun = 0 ∧
      s.dev.keepsRegs d [ADC.CH_LAST c.val, ADC.CH_STATUS c.val] ∧ { s.dev with adcs := d.adcs }.keepsUnits d ∧
      s.dev.raised d (if bitsOf m.cfg.toNat 5 4 = 1 then [257 + 2 * c.val] else [])) ∧
  (∀ (c : Fin 96) (m : Sample) (rest : List Sample), (s.dev.adc c.val).conv = m :: rest → s.dev.due (m.t + nsT 12) = true →
      (∀ n : Fin 32, s.dev.slotMode n.val = 0 ∧ (s.dev.slot n.val).defer = none) → (∀ u : Fin 4, s.dev.trcState u.val = 0) →
      bitsOf m.cfg.toNat 1 0 = 0 → bitOf m.strm.toNat 8 = true → m.closes = false → (s.dev.adc c.val).blkHalf = none →
      (s.dev.adc c.val).nextHalf ≤ 1 → s.dev.fld (ADC.CH_STATUS_READY c.val) = 3 → Does (.sampleDelivery c) s fun d =>
      d.num (ADC.CH_LAST c.val) = m.num.toNat % 0x10000 * 0x10000 + m.word.toNat ∧
      d.fld (ADC.CH_DROPS_STREAM_DROP c.val) = satInc 0xFFFF (s.dev.fld (ADC.CH_DROPS_STREAM_DROP c.val)) ∧
      d.flag (ADC.CH_STATUS_STREAM_OVF c.val) = true ∧ (d.adc c.val).drops = (s.dev.adc c.val).drops + 1 ∧
      s.dev.keepsRegs d [ADC.CH_LAST c.val, ADC.CH_STATUS c.val, ADC.CH_DROPS c.val] ∧
      { s.dev with adcs := d.adcs }.keepsUnits d ∧ s.dev.noRecord d) ∧
  (∀ (c : Fin 96) (m : Sample) (rest : List Sample) (h : Nat), (s.dev.adc c.val).conv = m :: rest →
      s.dev.due (m.t + nsT 12) = true → (∀ n : Fin 32, s.dev.slotMode n.val = 0 ∧ (s.dev.slot n.val).defer = none) →
      (∀ u : Fin 4, s.dev.trcState u.val = 0) → bitsOf m.cfg.toNat 1 0 = 0 → bitOf m.strm.toNat 8 = true → m.closes = false →
      (s.dev.adc c.val).blkHalf = some h → (s.dev.adc c.val).blkCount + 1 < (s.dev.adc c.val).blkLen →
      Does (.sampleDelivery c) s fun d => d.num (ADC.CH_LAST c.val) = m.num.toNat % 0x10000 * 0x10000 + m.word.toNat ∧
      (d.adc c.val).blkCount = (s.dev.adc c.val).blkCount + 1 ∧
      d.bytes (streamAddr c.val + 0x200 * h + 0x10 + 2 * (s.dev.adc c.val).blkCount) 2 = toBytes 2 m.word.toNat ∧
      (d.adc c.val).drops = (s.dev.adc c.val).drops ∧ s.dev.keepsRegs d (ADC.CH_LAST c.val :: ADC.CH_STATUS c.val :: eccWords) ∧
      s.dev.raised d []) ∧
  (∀ (c : Fin 96) (m : Sample) (rest : List Sample) (h : Nat), (s.dev.adc c.val).conv = m :: rest →
      s.dev.due (m.t + nsT 12) = true → (∀ n : Fin 32, s.dev.slotMode n.val = 0 ∧ (s.dev.slot n.val).defer = none) →
      (∀ u : Fin 4, s.dev.trcState u.val = 0) → bitsOf m.cfg.toNat 1 0 = 0 → bitOf m.strm.toNat 8 = false → m.closes = true →
      (s.dev.adc c.val).blkHalf = some h → h ≤ 1 → (s.dev.adc c.val).blkCount ≠ 0 → Does (.sampleDelivery c) s fun d =>
      d.num (ADC.CH_LAST c.val) = m.num.toNat % 0x10000 * 0x10000 + m.word.toNat ∧ (d.adc c.val).blkHalf = none ∧
      bitOf (d.fld (ADC.CH_STATUS_READY c.val)) h = true ∧
      d.bytes (streamAddr c.val + 0x200 * h) 16 = toBytes 8 (s.dev.adc c.val).blkFirst.toNat ++ toBytes 4 (s.dev.adc c.val).blkNum.toNat ++ toBytes 2 (s.dev.adc c.val).blkDrop ++ toBytes 2 (s.dev.adc c.val).blkCount ∧
      s.dev.raised d [256 + 2 * c.val] ∧ s.dev.keepsRegs d (ADC.CH_LAST c.val :: ADC.CH_STATUS c.val :: eccWords)) ∧
  (∀ (a : Agent) (c : Fin 96) (o n : Nat), o + n ≤ 0x400 → wideRead (streamAddr c.val + o) n = true →
      s.dev.memMapped (streamAddr c.val + o) n = true → s.dev.blkLevel a.id (0x10 + c.val / 16) ≠ 0 →
      bitOf (s.dev.fld (ADC.CH_STATUS_READY c.val)) (o / 0x200 % 2) = false → Does (.streamAreaRead a c o n) s fun d =>
      d.answer = .data (List.replicate n 0) ∧ s.dev.keepsRegs d [] ∧ s.dev.keepsUnits d ∧ s.dev.noRecord d) ∧
  (∀ (a : Agent) (c : Fin 96) (o n : Nat), o + n ≤ 0x400 → wideRead (streamAddr c.val + o) n = true →
      s.dev.memMapped (streamAddr c.val + o) n = true → s.dev.blkLevel a.id (0x10 + c.val / 16) ≠ 0 →
      bitOf (s.dev.fld (ADC.CH_STATUS_READY c.val)) (o / 0x200 % 2) = true → s.dev.ecc = [] →
      Does (.streamAreaRead a c o n) s fun d => d.answer = .data (s.dev.bytes (streamAddr c.val + o) n) ∧
      bitOf (d.fld (ADC.CH_STATUS_READY c.val)) (o / 0x200 % 2) = !(decide (o ≤ (let h := o / 0x200 % 2; 0x200 * h + 0x10 + 2 * (if h = 0 then (s.dev.adc c.val).cnt0 else (s.dev.adc c.val).cnt1) - 2)) && decide ((let h := o / 0x200 % 2; 0x200 * h + 0x10 + 2 * (if h = 0 then (s.dev.adc c.val).cnt0 else (s.dev.adc c.val).cnt1) - 2) < o + n)) ∧
      s.dev.keepsRegs d [ADC.CH_STATUS c.val] ∧ s.dev.keepsUnits d ∧ s.dev.noRecord d) ∧
  (∀ (a : Agent) (c : Fin 96) (o n : Nat), (0x400 < o + n ∨ wideRead (streamAddr c.val + o) n = false ∨ s.dev.memMapped (streamAddr c.val + o) n = false ∨ s.dev.blkLevel a.id (0x10 + c.val / 16) = 0) →
      Does (.streamAreaRead a c o n) s fun d => d.answer = .busError ∧ s.dev.keepsRegs d [] ∧ s.dev.keepsUnits d ∧
      s.dev.noRecord d) ∧
  (∀ (a : Agent) (c : Fin 96) (o n : Nat), Does (.streamAreaRead a c o n) s fun d =>
      (match d.answer with | .data bs => decide (bs.length = n) | .busError => true | _ => false) = true) ∧
  (∀ (a : Agent) (c : Fin 96) (v : Word), s.dev.takes a.id (ADC.CH_CLR c.val) v = true → wordBit v 1 = true →
      wordBit v 0 = false → Does (.adcRelease a c v) s fun d => d.answer = .ok ∧ d.fld (ADC.CH_STATUS_READY c.val) = 0 ∧
      s.dev.keepsRegs d [ADC.CH_STATUS c.val, ADC.CH_CLR c.val] ∧ s.dev.keepsUnits d ∧
      s.dev.oneRecord d (wordRecord s.dev.nowNs .live 0 a.id (ADC.CH_CLR c.val) v 0)) ∧
  (∀ (a : Agent) (c : Fin 96) (v : Word), s.dev.takes a.id (ADC.CH_CLR c.val) v = true → wordBit v 0 = true →
      wordBit v 1 = false → Does (.adcDropsClear a c v) s fun d => d.answer = .ok ∧ d.num (ADC.CH_DROPS c.val) = 0 ∧
      s.dev.keepsRegs d [ADC.CH_DROPS c.val, ADC.CH_CLR c.val] ∧ s.dev.keepsUnits d ∧
      s.dev.oneRecord d (wordRecord s.dev.nowNs .live 0 a.id (ADC.CH_CLR c.val) v 0)) ∧
  (∀ (h : Fin 12), s.dev.powered (36 + h.val) 20000 = true → Does (.adcHalfReady h) s fun d => d.halfReady h.val = true ∧
      d.domReady (36 + h.val) = true ∧ (∀ i : Fin 8, d.flag (ADC.CH_STATUS_POWERED (8 * h.val + i.val)) = true ∧
      d.adcRun (8 * h.val + i.val) = (if s.dev.adcRun (8 * h.val + i.val) = 2 then 1 else s.dev.adcRun (8 * h.val + i.val)) ∧
      (s.dev.adcRun (8 * h.val + i.val) = 2 → (d.adc (8 * h.val + i.val)).start = s.dev.now ∧
      d.num (ADC.CH_COUNT (8 * h.val + i.val)) = 0)) ∧ Tab.keeps {} ((List.range 8).map (8 * h.val + ·)) s.dev.adcs d.adcs ∧
      { s.dev with adcs := d.adcs }.keepsUnits d ∧ s.dev.noRecord d) ∧
  (∀ (h : Fin 12), s.dev.fld (ADC.TRUE_CTRL_MODE (h.val / 2)) = 0 → s.dev.halfReady h.val = true →
      (s.dev.half h.val).subject = none → (s.dev.half h.val).stopped = false → (s.dev.half h.val).failed = none →
      (s.dev.half h.val).next ≤ 8 → s.dev.due (s.dev.half h.val).nextAt = true → Does (.adcTrueStart h) s fun d =>
      (d.half h.val).subject = some (s.dev.half h.val).next ∧ (d.half h.val).doneAt = s.dev.now + nsT 500000 ∧
      d.fld (trueSubject h.val) = (s.dev.half h.val).next % 16 ∧
      (d.fld (trueSpareFor h.val) = (s.dev.half h.val).next ∨ (s.dev.half h.val).next = 8) ∧
      { s.dev with adcs := d.adcs, adcHalves := d.adcHalves }.keepsUnits d ∧ Tab.keeps {} [h.val] s.dev.adcHalves d.adcHalves ∧
      s.dev.noRecord d) ∧
  (∀ (h : Fin 12) (o g : Int) (i : Nat), (s.dev.half h.val).subject = some i → i ≤ 8 →
      s.dev.due (s.dev.half h.val).doneAt = true → o.natAbs ≤ 512 → g.natAbs * 50 ≤ 65536 → Does (.adcTrueDone h o g) s fun d =>
      (d.half h.val).subject = none ∧ (d.half h.val).next = (s.dev.half h.val).after i ∧
      (d.half h.val).nextAt = s.dev.now + nsT (s.dev.fld (ADC.TRUE_CTRL_INTERVAL_MS (h.val / 2)) * 1000000) ∧
      d.fld (trueSubject h.val) = 0xF ∧
      { s.dev with adcs := d.adcs, adcHalves := d.adcHalves, trued := d.trued, faults := d.faults }.keepsUnits d ∧
      Tab.keeps {} [h.val] s.dev.adcHalves d.adcHalves ∧ s.dev.noRecord d ∧
      Tab.get 0 i (d.half h.val).trims = BitVec.ofNat 32 (low 16 g * 65536 + low 16 o) ∧ d.faults = s.dev.faults ∧
      d.flag (trueFlag h.val) = s.dev.flag (trueFlag h.val)) ∧
  (∀ (h : Fin 12) (o g : Int) (i : Nat), (s.dev.half h.val).subject = some i → i ≤ 8 →
      s.dev.due (s.dev.half h.val).doneAt = true → (512 < o.natAbs ∨ 65536 < g.natAbs * 50) →
      Does (.adcTrueDone h o g) s fun d => (d.half h.val).subject = none ∧ (d.half h.val).next = (s.dev.half h.val).after i ∧
      (d.half h.val).nextAt = s.dev.now + nsT (s.dev.fld (ADC.TRUE_CTRL_INTERVAL_MS (h.val / 2)) * 1000000) ∧
      d.fld (trueSubject h.val) = 0xF ∧
      { s.dev with adcs := d.adcs, adcHalves := d.adcHalves, trued := d.trued, faults := d.faults }.keepsUnits d ∧
      Tab.keeps {} [h.val] s.dev.adcHalves d.adcHalves ∧ s.dev.noRecord d ∧ (d.half h.val).trims = (s.dev.half h.val).trims ∧
      d.faults = s.dev.faults ++ [{ src := 0x10, unit := h.val, stamp := s.dev.nowNs }] ∧ d.flag (trueFlag h.val) = true ∧
      d.fld (trueFailed h.val) = i)

/-- For every state and comparator: COMP_INPUT_CROSSING of one in service, or marked FAILED, gives OUT by the rule of R119, and a FAILED one contributes nothing; without a filter its contribution follows, and in an INDEPENDENT pair the trip signal is TRIP_EN and the contribution, a rise setting TRIPPED and counting; with a filter a rise is held back, and COMP_FILTER_EXPIRY lets it through after F; COMP_SETTLE_END puts it in service with OUT following its input; COMP_DISAGREE past its limit sets DISAGREE, counts, raises event 12, reports source 0x0E and disarms; COMP_BANK_READY makes the bank ready and starts the settling of its comparators that WAIT; COUNT_CLEAR zeroes the counts. Where no timer selects a trip signal nothing outside the comparators changes. Where a clause rests on a reading or a choice of the model, it is the model's and not the spec's: log entries 56 and 61. -/
def Obligations.ComparatorTrips : Prop :=
  ∀ s : State,
  (∀ (n : Fin 192) (vd : Int), s.dev.service n.val = 1 → (∀ t : Fin 48, s.dev.tripEn t.val 0 = false ∧
      s.dev.tripEn t.val 1 = false) → s.dev.pairing n.val = 0 →
      (s.dev.fld (COMP.CMP_CFG_FILT n.val) = 0 ∨ s.dev.compOut n.val vd (s.dev.outBit n.val) = false) →
      Does (.compInputCrossing n vd) s fun d => d.outBit n.val = s.dev.compOut n.val vd (s.dev.outBit n.val) ∧
      (d.comp n.val).contrib = d.outBit n.val ∧
      d.tripSig n.val = (s.dev.flag (COMP.PAIR_CFG_TRIP_EN (n.val / 2 * 2)) && d.outBit n.val) ∧
      d.flag (COMP.CMP_STATUS_TRIPPED n.val) = (s.dev.flag (COMP.CMP_STATUS_TRIPPED n.val) || (d.tripSig n.val && !s.dev.tripSig n.val)) ∧
      d.fld (COMP.CMP_COUNT_TRIPS n.val) = (if d.tripSig n.val = true ∧
      s.dev.tripSig n.val = false then satInc 0xFFFF (s.dev.fld (COMP.CMP_COUNT_TRIPS n.val)) else s.dev.fld (COMP.CMP_COUNT_TRIPS n.val)) ∧
      s.dev.keepsRegs d [COMP.CMP_STATUS n.val, COMP.CMP_STATUS (mate n.val), COMP.CMP_COUNT n.val, COMP.CMP_COUNT (mate n.val), COMP.OUT (n.val / 96 * 3 + n.val % 96 / 32), COMP.TRIP (n.val / 96 * 3 + n.val % 96 / 32)] ∧
      { s.dev with comps := d.comps }.keepsUnits d ∧ s.dev.noRecord d) ∧
  (∀ (n : Fin 192) (vd : Int), s.dev.service n.val = 1 → s.dev.compMode n.val ≠ 0 → s.dev.compBelow n.val = false →
      sext 10 (s.dev.fld (COMP.CMP_REF_REF n.val)) * s.dev.lsb2 n.val < 2 * vd → Does (.compInputCrossing n vd) s fun d =>
      d.outBit n.val = true) ∧
  (∀ (n : Fin 192) (vd : Int), s.dev.service n.val = 1 → (∀ t : Fin 48, s.dev.tripEn t.val 0 = false ∧
      s.dev.tripEn t.val 1 = false) → s.dev.pairing n.val = 0 → s.dev.compOut n.val vd (s.dev.outBit n.val) = true →
      s.dev.fld (COMP.CMP_CFG_FILT n.val) ≠ 0 → (s.dev.comp n.val).contrib = false → (s.dev.comp n.val).riseAt = none →
      Does (.compInputCrossing n vd) s fun d => d.outBit n.val = true ∧ (d.comp n.val).riseAt = some s.dev.now ∧
      (d.comp n.val).contrib = false ∧
      s.dev.keepsRegs d [COMP.CMP_STATUS n.val, COMP.CMP_STATUS (mate n.val), COMP.CMP_COUNT n.val, COMP.CMP_COUNT (mate n.val), COMP.OUT (n.val / 96 * 3 + n.val % 96 / 32), COMP.TRIP (n.val / 96 * 3 + n.val % 96 / 32)] ∧
      { s.dev with comps := d.comps }.keepsUnits d ∧ s.dev.noRecord d) ∧
  (∀ (n : Fin 192) (vd : Int), s.dev.service n.val = 4 → Does (.compInputCrossing n vd) s fun d =>
      d.outBit n.val = s.dev.compOut n.val vd (s.dev.outBit n.val) ∧ d.service n.val = 4 ∧
      d.tripSig n.val = s.dev.tripSig n.val ∧
      s.dev.keepsRegs d [COMP.CMP_STATUS n.val, COMP.OUT (n.val / 96 * 3 + n.val % 96 / 32)] ∧ s.dev.keepsUnits d ∧
      s.dev.noRecord d) ∧
  (∀ (n : Fin 192) (t : Time), s.dev.service n.val = 1 → (∀ t : Fin 48, s.dev.tripEn t.val 0 = false ∧
      s.dev.tripEn t.val 1 = false) → s.dev.pairing n.val = 0 → s.dev.outBit n.val = true → (s.dev.comp n.val).riseAt = some t →
      s.dev.due (t + nsT (if s.dev.fld (COMP.CMP_CFG_FILT n.val) = 0 then 0 else 2 ^ s.dev.fld (COMP.CMP_CFG_FILT n.val))) = true →
      Does (.compFilterExpiry n) s fun d => (d.comp n.val).contrib = true ∧ (d.comp n.val).riseAt = none ∧
      d.tripSig n.val = s.dev.flag (COMP.PAIR_CFG_TRIP_EN (n.val / 2 * 2)) ∧ d.outBit n.val = true ∧
      s.dev.keepsRegs d [COMP.CMP_STATUS n.val, COMP.CMP_STATUS (mate n.val), COMP.CMP_COUNT n.val, COMP.CMP_COUNT (mate n.val), COMP.OUT (n.val / 96 * 3 + n.val % 96 / 32), COMP.TRIP (n.val / 96 * 3 + n.val % 96 / 32)] ∧
      { s.dev with comps := d.comps }.keepsUnits d ∧ s.dev.noRecord d) ∧
  (∀ (n : Fin 192) (vd : Int), s.dev.service n.val = 3 → s.dev.due (s.dev.comp n.val).settleEnd = true →
      (∀ t : Fin 48, s.dev.tripEn t.val 0 = false ∧ s.dev.tripEn t.val 1 = false) → Does (.compSettleEnd n vd) s fun d =>
      d.service n.val = 1 ∧ d.outBit n.val = s.dev.compOut n.val vd (s.dev.outBit n.val) ∧
      s.dev.keepsRegs d [COMP.CMP_STATUS n.val, COMP.CMP_STATUS (mate n.val), COMP.CMP_COUNT n.val, COMP.CMP_COUNT (mate n.val), COMP.OUT (n.val / 96 * 3 + n.val % 96 / 32), COMP.TRIP (n.val / 96 * 3 + n.val % 96 / 32)] ∧
      { s.dev with comps := d.comps }.keepsUnits d ∧ s.dev.noRecord d) ∧
  (∀ (c : Fin 96) (t : Time), (s.dev.comp (2 * c.val)).disSince = some t → (s.dev.comp (2 * c.val)).disArmed = true →
      before (t + nsT (s.dev.fld (COMP.PAIR_CFG_DIS_TIME (2 * c.val)) * (if s.dev.flag (COMP.PAIR_CFG_DIS_SCALE (2 * c.val)) then 1000 else 10))) (s.dev.now ||| 63) = true →
      Does (.compDisagree c) s fun d => d.flag (COMP.CMP_STATUS_DISAGREE (2 * c.val)) = true ∧
      d.fld (COMP.CMP_COUNT_DISAGREES (2 * c.val)) = satInc 0xFFFF (s.dev.fld (COMP.CMP_COUNT_DISAGREES (2 * c.val))) ∧
      s.dev.raised d [12] ∧ d.faults = s.dev.faults ++ [{ src := 0x0E, unit := 2 * c.val, stamp := s.dev.nowNs }] ∧
      d.comp (2 * c.val) = { s.dev.comp (2 * c.val) with disArmed := false } ∧ Tab.keeps {} [2 * c.val] s.dev.comps d.comps ∧
      s.dev.keepsRegs d [COMP.CMP_STATUS (2 * c.val), COMP.CMP_COUNT (2 * c.val)] ∧
      { s.dev with comps := d.comps, faults := d.faults }.keepsUnits d ∧ s.dev.noRecord d) ∧
  (∀ (k : Fin 4), s.dev.powered (48 + k.val) 10000 = true → (∀ t : Fin 48, s.dev.tripEn t.val 0 = false ∧
      s.dev.tripEn t.val 1 = false) → Does (.compBankReady k) s fun d => d.domReady (48 + k.val) = true ∧
      d.flag (if k.val % 2 = 0 then COMP.BANK_STATUS_BANK0_READY (k.val / 2) else COMP.BANK_STATUS_BANK1_READY (k.val / 2)) = true ∧
      (∀ i : Fin 48, s.dev.service (48 * k.val + i.val) = 5 → d.service (48 * k.val + i.val) = 3 ∧
      (d.comp (48 * k.val + i.val)).settleEnd = s.dev.now + nsT (settleNs (s.dev.compMode (48 * k.val + i.val)))) ∧
      { s.dev with comps := d.comps }.keepsUnits d ∧ s.dev.noRecord d) ∧
  (∀ (a : Agent) (n : Fin 192) (v : Word), s.dev.takes a.id (COMP.CMP_TEST n.val) v = true → wordBit v 8 = true →
      v.toNat % 8 = 0 → Does (.compCountClear a n v) s fun d => d.answer = .ok ∧ d.num (COMP.CMP_COUNT n.val) = 0 ∧
      s.dev.keepsRegs d [COMP.CMP_COUNT n.val, COMP.CMP_TEST n.val] ∧ s.dev.keepsUnits d ∧
      s.dev.oneRecord d (wordRecord s.dev.nowNs .live 0 a.id (COMP.CMP_TEST n.val) v 0))

/-- For every state: COMP_SELFTEST_START of a block that is due, not held and idle starts the test of the next eligible comparator, which becomes UNDER_TEST with the four checks of R129 to make; a CMP_TEST write starts the check it names, or queues it behind the running test; COMP_TEST_CHECK reads OUT for the check in front and keeps the checks left, and after the last sets RESULT and TEST_DONE, frees the block, and either settles the comparator or, where a check of an automatic test failed, marks it FAILED with TEST_FAIL, the failure count, fault source 0x0F and one SYSTEM record. Where a clause rests on a reading or a choice of the model, it is the model's and not the spec's: log entries 56 and 61. -/
def Obligations.ComparatorTests : Prop :=
  ∀ s : State,
  (∀ (b : Fin 2) (i : Nat), (s.dev.compBlk b.val).test = none → s.dev.flag (COMP.TEST_CTRL_HOLD b.val) = false →
      s.dev.due (s.dev.compBlk b.val).nextAt = true → s.dev.testNext b.val = some i →
      (∀ t : Fin 48, s.dev.tripEn t.val 0 = false ∧ s.dev.tripEn t.val 1 = false) → Does (.compSelftestStart b) s fun d =>
      (d.compBlk b.val).test = some { n := (96 * b.val + i), checks := opChecks 1, marks := decide (1 = 1), nextAt := s.dev.now + nsT (checkWait (s.dev.compMode (96 * b.val + i)) (opChecks 1)) } ∧
      d.service (96 * b.val + i) = 2 ∧ d.fld (COMP.TEST_STATUS_SUBJECT b.val) = i % 128 ∧ (d.compBlk b.val).pos = i + 1 ∧
      Tab.keeps {} [b.val] s.dev.compBlks d.compBlks ∧ { s.dev with comps := d.comps, compBlks := d.compBlks }.keepsUnits d ∧
      s.dev.noRecord d) ∧
  (∀ (a : Agent) (n : Fin 192) (v : Word), s.dev.takes a.id (COMP.CMP_TEST n.val) v = true → v.toNat % 8 = 1 →
      wordBit v 8 = false → (∀ t : Fin 48, s.dev.tripEn t.val 0 = false ∧ s.dev.tripEn t.val 1 = false) →
      (s.dev.compBlk (n.val / 96)).test = none → Does (.cmpTestSequence a n v) s fun d => d.answer = .ok ∧
      (d.compBlk (n.val / 96)).test = some { n := n.val, checks := opChecks 1, marks := decide (1 = 1), nextAt := s.dev.now + nsT (checkWait (s.dev.compMode n.val) (opChecks 1)) } ∧
      d.service n.val = 2 ∧ d.fld (COMP.TEST_STATUS_SUBJECT (n.val / 96)) = n.val % 96 ∧
      s.dev.keepsRegs d [COMP.CMP_TEST n.val, COMP.CMP_STATUS n.val, COMP.CMP_STATUS (mate n.val), COMP.CMP_COUNT n.val, COMP.CMP_COUNT (mate n.val), COMP.TRIP (n.val / 96 * 3 + n.val % 96 / 32), COMP.TEST_STATUS (n.val / 96)] ∧
      { s.dev with comps := d.comps, compBlks := d.compBlks }.keepsUnits d ∧
      s.dev.oneRecord d (wordRecord s.dev.nowNs .live 0 a.id (COMP.CMP_TEST n.val) v 0)) ∧
  (∀ (a : Agent) (n : Fin 192) (v : Word), s.dev.takes a.id (COMP.CMP_TEST n.val) v = true → v.toNat % 8 = 2 →
      wordBit v 8 = false → (∀ t : Fin 48, s.dev.tripEn t.val 0 = false ∧ s.dev.tripEn t.val 1 = false) →
      (s.dev.compBlk (n.val / 96)).test = none → Does (.cmpTestTieTrip a n v) s fun d => d.answer = .ok ∧
      (d.compBlk (n.val / 96)).test = some { n := n.val, checks := opChecks 2, marks := decide (2 = 1), nextAt := s.dev.now + nsT (checkWait (s.dev.compMode n.val) (opChecks 2)) } ∧
      d.service n.val = 2 ∧ d.fld (COMP.TEST_STATUS_SUBJECT (n.val / 96)) = n.val % 96 ∧
      s.dev.keepsRegs d [COMP.CMP_TEST n.val, COMP.CMP_STATUS n.val, COMP.CMP_STATUS (mate n.val), COMP.CMP_COUNT n.val, COMP.CMP_COUNT (mate n.val), COMP.TRIP (n.val / 96 * 3 + n.val % 96 / 32), COMP.TEST_STATUS (n.val / 96)] ∧
      { s.dev with comps := d.comps, compBlks := d.compBlks }.keepsUnits d ∧
      s.dev.oneRecord d (wordRecord s.dev.nowNs .live 0 a.id (COMP.CMP_TEST n.val) v 0)) ∧
  (∀ (a : Agent) (n : Fin 192) (v : Word), s.dev.takes a.id (COMP.CMP_TEST n.val) v = true → v.toNat % 8 = 3 →
      wordBit v 8 = false → (∀ t : Fin 48, s.dev.tripEn t.val 0 = false ∧ s.dev.tripEn t.val 1 = false) →
      (s.dev.compBlk (n.val / 96)).test = none → Does (.cmpTestTieClear a n v) s fun d => d.answer = .ok ∧
      (d.compBlk (n.val / 96)).test = some { n := n.val, checks := opChecks 3, marks := decide (3 = 1), nextAt := s.dev.now + nsT (checkWait (s.dev.compMode n.val) (opChecks 3)) } ∧
      d.service n.val = 2 ∧ d.fld (COMP.TEST_STATUS_SUBJECT (n.val / 96)) = n.val % 96 ∧
      s.dev.keepsRegs d [COMP.CMP_TEST n.val, COMP.CMP_STATUS n.val, COMP.CMP_STATUS (mate n.val), COMP.CMP_COUNT n.val, COMP.CMP_COUNT (mate n.val), COMP.TRIP (n.val / 96 * 3 + n.val % 96 / 32), COMP.TEST_STATUS (n.val / 96)] ∧
      { s.dev with comps := d.comps, compBlks := d.compBlks }.keepsUnits d ∧
      s.dev.oneRecord d (wordRecord s.dev.nowNs .live 0 a.id (COMP.CMP_TEST n.val) v 0)) ∧
  (∀ (a : Agent) (n : Fin 192) (v : Word), s.dev.takes a.id (COMP.CMP_TEST n.val) v = true → v.toNat % 8 = 4 →
      wordBit v 8 = false → (∀ t : Fin 48, s.dev.tripEn t.val 0 = false ∧ s.dev.tripEn t.val 1 = false) →
      (s.dev.compBlk (n.val / 96)).test = none → Does (.cmpTestSwap a n v) s fun d => d.answer = .ok ∧
      (d.compBlk (n.val / 96)).test = some { n := n.val, checks := opChecks 4, marks := decide (4 = 1), nextAt := s.dev.now + nsT (checkWait (s.dev.compMode n.val) (opChecks 4)) } ∧
      d.service n.val = 2 ∧ d.fld (COMP.TEST_STATUS_SUBJECT (n.val / 96)) = n.val % 96 ∧
      s.dev.keepsRegs d [COMP.CMP_TEST n.val, COMP.CMP_STATUS n.val, COMP.CMP_STATUS (mate n.val), COMP.CMP_COUNT n.val, COMP.CMP_COUNT (mate n.val), COMP.TRIP (n.val / 96 * 3 + n.val % 96 / 32), COMP.TEST_STATUS (n.val / 96)] ∧
      { s.dev with comps := d.comps, compBlks := d.compBlks }.keepsUnits d ∧
      s.dev.oneRecord d (wordRecord s.dev.nowNs .live 0 a.id (COMP.CMP_TEST n.val) v 0)) ∧
  (∀ (a : Agent) (n : Fin 192) (v : Word), s.dev.takes a.id (COMP.CMP_TEST n.val) v = true → v.toNat % 8 = 4 →
      wordBit v 8 = false → (s.dev.compBlk (n.val / 96)).test ≠ none → Does (.cmpTestSwap a n v) s fun d => d.answer = .ok ∧
      d.compBlk (n.val / 96) = { s.dev.compBlk (n.val / 96) with queue := (s.dev.compBlk (n.val / 96)).queue ++ [(n.val, 4)] } ∧
      s.dev.keepsRegs d [COMP.CMP_TEST n.val] ∧ { s.dev with compBlks := d.compBlks }.keepsUnits d ∧
      s.dev.oneRecord d (wordRecord s.dev.nowNs .live 0 a.id (COMP.CMP_TEST n.val) v 0)) ∧
  (∀ (b : Fin 2) (o : Bool) (t : CompTest), (s.dev.compBlk b.val).test = some t → s.dev.due t.nextAt = true →
      (t.check (s.dev.compBelow t.n) o).checks ≠ [] → Does (.compTestCheck b o) s fun d =>
      (d.compBlk b.val).test = some { t.check (s.dev.compBelow t.n) o with nextAt := s.dev.now + nsT (checkWait (s.dev.compMode t.n) (t.check (s.dev.compBelow t.n) o).checks) } ∧
      s.dev.keepsRegs d [] ∧ { s.dev with compBlks := d.compBlks }.keepsUnits d ∧
      Tab.keeps {} [b.val] s.dev.compBlks d.compBlks ∧ s.dev.noRecord d) ∧
  (∀ (b : Fin 2) (o : Bool) (t : CompTest), (s.dev.compBlk b.val).test = some t → s.dev.due t.nextAt = true →
      (t.check (s.dev.compBelow t.n) o).checks = [] → (s.dev.compBlk b.val).queue = [] → t.n / 96 = b.val → t.checks ≠ [4] →
      (∀ t : Fin 48, s.dev.tripEn t.val 0 = false ∧ s.dev.tripEn t.val 1 = false) →
      ((t.check (s.dev.compBelow t.n) o).bad = false ∨ t.marks = false) → (s.dev.comp t.n).failed = false →
      Does (.compTestCheck b o) s fun d => (d.compBlk b.val).test = none ∧
      d.fld (COMP.CMP_STATUS_RESULT t.n) = (t.check (s.dev.compBelow t.n) o).result % 16 ∧
      d.flag (COMP.CMP_STATUS_TEST_DONE t.n) = true ∧ d.fld (COMP.TEST_STATUS_SUBJECT b.val) = 0x7F ∧ d.service t.n = 3 ∧
      (d.comp t.n).settleEnd = s.dev.now + nsT (settleNs (s.dev.compMode t.n)) ∧
      { s.dev with comps := d.comps, compBlks := d.compBlks, trued := d.trued }.keepsUnits d ∧ s.dev.noRecord d) ∧
  (∀ (b : Fin 2) (o : Bool) (t : CompTest), (s.dev.compBlk b.val).test = some t → s.dev.due t.nextAt = true →
      (t.check (s.dev.compBelow t.n) o).checks = [] → (s.dev.compBlk b.val).queue = [] → t.n / 96 = b.val → t.checks ≠ [4] →
      (∀ t : Fin 48, s.dev.tripEn t.val 0 = false ∧ s.dev.tripEn t.val 1 = false) →
      (t.check (s.dev.compBelow t.n) o).bad = true → t.marks = true → (s.dev.comp t.n).failed = false →
      Does (.compTestCheck b o) s fun d => (d.compBlk b.val).test = none ∧
      d.fld (COMP.CMP_STATUS_RESULT t.n) = (t.check (s.dev.compBelow t.n) o).result % 16 ∧
      d.flag (COMP.CMP_STATUS_TEST_DONE t.n) = true ∧ d.fld (COMP.TEST_STATUS_SUBJECT b.val) = 0x7F ∧ d.service t.n = 4 ∧
      (d.comp t.n).failed = true ∧ d.flag (COMP.CMP_STATUS_TEST_FAIL t.n) = true ∧
      d.faults = s.dev.faults ++ [{ src := 0x0F, unit := t.n, stamp := s.dev.nowNs }] ∧
      d.fld (COMP.TEST_FAILS_COUNT b.val) = satInc 0x7F (s.dev.fld (COMP.TEST_FAILS_COUNT b.val)))

/-- For every state, slot and sample whose computations agree: where the set-point is the register without slew, the input is not inverted, the coefficients are free of errors and the slot has no target, SLOT_EVALUATION in RUNNING computes the error, y, its clamp between INT_LO and INT_HI (the lower limit prevailing) and the output exactly as R139 writes them, keeps e and yc in the histories, recomputes the partial, shows set-point, error, output and clamp flags, counts the evaluation, and changes no other slot, register or unit; in MANUAL yc is the clamped SLOT_MAN. A sample of a slot that is not running is consumed without effect. Where a clause rests on a reading or a choice of the model, it is the model's and not the spec's: log entries 62, 63, 69 and 155. -/
def Obligations.SlotEvaluations : Prop :=
  ∀ s : State,
  (∀ (n : Fin 32) (t : Time) (w : Half) (rest : List (Time × Half)), (s.dev.slot n.val).queue = (t, w) :: rest →
      (s.dev.slot n.val).defer = none → s.dev.sliceDet = none → s.dev.slotRun n.val = 1 → s.dev.slotMode n.val ≠ 3 →
      s.dev.ecc = [] → s.dev.flag (LOOP.SLOT_CFG_INV n.val) = false → s.dev.fld (LOOP.SLOT_SP_CFG_SRC n.val) = 0 →
      s.dev.fld (LOOP.SLOT_SP_SLEW_SLEW n.val) = 0 → (s.dev.slot n.val).first = false →
      s.dev.fld (LOOP.SLOT_OUT_CFG_TARGET n.val) = 0 → s.dev.fld (LOOP.OSC_CFG_ACTION n.val) = 0 →
      (∀ u : Fin 4, s.dev.trcState u.val = 0) → Does (.slotEvaluation n true) s fun d =>
      (d.slot n.val).evs.head? = some { t := t, u := (pidU (max (s.dev.int (LOOP.SLOT_INT_LO n.val) * 4096) (min (pidY ((s.dev.coefs n.val (s.dev.fld (LOOP.SLOT_STATUS_CUR_SET n.val))).headD 0) (pidErr (s.dev.fld (LOOP.SLOT_CFG_SHIFT n.val)) (s.dev.int24 (LOOP.SLOT_SP_TARGET n.val)) (codeOf w * 256)) (s.dev.slot n.val).p) (s.dev.int (LOOP.SLOT_INT_HI n.val) * 4096))) (s.dev.int (LOOP.SLOT_OUT_LO n.val)) (s.dev.int (LOOP.SLOT_OUT_HI n.val))), r := s.dev.int24 (LOOP.SLOT_SP_TARGET n.val), e := (pidErr (s.dev.fld (LOOP.SLOT_CFG_SHIFT n.val)) (s.dev.int24 (LOOP.SLOT_SP_TARGET n.val)) (codeOf w * 256)), yc := (max (s.dev.int (LOOP.SLOT_INT_LO n.val) * 4096) (min (pidY ((s.dev.coefs n.val (s.dev.fld (LOOP.SLOT_STATUS_CUR_SET n.val))).headD 0) (pidErr (s.dev.fld (LOOP.SLOT_CFG_SHIFT n.val)) (s.dev.int24 (LOOP.SLOT_SP_TARGET n.val)) (codeOf w * 256)) (s.dev.slot n.val).p) (s.dev.int (LOOP.SLOT_INT_HI n.val) * 4096))) } ∧
      ((d.slot n.val).e1 = (pidErr (s.dev.fld (LOOP.SLOT_CFG_SHIFT n.val)) (s.dev.int24 (LOOP.SLOT_SP_TARGET n.val)) (codeOf w * 256)) ∧
      (d.slot n.val).e2 = (s.dev.slot n.val).e1 ∧ (d.slot n.val).e3 = (s.dev.slot n.val).e2 ∧
      (d.slot n.val).e4 = (s.dev.slot n.val).e3) ∧
      ((d.slot n.val).y1 = (max (s.dev.int (LOOP.SLOT_INT_LO n.val) * 4096) (min (pidY ((s.dev.coefs n.val (s.dev.fld (LOOP.SLOT_STATUS_CUR_SET n.val))).headD 0) (pidErr (s.dev.fld (LOOP.SLOT_CFG_SHIFT n.val)) (s.dev.int24 (LOOP.SLOT_SP_TARGET n.val)) (codeOf w * 256)) (s.dev.slot n.val).p) (s.dev.int (LOOP.SLOT_INT_HI n.val) * 4096))) ∧
      (d.slot n.val).y2 = (s.dev.slot n.val).y1 ∧ (d.slot n.val).y3 = (s.dev.slot n.val).y2 ∧
      (d.slot n.val).y4 = (s.dev.slot n.val).y3) ∧
      (d.slot n.val).p = (d.slot n.val).partialOf (s.dev.coefs n.val (s.dev.fld (LOOP.SLOT_STATUS_CUR_SET n.val))) ∧
      (d.slot n.val).queue = rest ∧ (d.slot n.val).tPrev = t ∧
      d.int (LOOP.SLOT_OUT n.val) = (pidU (max (s.dev.int (LOOP.SLOT_INT_LO n.val) * 4096) (min (pidY ((s.dev.coefs n.val (s.dev.fld (LOOP.SLOT_STATUS_CUR_SET n.val))).headD 0) (pidErr (s.dev.fld (LOOP.SLOT_CFG_SHIFT n.val)) (s.dev.int24 (LOOP.SLOT_SP_TARGET n.val)) (codeOf w * 256)) (s.dev.slot n.val).p) (s.dev.int (LOOP.SLOT_INT_HI n.val) * 4096))) (s.dev.int (LOOP.SLOT_OUT_LO n.val)) (s.dev.int (LOOP.SLOT_OUT_HI n.val))) ∧
      d.reg (LOOP.SLOT_EVALS n.val) = s.dev.reg (LOOP.SLOT_EVALS n.val) + 1 ∧
      d.int24 (LOOP.SLOT_SP_NOW n.val) = s.dev.int24 (LOOP.SLOT_SP_TARGET n.val) ∧
      d.int (LOOP.SLOT_ERR n.val) = (pidErr (s.dev.fld (LOOP.SLOT_CFG_SHIFT n.val)) (s.dev.int24 (LOOP.SLOT_SP_TARGET n.val)) (codeOf w * 256)) ∧
      Tab.keeps {} [n.val] s.dev.slots d.slots ∧
      s.dev.keepsRegs d [LOOP.SLOT_EVALS n.val, LOOP.SLOT_COMMIT_EVAL n.val, LOOP.SLOT_OUT n.val, LOOP.SLOT_SP_NOW n.val, LOOP.SLOT_ERR n.val, LOOP.SLOT_STATE n.val, LOOP.SLOT_STATE n.val + 4, LOOP.SLOT_STATUS n.val, LOOP.SLOT_COUNTS n.val, LOOP.OSC_STATUS n.val, LOOP.SNAP_OUT n.val, LOOP.SNAP_SP n.val] ∧
      ((s.dev.slot n.val).snapT = none → d.reg (LOOP.SNAP_OUT n.val) = s.dev.reg (LOOP.SNAP_OUT n.val) ∧
      d.reg (LOOP.SNAP_SP n.val) = s.dev.reg (LOOP.SNAP_SP n.val)) ∧ { s.dev with slots := d.slots }.keepsUnits d ∧
      s.dev.noRecord d ∧
      d.flag (LOOP.SLOT_STATUS_CLAMPED_HI n.val) = decide ((s.dev.int (LOOP.SLOT_INT_HI n.val) * 4096) < (pidY ((s.dev.coefs n.val (s.dev.fld (LOOP.SLOT_STATUS_CUR_SET n.val))).headD 0) (pidErr (s.dev.fld (LOOP.SLOT_CFG_SHIFT n.val)) (s.dev.int24 (LOOP.SLOT_SP_TARGET n.val)) (codeOf w * 256)) (s.dev.slot n.val).p)) ∧
      d.flag (LOOP.SLOT_STATUS_CLAMPED_LO n.val) = decide ((pidY ((s.dev.coefs n.val (s.dev.fld (LOOP.SLOT_STATUS_CUR_SET n.val))).headD 0) (pidErr (s.dev.fld (LOOP.SLOT_CFG_SHIFT n.val)) (s.dev.int24 (LOOP.SLOT_SP_TARGET n.val)) (codeOf w * 256)) (s.dev.slot n.val).p) < (s.dev.int (LOOP.SLOT_INT_LO n.val) * 4096))) ∧
  (∀ (n : Fin 32) (t : Time) (w : Half) (rest : List (Time × Half)), (s.dev.slot n.val).queue = (t, w) :: rest →
      (s.dev.slot n.val).defer = none → s.dev.sliceDet = none → s.dev.slotRun n.val = 3 → s.dev.slotMode n.val = 3 →
      s.dev.ecc = [] → s.dev.flag (LOOP.SLOT_CFG_INV n.val) = false → s.dev.fld (LOOP.SLOT_SP_CFG_SRC n.val) = 0 →
      s.dev.fld (LOOP.SLOT_SP_SLEW_SLEW n.val) = 0 → (s.dev.slot n.val).first = false →
      s.dev.fld (LOOP.SLOT_OUT_CFG_TARGET n.val) = 0 → s.dev.fld (LOOP.OSC_CFG_ACTION n.val) = 0 →
      (∀ u : Fin 4, s.dev.trcState u.val = 0) → Does (.slotEvaluation n true) s fun d =>
      (d.slot n.val).evs.head? = some { t := t, u := (pidU (max (s.dev.int (LOOP.SLOT_INT_LO n.val) * 4096) (min (s.dev.int (LOOP.SLOT_MAN n.val) * 4096) (s.dev.int (LOOP.SLOT_INT_HI n.val) * 4096))) (s.dev.int (LOOP.SLOT_OUT_LO n.val)) (s.dev.int (LOOP.SLOT_OUT_HI n.val))), r := s.dev.int24 (LOOP.SLOT_SP_TARGET n.val), e := (pidErr (s.dev.fld (LOOP.SLOT_CFG_SHIFT n.val)) (s.dev.int24 (LOOP.SLOT_SP_TARGET n.val)) (codeOf w * 256)), yc := (max (s.dev.int (LOOP.SLOT_INT_LO n.val) * 4096) (min (s.dev.int (LOOP.SLOT_MAN n.val) * 4096) (s.dev.int (LOOP.SLOT_INT_HI n.val) * 4096))) } ∧
      ((d.slot n.val).e1 = (pidErr (s.dev.fld (LOOP.SLOT_CFG_SHIFT n.val)) (s.dev.int24 (LOOP.SLOT_SP_TARGET n.val)) (codeOf w * 256)) ∧
      (d.slot n.val).e2 = (s.dev.slot n.val).e1 ∧ (d.slot n.val).e3 = (s.dev.slot n.val).e2 ∧
      (d.slot n.val).e4 = (s.dev.slot n.val).e3) ∧
      ((d.slot n.val).y1 = (max (s.dev.int (LOOP.SLOT_INT_LO n.val) * 4096) (min (s.dev.int (LOOP.SLOT_MAN n.val) * 4096) (s.dev.int (LOOP.SLOT_INT_HI n.val) * 4096))) ∧
      (d.slot n.val).y2 = (s.dev.slot n.val).y1 ∧ (d.slot n.val).y3 = (s.dev.slot n.val).y2 ∧
      (d.slot n.val).y4 = (s.dev.slot n.val).y3) ∧
      (d.slot n.val).p = (d.slot n.val).partialOf (s.dev.coefs n.val (s.dev.fld (LOOP.SLOT_STATUS_CUR_SET n.val))) ∧
      (d.slot n.val).queue = rest ∧ (d.slot n.val).tPrev = t ∧
      d.int (LOOP.SLOT_OUT n.val) = (pidU (max (s.dev.int (LOOP.SLOT_INT_LO n.val) * 4096) (min (s.dev.int (LOOP.SLOT_MAN n.val) * 4096) (s.dev.int (LOOP.SLOT_INT_HI n.val) * 4096))) (s.dev.int (LOOP.SLOT_OUT_LO n.val)) (s.dev.int (LOOP.SLOT_OUT_HI n.val))) ∧
      d.reg (LOOP.SLOT_EVALS n.val) = s.dev.reg (LOOP.SLOT_EVALS n.val) + 1 ∧
      d.int24 (LOOP.SLOT_SP_NOW n.val) = s.dev.int24 (LOOP.SLOT_SP_TARGET n.val) ∧
      d.int (LOOP.SLOT_ERR n.val) = (pidErr (s.dev.fld (LOOP.SLOT_CFG_SHIFT n.val)) (s.dev.int24 (LOOP.SLOT_SP_TARGET n.val)) (codeOf w * 256)) ∧
      Tab.keeps {} [n.val] s.dev.slots d.slots ∧
      s.dev.keepsRegs d [LOOP.SLOT_EVALS n.val, LOOP.SLOT_COMMIT_EVAL n.val, LOOP.SLOT_OUT n.val, LOOP.SLOT_SP_NOW n.val, LOOP.SLOT_ERR n.val, LOOP.SLOT_STATE n.val, LOOP.SLOT_STATE n.val + 4, LOOP.SLOT_STATUS n.val, LOOP.SLOT_COUNTS n.val, LOOP.OSC_STATUS n.val, LOOP.SNAP_OUT n.val, LOOP.SNAP_SP n.val] ∧
      ((s.dev.slot n.val).snapT = none → d.reg (LOOP.SNAP_OUT n.val) = s.dev.reg (LOOP.SNAP_OUT n.val) ∧
      d.reg (LOOP.SNAP_SP n.val) = s.dev.reg (LOOP.SNAP_SP n.val)) ∧ { s.dev with slots := d.slots }.keepsUnits d ∧
      s.dev.noRecord d) ∧
  (∀ (n : Fin 32) (g : Bool) (t : Time) (w : Half) (rest : List (Time × Half)), (s.dev.slot n.val).queue = (t, w) :: rest →
      (s.dev.slot n.val).defer = none → s.dev.sliceDet = none → (s.dev.slotRun n.val = 0 ∨ s.dev.slotRun n.val = 2) →
      Does (.slotEvaluation n g) s fun d => d.slot n.val = { (s.dev.slot n.val) with queue := rest } ∧
      Tab.keeps {} [n.val] s.dev.slots d.slots ∧ s.dev.keepsRegs d [] ∧ { s.dev with slots := d.slots }.keepsUnits d ∧
      s.dev.noRecord d)

/-- For every state: a SLOT_EVALUATION whose computations disagree counts the mismatch, notes its instant, marks the slice FAULTY, raises event 10, reports source 7, and starts a detour where R169 permits one; DETOUR_STATE_COPY shows the transfer time and puts the spare in the place of the slice; DETOUR_RESUME at t_r ends a detour that no running slot waits for, with DETOUR_DONE and one SYSTEM record, and otherwise lets the spare evaluate for the running slots; SPARE_TEST failing sets SPARE_FAIL and reports source 8; SLICE_READY makes a powered slice ready; SUP_RETURN schedules a return and SLICE_RETURN_AT makes it: the slice is no longer FAULTY and the spare free. Where a clause rests on a reading or a choice of the model, it is the model's and not the spec's: log entries 66 and 69. -/
def Obligations.SliceDetours : Prop :=
  ∀ s : State,
  (∀ (n : Fin 32) (t : Time) (w : Half) (rest : List (Time × Half)), (s.dev.slot n.val).queue = (t, w) :: rest →
      (s.dev.slot n.val).defer = none → s.dev.sliceDet = none → (s.dev.slotRun n.val = 1 ∨ s.dev.slotRun n.val = 3) →
      s.dev.sliceDetourOk (s.dev.evalSlice n.val t) = true → Does (.slotEvaluation n false) s fun d =>
      d.num LOOP.SUP_MISMATCHES = satInc 0xFFFFFFFF (s.dev.num LOOP.SUP_MISMATCHES) ∧ d.reg64 LOOP.SUP_DETOUR_T = t ∧
      bitOf (d.fld LOOP.SUP_STATUS_FAULTY) (s.dev.evalSlice n.val t) = true ∧
      bitOf (d.fld LOOP.SUP_STATUS_FAULTY) (n.val / 8) = true ∧ ((∀ g : Fin 8, s.dev.cgOn g.val = false) → s.dev.raised d [10] ∧
      d.faults = s.dev.faults ++ [{ src := 0x07, unit := (s.dev.evalSlice n.val t), stamp := s.dev.nowNs }] ∧
      s.dev.oneRecord d (wordRecord s.dev.nowNs .system 0 0x0600 LOOP.SUP_STATUS (d.reg LOOP.SUP_STATUS) (s.dev.reg LOOP.SUP_STATUS))) ∧
      d.sliceDet = some { k := (s.dev.evalSlice n.val t), tm := t } ∧ d.flag LOOP.SUP_STATUS_DETOURING = true ∧
      ((∀ g : Fin 8, s.dev.cgOn g.val = false) →
      s.dev.keepsRegs d [LOOP.SUP_MISMATCHES, LOOP.SUP_DETOUR_T, LOOP.SUP_DETOUR_T + 4, LOOP.SUP_STATUS, LOOP.SUP_DETOUR_INFO] ∧
      { s.dev with slots := d.slots, sliceDet := d.sliceDet, faults := d.faults }.keepsUnits d)) ∧
  (∀ (n : Fin 32) (t : Time) (w : Half) (rest : List (Time × Half)), (s.dev.slot n.val).queue = (t, w) :: rest →
      (s.dev.slot n.val).defer = none → s.dev.sliceDet = none → (s.dev.slotRun n.val = 1 ∨ s.dev.slotRun n.val = 3) →
      s.dev.sliceDetourOk (s.dev.evalSlice n.val t) = false → Does (.slotEvaluation n false) s fun d =>
      d.num LOOP.SUP_MISMATCHES = satInc 0xFFFFFFFF (s.dev.num LOOP.SUP_MISMATCHES) ∧ d.reg64 LOOP.SUP_DETOUR_T = t ∧
      bitOf (d.fld LOOP.SUP_STATUS_FAULTY) (s.dev.evalSlice n.val t) = true ∧
      bitOf (d.fld LOOP.SUP_STATUS_FAULTY) (n.val / 8) = true ∧ ((∀ g : Fin 8, s.dev.cgOn g.val = false) → s.dev.raised d [10] ∧
      d.faults = s.dev.faults ++ [{ src := 0x07, unit := (s.dev.evalSlice n.val t), stamp := s.dev.nowNs }] ∧
      s.dev.oneRecord d (wordRecord s.dev.nowNs .system 0 0x0600 LOOP.SUP_STATUS (d.reg LOOP.SUP_STATUS) (s.dev.reg LOOP.SUP_STATUS))) ∧
      d.sliceDet = none ∧ (∀ i : Fin 8, (d.slot (8 * (n.val / 8) + i.val)).held = some (s.dev.evalSlice n.val t) ∧
      (s.dev.slotMode (8 * (n.val / 8) + i.val) ≠ 0 → d.slotRun (8 * (n.val / 8) + i.val) = 4 ∧
      (d.slot (8 * (n.val / 8) + i.val)).queue = []))) ∧
  (∀ (ns : Nat) (x : SliceDet), s.dev.sliceDet = some x → x.copied = false → x.k < 4 → Does (.detourStateCopy ns) s fun d =>
      d.sliceDet = some { x with copied := true } ∧ d.fld LOOP.SUP_DETOUR_INFO_TRANSFER_NS = min 2047 ns ∧
      d.fld LOOP.SUP_STATUS_SPARE_FOR = x.k ∧ s.dev.keepsRegs d [LOOP.SUP_DETOUR_INFO, LOOP.SUP_STATUS] ∧
      { s.dev with sliceDet := d.sliceDet }.keepsUnits d ∧ s.dev.noRecord d) ∧
  (∀ (x : SliceDet), s.dev.sliceDet = some x → x.copied = true → x.resumed = false → s.dev.due (x.tm + nsT 1500) = true →
      x.k < 4 → (∀ i : Fin 8, (s.dev.grp (grpKey (0x18 + (8 * x.k + i.val) / 16) ((8 * x.k + i.val) % 16))).st ≠ .pending ∧
      (s.dev.slot (8 * x.k + i.val)).defer = none) → (s.dev.grp supGroup).st ≠ .pending →
      (∀ g : Fin 8, s.dev.cgOn g.val = false) → (∀ i : Fin 8, s.dev.slotRun (8 * x.k + i.val) ≠ 1 ∧
      s.dev.slotRun (8 * x.k + i.val) ≠ 3) → Does (.detourResume) s fun d => d.sliceDet = none ∧
      d.flag LOOP.SUP_STATUS_DETOURING = false ∧ d.flag LOOP.SUP_STATUS_DETOUR_DONE = true ∧
      s.dev.oneRecord d (wordRecord s.dev.nowNs .system 0 0x0600 LOOP.SUP_STATUS (d.reg LOOP.SUP_STATUS) (s.dev.reg LOOP.SUP_STATUS)) ∧
      { s.dev with slots := d.slots, sliceDet := none }.keepsUnits d) ∧
  (∀ (x : SliceDet), s.dev.sliceDet = some x → x.copied = true → x.resumed = false → s.dev.due (x.tm + nsT 1500) = true →
      x.k < 4 → (∀ i : Fin 8, (s.dev.grp (grpKey (0x18 + (8 * x.k + i.val) / 16) ((8 * x.k + i.val) % 16))).st ≠ .pending ∧
      (s.dev.slot (8 * x.k + i.val)).defer = none) → (s.dev.grp supGroup).st ≠ .pending →
      (∀ g : Fin 8, s.dev.cgOn g.val = false) → (∃ i : Fin 8, s.dev.slotRun (8 * x.k + i.val) = 1) →
      Does (.detourResume) s fun d =>
      d.sliceDet = some { x with resumed := true, left := ((List.range 8).map (8 * x.k + ·)).filter fun j => decide (s.dev.slotRun j = 1) || decide (s.dev.slotRun j = 3) } ∧
      (∀ i : Fin 8, (d.slot (8 * x.k + i.val)).queue = (s.dev.slot (8 * x.k + i.val)).queue.filter fun e => decide (dist (x.tm + nsT 1500) e.1 ≥ 0)) ∧
      { s.dev with slots := d.slots, sliceDet := d.sliceDet }.keepsUnits d ∧ s.dev.noRecord d) ∧
  (s.dev.fld LOOP.SUP_CFG_SPARE_TEST_US ≠ 0 → s.dev.sliceReady 4 = true → s.dev.fld LOOP.SUP_STATUS_SPARE_FOR = 7 →
      s.dev.sliceDet = none → s.dev.due (s.dev.spareTestT + nsT (s.dev.fld LOOP.SUP_CFG_SPARE_TEST_US * 1000)) = true →
      Does (.spareTest true) s fun d => d.spareTestT = s.dev.now ∧ s.dev.keepsRegs d [] ∧
      { s.dev with spareTestT := d.spareTestT }.keepsUnits d ∧ s.dev.noRecord d) ∧
  (s.dev.fld LOOP.SUP_CFG_SPARE_TEST_US ≠ 0 → s.dev.sliceReady 4 = true → s.dev.fld LOOP.SUP_STATUS_SPARE_FOR = 7 →
      s.dev.sliceDet = none → s.dev.due (s.dev.spareTestT + nsT (s.dev.fld LOOP.SUP_CFG_SPARE_TEST_US * 1000)) = true →
      Does (.spareTest false) s fun d => d.spareTestT = s.dev.now ∧
      d.num LOOP.SUP_MISMATCHES = satInc 0xFFFFFFFF (s.dev.num LOOP.SUP_MISMATCHES) ∧ d.flag LOOP.SUP_STATUS_SPARE_FAIL = true ∧
      d.faults = s.dev.faults ++ [{ src := 0x08, unit := 4, stamp := s.dev.nowNs }] ∧
      s.dev.oneRecord d (wordRecord s.dev.nowNs .system 0 0x0600 LOOP.SUP_STATUS (d.reg LOOP.SUP_STATUS) (s.dev.reg LOOP.SUP_STATUS)) ∧
      s.dev.keepsRegs d [LOOP.SUP_MISMATCHES, LOOP.SUP_STATUS] ∧
      { s.dev with spareTestT := d.spareTestT, faults := d.faults }.keepsUnits d) ∧
  (∀ (k : Fin 5), s.dev.powered (25 + k.val) 5000 = true → Does (.sliceReady k) s fun d => d.sliceReady k.val = true ∧
      d.domReady (25 + k.val) = true ∧ (∀ j : Fin 32, s.dev.slotSlice j.val = k.val → s.dev.slotRun j.val = 4 →
      (s.dev.slot j.val).held = none → d.slotRun j.val = s.dev.slotMode j.val ∧ (d.slot j.val).start = s.dev.now) ∧
      { s.dev with slots := d.slots }.keepsUnits d ∧ s.dev.noRecord d) ∧
  (∀ (a : Agent) (v : Word), s.dev.takes a.id LOOP.SUP_CMD v = true → wordBit v 8 = true → Does (.supReturn a v) s fun d =>
      d.answer = .ok ∧
      d.sliceRet = (s.dev.sliceRet.filter fun p => decide (p.1 ≠ v.toNat % 8)) ++ [(v.toNat % 8, s.dev.reg64 LOOP.SUP_RETURN_AT)] ∧
      s.dev.keepsRegs d [LOOP.SUP_CMD] ∧ { s.dev with sliceRet := d.sliceRet }.keepsUnits d ∧
      s.dev.oneRecord d (wordRecord s.dev.nowNs .live 0 a.id LOOP.SUP_CMD v 0)) ∧
  (∀ (k : Fin 4) (x : Nat × Time), s.dev.sliceRet.find? (fun p => decide (p.1 = k.val)) = some x → s.dev.due x.2 = true →
      Does (.sliceReturnAt k) s fun d => bitOf (d.fld LOOP.SUP_STATUS_FAULTY) k.val = false ∧
      (s.dev.fld LOOP.SUP_STATUS_SPARE_FOR ≠ k.val ∨ d.fld LOOP.SUP_STATUS_SPARE_FOR = 7) ∧
      d.sliceRet.all (fun p => decide (p.1 ≠ k.val)) = true ∧ (∀ i : Fin 8, s.dev.slotRun (8 * k.val + i.val) = 4 →
      d.slotRun (8 * k.val + i.val) = s.dev.slotMode (8 * k.val + i.val) ∧ (d.slot (8 * k.val + i.val)).start = x.2) ∧
      s.dev.oneRecord d (wordRecord s.dev.nowNs .system 0 0x0600 LOOP.SUP_STATUS (d.reg LOOP.SUP_STATUS) (s.dev.reg LOOP.SUP_STATUS)) ∧
      { s.dev with slots := d.slots, sliceRet := d.sliceRet }.keepsUnits d)

/-- For every state and slot: SP_JUMP, ZERO_HIST (not while RUNNING) and COUNTS_CLEAR do what SLOT_CMD says and nothing else; COEF_WRITE, through the window or the coefficient memory, stores the coefficient word there and changes no other byte of memory; PULSE_RISING_EDGE after a valid period of 40 ns or more shows the duty of that period and ends PULSE_LOST with its record; PULSE_LOSS after TIMEOUT_US sets PULSE_LOST with one SYSTEM record of the loop engine. Where a clause rests on a reading or a choice of the model, it is the model's and not the spec's: log entries 64, 67, 115 and 155. -/
def Obligations.SlotCommands : Prop :=
  ∀ s : State,
  (∀ (a : Agent) (n : Fin 32) (v : Word), s.dev.takes a.id (LOOP.SLOT_CMD n.val) v = true → v = 4 →
      Does (.spJump a n v) s fun d => d.answer = .ok ∧ d.slot n.val = { (s.dev.slot n.val) with spJump := true } ∧
      Tab.keeps {} [n.val] s.dev.slots d.slots ∧ s.dev.keepsRegs d [LOOP.SLOT_CMD n.val] ∧
      { s.dev with slots := d.slots }.keepsUnits d ∧
      s.dev.oneRecord d (wordRecord s.dev.nowNs .live 0 a.id (LOOP.SLOT_CMD n.val) v 0)) ∧
  (∀ (a : Agent) (n : Fin 32) (v : Word), s.dev.takes a.id (LOOP.SLOT_CMD n.val) v = true → v = 2 →
      Does (.zeroHist a n v) s fun d => d.answer = .ok ∧
      d.slot n.val = { (s.dev.slot n.val) with e1 := 0, e2 := 0, e3 := 0, e4 := 0, y1 := 0, y2 := 0, y3 := 0, y4 := 0, p := 0 } ∧
      Tab.keeps {} [n.val] s.dev.slots d.slots ∧ s.dev.keepsRegs d [LOOP.SLOT_CMD n.val] ∧
      { s.dev with slots := d.slots }.keepsUnits d ∧
      s.dev.oneRecord d (wordRecord s.dev.nowNs .live 0 a.id (LOOP.SLOT_CMD n.val) v 0)) ∧
  (∀ (a : Agent) (n : Fin 32) (v : Word), s.dev.takes a.id (LOOP.SLOT_CMD n.val) v = true → v = 1 →
      Does (.slotCountsClear a n v) s fun d => d.answer = .ok ∧ d.num (LOOP.SLOT_COUNTS n.val) = 0 ∧
      s.dev.keepsRegs d [LOOP.SLOT_COUNTS n.val, LOOP.SLOT_CMD n.val] ∧ s.dev.keepsUnits d ∧
      s.dev.oneRecord d (wordRecord s.dev.nowNs .live 0 a.id (LOOP.SLOT_CMD n.val) v 0)) ∧
  (∀ (a : Agent) (n : Fin 32) (k : Fin 4) (i : Fin 16) (v : Word), s.dev.takes a.id ((0x18 + n.val / 16) * 0x10000 + 0x4000 + 0x100 * (n.val % 16) + 0x40 * k.val + 4 * i.val) v = true →
      i.val < 9 → Does (.coefWrite a n k i false v) s fun d => d.answer = .ok ∧
      d.bytes (coefAddr n.val k.val i.val) 4 = toBytes 4 v.toNat ∧
      (s.dev.lgDram = true ∨ s.dev.bytesKept d (coefAddr n.val k.val i.val) ((coefAddr n.val k.val i.val) + 4)) ∧
      s.dev.keepsRegs d eccWords ∧ { s.dev with mem := d.mem, ecc := d.ecc }.keepsUnits d) ∧
  (∀ (a : Agent) (n : Fin 32) (k : Fin 4) (i : Fin 16) (v : Word), s.dev.takes a.id ((0x18 + n.val / 16) * 0x10000 + 0x4000 + 0x100 * (n.val % 16) + 0x40 * k.val + 4 * i.val) v = true →
      i.val < 9 → s.dev.memOpen a.id (coefAddr n.val k.val i.val) 4 true = true → Does (.coefWrite a n k i true v) s fun d =>
      d.bytes (coefAddr n.val k.val i.val) 4 = toBytes 4 v.toNat ∧
      (s.dev.lgDram = true ∨ s.dev.bytesKept d (coefAddr n.val k.val i.val) ((coefAddr n.val k.val i.val) + 4)) ∧
      s.dev.keepsRegs d eccWords ∧ { s.dev with mem := d.mem, ecc := d.ecc }.keepsUnits d) ∧
  (∀ (n : Fin 32) (x : Nat) (p : Time), s.dev.fld (LOOP.SLOT_SP_CFG_SRC n.val) = 2 → (s.dev.slot n.val).pulseEdge = some p →
      40 ≤ (nsOf s.dev.now - nsOf p) → (nsOf s.dev.now - nsOf p) ≤ 16777215 → Does (.pulseRisingEdge n x) s fun d =>
      d.fld (LOOP.SLOT_PULSE_MEAS_D n.val) = min (x * 65536 / (nsOf s.dev.now - nsOf p)) 65535 ∧
      (d.slot n.val).pulseEdge = some s.dev.now ∧ (d.slot n.val).pulseOk = s.dev.now ∧
      d.flag (LOOP.SLOT_STATUS_PULSE_LOST n.val) = false ∧ Tab.keeps {} [n.val] s.dev.slots d.slots ∧
      s.dev.keepsRegs d [LOOP.SLOT_PULSE_MEAS n.val, LOOP.SLOT_STATUS n.val] ∧ { s.dev with slots := d.slots }.keepsUnits d) ∧
  (∀ (n : Fin 32), s.dev.fld (LOOP.SLOT_PULSE_TMO_TIMEOUT_US n.val) ≠ 0 → s.dev.fld (LOOP.SLOT_SP_CFG_SRC n.val) = 2 →
      s.dev.flag (LOOP.SLOT_STATUS_PULSE_LOST n.val) = false →
      s.dev.due ((s.dev.slot n.val).pulseOk + nsT (s.dev.fld (LOOP.SLOT_PULSE_TMO_TIMEOUT_US n.val) * 1000)) = true →
      Does (.pulseLoss n) s fun d => d.flag (LOOP.SLOT_STATUS_PULSE_LOST n.val) = true ∧
      d.flag (LOOP.SLOT_STATUS_PULSE_LOSS n.val) = true ∧
      s.dev.oneRecord d (wordRecord s.dev.nowNs .system 0 0x0300 (LOOP.SLOT_STATUS n.val) (d.slotStatus n.val) (s.dev.slotStatus n.val)) ∧
      s.dev.keepsRegs d [LOOP.SLOT_STATUS n.val] ∧ s.dev.keepsUnits d)

/-- For every state and unit: ARM of a SINGLE unit restarts it ARMED at index 0; FORCE of an ARMED unit triggers at its next record; STOP of a unit that is not IDLE makes it DONE; TRACE_RECORD with its nodes available writes time and values as one 16-byte record at the write index and advances it, in a STREAM unit to the buffer, counting a drop where 4,096 records wait; TRACE_STREAM_WRITE moves the oldest record to its place in the DRAM ring and counts it. Where a clause rests on a reading or a choice of the model, it is the model's and not the spec's: log entry 68. -/
def Obligations.TraceUnits : Prop :=
  ∀ s : State,
  (∀ (a : Agent) (u : Fin 4) (v : Word), s.dev.takes a.id (LOOP.TRC_CMD u.val) v = true → v = 4 → s.dev.trcMode u.val = 1 →
      Does (.trcArm a u v) s fun d => d.answer = .ok ∧ d.num (LOOP.TRC_STATUS u.val) = 1 ∧
      d.trc u.val = { start := floorNs s.dev.now, buf := (s.dev.trc u.val).buf } ∧ Tab.keeps {} [u.val] s.dev.traces d.traces ∧
      s.dev.keepsRegs d [LOOP.TRC_STATUS u.val, LOOP.TRC_CMD u.val] ∧ { s.dev with traces := d.traces }.keepsUnits d ∧
      s.dev.oneRecord d (wordRecord s.dev.nowNs .live 0 a.id (LOOP.TRC_CMD u.val) v 0)) ∧
  (∀ (a : Agent) (u : Fin 4) (v : Word), s.dev.takes a.id (LOOP.TRC_CMD u.val) v = true → v = 2 → s.dev.trcState u.val = 1 →
      Does (.trcForce a u v) s fun d => d.answer = .ok ∧ d.trc u.val = { (s.dev.trc u.val) with force := true } ∧
      Tab.keeps {} [u.val] s.dev.traces d.traces ∧ s.dev.keepsRegs d [LOOP.TRC_CMD u.val] ∧
      { s.dev with traces := d.traces }.keepsUnits d ∧
      s.dev.oneRecord d (wordRecord s.dev.nowNs .live 0 a.id (LOOP.TRC_CMD u.val) v 0)) ∧
  (∀ (a : Agent) (u : Fin 4) (v : Word), s.dev.takes a.id (LOOP.TRC_CMD u.val) v = true → v = 1 → s.dev.trcState u.val ≠ 0 →
      Does (.trcStop a u v) s fun d => d.answer = .ok ∧ d.trcState u.val = 3 ∧
      d.trc u.val = { (s.dev.trc u.val) with due := [] } ∧ Tab.keeps {} [u.val] s.dev.traces d.traces ∧
      s.dev.keepsRegs d [LOOP.TRC_STATUS u.val, LOOP.TRC_CMD u.val] ∧ { s.dev with traces := d.traces }.keepsUnits d ∧
      s.dev.oneRecord d (wordRecord s.dev.nowNs .live 0 a.id (LOOP.TRC_CMD u.val) v 0)) ∧
  (∀ (u : Fin 4) (t : Time) (rest : List Time) (x y z : Nat), (s.dev.trc u.val).due = t :: rest →
      s.dev.nodeValue (s.dev.trcNode u.val 0) t = some x → s.dev.nodeValue (s.dev.trcNode u.val 1) t = some y →
      s.dev.nodeValue (s.dev.trcNode u.val 2) t = some z → s.dev.trcState u.val = 1 → (s.dev.trc u.val).force = false →
      s.dev.fld (LOOP.TRC_CFG_TRIG_SRC u.val) = 0 → Does (.traceRecord u) s fun d =>
      d.bytes (0x30100000 + 0x10000 * u.val + 16 * (s.dev.fld (LOOP.TRC_STATUS_WPTR u.val))) 16 = toBytes 4 (nsOf t) ++ toBytes 4 x ++ toBytes 4 y ++ toBytes 4 z ∧
      d.fld (LOOP.TRC_STATUS_WPTR u.val) = ((s.dev.fld (LOOP.TRC_STATUS_WPTR u.val)) + 1) % 4096 ∧ (d.trc u.val).due = rest ∧
      d.trcState u.val = 1 ∧
      (s.dev.lgDram = true ∨ s.dev.bytesKept d (0x30100000 + 0x10000 * u.val + 16 * (s.dev.fld (LOOP.TRC_STATUS_WPTR u.val))) ((0x30100000 + 0x10000 * u.val + 16 * (s.dev.fld (LOOP.TRC_STATUS_WPTR u.val))) + 16)) ∧
      s.dev.keepsRegs d (LOOP.TRC_STATUS u.val :: eccWords) ∧
      { s.dev with traces := d.traces, mem := d.mem, ecc := d.ecc }.keepsUnits d ∧ s.dev.noRecord d) ∧
  (∀ (u : Fin 4) (t : Time) (rest : List Time) (x y z : Nat), (s.dev.trc u.val).due = t :: rest →
      s.dev.nodeValue (s.dev.trcNode u.val 0) t = some x → s.dev.nodeValue (s.dev.trcNode u.val 1) t = some y →
      s.dev.nodeValue (s.dev.trcNode u.val 2) t = some z → s.dev.trcState u.val = 1 → (s.dev.trc u.val).force = true →
      Does (.traceRecord u) s fun d =>
      d.bytes (0x30100000 + 0x10000 * u.val + 16 * (s.dev.fld (LOOP.TRC_STATUS_WPTR u.val))) 16 = toBytes 4 (nsOf t) ++ toBytes 4 x ++ toBytes 4 y ++ toBytes 4 z ∧
      d.fld (LOOP.TRC_STATUS_TRIG_IDX u.val) = (s.dev.fld (LOOP.TRC_STATUS_WPTR u.val)) ∧
      d.reg64 (LOOP.TRC_TRIG_TIME u.val) = t ∧ d.trcState u.val = (if s.dev.fld (LOOP.TRC_CFG_POST u.val) = 0 then 3 else 2)) ∧
  (∀ (u : Fin 4) (t : Time) (rest : List Time) (x y z : Nat), (s.dev.trc u.val).due = t :: rest →
      s.dev.nodeValue (s.dev.trcNode u.val 0) t = some x → s.dev.nodeValue (s.dev.trcNode u.val 1) t = some y →
      s.dev.nodeValue (s.dev.trcNode u.val 2) t = some z → s.dev.trcState u.val = 4 → (s.dev.trc u.val).buf.length < 4096 →
      Does (.traceRecord u) s fun d =>
      d.trc u.val = { (s.dev.trc u.val) with due := rest, buf := (s.dev.trc u.val).buf ++ [toBytes 4 (nsOf t) ++ toBytes 4 x ++ toBytes 4 y ++ toBytes 4 z] } ∧
      s.dev.keepsRegs d eccWords ∧ { s.dev with traces := d.traces, mem := d.mem, ecc := d.ecc }.keepsUnits d ∧ s.dev.noRecord d) ∧
  (∀ (u : Fin 4) (r : List Byte) (rest : List (List Byte)), (s.dev.trc u.val).buf = r :: rest →
      s.dev.memMapped ((s.dev.reg64 (LOOP.TRC_DRAM u.val)).toNat % 2 ^ 40 + 16 * (s.dev.num (LOOP.TRC_STREAM_SEQ u.val) % 2 ^ s.dev.fld (LOOP.TRC_DRAM_SIZE u.val))) 16 = true →
      r.length = 16 → s.dev.lgDram = false → Does (.traceStreamWrite u) s fun d =>
      d.bytes ((s.dev.reg64 (LOOP.TRC_DRAM u.val)).toNat % 2 ^ 40 + 16 * (s.dev.num (LOOP.TRC_STREAM_SEQ u.val) % 2 ^ s.dev.fld (LOOP.TRC_DRAM_SIZE u.val))) 16 = r ∧
      d.reg (LOOP.TRC_STREAM_SEQ u.val) = s.dev.reg (LOOP.TRC_STREAM_SEQ u.val) + 1 ∧
      d.trc u.val = { (s.dev.trc u.val) with buf := rest } ∧ Tab.keeps {} [u.val] s.dev.traces d.traces ∧
      s.dev.bytesKept d ((s.dev.reg64 (LOOP.TRC_DRAM u.val)).toNat % 2 ^ 40 + 16 * (s.dev.num (LOOP.TRC_STREAM_SEQ u.val) % 2 ^ s.dev.fld (LOOP.TRC_DRAM_SIZE u.val))) (((s.dev.reg64 (LOOP.TRC_DRAM u.val)).toNat % 2 ^ 40 + 16 * (s.dev.num (LOOP.TRC_STREAM_SEQ u.val) % 2 ^ s.dev.fld (LOOP.TRC_DRAM_SIZE u.val))) + 16))

/-- For every state and timer: at its boundary a running timer under SYNC OWN starts the next period with the configured length, or with the adjustment accepted 20 ns or more before, shows boundary and period number, places the next frames of outputs that are not moved, counts ZERO and sends its triggers; a start whose time has come makes the timer RUNNING with B(0) there; PERIOD occurs in the middle and raises its event at each multiple of its prescaler; TIM_ADJ waits as ADJ_PENDING; SYNC_PIN_EDGE sets the grid origin to the edge plus SYNC_OFS and gives a waiting start its grid point; PWM_BANK_READY makes a powered bank ready. Where a clause rests on a reading or a choice of the model, it is the model's and not the spec's: log entries 71, 72, 73, 80, 136 and 157. -/
def Obligations.TimerPeriods : Prop :=
  ∀ s : State,
  (∀ (t : Fin 48), (s.dev.tim t.val).startAt = none → s.dev.timRun t.val = 1 →
      s.dev.due (s.dev.reg64 (PWM.TIM_BOUNDARY t.val) + tks (s.dev.tim t.val).p) = true →
      s.dev.fld (PWM.TIM_CFG_SYNC t.val) = 0 → (s.dev.tim t.val).adj = none → Does (.timerBoundary t) s fun d =>
      d.reg64 (PWM.TIM_BOUNDARY t.val) = (s.dev.reg64 (PWM.TIM_BOUNDARY t.val) + tks (s.dev.tim t.val).p) ∧
      (d.tim t.val).k = (s.dev.tim t.val).k + 1 ∧ (d.tim t.val).p = (s.dev.timP t.val) ∧
      (d.tim t.val).periodT = some ((s.dev.reg64 (PWM.TIM_BOUNDARY t.val) + tks (s.dev.tim t.val).p) + tks ((s.dev.timP t.val) / 2)) ∧
      (d.tim t.val).cntZero = (s.dev.tim t.val).cntZero + 1 ∧
      d.fld (PWM.TIM_STATUS_PERIOD t.val) = ((s.dev.tim t.val).k + 1) % 0x10000 ∧
      (∀ i : Fin 2, (s.dev.out (2 * t.val + i.val)).deferred = true ∨ (s.dev.out (2 * t.val + i.val)).formed = true ∨ (s.dev.out (2 * t.val + i.val)).moved = true ∨ (d.out (2 * t.val + i.val)).nextF = (s.dev.reg64 (PWM.TIM_BOUNDARY t.val) + tks (s.dev.tim t.val).p) + tks (s.dev.outPos (2 * t.val + i.val))) ∧
      Tab.keeps {} [t.val] s.dev.tims d.tims ∧ Tab.keeps {} [2 * t.val, 2 * t.val + 1] s.dev.outs d.outs ∧
      { s.dev with tims := d.tims, outs := d.outs, adcTrig := d.adcTrig }.keepsUnits d ∧
      s.dev.keepsRegs d [PWM.TIM_BOUNDARY t.val, PWM.TIM_BOUNDARY t.val + 4, PWM.TIM_STATUS t.val] ∧ s.dev.noRecord d ∧
      (∀ l, s.dev.actsAs t.val = some l → bitsOf (s.dev.num (PWM.TIM_EVT t.val)) 7 0 = 1 → s.dev.raised d [448 + 4 * l])) ∧
  (∀ (t : Fin 48) (j : Int) (x : Time), (s.dev.tim t.val).startAt = none → s.dev.timRun t.val = 1 →
      s.dev.due (s.dev.reg64 (PWM.TIM_BOUNDARY t.val) + tks (s.dev.tim t.val).p) = true →
      s.dev.fld (PWM.TIM_CFG_SYNC t.val) = 0 → (s.dev.tim t.val).adj = some (j, x) →
      dist (x + nsT 20) (s.dev.reg64 (PWM.TIM_BOUNDARY t.val) + tks (s.dev.tim t.val).p) ≥ 0 → Does (.timerBoundary t) s fun d =>
      d.reg64 (PWM.TIM_BOUNDARY t.val) = (s.dev.reg64 (PWM.TIM_BOUNDARY t.val) + tks (s.dev.tim t.val).p) ∧
      (d.tim t.val).k = (s.dev.tim t.val).k + 1 ∧ (d.tim t.val).p = ((s.dev.timP t.val : Int) + j).toNat ∧
      (d.tim t.val).periodT = some ((s.dev.reg64 (PWM.TIM_BOUNDARY t.val) + tks (s.dev.tim t.val).p) + tks (((s.dev.timP t.val : Int) + j).toNat / 2)) ∧
      (d.tim t.val).cntZero = (s.dev.tim t.val).cntZero + 1 ∧
      d.fld (PWM.TIM_STATUS_PERIOD t.val) = ((s.dev.tim t.val).k + 1) % 0x10000 ∧
      (∀ i : Fin 2, (s.dev.out (2 * t.val + i.val)).deferred = true ∨ (s.dev.out (2 * t.val + i.val)).formed = true ∨ (s.dev.out (2 * t.val + i.val)).moved = true ∨ (d.out (2 * t.val + i.val)).nextF = (s.dev.reg64 (PWM.TIM_BOUNDARY t.val) + tks (s.dev.tim t.val).p) + tks (s.dev.outPos (2 * t.val + i.val))) ∧
      Tab.keeps {} [t.val] s.dev.tims d.tims ∧ Tab.keeps {} [2 * t.val, 2 * t.val + 1] s.dev.outs d.outs ∧
      { s.dev with tims := d.tims, outs := d.outs, adcTrig := d.adcTrig }.keepsUnits d ∧
      s.dev.keepsRegs d [PWM.TIM_BOUNDARY t.val, PWM.TIM_BOUNDARY t.val + 4, PWM.TIM_STATUS t.val] ∧ s.dev.noRecord d ∧
      (d.tim t.val).adj = none ∧ d.flag (PWM.TIM_STATUS_ADJ_PENDING t.val) = false) ∧
  (∀ (t : Fin 48) (b : Time), (s.dev.tim t.val).startAt = some b → s.dev.due b = true →
      s.dev.flag (PWM.BANK_STATUS_READY (t.val / 16)) = true → Does (.timerBoundary t) s fun d => d.timRun t.val = 1 ∧
      d.reg64 (PWM.TIM_BOUNDARY t.val) = b ∧ (d.tim t.val).k = 0 ∧ (d.tim t.val).startAt = none ∧ (d.tim t.val).cntZero = 1 ∧
      Tab.keeps {} [t.val] s.dev.tims d.tims ∧
      { s.dev with tims := d.tims, outs := d.outs, adcTrig := d.adcTrig, wits := d.wits }.keepsUnits d ∧ s.dev.noRecord d) ∧
  (∀ (t : Fin 48) (e : Time), (s.dev.tim t.val).periodT = some e → s.dev.timRun t.val = 1 → s.dev.due e = true →
      Does (.periodEvent t) s fun d => (d.tim t.val).periodT = none ∧ (d.tim t.val).cntPeriod = (s.dev.tim t.val).cntPeriod + 1 ∧
      (∀ l, s.dev.actsAs t.val = some l → bitsOf (s.dev.num (PWM.TIM_EVT t.val)) 15 8 ≠ 0 →
      (s.dev.tim t.val).cntPeriod % bitsOf (s.dev.num (PWM.TIM_EVT t.val)) 15 8 = 0 → s.dev.raised d [449 + 4 * l]) ∧
      Tab.keeps {} [t.val] s.dev.tims d.tims ∧ { s.dev with tims := d.tims, adcTrig := d.adcTrig }.keepsUnits d ∧
      s.dev.keepsRegs d [] ∧ s.dev.noRecord d) ∧
  (∀ (t : Fin 48) (e : Time), (s.dev.tim t.val).periodT = some e → s.dev.timRun t.val = 1 → s.dev.due e = true →
      bitsOf (s.dev.num (PWM.TIM_EVT t.val)) 15 8 = 0 → s.dev.led.fresh = [] → s.dev.flag LEDGER.LG_STATUS_OVERRUN = true →
      Does (.periodEvent t) s fun d => d.adcTrig = s.dev.adcTrig ∧ s.dev.events <+: d.events ∧
      (d.tim t.val).cntPeriod = (s.dev.tim t.val).cntPeriod + 1) ∧
  (∀ (a : Agent) (t : Fin 48) (v : Word), s.dev.takes a.id (PWM.TIM_ADJ t.val) v = true → Does (.timAdj a t v) s fun d =>
      d.answer = .ok ∧ d.tim t.val = { (s.dev.tim t.val) with adj := some (v.toInt, s.dev.now) } ∧
      d.flag (PWM.TIM_STATUS_ADJ_PENDING t.val) = true ∧ Tab.keeps {} [t.val] s.dev.tims d.tims ∧
      s.dev.keepsRegs d [PWM.TIM_ADJ t.val, PWM.TIM_STATUS t.val] ∧ { s.dev with tims := d.tims }.keepsUnits d ∧
      s.dev.oneRecord d (wordRecord s.dev.nowNs .live 0 a.id (PWM.TIM_ADJ t.val) v 0)) ∧
  (∀ (t : Fin 48), s.dev.fld (PWM.TIM_CFG_SYNC t.val) = 2 → (s.dev.tim t.val).wantStart = none → Does (.syncPinEdge t) s fun d =>
      d.tim t.val = { (s.dev.tim t.val) with grid := some (s.dev.now + tks (s.dev.num (PWM.TIM_SYNC_OFS t.val))) } ∧
      Tab.keeps {} [t.val] s.dev.tims d.tims ∧ { s.dev with tims := d.tims }.keepsUnits d ∧ s.dev.keepsRegs d [] ∧
      s.dev.noRecord d) ∧
  (∀ (t : Fin 48) (w : Time), s.dev.fld (PWM.TIM_CFG_SYNC t.val) = 2 → (s.dev.tim t.val).wantStart = some w →
      Does (.syncPinEdge t) s fun d =>
      d.tim t.val = { (s.dev.tim t.val) with grid := some (s.dev.now + tks (s.dev.num (PWM.TIM_SYNC_OFS t.val))), wantStart := none, startAt := some (gridFrom (s.dev.now + tks (s.dev.num (PWM.TIM_SYNC_OFS t.val))) (s.dev.timP t.val) w) } ∧
      Tab.keeps {} [t.val] s.dev.tims d.tims ∧ { s.dev with tims := d.tims }.keepsUnits d ∧ s.dev.keepsRegs d [] ∧
      s.dev.noRecord d) ∧
  (∀ (b : Fin 3), s.dev.powered (30 + b.val) 10000 = true → Does (.pwmBankReady b) s fun d =>
      d.flag (PWM.BANK_STATUS_READY b.val) = true ∧ d.domReady (30 + b.val) = true ∧
      (∀ i : Fin 16, s.dev.timRun (16 * b.val + i.val) ≠ 2 → d.tim (16 * b.val + i.val) = s.dev.tim (16 * b.val + i.val)) ∧
      { s.dev with tims := d.tims, outs := d.outs, adcTrig := d.adcTrig, wits := d.wits }.keepsUnits d ∧ s.dev.noRecord d)

/-- For every state and output of a running timer that is not tripped, forced or parked: FRAME_START of an unformed frame takes the on-time of the register (SRC REG) and forms the window of R182 from the frame start; of a formed frame it starts the frame and shows its on-time; DRIVE_EDGE at the on edge of a window without dead time drives MAIN at once, and with one goes through NONE until DEAD_TIME_END; at the off edge it drives COMP or goes through NONE; the pin takes the level R186 gives the drive. UPDATE_ARRIVAL of a value whose timer is stopped discards it; under policy NEXT it keeps it for the next frame and shows where it landed. Where a clause rests on a reading or a choice of the model, it is the model's and not the spec's: log entries 71, 80 and 156. -/
def Obligations.OutputEdges : Prop :=
  ∀ s : State,
  (∀ (o : Fin 96) (w : Win) (rest : List Win), s.dev.timRun (o.val / 2) = 1 → s.dev.fld (PWM.TIM_CFG_PAIRING (o.val / 2)) = 0 →
      (s.dev.out o.val).tripped = false → (s.dev.out o.val).force = none → (s.dev.out o.val).parked = false →
      (s.dev.out o.val).special = false → (s.dev.out o.val).outDt = none →
      s.dev.pinSafe ((s.dev.phaseOf o.val).getD o.val) = false → (s.dev.out o.val).wins = w :: rest → w.begun = false →
      w.conduct = true → w.sMain = false → w.dOn = 0 → s.dev.due w.on = true → (s.dev.out o.val).nd ≠ .main →
      Does (.driveEdge o) s fun d => (d.out o.val).nd = .main ∧ (d.out o.val).out = .main ∧
      (d.out o.val).level = s.dev.levelOf o.val .main ∧ (d.out o.val).ndDt = none ∧
      (d.out o.val).wins = { w with begun := true } :: rest ∧ (d.out o.val).lastOn = w.on ∧
      Tab.keeps {} [o.val] s.dev.outs d.outs ∧
      { s.dev with outs := d.outs, tims := d.tims, adcTrig := d.adcTrig, wits := d.wits }.keepsUnits d ∧ s.dev.noRecord d) ∧
  (∀ (o : Fin 96) (w : Win) (rest : List Win), s.dev.timRun (o.val / 2) = 1 → s.dev.fld (PWM.TIM_CFG_PAIRING (o.val / 2)) = 0 →
      (s.dev.out o.val).tripped = false → (s.dev.out o.val).force = none → (s.dev.out o.val).parked = false →
      (s.dev.out o.val).special = false → (s.dev.out o.val).outDt = none →
      s.dev.pinSafe ((s.dev.phaseOf o.val).getD o.val) = false → (s.dev.out o.val).wins = w :: rest → w.begun = false →
      w.conduct = true → w.sMain = false → w.dOn ≠ 0 → s.dev.due w.on = true → (s.dev.out o.val).nd ≠ .main →
      Does (.driveEdge o) s fun d => (d.out o.val).nd = .off ∧ (d.out o.val).out = .off ∧
      (d.out o.val).ndDt = some (w.on + tks w.dOn, .main) ∧ (d.out o.val).level = s.dev.levelOf o.val .off ∧
      Tab.keeps {} [o.val] s.dev.outs d.outs ∧
      { s.dev with outs := d.outs, tims := d.tims, adcTrig := d.adcTrig, wits := d.wits }.keepsUnits d ∧ s.dev.noRecord d) ∧
  (∀ (o : Fin 96) (w : Win) (rest : List Win), s.dev.timRun (o.val / 2) = 1 → s.dev.fld (PWM.TIM_CFG_PAIRING (o.val / 2)) = 0 →
      (s.dev.out o.val).tripped = false → (s.dev.out o.val).force = none → (s.dev.out o.val).parked = false →
      (s.dev.out o.val).special = false → (s.dev.out o.val).outDt = none →
      s.dev.pinSafe ((s.dev.phaseOf o.val).getD o.val) = false → (s.dev.out o.val).wins = w :: rest → w.begun = true →
      w.noOff = false → w.sComp = false → w.dOff = 0 → s.dev.due w.eOff = true → Does (.driveEdge o) s fun d =>
      (d.out o.val).nd = .comp ∧ (d.out o.val).out = .comp ∧ (d.out o.val).level = s.dev.levelOf o.val .comp ∧
      (d.out o.val).ndDt = none ∧ (d.out o.val).wins = rest ∧ Tab.keeps {} [o.val] s.dev.outs d.outs ∧
      { s.dev with outs := d.outs, tims := d.tims, adcTrig := d.adcTrig, wits := d.wits }.keepsUnits d ∧ s.dev.keepsRegs d [] ∧
      s.dev.noRecord d) ∧
  (∀ (o : Fin 96) (w : Win) (rest : List Win), s.dev.timRun (o.val / 2) = 1 → (s.dev.out o.val).wins = w :: rest →
      w.begun = false → w.conduct = false → s.dev.due w.on = true → Does (.driveEdge o) s fun d => (d.out o.val).wins = rest ∧
      (d.out o.val).nd = (s.dev.out o.val).nd ∧ (d.out o.val).level = (s.dev.out o.val).level ∧
      d.fld ⟨Dev.countsReg o.val, 15, 0⟩ = satInc 0xFFFF (s.dev.fld ⟨Dev.countsReg o.val, 15, 0⟩) ∧
      Tab.keeps {} [o.val] s.dev.outs d.outs ∧ { s.dev with outs := d.outs }.keepsUnits d ∧
      s.dev.keepsRegs d [Dev.countsReg o.val] ∧ s.dev.noRecord d) ∧
  (∀ (o : Fin 96) (e : Time) (x : Drive), s.dev.timRun (o.val / 2) = 1 → s.dev.fld (PWM.TIM_CFG_PAIRING (o.val / 2)) = 0 →
      (s.dev.out o.val).tripped = false → (s.dev.out o.val).force = none → (s.dev.out o.val).parked = false →
      (s.dev.out o.val).special = false → (s.dev.out o.val).outDt = none →
      s.dev.pinSafe ((s.dev.phaseOf o.val).getD o.val) = false → (s.dev.out o.val).ndDt = some (e, x) → s.dev.due e = true →
      (s.dev.out o.val).wins.all (fun w => !w.begun || decide ((w.m : Int) ≤ dist e w.eOff)) = true →
      Does (.deadTimeEnd o) s fun d => (d.out o.val).nd = x ∧ (d.out o.val).out = x ∧ (d.out o.val).ndDt = none ∧
      (d.out o.val).level = s.dev.levelOf o.val x ∧ Tab.keeps {} [o.val] s.dev.outs d.outs ∧
      { s.dev with outs := d.outs, tims := d.tims, adcTrig := d.adcTrig, wits := d.wits }.keepsUnits d ∧ s.dev.keepsRegs d [] ∧
      s.dev.noRecord d) ∧
  (∀ (o : Fin 96), s.dev.timRun (o.val / 2) = 1 → s.dev.outUsed o.val = true → s.dev.due (s.dev.out o.val).nextF = true →
      s.dev.outSrc o.val ≠ 2 → (s.dev.out o.val).formed = true → Does (.frameStart o) s fun d =>
      (d.out o.val).nextF = (s.dev.reg64 (PWM.TIM_BOUNDARY (o.val / 2)) + tks (s.dev.tim (o.val / 2)).p + tks (s.dev.outPos o.val)) ∧
      (d.out o.val).formed = false ∧ (d.out o.val).frF = (s.dev.out o.val).frF ∧
      d.num (outNow o.val) = (s.dev.out o.val).cur % 2 ^ 32) ∧
  (∀ (o : Fin 96), s.dev.timRun (o.val / 2) = 1 → s.dev.outUsed o.val = true → s.dev.due (s.dev.out o.val).nextF = true →
      s.dev.outSrc o.val ≠ 2 → (s.dev.out o.val).formed = false → s.dev.outSrc o.val = 0 → s.dev.phRole o.val = 0 →
      s.dev.detState (o.val / 2) = 0 → s.dev.flag (PWM.TIM_CFG_ALIGN (o.val / 2)) = false → s.dev.outCmp o.val ≠ 0 →
      s.dev.outCmp o.val ≠ fullC → (s.dev.unitTicks (o.val / 2) (s.dev.outCmp o.val)) < (s.dev.tim (o.val / 2)).p →
      dist (s.dev.out o.val).nextF (s.dev.reg64 (PWM.TIM_BOUNDARY (o.val / 2)) + tks (s.dev.tim (o.val / 2)).p) > 0 →
      Does (.frameStart o) s fun d =>
      (d.out o.val).nextF = (s.dev.reg64 (PWM.TIM_BOUNDARY (o.val / 2)) + tks (s.dev.tim (o.val / 2)).p + tks (s.dev.outPos o.val)) ∧
      (d.out o.val).frF = (s.dev.out o.val).nextF ∧ (d.out o.val).frL = (s.dev.tim (o.val / 2)).p ∧
      (d.out o.val).cur = s.dev.outCmp o.val ∧ d.num (outNow o.val) = s.dev.outCmp o.val ∧
      ((d.out o.val).wins.getLast?.map Win.on) = some (s.dev.out o.val).nextF ∧
      ((d.out o.val).wins.getLast?.map Win.off) = some ((s.dev.out o.val).nextF + tks (s.dev.unitTicks (o.val / 2) (s.dev.outCmp o.val))) ∧
      ((d.out o.val).wins.getLast?.map Win.dOn) = some (s.dev.dtOn (o.val / 2))) ∧
  (∀ (o : Fin 96) (u : PendUpd), s.dev.updQ.find? (fun x => decide (x.out = o.val)) = some u →
      (s.dev.timRun (o.val / 2) ≠ 1 ∨ s.dev.outUsed o.val = false) → Does (.updateArrival o) s fun d =>
      d.updQ = s.dev.updQ.erase u ∧ { s.dev with updQ := d.updQ }.keepsUnits d ∧ s.dev.keepsRegs d [] ∧ s.dev.noRecord d) ∧
  (∀ (o : Fin 96) (u : PendUpd), s.dev.timRun (o.val / 2) = 1 → s.dev.updQ.find? (fun x => decide (x.out = o.val)) = some u →
      s.dev.outUsed o.val = true → s.dev.outSrc o.val = (if u.rail then 2 else 1) → s.dev.outPolicy o.val = 0 →
      dist (s.dev.out o.val).nextF (floorNs s.dev.now + setupS) ≤ 0 → Does (.updateArrival o) s fun d =>
      d.updQ = s.dev.updQ.erase u ∧ (d.out o.val).val = some u.val ∧ (d.out o.val).cur = (s.dev.out o.val).cur ∧
      d.num (landedReg o.val) = ((s.dev.out o.val).frK + 1) % 0x10000 * 0x10000 + 2 ∧ Tab.keeps {} [o.val] s.dev.outs d.outs ∧
      { s.dev with outs := d.outs, updQ := d.updQ }.keepsUnits d ∧ s.dev.keepsRegs d [landedReg o.val] ∧ s.dev.noRecord d)

/-- For every state and timer: an accepted TIM_FORCE write of any drive queues its force for FORCE_AT, late where that is closer than 20 ns, or for the boundary; FORCE_APPLY applies the first force due to output A, and to B unless the outputs are COMPL, showing FORCED; TRIP_CLR clears LATCHED; CLEAR zeroes the counts; LINE_TRUE_START trues the next idle line for 50 us, and LINE_TRUE_DONE ends it, queues the swap of a line within its limits and fails any other with its flag and source 0x0C; LINE_SWAP exchanges the roles of two lines. Where a clause rests on a reading or a choice of the model, it is the model's and not the spec's: log entries 56, 71, 72, 156, 158 and 159. -/
def Obligations.TimerForcesAndTrips : Prop :=
  ∀ s : State,
  (∀ (a : Agent) (t : Fin 48) (v : Word), s.dev.takes a.id (PWM.TIM_FORCE t.val) v = true → bitsOf v.toNat 2 0 = 1 →
      wordBit v 16 = true → Does (.timForceRelease a t v) s fun d => d.answer = .ok ∧
      d.tim t.val = { (s.dev.tim t.val) with forces := (s.dev.tim t.val).forces ++ [{ fa := bitsOf v.toNat 2 0, fb := bitsOf v.toNat 10 8, time := (s.dev.reg64 (PWM.TIM_FORCE_AT t.val)), boundary := false, late := before ((s.dev.reg64 (PWM.TIM_FORCE_AT t.val)) - nsT 20) s.dev.now, eff := (if before ((s.dev.reg64 (PWM.TIM_FORCE_AT t.val)) - nsT 20) s.dev.now then (s.dev.tim t.val).forces.foldl (fun e f => if f.late then laterT e f.eff else e) (laterT (s.dev.reg64 (PWM.TIM_FORCE_AT t.val)) s.dev.now) else (s.dev.reg64 (PWM.TIM_FORCE_AT t.val))) }] } ∧
      Tab.keeps {} [t.val] s.dev.tims d.tims ∧ s.dev.keepsRegs d [PWM.TIM_FORCE t.val] ∧
      { s.dev with tims := d.tims }.keepsUnits d ∧
      s.dev.oneRecord d (wordRecord s.dev.nowNs .live 0 a.id (PWM.TIM_FORCE t.val) v 0)) ∧
  (∀ (a : Agent) (t : Fin 48) (v : Word), s.dev.takes a.id (PWM.TIM_FORCE t.val) v = true → bitsOf v.toNat 10 8 = 1 →
      wordBit v 16 = false → Does (.timForceRelease a t v) s fun d => d.answer = .ok ∧
      d.tim t.val = { (s.dev.tim t.val) with forces := (s.dev.tim t.val).forces ++ [{ fa := bitsOf v.toNat 2 0, fb := bitsOf v.toNat 10 8, time := s.dev.now, boundary := true, late := false, eff := s.dev.now }] } ∧
      Tab.keeps {} [t.val] s.dev.tims d.tims ∧ s.dev.keepsRegs d [PWM.TIM_FORCE t.val] ∧
      { s.dev with tims := d.tims }.keepsUnits d ∧
      s.dev.oneRecord d (wordRecord s.dev.nowNs .live 0 a.id (PWM.TIM_FORCE t.val) v 0)) ∧
  (∀ (a : Agent) (t : Fin 48) (v : Word), s.dev.takes a.id (PWM.TIM_FORCE t.val) v = true → bitsOf v.toNat 2 0 = 2 →
      wordBit v 16 = true → Does (.timForceMain a t v) s fun d => d.answer = .ok ∧
      d.tim t.val = { (s.dev.tim t.val) with forces := (s.dev.tim t.val).forces ++ [{ fa := bitsOf v.toNat 2 0, fb := bitsOf v.toNat 10 8, time := (s.dev.reg64 (PWM.TIM_FORCE_AT t.val)), boundary := false, late := before ((s.dev.reg64 (PWM.TIM_FORCE_AT t.val)) - nsT 20) s.dev.now, eff := (if before ((s.dev.reg64 (PWM.TIM_FORCE_AT t.val)) - nsT 20) s.dev.now then (s.dev.tim t.val).forces.foldl (fun e f => if f.late then laterT e f.eff else e) (laterT (s.dev.reg64 (PWM.TIM_FORCE_AT t.val)) s.dev.now) else (s.dev.reg64 (PWM.TIM_FORCE_AT t.val))) }] } ∧
      Tab.keeps {} [t.val] s.dev.tims d.tims ∧ s.dev.keepsRegs d [PWM.TIM_FORCE t.val] ∧
      { s.dev with tims := d.tims }.keepsUnits d ∧
      s.dev.oneRecord d (wordRecord s.dev.nowNs .live 0 a.id (PWM.TIM_FORCE t.val) v 0)) ∧
  (∀ (a : Agent) (t : Fin 48) (v : Word), s.dev.takes a.id (PWM.TIM_FORCE t.val) v = true → bitsOf v.toNat 10 8 = 2 →
      wordBit v 16 = false → Does (.timForceMain a t v) s fun d => d.answer = .ok ∧
      d.tim t.val = { (s.dev.tim t.val) with forces := (s.dev.tim t.val).forces ++ [{ fa := bitsOf v.toNat 2 0, fb := bitsOf v.toNat 10 8, time := s.dev.now, boundary := true, late := false, eff := s.dev.now }] } ∧
      Tab.keeps {} [t.val] s.dev.tims d.tims ∧ s.dev.keepsRegs d [PWM.TIM_FORCE t.val] ∧
      { s.dev with tims := d.tims }.keepsUnits d ∧
      s.dev.oneRecord d (wordRecord s.dev.nowNs .live 0 a.id (PWM.TIM_FORCE t.val) v 0)) ∧
  (∀ (a : Agent) (t : Fin 48) (v : Word), s.dev.takes a.id (PWM.TIM_FORCE t.val) v = true → bitsOf v.toNat 2 0 = 3 →
      wordBit v 16 = true → Does (.timForceComp a t v) s fun d => d.answer = .ok ∧
      d.tim t.val = { (s.dev.tim t.val) with forces := (s.dev.tim t.val).forces ++ [{ fa := bitsOf v.toNat 2 0, fb := bitsOf v.toNat 10 8, time := (s.dev.reg64 (PWM.TIM_FORCE_AT t.val)), boundary := false, late := before ((s.dev.reg64 (PWM.TIM_FORCE_AT t.val)) - nsT 20) s.dev.now, eff := (if before ((s.dev.reg64 (PWM.TIM_FORCE_AT t.val)) - nsT 20) s.dev.now then (s.dev.tim t.val).forces.foldl (fun e f => if f.late then laterT e f.eff else e) (laterT (s.dev.reg64 (PWM.TIM_FORCE_AT t.val)) s.dev.now) else (s.dev.reg64 (PWM.TIM_FORCE_AT t.val))) }] } ∧
      Tab.keeps {} [t.val] s.dev.tims d.tims ∧ s.dev.keepsRegs d [PWM.TIM_FORCE t.val] ∧
      { s.dev with tims := d.tims }.keepsUnits d ∧
      s.dev.oneRecord d (wordRecord s.dev.nowNs .live 0 a.id (PWM.TIM_FORCE t.val) v 0)) ∧
  (∀ (a : Agent) (t : Fin 48) (v : Word), s.dev.takes a.id (PWM.TIM_FORCE t.val) v = true → bitsOf v.toNat 10 8 = 3 →
      wordBit v 16 = false → Does (.timForceComp a t v) s fun d => d.answer = .ok ∧
      d.tim t.val = { (s.dev.tim t.val) with forces := (s.dev.tim t.val).forces ++ [{ fa := bitsOf v.toNat 2 0, fb := bitsOf v.toNat 10 8, time := s.dev.now, boundary := true, late := false, eff := s.dev.now }] } ∧
      Tab.keeps {} [t.val] s.dev.tims d.tims ∧ s.dev.keepsRegs d [PWM.TIM_FORCE t.val] ∧
      { s.dev with tims := d.tims }.keepsUnits d ∧
      s.dev.oneRecord d (wordRecord s.dev.nowNs .live 0 a.id (PWM.TIM_FORCE t.val) v 0)) ∧
  (∀ (a : Agent) (t : Fin 48) (v : Word), s.dev.takes a.id (PWM.TIM_FORCE t.val) v = true → bitsOf v.toNat 2 0 = 4 →
      wordBit v 16 = true → Does (.timForceOff a t v) s fun d => d.answer = .ok ∧
      d.tim t.val = { (s.dev.tim t.val) with forces := (s.dev.tim t.val).forces ++ [{ fa := bitsOf v.toNat 2 0, fb := bitsOf v.toNat 10 8, time := (s.dev.reg64 (PWM.TIM_FORCE_AT t.val)), boundary := false, late := before ((s.dev.reg64 (PWM.TIM_FORCE_AT t.val)) - nsT 20) s.dev.now, eff := (if before ((s.dev.reg64 (PWM.TIM_FORCE_AT t.val)) - nsT 20) s.dev.now then (s.dev.tim t.val).forces.foldl (fun e f => if f.late then laterT e f.eff else e) (laterT (s.dev.reg64 (PWM.TIM_FORCE_AT t.val)) s.dev.now) else (s.dev.reg64 (PWM.TIM_FORCE_AT t.val))) }] } ∧
      Tab.keeps {} [t.val] s.dev.tims d.tims ∧ s.dev.keepsRegs d [PWM.TIM_FORCE t.val] ∧
      { s.dev with tims := d.tims }.keepsUnits d ∧
      s.dev.oneRecord d (wordRecord s.dev.nowNs .live 0 a.id (PWM.TIM_FORCE t.val) v 0)) ∧
  (∀ (a : Agent) (t : Fin 48) (v : Word), s.dev.takes a.id (PWM.TIM_FORCE t.val) v = true → bitsOf v.toNat 10 8 = 4 →
      wordBit v 16 = false → Does (.timForceOff a t v) s fun d => d.answer = .ok ∧
      d.tim t.val = { (s.dev.tim t.val) with forces := (s.dev.tim t.val).forces ++ [{ fa := bitsOf v.toNat 2 0, fb := bitsOf v.toNat 10 8, time := s.dev.now, boundary := true, late := false, eff := s.dev.now }] } ∧
      Tab.keeps {} [t.val] s.dev.tims d.tims ∧ s.dev.keepsRegs d [PWM.TIM_FORCE t.val] ∧
      { s.dev with tims := d.tims }.keepsUnits d ∧
      s.dev.oneRecord d (wordRecord s.dev.nowNs .live 0 a.id (PWM.TIM_FORCE t.val) v 0)) ∧
  (∀ (a : Agent) (t : Fin 48) (v : Word), s.dev.takes a.id (PWM.TIM_FORCE t.val) v = true → bitsOf v.toNat 2 0 = 5 →
      wordBit v 16 = true → Does (.timForceHiz a t v) s fun d => d.answer = .ok ∧
      d.tim t.val = { (s.dev.tim t.val) with forces := (s.dev.tim t.val).forces ++ [{ fa := bitsOf v.toNat 2 0, fb := bitsOf v.toNat 10 8, time := (s.dev.reg64 (PWM.TIM_FORCE_AT t.val)), boundary := false, late := before ((s.dev.reg64 (PWM.TIM_FORCE_AT t.val)) - nsT 20) s.dev.now, eff := (if before ((s.dev.reg64 (PWM.TIM_FORCE_AT t.val)) - nsT 20) s.dev.now then (s.dev.tim t.val).forces.foldl (fun e f => if f.late then laterT e f.eff else e) (laterT (s.dev.reg64 (PWM.TIM_FORCE_AT t.val)) s.dev.now) else (s.dev.reg64 (PWM.TIM_FORCE_AT t.val))) }] } ∧
      Tab.keeps {} [t.val] s.dev.tims d.tims ∧ s.dev.keepsRegs d [PWM.TIM_FORCE t.val] ∧
      { s.dev with tims := d.tims }.keepsUnits d ∧
      s.dev.oneRecord d (wordRecord s.dev.nowNs .live 0 a.id (PWM.TIM_FORCE t.val) v 0)) ∧
  (∀ (a : Agent) (t : Fin 48) (v : Word), s.dev.takes a.id (PWM.TIM_FORCE t.val) v = true → bitsOf v.toNat 10 8 = 5 →
      wordBit v 16 = false → Does (.timForceHiz a t v) s fun d => d.answer = .ok ∧
      d.tim t.val = { (s.dev.tim t.val) with forces := (s.dev.tim t.val).forces ++ [{ fa := bitsOf v.toNat 2 0, fb := bitsOf v.toNat 10 8, time := s.dev.now, boundary := true, late := false, eff := s.dev.now }] } ∧
      Tab.keeps {} [t.val] s.dev.tims d.tims ∧ s.dev.keepsRegs d [PWM.TIM_FORCE t.val] ∧
      { s.dev with tims := d.tims }.keepsUnits d ∧
      s.dev.oneRecord d (wordRecord s.dev.nowNs .live 0 a.id (PWM.TIM_FORCE t.val) v 0)) ∧
  (∀ (t : Fin 48) (f : PendForce) (x : Option Drive), firstForce ((s.dev.tim t.val).forces.filter fun f => s.dev.due f.eff && !f.boundary) = some f →
      forceDrive f.fa = some x → Does (.forceApply t) s fun d => (d.tim t.val).forces = (s.dev.tim t.val).forces.erase f ∧
      (d.out (2 * t.val)).force = x ∧ d.flag (PWM.TIM_STATUS_FORCED_A t.val) = x.isSome ∧
      (s.dev.fld (PWM.TIM_CFG_PAIRING t.val) = 1 ∨ ∀ y, forceDrive f.fb = some y → (d.out (2 * t.val + 1)).force = y) ∧
      Tab.keeps {} [2 * t.val, 2 * t.val + 1] s.dev.outs d.outs ∧
      { s.dev with tims := d.tims, outs := d.outs, wits := d.wits }.keepsUnits d ∧ s.dev.noRecord d) ∧
  (∀ (t : Fin 48) (f : PendForce), firstForce ((s.dev.tim t.val).forces.filter fun f => s.dev.due f.eff && !f.boundary) = some f →
      f.late = true → Does (.forceApply t) s fun d => d.flag (PWM.TIM_STATUS_LATE t.val) = true ∧
      d.reg64 MILEPOST.LATE_LAST = f.time ∧ d.num MILEPOST.LATE_COUNT = satInc 0xFFFFFFFF (s.dev.num MILEPOST.LATE_COUNT)) ∧
  (∀ (a : Agent) (t : Fin 48) (v : Word), s.dev.takes a.id (PWM.TIM_CLR t.val) v = true → wordBit v 2 = true →
      wordBit v 1 = false → Does (.timTripClr a t v) s fun d => d.answer = .ok ∧ d.flag (PWM.TIM_STATUS_LATCHED t.val) = false ∧
      s.dev.keepsRegs d [PWM.TIM_STATUS t.val, PWM.TIM_CLR t.val] ∧ s.dev.keepsUnits d ∧
      s.dev.oneRecord d (wordRecord s.dev.nowNs .live 0 a.id (PWM.TIM_CLR t.val) v 0)) ∧
  (∀ (a : Agent) (t : Fin 48) (v : Word), s.dev.takes a.id (PWM.TIM_CLR t.val) v = true → wordBit v 1 = true →
      wordBit v 2 = false → Does (.timerCountsClear a t v) s fun d => d.answer = .ok ∧ d.num (PWM.TIM_COUNTS_A t.val) = 0 ∧
      d.num (PWM.TIM_COUNTS_B t.val) = 0 ∧ d.num (PWM.TIM_TRIPS t.val) = 0 ∧ d.num (PWM.TIM_INSERTS t.val) = 0 ∧
      s.dev.keepsRegs d [PWM.TIM_COUNTS_A t.val, PWM.TIM_COUNTS_B t.val, PWM.TIM_TRIPS t.val, PWM.TIM_INSERTS t.val, PWM.TIM_CLR t.val] ∧
      s.dev.keepsUnits d ∧ s.dev.oneRecord d (wordRecord s.dev.nowNs .live 0 a.id (PWM.TIM_CLR t.val) v 0)) ∧
  (∀ (b : Fin 3), s.dev.fld (PWM.TRUE_CTRL_MODE b.val) = 0 → s.dev.flag (PWM.BANK_STATUS_READY b.val) = true →
      (Tab.get {} b.val s.dev.lineTrue).subject = none → s.dev.due (Tab.get {} b.val s.dev.lineTrue).nextAt = true →
      Does (.lineTrueStart b) s fun d =>
      Tab.get {} b.val d.lineTrue = { (Tab.get {} b.val s.dev.lineTrue) with subject := some (Tab.get {} b.val s.dev.lineTrue).next, doneAt := s.dev.now + nsT 50000, lapStart := if (Tab.get {} b.val s.dev.lineTrue).next = 0 then some s.dev.now else (Tab.get {} b.val s.dev.lineTrue).lapStart } ∧
      d.fld (PWM.TRUE_STATUS_SUBJECT b.val) = (Tab.get {} b.val s.dev.lineTrue).next % 64 ∧
      ((Tab.get {} b.val s.dev.lineTrue).lapStart = none ∨ (Tab.get {} b.val s.dev.lineTrue).next ≠ 0 ∨ d.fld (PWM.TRUE_STATUS_LAP_MS b.val) = min 0xFFFF ((s.dev.now - (Tab.get {} b.val s.dev.lineTrue).lapStart.getD 0).toNat / 64000000)) ∧
      Tab.keeps {} [b.val] s.dev.lineTrue d.lineTrue ∧ { s.dev with lineTrue := d.lineTrue }.keepsUnits d ∧
      s.dev.keepsRegs d [PWM.TRUE_STATUS b.val] ∧ s.dev.noRecord d) ∧
  (∀ (b : Fin 3) (l g : Int) (i : Nat), (Tab.get {} b.val s.dev.lineTrue).subject = some i → i < 32 →
      s.dev.due (Tab.get {} b.val s.dev.lineTrue).doneAt = true → l.natAbs * 1000 ≤ 38400 → g.natAbs * 100 ≤ 196608 →
      (2 * (32 * b.val + i) + (1 - b2n (bitOf (s.dev.num (PWM.TRUE_LINE b.val)) i))) ∉ s.dev.lineFailed →
      Does (.lineTrueDone b l g) s fun d => (Tab.get {} b.val d.lineTrue).subject = none ∧
      (Tab.get {} b.val d.lineTrue).next = (i + 1) % 32 ∧ d.fld (PWM.TRUE_STATUS_SUBJECT b.val) = 0x3F ∧
      Tab.keeps {} [b.val] s.dev.lineTrue d.lineTrue ∧ s.dev.noRecord d ∧
      d.lineSwap = Tab.put (32 * b.val + i) s.dev.now s.dev.lineSwap ∧ d.lineFailed = s.dev.lineFailed ∧
      { s.dev with lineTrue := d.lineTrue, lineSwap := d.lineSwap, trued := d.trued }.keepsUnits d ∧
      s.dev.keepsRegs d [PWM.TRUE_STATUS b.val]) ∧
  (∀ (b : Fin 3) (l g : Int) (i : Nat), (Tab.get {} b.val s.dev.lineTrue).subject = some i → i < 32 →
      s.dev.due (Tab.get {} b.val s.dev.lineTrue).doneAt = true → (38400 < l.natAbs * 1000 ∨ 196608 < g.natAbs * 100) →
      Does (.lineTrueDone b l g) s fun d => (Tab.get {} b.val d.lineTrue).subject = none ∧
      (Tab.get {} b.val d.lineTrue).next = (i + 1) % 32 ∧ d.fld (PWM.TRUE_STATUS_SUBJECT b.val) = 0x3F ∧
      Tab.keeps {} [b.val] s.dev.lineTrue d.lineTrue ∧ s.dev.noRecord d ∧ d.lineSwap = s.dev.lineSwap ∧
      d.lineFailed = s.dev.lineFailed ++ [(2 * (32 * b.val + i) + (1 - b2n (bitOf (s.dev.num (PWM.TRUE_LINE b.val)) i)))] ∧
      d.flag (PWM.TRUE_FLAG_FLAG b.val) = true ∧ bitOf (d.num (PWM.TRUE_FAIL b.val)) i = true ∧
      d.faults = s.dev.faults ++ [{ src := 0x0C, unit := 32 * b.val + i, stamp := s.dev.nowNs }] ∧
      { s.dev with lineTrue := d.lineTrue, lineFailed := d.lineFailed, trued := d.trued, faults := d.faults }.keepsUnits d) ∧
  (∀ (o : Fin 96) (t : Time), Tab.find o.val s.dev.lineSwap = some t →
      (s.dev.timRun (o.val / 2) ≠ 1 ∨ dist t (s.dev.out o.val).frF ≥ 0) → s.dev.quietOut o.val (nsT 4) (nsT 4) = true →
      Does (.lineSwap o) s fun d => d.lineSwap = Tab.del o.val s.dev.lineSwap ∧
      bitOf (d.num (PWM.TRUE_LINE (o.val / 32))) (o.val % 32) = !bitOf (s.dev.num (PWM.TRUE_LINE (o.val / 32))) (o.val % 32) ∧
      (∀ j : Fin 32, j.val ≠ o.val % 32 →
      bitOf (d.num (PWM.TRUE_LINE (o.val / 32))) j.val = bitOf (s.dev.num (PWM.TRUE_LINE (o.val / 32))) j.val) ∧
      { s.dev with lineSwap := d.lineSwap }.keepsUnits d ∧ s.dev.keepsRegs d [PWM.TRUE_LINE (o.val / 32)] ∧ s.dev.noRecord d)

/-- For every state: a write of PH_RAIL_CTRL of a rail that does not distribute only sets ACTIVE and the summary of the rail; of one that runs it brings N to min(ACTIVE, phases that have not failed) and, where N changes, counts the change and makes one SYSTEM record of agent 0x0300; ADD_EVENT raises ACTIVE to at least ADD_TO and does the same; a phase decided to move earlier takes its new position 2 ns before; FAIL marks a phase FAILED with its record, and of a listed phase without a spare DEGRADED and LOSS set and source 0x0D reports, the phase leaving the list at once under RESPACE and the list standing under SAFE; CLEAR_FAIL makes an unused phase UNUSED and parks one of a rail; CLEAR zeroes the counts. Where a clause rests on a reading or a choice of the model, it is the model's and not the spec's: log entries 70, 74, 75, 76, 160 and 161. -/
def Obligations.RailsAndPhases : Prop :=
  ∀ s : State,
  (∀ (a : Agent) (r : Fin 8) (v : Word), s.dev.takes a.id (PHASE.PH_RAIL_CTRL r.val) v = true → s.dev.railRuns r.val = false →
      Does (.railActiveWrite a r v) s fun d => d.answer = .ok ∧ d.fld (PHASE.PH_RAIL_CTRL_ACTIVE r.val) = v.toNat % 128 ∧
      s.dev.keepsRegs d [PHASE.PH_RAIL_CTRL r.val, PHASE.PH_RAIL_STATUS r.val] ∧ s.dev.keepsUnits d ∧
      s.dev.oneRecord d (wordRecord s.dev.nowNs .live 0 a.id (PHASE.PH_RAIL_CTRL r.val) (d.reg (PHASE.PH_RAIL_CTRL r.val)) (s.dev.reg (PHASE.PH_RAIL_CTRL r.val)))) ∧
  (∀ (a : Agent) (r : Fin 8) (v : Word), s.dev.takes a.id (PHASE.PH_RAIL_CTRL r.val) v = true → s.dev.railRuns r.val = true →
      (min (v.toNat % 128) ((s.dev.railPhases r.val).filter s.dev.phGood).length) ≠ s.dev.fld (PHASE.PH_RAIL_STATUS_N r.val) →
      Does (.railActiveWrite a r v) s fun d => d.answer = .ok ∧ d.fld (PHASE.PH_RAIL_CTRL_ACTIVE r.val) = v.toNat % 128 ∧
      d.fld (PHASE.PH_RAIL_STATUS_N r.val) = (min (v.toNat % 128) ((s.dev.railPhases r.val).filter s.dev.phGood).length) ∧
      d.fld (PHASE.PH_RAIL_COUNTS_CHANGES r.val) = satInc 0xFFFF (s.dev.fld (PHASE.PH_RAIL_COUNTS_CHANGES r.val)) ∧
      { s.dev with phs := d.phs, rails := d.rails, outs := d.outs }.keepsUnits d) ∧
  (∀ (r : Fin 8) (n : Nat), s.dev.flag (PHASE.PH_RAIL_ADD_ADD_EN r.val) = true → s.dev.railRuns r.val = false →
      n = max (s.dev.fld (PHASE.PH_RAIL_CTRL_ACTIVE r.val)) (s.dev.fld (PHASE.PH_RAIL_ADD_ADD_TO r.val)) →
      Does (.railAddEvent r) s fun d => d.fld (PHASE.PH_RAIL_CTRL_ACTIVE r.val) = n ∧
      s.dev.keepsRegs d [PHASE.PH_RAIL_CTRL r.val, PHASE.PH_RAIL_STATUS r.val] ∧
      s.dev.oneRecord d (wordRecord s.dev.nowNs .system 0 0x0300 (PHASE.PH_RAIL_CTRL r.val) (d.reg (PHASE.PH_RAIL_CTRL r.val)) (s.dev.reg (PHASE.PH_RAIL_CTRL r.val))) ∧
      s.dev.keepsUnits d) ∧
  (∀ (r : Fin 8) (n : Nat), s.dev.flag (PHASE.PH_RAIL_ADD_ADD_EN r.val) = true → s.dev.railRuns r.val = true →
      n = max (s.dev.fld (PHASE.PH_RAIL_CTRL_ACTIVE r.val)) (s.dev.fld (PHASE.PH_RAIL_ADD_ADD_TO r.val)) →
      Does (.railAddEvent r) s fun d => d.fld (PHASE.PH_RAIL_CTRL_ACTIVE r.val) = n ∧
      d.fld (PHASE.PH_RAIL_STATUS_N r.val) = min n ((s.dev.railPhases r.val).filter s.dev.phGood).length ∧
      { s.dev with phs := d.phs, rails := d.rails, outs := d.outs }.keepsUnits d) ∧
  (∀ (o : Fin 96) (n : Nat), s.dev.timRun (o.val / 2) = 1 → s.dev.outSrc o.val = 2 → s.dev.detState (o.val / 2) = 0 →
      (s.dev.out o.val).moved = false → (s.dev.out o.val).formed = false → (s.dev.out o.val).later = false →
      (s.dev.out o.val).wins = [] → (s.dev.out o.val).ndDt = none → s.dev.moveOf o.val (s.dev.out o.val).nextF = -(n : Int) →
      0 < n → s.dev.due ((s.dev.out o.val).nextF - tks n - setupS) = true →
      dist s.dev.now ((s.dev.out o.val).nextF - tks n) ≥ 0 → Does (.phaseMoveDecision o) s fun d =>
      (d.out o.val).nextF = (s.dev.out o.val).nextF - tks n ∧ (d.out o.val).moved = true ∧
      d.num (PHASE.PH_POS o.val) = (((s.dev.num (PHASE.PH_POS o.val) : Int) - n) % (max 1 (s.dev.phP o.val) : Nat)).toNat % 2 ^ 32 ∧
      Tab.keeps {} [o.val] s.dev.outs d.outs ∧ { s.dev with outs := d.outs }.keepsUnits d ∧ s.dev.noRecord d) ∧
  (∀ (a : Agent) (v : Word), s.dev.takes a.id PHASE.PH_PHASE_CMD v = true → wordBit v 8 = true →
      s.dev.phRole (v.toNat % 128) = 0 → s.dev.phState (v.toNat % 128) ≠ 5 → Does (.phFail a v) s fun d => d.answer = .ok ∧
      d.num (PHASE.PH_STATE (v.toNat % 128)) = 5 ∧ s.dev.keepsUnits d ∧
      s.dev.keepsRegs d [PHASE.PH_PHASE_CMD, PHASE.PH_STATE (v.toNat % 128)]) ∧
  (∀ (a : Agent) (v : Word), s.dev.takes a.id PHASE.PH_PHASE_CMD v = true → wordBit v 8 = true →
      s.dev.phRole (v.toNat % 128) ≠ 0 → s.dev.phState (v.toNat % 128) ≠ 5 →
      s.dev.railRuns (s.dev.phRail (v.toNat % 128)) = true → s.dev.railList (s.dev.phRail (v.toNat % 128)) = [v.toNat % 128] →
      s.dev.ranked (s.dev.phRail (v.toNat % 128)) 2 = [] → s.dev.railPhases (s.dev.phRail (v.toNat % 128)) = [v.toNat % 128] →
      s.dev.flag (PHASE.PH_RAIL_CFG_ON_LOSS (s.dev.phRail (v.toNat % 128))) = false → Does (.phFail a v) s fun d =>
      d.answer = .ok ∧ d.phState (v.toNat % 128) = 5 ∧
      (d.railList (s.dev.phRail (v.toNat % 128))).contains (v.toNat % 128) = false ∧
      d.flag (PHASE.PH_RAIL_STATUS_LOSS (s.dev.phRail (v.toNat % 128))) = true ∧
      d.flag (PHASE.PH_RAIL_STATUS_DEGRADED (s.dev.phRail (v.toNat % 128))) = true ∧
      d.faults = s.dev.faults ++ [{ src := 0x0D, unit := s.dev.phRail (v.toNat % 128), stamp := s.dev.nowNs }]) ∧
  (∀ (a : Agent) (v : Word), s.dev.takes a.id PHASE.PH_PHASE_CMD v = true → wordBit v 8 = true →
      s.dev.phRole (v.toNat % 128) ≠ 0 → s.dev.phState (v.toNat % 128) ≠ 5 →
      s.dev.railRuns (s.dev.phRail (v.toNat % 128)) = true → s.dev.railList (s.dev.phRail (v.toNat % 128)) = [v.toNat % 128] →
      s.dev.ranked (s.dev.phRail (v.toNat % 128)) 2 = [] → s.dev.railPhases (s.dev.phRail (v.toNat % 128)) = [v.toNat % 128] →
      s.dev.flag (PHASE.PH_RAIL_CFG_ON_LOSS (s.dev.phRail (v.toNat % 128))) = true → Does (.phFail a v) s fun d =>
      d.answer = .ok ∧ d.phState (v.toNat % 128) = 5 ∧
      d.railList (s.dev.phRail (v.toNat % 128)) = s.dev.railList (s.dev.phRail (v.toNat % 128)) ∧
      d.flag (PHASE.PH_RAIL_STATUS_LOSS (s.dev.phRail (v.toNat % 128))) = true ∧
      d.flag (PHASE.PH_RAIL_STATUS_DEGRADED (s.dev.phRail (v.toNat % 128))) = true ∧
      d.faults = s.dev.faults ++ [{ src := 0x0D, unit := s.dev.phRail (v.toNat % 128), stamp := s.dev.nowNs }]) ∧
  (∀ (a : Agent) (v : Word), s.dev.takes a.id PHASE.PH_PHASE_CMD v = true → wordBit v 9 = true → wordBit v 8 = false →
      s.dev.phRole (v.toNat % 128) = 0 → s.dev.phState (v.toNat % 128) = 5 → Does (.phClearFail a v) s fun d => d.answer = .ok ∧
      d.phState (v.toNat % 128) = 0 ∧ s.dev.keepsUnits d ∧ s.dev.keepsRegs d [PHASE.PH_PHASE_CMD, PHASE.PH_STATE (v.toNat % 128)]) ∧
  (∀ (a : Agent) (v : Word), s.dev.takes a.id PHASE.PH_PHASE_CMD v = true → wordBit v 9 = true → wordBit v 8 = false →
      s.dev.phRole (v.toNat % 128) ≠ 0 → s.dev.phState (v.toNat % 128) = 5 → Does (.phClearFail a v) s fun d => d.answer = .ok ∧
      d.phState (v.toNat % 128) = 1) ∧
  (∀ (a : Agent) (r : Fin 8) (v : Word), s.dev.takes a.id (PHASE.PH_RAIL_CMD r.val) v = true → wordBit v 0 = true →
      Does (.railCountsClear a r v) s fun d => d.answer = .ok ∧ d.num (PHASE.PH_RAIL_COUNTS r.val) = 0 ∧
      s.dev.keepsRegs d [PHASE.PH_RAIL_COUNTS r.val, PHASE.PH_RAIL_CMD r.val] ∧ s.dev.keepsUnits d ∧
      s.dev.oneRecord d (wordRecord s.dev.nowNs .live 0 a.id (PHASE.PH_RAIL_CMD r.val) v 0))

/-- For every state and output: a transition of a MEASURING output is kept with its time and level; one that belongs to no window, and to none still to come, sets EXTRA and counts at the next edge, unless an unmeasured change lies within 10 ns; the end of the window of an edge whose transition is of the commanded level and within TOL counts it, shows its time and error and zeroes RUN; where level or error is wrong, or an extra transition came before, it sets MISMATCH and raises RUN; of a missing edge it sets MISSING and raises RUN, and where RUN reaches COUNT declares a fault: FAULTED, events 11 and 640 + p, source 0x0A; a missing edge near an unmeasured change is not counted; CLEAR_FAULT and CLEAR clear what they say; WITNESS_BANK_READY makes a powered bank ready. Where a clause rests on a reading or a choice of the model, it is the model's and not the spec's: log entry 77. -/
def Obligations.EdgeWitness : Prop :=
  ∀ s : State,
  (∀ (p : Fin 96) (dq : Int) (l : Fin 3), s.dev.flag (WITNESS.WIT_STATUS_MEASURING p.val) = true → (s.dev.wit p.val).trs = [] →
      Does (.witnessTransition p dq l) s fun d =>
      d.wit p.val = { (s.dev.wit p.val) with trs := [{ base := s.dev.now, ps := dq, level := (match l with | 0 => Level.low | 1 => Level.mid | 2 => Level.high) }] } ∧
      Tab.keeps {} [p.val] s.dev.wits d.wits ∧ { s.dev with wits := d.wits }.keepsUnits d ∧ s.dev.keepsRegs d [] ∧
      s.dev.noRecord d) ∧
  (∀ (p : Fin 96) (dq : Int) (l : Fin 3) (x : WitTr), s.dev.flag (WITNESS.WIT_STATUS_MEASURING p.val) = true →
      (s.dev.wit p.val).trs = [x] → nearest (s.dev.wit p.val).edges (s.dev.witTol p.val + 1000) x = none →
      s.dev.due (x.time + tks (max (s.dev.witHalf p.val) 640)) = true → (s.dev.wit p.val).nearUnmeasured x.time = false →
      Does (.witnessTransition p dq l) s fun d => d.flag (WITNESS.WIT_STATUS_EXTRA p.val) = true ∧
      d.wit p.val = { (s.dev.wit p.val) with trs := [{ base := s.dev.now, ps := dq, level := (match l with | 0 => Level.low | 1 => Level.mid | 2 => Level.high) }], extras := (s.dev.wit p.val).extras ++ [x.time] } ∧
      s.dev.keepsRegs d [WITNESS.WIT_STATUS p.val] ∧ { s.dev with wits := d.wits }.keepsUnits d ∧ s.dev.noRecord d) ∧
  (∀ (p : Fin 96) (dq : Int) (l : Fin 3) (x : WitTr), s.dev.flag (WITNESS.WIT_STATUS_MEASURING p.val) = true →
      (s.dev.wit p.val).trs = [x] → nearest (s.dev.wit p.val).edges (s.dev.witTol p.val + 1000) x = none →
      s.dev.due (x.time + tks (max (s.dev.witHalf p.val) 640)) = true → (s.dev.wit p.val).nearUnmeasured x.time = true →
      Does (.witnessTransition p dq l) s fun d =>
      d.wit p.val = { (s.dev.wit p.val) with trs := [{ base := s.dev.now, ps := dq, level := (match l with | 0 => Level.low | 1 => Level.mid | 2 => Level.high) }] } ∧
      s.dev.keepsRegs d [] ∧ { s.dev with wits := d.wits }.keepsUnits d ∧ s.dev.noRecord d) ∧
  (∀ (p : Fin 96) (e : WitEdge) (rest : List WitEdge) (x : WitTr), (s.dev.wit p.val).edges = e :: rest →
      (s.dev.wit p.val).trs = [x] → nearest (e :: rest) (s.dev.witTol p.val + 1000) x = some 0 →
      s.dev.due (e.t + tks (s.dev.witHalf p.val)) = true → dist e.t x.time ≤ dist x.time s.dev.now → x.level = e.level →
      (witError e x).natAbs ≤ s.dev.witTol p.val → (s.dev.wit p.val).extras = [] → Does (.witnessWindowEnd p) s fun d =>
      d.fld (WITNESS.WIT_COUNT_EDGES p.val) = (s.dev.fld (WITNESS.WIT_COUNT_EDGES p.val) + 1) % 0x10000 ∧
      d.fld (WITNESS.WIT_STATUS_RUN p.val) = 0 ∧ d.reg64 (WITNESS.WIT_LAST p.val) = x.time ∧
      d.fld (WITNESS.WIT_ERR_LAST_PS p.val) = low 16 (clampI (-32767) 32767 (witError e x)) ∧
      d.fld (WITNESS.WIT_ERR_WORST_PS p.val) = max (s.dev.fld (WITNESS.WIT_ERR_WORST_PS p.val)) (min 0xFFFF (witError e x).natAbs) ∧
      d.wit p.val = { (s.dev.wit p.val) with edges := rest, trs := [] } ∧
      d.flag (WITNESS.WIT_STATUS_FAULTED p.val) = s.dev.flag (WITNESS.WIT_STATUS_FAULTED p.val) ∧
      Tab.keeps {} [p.val] s.dev.wits d.wits ∧ { s.dev with wits := d.wits }.keepsUnits d ∧ s.dev.noRecord d) ∧
  (∀ (p : Fin 96) (e : WitEdge) (rest : List WitEdge) (x : WitTr), (s.dev.wit p.val).edges = e :: rest →
      (s.dev.wit p.val).trs = [x] → nearest (e :: rest) (s.dev.witTol p.val + 1000) x = some 0 →
      s.dev.due (e.t + tks (s.dev.witHalf p.val)) = true → dist e.t x.time ≤ dist x.time s.dev.now →
      (x.level ≠ e.level ∨ s.dev.witTol p.val < (witError e x).natAbs) → (s.dev.wit p.val).extras = [] →
      (satInc 31 (s.dev.fld (WITNESS.WIT_STATUS_RUN p.val)) < s.dev.fld (WITNESS.WIT_CFG_COUNT p.val) ∨ s.dev.flag (WITNESS.WIT_STATUS_FAULTED p.val) = true) →
      Does (.witnessWindowEnd p) s fun d =>
      d.fld (WITNESS.WIT_COUNT_EDGES p.val) = (s.dev.fld (WITNESS.WIT_COUNT_EDGES p.val) + 1) % 0x10000 ∧
      d.flag (WITNESS.WIT_STATUS_MISMATCH p.val) = true ∧
      d.fld (WITNESS.WIT_COUNT_MISMATCHES p.val) = satInc 0xFFFF (s.dev.fld (WITNESS.WIT_COUNT_MISMATCHES p.val)) ∧
      d.fld (WITNESS.WIT_STATUS_RUN p.val) = satInc 31 (s.dev.fld (WITNESS.WIT_STATUS_RUN p.val)) ∧
      d.reg64 (WITNESS.WIT_LAST p.val) = x.time ∧
      d.fld (WITNESS.WIT_ERR_LAST_PS p.val) = low 16 (clampI (-32767) 32767 (witError e x)) ∧
      d.fld (WITNESS.WIT_ERR_WORST_PS p.val) = max (s.dev.fld (WITNESS.WIT_ERR_WORST_PS p.val)) (min 0xFFFF (witError e x).natAbs) ∧
      d.wit p.val = { (s.dev.wit p.val) with edges := rest, trs := [], extras := [] } ∧
      d.flag (WITNESS.WIT_STATUS_FAULTED p.val) = s.dev.flag (WITNESS.WIT_STATUS_FAULTED p.val) ∧
      Tab.keeps {} [p.val] s.dev.wits d.wits ∧ { s.dev with wits := d.wits }.keepsUnits d ∧ s.dev.noRecord d) ∧
  (∀ (p : Fin 96) (e : WitEdge) (rest : List WitEdge) (x : WitTr) (y : Time), (s.dev.wit p.val).edges = e :: rest →
      (s.dev.wit p.val).trs = [x] → nearest (e :: rest) (s.dev.witTol p.val + 1000) x = some 0 →
      s.dev.due (e.t + tks (s.dev.witHalf p.val)) = true → dist e.t x.time ≤ dist x.time s.dev.now →
      (s.dev.wit p.val).extras = [y] → before y e.t = true →
      (satInc 31 (s.dev.fld (WITNESS.WIT_STATUS_RUN p.val)) < s.dev.fld (WITNESS.WIT_CFG_COUNT p.val) ∨ s.dev.flag (WITNESS.WIT_STATUS_FAULTED p.val) = true) →
      Does (.witnessWindowEnd p) s fun d =>
      d.fld (WITNESS.WIT_COUNT_EDGES p.val) = (s.dev.fld (WITNESS.WIT_COUNT_EDGES p.val) + 1) % 0x10000 ∧
      d.flag (WITNESS.WIT_STATUS_MISMATCH p.val) = true ∧
      d.fld (WITNESS.WIT_COUNT_MISMATCHES p.val) = satInc 0xFFFF (s.dev.fld (WITNESS.WIT_COUNT_MISMATCHES p.val)) ∧
      d.fld (WITNESS.WIT_STATUS_RUN p.val) = satInc 31 (s.dev.fld (WITNESS.WIT_STATUS_RUN p.val)) ∧
      d.reg64 (WITNESS.WIT_LAST p.val) = x.time ∧
      d.fld (WITNESS.WIT_ERR_LAST_PS p.val) = low 16 (clampI (-32767) 32767 (witError e x)) ∧
      d.fld (WITNESS.WIT_ERR_WORST_PS p.val) = max (s.dev.fld (WITNESS.WIT_ERR_WORST_PS p.val)) (min 0xFFFF (witError e x).natAbs) ∧
      d.wit p.val = { (s.dev.wit p.val) with edges := rest, trs := [], extras := [] } ∧
      d.flag (WITNESS.WIT_STATUS_FAULTED p.val) = s.dev.flag (WITNESS.WIT_STATUS_FAULTED p.val) ∧
      Tab.keeps {} [p.val] s.dev.wits d.wits ∧ { s.dev with wits := d.wits }.keepsUnits d ∧ s.dev.noRecord d) ∧
  (∀ (p : Fin 96) (e : WitEdge) (rest : List WitEdge), (s.dev.wit p.val).edges = e :: rest → (s.dev.wit p.val).trs = [] →
      (s.dev.wit p.val).extras = [] → (s.dev.wit p.val).nearUnmeasured e.t = false →
      s.dev.due (e.t + tks (max (s.dev.witHalf p.val) 640)) = true →
      (satInc 31 (s.dev.fld (WITNESS.WIT_STATUS_RUN p.val)) < s.dev.fld (WITNESS.WIT_CFG_COUNT p.val) ∨ s.dev.flag (WITNESS.WIT_STATUS_FAULTED p.val) = true) →
      Does (.witnessWindowEnd p) s fun d =>
      d.fld (WITNESS.WIT_COUNT_EDGES p.val) = (s.dev.fld (WITNESS.WIT_COUNT_EDGES p.val) + 1) % 0x10000 ∧
      d.flag (WITNESS.WIT_STATUS_MISSING p.val) = true ∧
      d.fld (WITNESS.WIT_COUNT_MISMATCHES p.val) = satInc 0xFFFF (s.dev.fld (WITNESS.WIT_COUNT_MISMATCHES p.val)) ∧
      d.fld (WITNESS.WIT_STATUS_RUN p.val) = satInc 31 (s.dev.fld (WITNESS.WIT_STATUS_RUN p.val)) ∧
      d.wit p.val = { (s.dev.wit p.val) with edges := rest, trs := [] } ∧
      d.flag (WITNESS.WIT_STATUS_FAULTED p.val) = s.dev.flag (WITNESS.WIT_STATUS_FAULTED p.val) ∧
      Tab.keeps {} [p.val] s.dev.wits d.wits ∧ { s.dev with wits := d.wits }.keepsUnits d ∧ s.dev.noRecord d) ∧
  (∀ (p : Fin 96) (e : WitEdge) (rest : List WitEdge), (s.dev.wit p.val).edges = e :: rest → (s.dev.wit p.val).trs = [] →
      (s.dev.wit p.val).extras = [] → (s.dev.wit p.val).nearUnmeasured e.t = false →
      s.dev.due (e.t + tks (max (s.dev.witHalf p.val) 640)) = true →
      s.dev.fld (WITNESS.WIT_CFG_COUNT p.val) ≤ satInc 31 (s.dev.fld (WITNESS.WIT_STATUS_RUN p.val)) →
      s.dev.flag (WITNESS.WIT_STATUS_FAULTED p.val) = false → Does (.witnessWindowEnd p) s fun d =>
      d.fld (WITNESS.WIT_COUNT_EDGES p.val) = (s.dev.fld (WITNESS.WIT_COUNT_EDGES p.val) + 1) % 0x10000 ∧
      d.flag (WITNESS.WIT_STATUS_MISSING p.val) = true ∧
      d.fld (WITNESS.WIT_COUNT_MISMATCHES p.val) = satInc 0xFFFF (s.dev.fld (WITNESS.WIT_COUNT_MISMATCHES p.val)) ∧
      d.fld (WITNESS.WIT_STATUS_RUN p.val) = satInc 31 (s.dev.fld (WITNESS.WIT_STATUS_RUN p.val)) ∧
      d.wit p.val = { (s.dev.wit p.val) with edges := rest, tf := e.t } ∧ d.flag (WITNESS.WIT_STATUS_FAULTED p.val) = true ∧
      s.dev.raised d [11, 640 + p.val] ∧ d.faults = s.dev.faults ++ [{ src := 0x0A, unit := p.val, stamp := s.dev.nowNs }] ∧
      Tab.keeps {} [p.val] s.dev.wits d.wits ∧ { s.dev with wits := d.wits, faults := d.faults }.keepsUnits d ∧
      s.dev.oneRecord d (wordRecord s.dev.nowNs .system 0 0x0600 (WITNESS.WIT_STATUS p.val) (d.reg (WITNESS.WIT_STATUS p.val)) (BitVec.ofNat 32 (putBits (d.num (WITNESS.WIT_STATUS p.val)) (WITNESS.WIT_STATUS_FAULTED p.val).hi (WITNESS.WIT_STATUS_FAULTED p.val).lo 0)))) ∧
  (∀ (p : Fin 96) (e : WitEdge) (rest : List WitEdge), (s.dev.wit p.val).edges = e :: rest → (s.dev.wit p.val).trs = [] →
      (s.dev.wit p.val).extras = [] → (s.dev.wit p.val).nearUnmeasured e.t = true →
      s.dev.due (e.t + tks (max (s.dev.witHalf p.val) 640)) = true → Does (.witnessWindowEnd p) s fun d =>
      d.wit p.val = { (s.dev.wit p.val) with edges := rest } ∧ s.dev.keepsRegs d [] ∧
      { s.dev with wits := d.wits }.keepsUnits d ∧ s.dev.noRecord d) ∧
  (∀ (a : Agent) (p : Fin 96) (v : Word), s.dev.takes a.id (WITNESS.WIT_CMD p.val) v = true → wordBit v 1 = true →
      wordBit v 0 = false → Does (.witClearFault a p v) s fun d => d.answer = .ok ∧
      d.flag (WITNESS.WIT_STATUS_FAULTED p.val) = false ∧ d.fld (WITNESS.WIT_STATUS_RUN p.val) = 0 ∧
      s.dev.keepsRegs d [WITNESS.WIT_STATUS p.val, WITNESS.WIT_CMD p.val] ∧ s.dev.keepsUnits d ∧
      s.dev.oneRecord d (wordRecord s.dev.nowNs .live 0 a.id (WITNESS.WIT_CMD p.val) v 0)) ∧
  (∀ (a : Agent) (p : Fin 96) (v : Word), s.dev.takes a.id (WITNESS.WIT_CMD p.val) v = true → wordBit v 0 = true →
      wordBit v 1 = false → Does (.witClear a p v) s fun d => d.answer = .ok ∧ d.num (WITNESS.WIT_COUNT p.val) = 0 ∧
      d.fld (WITNESS.WIT_ERR_WORST_PS p.val) = 0 ∧
      s.dev.keepsRegs d [WITNESS.WIT_COUNT p.val, (WITNESS.WIT_ERR_WORST_PS p.val).addr, WITNESS.WIT_CMD p.val] ∧
      s.dev.keepsUnits d ∧ s.dev.oneRecord d (wordRecord s.dev.nowNs .live 0 a.id (WITNESS.WIT_CMD p.val) v 0)) ∧
  (∀ (b : Fin 3), s.dev.powered (33 + b.val) 10000 = true → Does (.witnessBankReady b) s fun d =>
      bitOf (d.fld WITNESS.WIT_BANK_STATUS_READY) b.val = true ∧ d.domReady (33 + b.val) = true ∧
      (∀ i : Fin 32, d.flag (WITNESS.WIT_STATUS_MEASURING (32 * b.val + i.val)) = (s.dev.flag (WITNESS.WIT_CFG_ENABLE (32 * b.val + i.val)) && decide (s.dev.fld (PINMUX.PIN_OWN_FUNC (32 * b.val + i.val)) = 4))) ∧
      { s.dev with wits := d.wits }.keepsUnits d ∧ s.dev.noRecord d)

/-- For every state and timer: in DETOURING the copy gives the spare the configuration words, the run state and the period of the timer and aborts both claims; from t_f + 1,000 ns the spare shadows; at a steady instant or at t_f + 1,900 ns the pins begin a crossing of 4 ns; 4 ns later the spare drives them: the timer is DETOURED with DONE and MODE OFF, event 13 is raised, the detour counted and shown in DET_LAST; an accepted RETURN makes it RETURNING at DET_RETURN_AT, and TIMER_RETURN there gives the run state back, makes both timers NORMAL and restores the words of the spare. Where a clause rests on a reading or a choice of the model, it is the model's and not the spec's: log entries 78 and 79. -/
def Obligations.TimerDetours : Prop :=
  ∀ s : State,
  (∀ (t : Fin 48), s.dev.detState t.val = 1 → (s.dev.det t.val).copied = false → (s.dev.detPartner t.val) ≠ t.val →
      (s.dev.detPartner t.val) < 48 → Does (.timerDetourCopy t) s fun d => (d.det t.val).copied = true ∧
      d.tim (s.dev.detPartner t.val) = s.dev.tim t.val ∧
      (∀ i : Fin 16, d.reg (PWM.TIM_CFG (s.dev.detPartner t.val) + 4 * i.val) = s.dev.reg (PWM.TIM_CFG t.val + 4 * i.val)) ∧
      d.reg64 (PWM.TIM_BOUNDARY (s.dev.detPartner t.val)) = s.dev.reg64 (PWM.TIM_BOUNDARY t.val) ∧
      ((d.det t.val).saved = (timWords (s.dev.detPartner t.val)).map fun a => (a, s.dev.reg a)) ∧
      ((d.out (2 * (s.dev.detPartner t.val))).nd = (s.dev.out (2 * t.val)).nd ∧
      (d.out (2 * (s.dev.detPartner t.val))).level = (s.dev.out (2 * (s.dev.detPartner t.val))).level) ∧
      d.tim t.val = s.dev.tim t.val ∧
      { s.dev with dets := d.dets, tims := d.tims, outs := d.outs, updQ := d.updQ, groups := d.groups, gc := d.gc }.keepsUnits d) ∧
  (∀ (t : Fin 48), s.dev.detState t.val = 1 → (s.dev.det t.val).copied = true → (s.dev.det t.val).shadow = false →
      s.dev.due ((s.dev.det t.val).tf + nsT 1000) = true → (s.dev.detPartner t.val) ≠ t.val → (s.dev.detPartner t.val) < 48 →
      Does (.detourShadowStart t) s fun d => (d.det t.val).shadow = true ∧ d.tim (s.dev.detPartner t.val) = s.dev.tim t.val ∧
      d.reg64 (PWM.TIM_BOUNDARY (s.dev.detPartner t.val)) = s.dev.reg64 (PWM.TIM_BOUNDARY t.val) ∧
      (d.out (2 * (s.dev.detPartner t.val))).nd = (s.dev.out (2 * t.val)).nd ∧
      { s.dev with dets := d.dets, tims := d.tims, outs := d.outs, updQ := d.updQ }.keepsUnits d ∧ s.dev.noRecord d) ∧
  (∀ (t : Fin 48) (ts : Time) (hold : Bool), s.dev.detState t.val = 1 → (s.dev.det t.val).shadow = true →
      (s.dev.det t.val).ts = none → s.dev.switchAt t.val ((s.dev.det t.val).tf + nsT 1000) = some (ts, hold) →
      Does (.timerDetourSwitch t) s fun d => (d.det t.val).ts = some ts ∧
      (∀ i : Fin 2, Tab.find (2 * t.val + i.val) d.xings = some { endT := ts + nsT 4, level := if hold then (s.dev.out (2 * t.val + i.val)).level else .mid }) ∧
      { s.dev with dets := d.dets, xings := d.xings, wits := d.wits }.keepsUnits d ∧ s.dev.keepsRegs d [] ∧ s.dev.noRecord d) ∧
  (∀ (t : Fin 48), s.dev.detState t.val = 1 → (s.dev.det t.val).shadow = true → (s.dev.det t.val).ts = none →
      s.dev.timSteady t.val = false → s.dev.due ((s.dev.det t.val).tf + nsT 1000) = true →
      s.dev.due ((s.dev.det t.val).tf + nsT 1900) = true → Does (.timerDetourSwitch t) s fun d =>
      (d.det t.val).ts = some ((s.dev.det t.val).tf + nsT 1900) ∧
      (∀ i : Fin 2, Tab.find (2 * t.val + i.val) d.xings = some { endT := ((s.dev.det t.val).tf + nsT 1900) + nsT 4, level := .mid }) ∧
      { s.dev with dets := d.dets, xings := d.xings, wits := d.wits }.keepsUnits d ∧ s.dev.keepsRegs d [] ∧ s.dev.noRecord d) ∧
  (∀ (t : Fin 48) (x : Time), s.dev.detState t.val = 1 → (s.dev.det t.val).ts = some x → s.dev.due (x + nsT 4) = true →
      (s.dev.detPartner t.val) ≠ t.val → (s.dev.detPartner t.val) < 48 → Does (.spareTakesPins t) s fun d =>
      d.detState t.val = 2 ∧ d.flag (WITNESS.DET_STATUS_DONE t.val) = true ∧ d.fld (PWM.TIM_CFG_MODE t.val) = 0 ∧
      d.timRun t.val = 0 ∧ d.events.any (fun e => decide (e.id = 13) && decide (e.stamp = floorNs s.dev.now)) = true ∧
      d.fld (WITNESS.DET_COUNT_DETOURS t.val) = satInc 0xFFFF (s.dev.fld (WITNESS.DET_COUNT_DETOURS t.val)) ∧
      d.reg64 WITNESS.DET_LAST_T = (s.dev.det t.val).tf ∧ d.fld WITNESS.DET_LAST_INFO_SPARE = (s.dev.detPartner t.val) ∧
      d.fld WITNESS.DET_LAST_INFO_TIMER = t.val ∧ Tab.find (2 * t.val) d.xings = none ∧
      d.tim (s.dev.detPartner t.val) = s.dev.tim (s.dev.detPartner t.val)) ∧
  (∀ (a : Agent) (v : Word), s.dev.takes a.id WITNESS.DET_CMD v = true → wordBit v 31 = true → Does (.detReturn a v) s fun d =>
      d.answer = .ok ∧ (d.det (v.toNat % 64)).returnAt = some (s.dev.reg64 WITNESS.DET_RETURN_AT) ∧
      d.detState (v.toNat % 64) = 4 ∧ Tab.keeps {} [v.toNat % 64] s.dev.dets d.dets ∧
      s.dev.keepsRegs d [WITNESS.DET_CMD, WITNESS.DET_STATUS (v.toNat % 64)] ∧ { s.dev with dets := d.dets }.keepsUnits d ∧
      s.dev.oneRecord d (wordRecord s.dev.nowNs .live 0 a.id WITNESS.DET_CMD v 0)) ∧
  (∀ (t : Fin 48) (r : Time), s.dev.detState t.val = 4 → (s.dev.det t.val).returnAt = some r → s.dev.due r = true →
      (s.dev.timSteady (s.dev.detPartner t.val) = true ∨ s.dev.due (r + nsT 900) = true) → (s.dev.detPartner t.val) ≠ t.val →
      (s.dev.detPartner t.val) < 48 →
      (s.dev.det t.val).saved.all (fun x => (timWords (s.dev.detPartner t.val)).contains x.1) = true →
      Does (.timerReturn t) s fun d => d.detState t.val = 0 ∧ d.flag (WITNESS.DET_STATUS_DONE t.val) = true ∧
      d.detState (s.dev.detPartner t.val) = 0 ∧ d.det t.val = {} ∧ d.tim t.val = s.dev.tim (s.dev.detPartner t.val) ∧
      d.reg64 (PWM.TIM_BOUNDARY t.val) = s.dev.reg64 (PWM.TIM_BOUNDARY (s.dev.detPartner t.val)) ∧
      d.timRun (s.dev.detPartner t.val) = 0 ∧ d.events.any (fun e => decide (e.id = 13)) = true)

/-- For every core that can issue a word of one of these instructions, in 32 or 16 bits, lockstep or split: the destination is written with the result, STATUS with the flags the instruction sets, the PC goes to the next instruction or where a loop that ends there goes, and nothing else of the machine changes but the counts of retired instructions, CORE_PC and the record a lockstep partner compares. Covers ADD to NOT, ADDI, ADDI.F, ANDI, ORI, XORI, CMPI, the shifts by an immediate, LUI and ADDPC. Where a clause rests on a reading or a choice of the model, it is the model's and not the spec's: log entries 13, 86 and 95. -/
def Obligations.CoreAlu : Prop :=
  ∀ s : State,
  (∀ (c : Fin 4) (w : Word) (f : Bool) (rd : Nat) (ra : Nat) (rb : Nat), s.dev.runs c w = true →
      decodeW w = .alu .add f rd ra rb → Does (.coreAdd c w) s fun d =>
      (s.dev.computes d c w fun x => let v : Word := x.rg ra + x.rg rb; x.puts rd v (statusAdd f x.status (x.rg ra) (x.rg rb) v false))) ∧
  (∀ (c : Fin 4) (w : Word) (f : Bool) (rd : Nat) (ra : Nat) (rb : Nat), s.dev.runs c w = true →
      decodeW w = .alu .sub f rd ra rb → Does (.coreSub c w) s fun d =>
      (s.dev.computes d c w fun x => let v : Word := x.rg ra - x.rg rb; x.puts rd v (statusSub f x.status (x.rg ra) (x.rg rb) v false))) ∧
  (∀ (c : Fin 4) (w : Word) (f : Bool) (rd : Nat) (ra : Nat) (rb : Nat), s.dev.runs c w = true →
      decodeW w = .alu .adc f rd ra rb → Does (.coreAdc c w) s fun d =>
      (s.dev.computes d c w fun x => let v : Word := x.rg ra + x.rg rb + (if (wordBit x.status 18) then 1 else 0); x.puts rd v (statusAdd true x.status (x.rg ra) (x.rg rb) v (wordBit x.status 18)))) ∧
  (∀ (c : Fin 4) (w : Word) (f : Bool) (rd : Nat) (ra : Nat) (rb : Nat), s.dev.runs c w = true →
      decodeW w = .alu .sbc f rd ra rb → Does (.coreSbc c w) s fun d =>
      (s.dev.computes d c w fun x => let v : Word := x.rg ra - x.rg rb - (if (wordBit x.status 18) then 0 else 1); x.puts rd v (statusSub true x.status (x.rg ra) (x.rg rb) v (!(wordBit x.status 18))))) ∧
  (∀ (c : Fin 4) (w : Word) (f : Bool) (rd : Nat) (ra : Nat) (rb : Nat), s.dev.runs c w = true →
      decodeW w = .alu .and f rd ra rb → Does (.coreAnd c w) s fun d =>
      (s.dev.computes d c w fun x => let v : Word := x.rg ra &&& x.rg rb; x.puts rd v (statusNZ f x.status v))) ∧
  (∀ (c : Fin 4) (w : Word) (f : Bool) (rd : Nat) (ra : Nat) (rb : Nat), s.dev.runs c w = true →
      decodeW w = .alu .or f rd ra rb → Does (.coreOr c w) s fun d =>
      (s.dev.computes d c w fun x => let v : Word := x.rg ra ||| x.rg rb; x.puts rd v (statusNZ f x.status v))) ∧
  (∀ (c : Fin 4) (w : Word) (f : Bool) (rd : Nat) (ra : Nat) (rb : Nat), s.dev.runs c w = true →
      decodeW w = .alu .xor f rd ra rb → Does (.coreXor c w) s fun d =>
      (s.dev.computes d c w fun x => let v : Word := x.rg ra ^^^ x.rg rb; x.puts rd v (statusNZ f x.status v))) ∧
  (∀ (c : Fin 4) (w : Word) (f : Bool) (rd : Nat) (ra : Nat) (rb : Nat), s.dev.runs c w = true →
      decodeW w = .alu .andn f rd ra rb → Does (.coreAndn c w) s fun d =>
      (s.dev.computes d c w fun x => let v : Word := x.rg ra &&& ~~~x.rg rb; x.puts rd v (statusNZ f x.status v))) ∧
  (∀ (c : Fin 4) (w : Word) (f : Bool) (rd : Nat) (ra : Nat) (rb : Nat), s.dev.runs c w = true →
      decodeW w = .alu .sll f rd ra rb → Does (.coreSll c w) s fun d =>
      (s.dev.computes d c w fun x => let v : Word := x.rg ra <<< ((x.rg rb).toNat % 256); x.puts rd v (statusShift f x.status v ((x.rg rb).toNat % 256) (decide (((x.rg rb).toNat % 256) ≤ 32) && (x.rg ra).toNat.testBit (32 - ((x.rg rb).toNat % 256)))))) ∧
  (∀ (c : Fin 4) (w : Word) (f : Bool) (rd : Nat) (ra : Nat) (rb : Nat), s.dev.runs c w = true →
      decodeW w = .alu .srl f rd ra rb → Does (.coreSrl c w) s fun d =>
      (s.dev.computes d c w fun x => let v : Word := x.rg ra >>> ((x.rg rb).toNat % 256); x.puts rd v (statusShift f x.status v ((x.rg rb).toNat % 256) (decide (((x.rg rb).toNat % 256) ≤ 32) && (x.rg ra).toNat.testBit (((x.rg rb).toNat % 256) - 1))))) ∧
  (∀ (c : Fin 4) (w : Word) (f : Bool) (rd : Nat) (ra : Nat) (rb : Nat), s.dev.runs c w = true →
      decodeW w = .alu .sra f rd ra rb → Does (.coreSra c w) s fun d =>
      (s.dev.computes d c w fun x => let v : Word := (x.rg ra).sshiftRight ((x.rg rb).toNat % 256); x.puts rd v (statusShift f x.status v ((x.rg rb).toNat % 256) (decide (((x.rg rb).toNat % 256) ≤ 32) && (x.rg ra).toNat.testBit (((x.rg rb).toNat % 256) - 1))))) ∧
  (∀ (c : Fin 4) (w : Word) (f : Bool) (rd : Nat) (ra : Nat) (rb : Nat), s.dev.runs c w = true →
      decodeW w = .alu .ror f rd ra rb → Does (.coreRor c w) s fun d =>
      (s.dev.computes d c w fun x => let v : Word := (x.rg ra).rotateRight (((x.rg rb).toNat % 256) % 32); x.puts rd v (statusShift f x.status v ((x.rg rb).toNat % 256) (v.msb)))) ∧
  (∀ (c : Fin 4) (w : Word) (f : Bool) (rd : Nat) (ra : Nat) (rb : Nat), s.dev.runs c w = true →
      decodeW w = .alu .min f rd ra rb → Does (.coreMin c w) s fun d =>
      (s.dev.computes d c w fun x => let v : Word := if (x.rg ra).toInt ≤ (x.rg rb).toInt then x.rg ra else x.rg rb; x.puts rd v (statusNZ f x.status v))) ∧
  (∀ (c : Fin 4) (w : Word) (f : Bool) (rd : Nat) (ra : Nat) (rb : Nat), s.dev.runs c w = true →
      decodeW w = .alu .max f rd ra rb → Does (.coreMax c w) s fun d =>
      (s.dev.computes d c w fun x => let v : Word := if (x.rg ra).toInt ≤ (x.rg rb).toInt then x.rg rb else x.rg ra; x.puts rd v (statusNZ f x.status v))) ∧
  (∀ (c : Fin 4) (w : Word) (f : Bool) (rd : Nat) (ra : Nat) (rb : Nat), s.dev.runs c w = true →
      decodeW w = .alu .minu f rd ra rb → Does (.coreMinu c w) s fun d =>
      (s.dev.computes d c w fun x => let v : Word := if x.rg ra ≤ x.rg rb then x.rg ra else x.rg rb; x.puts rd v (statusNZ f x.status v))) ∧
  (∀ (c : Fin 4) (w : Word) (f : Bool) (rd : Nat) (ra : Nat) (rb : Nat), s.dev.runs c w = true →
      decodeW w = .alu .maxu f rd ra rb → Does (.coreMaxu c w) s fun d =>
      (s.dev.computes d c w fun x => let v : Word := if x.rg ra ≤ x.rg rb then x.rg rb else x.rg ra; x.puts rd v (statusNZ f x.status v))) ∧
  (∀ (c : Fin 4) (w : Word) (f : Bool) (rd : Nat) (ra : Nat) (rb : Nat), s.dev.runs c w = true →
      decodeW w = .alu .slt f rd ra rb → Does (.coreSlt c w) s fun d =>
      (s.dev.computes d c w fun x => let v : Word := if (x.rg ra).toInt < (x.rg rb).toInt then 1 else 0; x.puts rd v (statusNZ f x.status v))) ∧
  (∀ (c : Fin 4) (w : Word) (f : Bool) (rd : Nat) (ra : Nat) (rb : Nat), s.dev.runs c w = true →
      decodeW w = .alu .sltu f rd ra rb → Does (.coreSltu c w) s fun d =>
      (s.dev.computes d c w fun x => let v : Word := if x.rg ra < x.rg rb then 1 else 0; x.puts rd v (statusNZ f x.status v))) ∧
  (∀ (c : Fin 4) (w : Word) (f : Bool) (rd : Nat) (ra : Nat) (rb : Nat), s.dev.runs c w = true →
      decodeW w = .alu .neg f rd ra rb → Does (.coreNeg c w) s fun d =>
      (s.dev.computes d c w fun x => let v : Word := 0 - x.rg ra; x.puts rd v (statusSub true x.status 0 (x.rg ra) v false))) ∧
  (∀ (c : Fin 4) (w : Word) (f : Bool) (rd : Nat) (ra : Nat) (rb : Nat), s.dev.runs c w = true →
      decodeW w = .alu .not f rd ra rb → Does (.coreNot c w) s fun d =>
      (s.dev.computes d c w fun x => let v : Word := ~~~x.rg ra; x.puts rd v (statusNZ f x.status v))) ∧
  (∀ (c : Fin 4) (w : Word) (rd : Nat) (ra : Nat) (k : Word), s.dev.runs c w = true → decodeW w = .addi false rd ra k →
      Does (.coreAddi c w) s fun d => (s.dev.computes d c w fun x => x.puts rd (x.rg ra + k) x.status)) ∧
  (∀ (c : Fin 4) (w : Word) (rd : Nat) (ra : Nat) (k : Word), s.dev.runs c w = true → decodeW w = .addi false rd ra k →
      Does (.coreAddi c w) s fun d => (s.dev.computes d c w fun x => x.puts rd (x.rg ra + k) x.status)) ∧
  (∀ (c : Fin 4) (w : Word) (rd : Nat) (ra : Nat) (k : Word), s.dev.runs c w = true → decodeW w = .addi true rd ra k →
      Does (.coreAddiF c w) s fun d =>
      (s.dev.computes d c w fun x => let v : Word := x.rg ra + k; x.puts rd v (statusAdd true x.status (x.rg ra) k v false))) ∧
  (∀ (c : Fin 4) (w : Word) (rd : Nat) (ra : Nat) (k : Word), s.dev.runs c w = true → decodeW w = .logi .and rd ra k →
      Does (.coreAndi c w) s fun d => (s.dev.computes d c w fun x => x.puts rd (x.rg ra &&& k) x.status)) ∧
  (∀ (c : Fin 4) (w : Word) (rd : Nat) (ra : Nat) (k : Word), s.dev.runs c w = true → decodeW w = .logi .or rd ra k →
      Does (.coreOri c w) s fun d => (s.dev.computes d c w fun x => x.puts rd (x.rg ra ||| k) x.status)) ∧
  (∀ (c : Fin 4) (w : Word) (rd : Nat) (ra : Nat) (k : Word), s.dev.runs c w = true → decodeW w = .logi .xor rd ra k →
      Does (.coreXori c w) s fun d => (s.dev.computes d c w fun x => x.puts rd (x.rg ra ^^^ k) x.status)) ∧
  (∀ (c : Fin 4) (w : Word) (ra : Nat) (k : Word), s.dev.runs c w = true → decodeW w = .cmpi ra k →
      Does (.coreCmpi c w) s fun d =>
      (s.dev.computes d c w fun x => ({ x with status := statusSub true x.status (x.rg ra) k (x.rg ra - k) false } : CoreSt))) ∧
  (∀ (c : Fin 4) (w : Word) (f : Bool) (rd : Nat) (ra : Nat) (n : Nat), s.dev.runs c w = true → decodeW w = .shi .sll f rd ra n →
      Does (.coreSlli c w) s fun d =>
      (s.dev.computes d c w fun x => let v : Word := x.rg ra <<< n; x.puts rd v (statusShift f x.status v n (decide (n ≤ 32) && (x.rg ra).toNat.testBit (32 - n))))) ∧
  (∀ (c : Fin 4) (w : Word) (f : Bool) (rd : Nat) (ra : Nat) (n : Nat), s.dev.runs c w = true → decodeW w = .shi .srl f rd ra n →
      Does (.coreSrli c w) s fun d =>
      (s.dev.computes d c w fun x => let v : Word := x.rg ra >>> n; x.puts rd v (statusShift f x.status v n (decide (n ≤ 32) && (x.rg ra).toNat.testBit (n - 1))))) ∧
  (∀ (c : Fin 4) (w : Word) (f : Bool) (rd : Nat) (ra : Nat) (n : Nat), s.dev.runs c w = true → decodeW w = .shi .sra f rd ra n →
      Does (.coreSrai c w) s fun d =>
      (s.dev.computes d c w fun x => let v : Word := (x.rg ra).sshiftRight n; x.puts rd v (statusShift f x.status v n (decide (n ≤ 32) && (x.rg ra).toNat.testBit (n - 1))))) ∧
  (∀ (c : Fin 4) (w : Word) (f : Bool) (rd : Nat) (ra : Nat) (n : Nat), s.dev.runs c w = true → decodeW w = .shi .ror f rd ra n →
      Does (.coreRori c w) s fun d =>
      (s.dev.computes d c w fun x => let v : Word := (x.rg ra).rotateRight (n % 32); x.puts rd v (statusShift f x.status v n (v.msb)))) ∧
  (∀ (c : Fin 4) (w : Word) (rd : Nat) (k : Word), s.dev.runs c w = true → decodeW w = .lui rd k → Does (.coreLui c w) s fun d =>
      (s.dev.computes d c w fun x => x.puts rd k x.status)) ∧
  (∀ (c : Fin 4) (w : Word) (rd : Nat) (k : Word), s.dev.runs c w = true → decodeW w = .addpc rd k →
      Does (.coreAddpc c w) s fun d => (s.dev.computes d c w fun x => x.puts rd (x.pc + k) x.status))

/-- For every core that can issue a word of one of these instructions: the destination is written with the product, the quotient truncated toward zero or the remainder with the sign of the dividend, the saturated result, the bit operation or the bit field; V is 1 for the overflow of 0x80000000 / -1 and 0 for any other divide; DZ sets for a zero divisor, whose results are all ones or the dividend; Q sets where a result is limited; no other flag changes; the PC goes on and nothing else of the machine changes. With DZT = 1 and a zero divisor, at KERNEL with a valid frame, DIVZ is entered after the instruction with the PC of the next instruction saved. Where a clause rests on a reading or a choice of the model, it is the model's and not the spec's: log entries 13, 86 and 87. -/
def Obligations.CoreMulDivSat : Prop :=
  ∀ s : State,
  (∀ (c : Fin 4) (w : Word) (rd : Nat) (ra : Nat) (rb : Nat), s.dev.runs c w = true → decodeW w = .mul .mul rd ra rb →
      Does (.coreMul c w) s fun d => (s.dev.computes d c w fun x => x.puts rd (x.rg ra * x.rg rb) x.status)) ∧
  (∀ (c : Fin 4) (w : Word) (rd : Nat) (ra : Nat) (rb : Nat), s.dev.runs c w = true → decodeW w = .mul .mulh rd ra rb →
      Does (.coreMulh c w) s fun d =>
      (s.dev.computes d c w fun x => x.puts rd (BitVec.ofInt 32 ((x.rg ra).toInt * (x.rg rb).toInt / 2 ^ 32)) x.status)) ∧
  (∀ (c : Fin 4) (w : Word) (rd : Nat) (ra : Nat) (rb : Nat), s.dev.runs c w = true → decodeW w = .mul .mulhu rd ra rb →
      Does (.coreMulhu c w) s fun d =>
      (s.dev.computes d c w fun x => x.puts rd (BitVec.ofNat 32 ((x.rg ra).toNat * (x.rg rb).toNat / 2 ^ 32)) x.status)) ∧
  (∀ (c : Fin 4) (w : Word) (rd : Nat) (ra : Nat) (rb : Nat), s.dev.runs c w = true → decodeW w = .mul .mulhsu rd ra rb →
      Does (.coreMulhsu c w) s fun d =>
      (s.dev.computes d c w fun x => x.puts rd (BitVec.ofInt 32 ((x.rg ra).toInt * ((x.rg rb).toNat : Int) / 2 ^ 32)) x.status)) ∧
  (∀ (c : Fin 4) (w : Word) (rd : Nat) (ra : Nat) (rb : Nat), s.dev.runs c w = true → decodeW w = .mul .mac rd ra rb →
      Does (.coreMac c w) s fun d => (s.dev.computes d c w fun x => x.puts rd (x.rg rd + x.rg ra * x.rg rb) x.status)) ∧
  (∀ (c : Fin 4) (w : Word) (rd : Nat) (ra : Nat) (rb : Nat), s.dev.runs c w = true → decodeW w = .mul .msu rd ra rb →
      Does (.coreMsu c w) s fun d => (s.dev.computes d c w fun x => x.puts rd (x.rg rd - x.rg ra * x.rg rb) x.status)) ∧
  (∀ (c : Fin 4) (w : Word) (rd : Nat) (ra : Nat) (rb : Nat), s.dev.runs c w = true → decodeW w = .div .div rd ra rb →
      ((s.dev.fetched c w).core c).rg rb ≠ 0 → Does (.coreDiv c w) s fun d =>
      (s.dev.computes d c w fun x => x.puts rd ((x.rg ra).sdiv (x.rg rb)) (withBits x.status [(19, decide (x.rg ra = 0x80000000#32 ∧
      x.rg rb = 0xFFFFFFFF#32))]))) ∧
  (∀ (c : Fin 4) (w : Word) (rd : Nat) (ra : Nat) (rb : Nat), s.dev.runs c w = true → decodeW w = .div .div rd ra rb →
      ((s.dev.fetched c w).core c).rg rb = 0 → wordBit (s.dev.core c).status 9 = true → (s.dev.fetched c w).canEnter c 9 = true →
      Does (.coreDiv c w) s fun d =>
      (s.dev.trapsAfter d c w 9 0 fun x => x.puts rd (0xFFFFFFFF#32) (withBits x.status [(19, false), (8, true)]))) ∧
  (∀ (c : Fin 4) (w : Word) (rd : Nat) (ra : Nat) (rb : Nat), s.dev.runs c w = true → decodeW w = .div .div rd ra rb →
      ((s.dev.fetched c w).core c).rg rb = 0 → wordBit (s.dev.core c).status 9 = false → Does (.coreDiv c w) s fun d =>
      (s.dev.computes d c w fun x => x.puts rd (0xFFFFFFFF#32) (withBits x.status [(19, false), (8, true)]))) ∧
  (∀ (c : Fin 4) (w : Word) (rd : Nat) (ra : Nat) (rb : Nat), s.dev.runs c w = true → decodeW w = .div .divu rd ra rb →
      ((s.dev.fetched c w).core c).rg rb ≠ 0 → Does (.coreDivu c w) s fun d =>
      (s.dev.computes d c w fun x => x.puts rd (x.rg ra / x.rg rb) (withBits x.status [(19, false)]))) ∧
  (∀ (c : Fin 4) (w : Word) (rd : Nat) (ra : Nat) (rb : Nat), s.dev.runs c w = true → decodeW w = .div .divu rd ra rb →
      ((s.dev.fetched c w).core c).rg rb = 0 → wordBit (s.dev.core c).status 9 = true → (s.dev.fetched c w).canEnter c 9 = true →
      Does (.coreDivu c w) s fun d =>
      (s.dev.trapsAfter d c w 9 0 fun x => x.puts rd (0xFFFFFFFF#32) (withBits x.status [(19, false), (8, true)]))) ∧
  (∀ (c : Fin 4) (w : Word) (rd : Nat) (ra : Nat) (rb : Nat), s.dev.runs c w = true → decodeW w = .div .divu rd ra rb →
      ((s.dev.fetched c w).core c).rg rb = 0 → wordBit (s.dev.core c).status 9 = false → Does (.coreDivu c w) s fun d =>
      (s.dev.computes d c w fun x => x.puts rd (0xFFFFFFFF#32) (withBits x.status [(19, false), (8, true)]))) ∧
  (∀ (c : Fin 4) (w : Word) (rd : Nat) (ra : Nat) (rb : Nat), s.dev.runs c w = true → decodeW w = .div .rem rd ra rb →
      ((s.dev.fetched c w).core c).rg rb ≠ 0 → Does (.coreRem c w) s fun d =>
      (s.dev.computes d c w fun x => x.puts rd ((x.rg ra).srem (x.rg rb)) (withBits x.status [(19, decide (x.rg ra = 0x80000000#32 ∧
      x.rg rb = 0xFFFFFFFF#32))]))) ∧
  (∀ (c : Fin 4) (w : Word) (rd : Nat) (ra : Nat) (rb : Nat), s.dev.runs c w = true → decodeW w = .div .rem rd ra rb →
      ((s.dev.fetched c w).core c).rg rb = 0 → wordBit (s.dev.core c).status 9 = true → (s.dev.fetched c w).canEnter c 9 = true →
      Does (.coreRem c w) s fun d =>
      (s.dev.trapsAfter d c w 9 0 fun x => x.puts rd (x.rg ra) (withBits x.status [(19, false), (8, true)]))) ∧
  (∀ (c : Fin 4) (w : Word) (rd : Nat) (ra : Nat) (rb : Nat), s.dev.runs c w = true → decodeW w = .div .rem rd ra rb →
      ((s.dev.fetched c w).core c).rg rb = 0 → wordBit (s.dev.core c).status 9 = false → Does (.coreRem c w) s fun d =>
      (s.dev.computes d c w fun x => x.puts rd (x.rg ra) (withBits x.status [(19, false), (8, true)]))) ∧
  (∀ (c : Fin 4) (w : Word) (rd : Nat) (ra : Nat) (rb : Nat), s.dev.runs c w = true → decodeW w = .div .remu rd ra rb →
      ((s.dev.fetched c w).core c).rg rb ≠ 0 → Does (.coreRemu c w) s fun d =>
      (s.dev.computes d c w fun x => x.puts rd (x.rg ra % x.rg rb) (withBits x.status [(19, false)]))) ∧
  (∀ (c : Fin 4) (w : Word) (rd : Nat) (ra : Nat) (rb : Nat), s.dev.runs c w = true → decodeW w = .div .remu rd ra rb →
      ((s.dev.fetched c w).core c).rg rb = 0 → wordBit (s.dev.core c).status 9 = true → (s.dev.fetched c w).canEnter c 9 = true →
      Does (.coreRemu c w) s fun d =>
      (s.dev.trapsAfter d c w 9 0 fun x => x.puts rd (x.rg ra) (withBits x.status [(19, false), (8, true)]))) ∧
  (∀ (c : Fin 4) (w : Word) (rd : Nat) (ra : Nat) (rb : Nat), s.dev.runs c w = true → decodeW w = .div .remu rd ra rb →
      ((s.dev.fetched c w).core c).rg rb = 0 → wordBit (s.dev.core c).status 9 = false → Does (.coreRemu c w) s fun d =>
      (s.dev.computes d c w fun x => x.puts rd (x.rg ra) (withBits x.status [(19, false), (8, true)]))) ∧
  (∀ (c : Fin 4) (w : Word) (rd : Nat) (ra : Nat) (rb : Nat), s.dev.runs c w = true → decodeW w = .sat .qadd rd ra rb →
      Does (.coreQadd c w) s fun d =>
      (s.dev.computes d c w fun x => let i : Int := (x.rg ra).toInt + (x.rg rb).toInt; x.puts rd (BitVec.ofInt 32 (max (-(2 ^ 31)) (min i (2 ^ 31 - 1)))) (if i < -(2 ^ 31) ∨ 2 ^ 31 - 1 < i then withBits x.status [(20, true)] else x.status))) ∧
  (∀ (c : Fin 4) (w : Word) (rd : Nat) (ra : Nat) (rb : Nat), s.dev.runs c w = true → decodeW w = .sat .qsub rd ra rb →
      Does (.coreQsub c w) s fun d =>
      (s.dev.computes d c w fun x => let i : Int := (x.rg ra).toInt - (x.rg rb).toInt; x.puts rd (BitVec.ofInt 32 (max (-(2 ^ 31)) (min i (2 ^ 31 - 1)))) (if i < -(2 ^ 31) ∨ 2 ^ 31 - 1 < i then withBits x.status [(20, true)] else x.status))) ∧
  (∀ (c : Fin 4) (w : Word) (rd : Nat) (ra : Nat) (rb : Nat), s.dev.runs c w = true → decodeW w = .sat .qaddu rd ra rb →
      Does (.coreQaddu c w) s fun d =>
      (s.dev.computes d c w fun x => let i : Int := ((x.rg ra).toNat : Int) + ((x.rg rb).toNat : Int); x.puts rd (BitVec.ofInt 32 (max (0) (min i (2 ^ 32 - 1)))) (if i < 0 ∨ 2 ^ 32 - 1 < i then withBits x.status [(20, true)] else x.status))) ∧
  (∀ (c : Fin 4) (w : Word) (rd : Nat) (ra : Nat) (rb : Nat), s.dev.runs c w = true → decodeW w = .sat .qsubu rd ra rb →
      Does (.coreQsubu c w) s fun d =>
      (s.dev.computes d c w fun x => let i : Int := ((x.rg ra).toNat : Int) - ((x.rg rb).toNat : Int); x.puts rd (BitVec.ofInt 32 (max (0) (min i (2 ^ 32 - 1)))) (if i < 0 ∨ 2 ^ 32 - 1 < i then withBits x.status [(20, true)] else x.status))) ∧
  (∀ (c : Fin 4) (w : Word) (rd : Nat) (ra : Nat) (rb : Nat), s.dev.runs c w = true → decodeW w = .sat .qneg rd ra rb →
      Does (.coreQneg c w) s fun d =>
      (s.dev.computes d c w fun x => let i : Int := -(x.rg ra).toInt; x.puts rd (BitVec.ofInt 32 (max (-(2 ^ 31)) (min i (2 ^ 31 - 1)))) (if i < -(2 ^ 31) ∨ 2 ^ 31 - 1 < i then withBits x.status [(20, true)] else x.status))) ∧
  (∀ (c : Fin 4) (w : Word) (rd : Nat) (ra : Nat) (rb : Nat), s.dev.runs c w = true → decodeW w = .sat .qabs rd ra rb →
      Does (.coreQabs c w) s fun d =>
      (s.dev.computes d c w fun x => let i : Int := max (x.rg ra).toInt (-(x.rg ra).toInt); x.puts rd (BitVec.ofInt 32 (max (-(2 ^ 31)) (min i (2 ^ 31 - 1)))) (if i < -(2 ^ 31) ∨ 2 ^ 31 - 1 < i then withBits x.status [(20, true)] else x.status))) ∧
  (∀ (c : Fin 4) (w : Word) (rd : Nat) (ra : Nat) (rb : Nat), s.dev.runs c w = true → decodeW w = .sat .qdmulh rd ra rb →
      Does (.coreQdmulh c w) s fun d =>
      (s.dev.computes d c w fun x => let i : Int := 2 * (x.rg ra).toInt * (x.rg rb).toInt / 2 ^ 32; x.puts rd (BitVec.ofInt 32 (max (-(2 ^ 31)) (min i (2 ^ 31 - 1)))) (if i < -(2 ^ 31) ∨ 2 ^ 31 - 1 < i then withBits x.status [(20, true)] else x.status))) ∧
  (∀ (c : Fin 4) (w : Word) (rd : Nat) (ra : Nat) (rb : Nat), s.dev.runs c w = true → decodeW w = .sat .ssat rd ra rb →
      Does (.coreSsat c w) s fun d =>
      (s.dev.computes d c w fun x => let i : Int := (x.rg ra).toInt; x.puts rd (BitVec.ofInt 32 (max (-(2 ^ rb : Int)) (min i ((2 ^ rb : Int) - 1)))) (if i < -(2 ^ rb : Int) ∨ (2 ^ rb : Int) - 1 < i then withBits x.status [(20, true)] else x.status))) ∧
  (∀ (c : Fin 4) (w : Word) (rd : Nat) (ra : Nat) (rb : Nat), s.dev.runs c w = true → decodeW w = .sat .usat rd ra rb →
      Does (.coreUsat c w) s fun d =>
      (s.dev.computes d c w fun x => let i : Int := (x.rg ra).toInt; x.puts rd (BitVec.ofInt 32 (max (0) (min i ((2 ^ rb : Int) - 1)))) (if i < 0 ∨ (2 ^ rb : Int) - 1 < i then withBits x.status [(20, true)] else x.status))) ∧
  (∀ (c : Fin 4) (w : Word) (rd : Nat) (ra : Nat), s.dev.runs c w = true → decodeW w = .bit .clz rd ra →
      Does (.coreClz c w) s fun d =>
      (s.dev.computes d c w fun x => x.puts rd (BitVec.ofNat 32 (if x.rg ra = 0 then 32 else 31 - (x.rg ra).toNat.log2)) x.status)) ∧
  (∀ (c : Fin 4) (w : Word) (rd : Nat) (ra : Nat), s.dev.runs c w = true → decodeW w = .bit .ctz rd ra →
      Does (.coreCtz c w) s fun d =>
      (s.dev.computes d c w fun x => x.puts rd (BitVec.ofNat 32 (((List.range 32).find? fun i => (x.rg ra).toNat.testBit i).getD 32)) x.status)) ∧
  (∀ (c : Fin 4) (w : Word) (rd : Nat) (ra : Nat), s.dev.runs c w = true → decodeW w = .bit .popc rd ra →
      Does (.corePopc c w) s fun d =>
      (s.dev.computes d c w fun x => x.puts rd (BitVec.ofNat 32 ((List.range 32).filter fun i => (x.rg ra).toNat.testBit i).length) x.status)) ∧
  (∀ (c : Fin 4) (w : Word) (rd : Nat) (ra : Nat), s.dev.runs c w = true → decodeW w = .bit .rev rd ra →
      Does (.coreRev c w) s fun d =>
      (s.dev.computes d c w fun x => x.puts rd ((x.rg ra <<< 24) ||| ((x.rg ra &&& 0xFF00) <<< 8) ||| ((x.rg ra >>> 8) &&& 0xFF00) ||| (x.rg ra >>> 24)) x.status)) ∧
  (∀ (c : Fin 4) (w : Word) (rd : Nat) (ra : Nat), s.dev.runs c w = true → decodeW w = .bit .rev16 rd ra →
      Does (.coreRev16 c w) s fun d =>
      (s.dev.computes d c w fun x => x.puts rd (((x.rg ra &&& 0x00FF00FF) <<< 8) ||| ((x.rg ra >>> 8) &&& 0x00FF00FF)) x.status)) ∧
  (∀ (c : Fin 4) (w : Word) (rd : Nat) (ra : Nat), s.dev.runs c w = true → decodeW w = .bit .sextb rd ra →
      Does (.coreSextb c w) s fun d => (s.dev.computes d c w fun x => x.puts rd (((x.rg ra).setWidth 8).signExtend 32) x.status)) ∧
  (∀ (c : Fin 4) (w : Word) (rd : Nat) (ra : Nat), s.dev.runs c w = true → decodeW w = .bit .sexth rd ra →
      Does (.coreSexth c w) s fun d => (s.dev.computes d c w fun x => x.puts rd (((x.rg ra).setWidth 16).signExtend 32) x.status)) ∧
  (∀ (c : Fin 4) (w : Word) (rd : Nat) (ra : Nat), s.dev.runs c w = true → decodeW w = .bit .zextb rd ra →
      Does (.coreZextb c w) s fun d => (s.dev.computes d c w fun x => x.puts rd (x.rg ra &&& 0xFF) x.status)) ∧
  (∀ (c : Fin 4) (w : Word) (rd : Nat) (ra : Nat), s.dev.runs c w = true → decodeW w = .bit .zexth rd ra →
      Does (.coreZexth c w) s fun d => (s.dev.computes d c w fun x => x.puts rd (x.rg ra &&& 0xFFFF) x.status)) ∧
  (∀ (c : Fin 4) (w : Word) (n : Nat) (p : Nat) (rd : Nat) (ra : Nat), s.dev.runs c w = true → decodeW w = .bf .extu n p rd ra →
      Does (.coreExtu c w) s fun d =>
      (s.dev.computes d c w fun x => x.puts rd ((x.rg ra >>> p) &&& BitVec.ofNat 32 (2 ^ n - 1)) x.status)) ∧
  (∀ (c : Fin 4) (w : Word) (n : Nat) (p : Nat) (rd : Nat) (ra : Nat), s.dev.runs c w = true → decodeW w = .bf .exts n p rd ra →
      Does (.coreExts c w) s fun d =>
      (s.dev.computes d c w fun x => x.puts rd (((x.rg ra >>> p).setWidth n).signExtend 32) x.status)) ∧
  (∀ (c : Fin 4) (w : Word) (n : Nat) (p : Nat) (rd : Nat) (ra : Nat), s.dev.runs c w = true → decodeW w = .bf .ins n p rd ra →
      Does (.coreIns c w) s fun d =>
      (s.dev.computes d c w fun x => x.puts rd ((x.rg rd &&& ~~~(BitVec.ofNat 32 (2 ^ n - 1) <<< p)) ||| ((x.rg ra &&& BitVec.ofNat 32 (2 ^ n - 1)) <<< p)) x.status))

/-- For every core that can issue one of these words: an aligned and granted load of NORMAL memory writes its register, sign- or zero-extended, or its pair, from the little-endian bytes at the address its mode forms, after any update of the base register; a store enters the store buffer as one entry with its address, byte mask and data; an atomic operation reads the word, writes what R261 says and leaves the old word in rd; the PC goes on and nothing else changes; an ORDERED load of a split core stays in progress. A misaligned access raises ALIGN, one the MPU refuses MPU, an unmapped one BUSERR, and a USER access of a system register PRIVOP, each precisely with no register changed. Where a clause rests on a reading or a choice of the model, it is the model's and not the spec's: log entries 13, 84, 85, 86 and 162. -/
def Obligations.CoreLoadsStores : Prop :=
  ∀ s : State,
  (∀ (c : Fin 4) (w : Word) (rd : Nat) (ra : Nat) (k : Word) (a : Nat), s.dev.runs c w = true →
      decodeW w = .load true 0 (.disp k) rd ra false →
      (s.dev.fetched c w).loads c (((s.dev.fetched c w).core c).rg ra + k) (2 ^ 0) a = true → Does (.coreLdb c w) s fun d =>
      (s.dev.computes d c w fun x => x.getsG true 0 rd ((s.dev.fetched c w).le a (2 ^ 0)))) ∧
  (∀ (c : Fin 4) (w : Word) (rd : Nat) (ra : Nat) (k : Word) (a : Nat), s.dev.runs c w = true →
      decodeW w = .load false 0 (.disp k) rd ra false →
      (s.dev.fetched c w).loads c (((s.dev.fetched c w).core c).rg ra + k) (2 ^ 0) a = true → Does (.coreLdbu c w) s fun d =>
      (s.dev.computes d c w fun x => x.getsG false 0 rd ((s.dev.fetched c w).le a (2 ^ 0)))) ∧
  (∀ (c : Fin 4) (w : Word) (rd : Nat) (ra : Nat) (k : Word) (a : Nat), s.dev.runs c w = true →
      decodeW w = .load true 1 (.disp k) rd ra false →
      (s.dev.fetched c w).loads c (((s.dev.fetched c w).core c).rg ra + k) (2 ^ 1) a = true → Does (.coreLdh c w) s fun d =>
      (s.dev.computes d c w fun x => x.getsG true 1 rd ((s.dev.fetched c w).le a (2 ^ 1)))) ∧
  (∀ (c : Fin 4) (w : Word) (rd : Nat) (ra : Nat) (k : Word) (a : Nat), s.dev.runs c w = true →
      decodeW w = .load false 1 (.disp k) rd ra false →
      (s.dev.fetched c w).loads c (((s.dev.fetched c w).core c).rg ra + k) (2 ^ 1) a = true → Does (.coreLdhu c w) s fun d =>
      (s.dev.computes d c w fun x => x.getsG false 1 rd ((s.dev.fetched c w).le a (2 ^ 1)))) ∧
  (∀ (c : Fin 4) (w : Word) (rd : Nat) (ra : Nat) (k : Word) (a : Nat), s.dev.runs c w = true →
      decodeW w = .load false 2 (.disp k) rd ra false →
      (s.dev.fetched c w).loads c (((s.dev.fetched c w).core c).rg ra + k) (2 ^ 2) a = true → Does (.coreLdw c w) s fun d =>
      (s.dev.computes d c w fun x => x.getsG false 2 rd ((s.dev.fetched c w).le a (2 ^ 2)))) ∧
  (∀ (c : Fin 4) (w : Word) (rd : Nat) (ra : Nat) (k : Word) (a : Nat), s.dev.runs c w = true →
      decodeW w = .load false 3 (.disp k) rd ra false →
      (s.dev.fetched c w).loads c (((s.dev.fetched c w).core c).rg ra + k) (2 ^ 3) a = true → Does (.coreLdd c w) s fun d =>
      (s.dev.computes d c w fun x => x.getsG false 3 rd ((s.dev.fetched c w).le a (2 ^ 3)))) ∧
  (∀ (c : Fin 4) (w : Word) (sg : Bool) (z : Nat) (rd : Nat) (ra : Nat) (rb : Nat) (a : Nat), s.dev.runs c w = true →
      decodeW w = .load sg z (.idx rb) rd ra true →
      (s.dev.fetched c w).loads c (((s.dev.fetched c w).core c).rg ra + (((s.dev.fetched c w).core c).rg rb <<< z)) (2 ^ z) a = true →
      Does (.coreLdx c w) s fun d => (s.dev.computes d c w fun x => (x).getsG sg z rd ((s.dev.fetched c w).le a (2 ^ z)))) ∧
  (∀ (c : Fin 4) (w : Word) (z : Nat) (rs : Nat) (ra : Nat) (rb : Nat) (a : Nat), s.dev.runs c w = true →
      decodeW w = .store z (.idx rb) rs ra true →
      (s.dev.fetched c w).stores c (((s.dev.fetched c w).core c).rg ra + (((s.dev.fetched c w).core c).rg rb <<< z)) (2 ^ z) a = true →
      Does (.coreStx c w) s fun d =>
      (s.dev.computes d c w fun x => (x).buffers (x.rg ra + (x.rg rb <<< z)) (2 ^ z) a (x.gValue z rs))) ∧
  (∀ (c : Fin 4) (w : Word) (sg : Bool) (z : Nat) (rd : Nat) (ra : Nat) (rb : Nat) (a : Nat), s.dev.runs c w = true →
      decodeW w = .load sg z (.idxu rb) rd ra true →
      (s.dev.fetched c w).loads c (((s.dev.fetched c w).core c).rg ra + ((s.dev.fetched c w).core c).rg rb) (2 ^ z) a = true →
      Does (.coreLdx c w) s fun d => (s.dev.computes d c w fun x => (x).getsG sg z rd ((s.dev.fetched c w).le a (2 ^ z)))) ∧
  (∀ (c : Fin 4) (w : Word) (z : Nat) (rs : Nat) (ra : Nat) (rb : Nat) (a : Nat), s.dev.runs c w = true →
      decodeW w = .store z (.idxu rb) rs ra true →
      (s.dev.fetched c w).stores c (((s.dev.fetched c w).core c).rg ra + ((s.dev.fetched c w).core c).rg rb) (2 ^ z) a = true →
      Does (.coreStx c w) s fun d => (s.dev.computes d c w fun x => (x).buffers (x.rg ra + x.rg rb) (2 ^ z) a (x.gValue z rs))) ∧
  (∀ (c : Fin 4) (w : Word) (sg : Bool) (z : Nat) (rd : Nat) (ra : Nat) (k : Word) (a : Nat), s.dev.runs c w = true →
      decodeW w = .load sg z (.post k) rd ra true →
      (s.dev.fetched c w).loads c (((s.dev.fetched c w).core c).rg ra) (2 ^ z) a = true → Does (.coreLdx c w) s fun d =>
      (s.dev.computes d c w fun x => ((x.setG ra (x.rg ra + (k <<< z)))).getsG sg z rd ((s.dev.fetched c w).le a (2 ^ z)))) ∧
  (∀ (c : Fin 4) (w : Word) (z : Nat) (rs : Nat) (ra : Nat) (k : Word) (a : Nat), s.dev.runs c w = true →
      decodeW w = .store z (.post k) rs ra true →
      (s.dev.fetched c w).stores c (((s.dev.fetched c w).core c).rg ra) (2 ^ z) a = true → Does (.coreStx c w) s fun d =>
      (s.dev.computes d c w fun x => ((x.setG ra (x.rg ra + (k <<< z)))).buffers (x.rg ra) (2 ^ z) a (x.gValue z rs))) ∧
  (∀ (c : Fin 4) (w : Word) (sg : Bool) (z : Nat) (rd : Nat) (ra : Nat) (k : Word) (a : Nat), s.dev.runs c w = true →
      decodeW w = .load sg z (.pre k) rd ra true →
      (s.dev.fetched c w).loads c (((s.dev.fetched c w).core c).rg ra + (k <<< z)) (2 ^ z) a = true →
      Does (.coreLdx c w) s fun d =>
      (s.dev.computes d c w fun x => ((x.setG ra (x.rg ra + (k <<< z)))).getsG sg z rd ((s.dev.fetched c w).le a (2 ^ z)))) ∧
  (∀ (c : Fin 4) (w : Word) (z : Nat) (rs : Nat) (ra : Nat) (k : Word) (a : Nat), s.dev.runs c w = true →
      decodeW w = .store z (.pre k) rs ra true →
      (s.dev.fetched c w).stores c (((s.dev.fetched c w).core c).rg ra + (k <<< z)) (2 ^ z) a = true →
      Does (.coreStx c w) s fun d =>
      (s.dev.computes d c w fun x => ((x.setG ra (x.rg ra + (k <<< z)))).buffers (x.rg ra + (k <<< z)) (2 ^ z) a (x.gValue z rs))) ∧
  (∀ (c : Fin 4) (w : Word) (sg : Bool) (z : Nat) (rd : Nat) (ra : Nat) (rb : Nat) (a : Nat), s.dev.runs c w = true →
      decodeW w = .load sg z (.postr rb) rd ra true →
      (s.dev.fetched c w).loads c (((s.dev.fetched c w).core c).rg ra) (2 ^ z) a = true → Does (.coreLdx c w) s fun d =>
      (s.dev.computes d c w fun x => ((x.setG ra (x.rg ra + x.rg rb))).getsG sg z rd ((s.dev.fetched c w).le a (2 ^ z)))) ∧
  (∀ (c : Fin 4) (w : Word) (z : Nat) (rs : Nat) (ra : Nat) (rb : Nat) (a : Nat), s.dev.runs c w = true →
      decodeW w = .store z (.postr rb) rs ra true →
      (s.dev.fetched c w).stores c (((s.dev.fetched c w).core c).rg ra) (2 ^ z) a = true → Does (.coreStx c w) s fun d =>
      (s.dev.computes d c w fun x => ((x.setG ra (x.rg ra + x.rg rb))).buffers (x.rg ra) (2 ^ z) a (x.gValue z rs))) ∧
  (∀ (c : Fin 4) (w : Word) (sg : Bool) (z : Nat) (rd : Nat) (ra : Nat) (k : Word) (a : Nat), s.dev.runs c w = true →
      decodeW w = .load sg z (.bank k) rd ra true →
      (s.dev.fetched c w).loads c (BitVec.ofNat 32 ((((s.dev.fetched c w).core c).sf CORE.BANK 15 0) * 0x10000) ||| ((((s.dev.fetched c w).core c).rg ra + (k <<< z)) &&& 0xFFFF)) (2 ^ z) a = true →
      Does (.coreLdx c w) s fun d => (s.dev.computes d c w fun x => (x).getsG sg z rd ((s.dev.fetched c w).le a (2 ^ z)))) ∧
  (∀ (c : Fin 4) (w : Word) (z : Nat) (rs : Nat) (ra : Nat) (k : Word) (a : Nat), s.dev.runs c w = true →
      decodeW w = .store z (.bank k) rs ra true →
      (s.dev.fetched c w).stores c (BitVec.ofNat 32 ((((s.dev.fetched c w).core c).sf CORE.BANK 15 0) * 0x10000) ||| ((((s.dev.fetched c w).core c).rg ra + (k <<< z)) &&& 0xFFFF)) (2 ^ z) a = true →
      Does (.coreStx c w) s fun d =>
      (s.dev.computes d c w fun x => (x).buffers (BitVec.ofNat 32 ((x.sf CORE.BANK 15 0) * 0x10000) ||| ((x.rg ra + (k <<< z)) &&& 0xFFFF)) (2 ^ z) a (x.gValue z rs))) ∧
  (∀ (c : Fin 4) (w : Word) (rs : Nat) (ra : Nat) (k : Word) (a : Nat), s.dev.runs c w = true →
      decodeW w = .store 0 (.disp k) rs ra false →
      (s.dev.fetched c w).stores c (((s.dev.fetched c w).core c).rg ra + k) 1 a = true → Does (.coreStb c w) s fun d =>
      (s.dev.computes d c w fun x => x.buffers (x.rg ra + k) 1 a (x.gValue 0 rs))) ∧
  (∀ (c : Fin 4) (w : Word) (rs : Nat) (ra : Nat) (k : Word) (a : Nat), s.dev.runs c w = true →
      decodeW w = .store 1 (.disp k) rs ra false →
      (s.dev.fetched c w).stores c (((s.dev.fetched c w).core c).rg ra + k) 2 a = true → Does (.coreSth c w) s fun d =>
      (s.dev.computes d c w fun x => x.buffers (x.rg ra + k) 2 a (x.gValue 1 rs))) ∧
  (∀ (c : Fin 4) (w : Word) (rs : Nat) (ra : Nat) (k : Word) (a : Nat), s.dev.runs c w = true →
      decodeW w = .store 2 (.disp k) rs ra false →
      (s.dev.fetched c w).stores c (((s.dev.fetched c w).core c).rg ra + k) 4 a = true → Does (.coreStw c w) s fun d =>
      (s.dev.computes d c w fun x => x.buffers (x.rg ra + k) 4 a (x.gValue 2 rs))) ∧
  (∀ (c : Fin 4) (w : Word) (rs : Nat) (ra : Nat) (k : Word) (a : Nat), s.dev.runs c w = true →
      decodeW w = .store 3 (.disp k) rs ra false →
      (s.dev.fetched c w).stores c (((s.dev.fetched c w).core c).rg ra + k) 8 a = true → Does (.coreStd c w) s fun d =>
      (s.dev.computes d c w fun x => x.buffers (x.rg ra + k) 8 a (x.gValue 3 rs))) ∧
  (∀ (c : Fin 4) (w : Word) (rs : Nat) (ra : Nat) (k : Word) (p : Nat) (q : SbEntry) (t : List SbEntry), s.dev.runs c w = true →
      decodeW w = .store 2 (.disp k) rs ra false → (s.dev.fetched c w).lockstep c = false →
      ((s.dev.fetched c w).core c).sb = q :: t → t.length = 7 → (((s.dev.fetched c w).core c).rg ra + k).toNat % 4 = 0 →
      ((s.dev.fetched c w).core c).mpuGrants (((s.dev.fetched c w).core c).rg ra + k) 2 = true →
      ((s.dev.fetched c w).place c (((s.dev.fetched c w).core c).rg ra + k) = .normal p ∨ (s.dev.fetched c w).place c (((s.dev.fetched c w).core c).rg ra + k) = .ownTcm p) →
      (s.dev.fetched c w).sbAccepts c q = true → Does (.coreStw c w) s fun d => ((∃ y, (d.core c).sb = t ++ [y] ∧
      y.core = ((s.dev.fetched c w).core c).rg ra + k ∧ y.addr = p - p % 8) ∧
      (d.core c).retired = ((s.dev.fetched c w).core c).retired + 1)) ∧
  (∀ (c : Fin 4) (w : Word) (rd : Nat) (ra : Nat) (rb : Nat) (a : Nat), s.dev.runs c w = true → decodeW w = .amo .swap rd ra rb →
      (s.dev.fetched c w).atomics c (((s.dev.fetched c w).core c).rg ra) a = true → Does (.coreAmoswap c w) s fun d =>
      (let e := (s.dev.fetched c w); let x := e.core c; e.swaps d c a (some (x.rg rb)) ((x.setG rd (BitVec.ofNat 32 (e.le a 4))).thenNext 4))) ∧
  (∀ (c : Fin 4) (w : Word) (rd : Nat) (ra : Nat) (rb : Nat) (a : Nat), s.dev.runs c w = true → decodeW w = .amo .add rd ra rb →
      (s.dev.fetched c w).atomics c (((s.dev.fetched c w).core c).rg ra) a = true → Does (.coreAmoadd c w) s fun d =>
      (let e := (s.dev.fetched c w); let x := e.core c; e.swaps d c a (some (BitVec.ofNat 32 (e.le a 4) + x.rg rb)) ((x.setG rd (BitVec.ofNat 32 (e.le a 4))).thenNext 4))) ∧
  (∀ (c : Fin 4) (w : Word) (rd : Nat) (ra : Nat) (rb : Nat) (a : Nat), s.dev.runs c w = true → decodeW w = .amo .cas rd ra rb →
      (s.dev.fetched c w).atomics c (((s.dev.fetched c w).core c).rg ra) a = true → Does (.coreAmocas c w) s fun d =>
      (let e := (s.dev.fetched c w); let x := e.core c; e.swaps d c a (if BitVec.ofNat 32 (e.le a 4) = x.rg rd then some (x.rg rb) else none) ((x.setG rd (BitVec.ofNat 32 (e.le a 4))).thenNext 4))) ∧
  (∀ (c : Fin 4) (w : Word) (rd : Nat) (ra : Nat) (k : Word), s.dev.runs c w = true →
      decodeW w = .load false 2 (.disp k) rd ra false →
      (s.dev.fetched c w).privAccess c { addr := (((s.dev.fetched c w).core c).rg ra + k), len := 4 } = false →
      (((s.dev.fetched c w).core c).rg ra + k).toNat % 4 ≠ 0 → (s.dev.fetched c w).canEnter c 5 = true →
      Does (.coreLdw c w) s fun d => s.dev.traps d c w 5 1 ((((s.dev.fetched c w).core c).rg ra + k))) ∧
  (∀ (c : Fin 4) (w : Word) (rd : Nat) (ra : Nat) (k : Word), s.dev.runs c w = true →
      decodeW w = .load false 2 (.disp k) rd ra false →
      (s.dev.fetched c w).privAccess c { addr := (((s.dev.fetched c w).core c).rg ra + k), len := 4 } = false →
      (((s.dev.fetched c w).core c).rg ra + k).toNat % 4 = 0 →
      ((s.dev.fetched c w).core c).mpuGrants (((s.dev.fetched c w).core c).rg ra + k) 1 = false →
      (s.dev.fetched c w).canEnter c 7 = true → Does (.coreLdw c w) s fun d =>
      s.dev.traps d c w 7 1 ((((s.dev.fetched c w).core c).rg ra + k))) ∧
  (∀ (c : Fin 4) (w : Word) (rd : Nat) (ra : Nat) (k : Word), s.dev.runs c w = true →
      decodeW w = .load false 2 (.disp k) rd ra false →
      (s.dev.fetched c w).place c (((s.dev.fetched c w).core c).rg ra + k) = .absent →
      (((s.dev.fetched c w).core c).rg ra + k).toNat % 4 = 0 →
      ((s.dev.fetched c w).core c).mpuGrants (((s.dev.fetched c w).core c).rg ra + k) 1 = true →
      (s.dev.fetched c w).canEnter c 6 = true → Does (.coreLdw c w) s fun d =>
      s.dev.traps d c w 6 1 ((((s.dev.fetched c w).core c).rg ra + k))) ∧
  (∀ (c : Fin 4) (w : Word) (rd : Nat) (ra : Nat) (k : Word) (o : Nat), s.dev.runs c w = true →
      decodeW w = .load false 2 (.disp k) rd ra false →
      (s.dev.fetched c w).place c (((s.dev.fetched c w).core c).rg ra + k) = .sysReg o →
      ((s.dev.fetched c w).core c).sysPrivate o = true → (s.dev.fetched c w).canEnter c 3 = true → Does (.coreLdw c w) s fun d =>
      s.dev.traps d c w 3 0 (shownWord w)) ∧
  (∀ (c : Fin 4) (w : Word) (rd : Nat) (ra : Nat) (k : Word) (p : Nat), s.dev.runs c w = true →
      decodeW w = .load false 2 (.disp k) rd ra false →
      (s.dev.fetched c w).place c (((s.dev.fetched c w).core c).rg ra + k) = .ordered p →
      (((s.dev.fetched c w).core c).rg ra + k).toNat % 4 = 0 →
      ((s.dev.fetched c w).core c).mpuGrants (((s.dev.fetched c w).core c).rg ra + k) 1 = true →
      ((s.dev.fetched c w).core c).sb = [] → Does (.coreLdw c w) s fun d =>
      (s.dev.fetched c w).becomes d c { ((s.dev.fetched c w).core c) with req := some { addr := (((s.dev.fetched c w).core c).rg ra + k), len := 4, dest := .g rd false 2, ilen := wordLen w, since := s.dev.now } }) ∧
  (∀ (c : Fin 4) (w : Word) (rd : Nat) (ra : Nat) (k : Word), s.dev.runs c w = true →
      decodeW w = .store 2 (.disp k) rd ra false →
      (s.dev.fetched c w).privAccess c { addr := (((s.dev.fetched c w).core c).rg ra + k), len := 4 } = false →
      (((s.dev.fetched c w).core c).rg ra + k).toNat % 4 ≠ 0 → (s.dev.fetched c w).canEnter c 5 = true →
      Does (.coreStw c w) s fun d => s.dev.traps d c w 5 2 ((((s.dev.fetched c w).core c).rg ra + k))) ∧
  (∀ (c : Fin 4) (w : Word) (rd : Nat) (ra : Nat) (k : Word), s.dev.runs c w = true →
      decodeW w = .store 2 (.disp k) rd ra false →
      (s.dev.fetched c w).privAccess c { addr := (((s.dev.fetched c w).core c).rg ra + k), len := 4 } = false →
      (((s.dev.fetched c w).core c).rg ra + k).toNat % 4 = 0 →
      ((s.dev.fetched c w).core c).mpuGrants (((s.dev.fetched c w).core c).rg ra + k) 2 = false →
      (s.dev.fetched c w).canEnter c 7 = true → Does (.coreStw c w) s fun d =>
      s.dev.traps d c w 7 2 ((((s.dev.fetched c w).core c).rg ra + k))) ∧
  (∀ (c : Fin 4) (w : Word) (rd : Nat) (ra : Nat) (k : Word), s.dev.runs c w = true →
      decodeW w = .store 2 (.disp k) rd ra false →
      (s.dev.fetched c w).place c (((s.dev.fetched c w).core c).rg ra + k) = .absent →
      (((s.dev.fetched c w).core c).rg ra + k).toNat % 4 = 0 →
      ((s.dev.fetched c w).core c).mpuGrants (((s.dev.fetched c w).core c).rg ra + k) 2 = true →
      (s.dev.fetched c w).canEnter c 6 = true → Does (.coreStw c w) s fun d =>
      s.dev.traps d c w 6 2 ((((s.dev.fetched c w).core c).rg ra + k))) ∧
  (∀ (c : Fin 4) (w : Word) (rd : Nat) (ra : Nat) (k : Word) (o : Nat), s.dev.runs c w = true →
      decodeW w = .store 2 (.disp k) rd ra false →
      (s.dev.fetched c w).place c (((s.dev.fetched c w).core c).rg ra + k) = .sysReg o →
      ((s.dev.fetched c w).core c).sysPrivate o = true → (s.dev.fetched c w).canEnter c 3 = true → Does (.coreStw c w) s fun d =>
      s.dev.traps d c w 3 0 (shownWord w)) ∧
  (∀ (c : Fin 4) (w : Word) (rd : Nat) (ra : Nat) (k : Word) (p : Nat), s.dev.runs c w = true →
      decodeW w = .store 2 (.disp k) rd ra false →
      (s.dev.fetched c w).place c (((s.dev.fetched c w).core c).rg ra + k) = .ordered p →
      (((s.dev.fetched c w).core c).rg ra + k).toNat % 4 = 0 →
      ((s.dev.fetched c w).core c).mpuGrants (((s.dev.fetched c w).core c).rg ra + k) 2 = true →
      ((s.dev.fetched c w).core c).sb = [] → Does (.coreStw c w) s fun d =>
      (s.dev.fetched c w).becomes d c { ((s.dev.fetched c w).core c) with req := some { addr := (((s.dev.fetched c w).core c).rg ra + k), len := 4, data := some (BitVec.ofNat 64 (((s.dev.fetched c w).core c).rg rd).toNat), ilen := wordLen w, since := s.dev.now } }) ∧
  (∀ (c : Fin 4) (w : Word) (rd : Nat) (ra : Nat) (rb : Nat) (p : Nat), s.dev.runs c w = true → decodeW w = .amo .add rd ra rb →
      (s.dev.fetched c w).place c (((s.dev.fetched c w).core c).rg ra) = .ordered p →
      (((s.dev.fetched c w).core c).rg ra).toNat % 4 = 0 →
      ((s.dev.fetched c w).core c).mpuGrants (((s.dev.fetched c w).core c).rg ra) 1 = true →
      ((s.dev.fetched c w).core c).mpuGrants (((s.dev.fetched c w).core c).rg ra) 2 = true →
      (s.dev.fetched c w).canEnter c 6 = true → Does (.coreAmoadd c w) s fun d =>
      s.dev.traps d c w 6 3 (((s.dev.fetched c w).core c).rg ra)) ∧
  (∀ (c : Fin 4) (w : Word) (rd : Nat) (ra : Nat) (k : Word) (p : Nat) (bs : List Byte), s.dev.runs c w = true →
      decodeW w = .load false 2 (.disp k) rd ra false →
      ((s.dev.fetched c w).place c (((s.dev.fetched c w).core c).rg ra + k) = .normal p ∨ (s.dev.fetched c w).place c (((s.dev.fetched c w).core c).rg ra + k) = .ownTcm p) →
      (((s.dev.fetched c w).core c).rg ra + k).toNat % 4 = 0 →
      ((s.dev.fetched c w).core c).mpuGrants (((s.dev.fetched c w).core c).rg ra + k) 1 = true →
      (List.range 4).map (fun i => sbByte ((s.dev.fetched c w).core c).sb (p + i)) = bs.map some → Does (.coreLdw c w) s fun d =>
      (s.dev.computes d c w fun x => (x.perf CORE.PERF_FWD 1).setG rd (BitVec.ofNat 32 (ofBytes bs))))

/-- For every core that can issue one of these words: a conditional branch is taken as the flag table says and goes to PC + 2 * OFF, otherwise on; B, CALL, JR and CALLR go to their targets, CALL and CALLR with the PC of the next instruction in their link register; an odd target raises ALIGN at the jump with no register written (INFO 0, log entry 50); LOOP and LOOPI set the registers of their level and activate it alone above the lower ones, or, for a count of 0, go to LEND (ACTIVE as it was, log entry 51); at the end of a body the count goes down, and the loop goes back to its start or ends, loops that end together ending together; MFS reads and MTS writes special registers within their writable bits, after its own end check; FENCE, SYNC and IFLUSH wait for the store buffer. Nothing else changes. Where a clause rests on a reading or a choice of the model, it is the model's and not the spec's: log entries 13, 50, 51, 82, 83 and 86. -/
def Obligations.CoreFlow : Prop :=
  ∀ s : State,
  (∀ (c : Fin 4) (w : Word) (k : Nat) (off : Word), s.dev.runs c w = true → decodeW w = .bcc k off →
      (let n := wordBit ((s.dev.fetched c w).core c).status 16; let z := wordBit ((s.dev.fetched c w).core c).status 17; let cf := wordBit ((s.dev.fetched c w).core c).status 18; let v := wordBit ((s.dev.fetched c w).core c).status 19; [true, z, !z, n != v, n == v, z || (n != v), !z && (n == v), !cf, cf, !cf || z, cf && !z, n, !n, v, !v].getD k false) = true →
      Does (.coreBCc c w) s fun d => (s.dev.jumps d c w fun x => { x with pc := x.pc + 2 * off })) ∧
  (∀ (c : Fin 4) (w : Word) (k : Nat) (off : Word), s.dev.runs c w = true → decodeW w = .bcc k off →
      (let n := wordBit ((s.dev.fetched c w).core c).status 16; let z := wordBit ((s.dev.fetched c w).core c).status 17; let cf := wordBit ((s.dev.fetched c w).core c).status 18; let v := wordBit ((s.dev.fetched c w).core c).status 19; [true, z, !z, n != v, n == v, z || (n != v), !z && (n == v), !cf, cf, !cf || z, cf && !z, n, !n, v, !v].getD k false) = false →
      Does (.coreBCc c w) s fun d => (s.dev.computes d c w fun x => x)) ∧
  (∀ (c : Fin 4) (w : Word) (off : Word), s.dev.runs c w = true → decodeW w = .br off → Does (.coreB c w) s fun d =>
      (s.dev.jumps d c w fun x => { x with pc := x.pc + 2 * off })) ∧
  (∀ (c : Fin 4) (w : Word) (off : Word), s.dev.runs c w = true → decodeW w = .call off → Does (.coreCall c w) s fun d =>
      (s.dev.jumps d c w fun x => { x.setG 31 (x.pc + 4) with pc := x.pc + 2 * off })) ∧
  (∀ (c : Fin 4) (w : Word) (ra : Nat), s.dev.runs c w = true → decodeW w = .jr ra →
      wordBit (((s.dev.fetched c w).core c).rg ra) 0 = false → Does (.coreJr c w) s fun d =>
      (s.dev.jumps d c w fun x => { x with pc := x.rg ra })) ∧
  (∀ (c : Fin 4) (w : Word) (rd : Nat) (ra : Nat), s.dev.runs c w = true → decodeW w = .callr rd ra →
      wordBit (((s.dev.fetched c w).core c).rg ra) 0 = false → Does (.coreCallr c w) s fun d =>
      (s.dev.jumps d c w fun x => { x.setG rd (x.pc + BitVec.ofNat 32 (wordLen w)) with pc := x.rg ra })) ∧
  (∀ (c : Fin 4) (w : Word) (ra : Nat), s.dev.runs c w = true → decodeW w = .jr ra →
      wordBit (((s.dev.fetched c w).core c).rg ra) 0 = true → (s.dev.fetched c w).canEnter c 5 = true →
      Does (.coreJr c w) s fun d => s.dev.traps d c w 5 0 (((s.dev.fetched c w).core c).rg ra)) ∧
  (∀ (c : Fin 4) (w : Word) (rd : Nat) (ra : Nat), s.dev.runs c w = true → decodeW w = .callr rd ra →
      wordBit (((s.dev.fetched c w).core c).rg ra) 0 = true → (s.dev.fetched c w).canEnter c 5 = true →
      Does (.coreCallr c w) s fun d => s.dev.traps d c w 5 0 (((s.dev.fetched c w).core c).rg ra)) ∧
  (∀ (c : Fin 4) (w : Word) (l : Nat) (ra : Nat) (n : Nat), s.dev.runs c w = true → decodeW w = .loop l ra n none →
      ((s.dev.fetched c w).core c).rg ra ≠ 0 → Does (.coreLoop c w) s fun d =>
      (s.dev.computes d c w fun x => { x with lstart := Tab.set 0 l (x.pc + 4) x.lstart, lend := Tab.set 0 l (x.pc + 4 + BitVec.ofNat 32 (2 * n)) x.lend, lcount := Tab.set 0 l (x.rg ra) x.lcount, lctrl := (x.lctrl &&& BitVec.ofNat 32 (2 ^ l - 1)) ||| BitVec.ofNat 32 (2 ^ l) })) ∧
  (∀ (c : Fin 4) (w : Word) (l : Nat) (ra : Nat) (n : Nat), s.dev.runs c w = true → decodeW w = .loop l ra n none →
      ((s.dev.fetched c w).core c).rg ra = 0 → Does (.coreLoop c w) s fun d =>
      (s.dev.jumps d c w fun x => { x with lstart := Tab.set 0 l (x.pc + 4) x.lstart, lend := Tab.set 0 l (x.pc + 4 + BitVec.ofNat 32 (2 * n)) x.lend, lcount := Tab.set 0 l 0 x.lcount, pc := x.pc + 4 + BitVec.ofNat 32 (2 * n) })) ∧
  (∀ (c : Fin 4) (w : Word) (l : Nat) (ra : Nat) (n : Nat) (m : Nat), s.dev.runs c w = true → decodeW w = .loop l ra n (some m) →
      m ≠ 0 → Does (.coreLoopi c w) s fun d =>
      (s.dev.computes d c w fun x => { x with lstart := Tab.set 0 l (x.pc + 4) x.lstart, lend := Tab.set 0 l (x.pc + 4 + BitVec.ofNat 32 (2 * n)) x.lend, lcount := Tab.set 0 l (BitVec.ofNat 32 m) x.lcount, lctrl := (x.lctrl &&& BitVec.ofNat 32 (2 ^ l - 1)) ||| BitVec.ofNat 32 (2 ^ l) })) ∧
  (∀ (c : Fin 4) (w : Word) (l : Nat) (ra : Nat) (n : Nat) (m : Nat), s.dev.runs c w = true → decodeW w = .loop l ra n (some m) →
      m = 0 → Does (.coreLoopi c w) s fun d =>
      (s.dev.jumps d c w fun x => { x with lstart := Tab.set 0 l (x.pc + 4) x.lstart, lend := Tab.set 0 l (x.pc + 4 + BitVec.ofNat 32 (2 * n)) x.lend, lcount := Tab.set 0 l 0 x.lcount, pc := x.pc + 4 + BitVec.ofNat 32 (2 * n) })) ∧
  (∀ (c : Fin 4) (w : Word) (f : Bool) (rd : Nat) (ra : Nat) (rb : Nat), s.dev.runs c w = true →
      decodeW w = .alu .add f rd ra rb → ((s.dev.fetched c w).core c).lctrl = 1 →
      Tab.get 0 0 ((s.dev.fetched c w).core c).lend = ((s.dev.fetched c w).core c).pc + BitVec.ofNat 32 (wordLen w) →
      Tab.get 0 0 ((s.dev.fetched c w).core c).lcount ≠ 1 → Does (.coreAdd c w) s fun d =>
      ((d.core c).pc = Tab.get 0 0 ((s.dev.fetched c w).core c).lstart ∧ (d.core c).lctrl = 1 ∧
      Tab.get 0 0 (d.core c).lcount = Tab.get 0 0 ((s.dev.fetched c w).core c).lcount - 1)) ∧
  (∀ (c : Fin 4) (w : Word) (f : Bool) (rd : Nat) (ra : Nat) (rb : Nat), s.dev.runs c w = true →
      decodeW w = .alu .add f rd ra rb → ((s.dev.fetched c w).core c).lctrl = 1 →
      Tab.get 0 0 ((s.dev.fetched c w).core c).lend = ((s.dev.fetched c w).core c).pc + BitVec.ofNat 32 (wordLen w) →
      Tab.get 0 0 ((s.dev.fetched c w).core c).lcount = 1 → Does (.coreAdd c w) s fun d =>
      ((d.core c).pc = ((s.dev.fetched c w).core c).pc + BitVec.ofNat 32 (wordLen w) ∧ (d.core c).lctrl = 0 ∧
      Tab.get 0 0 (d.core c).lcount = 0)) ∧
  (∀ (c : Fin 4) (w : Word) (f : Bool) (rd : Nat) (ra : Nat) (rb : Nat), s.dev.runs c w = true →
      decodeW w = .alu .add f rd ra rb → ((s.dev.fetched c w).core c).lctrl = 3 →
      Tab.get 0 0 ((s.dev.fetched c w).core c).lend = ((s.dev.fetched c w).core c).pc + BitVec.ofNat 32 (wordLen w) →
      Tab.get 0 1 ((s.dev.fetched c w).core c).lend = ((s.dev.fetched c w).core c).pc + BitVec.ofNat 32 (wordLen w) →
      Tab.get 0 1 ((s.dev.fetched c w).core c).lcount = 1 → Tab.get 0 0 ((s.dev.fetched c w).core c).lcount ≠ 1 →
      Does (.coreAdd c w) s fun d => ((d.core c).pc = Tab.get 0 0 ((s.dev.fetched c w).core c).lstart ∧ (d.core c).lctrl = 1 ∧
      Tab.get 0 0 (d.core c).lcount = Tab.get 0 0 ((s.dev.fetched c w).core c).lcount - 1 ∧ Tab.get 0 1 (d.core c).lcount = 0)) ∧
  (∀ (c : Fin 4) (w : Word) (rd : Nat) (sr : Nat), s.dev.runs c w = true → decodeW w = .mfs rd sr →
      Does (.coreMfs c w) s fun d =>
      (s.dev.computes d c w fun x => x.setG rd (if sr = 0 then x.status else if sr = 1 then x.lctrl else Tab.get 0 (sr % 4) (if sr < 8 then x.lstart else if sr < 12 then x.lend else x.lcount)))) ∧
  (∀ (c : Fin 4) (w : Word) (sr : Nat) (ra : Nat), s.dev.runs c w = true → decodeW w = .mts sr ra → sr = 0 →
      Does (.coreMts c w) s fun d =>
      (s.dev.jumps d c w fun x => let y := x.thenNext 4; { y with status := (y.status &&& ~~~(if y.pl = 0 then 0x1F0300#32 else 0x1F0304#32)) ||| (x.rg ra &&& (if y.pl = 0 then 0x1F0300#32 else 0x1F0304#32)) })) ∧
  (∀ (c : Fin 4) (w : Word) (sr : Nat) (ra : Nat), s.dev.runs c w = true → decodeW w = .mts sr ra → sr = 1 →
      Does (.coreMts c w) s fun d => (s.dev.jumps d c w fun x => let y := x.thenNext 4; { y with lctrl := x.rg ra &&& 0xF })) ∧
  (∀ (c : Fin 4) (w : Word) (sr : Nat) (ra : Nat), s.dev.runs c w = true → decodeW w = .mts sr ra → (4 ≤ sr ∧ sr < 8) →
      Does (.coreMts c w) s fun d =>
      (s.dev.jumps d c w fun x => let y := x.thenNext 4; { y with lstart := Tab.set 0 (sr - 4) (x.rg ra &&& 0xFFFFFFFE) y.lstart })) ∧
  (∀ (c : Fin 4) (w : Word) (sr : Nat) (ra : Nat), s.dev.runs c w = true → decodeW w = .mts sr ra → (8 ≤ sr ∧ sr < 12) →
      Does (.coreMts c w) s fun d =>
      (s.dev.jumps d c w fun x => let y := x.thenNext 4; { y with lend := Tab.set 0 (sr - 8) (x.rg ra &&& 0xFFFFFFFE) y.lend })) ∧
  (∀ (c : Fin 4) (w : Word) (sr : Nat) (ra : Nat), s.dev.runs c w = true → decodeW w = .mts sr ra → 12 ≤ sr →
      Does (.coreMts c w) s fun d =>
      (s.dev.jumps d c w fun x => let y := x.thenNext 4; { y with lcount := Tab.set 0 (sr - 12) (x.rg ra) y.lcount })) ∧
  (∀ (c : Fin 4) (w : Word), s.dev.runs c w = true → decodeW w = .fence → ((s.dev.fetched c w).core c).sb = [] →
      Does (.coreFence c w) s fun d => (s.dev.computes d c w fun x => x)) ∧
  (∀ (c : Fin 4) (w : Word), s.dev.runs c w = true → decodeW w = .fence → (s.dev.fetched c w).lockstep c = false →
      ((s.dev.fetched c w).core c).sb.length ≤ 8 → ((s.dev.fetched c w).core c).sb.all ((s.dev.fetched c w).sbAccepts c) = true →
      Does (.coreFence c w) s fun d => ((d.core c).sb = [] ∧ (d.core c).retired = ((s.dev.fetched c w).core c).retired + 1 ∧
      (d.core c).pc = (((s.dev.fetched c w).core c).thenNext 4).pc ∧ (d.core c).status = ((s.dev.fetched c w).core c).status)) ∧
  (∀ (c : Fin 4) (w : Word), s.dev.runs c w = true → decodeW w = .sync → ((s.dev.fetched c w).core c).sb = [] →
      Does (.coreSync c w) s fun d => (s.dev.computes d c w fun x => x)) ∧
  (∀ (c : Fin 4) (w : Word), s.dev.runs c w = true → decodeW w = .sync → (s.dev.fetched c w).lockstep c = false →
      ((s.dev.fetched c w).core c).sb.length ≤ 8 → ((s.dev.fetched c w).core c).sb.all ((s.dev.fetched c w).sbAccepts c) = true →
      Does (.coreSync c w) s fun d => ((d.core c).sb = [] ∧ (d.core c).retired = ((s.dev.fetched c w).core c).retired + 1 ∧
      (d.core c).pc = (((s.dev.fetched c w).core c).thenNext 4).pc ∧ (d.core c).status = ((s.dev.fetched c w).core c).status)) ∧
  (∀ (c : Fin 4) (w : Word) (ra : Nat), s.dev.runs c w = true → decodeW w = .iflush ra → ((s.dev.fetched c w).core c).sb = [] →
      Does (.coreIflush c w) s fun d =>
      (s.dev.computes d c w fun x => { x with cache := x.cache.filter (fun l => decide (l.no ≠ (x.rg ra).toNat / 64)), lineBuf := [] }))

/-- For every core that can issue one of these words: SYSCALL and BREAK enter vectors 12 and 13 with their immediate, the PC of the next instruction or of the BREAK saved in a frame of eight words on the KERNEL stack, PL KERNEL, a record pushed, EXC_CAUSE, EXC_ADDR and the running priority written; an undefined word raises UNDEF and a privileged one at USER PRIVOP with no other effect; RETE restores PC, STATUS, g1 to g3, g31, g30, the running priority and pops the record, or raises PRIVRET; SLEEP stops issuing; PART and JOIN wait; ATOMB begins a section or sets NESTED, ATOME ends it; a synchronous exception in a FAULT handler, with an invalid frame or with 32 records enters Sill, and one at SILL stops the core with event 9 and a SYSTEM record; STEP follows an instruction at USER while STEP_CTRL.EN = 1; a core that cannot issue ignores the word. Where a clause rests on a reading or a choice of the model, it is the model's and not the spec's: log entries 13, 83, 84, 87, 88, 89, 92 and 95. -/
def Obligations.CoreSystem : Prop :=
  ∀ s : State,
  (∀ (c : Fin 4) (w : Word) (m : Nat), s.dev.runs c w = true → decodeW w = .syscall m →
      (s.dev.fetched c w).canEnter c 12 = true → Does (.coreSyscall c w) s fun d =>
      ((let e := (s.dev.fetched c w); let x := (({ e.core c with pc := (e.core c).pc + BitVec.ofNat 32 (wordLen w) } : CoreSt)).counted (e.core c).retired; e.becomes d c (x.handling c 12 m x.runPri 0 x.pc)) ∧
      d.reg (CORES.CORE_PC c) = ((s.dev.fetched c w).core c).pc)) ∧
  (∀ (c : Fin 4) (w : Word) (m : Nat), s.dev.runs c w = true → decodeW w = .brk m → (s.dev.fetched c w).canEnter c 13 = true →
      Does (.coreBreak c w) s fun d => s.dev.traps d c w 13 m 0) ∧
  (∀ (c : Fin 4) (w : Word), s.dev.runs c w = true → decodeW w = .undef → (s.dev.fetched c w).canEnter c 2 = true →
      Does (.undefinedInstruction c w) s fun d => s.dev.traps d c w 2 0 (shownWord w)) ∧
  (∀ (c : Fin 4) (w : Word), s.dev.runs c w = true → decodeW w = .rete → ((s.dev.fetched c w).core c).pl = 0 →
      (s.dev.fetched c w).canEnter c 3 = true → Does (.coreRete c w) s fun d => s.dev.traps d c w 3 0 (shownWord w)) ∧
  (∀ (c : Fin 4) (w : Word), s.dev.runs c w = true → decodeW w = .sleep → ((s.dev.fetched c w).core c).pl = 0 →
      (s.dev.fetched c w).canEnter c 3 = true → Does (.coreSleep c w) s fun d => s.dev.traps d c w 3 0 (shownWord w)) ∧
  (∀ (c : Fin 4) (w : Word) (m : Nat), s.dev.runs c w = true → decodeW w = .atomb m → ((s.dev.fetched c w).core c).pl = 0 →
      (s.dev.fetched c w).canEnter c 3 = true → Does (.coreAtomb c w) s fun d => s.dev.traps d c w 3 0 (shownWord w)) ∧
  (∀ (c : Fin 4) (w : Word), s.dev.runs c w = true → decodeW w = .atome → ((s.dev.fetched c w).core c).pl = 0 →
      (s.dev.fetched c w).canEnter c 3 = true → Does (.coreAtome c w) s fun d => s.dev.traps d c w 3 0 (shownWord w)) ∧
  (∀ (c : Fin 4) (w : Word), s.dev.runs c w = true → decodeW w = .part → (s.dev.fetched c w).lockstep c = false →
      (s.dev.fetched c w).canEnter c 2 = true → Does (.corePart c w) s fun d => s.dev.traps d c w 2 0 (shownWord w)) ∧
  (∀ (c : Fin 4) (w : Word), s.dev.runs c w = true → decodeW w = .join → (s.dev.fetched c w).lockstep c = true →
      (s.dev.fetched c w).canEnter c 2 = true → Does (.coreJoin c w) s fun d => s.dev.traps d c w 2 0 (shownWord w)) ∧
  (∀ (c : Fin 4) (w : Word), s.dev.runs c w = true → decodeW w = .part → (s.dev.fetched c w).lockstep c = true →
      ((s.dev.fetched c w).core c).pl ≠ 0 → Does (.corePart c w) s fun d =>
      (s.dev.fetched c w).becomes d c { ((s.dev.fetched c w).core c) with parting := true }) ∧
  (∀ (c : Fin 4) (w : Word), s.dev.runs c w = true → decodeW w = .join → (s.dev.fetched c w).lockstep c = false →
      ((s.dev.fetched c w).core c).pl ≠ 0 → Does (.coreJoin c w) s fun d =>
      (s.dev.fetched c w).becomes d c { ((s.dev.fetched c w).core c) with joinSince := some s.dev.now }) ∧
  (∀ (c : Fin 4) (w : Word), s.dev.runs c w = true → decodeW w = .sleep → ((s.dev.fetched c w).core c).pl ≠ 0 →
      Does (.coreSleep c w) s fun d =>
      ((d.core c).bare = ((((s.dev.fetched c w).core c).thenNext 4).counted ((s.dev.fetched c w).core c).retired).bare ∧
      d.coreState c = 3 ∧ d.reg (CORES.CORE_PC c) = ((s.dev.fetched c w).core c).pc ∧ (s.dev.fetched c w).ranAlone d c)) ∧
  (∀ (c : Fin 4) (w : Word) (m : Nat), s.dev.runs c w = true → decodeW w = .atomb m → ((s.dev.fetched c w).core c).pl ≠ 0 →
      ((s.dev.fetched c w).core c).atom = none → Does (.coreAtomb c w) s fun d =>
      (s.dev.computes d c w fun x => { x with atom := some (s.dev.now + nsT (2 * (m + 1))) })) ∧
  (∀ (c : Fin 4) (w : Word) (m : Nat), s.dev.runs c w = true → decodeW w = .atomb m → ((s.dev.fetched c w).core c).pl ≠ 0 →
      ((s.dev.fetched c w).core c).atom ≠ none → Does (.coreAtomb c w) s fun d =>
      (s.dev.computes d c w fun x => x.setSf CORE.ATOM_STATUS 3 3 1)) ∧
  (∀ (c : Fin 4) (w : Word), s.dev.runs c w = true → decodeW w = .atome → ((s.dev.fetched c w).core c).pl ≠ 0 →
      Does (.coreAtome c w) s fun d => (s.dev.computes d c w fun x => { x with atom := none })) ∧
  (∀ (c : Fin 4) (w : Word) (k : Nat) (r : Nat) (t : List (Nat × Nat)) (p : Nat), s.dev.runs c w = true → decodeW w = .rete →
      ((s.dev.fetched c w).core c).pl = 1 → ((s.dev.fetched c w).core c).entries = (k, r) :: t →
      ((s.dev.fetched c w).core c).frameValid (((s.dev.fetched c w).core c).rg 30 + 32) = true →
      frameAddr c (((s.dev.fetched c w).core c).rg 30) = p → (s.dev.fetched c w).ecc = [] →
      ((s.dev.fetched c w).core c).sb = [] → (s.dev.fetched c w).lockstep c = false → (s.dev.fetched c w).memMapped p 32 = true →
      p < 0x10000000 → (s.dev.fetched c w).le p 4 % 2 = 0 → ((s.dev.fetched c w).le (p + 4) 4) % 4 ≤ k →
      ((s.dev.fetched c w).core c).bestLine r (wordBit (BitVec.ofNat 32 ((s.dev.fetched c w).le (p + 4) 4)) 2) true = none →
      (s.dev.fetched c w).le (p + 8) 4 % 128 < 16 → Does (.coreRete c w) s fun d =>
      (let e := (s.dev.fetched c w); let x := e.core c; let g := fun o => BitVec.ofNat 32 (e.le (p + o) 4); let y : CoreSt := { (((((x.setG 1 (g 16)).setG 2 (g 20)).setG 3 (g 24)).setG 31 (g 28)).setSf CORE.EVC_RUN 4 0 r) with spKernel := x.spKernel + 32, status := g 4 &&& 0x1F0307, entries := t, pc := g 0 }; e.retires d c y)) ∧
  (∀ (c : Fin 4) (w : Word), s.dev.runs c w = true → decodeW w = .rete → ((s.dev.fetched c w).core c).pl = 1 →
      ((s.dev.fetched c w).core c).entries = [] → (s.dev.fetched c w).canEnter c 4 = true → Does (.coreRete c w) s fun d =>
      s.dev.traps d c w 4 1 (((s.dev.fetched c w).core c).rg 30)) ∧
  (∀ (c : Fin 4) (w : Word), s.dev.runs c w = true → decodeW w = .rete → ((s.dev.fetched c w).core c).pl = 1 →
      ((s.dev.fetched c w).core c).entries ≠ [] →
      ((s.dev.fetched c w).core c).frameValid (((s.dev.fetched c w).core c).rg 30 + 32) = false →
      (s.dev.fetched c w).canEnter c 4 = true → Does (.coreRete c w) s fun d =>
      s.dev.traps d c w 4 3 (((s.dev.fetched c w).core c).rg 30)) ∧
  (∀ (c : Fin 4) (w : Word) (k : Nat) (r : Nat) (t : List (Nat × Nat)) (p : Nat), s.dev.runs c w = true → decodeW w = .rete →
      ((s.dev.fetched c w).core c).pl = 1 → ((s.dev.fetched c w).core c).entries = (k, r) :: t →
      ((s.dev.fetched c w).core c).frameValid (((s.dev.fetched c w).core c).rg 30 + 32) = true →
      frameAddr c (((s.dev.fetched c w).core c).rg 30) = p → (s.dev.fetched c w).ecc = [] →
      ((s.dev.fetched c w).core c).sb = [] → (s.dev.fetched c w).lockstep c = false → (s.dev.fetched c w).memMapped p 32 = true →
      p < 0x10000000 → (s.dev.fetched c w).le p 4 % 2 = 0 → k < ((s.dev.fetched c w).le (p + 4) 4) % 4 →
      (s.dev.fetched c w).canEnter c 4 = true → Does (.coreRete c w) s fun d =>
      s.dev.traps d c w 4 2 (((s.dev.fetched c w).core c).rg 30)) ∧
  (∀ (c : Fin 4) (w : Word) (m : Nat), s.dev.runs c w = true → decodeW w = .brk m → ((s.dev.fetched c w).core c).pl < 2 →
      ((s.dev.fetched c w).core c).runPri = 0x10 → ((s.dev.fetched c w).core c).sb.length ≤ 4 → Does (.coreBreak c w) s fun d =>
      (let e := (s.dev.fetched c w); e.becomes d c (e.core c |>.atSill c 4 13 (0) (e.core c).pc))) ∧
  (∀ (c : Fin 4) (w : Word) (m : Nat), s.dev.runs c w = true → decodeW w = .brk m → ((s.dev.fetched c w).core c).pl < 2 →
      ((s.dev.fetched c w).core c).runPri ≠ 0x10 →
      ((s.dev.fetched c w).core c).frameValid ((s.dev.fetched c w).core c).spKernel = false →
      ((s.dev.fetched c w).core c).sb.length ≤ 4 → Does (.coreBreak c w) s fun d =>
      (let e := (s.dev.fetched c w); e.becomes d c (e.core c |>.atSill c 1 13 (((s.dev.fetched c w).core c).spKernel) (e.core c).pc))) ∧
  (∀ (c : Fin 4) (w : Word) (m : Nat), s.dev.runs c w = true → decodeW w = .brk m → ((s.dev.fetched c w).core c).pl < 2 →
      ((s.dev.fetched c w).core c).runPri ≠ 0x10 →
      ((s.dev.fetched c w).core c).frameValid ((s.dev.fetched c w).core c).spKernel = true →
      32 ≤ ((s.dev.fetched c w).core c).entries.length → ((s.dev.fetched c w).core c).sb.length ≤ 4 →
      Does (.coreBreak c w) s fun d =>
      (let e := (s.dev.fetched c w); e.becomes d c (e.core c |>.atSill c 5 13 (0) (e.core c).pc))) ∧
  (∀ (c : Fin 4) (w : Word) (m : Nat), s.dev.runs c w = true → decodeW w = .brk m → ((s.dev.fetched c w).core c).pl = 2 →
      s.dev.groups.length < 1000 → Does (.coreBreak c w) s fun d => (d.coreState c = 5 ∧
      (d.core c).bare = (fun y : CoreSt => ({ y with sb := [] } : CoreSt)) ((s.dev.fetched c w).core c).bare ∧
      (s.dev.fetched c w).raised d [9] ∧ ((s.dev.fetched c w).led.fresh = [] →
      (d.led.chip.any fun r => decide (r.kind = .system ∧ r.origin = 0x0600 ∧ r.block = 0x30 ∧
      r.old = (s.dev.fetched c w).reg (CORES.CORE_STATUS c) ∧ r.new = d.reg (CORES.CORE_STATUS c))) = true))) ∧
  (∀ (c : Fin 4) (w : Word) (rd ra rb : Nat), s.dev.begun.canIssue c = true →
      (match s.dev.begun.fetchWord c w with | some (none, _) => true | _ => false) = true → s.dev.overdue c = false →
      decodeW w = .alu .add false rd ra rb → (s.dev.fetched c w).lockstep c = false →
      wordBit (((s.dev.fetched c w).core c).s CORE.STEP_CTRL) 0 = true → ((s.dev.fetched c w).core c).pl = 0 →
      (((s.dev.fetched c w).core c).escDue, ((s.dev.fetched c w).core c).trapDue, ((s.dev.fetched c w).core c).busErr, ((s.dev.fetched c w).core c).sillHeld, ((s.dev.fetched c w).core c).haltReq) = (none, none, [], false, false) →
      (s.dev.fetched c w).canEnter c 14 = true → Does (.coreAdd c w) s fun d =>
      (let e := (s.dev.fetched c w); let x0 := e.core c; let v : Word := x0.rg ra + x0.rg rb; let x := ((x0.setG rd v).thenNext (wordLen w)).counted x0.retired; e.becomes d c (x.handling c 14 0 x.runPri x0.pc x.pc))) ∧
  (∀ (c : Fin 4) (w : Word) (f : Bool) (rd ra rb : Nat), decodeW w = .alu .add f rd ra rb → s.dev.begun.canIssue c = false →
      Does (.coreAdd c w) s fun d => d.answer = .ignored ∧ s.dev.keepsUnits d ∧ s.dev.keepsRegs d [] ∧ s.dev.noRecord d) ∧
  (∀ (c : Fin 4) (w : Word) (f : Bool) (rd ra rb : Nat), decodeW w = .alu .add f rd ra rb → s.dev.begun.canIssue c = true →
      fetchable (s.dev.core c).pc = false → s.dev.begun.canEnter c 6 = true → Does (.coreAdd c w) s fun d =>
      (let e := s.dev.begun; let x := e.core c; e.becomes d c (x.handling c 6 0 0x10 x.pc x.pc)))

/-- For every core that can issue one of these words, where no flag the instruction raises is enabled to trap: the f or g register is written with the result of the exact IEEE 754 function of the operands (a binary32 result with ones above it), the flags raised are ORed into FCSR, the PC goes on and nothing else changes. Where a raised flag is enabled, the same and then CAUSE holds the flags raised and FPTRAP is entered with the PC of the next instruction. The sign instructions and moves raise nothing; FMTC keeps RM for a reserved value; FLDX and FSTX move words and doubles with the addressing of LDX and STX. Where a clause rests on a reading or a choice of the model, it is the model's and not the spec's: log entries 13, 86 and 87. -/
def Obligations.CoreFloat : Prop :=
  ∀ s : State,
  (∀ (c : Fin 4) (w : Word) (dbl : Bool) (rm : Nat) (fd : Nat) (fa : Nat) (fb : Nat), s.dev.runs c w = true →
      decodeW w = .fp .add dbl rm fd fa fb →
      ((fmtOf dbl).add (if rm = 7 then ((s.dev.fetched c w).core c).fcsr.toNat / 32 % 8 else rm) ((fmtOf dbl).unpack (((s.dev.fetched c w).core c).fop dbl fa)) ((fmtOf dbl).unpack (((s.dev.fetched c w).core c).fop dbl fb))).flags &&& (((s.dev.fetched c w).core c).fcsr.toNat / 256 % 32) = 0 →
      Does (.coreFadd c w) s fun d =>
      (s.dev.computes d c w fun x => let r : FRes := (fmtOf dbl).add (if rm = 7 then x.fcsr.toNat / 32 % 8 else rm) ((fmtOf dbl).unpack (x.fop dbl fa)) ((fmtOf dbl).unpack (x.fop dbl fb)); { x.setF fd (if dbl then BitVec.ofNat 64 r.bits else 0xFFFFFFFF00000000 ||| BitVec.ofNat 64 r.bits) with fcsr := x.fcsr ||| BitVec.ofNat 32 r.flags })) ∧
  (∀ (c : Fin 4) (w : Word) (dbl : Bool) (rm : Nat) (fd : Nat) (fa : Nat) (fb : Nat), s.dev.runs c w = true →
      decodeW w = .fp .add dbl rm fd fa fb →
      ((fmtOf dbl).add (if rm = 7 then ((s.dev.fetched c w).core c).fcsr.toNat / 32 % 8 else rm) ((fmtOf dbl).unpack (((s.dev.fetched c w).core c).fop dbl fa)) ((fmtOf dbl).unpack (((s.dev.fetched c w).core c).fop dbl fb))).flags &&& (((s.dev.fetched c w).core c).fcsr.toNat / 256 % 32) ≠ 0 →
      (s.dev.fetched c w).canEnter c 10 = true → Does (.coreFadd c w) s fun d =>
      (s.dev.trapsAfter d c w 10 0 fun x => let r : FRes := (fmtOf dbl).add (if rm = 7 then x.fcsr.toNat / 32 % 8 else rm) ((fmtOf dbl).unpack (x.fop dbl fa)) ((fmtOf dbl).unpack (x.fop dbl fb)); { x.setF fd (if dbl then BitVec.ofNat 64 r.bits else 0xFFFFFFFF00000000 ||| BitVec.ofNat 64 r.bits) with fcsr := ((x.fcsr ||| BitVec.ofNat 32 r.flags) &&& 0xFFE0FFFF) ||| (BitVec.ofNat 32 r.flags <<< 16) })) ∧
  (∀ (c : Fin 4) (w : Word) (dbl : Bool) (rm : Nat) (fd : Nat) (fa : Nat) (fb : Nat), s.dev.runs c w = true →
      decodeW w = .fp .sub dbl rm fd fa fb →
      ((fmtOf dbl).add (if rm = 7 then ((s.dev.fetched c w).core c).fcsr.toNat / 32 % 8 else rm) ((fmtOf dbl).unpack (((s.dev.fetched c w).core c).fop dbl fa)) (((fmtOf dbl).unpack (((s.dev.fetched c w).core c).fop dbl fb)).negIf true)).flags &&& (((s.dev.fetched c w).core c).fcsr.toNat / 256 % 32) = 0 →
      Does (.coreFsub c w) s fun d =>
      (s.dev.computes d c w fun x => let r : FRes := (fmtOf dbl).add (if rm = 7 then x.fcsr.toNat / 32 % 8 else rm) ((fmtOf dbl).unpack (x.fop dbl fa)) (((fmtOf dbl).unpack (x.fop dbl fb)).negIf true); { x.setF fd (if dbl then BitVec.ofNat 64 r.bits else 0xFFFFFFFF00000000 ||| BitVec.ofNat 64 r.bits) with fcsr := x.fcsr ||| BitVec.ofNat 32 r.flags })) ∧
  (∀ (c : Fin 4) (w : Word) (dbl : Bool) (rm : Nat) (fd : Nat) (fa : Nat) (fb : Nat), s.dev.runs c w = true →
      decodeW w = .fp .sub dbl rm fd fa fb →
      ((fmtOf dbl).add (if rm = 7 then ((s.dev.fetched c w).core c).fcsr.toNat / 32 % 8 else rm) ((fmtOf dbl).unpack (((s.dev.fetched c w).core c).fop dbl fa)) (((fmtOf dbl).unpack (((s.dev.fetched c w).core c).fop dbl fb)).negIf true)).flags &&& (((s.dev.fetched c w).core c).fcsr.toNat / 256 % 32) ≠ 0 →
      (s.dev.fetched c w).canEnter c 10 = true → Does (.coreFsub c w) s fun d =>
      (s.dev.trapsAfter d c w 10 0 fun x => let r : FRes := (fmtOf dbl).add (if rm = 7 then x.fcsr.toNat / 32 % 8 else rm) ((fmtOf dbl).unpack (x.fop dbl fa)) (((fmtOf dbl).unpack (x.fop dbl fb)).negIf true); { x.setF fd (if dbl then BitVec.ofNat 64 r.bits else 0xFFFFFFFF00000000 ||| BitVec.ofNat 64 r.bits) with fcsr := ((x.fcsr ||| BitVec.ofNat 32 r.flags) &&& 0xFFE0FFFF) ||| (BitVec.ofNat 32 r.flags <<< 16) })) ∧
  (∀ (c : Fin 4) (w : Word) (dbl : Bool) (rm : Nat) (fd : Nat) (fa : Nat) (fb : Nat), s.dev.runs c w = true →
      decodeW w = .fp .mul dbl rm fd fa fb →
      ((fmtOf dbl).mul (if rm = 7 then ((s.dev.fetched c w).core c).fcsr.toNat / 32 % 8 else rm) ((fmtOf dbl).unpack (((s.dev.fetched c w).core c).fop dbl fa)) ((fmtOf dbl).unpack (((s.dev.fetched c w).core c).fop dbl fb))).flags &&& (((s.dev.fetched c w).core c).fcsr.toNat / 256 % 32) = 0 →
      Does (.coreFmul c w) s fun d =>
      (s.dev.computes d c w fun x => let r : FRes := (fmtOf dbl).mul (if rm = 7 then x.fcsr.toNat / 32 % 8 else rm) ((fmtOf dbl).unpack (x.fop dbl fa)) ((fmtOf dbl).unpack (x.fop dbl fb)); { x.setF fd (if dbl then BitVec.ofNat 64 r.bits else 0xFFFFFFFF00000000 ||| BitVec.ofNat 64 r.bits) with fcsr := x.fcsr ||| BitVec.ofNat 32 r.flags })) ∧
  (∀ (c : Fin 4) (w : Word) (dbl : Bool) (rm : Nat) (fd : Nat) (fa : Nat) (fb : Nat), s.dev.runs c w = true →
      decodeW w = .fp .mul dbl rm fd fa fb →
      ((fmtOf dbl).mul (if rm = 7 then ((s.dev.fetched c w).core c).fcsr.toNat / 32 % 8 else rm) ((fmtOf dbl).unpack (((s.dev.fetched c w).core c).fop dbl fa)) ((fmtOf dbl).unpack (((s.dev.fetched c w).core c).fop dbl fb))).flags &&& (((s.dev.fetched c w).core c).fcsr.toNat / 256 % 32) ≠ 0 →
      (s.dev.fetched c w).canEnter c 10 = true → Does (.coreFmul c w) s fun d =>
      (s.dev.trapsAfter d c w 10 0 fun x => let r : FRes := (fmtOf dbl).mul (if rm = 7 then x.fcsr.toNat / 32 % 8 else rm) ((fmtOf dbl).unpack (x.fop dbl fa)) ((fmtOf dbl).unpack (x.fop dbl fb)); { x.setF fd (if dbl then BitVec.ofNat 64 r.bits else 0xFFFFFFFF00000000 ||| BitVec.ofNat 64 r.bits) with fcsr := ((x.fcsr ||| BitVec.ofNat 32 r.flags) &&& 0xFFE0FFFF) ||| (BitVec.ofNat 32 r.flags <<< 16) })) ∧
  (∀ (c : Fin 4) (w : Word) (dbl : Bool) (rm : Nat) (fd : Nat) (fa : Nat) (fb : Nat), s.dev.runs c w = true →
      decodeW w = .fp .div dbl rm fd fa fb →
      ((fmtOf dbl).div (if rm = 7 then ((s.dev.fetched c w).core c).fcsr.toNat / 32 % 8 else rm) ((fmtOf dbl).unpack (((s.dev.fetched c w).core c).fop dbl fa)) ((fmtOf dbl).unpack (((s.dev.fetched c w).core c).fop dbl fb))).flags &&& (((s.dev.fetched c w).core c).fcsr.toNat / 256 % 32) = 0 →
      Does (.coreFdiv c w) s fun d =>
      (s.dev.computes d c w fun x => let r : FRes := (fmtOf dbl).div (if rm = 7 then x.fcsr.toNat / 32 % 8 else rm) ((fmtOf dbl).unpack (x.fop dbl fa)) ((fmtOf dbl).unpack (x.fop dbl fb)); { x.setF fd (if dbl then BitVec.ofNat 64 r.bits else 0xFFFFFFFF00000000 ||| BitVec.ofNat 64 r.bits) with fcsr := x.fcsr ||| BitVec.ofNat 32 r.flags })) ∧
  (∀ (c : Fin 4) (w : Word) (dbl : Bool) (rm : Nat) (fd : Nat) (fa : Nat) (fb : Nat), s.dev.runs c w = true →
      decodeW w = .fp .div dbl rm fd fa fb →
      ((fmtOf dbl).div (if rm = 7 then ((s.dev.fetched c w).core c).fcsr.toNat / 32 % 8 else rm) ((fmtOf dbl).unpack (((s.dev.fetched c w).core c).fop dbl fa)) ((fmtOf dbl).unpack (((s.dev.fetched c w).core c).fop dbl fb))).flags &&& (((s.dev.fetched c w).core c).fcsr.toNat / 256 % 32) ≠ 0 →
      (s.dev.fetched c w).canEnter c 10 = true → Does (.coreFdiv c w) s fun d =>
      (s.dev.trapsAfter d c w 10 0 fun x => let r : FRes := (fmtOf dbl).div (if rm = 7 then x.fcsr.toNat / 32 % 8 else rm) ((fmtOf dbl).unpack (x.fop dbl fa)) ((fmtOf dbl).unpack (x.fop dbl fb)); { x.setF fd (if dbl then BitVec.ofNat 64 r.bits else 0xFFFFFFFF00000000 ||| BitVec.ofNat 64 r.bits) with fcsr := ((x.fcsr ||| BitVec.ofNat 32 r.flags) &&& 0xFFE0FFFF) ||| (BitVec.ofNat 32 r.flags <<< 16) })) ∧
  (∀ (c : Fin 4) (w : Word) (dbl : Bool) (rm : Nat) (fd : Nat) (fa : Nat), s.dev.runs c w = true →
      decodeW w = .fsqrt dbl rm fd fa →
      ((fmtOf dbl).sqrt (if rm = 7 then ((s.dev.fetched c w).core c).fcsr.toNat / 32 % 8 else rm) ((fmtOf dbl).unpack (((s.dev.fetched c w).core c).fop dbl fa))).flags &&& (((s.dev.fetched c w).core c).fcsr.toNat / 256 % 32) = 0 →
      Does (.coreFsqrt c w) s fun d =>
      (s.dev.computes d c w fun x => let r : FRes := (fmtOf dbl).sqrt (if rm = 7 then x.fcsr.toNat / 32 % 8 else rm) ((fmtOf dbl).unpack (x.fop dbl fa)); { x.setF fd (if dbl then BitVec.ofNat 64 r.bits else 0xFFFFFFFF00000000 ||| BitVec.ofNat 64 r.bits) with fcsr := x.fcsr ||| BitVec.ofNat 32 r.flags })) ∧
  (∀ (c : Fin 4) (w : Word) (dbl : Bool) (rm : Nat) (fd : Nat) (fa : Nat), s.dev.runs c w = true →
      decodeW w = .fsqrt dbl rm fd fa →
      ((fmtOf dbl).sqrt (if rm = 7 then ((s.dev.fetched c w).core c).fcsr.toNat / 32 % 8 else rm) ((fmtOf dbl).unpack (((s.dev.fetched c w).core c).fop dbl fa))).flags &&& (((s.dev.fetched c w).core c).fcsr.toNat / 256 % 32) ≠ 0 →
      (s.dev.fetched c w).canEnter c 10 = true → Does (.coreFsqrt c w) s fun d =>
      (s.dev.trapsAfter d c w 10 0 fun x => let r : FRes := (fmtOf dbl).sqrt (if rm = 7 then x.fcsr.toNat / 32 % 8 else rm) ((fmtOf dbl).unpack (x.fop dbl fa)); { x.setF fd (if dbl then BitVec.ofNat 64 r.bits else 0xFFFFFFFF00000000 ||| BitVec.ofNat 64 r.bits) with fcsr := ((x.fcsr ||| BitVec.ofNat 32 r.flags) &&& 0xFFE0FFFF) ||| (BitVec.ofNat 32 r.flags <<< 16) })) ∧
  (∀ (c : Fin 4) (w : Word) (dbl : Bool) (fd : Nat) (fa : Nat) (fb : Nat), s.dev.runs c w = true →
      decodeW w = .fminmax false dbl fd fa fb →
      ((fmtOf dbl).minMax false (((s.dev.fetched c w).core c).fop dbl fa) (((s.dev.fetched c w).core c).fop dbl fb)).flags &&& (((s.dev.fetched c w).core c).fcsr.toNat / 256 % 32) = 0 →
      Does (.coreFmin c w) s fun d =>
      (s.dev.computes d c w fun x => let r : FRes := (fmtOf dbl).minMax false (x.fop dbl fa) (x.fop dbl fb); { x.setF fd (if dbl then BitVec.ofNat 64 r.bits else 0xFFFFFFFF00000000 ||| BitVec.ofNat 64 r.bits) with fcsr := x.fcsr ||| BitVec.ofNat 32 r.flags })) ∧
  (∀ (c : Fin 4) (w : Word) (dbl : Bool) (fd : Nat) (fa : Nat) (fb : Nat), s.dev.runs c w = true →
      decodeW w = .fminmax false dbl fd fa fb →
      ((fmtOf dbl).minMax false (((s.dev.fetched c w).core c).fop dbl fa) (((s.dev.fetched c w).core c).fop dbl fb)).flags &&& (((s.dev.fetched c w).core c).fcsr.toNat / 256 % 32) ≠ 0 →
      (s.dev.fetched c w).canEnter c 10 = true → Does (.coreFmin c w) s fun d =>
      (s.dev.trapsAfter d c w 10 0 fun x => let r : FRes := (fmtOf dbl).minMax false (x.fop dbl fa) (x.fop dbl fb); { x.setF fd (if dbl then BitVec.ofNat 64 r.bits else 0xFFFFFFFF00000000 ||| BitVec.ofNat 64 r.bits) with fcsr := ((x.fcsr ||| BitVec.ofNat 32 r.flags) &&& 0xFFE0FFFF) ||| (BitVec.ofNat 32 r.flags <<< 16) })) ∧
  (∀ (c : Fin 4) (w : Word) (dbl : Bool) (fd : Nat) (fa : Nat) (fb : Nat), s.dev.runs c w = true →
      decodeW w = .fminmax true dbl fd fa fb →
      ((fmtOf dbl).minMax true (((s.dev.fetched c w).core c).fop dbl fa) (((s.dev.fetched c w).core c).fop dbl fb)).flags &&& (((s.dev.fetched c w).core c).fcsr.toNat / 256 % 32) = 0 →
      Does (.coreFmax c w) s fun d =>
      (s.dev.computes d c w fun x => let r : FRes := (fmtOf dbl).minMax true (x.fop dbl fa) (x.fop dbl fb); { x.setF fd (if dbl then BitVec.ofNat 64 r.bits else 0xFFFFFFFF00000000 ||| BitVec.ofNat 64 r.bits) with fcsr := x.fcsr ||| BitVec.ofNat 32 r.flags })) ∧
  (∀ (c : Fin 4) (w : Word) (dbl : Bool) (fd : Nat) (fa : Nat) (fb : Nat), s.dev.runs c w = true →
      decodeW w = .fminmax true dbl fd fa fb →
      ((fmtOf dbl).minMax true (((s.dev.fetched c w).core c).fop dbl fa) (((s.dev.fetched c w).core c).fop dbl fb)).flags &&& (((s.dev.fetched c w).core c).fcsr.toNat / 256 % 32) ≠ 0 →
      (s.dev.fetched c w).canEnter c 10 = true → Does (.coreFmax c w) s fun d =>
      (s.dev.trapsAfter d c w 10 0 fun x => let r : FRes := (fmtOf dbl).minMax true (x.fop dbl fa) (x.fop dbl fb); { x.setF fd (if dbl then BitVec.ofNat 64 r.bits else 0xFFFFFFFF00000000 ||| BitVec.ofNat 64 r.bits) with fcsr := ((x.fcsr ||| BitVec.ofNat 32 r.flags) &&& 0xFFE0FFFF) ||| (BitVec.ofNat 32 r.flags <<< 16) })) ∧
  (∀ (c : Fin 4) (w : Word) (dbl : Bool) (fd : Nat) (fa : Nat) (fb : Nat), s.dev.runs c w = true →
      decodeW w = .fsgn 0 dbl fd fa fb → Does (.coreFsgnj c w) s fun d =>
      (s.dev.computes d c w fun x => let s1 := (if dbl then 0x8000000000000000#64 else 0x80000000#64); let m1 := (if dbl then 0xFFFFFFFFFFFFFFFF#64 else 0xFFFFFFFF#64); x.setF fd ((x.rf fa &&& m1 &&& ~~~s1) ||| (x.rf fb &&& s1) ||| ~~~m1))) ∧
  (∀ (c : Fin 4) (w : Word) (dbl : Bool) (fd : Nat) (fa : Nat) (fb : Nat), s.dev.runs c w = true →
      decodeW w = .fsgn 1 dbl fd fa fb → Does (.coreFsgnjn c w) s fun d =>
      (s.dev.computes d c w fun x => let s1 := (if dbl then 0x8000000000000000#64 else 0x80000000#64); let m1 := (if dbl then 0xFFFFFFFFFFFFFFFF#64 else 0xFFFFFFFF#64); x.setF fd ((x.rf fa &&& m1 &&& ~~~s1) ||| (~~~x.rf fb &&& s1) ||| ~~~m1))) ∧
  (∀ (c : Fin 4) (w : Word) (dbl : Bool) (fd : Nat) (fa : Nat) (fb : Nat), s.dev.runs c w = true →
      decodeW w = .fsgn 2 dbl fd fa fb → Does (.coreFsgnjx c w) s fun d =>
      (s.dev.computes d c w fun x => let s1 := (if dbl then 0x8000000000000000#64 else 0x80000000#64); let m1 := (if dbl then 0xFFFFFFFFFFFFFFFF#64 else 0xFFFFFFFF#64); x.setF fd ((x.rf fa &&& m1 &&& ~~~s1) ||| ((x.rf fa ^^^ x.rf fb) &&& s1) ||| ~~~m1))) ∧
  (∀ (c : Fin 4) (w : Word) (dbl : Bool) (gd : Nat) (fa : Nat) (fb : Nat), s.dev.runs c w = true →
      decodeW w = .fcmp 0 dbl gd fa fb →
      ((let q := (fmtOf dbl).fcmp 0 (((s.dev.fetched c w).core c).fop dbl fa) (((s.dev.fetched c w).core c).fop dbl fb); (if q.1 then 1#32 else 0#32, q.2))).2 &&& (((s.dev.fetched c w).core c).fcsr.toNat / 256 % 32) = 0 →
      Does (.coreFcmpEq c w) s fun d =>
      (s.dev.computes d c w fun x => let p : Word × Nat := (let q := (fmtOf dbl).fcmp 0 (x.fop dbl fa) (x.fop dbl fb); (if q.1 then 1#32 else 0#32, q.2)); { x.setG gd p.1 with fcsr := x.fcsr ||| BitVec.ofNat 32 p.2 })) ∧
  (∀ (c : Fin 4) (w : Word) (dbl : Bool) (gd : Nat) (fa : Nat) (fb : Nat), s.dev.runs c w = true →
      decodeW w = .fcmp 0 dbl gd fa fb →
      ((let q := (fmtOf dbl).fcmp 0 (((s.dev.fetched c w).core c).fop dbl fa) (((s.dev.fetched c w).core c).fop dbl fb); (if q.1 then 1#32 else 0#32, q.2))).2 &&& (((s.dev.fetched c w).core c).fcsr.toNat / 256 % 32) ≠ 0 →
      (s.dev.fetched c w).canEnter c 10 = true → Does (.coreFcmpEq c w) s fun d =>
      (s.dev.trapsAfter d c w 10 0 fun x => let p : Word × Nat := (let q := (fmtOf dbl).fcmp 0 (x.fop dbl fa) (x.fop dbl fb); (if q.1 then 1#32 else 0#32, q.2)); { x.setG gd p.1 with fcsr := ((x.fcsr ||| BitVec.ofNat 32 p.2) &&& 0xFFE0FFFF) ||| (BitVec.ofNat 32 p.2 <<< 16) })) ∧
  (∀ (c : Fin 4) (w : Word) (dbl : Bool) (gd : Nat) (fa : Nat) (fb : Nat), s.dev.runs c w = true →
      decodeW w = .fcmp 1 dbl gd fa fb →
      ((let q := (fmtOf dbl).fcmp 1 (((s.dev.fetched c w).core c).fop dbl fa) (((s.dev.fetched c w).core c).fop dbl fb); (if q.1 then 1#32 else 0#32, q.2))).2 &&& (((s.dev.fetched c w).core c).fcsr.toNat / 256 % 32) = 0 →
      Does (.coreFcmpLt c w) s fun d =>
      (s.dev.computes d c w fun x => let p : Word × Nat := (let q := (fmtOf dbl).fcmp 1 (x.fop dbl fa) (x.fop dbl fb); (if q.1 then 1#32 else 0#32, q.2)); { x.setG gd p.1 with fcsr := x.fcsr ||| BitVec.ofNat 32 p.2 })) ∧
  (∀ (c : Fin 4) (w : Word) (dbl : Bool) (gd : Nat) (fa : Nat) (fb : Nat), s.dev.runs c w = true →
      decodeW w = .fcmp 1 dbl gd fa fb →
      ((let q := (fmtOf dbl).fcmp 1 (((s.dev.fetched c w).core c).fop dbl fa) (((s.dev.fetched c w).core c).fop dbl fb); (if q.1 then 1#32 else 0#32, q.2))).2 &&& (((s.dev.fetched c w).core c).fcsr.toNat / 256 % 32) ≠ 0 →
      (s.dev.fetched c w).canEnter c 10 = true → Does (.coreFcmpLt c w) s fun d =>
      (s.dev.trapsAfter d c w 10 0 fun x => let p : Word × Nat := (let q := (fmtOf dbl).fcmp 1 (x.fop dbl fa) (x.fop dbl fb); (if q.1 then 1#32 else 0#32, q.2)); { x.setG gd p.1 with fcsr := ((x.fcsr ||| BitVec.ofNat 32 p.2) &&& 0xFFE0FFFF) ||| (BitVec.ofNat 32 p.2 <<< 16) })) ∧
  (∀ (c : Fin 4) (w : Word) (dbl : Bool) (gd : Nat) (fa : Nat) (fb : Nat), s.dev.runs c w = true →
      decodeW w = .fcmp 2 dbl gd fa fb →
      ((let q := (fmtOf dbl).fcmp 2 (((s.dev.fetched c w).core c).fop dbl fa) (((s.dev.fetched c w).core c).fop dbl fb); (if q.1 then 1#32 else 0#32, q.2))).2 &&& (((s.dev.fetched c w).core c).fcsr.toNat / 256 % 32) = 0 →
      Does (.coreFcmpLe c w) s fun d =>
      (s.dev.computes d c w fun x => let p : Word × Nat := (let q := (fmtOf dbl).fcmp 2 (x.fop dbl fa) (x.fop dbl fb); (if q.1 then 1#32 else 0#32, q.2)); { x.setG gd p.1 with fcsr := x.fcsr ||| BitVec.ofNat 32 p.2 })) ∧
  (∀ (c : Fin 4) (w : Word) (dbl : Bool) (gd : Nat) (fa : Nat) (fb : Nat), s.dev.runs c w = true →
      decodeW w = .fcmp 2 dbl gd fa fb →
      ((let q := (fmtOf dbl).fcmp 2 (((s.dev.fetched c w).core c).fop dbl fa) (((s.dev.fetched c w).core c).fop dbl fb); (if q.1 then 1#32 else 0#32, q.2))).2 &&& (((s.dev.fetched c w).core c).fcsr.toNat / 256 % 32) ≠ 0 →
      (s.dev.fetched c w).canEnter c 10 = true → Does (.coreFcmpLe c w) s fun d =>
      (s.dev.trapsAfter d c w 10 0 fun x => let p : Word × Nat := (let q := (fmtOf dbl).fcmp 2 (x.fop dbl fa) (x.fop dbl fb); (if q.1 then 1#32 else 0#32, q.2)); { x.setG gd p.1 with fcsr := ((x.fcsr ||| BitVec.ofNat 32 p.2) &&& 0xFFE0FFFF) ||| (BitVec.ofNat 32 p.2 <<< 16) })) ∧
  (∀ (c : Fin 4) (w : Word) (dbl : Bool) (gd : Nat) (fa : Nat) (fb : Nat), s.dev.runs c w = true →
      decodeW w = .fcmp 3 dbl gd fa fb →
      ((let q := (fmtOf dbl).fcmp 3 (((s.dev.fetched c w).core c).fop dbl fa) (((s.dev.fetched c w).core c).fop dbl fb); (if q.1 then 1#32 else 0#32, q.2))).2 &&& (((s.dev.fetched c w).core c).fcsr.toNat / 256 % 32) = 0 →
      Does (.coreFcmpUn c w) s fun d =>
      (s.dev.computes d c w fun x => let p : Word × Nat := (let q := (fmtOf dbl).fcmp 3 (x.fop dbl fa) (x.fop dbl fb); (if q.1 then 1#32 else 0#32, q.2)); { x.setG gd p.1 with fcsr := x.fcsr ||| BitVec.ofNat 32 p.2 })) ∧
  (∀ (c : Fin 4) (w : Word) (dbl : Bool) (gd : Nat) (fa : Nat) (fb : Nat), s.dev.runs c w = true →
      decodeW w = .fcmp 3 dbl gd fa fb →
      ((let q := (fmtOf dbl).fcmp 3 (((s.dev.fetched c w).core c).fop dbl fa) (((s.dev.fetched c w).core c).fop dbl fb); (if q.1 then 1#32 else 0#32, q.2))).2 &&& (((s.dev.fetched c w).core c).fcsr.toNat / 256 % 32) ≠ 0 →
      (s.dev.fetched c w).canEnter c 10 = true → Does (.coreFcmpUn c w) s fun d =>
      (s.dev.trapsAfter d c w 10 0 fun x => let p : Word × Nat := (let q := (fmtOf dbl).fcmp 3 (x.fop dbl fa) (x.fop dbl fb); (if q.1 then 1#32 else 0#32, q.2)); { x.setG gd p.1 with fcsr := ((x.fcsr ||| BitVec.ofNat 32 p.2) &&& 0xFFE0FFFF) ||| (BitVec.ofNat 32 p.2 <<< 16) })) ∧
  (∀ (c : Fin 4) (w : Word) (dbl : Bool) (gd : Nat) (fa : Nat), s.dev.runs c w = true → decodeW w = .fclass dbl gd fa →
      Does (.coreFclass c w) s fun d =>
      (s.dev.computes d c w fun x => x.setG gd (BitVec.ofNat 32 ((fmtOf dbl).fclass (x.fop dbl fa))))) ∧
  (∀ (c : Fin 4) (w : Word) (dbl : Bool) (rm : Nat) (fd : Nat) (fa : Nat), s.dev.runs c w = true →
      decodeW w = .fcvt dbl rm fd fa →
      ((fmtOf dbl).cvt (if rm = 7 then ((s.dev.fetched c w).core c).fcsr.toNat / 32 % 8 else rm) ((fmtOf (!dbl)).unpack (((s.dev.fetched c w).core c).fop (!dbl) fa))).flags &&& (((s.dev.fetched c w).core c).fcsr.toNat / 256 % 32) = 0 →
      Does (.coreFcvt c w) s fun d =>
      (s.dev.computes d c w fun x => let r : FRes := (fmtOf dbl).cvt (if rm = 7 then x.fcsr.toNat / 32 % 8 else rm) ((fmtOf (!dbl)).unpack (x.fop (!dbl) fa)); { x.setF fd (if dbl then BitVec.ofNat 64 r.bits else 0xFFFFFFFF00000000 ||| BitVec.ofNat 64 r.bits) with fcsr := x.fcsr ||| BitVec.ofNat 32 r.flags })) ∧
  (∀ (c : Fin 4) (w : Word) (dbl : Bool) (rm : Nat) (fd : Nat) (fa : Nat), s.dev.runs c w = true →
      decodeW w = .fcvt dbl rm fd fa →
      ((fmtOf dbl).cvt (if rm = 7 then ((s.dev.fetched c w).core c).fcsr.toNat / 32 % 8 else rm) ((fmtOf (!dbl)).unpack (((s.dev.fetched c w).core c).fop (!dbl) fa))).flags &&& (((s.dev.fetched c w).core c).fcsr.toNat / 256 % 32) ≠ 0 →
      (s.dev.fetched c w).canEnter c 10 = true → Does (.coreFcvt c w) s fun d =>
      (s.dev.trapsAfter d c w 10 0 fun x => let r : FRes := (fmtOf dbl).cvt (if rm = 7 then x.fcsr.toNat / 32 % 8 else rm) ((fmtOf (!dbl)).unpack (x.fop (!dbl) fa)); { x.setF fd (if dbl then BitVec.ofNat 64 r.bits else 0xFFFFFFFF00000000 ||| BitVec.ofNat 64 r.bits) with fcsr := ((x.fcsr ||| BitVec.ofNat 32 r.flags) &&& 0xFFE0FFFF) ||| (BitVec.ofNat 32 r.flags <<< 16) })) ∧
  (∀ (c : Fin 4) (w : Word) (dbl : Bool) (rm : Nat) (gd : Nat) (fa : Nat), s.dev.runs c w = true →
      decodeW w = .fcvtw false dbl rm gd fa →
      (cvtToInt false (if rm = 7 then ((s.dev.fetched c w).core c).fcsr.toNat / 32 % 8 else rm) ((fmtOf dbl).unpack (((s.dev.fetched c w).core c).fop dbl fa))).2 &&& (((s.dev.fetched c w).core c).fcsr.toNat / 256 % 32) = 0 →
      Does (.coreFcvtW c w) s fun d =>
      (s.dev.computes d c w fun x => let p : Word × Nat := cvtToInt false (if rm = 7 then x.fcsr.toNat / 32 % 8 else rm) ((fmtOf dbl).unpack (x.fop dbl fa)); { x.setG gd p.1 with fcsr := x.fcsr ||| BitVec.ofNat 32 p.2 })) ∧
  (∀ (c : Fin 4) (w : Word) (dbl : Bool) (rm : Nat) (gd : Nat) (fa : Nat), s.dev.runs c w = true →
      decodeW w = .fcvtw false dbl rm gd fa →
      (cvtToInt false (if rm = 7 then ((s.dev.fetched c w).core c).fcsr.toNat / 32 % 8 else rm) ((fmtOf dbl).unpack (((s.dev.fetched c w).core c).fop dbl fa))).2 &&& (((s.dev.fetched c w).core c).fcsr.toNat / 256 % 32) ≠ 0 →
      (s.dev.fetched c w).canEnter c 10 = true → Does (.coreFcvtW c w) s fun d =>
      (s.dev.trapsAfter d c w 10 0 fun x => let p : Word × Nat := cvtToInt false (if rm = 7 then x.fcsr.toNat / 32 % 8 else rm) ((fmtOf dbl).unpack (x.fop dbl fa)); { x.setG gd p.1 with fcsr := ((x.fcsr ||| BitVec.ofNat 32 p.2) &&& 0xFFE0FFFF) ||| (BitVec.ofNat 32 p.2 <<< 16) })) ∧
  (∀ (c : Fin 4) (w : Word) (dbl : Bool) (rm : Nat) (gd : Nat) (fa : Nat), s.dev.runs c w = true →
      decodeW w = .fcvtw true dbl rm gd fa →
      (cvtToInt true (if rm = 7 then ((s.dev.fetched c w).core c).fcsr.toNat / 32 % 8 else rm) ((fmtOf dbl).unpack (((s.dev.fetched c w).core c).fop dbl fa))).2 &&& (((s.dev.fetched c w).core c).fcsr.toNat / 256 % 32) = 0 →
      Does (.coreFcvtWu c w) s fun d =>
      (s.dev.computes d c w fun x => let p : Word × Nat := cvtToInt true (if rm = 7 then x.fcsr.toNat / 32 % 8 else rm) ((fmtOf dbl).unpack (x.fop dbl fa)); { x.setG gd p.1 with fcsr := x.fcsr ||| BitVec.ofNat 32 p.2 })) ∧
  (∀ (c : Fin 4) (w : Word) (dbl : Bool) (rm : Nat) (gd : Nat) (fa : Nat), s.dev.runs c w = true →
      decodeW w = .fcvtw true dbl rm gd fa →
      (cvtToInt true (if rm = 7 then ((s.dev.fetched c w).core c).fcsr.toNat / 32 % 8 else rm) ((fmtOf dbl).unpack (((s.dev.fetched c w).core c).fop dbl fa))).2 &&& (((s.dev.fetched c w).core c).fcsr.toNat / 256 % 32) ≠ 0 →
      (s.dev.fetched c w).canEnter c 10 = true → Does (.coreFcvtWu c w) s fun d =>
      (s.dev.trapsAfter d c w 10 0 fun x => let p : Word × Nat := cvtToInt true (if rm = 7 then x.fcsr.toNat / 32 % 8 else rm) ((fmtOf dbl).unpack (x.fop dbl fa)); { x.setG gd p.1 with fcsr := ((x.fcsr ||| BitVec.ofNat 32 p.2) &&& 0xFFE0FFFF) ||| (BitVec.ofNat 32 p.2 <<< 16) })) ∧
  (∀ (c : Fin 4) (w : Word) (dbl : Bool) (rm : Nat) (fd : Nat) (ga : Nat), s.dev.runs c w = true →
      decodeW w = .fcvtf false dbl rm fd ga →
      ((fmtOf dbl).roundInt (if rm = 7 then ((s.dev.fetched c w).core c).fcsr.toNat / 32 % 8 else rm) false ((((s.dev.fetched c w).core c).rg ga).toInt) 0).flags &&& (((s.dev.fetched c w).core c).fcsr.toNat / 256 % 32) = 0 →
      Does (.coreFcvtFW c w) s fun d =>
      (s.dev.computes d c w fun x => let r : FRes := (fmtOf dbl).roundInt (if rm = 7 then x.fcsr.toNat / 32 % 8 else rm) false ((x.rg ga).toInt) 0; { x.setF fd (if dbl then BitVec.ofNat 64 r.bits else 0xFFFFFFFF00000000 ||| BitVec.ofNat 64 r.bits) with fcsr := x.fcsr ||| BitVec.ofNat 32 r.flags })) ∧
  (∀ (c : Fin 4) (w : Word) (dbl : Bool) (rm : Nat) (fd : Nat) (ga : Nat), s.dev.runs c w = true →
      decodeW w = .fcvtf false dbl rm fd ga →
      ((fmtOf dbl).roundInt (if rm = 7 then ((s.dev.fetched c w).core c).fcsr.toNat / 32 % 8 else rm) false ((((s.dev.fetched c w).core c).rg ga).toInt) 0).flags &&& (((s.dev.fetched c w).core c).fcsr.toNat / 256 % 32) ≠ 0 →
      (s.dev.fetched c w).canEnter c 10 = true → Does (.coreFcvtFW c w) s fun d =>
      (s.dev.trapsAfter d c w 10 0 fun x => let r : FRes := (fmtOf dbl).roundInt (if rm = 7 then x.fcsr.toNat / 32 % 8 else rm) false ((x.rg ga).toInt) 0; { x.setF fd (if dbl then BitVec.ofNat 64 r.bits else 0xFFFFFFFF00000000 ||| BitVec.ofNat 64 r.bits) with fcsr := ((x.fcsr ||| BitVec.ofNat 32 r.flags) &&& 0xFFE0FFFF) ||| (BitVec.ofNat 32 r.flags <<< 16) })) ∧
  (∀ (c : Fin 4) (w : Word) (dbl : Bool) (rm : Nat) (fd : Nat) (ga : Nat), s.dev.runs c w = true →
      decodeW w = .fcvtf true dbl rm fd ga →
      ((fmtOf dbl).roundInt (if rm = 7 then ((s.dev.fetched c w).core c).fcsr.toNat / 32 % 8 else rm) false ((((s.dev.fetched c w).core c).rg ga).toNat) 0).flags &&& (((s.dev.fetched c w).core c).fcsr.toNat / 256 % 32) = 0 →
      Does (.coreFcvtFWu c w) s fun d =>
      (s.dev.computes d c w fun x => let r : FRes := (fmtOf dbl).roundInt (if rm = 7 then x.fcsr.toNat / 32 % 8 else rm) false ((x.rg ga).toNat) 0; { x.setF fd (if dbl then BitVec.ofNat 64 r.bits else 0xFFFFFFFF00000000 ||| BitVec.ofNat 64 r.bits) with fcsr := x.fcsr ||| BitVec.ofNat 32 r.flags })) ∧
  (∀ (c : Fin 4) (w : Word) (dbl : Bool) (rm : Nat) (fd : Nat) (ga : Nat), s.dev.runs c w = true →
      decodeW w = .fcvtf true dbl rm fd ga →
      ((fmtOf dbl).roundInt (if rm = 7 then ((s.dev.fetched c w).core c).fcsr.toNat / 32 % 8 else rm) false ((((s.dev.fetched c w).core c).rg ga).toNat) 0).flags &&& (((s.dev.fetched c w).core c).fcsr.toNat / 256 % 32) ≠ 0 →
      (s.dev.fetched c w).canEnter c 10 = true → Does (.coreFcvtFWu c w) s fun d =>
      (s.dev.trapsAfter d c w 10 0 fun x => let r : FRes := (fmtOf dbl).roundInt (if rm = 7 then x.fcsr.toNat / 32 % 8 else rm) false ((x.rg ga).toNat) 0; { x.setF fd (if dbl then BitVec.ofNat 64 r.bits else 0xFFFFFFFF00000000 ||| BitVec.ofNat 64 r.bits) with fcsr := ((x.fcsr ||| BitVec.ofNat 32 r.flags) &&& 0xFFE0FFFF) ||| (BitVec.ofNat 32 r.flags <<< 16) })) ∧
  (∀ (c : Fin 4) (w : Word) (dbl : Bool) (gd : Nat) (fa : Nat), s.dev.runs c w = true → decodeW w = .fmvx dbl gd fa →
      Does (.coreFmvX c w) s fun d =>
      (s.dev.computes d c w fun x => let y := x.setG gd ((x.rf fa).setWidth 32); if dbl then y.setG (gd + 1) ((x.rf fa >>> 32).setWidth 32) else y)) ∧
  (∀ (c : Fin 4) (w : Word) (dbl : Bool) (fd : Nat) (ga : Nat), s.dev.runs c w = true → decodeW w = .fmvf dbl fd ga →
      Does (.coreFmvF c w) s fun d =>
      (s.dev.computes d c w fun x => x.setF fd (if dbl then x.rg (ga + 1) ++ x.rg ga else 0xFFFFFFFF#32 ++ x.rg ga))) ∧
  (∀ (c : Fin 4) (w : Word) (gd : Nat), s.dev.runs c w = true → decodeW w = .fmfc gd → Does (.coreFmfc c w) s fun d =>
      (s.dev.computes d c w fun x => x.setG gd x.fcsr)) ∧
  (∀ (c : Fin 4) (w : Word) (ga : Nat), s.dev.runs c w = true → decodeW w = .fmtc ga →
      (((s.dev.fetched c w).core c).rg ga).toNat / 32 % 8 < 5 → Does (.coreFmtc c w) s fun d =>
      (s.dev.computes d c w fun x => { x with fcsr := x.rg ga &&& 0x1F1FFF })) ∧
  (∀ (c : Fin 4) (w : Word) (ga : Nat), s.dev.runs c w = true → decodeW w = .fmtc ga →
      5 ≤ (((s.dev.fetched c w).core c).rg ga).toNat / 32 % 8 → Does (.coreFmtc c w) s fun d =>
      (s.dev.computes d c w fun x => { x with fcsr := (x.rg ga &&& 0x1F1F1F) ||| (x.fcsr &&& 0xE0) })) ∧
  (∀ (c : Fin 4) (w : Word) (dbl : Bool) (rm : Nat) (fd : Nat) (fa : Nat) (fb : Nat) (fc : Nat), s.dev.runs c w = true →
      decodeW w = .fma .madd dbl rm fd fa fb fc →
      ((fmtOf dbl).fma (if rm = 7 then ((s.dev.fetched c w).core c).fcsr.toNat / 32 % 8 else rm) .madd ((fmtOf dbl).unpack (((s.dev.fetched c w).core c).fop dbl fa)) ((fmtOf dbl).unpack (((s.dev.fetched c w).core c).fop dbl fb)) ((fmtOf dbl).unpack (((s.dev.fetched c w).core c).fop dbl fc))).flags &&& (((s.dev.fetched c w).core c).fcsr.toNat / 256 % 32) = 0 →
      Does (.coreFmadd c w) s fun d =>
      (s.dev.computes d c w fun x => let r : FRes := (fmtOf dbl).fma (if rm = 7 then x.fcsr.toNat / 32 % 8 else rm) .madd ((fmtOf dbl).unpack (x.fop dbl fa)) ((fmtOf dbl).unpack (x.fop dbl fb)) ((fmtOf dbl).unpack (x.fop dbl fc)); { x.setF fd (if dbl then BitVec.ofNat 64 r.bits else 0xFFFFFFFF00000000 ||| BitVec.ofNat 64 r.bits) with fcsr := x.fcsr ||| BitVec.ofNat 32 r.flags })) ∧
  (∀ (c : Fin 4) (w : Word) (dbl : Bool) (rm : Nat) (fd : Nat) (fa : Nat) (fb : Nat) (fc : Nat), s.dev.runs c w = true →
      decodeW w = .fma .madd dbl rm fd fa fb fc →
      ((fmtOf dbl).fma (if rm = 7 then ((s.dev.fetched c w).core c).fcsr.toNat / 32 % 8 else rm) .madd ((fmtOf dbl).unpack (((s.dev.fetched c w).core c).fop dbl fa)) ((fmtOf dbl).unpack (((s.dev.fetched c w).core c).fop dbl fb)) ((fmtOf dbl).unpack (((s.dev.fetched c w).core c).fop dbl fc))).flags &&& (((s.dev.fetched c w).core c).fcsr.toNat / 256 % 32) ≠ 0 →
      (s.dev.fetched c w).canEnter c 10 = true → Does (.coreFmadd c w) s fun d =>
      (s.dev.trapsAfter d c w 10 0 fun x => let r : FRes := (fmtOf dbl).fma (if rm = 7 then x.fcsr.toNat / 32 % 8 else rm) .madd ((fmtOf dbl).unpack (x.fop dbl fa)) ((fmtOf dbl).unpack (x.fop dbl fb)) ((fmtOf dbl).unpack (x.fop dbl fc)); { x.setF fd (if dbl then BitVec.ofNat 64 r.bits else 0xFFFFFFFF00000000 ||| BitVec.ofNat 64 r.bits) with fcsr := ((x.fcsr ||| BitVec.ofNat 32 r.flags) &&& 0xFFE0FFFF) ||| (BitVec.ofNat 32 r.flags <<< 16) })) ∧
  (∀ (c : Fin 4) (w : Word) (dbl : Bool) (rm : Nat) (fd : Nat) (fa : Nat) (fb : Nat) (fc : Nat), s.dev.runs c w = true →
      decodeW w = .fma .msub dbl rm fd fa fb fc →
      ((fmtOf dbl).fma (if rm = 7 then ((s.dev.fetched c w).core c).fcsr.toNat / 32 % 8 else rm) .msub ((fmtOf dbl).unpack (((s.dev.fetched c w).core c).fop dbl fa)) ((fmtOf dbl).unpack (((s.dev.fetched c w).core c).fop dbl fb)) ((fmtOf dbl).unpack (((s.dev.fetched c w).core c).fop dbl fc))).flags &&& (((s.dev.fetched c w).core c).fcsr.toNat / 256 % 32) = 0 →
      Does (.coreFmsub c w) s fun d =>
      (s.dev.computes d c w fun x => let r : FRes := (fmtOf dbl).fma (if rm = 7 then x.fcsr.toNat / 32 % 8 else rm) .msub ((fmtOf dbl).unpack (x.fop dbl fa)) ((fmtOf dbl).unpack (x.fop dbl fb)) ((fmtOf dbl).unpack (x.fop dbl fc)); { x.setF fd (if dbl then BitVec.ofNat 64 r.bits else 0xFFFFFFFF00000000 ||| BitVec.ofNat 64 r.bits) with fcsr := x.fcsr ||| BitVec.ofNat 32 r.flags })) ∧
  (∀ (c : Fin 4) (w : Word) (dbl : Bool) (rm : Nat) (fd : Nat) (fa : Nat) (fb : Nat) (fc : Nat), s.dev.runs c w = true →
      decodeW w = .fma .msub dbl rm fd fa fb fc →
      ((fmtOf dbl).fma (if rm = 7 then ((s.dev.fetched c w).core c).fcsr.toNat / 32 % 8 else rm) .msub ((fmtOf dbl).unpack (((s.dev.fetched c w).core c).fop dbl fa)) ((fmtOf dbl).unpack (((s.dev.fetched c w).core c).fop dbl fb)) ((fmtOf dbl).unpack (((s.dev.fetched c w).core c).fop dbl fc))).flags &&& (((s.dev.fetched c w).core c).fcsr.toNat / 256 % 32) ≠ 0 →
      (s.dev.fetched c w).canEnter c 10 = true → Does (.coreFmsub c w) s fun d =>
      (s.dev.trapsAfter d c w 10 0 fun x => let r : FRes := (fmtOf dbl).fma (if rm = 7 then x.fcsr.toNat / 32 % 8 else rm) .msub ((fmtOf dbl).unpack (x.fop dbl fa)) ((fmtOf dbl).unpack (x.fop dbl fb)) ((fmtOf dbl).unpack (x.fop dbl fc)); { x.setF fd (if dbl then BitVec.ofNat 64 r.bits else 0xFFFFFFFF00000000 ||| BitVec.ofNat 64 r.bits) with fcsr := ((x.fcsr ||| BitVec.ofNat 32 r.flags) &&& 0xFFE0FFFF) ||| (BitVec.ofNat 32 r.flags <<< 16) })) ∧
  (∀ (c : Fin 4) (w : Word) (dbl : Bool) (rm : Nat) (fd : Nat) (fa : Nat) (fb : Nat) (fc : Nat), s.dev.runs c w = true →
      decodeW w = .fma .nmadd dbl rm fd fa fb fc →
      ((fmtOf dbl).fma (if rm = 7 then ((s.dev.fetched c w).core c).fcsr.toNat / 32 % 8 else rm) .nmadd ((fmtOf dbl).unpack (((s.dev.fetched c w).core c).fop dbl fa)) ((fmtOf dbl).unpack (((s.dev.fetched c w).core c).fop dbl fb)) ((fmtOf dbl).unpack (((s.dev.fetched c w).core c).fop dbl fc))).flags &&& (((s.dev.fetched c w).core c).fcsr.toNat / 256 % 32) = 0 →
      Does (.coreFnmadd c w) s fun d =>
      (s.dev.computes d c w fun x => let r : FRes := (fmtOf dbl).fma (if rm = 7 then x.fcsr.toNat / 32 % 8 else rm) .nmadd ((fmtOf dbl).unpack (x.fop dbl fa)) ((fmtOf dbl).unpack (x.fop dbl fb)) ((fmtOf dbl).unpack (x.fop dbl fc)); { x.setF fd (if dbl then BitVec.ofNat 64 r.bits else 0xFFFFFFFF00000000 ||| BitVec.ofNat 64 r.bits) with fcsr := x.fcsr ||| BitVec.ofNat 32 r.flags })) ∧
  (∀ (c : Fin 4) (w : Word) (dbl : Bool) (rm : Nat) (fd : Nat) (fa : Nat) (fb : Nat) (fc : Nat), s.dev.runs c w = true →
      decodeW w = .fma .nmadd dbl rm fd fa fb fc →
      ((fmtOf dbl).fma (if rm = 7 then ((s.dev.fetched c w).core c).fcsr.toNat / 32 % 8 else rm) .nmadd ((fmtOf dbl).unpack (((s.dev.fetched c w).core c).fop dbl fa)) ((fmtOf dbl).unpack (((s.dev.fetched c w).core c).fop dbl fb)) ((fmtOf dbl).unpack (((s.dev.fetched c w).core c).fop dbl fc))).flags &&& (((s.dev.fetched c w).core c).fcsr.toNat / 256 % 32) ≠ 0 →
      (s.dev.fetched c w).canEnter c 10 = true → Does (.coreFnmadd c w) s fun d =>
      (s.dev.trapsAfter d c w 10 0 fun x => let r : FRes := (fmtOf dbl).fma (if rm = 7 then x.fcsr.toNat / 32 % 8 else rm) .nmadd ((fmtOf dbl).unpack (x.fop dbl fa)) ((fmtOf dbl).unpack (x.fop dbl fb)) ((fmtOf dbl).unpack (x.fop dbl fc)); { x.setF fd (if dbl then BitVec.ofNat 64 r.bits else 0xFFFFFFFF00000000 ||| BitVec.ofNat 64 r.bits) with fcsr := ((x.fcsr ||| BitVec.ofNat 32 r.flags) &&& 0xFFE0FFFF) ||| (BitVec.ofNat 32 r.flags <<< 16) })) ∧
  (∀ (c : Fin 4) (w : Word) (dbl : Bool) (rm : Nat) (fd : Nat) (fa : Nat) (fb : Nat) (fc : Nat), s.dev.runs c w = true →
      decodeW w = .fma .nmsub dbl rm fd fa fb fc →
      ((fmtOf dbl).fma (if rm = 7 then ((s.dev.fetched c w).core c).fcsr.toNat / 32 % 8 else rm) .nmsub ((fmtOf dbl).unpack (((s.dev.fetched c w).core c).fop dbl fa)) ((fmtOf dbl).unpack (((s.dev.fetched c w).core c).fop dbl fb)) ((fmtOf dbl).unpack (((s.dev.fetched c w).core c).fop dbl fc))).flags &&& (((s.dev.fetched c w).core c).fcsr.toNat / 256 % 32) = 0 →
      Does (.coreFnmsub c w) s fun d =>
      (s.dev.computes d c w fun x => let r : FRes := (fmtOf dbl).fma (if rm = 7 then x.fcsr.toNat / 32 % 8 else rm) .nmsub ((fmtOf dbl).unpack (x.fop dbl fa)) ((fmtOf dbl).unpack (x.fop dbl fb)) ((fmtOf dbl).unpack (x.fop dbl fc)); { x.setF fd (if dbl then BitVec.ofNat 64 r.bits else 0xFFFFFFFF00000000 ||| BitVec.ofNat 64 r.bits) with fcsr := x.fcsr ||| BitVec.ofNat 32 r.flags })) ∧
  (∀ (c : Fin 4) (w : Word) (dbl : Bool) (rm : Nat) (fd : Nat) (fa : Nat) (fb : Nat) (fc : Nat), s.dev.runs c w = true →
      decodeW w = .fma .nmsub dbl rm fd fa fb fc →
      ((fmtOf dbl).fma (if rm = 7 then ((s.dev.fetched c w).core c).fcsr.toNat / 32 % 8 else rm) .nmsub ((fmtOf dbl).unpack (((s.dev.fetched c w).core c).fop dbl fa)) ((fmtOf dbl).unpack (((s.dev.fetched c w).core c).fop dbl fb)) ((fmtOf dbl).unpack (((s.dev.fetched c w).core c).fop dbl fc))).flags &&& (((s.dev.fetched c w).core c).fcsr.toNat / 256 % 32) ≠ 0 →
      (s.dev.fetched c w).canEnter c 10 = true → Does (.coreFnmsub c w) s fun d =>
      (s.dev.trapsAfter d c w 10 0 fun x => let r : FRes := (fmtOf dbl).fma (if rm = 7 then x.fcsr.toNat / 32 % 8 else rm) .nmsub ((fmtOf dbl).unpack (x.fop dbl fa)) ((fmtOf dbl).unpack (x.fop dbl fb)) ((fmtOf dbl).unpack (x.fop dbl fc)); { x.setF fd (if dbl then BitVec.ofNat 64 r.bits else 0xFFFFFFFF00000000 ||| BitVec.ofNat 64 r.bits) with fcsr := ((x.fcsr ||| BitVec.ofNat 32 r.flags) &&& 0xFFE0FFFF) ||| (BitVec.ofNat 32 r.flags <<< 16) })) ∧
  (∀ (c : Fin 4) (w : Word) (m : AddrMode) (fd : Nat) (ra : Nat) (a : Nat), s.dev.runs c w = true →
      decodeW w = .fload 2 m fd ra →
      (s.dev.fetched c w).loads c (addrOf m ((s.dev.fetched c w).core c).rg ra 2 (((s.dev.fetched c w).core c).sf CORE.BANK 15 0)).1 4 a = true →
      Does (.coreFldx c w) s fun d =>
      (s.dev.computes d c w fun x => (let y := (match (addrOf m x.rg ra 2 (x.sf CORE.BANK 15 0)).2 with | some v => x.setG ra v | none => x); y.setF fd (0xFFFFFFFF00000000 ||| BitVec.ofNat 64 ((s.dev.fetched c w).le a 4))))) ∧
  (∀ (c : Fin 4) (w : Word) (m : AddrMode) (fs : Nat) (ra : Nat) (a : Nat), s.dev.runs c w = true →
      decodeW w = .fstore 2 m fs ra →
      (s.dev.fetched c w).stores c (addrOf m ((s.dev.fetched c w).core c).rg ra 2 (((s.dev.fetched c w).core c).sf CORE.BANK 15 0)).1 4 a = true →
      Does (.coreFstx c w) s fun d =>
      (s.dev.computes d c w fun x => (let y := (match (addrOf m x.rg ra 2 (x.sf CORE.BANK 15 0)).2 with | some v => x.setG ra v | none => x); y.buffers (addrOf m x.rg ra 2 (x.sf CORE.BANK 15 0)).1 4 a (x.rf fs)))) ∧
  (∀ (c : Fin 4) (w : Word) (m : AddrMode) (fd : Nat) (ra : Nat) (a : Nat), s.dev.runs c w = true →
      decodeW w = .fload 3 m fd ra →
      (s.dev.fetched c w).loads c (addrOf m ((s.dev.fetched c w).core c).rg ra 3 (((s.dev.fetched c w).core c).sf CORE.BANK 15 0)).1 8 a = true →
      Does (.coreFldx c w) s fun d =>
      (s.dev.computes d c w fun x => (let y := (match (addrOf m x.rg ra 3 (x.sf CORE.BANK 15 0)).2 with | some v => x.setG ra v | none => x); y.setF fd (BitVec.ofNat 64 ((s.dev.fetched c w).le a 8))))) ∧
  (∀ (c : Fin 4) (w : Word) (m : AddrMode) (fs : Nat) (ra : Nat) (a : Nat), s.dev.runs c w = true →
      decodeW w = .fstore 3 m fs ra →
      (s.dev.fetched c w).stores c (addrOf m ((s.dev.fetched c w).core c).rg ra 3 (((s.dev.fetched c w).core c).sf CORE.BANK 15 0)).1 8 a = true →
      Does (.coreFstx c w) s fun d =>
      (s.dev.computes d c w fun x => (let y := (match (addrOf m x.rg ra 3 (x.sf CORE.BANK 15 0)).2 with | some v => x.setG ra v | none => x); y.buffers (addrOf m x.rg ra 3 (x.sf CORE.BANK 15 0)).1 8 a (x.rf fs))))

/-- For every core: a drain writes the masked bytes of the oldest buffered store, and no other byte, and drops the entry; a refused one makes an imprecise BUSERR with INFO 4 at a split core between instructions; the answer of an ORDERED read of a split core writes its register and retires its instruction, that of a write retires it, a refusal is a BUSERR at the instruction; the access of a stopped core completes with nothing retired; two equal requests of a lockstep pair are performed once and retire on both cores, unequal ones declare a mismatch; the command forms of CACHE_CTRL, PERF_CTRL, EVC_CLR and EVC_PEND change those registers alone, and are ignored at USER. Where a clause rests on a reading or a choice of the model, it is the model's and not the spec's: log entries 84, 85, 91 and 93. -/
def Obligations.CoreMemoryAnswers : Prop :=
  ∀ s : State,
  (∀ (c : Fin 4) (q : SbEntry) (t : List SbEntry), (s.dev.core c).sb = q :: t →
      (s.dev.lockstep c = false ∨ s.dev.memCode q.addr = some c.val) →
      (s.dev.memCode q.addr = some c.val ∨ s.dev.tcmTwins q.addr = [q.addr]) → s.dev.sbAccepts c q = true → q.addr % 8 = 0 →
      s.dev.ecc = [] → s.dev.lgDram = false → s.dev.calm c = true → Does (.storeBufferDrain c) s fun d =>
      (d.core c).bare = ({ (s.dev.core c) with sb := t } : CoreSt).bare ∧
      (∀ i : Fin 8, d.byte (q.addr + i.val) = if q.mask.testBit i.val then BitVec.ofNat 8 (q.data.toNat / 2 ^ (8 * i.val)) else s.dev.byte (q.addr + i.val)) ∧
      s.dev.bytesKept d q.addr (q.addr + 8) ∧ (∀ k : Fin 4, k ≠ c → (d.core k).bare = (s.dev.core k).bare) ∧
      ({ s.dev with cores := d.cores, ecc := d.ecc } : Dev).rest d = d ∧ s.dev.keepsRegs d (CORES.CORE_STATUS c :: eccWords)) ∧
  (∀ (c : Fin 4) (q : SbEntry) (t : List SbEntry), (s.dev.core c).sb = q :: t → s.dev.lockstep c = false →
      s.dev.sbAccepts c q = false → q.kind = .plain → s.dev.canEnter c 6 = true → s.dev.calm c = true → s.dev.between c = true →
      Does (.storeBufferDrain c) s fun d =>
      s.dev.becomes d c (({ (s.dev.core c) with sb := t } : CoreSt).handling c 6 4 0x10 q.core (s.dev.core c).pc)) ∧
  (∀ (c : Fin 4), (s.dev.core c).sb = [] → Does (.storeBufferDrain c) s fun d => d.answer = .ignored ∧ s.dev.keepsUnits d ∧
      s.dev.keepsRegs d []) ∧
  (∀ (c : Fin 4) (q : MemReq) (p rd : Nat) (bs : List Byte) (e : Dev), (s.dev.core c).req = some q → (s.dev.core c).lost = none →
      q.sent = false → q.amo = none → s.dev.lockstep c = false → s.dev.coreState c = 2 → s.dev.place c q.addr = .ordered p →
      q.data = none → q.dest = .g rd false 2 → q.upd = none → bs.length = 4 →
      s.dev.begun.busRead 1 (s.dev.coreAgent c) p q.len = (.done bs, e) → e.calm c = true → (e.core c).req = some q →
      e.coreState c = 2 → e.lockstep c = false → Does (.orderedAnswer c) s fun d =>
      e.retires d c ({ ((((e.core c).perf CORE.PERF_ORDERED_NS ((e.now - q.since).toNat / 64)).setG rd (BitVec.ofNat 32 (ofBytes bs))).thenNext q.ilen) with req := none })) ∧
  (∀ (c : Fin 4) (q : MemReq) (p : Nat) (v : DWord) (e : Dev), (s.dev.core c).req = some q → (s.dev.core c).lost = none →
      q.sent = false → q.amo = none → s.dev.lockstep c = false → s.dev.coreState c = 2 → s.dev.place c q.addr = .ordered p →
      q.data = some v → q.dest = .none → q.upd = none →
      s.dev.begun.busWrite (s.dev.coreAgent c) p (toBytes q.len v.toNat) = (.done [], e) → e.calm c = true →
      (e.core c).req = some q → e.coreState c = 2 → e.lockstep c = false → Does (.orderedAnswer c) s fun d =>
      e.retires { d with answer := .none } c ({ (((e.core c).perf CORE.PERF_ORDERED_NS ((e.now - q.since).toNat / 64)).thenNext q.ilen) with req := none })) ∧
  (∀ (c : Fin 4) (q : MemReq) (p : Nat), (s.dev.core c).req = some q → (s.dev.core c).lost = none → q.sent = false →
      q.amo = none → s.dev.lockstep c = false → s.dev.coreState c = 2 → s.dev.place c q.addr = .ordered p → q.data = none →
      s.dev.begun.busRead 1 (s.dev.coreAgent c) p q.len = (.abort, s.dev.begun) → s.dev.canEnter c 6 = true →
      Does (.orderedAnswer c) s fun d =>
      (let y : CoreSt := { ((s.dev.core c).perf CORE.PERF_ORDERED_NS ((s.dev.now - q.since).toNat / 64)) with req := none }; s.dev.becomes d c (y.handling c 6 1 0x10 q.addr y.pc))) ∧
  (∀ (c : Fin 4) (g : AgentId) (q : MemReq) (p : Nat), (s.dev.core c).lost = some (g, q) → q.sent = false → q.amo = none →
      q.data = none → s.dev.place c q.addr = .ordered p → Does (.orderedAnswer c) s fun d => (d.core c).lost = none ∧
      (d.core c).req = (s.dev.core c).req ∧ (d.core c).retired = (s.dev.core c).retired ∧ (d.core c).pc = (s.dev.core c).pc ∧
      (∀ r : Fin 32, (d.core c).rg r.val = (s.dev.core c).rg r.val)) ∧
  (∀ (c : Fin 4), (s.dev.core c).lost = none →
      ((s.dev.core c).req = none ∨ s.dev.coreState c = 0 ∨ s.dev.coreState c = 5 ∨ s.dev.lockstep c = true) →
      Does (.orderedAnswer c) s fun d => d.answer = .ignored ∧ s.dev.keepsUnits d ∧ s.dev.keepsRegs d []) ∧
  (∀ (p : Fin 2) (q r : MemReq), (s.dev.core (2 * p.val)).req = some q → (s.dev.core (2 * p.val + 1)).req = some r →
      s.dev.lockstep (2 * p.val) = true → (s.dev.pair p.val).declared = none →
      (s.dev.core (2 * p.val)).retired = (s.dev.core (2 * p.val + 1)).retired → q.same r = false →
      Does (.tollgateMatch p) s fun d => (d.pair p.val).declared = some s.dev.now ∧
      ({ d.pair p.val with declared := none } : PairSt) = s.dev.pair p.val ∧ { s.dev with pairs := d.pairs }.keepsUnits d ∧
      s.dev.keepsRegs d []) ∧
  (∀ (p : Fin 2) (q r : MemReq) (a rd : Nat) (bs : List Byte) (e : Dev), (s.dev.core (2 * p.val)).req = some q →
      (s.dev.core (2 * p.val + 1)).req = some r → s.dev.lockstep (2 * p.val) = true → (s.dev.pair p.val).declared = none →
      (s.dev.core (2 * p.val)).retired = (s.dev.core (2 * p.val + 1)).retired → q.same r = true → q.sent = false → q.amo = none →
      q.data = none → q.dest = .g rd false 2 → r.dest = .g rd false 2 → q.upd = none → r.upd = none → rd < 30 → bs.length = 4 →
      s.dev.place (2 * p.val) q.addr = .ordered a → s.dev.begun.busRead 1 (s.dev.coreAgent (2 * p.val)) a q.len = (.done bs, e) →
      inPeripherals a = true → s.dev.calm (2 * p.val) = true → s.dev.calm (2 * p.val + 1) = true →
      s.dev.coreState (2 * p.val) = 2 → s.dev.coreState (2 * p.val + 1) = 2 → Does (.tollgateMatch p) s fun d =>
      ((d.core (2 * p.val + 0)).req = none ∧ (d.core (2 * p.val + 0)).retired = (s.dev.core (2 * p.val + 0)).retired + 1 ∧
      (d.core (2 * p.val + 0)).rg rd = (if rd = 0 then 0 else BitVec.ofNat 32 (ofBytes bs)) ∧
      (d.core (2 * p.val + 0)).status = (s.dev.core (2 * p.val + 0)).status ∧ (d.core (2 * p.val + 1)).req = none ∧
      (d.core (2 * p.val + 1)).retired = (s.dev.core (2 * p.val + 1)).retired + 1 ∧
      (d.core (2 * p.val + 1)).rg rd = (if rd = 0 then 0 else BitVec.ofNat 32 (ofBytes bs)) ∧
      (d.core (2 * p.val + 1)).status = (s.dev.core (2 * p.val + 1)).status) ∧ (d.mem = s.dev.mem ∨ s.dev.lgDram = true)) ∧
  (∀ (c : Fin 4) (en : Bool), s.dev.coreState c = 2 → (s.dev.core c).pl ≠ 0 → s.dev.lockstep c = false →
      (s.dev.core c).sb.length ≤ 8 → (s.dev.core c).sb.all (s.dev.sbAccepts c) = true → Does (.cacheInvalidate c en) s fun d =>
      (d.core c).sb = [] ∧
      (d.core c).sys = ((fun x : CoreSt => ({ x.setS CORE.CACHE_CTRL ((x.s CORE.CACHE_CTRL &&& ~~~(1#32)) ||| (if en then 1 else 0)) with cache := [], lineBuf := [] } : CoreSt)) (s.dev.core c)).sys ∧
      (d.core c).retired = (s.dev.core c).retired) ∧
  (∀ (c : Fin 4) (en : Bool), (s.dev.coreState c = 4 ∨ s.dev.coreState c = 2 ∧ (s.dev.core c).sb = []) → (s.dev.core c).pl ≠ 0 →
      s.dev.lockstep c = false → Does (.cacheInvalidate c en) s fun d =>
      s.dev.becomes d c ((fun x : CoreSt => ({ x.setS CORE.CACHE_CTRL ((x.s CORE.CACHE_CTRL &&& ~~~(1#32)) ||| (if en then 1 else 0)) with cache := [], lineBuf := [] } : CoreSt)) (s.dev.core c))) ∧
  (∀ (c : Fin 4) (en : Bool), (s.dev.coreState c = 4 ∨ s.dev.coreState c = 2 ∧ (s.dev.core c).sb = []) → (s.dev.core c).pl ≠ 0 →
      s.dev.lockstep c = true → (s.dev.coreState c = 4 ∨ (s.dev.core (partner c)).sb = []) →
      Does (.cacheInvalidate c en) s fun d =>
      (d.core c).bare = ((fun x : CoreSt => ({ x.setS CORE.CACHE_CTRL ((x.s CORE.CACHE_CTRL &&& ~~~(1#32)) ||| (if en then 1 else 0)) with cache := [], lineBuf := [] } : CoreSt)) (s.dev.core c)).bare ∧
      (d.core (partner c)).bare = ((fun x : CoreSt => ({ x.setS CORE.CACHE_CTRL ((x.s CORE.CACHE_CTRL &&& ~~~(1#32)) ||| (if en then 1 else 0)) with cache := [], lineBuf := [] } : CoreSt)) (s.dev.core (partner c))).bare) ∧
  (∀ (c : Fin 4) (en : Bool), ((s.dev.core c).pl = 0 ∨ (s.dev.coreState c ≠ 2 ∧ s.dev.coreState c ≠ 4)) →
      Does (.cacheInvalidate c en) s fun d => d.answer = .ignored ∧ s.dev.keepsUnits d ∧ s.dev.keepsRegs d []) ∧
  (∀ (c : Fin 4) (en user : Bool), s.dev.coreState c = 2 → (s.dev.core c).pl ≠ 0 → s.dev.lockstep c = false →
      (s.dev.core c).sb.length ≤ 8 → (s.dev.core c).sb.all (s.dev.sbAccepts c) = true → Does (.perfClear c en user) s fun d =>
      (d.core c).sb = [] ∧
      (d.core c).sys = ((fun x : CoreSt => [CORE.PERF_RET, CORE.PERF_RET + 4, CORE.PERF_IC_MISS, CORE.PERF_LB_MISS, CORE.PERF_SB_FULL, CORE.PERF_FWD, CORE.PERF_PARTIAL_FWD_WAITS, CORE.PERF_ORDERED_NS].foldl (fun y o => y.setS o 0) (x.setS CORE.PERF_CTRL ((x.s CORE.PERF_CTRL &&& ~~~(3#32)) ||| (if en then 1 else 0) ||| (if user then 2 else 0)))) (s.dev.core c)).sys ∧
      (d.core c).retired = (s.dev.core c).retired) ∧
  (∀ (c : Fin 4) (en user : Bool), (s.dev.coreState c = 4 ∨ s.dev.coreState c = 2 ∧ (s.dev.core c).sb = []) →
      (s.dev.core c).pl ≠ 0 → s.dev.lockstep c = false → Does (.perfClear c en user) s fun d =>
      s.dev.becomes d c ((fun x : CoreSt => [CORE.PERF_RET, CORE.PERF_RET + 4, CORE.PERF_IC_MISS, CORE.PERF_LB_MISS, CORE.PERF_SB_FULL, CORE.PERF_FWD, CORE.PERF_PARTIAL_FWD_WAITS, CORE.PERF_ORDERED_NS].foldl (fun y o => y.setS o 0) (x.setS CORE.PERF_CTRL ((x.s CORE.PERF_CTRL &&& ~~~(3#32)) ||| (if en then 1 else 0) ||| (if user then 2 else 0)))) (s.dev.core c))) ∧
  (∀ (c : Fin 4) (en user : Bool), (s.dev.coreState c = 4 ∨ s.dev.coreState c = 2 ∧ (s.dev.core c).sb = []) →
      (s.dev.core c).pl ≠ 0 → s.dev.lockstep c = true → (s.dev.coreState c = 4 ∨ (s.dev.core (partner c)).sb = []) →
      Does (.perfClear c en user) s fun d =>
      (d.core c).bare = ((fun x : CoreSt => [CORE.PERF_RET, CORE.PERF_RET + 4, CORE.PERF_IC_MISS, CORE.PERF_LB_MISS, CORE.PERF_SB_FULL, CORE.PERF_FWD, CORE.PERF_PARTIAL_FWD_WAITS, CORE.PERF_ORDERED_NS].foldl (fun y o => y.setS o 0) (x.setS CORE.PERF_CTRL ((x.s CORE.PERF_CTRL &&& ~~~(3#32)) ||| (if en then 1 else 0) ||| (if user then 2 else 0)))) (s.dev.core c)).bare ∧
      (d.core (partner c)).bare = ((fun x : CoreSt => [CORE.PERF_RET, CORE.PERF_RET + 4, CORE.PERF_IC_MISS, CORE.PERF_LB_MISS, CORE.PERF_SB_FULL, CORE.PERF_FWD, CORE.PERF_PARTIAL_FWD_WAITS, CORE.PERF_ORDERED_NS].foldl (fun y o => y.setS o 0) (x.setS CORE.PERF_CTRL ((x.s CORE.PERF_CTRL &&& ~~~(3#32)) ||| (if en then 1 else 0) ||| (if user then 2 else 0)))) (s.dev.core (partner c))).bare) ∧
  (∀ (c : Fin 4) (en user : Bool), ((s.dev.core c).pl = 0 ∨ (s.dev.coreState c ≠ 2 ∧ s.dev.coreState c ≠ 4)) →
      Does (.perfClear c en user) s fun d => d.answer = .ignored ∧ s.dev.keepsUnits d ∧ s.dev.keepsRegs d []) ∧
  (∀ (c : Fin 4) (hi : Bool) (v : Word), s.dev.coreState c = 2 → (s.dev.core c).pl ≠ 0 → s.dev.lockstep c = false →
      (s.dev.core c).sb.length ≤ 8 → (s.dev.core c).sb.all (s.dev.sbAccepts c) = true → Does (.evcClr c hi v) s fun d =>
      (d.core c).sb = [] ∧
      (d.core c).sys = ((fun x : CoreSt => let o := CORE.EVC_PEND + (if hi then 4 else 0); x.setS o (x.s o &&& ~~~v)) (s.dev.core c)).sys ∧
      (d.core c).retired = (s.dev.core c).retired) ∧
  (∀ (c : Fin 4) (hi : Bool) (v : Word), (s.dev.coreState c = 4 ∨ s.dev.coreState c = 2 ∧ (s.dev.core c).sb = []) →
      (s.dev.core c).pl ≠ 0 → s.dev.lockstep c = false → Does (.evcClr c hi v) s fun d =>
      s.dev.becomes d c ((fun x : CoreSt => let o := CORE.EVC_PEND + (if hi then 4 else 0); x.setS o (x.s o &&& ~~~v)) (s.dev.core c))) ∧
  (∀ (c : Fin 4) (hi : Bool) (v : Word), (s.dev.coreState c = 4 ∨ s.dev.coreState c = 2 ∧ (s.dev.core c).sb = []) →
      (s.dev.core c).pl ≠ 0 → s.dev.lockstep c = true → (s.dev.coreState c = 4 ∨ (s.dev.core (partner c)).sb = []) →
      Does (.evcClr c hi v) s fun d =>
      (d.core c).bare = ((fun x : CoreSt => let o := CORE.EVC_PEND + (if hi then 4 else 0); x.setS o (x.s o &&& ~~~v)) (s.dev.core c)).bare ∧
      (d.core (partner c)).bare = ((fun x : CoreSt => let o := CORE.EVC_PEND + (if hi then 4 else 0); x.setS o (x.s o &&& ~~~v)) (s.dev.core (partner c))).bare) ∧
  (∀ (c : Fin 4) (hi : Bool) (v : Word), ((s.dev.core c).pl = 0 ∨ (s.dev.coreState c ≠ 2 ∧ s.dev.coreState c ≠ 4)) →
      Does (.evcClr c hi v) s fun d => d.answer = .ignored ∧ s.dev.keepsUnits d ∧ s.dev.keepsRegs d []) ∧
  (∀ (c : Fin 4) (hi : Bool) (v : Word), s.dev.coreState c = 2 → (s.dev.core c).pl ≠ 0 → s.dev.lockstep c = false →
      (s.dev.core c).sb.length ≤ 8 → (s.dev.core c).sb.all (s.dev.sbAccepts c) = true → Does (.evcPendWrite c hi v) s fun d =>
      (d.core c).sb = [] ∧
      (d.core c).sys = ((fun x : CoreSt => let o := CORE.EVC_PEND + (if hi then 4 else 0); x.setS o (x.s o ||| v)) (s.dev.core c)).sys ∧
      (d.core c).retired = (s.dev.core c).retired) ∧
  (∀ (c : Fin 4) (hi : Bool) (v : Word), (s.dev.coreState c = 4 ∨ s.dev.coreState c = 2 ∧ (s.dev.core c).sb = []) →
      (s.dev.core c).pl ≠ 0 → s.dev.lockstep c = false → Does (.evcPendWrite c hi v) s fun d =>
      s.dev.becomes d c ((fun x : CoreSt => let o := CORE.EVC_PEND + (if hi then 4 else 0); x.setS o (x.s o ||| v)) (s.dev.core c))) ∧
  (∀ (c : Fin 4) (hi : Bool) (v : Word), (s.dev.coreState c = 4 ∨ s.dev.coreState c = 2 ∧ (s.dev.core c).sb = []) →
      (s.dev.core c).pl ≠ 0 → s.dev.lockstep c = true → (s.dev.coreState c = 4 ∨ (s.dev.core (partner c)).sb = []) →
      Does (.evcPendWrite c hi v) s fun d =>
      (d.core c).bare = ((fun x : CoreSt => let o := CORE.EVC_PEND + (if hi then 4 else 0); x.setS o (x.s o ||| v)) (s.dev.core c)).bare ∧
      (d.core (partner c)).bare = ((fun x : CoreSt => let o := CORE.EVC_PEND + (if hi then 4 else 0); x.setS o (x.s o ||| v)) (s.dev.core (partner c))).bare) ∧
  (∀ (c : Fin 4) (hi : Bool) (v : Word), ((s.dev.core c).pl = 0 ∨ (s.dev.coreState c ≠ 2 ∧ s.dev.coreState c ≠ 4)) →
      Does (.evcPendWrite c hi v) s fun d => d.answer = .ignored ∧ s.dev.keepsUnits d ∧ s.dev.keepsRegs d [])

/-- For every core: between instructions a split core enters its eligible line, clearing PEND and setting ACTIVE; in lockstep the tollgate fixes the count first and both cores enter the line the first one chose; a sleeping core wakes and takes the line if IE = 1; ATOM_OVERRUN at a deadline ends the section with OVERRUN; RETE chains to a line eligible against the record; PART splits a pair and gives its claims to the primary, JOIN overwrites the secondary and its TCM from the primary, or ends with TIMEOUT or PARTNER_DOWN; a pair 1 µs apart declares a mismatch, both its cores stop 100 ns later with event 8 and fault source 5, and the event is delivered in its turn. Where a clause rests on a reading or a choice of the model, it is the model's and not the spec's: log entries 87, 88, 89, 90, 91, 92 and 94. -/
def Obligations.CoreEvents : Prop :=
  ∀ s : State,
  (∀ (c : Fin 4) (l : Nat), s.dev.lockstep c = false → s.dev.coreState c = 2 → (s.dev.core c).req = none →
      (s.dev.core c).joinSince = none → (s.dev.core c).eligible = some l → s.dev.canEnter c (16 + l) = true →
      Does (.interruptEntry c) s fun d =>
      s.dev.becomes d c ((((s.dev.core c).handling c (16 + l) 0 ((s.dev.core c).sf (CORE.EVC_LINE l) 3 0) 0 (s.dev.core c).pc).setLineBit CORE.EVC_PEND l false).setLineBit CORE.EVC_ACTIVE l true)) ∧
  (∀ (c : Fin 4) (l : Nat) (t : Time), s.dev.lockstep c = false → s.dev.coreState c = 2 → (s.dev.core c).req = none →
      (s.dev.core c).joinSince = some t → (s.dev.core c).eligible = some l → s.dev.canEnter c (16 + l) = true →
      s.dev.calm c = true → (s.dev.core c).pl ≠ 0 → Does (.interruptEntry c) s fun d =>
      (d.core c).pc = BitVec.ofNat 32 (16 * (16 + l)) ∧ (d.core c).retired = (s.dev.core c).retired + 1 ∧
      (d.core c).joinSince = none ∧ (d.core c).s CORE.PAIR_STATUS &&& 7 = 4) ∧
  (∀ (c : Fin 4), s.dev.lockstep c = false → (s.dev.core c).eligible = none → Does (.interruptEntry c) s fun d =>
      d.answer = .ignored ∧ s.dev.keepsUnits d ∧ s.dev.keepsRegs d []) ∧
  (∀ (c : Fin 4) (l : Nat), s.dev.lockstep c = true → (s.dev.pair (c.val / 2)).declared = none →
      (s.dev.pair (c.val / 2)).decide_ = none → (s.dev.core c).eligible = some l → Does (.interruptEntry c) s fun d =>
      (d.pair (c.val / 2)).decide_ = some (.line, max (s.dev.core c).retired (s.dev.core (partner c)).retired + 1) ∧
      (d.pair (c.val / 2)).acted = [] ∧ d.cores = s.dev.cores ∧ { s.dev with pairs := d.pairs }.keepsUnits d ∧
      s.dev.keepsRegs d []) ∧
  (∀ (c : Fin 4) (l n : Nat), s.dev.lockstep c = true → (s.dev.pair (c.val / 2)).declared = none →
      (s.dev.pair (c.val / 2)).decide_ = some (.line, n) → (s.dev.pair (c.val / 2)).acted = [] → n ≤ (s.dev.core c).retired →
      s.dev.between c = true → (s.dev.core c).eligible = some l → s.dev.canEnter c (16 + l) = true →
      Does (.interruptEntry c) s fun d =>
      (d.core c).bare = ((((s.dev.core c).handling c (16 + l) 0 ((s.dev.core c).sf (CORE.EVC_LINE l) 3 0) 0 (s.dev.core c).pc).setLineBit CORE.EVC_PEND l false).setLineBit CORE.EVC_ACTIVE l true).bare ∧
      (d.pair (c.val / 2)).chosen = some l ∧ (d.pair (c.val / 2)).acted = [c.val] ∧
      (d.core (partner c)).bare = (s.dev.core (partner c)).bare) ∧
  (∀ (c : Fin 4) (l n : Nat), s.dev.lockstep c = true → (s.dev.pair (c.val / 2)).declared = none →
      (s.dev.pair (c.val / 2)).decide_ = some (.line, n) → (s.dev.pair (c.val / 2)).acted = [partner c] →
      (s.dev.pair (c.val / 2)).chosen = some l → n ≤ (s.dev.core c).retired → s.dev.between c = true →
      s.dev.canEnter c (16 + l) = true → Does (.interruptEntry c) s fun d => (d.core c).pc = BitVec.ofNat 32 (16 * (16 + l)) ∧
      (d.core c).entries = ((s.dev.core c).pl, (s.dev.core c).runPri) :: (s.dev.core c).entries ∧
      (d.pair (c.val / 2)).decide_ = none ∧ (d.pair (c.val / 2)).acted = []) ∧
  (∀ (c : Fin 4), s.dev.lockstep c = false → s.dev.coreState c = 3 →
      (s.dev.core c).bestLine (s.dev.core c).runPri true false ≠ none → (s.dev.core c).busErr = [] →
      (s.dev.core c).escDue = none → (s.dev.core c).eligible = none → Does (.coreWake c) s fun d => d.coreState c = 2 ∧
      (d.core c).bare = (s.dev.core c).bare ∧ s.dev.ranAlone d c) ∧
  (∀ (c : Fin 4) (l : Nat), s.dev.lockstep c = false → s.dev.coreState c = 3 →
      (s.dev.core c).bestLine (s.dev.core c).runPri true false ≠ none → (s.dev.core c).busErr = [] →
      (s.dev.core c).escDue = none → (s.dev.core c).eligible = some l → s.dev.canEnter c (16 + l) = true →
      Does (.coreWake c) s fun d => d.coreState c = 2 ∧
      (d.core c).bare = ((((s.dev.core c).handling c (16 + l) 0 ((s.dev.core c).sf (CORE.EVC_LINE l) 3 0) 0 (s.dev.core c).pc).setLineBit CORE.EVC_PEND l false).setLineBit CORE.EVC_ACTIVE l true).bare ∧
      s.dev.ranAlone d c) ∧
  (∀ (c : Fin 4) (t : Time), s.dev.lockstep c = false → (s.dev.core c).atom = some t → s.dev.due t = true →
      s.dev.between c = true → s.dev.canEnter c 11 = true → Does (.atomDeadline c) s fun d =>
      (let y := ({ (s.dev.core c) with atom := none } : CoreSt).setSf CORE.ATOM_STATUS 1 1 1; s.dev.becomes d c (y.handling c 11 0 0x10 (BitVec.ofNat 32 (nsOf t)) y.pc))) ∧
  (∀ (c : Fin 4) (w : Word) (k r : Nat) (t : List (Nat × Nat)) (p l : Nat), s.dev.runs c w = true → decodeW w = .rete →
      ((s.dev.fetched c w).core c).pl = 1 → ((s.dev.fetched c w).core c).entries = (k, r) :: t →
      ((s.dev.fetched c w).core c).frameValid (((s.dev.fetched c w).core c).rg 30 + 32) = true →
      frameAddr c (((s.dev.fetched c w).core c).rg 30) = p → (s.dev.fetched c w).ecc = [] →
      ((s.dev.fetched c w).core c).sb = [] → (s.dev.fetched c w).lockstep c = false → (s.dev.fetched c w).memMapped p 32 = true →
      p < 0x10000000 → (s.dev.fetched c w).le p 4 % 2 = 0 → ((s.dev.fetched c w).le (p + 4) 4) % 4 ≤ k →
      ((s.dev.fetched c w).core c).bestLine r (wordBit (BitVec.ofNat 32 ((s.dev.fetched c w).le (p + 4) 4)) 2) true = some l →
      Does (.coreRete c w) s fun d => (d.core c).pc = BitVec.ofNat 32 (16 * (16 + l)) ∧
      (d.core c).entries = ((s.dev.fetched c w).core c).entries ∧
      (d.core c).runPri = ((s.dev.fetched c w).core c).sf (CORE.EVC_LINE l) 3 0 ∧ (d.core c).lineBit CORE.EVC_PEND l = false ∧
      (d.core c).lineBit CORE.EVC_ACTIVE l = true ∧ (d.core c).s CORE.EXC_CAUSE = BitVec.ofNat 32 (16 + l) ∧
      (∀ r : Fin 32, (d.core c).rg r.val = ((s.dev.fetched c w).core c).rg r.val) ∧
      (d.core c).status = ((s.dev.fetched c w).core c).status) ∧
  (∀ (p : Fin 2), (s.dev.core (2 * p.val)).parting = true → (s.dev.core (2 * p.val + 1)).parting = true →
      s.dev.lockstep (2 * p.val) = true → s.dev.coreState (2 * p.val) = 2 → s.dev.coreState (2 * p.val + 1) = 2 →
      (s.dev.core (2 * p.val)).retired = (s.dev.core (2 * p.val + 1)).retired → (s.dev.pair p.val).declared = none →
      (s.dev.core (2 * p.val)).sb = [] → (s.dev.core (2 * p.val + 1)).sb = [] → s.dev.calm (2 * p.val) = true →
      s.dev.calm (2 * p.val + 1) = true → (s.dev.core (2 * p.val)).pl ≠ 0 → (s.dev.core (2 * p.val + 1)).pl ≠ 0 →
      (s.dev.core (2 * p.val)).unmatched = [] → (s.dev.core (2 * p.val + 1)).unmatched = [] → Does (.partRetire p) s fun d =>
      d.lockstep (2 * p.val) = false ∧ d.lockstep (2 * p.val + 1) = false ∧ (d.core (2 * p.val)).parting = false ∧
      (d.core (2 * p.val + 1)).parting = false ∧ (d.core (2 * p.val)).retired = (s.dev.core (2 * p.val)).retired + 1 ∧
      (d.core (2 * p.val + 1)).retired = (s.dev.core (2 * p.val + 1)).retired + 1 ∧
      (d.core (2 * p.val)).pc = ((s.dev.core (2 * p.val)).thenNext 4).pc ∧
      (d.core (2 * p.val + 1)).pc = ((s.dev.core (2 * p.val + 1)).thenNext 4).pc ∧ d.pair p.val = {} ∧
      ((d.core (2 * p.val + 1)).s CORE.EVC_PEND = 0 ∧ (d.core (2 * p.val + 1)).s (CORE.EVC_PEND + 4) = 0) ∧
      (d.core (2 * p.val)).s CORE.EVC_PEND = (s.dev.core (2 * p.val)).s CORE.EVC_PEND ∧
      (d.groups = s.dev.groups.map fun g => if g.2.st ≠ .idle ∧
      g.2.owner = 0x0110 + BitVec.ofNat 16 p.val then (g.1, { g.2 with owner := 0x0100 + BitVec.ofNat 16 (2 * p.val) }) else g)) ∧
  (∀ (p : Fin 2), (s.dev.core (2 * p.val)).joinSince.isSome = true → (s.dev.core (2 * p.val + 1)).joinSince.isSome = true →
      (s.dev.core (2 * p.val)).sb = [] → (s.dev.core (2 * p.val + 1)).sb = [] → s.dev.calm (2 * p.val) = true →
      s.dev.calm (2 * p.val + 1) = true → (s.dev.core (2 * p.val)).pl ≠ 0 → (s.dev.core (2 * p.val + 1)).pl ≠ 0 →
      s.dev.coreState (2 * p.val) = 2 → s.dev.coreState (2 * p.val + 1) = 2 → s.dev.lockstep (2 * p.val) = false →
      s.dev.lockstep (2 * p.val + 1) = false → Tab.wf 0 s.dev.mem = true → Does (.joinComplete p) s fun d =>
      d.lockstep (2 * p.val) = true ∧ d.lockstep (2 * p.val + 1) = true ∧
      ({ d.core (2 * p.val + 1) with lost := none } : CoreSt).bare = ({ d.core (2 * p.val) with lost := none } : CoreSt).bare ∧
      (d.core (2 * p.val)).rg 5 = (s.dev.core (2 * p.val)).rg 5 ∧ (d.core (2 * p.val)).joinSince = none ∧
      (d.core (2 * p.val)).s CORE.PAIR_STATUS &&& 7 = 1 ∧ (d.core (2 * p.val)).retired = (s.dev.core (2 * p.val)).retired + 1 ∧
      ((d.core (2 * p.val)).cache = [] ∧ (d.core (2 * p.val)).lineBuf = []) ∧
      (d.core (2 * p.val)).s CORE.EVC_PEND = (s.dev.core (2 * p.val)).s CORE.EVC_PEND ||| (s.dev.core (2 * p.val + 1)).s CORE.EVC_PEND ∧
      (s.dev.lgDram = true ∨ (∀ i : Fin 0x80000, d.byte (0x08000000 + 0x80000 * (2 * p.val + 1) + i.val) = s.dev.byte (0x08000000 + 0x80000 * (2 * p.val) + i.val))) ∧
      d.pair p.val = {}) ∧
  (∀ (c : Fin 4) (t : Time), s.dev.lockstep c = false → s.dev.coreState c = 2 → (s.dev.core c).joinSince = some t →
      s.dev.calm c = true → (s.dev.core c).sf CORE.JOIN_CTRL 15 0 ≠ 0 →
      s.dev.due (t + nsT (1000 * (s.dev.core c).sf CORE.JOIN_CTRL 15 0)) = true → Does (.joinTimeout c) s fun d =>
      (d.core c).joinSince = none ∧ (d.core c).s CORE.PAIR_STATUS &&& 7 = 2 ∧ (d.core c).retired = (s.dev.core c).retired + 1 ∧
      (d.core c).pc = ((s.dev.core c).thenNext 4).pc ∧ (∀ r : Fin 32, (d.core c).rg r.val = (s.dev.core c).rg r.val) ∧
      s.dev.ranAlone d c) ∧
  (∀ (c : Fin 4) (t : Time), s.dev.lockstep c = false → s.dev.coreState c = 2 → (s.dev.core c).joinSince = some t →
      s.dev.calm c = true → (s.dev.coreState (partner c) = 0 ∨ s.dev.coreState (partner c) = 5) →
      Does (.joinPartnerDown c) s fun d => (d.core c).joinSince = none ∧ (d.core c).s CORE.PAIR_STATUS &&& 7 = 3 ∧
      (d.core c).retired = (s.dev.core c).retired + 1 ∧ (d.core c).pc = ((s.dev.core c).thenNext 4).pc ∧
      (∀ r : Fin 32, (d.core c).rg r.val = (s.dev.core c).rg r.val) ∧ s.dev.ranAlone d c) ∧
  (∀ (p : Fin 2) (c : Fin 4), c.val / 2 = p.val → s.dev.lockstep c = true → 4 ≤ (s.dev.core c).unmatched.length →
      s.dev.due ((s.dev.core c).lagSince + nsT 1000) = true → (s.dev.pair p.val).declared = none →
      Does (.pairLagTimeout p) s fun d => (d.pair p.val).declared = some s.dev.now ∧ d.cores = s.dev.cores ∧
      { s.dev with pairs := d.pairs }.keepsUnits d ∧ s.dev.keepsRegs d [] ∧ s.dev.noRecord d) ∧
  (∀ (p : Fin 2) (t : Time), (s.dev.pair p.val).declared = some t → (s.dev.pair p.val).stopped = false →
      s.dev.due (t + nsT 100) = true → Does (.pairStop p) s fun d => d.coreState (2 * p.val) = 5 ∧
      d.coreState (2 * p.val + 1) = 5 ∧ (d.core (2 * p.val)).sb = [] ∧ (d.core (2 * p.val + 1)).sb = [] ∧
      (d.core (2 * p.val)).req = none ∧ (d.core (2 * p.val + 1)).req = none ∧
      (d.core (2 * p.val)).pc = (s.dev.core (2 * p.val)).pc ∧ (d.core (2 * p.val + 1)).pc = (s.dev.core (2 * p.val + 1)).pc ∧
      d.lockstep (2 * p.val) = s.dev.lockstep (2 * p.val) ∧ d.lockstep (2 * p.val + 1) = s.dev.lockstep (2 * p.val + 1) ∧
      (d.pair p.val).stopped = true ∧ s.dev.raised d [8] ∧
      d.faults = s.dev.faults ++ [{ src := 5, unit := p.val, stamp := s.dev.nowNs }] ∧ (∀ k : Fin 4, k.val / 2 ≠ p.val →
      d.core k = s.dev.core k) ∧ (s.dev.lgDram = true ∨ d.mem = s.dev.mem)) ∧
  (∀ (r : Raised), s.dev.events.find? (fun r => r.id = 8) = some r → r.stamp ≠ floorNs s.dev.now →
      Does (.pairMismatchDelivery) s fun d => s.dev.events.erase r <+: d.events ∧ d.mapBit (JUNCTION.RAISED 0) 8 = true ∧
      (∀ c : Fin 4, bitOf (s.dev.fld (JUNCTION.ROUTE_CORES 8)) c.val = true ∧ s.dev.lockstep c = false ∧
      (s.dev.coreState c = 2 ∨ s.dev.coreState c = 3 ∨ s.dev.coreState c = 4) →
      (d.core c).lineBit CORE.EVC_PEND (s.dev.fld (JUNCTION.ROUTE_LINE 8)) = true)) ∧
  (∀ (r : Raised), s.dev.events.find? (fun r => r.id = 8) = some r → r.stamp = floorNs s.dev.now →
      Does (.pairMismatchDelivery) s fun d => d.answer = .waits ∧ s.dev.keepsUnits d ∧ s.dev.keepsRegs d [])

/-- For every RUNNING thread whose fetch succeeds: a register or branch instruction writes its register and flags and goes on at PC + 4 or its target, a target off a word address stops the thread with cause 2; MFS and MTS move the flags, FENCE goes on; a load or store in the memory of its own ring is done at once, any other reachable access leaves it STALLED until its answer; misaligned and unreachable ones stop it with causes 2 and 3; SRD, SWR, SADD, SCAS and SWAIT read and write the shared registers of its ring; an undefined word stops it with cause 1. A stop raises the FAULT event, fault source 0x13 and a SYSTEM record. Nothing else changes. Where a clause rests on a reading or a choice of the model, it is the model's and not the spec's: log entries 96 and 97. -/
def Obligations.ThreadInstructions : Prop :=
  ∀ s : State,
  (∀ (n : Fin 64) (i : WInstr) (r : WRes) (rd : Nat) (v : Word), s.dev.thrRuns n = true → s.dev.thrCode n = .wil i →
      evalRegs i (s.dev.t n) (s.dev.thr n).flags (s.dev.reg (ROUND.THR_PC n)) 4 15 = some r → r.wr = some (rd, v) →
      r.target = none → Does (.threadWiliumInstruction n) s fun d =>
      (s.dev.thrSlot n).thrGoes d n (s.dev.reg (ROUND.THR_PC n) + 4) { (s.dev.thr n) with flags := r.st &&& 0x1F0000 } (tKey n rd) ∧
      (d.t n rd = if rd = 0 then 0 else v)) ∧
  (∀ (n : Fin 64) (i : WInstr) (r : WRes), s.dev.thrRuns n = true → s.dev.thrCode n = .wil i →
      evalRegs i (s.dev.t n) (s.dev.thr n).flags (s.dev.reg (ROUND.THR_PC n)) 4 15 = some r → r.wr = none → r.target = none →
      Does (.threadWiliumInstruction n) s fun d =>
      (s.dev.thrSlot n).thrGoes d n (s.dev.reg (ROUND.THR_PC n) + 4) { (s.dev.thr n) with flags := r.st &&& 0x1F0000 } ([])) ∧
  (∀ (n : Fin 64) (i : WInstr) (r : WRes) (t : Word), s.dev.thrRuns n = true → s.dev.thrCode n = .wil i →
      evalRegs i (s.dev.t n) (s.dev.thr n).flags (s.dev.reg (ROUND.THR_PC n)) 4 15 = some r → r.target = some t →
      t.toNat % 4 = 0 → Does (.threadWiliumInstruction n) s fun d =>
      (s.dev.thrSlot n).thrGoes d n t { (s.dev.thr n) with flags := r.st &&& 0x1F0000 } ((match r.wr with | some p => tKey n p.1 | none => [])) ∧
      (r.wr.all fun p => decide (d.t n p.1 = if p.1 = 0 then 0 else p.2)) = true) ∧
  (∀ (n : Fin 64) (i : WInstr) (r : WRes) (t : Word), s.dev.thrRuns n = true → s.dev.thrCode n = .wil i →
      evalRegs i (s.dev.t n) (s.dev.thr n).flags (s.dev.reg (ROUND.THR_PC n)) 4 15 = some r → r.target = some t →
      t.toNat % 4 ≠ 0 → Does (.threadWiliumInstruction n) s fun d => (s.dev.thrSlot n).thrStops d n 2 t) ∧
  (∀ (n : Fin 64) (rd : Nat), s.dev.thrRuns n = true → s.dev.thrCode n = .wil (.mfs rd 0) →
      Does (.threadWiliumInstruction n) s fun d =>
      (s.dev.thrSlot n).thrGoes d n (s.dev.reg (ROUND.THR_PC n) + 4) (s.dev.thr n) (tKey n rd) ∧
      (d.t n rd = if rd = 0 then 0 else (s.dev.thr n).flags &&& 0x1F0000)) ∧
  (∀ (n : Fin 64) (ra : Nat), s.dev.thrRuns n = true → s.dev.thrCode n = .wil (.mts 0 ra) →
      Does (.threadWiliumInstruction n) s fun d =>
      (s.dev.thrSlot n).thrGoes d n (s.dev.reg (ROUND.THR_PC n) + 4) { (s.dev.thr n) with flags := s.dev.t n ra &&& 0x1F0000 } ([])) ∧
  (∀ (n : Fin 64), s.dev.thrRuns n = true → s.dev.thrCode n = .wil .fence → Does (.threadWiliumInstruction n) s fun d =>
      (s.dev.thrSlot n).thrGoes d n (s.dev.reg (ROUND.THR_PC n) + 4) (s.dev.thr n) ([])) ∧
  (∀ (n : Fin 64) (rd : Nat) (ra : Nat) (k : Word), s.dev.thrRuns n = true →
      s.dev.thrCode n = .wil (.load false 2 (.disp k) rd ra false) → (s.dev.t n ra + k).toNat % 4 = 0 →
      (ringBase (n.val / 32) ≤ (s.dev.t n ra + k).toNat ∧ (s.dev.t n ra + k).toNat + 4 ≤ ringBase (n.val / 32) + 0x40000) →
      s.dev.memOpen (thrAgent n) (s.dev.t n ra + k).toNat 4 false = true → Does (.threadWiliumInstruction n) s fun d =>
      (s.dev.thrSlot n).thrGoes d n (s.dev.reg (ROUND.THR_PC n) + 4) (s.dev.thr n) (tKey n rd) ∧
      (d.t n rd = if rd = 0 then 0 else BitVec.ofNat 32 (s.dev.le (s.dev.t n ra + k).toNat 4))) ∧
  (∀ (n : Fin 64) (rs : Nat) (ra : Nat) (k : Word), s.dev.thrRuns n = true →
      s.dev.thrCode n = .wil (.store 2 (.disp k) rs ra false) → (s.dev.t n ra + k).toNat % 4 = 0 →
      (ringBase (n.val / 32) ≤ (s.dev.t n ra + k).toNat ∧ (s.dev.t n ra + k).toNat + 4 ≤ ringBase (n.val / 32) + 0x40000) →
      s.dev.memOpen (thrAgent n) (s.dev.t n ra + k).toNat 4 true = true → s.dev.lgDram = false →
      Does (.threadWiliumInstruction n) s fun d => d.le (s.dev.t n ra + k).toNat 4 = (s.dev.t n rs).toNat ∧
      (s.dev.thrSlot n).bytesKept d (s.dev.t n ra + k).toNat ((s.dev.t n ra + k).toNat + 4) ∧
      d.reg (ROUND.THR_PC n) = (s.dev.reg (ROUND.THR_PC n) + 4) ∧
      d.reg (ROUND.THR_RETIRED n) = s.dev.reg (ROUND.THR_RETIRED n) + 1 ∧ d.thrState n = 1 ∧ (∀ k : Fin 64, k ≠ n →
      d.thr k = s.dev.thr k)) ∧
  (∀ (n : Fin 64) (rd : Nat) (ra : Nat) (k : Word), s.dev.thrRuns n = true →
      s.dev.thrCode n = .wil (.load false 2 (.disp k) rd ra false) → (s.dev.t n ra + k).toNat % 4 = 0 →
      (0x10000000 ≤ (s.dev.t n ra + k).toNat ∧ (s.dev.t n ra + k).toNat < 0x10800000) →
      Does (.threadWiliumInstruction n) s fun d =>
      (s.dev.thrSlot n).thrHolds d n 3 0 { (s.dev.thr n) with req := some { addr := (s.dev.t n ra + k), len := 4, dest := .g rd false 2, since := s.dev.now } } []) ∧
  (∀ (n : Fin 64) (rd : Nat) (ra : Nat) (k : Word), s.dev.thrRuns n = true →
      s.dev.thrCode n = .wil (.load false 2 (.disp k) rd ra false) → (s.dev.t n ra + k).toNat % 4 ≠ 0 →
      Does (.threadWiliumInstruction n) s fun d => (s.dev.thrSlot n).thrStops d n 2 (s.dev.t n ra + k)) ∧
  (∀ (n : Fin 64) (rd : Nat) (ra : Nat) (k : Word), s.dev.thrRuns n = true →
      s.dev.thrCode n = .wil (.load false 2 (.disp k) rd ra false) → (s.dev.t n ra + k).toNat % 4 = 0 →
      (0x20080000 ≤ (s.dev.t n ra + k).toNat ∧ ((s.dev.t n ra + k).toNat < 0x40000000 ∨ 0x41000000 ≤ (s.dev.t n ra + k).toNat)) →
      Does (.threadWiliumInstruction n) s fun d => (s.dev.thrSlot n).thrStops d n 3 (s.dev.t n ra + k)) ∧
  (∀ (n : Fin 64), s.dev.thrRuns n = true → s.dev.thrCode n = .illegal → Does (.threadIllegal n) s fun d =>
      (s.dev.thrSlot n).thrStops d n 1 (s.dev.thrWord n)) ∧
  (∀ (n : Fin 64), s.dev.thrState n = 1 → s.dev.domReady (16 + n.val / 32) = true →
      s.dev.inCode (n.val / 32) (s.dev.num (ROUND.THR_PC n)) = false → Does (.threadIllegal n) s fun d =>
      (s.dev.thrSlot n).thrStops d n 3 (s.dev.reg (ROUND.THR_PC n))) ∧
  (∀ (n : Fin 64), s.dev.thrState n ≠ 1 → Does (.threadIllegal n) s fun d => d.answer = .ignored ∧ s.dev.keepsUnits d ∧
      s.dev.keepsRegs d [] ∧ s.dev.noRecord d) ∧
  (∀ (n : Fin 64) (q : MemReq) (rd : Nat), (s.dev.thr n).req = some q →
      (s.dev.grp (grpKey (0x28 + n / 32) (n % 32))).st ≠ .pending → s.dev.thrState n = 3 → q.sent = false → q.amo = none →
      (s.dev.thr n).resetReq = false → (s.dev.thr n).haltReq = false → (s.dev.thr n).stepping = false →
      s.dev.fld (ROUND.THR_CFG_MODE n) ≠ 0 → q.data = none → q.dest = .g rd false 2 → q.upd = none → q.len = 4 →
      (0x10000000 ≤ q.addr.toNat ∧ q.addr.toNat + 4 ≤ 0x10800000) → q.addr.toNat % 4 = 0 →
      s.dev.memOpen (thrAgent n) q.addr.toNat 4 false = true → s.dev.memMapped q.addr.toNat 4 = true → s.dev.ecc = [] →
      Does (.threadAccessDone n) s fun d => s.dev.thrGoes d n (s.dev.reg (ROUND.THR_PC n) + 4) (s.dev.thr n) (tKey n rd) ∧
      (d.t n rd = if rd = 0 then 0 else BitVec.ofNat 32 (s.dev.le q.addr.toNat 4))) ∧
  (∀ (n : Fin 64) (q : MemReq), (s.dev.thr n).req = some q → (s.dev.grp (grpKey (0x28 + n / 32) (n % 32))).st ≠ .pending →
      s.dev.thrState n = 3 → q.sent = false → q.amo = none → (s.dev.thr n).resetReq = false → (s.dev.thr n).haltReq = false →
      (s.dev.thr n).stepping = false → s.dev.fld (ROUND.THR_CFG_MODE n) ≠ 0 → q.data = none →
      s.dev.begun.busRead 1 (thrAgent n) q.addr.toNat q.len = (.abort, s.dev.begun) → Does (.threadAccessDone n) s fun d =>
      s.dev.thrStops d n 3 q.addr) ∧
  (∀ (n : Fin 64), (s.dev.thr n).req = none → (s.dev.grp (grpKey (0x28 + n / 32) (n % 32))).st ≠ .pending →
      Does (.threadAccessDone n) s fun d => d.answer = .ignored ∧ s.dev.keepsUnits d ∧ s.dev.keepsRegs d []) ∧
  (∀ (n : Fin 64) (td : Nat) (k : Nat), s.dev.thrRuns n = true → s.dev.thrCode n = .srd td k → Does (.thrSrd n) s fun d =>
      (s.dev.thrSlot n).thrGoes d n (s.dev.reg (ROUND.THR_PC n) + 4) (s.dev.thr n) (tKey n td) ∧
      (d.t n td = if td = 0 then 0 else s.dev.reg (ROUND.S (32 * (n.val / 32) + k)))) ∧
  (∀ (n : Fin 64) (k : Nat) (ta : Nat), s.dev.thrRuns n = true → s.dev.thrCode n = .swr k ta → Does (.thrSwr n) s fun d =>
      (s.dev.thrSlot n).thrGoes d n (s.dev.reg (ROUND.THR_PC n) + 4) (s.dev.thr n) ([(ROUND.S (32 * (n.val / 32) + k))]) ∧
      d.reg (ROUND.S (32 * (n.val / 32) + k)) = s.dev.t n ta) ∧
  (∀ (n : Fin 64) (td : Nat) (k : Nat) (ta : Nat), s.dev.thrRuns n = true → s.dev.thrCode n = .sadd td k ta →
      Does (.thrSadd n) s fun d =>
      (s.dev.thrSlot n).thrGoes d n (s.dev.reg (ROUND.THR_PC n) + 4) (s.dev.thr n) ((ROUND.S (32 * (n.val / 32) + k)) :: tKey n td) ∧
      d.reg (ROUND.S (32 * (n.val / 32) + k)) = s.dev.reg (ROUND.S (32 * (n.val / 32) + k)) + s.dev.t n ta ∧
      (d.t n td = if td = 0 then 0 else s.dev.reg (ROUND.S (32 * (n.val / 32) + k)))) ∧
  (∀ (n : Fin 64) (td : Nat) (k : Nat) (ta : Nat), s.dev.thrRuns n = true → s.dev.thrCode n = .scas td k ta →
      Does (.thrScas n) s fun d =>
      (s.dev.thrSlot n).thrGoes d n (s.dev.reg (ROUND.THR_PC n) + 4) (s.dev.thr n) ((ROUND.S (32 * (n.val / 32) + k)) :: tKey n td) ∧
      (d.reg (ROUND.S (32 * (n.val / 32) + k)) = if s.dev.reg (ROUND.S (32 * (n.val / 32) + k)) = s.dev.t n td then s.dev.t n ta else s.dev.reg (ROUND.S (32 * (n.val / 32) + k))) ∧
      (d.t n td = if td = 0 then 0 else s.dev.reg (ROUND.S (32 * (n.val / 32) + k)))) ∧
  (∀ (n : Fin 64) (k : Nat) (ta : Nat), s.dev.thrRuns n = true → s.dev.thrCode n = .swait k ta →
      s.dev.reg (ROUND.S (32 * (n.val / 32) + k)) &&& s.dev.t n ta ≠ 0 → Does (.thrSwait n) s fun d =>
      (s.dev.thrSlot n).thrGoes d n (s.dev.reg (ROUND.THR_PC n) + 4) (s.dev.thr n) ([])) ∧
  (∀ (n : Fin 64) (k : Nat) (ta : Nat), s.dev.thrRuns n = true → s.dev.thrCode n = .swait k ta →
      s.dev.reg (ROUND.S (32 * (n.val / 32) + k)) &&& s.dev.t n ta = 0 → Does (.thrSwait n) s fun d =>
      (s.dev.thrSlot n).thrHolds d n 2 3 (s.dev.thr n) []) ∧
  (∀ (n : Fin 64) (k : Nat) (ta : Nat), s.dev.thrWaits n 3 = true → s.dev.thrCode n = .swait k ta →
      s.dev.reg (ROUND.S (32 * (n.val / 32) + k)) &&& s.dev.t n ta ≠ 0 → Does (.swaitRelease n) s fun d =>
      (s.dev.begun.flushClosing (n.val / 32)).thrGoes d n (s.dev.reg (ROUND.THR_PC n) + 4) (s.dev.thr n) ([])) ∧
  (∀ (n : Fin 64) (k : Nat) (ta : Nat), s.dev.thrWaits n 3 = true → s.dev.thrCode n = .swait k ta →
      s.dev.reg (ROUND.S (32 * (n.val / 32) + k)) &&& s.dev.t n ta = 0 → Does (.swaitRelease n) s fun d => s.dev.keepsUnits d ∧
      s.dev.keepsRegs d [])

/-- For every RUNNING thread whose fetch succeeds: TNOW, TSET, TGET, TADD, TADDF and TLEFT read and write tt; WAITT goes on once the nanosecond of tt has come and waits with reason 4 before; PERIOD starts a schedule of at least 32 ns from tt and WAITP waits for its next target, moves tt to the planned instant and counts the lateness, with BEHIND and event 15 where the limit is passed; PSTOP ends it; WAITE takes the pending inputs of its mask or waits; SIGNAL raises its event; BKPT halts the thread after it. The commands that end these waits complete the instruction. Nothing else changes. Where a clause rests on a reading or a choice of the model, it is the model's and not the spec's: log entries 96, 99 and 100. -/
def Obligations.ThreadTimeAndEvents : Prop :=
  ∀ s : State,
  (∀ (n : Fin 64), s.dev.thrRuns n = true → s.dev.thrCode n = .tnow → Does (.thrTnow n) s fun d =>
      (s.dev.thrSlot n).thrGoes d n (s.dev.reg (ROUND.THR_PC n) + 4) (s.dev.thr n) ([ROUND.THR_TT n, ROUND.THR_TT n + 4]) ∧
      d.reg64 (ROUND.THR_TT n) = floorNs s.dev.now) ∧
  (∀ (n : Fin 64) (ta : Nat) (tb : Nat), s.dev.thrRuns n = true → s.dev.thrCode n = .tset ta tb → Does (.thrTset n) s fun d =>
      (s.dev.thrSlot n).thrGoes d n (s.dev.reg (ROUND.THR_PC n) + 4) (s.dev.thr n) ([ROUND.THR_TT n, ROUND.THR_TT n + 4]) ∧
      d.reg64 (ROUND.THR_TT n) = s.dev.t n tb ++ s.dev.t n ta) ∧
  (∀ (n : Fin 64) (td : Nat), s.dev.thrRuns n = true → s.dev.thrCode n = .tget td 0 → Does (.thrTget n) s fun d =>
      (s.dev.thrSlot n).thrGoes d n (s.dev.reg (ROUND.THR_PC n) + 4) (s.dev.thr n) (tKey n td) ∧
      d.t n td = (if td = 0 then 0 else ((s.dev.tt n).setWidth 32 : Word) : Word)) ∧
  (∀ (n : Fin 64) (td : Nat), s.dev.thrRuns n = true → s.dev.thrCode n = .tget td 1 → Does (.thrTget n) s fun d =>
      (s.dev.thrSlot n).thrGoes d n (s.dev.reg (ROUND.THR_PC n) + 4) (s.dev.thr n) (tKey n td) ∧
      d.t n td = (if td = 0 then 0 else ((s.dev.tt n >>> 32).setWidth 32 : Word) : Word)) ∧
  (∀ (n : Fin 64) (ta : Nat), s.dev.thrRuns n = true → s.dev.thrCode n = .tadd ta → Does (.thrTadd n) s fun d =>
      (s.dev.thrSlot n).thrGoes d n (s.dev.reg (ROUND.THR_PC n) + 4) (s.dev.thr n) ([ROUND.THR_TT n, ROUND.THR_TT n + 4]) ∧
      d.reg64 (ROUND.THR_TT n) = s.dev.tt n + BitVec.ofInt 64 (64 * (s.dev.t n ta).toInt)) ∧
  (∀ (n : Fin 64) (ta : Nat), s.dev.thrRuns n = true → s.dev.thrCode n = .taddf ta → Does (.thrTaddf n) s fun d =>
      (s.dev.thrSlot n).thrGoes d n (s.dev.reg (ROUND.THR_PC n) + 4) (s.dev.thr n) ([ROUND.THR_TT n, ROUND.THR_TT n + 4]) ∧
      d.reg64 (ROUND.THR_TT n) = s.dev.tt n + BitVec.ofInt 64 (s.dev.t n ta).toInt) ∧
  (∀ (n : Fin 64) (td : Nat), s.dev.thrRuns n = true → s.dev.thrCode n = .tleft td → Does (.thrTleft n) s fun d =>
      (s.dev.thrSlot n).thrGoes d n (s.dev.reg (ROUND.THR_PC n) + 4) (s.dev.thr n) (tKey n td) ∧
      (d.t n td = if td = 0 then 0 else BitVec.ofInt 32 (max (-(2 ^ 31)) (min (2 ^ 31 - 1) ((s.dev.tt n - s.dev.now).toInt / 64))))) ∧
  (∀ (n : Fin 64), s.dev.thrRuns n = true → s.dev.thrCode n = .waitt → s.dev.due (floorNs (s.dev.tt n)) = true →
      Does (.thrWaitt n) s fun d => (s.dev.thrSlot n).thrGoes d n (s.dev.reg (ROUND.THR_PC n) + 4) (s.dev.thr n) ([])) ∧
  (∀ (n : Fin 64), s.dev.thrRuns n = true → s.dev.thrCode n = .waitt → s.dev.due (floorNs (s.dev.tt n)) = false →
      Does (.thrWaitt n) s fun d => (s.dev.thrSlot n).thrHolds d n 2 4 (s.dev.thr n) []) ∧
  (∀ (n : Fin 64), s.dev.thrWaits n 4 = true → s.dev.thrCode n = .waitt → s.dev.due (floorNs (s.dev.tt n)) = true →
      Does (.waittExpiry n) s fun d =>
      (s.dev.begun.flushClosing (n.val / 32)).thrGoes d n (s.dev.reg (ROUND.THR_PC n) + 4) (s.dev.thr n) ([])) ∧
  (∀ (n : Fin 64), s.dev.thrWaits n 4 = true → s.dev.thrCode n = .waitt → s.dev.due (floorNs (s.dev.tt n)) = false →
      Does (.waittExpiry n) s fun d => s.dev.keepsUnits d ∧ s.dev.keepsRegs d []) ∧
  (∀ (n : Fin 64) (ta : Nat), s.dev.thrRuns n = true → s.dev.thrCode n = .period ta → Does (.thrPeriod n) s fun d =>
      (s.dev.thrSlot n).thrGoes d n (s.dev.reg (ROUND.THR_PC n) + 4) { (s.dev.thr n) with sched := some { t0 := floorNs (s.dev.tt n), p := 64 * max 32 (s.dev.t n ta).toNat, k := 0, target := floorNs (s.dev.tt n) } } ([])) ∧
  (∀ (n : Fin 64), s.dev.thrRuns n = true → s.dev.thrCode n = .waitp → (s.dev.thr n).sched = none → Does (.thrWaitp n) s fun d =>
      (s.dev.thrSlot n).thrGoes d n (s.dev.reg (ROUND.THR_PC n) + 4) (s.dev.thr n) ([])) ∧
  (∀ (n : Fin 64) (sc : Sched), s.dev.thrRuns n = true → s.dev.thrCode n = .waitp → (s.dev.thr n).sched = some sc →
      s.dev.due sc.target = false → Does (.thrWaitp n) s fun d => (s.dev.thrSlot n).thrHolds d n 2 5 (s.dev.thr n) []) ∧
  (∀ (n : Fin 64) (sc : Sched), s.dev.thrRuns n = true → s.dev.thrCode n = .waitp → (s.dev.thr n).sched = some sc →
      s.dev.due sc.target = true →
      (sc.advance (s.dev.fld (ROUND.THR_SCHED_CATCHUP n)) (s.dev.fld (ROUND.THR_SCHED_BEHIND n)) (floorNs s.dev.now)).2 = false →
      Does (.thrWaitp n) s fun d =>
      { (s.dev.thrSlot n) with events := d.events }.thrGoes d n (s.dev.reg (ROUND.THR_PC n) + 4) { (s.dev.thr n) with sched := some (sc.advance (s.dev.fld (ROUND.THR_SCHED_CATCHUP n)) (s.dev.fld (ROUND.THR_SCHED_BEHIND n)) (floorNs s.dev.now)).1 } ([ROUND.THR_TT n, ROUND.THR_TT n + 4] ++ [ROUND.THR_PLATE n]) ∧
      d.reg64 (ROUND.THR_TT n) = sc.t0 + BitVec.ofNat 64 (sc.k * sc.p) ∧
      d.num (ROUND.THR_PLATE n) = min 0xFFFFFFFF (lateness (sc.t0 + BitVec.ofNat 64 (sc.k * sc.p)) (floorNs s.dev.now) / 64) ∧
      s.dev.raised d [] ∧ d.flag (ROUND.THR_STATUS_BEHIND n) = s.dev.flag (ROUND.THR_STATUS_BEHIND n)) ∧
  (∀ (n : Fin 64) (sc : Sched), s.dev.thrRuns n = true → s.dev.thrCode n = .waitp → (s.dev.thr n).sched = some sc →
      s.dev.due sc.target = true →
      (sc.advance (s.dev.fld (ROUND.THR_SCHED_CATCHUP n)) (s.dev.fld (ROUND.THR_SCHED_BEHIND n)) (floorNs s.dev.now)).2 = true →
      Does (.thrWaitp n) s fun d =>
      { (s.dev.thrSlot n) with events := d.events }.thrGoes d n (s.dev.reg (ROUND.THR_PC n) + 4) { (s.dev.thr n) with sched := some (sc.advance (s.dev.fld (ROUND.THR_SCHED_CATCHUP n)) (s.dev.fld (ROUND.THR_SCHED_BEHIND n)) (floorNs s.dev.now)).1 } ([ROUND.THR_TT n, ROUND.THR_TT n + 4] ++ [ROUND.THR_PLATE n]) ∧
      d.reg64 (ROUND.THR_TT n) = sc.t0 + BitVec.ofNat 64 (sc.k * sc.p) ∧
      d.num (ROUND.THR_PLATE n) = min 0xFFFFFFFF (lateness (sc.t0 + BitVec.ofNat 64 (sc.k * sc.p)) (floorNs s.dev.now) / 64) ∧
      s.dev.raised d [15] ∧ d.flag (ROUND.THR_STATUS_BEHIND n) = true) ∧
  (∀ (n : Fin 64) (sc : Sched), s.dev.thrWaits n 5 = true → s.dev.thrCode n = .waitp → (s.dev.thr n).sched = some sc →
      s.dev.due sc.target = true →
      (sc.advance (s.dev.fld (ROUND.THR_SCHED_CATCHUP n)) (s.dev.fld (ROUND.THR_SCHED_BEHIND n)) (sc.target)).2 = false →
      Does (.waitpTarget n) s fun d =>
      { (s.dev.begun.flushClosing (n.val / 32)) with events := d.events }.thrGoes d n (s.dev.reg (ROUND.THR_PC n) + 4) { (s.dev.thr n) with sched := some (sc.advance (s.dev.fld (ROUND.THR_SCHED_CATCHUP n)) (s.dev.fld (ROUND.THR_SCHED_BEHIND n)) (sc.target)).1 } ([ROUND.THR_TT n, ROUND.THR_TT n + 4] ++ [ROUND.THR_PLATE n]) ∧
      d.reg64 (ROUND.THR_TT n) = sc.t0 + BitVec.ofNat 64 (sc.k * sc.p) ∧
      d.num (ROUND.THR_PLATE n) = min 0xFFFFFFFF (lateness (sc.t0 + BitVec.ofNat 64 (sc.k * sc.p)) (sc.target) / 64) ∧
      s.dev.raised d [] ∧ d.flag (ROUND.THR_STATUS_BEHIND n) = s.dev.flag (ROUND.THR_STATUS_BEHIND n)) ∧
  (∀ (n : Fin 64) (sc : Sched), s.dev.thrWaits n 5 = true → s.dev.thrCode n = .waitp → (s.dev.thr n).sched = some sc →
      s.dev.due sc.target = true →
      (sc.advance (s.dev.fld (ROUND.THR_SCHED_CATCHUP n)) (s.dev.fld (ROUND.THR_SCHED_BEHIND n)) (sc.target)).2 = true →
      Does (.waitpTarget n) s fun d =>
      { (s.dev.begun.flushClosing (n.val / 32)) with events := d.events }.thrGoes d n (s.dev.reg (ROUND.THR_PC n) + 4) { (s.dev.thr n) with sched := some (sc.advance (s.dev.fld (ROUND.THR_SCHED_CATCHUP n)) (s.dev.fld (ROUND.THR_SCHED_BEHIND n)) (sc.target)).1 } ([ROUND.THR_TT n, ROUND.THR_TT n + 4] ++ [ROUND.THR_PLATE n]) ∧
      d.reg64 (ROUND.THR_TT n) = sc.t0 + BitVec.ofNat 64 (sc.k * sc.p) ∧
      d.num (ROUND.THR_PLATE n) = min 0xFFFFFFFF (lateness (sc.t0 + BitVec.ofNat 64 (sc.k * sc.p)) (sc.target) / 64) ∧
      s.dev.raised d [15] ∧ d.flag (ROUND.THR_STATUS_BEHIND n) = true) ∧
  (∀ (n : Fin 64), s.dev.thrRuns n = true → s.dev.thrCode n = .pstop → Does (.thrPstop n) s fun d =>
      (s.dev.thrSlot n).thrGoes d n (s.dev.reg (ROUND.THR_PC n) + 4) { (s.dev.thr n) with sched := none } ([])) ∧
  (∀ (n : Fin 64) (td : Nat) (ta : Nat), s.dev.thrRuns n = true → s.dev.thrCode n = .waite td ta →
      (s.dev.fld (ROUND.THR_EVPEND_PEND n) &&& (s.dev.t n ta).toNat) ≠ 0 → Does (.thrWaite n) s fun d =>
      (s.dev.thrSlot n).thrGoes d n (s.dev.reg (ROUND.THR_PC n) + 4) (s.dev.thr n) (ROUND.THR_EVPEND n :: tKey n td) ∧
      (d.t n td = if td = 0 then 0 else BitVec.ofNat 32 ((s.dev.fld (ROUND.THR_EVPEND_PEND n) &&& (s.dev.t n ta).toNat) % 256)) ∧
      d.fld (ROUND.THR_EVPEND_PEND n) = s.dev.fld (ROUND.THR_EVPEND_PEND n) &&& ((s.dev.t n ta).toNat ^^^ 0xFFFFFFFF)) ∧
  (∀ (n : Fin 64) (td : Nat) (ta : Nat), s.dev.thrRuns n = true → s.dev.thrCode n = .waite td ta →
      (s.dev.fld (ROUND.THR_EVPEND_PEND n) &&& (s.dev.t n ta).toNat) = 0 → Does (.thrWaite n) s fun d =>
      (s.dev.thrSlot n).thrHolds d n 2 8 (s.dev.thr n) []) ∧
  (∀ (n : Fin 64) (td : Nat) (ta : Nat), s.dev.thrWaits n 8 = true → s.dev.thrCode n = .waite td ta →
      (s.dev.fld (ROUND.THR_EVPEND_PEND n) &&& (s.dev.t n ta).toNat) ≠ 0 → Does (.waiteWake n) s fun d =>
      (s.dev.begun.flushClosing (n.val / 32)).thrGoes d n (s.dev.reg (ROUND.THR_PC n) + 4) (s.dev.thr n) (ROUND.THR_EVPEND n :: tKey n td) ∧
      (d.t n td = if td = 0 then 0 else BitVec.ofNat 32 ((s.dev.fld (ROUND.THR_EVPEND_PEND n) &&& (s.dev.t n ta).toNat) % 256)) ∧
      d.fld (ROUND.THR_EVPEND_PEND n) = s.dev.fld (ROUND.THR_EVPEND_PEND n) &&& ((s.dev.t n ta).toNat ^^^ 0xFFFFFFFF)) ∧
  (∀ (n : Fin 64), s.dev.thrRuns n = true → s.dev.thrCode n = .signal → Does (.thrSignal n) s fun d =>
      { (s.dev.thrSlot n) with events := d.events }.thrGoes d n (s.dev.reg (ROUND.THR_PC n) + 4) (s.dev.thr n) ([]) ∧
      s.dev.raised d [800 + 2 * n.val]) ∧
  (∀ (n : Fin 64), s.dev.thrRuns n = true → s.dev.thrCode n = .bkpt → Does (.thrBkpt n) s fun d =>
      d.reg (ROUND.THR_PC n) = (s.dev.reg (ROUND.THR_PC n) + 4) ∧
      d.reg (ROUND.THR_RETIRED n) = s.dev.reg (ROUND.THR_RETIRED n) + 1 ∧ d.thrState n = 4 ∧ d.thrWait n = 0 ∧
      d.thr n = { (s.dev.thr n) with req := none, sample := none } ∧ (s.dev.thrSlot n).thrAlone d n [] ∧ s.dev.noRecord d)

/-- For every thread: DRV, SMP and ESTART queue an action with target tt while fewer than 8 wait, else wait with reason 7; SMP then waits with reason 6 for the level of its pin; a due action drives the pin of its owner or starts its engine, is refused with ACT_REFUSED and the FAULT event where the thread does not own it, is counted late where it was issued too late, and is held while HALT_ACTIONS holds it; EPUSH and EPULL move a word to TX and from RX of an owned engine or wait, EPUSHN and EPULLN report in C; an engine of another owner stops the thread with cause 6. The commands that end the waits complete the instruction. Nothing else changes. Where a clause rests on a reading or a choice of the model, it is the model's and not the spec's: log entries 3, 98 and 106. -/
def Obligations.ThreadActions : Prop :=
  ∀ s : State,
  (∀ (n : Fin 64) (ta : Nat) (tb : Nat), s.dev.thrRuns n = true → s.dev.thrCode n = .drv ta tb → (s.dev.thr n).acts.length < 8 →
      Does (.thrDrv n) s fun d =>
      (s.dev.thrSlot n).thrGoes d n (s.dev.reg (ROUND.THR_PC n) + 4) { (s.dev.thr n) with acts := (s.dev.thr n).acts ++ [{ kind := .drv ((s.dev.t n ta).toNat % 256) ((s.dev.t n tb).toNat % 4), target := s.dev.tt n, issued := s.dev.now }] } ([]) ∧
      d.fld (ROUND.THR_ACTQ_COUNT n) = (s.dev.thr n).acts.length + 1) ∧
  (∀ (n : Fin 64) (ta : Nat) (tb : Nat), s.dev.thrRuns n = true → s.dev.thrCode n = .drv ta tb → 8 ≤ (s.dev.thr n).acts.length →
      Does (.thrDrv n) s fun d => (s.dev.thrSlot n).thrHolds d n 2 7 (s.dev.thr n) []) ∧
  (∀ (n : Fin 64) (ta : Nat) (tb : Nat), s.dev.thrWaits n 7 = true → s.dev.thrCode n = .drv ta tb →
      (s.dev.thr n).acts.length < 8 → Does (.actqRoom n) s fun d =>
      (s.dev.begun.flushClosing (n.val / 32)).thrGoes d n (s.dev.reg (ROUND.THR_PC n) + 4) { (s.dev.thr n) with acts := (s.dev.thr n).acts ++ [{ kind := .drv ((s.dev.t n ta).toNat % 256) ((s.dev.t n tb).toNat % 4), target := s.dev.tt n, issued := s.dev.now }] } ([]) ∧
      d.fld (ROUND.THR_ACTQ_COUNT n) = (s.dev.thr n).acts.length + 1) ∧
  (∀ (n : Fin 64) (td : Nat) (ta : Nat), s.dev.thrRuns n = true → s.dev.thrCode n = .smp td ta → (s.dev.thr n).acts.length < 8 →
      Does (.thrSmp n) s fun d =>
      (s.dev.thrSlot n).thrHolds d n 2 6 { (s.dev.thr n) with acts := (s.dev.thr n).acts ++ [{ kind := .smp ((s.dev.t n ta).toNat % 256), target := s.dev.tt n, issued := s.dev.now }] } [] ∧
      d.fld (ROUND.THR_ACTQ_COUNT n) = (s.dev.thr n).acts.length + 1) ∧
  (∀ (n : Fin 64) (td : Nat) (ta : Nat), s.dev.thrRuns n = true → s.dev.thrCode n = .smp td ta → 8 ≤ (s.dev.thr n).acts.length →
      Does (.thrSmp n) s fun d => (s.dev.thrSlot n).thrHolds d n 2 7 (s.dev.thr n) []) ∧
  (∀ (n : Fin 64) (td : Nat) (ta : Nat), s.dev.thrWaits n 7 = true → s.dev.thrCode n = .smp td ta →
      (s.dev.thr n).acts.length < 8 → Does (.actqRoom n) s fun d =>
      (s.dev.begun.flushClosing (n.val / 32)).thrHolds d n 2 6 { (s.dev.thr n) with acts := (s.dev.thr n).acts ++ [{ kind := .smp ((s.dev.t n ta).toNat % 256), target := s.dev.tt n, issued := s.dev.now }] } [] ∧
      d.fld (ROUND.THR_ACTQ_COUNT n) = (s.dev.thr n).acts.length + 1) ∧
  (∀ (n : Fin 64) (ta : Nat), s.dev.thrRuns n = true → s.dev.thrCode n = .estart ta → (s.dev.thr n).acts.length < 8 →
      Does (.thrEstart n) s fun d =>
      (s.dev.thrSlot n).thrGoes d n (s.dev.reg (ROUND.THR_PC n) + 4) { (s.dev.thr n) with acts := (s.dev.thr n).acts ++ [{ kind := .estart ((s.dev.t n ta).toNat % 64), target := s.dev.tt n, issued := s.dev.now }] } ([]) ∧
      d.fld (ROUND.THR_ACTQ_COUNT n) = (s.dev.thr n).acts.length + 1) ∧
  (∀ (n : Fin 64) (ta : Nat), s.dev.thrRuns n = true → s.dev.thrCode n = .estart ta → 8 ≤ (s.dev.thr n).acts.length →
      Does (.thrEstart n) s fun d => (s.dev.thrSlot n).thrHolds d n 2 7 (s.dev.thr n) []) ∧
  (∀ (n : Fin 64) (ta : Nat), s.dev.thrWaits n 7 = true → s.dev.thrCode n = .estart ta → (s.dev.thr n).acts.length < 8 →
      Does (.actqRoom n) s fun d =>
      (s.dev.begun.flushClosing (n.val / 32)).thrGoes d n (s.dev.reg (ROUND.THR_PC n) + 4) { (s.dev.thr n) with acts := (s.dev.thr n).acts ++ [{ kind := .estart ((s.dev.t n ta).toNat % 64), target := s.dev.tt n, issued := s.dev.now }] } ([]) ∧
      d.fld (ROUND.THR_ACTQ_COUNT n) = (s.dev.thr n).acts.length + 1) ∧
  (∀ (n : Fin 64) (ta : Nat) (tb : Nat), s.dev.thrWaits n 7 = true → s.dev.thrCode n = .drv ta tb →
      8 ≤ (s.dev.thr n).acts.length → Does (.actqRoom n) s fun d => s.dev.keepsUnits d ∧ s.dev.keepsRegs d []) ∧
  (∀ (n : Fin 64) (a : Act) (p l : Nat), s.dev.actsHeld n = false → s.dev.firstAct (s.dev.thr n).acts = some a →
      a.kind = .drv p l → s.dev.thrOwnsPin n p = true → (p < 96 ∨ l ≠ 2) → lateness (floorNs a.target) a.applyAt = 0 →
      Does (.threadActionApply n) s fun d => d.thr n = { (s.dev.thr n) with acts := (s.dev.thr n).acts.erase a } ∧
      d.pin p = { s.dev.pin p with thr := level4 l } ∧ (∀ q : Fin 160, q.val ≠ p → d.pin q = s.dev.pin q) ∧
      (∀ k : Fin 64, k ≠ n → d.thr k = s.dev.thr k) ∧ { s.dev with thrs := d.thrs, pins := d.pins }.keepsUnits d ∧
      s.dev.keepsRegs d [ROUND.THR_ACTQ n, ROUND.THR_STATUS n] ∧ s.dev.noRecord d) ∧
  (∀ (n : Fin 64) (a : Act) (p l : Nat), s.dev.actsHeld n = false → s.dev.firstAct (s.dev.thr n).acts = some a →
      a.kind = .drv p l → s.dev.thrOwnsPin n p = true → (p < 96 ∨ l ≠ 2) → lateness (floorNs a.target) a.applyAt ≠ 0 →
      Does (.threadActionApply n) s fun d => d.thr n = { (s.dev.thr n) with acts := (s.dev.thr n).acts.erase a } ∧
      (d.pin p).thr = level4 l ∧ d.flag (ROUND.THR_STATUS_LATE n) = true ∧ d.reg64 MILEPOST.LATE_LAST = a.target ∧
      d.flag MILEPOST.MP_FLAGS_LATE = true ∧ (∀ k : Fin 64, k ≠ n → d.thr k = s.dev.thr k) ∧
      { s.dev with thrs := d.thrs, pins := d.pins }.keepsUnits d ∧
      s.dev.keepsRegs d [ROUND.THR_ACTQ n, ROUND.THR_STATUS n, MILEPOST.LATE_COUNT, MILEPOST.LATE_LAST, MILEPOST.LATE_LAST + 4, MILEPOST.LATE_SRC, MILEPOST.MP_FLAGS_LATE.addr] ∧
      s.dev.noRecord d) ∧
  (∀ (n : Fin 64) (a : Act) (p l : Nat), s.dev.actsHeld n = false → s.dev.firstAct (s.dev.thr n).acts = some a →
      a.kind = .drv p l → s.dev.thrOwnsPin n p = false → Does (.threadActionApply n) s fun d =>
      d.thr n = { (s.dev.thr n) with acts := (s.dev.thr n).acts.erase a } ∧ d.pins = s.dev.pins ∧
      d.flag (ROUND.THR_STATUS_ACT_REFUSED n) = true ∧ s.dev.raised d [801 + 2 * n.val] ∧ (∀ k : Fin 64, k ≠ n →
      d.thr k = s.dev.thr k) ∧ { s.dev with thrs := d.thrs }.keepsUnits d ∧
      s.dev.keepsRegs d [ROUND.THR_ACTQ n, ROUND.THR_STATUS n] ∧ s.dev.noRecord d) ∧
  (∀ (n : Fin 64) (a : Act) (e : Nat), s.dev.actsHeld n = false → s.dev.firstAct (s.dev.thr n).acts = some a →
      a.kind = .estart e → s.dev.thrOwnsEng n e = true → s.dev.engState e = 0 → lateness (floorNs a.target) a.applyAt = 0 →
      Does (.threadActionApply n) s fun d => d.thr n = { (s.dev.thr n) with acts := (s.dev.thr n).acts.erase a } ∧
      d.engState e = 2 ∧ (d.eng e).et = nsEt (floorNs a.target) ∧ ((d.eng e).cells = 0 ∧ (d.eng e).q = (s.dev.eng e).q ∧
      (d.eng e).tx = (s.dev.eng e).tx) ∧ (d.reg (PENG.ENG_SR e) = 0 ∧ d.reg (PENG.ENG_CR e) = 0 ∧ d.reg (PENG.ENG_K e) = 0) ∧
      d.fld (PENG.ENG_STATUS_PC e) = 0 ∧ (∀ q : Fin 40, q.val ≠ e → d.eng q = s.dev.eng q) ∧ (∀ k : Fin 64, k ≠ n →
      d.thr k = s.dev.thr k) ∧ { s.dev with thrs := d.thrs, engs := d.engs }.keepsUnits d ∧
      s.dev.keepsRegs d [ROUND.THR_ACTQ n, ROUND.THR_STATUS n, PENG.ENG_STATUS e, PENG.ENG_ET e, PENG.ENG_ET e + 4, PENG.ENG_SR e, PENG.ENG_CR e, PENG.ENG_K e, (PENG.ENG_PSTATE_DIR e).addr] ∧
      s.dev.noRecord d) ∧
  (∀ (n : Fin 64), s.dev.actsHeld n = true → Does (.threadActionApply n) s fun d => s.dev.keepsUnits d ∧ s.dev.keepsRegs d [] ∧
      s.dev.noRecord d) ∧
  (∀ (n : Fin 64), s.dev.firstAct (s.dev.thr n).acts = none → Does (.threadActionApply n) s fun d => s.dev.keepsUnits d ∧
      s.dev.keepsRegs d [] ∧ s.dev.noRecord d) ∧
  (∀ (n : Fin 64) (td : Nat) (ta : Nat) (a : Act) (p : Nat), s.dev.thrWaits n 6 = true → s.dev.thrCode n = .smp td ta →
      (s.dev.thr n).sample = none → s.dev.actsHeld n = false → (s.dev.thr n).acts = [a] → a.kind = .smp p →
      s.dev.actDue a = true → s.dev.thrOwnsPin n p = true → lateness (floorNs a.target) a.applyAt = 0 →
      Does (.smpSample n) s fun d =>
      (s.dev.begun.flushClosing (n.val / 32)).thrGoes d n (s.dev.reg (ROUND.THR_PC n) + 4) { (s.dev.thr n) with acts := [] } (tKey n td) ∧
      (d.t n td = if td = 0 then 0 else (if s.dev.pinIn p then 1 else 0))) ∧
  (∀ (n : Fin 64) (td : Nat) (ta : Nat) (a : Act) (p : Nat), s.dev.thrWaits n 6 = true → s.dev.thrCode n = .smp td ta →
      (s.dev.thr n).sample = none → s.dev.actsHeld n = false → (s.dev.thr n).acts = [a] → a.kind = .smp p →
      s.dev.actDue a = true → s.dev.thrOwnsPin n p = false → Does (.smpSample n) s fun d =>
      { (s.dev.begun.flushClosing (n.val / 32)) with events := d.events }.thrGoes d n (s.dev.reg (ROUND.THR_PC n) + 4) { (s.dev.thr n) with acts := [] } ([]) ∧
      d.flag (ROUND.THR_STATUS_ACT_REFUSED n) = true ∧ s.dev.raised d [801 + 2 * n.val]) ∧
  (∀ (n : Fin 64) (td : Nat) (ta : Nat) (a : Act) (p : Nat), s.dev.thrWaits n 6 = true → s.dev.thrCode n = .smp td ta →
      (s.dev.thr n).sample = none → s.dev.actsHeld n = false → (s.dev.thr n).acts = [a] → a.kind = .smp p →
      s.dev.actDue a = false → Does (.smpSample n) s fun d => s.dev.keepsUnits d ∧ s.dev.keepsRegs d [] ∧ s.dev.noRecord d) ∧
  (∀ (n : Fin 64) (ta : Nat) (tb : Nat), s.dev.thrRuns n = true → s.dev.thrCode n = .epush ta tb →
      s.dev.thrOwnsEng n ((s.dev.t n ta).toNat % 64) = true → (s.dev.eng ((s.dev.t n ta).toNat % 64)).tx.length < 8 →
      Does (.thrEpush n) s fun d =>
      { (s.dev.thrSlot n) with engs := d.engs }.thrGoes d n (s.dev.reg (ROUND.THR_PC n) + 4) (s.dev.thr n) ([PENG.ENG_STATUS ((s.dev.t n ta).toNat % 64), PENG.ENG_ET ((s.dev.t n ta).toNat % 64), PENG.ENG_ET ((s.dev.t n ta).toNat % 64) + 4]) ∧
      (d.eng ((s.dev.t n ta).toNat % 64) = { s.dev.eng ((s.dev.t n ta).toNat % 64) with tx := (s.dev.eng ((s.dev.t n ta).toNat % 64)).tx ++ [s.dev.t n tb] } ∧
      (∀ q : Fin 40, q.val ≠ ((s.dev.t n ta).toNat % 64) → d.eng q = s.dev.eng q)) ∧
      d.fld (PENG.ENG_STATUS_TX ((s.dev.t n ta).toNat % 64)) = (s.dev.eng ((s.dev.t n ta).toNat % 64)).tx.length + 1) ∧
  (∀ (n : Fin 64) (ta : Nat) (tb : Nat), s.dev.thrRuns n = true → s.dev.thrCode n = .epush ta tb →
      s.dev.thrOwnsEng n ((s.dev.t n ta).toNat % 64) = true → 8 ≤ (s.dev.eng ((s.dev.t n ta).toNat % 64)).tx.length →
      Does (.thrEpush n) s fun d => (s.dev.thrSlot n).thrHolds d n 2 9 (s.dev.thr n) []) ∧
  (∀ (n : Fin 64) (ta : Nat) (tb : Nat), s.dev.thrRuns n = true → s.dev.thrCode n = .epush ta tb →
      s.dev.thrOwnsEng n ((s.dev.t n ta).toNat % 64) = false → Does (.thrEpush n) s fun d =>
      (s.dev.thrSlot n).thrStops d n 6 (BitVec.ofNat 32 ((s.dev.t n ta).toNat % 64))) ∧
  (∀ (n : Fin 64) (ta : Nat) (tb : Nat), s.dev.thrWaits n 9 = true → s.dev.thrCode n = .epush ta tb →
      (s.dev.eng ((s.dev.t n ta).toNat % 64)).tx.length < 8 → Does (.epushRoom n) s fun d =>
      { (s.dev.begun.flushClosing (n.val / 32)) with engs := d.engs }.thrGoes d n (s.dev.reg (ROUND.THR_PC n) + 4) (s.dev.thr n) ([PENG.ENG_STATUS ((s.dev.t n ta).toNat % 64), PENG.ENG_ET ((s.dev.t n ta).toNat % 64), PENG.ENG_ET ((s.dev.t n ta).toNat % 64) + 4]) ∧
      (d.eng ((s.dev.t n ta).toNat % 64) = { s.dev.eng ((s.dev.t n ta).toNat % 64) with tx := (s.dev.eng ((s.dev.t n ta).toNat % 64)).tx ++ [s.dev.t n tb] } ∧
      (∀ q : Fin 40, q.val ≠ ((s.dev.t n ta).toNat % 64) → d.eng q = s.dev.eng q)) ∧
      d.fld (PENG.ENG_STATUS_TX ((s.dev.t n ta).toNat % 64)) = (s.dev.eng ((s.dev.t n ta).toNat % 64)).tx.length + 1) ∧
  (∀ (n : Fin 64) (ta : Nat) (tb : Nat), s.dev.thrRuns n = true → s.dev.thrCode n = .epushn ta tb →
      s.dev.thrOwnsEng n ((s.dev.t n ta).toNat % 64) = true → (s.dev.eng ((s.dev.t n ta).toNat % 64)).tx.length < 8 →
      Does (.thrEpushn n) s fun d =>
      { (s.dev.thrSlot n) with engs := d.engs }.thrGoes d n (s.dev.reg (ROUND.THR_PC n) + 4) { (s.dev.thr n) with flags := withBits (s.dev.thr n).flags [(18, true)] } ([PENG.ENG_STATUS ((s.dev.t n ta).toNat % 64), PENG.ENG_ET ((s.dev.t n ta).toNat % 64), PENG.ENG_ET ((s.dev.t n ta).toNat % 64) + 4]) ∧
      (d.eng ((s.dev.t n ta).toNat % 64) = { s.dev.eng ((s.dev.t n ta).toNat % 64) with tx := (s.dev.eng ((s.dev.t n ta).toNat % 64)).tx ++ [s.dev.t n tb] } ∧
      (∀ q : Fin 40, q.val ≠ ((s.dev.t n ta).toNat % 64) → d.eng q = s.dev.eng q))) ∧
  (∀ (n : Fin 64) (ta : Nat) (tb : Nat), s.dev.thrRuns n = true → s.dev.thrCode n = .epushn ta tb →
      s.dev.thrOwnsEng n ((s.dev.t n ta).toNat % 64) = true → 8 ≤ (s.dev.eng ((s.dev.t n ta).toNat % 64)).tx.length →
      Does (.thrEpushn n) s fun d =>
      (s.dev.thrSlot n).thrGoes d n (s.dev.reg (ROUND.THR_PC n) + 4) { (s.dev.thr n) with flags := withBits (s.dev.thr n).flags [(18, false)] } ([])) ∧
  (∀ (n : Fin 64) (td : Nat) (ta : Nat) (v : Word) (q : List Word), s.dev.thrRuns n = true → s.dev.thrCode n = .epull td ta →
      s.dev.thrOwnsEng n ((s.dev.t n ta).toNat % 64) = true → (s.dev.eng ((s.dev.t n ta).toNat % 64)).rx = v :: q →
      Does (.thrEpull n) s fun d =>
      { (s.dev.thrSlot n) with engs := d.engs }.thrGoes d n (s.dev.reg (ROUND.THR_PC n) + 4) (s.dev.thr n) ([PENG.ENG_STATUS ((s.dev.t n ta).toNat % 64), PENG.ENG_ET ((s.dev.t n ta).toNat % 64), PENG.ENG_ET ((s.dev.t n ta).toNat % 64) + 4] ++ tKey n td) ∧
      (d.eng ((s.dev.t n ta).toNat % 64) = { s.dev.eng ((s.dev.t n ta).toNat % 64) with rx := q } ∧
      (∀ q : Fin 40, q.val ≠ ((s.dev.t n ta).toNat % 64) → d.eng q = s.dev.eng q)) ∧ (d.t n td = if td = 0 then 0 else v)) ∧
  (∀ (n : Fin 64) (td : Nat) (ta : Nat), s.dev.thrRuns n = true → s.dev.thrCode n = .epull td ta →
      s.dev.thrOwnsEng n ((s.dev.t n ta).toNat % 64) = true → (s.dev.eng ((s.dev.t n ta).toNat % 64)).rx = [] →
      Does (.thrEpull n) s fun d => (s.dev.thrSlot n).thrHolds d n 2 9 (s.dev.thr n) []) ∧
  (∀ (n : Fin 64) (td : Nat) (ta : Nat) (v : Word) (q : List Word), s.dev.thrWaits n 9 = true → s.dev.thrCode n = .epull td ta →
      (s.dev.eng ((s.dev.t n ta).toNat % 64)).rx = v :: q → Does (.epullData n) s fun d =>
      { (s.dev.begun.flushClosing (n.val / 32)) with engs := d.engs }.thrGoes d n (s.dev.reg (ROUND.THR_PC n) + 4) (s.dev.thr n) ([PENG.ENG_STATUS ((s.dev.t n ta).toNat % 64), PENG.ENG_ET ((s.dev.t n ta).toNat % 64), PENG.ENG_ET ((s.dev.t n ta).toNat % 64) + 4] ++ tKey n td) ∧
      (d.eng ((s.dev.t n ta).toNat % 64) = { s.dev.eng ((s.dev.t n ta).toNat % 64) with rx := q } ∧
      (∀ q : Fin 40, q.val ≠ ((s.dev.t n ta).toNat % 64) → d.eng q = s.dev.eng q)) ∧ (d.t n td = if td = 0 then 0 else v)) ∧
  (∀ (n : Fin 64) (td : Nat) (ta : Nat) (v : Word) (q : List Word), s.dev.thrRuns n = true → s.dev.thrCode n = .epulln td ta →
      s.dev.thrOwnsEng n ((s.dev.t n ta).toNat % 64) = true → (s.dev.eng ((s.dev.t n ta).toNat % 64)).rx = v :: q →
      Does (.thrEpulln n) s fun d =>
      { (s.dev.thrSlot n) with engs := d.engs }.thrGoes d n (s.dev.reg (ROUND.THR_PC n) + 4) { (s.dev.thr n) with flags := withBits (s.dev.thr n).flags [(18, true)] } ([PENG.ENG_STATUS ((s.dev.t n ta).toNat % 64), PENG.ENG_ET ((s.dev.t n ta).toNat % 64), PENG.ENG_ET ((s.dev.t n ta).toNat % 64) + 4] ++ tKey n td) ∧
      (d.eng ((s.dev.t n ta).toNat % 64) = { s.dev.eng ((s.dev.t n ta).toNat % 64) with rx := q } ∧
      (∀ q : Fin 40, q.val ≠ ((s.dev.t n ta).toNat % 64) → d.eng q = s.dev.eng q)) ∧ (d.t n td = if td = 0 then 0 else v)) ∧
  (∀ (n : Fin 64) (td : Nat) (ta : Nat), s.dev.thrRuns n = true → s.dev.thrCode n = .epulln td ta →
      s.dev.thrOwnsEng n ((s.dev.t n ta).toNat % 64) = true → (s.dev.eng ((s.dev.t n ta).toNat % 64)).rx = [] →
      Does (.thrEpulln n) s fun d =>
      (s.dev.thrSlot n).thrGoes d n (s.dev.reg (ROUND.THR_PC n) + 4) { (s.dev.thr n) with flags := withBits (s.dev.thr n).flags [(18, false)] } ([]))

/-- For every thread and ring: CH.OPEN takes a place where one is free for its channel, else waits with reason 2, CH.PUT adds a word to the staged record, CH.CLOSE makes it visible at the end of its step, CH.RECV opens the oldest visible record and gives its count or waits with reason 1, CH.GET reads its next word, CH.DONE returns the place and counts, CH.POLL gives the number visible; misuses stop the thread with cause 5; the wakes complete the waits; at the end of a rotation GRIDLOCKED shows the condition and, seen twice while enabled and armed, GRIDLOCK sets with event 16 and a SYSTEM record; a powered ring becomes READY; HALT, RESUME, STEP, RESET and CLEAR do what R336 and R337 say. Where a clause rests on a reading or a choice of the model, it is the model's and not the spec's: log entries 96, 97 and 100. -/
def Obligations.ThreadChannels : Prop :=
  ∀ s : State,
  (∀ (n : Fin 64) (ta : Nat), s.dev.thrRuns n = true → s.dev.thrCode n = .chOpen ta →
      s.dev.openBad n (s.dev.chanOf n ta) = false → s.dev.placeFree (s.dev.chanOf n ta) = true →
      s.dev.fld (ROUND.CH_CFG_QUOTA (s.dev.chanOf n ta)) ≤ 1024 →
      0 < s.dev.fld (ROUND.POOL_STATUS_FREE ((s.dev.chanOf n ta) / 64)) → (s.dev.ring (n.val / 32)).openQ = [] →
      (s.dev.ring (n.val / 32)).closing = none → Does (.thrChOpen n) s fun d =>
      (s.dev.thrSlot n).thrGoes d n (s.dev.reg (ROUND.THR_PC n) + 4) { (s.dev.thr n) with staging := some ((s.dev.chanOf n ta), []) } ([ROUND.CH_STATUS (s.dev.chanOf n ta), ROUND.POOL_STATUS ((s.dev.chanOf n ta) / 64)]) ∧
      (d.fld (ROUND.CH_STATUS_HELD (s.dev.chanOf n ta)) = s.dev.fld (ROUND.CH_STATUS_HELD (s.dev.chanOf n ta)) + 1 ∧
      d.fld (ROUND.POOL_STATUS_FREE ((s.dev.chanOf n ta) / 64)) + 1 = s.dev.fld (ROUND.POOL_STATUS_FREE ((s.dev.chanOf n ta) / 64))) ∧
      d.flag (ROUND.THR_STATUS_CH_STAGING n) = true) ∧
  (∀ (n : Fin 64) (ta : Nat), s.dev.thrRuns n = true → s.dev.thrCode n = .chOpen ta →
      s.dev.openBad n (s.dev.chanOf n ta) = false → (s.dev.thrSlot n).placeFree (s.dev.chanOf n ta) = false →
      Does (.thrChOpen n) s fun d => (s.dev.thrSlot n).thrHolds d n 2 2 (s.dev.thr n) [] ∧
      (d.ring (n.val / 32)).openQ = (s.dev.ring (n.val / 32)).openQ ++ [n.val]) ∧
  (∀ (n : Fin 64) (ta : Nat), s.dev.thrRuns n = true → s.dev.thrCode n = .chOpen ta →
      s.dev.openBad n (s.dev.chanOf n ta) = true → Does (.thrChOpen n) s fun d =>
      (s.dev.thrSlot n).thrStops d n 5 (BitVec.ofNat 32 ((s.dev.chanOf n ta) % 64))) ∧
  (∀ (n : Fin 64) (ta : Nat), s.dev.thrWaits n 2 = true → s.dev.thrCode n = .chOpen ta →
      s.dev.placeFree (s.dev.chanOf n ta) = true → s.dev.fld (ROUND.CH_CFG_QUOTA (s.dev.chanOf n ta)) ≤ 1024 →
      0 < s.dev.fld (ROUND.POOL_STATUS_FREE ((s.dev.chanOf n ta) / 64)) → (s.dev.ring (n.val / 32)).openQ = [n.val] →
      (s.dev.ring (n.val / 32)).closing = none → Does (.chOpenWake n) s fun d =>
      (d.thr n).staging = some ((s.dev.chanOf n ta), []) ∧
      (d.fld (ROUND.CH_STATUS_HELD (s.dev.chanOf n ta)) = s.dev.fld (ROUND.CH_STATUS_HELD (s.dev.chanOf n ta)) + 1 ∧
      d.fld (ROUND.POOL_STATUS_FREE ((s.dev.chanOf n ta) / 64)) + 1 = s.dev.fld (ROUND.POOL_STATUS_FREE ((s.dev.chanOf n ta) / 64))) ∧
      d.reg (ROUND.THR_PC n) = (s.dev.reg (ROUND.THR_PC n) + 4) ∧ d.thrState n = 1 ∧ (d.ring (n.val / 32)).openQ = []) ∧
  (∀ (n : Fin 64) (ta : Nat) (c : Nat) (ws : List Word), s.dev.thrRuns n = true → s.dev.thrCode n = .chPut ta →
      (s.dev.thr n).staging = some (c, ws) → ws.length < 8 → Does (.thrChPut n) s fun d =>
      (s.dev.thrSlot n).thrGoes d n (s.dev.reg (ROUND.THR_PC n) + 4) { (s.dev.thr n) with staging := some (c, ws ++ [s.dev.t n ta]) } ([])) ∧
  (∀ (n : Fin 64) (ta : Nat) (c : Nat) (ws : List Word), s.dev.thrRuns n = true → s.dev.thrCode n = .chPut ta →
      (s.dev.thr n).staging = some (c, ws) → 8 ≤ ws.length → Does (.thrChPut n) s fun d =>
      (s.dev.thrSlot n).thrStops d n 5 (BitVec.ofNat 32 (c % 64))) ∧
  (∀ (n : Fin 64) (ta : Nat), s.dev.thrRuns n = true → s.dev.thrCode n = .chPut ta → (s.dev.thr n).staging = none →
      Does (.thrChPut n) s fun d => (s.dev.thrSlot n).thrStops d n 5 (BitVec.ofNat 32 ((s.dev.chanOf n ta) % 64))) ∧
  (∀ (n : Fin 64) (c : Nat) (ws : List Word), s.dev.thrRuns n = true → s.dev.thrCode n = .chClose →
      (s.dev.thr n).staging = some (c, ws) → (s.dev.ring (n.val / 32)).closing = none → Does (.thrChClose n) s fun d =>
      (d.thr n).staging = none ∧ (d.ring (n.val / 32)).closing = some (c, ws, n.val) ∧
      d.flag (ROUND.THR_STATUS_CH_STAGING n) = false ∧ d.reg (ROUND.THR_PC n) = (s.dev.reg (ROUND.THR_PC n) + 4) ∧
      d.reg (ROUND.THR_RETIRED n) = s.dev.reg (ROUND.THR_RETIRED n) + 1 ∧ d.thrState n = 1 ∧ d.chans = s.dev.chans ∧
      (∀ k : Fin 64, k ≠ n → d.thr k = s.dev.thr k) ∧ s.dev.keepsRegs d (thrKeys n)) ∧
  (∀ (n : Fin 64), s.dev.thrRuns n = true → s.dev.thrCode n = .chClose → (s.dev.thr n).staging = none →
      Does (.thrChClose n) s fun d => (s.dev.thrSlot n).thrStops d n 5 0) ∧
  (∀ (n : Fin 64) (td : Nat) (ta : Nat) (ws : List Word) (t : List (List Word)), s.dev.thrRuns n = true →
      s.dev.thrCode n = .chRecv td ta → s.dev.recvBad n (s.dev.chanOf n ta) = false →
      (s.dev.chan (s.dev.chanOf n ta)).visible = ws :: t → t.length < 2048 → ws.length < 2 ^ 32 →
      (s.dev.ring (n.val / 32)).closing = none → Does (.thrChRecv n) s fun d =>
      { (s.dev.thrSlot n) with chans := d.chans }.thrGoes d n (s.dev.reg (ROUND.THR_PC n) + 4) { (s.dev.thr n) with reading := some ((s.dev.chanOf n ta), ws, 0) } (ROUND.CH_STATUS (s.dev.chanOf n ta) :: tKey n td) ∧
      (d.t n td = if td = 0 then 0 else BitVec.ofNat 32 ws.length) ∧ d.chan (s.dev.chanOf n ta) = { visible := t } ∧
      (∀ q : Fin 128, q.val ≠ (s.dev.chanOf n ta) → d.chan q = s.dev.chan q) ∧
      d.fld (ROUND.CH_STATUS_VISIBLE (s.dev.chanOf n ta)) = t.length ∧ d.flag (ROUND.THR_STATUS_CH_READING n) = true) ∧
  (∀ (n : Fin 64) (td : Nat) (ta : Nat), s.dev.thrRuns n = true → s.dev.thrCode n = .chRecv td ta →
      s.dev.recvBad n (s.dev.chanOf n ta) = false → ((s.dev.thrSlot n).chan (s.dev.chanOf n ta)).visible = [] →
      Does (.thrChRecv n) s fun d => (s.dev.thrSlot n).thrHolds d n 2 1 (s.dev.thr n) []) ∧
  (∀ (n : Fin 64) (td : Nat) (ta : Nat), s.dev.thrRuns n = true → s.dev.thrCode n = .chRecv td ta →
      s.dev.recvBad n (s.dev.chanOf n ta) = true → Does (.thrChRecv n) s fun d =>
      (s.dev.thrSlot n).thrStops d n 5 (BitVec.ofNat 32 ((s.dev.chanOf n ta) % 64))) ∧
  (∀ (n : Fin 64) (td : Nat) (ta : Nat) (ws : List Word) (t : List (List Word)), s.dev.thrWaits n 1 = true →
      s.dev.thrCode n = .chRecv td ta → (s.dev.chan (s.dev.chanOf n ta)).visible = ws :: t → t.length < 2048 →
      ws.length < 2 ^ 32 → (s.dev.ring (n.val / 32)).closing = none → Does (.chRecvWake n) s fun d =>
      { s.dev.begun with chans := d.chans }.thrGoes d n (s.dev.reg (ROUND.THR_PC n) + 4) { (s.dev.thr n) with reading := some ((s.dev.chanOf n ta), ws, 0) } (ROUND.CH_STATUS (s.dev.chanOf n ta) :: tKey n td) ∧
      (d.t n td = if td = 0 then 0 else BitVec.ofNat 32 ws.length) ∧ d.chan (s.dev.chanOf n ta) = { visible := t } ∧
      (∀ q : Fin 128, q.val ≠ (s.dev.chanOf n ta) → d.chan q = s.dev.chan q) ∧
      d.fld (ROUND.CH_STATUS_VISIBLE (s.dev.chanOf n ta)) = t.length ∧ d.flag (ROUND.THR_STATUS_CH_READING n) = true) ∧
  (∀ (n : Fin 64) (td : Nat) (c : Nat) (ws : List Word) (k : Nat), s.dev.thrRuns n = true → s.dev.thrCode n = .chGet td →
      (s.dev.thr n).reading = some (c, ws, k) → Does (.thrChGet n) s fun d =>
      (s.dev.thrSlot n).thrGoes d n (s.dev.reg (ROUND.THR_PC n) + 4) { (s.dev.thr n) with reading := some (c, ws, k + 1) } (tKey n td) ∧
      (d.t n td = if td = 0 then 0 else ws.getD k 0)) ∧
  (∀ (n : Fin 64) (td : Nat), s.dev.thrRuns n = true → s.dev.thrCode n = .chGet td → (s.dev.thr n).reading = none →
      Does (.thrChGet n) s fun d => (s.dev.thrSlot n).thrStops d n 5 0) ∧
  (∀ (n : Fin 64) (c : Nat) (ws : List Word) (k : Nat), s.dev.thrRuns n = true → s.dev.thrCode n = .chDone →
      (s.dev.thr n).reading = some (c, ws, k) → c < 128 → 0 < s.dev.fld (ROUND.CH_STATUS_HELD c) →
      s.dev.fld (ROUND.POOL_STATUS_FREE (c / 64)) < 1024 → (s.dev.ring (n.val / 32)).closing = none →
      Does (.thrChDone n) s fun d =>
      (s.dev.thrSlot n).thrGoes d n (s.dev.reg (ROUND.THR_PC n) + 4) { (s.dev.thr n) with reading := none } ([ROUND.CH_STATUS c, ROUND.POOL_STATUS (c / 64), ROUND.CH_COUNT c]) ∧
      d.fld (ROUND.CH_STATUS_HELD c) + 1 = s.dev.fld (ROUND.CH_STATUS_HELD c) ∧
      d.fld (ROUND.POOL_STATUS_FREE (c / 64)) = s.dev.fld (ROUND.POOL_STATUS_FREE (c / 64)) + 1 ∧
      d.reg (ROUND.CH_COUNT c) = s.dev.reg (ROUND.CH_COUNT c) + 1) ∧
  (∀ (n : Fin 64), s.dev.thrRuns n = true → s.dev.thrCode n = .chDone → (s.dev.thr n).reading = none →
      Does (.thrChDone n) s fun d => (s.dev.thrSlot n).thrStops d n 5 0) ∧
  (∀ (n : Fin 64) (td : Nat) (ta : Nat), s.dev.thrRuns n = true → s.dev.thrCode n = .chPoll td ta →
      Does (.thrChPoll n) s fun d => (s.dev.thrSlot n).thrGoes d n (s.dev.reg (ROUND.THR_PC n) + 4) (s.dev.thr n) (tKey n td) ∧
      (d.t n td = if td = 0 then 0 else BitVec.ofNat 32 ((s.dev.thrSlot n).chan (s.dev.chanOf n ta)).visible.length)) ∧
  (∀ (r : Fin 2), s.dev.domReady (16 + r.val) = true → (s.dev.ring r).closing = none →
      (ringThreads r).any (fun n => decide (s.dev.thrState n = 2)) = true →
      (ringThreads r).all (fun n => (decide (s.dev.thrState n = 0) || decide (s.dev.thrState n = 5) || s.dev.thrInternal n) && (s.dev.thr n).acts.isEmpty) = true →
      (s.dev.ring r).gridPrev = true → (s.dev.ring r).gridArmed = true → s.dev.flag (ROUND.RING_CTRL_GRIDLOCK_EN r) = true →
      Does (.gridlockEvaluation r) s fun d => d.flag (ROUND.RING_STATUS_GRIDLOCKED r) = true ∧
      d.flag (ROUND.RING_STATUS_GRIDLOCK r) = true ∧ s.dev.raised d [16] ∧
      d.ring r = { s.dev.ring r with gridPrev := true, gridArmed := false } ∧ { s.dev with rings := d.rings }.keepsUnits d ∧
      s.dev.keepsRegs d [ROUND.RING_STATUS r] ∧
      s.dev.oneRecord d (wordRecord s.dev.nowNs .system 0 0x0600 (ROUND.RING_STATUS r) (d.reg (ROUND.RING_STATUS r)) (s.dev.reg (ROUND.RING_STATUS r)))) ∧
  (∀ (r : Fin 2), s.dev.domReady (16 + r.val) = true → (s.dev.ring r).closing = none →
      (ringThreads r).any (fun n => decide (s.dev.thrState n = 2)) = true →
      (ringThreads r).all (fun n => (decide (s.dev.thrState n = 0) || decide (s.dev.thrState n = 5) || s.dev.thrInternal n) && (s.dev.thr n).acts.isEmpty) = true →
      ((s.dev.ring r).gridPrev = false ∨ (s.dev.ring r).gridArmed = false ∨ s.dev.flag (ROUND.RING_CTRL_GRIDLOCK_EN r) = false) →
      Does (.gridlockEvaluation r) s fun d => d.flag (ROUND.RING_STATUS_GRIDLOCKED r) = true ∧
      d.flag (ROUND.RING_STATUS_GRIDLOCK r) = s.dev.flag (ROUND.RING_STATUS_GRIDLOCK r) ∧
      d.ring r = { s.dev.ring r with gridPrev := true } ∧ { s.dev with rings := d.rings }.keepsUnits d ∧
      s.dev.keepsRegs d [ROUND.RING_STATUS r] ∧ s.dev.noRecord d) ∧
  (∀ (r : Fin 2), s.dev.domReady (16 + r.val) = true → (s.dev.ring r).closing = none →
      (ringThreads r).any (fun n => decide (s.dev.thrState n = 1)) = true → Does (.gridlockEvaluation r) s fun d =>
      d.flag (ROUND.RING_STATUS_GRIDLOCKED r) = false ∧ d.ring r = { s.dev.ring r with gridPrev := false } ∧
      { s.dev with rings := d.rings }.keepsUnits d ∧ s.dev.keepsRegs d [ROUND.RING_STATUS r] ∧ s.dev.noRecord d) ∧
  (∀ (r : Fin 2), s.dev.powered (16 + r.val) 5000 = true → Does (.ringReady r) s fun d => (s.dev.domReady (16 + r.val) = false →
      d.domReady (16 + r.val) = true ∧ d.flag (ROUND.RING_STATUS_READY r) = true) ∧ s.dev.keepsUnits d ∧
      s.dev.keepsRegs d [SUPPLY.DOM_STATUS_0, ROUND.RING_STATUS r] ∧ s.dev.noRecord d) ∧
  (∀ (a : Agent) (n : Fin 64) (v : Word), s.dev.takes a.id (ROUND.THR_CMD n) v = true → wordBit v 0 = true → v.toNat % 32 = 1 →
      (s.dev.thrState n = 1 ∨ s.dev.thrState n = 2) → Does (.thrHalt a n v) s fun d => d.answer = .ok ∧ d.thrState n = 4 ∧
      d.thrWait n = 0 ∧ (∀ k : Fin 64, k ≠ n → d.thr k = s.dev.thr k) ∧ (d.thr n).sample = none ∧
      (d.thr n).acts = (s.dev.thr n).acts.filter (fun a => match a.kind with | .smp _ => false | _ => true) ∧
      (d.ring (n.val / 32)).openQ = (s.dev.ring (n.val / 32)).openQ.filter (· ≠ n.val) ∧
      s.dev.keepsRegs d [ROUND.THR_STATUS n, ROUND.RING_STATUS (n / 32), ROUND.RING_WAITERS (n / 32), ROUND.THR_ACTQ n, ROUND.THR_CMD n] ∧
      { s.dev with thrs := d.thrs, rings := d.rings }.keepsUnits d ∧
      s.dev.oneRecord d (wordRecord s.dev.nowNs .live 0 a.id (ROUND.THR_CMD n) v 0)) ∧
  (∀ (a : Agent) (n : Fin 64) (v : Word), s.dev.takes a.id (ROUND.THR_CMD n) v = true → wordBit v 0 = true → v.toNat % 32 = 1 →
      s.dev.thrState n = 3 → Does (.thrHalt a n v) s fun d => d.answer = .ok ∧ d.thr n = { (s.dev.thr n) with haltReq := true } ∧
      d.thrState n = 3 ∧ (∀ k : Fin 64, k ≠ n → d.thr k = s.dev.thr k) ∧
      s.dev.keepsRegs d [ROUND.THR_STATUS n, ROUND.RING_STATUS (n / 32), ROUND.RING_WAITERS (n / 32), ROUND.THR_ACTQ n, ROUND.THR_CMD n] ∧
      { s.dev with thrs := d.thrs, rings := d.rings }.keepsUnits d ∧
      s.dev.oneRecord d (wordRecord s.dev.nowNs .live 0 a.id (ROUND.THR_CMD n) v 0)) ∧
  (∀ (a : Agent) (n : Fin 64) (v : Word), s.dev.takes a.id (ROUND.THR_CMD n) v = true → wordBit v 1 = true → v.toNat % 32 = 2 →
      (s.dev.thrState n = 4 ∨ s.dev.thrState n = 5) → s.dev.flag (ROUND.THR_CFG_HALT_ACTIONS n) = false →
      Does (.thrResume a n v) s fun d => d.answer = .ok ∧ d.thrState n = 1 ∧ d.thrWait n = 0 ∧
      d.fld (ROUND.THR_STATUS_CAUSE n) = 0 ∧ (∀ k : Fin 64, k ≠ n → d.thr k = s.dev.thr k) ∧
      d.thr n = { (s.dev.thr n) with stepping := false, haltReq := false } ∧
      s.dev.keepsRegs d [ROUND.THR_STATUS n, ROUND.RING_STATUS (n / 32), ROUND.RING_WAITERS (n / 32), ROUND.THR_ACTQ n, ROUND.THR_CMD n] ∧
      { s.dev with thrs := d.thrs, rings := d.rings }.keepsUnits d ∧
      s.dev.oneRecord d (wordRecord s.dev.nowNs .live 0 a.id (ROUND.THR_CMD n) v 0)) ∧
  (∀ (a : Agent) (n : Fin 64) (v : Word), s.dev.takes a.id (ROUND.THR_CMD n) v = true → wordBit v 2 = true → v.toNat % 32 = 4 →
      (s.dev.thrState n = 4 ∨ s.dev.thrState n = 5) → s.dev.flag (ROUND.THR_CFG_HALT_ACTIONS n) = false →
      Does (.thrStep a n v) s fun d => d.answer = .ok ∧ d.thrState n = 1 ∧ d.thrWait n = 0 ∧
      d.fld (ROUND.THR_STATUS_CAUSE n) = 0 ∧ (∀ k : Fin 64, k ≠ n → d.thr k = s.dev.thr k) ∧
      d.thr n = { (s.dev.thr n) with stepping := true, haltReq := false } ∧
      s.dev.keepsRegs d [ROUND.THR_STATUS n, ROUND.RING_STATUS (n / 32), ROUND.RING_WAITERS (n / 32), ROUND.THR_ACTQ n, ROUND.THR_CMD n] ∧
      { s.dev with thrs := d.thrs, rings := d.rings }.keepsUnits d ∧
      s.dev.oneRecord d (wordRecord s.dev.nowNs .live 0 a.id (ROUND.THR_CMD n) v 0)) ∧
  (∀ (a : Agent) (n : Fin 64) (v : Word), s.dev.takes a.id (ROUND.THR_CMD n) v = true → wordBit v 3 = true → v.toNat % 32 = 8 →
      s.dev.thrState n = 3 → Does (.thrReset a n v) s fun d => d.answer = .ok ∧
      d.thr n = { (s.dev.thr n) with resetReq := true } ∧ d.thrState n = 3 ∧ (∀ k : Fin 64, k ≠ n → d.thr k = s.dev.thr k) ∧
      s.dev.keepsRegs d [ROUND.THR_STATUS n, ROUND.RING_STATUS (n / 32), ROUND.RING_WAITERS (n / 32), ROUND.THR_ACTQ n, ROUND.THR_CMD n] ∧
      { s.dev with thrs := d.thrs, rings := d.rings }.keepsUnits d ∧
      s.dev.oneRecord d (wordRecord s.dev.nowNs .live 0 a.id (ROUND.THR_CMD n) v 0)) ∧
  (∀ (a : Agent) (n : Fin 64) (v : Word), s.dev.takes a.id (ROUND.THR_CMD n) v = true → wordBit v 3 = true → v.toNat % 32 = 8 →
      s.dev.thrState n ≠ 3 → (s.dev.thr n).staging = none → (s.dev.thr n).reading = none → s.dev.groups = [] →
      Does (.thrReset a n v) s fun d => d.answer = .ok ∧ d.thrState n = 0 ∧ d.fld (ROUND.THR_CFG_MODE n) = 0 ∧
      d.thr n = { flags := (s.dev.thr n).flags } ∧ (∀ k : Fin 64, k ≠ n → d.thr k = s.dev.thr k) ∧
      (d.ring (n.val / 32)).openQ = (s.dev.ring (n.val / 32)).openQ.filter (· ≠ n.val) ∧
      s.dev.keepsRegs d [ROUND.THR_STATUS n, ROUND.RING_STATUS (n / 32), ROUND.RING_WAITERS (n / 32), ROUND.THR_ACTQ n, ROUND.THR_CMD n, ROUND.THR_CFG n] ∧
      { s.dev with thrs := d.thrs, rings := d.rings }.keepsUnits d) ∧
  (∀ (a : Agent) (n : Fin 64) (v : Word), s.dev.takes a.id (ROUND.THR_CMD n) v = true → wordBit v 4 = true → v.toNat % 32 = 16 →
      Does (.thrClear a n v) s fun d => d.answer = .ok ∧ d.num (ROUND.THR_RETIRED n) = 0 ∧
      d.flag (ROUND.THR_STATUS_ACT_REFUSED n) = false ∧ d.flag (ROUND.THR_STATUS_LATE n) = false ∧
      d.flag (ROUND.THR_STATUS_BEHIND n) = false ∧ d.thrState n = s.dev.thrState n ∧
      s.dev.keepsRegs d [ROUND.THR_RETIRED n, ROUND.THR_STATUS n, ROUND.THR_CMD n] ∧ s.dev.keepsUnits d ∧
      s.dev.oneRecord d (wordRecord s.dev.nowNs .live 0 a.id (ROUND.THR_CMD n) v 0))

/-- For every engine whose logic runs or waits at its instruction: the operations of PINS, DIR, STORE, RAISE, LOWER, COPY to CR, PINS and DIR and each cell of SEND and TAKE are queued with their times while the queue of 8 has room, and wait without it; BRA branches on its condition and counts K0 or K1; AWAIT completes at t_w and sets et to it, and waits before; FETCH and FETCH_NB move a TX word to SR, stall, or load 0 and set UNDERRUN; SETK, COPY and NOTE write what they name; an illegal instruction stops the engine with its flag, its fault source and a SYSTEM record. et advances by the ticks of the instruction, and the PC by one modulo 32. Nothing else changes. Where a clause rests on a reading or a choice of the model, it is the model's and not the spec's: log entries 101, 102, 103 and 106. -/
def Obligations.EngineInstructions : Prop :=
  ∀ s : State,
  (∀ (e : Fin 40) (v : Nat), s.dev.engRuns e = true → s.dev.engInstr e = .pins v → (s.dev.eng e).q.length < 8 →
      Does (.engPins e) s fun d =>
      s.dev.engGoesOn d e 1 (s.dev.fld (PENG.ENG_STATUS_PC e) + 1) { (s.dev.eng e) with q := (s.dev.eng e).q ++ [s.dev.queued (s.dev.eng e).et (.levels 0xFF v)] } []) ∧
  (∀ (e : Fin 40) (v : Nat), s.dev.engRuns e = true → s.dev.engInstr e = .pins v → (s.dev.eng e).q.length ≥ 8 →
      Does (.engPins e) s fun d => d.answer = .waits ∧ s.dev.keepsUnits d ∧ s.dev.keepsRegs d [] ∧ s.dev.noRecord d) ∧
  (∀ (e : Fin 40) (v : Nat), s.dev.engRuns e = true → s.dev.engInstr e = .dir v → (s.dev.eng e).q.length < 8 →
      Does (.engDir e) s fun d =>
      s.dev.engGoesOn d e 1 (s.dev.fld (PENG.ENG_STATUS_PC e) + 1) { (s.dev.eng e) with q := (s.dev.eng e).q ++ [s.dev.queued (s.dev.eng e).et (.dir v)] } []) ∧
  (∀ (e : Fin 40) (v : Nat), s.dev.engRuns e = true → s.dev.engInstr e = .dir v → (s.dev.eng e).q.length ≥ 8 →
      Does (.engDir e) s fun d => d.answer = .waits ∧ s.dev.keepsUnits d ∧ s.dev.keepsRegs d [] ∧ s.dev.noRecord d) ∧
  (∀ (e : Fin 40), s.dev.engRuns e = true → s.dev.engInstr e = .store → (s.dev.eng e).q.length < 8 →
      Does (.engStore e) s fun d =>
      s.dev.engGoesOn d e 1 (s.dev.fld (PENG.ENG_STATUS_PC e) + 1) { (s.dev.eng e) with q := (s.dev.eng e).q ++ [s.dev.queued (s.dev.eng e).et (.store)] } []) ∧
  (∀ (e : Fin 40), s.dev.engRuns e = true → s.dev.engInstr e = .store → (s.dev.eng e).q.length ≥ 8 →
      Does (.engStore e) s fun d => d.answer = .waits ∧ s.dev.keepsUnits d ∧ s.dev.keepsRegs d [] ∧ s.dev.noRecord d) ∧
  (∀ (e : Fin 40) (i : Nat), s.dev.engRuns e = true → s.dev.engInstr e = .raise i → (s.dev.eng e).q.length < 8 →
      Does (.engRaise e) s fun d =>
      s.dev.engGoesOn d e 1 (s.dev.fld (PENG.ENG_STATUS_PC e) + 1) { (s.dev.eng e) with q := (s.dev.eng e).q ++ [s.dev.queued (s.dev.eng e).et (.flag i true)] } []) ∧
  (∀ (e : Fin 40) (i : Nat), s.dev.engRuns e = true → s.dev.engInstr e = .raise i → (s.dev.eng e).q.length ≥ 8 →
      Does (.engRaise e) s fun d => d.answer = .waits ∧ s.dev.keepsUnits d ∧ s.dev.keepsRegs d [] ∧ s.dev.noRecord d) ∧
  (∀ (e : Fin 40) (i : Nat), s.dev.engRuns e = true → s.dev.engInstr e = .lower i → (s.dev.eng e).q.length < 8 →
      Does (.engLower e) s fun d =>
      s.dev.engGoesOn d e 1 (s.dev.fld (PENG.ENG_STATUS_PC e) + 1) { (s.dev.eng e) with q := (s.dev.eng e).q ++ [s.dev.queued (s.dev.eng e).et (.flag i false)] } []) ∧
  (∀ (e : Fin 40) (i : Nat), s.dev.engRuns e = true → s.dev.engInstr e = .lower i → (s.dev.eng e).q.length ≥ 8 →
      Does (.engLower e) s fun d => d.answer = .waits ∧ s.dev.keepsUnits d ∧ s.dev.keepsRegs d [] ∧ s.dev.noRecord d) ∧
  (∀ (e : Fin 40) (a : Nat), s.dev.engRuns e = true → s.dev.engInstr e = .bra .always a → Does (.engBra e) s fun d =>
      s.dev.engGoesOn d e 1 a (s.dev.eng e) []) ∧
  (∀ (e : Fin 40) (a : Nat), s.dev.engRuns e = true → s.dev.engInstr e = .bra .k0Loop a → Does (.engBra e) s fun d =>
      s.dev.engGoesOn d e 1 (if s.dev.fld (PENG.ENG_K_K0 e) = 1 then (s.dev.fld (PENG.ENG_STATUS_PC e) + 1) else a) (s.dev.eng e) [PENG.ENG_K e] ∧
      d.fld (PENG.ENG_K_K0 e) = (s.dev.fld (PENG.ENG_K_K0 e) + 0xFFFF) % 0x10000 ∧
      d.fld (PENG.ENG_K_K1 e) = s.dev.fld (PENG.ENG_K_K1 e)) ∧
  (∀ (e : Fin 40) (a : Nat), s.dev.engRuns e = true → s.dev.engInstr e = .bra .k1Loop a → Does (.engBra e) s fun d =>
      s.dev.engGoesOn d e 1 (if s.dev.fld (PENG.ENG_K_K1 e) = 1 then (s.dev.fld (PENG.ENG_STATUS_PC e) + 1) else a) (s.dev.eng e) [PENG.ENG_K e] ∧
      d.fld (PENG.ENG_K_K1 e) = (s.dev.fld (PENG.ENG_K_K1 e) + 0xFFFF) % 0x10000 ∧
      d.fld (PENG.ENG_K_K0 e) = s.dev.fld (PENG.ENG_K_K0 e)) ∧
  (∀ (e : Fin 40) (a : Nat), s.dev.engRuns e = true → s.dev.engInstr e = .bra .k0Zero a → Does (.engBra e) s fun d =>
      s.dev.engGoesOn d e 1 (if s.dev.fld (PENG.ENG_K_K0 e) = 0 then a else (s.dev.fld (PENG.ENG_STATUS_PC e) + 1)) (s.dev.eng e) []) ∧
  (∀ (e : Fin 40) (a : Nat), s.dev.engRuns e = true → s.dev.engInstr e = .bra .slotHi a →
      s.dev.due (etNs (s.dev.eng e).et) = true → Does (.engBra e) s fun d =>
      s.dev.engGoesOn d e 1 (if s.dev.slotInAt e (s.dev.fld (PENG.ENG_CTRL_TEST_SLOT e)) (etNs (s.dev.eng e).et) = true then a else (s.dev.fld (PENG.ENG_STATUS_PC e) + 1)) (s.dev.eng e) []) ∧
  (∀ (e : Fin 40) (a : Nat), s.dev.engRuns e = true → s.dev.engInstr e = .bra .slotHi a →
      s.dev.due (etNs (s.dev.eng e).et) = false → Does (.engBra e) s fun d => s.dev.engHolds d e 3) ∧
  (∀ (e : Fin 40) (a : Nat), s.dev.engRuns e = true → s.dev.engInstr e = .bra .slotLo a →
      s.dev.due (etNs (s.dev.eng e).et) = true → Does (.engBra e) s fun d =>
      s.dev.engGoesOn d e 1 (if s.dev.slotInAt e (s.dev.fld (PENG.ENG_CTRL_TEST_SLOT e)) (etNs (s.dev.eng e).et) = false then a else (s.dev.fld (PENG.ENG_STATUS_PC e) + 1)) (s.dev.eng e) []) ∧
  (∀ (e : Fin 40) (a : Nat), s.dev.engRuns e = true → s.dev.engInstr e = .bra .slotLo a →
      s.dev.due (etNs (s.dev.eng e).et) = false → Does (.engBra e) s fun d => s.dev.engHolds d e 3) ∧
  (∀ (e : Fin 40) (a : Nat), s.dev.engRuns e = true → s.dev.engInstr e = .bra .srEmpty a → Does (.engBra e) s fun d =>
      s.dev.engGoesOn d e 1 (if s.dev.fld (PENG.ENG_PSTATE_SR_LEFT e) = 0 then a else (s.dev.fld (PENG.ENG_STATUS_PC e) + 1)) (s.dev.eng e) []) ∧
  (∀ (e : Fin 40) (a : Nat), s.dev.engRuns e = true → s.dev.engInstr e = .bra .txReady a → Does (.engBra e) s fun d =>
      s.dev.engGoesOn d e 1 (if (s.dev.eng e).tx = [] then (s.dev.fld (PENG.ENG_STATUS_PC e) + 1) else a) (s.dev.eng e) []) ∧
  (∀ (e : Fin 40) (l : Bool) (c : Nat) (i : Nat), s.dev.engRuns e = true → s.dev.engInstr e = .await l c i →
      s.dev.due (etNs (s.dev.eng e).et) = true → c ≠ 1 → levelAt (etNs (s.dev.eng e).et) (s.dev.awaitHist e c i) = l →
      Does (.engAwait e) s fun d =>
      s.dev.engGoesOn d e 1 (s.dev.fld (PENG.ENG_STATUS_PC e) + 1) { (s.dev.eng e) with et := nsEt (etNs (s.dev.eng e).et) } []) ∧
  (∀ (e : Fin 40) (l : Bool) (i : Nat) (t : Time), s.dev.engRuns e = true → s.dev.engInstr e = .await l 1 i →
      s.dev.due (etNs (s.dev.eng e).et) = true → firstChange l (etNs (s.dev.eng e).et) (s.dev.awaitHist e 1 i) = some t →
      Does (.engAwait e) s fun d =>
      s.dev.engGoesOn d e 1 (s.dev.fld (PENG.ENG_STATUS_PC e) + 1) { (s.dev.eng e) with et := nsEt (floorNs t) } []) ∧
  (∀ (e : Fin 40) (l : Bool) (c : Nat) (i : Nat) (t : Time), s.dev.engRuns e = true → s.dev.engInstr e = .await l c i →
      s.dev.due (etNs (s.dev.eng e).et) = true → c ≠ 1 → levelAt (etNs (s.dev.eng e).et) (s.dev.awaitHist e c i) ≠ l →
      firstChange l (etNs (s.dev.eng e).et) (s.dev.awaitHist e c i) = some t → s.dev.due (ceilNs t) = true →
      levelAt (ceilNs t) (s.dev.awaitHist e c i) = l → Does (.engAwait e) s fun d =>
      s.dev.engGoesOn d e 1 (s.dev.fld (PENG.ENG_STATUS_PC e) + 1) { (s.dev.eng e) with et := nsEt (ceilNs t) } []) ∧
  (∀ (e : Fin 40) (l : Bool) (c : Nat) (i : Nat), s.dev.engRuns e = true → s.dev.engInstr e = .await l c i →
      s.dev.due (etNs (s.dev.eng e).et) = false → Does (.engAwait e) s fun d => s.dev.engHolds d e 3) ∧
  (∀ (e : Fin 40) (l : Bool) (c : Nat) (i : Nat), s.dev.engRuns e = true → s.dev.engInstr e = .await l c i →
      firstChange l (etNs (s.dev.eng e).et) (s.dev.awaitHist e c i) = none →
      (c = 1 ∨ levelAt (etNs (s.dev.eng e).et) (s.dev.awaitHist e c i) ≠ l) → Does (.engAwait e) s fun d => s.dev.engHolds d e 3) ∧
  (∀ (e : Fin 40) (l : Bool) (c : Nat) (i : Nat), s.dev.engRuns e = true → s.dev.engInstr e = .await l c i →
      s.dev.engState e = 3 → s.dev.due (etNs (s.dev.eng e).et) = true → c ≠ 1 →
      levelAt (etNs (s.dev.eng e).et) (s.dev.awaitHist e c i) = l → Does (.awaitSatisfied e) s fun d =>
      s.dev.engGoesOn d e 1 (s.dev.fld (PENG.ENG_STATUS_PC e) + 1) { (s.dev.eng e) with et := nsEt (etNs (s.dev.eng e).et) } []) ∧
  (∀ (e : Fin 40) (l : Bool) (i : Nat) (t : Time), s.dev.engRuns e = true → s.dev.engInstr e = .await l 1 i →
      s.dev.engState e = 3 → s.dev.due (etNs (s.dev.eng e).et) = true →
      firstChange l (etNs (s.dev.eng e).et) (s.dev.awaitHist e 1 i) = some t → Does (.awaitSatisfied e) s fun d =>
      s.dev.engGoesOn d e 1 (s.dev.fld (PENG.ENG_STATUS_PC e) + 1) { (s.dev.eng e) with et := nsEt (floorNs t) } []) ∧
  (∀ (e : Fin 40) (l : Bool) (c : Nat) (i : Nat) (t : Time), s.dev.engRuns e = true → s.dev.engInstr e = .await l c i →
      s.dev.engState e = 3 → s.dev.due (etNs (s.dev.eng e).et) = true → c ≠ 1 →
      levelAt (etNs (s.dev.eng e).et) (s.dev.awaitHist e c i) ≠ l →
      firstChange l (etNs (s.dev.eng e).et) (s.dev.awaitHist e c i) = some t → s.dev.due (ceilNs t) = true →
      levelAt (ceilNs t) (s.dev.awaitHist e c i) = l → Does (.awaitSatisfied e) s fun d =>
      s.dev.engGoesOn d e 1 (s.dev.fld (PENG.ENG_STATUS_PC e) + 1) { (s.dev.eng e) with et := nsEt (ceilNs t) } []) ∧
  (∀ (e : Fin 40) (l : Bool) (c : Nat) (i : Nat), s.dev.engRuns e = true → s.dev.engInstr e = .await l c i →
      s.dev.engState e = 3 → s.dev.due (etNs (s.dev.eng e).et) = false → Does (.awaitSatisfied e) s fun d =>
      d.answer = .ignored ∧ s.dev.keepsUnits d ∧ s.dev.keepsRegs d [] ∧ s.dev.noRecord d) ∧
  (∀ (e : Fin 40) (l : Bool) (c : Nat) (i : Nat), s.dev.engRuns e = true → s.dev.engInstr e = .await l c i →
      s.dev.engState e = 3 → firstChange l (etNs (s.dev.eng e).et) (s.dev.awaitHist e c i) = none →
      (c = 1 ∨ levelAt (etNs (s.dev.eng e).et) (s.dev.awaitHist e c i) ≠ l) → Does (.awaitSatisfied e) s fun d =>
      d.answer = .ignored ∧ s.dev.keepsUnits d ∧ s.dev.keepsRegs d [] ∧ s.dev.noRecord d) ∧
  (∀ (e : Fin 40) (k : Nat) (n : Nat), s.dev.engRuns e = true → s.dev.engInstr e = .send k n →
      (s.dev.eng e).q.length + (n - (s.dev.eng e).cells) ≤ 8 → Does (.engSend e) s fun d =>
      s.dev.engGoesOn d e n (s.dev.fld (PENG.ENG_STATUS_PC e) + 1) { (s.dev.eng e) with q := (s.dev.eng e).q ++ s.dev.sendOps e (2 ^ s.dev.fld (PENG.ENG_CTRL_WIDTH e)) k (n - (s.dev.eng e).cells) (s.dev.eng e).cells } [PENG.ENG_SR e, PENG.ENG_PSTATE e] ∧
      d.reg (PENG.ENG_SR e) = s.dev.srAfter e ((n - (s.dev.eng e).cells) * (2 ^ s.dev.fld (PENG.ENG_CTRL_WIDTH e))) ∧
      d.fld (PENG.ENG_PSTATE_SR_LEFT e) = s.dev.fld (PENG.ENG_PSTATE_SR_LEFT e) - (n - (s.dev.eng e).cells) * (2 ^ s.dev.fld (PENG.ENG_CTRL_WIDTH e)) ∧
      d.fld (PENG.ENG_PSTATE_LEVELS e) = s.dev.fld (PENG.ENG_PSTATE_LEVELS e) ∧
      d.fld (PENG.ENG_PSTATE_DIR e) = s.dev.fld (PENG.ENG_PSTATE_DIR e)) ∧
  (∀ (e : Fin 40) (k : Nat) (n : Nat), s.dev.engRuns e = true → s.dev.engInstr e = .send k n →
      (s.dev.eng e).q.length + (n - (s.dev.eng e).cells) ≤ 8 → Does (.engSend e) s fun d =>
      s.dev.engGoesOn d e n (s.dev.fld (PENG.ENG_STATUS_PC e) + 1) { (s.dev.eng e) with q := (s.dev.eng e).q ++ s.dev.sendOps e (2 ^ s.dev.fld (PENG.ENG_CTRL_WIDTH e)) k (n - (s.dev.eng e).cells) (s.dev.eng e).cells } [PENG.ENG_SR e, PENG.ENG_PSTATE e] ∧
      d.reg (PENG.ENG_SR e) = s.dev.srAfter e ((n - (s.dev.eng e).cells) * (2 ^ s.dev.fld (PENG.ENG_CTRL_WIDTH e))) ∧
      d.fld (PENG.ENG_PSTATE_SR_LEFT e) = s.dev.fld (PENG.ENG_PSTATE_SR_LEFT e) - (n - (s.dev.eng e).cells) * (2 ^ s.dev.fld (PENG.ENG_CTRL_WIDTH e)) ∧
      d.fld (PENG.ENG_PSTATE_LEVELS e) = s.dev.fld (PENG.ENG_PSTATE_LEVELS e) ∧
      d.fld (PENG.ENG_PSTATE_DIR e) = s.dev.fld (PENG.ENG_PSTATE_DIR e)) ∧
  (∀ (e : Fin 40) (k : Nat) (n : Nat), s.dev.engRuns e = true → s.dev.engInstr e = .send k n → (s.dev.eng e).q.length ≤ 8 →
      (s.dev.eng e).cells + (8 - (s.dev.eng e).q.length) < n → Does (.engSend e) s fun d => d.answer = .waits ∧
      d.eng e = { (s.dev.eng e) with q := (s.dev.eng e).q ++ s.dev.sendOps e (2 ^ s.dev.fld (PENG.ENG_CTRL_WIDTH e)) k (8 - (s.dev.eng e).q.length) (s.dev.eng e).cells, cells := (s.dev.eng e).cells + (8 - (s.dev.eng e).q.length) } ∧
      d.engState e = s.dev.engState e ∧ s.dev.engAlone d e [PENG.ENG_SR e, PENG.ENG_PSTATE e] ∧ s.dev.noRecord d ∧
      d.reg (PENG.ENG_SR e) = s.dev.srAfter e ((8 - (s.dev.eng e).q.length) * (2 ^ s.dev.fld (PENG.ENG_CTRL_WIDTH e)))) ∧
  (∀ (e : Fin 40) (k : Nat) (n : Nat), s.dev.engRuns e = true → s.dev.engInstr e = .take k n →
      (s.dev.eng e).q.length + (n - (s.dev.eng e).cells) ≤ 8 → Does (.engTake e) s fun d =>
      s.dev.engGoesOn d e n (s.dev.fld (PENG.ENG_STATUS_PC e) + 1) { (s.dev.eng e) with q := (s.dev.eng e).q ++ ((List.range (n - (s.dev.eng e).cells)).map fun i => s.dev.queued ((s.dev.eng e).et + s.dev.engTime e ((s.dev.eng e).cells + i)) (.take k)) } []) ∧
  (∀ (e : Fin 40) (k : Nat) (n : Nat), s.dev.engRuns e = true → s.dev.engInstr e = .take k n → (s.dev.eng e).q.length ≤ 8 →
      (s.dev.eng e).cells + (8 - (s.dev.eng e).q.length) < n → Does (.engTake e) s fun d => d.answer = .waits ∧
      d.eng e = { (s.dev.eng e) with q := (s.dev.eng e).q ++ ((List.range (8 - (s.dev.eng e).q.length)).map fun i => s.dev.queued ((s.dev.eng e).et + s.dev.engTime e ((s.dev.eng e).cells + i)) (.take k)), cells := (s.dev.eng e).cells + (8 - (s.dev.eng e).q.length) } ∧
      d.engState e = s.dev.engState e ∧ s.dev.engAlone d e [] ∧ s.dev.noRecord d) ∧
  (∀ (e : Fin 40) (w : Word) (t : List Word), s.dev.engRuns e = true → s.dev.engInstr e = .fetch → (s.dev.eng e).tx = w :: t →
      Does (.engFetch e) s fun d =>
      s.dev.engGoesOn d e 1 (s.dev.fld (PENG.ENG_STATUS_PC e) + 1) { (s.dev.eng e) with tx := t } [PENG.ENG_SR e, PENG.ENG_PSTATE e] ∧
      d.reg (PENG.ENG_SR e) = w ∧ d.fld (PENG.ENG_PSTATE_SR_LEFT e) = 32) ∧
  (∀ (e : Fin 40), s.dev.engRuns e = true → s.dev.engInstr e = .fetch → (s.dev.eng e).tx = [] → Does (.engFetch e) s fun d =>
      s.dev.engHolds d e 4) ∧
  (∀ (e : Fin 40) (w : Word) (t : List Word), s.dev.engRuns e = true → s.dev.engInstr e = .fetchNb → (s.dev.eng e).tx = w :: t →
      Does (.engFetchNb e) s fun d =>
      s.dev.engGoesOn d e 1 (s.dev.fld (PENG.ENG_STATUS_PC e) + 1) { (s.dev.eng e) with tx := t } [PENG.ENG_SR e, PENG.ENG_PSTATE e] ∧
      d.reg (PENG.ENG_SR e) = w ∧ d.fld (PENG.ENG_PSTATE_SR_LEFT e) = 32) ∧
  (∀ (e : Fin 40), s.dev.engRuns e = true → s.dev.engInstr e = .fetchNb → (s.dev.eng e).tx = [] → Does (.engFetchNb e) s fun d =>
      s.dev.engGoesOn d e 1 (s.dev.fld (PENG.ENG_STATUS_PC e) + 1) (s.dev.eng e) [PENG.ENG_SR e, PENG.ENG_PSTATE e, PENG.ENG_FLAGS e] ∧
      s.dev.engFlagged d e PENG.ENG_FLAGS_UNDERRUN 0 ∧ d.reg (PENG.ENG_SR e) = 0 ∧ d.fld (PENG.ENG_PSTATE_SR_LEFT e) = 32) ∧
  (∀ (e : Fin 40) (w : Word) (t : List Word), s.dev.engState e = 4 → s.dev.flag (PENG.ENG_STATUS_STOPPING e) = false →
      (s.dev.eng e).tx = w :: t → Does (.fetchStallEnd e) s fun d =>
      s.dev.engGoesOn d e 1 (s.dev.fld (PENG.ENG_STATUS_PC e) + 1) { (s.dev.eng e) with tx := t, et := maxEt (s.dev.eng e).et (nsEt (floorNs s.dev.now + 12 * 64)) } [PENG.ENG_SR e, PENG.ENG_PSTATE e] ∧
      d.reg (PENG.ENG_SR e) = w ∧ d.fld (PENG.ENG_PSTATE_SR_LEFT e) = 32) ∧
  (∀ (e : Fin 40), (s.dev.eng e).tx = [] → Does (.fetchStallEnd e) s fun d => s.dev.keepsUnits d ∧ s.dev.keepsRegs d [] ∧
      s.dev.noRecord d) ∧
  (∀ (e : Fin 40) (v : Nat), s.dev.engRuns e = true → s.dev.engInstr e = .setk false v → Does (.engSetk e) s fun d =>
      s.dev.engGoesOn d e 1 (s.dev.fld (PENG.ENG_STATUS_PC e) + 1) (s.dev.eng e) [PENG.ENG_K e] ∧ d.fld (PENG.ENG_K_K0 e) = v ∧
      d.fld (PENG.ENG_K_K1 e) = s.dev.fld (PENG.ENG_K_K1 e)) ∧
  (∀ (e : Fin 40) (v : Nat), s.dev.engRuns e = true → s.dev.engInstr e = .setk true v → Does (.engSetk e) s fun d =>
      s.dev.engGoesOn d e 1 (s.dev.fld (PENG.ENG_STATUS_PC e) + 1) (s.dev.eng e) [PENG.ENG_K e] ∧ d.fld (PENG.ENG_K_K1 e) = v ∧
      d.fld (PENG.ENG_K_K0 e) = s.dev.fld (PENG.ENG_K_K0 e)) ∧
  (∀ (e : Fin 40) (c : EngSrc) (m : Nat), s.dev.engRuns e = true → s.dev.engInstr e = .copy .sr c m →
      s.dev.copyWaits e c = false → Does (.engCopy e) s fun d =>
      s.dev.engGoesOn d e 1 (s.dev.fld (PENG.ENG_STATUS_PC e) + 1) (s.dev.eng e) [PENG.ENG_SR e, PENG.ENG_PSTATE e] ∧
      d.reg (PENG.ENG_SR e) = (copyMod m (s.dev.engSource e c)) ∧ d.fld (PENG.ENG_PSTATE_SR_LEFT e) = 32) ∧
  (∀ (e : Fin 40) (c : EngSrc) (m : Nat), s.dev.engRuns e = true → s.dev.engInstr e = .copy .k0 c m →
      s.dev.copyWaits e c = false → Does (.engCopy e) s fun d =>
      s.dev.engGoesOn d e 1 (s.dev.fld (PENG.ENG_STATUS_PC e) + 1) (s.dev.eng e) [PENG.ENG_K e] ∧
      d.fld (PENG.ENG_K_K0 e) = (copyMod m (s.dev.engSource e c)).toNat % 0x10000 ∧
      d.fld (PENG.ENG_K_K1 e) = s.dev.fld (PENG.ENG_K_K1 e)) ∧
  (∀ (e : Fin 40) (c : EngSrc) (m : Nat), s.dev.engRuns e = true → s.dev.engInstr e = .copy .k1 c m →
      s.dev.copyWaits e c = false → Does (.engCopy e) s fun d =>
      s.dev.engGoesOn d e 1 (s.dev.fld (PENG.ENG_STATUS_PC e) + 1) (s.dev.eng e) [PENG.ENG_K e] ∧
      d.fld (PENG.ENG_K_K1 e) = (copyMod m (s.dev.engSource e c)).toNat % 0x10000 ∧
      d.fld (PENG.ENG_K_K0 e) = s.dev.fld (PENG.ENG_K_K0 e)) ∧
  (∀ (e : Fin 40) (c : EngSrc) (m : Nat), s.dev.engRuns e = true → s.dev.engInstr e = .copy .cr c m →
      s.dev.copyWaits e c = false → (s.dev.eng e).q.length < 8 → Does (.engCopy e) s fun d =>
      s.dev.engGoesOn d e 1 (s.dev.fld (PENG.ENG_STATUS_PC e) + 1) { (s.dev.eng e) with q := (s.dev.eng e).q ++ [s.dev.queued (s.dev.eng e).et (.toCr (copyMod m (s.dev.engSource e c)))] } []) ∧
  (∀ (e : Fin 40) (c : EngSrc) (m : Nat), s.dev.engRuns e = true → s.dev.engInstr e = .copy .pins c m →
      s.dev.copyWaits e c = false → (s.dev.eng e).q.length < 8 → Does (.engCopy e) s fun d =>
      s.dev.engGoesOn d e 1 (s.dev.fld (PENG.ENG_STATUS_PC e) + 1) { (s.dev.eng e) with q := (s.dev.eng e).q ++ [s.dev.queued (s.dev.eng e).et (.levels 0xFF ((copyMod m (s.dev.engSource e c)).toNat % 256))] } []) ∧
  (∀ (e : Fin 40) (c : EngSrc) (m : Nat), s.dev.engRuns e = true → s.dev.engInstr e = .copy .dir c m →
      s.dev.copyWaits e c = false → (s.dev.eng e).q.length < 8 → Does (.engCopy e) s fun d =>
      s.dev.engGoesOn d e 1 (s.dev.fld (PENG.ENG_STATUS_PC e) + 1) { (s.dev.eng e) with q := (s.dev.eng e).q ++ [s.dev.queued (s.dev.eng e).et (.dir ((copyMod m (s.dev.engSource e c)).toNat % 256))] } []) ∧
  (∀ (e : Fin 40) (o : EngDst) (c : EngSrc) (m : Nat), s.dev.engRuns e = true → s.dev.engInstr e = .copy o c m →
      s.dev.copyWaits e c = false → (o = .cr ∨ o = .pins ∨ o = .dir) → (s.dev.eng e).q.length ≥ 8 → Does (.engCopy e) s fun d =>
      d.answer = .waits ∧ s.dev.keepsUnits d ∧ s.dev.keepsRegs d [] ∧ s.dev.noRecord d) ∧
  (∀ (e : Fin 40) (o : EngDst) (m : Nat), s.dev.engRuns e = true → s.dev.engInstr e = .copy o .slots m →
      s.dev.due (etNs (s.dev.eng e).et) = false → Does (.engCopy e) s fun d => s.dev.engHolds d e 3) ∧
  (∀ (e : Fin 40) (o : EngDst) (m : Nat), s.dev.engRuns e = true → s.dev.engInstr e = .copy o .cr m → (s.dev.eng e).q ≠ [] →
      Does (.engCopy e) s fun d => s.dev.engHolds d e 3) ∧
  (∀ (e : Fin 40), s.dev.engRuns e = true → s.dev.engInstr e = .note → Does (.engNote e) s fun d =>
      s.dev.engGoesOn d e 1 (s.dev.fld (PENG.ENG_STATUS_PC e) + 1) (s.dev.eng e) [PENG.ENG_FLAGS e] ∧
      s.dev.engFlagged d e PENG.ENG_FLAGS_SIGNAL 3) ∧
  (∀ (e : Fin 40), s.dev.engRuns e = true → s.dev.engInstr e = .illegal → (s.dev.eng e).q = [] → (s.dev.eng e).cells = 0 →
      Does (.engineIllegal e) s fun d => d.fld (PENG.ENG_STATUS_CAUSE e) = 2 ∧
      d.fld (PENG.ENG_STATUS_PC e) = s.dev.fld (PENG.ENG_STATUS_PC e) ∧ s.dev.engFlagged d e PENG.ENG_FLAGS_ILLEGAL 4 ∧
      d.faults = s.dev.faults ++ [{ src := 0x14, unit := e, stamp := s.dev.nowNs }] ∧
      { s.dev with faults := d.faults }.keepsUnits d ∧ s.dev.keepsRegs d [PENG.ENG_STATUS e, PENG.ENG_FLAGS e] ∧
      s.dev.oneRecord d (wordRecord s.dev.nowNs .system 0 0x0600 (PENG.ENG_STATUS e) (d.reg (PENG.ENG_STATUS e)) (s.dev.reg (PENG.ENG_STATUS e))) ∧
      d.engState e = 0 ∧ d.flag (PENG.ENG_STATUS_STOPPING e) = false) ∧
  (∀ (e : Fin 40), s.dev.engRuns e = true → s.dev.engInstr e = .illegal → (s.dev.eng e).q ≠ [] →
      Does (.engineIllegal e) s fun d => d.fld (PENG.ENG_STATUS_CAUSE e) = 2 ∧
      d.fld (PENG.ENG_STATUS_PC e) = s.dev.fld (PENG.ENG_STATUS_PC e) ∧ s.dev.engFlagged d e PENG.ENG_FLAGS_ILLEGAL 4 ∧
      d.faults = s.dev.faults ++ [{ src := 0x14, unit := e, stamp := s.dev.nowNs }] ∧
      { s.dev with faults := d.faults }.keepsUnits d ∧ s.dev.keepsRegs d [PENG.ENG_STATUS e, PENG.ENG_FLAGS e] ∧
      s.dev.oneRecord d (wordRecord s.dev.nowNs .system 0 0x0600 (PENG.ENG_STATUS e) (d.reg (PENG.ENG_STATUS e)) (s.dev.reg (PENG.ENG_STATUS e))) ∧
      d.flag (PENG.ENG_STATUS_STOPPING e) = true)

/-- For every state and engine: the oldest queued operation is performed once its time has come, on the held levels, the directions, CR, RX or a bank flag; an output effect queued after its time is late, with LATE set and the count of late acts; STOP, STOP_DISCARD, RESUME, RESTART and FLUSH that are taken act as their table says and make a LIVE record; a start whose time has come makes the engine RUNNING, cleared by RESTART, and is late where it was commanded after its time; a group start gives every named engine one time; a program word makes a PROGRAM record with its CRC-32, an owner an OWNER record; a powered bank becomes ready. That an engine told to stop reads RUNNING while its queue empties is the model's reading (log entry 52). Where a clause rests on a reading or a choice of the model, it is the model's and not the spec's: log entries 52, 101, 102, 104, 105, 106 and 145. -/
def Obligations.EngineControl : Prop :=
  ∀ s : State,
  (∀ (e : Fin 40) (o : StageOp) (r : List StageOp) (m : Nat) (v : Nat), (s.dev.eng e).q = o :: r → o.op = .levels m v →
      s.dev.due o.t = true → s.dev.flag (PENG.ENG_STATUS_STOPPING e) = false → lateness o.t o.queued = 0 → m < 256 → v < 256 →
      Does (.pinStageOperation e) s fun d => d.eng e = { (s.dev.eng e) with q := r } ∧ d.engState e = s.dev.engState e ∧
      d.fld (PENG.ENG_PSTATE_LEVELS e) = (s.dev.fld (PENG.ENG_PSTATE_LEVELS e) &&& (m ^^^ 0xFF)) ||| (v &&& m) ∧
      d.fld (PENG.ENG_PSTATE_DIR e) = s.dev.fld (PENG.ENG_PSTATE_DIR e) ∧
      d.fld (PENG.ENG_PSTATE_SR_LEFT e) = s.dev.fld (PENG.ENG_PSTATE_SR_LEFT e) ∧ s.dev.engAlone d e [PENG.ENG_PSTATE e] ∧
      s.dev.noRecord d ∧ d.answer = .none) ∧
  (∀ (e : Fin 40) (o : StageOp) (r : List StageOp) (v : Nat), (s.dev.eng e).q = o :: r → o.op = .dir v → s.dev.due o.t = true →
      s.dev.flag (PENG.ENG_STATUS_STOPPING e) = false → lateness o.t o.queued = 0 → v < 256 →
      Does (.pinStageOperation e) s fun d => d.eng e = { (s.dev.eng e) with q := r } ∧ d.engState e = s.dev.engState e ∧
      d.fld (PENG.ENG_PSTATE_DIR e) = v ∧ d.fld (PENG.ENG_PSTATE_LEVELS e) = s.dev.fld (PENG.ENG_PSTATE_LEVELS e) ∧
      d.fld (PENG.ENG_PSTATE_SR_LEFT e) = s.dev.fld (PENG.ENG_PSTATE_SR_LEFT e) ∧ s.dev.engAlone d e [PENG.ENG_PSTATE e] ∧
      s.dev.noRecord d ∧ d.answer = .none) ∧
  (∀ (e : Fin 40) (o : StageOp) (r : List StageOp) (m : Nat) (v : Nat), (s.dev.eng e).q = o :: r → o.op = .levels m v →
      s.dev.due o.t = true → s.dev.flag (PENG.ENG_STATUS_STOPPING e) = false → lateness o.t o.queued > 0 → m < 256 → v < 256 →
      Does (.pinStageOperation e) s fun d => d.eng e = { (s.dev.eng e) with q := r } ∧ d.engState e = s.dev.engState e ∧
      d.fld (PENG.ENG_PSTATE_LEVELS e) = (s.dev.fld (PENG.ENG_PSTATE_LEVELS e) &&& (m ^^^ 0xFF)) ||| (v &&& m) ∧
      d.fld (PENG.ENG_PSTATE_DIR e) = s.dev.fld (PENG.ENG_PSTATE_DIR e) ∧
      d.fld (PENG.ENG_PSTATE_SR_LEFT e) = s.dev.fld (PENG.ENG_PSTATE_SR_LEFT e) ∧
      d.num MILEPOST.LATE_COUNT = satInc 0xFFFFFFFF (s.dev.num MILEPOST.LATE_COUNT) ∧ d.flag MILEPOST.MP_FLAGS_LATE = true ∧
      d.reg64 MILEPOST.LATE_LAST = o.t ∧ s.dev.engFlagged d e PENG.ENG_FLAGS_LATE 2 ∧
      s.dev.engAlone d e ([PENG.ENG_PSTATE e] ++ [MILEPOST.LATE_COUNT, MILEPOST.LATE_LAST, MILEPOST.LATE_LAST + 4, MILEPOST.LATE_SRC, MILEPOST.MP_FLAGS_LATE.addr, PENG.ENG_FLAGS e]) ∧
      s.dev.noRecord d ∧ d.answer = .none) ∧
  (∀ (e : Fin 40) (o : StageOp) (r : List StageOp) (v : Nat), (s.dev.eng e).q = o :: r → o.op = .dir v → s.dev.due o.t = true →
      s.dev.flag (PENG.ENG_STATUS_STOPPING e) = false → lateness o.t o.queued > 0 → v < 256 →
      Does (.pinStageOperation e) s fun d => d.eng e = { (s.dev.eng e) with q := r } ∧ d.engState e = s.dev.engState e ∧
      d.fld (PENG.ENG_PSTATE_DIR e) = v ∧ d.fld (PENG.ENG_PSTATE_LEVELS e) = s.dev.fld (PENG.ENG_PSTATE_LEVELS e) ∧
      d.fld (PENG.ENG_PSTATE_SR_LEFT e) = s.dev.fld (PENG.ENG_PSTATE_SR_LEFT e) ∧
      d.num MILEPOST.LATE_COUNT = satInc 0xFFFFFFFF (s.dev.num MILEPOST.LATE_COUNT) ∧ d.flag MILEPOST.MP_FLAGS_LATE = true ∧
      d.reg64 MILEPOST.LATE_LAST = o.t ∧ s.dev.engFlagged d e PENG.ENG_FLAGS_LATE 2 ∧
      s.dev.engAlone d e ([PENG.ENG_PSTATE e] ++ [MILEPOST.LATE_COUNT, MILEPOST.LATE_LAST, MILEPOST.LATE_LAST + 4, MILEPOST.LATE_SRC, MILEPOST.MP_FLAGS_LATE.addr, PENG.ENG_FLAGS e]) ∧
      s.dev.noRecord d ∧ d.answer = .none) ∧
  (∀ (e : Fin 40) (o : StageOp) (r : List StageOp) (v : Nat), (s.dev.eng e).q = o :: r → o.op = .dir v → s.dev.due o.t = true →
      s.dev.flag (PENG.ENG_STATUS_STOPPING e) = true → lateness o.t o.queued = 0 → r = [] → (s.dev.eng e).cells = 0 →
      Does (.pinStageOperation e) s fun d => d.eng e = { (s.dev.eng e) with q := r } ∧ d.engState e = 0 ∧
      d.flag (PENG.ENG_STATUS_STOPPING e) = false ∧ d.fld (PENG.ENG_STATUS_CAUSE e) = s.dev.fld (PENG.ENG_STATUS_CAUSE e) ∧
      s.dev.engAlone d e [PENG.ENG_PSTATE e] ∧ s.dev.noRecord d ∧ d.answer = .none) ∧
  (∀ (e : Fin 40) (o : StageOp) (r : List StageOp) (k : Nat), (s.dev.eng e).q = o :: r → o.op = .take k → s.dev.due o.t = true →
      s.dev.flag (PENG.ENG_STATUS_STOPPING e) = false → s.dev.flag (PENG.ENG_CTRL_ORDER_TAKE e) = false →
      lateness o.t o.queued ≤ 32 * 64 → Does (.pinStageOperation e) s fun d => d.eng e = { (s.dev.eng e) with q := r } ∧
      d.engState e = s.dev.engState e ∧
      d.reg (PENG.ENG_CR e) = s.dev.reg (PENG.ENG_CR e) <<< (2 ^ s.dev.fld (PENG.ENG_CTRL_WIDTH e)) ||| BitVec.ofNat 32 (((List.range (2 ^ s.dev.fld (PENG.ENG_CTRL_WIDTH e))).map fun i => if s.dev.slotInAt e (k + i) o.t then 2 ^ ((2 ^ s.dev.fld (PENG.ENG_CTRL_WIDTH e)) - 1 - i) else 0).sum) ∧
      s.dev.engAlone d e [PENG.ENG_CR e] ∧ s.dev.noRecord d ∧ d.answer = .none) ∧
  (∀ (e : Fin 40) (o : StageOp) (r : List StageOp) (k : Nat), (s.dev.eng e).q = o :: r → o.op = .take k → s.dev.due o.t = true →
      s.dev.flag (PENG.ENG_STATUS_STOPPING e) = false → s.dev.flag (PENG.ENG_CTRL_ORDER_TAKE e) = false →
      lateness o.t o.queued > 32 * 64 → Does (.pinStageOperation e) s fun d => d.eng e = { (s.dev.eng e) with q := r } ∧
      d.engState e = s.dev.engState e ∧
      d.reg (PENG.ENG_CR e) = s.dev.reg (PENG.ENG_CR e) <<< (2 ^ s.dev.fld (PENG.ENG_CTRL_WIDTH e)) ||| BitVec.ofNat 32 (((List.range (2 ^ s.dev.fld (PENG.ENG_CTRL_WIDTH e))).map fun i => if s.dev.slotIn e (k + i) then 2 ^ ((2 ^ s.dev.fld (PENG.ENG_CTRL_WIDTH e)) - 1 - i) else 0).sum) ∧
      s.dev.engAlone d e [PENG.ENG_CR e] ∧ s.dev.noRecord d ∧ d.answer = .none) ∧
  (∀ (e : Fin 40) (o : StageOp) (r : List StageOp) (k : Nat), (s.dev.eng e).q = o :: r → o.op = .take k → s.dev.due o.t = true →
      s.dev.flag (PENG.ENG_STATUS_STOPPING e) = false → s.dev.flag (PENG.ENG_CTRL_ORDER_TAKE e) = true →
      lateness o.t o.queued ≤ 32 * 64 → Does (.pinStageOperation e) s fun d => d.eng e = { (s.dev.eng e) with q := r } ∧
      d.engState e = s.dev.engState e ∧
      d.reg (PENG.ENG_CR e) = s.dev.reg (PENG.ENG_CR e) >>> (2 ^ s.dev.fld (PENG.ENG_CTRL_WIDTH e)) ||| BitVec.ofNat 32 (((List.range (2 ^ s.dev.fld (PENG.ENG_CTRL_WIDTH e))).map fun i => if s.dev.slotInAt e (k + i) o.t then 2 ^ i else 0).sum) <<< (32 - (2 ^ s.dev.fld (PENG.ENG_CTRL_WIDTH e))) ∧
      s.dev.engAlone d e [PENG.ENG_CR e] ∧ s.dev.noRecord d ∧ d.answer = .none) ∧
  (∀ (e : Fin 40) (o : StageOp) (r : List StageOp) (k : Nat), (s.dev.eng e).q = o :: r → o.op = .take k → s.dev.due o.t = true →
      s.dev.flag (PENG.ENG_STATUS_STOPPING e) = false → s.dev.flag (PENG.ENG_CTRL_ORDER_TAKE e) = true →
      lateness o.t o.queued > 32 * 64 → Does (.pinStageOperation e) s fun d => d.eng e = { (s.dev.eng e) with q := r } ∧
      d.engState e = s.dev.engState e ∧
      d.reg (PENG.ENG_CR e) = s.dev.reg (PENG.ENG_CR e) >>> (2 ^ s.dev.fld (PENG.ENG_CTRL_WIDTH e)) ||| BitVec.ofNat 32 (((List.range (2 ^ s.dev.fld (PENG.ENG_CTRL_WIDTH e))).map fun i => if s.dev.slotIn e (k + i) then 2 ^ i else 0).sum) <<< (32 - (2 ^ s.dev.fld (PENG.ENG_CTRL_WIDTH e))) ∧
      s.dev.engAlone d e [PENG.ENG_CR e] ∧ s.dev.noRecord d ∧ d.answer = .none) ∧
  (∀ (e : Fin 40) (o : StageOp) (r : List StageOp) (v : Word), (s.dev.eng e).q = o :: r → o.op = .toCr v → s.dev.due o.t = true →
      s.dev.flag (PENG.ENG_STATUS_STOPPING e) = false → Does (.pinStageOperation e) s fun d =>
      d.eng e = { (s.dev.eng e) with q := r } ∧ d.engState e = s.dev.engState e ∧ d.reg (PENG.ENG_CR e) = v ∧
      s.dev.engAlone d e [PENG.ENG_CR e] ∧ s.dev.noRecord d ∧ d.answer = .none) ∧
  (∀ (e : Fin 40) (o : StageOp) (r : List StageOp), (s.dev.eng e).q = o :: r → o.op = .store → s.dev.due o.t = true →
      s.dev.flag (PENG.ENG_STATUS_STOPPING e) = false → (s.dev.eng e).rx.length < 8 → Does (.pinStageOperation e) s fun d =>
      d.eng e = { (s.dev.eng e) with q := r, rx := (s.dev.eng e).rx ++ [s.dev.reg (PENG.ENG_CR e)] } ∧
      d.engState e = s.dev.engState e ∧ d.reg (PENG.ENG_CR e) = 0 ∧ s.dev.engAlone d e [PENG.ENG_CR e] ∧ s.dev.noRecord d ∧
      d.answer = .none) ∧
  (∀ (e : Fin 40) (o : StageOp) (r : List StageOp), (s.dev.eng e).q = o :: r → o.op = .store → s.dev.due o.t = true →
      s.dev.flag (PENG.ENG_STATUS_STOPPING e) = false → (s.dev.eng e).rx.length ≥ 8 → Does (.pinStageOperation e) s fun d =>
      d.eng e = { (s.dev.eng e) with q := r } ∧ d.engState e = s.dev.engState e ∧ d.reg (PENG.ENG_CR e) = 0 ∧
      s.dev.engFlagged d e PENG.ENG_FLAGS_OVERRUN 1 ∧ s.dev.engAlone d e [PENG.ENG_CR e, PENG.ENG_FLAGS e] ∧ s.dev.noRecord d ∧
      d.answer = .none) ∧
  (∀ (e : Fin 40) (o : StageOp) (r : List StageOp) (i : Nat) (v : Bool), (s.dev.eng e).q = o :: r → o.op = .flag i v →
      s.dev.due o.t = true → s.dev.flag (PENG.ENG_STATUS_STOPPING e) = false → i < 8 →
      s.dev.mapBit (PENG.GFLAGS 0) (8 * (e.val / 8) + i) ≠ v → Does (.pinStageOperation e) s fun d =>
      d.eng e = { (s.dev.eng e) with q := r } ∧ d.engState e = s.dev.engState e ∧
      d.mapBit (PENG.GFLAGS 0) (8 * (e.val / 8) + i) = v ∧ (∀ j : Fin 40, j.val ≠ (8 * (e.val / 8) + i) →
      d.mapBit (PENG.GFLAGS 0) j.val = s.dev.mapBit (PENG.GFLAGS 0) j.val) ∧
      Tab.get [] (8 * (e.val / 8) + i) d.flagHist = (maxT o.t o.queued, v) :: Tab.get [] (8 * (e.val / 8) + i) s.dev.flagHist ∧
      Tab.keeps [] [(8 * (e.val / 8) + i)] s.dev.flagHist d.flagHist ∧
      { s.dev with flagHist := d.flagHist }.engAlone d e [PENG.GFLAGS 0, PENG.GFLAGS 1] ∧ s.dev.noRecord d ∧ d.answer = .none) ∧
  (∀ (e : Fin 40) (o : StageOp) (r : List StageOp) (i : Nat) (v : Bool), (s.dev.eng e).q = o :: r → o.op = .flag i v →
      s.dev.due o.t = true → s.dev.flag (PENG.ENG_STATUS_STOPPING e) = false → i < 8 →
      s.dev.mapBit (PENG.GFLAGS 0) (8 * (e.val / 8) + i) = v → Does (.pinStageOperation e) s fun d =>
      d.eng e = { (s.dev.eng e) with q := r } ∧ d.engState e = s.dev.engState e ∧
      d.mapBit (PENG.GFLAGS 0) (8 * (e.val / 8) + i) = v ∧ (∀ j : Fin 40, j.val ≠ (8 * (e.val / 8) + i) →
      d.mapBit (PENG.GFLAGS 0) j.val = s.dev.mapBit (PENG.GFLAGS 0) j.val) ∧
      Tab.get [] (8 * (e.val / 8) + i) d.flagHist = Tab.get [] (8 * (e.val / 8) + i) s.dev.flagHist ∧
      Tab.keeps [] [(8 * (e.val / 8) + i)] s.dev.flagHist d.flagHist ∧
      { s.dev with flagHist := d.flagHist }.engAlone d e [PENG.GFLAGS 0, PENG.GFLAGS 1] ∧ s.dev.noRecord d ∧ d.answer = .none) ∧
  (∀ (e : Fin 40) (o : StageOp) (r : List StageOp), (s.dev.eng e).q = o :: r → s.dev.due o.t = false →
      Does (.pinStageOperation e) s fun d => s.dev.keepsUnits d ∧ s.dev.keepsRegs d [] ∧ s.dev.noRecord d) ∧
  (∀ (a : Agent) (e : Fin 40) (v : Word), s.dev.takes a.id (PENG.ENG_CMD e) v = true → v.toNat % 8 = 1 → s.dev.engState e ≠ 1 →
      s.dev.flag (PENG.ENG_STATUS_STOPPING e) = false → (s.dev.eng e).q = [] → (s.dev.eng e).cells = 0 →
      Does (.engStop a e v) s fun d => d.answer = .ok ∧ Tab.keeps {} [e.val] s.dev.engs d.engs ∧ d.eng e = (s.dev.eng e) ∧
      d.engState e = 0 ∧ d.fld (PENG.ENG_STATUS_CAUSE e) = 1 ∧ d.flag (PENG.ENG_STATUS_STOPPING e) = false ∧
      s.dev.keepsRegs d [PENG.ENG_STATUS e, PENG.ENG_ET e, PENG.ENG_ET e + 4, PENG.ENG_CMD e] ∧
      { s.dev with engs := d.engs }.keepsUnits d ∧ s.dev.oneRecord d (wordRecord s.dev.nowNs .live 0 a.id (PENG.ENG_CMD e) v 0)) ∧
  (∀ (a : Agent) (e : Fin 40) (v : Word), s.dev.takes a.id (PENG.ENG_CMD e) v = true → v.toNat % 8 = 1 → s.dev.engState e ≠ 1 →
      s.dev.flag (PENG.ENG_STATUS_STOPPING e) = false → ((s.dev.eng e).q ≠ [] ∨ (s.dev.eng e).cells ≠ 0) →
      Does (.engStop a e v) s fun d => d.answer = .ok ∧ Tab.keeps {} [e.val] s.dev.engs d.engs ∧ d.eng e = (s.dev.eng e) ∧
      d.fld (PENG.ENG_STATUS_CAUSE e) = 1 ∧ d.flag (PENG.ENG_STATUS_STOPPING e) = true ∧ d.engState e = 2 ∧
      s.dev.keepsRegs d [PENG.ENG_STATUS e, PENG.ENG_ET e, PENG.ENG_ET e + 4, PENG.ENG_CMD e] ∧
      { s.dev with engs := d.engs }.keepsUnits d ∧ s.dev.oneRecord d (wordRecord s.dev.nowNs .live 0 a.id (PENG.ENG_CMD e) v 0)) ∧
  (∀ (a : Agent) (e : Fin 40) (v : Word), s.dev.takes a.id (PENG.ENG_CMD e) v = true → v.toNat % 8 = 1 → s.dev.engState e ≠ 1 →
      s.dev.flag (PENG.ENG_STATUS_STOPPING e) = true → Does (.engStop a e v) s fun d => d.answer = .ok ∧
      Tab.keeps {} [e.val] s.dev.engs d.engs ∧ d.eng e = (s.dev.eng e) ∧
      d.reg (PENG.ENG_STATUS e) = s.dev.reg (PENG.ENG_STATUS e) ∧
      s.dev.keepsRegs d [PENG.ENG_STATUS e, PENG.ENG_ET e, PENG.ENG_ET e + 4, PENG.ENG_CMD e] ∧
      { s.dev with engs := d.engs }.keepsUnits d ∧ s.dev.oneRecord d (wordRecord s.dev.nowNs .live 0 a.id (PENG.ENG_CMD e) v 0)) ∧
  (∀ (a : Agent) (e : Fin 40) (v : Word), s.dev.takes a.id (PENG.ENG_CMD e) v = true → v.toNat % 8 = 1 → s.dev.engState e = 1 →
      Does (.engStop a e v) s fun d => d.answer = .ok ∧ Tab.keeps {} [e.val] s.dev.engs d.engs ∧
      d.eng e = { (s.dev.eng e) with start := none } ∧ d.engState e = 0 ∧
      s.dev.keepsRegs d [PENG.ENG_STATUS e, PENG.ENG_ET e, PENG.ENG_ET e + 4, PENG.ENG_CMD e] ∧
      { s.dev with engs := d.engs }.keepsUnits d ∧ s.dev.oneRecord d (wordRecord s.dev.nowNs .live 0 a.id (PENG.ENG_CMD e) v 0)) ∧
  (∀ (a : Agent) (e : Fin 40) (v : Word), s.dev.takes a.id (PENG.ENG_CMD e) v = true → v.toNat % 8 = 2 → s.dev.engState e ≠ 1 →
      s.dev.flag (PENG.ENG_STATUS_STOPPING e) = false → (s.dev.eng e).cells = 0 → Does (.engStopDiscard a e v) s fun d =>
      d.answer = .ok ∧ Tab.keeps {} [e.val] s.dev.engs d.engs ∧ d.eng e = { (s.dev.eng e) with q := [] } ∧ d.engState e = 0 ∧
      d.fld (PENG.ENG_STATUS_CAUSE e) = 1 ∧ d.flag (PENG.ENG_STATUS_STOPPING e) = false ∧
      s.dev.keepsRegs d [PENG.ENG_STATUS e, PENG.ENG_ET e, PENG.ENG_ET e + 4, PENG.ENG_CMD e] ∧
      { s.dev with engs := d.engs }.keepsUnits d ∧ s.dev.oneRecord d (wordRecord s.dev.nowNs .live 0 a.id (PENG.ENG_CMD e) v 0)) ∧
  (∀ (a : Agent) (e : Fin 40) (v : Word), s.dev.takes a.id (PENG.ENG_CMD e) v = true → v.toNat % 8 = 2 →
      s.dev.flag (PENG.ENG_STATUS_STOPPING e) = true → (s.dev.eng e).cells = 0 → Does (.engStopDiscard a e v) s fun d =>
      d.answer = .ok ∧ Tab.keeps {} [e.val] s.dev.engs d.engs ∧ d.eng e = { (s.dev.eng e) with q := [] } ∧ d.engState e = 0 ∧
      d.flag (PENG.ENG_STATUS_STOPPING e) = false ∧
      s.dev.keepsRegs d [PENG.ENG_STATUS e, PENG.ENG_ET e, PENG.ENG_ET e + 4, PENG.ENG_CMD e] ∧
      { s.dev with engs := d.engs }.keepsUnits d ∧ s.dev.oneRecord d (wordRecord s.dev.nowNs .live 0 a.id (PENG.ENG_CMD e) v 0)) ∧
  (∀ (a : Agent) (e : Fin 40) (v : Word), s.dev.takes a.id (PENG.ENG_CMD e) v = true → v.toNat % 8 = 2 → s.dev.engState e = 1 →
      s.dev.flag (PENG.ENG_STATUS_STOPPING e) = false → (s.dev.eng e).cells = 0 → Does (.engStopDiscard a e v) s fun d =>
      d.answer = .ok ∧ Tab.keeps {} [e.val] s.dev.engs d.engs ∧ d.eng e = { (s.dev.eng e) with q := [], start := none } ∧
      d.engState e = 0 ∧ s.dev.keepsRegs d [PENG.ENG_STATUS e, PENG.ENG_ET e, PENG.ENG_ET e + 4, PENG.ENG_CMD e] ∧
      { s.dev with engs := d.engs }.keepsUnits d ∧ s.dev.oneRecord d (wordRecord s.dev.nowNs .live 0 a.id (PENG.ENG_CMD e) v 0)) ∧
  (∀ (a : Agent) (e : Fin 40) (v : Word), s.dev.takes a.id (PENG.ENG_CMD e) v = true → v.toNat % 8 = 3 → wordBit v 8 = false →
      Does (.engResume a e v) s fun d => d.answer = .ok ∧ Tab.keeps {} [e.val] s.dev.engs d.engs ∧
      d.eng e = { (s.dev.eng e) with start := some (floorNs s.dev.now + 20 * 64, false, s.dev.now) } ∧ d.engState e = 1 ∧
      s.dev.keepsRegs d [PENG.ENG_STATUS e, PENG.ENG_ET e, PENG.ENG_ET e + 4, PENG.ENG_CMD e] ∧
      { s.dev with engs := d.engs }.keepsUnits d ∧ s.dev.oneRecord d (wordRecord s.dev.nowNs .live 0 a.id (PENG.ENG_CMD e) v 0)) ∧
  (∀ (a : Agent) (e : Fin 40) (v : Word), s.dev.takes a.id (PENG.ENG_CMD e) v = true → v.toNat % 8 = 3 → wordBit v 8 = true →
      Does (.engResume a e v) s fun d => d.answer = .ok ∧ Tab.keeps {} [e.val] s.dev.engs d.engs ∧
      d.eng e = { (s.dev.eng e) with start := some (floorNs (s.dev.reg64 (PENG.ENG_CMD_AT e)), false, s.dev.now) } ∧
      d.engState e = 1 ∧ s.dev.keepsRegs d [PENG.ENG_STATUS e, PENG.ENG_ET e, PENG.ENG_ET e + 4, PENG.ENG_CMD e] ∧
      { s.dev with engs := d.engs }.keepsUnits d ∧ s.dev.oneRecord d (wordRecord s.dev.nowNs .live 0 a.id (PENG.ENG_CMD e) v 0)) ∧
  (∀ (a : Agent) (e : Fin 40) (v : Word), s.dev.takes a.id (PENG.ENG_CMD e) v = true → v.toNat % 8 = 4 → wordBit v 8 = false →
      Does (.engRestart a e v) s fun d => d.answer = .ok ∧ Tab.keeps {} [e.val] s.dev.engs d.engs ∧
      d.eng e = { (s.dev.eng e) with start := some (floorNs s.dev.now + 20 * 64, true, s.dev.now) } ∧ d.engState e = 1 ∧
      s.dev.keepsRegs d [PENG.ENG_STATUS e, PENG.ENG_ET e, PENG.ENG_ET e + 4, PENG.ENG_CMD e] ∧
      { s.dev with engs := d.engs }.keepsUnits d ∧ s.dev.oneRecord d (wordRecord s.dev.nowNs .live 0 a.id (PENG.ENG_CMD e) v 0)) ∧
  (∀ (a : Agent) (e : Fin 40) (v : Word), s.dev.takes a.id (PENG.ENG_CMD e) v = true → v.toNat % 8 = 4 → wordBit v 8 = true →
      Does (.engRestart a e v) s fun d => d.answer = .ok ∧ Tab.keeps {} [e.val] s.dev.engs d.engs ∧
      d.eng e = { (s.dev.eng e) with start := some (floorNs (s.dev.reg64 (PENG.ENG_CMD_AT e)), true, s.dev.now) } ∧
      d.engState e = 1 ∧ s.dev.keepsRegs d [PENG.ENG_STATUS e, PENG.ENG_ET e, PENG.ENG_ET e + 4, PENG.ENG_CMD e] ∧
      { s.dev with engs := d.engs }.keepsUnits d ∧ s.dev.oneRecord d (wordRecord s.dev.nowNs .live 0 a.id (PENG.ENG_CMD e) v 0)) ∧
  (∀ (a : Agent) (e : Fin 40) (v : Word), s.dev.takes a.id (PENG.ENG_CMD e) v = true → v.toNat % 8 = 5 → s.dev.engState e = 0 →
      Does (.engFlush a e v) s fun d => d.answer = .ok ∧ Tab.keeps {} [e.val] s.dev.engs d.engs ∧
      d.eng e = { (s.dev.eng e) with tx := [], rx := [] } ∧ d.engState e = 0 ∧ d.fld (PENG.ENG_STATUS_TX e) = 0 ∧
      d.fld (PENG.ENG_STATUS_RX e) = 0 ∧
      s.dev.keepsRegs d [PENG.ENG_STATUS e, PENG.ENG_ET e, PENG.ENG_ET e + 4, PENG.ENG_CMD e] ∧
      { s.dev with engs := d.engs }.keepsUnits d ∧ s.dev.oneRecord d (wordRecord s.dev.nowNs .live 0 a.id (PENG.ENG_CMD e) v 0)) ∧
  (∀ (a : Agent) (v : Word), s.dev.takes a.id PENG.GSTART_CMD v = true → wordBit v 31 = true → wordBit v 0 = false →
      Does (.gstartRestart a v) s fun d => d.answer = .ok ∧
      (∀ e : Fin 40, d.eng e = (if s.dev.mapBit (PENG.GSTART_MASK 0) e then { s.dev.eng e with start := some (floorNs (s.dev.reg64 PENG.GSTART_AT), true, s.dev.now) } else s.dev.eng e)) ∧
      (∀ e : Fin 40, d.engState e = if s.dev.mapBit (PENG.GSTART_MASK 0) e then 1 else s.dev.engState e) ∧
      { s.dev with engs := d.engs }.keepsUnits d ∧ s.dev.keepsRegs d (PENG.GSTART_CMD :: (List.range 40).flatMap engKeys) ∧
      s.dev.oneRecord d (wordRecord s.dev.nowNs .live 0 a.id PENG.GSTART_CMD v 0)) ∧
  (∀ (a : Agent) (v : Word), s.dev.takes a.id PENG.GSTART_CMD v = true → wordBit v 31 = true → wordBit v 0 = true →
      Does (.gstartResume a v) s fun d => d.answer = .ok ∧
      (∀ e : Fin 40, d.eng e = (if s.dev.mapBit (PENG.GSTART_MASK 0) e then { s.dev.eng e with start := some (floorNs (s.dev.reg64 PENG.GSTART_AT), false, s.dev.now) } else s.dev.eng e)) ∧
      (∀ e : Fin 40, d.engState e = if s.dev.mapBit (PENG.GSTART_MASK 0) e then 1 else s.dev.engState e) ∧
      { s.dev with engs := d.engs }.keepsUnits d ∧ s.dev.keepsRegs d (PENG.GSTART_CMD :: (List.range 40).flatMap engKeys) ∧
      s.dev.oneRecord d (wordRecord s.dev.nowNs .live 0 a.id PENG.GSTART_CMD v 0)) ∧
  (∀ (a : Agent) (e : Fin 40) (i : Fin 32) (v : Word), s.dev.takes a.id (PENG.ENG_PROG (32 * e.val + i.val)) v = true →
      Does (.engProgWrite a e i v) s fun d => d.answer = .ok ∧
      d.reg (PENG.ENG_PROG (32 * e.val + i.val)) = s.dev.afterWrite (PENG.ENG_PROG (32 * e.val + i.val)) v ∧ s.dev.keepsUnits d ∧
      s.dev.keepsRegs d [(PENG.ENG_PROG (32 * e.val + i.val))] ∧
      s.dev.oneRecord d (wordRecord s.dev.nowNs .program 0 a.id (PENG.ENG_PROG (32 * e.val + i.val)) 1 (BitVec.ofNat 32 (crc32 (toBytes 4 (s.dev.afterWrite (PENG.ENG_PROG (32 * e.val + i.val)) v).toNat))))) ∧
  (∀ (a : Agent) (e : Fin 40) (v : Word), s.dev.takes a.id (PENG.ENG_OWNER e) v = true → Does (.engOwnerWrite a e v) s fun d =>
      d.answer = .ok ∧ d.reg (PENG.ENG_OWNER e) = s.dev.afterWrite (PENG.ENG_OWNER e) v ∧ s.dev.keepsUnits d ∧
      s.dev.keepsRegs d [(PENG.ENG_OWNER e)] ∧
      s.dev.oneRecord d (wordRecord s.dev.nowNs .owner 0 a.id (PENG.ENG_OWNER e) (s.dev.afterWrite (PENG.ENG_OWNER e) v) (s.dev.reg (PENG.ENG_OWNER e)))) ∧
  (∀ (e : Fin 40) (t arr : Time), (s.dev.eng e).start = some (t, false, arr) → s.dev.due t = true → before t arr = false →
      Does (.engineStart e) s fun d =>
      d.eng e = { (s.dev.eng e) with start := none, cells := 0, et := maxEt (s.dev.eng e).et (nsEt t) } ∧ d.engState e = 2 ∧
      d.fld (PENG.ENG_STATUS_CAUSE e) = 0 ∧ s.dev.engAlone d e [] ∧ s.dev.noRecord d ∧
      d.fld (PENG.ENG_STATUS_PC e) = s.dev.fld (PENG.ENG_STATUS_PC e)) ∧
  (∀ (e : Fin 40) (t arr : Time), (s.dev.eng e).start = some (t, true, arr) → s.dev.due t = true → before t arr = false →
      Does (.engineStart e) s fun d => d.eng e = { (s.dev.eng e) with start := none, cells := 0, et := nsEt t } ∧
      d.engState e = 2 ∧ d.fld (PENG.ENG_STATUS_CAUSE e) = 0 ∧
      s.dev.engAlone d e [PENG.ENG_SR e, PENG.ENG_CR e, PENG.ENG_K e, PENG.ENG_PSTATE e] ∧ s.dev.noRecord d ∧
      d.fld (PENG.ENG_STATUS_PC e) = 0 ∧ d.reg (PENG.ENG_SR e) = 0 ∧ d.reg (PENG.ENG_CR e) = 0 ∧ d.reg (PENG.ENG_K e) = 0 ∧
      d.fld (PENG.ENG_PSTATE_SR_LEFT e) = 0 ∧ d.fld (PENG.ENG_PSTATE_DIR e) = 0 ∧
      d.fld (PENG.ENG_PSTATE_LEVELS e) = s.dev.fld (PENG.ENG_PSTATE_LEVELS e)) ∧
  (∀ (e : Fin 40) (t arr : Time), (s.dev.eng e).start = some (t, false, arr) → s.dev.due t = true → before t arr = true →
      ceilNs arr ≠ t → Does (.engineStart e) s fun d =>
      d.eng e = { (s.dev.eng e) with start := none, cells := 0, et := nsEt (ceilNs arr) } ∧ d.engState e = 2 ∧
      d.fld (PENG.ENG_STATUS_CAUSE e) = 0 ∧
      s.dev.engAlone d e [MILEPOST.LATE_COUNT, MILEPOST.LATE_LAST, MILEPOST.LATE_LAST + 4, MILEPOST.LATE_SRC, MILEPOST.MP_FLAGS_LATE.addr, PENG.ENG_FLAGS e] ∧
      s.dev.noRecord d ∧ d.fld (PENG.ENG_STATUS_PC e) = s.dev.fld (PENG.ENG_STATUS_PC e) ∧
      d.num MILEPOST.LATE_COUNT = satInc 0xFFFFFFFF (s.dev.num MILEPOST.LATE_COUNT) ∧ d.flag MILEPOST.MP_FLAGS_LATE = true ∧
      d.reg64 MILEPOST.LATE_LAST = t ∧ s.dev.engFlagged d e PENG.ENG_FLAGS_LATE 2) ∧
  (∀ (e : Fin 40) (t arr : Time), (s.dev.eng e).start = some (t, true, arr) → s.dev.due t = true → before t arr = true →
      ceilNs arr ≠ t → Does (.engineStart e) s fun d =>
      d.eng e = { (s.dev.eng e) with start := none, cells := 0, et := nsEt (ceilNs arr) } ∧ d.engState e = 2 ∧
      d.fld (PENG.ENG_STATUS_CAUSE e) = 0 ∧
      s.dev.engAlone d e [MILEPOST.LATE_COUNT, MILEPOST.LATE_LAST, MILEPOST.LATE_LAST + 4, MILEPOST.LATE_SRC, MILEPOST.MP_FLAGS_LATE.addr, PENG.ENG_FLAGS e, PENG.ENG_SR e, PENG.ENG_CR e, PENG.ENG_K e, PENG.ENG_PSTATE e] ∧
      s.dev.noRecord d ∧ d.fld (PENG.ENG_STATUS_PC e) = 0 ∧ d.reg (PENG.ENG_SR e) = 0 ∧ d.reg (PENG.ENG_CR e) = 0 ∧
      d.reg (PENG.ENG_K e) = 0 ∧ d.fld (PENG.ENG_PSTATE_SR_LEFT e) = 0 ∧ d.fld (PENG.ENG_PSTATE_DIR e) = 0 ∧
      d.fld (PENG.ENG_PSTATE_LEVELS e) = s.dev.fld (PENG.ENG_PSTATE_LEVELS e) ∧
      d.num MILEPOST.LATE_COUNT = satInc 0xFFFFFFFF (s.dev.num MILEPOST.LATE_COUNT) ∧ d.flag MILEPOST.MP_FLAGS_LATE = true ∧
      d.reg64 MILEPOST.LATE_LAST = t ∧ s.dev.engFlagged d e PENG.ENG_FLAGS_LATE 2) ∧
  (∀ (e : Fin 40), ((s.dev.eng e).start.all fun p => !s.dev.due p.1) = true → Does (.engineStart e) s fun d =>
      s.dev.keepsUnits d ∧ s.dev.keepsRegs d [] ∧ s.dev.noRecord d) ∧
  (∀ (k : Fin 5), s.dev.powered (20 + k.val) 5000 = true → s.dev.domReady (20 + k.val) = false →
      Does (.engineBankReady k) s fun d => s.dev.keepsUnits d ∧ s.dev.keepsRegs d [SUPPLY.DOM_STATUS_0, PENG.BANK_STATUS] ∧
      s.dev.noRecord d ∧ d.reg SUPPLY.DOM_STATUS_0 = s.dev.reg SUPPLY.DOM_STATUS_0 ||| 1#32 <<< (20 + k.val) ∧
      d.reg PENG.BANK_STATUS = s.dev.reg PENG.BANK_STATUS ||| 1#32 <<< k.val) ∧
  (∀ (k : Fin 5), s.dev.domReady (20 + k.val) = true → Does (.engineBankReady k) s fun d => s.dev.keepsUnits d ∧
      s.dev.keepsRegs d [] ∧ s.dev.noRecord d)

/-- For every state and pin: a permitted write of PIN_OWN that changes the word begins a crossing of XING_NS at the crossing level, writes the word, shows whether the witness measures, and makes one OWNER record with the new and old words; one that changes nothing makes the record alone (log entry 52); a due crossing ends; PIN_SOFT is written with a LIVE record; an input change that meets no filter reaches PIN_IN and the interrupt flag at once, else after FILT, and one that returns in time is forgotten; cleared flags set again with their event where a HIGH or LOW level holds. A pin that gets the function THREAD drives an open level until its first action (log entry 3). Where a clause rests on a reading or a choice of the model, it is the model's and not the spec's: log entries 3, 98, 107, 108 and 109. -/
def Obligations.PinCommands : Prop :=
  ∀ s : State,
  (∀ (a : Agent) (p : Fin 160) (v : Word), s.dev.takes a.id (PINMUX.PIN_OWN p) v = true →
      s.dev.afterWrite (PINMUX.PIN_OWN p) v ≠ s.dev.reg (PINMUX.PIN_OWN p) → p.val < 96 → bitsOf v.toNat 26 24 ≠ 2 →
      Does (.pinOwnWrite a p v) s fun d => d.answer = .ok ∧ d.reg (PINMUX.PIN_OWN p) = s.dev.afterWrite (PINMUX.PIN_OWN p) v ∧
      s.dev.oneRecord d (wordRecord s.dev.nowNs .owner 0 a.id (PINMUX.PIN_OWN p) (s.dev.afterWrite (PINMUX.PIN_OWN p) v) (s.dev.reg (PINMUX.PIN_OWN p))) ∧
      d.xings = Tab.put p.val { endT := s.dev.now + nsT (s.dev.fld (PINMUX.PIN_CFG_XING_NS p)), level := (match s.dev.fld (PINMUX.PIN_CFG_XING_LEVEL p) with | 0 => s.dev.ballLevel p | 1 => .low | 2 => .high | 3 => .mid | _ => .hiz) } s.dev.xings ∧
      d.pin p = { s.dev.pin p with seen := s.dev.sees p.val true (s.dev.pinIn p) s.dev.now } ∧
      Tab.keeps {} [p.val] s.dev.pins d.pins ∧ { s.dev with xings := d.xings, pins := d.pins, wits := d.wits }.keepsUnits d ∧
      Tab.keeps {} [p.val] s.dev.wits d.wits ∧
      d.flag (WITNESS.WIT_STATUS_MEASURING p) = (s.dev.flag (WITNESS.WIT_CFG_ENABLE p) && bitOf (s.dev.fld WITNESS.WIT_BANK_STATUS_READY) (p.val / 32) && decide (bitsOf v.toNat 26 24 = 4)) ∧
      s.dev.keepsRegs d [(PINMUX.PIN_OWN p), WITNESS.WIT_STATUS p]) ∧
  (∀ (a : Agent) (p : Fin 160) (v : Word), s.dev.takes a.id (PINMUX.PIN_OWN p) v = true →
      s.dev.afterWrite (PINMUX.PIN_OWN p) v ≠ s.dev.reg (PINMUX.PIN_OWN p) → p.val < 96 → bitsOf v.toNat 26 24 = 2 →
      Does (.pinOwnWrite a p v) s fun d => d.answer = .ok ∧ d.reg (PINMUX.PIN_OWN p) = s.dev.afterWrite (PINMUX.PIN_OWN p) v ∧
      s.dev.oneRecord d (wordRecord s.dev.nowNs .owner 0 a.id (PINMUX.PIN_OWN p) (s.dev.afterWrite (PINMUX.PIN_OWN p) v) (s.dev.reg (PINMUX.PIN_OWN p))) ∧
      d.xings = Tab.put p.val { endT := s.dev.now + nsT (s.dev.fld (PINMUX.PIN_CFG_XING_NS p)), level := (match s.dev.fld (PINMUX.PIN_CFG_XING_LEVEL p) with | 0 => s.dev.ballLevel p | 1 => .low | 2 => .high | 3 => .mid | _ => .hiz) } s.dev.xings ∧
      d.pin p = { s.dev.pin p with thr := (d.pin p).thr, seen := s.dev.sees p.val true (s.dev.pinIn p) s.dev.now } ∧
      Tab.keeps {} [p.val] s.dev.pins d.pins ∧ d.freeCount = s.dev.freeCount + 1 ∧
      { s.dev with xings := d.xings, pins := d.pins, freeCount := d.freeCount, wits := d.wits }.keepsUnits d ∧
      Tab.keeps {} [p.val] s.dev.wits d.wits ∧
      d.flag (WITNESS.WIT_STATUS_MEASURING p) = (s.dev.flag (WITNESS.WIT_CFG_ENABLE p) && bitOf (s.dev.fld WITNESS.WIT_BANK_STATUS_READY) (p.val / 32) && decide (bitsOf v.toNat 26 24 = 4)) ∧
      s.dev.keepsRegs d [(PINMUX.PIN_OWN p), WITNESS.WIT_STATUS p]) ∧
  (∀ (a : Agent) (p : Fin 160) (v : Word), s.dev.takes a.id (PINMUX.PIN_OWN p) v = true →
      s.dev.afterWrite (PINMUX.PIN_OWN p) v ≠ s.dev.reg (PINMUX.PIN_OWN p) → p.val ≥ 96 → bitsOf v.toNat 26 24 ≠ 2 →
      Does (.pinOwnWrite a p v) s fun d => d.answer = .ok ∧ d.reg (PINMUX.PIN_OWN p) = s.dev.afterWrite (PINMUX.PIN_OWN p) v ∧
      s.dev.oneRecord d (wordRecord s.dev.nowNs .owner 0 a.id (PINMUX.PIN_OWN p) (s.dev.afterWrite (PINMUX.PIN_OWN p) v) (s.dev.reg (PINMUX.PIN_OWN p))) ∧
      d.xings = Tab.put p.val { endT := s.dev.now + nsT (s.dev.fld (PINMUX.PIN_CFG_XING_NS p)), level := (match s.dev.fld (PINMUX.PIN_CFG_XING_LEVEL p) with | 0 => s.dev.ballLevel p | 1 => .low | 2 => .high | 3 => .mid | _ => .hiz) } s.dev.xings ∧
      d.pin p = { s.dev.pin p with seen := s.dev.sees p.val true (s.dev.pinIn p) s.dev.now } ∧
      Tab.keeps {} [p.val] s.dev.pins d.pins ∧ { s.dev with xings := d.xings, pins := d.pins }.keepsUnits d ∧
      s.dev.keepsRegs d [(PINMUX.PIN_OWN p)]) ∧
  (∀ (a : Agent) (p : Fin 160) (v : Word), s.dev.takes a.id (PINMUX.PIN_OWN p) v = true →
      s.dev.afterWrite (PINMUX.PIN_OWN p) v ≠ s.dev.reg (PINMUX.PIN_OWN p) → p.val ≥ 96 → bitsOf v.toNat 26 24 = 2 →
      Does (.pinOwnWrite a p v) s fun d => d.answer = .ok ∧ d.reg (PINMUX.PIN_OWN p) = s.dev.afterWrite (PINMUX.PIN_OWN p) v ∧
      s.dev.oneRecord d (wordRecord s.dev.nowNs .owner 0 a.id (PINMUX.PIN_OWN p) (s.dev.afterWrite (PINMUX.PIN_OWN p) v) (s.dev.reg (PINMUX.PIN_OWN p))) ∧
      d.xings = Tab.put p.val { endT := s.dev.now + nsT (s.dev.fld (PINMUX.PIN_CFG_XING_NS p)), level := (match s.dev.fld (PINMUX.PIN_CFG_XING_LEVEL p) with | 0 => s.dev.ballLevel p | 1 => .low | 2 => .high | 3 => .mid | _ => .hiz) } s.dev.xings ∧
      d.pin p = { s.dev.pin p with thr := (d.pin p).thr, seen := s.dev.sees p.val true (s.dev.pinIn p) s.dev.now } ∧
      Tab.keeps {} [p.val] s.dev.pins d.pins ∧ d.freeCount = s.dev.freeCount + 1 ∧
      { s.dev with xings := d.xings, pins := d.pins, freeCount := d.freeCount }.keepsUnits d ∧
      s.dev.keepsRegs d [(PINMUX.PIN_OWN p)]) ∧
  (∀ (a : Agent) (p : Fin 160) (v : Word), s.dev.takes a.id (PINMUX.PIN_OWN p) v = true →
      s.dev.afterWrite (PINMUX.PIN_OWN p) v = s.dev.reg (PINMUX.PIN_OWN p) → Does (.pinOwnWrite a p v) s fun d =>
      d.answer = .ok ∧ d.reg (PINMUX.PIN_OWN p) = s.dev.afterWrite (PINMUX.PIN_OWN p) v ∧
      s.dev.oneRecord d (wordRecord s.dev.nowNs .owner 0 a.id (PINMUX.PIN_OWN p) (s.dev.afterWrite (PINMUX.PIN_OWN p) v) (s.dev.reg (PINMUX.PIN_OWN p))) ∧
      s.dev.keepsUnits d ∧ s.dev.keepsRegs d []) ∧
  (∀ (a : Agent) (p : Fin 160) (v : Word), s.dev.refuses a.id (PINMUX.PIN_OWN p) v .permission = true →
      Does (.pinOwnWrite a p v) s fun d => d.answer = .rejected .permission ∧ s.dev.keepsUnits d ∧ s.dev.keepsRegs d []) ∧
  (∀ (p : Fin 160) (x : Xing), Tab.find p.val s.dev.xings = some x → s.dev.due x.endT = true →
      Does (.levelCrossingEnd p) s fun d => d.xings = Tab.del p.val s.dev.xings ∧
      d.pin p = { s.dev.pin p with seen := s.dev.sees p.val false (s.dev.pinIn p) x.endT } ∧
      Tab.keeps {} [p.val] s.dev.pins d.pins ∧ Tab.keeps {} [p.val] s.dev.wits d.wits ∧
      { s.dev with xings := d.xings, wits := d.wits, pins := d.pins }.keepsUnits d ∧ s.dev.keepsRegs d [] ∧ s.dev.noRecord d) ∧
  (∀ (p : Fin 160), ((Tab.find p.val s.dev.xings).all fun x => !s.dev.due x.endT) = true → Does (.levelCrossingEnd p) s fun d =>
      s.dev.keepsUnits d ∧ s.dev.keepsRegs d [] ∧ s.dev.noRecord d) ∧
  (∀ (a : Agent) (p : Fin 160) (v : Word), s.dev.takes a.id (PINMUX.PIN_SOFT p) v = true → Does (.pinSoftWrite a p v) s fun d =>
      d.answer = .ok ∧ d.fld (PINMUX.PIN_SOFT_LEVEL p) = v.toNat % 4 ∧ s.dev.keepsRegs d [PINMUX.PIN_SOFT p] ∧
      s.dev.keepsUnits d ∧
      s.dev.oneRecord d (wordRecord s.dev.nowNs .live 0 a.id (PINMUX.PIN_SOFT p) (d.reg (PINMUX.PIN_SOFT p)) (s.dev.reg (PINMUX.PIN_SOFT p)))) ∧
  (∀ (a : Agent) (p : Fin 160) (v : Word), s.dev.refuses a.id (PINMUX.PIN_SOFT p) v .permission = true →
      Does (.pinSoftWrite a p v) s fun d => d.answer = .rejected .permission ∧ s.dev.keepsUnits d ∧ s.dev.keepsRegs d []) ∧
  (∀ (p : Fin 160) (l : Bool), (s.dev.pin p).raw ≠ l → l ≠ s.dev.pinIn p → s.dev.fld (PINMUX.PIN_CFG_FILT p) = 0 →
      Does (.pinInputChange p l) s fun d =>
      d.pin p = { s.dev.pin p with raw := l, since := none, hist := (s.dev.now, l) :: (s.dev.pin p).hist, seen := s.dev.sees p.val (Tab.find p.val s.dev.xings).isSome l (s.dev.now) } ∧
      Tab.keeps {} [p.val] s.dev.pins d.pins ∧ { s.dev with pins := d.pins }.keepsUnits d ∧ d.mapBit (PINMUX.PIN_IN 0) p = l ∧
      d.mapBit (PINMUX.PIN_INTF 0) p = (s.dev.mapBit (PINMUX.PIN_INTF 0) p || (match s.dev.fld (PINMUX.PIN_CFG_INT p) with | 1 => l | 2 => !l | 3 => true | 4 => l && !s.dev.mapBit (PINMUX.PIN_INTF 0) p | 5 => !l && !s.dev.mapBit (PINMUX.PIN_INTF 0) p | _ => false)) ∧
      s.dev.raised d (if (match s.dev.fld (PINMUX.PIN_CFG_INT p) with | 1 => l | 2 => !l | 3 => true | 4 => l && !s.dev.mapBit (PINMUX.PIN_INTF 0) p | 5 => !l && !s.dev.mapBit (PINMUX.PIN_INTF 0) p | _ => false) then [968 + p.val] else []) ∧
      (∀ j : Fin 160, j ≠ p → d.mapBit (PINMUX.PIN_IN 0) j = s.dev.mapBit (PINMUX.PIN_IN 0) j ∧
      d.mapBit (PINMUX.PIN_INTF 0) j = s.dev.mapBit (PINMUX.PIN_INTF 0) j) ∧
      s.dev.keepsRegs d [PINMUX.PIN_IN (p.val / 32), PINMUX.PIN_INTF (p.val / 32)] ∧ s.dev.noRecord d ∧ d.answer = .none) ∧
  (∀ (p : Fin 160) (l : Bool), (s.dev.pin p).raw ≠ l → l ≠ s.dev.pinIn p → s.dev.fld (PINMUX.PIN_CFG_FILT p) ≠ 0 →
      Does (.pinInputChange p l) s fun d => d.pin p = { s.dev.pin p with raw := l, since := some s.dev.now } ∧
      Tab.keeps {} [p.val] s.dev.pins d.pins ∧ { s.dev with pins := d.pins }.keepsUnits d ∧ s.dev.keepsRegs d [] ∧
      s.dev.noRecord d) ∧
  (∀ (p : Fin 160) (l : Bool), (s.dev.pin p).raw ≠ l → l = s.dev.pinIn p → Does (.pinInputChange p l) s fun d =>
      d.pin p = { s.dev.pin p with raw := l, since := none } ∧ Tab.keeps {} [p.val] s.dev.pins d.pins ∧
      { s.dev with pins := d.pins }.keepsUnits d ∧ s.dev.keepsRegs d [] ∧ s.dev.noRecord d) ∧
  (∀ (p : Fin 160) (l : Bool), (s.dev.pin p).raw = l → Does (.pinInputChange p l) s fun d => s.dev.keepsUnits d ∧
      s.dev.keepsRegs d [] ∧ s.dev.noRecord d) ∧
  (∀ (p : Fin 160) (t : Time), (s.dev.pin p).since = some t →
      s.dev.due (t + nsT (match s.dev.fld (PINMUX.PIN_CFG_FILT p) with | 0 => 0 | f => 2 ^ f)) = true →
      Does (.pinFilterExpiry p) s fun d =>
      d.pin p = { s.dev.pin p with raw := (s.dev.pin p).raw, since := none, hist := (t + nsT (match s.dev.fld (PINMUX.PIN_CFG_FILT p) with | 0 => 0 | f => 2 ^ f), (s.dev.pin p).raw) :: (s.dev.pin p).hist, seen := s.dev.sees p.val (Tab.find p.val s.dev.xings).isSome (s.dev.pin p).raw (t + nsT (match s.dev.fld (PINMUX.PIN_CFG_FILT p) with | 0 => 0 | f => 2 ^ f)) } ∧
      Tab.keeps {} [p.val] s.dev.pins d.pins ∧ { s.dev with pins := d.pins }.keepsUnits d ∧
      d.mapBit (PINMUX.PIN_IN 0) p = (s.dev.pin p).raw ∧
      d.mapBit (PINMUX.PIN_INTF 0) p = (s.dev.mapBit (PINMUX.PIN_INTF 0) p || (match s.dev.fld (PINMUX.PIN_CFG_INT p) with | 1 => (s.dev.pin p).raw | 2 => !(s.dev.pin p).raw | 3 => true | 4 => (s.dev.pin p).raw && !s.dev.mapBit (PINMUX.PIN_INTF 0) p | 5 => !(s.dev.pin p).raw && !s.dev.mapBit (PINMUX.PIN_INTF 0) p | _ => false)) ∧
      s.dev.raised d (if (match s.dev.fld (PINMUX.PIN_CFG_INT p) with | 1 => (s.dev.pin p).raw | 2 => !(s.dev.pin p).raw | 3 => true | 4 => (s.dev.pin p).raw && !s.dev.mapBit (PINMUX.PIN_INTF 0) p | 5 => !(s.dev.pin p).raw && !s.dev.mapBit (PINMUX.PIN_INTF 0) p | _ => false) then [968 + p.val] else []) ∧
      (∀ j : Fin 160, j ≠ p → d.mapBit (PINMUX.PIN_IN 0) j = s.dev.mapBit (PINMUX.PIN_IN 0) j ∧
      d.mapBit (PINMUX.PIN_INTF 0) j = s.dev.mapBit (PINMUX.PIN_INTF 0) j) ∧
      s.dev.keepsRegs d [PINMUX.PIN_IN (p.val / 32), PINMUX.PIN_INTF (p.val / 32)] ∧ s.dev.noRecord d ∧ d.answer = .none) ∧
  (∀ (p : Fin 160), ((s.dev.pin p).since.all fun t => !s.dev.due (t + nsT (match s.dev.fld (PINMUX.PIN_CFG_FILT p) with | 0 => 0 | f => 2 ^ f))) = true →
      Does (.pinFilterExpiry p) s fun d => s.dev.keepsUnits d ∧ s.dev.keepsRegs d [] ∧ s.dev.noRecord d) ∧
  (∀ (a : Agent) (w : Fin 5) (v : Word), s.dev.takes a.id (PINMUX.PIN_INTF w) v = true → Does (.pinIntfClear a w v) s fun d =>
      d.answer = .ok ∧
      (∀ i : Fin 32, d.mapBit (PINMUX.PIN_INTF 0) (32 * w.val + i) = if wordBit v i then (match s.dev.fld (PINMUX.PIN_CFG_INT (32 * w.val + i.val)) with | 4 => s.dev.pinIn (32 * w.val + i.val) | 5 => !s.dev.pinIn (32 * w.val + i.val) | _ => false) else s.dev.mapBit (PINMUX.PIN_INTF 0) (32 * w.val + i)) ∧
      s.dev.raised d (((List.range 32).filter fun i => wordBit v i && (match s.dev.fld (PINMUX.PIN_CFG_INT (32 * w.val + i)) with | 4 => s.dev.pinIn (32 * w.val + i) | 5 => !s.dev.pinIn (32 * w.val + i) | _ => false)).map fun i => 968 + 32 * w.val + i) ∧
      s.dev.keepsRegs d [PINMUX.PIN_INTF w] ∧ s.dev.keepsUnits d ∧ s.dev.noRecord d)

/-- For every state: a RETIRE write that is taken starts its copy and takes effect at the end of it with its LIVE record; DRAM_CTRL.TRAIN makes a channel TRAINING, and the end of training makes it READY, or FAILED with event 1206 and fault source 0x12; ERR_POP removes the oldest entry; MEM_CLR clears the counts and arms the limit; ECC_FLIP is written with a LIVE record; the scrubber reads the next block, corrects a CE and reports a UE that it leaves, both in the log, and ends a lap after the last memory, the DMA buffer among them; a pass starts, reads a block each SPACING, and ends COMPLETE or STOPPED with its sums and event 1205. Nothing else changes. Where a clause rests on a reading or a choice of the model, it is the model's and not the spec's: log entries 3, 110, 111, 112, 113 and 114. -/
def Obligations.MemoryService : Prop :=
  ∀ s : State,
  (∀ (a : Agent) (i : Fin 128) (v : Word), s.dev.takes a.id (MEMCTL.RETIRE i) v = true → Does (.retireWrite a i v) s fun d =>
      d.answer = .ok ∧ d.retiring = s.dev.retiring ++ [(i.val, s.dev.afterWrite (MEMCTL.RETIRE i) v, a.id)] ∧
      s.dev.keepsRegs d [] ∧ { s.dev with retiring := d.retiring }.keepsUnits d ∧ s.dev.noRecord d) ∧
  (∀ (i : Nat) (w : Word) (ag : AgentId), i < 128 → s.dev.retiring.find? (fun p => p.1 = i) = some (i, w, ag) → s.dev.ecc = [] →
      Does (.retireCopyDone i) s fun d => d.reg (MEMCTL.RETIRE i) = w ∧ (d.retiring = s.dev.retiring.filter fun p => p.1 ≠ i) ∧
      { s.dev with retiring := d.retiring }.keepsUnits d ∧ s.dev.keepsRegs d [MEMCTL.RETIRE i] ∧
      s.dev.oneRecord d (wordRecord s.dev.nowNs .live 0 ag (MEMCTL.RETIRE i) w (s.dev.reg (MEMCTL.RETIRE i)))) ∧
  (∀ (i : Nat), s.dev.retiring.find? (fun p => p.1 = i) = none → Does (.retireCopyDone i) s fun d => s.dev.keepsUnits d ∧
      s.dev.keepsRegs d [] ∧ s.dev.noRecord d) ∧
  (∀ (a : Agent) (v : Word), s.dev.takes a.id MEMCTL.DRAM_CTRL v = true → v.toNat % 4 ≠ 0 → Does (.dramTrain a v) s fun d =>
      d.answer = .ok ∧ (d.dramState 0 = if wordBit v 0 then 2 else s.dev.dramState 0) ∧
      (d.dramState 1 = if wordBit v 1 then 2 else s.dev.dramState 1) ∧ s.dev.keepsRegs d [MEMCTL.DRAM_STATUS, MEMCTL.DRAM_CTRL] ∧
      s.dev.keepsUnits d ∧ s.dev.oneRecord d (wordRecord s.dev.nowNs .live 0 a.id MEMCTL.DRAM_CTRL v 0)) ∧
  (∀ (c : Fin 2), s.dev.dramState c = 2 → Does (.dramTrainDone c true) s fun d => d.dramState c = 3 ∧
      d.dramState (1 - c.val) = s.dev.dramState (1 - c.val) ∧ s.dev.keepsUnits d ∧ s.dev.keepsRegs d [MEMCTL.DRAM_STATUS] ∧
      s.dev.noRecord d) ∧
  (∀ (c : Fin 2), s.dev.dramState c = 2 → Does (.dramTrainDone c false) s fun d => d.dramState c = 4 ∧
      d.dramState (1 - c.val) = s.dev.dramState (1 - c.val) ∧ s.dev.raised d [1206] ∧
      d.faults = s.dev.faults ++ [{ src := 0x12, unit := c, stamp := s.dev.nowNs }] ∧
      { s.dev with faults := d.faults }.keepsUnits d ∧ s.dev.keepsRegs d [MEMCTL.DRAM_STATUS] ∧ s.dev.noRecord d) ∧
  (∀ (c : Fin 2) (ok : Bool), s.dev.dramState c ≠ 2 → Does (.dramTrainDone c ok) s fun d => s.dev.keepsUnits d ∧
      s.dev.keepsRegs d [] ∧ s.dev.noRecord d) ∧
  (∀ (a : Agent) (v : Word), s.dev.takes a.id MEMCTL.ERR_POP v = true → wordBit v 0 = true → Does (.errPop a v) s fun d =>
      d.answer = .ok ∧ d.errLog = s.dev.errLog.drop 1 ∧ d.showsOldest ∧
      d.fld MEMCTL.ERR_STATUS_COUNT = (s.dev.errLog.length - 1) % 128 ∧
      d.fld MEMCTL.ERR_STATUS_LOST = s.dev.fld MEMCTL.ERR_STATUS_LOST ∧
      s.dev.keepsRegs d [MEMCTL.ERR_STATUS, MEMCTL.ERR_ENTRY 0, MEMCTL.ERR_ENTRY 1, MEMCTL.ERR_ENTRY 2, MEMCTL.ERR_ENTRY 3, MEMCTL.ERR_POP] ∧
      { s.dev with errLog := d.errLog }.keepsUnits d ∧ s.dev.oneRecord d (wordRecord s.dev.nowNs .live 0 a.id MEMCTL.ERR_POP v 0)) ∧
  (∀ (a : Agent) (v : Word), s.dev.takes a.id MEMCTL.MEM_CLR v = true → wordBit v 0 = true → Does (.memClr a v) s fun d =>
      d.answer = .ok ∧ d.reg MEMCTL.ECC_COUNTS = 0 ∧ d.fld MEMCTL.ERR_STATUS_LOST = 0 ∧
      d.fld MEMCTL.ERR_STATUS_COUNT = s.dev.fld MEMCTL.ERR_STATUS_COUNT ∧ d.ceArmed = true ∧
      s.dev.keepsRegs d [MEMCTL.ERR_STATUS, MEMCTL.ECC_COUNTS, MEMCTL.MEM_CLR] ∧
      { s.dev with ceArmed := d.ceArmed }.keepsUnits d ∧
      s.dev.oneRecord d (wordRecord s.dev.nowNs .live 0 a.id MEMCTL.MEM_CLR v 0)) ∧
  (∀ (a : Agent) (v : Word), s.dev.takes a.id MEMCTL.ECC_FLIP v = true → Does (.eccFlipWrite a v) s fun d => d.answer = .ok ∧
      d.reg MEMCTL.ECC_FLIP = s.dev.afterWrite MEMCTL.ECC_FLIP v ∧ s.dev.keepsRegs d [MEMCTL.ECC_FLIP] ∧ s.dev.keepsUnits d ∧
      s.dev.oneRecord d (wordRecord s.dev.nowNs .live 0 a.id MEMCTL.ECC_FLIP (d.reg MEMCTL.ECC_FLIP) (s.dev.reg MEMCTL.ECC_FLIP))) ∧
  (∀ (a : Nat), s.dev.fld SCRUB.SCRUB_CTRL_MODE = 1 → s.dev.domReady 57 = true →
      nextBlock s.dev.scrubPos s.dev.scrubRanges = some a → s.dev.ecc = [] → (s.dev.dmas.all fun p => p.2.flips.isEmpty) = true →
      Does (.scrubIdleRead) s fun d => d.scrubPos = a + 64 ∧ { s.dev with scrubPos := a + 64 }.keepsUnits d ∧
      s.dev.keepsRegs d [] ∧ s.dev.noRecord d) ∧
  (∀ (a u k : Nat), s.dev.fld SCRUB.SCRUB_CTRL_MODE = 1 → s.dev.domReady 57 = true →
      nextBlock s.dev.scrubPos s.dev.scrubRanges = some a → a < dmaBufBase → s.dev.ecc = [(u, k)] → codeUnit u = u → (a ≤ u ∧
      u < a + 64) → a % 64 = 0 → s.dev.errLog.length < 64 → k = 1 → Does (.scrubIdleRead) s fun d => d.scrubPos = a + 64 ∧
      d.ecc = [] ∧ s.dev.errFound d u ((s.dev.memCode u).getD 0) 3 0x0600 1 ∧ s.dev.raised d (if s.dev.ceArmed ∧
      s.dev.fld MEMCTL.CE_LIMIT_LIMIT ≠ 0 ∧
      s.dev.fld MEMCTL.CE_LIMIT_LIMIT ≤ satInc 0xFFFF (s.dev.fld MEMCTL.ECC_COUNTS_CE_COUNT) then [1204] else []) ∧
      { s.dev with scrubPos := d.scrubPos, ecc := d.ecc, errLog := d.errLog, freeCount := d.freeCount, ceArmed := d.ceArmed }.keepsUnits d ∧
      s.dev.keepsRegs d errKeys ∧ s.dev.noRecord d) ∧
  (∀ (a u k : Nat), s.dev.fld SCRUB.SCRUB_CTRL_MODE = 1 → s.dev.domReady 57 = true →
      nextBlock s.dev.scrubPos s.dev.scrubRanges = some a → a < dmaBufBase → s.dev.ecc = [(u, k)] → codeUnit u = u → (a ≤ u ∧
      u < a + 64) → a % 64 = 0 → s.dev.errLog.length < 64 → k ≥ 2 → Does (.scrubIdleRead) s fun d => d.scrubPos = a + 64 ∧
      d.ecc = s.dev.ecc ∧ s.dev.errFound d u ((s.dev.memCode u).getD 0) 3 0x0600 2 ∧ s.dev.raised d [1203] ∧
      d.faults = s.dev.faults ++ [{ src := 0x11, unit := ((s.dev.memCode u).getD 0), stamp := s.dev.nowNs }] ∧
      { s.dev with scrubPos := d.scrubPos, errLog := d.errLog, freeCount := d.freeCount, faults := d.faults }.keepsUnits d ∧
      s.dev.keepsRegs d errKeys ∧
      s.dev.oneRecord d (wordRecord s.dev.nowNs .system 0 0x0600 MEMCTL.ERR_STATUS (d.reg MEMCTL.ERR_STATUS) (s.dev.reg MEMCTL.ERR_STATUS))) ∧
  (∀ (a c j k : Nat), s.dev.fld SCRUB.SCRUB_CTRL_MODE = 1 → s.dev.domReady 57 = true →
      nextBlock s.dev.scrubPos s.dev.scrubRanges = some a → dmaBufBase ≤ a → (a - dmaBufBase) / 4096 = c →
      (s.dev.dma c).flips = [(j, k)] → (s.dev.dma c).read ≤ j + (s.dev.dma c).buf.length → j < (s.dev.dma c).read →
      j % 4096 / 64 = (a - dmaBufBase) % 4096 / 64 → s.dev.errLog.length < 64 → k = 1 → Does (.scrubIdleRead) s fun d =>
      d.scrubPos = a + 64 ∧ d.dmas = (s.dev.setDma c { s.dev.dma c with flips := [] }).dmas ∧
      s.dev.errFound d (bufPlace c j) 0x1A 3 0x0600 1 ∧ s.dev.raised d (if s.dev.ceArmed ∧ s.dev.fld MEMCTL.CE_LIMIT_LIMIT ≠ 0 ∧
      s.dev.fld MEMCTL.CE_LIMIT_LIMIT ≤ satInc 0xFFFF (s.dev.fld MEMCTL.ECC_COUNTS_CE_COUNT) then [1204] else []) ∧
      { s.dev with scrubPos := d.scrubPos, dmas := d.dmas, errLog := d.errLog, freeCount := d.freeCount, ceArmed := d.ceArmed }.keepsUnits d ∧
      s.dev.keepsRegs d errKeys ∧ s.dev.noRecord d) ∧
  (∀ (a c j k : Nat), s.dev.fld SCRUB.SCRUB_CTRL_MODE = 1 → s.dev.domReady 57 = true →
      nextBlock s.dev.scrubPos s.dev.scrubRanges = some a → dmaBufBase ≤ a → (a - dmaBufBase) / 4096 = c →
      (s.dev.dma c).flips = [(j, k)] → (s.dev.dma c).read ≤ j + (s.dev.dma c).buf.length → j < (s.dev.dma c).read →
      j % 4096 / 64 = (a - dmaBufBase) % 4096 / 64 → s.dev.errLog.length < 64 → k ≥ 2 → Does (.scrubIdleRead) s fun d =>
      d.scrubPos = a + 64 ∧ d.dmas = s.dev.dmas ∧ s.dev.errFound d (bufPlace c j) 0x1A 3 0x0600 2 ∧ s.dev.raised d [1203] ∧
      d.faults = s.dev.faults ++ [{ src := 0x11, unit := 0x1A, stamp := s.dev.nowNs }] ∧
      { s.dev with scrubPos := d.scrubPos, errLog := d.errLog, freeCount := d.freeCount, faults := d.faults }.keepsUnits d ∧
      s.dev.keepsRegs d errKeys ∧
      s.dev.oneRecord d (wordRecord s.dev.nowNs .system 0 0x0600 MEMCTL.ERR_STATUS (d.reg MEMCTL.ERR_STATUS) (s.dev.reg MEMCTL.ERR_STATUS))) ∧
  (s.dev.fld SCRUB.SCRUB_CTRL_MODE = 1 → s.dev.domReady 57 = true → nextBlock s.dev.scrubPos s.dev.scrubRanges = none →
      s.dev.ecc = [] → (s.dev.dmas.all fun p => p.2.flips.isEmpty) = true → Does (.scrubIdleRead) s fun d =>
      d.scrubPos = (match nextBlock 0 s.dev.scrubRanges with | some a => a + 64 | none => 0) ∧ d.lapStart = s.dev.now ∧
      d.fld SCRUB.SCRUB_STATUS_LAP_COUNT = (s.dev.fld SCRUB.SCRUB_STATUS_LAP_COUNT + 1) % 0x10000 ∧
      d.num SCRUB.LAP_US = min 0xFFFFFFFF ((s.dev.now - s.dev.lapStart).toNat / 64000) ∧
      { s.dev with scrubPos := d.scrubPos, lapStart := d.lapStart }.keepsUnits d ∧
      s.dev.keepsRegs d [SCRUB.SCRUB_STATUS, SCRUB.LAP_US] ∧ s.dev.noRecord d) ∧
  (s.dev.fld SCRUB.SCRUB_CTRL_MODE ≠ 1 → Does (.scrubIdleRead) s fun d => s.dev.keepsUnits d ∧ s.dev.keepsRegs d [] ∧
      s.dev.noRecord d) ∧
  (∀ (p : Pass), s.dev.pass = some p → s.dev.due p.nextT = true → s.dev.ecc = [] → p.pos + 64 < p.base + p.len →
      Does (.scrubPassBlock) s fun d => d.pass = some { p with pos := p.pos + 64, nextT := p.nextT + nsT p.spacing } ∧
      { s.dev with pass := d.pass }.keepsUnits d ∧ s.dev.keepsRegs d [] ∧ s.dev.noRecord d) ∧
  (∀ (p : Pass), s.dev.pass = some p → s.dev.due p.nextT = true → s.dev.ecc = [] → p.base + p.len ≤ p.pos + 64 →
      Does (.scrubPassBlock) s fun d => d.pass = none ∧ d.num SCRUB.SUM_BYTES = min 0xFFFFFFFF (p.pos + 64 - p.base) ∧
      d.num SCRUB.SUM_NS = min 0xFFFFFFFF ((s.dev.now - p.startT).toNat / 64) ∧
      d.num SCRUB.SUM_ERRS = min 0xFFFF (p.ue) * 0x10000 + min 0xFFFF (p.ce) ∧ d.fld SCRUB.SCRUB_STATUS_RESULT = 1 ∧
      d.flag SCRUB.SCRUB_STATUS_DONE = true ∧ d.flag SCRUB.SCRUB_STATUS_PASSING = false ∧ s.dev.raised d [1205] ∧
      { s.dev with pass := none }.keepsUnits d ∧
      s.dev.keepsRegs d [SCRUB.SUM_BYTES, SCRUB.SUM_NS, SCRUB.SUM_ERRS, SCRUB.SCRUB_STATUS] ∧ s.dev.noRecord d) ∧
  (∀ (p : Pass) (u k : Nat), s.dev.pass = some p → s.dev.due p.nextT = true → s.dev.ecc = [(u, k)] → codeUnit u = u →
      (p.pos ≤ u ∧ u < p.pos + 64) → p.pos % 64 = 0 → s.dev.errLog.length < 64 → k ≥ 2 → p.ue = 0 → p.pos + 64 < p.base + p.len →
      Does (.scrubPassBlock) s fun d =>
      d.pass = some { { p with pos := p.pos + 64, nextT := p.nextT + nsT p.spacing } with ue := p.ue + 1 } ∧ d.ecc = s.dev.ecc ∧
      s.dev.errFound d u ((s.dev.memCode u).getD 0) 3 0x0600 2 ∧ d.reg64 SCRUB.SUM_FIRST_UE = BitVec.ofNat 64 (2 ^ 63 + u) ∧
      { s.dev with pass := d.pass, errLog := d.errLog, freeCount := d.freeCount, faults := d.faults }.keepsUnits d ∧
      s.dev.keepsRegs d (SCRUB.SUM_FIRST_UE :: (SCRUB.SUM_FIRST_UE + 4) :: errKeys)) ∧
  (∀ (p : Pass) (u k : Nat), s.dev.pass = some p → s.dev.due p.nextT = true → s.dev.ecc = [(u, k)] → codeUnit u = u →
      (p.pos ≤ u ∧ u < p.pos + 64) → p.pos % 64 = 0 → s.dev.errLog.length < 64 → k = 1 → p.pos + 64 < p.base + p.len →
      Does (.scrubPassBlock) s fun d =>
      d.pass = some { { p with pos := p.pos + 64, nextT := p.nextT + nsT p.spacing } with ce := p.ce + 1 } ∧ d.ecc = [] ∧
      s.dev.errFound d u ((s.dev.memCode u).getD 0) 3 0x0600 1 ∧
      { s.dev with pass := d.pass, ecc := d.ecc, errLog := d.errLog, freeCount := d.freeCount, ceArmed := d.ceArmed }.keepsUnits d ∧
      s.dev.keepsRegs d errKeys) ∧
  ((s.dev.pass.all fun p => !s.dev.due p.nextT) = true → Does (.scrubPassBlock) s fun d => s.dev.keepsUnits d ∧
      s.dev.keepsRegs d [] ∧ s.dev.noRecord d) ∧
  (∀ (a : Agent) (v : Word) (p : Pass), s.dev.takes a.id SCRUB.PASS_CMD v = true → wordBit v 1 = true → s.dev.pass = some p →
      Does (.passStop a v) s fun d => d.answer = .ok ∧ d.pass = none ∧ d.num SCRUB.SUM_BYTES = min 0xFFFFFFFF (p.pos - p.base) ∧
      d.num SCRUB.SUM_NS = min 0xFFFFFFFF ((s.dev.now - p.startT).toNat / 64) ∧
      d.num SCRUB.SUM_ERRS = min 0xFFFF (p.ue) * 0x10000 + min 0xFFFF (p.ce) ∧ d.fld SCRUB.SCRUB_STATUS_RESULT = 2 ∧
      d.flag SCRUB.SCRUB_STATUS_DONE = true ∧ d.flag SCRUB.SCRUB_STATUS_PASSING = false ∧ s.dev.raised d [1205] ∧
      { s.dev with pass := none }.keepsUnits d ∧
      s.dev.keepsRegs d [SCRUB.PASS_CMD, SCRUB.SUM_BYTES, SCRUB.SUM_NS, SCRUB.SUM_ERRS, SCRUB.SCRUB_STATUS] ∧
      s.dev.oneRecord d (wordRecord s.dev.nowNs .live 0 a.id SCRUB.PASS_CMD v 0)) ∧
  (∀ (a : Agent) (v : Word), s.dev.takes a.id SCRUB.PASS_CMD v = true → wordBit v 0 = true → wordBit v 1 = false →
      Does (.passStart a v) s fun d => d.answer = .ok ∧
      d.pass = some { base := ((s.dev.reg64 SCRUB.PASS_BASE).toNat % 2 ^ 40), len := s.dev.num SCRUB.PASS_LEN, spacing := s.dev.fld SCRUB.PASS_CFG_SPACING_NS, pos := ((s.dev.reg64 SCRUB.PASS_BASE).toNat % 2 ^ 40), startT := s.dev.now, nextT := s.dev.now + nsT (s.dev.fld SCRUB.PASS_CFG_SPACING_NS) } ∧
      d.flag SCRUB.SCRUB_STATUS_PASSING = true ∧ d.reg64 SCRUB.SUM_FIRST_UE = 0 ∧
      s.dev.keepsRegs d [SCRUB.SCRUB_STATUS, SCRUB.SUM_FIRST_UE, SCRUB.SUM_FIRST_UE + 4, SCRUB.PASS_CMD] ∧
      { s.dev with pass := d.pass }.keepsUnits d ∧ s.dev.oneRecord d (wordRecord s.dev.nowNs .live 0 a.id SCRUB.PASS_CMD v 0))

/-- For every state and channel: START takes the descriptor address and the writer as agent and fetches, or ends in ERROR with cause DESC where it is not aligned; STOP ends in ERROR with cause STOPPED, once a held beat is answered; TRIGGER sets the pending bit, counts a merged one, or lets a waiting descriptor begin; CLEAR clears the flags. A fetched descriptor begins or waits, and ends in ERROR with DESC, FETCH or OVERLAP; read beats from memory and host fill the buffer, and a refused one ends in ERROR with READ; write beats store the oldest bytes, count CH_DONE, raise HALF, and end in DONE with FULL, the completion record and the chained descriptor, or in ERROR with WRITE. A host read times out after 100 us. Conventions of the failing address are those of log entry 53. Where a clause rests on a reading or a choice of the model, it is the model's and not the spec's: log entries 53, 116, 117 and 118. -/
def Obligations.DmaChannels : Prop :=
  ∀ s : State,
  (∀ (a : Agent) (c : Fin 16) (v : Word), s.dev.takes a.id (DMA.CH_CTRL c) v = true → v.toNat % 16 = 1 →
      ((s.dev.reg64 (DMA.CH_DESC c)).toNat % 2 ^ 40) % 32 = 0 → Does (.dmaStart a c v) s fun d => d.answer = .ok ∧
      s.dev.oneRecord d (wordRecord s.dev.nowNs .live 0 a.id (DMA.CH_CTRL c) v 0) ∧
      (d.reg64 (DMA.CH_CUR c)).toNat = ((s.dev.reg64 (DMA.CH_DESC c)).toNat % 2 ^ 40) ∧
      d.fld (DMA.CH_STATUS_AGENT c) = a.id.toNat ∧ d.num (DMA.CH_DONE c) = 0 ∧ d.dmaIn c 1 ∧ d.reg64 (DMA.CH_FAULT c) = 0 ∧
      d.fld (DMA.CH_STATUS_CAUSE c) = 0 ∧ d.dma c = (s.dev.dma c).fresh ∧
      s.dev.dmaAlone d c [DMA.CH_CUR c, DMA.CH_CUR c + 4, DMA.CH_DONE c, DMA.CH_FAULT c, DMA.CH_FAULT c + 4, DMA.CH_CTRL c]) ∧
  (∀ (a : Agent) (c : Fin 16) (v : Word), s.dev.takes a.id (DMA.CH_CTRL c) v = true → v.toNat % 16 = 1 →
      ((s.dev.reg64 (DMA.CH_DESC c)).toNat % 2 ^ 40) % 32 ≠ 0 → Does (.dmaStart a c v) s fun d => d.answer = .ok ∧
      s.dev.oneRecord d (wordRecord s.dev.nowNs .live 0 a.id (DMA.CH_CTRL c) v 0) ∧
      (d.reg64 (DMA.CH_CUR c)).toNat = ((s.dev.reg64 (DMA.CH_DESC c)).toNat % 2 ^ 40) ∧
      d.fld (DMA.CH_STATUS_AGENT c) = a.id.toNat ∧ d.num (DMA.CH_DONE c) = 0 ∧
      s.dev.dmaFailed d c 4 (BitVec.ofNat 64 ((s.dev.reg64 (DMA.CH_DESC c)).toNat % 2 ^ 40)) (s.dev.dma c).fresh [DMA.CH_CUR c, DMA.CH_CUR c + 4, DMA.CH_DONE c, DMA.CH_FAULT c, DMA.CH_FAULT c + 4, DMA.CH_CTRL c]) ∧
  (∀ (a : Agent) (c : Fin 16) (v : Word), s.dev.takes a.id (DMA.CH_CTRL c) v = true → v.toNat % 16 = 2 →
      (s.dev.grp (dmaGroup c.val)).st ≠ .pending → (s.dev.dma c).held = false → (s.dev.dma c).cpl = false →
      Does (.dmaStop a c v) s fun d => d.answer = .ok ∧
      s.dev.oneRecord d (wordRecord s.dev.nowNs .live 0 a.id (DMA.CH_CTRL c) v 0) ∧
      s.dev.dmaFailed d c 7 0 (s.dev.dma c) [DMA.CH_CTRL c]) ∧
  (∀ (a : Agent) (c : Fin 16) (v : Word), s.dev.takes a.id (DMA.CH_CTRL c) v = true → v.toNat % 16 = 2 →
      (s.dev.dma c).held = true → (s.dev.dma c).ending = none → Does (.dmaStop a c v) s fun d => d.answer = .ok ∧
      s.dev.oneRecord d (wordRecord s.dev.nowNs .live 0 a.id (DMA.CH_CTRL c) v 0) ∧
      d.dma c = { (s.dev.dma c) with ending := some (7, 0, false) } ∧ d.dmaState c = s.dev.dmaState c ∧
      s.dev.dmaAlone d c [DMA.CH_CTRL c]) ∧
  (∀ (a : Agent) (c : Fin 16) (v : Word), s.dev.takes a.id (DMA.CH_CTRL c) v = true → v.toNat % 16 = 4 →
      s.dev.flag (DMA.CH_CFG_TRIG_EN c) = false → Does (.dmaTrigger a c v) s fun d => d.answer = .ok ∧
      s.dev.oneRecord d (wordRecord s.dev.nowNs .live 0 a.id (DMA.CH_CTRL c) v 0) ∧ s.dev.keepsUnits d ∧
      s.dev.keepsRegs d [DMA.CH_CTRL c]) ∧
  (∀ (a : Agent) (c : Fin 16) (v : Word), s.dev.takes a.id (DMA.CH_CTRL c) v = true → v.toNat % 16 = 4 →
      s.dev.flag (DMA.CH_CFG_TRIG_EN c) = true → s.dev.flag (DMA.CH_STATUS_TRIG_PEND c) = true →
      Does (.dmaTrigger a c v) s fun d => d.answer = .ok ∧
      s.dev.oneRecord d (wordRecord s.dev.nowNs .live 0 a.id (DMA.CH_CTRL c) v 0) ∧
      d.fld (DMA.CH_STATUS_MERGED c) = satInc 15 (s.dev.fld (DMA.CH_STATUS_MERGED c)) ∧
      d.flag (DMA.CH_STATUS_TRIG_PEND c) = true ∧ d.dmaState c = s.dev.dmaState c ∧ s.dev.keepsUnits d ∧
      s.dev.keepsRegs d [DMA.CH_STATUS c, DMA.CH_CTRL c]) ∧
  (∀ (a : Agent) (c : Fin 16) (v : Word), s.dev.takes a.id (DMA.CH_CTRL c) v = true → v.toNat % 16 = 4 →
      s.dev.flag (DMA.CH_CFG_TRIG_EN c) = true → s.dev.flag (DMA.CH_STATUS_TRIG_PEND c) = false → s.dev.dmaState c ≠ 2 →
      Does (.dmaTrigger a c v) s fun d => d.answer = .ok ∧
      s.dev.oneRecord d (wordRecord s.dev.nowNs .live 0 a.id (DMA.CH_CTRL c) v 0) ∧
      d.fld (DMA.CH_STATUS_MERGED c) = s.dev.fld (DMA.CH_STATUS_MERGED c) ∧ d.flag (DMA.CH_STATUS_TRIG_PEND c) = true ∧
      d.dmaState c = s.dev.dmaState c ∧ s.dev.keepsUnits d ∧ s.dev.keepsRegs d [DMA.CH_STATUS c, DMA.CH_CTRL c]) ∧
  (∀ (a : Agent) (c : Fin 16) (v : Word), s.dev.takes a.id (DMA.CH_CTRL c) v = true → v.toNat % 16 = 4 →
      s.dev.flag (DMA.CH_CFG_TRIG_EN c) = true → s.dev.flag (DMA.CH_STATUS_TRIG_PEND c) = false → s.dev.dmaState c = 2 →
      Does (.dmaTrigger a c v) s fun d => d.answer = .ok ∧
      s.dev.oneRecord d (wordRecord s.dev.nowNs .live 0 a.id (DMA.CH_CTRL c) v 0) ∧ d.dmaIn c 3 ∧
      d.dma c = { (s.dev.dma c) with since := s.dev.now } ∧
      s.dev.raised d (if (s.dev.dma c).chained then [1131 + 4 * c.val] else []) ∧ d.flag (DMA.CH_STATUS_TRIG_PEND c) = false ∧
      s.dev.dmaAlone d c [DMA.CH_CTRL c]) ∧
  (∀ (a : Agent) (c : Fin 16) (v : Word), s.dev.takes a.id (DMA.CH_CTRL c) v = true → v.toNat % 16 = 8 →
      Does (.dmaClear a c v) s fun d => d.answer = .ok ∧
      s.dev.oneRecord d (wordRecord s.dev.nowNs .live 0 a.id (DMA.CH_CTRL c) v 0) ∧ d.num (DMA.CH_FLAGS c) = 0 ∧
      d.fld (DMA.CH_STATUS_MERGED c) = 0 ∧ d.dmaState c = s.dev.dmaState c ∧ s.dev.keepsUnits d ∧
      s.dev.keepsRegs d [DMA.CH_STATUS c, DMA.CH_FLAGS c, DMA.CH_CTRL c]) ∧
  (∀ (c : Fin 16) (bs : List Byte) (ov : Bool), s.dev.dmaState c = 1 →
      s.dev.descMemory ((s.dev.reg64 (DMA.CH_CUR c)).toNat % 2 ^ 40) = true →
      s.dev.memMapped ((s.dev.reg64 (DMA.CH_CUR c)).toNat % 2 ^ 40) 32 = true →
      s.dev.memOpen (s.dev.dmaAgent c) ((s.dev.reg64 (DMA.CH_CUR c)).toNat % 2 ^ 40) 32 false = true → s.dev.ecc = [] →
      s.dev.beatBytes ((s.dev.reg64 (DMA.CH_CUR c)).toNat % 2 ^ 40) 32 = bs →
      ov = (ctlSinc (descNum bs 20 2) && ctlDinc (descNum bs 20 2) && decide (descNum bs 0 8 < descNum bs 8 8 + descNum bs 16 4) && decide (descNum bs 8 8 < descNum bs 0 8 + descNum bs 16 4)) →
      descOk bs = true → (ov && decide (ctlSw (descNum bs 20 2) ≠ ctlDw (descNum bs 20 2))) = false →
      bitOf (descNum bs 20 2) 12 = false → Does (.dmaDescFetched c) s fun d => d.dmaIn c 3 ∧
      d.dma c = { ({ src := descNum bs 0 8, dst := descNum bs 8 8, len := descNum bs 16 4, ctl := descNum bs 20 2, cpl := bitOf (descNum bs 22 2) 0, next := descNum bs 24 8, chained := (s.dev.dma c).chained, rdTurn := (s.dev.dma c).rdTurn, wrTurn := (s.dev.dma c).wrTurn, down := ov && decide (descNum bs 0 8 < descNum bs 8 8) } : DmaSt) with since := s.dev.now } ∧
      s.dev.raised d (if (s.dev.dma c).chained then [1131 + 4 * c.val] else []) ∧ d.num (DMA.CH_DONE c) = 0 ∧
      s.dev.dmaAlone d c [DMA.CH_DONE c] ∧ s.dev.noRecord d ∧
      d.flag (DMA.CH_STATUS_TRIG_PEND c) = s.dev.flag (DMA.CH_STATUS_TRIG_PEND c)) ∧
  (∀ (c : Fin 16) (bs : List Byte) (ov : Bool), s.dev.dmaState c = 1 →
      s.dev.descMemory ((s.dev.reg64 (DMA.CH_CUR c)).toNat % 2 ^ 40) = true →
      s.dev.memMapped ((s.dev.reg64 (DMA.CH_CUR c)).toNat % 2 ^ 40) 32 = true →
      s.dev.memOpen (s.dev.dmaAgent c) ((s.dev.reg64 (DMA.CH_CUR c)).toNat % 2 ^ 40) 32 false = true → s.dev.ecc = [] →
      s.dev.beatBytes ((s.dev.reg64 (DMA.CH_CUR c)).toNat % 2 ^ 40) 32 = bs →
      ov = (ctlSinc (descNum bs 20 2) && ctlDinc (descNum bs 20 2) && decide (descNum bs 0 8 < descNum bs 8 8 + descNum bs 16 4) && decide (descNum bs 8 8 < descNum bs 0 8 + descNum bs 16 4)) →
      descOk bs = true → (ov && decide (ctlSw (descNum bs 20 2) ≠ ctlDw (descNum bs 20 2))) = false →
      bitOf (descNum bs 20 2) 12 = false → ov = true → Does (.dmaDescFetched c) s fun d => d.dmaIn c 3 ∧
      d.dma c = { ({ src := descNum bs 0 8, dst := descNum bs 8 8, len := descNum bs 16 4, ctl := descNum bs 20 2, cpl := bitOf (descNum bs 22 2) 0, next := descNum bs 24 8, chained := (s.dev.dma c).chained, rdTurn := (s.dev.dma c).rdTurn, wrTurn := (s.dev.dma c).wrTurn, down := ov && decide (descNum bs 0 8 < descNum bs 8 8) } : DmaSt) with since := s.dev.now } ∧
      s.dev.raised d (if (s.dev.dma c).chained then [1131 + 4 * c.val] else []) ∧ d.num (DMA.CH_DONE c) = 0 ∧
      s.dev.dmaAlone d c [DMA.CH_DONE c]) ∧
  (∀ (c : Fin 16) (bs : List Byte) (ov : Bool), s.dev.dmaState c = 1 →
      s.dev.descMemory ((s.dev.reg64 (DMA.CH_CUR c)).toNat % 2 ^ 40) = true →
      s.dev.memMapped ((s.dev.reg64 (DMA.CH_CUR c)).toNat % 2 ^ 40) 32 = true →
      s.dev.memOpen (s.dev.dmaAgent c) ((s.dev.reg64 (DMA.CH_CUR c)).toNat % 2 ^ 40) 32 false = true → s.dev.ecc = [] →
      s.dev.beatBytes ((s.dev.reg64 (DMA.CH_CUR c)).toNat % 2 ^ 40) 32 = bs →
      ov = (ctlSinc (descNum bs 20 2) && ctlDinc (descNum bs 20 2) && decide (descNum bs 0 8 < descNum bs 8 8 + descNum bs 16 4) && decide (descNum bs 8 8 < descNum bs 0 8 + descNum bs 16 4)) →
      descOk bs = true → (ov && decide (ctlSw (descNum bs 20 2) ≠ ctlDw (descNum bs 20 2))) = false →
      bitOf (descNum bs 20 2) 12 = true → s.dev.flag (DMA.CH_STATUS_TRIG_PEND c) = false → Does (.dmaDescFetched c) s fun d =>
      d.dmaIn c 2 ∧
      d.dma c = ({ src := descNum bs 0 8, dst := descNum bs 8 8, len := descNum bs 16 4, ctl := descNum bs 20 2, cpl := bitOf (descNum bs 22 2) 0, next := descNum bs 24 8, chained := (s.dev.dma c).chained, rdTurn := (s.dev.dma c).rdTurn, wrTurn := (s.dev.dma c).wrTurn, down := ov && decide (descNum bs 0 8 < descNum bs 8 8) } : DmaSt) ∧
      d.num (DMA.CH_DONE c) = 0 ∧ s.dev.dmaAlone d c [DMA.CH_DONE c] ∧ s.dev.noRecord d) ∧
  (∀ (c : Fin 16) (bs : List Byte) (ov : Bool), s.dev.dmaState c = 1 →
      s.dev.descMemory ((s.dev.reg64 (DMA.CH_CUR c)).toNat % 2 ^ 40) = true →
      s.dev.memMapped ((s.dev.reg64 (DMA.CH_CUR c)).toNat % 2 ^ 40) 32 = true →
      s.dev.memOpen (s.dev.dmaAgent c) ((s.dev.reg64 (DMA.CH_CUR c)).toNat % 2 ^ 40) 32 false = true → s.dev.ecc = [] →
      s.dev.beatBytes ((s.dev.reg64 (DMA.CH_CUR c)).toNat % 2 ^ 40) 32 = bs →
      ov = (ctlSinc (descNum bs 20 2) && ctlDinc (descNum bs 20 2) && decide (descNum bs 0 8 < descNum bs 8 8 + descNum bs 16 4) && decide (descNum bs 8 8 < descNum bs 0 8 + descNum bs 16 4)) →
      descOk bs = true → (ov && decide (ctlSw (descNum bs 20 2) ≠ ctlDw (descNum bs 20 2))) = false →
      bitOf (descNum bs 20 2) 12 = true → s.dev.flag (DMA.CH_STATUS_TRIG_PEND c) = true → Does (.dmaDescFetched c) s fun d =>
      d.dmaIn c 3 ∧
      d.dma c = { ({ src := descNum bs 0 8, dst := descNum bs 8 8, len := descNum bs 16 4, ctl := descNum bs 20 2, cpl := bitOf (descNum bs 22 2) 0, next := descNum bs 24 8, chained := (s.dev.dma c).chained, rdTurn := (s.dev.dma c).rdTurn, wrTurn := (s.dev.dma c).wrTurn, down := ov && decide (descNum bs 0 8 < descNum bs 8 8) } : DmaSt) with since := s.dev.now } ∧
      s.dev.raised d (if (s.dev.dma c).chained then [1131 + 4 * c.val] else []) ∧ d.flag (DMA.CH_STATUS_TRIG_PEND c) = false ∧
      d.num (DMA.CH_DONE c) = 0 ∧ s.dev.dmaAlone d c [DMA.CH_DONE c] ∧ s.dev.noRecord d) ∧
  (∀ (c : Fin 16) (bs : List Byte) (ov : Bool), s.dev.dmaState c = 1 →
      s.dev.descMemory ((s.dev.reg64 (DMA.CH_CUR c)).toNat % 2 ^ 40) = true →
      s.dev.memMapped ((s.dev.reg64 (DMA.CH_CUR c)).toNat % 2 ^ 40) 32 = true →
      s.dev.memOpen (s.dev.dmaAgent c) ((s.dev.reg64 (DMA.CH_CUR c)).toNat % 2 ^ 40) 32 false = true → s.dev.ecc = [] →
      s.dev.beatBytes ((s.dev.reg64 (DMA.CH_CUR c)).toNat % 2 ^ 40) 32 = bs →
      ov = (ctlSinc (descNum bs 20 2) && ctlDinc (descNum bs 20 2) && decide (descNum bs 0 8 < descNum bs 8 8 + descNum bs 16 4) && decide (descNum bs 8 8 < descNum bs 0 8 + descNum bs 16 4)) →
      (s.dev.grp (dmaGroup c.val)).st ≠ .pending → descOk bs = false → bitOf (descNum bs 22 2) 0 = false →
      Does (.dmaDescFetched c) s fun d =>
      s.dev.dmaFailed d c 4 (BitVec.ofNat 64 ((s.dev.reg64 (DMA.CH_CUR c)).toNat % 2 ^ 40)) ({ src := descNum bs 0 8, dst := descNum bs 8 8, len := descNum bs 16 4, ctl := descNum bs 20 2, cpl := bitOf (descNum bs 22 2) 0, next := descNum bs 24 8, chained := (s.dev.dma c).chained, rdTurn := (s.dev.dma c).rdTurn, wrTurn := (s.dev.dma c).wrTurn, down := ov && decide (descNum bs 0 8 < descNum bs 8 8) } : DmaSt) [DMA.CH_DONE c]) ∧
  (∀ (c : Fin 16) (bs : List Byte) (ov : Bool), s.dev.dmaState c = 1 →
      s.dev.descMemory ((s.dev.reg64 (DMA.CH_CUR c)).toNat % 2 ^ 40) = true →
      s.dev.memMapped ((s.dev.reg64 (DMA.CH_CUR c)).toNat % 2 ^ 40) 32 = true →
      s.dev.memOpen (s.dev.dmaAgent c) ((s.dev.reg64 (DMA.CH_CUR c)).toNat % 2 ^ 40) 32 false = true → s.dev.ecc = [] →
      s.dev.beatBytes ((s.dev.reg64 (DMA.CH_CUR c)).toNat % 2 ^ 40) 32 = bs →
      ov = (ctlSinc (descNum bs 20 2) && ctlDinc (descNum bs 20 2) && decide (descNum bs 0 8 < descNum bs 8 8 + descNum bs 16 4) && decide (descNum bs 8 8 < descNum bs 0 8 + descNum bs 16 4)) →
      (s.dev.grp (dmaGroup c.val)).st ≠ .pending → descOk bs = true →
      (ov && decide (ctlSw (descNum bs 20 2) ≠ ctlDw (descNum bs 20 2))) = true → bitOf (descNum bs 22 2) 0 = false →
      Does (.dmaDescFetched c) s fun d =>
      s.dev.dmaFailed d c 6 0 ({ src := descNum bs 0 8, dst := descNum bs 8 8, len := descNum bs 16 4, ctl := descNum bs 20 2, cpl := bitOf (descNum bs 22 2) 0, next := descNum bs 24 8, chained := (s.dev.dma c).chained, rdTurn := (s.dev.dma c).rdTurn, wrTurn := (s.dev.dma c).wrTurn, down := ov && decide (descNum bs 0 8 < descNum bs 8 8) } : DmaSt) [DMA.CH_DONE c]) ∧
  (∀ (c : Fin 16), (s.dev.grp (dmaGroup c.val)).st ≠ .pending → s.dev.dmaState c = 1 →
      (s.dev.descMemory ((s.dev.reg64 (DMA.CH_CUR c)).toNat % 2 ^ 40) && s.dev.memMapped ((s.dev.reg64 (DMA.CH_CUR c)).toNat % 2 ^ 40) 32 && s.dev.memOpen (s.dev.dmaAgent c) ((s.dev.reg64 (DMA.CH_CUR c)).toNat % 2 ^ 40) 32 false) = false →
      Does (.dmaDescFetched c) s fun d =>
      s.dev.dmaFailed d c 5 (BitVec.ofNat 64 ((s.dev.reg64 (DMA.CH_CUR c)).toNat % 2 ^ 40)) { (s.dev.dma c) with cpl := false } [] ∧
      s.dev.noRecord d) ∧
  (∀ (c : Fin 16), (s.dev.grp (dmaGroup c.val)).st ≠ .pending → s.dev.dmaState c ≠ 1 → Does (.dmaDescFetched c) s fun d =>
      d.answer = .ignored ∧ s.dev.keepsUnits d ∧ s.dev.keepsRegs d []) ∧
  (∀ (c : Fin 16) (data : List Byte) (n : Nat), s.dev.dmaState c = 3 → (s.dev.dma c).ending = none →
      (s.dev.dma c).buf.length + (ctlSw (s.dev.dma c).ctl) ≤ 4096 → (0 < n ∧ n ≤ ctlBurst (s.dev.dma c).ctl) →
      (s.dev.dma c).read + n * (ctlSw (s.dev.dma c).ctl) ≤ (s.dev.dma c).len →
      (s.dev.dma c).buf.length + n * (ctlSw (s.dev.dma c).ctl) ≤ 4096 →
      ((List.range n).all fun k => decide ((fun k => (s.dev.dma c).beat (s.dev.dma c).src (ctlSinc (s.dev.dma c).ctl) (ctlSw (s.dev.dma c).ctl) ((s.dev.dma c).read + k * (ctlSw (s.dev.dma c).ctl))) k / 1024 = (fun k => (s.dev.dma c).beat (s.dev.dma c).src (ctlSinc (s.dev.dma c).ctl) (ctlSw (s.dev.dma c).ctl) ((s.dev.dma c).read + k * (ctlSw (s.dev.dma c).ctl))) 0 / 1024)) = true →
      (n = ctlBurst (s.dev.dma c).ctl ∨ (s.dev.dma c).len ≤ (s.dev.dma c).read + n * (ctlSw (s.dev.dma c).ctl) ∨ 4096 < (s.dev.dma c).buf.length + (n + 1) * (ctlSw (s.dev.dma c).ctl) ∨ (fun k => (s.dev.dma c).beat (s.dev.dma c).src (ctlSinc (s.dev.dma c).ctl) (ctlSw (s.dev.dma c).ctl) ((s.dev.dma c).read + k * (ctlSw (s.dev.dma c).ctl))) n / 1024 ≠ (fun k => (s.dev.dma c).beat (s.dev.dma c).src (ctlSinc (s.dev.dma c).ctl) (ctlSw (s.dev.dma c).ctl) ((s.dev.dma c).read + k * (ctlSw (s.dev.dma c).ctl))) 0 / 1024) →
      s.dev.dmaMayRead c = true →
      ((List.range n).all fun k => s.dev.memBeat ((fun k => (s.dev.dma c).beat (s.dev.dma c).src (ctlSinc (s.dev.dma c).ctl) (ctlSw (s.dev.dma c).ctl) ((s.dev.dma c).read + k * (ctlSw (s.dev.dma c).ctl))) k) (ctlSw (s.dev.dma c).ctl) && s.dev.memMapped ((fun k => (s.dev.dma c).beat (s.dev.dma c).src (ctlSinc (s.dev.dma c).ctl) (ctlSw (s.dev.dma c).ctl) ((s.dev.dma c).read + k * (ctlSw (s.dev.dma c).ctl))) k) (ctlSw (s.dev.dma c).ctl) && s.dev.memOpen (s.dev.dmaAgent c) ((fun k => (s.dev.dma c).beat (s.dev.dma c).src (ctlSinc (s.dev.dma c).ctl) (ctlSw (s.dev.dma c).ctl) ((s.dev.dma c).read + k * (ctlSw (s.dev.dma c).ctl))) k) (ctlSw (s.dev.dma c).ctl) false) = true →
      s.dev.ecc = [] → s.dev.flag MEMCTL.ECC_FLIP_ARM = false → Does (.dmaReadAnswered c data) s fun d =>
      d.dma c = { (s.dev.dma c) with buf := (s.dev.dma c).buf ++ (List.range n).flatMap (fun k => s.dev.beatBytes ((fun k => (s.dev.dma c).beat (s.dev.dma c).src (ctlSinc (s.dev.dma c).ctl) (ctlSw (s.dev.dma c).ctl) ((s.dev.dma c).read + k * (ctlSw (s.dev.dma c).ctl))) k) (ctlSw (s.dev.dma c).ctl)), read := (s.dev.dma c).read + n * (ctlSw (s.dev.dma c).ctl), since := s.dev.now, rdTurn := nextTurn fun q => (s.dev.dma q).rdTurn } ∧
      d.dmaState c = (if (s.dev.dma c).len ≤ (s.dev.dma c).read + n * (ctlSw (s.dev.dma c).ctl) then 4 else 3) ∧
      s.dev.dmaAlone d c [] ∧ s.dev.noRecord d ∧ d.sent = []) ∧
  (∀ (c : Fin 16) (data : List Byte) (n : Nat), s.dev.dmaState c = 3 → (s.dev.dma c).ending = none →
      (s.dev.dma c).buf.length + (ctlSw (s.dev.dma c).ctl) ≤ 4096 → (0 < n ∧ n ≤ ctlBurst (s.dev.dma c).ctl) →
      (s.dev.dma c).read + n * (ctlSw (s.dev.dma c).ctl) ≤ (s.dev.dma c).len →
      (s.dev.dma c).buf.length + n * (ctlSw (s.dev.dma c).ctl) ≤ 4096 →
      ((List.range n).all fun k => decide ((fun k => (s.dev.dma c).beat (s.dev.dma c).src (ctlSinc (s.dev.dma c).ctl) (ctlSw (s.dev.dma c).ctl) ((s.dev.dma c).read + k * (ctlSw (s.dev.dma c).ctl))) k / 1024 = (fun k => (s.dev.dma c).beat (s.dev.dma c).src (ctlSinc (s.dev.dma c).ctl) (ctlSw (s.dev.dma c).ctl) ((s.dev.dma c).read + k * (ctlSw (s.dev.dma c).ctl))) 0 / 1024)) = true →
      (n = ctlBurst (s.dev.dma c).ctl ∨ (s.dev.dma c).len ≤ (s.dev.dma c).read + n * (ctlSw (s.dev.dma c).ctl) ∨ 4096 < (s.dev.dma c).buf.length + (n + 1) * (ctlSw (s.dev.dma c).ctl) ∨ (fun k => (s.dev.dma c).beat (s.dev.dma c).src (ctlSinc (s.dev.dma c).ctl) (ctlSw (s.dev.dma c).ctl) ((s.dev.dma c).read + k * (ctlSw (s.dev.dma c).ctl))) n / 1024 ≠ (fun k => (s.dev.dma c).beat (s.dev.dma c).src (ctlSinc (s.dev.dma c).ctl) (ctlSw (s.dev.dma c).ctl) ((s.dev.dma c).read + k * (ctlSw (s.dev.dma c).ctl))) 0 / 1024) →
      s.dev.dmaMayRead c = true →
      ((List.range n).all fun k => (s.dev.hostWindow ((fun k => (s.dev.dma c).beat (s.dev.dma c).src (ctlSinc (s.dev.dma c).ctl) (ctlSw (s.dev.dma c).ctl) ((s.dev.dma c).read + k * (ctlSw (s.dev.dma c).ctl))) k) (ctlSw (s.dev.dma c).ctl)).isSome) = true →
      n * (ctlSw (s.dev.dma c).ctl) ≤ data.length → s.dev.flag MEMCTL.ECC_FLIP_ARM = false →
      Does (.dmaReadAnswered c data) s fun d =>
      d.dma c = { (s.dev.dma c) with buf := (s.dev.dma c).buf ++ data.take (n * (ctlSw (s.dev.dma c).ctl)), read := (s.dev.dma c).read + n * (ctlSw (s.dev.dma c).ctl), since := s.dev.now, rdTurn := nextTurn fun q => (s.dev.dma q).rdTurn } ∧
      d.dmaState c = (if (s.dev.dma c).len ≤ (s.dev.dma c).read + n * (ctlSw (s.dev.dma c).ctl) then 4 else 3) ∧
      (d.sent = (List.range n).map fun k => .hostRead (s.dev.reg64 HOST.OUT_BASE + BitVec.ofNat 64 ((fun k => (s.dev.dma c).beat (s.dev.dma c).src (ctlSinc (s.dev.dma c).ctl) (ctlSw (s.dev.dma c).ctl) ((s.dev.dma c).read + k * (ctlSw (s.dev.dma c).ctl))) k - 0x0800000000)) (ctlSw (s.dev.dma c).ctl)) ∧
      s.dev.dmaAlone d c [] ∧ s.dev.noRecord d) ∧
  (∀ (c : Fin 16) (data : List Byte), s.dev.dmaState c = 3 → (s.dev.dma c).ending = none →
      (s.dev.dma c).buf.length + (ctlSw (s.dev.dma c).ctl) ≤ 4096 → (s.dev.dma c).held = false → (s.dev.dma c).cpl = false →
      s.dev.dmaMayRead c = true → (s.dev.grp (dmaGroup c.val)).st ≠ .pending → (s.dev.dma c).read < (s.dev.dma c).len →
      s.dev.memBeat ((fun k => (s.dev.dma c).beat (s.dev.dma c).src (ctlSinc (s.dev.dma c).ctl) (ctlSw (s.dev.dma c).ctl) ((s.dev.dma c).read + k * (ctlSw (s.dev.dma c).ctl))) 0) (ctlSw (s.dev.dma c).ctl) = true →
      (s.dev.memMapped ((fun k => (s.dev.dma c).beat (s.dev.dma c).src (ctlSinc (s.dev.dma c).ctl) (ctlSw (s.dev.dma c).ctl) ((s.dev.dma c).read + k * (ctlSw (s.dev.dma c).ctl))) 0) (ctlSw (s.dev.dma c).ctl) && s.dev.memOpen (s.dev.dmaAgent c) ((fun k => (s.dev.dma c).beat (s.dev.dma c).src (ctlSinc (s.dev.dma c).ctl) (ctlSw (s.dev.dma c).ctl) ((s.dev.dma c).read + k * (ctlSw (s.dev.dma c).ctl))) 0) (ctlSw (s.dev.dma c).ctl) false) = false →
      Does (.dmaReadAnswered c data) s fun d =>
      s.dev.dmaFailed d c 1 (BitVec.ofNat 64 ((fun k => (s.dev.dma c).beat (s.dev.dma c).src (ctlSinc (s.dev.dma c).ctl) (ctlSw (s.dev.dma c).ctl) ((s.dev.dma c).read + k * (ctlSw (s.dev.dma c).ctl))) 0)) { (s.dev.dma c) with rdTurn := nextTurn fun q => (s.dev.dma q).rdTurn } [] ∧
      s.dev.noRecord d) ∧
  (∀ (c : Fin 16) (data : List Byte), s.dev.dmaState c = 3 → (s.dev.dma c).ending = none →
      (s.dev.dma c).buf.length + (ctlSw (s.dev.dma c).ctl) ≤ 4096 → (s.dev.dma c).held = false → (s.dev.dma c).cpl = false →
      s.dev.dmaMayRead c = true → (s.dev.grp (dmaGroup c.val)).st ≠ .pending → (s.dev.dma c).read < (s.dev.dma c).len →
      (s.dev.hostWindow ((fun k => (s.dev.dma c).beat (s.dev.dma c).src (ctlSinc (s.dev.dma c).ctl) (ctlSw (s.dev.dma c).ctl) ((s.dev.dma c).read + k * (ctlSw (s.dev.dma c).ctl))) 0) (ctlSw (s.dev.dma c).ctl)).isSome = true →
      data.length < (ctlSw (s.dev.dma c).ctl) → Does (.dmaReadAnswered c data) s fun d =>
      s.dev.dmaFailed d c 1 (BitVec.ofNat 64 ((fun k => (s.dev.dma c).beat (s.dev.dma c).src (ctlSinc (s.dev.dma c).ctl) (ctlSw (s.dev.dma c).ctl) ((s.dev.dma c).read + k * (ctlSw (s.dev.dma c).ctl))) 0)) { (s.dev.dma c) with rdTurn := nextTurn fun q => (s.dev.dma q).rdTurn } [] ∧
      s.dev.noRecord d) ∧
  (∀ (c : Fin 16) (data : List Byte), (s.dev.grp (dmaGroup c.val)).st ≠ .pending → s.dev.dmaMayRead c = false →
      Does (.dmaReadAnswered c data) s fun d => d.answer = .ignored ∧ s.dev.keepsUnits d ∧ s.dev.keepsRegs d []) ∧
  (∀ (c : Fin 16), s.dev.dmaState c = 3 → (s.dev.dma c).ending = none →
      (s.dev.dma c).buf.length + (ctlSw (s.dev.dma c).ctl) ≤ 4096 → (s.dev.dma c).held = false → (s.dev.dma c).cpl = false →
      (s.dev.grp (dmaGroup c.val)).st ≠ .pending →
      (s.dev.hostWindow ((fun k => (s.dev.dma c).beat (s.dev.dma c).src (ctlSinc (s.dev.dma c).ctl) (ctlSw (s.dev.dma c).ctl) ((s.dev.dma c).read + k * (ctlSw (s.dev.dma c).ctl))) 0) (ctlSw (s.dev.dma c).ctl)).isSome = true →
      s.dev.due ((s.dev.dma c).since + nsT 100000) = true → Does (.hostReadTimeout c) s fun d =>
      s.dev.dmaFailed d c 1 (BitVec.ofNat 64 ((fun k => (s.dev.dma c).beat (s.dev.dma c).src (ctlSinc (s.dev.dma c).ctl) (ctlSw (s.dev.dma c).ctl) ((s.dev.dma c).read + k * (ctlSw (s.dev.dma c).ctl))) 0)) (s.dev.dma c) [] ∧
      s.dev.noRecord d) ∧
  (∀ (c : Fin 16), s.dev.due ((s.dev.dma c).since + nsT 100000) = false → Does (.hostReadTimeout c) s fun d =>
      s.dev.keepsUnits d ∧ s.dev.keepsRegs d [] ∧ s.dev.noRecord d) ∧
  (∀ (c : Fin 16), s.dev.dmaMayWrite c = true → (s.dev.dma c).held = false → (s.dev.dmaState c = 3 ∨ s.dev.dmaState c = 4) →
      (ctlDw (s.dev.dma c).ctl) ≤ (s.dev.dma c).buf.length → (s.dev.dma c).flips = [] →
      (ctlBurst (s.dev.dma c).ctl = 1 ∨ (s.dev.dma c).buf.length < 2 * (ctlDw (s.dev.dma c).ctl) ∨ (fun k => (s.dev.dma c).beat (s.dev.dma c).dst (ctlDinc (s.dev.dma c).ctl) (ctlDw (s.dev.dma c).ctl) ((s.dev.dma c).read - (s.dev.dma c).buf.length + k)) (ctlDw (s.dev.dma c).ctl) / 1024 ≠ (fun k => (s.dev.dma c).beat (s.dev.dma c).dst (ctlDinc (s.dev.dma c).ctl) (ctlDw (s.dev.dma c).ctl) ((s.dev.dma c).read - (s.dev.dma c).buf.length + k)) 0 / 1024) →
      s.dev.memTakes (s.dev.dmaAgent c) ((fun k => (s.dev.dma c).beat (s.dev.dma c).dst (ctlDinc (s.dev.dma c).ctl) (ctlDw (s.dev.dma c).ctl) ((s.dev.dma c).read - (s.dev.dma c).buf.length + k)) 0) (ctlDw (s.dev.dma c).ctl) = true →
      s.dev.num (DMA.CH_DONE c) ≤ 0x01000000 →
      ((s.dev.dma c).buf.drop (ctlDw (s.dev.dma c).ctl) ≠ [] ∨ (s.dev.dma c).read < (s.dev.dma c).len) →
      Does (.dmaWriteAnswered c) s fun d =>
      d.dma c = { (s.dev.dma c) with buf := (s.dev.dma c).buf.drop (ctlDw (s.dev.dma c).ctl), half := (s.dev.dma c).half || (ctlHalf (s.dev.dma c).ctl && !(s.dev.dma c).half && decide (((s.dev.dma c).len + 2 * (ctlDw (s.dev.dma c).ctl) - 1) / (2 * (ctlDw (s.dev.dma c).ctl)) * (ctlDw (s.dev.dma c).ctl) ≤ s.dev.num (DMA.CH_DONE c) + (ctlDw (s.dev.dma c).ctl))), since := (if 4096 < (s.dev.dma c).buf.length + (ctlSw (s.dev.dma c).ctl) then s.dev.now else (s.dev.dma c).since), wrTurn := nextTurn fun q => (s.dev.dma q).wrTurn } ∧
      d.dmaState c = s.dev.dmaState c ∧
      s.dev.raised d (if (ctlHalf (s.dev.dma c).ctl && !(s.dev.dma c).half && decide (((s.dev.dma c).len + 2 * (ctlDw (s.dev.dma c).ctl) - 1) / (2 * (ctlDw (s.dev.dma c).ctl)) * (ctlDw (s.dev.dma c).ctl) ≤ s.dev.num (DMA.CH_DONE c) + (ctlDw (s.dev.dma c).ctl))) then [1128 + 4 * c.val] else []) ∧
      { s.dev with mem := d.mem }.dmaAlone d c [DMA.CH_DONE c] ∧ s.dev.noRecord d ∧
      d.bytes ((fun k => (s.dev.dma c).beat (s.dev.dma c).dst (ctlDinc (s.dev.dma c).ctl) (ctlDw (s.dev.dma c).ctl) ((s.dev.dma c).read - (s.dev.dma c).buf.length + k)) 0) (ctlDw (s.dev.dma c).ctl) = (s.dev.dma c).buf.take (ctlDw (s.dev.dma c).ctl) ∧
      s.dev.bytesKept d ((fun k => (s.dev.dma c).beat (s.dev.dma c).dst (ctlDinc (s.dev.dma c).ctl) (ctlDw (s.dev.dma c).ctl) ((s.dev.dma c).read - (s.dev.dma c).buf.length + k)) 0) ((fun k => (s.dev.dma c).beat (s.dev.dma c).dst (ctlDinc (s.dev.dma c).ctl) (ctlDw (s.dev.dma c).ctl) ((s.dev.dma c).read - (s.dev.dma c).buf.length + k)) 0 + (ctlDw (s.dev.dma c).ctl)) ∧
      d.num (DMA.CH_DONE c) = s.dev.num (DMA.CH_DONE c) + (ctlDw (s.dev.dma c).ctl)) ∧
  (∀ (c : Fin 16) (n : Nat), s.dev.dmaMayWrite c = true → (s.dev.dma c).held = false →
      (s.dev.dmaState c = 3 ∨ s.dev.dmaState c = 4) → (ctlDw (s.dev.dma c).ctl) ≤ (s.dev.dma c).buf.length →
      (s.dev.dma c).flips = [] → ctlDinc (s.dev.dma c).ctl = true → (s.dev.dma c).down = false →
      ctlHalf (s.dev.dma c).ctl = false → (0 < n ∧ n ≤ ctlBurst (s.dev.dma c).ctl) →
      n * (ctlDw (s.dev.dma c).ctl) ≤ (s.dev.dma c).buf.length →
      ((List.range n).all fun k => decide ((fun k => (s.dev.dma c).beat (s.dev.dma c).dst (ctlDinc (s.dev.dma c).ctl) (ctlDw (s.dev.dma c).ctl) ((s.dev.dma c).read - (s.dev.dma c).buf.length + k)) (k * (ctlDw (s.dev.dma c).ctl)) / 1024 = (fun k => (s.dev.dma c).beat (s.dev.dma c).dst (ctlDinc (s.dev.dma c).ctl) (ctlDw (s.dev.dma c).ctl) ((s.dev.dma c).read - (s.dev.dma c).buf.length + k)) 0 / 1024) && s.dev.memTakes (s.dev.dmaAgent c) ((fun k => (s.dev.dma c).beat (s.dev.dma c).dst (ctlDinc (s.dev.dma c).ctl) (ctlDw (s.dev.dma c).ctl) ((s.dev.dma c).read - (s.dev.dma c).buf.length + k)) (k * (ctlDw (s.dev.dma c).ctl))) (ctlDw (s.dev.dma c).ctl)) = true →
      (n = ctlBurst (s.dev.dma c).ctl ∨ (s.dev.dma c).buf.length < (n + 1) * (ctlDw (s.dev.dma c).ctl) ∨ (fun k => (s.dev.dma c).beat (s.dev.dma c).dst (ctlDinc (s.dev.dma c).ctl) (ctlDw (s.dev.dma c).ctl) ((s.dev.dma c).read - (s.dev.dma c).buf.length + k)) (n * (ctlDw (s.dev.dma c).ctl)) / 1024 ≠ (fun k => (s.dev.dma c).beat (s.dev.dma c).dst (ctlDinc (s.dev.dma c).ctl) (ctlDw (s.dev.dma c).ctl) ((s.dev.dma c).read - (s.dev.dma c).buf.length + k)) 0 / 1024) →
      s.dev.num (DMA.CH_DONE c) ≤ 0x01000000 →
      ((s.dev.dma c).buf.drop (n * (ctlDw (s.dev.dma c).ctl)) ≠ [] ∨ (s.dev.dma c).read < (s.dev.dma c).len) →
      Does (.dmaWriteAnswered c) s fun d =>
      d.dma c = { (s.dev.dma c) with buf := (s.dev.dma c).buf.drop (n * (ctlDw (s.dev.dma c).ctl)), since := (if 4096 < (s.dev.dma c).buf.length + (ctlSw (s.dev.dma c).ctl) then s.dev.now else (s.dev.dma c).since), wrTurn := nextTurn fun q => (s.dev.dma q).wrTurn } ∧
      d.dmaState c = s.dev.dmaState c ∧
      d.bytes ((fun k => (s.dev.dma c).beat (s.dev.dma c).dst (ctlDinc (s.dev.dma c).ctl) (ctlDw (s.dev.dma c).ctl) ((s.dev.dma c).read - (s.dev.dma c).buf.length + k)) 0) (n * (ctlDw (s.dev.dma c).ctl)) = (s.dev.dma c).buf.take (n * (ctlDw (s.dev.dma c).ctl)) ∧
      s.dev.bytesKept d ((fun k => (s.dev.dma c).beat (s.dev.dma c).dst (ctlDinc (s.dev.dma c).ctl) (ctlDw (s.dev.dma c).ctl) ((s.dev.dma c).read - (s.dev.dma c).buf.length + k)) 0) ((fun k => (s.dev.dma c).beat (s.dev.dma c).dst (ctlDinc (s.dev.dma c).ctl) (ctlDw (s.dev.dma c).ctl) ((s.dev.dma c).read - (s.dev.dma c).buf.length + k)) 0 + n * (ctlDw (s.dev.dma c).ctl)) ∧
      d.num (DMA.CH_DONE c) = s.dev.num (DMA.CH_DONE c) + n * (ctlDw (s.dev.dma c).ctl) ∧
      { s.dev with mem := d.mem }.dmaAlone d c [DMA.CH_DONE c] ∧ s.dev.noRecord d) ∧
  (∀ (c : Fin 16), s.dev.dmaMayWrite c = true → (s.dev.dma c).held = false → (s.dev.dmaState c = 3 ∨ s.dev.dmaState c = 4) →
      (ctlDw (s.dev.dma c).ctl) ≤ (s.dev.dma c).buf.length → (s.dev.dma c).flips = [] →
      (s.dev.dma c).buf.drop (ctlDw (s.dev.dma c).ctl) = [] → (s.dev.dma c).len ≤ (s.dev.dma c).read →
      (s.dev.grp (dmaGroup c.val)).st ≠ .pending →
      s.dev.memTakes (s.dev.dmaAgent c) ((fun k => (s.dev.dma c).beat (s.dev.dma c).dst (ctlDinc (s.dev.dma c).ctl) (ctlDw (s.dev.dma c).ctl) ((s.dev.dma c).read - (s.dev.dma c).buf.length + k)) 0) (ctlDw (s.dev.dma c).ctl) = true →
      s.dev.num (DMA.CH_DONE c) ≤ 0x01000000 → (s.dev.dma c).cpl = false → ctlChain (s.dev.dma c).ctl = false →
      Does (.dmaWriteAnswered c) s fun d =>
      d.dma c = { (s.dev.dma c) with buf := [], half := (s.dev.dma c).half || (ctlHalf (s.dev.dma c).ctl && !(s.dev.dma c).half && decide (((s.dev.dma c).len + 2 * (ctlDw (s.dev.dma c).ctl) - 1) / (2 * (ctlDw (s.dev.dma c).ctl)) * (ctlDw (s.dev.dma c).ctl) ≤ s.dev.num (DMA.CH_DONE c) + (ctlDw (s.dev.dma c).ctl))), since := (if 4096 < (s.dev.dma c).buf.length + (ctlSw (s.dev.dma c).ctl) then s.dev.now else (s.dev.dma c).since), wrTurn := nextTurn fun q => (s.dev.dma q).wrTurn } ∧
      d.dmaIn c 5 ∧ d.flag (DMA.CH_FLAGS_DONE c) = true ∧
      s.dev.raised d ((if (ctlHalf (s.dev.dma c).ctl && !(s.dev.dma c).half && decide (((s.dev.dma c).len + 2 * (ctlDw (s.dev.dma c).ctl) - 1) / (2 * (ctlDw (s.dev.dma c).ctl)) * (ctlDw (s.dev.dma c).ctl) ≤ s.dev.num (DMA.CH_DONE c) + (ctlDw (s.dev.dma c).ctl))) then [1128 + 4 * c.val] else []) ++ (if ctlFull (s.dev.dma c).ctl then [1129 + 4 * c.val] else [])) ∧
      { s.dev with mem := d.mem }.dmaAlone d c [DMA.CH_DONE c, DMA.CH_FLAGS c] ∧ s.dev.noRecord d ∧
      d.bytes ((fun k => (s.dev.dma c).beat (s.dev.dma c).dst (ctlDinc (s.dev.dma c).ctl) (ctlDw (s.dev.dma c).ctl) ((s.dev.dma c).read - (s.dev.dma c).buf.length + k)) 0) (ctlDw (s.dev.dma c).ctl) = (s.dev.dma c).buf.take (ctlDw (s.dev.dma c).ctl) ∧
      s.dev.bytesKept d ((fun k => (s.dev.dma c).beat (s.dev.dma c).dst (ctlDinc (s.dev.dma c).ctl) (ctlDw (s.dev.dma c).ctl) ((s.dev.dma c).read - (s.dev.dma c).buf.length + k)) 0) ((fun k => (s.dev.dma c).beat (s.dev.dma c).dst (ctlDinc (s.dev.dma c).ctl) (ctlDw (s.dev.dma c).ctl) ((s.dev.dma c).read - (s.dev.dma c).buf.length + k)) 0 + (ctlDw (s.dev.dma c).ctl)) ∧
      d.num (DMA.CH_DONE c) = s.dev.num (DMA.CH_DONE c) + (ctlDw (s.dev.dma c).ctl)) ∧
  (∀ (c : Fin 16), s.dev.dmaMayWrite c = true → (s.dev.dma c).held = false → (s.dev.dmaState c = 3 ∨ s.dev.dmaState c = 4) →
      (ctlDw (s.dev.dma c).ctl) ≤ (s.dev.dma c).buf.length → (s.dev.dma c).flips = [] →
      (s.dev.dma c).buf.drop (ctlDw (s.dev.dma c).ctl) = [] → (s.dev.dma c).len ≤ (s.dev.dma c).read →
      (s.dev.grp (dmaGroup c.val)).st ≠ .pending →
      s.dev.memTakes (s.dev.dmaAgent c) ((fun k => (s.dev.dma c).beat (s.dev.dma c).dst (ctlDinc (s.dev.dma c).ctl) (ctlDw (s.dev.dma c).ctl) ((s.dev.dma c).read - (s.dev.dma c).buf.length + k)) 0) (ctlDw (s.dev.dma c).ctl) = true →
      s.dev.num (DMA.CH_DONE c) ≤ 0x01000000 → (s.dev.dma c).cpl = false → ctlChain (s.dev.dma c).ctl = true →
      Does (.dmaWriteAnswered c) s fun d =>
      d.dma c = { chained := true, rdTurn := (s.dev.dma c).rdTurn, wrTurn := nextTurn fun q => (s.dev.dma q).wrTurn } ∧
      d.dmaIn c 1 ∧ d.flag (DMA.CH_FLAGS_DONE c) = true ∧ d.reg64 (DMA.CH_CUR c) = BitVec.ofNat 64 (s.dev.dma c).next ∧
      s.dev.raised d ((if (ctlHalf (s.dev.dma c).ctl && !(s.dev.dma c).half && decide (((s.dev.dma c).len + 2 * (ctlDw (s.dev.dma c).ctl) - 1) / (2 * (ctlDw (s.dev.dma c).ctl)) * (ctlDw (s.dev.dma c).ctl) ≤ s.dev.num (DMA.CH_DONE c) + (ctlDw (s.dev.dma c).ctl))) then [1128 + 4 * c.val] else []) ++ (if ctlFull (s.dev.dma c).ctl then [1129 + 4 * c.val] else [])) ∧
      { s.dev with mem := d.mem }.dmaAlone d c [DMA.CH_DONE c, DMA.CH_FLAGS c, DMA.CH_CUR c, DMA.CH_CUR c + 4] ∧
      s.dev.noRecord d ∧
      d.bytes ((fun k => (s.dev.dma c).beat (s.dev.dma c).dst (ctlDinc (s.dev.dma c).ctl) (ctlDw (s.dev.dma c).ctl) ((s.dev.dma c).read - (s.dev.dma c).buf.length + k)) 0) (ctlDw (s.dev.dma c).ctl) = (s.dev.dma c).buf.take (ctlDw (s.dev.dma c).ctl) ∧
      s.dev.bytesKept d ((fun k => (s.dev.dma c).beat (s.dev.dma c).dst (ctlDinc (s.dev.dma c).ctl) (ctlDw (s.dev.dma c).ctl) ((s.dev.dma c).read - (s.dev.dma c).buf.length + k)) 0) ((fun k => (s.dev.dma c).beat (s.dev.dma c).dst (ctlDinc (s.dev.dma c).ctl) (ctlDw (s.dev.dma c).ctl) ((s.dev.dma c).read - (s.dev.dma c).buf.length + k)) 0 + (ctlDw (s.dev.dma c).ctl)) ∧
      d.num (DMA.CH_DONE c) = s.dev.num (DMA.CH_DONE c) + (ctlDw (s.dev.dma c).ctl)) ∧
  (∀ (c : Fin 16), s.dev.dmaMayWrite c = true → (s.dev.dma c).held = false → (s.dev.dmaState c = 3 ∨ s.dev.dmaState c = 4) →
      (ctlDw (s.dev.dma c).ctl) ≤ (s.dev.dma c).buf.length → (s.dev.dma c).flips = [] →
      (s.dev.dma c).buf.drop (ctlDw (s.dev.dma c).ctl) = [] → (s.dev.dma c).len ≤ (s.dev.dma c).read →
      (s.dev.grp (dmaGroup c.val)).st ≠ .pending →
      s.dev.memTakes (s.dev.dmaAgent c) ((fun k => (s.dev.dma c).beat (s.dev.dma c).dst (ctlDinc (s.dev.dma c).ctl) (ctlDw (s.dev.dma c).ctl) ((s.dev.dma c).read - (s.dev.dma c).buf.length + k)) 0) (ctlDw (s.dev.dma c).ctl) = true →
      s.dev.num (DMA.CH_DONE c) ≤ 0x01000000 → (s.dev.dma c).cpl = true → ctlChain (s.dev.dma c).ctl = false →
      ((s.dev.reg64 (DMA.CH_CPL c)).toNat % 2 ^ 40) ≠ 0 →
      s.dev.memTakes (s.dev.dmaAgent c) (((s.dev.reg64 (DMA.CH_CPL c)).toNat % 2 ^ 40) + 32 * (s.dev.num (DMA.CH_SEQ c) % 2 ^ s.dev.fld (DMA.CH_CPL_SIZE c))) 32 = true →
      ((fun k => (s.dev.dma c).beat (s.dev.dma c).dst (ctlDinc (s.dev.dma c).ctl) (ctlDw (s.dev.dma c).ctl) ((s.dev.dma c).read - (s.dev.dma c).buf.length + k)) 0 + (ctlDw (s.dev.dma c).ctl) ≤ (((s.dev.reg64 (DMA.CH_CPL c)).toNat % 2 ^ 40) + 32 * (s.dev.num (DMA.CH_SEQ c) % 2 ^ s.dev.fld (DMA.CH_CPL_SIZE c))) ∨ (((s.dev.reg64 (DMA.CH_CPL c)).toNat % 2 ^ 40) + 32 * (s.dev.num (DMA.CH_SEQ c) % 2 ^ s.dev.fld (DMA.CH_CPL_SIZE c))) + 32 ≤ (fun k => (s.dev.dma c).beat (s.dev.dma c).dst (ctlDinc (s.dev.dma c).ctl) (ctlDw (s.dev.dma c).ctl) ((s.dev.dma c).read - (s.dev.dma c).buf.length + k)) 0) →
      Does (.dmaWriteAnswered c) s fun d =>
      d.dma c = { (s.dev.dma c) with buf := [], half := (s.dev.dma c).half || (ctlHalf (s.dev.dma c).ctl && !(s.dev.dma c).half && decide (((s.dev.dma c).len + 2 * (ctlDw (s.dev.dma c).ctl) - 1) / (2 * (ctlDw (s.dev.dma c).ctl)) * (ctlDw (s.dev.dma c).ctl) ≤ s.dev.num (DMA.CH_DONE c) + (ctlDw (s.dev.dma c).ctl))), since := (if 4096 < (s.dev.dma c).buf.length + (ctlSw (s.dev.dma c).ctl) then s.dev.now else (s.dev.dma c).since), wrTurn := nextTurn fun q => (s.dev.dma q).wrTurn } ∧
      d.dmaIn c 5 ∧
      d.bytes (((s.dev.reg64 (DMA.CH_CPL c)).toNat % 2 ^ 40) + 32 * (s.dev.num (DMA.CH_SEQ c) % 2 ^ s.dev.fld (DMA.CH_CPL_SIZE c))) 32 = toBytes 8 (s.dev.reg64 (DMA.CH_CUR c)).toNat ++ toBytes 8 0 ++ toBytes 4 (s.dev.num (DMA.CH_DONE c) + (ctlDw (s.dev.dma c).ctl)) ++ [1, 0] ++ toBytes 2 (s.dev.num (DMA.CH_SEQ c)) ++ toBytes 8 s.dev.nowNs.toNat ∧
      d.reg (DMA.CH_SEQ c) = s.dev.reg (DMA.CH_SEQ c) + 1 ∧
      { s.dev with mem := d.mem }.dmaAlone d c [DMA.CH_DONE c, DMA.CH_FLAGS c, DMA.CH_SEQ c] ∧ s.dev.noRecord d ∧
      d.bytes ((fun k => (s.dev.dma c).beat (s.dev.dma c).dst (ctlDinc (s.dev.dma c).ctl) (ctlDw (s.dev.dma c).ctl) ((s.dev.dma c).read - (s.dev.dma c).buf.length + k)) 0) (ctlDw (s.dev.dma c).ctl) = (s.dev.dma c).buf.take (ctlDw (s.dev.dma c).ctl) ∧
      d.num (DMA.CH_DONE c) = s.dev.num (DMA.CH_DONE c) + (ctlDw (s.dev.dma c).ctl)) ∧
  (∀ (c : Fin 16), s.dev.dmaMayWrite c = true → (s.dev.dma c).held = false → (s.dev.dmaState c = 3 ∨ s.dev.dmaState c = 4) →
      (ctlDw (s.dev.dma c).ctl) ≤ (s.dev.dma c).buf.length → (s.dev.dma c).flips = [] →
      (s.dev.grp (dmaGroup c.val)).st ≠ .pending → (s.dev.dma c).cpl = false →
      s.dev.memBeat ((fun k => (s.dev.dma c).beat (s.dev.dma c).dst (ctlDinc (s.dev.dma c).ctl) (ctlDw (s.dev.dma c).ctl) ((s.dev.dma c).read - (s.dev.dma c).buf.length + k)) 0) (ctlDw (s.dev.dma c).ctl) = true →
      (s.dev.storable ((fun k => (s.dev.dma c).beat (s.dev.dma c).dst (ctlDinc (s.dev.dma c).ctl) (ctlDw (s.dev.dma c).ctl) ((s.dev.dma c).read - (s.dev.dma c).buf.length + k)) 0) && s.dev.memMapped ((fun k => (s.dev.dma c).beat (s.dev.dma c).dst (ctlDinc (s.dev.dma c).ctl) (ctlDw (s.dev.dma c).ctl) ((s.dev.dma c).read - (s.dev.dma c).buf.length + k)) 0) (ctlDw (s.dev.dma c).ctl) && s.dev.memOpen (s.dev.dmaAgent c) ((fun k => (s.dev.dma c).beat (s.dev.dma c).dst (ctlDinc (s.dev.dma c).ctl) (ctlDw (s.dev.dma c).ctl) ((s.dev.dma c).read - (s.dev.dma c).buf.length + k)) 0) (ctlDw (s.dev.dma c).ctl) true) = false →
      Does (.dmaWriteAnswered c) s fun d =>
      s.dev.dmaFailed d c 2 (BitVec.ofNat 64 (2 ^ 63 + (fun k => (s.dev.dma c).beat (s.dev.dma c).dst (ctlDinc (s.dev.dma c).ctl) (ctlDw (s.dev.dma c).ctl) ((s.dev.dma c).read - (s.dev.dma c).buf.length + k)) 0)) { (s.dev.dma c) with since := (if 4096 < (s.dev.dma c).buf.length + (ctlSw (s.dev.dma c).ctl) then s.dev.now else (s.dev.dma c).since), wrTurn := nextTurn fun q => (s.dev.dma q).wrTurn } [] ∧
      s.dev.noRecord d) ∧
  (∀ (c : Fin 16), s.dev.dmaMayWrite c = true → (s.dev.dma c).held = false → (s.dev.dmaState c = 3 ∨ s.dev.dmaState c = 4) →
      (ctlDw (s.dev.dma c).ctl) ≤ (s.dev.dma c).buf.length → (s.dev.dma c).flips = [] →
      (ctlBurst (s.dev.dma c).ctl = 1 ∨ (s.dev.dma c).buf.length < 2 * (ctlDw (s.dev.dma c).ctl) ∨ (fun k => (s.dev.dma c).beat (s.dev.dma c).dst (ctlDinc (s.dev.dma c).ctl) (ctlDw (s.dev.dma c).ctl) ((s.dev.dma c).read - (s.dev.dma c).buf.length + k)) (ctlDw (s.dev.dma c).ctl) / 1024 ≠ (fun k => (s.dev.dma c).beat (s.dev.dma c).dst (ctlDinc (s.dev.dma c).ctl) (ctlDw (s.dev.dma c).ctl) ((s.dev.dma c).read - (s.dev.dma c).buf.length + k)) 0 / 1024) →
      s.dev.num (DMA.CH_DONE c) ≤ 0x01000000 →
      ((s.dev.dma c).buf.drop (ctlDw (s.dev.dma c).ctl) ≠ [] ∨ (s.dev.dma c).read < (s.dev.dma c).len) →
      (s.dev.hostWindow ((fun k => (s.dev.dma c).beat (s.dev.dma c).dst (ctlDinc (s.dev.dma c).ctl) (ctlDw (s.dev.dma c).ctl) ((s.dev.dma c).read - (s.dev.dma c).buf.length + k)) 0) (ctlDw (s.dev.dma c).ctl)).isSome = true →
      Does (.dmaWriteAnswered c) s fun d =>
      d.sent = [.hostWrite (s.dev.reg64 HOST.OUT_BASE + BitVec.ofNat 64 (((fun k => (s.dev.dma c).beat (s.dev.dma c).dst (ctlDinc (s.dev.dma c).ctl) (ctlDw (s.dev.dma c).ctl) ((s.dev.dma c).read - (s.dev.dma c).buf.length + k)) 0) - 0x0800000000)) ((s.dev.dma c).buf.take (ctlDw (s.dev.dma c).ctl))] ∧
      d.dma c = { (s.dev.dma c) with buf := (s.dev.dma c).buf.drop (ctlDw (s.dev.dma c).ctl), half := (s.dev.dma c).half || (ctlHalf (s.dev.dma c).ctl && !(s.dev.dma c).half && decide (((s.dev.dma c).len + 2 * (ctlDw (s.dev.dma c).ctl) - 1) / (2 * (ctlDw (s.dev.dma c).ctl)) * (ctlDw (s.dev.dma c).ctl) ≤ s.dev.num (DMA.CH_DONE c) + (ctlDw (s.dev.dma c).ctl))), since := (if 4096 < (s.dev.dma c).buf.length + (ctlSw (s.dev.dma c).ctl) then s.dev.now else (s.dev.dma c).since), wrTurn := nextTurn fun q => (s.dev.dma q).wrTurn } ∧
      d.num (DMA.CH_DONE c) = s.dev.num (DMA.CH_DONE c) + (ctlDw (s.dev.dma c).ctl) ∧ s.dev.dmaAlone d c [DMA.CH_DONE c] ∧
      s.dev.noRecord d) ∧
  (∀ (c : Fin 16), (s.dev.grp (dmaGroup c.val)).st ≠ .pending → (s.dev.dma c).held = true →
      s.dev.agentWaits (s.dev.dmaAgent c) = true → Does (.dmaWriteAnswered c) s fun d => d.answer = .waits ∧ s.dev.keepsUnits d ∧
      s.dev.keepsRegs d []) ∧
  (∀ (c : Fin 16), (s.dev.grp (dmaGroup c.val)).st ≠ .pending → (s.dev.dma c).held = false → s.dev.dmaMayWrite c = false →
      Does (.dmaWriteAnswered c) s fun d => d.answer = .ignored ∧ s.dev.keepsUnits d ∧ s.dev.keepsRegs d [])

/-- For every state: of the raises that wait the one stamped first is delivered, of one nanosecond the one of the lowest ID, once its nanosecond has ended; its RAISED bit is set whatever the route, and its ROUTE word sends it to the line of each core named that is not in RESET or STOPPED, to a thread's event input, to a host ring as an EVENT record, and over the tie link to each peer; a DMA channel and a trace unit that select it receive it. SW_RAISE and DOORBELL raise their events. No record of the Ledger is made by a delivery. That a delivery is a command of its own, given after its nanosecond, is the model's form (log entry 1). Where a clause rests on a reading or a choice of the model, it is the model's and not the spec's: log entry 119. -/
def Obligations.EventDelivery : Prop :=
  ∀ s : State,
  (∀ (r : Raised) (l m : List Raised), s.dev.events = l ++ r :: m → comesFirst r l m = true → r.id < 1536 →
      r.stamp ≠ floorNs s.dev.now → s.dev.unheard r.id = true → s.dev.fld (JUNCTION.ROUTE_CORES r.id) = 0 →
      wordBit (s.dev.reg (JUNCTION.ROUTE r.id)) 23 = false → wordBit (s.dev.reg (JUNCTION.ROUTE r.id)) 27 = false →
      wordBit (s.dev.reg (JUNCTION.ROUTE r.id)) 31 = false → Does (.eventRaise) s fun d => l ++ m <+: d.events ∧
      d.mapBit (JUNCTION.RAISED 0) r.id = true ∧ (∀ k : Fin 1536, k.val ≠ r.id →
      d.mapBit (JUNCTION.RAISED 0) k = s.dev.mapBit (JUNCTION.RAISED 0) k) ∧ s.dev.keepsHost d [] ∧ s.dev.keepsUnits d ∧
      s.dev.keepsRegs d [JUNCTION.RAISED (r.id / 32)] ∧ s.dev.noRecord d) ∧
  (∀ (r : Raised) (l m : List Raised), s.dev.events = l ++ r :: m → comesFirst r l m = true → r.id < 1536 →
      r.stamp ≠ floorNs s.dev.now → s.dev.unheard r.id = true → wordBit (s.dev.reg (JUNCTION.ROUTE r.id)) 23 = false →
      wordBit (s.dev.reg (JUNCTION.ROUTE r.id)) 27 = false → wordBit (s.dev.reg (JUNCTION.ROUTE r.id)) 31 = false →
      ((List.range 4).all fun c => !s.dev.lockstep c) = true → Does (.eventRaise) s fun d => l ++ m <+: d.events ∧
      d.mapBit (JUNCTION.RAISED 0) r.id = true ∧ (∀ k : Fin 1536, k.val ≠ r.id →
      d.mapBit (JUNCTION.RAISED 0) k = s.dev.mapBit (JUNCTION.RAISED 0) k) ∧
      (∀ c : Fin 4, d.core c.val = if (bitOf (s.dev.fld (JUNCTION.ROUTE_CORES r.id)) c.val && decide (s.dev.coreState c.val ≠ 0 ∧
      s.dev.coreState c.val ≠ 5)) then (let cs := s.dev.core c.val; if cs.lineBit CORE.EVC_PEND (s.dev.fld (JUNCTION.ROUTE_LINE r.id)) then cs.setLineBit CORE.EVC_MERGED (s.dev.fld (JUNCTION.ROUTE_LINE r.id)) true else cs.setLineBit CORE.EVC_PEND (s.dev.fld (JUNCTION.ROUTE_LINE r.id)) true) else s.dev.core c.val) ∧
      (∀ c : Fin 4, d.coreState c.val = s.dev.coreState c.val) ∧ Tab.keeps {} [0, 1, 2, 3] s.dev.cores d.cores ∧
      { s.dev with cores := d.cores }.keepsUnits d ∧
      s.dev.keepsRegs d [JUNCTION.RAISED (r.id / 32), CORES.CORE_STATUS 0, CORES.CORE_STATUS 1, CORES.CORE_STATUS 2, CORES.CORE_STATUS 3] ∧
      s.dev.noRecord d) ∧
  (∀ (r : Raised) (l m : List Raised), s.dev.events = l ++ r :: m → comesFirst r l m = true → r.id < 1536 →
      r.stamp ≠ floorNs s.dev.now → s.dev.unheard r.id = true → wordBit (s.dev.reg (JUNCTION.ROUTE r.id)) 23 = false →
      wordBit (s.dev.reg (JUNCTION.ROUTE r.id)) 27 = false → wordBit (s.dev.reg (JUNCTION.ROUTE r.id)) 31 = false →
      bitsOf (s.dev.fld (JUNCTION.ROUTE_CORES r.id)) 1 0 ≠ 0 → bitsOf (s.dev.fld (JUNCTION.ROUTE_CORES r.id)) 3 2 = 0 →
      s.dev.lockstep 0 = true → s.dev.lockstep 1 = true → s.dev.coreState 0 = 2 → s.dev.coreState 1 = 2 →
      Does (.eventRaise) s fun d => l ++ m <+: d.events ∧ d.mapBit (JUNCTION.RAISED 0) r.id = true ∧
      (∀ k : Fin 1536, k.val ≠ r.id → d.mapBit (JUNCTION.RAISED 0) k = s.dev.mapBit (JUNCTION.RAISED 0) k) ∧
      (∀ c : Fin 2, d.core c.val = (let cs := s.dev.core c.val; if cs.lineBit CORE.EVC_PEND (s.dev.fld (JUNCTION.ROUTE_LINE r.id)) then cs.setLineBit CORE.EVC_MERGED (s.dev.fld (JUNCTION.ROUTE_LINE r.id)) true else cs.setLineBit CORE.EVC_PEND (s.dev.fld (JUNCTION.ROUTE_LINE r.id)) true)) ∧
      Tab.keeps {} [0, 1] s.dev.cores d.cores ∧ { s.dev with cores := d.cores }.keepsUnits d ∧
      s.dev.keepsRegs d [JUNCTION.RAISED (r.id / 32), CORES.CORE_STATUS 0, CORES.CORE_STATUS 1, CORES.CORE_STATUS 2, CORES.CORE_STATUS 3] ∧
      s.dev.noRecord d) ∧
  (∀ (r : Raised) (l m : List Raised), s.dev.events = l ++ r :: m → comesFirst r l m = true → r.id < 1536 →
      r.stamp ≠ floorNs s.dev.now → s.dev.unheard r.id = true → s.dev.fld (JUNCTION.ROUTE_CORES r.id) = 0 →
      wordBit (s.dev.reg (JUNCTION.ROUTE r.id)) 23 = false → wordBit (s.dev.reg (JUNCTION.ROUTE r.id)) 31 = false →
      wordBit (s.dev.reg (JUNCTION.ROUTE r.id)) 27 = true → Does (.eventRaise) s fun d => l ++ m <+: d.events ∧
      d.mapBit (JUNCTION.RAISED 0) r.id = true ∧ (∀ k : Fin 1536, k.val ≠ r.id →
      d.mapBit (JUNCTION.RAISED 0) k = s.dev.mapBit (JUNCTION.RAISED 0) k) ∧
      d.fld (ROUND.THR_EVPEND_PEND (s.dev.fld (JUNCTION.ROUTE_THREAD r.id))) = s.dev.fld (ROUND.THR_EVPEND_PEND (s.dev.fld (JUNCTION.ROUTE_THREAD r.id))) ||| 2 ^ (s.dev.fld (JUNCTION.ROUTE_INPUT r.id)) ∧
      s.dev.keepsUnits d ∧
      s.dev.keepsRegs d [JUNCTION.RAISED (r.id / 32), ROUND.THR_EVPEND (s.dev.fld (JUNCTION.ROUTE_THREAD r.id))] ∧
      s.dev.noRecord d) ∧
  (∀ (r : Raised) (l m : List Raised), s.dev.events = l ++ r :: m → comesFirst r l m = true → r.id < 1536 →
      r.stamp ≠ floorNs s.dev.now → s.dev.unheard r.id = true → s.dev.fld (JUNCTION.ROUTE_CORES r.id) = 0 →
      wordBit (s.dev.reg (JUNCTION.ROUTE r.id)) 23 = false → wordBit (s.dev.reg (JUNCTION.ROUTE r.id)) 27 = false →
      wordBit (s.dev.reg (JUNCTION.ROUTE r.id)) 31 = true →
      s.dev.ringTakes ({ ring := s.dev.fld (JUNCTION.ROUTE_RING r.id), typ := 1, event := BitVec.ofNat 16 r.id, agent := (if 800 ≤ r.id ∧
      r.id < 928 then 0x0200 + BitVec.ofNat 16 ((r.id - 800) / 2) else r.agent), time := r.stamp, payload := toBytes 2 r.value.toNat } : HostRec) = true →
      Does (.eventRaise) s fun d => l ++ m <+: d.events ∧ d.mapBit (JUNCTION.RAISED 0) r.id = true ∧
      (∀ k : Fin 1536, k.val ≠ r.id → d.mapBit (JUNCTION.RAISED 0) k = s.dev.mapBit (JUNCTION.RAISED 0) k) ∧
      d.hostQ = s.dev.hostQ ++ [({ ring := s.dev.fld (JUNCTION.ROUTE_RING r.id), typ := 1, event := BitVec.ofNat 16 r.id, agent := (if 800 ≤ r.id ∧
      r.id < 928 then 0x0200 + BitVec.ofNat 16 ((r.id - 800) / 2) else r.agent), time := r.stamp, payload := toBytes 2 r.value.toNat } : HostRec)] ∧
      s.dev.keepsHost d [] ∧ s.dev.keepsUnits d ∧ s.dev.keepsRegs d [JUNCTION.RAISED (r.id / 32)] ∧ s.dev.noRecord d) ∧
  (∀ (r : Raised) (l m : List Raised) (q j : Nat), s.dev.events = l ++ r :: m → comesFirst r l m = true → r.id < 1536 →
      r.stamp ≠ floorNs s.dev.now → s.dev.unheard r.id = true → s.dev.fld (JUNCTION.ROUTE_CORES r.id) = 0 →
      wordBit (s.dev.reg (JUNCTION.ROUTE r.id)) 27 = false → wordBit (s.dev.reg (JUNCTION.ROUTE r.id)) 31 = false →
      wordBit (s.dev.reg (JUNCTION.ROUTE r.id)) 23 = true → s.dev.tieOn = true → s.dev.tiePeers = [q] →
      (List.range 32).filter (fun j => s.dev.flag (JUNCTION.TIE_FWD_VALID j) && decide (s.dev.fld (JUNCTION.TIE_FWD_SOURCE j) = r.id)) = [j] →
      s.dev.tie.unacked = [] → Does (.eventRaise) s fun d => l ++ m <+: d.events ∧ d.mapBit (JUNCTION.RAISED 0) r.id = true ∧
      (∀ k : Fin 1536, k.val ≠ r.id → d.mapBit (JUNCTION.RAISED 0) k = s.dev.mapBit (JUNCTION.RAISED 0) k) ∧
      d.tie = { s.dev.tie with seq := s.dev.tie.seq + 1, unacked := s.dev.tie.unacked ++ [{ seq := s.dev.tie.seq, typ := 5, peer := q, body := [BitVec.ofNat 8 s.dev.tiePos, BitVec.ofNat 8 j], nextAt := s.dev.now + nsT 1000 }] } ∧
      d.sent = [.frame s.dev.tieLane 5 s.dev.tie.seq [BitVec.ofNat 8 s.dev.tiePos, BitVec.ofNat 8 j]] ∧
      { s.dev with tie := d.tie }.keepsUnits d ∧ s.dev.keepsRegs d [JUNCTION.RAISED (r.id / 32)] ∧ s.dev.noRecord d) ∧
  (∀ (r : Raised) (l m : List Raised) (c : Fin 16), s.dev.events = l ++ r :: m → comesFirst r l m = true → r.id < 1536 →
      r.stamp ≠ floorNs s.dev.now → s.dev.fld (JUNCTION.ROUTE_CORES r.id) = 0 →
      wordBit (s.dev.reg (JUNCTION.ROUTE r.id)) 23 = false → wordBit (s.dev.reg (JUNCTION.ROUTE r.id)) 27 = false →
      wordBit (s.dev.reg (JUNCTION.ROUTE r.id)) 31 = false →
      ((List.range 16).all fun k => decide (s.dev.fld (DMA.CH_CFG_TRIG_EVENT k) = r.id) == decide (k = c.val)) = true →
      s.dev.flag (DMA.CH_CFG_TRIG_EN c.val) = true → s.dev.flag (DMA.CH_STATUS_TRIG_PEND c.val) = false →
      s.dev.dmaState c.val ≠ 2 → ((List.range 4).all fun u => decide (s.dev.fld (LOOP.TRC_TRIG_EVENT u) ≠ r.id)) = true →
      ((List.range 8).all fun k => decide (s.dev.fld (PHASE.PH_RAIL_ADD_ADD_EVENT k) ≠ r.id)) = true →
      Does (.eventRaise) s fun d => l ++ m <+: d.events ∧ d.mapBit (JUNCTION.RAISED 0) r.id = true ∧
      (∀ k : Fin 1536, k.val ≠ r.id → d.mapBit (JUNCTION.RAISED 0) k = s.dev.mapBit (JUNCTION.RAISED 0) k) ∧
      d.dma c.val = s.dev.dma c.val ∧ d.flag (DMA.CH_STATUS_TRIG_PEND c.val) = true ∧ d.dmaState c.val = s.dev.dmaState c.val ∧
      s.dev.keepsUnits d ∧ s.dev.keepsRegs d [JUNCTION.RAISED (r.id / 32), DMA.CH_STATUS c.val] ∧ s.dev.noRecord d) ∧
  (∀ (r : Raised) (l m : List Raised) (u : Fin 4), s.dev.events = l ++ r :: m → comesFirst r l m = true → r.id < 1536 →
      r.stamp ≠ floorNs s.dev.now → s.dev.fld (JUNCTION.ROUTE_CORES r.id) = 0 →
      wordBit (s.dev.reg (JUNCTION.ROUTE r.id)) 23 = false → wordBit (s.dev.reg (JUNCTION.ROUTE r.id)) 27 = false →
      wordBit (s.dev.reg (JUNCTION.ROUTE r.id)) 31 = false → ((List.range 4).all fun k => decide (s.dev.trcState k = 1 ∧
      s.dev.fld (LOOP.TRC_CFG_TRIG_SRC k) = 2 ∧ s.dev.fld (LOOP.TRC_TRIG_EVENT k) = r.id) == decide (k = u.val)) = true →
      ((List.range 16).all fun k => decide (s.dev.fld (DMA.CH_CFG_TRIG_EVENT k) ≠ r.id)) = true →
      ((List.range 8).all fun k => decide (s.dev.fld (PHASE.PH_RAIL_ADD_ADD_EVENT k) ≠ r.id)) = true →
      Does (.eventRaise) s fun d => l ++ m <+: d.events ∧ d.mapBit (JUNCTION.RAISED 0) r.id = true ∧
      (∀ k : Fin 1536, k.val ≠ r.id → d.mapBit (JUNCTION.RAISED 0) k = s.dev.mapBit (JUNCTION.RAISED 0) k) ∧
      d.trc u.val = { s.dev.trc u.val with event := true } ∧ Tab.keeps {} [u.val] s.dev.traces d.traces ∧
      { s.dev with traces := d.traces }.keepsUnits d ∧ s.dev.keepsRegs d [JUNCTION.RAISED (r.id / 32)] ∧ s.dev.noRecord d) ∧
  (∀ (r : Raised) (l m : List Raised), s.dev.events = l ++ r :: m → comesFirst r l m = true → r.stamp = floorNs s.dev.now →
      Does (.eventRaise) s fun d => d.answer = .waits ∧ s.dev.events <+: d.events ∧ s.dev.keepsUnits d ∧ s.dev.keepsRegs d []) ∧
  (s.dev.events = [] → Does (.eventRaise) s fun d => s.dev.keepsUnits d ∧ s.dev.keepsRegs d [] ∧ s.dev.noRecord d) ∧
  (∀ (a : Agent) (v : Word), s.dev.takes a.id JUNCTION.SW_RAISE v = true → Does (.swRaise a v) s fun d => d.answer = .ok ∧
      s.dev.events ++ [{ id := bitsOf v.toNat 26 16, value := v.setWidth 16, agent := a.id, stamp := floorNs s.dev.now }] <+: d.events ∧
      s.dev.keepsRegs d [JUNCTION.SW_RAISE] ∧ s.dev.keepsUnits d ∧
      s.dev.oneRecord d (wordRecord s.dev.nowNs .live 0 a.id JUNCTION.SW_RAISE v 0)) ∧
  (∀ (a : Agent) (v : Word), s.dev.takes a.id HOST.DOORBELL v = true → Does (.hostDoorbell a v) s fun d => d.answer = .ok ∧
      s.dev.raised d (((List.range 8).filter fun n => wordBit v n).map fun n => 1195 + n) ∧ s.dev.keepsRegs d [] ∧
      s.dev.keepsUnits d ∧ s.dev.oneRecord d (wordRecord s.dev.nowNs .live 0 a.id HOST.DOORBELL v 0))

/-- For every state with the link up, a host read through a BAR answers the bytes of memory or the register word, or an abort where it is refused or not of its width, and a posted write stores, has the effect of the register write, or is discarded; both wait behind a host write that waits. The link going down clears LINK_STATUS, disables the rings, drops and counts the queued records, and makes event, fault occurrence and SYSTEM record; training shows speed and width; a function reset returns the ring and window registers. The oldest record of a ring with room is written to its slot with its sequence, and the message is sent after COUNT records or TIME_US. Enabling a ring zeroes HEAD and TAIL. A telemetry snapshot queues a record of each valid entry, in order. Where a clause rests on a reading or a choice of the model, it is the model's and not the spec's: log entries 43, 115, 128, 129, 130, 131 and 132. -/
def Obligations.HostInterface : Prop :=
  ∀ s : State,
  (∀ (bar : Fin 3) (off n : Nat), s.dev.hostUp = true → s.dev.agentWaits 0x0400 = false → bar ≠ 0 → n ≠ 0 →
      off + n ≤ (if bar = 1 then 0x800000 else 0x1000000) →
      (!inPeripherals (if bar = 1 then 0x10000000 + off else (s.dev.reg64 HOST.BAR4_WIN).toNat % 2 ^ 40 + off) && !inCoef (if bar = 1 then 0x10000000 + off else (s.dev.reg64 HOST.BAR4_WIN).toNat % 2 ^ 40 + off) && !inTrace (if bar = 1 then 0x10000000 + off else (s.dev.reg64 HOST.BAR4_WIN).toNat % 2 ^ 40 + off) && decide (s.dev.memCode (if bar = 1 then 0x10000000 + off else (s.dev.reg64 HOST.BAR4_WIN).toNat % 2 ^ 40 + off) ≠ some 0x40) && s.dev.memMapped (if bar = 1 then 0x10000000 + off else (s.dev.reg64 HOST.BAR4_WIN).toNat % 2 ^ 40 + off) n && s.dev.memOpen 0x0400 (if bar = 1 then 0x10000000 + off else (s.dev.reg64 HOST.BAR4_WIN).toNat % 2 ^ 40 + off) n false) = true →
      s.dev.ecc = [] → Does (.hostBarRead bar off n) s fun d =>
      d.answer = .data (s.dev.beatBytes (if bar = 1 then 0x10000000 + off else (s.dev.reg64 HOST.BAR4_WIN).toNat % 2 ^ 40 + off) n) ∧
      s.dev.keepsUnits d ∧ s.dev.keepsRegs d [] ∧ s.dev.keepsHost d [] ∧ s.dev.noRecord d) ∧
  (∀ (bar : Fin 3) (off n : Nat), s.dev.hostUp = true → s.dev.agentWaits 0x0400 = false → bar ≠ 0 → n ≠ 0 →
      off + n ≤ (if bar = 1 then 0x800000 else 0x1000000) →
      (!inPeripherals (if bar = 1 then 0x10000000 + off else (s.dev.reg64 HOST.BAR4_WIN).toNat % 2 ^ 40 + off) && !inCoef (if bar = 1 then 0x10000000 + off else (s.dev.reg64 HOST.BAR4_WIN).toNat % 2 ^ 40 + off) && !inTrace (if bar = 1 then 0x10000000 + off else (s.dev.reg64 HOST.BAR4_WIN).toNat % 2 ^ 40 + off) && decide (s.dev.memCode (if bar = 1 then 0x10000000 + off else (s.dev.reg64 HOST.BAR4_WIN).toNat % 2 ^ 40 + off) ≠ some 0x40) && s.dev.memMapped (if bar = 1 then 0x10000000 + off else (s.dev.reg64 HOST.BAR4_WIN).toNat % 2 ^ 40 + off) n && s.dev.memOpen 0x0400 (if bar = 1 then 0x10000000 + off else (s.dev.reg64 HOST.BAR4_WIN).toNat % 2 ^ 40 + off) n false) = true →
      s.dev.ecc = [] → Does (.hostBarRead bar off n) s fun d =>
      d.answer = .data (s.dev.beatBytes (if bar = 1 then 0x10000000 + off else (s.dev.reg64 HOST.BAR4_WIN).toNat % 2 ^ 40 + off) n) ∧
      s.dev.keepsUnits d ∧ s.dev.keepsRegs d [] ∧ s.dev.keepsHost d [] ∧ s.dev.noRecord d) ∧
  (∀ (bar : Fin 3) (off n : Nat), s.dev.hostUp = true → s.dev.agentWaits 0x0400 = false → bar ≠ 0 → n ≠ 0 →
      off + n ≤ (if bar = 1 then 0x800000 else 0x1000000) →
      (!inPeripherals (if bar = 1 then 0x10000000 + off else (s.dev.reg64 HOST.BAR4_WIN).toNat % 2 ^ 40 + off) && !inCoef (if bar = 1 then 0x10000000 + off else (s.dev.reg64 HOST.BAR4_WIN).toNat % 2 ^ 40 + off) && !inTrace (if bar = 1 then 0x10000000 + off else (s.dev.reg64 HOST.BAR4_WIN).toNat % 2 ^ 40 + off) && decide (s.dev.memCode (if bar = 1 then 0x10000000 + off else (s.dev.reg64 HOST.BAR4_WIN).toNat % 2 ^ 40 + off) ≠ some 0x40) && !(s.dev.memMapped (if bar = 1 then 0x10000000 + off else (s.dev.reg64 HOST.BAR4_WIN).toNat % 2 ^ 40 + off) n && s.dev.memOpen 0x0400 (if bar = 1 then 0x10000000 + off else (s.dev.reg64 HOST.BAR4_WIN).toNat % 2 ^ 40 + off) n false)) = true →
      Does (.hostBarRead bar off n) s fun d => d.answer = .busError ∧ s.dev.keepsUnits d ∧ s.dev.keepsRegs d [] ∧
      s.dev.keepsHost d [] ∧ s.dev.noRecord d) ∧
  (∀ (bar : Fin 3) (off n : Nat), s.dev.hostUp = true → s.dev.agentWaits 0x0400 = false → (n = 0 ∨ (bar = 0 ∧
      (n ≠ 4 ∨ off % 4 ≠ 0)) ∨ (if bar = 1 then 0x800000 else 0x1000000) < off + n) → Does (.hostBarRead bar off n) s fun d =>
      d.answer = .busError ∧ s.dev.keepsUnits d ∧ s.dev.keepsRegs d [] ∧ s.dev.keepsHost d [] ∧ s.dev.noRecord d) ∧
  (∀ (off : Nat), s.dev.hostUp = true → s.dev.agentWaits 0x0400 = false → off < 0x1000000 → off % 4 = 0 →
      s.dev.blkLevel 0x0400 (off / 0x10000) ≠ 0 → blockExists (off / 0x10000) = true → streamAt off = none →
      wideBase off = none → Does (.hostBarRead 0 off 4) s fun d =>
      d.answer = .data (toBytes 4 (s.dev.readWord 0x0400 off).toNat) ∧ s.dev.keepsUnits d ∧ s.dev.keepsRegs d [] ∧
      s.dev.keepsHost d [] ∧ s.dev.noRecord d) ∧
  (∀ (bar : Fin 3) (off n : Nat), s.dev.hostUp = true → s.dev.agentWaits 0x0400 = true → Does (.hostBarRead bar off n) s fun d =>
      d.answer = .waits ∧ s.dev.keepsUnits d ∧ s.dev.keepsRegs d [] ∧ s.dev.keepsHost d [] ∧ s.dev.noRecord d) ∧
  (∀ (bar : Fin 3) (off n : Nat), s.dev.hostUp = false → Does (.hostBarRead bar off n) s fun d => d.answer = .ignored ∧
      s.dev.keepsUnits d ∧ s.dev.keepsRegs d [] ∧ s.dev.keepsHost d [] ∧ s.dev.noRecord d) ∧
  (∀ (bar : Fin 3) (off : Nat) (bs : List Byte), s.dev.hostUp = true → s.dev.agentWaits 0x0400 = true →
      Does (.hostBarWrite bar off bs) s fun d => d.answer = .waits ∧ s.dev.keepsUnits d ∧ s.dev.keepsRegs d [] ∧
      s.dev.keepsHost d [] ∧ s.dev.noRecord d) ∧
  (∀ (bar : Fin 3) (off : Nat) (bs : List Byte), s.dev.hostUp = false → Does (.hostBarWrite bar off bs) s fun d =>
      d.answer = .ignored ∧ s.dev.keepsUnits d ∧ s.dev.keepsRegs d [] ∧ s.dev.keepsHost d [] ∧ s.dev.noRecord d) ∧
  (∀ (bar : Fin 3) (off : Nat) (bs : List Byte), s.dev.hostUp = true → s.dev.agentWaits 0x0400 = false → bar ≠ 0 → bs ≠ [] →
      off + bs.length ≤ (if bar = 1 then 0x800000 else 0x1000000) →
      (!inPeripherals (if bar = 1 then 0x10000000 + off else (s.dev.reg64 HOST.BAR4_WIN).toNat % 2 ^ 40 + off) && !inCoef (if bar = 1 then 0x10000000 + off else (s.dev.reg64 HOST.BAR4_WIN).toNat % 2 ^ 40 + off)) = true →
      (s.dev.storable (if bar = 1 then 0x10000000 + off else (s.dev.reg64 HOST.BAR4_WIN).toNat % 2 ^ 40 + off) && s.dev.memMapped (if bar = 1 then 0x10000000 + off else (s.dev.reg64 HOST.BAR4_WIN).toNat % 2 ^ 40 + off) bs.length && s.dev.memOpen 0x0400 (if bar = 1 then 0x10000000 + off else (s.dev.reg64 HOST.BAR4_WIN).toNat % 2 ^ 40 + off) bs.length true && decide (s.dev.loadRings 0x0400 (if bar = 1 then 0x10000000 + off else (s.dev.reg64 HOST.BAR4_WIN).toNat % 2 ^ 40 + off) bs.length = []) && s.dev.ecc.isEmpty && !s.dev.flag MEMCTL.ECC_FLIP_ARM && decide (s.dev.tcmTwins (if bar = 1 then 0x10000000 + off else (s.dev.reg64 HOST.BAR4_WIN).toNat % 2 ^ 40 + off) = [(if bar = 1 then 0x10000000 + off else (s.dev.reg64 HOST.BAR4_WIN).toNat % 2 ^ 40 + off)]) && !s.dev.lgDram) = true →
      Does (.hostBarWrite bar off bs) s fun d =>
      d.bytes (if bar = 1 then 0x10000000 + off else (s.dev.reg64 HOST.BAR4_WIN).toNat % 2 ^ 40 + off) bs.length = bs ∧
      s.dev.bytesKept d (if bar = 1 then 0x10000000 + off else (s.dev.reg64 HOST.BAR4_WIN).toNat % 2 ^ 40 + off) ((if bar = 1 then 0x10000000 + off else (s.dev.reg64 HOST.BAR4_WIN).toNat % 2 ^ 40 + off) + bs.length) ∧
      { s.dev with mem := d.mem }.keepsUnits d ∧ s.dev.keepsRegs d [] ∧ s.dev.noRecord d) ∧
  (∀ (bar : Fin 3) (off : Nat) (bs : List Byte), s.dev.hostUp = true → s.dev.agentWaits 0x0400 = false → bar ≠ 0 → bs ≠ [] →
      off + bs.length ≤ (if bar = 1 then 0x800000 else 0x1000000) →
      (!inPeripherals (if bar = 1 then 0x10000000 + off else (s.dev.reg64 HOST.BAR4_WIN).toNat % 2 ^ 40 + off) && !inCoef (if bar = 1 then 0x10000000 + off else (s.dev.reg64 HOST.BAR4_WIN).toNat % 2 ^ 40 + off) && !(s.dev.storable (if bar = 1 then 0x10000000 + off else (s.dev.reg64 HOST.BAR4_WIN).toNat % 2 ^ 40 + off) && s.dev.memMapped (if bar = 1 then 0x10000000 + off else (s.dev.reg64 HOST.BAR4_WIN).toNat % 2 ^ 40 + off) bs.length && s.dev.memOpen 0x0400 (if bar = 1 then 0x10000000 + off else (s.dev.reg64 HOST.BAR4_WIN).toNat % 2 ^ 40 + off) bs.length true)) = true →
      Does (.hostBarWrite bar off bs) s fun d => d.answer = .ignored ∧ s.dev.keepsUnits d ∧ s.dev.keepsRegs d [] ∧
      s.dev.keepsHost d [] ∧ s.dev.noRecord d) ∧
  (∀ (bar : Fin 3) (off : Nat) (bs : List Byte), s.dev.hostUp = true → s.dev.agentWaits 0x0400 = false → (bs = [] ∨ (bar = 0 ∧
      (bs.length ≠ 4 ∨ off % 4 ≠ 0)) ∨ (if bar = 1 then 0x800000 else 0x1000000) < off + bs.length) →
      Does (.hostBarWrite bar off bs) s fun d => d.answer = .ignored ∧ s.dev.keepsUnits d ∧ s.dev.keepsRegs d [] ∧
      s.dev.keepsHost d [] ∧ s.dev.noRecord d) ∧
  (∀ (off : Nat) (bs : List Byte), s.dev.hostUp = true → s.dev.agentWaits 0x0400 = false → bs.length = 4 → off < 0x1000000 →
      s.dev.takes 0x0400 off (BitVec.ofNat 32 (ofBytes bs)) = true → Does (.hostBarWrite 0 off bs) s fun d =>
      (match exec (.registerWrite .host off (BitVec.ofNat 32 (ofBytes bs))) s with | .next t => decide (t.dev = d) | _ => false) = true) ∧
  (s.dev.fld HOST.LINK_STATUS_STATE ≠ 0 → s.dev.holdsNone 0x0400 = true → s.dev.noMirror = true → s.dev.led.fresh = [] →
      Does (.hostLinkDown) s fun d => d.fld HOST.LINK_STATUS_STATE = 0 ∧ d.fld HOST.LINK_STATUS_SPEED = 0 ∧
      d.fld HOST.LINK_STATUS_WIDTH = 0 ∧ d.flag HOST.LINK_STATUS_BME = s.dev.flag HOST.LINK_STATUS_BME ∧ s.dev.raised d [1193] ∧
      d.faults = s.dev.faults ++ [{ src := 0x16, unit := 0, stamp := s.dev.nowNs }] ∧
      (∀ r : Fin 8, d.flag (HOST.RING_CTRL_EN r) = false) ∧ d.hostQ = [] ∧ d.ringIrqs = [] ∧
      d.num HOST.DROPPED = min 0xFFFFFFFF (s.dev.num HOST.DROPPED + s.dev.hostQ.length) ∧
      s.dev.oneRecord d (wordRecord s.dev.nowNs .system 0 0x0600 HOST.LINK_STATUS (d.reg HOST.LINK_STATUS) (s.dev.reg HOST.LINK_STATUS)) ∧
      { s.dev with faults := d.faults, ringIrqs := [] }.keepsUnits d ∧ s.dev.keepsRegs d [] ∧
      s.dev.keepsHost d (HOST.LINK_STATUS :: HOST.DROPPED :: (List.range 8).map HOST.RING_CTRL)) ∧
  (s.dev.fld HOST.LINK_STATUS_STATE = 0 → Does (.hostLinkDown) s fun d => s.dev.keepsUnits d ∧ s.dev.keepsRegs d [] ∧
      s.dev.keepsHost d [] ∧ s.dev.noRecord d) ∧
  (∀ (sp : Fin 5) (wi : Fin 3) (bme : Bool), s.dev.domReady 52 = true → Does (.hostLinkUp sp wi bme) s fun d =>
      d.fld HOST.LINK_STATUS_STATE = 2 ∧ d.fld HOST.LINK_STATUS_SPEED = sp.val + 1 ∧ d.fld HOST.LINK_STATUS_WIDTH = 2 ^ wi.val ∧
      d.flag HOST.LINK_STATUS_BME = bme ∧ s.dev.raised d [1192] ∧ s.dev.keepsUnits d ∧ s.dev.keepsRegs d [] ∧
      s.dev.keepsHost d [HOST.LINK_STATUS] ∧ s.dev.noRecord d) ∧
  (∀ (sp : Fin 5) (wi : Fin 3) (bme : Bool), s.dev.domReady 52 = false → Does (.hostLinkUp sp wi bme) s fun d =>
      s.dev.keepsUnits d ∧ s.dev.keepsRegs d [] ∧ s.dev.keepsHost d [] ∧ s.dev.noRecord d) ∧
  (s.dev.holdsNone 0x0400 = true → s.dev.led.fresh = [] → Does (.hostFunctionReset) s fun d =>
      d.flag HOST.LINK_STATUS_BME = false ∧
      (∀ r : Fin 8, ∀ i : Fin 16, d.reg (HOST.RING_CTRL r + 4 * i.val) = regReset (HOST.RING_CTRL r + 4 * i.val)) ∧
      d.reg HOST.OUT_CTRL = 0 ∧ d.reg64 HOST.OUT_BASE = 0 ∧ d.reg64 HOST.BAR4_WIN = 0 ∧ d.hostQ = [] ∧ d.ringIrqs = [] ∧
      d.msix = [] ∧ d.num HOST.DROPPED = min 0xFFFFFFFF (s.dev.num HOST.DROPPED + s.dev.hostQ.length) ∧
      { s.dev with msix := [], hostLost := [], ringIrqs := [] }.keepsUnits d ∧ s.dev.keepsRegs d [] ∧ s.dev.noRecord d ∧
      d.fld HOST.LINK_STATUS_STATE = s.dev.fld HOST.LINK_STATUS_STATE) ∧
  (∀ (r : Fin 8) (q : HostRec) (l m : List HostRec), s.dev.hostQ = l ++ q :: m →
      (l.all fun x => decide (x.ring ≠ r.val)) = true → q.ring = r.val → (l.all fun x => decide (x ≠ q)) = true →
      (s.dev.hostUp && s.dev.flag HOST.LINK_STATUS_BME && s.dev.flag (HOST.RING_CTRL_EN r) && decide (((s.dev.reg (HOST.RING_HEAD r)) - s.dev.reg (HOST.RING_TAIL r)).toNat < 2 ^ s.dev.fld (HOST.RING_CTRL_SIZE r))) = true →
      (decide (s.dev.fld (HOST.RING_IRQ_COUNT r) ≠ 0) && decide (s.dev.fld (HOST.RING_IRQ_COUNT r) ≤ (s.dev.ringIrq r).count + 1)) = true →
      Does (.hostRecordWrite r) s fun d => d.hostQ = l ++ m ∧ d.reg (HOST.RING_HEAD r) = (s.dev.reg (HOST.RING_HEAD r)) + 1 ∧
      d.sent = [.hostWrite (s.dev.reg64 (HOST.RING_BASE r) + BitVec.ofNat 64 (32 * ((s.dev.reg (HOST.RING_HEAD r)).toNat % 2 ^ s.dev.fld (HOST.RING_CTRL_SIZE r)))) (toBytes 2 q.typ ++ toBytes 2 q.event.toNat ++ toBytes 2 q.agent.toNat ++ toBytes 2 (s.dev.reg (HOST.RING_HEAD r)).toNat ++ toBytes 8 q.time.toNat ++ (if q.typ = 1 then q.payload ++ toBytes 2 q.merged else q.payload) ++ List.replicate (16 - (if q.typ = 1 then q.payload ++ toBytes 2 q.merged else q.payload).length) 0), .msix (s.dev.fld (HOST.RING_CTRL_VECTOR r))] ∧
      d.ringIrq r = {} ∧ Tab.keeps {} [r.val] s.dev.ringIrqs d.ringIrqs ∧ { s.dev with ringIrqs := d.ringIrqs }.keepsUnits d ∧
      s.dev.keepsRegs d [] ∧ s.dev.keepsHost d [HOST.RING_HEAD r] ∧ s.dev.noRecord d) ∧
  (∀ (r : Fin 8) (q : HostRec) (l m : List HostRec), s.dev.hostQ = l ++ q :: m →
      (l.all fun x => decide (x.ring ≠ r.val)) = true → q.ring = r.val → (l.all fun x => decide (x ≠ q)) = true →
      (s.dev.hostUp && s.dev.flag HOST.LINK_STATUS_BME && s.dev.flag (HOST.RING_CTRL_EN r) && decide (((s.dev.reg (HOST.RING_HEAD r)) - s.dev.reg (HOST.RING_TAIL r)).toNat < 2 ^ s.dev.fld (HOST.RING_CTRL_SIZE r))) = true →
      (decide (s.dev.fld (HOST.RING_IRQ_COUNT r) ≠ 0) && decide (s.dev.fld (HOST.RING_IRQ_COUNT r) ≤ (s.dev.ringIrq r).count + 1)) = false →
      Does (.hostRecordWrite r) s fun d => d.hostQ = l ++ m ∧ d.reg (HOST.RING_HEAD r) = (s.dev.reg (HOST.RING_HEAD r)) + 1 ∧
      d.sent = [.hostWrite (s.dev.reg64 (HOST.RING_BASE r) + BitVec.ofNat 64 (32 * ((s.dev.reg (HOST.RING_HEAD r)).toNat % 2 ^ s.dev.fld (HOST.RING_CTRL_SIZE r)))) (toBytes 2 q.typ ++ toBytes 2 q.event.toNat ++ toBytes 2 q.agent.toNat ++ toBytes 2 (s.dev.reg (HOST.RING_HEAD r)).toNat ++ toBytes 8 q.time.toNat ++ (if q.typ = 1 then q.payload ++ toBytes 2 q.merged else q.payload) ++ List.replicate (16 - (if q.typ = 1 then q.payload ++ toBytes 2 q.merged else q.payload).length) 0)] ∧
      d.ringIrq r = { count := (s.dev.ringIrq r).count + 1, since := if (s.dev.ringIrq r).count = 0 then s.dev.now else (s.dev.ringIrq r).since } ∧
      Tab.keeps {} [r.val] s.dev.ringIrqs d.ringIrqs ∧ { s.dev with ringIrqs := d.ringIrqs }.keepsUnits d ∧
      s.dev.keepsRegs d [] ∧ s.dev.keepsHost d [HOST.RING_HEAD r] ∧ s.dev.noRecord d) ∧
  (∀ (r : Fin 8), ((s.dev.hostQ.all fun q => decide (q.ring ≠ r.val)) || !(s.dev.hostUp && s.dev.flag HOST.LINK_STATUS_BME && s.dev.flag (HOST.RING_CTRL_EN r) && decide (((s.dev.reg (HOST.RING_HEAD r)) - s.dev.reg (HOST.RING_TAIL r)).toNat < 2 ^ s.dev.fld (HOST.RING_CTRL_SIZE r)))) = true →
      Does (.hostRecordWrite r) s fun d => s.dev.keepsUnits d ∧ s.dev.keepsRegs d [] ∧ s.dev.keepsHost d [] ∧ s.dev.noRecord d ∧
      d.hostQ = s.dev.hostQ) ∧
  (∀ (r : Fin 8), (decide ((s.dev.ringIrq r).count ≠ 0) && decide (s.dev.fld (HOST.RING_IRQ_TIME_US r) ≠ 0) && s.dev.hostUp && s.dev.flag HOST.LINK_STATUS_BME && s.dev.due ((s.dev.ringIrq r).since + nsT (1000 * s.dev.fld (HOST.RING_IRQ_TIME_US r)))) = true →
      Does (.ringIrqTimeout r) s fun d => d.sent = [.msix (s.dev.fld (HOST.RING_CTRL_VECTOR r))] ∧ d.ringIrq r = {} ∧
      Tab.keeps {} [r.val] s.dev.ringIrqs d.ringIrqs ∧ { s.dev with ringIrqs := d.ringIrqs }.keepsUnits d ∧
      s.dev.keepsRegs d [] ∧ s.dev.keepsHost d [] ∧ s.dev.noRecord d) ∧
  (∀ (r : Fin 8), (decide ((s.dev.ringIrq r).count ≠ 0) && decide (s.dev.fld (HOST.RING_IRQ_TIME_US r) ≠ 0) && s.dev.hostUp && s.dev.flag HOST.LINK_STATUS_BME && s.dev.due ((s.dev.ringIrq r).since + nsT (1000 * s.dev.fld (HOST.RING_IRQ_TIME_US r)))) = false →
      Does (.ringIrqTimeout r) s fun d => s.dev.keepsUnits d ∧ s.dev.keepsRegs d [] ∧ s.dev.keepsHost d [] ∧ s.dev.noRecord d ∧
      d.sent = []) ∧
  (∀ (a : Agent) (r : Fin 8) (v : Word), s.dev.takes a.id (HOST.RING_TAIL r) v = true → Does (.ringTailWrite a r v) s fun d =>
      d.answer = .ok ∧ d.reg (HOST.RING_TAIL r) = v ∧ s.dev.keepsRegs d [] ∧ s.dev.keepsUnits d ∧ s.dev.noRecord d) ∧
  (∀ (a : Agent) (r : Fin 8) (v : Word), s.dev.takes a.id (HOST.RING_CTRL r) v = true → wordBit v 31 = true →
      s.dev.flag (HOST.RING_CTRL_EN r) = false → Does (.ringEnable a r v) s fun d => d.answer = .ok ∧
      d.reg (HOST.RING_HEAD r) = 0 ∧ d.reg (HOST.RING_TAIL r) = 0 ∧ d.flag (HOST.RING_CTRL_EN r) = true ∧
      d.reg (HOST.RING_CTRL r) = s.dev.afterWrite (HOST.RING_CTRL r) v ∧ d.ringIrq r = {} ∧
      Tab.keeps {} [r.val] s.dev.ringIrqs d.ringIrqs ∧ s.dev.keepsRegs d [] ∧
      { s.dev with ringIrqs := d.ringIrqs }.keepsUnits d ∧
      s.dev.oneRecord d (wordRecord s.dev.nowNs .live 0 a.id (HOST.RING_CTRL r) (d.reg (HOST.RING_CTRL r)) (s.dev.reg (HOST.RING_CTRL r)))) ∧
  (∀ (sc : Sched), s.dev.telSched = some sc → s.dev.due sc.target = true →
      before (floorNs sc.target) (maxT (floorNs sc.target) (floorNs s.dev.now)) = false →
      (sc.advance (s.dev.fld HOST.TEL_SCHED_CATCHUP) (s.dev.fld HOST.TEL_SCHED_BEHIND) (maxT (floorNs sc.target) (floorNs s.dev.now))).2 = false →
      s.dev.flag (HOST.RING_CTRL_EN (s.dev.fld HOST.TEL_CTRL_RING)) = true →
      s.dev.hostQ.length + ((List.range 64).filter fun n => s.dev.flag (HOST.TEL_LIST_VALID n)).length ≤ 2048 →
      s.dev.reg (HOST.RING_STATUS (s.dev.fld HOST.TEL_CTRL_RING)) = 0 →
      (((List.range 64).filter fun n => s.dev.flag (HOST.TEL_LIST_VALID n)).all fun n => decide ((s.dev.fld (HOST.TEL_LIST_BLOCK n) * 0x10000 + s.dev.fld (HOST.TEL_LIST_OFFSET n)) ≠ HOST.QUEUE)) = true →
      Does (.telemetrySnapshot) s fun d =>
      d.telSched = some (sc.advance (s.dev.fld HOST.TEL_SCHED_CATCHUP) (s.dev.fld HOST.TEL_SCHED_BEHIND) (maxT (floorNs sc.target) (floorNs s.dev.now))).1 ∧
      d.reg HOST.TEL_STATUS = s.dev.reg HOST.TEL_STATUS + 1 ∧
      (d.hostQ = s.dev.hostQ ++ ((List.range 64).filter fun n => s.dev.flag (HOST.TEL_LIST_VALID n)).map fun n => ({ ring := s.dev.fld HOST.TEL_CTRL_RING, typ := 3, event := 0xFFFE, agent := 0xFFFF, time := (maxT (floorNs sc.target) (floorNs s.dev.now)), payload := [BitVec.ofNat 8 (s.dev.fld (HOST.TEL_LIST_BLOCK n)), 0] ++ toBytes 2 (s.dev.fld (HOST.TEL_LIST_OFFSET n)) ++ toBytes 4 (if (s.dev.fld (HOST.TEL_LIST_BLOCK n) * 0x10000 + s.dev.fld (HOST.TEL_LIST_OFFSET n)) = MILEPOST.MP_NOW_LO then (maxT (floorNs sc.target) (floorNs s.dev.now)).setWidth 32 else if (s.dev.fld (HOST.TEL_LIST_BLOCK n) * 0x10000 + s.dev.fld (HOST.TEL_LIST_OFFSET n)) = MILEPOST.MP_NOW_HI then ((maxT (floorNs sc.target) (floorNs s.dev.now)) >>> 32).setWidth 32 else d.readWord 0x0600 (s.dev.fld (HOST.TEL_LIST_BLOCK n) * 0x10000 + s.dev.fld (HOST.TEL_LIST_OFFSET n)) : Word).toNat ++ toBytes 4 (s.dev.reg HOST.TEL_STATUS + 1).toNat ++ toBytes 4 0 } : HostRec)) ∧
      s.dev.raised d [] ∧ { s.dev with telSched := d.telSched }.keepsUnits d ∧ s.dev.keepsHost d [HOST.TEL_STATUS] ∧
      s.dev.noRecord d ∧ s.dev.keepsRegs d []) ∧
  (∀ (sc : Sched), s.dev.telSched = some sc → s.dev.due sc.target = true →
      before (floorNs sc.target) (maxT (floorNs sc.target) (floorNs s.dev.now)) = true →
      (sc.advance (s.dev.fld HOST.TEL_SCHED_CATCHUP) (s.dev.fld HOST.TEL_SCHED_BEHIND) (maxT (floorNs sc.target) (floorNs s.dev.now))).2 = false →
      s.dev.flag (HOST.RING_CTRL_EN (s.dev.fld HOST.TEL_CTRL_RING)) = true →
      s.dev.hostQ.length + ((List.range 64).filter fun n => s.dev.flag (HOST.TEL_LIST_VALID n)).length ≤ 2048 →
      s.dev.reg (HOST.RING_STATUS (s.dev.fld HOST.TEL_CTRL_RING)) = 0 →
      (((List.range 64).filter fun n => s.dev.flag (HOST.TEL_LIST_VALID n)).all fun n => decide ((s.dev.fld (HOST.TEL_LIST_BLOCK n) * 0x10000 + s.dev.fld (HOST.TEL_LIST_OFFSET n)) ≠ HOST.QUEUE)) = true →
      Does (.telemetrySnapshot) s fun d =>
      d.telSched = some (sc.advance (s.dev.fld HOST.TEL_SCHED_CATCHUP) (s.dev.fld HOST.TEL_SCHED_BEHIND) (maxT (floorNs sc.target) (floorNs s.dev.now))).1 ∧
      d.reg HOST.TEL_STATUS = s.dev.reg HOST.TEL_STATUS + 1 ∧
      (d.hostQ = s.dev.hostQ ++ ((List.range 64).filter fun n => s.dev.flag (HOST.TEL_LIST_VALID n)).map fun n => ({ ring := s.dev.fld HOST.TEL_CTRL_RING, typ := 3, event := 0xFFFE, agent := 0xFFFF, time := (maxT (floorNs sc.target) (floorNs s.dev.now)), payload := [BitVec.ofNat 8 (s.dev.fld (HOST.TEL_LIST_BLOCK n)), 0] ++ toBytes 2 (s.dev.fld (HOST.TEL_LIST_OFFSET n)) ++ toBytes 4 (if (s.dev.fld (HOST.TEL_LIST_BLOCK n) * 0x10000 + s.dev.fld (HOST.TEL_LIST_OFFSET n)) = MILEPOST.MP_NOW_LO then (maxT (floorNs sc.target) (floorNs s.dev.now)).setWidth 32 else if (s.dev.fld (HOST.TEL_LIST_BLOCK n) * 0x10000 + s.dev.fld (HOST.TEL_LIST_OFFSET n)) = MILEPOST.MP_NOW_HI then ((maxT (floorNs sc.target) (floorNs s.dev.now)) >>> 32).setWidth 32 else d.readWord 0x0600 (s.dev.fld (HOST.TEL_LIST_BLOCK n) * 0x10000 + s.dev.fld (HOST.TEL_LIST_OFFSET n)) : Word).toNat ++ toBytes 4 (s.dev.reg HOST.TEL_STATUS + 1).toNat ++ toBytes 4 0 } : HostRec)) ∧
      s.dev.raised d [] ∧ { s.dev with telSched := d.telSched }.keepsUnits d ∧ s.dev.keepsHost d [HOST.TEL_STATUS] ∧
      s.dev.noRecord d ∧
      s.dev.keepsRegs d [MILEPOST.LATE_COUNT, MILEPOST.LATE_LAST, MILEPOST.LATE_LAST + 4, MILEPOST.LATE_SRC, MILEPOST.MP_FLAGS_LATE.addr] ∧
      d.num MILEPOST.LATE_COUNT = satInc 0xFFFFFFFF (s.dev.num MILEPOST.LATE_COUNT) ∧ d.flag MILEPOST.MP_FLAGS_LATE = true ∧
      d.reg64 MILEPOST.LATE_LAST = floorNs sc.target) ∧
  (∀ (sc : Sched), s.dev.telSched = some sc → s.dev.due sc.target = true →
      before (floorNs sc.target) (maxT (floorNs sc.target) (floorNs s.dev.now)) = true →
      (sc.advance (s.dev.fld HOST.TEL_SCHED_CATCHUP) (s.dev.fld HOST.TEL_SCHED_BEHIND) (maxT (floorNs sc.target) (floorNs s.dev.now))).2 = true →
      s.dev.flag (HOST.RING_CTRL_EN (s.dev.fld HOST.TEL_CTRL_RING)) = true →
      s.dev.hostQ.length + ((List.range 64).filter fun n => s.dev.flag (HOST.TEL_LIST_VALID n)).length ≤ 2048 →
      s.dev.reg (HOST.RING_STATUS (s.dev.fld HOST.TEL_CTRL_RING)) = 0 →
      (((List.range 64).filter fun n => s.dev.flag (HOST.TEL_LIST_VALID n)).all fun n => decide ((s.dev.fld (HOST.TEL_LIST_BLOCK n) * 0x10000 + s.dev.fld (HOST.TEL_LIST_OFFSET n)) ≠ HOST.QUEUE)) = true →
      Does (.telemetrySnapshot) s fun d =>
      d.telSched = some (sc.advance (s.dev.fld HOST.TEL_SCHED_CATCHUP) (s.dev.fld HOST.TEL_SCHED_BEHIND) (maxT (floorNs sc.target) (floorNs s.dev.now))).1 ∧
      d.reg HOST.TEL_STATUS = s.dev.reg HOST.TEL_STATUS + 1 ∧
      (d.hostQ = s.dev.hostQ ++ ((List.range 64).filter fun n => s.dev.flag (HOST.TEL_LIST_VALID n)).map fun n => ({ ring := s.dev.fld HOST.TEL_CTRL_RING, typ := 3, event := 0xFFFE, agent := 0xFFFF, time := (maxT (floorNs sc.target) (floorNs s.dev.now)), payload := [BitVec.ofNat 8 (s.dev.fld (HOST.TEL_LIST_BLOCK n)), 0] ++ toBytes 2 (s.dev.fld (HOST.TEL_LIST_OFFSET n)) ++ toBytes 4 (if (s.dev.fld (HOST.TEL_LIST_BLOCK n) * 0x10000 + s.dev.fld (HOST.TEL_LIST_OFFSET n)) = MILEPOST.MP_NOW_LO then (maxT (floorNs sc.target) (floorNs s.dev.now)).setWidth 32 else if (s.dev.fld (HOST.TEL_LIST_BLOCK n) * 0x10000 + s.dev.fld (HOST.TEL_LIST_OFFSET n)) = MILEPOST.MP_NOW_HI then ((maxT (floorNs sc.target) (floorNs s.dev.now)) >>> 32).setWidth 32 else d.readWord 0x0600 (s.dev.fld (HOST.TEL_LIST_BLOCK n) * 0x10000 + s.dev.fld (HOST.TEL_LIST_OFFSET n)) : Word).toNat ++ toBytes 4 (s.dev.reg HOST.TEL_STATUS + 1).toNat ++ toBytes 4 0 } : HostRec)) ∧
      s.dev.raised d [15] ∧ { s.dev with telSched := d.telSched }.keepsUnits d ∧ s.dev.keepsHost d [HOST.TEL_STATUS] ∧
      s.dev.noRecord d ∧
      s.dev.keepsRegs d [MILEPOST.LATE_COUNT, MILEPOST.LATE_LAST, MILEPOST.LATE_LAST + 4, MILEPOST.LATE_SRC, MILEPOST.MP_FLAGS_LATE.addr] ∧
      d.num MILEPOST.LATE_COUNT = satInc 0xFFFFFFFF (s.dev.num MILEPOST.LATE_COUNT) ∧ d.flag MILEPOST.MP_FLAGS_LATE = true ∧
      d.reg64 MILEPOST.LATE_LAST = floorNs sc.target) ∧
  ((s.dev.telSched.all fun sc => !s.dev.due sc.target) = true → Does (.telemetrySnapshot) s fun d => s.dev.keepsUnits d ∧
      s.dev.keepsRegs d [] ∧ s.dev.keepsHost d [] ∧ s.dev.noRecord d)

/-- For every state: the echo and the master's SYNC leave each microsecond; a bad frame is counted, a good one trains its hop, UP after 64 with event 1212, and marks its peer; an echo gives the delay d; a follower loads its Milepost from the first SYNC while MP_SET is open and afterwards slews by -e, counts the alignment and forwards the frame; a plan becomes the master's AT commit of the plan group; EVENT frames raise, RA frames read or write and answer, and all are acknowledged once and taken once; unacknowledged frames go again each microsecond, eight times; losses clear what R415 says, with their events and SYSTEM records; an access of RA_CTRL is sent and ends after 50 us. Numbers of frame types, bodies and lanes are those of log entry 40. Where a clause rests on a reading or a choice of the model, it is the model's and not the spec's: log entries 40, 133, 134, 135, 136, 137 and 138. -/
def Obligations.TieLink : Prop :=
  ∀ s : State,
  (s.dev.tieOn = true → s.dev.due s.dev.tie.echoAt = true → Does (.echoSend) s fun d =>
      d.tie = { s.dev.tie with echo0 := some s.dev.now, echo1 := some s.dev.now, echoAt := s.dev.tie.echoAt + nsT 1000 } ∧
      d.sent = [.frame 0 1 0 (toBytes 8 s.dev.now.toNat), .frame 1 1 0 (toBytes 8 s.dev.now.toNat)] ∧
      { s.dev with tie := d.tie }.keepsUnits d ∧ s.dev.keepsRegs d [] ∧ s.dev.noRecord d) ∧
  ((s.dev.tieOn && s.dev.due s.dev.tie.echoAt) = false → Does (.echoSend) s fun d => s.dev.keepsUnits d ∧ s.dev.keepsRegs d [] ∧
      s.dev.noRecord d ∧ d.sent = []) ∧
  (s.dev.tieOn = true → s.dev.fld TIE.TIE_CFG_MASTER = s.dev.tiePos → s.dev.due s.dev.tie.syncAt = true →
      Does (.syncSend) s fun d => d.tie = { s.dev.tie with syncAt := s.dev.tie.syncAt + nsT 1000 } ∧
      d.sent = [.frame 0 3 0 (toBytes 8 s.dev.now.toNat ++ toBytes 8 (BitVec.ofInt 64 s.dev.tie.delay).toNat)] ∧
      { s.dev with tie := d.tie }.keepsUnits d ∧ s.dev.keepsRegs d [] ∧ s.dev.noRecord d) ∧
  (s.dev.tieOn = true → (s.dev.fld TIE.TIE_CFG_MASTER ≠ s.dev.tiePos ∨ s.dev.due s.dev.tie.syncAt = false) →
      Does (.syncSend) s fun d => s.dev.keepsUnits d ∧ s.dev.keepsRegs d [] ∧ s.dev.noRecord d ∧ d.sent = []) ∧
  (∀ (lane : Fin 2) (dep res : DWord), s.dev.tieOn = false → Does (.echoReqReceive lane true dep res) s fun d =>
      d.answer = .ignored ∧ s.dev.keepsUnits d ∧ s.dev.keepsRegs d [] ∧ s.dev.noRecord d) ∧
  (∀ (lane : Fin 2) (dep res : DWord), s.dev.tieOn = true → Does (.echoReqReceive lane false dep res) s fun d =>
      d.tie = (if lane.val = 0 then { s.dev.tie with hop1 := { s.dev.tie.hop1 with good := 0 } } else { s.dev.tie with hop0 := { s.dev.tie.hop0 with good := 0 } }) ∧
      d.fld TIE.TIE_COUNTS_CRC_ERRS = satInc 0xFFFF (s.dev.fld TIE.TIE_COUNTS_CRC_ERRS) ∧
      d.fld TIE.TIE_COUNTS_RESENDS = s.dev.fld TIE.TIE_COUNTS_RESENDS ∧ d.sent = [] ∧ { s.dev with tie := d.tie }.keepsUnits d ∧
      s.dev.keepsRegs d [TIE.TIE_COUNTS] ∧ s.dev.noRecord d) ∧
  (∀ (lane : Fin 2) (off : Fin 64) (res : DWord), s.dev.tieOn = false → Does (.echoRspReceive lane true off res) s fun d =>
      d.answer = .ignored ∧ s.dev.keepsUnits d ∧ s.dev.keepsRegs d [] ∧ s.dev.noRecord d) ∧
  (∀ (lane : Fin 2) (off : Fin 64) (res : DWord), s.dev.tieOn = true → Does (.echoRspReceive lane false off res) s fun d =>
      d.tie = (if lane.val = 0 then { s.dev.tie with hop1 := { s.dev.tie.hop1 with good := 0 } } else { s.dev.tie with hop0 := { s.dev.tie.hop0 with good := 0 } }) ∧
      d.fld TIE.TIE_COUNTS_CRC_ERRS = satInc 0xFFFF (s.dev.fld TIE.TIE_COUNTS_CRC_ERRS) ∧
      d.fld TIE.TIE_COUNTS_RESENDS = s.dev.fld TIE.TIE_COUNTS_RESENDS ∧ d.sent = [] ∧ { s.dev with tie := d.tie }.keepsUnits d ∧
      s.dev.keepsRegs d [TIE.TIE_COUNTS] ∧ s.dev.noRecord d) ∧
  (∀ (off : Fin 64) (sp co res : DWord), s.dev.tieOn = false → Does (.syncReceive true off sp co res) s fun d =>
      d.answer = .ignored ∧ s.dev.keepsUnits d ∧ s.dev.keepsRegs d [] ∧ s.dev.noRecord d) ∧
  (∀ (off : Fin 64) (sp co res : DWord), s.dev.tieOn = true → Does (.syncReceive false off sp co res) s fun d =>
      d.tie = (if 0 = 0 then { s.dev.tie with hop1 := { s.dev.tie.hop1 with good := 0 } } else { s.dev.tie with hop0 := { s.dev.tie.hop0 with good := 0 } }) ∧
      d.fld TIE.TIE_COUNTS_CRC_ERRS = satInc 0xFFFF (s.dev.fld TIE.TIE_COUNTS_CRC_ERRS) ∧
      d.fld TIE.TIE_COUNTS_RESENDS = s.dev.fld TIE.TIE_COUNTS_RESENDS ∧ d.sent = [] ∧ { s.dev with tie := d.tie }.keepsUnits d ∧
      s.dev.keepsRegs d [TIE.TIE_COUNTS] ∧ s.dev.noRecord d) ∧
  (∀ (lane : Fin 2) (g : Fin 16) (base at_ : DWord) (seq : Nat), s.dev.tieOn = false →
      Does (.planReceive lane true g base at_ seq) s fun d => d.answer = .ignored ∧ s.dev.keepsUnits d ∧ s.dev.keepsRegs d [] ∧
      s.dev.noRecord d) ∧
  (∀ (lane : Fin 2) (g : Fin 16) (base at_ : DWord) (seq : Nat), s.dev.tieOn = true →
      Does (.planReceive lane false g base at_ seq) s fun d =>
      d.tie = (if lane.val = 0 then { s.dev.tie with hop1 := { s.dev.tie.hop1 with good := 0 } } else { s.dev.tie with hop0 := { s.dev.tie.hop0 with good := 0 } }) ∧
      d.fld TIE.TIE_COUNTS_CRC_ERRS = satInc 0xFFFF (s.dev.fld TIE.TIE_COUNTS_CRC_ERRS) ∧
      d.fld TIE.TIE_COUNTS_RESENDS = s.dev.fld TIE.TIE_COUNTS_RESENDS ∧ d.sent = [] ∧ { s.dev with tie := d.tie }.keepsUnits d ∧
      s.dev.keepsRegs d [TIE.TIE_COUNTS] ∧ s.dev.noRecord d) ∧
  (∀ (lane : Fin 2) (p : Fin 4) (j : Fin 32) (seq : Nat), s.dev.tieOn = false →
      Does (.tieEventReceive lane true p j seq) s fun d => d.answer = .ignored ∧ s.dev.keepsUnits d ∧ s.dev.keepsRegs d [] ∧
      s.dev.noRecord d) ∧
  (∀ (lane : Fin 2) (p : Fin 4) (j : Fin 32) (seq : Nat), s.dev.tieOn = true →
      Does (.tieEventReceive lane false p j seq) s fun d =>
      d.tie = (if lane.val = 0 then { s.dev.tie with hop1 := { s.dev.tie.hop1 with good := 0 } } else { s.dev.tie with hop0 := { s.dev.tie.hop0 with good := 0 } }) ∧
      d.fld TIE.TIE_COUNTS_CRC_ERRS = satInc 0xFFFF (s.dev.fld TIE.TIE_COUNTS_CRC_ERRS) ∧
      d.fld TIE.TIE_COUNTS_RESENDS = s.dev.fld TIE.TIE_COUNTS_RESENDS ∧ d.sent = [] ∧ { s.dev with tie := d.tie }.keepsUnits d ∧
      s.dev.keepsRegs d [TIE.TIE_COUNTS] ∧ s.dev.noRecord d) ∧
  (∀ (lane : Fin 2) (p : Fin 4) (ad da : Word) (wr : Bool) (seq : Nat), s.dev.tieOn = false →
      Does (.raReqReceive lane true p ad da wr seq) s fun d => d.answer = .ignored ∧ s.dev.keepsUnits d ∧ s.dev.keepsRegs d [] ∧
      s.dev.noRecord d) ∧
  (∀ (lane : Fin 2) (p : Fin 4) (ad da : Word) (wr : Bool) (seq : Nat), s.dev.tieOn = true →
      Does (.raReqReceive lane false p ad da wr seq) s fun d =>
      d.tie = (if lane.val = 0 then { s.dev.tie with hop1 := { s.dev.tie.hop1 with good := 0 } } else { s.dev.tie with hop0 := { s.dev.tie.hop0 with good := 0 } }) ∧
      d.fld TIE.TIE_COUNTS_CRC_ERRS = satInc 0xFFFF (s.dev.fld TIE.TIE_COUNTS_CRC_ERRS) ∧
      d.fld TIE.TIE_COUNTS_RESENDS = s.dev.fld TIE.TIE_COUNTS_RESENDS ∧ d.sent = [] ∧ { s.dev with tie := d.tie }.keepsUnits d ∧
      s.dev.keepsRegs d [TIE.TIE_COUNTS] ∧ s.dev.noRecord d) ∧
  (∀ (lane : Fin 2) (p : Fin 4) (da : Word) (rs : Fin 3) (cs : Fin 16) (seq : Nat), s.dev.tieOn = false →
      Does (.raRspReceive lane true p da rs cs seq) s fun d => d.answer = .ignored ∧ s.dev.keepsUnits d ∧ s.dev.keepsRegs d [] ∧
      s.dev.noRecord d) ∧
  (∀ (lane : Fin 2) (p : Fin 4) (da : Word) (rs : Fin 3) (cs : Fin 16) (seq : Nat), s.dev.tieOn = true →
      Does (.raRspReceive lane false p da rs cs seq) s fun d =>
      d.tie = (if lane.val = 0 then { s.dev.tie with hop1 := { s.dev.tie.hop1 with good := 0 } } else { s.dev.tie with hop0 := { s.dev.tie.hop0 with good := 0 } }) ∧
      d.fld TIE.TIE_COUNTS_CRC_ERRS = satInc 0xFFFF (s.dev.fld TIE.TIE_COUNTS_CRC_ERRS) ∧
      d.fld TIE.TIE_COUNTS_RESENDS = s.dev.fld TIE.TIE_COUNTS_RESENDS ∧ d.sent = [] ∧ { s.dev with tie := d.tie }.keepsUnits d ∧
      s.dev.keepsRegs d [TIE.TIE_COUNTS] ∧ s.dev.noRecord d) ∧
  (∀ (lane : Fin 2) (p : Fin 4) (seq : Nat), s.dev.tieOn = false → Does (.ackReceive lane true p seq) s fun d =>
      d.answer = .ignored ∧ s.dev.keepsUnits d ∧ s.dev.keepsRegs d [] ∧ s.dev.noRecord d) ∧
  (∀ (lane : Fin 2) (p : Fin 4) (seq : Nat), s.dev.tieOn = true → Does (.ackReceive lane false p seq) s fun d =>
      d.tie = (if lane.val = 0 then { s.dev.tie with hop1 := { s.dev.tie.hop1 with good := 0 } } else { s.dev.tie with hop0 := { s.dev.tie.hop0 with good := 0 } }) ∧
      d.fld TIE.TIE_COUNTS_CRC_ERRS = satInc 0xFFFF (s.dev.fld TIE.TIE_COUNTS_CRC_ERRS) ∧
      d.fld TIE.TIE_COUNTS_RESENDS = s.dev.fld TIE.TIE_COUNTS_RESENDS ∧ d.sent = [] ∧ { s.dev with tie := d.tie }.keepsUnits d ∧
      s.dev.keepsRegs d [TIE.TIE_COUNTS] ∧ s.dev.noRecord d) ∧
  (∀ (lane : Fin 2) (dep res : DWord), s.dev.tieOn = true → Does (.echoReqReceive lane true dep res) s fun d =>
      s.dev.tieTakes d lane.val [] [] ∧ d.tie = (s.dev.tieMet lane.val []) ∧ s.dev.raised d (s.dev.hopEvents lane.val) ∧
      d.sent = [.frame (1 - lane.val) 2 0 (toBytes 8 dep.toNat ++ toBytes 8 res.toNat)]) ∧
  (∀ (lane : Fin 2) (off : Fin 64) (res : DWord), s.dev.tieOn = true → lane = 0 →
      Does (.echoRspReceive lane true off res) s fun d => s.dev.tieTakes d lane.val [] [] ∧
      d.tie = { (s.dev.tieMet lane.val []) with echo1 := none } ∧ s.dev.raised d (s.dev.hopEvents lane.val) ∧ d.sent = []) ∧
  (∀ (lane : Fin 2) (off : Fin 64) (res : DWord), s.dev.tieOn = true → lane = 1 → s.dev.tie.echo0 = none →
      Does (.echoRspReceive lane true off res) s fun d => s.dev.tieTakes d lane.val [] [] ∧ d.tie = (s.dev.tieMet lane.val []) ∧
      s.dev.raised d (s.dev.hopEvents lane.val) ∧ d.sent = []) ∧
  (∀ (lane : Fin 2) (off : Fin 64) (res : DWord) (t1 : Time), s.dev.tieOn = true → lane = 1 → s.dev.tie.echo0 = some t1 →
      Does (.echoRspReceive lane true off res) s fun d => s.dev.tieTakes d lane.val [] [TIE.TIE_MEAS] ∧
      d.tie = { (s.dev.tieMet lane.val []) with echo0 := none, delay := ((s.dev.now + tks off.val - t1 - res).toInt / 2) } ∧
      s.dev.raised d (s.dev.hopEvents lane.val) ∧ d.sent = [] ∧
      d.fld TIE.TIE_MEAS_HOP_PS = (max 0 (min 0xFFFF (((s.dev.now + tks off.val - t1 - res).toInt / 2) * 125 / 32))).toNat ∧
      d.fld TIE.TIE_MEAS_ERR_PS = s.dev.fld TIE.TIE_MEAS_ERR_PS) ∧
  (∀ (off : Fin 64) (sp co res : DWord), s.dev.tieOn = true → s.dev.fld TIE.TIE_CFG_MASTER = s.dev.tiePos →
      Does (.syncReceive true off sp co res) s fun d => s.dev.tieTakes d 0 [] [] ∧ d.tie = (s.dev.tieMet 0 []) ∧
      s.dev.raised d (s.dev.hopEvents 0) ∧ d.sent = []) ∧
  (∀ (off : Fin 64) (sp co res : DWord), s.dev.tieOn = true → s.dev.fld TIE.TIE_CFG_MASTER ≠ s.dev.tiePos →
      s.dev.flag MILEPOST.MP_STATUS_SET_OPEN = true → s.dev.tie.synced = false →
      Does (.syncReceive true off sp co res) s fun d => d.time.milepost = (s.dev.now + ((sp + co) - (s.dev.now + tks off.val))) ∧
      d.time = s.dev.time.shift ((sp + co) - (s.dev.now + tks off.val)) ∧
      d.tie = { ((s.dev.tieMet 0 [s.dev.fld TIE.TIE_CFG_MASTER])).shift ((sp + co) - (s.dev.now + tks off.val)) with run := (if decide (0 * 125 ≤ s.dev.fld TIE.TIE_ALIGN_TOL_PS * 8) then s.dev.tie.run + 1 else 0), synced := true, lastSync := d.now } ∧
      d.flag MILEPOST.MP_STATUS_TIE_FOLLOWER = true ∧
      s.dev.events.map (fun r => r.id) ++ s.dev.hopEvents 0 ++ (if (decide (16 ≤ (if decide (0 * 125 ≤ s.dev.fld TIE.TIE_ALIGN_TOL_PS * 8) then s.dev.tie.run + 1 else 0)) && !s.dev.flag TIE.TIE_STATUS_ALIGNED) then [1214] else []) <+: d.events.map (fun r => r.id) ∧
      d.flag TIE.TIE_STATUS_MASTER_SEEN = true ∧
      d.flag TIE.TIE_STATUS_ALIGNED = (s.dev.flag TIE.TIE_STATUS_ALIGNED || (decide (16 ≤ (if decide (0 * 125 ≤ s.dev.fld TIE.TIE_ALIGN_TOL_PS * 8) then s.dev.tie.run + 1 else 0)) && !s.dev.flag TIE.TIE_STATUS_ALIGNED)) ∧
      d.fld TIE.TIE_MEAS_ERR_PS = 0 ∧
      d.sent = [.frame 0 3 0 (toBytes 8 sp.toNat ++ toBytes 8 (co + res + BitVec.ofInt 64 s.dev.tie.delay).toNat)] ∧
      { s.dev.loadStep ((sp + co) - (s.dev.now + tks off.val)) with tie := d.tie }.keepsUnits d ∧
      s.dev.keepsRegs d [TIE.TIE_STATUS, TIE.TIE_MEAS, MILEPOST.MP_STATUS] ∧ s.dev.noRecord d) ∧
  (∀ (off : Fin 64) (sp co res : DWord), s.dev.tieOn = true → s.dev.fld TIE.TIE_CFG_MASTER ≠ s.dev.tiePos →
      (s.dev.flag MILEPOST.MP_STATUS_SET_OPEN = false ∨ s.dev.tie.synced = true) →
      Does (.syncReceive true off sp co res) s fun d =>
      d.reg MILEPOST.MP_SLEW = (BitVec.ofInt 32 (max (-0x80000000) (min 0x7FFFFFFF (-((s.dev.now + tks off.val) - (sp + co)).toInt)))) ∧
      d.flag MILEPOST.MP_STATUS_SLEWING = decide ((BitVec.ofInt 32 (max (-0x80000000) (min 0x7FFFFFFF (-((s.dev.now + tks off.val) - (sp + co)).toInt)))) ≠ 0) ∧
      d.time = { s.dev.time with slewTicks := 0 } ∧
      d.tie = { (s.dev.tieMet 0 [s.dev.fld TIE.TIE_CFG_MASTER]) with run := (if decide ((((s.dev.now + tks off.val) - (sp + co)).toInt).natAbs * 125 ≤ s.dev.fld TIE.TIE_ALIGN_TOL_PS * 8) then s.dev.tie.run + 1 else 0), synced := true, lastSync := s.dev.now } ∧
      s.dev.raised d (s.dev.hopEvents 0 ++ if (decide (16 ≤ (if decide ((((s.dev.now + tks off.val) - (sp + co)).toInt).natAbs * 125 ≤ s.dev.fld TIE.TIE_ALIGN_TOL_PS * 8) then s.dev.tie.run + 1 else 0)) && !s.dev.flag TIE.TIE_STATUS_ALIGNED) then [1214] else []) ∧
      d.flag TIE.TIE_STATUS_MASTER_SEEN = true ∧
      d.flag TIE.TIE_STATUS_ALIGNED = (s.dev.flag TIE.TIE_STATUS_ALIGNED || (decide (16 ≤ (if decide ((((s.dev.now + tks off.val) - (sp + co)).toInt).natAbs * 125 ≤ s.dev.fld TIE.TIE_ALIGN_TOL_PS * 8) then s.dev.tie.run + 1 else 0)) && !s.dev.flag TIE.TIE_STATUS_ALIGNED)) ∧
      d.fld TIE.TIE_MEAS_ERR_PS = (BitVec.ofInt 16 (max (-0x8000) (min 0x7FFF (((s.dev.now + tks off.val) - (sp + co)).toInt * 125 / 8)))).toNat ∧
      d.sent = [.frame 0 3 0 (toBytes 8 sp.toNat ++ toBytes 8 (co + res + BitVec.ofInt 64 s.dev.tie.delay).toNat)] ∧
      { s.dev with tie := d.tie, time := d.time }.keepsUnits d ∧
      s.dev.keepsRegs d [TIE.TIE_STATUS, TIE.TIE_MEAS, MILEPOST.MP_SLEW, MILEPOST.MP_STATUS, MILEPOST.MP_FLAGS_LATE.addr] ∧
      s.dev.noRecord d) ∧
  (∀ (lane : Fin 2) (g : Fin 16) (base at_ : DWord) (seq : Nat), s.dev.tieOn = true →
      (s.dev.tie.recvd.contains ((s.dev.fld TIE.TIE_CFG_MASTER), seq)) = true →
      Does (.planReceive lane true g base at_ seq) s fun d => s.dev.tieTakes d lane.val [(s.dev.fld TIE.TIE_CFG_MASTER)] [] ∧
      d.tieAcks lane.val seq [] ∧ d.tie = (s.dev.tieMet lane.val [(s.dev.fld TIE.TIE_CFG_MASTER)]) ∧
      s.dev.raised d (s.dev.hopEvents lane.val)) ∧
  (∀ (lane : Fin 2) (p : Fin 4) (j : Fin 32) (seq : Nat), s.dev.tieOn = true → (s.dev.tie.recvd.contains (p.val, seq)) = true →
      Does (.tieEventReceive lane true p j seq) s fun d => s.dev.tieTakes d lane.val [p.val] [] ∧ d.tieAcks lane.val seq [] ∧
      d.tie = (s.dev.tieMet lane.val [p.val]) ∧ s.dev.raised d (s.dev.hopEvents lane.val)) ∧
  (∀ (lane : Fin 2) (p : Fin 4) (ad da : Word) (wr : Bool) (seq : Nat), s.dev.tieOn = true →
      (s.dev.tie.recvd.contains (p.val, seq)) = true → Does (.raReqReceive lane true p ad da wr seq) s fun d =>
      s.dev.tieTakes d lane.val [p.val] [] ∧ d.tieAcks lane.val seq [] ∧ d.tie = (s.dev.tieMet lane.val [p.val]) ∧
      s.dev.raised d (s.dev.hopEvents lane.val)) ∧
  (∀ (lane : Fin 2) (p : Fin 4) (da : Word) (rs : Fin 3) (cs : Fin 16) (seq : Nat), s.dev.tieOn = true →
      (s.dev.tie.recvd.contains (p.val, seq)) = true → Does (.raRspReceive lane true p da rs cs seq) s fun d =>
      s.dev.tieTakes d lane.val [p.val] [] ∧ d.tieAcks lane.val seq [] ∧ d.tie = (s.dev.tieMet lane.val [p.val]) ∧
      s.dev.raised d (s.dev.hopEvents lane.val)) ∧
  (∀ (lane : Fin 2) (p : Fin 4) (j : Fin 32) (seq : Nat), s.dev.tieOn = true → (s.dev.tie.recvd.contains (p.val, seq)) = false →
      Does (.tieEventReceive lane true p j seq) s fun d => s.dev.tieTakes d lane.val [p.val] [] ∧ d.tieAcks lane.val seq [] ∧
      d.tie = ((s.dev.tieMet lane.val [p.val]).received p.val seq) ∧
      s.dev.raised d (s.dev.hopEvents lane.val ++ [1408 + 32 * p.val + j.val])) ∧
  (∀ (lane : Fin 2) (g : Fin 16) (base at_ : DWord) (seq : Nat), s.dev.tieOn = true →
      (s.dev.tie.recvd.contains ((s.dev.fld TIE.TIE_CFG_MASTER), seq)) = false → s.dev.fld TIE.TIE_CFG_MASTER = s.dev.tiePos →
      Does (.planReceive lane true g base at_ seq) s fun d => s.dev.tieTakes d lane.val [(s.dev.fld TIE.TIE_CFG_MASTER)] [] ∧
      d.tieAcks lane.val seq [] ∧
      d.tie = ((s.dev.tieMet lane.val [(s.dev.fld TIE.TIE_CFG_MASTER)]).received (s.dev.fld TIE.TIE_CFG_MASTER) seq) ∧
      s.dev.raised d (s.dev.hopEvents lane.val)) ∧
  (∀ (lane : Fin 2) (g : Fin 16) (base at_ : DWord) (seq : Nat), s.dev.tieOn = true →
      s.dev.fld TIE.TIE_CFG_MASTER ≠ s.dev.tiePos → (s.dev.tie.recvd.contains ((s.dev.fld TIE.TIE_CFG_MASTER), seq)) = false →
      s.dev.grp 0x800 = {} → s.dev.due at_ = false → before at_ s.dev.now = false →
      Does (.planReceive lane true g base at_ seq) s fun d => d.tieAcks lane.val seq [] ∧
      d.tie = ((s.dev.tieMet lane.val [(s.dev.fld TIE.TIE_CFG_MASTER)]).received (s.dev.fld TIE.TIE_CFG_MASTER) seq) ∧
      d.grp 0x800 = { s.dev.grp 0x800 with st := .pending, owner := (0x0700 + BitVec.ofNat 16 (s.dev.fld TIE.TIE_CFG_MASTER)), claimT := (d.grp 0x800).claimT, mode := .atTime, atT := at_, target := at_, goT := at_ - nsT 10000, staged := Tab.put (TIE.PLAN_T g + 4) ((base >>> 32).setWidth 32) (Tab.put (TIE.PLAN_T g) (base.setWidth 32) []) } ∧
      Tab.keeps {} [0x800] s.dev.groups d.groups ∧ { s.dev with tie := d.tie, groups := d.groups }.keepsUnits d ∧
      s.dev.keepsRegs d [TIE.TIE_STATUS] ∧ s.dev.noRecord d) ∧
  (∀ (lane : Fin 2) (g : Fin 16) (base at_ : DWord) (seq : Nat), s.dev.tieOn = true →
      s.dev.fld TIE.TIE_CFG_MASTER ≠ s.dev.tiePos → (s.dev.tie.recvd.contains ((s.dev.fld TIE.TIE_CFG_MASTER), seq)) = false →
      s.dev.grp 0x800 = {} → before at_ s.dev.now = true → s.dev.lgDram = false → s.dev.planT0 = [] →
      ((List.range 48).all fun t => !s.dev.flag (TIE.TIMER_PLAN_VALID t)) = true →
      Does (.planReceive lane true g base at_ seq) s fun d => d.tieAcks lane.val seq [] ∧ d.reg64 (TIE.PLAN_T g) = base ∧
      (d.grp 0x800).st = .idle ∧ (d.grp 0x800).late = true ∧
      d.tie = { ((s.dev.tieMet lane.val [(s.dev.fld TIE.TIE_CFG_MASTER)]).received (s.dev.fld TIE.TIE_CFG_MASTER) seq) with planned := true } ∧
      d.num MILEPOST.LATE_COUNT = satInc 0xFFFFFFFF (s.dev.num MILEPOST.LATE_COUNT) ∧ d.reg64 MILEPOST.LATE_LAST = at_ ∧
      Tab.keeps {} [0x800] s.dev.groups d.groups) ∧
  (∀ (lane : Fin 2) (p : Fin 4) (ad da : Word) (wr : Bool) (seq : Nat), s.dev.tieOn = true →
      (s.dev.tie.recvd.contains (p.val, seq)) = false → wr = false → (0x10000000 ≤ ad.toNat ∧ ad.toNat < 0x10800000 ∧
      ad.toNat % 4 = 0) →
      (s.dev.memMapped ad.toNat 4 && s.dev.memOpen (0x0700 + BitVec.ofNat 16 p.val) ad.toNat 4 false) = true → s.dev.ecc = [] →
      Does (.raReqReceive lane true p ad da wr seq) s fun d => s.dev.tieTakes d lane.val [p.val] [] ∧
      d.tieAcks lane.val seq ([.frame d.tieLane 7 s.dev.tie.seq (toBytes 4 ad.toNat ++ toBytes 4 (s.dev.le ad.toNat 4) ++ [BitVec.ofNat 8 0, BitVec.ofNat 8 0])]) ∧
      d.tie = ((s.dev.tieMet lane.val [p.val]).received p.val seq).sends 7 p.val (toBytes 4 ad.toNat ++ toBytes 4 (s.dev.le ad.toNat 4) ++ [BitVec.ofNat 8 0, BitVec.ofNat 8 0]) s.dev.now ∧
      s.dev.raised d (s.dev.hopEvents lane.val)) ∧
  (∀ (lane : Fin 2) (p : Fin 4) (ad da : Word) (seq : Nat), s.dev.tieOn = true →
      (s.dev.tie.recvd.contains (p.val, seq)) = false → (0x10000000 ≤ ad.toNat ∧ ad.toNat < 0x10800000 ∧ ad.toNat % 4 = 0) →
      (s.dev.memMapped ad.toNat 4 && s.dev.memOpen (0x0700 + BitVec.ofNat 16 p.val) ad.toNat 4 true) = true → s.dev.ecc = [] →
      s.dev.flag MEMCTL.ECC_FLIP_ARM = false → s.dev.lgDram = false → Does (.raReqReceive lane true p ad da true seq) s fun d =>
      d.tieAcks lane.val seq ([.frame d.tieLane 7 s.dev.tie.seq (toBytes 4 ad.toNat ++ toBytes 4 0 ++ [BitVec.ofNat 8 0, BitVec.ofNat 8 0])]) ∧
      d.tie = ((s.dev.tieMet lane.val [p.val]).received p.val seq).sends 7 p.val (toBytes 4 ad.toNat ++ toBytes 4 0 ++ [BitVec.ofNat 8 0, BitVec.ofNat 8 0]) s.dev.now ∧
      s.dev.raised d (s.dev.hopEvents lane.val) ∧ d.le ad.toNat 4 = da.toNat ∧ s.dev.bytesKept d ad.toNat (ad.toNat + 4) ∧
      { s.dev with tie := d.tie, mem := d.mem }.keepsUnits d ∧ s.dev.keepsRegs d [TIE.TIE_STATUS] ∧ s.dev.noRecord d) ∧
  (∀ (lane : Fin 2) (p : Fin 4) (ad da : Word) (wr : Bool) (seq : Nat), s.dev.tieOn = true →
      (s.dev.tie.recvd.contains (p.val, seq)) = false → (decide (ad.toNat % 4 = 0) && (decide (0x10000000 ≤ ad.toNat ∧
      ad.toNat < 0x10800000) || decide (0x20000000 ≤ ad.toNat ∧ ad.toNat < 0x20080000) || decide (0x40000000 ≤ ad.toNat ∧
      ad.toNat < 0x41000000))) = false → Does (.raReqReceive lane true p ad da wr seq) s fun d =>
      s.dev.tieTakes d lane.val [p.val] [] ∧
      d.tieAcks lane.val seq ([.frame d.tieLane 7 s.dev.tie.seq (toBytes 4 ad.toNat ++ toBytes 4 0 ++ [BitVec.ofNat 8 2, BitVec.ofNat 8 0])]) ∧
      d.tie = ((s.dev.tieMet lane.val [p.val]).received p.val seq).sends 7 p.val (toBytes 4 ad.toNat ++ toBytes 4 0 ++ [BitVec.ofNat 8 2, BitVec.ofNat 8 0]) s.dev.now ∧
      s.dev.raised d (s.dev.hopEvents lane.val)) ∧
  (∀ (lane : Fin 2) (p : Fin 4) (ad da : Word) (wr : Bool) (seq : Nat), s.dev.tieOn = true →
      (s.dev.tie.recvd.contains (p.val, seq)) = false → (0x10000000 ≤ ad.toNat ∧ ad.toNat < 0x10800000 ∧ ad.toNat % 4 = 0) →
      (s.dev.memMapped ad.toNat 4 && s.dev.memOpen (0x0700 + BitVec.ofNat 16 p.val) ad.toNat 4 wr) = false →
      Does (.raReqReceive lane true p ad da wr seq) s fun d => s.dev.tieTakes d lane.val [p.val] [] ∧
      d.tieAcks lane.val seq ([.frame d.tieLane 7 s.dev.tie.seq (toBytes 4 ad.toNat ++ toBytes 4 0 ++ [BitVec.ofNat 8 2, BitVec.ofNat 8 0])]) ∧
      d.tie = ((s.dev.tieMet lane.val [p.val]).received p.val seq).sends 7 p.val (toBytes 4 ad.toNat ++ toBytes 4 0 ++ [BitVec.ofNat 8 2, BitVec.ofNat 8 0]) s.dev.now ∧
      s.dev.raised d (s.dev.hopEvents lane.val)) ∧
  (∀ (lane : Fin 2) (p : Fin 4) (da : Word) (rs : Fin 3) (cs : Fin 16) (seq : Nat), s.dev.tieOn = true →
      (s.dev.tie.recvd.contains (p.val, seq)) = false → s.dev.flag TIE.RA_STATUS_BUSY = true → s.dev.tie.raPeer = p.val →
      Does (.raRspReceive lane true p da rs cs seq) s fun d => s.dev.tieTakes d lane.val [p.val] [TIE.RA_STATUS, TIE.RA_DATA] ∧
      d.tieAcks lane.val seq [] ∧ d.tie = ((s.dev.tieMet lane.val [p.val]).received p.val seq) ∧
      s.dev.raised d (s.dev.hopEvents lane.val) ∧ (d.reg TIE.RA_DATA = if s.dev.tie.raWrite = false ∧
      rs.val = 0 then da else s.dev.reg TIE.RA_DATA) ∧ d.flag TIE.RA_STATUS_BUSY = false ∧ d.flag TIE.RA_STATUS_DONE = true ∧
      d.fld TIE.RA_STATUS_RESULT = rs.val ∧ d.fld TIE.RA_STATUS_CAUSE = (if rs.val = 1 then cs.val else 0)) ∧
  (∀ (lane : Fin 2) (p : Fin 4) (da : Word) (rs : Fin 3) (cs : Fin 16) (seq : Nat), s.dev.tieOn = true →
      (s.dev.tie.recvd.contains (p.val, seq)) = false → (s.dev.flag TIE.RA_STATUS_BUSY = false ∨ s.dev.tie.raPeer ≠ p.val) →
      Does (.raRspReceive lane true p da rs cs seq) s fun d => s.dev.tieTakes d lane.val [p.val] [] ∧ d.tieAcks lane.val seq [] ∧
      d.tie = ((s.dev.tieMet lane.val [p.val]).received p.val seq) ∧ s.dev.raised d (s.dev.hopEvents lane.val)) ∧
  (s.dev.flag TIE.RA_STATUS_BUSY = true → s.dev.due (s.dev.tie.raSince + nsT 50000) = true → Does (.tieRaTimeout) s fun d =>
      d.flag TIE.RA_STATUS_BUSY = false ∧ d.flag TIE.RA_STATUS_DONE = true ∧ d.fld TIE.RA_STATUS_RESULT = 3 ∧
      d.fld TIE.RA_STATUS_CAUSE = 0 ∧ s.dev.keepsUnits d ∧ s.dev.keepsRegs d [TIE.RA_STATUS] ∧ s.dev.noRecord d) ∧
  ((s.dev.flag TIE.RA_STATUS_BUSY = false ∨ s.dev.due (s.dev.tie.raSince + nsT 50000) = false) → Does (.tieRaTimeout) s fun d =>
      s.dev.keepsUnits d ∧ s.dev.keepsRegs d [] ∧ s.dev.noRecord d) ∧
  (∀ (a : Agent) (v : Word), s.dev.takes a.id TIE.RA_CTRL v = true → wordBit v 31 = true → wordBit v 4 = false →
      Does (.tieRaRead a v) s fun d => d.answer = .ok ∧ d.flag TIE.RA_STATUS_BUSY = true ∧ d.flag TIE.RA_STATUS_DONE = false ∧
      d.fld TIE.RA_STATUS_RESULT = 0 ∧ d.fld TIE.RA_STATUS_CAUSE = 0 ∧
      d.tie = ({ s.dev.tie with raSince := s.dev.now, raPeer := v.toNat % 4, raWrite := false } : TieSt).sends 6 (v.toNat % 4) (toBytes 4 (s.dev.num TIE.RA_ADDR) ++ toBytes 4 (s.dev.num TIE.RA_DATA) ++ [0, BitVec.ofNat 8 (v.toNat % 4), BitVec.ofNat 8 s.dev.tiePos]) s.dev.now ∧
      d.sent = [.frame s.dev.tieLane 6 s.dev.tie.seq (toBytes 4 (s.dev.num TIE.RA_ADDR) ++ toBytes 4 (s.dev.num TIE.RA_DATA) ++ [0, BitVec.ofNat 8 (v.toNat % 4), BitVec.ofNat 8 s.dev.tiePos])] ∧
      s.dev.keepsRegs d [TIE.RA_CTRL, TIE.RA_STATUS] ∧ { s.dev with tie := d.tie }.keepsUnits d) ∧
  (∀ (a : Agent) (v : Word), s.dev.takes a.id TIE.RA_CTRL v = true → wordBit v 31 = true → wordBit v 4 = true →
      Does (.tieRaWrite a v) s fun d => d.answer = .ok ∧ d.flag TIE.RA_STATUS_BUSY = true ∧ d.flag TIE.RA_STATUS_DONE = false ∧
      d.fld TIE.RA_STATUS_RESULT = 0 ∧ d.fld TIE.RA_STATUS_CAUSE = 0 ∧
      d.tie = ({ s.dev.tie with raSince := s.dev.now, raPeer := v.toNat % 4, raWrite := true } : TieSt).sends 6 (v.toNat % 4) (toBytes 4 (s.dev.num TIE.RA_ADDR) ++ toBytes 4 (s.dev.num TIE.RA_DATA) ++ [1, BitVec.ofNat 8 (v.toNat % 4), BitVec.ofNat 8 s.dev.tiePos]) s.dev.now ∧
      d.sent = [.frame s.dev.tieLane 6 s.dev.tie.seq (toBytes 4 (s.dev.num TIE.RA_ADDR) ++ toBytes 4 (s.dev.num TIE.RA_DATA) ++ [1, BitVec.ofNat 8 (v.toNat % 4), BitVec.ofNat 8 s.dev.tiePos])] ∧
      s.dev.keepsRegs d [TIE.RA_CTRL, TIE.RA_STATUS] ∧ { s.dev with tie := d.tie }.keepsUnits d) ∧
  (∀ (lane : Fin 2) (p : Fin 4) (seq : Nat), s.dev.tieOn = true → Does (.ackReceive lane true p seq) s fun d =>
      s.dev.tieTakes d lane.val [p.val] [] ∧
      d.tie = { (s.dev.tieMet lane.val [p.val]) with unacked := s.dev.tie.unacked.filter fun f => !(decide (f.peer = p.val) && decide (f.seq = seq)) } ∧
      s.dev.raised d (s.dev.hopEvents lane.val) ∧ d.sent = []) ∧
  (∀ (f : TieFrame) (l m : List TieFrame), s.dev.tie.unacked = l ++ f :: m →
      (l.all fun x => decide (x ≠ f) && !s.dev.due x.nextAt) = true → s.dev.due f.nextAt = true →
      (m.all fun x => decide (x ≠ f)) = true → f.sends ≤ 8 → Does (.tieResend) s fun d =>
      d.tie = { s.dev.tie with unacked := l ++ { f with sends := f.sends + 1, nextAt := f.nextAt + nsT 1000 } :: m } ∧
      d.sent = [.frame s.dev.tieLane f.typ f.seq f.body] ∧
      d.fld TIE.TIE_COUNTS_RESENDS = satInc 0xFFFF (s.dev.fld TIE.TIE_COUNTS_RESENDS) ∧
      d.fld TIE.TIE_COUNTS_CRC_ERRS = s.dev.fld TIE.TIE_COUNTS_CRC_ERRS ∧ { s.dev with tie := d.tie }.keepsUnits d ∧
      s.dev.keepsRegs d [TIE.TIE_COUNTS] ∧ s.dev.noRecord d) ∧
  (∀ (f : TieFrame) (l m : List TieFrame), s.dev.tie.unacked = l ++ f :: m →
      (l.all fun x => decide (x ≠ f) && !s.dev.due x.nextAt) = true → s.dev.due f.nextAt = true →
      (m.all fun x => decide (x ≠ f)) = true → f.sends > 8 → Does (.tieResend) s fun d =>
      d.tie = { s.dev.tie with unacked := l ++ m } ∧ d.sent = [] ∧ { s.dev with tie := d.tie }.keepsUnits d ∧
      s.dev.keepsRegs d [] ∧ s.dev.noRecord d) ∧
  ((s.dev.tie.unacked.all fun x => !s.dev.due x.nextAt) = true → Does (.tieResend) s fun d => s.dev.keepsUnits d ∧
      s.dev.keepsRegs d [] ∧ s.dev.noRecord d ∧ d.sent = []) ∧
  (s.dev.tieOn = true → s.dev.fld TIE.TIE_CFG_MASTER ≠ s.dev.tiePos →
      (s.dev.flag TIE.TIE_STATUS_MASTER_SEEN = true ∨ s.dev.flag TIE.TIE_STATUS_ALIGNED = true) →
      s.dev.due (s.dev.tie.lastSync + nsT (1000 * s.dev.fld TIE.TIE_ALIGN_LOSS_US)) = true → Does (.tieSyncLoss) s fun d =>
      d.flag TIE.TIE_STATUS_MASTER_SEEN = false ∧ d.flag MILEPOST.MP_STATUS_TIE_FOLLOWER = false ∧
      d.flag TIE.TIE_STATUS_ALIGNED = false ∧ d.tie = { s.dev.tie with run := 0 } ∧
      s.dev.raised d (if s.dev.flag TIE.TIE_STATUS_ALIGNED then [1215] else []) ∧ { s.dev with tie := d.tie }.keepsUnits d ∧
      s.dev.keepsRegs d [TIE.TIE_STATUS, MILEPOST.MP_STATUS] ∧
      s.dev.oneRecord d (wordRecord s.dev.nowNs .system 0 0x0600 TIE.TIE_STATUS (d.reg TIE.TIE_STATUS) (s.dev.reg TIE.TIE_STATUS))) ∧
  (s.dev.due (s.dev.tie.lastSync + nsT (1000 * s.dev.fld TIE.TIE_ALIGN_LOSS_US)) = false → Does (.tieSyncLoss) s fun d =>
      s.dev.keepsUnits d ∧ s.dev.keepsRegs d [] ∧ s.dev.noRecord d) ∧
  (∀ (h : Fin 2), s.dev.fld (hopFld h.val) ≠ 0 →
      s.dev.due ((if h.val = 0 then s.dev.tie.hop0 else s.dev.tie.hop1).last + nsT (1000 * s.dev.fld TIE.TIE_ALIGN_LOSS_US)) = true →
      ((List.range 4).all fun p => !(bitOf (s.dev.fld TIE.TIE_STATUS_PEERS) p && s.dev.due (Tab.get 0 p s.dev.tie.heard + nsT (1000 * s.dev.fld TIE.TIE_ALIGN_LOSS_US)))) = true →
      Does (.tieHopLoss h) s fun d => d.fld (hopFld h.val) = 0 ∧ d.fld (hopFld (1 - h.val)) = s.dev.fld (hopFld (1 - h.val)) ∧
      d.fld TIE.TIE_STATUS_PEERS = s.dev.fld TIE.TIE_STATUS_PEERS ∧
      d.tie = (if h.val = 0 then { s.dev.tie with hop0 := { s.dev.tie.hop0 with good := 0 } } else { s.dev.tie with hop1 := { s.dev.tie.hop1 with good := 0 } }) ∧
      s.dev.raised d [1213] ∧ { s.dev with tie := d.tie }.keepsUnits d ∧ s.dev.keepsRegs d [TIE.TIE_STATUS] ∧
      s.dev.oneRecord d (wordRecord s.dev.nowNs .system 0 0x0600 TIE.TIE_STATUS (d.reg TIE.TIE_STATUS) (s.dev.reg TIE.TIE_STATUS))) ∧
  (∀ (h : Fin 2) (p : Fin 4), s.dev.fld (hopFld h.val) ≠ 0 →
      s.dev.due ((if h.val = 0 then s.dev.tie.hop0 else s.dev.tie.hop1).last + nsT (1000 * s.dev.fld TIE.TIE_ALIGN_LOSS_US)) = true →
      ((List.range 4).all fun k => (bitOf (s.dev.fld TIE.TIE_STATUS_PEERS) k && s.dev.due (Tab.get 0 k s.dev.tie.heard + nsT (1000 * s.dev.fld TIE.TIE_ALIGN_LOSS_US))) == decide (k = p.val)) = true →
      s.dev.holdsNone (0x0700 + BitVec.ofNat 16 p.val) = true → s.dev.led.fresh = [] → Does (.tieHopLoss h) s fun d =>
      d.fld (hopFld h.val) = 0 ∧
      (∀ k : Fin 4, bitOf (d.fld TIE.TIE_STATUS_PEERS) k = (bitOf (s.dev.fld TIE.TIE_STATUS_PEERS) k && decide (k ≠ p))) ∧
      d.tie = (if h.val = 0 then { s.dev.tie with hop0 := { s.dev.tie.hop0 with good := 0 } } else { s.dev.tie with hop1 := { s.dev.tie.hop1 with good := 0 } }) ∧
      s.dev.raised d [1213, 1216] ∧ d.faults = s.dev.faults ++ [{ src := 0x15, unit := p.val, stamp := s.dev.nowNs }] ∧
      { s.dev with tie := d.tie, faults := d.faults }.keepsUnits d ∧ s.dev.keepsRegs d [TIE.TIE_STATUS] ∧
      d.reg LEDGER.LG_NEXT_SEQ = s.dev.reg LEDGER.LG_NEXT_SEQ + 2) ∧
  (∀ (h : Fin 2), s.dev.fld (hopFld h.val) = 0 → Does (.tieHopLoss h) s fun d => s.dev.keepsUnits d ∧ s.dev.keepsRegs d [] ∧
      s.dev.noRecord d)

/-- For every state: DBG_CMD.GO with READ reads 1, 2, 4 or 8 bytes of memory, a register or a system register of the halted core of DBG_CORE into DBG_DATA, and with WRITE writes them, as agent 0x0500, with DONE set; an access that is refused, unmapped or uncorrectable leaves the data and sets ERROR. HALT stops a running core between instructions, a sleeping one, or both cores of a lockstep pair that have retired the same count, and marks a core in the middle of an instruction to stop after it; RESUME and STEP of a halted core continue it, STEP for one instruction. BYPASS, IDCODE, SAMPLE/PRELOAD, EXTEST and DBGPORT of the TAP are carried out while the debug domain is powered. That the TAP has one boundary cell a pin, and its instruction numbers, are the model's (log entry 46). Where a clause rests on a reading or a choice of the model, it is the model's and not the spec's: log entries 46, 91, 126 and 127. -/
def Obligations.DebugPort : Prop :=
  ∀ s : State,
  (∀ (a : Agent) (v : Word), s.dev.takes a.id DEBUG.DBG_CMD v = true → wordBit v 31 = true → wordBit v 0 = false →
      ((addr40 (s.dev.reg64 DEBUG.DBG_ADDR)) < 0x10800000 ∧ 0x10000000 ≤ (addr40 (s.dev.reg64 DEBUG.DBG_ADDR)) ∧
      (addr40 (s.dev.reg64 DEBUG.DBG_ADDR)) % (2 ^ bitsOf v.toNat 5 4) = 0) →
      (s.dev.memMapped (addr40 (s.dev.reg64 DEBUG.DBG_ADDR)) (2 ^ bitsOf v.toNat 5 4) && s.dev.memOpen 0x0500 (addr40 (s.dev.reg64 DEBUG.DBG_ADDR)) (2 ^ bitsOf v.toNat 5 4) false) = true →
      s.dev.ecc = [] → Does (.debugRead a v) s fun d => d.answer = .ok ∧
      d.reg64 DEBUG.DBG_DATA = BitVec.ofNat 64 (s.dev.le (addr40 (s.dev.reg64 DEBUG.DBG_ADDR)) (2 ^ bitsOf v.toNat 5 4)) ∧
      d.flag DEBUG.DBG_STATUS_BUSY = false ∧ d.flag DEBUG.DBG_STATUS_DONE = true ∧ d.flag DEBUG.DBG_STATUS_ERROR = false ∧
      s.dev.keepsRegs d [DEBUG.DBG_STATUS, DEBUG.DBG_DATA, DEBUG.DBG_DATA + 4, DEBUG.DBG_CMD] ∧ s.dev.keepsUnits d ∧
      s.dev.oneRecord d (wordRecord s.dev.nowNs .live 0 a.id DEBUG.DBG_CMD v 0)) ∧
  (∀ (a : Agent) (v : Word), s.dev.takes a.id DEBUG.DBG_CMD v = true → wordBit v 31 = true → wordBit v 0 = false →
      (2 ^ bitsOf v.toNat 5 4) = 4 → (addr40 (s.dev.reg64 DEBUG.DBG_ADDR)) = 0x40000000 + ID.IDCODE →
      s.dev.blkLevel 0x0500 0x3F ≠ 0 → Does (.debugRead a v) s fun d => d.answer = .ok ∧
      d.reg64 DEBUG.DBG_DATA = BitVec.ofNat 64 (s.dev.num ID.IDCODE) ∧ d.flag DEBUG.DBG_STATUS_BUSY = false ∧
      d.flag DEBUG.DBG_STATUS_DONE = true ∧ d.flag DEBUG.DBG_STATUS_ERROR = false ∧
      s.dev.keepsRegs d [DEBUG.DBG_STATUS, DEBUG.DBG_DATA, DEBUG.DBG_DATA + 4, DEBUG.DBG_CMD] ∧ s.dev.keepsUnits d ∧
      s.dev.oneRecord d (wordRecord s.dev.nowNs .live 0 a.id DEBUG.DBG_CMD v 0)) ∧
  (∀ (a : Agent) (v : Word), s.dev.takes a.id DEBUG.DBG_CMD v = true → wordBit v 31 = true → wordBit v 0 = false →
      ((0x10800000 ≤ (addr40 (s.dev.reg64 DEBUG.DBG_ADDR)) ∧
      (addr40 (s.dev.reg64 DEBUG.DBG_ADDR)) < 0x18000000) ∨ (0x50000000 ≤ (addr40 (s.dev.reg64 DEBUG.DBG_ADDR)) ∧
      (addr40 (s.dev.reg64 DEBUG.DBG_ADDR)) < 0x60000000)) → Does (.debugRead a v) s fun d => d.answer = .ok ∧
      d.reg64 DEBUG.DBG_DATA = s.dev.reg64 DEBUG.DBG_DATA ∧ d.flag DEBUG.DBG_STATUS_BUSY = false ∧
      d.flag DEBUG.DBG_STATUS_DONE = true ∧ d.flag DEBUG.DBG_STATUS_ERROR = true ∧
      s.dev.keepsRegs d [DEBUG.DBG_STATUS, DEBUG.DBG_CMD] ∧ s.dev.keepsUnits d ∧
      s.dev.oneRecord d (wordRecord s.dev.nowNs .live 0 a.id DEBUG.DBG_CMD v 0)) ∧
  (∀ (a : Agent) (v : Word), s.dev.takes a.id DEBUG.DBG_CMD v = true → wordBit v 31 = true → wordBit v 0 = true →
      ((0x10800000 ≤ (addr40 (s.dev.reg64 DEBUG.DBG_ADDR)) ∧
      (addr40 (s.dev.reg64 DEBUG.DBG_ADDR)) < 0x18000000) ∨ (0x50000000 ≤ (addr40 (s.dev.reg64 DEBUG.DBG_ADDR)) ∧
      (addr40 (s.dev.reg64 DEBUG.DBG_ADDR)) < 0x60000000)) → Does (.debugWrite a v) s fun d => d.answer = .ok ∧
      d.reg64 DEBUG.DBG_DATA = s.dev.reg64 DEBUG.DBG_DATA ∧ d.flag DEBUG.DBG_STATUS_BUSY = false ∧
      d.flag DEBUG.DBG_STATUS_DONE = true ∧ d.flag DEBUG.DBG_STATUS_ERROR = true ∧
      s.dev.keepsRegs d [DEBUG.DBG_STATUS, DEBUG.DBG_CMD] ∧ s.dev.keepsUnits d ∧
      s.dev.oneRecord d (wordRecord s.dev.nowNs .live 0 a.id DEBUG.DBG_CMD v 0)) ∧
  (∀ (a : Agent) (v : Word), s.dev.takes a.id DEBUG.DBG_CMD v = true → wordBit v 31 = true → wordBit v 0 = false →
      (2 ^ bitsOf v.toNat 5 4) = 4 → ((addr40 (s.dev.reg64 DEBUG.DBG_ADDR)) < 0xE0010000 ∧
      0xE0000000 ≤ (addr40 (s.dev.reg64 DEBUG.DBG_ADDR)) ∧ (addr40 (s.dev.reg64 DEBUG.DBG_ADDR)) % 4 = 0) →
      s.dev.coreState s.dev.dbgCore = 4 → Does (.debugRead a v) s fun d => d.answer = .ok ∧
      d.reg64 DEBUG.DBG_DATA = BitVec.ofNat 64 (s.dev.sysRead s.dev.dbgCore ((addr40 (s.dev.reg64 DEBUG.DBG_ADDR)) - 0xE0000000)).toNat ∧
      d.flag DEBUG.DBG_STATUS_BUSY = false ∧ d.flag DEBUG.DBG_STATUS_DONE = true ∧ d.flag DEBUG.DBG_STATUS_ERROR = false ∧
      s.dev.keepsRegs d [DEBUG.DBG_STATUS, DEBUG.DBG_DATA, DEBUG.DBG_DATA + 4, DEBUG.DBG_CMD] ∧ s.dev.keepsUnits d ∧
      s.dev.oneRecord d (wordRecord s.dev.nowNs .live 0 a.id DEBUG.DBG_CMD v 0)) ∧
  (∀ (a : Agent) (v : Word), s.dev.takes a.id DEBUG.DBG_CMD v = true → wordBit v 31 = true → wordBit v 0 = true →
      (2 ^ bitsOf v.toNat 5 4) = 4 → ((addr40 (s.dev.reg64 DEBUG.DBG_ADDR)) < 0xE0010000 ∧
      0xE0000000 ≤ (addr40 (s.dev.reg64 DEBUG.DBG_ADDR)) ∧ (addr40 (s.dev.reg64 DEBUG.DBG_ADDR)) % 4 = 0) →
      s.dev.coreState s.dev.dbgCore = 4 → s.dev.lockstep s.dev.dbgCore = false → Does (.debugWrite a v) s fun d =>
      d.answer = .ok ∧
      d.core s.dev.dbgCore = (s.dev.core s.dev.dbgCore).sysWrite ((addr40 (s.dev.reg64 DEBUG.DBG_ADDR)) - 0xE0000000) ((s.dev.reg64 DEBUG.DBG_DATA).setWidth 32) ∧
      Tab.keeps {} [s.dev.dbgCore] s.dev.cores d.cores ∧ d.flag DEBUG.DBG_STATUS_BUSY = false ∧
      d.flag DEBUG.DBG_STATUS_DONE = true ∧ d.flag DEBUG.DBG_STATUS_ERROR = false ∧
      s.dev.keepsRegs d [DEBUG.DBG_STATUS, CORES.CORE_STATUS s.dev.dbgCore, DEBUG.DBG_CMD] ∧
      { s.dev with cores := d.cores }.keepsUnits d ∧ s.dev.oneRecord d (wordRecord s.dev.nowNs .live 0 a.id DEBUG.DBG_CMD v 0)) ∧
  (∀ (a : Agent) (v : Word), s.dev.takes a.id DEBUG.DBG_CMD v = true → wordBit v 31 = true → wordBit v 0 = false →
      ((addr40 (s.dev.reg64 DEBUG.DBG_ADDR)) < 0xE0010000 ∧ 0xE0000000 ≤ (addr40 (s.dev.reg64 DEBUG.DBG_ADDR)) ∧
      (addr40 (s.dev.reg64 DEBUG.DBG_ADDR)) % 4 = 0) → (s.dev.coreState s.dev.dbgCore ≠ 4 ∨ (2 ^ bitsOf v.toNat 5 4) ≠ 4) →
      Does (.debugRead a v) s fun d => d.answer = .ok ∧ d.flag DEBUG.DBG_STATUS_BUSY = false ∧
      d.flag DEBUG.DBG_STATUS_DONE = true ∧ d.flag DEBUG.DBG_STATUS_ERROR = true ∧
      s.dev.keepsRegs d [DEBUG.DBG_STATUS, DEBUG.DBG_CMD] ∧ s.dev.keepsUnits d ∧
      s.dev.oneRecord d (wordRecord s.dev.nowNs .live 0 a.id DEBUG.DBG_CMD v 0)) ∧
  (∀ (a : Agent) (v : Word), s.dev.takes a.id DEBUG.DBG_CMD v = true → wordBit v 31 = true → wordBit v 0 = true →
      ((addr40 (s.dev.reg64 DEBUG.DBG_ADDR)) < 0xE0010000 ∧ 0xE0000000 ≤ (addr40 (s.dev.reg64 DEBUG.DBG_ADDR)) ∧
      (addr40 (s.dev.reg64 DEBUG.DBG_ADDR)) % 4 = 0) → (s.dev.coreState s.dev.dbgCore ≠ 4 ∨ (2 ^ bitsOf v.toNat 5 4) ≠ 4) →
      Does (.debugWrite a v) s fun d => d.answer = .ok ∧ d.flag DEBUG.DBG_STATUS_BUSY = false ∧
      d.flag DEBUG.DBG_STATUS_DONE = true ∧ d.flag DEBUG.DBG_STATUS_ERROR = true ∧
      s.dev.keepsRegs d [DEBUG.DBG_STATUS, DEBUG.DBG_CMD] ∧ s.dev.keepsUnits d ∧
      s.dev.oneRecord d (wordRecord s.dev.nowNs .live 0 a.id DEBUG.DBG_CMD v 0)) ∧
  (∀ (a : Agent) (v : Word), s.dev.takes a.id DEBUG.DBG_CMD v = true → wordBit v 31 = true → wordBit v 0 = true →
      ((addr40 (s.dev.reg64 DEBUG.DBG_ADDR)) < 0x10800000 ∧ 0x10000000 ≤ (addr40 (s.dev.reg64 DEBUG.DBG_ADDR)) ∧
      (addr40 (s.dev.reg64 DEBUG.DBG_ADDR)) % (2 ^ bitsOf v.toNat 5 4) = 0) →
      (s.dev.memMapped (addr40 (s.dev.reg64 DEBUG.DBG_ADDR)) (2 ^ bitsOf v.toNat 5 4) && s.dev.memOpen 0x0500 (addr40 (s.dev.reg64 DEBUG.DBG_ADDR)) (2 ^ bitsOf v.toNat 5 4) true) = true →
      s.dev.ecc = [] → s.dev.flag MEMCTL.ECC_FLIP_ARM = false → s.dev.lgDram = false → Does (.debugWrite a v) s fun d =>
      d.answer = .ok ∧
      d.le (addr40 (s.dev.reg64 DEBUG.DBG_ADDR)) (2 ^ bitsOf v.toNat 5 4) = (s.dev.reg64 DEBUG.DBG_DATA).toNat % 2 ^ (8 * (2 ^ bitsOf v.toNat 5 4)) ∧
      s.dev.bytesKept d (addr40 (s.dev.reg64 DEBUG.DBG_ADDR)) ((addr40 (s.dev.reg64 DEBUG.DBG_ADDR)) + (2 ^ bitsOf v.toNat 5 4)) ∧
      d.flag DEBUG.DBG_STATUS_BUSY = false ∧ d.flag DEBUG.DBG_STATUS_DONE = true ∧ d.flag DEBUG.DBG_STATUS_ERROR = false ∧
      s.dev.keepsRegs d [DEBUG.DBG_STATUS, DEBUG.DBG_CMD] ∧ { s.dev with mem := d.mem }.keepsUnits d ∧
      s.dev.oneRecord d (wordRecord s.dev.nowNs .live 0 a.id DEBUG.DBG_CMD v 0)) ∧
  (∀ (a : Agent) (v : Word), s.dev.takes a.id DEBUG.DBG_CORE v = true → v.toNat % 8 = 1 →
      s.dev.lockstep (bitsOf v.toNat 5 4) = false → s.dev.coreState (bitsOf v.toNat 5 4) = 2 →
      ((s.dev.core (bitsOf v.toNat 5 4)).req.isSome || (s.dev.core (bitsOf v.toNat 5 4)).parting || (s.dev.core (bitsOf v.toNat 5 4)).joinSince.isSome) = false →
      Does (.dbgHalt a v) s fun d => d.answer = .ok ∧ d.coreState (bitsOf v.toNat 5 4) = 4 ∧
      d.core (bitsOf v.toNat 5 4) = (s.dev.core (bitsOf v.toNat 5 4)) ∧ Tab.keeps {} [(bitsOf v.toNat 5 4)] s.dev.cores d.cores ∧
      s.dev.keepsRegs d [DEBUG.DBG_CORE, CORES.CORE_STATUS (bitsOf v.toNat 5 4)] ∧
      { s.dev with dbgCore := (bitsOf v.toNat 5 4) }.keepsUnits d ∧
      s.dev.oneRecord d (wordRecord s.dev.nowNs .live 0 a.id DEBUG.DBG_CORE v 0)) ∧
  (∀ (a : Agent) (v : Word), s.dev.takes a.id DEBUG.DBG_CORE v = true → v.toNat % 8 = 1 →
      s.dev.lockstep (bitsOf v.toNat 5 4) = false → s.dev.coreState (bitsOf v.toNat 5 4) = 2 →
      ((s.dev.core (bitsOf v.toNat 5 4)).req.isSome || (s.dev.core (bitsOf v.toNat 5 4)).parting || (s.dev.core (bitsOf v.toNat 5 4)).joinSince.isSome) = true →
      Does (.dbgHalt a v) s fun d => d.answer = .ok ∧ d.coreState (bitsOf v.toNat 5 4) = 2 ∧
      d.core (bitsOf v.toNat 5 4) = { (s.dev.core (bitsOf v.toNat 5 4)) with haltReq := true } ∧
      Tab.keeps {} [(bitsOf v.toNat 5 4)] s.dev.cores d.cores ∧
      s.dev.keepsRegs d [DEBUG.DBG_CORE, CORES.CORE_STATUS (bitsOf v.toNat 5 4)] ∧
      { s.dev with dbgCore := (bitsOf v.toNat 5 4), cores := d.cores }.keepsUnits d ∧
      s.dev.oneRecord d (wordRecord s.dev.nowNs .live 0 a.id DEBUG.DBG_CORE v 0)) ∧
  (∀ (a : Agent) (v : Word), s.dev.takes a.id DEBUG.DBG_CORE v = true → v.toNat % 8 = 1 →
      s.dev.lockstep (bitsOf v.toNat 5 4) = false → s.dev.coreState (bitsOf v.toNat 5 4) = 3 → Does (.dbgHalt a v) s fun d =>
      d.answer = .ok ∧ d.coreState (bitsOf v.toNat 5 4) = 4 ∧
      d.core (bitsOf v.toNat 5 4) = { (s.dev.core (bitsOf v.toNat 5 4)) with asleep := true } ∧
      Tab.keeps {} [(bitsOf v.toNat 5 4)] s.dev.cores d.cores ∧
      s.dev.keepsRegs d [DEBUG.DBG_CORE, CORES.CORE_STATUS (bitsOf v.toNat 5 4)] ∧
      { s.dev with dbgCore := (bitsOf v.toNat 5 4), cores := d.cores }.keepsUnits d ∧
      s.dev.oneRecord d (wordRecord s.dev.nowNs .live 0 a.id DEBUG.DBG_CORE v 0)) ∧
  (∀ (a : Agent) (v : Word), s.dev.takes a.id DEBUG.DBG_CORE v = true → v.toNat % 8 = 1 →
      s.dev.lockstep (bitsOf v.toNat 5 4) = false → s.dev.coreState (bitsOf v.toNat 5 4) ≠ 2 →
      s.dev.coreState (bitsOf v.toNat 5 4) ≠ 3 → Does (.dbgHalt a v) s fun d => d.answer = .ok ∧
      d.core (bitsOf v.toNat 5 4) = (s.dev.core (bitsOf v.toNat 5 4)) ∧ Tab.keeps {} [(bitsOf v.toNat 5 4)] s.dev.cores d.cores ∧
      s.dev.keepsRegs d [DEBUG.DBG_CORE] ∧ { s.dev with dbgCore := (bitsOf v.toNat 5 4) }.keepsUnits d ∧
      s.dev.oneRecord d (wordRecord s.dev.nowNs .live 0 a.id DEBUG.DBG_CORE v 0)) ∧
  (∀ (a : Agent) (v : Word), s.dev.takes a.id DEBUG.DBG_CORE v = true → v.toNat % 8 = 1 →
      s.dev.lockstep (2 * ((bitsOf v.toNat 5 4) / 2)) = true → s.dev.lockstep (2 * ((bitsOf v.toNat 5 4) / 2) + 1) = true →
      (s.dev.core (2 * ((bitsOf v.toNat 5 4) / 2))).retired = (s.dev.core (2 * ((bitsOf v.toNat 5 4) / 2) + 1)).retired →
      s.dev.coreState (2 * ((bitsOf v.toNat 5 4) / 2)) = 2 → s.dev.coreState (2 * ((bitsOf v.toNat 5 4) / 2) + 1) = 2 →
      ((s.dev.core (2 * ((bitsOf v.toNat 5 4) / 2))).req.isSome || (s.dev.core (2 * ((bitsOf v.toNat 5 4) / 2))).parting || (s.dev.core (2 * ((bitsOf v.toNat 5 4) / 2))).joinSince.isSome) = false →
      ((s.dev.core (2 * ((bitsOf v.toNat 5 4) / 2) + 1)).req.isSome || (s.dev.core (2 * ((bitsOf v.toNat 5 4) / 2) + 1)).parting || (s.dev.core (2 * ((bitsOf v.toNat 5 4) / 2) + 1)).joinSince.isSome) = false →
      Does (.dbgHalt a v) s fun d => d.answer = .ok ∧ d.coreState (2 * ((bitsOf v.toNat 5 4) / 2)) = 4 ∧
      d.coreState (2 * ((bitsOf v.toNat 5 4) / 2) + 1) = 4 ∧
      Tab.keeps {} [(bitsOf v.toNat 5 4), partner (bitsOf v.toNat 5 4)] s.dev.cores d.cores ∧
      s.dev.keepsRegs d [DEBUG.DBG_CORE, CORES.CORE_STATUS (2 * ((bitsOf v.toNat 5 4) / 2)), CORES.CORE_STATUS (2 * ((bitsOf v.toNat 5 4) / 2) + 1)] ∧
      { s.dev with dbgCore := (bitsOf v.toNat 5 4), cores := d.cores, pairs := d.pairs }.keepsUnits d ∧
      s.dev.oneRecord d (wordRecord s.dev.nowNs .live 0 a.id DEBUG.DBG_CORE v 0)) ∧
  (∀ (a : Agent) (v : Word), s.dev.takes a.id DEBUG.DBG_CORE v = true → v.toNat % 8 = 2 →
      s.dev.lockstep (bitsOf v.toNat 5 4) = false → s.dev.coreState (bitsOf v.toNat 5 4) = 4 → Does (.dbgResume a v) s fun d =>
      d.answer = .ok ∧ d.coreState (bitsOf v.toNat 5 4) = (if (s.dev.core (bitsOf v.toNat 5 4)).asleep then 3 else 2) ∧
      d.core (bitsOf v.toNat 5 4) = { (s.dev.core (bitsOf v.toNat 5 4)) with asleep := false, haltReq := false } ∧
      Tab.keeps {} [(bitsOf v.toNat 5 4)] s.dev.cores d.cores ∧
      s.dev.keepsRegs d [DEBUG.DBG_CORE, CORES.CORE_STATUS (bitsOf v.toNat 5 4)] ∧
      { s.dev with dbgCore := (bitsOf v.toNat 5 4), cores := d.cores }.keepsUnits d ∧
      s.dev.oneRecord d (wordRecord s.dev.nowNs .live 0 a.id DEBUG.DBG_CORE v 0)) ∧
  (∀ (a : Agent) (v : Word), v.toNat % 8 = 2 → s.dev.refuses a.id DEBUG.DBG_CORE v .state = true →
      Does (.dbgResume a v) s fun d => d.answer = .rejected .state ∧ s.dev.keepsUnits d ∧ s.dev.keepsRegs d []) ∧
  (∀ (a : Agent) (v : Word), s.dev.takes a.id DEBUG.DBG_CORE v = true → v.toNat % 8 = 3 →
      s.dev.lockstep (bitsOf v.toNat 5 4) = false → s.dev.coreState (bitsOf v.toNat 5 4) = 4 → Does (.dbgStep a v) s fun d =>
      d.answer = .ok ∧ d.coreState (bitsOf v.toNat 5 4) = (if (s.dev.core (bitsOf v.toNat 5 4)).asleep then 3 else 2) ∧
      d.core (bitsOf v.toNat 5 4) = { (s.dev.core (bitsOf v.toNat 5 4)) with asleep := false, haltReq := true } ∧
      Tab.keeps {} [(bitsOf v.toNat 5 4)] s.dev.cores d.cores ∧
      s.dev.keepsRegs d [DEBUG.DBG_CORE, CORES.CORE_STATUS (bitsOf v.toNat 5 4)] ∧
      { s.dev with dbgCore := (bitsOf v.toNat 5 4), cores := d.cores }.keepsUnits d ∧
      s.dev.oneRecord d (wordRecord s.dev.nowNs .live 0 a.id DEBUG.DBG_CORE v 0)) ∧
  (∀ (a : Agent) (v : Word), v.toNat % 8 = 3 → s.dev.refuses a.id DEBUG.DBG_CORE v .state = true → Does (.dbgStep a v) s fun d =>
      d.answer = .rejected .state ∧ s.dev.keepsUnits d ∧ s.dev.keepsRegs d []) ∧
  (∀ (a : Agent) (v : Word), s.dev.takes a.id DEBUG.DBG_CORE v = true → v.toNat % 8 = 3 →
      s.dev.lockstep (2 * ((bitsOf v.toNat 5 4) / 2)) = true → s.dev.lockstep (2 * ((bitsOf v.toNat 5 4) / 2) + 1) = true →
      s.dev.coreState (2 * ((bitsOf v.toNat 5 4) / 2)) = 4 → s.dev.coreState (2 * ((bitsOf v.toNat 5 4) / 2) + 1) = 4 →
      (s.dev.core (2 * ((bitsOf v.toNat 5 4) / 2))).asleep = false →
      (s.dev.core (2 * ((bitsOf v.toNat 5 4) / 2) + 1)).asleep = false → Does (.dbgStep a v) s fun d => d.answer = .ok ∧
      d.coreState (2 * ((bitsOf v.toNat 5 4) / 2)) = 2 ∧ d.coreState (2 * ((bitsOf v.toNat 5 4) / 2) + 1) = 2 ∧
      (d.pair ((bitsOf v.toNat 5 4) / 2)).haltAt = some (max (s.dev.core (2 * ((bitsOf v.toNat 5 4) / 2))).retired (s.dev.core (2 * ((bitsOf v.toNat 5 4) / 2) + 1)).retired + 1) ∧
      Tab.keeps {} [(bitsOf v.toNat 5 4), partner (bitsOf v.toNat 5 4)] s.dev.cores d.cores ∧
      s.dev.keepsRegs d [DEBUG.DBG_CORE, CORES.CORE_STATUS (2 * ((bitsOf v.toNat 5 4) / 2)), CORES.CORE_STATUS (2 * ((bitsOf v.toNat 5 4) / 2) + 1)] ∧
      { s.dev with dbgCore := (bitsOf v.toNat 5 4), cores := d.cores, pairs := d.pairs }.keepsUnits d ∧
      s.dev.oneRecord d (wordRecord s.dev.nowNs .live 0 a.id DEBUG.DBG_CORE v 0)) ∧
  (s.dev.domReady 58 = true → Does (.tapOperation .bypass) s fun d => d.answer = .ok ∧ d.tapIr = TAP.BYPASS ∧
      d.tapBsr = s.dev.tapBsr ∧ { s.dev with tapIr := d.tapIr, tapBsr := d.tapBsr }.keepsUnits d ∧ s.dev.keepsRegs d [] ∧
      s.dev.noRecord d) ∧
  (s.dev.domReady 58 = true → Does (.tapOperation .idcode) s fun d => d.answer = .value (s.dev.reg ID.IDCODE) ∧
      d.tapIr = TAP.IDCODE ∧ d.tapBsr = s.dev.tapBsr ∧ { s.dev with tapIr := d.tapIr, tapBsr := d.tapBsr }.keepsUnits d ∧
      s.dev.keepsRegs d [] ∧ s.dev.noRecord d) ∧
  (s.dev.domReady 58 = true → Does (.tapOperation .dbgport) s fun d => d.answer = .ok ∧ d.tapIr = TAP.DBGPORT ∧
      d.tapBsr = s.dev.tapBsr ∧ { s.dev with tapIr := d.tapIr, tapBsr := d.tapBsr }.keepsUnits d ∧ s.dev.keepsRegs d [] ∧
      s.dev.noRecord d) ∧
  (∀ (p : Fin 160) (l : Fin 4), s.dev.domReady 58 = true → Does (.tapOperation (.samplePreload [(p, l)])) s fun d =>
      d.answer = .data ((List.range 160).map fun k => BitVec.ofNat 8 (b2n (s.dev.pin k).raw)) ∧ d.tapIr = TAP.SAMPLE ∧
      Tab.get 3 p.val d.tapBsr = l ∧ Tab.keeps 3 [p.val] s.dev.tapBsr d.tapBsr ∧
      { s.dev with tapIr := d.tapIr, tapBsr := d.tapBsr }.keepsUnits d ∧ s.dev.keepsRegs d [] ∧ s.dev.noRecord d) ∧
  (∀ (p : Fin 160) (l : Fin 4), s.dev.domReady 58 = true → Does (.tapOperation (.extest [(p, l)])) s fun d =>
      d.answer = .data ((List.range 160).map fun k => BitVec.ofNat 8 (b2n (s.dev.pin k).raw)) ∧ d.tapIr = TAP.EXTEST ∧
      Tab.get 3 p.val d.tapBsr = l ∧ Tab.keeps 3 [p.val] s.dev.tapBsr d.tapBsr ∧
      { s.dev with tapIr := d.tapIr, tapBsr := d.tapBsr }.keepsUnits d ∧ s.dev.keepsRegs d [] ∧ s.dev.noRecord d) ∧
  (∀ (op : TapOp), s.dev.domReady 58 = false → Does (.tapOperation op) s fun d => d.answer = .ignored ∧ s.dev.keepsUnits d ∧
      s.dev.keepsRegs d [] ∧ s.dev.noRecord d)

/-- For every state: an accepted PROPOSE of party A makes STATE = PROPOSED, opens the window and makes one CONSENT record with CONS_DIGEST_00 and COUNT; the checks of R431 refuse it in their order; a CONFIRM of party B whose digest matches makes its CONSENT record and applies every entry that changes its word as one commit, a PROTECT word with a COMMIT record and a PIN_OWN word with an OWNER record and its level crossing, with RESULT = APPLIED; one that does not match is rejected with cause CONSENT, ends the consent with MISMATCH and raises CONSENT_REJECT; WITHDRAW ends it with WITHDRAWN and its record; the expired window ends it with TIMEOUT, the event and a SYSTEM record. Every ending increments CONS_SEQ. Where a clause rests on a reading or a choice of the model, it is the model's and not the spec's: log entries 41, 124 and 125. -/
def Obligations.DualConsent : Prop :=
  ∀ s : State,
  (∀ (a : Agent) (v : Word), v.toNat = 1 → (s.dev.proposed && before s.dev.cons.until_ (floorNs s.dev.now)) = false →
      s.dev.lgRoom = true → s.dev.refusalAt a.id PROTECT.CONS_CMD v = none → Does (.consPropose a v) s fun d => d.answer = .ok ∧
      d.proposed = true ∧ d.fld PROTECT.CONS_STATUS_RESULT = s.dev.fld PROTECT.CONS_STATUS_RESULT ∧
      d.cons.until_ = s.dev.now + nsT (s.dev.fld PROTECT.CONS_WINDOW_WINDOW_US * 1000) ∧
      s.dev.oneRecord d (wordRecord s.dev.nowNs .consent 0 a.id PROTECT.CONS_CMD (s.dev.reg (PROTECT.CONS_DIGEST 0)) (s.dev.reg PROTECT.CONS_COUNT)) ∧
      { s.dev with cons := d.cons }.keepsUnits d ∧ s.dev.keepsRegs d [PROTECT.CONS_CMD, PROTECT.CONS_STATUS]) ∧
  (∀ (a : Agent) (v : Word), v.toNat = 1 → (s.dev.proposed && before s.dev.cons.until_ (floorNs s.dev.now)) = false →
      s.dev.lgRoom = true →
      causeOf (match regHit PROTECT.CONS_CMD with | some h => s.dev.refusals a.id h PROTECT.CONS_CMD v.toNat | none => []) = none →
      a.id ≠ s.dev.partyA → Does (.consPropose a v) s fun d => d.answer = .rejected .permission ∧ s.dev.keepsUnits d ∧
      s.dev.keepsRegs d [] ∧
      s.dev.oneRecord d (wordRecord s.dev.nowNs .reject (16 * Cause.permission.code) a.id PROTECT.CONS_CMD v (s.dev.wordNow PROTECT.CONS_CMD))) ∧
  (∀ (a : Agent) (v : Word), v.toNat = 1 → (s.dev.proposed && before s.dev.cons.until_ (floorNs s.dev.now)) = false →
      s.dev.lgRoom = true →
      causeOf (match regHit PROTECT.CONS_CMD with | some h => s.dev.refusals a.id h PROTECT.CONS_CMD v.toNat | none => []) = none →
      a.id = s.dev.partyA → (s.dev.partyA = 0xFFFF ∨ s.dev.partyB = 0xFFFF) → Does (.consPropose a v) s fun d =>
      d.answer = .rejected .state ∧ s.dev.keepsUnits d ∧ s.dev.keepsRegs d [] ∧
      s.dev.oneRecord d (wordRecord s.dev.nowNs .reject (16 * Cause.state.code) a.id PROTECT.CONS_CMD v (s.dev.wordNow PROTECT.CONS_CMD))) ∧
  (∀ (a : Agent) (v : Word), v.toNat = 1 → (s.dev.proposed && before s.dev.cons.until_ (floorNs s.dev.now)) = false →
      s.dev.lgRoom = true →
      causeOf (match regHit PROTECT.CONS_CMD with | some h => s.dev.refusals a.id h PROTECT.CONS_CMD v.toNat | none => []) = none →
      s.dev.partyA ≠ 0xFFFF → s.dev.partyB ≠ 0xFFFF → a.id = s.dev.partyA → s.dev.proposed = true →
      Does (.consPropose a v) s fun d => d.answer = .rejected .pending ∧ s.dev.keepsUnits d ∧ s.dev.keepsRegs d [] ∧
      s.dev.oneRecord d (wordRecord s.dev.nowNs .reject (16 * Cause.pending.code) a.id PROTECT.CONS_CMD v (s.dev.wordNow PROTECT.CONS_CMD))) ∧
  (∀ (a : Agent) (v : Word), v.toNat = 1 → (s.dev.proposed && before s.dev.cons.until_ (floorNs s.dev.now)) = false →
      s.dev.lgRoom = true →
      causeOf (match regHit PROTECT.CONS_CMD with | some h => s.dev.refusals a.id h PROTECT.CONS_CMD v.toNat | none => []) = none →
      s.dev.partyA ≠ 0xFFFF → s.dev.partyB ≠ 0xFFFF → a.id = s.dev.partyA → s.dev.proposed = false →
      (s.dev.consCount = 0 ∨ s.dev.consCount > 16) → Does (.consPropose a v) s fun d => d.answer = .rejected .range ∧
      s.dev.keepsUnits d ∧ s.dev.keepsRegs d [] ∧
      s.dev.oneRecord d (wordRecord s.dev.nowNs .reject (16 * Cause.range.code) a.id PROTECT.CONS_CMD v (s.dev.wordNow PROTECT.CONS_CMD))) ∧
  (∀ (a : Agent) (v : Word), v.toNat = 1 → (s.dev.proposed && before s.dev.cons.until_ (floorNs s.dev.now)) = false →
      s.dev.lgRoom = true →
      causeOf (match regHit PROTECT.CONS_CMD with | some h => s.dev.refusals a.id h PROTECT.CONS_CMD v.toNat | none => []) = none →
      s.dev.partyA ≠ 0xFFFF → s.dev.partyB ≠ 0xFFFF → a.id = s.dev.partyA → s.dev.proposed = false → 1 ≤ s.dev.consCount →
      s.dev.consCount ≤ 16 → ((List.range s.dev.consCount).all fun n => consWord (s.dev.consTarget n)) = false →
      Does (.consPropose a v) s fun d => d.answer = .rejected .range ∧ s.dev.keepsUnits d ∧ s.dev.keepsRegs d [] ∧
      s.dev.oneRecord d (wordRecord s.dev.nowNs .reject (16 * Cause.range.code) a.id PROTECT.CONS_CMD v (s.dev.wordNow PROTECT.CONS_CMD))) ∧
  (∀ (a : Agent) (v : Word), v.toNat = 1 → (s.dev.proposed && before s.dev.cons.until_ (floorNs s.dev.now)) = false →
      s.dev.lgRoom = true →
      causeOf (match regHit PROTECT.CONS_CMD with | some h => s.dev.refusals a.id h PROTECT.CONS_CMD v.toNat | none => []) = none →
      s.dev.partyA ≠ 0xFFFF → s.dev.partyB ≠ 0xFFFF → a.id = s.dev.partyA → s.dev.proposed = false → 1 ≤ s.dev.consCount →
      s.dev.consCount ≤ 16 → ((List.range s.dev.consCount).all fun n => consWord (s.dev.consTarget n)) = true →
      ((List.range s.dev.consCount).all fun n => (consValueRefusal (s.dev.consTarget n) (s.dev.consValue n)).isNone) = true →
      s.dev.consDigestOk = false → Does (.consPropose a v) s fun d => d.answer = .rejected .consent ∧ s.dev.raised d [14] ∧
      s.dev.keepsUnits d ∧ s.dev.keepsRegs d [] ∧
      s.dev.oneRecord d (wordRecord s.dev.nowNs .reject (16 * Cause.consent.code) a.id PROTECT.CONS_CMD v (s.dev.wordNow PROTECT.CONS_CMD))) ∧
  (∀ (a : Agent) (v : Word) (t : Nat) (new old : Word), v.toNat = 2 →
      (s.dev.proposed && before s.dev.cons.until_ (floorNs s.dev.now)) = false → s.dev.lgRoom = true →
      s.dev.refusalAt a.id PROTECT.CONS_CMD v = none → s.dev.led.fresh = [] → s.dev.consChanges = [(t, new, old)] →
      ownPin t = none → consWord t = true → Does (.consConfirm a v) s fun d => d.answer = .ok ∧ d.reg t = new ∧
      d.led.chip.take 2 = [{ wordRecord s.dev.nowNs .commit 0 a.id t new old with seq := s.dev.reg LEDGER.LG_NEXT_SEQ + 1, cseq := BitVec.ofNat 16 (if s.dev.fld SYS.COMMIT_SEQ_SEQ = 0xFFFF then 1 else s.dev.fld SYS.COMMIT_SEQ_SEQ + 1) }, { wordRecord s.dev.nowNs .consent 0 a.id PROTECT.CONS_CMD (s.dev.reg (PROTECT.CONS_DIGEST 0)) (s.dev.reg PROTECT.CONS_SEQ) with seq := s.dev.reg LEDGER.LG_NEXT_SEQ }] ∧
      d.reg LEDGER.LG_NEXT_SEQ = s.dev.reg LEDGER.LG_NEXT_SEQ + 2 ∧
      d.fld SYS.COMMIT_SEQ_SEQ = (if s.dev.fld SYS.COMMIT_SEQ_SEQ = 0xFFFF then 1 else s.dev.fld SYS.COMMIT_SEQ_SEQ + 1) ∧
      d.fld PROTECT.CONS_STATUS_RESULT = 1 ∧ d.proposed = false ∧
      d.num PROTECT.CONS_SEQ = (s.dev.num PROTECT.CONS_SEQ + 1) % 2 ^ 32 ∧ s.dev.keepsUnits d ∧
      s.dev.keepsRegs d [PROTECT.CONS_CMD, PROTECT.CONS_STATUS, PROTECT.CONS_SEQ, SYS.COMMIT_SEQ, t]) ∧
  (∀ (a : Agent) (v : Word) (p : Fin 160) (new old : Word), v.toNat = 2 →
      (s.dev.proposed && before s.dev.cons.until_ (floorNs s.dev.now)) = false → s.dev.lgRoom = true →
      s.dev.refusalAt a.id PROTECT.CONS_CMD v = none → s.dev.led.fresh = [] →
      s.dev.consChanges = [(PINMUX.PIN_OWN p, new, old)] → Does (.consConfirm a v) s fun d => d.answer = .ok ∧
      d.reg (PINMUX.PIN_OWN p) = new ∧
      d.xings = Tab.put p.val { endT := s.dev.now + nsT (s.dev.fld (PINMUX.PIN_CFG_XING_NS p)), level := (match s.dev.fld (PINMUX.PIN_CFG_XING_LEVEL p) with | 0 => s.dev.ballLevel p | 1 => .low | 2 => .high | 3 => .mid | _ => .hiz) } s.dev.xings ∧
      d.led.chip.take 2 = [{ wordRecord s.dev.nowNs .owner 0 a.id (PINMUX.PIN_OWN p) new old with seq := s.dev.reg LEDGER.LG_NEXT_SEQ + 1, cseq := BitVec.ofNat 16 (if s.dev.fld SYS.COMMIT_SEQ_SEQ = 0xFFFF then 1 else s.dev.fld SYS.COMMIT_SEQ_SEQ + 1) }, { wordRecord s.dev.nowNs .consent 0 a.id PROTECT.CONS_CMD (s.dev.reg (PROTECT.CONS_DIGEST 0)) (s.dev.reg PROTECT.CONS_SEQ) with seq := s.dev.reg LEDGER.LG_NEXT_SEQ }] ∧
      d.reg LEDGER.LG_NEXT_SEQ = s.dev.reg LEDGER.LG_NEXT_SEQ + 2 ∧
      d.fld SYS.COMMIT_SEQ_SEQ = (if s.dev.fld SYS.COMMIT_SEQ_SEQ = 0xFFFF then 1 else s.dev.fld SYS.COMMIT_SEQ_SEQ + 1) ∧
      d.fld PROTECT.CONS_STATUS_RESULT = 1 ∧ d.proposed = false ∧
      d.num PROTECT.CONS_SEQ = (s.dev.num PROTECT.CONS_SEQ + 1) % 2 ^ 32 ∧
      { s.dev with xings := d.xings, pins := d.pins, wits := d.wits, freeCount := d.freeCount }.keepsUnits d ∧
      Tab.keeps {} [p.val] s.dev.pins d.pins ∧ Tab.keeps {} (if p.val < 96 then [p.val] else []) s.dev.wits d.wits ∧
      s.dev.keepsRegs d [PROTECT.CONS_CMD, PROTECT.CONS_STATUS, PROTECT.CONS_SEQ, SYS.COMMIT_SEQ, (PINMUX.PIN_OWN p), WITNESS.WIT_STATUS p]) ∧
  (∀ (a : Agent) (v : Word), v.toNat = 2 → (s.dev.proposed && before s.dev.cons.until_ (floorNs s.dev.now)) = false →
      s.dev.lgRoom = true → s.dev.refusalAt a.id PROTECT.CONS_CMD v = none → s.dev.led.fresh = [] → s.dev.consChanges = [] →
      Does (.consConfirm a v) s fun d => d.answer = .ok ∧
      s.dev.oneRecord d (wordRecord s.dev.nowNs .consent 0 a.id PROTECT.CONS_CMD (s.dev.reg (PROTECT.CONS_DIGEST 0)) (s.dev.reg PROTECT.CONS_SEQ)) ∧
      d.fld PROTECT.CONS_STATUS_RESULT = 1 ∧ d.proposed = false ∧
      d.num PROTECT.CONS_SEQ = (s.dev.num PROTECT.CONS_SEQ + 1) % 2 ^ 32 ∧ s.dev.keepsUnits d ∧
      s.dev.keepsRegs d [PROTECT.CONS_CMD, PROTECT.CONS_STATUS, PROTECT.CONS_SEQ, SYS.COMMIT_SEQ]) ∧
  (∀ (a : Agent) (v : Word), v.toNat = 2 → (s.dev.proposed && before s.dev.cons.until_ (floorNs s.dev.now)) = false →
      s.dev.lgRoom = true →
      causeOf (match regHit PROTECT.CONS_CMD with | some h => s.dev.refusals a.id h PROTECT.CONS_CMD v.toNat | none => []) = none →
      a.id ≠ s.dev.partyB → Does (.consConfirm a v) s fun d => d.answer = .rejected .permission ∧ s.dev.keepsUnits d ∧
      s.dev.keepsRegs d [] ∧
      s.dev.oneRecord d (wordRecord s.dev.nowNs .reject (16 * Cause.permission.code) a.id PROTECT.CONS_CMD v (s.dev.wordNow PROTECT.CONS_CMD))) ∧
  (∀ (a : Agent) (v : Word), v.toNat = 2 → (s.dev.proposed && before s.dev.cons.until_ (floorNs s.dev.now)) = false →
      s.dev.lgRoom = true →
      causeOf (match regHit PROTECT.CONS_CMD with | some h => s.dev.refusals a.id h PROTECT.CONS_CMD v.toNat | none => []) = none →
      a.id = s.dev.partyB → s.dev.proposed = false → Does (.consConfirm a v) s fun d => d.answer = .rejected .state ∧
      s.dev.keepsUnits d ∧ s.dev.keepsRegs d [] ∧
      s.dev.oneRecord d (wordRecord s.dev.nowNs .reject (16 * Cause.state.code) a.id PROTECT.CONS_CMD v (s.dev.wordNow PROTECT.CONS_CMD))) ∧
  (∀ (a : Agent) (v : Word), v.toNat = 2 → (s.dev.proposed && before s.dev.cons.until_ (floorNs s.dev.now)) = false →
      s.dev.lgRoom = true →
      causeOf (match regHit PROTECT.CONS_CMD with | some h => s.dev.refusals a.id h PROTECT.CONS_CMD v.toNat | none => []) = none →
      s.dev.partyA ≠ 0xFFFF → s.dev.partyB ≠ 0xFFFF → a.id = s.dev.partyB → s.dev.proposed = true → s.dev.consDigestOk = false →
      Does (.consConfirm a v) s fun d => d.answer = .rejected .consent ∧ d.fld PROTECT.CONS_STATUS_RESULT = 2 ∧
      d.proposed = false ∧ d.num PROTECT.CONS_SEQ = (s.dev.num PROTECT.CONS_SEQ + 1) % 2 ^ 32 ∧ s.dev.raised d [14] ∧
      s.dev.keepsUnits d ∧ s.dev.keepsRegs d [PROTECT.CONS_STATUS, PROTECT.CONS_SEQ] ∧
      s.dev.oneRecord d (wordRecord s.dev.nowNs .reject (16 * Cause.consent.code) a.id PROTECT.CONS_CMD v (s.dev.wordNow PROTECT.CONS_CMD))) ∧
  (∀ (a : Agent) (v : Word), v.toNat = 4 → (s.dev.proposed && before s.dev.cons.until_ (floorNs s.dev.now)) = false →
      s.dev.lgRoom = true → s.dev.refusalAt a.id PROTECT.CONS_CMD v = none → Does (.consWithdraw a v) s fun d => d.answer = .ok ∧
      s.dev.oneRecord d (wordRecord s.dev.nowNs .consent 0 a.id PROTECT.CONS_CMD (0) (s.dev.reg PROTECT.CONS_COUNT)) ∧
      d.fld PROTECT.CONS_STATUS_RESULT = 4 ∧ d.proposed = false ∧
      d.num PROTECT.CONS_SEQ = (s.dev.num PROTECT.CONS_SEQ + 1) % 2 ^ 32 ∧ s.dev.keepsUnits d ∧
      s.dev.keepsRegs d [PROTECT.CONS_CMD, PROTECT.CONS_STATUS, PROTECT.CONS_SEQ]) ∧
  (∀ (a : Agent) (v : Word), v.toNat = 4 → (s.dev.proposed && before s.dev.cons.until_ (floorNs s.dev.now)) = false →
      s.dev.lgRoom = true →
      causeOf (match regHit PROTECT.CONS_CMD with | some h => s.dev.refusals a.id h PROTECT.CONS_CMD v.toNat | none => []) = none →
      a.id ≠ s.dev.partyA → Does (.consWithdraw a v) s fun d => d.answer = .rejected .permission ∧ s.dev.keepsUnits d ∧
      s.dev.keepsRegs d [] ∧
      s.dev.oneRecord d (wordRecord s.dev.nowNs .reject (16 * Cause.permission.code) a.id PROTECT.CONS_CMD v (s.dev.wordNow PROTECT.CONS_CMD))) ∧
  (∀ (a : Agent) (v : Word), v.toNat = 4 → (s.dev.proposed && before s.dev.cons.until_ (floorNs s.dev.now)) = false →
      s.dev.lgRoom = true →
      causeOf (match regHit PROTECT.CONS_CMD with | some h => s.dev.refusals a.id h PROTECT.CONS_CMD v.toNat | none => []) = none →
      s.dev.partyA ≠ 0xFFFF → s.dev.partyB ≠ 0xFFFF → a.id = s.dev.partyA → s.dev.proposed = false →
      Does (.consWithdraw a v) s fun d => d.answer = .rejected .state ∧ s.dev.keepsUnits d ∧ s.dev.keepsRegs d [] ∧
      s.dev.oneRecord d (wordRecord s.dev.nowNs .reject (16 * Cause.state.code) a.id PROTECT.CONS_CMD v (s.dev.wordNow PROTECT.CONS_CMD))) ∧
  (s.dev.proposed = true → s.dev.due s.dev.cons.until_ = true → Does (.consentTimeout) s fun d =>
      d.fld PROTECT.CONS_STATUS_RESULT = 3 ∧ d.proposed = false ∧
      d.num PROTECT.CONS_SEQ = (s.dev.num PROTECT.CONS_SEQ + 1) % 2 ^ 32 ∧ s.dev.raised d [14] ∧
      s.dev.oneRecord d (wordRecord s.dev.nowNs .system 0 0x0600 PROTECT.CONS_STATUS (d.reg PROTECT.CONS_STATUS) (s.dev.reg PROTECT.CONS_STATUS)) ∧
      s.dev.keepsUnits d ∧ s.dev.keepsRegs d [PROTECT.CONS_STATUS, PROTECT.CONS_SEQ]) ∧
  ((s.dev.proposed && s.dev.due s.dev.cons.until_) = false → Does (.consentTimeout) s fun d => s.dev.keepsUnits d ∧
      s.dev.keepsRegs d [] ∧ s.dev.noRecord d)

/-- For every state: the occurrence that came first, of one nanosecond that of the lowest source, is handled once its nanosecond has ended: it is counted in SRC_COUNT, flagged in FM_ACTIVE and noted in FM_LAST and FM_LAST_T; the fixed responses of THERM_TRIP, of a pair mismatch, of a witness fault with ACTION = SAFE and of a rail with ON_LOSS are taken; then the ACTION of SRC_CFG puts the pins the unit drives, those of the safe group or all 160 in their safe states, each of which drives its pin at its safe level and shows in SAFE_NOW; a Sill request reaches its core; FAULT_N is asserted with a FAULT_ACTION record of FM_STATUS where it was not. Each action with records counts in ACTIONS and raises event 13. That an occurrence is handled by a command of its own is the model's form (log entry 1). Where a clause rests on a reading or a choice of the model, it is the model's and not the spec's: log entries 119, 120, 121 and 122. -/
def Obligations.FaultOccurrences : Prop :=
  ∀ s : State,
  (∀ (o : FaultOcc) (l m : List FaultOcc), s.dev.faults = l ++ o :: m → faultFirst o l m = true → o.src < 32 → o.unit < 0x10000 →
      floorNs o.stamp = floorNs s.dev.now → Does (.faultOccurrence) s fun d => d.answer = .waits ∧ d.faults = s.dev.faults ∧
      s.dev.keepsUnits d ∧ s.dev.keepsRegs d [] ∧ s.dev.noRecord d) ∧
  (s.dev.faults = [] → Does (.faultOccurrence) s fun d => s.dev.keepsUnits d ∧ s.dev.keepsRegs d [] ∧ s.dev.noRecord d) ∧
  (∀ (o : FaultOcc) (l m : List FaultOcc), s.dev.faults = l ++ o :: m → faultFirst o l m = true → o.src < 32 → o.unit < 0x10000 →
      floorNs o.stamp ≠ floorNs s.dev.now → s.dev.unanswered o = true → s.dev.fld (FAULT.SRC_CFG_ACTION o.src) = 0 →
      s.dev.fld (FAULT.SRC_CFG_SILL o.src) = 0 → s.dev.flag (FAULT.SRC_CFG_FAULT_N o.src) = false →
      Does (.faultOccurrence) s fun d => d.faults = l ++ m ∧ s.dev.noted d o ∧ s.dev.noRecord d ∧ d.freeCount = s.dev.freeCount ∧
      { s.dev with faults := d.faults }.keepsUnits d ∧ s.dev.keepsRegs d (noteKeys o.src)) ∧
  (∀ (o : FaultOcc) (l m : List FaultOcc), s.dev.faults = l ++ o :: m → faultFirst o l m = true → o.src < 32 → o.unit < 0x10000 →
      floorNs o.stamp ≠ floorNs s.dev.now → s.dev.unanswered o = true → s.dev.fld (FAULT.SRC_CFG_ACTION o.src) = 3 →
      s.dev.fld (FAULT.SRC_CFG_SILL o.src) = 0 → s.dev.flag (FAULT.SRC_CFG_FAULT_N o.src) = false →
      Does (.faultOccurrence) s fun d => d.faults = l ++ m ∧ s.dev.noted d o ∧ s.dev.madeSafe d (List.range 160) ∧
      s.dev.actions d (if s.dev.someNew (List.range 160) then 1 else 0) ∧ (s.dev.led.fresh = [] →
      d.reg LEDGER.LG_NEXT_SEQ = s.dev.reg LEDGER.LG_NEXT_SEQ + BitVec.ofNat 32 ((List.range 5).filter fun w => d.reg (FAULT.SAFE_NOW w) ≠ s.dev.reg (FAULT.SAFE_NOW w)).length) ∧
      { s.dev with faults := d.faults, outs := d.outs, wits := d.wits, safeRel := d.safeRel }.keepsUnits d ∧
      s.dev.keepsRegs d (noteKeys o.src ++ safeKeys)) ∧
  (∀ (o : FaultOcc) (l m : List FaultOcc), s.dev.faults = l ++ o :: m → faultFirst o l m = true → o.src < 32 → o.unit < 0x10000 →
      floorNs o.stamp ≠ floorNs s.dev.now → s.dev.unanswered o = true → s.dev.fld (FAULT.SRC_CFG_ACTION o.src) = 2 →
      s.dev.fld (FAULT.SRC_CFG_SILL o.src) = 0 → s.dev.flag (FAULT.SRC_CFG_FAULT_N o.src) = false →
      Does (.faultOccurrence) s fun d => d.faults = l ++ m ∧ s.dev.noted d o ∧
      s.dev.madeSafe d (s.dev.groupPins (s.dev.fld (FAULT.SRC_CFG_SAFE_GRP o.src))) ∧
      s.dev.actions d (if s.dev.someNew (s.dev.groupPins (s.dev.fld (FAULT.SRC_CFG_SAFE_GRP o.src))) then 1 else 0) ∧
      (s.dev.led.fresh = [] →
      d.reg LEDGER.LG_NEXT_SEQ = s.dev.reg LEDGER.LG_NEXT_SEQ + BitVec.ofNat 32 ((List.range 5).filter fun w => d.reg (FAULT.SAFE_NOW w) ≠ s.dev.reg (FAULT.SAFE_NOW w)).length) ∧
      { s.dev with faults := d.faults, outs := d.outs, wits := d.wits, safeRel := d.safeRel }.keepsUnits d ∧
      s.dev.keepsRegs d (noteKeys o.src ++ safeKeys)) ∧
  (∀ (o : FaultOcc) (l m : List FaultOcc), s.dev.faults = l ++ o :: m → faultFirst o l m = true → o.src < 32 → o.unit < 0x10000 →
      floorNs o.stamp ≠ floorNs s.dev.now → s.dev.unanswered o = true → s.dev.fld (FAULT.SRC_CFG_ACTION o.src) = 1 →
      s.dev.fld (FAULT.SRC_CFG_SILL o.src) = 0 → s.dev.flag (FAULT.SRC_CFG_FAULT_N o.src) = false →
      (o.src = 0x0A ∨ o.src = 0x0C) → o.unit < 96 → Does (.faultOccurrence) s fun d => d.faults = l ++ m ∧ s.dev.noted d o ∧
      s.dev.madeSafe d [o.unit] ∧ s.dev.actions d (if s.dev.someNew [o.unit] then 1 else 0) ∧
      (s.dev.mapBit (FAULT.SAFE_NOW 0) o.unit = false →
      s.dev.oneRecord d (wordRecord s.dev.nowNs .faultAction 0 0x0600 (FAULT.SAFE_NOW (o.unit / 32)) (d.reg (FAULT.SAFE_NOW (o.unit / 32))) (s.dev.reg (FAULT.SAFE_NOW (o.unit / 32))))) ∧
      { s.dev with faults := d.faults, outs := d.outs, wits := d.wits, safeRel := d.safeRel }.keepsUnits d ∧
      s.dev.keepsRegs d (noteKeys o.src ++ safeKeys)) ∧
  (∀ (o : FaultOcc) (l m : List FaultOcc), s.dev.faults = l ++ o :: m → faultFirst o l m = true → o.src < 32 → o.unit < 0x10000 →
      floorNs o.stamp ≠ floorNs s.dev.now → s.dev.unanswered o = true → s.dev.fld (FAULT.SRC_CFG_ACTION o.src) = 1 →
      s.dev.fld (FAULT.SRC_CFG_SILL o.src) = 0 → s.dev.flag (FAULT.SRC_CFG_FAULT_N o.src) = false → o.src = 0x0B → o.unit < 48 →
      Does (.faultOccurrence) s fun d => d.faults = l ++ m ∧ s.dev.noted d o ∧ s.dev.madeSafe d [2 * o.unit, 2 * o.unit + 1] ∧
      s.dev.actions d (if s.dev.someNew [2 * o.unit, 2 * o.unit + 1] then 1 else 0) ∧
      { s.dev with faults := d.faults, outs := d.outs, wits := d.wits, safeRel := d.safeRel }.keepsUnits d ∧
      s.dev.keepsRegs d (noteKeys o.src ++ safeKeys)) ∧
  (∀ (o : FaultOcc) (l m : List FaultOcc), s.dev.faults = l ++ o :: m → faultFirst o l m = true → o.src < 32 → o.unit < 0x10000 →
      floorNs o.stamp ≠ floorNs s.dev.now → s.dev.unanswered o = true → s.dev.fld (FAULT.SRC_CFG_ACTION o.src) = 1 →
      s.dev.fld (FAULT.SRC_CFG_SILL o.src) = 0 → s.dev.flag (FAULT.SRC_CFG_FAULT_N o.src) = false → o.src = 0x0D → o.unit < 8 →
      Does (.faultOccurrence) s fun d => d.faults = l ++ m ∧ s.dev.noted d o ∧ s.dev.madeSafe d (s.dev.railPhases o.unit) ∧
      s.dev.actions d (if s.dev.someNew (s.dev.railPhases o.unit) then 1 else 0) ∧
      { s.dev with faults := d.faults, outs := d.outs, wits := d.wits, safeRel := d.safeRel }.keepsUnits d ∧
      s.dev.keepsRegs d (noteKeys o.src ++ safeKeys)) ∧
  (∀ (o : FaultOcc) (l m : List FaultOcc), s.dev.faults = l ++ o :: m → faultFirst o l m = true → o.src < 32 → o.unit < 0x10000 →
      floorNs o.stamp ≠ floorNs s.dev.now → s.dev.unanswered o = true → s.dev.fld (FAULT.SRC_CFG_ACTION o.src) = 1 →
      s.dev.fld (FAULT.SRC_CFG_SILL o.src) = 0 → s.dev.flag (FAULT.SRC_CFG_FAULT_N o.src) = false → o.src = 0x13 → o.unit < 64 →
      Does (.faultOccurrence) s fun d => d.faults = l ++ m ∧ s.dev.noted d o ∧
      s.dev.madeSafe d ((List.range 160).filter fun p => decide (s.dev.pinFunc p = 2) && decide (s.dev.pinAgent p = 0x0200 + BitVec.ofNat 16 o.unit)) ∧
      s.dev.actions d (if s.dev.someNew ((List.range 160).filter fun p => decide (s.dev.pinFunc p = 2) && decide (s.dev.pinAgent p = 0x0200 + BitVec.ofNat 16 o.unit)) then 1 else 0) ∧
      { s.dev with faults := d.faults, outs := d.outs, wits := d.wits, safeRel := d.safeRel }.keepsUnits d ∧
      s.dev.keepsRegs d (noteKeys o.src ++ safeKeys)) ∧
  (∀ (o : FaultOcc) (l m : List FaultOcc), s.dev.faults = l ++ o :: m → faultFirst o l m = true → o.src < 32 → o.unit < 0x10000 →
      floorNs o.stamp ≠ floorNs s.dev.now → s.dev.unanswered o = true → s.dev.fld (FAULT.SRC_CFG_ACTION o.src) = 1 →
      s.dev.fld (FAULT.SRC_CFG_SILL o.src) = 0 → s.dev.flag (FAULT.SRC_CFG_FAULT_N o.src) = false → o.src = 0x14 → o.unit < 40 →
      Does (.faultOccurrence) s fun d => d.faults = l ++ m ∧ s.dev.noted d o ∧
      s.dev.madeSafe d (((List.range 8).map (s.dev.slotPin o.unit)).filter fun p => decide (p < 160) && decide (s.dev.pinFunc p = 3)) ∧
      s.dev.actions d (if s.dev.someNew (((List.range 8).map (s.dev.slotPin o.unit)).filter fun p => decide (p < 160) && decide (s.dev.pinFunc p = 3)) then 1 else 0) ∧
      { s.dev with faults := d.faults, outs := d.outs, wits := d.wits, safeRel := d.safeRel }.keepsUnits d ∧
      s.dev.keepsRegs d (noteKeys o.src ++ safeKeys)) ∧
  (∀ (o : FaultOcc) (l m : List FaultOcc), s.dev.faults = l ++ o :: m → faultFirst o l m = true → o.src < 32 → o.unit < 0x10000 →
      floorNs o.stamp ≠ floorNs s.dev.now → s.dev.unanswered o = true → s.dev.fld (FAULT.SRC_CFG_ACTION o.src) = 1 →
      s.dev.fld (FAULT.SRC_CFG_SILL o.src) = 0 → s.dev.flag (FAULT.SRC_CFG_FAULT_N o.src) = false → o.src = 0x09 → o.unit < 32 →
      (s.dev.fld (LOOP.SLOT_OUT_CFG_TARGET o.unit)) = 1 → Does (.faultOccurrence) s fun d => d.faults = l ++ m ∧
      s.dev.noted d o ∧
      s.dev.madeSafe d [2 * (s.dev.fld (LOOP.SLOT_OUT_CFG_INDEX o.unit)), 2 * (s.dev.fld (LOOP.SLOT_OUT_CFG_INDEX o.unit)) + 1] ∧
      s.dev.actions d (if s.dev.someNew [2 * (s.dev.fld (LOOP.SLOT_OUT_CFG_INDEX o.unit)), 2 * (s.dev.fld (LOOP.SLOT_OUT_CFG_INDEX o.unit)) + 1] then 1 else 0) ∧
      { s.dev with faults := d.faults, outs := d.outs, wits := d.wits, safeRel := d.safeRel }.keepsUnits d ∧
      s.dev.keepsRegs d (noteKeys o.src ++ safeKeys)) ∧
  (∀ (o : FaultOcc) (l m : List FaultOcc), s.dev.faults = l ++ o :: m → faultFirst o l m = true → o.src < 32 → o.unit < 0x10000 →
      floorNs o.stamp ≠ floorNs s.dev.now → s.dev.unanswered o = true → s.dev.fld (FAULT.SRC_CFG_ACTION o.src) = 1 →
      s.dev.fld (FAULT.SRC_CFG_SILL o.src) = 0 → s.dev.flag (FAULT.SRC_CFG_FAULT_N o.src) = false → o.src = 0x09 → o.unit < 32 →
      (s.dev.fld (LOOP.SLOT_OUT_CFG_TARGET o.unit)) = 2 → Does (.faultOccurrence) s fun d => d.faults = l ++ m ∧
      s.dev.noted d o ∧ s.dev.madeSafe d (s.dev.railPhases (s.dev.fld (LOOP.SLOT_OUT_CFG_INDEX o.unit))) ∧
      s.dev.actions d (if s.dev.someNew (s.dev.railPhases (s.dev.fld (LOOP.SLOT_OUT_CFG_INDEX o.unit))) then 1 else 0) ∧
      { s.dev with faults := d.faults, outs := d.outs, wits := d.wits, safeRel := d.safeRel }.keepsUnits d ∧
      s.dev.keepsRegs d (noteKeys o.src ++ safeKeys)) ∧
  (∀ (o : FaultOcc) (l m : List FaultOcc), s.dev.faults = l ++ o :: m → faultFirst o l m = true → o.src < 32 → o.unit < 0x10000 →
      floorNs o.stamp ≠ floorNs s.dev.now → s.dev.unanswered o = true → s.dev.fld (FAULT.SRC_CFG_ACTION o.src) = 1 →
      s.dev.fld (FAULT.SRC_CFG_SILL o.src) = 0 → s.dev.flag (FAULT.SRC_CFG_FAULT_N o.src) = false → o.src = 0x09 → o.unit < 32 →
      (s.dev.fld (LOOP.SLOT_OUT_CFG_TARGET o.unit)) = 3 → Does (.faultOccurrence) s fun d => d.faults = l ++ m ∧
      s.dev.noted d o ∧ s.dev.madeSafe d [(s.dev.fld (LOOP.SLOT_OUT_CFG_INDEX o.unit))] ∧
      s.dev.actions d (if s.dev.someNew [(s.dev.fld (LOOP.SLOT_OUT_CFG_INDEX o.unit))] then 1 else 0) ∧
      { s.dev with faults := d.faults, outs := d.outs, wits := d.wits, safeRel := d.safeRel }.keepsUnits d ∧
      s.dev.keepsRegs d (noteKeys o.src ++ safeKeys)) ∧
  (∀ (o : FaultOcc) (l m : List FaultOcc), s.dev.faults = l ++ o :: m → faultFirst o l m = true → o.src < 32 → o.unit < 0x10000 →
      floorNs o.stamp ≠ floorNs s.dev.now → s.dev.unanswered o = true → s.dev.fld (FAULT.SRC_CFG_ACTION o.src) = 1 →
      s.dev.fld (FAULT.SRC_CFG_SILL o.src) = 0 → s.dev.flag (FAULT.SRC_CFG_FAULT_N o.src) = false → o.src = 0x09 → o.unit < 32 →
      (s.dev.fld (LOOP.SLOT_OUT_CFG_TARGET o.unit)) = 0 → Does (.faultOccurrence) s fun d => d.faults = l ++ m ∧
      s.dev.noted d o ∧ s.dev.noRecord d ∧ { s.dev with faults := d.faults }.keepsUnits d ∧ s.dev.keepsRegs d (noteKeys o.src)) ∧
  (∀ (o : FaultOcc) (l m : List FaultOcc), s.dev.faults = l ++ o :: m → faultFirst o l m = true → o.src < 32 → o.unit < 0x10000 →
      floorNs o.stamp ≠ floorNs s.dev.now → s.dev.unanswered o = true → s.dev.fld (FAULT.SRC_CFG_ACTION o.src) = 1 →
      s.dev.fld (FAULT.SRC_CFG_SILL o.src) = 0 → s.dev.flag (FAULT.SRC_CFG_FAULT_N o.src) = false → o.src = 0x09 → o.unit < 32 →
      (s.dev.fld (LOOP.SLOT_OUT_CFG_TARGET o.unit)) = 4 →
      (s.dev.fld (LOOP.CG_CFG_TARGET (s.dev.fld (LOOP.SLOT_OUT_CFG_INDEX o.unit)))) = 1 → Does (.faultOccurrence) s fun d =>
      d.faults = l ++ m ∧ s.dev.noted d o ∧
      s.dev.madeSafe d [2 * (s.dev.fld (LOOP.CG_CFG_INDEX (s.dev.fld (LOOP.SLOT_OUT_CFG_INDEX o.unit)))), 2 * (s.dev.fld (LOOP.CG_CFG_INDEX (s.dev.fld (LOOP.SLOT_OUT_CFG_INDEX o.unit)))) + 1] ∧
      s.dev.actions d (if s.dev.someNew [2 * (s.dev.fld (LOOP.CG_CFG_INDEX (s.dev.fld (LOOP.SLOT_OUT_CFG_INDEX o.unit)))), 2 * (s.dev.fld (LOOP.CG_CFG_INDEX (s.dev.fld (LOOP.SLOT_OUT_CFG_INDEX o.unit)))) + 1] then 1 else 0) ∧
      { s.dev with faults := d.faults, outs := d.outs, wits := d.wits, safeRel := d.safeRel }.keepsUnits d ∧
      s.dev.keepsRegs d (noteKeys o.src ++ safeKeys)) ∧
  (∀ (o : FaultOcc) (l m : List FaultOcc), s.dev.faults = l ++ o :: m → faultFirst o l m = true → o.src < 32 → o.unit < 0x10000 →
      floorNs o.stamp ≠ floorNs s.dev.now → s.dev.unanswered o = true → s.dev.fld (FAULT.SRC_CFG_ACTION o.src) = 0 →
      s.dev.fld (FAULT.SRC_CFG_SILL o.src) = 0 → s.dev.flag (FAULT.SRC_CFG_FAULT_N o.src) = true →
      s.dev.flag FAULT.FM_STATUS_FAULT_N_ASSERTED = false → Does (.faultOccurrence) s fun d => d.faults = l ++ m ∧
      s.dev.noted d o ∧ d.fm = { s.dev.fm with held := true } ∧ d.flag FAULT.FM_STATUS_FAULT_N_ASSERTED = true ∧
      d.flag FAULT.FM_STATUS_FAULT_N_LOW = true ∧ s.dev.actions d 1 ∧
      s.dev.oneRecord d (wordRecord s.dev.nowNs .faultAction 0 0x0600 FAULT.FM_STATUS (withBits (s.dev.reg FAULT.FM_STATUS) [(24, true), (23, true)]) (s.dev.reg FAULT.FM_STATUS)) ∧
      { s.dev with faults := d.faults, fm := d.fm }.keepsUnits d ∧ s.dev.keepsRegs d (noteKeys o.src ++ [FAULT.FM_STATUS])) ∧
  (∀ (o : FaultOcc) (l m : List FaultOcc), s.dev.faults = l ++ o :: m → faultFirst o l m = true → o.src < 32 → o.unit < 0x10000 →
      floorNs o.stamp ≠ floorNs s.dev.now → s.dev.unanswered o = true → s.dev.fld (FAULT.SRC_CFG_ACTION o.src) = 0 →
      s.dev.fld (FAULT.SRC_CFG_SILL o.src) = 0 → s.dev.flag (FAULT.SRC_CFG_FAULT_N o.src) = true →
      s.dev.flag FAULT.FM_STATUS_FAULT_N_ASSERTED = true → Does (.faultOccurrence) s fun d => d.faults = l ++ m ∧
      s.dev.noted d o ∧ d.fm = { s.dev.fm with held := true } ∧ d.flag FAULT.FM_STATUS_FAULT_N_ASSERTED = true ∧
      s.dev.noRecord d ∧ { s.dev with faults := d.faults, fm := d.fm }.keepsUnits d ∧
      s.dev.keepsRegs d (noteKeys o.src ++ [FAULT.FM_STATUS])) ∧
  (∀ (o : FaultOcc) (l m : List FaultOcc) (c : Fin 4), s.dev.faults = l ++ o :: m → faultFirst o l m = true → o.src < 32 →
      o.unit < 0x10000 → floorNs o.stamp ≠ floorNs s.dev.now → s.dev.unanswered o = true →
      s.dev.fld (FAULT.SRC_CFG_ACTION o.src) = 0 → s.dev.fld (FAULT.SRC_CFG_SILL o.src) = 2 ^ c.val →
      s.dev.flag (FAULT.SRC_CFG_FAULT_N o.src) = false → s.dev.lockstep c.val = false → s.dev.lockstep (partner c.val) = false →
      s.dev.coreState c.val = 2 → (decide ((s.dev.core c.val).pl = 2) || (s.dev.core c.val).req.isSome) = true →
      Does (.faultOccurrence) s fun d => d.faults = l ++ m ∧ s.dev.noted d o ∧
      d.core c.val = { s.dev.core c.val with sillHeld := true } ∧ d.coreState c.val = s.dev.coreState c.val ∧
      Tab.keeps {} [c.val] s.dev.cores d.cores ∧
      { s.dev with faults := d.faults, cores := d.cores, pairs := d.pairs }.keepsUnits d ∧
      s.dev.keepsRegs d (noteKeys o.src ++ [CORES.CORE_STATUS c.val, CORES.CORE_PC c.val])) ∧
  (∀ (o : FaultOcc) (l m : List FaultOcc) (c : Fin 4), s.dev.faults = l ++ o :: m → faultFirst o l m = true → o.src < 32 →
      o.unit < 0x10000 → floorNs o.stamp ≠ floorNs s.dev.now → s.dev.unanswered o = true →
      s.dev.fld (FAULT.SRC_CFG_ACTION o.src) = 0 → s.dev.fld (FAULT.SRC_CFG_SILL o.src) = 2 ^ c.val →
      s.dev.flag (FAULT.SRC_CFG_FAULT_N o.src) = false → s.dev.lockstep c.val = false → s.dev.lockstep (partner c.val) = false →
      s.dev.coreState c.val ≠ 2 → s.dev.coreState c.val ≠ 3 → s.dev.coreState c.val ≠ 4 → Does (.faultOccurrence) s fun d =>
      d.faults = l ++ m ∧ s.dev.noted d o ∧ d.core c.val = s.dev.core c.val ∧ d.coreState c.val = s.dev.coreState c.val ∧
      Tab.keeps {} [c.val] s.dev.cores d.cores ∧
      { s.dev with faults := d.faults, cores := d.cores, pairs := d.pairs }.keepsUnits d ∧
      s.dev.keepsRegs d (noteKeys o.src ++ [CORES.CORE_STATUS c.val, CORES.CORE_PC c.val])) ∧
  (∀ (o : FaultOcc) (l m : List FaultOcc) (c : Fin 4), s.dev.faults = l ++ o :: m → faultFirst o l m = true → o.src < 32 →
      o.unit < 0x10000 → floorNs o.stamp ≠ floorNs s.dev.now → s.dev.unanswered o = true →
      s.dev.fld (FAULT.SRC_CFG_ACTION o.src) = 0 → s.dev.fld (FAULT.SRC_CFG_SILL o.src) = 2 ^ c.val →
      s.dev.flag (FAULT.SRC_CFG_FAULT_N o.src) = false → s.dev.lockstep c.val = false → s.dev.lockstep (partner c.val) = false →
      (s.dev.coreState c.val = 2 ∨ s.dev.coreState c.val = 3) → (s.dev.core c.val).pl < 2 → (s.dev.core c.val).req = none →
      (s.dev.core c.val).joinSince = none → (s.dev.core c.val).escDue = none → (s.dev.core c.val).sb.length ≤ 4 →
      (s.dev.core (partner c.val)).sillHeld = false → Does (.faultOccurrence) s fun d => d.faults = l ++ m ∧ s.dev.noted d o ∧
      d.core c.val = ({ s.dev.core c.val with sillHeld := false } : CoreSt).atSill c.val 6 0x7F 0 (s.dev.core c.val).pc ∧
      d.coreState c.val = 2 ∧ Tab.keeps {} [c.val] s.dev.cores d.cores ∧
      { s.dev with faults := d.faults, cores := d.cores, pairs := d.pairs }.keepsUnits d ∧
      s.dev.keepsRegs d (noteKeys o.src ++ [CORES.CORE_STATUS c.val, CORES.CORE_PC c.val])) ∧
  (∀ (o : FaultOcc) (l m : List FaultOcc), s.dev.faults = l ++ o :: m → faultFirst o l m = true → o.src < 32 → o.unit < 0x10000 →
      floorNs o.stamp ≠ floorNs s.dev.now → s.dev.unanswered o = true → s.dev.fld (FAULT.SRC_CFG_ACTION o.src) = 0 →
      s.dev.fld (FAULT.SRC_CFG_SILL o.src) = 3 → s.dev.flag (FAULT.SRC_CFG_FAULT_N o.src) = false → s.dev.lockstep 0 = true →
      s.dev.lockstep 1 = true → s.dev.coreState 0 = 2 → s.dev.coreState 1 = 2 → (s.dev.core 0).pl ≠ 2 →
      Does (.faultOccurrence) s fun d => d.faults = l ++ m ∧ s.dev.noted d o ∧
      d.core 0 = { s.dev.core 0 with sillHeld := true } ∧ d.core 1 = { s.dev.core 1 with sillHeld := true } ∧
      (d.pair 0).sillAt = some (max (s.dev.core 0).retired (s.dev.core 1).retired + 1) ∧
      Tab.keeps {} [0, 1] s.dev.cores d.cores ∧ s.dev.noRecord d ∧
      { s.dev with faults := d.faults, cores := d.cores, pairs := d.pairs }.keepsUnits d ∧
      s.dev.keepsRegs d (noteKeys o.src ++ [CORES.CORE_STATUS 0, CORES.CORE_STATUS 1, CORES.CORE_PC 0, CORES.CORE_PC 1])) ∧
  (∀ (o : FaultOcc) (l m : List FaultOcc), s.dev.faults = l ++ o :: m → faultFirst o l m = true → o.src < 32 → o.unit < 0x10000 →
      floorNs o.stamp ≠ floorNs s.dev.now → s.dev.fld (FAULT.SRC_CFG_ACTION o.src) = 0 →
      s.dev.fld (FAULT.SRC_CFG_SILL o.src) = 0 → s.dev.flag (FAULT.SRC_CFG_FAULT_N o.src) = false → o.src = 0x03 →
      Does (.faultOccurrence) s fun d => d.faults = l ++ m ∧ s.dev.noted d o ∧ s.dev.madeSafe d (List.range 160) ∧
      d.fm = { s.dev.fm with held := true } ∧ d.flag FAULT.FM_STATUS_FAULT_N_ASSERTED = true ∧
      d.flag FAULT.FM_STATUS_FAULT_N_LOW = true ∧
      s.dev.actions d ((if s.dev.someNew (List.range 160) then 1 else 0) + if s.dev.flag FAULT.FM_STATUS_FAULT_N_ASSERTED then 0 else 1) ∧
      { s.dev with faults := d.faults, outs := d.outs, wits := d.wits, safeRel := d.safeRel, fm := d.fm }.keepsUnits d ∧
      s.dev.keepsRegs d (noteKeys o.src ++ safeKeys)) ∧
  (∀ (o : FaultOcc) (l m : List FaultOcc), s.dev.faults = l ++ o :: m → faultFirst o l m = true → o.src < 32 → o.unit < 0x10000 →
      floorNs o.stamp ≠ floorNs s.dev.now → s.dev.fld (FAULT.SRC_CFG_ACTION o.src) = 0 →
      s.dev.fld (FAULT.SRC_CFG_SILL o.src) = 0 → s.dev.flag (FAULT.SRC_CFG_FAULT_N o.src) = false → o.src = 0x0A → o.unit < 96 →
      s.dev.fld (WITNESS.WIT_CFG_ACTION o.unit) = 2 → s.dev.phRole o.unit = 0 → Does (.faultOccurrence) s fun d =>
      d.faults = l ++ m ∧ s.dev.noted d o ∧ s.dev.madeSafe d [o.unit] ∧
      s.dev.actions d (if s.dev.someNew [o.unit] then 1 else 0) ∧ d.phState o.unit = 5 ∧
      { s.dev with faults := d.faults, outs := d.outs, wits := d.wits, safeRel := d.safeRel }.keepsUnits d ∧
      s.dev.keepsRegs d (noteKeys o.src ++ (PHASE.PH_STATE o.unit :: safeKeys))) ∧
  (∀ (o : FaultOcc) (l m : List FaultOcc), s.dev.faults = l ++ o :: m → faultFirst o l m = true → o.src < 32 → o.unit < 0x10000 →
      floorNs o.stamp ≠ floorNs s.dev.now → s.dev.fld (FAULT.SRC_CFG_ACTION o.src) = 0 →
      s.dev.fld (FAULT.SRC_CFG_SILL o.src) = 0 → s.dev.flag (FAULT.SRC_CFG_FAULT_N o.src) = false → o.src = 0x0A → o.unit < 96 →
      s.dev.fld (WITNESS.WIT_CFG_ACTION o.unit) = 1 → s.dev.detourOk (o.unit / 2) = true → Does (.faultOccurrence) s fun d =>
      d.faults = l ++ m ∧ s.dev.noted d o ∧ d.detState (o.unit / 2) = 1 ∧
      d.fld (WITNESS.DET_STATUS_PARTNER (o.unit / 2)) = (s.dev.fld (WITNESS.DET_CFG_SPARE (o.unit / 2))) ∧
      d.detState (s.dev.fld (WITNESS.DET_CFG_SPARE (o.unit / 2))) = 3 ∧
      d.fld (WITNESS.DET_STATUS_PARTNER (s.dev.fld (WITNESS.DET_CFG_SPARE (o.unit / 2)))) = (o.unit / 2) ∧
      (d.det (o.unit / 2)).tf = (s.dev.wit o.unit).tf ∧ Tab.keeps {} [(o.unit / 2)] s.dev.dets d.dets ∧
      Tab.keeps {} [2 * (s.dev.fld (WITNESS.DET_CFG_SPARE (o.unit / 2))), 2 * (s.dev.fld (WITNESS.DET_CFG_SPARE (o.unit / 2))) + 1] s.dev.wits d.wits ∧
      s.dev.noRecord d ∧ { s.dev with faults := d.faults, dets := d.dets, wits := d.wits }.keepsUnits d ∧
      s.dev.keepsRegs d (noteKeys o.src ++ [WITNESS.DET_STATUS (o.unit / 2), WITNESS.DET_STATUS (s.dev.fld (WITNESS.DET_CFG_SPARE (o.unit / 2)))])) ∧
  (∀ (o : FaultOcc) (l m : List FaultOcc), s.dev.faults = l ++ o :: m → faultFirst o l m = true → o.src < 32 → o.unit < 0x10000 →
      floorNs o.stamp ≠ floorNs s.dev.now → s.dev.fld (FAULT.SRC_CFG_ACTION o.src) = 0 →
      s.dev.fld (FAULT.SRC_CFG_SILL o.src) = 0 → s.dev.flag (FAULT.SRC_CFG_FAULT_N o.src) = false → o.src = 0x0A → o.unit < 96 →
      s.dev.fld (WITNESS.WIT_CFG_ACTION o.unit) = 1 → s.dev.detourOk (o.unit / 2) = false → s.dev.phRole o.unit = 0 →
      Does (.faultOccurrence) s fun d => d.faults = l ++ m ∧ s.dev.noted d o ∧ s.dev.madeSafe d [o.unit] ∧
      s.dev.actions d (if s.dev.someNew [o.unit] then 1 else 0) ∧
      { s.dev with faults := d.faults, outs := d.outs, wits := d.wits, safeRel := d.safeRel }.keepsUnits d ∧
      s.dev.keepsRegs d (noteKeys o.src ++ (PHASE.PH_STATE o.unit :: safeKeys))) ∧
  (∀ (o : FaultOcc) (l m : List FaultOcc), s.dev.faults = l ++ o :: m → faultFirst o l m = true → o.src < 32 → o.unit < 0x10000 →
      floorNs o.stamp ≠ floorNs s.dev.now → s.dev.fld (FAULT.SRC_CFG_ACTION o.src) = 0 →
      s.dev.fld (FAULT.SRC_CFG_SILL o.src) = 0 → s.dev.flag (FAULT.SRC_CFG_FAULT_N o.src) = false → o.src = 0x07 →
      Does (.faultOccurrence) s fun d => d.faults = l ++ m ∧ s.dev.noted d o ∧
      s.dev.madeSafe d ((((List.range 32).filter fun x => decide (s.dev.fld (LOOP.SLOT_STATUS_RUN x) = 4) && decide ((s.dev.slot x).held = some o.unit)).map s.dev.slotPins).flatten) ∧
      s.dev.actions d (if s.dev.someNew ((((List.range 32).filter fun x => decide (s.dev.fld (LOOP.SLOT_STATUS_RUN x) = 4) && decide ((s.dev.slot x).held = some o.unit)).map s.dev.slotPins).flatten) then 1 else 0) ∧
      { s.dev with faults := d.faults, outs := d.outs, wits := d.wits, safeRel := d.safeRel }.keepsUnits d ∧
      s.dev.keepsRegs d (noteKeys o.src ++ safeKeys)) ∧
  (∀ (o : FaultOcc) (l m : List FaultOcc), s.dev.faults = l ++ o :: m → faultFirst o l m = true → o.src < 32 → o.unit < 0x10000 →
      floorNs o.stamp ≠ floorNs s.dev.now → s.dev.fld (FAULT.SRC_CFG_ACTION o.src) = 0 →
      s.dev.fld (FAULT.SRC_CFG_SILL o.src) = 0 → s.dev.flag (FAULT.SRC_CFG_FAULT_N o.src) = false → o.src = 0x0D → o.unit < 8 →
      s.dev.flag (PHASE.PH_RAIL_CFG_ON_LOSS o.unit) = true → (s.dev.grp (grpKey 0x23 o.unit)).st = .idle →
      Does (.faultOccurrence) s fun d => d.faults = l ++ m ∧ s.dev.noted d o ∧ s.dev.madeSafe d (s.dev.railPhases o.unit) ∧
      s.dev.actions d 1 ∧ d.flag (PHASE.PH_RAIL_CFG_ENABLE o.unit) = false ∧ d.fld (PHASE.PH_RAIL_STATUS_STATE o.unit) = 2 ∧
      d.fld (PHASE.PH_RAIL_STATUS_N o.unit) = 0 ∧
      { s.dev with faults := d.faults, outs := d.outs, wits := d.wits, safeRel := d.safeRel, rails := d.rails, phs := d.phs }.keepsUnits d) ∧
  (∀ (o : FaultOcc) (l m : List FaultOcc), s.dev.faults = l ++ o :: m → faultFirst o l m = true → o.src < 32 → o.unit < 0x10000 →
      floorNs o.stamp ≠ floorNs s.dev.now → s.dev.fld (FAULT.SRC_CFG_ACTION o.src) = 0 →
      s.dev.fld (FAULT.SRC_CFG_SILL o.src) = 0 → s.dev.flag (FAULT.SRC_CFG_FAULT_N o.src) = false → o.src = 0x05 → o.unit < 2 →
      Does (.faultOccurrence) s fun d => d.faults = l ++ m ∧ s.dev.noted d o ∧
      (∀ p : Fin 160, d.mapBit (FAULT.SAFE_NOW 0) p = (s.dev.mapBit (FAULT.SAFE_NOW 0) p || ([0x0110 + BitVec.ofNat 16 o.unit, 0x0100 + BitVec.ofNat 16 (2 * o.unit), 0x0101 + BitVec.ofNat 16 (2 * o.unit)].contains (s.dev.pinAgent p) : Bool))) ∧
      s.dev.actions d (if s.dev.someNew ((List.range 160).filter fun p => ([0x0110 + BitVec.ofNat 16 o.unit, 0x0100 + BitVec.ofNat 16 (2 * o.unit), 0x0101 + BitVec.ofNat 16 (2 * o.unit)].contains (s.dev.pinAgent p) : Bool)) then 1 else 0) ∧
      (∀ p : Fin 160, d.reg (PINMUX.PIN_OWN p) = if ([0x0110 + BitVec.ofNat 16 o.unit, 0x0100 + BitVec.ofNat 16 (2 * o.unit), 0x0101 + BitVec.ofNat 16 (2 * o.unit)].contains (s.dev.pinAgent p) : Bool) then BitVec.ofNat 32 (if (if o.unit = 0 then s.dev.fld PROTECT.HEIR_HEIR_A else s.dev.fld PROTECT.HEIR_HEIR_B) = 0xFFFF then putBits (s.dev.num (PINMUX.PIN_OWN p)) 26 24 0 else putBits (s.dev.num (PINMUX.PIN_OWN p)) 15 0 (if o.unit = 0 then s.dev.fld PROTECT.HEIR_HEIR_A else s.dev.fld PROTECT.HEIR_HEIR_B)) else s.dev.reg (PINMUX.PIN_OWN p)) ∧
      { s.dev with faults := d.faults, outs := d.outs, wits := d.wits, safeRel := d.safeRel, xings := d.xings, pins := d.pins, freeCount := d.freeCount }.keepsUnits d ∧
      s.dev.keepsRegs d (noteKeys o.src ++ safeKeys ++ (List.range 160).map PINMUX.PIN_OWN ++ (List.range 96).map WITNESS.WIT_STATUS)) ∧
  (∀ (o : FaultOcc) (l m : List FaultOcc), s.dev.faults = l ++ o :: m → faultFirst o l m = true → o.src < 32 → o.unit < 0x10000 →
      floorNs o.stamp ≠ floorNs s.dev.now → s.dev.fld (FAULT.SRC_CFG_ACTION o.src) = 0 →
      s.dev.fld (FAULT.SRC_CFG_SILL o.src) = 0 → s.dev.flag (FAULT.SRC_CFG_FAULT_N o.src) = false → o.src = 0x0A → o.unit < 96 →
      (s.dev.fld (WITNESS.WIT_CFG_ACTION o.unit) = 2 ∨ (s.dev.fld (WITNESS.WIT_CFG_ACTION o.unit) = 1 ∧
      s.dev.detourOk (o.unit / 2) = false) ∨ (s.dev.fld (WITNESS.WIT_CFG_ACTION o.unit) = 0 ∧
      (s.dev.detState (o.unit / 2) = 2 ∨ s.dev.detState (o.unit / 2) = 4))) → Does (.faultOccurrence) s fun d =>
      l ++ m <+: d.faults ∧ s.dev.noted d o ∧ d.mapBit (FAULT.SAFE_NOW 0) o.unit = true ∧ d.phState o.unit = 5)

/-- For every state: a SAFE_REL write releases the safe state of the pins it names, at once but for a PWM pin whose timer runs, which waits for its frame start, and pins that are not in one are untouched; it is logged with a LIVE record; RELEASE_FAULT_N releases the ball with its LIVE record, and is rejected with cause STATE while the THERM_TRIP condition holds; CLEAR zeroes SRC_COUNT and ACTIONS; EXT_FAULT is reported once the ball has read low for 100 ns after the device released it, while the device does not assert it, and arms again with EXT_FAULT_REARM. That the ball's level reaches the block by these commands is the model's form (log entry 1). Where a clause rests on a reading or a choice of the model, it is the model's and not the spec's: log entries 55 and 123. -/
def Obligations.FaultCommands : Prop :=
  ∀ s : State,
  (∀ (a : Agent) (w : Fin 5) (v : Word), s.dev.takes a.id (FAULT.SAFE_REL w) v = true → Does (.safeRel a w v) s fun d =>
      d.answer = .ok ∧
      (∀ p : Fin 160, d.mapBit (FAULT.SAFE_NOW 0) p = (s.dev.mapBit (FAULT.SAFE_NOW 0) p && !((decide (p.val / 32 = w.val) && wordBit v (p.val % 32) && s.dev.mapBit (FAULT.SAFE_NOW 0) p && !s.dev.safeRel.contains p.val) && !(decide (p.val < 96) && decide (s.dev.pinFunc p = 4) && decide (s.dev.timRun (s.dev.server (p.val / 2)) = 1))))) ∧
      (∀ p : Fin 160, d.safeRel.contains p.val = (s.dev.safeRel.contains p.val || ((decide (p.val / 32 = w.val) && wordBit v (p.val % 32) && s.dev.mapBit (FAULT.SAFE_NOW 0) p && !s.dev.safeRel.contains p.val) && (decide (p.val < 96) && decide (s.dev.pinFunc p = 4) && decide (s.dev.timRun (s.dev.server (p.val / 2)) = 1))))) ∧
      s.dev.keepsRegs d [FAULT.SAFE_REL w, FAULT.SAFE_NOW w] ∧
      { s.dev with outs := d.outs, wits := d.wits, safeRel := d.safeRel }.keepsUnits d ∧
      s.dev.oneRecord d (wordRecord s.dev.nowNs .live 0 a.id (FAULT.SAFE_REL w) v 0)) ∧
  (∀ (a : Agent) (v : Word), s.dev.takes a.id FAULT.FM_CMD v = true → wordBit v 0 = true → wordBit v 1 = false →
      Does (.releaseFaultN a v) s fun d => d.answer = .ok ∧ d.fm = { s.dev.fm with held := false, relT := s.dev.now } ∧
      d.flag FAULT.FM_STATUS_FAULT_N_ASSERTED = !s.dev.regulated ∧
      d.flag FAULT.FM_STATUS_FAULT_N_LOW = (!s.dev.regulated || s.dev.fm.extLow) ∧
      d.fld FAULT.FM_STATUS_ACTIONS = s.dev.fld FAULT.FM_STATUS_ACTIONS ∧ s.dev.keepsRegs d [FAULT.FM_CMD, FAULT.FM_STATUS] ∧
      { s.dev with fm := d.fm }.keepsUnits d ∧ s.dev.oneRecord d (wordRecord s.dev.nowNs .live 0 a.id FAULT.FM_CMD v 0)) ∧
  (∀ (a : Agent) (v : Word), wordBit v 0 = true → s.dev.sup.tripHeld = true → s.dev.refuses a.id FAULT.FM_CMD v .state = true →
      Does (.releaseFaultN a v) s fun d => d.answer = .rejected .state ∧ s.dev.keepsUnits d ∧ s.dev.keepsRegs d [] ∧
      s.dev.oneRecord d (wordRecord s.dev.nowNs .reject (16 * Cause.state.code) a.id FAULT.FM_CMD v (s.dev.wordNow FAULT.FM_CMD))) ∧
  (∀ (a : Agent) (v : Word), s.dev.takes a.id FAULT.FM_CMD v = true → wordBit v 1 = true → wordBit v 0 = false →
      Does (.faultCountsClear a v) s fun d => d.answer = .ok ∧ (∀ n : Fin 32, d.fld (srcCount n.val) = 0) ∧
      d.fld FAULT.FM_STATUS_ACTIONS = 0 ∧ d.flag FAULT.FM_STATUS_FAULT_N_ASSERTED = s.dev.flag FAULT.FM_STATUS_FAULT_N_ASSERTED ∧
      d.flag FAULT.FM_STATUS_FAULT_N_LOW = s.dev.flag FAULT.FM_STATUS_FAULT_N_LOW ∧
      s.dev.keepsRegs d [FAULT.FM_CMD, FAULT.FM_STATUS, FAULT.SRC_COUNT 0, FAULT.SRC_COUNT 1, FAULT.SRC_COUNT 2, FAULT.SRC_COUNT 3, FAULT.SRC_COUNT 4, FAULT.SRC_COUNT 5, FAULT.SRC_COUNT 6, FAULT.SRC_COUNT 7, FAULT.SRC_COUNT 8, FAULT.SRC_COUNT 9, FAULT.SRC_COUNT 10, FAULT.SRC_COUNT 11, FAULT.SRC_COUNT 12, FAULT.SRC_COUNT 13, FAULT.SRC_COUNT 14, FAULT.SRC_COUNT 15] ∧
      s.dev.keepsUnits d ∧ s.dev.oneRecord d (wordRecord s.dev.nowNs .live 0 a.id FAULT.FM_CMD v 0)) ∧
  (s.dev.flag FAULT.FM_STATUS_FAULT_N_ASSERTED = false → s.dev.fm.extArmed = true → s.dev.due (s.dev.fm.relT + nsT 100) = true →
      Does (.extFault) s fun d => d.fm = { s.dev.fm with extLow := true, extArmed := false } ∧
      d.flag FAULT.FM_STATUS_FAULT_N_LOW = true ∧ d.flag FAULT.FM_STATUS_FAULT_N_ASSERTED = (s.dev.fm.held || !s.dev.regulated) ∧
      d.faults = s.dev.faults ++ [{ src := 0x17, unit := 0, stamp := s.dev.nowNs }] ∧
      { s.dev with fm := d.fm, faults := d.faults }.keepsUnits d ∧ s.dev.keepsRegs d [FAULT.FM_STATUS] ∧ s.dev.noRecord d) ∧
  ((!s.dev.flag FAULT.FM_STATUS_FAULT_N_ASSERTED && s.dev.fm.extArmed && s.dev.due (s.dev.fm.relT + nsT 100)) = false →
      Does (.extFault) s fun d => s.dev.keepsUnits d ∧ s.dev.keepsRegs d [] ∧ s.dev.noRecord d) ∧
  (s.dev.flag FAULT.FM_STATUS_FAULT_N_ASSERTED = false → Does (.extFaultRearm) s fun d =>
      d.fm = { s.dev.fm with extLow := false, extArmed := true } ∧
      d.flag FAULT.FM_STATUS_FAULT_N_LOW = (s.dev.fm.held || !s.dev.regulated) ∧
      d.flag FAULT.FM_STATUS_FAULT_N_ASSERTED = (s.dev.fm.held || !s.dev.regulated) ∧ { s.dev with fm := d.fm }.keepsUnits d ∧
      s.dev.keepsRegs d [FAULT.FM_STATUS] ∧ s.dev.noRecord d) ∧
  (s.dev.flag FAULT.FM_STATUS_FAULT_N_ASSERTED = true → Does (.extFaultRearm) s fun d => s.dev.keepsUnits d ∧
      s.dev.keepsRegs d [] ∧ s.dev.noRecord d)

/-- For every state: an accepted DOM_CTRL write that clears one bit powers its domain down, with DOM_STATUS 0 at once and the contents of a TCM, of a pin-engine bank or of the host block lost; one that sets a bit lets the domain ramp, or wait where four ramp already; the end of a ramp makes a domain without a readiness time of its own ready; a write that powers a busy domain down is rejected with cause STATE; a VIO_CFG write starts the change of an idle bank, and the level reached shows in BANK_VIO; rail samples show in MON and start the time of a rail outside its tolerance, which after 10 us sets its RAIL_FLAGS bit and raises SUPPLY_FAULT; temperature samples raise THERM_WARN and THERM_TRIP once until one falls below WARN; 150 °C puts every output at its safe level over the hardwired path. Where a clause rests on a reading or a choice of the model, it is the model's and not the spec's: log entries 49, 54, 114 and 140. -/
def Obligations.RailsAndDomains : Prop :=
  ∀ s : State,
  (∀ (a : Agent) (w : Fin 2) (v : Word) (i : Fin 32), s.dev.takes a.id (SUPPLY.DOM_CTRL_0 + 4 * w.val) v = true →
      32 * w.val + i.val < 59 → wordBit (s.dev.reg (SUPPLY.DOM_CTRL_0 + 4 * w.val)) i = true →
      s.dev.afterWrite (SUPPLY.DOM_CTRL_0 + 4 * w.val) v = withBits (s.dev.reg (SUPPLY.DOM_CTRL_0 + 4 * w.val)) [(i.val, false)] →
      4 ≤ (32 * w.val + i.val) → (32 * w.val + i.val) < 8 → s.dev.lgDram = false → s.dev.sup.ramping = [] →
      s.dev.sup.rampWait = [] → Does (.domCtrlWrite a w v) s fun d => d.answer = .ok ∧
      d.reg (SUPPLY.DOM_CTRL_0 + 4 * w.val) = s.dev.afterWrite (SUPPLY.DOM_CTRL_0 + 4 * w.val) v ∧
      s.dev.oneRecord d (wordRecord s.dev.nowNs .live 0 a.id (SUPPLY.DOM_CTRL_0 + 4 * w.val) (s.dev.afterWrite (SUPPLY.DOM_CTRL_0 + 4 * w.val) v) (s.dev.reg (SUPPLY.DOM_CTRL_0 + 4 * w.val))) ∧
      d.sup.ramping = s.dev.sup.ramping ∧ d.domUp = s.dev.domUp.erase (32 * w.val + i.val) ∧
      d.reg (SUPPLY.DOM_STATUS_0 + 4 * w.val) = withBits (s.dev.reg (SUPPLY.DOM_STATUS_0 + 4 * w.val)) [(i.val, false)] ∧
      (d.mem.all fun x => decide (x.1 < (0x08000000 + 0x80000 * ((32 * w.val + i.val) - 4))) || decide ((0x08000000 + 0x80000 * ((32 * w.val + i.val) - 4)) + 0x80000 ≤ x.1) || decide (x.2 = 0)) = true ∧
      s.dev.bytesKept d (0x08000000 + 0x80000 * ((32 * w.val + i.val) - 4)) ((0x08000000 + 0x80000 * ((32 * w.val + i.val) - 4)) + 0x80000) ∧
      { s.dev with sup := d.sup, domUp := d.domUp, mem := d.mem, ecc := d.ecc }.keepsUnits d ∧
      s.dev.keepsRegs d [(SUPPLY.DOM_CTRL_0 + 4 * w.val), (SUPPLY.DOM_STATUS_0 + 4 * w.val)]) ∧
  (∀ (a : Agent) (w : Fin 2) (v : Word) (i : Fin 32), s.dev.takes a.id (SUPPLY.DOM_CTRL_0 + 4 * w.val) v = true →
      32 * w.val + i.val < 59 → wordBit (s.dev.reg (SUPPLY.DOM_CTRL_0 + 4 * w.val)) i = false →
      s.dev.afterWrite (SUPPLY.DOM_CTRL_0 + 4 * w.val) v = withBits (s.dev.reg (SUPPLY.DOM_CTRL_0 + 4 * w.val)) [(i.val, true)] →
      s.dev.sup.rampWait = [] → s.dev.sup.ramping.length < 4 → Does (.domCtrlWrite a w v) s fun d => d.answer = .ok ∧
      d.reg (SUPPLY.DOM_CTRL_0 + 4 * w.val) = s.dev.afterWrite (SUPPLY.DOM_CTRL_0 + 4 * w.val) v ∧
      s.dev.oneRecord d (wordRecord s.dev.nowNs .live 0 a.id (SUPPLY.DOM_CTRL_0 + 4 * w.val) (s.dev.afterWrite (SUPPLY.DOM_CTRL_0 + 4 * w.val) v) (s.dev.reg (SUPPLY.DOM_CTRL_0 + 4 * w.val))) ∧
      d.domUp = s.dev.domUp ∧ d.reg (SUPPLY.DOM_STATUS_0 + 4 * w.val) = s.dev.reg (SUPPLY.DOM_STATUS_0 + 4 * w.val) ∧
      d.sup = { s.dev.sup with ramping := s.dev.sup.ramping ++ [(32 * w.val + i.val)] } ∧
      { s.dev with sup := d.sup }.keepsUnits d ∧ s.dev.keepsRegs d [(SUPPLY.DOM_CTRL_0 + 4 * w.val)]) ∧
  (∀ (a : Agent) (w : Fin 2) (v : Word) (i : Fin 32), s.dev.takes a.id (SUPPLY.DOM_CTRL_0 + 4 * w.val) v = true →
      32 * w.val + i.val < 59 → wordBit (s.dev.reg (SUPPLY.DOM_CTRL_0 + 4 * w.val)) i = false →
      s.dev.afterWrite (SUPPLY.DOM_CTRL_0 + 4 * w.val) v = withBits (s.dev.reg (SUPPLY.DOM_CTRL_0 + 4 * w.val)) [(i.val, true)] →
      s.dev.sup.rampWait = [] → s.dev.sup.ramping.length = 4 → Does (.domCtrlWrite a w v) s fun d => d.answer = .ok ∧
      d.reg (SUPPLY.DOM_CTRL_0 + 4 * w.val) = s.dev.afterWrite (SUPPLY.DOM_CTRL_0 + 4 * w.val) v ∧
      s.dev.oneRecord d (wordRecord s.dev.nowNs .live 0 a.id (SUPPLY.DOM_CTRL_0 + 4 * w.val) (s.dev.afterWrite (SUPPLY.DOM_CTRL_0 + 4 * w.val) v) (s.dev.reg (SUPPLY.DOM_CTRL_0 + 4 * w.val))) ∧
      d.domUp = s.dev.domUp ∧ d.reg (SUPPLY.DOM_STATUS_0 + 4 * w.val) = s.dev.reg (SUPPLY.DOM_STATUS_0 + 4 * w.val) ∧
      d.sup = { s.dev.sup with rampWait := [(32 * w.val + i.val)] } ∧ { s.dev with sup := d.sup }.keepsUnits d ∧
      s.dev.keepsRegs d [(SUPPLY.DOM_CTRL_0 + 4 * w.val)]) ∧
  (∀ (a : Agent) (w : Fin 2) (v : Word), s.dev.refuses a.id (SUPPLY.DOM_CTRL_0 + 4 * w.val) v .state = true →
      s.dev.domRefused (SUPPLY.DOM_CTRL_0 + 4 * w.val) v = true → Does (.domCtrlWrite a w v) s fun d =>
      d.answer = .rejected .state ∧ s.dev.keepsUnits d ∧ s.dev.keepsRegs d []) ∧
  (∀ (n : Fin 59), s.dev.sup.ramping.contains n.val = true → s.dev.sup.rampWait = [] → (n.val < 4 ∨ n.val = 52 ∨ n.val ≥ 55) →
      Does (.domainReady n) s fun d =>
      d.sup = { s.dev.sup with ramping := s.dev.sup.ramping.erase n.val, upAt := Tab.put n.val s.dev.now s.dev.sup.upAt } ∧
      d.domUp = (if s.dev.domUp.contains n.val then s.dev.domUp else n.val :: s.dev.domUp) ∧
      d.reg (SUPPLY.DOM_STATUS_0 + 4 * (n.val / 32)) = withBits (s.dev.reg (SUPPLY.DOM_STATUS_0 + 4 * (n.val / 32))) [(n.val % 32, true)] ∧
      { s.dev with sup := d.sup, domUp := d.domUp }.keepsUnits d ∧ s.dev.keepsRegs d [(SUPPLY.DOM_STATUS_0 + 4 * (n.val / 32))] ∧
      s.dev.noRecord d) ∧
  (∀ (n : Fin 59), s.dev.sup.ramping.contains n.val = true → s.dev.sup.rampWait = [] → 4 ≤ n.val → n.val < 52 →
      Does (.domainReady n) s fun d =>
      d.sup = { s.dev.sup with ramping := s.dev.sup.ramping.erase n.val, upAt := Tab.put n.val s.dev.now s.dev.sup.upAt } ∧
      d.domUp = (if s.dev.domUp.contains n.val then s.dev.domUp else n.val :: s.dev.domUp) ∧
      { s.dev with sup := d.sup, domUp := d.domUp }.keepsUnits d ∧ s.dev.keepsRegs d [] ∧ s.dev.noRecord d) ∧
  (∀ (n : Fin 59), s.dev.sup.ramping.contains n.val = true → s.dev.sup.rampWait = [] → (n.val = 53 ∨ n.val = 54) →
      Does (.domainReady n) s fun d =>
      d.sup = { s.dev.sup with ramping := s.dev.sup.ramping.erase n.val, upAt := Tab.put n.val s.dev.now s.dev.sup.upAt } ∧
      d.domUp = (if s.dev.domUp.contains n.val then s.dev.domUp else n.val :: s.dev.domUp) ∧ d.dramState (n.val - 53) = 1 ∧
      d.reg (SUPPLY.DOM_STATUS_0 + 4 * (n.val / 32)) = withBits (s.dev.reg (SUPPLY.DOM_STATUS_0 + 4 * (n.val / 32))) [(n.val % 32, true)] ∧
      { s.dev with sup := d.sup, domUp := d.domUp }.keepsUnits d ∧
      s.dev.keepsRegs d [(SUPPLY.DOM_STATUS_0 + 4 * (n.val / 32)), MEMCTL.DRAM_STATUS] ∧ s.dev.noRecord d) ∧
  (∀ (n : Fin 59) (k : Nat), s.dev.sup.ramping.contains n.val = true → s.dev.sup.rampWait = [k] → s.dev.sup.ramping.length ≤ 4 →
      Does (.domainReady n) s fun d =>
      d.sup = { s.dev.sup with ramping := s.dev.sup.ramping.erase n.val ++ [k], rampWait := [], upAt := Tab.put n.val s.dev.now s.dev.sup.upAt }) ∧
  (∀ (n : Fin 59), s.dev.sup.ramping.contains n.val = false → Does (.domainReady n) s fun d => s.dev.keepsUnits d ∧
      s.dev.keepsRegs d [] ∧ s.dev.noRecord d) ∧
  (∀ (b : Fin 5) (t : Time), Tab.find b.val s.dev.sup.vioMove = some t → Does (.vioLevelReached b) s fun d =>
      d.sup = { s.dev.sup with vioMove := Tab.del b.val s.dev.sup.vioMove } ∧
      (∀ k : Fin 5, bitsOf (d.fld PINMUX.BANK_VIO_VIO) (2 * k.val + 1) (2 * k.val) = if k = b then (if bitOf (s.dev.fld SUPPLY.VIO_CFG_V3P3) b then 2 else 1) else bitsOf (s.dev.fld PINMUX.BANK_VIO_VIO) (2 * k.val + 1) (2 * k.val)) ∧
      { s.dev with sup := d.sup }.keepsUnits d ∧ s.dev.keepsRegs d [PINMUX.BANK_VIO] ∧ s.dev.noRecord d) ∧
  (∀ (b : Fin 5), Tab.find b.val s.dev.sup.vioMove = none → Does (.vioLevelReached b) s fun d => s.dev.keepsUnits d ∧
      s.dev.keepsRegs d [] ∧ s.dev.noRecord d) ∧
  (∀ (vin vint vcore vdda v0 v1 v2 v3 v4 : Nat), vin < 0x10000 → vint < 0x10000 → vcore < 0x10000 → vdda < 0x10000 →
      v0 < 0x10000 → v1 < 0x10000 → v2 < 0x10000 → v3 < 0x10000 → v4 < 0x10000 →
      Does (.railSample vin vint vcore vdda v0 v1 v2 v3 v4) s fun d => d.num SUPPLY.MON_VIN = vin ∧
      d.num SUPPLY.MON_VINT = vint ∧ d.num SUPPLY.MON_VCORE = vcore ∧ d.num SUPPLY.MON_VDDA = vdda ∧
      d.sup.vcoreSet = (toward s.dev.sup.vcoreSet s.dev.vcoreWant) ∧
      d.sup.vinSince = (if vin * 1000 > s.dev.fld SUPPLY.VIN_FAIL_CFG_THRESH * 5 * 105 * 10 then some (s.dev.sup.vinSince.getD s.dev.now) else none) ∧
      d.samples = ({ vin := vin, vint := vint, vcore := vcore, tj := s.dev.num SUPPLY.MON_TJ } :: s.dev.samples).take 32 ∧
      (∀ r : Fin 8, Tab.find r.val d.sup.railOut = if ({ s.dev with sup := { s.dev.sup with vcoreSet := (toward s.dev.sup.vcoreSet s.dev.vcoreWant) } } : Dev).railOk r ([vint, vcore, vdda, v0, v1, v2, v3, v4].getD r.val 0) then none else match Tab.find r.val s.dev.sup.railOut with | some t => some t | none => some s.dev.now) ∧
      { s.dev with sup := d.sup, samples := d.samples }.keepsUnits d ∧ (Config.strapIoExt = true →
      ∀ b : Fin 5, bitOf (d.num SUPPLY.VIO_CFG) b.val = (if within ([v0, v1, v2, v3, v4].getD b.val 0) 3300 5 then true else if within ([v0, v1, v2, v3, v4].getD b.val 0) 1800 5 then false else bitOf (s.dev.num SUPPLY.VIO_CFG) b.val) ∧
      bitsOf (d.num PINMUX.BANK_VIO) (2 * b.val + 1) (2 * b.val) = (if within ([v0, v1, v2, v3, v4].getD b.val 0) 3300 5 then 2 else if within ([v0, v1, v2, v3, v4].getD b.val 0) 1800 5 then 1 else bitsOf (s.dev.num PINMUX.BANK_VIO) (2 * b.val + 1) (2 * b.val))) ∧
      s.dev.keepsRegs d ([SUPPLY.MON_VIN, SUPPLY.MON_VINT, SUPPLY.MON_VCORE, SUPPLY.MON_VDDA] ++ if Config.strapIoExt then [SUPPLY.VIO_CFG, PINMUX.BANK_VIO] else []) ∧
      s.dev.noRecord d) ∧
  (∀ (r : Fin 8) (t : Time), Tab.find r.val s.dev.sup.railOut = some t → s.dev.due (t + nsT 10000) = true →
      s.dev.sup.railTold.contains r.val = false → Does (.supplyFault r) s fun d =>
      d.sup = { s.dev.sup with railTold := r.val :: s.dev.sup.railTold } ∧
      d.reg SUPPLY.RAIL_FLAGS = withBits (s.dev.reg SUPPLY.RAIL_FLAGS) [(r.val, true)] ∧ s.dev.raised d [6] ∧
      d.faults = s.dev.faults ++ [{ src := 4, unit := r.val, stamp := s.dev.nowNs }] ∧
      { s.dev with sup := d.sup, faults := d.faults }.keepsUnits d ∧ s.dev.keepsRegs d [SUPPLY.RAIL_FLAGS] ∧ s.dev.noRecord d) ∧
  (∀ (r : Fin 8), (match Tab.find r.val s.dev.sup.railOut with | none => true | some t => !s.dev.due (t + nsT 10000) || s.dev.sup.railTold.contains r.val) = true →
      Does (.supplyFault r) s fun d => s.dev.keepsUnits d ∧ s.dev.keepsRegs d [] ∧ s.dev.noRecord d) ∧
  (∀ (tj : Int), s.dev.fld SUPPLY.THERM_CFG_WARN ≤ s.dev.fld SUPPLY.THERM_CFG_TRIP → Does (.tempSample tj) s fun d =>
      d.reg SUPPLY.MON_TJ = BitVec.ofInt 32 tj ∧
      d.sup = { s.dev.sup with warned := decide ((8 * (s.dev.fld SUPPLY.THERM_CFG_WARN : Int)) ≤ tj), tripHeld := decide ((8 * (s.dev.fld SUPPLY.THERM_CFG_TRIP : Int)) ≤ tj) || (decide ((8 * (s.dev.fld SUPPLY.THERM_CFG_WARN : Int)) ≤ tj) && s.dev.sup.tripHeld) } ∧
      d.reg SUPPLY.RAIL_FLAGS = withBits (s.dev.reg SUPPLY.RAIL_FLAGS) ((if (decide ((8 * (s.dev.fld SUPPLY.THERM_CFG_WARN : Int)) ≤ tj) && !s.dev.sup.warned) then [(8, true)] else []) ++ if (decide ((8 * (s.dev.fld SUPPLY.THERM_CFG_TRIP : Int)) ≤ tj) && !(decide ((8 * (s.dev.fld SUPPLY.THERM_CFG_WARN : Int)) ≤ tj) && s.dev.sup.tripHeld)) then [(9, true)] else []) ∧
      s.dev.raised d ((if (decide ((8 * (s.dev.fld SUPPLY.THERM_CFG_WARN : Int)) ≤ tj) && !s.dev.sup.warned) then [4] else []) ++ if (decide ((8 * (s.dev.fld SUPPLY.THERM_CFG_TRIP : Int)) ≤ tj) && !(decide ((8 * (s.dev.fld SUPPLY.THERM_CFG_WARN : Int)) ≤ tj) && s.dev.sup.tripHeld)) then [5] else []) ∧
      d.faults = s.dev.faults ++ ((if (decide ((8 * (s.dev.fld SUPPLY.THERM_CFG_WARN : Int)) ≤ tj) && !s.dev.sup.warned) then [{ src := 2, unit := 0, stamp := s.dev.nowNs }] else []) ++ if (decide ((8 * (s.dev.fld SUPPLY.THERM_CFG_TRIP : Int)) ≤ tj) && !(decide ((8 * (s.dev.fld SUPPLY.THERM_CFG_WARN : Int)) ≤ tj) && s.dev.sup.tripHeld)) then [{ src := 3, unit := 0, stamp := s.dev.nowNs }] else []) ∧
      { s.dev with sup := d.sup, faults := d.faults }.keepsUnits d ∧ s.dev.keepsRegs d [SUPPLY.MON_TJ, SUPPLY.RAIL_FLAGS] ∧
      s.dev.noRecord d) ∧
  (Does (.thermHardTrip) s fun d => d.hardSafe = true ∧ (∀ p : Fin 160, s.dev.regulated = true →
      d.ballLevel p = openDrain (s.dev.flag (PINMUX.PIN_CFG_OD p)) (s.dev.pinSafeLevel p)) ∧
      { s.dev with hardSafe := true, outs := d.outs, wits := d.wits }.keepsUnits d ∧ s.dev.keepsRegs d [] ∧ s.dev.noRecord d) ∧
  (∀ (a : Agent) (v : Word), s.dev.refusalAt a.id SUPPLY.VIO_CFG v = none → s.dev.holdsBack SUPPLY.VIO_CFG v = false →
      s.dev.lgRoom = true → Does (.vioCfgWrite a v) s fun d => d.answer = (if Config.strapIoExt then .ignored else .ok) ∧
      d.reg SUPPLY.VIO_CFG = (if Config.strapIoExt then s.dev.reg SUPPLY.VIO_CFG else s.dev.afterWrite SUPPLY.VIO_CFG v) ∧
      (∀ b : Fin 5, Tab.find b.val d.sup.vioMove = if Config.strapIoExt = true ∨ bitOf (s.dev.num SUPPLY.VIO_CFG) b.val = bitOf v.toNat b.val then Tab.find b.val s.dev.sup.vioMove else some s.dev.now) ∧
      { s.dev with sup := { s.dev.sup with vioMove := d.sup.vioMove } }.keepsUnits d ∧ s.dev.keepsRegs d [SUPPLY.VIO_CFG] ∧
      (Config.strapIoExt = true → s.dev.noRecord d) ∧ (Config.strapIoExt = false →
      s.dev.oneRecord d (wordRecord s.dev.nowNs .live 0 a.id SUPPLY.VIO_CFG (s.dev.afterWrite SUPPLY.VIO_CFG v) (s.dev.reg SUPPLY.VIO_CFG)))) ∧
  (∀ (a : Agent) (v : Word), s.dev.refusalAt a.id SUPPLY.VIO_CFG v = some .state → s.dev.lgRoom = true →
      Does (.vioCfgWrite a v) s fun d => d.answer = (if Config.strapIoExt then .ignored else .rejected .state) ∧
      s.dev.keepsUnits d ∧ s.dev.keepsRegs d [])

/-- For every state and agent that the protection map lets write the Junction: a write of SW_RAISE whose ID is 1256 to 1407 raises that event with VALUE, by the writer, stamped with the present nanosecond, and makes a LIVE record of the word; one whose ID lies outside is rejected with cause RANGE, with its REJECT record, and raises nothing; a software event that is routed to a host ring becomes an EVENT record whose payload is VALUE. -/
def Obligations.SoftwareRaise : Prop :=
  ∀ s : State,
  (∀ (a : Agent) (v : Word), s.dev.blkLevel a.id 0x06 = 2 → s.dev.holdsBack JUNCTION.SW_RAISE v = false → s.dev.lgRoom = true →
      1256 ≤ bitsOf v.toNat 26 16 → bitsOf v.toNat 26 16 ≤ 1407 → Does (.swRaise a v) s fun d => d.answer = .ok ∧
      s.dev.events ++ [{ id := bitsOf v.toNat 26 16, value := v.setWidth 16, agent := a.id, stamp := floorNs s.dev.now }] <+: d.events ∧
      s.dev.oneRecord d (wordRecord s.dev.nowNs .live 0 a.id JUNCTION.SW_RAISE v 0) ∧ s.dev.keepsUnits d ∧
      s.dev.keepsRegs d [JUNCTION.SW_RAISE]) ∧
  (∀ (a : Agent) (v : Word), s.dev.blkLevel a.id 0x06 = 2 → s.dev.holdsBack JUNCTION.SW_RAISE v = false → s.dev.lgRoom = true →
      (bitsOf v.toNat 26 16 < 1256 ∨ 1407 < bitsOf v.toNat 26 16) → Does (.swRaise a v) s fun d => d.answer = .rejected .range ∧
      s.dev.events <+: d.events ∧
      s.dev.oneRecord d (wordRecord s.dev.nowNs .reject (16 * Cause.range.code) a.id JUNCTION.SW_RAISE v (s.dev.wordNow JUNCTION.SW_RAISE)) ∧
      s.dev.keepsUnits d ∧ s.dev.keepsRegs d []) ∧
  (∀ (r : Raised) (l m : List Raised), s.dev.events = l ++ r :: m → comesFirst r l m = true → r.id < 1536 →
      r.stamp ≠ floorNs s.dev.now → s.dev.unheard r.id = true → 1256 ≤ r.id → r.id ≤ 1407 →
      s.dev.fld (JUNCTION.ROUTE_CORES r.id) = 0 → wordBit (s.dev.reg (JUNCTION.ROUTE r.id)) 23 = false →
      wordBit (s.dev.reg (JUNCTION.ROUTE r.id)) 27 = false → wordBit (s.dev.reg (JUNCTION.ROUTE r.id)) 31 = true →
      s.dev.ringTakes ({ ring := s.dev.fld (JUNCTION.ROUTE_RING r.id), typ := 1, event := BitVec.ofNat 16 r.id, agent := r.agent, time := r.stamp, payload := toBytes 2 r.value.toNat } : HostRec) = true →
      Does (.eventRaise) s fun d => l ++ m <+: d.events ∧ d.mapBit (JUNCTION.RAISED 0) r.id = true ∧
      d.hostQ = s.dev.hostQ ++ [({ ring := s.dev.fld (JUNCTION.ROUTE_RING r.id), typ := 1, event := BitVec.ofNat 16 r.id, agent := r.agent, time := r.stamp, payload := toBytes 2 r.value.toNat } : HostRec)] ∧
      s.dev.keepsHost d [] ∧ s.dev.keepsUnits d ∧ s.dev.keepsRegs d [JUNCTION.RAISED (r.id / 32)] ∧ s.dev.noRecord d)

/-- For every two times a and b: a precedes b exactly when (b - a) mod 2^64 lies in the range 1 to 2^63 - 1. -/
def Obligations.TimestampOrder : Prop :=
  ∀ a b : Time, before a b = true ↔ 1 ≤ (b - a).toNat ∧ (b - a).toNat ≤ 2 ^ 63 - 1

/-- For every command c and state s whose queue is c and then a rest: step of s is exec of c on s with the queue's rest. On an empty queue a step answers a next state with the queue still empty; what passes there, a tick of the time base, is the model's choice (log entry 1). Where a clause rests on a reading or a choice of the model, it is the model's and not the spec's: log entries 1 and 4. -/
def Obligations.StepRunsFrontCommand : Prop :=
  (∀ (c : Instr) (l : List Instr) (s : State), s.pending = c :: l → step s = exec c { s with pending := l }) ∧
  ∀ s : State, s.pending = [] → ∃ t : State, step s = .next t ∧ t.pending = []

/-- For every command and state: exec answers a next state, never a fault or a refusal, with the queue of waiting commands unchanged; a command that the spec does not let act (refused, not due, waiting) answers that state with its answer or without change. Where a clause rests on a reading or a choice of the model, it is the model's and not the spec's: log entries 4, 9, 10 and 11. -/
def Obligations.EveryCommandCompletes : Prop :=
  ∀ (c : Instr) (s : State), ∃ t : State, exec c s = .next t ∧ t.pending = s.pending

/-- For every core: where no line is taken, no line is eligible, that is pending and enabled with interrupts enabled, a priority of at least EVC_THRESH and above the running priority, NONE being below 0, and no section active; the line taken is eligible, and every other eligible line has a lower priority, or the same and a higher number. Where a clause rests on a reading or a choice of the model, it is the model's and not the spec's: log entry 90. -/
def Obligations.LineSelection : Prop :=
  ∀ cs : CoreSt,
  let pri := fun l => cs.sf (CORE.EVC_LINE l) 3 0
  let elig := fun l => cs.lineBit CORE.EVC_PEND l = true ∧ wordBit (cs.s (CORE.EVC_LINE l)) 31 = true ∧ wordBit cs.status 2 = true
    ∧ cs.sf CORE.EVC_THRESH 4 0 ≤ pri l ∧ (cs.runPri = 0x1F ∨ cs.runPri < pri l) ∧ cs.atom = none
  (cs.eligible = none → ∀ l < 64, ¬ elig l) ∧
  ∀ l, cs.eligible = some l → l < 64 ∧ elig l ∧ ∀ k < 64, elig k → k ≠ l → pri k < pri l ∨ (pri k = pri l ∧ l < k)

/-- For binary32 and binary64 and every nonzero magnitude m 2^e of either sign: what rounding mode 0 gives is no NaN and has the sign; where it is finite, the magnitude lies below the least that overflows, no finite datum of the format lies nearer the exact number, and where another datum lies as near, the result's significand is even; where it is infinite, the magnitude is at least half a unit in the last place above the largest finite number. -/
def Obligations.RoundingIsNearest : Prop :=
  ∀ (f : FFmt) (neg : Bool) (m : Nat) (e : Int), f = fmtS ∨ f = fmtD → 0 < m →
  let x : ℚ := (FVal.fin neg m e).rat
  match f.unpack (f.round 0 neg m e false).bits with
  | .nan _ => False
  | .inf n => n = neg ∧ f.overflowAt ≤ |x|
  | .fin n q k => n = neg ∧ |x| < f.overflowAt ∧
      ∀ (b : Nat) (n' : Bool) (m' : Nat) (e' : Int), f.unpack b = .fin n' m' e' →
        |(FVal.fin n q k).rat - x| ≤ |(FVal.fin n' m' e').rat - x| ∧
        (|(FVal.fin n q k).rat - x| = |(FVal.fin n' m' e').rat - x| → (FVal.fin n' m' e').rat ≠ (FVal.fin n q k).rat → q % 2 = 0)

/-- For every state in which no record of a change waits to be entered, at most 4,096 records are on chip and OVERRUN is set while LG_NEXT_SEQ - LG_READ_SEQ exceeds the ring size of the current mode: if step answers a next state, the same holds of it, whatever command or tick the step was. Where a clause rests on a reading or a choice of the model, it is the model's and not the spec's: log entries 20 and 21. -/
def Obligations.LedgerStaysShown : Prop :=
  ∀ s t : State, s.dev.ledgerShown → step s = .next t → t.dev.ledgerShown

/-- After power-on reset the Milepost is 0 and does not count, no command waits, memory lists nothing, the Ledger holds one record, a SYSTEM record of agent 0x0600 for LG_CTRL with sequence number 0, old value 0 and new value its reset value, so that LG_NEXT_SEQ is 1, every other register word is at its reset value, no group is claimed, and the Ledger stands as every step keeps it. That reset is the state in which the insertion wait begins is the model's choice (log entry 60). Where a clause rests on a reading or a choice of the model, it is the model's and not the spec's: log entries 5, 7, 8, 60, 81 and 141. -/
def Obligations.ResetState : Prop :=
  State.reset.pending = [] ∧ State.reset.dev.now = 0 ∧ State.reset.dev.time.counting = false ∧ State.reset.dev.mem = [] ∧
  State.reset.dev.groups = [] ∧ State.reset.dev.phase = .insertion ∧
  (State.reset.dev.led.chip.map fun r => (r.kind, r.origin, r.seq)) = [(.system, 0x0600, 0)] ∧
  (State.reset.dev.led.chip.map fun r => (r.block.toNat * 0x10000 + r.off.toNat, r.old, r.new)) = [(LEDGER.LG_CTRL, 0, regReset LEDGER.LG_CTRL)] ∧
  State.reset.dev.reg LEDGER.LG_NEXT_SEQ = 1 ∧
  (∀ k, k ≠ LEDGER.LG_STATUS → k ≠ LEDGER.LG_NEXT_SEQ → State.reset.dev.reg k = regReset k) ∧ State.reset.dev.ledgerShown
end

