-- ==== Sys2Proof/Laws/State.lean ====
section
/-!
SUPPORT. Laws/State.lean: what each update of the device leaves in every field it does not write, one lemma for each field of
each update, and what a command's effect leaves of the state.
-/
namespace Sys2Proof.Machine

/-! ### The state -/

@[simp] theorem State.onDev_next (s : State) (f : Dev → Dev) :
    s.onDev f = .next { s with dev := settle (f { s.dev with answer := .none, sent := [] }) } := rfl

@[simp] theorem Dev.when_true (d : Dev) (f : Dev → Dev) : d.when true f = f d := rfl
@[simp] theorem Dev.when_false (d : Dev) (f : Dev → Dev) : d.when false f = d := rfl

/-! ### setReg -/

@[simp] theorem Dev.setReg_answer (d : Dev) (a : Nat) (v : Word) : (d.setReg a v).answer = d.answer := rfl
@[simp] theorem Dev.setReg_sent (d : Dev) (a : Nat) (v : Word) : (d.setReg a v).sent = d.sent := rfl
@[simp] theorem Dev.setReg_halfW (d : Dev) (a : Nat) (v : Word) : (d.setReg a v).halfW = d.halfW := rfl
@[simp] theorem Dev.setReg_halfR (d : Dev) (a : Nat) (v : Word) : (d.setReg a v).halfR = d.halfR := rfl
@[simp] theorem Dev.setReg_sel (d : Dev) (a : Nat) (v : Word) : (d.setReg a v).sel = d.sel := rfl
@[simp] theorem Dev.setReg_groups (d : Dev) (a : Nat) (v : Word) : (d.setReg a v).groups = d.groups := rfl
@[simp] theorem Dev.setReg_gc (d : Dev) (a : Nat) (v : Word) : (d.setReg a v).gc = d.gc := rfl
@[simp] theorem Dev.setReg_snap (d : Dev) (a : Nat) (v : Word) : (d.setReg a v).snap = d.snap := rfl
@[simp] theorem Dev.setReg_time (d : Dev) (a : Nat) (v : Word) : (d.setReg a v).time = d.time := rfl
@[simp] theorem Dev.setReg_led (d : Dev) (a : Nat) (v : Word) : (d.setReg a v).led = d.led := rfl
@[simp] theorem Dev.setReg_livePend (d : Dev) (a : Nat) (v : Word) : (d.setReg a v).livePend = d.livePend := rfl
@[simp] theorem Dev.setReg_events (d : Dev) (a : Nat) (v : Word) : (d.setReg a v).events = d.events := rfl
@[simp] theorem Dev.setReg_faults (d : Dev) (a : Nat) (v : Word) : (d.setReg a v).faults = d.faults := rfl
@[simp] theorem Dev.setReg_freeCount (d : Dev) (a : Nat) (v : Word) : (d.setReg a v).freeCount = d.freeCount := rfl
@[simp] theorem Dev.setReg_mem (d : Dev) (a : Nat) (v : Word) : (d.setReg a v).mem = d.mem := rfl
@[simp] theorem Dev.setReg_ecc (d : Dev) (a : Nat) (v : Word) : (d.setReg a v).ecc = d.ecc := rfl
@[simp] theorem Dev.setReg_hostQ (d : Dev) (a : Nat) (v : Word) : (d.setReg a v).hostQ = d.hostQ := rfl
@[simp] theorem Dev.setReg_hostLost (d : Dev) (a : Nat) (v : Word) : (d.setReg a v).hostLost = d.hostLost := rfl
@[simp] theorem Dev.setReg_phase (d : Dev) (a : Nat) (v : Word) : (d.setReg a v).phase = d.phase := rfl
@[simp] theorem Dev.setReg_loader (d : Dev) (a : Nat) (v : Word) : (d.setReg a v).loader = d.loader := rfl
@[simp] theorem Dev.setReg_flash (d : Dev) (a : Nat) (v : Word) : (d.setReg a v).flash = d.flash := rfl
@[simp] theorem Dev.setReg_samples (d : Dev) (a : Nat) (v : Word) : (d.setReg a v).samples = d.samples := rfl
@[simp] theorem Dev.setReg_loss (d : Dev) (a : Nat) (v : Word) : (d.setReg a v).loss = d.loss := rfl
@[simp] theorem Dev.setReg_trued (d : Dev) (a : Nat) (v : Word) : (d.setReg a v).trued = d.trued := rfl
@[simp] theorem Dev.setReg_adcs (d : Dev) (a : Nat) (v : Word) : (d.setReg a v).adcs = d.adcs := rfl
@[simp] theorem Dev.setReg_adcHalves (d : Dev) (a : Nat) (v : Word) : (d.setReg a v).adcHalves = d.adcHalves := rfl
@[simp] theorem Dev.setReg_comps (d : Dev) (a : Nat) (v : Word) : (d.setReg a v).comps = d.comps := rfl
@[simp] theorem Dev.setReg_compBlks (d : Dev) (a : Nat) (v : Word) : (d.setReg a v).compBlks = d.compBlks := rfl
@[simp] theorem Dev.setReg_slots (d : Dev) (a : Nat) (v : Word) : (d.setReg a v).slots = d.slots := rfl
@[simp] theorem Dev.setReg_compGroups (d : Dev) (a : Nat) (v : Word) : (d.setReg a v).compGroups = d.compGroups := rfl
@[simp] theorem Dev.setReg_sliceDet (d : Dev) (a : Nat) (v : Word) : (d.setReg a v).sliceDet = d.sliceDet := rfl
@[simp] theorem Dev.setReg_sliceRet (d : Dev) (a : Nat) (v : Word) : (d.setReg a v).sliceRet = d.sliceRet := rfl
@[simp] theorem Dev.setReg_spareTestT (d : Dev) (a : Nat) (v : Word) : (d.setReg a v).spareTestT = d.spareTestT := rfl
@[simp] theorem Dev.setReg_traces (d : Dev) (a : Nat) (v : Word) : (d.setReg a v).traces = d.traces := rfl
@[simp] theorem Dev.setReg_tims (d : Dev) (a : Nat) (v : Word) : (d.setReg a v).tims = d.tims := rfl
@[simp] theorem Dev.setReg_outs (d : Dev) (a : Nat) (v : Word) : (d.setReg a v).outs = d.outs := rfl
@[simp] theorem Dev.setReg_updQ (d : Dev) (a : Nat) (v : Word) : (d.setReg a v).updQ = d.updQ := rfl
@[simp] theorem Dev.setReg_wits (d : Dev) (a : Nat) (v : Word) : (d.setReg a v).wits = d.wits := rfl
@[simp] theorem Dev.setReg_lineTrue (d : Dev) (a : Nat) (v : Word) : (d.setReg a v).lineTrue = d.lineTrue := rfl
@[simp] theorem Dev.setReg_lineSwap (d : Dev) (a : Nat) (v : Word) : (d.setReg a v).lineSwap = d.lineSwap := rfl
@[simp] theorem Dev.setReg_lineFailed (d : Dev) (a : Nat) (v : Word) : (d.setReg a v).lineFailed = d.lineFailed := rfl
@[simp] theorem Dev.setReg_adcTrig (d : Dev) (a : Nat) (v : Word) : (d.setReg a v).adcTrig = d.adcTrig := rfl
@[simp] theorem Dev.setReg_planT0 (d : Dev) (a : Nat) (v : Word) : (d.setReg a v).planT0 = d.planT0 := rfl
@[simp] theorem Dev.setReg_hardSafe (d : Dev) (a : Nat) (v : Word) : (d.setReg a v).hardSafe = d.hardSafe := rfl
@[simp] theorem Dev.setReg_safeRel (d : Dev) (a : Nat) (v : Word) : (d.setReg a v).safeRel = d.safeRel := rfl
@[simp] theorem Dev.setReg_phs (d : Dev) (a : Nat) (v : Word) : (d.setReg a v).phs = d.phs := rfl
@[simp] theorem Dev.setReg_rails (d : Dev) (a : Nat) (v : Word) : (d.setReg a v).rails = d.rails := rfl
@[simp] theorem Dev.setReg_dets (d : Dev) (a : Nat) (v : Word) : (d.setReg a v).dets = d.dets := rfl
@[simp] theorem Dev.setReg_xings (d : Dev) (a : Nat) (v : Word) : (d.setReg a v).xings = d.xings := rfl
@[simp] theorem Dev.setReg_cores (d : Dev) (a : Nat) (v : Word) : (d.setReg a v).cores = d.cores := rfl
@[simp] theorem Dev.setReg_pairs (d : Dev) (a : Nat) (v : Word) : (d.setReg a v).pairs = d.pairs := rfl
@[simp] theorem Dev.setReg_thrs (d : Dev) (a : Nat) (v : Word) : (d.setReg a v).thrs = d.thrs := rfl
@[simp] theorem Dev.setReg_chans (d : Dev) (a : Nat) (v : Word) : (d.setReg a v).chans = d.chans := rfl
@[simp] theorem Dev.setReg_rings (d : Dev) (a : Nat) (v : Word) : (d.setReg a v).rings = d.rings := rfl
@[simp] theorem Dev.setReg_pins (d : Dev) (a : Nat) (v : Word) : (d.setReg a v).pins = d.pins := rfl
@[simp] theorem Dev.setReg_engs (d : Dev) (a : Nat) (v : Word) : (d.setReg a v).engs = d.engs := rfl
@[simp] theorem Dev.setReg_flagHist (d : Dev) (a : Nat) (v : Word) : (d.setReg a v).flagHist = d.flagHist := rfl
@[simp] theorem Dev.setReg_errLog (d : Dev) (a : Nat) (v : Word) : (d.setReg a v).errLog = d.errLog := rfl
@[simp] theorem Dev.setReg_ceArmed (d : Dev) (a : Nat) (v : Word) : (d.setReg a v).ceArmed = d.ceArmed := rfl
@[simp] theorem Dev.setReg_scrubPos (d : Dev) (a : Nat) (v : Word) : (d.setReg a v).scrubPos = d.scrubPos := rfl
@[simp] theorem Dev.setReg_lapStart (d : Dev) (a : Nat) (v : Word) : (d.setReg a v).lapStart = d.lapStart := rfl
@[simp] theorem Dev.setReg_pass (d : Dev) (a : Nat) (v : Word) : (d.setReg a v).pass = d.pass := rfl
@[simp] theorem Dev.setReg_retiring (d : Dev) (a : Nat) (v : Word) : (d.setReg a v).retiring = d.retiring := rfl
@[simp] theorem Dev.setReg_domUp (d : Dev) (a : Nat) (v : Word) : (d.setReg a v).domUp = d.domUp := rfl
@[simp] theorem Dev.setReg_dmas (d : Dev) (a : Nat) (v : Word) : (d.setReg a v).dmas = d.dmas := rfl
@[simp] theorem Dev.setReg_tie (d : Dev) (a : Nat) (v : Word) : (d.setReg a v).tie = d.tie := rfl
@[simp] theorem Dev.setReg_ringIrqs (d : Dev) (a : Nat) (v : Word) : (d.setReg a v).ringIrqs = d.ringIrqs := rfl
@[simp] theorem Dev.setReg_telSched (d : Dev) (a : Nat) (v : Word) : (d.setReg a v).telSched = d.telSched := rfl
@[simp] theorem Dev.setReg_msix (d : Dev) (a : Nat) (v : Word) : (d.setReg a v).msix = d.msix := rfl
@[simp] theorem Dev.setReg_tapIr (d : Dev) (a : Nat) (v : Word) : (d.setReg a v).tapIr = d.tapIr := rfl
@[simp] theorem Dev.setReg_tapBsr (d : Dev) (a : Nat) (v : Word) : (d.setReg a v).tapBsr = d.tapBsr := rfl
@[simp] theorem Dev.setReg_dbgCore (d : Dev) (a : Nat) (v : Word) : (d.setReg a v).dbgCore = d.dbgCore := rfl
@[simp] theorem Dev.setReg_fm (d : Dev) (a : Nat) (v : Word) : (d.setReg a v).fm = d.fm := rfl
@[simp] theorem Dev.setReg_sup (d : Dev) (a : Nat) (v : Word) : (d.setReg a v).sup = d.sup := rfl
@[simp] theorem Dev.setReg_cons (d : Dev) (a : Nat) (v : Word) : (d.setReg a v).cons = d.cons := rfl

/-! ### setNum -/

@[simp] theorem Dev.setNum_answer (d : Dev) (a n : Nat) : (d.setNum a n).answer = d.answer := rfl
@[simp] theorem Dev.setNum_sent (d : Dev) (a n : Nat) : (d.setNum a n).sent = d.sent := rfl
@[simp] theorem Dev.setNum_halfW (d : Dev) (a n : Nat) : (d.setNum a n).halfW = d.halfW := rfl
@[simp] theorem Dev.setNum_halfR (d : Dev) (a n : Nat) : (d.setNum a n).halfR = d.halfR := rfl
@[simp] theorem Dev.setNum_sel (d : Dev) (a n : Nat) : (d.setNum a n).sel = d.sel := rfl
@[simp] theorem Dev.setNum_groups (d : Dev) (a n : Nat) : (d.setNum a n).groups = d.groups := rfl
@[simp] theorem Dev.setNum_gc (d : Dev) (a n : Nat) : (d.setNum a n).gc = d.gc := rfl
@[simp] theorem Dev.setNum_snap (d : Dev) (a n : Nat) : (d.setNum a n).snap = d.snap := rfl
@[simp] theorem Dev.setNum_time (d : Dev) (a n : Nat) : (d.setNum a n).time = d.time := rfl
@[simp] theorem Dev.setNum_led (d : Dev) (a n : Nat) : (d.setNum a n).led = d.led := rfl
@[simp] theorem Dev.setNum_livePend (d : Dev) (a n : Nat) : (d.setNum a n).livePend = d.livePend := rfl
@[simp] theorem Dev.setNum_events (d : Dev) (a n : Nat) : (d.setNum a n).events = d.events := rfl
@[simp] theorem Dev.setNum_faults (d : Dev) (a n : Nat) : (d.setNum a n).faults = d.faults := rfl
@[simp] theorem Dev.setNum_freeCount (d : Dev) (a n : Nat) : (d.setNum a n).freeCount = d.freeCount := rfl
@[simp] theorem Dev.setNum_mem (d : Dev) (a n : Nat) : (d.setNum a n).mem = d.mem := rfl
@[simp] theorem Dev.setNum_ecc (d : Dev) (a n : Nat) : (d.setNum a n).ecc = d.ecc := rfl
@[simp] theorem Dev.setNum_hostQ (d : Dev) (a n : Nat) : (d.setNum a n).hostQ = d.hostQ := rfl
@[simp] theorem Dev.setNum_hostLost (d : Dev) (a n : Nat) : (d.setNum a n).hostLost = d.hostLost := rfl
@[simp] theorem Dev.setNum_phase (d : Dev) (a n : Nat) : (d.setNum a n).phase = d.phase := rfl
@[simp] theorem Dev.setNum_loader (d : Dev) (a n : Nat) : (d.setNum a n).loader = d.loader := rfl
@[simp] theorem Dev.setNum_flash (d : Dev) (a n : Nat) : (d.setNum a n).flash = d.flash := rfl
@[simp] theorem Dev.setNum_samples (d : Dev) (a n : Nat) : (d.setNum a n).samples = d.samples := rfl
@[simp] theorem Dev.setNum_loss (d : Dev) (a n : Nat) : (d.setNum a n).loss = d.loss := rfl
@[simp] theorem Dev.setNum_trued (d : Dev) (a n : Nat) : (d.setNum a n).trued = d.trued := rfl
@[simp] theorem Dev.setNum_adcs (d : Dev) (a n : Nat) : (d.setNum a n).adcs = d.adcs := rfl
@[simp] theorem Dev.setNum_adcHalves (d : Dev) (a n : Nat) : (d.setNum a n).adcHalves = d.adcHalves := rfl
@[simp] theorem Dev.setNum_comps (d : Dev) (a n : Nat) : (d.setNum a n).comps = d.comps := rfl
@[simp] theorem Dev.setNum_compBlks (d : Dev) (a n : Nat) : (d.setNum a n).compBlks = d.compBlks := rfl
@[simp] theorem Dev.setNum_slots (d : Dev) (a n : Nat) : (d.setNum a n).slots = d.slots := rfl
@[simp] theorem Dev.setNum_compGroups (d : Dev) (a n : Nat) : (d.setNum a n).compGroups = d.compGroups := rfl
@[simp] theorem Dev.setNum_sliceDet (d : Dev) (a n : Nat) : (d.setNum a n).sliceDet = d.sliceDet := rfl
@[simp] theorem Dev.setNum_sliceRet (d : Dev) (a n : Nat) : (d.setNum a n).sliceRet = d.sliceRet := rfl
@[simp] theorem Dev.setNum_spareTestT (d : Dev) (a n : Nat) : (d.setNum a n).spareTestT = d.spareTestT := rfl
@[simp] theorem Dev.setNum_traces (d : Dev) (a n : Nat) : (d.setNum a n).traces = d.traces := rfl
@[simp] theorem Dev.setNum_tims (d : Dev) (a n : Nat) : (d.setNum a n).tims = d.tims := rfl
@[simp] theorem Dev.setNum_outs (d : Dev) (a n : Nat) : (d.setNum a n).outs = d.outs := rfl
@[simp] theorem Dev.setNum_updQ (d : Dev) (a n : Nat) : (d.setNum a n).updQ = d.updQ := rfl
@[simp] theorem Dev.setNum_wits (d : Dev) (a n : Nat) : (d.setNum a n).wits = d.wits := rfl
@[simp] theorem Dev.setNum_lineTrue (d : Dev) (a n : Nat) : (d.setNum a n).lineTrue = d.lineTrue := rfl
@[simp] theorem Dev.setNum_lineSwap (d : Dev) (a n : Nat) : (d.setNum a n).lineSwap = d.lineSwap := rfl
@[simp] theorem Dev.setNum_lineFailed (d : Dev) (a n : Nat) : (d.setNum a n).lineFailed = d.lineFailed := rfl
@[simp] theorem Dev.setNum_adcTrig (d : Dev) (a n : Nat) : (d.setNum a n).adcTrig = d.adcTrig := rfl
@[simp] theorem Dev.setNum_planT0 (d : Dev) (a n : Nat) : (d.setNum a n).planT0 = d.planT0 := rfl
@[simp] theorem Dev.setNum_hardSafe (d : Dev) (a n : Nat) : (d.setNum a n).hardSafe = d.hardSafe := rfl
@[simp] theorem Dev.setNum_safeRel (d : Dev) (a n : Nat) : (d.setNum a n).safeRel = d.safeRel := rfl
@[simp] theorem Dev.setNum_phs (d : Dev) (a n : Nat) : (d.setNum a n).phs = d.phs := rfl
@[simp] theorem Dev.setNum_rails (d : Dev) (a n : Nat) : (d.setNum a n).rails = d.rails := rfl
@[simp] theorem Dev.setNum_dets (d : Dev) (a n : Nat) : (d.setNum a n).dets = d.dets := rfl
@[simp] theorem Dev.setNum_xings (d : Dev) (a n : Nat) : (d.setNum a n).xings = d.xings := rfl
@[simp] theorem Dev.setNum_cores (d : Dev) (a n : Nat) : (d.setNum a n).cores = d.cores := rfl
@[simp] theorem Dev.setNum_pairs (d : Dev) (a n : Nat) : (d.setNum a n).pairs = d.pairs := rfl
@[simp] theorem Dev.setNum_thrs (d : Dev) (a n : Nat) : (d.setNum a n).thrs = d.thrs := rfl
@[simp] theorem Dev.setNum_chans (d : Dev) (a n : Nat) : (d.setNum a n).chans = d.chans := rfl
@[simp] theorem Dev.setNum_rings (d : Dev) (a n : Nat) : (d.setNum a n).rings = d.rings := rfl
@[simp] theorem Dev.setNum_pins (d : Dev) (a n : Nat) : (d.setNum a n).pins = d.pins := rfl
@[simp] theorem Dev.setNum_engs (d : Dev) (a n : Nat) : (d.setNum a n).engs = d.engs := rfl
@[simp] theorem Dev.setNum_flagHist (d : Dev) (a n : Nat) : (d.setNum a n).flagHist = d.flagHist := rfl
@[simp] theorem Dev.setNum_errLog (d : Dev) (a n : Nat) : (d.setNum a n).errLog = d.errLog := rfl
@[simp] theorem Dev.setNum_ceArmed (d : Dev) (a n : Nat) : (d.setNum a n).ceArmed = d.ceArmed := rfl
@[simp] theorem Dev.setNum_scrubPos (d : Dev) (a n : Nat) : (d.setNum a n).scrubPos = d.scrubPos := rfl
@[simp] theorem Dev.setNum_lapStart (d : Dev) (a n : Nat) : (d.setNum a n).lapStart = d.lapStart := rfl
@[simp] theorem Dev.setNum_pass (d : Dev) (a n : Nat) : (d.setNum a n).pass = d.pass := rfl
@[simp] theorem Dev.setNum_retiring (d : Dev) (a n : Nat) : (d.setNum a n).retiring = d.retiring := rfl
@[simp] theorem Dev.setNum_domUp (d : Dev) (a n : Nat) : (d.setNum a n).domUp = d.domUp := rfl
@[simp] theorem Dev.setNum_dmas (d : Dev) (a n : Nat) : (d.setNum a n).dmas = d.dmas := rfl
@[simp] theorem Dev.setNum_tie (d : Dev) (a n : Nat) : (d.setNum a n).tie = d.tie := rfl
@[simp] theorem Dev.setNum_ringIrqs (d : Dev) (a n : Nat) : (d.setNum a n).ringIrqs = d.ringIrqs := rfl
@[simp] theorem Dev.setNum_telSched (d : Dev) (a n : Nat) : (d.setNum a n).telSched = d.telSched := rfl
@[simp] theorem Dev.setNum_msix (d : Dev) (a n : Nat) : (d.setNum a n).msix = d.msix := rfl
@[simp] theorem Dev.setNum_tapIr (d : Dev) (a n : Nat) : (d.setNum a n).tapIr = d.tapIr := rfl
@[simp] theorem Dev.setNum_tapBsr (d : Dev) (a n : Nat) : (d.setNum a n).tapBsr = d.tapBsr := rfl
@[simp] theorem Dev.setNum_dbgCore (d : Dev) (a n : Nat) : (d.setNum a n).dbgCore = d.dbgCore := rfl
@[simp] theorem Dev.setNum_fm (d : Dev) (a n : Nat) : (d.setNum a n).fm = d.fm := rfl
@[simp] theorem Dev.setNum_sup (d : Dev) (a n : Nat) : (d.setNum a n).sup = d.sup := rfl
@[simp] theorem Dev.setNum_cons (d : Dev) (a n : Nat) : (d.setNum a n).cons = d.cons := rfl

/-! ### setFld -/

@[simp] theorem Dev.setFld_answer (d : Dev) (f : Fld) (n : Nat) : (d.setFld f n).answer = d.answer := rfl
@[simp] theorem Dev.setFld_sent (d : Dev) (f : Fld) (n : Nat) : (d.setFld f n).sent = d.sent := rfl
@[simp] theorem Dev.setFld_halfW (d : Dev) (f : Fld) (n : Nat) : (d.setFld f n).halfW = d.halfW := rfl
@[simp] theorem Dev.setFld_halfR (d : Dev) (f : Fld) (n : Nat) : (d.setFld f n).halfR = d.halfR := rfl
@[simp] theorem Dev.setFld_sel (d : Dev) (f : Fld) (n : Nat) : (d.setFld f n).sel = d.sel := rfl
@[simp] theorem Dev.setFld_groups (d : Dev) (f : Fld) (n : Nat) : (d.setFld f n).groups = d.groups := rfl
@[simp] theorem Dev.setFld_gc (d : Dev) (f : Fld) (n : Nat) : (d.setFld f n).gc = d.gc := rfl
@[simp] theorem Dev.setFld_snap (d : Dev) (f : Fld) (n : Nat) : (d.setFld f n).snap = d.snap := rfl
@[simp] theorem Dev.setFld_time (d : Dev) (f : Fld) (n : Nat) : (d.setFld f n).time = d.time := rfl
@[simp] theorem Dev.setFld_led (d : Dev) (f : Fld) (n : Nat) : (d.setFld f n).led = d.led := rfl
@[simp] theorem Dev.setFld_livePend (d : Dev) (f : Fld) (n : Nat) : (d.setFld f n).livePend = d.livePend := rfl
@[simp] theorem Dev.setFld_events (d : Dev) (f : Fld) (n : Nat) : (d.setFld f n).events = d.events := rfl
@[simp] theorem Dev.setFld_faults (d : Dev) (f : Fld) (n : Nat) : (d.setFld f n).faults = d.faults := rfl
@[simp] theorem Dev.setFld_freeCount (d : Dev) (f : Fld) (n : Nat) : (d.setFld f n).freeCount = d.freeCount := rfl
@[simp] theorem Dev.setFld_mem (d : Dev) (f : Fld) (n : Nat) : (d.setFld f n).mem = d.mem := rfl
@[simp] theorem Dev.setFld_ecc (d : Dev) (f : Fld) (n : Nat) : (d.setFld f n).ecc = d.ecc := rfl
@[simp] theorem Dev.setFld_hostQ (d : Dev) (f : Fld) (n : Nat) : (d.setFld f n).hostQ = d.hostQ := rfl
@[simp] theorem Dev.setFld_hostLost (d : Dev) (f : Fld) (n : Nat) : (d.setFld f n).hostLost = d.hostLost := rfl
@[simp] theorem Dev.setFld_phase (d : Dev) (f : Fld) (n : Nat) : (d.setFld f n).phase = d.phase := rfl
@[simp] theorem Dev.setFld_loader (d : Dev) (f : Fld) (n : Nat) : (d.setFld f n).loader = d.loader := rfl
@[simp] theorem Dev.setFld_flash (d : Dev) (f : Fld) (n : Nat) : (d.setFld f n).flash = d.flash := rfl
@[simp] theorem Dev.setFld_samples (d : Dev) (f : Fld) (n : Nat) : (d.setFld f n).samples = d.samples := rfl
@[simp] theorem Dev.setFld_loss (d : Dev) (f : Fld) (n : Nat) : (d.setFld f n).loss = d.loss := rfl
@[simp] theorem Dev.setFld_trued (d : Dev) (f : Fld) (n : Nat) : (d.setFld f n).trued = d.trued := rfl
@[simp] theorem Dev.setFld_adcs (d : Dev) (f : Fld) (n : Nat) : (d.setFld f n).adcs = d.adcs := rfl
@[simp] theorem Dev.setFld_adcHalves (d : Dev) (f : Fld) (n : Nat) : (d.setFld f n).adcHalves = d.adcHalves := rfl
@[simp] theorem Dev.setFld_comps (d : Dev) (f : Fld) (n : Nat) : (d.setFld f n).comps = d.comps := rfl
@[simp] theorem Dev.setFld_compBlks (d : Dev) (f : Fld) (n : Nat) : (d.setFld f n).compBlks = d.compBlks := rfl
@[simp] theorem Dev.setFld_slots (d : Dev) (f : Fld) (n : Nat) : (d.setFld f n).slots = d.slots := rfl
@[simp] theorem Dev.setFld_compGroups (d : Dev) (f : Fld) (n : Nat) : (d.setFld f n).compGroups = d.compGroups := rfl
@[simp] theorem Dev.setFld_sliceDet (d : Dev) (f : Fld) (n : Nat) : (d.setFld f n).sliceDet = d.sliceDet := rfl
@[simp] theorem Dev.setFld_sliceRet (d : Dev) (f : Fld) (n : Nat) : (d.setFld f n).sliceRet = d.sliceRet := rfl
@[simp] theorem Dev.setFld_spareTestT (d : Dev) (f : Fld) (n : Nat) : (d.setFld f n).spareTestT = d.spareTestT := rfl
@[simp] theorem Dev.setFld_traces (d : Dev) (f : Fld) (n : Nat) : (d.setFld f n).traces = d.traces := rfl
@[simp] theorem Dev.setFld_tims (d : Dev) (f : Fld) (n : Nat) : (d.setFld f n).tims = d.tims := rfl
@[simp] theorem Dev.setFld_outs (d : Dev) (f : Fld) (n : Nat) : (d.setFld f n).outs = d.outs := rfl
@[simp] theorem Dev.setFld_updQ (d : Dev) (f : Fld) (n : Nat) : (d.setFld f n).updQ = d.updQ := rfl
@[simp] theorem Dev.setFld_wits (d : Dev) (f : Fld) (n : Nat) : (d.setFld f n).wits = d.wits := rfl
@[simp] theorem Dev.setFld_lineTrue (d : Dev) (f : Fld) (n : Nat) : (d.setFld f n).lineTrue = d.lineTrue := rfl
@[simp] theorem Dev.setFld_lineSwap (d : Dev) (f : Fld) (n : Nat) : (d.setFld f n).lineSwap = d.lineSwap := rfl
@[simp] theorem Dev.setFld_lineFailed (d : Dev) (f : Fld) (n : Nat) : (d.setFld f n).lineFailed = d.lineFailed := rfl
@[simp] theorem Dev.setFld_adcTrig (d : Dev) (f : Fld) (n : Nat) : (d.setFld f n).adcTrig = d.adcTrig := rfl
@[simp] theorem Dev.setFld_planT0 (d : Dev) (f : Fld) (n : Nat) : (d.setFld f n).planT0 = d.planT0 := rfl
@[simp] theorem Dev.setFld_hardSafe (d : Dev) (f : Fld) (n : Nat) : (d.setFld f n).hardSafe = d.hardSafe := rfl
@[simp] theorem Dev.setFld_safeRel (d : Dev) (f : Fld) (n : Nat) : (d.setFld f n).safeRel = d.safeRel := rfl
@[simp] theorem Dev.setFld_phs (d : Dev) (f : Fld) (n : Nat) : (d.setFld f n).phs = d.phs := rfl
@[simp] theorem Dev.setFld_rails (d : Dev) (f : Fld) (n : Nat) : (d.setFld f n).rails = d.rails := rfl
@[simp] theorem Dev.setFld_dets (d : Dev) (f : Fld) (n : Nat) : (d.setFld f n).dets = d.dets := rfl
@[simp] theorem Dev.setFld_xings (d : Dev) (f : Fld) (n : Nat) : (d.setFld f n).xings = d.xings := rfl
@[simp] theorem Dev.setFld_cores (d : Dev) (f : Fld) (n : Nat) : (d.setFld f n).cores = d.cores := rfl
@[simp] theorem Dev.setFld_pairs (d : Dev) (f : Fld) (n : Nat) : (d.setFld f n).pairs = d.pairs := rfl
@[simp] theorem Dev.setFld_thrs (d : Dev) (f : Fld) (n : Nat) : (d.setFld f n).thrs = d.thrs := rfl
@[simp] theorem Dev.setFld_chans (d : Dev) (f : Fld) (n : Nat) : (d.setFld f n).chans = d.chans := rfl
@[simp] theorem Dev.setFld_rings (d : Dev) (f : Fld) (n : Nat) : (d.setFld f n).rings = d.rings := rfl
@[simp] theorem Dev.setFld_pins (d : Dev) (f : Fld) (n : Nat) : (d.setFld f n).pins = d.pins := rfl
@[simp] theorem Dev.setFld_engs (d : Dev) (f : Fld) (n : Nat) : (d.setFld f n).engs = d.engs := rfl
@[simp] theorem Dev.setFld_flagHist (d : Dev) (f : Fld) (n : Nat) : (d.setFld f n).flagHist = d.flagHist := rfl
@[simp] theorem Dev.setFld_errLog (d : Dev) (f : Fld) (n : Nat) : (d.setFld f n).errLog = d.errLog := rfl
@[simp] theorem Dev.setFld_ceArmed (d : Dev) (f : Fld) (n : Nat) : (d.setFld f n).ceArmed = d.ceArmed := rfl
@[simp] theorem Dev.setFld_scrubPos (d : Dev) (f : Fld) (n : Nat) : (d.setFld f n).scrubPos = d.scrubPos := rfl
@[simp] theorem Dev.setFld_lapStart (d : Dev) (f : Fld) (n : Nat) : (d.setFld f n).lapStart = d.lapStart := rfl
@[simp] theorem Dev.setFld_pass (d : Dev) (f : Fld) (n : Nat) : (d.setFld f n).pass = d.pass := rfl
@[simp] theorem Dev.setFld_retiring (d : Dev) (f : Fld) (n : Nat) : (d.setFld f n).retiring = d.retiring := rfl
@[simp] theorem Dev.setFld_domUp (d : Dev) (f : Fld) (n : Nat) : (d.setFld f n).domUp = d.domUp := rfl
@[simp] theorem Dev.setFld_dmas (d : Dev) (f : Fld) (n : Nat) : (d.setFld f n).dmas = d.dmas := rfl
@[simp] theorem Dev.setFld_tie (d : Dev) (f : Fld) (n : Nat) : (d.setFld f n).tie = d.tie := rfl
@[simp] theorem Dev.setFld_ringIrqs (d : Dev) (f : Fld) (n : Nat) : (d.setFld f n).ringIrqs = d.ringIrqs := rfl
@[simp] theorem Dev.setFld_telSched (d : Dev) (f : Fld) (n : Nat) : (d.setFld f n).telSched = d.telSched := rfl
@[simp] theorem Dev.setFld_msix (d : Dev) (f : Fld) (n : Nat) : (d.setFld f n).msix = d.msix := rfl
@[simp] theorem Dev.setFld_tapIr (d : Dev) (f : Fld) (n : Nat) : (d.setFld f n).tapIr = d.tapIr := rfl
@[simp] theorem Dev.setFld_tapBsr (d : Dev) (f : Fld) (n : Nat) : (d.setFld f n).tapBsr = d.tapBsr := rfl
@[simp] theorem Dev.setFld_dbgCore (d : Dev) (f : Fld) (n : Nat) : (d.setFld f n).dbgCore = d.dbgCore := rfl
@[simp] theorem Dev.setFld_fm (d : Dev) (f : Fld) (n : Nat) : (d.setFld f n).fm = d.fm := rfl
@[simp] theorem Dev.setFld_sup (d : Dev) (f : Fld) (n : Nat) : (d.setFld f n).sup = d.sup := rfl
@[simp] theorem Dev.setFld_cons (d : Dev) (f : Fld) (n : Nat) : (d.setFld f n).cons = d.cons := rfl

/-! ### raiseV -/

@[simp] theorem Dev.raiseV_regs (d : Dev) (id : Nat) (v : Half) (a : AgentId) : (d.raiseV id v a).regs = d.regs := rfl
@[simp] theorem Dev.raiseV_answer (d : Dev) (id : Nat) (v : Half) (a : AgentId) : (d.raiseV id v a).answer = d.answer := rfl
@[simp] theorem Dev.raiseV_sent (d : Dev) (id : Nat) (v : Half) (a : AgentId) : (d.raiseV id v a).sent = d.sent := rfl
@[simp] theorem Dev.raiseV_halfW (d : Dev) (id : Nat) (v : Half) (a : AgentId) : (d.raiseV id v a).halfW = d.halfW := rfl
@[simp] theorem Dev.raiseV_halfR (d : Dev) (id : Nat) (v : Half) (a : AgentId) : (d.raiseV id v a).halfR = d.halfR := rfl
@[simp] theorem Dev.raiseV_sel (d : Dev) (id : Nat) (v : Half) (a : AgentId) : (d.raiseV id v a).sel = d.sel := rfl
@[simp] theorem Dev.raiseV_groups (d : Dev) (id : Nat) (v : Half) (a : AgentId) : (d.raiseV id v a).groups = d.groups := rfl
@[simp] theorem Dev.raiseV_gc (d : Dev) (id : Nat) (v : Half) (a : AgentId) : (d.raiseV id v a).gc = d.gc := rfl
@[simp] theorem Dev.raiseV_snap (d : Dev) (id : Nat) (v : Half) (a : AgentId) : (d.raiseV id v a).snap = d.snap := rfl
@[simp] theorem Dev.raiseV_time (d : Dev) (id : Nat) (v : Half) (a : AgentId) : (d.raiseV id v a).time = d.time := rfl
@[simp] theorem Dev.raiseV_led (d : Dev) (id : Nat) (v : Half) (a : AgentId) : (d.raiseV id v a).led = d.led := rfl
@[simp] theorem Dev.raiseV_livePend (d : Dev) (id : Nat) (v : Half) (a : AgentId) : (d.raiseV id v a).livePend = d.livePend := rfl
@[simp] theorem Dev.raiseV_faults (d : Dev) (id : Nat) (v : Half) (a : AgentId) : (d.raiseV id v a).faults = d.faults := rfl
@[simp] theorem Dev.raiseV_freeCount (d : Dev) (id : Nat) (v : Half) (a : AgentId) : (d.raiseV id v a).freeCount = d.freeCount := rfl
@[simp] theorem Dev.raiseV_mem (d : Dev) (id : Nat) (v : Half) (a : AgentId) : (d.raiseV id v a).mem = d.mem := rfl
@[simp] theorem Dev.raiseV_ecc (d : Dev) (id : Nat) (v : Half) (a : AgentId) : (d.raiseV id v a).ecc = d.ecc := rfl
@[simp] theorem Dev.raiseV_hostQ (d : Dev) (id : Nat) (v : Half) (a : AgentId) : (d.raiseV id v a).hostQ = d.hostQ := rfl
@[simp] theorem Dev.raiseV_hostLost (d : Dev) (id : Nat) (v : Half) (a : AgentId) : (d.raiseV id v a).hostLost = d.hostLost := rfl
@[simp] theorem Dev.raiseV_phase (d : Dev) (id : Nat) (v : Half) (a : AgentId) : (d.raiseV id v a).phase = d.phase := rfl
@[simp] theorem Dev.raiseV_loader (d : Dev) (id : Nat) (v : Half) (a : AgentId) : (d.raiseV id v a).loader = d.loader := rfl
@[simp] theorem Dev.raiseV_flash (d : Dev) (id : Nat) (v : Half) (a : AgentId) : (d.raiseV id v a).flash = d.flash := rfl
@[simp] theorem Dev.raiseV_samples (d : Dev) (id : Nat) (v : Half) (a : AgentId) : (d.raiseV id v a).samples = d.samples := rfl
@[simp] theorem Dev.raiseV_loss (d : Dev) (id : Nat) (v : Half) (a : AgentId) : (d.raiseV id v a).loss = d.loss := rfl
@[simp] theorem Dev.raiseV_trued (d : Dev) (id : Nat) (v : Half) (a : AgentId) : (d.raiseV id v a).trued = d.trued := rfl
@[simp] theorem Dev.raiseV_adcs (d : Dev) (id : Nat) (v : Half) (a : AgentId) : (d.raiseV id v a).adcs = d.adcs := rfl
@[simp] theorem Dev.raiseV_adcHalves (d : Dev) (id : Nat) (v : Half) (a : AgentId) : (d.raiseV id v a).adcHalves = d.adcHalves := rfl
@[simp] theorem Dev.raiseV_comps (d : Dev) (id : Nat) (v : Half) (a : AgentId) : (d.raiseV id v a).comps = d.comps := rfl
@[simp] theorem Dev.raiseV_compBlks (d : Dev) (id : Nat) (v : Half) (a : AgentId) : (d.raiseV id v a).compBlks = d.compBlks := rfl
@[simp] theorem Dev.raiseV_slots (d : Dev) (id : Nat) (v : Half) (a : AgentId) : (d.raiseV id v a).slots = d.slots := rfl
@[simp] theorem Dev.raiseV_compGroups (d : Dev) (id : Nat) (v : Half) (a : AgentId) : (d.raiseV id v a).compGroups = d.compGroups := rfl
@[simp] theorem Dev.raiseV_sliceDet (d : Dev) (id : Nat) (v : Half) (a : AgentId) : (d.raiseV id v a).sliceDet = d.sliceDet := rfl
@[simp] theorem Dev.raiseV_sliceRet (d : Dev) (id : Nat) (v : Half) (a : AgentId) : (d.raiseV id v a).sliceRet = d.sliceRet := rfl
@[simp] theorem Dev.raiseV_spareTestT (d : Dev) (id : Nat) (v : Half) (a : AgentId) : (d.raiseV id v a).spareTestT = d.spareTestT := rfl
@[simp] theorem Dev.raiseV_traces (d : Dev) (id : Nat) (v : Half) (a : AgentId) : (d.raiseV id v a).traces = d.traces := rfl
@[simp] theorem Dev.raiseV_tims (d : Dev) (id : Nat) (v : Half) (a : AgentId) : (d.raiseV id v a).tims = d.tims := rfl
@[simp] theorem Dev.raiseV_outs (d : Dev) (id : Nat) (v : Half) (a : AgentId) : (d.raiseV id v a).outs = d.outs := rfl
@[simp] theorem Dev.raiseV_updQ (d : Dev) (id : Nat) (v : Half) (a : AgentId) : (d.raiseV id v a).updQ = d.updQ := rfl
@[simp] theorem Dev.raiseV_wits (d : Dev) (id : Nat) (v : Half) (a : AgentId) : (d.raiseV id v a).wits = d.wits := rfl
@[simp] theorem Dev.raiseV_lineTrue (d : Dev) (id : Nat) (v : Half) (a : AgentId) : (d.raiseV id v a).lineTrue = d.lineTrue := rfl
@[simp] theorem Dev.raiseV_lineSwap (d : Dev) (id : Nat) (v : Half) (a : AgentId) : (d.raiseV id v a).lineSwap = d.lineSwap := rfl
@[simp] theorem Dev.raiseV_lineFailed (d : Dev) (id : Nat) (v : Half) (a : AgentId) : (d.raiseV id v a).lineFailed = d.lineFailed := rfl
@[simp] theorem Dev.raiseV_adcTrig (d : Dev) (id : Nat) (v : Half) (a : AgentId) : (d.raiseV id v a).adcTrig = d.adcTrig := rfl
@[simp] theorem Dev.raiseV_planT0 (d : Dev) (id : Nat) (v : Half) (a : AgentId) : (d.raiseV id v a).planT0 = d.planT0 := rfl
@[simp] theorem Dev.raiseV_hardSafe (d : Dev) (id : Nat) (v : Half) (a : AgentId) : (d.raiseV id v a).hardSafe = d.hardSafe := rfl
@[simp] theorem Dev.raiseV_safeRel (d : Dev) (id : Nat) (v : Half) (a : AgentId) : (d.raiseV id v a).safeRel = d.safeRel := rfl
@[simp] theorem Dev.raiseV_phs (d : Dev) (id : Nat) (v : Half) (a : AgentId) : (d.raiseV id v a).phs = d.phs := rfl
@[simp] theorem Dev.raiseV_rails (d : Dev) (id : Nat) (v : Half) (a : AgentId) : (d.raiseV id v a).rails = d.rails := rfl
@[simp] theorem Dev.raiseV_dets (d : Dev) (id : Nat) (v : Half) (a : AgentId) : (d.raiseV id v a).dets = d.dets := rfl
@[simp] theorem Dev.raiseV_xings (d : Dev) (id : Nat) (v : Half) (a : AgentId) : (d.raiseV id v a).xings = d.xings := rfl
@[simp] theorem Dev.raiseV_cores (d : Dev) (id : Nat) (v : Half) (a : AgentId) : (d.raiseV id v a).cores = d.cores := rfl
@[simp] theorem Dev.raiseV_pairs (d : Dev) (id : Nat) (v : Half) (a : AgentId) : (d.raiseV id v a).pairs = d.pairs := rfl
@[simp] theorem Dev.raiseV_thrs (d : Dev) (id : Nat) (v : Half) (a : AgentId) : (d.raiseV id v a).thrs = d.thrs := rfl
@[simp] theorem Dev.raiseV_chans (d : Dev) (id : Nat) (v : Half) (a : AgentId) : (d.raiseV id v a).chans = d.chans := rfl
@[simp] theorem Dev.raiseV_rings (d : Dev) (id : Nat) (v : Half) (a : AgentId) : (d.raiseV id v a).rings = d.rings := rfl
@[simp] theorem Dev.raiseV_pins (d : Dev) (id : Nat) (v : Half) (a : AgentId) : (d.raiseV id v a).pins = d.pins := rfl
@[simp] theorem Dev.raiseV_engs (d : Dev) (id : Nat) (v : Half) (a : AgentId) : (d.raiseV id v a).engs = d.engs := rfl
@[simp] theorem Dev.raiseV_flagHist (d : Dev) (id : Nat) (v : Half) (a : AgentId) : (d.raiseV id v a).flagHist = d.flagHist := rfl
@[simp] theorem Dev.raiseV_errLog (d : Dev) (id : Nat) (v : Half) (a : AgentId) : (d.raiseV id v a).errLog = d.errLog := rfl
@[simp] theorem Dev.raiseV_ceArmed (d : Dev) (id : Nat) (v : Half) (a : AgentId) : (d.raiseV id v a).ceArmed = d.ceArmed := rfl
@[simp] theorem Dev.raiseV_scrubPos (d : Dev) (id : Nat) (v : Half) (a : AgentId) : (d.raiseV id v a).scrubPos = d.scrubPos := rfl
@[simp] theorem Dev.raiseV_lapStart (d : Dev) (id : Nat) (v : Half) (a : AgentId) : (d.raiseV id v a).lapStart = d.lapStart := rfl
@[simp] theorem Dev.raiseV_pass (d : Dev) (id : Nat) (v : Half) (a : AgentId) : (d.raiseV id v a).pass = d.pass := rfl
@[simp] theorem Dev.raiseV_retiring (d : Dev) (id : Nat) (v : Half) (a : AgentId) : (d.raiseV id v a).retiring = d.retiring := rfl
@[simp] theorem Dev.raiseV_domUp (d : Dev) (id : Nat) (v : Half) (a : AgentId) : (d.raiseV id v a).domUp = d.domUp := rfl
@[simp] theorem Dev.raiseV_dmas (d : Dev) (id : Nat) (v : Half) (a : AgentId) : (d.raiseV id v a).dmas = d.dmas := rfl
@[simp] theorem Dev.raiseV_tie (d : Dev) (id : Nat) (v : Half) (a : AgentId) : (d.raiseV id v a).tie = d.tie := rfl
@[simp] theorem Dev.raiseV_ringIrqs (d : Dev) (id : Nat) (v : Half) (a : AgentId) : (d.raiseV id v a).ringIrqs = d.ringIrqs := rfl
@[simp] theorem Dev.raiseV_telSched (d : Dev) (id : Nat) (v : Half) (a : AgentId) : (d.raiseV id v a).telSched = d.telSched := rfl
@[simp] theorem Dev.raiseV_msix (d : Dev) (id : Nat) (v : Half) (a : AgentId) : (d.raiseV id v a).msix = d.msix := rfl
@[simp] theorem Dev.raiseV_tapIr (d : Dev) (id : Nat) (v : Half) (a : AgentId) : (d.raiseV id v a).tapIr = d.tapIr := rfl
@[simp] theorem Dev.raiseV_tapBsr (d : Dev) (id : Nat) (v : Half) (a : AgentId) : (d.raiseV id v a).tapBsr = d.tapBsr := rfl
@[simp] theorem Dev.raiseV_dbgCore (d : Dev) (id : Nat) (v : Half) (a : AgentId) : (d.raiseV id v a).dbgCore = d.dbgCore := rfl
@[simp] theorem Dev.raiseV_fm (d : Dev) (id : Nat) (v : Half) (a : AgentId) : (d.raiseV id v a).fm = d.fm := rfl
@[simp] theorem Dev.raiseV_sup (d : Dev) (id : Nat) (v : Half) (a : AgentId) : (d.raiseV id v a).sup = d.sup := rfl
@[simp] theorem Dev.raiseV_cons (d : Dev) (id : Nat) (v : Half) (a : AgentId) : (d.raiseV id v a).cons = d.cons := rfl

/-! ### raise -/

@[simp] theorem Dev.raise_regs (d : Dev) (id : Nat) : (d.raise id).regs = d.regs := rfl
@[simp] theorem Dev.raise_answer (d : Dev) (id : Nat) : (d.raise id).answer = d.answer := rfl
@[simp] theorem Dev.raise_sent (d : Dev) (id : Nat) : (d.raise id).sent = d.sent := rfl
@[simp] theorem Dev.raise_halfW (d : Dev) (id : Nat) : (d.raise id).halfW = d.halfW := rfl
@[simp] theorem Dev.raise_halfR (d : Dev) (id : Nat) : (d.raise id).halfR = d.halfR := rfl
@[simp] theorem Dev.raise_sel (d : Dev) (id : Nat) : (d.raise id).sel = d.sel := rfl
@[simp] theorem Dev.raise_groups (d : Dev) (id : Nat) : (d.raise id).groups = d.groups := rfl
@[simp] theorem Dev.raise_gc (d : Dev) (id : Nat) : (d.raise id).gc = d.gc := rfl
@[simp] theorem Dev.raise_snap (d : Dev) (id : Nat) : (d.raise id).snap = d.snap := rfl
@[simp] theorem Dev.raise_time (d : Dev) (id : Nat) : (d.raise id).time = d.time := rfl
@[simp] theorem Dev.raise_led (d : Dev) (id : Nat) : (d.raise id).led = d.led := rfl
@[simp] theorem Dev.raise_livePend (d : Dev) (id : Nat) : (d.raise id).livePend = d.livePend := rfl
@[simp] theorem Dev.raise_faults (d : Dev) (id : Nat) : (d.raise id).faults = d.faults := rfl
@[simp] theorem Dev.raise_freeCount (d : Dev) (id : Nat) : (d.raise id).freeCount = d.freeCount := rfl
@[simp] theorem Dev.raise_mem (d : Dev) (id : Nat) : (d.raise id).mem = d.mem := rfl
@[simp] theorem Dev.raise_ecc (d : Dev) (id : Nat) : (d.raise id).ecc = d.ecc := rfl
@[simp] theorem Dev.raise_hostQ (d : Dev) (id : Nat) : (d.raise id).hostQ = d.hostQ := rfl
@[simp] theorem Dev.raise_hostLost (d : Dev) (id : Nat) : (d.raise id).hostLost = d.hostLost := rfl
@[simp] theorem Dev.raise_phase (d : Dev) (id : Nat) : (d.raise id).phase = d.phase := rfl
@[simp] theorem Dev.raise_loader (d : Dev) (id : Nat) : (d.raise id).loader = d.loader := rfl
@[simp] theorem Dev.raise_flash (d : Dev) (id : Nat) : (d.raise id).flash = d.flash := rfl
@[simp] theorem Dev.raise_samples (d : Dev) (id : Nat) : (d.raise id).samples = d.samples := rfl
@[simp] theorem Dev.raise_loss (d : Dev) (id : Nat) : (d.raise id).loss = d.loss := rfl
@[simp] theorem Dev.raise_trued (d : Dev) (id : Nat) : (d.raise id).trued = d.trued := rfl
@[simp] theorem Dev.raise_adcs (d : Dev) (id : Nat) : (d.raise id).adcs = d.adcs := rfl
@[simp] theorem Dev.raise_adcHalves (d : Dev) (id : Nat) : (d.raise id).adcHalves = d.adcHalves := rfl
@[simp] theorem Dev.raise_comps (d : Dev) (id : Nat) : (d.raise id).comps = d.comps := rfl
@[simp] theorem Dev.raise_compBlks (d : Dev) (id : Nat) : (d.raise id).compBlks = d.compBlks := rfl
@[simp] theorem Dev.raise_slots (d : Dev) (id : Nat) : (d.raise id).slots = d.slots := rfl
@[simp] theorem Dev.raise_compGroups (d : Dev) (id : Nat) : (d.raise id).compGroups = d.compGroups := rfl
@[simp] theorem Dev.raise_sliceDet (d : Dev) (id : Nat) : (d.raise id).sliceDet = d.sliceDet := rfl
@[simp] theorem Dev.raise_sliceRet (d : Dev) (id : Nat) : (d.raise id).sliceRet = d.sliceRet := rfl
@[simp] theorem Dev.raise_spareTestT (d : Dev) (id : Nat) : (d.raise id).spareTestT = d.spareTestT := rfl
@[simp] theorem Dev.raise_traces (d : Dev) (id : Nat) : (d.raise id).traces = d.traces := rfl
@[simp] theorem Dev.raise_tims (d : Dev) (id : Nat) : (d.raise id).tims = d.tims := rfl
@[simp] theorem Dev.raise_outs (d : Dev) (id : Nat) : (d.raise id).outs = d.outs := rfl
@[simp] theorem Dev.raise_updQ (d : Dev) (id : Nat) : (d.raise id).updQ = d.updQ := rfl
@[simp] theorem Dev.raise_wits (d : Dev) (id : Nat) : (d.raise id).wits = d.wits := rfl
@[simp] theorem Dev.raise_lineTrue (d : Dev) (id : Nat) : (d.raise id).lineTrue = d.lineTrue := rfl
@[simp] theorem Dev.raise_lineSwap (d : Dev) (id : Nat) : (d.raise id).lineSwap = d.lineSwap := rfl
@[simp] theorem Dev.raise_lineFailed (d : Dev) (id : Nat) : (d.raise id).lineFailed = d.lineFailed := rfl
@[simp] theorem Dev.raise_adcTrig (d : Dev) (id : Nat) : (d.raise id).adcTrig = d.adcTrig := rfl
@[simp] theorem Dev.raise_planT0 (d : Dev) (id : Nat) : (d.raise id).planT0 = d.planT0 := rfl
@[simp] theorem Dev.raise_hardSafe (d : Dev) (id : Nat) : (d.raise id).hardSafe = d.hardSafe := rfl
@[simp] theorem Dev.raise_safeRel (d : Dev) (id : Nat) : (d.raise id).safeRel = d.safeRel := rfl
@[simp] theorem Dev.raise_phs (d : Dev) (id : Nat) : (d.raise id).phs = d.phs := rfl
@[simp] theorem Dev.raise_rails (d : Dev) (id : Nat) : (d.raise id).rails = d.rails := rfl
@[simp] theorem Dev.raise_dets (d : Dev) (id : Nat) : (d.raise id).dets = d.dets := rfl
@[simp] theorem Dev.raise_xings (d : Dev) (id : Nat) : (d.raise id).xings = d.xings := rfl
@[simp] theorem Dev.raise_cores (d : Dev) (id : Nat) : (d.raise id).cores = d.cores := rfl
@[simp] theorem Dev.raise_pairs (d : Dev) (id : Nat) : (d.raise id).pairs = d.pairs := rfl
@[simp] theorem Dev.raise_thrs (d : Dev) (id : Nat) : (d.raise id).thrs = d.thrs := rfl
@[simp] theorem Dev.raise_chans (d : Dev) (id : Nat) : (d.raise id).chans = d.chans := rfl
@[simp] theorem Dev.raise_rings (d : Dev) (id : Nat) : (d.raise id).rings = d.rings := rfl
@[simp] theorem Dev.raise_pins (d : Dev) (id : Nat) : (d.raise id).pins = d.pins := rfl
@[simp] theorem Dev.raise_engs (d : Dev) (id : Nat) : (d.raise id).engs = d.engs := rfl
@[simp] theorem Dev.raise_flagHist (d : Dev) (id : Nat) : (d.raise id).flagHist = d.flagHist := rfl
@[simp] theorem Dev.raise_errLog (d : Dev) (id : Nat) : (d.raise id).errLog = d.errLog := rfl
@[simp] theorem Dev.raise_ceArmed (d : Dev) (id : Nat) : (d.raise id).ceArmed = d.ceArmed := rfl
@[simp] theorem Dev.raise_scrubPos (d : Dev) (id : Nat) : (d.raise id).scrubPos = d.scrubPos := rfl
@[simp] theorem Dev.raise_lapStart (d : Dev) (id : Nat) : (d.raise id).lapStart = d.lapStart := rfl
@[simp] theorem Dev.raise_pass (d : Dev) (id : Nat) : (d.raise id).pass = d.pass := rfl
@[simp] theorem Dev.raise_retiring (d : Dev) (id : Nat) : (d.raise id).retiring = d.retiring := rfl
@[simp] theorem Dev.raise_domUp (d : Dev) (id : Nat) : (d.raise id).domUp = d.domUp := rfl
@[simp] theorem Dev.raise_dmas (d : Dev) (id : Nat) : (d.raise id).dmas = d.dmas := rfl
@[simp] theorem Dev.raise_tie (d : Dev) (id : Nat) : (d.raise id).tie = d.tie := rfl
@[simp] theorem Dev.raise_ringIrqs (d : Dev) (id : Nat) : (d.raise id).ringIrqs = d.ringIrqs := rfl
@[simp] theorem Dev.raise_telSched (d : Dev) (id : Nat) : (d.raise id).telSched = d.telSched := rfl
@[simp] theorem Dev.raise_msix (d : Dev) (id : Nat) : (d.raise id).msix = d.msix := rfl
@[simp] theorem Dev.raise_tapIr (d : Dev) (id : Nat) : (d.raise id).tapIr = d.tapIr := rfl
@[simp] theorem Dev.raise_tapBsr (d : Dev) (id : Nat) : (d.raise id).tapBsr = d.tapBsr := rfl
@[simp] theorem Dev.raise_dbgCore (d : Dev) (id : Nat) : (d.raise id).dbgCore = d.dbgCore := rfl
@[simp] theorem Dev.raise_fm (d : Dev) (id : Nat) : (d.raise id).fm = d.fm := rfl
@[simp] theorem Dev.raise_sup (d : Dev) (id : Nat) : (d.raise id).sup = d.sup := rfl
@[simp] theorem Dev.raise_cons (d : Dev) (id : Nat) : (d.raise id).cons = d.cons := rfl

/-! ### report -/

@[simp] theorem Dev.report_regs (d : Dev) (a u : Nat) : (d.report a u).regs = d.regs := rfl
@[simp] theorem Dev.report_answer (d : Dev) (a u : Nat) : (d.report a u).answer = d.answer := rfl
@[simp] theorem Dev.report_sent (d : Dev) (a u : Nat) : (d.report a u).sent = d.sent := rfl
@[simp] theorem Dev.report_halfW (d : Dev) (a u : Nat) : (d.report a u).halfW = d.halfW := rfl
@[simp] theorem Dev.report_halfR (d : Dev) (a u : Nat) : (d.report a u).halfR = d.halfR := rfl
@[simp] theorem Dev.report_sel (d : Dev) (a u : Nat) : (d.report a u).sel = d.sel := rfl
@[simp] theorem Dev.report_groups (d : Dev) (a u : Nat) : (d.report a u).groups = d.groups := rfl
@[simp] theorem Dev.report_gc (d : Dev) (a u : Nat) : (d.report a u).gc = d.gc := rfl
@[simp] theorem Dev.report_snap (d : Dev) (a u : Nat) : (d.report a u).snap = d.snap := rfl
@[simp] theorem Dev.report_time (d : Dev) (a u : Nat) : (d.report a u).time = d.time := rfl
@[simp] theorem Dev.report_led (d : Dev) (a u : Nat) : (d.report a u).led = d.led := rfl
@[simp] theorem Dev.report_livePend (d : Dev) (a u : Nat) : (d.report a u).livePend = d.livePend := rfl
@[simp] theorem Dev.report_events (d : Dev) (a u : Nat) : (d.report a u).events = d.events := rfl
@[simp] theorem Dev.report_freeCount (d : Dev) (a u : Nat) : (d.report a u).freeCount = d.freeCount := rfl
@[simp] theorem Dev.report_mem (d : Dev) (a u : Nat) : (d.report a u).mem = d.mem := rfl
@[simp] theorem Dev.report_ecc (d : Dev) (a u : Nat) : (d.report a u).ecc = d.ecc := rfl
@[simp] theorem Dev.report_hostQ (d : Dev) (a u : Nat) : (d.report a u).hostQ = d.hostQ := rfl
@[simp] theorem Dev.report_hostLost (d : Dev) (a u : Nat) : (d.report a u).hostLost = d.hostLost := rfl
@[simp] theorem Dev.report_phase (d : Dev) (a u : Nat) : (d.report a u).phase = d.phase := rfl
@[simp] theorem Dev.report_loader (d : Dev) (a u : Nat) : (d.report a u).loader = d.loader := rfl
@[simp] theorem Dev.report_flash (d : Dev) (a u : Nat) : (d.report a u).flash = d.flash := rfl
@[simp] theorem Dev.report_samples (d : Dev) (a u : Nat) : (d.report a u).samples = d.samples := rfl
@[simp] theorem Dev.report_loss (d : Dev) (a u : Nat) : (d.report a u).loss = d.loss := rfl
@[simp] theorem Dev.report_trued (d : Dev) (a u : Nat) : (d.report a u).trued = d.trued := rfl
@[simp] theorem Dev.report_adcs (d : Dev) (a u : Nat) : (d.report a u).adcs = d.adcs := rfl
@[simp] theorem Dev.report_adcHalves (d : Dev) (a u : Nat) : (d.report a u).adcHalves = d.adcHalves := rfl
@[simp] theorem Dev.report_comps (d : Dev) (a u : Nat) : (d.report a u).comps = d.comps := rfl
@[simp] theorem Dev.report_compBlks (d : Dev) (a u : Nat) : (d.report a u).compBlks = d.compBlks := rfl
@[simp] theorem Dev.report_slots (d : Dev) (a u : Nat) : (d.report a u).slots = d.slots := rfl
@[simp] theorem Dev.report_compGroups (d : Dev) (a u : Nat) : (d.report a u).compGroups = d.compGroups := rfl
@[simp] theorem Dev.report_sliceDet (d : Dev) (a u : Nat) : (d.report a u).sliceDet = d.sliceDet := rfl
@[simp] theorem Dev.report_sliceRet (d : Dev) (a u : Nat) : (d.report a u).sliceRet = d.sliceRet := rfl
@[simp] theorem Dev.report_spareTestT (d : Dev) (a u : Nat) : (d.report a u).spareTestT = d.spareTestT := rfl
@[simp] theorem Dev.report_traces (d : Dev) (a u : Nat) : (d.report a u).traces = d.traces := rfl
@[simp] theorem Dev.report_tims (d : Dev) (a u : Nat) : (d.report a u).tims = d.tims := rfl
@[simp] theorem Dev.report_outs (d : Dev) (a u : Nat) : (d.report a u).outs = d.outs := rfl
@[simp] theorem Dev.report_updQ (d : Dev) (a u : Nat) : (d.report a u).updQ = d.updQ := rfl
@[simp] theorem Dev.report_wits (d : Dev) (a u : Nat) : (d.report a u).wits = d.wits := rfl
@[simp] theorem Dev.report_lineTrue (d : Dev) (a u : Nat) : (d.report a u).lineTrue = d.lineTrue := rfl
@[simp] theorem Dev.report_lineSwap (d : Dev) (a u : Nat) : (d.report a u).lineSwap = d.lineSwap := rfl
@[simp] theorem Dev.report_lineFailed (d : Dev) (a u : Nat) : (d.report a u).lineFailed = d.lineFailed := rfl
@[simp] theorem Dev.report_adcTrig (d : Dev) (a u : Nat) : (d.report a u).adcTrig = d.adcTrig := rfl
@[simp] theorem Dev.report_planT0 (d : Dev) (a u : Nat) : (d.report a u).planT0 = d.planT0 := rfl
@[simp] theorem Dev.report_hardSafe (d : Dev) (a u : Nat) : (d.report a u).hardSafe = d.hardSafe := rfl
@[simp] theorem Dev.report_safeRel (d : Dev) (a u : Nat) : (d.report a u).safeRel = d.safeRel := rfl
@[simp] theorem Dev.report_phs (d : Dev) (a u : Nat) : (d.report a u).phs = d.phs := rfl
@[simp] theorem Dev.report_rails (d : Dev) (a u : Nat) : (d.report a u).rails = d.rails := rfl
@[simp] theorem Dev.report_dets (d : Dev) (a u : Nat) : (d.report a u).dets = d.dets := rfl
@[simp] theorem Dev.report_xings (d : Dev) (a u : Nat) : (d.report a u).xings = d.xings := rfl
@[simp] theorem Dev.report_cores (d : Dev) (a u : Nat) : (d.report a u).cores = d.cores := rfl
@[simp] theorem Dev.report_pairs (d : Dev) (a u : Nat) : (d.report a u).pairs = d.pairs := rfl
@[simp] theorem Dev.report_thrs (d : Dev) (a u : Nat) : (d.report a u).thrs = d.thrs := rfl
@[simp] theorem Dev.report_chans (d : Dev) (a u : Nat) : (d.report a u).chans = d.chans := rfl
@[simp] theorem Dev.report_rings (d : Dev) (a u : Nat) : (d.report a u).rings = d.rings := rfl
@[simp] theorem Dev.report_pins (d : Dev) (a u : Nat) : (d.report a u).pins = d.pins := rfl
@[simp] theorem Dev.report_engs (d : Dev) (a u : Nat) : (d.report a u).engs = d.engs := rfl
@[simp] theorem Dev.report_flagHist (d : Dev) (a u : Nat) : (d.report a u).flagHist = d.flagHist := rfl
@[simp] theorem Dev.report_errLog (d : Dev) (a u : Nat) : (d.report a u).errLog = d.errLog := rfl
@[simp] theorem Dev.report_ceArmed (d : Dev) (a u : Nat) : (d.report a u).ceArmed = d.ceArmed := rfl
@[simp] theorem Dev.report_scrubPos (d : Dev) (a u : Nat) : (d.report a u).scrubPos = d.scrubPos := rfl
@[simp] theorem Dev.report_lapStart (d : Dev) (a u : Nat) : (d.report a u).lapStart = d.lapStart := rfl
@[simp] theorem Dev.report_pass (d : Dev) (a u : Nat) : (d.report a u).pass = d.pass := rfl
@[simp] theorem Dev.report_retiring (d : Dev) (a u : Nat) : (d.report a u).retiring = d.retiring := rfl
@[simp] theorem Dev.report_domUp (d : Dev) (a u : Nat) : (d.report a u).domUp = d.domUp := rfl
@[simp] theorem Dev.report_dmas (d : Dev) (a u : Nat) : (d.report a u).dmas = d.dmas := rfl
@[simp] theorem Dev.report_tie (d : Dev) (a u : Nat) : (d.report a u).tie = d.tie := rfl
@[simp] theorem Dev.report_ringIrqs (d : Dev) (a u : Nat) : (d.report a u).ringIrqs = d.ringIrqs := rfl
@[simp] theorem Dev.report_telSched (d : Dev) (a u : Nat) : (d.report a u).telSched = d.telSched := rfl
@[simp] theorem Dev.report_msix (d : Dev) (a u : Nat) : (d.report a u).msix = d.msix := rfl
@[simp] theorem Dev.report_tapIr (d : Dev) (a u : Nat) : (d.report a u).tapIr = d.tapIr := rfl
@[simp] theorem Dev.report_tapBsr (d : Dev) (a u : Nat) : (d.report a u).tapBsr = d.tapBsr := rfl
@[simp] theorem Dev.report_dbgCore (d : Dev) (a u : Nat) : (d.report a u).dbgCore = d.dbgCore := rfl
@[simp] theorem Dev.report_fm (d : Dev) (a u : Nat) : (d.report a u).fm = d.fm := rfl
@[simp] theorem Dev.report_sup (d : Dev) (a u : Nat) : (d.report a u).sup = d.sup := rfl
@[simp] theorem Dev.report_cons (d : Dev) (a u : Nat) : (d.report a u).cons = d.cons := rfl

/-! ### logAt -/

@[simp] theorem Dev.logAt_regs (d : Dev) (t : Time) (k : RecKind) (fl : Nat) (o : AgentId) (a : Nat) (n w : Word) (c : Half) : (d.logAt t k fl o a n w c).regs = d.regs := rfl
@[simp] theorem Dev.logAt_answer (d : Dev) (t : Time) (k : RecKind) (fl : Nat) (o : AgentId) (a : Nat) (n w : Word) (c : Half) : (d.logAt t k fl o a n w c).answer = d.answer := rfl
@[simp] theorem Dev.logAt_sent (d : Dev) (t : Time) (k : RecKind) (fl : Nat) (o : AgentId) (a : Nat) (n w : Word) (c : Half) : (d.logAt t k fl o a n w c).sent = d.sent := rfl
@[simp] theorem Dev.logAt_halfW (d : Dev) (t : Time) (k : RecKind) (fl : Nat) (o : AgentId) (a : Nat) (n w : Word) (c : Half) : (d.logAt t k fl o a n w c).halfW = d.halfW := rfl
@[simp] theorem Dev.logAt_halfR (d : Dev) (t : Time) (k : RecKind) (fl : Nat) (o : AgentId) (a : Nat) (n w : Word) (c : Half) : (d.logAt t k fl o a n w c).halfR = d.halfR := rfl
@[simp] theorem Dev.logAt_sel (d : Dev) (t : Time) (k : RecKind) (fl : Nat) (o : AgentId) (a : Nat) (n w : Word) (c : Half) : (d.logAt t k fl o a n w c).sel = d.sel := rfl
@[simp] theorem Dev.logAt_groups (d : Dev) (t : Time) (k : RecKind) (fl : Nat) (o : AgentId) (a : Nat) (n w : Word) (c : Half) : (d.logAt t k fl o a n w c).groups = d.groups := rfl
@[simp] theorem Dev.logAt_gc (d : Dev) (t : Time) (k : RecKind) (fl : Nat) (o : AgentId) (a : Nat) (n w : Word) (c : Half) : (d.logAt t k fl o a n w c).gc = d.gc := rfl
@[simp] theorem Dev.logAt_snap (d : Dev) (t : Time) (k : RecKind) (fl : Nat) (o : AgentId) (a : Nat) (n w : Word) (c : Half) : (d.logAt t k fl o a n w c).snap = d.snap := rfl
@[simp] theorem Dev.logAt_time (d : Dev) (t : Time) (k : RecKind) (fl : Nat) (o : AgentId) (a : Nat) (n w : Word) (c : Half) : (d.logAt t k fl o a n w c).time = d.time := rfl
@[simp] theorem Dev.logAt_livePend (d : Dev) (t : Time) (k : RecKind) (fl : Nat) (o : AgentId) (a : Nat) (n w : Word) (c : Half) : (d.logAt t k fl o a n w c).livePend = d.livePend := rfl
@[simp] theorem Dev.logAt_events (d : Dev) (t : Time) (k : RecKind) (fl : Nat) (o : AgentId) (a : Nat) (n w : Word) (c : Half) : (d.logAt t k fl o a n w c).events = d.events := rfl
@[simp] theorem Dev.logAt_faults (d : Dev) (t : Time) (k : RecKind) (fl : Nat) (o : AgentId) (a : Nat) (n w : Word) (c : Half) : (d.logAt t k fl o a n w c).faults = d.faults := rfl
@[simp] theorem Dev.logAt_freeCount (d : Dev) (t : Time) (k : RecKind) (fl : Nat) (o : AgentId) (a : Nat) (n w : Word) (c : Half) : (d.logAt t k fl o a n w c).freeCount = d.freeCount := rfl
@[simp] theorem Dev.logAt_mem (d : Dev) (t : Time) (k : RecKind) (fl : Nat) (o : AgentId) (a : Nat) (n w : Word) (c : Half) : (d.logAt t k fl o a n w c).mem = d.mem := rfl
@[simp] theorem Dev.logAt_ecc (d : Dev) (t : Time) (k : RecKind) (fl : Nat) (o : AgentId) (a : Nat) (n w : Word) (c : Half) : (d.logAt t k fl o a n w c).ecc = d.ecc := rfl
@[simp] theorem Dev.logAt_hostQ (d : Dev) (t : Time) (k : RecKind) (fl : Nat) (o : AgentId) (a : Nat) (n w : Word) (c : Half) : (d.logAt t k fl o a n w c).hostQ = d.hostQ := rfl
@[simp] theorem Dev.logAt_hostLost (d : Dev) (t : Time) (k : RecKind) (fl : Nat) (o : AgentId) (a : Nat) (n w : Word) (c : Half) : (d.logAt t k fl o a n w c).hostLost = d.hostLost := rfl
@[simp] theorem Dev.logAt_phase (d : Dev) (t : Time) (k : RecKind) (fl : Nat) (o : AgentId) (a : Nat) (n w : Word) (c : Half) : (d.logAt t k fl o a n w c).phase = d.phase := rfl
@[simp] theorem Dev.logAt_loader (d : Dev) (t : Time) (k : RecKind) (fl : Nat) (o : AgentId) (a : Nat) (n w : Word) (c : Half) : (d.logAt t k fl o a n w c).loader = d.loader := rfl
@[simp] theorem Dev.logAt_flash (d : Dev) (t : Time) (k : RecKind) (fl : Nat) (o : AgentId) (a : Nat) (n w : Word) (c : Half) : (d.logAt t k fl o a n w c).flash = d.flash := rfl
@[simp] theorem Dev.logAt_samples (d : Dev) (t : Time) (k : RecKind) (fl : Nat) (o : AgentId) (a : Nat) (n w : Word) (c : Half) : (d.logAt t k fl o a n w c).samples = d.samples := rfl
@[simp] theorem Dev.logAt_loss (d : Dev) (t : Time) (k : RecKind) (fl : Nat) (o : AgentId) (a : Nat) (n w : Word) (c : Half) : (d.logAt t k fl o a n w c).loss = d.loss := rfl
@[simp] theorem Dev.logAt_trued (d : Dev) (t : Time) (k : RecKind) (fl : Nat) (o : AgentId) (a : Nat) (n w : Word) (c : Half) : (d.logAt t k fl o a n w c).trued = d.trued := rfl
@[simp] theorem Dev.logAt_adcs (d : Dev) (t : Time) (k : RecKind) (fl : Nat) (o : AgentId) (a : Nat) (n w : Word) (c : Half) : (d.logAt t k fl o a n w c).adcs = d.adcs := rfl
@[simp] theorem Dev.logAt_adcHalves (d : Dev) (t : Time) (k : RecKind) (fl : Nat) (o : AgentId) (a : Nat) (n w : Word) (c : Half) : (d.logAt t k fl o a n w c).adcHalves = d.adcHalves := rfl
@[simp] theorem Dev.logAt_comps (d : Dev) (t : Time) (k : RecKind) (fl : Nat) (o : AgentId) (a : Nat) (n w : Word) (c : Half) : (d.logAt t k fl o a n w c).comps = d.comps := rfl
@[simp] theorem Dev.logAt_compBlks (d : Dev) (t : Time) (k : RecKind) (fl : Nat) (o : AgentId) (a : Nat) (n w : Word) (c : Half) : (d.logAt t k fl o a n w c).compBlks = d.compBlks := rfl
@[simp] theorem Dev.logAt_slots (d : Dev) (t : Time) (k : RecKind) (fl : Nat) (o : AgentId) (a : Nat) (n w : Word) (c : Half) : (d.logAt t k fl o a n w c).slots = d.slots := rfl
@[simp] theorem Dev.logAt_compGroups (d : Dev) (t : Time) (k : RecKind) (fl : Nat) (o : AgentId) (a : Nat) (n w : Word) (c : Half) : (d.logAt t k fl o a n w c).compGroups = d.compGroups := rfl
@[simp] theorem Dev.logAt_sliceDet (d : Dev) (t : Time) (k : RecKind) (fl : Nat) (o : AgentId) (a : Nat) (n w : Word) (c : Half) : (d.logAt t k fl o a n w c).sliceDet = d.sliceDet := rfl
@[simp] theorem Dev.logAt_sliceRet (d : Dev) (t : Time) (k : RecKind) (fl : Nat) (o : AgentId) (a : Nat) (n w : Word) (c : Half) : (d.logAt t k fl o a n w c).sliceRet = d.sliceRet := rfl
@[simp] theorem Dev.logAt_spareTestT (d : Dev) (t : Time) (k : RecKind) (fl : Nat) (o : AgentId) (a : Nat) (n w : Word) (c : Half) : (d.logAt t k fl o a n w c).spareTestT = d.spareTestT := rfl
@[simp] theorem Dev.logAt_traces (d : Dev) (t : Time) (k : RecKind) (fl : Nat) (o : AgentId) (a : Nat) (n w : Word) (c : Half) : (d.logAt t k fl o a n w c).traces = d.traces := rfl
@[simp] theorem Dev.logAt_tims (d : Dev) (t : Time) (k : RecKind) (fl : Nat) (o : AgentId) (a : Nat) (n w : Word) (c : Half) : (d.logAt t k fl o a n w c).tims = d.tims := rfl
@[simp] theorem Dev.logAt_outs (d : Dev) (t : Time) (k : RecKind) (fl : Nat) (o : AgentId) (a : Nat) (n w : Word) (c : Half) : (d.logAt t k fl o a n w c).outs = d.outs := rfl
@[simp] theorem Dev.logAt_updQ (d : Dev) (t : Time) (k : RecKind) (fl : Nat) (o : AgentId) (a : Nat) (n w : Word) (c : Half) : (d.logAt t k fl o a n w c).updQ = d.updQ := rfl
@[simp] theorem Dev.logAt_wits (d : Dev) (t : Time) (k : RecKind) (fl : Nat) (o : AgentId) (a : Nat) (n w : Word) (c : Half) : (d.logAt t k fl o a n w c).wits = d.wits := rfl
@[simp] theorem Dev.logAt_lineTrue (d : Dev) (t : Time) (k : RecKind) (fl : Nat) (o : AgentId) (a : Nat) (n w : Word) (c : Half) : (d.logAt t k fl o a n w c).lineTrue = d.lineTrue := rfl
@[simp] theorem Dev.logAt_lineSwap (d : Dev) (t : Time) (k : RecKind) (fl : Nat) (o : AgentId) (a : Nat) (n w : Word) (c : Half) : (d.logAt t k fl o a n w c).lineSwap = d.lineSwap := rfl
@[simp] theorem Dev.logAt_lineFailed (d : Dev) (t : Time) (k : RecKind) (fl : Nat) (o : AgentId) (a : Nat) (n w : Word) (c : Half) : (d.logAt t k fl o a n w c).lineFailed = d.lineFailed := rfl
@[simp] theorem Dev.logAt_adcTrig (d : Dev) (t : Time) (k : RecKind) (fl : Nat) (o : AgentId) (a : Nat) (n w : Word) (c : Half) : (d.logAt t k fl o a n w c).adcTrig = d.adcTrig := rfl
@[simp] theorem Dev.logAt_planT0 (d : Dev) (t : Time) (k : RecKind) (fl : Nat) (o : AgentId) (a : Nat) (n w : Word) (c : Half) : (d.logAt t k fl o a n w c).planT0 = d.planT0 := rfl
@[simp] theorem Dev.logAt_hardSafe (d : Dev) (t : Time) (k : RecKind) (fl : Nat) (o : AgentId) (a : Nat) (n w : Word) (c : Half) : (d.logAt t k fl o a n w c).hardSafe = d.hardSafe := rfl
@[simp] theorem Dev.logAt_safeRel (d : Dev) (t : Time) (k : RecKind) (fl : Nat) (o : AgentId) (a : Nat) (n w : Word) (c : Half) : (d.logAt t k fl o a n w c).safeRel = d.safeRel := rfl
@[simp] theorem Dev.logAt_phs (d : Dev) (t : Time) (k : RecKind) (fl : Nat) (o : AgentId) (a : Nat) (n w : Word) (c : Half) : (d.logAt t k fl o a n w c).phs = d.phs := rfl
@[simp] theorem Dev.logAt_rails (d : Dev) (t : Time) (k : RecKind) (fl : Nat) (o : AgentId) (a : Nat) (n w : Word) (c : Half) : (d.logAt t k fl o a n w c).rails = d.rails := rfl
@[simp] theorem Dev.logAt_dets (d : Dev) (t : Time) (k : RecKind) (fl : Nat) (o : AgentId) (a : Nat) (n w : Word) (c : Half) : (d.logAt t k fl o a n w c).dets = d.dets := rfl
@[simp] theorem Dev.logAt_xings (d : Dev) (t : Time) (k : RecKind) (fl : Nat) (o : AgentId) (a : Nat) (n w : Word) (c : Half) : (d.logAt t k fl o a n w c).xings = d.xings := rfl
@[simp] theorem Dev.logAt_cores (d : Dev) (t : Time) (k : RecKind) (fl : Nat) (o : AgentId) (a : Nat) (n w : Word) (c : Half) : (d.logAt t k fl o a n w c).cores = d.cores := rfl
@[simp] theorem Dev.logAt_pairs (d : Dev) (t : Time) (k : RecKind) (fl : Nat) (o : AgentId) (a : Nat) (n w : Word) (c : Half) : (d.logAt t k fl o a n w c).pairs = d.pairs := rfl
@[simp] theorem Dev.logAt_thrs (d : Dev) (t : Time) (k : RecKind) (fl : Nat) (o : AgentId) (a : Nat) (n w : Word) (c : Half) : (d.logAt t k fl o a n w c).thrs = d.thrs := rfl
@[simp] theorem Dev.logAt_chans (d : Dev) (t : Time) (k : RecKind) (fl : Nat) (o : AgentId) (a : Nat) (n w : Word) (c : Half) : (d.logAt t k fl o a n w c).chans = d.chans := rfl
@[simp] theorem Dev.logAt_rings (d : Dev) (t : Time) (k : RecKind) (fl : Nat) (o : AgentId) (a : Nat) (n w : Word) (c : Half) : (d.logAt t k fl o a n w c).rings = d.rings := rfl
@[simp] theorem Dev.logAt_pins (d : Dev) (t : Time) (k : RecKind) (fl : Nat) (o : AgentId) (a : Nat) (n w : Word) (c : Half) : (d.logAt t k fl o a n w c).pins = d.pins := rfl
@[simp] theorem Dev.logAt_engs (d : Dev) (t : Time) (k : RecKind) (fl : Nat) (o : AgentId) (a : Nat) (n w : Word) (c : Half) : (d.logAt t k fl o a n w c).engs = d.engs := rfl
@[simp] theorem Dev.logAt_flagHist (d : Dev) (t : Time) (k : RecKind) (fl : Nat) (o : AgentId) (a : Nat) (n w : Word) (c : Half) : (d.logAt t k fl o a n w c).flagHist = d.flagHist := rfl
@[simp] theorem Dev.logAt_errLog (d : Dev) (t : Time) (k : RecKind) (fl : Nat) (o : AgentId) (a : Nat) (n w : Word) (c : Half) : (d.logAt t k fl o a n w c).errLog = d.errLog := rfl
@[simp] theorem Dev.logAt_ceArmed (d : Dev) (t : Time) (k : RecKind) (fl : Nat) (o : AgentId) (a : Nat) (n w : Word) (c : Half) : (d.logAt t k fl o a n w c).ceArmed = d.ceArmed := rfl
@[simp] theorem Dev.logAt_scrubPos (d : Dev) (t : Time) (k : RecKind) (fl : Nat) (o : AgentId) (a : Nat) (n w : Word) (c : Half) : (d.logAt t k fl o a n w c).scrubPos = d.scrubPos := rfl
@[simp] theorem Dev.logAt_lapStart (d : Dev) (t : Time) (k : RecKind) (fl : Nat) (o : AgentId) (a : Nat) (n w : Word) (c : Half) : (d.logAt t k fl o a n w c).lapStart = d.lapStart := rfl
@[simp] theorem Dev.logAt_pass (d : Dev) (t : Time) (k : RecKind) (fl : Nat) (o : AgentId) (a : Nat) (n w : Word) (c : Half) : (d.logAt t k fl o a n w c).pass = d.pass := rfl
@[simp] theorem Dev.logAt_retiring (d : Dev) (t : Time) (k : RecKind) (fl : Nat) (o : AgentId) (a : Nat) (n w : Word) (c : Half) : (d.logAt t k fl o a n w c).retiring = d.retiring := rfl
@[simp] theorem Dev.logAt_domUp (d : Dev) (t : Time) (k : RecKind) (fl : Nat) (o : AgentId) (a : Nat) (n w : Word) (c : Half) : (d.logAt t k fl o a n w c).domUp = d.domUp := rfl
@[simp] theorem Dev.logAt_dmas (d : Dev) (t : Time) (k : RecKind) (fl : Nat) (o : AgentId) (a : Nat) (n w : Word) (c : Half) : (d.logAt t k fl o a n w c).dmas = d.dmas := rfl
@[simp] theorem Dev.logAt_tie (d : Dev) (t : Time) (k : RecKind) (fl : Nat) (o : AgentId) (a : Nat) (n w : Word) (c : Half) : (d.logAt t k fl o a n w c).tie = d.tie := rfl
@[simp] theorem Dev.logAt_ringIrqs (d : Dev) (t : Time) (k : RecKind) (fl : Nat) (o : AgentId) (a : Nat) (n w : Word) (c : Half) : (d.logAt t k fl o a n w c).ringIrqs = d.ringIrqs := rfl
@[simp] theorem Dev.logAt_telSched (d : Dev) (t : Time) (k : RecKind) (fl : Nat) (o : AgentId) (a : Nat) (n w : Word) (c : Half) : (d.logAt t k fl o a n w c).telSched = d.telSched := rfl
@[simp] theorem Dev.logAt_msix (d : Dev) (t : Time) (k : RecKind) (fl : Nat) (o : AgentId) (a : Nat) (n w : Word) (c : Half) : (d.logAt t k fl o a n w c).msix = d.msix := rfl
@[simp] theorem Dev.logAt_tapIr (d : Dev) (t : Time) (k : RecKind) (fl : Nat) (o : AgentId) (a : Nat) (n w : Word) (c : Half) : (d.logAt t k fl o a n w c).tapIr = d.tapIr := rfl
@[simp] theorem Dev.logAt_tapBsr (d : Dev) (t : Time) (k : RecKind) (fl : Nat) (o : AgentId) (a : Nat) (n w : Word) (c : Half) : (d.logAt t k fl o a n w c).tapBsr = d.tapBsr := rfl
@[simp] theorem Dev.logAt_dbgCore (d : Dev) (t : Time) (k : RecKind) (fl : Nat) (o : AgentId) (a : Nat) (n w : Word) (c : Half) : (d.logAt t k fl o a n w c).dbgCore = d.dbgCore := rfl
@[simp] theorem Dev.logAt_fm (d : Dev) (t : Time) (k : RecKind) (fl : Nat) (o : AgentId) (a : Nat) (n w : Word) (c : Half) : (d.logAt t k fl o a n w c).fm = d.fm := rfl
@[simp] theorem Dev.logAt_sup (d : Dev) (t : Time) (k : RecKind) (fl : Nat) (o : AgentId) (a : Nat) (n w : Word) (c : Half) : (d.logAt t k fl o a n w c).sup = d.sup := rfl
@[simp] theorem Dev.logAt_cons (d : Dev) (t : Time) (k : RecKind) (fl : Nat) (o : AgentId) (a : Nat) (n w : Word) (c : Half) : (d.logAt t k fl o a n w c).cons = d.cons := rfl

/-! ### logRec -/

@[simp] theorem Dev.logRec_regs (d : Dev) (k : RecKind) (fl : Nat) (o : AgentId) (a : Nat) (n w : Word) : (d.logRec k fl o a n w).regs = d.regs := rfl
@[simp] theorem Dev.logRec_answer (d : Dev) (k : RecKind) (fl : Nat) (o : AgentId) (a : Nat) (n w : Word) : (d.logRec k fl o a n w).answer = d.answer := rfl
@[simp] theorem Dev.logRec_sent (d : Dev) (k : RecKind) (fl : Nat) (o : AgentId) (a : Nat) (n w : Word) : (d.logRec k fl o a n w).sent = d.sent := rfl
@[simp] theorem Dev.logRec_halfW (d : Dev) (k : RecKind) (fl : Nat) (o : AgentId) (a : Nat) (n w : Word) : (d.logRec k fl o a n w).halfW = d.halfW := rfl
@[simp] theorem Dev.logRec_halfR (d : Dev) (k : RecKind) (fl : Nat) (o : AgentId) (a : Nat) (n w : Word) : (d.logRec k fl o a n w).halfR = d.halfR := rfl
@[simp] theorem Dev.logRec_sel (d : Dev) (k : RecKind) (fl : Nat) (o : AgentId) (a : Nat) (n w : Word) : (d.logRec k fl o a n w).sel = d.sel := rfl
@[simp] theorem Dev.logRec_groups (d : Dev) (k : RecKind) (fl : Nat) (o : AgentId) (a : Nat) (n w : Word) : (d.logRec k fl o a n w).groups = d.groups := rfl
@[simp] theorem Dev.logRec_gc (d : Dev) (k : RecKind) (fl : Nat) (o : AgentId) (a : Nat) (n w : Word) : (d.logRec k fl o a n w).gc = d.gc := rfl
@[simp] theorem Dev.logRec_snap (d : Dev) (k : RecKind) (fl : Nat) (o : AgentId) (a : Nat) (n w : Word) : (d.logRec k fl o a n w).snap = d.snap := rfl
@[simp] theorem Dev.logRec_time (d : Dev) (k : RecKind) (fl : Nat) (o : AgentId) (a : Nat) (n w : Word) : (d.logRec k fl o a n w).time = d.time := rfl
@[simp] theorem Dev.logRec_livePend (d : Dev) (k : RecKind) (fl : Nat) (o : AgentId) (a : Nat) (n w : Word) : (d.logRec k fl o a n w).livePend = d.livePend := rfl
@[simp] theorem Dev.logRec_events (d : Dev) (k : RecKind) (fl : Nat) (o : AgentId) (a : Nat) (n w : Word) : (d.logRec k fl o a n w).events = d.events := rfl
@[simp] theorem Dev.logRec_faults (d : Dev) (k : RecKind) (fl : Nat) (o : AgentId) (a : Nat) (n w : Word) : (d.logRec k fl o a n w).faults = d.faults := rfl
@[simp] theorem Dev.logRec_freeCount (d : Dev) (k : RecKind) (fl : Nat) (o : AgentId) (a : Nat) (n w : Word) : (d.logRec k fl o a n w).freeCount = d.freeCount := rfl
@[simp] theorem Dev.logRec_mem (d : Dev) (k : RecKind) (fl : Nat) (o : AgentId) (a : Nat) (n w : Word) : (d.logRec k fl o a n w).mem = d.mem := rfl
@[simp] theorem Dev.logRec_ecc (d : Dev) (k : RecKind) (fl : Nat) (o : AgentId) (a : Nat) (n w : Word) : (d.logRec k fl o a n w).ecc = d.ecc := rfl
@[simp] theorem Dev.logRec_hostQ (d : Dev) (k : RecKind) (fl : Nat) (o : AgentId) (a : Nat) (n w : Word) : (d.logRec k fl o a n w).hostQ = d.hostQ := rfl
@[simp] theorem Dev.logRec_hostLost (d : Dev) (k : RecKind) (fl : Nat) (o : AgentId) (a : Nat) (n w : Word) : (d.logRec k fl o a n w).hostLost = d.hostLost := rfl
@[simp] theorem Dev.logRec_phase (d : Dev) (k : RecKind) (fl : Nat) (o : AgentId) (a : Nat) (n w : Word) : (d.logRec k fl o a n w).phase = d.phase := rfl
@[simp] theorem Dev.logRec_loader (d : Dev) (k : RecKind) (fl : Nat) (o : AgentId) (a : Nat) (n w : Word) : (d.logRec k fl o a n w).loader = d.loader := rfl
@[simp] theorem Dev.logRec_flash (d : Dev) (k : RecKind) (fl : Nat) (o : AgentId) (a : Nat) (n w : Word) : (d.logRec k fl o a n w).flash = d.flash := rfl
@[simp] theorem Dev.logRec_samples (d : Dev) (k : RecKind) (fl : Nat) (o : AgentId) (a : Nat) (n w : Word) : (d.logRec k fl o a n w).samples = d.samples := rfl
@[simp] theorem Dev.logRec_loss (d : Dev) (k : RecKind) (fl : Nat) (o : AgentId) (a : Nat) (n w : Word) : (d.logRec k fl o a n w).loss = d.loss := rfl
@[simp] theorem Dev.logRec_trued (d : Dev) (k : RecKind) (fl : Nat) (o : AgentId) (a : Nat) (n w : Word) : (d.logRec k fl o a n w).trued = d.trued := rfl
@[simp] theorem Dev.logRec_adcs (d : Dev) (k : RecKind) (fl : Nat) (o : AgentId) (a : Nat) (n w : Word) : (d.logRec k fl o a n w).adcs = d.adcs := rfl
@[simp] theorem Dev.logRec_adcHalves (d : Dev) (k : RecKind) (fl : Nat) (o : AgentId) (a : Nat) (n w : Word) : (d.logRec k fl o a n w).adcHalves = d.adcHalves := rfl
@[simp] theorem Dev.logRec_comps (d : Dev) (k : RecKind) (fl : Nat) (o : AgentId) (a : Nat) (n w : Word) : (d.logRec k fl o a n w).comps = d.comps := rfl
@[simp] theorem Dev.logRec_compBlks (d : Dev) (k : RecKind) (fl : Nat) (o : AgentId) (a : Nat) (n w : Word) : (d.logRec k fl o a n w).compBlks = d.compBlks := rfl
@[simp] theorem Dev.logRec_slots (d : Dev) (k : RecKind) (fl : Nat) (o : AgentId) (a : Nat) (n w : Word) : (d.logRec k fl o a n w).slots = d.slots := rfl
@[simp] theorem Dev.logRec_compGroups (d : Dev) (k : RecKind) (fl : Nat) (o : AgentId) (a : Nat) (n w : Word) : (d.logRec k fl o a n w).compGroups = d.compGroups := rfl
@[simp] theorem Dev.logRec_sliceDet (d : Dev) (k : RecKind) (fl : Nat) (o : AgentId) (a : Nat) (n w : Word) : (d.logRec k fl o a n w).sliceDet = d.sliceDet := rfl
@[simp] theorem Dev.logRec_sliceRet (d : Dev) (k : RecKind) (fl : Nat) (o : AgentId) (a : Nat) (n w : Word) : (d.logRec k fl o a n w).sliceRet = d.sliceRet := rfl
@[simp] theorem Dev.logRec_spareTestT (d : Dev) (k : RecKind) (fl : Nat) (o : AgentId) (a : Nat) (n w : Word) : (d.logRec k fl o a n w).spareTestT = d.spareTestT := rfl
@[simp] theorem Dev.logRec_traces (d : Dev) (k : RecKind) (fl : Nat) (o : AgentId) (a : Nat) (n w : Word) : (d.logRec k fl o a n w).traces = d.traces := rfl
@[simp] theorem Dev.logRec_tims (d : Dev) (k : RecKind) (fl : Nat) (o : AgentId) (a : Nat) (n w : Word) : (d.logRec k fl o a n w).tims = d.tims := rfl
@[simp] theorem Dev.logRec_outs (d : Dev) (k : RecKind) (fl : Nat) (o : AgentId) (a : Nat) (n w : Word) : (d.logRec k fl o a n w).outs = d.outs := rfl
@[simp] theorem Dev.logRec_updQ (d : Dev) (k : RecKind) (fl : Nat) (o : AgentId) (a : Nat) (n w : Word) : (d.logRec k fl o a n w).updQ = d.updQ := rfl
@[simp] theorem Dev.logRec_wits (d : Dev) (k : RecKind) (fl : Nat) (o : AgentId) (a : Nat) (n w : Word) : (d.logRec k fl o a n w).wits = d.wits := rfl
@[simp] theorem Dev.logRec_lineTrue (d : Dev) (k : RecKind) (fl : Nat) (o : AgentId) (a : Nat) (n w : Word) : (d.logRec k fl o a n w).lineTrue = d.lineTrue := rfl
@[simp] theorem Dev.logRec_lineSwap (d : Dev) (k : RecKind) (fl : Nat) (o : AgentId) (a : Nat) (n w : Word) : (d.logRec k fl o a n w).lineSwap = d.lineSwap := rfl
@[simp] theorem Dev.logRec_lineFailed (d : Dev) (k : RecKind) (fl : Nat) (o : AgentId) (a : Nat) (n w : Word) : (d.logRec k fl o a n w).lineFailed = d.lineFailed := rfl
@[simp] theorem Dev.logRec_adcTrig (d : Dev) (k : RecKind) (fl : Nat) (o : AgentId) (a : Nat) (n w : Word) : (d.logRec k fl o a n w).adcTrig = d.adcTrig := rfl
@[simp] theorem Dev.logRec_planT0 (d : Dev) (k : RecKind) (fl : Nat) (o : AgentId) (a : Nat) (n w : Word) : (d.logRec k fl o a n w).planT0 = d.planT0 := rfl
@[simp] theorem Dev.logRec_hardSafe (d : Dev) (k : RecKind) (fl : Nat) (o : AgentId) (a : Nat) (n w : Word) : (d.logRec k fl o a n w).hardSafe = d.hardSafe := rfl
@[simp] theorem Dev.logRec_safeRel (d : Dev) (k : RecKind) (fl : Nat) (o : AgentId) (a : Nat) (n w : Word) : (d.logRec k fl o a n w).safeRel = d.safeRel := rfl
@[simp] theorem Dev.logRec_phs (d : Dev) (k : RecKind) (fl : Nat) (o : AgentId) (a : Nat) (n w : Word) : (d.logRec k fl o a n w).phs = d.phs := rfl
@[simp] theorem Dev.logRec_rails (d : Dev) (k : RecKind) (fl : Nat) (o : AgentId) (a : Nat) (n w : Word) : (d.logRec k fl o a n w).rails = d.rails := rfl
@[simp] theorem Dev.logRec_dets (d : Dev) (k : RecKind) (fl : Nat) (o : AgentId) (a : Nat) (n w : Word) : (d.logRec k fl o a n w).dets = d.dets := rfl
@[simp] theorem Dev.logRec_xings (d : Dev) (k : RecKind) (fl : Nat) (o : AgentId) (a : Nat) (n w : Word) : (d.logRec k fl o a n w).xings = d.xings := rfl
@[simp] theorem Dev.logRec_cores (d : Dev) (k : RecKind) (fl : Nat) (o : AgentId) (a : Nat) (n w : Word) : (d.logRec k fl o a n w).cores = d.cores := rfl
@[simp] theorem Dev.logRec_pairs (d : Dev) (k : RecKind) (fl : Nat) (o : AgentId) (a : Nat) (n w : Word) : (d.logRec k fl o a n w).pairs = d.pairs := rfl
@[simp] theorem Dev.logRec_thrs (d : Dev) (k : RecKind) (fl : Nat) (o : AgentId) (a : Nat) (n w : Word) : (d.logRec k fl o a n w).thrs = d.thrs := rfl
@[simp] theorem Dev.logRec_chans (d : Dev) (k : RecKind) (fl : Nat) (o : AgentId) (a : Nat) (n w : Word) : (d.logRec k fl o a n w).chans = d.chans := rfl
@[simp] theorem Dev.logRec_rings (d : Dev) (k : RecKind) (fl : Nat) (o : AgentId) (a : Nat) (n w : Word) : (d.logRec k fl o a n w).rings = d.rings := rfl
@[simp] theorem Dev.logRec_pins (d : Dev) (k : RecKind) (fl : Nat) (o : AgentId) (a : Nat) (n w : Word) : (d.logRec k fl o a n w).pins = d.pins := rfl
@[simp] theorem Dev.logRec_engs (d : Dev) (k : RecKind) (fl : Nat) (o : AgentId) (a : Nat) (n w : Word) : (d.logRec k fl o a n w).engs = d.engs := rfl
@[simp] theorem Dev.logRec_flagHist (d : Dev) (k : RecKind) (fl : Nat) (o : AgentId) (a : Nat) (n w : Word) : (d.logRec k fl o a n w).flagHist = d.flagHist := rfl
@[simp] theorem Dev.logRec_errLog (d : Dev) (k : RecKind) (fl : Nat) (o : AgentId) (a : Nat) (n w : Word) : (d.logRec k fl o a n w).errLog = d.errLog := rfl
@[simp] theorem Dev.logRec_ceArmed (d : Dev) (k : RecKind) (fl : Nat) (o : AgentId) (a : Nat) (n w : Word) : (d.logRec k fl o a n w).ceArmed = d.ceArmed := rfl
@[simp] theorem Dev.logRec_scrubPos (d : Dev) (k : RecKind) (fl : Nat) (o : AgentId) (a : Nat) (n w : Word) : (d.logRec k fl o a n w).scrubPos = d.scrubPos := rfl
@[simp] theorem Dev.logRec_lapStart (d : Dev) (k : RecKind) (fl : Nat) (o : AgentId) (a : Nat) (n w : Word) : (d.logRec k fl o a n w).lapStart = d.lapStart := rfl
@[simp] theorem Dev.logRec_pass (d : Dev) (k : RecKind) (fl : Nat) (o : AgentId) (a : Nat) (n w : Word) : (d.logRec k fl o a n w).pass = d.pass := rfl
@[simp] theorem Dev.logRec_retiring (d : Dev) (k : RecKind) (fl : Nat) (o : AgentId) (a : Nat) (n w : Word) : (d.logRec k fl o a n w).retiring = d.retiring := rfl
@[simp] theorem Dev.logRec_domUp (d : Dev) (k : RecKind) (fl : Nat) (o : AgentId) (a : Nat) (n w : Word) : (d.logRec k fl o a n w).domUp = d.domUp := rfl
@[simp] theorem Dev.logRec_dmas (d : Dev) (k : RecKind) (fl : Nat) (o : AgentId) (a : Nat) (n w : Word) : (d.logRec k fl o a n w).dmas = d.dmas := rfl
@[simp] theorem Dev.logRec_tie (d : Dev) (k : RecKind) (fl : Nat) (o : AgentId) (a : Nat) (n w : Word) : (d.logRec k fl o a n w).tie = d.tie := rfl
@[simp] theorem Dev.logRec_ringIrqs (d : Dev) (k : RecKind) (fl : Nat) (o : AgentId) (a : Nat) (n w : Word) : (d.logRec k fl o a n w).ringIrqs = d.ringIrqs := rfl
@[simp] theorem Dev.logRec_telSched (d : Dev) (k : RecKind) (fl : Nat) (o : AgentId) (a : Nat) (n w : Word) : (d.logRec k fl o a n w).telSched = d.telSched := rfl
@[simp] theorem Dev.logRec_msix (d : Dev) (k : RecKind) (fl : Nat) (o : AgentId) (a : Nat) (n w : Word) : (d.logRec k fl o a n w).msix = d.msix := rfl
@[simp] theorem Dev.logRec_tapIr (d : Dev) (k : RecKind) (fl : Nat) (o : AgentId) (a : Nat) (n w : Word) : (d.logRec k fl o a n w).tapIr = d.tapIr := rfl
@[simp] theorem Dev.logRec_tapBsr (d : Dev) (k : RecKind) (fl : Nat) (o : AgentId) (a : Nat) (n w : Word) : (d.logRec k fl o a n w).tapBsr = d.tapBsr := rfl
@[simp] theorem Dev.logRec_dbgCore (d : Dev) (k : RecKind) (fl : Nat) (o : AgentId) (a : Nat) (n w : Word) : (d.logRec k fl o a n w).dbgCore = d.dbgCore := rfl
@[simp] theorem Dev.logRec_fm (d : Dev) (k : RecKind) (fl : Nat) (o : AgentId) (a : Nat) (n w : Word) : (d.logRec k fl o a n w).fm = d.fm := rfl
@[simp] theorem Dev.logRec_sup (d : Dev) (k : RecKind) (fl : Nat) (o : AgentId) (a : Nat) (n w : Word) : (d.logRec k fl o a n w).sup = d.sup := rfl
@[simp] theorem Dev.logRec_cons (d : Dev) (k : RecKind) (fl : Nat) (o : AgentId) (a : Nat) (n w : Word) : (d.logRec k fl o a n w).cons = d.cons := rfl

/-! ### setGrp -/

@[simp] theorem Dev.setGrp_regs (d : Dev) (k : Nat) (g : Grp) : (d.setGrp k g).regs = d.regs := rfl
@[simp] theorem Dev.setGrp_answer (d : Dev) (k : Nat) (g : Grp) : (d.setGrp k g).answer = d.answer := rfl
@[simp] theorem Dev.setGrp_sent (d : Dev) (k : Nat) (g : Grp) : (d.setGrp k g).sent = d.sent := rfl
@[simp] theorem Dev.setGrp_halfW (d : Dev) (k : Nat) (g : Grp) : (d.setGrp k g).halfW = d.halfW := rfl
@[simp] theorem Dev.setGrp_halfR (d : Dev) (k : Nat) (g : Grp) : (d.setGrp k g).halfR = d.halfR := rfl
@[simp] theorem Dev.setGrp_sel (d : Dev) (k : Nat) (g : Grp) : (d.setGrp k g).sel = d.sel := rfl
@[simp] theorem Dev.setGrp_gc (d : Dev) (k : Nat) (g : Grp) : (d.setGrp k g).gc = d.gc := rfl
@[simp] theorem Dev.setGrp_snap (d : Dev) (k : Nat) (g : Grp) : (d.setGrp k g).snap = d.snap := rfl
@[simp] theorem Dev.setGrp_time (d : Dev) (k : Nat) (g : Grp) : (d.setGrp k g).time = d.time := rfl
@[simp] theorem Dev.setGrp_led (d : Dev) (k : Nat) (g : Grp) : (d.setGrp k g).led = d.led := rfl
@[simp] theorem Dev.setGrp_livePend (d : Dev) (k : Nat) (g : Grp) : (d.setGrp k g).livePend = d.livePend := rfl
@[simp] theorem Dev.setGrp_events (d : Dev) (k : Nat) (g : Grp) : (d.setGrp k g).events = d.events := rfl
@[simp] theorem Dev.setGrp_faults (d : Dev) (k : Nat) (g : Grp) : (d.setGrp k g).faults = d.faults := rfl
@[simp] theorem Dev.setGrp_freeCount (d : Dev) (k : Nat) (g : Grp) : (d.setGrp k g).freeCount = d.freeCount := rfl
@[simp] theorem Dev.setGrp_mem (d : Dev) (k : Nat) (g : Grp) : (d.setGrp k g).mem = d.mem := rfl
@[simp] theorem Dev.setGrp_ecc (d : Dev) (k : Nat) (g : Grp) : (d.setGrp k g).ecc = d.ecc := rfl
@[simp] theorem Dev.setGrp_hostQ (d : Dev) (k : Nat) (g : Grp) : (d.setGrp k g).hostQ = d.hostQ := rfl
@[simp] theorem Dev.setGrp_hostLost (d : Dev) (k : Nat) (g : Grp) : (d.setGrp k g).hostLost = d.hostLost := rfl
@[simp] theorem Dev.setGrp_phase (d : Dev) (k : Nat) (g : Grp) : (d.setGrp k g).phase = d.phase := rfl
@[simp] theorem Dev.setGrp_loader (d : Dev) (k : Nat) (g : Grp) : (d.setGrp k g).loader = d.loader := rfl
@[simp] theorem Dev.setGrp_flash (d : Dev) (k : Nat) (g : Grp) : (d.setGrp k g).flash = d.flash := rfl
@[simp] theorem Dev.setGrp_samples (d : Dev) (k : Nat) (g : Grp) : (d.setGrp k g).samples = d.samples := rfl
@[simp] theorem Dev.setGrp_loss (d : Dev) (k : Nat) (g : Grp) : (d.setGrp k g).loss = d.loss := rfl
@[simp] theorem Dev.setGrp_trued (d : Dev) (k : Nat) (g : Grp) : (d.setGrp k g).trued = d.trued := rfl
@[simp] theorem Dev.setGrp_adcs (d : Dev) (k : Nat) (g : Grp) : (d.setGrp k g).adcs = d.adcs := rfl
@[simp] theorem Dev.setGrp_adcHalves (d : Dev) (k : Nat) (g : Grp) : (d.setGrp k g).adcHalves = d.adcHalves := rfl
@[simp] theorem Dev.setGrp_comps (d : Dev) (k : Nat) (g : Grp) : (d.setGrp k g).comps = d.comps := rfl
@[simp] theorem Dev.setGrp_compBlks (d : Dev) (k : Nat) (g : Grp) : (d.setGrp k g).compBlks = d.compBlks := rfl
@[simp] theorem Dev.setGrp_slots (d : Dev) (k : Nat) (g : Grp) : (d.setGrp k g).slots = d.slots := rfl
@[simp] theorem Dev.setGrp_compGroups (d : Dev) (k : Nat) (g : Grp) : (d.setGrp k g).compGroups = d.compGroups := rfl
@[simp] theorem Dev.setGrp_sliceDet (d : Dev) (k : Nat) (g : Grp) : (d.setGrp k g).sliceDet = d.sliceDet := rfl
@[simp] theorem Dev.setGrp_sliceRet (d : Dev) (k : Nat) (g : Grp) : (d.setGrp k g).sliceRet = d.sliceRet := rfl
@[simp] theorem Dev.setGrp_spareTestT (d : Dev) (k : Nat) (g : Grp) : (d.setGrp k g).spareTestT = d.spareTestT := rfl
@[simp] theorem Dev.setGrp_traces (d : Dev) (k : Nat) (g : Grp) : (d.setGrp k g).traces = d.traces := rfl
@[simp] theorem Dev.setGrp_tims (d : Dev) (k : Nat) (g : Grp) : (d.setGrp k g).tims = d.tims := rfl
@[simp] theorem Dev.setGrp_outs (d : Dev) (k : Nat) (g : Grp) : (d.setGrp k g).outs = d.outs := rfl
@[simp] theorem Dev.setGrp_updQ (d : Dev) (k : Nat) (g : Grp) : (d.setGrp k g).updQ = d.updQ := rfl
@[simp] theorem Dev.setGrp_wits (d : Dev) (k : Nat) (g : Grp) : (d.setGrp k g).wits = d.wits := rfl
@[simp] theorem Dev.setGrp_lineTrue (d : Dev) (k : Nat) (g : Grp) : (d.setGrp k g).lineTrue = d.lineTrue := rfl
@[simp] theorem Dev.setGrp_lineSwap (d : Dev) (k : Nat) (g : Grp) : (d.setGrp k g).lineSwap = d.lineSwap := rfl
@[simp] theorem Dev.setGrp_lineFailed (d : Dev) (k : Nat) (g : Grp) : (d.setGrp k g).lineFailed = d.lineFailed := rfl
@[simp] theorem Dev.setGrp_adcTrig (d : Dev) (k : Nat) (g : Grp) : (d.setGrp k g).adcTrig = d.adcTrig := rfl
@[simp] theorem Dev.setGrp_planT0 (d : Dev) (k : Nat) (g : Grp) : (d.setGrp k g).planT0 = d.planT0 := rfl
@[simp] theorem Dev.setGrp_hardSafe (d : Dev) (k : Nat) (g : Grp) : (d.setGrp k g).hardSafe = d.hardSafe := rfl
@[simp] theorem Dev.setGrp_safeRel (d : Dev) (k : Nat) (g : Grp) : (d.setGrp k g).safeRel = d.safeRel := rfl
@[simp] theorem Dev.setGrp_phs (d : Dev) (k : Nat) (g : Grp) : (d.setGrp k g).phs = d.phs := rfl
@[simp] theorem Dev.setGrp_rails (d : Dev) (k : Nat) (g : Grp) : (d.setGrp k g).rails = d.rails := rfl
@[simp] theorem Dev.setGrp_dets (d : Dev) (k : Nat) (g : Grp) : (d.setGrp k g).dets = d.dets := rfl
@[simp] theorem Dev.setGrp_xings (d : Dev) (k : Nat) (g : Grp) : (d.setGrp k g).xings = d.xings := rfl
@[simp] theorem Dev.setGrp_cores (d : Dev) (k : Nat) (g : Grp) : (d.setGrp k g).cores = d.cores := rfl
@[simp] theorem Dev.setGrp_pairs (d : Dev) (k : Nat) (g : Grp) : (d.setGrp k g).pairs = d.pairs := rfl
@[simp] theorem Dev.setGrp_thrs (d : Dev) (k : Nat) (g : Grp) : (d.setGrp k g).thrs = d.thrs := rfl
@[simp] theorem Dev.setGrp_chans (d : Dev) (k : Nat) (g : Grp) : (d.setGrp k g).chans = d.chans := rfl
@[simp] theorem Dev.setGrp_rings (d : Dev) (k : Nat) (g : Grp) : (d.setGrp k g).rings = d.rings := rfl
@[simp] theorem Dev.setGrp_pins (d : Dev) (k : Nat) (g : Grp) : (d.setGrp k g).pins = d.pins := rfl
@[simp] theorem Dev.setGrp_engs (d : Dev) (k : Nat) (g : Grp) : (d.setGrp k g).engs = d.engs := rfl
@[simp] theorem Dev.setGrp_flagHist (d : Dev) (k : Nat) (g : Grp) : (d.setGrp k g).flagHist = d.flagHist := rfl
@[simp] theorem Dev.setGrp_errLog (d : Dev) (k : Nat) (g : Grp) : (d.setGrp k g).errLog = d.errLog := rfl
@[simp] theorem Dev.setGrp_ceArmed (d : Dev) (k : Nat) (g : Grp) : (d.setGrp k g).ceArmed = d.ceArmed := rfl
@[simp] theorem Dev.setGrp_scrubPos (d : Dev) (k : Nat) (g : Grp) : (d.setGrp k g).scrubPos = d.scrubPos := rfl
@[simp] theorem Dev.setGrp_lapStart (d : Dev) (k : Nat) (g : Grp) : (d.setGrp k g).lapStart = d.lapStart := rfl
@[simp] theorem Dev.setGrp_pass (d : Dev) (k : Nat) (g : Grp) : (d.setGrp k g).pass = d.pass := rfl
@[simp] theorem Dev.setGrp_retiring (d : Dev) (k : Nat) (g : Grp) : (d.setGrp k g).retiring = d.retiring := rfl
@[simp] theorem Dev.setGrp_domUp (d : Dev) (k : Nat) (g : Grp) : (d.setGrp k g).domUp = d.domUp := rfl
@[simp] theorem Dev.setGrp_dmas (d : Dev) (k : Nat) (g : Grp) : (d.setGrp k g).dmas = d.dmas := rfl
@[simp] theorem Dev.setGrp_tie (d : Dev) (k : Nat) (g : Grp) : (d.setGrp k g).tie = d.tie := rfl
@[simp] theorem Dev.setGrp_ringIrqs (d : Dev) (k : Nat) (g : Grp) : (d.setGrp k g).ringIrqs = d.ringIrqs := rfl
@[simp] theorem Dev.setGrp_telSched (d : Dev) (k : Nat) (g : Grp) : (d.setGrp k g).telSched = d.telSched := rfl
@[simp] theorem Dev.setGrp_msix (d : Dev) (k : Nat) (g : Grp) : (d.setGrp k g).msix = d.msix := rfl
@[simp] theorem Dev.setGrp_tapIr (d : Dev) (k : Nat) (g : Grp) : (d.setGrp k g).tapIr = d.tapIr := rfl
@[simp] theorem Dev.setGrp_tapBsr (d : Dev) (k : Nat) (g : Grp) : (d.setGrp k g).tapBsr = d.tapBsr := rfl
@[simp] theorem Dev.setGrp_dbgCore (d : Dev) (k : Nat) (g : Grp) : (d.setGrp k g).dbgCore = d.dbgCore := rfl
@[simp] theorem Dev.setGrp_fm (d : Dev) (k : Nat) (g : Grp) : (d.setGrp k g).fm = d.fm := rfl
@[simp] theorem Dev.setGrp_sup (d : Dev) (k : Nat) (g : Grp) : (d.setGrp k g).sup = d.sup := rfl
@[simp] theorem Dev.setGrp_cons (d : Dev) (k : Nat) (g : Grp) : (d.setGrp k g).cons = d.cons := rfl

/-! ### setByte -/

@[simp] theorem Dev.setByte_regs (d : Dev) (a : Nat) (b : Byte) : (d.setByte a b).regs = d.regs := rfl
@[simp] theorem Dev.setByte_answer (d : Dev) (a : Nat) (b : Byte) : (d.setByte a b).answer = d.answer := rfl
@[simp] theorem Dev.setByte_sent (d : Dev) (a : Nat) (b : Byte) : (d.setByte a b).sent = d.sent := rfl
@[simp] theorem Dev.setByte_halfW (d : Dev) (a : Nat) (b : Byte) : (d.setByte a b).halfW = d.halfW := rfl
@[simp] theorem Dev.setByte_halfR (d : Dev) (a : Nat) (b : Byte) : (d.setByte a b).halfR = d.halfR := rfl
@[simp] theorem Dev.setByte_sel (d : Dev) (a : Nat) (b : Byte) : (d.setByte a b).sel = d.sel := rfl
@[simp] theorem Dev.setByte_groups (d : Dev) (a : Nat) (b : Byte) : (d.setByte a b).groups = d.groups := rfl
@[simp] theorem Dev.setByte_gc (d : Dev) (a : Nat) (b : Byte) : (d.setByte a b).gc = d.gc := rfl
@[simp] theorem Dev.setByte_snap (d : Dev) (a : Nat) (b : Byte) : (d.setByte a b).snap = d.snap := rfl
@[simp] theorem Dev.setByte_time (d : Dev) (a : Nat) (b : Byte) : (d.setByte a b).time = d.time := rfl
@[simp] theorem Dev.setByte_led (d : Dev) (a : Nat) (b : Byte) : (d.setByte a b).led = d.led := rfl
@[simp] theorem Dev.setByte_livePend (d : Dev) (a : Nat) (b : Byte) : (d.setByte a b).livePend = d.livePend := rfl
@[simp] theorem Dev.setByte_events (d : Dev) (a : Nat) (b : Byte) : (d.setByte a b).events = d.events := rfl
@[simp] theorem Dev.setByte_faults (d : Dev) (a : Nat) (b : Byte) : (d.setByte a b).faults = d.faults := rfl
@[simp] theorem Dev.setByte_freeCount (d : Dev) (a : Nat) (b : Byte) : (d.setByte a b).freeCount = d.freeCount := rfl
@[simp] theorem Dev.setByte_ecc (d : Dev) (a : Nat) (b : Byte) : (d.setByte a b).ecc = d.ecc := rfl
@[simp] theorem Dev.setByte_hostQ (d : Dev) (a : Nat) (b : Byte) : (d.setByte a b).hostQ = d.hostQ := rfl
@[simp] theorem Dev.setByte_hostLost (d : Dev) (a : Nat) (b : Byte) : (d.setByte a b).hostLost = d.hostLost := rfl
@[simp] theorem Dev.setByte_phase (d : Dev) (a : Nat) (b : Byte) : (d.setByte a b).phase = d.phase := rfl
@[simp] theorem Dev.setByte_loader (d : Dev) (a : Nat) (b : Byte) : (d.setByte a b).loader = d.loader := rfl
@[simp] theorem Dev.setByte_flash (d : Dev) (a : Nat) (b : Byte) : (d.setByte a b).flash = d.flash := rfl
@[simp] theorem Dev.setByte_samples (d : Dev) (a : Nat) (b : Byte) : (d.setByte a b).samples = d.samples := rfl
@[simp] theorem Dev.setByte_loss (d : Dev) (a : Nat) (b : Byte) : (d.setByte a b).loss = d.loss := rfl
@[simp] theorem Dev.setByte_trued (d : Dev) (a : Nat) (b : Byte) : (d.setByte a b).trued = d.trued := rfl
@[simp] theorem Dev.setByte_adcs (d : Dev) (a : Nat) (b : Byte) : (d.setByte a b).adcs = d.adcs := rfl
@[simp] theorem Dev.setByte_adcHalves (d : Dev) (a : Nat) (b : Byte) : (d.setByte a b).adcHalves = d.adcHalves := rfl
@[simp] theorem Dev.setByte_comps (d : Dev) (a : Nat) (b : Byte) : (d.setByte a b).comps = d.comps := rfl
@[simp] theorem Dev.setByte_compBlks (d : Dev) (a : Nat) (b : Byte) : (d.setByte a b).compBlks = d.compBlks := rfl
@[simp] theorem Dev.setByte_slots (d : Dev) (a : Nat) (b : Byte) : (d.setByte a b).slots = d.slots := rfl
@[simp] theorem Dev.setByte_compGroups (d : Dev) (a : Nat) (b : Byte) : (d.setByte a b).compGroups = d.compGroups := rfl
@[simp] theorem Dev.setByte_sliceDet (d : Dev) (a : Nat) (b : Byte) : (d.setByte a b).sliceDet = d.sliceDet := rfl
@[simp] theorem Dev.setByte_sliceRet (d : Dev) (a : Nat) (b : Byte) : (d.setByte a b).sliceRet = d.sliceRet := rfl
@[simp] theorem Dev.setByte_spareTestT (d : Dev) (a : Nat) (b : Byte) : (d.setByte a b).spareTestT = d.spareTestT := rfl
@[simp] theorem Dev.setByte_traces (d : Dev) (a : Nat) (b : Byte) : (d.setByte a b).traces = d.traces := rfl
@[simp] theorem Dev.setByte_tims (d : Dev) (a : Nat) (b : Byte) : (d.setByte a b).tims = d.tims := rfl
@[simp] theorem Dev.setByte_outs (d : Dev) (a : Nat) (b : Byte) : (d.setByte a b).outs = d.outs := rfl
@[simp] theorem Dev.setByte_updQ (d : Dev) (a : Nat) (b : Byte) : (d.setByte a b).updQ = d.updQ := rfl
@[simp] theorem Dev.setByte_wits (d : Dev) (a : Nat) (b : Byte) : (d.setByte a b).wits = d.wits := rfl
@[simp] theorem Dev.setByte_lineTrue (d : Dev) (a : Nat) (b : Byte) : (d.setByte a b).lineTrue = d.lineTrue := rfl
@[simp] theorem Dev.setByte_lineSwap (d : Dev) (a : Nat) (b : Byte) : (d.setByte a b).lineSwap = d.lineSwap := rfl
@[simp] theorem Dev.setByte_lineFailed (d : Dev) (a : Nat) (b : Byte) : (d.setByte a b).lineFailed = d.lineFailed := rfl
@[simp] theorem Dev.setByte_adcTrig (d : Dev) (a : Nat) (b : Byte) : (d.setByte a b).adcTrig = d.adcTrig := rfl
@[simp] theorem Dev.setByte_planT0 (d : Dev) (a : Nat) (b : Byte) : (d.setByte a b).planT0 = d.planT0 := rfl
@[simp] theorem Dev.setByte_hardSafe (d : Dev) (a : Nat) (b : Byte) : (d.setByte a b).hardSafe = d.hardSafe := rfl
@[simp] theorem Dev.setByte_safeRel (d : Dev) (a : Nat) (b : Byte) : (d.setByte a b).safeRel = d.safeRel := rfl
@[simp] theorem Dev.setByte_phs (d : Dev) (a : Nat) (b : Byte) : (d.setByte a b).phs = d.phs := rfl
@[simp] theorem Dev.setByte_rails (d : Dev) (a : Nat) (b : Byte) : (d.setByte a b).rails = d.rails := rfl
@[simp] theorem Dev.setByte_dets (d : Dev) (a : Nat) (b : Byte) : (d.setByte a b).dets = d.dets := rfl
@[simp] theorem Dev.setByte_xings (d : Dev) (a : Nat) (b : Byte) : (d.setByte a b).xings = d.xings := rfl
@[simp] theorem Dev.setByte_cores (d : Dev) (a : Nat) (b : Byte) : (d.setByte a b).cores = d.cores := rfl
@[simp] theorem Dev.setByte_pairs (d : Dev) (a : Nat) (b : Byte) : (d.setByte a b).pairs = d.pairs := rfl
@[simp] theorem Dev.setByte_thrs (d : Dev) (a : Nat) (b : Byte) : (d.setByte a b).thrs = d.thrs := rfl
@[simp] theorem Dev.setByte_chans (d : Dev) (a : Nat) (b : Byte) : (d.setByte a b).chans = d.chans := rfl
@[simp] theorem Dev.setByte_rings (d : Dev) (a : Nat) (b : Byte) : (d.setByte a b).rings = d.rings := rfl
@[simp] theorem Dev.setByte_pins (d : Dev) (a : Nat) (b : Byte) : (d.setByte a b).pins = d.pins := rfl
@[simp] theorem Dev.setByte_engs (d : Dev) (a : Nat) (b : Byte) : (d.setByte a b).engs = d.engs := rfl
@[simp] theorem Dev.setByte_flagHist (d : Dev) (a : Nat) (b : Byte) : (d.setByte a b).flagHist = d.flagHist := rfl
@[simp] theorem Dev.setByte_errLog (d : Dev) (a : Nat) (b : Byte) : (d.setByte a b).errLog = d.errLog := rfl
@[simp] theorem Dev.setByte_ceArmed (d : Dev) (a : Nat) (b : Byte) : (d.setByte a b).ceArmed = d.ceArmed := rfl
@[simp] theorem Dev.setByte_scrubPos (d : Dev) (a : Nat) (b : Byte) : (d.setByte a b).scrubPos = d.scrubPos := rfl
@[simp] theorem Dev.setByte_lapStart (d : Dev) (a : Nat) (b : Byte) : (d.setByte a b).lapStart = d.lapStart := rfl
@[simp] theorem Dev.setByte_pass (d : Dev) (a : Nat) (b : Byte) : (d.setByte a b).pass = d.pass := rfl
@[simp] theorem Dev.setByte_retiring (d : Dev) (a : Nat) (b : Byte) : (d.setByte a b).retiring = d.retiring := rfl
@[simp] theorem Dev.setByte_domUp (d : Dev) (a : Nat) (b : Byte) : (d.setByte a b).domUp = d.domUp := rfl
@[simp] theorem Dev.setByte_dmas (d : Dev) (a : Nat) (b : Byte) : (d.setByte a b).dmas = d.dmas := rfl
@[simp] theorem Dev.setByte_tie (d : Dev) (a : Nat) (b : Byte) : (d.setByte a b).tie = d.tie := rfl
@[simp] theorem Dev.setByte_ringIrqs (d : Dev) (a : Nat) (b : Byte) : (d.setByte a b).ringIrqs = d.ringIrqs := rfl
@[simp] theorem Dev.setByte_telSched (d : Dev) (a : Nat) (b : Byte) : (d.setByte a b).telSched = d.telSched := rfl
@[simp] theorem Dev.setByte_msix (d : Dev) (a : Nat) (b : Byte) : (d.setByte a b).msix = d.msix := rfl
@[simp] theorem Dev.setByte_tapIr (d : Dev) (a : Nat) (b : Byte) : (d.setByte a b).tapIr = d.tapIr := rfl
@[simp] theorem Dev.setByte_tapBsr (d : Dev) (a : Nat) (b : Byte) : (d.setByte a b).tapBsr = d.tapBsr := rfl
@[simp] theorem Dev.setByte_dbgCore (d : Dev) (a : Nat) (b : Byte) : (d.setByte a b).dbgCore = d.dbgCore := rfl
@[simp] theorem Dev.setByte_fm (d : Dev) (a : Nat) (b : Byte) : (d.setByte a b).fm = d.fm := rfl
@[simp] theorem Dev.setByte_sup (d : Dev) (a : Nat) (b : Byte) : (d.setByte a b).sup = d.sup := rfl
@[simp] theorem Dev.setByte_cons (d : Dev) (a : Nat) (b : Byte) : (d.setByte a b).cons = d.cons := rfl

end Sys2Proof.Machine
end

