-- ==== Sys2Proof/Laws/Tab.lean ====
section
/-!
SUPPORT. Laws/Tab.lean: reading a sparse table after it is written, and the canonical form kept by every operation on it.
-/
namespace Sys2Proof.Machine

@[simp] theorem Tab.get_nil {α : Type} (x : α) (k : Nat) : Tab.get x k [] = x := rfl

theorem Tab.get_del_self {α : Type} (x : α) (k : Nat) (t : Tab α) : Tab.get x k (Tab.del k t) = x := by
  induction t with
  | nil => rfl
  | cons p t ih =>
    obtain ⟨j, w⟩ := p
    by_cases h : j = k <;> simp [Tab.del, Tab.get, h, ih]

theorem Tab.get_del_ne {α : Type} (x : α) {j k : Nat} (h : j ≠ k) (t : Tab α) : Tab.get x j (Tab.del k t) = Tab.get x j t := by
  induction t with
  | nil => rfl
  | cons p t ih =>
    obtain ⟨i, w⟩ := p
    by_cases h1 : i = k
    · subst h1; simp [Tab.del, Tab.get, ih, Ne.symm h]
    · by_cases h2 : i = j
      · subst h2; simp [Tab.del, Tab.get, h1]
      · simp [Tab.del, Tab.get, h1, h2, ih]

theorem Tab.get_ins_self {α : Type} (x : α) (k : Nat) (v : α) (t : Tab α) : Tab.get x k (Tab.ins k v (Tab.del k t)) = v := by
  induction t with
  | nil => simp [Tab.del, Tab.ins, Tab.get]
  | cons p t ih =>
    obtain ⟨i, w⟩ := p
    by_cases h1 : i = k
    · simpa [Tab.del, h1] using ih
    · by_cases h2 : k < i <;> simp [Tab.del, Tab.ins, Tab.get, h1, h2, ih]

theorem Tab.get_ins_ne {α : Type} (x : α) {j k : Nat} (h : j ≠ k) (v : α) (t : Tab α) :
    Tab.get x j (Tab.ins k v t) = Tab.get x j t := by
  induction t with
  | nil => simp [Tab.ins, Tab.get, Ne.symm h]
  | cons p t ih =>
    obtain ⟨i, w⟩ := p
    by_cases h2 : k < i
    · by_cases h3 : k = j
      · exact absurd h3.symm h
      · simp [Tab.ins, Tab.get, h2, h3]
    · simp [Tab.ins, Tab.get, h2, ih]

/-- The key written reads as the value written. -/
@[simp] theorem Tab.get_set_self {α : Type} [DecidableEq α] (x : α) (k : Nat) (v : α) (t : Tab α) :
    Tab.get x k (Tab.set x k v t) = v := by
  unfold Tab.set
  split
  · rename_i h; rw [Tab.get_del_self, h]
  · exact Tab.get_ins_self x k v t

/-- Every other key reads as before. -/
theorem Tab.get_set_ne {α : Type} [DecidableEq α] (x y : α) {j k : Nat} (h : j ≠ k) (v : α) (t : Tab α) :
    Tab.get x j (Tab.set y k v t) = Tab.get x j t := by
  unfold Tab.set
  split
  · exact Tab.get_del_ne x h t
  · rw [Tab.get_ins_ne x h, Tab.get_del_ne x h]

theorem Tab.get_set {α : Type} [DecidableEq α] (x : α) (j k : Nat) (v : α) (t : Tab α) :
    Tab.get x j (Tab.set x k v t) = if j = k then v else Tab.get x j t := by
  by_cases h : j = k
  · subst h; simp
  · simp [h, Tab.get_set_ne x x h]

theorem Tab.find_del_self {α : Type} (k : Nat) (t : Tab α) : Tab.find k (Tab.del k t) = none := by
  induction t with
  | nil => rfl
  | cons p t ih =>
    obtain ⟨j, w⟩ := p
    by_cases h : j = k <;> simp [Tab.del, Tab.find, h, ih]

theorem Tab.find_put_self {α : Type} (k : Nat) (v : α) (t : Tab α) : Tab.find k (Tab.put k v t) = some v := by
  unfold Tab.put
  induction t with
  | nil => simp [Tab.del, Tab.ins, Tab.find]
  | cons p t ih =>
    obtain ⟨i, w⟩ := p
    by_cases h1 : i = k
    · simpa [Tab.del, h1] using ih
    · by_cases h2 : k < i <;> simp [Tab.del, Tab.ins, Tab.find, h1, h2, ih]

/-! ### The canonical form -/

theorem Tab.sorted_tail {α : Type} {p : Nat × α} {t : Tab α} (h : Tab.sorted (p :: t) = true) : Tab.sorted t = true := by
  cases t with
  | nil => rfl
  | cons q t => simp [Tab.sorted] at h; exact h.2

/-- In a sorted table every key after the first is above it. -/
theorem Tab.sorted_lt {α : Type} {p : Nat × α} {t : Tab α} (h : Tab.sorted (p :: t) = true) : ∀ q ∈ t, p.1 < q.1 := by
  induction t generalizing p with
  | nil => simp
  | cons r t ih =>
    simp [Tab.sorted] at h
    intro q hq
    rcases List.mem_cons.1 hq with rfl | hq
    · exact h.1
    · exact lt_trans h.1 (ih h.2 q hq)

theorem Tab.sorted_cons {α : Type} {p : Nat × α} {t : Tab α} (h : ∀ q ∈ t, p.1 < q.1) (ht : Tab.sorted t = true) :
    Tab.sorted (p :: t) = true := by
  cases t with
  | nil => rfl
  | cons q t => simp [Tab.sorted, ht]; exact h q (by simp)

theorem Tab.mem_del {α : Type} {k : Nat} {q : Nat × α} {t : Tab α} (h : q ∈ Tab.del k t) : q ∈ t ∧ q.1 ≠ k := by
  induction t with
  | nil => simp [Tab.del] at h
  | cons p t ih =>
    obtain ⟨i, w⟩ := p
    by_cases h1 : i = k
    · simp [Tab.del, h1] at h
      exact ⟨List.mem_cons_of_mem _ (ih h).1, (ih h).2⟩
    · simp [Tab.del, h1] at h
      rcases h with rfl | h
      · exact ⟨by simp, h1⟩
      · exact ⟨List.mem_cons_of_mem _ (ih h).1, (ih h).2⟩

theorem Tab.sorted_del {α : Type} (k : Nat) {t : Tab α} (h : Tab.sorted t = true) : Tab.sorted (Tab.del k t) = true := by
  induction t with
  | nil => rfl
  | cons p t ih =>
    obtain ⟨i, w⟩ := p
    have ht := ih (Tab.sorted_tail h)
    by_cases h1 : i = k
    · simpa [Tab.del, h1] using ht
    · simp only [Tab.del, h1, if_false]
      exact Tab.sorted_cons (fun q hq => Tab.sorted_lt h q (Tab.mem_del hq).1) ht

theorem Tab.mem_ins {α : Type} {k : Nat} {v : α} {q : Nat × α} {t : Tab α} (h : q ∈ Tab.ins k v t) : q = (k, v) ∨ q ∈ t := by
  induction t with
  | nil => simpa [Tab.ins] using h
  | cons p t ih =>
    obtain ⟨i, w⟩ := p
    by_cases h1 : k < i
    · simp [Tab.ins, h1] at h
      rcases h with h | h | h
      · exact .inl h
      · exact .inr (by simp [h])
      · exact .inr (by simp [h])
    · simp [Tab.ins, h1] at h
      rcases h with h | h
      · exact .inr (by simp [h])
      · rcases ih h with h | h
        · exact .inl h
        · exact .inr (by simp [h])

theorem Tab.sorted_ins {α : Type} (k : Nat) (v : α) {t : Tab α} (h : Tab.sorted t = true) (hk : ∀ q ∈ t, q.1 ≠ k) :
    Tab.sorted (Tab.ins k v t) = true := by
  induction t with
  | nil => rfl
  | cons p t ih =>
    obtain ⟨i, w⟩ := p
    by_cases h1 : k < i
    · simp only [Tab.ins, h1, if_true]
      refine Tab.sorted_cons (fun q hq => ?_) h
      rcases List.mem_cons.1 hq with rfl | hq
      · exact h1
      · exact lt_trans h1 (Tab.sorted_lt h q hq)
    · simp only [Tab.ins, h1, if_false]
      have hi : i < k := by
        have := hk (i, w) (by simp)
        simp at this
        omega
      refine Tab.sorted_cons (fun q hq => ?_) (ih (Tab.sorted_tail h) fun q hq => hk q (by simp [hq]))
      rcases Tab.mem_ins hq with rfl | hq
      · exact hi
      · exact Tab.sorted_lt h q hq

/-- A write keeps the canonical form. -/
theorem Tab.wf_set {α : Type} [DecidableEq α] (x : α) (k : Nat) (v : α) {t : Tab α} (h : Tab.wf x t = true) :
    Tab.wf x (Tab.set x k v t) = true := by
  simp only [Tab.wf, Bool.and_eq_true, List.all_eq_true, decide_eq_true_eq] at h ⊢
  have hd : Tab.sorted (Tab.del k t) = true := Tab.sorted_del k h.1
  unfold Tab.set
  split
  · exact ⟨hd, fun q hq => h.2 q (Tab.mem_del hq).1⟩
  · rename_i hv
    refine ⟨Tab.sorted_ins k v hd fun q hq => (Tab.mem_del hq).2, fun q hq => ?_⟩
    rcases Tab.mem_ins hq with rfl | hq
    · exact hv
    · exact h.2 q (Tab.mem_del hq).1

theorem Tab.sorted_filter {α : Type} (p : Nat × α → Bool) {t : Tab α} (h : Tab.sorted t = true) :
    Tab.sorted (t.filter p) = true := by
  induction t with
  | nil => rfl
  | cons q t ih =>
    have ht := ih (Tab.sorted_tail h)
    by_cases hp : p q = true
    · rw [List.filter_cons_of_pos hp]
      exact Tab.sorted_cons (fun r hr => Tab.sorted_lt h r (List.mem_of_mem_filter hr)) ht
    · rw [List.filter_cons_of_neg hp]
      exact ht

/-- Entries taken out keep the canonical form. -/
theorem Tab.wf_filter {α : Type} [DecidableEq α] (x : α) (p : Nat × α → Bool) {t : Tab α} (h : Tab.wf x t = true) :
    Tab.wf x (t.filter p) = true := by
  simp only [Tab.wf, Bool.and_eq_true, List.all_eq_true, decide_eq_true_eq] at h ⊢
  exact ⟨Tab.sorted_filter p h.1, fun q hq => h.2 q (List.mem_of_mem_filter hq)⟩

end Sys2Proof.Machine
end

