-- ==== Sys2Proof/Laws/Ops.lean ====
section
/-!
SUPPORT. Laws/Ops.lean: what the shared operations of Machine/Ops.lean do: reading registers, fields and bytes after a write, and all that
the end of a command (`settle`) can change.
-/
namespace Sys2Proof.Machine

/-! ### Register words -/

@[simp] theorem Dev.reg_setReg_self (d : Dev) (a : Nat) (v : Word) : (d.setReg a v).reg a = v := by
  simp [Dev.reg, Dev.setReg]

theorem Dev.reg_setReg_ne (d : Dev) {a b : Nat} (h : b ≠ a) (v : Word) : (d.setReg a v).reg b = d.reg b := by
  simp [Dev.reg, Dev.setReg, Tab.get_set_ne _ _ h]

theorem Dev.reg_setReg (d : Dev) (a b : Nat) (v : Word) : (d.setReg a v).reg b = if b = a then v else d.reg b := by
  split
  · rename_i h; subst h; simp
  · rename_i h; exact Dev.reg_setReg_ne d h v

theorem Dev.reg_setNum (d : Dev) (a b n : Nat) : (d.setNum a n).reg b = if b = a then BitVec.ofNat 32 n else d.reg b :=
  Dev.reg_setReg d a b _

theorem Dev.reg_setFld_ne (d : Dev) {f : Fld} {b : Nat} (h : b ≠ f.addr) (n : Nat) : (d.setFld f n).reg b = d.reg b :=
  Dev.reg_setReg_ne d h _

theorem Dev.num_setNum (d : Dev) (a n : Nat) (h : n < 2 ^ 32) : (d.setNum a n).num a = n := by
  simp only [Dev.num, Dev.reg_setNum, if_true, BitVec.toNat_ofNat, Nat.mod_eq_of_lt h]

/-! ### Bit fields -/

theorem testBit_bitsOf (n hi lo i : Nat) : (bitsOf n hi lo).testBit i = (decide (i < hi + 1 - lo) && n.testBit (lo + i)) := by
  rw [bitsOf, Nat.testBit_mod_two_pow, Nat.testBit_div_two_pow, Nat.add_comm lo i]

theorem bitsOf_lt (n hi lo : Nat) : bitsOf n hi lo < 2 ^ (hi + 1 - lo) := Nat.mod_lt _ (by positivity)

/-- The parts of a number below, within and above a field. -/
theorem putBits_eq (n hi lo v : Nat) (h : lo ≤ hi) :
    putBits n hi lo v = n % 2 ^ lo + 2 ^ lo * (v % 2 ^ (hi + 1 - lo)) + 2 ^ (hi + 1) * (n / 2 ^ (hi + 1)) := by
  have e1 : n = n % 2 ^ lo + 2 ^ lo * (n / 2 ^ lo) := (Nat.mod_add_div n (2 ^ lo)).symm
  have e2 : n / 2 ^ lo = n / 2 ^ lo % 2 ^ (hi + 1 - lo) + 2 ^ (hi + 1 - lo) * (n / 2 ^ lo / 2 ^ (hi + 1 - lo)) :=
    (Nat.mod_add_div _ _).symm
  have e3 : n / 2 ^ lo / 2 ^ (hi + 1 - lo) = n / 2 ^ (hi + 1) := by
    rw [Nat.div_div_eq_div_mul, ← pow_add, show lo + (hi + 1 - lo) = hi + 1 by omega]
  have e4 : 2 ^ lo * 2 ^ (hi + 1 - lo) = 2 ^ (hi + 1) := by
    rw [← pow_add, show lo + (hi + 1 - lo) = hi + 1 by omega]
  unfold putBits bitsOf
  have e5 : n = n % 2 ^ lo + 2 ^ lo * (n / 2 ^ lo % 2 ^ (hi + 1 - lo)) + 2 ^ (hi + 1) * (n / 2 ^ (hi + 1)) := by
    calc n = n % 2 ^ lo + 2 ^ lo * (n / 2 ^ lo) := e1
      _ = n % 2 ^ lo + 2 ^ lo * (n / 2 ^ lo % 2 ^ (hi + 1 - lo) + 2 ^ (hi + 1 - lo) * (n / 2 ^ (hi + 1))) := by
          rw [← e3, ← e2]
      _ = _ := by rw [← e4]; ring
  have e6 : n - n / 2 ^ lo % 2 ^ (hi + 1 - lo) * 2 ^ lo = n % 2 ^ lo + 2 ^ (hi + 1) * (n / 2 ^ (hi + 1)) := by
    rw [Nat.mul_comm (n / 2 ^ lo % 2 ^ (hi + 1 - lo))]; omega
  rw [e6, Nat.mul_comm (v % 2 ^ (hi + 1 - lo))]; omega

theorem testBit_putBits (n hi lo v i : Nat) (h : lo ≤ hi) :
    (putBits n hi lo v).testBit i = if lo ≤ i ∧ i ≤ hi then v.testBit (i - lo) else n.testBit i := by
  have hv : 2 ^ lo * (v % 2 ^ (hi + 1 - lo)) + n % 2 ^ lo < 2 ^ (hi + 1) := by
    have h1 : v % 2 ^ (hi + 1 - lo) + 1 ≤ 2 ^ (hi + 1 - lo) := Nat.mod_lt _ (by positivity)
    have h2 : n % 2 ^ lo < 2 ^ lo := Nat.mod_lt _ (by positivity)
    have h3 : 2 ^ lo * (v % 2 ^ (hi + 1 - lo) + 1) ≤ 2 ^ lo * 2 ^ (hi + 1 - lo) := Nat.mul_le_mul_left _ h1
    rw [← pow_add, show lo + (hi + 1 - lo) = hi + 1 by omega] at h3
    rw [Nat.mul_add] at h3; omega
  rw [putBits_eq n hi lo v h, show n % 2 ^ lo + 2 ^ lo * (v % 2 ^ (hi + 1 - lo)) + 2 ^ (hi + 1) * (n / 2 ^ (hi + 1))
      = 2 ^ (hi + 1) * (n / 2 ^ (hi + 1)) + (2 ^ lo * (v % 2 ^ (hi + 1 - lo)) + n % 2 ^ lo) by omega,
    Nat.testBit_two_pow_mul_add _ hv]
  by_cases h1 : i < hi + 1
  · rw [if_pos h1, Nat.testBit_two_pow_mul_add _ (Nat.mod_lt _ (by positivity))]
    by_cases h2 : i < lo
    · rw [if_pos h2, Nat.testBit_mod_two_pow, if_neg (by omega)]; simp [h2]
    · rw [if_neg h2, Nat.testBit_mod_two_pow, if_pos (by omega)]
      have : i - lo < hi + 1 - lo := by omega
      simp [this]
  · rw [if_neg h1, if_neg (by omega), Nat.testBit_div_two_pow, show i - (hi + 1) + (hi + 1) = i by omega]

/-- A field reads as the value put in it. -/
theorem bitsOf_putBits_self (n hi lo v : Nat) (h : lo ≤ hi) : bitsOf (putBits n hi lo v) hi lo = v % 2 ^ (hi + 1 - lo) := by
  refine Nat.eq_of_testBit_eq fun i => ?_
  rw [testBit_bitsOf, testBit_putBits _ _ _ _ _ h, Nat.testBit_mod_two_pow]
  by_cases h1 : i < hi + 1 - lo
  · rw [if_pos (by omega)]; simp [h1]
  · simp [h1]

/-- A field that shares no bit with the one written reads as before. -/
theorem bitsOf_putBits_ne (n hi lo v hi' lo' : Nat) (h : lo ≤ hi) (hd : hi' < lo ∨ hi < lo') :
    bitsOf (putBits n hi lo v) hi' lo' = bitsOf n hi' lo' := by
  refine Nat.eq_of_testBit_eq fun i => ?_
  rw [testBit_bitsOf, testBit_bitsOf, testBit_putBits _ _ _ _ _ h]
  by_cases h1 : i < hi' + 1 - lo'
  · rw [if_neg (by omega)]
  · simp [h1]

theorem bitsOf_mod (n hi lo w : Nat) (h : hi < w) : bitsOf (n % 2 ^ w) hi lo = bitsOf n hi lo := by
  refine Nat.eq_of_testBit_eq fun i => ?_
  rw [testBit_bitsOf, testBit_bitsOf, Nat.testBit_mod_two_pow]
  by_cases h1 : i < hi + 1 - lo
  · simp [h1, show lo + i < w by omega]
  · simp [h1]

/-! ### Fields -/

theorem Dev.fld_setFld_self (d : Dev) (f : Fld) (n : Nat) (h : f.lo ≤ f.hi) (hw : f.hi < 32) :
    (d.setFld f n).fld f = n % 2 ^ (f.hi + 1 - f.lo) := by
  simp only [Dev.fld, Dev.num, Dev.setFld, Dev.reg_setNum, if_true, BitVec.toNat_ofNat]
  rw [bitsOf_mod _ _ _ _ hw, bitsOf_putBits_self _ _ _ _ h]

/-- A field of another word, or of other bits of the same word, reads as before. -/
theorem Dev.fld_setFld_ne (d : Dev) (f g : Fld) (n : Nat) (h : f.lo ≤ f.hi) (hw : g.hi < 32)
    (hd : g.addr ≠ f.addr ∨ g.hi < f.lo ∨ f.hi < g.lo) : (d.setFld f n).fld g = d.fld g := by
  by_cases ha : g.addr = f.addr
  · simp only [Dev.fld, Dev.num, Dev.setFld, Dev.reg_setNum, ha, if_true, BitVec.toNat_ofNat]
    rw [bitsOf_mod _ _ _ _ hw, bitsOf_putBits_ne _ _ _ _ _ _ h (by tauto)]
  · simp only [Dev.fld, Dev.num, Dev.setFld, Dev.reg_setNum, ha, if_false]

theorem Dev.fld_setReg_ne (d : Dev) {a : Nat} {g : Fld} (h : g.addr ≠ a) (v : Word) : (d.setReg a v).fld g = d.fld g := by
  simp [Dev.fld, Dev.num, Dev.reg_setReg_ne d h]

theorem Dev.fld_setReg (d : Dev) (v : Word) (g : Fld) : (d.setReg g.addr v).fld g = bitsOf v.toNat g.hi g.lo := by
  simp [Dev.fld, Dev.num]

theorem Dev.fld_of_reg {d d' : Dev} {g : Fld} (h : d'.reg g.addr = d.reg g.addr) : d'.fld g = d.fld g := by
  simp [Dev.fld, Dev.num, h]

theorem Dev.fld_of_regs {d d' : Dev} (g : Fld) (h : d'.regs = d.regs) : d'.fld g = d.fld g := by
  simp [Dev.fld, Dev.num, Dev.reg, h]

theorem Dev.reg_of_regs {d d' : Dev} (a : Nat) (h : d'.regs = d.regs) : d'.reg a = d.reg a := by simp [Dev.reg, h]

/-! ### Bytes -/

theorem Dev.byte_setByte (d : Dev) (a b : Nat) (v : Byte) : (d.setByte a v).byte b = if b = a then v else d.byte b := by
  simp [Dev.byte, Dev.setByte, Tab.get_set]

/-- A byte outside the bytes stored reads as before. -/
theorem Dev.byte_setBytes_ne (d : Dev) (a b : Nat) (bs : List Byte) (h : b < a ∨ a + bs.length ≤ b) :
    (d.setBytes a bs).byte b = d.byte b := by
  induction bs generalizing d a with
  | nil => rfl
  | cons x t ih =>
    simp only [List.length_cons] at h
    rw [Dev.setBytes, ih _ _ (by omega), Dev.byte_setByte, if_neg (by omega)]

/-- The bytes stored read back. -/
theorem Dev.bytes_setBytes (d : Dev) (a : Nat) (bs : List Byte) : (d.setBytes a bs).bytes a bs.length = bs := by
  induction bs generalizing d a with
  | nil => rfl
  | cons x t ih =>
    rw [List.length_cons, Dev.bytes, Dev.setBytes, ih, Dev.byte_setBytes_ne _ _ _ _ (by omega), Dev.byte_setByte, if_pos rfl]

/-- A byte stored keeps memory in its canonical form. -/
theorem Dev.mem_wf_setByte (d : Dev) (a : Nat) (b : Byte) (h : Tab.wf 0 d.mem = true) : Tab.wf 0 (d.setByte a b).mem = true :=
  Tab.wf_set 0 a b h

theorem Dev.mem_wf_setBytes (d : Dev) (a : Nat) (bs : List Byte) (h : Tab.wf 0 d.mem = true) :
    Tab.wf 0 (d.setBytes a bs).mem = true := by
  induction bs generalizing d a with
  | nil => exact h
  | cons x t ih => exact ih _ _ (Dev.mem_wf_setByte d a x h)

theorem Dev.mem_wf_zeroRange (d : Dev) (a n : Nat) (h : Tab.wf 0 d.mem = true) : Tab.wf 0 (d.zeroRange a n).mem = true :=
  Tab.wf_filter 0 _ h

/-! ### The end of a command -/

/-- What entering records may do: it changes Ledger and host register words, records, mirrors and events, and memory only while the
Ledger drains to DRAM. -/
structure Settles (d d' : Dev) : Prop where
  units : d' = { d.rest d' with answer := d.answer, sent := d.sent }
  mem : d.lgDram = false → d'.mem = d.mem
  regs : ∀ k, k / 0x10000 ≠ 0x01 → k / 0x10000 ≠ 0x07 → d'.reg k = d.reg k
  dram : d'.lgDram = d.lgDram

theorem Settles.refl (d : Dev) : Settles d d := ⟨rfl, fun _ => rfl, fun _ _ _ => rfl, rfl⟩

theorem Settles.trans {a b c : Dev} (h : Settles a b) (g : Settles b c) : Settles a c := by
  refine ⟨?_, fun e => (g.mem (h.dram.trans e)).trans (h.mem e), fun k h1 h2 => (g.regs k h1 h2).trans (h.regs k h1 h2), g.dram.trans h.dram⟩
  have e1 := h.units
  have e2 := g.units
  rw [e1] at e2
  exact e2

theorem Settles.setReg (d : Dev) (a : Nat) (v : Word) (ha : a / 0x10000 = 0x01 ∨ a / 0x10000 = 0x07) (hc : a ≠ LEDGER.LG_CTRL) :
    Settles d (d.setReg a v) := by
  refine ⟨rfl, fun _ => rfl, fun k h1 h2 => Dev.reg_setReg_ne d (by rintro rfl; tauto) v, ?_⟩
  simp only [Dev.lgDram]
  rw [Dev.fld_setReg_ne d (Ne.symm hc)]

theorem Settles.foldl {α : Type} (f : Dev → α → Dev) (hf : ∀ d x, Settles d (f d x)) (l : List α) (d : Dev) :
    Settles d (l.foldl f d) := by
  induction l generalizing d with
  | nil => exact Settles.refl d
  | cons x t ih => exact (hf d x).trans (ih _)

theorem Settles.of_eq {d d' : Dev} (e : d' = { d.rest d' with answer := d.answer, sent := d.sent }) (m : d'.mem = d.mem)
    (h : d'.regs = d.regs) : Settles d d' :=
  ⟨e, fun _ => m, fun k _ _ => Dev.reg_of_regs k h, by simp [Dev.lgDram, Dev.fld_of_regs _ h]⟩

theorem Settles.raise (d : Dev) (id : Nat) : Settles d (d.raise id) :=
  Settles.of_eq rfl rfl rfl

theorem Settles.hostLose (d : Dev) (r : HostRec) (hr : r.ring < 8) : Settles d (d.hostLose r) := by
  have h : ∀ e : Dev, Settles e (e.incNum (HOST.RING_STATUS r.ring)) := fun e =>
    Settles.setReg e _ _ (.inr (by simp only [HOST.RING_STATUS]; omega)) (by simp only [HOST.RING_STATUS, LEDGER.LG_CTRL]; omega)
  simp only [Dev.hostLose]
  split
  · refine Settles.trans ?_ (h _)
    exact Settles.of_eq rfl rfl rfl
  · exact h d

theorem Settles.hostPush (d : Dev) (r : HostRec) : Settles d (d.hostPush r) :=
  Settles.of_eq rfl rfl rfl

theorem Settles.hostEnqueue (d : Dev) (r : HostRec) (hr : r.ring < 8) : Settles d (d.hostEnqueue r) := by
  simp only [Dev.hostEnqueue]
  split
  · exact Settles.setReg d _ _ (.inr (by decide)) (by decide)
  split
  · exact Settles.of_eq rfl rfl rfl
  split
  · exact Settles.hostLose d r hr
  split
  · refine (Settles.hostPush d (d.overflowRec r.ring)).trans
      (Settles.trans (b := (d.hostPush (d.overflowRec r.ring)).setNum (HOST.RING_STATUS r.ring) 0) ?_ ?_)
    · exact Settles.setReg _ _ _ (.inr (by simp only [HOST.RING_STATUS]; omega))
        (by simp only [HOST.RING_STATUS, LEDGER.LG_CTRL]; omega)
    · refine Settles.trans (Settles.of_eq (d' := { (d.hostPush (d.overflowRec r.ring)).setNum (HOST.RING_STATUS r.ring) 0 with
        hostLost := Tab.set 0 r.ring 0 (d.hostPush (d.overflowRec r.ring)).hostLost }) rfl rfl rfl) ?_
      split
      · exact Settles.hostLose _ r hr
      · exact Settles.hostPush _ r
  · exact Settles.hostPush d r

theorem Settles.drainOne (d : Dev) (h : d.lgDram = true) : Settles d d.drainOne := by
  simp only [Dev.drainOne]
  split
  · exact Settles.refl d
  · have hb : ∀ (e : Dev) (a : Nat) (bs : List Byte), e.lgDram = true → Settles e (e.setBytes a bs) ∧ (e.setBytes a bs).lgDram = true := by
      intro e a bs
      induction bs generalizing e a with
      | nil => exact fun he => ⟨Settles.refl e, he⟩
      | cons x t ih =>
        intro he
        have h1 : Settles e (e.setByte a x) := ⟨rfl, fun h => by simp [he] at h, fun _ _ _ => rfl, rfl⟩
        have h2 := ih (e.setByte a x) (a + 1) (h1.dram.trans he)
        exact ⟨h1.trans h2.1, h2.2⟩
    refine Settles.trans ?_ ((Settles.setReg _ LEDGER.LG_STATUS _ (.inl (by decide)) (by decide)).trans
      (Settles.setReg _ LEDGER.LG_DRAINED_SEQ _ (.inl (by decide)) (by decide)))
    split
    · exact (hb d _ _ h).1
    · exact Settles.refl d

theorem Settles.mirror (d : Dev) (r : Record) : Settles d (d.mirror r) := by
  have hr : d.fld LEDGER.LG_HOST_MIRROR_RING < 8 := bitsOf_lt _ _ _
  have g : ∀ e : Dev, Settles e (if bitOf (e.fld LEDGER.LG_NOR_MIRROR_KINDS) (r.kind.code - 1) then
      if e.led.norQ.length ≥ 256 then e.incNum LEDGER.LG_NOR_DROPPED
      else { e with led := { e.led with norQ := e.led.norQ ++ [r] } }
      else e) := by
    intro e
    split
    · split
      · exact Settles.setReg _ LEDGER.LG_NOR_DROPPED _ (.inl (by decide)) (by decide)
      · exact Settles.of_eq rfl rfl rfl
    · exact Settles.refl _
  by_cases h : bitOf (d.fld LEDGER.LG_HOST_MIRROR_KINDS) (r.kind.code - 1) = true
  · unfold Dev.mirror
    rw [if_pos h]
    exact (Settles.hostEnqueue d _ hr).trans (g _)
  · unfold Dev.mirror
    rw [if_neg h]
    exact g d

theorem Settles.enter (d : Dev) (r : Record) : Settles d (d.enter r) := by
  simp only [Dev.enter]
  refine Settles.trans (b := if (d.lgDram && decide (d.fld LEDGER.LG_STATUS_OCC ≥ 4096)) = true then d.drainOne else d) ?_ ?_
  · split
    · rename_i h; exact Settles.drainOne d (by simp at h; exact h.1)
    · exact Settles.refl d
  · generalize (if (d.lgDram && decide (d.fld LEDGER.LG_STATUS_OCC ≥ 4096)) = true then d.drainOne else d) = e
    refine Settles.trans ?_ (Settles.mirror _ _)
    refine Settles.trans (b := { e with led := { e.led with chip := { r with seq := e.reg LEDGER.LG_NEXT_SEQ } :: e.led.chip } })
      (Settles.of_eq rfl rfl rfl) ?_
    exact (Settles.setReg _ LEDGER.LG_NEXT_SEQ _ (.inl (by decide)) (by decide)).trans
      (Settles.setReg _ LEDGER.LG_STATUS _ (.inl (by decide)) (by decide))

/-- A run entered and put in its place. -/
theorem Settles.enterRun (d : Dev) (u : List Record) : Settles d (d.enterRun u) := by
  simp only [Dev.enterRun]
  refine (Settles.foldl Dev.enter Settles.enter u d).trans ?_
  split <;> exact Settles.of_eq rfl rfl rfl

/-- All that the end of a command can change. -/
theorem settles (d : Dev) : Settles d (settle d) := by
  have hp : ∀ (e : Dev) (l : List (List Record)), Settles e (e.persist l) := by
    intro e l
    simp only [Dev.persist]
    split
    · exact Settles.refl _
    · exact Settles.of_eq rfl rfl rfl
  have h1 : Settles d d.enterAll :=
    Settles.trans (b := { d with led := { d.led with fresh := [] } }) (Settles.of_eq rfl rfl rfl)
      ((Settles.foldl Dev.enterRun Settles.enterRun _ _).trans (hp _ _))
  have g : ∀ e : Dev, Settles e (if (e.reg LEDGER.LG_NEXT_SEQ - e.reg LEDGER.LG_READ_SEQ).toNat > e.ringSize
      ∧ e.fld LEDGER.LG_STATUS_OVERRUN = 0 then (e.setFld LEDGER.LG_STATUS_OVERRUN 1).raise 1209 else e) := by
    intro e
    split
    · exact (Settles.setReg _ LEDGER.LG_STATUS _ (.inl (by decide)) (by decide)).trans
        (Settles.raise _ _)
    · exact Settles.refl _
  have c : ∀ e : Dev, Settles e { e with led := { e.led with chip := e.led.chip.take 4096 } } :=
    fun e => Settles.of_eq rfl rfl rfl
  exact (h1.trans (c _)).trans (g _)

/-- A register word outside the Ledger and the host rings is what the command left. -/
theorem settle_reg (d : Dev) (k : Nat) (h1 : k / 0x10000 ≠ 0x01) (h2 : k / 0x10000 ≠ 0x07) : (settle d).reg k = d.reg k :=
  (settles d).regs k h1 h2

/-- A field that no record touches is what the command left. -/
theorem settle_answer (d : Dev) : (settle d).answer = d.answer := by have h := congrArg Dev.answer (settles d).units; exact h
theorem settle_sent (d : Dev) : (settle d).sent = d.sent := by have h := congrArg Dev.sent (settles d).units; exact h
theorem settle_time (d : Dev) : (settle d).time = d.time := by have h := congrArg Dev.time (settles d).units; exact h
theorem settle_groups (d : Dev) : (settle d).groups = d.groups := by have h := congrArg Dev.groups (settles d).units; exact h
theorem settle_faults (d : Dev) : (settle d).faults = d.faults := by have h := congrArg Dev.faults (settles d).units; exact h
theorem settle_cores (d : Dev) : (settle d).cores = d.cores := by have h := congrArg Dev.cores (settles d).units; exact h

/-- What a command leaves of the units, its end leaves. -/
theorem settle_keepsUnits {d e : Dev} (h : d.keepsUnits e) (hd : e.lgDram = d.lgDram) : d.keepsUnits (settle e) := by
  have s := settles e
  have a := settle_answer e
  have b := settle_sent e
  refine ⟨?_, fun hl => (s.mem (hd.trans hl)).trans (h.2 hl)⟩
  have hu := s.units
  generalize settle e = t at hu a b
  rw [← a, ← b] at hu
  have h2 := congrArg (fun x : Dev => ({ x.rest t with answer := t.answer, sent := t.sent } : Dev)) h.1
  exact hu.trans h2

theorem settle_keepsRegs {d e : Dev} {l : List Nat} (h : d.keepsRegs e l) : d.keepsRegs (settle e) l :=
  fun k hk h1 h2 => (settle_reg e k h1 h2).trans (h k hk h1 h2)

end Sys2Proof.Machine
end

