-- ==== Sys2Proof/Laws/Ledger.lean ====
section
/-!
SUPPORT. Laws/Ledger.lean: which records and events the end of a command adds (R54, R57, R396), by the records it made.
-/
namespace Sys2Proof.Machine

/-- The on-chip records and the next sequence number stay; events may be added. -/
structure Mirrors (d d' : Dev) : Prop where
  chip : d'.led.chip = d.led.chip
  next : d'.reg LEDGER.LG_NEXT_SEQ = d.reg LEDGER.LG_NEXT_SEQ
  events : d.events <+: d'.events

theorem Mirrors.refl (d : Dev) : Mirrors d d := ⟨rfl, rfl, List.prefix_refl _⟩
theorem Mirrors.trans {a b c : Dev} (h : Mirrors a b) (g : Mirrors b c) : Mirrors a c :=
  ⟨g.chip.trans h.chip, g.next.trans h.next, h.events.trans g.events⟩

theorem Mirrors.setReg (d : Dev) (a : Nat) (v : Word) (ha : a ≠ LEDGER.LG_NEXT_SEQ) : Mirrors d (d.setReg a v) :=
  ⟨rfl, Dev.reg_setReg_ne d (Ne.symm ha) v, List.prefix_refl _⟩

theorem Mirrors.of_eq {d d' : Dev} (h : d'.led.chip = d.led.chip) (r : d'.regs = d.regs) (e : d.events <+: d'.events) : Mirrors d d' :=
  ⟨h, Dev.reg_of_regs _ r, e⟩

theorem Mirrors.raise (d : Dev) (id : Nat) : Mirrors d (d.raise id) := Mirrors.of_eq rfl rfl (List.prefix_append _ _)

theorem Mirrors.setByte (d : Dev) (a : Nat) (x : Byte) : Mirrors d (d.setByte a x) := Mirrors.of_eq rfl rfl (List.prefix_refl _)

theorem Mirrors.setLost (d : Dev) (l : Tab Time) : Mirrors d { d with hostLost := l } := Mirrors.of_eq rfl rfl (List.prefix_refl _)

theorem Mirrors.setBytes (d : Dev) (a : Nat) (bs : List Byte) : Mirrors d (d.setBytes a bs) := by
  induction bs generalizing d a with
  | nil => exact Mirrors.refl d
  | cons x t ih => exact (Mirrors.setByte d a x).trans (ih _ _)

theorem Mirrors.ringStatus (d : Dev) (n : Nat) (v : Word) : Mirrors d (d.setReg (HOST.RING_STATUS n) v) :=
  Mirrors.setReg d _ v (by simp only [HOST.RING_STATUS, LEDGER.LG_NEXT_SEQ]; omega)

theorem Mirrors.hostLose (d : Dev) (r : HostRec) : Mirrors d (d.hostLose r) := by
  simp only [Dev.hostLose]
  split
  · refine Mirrors.trans ?_ (Mirrors.ringStatus _ r.ring _)
    exact (Mirrors.setLost d _).trans (Mirrors.raise _ _)
  · exact Mirrors.ringStatus d r.ring _

theorem Mirrors.hostEnqueue (d : Dev) (r : HostRec) : Mirrors d (d.hostEnqueue r) := by
  have p : ∀ (e : Dev) (x : HostRec), Mirrors e (e.hostPush x) := fun e x => Mirrors.of_eq rfl rfl (List.prefix_refl _)
  simp only [Dev.hostEnqueue]
  split
  · exact Mirrors.setReg d _ _ (by decide)
  split
  · exact Mirrors.of_eq rfl rfl (List.prefix_refl _)
  split
  · exact Mirrors.hostLose d r
  split
  · refine ((p d (d.overflowRec r.ring)).trans (Mirrors.ringStatus (d.hostPush (d.overflowRec r.ring)) r.ring (BitVec.ofNat 32 0))).trans
      ((Mirrors.setLost ((d.hostPush (d.overflowRec r.ring)).setNum (HOST.RING_STATUS r.ring) 0)
        (Tab.set 0 r.ring 0 (d.hostPush (d.overflowRec r.ring)).hostLost)).trans ?_)
    split
    · exact Mirrors.hostLose _ r
    · exact p _ r
  · exact p d r

theorem Mirrors.drainOne (d : Dev) : Mirrors d d.drainOne := by
  simp only [Dev.drainOne]
  split
  · exact Mirrors.refl d
  · refine Mirrors.trans ?_ ((Mirrors.setReg _ LEDGER.LG_STATUS _ (by decide)).trans (Mirrors.setReg _ LEDGER.LG_DRAINED_SEQ _ (by decide)))
    split
    · exact Mirrors.setBytes d _ _
    · exact Mirrors.refl d

theorem Mirrors.mirror (d : Dev) (r : Record) : Mirrors d (d.mirror r) := by
  have g : ∀ e : Dev, Mirrors e (if bitOf (e.fld LEDGER.LG_NOR_MIRROR_KINDS) (r.kind.code - 1) then
      if e.led.norQ.length ≥ 256 then e.incNum LEDGER.LG_NOR_DROPPED
      else { e with led := { e.led with norQ := e.led.norQ ++ [r] } }
      else e) := by
    intro e
    split
    · split
      · exact Mirrors.setReg _ LEDGER.LG_NOR_DROPPED _ (by decide)
      · exact Mirrors.of_eq rfl rfl (List.prefix_refl _)
    · exact Mirrors.refl _
  by_cases h : bitOf (d.fld LEDGER.LG_HOST_MIRROR_KINDS) (r.kind.code - 1) = true
  · unfold Dev.mirror
    rw [if_pos h]
    exact (Mirrors.hostEnqueue d _).trans (g _)
  · unfold Dev.mirror
    rw [if_neg h]
    exact g d

/-- A record entered: it takes the next sequence number and heads the on-chip records (R54). -/
theorem enter_record (d : Dev) (r : Record) :
    (d.enter r).led.chip = { r with seq := d.reg LEDGER.LG_NEXT_SEQ } :: d.led.chip
      ∧ (d.enter r).reg LEDGER.LG_NEXT_SEQ = d.reg LEDGER.LG_NEXT_SEQ + 1 ∧ d.events <+: (d.enter r).events := by
  have h0 : Mirrors d (if (d.lgDram && decide (d.fld LEDGER.LG_STATUS_OCC ≥ 4096)) = true then d.drainOne else d) := by
    split
    · exact Mirrors.drainOne d
    · exact Mirrors.refl d
  unfold Dev.enter
  dsimp only
  generalize (if (d.lgDram && decide (d.fld LEDGER.LG_STATUS_OCC ≥ 4096)) = true then d.drainOne else d) = e at h0 ⊢
  have h1 := Mirrors.mirror ((({ e with led := { e.led with chip := { r with seq := e.reg LEDGER.LG_NEXT_SEQ } :: e.led.chip } } : Dev).wrapNum
    LEDGER.LG_NEXT_SEQ).setFld LEDGER.LG_STATUS_OCC (satInc 4096 ((({ e with led := { e.led with chip :=
      { r with seq := e.reg LEDGER.LG_NEXT_SEQ } :: e.led.chip } } : Dev).wrapNum LEDGER.LG_NEXT_SEQ).fld LEDGER.LG_STATUS_OCC)))
    { r with seq := e.reg LEDGER.LG_NEXT_SEQ }
  refine ⟨?_, ?_, ?_⟩
  · refine h1.chip.trans ?_
    rw [← h0.next, ← h0.chip]
    rfl
  · refine h1.next.trans ?_
    rw [Dev.reg_setFld_ne _ (by decide), ← h0.next]
    exact Dev.reg_setReg_self _ _ _
  · exact h0.events.trans h1.events

theorem orderRuns_nil : orderRuns [] = [] := rfl

theorem orderRuns_one (r : Record) : orderRuns [r] = [[r]] := by
  simp only [orderRuns, runsOf]
  split <;> simp [insertRun]

/-- A run of one record entered: it takes the next sequence number and its place (R54). -/
theorem enterRun_one (d : Dev) (r : Record) :
    (d.enterRun [r]).led.chip = inPlace 1 ((d.enterRun [r]).fld LEDGER.LG_STATUS_OCC) ({ r with seq := d.reg LEDGER.LG_NEXT_SEQ } :: d.led.chip)
      ∧ (d.enterRun [r]).reg LEDGER.LG_NEXT_SEQ = d.reg LEDGER.LG_NEXT_SEQ + 1 ∧ d.events <+: (d.enterRun [r]).events := by
  have h := enter_record d r
  have hr : (d.enterRun [r]).regs = (d.enter r).regs := by
    simp only [Dev.enterRun, List.foldl_cons, List.foldl_nil]
    exact (apply_ite Dev.regs _ _ _).trans (ite_self _)
  have he : (d.enterRun [r]).events = (d.enter r).events := by
    simp only [Dev.enterRun, List.foldl_cons, List.foldl_nil]
    exact (apply_ite Dev.events _ _ _).trans (ite_self _)
  refine ⟨?_, (Dev.reg_of_regs _ hr).trans h.2.1, he ▸ h.2.2⟩
  rw [Dev.fld_of_regs _ hr, ← h.1]
  rfl

theorem Mirrors.persist (d : Dev) (l : List (List Record)) : Mirrors d (d.persist l) := by
  simp only [Dev.persist]
  split
  · exact Mirrors.refl _
  · exact Mirrors.of_eq rfl rfl (List.prefix_refl _)

/-- The occupancy that the end of a command shows is that of its records. -/
theorem settle_occ (d : Dev) : (settle d).fld LEDGER.LG_STATUS_OCC = d.enterAll.fld LEDGER.LG_STATUS_OCC := by
  have g : ∀ e : Dev, (if (e.reg LEDGER.LG_NEXT_SEQ - e.reg LEDGER.LG_READ_SEQ).toNat > e.ringSize
      ∧ e.fld LEDGER.LG_STATUS_OVERRUN = 0 then (e.setFld LEDGER.LG_STATUS_OVERRUN 1).raise 1209 else e).fld LEDGER.LG_STATUS_OCC
      = e.fld LEDGER.LG_STATUS_OCC := by
    intro e
    split
    · rw [Dev.fld_of_regs _ (Dev.raise_regs _ _), Dev.fld_setFld_ne e LEDGER.LG_STATUS_OVERRUN LEDGER.LG_STATUS_OCC 1 (by decide) (by decide) (by decide)]
    · rfl
  exact g { d.enterAll with led := { d.enterAll.led with chip := d.enterAll.led.chip.take 4096 } }

/-- The end of a command beside entering its records. -/
theorem settle_tail (d : Dev) : (settle d).led.chip = d.enterAll.led.chip.take 4096
    ∧ (settle d).reg LEDGER.LG_NEXT_SEQ = d.enterAll.reg LEDGER.LG_NEXT_SEQ ∧ d.enterAll.events <+: (settle d).events := by
  have g : ∀ e : Dev, Mirrors e (if (e.reg LEDGER.LG_NEXT_SEQ - e.reg LEDGER.LG_READ_SEQ).toNat > e.ringSize
      ∧ e.fld LEDGER.LG_STATUS_OVERRUN = 0 then (e.setFld LEDGER.LG_STATUS_OVERRUN 1).raise 1209 else e) := by
    intro e
    split
    · exact (Mirrors.setReg _ LEDGER.LG_STATUS _ (by decide)).trans (Mirrors.raise _ _)
    · exact Mirrors.refl _
  have h := g { d.enterAll with led := { d.enterAll.led with chip := d.enterAll.led.chip.take 4096 } }
  exact ⟨h.chip, h.next, h.events⟩

/-- A command that made no record enters none. -/
theorem settle_none {d : Dev} (h : d.led.fresh = []) : (settle d).led.chip = d.led.chip.take 4096
    ∧ (settle d).reg LEDGER.LG_NEXT_SEQ = d.reg LEDGER.LG_NEXT_SEQ ∧ d.events <+: (settle d).events := by
  have t := settle_tail d
  have p := Mirrors.persist { d with led := { d.led with fresh := [] } } []
  simp only [Dev.enterAll, h, orderRuns_nil, List.foldl_nil, List.map_nil] at t
  exact ⟨by rw [t.1, p.chip], t.2.1.trans p.next, p.events.trans t.2.2⟩

/-- A command that made one record enters it. -/
theorem settle_one {d : Dev} {r : Record} (h : d.led.fresh = [r]) :
    (settle d).led.chip = d.withRun (settle d) [{ r with seq := d.reg LEDGER.LG_NEXT_SEQ }]
      ∧ (settle d).reg LEDGER.LG_NEXT_SEQ = d.reg LEDGER.LG_NEXT_SEQ + 1 ∧ d.events <+: (settle d).events := by
  have t := settle_tail d
  have o := settle_occ d
  have e := enterRun_one { d with led := { d.led with fresh := [] } } r
  have p := Mirrors.persist (({ d with led := { d.led with fresh := [] } } : Dev).enterRun [r])
    ([[r]].map (({ d with led := { d.led with fresh := [] } } : Dev).enterRun [r]).onChipRun)
  have po : ((({ d with led := { d.led with fresh := [] } } : Dev).enterRun [r]).persist
      ([[r]].map (({ d with led := { d.led with fresh := [] } } : Dev).enterRun [r]).onChipRun)).fld LEDGER.LG_STATUS_OCC
      = (({ d with led := { d.led with fresh := [] } } : Dev).enterRun [r]).fld LEDGER.LG_STATUS_OCC := by
    simp only [Dev.persist]
    split
    · rfl
    · exact Dev.fld_of_regs _ rfl
  simp only [Dev.enterAll, h, orderRuns_one, List.foldl_cons, List.foldl_nil] at t o
  refine ⟨?_, ?_, ?_⟩
  · rw [t.1, p.chip, e.1, Dev.withRun, o, po]; rfl
  · exact t.2.1.trans (p.next.trans e.2.1)
  · exact e.2.2.trans (p.events.trans t.2.2)

end Sys2Proof.Machine
end

