-- ==== Sys2Proof/WellFormed.lean ====
section
/-!
DEFINITION. WellFormed.lean: the commands whose operands lie in the ranges the spec gives them. What the types of Syntax.lean say already
is not said again.
-/
namespace Sys2Proof

/-- A word that a core issues: 32 bits, or a 16-bit instruction with nothing above it (R251). -/
def coreWord (w : Word) : Bool := Machine.isLong w || decide (w.toNat < 0x10000)

/-- The size of a BAR pair (R400). -/
def barSize (bar : Fin 3) : Nat := if bar = 1 then 0x800000 else 0x1000000

/-- A TAP operation loads no more cells than there are pins (R420; log entry 46). -/
def tapWf : TapOp → Bool
  | .bypass => true
  | .idcode => true
  | .samplePreload cells => decide (cells.length ≤ 160)
  | .extest cells => decide (cells.length ≤ 160)
  | .dbgport => true

/-- A command whose operands lie in their ranges. -/
def Instr.wf : Instr → Bool
  | .timeBaseQualified => true
  | .backupFallbackTimeout => true
  | .mpNowRead _ => true
  | .backupTrained => true
  | .refEdge _ => true
  | .refMissTimeout => true
  | .refQualified => true
  | .mpCtrlReturn _ _ => true
  | .autoReturnWrite _ _ => true
  | .mpSetWrite _ _ => true
  | .mpSlewWrite _ _ => true
  | .slewIntervalWrite _ _ => true
  | .slewAdjustedTick => true
  | .lateClear _ _ => true
  | .paceMeasurement _ _ => true
  | .paceUpHoldoffEnd => true
  | .paceWindowEnd => true
  | .registerWrite _ k _ => decide (k < 0x1000000)
  | .liveFieldApply => true
  | .changeAdmitted => true
  | .ledgerDrain => true
  | .ledgerTargetWrite _ _ => true
  | .ledgerTargetSwitch => true
  | .lgWinSeqWrite _ _ => true
  | .ledgerCountersClear _ _ => true
  | .stagedWrite _ k _ => decide (k < 0x1000000)
  | .grpClaim _ _ _ => true
  | .grpAtWrite _ _ _ => true
  | .grpCommitBoundary _ _ _ => true
  | .grpCommitAt _ _ _ => true
  | .grpCommitNow _ _ _ => true
  | .commitApply b g => decide (b < 64 ∧ g < 256)
  | .grpAbort _ _ _ => true
  | .claimLimitWrite _ _ => true
  | .claimAgeExpiry b g => decide (b < 64 ∧ g < 256)
  | .gcListWrite _ _ _ => true
  | .gcAtWrite _ _ => true
  | .gcGo _ _ => true
  | .gcCancel _ _ => true
  | .gcClear _ _ => true
  | .globalCommitApply => true
  | .snapRequest _ _ => true
  | .snapshotLatch => true
  | .vinRise => true
  | .insertionWaitEnd => true
  | .vinGood _ => true
  | .supplyOff => true
  | .pinReset => true
  | .pinResetRelease _ => true
  | .loaderPollDone => true
  | .loaderPollTimeout => true
  | .loaderDelayEnd => true
  | .flashReadTimeout => true
  | .tieAlignWaitEnd => true
  | .tieStartTimeout => true
  | .flashRead _ _ => true
  | .flashProgram _ _ => true
  | .flashEraseSector _ _ => true
  | .flashCheck _ _ => true
  | .flashOpDone => true
  | .journalAppend => true
  | .journalMarkerProgram => true
  | .journalCheckpoint _ _ => true
  | .calibSave _ _ => true
  | .calibSaveTimer => true
  | .journalEraseDone => true
  | .vinFail vin => decide (vin < 0x10000)
  | .waypointWrite => true
  | .powerLossRestart _ => true
  | .wpRelease _ _ => true
  | .waypointEraseDone => true
  | .adcSampleInstant _ _ => true
  | .adcTrigger _ _ => true
  | .adcTimedOccurrence _ _ => true
  | .sampleDelivery _ => true
  | .adcHalfReady _ => true
  | .streamAreaRead _ _ off n => decide (0 < n ∧ off + n ≤ 0x400)
  | .adcRelease _ _ _ => true
  | .adcDropsClear _ _ _ => true
  | .adcTrueStart _ => true
  | .adcTrueDone _ offset gain => decide (offset.natAbs < 0x8000 ∧ gain.natAbs < 0x8000)
  | .compInputCrossing _ _ => true
  | .compFilterExpiry _ => true
  | .compSettleEnd _ _ => true
  | .compDisagree _ => true
  | .compSelftestStart _ => true
  | .compTestCheck _ _ => true
  | .cmpTestSequence _ _ _ => true
  | .cmpTestTieTrip _ _ _ => true
  | .cmpTestTieClear _ _ _ => true
  | .cmpTestSwap _ _ _ => true
  | .compCountClear _ _ _ => true
  | .compBankReady _ => true
  | .slotEvaluation _ _ => true
  | .sliceReady _ => true
  | .pulseRisingEdge _ _ => true
  | .pulseLoss _ => true
  | .coefWrite _ _ _ _ _ _ => true
  | .spJump _ _ _ => true
  | .zeroHist _ _ _ => true
  | .slotCountsClear _ _ _ => true
  | .detourStateCopy _ => true
  | .detourResume => true
  | .spareTest _ => true
  | .supReturn _ _ => true
  | .sliceReturnAt _ => true
  | .traceRecord _ => true
  | .trcArm _ _ _ => true
  | .trcForce _ _ _ => true
  | .trcStop _ _ _ => true
  | .traceStreamWrite _ => true
  | .timerBoundary _ => true
  | .periodEvent _ => true
  | .frameStart _ => true
  | .driveEdge _ => true
  | .deadTimeEnd _ => true
  | .updateArrival _ => true
  | .pwmBankReady _ => true
  | .timAdj _ _ _ => true
  | .timForceMain _ _ _ => true
  | .timForceComp _ _ _ => true
  | .timForceOff _ _ _ => true
  | .timForceHiz _ _ _ => true
  | .timForceRelease _ _ _ => true
  | .forceApply _ => true
  | .timTripClr _ _ _ => true
  | .timerCountsClear _ _ _ => true
  | .syncPinEdge _ => true
  | .lineTrueStart _ => true
  | .lineTrueDone _ lat gain => decide (lat.natAbs < 0x8000 ∧ gain.natAbs < 0x8000)
  | .lineSwap _ => true
  | .railActiveWrite _ _ _ => true
  | .railAddEvent _ => true
  | .phaseMoveDecision _ => true
  | .phFail _ _ => true
  | .phClearFail _ _ => true
  | .railCountsClear _ _ _ => true
  | .witnessTransition _ _ _ => true
  | .witnessWindowEnd _ => true
  | .witClearFault _ _ _ => true
  | .witClear _ _ _ => true
  | .witnessBankReady _ => true
  | .timerDetourCopy _ => true
  | .detourShadowStart _ => true
  | .timerDetourSwitch _ => true
  | .spareTakesPins _ => true
  | .detReturn _ _ => true
  | .timerReturn _ => true
  | .undefinedInstruction _ _ => true
  | .coreAdd _ w => coreWord w
  | .coreSub _ w => coreWord w
  | .coreAdc _ w => coreWord w
  | .coreSbc _ w => coreWord w
  | .coreAnd _ w => coreWord w
  | .coreOr _ w => coreWord w
  | .coreXor _ w => coreWord w
  | .coreAndn _ w => coreWord w
  | .coreSll _ w => coreWord w
  | .coreSrl _ w => coreWord w
  | .coreSra _ w => coreWord w
  | .coreRor _ w => coreWord w
  | .coreMin _ w => coreWord w
  | .coreMax _ w => coreWord w
  | .coreMinu _ w => coreWord w
  | .coreMaxu _ w => coreWord w
  | .coreSlt _ w => coreWord w
  | .coreSltu _ w => coreWord w
  | .coreNeg _ w => coreWord w
  | .coreNot _ w => coreWord w
  | .coreAddi _ w => coreWord w
  | .coreAddiF _ w => coreWord w
  | .coreAndi _ w => coreWord w
  | .coreOri _ w => coreWord w
  | .coreXori _ w => coreWord w
  | .coreCmpi _ w => coreWord w
  | .coreSlli _ w => coreWord w
  | .coreSrli _ w => coreWord w
  | .coreSrai _ w => coreWord w
  | .coreRori _ w => coreWord w
  | .coreLui _ w => coreWord w
  | .coreAddpc _ w => coreWord w
  | .coreMul _ w => coreWord w
  | .coreMulh _ w => coreWord w
  | .coreMulhu _ w => coreWord w
  | .coreMulhsu _ w => coreWord w
  | .coreMac _ w => coreWord w
  | .coreMsu _ w => coreWord w
  | .coreDiv _ w => coreWord w
  | .coreDivu _ w => coreWord w
  | .coreRem _ w => coreWord w
  | .coreRemu _ w => coreWord w
  | .coreQadd _ w => coreWord w
  | .coreQsub _ w => coreWord w
  | .coreQaddu _ w => coreWord w
  | .coreQsubu _ w => coreWord w
  | .coreQneg _ w => coreWord w
  | .coreQabs _ w => coreWord w
  | .coreQdmulh _ w => coreWord w
  | .coreSsat _ w => coreWord w
  | .coreUsat _ w => coreWord w
  | .coreClz _ w => coreWord w
  | .coreCtz _ w => coreWord w
  | .corePopc _ w => coreWord w
  | .coreRev _ w => coreWord w
  | .coreRev16 _ w => coreWord w
  | .coreSextb _ w => coreWord w
  | .coreSexth _ w => coreWord w
  | .coreZextb _ w => coreWord w
  | .coreZexth _ w => coreWord w
  | .coreExtu _ w => coreWord w
  | .coreExts _ w => coreWord w
  | .coreIns _ w => coreWord w
  | .coreLdb _ w => coreWord w
  | .coreLdbu _ w => coreWord w
  | .coreLdh _ w => coreWord w
  | .coreLdhu _ w => coreWord w
  | .coreLdw _ w => coreWord w
  | .coreLdd _ w => coreWord w
  | .coreStb _ w => coreWord w
  | .coreSth _ w => coreWord w
  | .coreStw _ w => coreWord w
  | .coreStd _ w => coreWord w
  | .coreLdx _ w => coreWord w
  | .coreStx _ w => coreWord w
  | .coreAmoswap _ w => coreWord w
  | .coreAmoadd _ w => coreWord w
  | .coreAmocas _ w => coreWord w
  | .coreBCc _ w => coreWord w
  | .coreB _ w => coreWord w
  | .coreCall _ w => coreWord w
  | .coreJr _ w => coreWord w
  | .coreCallr _ w => coreWord w
  | .coreLoop _ w => coreWord w
  | .coreLoopi _ w => coreWord w
  | .coreMfs _ w => coreWord w
  | .coreMts _ w => coreWord w
  | .coreFence _ w => coreWord w
  | .coreSync _ w => coreWord w
  | .coreIflush _ w => coreWord w
  | .coreSyscall _ w => coreWord w
  | .coreBreak _ w => coreWord w
  | .coreRete _ w => coreWord w
  | .coreSleep _ w => coreWord w
  | .corePart _ w => coreWord w
  | .partRetire _ => true
  | .coreJoin _ w => coreWord w
  | .joinComplete _ => true
  | .joinTimeout _ => true
  | .joinPartnerDown _ => true
  | .coreAtomb _ w => coreWord w
  | .coreAtome _ w => coreWord w
  | .atomDeadline _ => true
  | .coreFadd _ w => coreWord w
  | .coreFsub _ w => coreWord w
  | .coreFmul _ w => coreWord w
  | .coreFdiv _ w => coreWord w
  | .coreFsqrt _ w => coreWord w
  | .coreFmin _ w => coreWord w
  | .coreFmax _ w => coreWord w
  | .coreFsgnj _ w => coreWord w
  | .coreFsgnjn _ w => coreWord w
  | .coreFsgnjx _ w => coreWord w
  | .coreFcmpEq _ w => coreWord w
  | .coreFcmpLt _ w => coreWord w
  | .coreFcmpLe _ w => coreWord w
  | .coreFcmpUn _ w => coreWord w
  | .coreFclass _ w => coreWord w
  | .coreFcvt _ w => coreWord w
  | .coreFcvtW _ w => coreWord w
  | .coreFcvtWu _ w => coreWord w
  | .coreFcvtFW _ w => coreWord w
  | .coreFcvtFWu _ w => coreWord w
  | .coreFmvX _ w => coreWord w
  | .coreFmvF _ w => coreWord w
  | .coreFmfc _ w => coreWord w
  | .coreFmtc _ w => coreWord w
  | .coreFmadd _ w => coreWord w
  | .coreFmsub _ w => coreWord w
  | .coreFnmadd _ w => coreWord w
  | .coreFnmsub _ w => coreWord w
  | .coreFldx _ w => coreWord w
  | .coreFstx _ w => coreWord w
  | .storeBufferDrain _ => true
  | .orderedAnswer _ => true
  | .interruptEntry _ => true
  | .coreWake _ => true
  | .cacheInvalidate _ _ => true
  | .perfClear _ _ _ => true
  | .evcClr _ _ _ => true
  | .tollgateMatch _ => true
  | .pairLagTimeout _ => true
  | .pairStop _ => true
  | .pairMismatchDelivery => true
  | .threadWiliumInstruction _ => true
  | .threadIllegal _ => true
  | .threadAccessDone _ => true
  | .thrSrd _ => true
  | .thrSwr _ => true
  | .thrSadd _ => true
  | .thrScas _ => true
  | .thrSwait _ => true
  | .swaitRelease _ => true
  | .thrTnow _ => true
  | .thrTset _ => true
  | .thrTget _ => true
  | .thrTadd _ => true
  | .thrTaddf _ => true
  | .thrTleft _ => true
  | .thrWaitt _ => true
  | .waittExpiry _ => true
  | .thrPeriod _ => true
  | .thrWaitp _ => true
  | .waitpTarget _ => true
  | .thrPstop _ => true
  | .thrWaite _ => true
  | .waiteWake _ => true
  | .thrSignal _ => true
  | .thrBkpt _ => true
  | .thrDrv _ => true
  | .thrSmp _ => true
  | .smpSample _ => true
  | .thrEstart _ => true
  | .thrEpush _ => true
  | .epushRoom _ => true
  | .thrEpull _ => true
  | .epullData _ => true
  | .thrEpushn _ => true
  | .thrEpulln _ => true
  | .actqRoom _ => true
  | .threadActionApply _ => true
  | .thrChOpen _ => true
  | .chOpenWake _ => true
  | .thrChPut _ => true
  | .thrChClose _ => true
  | .thrChRecv _ => true
  | .chRecvWake _ => true
  | .thrChGet _ => true
  | .thrChDone _ => true
  | .thrChPoll _ => true
  | .thrHalt _ _ _ => true
  | .thrResume _ _ _ => true
  | .thrStep _ _ _ => true
  | .thrReset _ _ _ => true
  | .thrClear _ _ _ => true
  | .gridlockEvaluation _ => true
  | .ringReady _ => true
  | .engBra _ => true
  | .engAwait _ => true
  | .awaitSatisfied _ => true
  | .engSend _ => true
  | .engTake _ => true
  | .engPins _ => true
  | .engDir _ => true
  | .engFetch _ => true
  | .fetchStallEnd _ => true
  | .engFetchNb _ => true
  | .engStore _ => true
  | .engSetk _ => true
  | .engCopy _ => true
  | .engRaise _ => true
  | .engLower _ => true
  | .engNote _ => true
  | .engineIllegal _ => true
  | .pinStageOperation _ => true
  | .engStop _ _ _ => true
  | .engStopDiscard _ _ _ => true
  | .engResume _ _ _ => true
  | .engRestart _ _ _ => true
  | .engFlush _ _ _ => true
  | .engineStart _ => true
  | .gstartRestart _ _ => true
  | .gstartResume _ _ => true
  | .engProgWrite _ _ _ _ => true
  | .engOwnerWrite _ _ _ => true
  | .engineBankReady _ => true
  | .pinOwnWrite _ _ _ => true
  | .levelCrossingEnd _ => true
  | .pinSoftWrite _ _ _ => true
  | .pinInputChange _ _ => true
  | .pinFilterExpiry _ => true
  | .pinIntfClear _ _ _ => true
  | .retireWrite _ _ _ => true
  | .retireCopyDone i => decide (i < 128)
  | .dramTrain _ _ => true
  | .dramTrainDone _ _ => true
  | .errPop _ _ => true
  | .memClr _ _ => true
  | .eccFlipWrite _ _ => true
  | .scrubIdleRead => true
  | .passStart _ _ => true
  | .passStop _ _ => true
  | .scrubPassBlock => true
  | .dmaStart _ _ _ => true
  | .dmaStop _ _ _ => true
  | .dmaTrigger _ _ _ => true
  | .dmaClear _ _ _ => true
  | .dmaDescFetched _ => true
  | .dmaReadAnswered _ data => decide (data.length ≤ 4096)
  | .dmaWriteAnswered _ => true
  | .eventRaise => true
  | .swRaise _ _ => true
  | .hostDoorbell _ _ => true
  | .hostBarRead bar off n => decide (0 < n ∧ off + n ≤ barSize bar)
  | .hostBarWrite bar off data => decide (0 < data.length ∧ off + data.length ≤ barSize bar)
  | .hostReadTimeout _ => true
  | .hostLinkDown => true
  | .hostLinkUp _ _ _ => true
  | .hostFunctionReset => true
  | .hostRecordWrite _ => true
  | .ringIrqTimeout _ => true
  | .ringTailWrite _ _ _ => true
  | .ringEnable _ _ _ => true
  | .telemetrySnapshot => true
  | .echoSend => true
  | .echoReqReceive _ _ _ _ => true
  | .echoRspReceive _ _ _ _ => true
  | .syncSend => true
  | .syncReceive _ _ _ _ _ => true
  | .planReceive _ _ _ _ _ seq => decide (seq < 2 ^ 32)
  | .tieEventReceive _ _ _ _ seq => decide (seq < 2 ^ 32)
  | .raReqReceive _ _ _ _ _ _ seq => decide (seq < 2 ^ 32)
  | .raRspReceive _ _ _ _ _ _ seq => decide (seq < 2 ^ 32)
  | .ackReceive _ _ _ seq => decide (seq < 2 ^ 32)
  | .tieResend => true
  | .tieSyncLoss => true
  | .tieHopLoss _ => true
  | .tieRaRead _ _ => true
  | .tieRaWrite _ _ => true
  | .tieRaTimeout => true
  | .debugRead _ _ => true
  | .debugWrite _ _ => true
  | .dbgHalt _ _ => true
  | .dbgResume _ _ => true
  | .dbgStep _ _ => true
  | .consPropose _ _ => true
  | .consConfirm _ _ => true
  | .consWithdraw _ _ => true
  | .consentTimeout => true
  | .faultOccurrence => true
  | .safeRel _ _ _ => true
  | .releaseFaultN _ _ => true
  | .faultCountsClear _ _ => true
  | .extFault => true
  | .domCtrlWrite _ _ _ => true
  | .domainReady _ => true
  | .vioCfgWrite _ _ => true
  | .vioLevelReached _ => true
  | .railSample vin vint vcore vdda v0 v1 v2 v3 v4 => [vin, vint, vcore, vdda, v0, v1, v2, v3, v4].all (decide <| · < 0x10000)
  | .supplyFault _ => true
  | .tempSample tj => decide (-0x8000 ≤ tj ∧ tj < 0x8000)
  | .thermHardTrip => true
  | .vinFailArm => true
  | .vintRampDone => true
  | .memoryInitDone code => decide (code < 0x40)
  | .evcPendWrite _ _ _ => true
  | .extFaultRearm => true
  | .tapOperation op => tapWf op

end Sys2Proof
end

