-- ==== Sys2Proof/Tests/Slice0.lean ====
section
/-!
SUPPORT. Tests/Slice0.lean: worked examples of the spec, ill-formed commands that WellFormed refuses, and for every statement with hypotheses
states and operands that meet them.
-/
namespace Sys2Proof.Tests

open Sys2Proof Sys2Proof.Machine

set_option Elab.async false

/-- A small state: the device with nothing in it but what `f` puts there. -/
def mkS (f : Dev → Dev) : State := { dev := f {} }

/-- What a command leaves of the device, where it answers a next state. -/
def after (o : Host.Outcome State Fault Refusal) (p : Dev → Bool) : Bool :=
  match o with
  | .next s => p s.dev
  | _ => false

/-- The device with the word `w` in the TCM of core `c`, where its PC points. -/
def withWord (c : Nat) (w : Word) (d : Dev) : Dev :=
  let a := 0x08000000 + 0x80000 * c + (d.core c).pc.toNat
  { d with mem := (toBytes (wordLen w) w.toNat).zipIdx.foldl (fun m p => Tab.set 0 (a + p.2) p.1 m) d.mem }

/-! ### Ill-formed commands are refused (WellFormed.lean) -/

theorem test_illFormed_registerWrite_key : Instr.wf (.registerWrite .host 0x1000000 0) = false := by decide +kernel
theorem test_illFormed_stagedWrite_key : Instr.wf (.stagedWrite .host 0x1000000 0) = false := by decide +kernel
theorem test_illFormed_commitApply_block : Instr.wf (.commitApply 64 0) = false := by decide +kernel
theorem test_illFormed_claimAgeExpiry_group : Instr.wf (.claimAgeExpiry 0 256) = false := by decide +kernel
theorem test_illFormed_vinFail_level : Instr.wf (.vinFail 0x10000) = false := by decide +kernel
theorem test_illFormed_railSample_vint : Instr.wf (.railSample 0 0x10000 0 0 0 0 0 0 0) = false := by decide +kernel
theorem test_illFormed_tempSample_tj : Instr.wf (.tempSample 0x8000) = false := by decide +kernel
theorem test_illFormed_adcTrueDone_offset : Instr.wf (.adcTrueDone 0 0x8000 0) = false := by decide +kernel
theorem test_illFormed_lineTrueDone_gain : Instr.wf (.lineTrueDone 0 0 (-0x8000)) = false := by decide +kernel
theorem test_illFormed_streamAreaRead_end : Instr.wf (.streamAreaRead .host 0 0x3FC 5) = false := by decide +kernel
theorem test_illFormed_retireCopyDone_entry : Instr.wf (.retireCopyDone 128) = false := by decide +kernel
theorem test_illFormed_memoryInitDone_code : Instr.wf (.memoryInitDone 0x40) = false := by decide +kernel
theorem test_illFormed_dmaReadAnswered_length : Instr.wf (.dmaReadAnswered 0 (List.replicate 4097 0)) = false := by decide +kernel
theorem test_illFormed_hostBarRead_empty : Instr.wf (.hostBarRead 0 0 0) = false := by decide +kernel
theorem test_illFormed_hostBarWrite_end : Instr.wf (.hostBarWrite 1 0x7FFFFF [0, 0]) = false := by decide +kernel
theorem test_illFormed_planReceive_seq : Instr.wf (.planReceive 0 true 0 0 0 (2 ^ 32)) = false := by decide +kernel
theorem test_illFormed_tieEventReceive_seq : Instr.wf (.tieEventReceive 0 true 0 0 (2 ^ 32)) = false := by decide +kernel
theorem test_illFormed_raReqReceive_seq : Instr.wf (.raReqReceive 0 true 0 0 0 true (2 ^ 32)) = false := by decide +kernel
theorem test_illFormed_raRspReceive_seq : Instr.wf (.raRspReceive 0 true 0 0 0 0 (2 ^ 32)) = false := by decide +kernel
theorem test_illFormed_ackReceive_seq : Instr.wf (.ackReceive 0 true 0 (2 ^ 32)) = false := by decide +kernel
theorem test_illFormed_tapOperation_cells : Instr.wf (.tapOperation (.extest (List.replicate 161 0))) = false := by decide +kernel
theorem test_illFormed_coreWord_short : Instr.wf (.coreAdd 0 0x10002) = false := by decide +kernel

/-! ### Worked examples of the spec -/

/-- The words of the examples of spec/11 and spec/12: LDX with post-increment by one element, ADD.F, and FDIV.D with dynamic rounding. -/
theorem test_words_wilium :
    decodeW 0x04827339 = .load false 2 (.post 1) 6 7 true ∧ decodeW 0x800A4183 = .alu .add true 3 4 5 ∧
    decodeW 0x1BCE62E1 = .fp .div true 7 5 6 7 := by decide +kernel

/-- The words of the examples of spec/14: WAITP, EPULL t1, t2 and CH.CLOSE. -/
theorem test_words_thread : tDecode 0x06800051 = .waitp ∧ tDecode 0x010020D3 = .epull 1 2 ∧ tDecode 0x00800055 = .chClose := by decide +kernel

/-- R56: the CRC of the string 123456789. -/
theorem test_crc16 : crc16 [0x31, 0x32, 0x33, 0x34, 0x35, 0x36, 0x37, 0x38, 0x39] = 0x29B1 := by decide +kernel

/-- The LIVE record of the example after R56, without its CRC. -/
theorem test_record_bytes :
    (Record.bytes { kind := .live, flags := 3, origin := 0x0400, time := nsT 2000000, block := 2, off := 0x24, new := 0x100, old := 0x400 }).take 30
      = [0, 0, 0, 0, 2, 3, 0, 4, 0, 0x20, 0xA1, 7, 0, 0, 0, 0, 2, 0, 0x24, 0, 0, 1, 0, 0, 0, 4, 0, 0, 0, 0] := by decide +kernel

/-- The schedule of the example after R29, with P = 1,000 ns: the occurrences from the grid's 10,000 ns. -/
def sched28 (k : Nat) : Sched := { t0 := 0, k := k, p := 64000, target := nsT 10000 }

/-- R28, R29: an occurrence 300 ns late is followed at 11,175 ns, that one at 12,050 ns and that one on the grid. -/
theorem test_schedule_catch_up :
    (((sched28 10).advance 32 0 (nsT 10300)).1.target, ((sched28 11).advance 32 0 (nsT 11175)).1.target,
      ((sched28 12).advance 32 0 (nsT 12050)).1.target) = (nsT 11175, nsT 12050, nsT 13000) := by decide +kernel

/-- R139: the evaluation of the tray rail C example. -/
theorem test_pid_example :
    pidErr 6 327680 326656 = 65536 ∧ pidY 0x4000000 65536 ((1032192 * 4 + 3) * 2 ^ 38) = 4294970368 ∧
    pidU 4294970368 0 0x200000 = 1048577 := by decide +kernel

/-- The device of that example with its sample word waiting on slot 02. -/
def railC (d : Dev) : Dev :=
  ((((((((d.setNum (LOOP.SLOT_CFG 2) 0x60001).setNum (LOOP.SLOT_SP_TARGET 2) 0x50000).setNum (LOOP.SLOT_SP_NOW 2) 0x50000).setNum (LOOP.SLOT_INT_HI 2)
    0x200000).setNum (LOOP.SLOT_OUT_HI 2) 0x200000).setNum (LOOP.SLOT_OUT_CFG 2) 0x202).setFld (LOOP.SLOT_STATUS_RUN 2) 1).setBytes 0x30000200
    [0, 0, 0, 4]).setSlot 2 { p := (1032192 * 4 + 3) * 2 ^ 38, rq := 327680 * 256, queue := [(6400, 0x4FC0)] }

/-- R139 on the device: SLOT_OUT_02 is 1,048,577 and SLOT_ERR_02 is 65,536. -/
theorem test_slot_example :
    after (execSlotEvaluation 2 true (mkS railC)) (fun d => d.num (LOOP.SLOT_OUT 2) == 1048577 && d.num (LOOP.SLOT_ERR 2) == 65536) = true := by
  decide +kernel

/-- R376: a store that covers lane 2 under ECC_FLIP = 0x8208_0003 takes the injection, which two flipped bits make a UE, and ARM clears. -/
theorem test_ecc_flip_example :
    let d := ((({} : Dev).setNum MEMCTL.ECC_FLIP 0x82080003).setFld MEMCTL.SRAM_STATUS_READY 255).writeMem 0x0400 0x10000100 [0x11, 0x22, 0x33, 0x44]
    d.ecc = [(0x10000102, 2)] ∧ d.num MEMCTL.ECC_FLIP = 0x02080003 ∧ d.num MEMCTL.ECC_FLIP_STATUS = 0x10000100 := by decide +kernel

/-- R413, R414: device 1 of the example receives SYNC at its own 20,053.750 ns and slews by -32 fine ticks; the correction it forwards is
154.250 ns. -/
theorem test_sync_example :
    after (execSyncReceive true 48 (nsT 20000) 3408 (nsT 40)
        (mkS fun d => { d.setNum TIE.TIE_CFG 0x80000013 with tie := { d.tie with delay := 61 * 64, synced := true }, time := { d.time with milepost := nsT 20053 } }))
      (fun d => d.reg MILEPOST.MP_SLEW == -32 && d.sent == [.frame 0 FRAME.SYNC 0 (syncBody (nsT 20000) (nsT 154 + 16))]) = true := by decide +kernel

/-- The device of R433's example. -/
def gp20 (d : Dev) : Dev :=
  ((((d.setNum PROTECT.CONS_SEQ 5).setNum PROTECT.CONS_COUNT 1).setNum (PROTECT.CONS_TARGET 0) 0x2D15D0).setNum (PROTECT.CONS_VALUE 0) 0x02000207)

/-- R433: the string the host hashes. -/
theorem test_consent_string :
    (gp20 {}).consString = [5, 0, 0, 0, 1, 0, 0, 0, 0x2D, 0, 0xD0, 0x15, 7, 2, 0, 2] := by decide +kernel

/-- The results of an operation in the five rounding modes (R290). -/
def five (f : Nat → FRes) : List (Nat × Nat) := (List.range 5).map fun rm => ((f rm).bits, (f rm).flags)

/-- R290: sums and differences of the smallest and the largest binary32 number. -/
theorem test_fadd_edges :
    five (fun rm => fmtS.op2 .add rm 1 1) = [(2, 0), (2, 0), (2, 0), (2, 0), (2, 0)] ∧
    five (fun rm => fmtS.op2 .add rm 0x7F7FFFFF 0x7F7FFFFF)
      = [(0x7F800000, 5), (0x7F7FFFFF, 5), (0x7F7FFFFF, 5), (0x7F800000, 5), (0x7F800000, 5)] ∧
    five (fun rm => fmtS.op2 .add rm 0x7F7FFFFF 1) = [(0x7F7FFFFF, 1), (0x7F7FFFFF, 1), (0x7F7FFFFF, 1), (0x7F800000, 5), (0x7F7FFFFF, 1)] ∧
    five (fun rm => fmtS.op2 .sub rm 0x7F7FFFFF 1) = [(0x7F7FFFFF, 1), (0x7F7FFFFE, 1), (0x7F7FFFFE, 1), (0x7F7FFFFF, 1), (0x7F7FFFFF, 1)] ∧
    five (fun rm => fmtS.op2 .sub rm 1 1) = [(0, 0), (0, 0), (0x80000000, 0), (0, 0), (0, 0)] := by decide +kernel

/-- R290: products, quotients and roots of them. -/
theorem test_fmul_edges :
    five (fun rm => fmtS.op2 .mul rm 1 1) = [(0, 3), (0, 3), (0, 3), (1, 3), (0, 3)] ∧
    five (fun rm => fmtS.op2 .mul rm 1 0x7F7FFFFF) = [(0x34FFFFFF, 0), (0x34FFFFFF, 0), (0x34FFFFFF, 0), (0x34FFFFFF, 0), (0x34FFFFFF, 0)] ∧
    five (fun rm => fmtS.op2 .div rm 1 0x7F7FFFFF) = [(0, 3), (0, 3), (0, 3), (1, 3), (0, 3)] ∧
    five (fun rm => fmtS.op2 .div rm 0x7F7FFFFF 1)
      = [(0x7F800000, 5), (0x7F7FFFFF, 5), (0x7F7FFFFF, 5), (0x7F800000, 5), (0x7F800000, 5)] ∧
    five (fun rm => fmtS.op2 .div rm 1 1) = [(0x3F800000, 0), (0x3F800000, 0), (0x3F800000, 0), (0x3F800000, 0), (0x3F800000, 0)] := by
  decide +kernel

/-- R290: roots of them, in both formats. -/
theorem test_fsqrt_edges :
    five (fun rm => fmtS.sqrt rm (fmtS.unpack 1)) = [(0x1A3504F3, 1), (0x1A3504F3, 1), (0x1A3504F3, 1), (0x1A3504F4, 1), (0x1A3504F3, 1)] ∧
    five (fun rm => fmtS.sqrt rm (fmtS.unpack 0x7F7FFFFF))
      = [(0x5F7FFFFF, 1), (0x5F7FFFFF, 1), (0x5F7FFFFF, 1), (0x5F800000, 1), (0x5F7FFFFF, 1)] ∧
    five (fun rm => fmtD.sqrt rm (fmtD.unpack 1)) = List.replicate 5 (0x1E60000000000000, 0) := by decide +kernel

/-- R290: fused operations of them. -/
theorem test_fma_edges :
    five (fun rm => fmtS.fma rm .madd (fmtS.unpack 1) (fmtS.unpack 1) (fmtS.unpack 1)) = [(1, 3), (1, 3), (1, 3), (2, 3), (1, 3)] ∧
    five (fun rm => fmtS.fma rm .madd (fmtS.unpack 0x7F7FFFFF) (fmtS.unpack 0x7F7FFFFF) (fmtS.unpack 0xFF7FFFFF))
      = [(0x7F800000, 5), (0x7F7FFFFF, 5), (0x7F7FFFFF, 5), (0x7F800000, 5), (0x7F800000, 5)] := by decide +kernel

/-- R290: conversions of them. -/
theorem test_fcvt_edges :
    five (fun rm => fmtD.cvt rm (fmtS.unpack 1)) = List.replicate 5 (0x36A0000000000000, 0) ∧
    five (fun rm => fmtS.cvt rm (fmtD.unpack 1)) = [(0, 3), (0, 3), (0, 3), (1, 3), (0, 3)] ∧
    five (fun rm => fmtS.cvt rm (fmtD.unpack 0x7FEFFFFFFFFFFFFF))
      = [(0x7F800000, 5), (0x7F7FFFFF, 5), (0x7F7FFFFF, 5), (0x7F800000, 5), (0x7F800000, 5)] ∧
    (List.range 5).map (fun rm => cvtToInt false rm (fmtS.unpack 1)) = [(0, 1), (0, 1), (0, 1), (1, 1), (0, 1)] ∧
    (List.range 5).map (fun rm => cvtToInt true rm (fmtS.unpack 0x80000001)) = [(0, 1), (0, 1), (0, 16), (0, 1), (0, 1)] ∧
    cvtToInt false 1 (fmtS.unpack 0xFF7FFFFF) = (0x80000000, 16) ∧ cvtToInt true 1 (fmtS.unpack 0x7F7FFFFF) = (0xFFFFFFFF, 16) := by
  decide +kernel

/-! ### The hypotheses of every statement are met (Certificates/Slice0/Obligations.lean) -/

/-- The hypotheses of clauses 1 to 9 of ReferenceCommands are met. -/
theorem witness_ReferenceCommands_1 :
    (∃ (s : State), s.dev.time.counting = false) ∧
    (∃ (s : State), s.dev.time.counting = false) ∧
    (∃ (s : State), s.dev.refState = 1 ∧ s.dev.due (s.dev.time.lockedSince + nsT 100000000) = true) ∧
    (∃ (s : State) (dev : Nat), (s.dev.refState = 2 ∨ s.dev.refState = 4) ∧ s.dev.time.qualSince = none ∧
      dev ≤ s.dev.fld MILEPOST.MP_REFQUAL_FREQ_TOL * 10000) ∧
    (∃ (s : State) (dev : Nat), s.dev.refState = 1 ∧ s.dev.fld MILEPOST.MP_REFQUAL_FREQ_TOL * 10000 < dev) ∧
    (∃ (s : State), s.dev.refState = 1 ∧
      s.dev.due (s.dev.time.lastEdge + nsT (s.dev.fld MILEPOST.MP_REFQUAL_MISS_LIMIT * s.dev.refPeriod)) = true) ∧
    (∃ (s : State) (t : Time), s.dev.time.qualSince = some t ∧ s.dev.due (t + nsT 1000000) = true ∧ s.dev.refState = 4) ∧
    (∃ (s : State) (t : Time), s.dev.time.qualSince = some t ∧ s.dev.due (t + nsT 1000000) = true ∧ s.dev.refState = 2 ∧
      s.dev.flag MILEPOST.MP_CTRL_AUTO_RETURN = false) ∧
    (∃ (s : State) (t : Time), s.dev.time.qualSince = some t ∧ s.dev.due (t + nsT 1000000) = true ∧ s.dev.refState = 2 ∧
      s.dev.flag MILEPOST.MP_CTRL_AUTO_RETURN = true) :=
  ⟨⟨mkS id, by decide +kernel⟩,
   ⟨mkS id, by decide +kernel⟩,
   ⟨mkS fun d => { d.setFld MILEPOST.MP_STATUS_REF_STATE 1 with time := { milepost := nsT 100000000 } }, by decide +kernel⟩,
   ⟨mkS fun d => (d.setFld MILEPOST.MP_STATUS_REF_STATE 4).setFld MILEPOST.MP_REFQUAL_FREQ_TOL 1, 10000, by decide +kernel⟩,
   ⟨mkS fun d => (d.setFld MILEPOST.MP_STATUS_REF_STATE 1).setFld MILEPOST.MP_REFQUAL_FREQ_TOL 1, 10001, by decide +kernel⟩,
   ⟨mkS fun d =>
      { ({ d with regs := [(MILEPOST.MP_CTRL, 1)] } : Dev).setFld MILEPOST.MP_STATUS_REF_STATE 1 with time := { milepost := nsT 10000 } }, by decide +kernel⟩,
   ⟨mkS fun d =>
      { d.setFld MILEPOST.MP_STATUS_REF_STATE 4 with time := { milepost := nsT 1000000, qualSince := some 0 } }, 0, by decide +kernel⟩,
   ⟨mkS fun d =>
      { ({ d with regs := [(MILEPOST.MP_CTRL, 1)] } : Dev).setFld MILEPOST.MP_STATUS_REF_STATE 2 with time := { milepost := nsT 1000000, qualSince := some 0 } }, 0, by decide +kernel⟩,
   ⟨mkS fun d =>
      { ({ d with regs := [(MILEPOST.MP_CTRL, 0x11)] } : Dev).setFld MILEPOST.MP_STATUS_REF_STATE 2 with time := { milepost := nsT 1000000, qualSince := some 0 } }, 0, by decide +kernel⟩⟩

/-- The hypotheses of clauses 1 to 11 of MilepostCommands are met. -/
theorem witness_MilepostCommands_1 :
    (∃ (s : State) (a : Agent), s.dev.blkLevel a.id 0x02 ≠ 0) ∧
    (∃ (s : State) (a : Agent) (v : Word), s.dev.takes a.id MILEPOST.MP_CTRL v = true ∧ wordBit v 2 = true ∧ s.dev.refState = 3) ∧
    (∃ (s : State) (a : Agent) (v : Word), s.dev.takes a.id MILEPOST.MP_CTRL v = true ∧ wordBit v 4 = true ∧ s.dev.refState = 3) ∧
    (∃ (s : State) (a : Agent) (v : Word), s.dev.blkLevel a.id 0x02 ≥ 2 ∧ v = 4 ∧ s.dev.refState ≠ 3 ∧ s.dev.lgRoom = true) ∧
    (∃ (s : State) (a : Agent) (v : DWord), s.dev.blkLevel a.id 0x02 ≥ 2 ∧ s.dev.regulated = false ∧ s.dev.lgRoom = true) ∧
    (∃ (s : State) (a : Agent) (v : DWord), s.dev.blkLevel a.id 0x02 ≥ 2 ∧ s.dev.regulated = true ∧ s.dev.lgRoom = true) ∧
    (∃ (s : State) (a : Agent) (v : Word), s.dev.takes a.id MILEPOST.MP_SLEW v = true) ∧
    (∃ (s : State) (a : Agent) (v : Word), s.dev.takes a.id MILEPOST.MP_SLEW_CFG v = true ∧
      s.dev.fld MILEPOST.MP_SLEW_CFG_INTERVAL ≠ bitsOf v.toNat MILEPOST.MP_SLEW_CFG_INTERVAL.hi MILEPOST.MP_SLEW_CFG_INTERVAL.lo) ∧
    (∃ (s : State), s.dev.slewDue = true ∧ 0 < s.dev.slewRemain) ∧
    (∃ (s : State), s.dev.slewDue = true ∧ s.dev.slewRemain < 0) ∧
    (∃ (s : State) (a : Agent) (v : Word), s.dev.takes a.id MILEPOST.LATE_CLR v = true ∧ wordBit v 0 = true) :=
  ⟨⟨mkS fun d => d.setReg (PROTECT.BLK_PERM 2) 0xFFFFFFFF, .host, by decide +kernel⟩,
   ⟨mkS fun d => (d.setReg (PROTECT.BLK_PERM 2) 0xFFFFFFFF).setFld MILEPOST.MP_STATUS_REF_STATE 3, .host, 4, by decide +kernel⟩,
   ⟨mkS fun d => (d.setReg (PROTECT.BLK_PERM 2) 0xFFFFFFFF).setFld MILEPOST.MP_STATUS_REF_STATE 3, .host, 16, by decide +kernel⟩,
   ⟨mkS fun d => (d.setReg (PROTECT.BLK_PERM 2) 0xFFFFFFFF).setFld MILEPOST.MP_STATUS_REF_STATE 2, .host, 4, by decide +kernel⟩,
   ⟨mkS id, .loader, 0xFFFFFFFFFFFFFFFF, by decide +kernel⟩,
   ⟨mkS fun d => d.setFld NVM.BOOT_STATUS_STATE 2, .loader, 1, by decide +kernel⟩,
   ⟨mkS fun d => d.setReg (PROTECT.BLK_PERM 2) 0xFFFFFFFF, .host, 0x80000000, by decide +kernel⟩,
   ⟨mkS fun d => d.setReg (PROTECT.BLK_PERM 2) 0xFFFFFFFF, .host, 32, by decide +kernel⟩,
   ⟨mkS fun d => { d.setReg MILEPOST.MP_SLEW 1 with time := { counting := true, slewTicks := 1023 } }, by decide +kernel⟩,
   ⟨mkS fun d => { d.setReg MILEPOST.MP_SLEW 0xFFFFFFFF with time := { counting := true, slewTicks := 1023 } }, by decide +kernel⟩,
   ⟨mkS fun d => d.setReg (PROTECT.BLK_PERM 2) 0xFFFFFFFF, .host, 1, by decide +kernel⟩⟩

/-- The hypotheses of clauses 1 to 5 of PaceCommands are met. -/
theorem witness_PaceCommands_1 :
    (∃ (s : State) (loop : Bool) (lat : Nat), s.dev.fld MILEPOST.PACE_CTRL_MODE = 1) ∧
    (∃ (s : State) (lat : Nat), s.dev.fld MILEPOST.PACE_CTRL_MODE = 2 ∧ s.dev.fld MILEPOST.PACE_TARGET_LOOP_BUDGET < lat ∧
      s.dev.flag MILEPOST.PACE_STATUS_OVER_BUDGET = false ∧ s.dev.flag MILEPOST.PACE_STATUS_EXTERNAL = false ∧ s.dev.time.upHold = none ∧
      s.dev.fld MILEPOST.PACE_STATUS_VCORE_MV < 850) ∧
    (∃ (s : State) (t : Time), s.dev.time.upHold = some t ∧ s.dev.due t = true) ∧
    (∃ (s : State), s.dev.fld MILEPOST.PACE_CTRL_MODE = 1 ∧ s.dev.due (s.dev.time.windowStart + nsT s.dev.paceWindow) = true) ∧
    (∃ (s : State), s.dev.fld MILEPOST.PACE_CTRL_MODE = 2 ∧ s.dev.due (s.dev.time.windowStart + nsT s.dev.paceWindow) = true ∧
      s.dev.lowerOk s.dev.time.loopWorst (s.dev.fld MILEPOST.PACE_TARGET_LOOP_BUDGET) = true ∧
      s.dev.lowerOk s.dev.time.ringWorst (s.dev.fld MILEPOST.PACE_TARGET_RING_BUDGET) = true ∧ s.dev.time.downBlocked = 0 ∧
      s.dev.flag MILEPOST.PACE_STATUS_EXTERNAL = false ∧ 680 < s.dev.fld MILEPOST.PACE_STATUS_VCORE_MV) :=
  ⟨⟨mkS fun d => d.setFld MILEPOST.PACE_CTRL_MODE 1, true, 700, by decide +kernel⟩,
   ⟨mkS fun d =>
      (({ d with regs := [(MILEPOST.PACE_STATUS, 750)] } : Dev).setFld MILEPOST.PACE_CTRL_MODE 2).setFld MILEPOST.PACE_TARGET_LOOP_BUDGET 4000, 5000, by decide +kernel⟩,
   ⟨mkS fun d => { d with time := { milepost := 64, upHold := some 64 } }, 64, by decide +kernel⟩,
   ⟨mkS fun d => { d.setFld MILEPOST.PACE_CTRL_MODE 1 with time := { milepost := nsT 10000000, loopWorst := some 70000 } }, by decide +kernel⟩,
   ⟨mkS fun d =>
      { ({ d with regs := [(MILEPOST.PACE_STATUS, 681)] } : Dev).setFld MILEPOST.PACE_CTRL_MODE 2 with time := { milepost := nsT 10000000 } }, by decide +kernel⟩⟩

/-- The hypotheses of clauses 1 to 5 of RegisterWrites are met. -/
theorem witness_RegisterWrites_1 :
    (∃ (s : State) (a : Agent) (k : Nat) (v : Word) (c : Cause), s.dev.refuses a.id k v c = true ∧ k / 0x10000 ≠ 0) ∧
    (∃ (s : State) (a : Agent) (k : Nat) (v : Word), k % 4 = 0 ∧ blockExists (k / 0x10000) = true ∧ isGrpReg k = false ∧ isMsix k = false ∧
      regHit k = none) ∧
    (∃ (s : State) (a : Agent) (k : Nat) (v : Word), (k % 4 ≠ 0 ∨ blockExists (k / 0x10000) = false)) ∧
    (∃ (s : State) (a : Agent) (k : Nat) (v : Word), s.dev.takes a.id k v = true ∧
      k ∈ [MILEPOST.PACE_CTRL, MILEPOST.PACE_TARGET, MILEPOST.PACE_MARGIN_CFG, MILEPOST.PACE_STEP, MILEPOST.MP_REFQUAL]) ∧
    (∃ (s : State) (p : LivePend), s.dev.livePend.find? (fun p => p.addr ≠ LEDGER.LG_CTRL ∧ ¬ s.dev.midOperation p.addr) = some p ∧
      p.addr ∈ [ADC.TRUE_CTRL 0, ADC.TRUE_CTRL 5, PWM.TRUE_CTRL 0, PWM.TRUE_CTRL 2]) :=
  ⟨⟨mkS fun d => d.setReg (PROTECT.BLK_PERM 2) 0xFFFFFFFF, .host, MILEPOST.PACE_CTRL, 3, .reserved, by decide +kernel⟩,
   ⟨mkS id, .host, 0x2FFF0, 1, by decide +kernel⟩,
   ⟨mkS id, .host, 0x20001, 1, by decide +kernel⟩,
   ⟨mkS fun d => d.setReg (PROTECT.BLK_PERM 2) 0xFFFFFFFF, .host, MILEPOST.PACE_CTRL, 2, by decide +kernel⟩,
   ⟨mkS fun d => { d with livePend := [⟨0x0400, ADC.TRUE_CTRL 0, 0⟩] }, ⟨0x0400, ADC.TRUE_CTRL 0, 0⟩, by decide +kernel⟩⟩

/-- The hypotheses of clauses 1 to 8 of LedgerCommands are met. -/
theorem witness_LedgerCommands_1 :
    (∃ (s : State) (r : Record), s.dev.lgDram = true ∧ s.dev.led.fresh = [] ∧ s.dev.fld LEDGER.LG_STATUS_OCC ≠ 0 ∧
      s.dev.onChip (s.dev.reg LEDGER.LG_NEXT_SEQ - BitVec.ofNat 32 (s.dev.fld LEDGER.LG_STATUS_OCC)) = some r) ∧
    (∃ (s : State) (a : Agent) (v : Word), s.dev.takes a.id LEDGER.LG_CTRL v = true ∧ s.dev.lgDram = false) ∧
    (∃ (s : State) (a : Agent) (v : Word), s.dev.lgDram = true ∧ v.toNat % 4 = 0 ∧ s.dev.refusalAt a.id LEDGER.LG_CTRL v = none ∧
      s.dev.ledgerOff 1 = false) ∧
    (∃ (s : State) (p : LivePend), s.dev.livePend = [p] ∧ s.dev.led.waiting = [] ∧ p.addr = LEDGER.LG_CTRL ∧ p.v.toNat % 4 = 0 ∧
      s.dev.fld LEDGER.LG_STATUS_OCC = 0) ∧
    (∃ (s : State) (a : Agent) (v : Word) (r : Record), s.dev.takes a.id LEDGER.LG_WIN_SEQ v = true ∧ s.dev.onChip v = some r) ∧
    (∃ (s : State) (a : Agent) (v : Word), s.dev.takes a.id LEDGER.LG_WIN_SEQ v = true ∧ s.dev.onChip v = none) ∧
    (∃ (s : State) (a : Agent) (v : Word), s.dev.takes a.id LEDGER.LG_CLR v = true ∧ wordBit v 0 = true ∧ s.dev.led.norQ.length < 256 ∧
      s.dev.led.fresh = []) ∧
    (∃ (s : State) (w : Waiting) (v : Word), s.dev.led.waiting = [w] ∧ w.kind = .write MILEPOST.PACE_STEP v ∧ w.agent.toNat / 256 = 4 ∧
      s.dev.lgDram = false ∧ s.dev.takes w.agent MILEPOST.PACE_STEP v = true) :=
  ⟨⟨mkS fun d =>
      { ((d.setFld LEDGER.LG_CTRL_TARGET 1).setFld LEDGER.LG_STATUS_OCC 1).setNum LEDGER.LG_NEXT_SEQ 7 with led := { chip := [{ kind := .system, flags := 3, origin := 0x0600, time := 0, block := 1, off := 0, new := 0, old := 0, seq := 6 }] } }, { kind := .system, flags := 3, origin := 0x0600, time := 0, block := 1, off := 0, new := 0, old := 0, seq := 6 }, by decide +kernel⟩,
   ⟨mkS fun d =>
      (((d.setReg (PROTECT.BLK_PERM 1) 0xFFFFFFFF).setReg (SUPPLY.DOM_STATUS_0 + 4) 0xFFFFFFFF).setReg SUPPLY.DOM_STATUS_0 0xFFFFFFFF).setFld (MEMCTL.DRAM_STATUS_STATE0) 3, .host, 1, by decide +kernel⟩,
   ⟨mkS fun d =>
      (((d.setReg (PROTECT.BLK_PERM 1) 0xFFFFFFFF).setReg (SUPPLY.DOM_STATUS_0 + 4) 0xFFFFFFFF).setReg SUPPLY.DOM_STATUS_0 0xFFFFFFFF).setFld LEDGER.LG_CTRL_TARGET 1, .host, 0, by decide +kernel⟩,
   ⟨mkS fun d =>
      { (d.setFld LEDGER.LG_CTRL_TARGET 1).setFld LEDGER.LG_STATUS_DRAINING 1 with livePend := [⟨0x0400, LEDGER.LG_CTRL, 0⟩] }, ⟨0x0400, LEDGER.LG_CTRL, 0⟩, by decide +kernel⟩,
   ⟨mkS fun d =>
      { (((d.setReg (PROTECT.BLK_PERM 1) 0xFFFFFFFF).setReg (SUPPLY.DOM_STATUS_0 + 4) 0xFFFFFFFF).setReg SUPPLY.DOM_STATUS_0 0xFFFFFFFF) with led := { chip := [{ kind := .system, flags := 3, origin := 0x0600, time := 0, block := 1, off := 0, new := 0, old := 0, seq := 6 }] } }, .host, 6, { kind := .system, flags := 3, origin := 0x0600, time := 0, block := 1, off := 0, new := 0, old := 0, seq := 6 }, by decide +kernel⟩,
   ⟨mkS fun d =>
      (((d.setReg (PROTECT.BLK_PERM 1) 0xFFFFFFFF).setReg (SUPPLY.DOM_STATUS_0 + 4) 0xFFFFFFFF).setReg SUPPLY.DOM_STATUS_0 0xFFFFFFFF), .host, 6, by decide +kernel⟩,
   ⟨mkS fun d =>
      ((((d.setReg (PROTECT.BLK_PERM 1) 0xFFFFFFFF).setReg (SUPPLY.DOM_STATUS_0 + 4) 0xFFFFFFFF).setReg SUPPLY.DOM_STATUS_0 0xFFFFFFFF).setNum LEDGER.LG_STALL_COUNT 5), .host, 1, by decide +kernel⟩,
   ⟨mkS fun d =>
      { d.setReg (PROTECT.BLK_PERM 2) 0xFFFFFFFF with led := { waiting := [⟨0x0400, .write MILEPOST.PACE_STEP 0x0201, 0⟩] } }, ⟨0x0400, .write MILEPOST.PACE_STEP 0x0201, 0⟩, 0x0201, by decide +kernel⟩⟩

/-- The hypotheses of clauses 1 to 7 of StagingAndClaims are met. -/
theorem witness_StagingAndClaims_1 :
    (∃ (s : State) (a : Agent) (k : Nat) (v : Word) (g : Nat), s.dev.stages a.id k v g = true) ∧
    (∃ (s : State) (a : Agent) (b : Fin 64) (v : Word), s.dev.grpOpen a.id b.val = true ∧ wordBit v 31 = true ∧
      (s.dev.grp (grpKey b.val (s.dev.selected a.id b.val))).st = .idle) ∧
    (∃ (s : State) (a : Agent) (b : Fin 64) (v : DWord), s.dev.grpOpen a.id b.val = true ∧
      (s.dev.grp (grpKey b.val (s.dev.selected a.id b.val))).st = .claimed ∧
      (s.dev.grp (grpKey b.val (s.dev.selected a.id b.val))).owner = a.id) ∧
    (∃ (s : State) (a : Agent) (b : Fin 64) (v : Word), s.dev.grpOpen a.id b.val = true ∧ wordBit v 0 = true ∧
      ((s.dev.grp (grpKey b.val (s.dev.selected a.id b.val))).st = .claimed ∨ (s.dev.grp (grpKey b.val (s.dev.selected a.id b.val))).st = .pending) ∧
      (s.dev.grp (grpKey b.val (s.dev.selected a.id b.val))).owner = a.id) ∧
    (∃ (s : State) (b g : Nat), g < 256 ∧ s.dev.fld SYS.CLAIM_LIMIT_LIMIT_US ≠ 0 ∧ (s.dev.grp (grpKey b g)).st ≠ .idle ∧
      nsT (s.dev.fld SYS.CLAIM_LIMIT_LIMIT_US * 1000) < s.dev.now - (s.dev.grp (grpKey b g)).claimT) ∧
    (∃ (s : State) (a : Agent) (v : Word), s.dev.takes a.id SYS.CLAIM_LIMIT v = true ∧
      (∀ p ∈ s.dev.groups, (s.dev.grp p.1).st = .idle ∨ v.toNat % 0x10000 = 0)) ∧
    (∃ (s : State) (a : Agent) (v : Word) (k : Nat), s.dev.takes a.id SYS.CLAIM_LIMIT v = true ∧ v.toNat % 0x10000 ≠ 0 ∧
      s.dev.groups.map (·.1) = [k] ∧ (s.dev.grp k).st ≠ .idle ∧ nsT (v.toNat % 0x10000 * 1000) < s.dev.now - (s.dev.grp k).claimT) :=
  ⟨⟨mkS fun d => (d.setReg (PROTECT.BLK_PERM 4) 0xFFFFFFFF), .host, FAULT.SAFE_GRP 0 0, 0, 0x400, by decide +kernel⟩,
   ⟨mkS fun d => (d.setReg (PROTECT.BLK_PERM 4) 0xFFFFFFFF), .host, 4, 0x80000000, by decide +kernel⟩,
   ⟨mkS fun d =>
      ((d.setReg (PROTECT.BLK_PERM 4) 0xFFFFFFFF).setGrp 0x400 { st := .claimed, owner := 0x0400 }), .host, 4, 0xFFFFFFFF00000001, by decide +kernel⟩,
   ⟨mkS fun d =>
      ((d.setReg (PROTECT.BLK_PERM 4) 0xFFFFFFFF).setGrp 0x400 { st := .pending, owner := 0x0400, staged := [(5, 6)] }), .host, 4, 1, by decide +kernel⟩,
   ⟨mkS fun d =>
      { (d.setNum SYS.CLAIM_LIMIT 1).setGrp 0x400 { st := .claimed, owner := 0x0400 } with time := { milepost := 64001 } }, 4, 0, by decide +kernel⟩,
   ⟨mkS fun d => (d.setReg (PROTECT.BLK_PERM 0) 0xFFFFFFFF), .host, 0, by decide +kernel⟩,
   ⟨mkS fun d =>
      { (d.setReg (PROTECT.BLK_PERM 0) 0xFFFFFFFF).setGrp 0x400 { st := .claimed, owner := 0x0400 } with time := { milepost := 64001 } }, .host, 1, 0x400, by decide +kernel⟩⟩

/-- The hypotheses of clauses 1 to 6 of CommitsOfOneGroup are met. -/
theorem witness_CommitsOfOneGroup_1 :
    (∃ (s : State) (a : Agent) (b : Fin 64) (v : Word), s.dev.grpOpen a.id b.val = true ∧ wordBit v 31 = true ∧ v.toNat % 4 = 0 ∧
      s.dev.goRefusal a.id (grpKey b.val (s.dev.selected a.id b.val)) 0 = none ∧ b.val ≠ 0x08 ∧
      s.dev.unitRuns (grpKey b.val (s.dev.selected a.id b.val)) = true ∧ (b.val = 0x18 ∨ b.val = 0x19)) ∧
    (∃ (s : State) (a : Agent) (b : Fin 64) (v : Word), s.dev.grpOpen a.id b.val = true ∧ wordBit v 31 = true ∧ v.toNat % 4 = 1 ∧
      s.dev.goRefusal a.id (grpKey b.val (s.dev.selected a.id b.val)) 1 = none ∧ b.val ≠ 0x08 ∧
      s.dev.due (unitTime b.val (s.dev.grp (grpKey b.val (s.dev.selected a.id b.val))).atT) = false) ∧
    (∃ (s : State) (a : Agent) (b : Fin 64) (v : Word), s.dev.grpOpen a.id b.val = true ∧ wordBit v 31 = true ∧ v.toNat % 4 = 2 ∧
      s.dev.goRefusal a.id (grpKey b.val (s.dev.selected a.id b.val)) 2 = none ∧ (b.val = 0x04 ∨ b.val = 0x06) ∧ s.dev.lgDram = false ∧
      s.dev.led.waiting = [] ∧ Tab.sorted (s.dev.grp (grpKey b.val (s.dev.selected a.id b.val))).staged = true ∧
      (∀ p ∈ (s.dev.grp (grpKey b.val (s.dev.selected a.id b.val))).staged, groupOf p.1 = some (grpKey b.val (s.dev.selected a.id b.val)))) ∧
    (∃ (s : State) (b g : Nat), (b = 0x04 ∨ b = 0x06) ∧ g < 256 ∧ (s.dev.grp (grpKey b g)).st = .pending ∧
      (s.dev.grp (grpKey b g)).mode = .atTime ∧ s.dev.due (s.dev.grp (grpKey b g)).target = true ∧
      dist ((s.dev.grp (grpKey b g)).goT + commitSetup b) (s.dev.grp (grpKey b g)).target ≥ 0 ∧ s.dev.lgDram = false ∧
      s.dev.led.waiting = [] ∧ Tab.sorted (s.dev.grp (grpKey b g)).staged = true ∧
      (∀ p ∈ (s.dev.grp (grpKey b g)).staged, groupOf p.1 = some (grpKey b g)) ∧ (s.dev.grpRecs (grpKey b g)).length ≤ 4032) ∧
    (∃ (s : State) (a : Agent) (b : Fin 64) (v : Word), s.dev.grpOpen a.id b.val = true ∧ wordBit v 31 = true ∧ v.toNat % 4 = 0 ∧
      s.dev.goRefusal a.id (grpKey b.val (s.dev.selected a.id b.val)) 0 = none ∧ (b.val = 0x04 ∨ b.val = 0x06) ∧ s.dev.lgDram = false ∧
      s.dev.led.waiting = [] ∧ Tab.sorted (s.dev.grp (grpKey b.val (s.dev.selected a.id b.val))).staged = true ∧
      (∀ p ∈ (s.dev.grp (grpKey b.val (s.dev.selected a.id b.val))).staged, groupOf p.1 = some (grpKey b.val (s.dev.selected a.id b.val)))) ∧
    (∃ (s : State) (b g : Nat), (b = 0x04 ∨ b = 0x06) ∧ g < 256 ∧ (s.dev.grp (grpKey b g)).st = .pending ∧
      (s.dev.grp (grpKey b g)).mode = .atTime ∧ s.dev.due (s.dev.grp (grpKey b g)).target = true ∧
      dist ((s.dev.grp (grpKey b g)).goT + commitSetup b) (s.dev.grp (grpKey b g)).target < 0 ∧ s.dev.lgDram = false ∧
      s.dev.led.waiting = [] ∧ Tab.sorted (s.dev.grp (grpKey b g)).staged = true ∧
      (∀ p ∈ (s.dev.grp (grpKey b g)).staged, groupOf p.1 = some (grpKey b g)) ∧ (s.dev.grpRecs (grpKey b g)).length ≤ 4032) :=
  ⟨⟨mkS fun d =>
      ((d.setFld (LOOP.SLOT_CFG_MODE 0) 1).setGrp 0x1800 { st := .claimed, owner := 0 }), .loader, 0x18, 0x80000000, by decide +kernel⟩,
   ⟨mkS fun d => d.setGrp 0x400 { st := .claimed, owner := 0, atT := 0x1000 }, .loader, 4, 0x80000001, by decide +kernel⟩,
   ⟨mkS fun d =>
      d.setGrp 0x400 { st := .claimed, owner := 0, staged := [(FAULT.SAFE_GRP 0 0, 0x10)] }, .loader, 4, 0x80000002, by decide +kernel⟩,
   ⟨mkS fun d =>
      { d.setGrp 0x400 { st := .pending, mode := .atTime, owner := 0, staged := [(FAULT.SAFE_GRP 0 0, 0x10)], target := 0x10000 } with time := { milepost := 0x10000 } }, 4, 0, by decide +kernel⟩,
   ⟨mkS fun d =>
      d.setGrp 0x400 { st := .claimed, owner := 0, staged := [(FAULT.SAFE_GRP 0 0, 0x10)] }, .loader, 4, 0x80000000, by decide +kernel⟩,
   ⟨mkS fun d =>
      { d.setGrp 0x400 { st := .pending, mode := .atTime, owner := 0, staged := [(FAULT.SAFE_GRP 0 0, 0x10)], target := 0x1000, goT := 0x2000 } with time := { milepost := 0x10000 } }, 4, 0, by decide +kernel⟩⟩

/-- The hypotheses of clauses 1 to 10 of GlobalCommitAndSnapshots are met. -/
theorem witness_GlobalCommitAndSnapshots_1 :
    (∃ (s : State) (a : Agent) (n : Fin 64) (v : Word), s.dev.takes a.id (SYS.GC_LIST n) v = true ∧ s.dev.gcState = 0) ∧
    (∃ (s : State) (a : Agent) (v : DWord), s.dev.takesWide a.id SYS.GC_AT v = true ∧ s.dev.gcState = 0) ∧
    (∃ (s : State) (a : Agent) (v : Word), s.dev.takes a.id SYS.GC_CTRL v = true ∧ wordBit v 31 = true ∧ wordBit v 0 = true ∧
      s.dev.gcOwner = a.id) ∧
    (∃ (s : State) (a : Agent) (v : Word) (k : Nat) (g : GlobalCommit), s.dev.takes a.id SYS.GC_CTRL v = true ∧ wordBit v 30 = true ∧
      s.dev.gc = some g ∧ k ∈ g.groups) ∧
    (∃ (s : State) (a : Agent) (v : Word), s.dev.takes a.id SYS.GC_CTRL v = true ∧ wordBit v 29 = true) ∧
    (∃ (s : State) (g : GlobalCommit), s.dev.gc = some g ∧ g.groups = [] ∧ g.late = false ∧ s.dev.due g.applyAt = true ∧ s.dev.led.waiting = []) ∧
    (∃ (s : State) (g : GlobalCommit) (k : Nat), s.dev.gc = some g ∧ g.groups = [k] ∧ (k / 256 = 0x04 ∨ k / 256 = 0x06) ∧ g.late = false ∧
      s.dev.due g.applyAt = true ∧ s.dev.lgDram = false ∧ s.dev.led.waiting = [] ∧ s.dev.regulated = true ∧
      Tab.sorted (s.dev.grp k).staged = true ∧ (∀ p ∈ (s.dev.grp k).staged, groupOf p.1 = some k)) ∧
    (∃ (s : State) (a : Agent) (v : Word), s.dev.takes a.id SYS.SNAP_CTRL v = true ∧ wordBit v 0 = true ∧ wordBit v 1 = false ∧ s.dev.snap = none) ∧
    (∃ (s : State) (x : Snapshot), s.dev.snap = some x ∧ x.mask = 0 ∧ x.late = false ∧ s.dev.due x.latchAt = true) ∧
    (∃ (s : State) (x : Snapshot) (o : Nat), s.dev.snap = some x ∧ x.mask = 0x100000000 ∧ x.late = false ∧ o < 32 ∧ s.dev.due x.latchAt = true) :=
  ⟨⟨mkS fun d => d, .loader, 63, 0x80000400, by decide +kernel⟩,
   ⟨mkS fun d => d, .loader, 0xFFFFFFFFFFFFFFFF, by decide +kernel⟩,
   ⟨mkS fun d =>
      ((d.setReg (SYS.GC_LIST 3) 0x80000400).gcShow 1 0).setGrp 0x400 { st := .claimed, owner := 0 }, .loader, 0x80000001, by decide +kernel⟩,
   ⟨mkS fun d =>
      { (d.gcShow 2 0).setGrp 0x400 { st := .global, owner := 0, staged := [(FAULT.SAFE_GRP 0 0, 1)] } with gc := some { groups := [0x400] } }, .loader, 0x40000000, 0x400, { groups := [0x400] }, by decide +kernel⟩,
   ⟨mkS fun d => (d.setReg (SYS.GC_LIST 3) 0x80000400).gcShow 1 0, .loader, 0x20000000, by decide +kernel⟩,
   ⟨mkS fun d =>
      { d.gcShow 2 0 with gc := some { applyAt := 64, target := 64 }, time := { milepost := 64 } }, { applyAt := 64, target := 64 }, by decide +kernel⟩,
   ⟨mkS fun d =>
      { ((d.gcShow 2 0).setFld NVM.BOOT_STATUS_STATE 2).setGrp 0x400 { st := .global, owner := 0, staged := [(FAULT.SAFE_GRP 0 0, 1)] } with gc := some { groups := [0x400], applyAt := 64, target := 64 }, time := { milepost := 64 } }, { groups := [0x400], applyAt := 64, target := 64 }, 0x400, by decide +kernel⟩,
   ⟨mkS fun d => d, .loader, 1, by decide +kernel⟩,
   ⟨mkS fun d =>
      { d.setNum SYS.SNAP_STATUS 0xFFFF0001 with snap := some ⟨0, 64, 64, false⟩, time := { milepost := 64 } }, ⟨0, 64, 64, false⟩, by decide +kernel⟩,
   ⟨mkS fun d =>
      { d.setNum (outNow 31) 77 with snap := some ⟨0x100000000, 64, 64, false⟩, time := { milepost := 64 } }, ⟨0x100000000, 64, 64, false⟩, 31, by decide +kernel⟩⟩

/-- The hypotheses of clauses 1 to 9 of SupplyCommands are met. -/
theorem witness_SupplyCommands_1 :
    (∃ (s : State), s.dev.phase = .off) ∧
    (∃ (s : State), s.dev.phase = .insertion) ∧
    (∃ (s : State), s.dev.phase = .ramp) ∧
    (∃ (s : State), s.dev.loss = none) ∧
    (∃ (s : State) (l : PowerLoss), s.dev.loss = some l ∧ l.written = none ∧ 3000 ≤ s.dev.num SUPPLY.MON_VINT) ∧
    (∃ (s : State), s.dev.phase = .good) ∧
    (∃ (s : State) (t : Time), s.dev.sup.vinSince = some t ∧ s.dev.due (t + nsT 1000000) = true) ∧
    (∃ (s : State) (l : PowerLoss) (t : Time), s.dev.loss = some l ∧ l.written = some t) ∧
    (∃ (s : State) (l : PowerLoss) (t a : Time), s.dev.loss = some l ∧ l.written = some t ∧ l.above = some a ∧
      s.dev.due (laterT t a + nsT 1000000) = true) :=
  ⟨⟨mkS fun d =>
      { d.setNum SYS.CLAIM_LIMIT 5 with phase := .off, freeCount := 3, flash := { nor := [(3, 0)], since := 5 } }, by decide +kernel⟩,
   ⟨mkS fun d => { d with phase := .insertion }, by decide +kernel⟩,
   ⟨mkS fun d => { d with phase := .ramp }, by decide +kernel⟩,
   ⟨mkS fun d => { d with phase := .good, freeCount := 3, tapIr := 5 }, by decide +kernel⟩,
   ⟨mkS fun d =>
      { d.setNum SUPPLY.MON_VINT 3000 with loss := some ⟨1, 2, 3, 4, 5, false, false, none, none⟩ }, ⟨1, 2, 3, 4, 5, false, false, none, none⟩, by decide +kernel⟩,
   ⟨mkS fun d => { d.setNum SYS.CLAIM_LIMIT 5 with phase := .good, domUp := [57, 0], freeCount := 1 }, by decide +kernel⟩,
   ⟨mkS fun d => { d with sup := { vinSince := some 0 }, time := { milepost := nsT 1000000 } }, 0, by decide +kernel⟩,
   ⟨mkS fun d =>
      { d.setNum SYS.CLAIM_LIMIT 5 with loss := some ⟨1, 2, 3, 4, 5, false, false, some 7, none⟩, phase := .good }, ⟨1, 2, 3, 4, 5, false, false, some 7, none⟩, 7, by decide +kernel⟩,
   ⟨mkS fun d =>
      { (d.setNum SUPPLY.MON_VIN 1200).setFld SUPPLY.VIN_FAIL_CFG_THRESH 200 with loss := some ⟨1, 2, 3, 4, 5, false, false, some 0, some 64⟩, phase := .good, time := { milepost := nsT 1000001 } }, ⟨1, 2, 3, 4, 5, false, false, some 0, some 64⟩, 0, 64, by decide +kernel⟩⟩

/-- The hypotheses of clauses 1 to 12 of LoaderCommands are met. -/
theorem witness_LoaderCommands_1 :
    (∃ (s : State), s.dev.phase = .rails) ∧
    (∃ (s : State), s.dev.phase = .rails) ∧
    (∃ (s : State) (l : List Bool), s.dev.phase = .rails) ∧
    (∃ (s : State) (f : FlashStart), s.dev.phase = .pinReset ∧ (f = .silent ∨ f = .unswitched)) ∧
    (∃ (s : State) (l : Loader) (x : List Bool), s.dev.loader = some l ∧ l.wait = some .read ∧ l.copyB = false ∧ l.applied = false ∧
      s.dev.due (l.since + nsT 10000) = true ∧ s.dev.flash.strobes = false :: x) ∧
    (∃ (s : State) (l : Loader), s.dev.loader = some l ∧ l.wait = some .read ∧ l.copyB = true ∧ l.applied = false ∧
      s.dev.due (l.since + nsT 10000) = true) ∧
    (∃ (s : State) (l : Loader) (k : Nat) (v : Word) (x : Bool), s.dev.loader = some l ∧ l.wait = some (.poll k v x) ∧ l.copyB = true ∧
      l.applied = true ∧ s.dev.due (l.since + nsT 10000000) = true) ∧
    (∃ (s : State) (l : Loader) (o n : Nat) (x : Word) (k : Nat) (v : Word) (y : Bool), s.dev.loader = some l ∧ l.cur = some (o, n) ∧ 8 ≤ n ∧
      s.dev.bytes (cutBase + o) 8 = [0, 3, 0, 0] ++ toBytes 4 x.toNat ∧ x ≠ 0 ∧ l.wait = some (.poll k v y) ∧ s.dev.pollMet k v y = true) ∧
    (∃ (s : State) (l : Loader) (o n : Nat) (x : Word), s.dev.loader = some l ∧ l.cur = some (o, n) ∧ 8 ≤ n ∧
      s.dev.bytes (cutBase + o) 8 = [0, 3, 0, 0] ++ toBytes 4 x.toNat ∧ x ≠ 0 ∧ l.wait = some .delay ∧ s.dev.due l.until_ = true ∧
      s.dev.led.waiting = []) ∧
    (∃ (s : State) (l : Loader), s.dev.loader = some l ∧ l.wait = some .tie ∧
      (s.dev.flag TIE.TIE_STATUS_ALIGNED = true ∨ s.dev.tieMaster = true) ∧ s.dev.takes 0 SYS.GC_CTRL 0x80000001 = true ∧ s.dev.gcOwner = 0) ∧
    (∃ (s : State) (l : Loader), s.dev.loader = some l ∧ l.wait = some .tie ∧ s.dev.due l.until_ = true ∧
      s.dev.takes 0 SYS.GC_CTRL 0x80000001 = true ∧ s.dev.gcOwner = 0) ∧
    (∃ (s : State) (c m base n : Nat), memDomain c = some (m, base, n) ∧ s.dev.domUp.contains m = true ∧ s.dev.domReady m = false) :=
  ⟨⟨mkS fun d => { d with phase := .rails }, by decide +kernel⟩,
   ⟨mkS fun d => { d with phase := .rails }, by decide +kernel⟩,
   ⟨mkS fun d => { d with phase := .rails }, [], by decide +kernel⟩,
   ⟨mkS fun d => { d with phase := .pinReset }, .unswitched, by decide +kernel⟩,
   ⟨mkS fun d =>
      { d with loader := some { wait := some .read }, flash := { strobes := [false, true] }, time := { milepost := nsT 10000 } }, { wait := some .read }, [true], by decide +kernel⟩,
   ⟨mkS fun d =>
      { d with loader := some { copyB := true, wait := some .read }, time := { milepost := nsT 10000 } }, { copyB := true, wait := some .read }, by decide +kernel⟩,
   ⟨mkS fun d =>
      { (d.setNum (LOOP.SLOT_CFG 3) 5).setNum (PWM.TIM_CFG 3) 5 with loader := some { copyB := true, wait := some (.poll 4 5 true), applied := true }, tims := [(3, {})], time := { milepost := nsT 10000000 } }, { copyB := true, wait := some (.poll 4 5 true), applied := true }, 4, 5, true, by decide +kernel⟩,
   ⟨mkS fun d =>
      { d.setBytes (cutBase + 0x200) [0, 3, 0, 0, 100, 0, 0, 0] with loader := some { wait := some (.poll 0x20000 0 false), cur := some (0x200, 16), applied := true } }, { wait := some (.poll 0x20000 0 false), cur := some (0x200, 16), applied := true }, 0x200, 16, 100, 0x20000, 0, false, by decide +kernel⟩,
   ⟨mkS fun d =>
      { d.setBytes (cutBase + 0x200) [0, 3, 0, 0, 100, 0, 0, 0] with loader := some { wait := some .delay, cur := some (0x200, 16), applied := true } }, { wait := some .delay, cur := some (0x200, 16), applied := true }, 0x200, 16, 100, by decide +kernel⟩,
   ⟨mkS fun d =>
      { (((d.setReg (SYS.GC_LIST 3) 0x80000400).gcShow 1 0).setGrp 0x400 { st := .claimed, owner := 0 }).setFld TIE.TIE_STATUS_ALIGNED 1 with loader := some { wait := some .tie } }, { wait := some .tie }, by decide +kernel⟩,
   ⟨mkS fun d =>
      { (((d.setReg (SYS.GC_LIST 3) 0x80000400).gcShow 1 0).setGrp 0x400 { st := .claimed, owner := 0 }) with loader := some { wait := some .tie } }, { wait := some .tie }, by decide +kernel⟩,
   ⟨mkS fun d => { d with domUp := [8] }, 8, 8, 0x10000000, 0x100000, by decide +kernel⟩⟩

/-- The hypotheses of clauses 1 to 5 of PowerLossCommands are met. -/
theorem witness_PowerLossCommands_1 :
    (∃ (s : State) (v : Nat), s.dev.sup.armed = true ∧ v < s.dev.fld SUPPLY.VIN_FAIL_CFG_THRESH * 5) ∧
    (∃ (s : State) (l : PowerLoss), s.dev.loss = some l ∧ l.written = none ∧ s.dev.flash.ops = [] ∧ s.dev.flag NVM.WP_STATUS_ARMED = true ∧
      s.dev.norBlank flashWaypoint = true) ∧
    (∃ (s : State) (l : PowerLoss), s.dev.loss = some l ∧ l.written = none ∧ s.dev.flash.ops = [] ∧ s.dev.flag NVM.WP_STATUS_ARMED = false) ∧
    (∃ (s : State) (a : Agent) (v : Word), s.dev.takes a.id NVM.WP_CTRL v = true ∧ wordBit v 0 = true) ∧
    (∃ (s : State), s.dev.flash.wpErase = true) :=
  ⟨⟨mkS fun d => { d.setFld SUPPLY.VIN_FAIL_CFG_THRESH 200 with sup := { armed := true }, tims := [(0, {})] }, 999, by decide +kernel⟩,
   ⟨mkS fun d =>
      { (d.setFld NVM.WP_STATUS_ARMED 1).setFld NVM.WP_STATUS_READY 1 with loss := some ⟨0x123456789, 2, 3, 4, 5, true, false, none, none⟩ }, ⟨0x123456789, 2, 3, 4, 5, true, false, none, none⟩, by decide +kernel⟩,
   ⟨mkS fun d => { d with loss := some ⟨1, 2, 3, 4, 5, true, false, none, none⟩ }, ⟨1, 2, 3, 4, 5, true, false, none, none⟩, by decide +kernel⟩,
   ⟨mkS fun d => d.setReg (PROTECT.BLK_PERM 9) 0xFFFFFFFF, .host, 1, by decide +kernel⟩,
   ⟨mkS fun d =>
      { d.setFld NVM.BOOT_STATUS_STATE 2 with flash := { wpErase := true, nor := [(5, 0), (flashWaypoint + 3, 0)] } }, by decide +kernel⟩⟩

/-- The hypotheses of clauses 1 to 9 of FlashCommands are met. -/
theorem witness_FlashCommands_1 :
    (∃ (s : State) (a : Agent) (v : Word), s.dev.takes a.id NVM.FL_CTRL v = true ∧ v.toNat % 16 = 1) ∧
    (∃ (s : State) (a : Agent) (v : Word), s.dev.takes a.id NVM.FL_CTRL v = true ∧ v.toNat % 16 = 2) ∧
    (∃ (s : State) (a : Agent) (v : Word), s.dev.takes a.id NVM.FL_CTRL v = true ∧ v.toNat % 16 = 3) ∧
    (∃ (s : State) (a : Agent) (v : Word), s.dev.takes a.id NVM.FL_CTRL v = true ∧ v.toNat % 16 = 4) ∧
    (∃ (s : State) (x : FlashOp) (rest : List FlashOp), s.dev.flash.ops = x :: rest ∧ x.op = .erase ∧ x.addr % 4096 = 0 ∧
      s.dev.flash.answers = true) ∧
    (∃ (s : State) (x : FlashOp) (rest : List FlashOp), s.dev.flash.ops = x :: rest ∧ x.op = .erase ∧ x.addr % 4096 ≠ 0) ∧
    (∃ (s : State) (x : FlashOp) (rest : List FlashOp), s.dev.flash.ops = x :: rest ∧ x.op = .program ∧ x.len = 0) ∧
    (∃ (s : State) (x : FlashOp) (rest : List FlashOp), s.dev.flash.ops = x :: rest ∧ x.op = .read ∧ 1 ≤ x.len ∧ x.len ≤ 65536 ∧
      s.dev.flash.answers = true ∧ 0x10000000 ≤ x.buf ∧ x.buf + x.len ≤ 0x10800000 ∧ s.dev.rangeOpen x.agent x.buf x.len true = true) ∧
    (∃ (s : State) (x : FlashOp) (rest : List FlashOp), s.dev.flash.ops = x :: rest ∧ x.op = .program ∧ 1 ≤ x.len ∧ x.len ≤ 256 ∧
      x.addr / 256 = (x.addr + (x.len - 1)) / 256 ∧ s.dev.flash.answers = true ∧ 0x10000000 ≤ x.buf ∧ x.buf + x.len ≤ 0x10800000 ∧
      s.dev.ecc = [] ∧ s.dev.rangeOpen x.agent x.buf x.len false = true) :=
  ⟨⟨mkS fun d => d.setReg (PROTECT.BLK_PERM 9) 0xFFFFFFFF, .host, 257, by decide +kernel⟩,
   ⟨mkS fun d => d.setReg (PROTECT.BLK_PERM 9) 0xFFFFFFFF, .host, 258, by decide +kernel⟩,
   ⟨mkS fun d => d.setReg (PROTECT.BLK_PERM 9) 0xFFFFFFFF, .host, 259, by decide +kernel⟩,
   ⟨mkS fun d => d.setReg (PROTECT.BLK_PERM 9) 0xFFFFFFFF, .host, 260, by decide +kernel⟩,
   ⟨mkS fun d =>
      { d with flash := { ops := [{ op := .erase, addr := 0x901000, len := 0, buf := 0, copyB := false, agent := 0 }], nor := [(0x901FFF, 7), (0x902000, 7)] } }, { op := .erase, addr := 0x901000, len := 0, buf := 0, copyB := false, agent := 0 }, [], by decide +kernel⟩,
   ⟨mkS fun d =>
      { d with flash := { ops := [{ op := .erase, addr := 0x901100, len := 0, buf := 0, copyB := false, agent := 0 }] } }, { op := .erase, addr := 0x901100, len := 0, buf := 0, copyB := false, agent := 0 }, [], by decide +kernel⟩,
   ⟨mkS fun d =>
      { d with flash := { ops := [{ op := .program, addr := 0x901100, len := 0, buf := 0, copyB := false, agent := 0 }] } }, { op := .program, addr := 0x901100, len := 0, buf := 0, copyB := false, agent := 0 }, [], by decide +kernel⟩,
   ⟨mkS fun d =>
      { (d.setFld MEMCTL.SRAM_STATUS_READY 255) with flash := { ops := [{ op := .read, addr := 0x3, len := 4, buf := 0x10000001, copyB := false, agent := 0 }], nor := [(4, 0x55)] }, domUp := [8] }, { op := .read, addr := 0x3, len := 4, buf := 0x10000001, copyB := false, agent := 0 }, [], by decide +kernel⟩,
   ⟨mkS fun d =>
      { (d.setFld MEMCTL.SRAM_STATUS_READY 255).setBytes 0x10000001 [0xF0, 0xFF, 1, 2] with flash := { ops := [{ op := .program, addr := 0x901000, len := 4, buf := 0x10000001, copyB := false, agent := 0 }], nor := [(0x901000, 0x55)] }, domUp := [8] }, { op := .program, addr := 0x901000, len := 4, buf := 0x10000001, copyB := false, agent := 0 }, [], by decide +kernel⟩⟩

/-- The hypotheses of clauses 1 to 7 of JournalCommands are met. -/
theorem witness_JournalCommands_1 :
    (∃ (s : State) (e : JEntry) (q : List JEntry), s.dev.flash.queue = e :: q ∧ e.typ ≠ .cpEnd ∧ e.body.length ≤ 48 ∧
      s.dev.flash.unmarked = none ∧ s.dev.placeBlank s.dev.flash.headAt = true ∧ s.dev.led.fresh = []) ∧
    (∃ (s : State) (e : JEntry) (q : List JEntry), s.dev.flash.queue = e :: q ∧
      (s.dev.flash.unmarked ≠ none ∨ s.dev.placeBlank s.dev.flash.headAt = false)) ∧
    (∃ (s : State) (k : Nat) (t : JType), s.dev.flash.unmarked = some (k, t) ∧ (t = .persist ∨ t = .mirror) ∧ s.dev.flash.since < 2047) ∧
    (∃ (s : State) (x : Nat) (r : List Nat), s.dev.toErase = x :: r) ∧
    (∃ (s : State) (a : Agent) (v : Word), s.dev.takes a.id NVM.JNL_CTRL v = true ∧ wordBit v 0 = true ∧ wordBit v 1 = false) ∧
    (∃ (s : State) (a : Agent) (v : Word), s.dev.takes a.id NVM.JNL_CTRL v = true ∧ wordBit v 1 = true ∧ wordBit v 0 = false) ∧
    (∃ (s : State), s.dev.fld NVM.JNL_CTRL_CALIB_MIN ≠ 0 ∧ s.dev.due s.dev.flash.calibAt = true ∧ s.dev.led.fresh = []) :=
  ⟨⟨mkS fun d =>
      { d.setNum NVM.JNL_NEXT_SEQ 0xFFFFFFFF with flash := { queue := [⟨.persist, [1, 2, 3]⟩], headAt := 1023 } }, ⟨.persist, [1, 2, 3]⟩, [], by decide +kernel⟩,
   ⟨mkS fun d =>
      { d with flash := { queue := [⟨.persist, [1, 2, 3]⟩], unmarked := some (0x801000, .persist) } }, ⟨.persist, [1, 2, 3]⟩, [], by decide +kernel⟩,
   ⟨mkS fun d => { d with flash := { unmarked := some (0x801040, .persist), headAt := 2 } }, 0x801040, .persist, by decide +kernel⟩,
   ⟨mkS fun d => { d with flash := { nor := [(0x802000, 5)] } }, 1, [], by decide +kernel⟩,
   ⟨mkS fun d => { d.setReg (PROTECT.BLK_PERM 9) 0xFFFFFFFF with flash := { persisted := [0x1800] } }, .host, 0x100001, by decide +kernel⟩,
   ⟨mkS fun d => { d.setReg (PROTECT.BLK_PERM 9) 0xFFFFFFFF with trued := [(3, [1, 2])] }, .host, 0x100002, by decide +kernel⟩,
   ⟨mkS fun d => { d.setFld NVM.JNL_CTRL_CALIB_MIN 5 with trued := [(3, [1, 2])] }, by decide +kernel⟩⟩

/-- The hypotheses of clauses 1 to 7 of AdcSampling are met. -/
theorem witness_AdcSampling_1 :
    (∃ (s : State) (c : Fin 96) (vd : Int), s.dev.adcRun c.val = 1 ∧ s.dev.adcMode c.val = 1 ∧ s.dev.due (s.dev.contNext c.val) = true) ∧
    (∃ (s : State) (c : Fin 96) (vd : Int) (g : TrigAt) (rest : List TrigAt), s.dev.adcRun c.val = 1 ∧ s.dev.adcMode c.val = 2 ∧
      (s.dev.adc c.val).trigs = g :: rest ∧ s.dev.due g.at_ = true ∧ g.late = none) ∧
    (∃ (s : State) (c : Fin 96) (vd : Int) (g : TrigAt) (rest : List TrigAt) (t : Time), s.dev.adcRun c.val = 1 ∧ s.dev.adcMode c.val = 2 ∧
      (s.dev.adc c.val).trigs = g :: rest ∧ s.dev.due g.at_ = true ∧ g.late = some t) ∧
    (∃ (s : State) (c : Fin 96) (vd : Int), s.dev.adcRun c.val = 1 ∧ s.dev.adcMode c.val = 3 ∧ s.dev.due (s.dev.timedAt c.val) = true ∧
      before (s.dev.timedTarget c.val) (s.dev.timedAt c.val) = false ∧ s.dev.fld (ADC.CH_SCHED_BEHIND c.val) = 0) ∧
    (∃ (s : State) (c : Fin 96) (vd : Int), s.dev.adcRun c.val = 1 ∧ s.dev.adcMode c.val = 3 ∧ s.dev.due (s.dev.timedAt c.val) = true ∧
      before (s.dev.timedTarget c.val) (s.dev.timedAt c.val) = false ∧ s.dev.fld (ADC.CH_SCHED_BEHIND c.val) = 0) ∧
    (∃ (s : State) (c : Fin 96) (n : Nat) (p : Nat × Time), s.dev.adcTrig.find? (fun y => decide (y.1 = c.val)) = some p ∧
      s.dev.adcRun c.val = 1 ∧ s.dev.adcMode c.val = 2 ∧ (s.dev.adc c.val).trigs = [] ∧ (s.dev.adc c.val).prev = none ∧
      dist (p.2 - nsT (max 1 n) + nsT 2) (p.2 + nsT (s.dev.fld (ADC.CH_TRIG_DELAY c.val))) ≥ 0) ∧
    (∃ (s : State) (c : Fin 96) (n : Nat) (p : Nat × Time), s.dev.adcTrig.find? (fun y => decide (y.1 = c.val)) = some p ∧
      s.dev.adcRun c.val = 1 ∧ s.dev.adcMode c.val = 2 ∧ (s.dev.adc c.val).trigs.any TrigAt.moved = true) :=
  ⟨⟨mkS fun d =>
      { ((d.setFld (ADC.CH_STATUS_RUN 95) 1).setFld (ADC.CH_CFG_MODE 95) 1).setFld (ADC.CH_CFG_DIV 95) 2 with time := { milepost := nsT 1000 } }, 95, 300000000, by decide +kernel⟩,
   ⟨mkS fun d =>
      { ((d.setFld (ADC.CH_STATUS_RUN 5) 1).setFld (ADC.CH_CFG_MODE 5) 2) with adcs := [(5, { trigs := [⟨128, false, none⟩] })], time := { milepost := nsT 1000 } }, 5, -300000000, ⟨128, false, none⟩, [], by decide +kernel⟩,
   ⟨mkS fun d =>
      { ((d.setFld (ADC.CH_STATUS_RUN 5) 1).setFld (ADC.CH_CFG_MODE 5) 2) with adcs := [(5, { trigs := [⟨128, false, some 64⟩] })], time := { milepost := nsT 1000 } }, 5, -300000000, ⟨128, false, some 64⟩, [], 64, by decide +kernel⟩,
   ⟨mkS fun d =>
      { (((d.setFld (ADC.CH_STATUS_RUN 5) 1).setFld (ADC.CH_CFG_MODE 5) 3).setFld (ADC.CH_SCHED_BEHIND 5) 0) with adcs := [(5, { sched := { t0 := 640, p := 64000, k := 1, target := 64640 } })], time := { milepost := nsT 2000 } }, 5, -300000000, by decide +kernel⟩,
   ⟨mkS fun d =>
      { (((d.setFld (ADC.CH_STATUS_RUN 5) 1).setFld (ADC.CH_CFG_MODE 5) 3).setFld (ADC.CH_SCHED_BEHIND 5) 0) with adcs := [(5, { sched := { t0 := 640, p := 64000, k := 1, target := 64640 } })], time := { milepost := nsT 2000 } }, 5, -300000000, by decide +kernel⟩,
   ⟨mkS fun d =>
      { ((d.setFld (ADC.CH_STATUS_RUN 5) 1).setFld (ADC.CH_CFG_MODE 5) 2) with adcTrig := [(5, 640)] }, 5, 2, (5, 640), by decide +kernel⟩,
   ⟨mkS fun d =>
      { ((d.setFld (ADC.CH_STATUS_RUN 5) 1).setFld (ADC.CH_CFG_MODE 5) 2) with adcTrig := [(5, 640)], adcs := [(5, { trigs := [⟨128, true, none⟩] })] }, 5, 2, (5, 640), by decide +kernel⟩⟩

/-- The hypotheses of clauses 1, 2, 3, 4, 5, 6, 7, 8, 9, 11, 12, 13 of AdcDelivery are met. -/
theorem witness_AdcDelivery_1 :
    (∃ (s : State) (c : Fin 96) (m : Sample) (rest : List Sample), (s.dev.adc c.val).conv = m :: rest ∧ s.dev.due (m.t + nsT 12) = true ∧
      (∀ n : Fin 32, s.dev.slotMode n.val = 0 ∧ (s.dev.slot n.val).defer = none) ∧ (∀ u : Fin 4, s.dev.trcState u.val = 0) ∧
      bitsOf m.cfg.toNat 1 0 = 0 ∧ bitOf m.strm.toNat 8 = false ∧ m.closes = false) ∧
    (∃ (s : State) (c : Fin 96) (m : Sample) (rest : List Sample), (s.dev.adc c.val).conv = m :: rest ∧ s.dev.due (m.t + nsT 12) = true ∧
      (∀ n : Fin 32, s.dev.slotMode n.val = 0 ∧ (s.dev.slot n.val).defer = none) ∧ (∀ u : Fin 4, s.dev.trcState u.val = 0) ∧
      bitsOf m.cfg.toNat 1 0 ≠ 0 ∧ m.past = false ∧ s.dev.flag (ADC.CH_STATUS_WIN_STATE c.val) = false ∧ m.inWindow = true ∧
      bitsOf m.cfg.toNat 15 8 ≤ (s.dev.adc c.val).winRun + 1 ∧ bitOf m.strm.toNat 8 = false ∧ m.closes = false) ∧
    (∃ (s : State) (c : Fin 96) (m : Sample) (rest : List Sample), (s.dev.adc c.val).conv = m :: rest ∧ s.dev.due (m.t + nsT 12) = true ∧
      (∀ n : Fin 32, s.dev.slotMode n.val = 0 ∧ (s.dev.slot n.val).defer = none) ∧ (∀ u : Fin 4, s.dev.trcState u.val = 0) ∧
      bitsOf m.cfg.toNat 1 0 ≠ 0 ∧ m.past = false ∧ s.dev.flag (ADC.CH_STATUS_WIN_STATE c.val) = true ∧ m.inWindow = false ∧
      bitsOf m.cfg.toNat 15 8 ≤ (s.dev.adc c.val).winRun + 1 ∧ bitOf m.strm.toNat 8 = false ∧ m.closes = false) ∧
    (∃ (s : State) (c : Fin 96) (m : Sample) (rest : List Sample), (s.dev.adc c.val).conv = m :: rest ∧ s.dev.due (m.t + nsT 12) = true ∧
      (∀ n : Fin 32, s.dev.slotMode n.val = 0 ∧ (s.dev.slot n.val).defer = none) ∧ (∀ u : Fin 4, s.dev.trcState u.val = 0) ∧
      bitsOf m.cfg.toNat 1 0 = 0 ∧ bitOf m.strm.toNat 8 = true ∧ m.closes = false ∧ (s.dev.adc c.val).blkHalf = none ∧
      (s.dev.adc c.val).nextHalf ≤ 1 ∧ s.dev.fld (ADC.CH_STATUS_READY c.val) = 3) ∧
    (∃ (s : State) (c : Fin 96) (m : Sample) (rest : List Sample) (h : Nat), (s.dev.adc c.val).conv = m :: rest ∧
      s.dev.due (m.t + nsT 12) = true ∧ (∀ n : Fin 32, s.dev.slotMode n.val = 0 ∧ (s.dev.slot n.val).defer = none) ∧
      (∀ u : Fin 4, s.dev.trcState u.val = 0) ∧ bitsOf m.cfg.toNat 1 0 = 0 ∧ bitOf m.strm.toNat 8 = true ∧ m.closes = false ∧
      (s.dev.adc c.val).blkHalf = some h ∧ (s.dev.adc c.val).blkCount + 1 < (s.dev.adc c.val).blkLen) ∧
    (∃ (s : State) (c : Fin 96) (m : Sample) (rest : List Sample) (h : Nat), (s.dev.adc c.val).conv = m :: rest ∧
      s.dev.due (m.t + nsT 12) = true ∧ (∀ n : Fin 32, s.dev.slotMode n.val = 0 ∧ (s.dev.slot n.val).defer = none) ∧
      (∀ u : Fin 4, s.dev.trcState u.val = 0) ∧ bitsOf m.cfg.toNat 1 0 = 0 ∧ bitOf m.strm.toNat 8 = false ∧ m.closes = true ∧
      (s.dev.adc c.val).blkHalf = some h ∧ h ≤ 1 ∧ (s.dev.adc c.val).blkCount ≠ 0) ∧
    (∃ (s : State) (a : Agent) (c : Fin 96) (o n : Nat), o + n ≤ 0x400 ∧ wideRead (streamAddr c.val + o) n = true ∧
      s.dev.memMapped (streamAddr c.val + o) n = true ∧ s.dev.blkLevel a.id (0x10 + c.val / 16) ≠ 0 ∧
      bitOf (s.dev.fld (ADC.CH_STATUS_READY c.val)) (o / 0x200 % 2) = false) ∧
    (∃ (s : State) (a : Agent) (c : Fin 96) (o n : Nat), o + n ≤ 0x400 ∧ wideRead (streamAddr c.val + o) n = true ∧
      s.dev.memMapped (streamAddr c.val + o) n = true ∧ s.dev.blkLevel a.id (0x10 + c.val / 16) ≠ 0 ∧
      bitOf (s.dev.fld (ADC.CH_STATUS_READY c.val)) (o / 0x200 % 2) = true ∧ s.dev.ecc = []) ∧
    (∃ (s : State) (a : Agent) (c : Fin 96) (o n : Nat), (0x400 < o + n ∨ wideRead (streamAddr c.val + o) n = false ∨ s.dev.memMapped (streamAddr c.val + o) n = false ∨ s.dev.blkLevel a.id (0x10 + c.val / 16) = 0)) ∧
    (∃ (s : State) (a : Agent) (c : Fin 96) (v : Word), s.dev.takes a.id (ADC.CH_CLR c.val) v = true ∧ wordBit v 1 = true ∧ wordBit v 0 = false) ∧
    (∃ (s : State) (a : Agent) (c : Fin 96) (v : Word), s.dev.takes a.id (ADC.CH_CLR c.val) v = true ∧ wordBit v 0 = true ∧ wordBit v 1 = false) ∧
    (∃ (s : State) (h : Fin 12), s.dev.powered (36 + h.val) 20000 = true) :=
  ⟨⟨mkS fun d =>
      { d with adcs := [(7, { conv := [⟨0, 0x1238, 0x12345, 0, 0, 0, false, false⟩] })], time := { milepost := nsT 12 } }, 7, ⟨0, 0x1238, 0x12345, 0, 0, 0, false, false⟩, [], by decide +kernel⟩,
   ⟨mkS fun d =>
      { (d.setFld (ADC.CH_STATUS_WIN_STATE 7) 0) with adcs := [(7, { conv := [⟨0, 0x1230, 0x12345, 0x1000000, 1, 0, false, false⟩] })], time := { milepost := nsT 12 } }, 7, ⟨0, 0x1230, 0x12345, 0x1000000, 1, 0, false, false⟩, [], by decide +kernel⟩,
   ⟨mkS fun d =>
      { (d.setFld (ADC.CH_STATUS_WIN_STATE 7) 1) with adcs := [(7, { conv := [⟨0, 0x1230, 0x12345, 0x1000000, 0x12, 0, false, false⟩] })], time := { milepost := nsT 12 } }, 7, ⟨0, 0x1230, 0x12345, 0x1000000, 0x12, 0, false, false⟩, [], by decide +kernel⟩,
   ⟨mkS fun d =>
      { (d.setFld (ADC.CH_STATUS_READY 7) 3) with adcs := [(7, { conv := [⟨0, 0x1230, 0x12345, 0, 0, 0x101, false, false⟩] })], time := { milepost := nsT 12 } }, 7, ⟨0, 0x1230, 0x12345, 0, 0, 0x101, false, false⟩, [], by decide +kernel⟩,
   ⟨mkS fun d =>
      { d with adcs := [(7, { conv := [⟨0, 0x1230, 0x12345, 0, 0, 0x101, false, false⟩], blkHalf := some 1, blkLen := 8, blkCount := 3 })], time := { milepost := nsT 12 } }, 7, ⟨0, 0x1230, 0x12345, 0, 0, 0x101, false, false⟩, [], 1, by decide +kernel⟩,
   ⟨mkS fun d =>
      { d with adcs := [(7, { conv := [{ (⟨0, 0x1230, 0x12345, 0, 0, 0, false, false⟩ : Sample) with closes := true }], blkHalf := some 1, blkLen := 8, blkCount := 3, blkDrop := 2, blkFirst := 640 })], time := { milepost := nsT 12 } }, 7, { (⟨0, 0x1230, 0x12345, 0, 0, 0, false, false⟩ : Sample) with closes := true }, [], 1, by decide +kernel⟩,
   ⟨mkS fun d => (d.setMapBit SUPPLY.DOM_STATUS_0 38 true).setFld (ADC.CH_STATUS_READY 17) 1, .loader, 17, 0x200, 8, by decide +kernel⟩,
   ⟨mkS fun d =>
      { ((d.setMapBit SUPPLY.DOM_STATUS_0 38 true).setFld (ADC.CH_STATUS_READY 17) 3).setBytes (streamAddr 17 + 0x20C) [1, 2, 3, 4] with adcs := [(17, { cnt1 := 8 })] }, .loader, 17, 0x20C, 4, by decide +kernel⟩,
   ⟨mkS fun d => d, .loader, 17, 0x3FC, 8, by decide +kernel⟩,
   ⟨mkS fun d => d.setFld (ADC.CH_STATUS_READY 17) 3, .loader, 17, 2, by decide +kernel⟩,
   ⟨mkS fun d => d.setNum (ADC.CH_DROPS 17) 3, .loader, 17, 1, by decide +kernel⟩,
   ⟨mkS fun d =>
      { (d.setFld (ADC.CH_STATUS_RUN 95) 2).setNum (ADC.CH_COUNT 95) 5 with domUp := [47], sup := { upAt := [(47, 0)] }, time := { milepost := nsT 20000 } }, 11, by decide +kernel⟩⟩

/-- The hypotheses of clauses 14 to 16 of AdcDelivery are met. -/
theorem witness_AdcDelivery_14 :
    (∃ (s : State) (h : Fin 12), s.dev.fld (ADC.TRUE_CTRL_MODE (h.val / 2)) = 0 ∧ s.dev.halfReady h.val = true ∧
      (s.dev.half h.val).subject = none ∧ (s.dev.half h.val).stopped = false ∧ (s.dev.half h.val).failed = none ∧
      (s.dev.half h.val).next ≤ 8 ∧ s.dev.due (s.dev.half h.val).nextAt = true) ∧
    (∃ (s : State) (h : Fin 12) (o g : Int) (i : Nat), (s.dev.half h.val).subject = some i ∧ i ≤ 8 ∧
      s.dev.due (s.dev.half h.val).doneAt = true ∧ o.natAbs ≤ 512 ∧ g.natAbs * 50 ≤ 65536) ∧
    (∃ (s : State) (h : Fin 12) (o g : Int) (i : Nat), (s.dev.half h.val).subject = some i ∧ i ≤ 8 ∧
      s.dev.due (s.dev.half h.val).doneAt = true ∧ (512 < o.natAbs ∨ 65536 < g.natAbs * 50)) :=
  ⟨⟨mkS fun d => { d.setFld (ADC.BLK_STATUS_HALF1_READY 1) 1 with adcHalves := [(3, { next := 4 })] }, 3, by decide +kernel⟩,
   ⟨mkS fun d => { d with adcHalves := [(3, { subject := some 4 })] }, 3, -512, 1310, 4, by decide +kernel⟩,
   ⟨mkS fun d => { d with adcHalves := [(3, { subject := some 4 })] }, 3, -513, 0, 4, by decide +kernel⟩⟩

/-- The hypotheses of clauses 1 to 9 of ComparatorTrips are met. -/
theorem witness_ComparatorTrips_1 :
    (∃ (s : State) (n : Fin 192) (vd : Int), s.dev.service n.val = 1 ∧ (∀ t : Fin 48, s.dev.tripEn t.val 0 = false ∧
      s.dev.tripEn t.val 1 = false) ∧ s.dev.pairing n.val = 0 ∧
      (s.dev.fld (COMP.CMP_CFG_FILT n.val) = 0 ∨ s.dev.compOut n.val vd (s.dev.outBit n.val) = false)) ∧
    (∃ (s : State) (n : Fin 192) (vd : Int), s.dev.service n.val = 1 ∧ s.dev.compMode n.val ≠ 0 ∧ s.dev.compBelow n.val = false ∧
      sext 10 (s.dev.fld (COMP.CMP_REF_REF n.val)) * s.dev.lsb2 n.val < 2 * vd) ∧
    (∃ (s : State) (n : Fin 192) (vd : Int), s.dev.service n.val = 1 ∧ (∀ t : Fin 48, s.dev.tripEn t.val 0 = false ∧
      s.dev.tripEn t.val 1 = false) ∧ s.dev.pairing n.val = 0 ∧ s.dev.compOut n.val vd (s.dev.outBit n.val) = true ∧
      s.dev.fld (COMP.CMP_CFG_FILT n.val) ≠ 0 ∧ (s.dev.comp n.val).contrib = false ∧ (s.dev.comp n.val).riseAt = none) ∧
    (∃ (s : State) (n : Fin 192) (vd : Int), s.dev.service n.val = 4) ∧
    (∃ (s : State) (n : Fin 192) (t : Time), s.dev.service n.val = 1 ∧ (∀ t : Fin 48, s.dev.tripEn t.val 0 = false ∧
      s.dev.tripEn t.val 1 = false) ∧ s.dev.pairing n.val = 0 ∧ s.dev.outBit n.val = true ∧ (s.dev.comp n.val).riseAt = some t ∧
      s.dev.due (t + nsT (if s.dev.fld (COMP.CMP_CFG_FILT n.val) = 0 then 0 else 2 ^ s.dev.fld (COMP.CMP_CFG_FILT n.val))) = true) ∧
    (∃ (s : State) (n : Fin 192) (vd : Int), s.dev.service n.val = 3 ∧ s.dev.due (s.dev.comp n.val).settleEnd = true ∧
      (∀ t : Fin 48, s.dev.tripEn t.val 0 = false ∧ s.dev.tripEn t.val 1 = false)) ∧
    (∃ (s : State) (c : Fin 96) (t : Time), (s.dev.comp (2 * c.val)).disSince = some t ∧ (s.dev.comp (2 * c.val)).disArmed = true ∧
      before (t + nsT (s.dev.fld (COMP.PAIR_CFG_DIS_TIME (2 * c.val)) * (if s.dev.flag (COMP.PAIR_CFG_DIS_SCALE (2 * c.val)) then 1000 else 10))) (s.dev.now ||| 63) = true) ∧
    (∃ (s : State) (k : Fin 4), s.dev.powered (48 + k.val) 10000 = true ∧ (∀ t : Fin 48, s.dev.tripEn t.val 0 = false ∧
      s.dev.tripEn t.val 1 = false)) ∧
    (∃ (s : State) (a : Agent) (n : Fin 192) (v : Word), s.dev.takes a.id (COMP.CMP_TEST n.val) v = true ∧ wordBit v 8 = true ∧ v.toNat % 8 = 0) :=
  ⟨⟨mkS fun d =>
      (((d.setFld (COMP.CMP_STATUS_SERVICE 101) 1).setFld (COMP.CMP_CFG_MODE 101) 1).setFld (COMP.PAIR_CFG_TRIP_EN 100) 1).setFld (COMP.CMP_CFG_FILT 101) 0, 101, 300000000, by decide +kernel⟩,
   ⟨mkS fun d => ((d.setFld (COMP.CMP_STATUS_SERVICE 101) 1).setFld (COMP.CMP_CFG_MODE 101) 1), 101, 1, by decide +kernel⟩,
   ⟨mkS fun d =>
      (((d.setFld (COMP.CMP_STATUS_SERVICE 101) 1).setFld (COMP.CMP_CFG_MODE 101) 1).setFld (COMP.CMP_CFG_FILT 101) 2), 101, 300000000, by decide +kernel⟩,
   ⟨mkS fun d => ((d.setFld (COMP.CMP_STATUS_SERVICE 101) 4).setFld (COMP.CMP_CFG_MODE 101) 1), 101, 300000000, by decide +kernel⟩,
   ⟨mkS fun d =>
      { (((d.setFld (COMP.CMP_STATUS_SERVICE 190) 1).setFld (COMP.CMP_STATUS_OUT 190) 1).setFld (COMP.CMP_CFG_FILT 190) 2).setFld (COMP.PAIR_CFG_TRIP_EN 190) 1 with comps := [(190, { riseAt := some 0 })], time := { milepost := nsT 9000 } }, 190, 0, by decide +kernel⟩,
   ⟨mkS fun d => (d.setFld (COMP.CMP_STATUS_SERVICE 190) 3).setFld (COMP.CMP_CFG_MODE 190) 2, 190, 300000000, by decide +kernel⟩,
   ⟨mkS fun d =>
      { d.setFld (COMP.PAIR_CFG_DIS_TIME 190) 3 with comps := [(190, { disSince := some 0 })], time := { milepost := nsT 31 } }, 95, 0, by decide +kernel⟩,
   ⟨mkS fun d =>
      { (d.setFld (COMP.CMP_STATUS_SERVICE 191) 5).setFld (COMP.CMP_CFG_MODE 191) 3 with domUp := [51], sup := { upAt := [(51, 0)] }, time := { milepost := nsT 20000 } }, 3, by decide +kernel⟩,
   ⟨mkS fun d => d.setNum (COMP.CMP_COUNT 17) 3, .loader, 17, 0x100, by decide +kernel⟩⟩

/-- The hypotheses of clauses 1 to 9 of ComparatorTests are met. -/
theorem witness_ComparatorTests_1 :
    (∃ (s : State) (b : Fin 2) (i : Nat), (s.dev.compBlk b.val).test = none ∧ s.dev.flag (COMP.TEST_CTRL_HOLD b.val) = false ∧
      s.dev.due (s.dev.compBlk b.val).nextAt = true ∧ s.dev.testNext b.val = some i ∧ (∀ t : Fin 48, s.dev.tripEn t.val 0 = false ∧
      s.dev.tripEn t.val 1 = false)) ∧
    (∃ (s : State) (a : Agent) (n : Fin 192) (v : Word), s.dev.takes a.id (COMP.CMP_TEST n.val) v = true ∧ v.toNat % 8 = 1 ∧
      wordBit v 8 = false ∧ (∀ t : Fin 48, s.dev.tripEn t.val 0 = false ∧ s.dev.tripEn t.val 1 = false) ∧
      (s.dev.compBlk (n.val / 96)).test = none) ∧
    (∃ (s : State) (a : Agent) (n : Fin 192) (v : Word), s.dev.takes a.id (COMP.CMP_TEST n.val) v = true ∧ v.toNat % 8 = 2 ∧
      wordBit v 8 = false ∧ (∀ t : Fin 48, s.dev.tripEn t.val 0 = false ∧ s.dev.tripEn t.val 1 = false) ∧
      (s.dev.compBlk (n.val / 96)).test = none) ∧
    (∃ (s : State) (a : Agent) (n : Fin 192) (v : Word), s.dev.takes a.id (COMP.CMP_TEST n.val) v = true ∧ v.toNat % 8 = 3 ∧
      wordBit v 8 = false ∧ (∀ t : Fin 48, s.dev.tripEn t.val 0 = false ∧ s.dev.tripEn t.val 1 = false) ∧
      (s.dev.compBlk (n.val / 96)).test = none) ∧
    (∃ (s : State) (a : Agent) (n : Fin 192) (v : Word), s.dev.takes a.id (COMP.CMP_TEST n.val) v = true ∧ v.toNat % 8 = 4 ∧
      wordBit v 8 = false ∧ (∀ t : Fin 48, s.dev.tripEn t.val 0 = false ∧ s.dev.tripEn t.val 1 = false) ∧
      (s.dev.compBlk (n.val / 96)).test = none) ∧
    (∃ (s : State) (a : Agent) (n : Fin 192) (v : Word), s.dev.takes a.id (COMP.CMP_TEST n.val) v = true ∧ v.toNat % 8 = 4 ∧
      wordBit v 8 = false ∧ (s.dev.compBlk (n.val / 96)).test ≠ none) ∧
    (∃ (s : State) (b : Fin 2) (o : Bool) (t : CompTest), (s.dev.compBlk b.val).test = some t ∧ s.dev.due t.nextAt = true ∧
      (t.check (s.dev.compBelow t.n) o).checks ≠ []) ∧
    (∃ (s : State) (b : Fin 2) (o : Bool) (t : CompTest), (s.dev.compBlk b.val).test = some t ∧ s.dev.due t.nextAt = true ∧
      (t.check (s.dev.compBelow t.n) o).checks = [] ∧ (s.dev.compBlk b.val).queue = [] ∧ t.n / 96 = b.val ∧ t.checks ≠ [4] ∧
      (∀ t : Fin 48, s.dev.tripEn t.val 0 = false ∧ s.dev.tripEn t.val 1 = false) ∧
      ((t.check (s.dev.compBelow t.n) o).bad = false ∨ t.marks = false) ∧ (s.dev.comp t.n).failed = false) ∧
    (∃ (s : State) (b : Fin 2) (o : Bool) (t : CompTest), (s.dev.compBlk b.val).test = some t ∧ s.dev.due t.nextAt = true ∧
      (t.check (s.dev.compBelow t.n) o).checks = [] ∧ (s.dev.compBlk b.val).queue = [] ∧ t.n / 96 = b.val ∧ t.checks ≠ [4] ∧
      (∀ t : Fin 48, s.dev.tripEn t.val 0 = false ∧ s.dev.tripEn t.val 1 = false) ∧ (t.check (s.dev.compBelow t.n) o).bad = true ∧
      t.marks = true ∧ (s.dev.comp t.n).failed = false) :=
  ⟨⟨mkS fun d =>
      (((d.setFld (COMP.PAIR_CFG_PAIRING 98) 2).setFld (COMP.PAIR_CFG_SELFTEST 98) 1).setFld (COMP.CMP_STATUS_SERVICE 98) 1).setFld (COMP.CMP_STATUS_SERVICE 99) 1, 1, 2, by decide +kernel⟩,
   ⟨mkS fun d => d.setFld (COMP.CMP_STATUS_SERVICE 191) 1, .loader, 191, 1, by decide +kernel⟩,
   ⟨mkS fun d => d.setFld (COMP.CMP_STATUS_SERVICE 191) 1, .loader, 191, 2, by decide +kernel⟩,
   ⟨mkS fun d => d.setFld (COMP.CMP_STATUS_SERVICE 191) 1, .loader, 191, 3, by decide +kernel⟩,
   ⟨mkS fun d => d.setFld (COMP.CMP_STATUS_SERVICE 191) 1, .loader, 191, 4, by decide +kernel⟩,
   ⟨mkS fun d =>
      { d.setFld (COMP.CMP_STATUS_SERVICE 191) 1 with compBlks := [(1, { test := some { n := 100, checks := [1], marks := true, nextAt := 0 } })] }, .loader, 191, 4, by decide +kernel⟩,
   ⟨mkS fun d =>
      { d with compBlks := [(1, { test := some { n := 100, checks := [1, 2], marks := true, nextAt := 0 } })] }, 1, true, { n := 100, checks := [1, 2], marks := true, nextAt := 0 }, by decide +kernel⟩,
   ⟨mkS fun d =>
      { d.setFld (COMP.CMP_STATUS_SERVICE 100) 2 with compBlks := [(1, { test := some { n := 100, checks := [3], marks := true, result := 3, nextAt := 0 } })] }, 1, false, { n := 100, checks := [3], marks := true, result := 3, nextAt := 0 }, by decide +kernel⟩,
   ⟨mkS fun d =>
      { d.setFld (COMP.CMP_STATUS_SERVICE 100) 2 with compBlks := [(1, { test := some { n := 100, checks := [3], marks := true, result := 3, nextAt := 0 } })] }, 1, true, { n := 100, checks := [3], marks := true, result := 3, nextAt := 0 }, by decide +kernel⟩⟩

/-- The hypotheses of clauses 1 to 3 of SlotEvaluations are met. -/
theorem witness_SlotEvaluations_1 :
    (∃ (s : State) (n : Fin 32) (t : Time) (w : Half) (rest : List (Time × Half)), (s.dev.slot n.val).queue = (t, w) :: rest ∧
      (s.dev.slot n.val).defer = none ∧ s.dev.sliceDet = none ∧ s.dev.slotRun n.val = 1 ∧ s.dev.slotMode n.val ≠ 3 ∧ s.dev.ecc = [] ∧
      s.dev.flag (LOOP.SLOT_CFG_INV n.val) = false ∧ s.dev.fld (LOOP.SLOT_SP_CFG_SRC n.val) = 0 ∧
      s.dev.fld (LOOP.SLOT_SP_SLEW_SLEW n.val) = 0 ∧ (s.dev.slot n.val).first = false ∧ s.dev.fld (LOOP.SLOT_OUT_CFG_TARGET n.val) = 0 ∧
      s.dev.fld (LOOP.OSC_CFG_ACTION n.val) = 0 ∧ (∀ u : Fin 4, s.dev.trcState u.val = 0)) ∧
    (∃ (s : State) (n : Fin 32) (t : Time) (w : Half) (rest : List (Time × Half)), (s.dev.slot n.val).queue = (t, w) :: rest ∧
      (s.dev.slot n.val).defer = none ∧ s.dev.sliceDet = none ∧ s.dev.slotRun n.val = 3 ∧ s.dev.slotMode n.val = 3 ∧ s.dev.ecc = [] ∧
      s.dev.flag (LOOP.SLOT_CFG_INV n.val) = false ∧ s.dev.fld (LOOP.SLOT_SP_CFG_SRC n.val) = 0 ∧
      s.dev.fld (LOOP.SLOT_SP_SLEW_SLEW n.val) = 0 ∧ (s.dev.slot n.val).first = false ∧ s.dev.fld (LOOP.SLOT_OUT_CFG_TARGET n.val) = 0 ∧
      s.dev.fld (LOOP.OSC_CFG_ACTION n.val) = 0 ∧ (∀ u : Fin 4, s.dev.trcState u.val = 0)) ∧
    (∃ (s : State) (n : Fin 32) (g : Bool) (t : Time) (w : Half) (rest : List (Time × Half)), (s.dev.slot n.val).queue = (t, w) :: rest ∧
      (s.dev.slot n.val).defer = none ∧ s.dev.sliceDet = none ∧ (s.dev.slotRun n.val = 0 ∨ s.dev.slotRun n.val = 2)) :=
  ⟨⟨mkS fun d =>
      { ((((((d.setFld (LOOP.SLOT_STATUS_RUN 31) 1).setFld (LOOP.SLOT_CFG_MODE 31) 1).setNum (LOOP.SLOT_SP_TARGET 31) 0xFFF000).setNum (LOOP.SLOT_INT_LO 31) 0xFFFFF000).setNum (LOOP.SLOT_INT_HI 31) 0x1000).setNum (LOOP.SLOT_OUT_HI 31) 0x800).setBytes (coefAddr 31 0 0) [0, 0, 0, 0x10, 1, 0, 0, 0] with slots := [(31, { first := false, p := 12345, e1 := 3, y1 := -4, queue := [(640, 0x1230)] })] }, 31, 640, 0x1230, [], by decide +kernel⟩,
   ⟨mkS fun d =>
      { ((((((d.setFld (LOOP.SLOT_STATUS_RUN 31) 3).setFld (LOOP.SLOT_CFG_MODE 31) 3).setNum (LOOP.SLOT_SP_TARGET 31) 0xFFF000).setNum (LOOP.SLOT_INT_LO 31) 0xFFFFF000).setNum (LOOP.SLOT_INT_HI 31) 0x1000).setNum (LOOP.SLOT_OUT_HI 31) 0x800).setBytes (coefAddr 31 0 0) [0, 0, 0, 0x10, 1, 0, 0, 0] with slots := [(31, { first := false, p := 12345, e1 := 3, y1 := -4, queue := [(640, 0x1230)] })] }, 31, 640, 0x1230, [], by decide +kernel⟩,
   ⟨mkS fun d =>
      { ((((((d.setFld (LOOP.SLOT_STATUS_RUN 31) 2).setFld (LOOP.SLOT_CFG_MODE 31) 2).setNum (LOOP.SLOT_SP_TARGET 31) 0xFFF000).setNum (LOOP.SLOT_INT_LO 31) 0xFFFFF000).setNum (LOOP.SLOT_INT_HI 31) 0x1000).setNum (LOOP.SLOT_OUT_HI 31) 0x800).setBytes (coefAddr 31 0 0) [0, 0, 0, 0x10, 1, 0, 0, 0] with slots := [(31, { first := false, p := 12345, e1 := 3, y1 := -4, queue := [(640, 0x1230)] })] }, 31, true, 640, 0x1230, [], by decide +kernel⟩⟩

/-- The hypotheses of clauses 1 to 10 of SliceDetours are met. -/
theorem witness_SliceDetours_1 :
    (∃ (s : State) (n : Fin 32) (t : Time) (w : Half) (rest : List (Time × Half)), (s.dev.slot n.val).queue = (t, w) :: rest ∧
      (s.dev.slot n.val).defer = none ∧ s.dev.sliceDet = none ∧ (s.dev.slotRun n.val = 1 ∨ s.dev.slotRun n.val = 3) ∧
      s.dev.sliceDetourOk (s.dev.evalSlice n.val t) = true) ∧
    (∃ (s : State) (n : Fin 32) (t : Time) (w : Half) (rest : List (Time × Half)), (s.dev.slot n.val).queue = (t, w) :: rest ∧
      (s.dev.slot n.val).defer = none ∧ s.dev.sliceDet = none ∧ (s.dev.slotRun n.val = 1 ∨ s.dev.slotRun n.val = 3) ∧
      s.dev.sliceDetourOk (s.dev.evalSlice n.val t) = false) ∧
    (∃ (s : State) (ns : Nat) (x : SliceDet), s.dev.sliceDet = some x ∧ x.copied = false ∧ x.k < 4) ∧
    (∃ (s : State) (x : SliceDet), s.dev.sliceDet = some x ∧ x.copied = true ∧ x.resumed = false ∧ s.dev.due (x.tm + nsT 1500) = true ∧
      x.k < 4 ∧ (∀ i : Fin 8, (s.dev.grp (grpKey (0x18 + (8 * x.k + i.val) / 16) ((8 * x.k + i.val) % 16))).st ≠ .pending ∧
      (s.dev.slot (8 * x.k + i.val)).defer = none) ∧ (s.dev.grp supGroup).st ≠ .pending ∧ (∀ g : Fin 8, s.dev.cgOn g.val = false) ∧
      (∀ i : Fin 8, s.dev.slotRun (8 * x.k + i.val) ≠ 1 ∧ s.dev.slotRun (8 * x.k + i.val) ≠ 3)) ∧
    (∃ (s : State) (x : SliceDet), s.dev.sliceDet = some x ∧ x.copied = true ∧ x.resumed = false ∧ s.dev.due (x.tm + nsT 1500) = true ∧
      x.k < 4 ∧ (∀ i : Fin 8, (s.dev.grp (grpKey (0x18 + (8 * x.k + i.val) / 16) ((8 * x.k + i.val) % 16))).st ≠ .pending ∧
      (s.dev.slot (8 * x.k + i.val)).defer = none) ∧ (s.dev.grp supGroup).st ≠ .pending ∧ (∀ g : Fin 8, s.dev.cgOn g.val = false) ∧
      (∃ i : Fin 8, s.dev.slotRun (8 * x.k + i.val) = 1)) ∧
    (∃ (s : State), s.dev.fld LOOP.SUP_CFG_SPARE_TEST_US ≠ 0 ∧ s.dev.sliceReady 4 = true ∧ s.dev.fld LOOP.SUP_STATUS_SPARE_FOR = 7 ∧
      s.dev.sliceDet = none ∧ s.dev.due (s.dev.spareTestT + nsT (s.dev.fld LOOP.SUP_CFG_SPARE_TEST_US * 1000)) = true) ∧
    (∃ (s : State), s.dev.fld LOOP.SUP_CFG_SPARE_TEST_US ≠ 0 ∧ s.dev.sliceReady 4 = true ∧ s.dev.fld LOOP.SUP_STATUS_SPARE_FOR = 7 ∧
      s.dev.sliceDet = none ∧ s.dev.due (s.dev.spareTestT + nsT (s.dev.fld LOOP.SUP_CFG_SPARE_TEST_US * 1000)) = true) ∧
    (∃ (s : State) (k : Fin 5), s.dev.powered (25 + k.val) 5000 = true) ∧
    (∃ (s : State) (a : Agent) (v : Word), s.dev.takes a.id LOOP.SUP_CMD v = true ∧ wordBit v 8 = true) ∧
    (∃ (s : State) (k : Fin 4) (x : Nat × Time), s.dev.sliceRet.find? (fun p => decide (p.1 = k.val)) = some x ∧ s.dev.due x.2 = true) :=
  ⟨⟨mkS fun d =>
      { (((d.setFld (LOOP.SLOT_STATUS_RUN 31) 1).setFld LOOP.SUP_CFG_DETOUR_EN 1).setFld LOOP.SUP_STATUS_READY 31).setFld LOOP.SUP_STATUS_SPARE_FOR 7 with slots := [(31, { queue := [(640, 0x1230)] })] }, 31, 640, 0x1230, [], by decide +kernel⟩,
   ⟨mkS fun d =>
      { ((d.setFld (LOOP.SLOT_STATUS_RUN 31) 1).setFld (LOOP.SLOT_CFG_MODE 31) 1).setFld LOOP.SUP_CFG_DETOUR_EN 0 with slots := [(31, { queue := [(640, 0x1230)] })] }, 31, 640, 0x1230, [], by decide +kernel⟩,
   ⟨mkS fun d => { d with sliceDet := some { k := 3, tm := 64 } }, 3000, { k := 3, tm := 64 }, by decide +kernel⟩,
   ⟨mkS fun d =>
      { d.setFld LOOP.SUP_STATUS_DETOURING 1 with sliceDet := some { k := 3, tm := 64, copied := true }, time := { milepost := nsT 2000 } }, { k := 3, tm := 64, copied := true }, by decide +kernel⟩,
   ⟨mkS fun d =>
      { d.setFld (LOOP.SLOT_STATUS_RUN 25) 1 with sliceDet := some { k := 3, tm := 64, copied := true }, slots := [(25, { queue := [(64, 5), (nsT 1800, 6)] })], time := { milepost := nsT 2000 } }, { k := 3, tm := 64, copied := true }, by decide +kernel⟩,
   ⟨mkS fun d =>
      { ((d.setFld LOOP.SUP_CFG_SPARE_TEST_US 1).setFld LOOP.SUP_STATUS_READY 16).setFld LOOP.SUP_STATUS_SPARE_FOR 7 with time := { milepost := nsT 2000 } }, by decide +kernel⟩,
   ⟨mkS fun d =>
      { ((d.setFld LOOP.SUP_CFG_SPARE_TEST_US 1).setFld LOOP.SUP_STATUS_READY 16).setFld LOOP.SUP_STATUS_SPARE_FOR 7 with time := { milepost := nsT 2000 } }, by decide +kernel⟩,
   ⟨mkS fun d =>
      { (d.setFld (LOOP.SLOT_STATUS_RUN 31) 4).setFld (LOOP.SLOT_CFG_MODE 31) 1 with domUp := [28], sup := { upAt := [(28, 0)] }, time := { milepost := nsT 20000 } }, 3, by decide +kernel⟩,
   ⟨mkS fun d =>
      ((d.setFld LOOP.SUP_STATUS_FAULTY 4).setFld LOOP.SUP_STATUS_READY 4).setReg64 LOOP.SUP_RETURN_AT (nsT 3000), .loader, 0x102, by decide +kernel⟩,
   ⟨mkS fun d =>
      { (d.setFld LOOP.SUP_STATUS_FAULTY 4).setFld LOOP.SUP_STATUS_SPARE_FOR 2 with sliceRet := [(2, 64)], time := { milepost := 64 } }, 2, (2, 64), by decide +kernel⟩⟩

/-- The hypotheses of clauses 1 to 7 of SlotCommands are met. -/
theorem witness_SlotCommands_1 :
    (∃ (s : State) (a : Agent) (n : Fin 32) (v : Word), s.dev.takes a.id (LOOP.SLOT_CMD n.val) v = true ∧ v = 4) ∧
    (∃ (s : State) (a : Agent) (n : Fin 32) (v : Word), s.dev.takes a.id (LOOP.SLOT_CMD n.val) v = true ∧ v = 2) ∧
    (∃ (s : State) (a : Agent) (n : Fin 32) (v : Word), s.dev.takes a.id (LOOP.SLOT_CMD n.val) v = true ∧ v = 1) ∧
    (∃ (s : State) (a : Agent) (n : Fin 32) (k : Fin 4) (i : Fin 16) (v : Word), s.dev.takes a.id ((0x18 + n.val / 16) * 0x10000 + 0x4000 + 0x100 * (n.val % 16) + 0x40 * k.val + 4 * i.val) v = true ∧
      i.val < 9) ∧
    (∃ (s : State) (a : Agent) (n : Fin 32) (k : Fin 4) (i : Fin 16) (v : Word), s.dev.takes a.id ((0x18 + n.val / 16) * 0x10000 + 0x4000 + 0x100 * (n.val % 16) + 0x40 * k.val + 4 * i.val) v = true ∧
      i.val < 9 ∧ s.dev.memOpen a.id (coefAddr n.val k.val i.val) 4 true = true) ∧
    (∃ (s : State) (n : Fin 32) (x : Nat) (p : Time), s.dev.fld (LOOP.SLOT_SP_CFG_SRC n.val) = 2 ∧ (s.dev.slot n.val).pulseEdge = some p ∧
      40 ≤ (nsOf s.dev.now - nsOf p) ∧ (nsOf s.dev.now - nsOf p) ≤ 16777215) ∧
    (∃ (s : State) (n : Fin 32), s.dev.fld (LOOP.SLOT_PULSE_TMO_TIMEOUT_US n.val) ≠ 0 ∧ s.dev.fld (LOOP.SLOT_SP_CFG_SRC n.val) = 2 ∧
      s.dev.flag (LOOP.SLOT_STATUS_PULSE_LOST n.val) = false ∧
      s.dev.due ((s.dev.slot n.val).pulseOk + nsT (s.dev.fld (LOOP.SLOT_PULSE_TMO_TIMEOUT_US n.val) * 1000)) = true) :=
  ⟨⟨mkS fun d => { d.setNum (LOOP.SLOT_COUNTS 31) 7 with slots := [(31, { e1 := 5 })] }, .loader, 31, 4, by decide +kernel⟩,
   ⟨mkS fun d => { d.setNum (LOOP.SLOT_COUNTS 31) 7 with slots := [(31, { e1 := 5 })] }, .loader, 31, 2, by decide +kernel⟩,
   ⟨mkS fun d => { d.setNum (LOOP.SLOT_COUNTS 31) 7 with slots := [(31, { e1 := 5 })] }, .loader, 31, 1, by decide +kernel⟩,
   ⟨mkS fun d => d, .loader, 31, 3, 8, 0x89ABCDEF, by decide +kernel⟩,
   ⟨mkS fun d => d, .loader, 0, 0, 0, 0x89ABCDEF, by decide +kernel⟩,
   ⟨mkS fun d =>
      { (d.setFld (LOOP.SLOT_SP_CFG_SRC 31) 2).setFld (LOOP.SLOT_STATUS_PULSE_LOST 31) 1 with slots := [(31, { pulseEdge := some (nsT 100) })], time := { milepost := nsT 200 } }, 31, 50, nsT 100, by decide +kernel⟩,
   ⟨mkS fun d =>
      { ((d.setFld (LOOP.SLOT_SP_CFG_SRC 31) 2).setFld (LOOP.SLOT_CFG_MODE 31) 1).setFld (LOOP.SLOT_PULSE_TMO_TIMEOUT_US 31) 1 with time := { milepost := nsT 2000 } }, 31, by decide +kernel⟩⟩

/-- The hypotheses of clauses 1 to 7 of TraceUnits are met. -/
theorem witness_TraceUnits_1 :
    (∃ (s : State) (a : Agent) (u : Fin 4) (v : Word), s.dev.takes a.id (LOOP.TRC_CMD u.val) v = true ∧ v = 4 ∧ s.dev.trcMode u.val = 1) ∧
    (∃ (s : State) (a : Agent) (u : Fin 4) (v : Word), s.dev.takes a.id (LOOP.TRC_CMD u.val) v = true ∧ v = 2 ∧ s.dev.trcState u.val = 1) ∧
    (∃ (s : State) (a : Agent) (u : Fin 4) (v : Word), s.dev.takes a.id (LOOP.TRC_CMD u.val) v = true ∧ v = 1 ∧ s.dev.trcState u.val ≠ 0) ∧
    (∃ (s : State) (u : Fin 4) (t : Time) (rest : List Time) (x y z : Nat), (s.dev.trc u.val).due = t :: rest ∧
      s.dev.nodeValue (s.dev.trcNode u.val 0) t = some x ∧ s.dev.nodeValue (s.dev.trcNode u.val 1) t = some y ∧
      s.dev.nodeValue (s.dev.trcNode u.val 2) t = some z ∧ s.dev.trcState u.val = 1 ∧ (s.dev.trc u.val).force = false ∧
      s.dev.fld (LOOP.TRC_CFG_TRIG_SRC u.val) = 0) ∧
    (∃ (s : State) (u : Fin 4) (t : Time) (rest : List Time) (x y z : Nat), (s.dev.trc u.val).due = t :: rest ∧
      s.dev.nodeValue (s.dev.trcNode u.val 0) t = some x ∧ s.dev.nodeValue (s.dev.trcNode u.val 1) t = some y ∧
      s.dev.nodeValue (s.dev.trcNode u.val 2) t = some z ∧ s.dev.trcState u.val = 1 ∧ (s.dev.trc u.val).force = true) ∧
    (∃ (s : State) (u : Fin 4) (t : Time) (rest : List Time) (x y z : Nat), (s.dev.trc u.val).due = t :: rest ∧
      s.dev.nodeValue (s.dev.trcNode u.val 0) t = some x ∧ s.dev.nodeValue (s.dev.trcNode u.val 1) t = some y ∧
      s.dev.nodeValue (s.dev.trcNode u.val 2) t = some z ∧ s.dev.trcState u.val = 4 ∧ (s.dev.trc u.val).buf.length < 4096) ∧
    (∃ (s : State) (u : Fin 4) (r : List Byte) (rest : List (List Byte)), (s.dev.trc u.val).buf = r :: rest ∧
      s.dev.memMapped ((s.dev.reg64 (LOOP.TRC_DRAM u.val)).toNat % 2 ^ 40 + 16 * (s.dev.num (LOOP.TRC_STREAM_SEQ u.val) % 2 ^ s.dev.fld (LOOP.TRC_DRAM_SIZE u.val))) 16 = true ∧
      r.length = 16 ∧ s.dev.lgDram = false) :=
  ⟨⟨mkS fun d =>
      { (d.setFld (LOOP.TRC_CFG_MODE 3) 1).setNum (LOOP.TRC_STATUS 3) 3 with traces := [(3, { due := [64], count := 5 })] }, .loader, 3, 4, by decide +kernel⟩,
   ⟨mkS fun d =>
      { (d.setFld (LOOP.TRC_CFG_MODE 3) 1).setNum (LOOP.TRC_STATUS 3) 1 with traces := [(3, { due := [64], count := 5 })] }, .loader, 3, 2, by decide +kernel⟩,
   ⟨mkS fun d =>
      { (d.setFld (LOOP.TRC_CFG_MODE 3) 1).setNum (LOOP.TRC_STATUS 3) 2 with traces := [(3, { due := [64], count := 5 })] }, .loader, 3, 1, by decide +kernel⟩,
   ⟨mkS fun d =>
      { (d.setFld (LOOP.TRC_CFG_MODE 3) 1).setNum (LOOP.TRC_STATUS 3) 65521 with traces := [(3, { due := [64], count := 5 })] }, 3, 64, [], 0, 0, 0, by decide +kernel⟩,
   ⟨mkS fun d =>
      { (d.setFld (LOOP.TRC_CFG_MODE 3) 1).setNum (LOOP.TRC_STATUS 3) 0x51 with traces := [(3, { due := [64], force := true })] }, 3, 64, [], 0, 0, 0, by decide +kernel⟩,
   ⟨mkS fun d =>
      { (d.setFld (LOOP.TRC_CFG_MODE 3) 1).setNum (LOOP.TRC_STATUS 3) 4 with traces := [(3, { due := [64], count := 5 })] }, 3, 64, [], 0, 0, 0, by decide +kernel⟩,
   ⟨mkS fun d =>
      { (((d.setReg64 (LOOP.TRC_DRAM 3) 0x1000000000).setFld MEMCTL.DRAM_CFG_SIZE0 1).setFld MEMCTL.DRAM_STATUS_STATE0 3) with traces := [(3, { buf := [List.replicate 16 5] })] }, 3, List.replicate 16 5, [], by decide +kernel⟩⟩

/-- The hypotheses of clauses 1 to 9 of TimerPeriods are met. -/
theorem witness_TimerPeriods_1 :
    (∃ (s : State) (t : Fin 48), (s.dev.tim t.val).startAt = none ∧ s.dev.timRun t.val = 1 ∧
      s.dev.due (s.dev.reg64 (PWM.TIM_BOUNDARY t.val) + tks (s.dev.tim t.val).p) = true ∧ s.dev.fld (PWM.TIM_CFG_SYNC t.val) = 0 ∧
      (s.dev.tim t.val).adj = none) ∧
    (∃ (s : State) (t : Fin 48) (j : Int) (x : Time), (s.dev.tim t.val).startAt = none ∧ s.dev.timRun t.val = 1 ∧
      s.dev.due (s.dev.reg64 (PWM.TIM_BOUNDARY t.val) + tks (s.dev.tim t.val).p) = true ∧ s.dev.fld (PWM.TIM_CFG_SYNC t.val) = 0 ∧
      (s.dev.tim t.val).adj = some (j, x) ∧ dist (x + nsT 20) (s.dev.reg64 (PWM.TIM_BOUNDARY t.val) + tks (s.dev.tim t.val).p) ≥ 0) ∧
    (∃ (s : State) (t : Fin 48) (b : Time), (s.dev.tim t.val).startAt = some b ∧ s.dev.due b = true ∧
      s.dev.flag (PWM.BANK_STATUS_READY (t.val / 16)) = true) ∧
    (∃ (s : State) (t : Fin 48) (e : Time), (s.dev.tim t.val).periodT = some e ∧ s.dev.timRun t.val = 1 ∧ s.dev.due e = true) ∧
    (∃ (s : State) (t : Fin 48) (e : Time), (s.dev.tim t.val).periodT = some e ∧ s.dev.timRun t.val = 1 ∧ s.dev.due e = true ∧
      bitsOf (s.dev.num (PWM.TIM_EVT t.val)) 15 8 = 0 ∧ s.dev.led.fresh = [] ∧ s.dev.flag LEDGER.LG_STATUS_OVERRUN = true) ∧
    (∃ (s : State) (a : Agent) (t : Fin 48) (v : Word), s.dev.takes a.id (PWM.TIM_ADJ t.val) v = true) ∧
    (∃ (s : State) (t : Fin 48), s.dev.fld (PWM.TIM_CFG_SYNC t.val) = 2 ∧ (s.dev.tim t.val).wantStart = none) ∧
    (∃ (s : State) (t : Fin 48) (w : Time), s.dev.fld (PWM.TIM_CFG_SYNC t.val) = 2 ∧ (s.dev.tim t.val).wantStart = some w) ∧
    (∃ (s : State) (b : Fin 3), s.dev.powered (30 + b.val) 10000 = true) :=
  ⟨⟨mkS fun d =>
      { ((((d.setFld (PWM.TIM_STATUS_RUN 47) 1).setNum (PWM.TIM_PER 47) 100).setFld (PWM.TIM_CFG_SYNC 47) 0).setNum (PWM.TIM_EVT 47) 1) with tims := [(47, { k := 65535, p := 6400 })], time := { milepost := 12800 } }, 47, by decide +kernel⟩,
   ⟨mkS fun d =>
      { ((((d.setFld (PWM.TIM_STATUS_RUN 47) 1).setNum (PWM.TIM_PER 47) 100).setFld (PWM.TIM_CFG_SYNC 47) 0).setNum (PWM.TIM_EVT 47) 1) with tims := [(47, { k := 65535, p := 6400, adj := some (-100, 0) })], time := { milepost := 12800 } }, 47, -100, 0, by decide +kernel⟩,
   ⟨mkS fun d =>
      { ((d.setNum (PWM.TIM_PER 47) 100).setFld (PWM.BANK_STATUS_READY 2) 1) with tims := [(47, { startAt := some 6400 })], time := { milepost := 12800 } }, 47, 6400, by decide +kernel⟩,
   ⟨mkS fun d =>
      { (d.setFld (PWM.TIM_STATUS_RUN 47) 1).setNum (PWM.TIM_EVT 47) 0x300 with tims := [(47, { periodT := some 3200, cntPeriod := 6 })], time := { milepost := 3200 } }, 47, 3200, by decide +kernel⟩,
   ⟨mkS fun d =>
      { (d.setFld (PWM.TIM_STATUS_RUN 47) 1).setFld LEDGER.LG_STATUS_OVERRUN 1 with tims := [(47, { periodT := some 3200, cntPeriod := 6 })], time := { milepost := 3200 } }, 47, 3200, by decide +kernel⟩,
   ⟨mkS fun d =>
      ((d.setFld (PWM.TIM_STATUS_RUN 47) 1).setFld (PWM.TIM_CFG_MODE 47) 1).setNum (PWM.TIM_PER 47) 100, .loader, 47, 0xFFFFFFFF, by decide +kernel⟩,
   ⟨mkS fun d =>
      { (d.setFld (PWM.TIM_CFG_SYNC 47) 2).setNum (PWM.TIM_PER 47) 100 with tims := [(47, { cntA := 3 })], time := { milepost := 12800 } }, 47, by decide +kernel⟩,
   ⟨mkS fun d =>
      { (d.setFld (PWM.TIM_CFG_SYNC 47) 2).setNum (PWM.TIM_PER 47) 100 with tims := [(47, { cntA := 3, wantStart := some 64000 })], time := { milepost := 12800 } }, 47, 64000, by decide +kernel⟩,
   ⟨mkS fun d =>
      { (d.setFld (PWM.TIM_STATUS_RUN 47) 2).setNum (PWM.TIM_PER 47) 100 with domUp := [32], sup := { upAt := [(32, 0)] }, time := { milepost := nsT 20000 } }, 2, by decide +kernel⟩⟩

/-- The hypotheses of clauses 1 to 9 of OutputEdges are met. -/
theorem witness_OutputEdges_1 :
    (∃ (s : State) (o : Fin 96) (w : Win) (rest : List Win), s.dev.timRun (o.val / 2) = 1 ∧ s.dev.fld (PWM.TIM_CFG_PAIRING (o.val / 2)) = 0 ∧
      (s.dev.out o.val).tripped = false ∧ (s.dev.out o.val).force = none ∧ (s.dev.out o.val).parked = false ∧
      (s.dev.out o.val).special = false ∧ (s.dev.out o.val).outDt = none ∧ s.dev.pinSafe ((s.dev.phaseOf o.val).getD o.val) = false ∧
      (s.dev.out o.val).wins = w :: rest ∧ w.begun = false ∧ w.conduct = true ∧ w.sMain = false ∧ w.dOn = 0 ∧ s.dev.due w.on = true ∧
      (s.dev.out o.val).nd ≠ .main) ∧
    (∃ (s : State) (o : Fin 96) (w : Win) (rest : List Win), s.dev.timRun (o.val / 2) = 1 ∧ s.dev.fld (PWM.TIM_CFG_PAIRING (o.val / 2)) = 0 ∧
      (s.dev.out o.val).tripped = false ∧ (s.dev.out o.val).force = none ∧ (s.dev.out o.val).parked = false ∧
      (s.dev.out o.val).special = false ∧ (s.dev.out o.val).outDt = none ∧ s.dev.pinSafe ((s.dev.phaseOf o.val).getD o.val) = false ∧
      (s.dev.out o.val).wins = w :: rest ∧ w.begun = false ∧ w.conduct = true ∧ w.sMain = false ∧ w.dOn ≠ 0 ∧ s.dev.due w.on = true ∧
      (s.dev.out o.val).nd ≠ .main) ∧
    (∃ (s : State) (o : Fin 96) (w : Win) (rest : List Win), s.dev.timRun (o.val / 2) = 1 ∧ s.dev.fld (PWM.TIM_CFG_PAIRING (o.val / 2)) = 0 ∧
      (s.dev.out o.val).tripped = false ∧ (s.dev.out o.val).force = none ∧ (s.dev.out o.val).parked = false ∧
      (s.dev.out o.val).special = false ∧ (s.dev.out o.val).outDt = none ∧ s.dev.pinSafe ((s.dev.phaseOf o.val).getD o.val) = false ∧
      (s.dev.out o.val).wins = w :: rest ∧ w.begun = true ∧ w.noOff = false ∧ w.sComp = false ∧ w.dOff = 0 ∧ s.dev.due w.eOff = true) ∧
    (∃ (s : State) (o : Fin 96) (w : Win) (rest : List Win), s.dev.timRun (o.val / 2) = 1 ∧ (s.dev.out o.val).wins = w :: rest ∧
      w.begun = false ∧ w.conduct = false ∧ s.dev.due w.on = true) ∧
    (∃ (s : State) (o : Fin 96) (e : Time) (x : Drive), s.dev.timRun (o.val / 2) = 1 ∧ s.dev.fld (PWM.TIM_CFG_PAIRING (o.val / 2)) = 0 ∧
      (s.dev.out o.val).tripped = false ∧ (s.dev.out o.val).force = none ∧ (s.dev.out o.val).parked = false ∧
      (s.dev.out o.val).special = false ∧ (s.dev.out o.val).outDt = none ∧ s.dev.pinSafe ((s.dev.phaseOf o.val).getD o.val) = false ∧
      (s.dev.out o.val).ndDt = some (e, x) ∧ s.dev.due e = true ∧
      (s.dev.out o.val).wins.all (fun w => !w.begun || decide ((w.m : Int) ≤ dist e w.eOff)) = true) ∧
    (∃ (s : State) (o : Fin 96), s.dev.timRun (o.val / 2) = 1 ∧ s.dev.outUsed o.val = true ∧ s.dev.due (s.dev.out o.val).nextF = true ∧
      s.dev.outSrc o.val ≠ 2 ∧ (s.dev.out o.val).formed = true) ∧
    (∃ (s : State) (o : Fin 96), s.dev.timRun (o.val / 2) = 1 ∧ s.dev.outUsed o.val = true ∧ s.dev.due (s.dev.out o.val).nextF = true ∧
      s.dev.outSrc o.val ≠ 2 ∧ (s.dev.out o.val).formed = false ∧ s.dev.outSrc o.val = 0 ∧ s.dev.phRole o.val = 0 ∧
      s.dev.detState (o.val / 2) = 0 ∧ s.dev.flag (PWM.TIM_CFG_ALIGN (o.val / 2)) = false ∧ s.dev.outCmp o.val ≠ 0 ∧
      s.dev.outCmp o.val ≠ fullC ∧ (s.dev.unitTicks (o.val / 2) (s.dev.outCmp o.val)) < (s.dev.tim (o.val / 2)).p ∧
      dist (s.dev.out o.val).nextF (s.dev.reg64 (PWM.TIM_BOUNDARY (o.val / 2)) + tks (s.dev.tim (o.val / 2)).p) > 0) ∧
    (∃ (s : State) (o : Fin 96) (u : PendUpd), s.dev.updQ.find? (fun x => decide (x.out = o.val)) = some u ∧
      (s.dev.timRun (o.val / 2) ≠ 1 ∨ s.dev.outUsed o.val = false)) ∧
    (∃ (s : State) (o : Fin 96) (u : PendUpd), s.dev.timRun (o.val / 2) = 1 ∧ s.dev.updQ.find? (fun x => decide (x.out = o.val)) = some u ∧
      s.dev.outUsed o.val = true ∧ s.dev.outSrc o.val = (if u.rail then 2 else 1) ∧ s.dev.outPolicy o.val = 0 ∧
      dist (s.dev.out o.val).nextF (floorNs s.dev.now + setupS) ≤ 0) :=
  ⟨⟨mkS fun d =>
      { (((d.setFld (PWM.TIM_STATUS_RUN 47) 1).setNum (PWM.TIM_PER 47) 1000).setFld (PWM.TIM_CFG_SYNC 47) 0).setFld (PWM.TIM_CFG_PAIRING 47) 0 with outs := [(94, { special := false, wins := [{ on := 640, off := 3200, eOff := 3200 }] })], tims := [(47, { p := 64000 })], time := { milepost := 6400 } }, 94, { on := 640, off := 3200, eOff := 3200 }, [], by decide +kernel⟩,
   ⟨mkS fun d =>
      { (((d.setFld (PWM.TIM_STATUS_RUN 47) 1).setNum (PWM.TIM_PER 47) 1000).setFld (PWM.TIM_CFG_SYNC 47) 0).setFld (PWM.TIM_CFG_PAIRING 47) 0 with outs := [(94, { special := false, wins := [{ on := 640, off := 3200, eOff := 3200, dOn := 64 }] })], tims := [(47, { p := 64000 })], time := { milepost := 6400 } }, 94, { on := 640, off := 3200, eOff := 3200, dOn := 64 }, [], by decide +kernel⟩,
   ⟨mkS fun d =>
      { (((d.setFld (PWM.TIM_STATUS_RUN 47) 1).setNum (PWM.TIM_PER 47) 1000).setFld (PWM.TIM_CFG_SYNC 47) 0).setFld (PWM.TIM_CFG_PAIRING 47) 0 with outs := [(94, { special := false, nd := .main, out := .main, wins := [{ on := 640, off := 3200, eOff := 3200, begun := true }] })], tims := [(47, { p := 64000 })], time := { milepost := 6400 } }, 94, { on := 640, off := 3200, eOff := 3200, begun := true }, [], by decide +kernel⟩,
   ⟨mkS fun d =>
      { (((d.setFld (PWM.TIM_STATUS_RUN 47) 1).setNum (PWM.TIM_PER 47) 1000).setFld (PWM.TIM_CFG_SYNC 47) 0).setFld (PWM.TIM_CFG_PAIRING 47) 0 with outs := [(94, { special := false, wins := [{ on := 640, off := 3200, eOff := 3200, conduct := false }] })], tims := [(47, { p := 64000 })], time := { milepost := 6400 } }, 94, { on := 640, off := 3200, eOff := 3200, conduct := false }, [], by decide +kernel⟩,
   ⟨mkS fun d =>
      { (((d.setFld (PWM.TIM_STATUS_RUN 47) 1).setNum (PWM.TIM_PER 47) 1000).setFld (PWM.TIM_CFG_SYNC 47) 0).setFld (PWM.TIM_CFG_PAIRING 47) 0 with outs := [(94, { special := false, ndDt := some (704, .main), wins := [{ on := 640, off := 3200, eOff := 3200, begun := true }] })], tims := [(47, { p := 64000 })], time := { milepost := 6400 } }, 94, 704, .main, by decide +kernel⟩,
   ⟨mkS fun d =>
      { (((d.setFld (PWM.TIM_STATUS_RUN 47) 1).setNum (PWM.TIM_PER 47) 1000).setFld (PWM.TIM_CFG_SYNC 47) 0).setFld (PWM.TIM_CFG_PAIRING 47) 0 with outs := [(94, { special := false, nextF := 6400, formed := true, cur := 77 })], tims := [(47, { p := 64000 })], time := { milepost := 6400 } }, 94, by decide +kernel⟩,
   ⟨mkS fun d =>
      ({ (((d.setFld (PWM.TIM_STATUS_RUN 47) 1).setNum (PWM.TIM_PER 47) 1000).setFld (PWM.TIM_CFG_SYNC 47) 0).setFld (PWM.TIM_CFG_PAIRING 47) 0 with outs := [(94, { special := false, nextF := 6400 })], tims := [(47, { p := 64000 })], time := { milepost := 6400 } } : Dev).setNum (PWM.TIM_CMP_A 47) 5000, 94, by decide +kernel⟩,
   ⟨mkS fun d => { d with updQ := [⟨94, .duty 5, false⟩] }, 94, ⟨94, .duty 5, false⟩, by decide +kernel⟩,
   ⟨mkS fun d =>
      { (({ (((d.setFld (PWM.TIM_STATUS_RUN 47) 1).setNum (PWM.TIM_PER 47) 1000).setFld (PWM.TIM_CFG_SYNC 47) 0).setFld (PWM.TIM_CFG_PAIRING 47) 0 with outs := [(94, { special := false, nextF := 64000, frK := 65535 })], tims := [(47, { p := 64000 })], time := { milepost := 6400 } } : Dev).setFld (PWM.TIM_OUT_CFG_SRC_A 47) 1) with updQ := [⟨94, .duty 5, false⟩] }, 94, ⟨94, .duty 5, false⟩, by decide +kernel⟩⟩

/-- The hypotheses of clauses 1 to 12 of TimerForcesAndTrips are met. -/
theorem witness_TimerForcesAndTrips_1 :
    (∃ (s : State) (a : Agent) (t : Fin 48) (v : Word), s.dev.takes a.id (PWM.TIM_FORCE t.val) v = true ∧ bitsOf v.toNat 2 0 = 1 ∧
      wordBit v 16 = true) ∧
    (∃ (s : State) (a : Agent) (t : Fin 48) (v : Word), s.dev.takes a.id (PWM.TIM_FORCE t.val) v = true ∧ bitsOf v.toNat 10 8 = 1 ∧
      wordBit v 16 = false) ∧
    (∃ (s : State) (a : Agent) (t : Fin 48) (v : Word), s.dev.takes a.id (PWM.TIM_FORCE t.val) v = true ∧ bitsOf v.toNat 2 0 = 2 ∧
      wordBit v 16 = true) ∧
    (∃ (s : State) (a : Agent) (t : Fin 48) (v : Word), s.dev.takes a.id (PWM.TIM_FORCE t.val) v = true ∧ bitsOf v.toNat 10 8 = 2 ∧
      wordBit v 16 = false) ∧
    (∃ (s : State) (a : Agent) (t : Fin 48) (v : Word), s.dev.takes a.id (PWM.TIM_FORCE t.val) v = true ∧ bitsOf v.toNat 2 0 = 3 ∧
      wordBit v 16 = true) ∧
    (∃ (s : State) (a : Agent) (t : Fin 48) (v : Word), s.dev.takes a.id (PWM.TIM_FORCE t.val) v = true ∧ bitsOf v.toNat 10 8 = 3 ∧
      wordBit v 16 = false) ∧
    (∃ (s : State) (a : Agent) (t : Fin 48) (v : Word), s.dev.takes a.id (PWM.TIM_FORCE t.val) v = true ∧ bitsOf v.toNat 2 0 = 4 ∧
      wordBit v 16 = true) ∧
    (∃ (s : State) (a : Agent) (t : Fin 48) (v : Word), s.dev.takes a.id (PWM.TIM_FORCE t.val) v = true ∧ bitsOf v.toNat 10 8 = 4 ∧
      wordBit v 16 = false) ∧
    (∃ (s : State) (a : Agent) (t : Fin 48) (v : Word), s.dev.takes a.id (PWM.TIM_FORCE t.val) v = true ∧ bitsOf v.toNat 2 0 = 5 ∧
      wordBit v 16 = true) ∧
    (∃ (s : State) (a : Agent) (t : Fin 48) (v : Word), s.dev.takes a.id (PWM.TIM_FORCE t.val) v = true ∧ bitsOf v.toNat 10 8 = 5 ∧
      wordBit v 16 = false) ∧
    (∃ (s : State) (t : Fin 48) (f : PendForce) (x : Option Drive), firstForce ((s.dev.tim t.val).forces.filter fun f => s.dev.due f.eff && !f.boundary) = some f ∧
      forceDrive f.fa = some x) ∧
    (∃ (s : State) (t : Fin 48) (f : PendForce), firstForce ((s.dev.tim t.val).forces.filter fun f => s.dev.due f.eff && !f.boundary) = some f ∧
      f.late = true) :=
  ⟨⟨mkS fun d =>
      { (d.setFld (PWM.TIM_STATUS_RUN 47) 1).setNum (PWM.TIM_PER 47) 100 with tims := [(47, { p := 6400 })], time := { milepost := 5440 } }, .loader, 47, 65537, by decide +kernel⟩,
   ⟨mkS fun d =>
      { (d.setFld (PWM.TIM_STATUS_RUN 47) 1).setNum (PWM.TIM_PER 47) 100 with tims := [(47, { p := 6400 })], time := { milepost := 5440 } }, .loader, 47, 256, by decide +kernel⟩,
   ⟨mkS fun d =>
      { (d.setFld (PWM.TIM_STATUS_RUN 47) 1).setNum (PWM.TIM_PER 47) 100 with tims := [(47, { p := 6400 })], time := { milepost := 5440 } }, .loader, 47, 65538, by decide +kernel⟩,
   ⟨mkS fun d =>
      { (d.setFld (PWM.TIM_STATUS_RUN 47) 1).setNum (PWM.TIM_PER 47) 100 with tims := [(47, { p := 6400 })], time := { milepost := 5440 } }, .loader, 47, 512, by decide +kernel⟩,
   ⟨mkS fun d =>
      { (d.setFld (PWM.TIM_STATUS_RUN 47) 1).setNum (PWM.TIM_PER 47) 100 with tims := [(47, { p := 6400 })], time := { milepost := 5440 } }, .loader, 47, 65539, by decide +kernel⟩,
   ⟨mkS fun d =>
      { (d.setFld (PWM.TIM_STATUS_RUN 47) 1).setNum (PWM.TIM_PER 47) 100 with tims := [(47, { p := 6400 })], time := { milepost := 5440 } }, .loader, 47, 768, by decide +kernel⟩,
   ⟨mkS fun d =>
      { (d.setFld (PWM.TIM_STATUS_RUN 47) 1).setNum (PWM.TIM_PER 47) 100 with tims := [(47, { p := 6400 })], time := { milepost := 5440 } }, .loader, 47, 65540, by decide +kernel⟩,
   ⟨mkS fun d =>
      { (d.setFld (PWM.TIM_STATUS_RUN 47) 1).setNum (PWM.TIM_PER 47) 100 with tims := [(47, { p := 6400 })], time := { milepost := 5440 } }, .loader, 47, 1024, by decide +kernel⟩,
   ⟨mkS fun d =>
      { (d.setFld (PWM.TIM_STATUS_RUN 47) 1).setNum (PWM.TIM_PER 47) 100 with tims := [(47, { p := 6400 })], time := { milepost := 5440 } }, .loader, 47, 65541, by decide +kernel⟩,
   ⟨mkS fun d =>
      { (d.setFld (PWM.TIM_STATUS_RUN 47) 1).setNum (PWM.TIM_PER 47) 100 with tims := [(47, { p := 6400 })], time := { milepost := 5440 } }, .loader, 47, 1280, by decide +kernel⟩,
   ⟨mkS fun d =>
      { d with tims := [(47, { forces := [⟨2, 1, 64, false, false, 64⟩] })], time := { milepost := 64 } }, 47, ⟨2, 1, 64, false, false, 64⟩, some .main, by decide +kernel⟩,
   ⟨mkS fun d =>
      { d with tims := [(47, { forces := [⟨2, 1, 64, false, true, 640⟩] })], time := { milepost := 640 } }, 47, ⟨2, 1, 64, false, true, 640⟩, by decide +kernel⟩⟩

/-- The hypotheses of clauses 13 to 18 of TimerForcesAndTrips are met. -/
theorem witness_TimerForcesAndTrips_13 :
    (∃ (s : State) (a : Agent) (t : Fin 48) (v : Word), s.dev.takes a.id (PWM.TIM_CLR t.val) v = true ∧ wordBit v 2 = true ∧ wordBit v 1 = false) ∧
    (∃ (s : State) (a : Agent) (t : Fin 48) (v : Word), s.dev.takes a.id (PWM.TIM_CLR t.val) v = true ∧ wordBit v 1 = true ∧ wordBit v 2 = false) ∧
    (∃ (s : State) (b : Fin 3), s.dev.fld (PWM.TRUE_CTRL_MODE b.val) = 0 ∧ s.dev.flag (PWM.BANK_STATUS_READY b.val) = true ∧
      (Tab.get {} b.val s.dev.lineTrue).subject = none ∧ s.dev.due (Tab.get {} b.val s.dev.lineTrue).nextAt = true) ∧
    (∃ (s : State) (b : Fin 3) (l g : Int) (i : Nat), (Tab.get {} b.val s.dev.lineTrue).subject = some i ∧ i < 32 ∧
      s.dev.due (Tab.get {} b.val s.dev.lineTrue).doneAt = true ∧ l.natAbs * 1000 ≤ 38400 ∧ g.natAbs * 100 ≤ 196608 ∧
      (2 * (32 * b.val + i) + (1 - b2n (bitOf (s.dev.num (PWM.TRUE_LINE b.val)) i))) ∉ s.dev.lineFailed) ∧
    (∃ (s : State) (b : Fin 3) (l g : Int) (i : Nat), (Tab.get {} b.val s.dev.lineTrue).subject = some i ∧ i < 32 ∧
      s.dev.due (Tab.get {} b.val s.dev.lineTrue).doneAt = true ∧ (38400 < l.natAbs * 1000 ∨ 196608 < g.natAbs * 100)) ∧
    (∃ (s : State) (o : Fin 96) (t : Time), Tab.find o.val s.dev.lineSwap = some t ∧
      (s.dev.timRun (o.val / 2) ≠ 1 ∨ dist t (s.dev.out o.val).frF ≥ 0) ∧ s.dev.quietOut o.val (nsT 4) (nsT 4) = true) :=
  ⟨⟨mkS fun d => d.setFld (PWM.TIM_STATUS_LATCHED 47) 1, .loader, 47, 4, by decide +kernel⟩,
   ⟨mkS fun d => d.setNum (PWM.TIM_TRIPS 47) 99, .loader, 47, 2, by decide +kernel⟩,
   ⟨mkS fun d => { d.setFld (PWM.BANK_STATUS_READY 2) 1 with lineTrue := [(2, { next := 31 })] }, 2, by decide +kernel⟩,
   ⟨mkS fun d => { d with lineTrue := [(2, { subject := some 31 })] }, 2, -38, 1966, 31, by decide +kernel⟩,
   ⟨mkS fun d => { d with lineTrue := [(2, { subject := some 31 })] }, 2, -39, 0, 31, by decide +kernel⟩,
   ⟨mkS fun d => { d.setNum (PWM.TRUE_LINE 2) 0x80000001 with lineSwap := [(3, 5), (95, 64)] }, 95, 64, by decide +kernel⟩⟩

/-- The hypotheses of clauses 1 to 11 of RailsAndPhases are met. -/
theorem witness_RailsAndPhases_1 :
    (∃ (s : State) (a : Agent) (r : Fin 8) (v : Word), s.dev.takes a.id (PHASE.PH_RAIL_CTRL r.val) v = true ∧ s.dev.railRuns r.val = false) ∧
    (∃ (s : State) (a : Agent) (r : Fin 8) (v : Word), s.dev.takes a.id (PHASE.PH_RAIL_CTRL r.val) v = true ∧ s.dev.railRuns r.val = true ∧
      (min (v.toNat % 128) ((s.dev.railPhases r.val).filter s.dev.phGood).length) ≠ s.dev.fld (PHASE.PH_RAIL_STATUS_N r.val)) ∧
    (∃ (s : State) (r : Fin 8) (n : Nat), s.dev.flag (PHASE.PH_RAIL_ADD_ADD_EN r.val) = true ∧ s.dev.railRuns r.val = false ∧
      n = max (s.dev.fld (PHASE.PH_RAIL_CTRL_ACTIVE r.val)) (s.dev.fld (PHASE.PH_RAIL_ADD_ADD_TO r.val))) ∧
    (∃ (s : State) (r : Fin 8) (n : Nat), s.dev.flag (PHASE.PH_RAIL_ADD_ADD_EN r.val) = true ∧ s.dev.railRuns r.val = true ∧
      n = max (s.dev.fld (PHASE.PH_RAIL_CTRL_ACTIVE r.val)) (s.dev.fld (PHASE.PH_RAIL_ADD_ADD_TO r.val))) ∧
    (∃ (s : State) (o : Fin 96) (n : Nat), s.dev.timRun (o.val / 2) = 1 ∧ s.dev.outSrc o.val = 2 ∧ s.dev.detState (o.val / 2) = 0 ∧
      (s.dev.out o.val).moved = false ∧ (s.dev.out o.val).formed = false ∧ (s.dev.out o.val).later = false ∧ (s.dev.out o.val).wins = [] ∧
      (s.dev.out o.val).ndDt = none ∧ s.dev.moveOf o.val (s.dev.out o.val).nextF = -(n : Int) ∧ 0 < n ∧
      s.dev.due ((s.dev.out o.val).nextF - tks n - setupS) = true ∧ dist s.dev.now ((s.dev.out o.val).nextF - tks n) ≥ 0) ∧
    (∃ (s : State) (a : Agent) (v : Word), s.dev.takes a.id PHASE.PH_PHASE_CMD v = true ∧ wordBit v 8 = true ∧
      s.dev.phRole (v.toNat % 128) = 0 ∧ s.dev.phState (v.toNat % 128) ≠ 5) ∧
    (∃ (s : State) (a : Agent) (v : Word), s.dev.takes a.id PHASE.PH_PHASE_CMD v = true ∧ wordBit v 8 = true ∧
      s.dev.phRole (v.toNat % 128) ≠ 0 ∧ s.dev.phState (v.toNat % 128) ≠ 5 ∧ s.dev.railRuns (s.dev.phRail (v.toNat % 128)) = true ∧
      s.dev.railList (s.dev.phRail (v.toNat % 128)) = [v.toNat % 128] ∧ s.dev.ranked (s.dev.phRail (v.toNat % 128)) 2 = [] ∧
      s.dev.railPhases (s.dev.phRail (v.toNat % 128)) = [v.toNat % 128] ∧
      s.dev.flag (PHASE.PH_RAIL_CFG_ON_LOSS (s.dev.phRail (v.toNat % 128))) = false) ∧
    (∃ (s : State) (a : Agent) (v : Word), s.dev.takes a.id PHASE.PH_PHASE_CMD v = true ∧ wordBit v 8 = true ∧
      s.dev.phRole (v.toNat % 128) ≠ 0 ∧ s.dev.phState (v.toNat % 128) ≠ 5 ∧ s.dev.railRuns (s.dev.phRail (v.toNat % 128)) = true ∧
      s.dev.railList (s.dev.phRail (v.toNat % 128)) = [v.toNat % 128] ∧ s.dev.ranked (s.dev.phRail (v.toNat % 128)) 2 = [] ∧
      s.dev.railPhases (s.dev.phRail (v.toNat % 128)) = [v.toNat % 128] ∧
      s.dev.flag (PHASE.PH_RAIL_CFG_ON_LOSS (s.dev.phRail (v.toNat % 128))) = true) ∧
    (∃ (s : State) (a : Agent) (v : Word), s.dev.takes a.id PHASE.PH_PHASE_CMD v = true ∧ wordBit v 9 = true ∧ wordBit v 8 = false ∧
      s.dev.phRole (v.toNat % 128) = 0 ∧ s.dev.phState (v.toNat % 128) = 5) ∧
    (∃ (s : State) (a : Agent) (v : Word), s.dev.takes a.id PHASE.PH_PHASE_CMD v = true ∧ wordBit v 9 = true ∧ wordBit v 8 = false ∧
      s.dev.phRole (v.toNat % 128) ≠ 0 ∧ s.dev.phState (v.toNat % 128) = 5) ∧
    (∃ (s : State) (a : Agent) (r : Fin 8) (v : Word), s.dev.takes a.id (PHASE.PH_RAIL_CMD r.val) v = true ∧ wordBit v 0 = true) :=
  ⟨⟨mkS fun d => d, .loader, 7, 12, by decide +kernel⟩,
   ⟨mkS fun d =>
      { ((d.setFld (PHASE.PH_RAIL_STATUS_STATE 7) 1).setFld (PHASE.PH_MAP_ROLE 95) 1).setFld (PHASE.PH_MAP_RAIL 95) 7 with phs := [] }, .loader, 7, 12, by decide +kernel⟩,
   ⟨mkS fun d => (d.setFld (PHASE.PH_RAIL_ADD_ADD_EN 7) 1).setFld (PHASE.PH_RAIL_ADD_ADD_TO 7) 5, 7, 5, by decide +kernel⟩,
   ⟨mkS fun d =>
      (({ ((d.setFld (PHASE.PH_RAIL_STATUS_STATE 7) 1).setFld (PHASE.PH_MAP_ROLE 95) 1).setFld (PHASE.PH_MAP_RAIL 95) 7 with phs := [] } : Dev).setFld (PHASE.PH_RAIL_ADD_ADD_EN 7) 1).setFld (PHASE.PH_RAIL_ADD_ADD_TO 7) 5, 7, 5, by decide +kernel⟩,
   ⟨mkS fun d =>
      { (((((((d.setFld (PWM.TIM_STATUS_RUN 47) 1).setFld (PWM.TIM_OUT_CFG_SRC_B 47) 2).setNum (PWM.TIM_PER 47) 100).setFld (PHASE.PH_RAIL_STATUS_STATE 7) 1).setFld (PHASE.PH_MAP_ROLE 95) 1).setFld (PHASE.PH_MAP_RAIL 95) 7).setFld (PHASE.PH_STATE_STATE 95) 3).setNum (PHASE.PH_POS 95) 300 with phs := [(95, { target := 200, dir := some true })], rails := [(7, [95])], outs := [(95, { nextF := 6400 })], time := { milepost := 6200 } }, 95, 100, by decide +kernel⟩,
   ⟨mkS fun d => d, .loader, 0x105, by decide +kernel⟩,
   ⟨mkS fun d =>
      { { ((d.setFld (PHASE.PH_RAIL_STATUS_STATE 7) 1).setFld (PHASE.PH_MAP_ROLE 95) 1).setFld (PHASE.PH_MAP_RAIL 95) 7 with phs := [] } with rails := [(7, [95])], phs := [(95, { dir := some true })] }, .loader, 0x15F, by decide +kernel⟩,
   ⟨mkS fun d =>
      { ((({ ((d.setFld (PHASE.PH_RAIL_STATUS_STATE 7) 1).setFld (PHASE.PH_MAP_ROLE 95) 1).setFld (PHASE.PH_MAP_RAIL 95) 7 with phs := [] } : Dev)).setFld (PHASE.PH_RAIL_CFG_ON_LOSS 7) 1) with rails := [(7, [95])], phs := [(95, { dir := some true })] }, .loader, 0x15F, by decide +kernel⟩,
   ⟨mkS fun d => d.setNum (PHASE.PH_STATE 5) 5, .loader, 0x205, by decide +kernel⟩,
   ⟨mkS fun d =>
      ({ ((d.setFld (PHASE.PH_RAIL_STATUS_STATE 7) 1).setFld (PHASE.PH_MAP_ROLE 95) 1).setFld (PHASE.PH_MAP_RAIL 95) 7 with phs := [] } : Dev).setNum (PHASE.PH_STATE 95) 5, .loader, 0x25F, by decide +kernel⟩,
   ⟨mkS fun d => d.setNum (PHASE.PH_RAIL_COUNTS 7) 5, .loader, 7, 1, by decide +kernel⟩⟩

/-- The hypotheses of clauses 1 to 12 of EdgeWitness are met. -/
theorem witness_EdgeWitness_1 :
    (∃ (s : State) (p : Fin 96) (dq : Int) (l : Fin 3), s.dev.flag (WITNESS.WIT_STATUS_MEASURING p.val) = true ∧ (s.dev.wit p.val).trs = []) ∧
    (∃ (s : State) (p : Fin 96) (dq : Int) (l : Fin 3) (x : WitTr), s.dev.flag (WITNESS.WIT_STATUS_MEASURING p.val) = true ∧
      (s.dev.wit p.val).trs = [x] ∧ nearest (s.dev.wit p.val).edges (s.dev.witTol p.val + 1000) x = none ∧
      s.dev.due (x.time + tks (max (s.dev.witHalf p.val) 640)) = true ∧ (s.dev.wit p.val).nearUnmeasured x.time = false) ∧
    (∃ (s : State) (p : Fin 96) (dq : Int) (l : Fin 3) (x : WitTr), s.dev.flag (WITNESS.WIT_STATUS_MEASURING p.val) = true ∧
      (s.dev.wit p.val).trs = [x] ∧ nearest (s.dev.wit p.val).edges (s.dev.witTol p.val + 1000) x = none ∧
      s.dev.due (x.time + tks (max (s.dev.witHalf p.val) 640)) = true ∧ (s.dev.wit p.val).nearUnmeasured x.time = true) ∧
    (∃ (s : State) (p : Fin 96) (e : WitEdge) (rest : List WitEdge) (x : WitTr), (s.dev.wit p.val).edges = e :: rest ∧
      (s.dev.wit p.val).trs = [x] ∧ nearest (e :: rest) (s.dev.witTol p.val + 1000) x = some 0 ∧
      s.dev.due (e.t + tks (s.dev.witHalf p.val)) = true ∧ dist e.t x.time ≤ dist x.time s.dev.now ∧ x.level = e.level ∧
      (witError e x).natAbs ≤ s.dev.witTol p.val ∧ (s.dev.wit p.val).extras = []) ∧
    (∃ (s : State) (p : Fin 96) (e : WitEdge) (rest : List WitEdge) (x : WitTr), (s.dev.wit p.val).edges = e :: rest ∧
      (s.dev.wit p.val).trs = [x] ∧ nearest (e :: rest) (s.dev.witTol p.val + 1000) x = some 0 ∧
      s.dev.due (e.t + tks (s.dev.witHalf p.val)) = true ∧ dist e.t x.time ≤ dist x.time s.dev.now ∧
      (x.level ≠ e.level ∨ s.dev.witTol p.val < (witError e x).natAbs) ∧ (s.dev.wit p.val).extras = [] ∧
      (satInc 31 (s.dev.fld (WITNESS.WIT_STATUS_RUN p.val)) < s.dev.fld (WITNESS.WIT_CFG_COUNT p.val) ∨ s.dev.flag (WITNESS.WIT_STATUS_FAULTED p.val) = true)) ∧
    (∃ (s : State) (p : Fin 96) (e : WitEdge) (rest : List WitEdge) (x : WitTr) (y : Time), (s.dev.wit p.val).edges = e :: rest ∧
      (s.dev.wit p.val).trs = [x] ∧ nearest (e :: rest) (s.dev.witTol p.val + 1000) x = some 0 ∧
      s.dev.due (e.t + tks (s.dev.witHalf p.val)) = true ∧ dist e.t x.time ≤ dist x.time s.dev.now ∧ (s.dev.wit p.val).extras = [y] ∧
      before y e.t = true ∧
      (satInc 31 (s.dev.fld (WITNESS.WIT_STATUS_RUN p.val)) < s.dev.fld (WITNESS.WIT_CFG_COUNT p.val) ∨ s.dev.flag (WITNESS.WIT_STATUS_FAULTED p.val) = true)) ∧
    (∃ (s : State) (p : Fin 96) (e : WitEdge) (rest : List WitEdge), (s.dev.wit p.val).edges = e :: rest ∧ (s.dev.wit p.val).trs = [] ∧
      (s.dev.wit p.val).extras = [] ∧ (s.dev.wit p.val).nearUnmeasured e.t = false ∧
      s.dev.due (e.t + tks (max (s.dev.witHalf p.val) 640)) = true ∧
      (satInc 31 (s.dev.fld (WITNESS.WIT_STATUS_RUN p.val)) < s.dev.fld (WITNESS.WIT_CFG_COUNT p.val) ∨ s.dev.flag (WITNESS.WIT_STATUS_FAULTED p.val) = true)) ∧
    (∃ (s : State) (p : Fin 96) (e : WitEdge) (rest : List WitEdge), (s.dev.wit p.val).edges = e :: rest ∧ (s.dev.wit p.val).trs = [] ∧
      (s.dev.wit p.val).extras = [] ∧ (s.dev.wit p.val).nearUnmeasured e.t = false ∧
      s.dev.due (e.t + tks (max (s.dev.witHalf p.val) 640)) = true ∧
      s.dev.fld (WITNESS.WIT_CFG_COUNT p.val) ≤ satInc 31 (s.dev.fld (WITNESS.WIT_STATUS_RUN p.val)) ∧
      s.dev.flag (WITNESS.WIT_STATUS_FAULTED p.val) = false) ∧
    (∃ (s : State) (p : Fin 96) (e : WitEdge) (rest : List WitEdge), (s.dev.wit p.val).edges = e :: rest ∧ (s.dev.wit p.val).trs = [] ∧
      (s.dev.wit p.val).extras = [] ∧ (s.dev.wit p.val).nearUnmeasured e.t = true ∧
      s.dev.due (e.t + tks (max (s.dev.witHalf p.val) 640)) = true) ∧
    (∃ (s : State) (a : Agent) (p : Fin 96) (v : Word), s.dev.takes a.id (WITNESS.WIT_CMD p.val) v = true ∧ wordBit v 1 = true ∧
      wordBit v 0 = false) ∧
    (∃ (s : State) (a : Agent) (p : Fin 96) (v : Word), s.dev.takes a.id (WITNESS.WIT_CMD p.val) v = true ∧ wordBit v 0 = true ∧
      wordBit v 1 = false) ∧
    (∃ (s : State) (b : Fin 3), s.dev.powered (33 + b.val) 10000 = true) :=
  ⟨⟨mkS fun d =>
      { d.setFld (WITNESS.WIT_STATUS_MEASURING 95) 1 with wits := [(95, { edges := [{ t := 640, level := .high }] })], time := { milepost := 640 } }, 95, -300, 2, by decide +kernel⟩,
   ⟨mkS fun d =>
      { d.setFld (WITNESS.WIT_STATUS_MEASURING 95) 1 with wits := [(95, { trs := [{ base := 64, ps := -300, level := .low }] })], time := { milepost := 6400 } }, 95, -300, 2, { base := 64, ps := -300, level := .low }, by decide +kernel⟩,
   ⟨mkS fun d =>
      { d.setFld (WITNESS.WIT_STATUS_MEASURING 95) 1 with wits := [(95, { trs := [{ base := 64, ps := -300, level := .low }], unmeasured := [640] })], time := { milepost := 6400 } }, 95, -300, 2, { base := 64, ps := -300, level := .low }, by decide +kernel⟩,
   ⟨mkS fun d =>
      { (d.setFld (WITNESS.WIT_CFG_TOL 95) 100).setNum (WITNESS.WIT_COUNT 95) 0x1FFFF with wits := [(95, { edges := [{ t := 640, level := .high }], trs := [{ base := 640, ps := -30, level := .high }] })], time := { milepost := 6400 } }, 95, { t := 640, level := .high }, [], { base := 640, ps := -30, level := .high }, by decide +kernel⟩,
   ⟨mkS fun d =>
      { (d.setFld (WITNESS.WIT_CFG_COUNT 95) 3).setFld (WITNESS.WIT_CFG_TOL 95) 100 with wits := [(95, { edges := [{ t := 640, level := .high }], trs := [{ base := 640, ps := -130, level := .high }] })], time := { milepost := 640000 } }, 95, { t := 640, level := .high }, [], { base := 640, ps := -130, level := .high }, by decide +kernel⟩,
   ⟨mkS fun d =>
      { (d.setFld (WITNESS.WIT_CFG_COUNT 95) 3).setFld (WITNESS.WIT_CFG_TOL 95) 100 with wits := [(95, { edges := [{ t := 640, level := .high }], trs := [{ base := 640, ps := -30, level := .high }], extras := [64] })], time := { milepost := 640000 } }, 95, { t := 640, level := .high }, [], { base := 640, ps := -30, level := .high }, 64, by decide +kernel⟩,
   ⟨mkS fun d =>
      { (d.setFld (WITNESS.WIT_CFG_COUNT 95) 3).setFld (WITNESS.WIT_CFG_TOL 95) 100 with wits := [(95, { edges := [{ t := 640, level := .high }] })], time := { milepost := 640000 } }, 95, { t := 640, level := .high }, [], by decide +kernel⟩,
   ⟨mkS fun d =>
      { (d.setFld (WITNESS.WIT_CFG_COUNT 95) 1).setFld (WITNESS.WIT_CFG_TOL 95) 100 with wits := [(95, { edges := [{ t := 640, level := .high }] })], time := { milepost := 640000 } }, 95, { t := 640, level := .high }, [], by decide +kernel⟩,
   ⟨mkS fun d =>
      { (d.setFld (WITNESS.WIT_CFG_COUNT 95) 1).setFld (WITNESS.WIT_CFG_TOL 95) 100 with wits := [(95, { edges := [{ t := 640, level := .high }], unmeasured := [1280] })], time := { milepost := 640000 } }, 95, { t := 640, level := .high }, [], by decide +kernel⟩,
   ⟨mkS fun d => d.setNum (WITNESS.WIT_STATUS 95) 0x10001, .loader, 95, 2, by decide +kernel⟩,
   ⟨mkS fun d => d.setNum (WITNESS.WIT_COUNT 95) 0x10001, .loader, 95, 1, by decide +kernel⟩,
   ⟨mkS fun d =>
      { (d.setFld (WITNESS.WIT_CFG_ENABLE 95) 1).setFld (PINMUX.PIN_OWN_FUNC 95) 4 with domUp := [35], sup := { upAt := [(35, 0)] }, time := { milepost := nsT 20000 } }, 2, by decide +kernel⟩⟩

/-- The hypotheses of clauses 1 to 7 of TimerDetours are met. -/
theorem witness_TimerDetours_1 :
    (∃ (s : State) (t : Fin 48), s.dev.detState t.val = 1 ∧ (s.dev.det t.val).copied = false ∧ (s.dev.detPartner t.val) ≠ t.val ∧
      (s.dev.detPartner t.val) < 48) ∧
    (∃ (s : State) (t : Fin 48), s.dev.detState t.val = 1 ∧ (s.dev.det t.val).copied = true ∧ (s.dev.det t.val).shadow = false ∧
      s.dev.due ((s.dev.det t.val).tf + nsT 1000) = true ∧ (s.dev.detPartner t.val) ≠ t.val ∧ (s.dev.detPartner t.val) < 48) ∧
    (∃ (s : State) (t : Fin 48) (ts : Time) (hold : Bool), s.dev.detState t.val = 1 ∧ (s.dev.det t.val).shadow = true ∧
      (s.dev.det t.val).ts = none ∧ s.dev.switchAt t.val ((s.dev.det t.val).tf + nsT 1000) = some (ts, hold)) ∧
    (∃ (s : State) (t : Fin 48), s.dev.detState t.val = 1 ∧ (s.dev.det t.val).shadow = true ∧ (s.dev.det t.val).ts = none ∧
      s.dev.timSteady t.val = false ∧ s.dev.due ((s.dev.det t.val).tf + nsT 1000) = true ∧ s.dev.due ((s.dev.det t.val).tf + nsT 1900) = true) ∧
    (∃ (s : State) (t : Fin 48) (x : Time), s.dev.detState t.val = 1 ∧ (s.dev.det t.val).ts = some x ∧ s.dev.due (x + nsT 4) = true ∧
      (s.dev.detPartner t.val) ≠ t.val ∧ (s.dev.detPartner t.val) < 48) ∧
    (∃ (s : State) (a : Agent) (v : Word), s.dev.takes a.id WITNESS.DET_CMD v = true ∧ wordBit v 31 = true) ∧
    (∃ (s : State) (t : Fin 48) (r : Time), s.dev.detState t.val = 4 ∧ (s.dev.det t.val).returnAt = some r ∧ s.dev.due r = true ∧
      (s.dev.timSteady (s.dev.detPartner t.val) = true ∨ s.dev.due (r + nsT 900) = true) ∧ (s.dev.detPartner t.val) ≠ t.val ∧
      (s.dev.detPartner t.val) < 48 ∧ (s.dev.det t.val).saved.all (fun x => (timWords (s.dev.detPartner t.val)).contains x.1) = true) :=
  ⟨⟨mkS fun d =>
      { (((d.setFld (WITNESS.DET_STATUS_STATE 3) 1).setFld (WITNESS.DET_STATUS_PARTNER 3) 17).setFld (WITNESS.DET_STATUS_STATE 17) 3).setNum (PWM.TIM_PER 3) 100 with dets := [(3, { tf := 640 })], tims := [(3, { k := 5, p := 6400 })], outs := [(6, { nd := .main })], time := { milepost := 1000 } }, 3, by decide +kernel⟩,
   ⟨mkS fun d =>
      { (((d.setFld (WITNESS.DET_STATUS_STATE 3) 1).setFld (WITNESS.DET_STATUS_PARTNER 3) 17).setFld (WITNESS.DET_STATUS_STATE 17) 3).setNum (PWM.TIM_PER 3) 100 with dets := [(3, { tf := 640, copied := true })], tims := [(3, { k := 5, p := 6400 })], outs := [(6, { nd := .main })], time := { milepost := nsT 2000 } }, 3, by decide +kernel⟩,
   ⟨mkS fun d =>
      { (((d.setFld (WITNESS.DET_STATUS_STATE 3) 1).setFld (WITNESS.DET_STATUS_PARTNER 3) 17).setFld (WITNESS.DET_STATUS_STATE 17) 3).setNum (PWM.TIM_PER 3) 100 with dets := [(3, { tf := 640, copied := true, shadow := true })], tims := [(3, { k := 5, p := 6400 })], outs := [(6, { nd := .main })], time := { milepost := nsT 2000 } }, 3, 640 + nsT 1000, true, by decide +kernel⟩,
   ⟨mkS fun d =>
      { (((d.setFld (WITNESS.DET_STATUS_STATE 3) 1).setFld (WITNESS.DET_STATUS_PARTNER 3) 17).setFld (WITNESS.DET_STATUS_STATE 17) 3).setNum (PWM.TIM_PER 3) 100 with dets := [(3, { tf := 640, copied := true, shadow := true })], tims := [(3, { k := 5, p := 6400 })], outs := [(6, { nd := .main, lastCh := nsT 1999 })], time := { milepost := nsT 2000 } }, 3, by decide +kernel⟩,
   ⟨mkS fun d =>
      { (((d.setFld (WITNESS.DET_STATUS_STATE 3) 1).setFld (WITNESS.DET_STATUS_PARTNER 3) 17).setFld (WITNESS.DET_STATUS_STATE 17) 3).setNum (PWM.TIM_PER 3) 100 with dets := [(3, { tf := 640, copied := true, shadow := true, ts := some 700 })], tims := [(3, { k := 5, p := 6400 })], outs := [(6, { nd := .main })], time := { milepost := nsT 2000 } }, 3, 700, by decide +kernel⟩,
   ⟨mkS fun d =>
      ((((d.setFld (WITNESS.DET_STATUS_STATE 3) 2).setFld (PWM.BANK_STATUS_READY 0) 1).setReg64 WITNESS.DET_RETURN_AT (nsT 3000))), .loader, 0x80000003, by decide +kernel⟩,
   ⟨mkS fun d =>
      { (((d.setFld (WITNESS.DET_STATUS_STATE 3) 4).setFld (WITNESS.DET_STATUS_PARTNER 3) 17).setFld (WITNESS.DET_STATUS_STATE 17) 3).setNum (PWM.TIM_PER 3) 100 with dets := [(3, { tf := 640, returnAt := some 700 })], tims := [(3, { k := 5, p := 6400 })], outs := [(6, { nd := .main })], time := { milepost := nsT 2000 } }, 3, 700, by decide +kernel⟩⟩

/-- The hypotheses of clauses 1 to 12 of CoreAlu are met. -/
theorem witness_CoreAlu_1 :
    (∃ (s : State) (c : Fin 4) (w : Word) (f : Bool) (rd : Nat) (ra : Nat) (rb : Nat), s.dev.runs c w = true ∧ decodeW w = .alu .add f rd ra rb) ∧
    (∃ (s : State) (c : Fin 4) (w : Word) (f : Bool) (rd : Nat) (ra : Nat) (rb : Nat), s.dev.runs c w = true ∧ decodeW w = .alu .sub f rd ra rb) ∧
    (∃ (s : State) (c : Fin 4) (w : Word) (f : Bool) (rd : Nat) (ra : Nat) (rb : Nat), s.dev.runs c w = true ∧ decodeW w = .alu .adc f rd ra rb) ∧
    (∃ (s : State) (c : Fin 4) (w : Word) (f : Bool) (rd : Nat) (ra : Nat) (rb : Nat), s.dev.runs c w = true ∧ decodeW w = .alu .sbc f rd ra rb) ∧
    (∃ (s : State) (c : Fin 4) (w : Word) (f : Bool) (rd : Nat) (ra : Nat) (rb : Nat), s.dev.runs c w = true ∧ decodeW w = .alu .and f rd ra rb) ∧
    (∃ (s : State) (c : Fin 4) (w : Word) (f : Bool) (rd : Nat) (ra : Nat) (rb : Nat), s.dev.runs c w = true ∧ decodeW w = .alu .or f rd ra rb) ∧
    (∃ (s : State) (c : Fin 4) (w : Word) (f : Bool) (rd : Nat) (ra : Nat) (rb : Nat), s.dev.runs c w = true ∧ decodeW w = .alu .xor f rd ra rb) ∧
    (∃ (s : State) (c : Fin 4) (w : Word) (f : Bool) (rd : Nat) (ra : Nat) (rb : Nat), s.dev.runs c w = true ∧ decodeW w = .alu .andn f rd ra rb) ∧
    (∃ (s : State) (c : Fin 4) (w : Word) (f : Bool) (rd : Nat) (ra : Nat) (rb : Nat), s.dev.runs c w = true ∧ decodeW w = .alu .sll f rd ra rb) ∧
    (∃ (s : State) (c : Fin 4) (w : Word) (f : Bool) (rd : Nat) (ra : Nat) (rb : Nat), s.dev.runs c w = true ∧ decodeW w = .alu .srl f rd ra rb) ∧
    (∃ (s : State) (c : Fin 4) (w : Word) (f : Bool) (rd : Nat) (ra : Nat) (rb : Nat), s.dev.runs c w = true ∧ decodeW w = .alu .sra f rd ra rb) ∧
    (∃ (s : State) (c : Fin 4) (w : Word) (f : Bool) (rd : Nat) (ra : Nat) (rb : Nat), s.dev.runs c w = true ∧ decodeW w = .alu .ror f rd ra rb) :=
  ⟨⟨mkS fun d =>
      withWord 1 (0x800a4183) ((((d.setReg SUPPLY.DOM_STATUS_0 0xFFFFFFFF).setFld MEMCTL.SRAM_STATUS_READY 255).setFld (CORES.CORE_STATUS_STATE 1) 2).putCore 1 { pc := 0x100, g := [(4, 0x80000000), (5, 0x7FFFFFFF), (6, 33)] }), 1, 0x800a4183, true, 3, 4, 5, by decide +kernel⟩,
   ⟨mkS fun d =>
      withWord 1 (0x804a4183) ((((d.setReg SUPPLY.DOM_STATUS_0 0xFFFFFFFF).setFld MEMCTL.SRAM_STATUS_READY 255).setFld (CORES.CORE_STATUS_STATE 1) 2).putCore 1 { pc := 0x100, g := [(4, 0x80000000), (5, 0x7FFFFFFF), (6, 33)] }), 1, 0x804a4183, true, 3, 4, 5, by decide +kernel⟩,
   ⟨mkS fun d =>
      withWord 1 (0x8a4183) ((((d.setReg SUPPLY.DOM_STATUS_0 0xFFFFFFFF).setFld MEMCTL.SRAM_STATUS_READY 255).setFld (CORES.CORE_STATUS_STATE 1) 2).putCore 1 { pc := 0x100, g := [(4, 0x80000000), (5, 0x7FFFFFFF), (6, 33)] }), 1, 0x8a4183, false, 3, 4, 5, by decide +kernel⟩,
   ⟨mkS fun d =>
      withWord 1 (0xca4183) ((((d.setReg SUPPLY.DOM_STATUS_0 0xFFFFFFFF).setFld MEMCTL.SRAM_STATUS_READY 255).setFld (CORES.CORE_STATUS_STATE 1) 2).putCore 1 { pc := 0x100, g := [(4, 0x80000000), (5, 0x7FFFFFFF), (6, 33)] }), 1, 0xca4183, false, 3, 4, 5, by decide +kernel⟩,
   ⟨mkS fun d =>
      withWord 1 (0x810a4183) ((((d.setReg SUPPLY.DOM_STATUS_0 0xFFFFFFFF).setFld MEMCTL.SRAM_STATUS_READY 255).setFld (CORES.CORE_STATUS_STATE 1) 2).putCore 1 { pc := 0x100, g := [(4, 0x80000000), (5, 0x7FFFFFFF), (6, 33)] }), 1, 0x810a4183, true, 3, 4, 5, by decide +kernel⟩,
   ⟨mkS fun d =>
      withWord 1 (0x814a4183) ((((d.setReg SUPPLY.DOM_STATUS_0 0xFFFFFFFF).setFld MEMCTL.SRAM_STATUS_READY 255).setFld (CORES.CORE_STATUS_STATE 1) 2).putCore 1 { pc := 0x100, g := [(4, 0x80000000), (5, 0x7FFFFFFF), (6, 33)] }), 1, 0x814a4183, true, 3, 4, 5, by decide +kernel⟩,
   ⟨mkS fun d =>
      withWord 1 (0x818a4183) ((((d.setReg SUPPLY.DOM_STATUS_0 0xFFFFFFFF).setFld MEMCTL.SRAM_STATUS_READY 255).setFld (CORES.CORE_STATUS_STATE 1) 2).putCore 1 { pc := 0x100, g := [(4, 0x80000000), (5, 0x7FFFFFFF), (6, 33)] }), 1, 0x818a4183, true, 3, 4, 5, by decide +kernel⟩,
   ⟨mkS fun d =>
      withWord 1 (0x81ca4183) ((((d.setReg SUPPLY.DOM_STATUS_0 0xFFFFFFFF).setFld MEMCTL.SRAM_STATUS_READY 255).setFld (CORES.CORE_STATUS_STATE 1) 2).putCore 1 { pc := 0x100, g := [(4, 0x80000000), (5, 0x7FFFFFFF), (6, 33)] }), 1, 0x81ca4183, true, 3, 4, 5, by decide +kernel⟩,
   ⟨mkS fun d =>
      withWord 1 (0x820c4183) ((((d.setReg SUPPLY.DOM_STATUS_0 0xFFFFFFFF).setFld MEMCTL.SRAM_STATUS_READY 255).setFld (CORES.CORE_STATUS_STATE 1) 2).putCore 1 { pc := 0x100, g := [(4, 0x80000000), (5, 0x7FFFFFFF), (6, 33)] }), 1, 0x820c4183, true, 3, 4, 6, by decide +kernel⟩,
   ⟨mkS fun d =>
      withWord 1 (0x824c4183) ((((d.setReg SUPPLY.DOM_STATUS_0 0xFFFFFFFF).setFld MEMCTL.SRAM_STATUS_READY 255).setFld (CORES.CORE_STATUS_STATE 1) 2).putCore 1 { pc := 0x100, g := [(4, 0x80000000), (5, 0x7FFFFFFF), (6, 33)] }), 1, 0x824c4183, true, 3, 4, 6, by decide +kernel⟩,
   ⟨mkS fun d =>
      withWord 1 (0x828c4183) ((((d.setReg SUPPLY.DOM_STATUS_0 0xFFFFFFFF).setFld MEMCTL.SRAM_STATUS_READY 255).setFld (CORES.CORE_STATUS_STATE 1) 2).putCore 1 { pc := 0x100, g := [(4, 0x80000000), (5, 0x7FFFFFFF), (6, 33)] }), 1, 0x828c4183, true, 3, 4, 6, by decide +kernel⟩,
   ⟨mkS fun d =>
      withWord 1 (0x82cc4183) ((((d.setReg SUPPLY.DOM_STATUS_0 0xFFFFFFFF).setFld MEMCTL.SRAM_STATUS_READY 255).setFld (CORES.CORE_STATUS_STATE 1) 2).putCore 1 { pc := 0x100, g := [(4, 0x80000000), (5, 0x7FFFFFFF), (6, 33)] }), 1, 0x82cc4183, true, 3, 4, 6, by decide +kernel⟩⟩

/-- The hypotheses of clauses 13 to 24 of CoreAlu are met. -/
theorem witness_CoreAlu_13 :
    (∃ (s : State) (c : Fin 4) (w : Word) (f : Bool) (rd : Nat) (ra : Nat) (rb : Nat), s.dev.runs c w = true ∧ decodeW w = .alu .min f rd ra rb) ∧
    (∃ (s : State) (c : Fin 4) (w : Word) (f : Bool) (rd : Nat) (ra : Nat) (rb : Nat), s.dev.runs c w = true ∧ decodeW w = .alu .max f rd ra rb) ∧
    (∃ (s : State) (c : Fin 4) (w : Word) (f : Bool) (rd : Nat) (ra : Nat) (rb : Nat), s.dev.runs c w = true ∧ decodeW w = .alu .minu f rd ra rb) ∧
    (∃ (s : State) (c : Fin 4) (w : Word) (f : Bool) (rd : Nat) (ra : Nat) (rb : Nat), s.dev.runs c w = true ∧ decodeW w = .alu .maxu f rd ra rb) ∧
    (∃ (s : State) (c : Fin 4) (w : Word) (f : Bool) (rd : Nat) (ra : Nat) (rb : Nat), s.dev.runs c w = true ∧ decodeW w = .alu .slt f rd ra rb) ∧
    (∃ (s : State) (c : Fin 4) (w : Word) (f : Bool) (rd : Nat) (ra : Nat) (rb : Nat), s.dev.runs c w = true ∧ decodeW w = .alu .sltu f rd ra rb) ∧
    (∃ (s : State) (c : Fin 4) (w : Word) (f : Bool) (rd : Nat) (ra : Nat) (rb : Nat), s.dev.runs c w = true ∧ decodeW w = .alu .neg f rd ra rb) ∧
    (∃ (s : State) (c : Fin 4) (w : Word) (f : Bool) (rd : Nat) (ra : Nat) (rb : Nat), s.dev.runs c w = true ∧ decodeW w = .alu .not f rd ra rb) ∧
    (∃ (s : State) (c : Fin 4) (w : Word) (rd : Nat) (ra : Nat) (k : Word), s.dev.runs c w = true ∧ decodeW w = .addi false rd ra k) ∧
    (∃ (s : State) (c : Fin 4) (w : Word) (rd : Nat) (ra : Nat) (k : Word), s.dev.runs c w = true ∧ decodeW w = .addi false rd ra k) ∧
    (∃ (s : State) (c : Fin 4) (w : Word) (rd : Nat) (ra : Nat) (k : Word), s.dev.runs c w = true ∧ decodeW w = .addi true rd ra k) ∧
    (∃ (s : State) (c : Fin 4) (w : Word) (rd : Nat) (ra : Nat) (k : Word), s.dev.runs c w = true ∧ decodeW w = .logi .and rd ra k) :=
  ⟨⟨mkS fun d =>
      withWord 1 (0x830a4183) ((((d.setReg SUPPLY.DOM_STATUS_0 0xFFFFFFFF).setFld MEMCTL.SRAM_STATUS_READY 255).setFld (CORES.CORE_STATUS_STATE 1) 2).putCore 1 { pc := 0x100, g := [(4, 0x80000000), (5, 0x7FFFFFFF), (6, 33)] }), 1, 0x830a4183, true, 3, 4, 5, by decide +kernel⟩,
   ⟨mkS fun d =>
      withWord 1 (0x834a4183) ((((d.setReg SUPPLY.DOM_STATUS_0 0xFFFFFFFF).setFld MEMCTL.SRAM_STATUS_READY 255).setFld (CORES.CORE_STATUS_STATE 1) 2).putCore 1 { pc := 0x100, g := [(4, 0x80000000), (5, 0x7FFFFFFF), (6, 33)] }), 1, 0x834a4183, true, 3, 4, 5, by decide +kernel⟩,
   ⟨mkS fun d =>
      withWord 1 (0x838a4183) ((((d.setReg SUPPLY.DOM_STATUS_0 0xFFFFFFFF).setFld MEMCTL.SRAM_STATUS_READY 255).setFld (CORES.CORE_STATUS_STATE 1) 2).putCore 1 { pc := 0x100, g := [(4, 0x80000000), (5, 0x7FFFFFFF), (6, 33)] }), 1, 0x838a4183, true, 3, 4, 5, by decide +kernel⟩,
   ⟨mkS fun d =>
      withWord 1 (0x83ca4183) ((((d.setReg SUPPLY.DOM_STATUS_0 0xFFFFFFFF).setFld MEMCTL.SRAM_STATUS_READY 255).setFld (CORES.CORE_STATUS_STATE 1) 2).putCore 1 { pc := 0x100, g := [(4, 0x80000000), (5, 0x7FFFFFFF), (6, 33)] }), 1, 0x83ca4183, true, 3, 4, 5, by decide +kernel⟩,
   ⟨mkS fun d =>
      withWord 1 (0x840a4183) ((((d.setReg SUPPLY.DOM_STATUS_0 0xFFFFFFFF).setFld MEMCTL.SRAM_STATUS_READY 255).setFld (CORES.CORE_STATUS_STATE 1) 2).putCore 1 { pc := 0x100, g := [(4, 0x80000000), (5, 0x7FFFFFFF), (6, 33)] }), 1, 0x840a4183, true, 3, 4, 5, by decide +kernel⟩,
   ⟨mkS fun d =>
      withWord 1 (0x844a4183) ((((d.setReg SUPPLY.DOM_STATUS_0 0xFFFFFFFF).setFld MEMCTL.SRAM_STATUS_READY 255).setFld (CORES.CORE_STATUS_STATE 1) 2).putCore 1 { pc := 0x100, g := [(4, 0x80000000), (5, 0x7FFFFFFF), (6, 33)] }), 1, 0x844a4183, true, 3, 4, 5, by decide +kernel⟩,
   ⟨mkS fun d =>
      withWord 1 (0x4804183) ((((d.setReg SUPPLY.DOM_STATUS_0 0xFFFFFFFF).setFld MEMCTL.SRAM_STATUS_READY 255).setFld (CORES.CORE_STATUS_STATE 1) 2).putCore 1 { pc := 0x100, g := [(4, 0x80000000), (5, 0x7FFFFFFF), (6, 33)] }), 1, 0x4804183, false, 3, 4, 0, by decide +kernel⟩,
   ⟨mkS fun d =>
      withWord 1 (0x84c04183) ((((d.setReg SUPPLY.DOM_STATUS_0 0xFFFFFFFF).setFld MEMCTL.SRAM_STATUS_READY 255).setFld (CORES.CORE_STATUS_STATE 1) 2).putCore 1 { pc := 0x100, g := [(4, 0x80000000), (5, 0x7FFFFFFF), (6, 33)] }), 1, 0x84c04183, true, 3, 4, 0, by decide +kernel⟩,
   ⟨mkS fun d =>
      withWord 1 (0xfffe4185) ((((d.setReg SUPPLY.DOM_STATUS_0 0xFFFFFFFF).setFld MEMCTL.SRAM_STATUS_READY 255).setFld (CORES.CORE_STATUS_STATE 1) 2).putCore 1 { pc := 0x100, g := [(4, 0x80000000), (5, 0x7FFFFFFF), (6, 33)] }), 1, 0xfffe4185, 3, 4, 0xFFFFFFFF, by decide +kernel⟩,
   ⟨mkS fun d =>
      withWord 1 (0x202e) ((((d.setReg SUPPLY.DOM_STATUS_0 0xFFFFFFFF).setFld MEMCTL.SRAM_STATUS_READY 255).setFld (CORES.CORE_STATUS_STATE 1) 2).putCore 1 { pc := 0x100, g := [(4, 0x80000000), (5, 0x7FFFFFFF), (6, 33)] }), 1, 0x202e, 30, 30, 512, by decide +kernel⟩,
   ⟨mkS fun d =>
      withWord 1 (0xfffe4187) ((((d.setReg SUPPLY.DOM_STATUS_0 0xFFFFFFFF).setFld MEMCTL.SRAM_STATUS_READY 255).setFld (CORES.CORE_STATUS_STATE 1) 2).putCore 1 { pc := 0x100, g := [(4, 0x80000000), (5, 0x7FFFFFFF), (6, 33)] }), 1, 0xfffe4187, 3, 4, 0xFFFFFFFF, by decide +kernel⟩,
   ⟨mkS fun d =>
      withWord 1 (0xfffe4189) ((((d.setReg SUPPLY.DOM_STATUS_0 0xFFFFFFFF).setFld MEMCTL.SRAM_STATUS_READY 255).setFld (CORES.CORE_STATUS_STATE 1) 2).putCore 1 { pc := 0x100, g := [(4, 0x80000000), (5, 0x7FFFFFFF), (6, 33)] }), 1, 0xfffe4189, 3, 4, 0x7FFF, by decide +kernel⟩⟩

/-- The hypotheses of clauses 25 to 33 of CoreAlu are met. -/
theorem witness_CoreAlu_25 :
    (∃ (s : State) (c : Fin 4) (w : Word) (rd : Nat) (ra : Nat) (k : Word), s.dev.runs c w = true ∧ decodeW w = .logi .or rd ra k) ∧
    (∃ (s : State) (c : Fin 4) (w : Word) (rd : Nat) (ra : Nat) (k : Word), s.dev.runs c w = true ∧ decodeW w = .logi .xor rd ra k) ∧
    (∃ (s : State) (c : Fin 4) (w : Word) (ra : Nat) (k : Word), s.dev.runs c w = true ∧ decodeW w = .cmpi ra k) ∧
    (∃ (s : State) (c : Fin 4) (w : Word) (f : Bool) (rd : Nat) (ra : Nat) (n : Nat), s.dev.runs c w = true ∧ decodeW w = .shi .sll f rd ra n) ∧
    (∃ (s : State) (c : Fin 4) (w : Word) (f : Bool) (rd : Nat) (ra : Nat) (n : Nat), s.dev.runs c w = true ∧ decodeW w = .shi .srl f rd ra n) ∧
    (∃ (s : State) (c : Fin 4) (w : Word) (f : Bool) (rd : Nat) (ra : Nat) (n : Nat), s.dev.runs c w = true ∧ decodeW w = .shi .sra f rd ra n) ∧
    (∃ (s : State) (c : Fin 4) (w : Word) (f : Bool) (rd : Nat) (ra : Nat) (n : Nat), s.dev.runs c w = true ∧ decodeW w = .shi .ror f rd ra n) ∧
    (∃ (s : State) (c : Fin 4) (w : Word) (rd : Nat) (k : Word), s.dev.runs c w = true ∧ decodeW w = .lui rd k) ∧
    (∃ (s : State) (c : Fin 4) (w : Word) (rd : Nat) (k : Word), s.dev.runs c w = true ∧ decodeW w = .addpc rd k) :=
  ⟨⟨mkS fun d =>
      withWord 1 (0xfffe418b) ((((d.setReg SUPPLY.DOM_STATUS_0 0xFFFFFFFF).setFld MEMCTL.SRAM_STATUS_READY 255).setFld (CORES.CORE_STATUS_STATE 1) 2).putCore 1 { pc := 0x100, g := [(4, 0x80000000), (5, 0x7FFFFFFF), (6, 33)] }), 1, 0xfffe418b, 3, 4, 0x7FFF, by decide +kernel⟩,
   ⟨mkS fun d =>
      withWord 1 (0xfffe418d) ((((d.setReg SUPPLY.DOM_STATUS_0 0xFFFFFFFF).setFld MEMCTL.SRAM_STATUS_READY 255).setFld (CORES.CORE_STATUS_STATE 1) 2).putCore 1 { pc := 0x100, g := [(4, 0x80000000), (5, 0x7FFFFFFF), (6, 33)] }), 1, 0xfffe418d, 3, 4, 0x7FFF, by decide +kernel⟩,
   ⟨mkS fun d =>
      withWord 1 (0xfffe400f) ((((d.setReg SUPPLY.DOM_STATUS_0 0xFFFFFFFF).setFld MEMCTL.SRAM_STATUS_READY 255).setFld (CORES.CORE_STATUS_STATE 1) 2).putCore 1 { pc := 0x100, g := [(4, 0x80000000), (5, 0x7FFFFFFF), (6, 33)] }), 1, 0xfffe400f, 4, 0xFFFFFFFF, by decide +kernel⟩,
   ⟨mkS fun d =>
      withWord 1 (0x803e4191) ((((d.setReg SUPPLY.DOM_STATUS_0 0xFFFFFFFF).setFld MEMCTL.SRAM_STATUS_READY 255).setFld (CORES.CORE_STATUS_STATE 1) 2).putCore 1 { pc := 0x100, g := [(4, 0x80000000), (5, 0x7FFFFFFF), (6, 33)] }), 1, 0x803e4191, true, 3, 4, 31, by decide +kernel⟩,
   ⟨mkS fun d =>
      withWord 1 (0x807e4191) ((((d.setReg SUPPLY.DOM_STATUS_0 0xFFFFFFFF).setFld MEMCTL.SRAM_STATUS_READY 255).setFld (CORES.CORE_STATUS_STATE 1) 2).putCore 1 { pc := 0x100, g := [(4, 0x80000000), (5, 0x7FFFFFFF), (6, 33)] }), 1, 0x807e4191, true, 3, 4, 31, by decide +kernel⟩,
   ⟨mkS fun d =>
      withWord 1 (0x80be4191) ((((d.setReg SUPPLY.DOM_STATUS_0 0xFFFFFFFF).setFld MEMCTL.SRAM_STATUS_READY 255).setFld (CORES.CORE_STATUS_STATE 1) 2).putCore 1 { pc := 0x100, g := [(4, 0x80000000), (5, 0x7FFFFFFF), (6, 33)] }), 1, 0x80be4191, true, 3, 4, 31, by decide +kernel⟩,
   ⟨mkS fun d =>
      withWord 1 (0x80fe4191) ((((d.setReg SUPPLY.DOM_STATUS_0 0xFFFFFFFF).setFld MEMCTL.SRAM_STATUS_READY 255).setFld (CORES.CORE_STATUS_STATE 1) 2).putCore 1 { pc := 0x100, g := [(4, 0x80000000), (5, 0x7FFFFFFF), (6, 33)] }), 1, 0x80fe4191, true, 3, 4, 31, by decide +kernel⟩,
   ⟨mkS fun d =>
      withWord 1 (0xfffff193) ((((d.setReg SUPPLY.DOM_STATUS_0 0xFFFFFFFF).setFld MEMCTL.SRAM_STATUS_READY 255).setFld (CORES.CORE_STATUS_STATE 1) 2).putCore 1 { pc := 0x100, g := [(4, 0x80000000), (5, 0x7FFFFFFF), (6, 33)] }), 1, 0xfffff193, 3, 0xFFFFF000, by decide +kernel⟩,
   ⟨mkS fun d =>
      withWord 1 (0xfffff195) ((((d.setReg SUPPLY.DOM_STATUS_0 0xFFFFFFFF).setFld MEMCTL.SRAM_STATUS_READY 255).setFld (CORES.CORE_STATUS_STATE 1) 2).putCore 1 { pc := 0x100, g := [(4, 0x80000000), (5, 0x7FFFFFFF), (6, 33)] }), 1, 0xfffff195, 3, 0xFFFFF000, by decide +kernel⟩⟩

/-- The hypotheses of clauses 1 to 12 of CoreMulDivSat are met. -/
theorem witness_CoreMulDivSat_1 :
    (∃ (s : State) (c : Fin 4) (w : Word) (rd : Nat) (ra : Nat) (rb : Nat), s.dev.runs c w = true ∧ decodeW w = .mul .mul rd ra rb) ∧
    (∃ (s : State) (c : Fin 4) (w : Word) (rd : Nat) (ra : Nat) (rb : Nat), s.dev.runs c w = true ∧ decodeW w = .mul .mulh rd ra rb) ∧
    (∃ (s : State) (c : Fin 4) (w : Word) (rd : Nat) (ra : Nat) (rb : Nat), s.dev.runs c w = true ∧ decodeW w = .mul .mulhu rd ra rb) ∧
    (∃ (s : State) (c : Fin 4) (w : Word) (rd : Nat) (ra : Nat) (rb : Nat), s.dev.runs c w = true ∧ decodeW w = .mul .mulhsu rd ra rb) ∧
    (∃ (s : State) (c : Fin 4) (w : Word) (rd : Nat) (ra : Nat) (rb : Nat), s.dev.runs c w = true ∧ decodeW w = .mul .mac rd ra rb) ∧
    (∃ (s : State) (c : Fin 4) (w : Word) (rd : Nat) (ra : Nat) (rb : Nat), s.dev.runs c w = true ∧ decodeW w = .mul .msu rd ra rb) ∧
    (∃ (s : State) (c : Fin 4) (w : Word) (rd : Nat) (ra : Nat) (rb : Nat), s.dev.runs c w = true ∧ decodeW w = .div .div rd ra rb ∧
      ((s.dev.fetched c w).core c).rg rb ≠ 0) ∧
    (∃ (s : State) (c : Fin 4) (w : Word) (rd : Nat) (ra : Nat) (rb : Nat), s.dev.runs c w = true ∧ decodeW w = .div .div rd ra rb ∧
      ((s.dev.fetched c w).core c).rg rb = 0 ∧ wordBit (s.dev.core c).status 9 = true ∧ (s.dev.fetched c w).canEnter c 9 = true) ∧
    (∃ (s : State) (c : Fin 4) (w : Word) (rd : Nat) (ra : Nat) (rb : Nat), s.dev.runs c w = true ∧ decodeW w = .div .div rd ra rb ∧
      ((s.dev.fetched c w).core c).rg rb = 0 ∧ wordBit (s.dev.core c).status 9 = false) ∧
    (∃ (s : State) (c : Fin 4) (w : Word) (rd : Nat) (ra : Nat) (rb : Nat), s.dev.runs c w = true ∧ decodeW w = .div .divu rd ra rb ∧
      ((s.dev.fetched c w).core c).rg rb ≠ 0) ∧
    (∃ (s : State) (c : Fin 4) (w : Word) (rd : Nat) (ra : Nat) (rb : Nat), s.dev.runs c w = true ∧ decodeW w = .div .divu rd ra rb ∧
      ((s.dev.fetched c w).core c).rg rb = 0 ∧ wordBit (s.dev.core c).status 9 = true ∧ (s.dev.fetched c w).canEnter c 9 = true) ∧
    (∃ (s : State) (c : Fin 4) (w : Word) (rd : Nat) (ra : Nat) (rb : Nat), s.dev.runs c w = true ∧ decodeW w = .div .divu rd ra rb ∧
      ((s.dev.fetched c w).core c).rg rb = 0 ∧ wordBit (s.dev.core c).status 9 = false) :=
  ⟨⟨mkS fun d =>
      withWord 1 (0xa4197) ((((d.setReg SUPPLY.DOM_STATUS_0 0xFFFFFFFF).setFld MEMCTL.SRAM_STATUS_READY 255).setFld (CORES.CORE_STATUS_STATE 1) 2).putCore 1 { pc := 0x100, g := [(3, 7), (4, 0x80000000), (5, 0xFFFFFFFF)] }), 1, 0xa4197, 3, 4, 5, by decide +kernel⟩,
   ⟨mkS fun d =>
      withWord 1 (0x4a4197) ((((d.setReg SUPPLY.DOM_STATUS_0 0xFFFFFFFF).setFld MEMCTL.SRAM_STATUS_READY 255).setFld (CORES.CORE_STATUS_STATE 1) 2).putCore 1 { pc := 0x100, g := [(3, 7), (4, 0x80000000), (5, 0xFFFFFFFF)] }), 1, 0x4a4197, 3, 4, 5, by decide +kernel⟩,
   ⟨mkS fun d =>
      withWord 1 (0x8a4197) ((((d.setReg SUPPLY.DOM_STATUS_0 0xFFFFFFFF).setFld MEMCTL.SRAM_STATUS_READY 255).setFld (CORES.CORE_STATUS_STATE 1) 2).putCore 1 { pc := 0x100, g := [(3, 7), (4, 0x80000000), (5, 0xFFFFFFFF)] }), 1, 0x8a4197, 3, 4, 5, by decide +kernel⟩,
   ⟨mkS fun d =>
      withWord 1 (0xca4197) ((((d.setReg SUPPLY.DOM_STATUS_0 0xFFFFFFFF).setFld MEMCTL.SRAM_STATUS_READY 255).setFld (CORES.CORE_STATUS_STATE 1) 2).putCore 1 { pc := 0x100, g := [(3, 7), (4, 0x80000000), (5, 0xFFFFFFFF)] }), 1, 0xca4197, 3, 4, 5, by decide +kernel⟩,
   ⟨mkS fun d =>
      withWord 1 (0x10a4197) ((((d.setReg SUPPLY.DOM_STATUS_0 0xFFFFFFFF).setFld MEMCTL.SRAM_STATUS_READY 255).setFld (CORES.CORE_STATUS_STATE 1) 2).putCore 1 { pc := 0x100, g := [(3, 7), (4, 0x80000000), (5, 0xFFFFFFFF)] }), 1, 0x10a4197, 3, 4, 5, by decide +kernel⟩,
   ⟨mkS fun d =>
      withWord 1 (0x14a4197) ((((d.setReg SUPPLY.DOM_STATUS_0 0xFFFFFFFF).setFld MEMCTL.SRAM_STATUS_READY 255).setFld (CORES.CORE_STATUS_STATE 1) 2).putCore 1 { pc := 0x100, g := [(3, 7), (4, 0x80000000), (5, 0xFFFFFFFF)] }), 1, 0x14a4197, 3, 4, 5, by decide +kernel⟩,
   ⟨mkS fun d =>
      withWord 1 (0xa4199) ((((d.setReg SUPPLY.DOM_STATUS_0 0xFFFFFFFF).setFld MEMCTL.SRAM_STATUS_READY 255).setFld (CORES.CORE_STATUS_STATE 1) 2).putCore 1 { pc := 0x100, g := [(3, 7), (4, 0x80000000), (5, 0xFFFFFFFF)] }), 1, 0xa4199, 3, 4, 5, by decide +kernel⟩,
   ⟨mkS fun d =>
      withWord 1 (0x4199) ((((d.setReg SUPPLY.DOM_STATUS_0 0xFFFFFFFF).setFld MEMCTL.SRAM_STATUS_READY 255).setFld (CORES.CORE_STATUS_STATE 1) 2).putCore 1 { pc := 0x100, g := [(3, 7), (4, 0x80000000), (5, 0xFFFFFFFF)], status := 0x205, spKernel := 0x8000, sys := [(0x118, 0x8000)] }), 1, 0x4199, 3, 4, 0, by decide +kernel⟩,
   ⟨mkS fun d =>
      withWord 1 (0x4199) ((((d.setReg SUPPLY.DOM_STATUS_0 0xFFFFFFFF).setFld MEMCTL.SRAM_STATUS_READY 255).setFld (CORES.CORE_STATUS_STATE 1) 2).putCore 1 { pc := 0x100, g := [(3, 7), (4, 0x80000000), (5, 0xFFFFFFFF)] }), 1, 0x4199, 3, 4, 0, by decide +kernel⟩,
   ⟨mkS fun d =>
      withWord 1 (0x4a4199) ((((d.setReg SUPPLY.DOM_STATUS_0 0xFFFFFFFF).setFld MEMCTL.SRAM_STATUS_READY 255).setFld (CORES.CORE_STATUS_STATE 1) 2).putCore 1 { pc := 0x100, g := [(3, 7), (4, 0x80000000), (5, 0xFFFFFFFF)] }), 1, 0x4a4199, 3, 4, 5, by decide +kernel⟩,
   ⟨mkS fun d =>
      withWord 1 (0x404199) ((((d.setReg SUPPLY.DOM_STATUS_0 0xFFFFFFFF).setFld MEMCTL.SRAM_STATUS_READY 255).setFld (CORES.CORE_STATUS_STATE 1) 2).putCore 1 { pc := 0x100, g := [(3, 7), (4, 0x80000000), (5, 0xFFFFFFFF)], status := 0x205, spKernel := 0x8000, sys := [(0x118, 0x8000)] }), 1, 0x404199, 3, 4, 0, by decide +kernel⟩,
   ⟨mkS fun d =>
      withWord 1 (0x404199) ((((d.setReg SUPPLY.DOM_STATUS_0 0xFFFFFFFF).setFld MEMCTL.SRAM_STATUS_READY 255).setFld (CORES.CORE_STATUS_STATE 1) 2).putCore 1 { pc := 0x100, g := [(3, 7), (4, 0x80000000), (5, 0xFFFFFFFF)] }), 1, 0x404199, 3, 4, 0, by decide +kernel⟩⟩

/-- The hypotheses of clauses 13 to 24 of CoreMulDivSat are met. -/
theorem witness_CoreMulDivSat_13 :
    (∃ (s : State) (c : Fin 4) (w : Word) (rd : Nat) (ra : Nat) (rb : Nat), s.dev.runs c w = true ∧ decodeW w = .div .rem rd ra rb ∧
      ((s.dev.fetched c w).core c).rg rb ≠ 0) ∧
    (∃ (s : State) (c : Fin 4) (w : Word) (rd : Nat) (ra : Nat) (rb : Nat), s.dev.runs c w = true ∧ decodeW w = .div .rem rd ra rb ∧
      ((s.dev.fetched c w).core c).rg rb = 0 ∧ wordBit (s.dev.core c).status 9 = true ∧ (s.dev.fetched c w).canEnter c 9 = true) ∧
    (∃ (s : State) (c : Fin 4) (w : Word) (rd : Nat) (ra : Nat) (rb : Nat), s.dev.runs c w = true ∧ decodeW w = .div .rem rd ra rb ∧
      ((s.dev.fetched c w).core c).rg rb = 0 ∧ wordBit (s.dev.core c).status 9 = false) ∧
    (∃ (s : State) (c : Fin 4) (w : Word) (rd : Nat) (ra : Nat) (rb : Nat), s.dev.runs c w = true ∧ decodeW w = .div .remu rd ra rb ∧
      ((s.dev.fetched c w).core c).rg rb ≠ 0) ∧
    (∃ (s : State) (c : Fin 4) (w : Word) (rd : Nat) (ra : Nat) (rb : Nat), s.dev.runs c w = true ∧ decodeW w = .div .remu rd ra rb ∧
      ((s.dev.fetched c w).core c).rg rb = 0 ∧ wordBit (s.dev.core c).status 9 = true ∧ (s.dev.fetched c w).canEnter c 9 = true) ∧
    (∃ (s : State) (c : Fin 4) (w : Word) (rd : Nat) (ra : Nat) (rb : Nat), s.dev.runs c w = true ∧ decodeW w = .div .remu rd ra rb ∧
      ((s.dev.fetched c w).core c).rg rb = 0 ∧ wordBit (s.dev.core c).status 9 = false) ∧
    (∃ (s : State) (c : Fin 4) (w : Word) (rd : Nat) (ra : Nat) (rb : Nat), s.dev.runs c w = true ∧ decodeW w = .sat .qadd rd ra rb) ∧
    (∃ (s : State) (c : Fin 4) (w : Word) (rd : Nat) (ra : Nat) (rb : Nat), s.dev.runs c w = true ∧ decodeW w = .sat .qsub rd ra rb) ∧
    (∃ (s : State) (c : Fin 4) (w : Word) (rd : Nat) (ra : Nat) (rb : Nat), s.dev.runs c w = true ∧ decodeW w = .sat .qaddu rd ra rb) ∧
    (∃ (s : State) (c : Fin 4) (w : Word) (rd : Nat) (ra : Nat) (rb : Nat), s.dev.runs c w = true ∧ decodeW w = .sat .qsubu rd ra rb) ∧
    (∃ (s : State) (c : Fin 4) (w : Word) (rd : Nat) (ra : Nat) (rb : Nat), s.dev.runs c w = true ∧ decodeW w = .sat .qneg rd ra rb) ∧
    (∃ (s : State) (c : Fin 4) (w : Word) (rd : Nat) (ra : Nat) (rb : Nat), s.dev.runs c w = true ∧ decodeW w = .sat .qabs rd ra rb) :=
  ⟨⟨mkS fun d =>
      withWord 1 (0x8a4199) ((((d.setReg SUPPLY.DOM_STATUS_0 0xFFFFFFFF).setFld MEMCTL.SRAM_STATUS_READY 255).setFld (CORES.CORE_STATUS_STATE 1) 2).putCore 1 { pc := 0x100, g := [(3, 7), (4, 0x80000000), (5, 0xFFFFFFFF)] }), 1, 0x8a4199, 3, 4, 5, by decide +kernel⟩,
   ⟨mkS fun d =>
      withWord 1 (0x804199) ((((d.setReg SUPPLY.DOM_STATUS_0 0xFFFFFFFF).setFld MEMCTL.SRAM_STATUS_READY 255).setFld (CORES.CORE_STATUS_STATE 1) 2).putCore 1 { pc := 0x100, g := [(3, 7), (4, 0x80000000), (5, 0xFFFFFFFF)], status := 0x205, spKernel := 0x8000, sys := [(0x118, 0x8000)] }), 1, 0x804199, 3, 4, 0, by decide +kernel⟩,
   ⟨mkS fun d =>
      withWord 1 (0x804199) ((((d.setReg SUPPLY.DOM_STATUS_0 0xFFFFFFFF).setFld MEMCTL.SRAM_STATUS_READY 255).setFld (CORES.CORE_STATUS_STATE 1) 2).putCore 1 { pc := 0x100, g := [(3, 7), (4, 0x80000000), (5, 0xFFFFFFFF)] }), 1, 0x804199, 3, 4, 0, by decide +kernel⟩,
   ⟨mkS fun d =>
      withWord 1 (0xca4199) ((((d.setReg SUPPLY.DOM_STATUS_0 0xFFFFFFFF).setFld MEMCTL.SRAM_STATUS_READY 255).setFld (CORES.CORE_STATUS_STATE 1) 2).putCore 1 { pc := 0x100, g := [(3, 7), (4, 0x80000000), (5, 0xFFFFFFFF)] }), 1, 0xca4199, 3, 4, 5, by decide +kernel⟩,
   ⟨mkS fun d =>
      withWord 1 (0xc04199) ((((d.setReg SUPPLY.DOM_STATUS_0 0xFFFFFFFF).setFld MEMCTL.SRAM_STATUS_READY 255).setFld (CORES.CORE_STATUS_STATE 1) 2).putCore 1 { pc := 0x100, g := [(3, 7), (4, 0x80000000), (5, 0xFFFFFFFF)], status := 0x205, spKernel := 0x8000, sys := [(0x118, 0x8000)] }), 1, 0xc04199, 3, 4, 0, by decide +kernel⟩,
   ⟨mkS fun d =>
      withWord 1 (0xc04199) ((((d.setReg SUPPLY.DOM_STATUS_0 0xFFFFFFFF).setFld MEMCTL.SRAM_STATUS_READY 255).setFld (CORES.CORE_STATUS_STATE 1) 2).putCore 1 { pc := 0x100, g := [(3, 7), (4, 0x80000000), (5, 0xFFFFFFFF)] }), 1, 0xc04199, 3, 4, 0, by decide +kernel⟩,
   ⟨mkS fun d =>
      withWord 1 (0xa419b) ((((d.setReg SUPPLY.DOM_STATUS_0 0xFFFFFFFF).setFld MEMCTL.SRAM_STATUS_READY 255).setFld (CORES.CORE_STATUS_STATE 1) 2).putCore 1 { pc := 0x100, g := [(3, 7), (4, 0x80000000), (5, 0xFFFFFFFF)] }), 1, 0xa419b, 3, 4, 5, by decide +kernel⟩,
   ⟨mkS fun d =>
      withWord 1 (0x4a419b) ((((d.setReg SUPPLY.DOM_STATUS_0 0xFFFFFFFF).setFld MEMCTL.SRAM_STATUS_READY 255).setFld (CORES.CORE_STATUS_STATE 1) 2).putCore 1 { pc := 0x100, g := [(3, 7), (4, 0x80000000), (5, 0xFFFFFFFF)] }), 1, 0x4a419b, 3, 4, 5, by decide +kernel⟩,
   ⟨mkS fun d =>
      withWord 1 (0x8a419b) ((((d.setReg SUPPLY.DOM_STATUS_0 0xFFFFFFFF).setFld MEMCTL.SRAM_STATUS_READY 255).setFld (CORES.CORE_STATUS_STATE 1) 2).putCore 1 { pc := 0x100, g := [(3, 7), (4, 0x80000000), (5, 0xFFFFFFFF)] }), 1, 0x8a419b, 3, 4, 5, by decide +kernel⟩,
   ⟨mkS fun d =>
      withWord 1 (0xca419b) ((((d.setReg SUPPLY.DOM_STATUS_0 0xFFFFFFFF).setFld MEMCTL.SRAM_STATUS_READY 255).setFld (CORES.CORE_STATUS_STATE 1) 2).putCore 1 { pc := 0x100, g := [(3, 7), (4, 0x80000000), (5, 0xFFFFFFFF)] }), 1, 0xca419b, 3, 4, 5, by decide +kernel⟩,
   ⟨mkS fun d =>
      withWord 1 (0x100419b) ((((d.setReg SUPPLY.DOM_STATUS_0 0xFFFFFFFF).setFld MEMCTL.SRAM_STATUS_READY 255).setFld (CORES.CORE_STATUS_STATE 1) 2).putCore 1 { pc := 0x100, g := [(3, 7), (4, 0x80000000), (5, 0xFFFFFFFF)] }), 1, 0x100419b, 3, 4, 0, by decide +kernel⟩,
   ⟨mkS fun d =>
      withWord 1 (0x140419b) ((((d.setReg SUPPLY.DOM_STATUS_0 0xFFFFFFFF).setFld MEMCTL.SRAM_STATUS_READY 255).setFld (CORES.CORE_STATUS_STATE 1) 2).putCore 1 { pc := 0x100, g := [(3, 7), (4, 0x80000000), (5, 0xFFFFFFFF)] }), 1, 0x140419b, 3, 4, 0, by decide +kernel⟩⟩

/-- The hypotheses of clauses 25 to 36 of CoreMulDivSat are met. -/
theorem witness_CoreMulDivSat_25 :
    (∃ (s : State) (c : Fin 4) (w : Word) (rd : Nat) (ra : Nat) (rb : Nat), s.dev.runs c w = true ∧ decodeW w = .sat .qdmulh rd ra rb) ∧
    (∃ (s : State) (c : Fin 4) (w : Word) (rd : Nat) (ra : Nat) (rb : Nat), s.dev.runs c w = true ∧ decodeW w = .sat .ssat rd ra rb) ∧
    (∃ (s : State) (c : Fin 4) (w : Word) (rd : Nat) (ra : Nat) (rb : Nat), s.dev.runs c w = true ∧ decodeW w = .sat .usat rd ra rb) ∧
    (∃ (s : State) (c : Fin 4) (w : Word) (rd : Nat) (ra : Nat), s.dev.runs c w = true ∧ decodeW w = .bit .clz rd ra) ∧
    (∃ (s : State) (c : Fin 4) (w : Word) (rd : Nat) (ra : Nat), s.dev.runs c w = true ∧ decodeW w = .bit .ctz rd ra) ∧
    (∃ (s : State) (c : Fin 4) (w : Word) (rd : Nat) (ra : Nat), s.dev.runs c w = true ∧ decodeW w = .bit .popc rd ra) ∧
    (∃ (s : State) (c : Fin 4) (w : Word) (rd : Nat) (ra : Nat), s.dev.runs c w = true ∧ decodeW w = .bit .rev rd ra) ∧
    (∃ (s : State) (c : Fin 4) (w : Word) (rd : Nat) (ra : Nat), s.dev.runs c w = true ∧ decodeW w = .bit .rev16 rd ra) ∧
    (∃ (s : State) (c : Fin 4) (w : Word) (rd : Nat) (ra : Nat), s.dev.runs c w = true ∧ decodeW w = .bit .sextb rd ra) ∧
    (∃ (s : State) (c : Fin 4) (w : Word) (rd : Nat) (ra : Nat), s.dev.runs c w = true ∧ decodeW w = .bit .sexth rd ra) ∧
    (∃ (s : State) (c : Fin 4) (w : Word) (rd : Nat) (ra : Nat), s.dev.runs c w = true ∧ decodeW w = .bit .zextb rd ra) ∧
    (∃ (s : State) (c : Fin 4) (w : Word) (rd : Nat) (ra : Nat), s.dev.runs c w = true ∧ decodeW w = .bit .zexth rd ra) :=
  ⟨⟨mkS fun d =>
      withWord 1 (0x18a419b) ((((d.setReg SUPPLY.DOM_STATUS_0 0xFFFFFFFF).setFld MEMCTL.SRAM_STATUS_READY 255).setFld (CORES.CORE_STATUS_STATE 1) 2).putCore 1 { pc := 0x100, g := [(3, 7), (4, 0x80000000), (5, 0xFFFFFFFF)] }), 1, 0x18a419b, 3, 4, 5, by decide +kernel⟩,
   ⟨mkS fun d =>
      withWord 1 (0x1ce419b) ((((d.setReg SUPPLY.DOM_STATUS_0 0xFFFFFFFF).setFld MEMCTL.SRAM_STATUS_READY 255).setFld (CORES.CORE_STATUS_STATE 1) 2).putCore 1 { pc := 0x100, g := [(3, 7), (4, 0x80000000), (5, 0xFFFFFFFF)] }), 1, 0x1ce419b, 3, 4, 7, by decide +kernel⟩,
   ⟨mkS fun d =>
      withWord 1 (0x23e419b) ((((d.setReg SUPPLY.DOM_STATUS_0 0xFFFFFFFF).setFld MEMCTL.SRAM_STATUS_READY 255).setFld (CORES.CORE_STATUS_STATE 1) 2).putCore 1 { pc := 0x100, g := [(3, 7), (4, 0x80000000), (5, 0xFFFFFFFF)] }), 1, 0x23e419b, 3, 4, 31, by decide +kernel⟩,
   ⟨mkS fun d =>
      withWord 1 (0x419d) ((((d.setReg SUPPLY.DOM_STATUS_0 0xFFFFFFFF).setFld MEMCTL.SRAM_STATUS_READY 255).setFld (CORES.CORE_STATUS_STATE 1) 2).putCore 1 { pc := 0x100, g := [(4, 0x80F17E80)] }), 1, 0x419d, 3, 4, by decide +kernel⟩,
   ⟨mkS fun d =>
      withWord 1 (0x40419d) ((((d.setReg SUPPLY.DOM_STATUS_0 0xFFFFFFFF).setFld MEMCTL.SRAM_STATUS_READY 255).setFld (CORES.CORE_STATUS_STATE 1) 2).putCore 1 { pc := 0x100, g := [(4, 0x80F17E80)] }), 1, 0x40419d, 3, 4, by decide +kernel⟩,
   ⟨mkS fun d =>
      withWord 1 (0x80419d) ((((d.setReg SUPPLY.DOM_STATUS_0 0xFFFFFFFF).setFld MEMCTL.SRAM_STATUS_READY 255).setFld (CORES.CORE_STATUS_STATE 1) 2).putCore 1 { pc := 0x100, g := [(4, 0x80F17E80)] }), 1, 0x80419d, 3, 4, by decide +kernel⟩,
   ⟨mkS fun d =>
      withWord 1 (0xc0419d) ((((d.setReg SUPPLY.DOM_STATUS_0 0xFFFFFFFF).setFld MEMCTL.SRAM_STATUS_READY 255).setFld (CORES.CORE_STATUS_STATE 1) 2).putCore 1 { pc := 0x100, g := [(4, 0x80F17E80)] }), 1, 0xc0419d, 3, 4, by decide +kernel⟩,
   ⟨mkS fun d =>
      withWord 1 (0x100419d) ((((d.setReg SUPPLY.DOM_STATUS_0 0xFFFFFFFF).setFld MEMCTL.SRAM_STATUS_READY 255).setFld (CORES.CORE_STATUS_STATE 1) 2).putCore 1 { pc := 0x100, g := [(4, 0x80F17E80)] }), 1, 0x100419d, 3, 4, by decide +kernel⟩,
   ⟨mkS fun d =>
      withWord 1 (0x140419d) ((((d.setReg SUPPLY.DOM_STATUS_0 0xFFFFFFFF).setFld MEMCTL.SRAM_STATUS_READY 255).setFld (CORES.CORE_STATUS_STATE 1) 2).putCore 1 { pc := 0x100, g := [(4, 0x80F17E80)] }), 1, 0x140419d, 3, 4, by decide +kernel⟩,
   ⟨mkS fun d =>
      withWord 1 (0x180419d) ((((d.setReg SUPPLY.DOM_STATUS_0 0xFFFFFFFF).setFld MEMCTL.SRAM_STATUS_READY 255).setFld (CORES.CORE_STATUS_STATE 1) 2).putCore 1 { pc := 0x100, g := [(4, 0x80F17E80)] }), 1, 0x180419d, 3, 4, by decide +kernel⟩,
   ⟨mkS fun d =>
      withWord 1 (0x1c0419d) ((((d.setReg SUPPLY.DOM_STATUS_0 0xFFFFFFFF).setFld MEMCTL.SRAM_STATUS_READY 255).setFld (CORES.CORE_STATUS_STATE 1) 2).putCore 1 { pc := 0x100, g := [(4, 0x80F17E80)] }), 1, 0x1c0419d, 3, 4, by decide +kernel⟩,
   ⟨mkS fun d =>
      withWord 1 (0x200419d) ((((d.setReg SUPPLY.DOM_STATUS_0 0xFFFFFFFF).setFld MEMCTL.SRAM_STATUS_READY 255).setFld (CORES.CORE_STATUS_STATE 1) 2).putCore 1 { pc := 0x100, g := [(4, 0x80F17E80)] }), 1, 0x200419d, 3, 4, by decide +kernel⟩⟩

/-- The hypotheses of clauses 37 to 39 of CoreMulDivSat are met. -/
theorem witness_CoreMulDivSat_37 :
    (∃ (s : State) (c : Fin 4) (w : Word) (n : Nat) (p : Nat) (rd : Nat) (ra : Nat), s.dev.runs c w = true ∧ decodeW w = .bf .extu n p rd ra) ∧
    (∃ (s : State) (c : Fin 4) (w : Word) (n : Nat) (p : Nat) (rd : Nat) (ra : Nat), s.dev.runs c w = true ∧ decodeW w = .bf .exts n p rd ra) ∧
    (∃ (s : State) (c : Fin 4) (w : Word) (n : Nat) (p : Nat) (rd : Nat) (ra : Nat), s.dev.runs c w = true ∧ decodeW w = .bf .ins n p rd ra) :=
  ⟨⟨mkS fun d =>
      withWord 1 (0x2aa419f) ((((d.setReg SUPPLY.DOM_STATUS_0 0xFFFFFFFF).setFld MEMCTL.SRAM_STATUS_READY 255).setFld (CORES.CORE_STATUS_STATE 1) 2).putCore 1 { pc := 0x100, g := [(3, 0x12345678), (4, 0x80F17E80)] }), 1, 0x2aa419f, 11, 21, 3, 4, by decide +kernel⟩,
   ⟨mkS fun d =>
      withWord 1 (0xaaa419f) ((((d.setReg SUPPLY.DOM_STATUS_0 0xFFFFFFFF).setFld MEMCTL.SRAM_STATUS_READY 255).setFld (CORES.CORE_STATUS_STATE 1) 2).putCore 1 { pc := 0x100, g := [(3, 0x12345678), (4, 0x80F17E80)] }), 1, 0xaaa419f, 11, 21, 3, 4, by decide +kernel⟩,
   ⟨mkS fun d =>
      withWord 1 (0x12aa419f) ((((d.setReg SUPPLY.DOM_STATUS_0 0xFFFFFFFF).setFld MEMCTL.SRAM_STATUS_READY 255).setFld (CORES.CORE_STATUS_STATE 1) 2).putCore 1 { pc := 0x100, g := [(3, 0x12345678), (4, 0x80F17E80)] }), 1, 0x12aa419f, 11, 21, 3, 4, by decide +kernel⟩⟩

/-- The hypotheses of clauses 1 to 12 of CoreLoadsStores are met. -/
theorem witness_CoreLoadsStores_1 :
    (∃ (s : State) (c : Fin 4) (w : Word) (rd : Nat) (ra : Nat) (k : Word) (a : Nat), s.dev.runs c w = true ∧
      decodeW w = .load true 0 (.disp k) rd ra false ∧ (s.dev.fetched c w).loads c (((s.dev.fetched c w).core c).rg ra + k) (2 ^ 0) a = true) ∧
    (∃ (s : State) (c : Fin 4) (w : Word) (rd : Nat) (ra : Nat) (k : Word) (a : Nat), s.dev.runs c w = true ∧
      decodeW w = .load false 0 (.disp k) rd ra false ∧ (s.dev.fetched c w).loads c (((s.dev.fetched c w).core c).rg ra + k) (2 ^ 0) a = true) ∧
    (∃ (s : State) (c : Fin 4) (w : Word) (rd : Nat) (ra : Nat) (k : Word) (a : Nat), s.dev.runs c w = true ∧
      decodeW w = .load true 1 (.disp k) rd ra false ∧ (s.dev.fetched c w).loads c (((s.dev.fetched c w).core c).rg ra + k) (2 ^ 1) a = true) ∧
    (∃ (s : State) (c : Fin 4) (w : Word) (rd : Nat) (ra : Nat) (k : Word) (a : Nat), s.dev.runs c w = true ∧
      decodeW w = .load false 1 (.disp k) rd ra false ∧ (s.dev.fetched c w).loads c (((s.dev.fetched c w).core c).rg ra + k) (2 ^ 1) a = true) ∧
    (∃ (s : State) (c : Fin 4) (w : Word) (rd : Nat) (ra : Nat) (k : Word) (a : Nat), s.dev.runs c w = true ∧
      decodeW w = .load false 2 (.disp k) rd ra false ∧ (s.dev.fetched c w).loads c (((s.dev.fetched c w).core c).rg ra + k) (2 ^ 2) a = true) ∧
    (∃ (s : State) (c : Fin 4) (w : Word) (rd : Nat) (ra : Nat) (k : Word) (a : Nat), s.dev.runs c w = true ∧
      decodeW w = .load false 3 (.disp k) rd ra false ∧ (s.dev.fetched c w).loads c (((s.dev.fetched c w).core c).rg ra + k) (2 ^ 3) a = true) ∧
    (∃ (s : State) (c : Fin 4) (w : Word) (sg : Bool) (z : Nat) (rd : Nat) (ra : Nat) (rb : Nat) (a : Nat), s.dev.runs c w = true ∧
      decodeW w = .load sg z (.idx rb) rd ra true ∧
      (s.dev.fetched c w).loads c (((s.dev.fetched c w).core c).rg ra + (((s.dev.fetched c w).core c).rg rb <<< z)) (2 ^ z) a = true) ∧
    (∃ (s : State) (c : Fin 4) (w : Word) (z : Nat) (rs : Nat) (ra : Nat) (rb : Nat) (a : Nat), s.dev.runs c w = true ∧
      decodeW w = .store z (.idx rb) rs ra true ∧
      (s.dev.fetched c w).stores c (((s.dev.fetched c w).core c).rg ra + (((s.dev.fetched c w).core c).rg rb <<< z)) (2 ^ z) a = true) ∧
    (∃ (s : State) (c : Fin 4) (w : Word) (sg : Bool) (z : Nat) (rd : Nat) (ra : Nat) (rb : Nat) (a : Nat), s.dev.runs c w = true ∧
      decodeW w = .load sg z (.idxu rb) rd ra true ∧
      (s.dev.fetched c w).loads c (((s.dev.fetched c w).core c).rg ra + ((s.dev.fetched c w).core c).rg rb) (2 ^ z) a = true) ∧
    (∃ (s : State) (c : Fin 4) (w : Word) (z : Nat) (rs : Nat) (ra : Nat) (rb : Nat) (a : Nat), s.dev.runs c w = true ∧
      decodeW w = .store z (.idxu rb) rs ra true ∧
      (s.dev.fetched c w).stores c (((s.dev.fetched c w).core c).rg ra + ((s.dev.fetched c w).core c).rg rb) (2 ^ z) a = true) ∧
    (∃ (s : State) (c : Fin 4) (w : Word) (sg : Bool) (z : Nat) (rd : Nat) (ra : Nat) (k : Word) (a : Nat), s.dev.runs c w = true ∧
      decodeW w = .load sg z (.post k) rd ra true ∧ (s.dev.fetched c w).loads c (((s.dev.fetched c w).core c).rg ra) (2 ^ z) a = true) ∧
    (∃ (s : State) (c : Fin 4) (w : Word) (z : Nat) (rs : Nat) (ra : Nat) (k : Word) (a : Nat), s.dev.runs c w = true ∧
      decodeW w = .store z (.post k) rs ra true ∧ (s.dev.fetched c w).stores c (((s.dev.fetched c w).core c).rg ra) (2 ^ z) a = true) :=
  ⟨⟨mkS fun d =>
      withWord 1 (0xfff04321) (((({ d with mem := [(0x08080200, 0x81), (0x08080201, 0x92), (0x08080202, 0xA3), (0x08080203, 0xB4), (0x08080204, 0xC5), (0x08080207, 0xD6)] }.setReg SUPPLY.DOM_STATUS_0 0xFFFFFFFF).setFld MEMCTL.SRAM_STATUS_READY 255).setFld (CORES.CORE_STATUS_STATE 1) 2).putCore 1 { pc := 0x100, g := [(3, 0x11223344), (4, 0x208), (5, 0x8), (6, 0x80F1A2B3), (7, 0x99887766), (8, 0x201)] }), 1, 0xfff04321, 6, 4, 0xFFFFFFF8, 0x08080200, by decide +kernel⟩,
   ⟨mkS fun d =>
      withWord 1 (0xfff04323) (((({ d with mem := [(0x08080200, 0x81), (0x08080201, 0x92), (0x08080202, 0xA3), (0x08080203, 0xB4), (0x08080204, 0xC5), (0x08080207, 0xD6)] }.setReg SUPPLY.DOM_STATUS_0 0xFFFFFFFF).setFld MEMCTL.SRAM_STATUS_READY 255).setFld (CORES.CORE_STATUS_STATE 1) 2).putCore 1 { pc := 0x100, g := [(3, 0x11223344), (4, 0x208), (5, 0x8), (6, 0x80F1A2B3), (7, 0x99887766), (8, 0x201)] }), 1, 0xfff04323, 6, 4, 0xFFFFFFF8, 0x08080200, by decide +kernel⟩,
   ⟨mkS fun d =>
      withWord 1 (0xfff04325) (((({ d with mem := [(0x08080200, 0x81), (0x08080201, 0x92), (0x08080202, 0xA3), (0x08080203, 0xB4), (0x08080204, 0xC5), (0x08080207, 0xD6)] }.setReg SUPPLY.DOM_STATUS_0 0xFFFFFFFF).setFld MEMCTL.SRAM_STATUS_READY 255).setFld (CORES.CORE_STATUS_STATE 1) 2).putCore 1 { pc := 0x100, g := [(3, 0x11223344), (4, 0x208), (5, 0x8), (6, 0x80F1A2B3), (7, 0x99887766), (8, 0x201)] }), 1, 0xfff04325, 6, 4, 0xFFFFFFF8, 0x08080200, by decide +kernel⟩,
   ⟨mkS fun d =>
      withWord 1 (0xfff04327) (((({ d with mem := [(0x08080200, 0x81), (0x08080201, 0x92), (0x08080202, 0xA3), (0x08080203, 0xB4), (0x08080204, 0xC5), (0x08080207, 0xD6)] }.setReg SUPPLY.DOM_STATUS_0 0xFFFFFFFF).setFld MEMCTL.SRAM_STATUS_READY 255).setFld (CORES.CORE_STATUS_STATE 1) 2).putCore 1 { pc := 0x100, g := [(3, 0x11223344), (4, 0x208), (5, 0x8), (6, 0x80F1A2B3), (7, 0x99887766), (8, 0x201)] }), 1, 0xfff04327, 6, 4, 0xFFFFFFF8, 0x08080200, by decide +kernel⟩,
   ⟨mkS fun d =>
      withWord 1 (0xfff04329) (((({ d with mem := [(0x08080200, 0x81), (0x08080201, 0x92), (0x08080202, 0xA3), (0x08080203, 0xB4), (0x08080204, 0xC5), (0x08080207, 0xD6)] }.setReg SUPPLY.DOM_STATUS_0 0xFFFFFFFF).setFld MEMCTL.SRAM_STATUS_READY 255).setFld (CORES.CORE_STATUS_STATE 1) 2).putCore 1 { pc := 0x100, g := [(3, 0x11223344), (4, 0x208), (5, 0x8), (6, 0x80F1A2B3), (7, 0x99887766), (8, 0x201)] }), 1, 0xfff04329, 6, 4, 0xFFFFFFF8, 0x08080200, by decide +kernel⟩,
   ⟨mkS fun d =>
      withWord 1 (0xfff0432b) (((({ d with mem := [(0x08080200, 0x81), (0x08080201, 0x92), (0x08080202, 0xA3), (0x08080203, 0xB4), (0x08080204, 0xC5), (0x08080207, 0xD6)] }.setReg SUPPLY.DOM_STATUS_0 0xFFFFFFFF).setFld MEMCTL.SRAM_STATUS_READY 255).setFld (CORES.CORE_STATUS_STATE 1) 2).putCore 1 { pc := 0x100, g := [(3, 0x11223344), (4, 0x208), (5, 0x8), (6, 0x80F1A2B3), (7, 0x99887766), (8, 0x201)] }), 1, 0xfff0432b, 6, 4, 0xFFFFFFF8, 0x08080200, by decide +kernel⟩,
   ⟨mkS fun d =>
      withWord 1 (0x14a4339) (((({ d with mem := [(0x08080200, 0x81), (0x08080201, 0x92), (0x08080202, 0xA3), (0x08080203, 0xB4), (0x08080204, 0xC5), (0x08080207, 0xD6)] }.setReg SUPPLY.DOM_STATUS_0 0xFFFFFFFF).setFld MEMCTL.SRAM_STATUS_READY 255).setFld (CORES.CORE_STATUS_STATE 1) 2).putCore 1 { pc := 0x100, g := [(3, 0x11223344), (4, 0x1F0), (5, 0x8), (6, 0x80F1A2B3), (7, 0x99887766), (8, 0x201)] }), 1, 0x14a4339, true, 1, 6, 4, 5, 0x08080200, by decide +kernel⟩,
   ⟨mkS fun d =>
      withWord 1 (0x4a433b) (((({ d with mem := [(0x08080200, 0x81), (0x08080201, 0x92), (0x08080202, 0xA3), (0x08080203, 0xB4), (0x08080204, 0xC5), (0x08080207, 0xD6)] }.setReg SUPPLY.DOM_STATUS_0 0xFFFFFFFF).setFld MEMCTL.SRAM_STATUS_READY 255).setFld (CORES.CORE_STATUS_STATE 1) 2).putCore 1 { pc := 0x100, g := [(3, 0x11223344), (4, 0x1F0), (5, 0x8), (6, 0x80F1A2B3), (7, 0x99887766), (8, 0x201)] }), 1, 0x4a433b, 1, 6, 4, 5, 0x08080200, by decide +kernel⟩,
   ⟨mkS fun d =>
      withWord 1 (0x34a4339) (((({ d with mem := [(0x08080200, 0x81), (0x08080201, 0x92), (0x08080202, 0xA3), (0x08080203, 0xB4), (0x08080204, 0xC5), (0x08080207, 0xD6)] }.setReg SUPPLY.DOM_STATUS_0 0xFFFFFFFF).setFld MEMCTL.SRAM_STATUS_READY 255).setFld (CORES.CORE_STATUS_STATE 1) 2).putCore 1 { pc := 0x100, g := [(3, 0x11223344), (4, 0x1F8), (5, 0x8), (6, 0x80F1A2B3), (7, 0x99887766), (8, 0x201)] }), 1, 0x34a4339, true, 1, 6, 4, 5, 0x08080200, by decide +kernel⟩,
   ⟨mkS fun d =>
      withWord 1 (0x24a433b) (((({ d with mem := [(0x08080200, 0x81), (0x08080201, 0x92), (0x08080202, 0xA3), (0x08080203, 0xB4), (0x08080204, 0xC5), (0x08080207, 0xD6)] }.setReg SUPPLY.DOM_STATUS_0 0xFFFFFFFF).setFld MEMCTL.SRAM_STATUS_READY 255).setFld (CORES.CORE_STATUS_STATE 1) 2).putCore 1 { pc := 0x100, g := [(3, 0x11223344), (4, 0x1F8), (5, 0x8), (6, 0x80F1A2B3), (7, 0x99887766), (8, 0x201)] }), 1, 0x24a433b, 1, 6, 4, 5, 0x08080200, by decide +kernel⟩,
   ⟨mkS fun d =>
      withWord 1 (0x57e4339) (((({ d with mem := [(0x08080200, 0x81), (0x08080201, 0x92), (0x08080202, 0xA3), (0x08080203, 0xB4), (0x08080204, 0xC5), (0x08080207, 0xD6)] }.setReg SUPPLY.DOM_STATUS_0 0xFFFFFFFF).setFld MEMCTL.SRAM_STATUS_READY 255).setFld (CORES.CORE_STATUS_STATE 1) 2).putCore 1 { pc := 0x100, g := [(3, 0x11223344), (4, 0x200), (5, 0x8), (6, 0x80F1A2B3), (7, 0x99887766), (8, 0x201)] }), 1, 0x57e4339, true, 1, 6, 4, 0xFFFFFFFF, 0x08080200, by decide +kernel⟩,
   ⟨mkS fun d =>
      withWord 1 (0x47e433b) (((({ d with mem := [(0x08080200, 0x81), (0x08080201, 0x92), (0x08080202, 0xA3), (0x08080203, 0xB4), (0x08080204, 0xC5), (0x08080207, 0xD6)] }.setReg SUPPLY.DOM_STATUS_0 0xFFFFFFFF).setFld MEMCTL.SRAM_STATUS_READY 255).setFld (CORES.CORE_STATUS_STATE 1) 2).putCore 1 { pc := 0x100, g := [(3, 0x11223344), (4, 0x200), (5, 0x8), (6, 0x80F1A2B3), (7, 0x99887766), (8, 0x201)] }), 1, 0x47e433b, 1, 6, 4, 0xFFFFFFFF, 0x08080200, by decide +kernel⟩⟩

/-- The hypotheses of clauses 13 to 23 of CoreLoadsStores are met. -/
theorem witness_CoreLoadsStores_13 :
    (∃ (s : State) (c : Fin 4) (w : Word) (sg : Bool) (z : Nat) (rd : Nat) (ra : Nat) (k : Word) (a : Nat), s.dev.runs c w = true ∧
      decodeW w = .load sg z (.pre k) rd ra true ∧
      (s.dev.fetched c w).loads c (((s.dev.fetched c w).core c).rg ra + (k <<< z)) (2 ^ z) a = true) ∧
    (∃ (s : State) (c : Fin 4) (w : Word) (z : Nat) (rs : Nat) (ra : Nat) (k : Word) (a : Nat), s.dev.runs c w = true ∧
      decodeW w = .store z (.pre k) rs ra true ∧
      (s.dev.fetched c w).stores c (((s.dev.fetched c w).core c).rg ra + (k <<< z)) (2 ^ z) a = true) ∧
    (∃ (s : State) (c : Fin 4) (w : Word) (sg : Bool) (z : Nat) (rd : Nat) (ra : Nat) (rb : Nat) (a : Nat), s.dev.runs c w = true ∧
      decodeW w = .load sg z (.postr rb) rd ra true ∧ (s.dev.fetched c w).loads c (((s.dev.fetched c w).core c).rg ra) (2 ^ z) a = true) ∧
    (∃ (s : State) (c : Fin 4) (w : Word) (z : Nat) (rs : Nat) (ra : Nat) (rb : Nat) (a : Nat), s.dev.runs c w = true ∧
      decodeW w = .store z (.postr rb) rs ra true ∧ (s.dev.fetched c w).stores c (((s.dev.fetched c w).core c).rg ra) (2 ^ z) a = true) ∧
    (∃ (s : State) (c : Fin 4) (w : Word) (sg : Bool) (z : Nat) (rd : Nat) (ra : Nat) (k : Word) (a : Nat), s.dev.runs c w = true ∧
      decodeW w = .load sg z (.bank k) rd ra true ∧
      (s.dev.fetched c w).loads c (BitVec.ofNat 32 ((((s.dev.fetched c w).core c).sf CORE.BANK 15 0) * 0x10000) ||| ((((s.dev.fetched c w).core c).rg ra + (k <<< z)) &&& 0xFFFF)) (2 ^ z) a = true) ∧
    (∃ (s : State) (c : Fin 4) (w : Word) (z : Nat) (rs : Nat) (ra : Nat) (k : Word) (a : Nat), s.dev.runs c w = true ∧
      decodeW w = .store z (.bank k) rs ra true ∧
      (s.dev.fetched c w).stores c (BitVec.ofNat 32 ((((s.dev.fetched c w).core c).sf CORE.BANK 15 0) * 0x10000) ||| ((((s.dev.fetched c w).core c).rg ra + (k <<< z)) &&& 0xFFFF)) (2 ^ z) a = true) ∧
    (∃ (s : State) (c : Fin 4) (w : Word) (rs : Nat) (ra : Nat) (k : Word) (a : Nat), s.dev.runs c w = true ∧
      decodeW w = .store 0 (.disp k) rs ra false ∧ (s.dev.fetched c w).stores c (((s.dev.fetched c w).core c).rg ra + k) 1 a = true) ∧
    (∃ (s : State) (c : Fin 4) (w : Word) (rs : Nat) (ra : Nat) (k : Word) (a : Nat), s.dev.runs c w = true ∧
      decodeW w = .store 1 (.disp k) rs ra false ∧ (s.dev.fetched c w).stores c (((s.dev.fetched c w).core c).rg ra + k) 2 a = true) ∧
    (∃ (s : State) (c : Fin 4) (w : Word) (rs : Nat) (ra : Nat) (k : Word) (a : Nat), s.dev.runs c w = true ∧
      decodeW w = .store 2 (.disp k) rs ra false ∧ (s.dev.fetched c w).stores c (((s.dev.fetched c w).core c).rg ra + k) 4 a = true) ∧
    (∃ (s : State) (c : Fin 4) (w : Word) (rs : Nat) (ra : Nat) (k : Word) (a : Nat), s.dev.runs c w = true ∧
      decodeW w = .store 3 (.disp k) rs ra false ∧ (s.dev.fetched c w).stores c (((s.dev.fetched c w).core c).rg ra + k) 8 a = true) ∧
    (∃ (s : State) (c : Fin 4) (w : Word) (rs : Nat) (ra : Nat) (k : Word) (p : Nat) (q : SbEntry) (t : List SbEntry), s.dev.runs c w = true ∧
      decodeW w = .store 2 (.disp k) rs ra false ∧ (s.dev.fetched c w).lockstep c = false ∧ ((s.dev.fetched c w).core c).sb = q :: t ∧
      t.length = 7 ∧ (((s.dev.fetched c w).core c).rg ra + k).toNat % 4 = 0 ∧
      ((s.dev.fetched c w).core c).mpuGrants (((s.dev.fetched c w).core c).rg ra + k) 2 = true ∧
      ((s.dev.fetched c w).place c (((s.dev.fetched c w).core c).rg ra + k) = .normal p ∨ (s.dev.fetched c w).place c (((s.dev.fetched c w).core c).rg ra + k) = .ownTcm p) ∧
      (s.dev.fetched c w).sbAccepts c q = true) :=
  ⟨⟨mkS fun d =>
      withWord 1 (0x7424339) (((({ d with mem := [(0x08080200, 0x81), (0x08080201, 0x92), (0x08080202, 0xA3), (0x08080203, 0xB4), (0x08080204, 0xC5), (0x08080207, 0xD6)] }.setReg SUPPLY.DOM_STATUS_0 0xFFFFFFFF).setFld MEMCTL.SRAM_STATUS_READY 255).setFld (CORES.CORE_STATUS_STATE 1) 2).putCore 1 { pc := 0x100, g := [(3, 0x11223344), (4, 0x1FE), (5, 0x8), (6, 0x80F1A2B3), (7, 0x99887766), (8, 0x201)] }), 1, 0x7424339, true, 1, 6, 4, 1, 0x08080200, by decide +kernel⟩,
   ⟨mkS fun d =>
      withWord 1 (0x642433b) (((({ d with mem := [(0x08080200, 0x81), (0x08080201, 0x92), (0x08080202, 0xA3), (0x08080203, 0xB4), (0x08080204, 0xC5), (0x08080207, 0xD6)] }.setReg SUPPLY.DOM_STATUS_0 0xFFFFFFFF).setFld MEMCTL.SRAM_STATUS_READY 255).setFld (CORES.CORE_STATUS_STATE 1) 2).putCore 1 { pc := 0x100, g := [(3, 0x11223344), (4, 0x1FE), (5, 0x8), (6, 0x80F1A2B3), (7, 0x99887766), (8, 0x201)] }), 1, 0x642433b, 1, 6, 4, 1, 0x08080200, by decide +kernel⟩,
   ⟨mkS fun d =>
      withWord 1 (0x94a4339) (((({ d with mem := [(0x08080200, 0x81), (0x08080201, 0x92), (0x08080202, 0xA3), (0x08080203, 0xB4), (0x08080204, 0xC5), (0x08080207, 0xD6)] }.setReg SUPPLY.DOM_STATUS_0 0xFFFFFFFF).setFld MEMCTL.SRAM_STATUS_READY 255).setFld (CORES.CORE_STATUS_STATE 1) 2).putCore 1 { pc := 0x100, g := [(3, 0x11223344), (4, 0x200), (5, 0x8), (6, 0x80F1A2B3), (7, 0x99887766), (8, 0x201)] }), 1, 0x94a4339, true, 1, 6, 4, 5, 0x08080200, by decide +kernel⟩,
   ⟨mkS fun d =>
      withWord 1 (0x84a433b) (((({ d with mem := [(0x08080200, 0x81), (0x08080201, 0x92), (0x08080202, 0xA3), (0x08080203, 0xB4), (0x08080204, 0xC5), (0x08080207, 0xD6)] }.setReg SUPPLY.DOM_STATUS_0 0xFFFFFFFF).setFld MEMCTL.SRAM_STATUS_READY 255).setFld (CORES.CORE_STATUS_STATE 1) 2).putCore 1 { pc := 0x100, g := [(3, 0x11223344), (4, 0x200), (5, 0x8), (6, 0x80F1A2B3), (7, 0x99887766), (8, 0x201)] }), 1, 0x84a433b, 1, 6, 4, 5, 0x08080200, by decide +kernel⟩,
   ⟨mkS fun d =>
      withWord 1 (0xb424339) (((({ d with mem := [(0x08080200, 0x81), (0x08080201, 0x92), (0x08080202, 0xA3), (0x08080203, 0xB4), (0x08080204, 0xC5), (0x08080207, 0xD6)] }.setReg SUPPLY.DOM_STATUS_0 0xFFFFFFFF).setFld MEMCTL.SRAM_STATUS_READY 255).setFld (CORES.CORE_STATUS_STATE 1) 2).putCore 1 { pc := 0x100, g := [(3, 0x11223344), (4, 0x1FE), (5, 0x8), (6, 0x80F1A2B3), (7, 0x99887766), (8, 0x201)] }), 1, 0xb424339, true, 1, 6, 4, 1, 0x08080200, by decide +kernel⟩,
   ⟨mkS fun d =>
      withWord 1 (0xa42433b) (((({ d with mem := [(0x08080200, 0x81), (0x08080201, 0x92), (0x08080202, 0xA3), (0x08080203, 0xB4), (0x08080204, 0xC5), (0x08080207, 0xD6)] }.setReg SUPPLY.DOM_STATUS_0 0xFFFFFFFF).setFld MEMCTL.SRAM_STATUS_READY 255).setFld (CORES.CORE_STATUS_STATE 1) 2).putCore 1 { pc := 0x100, g := [(3, 0x11223344), (4, 0x1FE), (5, 0x8), (6, 0x80F1A2B3), (7, 0x99887766), (8, 0x201)] }), 1, 0xa42433b, 1, 6, 4, 1, 0x08080200, by decide +kernel⟩,
   ⟨mkS fun d =>
      withWord 1 (0xfff04331) (((({ d with mem := [(0x08080200, 0x81), (0x08080201, 0x92), (0x08080202, 0xA3), (0x08080203, 0xB4), (0x08080204, 0xC5), (0x08080207, 0xD6)] }.setReg SUPPLY.DOM_STATUS_0 0xFFFFFFFF).setFld MEMCTL.SRAM_STATUS_READY 255).setFld (CORES.CORE_STATUS_STATE 1) 2).putCore 1 { pc := 0x100, g := [(3, 0x11223344), (4, 0x208), (5, 0x8), (6, 0x80F1A2B3), (7, 0x99887766), (8, 0x201)] }), 1, 0xfff04331, 6, 4, 0xFFFFFFF8, 0x08080200, by decide +kernel⟩,
   ⟨mkS fun d =>
      withWord 1 (0xfff04333) (((({ d with mem := [(0x08080200, 0x81), (0x08080201, 0x92), (0x08080202, 0xA3), (0x08080203, 0xB4), (0x08080204, 0xC5), (0x08080207, 0xD6)] }.setReg SUPPLY.DOM_STATUS_0 0xFFFFFFFF).setFld MEMCTL.SRAM_STATUS_READY 255).setFld (CORES.CORE_STATUS_STATE 1) 2).putCore 1 { pc := 0x100, g := [(3, 0x11223344), (4, 0x208), (5, 0x8), (6, 0x80F1A2B3), (7, 0x99887766), (8, 0x201)] }), 1, 0xfff04333, 6, 4, 0xFFFFFFF8, 0x08080200, by decide +kernel⟩,
   ⟨mkS fun d =>
      withWord 1 (0xfff04335) (((({ d with mem := [(0x08080200, 0x81), (0x08080201, 0x92), (0x08080202, 0xA3), (0x08080203, 0xB4), (0x08080204, 0xC5), (0x08080207, 0xD6)] }.setReg SUPPLY.DOM_STATUS_0 0xFFFFFFFF).setFld MEMCTL.SRAM_STATUS_READY 255).setFld (CORES.CORE_STATUS_STATE 1) 2).putCore 1 { pc := 0x100, g := [(3, 0x11223344), (4, 0x208), (5, 0x8), (6, 0x80F1A2B3), (7, 0x99887766), (8, 0x201)] }), 1, 0xfff04335, 6, 4, 0xFFFFFFF8, 0x08080200, by decide +kernel⟩,
   ⟨mkS fun d =>
      withWord 1 (0xfff04337) (((({ d with mem := [(0x08080200, 0x81), (0x08080201, 0x92), (0x08080202, 0xA3), (0x08080203, 0xB4), (0x08080204, 0xC5), (0x08080207, 0xD6)] }.setReg SUPPLY.DOM_STATUS_0 0xFFFFFFFF).setFld MEMCTL.SRAM_STATUS_READY 255).setFld (CORES.CORE_STATUS_STATE 1) 2).putCore 1 { pc := 0x100, g := [(3, 0x11223344), (4, 0x208), (5, 0x8), (6, 0x80F1A2B3), (7, 0x99887766), (8, 0x201)] }), 1, 0xfff04337, 6, 4, 0xFFFFFFF8, 0x08080200, by decide +kernel⟩,
   ⟨mkS fun d =>
      withWord 1 (0x4335) (((({ d with mem := [(0x08080200, 0x81), (0x08080201, 0x92), (0x08080202, 0xA3), (0x08080203, 0xB4), (0x08080204, 0xC5), (0x08080207, 0xD6)] }.setReg SUPPLY.DOM_STATUS_0 0xFFFFFFFF).setFld MEMCTL.SRAM_STATUS_READY 255).setFld (CORES.CORE_STATUS_STATE 1) 2).putCore 1 { pc := 0x100, g := [(3, 0x11223344), (4, 0x200), (5, 0x8), (6, 0x80F1A2B3), (7, 0x99887766), (8, 0x201)], sb := [{ core := 0x300, addr := 0x08080300, mask := 0xF, data := 0x12345678, count := 0 }, { core := 0x300, addr := 0x08080300, mask := 0xF, data := 0x12345678, count := 0 }, { core := 0x300, addr := 0x08080300, mask := 0xF, data := 0x12345678, count := 0 }, { core := 0x300, addr := 0x08080300, mask := 0xF, data := 0x12345678, count := 0 }, { core := 0x300, addr := 0x08080300, mask := 0xF, data := 0x12345678, count := 0 }, { core := 0x300, addr := 0x08080300, mask := 0xF, data := 0x12345678, count := 0 }, { core := 0x300, addr := 0x08080300, mask := 0xF, data := 0x12345678, count := 0 }, { core := 0x300, addr := 0x08080300, mask := 0xF, data := 0x12345678, count := 0 }] }), 1, 0x4335, 6, 4, 0, 0x08080200, { core := 0x300, addr := 0x08080300, mask := 0xF, data := 0x12345678, count := 0 }, [{ core := 0x300, addr := 0x08080300, mask := 0xF, data := 0x12345678, count := 0 }, { core := 0x300, addr := 0x08080300, mask := 0xF, data := 0x12345678, count := 0 }, { core := 0x300, addr := 0x08080300, mask := 0xF, data := 0x12345678, count := 0 }, { core := 0x300, addr := 0x08080300, mask := 0xF, data := 0x12345678, count := 0 }, { core := 0x300, addr := 0x08080300, mask := 0xF, data := 0x12345678, count := 0 }, { core := 0x300, addr := 0x08080300, mask := 0xF, data := 0x12345678, count := 0 }, { core := 0x300, addr := 0x08080300, mask := 0xF, data := 0x12345678, count := 0 }], by decide +kernel⟩⟩

/-- The hypotheses of clauses 24 to 35 of CoreLoadsStores are met. -/
theorem witness_CoreLoadsStores_24 :
    (∃ (s : State) (c : Fin 4) (w : Word) (rd : Nat) (ra : Nat) (rb : Nat) (a : Nat), s.dev.runs c w = true ∧ decodeW w = .amo .swap rd ra rb ∧
      (s.dev.fetched c w).atomics c (((s.dev.fetched c w).core c).rg ra) a = true) ∧
    (∃ (s : State) (c : Fin 4) (w : Word) (rd : Nat) (ra : Nat) (rb : Nat) (a : Nat), s.dev.runs c w = true ∧ decodeW w = .amo .add rd ra rb ∧
      (s.dev.fetched c w).atomics c (((s.dev.fetched c w).core c).rg ra) a = true) ∧
    (∃ (s : State) (c : Fin 4) (w : Word) (rd : Nat) (ra : Nat) (rb : Nat) (a : Nat), s.dev.runs c w = true ∧ decodeW w = .amo .cas rd ra rb ∧
      (s.dev.fetched c w).atomics c (((s.dev.fetched c w).core c).rg ra) a = true) ∧
    (∃ (s : State) (c : Fin 4) (w : Word) (rd : Nat) (ra : Nat) (k : Word), s.dev.runs c w = true ∧
      decodeW w = .load false 2 (.disp k) rd ra false ∧
      (s.dev.fetched c w).privAccess c { addr := (((s.dev.fetched c w).core c).rg ra + k), len := 4 } = false ∧
      (((s.dev.fetched c w).core c).rg ra + k).toNat % 4 ≠ 0 ∧ (s.dev.fetched c w).canEnter c 5 = true) ∧
    (∃ (s : State) (c : Fin 4) (w : Word) (rd : Nat) (ra : Nat) (k : Word), s.dev.runs c w = true ∧
      decodeW w = .load false 2 (.disp k) rd ra false ∧
      (s.dev.fetched c w).privAccess c { addr := (((s.dev.fetched c w).core c).rg ra + k), len := 4 } = false ∧
      (((s.dev.fetched c w).core c).rg ra + k).toNat % 4 = 0 ∧
      ((s.dev.fetched c w).core c).mpuGrants (((s.dev.fetched c w).core c).rg ra + k) 1 = false ∧ (s.dev.fetched c w).canEnter c 7 = true) ∧
    (∃ (s : State) (c : Fin 4) (w : Word) (rd : Nat) (ra : Nat) (k : Word), s.dev.runs c w = true ∧
      decodeW w = .load false 2 (.disp k) rd ra false ∧ (s.dev.fetched c w).place c (((s.dev.fetched c w).core c).rg ra + k) = .absent ∧
      (((s.dev.fetched c w).core c).rg ra + k).toNat % 4 = 0 ∧
      ((s.dev.fetched c w).core c).mpuGrants (((s.dev.fetched c w).core c).rg ra + k) 1 = true ∧ (s.dev.fetched c w).canEnter c 6 = true) ∧
    (∃ (s : State) (c : Fin 4) (w : Word) (rd : Nat) (ra : Nat) (k : Word) (o : Nat), s.dev.runs c w = true ∧
      decodeW w = .load false 2 (.disp k) rd ra false ∧ (s.dev.fetched c w).place c (((s.dev.fetched c w).core c).rg ra + k) = .sysReg o ∧
      ((s.dev.fetched c w).core c).sysPrivate o = true ∧ (s.dev.fetched c w).canEnter c 3 = true) ∧
    (∃ (s : State) (c : Fin 4) (w : Word) (rd : Nat) (ra : Nat) (k : Word) (p : Nat), s.dev.runs c w = true ∧
      decodeW w = .load false 2 (.disp k) rd ra false ∧ (s.dev.fetched c w).place c (((s.dev.fetched c w).core c).rg ra + k) = .ordered p ∧
      (((s.dev.fetched c w).core c).rg ra + k).toNat % 4 = 0 ∧
      ((s.dev.fetched c w).core c).mpuGrants (((s.dev.fetched c w).core c).rg ra + k) 1 = true ∧ ((s.dev.fetched c w).core c).sb = []) ∧
    (∃ (s : State) (c : Fin 4) (w : Word) (rd : Nat) (ra : Nat) (k : Word), s.dev.runs c w = true ∧ decodeW w = .store 2 (.disp k) rd ra false ∧
      (s.dev.fetched c w).privAccess c { addr := (((s.dev.fetched c w).core c).rg ra + k), len := 4 } = false ∧
      (((s.dev.fetched c w).core c).rg ra + k).toNat % 4 ≠ 0 ∧ (s.dev.fetched c w).canEnter c 5 = true) ∧
    (∃ (s : State) (c : Fin 4) (w : Word) (rd : Nat) (ra : Nat) (k : Word), s.dev.runs c w = true ∧ decodeW w = .store 2 (.disp k) rd ra false ∧
      (s.dev.fetched c w).privAccess c { addr := (((s.dev.fetched c w).core c).rg ra + k), len := 4 } = false ∧
      (((s.dev.fetched c w).core c).rg ra + k).toNat % 4 = 0 ∧
      ((s.dev.fetched c w).core c).mpuGrants (((s.dev.fetched c w).core c).rg ra + k) 2 = false ∧ (s.dev.fetched c w).canEnter c 7 = true) ∧
    (∃ (s : State) (c : Fin 4) (w : Word) (rd : Nat) (ra : Nat) (k : Word), s.dev.runs c w = true ∧ decodeW w = .store 2 (.disp k) rd ra false ∧
      (s.dev.fetched c w).place c (((s.dev.fetched c w).core c).rg ra + k) = .absent ∧
      (((s.dev.fetched c w).core c).rg ra + k).toNat % 4 = 0 ∧
      ((s.dev.fetched c w).core c).mpuGrants (((s.dev.fetched c w).core c).rg ra + k) 2 = true ∧ (s.dev.fetched c w).canEnter c 6 = true) ∧
    (∃ (s : State) (c : Fin 4) (w : Word) (rd : Nat) (ra : Nat) (k : Word) (o : Nat), s.dev.runs c w = true ∧
      decodeW w = .store 2 (.disp k) rd ra false ∧ (s.dev.fetched c w).place c (((s.dev.fetched c w).core c).rg ra + k) = .sysReg o ∧
      ((s.dev.fetched c w).core c).sysPrivate o = true ∧ (s.dev.fetched c w).canEnter c 3 = true) :=
  ⟨⟨mkS fun d =>
      withWord 1 (0xa433d) (((({ d with mem := [(0x08080200, 0x81), (0x08080201, 0x92), (0x08080202, 0xA3), (0x08080203, 0xB4), (0x08080204, 0xC5), (0x08080207, 0xD6)] }.setReg SUPPLY.DOM_STATUS_0 0xFFFFFFFF).setFld MEMCTL.SRAM_STATUS_READY 255).setFld (CORES.CORE_STATUS_STATE 1) 2).putCore 1 { pc := 0x100, g := [(3, 0x11223344), (4, 0x200), (5, 0x8), (6, 0x80F1A2B3), (7, 0x99887766), (8, 0x201)] }), 1, 0xa433d, 6, 4, 5, 0x08080200, by decide +kernel⟩,
   ⟨mkS fun d =>
      withWord 1 (0x4a433d) (((({ d with mem := [(0x08080200, 0x81), (0x08080201, 0x92), (0x08080202, 0xA3), (0x08080203, 0xB4), (0x08080204, 0xC5), (0x08080207, 0xD6)] }.setReg SUPPLY.DOM_STATUS_0 0xFFFFFFFF).setFld MEMCTL.SRAM_STATUS_READY 255).setFld (CORES.CORE_STATUS_STATE 1) 2).putCore 1 { pc := 0x100, g := [(3, 0x11223344), (4, 0x200), (5, 0x8), (6, 0x80F1A2B3), (7, 0x99887766), (8, 0x201)] }), 1, 0x4a433d, 6, 4, 5, 0x08080200, by decide +kernel⟩,
   ⟨mkS fun d =>
      withWord 1 (0x8a433d) (((({ d with mem := [(0x08080200, 0x81), (0x08080201, 0x92), (0x08080202, 0xA3), (0x08080203, 0xB4), (0x08080204, 0xC5), (0x08080207, 0xD6)] }.setReg SUPPLY.DOM_STATUS_0 0xFFFFFFFF).setFld MEMCTL.SRAM_STATUS_READY 255).setFld (CORES.CORE_STATUS_STATE 1) 2).putCore 1 { pc := 0x100, g := [(3, 0x11223344), (4, 0x200), (5, 0x8), (6, 0x80F1A2B3), (7, 0x99887766), (8, 0x201)] }), 1, 0x8a433d, 6, 4, 5, 0x08080200, by decide +kernel⟩,
   ⟨mkS fun d =>
      withWord 1 (0x24329) ((((d.setReg SUPPLY.DOM_STATUS_0 0xFFFFFFFF).setFld MEMCTL.SRAM_STATUS_READY 255).setFld (CORES.CORE_STATUS_STATE 1) 2).putCore 1 { pc := 0x100, g := [(3, 0x11223344), (4, 0x200), (5, 0x8), (6, 0x80F1A2B3), (7, 0x99887766), (8, 0x201)], status := 4, spKernel := 0x8000, sys := [(0x118, 0x8000)] }), 1, 0x24329, 6, 4, 1, by decide +kernel⟩,
   ⟨mkS fun d =>
      withWord 1 (0x4329) ((((d.setReg SUPPLY.DOM_STATUS_0 0xFFFFFFFF).setFld MEMCTL.SRAM_STATUS_READY 255).setFld (CORES.CORE_STATUS_STATE 1) 2).putCore 1 { pc := 0x100, g := [(3, 0x11223344), (4, 0x200), (5, 0x8), (6, 0x80F1A2B3), (7, 0x99887766), (8, 0x201)], status := 4, spKernel := 0x8000, sys := [(0x80, 1), (0x90, 0x100), (0x94, 0x109), (0x118, 0x8000)] }), 1, 0x4329, 6, 4, 0, by decide +kernel⟩,
   ⟨mkS fun d =>
      withWord 1 (0x4329) ((((d.setReg SUPPLY.DOM_STATUS_0 0xFFFFFFFF).setFld MEMCTL.SRAM_STATUS_READY 255).setFld (CORES.CORE_STATUS_STATE 1) 2).putCore 1 { pc := 0x100, g := [(3, 0x11223344), (4, 0x70000000), (5, 0x8), (6, 0x80F1A2B3), (7, 0x99887766), (8, 0x201)], status := 4, spKernel := 0x8000, sys := [(0x118, 0x8000)] }), 1, 0x4329, 6, 4, 0, by decide +kernel⟩,
   ⟨mkS fun d =>
      withWord 1 (0x4329) ((((d.setReg SUPPLY.DOM_STATUS_0 0xFFFFFFFF).setFld MEMCTL.SRAM_STATUS_READY 255).setFld (CORES.CORE_STATUS_STATE 1) 2).putCore 1 { pc := 0x100, g := [(3, 0x11223344), (4, 0xE0000100), (5, 0x8), (6, 0x80F1A2B3), (7, 0x99887766), (8, 0x201)], status := 4, spKernel := 0x8000, sys := [(0x118, 0x8000)] }), 1, 0x4329, 6, 4, 0, 0x100, by decide +kernel⟩,
   ⟨mkS fun d =>
      withWord 1 (0x4329) ((((d.setReg SUPPLY.DOM_STATUS_0 0xFFFFFFFF).setFld MEMCTL.SRAM_STATUS_READY 255).setFld (CORES.CORE_STATUS_STATE 1) 2).putCore 1 { pc := 0x100, g := [(3, 0x11223344), (4, 0x40010004), (5, 0x8), (6, 0x80F1A2B3), (7, 0x99887766), (8, 0x201)] }), 1, 0x4329, 6, 4, 0, 0x40010004, by decide +kernel⟩,
   ⟨mkS fun d =>
      withWord 1 (0x24335) ((((d.setReg SUPPLY.DOM_STATUS_0 0xFFFFFFFF).setFld MEMCTL.SRAM_STATUS_READY 255).setFld (CORES.CORE_STATUS_STATE 1) 2).putCore 1 { pc := 0x100, g := [(3, 0x11223344), (4, 0x200), (5, 0x8), (6, 0x80F1A2B3), (7, 0x99887766), (8, 0x201)], status := 4, spKernel := 0x8000, sys := [(0x118, 0x8000)] }), 1, 0x24335, 6, 4, 1, by decide +kernel⟩,
   ⟨mkS fun d =>
      withWord 1 (0x4335) ((((d.setReg SUPPLY.DOM_STATUS_0 0xFFFFFFFF).setFld MEMCTL.SRAM_STATUS_READY 255).setFld (CORES.CORE_STATUS_STATE 1) 2).putCore 1 { pc := 0x100, g := [(3, 0x11223344), (4, 0x200), (5, 0x8), (6, 0x80F1A2B3), (7, 0x99887766), (8, 0x201)], status := 4, spKernel := 0x8000, sys := [(0x80, 1), (0x90, 0x100), (0x94, 0x109), (0x118, 0x8000)] }), 1, 0x4335, 6, 4, 0, by decide +kernel⟩,
   ⟨mkS fun d =>
      withWord 1 (0x4335) ((((d.setReg SUPPLY.DOM_STATUS_0 0xFFFFFFFF).setFld MEMCTL.SRAM_STATUS_READY 255).setFld (CORES.CORE_STATUS_STATE 1) 2).putCore 1 { pc := 0x100, g := [(3, 0x11223344), (4, 0x70000000), (5, 0x8), (6, 0x80F1A2B3), (7, 0x99887766), (8, 0x201)], status := 4, spKernel := 0x8000, sys := [(0x118, 0x8000)] }), 1, 0x4335, 6, 4, 0, by decide +kernel⟩,
   ⟨mkS fun d =>
      withWord 1 (0x4335) ((((d.setReg SUPPLY.DOM_STATUS_0 0xFFFFFFFF).setFld MEMCTL.SRAM_STATUS_READY 255).setFld (CORES.CORE_STATUS_STATE 1) 2).putCore 1 { pc := 0x100, g := [(3, 0x11223344), (4, 0xE0000100), (5, 0x8), (6, 0x80F1A2B3), (7, 0x99887766), (8, 0x201)], status := 4, spKernel := 0x8000, sys := [(0x118, 0x8000)] }), 1, 0x4335, 6, 4, 0, 0x100, by decide +kernel⟩⟩

/-- The hypotheses of clauses 36 to 38 of CoreLoadsStores are met. -/
theorem witness_CoreLoadsStores_36 :
    (∃ (s : State) (c : Fin 4) (w : Word) (rd : Nat) (ra : Nat) (k : Word) (p : Nat), s.dev.runs c w = true ∧
      decodeW w = .store 2 (.disp k) rd ra false ∧ (s.dev.fetched c w).place c (((s.dev.fetched c w).core c).rg ra + k) = .ordered p ∧
      (((s.dev.fetched c w).core c).rg ra + k).toNat % 4 = 0 ∧
      ((s.dev.fetched c w).core c).mpuGrants (((s.dev.fetched c w).core c).rg ra + k) 2 = true ∧ ((s.dev.fetched c w).core c).sb = []) ∧
    (∃ (s : State) (c : Fin 4) (w : Word) (rd : Nat) (ra : Nat) (rb : Nat) (p : Nat), s.dev.runs c w = true ∧ decodeW w = .amo .add rd ra rb ∧
      (s.dev.fetched c w).place c (((s.dev.fetched c w).core c).rg ra) = .ordered p ∧ (((s.dev.fetched c w).core c).rg ra).toNat % 4 = 0 ∧
      ((s.dev.fetched c w).core c).mpuGrants (((s.dev.fetched c w).core c).rg ra) 1 = true ∧
      ((s.dev.fetched c w).core c).mpuGrants (((s.dev.fetched c w).core c).rg ra) 2 = true ∧ (s.dev.fetched c w).canEnter c 6 = true) ∧
    (∃ (s : State) (c : Fin 4) (w : Word) (rd : Nat) (ra : Nat) (k : Word) (p : Nat) (bs : List Byte), s.dev.runs c w = true ∧
      decodeW w = .load false 2 (.disp k) rd ra false ∧
      ((s.dev.fetched c w).place c (((s.dev.fetched c w).core c).rg ra + k) = .normal p ∨ (s.dev.fetched c w).place c (((s.dev.fetched c w).core c).rg ra + k) = .ownTcm p) ∧
      (((s.dev.fetched c w).core c).rg ra + k).toNat % 4 = 0 ∧
      ((s.dev.fetched c w).core c).mpuGrants (((s.dev.fetched c w).core c).rg ra + k) 1 = true ∧
      (List.range 4).map (fun i => sbByte ((s.dev.fetched c w).core c).sb (p + i)) = bs.map some) :=
  ⟨⟨mkS fun d =>
      withWord 1 (0x4335) ((((d.setReg SUPPLY.DOM_STATUS_0 0xFFFFFFFF).setFld MEMCTL.SRAM_STATUS_READY 255).setFld (CORES.CORE_STATUS_STATE 1) 2).putCore 1 { pc := 0x100, g := [(3, 0x11223344), (4, 0x40010004), (5, 0x8), (6, 0x80F1A2B3), (7, 0x99887766), (8, 0x201)] }), 1, 0x4335, 6, 4, 0, 0x40010004, by decide +kernel⟩,
   ⟨mkS fun d =>
      withWord 1 (0x4a433d) ((((d.setReg SUPPLY.DOM_STATUS_0 0xFFFFFFFF).setFld MEMCTL.SRAM_STATUS_READY 255).setFld (CORES.CORE_STATUS_STATE 1) 2).putCore 1 { pc := 0x100, g := [(3, 0x11223344), (4, 0x40010004), (5, 0x8), (6, 0x80F1A2B3), (7, 0x99887766), (8, 0x201)], status := 4, spKernel := 0x8000, sys := [(0x118, 0x8000)] }), 1, 0x4a433d, 6, 4, 5, 0x40010004, by decide +kernel⟩,
   ⟨mkS fun d =>
      withWord 1 (0x4329) (((({ d with mem := [(0x08080200, 0x81), (0x08080201, 0x92), (0x08080202, 0xA3), (0x08080203, 0xB4), (0x08080204, 0xC5), (0x08080207, 0xD6)] }.setReg SUPPLY.DOM_STATUS_0 0xFFFFFFFF).setFld MEMCTL.SRAM_STATUS_READY 255).setFld (CORES.CORE_STATUS_STATE 1) 2).putCore 1 { pc := 0x100, g := [(3, 0x11223344), (4, 0x200), (5, 0x8), (6, 0x80F1A2B3), (7, 0x99887766), (8, 0x201)], sb := [{ core := 0x200, addr := 0x08080200, mask := 0xF, data := 0x12345678, count := 0 }] }), 1, 0x4329, 6, 4, 0, 0x08080200, [0x78, 0x56, 0x34, 0x12], by decide +kernel⟩⟩

/-- The hypotheses of clauses 1 to 12 of CoreFlow are met. -/
theorem witness_CoreFlow_1 :
    (∃ (s : State) (c : Fin 4) (w : Word) (k : Nat) (off : Word), s.dev.runs c w = true ∧ decodeW w = .bcc k off ∧
      (let n := wordBit ((s.dev.fetched c w).core c).status 16; let z := wordBit ((s.dev.fetched c w).core c).status 17; let cf := wordBit ((s.dev.fetched c w).core c).status 18; let v := wordBit ((s.dev.fetched c w).core c).status 19; [true, z, !z, n != v, n == v, z || (n != v), !z && (n == v), !cf, cf, !cf || z, cf && !z, n, !n, v, !v].getD k false) = true) ∧
    (∃ (s : State) (c : Fin 4) (w : Word) (k : Nat) (off : Word), s.dev.runs c w = true ∧ decodeW w = .bcc k off ∧
      (let n := wordBit ((s.dev.fetched c w).core c).status 16; let z := wordBit ((s.dev.fetched c w).core c).status 17; let cf := wordBit ((s.dev.fetched c w).core c).status 18; let v := wordBit ((s.dev.fetched c w).core c).status 19; [true, z, !z, n != v, n == v, z || (n != v), !z && (n == v), !cf, cf, !cf || z, cf && !z, n, !n, v, !v].getD k false) = false) ∧
    (∃ (s : State) (c : Fin 4) (w : Word) (off : Word), s.dev.runs c w = true ∧ decodeW w = .br off) ∧
    (∃ (s : State) (c : Fin 4) (w : Word) (off : Word), s.dev.runs c w = true ∧ decodeW w = .call off) ∧
    (∃ (s : State) (c : Fin 4) (w : Word) (ra : Nat), s.dev.runs c w = true ∧ decodeW w = .jr ra ∧
      wordBit (((s.dev.fetched c w).core c).rg ra) 0 = false) ∧
    (∃ (s : State) (c : Fin 4) (w : Word) (rd : Nat) (ra : Nat), s.dev.runs c w = true ∧ decodeW w = .callr rd ra ∧
      wordBit (((s.dev.fetched c w).core c).rg ra) 0 = false) ∧
    (∃ (s : State) (c : Fin 4) (w : Word) (ra : Nat), s.dev.runs c w = true ∧ decodeW w = .jr ra ∧
      wordBit (((s.dev.fetched c w).core c).rg ra) 0 = true ∧ (s.dev.fetched c w).canEnter c 5 = true) ∧
    (∃ (s : State) (c : Fin 4) (w : Word) (rd : Nat) (ra : Nat), s.dev.runs c w = true ∧ decodeW w = .callr rd ra ∧
      wordBit (((s.dev.fetched c w).core c).rg ra) 0 = true ∧ (s.dev.fetched c w).canEnter c 5 = true) ∧
    (∃ (s : State) (c : Fin 4) (w : Word) (l : Nat) (ra : Nat) (n : Nat), s.dev.runs c w = true ∧ decodeW w = .loop l ra n none ∧
      ((s.dev.fetched c w).core c).rg ra ≠ 0) ∧
    (∃ (s : State) (c : Fin 4) (w : Word) (l : Nat) (ra : Nat) (n : Nat), s.dev.runs c w = true ∧ decodeW w = .loop l ra n none ∧
      ((s.dev.fetched c w).core c).rg ra = 0) ∧
    (∃ (s : State) (c : Fin 4) (w : Word) (l : Nat) (ra : Nat) (n : Nat) (m : Nat), s.dev.runs c w = true ∧ decodeW w = .loop l ra n (some m) ∧
      m ≠ 0) ∧
    (∃ (s : State) (c : Fin 4) (w : Word) (l : Nat) (ra : Nat) (n : Nat) (m : Nat), s.dev.runs c w = true ∧ decodeW w = .loop l ra n (some m) ∧
      m = 0) :=
  ⟨⟨mkS fun d =>
      withWord 1 (0xffffe341) ((((d.setReg SUPPLY.DOM_STATUS_0 0xFFFFFFFF).setFld MEMCTL.SRAM_STATUS_READY 255).setFld (CORES.CORE_STATUS_STATE 1) 2).putCore 1 { pc := 0x100, g := [(4, 0x80000000), (5, 0x7FFFFFFF), (6, 33)] }), 1, 0xffffe341, 6, 0xFFFFFFFE, by decide +kernel⟩,
   ⟨mkS fun d =>
      withWord 1 (0xffffe0c1) ((((d.setReg SUPPLY.DOM_STATUS_0 0xFFFFFFFF).setFld MEMCTL.SRAM_STATUS_READY 255).setFld (CORES.CORE_STATUS_STATE 1) 2).putCore 1 { pc := 0x100, g := [(4, 0x80000000), (5, 0x7FFFFFFF), (6, 33)] }), 1, 0xffffe0c1, 1, 0xFFFFFFFE, by decide +kernel⟩,
   ⟨mkS fun d =>
      withWord 1 (0xffffff43) ((((d.setReg SUPPLY.DOM_STATUS_0 0xFFFFFFFF).setFld MEMCTL.SRAM_STATUS_READY 255).setFld (CORES.CORE_STATUS_STATE 1) 2).putCore 1 { pc := 0x100, g := [(4, 0x80000000), (5, 0x7FFFFFFF), (6, 33)] }), 1, 0xffffff43, 0xFFFFFFFE, by decide +kernel⟩,
   ⟨mkS fun d =>
      withWord 1 (0x445) ((((d.setReg SUPPLY.DOM_STATUS_0 0xFFFFFFFF).setFld MEMCTL.SRAM_STATUS_READY 255).setFld (CORES.CORE_STATUS_STATE 1) 2).putCore 1 { pc := 0x100, g := [(4, 0x80000000), (5, 0x7FFFFFFF), (6, 33)] }), 1, 0x445, 8, by decide +kernel⟩,
   ⟨mkS fun d =>
      withWord 1 (0x4047) ((((d.setReg SUPPLY.DOM_STATUS_0 0xFFFFFFFF).setFld MEMCTL.SRAM_STATUS_READY 255).setFld (CORES.CORE_STATUS_STATE 1) 2).putCore 1 { pc := 0x100, g := [(3, 0x11223344), (4, 0x200), (5, 0x8), (6, 0x80F1A2B3), (7, 0x99887766), (8, 0x201)] }), 1, 0x4047, 4, by decide +kernel⟩,
   ⟨mkS fun d =>
      withWord 1 (0x404247) ((((d.setReg SUPPLY.DOM_STATUS_0 0xFFFFFFFF).setFld MEMCTL.SRAM_STATUS_READY 255).setFld (CORES.CORE_STATUS_STATE 1) 2).putCore 1 { pc := 0x100, g := [(3, 0x11223344), (4, 0x200), (5, 0x8), (6, 0x80F1A2B3), (7, 0x99887766), (8, 0x201)] }), 1, 0x404247, 4, 4, by decide +kernel⟩,
   ⟨mkS fun d =>
      withWord 1 (0x8047) ((((d.setReg SUPPLY.DOM_STATUS_0 0xFFFFFFFF).setFld MEMCTL.SRAM_STATUS_READY 255).setFld (CORES.CORE_STATUS_STATE 1) 2).putCore 1 { pc := 0x100, g := [(3, 0x11223344), (4, 0x200), (5, 0x8), (6, 0x80F1A2B3), (7, 0x99887766), (8, 0x201)], status := 4, spKernel := 0x8000, sys := [(0x118, 0x8000)] }), 1, 0x8047, 8, by decide +kernel⟩,
   ⟨mkS fun d =>
      withWord 1 (0x408247) ((((d.setReg SUPPLY.DOM_STATUS_0 0xFFFFFFFF).setFld MEMCTL.SRAM_STATUS_READY 255).setFld (CORES.CORE_STATUS_STATE 1) 2).putCore 1 { pc := 0x100, g := [(3, 0x11223344), (4, 0x200), (5, 0x8), (6, 0x80F1A2B3), (7, 0x99887766), (8, 0x201)], status := 4, spKernel := 0x8000, sys := [(0x118, 0x8000)] }), 1, 0x408247, 4, 8, by decide +kernel⟩,
   ⟨mkS fun d =>
      withWord 1 (0x850c9) ((((d.setReg SUPPLY.DOM_STATUS_0 0xFFFFFFFF).setFld MEMCTL.SRAM_STATUS_READY 255).setFld (CORES.CORE_STATUS_STATE 1) 2).putCore 1 { pc := 0x100, g := [(3, 0x11223344), (4, 0x200), (5, 0x8), (6, 0x80F1A2B3), (7, 0x99887766), (8, 0x201)], lctrl := 5 }), 1, 0x850c9, 1, 5, 4, by decide +kernel⟩,
   ⟨mkS fun d =>
      withWord 1 (0x800c9) ((((d.setReg SUPPLY.DOM_STATUS_0 0xFFFFFFFF).setFld MEMCTL.SRAM_STATUS_READY 255).setFld (CORES.CORE_STATUS_STATE 1) 2).putCore 1 { pc := 0x100, g := [(3, 0x11223344), (4, 0x200), (5, 0x8), (6, 0x80F1A2B3), (7, 0x99887766), (8, 0x201)], lctrl := 5 }), 1, 0x800c9, 1, 0, 4, by decide +kernel⟩,
   ⟨mkS fun d =>
      withWord 1 (0x10071cb) ((((d.setReg SUPPLY.DOM_STATUS_0 0xFFFFFFFF).setFld MEMCTL.SRAM_STATUS_READY 255).setFld (CORES.CORE_STATUS_STATE 1) 2).putCore 1 { pc := 0x100, g := [(4, 0x80000000), (5, 0x7FFFFFFF), (6, 33)], lctrl := 5 }), 1, 0x10071cb, 3, 0, 4, 7, by decide +kernel⟩,
   ⟨mkS fun d =>
      withWord 1 (0x10001cb) ((((d.setReg SUPPLY.DOM_STATUS_0 0xFFFFFFFF).setFld MEMCTL.SRAM_STATUS_READY 255).setFld (CORES.CORE_STATUS_STATE 1) 2).putCore 1 { pc := 0x100, g := [(4, 0x80000000), (5, 0x7FFFFFFF), (6, 33)], lctrl := 5 }), 1, 0x10001cb, 3, 0, 4, 0, by decide +kernel⟩⟩

/-- The hypotheses of clauses 13 to 24 of CoreFlow are met. -/
theorem witness_CoreFlow_13 :
    (∃ (s : State) (c : Fin 4) (w : Word) (f : Bool) (rd : Nat) (ra : Nat) (rb : Nat), s.dev.runs c w = true ∧
      decodeW w = .alu .add f rd ra rb ∧ ((s.dev.fetched c w).core c).lctrl = 1 ∧
      Tab.get 0 0 ((s.dev.fetched c w).core c).lend = ((s.dev.fetched c w).core c).pc + BitVec.ofNat 32 (wordLen w) ∧
      Tab.get 0 0 ((s.dev.fetched c w).core c).lcount ≠ 1) ∧
    (∃ (s : State) (c : Fin 4) (w : Word) (f : Bool) (rd : Nat) (ra : Nat) (rb : Nat), s.dev.runs c w = true ∧
      decodeW w = .alu .add f rd ra rb ∧ ((s.dev.fetched c w).core c).lctrl = 1 ∧
      Tab.get 0 0 ((s.dev.fetched c w).core c).lend = ((s.dev.fetched c w).core c).pc + BitVec.ofNat 32 (wordLen w) ∧
      Tab.get 0 0 ((s.dev.fetched c w).core c).lcount = 1) ∧
    (∃ (s : State) (c : Fin 4) (w : Word) (f : Bool) (rd : Nat) (ra : Nat) (rb : Nat), s.dev.runs c w = true ∧
      decodeW w = .alu .add f rd ra rb ∧ ((s.dev.fetched c w).core c).lctrl = 3 ∧
      Tab.get 0 0 ((s.dev.fetched c w).core c).lend = ((s.dev.fetched c w).core c).pc + BitVec.ofNat 32 (wordLen w) ∧
      Tab.get 0 1 ((s.dev.fetched c w).core c).lend = ((s.dev.fetched c w).core c).pc + BitVec.ofNat 32 (wordLen w) ∧
      Tab.get 0 1 ((s.dev.fetched c w).core c).lcount = 1 ∧ Tab.get 0 0 ((s.dev.fetched c w).core c).lcount ≠ 1) ∧
    (∃ (s : State) (c : Fin 4) (w : Word) (rd : Nat) (sr : Nat), s.dev.runs c w = true ∧ decodeW w = .mfs rd sr) ∧
    (∃ (s : State) (c : Fin 4) (w : Word) (sr : Nat) (ra : Nat), s.dev.runs c w = true ∧ decodeW w = .mts sr ra ∧ sr = 0) ∧
    (∃ (s : State) (c : Fin 4) (w : Word) (sr : Nat) (ra : Nat), s.dev.runs c w = true ∧ decodeW w = .mts sr ra ∧ sr = 1) ∧
    (∃ (s : State) (c : Fin 4) (w : Word) (sr : Nat) (ra : Nat), s.dev.runs c w = true ∧ decodeW w = .mts sr ra ∧ (4 ≤ sr ∧ sr < 8)) ∧
    (∃ (s : State) (c : Fin 4) (w : Word) (sr : Nat) (ra : Nat), s.dev.runs c w = true ∧ decodeW w = .mts sr ra ∧ (8 ≤ sr ∧ sr < 12)) ∧
    (∃ (s : State) (c : Fin 4) (w : Word) (sr : Nat) (ra : Nat), s.dev.runs c w = true ∧ decodeW w = .mts sr ra ∧ 12 ≤ sr) ∧
    (∃ (s : State) (c : Fin 4) (w : Word), s.dev.runs c w = true ∧ decodeW w = .fence ∧ ((s.dev.fetched c w).core c).sb = []) ∧
    (∃ (s : State) (c : Fin 4) (w : Word), s.dev.runs c w = true ∧ decodeW w = .fence ∧ (s.dev.fetched c w).lockstep c = false ∧
      ((s.dev.fetched c w).core c).sb.length ≤ 8 ∧ ((s.dev.fetched c w).core c).sb.all ((s.dev.fetched c w).sbAccepts c) = true) ∧
    (∃ (s : State) (c : Fin 4) (w : Word), s.dev.runs c w = true ∧ decodeW w = .sync ∧ ((s.dev.fetched c w).core c).sb = []) :=
  ⟨⟨mkS fun d =>
      withWord 1 (0xa4183) ((((d.setReg SUPPLY.DOM_STATUS_0 0xFFFFFFFF).setFld MEMCTL.SRAM_STATUS_READY 255).setFld (CORES.CORE_STATUS_STATE 1) 2).putCore 1 { pc := 0x100, g := [(4, 0x80000000), (5, 0x7FFFFFFF), (6, 33)], lctrl := 1, lstart := [(0, 0x80), (1, 0x90)], lend := [(0, 0x104), (1, 0x104)], lcount := [(0, 3), (1, 1)] }), 1, 0xa4183, false, 3, 4, 5, by decide +kernel⟩,
   ⟨mkS fun d =>
      withWord 1 (0xa4183) ((((d.setReg SUPPLY.DOM_STATUS_0 0xFFFFFFFF).setFld MEMCTL.SRAM_STATUS_READY 255).setFld (CORES.CORE_STATUS_STATE 1) 2).putCore 1 { pc := 0x100, g := [(4, 0x80000000), (5, 0x7FFFFFFF), (6, 33)], lctrl := 1, lstart := [(0, 0x80), (1, 0x90)], lend := [(0, 0x104), (1, 0x104)], lcount := [(0, 1), (1, 1)] }), 1, 0xa4183, false, 3, 4, 5, by decide +kernel⟩,
   ⟨mkS fun d =>
      withWord 1 (0xa4183) ((((d.setReg SUPPLY.DOM_STATUS_0 0xFFFFFFFF).setFld MEMCTL.SRAM_STATUS_READY 255).setFld (CORES.CORE_STATUS_STATE 1) 2).putCore 1 { pc := 0x100, g := [(4, 0x80000000), (5, 0x7FFFFFFF), (6, 33)], lctrl := 3, lstart := [(0, 0x80), (1, 0x90)], lend := [(0, 0x104), (1, 0x104)], lcount := [(0, 2), (1, 1)] }), 1, 0xa4183, false, 3, 4, 5, by decide +kernel⟩,
   ⟨mkS fun d =>
      withWord 1 (0x1a01cd) ((((d.setReg SUPPLY.DOM_STATUS_0 0xFFFFFFFF).setFld MEMCTL.SRAM_STATUS_READY 255).setFld (CORES.CORE_STATUS_STATE 1) 2).putCore 1 { pc := 0x100, g := [(4, 0x80000000), (5, 0x7FFFFFFF), (6, 33)], lcount := [(1, 77)] }), 1, 0x1a01cd, 3, 13, by decide +kernel⟩,
   ⟨mkS fun d =>
      withWord 1 (0x40604d) ((((d.setReg SUPPLY.DOM_STATUS_0 0xFFFFFFFF).setFld MEMCTL.SRAM_STATUS_READY 255).setFld (CORES.CORE_STATUS_STATE 1) 2).putCore 1 { pc := 0x100, g := [(3, 0x11223344), (4, 0x200), (5, 0x8), (6, 0x80F1A2B3), (7, 0x99887766), (8, 0x201)], status := 4 }), 1, 0x40604d, 0, 6, by decide +kernel⟩,
   ⟨mkS fun d =>
      withWord 1 (0x42604d) ((((d.setReg SUPPLY.DOM_STATUS_0 0xFFFFFFFF).setFld MEMCTL.SRAM_STATUS_READY 255).setFld (CORES.CORE_STATUS_STATE 1) 2).putCore 1 { pc := 0x100, g := [(3, 0x11223344), (4, 0x200), (5, 0x8), (6, 0x80F1A2B3), (7, 0x99887766), (8, 0x201)] }), 1, 0x42604d, 1, 6, by decide +kernel⟩,
   ⟨mkS fun d =>
      withWord 1 (0x4a604d) ((((d.setReg SUPPLY.DOM_STATUS_0 0xFFFFFFFF).setFld MEMCTL.SRAM_STATUS_READY 255).setFld (CORES.CORE_STATUS_STATE 1) 2).putCore 1 { pc := 0x100, g := [(3, 0x11223344), (4, 0x200), (5, 0x8), (6, 0x80F1A2B3), (7, 0x99887766), (8, 0x201)] }), 1, 0x4a604d, 5, 6, by decide +kernel⟩,
   ⟨mkS fun d =>
      withWord 1 (0x52604d) ((((d.setReg SUPPLY.DOM_STATUS_0 0xFFFFFFFF).setFld MEMCTL.SRAM_STATUS_READY 255).setFld (CORES.CORE_STATUS_STATE 1) 2).putCore 1 { pc := 0x100, g := [(3, 0x11223344), (4, 0x200), (5, 0x8), (6, 0x80F1A2B3), (7, 0x99887766), (8, 0x201)] }), 1, 0x52604d, 9, 6, by decide +kernel⟩,
   ⟨mkS fun d =>
      withWord 1 (0x5a604d) ((((d.setReg SUPPLY.DOM_STATUS_0 0xFFFFFFFF).setFld MEMCTL.SRAM_STATUS_READY 255).setFld (CORES.CORE_STATUS_STATE 1) 2).putCore 1 { pc := 0x100, g := [(3, 0x11223344), (4, 0x200), (5, 0x8), (6, 0x80F1A2B3), (7, 0x99887766), (8, 0x201)] }), 1, 0x5a604d, 13, 6, by decide +kernel⟩,
   ⟨mkS fun d =>
      withWord 1 (0x4f) ((((d.setReg SUPPLY.DOM_STATUS_0 0xFFFFFFFF).setFld MEMCTL.SRAM_STATUS_READY 255).setFld (CORES.CORE_STATUS_STATE 1) 2).putCore 1 { pc := 0x100, g := [(4, 0x80000000), (5, 0x7FFFFFFF), (6, 33)] }), 1, 0x4f, by decide +kernel⟩,
   ⟨mkS fun d =>
      withWord 1 (0x4f) ((((d.setReg SUPPLY.DOM_STATUS_0 0xFFFFFFFF).setFld MEMCTL.SRAM_STATUS_READY 255).setFld (CORES.CORE_STATUS_STATE 1) 2).putCore 1 { pc := 0x100, g := [(4, 0x80000000), (5, 0x7FFFFFFF), (6, 33)], sb := [{ core := 0x300, addr := 0x08080300, mask := 0xF, data := 0x12345678, count := 0 }, { core := 0x300, addr := 0x08080300, mask := 0xF, data := 0x12345678, count := 0 }] }), 1, 0x4f, by decide +kernel⟩,
   ⟨mkS fun d =>
      withWord 1 (0x40004f) ((((d.setReg SUPPLY.DOM_STATUS_0 0xFFFFFFFF).setFld MEMCTL.SRAM_STATUS_READY 255).setFld (CORES.CORE_STATUS_STATE 1) 2).putCore 1 { pc := 0x100, g := [(4, 0x80000000), (5, 0x7FFFFFFF), (6, 33)] }), 1, 0x40004f, by decide +kernel⟩⟩

/-- The hypotheses of clauses 25, 26 of CoreFlow are met. -/
theorem witness_CoreFlow_25 :
    (∃ (s : State) (c : Fin 4) (w : Word), s.dev.runs c w = true ∧ decodeW w = .sync ∧ (s.dev.fetched c w).lockstep c = false ∧
      ((s.dev.fetched c w).core c).sb.length ≤ 8 ∧ ((s.dev.fetched c w).core c).sb.all ((s.dev.fetched c w).sbAccepts c) = true) ∧
    (∃ (s : State) (c : Fin 4) (w : Word) (ra : Nat), s.dev.runs c w = true ∧ decodeW w = .iflush ra ∧ ((s.dev.fetched c w).core c).sb = []) :=
  ⟨⟨mkS fun d =>
      withWord 1 (0x40004f) ((((d.setReg SUPPLY.DOM_STATUS_0 0xFFFFFFFF).setFld MEMCTL.SRAM_STATUS_READY 255).setFld (CORES.CORE_STATUS_STATE 1) 2).putCore 1 { pc := 0x100, g := [(4, 0x80000000), (5, 0x7FFFFFFF), (6, 33)], sb := [{ core := 0x300, addr := 0x08080300, mask := 0xF, data := 0x12345678, count := 0 }, { core := 0x300, addr := 0x08080300, mask := 0xF, data := 0x12345678, count := 0 }] }), 1, 0x40004f, by decide +kernel⟩,
   ⟨mkS fun d =>
      withWord 1 (0x80404f) ((((d.setReg SUPPLY.DOM_STATUS_0 0xFFFFFFFF).setFld MEMCTL.SRAM_STATUS_READY 255).setFld (CORES.CORE_STATUS_STATE 1) 2).putCore 1 { pc := 0x100, g := [(3, 0x11223344), (4, 0x200), (5, 0x8), (6, 0x80F1A2B3), (7, 0x99887766), (8, 0x201)], cache := [{ no := 8, bytes := [] }, { no := 9, bytes := [] }], lineBuf := [{ no := 8, bytes := [] }, { no := 9, bytes := [] }] }), 1, 0x80404f, 4, by decide +kernel⟩⟩

/-- The hypotheses of clauses 1 to 12 of CoreSystem are met. -/
theorem witness_CoreSystem_1 :
    (∃ (s : State) (c : Fin 4) (w : Word) (m : Nat), s.dev.runs c w = true ∧ decodeW w = .syscall m ∧ (s.dev.fetched c w).canEnter c 12 = true) ∧
    (∃ (s : State) (c : Fin 4) (w : Word) (m : Nat), s.dev.runs c w = true ∧ decodeW w = .brk m ∧ (s.dev.fetched c w).canEnter c 13 = true) ∧
    (∃ (s : State) (c : Fin 4) (w : Word), s.dev.runs c w = true ∧ decodeW w = .undef ∧ (s.dev.fetched c w).canEnter c 2 = true) ∧
    (∃ (s : State) (c : Fin 4) (w : Word), s.dev.runs c w = true ∧ decodeW w = .rete ∧ ((s.dev.fetched c w).core c).pl = 0 ∧
      (s.dev.fetched c w).canEnter c 3 = true) ∧
    (∃ (s : State) (c : Fin 4) (w : Word), s.dev.runs c w = true ∧ decodeW w = .sleep ∧ ((s.dev.fetched c w).core c).pl = 0 ∧
      (s.dev.fetched c w).canEnter c 3 = true) ∧
    (∃ (s : State) (c : Fin 4) (w : Word) (m : Nat), s.dev.runs c w = true ∧ decodeW w = .atomb m ∧ ((s.dev.fetched c w).core c).pl = 0 ∧
      (s.dev.fetched c w).canEnter c 3 = true) ∧
    (∃ (s : State) (c : Fin 4) (w : Word), s.dev.runs c w = true ∧ decodeW w = .atome ∧ ((s.dev.fetched c w).core c).pl = 0 ∧
      (s.dev.fetched c w).canEnter c 3 = true) ∧
    (∃ (s : State) (c : Fin 4) (w : Word), s.dev.runs c w = true ∧ decodeW w = .part ∧ (s.dev.fetched c w).lockstep c = false ∧
      (s.dev.fetched c w).canEnter c 2 = true) ∧
    (∃ (s : State) (c : Fin 4) (w : Word), s.dev.runs c w = true ∧ decodeW w = .join ∧ (s.dev.fetched c w).lockstep c = true ∧
      (s.dev.fetched c w).canEnter c 2 = true) ∧
    (∃ (s : State) (c : Fin 4) (w : Word), s.dev.runs c w = true ∧ decodeW w = .part ∧ (s.dev.fetched c w).lockstep c = true ∧
      ((s.dev.fetched c w).core c).pl ≠ 0) ∧
    (∃ (s : State) (c : Fin 4) (w : Word), s.dev.runs c w = true ∧ decodeW w = .join ∧ (s.dev.fetched c w).lockstep c = false ∧
      ((s.dev.fetched c w).core c).pl ≠ 0) ∧
    (∃ (s : State) (c : Fin 4) (w : Word), s.dev.runs c w = true ∧ decodeW w = .sleep ∧ ((s.dev.fetched c w).core c).pl ≠ 0) :=
  ⟨⟨mkS fun d =>
      withWord 1 (0xd5504f) ((((d.setReg SUPPLY.DOM_STATUS_0 0xFFFFFFFF).setFld MEMCTL.SRAM_STATUS_READY 255).setFld (CORES.CORE_STATUS_STATE 1) 2).putCore 1 { pc := 0x100, g := [(3, 0x11223344), (4, 0x200), (5, 0x8), (6, 0x80F1A2B3), (7, 0x99887766), (8, 0x201)], status := 4, spKernel := 0x8000, sys := [(0x118, 0x8000)] }), 1, 0xd5504f, 0x155, by decide +kernel⟩,
   ⟨mkS fun d =>
      withWord 1 (0x115504f) ((((d.setReg SUPPLY.DOM_STATUS_0 0xFFFFFFFF).setFld MEMCTL.SRAM_STATUS_READY 255).setFld (CORES.CORE_STATUS_STATE 1) 2).putCore 1 { pc := 0x100, g := [(3, 0x11223344), (4, 0x200), (5, 0x8), (6, 0x80F1A2B3), (7, 0x99887766), (8, 0x201)], status := 4, spKernel := 0x8000, sys := [(0x118, 0x8000)] }), 1, 0x115504f, 0x155, by decide +kernel⟩,
   ⟨mkS fun d =>
      withWord 1 (0xfc0004f) ((((d.setReg SUPPLY.DOM_STATUS_0 0xFFFFFFFF).setFld MEMCTL.SRAM_STATUS_READY 255).setFld (CORES.CORE_STATUS_STATE 1) 2).putCore 1 { pc := 0x100, g := [(3, 0x11223344), (4, 0x200), (5, 0x8), (6, 0x80F1A2B3), (7, 0x99887766), (8, 0x201)], status := 4, spKernel := 0x8000, sys := [(0x118, 0x8000)] }), 1, 0xfc0004f, by decide +kernel⟩,
   ⟨mkS fun d =>
      withWord 1 (0x140004f) ((((d.setReg SUPPLY.DOM_STATUS_0 0xFFFFFFFF).setFld MEMCTL.SRAM_STATUS_READY 255).setFld (CORES.CORE_STATUS_STATE 1) 2).putCore 1 { pc := 0x100, g := [(3, 0x11223344), (4, 0x200), (5, 0x8), (6, 0x80F1A2B3), (7, 0x99887766), (8, 0x201)], status := 4, spKernel := 0x8000, sys := [(0x118, 0x8000)] }), 1, 0x140004f, by decide +kernel⟩,
   ⟨mkS fun d =>
      withWord 1 (0x180004f) ((((d.setReg SUPPLY.DOM_STATUS_0 0xFFFFFFFF).setFld MEMCTL.SRAM_STATUS_READY 255).setFld (CORES.CORE_STATUS_STATE 1) 2).putCore 1 { pc := 0x100, g := [(3, 0x11223344), (4, 0x200), (5, 0x8), (6, 0x80F1A2B3), (7, 0x99887766), (8, 0x201)], status := 4, spKernel := 0x8000, sys := [(0x118, 0x8000)] }), 1, 0x180004f, by decide +kernel⟩,
   ⟨mkS fun d =>
      withWord 1 (0x240004f) ((((d.setReg SUPPLY.DOM_STATUS_0 0xFFFFFFFF).setFld MEMCTL.SRAM_STATUS_READY 255).setFld (CORES.CORE_STATUS_STATE 1) 2).putCore 1 { pc := 0x100, g := [(3, 0x11223344), (4, 0x200), (5, 0x8), (6, 0x80F1A2B3), (7, 0x99887766), (8, 0x201)], status := 4, spKernel := 0x8000, sys := [(0x118, 0x8000)] }), 1, 0x240004f, 0, by decide +kernel⟩,
   ⟨mkS fun d =>
      withWord 1 (0x280004f) ((((d.setReg SUPPLY.DOM_STATUS_0 0xFFFFFFFF).setFld MEMCTL.SRAM_STATUS_READY 255).setFld (CORES.CORE_STATUS_STATE 1) 2).putCore 1 { pc := 0x100, g := [(3, 0x11223344), (4, 0x200), (5, 0x8), (6, 0x80F1A2B3), (7, 0x99887766), (8, 0x201)], status := 4, spKernel := 0x8000, sys := [(0x118, 0x8000)] }), 1, 0x280004f, by decide +kernel⟩,
   ⟨mkS fun d =>
      withWord 1 (0x1c0004f) ((((d.setReg SUPPLY.DOM_STATUS_0 0xFFFFFFFF).setFld MEMCTL.SRAM_STATUS_READY 255).setFld (CORES.CORE_STATUS_STATE 1) 2).putCore 1 { pc := 0x100, g := [(3, 0x11223344), (4, 0x200), (5, 0x8), (6, 0x80F1A2B3), (7, 0x99887766), (8, 0x201)], status := 5, spKernel := 0x8000, sys := [(0x118, 0x8000)] }), 1, 0x1c0004f, by decide +kernel⟩,
   ⟨mkS fun d =>
      withWord 1 (0x200004f) ((((((d.setFld (CORES.CORE_STATUS_LOCKSTEP 1) 1).setFld (CORES.CORE_STATUS_LOCKSTEP 0) 1).setReg SUPPLY.DOM_STATUS_0 0xFFFFFFFF).setFld MEMCTL.SRAM_STATUS_READY 255).setFld (CORES.CORE_STATUS_STATE 1) 2).putCore 1 { pc := 0x100, g := [(3, 0x11223344), (4, 0x200), (5, 0x8), (6, 0x80F1A2B3), (7, 0x99887766), (8, 0x201)], status := 5, spKernel := 0x8000, sys := [(0x118, 0x8000)] }), 1, 0x200004f, by decide +kernel⟩,
   ⟨mkS fun d =>
      withWord 1 (0x1c0004f) ((((((d.setFld (CORES.CORE_STATUS_LOCKSTEP 1) 1).setFld (CORES.CORE_STATUS_LOCKSTEP 0) 1).setReg SUPPLY.DOM_STATUS_0 0xFFFFFFFF).setFld MEMCTL.SRAM_STATUS_READY 255).setFld (CORES.CORE_STATUS_STATE 1) 2).putCore 1 { pc := 0x100, g := [(3, 0x11223344), (4, 0x200), (5, 0x8), (6, 0x80F1A2B3), (7, 0x99887766), (8, 0x201)] }), 1, 0x1c0004f, by decide +kernel⟩,
   ⟨mkS fun d =>
      withWord 1 (0x200004f) ((((d.setReg SUPPLY.DOM_STATUS_0 0xFFFFFFFF).setFld MEMCTL.SRAM_STATUS_READY 255).setFld (CORES.CORE_STATUS_STATE 1) 2).putCore 1 { pc := 0x100, g := [(3, 0x11223344), (4, 0x200), (5, 0x8), (6, 0x80F1A2B3), (7, 0x99887766), (8, 0x201)] }), 1, 0x200004f, by decide +kernel⟩,
   ⟨mkS fun d =>
      withWord 1 (0x180004f) ((((d.setReg SUPPLY.DOM_STATUS_0 0xFFFFFFFF).setFld MEMCTL.SRAM_STATUS_READY 255).setFld (CORES.CORE_STATUS_STATE 1) 2).putCore 1 { pc := 0x100, g := [(3, 0x11223344), (4, 0x200), (5, 0x8), (6, 0x80F1A2B3), (7, 0x99887766), (8, 0x201)] }), 1, 0x180004f, by decide +kernel⟩⟩

/-- The hypotheses of clauses 13 to 24 of CoreSystem are met. -/
theorem witness_CoreSystem_13 :
    (∃ (s : State) (c : Fin 4) (w : Word) (m : Nat), s.dev.runs c w = true ∧ decodeW w = .atomb m ∧ ((s.dev.fetched c w).core c).pl ≠ 0 ∧
      ((s.dev.fetched c w).core c).atom = none) ∧
    (∃ (s : State) (c : Fin 4) (w : Word) (m : Nat), s.dev.runs c w = true ∧ decodeW w = .atomb m ∧ ((s.dev.fetched c w).core c).pl ≠ 0 ∧
      ((s.dev.fetched c w).core c).atom ≠ none) ∧
    (∃ (s : State) (c : Fin 4) (w : Word), s.dev.runs c w = true ∧ decodeW w = .atome ∧ ((s.dev.fetched c w).core c).pl ≠ 0) ∧
    (∃ (s : State) (c : Fin 4) (w : Word) (k : Nat) (r : Nat) (t : List (Nat × Nat)) (p : Nat), s.dev.runs c w = true ∧ decodeW w = .rete ∧
      ((s.dev.fetched c w).core c).pl = 1 ∧ ((s.dev.fetched c w).core c).entries = (k, r) :: t ∧
      ((s.dev.fetched c w).core c).frameValid (((s.dev.fetched c w).core c).rg 30 + 32) = true ∧
      frameAddr c (((s.dev.fetched c w).core c).rg 30) = p ∧ (s.dev.fetched c w).ecc = [] ∧ ((s.dev.fetched c w).core c).sb = [] ∧
      (s.dev.fetched c w).lockstep c = false ∧ (s.dev.fetched c w).memMapped p 32 = true ∧ p < 0x10000000 ∧
      (s.dev.fetched c w).le p 4 % 2 = 0 ∧ ((s.dev.fetched c w).le (p + 4) 4) % 4 ≤ k ∧
      ((s.dev.fetched c w).core c).bestLine r (wordBit (BitVec.ofNat 32 ((s.dev.fetched c w).le (p + 4) 4)) 2) true = none ∧
      (s.dev.fetched c w).le (p + 8) 4 % 128 < 16) ∧
    (∃ (s : State) (c : Fin 4) (w : Word), s.dev.runs c w = true ∧ decodeW w = .rete ∧ ((s.dev.fetched c w).core c).pl = 1 ∧
      ((s.dev.fetched c w).core c).entries = [] ∧ (s.dev.fetched c w).canEnter c 4 = true) ∧
    (∃ (s : State) (c : Fin 4) (w : Word), s.dev.runs c w = true ∧ decodeW w = .rete ∧ ((s.dev.fetched c w).core c).pl = 1 ∧
      ((s.dev.fetched c w).core c).entries ≠ [] ∧ ((s.dev.fetched c w).core c).frameValid (((s.dev.fetched c w).core c).rg 30 + 32) = false ∧
      (s.dev.fetched c w).canEnter c 4 = true) ∧
    (∃ (s : State) (c : Fin 4) (w : Word) (k : Nat) (r : Nat) (t : List (Nat × Nat)) (p : Nat), s.dev.runs c w = true ∧ decodeW w = .rete ∧
      ((s.dev.fetched c w).core c).pl = 1 ∧ ((s.dev.fetched c w).core c).entries = (k, r) :: t ∧
      ((s.dev.fetched c w).core c).frameValid (((s.dev.fetched c w).core c).rg 30 + 32) = true ∧
      frameAddr c (((s.dev.fetched c w).core c).rg 30) = p ∧ (s.dev.fetched c w).ecc = [] ∧ ((s.dev.fetched c w).core c).sb = [] ∧
      (s.dev.fetched c w).lockstep c = false ∧ (s.dev.fetched c w).memMapped p 32 = true ∧ p < 0x10000000 ∧
      (s.dev.fetched c w).le p 4 % 2 = 0 ∧ k < ((s.dev.fetched c w).le (p + 4) 4) % 4 ∧ (s.dev.fetched c w).canEnter c 4 = true) ∧
    (∃ (s : State) (c : Fin 4) (w : Word) (m : Nat), s.dev.runs c w = true ∧ decodeW w = .brk m ∧ ((s.dev.fetched c w).core c).pl < 2 ∧
      ((s.dev.fetched c w).core c).runPri = 0x10 ∧ ((s.dev.fetched c w).core c).sb.length ≤ 4) ∧
    (∃ (s : State) (c : Fin 4) (w : Word) (m : Nat), s.dev.runs c w = true ∧ decodeW w = .brk m ∧ ((s.dev.fetched c w).core c).pl < 2 ∧
      ((s.dev.fetched c w).core c).runPri ≠ 0x10 ∧ ((s.dev.fetched c w).core c).frameValid ((s.dev.fetched c w).core c).spKernel = false ∧
      ((s.dev.fetched c w).core c).sb.length ≤ 4) ∧
    (∃ (s : State) (c : Fin 4) (w : Word) (m : Nat), s.dev.runs c w = true ∧ decodeW w = .brk m ∧ ((s.dev.fetched c w).core c).pl < 2 ∧
      ((s.dev.fetched c w).core c).runPri ≠ 0x10 ∧ ((s.dev.fetched c w).core c).frameValid ((s.dev.fetched c w).core c).spKernel = true ∧
      32 ≤ ((s.dev.fetched c w).core c).entries.length ∧ ((s.dev.fetched c w).core c).sb.length ≤ 4) ∧
    (∃ (s : State) (c : Fin 4) (w : Word) (m : Nat), s.dev.runs c w = true ∧ decodeW w = .brk m ∧ ((s.dev.fetched c w).core c).pl = 2 ∧
      s.dev.groups.length < 1000) ∧
    (∃ (s : State) (c : Fin 4) (w : Word) (rd ra rb : Nat), s.dev.begun.canIssue c = true ∧
      (match s.dev.begun.fetchWord c w with | some (none, _) => true | _ => false) = true ∧ s.dev.overdue c = false ∧
      decodeW w = .alu .add false rd ra rb ∧ (s.dev.fetched c w).lockstep c = false ∧
      wordBit (((s.dev.fetched c w).core c).s CORE.STEP_CTRL) 0 = true ∧ ((s.dev.fetched c w).core c).pl = 0 ∧
      (((s.dev.fetched c w).core c).escDue, ((s.dev.fetched c w).core c).trapDue, ((s.dev.fetched c w).core c).busErr, ((s.dev.fetched c w).core c).sillHeld, ((s.dev.fetched c w).core c).haltReq) = (none, none, [], false, false) ∧
      (s.dev.fetched c w).canEnter c 14 = true) :=
  ⟨⟨mkS fun d =>
      withWord 1 (0x27ff04f) ((((d.setReg SUPPLY.DOM_STATUS_0 0xFFFFFFFF).setFld MEMCTL.SRAM_STATUS_READY 255).setFld (CORES.CORE_STATUS_STATE 1) 2).putCore 1 { pc := 0x100, g := [(3, 0x11223344), (4, 0x200), (5, 0x8), (6, 0x80F1A2B3), (7, 0x99887766), (8, 0x201)] }), 1, 0x27ff04f, 1023, by decide +kernel⟩,
   ⟨mkS fun d =>
      withWord 1 (0x27ff04f) ((((d.setReg SUPPLY.DOM_STATUS_0 0xFFFFFFFF).setFld MEMCTL.SRAM_STATUS_READY 255).setFld (CORES.CORE_STATUS_STATE 1) 2).putCore 1 { pc := 0x100, g := [(3, 0x11223344), (4, 0x200), (5, 0x8), (6, 0x80F1A2B3), (7, 0x99887766), (8, 0x201)], atom := some 7000 }), 1, 0x27ff04f, 1023, by decide +kernel⟩,
   ⟨mkS fun d =>
      withWord 1 (0x280004f) ((((d.setReg SUPPLY.DOM_STATUS_0 0xFFFFFFFF).setFld MEMCTL.SRAM_STATUS_READY 255).setFld (CORES.CORE_STATUS_STATE 1) 2).putCore 1 { pc := 0x100, g := [(3, 0x11223344), (4, 0x200), (5, 0x8), (6, 0x80F1A2B3), (7, 0x99887766), (8, 0x201)], atom := some 7000 }), 1, 0x280004f, by decide +kernel⟩,
   ⟨mkS fun d =>
      withWord 1 (0x140004f) (((({ d with mem := [(0x08080200, 0x40), (0x08080204, 0x04), (0x08080208, 12), (0x08080210, 1), (0x08080214, 2), (0x08080218, 3), (0x0808021C, 4)] }.setReg SUPPLY.DOM_STATUS_0 0xFFFFFFFF).setFld MEMCTL.SRAM_STATUS_READY 255).setFld (CORES.CORE_STATUS_STATE 1) 2).putCore 1 { pc := 0x100, g := [(3, 0x11223344), (4, 0x200), (5, 0x8), (6, 0x80F1A2B3), (7, 0x99887766), (8, 0x201)], status := 5, spKernel := 0x200, entries := [(0, 31)], sys := [(0x10C, 0x10), (0x118, 0x8000)] }), 1, 0x140004f, 0, 31, [], 0x08080200, by decide +kernel⟩,
   ⟨mkS fun d =>
      withWord 1 (0x140004f) (((({ d with mem := [(0x08080200, 0x40), (0x08080204, 0x04), (0x08080208, 12), (0x08080210, 1), (0x08080214, 2), (0x08080218, 3), (0x0808021C, 4)] }.setReg SUPPLY.DOM_STATUS_0 0xFFFFFFFF).setFld MEMCTL.SRAM_STATUS_READY 255).setFld (CORES.CORE_STATUS_STATE 1) 2).putCore 1 { pc := 0x100, g := [(3, 0x11223344), (4, 0x200), (5, 0x8), (6, 0x80F1A2B3), (7, 0x99887766), (8, 0x201)], status := 5, spKernel := 0x7000, sys := [(0x118, 0x8000)] }), 1, 0x140004f, by decide +kernel⟩,
   ⟨mkS fun d =>
      withWord 1 (0x140004f) (((({ d with mem := [(0x08080200, 0x40), (0x08080204, 0x04), (0x08080208, 12), (0x08080210, 1), (0x08080214, 2), (0x08080218, 3), (0x0808021C, 4)] }.setReg SUPPLY.DOM_STATUS_0 0xFFFFFFFF).setFld MEMCTL.SRAM_STATUS_READY 255).setFld (CORES.CORE_STATUS_STATE 1) 2).putCore 1 { pc := 0x100, g := [(3, 0x11223344), (4, 0x200), (5, 0x8), (6, 0x80F1A2B3), (7, 0x99887766), (8, 0x201)], status := 5, spKernel := 0x8000, entries := [(0, 31)], sys := [(0x118, 0x8000)] }), 1, 0x140004f, by decide +kernel⟩,
   ⟨mkS fun d =>
      withWord 1 (0x140004f) (((({ d with mem := [(0x08080200, 0x40), (0x08080204, 0x05), (0x08080208, 12), (0x08080210, 1), (0x08080214, 2), (0x08080218, 3), (0x0808021C, 4)] }.setReg SUPPLY.DOM_STATUS_0 0xFFFFFFFF).setFld MEMCTL.SRAM_STATUS_READY 255).setFld (CORES.CORE_STATUS_STATE 1) 2).putCore 1 { pc := 0x100, g := [(3, 0x11223344), (4, 0x200), (5, 0x8), (6, 0x80F1A2B3), (7, 0x99887766), (8, 0x201)], status := 5, spKernel := 0x200, entries := [(0, 31)], sys := [(0x118, 0x8000)] }), 1, 0x140004f, 0, 31, [], 0x08080200, by decide +kernel⟩,
   ⟨mkS fun d =>
      withWord 1 (0x100904f) ((((d.setReg SUPPLY.DOM_STATUS_0 0xFFFFFFFF).setFld MEMCTL.SRAM_STATUS_READY 255).setFld (CORES.CORE_STATUS_STATE 1) 2).putCore 1 { pc := 0x100, g := [(3, 0x11223344), (4, 0x200), (5, 0x8), (6, 0x80F1A2B3), (7, 0x99887766), (8, 0x201)], status := 5, sys := [(0x10C, 0x10)] }), 1, 0x100904f, 9, by decide +kernel⟩,
   ⟨mkS fun d =>
      withWord 1 (0x100904f) ((((d.setReg SUPPLY.DOM_STATUS_0 0xFFFFFFFF).setFld MEMCTL.SRAM_STATUS_READY 255).setFld (CORES.CORE_STATUS_STATE 1) 2).putCore 1 { pc := 0x100, g := [(3, 0x11223344), (4, 0x200), (5, 0x8), (6, 0x80F1A2B3), (7, 0x99887766), (8, 0x201)], status := 5, spKernel := 0x8004 }), 1, 0x100904f, 9, by decide +kernel⟩,
   ⟨mkS fun d =>
      withWord 1 (0x100904f) ((((d.setReg SUPPLY.DOM_STATUS_0 0xFFFFFFFF).setFld MEMCTL.SRAM_STATUS_READY 255).setFld (CORES.CORE_STATUS_STATE 1) 2).putCore 1 { pc := 0x100, g := [(3, 0x11223344), (4, 0x200), (5, 0x8), (6, 0x80F1A2B3), (7, 0x99887766), (8, 0x201)], status := 5, spKernel := 0x8000, sys := [(0x118, 0x8000)], entries := List.replicate 32 (1, 31) }), 1, 0x100904f, 9, by decide +kernel⟩,
   ⟨mkS fun d =>
      withWord 1 (0x100904f) ((((d.setReg SUPPLY.DOM_STATUS_0 0xFFFFFFFF).setFld MEMCTL.SRAM_STATUS_READY 255).setFld (CORES.CORE_STATUS_STATE 1) 2).putCore 1 { pc := 0x100, g := [(3, 0x11223344), (4, 0x200), (5, 0x8), (6, 0x80F1A2B3), (7, 0x99887766), (8, 0x201)], status := 2 }), 1, 0x100904f, 9, by decide +kernel⟩,
   ⟨mkS fun d =>
      withWord 1 (0xa4183) ((((d.setReg SUPPLY.DOM_STATUS_0 0xFFFFFFFF).setFld MEMCTL.SRAM_STATUS_READY 255).setFld (CORES.CORE_STATUS_STATE 1) 2).putCore 1 { pc := 0x100, g := [(4, 0x80000000), (5, 0x7FFFFFFF), (6, 33)], status := 4, spKernel := 0x8000, sys := [(0x118, 0x8000), (0x120, 1)] }), 1, 0xa4183, 3, 4, 5, by decide +kernel⟩⟩

/-- The hypotheses of clauses 25, 26 of CoreSystem are met. -/
theorem witness_CoreSystem_25 :
    (∃ (s : State) (c : Fin 4) (w : Word) (f : Bool) (rd ra rb : Nat), decodeW w = .alu .add f rd ra rb ∧ s.dev.begun.canIssue c = false) ∧
    (∃ (s : State) (c : Fin 4) (w : Word) (f : Bool) (rd ra rb : Nat), decodeW w = .alu .add f rd ra rb ∧ s.dev.begun.canIssue c = true ∧
      fetchable (s.dev.core c).pc = false ∧ s.dev.begun.canEnter c 6 = true) :=
  ⟨⟨mkS fun d => d, 1, 0xa4183, false, 3, 4, 5, by decide +kernel⟩,
   ⟨mkS fun d =>
      (((d.setReg SUPPLY.DOM_STATUS_0 0xFFFFFFFF).setFld MEMCTL.SRAM_STATUS_READY 255).setFld (CORES.CORE_STATUS_STATE 1) 2).putCore 1 { pc := 0x40000000, g := [(4, 0x80000000), (5, 0x7FFFFFFF), (6, 33)], status := 5, spKernel := 0x8000, sys := [(0x118, 0x8000)] }, 1, 0xa4183, false, 3, 4, 5, by decide +kernel⟩⟩

/-- The hypotheses of clauses 1 to 10 of CoreFloat are met. -/
theorem witness_CoreFloat_1 :
    (∃ (s : State) (c : Fin 4) (w : Word) (dbl : Bool) (rm : Nat) (fd : Nat) (fa : Nat) (fb : Nat), s.dev.runs c w = true ∧
      decodeW w = .fp .add dbl rm fd fa fb ∧
      ((fmtOf dbl).add (if rm = 7 then ((s.dev.fetched c w).core c).fcsr.toNat / 32 % 8 else rm) ((fmtOf dbl).unpack (((s.dev.fetched c w).core c).fop dbl fa)) ((fmtOf dbl).unpack (((s.dev.fetched c w).core c).fop dbl fb))).flags &&& (((s.dev.fetched c w).core c).fcsr.toNat / 256 % 32) = 0) ∧
    (∃ (s : State) (c : Fin 4) (w : Word) (dbl : Bool) (rm : Nat) (fd : Nat) (fa : Nat) (fb : Nat), s.dev.runs c w = true ∧
      decodeW w = .fp .add dbl rm fd fa fb ∧
      ((fmtOf dbl).add (if rm = 7 then ((s.dev.fetched c w).core c).fcsr.toNat / 32 % 8 else rm) ((fmtOf dbl).unpack (((s.dev.fetched c w).core c).fop dbl fa)) ((fmtOf dbl).unpack (((s.dev.fetched c w).core c).fop dbl fb))).flags &&& (((s.dev.fetched c w).core c).fcsr.toNat / 256 % 32) ≠ 0 ∧
      (s.dev.fetched c w).canEnter c 10 = true) ∧
    (∃ (s : State) (c : Fin 4) (w : Word) (dbl : Bool) (rm : Nat) (fd : Nat) (fa : Nat) (fb : Nat), s.dev.runs c w = true ∧
      decodeW w = .fp .sub dbl rm fd fa fb ∧
      ((fmtOf dbl).add (if rm = 7 then ((s.dev.fetched c w).core c).fcsr.toNat / 32 % 8 else rm) ((fmtOf dbl).unpack (((s.dev.fetched c w).core c).fop dbl fa)) (((fmtOf dbl).unpack (((s.dev.fetched c w).core c).fop dbl fb)).negIf true)).flags &&& (((s.dev.fetched c w).core c).fcsr.toNat / 256 % 32) = 0) ∧
    (∃ (s : State) (c : Fin 4) (w : Word) (dbl : Bool) (rm : Nat) (fd : Nat) (fa : Nat) (fb : Nat), s.dev.runs c w = true ∧
      decodeW w = .fp .sub dbl rm fd fa fb ∧
      ((fmtOf dbl).add (if rm = 7 then ((s.dev.fetched c w).core c).fcsr.toNat / 32 % 8 else rm) ((fmtOf dbl).unpack (((s.dev.fetched c w).core c).fop dbl fa)) (((fmtOf dbl).unpack (((s.dev.fetched c w).core c).fop dbl fb)).negIf true)).flags &&& (((s.dev.fetched c w).core c).fcsr.toNat / 256 % 32) ≠ 0 ∧
      (s.dev.fetched c w).canEnter c 10 = true) ∧
    (∃ (s : State) (c : Fin 4) (w : Word) (dbl : Bool) (rm : Nat) (fd : Nat) (fa : Nat) (fb : Nat), s.dev.runs c w = true ∧
      decodeW w = .fp .mul dbl rm fd fa fb ∧
      ((fmtOf dbl).mul (if rm = 7 then ((s.dev.fetched c w).core c).fcsr.toNat / 32 % 8 else rm) ((fmtOf dbl).unpack (((s.dev.fetched c w).core c).fop dbl fa)) ((fmtOf dbl).unpack (((s.dev.fetched c w).core c).fop dbl fb))).flags &&& (((s.dev.fetched c w).core c).fcsr.toNat / 256 % 32) = 0) ∧
    (∃ (s : State) (c : Fin 4) (w : Word) (dbl : Bool) (rm : Nat) (fd : Nat) (fa : Nat) (fb : Nat), s.dev.runs c w = true ∧
      decodeW w = .fp .mul dbl rm fd fa fb ∧
      ((fmtOf dbl).mul (if rm = 7 then ((s.dev.fetched c w).core c).fcsr.toNat / 32 % 8 else rm) ((fmtOf dbl).unpack (((s.dev.fetched c w).core c).fop dbl fa)) ((fmtOf dbl).unpack (((s.dev.fetched c w).core c).fop dbl fb))).flags &&& (((s.dev.fetched c w).core c).fcsr.toNat / 256 % 32) ≠ 0 ∧
      (s.dev.fetched c w).canEnter c 10 = true) ∧
    (∃ (s : State) (c : Fin 4) (w : Word) (dbl : Bool) (rm : Nat) (fd : Nat) (fa : Nat) (fb : Nat), s.dev.runs c w = true ∧
      decodeW w = .fp .div dbl rm fd fa fb ∧
      ((fmtOf dbl).div (if rm = 7 then ((s.dev.fetched c w).core c).fcsr.toNat / 32 % 8 else rm) ((fmtOf dbl).unpack (((s.dev.fetched c w).core c).fop dbl fa)) ((fmtOf dbl).unpack (((s.dev.fetched c w).core c).fop dbl fb))).flags &&& (((s.dev.fetched c w).core c).fcsr.toNat / 256 % 32) = 0) ∧
    (∃ (s : State) (c : Fin 4) (w : Word) (dbl : Bool) (rm : Nat) (fd : Nat) (fa : Nat) (fb : Nat), s.dev.runs c w = true ∧
      decodeW w = .fp .div dbl rm fd fa fb ∧
      ((fmtOf dbl).div (if rm = 7 then ((s.dev.fetched c w).core c).fcsr.toNat / 32 % 8 else rm) ((fmtOf dbl).unpack (((s.dev.fetched c w).core c).fop dbl fa)) ((fmtOf dbl).unpack (((s.dev.fetched c w).core c).fop dbl fb))).flags &&& (((s.dev.fetched c w).core c).fcsr.toNat / 256 % 32) ≠ 0 ∧
      (s.dev.fetched c w).canEnter c 10 = true) ∧
    (∃ (s : State) (c : Fin 4) (w : Word) (dbl : Bool) (rm : Nat) (fd : Nat) (fa : Nat), s.dev.runs c w = true ∧
      decodeW w = .fsqrt dbl rm fd fa ∧
      ((fmtOf dbl).sqrt (if rm = 7 then ((s.dev.fetched c w).core c).fcsr.toNat / 32 % 8 else rm) ((fmtOf dbl).unpack (((s.dev.fetched c w).core c).fop dbl fa))).flags &&& (((s.dev.fetched c w).core c).fcsr.toNat / 256 % 32) = 0) ∧
    (∃ (s : State) (c : Fin 4) (w : Word) (dbl : Bool) (rm : Nat) (fd : Nat) (fa : Nat), s.dev.runs c w = true ∧
      decodeW w = .fsqrt dbl rm fd fa ∧
      ((fmtOf dbl).sqrt (if rm = 7 then ((s.dev.fetched c w).core c).fcsr.toNat / 32 % 8 else rm) ((fmtOf dbl).unpack (((s.dev.fetched c w).core c).fop dbl fa))).flags &&& (((s.dev.fetched c w).core c).fcsr.toNat / 256 % 32) ≠ 0 ∧
      (s.dev.fetched c w).canEnter c 10 = true) :=
  ⟨⟨mkS fun d =>
      withWord 1 (0xa41e1) ((((d.setReg SUPPLY.DOM_STATUS_0 0xFFFFFFFF).setFld MEMCTL.SRAM_STATUS_READY 255).setFld (CORES.CORE_STATUS_STATE 1) 2).putCore 1 { pc := 0x100, g := [(4, 0x80000000), (5, 0x7FFFFFFF), (6, 33)], f := [(4, 0xFFFFFFFF40490FDB), (5, 0xFFFFFFFF7F7FFFFF), (6, 0xFFFFFFFF00000001), (7, 0x3FF123456789ABCD), (8, 0x7FF0000000000001)] }), 1, 0xa41e1, false, 0, 3, 4, 5, by decide +kernel⟩,
   ⟨mkS fun d =>
      withWord 1 (0xa41e1) ((((d.setReg SUPPLY.DOM_STATUS_0 0xFFFFFFFF).setFld MEMCTL.SRAM_STATUS_READY 255).setFld (CORES.CORE_STATUS_STATE 1) 2).putCore 1 { pc := 0x100, g := [(4, 0x80000000), (5, 0x7FFFFFFF), (6, 33)], f := [(4, 0xFFFFFFFF40490FDB), (5, 0xFFFFFFFF7F7FFFFF), (6, 0xFFFFFFFF00000001), (7, 0x3FF123456789ABCD), (8, 0x7FF0000000000001)], fcsr := 0x1F00, status := 5, spKernel := 0x8000, sys := [(0x118, 0x8000)] }), 1, 0xa41e1, false, 0, 3, 4, 5, by decide +kernel⟩,
   ⟨mkS fun d =>
      withWord 1 (0x9ca41e1) ((((d.setReg SUPPLY.DOM_STATUS_0 0xFFFFFFFF).setFld MEMCTL.SRAM_STATUS_READY 255).setFld (CORES.CORE_STATUS_STATE 1) 2).putCore 1 { pc := 0x100, g := [(4, 0x80000000), (5, 0x7FFFFFFF), (6, 33)], f := [(4, 0xFFFFFFFF40490FDB), (5, 0xFFFFFFFF7F7FFFFF), (6, 0xFFFFFFFF00000001), (7, 0x3FF123456789ABCD), (8, 0x7FF0000000000001)] }), 1, 0x9ca41e1, false, 7, 3, 4, 5, by decide +kernel⟩,
   ⟨mkS fun d =>
      withWord 1 (0x9ca41e1) ((((d.setReg SUPPLY.DOM_STATUS_0 0xFFFFFFFF).setFld MEMCTL.SRAM_STATUS_READY 255).setFld (CORES.CORE_STATUS_STATE 1) 2).putCore 1 { pc := 0x100, g := [(4, 0x80000000), (5, 0x7FFFFFFF), (6, 33)], f := [(4, 0xFFFFFFFF40490FDB), (5, 0xFFFFFFFF7F7FFFFF), (6, 0xFFFFFFFF00000001), (7, 0x3FF123456789ABCD), (8, 0x7FF0000000000001)], fcsr := 0x1F00, status := 5, spKernel := 0x8000, sys := [(0x118, 0x8000)] }), 1, 0x9ca41e1, false, 7, 3, 4, 5, by decide +kernel⟩,
   ⟨mkS fun d =>
      withWord 1 (0x108a41e1) ((((d.setReg SUPPLY.DOM_STATUS_0 0xFFFFFFFF).setFld MEMCTL.SRAM_STATUS_READY 255).setFld (CORES.CORE_STATUS_STATE 1) 2).putCore 1 { pc := 0x100, g := [(4, 0x80000000), (5, 0x7FFFFFFF), (6, 33)], f := [(4, 0xFFFFFFFF40490FDB), (5, 0xFFFFFFFF7F7FFFFF), (6, 0xFFFFFFFF00000001), (7, 0x3FF123456789ABCD), (8, 0x7FF0000000000001)] }), 1, 0x108a41e1, false, 2, 3, 4, 5, by decide +kernel⟩,
   ⟨mkS fun d =>
      withWord 1 (0x108a41e1) ((((d.setReg SUPPLY.DOM_STATUS_0 0xFFFFFFFF).setFld MEMCTL.SRAM_STATUS_READY 255).setFld (CORES.CORE_STATUS_STATE 1) 2).putCore 1 { pc := 0x100, g := [(4, 0x80000000), (5, 0x7FFFFFFF), (6, 33)], f := [(4, 0xFFFFFFFF40490FDB), (5, 0xFFFFFFFF7F7FFFFF), (6, 0xFFFFFFFF00000001), (7, 0x3FF123456789ABCD), (8, 0x7FF0000000000001)], fcsr := 0x1F00, status := 5, spKernel := 0x8000, sys := [(0x118, 0x8000)] }), 1, 0x108a41e1, false, 2, 3, 4, 5, by decide +kernel⟩,
   ⟨mkS fun d =>
      withWord 1 (0x18ca41e1) ((((d.setReg SUPPLY.DOM_STATUS_0 0xFFFFFFFF).setFld MEMCTL.SRAM_STATUS_READY 255).setFld (CORES.CORE_STATUS_STATE 1) 2).putCore 1 { pc := 0x100, g := [(4, 0x80000000), (5, 0x7FFFFFFF), (6, 33)], f := [(4, 0xFFFFFFFF40490FDB), (5, 0xFFFFFFFF7F7FFFFF), (6, 0xFFFFFFFF00000001), (7, 0x3FF123456789ABCD), (8, 0x7FF0000000000001)] }), 1, 0x18ca41e1, false, 3, 3, 4, 5, by decide +kernel⟩,
   ⟨mkS fun d =>
      withWord 1 (0x18ca41e1) ((((d.setReg SUPPLY.DOM_STATUS_0 0xFFFFFFFF).setFld MEMCTL.SRAM_STATUS_READY 255).setFld (CORES.CORE_STATUS_STATE 1) 2).putCore 1 { pc := 0x100, g := [(4, 0x80000000), (5, 0x7FFFFFFF), (6, 33)], f := [(4, 0xFFFFFFFF40490FDB), (5, 0xFFFFFFFF7F7FFFFF), (6, 0xFFFFFFFF00000001), (7, 0x3FF123456789ABCD), (8, 0x7FF0000000000001)], fcsr := 0x1F00, status := 5, spKernel := 0x8000, sys := [(0x118, 0x8000)] }), 1, 0x18ca41e1, false, 3, 3, 4, 5, by decide +kernel⟩,
   ⟨mkS fun d =>
      withWord 1 (0x204041e1) ((((d.setReg SUPPLY.DOM_STATUS_0 0xFFFFFFFF).setFld MEMCTL.SRAM_STATUS_READY 255).setFld (CORES.CORE_STATUS_STATE 1) 2).putCore 1 { pc := 0x100, g := [(4, 0x80000000), (5, 0x7FFFFFFF), (6, 33)], f := [(4, 0xFFFFFFFF40490FDB), (5, 0xFFFFFFFF7F7FFFFF), (6, 0xFFFFFFFF00000001), (7, 0x3FF123456789ABCD), (8, 0x7FF0000000000001)] }), 1, 0x204041e1, false, 1, 3, 4, by decide +kernel⟩,
   ⟨mkS fun d =>
      withWord 1 (0x204041e1) ((((d.setReg SUPPLY.DOM_STATUS_0 0xFFFFFFFF).setFld MEMCTL.SRAM_STATUS_READY 255).setFld (CORES.CORE_STATUS_STATE 1) 2).putCore 1 { pc := 0x100, g := [(4, 0x80000000), (5, 0x7FFFFFFF), (6, 33)], f := [(4, 0xFFFFFFFF40490FDB), (5, 0xFFFFFFFF7F7FFFFF), (6, 0xFFFFFFFF00000001), (7, 0x3FF123456789ABCD), (8, 0x7FF0000000000001)], fcsr := 0x1F00, status := 5, spKernel := 0x8000, sys := [(0x118, 0x8000)] }), 1, 0x204041e1, false, 1, 3, 4, by decide +kernel⟩⟩

/-- The hypotheses of clauses 11 to 22 of CoreFloat are met. -/
theorem witness_CoreFloat_11 :
    (∃ (s : State) (c : Fin 4) (w : Word) (dbl : Bool) (fd : Nat) (fa : Nat) (fb : Nat), s.dev.runs c w = true ∧
      decodeW w = .fminmax false dbl fd fa fb ∧
      ((fmtOf dbl).minMax false (((s.dev.fetched c w).core c).fop dbl fa) (((s.dev.fetched c w).core c).fop dbl fb)).flags &&& (((s.dev.fetched c w).core c).fcsr.toNat / 256 % 32) = 0) ∧
    (∃ (s : State) (c : Fin 4) (w : Word) (dbl : Bool) (fd : Nat) (fa : Nat) (fb : Nat), s.dev.runs c w = true ∧
      decodeW w = .fminmax false dbl fd fa fb ∧
      ((fmtOf dbl).minMax false (((s.dev.fetched c w).core c).fop dbl fa) (((s.dev.fetched c w).core c).fop dbl fb)).flags &&& (((s.dev.fetched c w).core c).fcsr.toNat / 256 % 32) ≠ 0 ∧
      (s.dev.fetched c w).canEnter c 10 = true) ∧
    (∃ (s : State) (c : Fin 4) (w : Word) (dbl : Bool) (fd : Nat) (fa : Nat) (fb : Nat), s.dev.runs c w = true ∧
      decodeW w = .fminmax true dbl fd fa fb ∧
      ((fmtOf dbl).minMax true (((s.dev.fetched c w).core c).fop dbl fa) (((s.dev.fetched c w).core c).fop dbl fb)).flags &&& (((s.dev.fetched c w).core c).fcsr.toNat / 256 % 32) = 0) ∧
    (∃ (s : State) (c : Fin 4) (w : Word) (dbl : Bool) (fd : Nat) (fa : Nat) (fb : Nat), s.dev.runs c w = true ∧
      decodeW w = .fminmax true dbl fd fa fb ∧
      ((fmtOf dbl).minMax true (((s.dev.fetched c w).core c).fop dbl fa) (((s.dev.fetched c w).core c).fop dbl fb)).flags &&& (((s.dev.fetched c w).core c).fcsr.toNat / 256 % 32) ≠ 0 ∧
      (s.dev.fetched c w).canEnter c 10 = true) ∧
    (∃ (s : State) (c : Fin 4) (w : Word) (dbl : Bool) (fd : Nat) (fa : Nat) (fb : Nat), s.dev.runs c w = true ∧ decodeW w = .fsgn 0 dbl fd fa fb) ∧
    (∃ (s : State) (c : Fin 4) (w : Word) (dbl : Bool) (fd : Nat) (fa : Nat) (fb : Nat), s.dev.runs c w = true ∧ decodeW w = .fsgn 1 dbl fd fa fb) ∧
    (∃ (s : State) (c : Fin 4) (w : Word) (dbl : Bool) (fd : Nat) (fa : Nat) (fb : Nat), s.dev.runs c w = true ∧ decodeW w = .fsgn 2 dbl fd fa fb) ∧
    (∃ (s : State) (c : Fin 4) (w : Word) (dbl : Bool) (gd : Nat) (fa : Nat) (fb : Nat), s.dev.runs c w = true ∧
      decodeW w = .fcmp 0 dbl gd fa fb ∧
      ((let q := (fmtOf dbl).fcmp 0 (((s.dev.fetched c w).core c).fop dbl fa) (((s.dev.fetched c w).core c).fop dbl fb); (if q.1 then 1#32 else 0#32, q.2))).2 &&& (((s.dev.fetched c w).core c).fcsr.toNat / 256 % 32) = 0) ∧
    (∃ (s : State) (c : Fin 4) (w : Word) (dbl : Bool) (gd : Nat) (fa : Nat) (fb : Nat), s.dev.runs c w = true ∧
      decodeW w = .fcmp 0 dbl gd fa fb ∧
      ((let q := (fmtOf dbl).fcmp 0 (((s.dev.fetched c w).core c).fop dbl fa) (((s.dev.fetched c w).core c).fop dbl fb); (if q.1 then 1#32 else 0#32, q.2))).2 &&& (((s.dev.fetched c w).core c).fcsr.toNat / 256 % 32) ≠ 0 ∧
      (s.dev.fetched c w).canEnter c 10 = true) ∧
    (∃ (s : State) (c : Fin 4) (w : Word) (dbl : Bool) (gd : Nat) (fa : Nat) (fb : Nat), s.dev.runs c w = true ∧
      decodeW w = .fcmp 1 dbl gd fa fb ∧
      ((let q := (fmtOf dbl).fcmp 1 (((s.dev.fetched c w).core c).fop dbl fa) (((s.dev.fetched c w).core c).fop dbl fb); (if q.1 then 1#32 else 0#32, q.2))).2 &&& (((s.dev.fetched c w).core c).fcsr.toNat / 256 % 32) = 0) ∧
    (∃ (s : State) (c : Fin 4) (w : Word) (dbl : Bool) (gd : Nat) (fa : Nat) (fb : Nat), s.dev.runs c w = true ∧
      decodeW w = .fcmp 1 dbl gd fa fb ∧
      ((let q := (fmtOf dbl).fcmp 1 (((s.dev.fetched c w).core c).fop dbl fa) (((s.dev.fetched c w).core c).fop dbl fb); (if q.1 then 1#32 else 0#32, q.2))).2 &&& (((s.dev.fetched c w).core c).fcsr.toNat / 256 % 32) ≠ 0 ∧
      (s.dev.fetched c w).canEnter c 10 = true) ∧
    (∃ (s : State) (c : Fin 4) (w : Word) (dbl : Bool) (gd : Nat) (fa : Nat) (fb : Nat), s.dev.runs c w = true ∧
      decodeW w = .fcmp 2 dbl gd fa fb ∧
      ((let q := (fmtOf dbl).fcmp 2 (((s.dev.fetched c w).core c).fop dbl fa) (((s.dev.fetched c w).core c).fop dbl fb); (if q.1 then 1#32 else 0#32, q.2))).2 &&& (((s.dev.fetched c w).core c).fcsr.toNat / 256 % 32) = 0) :=
  ⟨⟨mkS fun d =>
      withWord 1 (0x2a0e81e1) ((((d.setReg SUPPLY.DOM_STATUS_0 0xFFFFFFFF).setFld MEMCTL.SRAM_STATUS_READY 255).setFld (CORES.CORE_STATUS_STATE 1) 2).putCore 1 { pc := 0x100, g := [(4, 0x80000000), (5, 0x7FFFFFFF), (6, 33)], f := [(4, 0xFFFFFFFF40490FDB), (5, 0xFFFFFFFF7F7FFFFF), (6, 0xFFFFFFFF00000001), (7, 0x3FF123456789ABCD), (8, 0x7FF0000000000001)] }), 1, 0x2a0e81e1, true, 3, 8, 7, by decide +kernel⟩,
   ⟨mkS fun d =>
      withWord 1 (0x2a0e81e1) ((((d.setReg SUPPLY.DOM_STATUS_0 0xFFFFFFFF).setFld MEMCTL.SRAM_STATUS_READY 255).setFld (CORES.CORE_STATUS_STATE 1) 2).putCore 1 { pc := 0x100, g := [(4, 0x80000000), (5, 0x7FFFFFFF), (6, 33)], f := [(4, 0xFFFFFFFF40490FDB), (5, 0xFFFFFFFF7F7FFFFF), (6, 0xFFFFFFFF00000001), (7, 0x3FF123456789ABCD), (8, 0x7FF0000000000001)], fcsr := 0x1F00, status := 5, spKernel := 0x8000, sys := [(0x118, 0x8000)] }), 1, 0x2a0e81e1, true, 3, 8, 7, by decide +kernel⟩,
   ⟨mkS fun d =>
      withWord 1 (0x320e81e1) ((((d.setReg SUPPLY.DOM_STATUS_0 0xFFFFFFFF).setFld MEMCTL.SRAM_STATUS_READY 255).setFld (CORES.CORE_STATUS_STATE 1) 2).putCore 1 { pc := 0x100, g := [(4, 0x80000000), (5, 0x7FFFFFFF), (6, 33)], f := [(4, 0xFFFFFFFF40490FDB), (5, 0xFFFFFFFF7F7FFFFF), (6, 0xFFFFFFFF00000001), (7, 0x3FF123456789ABCD), (8, 0x7FF0000000000001)] }), 1, 0x320e81e1, true, 3, 8, 7, by decide +kernel⟩,
   ⟨mkS fun d =>
      withWord 1 (0x320e81e1) ((((d.setReg SUPPLY.DOM_STATUS_0 0xFFFFFFFF).setFld MEMCTL.SRAM_STATUS_READY 255).setFld (CORES.CORE_STATUS_STATE 1) 2).putCore 1 { pc := 0x100, g := [(4, 0x80000000), (5, 0x7FFFFFFF), (6, 33)], f := [(4, 0xFFFFFFFF40490FDB), (5, 0xFFFFFFFF7F7FFFFF), (6, 0xFFFFFFFF00000001), (7, 0x3FF123456789ABCD), (8, 0x7FF0000000000001)], fcsr := 0x1F00, status := 5, spKernel := 0x8000, sys := [(0x118, 0x8000)] }), 1, 0x320e81e1, true, 3, 8, 7, by decide +kernel⟩,
   ⟨mkS fun d =>
      withWord 1 (0x381041e1) ((((d.setReg SUPPLY.DOM_STATUS_0 0xFFFFFFFF).setFld MEMCTL.SRAM_STATUS_READY 255).setFld (CORES.CORE_STATUS_STATE 1) 2).putCore 1 { pc := 0x100, g := [(4, 0x80000000), (5, 0x7FFFFFFF), (6, 33)], f := [(4, 0xFFFFFFFF40490FDB), (5, 0xFFFFFFFF7F7FFFFF), (6, 0xFFFFFFFF00000001), (7, 0x3FF123456789ABCD), (8, 0x7FF0000000000001)] }), 1, 0x381041e1, false, 3, 4, 8, by decide +kernel⟩,
   ⟨mkS fun d =>
      withWord 1 (0x385041e1) ((((d.setReg SUPPLY.DOM_STATUS_0 0xFFFFFFFF).setFld MEMCTL.SRAM_STATUS_READY 255).setFld (CORES.CORE_STATUS_STATE 1) 2).putCore 1 { pc := 0x100, g := [(4, 0x80000000), (5, 0x7FFFFFFF), (6, 33)], f := [(4, 0xFFFFFFFF40490FDB), (5, 0xFFFFFFFF7F7FFFFF), (6, 0xFFFFFFFF00000001), (7, 0x3FF123456789ABCD), (8, 0x7FF0000000000001)] }), 1, 0x385041e1, false, 3, 4, 8, by decide +kernel⟩,
   ⟨mkS fun d =>
      withWord 1 (0x389041e1) ((((d.setReg SUPPLY.DOM_STATUS_0 0xFFFFFFFF).setFld MEMCTL.SRAM_STATUS_READY 255).setFld (CORES.CORE_STATUS_STATE 1) 2).putCore 1 { pc := 0x100, g := [(4, 0x80000000), (5, 0x7FFFFFFF), (6, 33)], f := [(4, 0xFFFFFFFF40490FDB), (5, 0xFFFFFFFF7F7FFFFF), (6, 0xFFFFFFFF00000001), (7, 0x3FF123456789ABCD), (8, 0x7FF0000000000001)] }), 1, 0x389041e1, false, 3, 4, 8, by decide +kernel⟩,
   ⟨mkS fun d =>
      withWord 1 (0x420e81e1) ((((d.setReg SUPPLY.DOM_STATUS_0 0xFFFFFFFF).setFld MEMCTL.SRAM_STATUS_READY 255).setFld (CORES.CORE_STATUS_STATE 1) 2).putCore 1 { pc := 0x100, g := [(4, 0x80000000), (5, 0x7FFFFFFF), (6, 33)], f := [(4, 0xFFFFFFFF40490FDB), (5, 0xFFFFFFFF7F7FFFFF), (6, 0xFFFFFFFF00000001), (7, 0x3FF123456789ABCD), (8, 0x7FF0000000000001)] }), 1, 0x420e81e1, true, 3, 8, 7, by decide +kernel⟩,
   ⟨mkS fun d =>
      withWord 1 (0x420e81e1) ((((d.setReg SUPPLY.DOM_STATUS_0 0xFFFFFFFF).setFld MEMCTL.SRAM_STATUS_READY 255).setFld (CORES.CORE_STATUS_STATE 1) 2).putCore 1 { pc := 0x100, g := [(4, 0x80000000), (5, 0x7FFFFFFF), (6, 33)], f := [(4, 0xFFFFFFFF40490FDB), (5, 0xFFFFFFFF7F7FFFFF), (6, 0xFFFFFFFF00000001), (7, 0x3FF123456789ABCD), (8, 0x7FF0000000000001)], fcsr := 0x1F00, status := 5, spKernel := 0x8000, sys := [(0x118, 0x8000)] }), 1, 0x420e81e1, true, 3, 8, 7, by decide +kernel⟩,
   ⟨mkS fun d =>
      withWord 1 (0x424e81e1) ((((d.setReg SUPPLY.DOM_STATUS_0 0xFFFFFFFF).setFld MEMCTL.SRAM_STATUS_READY 255).setFld (CORES.CORE_STATUS_STATE 1) 2).putCore 1 { pc := 0x100, g := [(4, 0x80000000), (5, 0x7FFFFFFF), (6, 33)], f := [(4, 0xFFFFFFFF40490FDB), (5, 0xFFFFFFFF7F7FFFFF), (6, 0xFFFFFFFF00000001), (7, 0x3FF123456789ABCD), (8, 0x7FF0000000000001)] }), 1, 0x424e81e1, true, 3, 8, 7, by decide +kernel⟩,
   ⟨mkS fun d =>
      withWord 1 (0x424e81e1) ((((d.setReg SUPPLY.DOM_STATUS_0 0xFFFFFFFF).setFld MEMCTL.SRAM_STATUS_READY 255).setFld (CORES.CORE_STATUS_STATE 1) 2).putCore 1 { pc := 0x100, g := [(4, 0x80000000), (5, 0x7FFFFFFF), (6, 33)], f := [(4, 0xFFFFFFFF40490FDB), (5, 0xFFFFFFFF7F7FFFFF), (6, 0xFFFFFFFF00000001), (7, 0x3FF123456789ABCD), (8, 0x7FF0000000000001)], fcsr := 0x1F00, status := 5, spKernel := 0x8000, sys := [(0x118, 0x8000)] }), 1, 0x424e81e1, true, 3, 8, 7, by decide +kernel⟩,
   ⟨mkS fun d =>
      withWord 1 (0x428e81e1) ((((d.setReg SUPPLY.DOM_STATUS_0 0xFFFFFFFF).setFld MEMCTL.SRAM_STATUS_READY 255).setFld (CORES.CORE_STATUS_STATE 1) 2).putCore 1 { pc := 0x100, g := [(4, 0x80000000), (5, 0x7FFFFFFF), (6, 33)], f := [(4, 0xFFFFFFFF40490FDB), (5, 0xFFFFFFFF7F7FFFFF), (6, 0xFFFFFFFF00000001), (7, 0x3FF123456789ABCD), (8, 0x7FF0000000000001)] }), 1, 0x428e81e1, true, 3, 8, 7, by decide +kernel⟩⟩

/-- The hypotheses of clauses 23 to 34 of CoreFloat are met. -/
theorem witness_CoreFloat_23 :
    (∃ (s : State) (c : Fin 4) (w : Word) (dbl : Bool) (gd : Nat) (fa : Nat) (fb : Nat), s.dev.runs c w = true ∧
      decodeW w = .fcmp 2 dbl gd fa fb ∧
      ((let q := (fmtOf dbl).fcmp 2 (((s.dev.fetched c w).core c).fop dbl fa) (((s.dev.fetched c w).core c).fop dbl fb); (if q.1 then 1#32 else 0#32, q.2))).2 &&& (((s.dev.fetched c w).core c).fcsr.toNat / 256 % 32) ≠ 0 ∧
      (s.dev.fetched c w).canEnter c 10 = true) ∧
    (∃ (s : State) (c : Fin 4) (w : Word) (dbl : Bool) (gd : Nat) (fa : Nat) (fb : Nat), s.dev.runs c w = true ∧
      decodeW w = .fcmp 3 dbl gd fa fb ∧
      ((let q := (fmtOf dbl).fcmp 3 (((s.dev.fetched c w).core c).fop dbl fa) (((s.dev.fetched c w).core c).fop dbl fb); (if q.1 then 1#32 else 0#32, q.2))).2 &&& (((s.dev.fetched c w).core c).fcsr.toNat / 256 % 32) = 0) ∧
    (∃ (s : State) (c : Fin 4) (w : Word) (dbl : Bool) (gd : Nat) (fa : Nat) (fb : Nat), s.dev.runs c w = true ∧
      decodeW w = .fcmp 3 dbl gd fa fb ∧
      ((let q := (fmtOf dbl).fcmp 3 (((s.dev.fetched c w).core c).fop dbl fa) (((s.dev.fetched c w).core c).fop dbl fb); (if q.1 then 1#32 else 0#32, q.2))).2 &&& (((s.dev.fetched c w).core c).fcsr.toNat / 256 % 32) ≠ 0 ∧
      (s.dev.fetched c w).canEnter c 10 = true) ∧
    (∃ (s : State) (c : Fin 4) (w : Word) (dbl : Bool) (gd : Nat) (fa : Nat), s.dev.runs c w = true ∧ decodeW w = .fclass dbl gd fa) ∧
    (∃ (s : State) (c : Fin 4) (w : Word) (dbl : Bool) (rm : Nat) (fd : Nat) (fa : Nat), s.dev.runs c w = true ∧
      decodeW w = .fcvt dbl rm fd fa ∧
      ((fmtOf dbl).cvt (if rm = 7 then ((s.dev.fetched c w).core c).fcsr.toNat / 32 % 8 else rm) ((fmtOf (!dbl)).unpack (((s.dev.fetched c w).core c).fop (!dbl) fa))).flags &&& (((s.dev.fetched c w).core c).fcsr.toNat / 256 % 32) = 0) ∧
    (∃ (s : State) (c : Fin 4) (w : Word) (dbl : Bool) (rm : Nat) (fd : Nat) (fa : Nat), s.dev.runs c w = true ∧
      decodeW w = .fcvt dbl rm fd fa ∧
      ((fmtOf dbl).cvt (if rm = 7 then ((s.dev.fetched c w).core c).fcsr.toNat / 32 % 8 else rm) ((fmtOf (!dbl)).unpack (((s.dev.fetched c w).core c).fop (!dbl) fa))).flags &&& (((s.dev.fetched c w).core c).fcsr.toNat / 256 % 32) ≠ 0 ∧
      (s.dev.fetched c w).canEnter c 10 = true) ∧
    (∃ (s : State) (c : Fin 4) (w : Word) (dbl : Bool) (rm : Nat) (gd : Nat) (fa : Nat), s.dev.runs c w = true ∧
      decodeW w = .fcvtw false dbl rm gd fa ∧
      (cvtToInt false (if rm = 7 then ((s.dev.fetched c w).core c).fcsr.toNat / 32 % 8 else rm) ((fmtOf dbl).unpack (((s.dev.fetched c w).core c).fop dbl fa))).2 &&& (((s.dev.fetched c w).core c).fcsr.toNat / 256 % 32) = 0) ∧
    (∃ (s : State) (c : Fin 4) (w : Word) (dbl : Bool) (rm : Nat) (gd : Nat) (fa : Nat), s.dev.runs c w = true ∧
      decodeW w = .fcvtw false dbl rm gd fa ∧
      (cvtToInt false (if rm = 7 then ((s.dev.fetched c w).core c).fcsr.toNat / 32 % 8 else rm) ((fmtOf dbl).unpack (((s.dev.fetched c w).core c).fop dbl fa))).2 &&& (((s.dev.fetched c w).core c).fcsr.toNat / 256 % 32) ≠ 0 ∧
      (s.dev.fetched c w).canEnter c 10 = true) ∧
    (∃ (s : State) (c : Fin 4) (w : Word) (dbl : Bool) (rm : Nat) (gd : Nat) (fa : Nat), s.dev.runs c w = true ∧
      decodeW w = .fcvtw true dbl rm gd fa ∧
      (cvtToInt true (if rm = 7 then ((s.dev.fetched c w).core c).fcsr.toNat / 32 % 8 else rm) ((fmtOf dbl).unpack (((s.dev.fetched c w).core c).fop dbl fa))).2 &&& (((s.dev.fetched c w).core c).fcsr.toNat / 256 % 32) = 0) ∧
    (∃ (s : State) (c : Fin 4) (w : Word) (dbl : Bool) (rm : Nat) (gd : Nat) (fa : Nat), s.dev.runs c w = true ∧
      decodeW w = .fcvtw true dbl rm gd fa ∧
      (cvtToInt true (if rm = 7 then ((s.dev.fetched c w).core c).fcsr.toNat / 32 % 8 else rm) ((fmtOf dbl).unpack (((s.dev.fetched c w).core c).fop dbl fa))).2 &&& (((s.dev.fetched c w).core c).fcsr.toNat / 256 % 32) ≠ 0 ∧
      (s.dev.fetched c w).canEnter c 10 = true) ∧
    (∃ (s : State) (c : Fin 4) (w : Word) (dbl : Bool) (rm : Nat) (fd : Nat) (ga : Nat), s.dev.runs c w = true ∧
      decodeW w = .fcvtf false dbl rm fd ga ∧
      ((fmtOf dbl).roundInt (if rm = 7 then ((s.dev.fetched c w).core c).fcsr.toNat / 32 % 8 else rm) false ((((s.dev.fetched c w).core c).rg ga).toInt) 0).flags &&& (((s.dev.fetched c w).core c).fcsr.toNat / 256 % 32) = 0) ∧
    (∃ (s : State) (c : Fin 4) (w : Word) (dbl : Bool) (rm : Nat) (fd : Nat) (ga : Nat), s.dev.runs c w = true ∧
      decodeW w = .fcvtf false dbl rm fd ga ∧
      ((fmtOf dbl).roundInt (if rm = 7 then ((s.dev.fetched c w).core c).fcsr.toNat / 32 % 8 else rm) false ((((s.dev.fetched c w).core c).rg ga).toInt) 0).flags &&& (((s.dev.fetched c w).core c).fcsr.toNat / 256 % 32) ≠ 0 ∧
      (s.dev.fetched c w).canEnter c 10 = true) :=
  ⟨⟨mkS fun d =>
      withWord 1 (0x428e81e1) ((((d.setReg SUPPLY.DOM_STATUS_0 0xFFFFFFFF).setFld MEMCTL.SRAM_STATUS_READY 255).setFld (CORES.CORE_STATUS_STATE 1) 2).putCore 1 { pc := 0x100, g := [(4, 0x80000000), (5, 0x7FFFFFFF), (6, 33)], f := [(4, 0xFFFFFFFF40490FDB), (5, 0xFFFFFFFF7F7FFFFF), (6, 0xFFFFFFFF00000001), (7, 0x3FF123456789ABCD), (8, 0x7FF0000000000001)], fcsr := 0x1F00, status := 5, spKernel := 0x8000, sys := [(0x118, 0x8000)] }), 1, 0x428e81e1, true, 3, 8, 7, by decide +kernel⟩,
   ⟨mkS fun d =>
      withWord 1 (0x42ce81e1) ((((d.setReg SUPPLY.DOM_STATUS_0 0xFFFFFFFF).setFld MEMCTL.SRAM_STATUS_READY 255).setFld (CORES.CORE_STATUS_STATE 1) 2).putCore 1 { pc := 0x100, g := [(4, 0x80000000), (5, 0x7FFFFFFF), (6, 33)], f := [(4, 0xFFFFFFFF40490FDB), (5, 0xFFFFFFFF7F7FFFFF), (6, 0xFFFFFFFF00000001), (7, 0x3FF123456789ABCD), (8, 0x7FF0000000000001)] }), 1, 0x42ce81e1, true, 3, 8, 7, by decide +kernel⟩,
   ⟨mkS fun d =>
      withWord 1 (0x42ce81e1) ((((d.setReg SUPPLY.DOM_STATUS_0 0xFFFFFFFF).setFld MEMCTL.SRAM_STATUS_READY 255).setFld (CORES.CORE_STATUS_STATE 1) 2).putCore 1 { pc := 0x100, g := [(4, 0x80000000), (5, 0x7FFFFFFF), (6, 33)], f := [(4, 0xFFFFFFFF40490FDB), (5, 0xFFFFFFFF7F7FFFFF), (6, 0xFFFFFFFF00000001), (7, 0x3FF123456789ABCD), (8, 0x7FF0000000000001)], fcsr := 0x1F00, status := 5, spKernel := 0x8000, sys := [(0x118, 0x8000)] }), 1, 0x42ce81e1, true, 3, 8, 7, by decide +kernel⟩,
   ⟨mkS fun d =>
      withWord 1 (0x4a0081e1) ((((d.setReg SUPPLY.DOM_STATUS_0 0xFFFFFFFF).setFld MEMCTL.SRAM_STATUS_READY 255).setFld (CORES.CORE_STATUS_STATE 1) 2).putCore 1 { pc := 0x100, g := [(4, 0x80000000), (5, 0x7FFFFFFF), (6, 33)], f := [(4, 0xFFFFFFFF40490FDB), (5, 0xFFFFFFFF7F7FFFFF), (6, 0xFFFFFFFF00000001), (7, 0x3FF123456789ABCD), (8, 0x7FF0000000000001)] }), 1, 0x4a0081e1, true, 3, 8, by decide +kernel⟩,
   ⟨mkS fun d =>
      withWord 1 (0x500071e1) ((((d.setReg SUPPLY.DOM_STATUS_0 0xFFFFFFFF).setFld MEMCTL.SRAM_STATUS_READY 255).setFld (CORES.CORE_STATUS_STATE 1) 2).putCore 1 { pc := 0x100, g := [(4, 0x80000000), (5, 0x7FFFFFFF), (6, 33)], f := [(4, 0xFFFFFFFF40490FDB), (5, 0xFFFFFFFF7F7FFFFF), (6, 0xFFFFFFFF00000001), (7, 0x3FF123456789ABCD), (8, 0x7FF0000000000001)] }), 1, 0x500071e1, false, 0, 3, 7, by decide +kernel⟩,
   ⟨mkS fun d =>
      withWord 1 (0x500071e1) ((((d.setReg SUPPLY.DOM_STATUS_0 0xFFFFFFFF).setFld MEMCTL.SRAM_STATUS_READY 255).setFld (CORES.CORE_STATUS_STATE 1) 2).putCore 1 { pc := 0x100, g := [(4, 0x80000000), (5, 0x7FFFFFFF), (6, 33)], f := [(4, 0xFFFFFFFF40490FDB), (5, 0xFFFFFFFF7F7FFFFF), (6, 0xFFFFFFFF00000001), (7, 0x3FF123456789ABCD), (8, 0x7FF0000000000001)], fcsr := 0x1F00, status := 5, spKernel := 0x8000, sys := [(0x118, 0x8000)] }), 1, 0x500071e1, false, 0, 3, 7, by decide +kernel⟩,
   ⟨mkS fun d =>
      withWord 1 (0x584041e1) ((((d.setReg SUPPLY.DOM_STATUS_0 0xFFFFFFFF).setFld MEMCTL.SRAM_STATUS_READY 255).setFld (CORES.CORE_STATUS_STATE 1) 2).putCore 1 { pc := 0x100, g := [(4, 0x80000000), (5, 0x7FFFFFFF), (6, 33)], f := [(4, 0xFFFFFFFF40490FDB), (5, 0xFFFFFFFF7F7FFFFF), (6, 0xFFFFFFFF00000001), (7, 0x3FF123456789ABCD), (8, 0x7FF0000000000001)] }), 1, 0x584041e1, false, 1, 3, 4, by decide +kernel⟩,
   ⟨mkS fun d =>
      withWord 1 (0x584041e1) ((((d.setReg SUPPLY.DOM_STATUS_0 0xFFFFFFFF).setFld MEMCTL.SRAM_STATUS_READY 255).setFld (CORES.CORE_STATUS_STATE 1) 2).putCore 1 { pc := 0x100, g := [(4, 0x80000000), (5, 0x7FFFFFFF), (6, 33)], f := [(4, 0xFFFFFFFF40490FDB), (5, 0xFFFFFFFF7F7FFFFF), (6, 0xFFFFFFFF00000001), (7, 0x3FF123456789ABCD), (8, 0x7FF0000000000001)], fcsr := 0x1F00, status := 5, spKernel := 0x8000, sys := [(0x118, 0x8000)] }), 1, 0x584041e1, false, 1, 3, 4, by decide +kernel⟩,
   ⟨mkS fun d =>
      withWord 1 (0x584241e1) ((((d.setReg SUPPLY.DOM_STATUS_0 0xFFFFFFFF).setFld MEMCTL.SRAM_STATUS_READY 255).setFld (CORES.CORE_STATUS_STATE 1) 2).putCore 1 { pc := 0x100, g := [(4, 0x80000000), (5, 0x7FFFFFFF), (6, 33)], f := [(4, 0xFFFFFFFF40490FDB), (5, 0xFFFFFFFF7F7FFFFF), (6, 0xFFFFFFFF00000001), (7, 0x3FF123456789ABCD), (8, 0x7FF0000000000001)] }), 1, 0x584241e1, false, 1, 3, 4, by decide +kernel⟩,
   ⟨mkS fun d =>
      withWord 1 (0x584241e1) ((((d.setReg SUPPLY.DOM_STATUS_0 0xFFFFFFFF).setFld MEMCTL.SRAM_STATUS_READY 255).setFld (CORES.CORE_STATUS_STATE 1) 2).putCore 1 { pc := 0x100, g := [(4, 0x80000000), (5, 0x7FFFFFFF), (6, 33)], f := [(4, 0xFFFFFFFF40490FDB), (5, 0xFFFFFFFF7F7FFFFF), (6, 0xFFFFFFFF00000001), (7, 0x3FF123456789ABCD), (8, 0x7FF0000000000001)], fcsr := 0x1F00, status := 5, spKernel := 0x8000, sys := [(0x118, 0x8000)] }), 1, 0x584241e1, false, 1, 3, 4, by decide +kernel⟩,
   ⟨mkS fun d =>
      withWord 1 (0x604051e1) ((((d.setReg SUPPLY.DOM_STATUS_0 0xFFFFFFFF).setFld MEMCTL.SRAM_STATUS_READY 255).setFld (CORES.CORE_STATUS_STATE 1) 2).putCore 1 { pc := 0x100, g := [(4, 0x80000000), (5, 0x7FFFFFFF), (6, 33)], f := [(4, 0xFFFFFFFF40490FDB), (5, 0xFFFFFFFF7F7FFFFF), (6, 0xFFFFFFFF00000001), (7, 0x3FF123456789ABCD), (8, 0x7FF0000000000001)] }), 1, 0x604051e1, false, 1, 3, 5, by decide +kernel⟩,
   ⟨mkS fun d =>
      withWord 1 (0x604051e1) ((((d.setReg SUPPLY.DOM_STATUS_0 0xFFFFFFFF).setFld MEMCTL.SRAM_STATUS_READY 255).setFld (CORES.CORE_STATUS_STATE 1) 2).putCore 1 { pc := 0x100, g := [(4, 0x80000000), (5, 0x7FFFFFFF), (6, 33)], f := [(4, 0xFFFFFFFF40490FDB), (5, 0xFFFFFFFF7F7FFFFF), (6, 0xFFFFFFFF00000001), (7, 0x3FF123456789ABCD), (8, 0x7FF0000000000001)], fcsr := 0x1F00, status := 5, spKernel := 0x8000, sys := [(0x118, 0x8000)] }), 1, 0x604051e1, false, 1, 3, 5, by decide +kernel⟩⟩

/-- The hypotheses of clauses 35 to 46 of CoreFloat are met. -/
theorem witness_CoreFloat_35 :
    (∃ (s : State) (c : Fin 4) (w : Word) (dbl : Bool) (rm : Nat) (fd : Nat) (ga : Nat), s.dev.runs c w = true ∧
      decodeW w = .fcvtf true dbl rm fd ga ∧
      ((fmtOf dbl).roundInt (if rm = 7 then ((s.dev.fetched c w).core c).fcsr.toNat / 32 % 8 else rm) false ((((s.dev.fetched c w).core c).rg ga).toNat) 0).flags &&& (((s.dev.fetched c w).core c).fcsr.toNat / 256 % 32) = 0) ∧
    (∃ (s : State) (c : Fin 4) (w : Word) (dbl : Bool) (rm : Nat) (fd : Nat) (ga : Nat), s.dev.runs c w = true ∧
      decodeW w = .fcvtf true dbl rm fd ga ∧
      ((fmtOf dbl).roundInt (if rm = 7 then ((s.dev.fetched c w).core c).fcsr.toNat / 32 % 8 else rm) false ((((s.dev.fetched c w).core c).rg ga).toNat) 0).flags &&& (((s.dev.fetched c w).core c).fcsr.toNat / 256 % 32) ≠ 0 ∧
      (s.dev.fetched c w).canEnter c 10 = true) ∧
    (∃ (s : State) (c : Fin 4) (w : Word) (dbl : Bool) (gd : Nat) (fa : Nat), s.dev.runs c w = true ∧ decodeW w = .fmvx dbl gd fa) ∧
    (∃ (s : State) (c : Fin 4) (w : Word) (dbl : Bool) (fd : Nat) (ga : Nat), s.dev.runs c w = true ∧ decodeW w = .fmvf dbl fd ga) ∧
    (∃ (s : State) (c : Fin 4) (w : Word) (gd : Nat), s.dev.runs c w = true ∧ decodeW w = .fmfc gd) ∧
    (∃ (s : State) (c : Fin 4) (w : Word) (ga : Nat), s.dev.runs c w = true ∧ decodeW w = .fmtc ga ∧
      (((s.dev.fetched c w).core c).rg ga).toNat / 32 % 8 < 5) ∧
    (∃ (s : State) (c : Fin 4) (w : Word) (ga : Nat), s.dev.runs c w = true ∧ decodeW w = .fmtc ga ∧
      5 ≤ (((s.dev.fetched c w).core c).rg ga).toNat / 32 % 8) ∧
    (∃ (s : State) (c : Fin 4) (w : Word) (dbl : Bool) (rm : Nat) (fd : Nat) (fa : Nat) (fb : Nat) (fc : Nat), s.dev.runs c w = true ∧
      decodeW w = .fma .madd dbl rm fd fa fb fc ∧
      ((fmtOf dbl).fma (if rm = 7 then ((s.dev.fetched c w).core c).fcsr.toNat / 32 % 8 else rm) .madd ((fmtOf dbl).unpack (((s.dev.fetched c w).core c).fop dbl fa)) ((fmtOf dbl).unpack (((s.dev.fetched c w).core c).fop dbl fb)) ((fmtOf dbl).unpack (((s.dev.fetched c w).core c).fop dbl fc))).flags &&& (((s.dev.fetched c w).core c).fcsr.toNat / 256 % 32) = 0) ∧
    (∃ (s : State) (c : Fin 4) (w : Word) (dbl : Bool) (rm : Nat) (fd : Nat) (fa : Nat) (fb : Nat) (fc : Nat), s.dev.runs c w = true ∧
      decodeW w = .fma .madd dbl rm fd fa fb fc ∧
      ((fmtOf dbl).fma (if rm = 7 then ((s.dev.fetched c w).core c).fcsr.toNat / 32 % 8 else rm) .madd ((fmtOf dbl).unpack (((s.dev.fetched c w).core c).fop dbl fa)) ((fmtOf dbl).unpack (((s.dev.fetched c w).core c).fop dbl fb)) ((fmtOf dbl).unpack (((s.dev.fetched c w).core c).fop dbl fc))).flags &&& (((s.dev.fetched c w).core c).fcsr.toNat / 256 % 32) ≠ 0 ∧
      (s.dev.fetched c w).canEnter c 10 = true) ∧
    (∃ (s : State) (c : Fin 4) (w : Word) (dbl : Bool) (rm : Nat) (fd : Nat) (fa : Nat) (fb : Nat) (fc : Nat), s.dev.runs c w = true ∧
      decodeW w = .fma .msub dbl rm fd fa fb fc ∧
      ((fmtOf dbl).fma (if rm = 7 then ((s.dev.fetched c w).core c).fcsr.toNat / 32 % 8 else rm) .msub ((fmtOf dbl).unpack (((s.dev.fetched c w).core c).fop dbl fa)) ((fmtOf dbl).unpack (((s.dev.fetched c w).core c).fop dbl fb)) ((fmtOf dbl).unpack (((s.dev.fetched c w).core c).fop dbl fc))).flags &&& (((s.dev.fetched c w).core c).fcsr.toNat / 256 % 32) = 0) ∧
    (∃ (s : State) (c : Fin 4) (w : Word) (dbl : Bool) (rm : Nat) (fd : Nat) (fa : Nat) (fb : Nat) (fc : Nat), s.dev.runs c w = true ∧
      decodeW w = .fma .msub dbl rm fd fa fb fc ∧
      ((fmtOf dbl).fma (if rm = 7 then ((s.dev.fetched c w).core c).fcsr.toNat / 32 % 8 else rm) .msub ((fmtOf dbl).unpack (((s.dev.fetched c w).core c).fop dbl fa)) ((fmtOf dbl).unpack (((s.dev.fetched c w).core c).fop dbl fb)) ((fmtOf dbl).unpack (((s.dev.fetched c w).core c).fop dbl fc))).flags &&& (((s.dev.fetched c w).core c).fcsr.toNat / 256 % 32) ≠ 0 ∧
      (s.dev.fetched c w).canEnter c 10 = true) ∧
    (∃ (s : State) (c : Fin 4) (w : Word) (dbl : Bool) (rm : Nat) (fd : Nat) (fa : Nat) (fb : Nat) (fc : Nat), s.dev.runs c w = true ∧
      decodeW w = .fma .nmadd dbl rm fd fa fb fc ∧
      ((fmtOf dbl).fma (if rm = 7 then ((s.dev.fetched c w).core c).fcsr.toNat / 32 % 8 else rm) .nmadd ((fmtOf dbl).unpack (((s.dev.fetched c w).core c).fop dbl fa)) ((fmtOf dbl).unpack (((s.dev.fetched c w).core c).fop dbl fb)) ((fmtOf dbl).unpack (((s.dev.fetched c w).core c).fop dbl fc))).flags &&& (((s.dev.fetched c w).core c).fcsr.toNat / 256 % 32) = 0) :=
  ⟨⟨mkS fun d =>
      withWord 1 (0x604251e1) ((((d.setReg SUPPLY.DOM_STATUS_0 0xFFFFFFFF).setFld MEMCTL.SRAM_STATUS_READY 255).setFld (CORES.CORE_STATUS_STATE 1) 2).putCore 1 { pc := 0x100, g := [(4, 0x80000000), (5, 0x7FFFFFFF), (6, 33)], f := [(4, 0xFFFFFFFF40490FDB), (5, 0xFFFFFFFF7F7FFFFF), (6, 0xFFFFFFFF00000001), (7, 0x3FF123456789ABCD), (8, 0x7FF0000000000001)] }), 1, 0x604251e1, false, 1, 3, 5, by decide +kernel⟩,
   ⟨mkS fun d =>
      withWord 1 (0x604251e1) ((((d.setReg SUPPLY.DOM_STATUS_0 0xFFFFFFFF).setFld MEMCTL.SRAM_STATUS_READY 255).setFld (CORES.CORE_STATUS_STATE 1) 2).putCore 1 { pc := 0x100, g := [(4, 0x80000000), (5, 0x7FFFFFFF), (6, 33)], f := [(4, 0xFFFFFFFF40490FDB), (5, 0xFFFFFFFF7F7FFFFF), (6, 0xFFFFFFFF00000001), (7, 0x3FF123456789ABCD), (8, 0x7FF0000000000001)], fcsr := 0x1F00, status := 5, spKernel := 0x8000, sys := [(0x118, 0x8000)] }), 1, 0x604251e1, false, 1, 3, 5, by decide +kernel⟩,
   ⟨mkS fun d =>
      withWord 1 (0x6a007261) ((((d.setReg SUPPLY.DOM_STATUS_0 0xFFFFFFFF).setFld MEMCTL.SRAM_STATUS_READY 255).setFld (CORES.CORE_STATUS_STATE 1) 2).putCore 1 { pc := 0x100, g := [(4, 0x80000000), (5, 0x7FFFFFFF), (6, 33)], f := [(4, 0xFFFFFFFF40490FDB), (5, 0xFFFFFFFF7F7FFFFF), (6, 0xFFFFFFFF00000001), (7, 0x3FF123456789ABCD), (8, 0x7FF0000000000001)] }), 1, 0x6a007261, true, 4, 7, by decide +kernel⟩,
   ⟨mkS fun d =>
      withWord 1 (0x720041e1) ((((d.setReg SUPPLY.DOM_STATUS_0 0xFFFFFFFF).setFld MEMCTL.SRAM_STATUS_READY 255).setFld (CORES.CORE_STATUS_STATE 1) 2).putCore 1 { pc := 0x100, g := [(4, 0x80000000), (5, 0x7FFFFFFF), (6, 33)], f := [(4, 0xFFFFFFFF40490FDB), (5, 0xFFFFFFFF7F7FFFFF), (6, 0xFFFFFFFF00000001), (7, 0x3FF123456789ABCD), (8, 0x7FF0000000000001)] }), 1, 0x720041e1, true, 3, 4, by decide +kernel⟩,
   ⟨mkS fun d =>
      withWord 1 (0x780001e1) ((((d.setReg SUPPLY.DOM_STATUS_0 0xFFFFFFFF).setFld MEMCTL.SRAM_STATUS_READY 255).setFld (CORES.CORE_STATUS_STATE 1) 2).putCore 1 { pc := 0x100, g := [(4, 0x80000000), (5, 0x7FFFFFFF), (6, 33)], fcsr := 0x1F1F1F }), 1, 0x780001e1, 3, by decide +kernel⟩,
   ⟨mkS fun d =>
      withWord 1 (0x78403061) ((((d.setReg SUPPLY.DOM_STATUS_0 0xFFFFFFFF).setFld MEMCTL.SRAM_STATUS_READY 255).setFld (CORES.CORE_STATUS_STATE 1) 2).putCore 1 { pc := 0x100, g := [(3, 0xFFFFFF9F)] }), 1, 0x78403061, 3, by decide +kernel⟩,
   ⟨mkS fun d =>
      withWord 1 (0x78403061) ((((d.setReg SUPPLY.DOM_STATUS_0 0xFFFFFFFF).setFld MEMCTL.SRAM_STATUS_READY 255).setFld (CORES.CORE_STATUS_STATE 1) 2).putCore 1 { pc := 0x100, g := [(3, 0xFFFFFFBF)], fcsr := 0x60 }), 1, 0x78403061, 3, by decide +kernel⟩,
   ⟨mkS fun d =>
      withWord 1 (0x300a41e3) ((((d.setReg SUPPLY.DOM_STATUS_0 0xFFFFFFFF).setFld MEMCTL.SRAM_STATUS_READY 255).setFld (CORES.CORE_STATUS_STATE 1) 2).putCore 1 { pc := 0x100, g := [(4, 0x80000000), (5, 0x7FFFFFFF), (6, 33)], f := [(4, 0xFFFFFFFF40490FDB), (5, 0xFFFFFFFF7F7FFFFF), (6, 0xFFFFFFFF00000001), (7, 0x3FF123456789ABCD), (8, 0x7FF0000000000001)] }), 1, 0x300a41e3, false, 0, 3, 4, 5, 6, by decide +kernel⟩,
   ⟨mkS fun d =>
      withWord 1 (0x300a41e3) ((((d.setReg SUPPLY.DOM_STATUS_0 0xFFFFFFFF).setFld MEMCTL.SRAM_STATUS_READY 255).setFld (CORES.CORE_STATUS_STATE 1) 2).putCore 1 { pc := 0x100, g := [(4, 0x80000000), (5, 0x7FFFFFFF), (6, 33)], f := [(4, 0xFFFFFFFF40490FDB), (5, 0xFFFFFFFF7F7FFFFF), (6, 0xFFFFFFFF00000001), (7, 0x3FF123456789ABCD), (8, 0x7FF0000000000001)], fcsr := 0x1F00, status := 5, spKernel := 0x8000, sys := [(0x118, 0x8000)] }), 1, 0x300a41e3, false, 0, 3, 4, 5, 6, by decide +kernel⟩,
   ⟨mkS fun d =>
      withWord 1 (0x300a41e5) ((((d.setReg SUPPLY.DOM_STATUS_0 0xFFFFFFFF).setFld MEMCTL.SRAM_STATUS_READY 255).setFld (CORES.CORE_STATUS_STATE 1) 2).putCore 1 { pc := 0x100, g := [(4, 0x80000000), (5, 0x7FFFFFFF), (6, 33)], f := [(4, 0xFFFFFFFF40490FDB), (5, 0xFFFFFFFF7F7FFFFF), (6, 0xFFFFFFFF00000001), (7, 0x3FF123456789ABCD), (8, 0x7FF0000000000001)] }), 1, 0x300a41e5, false, 0, 3, 4, 5, 6, by decide +kernel⟩,
   ⟨mkS fun d =>
      withWord 1 (0x300a41e5) ((((d.setReg SUPPLY.DOM_STATUS_0 0xFFFFFFFF).setFld MEMCTL.SRAM_STATUS_READY 255).setFld (CORES.CORE_STATUS_STATE 1) 2).putCore 1 { pc := 0x100, g := [(4, 0x80000000), (5, 0x7FFFFFFF), (6, 33)], f := [(4, 0xFFFFFFFF40490FDB), (5, 0xFFFFFFFF7F7FFFFF), (6, 0xFFFFFFFF00000001), (7, 0x3FF123456789ABCD), (8, 0x7FF0000000000001)], fcsr := 0x1F00, status := 5, spKernel := 0x8000, sys := [(0x118, 0x8000)] }), 1, 0x300a41e5, false, 0, 3, 4, 5, 6, by decide +kernel⟩,
   ⟨mkS fun d =>
      withWord 1 (0x300a41e7) ((((d.setReg SUPPLY.DOM_STATUS_0 0xFFFFFFFF).setFld MEMCTL.SRAM_STATUS_READY 255).setFld (CORES.CORE_STATUS_STATE 1) 2).putCore 1 { pc := 0x100, g := [(4, 0x80000000), (5, 0x7FFFFFFF), (6, 33)], f := [(4, 0xFFFFFFFF40490FDB), (5, 0xFFFFFFFF7F7FFFFF), (6, 0xFFFFFFFF00000001), (7, 0x3FF123456789ABCD), (8, 0x7FF0000000000001)] }), 1, 0x300a41e7, false, 0, 3, 4, 5, 6, by decide +kernel⟩⟩

/-- The hypotheses of clauses 47 to 53 of CoreFloat are met. -/
theorem witness_CoreFloat_47 :
    (∃ (s : State) (c : Fin 4) (w : Word) (dbl : Bool) (rm : Nat) (fd : Nat) (fa : Nat) (fb : Nat) (fc : Nat), s.dev.runs c w = true ∧
      decodeW w = .fma .nmadd dbl rm fd fa fb fc ∧
      ((fmtOf dbl).fma (if rm = 7 then ((s.dev.fetched c w).core c).fcsr.toNat / 32 % 8 else rm) .nmadd ((fmtOf dbl).unpack (((s.dev.fetched c w).core c).fop dbl fa)) ((fmtOf dbl).unpack (((s.dev.fetched c w).core c).fop dbl fb)) ((fmtOf dbl).unpack (((s.dev.fetched c w).core c).fop dbl fc))).flags &&& (((s.dev.fetched c w).core c).fcsr.toNat / 256 % 32) ≠ 0 ∧
      (s.dev.fetched c w).canEnter c 10 = true) ∧
    (∃ (s : State) (c : Fin 4) (w : Word) (dbl : Bool) (rm : Nat) (fd : Nat) (fa : Nat) (fb : Nat) (fc : Nat), s.dev.runs c w = true ∧
      decodeW w = .fma .nmsub dbl rm fd fa fb fc ∧
      ((fmtOf dbl).fma (if rm = 7 then ((s.dev.fetched c w).core c).fcsr.toNat / 32 % 8 else rm) .nmsub ((fmtOf dbl).unpack (((s.dev.fetched c w).core c).fop dbl fa)) ((fmtOf dbl).unpack (((s.dev.fetched c w).core c).fop dbl fb)) ((fmtOf dbl).unpack (((s.dev.fetched c w).core c).fop dbl fc))).flags &&& (((s.dev.fetched c w).core c).fcsr.toNat / 256 % 32) = 0) ∧
    (∃ (s : State) (c : Fin 4) (w : Word) (dbl : Bool) (rm : Nat) (fd : Nat) (fa : Nat) (fb : Nat) (fc : Nat), s.dev.runs c w = true ∧
      decodeW w = .fma .nmsub dbl rm fd fa fb fc ∧
      ((fmtOf dbl).fma (if rm = 7 then ((s.dev.fetched c w).core c).fcsr.toNat / 32 % 8 else rm) .nmsub ((fmtOf dbl).unpack (((s.dev.fetched c w).core c).fop dbl fa)) ((fmtOf dbl).unpack (((s.dev.fetched c w).core c).fop dbl fb)) ((fmtOf dbl).unpack (((s.dev.fetched c w).core c).fop dbl fc))).flags &&& (((s.dev.fetched c w).core c).fcsr.toNat / 256 % 32) ≠ 0 ∧
      (s.dev.fetched c w).canEnter c 10 = true) ∧
    (∃ (s : State) (c : Fin 4) (w : Word) (m : AddrMode) (fd : Nat) (ra : Nat) (a : Nat), s.dev.runs c w = true ∧ decodeW w = .fload 2 m fd ra ∧
      (s.dev.fetched c w).loads c (addrOf m ((s.dev.fetched c w).core c).rg ra 2 (((s.dev.fetched c w).core c).sf CORE.BANK 15 0)).1 4 a = true) ∧
    (∃ (s : State) (c : Fin 4) (w : Word) (m : AddrMode) (fs : Nat) (ra : Nat) (a : Nat), s.dev.runs c w = true ∧
      decodeW w = .fstore 2 m fs ra ∧
      (s.dev.fetched c w).stores c (addrOf m ((s.dev.fetched c w).core c).rg ra 2 (((s.dev.fetched c w).core c).sf CORE.BANK 15 0)).1 4 a = true) ∧
    (∃ (s : State) (c : Fin 4) (w : Word) (m : AddrMode) (fd : Nat) (ra : Nat) (a : Nat), s.dev.runs c w = true ∧ decodeW w = .fload 3 m fd ra ∧
      (s.dev.fetched c w).loads c (addrOf m ((s.dev.fetched c w).core c).rg ra 3 (((s.dev.fetched c w).core c).sf CORE.BANK 15 0)).1 8 a = true) ∧
    (∃ (s : State) (c : Fin 4) (w : Word) (m : AddrMode) (fs : Nat) (ra : Nat) (a : Nat), s.dev.runs c w = true ∧
      decodeW w = .fstore 3 m fs ra ∧
      (s.dev.fetched c w).stores c (addrOf m ((s.dev.fetched c w).core c).rg ra 3 (((s.dev.fetched c w).core c).sf CORE.BANK 15 0)).1 8 a = true) :=
  ⟨⟨mkS fun d =>
      withWord 1 (0x300a41e7) ((((d.setReg SUPPLY.DOM_STATUS_0 0xFFFFFFFF).setFld MEMCTL.SRAM_STATUS_READY 255).setFld (CORES.CORE_STATUS_STATE 1) 2).putCore 1 { pc := 0x100, g := [(4, 0x80000000), (5, 0x7FFFFFFF), (6, 33)], f := [(4, 0xFFFFFFFF40490FDB), (5, 0xFFFFFFFF7F7FFFFF), (6, 0xFFFFFFFF00000001), (7, 0x3FF123456789ABCD), (8, 0x7FF0000000000001)], fcsr := 0x1F00, status := 5, spKernel := 0x8000, sys := [(0x118, 0x8000)] }), 1, 0x300a41e7, false, 0, 3, 4, 5, 6, by decide +kernel⟩,
   ⟨mkS fun d =>
      withWord 1 (0x300a41e9) ((((d.setReg SUPPLY.DOM_STATUS_0 0xFFFFFFFF).setFld MEMCTL.SRAM_STATUS_READY 255).setFld (CORES.CORE_STATUS_STATE 1) 2).putCore 1 { pc := 0x100, g := [(4, 0x80000000), (5, 0x7FFFFFFF), (6, 33)], f := [(4, 0xFFFFFFFF40490FDB), (5, 0xFFFFFFFF7F7FFFFF), (6, 0xFFFFFFFF00000001), (7, 0x3FF123456789ABCD), (8, 0x7FF0000000000001)] }), 1, 0x300a41e9, false, 0, 3, 4, 5, 6, by decide +kernel⟩,
   ⟨mkS fun d =>
      withWord 1 (0x300a41e9) ((((d.setReg SUPPLY.DOM_STATUS_0 0xFFFFFFFF).setFld MEMCTL.SRAM_STATUS_READY 255).setFld (CORES.CORE_STATUS_STATE 1) 2).putCore 1 { pc := 0x100, g := [(4, 0x80000000), (5, 0x7FFFFFFF), (6, 33)], f := [(4, 0xFFFFFFFF40490FDB), (5, 0xFFFFFFFF7F7FFFFF), (6, 0xFFFFFFFF00000001), (7, 0x3FF123456789ABCD), (8, 0x7FF0000000000001)], fcsr := 0x1F00, status := 5, spKernel := 0x8000, sys := [(0x118, 0x8000)] }), 1, 0x300a41e9, false, 0, 3, 4, 5, 6, by decide +kernel⟩,
   ⟨mkS fun d =>
      withWord 1 (0x482436b) (((({ d with mem := [(0x08080200, 0x81), (0x08080201, 0x92), (0x08080202, 0xA3), (0x08080203, 0xB4), (0x08080204, 0xC5), (0x08080207, 0xD6)] }.setReg SUPPLY.DOM_STATUS_0 0xFFFFFFFF).setFld MEMCTL.SRAM_STATUS_READY 255).setFld (CORES.CORE_STATUS_STATE 1) 2).putCore 1 { pc := 0x100, g := [(3, 0x11223344), (4, 0x200), (5, 0x8), (6, 0x80F1A2B3), (7, 0x99887766), (8, 0x201)], f := [(4, 0xFFFFFFFF40490FDB), (5, 0xFFFFFFFF7F7FFFFF), (6, 0xFFFFFFFF00000001), (7, 0x3FF123456789ABCD), (8, 0x7FF0000000000001)] }), 1, 0x482436b, .post 1, 6, 4, 0x08080200, by decide +kernel⟩,
   ⟨mkS fun d =>
      withWord 1 (0x482436d) (((({ d with mem := [(0x08080200, 0x81), (0x08080201, 0x92), (0x08080202, 0xA3), (0x08080203, 0xB4), (0x08080204, 0xC5), (0x08080207, 0xD6)] }.setReg SUPPLY.DOM_STATUS_0 0xFFFFFFFF).setFld MEMCTL.SRAM_STATUS_READY 255).setFld (CORES.CORE_STATUS_STATE 1) 2).putCore 1 { pc := 0x100, g := [(3, 0x11223344), (4, 0x200), (5, 0x8), (6, 0x80F1A2B3), (7, 0x99887766), (8, 0x201)], f := [(4, 0xFFFFFFFF40490FDB), (5, 0xFFFFFFFF7F7FFFFF), (6, 0xFFFFFFFF00000001), (7, 0x3FF123456789ABCD), (8, 0x7FF0000000000001)] }), 1, 0x482436d, .post 1, 6, 4, 0x08080200, by decide +kernel⟩,
   ⟨mkS fun d =>
      withWord 1 (0x4c2436b) (((({ d with mem := [(0x08080200, 0x81), (0x08080201, 0x92), (0x08080202, 0xA3), (0x08080203, 0xB4), (0x08080204, 0xC5), (0x08080207, 0xD6)] }.setReg SUPPLY.DOM_STATUS_0 0xFFFFFFFF).setFld MEMCTL.SRAM_STATUS_READY 255).setFld (CORES.CORE_STATUS_STATE 1) 2).putCore 1 { pc := 0x100, g := [(3, 0x11223344), (4, 0x200), (5, 0x8), (6, 0x80F1A2B3), (7, 0x99887766), (8, 0x201)], f := [(4, 0xFFFFFFFF40490FDB), (5, 0xFFFFFFFF7F7FFFFF), (6, 0xFFFFFFFF00000001), (7, 0x3FF123456789ABCD), (8, 0x7FF0000000000001)] }), 1, 0x4c2436b, .post 1, 6, 4, 0x08080200, by decide +kernel⟩,
   ⟨mkS fun d =>
      withWord 1 (0x4c2436d) (((({ d with mem := [(0x08080200, 0x81), (0x08080201, 0x92), (0x08080202, 0xA3), (0x08080203, 0xB4), (0x08080204, 0xC5), (0x08080207, 0xD6)] }.setReg SUPPLY.DOM_STATUS_0 0xFFFFFFFF).setFld MEMCTL.SRAM_STATUS_READY 255).setFld (CORES.CORE_STATUS_STATE 1) 2).putCore 1 { pc := 0x100, g := [(3, 0x11223344), (4, 0x200), (5, 0x8), (6, 0x80F1A2B3), (7, 0x99887766), (8, 0x201)], f := [(4, 0xFFFFFFFF40490FDB), (5, 0xFFFFFFFF7F7FFFFF), (6, 0xFFFFFFFF00000001), (7, 0x3FF123456789ABCD), (8, 0x7FF0000000000001)] }), 1, 0x4c2436d, .post 1, 6, 4, 0x08080200, by decide +kernel⟩⟩

/-- The hypotheses of clauses 1 to 11 of CoreMemoryAnswers are met. -/
theorem witness_CoreMemoryAnswers_1 :
    (∃ (s : State) (c : Fin 4) (q : SbEntry) (t : List SbEntry), (s.dev.core c).sb = q :: t ∧
      (s.dev.lockstep c = false ∨ s.dev.memCode q.addr = some c.val) ∧
      (s.dev.memCode q.addr = some c.val ∨ s.dev.tcmTwins q.addr = [q.addr]) ∧ s.dev.sbAccepts c q = true ∧ q.addr % 8 = 0 ∧ s.dev.ecc = [] ∧
      s.dev.lgDram = false ∧ s.dev.calm c = true) ∧
    (∃ (s : State) (c : Fin 4) (q : SbEntry) (t : List SbEntry), (s.dev.core c).sb = q :: t ∧ s.dev.lockstep c = false ∧
      s.dev.sbAccepts c q = false ∧ q.kind = .plain ∧ s.dev.canEnter c 6 = true ∧ s.dev.calm c = true ∧ s.dev.between c = true) ∧
    (∃ (s : State) (c : Fin 4), (s.dev.core c).sb = []) ∧
    (∃ (s : State) (c : Fin 4) (q : MemReq) (p rd : Nat) (bs : List Byte) (e : Dev), (s.dev.core c).req = some q ∧ (s.dev.core c).lost = none ∧
      q.sent = false ∧ q.amo = none ∧ s.dev.lockstep c = false ∧ s.dev.coreState c = 2 ∧ s.dev.place c q.addr = .ordered p ∧ q.data = none ∧
      q.dest = .g rd false 2 ∧ q.upd = none ∧ bs.length = 4 ∧ s.dev.begun.busRead 1 (s.dev.coreAgent c) p q.len = (.done bs, e) ∧
      e.calm c = true ∧ (e.core c).req = some q ∧ e.coreState c = 2 ∧ e.lockstep c = false) ∧
    (∃ (s : State) (c : Fin 4) (q : MemReq) (p : Nat) (v : DWord) (e : Dev), (s.dev.core c).req = some q ∧ (s.dev.core c).lost = none ∧
      q.sent = false ∧ q.amo = none ∧ s.dev.lockstep c = false ∧ s.dev.coreState c = 2 ∧ s.dev.place c q.addr = .ordered p ∧
      q.data = some v ∧ q.dest = .none ∧ q.upd = none ∧ s.dev.begun.busWrite (s.dev.coreAgent c) p (toBytes q.len v.toNat) = (.done [], e) ∧
      e.calm c = true ∧ (e.core c).req = some q ∧ e.coreState c = 2 ∧ e.lockstep c = false) ∧
    (∃ (s : State) (c : Fin 4) (q : MemReq) (p : Nat), (s.dev.core c).req = some q ∧ (s.dev.core c).lost = none ∧ q.sent = false ∧
      q.amo = none ∧ s.dev.lockstep c = false ∧ s.dev.coreState c = 2 ∧ s.dev.place c q.addr = .ordered p ∧ q.data = none ∧
      s.dev.begun.busRead 1 (s.dev.coreAgent c) p q.len = (.abort, s.dev.begun) ∧ s.dev.canEnter c 6 = true) ∧
    (∃ (s : State) (c : Fin 4) (g : AgentId) (q : MemReq) (p : Nat), (s.dev.core c).lost = some (g, q) ∧ q.sent = false ∧ q.amo = none ∧
      q.data = none ∧ s.dev.place c q.addr = .ordered p) ∧
    (∃ (s : State) (c : Fin 4), (s.dev.core c).lost = none ∧
      ((s.dev.core c).req = none ∨ s.dev.coreState c = 0 ∨ s.dev.coreState c = 5 ∨ s.dev.lockstep c = true)) ∧
    (∃ (s : State) (p : Fin 2) (q r : MemReq), (s.dev.core (2 * p.val)).req = some q ∧ (s.dev.core (2 * p.val + 1)).req = some r ∧
      s.dev.lockstep (2 * p.val) = true ∧ (s.dev.pair p.val).declared = none ∧
      (s.dev.core (2 * p.val)).retired = (s.dev.core (2 * p.val + 1)).retired ∧ q.same r = false) ∧
    (∃ (s : State) (p : Fin 2) (q r : MemReq) (a rd : Nat) (bs : List Byte) (e : Dev), (s.dev.core (2 * p.val)).req = some q ∧
      (s.dev.core (2 * p.val + 1)).req = some r ∧ s.dev.lockstep (2 * p.val) = true ∧ (s.dev.pair p.val).declared = none ∧
      (s.dev.core (2 * p.val)).retired = (s.dev.core (2 * p.val + 1)).retired ∧ q.same r = true ∧ q.sent = false ∧ q.amo = none ∧
      q.data = none ∧ q.dest = .g rd false 2 ∧ r.dest = .g rd false 2 ∧ q.upd = none ∧ r.upd = none ∧ rd < 30 ∧ bs.length = 4 ∧
      s.dev.place (2 * p.val) q.addr = .ordered a ∧ s.dev.begun.busRead 1 (s.dev.coreAgent (2 * p.val)) a q.len = (.done bs, e) ∧
      inPeripherals a = true ∧ s.dev.calm (2 * p.val) = true ∧ s.dev.calm (2 * p.val + 1) = true ∧ s.dev.coreState (2 * p.val) = 2 ∧
      s.dev.coreState (2 * p.val + 1) = 2) ∧
    (∃ (s : State) (c : Fin 4) (en : Bool), s.dev.coreState c = 2 ∧ (s.dev.core c).pl ≠ 0 ∧ s.dev.lockstep c = false ∧
      (s.dev.core c).sb.length ≤ 8 ∧ (s.dev.core c).sb.all (s.dev.sbAccepts c) = true) :=
  ⟨⟨mkS fun d =>
      ((({ d with mem := [(0x08080305, 9), (0x08080307, 8)] }.setReg SUPPLY.DOM_STATUS_0 0xFFFFFFFF).setFld MEMCTL.SRAM_STATUS_READY 255).setFld (CORES.CORE_STATUS_STATE 1) 2).putCore 1 { pc := 0x100, g := [(3, 0x11223344), (4, 0x200), (5, 0x8), (6, 0x80F1A2B3), (7, 0x99887766), (8, 0x201)], sb := [{ core := 0x300, addr := 0x08080300, mask := 0x6F, data := 0x12345678, count := 0 }] }, 1, { core := 0x300, addr := 0x08080300, mask := 0x6F, data := 0x12345678, count := 0 }, [], by decide +kernel⟩,
   ⟨mkS fun d =>
      (((d.setReg SUPPLY.DOM_STATUS_0 0xFFFFFFFF).setFld MEMCTL.SRAM_STATUS_READY 255).setFld (CORES.CORE_STATUS_STATE 1) 2).putCore 1 { pc := 0x100, g := [(3, 0x11223344), (4, 0x200), (5, 0x8), (6, 0x80F1A2B3), (7, 0x99887766), (8, 0x201)], status := 5, spKernel := 0x8000, sys := [(0x118, 0x8000)], sb := [{ core := 0x0F000000, addr := 0x0F000000, mask := 0xF, data := 0x12345678, count := 0 }] }, 1, { core := 0x0F000000, addr := 0x0F000000, mask := 0xF, data := 0x12345678, count := 0 }, [], by decide +kernel⟩,
   ⟨mkS fun d => d, 1, by decide +kernel⟩,
   ⟨mkS fun d =>
      ((((d.setReg (PROTECT.BLK_PERM 0) 0xFFFFFFFF).setReg SUPPLY.DOM_STATUS_0 0xFFFFFFFF).setFld MEMCTL.SRAM_STATUS_READY 255).setFld (CORES.CORE_STATUS_STATE 1) 2).putCore 1 { pc := 0x100, g := [(3, 0x11223344), (4, 0x200), (5, 0x8), (6, 0x80F1A2B3), (7, 0x99887766), (8, 0x201)], req := some { addr := 0x40000010, len := 4, dest := .g 3 false 2, since := 0 } }, 1, { addr := 0x40000010, len := 4, dest := .g 3 false 2, since := 0 }, 0x40000010, 3, [0, 0, 0, 0], ((mkS fun d =>
      ((((d.setReg (PROTECT.BLK_PERM 0) 0xFFFFFFFF).setReg SUPPLY.DOM_STATUS_0 0xFFFFFFFF).setFld MEMCTL.SRAM_STATUS_READY 255).setFld (CORES.CORE_STATUS_STATE 1) 2).putCore 1 { pc := 0x100, g := [(3, 0x11223344), (4, 0x200), (5, 0x8), (6, 0x80F1A2B3), (7, 0x99887766), (8, 0x201)], req := some { addr := 0x40000010, len := 4, dest := .g 3 false 2, since := 0 } }).dev.begun.busRead 1 0x0101 0x40000010 4).2, by decide +kernel⟩,
   ⟨mkS fun d =>
      ((((d.setReg (PROTECT.BLK_PERM 0) 0xFFFFFFFF).setReg SUPPLY.DOM_STATUS_0 0xFFFFFFFF).setFld MEMCTL.SRAM_STATUS_READY 255).setFld (CORES.CORE_STATUS_STATE 1) 2).putCore 1 { pc := 0x100, g := [(3, 0x11223344), (4, 0x200), (5, 0x8), (6, 0x80F1A2B3), (7, 0x99887766), (8, 0x201)], req := some { addr := 0x40000020, len := 4, data := some 1, since := 0 } }, 1, { addr := 0x40000020, len := 4, data := some 1, since := 0 }, 0x40000020, 1, ((mkS fun d =>
      ((((d.setReg (PROTECT.BLK_PERM 0) 0xFFFFFFFF).setReg SUPPLY.DOM_STATUS_0 0xFFFFFFFF).setFld MEMCTL.SRAM_STATUS_READY 255).setFld (CORES.CORE_STATUS_STATE 1) 2).putCore 1 { pc := 0x100, g := [(3, 0x11223344), (4, 0x200), (5, 0x8), (6, 0x80F1A2B3), (7, 0x99887766), (8, 0x201)], req := some { addr := 0x40000020, len := 4, data := some 1, since := 0 } }).dev.begun.busWrite 0x0101 0x40000020 [1, 0, 0, 0]).2, by decide +kernel⟩,
   ⟨mkS fun d =>
      (((d.setReg SUPPLY.DOM_STATUS_0 0xFFFFFFFF).setFld MEMCTL.SRAM_STATUS_READY 255).setFld (CORES.CORE_STATUS_STATE 1) 2).putCore 1 { pc := 0x100, g := [(3, 0x11223344), (4, 0x200), (5, 0x8), (6, 0x80F1A2B3), (7, 0x99887766), (8, 0x201)], status := 5, spKernel := 0x8000, sys := [(0x118, 0x8000)], req := some { addr := 0x40F00010, len := 4, dest := .g 3 false 2, since := 0 } }, 1, { addr := 0x40F00010, len := 4, dest := .g 3 false 2, since := 0 }, 0x40F00010, by decide +kernel⟩,
   ⟨mkS fun d =>
      (((((d.setReg (PROTECT.BLK_PERM 0) 0xFFFFFFFF).setReg SUPPLY.DOM_STATUS_0 0xFFFFFFFF).setFld MEMCTL.SRAM_STATUS_READY 255).setFld (CORES.CORE_STATUS_STATE 1) 2).putCore 1 { pc := 0x100, g := [(3, 0x11223344), (4, 0x200), (5, 0x8), (6, 0x80F1A2B3), (7, 0x99887766), (8, 0x201)], lost := some (0x101, { addr := 0x40000010, len := 4, dest := .g 3 false 2, since := 0 }) }).setFld (CORES.CORE_STATUS_STATE 1) 5, 1, 0x101, { addr := 0x40000010, len := 4, dest := .g 3 false 2, since := 0 }, 0x40000010, by decide +kernel⟩,
   ⟨mkS fun d => d, 1, by decide +kernel⟩,
   ⟨mkS fun d =>
      ((((((d.setFld (CORES.CORE_STATUS_STATE 0) 2).setFld (CORES.CORE_STATUS_STATE 1) 2).setFld (CORES.CORE_STATUS_LOCKSTEP 0) 1).setFld (CORES.CORE_STATUS_LOCKSTEP 1) 1).setReg SUPPLY.DOM_STATUS_0 0xFFFFFFFF).putCore 0 { req := some { addr := 0x40000010, len := 4, dest := .g 3 false 2, since := 0 } }).putCore 1 { req := some { addr := 0x40000020, len := 4, data := some 1, since := 0 } }, 0, { addr := 0x40000010, len := 4, dest := .g 3 false 2, since := 0 }, { addr := 0x40000020, len := 4, data := some 1, since := 0 }, by decide +kernel⟩,
   ⟨mkS fun d =>
      (((((((d.setReg (PROTECT.BLK_PERM 0) 0xFFFFFFFF).setFld (CORES.CORE_STATUS_STATE 0) 2).setFld (CORES.CORE_STATUS_STATE 1) 2).setFld (CORES.CORE_STATUS_LOCKSTEP 0) 1).setFld (CORES.CORE_STATUS_LOCKSTEP 1) 1).setReg SUPPLY.DOM_STATUS_0 0xFFFFFFFF).putCore 0 { req := some { addr := 0x40000010, len := 4, dest := .g 3 false 2, since := 0 } }).putCore 1 { req := some { addr := 0x40000010, len := 4, dest := .g 3 false 2, since := 0 } }, 0, { addr := 0x40000010, len := 4, dest := .g 3 false 2, since := 0 }, { addr := 0x40000010, len := 4, dest := .g 3 false 2, since := 0 }, 0x40000010, 3, [0, 0, 0, 0], ((mkS fun d =>
      (((((((d.setReg (PROTECT.BLK_PERM 0) 0xFFFFFFFF).setFld (CORES.CORE_STATUS_STATE 0) 2).setFld (CORES.CORE_STATUS_STATE 1) 2).setFld (CORES.CORE_STATUS_LOCKSTEP 0) 1).setFld (CORES.CORE_STATUS_LOCKSTEP 1) 1).setReg SUPPLY.DOM_STATUS_0 0xFFFFFFFF).putCore 0 { req := some { addr := 0x40000010, len := 4, dest := .g 3 false 2, since := 0 } }).putCore 1 { req := some { addr := 0x40000010, len := 4, dest := .g 3 false 2, since := 0 } }).dev.begun.busRead 1 0x0110 0x40000010 4).2, by decide +kernel⟩,
   ⟨mkS fun d =>
      (((d.setReg SUPPLY.DOM_STATUS_0 0xFFFFFFFF).setFld MEMCTL.SRAM_STATUS_READY 255).setFld (CORES.CORE_STATUS_STATE 1) 2).putCore 1 { pc := 0x100, g := [(3, 0x11223344), (4, 0x200), (5, 0x8), (6, 0x80F1A2B3), (7, 0x99887766), (8, 0x201)], cache := [{ no := 5, bytes := [] }], lineBuf := [{ no := 5, bytes := [] }], sb := [{ core := 0x300, addr := 0x08080300, mask := 0xF, data := 0x12345678, count := 0 }] }, 1, false, by decide +kernel⟩⟩

/-- The hypotheses of clauses 12 to 23 of CoreMemoryAnswers are met. -/
theorem witness_CoreMemoryAnswers_12 :
    (∃ (s : State) (c : Fin 4) (en : Bool), (s.dev.coreState c = 4 ∨ s.dev.coreState c = 2 ∧ (s.dev.core c).sb = []) ∧ (s.dev.core c).pl ≠ 0 ∧
      s.dev.lockstep c = false) ∧
    (∃ (s : State) (c : Fin 4) (en : Bool), (s.dev.coreState c = 4 ∨ s.dev.coreState c = 2 ∧ (s.dev.core c).sb = []) ∧ (s.dev.core c).pl ≠ 0 ∧
      s.dev.lockstep c = true ∧ (s.dev.coreState c = 4 ∨ (s.dev.core (partner c)).sb = [])) ∧
    (∃ (s : State) (c : Fin 4) (en : Bool), ((s.dev.core c).pl = 0 ∨ (s.dev.coreState c ≠ 2 ∧ s.dev.coreState c ≠ 4))) ∧
    (∃ (s : State) (c : Fin 4) (en user : Bool), s.dev.coreState c = 2 ∧ (s.dev.core c).pl ≠ 0 ∧ s.dev.lockstep c = false ∧
      (s.dev.core c).sb.length ≤ 8 ∧ (s.dev.core c).sb.all (s.dev.sbAccepts c) = true) ∧
    (∃ (s : State) (c : Fin 4) (en user : Bool), (s.dev.coreState c = 4 ∨ s.dev.coreState c = 2 ∧ (s.dev.core c).sb = []) ∧
      (s.dev.core c).pl ≠ 0 ∧ s.dev.lockstep c = false) ∧
    (∃ (s : State) (c : Fin 4) (en user : Bool), (s.dev.coreState c = 4 ∨ s.dev.coreState c = 2 ∧ (s.dev.core c).sb = []) ∧
      (s.dev.core c).pl ≠ 0 ∧ s.dev.lockstep c = true ∧ (s.dev.coreState c = 4 ∨ (s.dev.core (partner c)).sb = [])) ∧
    (∃ (s : State) (c : Fin 4) (en user : Bool), ((s.dev.core c).pl = 0 ∨ (s.dev.coreState c ≠ 2 ∧ s.dev.coreState c ≠ 4))) ∧
    (∃ (s : State) (c : Fin 4) (hi : Bool) (v : Word), s.dev.coreState c = 2 ∧ (s.dev.core c).pl ≠ 0 ∧ s.dev.lockstep c = false ∧
      (s.dev.core c).sb.length ≤ 8 ∧ (s.dev.core c).sb.all (s.dev.sbAccepts c) = true) ∧
    (∃ (s : State) (c : Fin 4) (hi : Bool) (v : Word), (s.dev.coreState c = 4 ∨ s.dev.coreState c = 2 ∧ (s.dev.core c).sb = []) ∧
      (s.dev.core c).pl ≠ 0 ∧ s.dev.lockstep c = false) ∧
    (∃ (s : State) (c : Fin 4) (hi : Bool) (v : Word), (s.dev.coreState c = 4 ∨ s.dev.coreState c = 2 ∧ (s.dev.core c).sb = []) ∧
      (s.dev.core c).pl ≠ 0 ∧ s.dev.lockstep c = true ∧ (s.dev.coreState c = 4 ∨ (s.dev.core (partner c)).sb = [])) ∧
    (∃ (s : State) (c : Fin 4) (hi : Bool) (v : Word), ((s.dev.core c).pl = 0 ∨ (s.dev.coreState c ≠ 2 ∧ s.dev.coreState c ≠ 4))) ∧
    (∃ (s : State) (c : Fin 4) (hi : Bool) (v : Word), s.dev.coreState c = 2 ∧ (s.dev.core c).pl ≠ 0 ∧ s.dev.lockstep c = false ∧
      (s.dev.core c).sb.length ≤ 8 ∧ (s.dev.core c).sb.all (s.dev.sbAccepts c) = true) :=
  ⟨⟨mkS fun d =>
      (((d.setReg SUPPLY.DOM_STATUS_0 0xFFFFFFFF).setFld MEMCTL.SRAM_STATUS_READY 255).setFld (CORES.CORE_STATUS_STATE 1) 2).putCore 1 { pc := 0x100, g := [(3, 0x11223344), (4, 0x200), (5, 0x8), (6, 0x80F1A2B3), (7, 0x99887766), (8, 0x201)], cache := [{ no := 5, bytes := [] }], lineBuf := [{ no := 5, bytes := [] }] }, 1, false, by decide +kernel⟩,
   ⟨mkS fun d =>
      ((((((d.setFld (CORES.CORE_STATUS_STATE 0) 2).setFld (CORES.CORE_STATUS_STATE 1) 2).setFld (CORES.CORE_STATUS_LOCKSTEP 0) 1).setFld (CORES.CORE_STATUS_LOCKSTEP 1) 1).setReg SUPPLY.DOM_STATUS_0 0xFFFFFFFF).putCore 0 { cache := [{ no := 5, bytes := [] }], lineBuf := [{ no := 5, bytes := [] }] }).putCore 1 { cache := [{ no := 5, bytes := [] }], lineBuf := [{ no := 5, bytes := [] }] }, 1, false, by decide +kernel⟩,
   ⟨mkS fun d => d, 1, false, by decide +kernel⟩,
   ⟨mkS fun d =>
      (((d.setReg SUPPLY.DOM_STATUS_0 0xFFFFFFFF).setFld MEMCTL.SRAM_STATUS_READY 255).setFld (CORES.CORE_STATUS_STATE 1) 2).putCore 1 { pc := 0x100, g := [(3, 0x11223344), (4, 0x200), (5, 0x8), (6, 0x80F1A2B3), (7, 0x99887766), (8, 0x201)], sys := [(0x48, 7), (0x64, 9)], sb := [{ core := 0x300, addr := 0x08080300, mask := 0xF, data := 0x12345678, count := 0 }] }, 1, false, true, by decide +kernel⟩,
   ⟨mkS fun d =>
      (((d.setReg SUPPLY.DOM_STATUS_0 0xFFFFFFFF).setFld MEMCTL.SRAM_STATUS_READY 255).setFld (CORES.CORE_STATUS_STATE 1) 2).putCore 1 { pc := 0x100, g := [(3, 0x11223344), (4, 0x200), (5, 0x8), (6, 0x80F1A2B3), (7, 0x99887766), (8, 0x201)], sys := [(0x48, 7), (0x64, 9)] }, 1, false, true, by decide +kernel⟩,
   ⟨mkS fun d =>
      ((((((d.setFld (CORES.CORE_STATUS_STATE 0) 2).setFld (CORES.CORE_STATUS_STATE 1) 2).setFld (CORES.CORE_STATUS_LOCKSTEP 0) 1).setFld (CORES.CORE_STATUS_LOCKSTEP 1) 1).setReg SUPPLY.DOM_STATUS_0 0xFFFFFFFF).putCore 0 { sys := [(0x48, 7), (0x64, 9)] }).putCore 1 { sys := [(0x48, 7), (0x64, 9)] }, 1, false, true, by decide +kernel⟩,
   ⟨mkS fun d => d, 1, false, true, by decide +kernel⟩,
   ⟨mkS fun d =>
      (((d.setReg SUPPLY.DOM_STATUS_0 0xFFFFFFFF).setFld MEMCTL.SRAM_STATUS_READY 255).setFld (CORES.CORE_STATUS_STATE 1) 2).putCore 1 { pc := 0x100, g := [(3, 0x11223344), (4, 0x200), (5, 0x8), (6, 0x80F1A2B3), (7, 0x99887766), (8, 0x201)], sys := [(0x144, 7)], sb := [{ core := 0x300, addr := 0x08080300, mask := 0xF, data := 0x12345678, count := 0 }] }, 1, true, 6, by decide +kernel⟩,
   ⟨mkS fun d =>
      (((d.setReg SUPPLY.DOM_STATUS_0 0xFFFFFFFF).setFld MEMCTL.SRAM_STATUS_READY 255).setFld (CORES.CORE_STATUS_STATE 1) 2).putCore 1 { pc := 0x100, g := [(3, 0x11223344), (4, 0x200), (5, 0x8), (6, 0x80F1A2B3), (7, 0x99887766), (8, 0x201)], sys := [(0x144, 7)] }, 1, true, 6, by decide +kernel⟩,
   ⟨mkS fun d =>
      ((((((d.setFld (CORES.CORE_STATUS_STATE 0) 2).setFld (CORES.CORE_STATUS_STATE 1) 2).setFld (CORES.CORE_STATUS_LOCKSTEP 0) 1).setFld (CORES.CORE_STATUS_LOCKSTEP 1) 1).setReg SUPPLY.DOM_STATUS_0 0xFFFFFFFF).putCore 0 { sys := [(0x144, 7)] }).putCore 1 { sys := [(0x144, 7)] }, 1, true, 6, by decide +kernel⟩,
   ⟨mkS fun d => d, 1, true, 6, by decide +kernel⟩,
   ⟨mkS fun d =>
      (((d.setReg SUPPLY.DOM_STATUS_0 0xFFFFFFFF).setFld MEMCTL.SRAM_STATUS_READY 255).setFld (CORES.CORE_STATUS_STATE 1) 2).putCore 1 { pc := 0x100, g := [(3, 0x11223344), (4, 0x200), (5, 0x8), (6, 0x80F1A2B3), (7, 0x99887766), (8, 0x201)], sys := [(0x144, 1)], sb := [{ core := 0x300, addr := 0x08080300, mask := 0xF, data := 0x12345678, count := 0 }] }, 1, true, 6, by decide +kernel⟩⟩

/-- The hypotheses of clauses 24 to 26 of CoreMemoryAnswers are met. -/
theorem witness_CoreMemoryAnswers_24 :
    (∃ (s : State) (c : Fin 4) (hi : Bool) (v : Word), (s.dev.coreState c = 4 ∨ s.dev.coreState c = 2 ∧ (s.dev.core c).sb = []) ∧
      (s.dev.core c).pl ≠ 0 ∧ s.dev.lockstep c = false) ∧
    (∃ (s : State) (c : Fin 4) (hi : Bool) (v : Word), (s.dev.coreState c = 4 ∨ s.dev.coreState c = 2 ∧ (s.dev.core c).sb = []) ∧
      (s.dev.core c).pl ≠ 0 ∧ s.dev.lockstep c = true ∧ (s.dev.coreState c = 4 ∨ (s.dev.core (partner c)).sb = [])) ∧
    (∃ (s : State) (c : Fin 4) (hi : Bool) (v : Word), ((s.dev.core c).pl = 0 ∨ (s.dev.coreState c ≠ 2 ∧ s.dev.coreState c ≠ 4))) :=
  ⟨⟨mkS fun d =>
      (((d.setReg SUPPLY.DOM_STATUS_0 0xFFFFFFFF).setFld MEMCTL.SRAM_STATUS_READY 255).setFld (CORES.CORE_STATUS_STATE 1) 2).putCore 1 { pc := 0x100, g := [(3, 0x11223344), (4, 0x200), (5, 0x8), (6, 0x80F1A2B3), (7, 0x99887766), (8, 0x201)], sys := [(0x144, 1)] }, 1, true, 6, by decide +kernel⟩,
   ⟨mkS fun d =>
      ((((((d.setFld (CORES.CORE_STATUS_STATE 0) 2).setFld (CORES.CORE_STATUS_STATE 1) 2).setFld (CORES.CORE_STATUS_LOCKSTEP 0) 1).setFld (CORES.CORE_STATUS_LOCKSTEP 1) 1).setReg SUPPLY.DOM_STATUS_0 0xFFFFFFFF).putCore 0 { sys := [(0x144, 1)] }).putCore 1 { sys := [(0x144, 1)] }, 1, true, 6, by decide +kernel⟩,
   ⟨mkS fun d => d, 1, true, 6, by decide +kernel⟩⟩

/-- The hypotheses of clauses 1 to 12 of CoreEvents are met. -/
theorem witness_CoreEvents_1 :
    (∃ (s : State) (c : Fin 4) (l : Nat), s.dev.lockstep c = false ∧ s.dev.coreState c = 2 ∧ (s.dev.core c).req = none ∧
      (s.dev.core c).joinSince = none ∧ (s.dev.core c).eligible = some l ∧ s.dev.canEnter c (16 + l) = true) ∧
    (∃ (s : State) (c : Fin 4) (l : Nat) (t : Time), s.dev.lockstep c = false ∧ s.dev.coreState c = 2 ∧ (s.dev.core c).req = none ∧
      (s.dev.core c).joinSince = some t ∧ (s.dev.core c).eligible = some l ∧ s.dev.canEnter c (16 + l) = true ∧ s.dev.calm c = true ∧
      (s.dev.core c).pl ≠ 0) ∧
    (∃ (s : State) (c : Fin 4), s.dev.lockstep c = false ∧ (s.dev.core c).eligible = none) ∧
    (∃ (s : State) (c : Fin 4) (l : Nat), s.dev.lockstep c = true ∧ (s.dev.pair (c.val / 2)).declared = none ∧
      (s.dev.pair (c.val / 2)).decide_ = none ∧ (s.dev.core c).eligible = some l) ∧
    (∃ (s : State) (c : Fin 4) (l n : Nat), s.dev.lockstep c = true ∧ (s.dev.pair (c.val / 2)).declared = none ∧
      (s.dev.pair (c.val / 2)).decide_ = some (.line, n) ∧ (s.dev.pair (c.val / 2)).acted = [] ∧ n ≤ (s.dev.core c).retired ∧
      s.dev.between c = true ∧ (s.dev.core c).eligible = some l ∧ s.dev.canEnter c (16 + l) = true) ∧
    (∃ (s : State) (c : Fin 4) (l n : Nat), s.dev.lockstep c = true ∧ (s.dev.pair (c.val / 2)).declared = none ∧
      (s.dev.pair (c.val / 2)).decide_ = some (.line, n) ∧ (s.dev.pair (c.val / 2)).acted = [partner c] ∧
      (s.dev.pair (c.val / 2)).chosen = some l ∧ n ≤ (s.dev.core c).retired ∧ s.dev.between c = true ∧ s.dev.canEnter c (16 + l) = true) ∧
    (∃ (s : State) (c : Fin 4), s.dev.lockstep c = false ∧ s.dev.coreState c = 3 ∧
      (s.dev.core c).bestLine (s.dev.core c).runPri true false ≠ none ∧ (s.dev.core c).busErr = [] ∧ (s.dev.core c).escDue = none ∧
      (s.dev.core c).eligible = none) ∧
    (∃ (s : State) (c : Fin 4) (l : Nat), s.dev.lockstep c = false ∧ s.dev.coreState c = 3 ∧
      (s.dev.core c).bestLine (s.dev.core c).runPri true false ≠ none ∧ (s.dev.core c).busErr = [] ∧ (s.dev.core c).escDue = none ∧
      (s.dev.core c).eligible = some l ∧ s.dev.canEnter c (16 + l) = true) ∧
    (∃ (s : State) (c : Fin 4) (t : Time), s.dev.lockstep c = false ∧ (s.dev.core c).atom = some t ∧ s.dev.due t = true ∧
      s.dev.between c = true ∧ s.dev.canEnter c 11 = true) ∧
    (∃ (s : State) (c : Fin 4) (w : Word) (k r : Nat) (t : List (Nat × Nat)) (p l : Nat), s.dev.runs c w = true ∧ decodeW w = .rete ∧
      ((s.dev.fetched c w).core c).pl = 1 ∧ ((s.dev.fetched c w).core c).entries = (k, r) :: t ∧
      ((s.dev.fetched c w).core c).frameValid (((s.dev.fetched c w).core c).rg 30 + 32) = true ∧
      frameAddr c (((s.dev.fetched c w).core c).rg 30) = p ∧ (s.dev.fetched c w).ecc = [] ∧ ((s.dev.fetched c w).core c).sb = [] ∧
      (s.dev.fetched c w).lockstep c = false ∧ (s.dev.fetched c w).memMapped p 32 = true ∧ p < 0x10000000 ∧
      (s.dev.fetched c w).le p 4 % 2 = 0 ∧ ((s.dev.fetched c w).le (p + 4) 4) % 4 ≤ k ∧
      ((s.dev.fetched c w).core c).bestLine r (wordBit (BitVec.ofNat 32 ((s.dev.fetched c w).le (p + 4) 4)) 2) true = some l) ∧
    (∃ (s : State) (p : Fin 2), (s.dev.core (2 * p.val)).parting = true ∧ (s.dev.core (2 * p.val + 1)).parting = true ∧
      s.dev.lockstep (2 * p.val) = true ∧ s.dev.coreState (2 * p.val) = 2 ∧ s.dev.coreState (2 * p.val + 1) = 2 ∧
      (s.dev.core (2 * p.val)).retired = (s.dev.core (2 * p.val + 1)).retired ∧ (s.dev.pair p.val).declared = none ∧
      (s.dev.core (2 * p.val)).sb = [] ∧ (s.dev.core (2 * p.val + 1)).sb = [] ∧ s.dev.calm (2 * p.val) = true ∧
      s.dev.calm (2 * p.val + 1) = true ∧ (s.dev.core (2 * p.val)).pl ≠ 0 ∧ (s.dev.core (2 * p.val + 1)).pl ≠ 0 ∧
      (s.dev.core (2 * p.val)).unmatched = [] ∧ (s.dev.core (2 * p.val + 1)).unmatched = []) ∧
    (∃ (s : State) (p : Fin 2), (s.dev.core (2 * p.val)).joinSince.isSome = true ∧ (s.dev.core (2 * p.val + 1)).joinSince.isSome = true ∧
      (s.dev.core (2 * p.val)).sb = [] ∧ (s.dev.core (2 * p.val + 1)).sb = [] ∧ s.dev.calm (2 * p.val) = true ∧
      s.dev.calm (2 * p.val + 1) = true ∧ (s.dev.core (2 * p.val)).pl ≠ 0 ∧ (s.dev.core (2 * p.val + 1)).pl ≠ 0 ∧
      s.dev.coreState (2 * p.val) = 2 ∧ s.dev.coreState (2 * p.val + 1) = 2 ∧ s.dev.lockstep (2 * p.val) = false ∧
      s.dev.lockstep (2 * p.val + 1) = false ∧ Tab.wf 0 s.dev.mem = true) :=
  ⟨⟨mkS fun d =>
      (((d.setReg SUPPLY.DOM_STATUS_0 0xFFFFFFFF).setFld MEMCTL.SRAM_STATUS_READY 255).setFld (CORES.CORE_STATUS_STATE 1) 2).putCore 1 { pc := 0x100, g := [(3, 0x11223344), (4, 0x200), (5, 0x8), (6, 0x80F1A2B3), (7, 0x99887766), (8, 0x201)], status := 5, spKernel := 0x8000, sys := [(0x118, 0x8000), (0x140, 32), (0x214, 0x80000006)] }, 1, 5, by decide +kernel⟩,
   ⟨mkS fun d =>
      (((d.setReg SUPPLY.DOM_STATUS_0 0xFFFFFFFF).setFld MEMCTL.SRAM_STATUS_READY 255).setFld (CORES.CORE_STATUS_STATE 1) 2).putCore 1 { pc := 0x100, g := [(3, 0x11223344), (4, 0x200), (5, 0x8), (6, 0x80F1A2B3), (7, 0x99887766), (8, 0x201)], status := 5, spKernel := 0x8000, sys := [(0x118, 0x8000), (0x140, 32), (0x214, 0x80000006)], joinSince := some 0 }, 1, 5, 0, by decide +kernel⟩,
   ⟨mkS fun d => d, 1, by decide +kernel⟩,
   ⟨mkS fun d =>
      ((((((d.setFld (CORES.CORE_STATUS_STATE 0) 2).setFld (CORES.CORE_STATUS_STATE 1) 2).setFld (CORES.CORE_STATUS_LOCKSTEP 0) 1).setFld (CORES.CORE_STATUS_LOCKSTEP 1) 1).setReg SUPPLY.DOM_STATUS_0 0xFFFFFFFF).putCore 0 { status := 5, spKernel := 0x8000, sys := [(0x118, 0x8000), (0x140, 32), (0x214, 0x80000006)] }).putCore 1 { status := 5, spKernel := 0x8000, sys := [(0x118, 0x8000), (0x140, 32), (0x214, 0x80000006)] }, 1, 5, by decide +kernel⟩,
   ⟨mkS fun d =>
      (((((((d.setFld (CORES.CORE_STATUS_STATE 0) 2).setFld (CORES.CORE_STATUS_STATE 1) 2).setFld (CORES.CORE_STATUS_LOCKSTEP 0) 1).setFld (CORES.CORE_STATUS_LOCKSTEP 1) 1).setReg SUPPLY.DOM_STATUS_0 0xFFFFFFFF).putCore 0 { status := 5, spKernel := 0x8000, sys := [(0x118, 0x8000), (0x140, 32), (0x214, 0x80000006)], retired := 3 }).putCore 1 { status := 5, spKernel := 0x8000, sys := [(0x118, 0x8000), (0x140, 32), (0x214, 0x80000006)], retired := 3 }).putPair 0 { decide_ := some (.line, 3) }, 1, 5, 3, by decide +kernel⟩,
   ⟨mkS fun d =>
      (((((((d.setFld (CORES.CORE_STATUS_STATE 0) 2).setFld (CORES.CORE_STATUS_STATE 1) 2).setFld (CORES.CORE_STATUS_LOCKSTEP 0) 1).setFld (CORES.CORE_STATUS_LOCKSTEP 1) 1).setReg SUPPLY.DOM_STATUS_0 0xFFFFFFFF).putCore 0 { status := 5, spKernel := 0x8000, sys := [(0x118, 0x8000), (0x140, 32), (0x214, 0x80000006)], retired := 3 }).putCore 1 { status := 5, spKernel := 0x8000, sys := [(0x118, 0x8000), (0x140, 32), (0x214, 0x80000006)], retired := 3 }).putPair 0 { decide_ := some (.line, 3), acted := [1], chosen := some 5 }, 0, 5, 3, by decide +kernel⟩,
   ⟨mkS fun d =>
      (((((d.setReg SUPPLY.DOM_STATUS_0 0xFFFFFFFF).setFld MEMCTL.SRAM_STATUS_READY 255).setFld (CORES.CORE_STATUS_STATE 1) 2).putCore 1 { pc := 0x100, g := [(3, 0x11223344), (4, 0x200), (5, 0x8), (6, 0x80F1A2B3), (7, 0x99887766), (8, 0x201)], status := 1, spKernel := 0x8000, sys := [(0x118, 0x8000), (0x140, 32), (0x214, 0x80000006)] }).setFld (CORES.CORE_STATUS_STATE 1) 3), 1, by decide +kernel⟩,
   ⟨mkS fun d =>
      (((((d.setReg SUPPLY.DOM_STATUS_0 0xFFFFFFFF).setFld MEMCTL.SRAM_STATUS_READY 255).setFld (CORES.CORE_STATUS_STATE 1) 2).putCore 1 { pc := 0x100, g := [(3, 0x11223344), (4, 0x200), (5, 0x8), (6, 0x80F1A2B3), (7, 0x99887766), (8, 0x201)], status := 5, spKernel := 0x8000, sys := [(0x118, 0x8000), (0x140, 32), (0x214, 0x80000006)] }).setFld (CORES.CORE_STATUS_STATE 1) 3), 1, 5, by decide +kernel⟩,
   ⟨mkS fun d =>
      { ((((d.setReg SUPPLY.DOM_STATUS_0 0xFFFFFFFF).setFld MEMCTL.SRAM_STATUS_READY 255).setFld (CORES.CORE_STATUS_STATE 1) 2).putCore 1 { pc := 0x100, g := [(3, 0x11223344), (4, 0x200), (5, 0x8), (6, 0x80F1A2B3), (7, 0x99887766), (8, 0x201)], status := 5, spKernel := 0x8000, sys := [(0x118, 0x8000)], atom := some 640 }) with time := { milepost := 6400 } }, 1, 640, by decide +kernel⟩,
   ⟨mkS fun d =>
      withWord 1 (0x140004f) (((({ d with mem := [(0x08080200, 0x40), (0x08080204, 0x04), (0x08080208, 12), (0x08080210, 1), (0x08080214, 2), (0x08080218, 3), (0x0808021C, 4)] }.setReg SUPPLY.DOM_STATUS_0 0xFFFFFFFF).setFld MEMCTL.SRAM_STATUS_READY 255).setFld (CORES.CORE_STATUS_STATE 1) 2).putCore 1 { pc := 0x100, g := [(3, 0x11223344), (4, 0x200), (5, 0x8), (6, 0x80F1A2B3), (7, 0x99887766), (8, 0x201)], status := 5, spKernel := 0x200, entries := [(0, 31)], sys := [(0x10C, 0x10), (0x118, 0x8000), (0x140, 32), (0x214, 0x80000006)] }), 1, 0x140004f, 0, 31, [], 0x08080200, 5, by decide +kernel⟩,
   ⟨mkS fun d =>
      ((((((d.setFld (CORES.CORE_STATUS_STATE 0) 2).setFld (CORES.CORE_STATUS_STATE 1) 2).setFld (CORES.CORE_STATUS_LOCKSTEP 0) 1).setFld (CORES.CORE_STATUS_LOCKSTEP 1) 1).setReg SUPPLY.DOM_STATUS_0 0xFFFFFFFF).putCore 0 { parting := true, pc := 0x40 }).putCore 1 { parting := true, pc := 0x40 } |> fun d =>
      { d with groups := [(3, { st := .claimed, owner := 0x0110 })] }, 0, by decide +kernel⟩,
   ⟨mkS fun d =>
      (((d.setFld (CORES.CORE_STATUS_STATE 0) 2).setFld (CORES.CORE_STATUS_STATE 1) 2).putCore 0 { joinSince := some 3, pc := 0x40, sys := [(0x140, 1)], g := [(5, 9)] }).putCore 1 { joinSince := some 4, pc := 0x80, sys := [(0x140, 6)] } |> fun d =>
      { d with mem := [(0x08000004, 7), (0x08080008, 9)] }, 0, by decide +kernel⟩⟩

/-- The hypotheses of clauses 13 to 18 of CoreEvents are met. -/
theorem witness_CoreEvents_13 :
    (∃ (s : State) (c : Fin 4) (t : Time), s.dev.lockstep c = false ∧ s.dev.coreState c = 2 ∧ (s.dev.core c).joinSince = some t ∧
      s.dev.calm c = true ∧ (s.dev.core c).sf CORE.JOIN_CTRL 15 0 ≠ 0 ∧
      s.dev.due (t + nsT (1000 * (s.dev.core c).sf CORE.JOIN_CTRL 15 0)) = true) ∧
    (∃ (s : State) (c : Fin 4) (t : Time), s.dev.lockstep c = false ∧ s.dev.coreState c = 2 ∧ (s.dev.core c).joinSince = some t ∧
      s.dev.calm c = true ∧ (s.dev.coreState (partner c) = 0 ∨ s.dev.coreState (partner c) = 5)) ∧
    (∃ (s : State) (p : Fin 2) (c : Fin 4), c.val / 2 = p.val ∧ s.dev.lockstep c = true ∧ 4 ≤ (s.dev.core c).unmatched.length ∧
      s.dev.due ((s.dev.core c).lagSince + nsT 1000) = true ∧ (s.dev.pair p.val).declared = none) ∧
    (∃ (s : State) (p : Fin 2) (t : Time), (s.dev.pair p.val).declared = some t ∧ (s.dev.pair p.val).stopped = false ∧
      s.dev.due (t + nsT 100) = true) ∧
    (∃ (s : State) (r : Raised), s.dev.events.find? (fun r => r.id = 8) = some r ∧ r.stamp ≠ floorNs s.dev.now) ∧
    (∃ (s : State) (r : Raised), s.dev.events.find? (fun r => r.id = 8) = some r ∧ r.stamp = floorNs s.dev.now) :=
  ⟨⟨mkS fun d =>
      { ((((d.setReg SUPPLY.DOM_STATUS_0 0xFFFFFFFF).setFld MEMCTL.SRAM_STATUS_READY 255).setFld (CORES.CORE_STATUS_STATE 1) 2).putCore 1 { pc := 0x100, g := [(3, 0x11223344), (4, 0x200), (5, 0x8), (6, 0x80F1A2B3), (7, 0x99887766), (8, 0x201)], joinSince := some 0 }) with time := { milepost := 64000000 } }, 1, 0, by decide +kernel⟩,
   ⟨mkS fun d =>
      (((d.setReg SUPPLY.DOM_STATUS_0 0xFFFFFFFF).setFld MEMCTL.SRAM_STATUS_READY 255).setFld (CORES.CORE_STATUS_STATE 1) 2).putCore 1 { pc := 0x100, g := [(3, 0x11223344), (4, 0x200), (5, 0x8), (6, 0x80F1A2B3), (7, 0x99887766), (8, 0x201)], joinSince := some 0 }, 1, 0, by decide +kernel⟩,
   ⟨mkS fun d =>
      { (((((((d.setFld (CORES.CORE_STATUS_STATE 0) 2).setFld (CORES.CORE_STATUS_STATE 1) 2).setFld (CORES.CORE_STATUS_LOCKSTEP 0) 1).setFld (CORES.CORE_STATUS_LOCKSTEP 1) 1).setReg SUPPLY.DOM_STATUS_0 0xFFFFFFFF).putCore 0 {  }).putCore 1 { unmatched := List.replicate 4 { num := 0, pc := 0, len := 4, regs := [], mem := none } }) with time := { milepost := 64000000 } }, 0, 1, by decide +kernel⟩,
   ⟨mkS fun d =>
      ({ (((((((d.setFld (CORES.CORE_STATUS_STATE 0) 2).setFld (CORES.CORE_STATUS_STATE 1) 2).setFld (CORES.CORE_STATUS_LOCKSTEP 0) 1).setFld (CORES.CORE_STATUS_LOCKSTEP 1) 1).setReg SUPPLY.DOM_STATUS_0 0xFFFFFFFF).putCore 0 { sb := [{ core := 0x300, addr := 0x08080300, mask := 0xF, data := 0x12345678, count := 0 }] }).putCore 1 { pc := 4 }) with time := { milepost := 64000000 } } : Dev).putPair 0 { declared := some 640 }, 0, 640, by decide +kernel⟩,
   ⟨mkS fun d =>
      { ((d.setFld (JUNCTION.ROUTE_CORES 8) 6).setFld (JUNCTION.ROUTE_LINE 8) 63).setFld (CORES.CORE_STATUS_STATE 1) 2 with events := [{ id := 9, stamp := 640 }, { id := 8, stamp := 640 }], time := { milepost := 64000000 } }, { id := 8, stamp := 640 }, by decide +kernel⟩,
   ⟨mkS fun d => { d with events := [{ id := 8, stamp := 0 }] }, { id := 8, stamp := 0 }, by decide +kernel⟩⟩

/-- The hypotheses of clauses 1 to 12 of ThreadInstructions are met. -/
theorem witness_ThreadInstructions_1 :
    (∃ (s : State) (n : Fin 64) (i : WInstr) (r : WRes) (rd : Nat) (v : Word), s.dev.thrRuns n = true ∧ s.dev.thrCode n = .wil i ∧
      evalRegs i (s.dev.t n) (s.dev.thr n).flags (s.dev.reg (ROUND.THR_PC n)) 4 15 = some r ∧ r.wr = some (rd, v) ∧ r.target = none) ∧
    (∃ (s : State) (n : Fin 64) (i : WInstr) (r : WRes), s.dev.thrRuns n = true ∧ s.dev.thrCode n = .wil i ∧
      evalRegs i (s.dev.t n) (s.dev.thr n).flags (s.dev.reg (ROUND.THR_PC n)) 4 15 = some r ∧ r.wr = none ∧ r.target = none) ∧
    (∃ (s : State) (n : Fin 64) (i : WInstr) (r : WRes) (t : Word), s.dev.thrRuns n = true ∧ s.dev.thrCode n = .wil i ∧
      evalRegs i (s.dev.t n) (s.dev.thr n).flags (s.dev.reg (ROUND.THR_PC n)) 4 15 = some r ∧ r.target = some t ∧ t.toNat % 4 = 0) ∧
    (∃ (s : State) (n : Fin 64) (i : WInstr) (r : WRes) (t : Word), s.dev.thrRuns n = true ∧ s.dev.thrCode n = .wil i ∧
      evalRegs i (s.dev.t n) (s.dev.thr n).flags (s.dev.reg (ROUND.THR_PC n)) 4 15 = some r ∧ r.target = some t ∧ t.toNat % 4 ≠ 0) ∧
    (∃ (s : State) (n : Fin 64) (rd : Nat), s.dev.thrRuns n = true ∧ s.dev.thrCode n = .wil (.mfs rd 0)) ∧
    (∃ (s : State) (n : Fin 64) (ra : Nat), s.dev.thrRuns n = true ∧ s.dev.thrCode n = .wil (.mts 0 ra)) ∧
    (∃ (s : State) (n : Fin 64), s.dev.thrRuns n = true ∧ s.dev.thrCode n = .wil .fence) ∧
    (∃ (s : State) (n : Fin 64) (rd : Nat) (ra : Nat) (k : Word), s.dev.thrRuns n = true ∧
      s.dev.thrCode n = .wil (.load false 2 (.disp k) rd ra false) ∧ (s.dev.t n ra + k).toNat % 4 = 0 ∧
      (ringBase (n.val / 32) ≤ (s.dev.t n ra + k).toNat ∧ (s.dev.t n ra + k).toNat + 4 ≤ ringBase (n.val / 32) + 0x40000) ∧
      s.dev.memOpen (thrAgent n) (s.dev.t n ra + k).toNat 4 false = true) ∧
    (∃ (s : State) (n : Fin 64) (rs : Nat) (ra : Nat) (k : Word), s.dev.thrRuns n = true ∧
      s.dev.thrCode n = .wil (.store 2 (.disp k) rs ra false) ∧ (s.dev.t n ra + k).toNat % 4 = 0 ∧
      (ringBase (n.val / 32) ≤ (s.dev.t n ra + k).toNat ∧ (s.dev.t n ra + k).toNat + 4 ≤ ringBase (n.val / 32) + 0x40000) ∧
      s.dev.memOpen (thrAgent n) (s.dev.t n ra + k).toNat 4 true = true ∧ s.dev.lgDram = false) ∧
    (∃ (s : State) (n : Fin 64) (rd : Nat) (ra : Nat) (k : Word), s.dev.thrRuns n = true ∧
      s.dev.thrCode n = .wil (.load false 2 (.disp k) rd ra false) ∧ (s.dev.t n ra + k).toNat % 4 = 0 ∧
      (0x10000000 ≤ (s.dev.t n ra + k).toNat ∧ (s.dev.t n ra + k).toNat < 0x10800000)) ∧
    (∃ (s : State) (n : Fin 64) (rd : Nat) (ra : Nat) (k : Word), s.dev.thrRuns n = true ∧
      s.dev.thrCode n = .wil (.load false 2 (.disp k) rd ra false) ∧ (s.dev.t n ra + k).toNat % 4 ≠ 0) ∧
    (∃ (s : State) (n : Fin 64) (rd : Nat) (ra : Nat) (k : Word), s.dev.thrRuns n = true ∧
      s.dev.thrCode n = .wil (.load false 2 (.disp k) rd ra false) ∧ (s.dev.t n ra + k).toNat % 4 = 0 ∧
      (0x20080000 ≤ (s.dev.t n ra + k).toNat ∧ ((s.dev.t n ra + k).toNat < 0x40000000 ∨ 0x41000000 ≤ (s.dev.t n ra + k).toNat))) :=
  ⟨⟨mkS fun d =>
      { ((((((((d.setNum (ROUND.THR_T 5 4) 0x80000000).setNum (ROUND.THR_T 5 5) 0x7FFFFFFF).setReg SUPPLY.DOM_STATUS_0 0xFFFFFFFF).setFld (ROUND.RING_CTRL_CODE_LIMIT 0) 1).setFld (ROUND.THR_STATUS_STATE 5) 1).setFld (ROUND.THR_STATUS_WAIT 5) 0).setFld (ROUND.THR_CFG_MODE 5) 1).setNum (ROUND.THR_PC 5) 0x20000010) with mem := [(0x20000010, 0x83), (0x20000011, 0x41), (0x20000012, 0xA), (0x20000013, 0x80)] }, 5, (.alu .add true 3 4 5), { wr := some (3, 0xFFFFFFFF), st := 0x10000 }, 3, 0xFFFFFFFF, by decide +kernel⟩,
   ⟨mkS fun d =>
      { (((((((d.setNum (ROUND.THR_T 5 4) 0x7FFFFFFF).setReg SUPPLY.DOM_STATUS_0 0xFFFFFFFF).setFld (ROUND.RING_CTRL_CODE_LIMIT 0) 1).setFld (ROUND.THR_STATUS_STATE 5) 1).setFld (ROUND.THR_STATUS_WAIT 5) 0).setFld (ROUND.THR_CFG_MODE 5) 1).setNum (ROUND.THR_PC 5) 0x20000010) with mem := [(0x20000010, 0xF), (0x20000011, 0x40), (0x20000012, 0xFE), (0x20000013, 0xFF)] }, 5, (.cmpi 4 0xFFFFFFFF), { st := 0x90000 }, by decide +kernel⟩,
   ⟨mkS fun d =>
      { ((((((d.setReg SUPPLY.DOM_STATUS_0 0xFFFFFFFF).setFld (ROUND.RING_CTRL_CODE_LIMIT 0) 1).setFld (ROUND.THR_STATUS_STATE 5) 1).setFld (ROUND.THR_STATUS_WAIT 5) 0).setFld (ROUND.THR_CFG_MODE 5) 1).setNum (ROUND.THR_PC 5) 0x20000010) with mem := [(0x20000010, 0x43), (0x20000011, 0xFE), (0x20000012, 0xFF), (0x20000013, 0xFF)] }, 5, (.br 0xFFFFFFFC), { st := 0, target := some 0x20000008 }, 0x20000008, by decide +kernel⟩,
   ⟨mkS fun d =>
      { ((((((d.setReg SUPPLY.DOM_STATUS_0 0xFFFFFFFF).setFld (ROUND.RING_CTRL_CODE_LIMIT 0) 1).setFld (ROUND.THR_STATUS_STATE 5) 1).setFld (ROUND.THR_STATUS_WAIT 5) 0).setFld (ROUND.THR_CFG_MODE 5) 1).setNum (ROUND.THR_PC 5) 0x20000010) with mem := [(0x20000010, 0xC3), (0x20000011, 0xFE), (0x20000012, 0xFF), (0x20000013, 0xFF)] }, 5, (.br 0xFFFFFFFD), { st := 0, target := some 0x2000000A }, 0x2000000A, by decide +kernel⟩,
   ⟨mkS fun d =>
      { ((((((d.setReg SUPPLY.DOM_STATUS_0 0xFFFFFFFF).setFld (ROUND.RING_CTRL_CODE_LIMIT 0) 1).setFld (ROUND.THR_STATUS_STATE 5) 1).setFld (ROUND.THR_STATUS_WAIT 5) 0).setFld (ROUND.THR_CFG_MODE 5) 1).setNum (ROUND.THR_PC 5) 0x20000010) with mem := [(0x20000010, 0xCD), (0x20000011, 0x1)], thrs := [(5, { flags := 0x50000 })] }, 5, 3, by decide +kernel⟩,
   ⟨mkS fun d =>
      { (((((((d.setNum (ROUND.THR_T 5 4) 0xFFFFFFFF).setReg SUPPLY.DOM_STATUS_0 0xFFFFFFFF).setFld (ROUND.RING_CTRL_CODE_LIMIT 0) 1).setFld (ROUND.THR_STATUS_STATE 5) 1).setFld (ROUND.THR_STATUS_WAIT 5) 0).setFld (ROUND.THR_CFG_MODE 5) 1).setNum (ROUND.THR_PC 5) 0x20000010) with mem := [(0x20000010, 0x4D), (0x20000011, 0x40), (0x20000012, 0x40)] }, 5, 4, by decide +kernel⟩,
   ⟨mkS fun d =>
      { ((((((d.setReg SUPPLY.DOM_STATUS_0 0xFFFFFFFF).setFld (ROUND.RING_CTRL_CODE_LIMIT 0) 1).setFld (ROUND.THR_STATUS_STATE 5) 1).setFld (ROUND.THR_STATUS_WAIT 5) 0).setFld (ROUND.THR_CFG_MODE 5) 1).setNum (ROUND.THR_PC 5) 0x20000010) with mem := [(0x20000010, 0x4F)] }, 5, by decide +kernel⟩,
   ⟨mkS fun d =>
      { (((((((d.setNum (ROUND.THR_T 5 4) 0x20000018).setReg SUPPLY.DOM_STATUS_0 0xFFFFFFFF).setFld (ROUND.RING_CTRL_CODE_LIMIT 0) 1).setFld (ROUND.THR_STATUS_STATE 5) 1).setFld (ROUND.THR_STATUS_WAIT 5) 0).setFld (ROUND.THR_CFG_MODE 5) 1).setNum (ROUND.THR_PC 5) 0x20000010) with mem := [(0x20000010, 0xA9), (0x20000011, 0x41), (0x20000012, 0x10), (0x20000020, 7), (0x20000023, 9)] }, 5, 3, 4, 8, by decide +kernel⟩,
   ⟨mkS fun d =>
      { ((((((((d.setNum (ROUND.THR_T 5 4) 0x20000018).setNum (ROUND.THR_T 5 3) 0x12345678).setReg SUPPLY.DOM_STATUS_0 0xFFFFFFFF).setFld (ROUND.RING_CTRL_CODE_LIMIT 0) 1).setFld (ROUND.THR_STATUS_STATE 5) 1).setFld (ROUND.THR_STATUS_WAIT 5) 0).setFld (ROUND.THR_CFG_MODE 5) 1).setNum (ROUND.THR_PC 5) 0x20000010) with mem := [(0x20000010, 0xB5), (0x20000011, 0x41), (0x20000012, 0x10)] }, 5, 3, 4, 8, by decide +kernel⟩,
   ⟨mkS fun d =>
      { (((((((d.setNum (ROUND.THR_T 5 4) 0x10000018).setReg SUPPLY.DOM_STATUS_0 0xFFFFFFFF).setFld (ROUND.RING_CTRL_CODE_LIMIT 0) 1).setFld (ROUND.THR_STATUS_STATE 5) 1).setFld (ROUND.THR_STATUS_WAIT 5) 0).setFld (ROUND.THR_CFG_MODE 5) 1).setNum (ROUND.THR_PC 5) 0x20000010) with mem := [(0x20000010, 0xA9), (0x20000011, 0x41), (0x20000012, 0x10)] }, 5, 3, 4, 8, by decide +kernel⟩,
   ⟨mkS fun d =>
      { (((((((d.setNum (ROUND.THR_T 5 4) 0x10000018).setReg SUPPLY.DOM_STATUS_0 0xFFFFFFFF).setFld (ROUND.RING_CTRL_CODE_LIMIT 0) 1).setFld (ROUND.THR_STATUS_STATE 5) 1).setFld (ROUND.THR_STATUS_WAIT 5) 0).setFld (ROUND.THR_CFG_MODE 5) 1).setNum (ROUND.THR_PC 5) 0x20000010) with mem := [(0x20000010, 0xA9), (0x20000011, 0x41), (0x20000012, 0x4)] }, 5, 3, 4, 2, by decide +kernel⟩,
   ⟨mkS fun d =>
      { (((((((d.setNum (ROUND.THR_T 5 4) 0x80000018).setReg SUPPLY.DOM_STATUS_0 0xFFFFFFFF).setFld (ROUND.RING_CTRL_CODE_LIMIT 0) 1).setFld (ROUND.THR_STATUS_STATE 5) 1).setFld (ROUND.THR_STATUS_WAIT 5) 0).setFld (ROUND.THR_CFG_MODE 5) 1).setNum (ROUND.THR_PC 5) 0x20000010) with mem := [(0x20000010, 0xA9), (0x20000011, 0x41), (0x20000012, 0x10)] }, 5, 3, 4, 8, by decide +kernel⟩⟩

/-- The hypotheses of clauses 13 to 24 of ThreadInstructions are met. -/
theorem witness_ThreadInstructions_13 :
    (∃ (s : State) (n : Fin 64), s.dev.thrRuns n = true ∧ s.dev.thrCode n = .illegal) ∧
    (∃ (s : State) (n : Fin 64), s.dev.thrState n = 1 ∧ s.dev.domReady (16 + n.val / 32) = true ∧
      s.dev.inCode (n.val / 32) (s.dev.num (ROUND.THR_PC n)) = false) ∧
    (∃ (s : State) (n : Fin 64), s.dev.thrState n ≠ 1) ∧
    (∃ (s : State) (n : Fin 64) (q : MemReq) (rd : Nat), (s.dev.thr n).req = some q ∧
      (s.dev.grp (grpKey (0x28 + n / 32) (n % 32))).st ≠ .pending ∧ s.dev.thrState n = 3 ∧ q.sent = false ∧ q.amo = none ∧
      (s.dev.thr n).resetReq = false ∧ (s.dev.thr n).haltReq = false ∧ (s.dev.thr n).stepping = false ∧
      s.dev.fld (ROUND.THR_CFG_MODE n) ≠ 0 ∧ q.data = none ∧ q.dest = .g rd false 2 ∧ q.upd = none ∧ q.len = 4 ∧ (0x10000000 ≤ q.addr.toNat ∧
      q.addr.toNat + 4 ≤ 0x10800000) ∧ q.addr.toNat % 4 = 0 ∧ s.dev.memOpen (thrAgent n) q.addr.toNat 4 false = true ∧
      s.dev.memMapped q.addr.toNat 4 = true ∧ s.dev.ecc = []) ∧
    (∃ (s : State) (n : Fin 64) (q : MemReq), (s.dev.thr n).req = some q ∧ (s.dev.grp (grpKey (0x28 + n / 32) (n % 32))).st ≠ .pending ∧
      s.dev.thrState n = 3 ∧ q.sent = false ∧ q.amo = none ∧ (s.dev.thr n).resetReq = false ∧ (s.dev.thr n).haltReq = false ∧
      (s.dev.thr n).stepping = false ∧ s.dev.fld (ROUND.THR_CFG_MODE n) ≠ 0 ∧ q.data = none ∧
      s.dev.begun.busRead 1 (thrAgent n) q.addr.toNat q.len = (.abort, s.dev.begun)) ∧
    (∃ (s : State) (n : Fin 64), (s.dev.thr n).req = none ∧ (s.dev.grp (grpKey (0x28 + n / 32) (n % 32))).st ≠ .pending) ∧
    (∃ (s : State) (n : Fin 64) (td : Nat) (k : Nat), s.dev.thrRuns n = true ∧ s.dev.thrCode n = .srd td k) ∧
    (∃ (s : State) (n : Fin 64) (k : Nat) (ta : Nat), s.dev.thrRuns n = true ∧ s.dev.thrCode n = .swr k ta) ∧
    (∃ (s : State) (n : Fin 64) (td : Nat) (k : Nat) (ta : Nat), s.dev.thrRuns n = true ∧ s.dev.thrCode n = .sadd td k ta) ∧
    (∃ (s : State) (n : Fin 64) (td : Nat) (k : Nat) (ta : Nat), s.dev.thrRuns n = true ∧ s.dev.thrCode n = .scas td k ta) ∧
    (∃ (s : State) (n : Fin 64) (k : Nat) (ta : Nat), s.dev.thrRuns n = true ∧ s.dev.thrCode n = .swait k ta ∧
      s.dev.reg (ROUND.S (32 * (n.val / 32) + k)) &&& s.dev.t n ta ≠ 0) ∧
    (∃ (s : State) (n : Fin 64) (k : Nat) (ta : Nat), s.dev.thrRuns n = true ∧ s.dev.thrCode n = .swait k ta ∧
      s.dev.reg (ROUND.S (32 * (n.val / 32) + k)) &&& s.dev.t n ta = 0) :=
  ⟨⟨mkS fun d =>
      { ((((((d.setReg SUPPLY.DOM_STATUS_0 0xFFFFFFFF).setFld (ROUND.RING_CTRL_CODE_LIMIT 0) 1).setFld (ROUND.THR_STATUS_STATE 5) 1).setFld (ROUND.THR_STATUS_WAIT 5) 0).setFld (ROUND.THR_CFG_MODE 5) 1).setNum (ROUND.THR_PC 5) 0x20000010) with mem := [(0x20000010, 0x51), (0x20000012, 0xC0), (0x20000013, 0xF)] }, 5, by decide +kernel⟩,
   ⟨mkS fun d =>
      ((d.setReg SUPPLY.DOM_STATUS_0 0xFFFFFFFF).setFld (ROUND.THR_STATUS_STATE 5) 1).setNum (ROUND.THR_PC 5) 0x30000010, 5, by decide +kernel⟩,
   ⟨mkS fun d => d, 5, by decide +kernel⟩,
   ⟨mkS fun d =>
      { ((((((((d.setFld MEMCTL.SRAM_STATUS_READY 255).setFld (ROUND.THR_STATUS_STATE 5) 3).setReg SUPPLY.DOM_STATUS_0 0xFFFFFFFF).setFld (ROUND.RING_CTRL_CODE_LIMIT 0) 1).setFld (ROUND.THR_STATUS_STATE 5) 3).setFld (ROUND.THR_STATUS_WAIT 5) 0).setFld (ROUND.THR_CFG_MODE 5) 1).setNum (ROUND.THR_PC 5) 0x20000010) with mem := [(0x10000020, 7), (0x10000023, 9), (0x20000010, 0x83), (0x20000011, 0x41), (0x20000012, 0xA)], thrs := [(5, { req := some { addr := 0x10000020, len := 4, dest := .g 3 false 2 } })] }, 5, { addr := 0x10000020, len := 4, dest := .g 3 false 2 }, 3, by decide +kernel⟩,
   ⟨mkS fun d =>
      { ((((((((d.setFld MEMCTL.SRAM_STATUS_READY 1).setFld (ROUND.THR_STATUS_STATE 5) 3).setReg SUPPLY.DOM_STATUS_0 0xFFFFFFFF).setFld (ROUND.RING_CTRL_CODE_LIMIT 0) 1).setFld (ROUND.THR_STATUS_STATE 5) 3).setFld (ROUND.THR_STATUS_WAIT 5) 0).setFld (ROUND.THR_CFG_MODE 5) 1).setNum (ROUND.THR_PC 5) 0x20000010) with mem := [(0x10000020, 7), (0x10000023, 9), (0x20000010, 0x83), (0x20000011, 0x41), (0x20000012, 0xA)], thrs := [(5, { req := some { addr := 0x107FFFFE, len := 4, dest := .g 3 false 2 } })] }, 5, { addr := 0x107FFFFE, len := 4, dest := .g 3 false 2 }, by decide +kernel⟩,
   ⟨mkS fun d => d, 5, by decide +kernel⟩,
   ⟨mkS fun d =>
      { (((((((d.setNum (ROUND.S 7) 99).setReg SUPPLY.DOM_STATUS_0 0xFFFFFFFF).setFld (ROUND.RING_CTRL_CODE_LIMIT 0) 1).setFld (ROUND.THR_STATUS_STATE 5) 1).setFld (ROUND.THR_STATUS_WAIT 5) 0).setFld (ROUND.THR_CFG_MODE 5) 1).setNum (ROUND.THR_PC 5) 0x20000010) with mem := [(0x20000010, 0xD1), (0x20000011, 0x1), (0x20000012, 0xE)] }, 5, 3, 7, by decide +kernel⟩,
   ⟨mkS fun d =>
      { (((((((d.setNum (ROUND.THR_T 5 4) 99).setReg SUPPLY.DOM_STATUS_0 0xFFFFFFFF).setFld (ROUND.RING_CTRL_CODE_LIMIT 0) 1).setFld (ROUND.THR_STATUS_STATE 5) 1).setFld (ROUND.THR_STATUS_WAIT 5) 0).setFld (ROUND.THR_CFG_MODE 5) 1).setNum (ROUND.THR_PC 5) 0x20000010) with mem := [(0x20000010, 0x51), (0x20000011, 0x40), (0x20000012, 0x4E)] }, 5, 7, 4, by decide +kernel⟩,
   ⟨mkS fun d =>
      { ((((((((d.setNum (ROUND.S 7) 99).setNum (ROUND.THR_T 5 4) 1).setReg SUPPLY.DOM_STATUS_0 0xFFFFFFFF).setFld (ROUND.RING_CTRL_CODE_LIMIT 0) 1).setFld (ROUND.THR_STATUS_STATE 5) 1).setFld (ROUND.THR_STATUS_WAIT 5) 0).setFld (ROUND.THR_CFG_MODE 5) 1).setNum (ROUND.THR_PC 5) 0x20000010) with mem := [(0x20000010, 0xD1), (0x20000011, 0x41), (0x20000012, 0x8E)] }, 5, 3, 7, 4, by decide +kernel⟩,
   ⟨mkS fun d =>
      { (((((((((d.setNum (ROUND.S 7) 99).setNum (ROUND.THR_T 5 4) 1).setNum (ROUND.THR_T 5 3) 99).setReg SUPPLY.DOM_STATUS_0 0xFFFFFFFF).setFld (ROUND.RING_CTRL_CODE_LIMIT 0) 1).setFld (ROUND.THR_STATUS_STATE 5) 1).setFld (ROUND.THR_STATUS_WAIT 5) 0).setFld (ROUND.THR_CFG_MODE 5) 1).setNum (ROUND.THR_PC 5) 0x20000010) with mem := [(0x20000010, 0xD1), (0x20000011, 0x41), (0x20000012, 0xCE)] }, 5, 3, 7, 4, by decide +kernel⟩,
   ⟨mkS fun d =>
      { ((((((((d.setNum (ROUND.S 7) 3).setNum (ROUND.THR_T 5 4) 1).setReg SUPPLY.DOM_STATUS_0 0xFFFFFFFF).setFld (ROUND.RING_CTRL_CODE_LIMIT 0) 1).setFld (ROUND.THR_STATUS_STATE 5) 1).setFld (ROUND.THR_STATUS_WAIT 5) 0).setFld (ROUND.THR_CFG_MODE 5) 1).setNum (ROUND.THR_PC 5) 0x20000010) with mem := [(0x20000010, 0x51), (0x20000011, 0x40), (0x20000012, 0xE), (0x20000013, 0x1)] }, 5, 7, 4, by decide +kernel⟩,
   ⟨mkS fun d =>
      { ((((((((d.setNum (ROUND.S 7) 2).setNum (ROUND.THR_T 5 4) 1).setReg SUPPLY.DOM_STATUS_0 0xFFFFFFFF).setFld (ROUND.RING_CTRL_CODE_LIMIT 0) 1).setFld (ROUND.THR_STATUS_STATE 5) 1).setFld (ROUND.THR_STATUS_WAIT 5) 0).setFld (ROUND.THR_CFG_MODE 5) 1).setNum (ROUND.THR_PC 5) 0x20000010) with mem := [(0x20000010, 0x51), (0x20000011, 0x40), (0x20000012, 0xE), (0x20000013, 0x1)] }, 5, 7, 4, by decide +kernel⟩⟩

/-- The hypotheses of clauses 25, 26 of ThreadInstructions are met. -/
theorem witness_ThreadInstructions_25 :
    (∃ (s : State) (n : Fin 64) (k : Nat) (ta : Nat), s.dev.thrWaits n 3 = true ∧ s.dev.thrCode n = .swait k ta ∧
      s.dev.reg (ROUND.S (32 * (n.val / 32) + k)) &&& s.dev.t n ta ≠ 0) ∧
    (∃ (s : State) (n : Fin 64) (k : Nat) (ta : Nat), s.dev.thrWaits n 3 = true ∧ s.dev.thrCode n = .swait k ta ∧
      s.dev.reg (ROUND.S (32 * (n.val / 32) + k)) &&& s.dev.t n ta = 0) :=
  ⟨⟨mkS fun d =>
      { ((((((((d.setNum (ROUND.S 7) 3).setNum (ROUND.THR_T 5 4) 1).setReg SUPPLY.DOM_STATUS_0 0xFFFFFFFF).setFld (ROUND.RING_CTRL_CODE_LIMIT 0) 1).setFld (ROUND.THR_STATUS_STATE 5) 2).setFld (ROUND.THR_STATUS_WAIT 5) 3).setFld (ROUND.THR_CFG_MODE 5) 1).setNum (ROUND.THR_PC 5) 0x20000010) with mem := [(0x20000010, 0x51), (0x20000011, 0x40), (0x20000012, 0xE), (0x20000013, 0x1)] }, 5, 7, 4, by decide +kernel⟩,
   ⟨mkS fun d =>
      { ((((((((d.setNum (ROUND.S 7) 2).setNum (ROUND.THR_T 5 4) 1).setReg SUPPLY.DOM_STATUS_0 0xFFFFFFFF).setFld (ROUND.RING_CTRL_CODE_LIMIT 0) 1).setFld (ROUND.THR_STATUS_STATE 5) 2).setFld (ROUND.THR_STATUS_WAIT 5) 3).setFld (ROUND.THR_CFG_MODE 5) 1).setNum (ROUND.THR_PC 5) 0x20000010) with mem := [(0x20000010, 0x51), (0x20000011, 0x40), (0x20000012, 0xE), (0x20000013, 0x1)] }, 5, 7, 4, by decide +kernel⟩⟩

/-- The hypotheses of clauses 1 to 12 of ThreadTimeAndEvents are met. -/
theorem witness_ThreadTimeAndEvents_1 :
    (∃ (s : State) (n : Fin 64), s.dev.thrRuns n = true ∧ s.dev.thrCode n = .tnow) ∧
    (∃ (s : State) (n : Fin 64) (ta : Nat) (tb : Nat), s.dev.thrRuns n = true ∧ s.dev.thrCode n = .tset ta tb) ∧
    (∃ (s : State) (n : Fin 64) (td : Nat), s.dev.thrRuns n = true ∧ s.dev.thrCode n = .tget td 0) ∧
    (∃ (s : State) (n : Fin 64) (td : Nat), s.dev.thrRuns n = true ∧ s.dev.thrCode n = .tget td 1) ∧
    (∃ (s : State) (n : Fin 64) (ta : Nat), s.dev.thrRuns n = true ∧ s.dev.thrCode n = .tadd ta) ∧
    (∃ (s : State) (n : Fin 64) (ta : Nat), s.dev.thrRuns n = true ∧ s.dev.thrCode n = .taddf ta) ∧
    (∃ (s : State) (n : Fin 64) (td : Nat), s.dev.thrRuns n = true ∧ s.dev.thrCode n = .tleft td) ∧
    (∃ (s : State) (n : Fin 64), s.dev.thrRuns n = true ∧ s.dev.thrCode n = .waitt ∧ s.dev.due (floorNs (s.dev.tt n)) = true) ∧
    (∃ (s : State) (n : Fin 64), s.dev.thrRuns n = true ∧ s.dev.thrCode n = .waitt ∧ s.dev.due (floorNs (s.dev.tt n)) = false) ∧
    (∃ (s : State) (n : Fin 64), s.dev.thrWaits n 4 = true ∧ s.dev.thrCode n = .waitt ∧ s.dev.due (floorNs (s.dev.tt n)) = true) ∧
    (∃ (s : State) (n : Fin 64), s.dev.thrWaits n 4 = true ∧ s.dev.thrCode n = .waitt ∧ s.dev.due (floorNs (s.dev.tt n)) = false) ∧
    (∃ (s : State) (n : Fin 64) (ta : Nat), s.dev.thrRuns n = true ∧ s.dev.thrCode n = .period ta) :=
  ⟨⟨mkS fun d =>
      { ((((((d.setReg SUPPLY.DOM_STATUS_0 0xFFFFFFFF).setFld (ROUND.RING_CTRL_CODE_LIMIT 0) 1).setFld (ROUND.THR_STATUS_STATE 5) 1).setFld (ROUND.THR_STATUS_WAIT 5) 0).setFld (ROUND.THR_CFG_MODE 5) 1).setNum (ROUND.THR_PC 5) 0x20000010) with mem := [(0x20000010, 0x51), (0x20000013, 0x4)], time := { milepost := 12345 } }, 5, by decide +kernel⟩,
   ⟨mkS fun d =>
      { ((((((((d.setNum (ROUND.THR_T 5 4) 0x80000001).setNum (ROUND.THR_T 5 5) 2).setReg SUPPLY.DOM_STATUS_0 0xFFFFFFFF).setFld (ROUND.RING_CTRL_CODE_LIMIT 0) 1).setFld (ROUND.THR_STATUS_STATE 5) 1).setFld (ROUND.THR_STATUS_WAIT 5) 0).setFld (ROUND.THR_CFG_MODE 5) 1).setNum (ROUND.THR_PC 5) 0x20000010) with mem := [(0x20000010, 0x51), (0x20000011, 0x40), (0x20000012, 0x4A), (0x20000013, 0x4)] }, 5, 4, 5, by decide +kernel⟩,
   ⟨mkS fun d =>
      { (((((((d.setReg64 (ROUND.THR_TT 5) 0x1234567890).setReg SUPPLY.DOM_STATUS_0 0xFFFFFFFF).setFld (ROUND.RING_CTRL_CODE_LIMIT 0) 1).setFld (ROUND.THR_STATUS_STATE 5) 1).setFld (ROUND.THR_STATUS_WAIT 5) 0).setFld (ROUND.THR_CFG_MODE 5) 1).setNum (ROUND.THR_PC 5) 0x20000010) with mem := [(0x20000010, 0xD1), (0x20000011, 0x1), (0x20000012, 0x80), (0x20000013, 0x4)] }, 5, 3, by decide +kernel⟩,
   ⟨mkS fun d =>
      { (((((((d.setReg64 (ROUND.THR_TT 5) 0x1234567890).setReg SUPPLY.DOM_STATUS_0 0xFFFFFFFF).setFld (ROUND.RING_CTRL_CODE_LIMIT 0) 1).setFld (ROUND.THR_STATUS_STATE 5) 1).setFld (ROUND.THR_STATUS_WAIT 5) 0).setFld (ROUND.THR_CFG_MODE 5) 1).setNum (ROUND.THR_PC 5) 0x20000010) with mem := [(0x20000010, 0xD1), (0x20000011, 0x1), (0x20000012, 0x82), (0x20000013, 0x4)] }, 5, 3, by decide +kernel⟩,
   ⟨mkS fun d =>
      { ((((((((d.setNum (ROUND.THR_T 5 4) 0xFFFFFFFF).setReg64 (ROUND.THR_TT 5) 0x1234567890).setReg SUPPLY.DOM_STATUS_0 0xFFFFFFFF).setFld (ROUND.RING_CTRL_CODE_LIMIT 0) 1).setFld (ROUND.THR_STATUS_STATE 5) 1).setFld (ROUND.THR_STATUS_WAIT 5) 0).setFld (ROUND.THR_CFG_MODE 5) 1).setNum (ROUND.THR_PC 5) 0x20000010) with mem := [(0x20000010, 0x51), (0x20000011, 0x40), (0x20000012, 0xC0), (0x20000013, 0x4)] }, 5, 4, by decide +kernel⟩,
   ⟨mkS fun d =>
      { ((((((((d.setNum (ROUND.THR_T 5 4) 0xFFFFFFFF).setReg64 (ROUND.THR_TT 5) 0x1234567890).setReg SUPPLY.DOM_STATUS_0 0xFFFFFFFF).setFld (ROUND.RING_CTRL_CODE_LIMIT 0) 1).setFld (ROUND.THR_STATUS_STATE 5) 1).setFld (ROUND.THR_STATUS_WAIT 5) 0).setFld (ROUND.THR_CFG_MODE 5) 1).setNum (ROUND.THR_PC 5) 0x20000010) with mem := [(0x20000010, 0x51), (0x20000011, 0x40), (0x20000013, 0x5)] }, 5, 4, by decide +kernel⟩,
   ⟨mkS fun d =>
      { (((((((d.setReg64 (ROUND.THR_TT 5) 0x1234567890).setReg SUPPLY.DOM_STATUS_0 0xFFFFFFFF).setFld (ROUND.RING_CTRL_CODE_LIMIT 0) 1).setFld (ROUND.THR_STATUS_STATE 5) 1).setFld (ROUND.THR_STATUS_WAIT 5) 0).setFld (ROUND.THR_CFG_MODE 5) 1).setNum (ROUND.THR_PC 5) 0x20000010) with mem := [(0x20000010, 0xD1), (0x20000011, 0x1), (0x20000012, 0x40), (0x20000013, 0x5)] }, 5, 3, by decide +kernel⟩,
   ⟨mkS fun d =>
      { (((((((d.setReg64 (ROUND.THR_TT 5) 64).setReg SUPPLY.DOM_STATUS_0 0xFFFFFFFF).setFld (ROUND.RING_CTRL_CODE_LIMIT 0) 1).setFld (ROUND.THR_STATUS_STATE 5) 1).setFld (ROUND.THR_STATUS_WAIT 5) 0).setFld (ROUND.THR_CFG_MODE 5) 1).setNum (ROUND.THR_PC 5) 0x20000010) with mem := [(0x20000010, 0x51), (0x20000013, 0x6)], time := { milepost := 12345 } }, 5, by decide +kernel⟩,
   ⟨mkS fun d =>
      { (((((((d.setReg64 (ROUND.THR_TT 5) 64000).setReg SUPPLY.DOM_STATUS_0 0xFFFFFFFF).setFld (ROUND.RING_CTRL_CODE_LIMIT 0) 1).setFld (ROUND.THR_STATUS_STATE 5) 1).setFld (ROUND.THR_STATUS_WAIT 5) 0).setFld (ROUND.THR_CFG_MODE 5) 1).setNum (ROUND.THR_PC 5) 0x20000010) with mem := [(0x20000010, 0x51), (0x20000013, 0x6)], time := { milepost := 12345 } }, 5, by decide +kernel⟩,
   ⟨mkS fun d =>
      { (((((((d.setReg64 (ROUND.THR_TT 5) 64).setReg SUPPLY.DOM_STATUS_0 0xFFFFFFFF).setFld (ROUND.RING_CTRL_CODE_LIMIT 0) 1).setFld (ROUND.THR_STATUS_STATE 5) 2).setFld (ROUND.THR_STATUS_WAIT 5) 4).setFld (ROUND.THR_CFG_MODE 5) 1).setNum (ROUND.THR_PC 5) 0x20000010) with mem := [(0x20000010, 0x51), (0x20000013, 0x6)], time := { milepost := 12345 } }, 5, by decide +kernel⟩,
   ⟨mkS fun d =>
      { (((((((d.setReg64 (ROUND.THR_TT 5) 64000).setReg SUPPLY.DOM_STATUS_0 0xFFFFFFFF).setFld (ROUND.RING_CTRL_CODE_LIMIT 0) 1).setFld (ROUND.THR_STATUS_STATE 5) 2).setFld (ROUND.THR_STATUS_WAIT 5) 4).setFld (ROUND.THR_CFG_MODE 5) 1).setNum (ROUND.THR_PC 5) 0x20000010) with mem := [(0x20000010, 0x51), (0x20000013, 0x6)] }, 5, by decide +kernel⟩,
   ⟨mkS fun d =>
      { ((((((((d.setNum (ROUND.THR_T 5 4) 100).setReg64 (ROUND.THR_TT 5) 0x1234567890).setReg SUPPLY.DOM_STATUS_0 0xFFFFFFFF).setFld (ROUND.RING_CTRL_CODE_LIMIT 0) 1).setFld (ROUND.THR_STATUS_STATE 5) 1).setFld (ROUND.THR_STATUS_WAIT 5) 0).setFld (ROUND.THR_CFG_MODE 5) 1).setNum (ROUND.THR_PC 5) 0x20000010) with mem := [(0x20000010, 0x51), (0x20000011, 0x40), (0x20000012, 0x40), (0x20000013, 0x6)] }, 5, 4, by decide +kernel⟩⟩

/-- The hypotheses of clauses 13 to 24 of ThreadTimeAndEvents are met. -/
theorem witness_ThreadTimeAndEvents_13 :
    (∃ (s : State) (n : Fin 64), s.dev.thrRuns n = true ∧ s.dev.thrCode n = .waitp ∧ (s.dev.thr n).sched = none) ∧
    (∃ (s : State) (n : Fin 64) (sc : Sched), s.dev.thrRuns n = true ∧ s.dev.thrCode n = .waitp ∧ (s.dev.thr n).sched = some sc ∧
      s.dev.due sc.target = false) ∧
    (∃ (s : State) (n : Fin 64) (sc : Sched), s.dev.thrRuns n = true ∧ s.dev.thrCode n = .waitp ∧ (s.dev.thr n).sched = some sc ∧
      s.dev.due sc.target = true ∧
      (sc.advance (s.dev.fld (ROUND.THR_SCHED_CATCHUP n)) (s.dev.fld (ROUND.THR_SCHED_BEHIND n)) (floorNs s.dev.now)).2 = false) ∧
    (∃ (s : State) (n : Fin 64) (sc : Sched), s.dev.thrRuns n = true ∧ s.dev.thrCode n = .waitp ∧ (s.dev.thr n).sched = some sc ∧
      s.dev.due sc.target = true ∧
      (sc.advance (s.dev.fld (ROUND.THR_SCHED_CATCHUP n)) (s.dev.fld (ROUND.THR_SCHED_BEHIND n)) (floorNs s.dev.now)).2 = true) ∧
    (∃ (s : State) (n : Fin 64) (sc : Sched), s.dev.thrWaits n 5 = true ∧ s.dev.thrCode n = .waitp ∧ (s.dev.thr n).sched = some sc ∧
      s.dev.due sc.target = true ∧
      (sc.advance (s.dev.fld (ROUND.THR_SCHED_CATCHUP n)) (s.dev.fld (ROUND.THR_SCHED_BEHIND n)) (sc.target)).2 = false) ∧
    (∃ (s : State) (n : Fin 64) (sc : Sched), s.dev.thrWaits n 5 = true ∧ s.dev.thrCode n = .waitp ∧ (s.dev.thr n).sched = some sc ∧
      s.dev.due sc.target = true ∧
      (sc.advance (s.dev.fld (ROUND.THR_SCHED_CATCHUP n)) (s.dev.fld (ROUND.THR_SCHED_BEHIND n)) (sc.target)).2 = true) ∧
    (∃ (s : State) (n : Fin 64), s.dev.thrRuns n = true ∧ s.dev.thrCode n = .pstop) ∧
    (∃ (s : State) (n : Fin 64) (td : Nat) (ta : Nat), s.dev.thrRuns n = true ∧ s.dev.thrCode n = .waite td ta ∧
      (s.dev.fld (ROUND.THR_EVPEND_PEND n) &&& (s.dev.t n ta).toNat) ≠ 0) ∧
    (∃ (s : State) (n : Fin 64) (td : Nat) (ta : Nat), s.dev.thrRuns n = true ∧ s.dev.thrCode n = .waite td ta ∧
      (s.dev.fld (ROUND.THR_EVPEND_PEND n) &&& (s.dev.t n ta).toNat) = 0) ∧
    (∃ (s : State) (n : Fin 64) (td : Nat) (ta : Nat), s.dev.thrWaits n 8 = true ∧ s.dev.thrCode n = .waite td ta ∧
      (s.dev.fld (ROUND.THR_EVPEND_PEND n) &&& (s.dev.t n ta).toNat) ≠ 0) ∧
    (∃ (s : State) (n : Fin 64), s.dev.thrRuns n = true ∧ s.dev.thrCode n = .signal) ∧
    (∃ (s : State) (n : Fin 64), s.dev.thrRuns n = true ∧ s.dev.thrCode n = .bkpt) :=
  ⟨⟨mkS fun d =>
      { ((((((d.setReg SUPPLY.DOM_STATUS_0 0xFFFFFFFF).setFld (ROUND.RING_CTRL_CODE_LIMIT 0) 1).setFld (ROUND.THR_STATUS_STATE 5) 1).setFld (ROUND.THR_STATUS_WAIT 5) 0).setFld (ROUND.THR_CFG_MODE 5) 1).setNum (ROUND.THR_PC 5) 0x20000010) with mem := [(0x20000010, 0x51), (0x20000012, 0x80), (0x20000013, 0x6)] }, 5, by decide +kernel⟩,
   ⟨mkS fun d =>
      { ((((((d.setReg SUPPLY.DOM_STATUS_0 0xFFFFFFFF).setFld (ROUND.RING_CTRL_CODE_LIMIT 0) 1).setFld (ROUND.THR_STATUS_STATE 5) 1).setFld (ROUND.THR_STATUS_WAIT 5) 0).setFld (ROUND.THR_CFG_MODE 5) 1).setNum (ROUND.THR_PC 5) 0x20000010) with mem := [(0x20000010, 0x51), (0x20000012, 0x80), (0x20000013, 0x6)], thrs := [(5, { sched := some { t0 := 640, p := 6400, k := 1, target := 7040 } })] }, 5, { t0 := 640, p := 6400, k := 1, target := 7040 }, by decide +kernel⟩,
   ⟨mkS fun d =>
      { (((((((d.setFld (ROUND.THR_SCHED_BEHIND 5) 0).setReg SUPPLY.DOM_STATUS_0 0xFFFFFFFF).setFld (ROUND.RING_CTRL_CODE_LIMIT 0) 1).setFld (ROUND.THR_STATUS_STATE 5) 1).setFld (ROUND.THR_STATUS_WAIT 5) 0).setFld (ROUND.THR_CFG_MODE 5) 1).setNum (ROUND.THR_PC 5) 0x20000010) with mem := [(0x20000010, 0x51), (0x20000012, 0x80), (0x20000013, 0x6)], thrs := [(5, { sched := some { t0 := 640, p := 6400, k := 1, target := 7040 } })], time := { milepost := 7041700 } }, 5, { t0 := 640, p := 6400, k := 1, target := 7040 }, by decide +kernel⟩,
   ⟨mkS fun d =>
      { (((((((d.setFld (ROUND.THR_SCHED_BEHIND 5) 2).setReg SUPPLY.DOM_STATUS_0 0xFFFFFFFF).setFld (ROUND.RING_CTRL_CODE_LIMIT 0) 1).setFld (ROUND.THR_STATUS_STATE 5) 1).setFld (ROUND.THR_STATUS_WAIT 5) 0).setFld (ROUND.THR_CFG_MODE 5) 1).setNum (ROUND.THR_PC 5) 0x20000010) with mem := [(0x20000010, 0x51), (0x20000012, 0x80), (0x20000013, 0x6)], thrs := [(5, { sched := some { t0 := 640, p := 6400, k := 1, target := 70400 } })], time := { milepost := 7041700 } }, 5, { t0 := 640, p := 6400, k := 1, target := 70400 }, by decide +kernel⟩,
   ⟨mkS fun d =>
      { (((((((d.setFld (ROUND.THR_SCHED_BEHIND 5) 0).setReg SUPPLY.DOM_STATUS_0 0xFFFFFFFF).setFld (ROUND.RING_CTRL_CODE_LIMIT 0) 1).setFld (ROUND.THR_STATUS_STATE 5) 2).setFld (ROUND.THR_STATUS_WAIT 5) 5).setFld (ROUND.THR_CFG_MODE 5) 1).setNum (ROUND.THR_PC 5) 0x20000010) with mem := [(0x20000010, 0x51), (0x20000012, 0x80), (0x20000013, 0x6)], thrs := [(5, { sched := some { t0 := 640, p := 6400, k := 1, target := 7040 } })], time := { milepost := 7041700 } }, 5, { t0 := 640, p := 6400, k := 1, target := 7040 }, by decide +kernel⟩,
   ⟨mkS fun d =>
      { (((((((d.setFld (ROUND.THR_SCHED_BEHIND 5) 2).setReg SUPPLY.DOM_STATUS_0 0xFFFFFFFF).setFld (ROUND.RING_CTRL_CODE_LIMIT 0) 1).setFld (ROUND.THR_STATUS_STATE 5) 2).setFld (ROUND.THR_STATUS_WAIT 5) 5).setFld (ROUND.THR_CFG_MODE 5) 1).setNum (ROUND.THR_PC 5) 0x20000010) with mem := [(0x20000010, 0x51), (0x20000012, 0x80), (0x20000013, 0x6)], thrs := [(5, { sched := some { t0 := 640, p := 6400, k := 1, target := 70400 } })], time := { milepost := 7041700 } }, 5, { t0 := 640, p := 6400, k := 1, target := 70400 }, by decide +kernel⟩,
   ⟨mkS fun d =>
      { ((((((d.setReg SUPPLY.DOM_STATUS_0 0xFFFFFFFF).setFld (ROUND.RING_CTRL_CODE_LIMIT 0) 1).setFld (ROUND.THR_STATUS_STATE 5) 1).setFld (ROUND.THR_STATUS_WAIT 5) 0).setFld (ROUND.THR_CFG_MODE 5) 1).setNum (ROUND.THR_PC 5) 0x20000010) with mem := [(0x20000010, 0x51), (0x20000012, 0xC0), (0x20000013, 0x6)], thrs := [(5, { sched := some { t0 := 640, p := 6400, k := 1, target := 7040 } })] }, 5, by decide +kernel⟩,
   ⟨mkS fun d =>
      { ((((((((d.setNum (ROUND.THR_EVPEND 5) 0xF).setNum (ROUND.THR_T 5 4) 6).setReg SUPPLY.DOM_STATUS_0 0xFFFFFFFF).setFld (ROUND.RING_CTRL_CODE_LIMIT 0) 1).setFld (ROUND.THR_STATUS_STATE 5) 1).setFld (ROUND.THR_STATUS_WAIT 5) 0).setFld (ROUND.THR_CFG_MODE 5) 1).setNum (ROUND.THR_PC 5) 0x20000010) with mem := [(0x20000010, 0xD1), (0x20000011, 0x41), (0x20000013, 0x8)] }, 5, 3, 4, by decide +kernel⟩,
   ⟨mkS fun d =>
      { (((((((d.setNum (ROUND.THR_T 5 4) 6).setReg SUPPLY.DOM_STATUS_0 0xFFFFFFFF).setFld (ROUND.RING_CTRL_CODE_LIMIT 0) 1).setFld (ROUND.THR_STATUS_STATE 5) 1).setFld (ROUND.THR_STATUS_WAIT 5) 0).setFld (ROUND.THR_CFG_MODE 5) 1).setNum (ROUND.THR_PC 5) 0x20000010) with mem := [(0x20000010, 0xD1), (0x20000011, 0x41), (0x20000013, 0x8)] }, 5, 3, 4, by decide +kernel⟩,
   ⟨mkS fun d =>
      { ((((((((d.setNum (ROUND.THR_EVPEND 5) 0xF).setNum (ROUND.THR_T 5 4) 6).setReg SUPPLY.DOM_STATUS_0 0xFFFFFFFF).setFld (ROUND.RING_CTRL_CODE_LIMIT 0) 1).setFld (ROUND.THR_STATUS_STATE 5) 2).setFld (ROUND.THR_STATUS_WAIT 5) 8).setFld (ROUND.THR_CFG_MODE 5) 1).setNum (ROUND.THR_PC 5) 0x20000010) with mem := [(0x20000010, 0xD1), (0x20000011, 0x41), (0x20000013, 0x8)] }, 5, 3, 4, by decide +kernel⟩,
   ⟨mkS fun d =>
      { ((((((d.setReg SUPPLY.DOM_STATUS_0 0xFFFFFFFF).setFld (ROUND.RING_CTRL_CODE_LIMIT 0) 1).setFld (ROUND.THR_STATUS_STATE 5) 1).setFld (ROUND.THR_STATUS_WAIT 5) 0).setFld (ROUND.THR_CFG_MODE 5) 1).setNum (ROUND.THR_PC 5) 0x20000010) with mem := [(0x20000010, 0x51), (0x20000012, 0x40), (0x20000013, 0x8)] }, 5, by decide +kernel⟩,
   ⟨mkS fun d =>
      { ((((((d.setReg SUPPLY.DOM_STATUS_0 0xFFFFFFFF).setFld (ROUND.RING_CTRL_CODE_LIMIT 0) 1).setFld (ROUND.THR_STATUS_STATE 5) 1).setFld (ROUND.THR_STATUS_WAIT 5) 0).setFld (ROUND.THR_CFG_MODE 5) 1).setNum (ROUND.THR_PC 5) 0x20000010) with mem := [(0x20000010, 0x51), (0x20000012, 0x80), (0x20000013, 0x8)] }, 5, by decide +kernel⟩⟩

/-- The hypotheses of clauses 1 to 12 of ThreadActions are met. -/
theorem witness_ThreadActions_1 :
    (∃ (s : State) (n : Fin 64) (ta : Nat) (tb : Nat), s.dev.thrRuns n = true ∧ s.dev.thrCode n = .drv ta tb ∧ (s.dev.thr n).acts.length < 8) ∧
    (∃ (s : State) (n : Fin 64) (ta : Nat) (tb : Nat), s.dev.thrRuns n = true ∧ s.dev.thrCode n = .drv ta tb ∧ 8 ≤ (s.dev.thr n).acts.length) ∧
    (∃ (s : State) (n : Fin 64) (ta : Nat) (tb : Nat), s.dev.thrWaits n 7 = true ∧ s.dev.thrCode n = .drv ta tb ∧ (s.dev.thr n).acts.length < 8) ∧
    (∃ (s : State) (n : Fin 64) (td : Nat) (ta : Nat), s.dev.thrRuns n = true ∧ s.dev.thrCode n = .smp td ta ∧ (s.dev.thr n).acts.length < 8) ∧
    (∃ (s : State) (n : Fin 64) (td : Nat) (ta : Nat), s.dev.thrRuns n = true ∧ s.dev.thrCode n = .smp td ta ∧ 8 ≤ (s.dev.thr n).acts.length) ∧
    (∃ (s : State) (n : Fin 64) (td : Nat) (ta : Nat), s.dev.thrWaits n 7 = true ∧ s.dev.thrCode n = .smp td ta ∧ (s.dev.thr n).acts.length < 8) ∧
    (∃ (s : State) (n : Fin 64) (ta : Nat), s.dev.thrRuns n = true ∧ s.dev.thrCode n = .estart ta ∧ (s.dev.thr n).acts.length < 8) ∧
    (∃ (s : State) (n : Fin 64) (ta : Nat), s.dev.thrRuns n = true ∧ s.dev.thrCode n = .estart ta ∧ 8 ≤ (s.dev.thr n).acts.length) ∧
    (∃ (s : State) (n : Fin 64) (ta : Nat), s.dev.thrWaits n 7 = true ∧ s.dev.thrCode n = .estart ta ∧ (s.dev.thr n).acts.length < 8) ∧
    (∃ (s : State) (n : Fin 64) (ta : Nat) (tb : Nat), s.dev.thrWaits n 7 = true ∧ s.dev.thrCode n = .drv ta tb ∧ 8 ≤ (s.dev.thr n).acts.length) ∧
    (∃ (s : State) (n : Fin 64) (a : Act) (p l : Nat), s.dev.actsHeld n = false ∧ s.dev.firstAct (s.dev.thr n).acts = some a ∧
      a.kind = .drv p l ∧ s.dev.thrOwnsPin n p = true ∧ (p < 96 ∨ l ≠ 2) ∧ lateness (floorNs a.target) a.applyAt = 0) ∧
    (∃ (s : State) (n : Fin 64) (a : Act) (p l : Nat), s.dev.actsHeld n = false ∧ s.dev.firstAct (s.dev.thr n).acts = some a ∧
      a.kind = .drv p l ∧ s.dev.thrOwnsPin n p = true ∧ (p < 96 ∨ l ≠ 2) ∧ lateness (floorNs a.target) a.applyAt ≠ 0) :=
  ⟨⟨mkS fun d =>
      { (((((((((d.setNum (ROUND.THR_T 5 4) 7).setNum (ROUND.THR_T 5 5) 1).setReg64 (ROUND.THR_TT 5) 6400).setReg SUPPLY.DOM_STATUS_0 0xFFFFFFFF).setFld (ROUND.RING_CTRL_CODE_LIMIT 0) 1).setFld (ROUND.THR_STATUS_STATE 5) 1).setFld (ROUND.THR_STATUS_WAIT 5) 0).setFld (ROUND.THR_CFG_MODE 5) 1).setNum (ROUND.THR_PC 5) 0x20000010) with mem := [(0x20000010, 0x53), (0x20000011, 0x40), (0x20000012, 0xA)] }, 5, 4, 5, by decide +kernel⟩,
   ⟨mkS fun d =>
      { (((((((((d.setNum (ROUND.THR_T 5 4) 7).setNum (ROUND.THR_T 5 5) 1).setReg64 (ROUND.THR_TT 5) 6400).setReg SUPPLY.DOM_STATUS_0 0xFFFFFFFF).setFld (ROUND.RING_CTRL_CODE_LIMIT 0) 1).setFld (ROUND.THR_STATUS_STATE 5) 1).setFld (ROUND.THR_STATUS_WAIT 5) 0).setFld (ROUND.THR_CFG_MODE 5) 1).setNum (ROUND.THR_PC 5) 0x20000010) with mem := [(0x20000010, 0x53), (0x20000011, 0x40), (0x20000012, 0xA)], thrs := [(5, { acts := List.replicate 8 { kind := .drv 7 1, target := 640, issued := 0 } })] }, 5, 4, 5, by decide +kernel⟩,
   ⟨mkS fun d =>
      { (((((((((d.setNum (ROUND.THR_T 5 4) 7).setNum (ROUND.THR_T 5 5) 1).setReg64 (ROUND.THR_TT 5) 6400).setReg SUPPLY.DOM_STATUS_0 0xFFFFFFFF).setFld (ROUND.RING_CTRL_CODE_LIMIT 0) 1).setFld (ROUND.THR_STATUS_STATE 5) 2).setFld (ROUND.THR_STATUS_WAIT 5) 7).setFld (ROUND.THR_CFG_MODE 5) 1).setNum (ROUND.THR_PC 5) 0x20000010) with mem := [(0x20000010, 0x53), (0x20000011, 0x40), (0x20000012, 0xA)] }, 5, 4, 5, by decide +kernel⟩,
   ⟨mkS fun d =>
      { (((((((((d.setNum (ROUND.THR_T 5 4) 7).setNum (ROUND.THR_T 5 5) 1).setReg64 (ROUND.THR_TT 5) 6400).setReg SUPPLY.DOM_STATUS_0 0xFFFFFFFF).setFld (ROUND.RING_CTRL_CODE_LIMIT 0) 1).setFld (ROUND.THR_STATUS_STATE 5) 1).setFld (ROUND.THR_STATUS_WAIT 5) 0).setFld (ROUND.THR_CFG_MODE 5) 1).setNum (ROUND.THR_PC 5) 0x20000010) with mem := [(0x20000010, 0xD3), (0x20000011, 0x41), (0x20000012, 0x40)] }, 5, 3, 4, by decide +kernel⟩,
   ⟨mkS fun d =>
      { (((((((((d.setNum (ROUND.THR_T 5 4) 7).setNum (ROUND.THR_T 5 5) 1).setReg64 (ROUND.THR_TT 5) 6400).setReg SUPPLY.DOM_STATUS_0 0xFFFFFFFF).setFld (ROUND.RING_CTRL_CODE_LIMIT 0) 1).setFld (ROUND.THR_STATUS_STATE 5) 1).setFld (ROUND.THR_STATUS_WAIT 5) 0).setFld (ROUND.THR_CFG_MODE 5) 1).setNum (ROUND.THR_PC 5) 0x20000010) with mem := [(0x20000010, 0xD3), (0x20000011, 0x41), (0x20000012, 0x40)], thrs := [(5, { acts := List.replicate 8 { kind := .drv 7 1, target := 640, issued := 0 } })] }, 5, 3, 4, by decide +kernel⟩,
   ⟨mkS fun d =>
      { (((((((((d.setNum (ROUND.THR_T 5 4) 7).setNum (ROUND.THR_T 5 5) 1).setReg64 (ROUND.THR_TT 5) 6400).setReg SUPPLY.DOM_STATUS_0 0xFFFFFFFF).setFld (ROUND.RING_CTRL_CODE_LIMIT 0) 1).setFld (ROUND.THR_STATUS_STATE 5) 2).setFld (ROUND.THR_STATUS_WAIT 5) 7).setFld (ROUND.THR_CFG_MODE 5) 1).setNum (ROUND.THR_PC 5) 0x20000010) with mem := [(0x20000010, 0xD3), (0x20000011, 0x41), (0x20000012, 0x40)] }, 5, 3, 4, by decide +kernel⟩,
   ⟨mkS fun d =>
      { (((((((((d.setNum (ROUND.THR_T 5 4) 7).setNum (ROUND.THR_T 5 5) 1).setReg64 (ROUND.THR_TT 5) 6400).setReg SUPPLY.DOM_STATUS_0 0xFFFFFFFF).setFld (ROUND.RING_CTRL_CODE_LIMIT 0) 1).setFld (ROUND.THR_STATUS_STATE 5) 1).setFld (ROUND.THR_STATUS_WAIT 5) 0).setFld (ROUND.THR_CFG_MODE 5) 1).setNum (ROUND.THR_PC 5) 0x20000010) with mem := [(0x20000010, 0x53), (0x20000011, 0x40), (0x20000012, 0x80)] }, 5, 4, by decide +kernel⟩,
   ⟨mkS fun d =>
      { (((((((((d.setNum (ROUND.THR_T 5 4) 7).setNum (ROUND.THR_T 5 5) 1).setReg64 (ROUND.THR_TT 5) 6400).setReg SUPPLY.DOM_STATUS_0 0xFFFFFFFF).setFld (ROUND.RING_CTRL_CODE_LIMIT 0) 1).setFld (ROUND.THR_STATUS_STATE 5) 1).setFld (ROUND.THR_STATUS_WAIT 5) 0).setFld (ROUND.THR_CFG_MODE 5) 1).setNum (ROUND.THR_PC 5) 0x20000010) with mem := [(0x20000010, 0x53), (0x20000011, 0x40), (0x20000012, 0x80)], thrs := [(5, { acts := List.replicate 8 { kind := .drv 7 1, target := 640, issued := 0 } })] }, 5, 4, by decide +kernel⟩,
   ⟨mkS fun d =>
      { (((((((((d.setNum (ROUND.THR_T 5 4) 7).setNum (ROUND.THR_T 5 5) 1).setReg64 (ROUND.THR_TT 5) 6400).setReg SUPPLY.DOM_STATUS_0 0xFFFFFFFF).setFld (ROUND.RING_CTRL_CODE_LIMIT 0) 1).setFld (ROUND.THR_STATUS_STATE 5) 2).setFld (ROUND.THR_STATUS_WAIT 5) 7).setFld (ROUND.THR_CFG_MODE 5) 1).setNum (ROUND.THR_PC 5) 0x20000010) with mem := [(0x20000010, 0x53), (0x20000011, 0x40), (0x20000012, 0x80)] }, 5, 4, by decide +kernel⟩,
   ⟨mkS fun d =>
      { ((((((d.setReg SUPPLY.DOM_STATUS_0 0xFFFFFFFF).setFld (ROUND.RING_CTRL_CODE_LIMIT 0) 1).setFld (ROUND.THR_STATUS_STATE 5) 2).setFld (ROUND.THR_STATUS_WAIT 5) 7).setFld (ROUND.THR_CFG_MODE 5) 1).setNum (ROUND.THR_PC 5) 0x20000010) with mem := [(0x20000010, 0x53), (0x20000011, 0x40), (0x20000012, 0xA)], thrs := [(5, { acts := List.replicate 8 { kind := .drv 7 1, target := 640, issued := 0 } })] }, 5, 4, 5, by decide +kernel⟩,
   ⟨mkS fun d =>
      { (d.setNum (PINMUX.PIN_OWN 7) 0x02000205) with thrs := [(5, { acts := [{ kind := .drv 7 1, target := 6400, issued := 0 }] })], time := { milepost := 64000 } }, 5, { kind := .drv 7 1, target := 6400, issued := 0 }, 7, 1, by decide +kernel⟩,
   ⟨mkS fun d =>
      { (d.setNum (PINMUX.PIN_OWN 7) 0x02000205) with thrs := [(5, { acts := [{ kind := .drv 7 1, target := 640, issued := 6400 }] })], time := { milepost := 640000 } }, 5, { kind := .drv 7 1, target := 640, issued := 6400 }, 7, 1, by decide +kernel⟩⟩

/-- The hypotheses of clauses 13 to 24 of ThreadActions are met. -/
theorem witness_ThreadActions_13 :
    (∃ (s : State) (n : Fin 64) (a : Act) (p l : Nat), s.dev.actsHeld n = false ∧ s.dev.firstAct (s.dev.thr n).acts = some a ∧
      a.kind = .drv p l ∧ s.dev.thrOwnsPin n p = false) ∧
    (∃ (s : State) (n : Fin 64) (a : Act) (e : Nat), s.dev.actsHeld n = false ∧ s.dev.firstAct (s.dev.thr n).acts = some a ∧
      a.kind = .estart e ∧ s.dev.thrOwnsEng n e = true ∧ s.dev.engState e = 0 ∧ lateness (floorNs a.target) a.applyAt = 0) ∧
    (∃ (s : State) (n : Fin 64), s.dev.actsHeld n = true) ∧
    (∃ (s : State) (n : Fin 64), s.dev.firstAct (s.dev.thr n).acts = none) ∧
    (∃ (s : State) (n : Fin 64) (td : Nat) (ta : Nat) (a : Act) (p : Nat), s.dev.thrWaits n 6 = true ∧ s.dev.thrCode n = .smp td ta ∧
      (s.dev.thr n).sample = none ∧ s.dev.actsHeld n = false ∧ (s.dev.thr n).acts = [a] ∧ a.kind = .smp p ∧ s.dev.actDue a = true ∧
      s.dev.thrOwnsPin n p = true ∧ lateness (floorNs a.target) a.applyAt = 0) ∧
    (∃ (s : State) (n : Fin 64) (td : Nat) (ta : Nat) (a : Act) (p : Nat), s.dev.thrWaits n 6 = true ∧ s.dev.thrCode n = .smp td ta ∧
      (s.dev.thr n).sample = none ∧ s.dev.actsHeld n = false ∧ (s.dev.thr n).acts = [a] ∧ a.kind = .smp p ∧ s.dev.actDue a = true ∧
      s.dev.thrOwnsPin n p = false) ∧
    (∃ (s : State) (n : Fin 64) (td : Nat) (ta : Nat) (a : Act) (p : Nat), s.dev.thrWaits n 6 = true ∧ s.dev.thrCode n = .smp td ta ∧
      (s.dev.thr n).sample = none ∧ s.dev.actsHeld n = false ∧ (s.dev.thr n).acts = [a] ∧ a.kind = .smp p ∧ s.dev.actDue a = false) ∧
    (∃ (s : State) (n : Fin 64) (ta : Nat) (tb : Nat), s.dev.thrRuns n = true ∧ s.dev.thrCode n = .epush ta tb ∧
      s.dev.thrOwnsEng n ((s.dev.t n ta).toNat % 64) = true ∧ (s.dev.eng ((s.dev.t n ta).toNat % 64)).tx.length < 8) ∧
    (∃ (s : State) (n : Fin 64) (ta : Nat) (tb : Nat), s.dev.thrRuns n = true ∧ s.dev.thrCode n = .epush ta tb ∧
      s.dev.thrOwnsEng n ((s.dev.t n ta).toNat % 64) = true ∧ 8 ≤ (s.dev.eng ((s.dev.t n ta).toNat % 64)).tx.length) ∧
    (∃ (s : State) (n : Fin 64) (ta : Nat) (tb : Nat), s.dev.thrRuns n = true ∧ s.dev.thrCode n = .epush ta tb ∧
      s.dev.thrOwnsEng n ((s.dev.t n ta).toNat % 64) = false) ∧
    (∃ (s : State) (n : Fin 64) (ta : Nat) (tb : Nat), s.dev.thrWaits n 9 = true ∧ s.dev.thrCode n = .epush ta tb ∧
      (s.dev.eng ((s.dev.t n ta).toNat % 64)).tx.length < 8) ∧
    (∃ (s : State) (n : Fin 64) (ta : Nat) (tb : Nat), s.dev.thrRuns n = true ∧ s.dev.thrCode n = .epushn ta tb ∧
      s.dev.thrOwnsEng n ((s.dev.t n ta).toNat % 64) = true ∧ (s.dev.eng ((s.dev.t n ta).toNat % 64)).tx.length < 8) :=
  ⟨⟨mkS fun d =>
      { (d.setNum (PINMUX.PIN_OWN 7) 0x02000205) with thrs := [(5, { acts := [{ kind := .drv 8 1, target := 6400, issued := 0 }] })], time := { milepost := 64000 } }, 5, { kind := .drv 8 1, target := 6400, issued := 0 }, 8, 1, by decide +kernel⟩,
   ⟨mkS fun d =>
      { (((d.setFld (PENG.ENG_OWNER_VALID 3) 1).setFld (PENG.ENG_OWNER_AGENT 3) 0x205).setNum (PINMUX.PIN_OWN 7) 0x02000205) with thrs := [(5, { acts := [{ kind := .estart 3, target := 6400, issued := 0 }] })], time := { milepost := 64000 } }, 5, { kind := .estart 3, target := 6400, issued := 0 }, 3, by decide +kernel⟩,
   ⟨mkS fun d => (d.setFld (ROUND.THR_CFG_HALT_ACTIONS 5) 1).setFld (ROUND.THR_STATUS_STATE 5) 4, 5, by decide +kernel⟩,
   ⟨mkS fun d => d, 5, by decide +kernel⟩,
   ⟨mkS fun d =>
      { ((((((((d.setNum (PINMUX.PIN_OWN 7) 0x02000205).setMapBit (PINMUX.PIN_IN 0) 7 true).setReg SUPPLY.DOM_STATUS_0 0xFFFFFFFF).setFld (ROUND.RING_CTRL_CODE_LIMIT 0) 1).setFld (ROUND.THR_STATUS_STATE 5) 2).setFld (ROUND.THR_STATUS_WAIT 5) 6).setFld (ROUND.THR_CFG_MODE 5) 1).setNum (ROUND.THR_PC 5) 0x20000010) with mem := [(0x20000010, 0xD3), (0x20000011, 0x41), (0x20000012, 0x40)], thrs := [(5, { acts := [{ kind := .smp 7, target := 6400, issued := 0 }] })], time := { milepost := 64000 } }, 5, 3, 4, { kind := .smp 7, target := 6400, issued := 0 }, 7, by decide +kernel⟩,
   ⟨mkS fun d =>
      { ((((((d.setReg SUPPLY.DOM_STATUS_0 0xFFFFFFFF).setFld (ROUND.RING_CTRL_CODE_LIMIT 0) 1).setFld (ROUND.THR_STATUS_STATE 5) 2).setFld (ROUND.THR_STATUS_WAIT 5) 6).setFld (ROUND.THR_CFG_MODE 5) 1).setNum (ROUND.THR_PC 5) 0x20000010) with mem := [(0x20000010, 0xD3), (0x20000011, 0x41), (0x20000012, 0x40)], thrs := [(5, { acts := [{ kind := .smp 7, target := 6400, issued := 0 }] })], time := { milepost := 64000 } }, 5, 3, 4, { kind := .smp 7, target := 6400, issued := 0 }, 7, by decide +kernel⟩,
   ⟨mkS fun d =>
      { ((((((((d.setNum (PINMUX.PIN_OWN 7) 0x02000205).setMapBit (PINMUX.PIN_IN 0) 7 true).setReg SUPPLY.DOM_STATUS_0 0xFFFFFFFF).setFld (ROUND.RING_CTRL_CODE_LIMIT 0) 1).setFld (ROUND.THR_STATUS_STATE 5) 2).setFld (ROUND.THR_STATUS_WAIT 5) 6).setFld (ROUND.THR_CFG_MODE 5) 1).setNum (ROUND.THR_PC 5) 0x20000010) with mem := [(0x20000010, 0xD3), (0x20000011, 0x41), (0x20000012, 0x40)], thrs := [(5, { acts := [{ kind := .smp 7, target := 6400, issued := 0 }] })], time := { milepost := 640 } }, 5, 3, 4, { kind := .smp 7, target := 6400, issued := 0 }, 7, by decide +kernel⟩,
   ⟨mkS fun d =>
      { ((((((((((d.setFld (PENG.ENG_OWNER_VALID 3) 1).setFld (PENG.ENG_OWNER_AGENT 3) 0x205).setNum (ROUND.THR_T 5 4) 3).setNum (ROUND.THR_T 5 5) 77).setReg SUPPLY.DOM_STATUS_0 0xFFFFFFFF).setFld (ROUND.RING_CTRL_CODE_LIMIT 0) 1).setFld (ROUND.THR_STATUS_STATE 5) 1).setFld (ROUND.THR_STATUS_WAIT 5) 0).setFld (ROUND.THR_CFG_MODE 5) 1).setNum (ROUND.THR_PC 5) 0x20000010) with mem := [(0x20000010, 0x53), (0x20000011, 0x40), (0x20000012, 0xCA)] }, 5, 4, 5, by decide +kernel⟩,
   ⟨mkS fun d =>
      { ((((((((((d.setFld (PENG.ENG_OWNER_VALID 3) 1).setFld (PENG.ENG_OWNER_AGENT 3) 0x205).setNum (ROUND.THR_T 5 4) 3).setNum (ROUND.THR_T 5 5) 77).setReg SUPPLY.DOM_STATUS_0 0xFFFFFFFF).setFld (ROUND.RING_CTRL_CODE_LIMIT 0) 1).setFld (ROUND.THR_STATUS_STATE 5) 1).setFld (ROUND.THR_STATUS_WAIT 5) 0).setFld (ROUND.THR_CFG_MODE 5) 1).setNum (ROUND.THR_PC 5) 0x20000010) with mem := [(0x20000010, 0x53), (0x20000011, 0x40), (0x20000012, 0xCA)], engs := [(3, { tx := List.replicate 8 5 })] }, 5, 4, 5, by decide +kernel⟩,
   ⟨mkS fun d =>
      { ((((((((d.setNum (ROUND.THR_T 5 4) 3).setNum (ROUND.THR_T 5 5) 77).setReg SUPPLY.DOM_STATUS_0 0xFFFFFFFF).setFld (ROUND.RING_CTRL_CODE_LIMIT 0) 1).setFld (ROUND.THR_STATUS_STATE 5) 1).setFld (ROUND.THR_STATUS_WAIT 5) 0).setFld (ROUND.THR_CFG_MODE 5) 1).setNum (ROUND.THR_PC 5) 0x20000010) with mem := [(0x20000010, 0x53), (0x20000011, 0x40), (0x20000012, 0xCA)] }, 5, 4, 5, by decide +kernel⟩,
   ⟨mkS fun d =>
      { ((((((((((d.setFld (PENG.ENG_OWNER_VALID 3) 1).setFld (PENG.ENG_OWNER_AGENT 3) 0x205).setNum (ROUND.THR_T 5 4) 3).setNum (ROUND.THR_T 5 5) 77).setReg SUPPLY.DOM_STATUS_0 0xFFFFFFFF).setFld (ROUND.RING_CTRL_CODE_LIMIT 0) 1).setFld (ROUND.THR_STATUS_STATE 5) 2).setFld (ROUND.THR_STATUS_WAIT 5) 9).setFld (ROUND.THR_CFG_MODE 5) 1).setNum (ROUND.THR_PC 5) 0x20000010) with mem := [(0x20000010, 0x53), (0x20000011, 0x40), (0x20000012, 0xCA)] }, 5, 4, 5, by decide +kernel⟩,
   ⟨mkS fun d =>
      { ((((((((((d.setFld (PENG.ENG_OWNER_VALID 3) 1).setFld (PENG.ENG_OWNER_AGENT 3) 0x205).setNum (ROUND.THR_T 5 4) 3).setNum (ROUND.THR_T 5 5) 77).setReg SUPPLY.DOM_STATUS_0 0xFFFFFFFF).setFld (ROUND.RING_CTRL_CODE_LIMIT 0) 1).setFld (ROUND.THR_STATUS_STATE 5) 1).setFld (ROUND.THR_STATUS_WAIT 5) 0).setFld (ROUND.THR_CFG_MODE 5) 1).setNum (ROUND.THR_PC 5) 0x20000010) with mem := [(0x20000010, 0x53), (0x20000011, 0x40), (0x20000012, 0x4A), (0x20000013, 0x1)] }, 5, 4, 5, by decide +kernel⟩⟩

/-- The hypotheses of clauses 25 to 30 of ThreadActions are met. -/
theorem witness_ThreadActions_25 :
    (∃ (s : State) (n : Fin 64) (ta : Nat) (tb : Nat), s.dev.thrRuns n = true ∧ s.dev.thrCode n = .epushn ta tb ∧
      s.dev.thrOwnsEng n ((s.dev.t n ta).toNat % 64) = true ∧ 8 ≤ (s.dev.eng ((s.dev.t n ta).toNat % 64)).tx.length) ∧
    (∃ (s : State) (n : Fin 64) (td : Nat) (ta : Nat) (v : Word) (q : List Word), s.dev.thrRuns n = true ∧ s.dev.thrCode n = .epull td ta ∧
      s.dev.thrOwnsEng n ((s.dev.t n ta).toNat % 64) = true ∧ (s.dev.eng ((s.dev.t n ta).toNat % 64)).rx = v :: q) ∧
    (∃ (s : State) (n : Fin 64) (td : Nat) (ta : Nat), s.dev.thrRuns n = true ∧ s.dev.thrCode n = .epull td ta ∧
      s.dev.thrOwnsEng n ((s.dev.t n ta).toNat % 64) = true ∧ (s.dev.eng ((s.dev.t n ta).toNat % 64)).rx = []) ∧
    (∃ (s : State) (n : Fin 64) (td : Nat) (ta : Nat) (v : Word) (q : List Word), s.dev.thrWaits n 9 = true ∧ s.dev.thrCode n = .epull td ta ∧
      (s.dev.eng ((s.dev.t n ta).toNat % 64)).rx = v :: q) ∧
    (∃ (s : State) (n : Fin 64) (td : Nat) (ta : Nat) (v : Word) (q : List Word), s.dev.thrRuns n = true ∧ s.dev.thrCode n = .epulln td ta ∧
      s.dev.thrOwnsEng n ((s.dev.t n ta).toNat % 64) = true ∧ (s.dev.eng ((s.dev.t n ta).toNat % 64)).rx = v :: q) ∧
    (∃ (s : State) (n : Fin 64) (td : Nat) (ta : Nat), s.dev.thrRuns n = true ∧ s.dev.thrCode n = .epulln td ta ∧
      s.dev.thrOwnsEng n ((s.dev.t n ta).toNat % 64) = true ∧ (s.dev.eng ((s.dev.t n ta).toNat % 64)).rx = []) :=
  ⟨⟨mkS fun d =>
      { ((((((((((d.setFld (PENG.ENG_OWNER_VALID 3) 1).setFld (PENG.ENG_OWNER_AGENT 3) 0x205).setNum (ROUND.THR_T 5 4) 3).setNum (ROUND.THR_T 5 5) 77).setReg SUPPLY.DOM_STATUS_0 0xFFFFFFFF).setFld (ROUND.RING_CTRL_CODE_LIMIT 0) 1).setFld (ROUND.THR_STATUS_STATE 5) 1).setFld (ROUND.THR_STATUS_WAIT 5) 0).setFld (ROUND.THR_CFG_MODE 5) 1).setNum (ROUND.THR_PC 5) 0x20000010) with mem := [(0x20000010, 0x53), (0x20000011, 0x40), (0x20000012, 0x4A), (0x20000013, 0x1)], thrs := [(5, { flags := 0x50000 })], engs := [(3, { tx := List.replicate 8 5 })] }, 5, 4, 5, by decide +kernel⟩,
   ⟨mkS fun d =>
      { ((((((((((d.setFld (PENG.ENG_OWNER_VALID 3) 1).setFld (PENG.ENG_OWNER_AGENT 3) 0x205).setNum (ROUND.THR_T 5 4) 3).setNum (ROUND.THR_T 5 5) 77).setReg SUPPLY.DOM_STATUS_0 0xFFFFFFFF).setFld (ROUND.RING_CTRL_CODE_LIMIT 0) 1).setFld (ROUND.THR_STATUS_STATE 5) 1).setFld (ROUND.THR_STATUS_WAIT 5) 0).setFld (ROUND.THR_CFG_MODE 5) 1).setNum (ROUND.THR_PC 5) 0x20000010) with mem := [(0x20000010, 0xD3), (0x20000011, 0x41), (0x20000013, 0x1)], engs := [(3, { rx := [9, 8] })] }, 5, 3, 4, 9, [8], by decide +kernel⟩,
   ⟨mkS fun d =>
      { ((((((((((d.setFld (PENG.ENG_OWNER_VALID 3) 1).setFld (PENG.ENG_OWNER_AGENT 3) 0x205).setNum (ROUND.THR_T 5 4) 3).setNum (ROUND.THR_T 5 5) 77).setReg SUPPLY.DOM_STATUS_0 0xFFFFFFFF).setFld (ROUND.RING_CTRL_CODE_LIMIT 0) 1).setFld (ROUND.THR_STATUS_STATE 5) 1).setFld (ROUND.THR_STATUS_WAIT 5) 0).setFld (ROUND.THR_CFG_MODE 5) 1).setNum (ROUND.THR_PC 5) 0x20000010) with mem := [(0x20000010, 0xD3), (0x20000011, 0x41), (0x20000013, 0x1)] }, 5, 3, 4, by decide +kernel⟩,
   ⟨mkS fun d =>
      { ((((((((((d.setFld (PENG.ENG_OWNER_VALID 3) 1).setFld (PENG.ENG_OWNER_AGENT 3) 0x205).setNum (ROUND.THR_T 5 4) 3).setNum (ROUND.THR_T 5 5) 77).setReg SUPPLY.DOM_STATUS_0 0xFFFFFFFF).setFld (ROUND.RING_CTRL_CODE_LIMIT 0) 1).setFld (ROUND.THR_STATUS_STATE 5) 2).setFld (ROUND.THR_STATUS_WAIT 5) 9).setFld (ROUND.THR_CFG_MODE 5) 1).setNum (ROUND.THR_PC 5) 0x20000010) with mem := [(0x20000010, 0xD3), (0x20000011, 0x41), (0x20000013, 0x1)], engs := [(3, { rx := [9, 8] })] }, 5, 3, 4, 9, [8], by decide +kernel⟩,
   ⟨mkS fun d =>
      { ((((((((((d.setFld (PENG.ENG_OWNER_VALID 3) 1).setFld (PENG.ENG_OWNER_AGENT 3) 0x205).setNum (ROUND.THR_T 5 4) 3).setNum (ROUND.THR_T 5 5) 77).setReg SUPPLY.DOM_STATUS_0 0xFFFFFFFF).setFld (ROUND.RING_CTRL_CODE_LIMIT 0) 1).setFld (ROUND.THR_STATUS_STATE 5) 1).setFld (ROUND.THR_STATUS_WAIT 5) 0).setFld (ROUND.THR_CFG_MODE 5) 1).setNum (ROUND.THR_PC 5) 0x20000010) with mem := [(0x20000010, 0xD3), (0x20000011, 0x41), (0x20000012, 0x80), (0x20000013, 0x1)], engs := [(3, { rx := [9, 8] })] }, 5, 3, 4, 9, [8], by decide +kernel⟩,
   ⟨mkS fun d =>
      { ((((((((((d.setFld (PENG.ENG_OWNER_VALID 3) 1).setFld (PENG.ENG_OWNER_AGENT 3) 0x205).setNum (ROUND.THR_T 5 4) 3).setNum (ROUND.THR_T 5 5) 77).setReg SUPPLY.DOM_STATUS_0 0xFFFFFFFF).setFld (ROUND.RING_CTRL_CODE_LIMIT 0) 1).setFld (ROUND.THR_STATUS_STATE 5) 1).setFld (ROUND.THR_STATUS_WAIT 5) 0).setFld (ROUND.THR_CFG_MODE 5) 1).setNum (ROUND.THR_PC 5) 0x20000010) with mem := [(0x20000010, 0xD3), (0x20000011, 0x41), (0x20000012, 0x80), (0x20000013, 0x1)] }, 5, 3, 4, by decide +kernel⟩⟩

/-- The hypotheses of clauses 1 to 12 of ThreadChannels are met. -/
theorem witness_ThreadChannels_1 :
    (∃ (s : State) (n : Fin 64) (ta : Nat), s.dev.thrRuns n = true ∧ s.dev.thrCode n = .chOpen ta ∧
      s.dev.openBad n (s.dev.chanOf n ta) = false ∧ s.dev.placeFree (s.dev.chanOf n ta) = true ∧
      s.dev.fld (ROUND.CH_CFG_QUOTA (s.dev.chanOf n ta)) ≤ 1024 ∧ 0 < s.dev.fld (ROUND.POOL_STATUS_FREE ((s.dev.chanOf n ta) / 64)) ∧
      (s.dev.ring (n.val / 32)).openQ = [] ∧ (s.dev.ring (n.val / 32)).closing = none) ∧
    (∃ (s : State) (n : Fin 64) (ta : Nat), s.dev.thrRuns n = true ∧ s.dev.thrCode n = .chOpen ta ∧
      s.dev.openBad n (s.dev.chanOf n ta) = false ∧ (s.dev.thrSlot n).placeFree (s.dev.chanOf n ta) = false) ∧
    (∃ (s : State) (n : Fin 64) (ta : Nat), s.dev.thrRuns n = true ∧ s.dev.thrCode n = .chOpen ta ∧ s.dev.openBad n (s.dev.chanOf n ta) = true) ∧
    (∃ (s : State) (n : Fin 64) (ta : Nat), s.dev.thrWaits n 2 = true ∧ s.dev.thrCode n = .chOpen ta ∧
      s.dev.placeFree (s.dev.chanOf n ta) = true ∧ s.dev.fld (ROUND.CH_CFG_QUOTA (s.dev.chanOf n ta)) ≤ 1024 ∧
      0 < s.dev.fld (ROUND.POOL_STATUS_FREE ((s.dev.chanOf n ta) / 64)) ∧ (s.dev.ring (n.val / 32)).openQ = [n.val] ∧
      (s.dev.ring (n.val / 32)).closing = none) ∧
    (∃ (s : State) (n : Fin 64) (ta : Nat) (c : Nat) (ws : List Word), s.dev.thrRuns n = true ∧ s.dev.thrCode n = .chPut ta ∧
      (s.dev.thr n).staging = some (c, ws) ∧ ws.length < 8) ∧
    (∃ (s : State) (n : Fin 64) (ta : Nat) (c : Nat) (ws : List Word), s.dev.thrRuns n = true ∧ s.dev.thrCode n = .chPut ta ∧
      (s.dev.thr n).staging = some (c, ws) ∧ 8 ≤ ws.length) ∧
    (∃ (s : State) (n : Fin 64) (ta : Nat), s.dev.thrRuns n = true ∧ s.dev.thrCode n = .chPut ta ∧ (s.dev.thr n).staging = none) ∧
    (∃ (s : State) (n : Fin 64) (c : Nat) (ws : List Word), s.dev.thrRuns n = true ∧ s.dev.thrCode n = .chClose ∧
      (s.dev.thr n).staging = some (c, ws) ∧ (s.dev.ring (n.val / 32)).closing = none) ∧
    (∃ (s : State) (n : Fin 64), s.dev.thrRuns n = true ∧ s.dev.thrCode n = .chClose ∧ (s.dev.thr n).staging = none) ∧
    (∃ (s : State) (n : Fin 64) (td : Nat) (ta : Nat) (ws : List Word) (t : List (List Word)), s.dev.thrRuns n = true ∧
      s.dev.thrCode n = .chRecv td ta ∧ s.dev.recvBad n (s.dev.chanOf n ta) = false ∧ (s.dev.chan (s.dev.chanOf n ta)).visible = ws :: t ∧
      t.length < 2048 ∧ ws.length < 2 ^ 32 ∧ (s.dev.ring (n.val / 32)).closing = none) ∧
    (∃ (s : State) (n : Fin 64) (td : Nat) (ta : Nat), s.dev.thrRuns n = true ∧ s.dev.thrCode n = .chRecv td ta ∧
      s.dev.recvBad n (s.dev.chanOf n ta) = false ∧ ((s.dev.thrSlot n).chan (s.dev.chanOf n ta)).visible = []) ∧
    (∃ (s : State) (n : Fin 64) (td : Nat) (ta : Nat), s.dev.thrRuns n = true ∧ s.dev.thrCode n = .chRecv td ta ∧
      s.dev.recvBad n (s.dev.chanOf n ta) = true) :=
  ⟨⟨mkS fun d =>
      { ((((((((d.setNum (ROUND.CH_CFG 3) 0x80A6000A).setNum (ROUND.THR_T 5 4) 3).setReg SUPPLY.DOM_STATUS_0 0xFFFFFFFF).setFld (ROUND.RING_CTRL_CODE_LIMIT 0) 1).setFld (ROUND.THR_STATUS_STATE 5) 1).setFld (ROUND.THR_STATUS_WAIT 5) 0).setFld (ROUND.THR_CFG_MODE 5) 1).setNum (ROUND.THR_PC 5) 0x20000010) with mem := [(0x20000010, 0x55), (0x20000011, 0x40)] }, 5, 4, by decide +kernel⟩,
   ⟨mkS fun d =>
      { ((((((((d.setNum (ROUND.CH_CFG 3) 0x80A60000).setNum (ROUND.THR_T 5 4) 3).setReg SUPPLY.DOM_STATUS_0 0xFFFFFFFF).setFld (ROUND.RING_CTRL_CODE_LIMIT 0) 1).setFld (ROUND.THR_STATUS_STATE 5) 1).setFld (ROUND.THR_STATUS_WAIT 5) 0).setFld (ROUND.THR_CFG_MODE 5) 1).setNum (ROUND.THR_PC 5) 0x20000010) with mem := [(0x20000010, 0x55), (0x20000011, 0x40)] }, 5, 4, by decide +kernel⟩,
   ⟨mkS fun d =>
      { (((((((d.setNum (ROUND.THR_T 5 4) 3).setReg SUPPLY.DOM_STATUS_0 0xFFFFFFFF).setFld (ROUND.RING_CTRL_CODE_LIMIT 0) 1).setFld (ROUND.THR_STATUS_STATE 5) 1).setFld (ROUND.THR_STATUS_WAIT 5) 0).setFld (ROUND.THR_CFG_MODE 5) 1).setNum (ROUND.THR_PC 5) 0x20000010) with mem := [(0x20000010, 0x55), (0x20000011, 0x40)] }, 5, 4, by decide +kernel⟩,
   ⟨mkS fun d =>
      { ((((((((d.setNum (ROUND.CH_CFG 3) 0x80A6000A).setNum (ROUND.THR_T 5 4) 3).setReg SUPPLY.DOM_STATUS_0 0xFFFFFFFF).setFld (ROUND.RING_CTRL_CODE_LIMIT 0) 1).setFld (ROUND.THR_STATUS_STATE 5) 2).setFld (ROUND.THR_STATUS_WAIT 5) 2).setFld (ROUND.THR_CFG_MODE 5) 1).setNum (ROUND.THR_PC 5) 0x20000010) with mem := [(0x20000010, 0x55), (0x20000011, 0x40)], rings := [(0, { openQ := [5] })] }, 5, 4, by decide +kernel⟩,
   ⟨mkS fun d =>
      { (((((((d.setNum (ROUND.THR_T 5 4) 3).setReg SUPPLY.DOM_STATUS_0 0xFFFFFFFF).setFld (ROUND.RING_CTRL_CODE_LIMIT 0) 1).setFld (ROUND.THR_STATUS_STATE 5) 1).setFld (ROUND.THR_STATUS_WAIT 5) 0).setFld (ROUND.THR_CFG_MODE 5) 1).setNum (ROUND.THR_PC 5) 0x20000010) with mem := [(0x20000010, 0x55), (0x20000011, 0x40), (0x20000012, 0x40)], thrs := [(5, { staging := some (3, [1]) })] }, 5, 4, 3, [1], by decide +kernel⟩,
   ⟨mkS fun d =>
      { (((((((d.setNum (ROUND.THR_T 5 4) 3).setReg SUPPLY.DOM_STATUS_0 0xFFFFFFFF).setFld (ROUND.RING_CTRL_CODE_LIMIT 0) 1).setFld (ROUND.THR_STATUS_STATE 5) 1).setFld (ROUND.THR_STATUS_WAIT 5) 0).setFld (ROUND.THR_CFG_MODE 5) 1).setNum (ROUND.THR_PC 5) 0x20000010) with mem := [(0x20000010, 0x55), (0x20000011, 0x40), (0x20000012, 0x40)], thrs := [(5, { staging := some (3, List.replicate 8 1) })] }, 5, 4, 3, List.replicate 8 1, by decide +kernel⟩,
   ⟨mkS fun d =>
      { (((((((d.setNum (ROUND.THR_T 5 4) 3).setReg SUPPLY.DOM_STATUS_0 0xFFFFFFFF).setFld (ROUND.RING_CTRL_CODE_LIMIT 0) 1).setFld (ROUND.THR_STATUS_STATE 5) 1).setFld (ROUND.THR_STATUS_WAIT 5) 0).setFld (ROUND.THR_CFG_MODE 5) 1).setNum (ROUND.THR_PC 5) 0x20000010) with mem := [(0x20000010, 0x55), (0x20000011, 0x40), (0x20000012, 0x40)] }, 5, 4, by decide +kernel⟩,
   ⟨mkS fun d =>
      { ((((((d.setReg SUPPLY.DOM_STATUS_0 0xFFFFFFFF).setFld (ROUND.RING_CTRL_CODE_LIMIT 0) 1).setFld (ROUND.THR_STATUS_STATE 5) 1).setFld (ROUND.THR_STATUS_WAIT 5) 0).setFld (ROUND.THR_CFG_MODE 5) 1).setNum (ROUND.THR_PC 5) 0x20000010) with mem := [(0x20000010, 0x55), (0x20000012, 0x80)], thrs := [(5, { staging := some (3, [1]) })] }, 5, 3, [1], by decide +kernel⟩,
   ⟨mkS fun d =>
      { ((((((d.setReg SUPPLY.DOM_STATUS_0 0xFFFFFFFF).setFld (ROUND.RING_CTRL_CODE_LIMIT 0) 1).setFld (ROUND.THR_STATUS_STATE 5) 1).setFld (ROUND.THR_STATUS_WAIT 5) 0).setFld (ROUND.THR_CFG_MODE 5) 1).setNum (ROUND.THR_PC 5) 0x20000010) with mem := [(0x20000010, 0x55), (0x20000012, 0x80)] }, 5, by decide +kernel⟩,
   ⟨mkS fun d =>
      { ((((((((d.setNum (ROUND.CH_CFG 3) 0x80C5000A).setNum (ROUND.THR_T 5 4) 3).setReg SUPPLY.DOM_STATUS_0 0xFFFFFFFF).setFld (ROUND.RING_CTRL_CODE_LIMIT 0) 1).setFld (ROUND.THR_STATUS_STATE 5) 1).setFld (ROUND.THR_STATUS_WAIT 5) 0).setFld (ROUND.THR_CFG_MODE 5) 1).setNum (ROUND.THR_PC 5) 0x20000010) with mem := [(0x20000010, 0xD5), (0x20000011, 0x41), (0x20000012, 0xC0)], chans := [(3, { visible := [[7, 8]] })] }, 5, 3, 4, [7, 8], [], by decide +kernel⟩,
   ⟨mkS fun d =>
      { ((((((((d.setNum (ROUND.CH_CFG 3) 0x80C5000A).setNum (ROUND.THR_T 5 4) 3).setReg SUPPLY.DOM_STATUS_0 0xFFFFFFFF).setFld (ROUND.RING_CTRL_CODE_LIMIT 0) 1).setFld (ROUND.THR_STATUS_STATE 5) 1).setFld (ROUND.THR_STATUS_WAIT 5) 0).setFld (ROUND.THR_CFG_MODE 5) 1).setNum (ROUND.THR_PC 5) 0x20000010) with mem := [(0x20000010, 0xD5), (0x20000011, 0x41), (0x20000012, 0xC0)] }, 5, 3, 4, by decide +kernel⟩,
   ⟨mkS fun d =>
      { (((((((d.setNum (ROUND.THR_T 5 4) 3).setReg SUPPLY.DOM_STATUS_0 0xFFFFFFFF).setFld (ROUND.RING_CTRL_CODE_LIMIT 0) 1).setFld (ROUND.THR_STATUS_STATE 5) 1).setFld (ROUND.THR_STATUS_WAIT 5) 0).setFld (ROUND.THR_CFG_MODE 5) 1).setNum (ROUND.THR_PC 5) 0x20000010) with mem := [(0x20000010, 0xD5), (0x20000011, 0x41), (0x20000012, 0xC0)] }, 5, 3, 4, by decide +kernel⟩⟩

/-- The hypotheses of clauses 13 to 24 of ThreadChannels are met. -/
theorem witness_ThreadChannels_13 :
    (∃ (s : State) (n : Fin 64) (td : Nat) (ta : Nat) (ws : List Word) (t : List (List Word)), s.dev.thrWaits n 1 = true ∧
      s.dev.thrCode n = .chRecv td ta ∧ (s.dev.chan (s.dev.chanOf n ta)).visible = ws :: t ∧ t.length < 2048 ∧ ws.length < 2 ^ 32 ∧
      (s.dev.ring (n.val / 32)).closing = none) ∧
    (∃ (s : State) (n : Fin 64) (td : Nat) (c : Nat) (ws : List Word) (k : Nat), s.dev.thrRuns n = true ∧ s.dev.thrCode n = .chGet td ∧
      (s.dev.thr n).reading = some (c, ws, k)) ∧
    (∃ (s : State) (n : Fin 64) (td : Nat), s.dev.thrRuns n = true ∧ s.dev.thrCode n = .chGet td ∧ (s.dev.thr n).reading = none) ∧
    (∃ (s : State) (n : Fin 64) (c : Nat) (ws : List Word) (k : Nat), s.dev.thrRuns n = true ∧ s.dev.thrCode n = .chDone ∧
      (s.dev.thr n).reading = some (c, ws, k) ∧ c < 128 ∧ 0 < s.dev.fld (ROUND.CH_STATUS_HELD c) ∧
      s.dev.fld (ROUND.POOL_STATUS_FREE (c / 64)) < 1024 ∧ (s.dev.ring (n.val / 32)).closing = none) ∧
    (∃ (s : State) (n : Fin 64), s.dev.thrRuns n = true ∧ s.dev.thrCode n = .chDone ∧ (s.dev.thr n).reading = none) ∧
    (∃ (s : State) (n : Fin 64) (td : Nat) (ta : Nat), s.dev.thrRuns n = true ∧ s.dev.thrCode n = .chPoll td ta) ∧
    (∃ (s : State) (r : Fin 2), s.dev.domReady (16 + r.val) = true ∧ (s.dev.ring r).closing = none ∧
      (ringThreads r).any (fun n => decide (s.dev.thrState n = 2)) = true ∧
      (ringThreads r).all (fun n => (decide (s.dev.thrState n = 0) || decide (s.dev.thrState n = 5) || s.dev.thrInternal n) && (s.dev.thr n).acts.isEmpty) = true ∧
      (s.dev.ring r).gridPrev = true ∧ (s.dev.ring r).gridArmed = true ∧ s.dev.flag (ROUND.RING_CTRL_GRIDLOCK_EN r) = true) ∧
    (∃ (s : State) (r : Fin 2), s.dev.domReady (16 + r.val) = true ∧ (s.dev.ring r).closing = none ∧
      (ringThreads r).any (fun n => decide (s.dev.thrState n = 2)) = true ∧
      (ringThreads r).all (fun n => (decide (s.dev.thrState n = 0) || decide (s.dev.thrState n = 5) || s.dev.thrInternal n) && (s.dev.thr n).acts.isEmpty) = true ∧
      ((s.dev.ring r).gridPrev = false ∨ (s.dev.ring r).gridArmed = false ∨ s.dev.flag (ROUND.RING_CTRL_GRIDLOCK_EN r) = false)) ∧
    (∃ (s : State) (r : Fin 2), s.dev.domReady (16 + r.val) = true ∧ (s.dev.ring r).closing = none ∧
      (ringThreads r).any (fun n => decide (s.dev.thrState n = 1)) = true) ∧
    (∃ (s : State) (r : Fin 2), s.dev.powered (16 + r.val) 5000 = true) ∧
    (∃ (s : State) (a : Agent) (n : Fin 64) (v : Word), s.dev.takes a.id (ROUND.THR_CMD n) v = true ∧ wordBit v 0 = true ∧ v.toNat % 32 = 1 ∧
      (s.dev.thrState n = 1 ∨ s.dev.thrState n = 2)) ∧
    (∃ (s : State) (a : Agent) (n : Fin 64) (v : Word), s.dev.takes a.id (ROUND.THR_CMD n) v = true ∧ wordBit v 0 = true ∧ v.toNat % 32 = 1 ∧
      s.dev.thrState n = 3) :=
  ⟨⟨mkS fun d =>
      { ((((((((d.setNum (ROUND.CH_CFG 3) 0x80C5000A).setNum (ROUND.THR_T 5 4) 3).setReg SUPPLY.DOM_STATUS_0 0xFFFFFFFF).setFld (ROUND.RING_CTRL_CODE_LIMIT 0) 1).setFld (ROUND.THR_STATUS_STATE 5) 2).setFld (ROUND.THR_STATUS_WAIT 5) 1).setFld (ROUND.THR_CFG_MODE 5) 1).setNum (ROUND.THR_PC 5) 0x20000010) with mem := [(0x20000010, 0xD5), (0x20000011, 0x41), (0x20000012, 0xC0)], chans := [(3, { visible := [[7, 8]] })] }, 5, 3, 4, [7, 8], [], by decide +kernel⟩,
   ⟨mkS fun d =>
      { ((((((d.setReg SUPPLY.DOM_STATUS_0 0xFFFFFFFF).setFld (ROUND.RING_CTRL_CODE_LIMIT 0) 1).setFld (ROUND.THR_STATUS_STATE 5) 1).setFld (ROUND.THR_STATUS_WAIT 5) 0).setFld (ROUND.THR_CFG_MODE 5) 1).setNum (ROUND.THR_PC 5) 0x20000010) with mem := [(0x20000010, 0xD5), (0x20000011, 0x1), (0x20000013, 0x1)], thrs := [(5, { reading := some (3, [7, 8], 1) })] }, 5, 3, 3, [7, 8], 1, by decide +kernel⟩,
   ⟨mkS fun d =>
      { ((((((d.setReg SUPPLY.DOM_STATUS_0 0xFFFFFFFF).setFld (ROUND.RING_CTRL_CODE_LIMIT 0) 1).setFld (ROUND.THR_STATUS_STATE 5) 1).setFld (ROUND.THR_STATUS_WAIT 5) 0).setFld (ROUND.THR_CFG_MODE 5) 1).setNum (ROUND.THR_PC 5) 0x20000010) with mem := [(0x20000010, 0xD5), (0x20000011, 0x1), (0x20000013, 0x1)] }, 5, 3, by decide +kernel⟩,
   ⟨mkS fun d =>
      { ((((((((d.setNum (ROUND.CH_STATUS 3) 1).setFld (ROUND.POOL_STATUS_FREE 0) 1023).setReg SUPPLY.DOM_STATUS_0 0xFFFFFFFF).setFld (ROUND.RING_CTRL_CODE_LIMIT 0) 1).setFld (ROUND.THR_STATUS_STATE 5) 1).setFld (ROUND.THR_STATUS_WAIT 5) 0).setFld (ROUND.THR_CFG_MODE 5) 1).setNum (ROUND.THR_PC 5) 0x20000010) with mem := [(0x20000010, 0x55), (0x20000012, 0x40), (0x20000013, 0x1)], thrs := [(5, { reading := some (3, [7, 8], 1) })] }, 5, 3, [7, 8], 1, by decide +kernel⟩,
   ⟨mkS fun d =>
      { ((((((d.setReg SUPPLY.DOM_STATUS_0 0xFFFFFFFF).setFld (ROUND.RING_CTRL_CODE_LIMIT 0) 1).setFld (ROUND.THR_STATUS_STATE 5) 1).setFld (ROUND.THR_STATUS_WAIT 5) 0).setFld (ROUND.THR_CFG_MODE 5) 1).setNum (ROUND.THR_PC 5) 0x20000010) with mem := [(0x20000010, 0x55), (0x20000012, 0x40), (0x20000013, 0x1)] }, 5, by decide +kernel⟩,
   ⟨mkS fun d =>
      { (((((((d.setNum (ROUND.THR_T 5 4) 3).setReg SUPPLY.DOM_STATUS_0 0xFFFFFFFF).setFld (ROUND.RING_CTRL_CODE_LIMIT 0) 1).setFld (ROUND.THR_STATUS_STATE 5) 1).setFld (ROUND.THR_STATUS_WAIT 5) 0).setFld (ROUND.THR_CFG_MODE 5) 1).setNum (ROUND.THR_PC 5) 0x20000010) with mem := [(0x20000010, 0xD5), (0x20000011, 0x41), (0x20000012, 0x80), (0x20000013, 0x1)], chans := [(3, { visible := [[7, 8]] })] }, 5, 3, 4, by decide +kernel⟩,
   ⟨mkS fun d =>
      { ((((d.setReg SUPPLY.DOM_STATUS_0 0xFFFFFFFF).setFld (ROUND.RING_CTRL_GRIDLOCK_EN 0) 1).setFld (ROUND.THR_STATUS_STATE 5) 2).setFld (ROUND.THR_STATUS_WAIT 5) 1) with rings := [(0, { gridPrev := true })] }, 0, by decide +kernel⟩,
   ⟨mkS fun d =>
      { ((((d.setReg SUPPLY.DOM_STATUS_0 0xFFFFFFFF).setFld (ROUND.RING_CTRL_GRIDLOCK_EN 0) 1).setFld (ROUND.THR_STATUS_STATE 5) 2).setFld (ROUND.THR_STATUS_WAIT 5) 1) with rings := [(0, {})] }, 0, by decide +kernel⟩,
   ⟨mkS fun d =>
      { ((((d.setReg SUPPLY.DOM_STATUS_0 0xFFFFFFFF).setFld (ROUND.RING_CTRL_GRIDLOCK_EN 0) 1).setFld (ROUND.THR_STATUS_STATE 5) 1).setFld (ROUND.THR_STATUS_WAIT 5) 1) with rings := [(0, { gridPrev := true })] }, 0, by decide +kernel⟩,
   ⟨mkS fun d => { d with domUp := [17], sup := { upAt := [(17, 0)] }, time := { milepost := nsT 20000 } }, 1, by decide +kernel⟩,
   ⟨mkS fun d =>
      ((d.setReg SUPPLY.DOM_STATUS_0 0xFFFFFFFF).setFld (ROUND.RING_STATUS_READY 0) 1).setFld (ROUND.THR_STATUS_STATE 5) 1, .loader, 5, 1, by decide +kernel⟩,
   ⟨mkS fun d =>
      ((d.setReg SUPPLY.DOM_STATUS_0 0xFFFFFFFF).setFld (ROUND.RING_STATUS_READY 0) 1).setFld (ROUND.THR_STATUS_STATE 5) 3, .loader, 5, 1, by decide +kernel⟩⟩

/-- The hypotheses of clauses 25 to 29 of ThreadChannels are met. -/
theorem witness_ThreadChannels_25 :
    (∃ (s : State) (a : Agent) (n : Fin 64) (v : Word), s.dev.takes a.id (ROUND.THR_CMD n) v = true ∧ wordBit v 1 = true ∧ v.toNat % 32 = 2 ∧
      (s.dev.thrState n = 4 ∨ s.dev.thrState n = 5) ∧ s.dev.flag (ROUND.THR_CFG_HALT_ACTIONS n) = false) ∧
    (∃ (s : State) (a : Agent) (n : Fin 64) (v : Word), s.dev.takes a.id (ROUND.THR_CMD n) v = true ∧ wordBit v 2 = true ∧ v.toNat % 32 = 4 ∧
      (s.dev.thrState n = 4 ∨ s.dev.thrState n = 5) ∧ s.dev.flag (ROUND.THR_CFG_HALT_ACTIONS n) = false) ∧
    (∃ (s : State) (a : Agent) (n : Fin 64) (v : Word), s.dev.takes a.id (ROUND.THR_CMD n) v = true ∧ wordBit v 3 = true ∧ v.toNat % 32 = 8 ∧
      s.dev.thrState n = 3) ∧
    (∃ (s : State) (a : Agent) (n : Fin 64) (v : Word), s.dev.takes a.id (ROUND.THR_CMD n) v = true ∧ wordBit v 3 = true ∧ v.toNat % 32 = 8 ∧
      s.dev.thrState n ≠ 3 ∧ (s.dev.thr n).staging = none ∧ (s.dev.thr n).reading = none ∧ s.dev.groups = []) ∧
    (∃ (s : State) (a : Agent) (n : Fin 64) (v : Word), s.dev.takes a.id (ROUND.THR_CMD n) v = true ∧ wordBit v 4 = true ∧ v.toNat % 32 = 16) :=
  ⟨⟨mkS fun d =>
      ((d.setReg SUPPLY.DOM_STATUS_0 0xFFFFFFFF).setFld (ROUND.RING_STATUS_READY 0) 1).setFld (ROUND.THR_STATUS_STATE 5) 4, .loader, 5, 2, by decide +kernel⟩,
   ⟨mkS fun d =>
      ((d.setReg SUPPLY.DOM_STATUS_0 0xFFFFFFFF).setFld (ROUND.RING_STATUS_READY 0) 1).setFld (ROUND.THR_STATUS_STATE 5) 4, .loader, 5, 4, by decide +kernel⟩,
   ⟨mkS fun d =>
      ((d.setReg SUPPLY.DOM_STATUS_0 0xFFFFFFFF).setFld (ROUND.RING_STATUS_READY 0) 1).setFld (ROUND.THR_STATUS_STATE 5) 3, .loader, 5, 8, by decide +kernel⟩,
   ⟨mkS fun d =>
      (((d.setReg SUPPLY.DOM_STATUS_0 0xFFFFFFFF).setFld (ROUND.RING_STATUS_READY 0) 1).setFld (ROUND.THR_STATUS_STATE 5) 1).setFld (ROUND.THR_CFG_MODE 5) 1, .loader, 5, 8, by decide +kernel⟩,
   ⟨mkS fun d =>
      ((((d.setReg SUPPLY.DOM_STATUS_0 0xFFFFFFFF).setFld (ROUND.RING_STATUS_READY 0) 1).setFld (ROUND.THR_STATUS_STATE 5) 1).setNum (ROUND.THR_RETIRED 5) 9).setFld (ROUND.THR_STATUS_LATE 5) 1, .loader, 5, 16, by decide +kernel⟩⟩

/-- The hypotheses of clauses 1 to 12 of EngineInstructions are met. -/
theorem witness_EngineInstructions_1 :
    (∃ (s : State) (e : Fin 40) (v : Nat), s.dev.engRuns e = true ∧ s.dev.engInstr e = .pins v ∧ (s.dev.eng e).q.length < 8) ∧
    (∃ (s : State) (e : Fin 40) (v : Nat), s.dev.engRuns e = true ∧ s.dev.engInstr e = .pins v ∧ (s.dev.eng e).q.length ≥ 8) ∧
    (∃ (s : State) (e : Fin 40) (v : Nat), s.dev.engRuns e = true ∧ s.dev.engInstr e = .dir v ∧ (s.dev.eng e).q.length < 8) ∧
    (∃ (s : State) (e : Fin 40) (v : Nat), s.dev.engRuns e = true ∧ s.dev.engInstr e = .dir v ∧ (s.dev.eng e).q.length ≥ 8) ∧
    (∃ (s : State) (e : Fin 40), s.dev.engRuns e = true ∧ s.dev.engInstr e = .store ∧ (s.dev.eng e).q.length < 8) ∧
    (∃ (s : State) (e : Fin 40), s.dev.engRuns e = true ∧ s.dev.engInstr e = .store ∧ (s.dev.eng e).q.length ≥ 8) ∧
    (∃ (s : State) (e : Fin 40) (i : Nat), s.dev.engRuns e = true ∧ s.dev.engInstr e = .raise i ∧ (s.dev.eng e).q.length < 8) ∧
    (∃ (s : State) (e : Fin 40) (i : Nat), s.dev.engRuns e = true ∧ s.dev.engInstr e = .raise i ∧ (s.dev.eng e).q.length ≥ 8) ∧
    (∃ (s : State) (e : Fin 40) (i : Nat), s.dev.engRuns e = true ∧ s.dev.engInstr e = .lower i ∧ (s.dev.eng e).q.length < 8) ∧
    (∃ (s : State) (e : Fin 40) (i : Nat), s.dev.engRuns e = true ∧ s.dev.engInstr e = .lower i ∧ (s.dev.eng e).q.length ≥ 8) ∧
    (∃ (s : State) (e : Fin 40) (a : Nat), s.dev.engRuns e = true ∧ s.dev.engInstr e = .bra .always a) ∧
    (∃ (s : State) (e : Fin 40) (a : Nat), s.dev.engRuns e = true ∧ s.dev.engInstr e = .bra .k0Loop a) :=
  ⟨⟨mkS fun d =>
      { (((((d).setFld (PENG.ENG_STATUS_STATE 5) 2).setFld (PENG.ENG_STATUS_PC 5) 31).setFld (PENG.ENG_CLK_DIV 5) 2).setFld (PENG.ENG_CLK_FRAC 5) 129).setNum (PENG.ENG_PROG 191) 0x5FA5 with engs := [(5, { et := 256000 })], time := { milepost := 64000 } }, 5, 0xA5, by decide +kernel⟩,
   ⟨mkS fun d =>
      { (((((d).setFld (PENG.ENG_STATUS_STATE 5) 2).setFld (PENG.ENG_STATUS_PC 5) 31).setFld (PENG.ENG_CLK_DIV 5) 2).setFld (PENG.ENG_CLK_FRAC 5) 129).setNum (PENG.ENG_PROG 191) 0x5FA5 with engs := [(5, { q := List.replicate 8 { t := 0, queued := 0, op := .store } })], time := { milepost := 64000 } }, 5, 0xA5, by decide +kernel⟩,
   ⟨mkS fun d =>
      { (((((d).setFld (PENG.ENG_STATUS_STATE 5) 2).setFld (PENG.ENG_STATUS_PC 5) 31).setFld (PENG.ENG_CLK_DIV 5) 2).setFld (PENG.ENG_CLK_FRAC 5) 129).setNum (PENG.ENG_PROG 191) 0x6FA5 with engs := [(5, { et := 256000 })], time := { milepost := 64000 } }, 5, 0xA5, by decide +kernel⟩,
   ⟨mkS fun d =>
      { (((((d).setFld (PENG.ENG_STATUS_STATE 5) 2).setFld (PENG.ENG_STATUS_PC 5) 31).setFld (PENG.ENG_CLK_DIV 5) 2).setFld (PENG.ENG_CLK_FRAC 5) 129).setNum (PENG.ENG_PROG 191) 0x6FA5 with engs := [(5, { q := List.replicate 8 { t := 0, queued := 0, op := .store } })], time := { milepost := 64000 } }, 5, 0xA5, by decide +kernel⟩,
   ⟨mkS fun d =>
      { (((((d).setFld (PENG.ENG_STATUS_STATE 5) 2).setFld (PENG.ENG_STATUS_PC 5) 31).setFld (PENG.ENG_CLK_DIV 5) 2).setFld (PENG.ENG_CLK_FRAC 5) 129).setNum (PENG.ENG_PROG 191) 0x7F80 with engs := [(5, { et := 256000 })], time := { milepost := 64000 } }, 5, by decide +kernel⟩,
   ⟨mkS fun d =>
      { (((((d).setFld (PENG.ENG_STATUS_STATE 5) 2).setFld (PENG.ENG_STATUS_PC 5) 31).setFld (PENG.ENG_CLK_DIV 5) 2).setFld (PENG.ENG_CLK_FRAC 5) 129).setNum (PENG.ENG_PROG 191) 0x7F80 with engs := [(5, { q := List.replicate 8 { t := 0, queued := 0, op := .store } })], time := { milepost := 64000 } }, 5, by decide +kernel⟩,
   ⟨mkS fun d =>
      { (((((d).setFld (PENG.ENG_STATUS_STATE 5) 2).setFld (PENG.ENG_STATUS_PC 5) 31).setFld (PENG.ENG_CLK_DIV 5) 2).setFld (PENG.ENG_CLK_FRAC 5) 129).setNum (PENG.ENG_PROG 191) 0xAF05 with engs := [(5, { et := 256000 })], time := { milepost := 64000 } }, 5, 5, by decide +kernel⟩,
   ⟨mkS fun d =>
      { (((((d).setFld (PENG.ENG_STATUS_STATE 5) 2).setFld (PENG.ENG_STATUS_PC 5) 31).setFld (PENG.ENG_CLK_DIV 5) 2).setFld (PENG.ENG_CLK_FRAC 5) 129).setNum (PENG.ENG_PROG 191) 0xAF05 with engs := [(5, { q := List.replicate 8 { t := 0, queued := 0, op := .store } })], time := { milepost := 64000 } }, 5, 5, by decide +kernel⟩,
   ⟨mkS fun d =>
      { (((((d).setFld (PENG.ENG_STATUS_STATE 5) 2).setFld (PENG.ENG_STATUS_PC 5) 31).setFld (PENG.ENG_CLK_DIV 5) 2).setFld (PENG.ENG_CLK_FRAC 5) 129).setNum (PENG.ENG_PROG 191) 0xAF45 with engs := [(5, { et := 256000 })], time := { milepost := 64000 } }, 5, 5, by decide +kernel⟩,
   ⟨mkS fun d =>
      { (((((d).setFld (PENG.ENG_STATUS_STATE 5) 2).setFld (PENG.ENG_STATUS_PC 5) 31).setFld (PENG.ENG_CLK_DIV 5) 2).setFld (PENG.ENG_CLK_FRAC 5) 129).setNum (PENG.ENG_PROG 191) 0xAF45 with engs := [(5, { q := List.replicate 8 { t := 0, queued := 0, op := .store } })], time := { milepost := 64000 } }, 5, 5, by decide +kernel⟩,
   ⟨mkS fun d =>
      { (((((d).setFld (PENG.ENG_STATUS_STATE 5) 2).setFld (PENG.ENG_STATUS_PC 5) 31).setFld (PENG.ENG_CLK_DIV 5) 2).setFld (PENG.ENG_CLK_FRAC 5) 129).setNum (PENG.ENG_PROG 191) 0x1F1F with engs := [(5, { et := 256000 })], time := { milepost := 64000 } }, 5, 31, by decide +kernel⟩,
   ⟨mkS fun d =>
      { (((((d.setFld (PENG.ENG_K_K0 5) 1).setFld (PENG.ENG_STATUS_STATE 5) 2).setFld (PENG.ENG_STATUS_PC 5) 31).setFld (PENG.ENG_CLK_DIV 5) 2).setFld (PENG.ENG_CLK_FRAC 5) 129).setNum (PENG.ENG_PROG 191) 0x1F27 with engs := [(5, { et := 256000 })], time := { milepost := 64000 } }, 5, 7, by decide +kernel⟩⟩

/-- The hypotheses of clauses 13 to 24 of EngineInstructions are met. -/
theorem witness_EngineInstructions_13 :
    (∃ (s : State) (e : Fin 40) (a : Nat), s.dev.engRuns e = true ∧ s.dev.engInstr e = .bra .k1Loop a) ∧
    (∃ (s : State) (e : Fin 40) (a : Nat), s.dev.engRuns e = true ∧ s.dev.engInstr e = .bra .k0Zero a) ∧
    (∃ (s : State) (e : Fin 40) (a : Nat), s.dev.engRuns e = true ∧ s.dev.engInstr e = .bra .slotHi a ∧ s.dev.due (etNs (s.dev.eng e).et) = true) ∧
    (∃ (s : State) (e : Fin 40) (a : Nat), s.dev.engRuns e = true ∧ s.dev.engInstr e = .bra .slotHi a ∧ s.dev.due (etNs (s.dev.eng e).et) = false) ∧
    (∃ (s : State) (e : Fin 40) (a : Nat), s.dev.engRuns e = true ∧ s.dev.engInstr e = .bra .slotLo a ∧ s.dev.due (etNs (s.dev.eng e).et) = true) ∧
    (∃ (s : State) (e : Fin 40) (a : Nat), s.dev.engRuns e = true ∧ s.dev.engInstr e = .bra .slotLo a ∧ s.dev.due (etNs (s.dev.eng e).et) = false) ∧
    (∃ (s : State) (e : Fin 40) (a : Nat), s.dev.engRuns e = true ∧ s.dev.engInstr e = .bra .srEmpty a) ∧
    (∃ (s : State) (e : Fin 40) (a : Nat), s.dev.engRuns e = true ∧ s.dev.engInstr e = .bra .txReady a) ∧
    (∃ (s : State) (e : Fin 40) (l : Bool) (c : Nat) (i : Nat), s.dev.engRuns e = true ∧ s.dev.engInstr e = .await l c i ∧
      s.dev.due (etNs (s.dev.eng e).et) = true ∧ c ≠ 1 ∧ levelAt (etNs (s.dev.eng e).et) (s.dev.awaitHist e c i) = l) ∧
    (∃ (s : State) (e : Fin 40) (l : Bool) (i : Nat) (t : Time), s.dev.engRuns e = true ∧ s.dev.engInstr e = .await l 1 i ∧
      s.dev.due (etNs (s.dev.eng e).et) = true ∧ firstChange l (etNs (s.dev.eng e).et) (s.dev.awaitHist e 1 i) = some t) ∧
    (∃ (s : State) (e : Fin 40) (l : Bool) (c : Nat) (i : Nat) (t : Time), s.dev.engRuns e = true ∧ s.dev.engInstr e = .await l c i ∧
      s.dev.due (etNs (s.dev.eng e).et) = true ∧ c ≠ 1 ∧ levelAt (etNs (s.dev.eng e).et) (s.dev.awaitHist e c i) ≠ l ∧
      firstChange l (etNs (s.dev.eng e).et) (s.dev.awaitHist e c i) = some t ∧ s.dev.due (ceilNs t) = true ∧
      levelAt (ceilNs t) (s.dev.awaitHist e c i) = l) ∧
    (∃ (s : State) (e : Fin 40) (l : Bool) (c : Nat) (i : Nat), s.dev.engRuns e = true ∧ s.dev.engInstr e = .await l c i ∧
      s.dev.due (etNs (s.dev.eng e).et) = false) :=
  ⟨⟨mkS fun d =>
      { (((((d.setFld (PENG.ENG_K_K1 5) 1).setFld (PENG.ENG_STATUS_STATE 5) 2).setFld (PENG.ENG_STATUS_PC 5) 31).setFld (PENG.ENG_CLK_DIV 5) 2).setFld (PENG.ENG_CLK_FRAC 5) 129).setNum (PENG.ENG_PROG 191) 0x1F47 with engs := [(5, { et := 256000 })], time := { milepost := 64000 } }, 5, 7, by decide +kernel⟩,
   ⟨mkS fun d =>
      { (((((d).setFld (PENG.ENG_STATUS_STATE 5) 2).setFld (PENG.ENG_STATUS_PC 5) 31).setFld (PENG.ENG_CLK_DIV 5) 2).setFld (PENG.ENG_CLK_FRAC 5) 129).setNum (PENG.ENG_PROG 191) 0x1F67 with engs := [(5, { et := 256000 })], time := { milepost := 64000 } }, 5, 7, by decide +kernel⟩,
   ⟨mkS fun d =>
      { (((((d).setFld (PENG.ENG_STATUS_STATE 5) 2).setFld (PENG.ENG_STATUS_PC 5) 31).setFld (PENG.ENG_CLK_DIV 5) 2).setFld (PENG.ENG_CLK_FRAC 5) 129).setNum (PENG.ENG_PROG 191) 0x1F87 with engs := [(5, { et := 256000 })], time := { milepost := 64000 } }, 5, 7, by decide +kernel⟩,
   ⟨mkS fun d =>
      { (((((d).setFld (PENG.ENG_STATUS_STATE 5) 2).setFld (PENG.ENG_STATUS_PC 5) 31).setFld (PENG.ENG_CLK_DIV 5) 2).setFld (PENG.ENG_CLK_FRAC 5) 129).setNum (PENG.ENG_PROG 191) 0x1F87 with engs := [(5, { et := 256256 })], time := { milepost := 64000 } }, 5, 7, by decide +kernel⟩,
   ⟨mkS fun d =>
      { (((((d).setFld (PENG.ENG_STATUS_STATE 5) 2).setFld (PENG.ENG_STATUS_PC 5) 31).setFld (PENG.ENG_CLK_DIV 5) 2).setFld (PENG.ENG_CLK_FRAC 5) 129).setNum (PENG.ENG_PROG 191) 0x1FA7 with engs := [(5, { et := 256000 })], time := { milepost := 64000 } }, 5, 7, by decide +kernel⟩,
   ⟨mkS fun d =>
      { (((((d).setFld (PENG.ENG_STATUS_STATE 5) 2).setFld (PENG.ENG_STATUS_PC 5) 31).setFld (PENG.ENG_CLK_DIV 5) 2).setFld (PENG.ENG_CLK_FRAC 5) 129).setNum (PENG.ENG_PROG 191) 0x1FA7 with engs := [(5, { et := 256256 })], time := { milepost := 64000 } }, 5, 7, by decide +kernel⟩,
   ⟨mkS fun d =>
      { (((((d).setFld (PENG.ENG_STATUS_STATE 5) 2).setFld (PENG.ENG_STATUS_PC 5) 31).setFld (PENG.ENG_CLK_DIV 5) 2).setFld (PENG.ENG_CLK_FRAC 5) 129).setNum (PENG.ENG_PROG 191) 0x1FC7 with engs := [(5, { et := 256000 })], time := { milepost := 64000 } }, 5, 7, by decide +kernel⟩,
   ⟨mkS fun d =>
      { (((((d).setFld (PENG.ENG_STATUS_STATE 5) 2).setFld (PENG.ENG_STATUS_PC 5) 31).setFld (PENG.ENG_CLK_DIV 5) 2).setFld (PENG.ENG_CLK_FRAC 5) 129).setNum (PENG.ENG_PROG 191) 0x1FE7 with engs := [(5, { tx := [3] })], time := { milepost := 64000 } }, 5, 7, by decide +kernel⟩,
   ⟨mkS fun d =>
      { ((((({ (d.setNum (PENG.ENG_SLOTS_LO 5) 7) with pins := [(7, { hist := [(640, true)] })] }).setFld (PENG.ENG_STATUS_STATE 5) 2).setFld (PENG.ENG_STATUS_PC 5) 31).setFld (PENG.ENG_CLK_DIV 5) 2).setFld (PENG.ENG_CLK_FRAC 5) 129).setNum (PENG.ENG_PROG 191) 0x2F80 with engs := [(5, { et := 256000 })], time := { milepost := 64000 } }, 5, true, 0, 0, by decide +kernel⟩,
   ⟨mkS fun d =>
      { ((((({ (d.setNum (PENG.ENG_SLOTS_LO 5) 7) with pins := [(7, { hist := [(63999, true), (640, false)] })] }).setFld (PENG.ENG_STATUS_STATE 5) 2).setFld (PENG.ENG_STATUS_PC 5) 31).setFld (PENG.ENG_CLK_DIV 5) 2).setFld (PENG.ENG_CLK_FRAC 5) 129).setNum (PENG.ENG_PROG 191) 0x2FA0 with engs := [(5, { et := 252000 })], time := { milepost := 64000 } }, 5, true, 0, 63999, by decide +kernel⟩,
   ⟨mkS fun d =>
      { ((((({ (d.setNum (PENG.ENG_SLOTS_LO 5) 7) with pins := [(7, { hist := [(63990, true), (640, false)] })] }).setFld (PENG.ENG_STATUS_STATE 5) 2).setFld (PENG.ENG_STATUS_PC 5) 31).setFld (PENG.ENG_CLK_DIV 5) 2).setFld (PENG.ENG_CLK_FRAC 5) 129).setNum (PENG.ENG_PROG 191) 0x2F80 with engs := [(5, { et := 252000 })], time := { milepost := 64000 } }, 5, true, 0, 0, 63990, by decide +kernel⟩,
   ⟨mkS fun d =>
      { (((((d).setFld (PENG.ENG_STATUS_STATE 5) 2).setFld (PENG.ENG_STATUS_PC 5) 31).setFld (PENG.ENG_CLK_DIV 5) 2).setFld (PENG.ENG_CLK_FRAC 5) 129).setNum (PENG.ENG_PROG 191) 0x2F80 with engs := [(5, { et := 256256 })], time := { milepost := 64000 } }, 5, true, 0, 0, by decide +kernel⟩⟩

/-- The hypotheses of clauses 25 to 36 of EngineInstructions are met. -/
theorem witness_EngineInstructions_25 :
    (∃ (s : State) (e : Fin 40) (l : Bool) (c : Nat) (i : Nat), s.dev.engRuns e = true ∧ s.dev.engInstr e = .await l c i ∧
      firstChange l (etNs (s.dev.eng e).et) (s.dev.awaitHist e c i) = none ∧
      (c = 1 ∨ levelAt (etNs (s.dev.eng e).et) (s.dev.awaitHist e c i) ≠ l)) ∧
    (∃ (s : State) (e : Fin 40) (l : Bool) (c : Nat) (i : Nat), s.dev.engRuns e = true ∧ s.dev.engInstr e = .await l c i ∧
      s.dev.engState e = 3 ∧ s.dev.due (etNs (s.dev.eng e).et) = true ∧ c ≠ 1 ∧ levelAt (etNs (s.dev.eng e).et) (s.dev.awaitHist e c i) = l) ∧
    (∃ (s : State) (e : Fin 40) (l : Bool) (i : Nat) (t : Time), s.dev.engRuns e = true ∧ s.dev.engInstr e = .await l 1 i ∧
      s.dev.engState e = 3 ∧ s.dev.due (etNs (s.dev.eng e).et) = true ∧ firstChange l (etNs (s.dev.eng e).et) (s.dev.awaitHist e 1 i) = some t) ∧
    (∃ (s : State) (e : Fin 40) (l : Bool) (c : Nat) (i : Nat) (t : Time), s.dev.engRuns e = true ∧ s.dev.engInstr e = .await l c i ∧
      s.dev.engState e = 3 ∧ s.dev.due (etNs (s.dev.eng e).et) = true ∧ c ≠ 1 ∧ levelAt (etNs (s.dev.eng e).et) (s.dev.awaitHist e c i) ≠ l ∧
      firstChange l (etNs (s.dev.eng e).et) (s.dev.awaitHist e c i) = some t ∧ s.dev.due (ceilNs t) = true ∧
      levelAt (ceilNs t) (s.dev.awaitHist e c i) = l) ∧
    (∃ (s : State) (e : Fin 40) (l : Bool) (c : Nat) (i : Nat), s.dev.engRuns e = true ∧ s.dev.engInstr e = .await l c i ∧
      s.dev.engState e = 3 ∧ s.dev.due (etNs (s.dev.eng e).et) = false) ∧
    (∃ (s : State) (e : Fin 40) (l : Bool) (c : Nat) (i : Nat), s.dev.engRuns e = true ∧ s.dev.engInstr e = .await l c i ∧
      s.dev.engState e = 3 ∧ firstChange l (etNs (s.dev.eng e).et) (s.dev.awaitHist e c i) = none ∧
      (c = 1 ∨ levelAt (etNs (s.dev.eng e).et) (s.dev.awaitHist e c i) ≠ l)) ∧
    (∃ (s : State) (e : Fin 40) (k : Nat) (n : Nat), s.dev.engRuns e = true ∧ s.dev.engInstr e = .send k n ∧
      (s.dev.eng e).q.length + (n - (s.dev.eng e).cells) ≤ 8) ∧
    (∃ (s : State) (e : Fin 40) (k : Nat) (n : Nat), s.dev.engRuns e = true ∧ s.dev.engInstr e = .send k n ∧
      (s.dev.eng e).q.length + (n - (s.dev.eng e).cells) ≤ 8) ∧
    (∃ (s : State) (e : Fin 40) (k : Nat) (n : Nat), s.dev.engRuns e = true ∧ s.dev.engInstr e = .send k n ∧ (s.dev.eng e).q.length ≤ 8 ∧
      (s.dev.eng e).cells + (8 - (s.dev.eng e).q.length) < n) ∧
    (∃ (s : State) (e : Fin 40) (k : Nat) (n : Nat), s.dev.engRuns e = true ∧ s.dev.engInstr e = .take k n ∧
      (s.dev.eng e).q.length + (n - (s.dev.eng e).cells) ≤ 8) ∧
    (∃ (s : State) (e : Fin 40) (k : Nat) (n : Nat), s.dev.engRuns e = true ∧ s.dev.engInstr e = .take k n ∧ (s.dev.eng e).q.length ≤ 8 ∧
      (s.dev.eng e).cells + (8 - (s.dev.eng e).q.length) < n) ∧
    (∃ (s : State) (e : Fin 40) (w : Word) (t : List Word), s.dev.engRuns e = true ∧ s.dev.engInstr e = .fetch ∧ (s.dev.eng e).tx = w :: t) :=
  ⟨⟨mkS fun d =>
      { (((((d).setFld (PENG.ENG_STATUS_STATE 5) 2).setFld (PENG.ENG_STATUS_PC 5) 31).setFld (PENG.ENG_CLK_DIV 5) 2).setFld (PENG.ENG_CLK_FRAC 5) 129).setNum (PENG.ENG_PROG 191) 0x2F80 with engs := [(5, { et := 256000 })], time := { milepost := 64000 } }, 5, true, 0, 0, by decide +kernel⟩,
   ⟨mkS fun d =>
      { ((((({ (d.setNum (PENG.ENG_SLOTS_LO 5) 7) with pins := [(7, { hist := [(640, true)] })] }).setFld (PENG.ENG_STATUS_STATE 5) 3).setFld (PENG.ENG_STATUS_PC 5) 31).setFld (PENG.ENG_CLK_DIV 5) 2).setFld (PENG.ENG_CLK_FRAC 5) 129).setNum (PENG.ENG_PROG 191) 0x2F80 with engs := [(5, { et := 256000 })], time := { milepost := 64000 } }, 5, true, 0, 0, by decide +kernel⟩,
   ⟨mkS fun d =>
      { ((((({ (d.setNum (PENG.ENG_SLOTS_LO 5) 7) with pins := [(7, { hist := [(63999, true), (640, false)] })] }).setFld (PENG.ENG_STATUS_STATE 5) 3).setFld (PENG.ENG_STATUS_PC 5) 31).setFld (PENG.ENG_CLK_DIV 5) 2).setFld (PENG.ENG_CLK_FRAC 5) 129).setNum (PENG.ENG_PROG 191) 0x2FA0 with engs := [(5, { et := 252000 })], time := { milepost := 64000 } }, 5, true, 0, 63999, by decide +kernel⟩,
   ⟨mkS fun d =>
      { ((((({ (d.setNum (PENG.ENG_SLOTS_LO 5) 7) with pins := [(7, { hist := [(63990, true), (640, false)] })] }).setFld (PENG.ENG_STATUS_STATE 5) 3).setFld (PENG.ENG_STATUS_PC 5) 31).setFld (PENG.ENG_CLK_DIV 5) 2).setFld (PENG.ENG_CLK_FRAC 5) 129).setNum (PENG.ENG_PROG 191) 0x2F80 with engs := [(5, { et := 252000 })], time := { milepost := 64000 } }, 5, true, 0, 0, 63990, by decide +kernel⟩,
   ⟨mkS fun d =>
      { (((((d).setFld (PENG.ENG_STATUS_STATE 5) 3).setFld (PENG.ENG_STATUS_PC 5) 31).setFld (PENG.ENG_CLK_DIV 5) 2).setFld (PENG.ENG_CLK_FRAC 5) 129).setNum (PENG.ENG_PROG 191) 0x2F80 with engs := [(5, { et := 256256 })], time := { milepost := 64000 } }, 5, true, 0, 0, by decide +kernel⟩,
   ⟨mkS fun d =>
      { (((((d).setFld (PENG.ENG_STATUS_STATE 5) 3).setFld (PENG.ENG_STATUS_PC 5) 31).setFld (PENG.ENG_CLK_DIV 5) 2).setFld (PENG.ENG_CLK_FRAC 5) 129).setNum (PENG.ENG_PROG 191) 0x2F80 with engs := [(5, { et := 256000 })], time := { milepost := 64000 } }, 5, true, 0, 0, by decide +kernel⟩,
   ⟨mkS fun d =>
      { ((((((((d.setNum (PENG.ENG_SR 5) 0xA5C3F00F).setFld (PENG.ENG_CTRL_WIDTH 5) 1).setFld (PENG.ENG_PSTATE_SR_LEFT 5) 32).setFld (PENG.ENG_CTRL_ORDER_SEND 5) 0).setFld (PENG.ENG_STATUS_STATE 5) 2).setFld (PENG.ENG_STATUS_PC 5) 31).setFld (PENG.ENG_CLK_DIV 5) 2).setFld (PENG.ENG_CLK_FRAC 5) 129).setNum (PENG.ENG_PROG 191) 0x3F45 with engs := [(5, { et := 256000 })], time := { milepost := 64000 } }, 5, 2, 5, by decide +kernel⟩,
   ⟨mkS fun d =>
      { ((((((((d.setNum (PENG.ENG_SR 5) 0xA5C3F00F).setFld (PENG.ENG_CTRL_WIDTH 5) 1).setFld (PENG.ENG_PSTATE_SR_LEFT 5) 32).setFld (PENG.ENG_CTRL_ORDER_SEND 5) 1).setFld (PENG.ENG_STATUS_STATE 5) 2).setFld (PENG.ENG_STATUS_PC 5) 31).setFld (PENG.ENG_CLK_DIV 5) 2).setFld (PENG.ENG_CLK_FRAC 5) 129).setNum (PENG.ENG_PROG 191) 0x3F45 with engs := [(5, { et := 256000 })], time := { milepost := 64000 } }, 5, 2, 5, by decide +kernel⟩,
   ⟨mkS fun d =>
      { ((((((d.setNum (PENG.ENG_SR 5) 0xA5C3F00F).setFld (PENG.ENG_CTRL_WIDTH 5) 1).setFld (PENG.ENG_STATUS_STATE 5) 2).setFld (PENG.ENG_STATUS_PC 5) 31).setFld (PENG.ENG_CLK_DIV 5) 2).setFld (PENG.ENG_CLK_FRAC 5) 129).setNum (PENG.ENG_PROG 191) 0x3F4A with engs := [(5, { et := 256000 })], time := { milepost := 64000 } }, 5, 2, 10, by decide +kernel⟩,
   ⟨mkS fun d =>
      { ((((((d.setNum (PENG.ENG_SR 5) 0xA5C3F00F).setFld (PENG.ENG_CTRL_WIDTH 5) 1).setFld (PENG.ENG_STATUS_STATE 5) 2).setFld (PENG.ENG_STATUS_PC 5) 31).setFld (PENG.ENG_CLK_DIV 5) 2).setFld (PENG.ENG_CLK_FRAC 5) 129).setNum (PENG.ENG_PROG 191) 0x4F45 with engs := [(5, { et := 256000 })], time := { milepost := 64000 } }, 5, 2, 5, by decide +kernel⟩,
   ⟨mkS fun d =>
      { ((((((d.setNum (PENG.ENG_SR 5) 0xA5C3F00F).setFld (PENG.ENG_CTRL_WIDTH 5) 1).setFld (PENG.ENG_STATUS_STATE 5) 2).setFld (PENG.ENG_STATUS_PC 5) 31).setFld (PENG.ENG_CLK_DIV 5) 2).setFld (PENG.ENG_CLK_FRAC 5) 129).setNum (PENG.ENG_PROG 191) 0x4F4A with engs := [(5, { et := 256000 })], time := { milepost := 64000 } }, 5, 2, 10, by decide +kernel⟩,
   ⟨mkS fun d =>
      { (((((d).setFld (PENG.ENG_STATUS_STATE 5) 2).setFld (PENG.ENG_STATUS_PC 5) 31).setFld (PENG.ENG_CLK_DIV 5) 2).setFld (PENG.ENG_CLK_FRAC 5) 129).setNum (PENG.ENG_PROG 191) 0x7F00 with engs := [(5, { tx := [9, 8] })], time := { milepost := 64000 } }, 5, 9, [8], by decide +kernel⟩⟩

/-- The hypotheses of clauses 37 to 48 of EngineInstructions are met. -/
theorem witness_EngineInstructions_37 :
    (∃ (s : State) (e : Fin 40), s.dev.engRuns e = true ∧ s.dev.engInstr e = .fetch ∧ (s.dev.eng e).tx = []) ∧
    (∃ (s : State) (e : Fin 40) (w : Word) (t : List Word), s.dev.engRuns e = true ∧ s.dev.engInstr e = .fetchNb ∧ (s.dev.eng e).tx = w :: t) ∧
    (∃ (s : State) (e : Fin 40), s.dev.engRuns e = true ∧ s.dev.engInstr e = .fetchNb ∧ (s.dev.eng e).tx = []) ∧
    (∃ (s : State) (e : Fin 40) (w : Word) (t : List Word), s.dev.engState e = 4 ∧ s.dev.flag (PENG.ENG_STATUS_STOPPING e) = false ∧
      (s.dev.eng e).tx = w :: t) ∧
    (∃ (s : State) (e : Fin 40), (s.dev.eng e).tx = []) ∧
    (∃ (s : State) (e : Fin 40) (v : Nat), s.dev.engRuns e = true ∧ s.dev.engInstr e = .setk false v) ∧
    (∃ (s : State) (e : Fin 40) (v : Nat), s.dev.engRuns e = true ∧ s.dev.engInstr e = .setk true v) ∧
    (∃ (s : State) (e : Fin 40) (c : EngSrc) (m : Nat), s.dev.engRuns e = true ∧ s.dev.engInstr e = .copy .sr c m ∧ s.dev.copyWaits e c = false) ∧
    (∃ (s : State) (e : Fin 40) (c : EngSrc) (m : Nat), s.dev.engRuns e = true ∧ s.dev.engInstr e = .copy .k0 c m ∧ s.dev.copyWaits e c = false) ∧
    (∃ (s : State) (e : Fin 40) (c : EngSrc) (m : Nat), s.dev.engRuns e = true ∧ s.dev.engInstr e = .copy .k1 c m ∧ s.dev.copyWaits e c = false) ∧
    (∃ (s : State) (e : Fin 40) (c : EngSrc) (m : Nat), s.dev.engRuns e = true ∧ s.dev.engInstr e = .copy .cr c m ∧
      s.dev.copyWaits e c = false ∧ (s.dev.eng e).q.length < 8) ∧
    (∃ (s : State) (e : Fin 40) (c : EngSrc) (m : Nat), s.dev.engRuns e = true ∧ s.dev.engInstr e = .copy .pins c m ∧
      s.dev.copyWaits e c = false ∧ (s.dev.eng e).q.length < 8) :=
  ⟨⟨mkS fun d =>
      { (((((d).setFld (PENG.ENG_STATUS_STATE 5) 2).setFld (PENG.ENG_STATUS_PC 5) 31).setFld (PENG.ENG_CLK_DIV 5) 2).setFld (PENG.ENG_CLK_FRAC 5) 129).setNum (PENG.ENG_PROG 191) 0x7F00 with engs := [(5, { et := 256000 })], time := { milepost := 64000 } }, 5, by decide +kernel⟩,
   ⟨mkS fun d =>
      { (((((d).setFld (PENG.ENG_STATUS_STATE 5) 2).setFld (PENG.ENG_STATUS_PC 5) 31).setFld (PENG.ENG_CLK_DIV 5) 2).setFld (PENG.ENG_CLK_FRAC 5) 129).setNum (PENG.ENG_PROG 191) 0x7F40 with engs := [(5, { tx := [9, 8] })], time := { milepost := 64000 } }, 5, 9, [8], by decide +kernel⟩,
   ⟨mkS fun d =>
      { (((((d.setFld (PENG.ENG_CTRL_EVT_MASK 5) 1).setFld (PENG.ENG_STATUS_STATE 5) 2).setFld (PENG.ENG_STATUS_PC 5) 31).setFld (PENG.ENG_CLK_DIV 5) 2).setFld (PENG.ENG_CLK_FRAC 5) 129).setNum (PENG.ENG_PROG 191) 0x7F40 with engs := [(5, { et := 256000 })], time := { milepost := 64000 } }, 5, by decide +kernel⟩,
   ⟨mkS fun d =>
      { (((((d).setFld (PENG.ENG_STATUS_STATE 5) 4).setFld (PENG.ENG_STATUS_PC 5) 31).setFld (PENG.ENG_CLK_DIV 5) 2).setFld (PENG.ENG_CLK_FRAC 5) 129).setNum (PENG.ENG_PROG 191) 0x7F00 with engs := [(5, { tx := [9, 8] })], time := { milepost := 64000 } }, 5, 9, [8], by decide +kernel⟩,
   ⟨mkS fun d =>
      { (((((d).setFld (PENG.ENG_STATUS_STATE 5) 4).setFld (PENG.ENG_STATUS_PC 5) 31).setFld (PENG.ENG_CLK_DIV 5) 2).setFld (PENG.ENG_CLK_FRAC 5) 129).setNum (PENG.ENG_PROG 191) 0x7F00 with engs := [(5, { et := 256000 })], time := { milepost := 64000 } }, 5, by decide +kernel⟩,
   ⟨mkS fun d =>
      { (((((d.setNum (PENG.ENG_K 5) 0x12345678).setFld (PENG.ENG_STATUS_STATE 5) 2).setFld (PENG.ENG_STATUS_PC 5) 31).setFld (PENG.ENG_CLK_DIV 5) 2).setFld (PENG.ENG_CLK_FRAC 5) 129).setNum (PENG.ENG_PROG 191) 0x8F7F with engs := [(5, { et := 256000 })], time := { milepost := 64000 } }, 5, 127, by decide +kernel⟩,
   ⟨mkS fun d =>
      { (((((d.setNum (PENG.ENG_K 5) 0x12345678).setFld (PENG.ENG_STATUS_STATE 5) 2).setFld (PENG.ENG_STATUS_PC 5) 31).setFld (PENG.ENG_CLK_DIV 5) 2).setFld (PENG.ENG_CLK_FRAC 5) 129).setNum (PENG.ENG_PROG 191) 0x8FFF with engs := [(5, { et := 256000 })], time := { milepost := 64000 } }, 5, 127, by decide +kernel⟩,
   ⟨mkS fun d =>
      { ((((((((d.setNum (PENG.ENG_SR 5) 0xA5C3F00F).setNum (PENG.ENG_CR 5) 0x12345678).setNum (PENG.ENG_K 5) 0x00070009).setNum (PENG.ENG_SLOTS_LO 5) 0).setFld (PENG.ENG_STATUS_STATE 5) 2).setFld (PENG.ENG_STATUS_PC 5) 31).setFld (PENG.ENG_CLK_DIV 5) 2).setFld (PENG.ENG_CLK_FRAC 5) 129).setNum (PENG.ENG_PROG 191) 0x9F18 with engs := [(5, { tx := [1, 2], rx := [3] })], time := { milepost := 64000 } }, 5, .status, 0, by decide +kernel⟩,
   ⟨mkS fun d =>
      { ((((((((d.setNum (PENG.ENG_SR 5) 0xA5C3F00F).setNum (PENG.ENG_CR 5) 0x12345678).setNum (PENG.ENG_K 5) 0x00070009).setNum (PENG.ENG_SLOTS_LO 5) 0).setFld (PENG.ENG_STATUS_STATE 5) 2).setFld (PENG.ENG_STATUS_PC 5) 31).setFld (PENG.ENG_CLK_DIV 5) 2).setFld (PENG.ENG_CLK_FRAC 5) 129).setNum (PENG.ENG_PROG 191) 0x9F4D with engs := [(5, { tx := [1, 2], rx := [3] })], time := { milepost := 64000 } }, 5, .k1, 1, by decide +kernel⟩,
   ⟨mkS fun d =>
      { ((((((((d.setNum (PENG.ENG_SR 5) 0xA5C3F00F).setNum (PENG.ENG_CR 5) 0x12345678).setNum (PENG.ENG_K 5) 0x00070009).setNum (PENG.ENG_SLOTS_LO 5) 0).setFld (PENG.ENG_STATUS_STATE 5) 2).setFld (PENG.ENG_STATUS_PC 5) 31).setFld (PENG.ENG_CLK_DIV 5) 2).setFld (PENG.ENG_CLK_FRAC 5) 129).setNum (PENG.ENG_PROG 191) 0x9F62 with engs := [(5, { tx := [1, 2], rx := [3] })], time := { milepost := 64000 } }, 5, .sr, 2, by decide +kernel⟩,
   ⟨mkS fun d =>
      { ((((((((d.setNum (PENG.ENG_SR 5) 0xA5C3F00F).setNum (PENG.ENG_CR 5) 0x12345678).setNum (PENG.ENG_K 5) 0x00070009).setNum (PENG.ENG_SLOTS_LO 5) 0).setFld (PENG.ENG_STATUS_STATE 5) 2).setFld (PENG.ENG_STATUS_PC 5) 31).setFld (PENG.ENG_CLK_DIV 5) 2).setFld (PENG.ENG_CLK_FRAC 5) 129).setNum (PENG.ENG_PROG 191) 0x9F27 with engs := [(5, { tx := [1, 2], rx := [3] })], time := { milepost := 64000 } }, 5, .cr, 3, by decide +kernel⟩,
   ⟨mkS fun d =>
      { ((((((((d.setNum (PENG.ENG_SR 5) 0xA5C3F00F).setNum (PENG.ENG_CR 5) 0x12345678).setNum (PENG.ENG_K 5) 0x00070009).setNum (PENG.ENG_SLOTS_LO 5) 0).setFld (PENG.ENG_STATUS_STATE 5) 2).setFld (PENG.ENG_STATUS_PC 5) 31).setFld (PENG.ENG_CLK_DIV 5) 2).setFld (PENG.ENG_CLK_FRAC 5) 129).setNum (PENG.ENG_PROG 191) 0x9F91 with engs := [(5, { tx := [1, 2], rx := [3] })], time := { milepost := 64000 } }, 5, .slots, 1, by decide +kernel⟩⟩

/-- The hypotheses of clauses 49 to 55 of EngineInstructions are met. -/
theorem witness_EngineInstructions_49 :
    (∃ (s : State) (e : Fin 40) (c : EngSrc) (m : Nat), s.dev.engRuns e = true ∧ s.dev.engInstr e = .copy .dir c m ∧
      s.dev.copyWaits e c = false ∧ (s.dev.eng e).q.length < 8) ∧
    (∃ (s : State) (e : Fin 40) (o : EngDst) (c : EngSrc) (m : Nat), s.dev.engRuns e = true ∧ s.dev.engInstr e = .copy o c m ∧
      s.dev.copyWaits e c = false ∧ (o = .cr ∨ o = .pins ∨ o = .dir) ∧ (s.dev.eng e).q.length ≥ 8) ∧
    (∃ (s : State) (e : Fin 40) (o : EngDst) (m : Nat), s.dev.engRuns e = true ∧ s.dev.engInstr e = .copy o .slots m ∧
      s.dev.due (etNs (s.dev.eng e).et) = false) ∧
    (∃ (s : State) (e : Fin 40) (o : EngDst) (m : Nat), s.dev.engRuns e = true ∧ s.dev.engInstr e = .copy o .cr m ∧ (s.dev.eng e).q ≠ []) ∧
    (∃ (s : State) (e : Fin 40), s.dev.engRuns e = true ∧ s.dev.engInstr e = .note) ∧
    (∃ (s : State) (e : Fin 40), s.dev.engRuns e = true ∧ s.dev.engInstr e = .illegal ∧ (s.dev.eng e).q = [] ∧ (s.dev.eng e).cells = 0) ∧
    (∃ (s : State) (e : Fin 40), s.dev.engRuns e = true ∧ s.dev.engInstr e = .illegal ∧ (s.dev.eng e).q ≠ []) :=
  ⟨⟨mkS fun d =>
      { ((((((((d.setNum (PENG.ENG_SR 5) 0xA5C3F00F).setNum (PENG.ENG_CR 5) 0x12345678).setNum (PENG.ENG_K 5) 0x00070009).setNum (PENG.ENG_SLOTS_LO 5) 0).setFld (PENG.ENG_STATUS_STATE 5) 2).setFld (PENG.ENG_STATUS_PC 5) 31).setFld (PENG.ENG_CLK_DIV 5) 2).setFld (PENG.ENG_CLK_FRAC 5) 129).setNum (PENG.ENG_PROG 191) 0x9FB5 with engs := [(5, { tx := [1, 2], rx := [3] })], time := { milepost := 64000 } }, 5, .zero, 1, by decide +kernel⟩,
   ⟨mkS fun d =>
      { (((((d).setFld (PENG.ENG_STATUS_STATE 5) 2).setFld (PENG.ENG_STATUS_PC 5) 31).setFld (PENG.ENG_CLK_DIV 5) 2).setFld (PENG.ENG_CLK_FRAC 5) 129).setNum (PENG.ENG_PROG 191) 0x9F94 with engs := [(5, { q := List.replicate 8 { t := 0, queued := 0, op := .store } })], time := { milepost := 64000 } }, 5, .pins, .zero, 0, by decide +kernel⟩,
   ⟨mkS fun d =>
      { (((((d).setFld (PENG.ENG_STATUS_STATE 5) 2).setFld (PENG.ENG_STATUS_PC 5) 31).setFld (PENG.ENG_CLK_DIV 5) 2).setFld (PENG.ENG_CLK_FRAC 5) 129).setNum (PENG.ENG_PROG 191) 0x9F10 with engs := [(5, { et := 256256 })], time := { milepost := 64000 } }, 5, .sr, 0, by decide +kernel⟩,
   ⟨mkS fun d =>
      { (((((d).setFld (PENG.ENG_STATUS_STATE 5) 2).setFld (PENG.ENG_STATUS_PC 5) 31).setFld (PENG.ENG_CLK_DIV 5) 2).setFld (PENG.ENG_CLK_FRAC 5) 129).setNum (PENG.ENG_PROG 191) 0x9F04 with engs := [(5, { q := List.replicate 8 { t := 0, queued := 0, op := .store } })], time := { milepost := 64000 } }, 5, .sr, 0, by decide +kernel⟩,
   ⟨mkS fun d =>
      { (((((d.setFld (PENG.ENG_CTRL_EVT_MASK 5) 8).setFld (PENG.ENG_STATUS_STATE 5) 2).setFld (PENG.ENG_STATUS_PC 5) 31).setFld (PENG.ENG_CLK_DIV 5) 2).setFld (PENG.ENG_CLK_FRAC 5) 129).setNum (PENG.ENG_PROG 191) 0xAF80 with engs := [(5, { et := 256000 })], time := { milepost := 64000 } }, 5, by decide +kernel⟩,
   ⟨mkS fun d =>
      { (((((d).setFld (PENG.ENG_STATUS_STATE 5) 2).setFld (PENG.ENG_STATUS_PC 5) 31).setFld (PENG.ENG_CLK_DIV 5) 2).setFld (PENG.ENG_CLK_FRAC 5) 129).setNum (PENG.ENG_PROG 191) 0xF00 with engs := [(5, { et := 256000 })], time := { milepost := 64000 } }, 5, by decide +kernel⟩,
   ⟨mkS fun d =>
      { (((((d).setFld (PENG.ENG_STATUS_STATE 5) 2).setFld (PENG.ENG_STATUS_PC 5) 31).setFld (PENG.ENG_CLK_DIV 5) 2).setFld (PENG.ENG_CLK_FRAC 5) 129).setNum (PENG.ENG_PROG 191) 0xF00 with engs := [(5, { q := List.replicate 8 { t := 0, queued := 0, op := .store } })], time := { milepost := 64000 } }, 5, by decide +kernel⟩⟩

/-- The hypotheses of clauses 1 to 12 of EngineControl are met. -/
theorem witness_EngineControl_1 :
    (∃ (s : State) (e : Fin 40) (o : StageOp) (r : List StageOp) (m : Nat) (v : Nat), (s.dev.eng e).q = o :: r ∧ o.op = .levels m v ∧
      s.dev.due o.t = true ∧ s.dev.flag (PENG.ENG_STATUS_STOPPING e) = false ∧ lateness o.t o.queued = 0 ∧ m < 256 ∧ v < 256) ∧
    (∃ (s : State) (e : Fin 40) (o : StageOp) (r : List StageOp) (v : Nat), (s.dev.eng e).q = o :: r ∧ o.op = .dir v ∧ s.dev.due o.t = true ∧
      s.dev.flag (PENG.ENG_STATUS_STOPPING e) = false ∧ lateness o.t o.queued = 0 ∧ v < 256) ∧
    (∃ (s : State) (e : Fin 40) (o : StageOp) (r : List StageOp) (m : Nat) (v : Nat), (s.dev.eng e).q = o :: r ∧ o.op = .levels m v ∧
      s.dev.due o.t = true ∧ s.dev.flag (PENG.ENG_STATUS_STOPPING e) = false ∧ lateness o.t o.queued > 0 ∧ m < 256 ∧ v < 256) ∧
    (∃ (s : State) (e : Fin 40) (o : StageOp) (r : List StageOp) (v : Nat), (s.dev.eng e).q = o :: r ∧ o.op = .dir v ∧ s.dev.due o.t = true ∧
      s.dev.flag (PENG.ENG_STATUS_STOPPING e) = false ∧ lateness o.t o.queued > 0 ∧ v < 256) ∧
    (∃ (s : State) (e : Fin 40) (o : StageOp) (r : List StageOp) (v : Nat), (s.dev.eng e).q = o :: r ∧ o.op = .dir v ∧ s.dev.due o.t = true ∧
      s.dev.flag (PENG.ENG_STATUS_STOPPING e) = true ∧ lateness o.t o.queued = 0 ∧ r = [] ∧ (s.dev.eng e).cells = 0) ∧
    (∃ (s : State) (e : Fin 40) (o : StageOp) (r : List StageOp) (k : Nat), (s.dev.eng e).q = o :: r ∧ o.op = .take k ∧ s.dev.due o.t = true ∧
      s.dev.flag (PENG.ENG_STATUS_STOPPING e) = false ∧ s.dev.flag (PENG.ENG_CTRL_ORDER_TAKE e) = false ∧ lateness o.t o.queued ≤ 32 * 64) ∧
    (∃ (s : State) (e : Fin 40) (o : StageOp) (r : List StageOp) (k : Nat), (s.dev.eng e).q = o :: r ∧ o.op = .take k ∧ s.dev.due o.t = true ∧
      s.dev.flag (PENG.ENG_STATUS_STOPPING e) = false ∧ s.dev.flag (PENG.ENG_CTRL_ORDER_TAKE e) = false ∧ lateness o.t o.queued > 32 * 64) ∧
    (∃ (s : State) (e : Fin 40) (o : StageOp) (r : List StageOp) (k : Nat), (s.dev.eng e).q = o :: r ∧ o.op = .take k ∧ s.dev.due o.t = true ∧
      s.dev.flag (PENG.ENG_STATUS_STOPPING e) = false ∧ s.dev.flag (PENG.ENG_CTRL_ORDER_TAKE e) = true ∧ lateness o.t o.queued ≤ 32 * 64) ∧
    (∃ (s : State) (e : Fin 40) (o : StageOp) (r : List StageOp) (k : Nat), (s.dev.eng e).q = o :: r ∧ o.op = .take k ∧ s.dev.due o.t = true ∧
      s.dev.flag (PENG.ENG_STATUS_STOPPING e) = false ∧ s.dev.flag (PENG.ENG_CTRL_ORDER_TAKE e) = true ∧ lateness o.t o.queued > 32 * 64) ∧
    (∃ (s : State) (e : Fin 40) (o : StageOp) (r : List StageOp) (v : Word), (s.dev.eng e).q = o :: r ∧ o.op = .toCr v ∧ s.dev.due o.t = true ∧
      s.dev.flag (PENG.ENG_STATUS_STOPPING e) = false) ∧
    (∃ (s : State) (e : Fin 40) (o : StageOp) (r : List StageOp), (s.dev.eng e).q = o :: r ∧ o.op = .store ∧ s.dev.due o.t = true ∧
      s.dev.flag (PENG.ENG_STATUS_STOPPING e) = false ∧ (s.dev.eng e).rx.length < 8) ∧
    (∃ (s : State) (e : Fin 40) (o : StageOp) (r : List StageOp), (s.dev.eng e).q = o :: r ∧ o.op = .store ∧ s.dev.due o.t = true ∧
      s.dev.flag (PENG.ENG_STATUS_STOPPING e) = false ∧ (s.dev.eng e).rx.length ≥ 8) :=
  ⟨⟨mkS fun d =>
      { ((((((d.setFld (PENG.ENG_PSTATE_LEVELS 5) 0xC3).setFld (PENG.ENG_PSTATE_DIR 5) 0x81).setFld (PENG.ENG_STATUS_STATE 5) 2).setFld (PENG.ENG_STATUS_PC 5) 31).setFld (PENG.ENG_CLK_DIV 5) 2).setFld (PENG.ENG_CLK_FRAC 5) 129).setNum (PENG.ENG_PROG 191) 0x0 with engs := [(5, { q := [{ t := 640, queued := 0, op := .levels 0x3C 0x24 }] })], time := { milepost := 64000 } }, 5, { t := 640, queued := 0, op := .levels 0x3C 0x24 }, [], 0x3C, 0x24, by decide +kernel⟩,
   ⟨mkS fun d =>
      { ((((((d.setFld (PENG.ENG_PSTATE_LEVELS 5) 0xC3).setFld (PENG.ENG_PSTATE_DIR 5) 0x81).setFld (PENG.ENG_STATUS_STATE 5) 2).setFld (PENG.ENG_STATUS_PC 5) 31).setFld (PENG.ENG_CLK_DIV 5) 2).setFld (PENG.ENG_CLK_FRAC 5) 129).setNum (PENG.ENG_PROG 191) 0x0 with engs := [(5, { q := [{ t := 640, queued := 0, op := .dir 0xF0 }] })], time := { milepost := 64000 } }, 5, { t := 640, queued := 0, op := .dir 0xF0 }, [], 0xF0, by decide +kernel⟩,
   ⟨mkS fun d =>
      { (((((((d.setFld (PENG.ENG_PSTATE_LEVELS 5) 0xC3).setFld (PENG.ENG_PSTATE_DIR 5) 0x81).setFld (PENG.ENG_CTRL_EVT_MASK 5) 4).setFld (PENG.ENG_STATUS_STATE 5) 2).setFld (PENG.ENG_STATUS_PC 5) 31).setFld (PENG.ENG_CLK_DIV 5) 2).setFld (PENG.ENG_CLK_FRAC 5) 129).setNum (PENG.ENG_PROG 191) 0x0 with engs := [(5, { q := [{ t := 640, queued := 6400, op := .levels 0x3C 0x24 }] })], time := { milepost := 64000 } }, 5, { t := 640, queued := 6400, op := .levels 0x3C 0x24 }, [], 0x3C, 0x24, by decide +kernel⟩,
   ⟨mkS fun d =>
      { (((((((d.setFld (PENG.ENG_PSTATE_LEVELS 5) 0xC3).setFld (PENG.ENG_PSTATE_DIR 5) 0x81).setFld (PENG.ENG_CTRL_EVT_MASK 5) 4).setFld (PENG.ENG_STATUS_STATE 5) 2).setFld (PENG.ENG_STATUS_PC 5) 31).setFld (PENG.ENG_CLK_DIV 5) 2).setFld (PENG.ENG_CLK_FRAC 5) 129).setNum (PENG.ENG_PROG 191) 0x0 with engs := [(5, { q := [{ t := 640, queued := 6400, op := .dir 0xF0 }] })], time := { milepost := 64000 } }, 5, { t := 640, queued := 6400, op := .dir 0xF0 }, [], 0xF0, by decide +kernel⟩,
   ⟨mkS fun d =>
      { ((((((d.setFld (PENG.ENG_STATUS_STOPPING 5) 1).setFld (PENG.ENG_STATUS_CAUSE 5) 1).setFld (PENG.ENG_STATUS_STATE 5) 2).setFld (PENG.ENG_STATUS_PC 5) 31).setFld (PENG.ENG_CLK_DIV 5) 2).setFld (PENG.ENG_CLK_FRAC 5) 129).setNum (PENG.ENG_PROG 191) 0x0 with engs := [(5, { q := [{ t := 640, queued := 0, op := .dir 0xF0 }] })], time := { milepost := 64000 } }, 5, { t := 640, queued := 0, op := .dir 0xF0 }, [], 0xF0, by decide +kernel⟩,
   ⟨mkS fun d =>
      { (((((({ (((d).setNum (PENG.ENG_CR 5) 0x80000001).setFld (PENG.ENG_CTRL_WIDTH 5) 2).setNum (PENG.ENG_SLOTS_LO 5) 0x07070007 with pins := [(7, { hist := [(64, true)] })] }).setFld (PENG.ENG_CTRL_ORDER_TAKE 5) 0).setFld (PENG.ENG_STATUS_STATE 5) 2).setFld (PENG.ENG_STATUS_PC 5) 31).setFld (PENG.ENG_CLK_DIV 5) 2).setFld (PENG.ENG_CLK_FRAC 5) 129).setNum (PENG.ENG_PROG 191) 0x0 with engs := [(5, { q := [{ t := 640, queued := 0, op := .take 0 }] })], time := { milepost := 64000 } }, 5, { t := 640, queued := 0, op := .take 0 }, [], 0, by decide +kernel⟩,
   ⟨mkS fun d =>
      { (((((({ (((d).setNum (PENG.ENG_CR 5) 0x80000001).setFld (PENG.ENG_CTRL_WIDTH 5) 2).setNum (PENG.ENG_SLOTS_LO 5) 0x07070007 with pins := [(7, { hist := [(64, true)] })] }).setFld (PENG.ENG_CTRL_ORDER_TAKE 5) 0).setFld (PENG.ENG_STATUS_STATE 5) 2).setFld (PENG.ENG_STATUS_PC 5) 31).setFld (PENG.ENG_CLK_DIV 5) 2).setFld (PENG.ENG_CLK_FRAC 5) 129).setNum (PENG.ENG_PROG 191) 0x0 with engs := [(5, { q := [{ t := 640, queued := 6400, op := .take 0 }] })], time := { milepost := 64000 } }, 5, { t := 640, queued := 6400, op := .take 0 }, [], 0, by decide +kernel⟩,
   ⟨mkS fun d =>
      { (((((({ (((d).setNum (PENG.ENG_CR 5) 0x80000001).setFld (PENG.ENG_CTRL_WIDTH 5) 2).setNum (PENG.ENG_SLOTS_LO 5) 0x07070007 with pins := [(7, { hist := [(64, true)] })] }).setFld (PENG.ENG_CTRL_ORDER_TAKE 5) 1).setFld (PENG.ENG_STATUS_STATE 5) 2).setFld (PENG.ENG_STATUS_PC 5) 31).setFld (PENG.ENG_CLK_DIV 5) 2).setFld (PENG.ENG_CLK_FRAC 5) 129).setNum (PENG.ENG_PROG 191) 0x0 with engs := [(5, { q := [{ t := 640, queued := 0, op := .take 0 }] })], time := { milepost := 64000 } }, 5, { t := 640, queued := 0, op := .take 0 }, [], 0, by decide +kernel⟩,
   ⟨mkS fun d =>
      { (((((({ (((d).setNum (PENG.ENG_CR 5) 0x80000001).setFld (PENG.ENG_CTRL_WIDTH 5) 2).setNum (PENG.ENG_SLOTS_LO 5) 0x07070007 with pins := [(7, { hist := [(64, true)] })] }).setFld (PENG.ENG_CTRL_ORDER_TAKE 5) 1).setFld (PENG.ENG_STATUS_STATE 5) 2).setFld (PENG.ENG_STATUS_PC 5) 31).setFld (PENG.ENG_CLK_DIV 5) 2).setFld (PENG.ENG_CLK_FRAC 5) 129).setNum (PENG.ENG_PROG 191) 0x0 with engs := [(5, { q := [{ t := 640, queued := 6400, op := .take 0 }] })], time := { milepost := 64000 } }, 5, { t := 640, queued := 6400, op := .take 0 }, [], 0, by decide +kernel⟩,
   ⟨mkS fun d =>
      { (((((d).setFld (PENG.ENG_STATUS_STATE 5) 2).setFld (PENG.ENG_STATUS_PC 5) 31).setFld (PENG.ENG_CLK_DIV 5) 2).setFld (PENG.ENG_CLK_FRAC 5) 129).setNum (PENG.ENG_PROG 191) 0x0 with engs := [(5, { q := [{ t := 640, queued := 0, op := .toCr 77 }] })], time := { milepost := 64000 } }, 5, { t := 640, queued := 0, op := .toCr 77 }, [], 77, by decide +kernel⟩,
   ⟨mkS fun d =>
      { (((((d.setNum (PENG.ENG_CR 5) 9).setFld (PENG.ENG_STATUS_STATE 5) 2).setFld (PENG.ENG_STATUS_PC 5) 31).setFld (PENG.ENG_CLK_DIV 5) 2).setFld (PENG.ENG_CLK_FRAC 5) 129).setNum (PENG.ENG_PROG 191) 0x0 with engs := [(5, { q := [{ t := 640, queued := 0, op := .store }] })], time := { milepost := 64000 } }, 5, { t := 640, queued := 0, op := .store }, [], by decide +kernel⟩,
   ⟨mkS fun d =>
      { ((((((d.setNum (PENG.ENG_CR 5) 9).setFld (PENG.ENG_CTRL_EVT_MASK 5) 2).setFld (PENG.ENG_STATUS_STATE 5) 2).setFld (PENG.ENG_STATUS_PC 5) 31).setFld (PENG.ENG_CLK_DIV 5) 2).setFld (PENG.ENG_CLK_FRAC 5) 129).setNum (PENG.ENG_PROG 191) 0x0 with engs := [(5, { q := [{ t := 640, queued := 0, op := .store }], rx := List.replicate 8 1 })], time := { milepost := 64000 } }, 5, { t := 640, queued := 0, op := .store }, [], by decide +kernel⟩⟩

/-- The hypotheses of clauses 13 to 24 of EngineControl are met. -/
theorem witness_EngineControl_13 :
    (∃ (s : State) (e : Fin 40) (o : StageOp) (r : List StageOp) (i : Nat) (v : Bool), (s.dev.eng e).q = o :: r ∧ o.op = .flag i v ∧
      s.dev.due o.t = true ∧ s.dev.flag (PENG.ENG_STATUS_STOPPING e) = false ∧ i < 8 ∧ s.dev.mapBit (PENG.GFLAGS 0) (8 * (e.val / 8) + i) ≠ v) ∧
    (∃ (s : State) (e : Fin 40) (o : StageOp) (r : List StageOp) (i : Nat) (v : Bool), (s.dev.eng e).q = o :: r ∧ o.op = .flag i v ∧
      s.dev.due o.t = true ∧ s.dev.flag (PENG.ENG_STATUS_STOPPING e) = false ∧ i < 8 ∧ s.dev.mapBit (PENG.GFLAGS 0) (8 * (e.val / 8) + i) = v) ∧
    (∃ (s : State) (e : Fin 40) (o : StageOp) (r : List StageOp), (s.dev.eng e).q = o :: r ∧ s.dev.due o.t = false) ∧
    (∃ (s : State) (a : Agent) (e : Fin 40) (v : Word), s.dev.takes a.id (PENG.ENG_CMD e) v = true ∧ v.toNat % 8 = 1 ∧ s.dev.engState e ≠ 1 ∧
      s.dev.flag (PENG.ENG_STATUS_STOPPING e) = false ∧ (s.dev.eng e).q = [] ∧ (s.dev.eng e).cells = 0) ∧
    (∃ (s : State) (a : Agent) (e : Fin 40) (v : Word), s.dev.takes a.id (PENG.ENG_CMD e) v = true ∧ v.toNat % 8 = 1 ∧ s.dev.engState e ≠ 1 ∧
      s.dev.flag (PENG.ENG_STATUS_STOPPING e) = false ∧ ((s.dev.eng e).q ≠ [] ∨ (s.dev.eng e).cells ≠ 0)) ∧
    (∃ (s : State) (a : Agent) (e : Fin 40) (v : Word), s.dev.takes a.id (PENG.ENG_CMD e) v = true ∧ v.toNat % 8 = 1 ∧ s.dev.engState e ≠ 1 ∧
      s.dev.flag (PENG.ENG_STATUS_STOPPING e) = true) ∧
    (∃ (s : State) (a : Agent) (e : Fin 40) (v : Word), s.dev.takes a.id (PENG.ENG_CMD e) v = true ∧ v.toNat % 8 = 1 ∧ s.dev.engState e = 1) ∧
    (∃ (s : State) (a : Agent) (e : Fin 40) (v : Word), s.dev.takes a.id (PENG.ENG_CMD e) v = true ∧ v.toNat % 8 = 2 ∧ s.dev.engState e ≠ 1 ∧
      s.dev.flag (PENG.ENG_STATUS_STOPPING e) = false ∧ (s.dev.eng e).cells = 0) ∧
    (∃ (s : State) (a : Agent) (e : Fin 40) (v : Word), s.dev.takes a.id (PENG.ENG_CMD e) v = true ∧ v.toNat % 8 = 2 ∧
      s.dev.flag (PENG.ENG_STATUS_STOPPING e) = true ∧ (s.dev.eng e).cells = 0) ∧
    (∃ (s : State) (a : Agent) (e : Fin 40) (v : Word), s.dev.takes a.id (PENG.ENG_CMD e) v = true ∧ v.toNat % 8 = 2 ∧ s.dev.engState e = 1 ∧
      s.dev.flag (PENG.ENG_STATUS_STOPPING e) = false ∧ (s.dev.eng e).cells = 0) ∧
    (∃ (s : State) (a : Agent) (e : Fin 40) (v : Word), s.dev.takes a.id (PENG.ENG_CMD e) v = true ∧ v.toNat % 8 = 3 ∧ wordBit v 8 = false) ∧
    (∃ (s : State) (a : Agent) (e : Fin 40) (v : Word), s.dev.takes a.id (PENG.ENG_CMD e) v = true ∧ v.toNat % 8 = 3 ∧ wordBit v 8 = true) :=
  ⟨⟨mkS fun d =>
      { (((((d).setFld (PENG.ENG_STATUS_STATE 5) 2).setFld (PENG.ENG_STATUS_PC 5) 31).setFld (PENG.ENG_CLK_DIV 5) 2).setFld (PENG.ENG_CLK_FRAC 5) 129).setNum (PENG.ENG_PROG 191) 0x0 with engs := [(5, { q := [{ t := 640, queued := 0, op := .flag 3 true }] })], time := { milepost := 64000 } }, 5, { t := 640, queued := 0, op := .flag 3 true }, [], 3, true, by decide +kernel⟩,
   ⟨mkS fun d =>
      { (((((d.setMapBit (PENG.GFLAGS 0) 3 true).setFld (PENG.ENG_STATUS_STATE 5) 2).setFld (PENG.ENG_STATUS_PC 5) 31).setFld (PENG.ENG_CLK_DIV 5) 2).setFld (PENG.ENG_CLK_FRAC 5) 129).setNum (PENG.ENG_PROG 191) 0x0 with engs := [(5, { q := [{ t := 640, queued := 0, op := .flag 3 true }] })], time := { milepost := 64000 } }, 5, { t := 640, queued := 0, op := .flag 3 true }, [], 3, true, by decide +kernel⟩,
   ⟨mkS fun d =>
      { d with engs := [(5, { q := [{ t := 64000, queued := 0, op := .store }] })] }, 5, { t := 64000, queued := 0, op := .store }, [], by decide +kernel⟩,
   ⟨mkS fun d =>
      { (((((d.setReg SUPPLY.DOM_STATUS_0 0xFFFFFFFF).setFld (PENG.ENG_STATUS_STATE 5) 2).setFld (PENG.ENG_STATUS_PC 5) 31).setFld (PENG.ENG_CLK_DIV 5) 2).setFld (PENG.ENG_CLK_FRAC 5) 129).setNum (PENG.ENG_PROG 191) 0x0 with engs := [(5, { et := 256000 })], time := { milepost := 64000 } }, .loader, 5, 1, by decide +kernel⟩,
   ⟨mkS fun d =>
      { (((((d.setReg SUPPLY.DOM_STATUS_0 0xFFFFFFFF).setFld (PENG.ENG_STATUS_STATE 5) 2).setFld (PENG.ENG_STATUS_PC 5) 31).setFld (PENG.ENG_CLK_DIV 5) 2).setFld (PENG.ENG_CLK_FRAC 5) 129).setNum (PENG.ENG_PROG 191) 0x0 with engs := [(5, { q := List.replicate 8 { t := 0, queued := 0, op := .store } })], time := { milepost := 64000 } }, .loader, 5, 1, by decide +kernel⟩,
   ⟨mkS fun d =>
      { ((((((d.setReg SUPPLY.DOM_STATUS_0 0xFFFFFFFF).setFld (PENG.ENG_STATUS_STOPPING 5) 1).setFld (PENG.ENG_STATUS_STATE 5) 2).setFld (PENG.ENG_STATUS_PC 5) 31).setFld (PENG.ENG_CLK_DIV 5) 2).setFld (PENG.ENG_CLK_FRAC 5) 129).setNum (PENG.ENG_PROG 191) 0x0 with engs := [(5, { q := List.replicate 8 { t := 0, queued := 0, op := .store } })], time := { milepost := 64000 } }, .loader, 5, 1, by decide +kernel⟩,
   ⟨mkS fun d =>
      { (((((d.setReg SUPPLY.DOM_STATUS_0 0xFFFFFFFF).setFld (PENG.ENG_STATUS_STATE 5) 1).setFld (PENG.ENG_STATUS_PC 5) 31).setFld (PENG.ENG_CLK_DIV 5) 2).setFld (PENG.ENG_CLK_FRAC 5) 129).setNum (PENG.ENG_PROG 191) 0x0 with engs := [(5, { start := some (64, true, 0) })], time := { milepost := 64000 } }, .loader, 5, 1, by decide +kernel⟩,
   ⟨mkS fun d =>
      { (((((d.setReg SUPPLY.DOM_STATUS_0 0xFFFFFFFF).setFld (PENG.ENG_STATUS_STATE 5) 2).setFld (PENG.ENG_STATUS_PC 5) 31).setFld (PENG.ENG_CLK_DIV 5) 2).setFld (PENG.ENG_CLK_FRAC 5) 129).setNum (PENG.ENG_PROG 191) 0x0 with engs := [(5, { q := List.replicate 8 { t := 0, queued := 0, op := .store } })], time := { milepost := 64000 } }, .loader, 5, 2, by decide +kernel⟩,
   ⟨mkS fun d =>
      { ((((((d.setReg SUPPLY.DOM_STATUS_0 0xFFFFFFFF).setFld (PENG.ENG_STATUS_STOPPING 5) 1).setFld (PENG.ENG_STATUS_STATE 5) 2).setFld (PENG.ENG_STATUS_PC 5) 31).setFld (PENG.ENG_CLK_DIV 5) 2).setFld (PENG.ENG_CLK_FRAC 5) 129).setNum (PENG.ENG_PROG 191) 0x0 with engs := [(5, { q := List.replicate 8 { t := 0, queued := 0, op := .store } })], time := { milepost := 64000 } }, .loader, 5, 2, by decide +kernel⟩,
   ⟨mkS fun d =>
      { (((((d.setReg SUPPLY.DOM_STATUS_0 0xFFFFFFFF).setFld (PENG.ENG_STATUS_STATE 5) 1).setFld (PENG.ENG_STATUS_PC 5) 31).setFld (PENG.ENG_CLK_DIV 5) 2).setFld (PENG.ENG_CLK_FRAC 5) 129).setNum (PENG.ENG_PROG 191) 0x0 with engs := [(5, { start := some (64, true, 0) })], time := { milepost := 64000 } }, .loader, 5, 2, by decide +kernel⟩,
   ⟨mkS fun d =>
      { (((((d.setReg SUPPLY.DOM_STATUS_0 0xFFFFFFFF).setFld (PENG.ENG_STATUS_STATE 5) 0).setFld (PENG.ENG_STATUS_PC 5) 31).setFld (PENG.ENG_CLK_DIV 5) 2).setFld (PENG.ENG_CLK_FRAC 5) 129).setNum (PENG.ENG_PROG 191) 0x0 with engs := [(5, { et := 256000 })], time := { milepost := 64000 } }, .loader, 5, 3, by decide +kernel⟩,
   ⟨mkS fun d =>
      { (((((d.setReg SUPPLY.DOM_STATUS_0 0xFFFFFFFF).setFld (PENG.ENG_STATUS_STATE 5) 0).setFld (PENG.ENG_STATUS_PC 5) 31).setFld (PENG.ENG_CLK_DIV 5) 2).setFld (PENG.ENG_CLK_FRAC 5) 129).setNum (PENG.ENG_PROG 191) 0x0 with engs := [(5, { et := 256000 })], time := { milepost := 64000 } }, .loader, 5, 0x103, by decide +kernel⟩⟩

/-- The hypotheses of clauses 25 to 36 of EngineControl are met. -/
theorem witness_EngineControl_25 :
    (∃ (s : State) (a : Agent) (e : Fin 40) (v : Word), s.dev.takes a.id (PENG.ENG_CMD e) v = true ∧ v.toNat % 8 = 4 ∧ wordBit v 8 = false) ∧
    (∃ (s : State) (a : Agent) (e : Fin 40) (v : Word), s.dev.takes a.id (PENG.ENG_CMD e) v = true ∧ v.toNat % 8 = 4 ∧ wordBit v 8 = true) ∧
    (∃ (s : State) (a : Agent) (e : Fin 40) (v : Word), s.dev.takes a.id (PENG.ENG_CMD e) v = true ∧ v.toNat % 8 = 5 ∧ s.dev.engState e = 0) ∧
    (∃ (s : State) (a : Agent) (v : Word), s.dev.takes a.id PENG.GSTART_CMD v = true ∧ wordBit v 31 = true ∧ wordBit v 0 = false) ∧
    (∃ (s : State) (a : Agent) (v : Word), s.dev.takes a.id PENG.GSTART_CMD v = true ∧ wordBit v 31 = true ∧ wordBit v 0 = true) ∧
    (∃ (s : State) (a : Agent) (e : Fin 40) (i : Fin 32) (v : Word), s.dev.takes a.id (PENG.ENG_PROG (32 * e.val + i.val)) v = true) ∧
    (∃ (s : State) (a : Agent) (e : Fin 40) (v : Word), s.dev.takes a.id (PENG.ENG_OWNER e) v = true) ∧
    (∃ (s : State) (e : Fin 40) (t arr : Time), (s.dev.eng e).start = some (t, false, arr) ∧ s.dev.due t = true ∧ before t arr = false) ∧
    (∃ (s : State) (e : Fin 40) (t arr : Time), (s.dev.eng e).start = some (t, true, arr) ∧ s.dev.due t = true ∧ before t arr = false) ∧
    (∃ (s : State) (e : Fin 40) (t arr : Time), (s.dev.eng e).start = some (t, false, arr) ∧ s.dev.due t = true ∧ before t arr = true ∧
      ceilNs arr ≠ t) ∧
    (∃ (s : State) (e : Fin 40) (t arr : Time), (s.dev.eng e).start = some (t, true, arr) ∧ s.dev.due t = true ∧ before t arr = true ∧
      ceilNs arr ≠ t) ∧
    (∃ (s : State) (e : Fin 40), ((s.dev.eng e).start.all fun p => !s.dev.due p.1) = true) :=
  ⟨⟨mkS fun d =>
      { (((((d.setReg SUPPLY.DOM_STATUS_0 0xFFFFFFFF).setFld (PENG.ENG_STATUS_STATE 5) 0).setFld (PENG.ENG_STATUS_PC 5) 31).setFld (PENG.ENG_CLK_DIV 5) 2).setFld (PENG.ENG_CLK_FRAC 5) 129).setNum (PENG.ENG_PROG 191) 0x0 with engs := [(5, { et := 256000 })], time := { milepost := 64000 } }, .loader, 5, 4, by decide +kernel⟩,
   ⟨mkS fun d =>
      { (((((d.setReg SUPPLY.DOM_STATUS_0 0xFFFFFFFF).setFld (PENG.ENG_STATUS_STATE 5) 0).setFld (PENG.ENG_STATUS_PC 5) 31).setFld (PENG.ENG_CLK_DIV 5) 2).setFld (PENG.ENG_CLK_FRAC 5) 129).setNum (PENG.ENG_PROG 191) 0x0 with engs := [(5, { et := 256000 })], time := { milepost := 64000 } }, .loader, 5, 0x104, by decide +kernel⟩,
   ⟨mkS fun d =>
      { (((((d.setReg SUPPLY.DOM_STATUS_0 0xFFFFFFFF).setFld (PENG.ENG_STATUS_STATE 5) 0).setFld (PENG.ENG_STATUS_PC 5) 31).setFld (PENG.ENG_CLK_DIV 5) 2).setFld (PENG.ENG_CLK_FRAC 5) 129).setNum (PENG.ENG_PROG 191) 0x0 with engs := [(5, { tx := [1], rx := [2] })], time := { milepost := 64000 } }, .loader, 5, 5, by decide +kernel⟩,
   ⟨mkS fun d =>
      { ((((((d.setReg SUPPLY.DOM_STATUS_0 0xFFFFFFFF).setNum (PENG.GSTART_MASK 0) 0x30).setFld (PENG.ENG_STATUS_STATE 5) 0).setFld (PENG.ENG_STATUS_PC 5) 31).setFld (PENG.ENG_CLK_DIV 5) 2).setFld (PENG.ENG_CLK_FRAC 5) 129).setNum (PENG.ENG_PROG 191) 0x0 with engs := [(5, { et := 256000 })], time := { milepost := 64000 } }, .loader, 0x80000000, by decide +kernel⟩,
   ⟨mkS fun d =>
      { ((((((d.setReg SUPPLY.DOM_STATUS_0 0xFFFFFFFF).setNum (PENG.GSTART_MASK 0) 0x30).setFld (PENG.ENG_STATUS_STATE 5) 0).setFld (PENG.ENG_STATUS_PC 5) 31).setFld (PENG.ENG_CLK_DIV 5) 2).setFld (PENG.ENG_CLK_FRAC 5) 129).setNum (PENG.ENG_PROG 191) 0x0 with engs := [(5, { et := 256000 })], time := { milepost := 64000 } }, .loader, 0x80000001, by decide +kernel⟩,
   ⟨mkS fun d =>
      { (((((d.setReg SUPPLY.DOM_STATUS_0 0xFFFFFFFF).setFld (PENG.ENG_STATUS_STATE 5) 0).setFld (PENG.ENG_STATUS_PC 5) 31).setFld (PENG.ENG_CLK_DIV 5) 2).setFld (PENG.ENG_CLK_FRAC 5) 129).setNum (PENG.ENG_PROG 191) 0x0 with engs := [(5, { et := 256000 })], time := { milepost := 64000 } }, .loader, 5, 31, 0x1000, by decide +kernel⟩,
   ⟨mkS fun d =>
      { (((((d.setReg SUPPLY.DOM_STATUS_0 0xFFFFFFFF).setFld (PENG.ENG_STATUS_STATE 5) 0).setFld (PENG.ENG_STATUS_PC 5) 31).setFld (PENG.ENG_CLK_DIV 5) 2).setFld (PENG.ENG_CLK_FRAC 5) 129).setNum (PENG.ENG_PROG 191) 0x0 with engs := [(5, { et := 256000 })], time := { milepost := 64000 } }, .loader, 5, 0x10203, by decide +kernel⟩,
   ⟨mkS fun d =>
      { (((((((d.setNum (PENG.ENG_SR 5) 3).setNum (PENG.ENG_K 5) 3).setNum (PENG.ENG_PSTATE 5) 0x2000A5A5).setFld (PENG.ENG_STATUS_STATE 5) 1).setFld (PENG.ENG_STATUS_PC 5) 31).setFld (PENG.ENG_CLK_DIV 5) 2).setFld (PENG.ENG_CLK_FRAC 5) 129).setNum (PENG.ENG_PROG 191) 0x0 with engs := [(5, { start := some (640, false, 0) })], time := { milepost := 64000 } }, 5, 640, 0, by decide +kernel⟩,
   ⟨mkS fun d =>
      { (((((((d.setNum (PENG.ENG_SR 5) 3).setNum (PENG.ENG_K 5) 3).setNum (PENG.ENG_PSTATE 5) 0x2000A5A5).setFld (PENG.ENG_STATUS_STATE 5) 1).setFld (PENG.ENG_STATUS_PC 5) 31).setFld (PENG.ENG_CLK_DIV 5) 2).setFld (PENG.ENG_CLK_FRAC 5) 129).setNum (PENG.ENG_PROG 191) 0x0 with engs := [(5, { start := some (640, true, 0) })], time := { milepost := 64000 } }, 5, 640, 0, by decide +kernel⟩,
   ⟨mkS fun d =>
      { (((((((d.setNum (PENG.ENG_SR 5) 3).setNum (PENG.ENG_K 5) 3).setNum (PENG.ENG_PSTATE 5) 0x2000A5A5).setFld (PENG.ENG_STATUS_STATE 5) 1).setFld (PENG.ENG_STATUS_PC 5) 31).setFld (PENG.ENG_CLK_DIV 5) 2).setFld (PENG.ENG_CLK_FRAC 5) 129).setNum (PENG.ENG_PROG 191) 0x0 with engs := [(5, { start := some (640, false, 6401) })], time := { milepost := 64000 } }, 5, 640, 6401, by decide +kernel⟩,
   ⟨mkS fun d =>
      { (((((((d.setNum (PENG.ENG_SR 5) 3).setNum (PENG.ENG_K 5) 3).setNum (PENG.ENG_PSTATE 5) 0x2000A5A5).setFld (PENG.ENG_STATUS_STATE 5) 1).setFld (PENG.ENG_STATUS_PC 5) 31).setFld (PENG.ENG_CLK_DIV 5) 2).setFld (PENG.ENG_CLK_FRAC 5) 129).setNum (PENG.ENG_PROG 191) 0x0 with engs := [(5, { start := some (640, true, 6401) })], time := { milepost := 64000 } }, 5, 640, 6401, by decide +kernel⟩,
   ⟨mkS fun d =>
      { (((((d).setFld (PENG.ENG_STATUS_STATE 5) 1).setFld (PENG.ENG_STATUS_PC 5) 31).setFld (PENG.ENG_CLK_DIV 5) 2).setFld (PENG.ENG_CLK_FRAC 5) 129).setNum (PENG.ENG_PROG 191) 0x0 with engs := [(5, { start := some (64064, true, 0) })], time := { milepost := 64000 } }, 5, by decide +kernel⟩⟩

/-- The hypotheses of clauses 37, 38 of EngineControl are met. -/
theorem witness_EngineControl_37 :
    (∃ (s : State) (k : Fin 5), s.dev.powered (20 + k.val) 5000 = true ∧ s.dev.domReady (20 + k.val) = false) ∧
    (∃ (s : State) (k : Fin 5), s.dev.domReady (20 + k.val) = true) :=
  ⟨⟨mkS fun d => { d with domUp := [24], sup := { upAt := [(24, 0)] }, time := { milepost := nsT 20000 } }, 4, by decide +kernel⟩,
   ⟨mkS fun d => d.setReg SUPPLY.DOM_STATUS_0 0xFFFFFFFF, 4, by decide +kernel⟩⟩

/-- The hypotheses of clauses 1 to 12 of PinCommands are met. -/
theorem witness_PinCommands_1 :
    (∃ (s : State) (a : Agent) (p : Fin 160) (v : Word), s.dev.takes a.id (PINMUX.PIN_OWN p) v = true ∧
      s.dev.afterWrite (PINMUX.PIN_OWN p) v ≠ s.dev.reg (PINMUX.PIN_OWN p) ∧ p.val < 96 ∧ bitsOf v.toNat 26 24 ≠ 2) ∧
    (∃ (s : State) (a : Agent) (p : Fin 160) (v : Word), s.dev.takes a.id (PINMUX.PIN_OWN p) v = true ∧
      s.dev.afterWrite (PINMUX.PIN_OWN p) v ≠ s.dev.reg (PINMUX.PIN_OWN p) ∧ p.val < 96 ∧ bitsOf v.toNat 26 24 = 2) ∧
    (∃ (s : State) (a : Agent) (p : Fin 160) (v : Word), s.dev.takes a.id (PINMUX.PIN_OWN p) v = true ∧
      s.dev.afterWrite (PINMUX.PIN_OWN p) v ≠ s.dev.reg (PINMUX.PIN_OWN p) ∧ p.val ≥ 96 ∧ bitsOf v.toNat 26 24 ≠ 2) ∧
    (∃ (s : State) (a : Agent) (p : Fin 160) (v : Word), s.dev.takes a.id (PINMUX.PIN_OWN p) v = true ∧
      s.dev.afterWrite (PINMUX.PIN_OWN p) v ≠ s.dev.reg (PINMUX.PIN_OWN p) ∧ p.val ≥ 96 ∧ bitsOf v.toNat 26 24 = 2) ∧
    (∃ (s : State) (a : Agent) (p : Fin 160) (v : Word), s.dev.takes a.id (PINMUX.PIN_OWN p) v = true ∧
      s.dev.afterWrite (PINMUX.PIN_OWN p) v = s.dev.reg (PINMUX.PIN_OWN p)) ∧
    (∃ (s : State) (a : Agent) (p : Fin 160) (v : Word), s.dev.refuses a.id (PINMUX.PIN_OWN p) v .permission = true) ∧
    (∃ (s : State) (p : Fin 160) (x : Xing), Tab.find p.val s.dev.xings = some x ∧ s.dev.due x.endT = true) ∧
    (∃ (s : State) (p : Fin 160), ((Tab.find p.val s.dev.xings).all fun x => !s.dev.due x.endT) = true) ∧
    (∃ (s : State) (a : Agent) (p : Fin 160) (v : Word), s.dev.takes a.id (PINMUX.PIN_SOFT p) v = true) ∧
    (∃ (s : State) (a : Agent) (p : Fin 160) (v : Word), s.dev.refuses a.id (PINMUX.PIN_SOFT p) v .permission = true) ∧
    (∃ (s : State) (p : Fin 160) (l : Bool), (s.dev.pin p).raw ≠ l ∧ l ≠ s.dev.pinIn p ∧ s.dev.fld (PINMUX.PIN_CFG_FILT p) = 0) ∧
    (∃ (s : State) (p : Fin 160) (l : Bool), (s.dev.pin p).raw ≠ l ∧ l ≠ s.dev.pinIn p ∧ s.dev.fld (PINMUX.PIN_CFG_FILT p) ≠ 0) :=
  ⟨⟨mkS fun d => d, .loader, 17, 0x04080001, by decide +kernel⟩,
   ⟨mkS fun d => d, .loader, 17, 0x02000203, by decide +kernel⟩,
   ⟨mkS fun d => d, .loader, 120, 0x05000203, by decide +kernel⟩,
   ⟨mkS fun d => d, .loader, 120, 0x02000203, by decide +kernel⟩,
   ⟨mkS fun d => d, .loader, 17, 0, by decide +kernel⟩,
   ⟨mkS fun d => d.setReg (PROTECT.BLK_PERM 0x2D) 0xFFFFFFFF, .host, 17, 0x01000203, by decide +kernel⟩,
   ⟨mkS fun d => { d with xings := [(17, ⟨640, .mid⟩)], time := { milepost := 640 } }, 17, ⟨640, .mid⟩, by decide +kernel⟩,
   ⟨mkS fun d => { d with xings := [(17, ⟨640, .mid⟩)] }, 17, by decide +kernel⟩,
   ⟨mkS fun d => d.setNum (PINMUX.PIN_OWN 120) 0x01000000, .loader, 120, 1, by decide +kernel⟩,
   ⟨mkS fun d => d.setReg (PROTECT.BLK_PERM 0x2D) 0xFFFFFFFF, .host, 120, 2, by decide +kernel⟩,
   ⟨mkS fun d =>
      { (d.setFld (PINMUX.PIN_CFG_INT 120) 4) with pins := [(120, { raw := false, since := none })], time := { milepost := 640 } }, 120, true, by decide +kernel⟩,
   ⟨mkS fun d =>
      { (d.setFld (PINMUX.PIN_CFG_FILT 120) 3) with pins := [(120, { raw := false, since := none })], time := { milepost := 640 } }, 120, true, by decide +kernel⟩⟩

/-- The hypotheses of clauses 13 to 17 of PinCommands are met. -/
theorem witness_PinCommands_13 :
    (∃ (s : State) (p : Fin 160) (l : Bool), (s.dev.pin p).raw ≠ l ∧ l = s.dev.pinIn p) ∧
    (∃ (s : State) (p : Fin 160) (l : Bool), (s.dev.pin p).raw = l) ∧
    (∃ (s : State) (p : Fin 160) (t : Time), (s.dev.pin p).since = some t ∧
      s.dev.due (t + nsT (match s.dev.fld (PINMUX.PIN_CFG_FILT p) with | 0 => 0 | f => 2 ^ f)) = true) ∧
    (∃ (s : State) (p : Fin 160), ((s.dev.pin p).since.all fun t => !s.dev.due (t + nsT (match s.dev.fld (PINMUX.PIN_CFG_FILT p) with | 0 => 0 | f => 2 ^ f))) = true) ∧
    (∃ (s : State) (a : Agent) (w : Fin 5) (v : Word), s.dev.takes a.id (PINMUX.PIN_INTF w) v = true) :=
  ⟨⟨mkS fun d => { (d) with pins := [(120, { raw := true, since := some 64 })], time := { milepost := 640 } }, 120, false, by decide +kernel⟩,
   ⟨mkS fun d => { (d) with pins := [(120, { raw := true, since := none })], time := { milepost := 640 } }, 120, true, by decide +kernel⟩,
   ⟨mkS fun d =>
      { ((d.setFld (PINMUX.PIN_CFG_INT 120) 2).setFld (PINMUX.PIN_CFG_FILT 120) 3) with pins := [(120, { raw := false, since := some 128 })], time := { milepost := 640 } }, 120, 128, by decide +kernel⟩,
   ⟨mkS fun d =>
      { ((d.setFld (PINMUX.PIN_CFG_INT 120) 2).setFld (PINMUX.PIN_CFG_FILT 120) 3) with pins := [(120, { raw := false, since := some 192 })], time := { milepost := 640 } }, 120, by decide +kernel⟩,
   ⟨mkS fun d =>
      (((d.setFld (PINMUX.PIN_CFG_INT 96) 5).setNum (PINMUX.PIN_INTF 3) 7).setFld (PINMUX.PIN_CFG_INT 98) 5), .loader, 3, 0x3, by decide +kernel⟩⟩

/-- The hypotheses of clauses 1 to 12 of MemoryService are met. -/
theorem witness_MemoryService_1 :
    (∃ (s : State) (a : Agent) (i : Fin 128) (v : Word), s.dev.takes a.id (MEMCTL.RETIRE i) v = true) ∧
    (∃ (s : State) (i : Nat) (w : Word) (ag : AgentId), i < 128 ∧ s.dev.retiring.find? (fun p => p.1 = i) = some (i, w, ag) ∧ s.dev.ecc = []) ∧
    (∃ (s : State) (i : Nat), s.dev.retiring.find? (fun p => p.1 = i) = none) ∧
    (∃ (s : State) (a : Agent) (v : Word), s.dev.takes a.id MEMCTL.DRAM_CTRL v = true ∧ v.toNat % 4 ≠ 0) ∧
    (∃ (s : State) (c : Fin 2), s.dev.dramState c = 2) ∧
    (∃ (s : State) (c : Fin 2), s.dev.dramState c = 2) ∧
    (∃ (s : State) (c : Fin 2) (ok : Bool), s.dev.dramState c ≠ 2) ∧
    (∃ (s : State) (a : Agent) (v : Word), s.dev.takes a.id MEMCTL.ERR_POP v = true ∧ wordBit v 0 = true) ∧
    (∃ (s : State) (a : Agent) (v : Word), s.dev.takes a.id MEMCTL.MEM_CLR v = true ∧ wordBit v 0 = true) ∧
    (∃ (s : State) (a : Agent) (v : Word), s.dev.takes a.id MEMCTL.ECC_FLIP v = true) ∧
    (∃ (s : State) (a : Nat), s.dev.fld SCRUB.SCRUB_CTRL_MODE = 1 ∧ s.dev.domReady 57 = true ∧
      nextBlock s.dev.scrubPos s.dev.scrubRanges = some a ∧ s.dev.ecc = [] ∧ (s.dev.dmas.all fun p => p.2.flips.isEmpty) = true) ∧
    (∃ (s : State) (a u k : Nat), s.dev.fld SCRUB.SCRUB_CTRL_MODE = 1 ∧ s.dev.domReady 57 = true ∧
      nextBlock s.dev.scrubPos s.dev.scrubRanges = some a ∧ a < dmaBufBase ∧ s.dev.ecc = [(u, k)] ∧ codeUnit u = u ∧ (a ≤ u ∧ u < a + 64) ∧
      a % 64 = 0 ∧ s.dev.errLog.length < 64 ∧ k = 1) :=
  ⟨⟨mkS fun d => d.setFld MEMCTL.SRAM_STATUS_READY 255, .loader, 17, 0x80000012, by decide +kernel⟩,
   ⟨mkS fun d => { d with retiring := [(3, 0, 0), (17, 0x80000012, 0x0100)] }, 17, 0x80000012, 0x0100, by decide +kernel⟩,
   ⟨mkS fun d => d, 17, by decide +kernel⟩,
   ⟨mkS fun d => d.setNum MEMCTL.DRAM_STATUS 0x11, .loader, 0x2, by decide +kernel⟩,
   ⟨mkS fun d => d.setNum MEMCTL.DRAM_STATUS 0x22, 1, by decide +kernel⟩,
   ⟨mkS fun d => d.setNum MEMCTL.DRAM_STATUS 0x22, 1, by decide +kernel⟩,
   ⟨mkS fun d => d, 1, true, by decide +kernel⟩,
   ⟨mkS fun d => { d with errLog := [⟨1, 2, 3, 4⟩, ⟨5, 6, 7, 8⟩] }, .loader, 1, by decide +kernel⟩,
   ⟨mkS fun d =>
      { (d.setNum MEMCTL.ECC_COUNTS 0x70003).setNum MEMCTL.ERR_STATUS 0xFFFFFFFF with ceArmed := false }, .loader, 1, by decide +kernel⟩,
   ⟨mkS fun d => d, .loader, 0x82080003, by decide +kernel⟩,
   ⟨mkS fun d =>
      ({ (d.setReg (SUPPLY.DOM_STATUS_0 + 4) 0xFFFFFFFF).setReg SUPPLY.DOM_STATUS_0 0xFFFFFFFF with scrubPos := 0x08200000 }).setFld MEMCTL.SRAM_STATUS_READY 255, 0x10000000, by decide +kernel⟩,
   ⟨mkS fun d =>
      ({ (d.setReg (SUPPLY.DOM_STATUS_0 + 4) 0xFFFFFFFF).setReg SUPPLY.DOM_STATUS_0 0xFFFFFFFF with scrubPos := 0x08200000, ecc := [(0x10000005, 1)], time := { milepost := 6400 } }).setFld MEMCTL.SRAM_STATUS_READY 255 |>.setFld MEMCTL.CE_LIMIT_LIMIT 1, 0x10000000, 0x10000005, 1, by decide +kernel⟩⟩

/-- The hypotheses of clauses 13 to 24 of MemoryService are met. -/
theorem witness_MemoryService_13 :
    (∃ (s : State) (a u k : Nat), s.dev.fld SCRUB.SCRUB_CTRL_MODE = 1 ∧ s.dev.domReady 57 = true ∧
      nextBlock s.dev.scrubPos s.dev.scrubRanges = some a ∧ a < dmaBufBase ∧ s.dev.ecc = [(u, k)] ∧ codeUnit u = u ∧ (a ≤ u ∧ u < a + 64) ∧
      a % 64 = 0 ∧ s.dev.errLog.length < 64 ∧ k ≥ 2) ∧
    (∃ (s : State) (a c j k : Nat), s.dev.fld SCRUB.SCRUB_CTRL_MODE = 1 ∧ s.dev.domReady 57 = true ∧
      nextBlock s.dev.scrubPos s.dev.scrubRanges = some a ∧ dmaBufBase ≤ a ∧ (a - dmaBufBase) / 4096 = c ∧ (s.dev.dma c).flips = [(j, k)] ∧
      (s.dev.dma c).read ≤ j + (s.dev.dma c).buf.length ∧ j < (s.dev.dma c).read ∧ j % 4096 / 64 = (a - dmaBufBase) % 4096 / 64 ∧
      s.dev.errLog.length < 64 ∧ k = 1) ∧
    (∃ (s : State) (a c j k : Nat), s.dev.fld SCRUB.SCRUB_CTRL_MODE = 1 ∧ s.dev.domReady 57 = true ∧
      nextBlock s.dev.scrubPos s.dev.scrubRanges = some a ∧ dmaBufBase ≤ a ∧ (a - dmaBufBase) / 4096 = c ∧ (s.dev.dma c).flips = [(j, k)] ∧
      (s.dev.dma c).read ≤ j + (s.dev.dma c).buf.length ∧ j < (s.dev.dma c).read ∧ j % 4096 / 64 = (a - dmaBufBase) % 4096 / 64 ∧
      s.dev.errLog.length < 64 ∧ k ≥ 2) ∧
    (∃ (s : State), s.dev.fld SCRUB.SCRUB_CTRL_MODE = 1 ∧ s.dev.domReady 57 = true ∧ nextBlock s.dev.scrubPos s.dev.scrubRanges = none ∧
      s.dev.ecc = [] ∧ (s.dev.dmas.all fun p => p.2.flips.isEmpty) = true) ∧
    (∃ (s : State), s.dev.fld SCRUB.SCRUB_CTRL_MODE ≠ 1) ∧
    (∃ (s : State) (p : Pass), s.dev.pass = some p ∧ s.dev.due p.nextT = true ∧ s.dev.ecc = [] ∧ p.pos + 64 < p.base + p.len) ∧
    (∃ (s : State) (p : Pass), s.dev.pass = some p ∧ s.dev.due p.nextT = true ∧ s.dev.ecc = [] ∧ p.base + p.len ≤ p.pos + 64) ∧
    (∃ (s : State) (p : Pass) (u k : Nat), s.dev.pass = some p ∧ s.dev.due p.nextT = true ∧ s.dev.ecc = [(u, k)] ∧ codeUnit u = u ∧ (p.pos ≤ u ∧
      u < p.pos + 64) ∧ p.pos % 64 = 0 ∧ s.dev.errLog.length < 64 ∧ k ≥ 2 ∧ p.ue = 0 ∧ p.pos + 64 < p.base + p.len) ∧
    (∃ (s : State) (p : Pass) (u k : Nat), s.dev.pass = some p ∧ s.dev.due p.nextT = true ∧ s.dev.ecc = [(u, k)] ∧ codeUnit u = u ∧ (p.pos ≤ u ∧
      u < p.pos + 64) ∧ p.pos % 64 = 0 ∧ s.dev.errLog.length < 64 ∧ k = 1 ∧ p.pos + 64 < p.base + p.len) ∧
    (∃ (s : State), (s.dev.pass.all fun p => !s.dev.due p.nextT) = true) ∧
    (∃ (s : State) (a : Agent) (v : Word) (p : Pass), s.dev.takes a.id SCRUB.PASS_CMD v = true ∧ wordBit v 1 = true ∧ s.dev.pass = some p) ∧
    (∃ (s : State) (a : Agent) (v : Word), s.dev.takes a.id SCRUB.PASS_CMD v = true ∧ wordBit v 0 = true ∧ wordBit v 1 = false) :=
  ⟨⟨mkS fun d =>
      ({ (d.setReg (SUPPLY.DOM_STATUS_0 + 4) 0xFFFFFFFF).setReg SUPPLY.DOM_STATUS_0 0xFFFFFFFF with scrubPos := 0x08200000, ecc := [(0x10000005, 2)], time := { milepost := 6400 } }).setFld MEMCTL.SRAM_STATUS_READY 255, 0x10000000, 0x10000005, 2, by decide +kernel⟩,
   ⟨mkS fun d =>
      { (d.setReg (SUPPLY.DOM_STATUS_0 + 4) 0xFFFFFFFF).setReg SUPPLY.DOM_STATUS_0 0xFFFFFFFF with scrubPos := 0x1000000F040, dmas := [(15, { read := 80, buf := [1, 2], flips := [(79, 1)] })], time := { milepost := 6400 } }, 0x1000000F040, 15, 79, 1, by decide +kernel⟩,
   ⟨mkS fun d =>
      { (d.setReg (SUPPLY.DOM_STATUS_0 + 4) 0xFFFFFFFF).setReg SUPPLY.DOM_STATUS_0 0xFFFFFFFF with scrubPos := 0x1000000F040, dmas := [(15, { read := 80, buf := [1, 2], flips := [(79, 3)] })], time := { milepost := 6400 } }, 0x1000000F040, 15, 79, 3, by decide +kernel⟩,
   ⟨mkS fun d =>
      { (d.setReg (SUPPLY.DOM_STATUS_0 + 4) 0xFFFFFFFF).setReg SUPPLY.DOM_STATUS_0 0xFFFFFFFF with scrubPos := 0x70000000000, time := { milepost := 640000 } }, by decide +kernel⟩,
   ⟨mkS fun d => d.setFld SCRUB.SCRUB_CTRL_MODE 0, by decide +kernel⟩,
   ⟨mkS fun d =>
      { d with pass := some { base := 0x10000000, len := 128, spacing := 960, pos := 0x10000000, startT := 0, nextT := 640 }, time := { milepost := 6400 } }, { base := 0x10000000, len := 128, spacing := 960, pos := 0x10000000, startT := 0, nextT := 640 }, by decide +kernel⟩,
   ⟨mkS fun d =>
      { d with pass := some { base := 0x10000000, len := 128, spacing := 960, pos := 0x10000040, startT := 0, nextT := 640, ce := 2, ue := 70000 }, time := { milepost := 6400 } }, { base := 0x10000000, len := 128, spacing := 960, pos := 0x10000040, startT := 0, nextT := 640, ce := 2, ue := 70000 }, by decide +kernel⟩,
   ⟨mkS fun d =>
      { d with pass := some { base := 0x10000000, len := 128, spacing := 960, pos := 0x10000000, startT := 0, nextT := 640 }, time := { milepost := 6400 }, ecc := [(0x10000006, 2)] }, { base := 0x10000000, len := 128, spacing := 960, pos := 0x10000000, startT := 0, nextT := 640 }, 0x10000006, 2, by decide +kernel⟩,
   ⟨mkS fun d =>
      { d with pass := some { base := 0x10000000, len := 128, spacing := 960, pos := 0x10000000, startT := 0, nextT := 640 }, time := { milepost := 6400 }, ecc := [(0x10000006, 1)] }, { base := 0x10000000, len := 128, spacing := 960, pos := 0x10000000, startT := 0, nextT := 640 }, 0x10000006, 1, by decide +kernel⟩,
   ⟨mkS fun d =>
      { d with pass := some { base := 0x10000000, len := 128, spacing := 960, pos := 0x10000000, startT := 0, nextT := 64000 }, time := { milepost := 6400 } }, by decide +kernel⟩,
   ⟨mkS fun d =>
      { (d.setReg (SUPPLY.DOM_STATUS_0 + 4) 0xFFFFFFFF) with pass := some { base := 0x10000000, len := 128, spacing := 960, pos := 0x10000040, startT := 0, nextT := 640 }, time := { milepost := 6400 } }, .loader, 2, { base := 0x10000000, len := 128, spacing := 960, pos := 0x10000040, startT := 0, nextT := 640 }, by decide +kernel⟩,
   ⟨mkS fun d =>
      ((((d.setReg (SUPPLY.DOM_STATUS_0 + 4) 0xFFFFFFFF |>.setFld MEMCTL.SRAM_STATUS_READY 255).setFld SCRUB.SCRUB_CTRL_MODE 0).setNum SCRUB.PASS_BASE 0x10300000).setNum SCRUB.PASS_LEN 0x100000).setFld SCRUB.PASS_CFG_SPACING_NS 480, .loader, 1, by decide +kernel⟩⟩

/-- The hypotheses of clauses 1 to 12 of DmaChannels are met. -/
theorem witness_DmaChannels_1 :
    (∃ (s : State) (a : Agent) (c : Fin 16) (v : Word), s.dev.takes a.id (DMA.CH_CTRL c) v = true ∧ v.toNat % 16 = 1 ∧
      ((s.dev.reg64 (DMA.CH_DESC c)).toNat % 2 ^ 40) % 32 = 0) ∧
    (∃ (s : State) (a : Agent) (c : Fin 16) (v : Word), s.dev.takes a.id (DMA.CH_CTRL c) v = true ∧ v.toNat % 16 = 1 ∧
      ((s.dev.reg64 (DMA.CH_DESC c)).toNat % 2 ^ 40) % 32 ≠ 0) ∧
    (∃ (s : State) (a : Agent) (c : Fin 16) (v : Word), s.dev.takes a.id (DMA.CH_CTRL c) v = true ∧ v.toNat % 16 = 2 ∧
      (s.dev.grp (dmaGroup c.val)).st ≠ .pending ∧ (s.dev.dma c).held = false ∧ (s.dev.dma c).cpl = false) ∧
    (∃ (s : State) (a : Agent) (c : Fin 16) (v : Word), s.dev.takes a.id (DMA.CH_CTRL c) v = true ∧ v.toNat % 16 = 2 ∧
      (s.dev.dma c).held = true ∧ (s.dev.dma c).ending = none) ∧
    (∃ (s : State) (a : Agent) (c : Fin 16) (v : Word), s.dev.takes a.id (DMA.CH_CTRL c) v = true ∧ v.toNat % 16 = 4 ∧
      s.dev.flag (DMA.CH_CFG_TRIG_EN c) = false) ∧
    (∃ (s : State) (a : Agent) (c : Fin 16) (v : Word), s.dev.takes a.id (DMA.CH_CTRL c) v = true ∧ v.toNat % 16 = 4 ∧
      s.dev.flag (DMA.CH_CFG_TRIG_EN c) = true ∧ s.dev.flag (DMA.CH_STATUS_TRIG_PEND c) = true) ∧
    (∃ (s : State) (a : Agent) (c : Fin 16) (v : Word), s.dev.takes a.id (DMA.CH_CTRL c) v = true ∧ v.toNat % 16 = 4 ∧
      s.dev.flag (DMA.CH_CFG_TRIG_EN c) = true ∧ s.dev.flag (DMA.CH_STATUS_TRIG_PEND c) = false ∧ s.dev.dmaState c ≠ 2) ∧
    (∃ (s : State) (a : Agent) (c : Fin 16) (v : Word), s.dev.takes a.id (DMA.CH_CTRL c) v = true ∧ v.toNat % 16 = 4 ∧
      s.dev.flag (DMA.CH_CFG_TRIG_EN c) = true ∧ s.dev.flag (DMA.CH_STATUS_TRIG_PEND c) = false ∧ s.dev.dmaState c = 2) ∧
    (∃ (s : State) (a : Agent) (c : Fin 16) (v : Word), s.dev.takes a.id (DMA.CH_CTRL c) v = true ∧ v.toNat % 16 = 8) ∧
    (∃ (s : State) (c : Fin 16) (bs : List Byte) (ov : Bool), s.dev.dmaState c = 1 ∧
      s.dev.descMemory ((s.dev.reg64 (DMA.CH_CUR c)).toNat % 2 ^ 40) = true ∧
      s.dev.memMapped ((s.dev.reg64 (DMA.CH_CUR c)).toNat % 2 ^ 40) 32 = true ∧
      s.dev.memOpen (s.dev.dmaAgent c) ((s.dev.reg64 (DMA.CH_CUR c)).toNat % 2 ^ 40) 32 false = true ∧ s.dev.ecc = [] ∧
      s.dev.beatBytes ((s.dev.reg64 (DMA.CH_CUR c)).toNat % 2 ^ 40) 32 = bs ∧
      ov = (ctlSinc (descNum bs 20 2) && ctlDinc (descNum bs 20 2) && decide (descNum bs 0 8 < descNum bs 8 8 + descNum bs 16 4) && decide (descNum bs 8 8 < descNum bs 0 8 + descNum bs 16 4)) ∧
      descOk bs = true ∧ (ov && decide (ctlSw (descNum bs 20 2) ≠ ctlDw (descNum bs 20 2))) = false ∧ bitOf (descNum bs 20 2) 12 = false) ∧
    (∃ (s : State) (c : Fin 16) (bs : List Byte) (ov : Bool), s.dev.dmaState c = 1 ∧
      s.dev.descMemory ((s.dev.reg64 (DMA.CH_CUR c)).toNat % 2 ^ 40) = true ∧
      s.dev.memMapped ((s.dev.reg64 (DMA.CH_CUR c)).toNat % 2 ^ 40) 32 = true ∧
      s.dev.memOpen (s.dev.dmaAgent c) ((s.dev.reg64 (DMA.CH_CUR c)).toNat % 2 ^ 40) 32 false = true ∧ s.dev.ecc = [] ∧
      s.dev.beatBytes ((s.dev.reg64 (DMA.CH_CUR c)).toNat % 2 ^ 40) 32 = bs ∧
      ov = (ctlSinc (descNum bs 20 2) && ctlDinc (descNum bs 20 2) && decide (descNum bs 0 8 < descNum bs 8 8 + descNum bs 16 4) && decide (descNum bs 8 8 < descNum bs 0 8 + descNum bs 16 4)) ∧
      descOk bs = true ∧ (ov && decide (ctlSw (descNum bs 20 2) ≠ ctlDw (descNum bs 20 2))) = false ∧ bitOf (descNum bs 20 2) 12 = false ∧
      ov = true) ∧
    (∃ (s : State) (c : Fin 16) (bs : List Byte) (ov : Bool), s.dev.dmaState c = 1 ∧
      s.dev.descMemory ((s.dev.reg64 (DMA.CH_CUR c)).toNat % 2 ^ 40) = true ∧
      s.dev.memMapped ((s.dev.reg64 (DMA.CH_CUR c)).toNat % 2 ^ 40) 32 = true ∧
      s.dev.memOpen (s.dev.dmaAgent c) ((s.dev.reg64 (DMA.CH_CUR c)).toNat % 2 ^ 40) 32 false = true ∧ s.dev.ecc = [] ∧
      s.dev.beatBytes ((s.dev.reg64 (DMA.CH_CUR c)).toNat % 2 ^ 40) 32 = bs ∧
      ov = (ctlSinc (descNum bs 20 2) && ctlDinc (descNum bs 20 2) && decide (descNum bs 0 8 < descNum bs 8 8 + descNum bs 16 4) && decide (descNum bs 8 8 < descNum bs 0 8 + descNum bs 16 4)) ∧
      descOk bs = true ∧ (ov && decide (ctlSw (descNum bs 20 2) ≠ ctlDw (descNum bs 20 2))) = false ∧ bitOf (descNum bs 20 2) 12 = true ∧
      s.dev.flag (DMA.CH_STATUS_TRIG_PEND c) = false) :=
  ⟨⟨mkS fun d =>
      { (((d.setReg64 (DMA.CH_DESC 5) 0x10201020).setReg SUPPLY.DOM_STATUS_0 0xFFFFFFFF).setReg (SUPPLY.DOM_STATUS_0 + 4) 0xFFFFFFFF |>.setFld MEMCTL.SRAM_STATUS_READY 255 |>.setFld (DMA.CH_STATUS_STATE 5) 0) with dmas := [(5, { held := false })] }, .loader, 5, 1, by decide +kernel⟩,
   ⟨mkS fun d =>
      { (((d.setReg64 (DMA.CH_DESC 5) 0x10201021).setReg SUPPLY.DOM_STATUS_0 0xFFFFFFFF).setReg (SUPPLY.DOM_STATUS_0 + 4) 0xFFFFFFFF |>.setFld MEMCTL.SRAM_STATUS_READY 255 |>.setFld (DMA.CH_STATUS_STATE 5) 0) with dmas := [(5, { held := false })] }, .loader, 5, 1, by decide +kernel⟩,
   ⟨mkS fun d =>
      { (((d).setReg SUPPLY.DOM_STATUS_0 0xFFFFFFFF).setReg (SUPPLY.DOM_STATUS_0 + 4) 0xFFFFFFFF |>.setFld MEMCTL.SRAM_STATUS_READY 255 |>.setFld (DMA.CH_STATUS_STATE 5) 3) with dmas := [(5, { buf := [1, 2] })] }, .loader, 5, 2, by decide +kernel⟩,
   ⟨mkS fun d =>
      { (((d).setReg SUPPLY.DOM_STATUS_0 0xFFFFFFFF).setReg (SUPPLY.DOM_STATUS_0 + 4) 0xFFFFFFFF |>.setFld MEMCTL.SRAM_STATUS_READY 255 |>.setFld (DMA.CH_STATUS_STATE 5) 3) with dmas := [(5, { held := true })] }, .loader, 5, 2, by decide +kernel⟩,
   ⟨mkS fun d =>
      { (((d).setReg SUPPLY.DOM_STATUS_0 0xFFFFFFFF).setReg (SUPPLY.DOM_STATUS_0 + 4) 0xFFFFFFFF |>.setFld MEMCTL.SRAM_STATUS_READY 255 |>.setFld (DMA.CH_STATUS_STATE 5) 0) with dmas := [(5, { held := false })] }, .loader, 5, 4, by decide +kernel⟩,
   ⟨mkS fun d =>
      { ((((d.setFld (DMA.CH_CFG_TRIG_EN 5) 1).setFld (DMA.CH_STATUS_TRIG_PEND 5) 1).setReg SUPPLY.DOM_STATUS_0 0xFFFFFFFF).setReg (SUPPLY.DOM_STATUS_0 + 4) 0xFFFFFFFF |>.setFld MEMCTL.SRAM_STATUS_READY 255 |>.setFld (DMA.CH_STATUS_STATE 5) 3) with dmas := [(5, { held := false })] }, .loader, 5, 4, by decide +kernel⟩,
   ⟨mkS fun d =>
      { ((((d.setFld (DMA.CH_CFG_TRIG_EN 5) 1)).setReg SUPPLY.DOM_STATUS_0 0xFFFFFFFF).setReg (SUPPLY.DOM_STATUS_0 + 4) 0xFFFFFFFF |>.setFld MEMCTL.SRAM_STATUS_READY 255 |>.setFld (DMA.CH_STATUS_STATE 5) 3) with dmas := [(5, { held := false })] }, .loader, 5, 4, by decide +kernel⟩,
   ⟨mkS fun d =>
      { ((((d.setFld (DMA.CH_CFG_TRIG_EN 5) 1)).setReg SUPPLY.DOM_STATUS_0 0xFFFFFFFF).setReg (SUPPLY.DOM_STATUS_0 + 4) 0xFFFFFFFF |>.setFld MEMCTL.SRAM_STATUS_READY 255 |>.setFld (DMA.CH_STATUS_STATE 5) 2) with dmas := [(5, { chained := true })] }, .loader, 5, 4, by decide +kernel⟩,
   ⟨mkS fun d =>
      { (((d.setNum (DMA.CH_FLAGS 5) 15).setReg SUPPLY.DOM_STATUS_0 0xFFFFFFFF).setReg (SUPPLY.DOM_STATUS_0 + 4) 0xFFFFFFFF |>.setFld MEMCTL.SRAM_STATUS_READY 255 |>.setFld (DMA.CH_STATUS_STATE 5) 0) with dmas := [(5, { held := false })] }, .loader, 5, 8, by decide +kernel⟩,
   ⟨mkS fun d =>
      { ((((d.setReg64 (DMA.CH_CUR 5) 0x10201020)).setReg SUPPLY.DOM_STATUS_0 0xFFFFFFFF).setReg (SUPPLY.DOM_STATUS_0 + 4) 0xFFFFFFFF |>.setFld MEMCTL.SRAM_STATUS_READY 255 |>.setFld (DMA.CH_STATUS_STATE 5) 1) with dmas := [(5, { chained := true })], mem := [(0x10201022, 16), (0x10201023, 16), (0x1020102A, 32), (0x1020102B, 16), (0x10201031, 2), (0x10201034, 228), (0x10201035, 143), (0x10201039, 16), (0x1020103A, 32), (0x1020103B, 16)] }, 5, [0, 0, 16, 16, 0, 0, 0, 0, 0, 0, 32, 16, 0, 0, 0, 0, 0, 2, 0, 0, 228, 143, 0, 0, 0, 16, 32, 16, 0, 0, 0, 0], false, by decide +kernel⟩,
   ⟨mkS fun d =>
      { ((((d.setReg64 (DMA.CH_CUR 5) 0x10201020)).setReg SUPPLY.DOM_STATUS_0 0xFFFFFFFF).setReg (SUPPLY.DOM_STATUS_0 + 4) 0xFFFFFFFF |>.setFld MEMCTL.SRAM_STATUS_READY 255 |>.setFld (DMA.CH_STATUS_STATE 5) 1) with dmas := [(5, { chained := true })], mem := [(0x10201022, 32), (0x10201023, 16), (0x10201029, 1), (0x1020102A, 32), (0x1020102B, 16), (0x10201031, 2), (0x10201034, 219), (0x10201035, 15)] }, 5, [0, 0, 32, 16, 0, 0, 0, 0, 0, 1, 32, 16, 0, 0, 0, 0, 0, 2, 0, 0, 219, 15, 0, 0, 0, 0, 0, 0, 0, 0, 0, 0], true, by decide +kernel⟩,
   ⟨mkS fun d =>
      { ((((d.setReg64 (DMA.CH_CUR 5) 0x10201020)).setReg SUPPLY.DOM_STATUS_0 0xFFFFFFFF).setReg (SUPPLY.DOM_STATUS_0 + 4) 0xFFFFFFFF |>.setFld MEMCTL.SRAM_STATUS_READY 255 |>.setFld (DMA.CH_STATUS_STATE 5) 1) with dmas := [(5, { chained := true })], mem := [(0x10201022, 16), (0x10201023, 16), (0x1020102A, 32), (0x1020102B, 16), (0x10201031, 2), (0x10201034, 228), (0x10201035, 159), (0x10201039, 16), (0x1020103A, 32), (0x1020103B, 16)] }, 5, [0, 0, 16, 16, 0, 0, 0, 0, 0, 0, 32, 16, 0, 0, 0, 0, 0, 2, 0, 0, 228, 159, 0, 0, 0, 16, 32, 16, 0, 0, 0, 0], false, by decide +kernel⟩⟩

/-- The hypotheses of clauses 13 to 19 of DmaChannels are met. -/
theorem witness_DmaChannels_13 :
    (∃ (s : State) (c : Fin 16) (bs : List Byte) (ov : Bool), s.dev.dmaState c = 1 ∧
      s.dev.descMemory ((s.dev.reg64 (DMA.CH_CUR c)).toNat % 2 ^ 40) = true ∧
      s.dev.memMapped ((s.dev.reg64 (DMA.CH_CUR c)).toNat % 2 ^ 40) 32 = true ∧
      s.dev.memOpen (s.dev.dmaAgent c) ((s.dev.reg64 (DMA.CH_CUR c)).toNat % 2 ^ 40) 32 false = true ∧ s.dev.ecc = [] ∧
      s.dev.beatBytes ((s.dev.reg64 (DMA.CH_CUR c)).toNat % 2 ^ 40) 32 = bs ∧
      ov = (ctlSinc (descNum bs 20 2) && ctlDinc (descNum bs 20 2) && decide (descNum bs 0 8 < descNum bs 8 8 + descNum bs 16 4) && decide (descNum bs 8 8 < descNum bs 0 8 + descNum bs 16 4)) ∧
      descOk bs = true ∧ (ov && decide (ctlSw (descNum bs 20 2) ≠ ctlDw (descNum bs 20 2))) = false ∧ bitOf (descNum bs 20 2) 12 = true ∧
      s.dev.flag (DMA.CH_STATUS_TRIG_PEND c) = true) ∧
    (∃ (s : State) (c : Fin 16) (bs : List Byte) (ov : Bool), s.dev.dmaState c = 1 ∧
      s.dev.descMemory ((s.dev.reg64 (DMA.CH_CUR c)).toNat % 2 ^ 40) = true ∧
      s.dev.memMapped ((s.dev.reg64 (DMA.CH_CUR c)).toNat % 2 ^ 40) 32 = true ∧
      s.dev.memOpen (s.dev.dmaAgent c) ((s.dev.reg64 (DMA.CH_CUR c)).toNat % 2 ^ 40) 32 false = true ∧ s.dev.ecc = [] ∧
      s.dev.beatBytes ((s.dev.reg64 (DMA.CH_CUR c)).toNat % 2 ^ 40) 32 = bs ∧
      ov = (ctlSinc (descNum bs 20 2) && ctlDinc (descNum bs 20 2) && decide (descNum bs 0 8 < descNum bs 8 8 + descNum bs 16 4) && decide (descNum bs 8 8 < descNum bs 0 8 + descNum bs 16 4)) ∧
      (s.dev.grp (dmaGroup c.val)).st ≠ .pending ∧ descOk bs = false ∧ bitOf (descNum bs 22 2) 0 = false) ∧
    (∃ (s : State) (c : Fin 16) (bs : List Byte) (ov : Bool), s.dev.dmaState c = 1 ∧
      s.dev.descMemory ((s.dev.reg64 (DMA.CH_CUR c)).toNat % 2 ^ 40) = true ∧
      s.dev.memMapped ((s.dev.reg64 (DMA.CH_CUR c)).toNat % 2 ^ 40) 32 = true ∧
      s.dev.memOpen (s.dev.dmaAgent c) ((s.dev.reg64 (DMA.CH_CUR c)).toNat % 2 ^ 40) 32 false = true ∧ s.dev.ecc = [] ∧
      s.dev.beatBytes ((s.dev.reg64 (DMA.CH_CUR c)).toNat % 2 ^ 40) 32 = bs ∧
      ov = (ctlSinc (descNum bs 20 2) && ctlDinc (descNum bs 20 2) && decide (descNum bs 0 8 < descNum bs 8 8 + descNum bs 16 4) && decide (descNum bs 8 8 < descNum bs 0 8 + descNum bs 16 4)) ∧
      (s.dev.grp (dmaGroup c.val)).st ≠ .pending ∧ descOk bs = true ∧
      (ov && decide (ctlSw (descNum bs 20 2) ≠ ctlDw (descNum bs 20 2))) = true ∧ bitOf (descNum bs 22 2) 0 = false) ∧
    (∃ (s : State) (c : Fin 16), (s.dev.grp (dmaGroup c.val)).st ≠ .pending ∧ s.dev.dmaState c = 1 ∧
      (s.dev.descMemory ((s.dev.reg64 (DMA.CH_CUR c)).toNat % 2 ^ 40) && s.dev.memMapped ((s.dev.reg64 (DMA.CH_CUR c)).toNat % 2 ^ 40) 32 && s.dev.memOpen (s.dev.dmaAgent c) ((s.dev.reg64 (DMA.CH_CUR c)).toNat % 2 ^ 40) 32 false) = false) ∧
    (∃ (s : State) (c : Fin 16), (s.dev.grp (dmaGroup c.val)).st ≠ .pending ∧ s.dev.dmaState c ≠ 1) ∧
    (∃ (s : State) (c : Fin 16) (data : List Byte) (n : Nat), s.dev.dmaState c = 3 ∧ (s.dev.dma c).ending = none ∧
      (s.dev.dma c).buf.length + (ctlSw (s.dev.dma c).ctl) ≤ 4096 ∧ (0 < n ∧ n ≤ ctlBurst (s.dev.dma c).ctl) ∧
      (s.dev.dma c).read + n * (ctlSw (s.dev.dma c).ctl) ≤ (s.dev.dma c).len ∧
      (s.dev.dma c).buf.length + n * (ctlSw (s.dev.dma c).ctl) ≤ 4096 ∧
      ((List.range n).all fun k => decide ((fun k => (s.dev.dma c).beat (s.dev.dma c).src (ctlSinc (s.dev.dma c).ctl) (ctlSw (s.dev.dma c).ctl) ((s.dev.dma c).read + k * (ctlSw (s.dev.dma c).ctl))) k / 1024 = (fun k => (s.dev.dma c).beat (s.dev.dma c).src (ctlSinc (s.dev.dma c).ctl) (ctlSw (s.dev.dma c).ctl) ((s.dev.dma c).read + k * (ctlSw (s.dev.dma c).ctl))) 0 / 1024)) = true ∧
      (n = ctlBurst (s.dev.dma c).ctl ∨ (s.dev.dma c).len ≤ (s.dev.dma c).read + n * (ctlSw (s.dev.dma c).ctl) ∨ 4096 < (s.dev.dma c).buf.length + (n + 1) * (ctlSw (s.dev.dma c).ctl) ∨ (fun k => (s.dev.dma c).beat (s.dev.dma c).src (ctlSinc (s.dev.dma c).ctl) (ctlSw (s.dev.dma c).ctl) ((s.dev.dma c).read + k * (ctlSw (s.dev.dma c).ctl))) n / 1024 ≠ (fun k => (s.dev.dma c).beat (s.dev.dma c).src (ctlSinc (s.dev.dma c).ctl) (ctlSw (s.dev.dma c).ctl) ((s.dev.dma c).read + k * (ctlSw (s.dev.dma c).ctl))) 0 / 1024) ∧
      s.dev.dmaMayRead c = true ∧
      ((List.range n).all fun k => s.dev.memBeat ((fun k => (s.dev.dma c).beat (s.dev.dma c).src (ctlSinc (s.dev.dma c).ctl) (ctlSw (s.dev.dma c).ctl) ((s.dev.dma c).read + k * (ctlSw (s.dev.dma c).ctl))) k) (ctlSw (s.dev.dma c).ctl) && s.dev.memMapped ((fun k => (s.dev.dma c).beat (s.dev.dma c).src (ctlSinc (s.dev.dma c).ctl) (ctlSw (s.dev.dma c).ctl) ((s.dev.dma c).read + k * (ctlSw (s.dev.dma c).ctl))) k) (ctlSw (s.dev.dma c).ctl) && s.dev.memOpen (s.dev.dmaAgent c) ((fun k => (s.dev.dma c).beat (s.dev.dma c).src (ctlSinc (s.dev.dma c).ctl) (ctlSw (s.dev.dma c).ctl) ((s.dev.dma c).read + k * (ctlSw (s.dev.dma c).ctl))) k) (ctlSw (s.dev.dma c).ctl) false) = true ∧
      s.dev.ecc = [] ∧ s.dev.flag MEMCTL.ECC_FLIP_ARM = false) ∧
    (∃ (s : State) (c : Fin 16) (data : List Byte) (n : Nat), s.dev.dmaState c = 3 ∧ (s.dev.dma c).ending = none ∧
      (s.dev.dma c).buf.length + (ctlSw (s.dev.dma c).ctl) ≤ 4096 ∧ (0 < n ∧ n ≤ ctlBurst (s.dev.dma c).ctl) ∧
      (s.dev.dma c).read + n * (ctlSw (s.dev.dma c).ctl) ≤ (s.dev.dma c).len ∧
      (s.dev.dma c).buf.length + n * (ctlSw (s.dev.dma c).ctl) ≤ 4096 ∧
      ((List.range n).all fun k => decide ((fun k => (s.dev.dma c).beat (s.dev.dma c).src (ctlSinc (s.dev.dma c).ctl) (ctlSw (s.dev.dma c).ctl) ((s.dev.dma c).read + k * (ctlSw (s.dev.dma c).ctl))) k / 1024 = (fun k => (s.dev.dma c).beat (s.dev.dma c).src (ctlSinc (s.dev.dma c).ctl) (ctlSw (s.dev.dma c).ctl) ((s.dev.dma c).read + k * (ctlSw (s.dev.dma c).ctl))) 0 / 1024)) = true ∧
      (n = ctlBurst (s.dev.dma c).ctl ∨ (s.dev.dma c).len ≤ (s.dev.dma c).read + n * (ctlSw (s.dev.dma c).ctl) ∨ 4096 < (s.dev.dma c).buf.length + (n + 1) * (ctlSw (s.dev.dma c).ctl) ∨ (fun k => (s.dev.dma c).beat (s.dev.dma c).src (ctlSinc (s.dev.dma c).ctl) (ctlSw (s.dev.dma c).ctl) ((s.dev.dma c).read + k * (ctlSw (s.dev.dma c).ctl))) n / 1024 ≠ (fun k => (s.dev.dma c).beat (s.dev.dma c).src (ctlSinc (s.dev.dma c).ctl) (ctlSw (s.dev.dma c).ctl) ((s.dev.dma c).read + k * (ctlSw (s.dev.dma c).ctl))) 0 / 1024) ∧
      s.dev.dmaMayRead c = true ∧
      ((List.range n).all fun k => (s.dev.hostWindow ((fun k => (s.dev.dma c).beat (s.dev.dma c).src (ctlSinc (s.dev.dma c).ctl) (ctlSw (s.dev.dma c).ctl) ((s.dev.dma c).read + k * (ctlSw (s.dev.dma c).ctl))) k) (ctlSw (s.dev.dma c).ctl)).isSome) = true ∧
      n * (ctlSw (s.dev.dma c).ctl) ≤ data.length ∧ s.dev.flag MEMCTL.ECC_FLIP_ARM = false) :=
  ⟨⟨mkS fun d =>
      { (((((d.setFld (DMA.CH_STATUS_TRIG_PEND 5) 1).setReg64 (DMA.CH_CUR 5) 0x10201020)).setReg SUPPLY.DOM_STATUS_0 0xFFFFFFFF).setReg (SUPPLY.DOM_STATUS_0 + 4) 0xFFFFFFFF |>.setFld MEMCTL.SRAM_STATUS_READY 255 |>.setFld (DMA.CH_STATUS_STATE 5) 1) with dmas := [(5, { chained := true })], mem := [(0x10201022, 16), (0x10201023, 16), (0x1020102A, 32), (0x1020102B, 16), (0x10201031, 2), (0x10201034, 228), (0x10201035, 159), (0x10201039, 16), (0x1020103A, 32), (0x1020103B, 16)] }, 5, [0, 0, 16, 16, 0, 0, 0, 0, 0, 0, 32, 16, 0, 0, 0, 0, 0, 2, 0, 0, 228, 159, 0, 0, 0, 16, 32, 16, 0, 0, 0, 0], false, by decide +kernel⟩,
   ⟨mkS fun d =>
      { ((((d.setReg64 (DMA.CH_CUR 5) 0x10201020)).setReg SUPPLY.DOM_STATUS_0 0xFFFFFFFF).setReg (SUPPLY.DOM_STATUS_0 + 4) 0xFFFFFFFF |>.setFld MEMCTL.SRAM_STATUS_READY 255 |>.setFld (DMA.CH_STATUS_STATE 5) 1) with dmas := [(5, { chained := true })], mem := [(0x10201022, 16), (0x10201023, 16), (0x1020102A, 32), (0x1020102B, 16), (0x10201030, 1), (0x10201031, 2), (0x10201034, 228), (0x10201035, 15)] }, 5, [0, 0, 16, 16, 0, 0, 0, 0, 0, 0, 32, 16, 0, 0, 0, 0, 1, 2, 0, 0, 228, 15, 0, 0, 0, 0, 0, 0, 0, 0, 0, 0], false, by decide +kernel⟩,
   ⟨mkS fun d =>
      { ((((d.setReg64 (DMA.CH_CUR 5) 0x10201020)).setReg SUPPLY.DOM_STATUS_0 0xFFFFFFFF).setReg (SUPPLY.DOM_STATUS_0 + 4) 0xFFFFFFFF |>.setFld MEMCTL.SRAM_STATUS_READY 255 |>.setFld (DMA.CH_STATUS_STATE 5) 1) with dmas := [(5, { chained := true })], mem := [(0x10201022, 32), (0x10201023, 16), (0x10201029, 1), (0x1020102A, 32), (0x1020102B, 16), (0x10201031, 2), (0x10201034, 218), (0x10201035, 15)] }, 5, [0, 0, 32, 16, 0, 0, 0, 0, 0, 1, 32, 16, 0, 0, 0, 0, 0, 2, 0, 0, 218, 15, 0, 0, 0, 0, 0, 0, 0, 0, 0, 0], true, by decide +kernel⟩,
   ⟨mkS fun d =>
      { ((((d.setReg64 (DMA.CH_CUR 5) 0x30000020)).setReg SUPPLY.DOM_STATUS_0 0xFFFFFFFF).setReg (SUPPLY.DOM_STATUS_0 + 4) 0xFFFFFFFF |>.setFld MEMCTL.SRAM_STATUS_READY 255 |>.setFld (DMA.CH_STATUS_STATE 5) 1) with dmas := [(5, { cpl := true })] }, 5, by decide +kernel⟩,
   ⟨mkS fun d =>
      { (((d).setReg SUPPLY.DOM_STATUS_0 0xFFFFFFFF).setReg (SUPPLY.DOM_STATUS_0 + 4) 0xFFFFFFFF |>.setFld MEMCTL.SRAM_STATUS_READY 255 |>.setFld (DMA.CH_STATUS_STATE 5) 3) with dmas := [(5, { held := false })] }, 5, by decide +kernel⟩,
   ⟨mkS fun d =>
      { (((d).setReg SUPPLY.DOM_STATUS_0 0xFFFFFFFF).setReg (SUPPLY.DOM_STATUS_0 + 4) 0xFFFFFFFF |>.setFld MEMCTL.SRAM_STATUS_READY 255 |>.setFld (DMA.CH_STATUS_STATE 5) 3) with dmas := [(5, { src := 0x10100000, dst := 0x10200000, len := 64, ctl := 0x2E4, read := 16, buf := [9] })], mem := [(0x10100010, 1), (0x1010001F, 2), (0x10100020, 3), (0x1010003F, 4)] }, 5, [], 3, by decide +kernel⟩,
   ⟨mkS fun d =>
      { (((((((d.setFld HOST.OUT_CTRL_EN 1).setFld HOST.LINK_STATUS_BME 1).setFld HOST.LINK_STATUS_STATE 2).setReg64 HOST.OUT_BASE 0x5500000000)).setReg SUPPLY.DOM_STATUS_0 0xFFFFFFFF).setReg (SUPPLY.DOM_STATUS_0 + 4) 0xFFFFFFFF |>.setFld MEMCTL.SRAM_STATUS_READY 255 |>.setFld (DMA.CH_STATUS_STATE 5) 3) with dmas := [(5, { src := 0x0800000000, dst := 0x10200000, len := 64, ctl := 0x1E2, read := 0, buf := [] })] }, 5, [1,2,3,4,5,6,7,8], 2, by decide +kernel⟩⟩

/-- The hypotheses of clauses 20 to 28 of DmaChannels are met. -/
theorem witness_DmaChannels_20 :
    (∃ (s : State) (c : Fin 16) (data : List Byte), s.dev.dmaState c = 3 ∧ (s.dev.dma c).ending = none ∧
      (s.dev.dma c).buf.length + (ctlSw (s.dev.dma c).ctl) ≤ 4096 ∧ (s.dev.dma c).held = false ∧ (s.dev.dma c).cpl = false ∧
      s.dev.dmaMayRead c = true ∧ (s.dev.grp (dmaGroup c.val)).st ≠ .pending ∧ (s.dev.dma c).read < (s.dev.dma c).len ∧
      s.dev.memBeat ((fun k => (s.dev.dma c).beat (s.dev.dma c).src (ctlSinc (s.dev.dma c).ctl) (ctlSw (s.dev.dma c).ctl) ((s.dev.dma c).read + k * (ctlSw (s.dev.dma c).ctl))) 0) (ctlSw (s.dev.dma c).ctl) = true ∧
      (s.dev.memMapped ((fun k => (s.dev.dma c).beat (s.dev.dma c).src (ctlSinc (s.dev.dma c).ctl) (ctlSw (s.dev.dma c).ctl) ((s.dev.dma c).read + k * (ctlSw (s.dev.dma c).ctl))) 0) (ctlSw (s.dev.dma c).ctl) && s.dev.memOpen (s.dev.dmaAgent c) ((fun k => (s.dev.dma c).beat (s.dev.dma c).src (ctlSinc (s.dev.dma c).ctl) (ctlSw (s.dev.dma c).ctl) ((s.dev.dma c).read + k * (ctlSw (s.dev.dma c).ctl))) 0) (ctlSw (s.dev.dma c).ctl) false) = false) ∧
    (∃ (s : State) (c : Fin 16) (data : List Byte), s.dev.dmaState c = 3 ∧ (s.dev.dma c).ending = none ∧
      (s.dev.dma c).buf.length + (ctlSw (s.dev.dma c).ctl) ≤ 4096 ∧ (s.dev.dma c).held = false ∧ (s.dev.dma c).cpl = false ∧
      s.dev.dmaMayRead c = true ∧ (s.dev.grp (dmaGroup c.val)).st ≠ .pending ∧ (s.dev.dma c).read < (s.dev.dma c).len ∧
      (s.dev.hostWindow ((fun k => (s.dev.dma c).beat (s.dev.dma c).src (ctlSinc (s.dev.dma c).ctl) (ctlSw (s.dev.dma c).ctl) ((s.dev.dma c).read + k * (ctlSw (s.dev.dma c).ctl))) 0) (ctlSw (s.dev.dma c).ctl)).isSome = true ∧
      data.length < (ctlSw (s.dev.dma c).ctl)) ∧
    (∃ (s : State) (c : Fin 16) (data : List Byte), (s.dev.grp (dmaGroup c.val)).st ≠ .pending ∧ s.dev.dmaMayRead c = false) ∧
    (∃ (s : State) (c : Fin 16), s.dev.dmaState c = 3 ∧ (s.dev.dma c).ending = none ∧
      (s.dev.dma c).buf.length + (ctlSw (s.dev.dma c).ctl) ≤ 4096 ∧ (s.dev.dma c).held = false ∧ (s.dev.dma c).cpl = false ∧
      (s.dev.grp (dmaGroup c.val)).st ≠ .pending ∧
      (s.dev.hostWindow ((fun k => (s.dev.dma c).beat (s.dev.dma c).src (ctlSinc (s.dev.dma c).ctl) (ctlSw (s.dev.dma c).ctl) ((s.dev.dma c).read + k * (ctlSw (s.dev.dma c).ctl))) 0) (ctlSw (s.dev.dma c).ctl)).isSome = true ∧
      s.dev.due ((s.dev.dma c).since + nsT 100000) = true) ∧
    (∃ (s : State) (c : Fin 16), s.dev.due ((s.dev.dma c).since + nsT 100000) = false) ∧
    (∃ (s : State) (c : Fin 16), s.dev.dmaMayWrite c = true ∧ (s.dev.dma c).held = false ∧ (s.dev.dmaState c = 3 ∨ s.dev.dmaState c = 4) ∧
      (ctlDw (s.dev.dma c).ctl) ≤ (s.dev.dma c).buf.length ∧ (s.dev.dma c).flips = [] ∧
      (ctlBurst (s.dev.dma c).ctl = 1 ∨ (s.dev.dma c).buf.length < 2 * (ctlDw (s.dev.dma c).ctl) ∨ (fun k => (s.dev.dma c).beat (s.dev.dma c).dst (ctlDinc (s.dev.dma c).ctl) (ctlDw (s.dev.dma c).ctl) ((s.dev.dma c).read - (s.dev.dma c).buf.length + k)) (ctlDw (s.dev.dma c).ctl) / 1024 ≠ (fun k => (s.dev.dma c).beat (s.dev.dma c).dst (ctlDinc (s.dev.dma c).ctl) (ctlDw (s.dev.dma c).ctl) ((s.dev.dma c).read - (s.dev.dma c).buf.length + k)) 0 / 1024) ∧
      s.dev.memTakes (s.dev.dmaAgent c) ((fun k => (s.dev.dma c).beat (s.dev.dma c).dst (ctlDinc (s.dev.dma c).ctl) (ctlDw (s.dev.dma c).ctl) ((s.dev.dma c).read - (s.dev.dma c).buf.length + k)) 0) (ctlDw (s.dev.dma c).ctl) = true ∧
      s.dev.num (DMA.CH_DONE c) ≤ 0x01000000 ∧
      ((s.dev.dma c).buf.drop (ctlDw (s.dev.dma c).ctl) ≠ [] ∨ (s.dev.dma c).read < (s.dev.dma c).len)) ∧
    (∃ (s : State) (c : Fin 16) (n : Nat), s.dev.dmaMayWrite c = true ∧ (s.dev.dma c).held = false ∧
      (s.dev.dmaState c = 3 ∨ s.dev.dmaState c = 4) ∧ (ctlDw (s.dev.dma c).ctl) ≤ (s.dev.dma c).buf.length ∧ (s.dev.dma c).flips = [] ∧
      ctlDinc (s.dev.dma c).ctl = true ∧ (s.dev.dma c).down = false ∧ ctlHalf (s.dev.dma c).ctl = false ∧ (0 < n ∧
      n ≤ ctlBurst (s.dev.dma c).ctl) ∧ n * (ctlDw (s.dev.dma c).ctl) ≤ (s.dev.dma c).buf.length ∧
      ((List.range n).all fun k => decide ((fun k => (s.dev.dma c).beat (s.dev.dma c).dst (ctlDinc (s.dev.dma c).ctl) (ctlDw (s.dev.dma c).ctl) ((s.dev.dma c).read - (s.dev.dma c).buf.length + k)) (k * (ctlDw (s.dev.dma c).ctl)) / 1024 = (fun k => (s.dev.dma c).beat (s.dev.dma c).dst (ctlDinc (s.dev.dma c).ctl) (ctlDw (s.dev.dma c).ctl) ((s.dev.dma c).read - (s.dev.dma c).buf.length + k)) 0 / 1024) && s.dev.memTakes (s.dev.dmaAgent c) ((fun k => (s.dev.dma c).beat (s.dev.dma c).dst (ctlDinc (s.dev.dma c).ctl) (ctlDw (s.dev.dma c).ctl) ((s.dev.dma c).read - (s.dev.dma c).buf.length + k)) (k * (ctlDw (s.dev.dma c).ctl))) (ctlDw (s.dev.dma c).ctl)) = true ∧
      (n = ctlBurst (s.dev.dma c).ctl ∨ (s.dev.dma c).buf.length < (n + 1) * (ctlDw (s.dev.dma c).ctl) ∨ (fun k => (s.dev.dma c).beat (s.dev.dma c).dst (ctlDinc (s.dev.dma c).ctl) (ctlDw (s.dev.dma c).ctl) ((s.dev.dma c).read - (s.dev.dma c).buf.length + k)) (n * (ctlDw (s.dev.dma c).ctl)) / 1024 ≠ (fun k => (s.dev.dma c).beat (s.dev.dma c).dst (ctlDinc (s.dev.dma c).ctl) (ctlDw (s.dev.dma c).ctl) ((s.dev.dma c).read - (s.dev.dma c).buf.length + k)) 0 / 1024) ∧
      s.dev.num (DMA.CH_DONE c) ≤ 0x01000000 ∧
      ((s.dev.dma c).buf.drop (n * (ctlDw (s.dev.dma c).ctl)) ≠ [] ∨ (s.dev.dma c).read < (s.dev.dma c).len)) ∧
    (∃ (s : State) (c : Fin 16), s.dev.dmaMayWrite c = true ∧ (s.dev.dma c).held = false ∧ (s.dev.dmaState c = 3 ∨ s.dev.dmaState c = 4) ∧
      (ctlDw (s.dev.dma c).ctl) ≤ (s.dev.dma c).buf.length ∧ (s.dev.dma c).flips = [] ∧
      (s.dev.dma c).buf.drop (ctlDw (s.dev.dma c).ctl) = [] ∧ (s.dev.dma c).len ≤ (s.dev.dma c).read ∧
      (s.dev.grp (dmaGroup c.val)).st ≠ .pending ∧
      s.dev.memTakes (s.dev.dmaAgent c) ((fun k => (s.dev.dma c).beat (s.dev.dma c).dst (ctlDinc (s.dev.dma c).ctl) (ctlDw (s.dev.dma c).ctl) ((s.dev.dma c).read - (s.dev.dma c).buf.length + k)) 0) (ctlDw (s.dev.dma c).ctl) = true ∧
      s.dev.num (DMA.CH_DONE c) ≤ 0x01000000 ∧ (s.dev.dma c).cpl = false ∧ ctlChain (s.dev.dma c).ctl = false) ∧
    (∃ (s : State) (c : Fin 16), s.dev.dmaMayWrite c = true ∧ (s.dev.dma c).held = false ∧ (s.dev.dmaState c = 3 ∨ s.dev.dmaState c = 4) ∧
      (ctlDw (s.dev.dma c).ctl) ≤ (s.dev.dma c).buf.length ∧ (s.dev.dma c).flips = [] ∧
      (s.dev.dma c).buf.drop (ctlDw (s.dev.dma c).ctl) = [] ∧ (s.dev.dma c).len ≤ (s.dev.dma c).read ∧
      (s.dev.grp (dmaGroup c.val)).st ≠ .pending ∧
      s.dev.memTakes (s.dev.dmaAgent c) ((fun k => (s.dev.dma c).beat (s.dev.dma c).dst (ctlDinc (s.dev.dma c).ctl) (ctlDw (s.dev.dma c).ctl) ((s.dev.dma c).read - (s.dev.dma c).buf.length + k)) 0) (ctlDw (s.dev.dma c).ctl) = true ∧
      s.dev.num (DMA.CH_DONE c) ≤ 0x01000000 ∧ (s.dev.dma c).cpl = false ∧ ctlChain (s.dev.dma c).ctl = true) :=
  ⟨⟨mkS fun d =>
      { (((d).setReg SUPPLY.DOM_STATUS_0 0xFFFFFFFF).setReg (SUPPLY.DOM_STATUS_0 + 4) 0xFFFFFFFF |>.setFld MEMCTL.SRAM_STATUS_READY 255 |>.setFld (DMA.CH_STATUS_STATE 5) 3) with dmas := [(5, { src := 0x0F100000, dst := 0x10200000, len := 64, ctl := 0x2E4, read := 16, buf := [9] })] }, 5, [], by decide +kernel⟩,
   ⟨mkS fun d =>
      { (((((((d.setFld HOST.OUT_CTRL_EN 1).setFld HOST.LINK_STATUS_BME 1).setFld HOST.LINK_STATUS_STATE 2).setReg64 HOST.OUT_BASE 0x5500000000)).setReg SUPPLY.DOM_STATUS_0 0xFFFFFFFF).setReg (SUPPLY.DOM_STATUS_0 + 4) 0xFFFFFFFF |>.setFld MEMCTL.SRAM_STATUS_READY 255 |>.setFld (DMA.CH_STATUS_STATE 5) 3) with dmas := [(5, { src := 0x0800000000, dst := 0x10200000, len := 64, ctl := 0x1E2, read := 0, buf := [] })] }, 5, [1], by decide +kernel⟩,
   ⟨mkS fun d =>
      { (((d).setReg SUPPLY.DOM_STATUS_0 0xFFFFFFFF).setReg (SUPPLY.DOM_STATUS_0 + 4) 0xFFFFFFFF |>.setFld MEMCTL.SRAM_STATUS_READY 255 |>.setFld (DMA.CH_STATUS_STATE 5) 1) with dmas := [(5, { held := false })] }, 5, [], by decide +kernel⟩,
   ⟨mkS fun d =>
      { (((((((d.setFld HOST.OUT_CTRL_EN 1).setFld HOST.LINK_STATUS_BME 1).setFld HOST.LINK_STATUS_STATE 2).setReg64 HOST.OUT_BASE 0x5500000000)).setReg SUPPLY.DOM_STATUS_0 0xFFFFFFFF).setReg (SUPPLY.DOM_STATUS_0 + 4) 0xFFFFFFFF |>.setFld MEMCTL.SRAM_STATUS_READY 255 |>.setFld (DMA.CH_STATUS_STATE 5) 3) with dmas := [(5, { src := 0x0800000000, dst := 0x10200000, len := 64, ctl := 0x1E2, read := 0, buf := [] })], time := { milepost := 6400000 } }, 5, by decide +kernel⟩,
   ⟨mkS fun d =>
      { (((((((d.setFld HOST.OUT_CTRL_EN 1).setFld HOST.LINK_STATUS_BME 1).setFld HOST.LINK_STATUS_STATE 2).setReg64 HOST.OUT_BASE 0x5500000000)).setReg SUPPLY.DOM_STATUS_0 0xFFFFFFFF).setReg (SUPPLY.DOM_STATUS_0 + 4) 0xFFFFFFFF |>.setFld MEMCTL.SRAM_STATUS_READY 255 |>.setFld (DMA.CH_STATUS_STATE 5) 3) with dmas := [(5, { src := 0x0800000000, dst := 0x10200000, len := 64, ctl := 0x1E2, read := 0, buf := [] })], time := { milepost := 6399936 } }, 5, by decide +kernel⟩,
   ⟨mkS fun d =>
      { ((((d.setNum (DMA.CH_DONE 5) 28)).setReg SUPPLY.DOM_STATUS_0 0xFFFFFFFF).setReg (SUPPLY.DOM_STATUS_0 + 4) 0xFFFFFFFF |>.setFld MEMCTL.SRAM_STATUS_READY 255 |>.setFld (DMA.CH_STATUS_STATE 5) 3) with dmas := [(5, { src := 0x10100000, dst := 0x10200000, len := 64, ctl := 0x2092, read := 32, buf := [1, 2, 3, 4, 5, 6, 7, 8, 9] })] }, 5, by decide +kernel⟩,
   ⟨mkS fun d =>
      { (((d).setReg SUPPLY.DOM_STATUS_0 0xFFFFFFFF).setReg (SUPPLY.DOM_STATUS_0 + 4) 0xFFFFFFFF |>.setFld MEMCTL.SRAM_STATUS_READY 255 |>.setFld (DMA.CH_STATUS_STATE 5) 3) with dmas := [(5, { src := 0x10100000, dst := 0x10200000, len := 64, ctl := 0x192, read := 32, buf := [1, 2, 3, 4, 5, 6, 7, 8, 9] })] }, 5, 2, by decide +kernel⟩,
   ⟨mkS fun d =>
      { ((((d.setNum (DMA.CH_DONE 5) 60)).setReg SUPPLY.DOM_STATUS_0 0xFFFFFFFF).setReg (SUPPLY.DOM_STATUS_0 + 4) 0xFFFFFFFF |>.setFld MEMCTL.SRAM_STATUS_READY 255 |>.setFld (DMA.CH_STATUS_STATE 5) 4) with dmas := [(5, { src := 0x10100000, dst := 0x10200000, len := 64, ctl := 0x6092, read := 64, buf := [1, 2, 3, 4] })] }, 5, by decide +kernel⟩,
   ⟨mkS fun d =>
      { ((((d.setNum (DMA.CH_DONE 5) 60)).setReg SUPPLY.DOM_STATUS_0 0xFFFFFFFF).setReg (SUPPLY.DOM_STATUS_0 + 4) 0xFFFFFFFF |>.setFld MEMCTL.SRAM_STATUS_READY 255 |>.setFld (DMA.CH_STATUS_STATE 5) 4) with dmas := [(5, { src := 0x10100000, dst := 0x10200000, len := 64, ctl := 0xE092, read := 64, buf := [1, 2, 3, 4], next := 0x10201000 })] }, 5, by decide +kernel⟩⟩

/-- The hypotheses of clauses 29 to 33 of DmaChannels are met. -/
theorem witness_DmaChannels_29 :
    (∃ (s : State) (c : Fin 16), s.dev.dmaMayWrite c = true ∧ (s.dev.dma c).held = false ∧ (s.dev.dmaState c = 3 ∨ s.dev.dmaState c = 4) ∧
      (ctlDw (s.dev.dma c).ctl) ≤ (s.dev.dma c).buf.length ∧ (s.dev.dma c).flips = [] ∧
      (s.dev.dma c).buf.drop (ctlDw (s.dev.dma c).ctl) = [] ∧ (s.dev.dma c).len ≤ (s.dev.dma c).read ∧
      (s.dev.grp (dmaGroup c.val)).st ≠ .pending ∧
      s.dev.memTakes (s.dev.dmaAgent c) ((fun k => (s.dev.dma c).beat (s.dev.dma c).dst (ctlDinc (s.dev.dma c).ctl) (ctlDw (s.dev.dma c).ctl) ((s.dev.dma c).read - (s.dev.dma c).buf.length + k)) 0) (ctlDw (s.dev.dma c).ctl) = true ∧
      s.dev.num (DMA.CH_DONE c) ≤ 0x01000000 ∧ (s.dev.dma c).cpl = true ∧ ctlChain (s.dev.dma c).ctl = false ∧
      ((s.dev.reg64 (DMA.CH_CPL c)).toNat % 2 ^ 40) ≠ 0 ∧
      s.dev.memTakes (s.dev.dmaAgent c) (((s.dev.reg64 (DMA.CH_CPL c)).toNat % 2 ^ 40) + 32 * (s.dev.num (DMA.CH_SEQ c) % 2 ^ s.dev.fld (DMA.CH_CPL_SIZE c))) 32 = true ∧
      ((fun k => (s.dev.dma c).beat (s.dev.dma c).dst (ctlDinc (s.dev.dma c).ctl) (ctlDw (s.dev.dma c).ctl) ((s.dev.dma c).read - (s.dev.dma c).buf.length + k)) 0 + (ctlDw (s.dev.dma c).ctl) ≤ (((s.dev.reg64 (DMA.CH_CPL c)).toNat % 2 ^ 40) + 32 * (s.dev.num (DMA.CH_SEQ c) % 2 ^ s.dev.fld (DMA.CH_CPL_SIZE c))) ∨ (((s.dev.reg64 (DMA.CH_CPL c)).toNat % 2 ^ 40) + 32 * (s.dev.num (DMA.CH_SEQ c) % 2 ^ s.dev.fld (DMA.CH_CPL_SIZE c))) + 32 ≤ (fun k => (s.dev.dma c).beat (s.dev.dma c).dst (ctlDinc (s.dev.dma c).ctl) (ctlDw (s.dev.dma c).ctl) ((s.dev.dma c).read - (s.dev.dma c).buf.length + k)) 0)) ∧
    (∃ (s : State) (c : Fin 16), s.dev.dmaMayWrite c = true ∧ (s.dev.dma c).held = false ∧ (s.dev.dmaState c = 3 ∨ s.dev.dmaState c = 4) ∧
      (ctlDw (s.dev.dma c).ctl) ≤ (s.dev.dma c).buf.length ∧ (s.dev.dma c).flips = [] ∧ (s.dev.grp (dmaGroup c.val)).st ≠ .pending ∧
      (s.dev.dma c).cpl = false ∧
      s.dev.memBeat ((fun k => (s.dev.dma c).beat (s.dev.dma c).dst (ctlDinc (s.dev.dma c).ctl) (ctlDw (s.dev.dma c).ctl) ((s.dev.dma c).read - (s.dev.dma c).buf.length + k)) 0) (ctlDw (s.dev.dma c).ctl) = true ∧
      (s.dev.storable ((fun k => (s.dev.dma c).beat (s.dev.dma c).dst (ctlDinc (s.dev.dma c).ctl) (ctlDw (s.dev.dma c).ctl) ((s.dev.dma c).read - (s.dev.dma c).buf.length + k)) 0) && s.dev.memMapped ((fun k => (s.dev.dma c).beat (s.dev.dma c).dst (ctlDinc (s.dev.dma c).ctl) (ctlDw (s.dev.dma c).ctl) ((s.dev.dma c).read - (s.dev.dma c).buf.length + k)) 0) (ctlDw (s.dev.dma c).ctl) && s.dev.memOpen (s.dev.dmaAgent c) ((fun k => (s.dev.dma c).beat (s.dev.dma c).dst (ctlDinc (s.dev.dma c).ctl) (ctlDw (s.dev.dma c).ctl) ((s.dev.dma c).read - (s.dev.dma c).buf.length + k)) 0) (ctlDw (s.dev.dma c).ctl) true) = false) ∧
    (∃ (s : State) (c : Fin 16), s.dev.dmaMayWrite c = true ∧ (s.dev.dma c).held = false ∧ (s.dev.dmaState c = 3 ∨ s.dev.dmaState c = 4) ∧
      (ctlDw (s.dev.dma c).ctl) ≤ (s.dev.dma c).buf.length ∧ (s.dev.dma c).flips = [] ∧
      (ctlBurst (s.dev.dma c).ctl = 1 ∨ (s.dev.dma c).buf.length < 2 * (ctlDw (s.dev.dma c).ctl) ∨ (fun k => (s.dev.dma c).beat (s.dev.dma c).dst (ctlDinc (s.dev.dma c).ctl) (ctlDw (s.dev.dma c).ctl) ((s.dev.dma c).read - (s.dev.dma c).buf.length + k)) (ctlDw (s.dev.dma c).ctl) / 1024 ≠ (fun k => (s.dev.dma c).beat (s.dev.dma c).dst (ctlDinc (s.dev.dma c).ctl) (ctlDw (s.dev.dma c).ctl) ((s.dev.dma c).read - (s.dev.dma c).buf.length + k)) 0 / 1024) ∧
      s.dev.num (DMA.CH_DONE c) ≤ 0x01000000 ∧
      ((s.dev.dma c).buf.drop (ctlDw (s.dev.dma c).ctl) ≠ [] ∨ (s.dev.dma c).read < (s.dev.dma c).len) ∧
      (s.dev.hostWindow ((fun k => (s.dev.dma c).beat (s.dev.dma c).dst (ctlDinc (s.dev.dma c).ctl) (ctlDw (s.dev.dma c).ctl) ((s.dev.dma c).read - (s.dev.dma c).buf.length + k)) 0) (ctlDw (s.dev.dma c).ctl)).isSome = true) ∧
    (∃ (s : State) (c : Fin 16), (s.dev.grp (dmaGroup c.val)).st ≠ .pending ∧ (s.dev.dma c).held = true ∧
      s.dev.agentWaits (s.dev.dmaAgent c) = true) ∧
    (∃ (s : State) (c : Fin 16), (s.dev.grp (dmaGroup c.val)).st ≠ .pending ∧ (s.dev.dma c).held = false ∧ s.dev.dmaMayWrite c = false) :=
  ⟨⟨mkS fun d =>
      { ((((((((d.setNum (DMA.CH_DONE 5) 60).setReg64 (DMA.CH_CPL 5) 0x0200000010300000).setNum (DMA.CH_SEQ 5) 7)).setReg64 (DMA.CH_CUR 5) 0x10201020)).setReg SUPPLY.DOM_STATUS_0 0xFFFFFFFF).setReg (SUPPLY.DOM_STATUS_0 + 4) 0xFFFFFFFF |>.setFld MEMCTL.SRAM_STATUS_READY 255 |>.setFld (DMA.CH_STATUS_STATE 5) 4) with dmas := [(5, { src := 0x10100000, dst := 0x10200000, len := 64, ctl := 0x6092, read := 64, buf := [1, 2, 3, 4], cpl := true })] }, 5, by decide +kernel⟩,
   ⟨mkS fun d =>
      { (((d).setReg SUPPLY.DOM_STATUS_0 0xFFFFFFFF).setReg (SUPPLY.DOM_STATUS_0 + 4) 0xFFFFFFFF |>.setFld MEMCTL.SRAM_STATUS_READY 255 |>.setFld (DMA.CH_STATUS_STATE 5) 4) with dmas := [(5, { src := 0x10100000, dst := 0x0F000000, len := 64, ctl := 0x6092, read := 64, buf := [1, 2, 3, 4] })] }, 5, by decide +kernel⟩,
   ⟨mkS fun d =>
      { ((((((((d.setFld HOST.OUT_CTRL_EN 1).setFld HOST.LINK_STATUS_BME 1).setFld HOST.LINK_STATUS_STATE 2).setReg64 HOST.OUT_BASE 0x5500000000).setNum (DMA.CH_DONE 5) 28)).setReg SUPPLY.DOM_STATUS_0 0xFFFFFFFF).setReg (SUPPLY.DOM_STATUS_0 + 4) 0xFFFFFFFF |>.setFld MEMCTL.SRAM_STATUS_READY 255 |>.setFld (DMA.CH_STATUS_STATE 5) 3) with dmas := [(5, { src := 0x10100000, dst := 0x0800000100, len := 64, ctl := 0x2092, read := 32, buf := [1, 2, 3, 4, 5, 6, 7, 8, 9] })] }, 5, by decide +kernel⟩,
   ⟨mkS fun d =>
      { (((d).setReg SUPPLY.DOM_STATUS_0 0xFFFFFFFF).setReg (SUPPLY.DOM_STATUS_0 + 4) 0xFFFFFFFF |>.setFld MEMCTL.SRAM_STATUS_READY 255 |>.setFld (DMA.CH_STATUS_STATE 5) 3) with dmas := [(5, { held := true })], led := { waiting := [{ agent := 0, kind := .write 0 0, since := 0 }] } }, 5, by decide +kernel⟩,
   ⟨mkS fun d =>
      { (((d).setReg SUPPLY.DOM_STATUS_0 0xFFFFFFFF).setReg (SUPPLY.DOM_STATUS_0 + 4) 0xFFFFFFFF |>.setFld MEMCTL.SRAM_STATUS_READY 255 |>.setFld (DMA.CH_STATUS_STATE 5) 3) with dmas := [(5, { buf := [] })] }, 5, by decide +kernel⟩⟩

/-- The hypotheses of clauses 1 to 12 of EventDelivery are met. -/
theorem witness_EventDelivery_1 :
    (∃ (s : State) (r : Raised) (l m : List Raised), s.dev.events = l ++ r :: m ∧ comesFirst r l m = true ∧ r.id < 1536 ∧
      r.stamp ≠ floorNs s.dev.now ∧ s.dev.unheard r.id = true ∧ s.dev.fld (JUNCTION.ROUTE_CORES r.id) = 0 ∧
      wordBit (s.dev.reg (JUNCTION.ROUTE r.id)) 23 = false ∧ wordBit (s.dev.reg (JUNCTION.ROUTE r.id)) 27 = false ∧
      wordBit (s.dev.reg (JUNCTION.ROUTE r.id)) 31 = false) ∧
    (∃ (s : State) (r : Raised) (l m : List Raised), s.dev.events = l ++ r :: m ∧ comesFirst r l m = true ∧ r.id < 1536 ∧
      r.stamp ≠ floorNs s.dev.now ∧ s.dev.unheard r.id = true ∧ wordBit (s.dev.reg (JUNCTION.ROUTE r.id)) 23 = false ∧
      wordBit (s.dev.reg (JUNCTION.ROUTE r.id)) 27 = false ∧ wordBit (s.dev.reg (JUNCTION.ROUTE r.id)) 31 = false ∧
      ((List.range 4).all fun c => !s.dev.lockstep c) = true) ∧
    (∃ (s : State) (r : Raised) (l m : List Raised), s.dev.events = l ++ r :: m ∧ comesFirst r l m = true ∧ r.id < 1536 ∧
      r.stamp ≠ floorNs s.dev.now ∧ s.dev.unheard r.id = true ∧ wordBit (s.dev.reg (JUNCTION.ROUTE r.id)) 23 = false ∧
      wordBit (s.dev.reg (JUNCTION.ROUTE r.id)) 27 = false ∧ wordBit (s.dev.reg (JUNCTION.ROUTE r.id)) 31 = false ∧
      bitsOf (s.dev.fld (JUNCTION.ROUTE_CORES r.id)) 1 0 ≠ 0 ∧ bitsOf (s.dev.fld (JUNCTION.ROUTE_CORES r.id)) 3 2 = 0 ∧
      s.dev.lockstep 0 = true ∧ s.dev.lockstep 1 = true ∧ s.dev.coreState 0 = 2 ∧ s.dev.coreState 1 = 2) ∧
    (∃ (s : State) (r : Raised) (l m : List Raised), s.dev.events = l ++ r :: m ∧ comesFirst r l m = true ∧ r.id < 1536 ∧
      r.stamp ≠ floorNs s.dev.now ∧ s.dev.unheard r.id = true ∧ s.dev.fld (JUNCTION.ROUTE_CORES r.id) = 0 ∧
      wordBit (s.dev.reg (JUNCTION.ROUTE r.id)) 23 = false ∧ wordBit (s.dev.reg (JUNCTION.ROUTE r.id)) 31 = false ∧
      wordBit (s.dev.reg (JUNCTION.ROUTE r.id)) 27 = true) ∧
    (∃ (s : State) (r : Raised) (l m : List Raised), s.dev.events = l ++ r :: m ∧ comesFirst r l m = true ∧ r.id < 1536 ∧
      r.stamp ≠ floorNs s.dev.now ∧ s.dev.unheard r.id = true ∧ s.dev.fld (JUNCTION.ROUTE_CORES r.id) = 0 ∧
      wordBit (s.dev.reg (JUNCTION.ROUTE r.id)) 23 = false ∧ wordBit (s.dev.reg (JUNCTION.ROUTE r.id)) 27 = false ∧
      wordBit (s.dev.reg (JUNCTION.ROUTE r.id)) 31 = true ∧
      s.dev.ringTakes ({ ring := s.dev.fld (JUNCTION.ROUTE_RING r.id), typ := 1, event := BitVec.ofNat 16 r.id, agent := (if 800 ≤ r.id ∧
      r.id < 928 then 0x0200 + BitVec.ofNat 16 ((r.id - 800) / 2) else r.agent), time := r.stamp, payload := toBytes 2 r.value.toNat } : HostRec) = true) ∧
    (∃ (s : State) (r : Raised) (l m : List Raised) (q j : Nat), s.dev.events = l ++ r :: m ∧ comesFirst r l m = true ∧ r.id < 1536 ∧
      r.stamp ≠ floorNs s.dev.now ∧ s.dev.unheard r.id = true ∧ s.dev.fld (JUNCTION.ROUTE_CORES r.id) = 0 ∧
      wordBit (s.dev.reg (JUNCTION.ROUTE r.id)) 27 = false ∧ wordBit (s.dev.reg (JUNCTION.ROUTE r.id)) 31 = false ∧
      wordBit (s.dev.reg (JUNCTION.ROUTE r.id)) 23 = true ∧ s.dev.tieOn = true ∧ s.dev.tiePeers = [q] ∧
      (List.range 32).filter (fun j => s.dev.flag (JUNCTION.TIE_FWD_VALID j) && decide (s.dev.fld (JUNCTION.TIE_FWD_SOURCE j) = r.id)) = [j] ∧
      s.dev.tie.unacked = []) ∧
    (∃ (s : State) (r : Raised) (l m : List Raised) (c : Fin 16), s.dev.events = l ++ r :: m ∧ comesFirst r l m = true ∧ r.id < 1536 ∧
      r.stamp ≠ floorNs s.dev.now ∧ s.dev.fld (JUNCTION.ROUTE_CORES r.id) = 0 ∧ wordBit (s.dev.reg (JUNCTION.ROUTE r.id)) 23 = false ∧
      wordBit (s.dev.reg (JUNCTION.ROUTE r.id)) 27 = false ∧ wordBit (s.dev.reg (JUNCTION.ROUTE r.id)) 31 = false ∧
      ((List.range 16).all fun k => decide (s.dev.fld (DMA.CH_CFG_TRIG_EVENT k) = r.id) == decide (k = c.val)) = true ∧
      s.dev.flag (DMA.CH_CFG_TRIG_EN c.val) = true ∧ s.dev.flag (DMA.CH_STATUS_TRIG_PEND c.val) = false ∧ s.dev.dmaState c.val ≠ 2 ∧
      ((List.range 4).all fun u => decide (s.dev.fld (LOOP.TRC_TRIG_EVENT u) ≠ r.id)) = true ∧
      ((List.range 8).all fun k => decide (s.dev.fld (PHASE.PH_RAIL_ADD_ADD_EVENT k) ≠ r.id)) = true) ∧
    (∃ (s : State) (r : Raised) (l m : List Raised) (u : Fin 4), s.dev.events = l ++ r :: m ∧ comesFirst r l m = true ∧ r.id < 1536 ∧
      r.stamp ≠ floorNs s.dev.now ∧ s.dev.fld (JUNCTION.ROUTE_CORES r.id) = 0 ∧ wordBit (s.dev.reg (JUNCTION.ROUTE r.id)) 23 = false ∧
      wordBit (s.dev.reg (JUNCTION.ROUTE r.id)) 27 = false ∧ wordBit (s.dev.reg (JUNCTION.ROUTE r.id)) 31 = false ∧
      ((List.range 4).all fun k => decide (s.dev.trcState k = 1 ∧ s.dev.fld (LOOP.TRC_CFG_TRIG_SRC k) = 2 ∧
      s.dev.fld (LOOP.TRC_TRIG_EVENT k) = r.id) == decide (k = u.val)) = true ∧
      ((List.range 16).all fun k => decide (s.dev.fld (DMA.CH_CFG_TRIG_EVENT k) ≠ r.id)) = true ∧
      ((List.range 8).all fun k => decide (s.dev.fld (PHASE.PH_RAIL_ADD_ADD_EVENT k) ≠ r.id)) = true) ∧
    (∃ (s : State) (r : Raised) (l m : List Raised), s.dev.events = l ++ r :: m ∧ comesFirst r l m = true ∧ r.stamp = floorNs s.dev.now) ∧
    (∃ (s : State), s.dev.events = []) ∧
    (∃ (s : State) (a : Agent) (v : Word), s.dev.takes a.id JUNCTION.SW_RAISE v = true) ∧
    (∃ (s : State) (a : Agent) (v : Word), s.dev.takes a.id HOST.DOORBELL v = true) :=
  ⟨⟨mkS fun d =>
      { (d).setNum (JUNCTION.ROUTE 801) 0x0 with events := [{ id := 900, stamp := 64 }, { id := 801, stamp := 64 }, { id := 3, stamp := 128 }], time := { milepost := 6400 } }, { id := 801, stamp := 64 }, [{ id := 900, stamp := 64 }], [{ id := 3, stamp := 128 }], by decide +kernel⟩,
   ⟨mkS fun d =>
      { ((((d.setFld (CORES.CORE_STATUS_STATE 0) 5).setFld (CORES.CORE_STATUS_STATE 1) 2).setFld (CORES.CORE_STATUS_STATE 3) 4)).setNum (JUNCTION.ROUTE 801) 0xF025 with events := [{ id := 900, stamp := 64 }, { id := 801, stamp := 64 }, { id := 3, stamp := 128 }], time := { milepost := 6400 } }, { id := 801, stamp := 64 }, [{ id := 900, stamp := 64 }], [{ id := 3, stamp := 128 }], by decide +kernel⟩,
   ⟨mkS fun d =>
      { (((((d.setFld (CORES.CORE_STATUS_STATE 0) 2).setFld (CORES.CORE_STATUS_STATE 1) 2).setFld (CORES.CORE_STATUS_LOCKSTEP 0) 1).setFld (CORES.CORE_STATUS_LOCKSTEP 1) 1)).setNum (JUNCTION.ROUTE 801) 0x3025 with events := [{ id := 900, stamp := 64 }, { id := 801, stamp := 64 }, { id := 3, stamp := 128 }], time := { milepost := 6400 } }, { id := 801, stamp := 64 }, [{ id := 900, stamp := 64 }], [{ id := 3, stamp := 128 }], by decide +kernel⟩,
   ⟨mkS fun d =>
      { (d).setNum (JUNCTION.ROUTE 801) 0xD050000 with events := [{ id := 900, stamp := 64 }, { id := 801, stamp := 64 }, { id := 3, stamp := 128 }], time := { milepost := 6400 } }, { id := 801, stamp := 64 }, [{ id := 900, stamp := 64 }], [{ id := 3, stamp := 128 }], by decide +kernel⟩,
   ⟨mkS fun d =>
      { ((d.setFld (HOST.RING_CTRL_EN 2) 1)).setNum (JUNCTION.ROUTE 801) 0xA0000000 with events := [{ id := 900, stamp := 64 }, { id := 801, stamp := 64 }, { id := 3, stamp := 128 }], time := { milepost := 6400 } }, { id := 801, stamp := 64 }, [{ id := 900, stamp := 64 }], [{ id := 3, stamp := 128 }], by decide +kernel⟩,
   ⟨mkS fun d =>
      { (((((d.setFld TIE.TIE_CFG_ENABLE 1).setFld TIE.TIE_CFG_N 2).setFld (JUNCTION.TIE_FWD_VALID 7) 1).setFld (JUNCTION.TIE_FWD_SOURCE 7) 801)).setNum (JUNCTION.ROUTE 801) 0x800000 with events := [{ id := 900, stamp := 64 }, { id := 801, stamp := 64 }, { id := 3, stamp := 128 }], time := { milepost := 6400 } }, { id := 801, stamp := 64 }, [{ id := 900, stamp := 64 }], [{ id := 3, stamp := 128 }], 1, 7, by decide +kernel⟩,
   ⟨mkS fun d =>
      { (((d.setFld (DMA.CH_CFG_TRIG_EVENT 5) 801).setFld (DMA.CH_CFG_TRIG_EN 5) 1)).setNum (JUNCTION.ROUTE 801) 0x0 with events := [{ id := 900, stamp := 64 }, { id := 801, stamp := 64 }, { id := 3, stamp := 128 }], time := { milepost := 6400 } }, { id := 801, stamp := 64 }, [{ id := 900, stamp := 64 }], [{ id := 3, stamp := 128 }], 5, by decide +kernel⟩,
   ⟨mkS fun d =>
      { ((((d.setFld (LOOP.TRC_STATUS_STATE 2) 1).setFld (LOOP.TRC_CFG_TRIG_SRC 2) 2).setFld (LOOP.TRC_TRIG_EVENT 2) 801)).setNum (JUNCTION.ROUTE 801) 0x0 with events := [{ id := 900, stamp := 64 }, { id := 801, stamp := 64 }, { id := 3, stamp := 128 }], time := { milepost := 6400 } }, { id := 801, stamp := 64 }, [{ id := 900, stamp := 64 }], [{ id := 3, stamp := 128 }], 2, by decide +kernel⟩,
   ⟨mkS fun d =>
      { d with events := [{ id := 801, stamp := 64 }], time := { milepost := 100 } }, { id := 801, stamp := 64 }, [], [], by decide +kernel⟩,
   ⟨mkS fun d => d, by decide +kernel⟩,
   ⟨mkS fun d => d, .loader, 0x04E81234, by decide +kernel⟩,
   ⟨mkS fun d => (d.setReg (SUPPLY.DOM_STATUS_0 + 4) 0xFFFFFFFF), .loader, 0x81, by decide +kernel⟩⟩

/-- The hypotheses of clauses 1 to 12 of HostInterface are met. -/
theorem witness_HostInterface_1 :
    (∃ (s : State) (bar : Fin 3) (off n : Nat), s.dev.hostUp = true ∧ s.dev.agentWaits 0x0400 = false ∧ bar ≠ 0 ∧ n ≠ 0 ∧
      off + n ≤ (if bar = 1 then 0x800000 else 0x1000000) ∧
      (!inPeripherals (if bar = 1 then 0x10000000 + off else (s.dev.reg64 HOST.BAR4_WIN).toNat % 2 ^ 40 + off) && !inCoef (if bar = 1 then 0x10000000 + off else (s.dev.reg64 HOST.BAR4_WIN).toNat % 2 ^ 40 + off) && !inTrace (if bar = 1 then 0x10000000 + off else (s.dev.reg64 HOST.BAR4_WIN).toNat % 2 ^ 40 + off) && decide (s.dev.memCode (if bar = 1 then 0x10000000 + off else (s.dev.reg64 HOST.BAR4_WIN).toNat % 2 ^ 40 + off) ≠ some 0x40) && s.dev.memMapped (if bar = 1 then 0x10000000 + off else (s.dev.reg64 HOST.BAR4_WIN).toNat % 2 ^ 40 + off) n && s.dev.memOpen 0x0400 (if bar = 1 then 0x10000000 + off else (s.dev.reg64 HOST.BAR4_WIN).toNat % 2 ^ 40 + off) n false) = true ∧
      s.dev.ecc = []) ∧
    (∃ (s : State) (bar : Fin 3) (off n : Nat), s.dev.hostUp = true ∧ s.dev.agentWaits 0x0400 = false ∧ bar ≠ 0 ∧ n ≠ 0 ∧
      off + n ≤ (if bar = 1 then 0x800000 else 0x1000000) ∧
      (!inPeripherals (if bar = 1 then 0x10000000 + off else (s.dev.reg64 HOST.BAR4_WIN).toNat % 2 ^ 40 + off) && !inCoef (if bar = 1 then 0x10000000 + off else (s.dev.reg64 HOST.BAR4_WIN).toNat % 2 ^ 40 + off) && !inTrace (if bar = 1 then 0x10000000 + off else (s.dev.reg64 HOST.BAR4_WIN).toNat % 2 ^ 40 + off) && decide (s.dev.memCode (if bar = 1 then 0x10000000 + off else (s.dev.reg64 HOST.BAR4_WIN).toNat % 2 ^ 40 + off) ≠ some 0x40) && s.dev.memMapped (if bar = 1 then 0x10000000 + off else (s.dev.reg64 HOST.BAR4_WIN).toNat % 2 ^ 40 + off) n && s.dev.memOpen 0x0400 (if bar = 1 then 0x10000000 + off else (s.dev.reg64 HOST.BAR4_WIN).toNat % 2 ^ 40 + off) n false) = true ∧
      s.dev.ecc = []) ∧
    (∃ (s : State) (bar : Fin 3) (off n : Nat), s.dev.hostUp = true ∧ s.dev.agentWaits 0x0400 = false ∧ bar ≠ 0 ∧ n ≠ 0 ∧
      off + n ≤ (if bar = 1 then 0x800000 else 0x1000000) ∧
      (!inPeripherals (if bar = 1 then 0x10000000 + off else (s.dev.reg64 HOST.BAR4_WIN).toNat % 2 ^ 40 + off) && !inCoef (if bar = 1 then 0x10000000 + off else (s.dev.reg64 HOST.BAR4_WIN).toNat % 2 ^ 40 + off) && !inTrace (if bar = 1 then 0x10000000 + off else (s.dev.reg64 HOST.BAR4_WIN).toNat % 2 ^ 40 + off) && decide (s.dev.memCode (if bar = 1 then 0x10000000 + off else (s.dev.reg64 HOST.BAR4_WIN).toNat % 2 ^ 40 + off) ≠ some 0x40) && !(s.dev.memMapped (if bar = 1 then 0x10000000 + off else (s.dev.reg64 HOST.BAR4_WIN).toNat % 2 ^ 40 + off) n && s.dev.memOpen 0x0400 (if bar = 1 then 0x10000000 + off else (s.dev.reg64 HOST.BAR4_WIN).toNat % 2 ^ 40 + off) n false)) = true) ∧
    (∃ (s : State) (bar : Fin 3) (off n : Nat), s.dev.hostUp = true ∧ s.dev.agentWaits 0x0400 = false ∧ (n = 0 ∨ (bar = 0 ∧
      (n ≠ 4 ∨ off % 4 ≠ 0)) ∨ (if bar = 1 then 0x800000 else 0x1000000) < off + n)) ∧
    (∃ (s : State) (off : Nat), s.dev.hostUp = true ∧ s.dev.agentWaits 0x0400 = false ∧ off < 0x1000000 ∧ off % 4 = 0 ∧
      s.dev.blkLevel 0x0400 (off / 0x10000) ≠ 0 ∧ blockExists (off / 0x10000) = true ∧ streamAt off = none ∧ wideBase off = none) ∧
    (∃ (s : State) (bar : Fin 3) (off n : Nat), s.dev.hostUp = true ∧ s.dev.agentWaits 0x0400 = true) ∧
    (∃ (s : State) (bar : Fin 3) (off n : Nat), s.dev.hostUp = false) ∧
    (∃ (s : State) (bar : Fin 3) (off : Nat) (bs : List Byte), s.dev.hostUp = true ∧ s.dev.agentWaits 0x0400 = true) ∧
    (∃ (s : State) (bar : Fin 3) (off : Nat) (bs : List Byte), s.dev.hostUp = false) ∧
    (∃ (s : State) (bar : Fin 3) (off : Nat) (bs : List Byte), s.dev.hostUp = true ∧ s.dev.agentWaits 0x0400 = false ∧ bar ≠ 0 ∧ bs ≠ [] ∧
      off + bs.length ≤ (if bar = 1 then 0x800000 else 0x1000000) ∧
      (!inPeripherals (if bar = 1 then 0x10000000 + off else (s.dev.reg64 HOST.BAR4_WIN).toNat % 2 ^ 40 + off) && !inCoef (if bar = 1 then 0x10000000 + off else (s.dev.reg64 HOST.BAR4_WIN).toNat % 2 ^ 40 + off)) = true ∧
      (s.dev.storable (if bar = 1 then 0x10000000 + off else (s.dev.reg64 HOST.BAR4_WIN).toNat % 2 ^ 40 + off) && s.dev.memMapped (if bar = 1 then 0x10000000 + off else (s.dev.reg64 HOST.BAR4_WIN).toNat % 2 ^ 40 + off) bs.length && s.dev.memOpen 0x0400 (if bar = 1 then 0x10000000 + off else (s.dev.reg64 HOST.BAR4_WIN).toNat % 2 ^ 40 + off) bs.length true && decide (s.dev.loadRings 0x0400 (if bar = 1 then 0x10000000 + off else (s.dev.reg64 HOST.BAR4_WIN).toNat % 2 ^ 40 + off) bs.length = []) && s.dev.ecc.isEmpty && !s.dev.flag MEMCTL.ECC_FLIP_ARM && decide (s.dev.tcmTwins (if bar = 1 then 0x10000000 + off else (s.dev.reg64 HOST.BAR4_WIN).toNat % 2 ^ 40 + off) = [(if bar = 1 then 0x10000000 + off else (s.dev.reg64 HOST.BAR4_WIN).toNat % 2 ^ 40 + off)]) && !s.dev.lgDram) = true) ∧
    (∃ (s : State) (bar : Fin 3) (off : Nat) (bs : List Byte), s.dev.hostUp = true ∧ s.dev.agentWaits 0x0400 = false ∧ bar ≠ 0 ∧ bs ≠ [] ∧
      off + bs.length ≤ (if bar = 1 then 0x800000 else 0x1000000) ∧
      (!inPeripherals (if bar = 1 then 0x10000000 + off else (s.dev.reg64 HOST.BAR4_WIN).toNat % 2 ^ 40 + off) && !inCoef (if bar = 1 then 0x10000000 + off else (s.dev.reg64 HOST.BAR4_WIN).toNat % 2 ^ 40 + off) && !(s.dev.storable (if bar = 1 then 0x10000000 + off else (s.dev.reg64 HOST.BAR4_WIN).toNat % 2 ^ 40 + off) && s.dev.memMapped (if bar = 1 then 0x10000000 + off else (s.dev.reg64 HOST.BAR4_WIN).toNat % 2 ^ 40 + off) bs.length && s.dev.memOpen 0x0400 (if bar = 1 then 0x10000000 + off else (s.dev.reg64 HOST.BAR4_WIN).toNat % 2 ^ 40 + off) bs.length true)) = true) ∧
    (∃ (s : State) (bar : Fin 3) (off : Nat) (bs : List Byte), s.dev.hostUp = true ∧ s.dev.agentWaits 0x0400 = false ∧ (bs = [] ∨ (bar = 0 ∧
      (bs.length ≠ 4 ∨ off % 4 ≠ 0)) ∨ (if bar = 1 then 0x800000 else 0x1000000) < off + bs.length)) :=
  ⟨⟨mkS fun d =>
      { ((((d.setReg64 HOST.BAR4_WIN 0x10000000).setReg SUPPLY.DOM_STATUS_0 0xFFFFFFFF).setReg (SUPPLY.DOM_STATUS_0 + 4) 0xFFFFFFFF).setFld HOST.LINK_STATUS_STATE 2).setFld MEMCTL.SRAM_STATUS_READY 255 with tapIr := 0, mem := [(0x10000101, 3), (0x107FFFFF, 9)] }, 1, 0x7FFFFC, 4, by decide +kernel⟩,
   ⟨mkS fun d =>
      { ((((d.setReg64 HOST.BAR4_WIN 0x10000000).setReg SUPPLY.DOM_STATUS_0 0xFFFFFFFF).setReg (SUPPLY.DOM_STATUS_0 + 4) 0xFFFFFFFF).setFld HOST.LINK_STATUS_STATE 2).setFld MEMCTL.SRAM_STATUS_READY 255 with tapIr := 0, mem := [(0x10000101, 3), (0x107FFFFF, 9)] }, 2, 0x100, 4, by decide +kernel⟩,
   ⟨mkS fun d =>
      { { ((((d).setReg SUPPLY.DOM_STATUS_0 0xFFFFFFFF).setReg (SUPPLY.DOM_STATUS_0 + 4) 0xFFFFFFFF).setFld HOST.LINK_STATUS_STATE 2).setFld MEMCTL.SRAM_STATUS_READY 254 with tapIr := 0 } with tapIr := 0 }, 1, 0, 4, by decide +kernel⟩,
   ⟨mkS fun d =>
      { ((((d).setReg SUPPLY.DOM_STATUS_0 0xFFFFFFFF).setReg (SUPPLY.DOM_STATUS_0 + 4) 0xFFFFFFFF).setFld HOST.LINK_STATUS_STATE 2).setFld MEMCTL.SRAM_STATUS_READY 255 with tapIr := 0 }, 0, 2, 4, by decide +kernel⟩,
   ⟨mkS fun d =>
      { ((((d.setReg (PROTECT.BLK_PERM 0x07) 0xFFFFFFFF).setReg SUPPLY.DOM_STATUS_0 0xFFFFFFFF).setReg (SUPPLY.DOM_STATUS_0 + 4) 0xFFFFFFFF).setFld HOST.LINK_STATUS_STATE 2).setFld MEMCTL.SRAM_STATUS_READY 255 with tapIr := 0 }, 0x00070000, by decide +kernel⟩,
   ⟨mkS fun d =>
      { ((((d).setReg SUPPLY.DOM_STATUS_0 0xFFFFFFFF).setReg (SUPPLY.DOM_STATUS_0 + 4) 0xFFFFFFFF).setFld HOST.LINK_STATUS_STATE 2).setFld MEMCTL.SRAM_STATUS_READY 255 with tapIr := 0, led := { waiting := [{ agent := 0x0400, kind := .write 0 0, since := 0 }] } }, 0, 0, 4, by decide +kernel⟩,
   ⟨mkS fun d => d, 0, 0, 4, by decide +kernel⟩,
   ⟨mkS fun d =>
      { ((((d).setReg SUPPLY.DOM_STATUS_0 0xFFFFFFFF).setReg (SUPPLY.DOM_STATUS_0 + 4) 0xFFFFFFFF).setFld HOST.LINK_STATUS_STATE 2).setFld MEMCTL.SRAM_STATUS_READY 255 with tapIr := 0, led := { waiting := [{ agent := 0x0400, kind := .write 0 0, since := 0 }] } }, 0, 0, [1, 2, 3, 4], by decide +kernel⟩,
   ⟨mkS fun d => d, 0, 0, [1, 2, 3, 4], by decide +kernel⟩,
   ⟨mkS fun d =>
      { ((((d.setReg64 HOST.BAR4_WIN 0x10000000).setReg SUPPLY.DOM_STATUS_0 0xFFFFFFFF).setReg (SUPPLY.DOM_STATUS_0 + 4) 0xFFFFFFFF).setFld HOST.LINK_STATUS_STATE 2).setFld MEMCTL.SRAM_STATUS_READY 255 with tapIr := 0 }, 1, 0x100, [1, 2, 3], by decide +kernel⟩,
   ⟨mkS fun d =>
      { ((((d.setReg64 HOST.BAR4_WIN 0xF0000000).setReg SUPPLY.DOM_STATUS_0 0xFFFFFFFF).setReg (SUPPLY.DOM_STATUS_0 + 4) 0xFFFFFFFF).setFld HOST.LINK_STATUS_STATE 2).setFld MEMCTL.SRAM_STATUS_READY 255 with tapIr := 0 }, 2, 0, [1], by decide +kernel⟩,
   ⟨mkS fun d =>
      { ((((d).setReg SUPPLY.DOM_STATUS_0 0xFFFFFFFF).setReg (SUPPLY.DOM_STATUS_0 + 4) 0xFFFFFFFF).setFld HOST.LINK_STATUS_STATE 2).setFld MEMCTL.SRAM_STATUS_READY 255 with tapIr := 0 }, 1, 0x7FFFFF, [1, 2], by decide +kernel⟩⟩

/-- The hypotheses of clauses 13 to 24 of HostInterface are met. -/
theorem witness_HostInterface_13 :
    (∃ (s : State) (off : Nat) (bs : List Byte), s.dev.hostUp = true ∧ s.dev.agentWaits 0x0400 = false ∧ bs.length = 4 ∧ off < 0x1000000 ∧
      s.dev.takes 0x0400 off (BitVec.ofNat 32 (ofBytes bs)) = true) ∧
    (∃ (s : State), s.dev.fld HOST.LINK_STATUS_STATE ≠ 0 ∧ s.dev.holdsNone 0x0400 = true ∧ s.dev.noMirror = true ∧ s.dev.led.fresh = []) ∧
    (∃ (s : State), s.dev.fld HOST.LINK_STATUS_STATE = 0) ∧
    (∃ (s : State) (sp : Fin 5) (wi : Fin 3) (bme : Bool), s.dev.domReady 52 = true) ∧
    (∃ (s : State) (sp : Fin 5) (wi : Fin 3) (bme : Bool), s.dev.domReady 52 = false) ∧
    (∃ (s : State), s.dev.holdsNone 0x0400 = true ∧ s.dev.led.fresh = []) ∧
    (∃ (s : State) (r : Fin 8) (q : HostRec) (l m : List HostRec), s.dev.hostQ = l ++ q :: m ∧ (l.all fun x => decide (x.ring ≠ r.val)) = true ∧
      q.ring = r.val ∧ (l.all fun x => decide (x ≠ q)) = true ∧
      (s.dev.hostUp && s.dev.flag HOST.LINK_STATUS_BME && s.dev.flag (HOST.RING_CTRL_EN r) && decide (((s.dev.reg (HOST.RING_HEAD r)) - s.dev.reg (HOST.RING_TAIL r)).toNat < 2 ^ s.dev.fld (HOST.RING_CTRL_SIZE r))) = true ∧
      (decide (s.dev.fld (HOST.RING_IRQ_COUNT r) ≠ 0) && decide (s.dev.fld (HOST.RING_IRQ_COUNT r) ≤ (s.dev.ringIrq r).count + 1)) = true) ∧
    (∃ (s : State) (r : Fin 8) (q : HostRec) (l m : List HostRec), s.dev.hostQ = l ++ q :: m ∧ (l.all fun x => decide (x.ring ≠ r.val)) = true ∧
      q.ring = r.val ∧ (l.all fun x => decide (x ≠ q)) = true ∧
      (s.dev.hostUp && s.dev.flag HOST.LINK_STATUS_BME && s.dev.flag (HOST.RING_CTRL_EN r) && decide (((s.dev.reg (HOST.RING_HEAD r)) - s.dev.reg (HOST.RING_TAIL r)).toNat < 2 ^ s.dev.fld (HOST.RING_CTRL_SIZE r))) = true ∧
      (decide (s.dev.fld (HOST.RING_IRQ_COUNT r) ≠ 0) && decide (s.dev.fld (HOST.RING_IRQ_COUNT r) ≤ (s.dev.ringIrq r).count + 1)) = false) ∧
    (∃ (s : State) (r : Fin 8), ((s.dev.hostQ.all fun q => decide (q.ring ≠ r.val)) || !(s.dev.hostUp && s.dev.flag HOST.LINK_STATUS_BME && s.dev.flag (HOST.RING_CTRL_EN r) && decide (((s.dev.reg (HOST.RING_HEAD r)) - s.dev.reg (HOST.RING_TAIL r)).toNat < 2 ^ s.dev.fld (HOST.RING_CTRL_SIZE r)))) = true) ∧
    (∃ (s : State) (r : Fin 8), (decide ((s.dev.ringIrq r).count ≠ 0) && decide (s.dev.fld (HOST.RING_IRQ_TIME_US r) ≠ 0) && s.dev.hostUp && s.dev.flag HOST.LINK_STATUS_BME && s.dev.due ((s.dev.ringIrq r).since + nsT (1000 * s.dev.fld (HOST.RING_IRQ_TIME_US r)))) = true) ∧
    (∃ (s : State) (r : Fin 8), (decide ((s.dev.ringIrq r).count ≠ 0) && decide (s.dev.fld (HOST.RING_IRQ_TIME_US r) ≠ 0) && s.dev.hostUp && s.dev.flag HOST.LINK_STATUS_BME && s.dev.due ((s.dev.ringIrq r).since + nsT (1000 * s.dev.fld (HOST.RING_IRQ_TIME_US r)))) = false) ∧
    (∃ (s : State) (a : Agent) (r : Fin 8) (v : Word), s.dev.takes a.id (HOST.RING_TAIL r) v = true) :=
  ⟨⟨mkS fun d =>
      { ((((d.setReg (PROTECT.BLK_PERM 0x07) 0xFFFFFFFF).setReg SUPPLY.DOM_STATUS_0 0xFFFFFFFF).setReg (SUPPLY.DOM_STATUS_0 + 4) 0xFFFFFFFF).setFld HOST.LINK_STATUS_STATE 2).setFld MEMCTL.SRAM_STATUS_READY 255 with tapIr := 0 }, 0x70020, [0x81, 0, 0, 0], by decide +kernel⟩,
   ⟨mkS fun d =>
      { (((((d.setNum (HOST.RING_CTRL 3) 0x80000106).setFld HOST.LINK_STATUS_SPEED 5).setReg SUPPLY.DOM_STATUS_0 0xFFFFFFFF).setReg (SUPPLY.DOM_STATUS_0 + 4) 0xFFFFFFFF).setFld HOST.LINK_STATUS_STATE 2).setFld MEMCTL.SRAM_STATUS_READY 255 with tapIr := 0, hostQ := [{ ring := 3, typ := 1, event := 0, agent := 0, time := 0, payload := [] }], ringIrqs := [(3, { count := 1 })] }, by decide +kernel⟩,
   ⟨mkS fun d => d, by decide +kernel⟩,
   ⟨mkS fun d => ((d.setReg SUPPLY.DOM_STATUS_0 0xFFFFFFFF).setReg (SUPPLY.DOM_STATUS_0 + 4) 0xFFFFFFFF), 4, 2, true, by decide +kernel⟩,
   ⟨mkS fun d => d, 4, 2, true, by decide +kernel⟩,
   ⟨mkS fun d =>
      { (((((d.setNum (HOST.RING_CTRL 3) 0x80000106).setNum HOST.OUT_CTRL 1).setReg SUPPLY.DOM_STATUS_0 0xFFFFFFFF).setReg (SUPPLY.DOM_STATUS_0 + 4) 0xFFFFFFFF).setFld HOST.LINK_STATUS_STATE 2).setFld MEMCTL.SRAM_STATUS_READY 255 with tapIr := 0, hostQ := [{ ring := 3, typ := 1, event := 0, agent := 0, time := 0, payload := [] }], msix := [(4, 3)] }, by decide +kernel⟩,
   ⟨mkS fun d =>
      { ((((((((d).setNum (HOST.RING_CTRL 2) 0x80000306).setFld HOST.LINK_STATUS_BME 1).setReg64 (HOST.RING_BASE 2) 0x5500001000).setNum (HOST.RING_HEAD 2) 66 |>.setNum (HOST.RING_TAIL 2) 3).setReg SUPPLY.DOM_STATUS_0 0xFFFFFFFF).setReg (SUPPLY.DOM_STATUS_0 + 4) 0xFFFFFFFF).setFld HOST.LINK_STATUS_STATE 2).setFld MEMCTL.SRAM_STATUS_READY 255 with tapIr := 0, hostQ := [{ ring := 1, typ := 2, event := 0xFFFF, agent := 0, time := 0, payload := [] }, { ring := 2, typ := 1, event := 801, agent := 0x0200, time := 64, payload := [1, 0], merged := 7 }] }, 2, { ring := 2, typ := 1, event := 801, agent := 0x0200, time := 64, payload := [1, 0], merged := 7 }, [{ ring := 1, typ := 2, event := 0xFFFF, agent := 0, time := 0, payload := [] }], [], by decide +kernel⟩,
   ⟨mkS fun d =>
      { ((((((((d.setFld (HOST.RING_IRQ_COUNT 2) 5).setNum (HOST.RING_CTRL 2) 0x80000306).setFld HOST.LINK_STATUS_BME 1).setReg64 (HOST.RING_BASE 2) 0x5500001000).setNum (HOST.RING_HEAD 2) 66 |>.setNum (HOST.RING_TAIL 2) 3).setReg SUPPLY.DOM_STATUS_0 0xFFFFFFFF).setReg (SUPPLY.DOM_STATUS_0 + 4) 0xFFFFFFFF).setFld HOST.LINK_STATUS_STATE 2).setFld MEMCTL.SRAM_STATUS_READY 255 with tapIr := 0, hostQ := [{ ring := 1, typ := 2, event := 0xFFFF, agent := 0, time := 0, payload := [] }, { ring := 2, typ := 1, event := 801, agent := 0x0200, time := 64, payload := [1, 0], merged := 7 }] }, 2, { ring := 2, typ := 1, event := 801, agent := 0x0200, time := 64, payload := [1, 0], merged := 7 }, [{ ring := 1, typ := 2, event := 0xFFFF, agent := 0, time := 0, payload := [] }], [], by decide +kernel⟩,
   ⟨mkS fun d =>
      { ((((((((d).setNum (HOST.RING_CTRL 2) 0x80000306).setFld HOST.LINK_STATUS_BME 1).setReg64 (HOST.RING_BASE 2) 0x5500001000).setNum (HOST.RING_HEAD 2) 66 |>.setNum (HOST.RING_TAIL 2) 2).setReg SUPPLY.DOM_STATUS_0 0xFFFFFFFF).setReg (SUPPLY.DOM_STATUS_0 + 4) 0xFFFFFFFF).setFld HOST.LINK_STATUS_STATE 2).setFld MEMCTL.SRAM_STATUS_READY 255 with tapIr := 0, hostQ := [{ ring := 1, typ := 2, event := 0xFFFF, agent := 0, time := 0, payload := [] }, { ring := 2, typ := 1, event := 801, agent := 0x0200, time := 64, payload := [1, 0], merged := 7 }] }, 2, by decide +kernel⟩,
   ⟨mkS fun d =>
      { ((((((((d).setNum (HOST.RING_CTRL 2) 0x80000306).setFld HOST.LINK_STATUS_BME 1).setReg64 (HOST.RING_BASE 2) 0x5500001000).setNum (HOST.RING_HEAD 2) 66 |>.setNum (HOST.RING_TAIL 2) 3).setReg SUPPLY.DOM_STATUS_0 0xFFFFFFFF).setReg (SUPPLY.DOM_STATUS_0 + 4) 0xFFFFFFFF).setFld HOST.LINK_STATUS_STATE 2).setFld MEMCTL.SRAM_STATUS_READY 255 with tapIr := 0, hostQ := [{ ring := 1, typ := 2, event := 0xFFFF, agent := 0, time := 0, payload := [] }, { ring := 2, typ := 1, event := 801, agent := 0x0200, time := 64, payload := [1, 0], merged := 7 }], ringIrqs := [(2, { count := 3, since := 64 })], time := { milepost := 64064 } }, 2, by decide +kernel⟩,
   ⟨mkS fun d =>
      { ((((((((d).setNum (HOST.RING_CTRL 2) 0x80000306).setFld HOST.LINK_STATUS_BME 1).setReg64 (HOST.RING_BASE 2) 0x5500001000).setNum (HOST.RING_HEAD 2) 66 |>.setNum (HOST.RING_TAIL 2) 3).setReg SUPPLY.DOM_STATUS_0 0xFFFFFFFF).setReg (SUPPLY.DOM_STATUS_0 + 4) 0xFFFFFFFF).setFld HOST.LINK_STATUS_STATE 2).setFld MEMCTL.SRAM_STATUS_READY 255 with tapIr := 0, hostQ := [{ ring := 1, typ := 2, event := 0xFFFF, agent := 0, time := 0, payload := [] }, { ring := 2, typ := 1, event := 801, agent := 0x0200, time := 64, payload := [1, 0], merged := 7 }], ringIrqs := [(2, { count := 3, since := 64 })], time := { milepost := 64000 } }, 2, by decide +kernel⟩,
   ⟨mkS fun d =>
      { ((((((((d).setNum (HOST.RING_CTRL 2) 0x80000306).setFld HOST.LINK_STATUS_BME 1).setReg64 (HOST.RING_BASE 2) 0x5500001000).setNum (HOST.RING_HEAD 2) 66 |>.setNum (HOST.RING_TAIL 2) 3).setReg SUPPLY.DOM_STATUS_0 0xFFFFFFFF).setReg (SUPPLY.DOM_STATUS_0 + 4) 0xFFFFFFFF).setFld HOST.LINK_STATUS_STATE 2).setFld MEMCTL.SRAM_STATUS_READY 255 with tapIr := 0, hostQ := [{ ring := 1, typ := 2, event := 0xFFFF, agent := 0, time := 0, payload := [] }, { ring := 2, typ := 1, event := 801, agent := 0x0200, time := 64, payload := [1, 0], merged := 7 }] }, .loader, 2, 66, by decide +kernel⟩⟩

/-- The hypotheses of clauses 25 to 29 of HostInterface are met. -/
theorem witness_HostInterface_25 :
    (∃ (s : State) (a : Agent) (r : Fin 8) (v : Word), s.dev.takes a.id (HOST.RING_CTRL r) v = true ∧ wordBit v 31 = true ∧
      s.dev.flag (HOST.RING_CTRL_EN r) = false) ∧
    (∃ (s : State) (sc : Sched), s.dev.telSched = some sc ∧ s.dev.due sc.target = true ∧
      before (floorNs sc.target) (maxT (floorNs sc.target) (floorNs s.dev.now)) = false ∧
      (sc.advance (s.dev.fld HOST.TEL_SCHED_CATCHUP) (s.dev.fld HOST.TEL_SCHED_BEHIND) (maxT (floorNs sc.target) (floorNs s.dev.now))).2 = false ∧
      s.dev.flag (HOST.RING_CTRL_EN (s.dev.fld HOST.TEL_CTRL_RING)) = true ∧
      s.dev.hostQ.length + ((List.range 64).filter fun n => s.dev.flag (HOST.TEL_LIST_VALID n)).length ≤ 2048 ∧
      s.dev.reg (HOST.RING_STATUS (s.dev.fld HOST.TEL_CTRL_RING)) = 0 ∧
      (((List.range 64).filter fun n => s.dev.flag (HOST.TEL_LIST_VALID n)).all fun n => decide ((s.dev.fld (HOST.TEL_LIST_BLOCK n) * 0x10000 + s.dev.fld (HOST.TEL_LIST_OFFSET n)) ≠ HOST.QUEUE)) = true) ∧
    (∃ (s : State) (sc : Sched), s.dev.telSched = some sc ∧ s.dev.due sc.target = true ∧
      before (floorNs sc.target) (maxT (floorNs sc.target) (floorNs s.dev.now)) = true ∧
      (sc.advance (s.dev.fld HOST.TEL_SCHED_CATCHUP) (s.dev.fld HOST.TEL_SCHED_BEHIND) (maxT (floorNs sc.target) (floorNs s.dev.now))).2 = false ∧
      s.dev.flag (HOST.RING_CTRL_EN (s.dev.fld HOST.TEL_CTRL_RING)) = true ∧
      s.dev.hostQ.length + ((List.range 64).filter fun n => s.dev.flag (HOST.TEL_LIST_VALID n)).length ≤ 2048 ∧
      s.dev.reg (HOST.RING_STATUS (s.dev.fld HOST.TEL_CTRL_RING)) = 0 ∧
      (((List.range 64).filter fun n => s.dev.flag (HOST.TEL_LIST_VALID n)).all fun n => decide ((s.dev.fld (HOST.TEL_LIST_BLOCK n) * 0x10000 + s.dev.fld (HOST.TEL_LIST_OFFSET n)) ≠ HOST.QUEUE)) = true) ∧
    (∃ (s : State) (sc : Sched), s.dev.telSched = some sc ∧ s.dev.due sc.target = true ∧
      before (floorNs sc.target) (maxT (floorNs sc.target) (floorNs s.dev.now)) = true ∧
      (sc.advance (s.dev.fld HOST.TEL_SCHED_CATCHUP) (s.dev.fld HOST.TEL_SCHED_BEHIND) (maxT (floorNs sc.target) (floorNs s.dev.now))).2 = true ∧
      s.dev.flag (HOST.RING_CTRL_EN (s.dev.fld HOST.TEL_CTRL_RING)) = true ∧
      s.dev.hostQ.length + ((List.range 64).filter fun n => s.dev.flag (HOST.TEL_LIST_VALID n)).length ≤ 2048 ∧
      s.dev.reg (HOST.RING_STATUS (s.dev.fld HOST.TEL_CTRL_RING)) = 0 ∧
      (((List.range 64).filter fun n => s.dev.flag (HOST.TEL_LIST_VALID n)).all fun n => decide ((s.dev.fld (HOST.TEL_LIST_BLOCK n) * 0x10000 + s.dev.fld (HOST.TEL_LIST_OFFSET n)) ≠ HOST.QUEUE)) = true) ∧
    (∃ (s : State), (s.dev.telSched.all fun sc => !s.dev.due sc.target) = true) :=
  ⟨⟨mkS fun d =>
      { ((((((((d).setNum (HOST.RING_CTRL 2) 0x00000306).setFld HOST.LINK_STATUS_BME 1).setReg64 (HOST.RING_BASE 2) 0x5500001000).setNum (HOST.RING_HEAD 2) 66 |>.setNum (HOST.RING_TAIL 2) 3).setReg SUPPLY.DOM_STATUS_0 0xFFFFFFFF).setReg (SUPPLY.DOM_STATUS_0 + 4) 0xFFFFFFFF).setFld HOST.LINK_STATUS_STATE 2).setFld MEMCTL.SRAM_STATUS_READY 255 with tapIr := 0, hostQ := [{ ring := 1, typ := 2, event := 0xFFFF, agent := 0, time := 0, payload := [] }, { ring := 2, typ := 1, event := 801, agent := 0x0200, time := 64, payload := [1, 0], merged := 7 }] }, .loader, 2, 0x80000306, by decide +kernel⟩,
   ⟨mkS fun d =>
      { ((((((((d).setNum (HOST.TEL_LIST 3) 0x80030010).setNum (HOST.TEL_LIST 9) 0x80020000).setFld (HOST.RING_CTRL_EN 2) 1).setFld HOST.TEL_CTRL_RING 2).setReg SUPPLY.DOM_STATUS_0 0xFFFFFFFF).setReg (SUPPLY.DOM_STATUS_0 + 4) 0xFFFFFFFF).setFld HOST.LINK_STATUS_STATE 2).setFld MEMCTL.SRAM_STATUS_READY 255 with tapIr := 0, telSched := some { t0 := 0, p := 640000, k := 1, target := 640000 }, time := { milepost := 640000 } }, { t0 := 0, p := 640000, k := 1, target := 640000 }, by decide +kernel⟩,
   ⟨mkS fun d =>
      { ((((((((d).setNum (HOST.TEL_LIST 3) 0x80030010).setNum (HOST.TEL_LIST 9) 0x80020000).setFld (HOST.RING_CTRL_EN 2) 1).setFld HOST.TEL_CTRL_RING 2).setReg SUPPLY.DOM_STATUS_0 0xFFFFFFFF).setReg (SUPPLY.DOM_STATUS_0 + 4) 0xFFFFFFFF).setFld HOST.LINK_STATUS_STATE 2).setFld MEMCTL.SRAM_STATUS_READY 255 with tapIr := 0, telSched := some { t0 := 0, p := 640000, k := 1, target := 640000 }, time := { milepost := 700000 } }, { t0 := 0, p := 640000, k := 1, target := 640000 }, by decide +kernel⟩,
   ⟨mkS fun d =>
      { ((((((((d.setFld HOST.TEL_SCHED_BEHIND 1).setNum (HOST.TEL_LIST 3) 0x80030010).setNum (HOST.TEL_LIST 9) 0x80020000).setFld (HOST.RING_CTRL_EN 2) 1).setFld HOST.TEL_CTRL_RING 2).setReg SUPPLY.DOM_STATUS_0 0xFFFFFFFF).setReg (SUPPLY.DOM_STATUS_0 + 4) 0xFFFFFFFF).setFld HOST.LINK_STATUS_STATE 2).setFld MEMCTL.SRAM_STATUS_READY 255 with tapIr := 0, telSched := some { t0 := 0, p := 640000, k := 1, target := 640000 }, time := { milepost := 6400000000 } }, { t0 := 0, p := 640000, k := 1, target := 640000 }, by decide +kernel⟩,
   ⟨mkS fun d =>
      { ((((((((d).setNum (HOST.TEL_LIST 3) 0x80030010).setNum (HOST.TEL_LIST 9) 0x80020000).setFld (HOST.RING_CTRL_EN 2) 1).setFld HOST.TEL_CTRL_RING 2).setReg SUPPLY.DOM_STATUS_0 0xFFFFFFFF).setReg (SUPPLY.DOM_STATUS_0 + 4) 0xFFFFFFFF).setFld HOST.LINK_STATUS_STATE 2).setFld MEMCTL.SRAM_STATUS_READY 255 with tapIr := 0, telSched := some { t0 := 0, p := 640000, k := 1, target := 640000 }, time := { milepost := 600000 } }, by decide +kernel⟩⟩

/-- The hypotheses of clauses 1 to 12 of TieLink are met. -/
theorem witness_TieLink_1 :
    (∃ (s : State), s.dev.tieOn = true ∧ s.dev.due s.dev.tie.echoAt = true) ∧
    (∃ (s : State), (s.dev.tieOn && s.dev.due s.dev.tie.echoAt) = false) ∧
    (∃ (s : State), s.dev.tieOn = true ∧ s.dev.fld TIE.TIE_CFG_MASTER = s.dev.tiePos ∧ s.dev.due s.dev.tie.syncAt = true) ∧
    (∃ (s : State), s.dev.tieOn = true ∧ (s.dev.fld TIE.TIE_CFG_MASTER ≠ s.dev.tiePos ∨ s.dev.due s.dev.tie.syncAt = false)) ∧
    (∃ (s : State) (lane : Fin 2) (dep res : DWord), s.dev.tieOn = false) ∧
    (∃ (s : State) (lane : Fin 2) (dep res : DWord), s.dev.tieOn = true) ∧
    (∃ (s : State) (lane : Fin 2) (off : Fin 64) (res : DWord), s.dev.tieOn = false) ∧
    (∃ (s : State) (lane : Fin 2) (off : Fin 64) (res : DWord), s.dev.tieOn = true) ∧
    (∃ (s : State) (off : Fin 64) (sp co res : DWord), s.dev.tieOn = false) ∧
    (∃ (s : State) (off : Fin 64) (sp co res : DWord), s.dev.tieOn = true) ∧
    (∃ (s : State) (lane : Fin 2) (g : Fin 16) (base at_ : DWord) (seq : Nat), s.dev.tieOn = false) ∧
    (∃ (s : State) (lane : Fin 2) (g : Fin 16) (base at_ : DWord) (seq : Nat), s.dev.tieOn = true) :=
  ⟨⟨mkS fun d =>
      { ((((((d).setReg (SUPPLY.DOM_STATUS_0 + 4) 0xFFFFFFFF).setFld MEMCTL.SRAM_STATUS_READY 255).setFld TIE.TIE_CFG_ENABLE 1).setFld TIE.TIE_CFG_N 3).setFld TIE.TIE_CFG_POS 1).setFld TIE.TIE_CFG_MASTER 0 with tie := { echoAt := 6400 }, time := { milepost := 6400 } }, by decide +kernel⟩,
   ⟨mkS fun d =>
      { ((((((d).setReg (SUPPLY.DOM_STATUS_0 + 4) 0xFFFFFFFF).setFld MEMCTL.SRAM_STATUS_READY 255).setFld TIE.TIE_CFG_ENABLE 1).setFld TIE.TIE_CFG_N 3).setFld TIE.TIE_CFG_POS 1).setFld TIE.TIE_CFG_MASTER 0 with tie := { echoAt := 64000 }, time := { milepost := 6400 } }, by decide +kernel⟩,
   ⟨mkS fun d =>
      { ((((((d).setReg (SUPPLY.DOM_STATUS_0 + 4) 0xFFFFFFFF).setFld MEMCTL.SRAM_STATUS_READY 255).setFld TIE.TIE_CFG_ENABLE 1).setFld TIE.TIE_CFG_N 3).setFld TIE.TIE_CFG_POS 1).setFld TIE.TIE_CFG_MASTER 1 with tie := { syncAt := 6400, delay := -5 }, time := { milepost := 6400 } }, by decide +kernel⟩,
   ⟨mkS fun d =>
      { ((((((d).setReg (SUPPLY.DOM_STATUS_0 + 4) 0xFFFFFFFF).setFld MEMCTL.SRAM_STATUS_READY 255).setFld TIE.TIE_CFG_ENABLE 1).setFld TIE.TIE_CFG_N 3).setFld TIE.TIE_CFG_POS 1).setFld TIE.TIE_CFG_MASTER 1 with tie := { syncAt := 64000 }, time := { milepost := 6400 } }, by decide +kernel⟩,
   ⟨mkS fun d => d, 0, 128, 64, by decide +kernel⟩,
   ⟨mkS fun d =>
      { ((((((d).setReg (SUPPLY.DOM_STATUS_0 + 4) 0xFFFFFFFF).setFld MEMCTL.SRAM_STATUS_READY 255).setFld TIE.TIE_CFG_ENABLE 1).setFld TIE.TIE_CFG_N 3).setFld TIE.TIE_CFG_POS 1).setFld TIE.TIE_CFG_MASTER 0 with tie := { hop1 := { good := 9 }, hop0 := { good := 8 } }, time := { milepost := 6400 } }, 0, 128, 64, by decide +kernel⟩,
   ⟨mkS fun d => d, 1, 16, 64, by decide +kernel⟩,
   ⟨mkS fun d =>
      { ((((((d).setReg (SUPPLY.DOM_STATUS_0 + 4) 0xFFFFFFFF).setFld MEMCTL.SRAM_STATUS_READY 255).setFld TIE.TIE_CFG_ENABLE 1).setFld TIE.TIE_CFG_N 3).setFld TIE.TIE_CFG_POS 1).setFld TIE.TIE_CFG_MASTER 0 with tie := { hop1 := { good := 9 }, hop0 := { good := 8 } }, time := { milepost := 6400 } }, 1, 16, 64, by decide +kernel⟩,
   ⟨mkS fun d => d, 16, 6000, 64, 64, by decide +kernel⟩,
   ⟨mkS fun d =>
      { ((((((d).setReg (SUPPLY.DOM_STATUS_0 + 4) 0xFFFFFFFF).setFld MEMCTL.SRAM_STATUS_READY 255).setFld TIE.TIE_CFG_ENABLE 1).setFld TIE.TIE_CFG_N 3).setFld TIE.TIE_CFG_POS 1).setFld TIE.TIE_CFG_MASTER 0 with tie := { hop1 := { good := 9 }, hop0 := { good := 8 } }, time := { milepost := 6400 } }, 16, 6000, 64, 64, by decide +kernel⟩,
   ⟨mkS fun d => d, 0, 3, 640, 6400000, 4, by decide +kernel⟩,
   ⟨mkS fun d =>
      { ((((((d).setReg (SUPPLY.DOM_STATUS_0 + 4) 0xFFFFFFFF).setFld MEMCTL.SRAM_STATUS_READY 255).setFld TIE.TIE_CFG_ENABLE 1).setFld TIE.TIE_CFG_N 3).setFld TIE.TIE_CFG_POS 1).setFld TIE.TIE_CFG_MASTER 0 with tie := { hop1 := { good := 9 }, hop0 := { good := 8 } }, time := { milepost := 6400 } }, 0, 3, 640, 6400000, 4, by decide +kernel⟩⟩

/-- The hypotheses of clauses 13 to 24 of TieLink are met. -/
theorem witness_TieLink_13 :
    (∃ (s : State) (lane : Fin 2) (p : Fin 4) (j : Fin 32) (seq : Nat), s.dev.tieOn = false) ∧
    (∃ (s : State) (lane : Fin 2) (p : Fin 4) (j : Fin 32) (seq : Nat), s.dev.tieOn = true) ∧
    (∃ (s : State) (lane : Fin 2) (p : Fin 4) (ad da : Word) (wr : Bool) (seq : Nat), s.dev.tieOn = false) ∧
    (∃ (s : State) (lane : Fin 2) (p : Fin 4) (ad da : Word) (wr : Bool) (seq : Nat), s.dev.tieOn = true) ∧
    (∃ (s : State) (lane : Fin 2) (p : Fin 4) (da : Word) (rs : Fin 3) (cs : Fin 16) (seq : Nat), s.dev.tieOn = false) ∧
    (∃ (s : State) (lane : Fin 2) (p : Fin 4) (da : Word) (rs : Fin 3) (cs : Fin 16) (seq : Nat), s.dev.tieOn = true) ∧
    (∃ (s : State) (lane : Fin 2) (p : Fin 4) (seq : Nat), s.dev.tieOn = false) ∧
    (∃ (s : State) (lane : Fin 2) (p : Fin 4) (seq : Nat), s.dev.tieOn = true) ∧
    (∃ (s : State) (lane : Fin 2) (dep res : DWord), s.dev.tieOn = true) ∧
    (∃ (s : State) (lane : Fin 2) (off : Fin 64) (res : DWord), s.dev.tieOn = true ∧ lane = 0) ∧
    (∃ (s : State) (lane : Fin 2) (off : Fin 64) (res : DWord), s.dev.tieOn = true ∧ lane = 1 ∧ s.dev.tie.echo0 = none) ∧
    (∃ (s : State) (lane : Fin 2) (off : Fin 64) (res : DWord) (t1 : Time), s.dev.tieOn = true ∧ lane = 1 ∧ s.dev.tie.echo0 = some t1) :=
  ⟨⟨mkS fun d => d, 0, 2, 31, 4, by decide +kernel⟩,
   ⟨mkS fun d =>
      { ((((((d).setReg (SUPPLY.DOM_STATUS_0 + 4) 0xFFFFFFFF).setFld MEMCTL.SRAM_STATUS_READY 255).setFld TIE.TIE_CFG_ENABLE 1).setFld TIE.TIE_CFG_N 3).setFld TIE.TIE_CFG_POS 1).setFld TIE.TIE_CFG_MASTER 0 with tie := { hop1 := { good := 9 }, hop0 := { good := 8 } }, time := { milepost := 6400 } }, 0, 2, 31, 4, by decide +kernel⟩,
   ⟨mkS fun d => d, 0, 2, 0x10000000, 5, true, 4, by decide +kernel⟩,
   ⟨mkS fun d =>
      { ((((((d).setReg (SUPPLY.DOM_STATUS_0 + 4) 0xFFFFFFFF).setFld MEMCTL.SRAM_STATUS_READY 255).setFld TIE.TIE_CFG_ENABLE 1).setFld TIE.TIE_CFG_N 3).setFld TIE.TIE_CFG_POS 1).setFld TIE.TIE_CFG_MASTER 0 with tie := { hop1 := { good := 9 }, hop0 := { good := 8 } }, time := { milepost := 6400 } }, 0, 2, 0x10000000, 5, true, 4, by decide +kernel⟩,
   ⟨mkS fun d => d, 0, 2, 5, 1, 3, 4, by decide +kernel⟩,
   ⟨mkS fun d =>
      { ((((((d).setReg (SUPPLY.DOM_STATUS_0 + 4) 0xFFFFFFFF).setFld MEMCTL.SRAM_STATUS_READY 255).setFld TIE.TIE_CFG_ENABLE 1).setFld TIE.TIE_CFG_N 3).setFld TIE.TIE_CFG_POS 1).setFld TIE.TIE_CFG_MASTER 0 with tie := { hop1 := { good := 9 }, hop0 := { good := 8 } }, time := { milepost := 6400 } }, 0, 2, 5, 1, 3, 4, by decide +kernel⟩,
   ⟨mkS fun d => d, 0, 2, 4, by decide +kernel⟩,
   ⟨mkS fun d =>
      { ((((((d).setReg (SUPPLY.DOM_STATUS_0 + 4) 0xFFFFFFFF).setFld MEMCTL.SRAM_STATUS_READY 255).setFld TIE.TIE_CFG_ENABLE 1).setFld TIE.TIE_CFG_N 3).setFld TIE.TIE_CFG_POS 1).setFld TIE.TIE_CFG_MASTER 0 with tie := { hop1 := { good := 9 }, hop0 := { good := 8 } }, time := { milepost := 6400 } }, 0, 2, 4, by decide +kernel⟩,
   ⟨mkS fun d =>
      { ((((((d).setReg (SUPPLY.DOM_STATUS_0 + 4) 0xFFFFFFFF).setFld MEMCTL.SRAM_STATUS_READY 255).setFld TIE.TIE_CFG_ENABLE 1).setFld TIE.TIE_CFG_N 3).setFld TIE.TIE_CFG_POS 1).setFld TIE.TIE_CFG_MASTER 0 with tie := { hop1 := { good := 63 } }, time := { milepost := 6400 } }, 0, 128, 64, by decide +kernel⟩,
   ⟨mkS fun d =>
      { ((((((d).setReg (SUPPLY.DOM_STATUS_0 + 4) 0xFFFFFFFF).setFld MEMCTL.SRAM_STATUS_READY 255).setFld TIE.TIE_CFG_ENABLE 1).setFld TIE.TIE_CFG_N 3).setFld TIE.TIE_CFG_POS 1).setFld TIE.TIE_CFG_MASTER 0 with tie := { seq := 7 }, time := { milepost := 6400 } }, 0, 16, 64, by decide +kernel⟩,
   ⟨mkS fun d =>
      { ((((((d).setReg (SUPPLY.DOM_STATUS_0 + 4) 0xFFFFFFFF).setFld MEMCTL.SRAM_STATUS_READY 255).setFld TIE.TIE_CFG_ENABLE 1).setFld TIE.TIE_CFG_N 3).setFld TIE.TIE_CFG_POS 1).setFld TIE.TIE_CFG_MASTER 0 with tie := { seq := 7 }, time := { milepost := 6400 } }, 1, 16, 64, by decide +kernel⟩,
   ⟨mkS fun d =>
      { ((((((d).setReg (SUPPLY.DOM_STATUS_0 + 4) 0xFFFFFFFF).setFld MEMCTL.SRAM_STATUS_READY 255).setFld TIE.TIE_CFG_ENABLE 1).setFld TIE.TIE_CFG_N 3).setFld TIE.TIE_CFG_POS 1).setFld TIE.TIE_CFG_MASTER 0 with tie := { echo0 := some 128 }, time := { milepost := 6400 } }, 1, 16, 64, 128, by decide +kernel⟩⟩

/-- The hypotheses of clauses 25 to 36 of TieLink are met. -/
theorem witness_TieLink_25 :
    (∃ (s : State) (off : Fin 64) (sp co res : DWord), s.dev.tieOn = true ∧ s.dev.fld TIE.TIE_CFG_MASTER = s.dev.tiePos) ∧
    (∃ (s : State) (off : Fin 64) (sp co res : DWord), s.dev.tieOn = true ∧ s.dev.fld TIE.TIE_CFG_MASTER ≠ s.dev.tiePos ∧
      s.dev.flag MILEPOST.MP_STATUS_SET_OPEN = true ∧ s.dev.tie.synced = false) ∧
    (∃ (s : State) (off : Fin 64) (sp co res : DWord), s.dev.tieOn = true ∧ s.dev.fld TIE.TIE_CFG_MASTER ≠ s.dev.tiePos ∧
      (s.dev.flag MILEPOST.MP_STATUS_SET_OPEN = false ∨ s.dev.tie.synced = true)) ∧
    (∃ (s : State) (lane : Fin 2) (g : Fin 16) (base at_ : DWord) (seq : Nat), s.dev.tieOn = true ∧
      (s.dev.tie.recvd.contains ((s.dev.fld TIE.TIE_CFG_MASTER), seq)) = true) ∧
    (∃ (s : State) (lane : Fin 2) (p : Fin 4) (j : Fin 32) (seq : Nat), s.dev.tieOn = true ∧ (s.dev.tie.recvd.contains (p.val, seq)) = true) ∧
    (∃ (s : State) (lane : Fin 2) (p : Fin 4) (ad da : Word) (wr : Bool) (seq : Nat), s.dev.tieOn = true ∧
      (s.dev.tie.recvd.contains (p.val, seq)) = true) ∧
    (∃ (s : State) (lane : Fin 2) (p : Fin 4) (da : Word) (rs : Fin 3) (cs : Fin 16) (seq : Nat), s.dev.tieOn = true ∧
      (s.dev.tie.recvd.contains (p.val, seq)) = true) ∧
    (∃ (s : State) (lane : Fin 2) (p : Fin 4) (j : Fin 32) (seq : Nat), s.dev.tieOn = true ∧ (s.dev.tie.recvd.contains (p.val, seq)) = false) ∧
    (∃ (s : State) (lane : Fin 2) (g : Fin 16) (base at_ : DWord) (seq : Nat), s.dev.tieOn = true ∧
      (s.dev.tie.recvd.contains ((s.dev.fld TIE.TIE_CFG_MASTER), seq)) = false ∧ s.dev.fld TIE.TIE_CFG_MASTER = s.dev.tiePos) ∧
    (∃ (s : State) (lane : Fin 2) (g : Fin 16) (base at_ : DWord) (seq : Nat), s.dev.tieOn = true ∧
      s.dev.fld TIE.TIE_CFG_MASTER ≠ s.dev.tiePos ∧ (s.dev.tie.recvd.contains ((s.dev.fld TIE.TIE_CFG_MASTER), seq)) = false ∧
      s.dev.grp 0x800 = {} ∧ s.dev.due at_ = false ∧ before at_ s.dev.now = false) ∧
    (∃ (s : State) (lane : Fin 2) (g : Fin 16) (base at_ : DWord) (seq : Nat), s.dev.tieOn = true ∧
      s.dev.fld TIE.TIE_CFG_MASTER ≠ s.dev.tiePos ∧ (s.dev.tie.recvd.contains ((s.dev.fld TIE.TIE_CFG_MASTER), seq)) = false ∧
      s.dev.grp 0x800 = {} ∧ before at_ s.dev.now = true ∧ s.dev.lgDram = false ∧ s.dev.planT0 = [] ∧
      ((List.range 48).all fun t => !s.dev.flag (TIE.TIMER_PLAN_VALID t)) = true) ∧
    (∃ (s : State) (lane : Fin 2) (p : Fin 4) (ad da : Word) (wr : Bool) (seq : Nat), s.dev.tieOn = true ∧
      (s.dev.tie.recvd.contains (p.val, seq)) = false ∧ wr = false ∧ (0x10000000 ≤ ad.toNat ∧ ad.toNat < 0x10800000 ∧ ad.toNat % 4 = 0) ∧
      (s.dev.memMapped ad.toNat 4 && s.dev.memOpen (0x0700 + BitVec.ofNat 16 p.val) ad.toNat 4 false) = true ∧ s.dev.ecc = []) :=
  ⟨⟨mkS fun d =>
      { ((((((d).setReg (SUPPLY.DOM_STATUS_0 + 4) 0xFFFFFFFF).setFld MEMCTL.SRAM_STATUS_READY 255).setFld TIE.TIE_CFG_ENABLE 1).setFld TIE.TIE_CFG_N 3).setFld TIE.TIE_CFG_POS 1).setFld TIE.TIE_CFG_MASTER 1 with tie := { seq := 7 }, time := { milepost := 6400 } }, 16, 6000, 64, 64, by decide +kernel⟩,
   ⟨mkS fun d =>
      { ((((((d.setFld MILEPOST.MP_STATUS_SET_OPEN 1).setReg (SUPPLY.DOM_STATUS_0 + 4) 0xFFFFFFFF).setFld MEMCTL.SRAM_STATUS_READY 255).setFld TIE.TIE_CFG_ENABLE 1).setFld TIE.TIE_CFG_N 3).setFld TIE.TIE_CFG_POS 1).setFld TIE.TIE_CFG_MASTER 0 with tie := { run := 15, hop1 := { good := 63 } }, time := { milepost := 6400 } }, 16, 6000, 64, 64, by decide +kernel⟩,
   ⟨mkS fun d =>
      { ((((((d.setFld TIE.TIE_ALIGN_TOL_PS 500).setReg (SUPPLY.DOM_STATUS_0 + 4) 0xFFFFFFFF).setFld MEMCTL.SRAM_STATUS_READY 255).setFld TIE.TIE_CFG_ENABLE 1).setFld TIE.TIE_CFG_N 3).setFld TIE.TIE_CFG_POS 1).setFld TIE.TIE_CFG_MASTER 0 with tie := { run := 15, hop1 := { good := 63 }, synced := true }, time := { milepost := 6400 } }, 16, 6368, 16, 64, by decide +kernel⟩,
   ⟨mkS fun d =>
      { ((((((d).setReg (SUPPLY.DOM_STATUS_0 + 4) 0xFFFFFFFF).setFld MEMCTL.SRAM_STATUS_READY 255).setFld TIE.TIE_CFG_ENABLE 1).setFld TIE.TIE_CFG_N 3).setFld TIE.TIE_CFG_POS 1).setFld TIE.TIE_CFG_MASTER 0 with tie := { recvd := [(9, 9), (0, 4)] }, time := { milepost := 6400 } }, 0, 3, 640, 6400000, 4, by decide +kernel⟩,
   ⟨mkS fun d =>
      { ((((((d).setReg (SUPPLY.DOM_STATUS_0 + 4) 0xFFFFFFFF).setFld MEMCTL.SRAM_STATUS_READY 255).setFld TIE.TIE_CFG_ENABLE 1).setFld TIE.TIE_CFG_N 3).setFld TIE.TIE_CFG_POS 1).setFld TIE.TIE_CFG_MASTER 0 with tie := { recvd := [(9, 9), (2, 4)] }, time := { milepost := 6400 } }, 0, 2, 31, 4, by decide +kernel⟩,
   ⟨mkS fun d =>
      { ((((((d).setReg (SUPPLY.DOM_STATUS_0 + 4) 0xFFFFFFFF).setFld MEMCTL.SRAM_STATUS_READY 255).setFld TIE.TIE_CFG_ENABLE 1).setFld TIE.TIE_CFG_N 3).setFld TIE.TIE_CFG_POS 1).setFld TIE.TIE_CFG_MASTER 0 with tie := { recvd := [(9, 9), (2, 4)] }, time := { milepost := 6400 } }, 0, 2, 0x10000000, 5, true, 4, by decide +kernel⟩,
   ⟨mkS fun d =>
      { ((((((d).setReg (SUPPLY.DOM_STATUS_0 + 4) 0xFFFFFFFF).setFld MEMCTL.SRAM_STATUS_READY 255).setFld TIE.TIE_CFG_ENABLE 1).setFld TIE.TIE_CFG_N 3).setFld TIE.TIE_CFG_POS 1).setFld TIE.TIE_CFG_MASTER 0 with tie := { recvd := [(9, 9), (2, 4)] }, time := { milepost := 6400 } }, 0, 2, 5, 1, 3, 4, by decide +kernel⟩,
   ⟨mkS fun d =>
      { ((((((d).setReg (SUPPLY.DOM_STATUS_0 + 4) 0xFFFFFFFF).setFld MEMCTL.SRAM_STATUS_READY 255).setFld TIE.TIE_CFG_ENABLE 1).setFld TIE.TIE_CFG_N 3).setFld TIE.TIE_CFG_POS 1).setFld TIE.TIE_CFG_MASTER 0 with tie := { seq := 7 }, time := { milepost := 6400 } }, 0, 2, 31, 4, by decide +kernel⟩,
   ⟨mkS fun d =>
      { ((((((d).setReg (SUPPLY.DOM_STATUS_0 + 4) 0xFFFFFFFF).setFld MEMCTL.SRAM_STATUS_READY 255).setFld TIE.TIE_CFG_ENABLE 1).setFld TIE.TIE_CFG_N 3).setFld TIE.TIE_CFG_POS 1).setFld TIE.TIE_CFG_MASTER 1 with tie := { seq := 7 }, time := { milepost := 6400 } }, 0, 3, 640, 6400000, 4, by decide +kernel⟩,
   ⟨mkS fun d =>
      { ((((((d).setReg (SUPPLY.DOM_STATUS_0 + 4) 0xFFFFFFFF).setFld MEMCTL.SRAM_STATUS_READY 255).setFld TIE.TIE_CFG_ENABLE 1).setFld TIE.TIE_CFG_N 3).setFld TIE.TIE_CFG_POS 1).setFld TIE.TIE_CFG_MASTER 0 with tie := { seq := 7 }, time := { milepost := 6400 } }, 0, 3, 640, 6400000, 4, by decide +kernel⟩,
   ⟨mkS fun d =>
      { ((((((d).setReg (SUPPLY.DOM_STATUS_0 + 4) 0xFFFFFFFF).setFld MEMCTL.SRAM_STATUS_READY 255).setFld TIE.TIE_CFG_ENABLE 1).setFld TIE.TIE_CFG_N 3).setFld TIE.TIE_CFG_POS 1).setFld TIE.TIE_CFG_MASTER 0 with tie := { seq := 7 }, time := { milepost := 6400 } }, 0, 3, 640, 64, 4, by decide +kernel⟩,
   ⟨mkS fun d =>
      { ((((((d).setReg (SUPPLY.DOM_STATUS_0 + 4) 0xFFFFFFFF).setFld MEMCTL.SRAM_STATUS_READY 255).setFld TIE.TIE_CFG_ENABLE 1).setFld TIE.TIE_CFG_N 3).setFld TIE.TIE_CFG_POS 1).setFld TIE.TIE_CFG_MASTER 0 with tie := { seq := 7 }, time := { milepost := 6400 }, mem := [(0x10000000, 3), (0x10000003, 9)] }, 0, 2, 0x10000000, 5, false, 4, by decide +kernel⟩⟩

/-- The hypotheses of clauses 37 to 48 of TieLink are met. -/
theorem witness_TieLink_37 :
    (∃ (s : State) (lane : Fin 2) (p : Fin 4) (ad da : Word) (seq : Nat), s.dev.tieOn = true ∧ (s.dev.tie.recvd.contains (p.val, seq)) = false ∧
      (0x10000000 ≤ ad.toNat ∧ ad.toNat < 0x10800000 ∧ ad.toNat % 4 = 0) ∧
      (s.dev.memMapped ad.toNat 4 && s.dev.memOpen (0x0700 + BitVec.ofNat 16 p.val) ad.toNat 4 true) = true ∧ s.dev.ecc = [] ∧
      s.dev.flag MEMCTL.ECC_FLIP_ARM = false ∧ s.dev.lgDram = false) ∧
    (∃ (s : State) (lane : Fin 2) (p : Fin 4) (ad da : Word) (wr : Bool) (seq : Nat), s.dev.tieOn = true ∧
      (s.dev.tie.recvd.contains (p.val, seq)) = false ∧ (decide (ad.toNat % 4 = 0) && (decide (0x10000000 ≤ ad.toNat ∧
      ad.toNat < 0x10800000) || decide (0x20000000 ≤ ad.toNat ∧ ad.toNat < 0x20080000) || decide (0x40000000 ≤ ad.toNat ∧
      ad.toNat < 0x41000000))) = false) ∧
    (∃ (s : State) (lane : Fin 2) (p : Fin 4) (ad da : Word) (wr : Bool) (seq : Nat), s.dev.tieOn = true ∧
      (s.dev.tie.recvd.contains (p.val, seq)) = false ∧ (0x10000000 ≤ ad.toNat ∧ ad.toNat < 0x10800000 ∧ ad.toNat % 4 = 0) ∧
      (s.dev.memMapped ad.toNat 4 && s.dev.memOpen (0x0700 + BitVec.ofNat 16 p.val) ad.toNat 4 wr) = false) ∧
    (∃ (s : State) (lane : Fin 2) (p : Fin 4) (da : Word) (rs : Fin 3) (cs : Fin 16) (seq : Nat), s.dev.tieOn = true ∧
      (s.dev.tie.recvd.contains (p.val, seq)) = false ∧ s.dev.flag TIE.RA_STATUS_BUSY = true ∧ s.dev.tie.raPeer = p.val) ∧
    (∃ (s : State) (lane : Fin 2) (p : Fin 4) (da : Word) (rs : Fin 3) (cs : Fin 16) (seq : Nat), s.dev.tieOn = true ∧
      (s.dev.tie.recvd.contains (p.val, seq)) = false ∧ (s.dev.flag TIE.RA_STATUS_BUSY = false ∨ s.dev.tie.raPeer ≠ p.val)) ∧
    (∃ (s : State), s.dev.flag TIE.RA_STATUS_BUSY = true ∧ s.dev.due (s.dev.tie.raSince + nsT 50000) = true) ∧
    (∃ (s : State), (s.dev.flag TIE.RA_STATUS_BUSY = false ∨ s.dev.due (s.dev.tie.raSince + nsT 50000) = false)) ∧
    (∃ (s : State) (a : Agent) (v : Word), s.dev.takes a.id TIE.RA_CTRL v = true ∧ wordBit v 31 = true ∧ wordBit v 4 = false) ∧
    (∃ (s : State) (a : Agent) (v : Word), s.dev.takes a.id TIE.RA_CTRL v = true ∧ wordBit v 31 = true ∧ wordBit v 4 = true) ∧
    (∃ (s : State) (lane : Fin 2) (p : Fin 4) (seq : Nat), s.dev.tieOn = true) ∧
    (∃ (s : State) (f : TieFrame) (l m : List TieFrame), s.dev.tie.unacked = l ++ f :: m ∧
      (l.all fun x => decide (x ≠ f) && !s.dev.due x.nextAt) = true ∧ s.dev.due f.nextAt = true ∧ (m.all fun x => decide (x ≠ f)) = true ∧
      f.sends ≤ 8) ∧
    (∃ (s : State) (f : TieFrame) (l m : List TieFrame), s.dev.tie.unacked = l ++ f :: m ∧
      (l.all fun x => decide (x ≠ f) && !s.dev.due x.nextAt) = true ∧ s.dev.due f.nextAt = true ∧ (m.all fun x => decide (x ≠ f)) = true ∧
      f.sends > 8) :=
  ⟨⟨mkS fun d =>
      { ((((((d).setReg (SUPPLY.DOM_STATUS_0 + 4) 0xFFFFFFFF).setFld MEMCTL.SRAM_STATUS_READY 255).setFld TIE.TIE_CFG_ENABLE 1).setFld TIE.TIE_CFG_N 3).setFld TIE.TIE_CFG_POS 1).setFld TIE.TIE_CFG_MASTER 0 with tie := { seq := 7 }, time := { milepost := 6400 } }, 0, 2, 0x10000000, 0x12345678, 4, by decide +kernel⟩,
   ⟨mkS fun d =>
      { ((((((d).setReg (SUPPLY.DOM_STATUS_0 + 4) 0xFFFFFFFF).setFld MEMCTL.SRAM_STATUS_READY 255).setFld TIE.TIE_CFG_ENABLE 1).setFld TIE.TIE_CFG_N 3).setFld TIE.TIE_CFG_POS 1).setFld TIE.TIE_CFG_MASTER 0 with tie := { seq := 7 }, time := { milepost := 6400 } }, 0, 2, 0x10000002, 5, true, 4, by decide +kernel⟩,
   ⟨mkS fun d =>
      { ((((((d).setReg (SUPPLY.DOM_STATUS_0 + 4) 0xFFFFFFFF).setFld MEMCTL.SRAM_STATUS_READY 0).setFld TIE.TIE_CFG_ENABLE 1).setFld TIE.TIE_CFG_N 3).setFld TIE.TIE_CFG_POS 1).setFld TIE.TIE_CFG_MASTER 0 with tie := { seq := 7 }, time := { milepost := 6400 } }, 0, 2, 0x10000000, 5, true, 4, by decide +kernel⟩,
   ⟨mkS fun d =>
      { ((((((d.setFld TIE.RA_STATUS_BUSY 1).setReg (SUPPLY.DOM_STATUS_0 + 4) 0xFFFFFFFF).setFld MEMCTL.SRAM_STATUS_READY 255).setFld TIE.TIE_CFG_ENABLE 1).setFld TIE.TIE_CFG_N 3).setFld TIE.TIE_CFG_POS 1).setFld TIE.TIE_CFG_MASTER 0 with tie := { raPeer := 2 }, time := { milepost := 6400 } }, 0, 2, 5, 1, 3, 4, by decide +kernel⟩,
   ⟨mkS fun d =>
      { ((((((d.setFld TIE.RA_STATUS_BUSY 1).setReg (SUPPLY.DOM_STATUS_0 + 4) 0xFFFFFFFF).setFld MEMCTL.SRAM_STATUS_READY 255).setFld TIE.TIE_CFG_ENABLE 1).setFld TIE.TIE_CFG_N 3).setFld TIE.TIE_CFG_POS 1).setFld TIE.TIE_CFG_MASTER 0 with tie := { raPeer := 0 }, time := { milepost := 6400 } }, 0, 2, 5, 1, 3, 4, by decide +kernel⟩,
   ⟨mkS fun d =>
      { ((((((d.setFld TIE.RA_STATUS_BUSY 1).setReg (SUPPLY.DOM_STATUS_0 + 4) 0xFFFFFFFF).setFld MEMCTL.SRAM_STATUS_READY 255).setFld TIE.TIE_CFG_ENABLE 1).setFld TIE.TIE_CFG_N 3).setFld TIE.TIE_CFG_POS 1).setFld TIE.TIE_CFG_MASTER 0 with tie := { seq := 7 }, time := { milepost := 3200000 } }, by decide +kernel⟩,
   ⟨mkS fun d =>
      { ((((((d.setFld TIE.RA_STATUS_BUSY 1).setReg (SUPPLY.DOM_STATUS_0 + 4) 0xFFFFFFFF).setFld MEMCTL.SRAM_STATUS_READY 255).setFld TIE.TIE_CFG_ENABLE 1).setFld TIE.TIE_CFG_N 3).setFld TIE.TIE_CFG_POS 1).setFld TIE.TIE_CFG_MASTER 0 with tie := { seq := 7 }, time := { milepost := 6400 } }, by decide +kernel⟩,
   ⟨mkS fun d =>
      { ((((((d).setReg (SUPPLY.DOM_STATUS_0 + 4) 0xFFFFFFFF).setFld MEMCTL.SRAM_STATUS_READY 255).setFld TIE.TIE_CFG_ENABLE 1).setFld TIE.TIE_CFG_N 3).setFld TIE.TIE_CFG_POS 1).setFld TIE.TIE_CFG_MASTER 0 with tie := { seq := 7 }, time := { milepost := 6400 } }, .loader, 0x80000002, by decide +kernel⟩,
   ⟨mkS fun d =>
      { ((((((d).setReg (SUPPLY.DOM_STATUS_0 + 4) 0xFFFFFFFF).setFld MEMCTL.SRAM_STATUS_READY 255).setFld TIE.TIE_CFG_ENABLE 1).setFld TIE.TIE_CFG_N 3).setFld TIE.TIE_CFG_POS 1).setFld TIE.TIE_CFG_MASTER 0 with tie := { seq := 7 }, time := { milepost := 6400 } }, .loader, 0x80000012, by decide +kernel⟩,
   ⟨mkS fun d =>
      { ((((((d).setReg (SUPPLY.DOM_STATUS_0 + 4) 0xFFFFFFFF).setFld MEMCTL.SRAM_STATUS_READY 255).setFld TIE.TIE_CFG_ENABLE 1).setFld TIE.TIE_CFG_N 3).setFld TIE.TIE_CFG_POS 1).setFld TIE.TIE_CFG_MASTER 0 with tie := { unacked := [{ seq := 4, typ := 5, peer := 2, body := [], nextAt := 64000 }, { seq := 5, typ := 5, peer := 2, body := [], nextAt := 64000 }] }, time := { milepost := 6400 } }, 0, 2, 4, by decide +kernel⟩,
   ⟨mkS fun d =>
      { ((((((d).setReg (SUPPLY.DOM_STATUS_0 + 4) 0xFFFFFFFF).setFld MEMCTL.SRAM_STATUS_READY 255).setFld TIE.TIE_CFG_ENABLE 1).setFld TIE.TIE_CFG_N 3).setFld TIE.TIE_CFG_POS 1).setFld TIE.TIE_CFG_MASTER 0 with tie := { unacked := [{ seq := 4, typ := 5, peer := 2, body := [1], nextAt := 64000, sends := 1 }, { seq := 4, typ := 5, peer := 2, body := [1], nextAt := 6400, sends := 8 }] }, time := { milepost := 6400 } }, { seq := 4, typ := 5, peer := 2, body := [1], nextAt := 6400, sends := 8 }, [{ seq := 4, typ := 5, peer := 2, body := [1], nextAt := 64000, sends := 1 }], [], by decide +kernel⟩,
   ⟨mkS fun d =>
      { ((((((d).setReg (SUPPLY.DOM_STATUS_0 + 4) 0xFFFFFFFF).setFld MEMCTL.SRAM_STATUS_READY 255).setFld TIE.TIE_CFG_ENABLE 1).setFld TIE.TIE_CFG_N 3).setFld TIE.TIE_CFG_POS 1).setFld TIE.TIE_CFG_MASTER 0 with tie := { unacked := [{ seq := 4, typ := 5, peer := 2, body := [1], nextAt := 64000, sends := 1 }, { seq := 4, typ := 5, peer := 2, body := [1], nextAt := 6400, sends := 9 }] }, time := { milepost := 6400 } }, { seq := 4, typ := 5, peer := 2, body := [1], nextAt := 6400, sends := 9 }, [{ seq := 4, typ := 5, peer := 2, body := [1], nextAt := 64000, sends := 1 }], [], by decide +kernel⟩⟩

/-- The hypotheses of clauses 49 to 54 of TieLink are met. -/
theorem witness_TieLink_49 :
    (∃ (s : State), (s.dev.tie.unacked.all fun x => !s.dev.due x.nextAt) = true) ∧
    (∃ (s : State), s.dev.tieOn = true ∧ s.dev.fld TIE.TIE_CFG_MASTER ≠ s.dev.tiePos ∧
      (s.dev.flag TIE.TIE_STATUS_MASTER_SEEN = true ∨ s.dev.flag TIE.TIE_STATUS_ALIGNED = true) ∧
      s.dev.due (s.dev.tie.lastSync + nsT (1000 * s.dev.fld TIE.TIE_ALIGN_LOSS_US)) = true) ∧
    (∃ (s : State), s.dev.due (s.dev.tie.lastSync + nsT (1000 * s.dev.fld TIE.TIE_ALIGN_LOSS_US)) = false) ∧
    (∃ (s : State) (h : Fin 2), s.dev.fld (hopFld h.val) ≠ 0 ∧
      s.dev.due ((if h.val = 0 then s.dev.tie.hop0 else s.dev.tie.hop1).last + nsT (1000 * s.dev.fld TIE.TIE_ALIGN_LOSS_US)) = true ∧
      ((List.range 4).all fun p => !(bitOf (s.dev.fld TIE.TIE_STATUS_PEERS) p && s.dev.due (Tab.get 0 p s.dev.tie.heard + nsT (1000 * s.dev.fld TIE.TIE_ALIGN_LOSS_US)))) = true) ∧
    (∃ (s : State) (h : Fin 2) (p : Fin 4), s.dev.fld (hopFld h.val) ≠ 0 ∧
      s.dev.due ((if h.val = 0 then s.dev.tie.hop0 else s.dev.tie.hop1).last + nsT (1000 * s.dev.fld TIE.TIE_ALIGN_LOSS_US)) = true ∧
      ((List.range 4).all fun k => (bitOf (s.dev.fld TIE.TIE_STATUS_PEERS) k && s.dev.due (Tab.get 0 k s.dev.tie.heard + nsT (1000 * s.dev.fld TIE.TIE_ALIGN_LOSS_US))) == decide (k = p.val)) = true ∧
      s.dev.holdsNone (0x0700 + BitVec.ofNat 16 p.val) = true ∧ s.dev.led.fresh = []) ∧
    (∃ (s : State) (h : Fin 2), s.dev.fld (hopFld h.val) = 0) :=
  ⟨⟨mkS fun d =>
      { ((((((d).setReg (SUPPLY.DOM_STATUS_0 + 4) 0xFFFFFFFF).setFld MEMCTL.SRAM_STATUS_READY 255).setFld TIE.TIE_CFG_ENABLE 1).setFld TIE.TIE_CFG_N 3).setFld TIE.TIE_CFG_POS 1).setFld TIE.TIE_CFG_MASTER 0 with tie := { unacked := [{ seq := 4, typ := 5, peer := 2, body := [1], nextAt := 64000, sends := 1 }] }, time := { milepost := 6400 } }, by decide +kernel⟩,
   ⟨mkS fun d =>
      { (((((((d.setFld TIE.TIE_STATUS_ALIGNED 1).setFld TIE.TIE_ALIGN_LOSS_US 1).setReg (SUPPLY.DOM_STATUS_0 + 4) 0xFFFFFFFF).setFld MEMCTL.SRAM_STATUS_READY 255).setFld TIE.TIE_CFG_ENABLE 1).setFld TIE.TIE_CFG_N 3).setFld TIE.TIE_CFG_POS 1).setFld TIE.TIE_CFG_MASTER 0 with tie := { run := 20 }, time := { milepost := 64000 } }, by decide +kernel⟩,
   ⟨mkS fun d =>
      { (((((((d.setFld TIE.TIE_STATUS_ALIGNED 1).setFld TIE.TIE_ALIGN_LOSS_US 1).setReg (SUPPLY.DOM_STATUS_0 + 4) 0xFFFFFFFF).setFld MEMCTL.SRAM_STATUS_READY 255).setFld TIE.TIE_CFG_ENABLE 1).setFld TIE.TIE_CFG_N 3).setFld TIE.TIE_CFG_POS 1).setFld TIE.TIE_CFG_MASTER 0 with tie := { run := 20 }, time := { milepost := 6400 } }, by decide +kernel⟩,
   ⟨mkS fun d =>
      { (((((((d.setFld TIE.TIE_STATUS_NEXT 2).setFld TIE.TIE_ALIGN_LOSS_US 1 |>.setFld TIE.TIE_STATUS_PEERS 1).setReg (SUPPLY.DOM_STATUS_0 + 4) 0xFFFFFFFF).setFld MEMCTL.SRAM_STATUS_READY 255).setFld TIE.TIE_CFG_ENABLE 1).setFld TIE.TIE_CFG_N 3).setFld TIE.TIE_CFG_POS 1).setFld TIE.TIE_CFG_MASTER 0 with tie := { hop0 := { good := 70 }, heard := [(0, 64000), (2, 0)] }, time := { milepost := 64000 } }, 0, by decide +kernel⟩,
   ⟨mkS fun d =>
      { (((((((d.setFld TIE.TIE_STATUS_NEXT 2).setFld TIE.TIE_ALIGN_LOSS_US 1 |>.setFld TIE.TIE_STATUS_PEERS 5).setReg (SUPPLY.DOM_STATUS_0 + 4) 0xFFFFFFFF).setFld MEMCTL.SRAM_STATUS_READY 255).setFld TIE.TIE_CFG_ENABLE 1).setFld TIE.TIE_CFG_N 3).setFld TIE.TIE_CFG_POS 1).setFld TIE.TIE_CFG_MASTER 0 with tie := { hop0 := { good := 70 }, heard := [(0, 64000), (2, 0)] }, time := { milepost := 64000 } }, 0, 2, by decide +kernel⟩,
   ⟨mkS fun d => d, 1, by decide +kernel⟩⟩

/-- The hypotheses of clauses 1 to 12 of DebugPort are met. -/
theorem witness_DebugPort_1 :
    (∃ (s : State) (a : Agent) (v : Word), s.dev.takes a.id DEBUG.DBG_CMD v = true ∧ wordBit v 31 = true ∧ wordBit v 0 = false ∧
      ((addr40 (s.dev.reg64 DEBUG.DBG_ADDR)) < 0x10800000 ∧ 0x10000000 ≤ (addr40 (s.dev.reg64 DEBUG.DBG_ADDR)) ∧
      (addr40 (s.dev.reg64 DEBUG.DBG_ADDR)) % (2 ^ bitsOf v.toNat 5 4) = 0) ∧
      (s.dev.memMapped (addr40 (s.dev.reg64 DEBUG.DBG_ADDR)) (2 ^ bitsOf v.toNat 5 4) && s.dev.memOpen 0x0500 (addr40 (s.dev.reg64 DEBUG.DBG_ADDR)) (2 ^ bitsOf v.toNat 5 4) false) = true ∧
      s.dev.ecc = []) ∧
    (∃ (s : State) (a : Agent) (v : Word), s.dev.takes a.id DEBUG.DBG_CMD v = true ∧ wordBit v 31 = true ∧ wordBit v 0 = false ∧
      (2 ^ bitsOf v.toNat 5 4) = 4 ∧ (addr40 (s.dev.reg64 DEBUG.DBG_ADDR)) = 0x40000000 + ID.IDCODE ∧ s.dev.blkLevel 0x0500 0x3F ≠ 0) ∧
    (∃ (s : State) (a : Agent) (v : Word), s.dev.takes a.id DEBUG.DBG_CMD v = true ∧ wordBit v 31 = true ∧ wordBit v 0 = false ∧
      ((0x10800000 ≤ (addr40 (s.dev.reg64 DEBUG.DBG_ADDR)) ∧
      (addr40 (s.dev.reg64 DEBUG.DBG_ADDR)) < 0x18000000) ∨ (0x50000000 ≤ (addr40 (s.dev.reg64 DEBUG.DBG_ADDR)) ∧
      (addr40 (s.dev.reg64 DEBUG.DBG_ADDR)) < 0x60000000))) ∧
    (∃ (s : State) (a : Agent) (v : Word), s.dev.takes a.id DEBUG.DBG_CMD v = true ∧ wordBit v 31 = true ∧ wordBit v 0 = true ∧
      ((0x10800000 ≤ (addr40 (s.dev.reg64 DEBUG.DBG_ADDR)) ∧
      (addr40 (s.dev.reg64 DEBUG.DBG_ADDR)) < 0x18000000) ∨ (0x50000000 ≤ (addr40 (s.dev.reg64 DEBUG.DBG_ADDR)) ∧
      (addr40 (s.dev.reg64 DEBUG.DBG_ADDR)) < 0x60000000))) ∧
    (∃ (s : State) (a : Agent) (v : Word), s.dev.takes a.id DEBUG.DBG_CMD v = true ∧ wordBit v 31 = true ∧ wordBit v 0 = false ∧
      (2 ^ bitsOf v.toNat 5 4) = 4 ∧ ((addr40 (s.dev.reg64 DEBUG.DBG_ADDR)) < 0xE0010000 ∧
      0xE0000000 ≤ (addr40 (s.dev.reg64 DEBUG.DBG_ADDR)) ∧ (addr40 (s.dev.reg64 DEBUG.DBG_ADDR)) % 4 = 0) ∧ s.dev.coreState s.dev.dbgCore = 4) ∧
    (∃ (s : State) (a : Agent) (v : Word), s.dev.takes a.id DEBUG.DBG_CMD v = true ∧ wordBit v 31 = true ∧ wordBit v 0 = true ∧
      (2 ^ bitsOf v.toNat 5 4) = 4 ∧ ((addr40 (s.dev.reg64 DEBUG.DBG_ADDR)) < 0xE0010000 ∧
      0xE0000000 ≤ (addr40 (s.dev.reg64 DEBUG.DBG_ADDR)) ∧ (addr40 (s.dev.reg64 DEBUG.DBG_ADDR)) % 4 = 0) ∧
      s.dev.coreState s.dev.dbgCore = 4 ∧ s.dev.lockstep s.dev.dbgCore = false) ∧
    (∃ (s : State) (a : Agent) (v : Word), s.dev.takes a.id DEBUG.DBG_CMD v = true ∧ wordBit v 31 = true ∧ wordBit v 0 = false ∧
      ((addr40 (s.dev.reg64 DEBUG.DBG_ADDR)) < 0xE0010000 ∧ 0xE0000000 ≤ (addr40 (s.dev.reg64 DEBUG.DBG_ADDR)) ∧
      (addr40 (s.dev.reg64 DEBUG.DBG_ADDR)) % 4 = 0) ∧ (s.dev.coreState s.dev.dbgCore ≠ 4 ∨ (2 ^ bitsOf v.toNat 5 4) ≠ 4)) ∧
    (∃ (s : State) (a : Agent) (v : Word), s.dev.takes a.id DEBUG.DBG_CMD v = true ∧ wordBit v 31 = true ∧ wordBit v 0 = true ∧
      ((addr40 (s.dev.reg64 DEBUG.DBG_ADDR)) < 0xE0010000 ∧ 0xE0000000 ≤ (addr40 (s.dev.reg64 DEBUG.DBG_ADDR)) ∧
      (addr40 (s.dev.reg64 DEBUG.DBG_ADDR)) % 4 = 0) ∧ (s.dev.coreState s.dev.dbgCore ≠ 4 ∨ (2 ^ bitsOf v.toNat 5 4) ≠ 4)) ∧
    (∃ (s : State) (a : Agent) (v : Word), s.dev.takes a.id DEBUG.DBG_CMD v = true ∧ wordBit v 31 = true ∧ wordBit v 0 = true ∧
      ((addr40 (s.dev.reg64 DEBUG.DBG_ADDR)) < 0x10800000 ∧ 0x10000000 ≤ (addr40 (s.dev.reg64 DEBUG.DBG_ADDR)) ∧
      (addr40 (s.dev.reg64 DEBUG.DBG_ADDR)) % (2 ^ bitsOf v.toNat 5 4) = 0) ∧
      (s.dev.memMapped (addr40 (s.dev.reg64 DEBUG.DBG_ADDR)) (2 ^ bitsOf v.toNat 5 4) && s.dev.memOpen 0x0500 (addr40 (s.dev.reg64 DEBUG.DBG_ADDR)) (2 ^ bitsOf v.toNat 5 4) true) = true ∧
      s.dev.ecc = [] ∧ s.dev.flag MEMCTL.ECC_FLIP_ARM = false ∧ s.dev.lgDram = false) ∧
    (∃ (s : State) (a : Agent) (v : Word), s.dev.takes a.id DEBUG.DBG_CORE v = true ∧ v.toNat % 8 = 1 ∧
      s.dev.lockstep (bitsOf v.toNat 5 4) = false ∧ s.dev.coreState (bitsOf v.toNat 5 4) = 2 ∧
      ((s.dev.core (bitsOf v.toNat 5 4)).req.isSome || (s.dev.core (bitsOf v.toNat 5 4)).parting || (s.dev.core (bitsOf v.toNat 5 4)).joinSince.isSome) = false) ∧
    (∃ (s : State) (a : Agent) (v : Word), s.dev.takes a.id DEBUG.DBG_CORE v = true ∧ v.toNat % 8 = 1 ∧
      s.dev.lockstep (bitsOf v.toNat 5 4) = false ∧ s.dev.coreState (bitsOf v.toNat 5 4) = 2 ∧
      ((s.dev.core (bitsOf v.toNat 5 4)).req.isSome || (s.dev.core (bitsOf v.toNat 5 4)).parting || (s.dev.core (bitsOf v.toNat 5 4)).joinSince.isSome) = true) ∧
    (∃ (s : State) (a : Agent) (v : Word), s.dev.takes a.id DEBUG.DBG_CORE v = true ∧ v.toNat % 8 = 1 ∧
      s.dev.lockstep (bitsOf v.toNat 5 4) = false ∧ s.dev.coreState (bitsOf v.toNat 5 4) = 3) :=
  ⟨⟨mkS fun d =>
      { (((d).setReg64 DEBUG.DBG_ADDR 0x10000000).setReg64 DEBUG.DBG_DATA 0x1122334455667788).setFld MEMCTL.SRAM_STATUS_READY 255 with mem := [(0x10000000, 3), (0x10000003, 9)] }, .loader, 0x80000020, by decide +kernel⟩,
   ⟨mkS fun d =>
      { (((d.setReg (PROTECT.BLK_PERM 0x3F) 0xFFFFFFFF).setReg64 DEBUG.DBG_ADDR (0x40000000 + BitVec.ofNat 64 ID.IDCODE)).setReg64 DEBUG.DBG_DATA 0x1122334455667788).setFld MEMCTL.SRAM_STATUS_READY 255 with mem := [(0x10000000, 3), (0x10000003, 9)] }, .loader, 0x80000020, by decide +kernel⟩,
   ⟨mkS fun d =>
      { (((d).setReg64 DEBUG.DBG_ADDR 0x50000000).setReg64 DEBUG.DBG_DATA 0x1122334455667788).setFld MEMCTL.SRAM_STATUS_READY 255 with mem := [(0x10000000, 3), (0x10000003, 9)] }, .loader, 0x80000010, by decide +kernel⟩,
   ⟨mkS fun d =>
      { (((d).setReg64 DEBUG.DBG_ADDR 0x50000000).setReg64 DEBUG.DBG_DATA 0x1122334455667788).setFld MEMCTL.SRAM_STATUS_READY 255 with mem := [(0x10000000, 3), (0x10000003, 9)] }, .loader, 0x80000011, by decide +kernel⟩,
   ⟨mkS fun d =>
      { ((({ ((d.setFld (CORES.CORE_STATUS_STATE 2) 4).putCore 2 { status := 7 }) with dbgCore := 2 }).setReg64 DEBUG.DBG_ADDR 0xE0000004).setReg64 DEBUG.DBG_DATA 0x1122334455667788).setFld MEMCTL.SRAM_STATUS_READY 255 with mem := [(0x10000000, 3), (0x10000003, 9)] }, .loader, 0x80000020, by decide +kernel⟩,
   ⟨mkS fun d =>
      { (((d.setFld (CORES.CORE_STATUS_STATE 0) 4).setReg64 DEBUG.DBG_ADDR 0xE0000004).setReg64 DEBUG.DBG_DATA 0x1122334455667788).setFld MEMCTL.SRAM_STATUS_READY 255 with mem := [(0x10000000, 3), (0x10000003, 9)] }, .loader, 0x80000021, by decide +kernel⟩,
   ⟨mkS fun d =>
      { (((d).setReg64 DEBUG.DBG_ADDR 0xE0000004).setReg64 DEBUG.DBG_DATA 0x1122334455667788).setFld MEMCTL.SRAM_STATUS_READY 255 with mem := [(0x10000000, 3), (0x10000003, 9)] }, .loader, 0x80000020, by decide +kernel⟩,
   ⟨mkS fun d =>
      { (((d).setReg64 DEBUG.DBG_ADDR 0xE0000004).setReg64 DEBUG.DBG_DATA 0x1122334455667788).setFld MEMCTL.SRAM_STATUS_READY 255 with mem := [(0x10000000, 3), (0x10000003, 9)] }, .loader, 0x80000021, by decide +kernel⟩,
   ⟨mkS fun d =>
      { (((d).setReg64 DEBUG.DBG_ADDR 0x10000008).setReg64 DEBUG.DBG_DATA 0x1122334455667788).setFld MEMCTL.SRAM_STATUS_READY 255 with mem := [(0x10000000, 3), (0x10000003, 9)] }, .loader, 0x80000031, by decide +kernel⟩,
   ⟨mkS fun d => d.setFld (CORES.CORE_STATUS_STATE 2) 2, .loader, 0x21, by decide +kernel⟩,
   ⟨mkS fun d => (d.setFld (CORES.CORE_STATUS_STATE 2) 2).putCore 2 { parting := true }, .loader, 0x21, by decide +kernel⟩,
   ⟨mkS fun d => d.setFld (CORES.CORE_STATUS_STATE 2) 3, .loader, 0x21, by decide +kernel⟩⟩

/-- The hypotheses of clauses 13 to 24 of DebugPort are met. -/
theorem witness_DebugPort_13 :
    (∃ (s : State) (a : Agent) (v : Word), s.dev.takes a.id DEBUG.DBG_CORE v = true ∧ v.toNat % 8 = 1 ∧
      s.dev.lockstep (bitsOf v.toNat 5 4) = false ∧ s.dev.coreState (bitsOf v.toNat 5 4) ≠ 2 ∧ s.dev.coreState (bitsOf v.toNat 5 4) ≠ 3) ∧
    (∃ (s : State) (a : Agent) (v : Word), s.dev.takes a.id DEBUG.DBG_CORE v = true ∧ v.toNat % 8 = 1 ∧
      s.dev.lockstep (2 * ((bitsOf v.toNat 5 4) / 2)) = true ∧ s.dev.lockstep (2 * ((bitsOf v.toNat 5 4) / 2) + 1) = true ∧
      (s.dev.core (2 * ((bitsOf v.toNat 5 4) / 2))).retired = (s.dev.core (2 * ((bitsOf v.toNat 5 4) / 2) + 1)).retired ∧
      s.dev.coreState (2 * ((bitsOf v.toNat 5 4) / 2)) = 2 ∧ s.dev.coreState (2 * ((bitsOf v.toNat 5 4) / 2) + 1) = 2 ∧
      ((s.dev.core (2 * ((bitsOf v.toNat 5 4) / 2))).req.isSome || (s.dev.core (2 * ((bitsOf v.toNat 5 4) / 2))).parting || (s.dev.core (2 * ((bitsOf v.toNat 5 4) / 2))).joinSince.isSome) = false ∧
      ((s.dev.core (2 * ((bitsOf v.toNat 5 4) / 2) + 1)).req.isSome || (s.dev.core (2 * ((bitsOf v.toNat 5 4) / 2) + 1)).parting || (s.dev.core (2 * ((bitsOf v.toNat 5 4) / 2) + 1)).joinSince.isSome) = false) ∧
    (∃ (s : State) (a : Agent) (v : Word), s.dev.takes a.id DEBUG.DBG_CORE v = true ∧ v.toNat % 8 = 2 ∧
      s.dev.lockstep (bitsOf v.toNat 5 4) = false ∧ s.dev.coreState (bitsOf v.toNat 5 4) = 4) ∧
    (∃ (s : State) (a : Agent) (v : Word), v.toNat % 8 = 2 ∧ s.dev.refuses a.id DEBUG.DBG_CORE v .state = true) ∧
    (∃ (s : State) (a : Agent) (v : Word), s.dev.takes a.id DEBUG.DBG_CORE v = true ∧ v.toNat % 8 = 3 ∧
      s.dev.lockstep (bitsOf v.toNat 5 4) = false ∧ s.dev.coreState (bitsOf v.toNat 5 4) = 4) ∧
    (∃ (s : State) (a : Agent) (v : Word), v.toNat % 8 = 3 ∧ s.dev.refuses a.id DEBUG.DBG_CORE v .state = true) ∧
    (∃ (s : State) (a : Agent) (v : Word), s.dev.takes a.id DEBUG.DBG_CORE v = true ∧ v.toNat % 8 = 3 ∧
      s.dev.lockstep (2 * ((bitsOf v.toNat 5 4) / 2)) = true ∧ s.dev.lockstep (2 * ((bitsOf v.toNat 5 4) / 2) + 1) = true ∧
      s.dev.coreState (2 * ((bitsOf v.toNat 5 4) / 2)) = 4 ∧ s.dev.coreState (2 * ((bitsOf v.toNat 5 4) / 2) + 1) = 4 ∧
      (s.dev.core (2 * ((bitsOf v.toNat 5 4) / 2))).asleep = false ∧ (s.dev.core (2 * ((bitsOf v.toNat 5 4) / 2) + 1)).asleep = false) ∧
    (∃ (s : State), s.dev.domReady 58 = true) ∧
    (∃ (s : State), s.dev.domReady 58 = true) ∧
    (∃ (s : State), s.dev.domReady 58 = true) ∧
    (∃ (s : State) (p : Fin 160) (l : Fin 4), s.dev.domReady 58 = true) ∧
    (∃ (s : State) (p : Fin 160) (l : Fin 4), s.dev.domReady 58 = true) :=
  ⟨⟨mkS fun d => d, .loader, 0x21, by decide +kernel⟩,
   ⟨mkS fun d =>
      ((((d.setFld (CORES.CORE_STATUS_STATE 2) 2).setFld (CORES.CORE_STATUS_STATE 3) 2).setFld (CORES.CORE_STATUS_LOCKSTEP 2) 1).setFld (CORES.CORE_STATUS_LOCKSTEP 3) 1), .loader, 0x31, by decide +kernel⟩,
   ⟨mkS fun d => d.setFld (CORES.CORE_STATUS_STATE 2) 4, .loader, 0x22, by decide +kernel⟩,
   ⟨mkS fun d => d, .loader, 0x12, by decide +kernel⟩,
   ⟨mkS fun d => d.setFld (CORES.CORE_STATUS_STATE 2) 4, .loader, 0x23, by decide +kernel⟩,
   ⟨mkS fun d => d, .loader, 0x13, by decide +kernel⟩,
   ⟨mkS fun d =>
      ((((d.setFld (CORES.CORE_STATUS_STATE 2) 4).setFld (CORES.CORE_STATUS_STATE 3) 4).setFld (CORES.CORE_STATUS_LOCKSTEP 2) 1).setFld (CORES.CORE_STATUS_LOCKSTEP 3) 1), .loader, 0x33, by decide +kernel⟩,
   ⟨mkS fun d => d.setReg (SUPPLY.DOM_STATUS_0 + 4) 0xFFFFFFFF, by decide +kernel⟩,
   ⟨mkS fun d => d.setReg (SUPPLY.DOM_STATUS_0 + 4) 0xFFFFFFFF, by decide +kernel⟩,
   ⟨mkS fun d => d.setReg (SUPPLY.DOM_STATUS_0 + 4) 0xFFFFFFFF, by decide +kernel⟩,
   ⟨mkS fun d => d.setReg (SUPPLY.DOM_STATUS_0 + 4) 0xFFFFFFFF, 159, 2, by decide +kernel⟩,
   ⟨mkS fun d => d.setReg (SUPPLY.DOM_STATUS_0 + 4) 0xFFFFFFFF, 159, 2, by decide +kernel⟩⟩

/-- The hypotheses of clause 25 of DebugPort are met. -/
theorem witness_DebugPort_25 : ∃ (s : State) (op : TapOp), s.dev.domReady 58 = false :=
  ⟨mkS fun d => d, .idcode, by decide +kernel⟩

/-- The hypotheses of clauses 1 to 10 of DualConsent are met. -/
theorem witness_DualConsent_1 :
    (∃ (s : State) (a : Agent) (v : Word), v.toNat = 1 ∧ (s.dev.proposed && before s.dev.cons.until_ (floorNs s.dev.now)) = false ∧
      s.dev.lgRoom = true ∧ s.dev.refusalAt a.id PROTECT.CONS_CMD v = none) ∧
    (∃ (s : State) (a : Agent) (v : Word), v.toNat = 1 ∧ (s.dev.proposed && before s.dev.cons.until_ (floorNs s.dev.now)) = false ∧
      s.dev.lgRoom = true ∧
      causeOf (match regHit PROTECT.CONS_CMD with | some h => s.dev.refusals a.id h PROTECT.CONS_CMD v.toNat | none => []) = none ∧
      a.id ≠ s.dev.partyA) ∧
    (∃ (s : State) (a : Agent) (v : Word), v.toNat = 1 ∧ (s.dev.proposed && before s.dev.cons.until_ (floorNs s.dev.now)) = false ∧
      s.dev.lgRoom = true ∧
      causeOf (match regHit PROTECT.CONS_CMD with | some h => s.dev.refusals a.id h PROTECT.CONS_CMD v.toNat | none => []) = none ∧
      a.id = s.dev.partyA ∧ (s.dev.partyA = 0xFFFF ∨ s.dev.partyB = 0xFFFF)) ∧
    (∃ (s : State) (a : Agent) (v : Word), v.toNat = 1 ∧ (s.dev.proposed && before s.dev.cons.until_ (floorNs s.dev.now)) = false ∧
      s.dev.lgRoom = true ∧
      causeOf (match regHit PROTECT.CONS_CMD with | some h => s.dev.refusals a.id h PROTECT.CONS_CMD v.toNat | none => []) = none ∧
      s.dev.partyA ≠ 0xFFFF ∧ s.dev.partyB ≠ 0xFFFF ∧ a.id = s.dev.partyA ∧ s.dev.proposed = true) ∧
    (∃ (s : State) (a : Agent) (v : Word), v.toNat = 1 ∧ (s.dev.proposed && before s.dev.cons.until_ (floorNs s.dev.now)) = false ∧
      s.dev.lgRoom = true ∧
      causeOf (match regHit PROTECT.CONS_CMD with | some h => s.dev.refusals a.id h PROTECT.CONS_CMD v.toNat | none => []) = none ∧
      s.dev.partyA ≠ 0xFFFF ∧ s.dev.partyB ≠ 0xFFFF ∧ a.id = s.dev.partyA ∧ s.dev.proposed = false ∧
      (s.dev.consCount = 0 ∨ s.dev.consCount > 16)) ∧
    (∃ (s : State) (a : Agent) (v : Word), v.toNat = 1 ∧ (s.dev.proposed && before s.dev.cons.until_ (floorNs s.dev.now)) = false ∧
      s.dev.lgRoom = true ∧
      causeOf (match regHit PROTECT.CONS_CMD with | some h => s.dev.refusals a.id h PROTECT.CONS_CMD v.toNat | none => []) = none ∧
      s.dev.partyA ≠ 0xFFFF ∧ s.dev.partyB ≠ 0xFFFF ∧ a.id = s.dev.partyA ∧ s.dev.proposed = false ∧ 1 ≤ s.dev.consCount ∧
      s.dev.consCount ≤ 16 ∧ ((List.range s.dev.consCount).all fun n => consWord (s.dev.consTarget n)) = false) ∧
    (∃ (s : State) (a : Agent) (v : Word), v.toNat = 1 ∧ (s.dev.proposed && before s.dev.cons.until_ (floorNs s.dev.now)) = false ∧
      s.dev.lgRoom = true ∧
      causeOf (match regHit PROTECT.CONS_CMD with | some h => s.dev.refusals a.id h PROTECT.CONS_CMD v.toNat | none => []) = none ∧
      s.dev.partyA ≠ 0xFFFF ∧ s.dev.partyB ≠ 0xFFFF ∧ a.id = s.dev.partyA ∧ s.dev.proposed = false ∧ 1 ≤ s.dev.consCount ∧
      s.dev.consCount ≤ 16 ∧ ((List.range s.dev.consCount).all fun n => consWord (s.dev.consTarget n)) = true ∧
      ((List.range s.dev.consCount).all fun n => (consValueRefusal (s.dev.consTarget n) (s.dev.consValue n)).isNone) = true ∧
      s.dev.consDigestOk = false) ∧
    (∃ (s : State) (a : Agent) (v : Word) (t : Nat) (new old : Word), v.toNat = 2 ∧
      (s.dev.proposed && before s.dev.cons.until_ (floorNs s.dev.now)) = false ∧ s.dev.lgRoom = true ∧
      s.dev.refusalAt a.id PROTECT.CONS_CMD v = none ∧ s.dev.led.fresh = [] ∧ s.dev.consChanges = [(t, new, old)] ∧ ownPin t = none ∧
      consWord t = true) ∧
    (∃ (s : State) (a : Agent) (v : Word) (p : Fin 160) (new old : Word), v.toNat = 2 ∧
      (s.dev.proposed && before s.dev.cons.until_ (floorNs s.dev.now)) = false ∧ s.dev.lgRoom = true ∧
      s.dev.refusalAt a.id PROTECT.CONS_CMD v = none ∧ s.dev.led.fresh = [] ∧ s.dev.consChanges = [(PINMUX.PIN_OWN p, new, old)]) ∧
    (∃ (s : State) (a : Agent) (v : Word), v.toNat = 2 ∧ (s.dev.proposed && before s.dev.cons.until_ (floorNs s.dev.now)) = false ∧
      s.dev.lgRoom = true ∧ s.dev.refusalAt a.id PROTECT.CONS_CMD v = none ∧ s.dev.led.fresh = [] ∧ s.dev.consChanges = []) :=
  ⟨⟨mkS fun d =>
      (let e : Dev := { ((((((((((d).setReg (PROTECT.BLK_PERM 5) 0xFFFFFFFF).setReg PROTECT.CONS_PARTY 0x01100400).setReg PROTECT.CONS_SEQ 5).setReg PROTECT.CONS_COUNT 1).setReg (PROTECT.CONS_TARGET 0) 0x2D15D0).setReg (PROTECT.CONS_VALUE 0) 0x02000207).setReg (PINMUX.PIN_OWN 116) 0x01000400).setFld PROTECT.CONS_STATUS_STATE 0).setReg PROTECT.CONS_WINDOW 1000) with cons := { until_ := 64000000 }, time := { milepost := 640 } }; (List.range 12).foldl (fun x n => x.setReg (PROTECT.CONS_DIGEST n) (BitVec.ofNat 32 (ofBytes ((sha384 e.consString).extract (4 * n) (4 * n + 4)).reverse))) e), .host, 1, by decide +kernel⟩,
   ⟨mkS fun d =>
      (let e : Dev := { ((((((((((d).setReg (PROTECT.BLK_PERM 5) 0xFFFFFFFF).setReg PROTECT.CONS_PARTY 0x01100400).setReg PROTECT.CONS_SEQ 5).setReg PROTECT.CONS_COUNT 1).setReg (PROTECT.CONS_TARGET 0) 0x2D15D0).setReg (PROTECT.CONS_VALUE 0) 0x02000207).setReg (PINMUX.PIN_OWN 116) 0x01000400).setFld PROTECT.CONS_STATUS_STATE 0).setReg PROTECT.CONS_WINDOW 1000) with cons := { until_ := 64000000 }, time := { milepost := 640 } }; (List.range 12).foldl (fun x n => x.setReg (PROTECT.CONS_DIGEST n) (BitVec.ofNat 32 (ofBytes ((sha384 e.consString).extract (4 * n) (4 * n + 4)).reverse))) e), .loader, 1, by decide +kernel⟩,
   ⟨mkS fun d =>
      (let e : Dev := { ((((((((((d).setReg (PROTECT.BLK_PERM 5) 0xFFFFFFFF).setReg PROTECT.CONS_PARTY 0x01100400).setReg PROTECT.CONS_SEQ 5).setReg PROTECT.CONS_COUNT 1).setReg (PROTECT.CONS_TARGET 0) 0x2D15D0).setReg (PROTECT.CONS_VALUE 0) 0x02000207).setReg (PINMUX.PIN_OWN 116) 0x01000400).setFld PROTECT.CONS_STATUS_STATE 0).setReg PROTECT.CONS_WINDOW 1000) with cons := { until_ := 64000000 }, time := { milepost := 640 } }; (List.range 12).foldl (fun x n => x.setReg (PROTECT.CONS_DIGEST n) (BitVec.ofNat 32 (ofBytes ((sha384 e.consString).extract (4 * n) (4 * n + 4)).reverse))) e) |>.setReg PROTECT.CONS_PARTY 0xFFFF0400, .host, 1, by decide +kernel⟩,
   ⟨mkS fun d =>
      (let e : Dev := { ((((((((((d).setReg (PROTECT.BLK_PERM 5) 0xFFFFFFFF).setReg PROTECT.CONS_PARTY 0x01100400).setReg PROTECT.CONS_SEQ 5).setReg PROTECT.CONS_COUNT 1).setReg (PROTECT.CONS_TARGET 0) 0x2D15D0).setReg (PROTECT.CONS_VALUE 0) 0x02000207).setReg (PINMUX.PIN_OWN 116) 0x01000400).setFld PROTECT.CONS_STATUS_STATE 1).setReg PROTECT.CONS_WINDOW 1000) with cons := { until_ := 64000000 }, time := { milepost := 640 } }; (List.range 12).foldl (fun x n => x.setReg (PROTECT.CONS_DIGEST n) (BitVec.ofNat 32 (ofBytes ((sha384 e.consString).extract (4 * n) (4 * n + 4)).reverse))) e), .host, 1, by decide +kernel⟩,
   ⟨mkS fun d =>
      (let e : Dev := { ((((((((((d).setReg (PROTECT.BLK_PERM 5) 0xFFFFFFFF).setReg PROTECT.CONS_PARTY 0x01100400).setReg PROTECT.CONS_SEQ 5).setReg PROTECT.CONS_COUNT 17).setReg (PROTECT.CONS_TARGET 0) 0x2D15D0).setReg (PROTECT.CONS_VALUE 0) 0x02000207).setReg (PINMUX.PIN_OWN 116) 0x01000400).setFld PROTECT.CONS_STATUS_STATE 0).setReg PROTECT.CONS_WINDOW 1000) with cons := { until_ := 64000000 }, time := { milepost := 640 } }; (List.range 12).foldl (fun x n => x.setReg (PROTECT.CONS_DIGEST n) (BitVec.ofNat 32 (ofBytes ((sha384 e.consString).extract (4 * n) (4 * n + 4)).reverse))) e), .host, 1, by decide +kernel⟩,
   ⟨mkS fun d =>
      (let e : Dev := { ((((((((((d).setReg (PROTECT.BLK_PERM 5) 0xFFFFFFFF).setReg PROTECT.CONS_PARTY 0x01100400).setReg PROTECT.CONS_SEQ 5).setReg PROTECT.CONS_COUNT 1).setReg (PROTECT.CONS_TARGET 0) 0x050018).setReg (PROTECT.CONS_VALUE 0) 0x02000207).setReg (PINMUX.PIN_OWN 116) 0x01000400).setFld PROTECT.CONS_STATUS_STATE 0).setReg PROTECT.CONS_WINDOW 1000) with cons := { until_ := 64000000 }, time := { milepost := 640 } }; (List.range 12).foldl (fun x n => x.setReg (PROTECT.CONS_DIGEST n) (BitVec.ofNat 32 (ofBytes ((sha384 e.consString).extract (4 * n) (4 * n + 4)).reverse))) e), .host, 1, by decide +kernel⟩,
   ⟨mkS fun d =>
      { ((((((((((d).setReg (PROTECT.BLK_PERM 5) 0xFFFFFFFF).setReg PROTECT.CONS_PARTY 0x01100400).setReg PROTECT.CONS_SEQ 5).setReg PROTECT.CONS_COUNT 1).setReg (PROTECT.CONS_TARGET 0) 0x2D15D0).setReg (PROTECT.CONS_VALUE 0) 0x02000207).setReg (PINMUX.PIN_OWN 116) 0x01000400).setFld PROTECT.CONS_STATUS_STATE 0).setReg PROTECT.CONS_WINDOW 1000) with cons := { until_ := 64000000 }, time := { milepost := 640 } }, .host, 1, by decide +kernel⟩,
   ⟨mkS fun d =>
      (let e : Dev := { ((((((((((d.setReg LEDGER.LG_NEXT_SEQ 9).setReg (PROTECT.BLK_PERM 5) 0xFFFFFFFF).setReg PROTECT.CONS_PARTY 0x01100400).setReg PROTECT.CONS_SEQ 5).setReg PROTECT.CONS_COUNT 1).setReg (PROTECT.CONS_TARGET 0) PROTECT.HEIR).setReg (PROTECT.CONS_VALUE 0) 0x01110110).setReg (PINMUX.PIN_OWN 116) 0x01000400).setFld PROTECT.CONS_STATUS_STATE 1).setReg PROTECT.CONS_WINDOW 1000) with cons := { until_ := 64000000 }, time := { milepost := 640 } }; (List.range 12).foldl (fun x n => x.setReg (PROTECT.CONS_DIGEST n) (BitVec.ofNat 32 (ofBytes ((sha384 e.consString).extract (4 * n) (4 * n + 4)).reverse))) e), (.pair 0), 2, PROTECT.HEIR, 0x01110110, 0xFFFFFFFF, by decide +kernel⟩,
   ⟨mkS fun d =>
      (let e : Dev := { ((((((((((d).setReg (PROTECT.BLK_PERM 5) 0xFFFFFFFF).setReg PROTECT.CONS_PARTY 0x01100400).setReg PROTECT.CONS_SEQ 5).setReg PROTECT.CONS_COUNT 1).setReg (PROTECT.CONS_TARGET 0) 0x2D15D0).setReg (PROTECT.CONS_VALUE 0) 0x02000207).setReg (PINMUX.PIN_OWN 116) 0x01000400).setFld PROTECT.CONS_STATUS_STATE 1).setReg PROTECT.CONS_WINDOW 1000) with cons := { until_ := 64000000 }, time := { milepost := 640 } }; (List.range 12).foldl (fun x n => x.setReg (PROTECT.CONS_DIGEST n) (BitVec.ofNat 32 (ofBytes ((sha384 e.consString).extract (4 * n) (4 * n + 4)).reverse))) e), (.pair 0), 2, 116, 0x02000207, 0x01000400, by decide +kernel⟩,
   ⟨mkS fun d =>
      (let e : Dev := { ((((((((((d).setReg (PROTECT.BLK_PERM 5) 0xFFFFFFFF).setReg PROTECT.CONS_PARTY 0x01100400).setReg PROTECT.CONS_SEQ 5).setReg PROTECT.CONS_COUNT 1).setReg (PROTECT.CONS_TARGET 0) 0x2D15D0).setReg (PROTECT.CONS_VALUE 0) 0x01000400).setReg (PINMUX.PIN_OWN 116) 0x01000400).setFld PROTECT.CONS_STATUS_STATE 1).setReg PROTECT.CONS_WINDOW 1000) with cons := { until_ := 64000000 }, time := { milepost := 640 } }; (List.range 12).foldl (fun x n => x.setReg (PROTECT.CONS_DIGEST n) (BitVec.ofNat 32 (ofBytes ((sha384 e.consString).extract (4 * n) (4 * n + 4)).reverse))) e), (.pair 0), 2, by decide +kernel⟩⟩

/-- The hypotheses of clauses 11 to 18 of DualConsent are met. -/
theorem witness_DualConsent_11 :
    (∃ (s : State) (a : Agent) (v : Word), v.toNat = 2 ∧ (s.dev.proposed && before s.dev.cons.until_ (floorNs s.dev.now)) = false ∧
      s.dev.lgRoom = true ∧
      causeOf (match regHit PROTECT.CONS_CMD with | some h => s.dev.refusals a.id h PROTECT.CONS_CMD v.toNat | none => []) = none ∧
      a.id ≠ s.dev.partyB) ∧
    (∃ (s : State) (a : Agent) (v : Word), v.toNat = 2 ∧ (s.dev.proposed && before s.dev.cons.until_ (floorNs s.dev.now)) = false ∧
      s.dev.lgRoom = true ∧
      causeOf (match regHit PROTECT.CONS_CMD with | some h => s.dev.refusals a.id h PROTECT.CONS_CMD v.toNat | none => []) = none ∧
      a.id = s.dev.partyB ∧ s.dev.proposed = false) ∧
    (∃ (s : State) (a : Agent) (v : Word), v.toNat = 2 ∧ (s.dev.proposed && before s.dev.cons.until_ (floorNs s.dev.now)) = false ∧
      s.dev.lgRoom = true ∧
      causeOf (match regHit PROTECT.CONS_CMD with | some h => s.dev.refusals a.id h PROTECT.CONS_CMD v.toNat | none => []) = none ∧
      s.dev.partyA ≠ 0xFFFF ∧ s.dev.partyB ≠ 0xFFFF ∧ a.id = s.dev.partyB ∧ s.dev.proposed = true ∧ s.dev.consDigestOk = false) ∧
    (∃ (s : State) (a : Agent) (v : Word), v.toNat = 4 ∧ (s.dev.proposed && before s.dev.cons.until_ (floorNs s.dev.now)) = false ∧
      s.dev.lgRoom = true ∧ s.dev.refusalAt a.id PROTECT.CONS_CMD v = none) ∧
    (∃ (s : State) (a : Agent) (v : Word), v.toNat = 4 ∧ (s.dev.proposed && before s.dev.cons.until_ (floorNs s.dev.now)) = false ∧
      s.dev.lgRoom = true ∧
      causeOf (match regHit PROTECT.CONS_CMD with | some h => s.dev.refusals a.id h PROTECT.CONS_CMD v.toNat | none => []) = none ∧
      a.id ≠ s.dev.partyA) ∧
    (∃ (s : State) (a : Agent) (v : Word), v.toNat = 4 ∧ (s.dev.proposed && before s.dev.cons.until_ (floorNs s.dev.now)) = false ∧
      s.dev.lgRoom = true ∧
      causeOf (match regHit PROTECT.CONS_CMD with | some h => s.dev.refusals a.id h PROTECT.CONS_CMD v.toNat | none => []) = none ∧
      s.dev.partyA ≠ 0xFFFF ∧ s.dev.partyB ≠ 0xFFFF ∧ a.id = s.dev.partyA ∧ s.dev.proposed = false) ∧
    (∃ (s : State), s.dev.proposed = true ∧ s.dev.due s.dev.cons.until_ = true) ∧
    (∃ (s : State), (s.dev.proposed && s.dev.due s.dev.cons.until_) = false) :=
  ⟨⟨mkS fun d =>
      (let e : Dev := { ((((((((((d).setReg (PROTECT.BLK_PERM 5) 0xFFFFFFFF).setReg PROTECT.CONS_PARTY 0x01100400).setReg PROTECT.CONS_SEQ 5).setReg PROTECT.CONS_COUNT 1).setReg (PROTECT.CONS_TARGET 0) 0x2D15D0).setReg (PROTECT.CONS_VALUE 0) 0x02000207).setReg (PINMUX.PIN_OWN 116) 0x01000400).setFld PROTECT.CONS_STATUS_STATE 1).setReg PROTECT.CONS_WINDOW 1000) with cons := { until_ := 64000000 }, time := { milepost := 640 } }; (List.range 12).foldl (fun x n => x.setReg (PROTECT.CONS_DIGEST n) (BitVec.ofNat 32 (ofBytes ((sha384 e.consString).extract (4 * n) (4 * n + 4)).reverse))) e), .host, 2, by decide +kernel⟩,
   ⟨mkS fun d =>
      (let e : Dev := { ((((((((((d).setReg (PROTECT.BLK_PERM 5) 0xFFFFFFFF).setReg PROTECT.CONS_PARTY 0x01100400).setReg PROTECT.CONS_SEQ 5).setReg PROTECT.CONS_COUNT 1).setReg (PROTECT.CONS_TARGET 0) 0x2D15D0).setReg (PROTECT.CONS_VALUE 0) 0x02000207).setReg (PINMUX.PIN_OWN 116) 0x01000400).setFld PROTECT.CONS_STATUS_STATE 0).setReg PROTECT.CONS_WINDOW 1000) with cons := { until_ := 64000000 }, time := { milepost := 640 } }; (List.range 12).foldl (fun x n => x.setReg (PROTECT.CONS_DIGEST n) (BitVec.ofNat 32 (ofBytes ((sha384 e.consString).extract (4 * n) (4 * n + 4)).reverse))) e), (.pair 0), 2, by decide +kernel⟩,
   ⟨mkS fun d =>
      { ((((((((((d).setReg (PROTECT.BLK_PERM 5) 0xFFFFFFFF).setReg PROTECT.CONS_PARTY 0x01100400).setReg PROTECT.CONS_SEQ 5).setReg PROTECT.CONS_COUNT 1).setReg (PROTECT.CONS_TARGET 0) 0x2D15D0).setReg (PROTECT.CONS_VALUE 0) 0x02000207).setReg (PINMUX.PIN_OWN 116) 0x01000400).setFld PROTECT.CONS_STATUS_STATE 1).setReg PROTECT.CONS_WINDOW 1000) with cons := { until_ := 64000000 }, time := { milepost := 640 } }, (.pair 0), 2, by decide +kernel⟩,
   ⟨mkS fun d =>
      { ((((((((((d).setReg (PROTECT.BLK_PERM 5) 0xFFFFFFFF).setReg PROTECT.CONS_PARTY 0x01100400).setReg PROTECT.CONS_SEQ 5).setReg PROTECT.CONS_COUNT 1).setReg (PROTECT.CONS_TARGET 0) 0x2D15D0).setReg (PROTECT.CONS_VALUE 0) 0x02000207).setReg (PINMUX.PIN_OWN 116) 0x01000400).setFld PROTECT.CONS_STATUS_STATE 1).setReg PROTECT.CONS_WINDOW 1000) with cons := { until_ := 64000000 }, time := { milepost := 640 } }, .host, 4, by decide +kernel⟩,
   ⟨mkS fun d =>
      { ((((((((((d).setReg (PROTECT.BLK_PERM 5) 0xFFFFFFFF).setReg PROTECT.CONS_PARTY 0x01100400).setReg PROTECT.CONS_SEQ 5).setReg PROTECT.CONS_COUNT 1).setReg (PROTECT.CONS_TARGET 0) 0x2D15D0).setReg (PROTECT.CONS_VALUE 0) 0x02000207).setReg (PINMUX.PIN_OWN 116) 0x01000400).setFld PROTECT.CONS_STATUS_STATE 1).setReg PROTECT.CONS_WINDOW 1000) with cons := { until_ := 64000000 }, time := { milepost := 640 } }, (.pair 0), 4, by decide +kernel⟩,
   ⟨mkS fun d =>
      { ((((((((((d).setReg (PROTECT.BLK_PERM 5) 0xFFFFFFFF).setReg PROTECT.CONS_PARTY 0x01100400).setReg PROTECT.CONS_SEQ 5).setReg PROTECT.CONS_COUNT 1).setReg (PROTECT.CONS_TARGET 0) 0x2D15D0).setReg (PROTECT.CONS_VALUE 0) 0x02000207).setReg (PINMUX.PIN_OWN 116) 0x01000400).setFld PROTECT.CONS_STATUS_STATE 0).setReg PROTECT.CONS_WINDOW 1000) with cons := { until_ := 64000000 }, time := { milepost := 640 } }, .host, 4, by decide +kernel⟩,
   ⟨mkS fun d =>
      { ((((((((((d).setReg (PROTECT.BLK_PERM 5) 0xFFFFFFFF).setReg PROTECT.CONS_PARTY 0x01100400).setReg PROTECT.CONS_SEQ 5).setReg PROTECT.CONS_COUNT 1).setReg (PROTECT.CONS_TARGET 0) 0x2D15D0).setReg (PROTECT.CONS_VALUE 0) 0x02000207).setReg (PINMUX.PIN_OWN 116) 0x01000400).setFld PROTECT.CONS_STATUS_STATE 1).setReg PROTECT.CONS_WINDOW 1000) with cons := { until_ := 640 }, time := { milepost := 640 } }, by decide +kernel⟩,
   ⟨mkS fun d =>
      { ((((((((((d).setReg (PROTECT.BLK_PERM 5) 0xFFFFFFFF).setReg PROTECT.CONS_PARTY 0x01100400).setReg PROTECT.CONS_SEQ 5).setReg PROTECT.CONS_COUNT 1).setReg (PROTECT.CONS_TARGET 0) 0x2D15D0).setReg (PROTECT.CONS_VALUE 0) 0x02000207).setReg (PINMUX.PIN_OWN 116) 0x01000400).setFld PROTECT.CONS_STATUS_STATE 1).setReg PROTECT.CONS_WINDOW 1000) with cons := { until_ := 64000000 }, time := { milepost := 640 } }, by decide +kernel⟩⟩

/-- The hypotheses of clauses 1 to 12 of FaultOccurrences are met. -/
theorem witness_FaultOccurrences_1 :
    (∃ (s : State) (o : FaultOcc) (l m : List FaultOcc), s.dev.faults = l ++ o :: m ∧ faultFirst o l m = true ∧ o.src < 32 ∧ o.unit < 0x10000 ∧
      floorNs o.stamp = floorNs s.dev.now) ∧
    (∃ (s : State), s.dev.faults = []) ∧
    (∃ (s : State) (o : FaultOcc) (l m : List FaultOcc), s.dev.faults = l ++ o :: m ∧ faultFirst o l m = true ∧ o.src < 32 ∧ o.unit < 0x10000 ∧
      floorNs o.stamp ≠ floorNs s.dev.now ∧ s.dev.unanswered o = true ∧ s.dev.fld (FAULT.SRC_CFG_ACTION o.src) = 0 ∧
      s.dev.fld (FAULT.SRC_CFG_SILL o.src) = 0 ∧ s.dev.flag (FAULT.SRC_CFG_FAULT_N o.src) = false) ∧
    (∃ (s : State) (o : FaultOcc) (l m : List FaultOcc), s.dev.faults = l ++ o :: m ∧ faultFirst o l m = true ∧ o.src < 32 ∧ o.unit < 0x10000 ∧
      floorNs o.stamp ≠ floorNs s.dev.now ∧ s.dev.unanswered o = true ∧ s.dev.fld (FAULT.SRC_CFG_ACTION o.src) = 3 ∧
      s.dev.fld (FAULT.SRC_CFG_SILL o.src) = 0 ∧ s.dev.flag (FAULT.SRC_CFG_FAULT_N o.src) = false) ∧
    (∃ (s : State) (o : FaultOcc) (l m : List FaultOcc), s.dev.faults = l ++ o :: m ∧ faultFirst o l m = true ∧ o.src < 32 ∧ o.unit < 0x10000 ∧
      floorNs o.stamp ≠ floorNs s.dev.now ∧ s.dev.unanswered o = true ∧ s.dev.fld (FAULT.SRC_CFG_ACTION o.src) = 2 ∧
      s.dev.fld (FAULT.SRC_CFG_SILL o.src) = 0 ∧ s.dev.flag (FAULT.SRC_CFG_FAULT_N o.src) = false) ∧
    (∃ (s : State) (o : FaultOcc) (l m : List FaultOcc), s.dev.faults = l ++ o :: m ∧ faultFirst o l m = true ∧ o.src < 32 ∧ o.unit < 0x10000 ∧
      floorNs o.stamp ≠ floorNs s.dev.now ∧ s.dev.unanswered o = true ∧ s.dev.fld (FAULT.SRC_CFG_ACTION o.src) = 1 ∧
      s.dev.fld (FAULT.SRC_CFG_SILL o.src) = 0 ∧ s.dev.flag (FAULT.SRC_CFG_FAULT_N o.src) = false ∧ (o.src = 0x0A ∨ o.src = 0x0C) ∧
      o.unit < 96) ∧
    (∃ (s : State) (o : FaultOcc) (l m : List FaultOcc), s.dev.faults = l ++ o :: m ∧ faultFirst o l m = true ∧ o.src < 32 ∧ o.unit < 0x10000 ∧
      floorNs o.stamp ≠ floorNs s.dev.now ∧ s.dev.unanswered o = true ∧ s.dev.fld (FAULT.SRC_CFG_ACTION o.src) = 1 ∧
      s.dev.fld (FAULT.SRC_CFG_SILL o.src) = 0 ∧ s.dev.flag (FAULT.SRC_CFG_FAULT_N o.src) = false ∧ o.src = 0x0B ∧ o.unit < 48) ∧
    (∃ (s : State) (o : FaultOcc) (l m : List FaultOcc), s.dev.faults = l ++ o :: m ∧ faultFirst o l m = true ∧ o.src < 32 ∧ o.unit < 0x10000 ∧
      floorNs o.stamp ≠ floorNs s.dev.now ∧ s.dev.unanswered o = true ∧ s.dev.fld (FAULT.SRC_CFG_ACTION o.src) = 1 ∧
      s.dev.fld (FAULT.SRC_CFG_SILL o.src) = 0 ∧ s.dev.flag (FAULT.SRC_CFG_FAULT_N o.src) = false ∧ o.src = 0x0D ∧ o.unit < 8) ∧
    (∃ (s : State) (o : FaultOcc) (l m : List FaultOcc), s.dev.faults = l ++ o :: m ∧ faultFirst o l m = true ∧ o.src < 32 ∧ o.unit < 0x10000 ∧
      floorNs o.stamp ≠ floorNs s.dev.now ∧ s.dev.unanswered o = true ∧ s.dev.fld (FAULT.SRC_CFG_ACTION o.src) = 1 ∧
      s.dev.fld (FAULT.SRC_CFG_SILL o.src) = 0 ∧ s.dev.flag (FAULT.SRC_CFG_FAULT_N o.src) = false ∧ o.src = 0x13 ∧ o.unit < 64) ∧
    (∃ (s : State) (o : FaultOcc) (l m : List FaultOcc), s.dev.faults = l ++ o :: m ∧ faultFirst o l m = true ∧ o.src < 32 ∧ o.unit < 0x10000 ∧
      floorNs o.stamp ≠ floorNs s.dev.now ∧ s.dev.unanswered o = true ∧ s.dev.fld (FAULT.SRC_CFG_ACTION o.src) = 1 ∧
      s.dev.fld (FAULT.SRC_CFG_SILL o.src) = 0 ∧ s.dev.flag (FAULT.SRC_CFG_FAULT_N o.src) = false ∧ o.src = 0x14 ∧ o.unit < 40) ∧
    (∃ (s : State) (o : FaultOcc) (l m : List FaultOcc), s.dev.faults = l ++ o :: m ∧ faultFirst o l m = true ∧ o.src < 32 ∧ o.unit < 0x10000 ∧
      floorNs o.stamp ≠ floorNs s.dev.now ∧ s.dev.unanswered o = true ∧ s.dev.fld (FAULT.SRC_CFG_ACTION o.src) = 1 ∧
      s.dev.fld (FAULT.SRC_CFG_SILL o.src) = 0 ∧ s.dev.flag (FAULT.SRC_CFG_FAULT_N o.src) = false ∧ o.src = 0x09 ∧ o.unit < 32 ∧
      (s.dev.fld (LOOP.SLOT_OUT_CFG_TARGET o.unit)) = 1) ∧
    (∃ (s : State) (o : FaultOcc) (l m : List FaultOcc), s.dev.faults = l ++ o :: m ∧ faultFirst o l m = true ∧ o.src < 32 ∧ o.unit < 0x10000 ∧
      floorNs o.stamp ≠ floorNs s.dev.now ∧ s.dev.unanswered o = true ∧ s.dev.fld (FAULT.SRC_CFG_ACTION o.src) = 1 ∧
      s.dev.fld (FAULT.SRC_CFG_SILL o.src) = 0 ∧ s.dev.flag (FAULT.SRC_CFG_FAULT_N o.src) = false ∧ o.src = 0x09 ∧ o.unit < 32 ∧
      (s.dev.fld (LOOP.SLOT_OUT_CFG_TARGET o.unit)) = 2) :=
  ⟨⟨mkS fun d =>
      { (d) with faults := [{ src := 0x1F, unit := 0, stamp := 65 }] ++ { src := 0x9, unit := 3, stamp := 64 } :: [{ src := 1, unit := 0, stamp := 128 }], time := { milepost := 64 } }, { src := 0x9, unit := 3, stamp := 64 }, [{ src := 0x1F, unit := 0, stamp := 65 }], [{ src := 1, unit := 0, stamp := 128 }], by decide +kernel⟩,
   ⟨mkS fun d => d, by decide +kernel⟩,
   ⟨mkS fun d =>
      { (d) with faults := [{ src := 0x1F, unit := 0, stamp := 65 }] ++ { src := 0x11, unit := 3, stamp := 64 } :: [{ src := 1, unit := 0, stamp := 128 }], time := { milepost := 6400 } }, { src := 0x11, unit := 3, stamp := 64 }, [{ src := 0x1F, unit := 0, stamp := 65 }], [{ src := 1, unit := 0, stamp := 128 }], by decide +kernel⟩,
   ⟨mkS fun d =>
      { ((d).setFld (FAULT.SRC_CFG_ACTION 0x11) 3) with faults := [{ src := 0x1F, unit := 0, stamp := 65 }] ++ { src := 0x11, unit := 3, stamp := 64 } :: [{ src := 1, unit := 0, stamp := 128 }], time := { milepost := 6400 } }, { src := 0x11, unit := 3, stamp := 64 }, [{ src := 0x1F, unit := 0, stamp := 65 }], [{ src := 1, unit := 0, stamp := 128 }], by decide +kernel⟩,
   ⟨mkS fun d =>
      { ((((d.setFld (FAULT.SRC_CFG_SAFE_GRP 0x12) 5).setReg (FAULT.SAFE_GRP 5 3) 0x80000001)).setFld (FAULT.SRC_CFG_ACTION 0x12) 2) with faults := [{ src := 0x1F, unit := 0, stamp := 65 }] ++ { src := 0x12, unit := 3, stamp := 64 } :: [{ src := 1, unit := 0, stamp := 128 }], time := { milepost := 6400 } }, { src := 0x12, unit := 3, stamp := 64 }, [{ src := 0x1F, unit := 0, stamp := 65 }], [{ src := 1, unit := 0, stamp := 128 }], by decide +kernel⟩,
   ⟨mkS fun d =>
      { ((d).setFld (FAULT.SRC_CFG_ACTION 0xA) 1) with faults := [{ src := 0x1F, unit := 0, stamp := 65 }] ++ { src := 0xA, unit := 70, stamp := 64 } :: [{ src := 1, unit := 0, stamp := 128 }], time := { milepost := 6400 } }, { src := 0xA, unit := 70, stamp := 64 }, [{ src := 0x1F, unit := 0, stamp := 65 }], [{ src := 1, unit := 0, stamp := 128 }], by decide +kernel⟩,
   ⟨mkS fun d =>
      { ((d).setFld (FAULT.SRC_CFG_ACTION 0xB) 1) with faults := [{ src := 0x1F, unit := 0, stamp := 65 }] ++ { src := 0xB, unit := 40, stamp := 64 } :: [{ src := 1, unit := 0, stamp := 128 }], time := { milepost := 6400 } }, { src := 0xB, unit := 40, stamp := 64 }, [{ src := 0x1F, unit := 0, stamp := 65 }], [{ src := 1, unit := 0, stamp := 128 }], by decide +kernel⟩,
   ⟨mkS fun d =>
      { ((((d.setFld (PHASE.PH_MAP_ROLE 95) 1).setFld (PHASE.PH_MAP_RAIL 95) 6)).setFld (FAULT.SRC_CFG_ACTION 0xD) 1) with faults := [{ src := 0x1F, unit := 0, stamp := 65 }] ++ { src := 0xD, unit := 6, stamp := 64 } :: [{ src := 1, unit := 0, stamp := 128 }], time := { milepost := 6400 } }, { src := 0xD, unit := 6, stamp := 64 }, [{ src := 0x1F, unit := 0, stamp := 65 }], [{ src := 1, unit := 0, stamp := 128 }], by decide +kernel⟩,
   ⟨mkS fun d =>
      { (((d.setReg (PINMUX.PIN_OWN 116) 0x02000207)).setFld (FAULT.SRC_CFG_ACTION 0x13) 1) with faults := [{ src := 0x1F, unit := 0, stamp := 65 }] ++ { src := 0x13, unit := 7, stamp := 64 } :: [{ src := 1, unit := 0, stamp := 128 }], time := { milepost := 6400 } }, { src := 0x13, unit := 7, stamp := 64 }, [{ src := 0x1F, unit := 0, stamp := 65 }], [{ src := 1, unit := 0, stamp := 128 }], by decide +kernel⟩,
   ⟨mkS fun d =>
      { ((((d.setReg (PINMUX.PIN_OWN 0) 0x03000207))).setFld (FAULT.SRC_CFG_ACTION 0x14) 1) with faults := [{ src := 0x1F, unit := 0, stamp := 65 }] ++ { src := 0x14, unit := 7, stamp := 64 } :: [{ src := 1, unit := 0, stamp := 128 }], time := { milepost := 6400 } }, { src := 0x14, unit := 7, stamp := 64 }, [{ src := 0x1F, unit := 0, stamp := 65 }], [{ src := 1, unit := 0, stamp := 128 }], by decide +kernel⟩,
   ⟨mkS fun d =>
      { ((((d.setFld (LOOP.SLOT_OUT_CFG_TARGET 30) 1).setFld (LOOP.SLOT_OUT_CFG_INDEX 30) 11)).setFld (FAULT.SRC_CFG_ACTION 0x9) 1) with faults := [{ src := 0x1F, unit := 0, stamp := 65 }] ++ { src := 0x9, unit := 30, stamp := 64 } :: [{ src := 1, unit := 0, stamp := 128 }], time := { milepost := 6400 } }, { src := 0x9, unit := 30, stamp := 64 }, [{ src := 0x1F, unit := 0, stamp := 65 }], [{ src := 1, unit := 0, stamp := 128 }], by decide +kernel⟩,
   ⟨mkS fun d =>
      { ((((((d.setFld (PHASE.PH_MAP_ROLE 95) 1).setFld (PHASE.PH_MAP_RAIL 95) 6).setFld (LOOP.SLOT_OUT_CFG_TARGET 30) 2).setFld (LOOP.SLOT_OUT_CFG_INDEX 30) 6)).setFld (FAULT.SRC_CFG_ACTION 0x9) 1) with faults := [{ src := 0x1F, unit := 0, stamp := 65 }] ++ { src := 0x9, unit := 30, stamp := 64 } :: [{ src := 1, unit := 0, stamp := 128 }], time := { milepost := 6400 } }, { src := 0x9, unit := 30, stamp := 64 }, [{ src := 0x1F, unit := 0, stamp := 65 }], [{ src := 1, unit := 0, stamp := 128 }], by decide +kernel⟩⟩

/-- The hypotheses of clauses 13 to 22 of FaultOccurrences are met. -/
theorem witness_FaultOccurrences_13 :
    (∃ (s : State) (o : FaultOcc) (l m : List FaultOcc), s.dev.faults = l ++ o :: m ∧ faultFirst o l m = true ∧ o.src < 32 ∧ o.unit < 0x10000 ∧
      floorNs o.stamp ≠ floorNs s.dev.now ∧ s.dev.unanswered o = true ∧ s.dev.fld (FAULT.SRC_CFG_ACTION o.src) = 1 ∧
      s.dev.fld (FAULT.SRC_CFG_SILL o.src) = 0 ∧ s.dev.flag (FAULT.SRC_CFG_FAULT_N o.src) = false ∧ o.src = 0x09 ∧ o.unit < 32 ∧
      (s.dev.fld (LOOP.SLOT_OUT_CFG_TARGET o.unit)) = 3) ∧
    (∃ (s : State) (o : FaultOcc) (l m : List FaultOcc), s.dev.faults = l ++ o :: m ∧ faultFirst o l m = true ∧ o.src < 32 ∧ o.unit < 0x10000 ∧
      floorNs o.stamp ≠ floorNs s.dev.now ∧ s.dev.unanswered o = true ∧ s.dev.fld (FAULT.SRC_CFG_ACTION o.src) = 1 ∧
      s.dev.fld (FAULT.SRC_CFG_SILL o.src) = 0 ∧ s.dev.flag (FAULT.SRC_CFG_FAULT_N o.src) = false ∧ o.src = 0x09 ∧ o.unit < 32 ∧
      (s.dev.fld (LOOP.SLOT_OUT_CFG_TARGET o.unit)) = 0) ∧
    (∃ (s : State) (o : FaultOcc) (l m : List FaultOcc), s.dev.faults = l ++ o :: m ∧ faultFirst o l m = true ∧ o.src < 32 ∧ o.unit < 0x10000 ∧
      floorNs o.stamp ≠ floorNs s.dev.now ∧ s.dev.unanswered o = true ∧ s.dev.fld (FAULT.SRC_CFG_ACTION o.src) = 1 ∧
      s.dev.fld (FAULT.SRC_CFG_SILL o.src) = 0 ∧ s.dev.flag (FAULT.SRC_CFG_FAULT_N o.src) = false ∧ o.src = 0x09 ∧ o.unit < 32 ∧
      (s.dev.fld (LOOP.SLOT_OUT_CFG_TARGET o.unit)) = 4 ∧ (s.dev.fld (LOOP.CG_CFG_TARGET (s.dev.fld (LOOP.SLOT_OUT_CFG_INDEX o.unit)))) = 1) ∧
    (∃ (s : State) (o : FaultOcc) (l m : List FaultOcc), s.dev.faults = l ++ o :: m ∧ faultFirst o l m = true ∧ o.src < 32 ∧ o.unit < 0x10000 ∧
      floorNs o.stamp ≠ floorNs s.dev.now ∧ s.dev.unanswered o = true ∧ s.dev.fld (FAULT.SRC_CFG_ACTION o.src) = 0 ∧
      s.dev.fld (FAULT.SRC_CFG_SILL o.src) = 0 ∧ s.dev.flag (FAULT.SRC_CFG_FAULT_N o.src) = true ∧
      s.dev.flag FAULT.FM_STATUS_FAULT_N_ASSERTED = false) ∧
    (∃ (s : State) (o : FaultOcc) (l m : List FaultOcc), s.dev.faults = l ++ o :: m ∧ faultFirst o l m = true ∧ o.src < 32 ∧ o.unit < 0x10000 ∧
      floorNs o.stamp ≠ floorNs s.dev.now ∧ s.dev.unanswered o = true ∧ s.dev.fld (FAULT.SRC_CFG_ACTION o.src) = 0 ∧
      s.dev.fld (FAULT.SRC_CFG_SILL o.src) = 0 ∧ s.dev.flag (FAULT.SRC_CFG_FAULT_N o.src) = true ∧
      s.dev.flag FAULT.FM_STATUS_FAULT_N_ASSERTED = true) ∧
    (∃ (s : State) (o : FaultOcc) (l m : List FaultOcc) (c : Fin 4), s.dev.faults = l ++ o :: m ∧ faultFirst o l m = true ∧ o.src < 32 ∧
      o.unit < 0x10000 ∧ floorNs o.stamp ≠ floorNs s.dev.now ∧ s.dev.unanswered o = true ∧ s.dev.fld (FAULT.SRC_CFG_ACTION o.src) = 0 ∧
      s.dev.fld (FAULT.SRC_CFG_SILL o.src) = 2 ^ c.val ∧ s.dev.flag (FAULT.SRC_CFG_FAULT_N o.src) = false ∧ s.dev.lockstep c.val = false ∧
      s.dev.lockstep (partner c.val) = false ∧ s.dev.coreState c.val = 2 ∧
      (decide ((s.dev.core c.val).pl = 2) || (s.dev.core c.val).req.isSome) = true) ∧
    (∃ (s : State) (o : FaultOcc) (l m : List FaultOcc) (c : Fin 4), s.dev.faults = l ++ o :: m ∧ faultFirst o l m = true ∧ o.src < 32 ∧
      o.unit < 0x10000 ∧ floorNs o.stamp ≠ floorNs s.dev.now ∧ s.dev.unanswered o = true ∧ s.dev.fld (FAULT.SRC_CFG_ACTION o.src) = 0 ∧
      s.dev.fld (FAULT.SRC_CFG_SILL o.src) = 2 ^ c.val ∧ s.dev.flag (FAULT.SRC_CFG_FAULT_N o.src) = false ∧ s.dev.lockstep c.val = false ∧
      s.dev.lockstep (partner c.val) = false ∧ s.dev.coreState c.val ≠ 2 ∧ s.dev.coreState c.val ≠ 3 ∧ s.dev.coreState c.val ≠ 4) ∧
    (∃ (s : State) (o : FaultOcc) (l m : List FaultOcc) (c : Fin 4), s.dev.faults = l ++ o :: m ∧ faultFirst o l m = true ∧ o.src < 32 ∧
      o.unit < 0x10000 ∧ floorNs o.stamp ≠ floorNs s.dev.now ∧ s.dev.unanswered o = true ∧ s.dev.fld (FAULT.SRC_CFG_ACTION o.src) = 0 ∧
      s.dev.fld (FAULT.SRC_CFG_SILL o.src) = 2 ^ c.val ∧ s.dev.flag (FAULT.SRC_CFG_FAULT_N o.src) = false ∧ s.dev.lockstep c.val = false ∧
      s.dev.lockstep (partner c.val) = false ∧ (s.dev.coreState c.val = 2 ∨ s.dev.coreState c.val = 3) ∧ (s.dev.core c.val).pl < 2 ∧
      (s.dev.core c.val).req = none ∧ (s.dev.core c.val).joinSince = none ∧ (s.dev.core c.val).escDue = none ∧
      (s.dev.core c.val).sb.length ≤ 4 ∧ (s.dev.core (partner c.val)).sillHeld = false) ∧
    (∃ (s : State) (o : FaultOcc) (l m : List FaultOcc), s.dev.faults = l ++ o :: m ∧ faultFirst o l m = true ∧ o.src < 32 ∧ o.unit < 0x10000 ∧
      floorNs o.stamp ≠ floorNs s.dev.now ∧ s.dev.unanswered o = true ∧ s.dev.fld (FAULT.SRC_CFG_ACTION o.src) = 0 ∧
      s.dev.fld (FAULT.SRC_CFG_SILL o.src) = 3 ∧ s.dev.flag (FAULT.SRC_CFG_FAULT_N o.src) = false ∧ s.dev.lockstep 0 = true ∧
      s.dev.lockstep 1 = true ∧ s.dev.coreState 0 = 2 ∧ s.dev.coreState 1 = 2 ∧ (s.dev.core 0).pl ≠ 2) ∧
    (∃ (s : State) (o : FaultOcc) (l m : List FaultOcc), s.dev.faults = l ++ o :: m ∧ faultFirst o l m = true ∧ o.src < 32 ∧ o.unit < 0x10000 ∧
      floorNs o.stamp ≠ floorNs s.dev.now ∧ s.dev.fld (FAULT.SRC_CFG_ACTION o.src) = 0 ∧ s.dev.fld (FAULT.SRC_CFG_SILL o.src) = 0 ∧
      s.dev.flag (FAULT.SRC_CFG_FAULT_N o.src) = false ∧ o.src = 0x03) :=
  ⟨⟨mkS fun d =>
      { ((((d.setFld (LOOP.SLOT_OUT_CFG_TARGET 30) 3).setFld (LOOP.SLOT_OUT_CFG_INDEX 30) 11)).setFld (FAULT.SRC_CFG_ACTION 0x9) 1) with faults := [{ src := 0x1F, unit := 0, stamp := 65 }] ++ { src := 0x9, unit := 30, stamp := 64 } :: [{ src := 1, unit := 0, stamp := 128 }], time := { milepost := 6400 } }, { src := 0x9, unit := 30, stamp := 64 }, [{ src := 0x1F, unit := 0, stamp := 65 }], [{ src := 1, unit := 0, stamp := 128 }], by decide +kernel⟩,
   ⟨mkS fun d =>
      { (d.setFld (FAULT.SRC_CFG_ACTION 9) 1) with faults := [{ src := 0x1F, unit := 0, stamp := 65 }] ++ { src := 0x9, unit := 30, stamp := 64 } :: [{ src := 1, unit := 0, stamp := 128 }], time := { milepost := 6400 } }, { src := 0x9, unit := 30, stamp := 64 }, [{ src := 0x1F, unit := 0, stamp := 65 }], [{ src := 1, unit := 0, stamp := 128 }], by decide +kernel⟩,
   ⟨mkS fun d =>
      { ((((((d.setFld (LOOP.SLOT_OUT_CFG_TARGET 30) 4).setFld (LOOP.SLOT_OUT_CFG_INDEX 30) 3).setFld (LOOP.CG_CFG_TARGET 3) 1).setFld (LOOP.CG_CFG_INDEX 3) 13)).setFld (FAULT.SRC_CFG_ACTION 0x9) 1) with faults := [{ src := 0x1F, unit := 0, stamp := 65 }] ++ { src := 0x9, unit := 30, stamp := 64 } :: [{ src := 1, unit := 0, stamp := 128 }], time := { milepost := 6400 } }, { src := 0x9, unit := 30, stamp := 64 }, [{ src := 0x1F, unit := 0, stamp := 65 }], [{ src := 1, unit := 0, stamp := 128 }], by decide +kernel⟩,
   ⟨mkS fun d =>
      { (((d.setFld (FAULT.SRC_CFG_FAULT_N 0x11) 1).setFld FAULT.FM_STATUS_FAULT_N_ASSERTED 0)) with faults := [{ src := 0x1F, unit := 0, stamp := 65 }] ++ { src := 0x11, unit := 3, stamp := 64 } :: [{ src := 1, unit := 0, stamp := 128 }], time := { milepost := 6400 } }, { src := 0x11, unit := 3, stamp := 64 }, [{ src := 0x1F, unit := 0, stamp := 65 }], [{ src := 1, unit := 0, stamp := 128 }], by decide +kernel⟩,
   ⟨mkS fun d =>
      { ((d.setFld (FAULT.SRC_CFG_FAULT_N 0x11) 1)) with faults := [{ src := 0x1F, unit := 0, stamp := 65 }] ++ { src := 0x11, unit := 3, stamp := 64 } :: [{ src := 1, unit := 0, stamp := 128 }], time := { milepost := 6400 } }, { src := 0x11, unit := 3, stamp := 64 }, [{ src := 0x1F, unit := 0, stamp := 65 }], [{ src := 1, unit := 0, stamp := 128 }], by decide +kernel⟩,
   ⟨mkS fun d =>
      { ((((d.setFld (CORES.CORE_STATUS_STATE 2) 2).putCore 2 { status := 2 })).setFld (FAULT.SRC_CFG_SILL 0x11) 4) with faults := [{ src := 0x1F, unit := 0, stamp := 65 }] ++ { src := 0x11, unit := 3, stamp := 64 } :: [{ src := 1, unit := 0, stamp := 128 }], time := { milepost := 6400 } }, { src := 0x11, unit := 3, stamp := 64 }, [{ src := 0x1F, unit := 0, stamp := 65 }], [{ src := 1, unit := 0, stamp := 128 }], 2, by decide +kernel⟩,
   ⟨mkS fun d =>
      { ((d).setFld (FAULT.SRC_CFG_SILL 0x11) 4) with faults := [{ src := 0x1F, unit := 0, stamp := 65 }] ++ { src := 0x11, unit := 3, stamp := 64 } :: [{ src := 1, unit := 0, stamp := 128 }], time := { milepost := 6400 } }, { src := 0x11, unit := 3, stamp := 64 }, [{ src := 0x1F, unit := 0, stamp := 65 }], [{ src := 1, unit := 0, stamp := 128 }], 2, by decide +kernel⟩,
   ⟨mkS fun d =>
      { (((d.setFld (CORES.CORE_STATUS_STATE 2) 3).putCore 2 { pc := 0x100, status := 5 }).setFld (FAULT.SRC_CFG_SILL 0x11) 4) with faults := [{ src := 0x1F, unit := 0, stamp := 65 }] ++ { src := 0x11, unit := 3, stamp := 64 } :: [{ src := 1, unit := 0, stamp := 128 }], time := { milepost := 6400 } }, { src := 0x11, unit := 3, stamp := 64 }, [{ src := 0x1F, unit := 0, stamp := 65 }], [{ src := 1, unit := 0, stamp := 128 }], 2, by decide +kernel⟩,
   ⟨mkS fun d =>
      { ((((((d.setFld (CORES.CORE_STATUS_STATE 0) 2).setFld (CORES.CORE_STATUS_STATE 1) 2).setFld (CORES.CORE_STATUS_LOCKSTEP 0) 1).setFld (CORES.CORE_STATUS_LOCKSTEP 1) 1).setFld (FAULT.SRC_CFG_SILL 0x11) 3)) with faults := [{ src := 0x1F, unit := 0, stamp := 65 }] ++ { src := 0x11, unit := 3, stamp := 64 } :: [{ src := 1, unit := 0, stamp := 128 }], time := { milepost := 6400 } }, { src := 0x11, unit := 3, stamp := 64 }, [{ src := 0x1F, unit := 0, stamp := 65 }], [{ src := 1, unit := 0, stamp := 128 }], by decide +kernel⟩,
   ⟨mkS fun d =>
      { (((d.setFld NVM.BOOT_STATUS_STATE 2).setFld FAULT.FM_STATUS_FAULT_N_ASSERTED 0)) with faults := [{ src := 0x1F, unit := 0, stamp := 65 }] ++ { src := 0x3, unit := 0, stamp := 64 } :: [{ src := 1, unit := 0, stamp := 128 }], time := { milepost := 6400 } }, { src := 0x3, unit := 0, stamp := 64 }, [{ src := 0x1F, unit := 0, stamp := 65 }], [{ src := 1, unit := 0, stamp := 128 }], by decide +kernel⟩⟩

/-- The hypotheses of clauses 23 to 29 of FaultOccurrences are met. -/
theorem witness_FaultOccurrences_23 :
    (∃ (s : State) (o : FaultOcc) (l m : List FaultOcc), s.dev.faults = l ++ o :: m ∧ faultFirst o l m = true ∧ o.src < 32 ∧ o.unit < 0x10000 ∧
      floorNs o.stamp ≠ floorNs s.dev.now ∧ s.dev.fld (FAULT.SRC_CFG_ACTION o.src) = 0 ∧ s.dev.fld (FAULT.SRC_CFG_SILL o.src) = 0 ∧
      s.dev.flag (FAULT.SRC_CFG_FAULT_N o.src) = false ∧ o.src = 0x0A ∧ o.unit < 96 ∧ s.dev.fld (WITNESS.WIT_CFG_ACTION o.unit) = 2 ∧
      s.dev.phRole o.unit = 0) ∧
    (∃ (s : State) (o : FaultOcc) (l m : List FaultOcc), s.dev.faults = l ++ o :: m ∧ faultFirst o l m = true ∧ o.src < 32 ∧ o.unit < 0x10000 ∧
      floorNs o.stamp ≠ floorNs s.dev.now ∧ s.dev.fld (FAULT.SRC_CFG_ACTION o.src) = 0 ∧ s.dev.fld (FAULT.SRC_CFG_SILL o.src) = 0 ∧
      s.dev.flag (FAULT.SRC_CFG_FAULT_N o.src) = false ∧ o.src = 0x0A ∧ o.unit < 96 ∧ s.dev.fld (WITNESS.WIT_CFG_ACTION o.unit) = 1 ∧
      s.dev.detourOk (o.unit / 2) = true) ∧
    (∃ (s : State) (o : FaultOcc) (l m : List FaultOcc), s.dev.faults = l ++ o :: m ∧ faultFirst o l m = true ∧ o.src < 32 ∧ o.unit < 0x10000 ∧
      floorNs o.stamp ≠ floorNs s.dev.now ∧ s.dev.fld (FAULT.SRC_CFG_ACTION o.src) = 0 ∧ s.dev.fld (FAULT.SRC_CFG_SILL o.src) = 0 ∧
      s.dev.flag (FAULT.SRC_CFG_FAULT_N o.src) = false ∧ o.src = 0x0A ∧ o.unit < 96 ∧ s.dev.fld (WITNESS.WIT_CFG_ACTION o.unit) = 1 ∧
      s.dev.detourOk (o.unit / 2) = false ∧ s.dev.phRole o.unit = 0) ∧
    (∃ (s : State) (o : FaultOcc) (l m : List FaultOcc), s.dev.faults = l ++ o :: m ∧ faultFirst o l m = true ∧ o.src < 32 ∧ o.unit < 0x10000 ∧
      floorNs o.stamp ≠ floorNs s.dev.now ∧ s.dev.fld (FAULT.SRC_CFG_ACTION o.src) = 0 ∧ s.dev.fld (FAULT.SRC_CFG_SILL o.src) = 0 ∧
      s.dev.flag (FAULT.SRC_CFG_FAULT_N o.src) = false ∧ o.src = 0x07) ∧
    (∃ (s : State) (o : FaultOcc) (l m : List FaultOcc), s.dev.faults = l ++ o :: m ∧ faultFirst o l m = true ∧ o.src < 32 ∧ o.unit < 0x10000 ∧
      floorNs o.stamp ≠ floorNs s.dev.now ∧ s.dev.fld (FAULT.SRC_CFG_ACTION o.src) = 0 ∧ s.dev.fld (FAULT.SRC_CFG_SILL o.src) = 0 ∧
      s.dev.flag (FAULT.SRC_CFG_FAULT_N o.src) = false ∧ o.src = 0x0D ∧ o.unit < 8 ∧ s.dev.flag (PHASE.PH_RAIL_CFG_ON_LOSS o.unit) = true ∧
      (s.dev.grp (grpKey 0x23 o.unit)).st = .idle) ∧
    (∃ (s : State) (o : FaultOcc) (l m : List FaultOcc), s.dev.faults = l ++ o :: m ∧ faultFirst o l m = true ∧ o.src < 32 ∧ o.unit < 0x10000 ∧
      floorNs o.stamp ≠ floorNs s.dev.now ∧ s.dev.fld (FAULT.SRC_CFG_ACTION o.src) = 0 ∧ s.dev.fld (FAULT.SRC_CFG_SILL o.src) = 0 ∧
      s.dev.flag (FAULT.SRC_CFG_FAULT_N o.src) = false ∧ o.src = 0x05 ∧ o.unit < 2) ∧
    (∃ (s : State) (o : FaultOcc) (l m : List FaultOcc), s.dev.faults = l ++ o :: m ∧ faultFirst o l m = true ∧ o.src < 32 ∧ o.unit < 0x10000 ∧
      floorNs o.stamp ≠ floorNs s.dev.now ∧ s.dev.fld (FAULT.SRC_CFG_ACTION o.src) = 0 ∧ s.dev.fld (FAULT.SRC_CFG_SILL o.src) = 0 ∧
      s.dev.flag (FAULT.SRC_CFG_FAULT_N o.src) = false ∧ o.src = 0x0A ∧ o.unit < 96 ∧
      (s.dev.fld (WITNESS.WIT_CFG_ACTION o.unit) = 2 ∨ (s.dev.fld (WITNESS.WIT_CFG_ACTION o.unit) = 1 ∧
      s.dev.detourOk (o.unit / 2) = false) ∨ (s.dev.fld (WITNESS.WIT_CFG_ACTION o.unit) = 0 ∧
      (s.dev.detState (o.unit / 2) = 2 ∨ s.dev.detState (o.unit / 2) = 4)))) :=
  ⟨⟨mkS fun d =>
      { (((d.setFld NVM.BOOT_STATUS_STATE 2).setFld (WITNESS.WIT_CFG_ACTION 70) 2)) with faults := [{ src := 0x1F, unit := 0, stamp := 65 }] ++ { src := 0xA, unit := 70, stamp := 64 } :: [{ src := 1, unit := 0, stamp := 128 }], time := { milepost := 6400 } }, { src := 0xA, unit := 70, stamp := 64 }, [{ src := 0x1F, unit := 0, stamp := 65 }], [{ src := 1, unit := 0, stamp := 128 }], by decide +kernel⟩,
   ⟨mkS fun d =>
      { (((((d.setFld (WITNESS.WIT_CFG_ACTION 70) 1).setFld (WITNESS.DET_CFG_ENABLE 35) 1).setFld (WITNESS.DET_CFG_SPARE 35) 3).setFld (PWM.BANK_STATUS_READY 0) 1)) with faults := [{ src := 0x1F, unit := 0, stamp := 65 }] ++ { src := 0xA, unit := 70, stamp := 64 } :: [{ src := 1, unit := 0, stamp := 128 }], time := { milepost := 6400 } }, { src := 0xA, unit := 70, stamp := 64 }, [{ src := 0x1F, unit := 0, stamp := 65 }], [{ src := 1, unit := 0, stamp := 128 }], by decide +kernel⟩,
   ⟨mkS fun d =>
      { ((d.setFld (WITNESS.WIT_CFG_ACTION 70) 1)) with faults := [{ src := 0x1F, unit := 0, stamp := 65 }] ++ { src := 0xA, unit := 70, stamp := 64 } :: [{ src := 1, unit := 0, stamp := 128 }], time := { milepost := 6400 } }, { src := 0xA, unit := 70, stamp := 64 }, [{ src := 0x1F, unit := 0, stamp := 65 }], [{ src := 1, unit := 0, stamp := 128 }], by decide +kernel⟩,
   ⟨mkS fun d =>
      { ((((((d.setFld NVM.BOOT_STATUS_STATE 2).setFld (LOOP.SLOT_STATUS_RUN 5) 4).setFld (LOOP.SLOT_OUT_CFG_TARGET 5) 1).setFld (LOOP.SLOT_OUT_CFG_INDEX 5) 11))) with faults := [{ src := 0x1F, unit := 0, stamp := 65 }] ++ { src := 0x7, unit := 0, stamp := 64 } :: [{ src := 1, unit := 0, stamp := 128 }], time := { milepost := 6400 }, slots := [(5, { held := some 0 })] }, { src := 0x7, unit := 0, stamp := 64 }, [{ src := 0x1F, unit := 0, stamp := 65 }], [{ src := 1, unit := 0, stamp := 128 }], by decide +kernel⟩,
   ⟨mkS fun d =>
      { ((((((d.setFld (PHASE.PH_MAP_ROLE 95) 1).setFld (PHASE.PH_MAP_RAIL 95) 6).setFld (PHASE.PH_RAIL_CFG_ON_LOSS 6) 1).setFld (PHASE.PH_RAIL_CFG_ENABLE 6) 1).setFld (PHASE.PH_RAIL_STATUS_STATE 6) 1)) with faults := [{ src := 0x1F, unit := 0, stamp := 65 }] ++ { src := 0xD, unit := 6, stamp := 64 } :: [{ src := 1, unit := 0, stamp := 128 }], time := { milepost := 6400 } }, { src := 0xD, unit := 6, stamp := 64 }, [{ src := 0x1F, unit := 0, stamp := 65 }], [{ src := 1, unit := 0, stamp := 128 }], by decide +kernel⟩,
   ⟨mkS fun d =>
      { ((((d.setFld NVM.BOOT_STATUS_STATE 2).setReg (PINMUX.PIN_OWN 17) 0x01000103).setReg PROTECT.HEIR 0x0400FFFF)) with faults := [{ src := 0x1F, unit := 0, stamp := 65 }] ++ { src := 0x5, unit := 1, stamp := 64 } :: [{ src := 1, unit := 0, stamp := 128 }], time := { milepost := 6400 } }, { src := 0x5, unit := 1, stamp := 64 }, [{ src := 0x1F, unit := 0, stamp := 65 }], [{ src := 1, unit := 0, stamp := 128 }], by decide +kernel⟩,
   ⟨mkS fun d =>
      { (((d.setFld NVM.BOOT_STATUS_STATE 2).setFld (WITNESS.DET_STATUS_STATE 35) 2)) with faults := [{ src := 0x1F, unit := 0, stamp := 65 }] ++ { src := 0xA, unit := 70, stamp := 64 } :: [{ src := 1, unit := 0, stamp := 128 }], time := { milepost := 6400 } }, { src := 0xA, unit := 70, stamp := 64 }, [{ src := 0x1F, unit := 0, stamp := 65 }], [{ src := 1, unit := 0, stamp := 128 }], by decide +kernel⟩⟩

/-- The hypotheses of clauses 1 to 8 of FaultCommands are met. -/
theorem witness_FaultCommands_1 :
    (∃ (s : State) (a : Agent) (w : Fin 5) (v : Word), s.dev.takes a.id (FAULT.SAFE_REL w) v = true) ∧
    (∃ (s : State) (a : Agent) (v : Word), s.dev.takes a.id FAULT.FM_CMD v = true ∧ wordBit v 0 = true ∧ wordBit v 1 = false) ∧
    (∃ (s : State) (a : Agent) (v : Word), wordBit v 0 = true ∧ s.dev.sup.tripHeld = true ∧ s.dev.refuses a.id FAULT.FM_CMD v .state = true) ∧
    (∃ (s : State) (a : Agent) (v : Word), s.dev.takes a.id FAULT.FM_CMD v = true ∧ wordBit v 1 = true ∧ wordBit v 0 = false) ∧
    (∃ (s : State), s.dev.flag FAULT.FM_STATUS_FAULT_N_ASSERTED = false ∧ s.dev.fm.extArmed = true ∧ s.dev.due (s.dev.fm.relT + nsT 100) = true) ∧
    (∃ (s : State), (!s.dev.flag FAULT.FM_STATUS_FAULT_N_ASSERTED && s.dev.fm.extArmed && s.dev.due (s.dev.fm.relT + nsT 100)) = false) ∧
    (∃ (s : State), s.dev.flag FAULT.FM_STATUS_FAULT_N_ASSERTED = false) ∧
    (∃ (s : State), s.dev.flag FAULT.FM_STATUS_FAULT_N_ASSERTED = true) :=
  ⟨⟨mkS fun d =>
      { (((d.setReg (FAULT.SAFE_NOW 0) 0x80030001).setReg (PINMUX.PIN_OWN 17) 0x04000008).setFld (PWM.TIM_STATUS_RUN 8) 1) with safeRel := [31] }, .loader, 0, 0x80020003, by decide +kernel⟩,
   ⟨mkS fun d => { (d.setFld NVM.BOOT_STATUS_STATE 2) with fm := { held := true } }, .loader, 1, by decide +kernel⟩,
   ⟨mkS fun d => { d with sup := { tripHeld := true } }, .loader, 1, by decide +kernel⟩,
   ⟨mkS fun d => (d.setNum (FAULT.SRC_COUNT 3) 0x50007).setFld FAULT.FM_STATUS_ACTIONS 9, .loader, 2, by decide +kernel⟩,
   ⟨mkS fun d =>
      { ((d.setFld NVM.BOOT_STATUS_STATE 2).setFld FAULT.FM_STATUS_FAULT_N_ASSERTED 0) with time := { milepost := 6400 } }, by decide +kernel⟩,
   ⟨mkS fun d => d, by decide +kernel⟩,
   ⟨mkS fun d =>
      { { ((d.setFld NVM.BOOT_STATUS_STATE 2).setFld FAULT.FM_STATUS_FAULT_N_ASSERTED 0) with time := { milepost := 6400 } } with fm := { extArmed := false } }, by decide +kernel⟩,
   ⟨mkS fun d => d, by decide +kernel⟩⟩

/-- The hypotheses of clauses 1 to 12 of RailsAndDomains are met. -/
theorem witness_RailsAndDomains_1 :
    (∃ (s : State) (a : Agent) (w : Fin 2) (v : Word) (i : Fin 32), s.dev.takes a.id (SUPPLY.DOM_CTRL_0 + 4 * w.val) v = true ∧
      32 * w.val + i.val < 59 ∧ wordBit (s.dev.reg (SUPPLY.DOM_CTRL_0 + 4 * w.val)) i = true ∧
      s.dev.afterWrite (SUPPLY.DOM_CTRL_0 + 4 * w.val) v = withBits (s.dev.reg (SUPPLY.DOM_CTRL_0 + 4 * w.val)) [(i.val, false)] ∧
      4 ≤ (32 * w.val + i.val) ∧ (32 * w.val + i.val) < 8 ∧ s.dev.lgDram = false ∧ s.dev.sup.ramping = [] ∧ s.dev.sup.rampWait = []) ∧
    (∃ (s : State) (a : Agent) (w : Fin 2) (v : Word) (i : Fin 32), s.dev.takes a.id (SUPPLY.DOM_CTRL_0 + 4 * w.val) v = true ∧
      32 * w.val + i.val < 59 ∧ wordBit (s.dev.reg (SUPPLY.DOM_CTRL_0 + 4 * w.val)) i = false ∧
      s.dev.afterWrite (SUPPLY.DOM_CTRL_0 + 4 * w.val) v = withBits (s.dev.reg (SUPPLY.DOM_CTRL_0 + 4 * w.val)) [(i.val, true)] ∧
      s.dev.sup.rampWait = [] ∧ s.dev.sup.ramping.length < 4) ∧
    (∃ (s : State) (a : Agent) (w : Fin 2) (v : Word) (i : Fin 32), s.dev.takes a.id (SUPPLY.DOM_CTRL_0 + 4 * w.val) v = true ∧
      32 * w.val + i.val < 59 ∧ wordBit (s.dev.reg (SUPPLY.DOM_CTRL_0 + 4 * w.val)) i = false ∧
      s.dev.afterWrite (SUPPLY.DOM_CTRL_0 + 4 * w.val) v = withBits (s.dev.reg (SUPPLY.DOM_CTRL_0 + 4 * w.val)) [(i.val, true)] ∧
      s.dev.sup.rampWait = [] ∧ s.dev.sup.ramping.length = 4) ∧
    (∃ (s : State) (a : Agent) (w : Fin 2) (v : Word), s.dev.refuses a.id (SUPPLY.DOM_CTRL_0 + 4 * w.val) v .state = true ∧
      s.dev.domRefused (SUPPLY.DOM_CTRL_0 + 4 * w.val) v = true) ∧
    (∃ (s : State) (n : Fin 59), s.dev.sup.ramping.contains n.val = true ∧ s.dev.sup.rampWait = [] ∧ (n.val < 4 ∨ n.val = 52 ∨ n.val ≥ 55)) ∧
    (∃ (s : State) (n : Fin 59), s.dev.sup.ramping.contains n.val = true ∧ s.dev.sup.rampWait = [] ∧ 4 ≤ n.val ∧ n.val < 52) ∧
    (∃ (s : State) (n : Fin 59), s.dev.sup.ramping.contains n.val = true ∧ s.dev.sup.rampWait = [] ∧ (n.val = 53 ∨ n.val = 54)) ∧
    (∃ (s : State) (n : Fin 59) (k : Nat), s.dev.sup.ramping.contains n.val = true ∧ s.dev.sup.rampWait = [k] ∧ s.dev.sup.ramping.length ≤ 4) ∧
    (∃ (s : State) (n : Fin 59), s.dev.sup.ramping.contains n.val = false) ∧
    (∃ (s : State) (b : Fin 5) (t : Time), Tab.find b.val s.dev.sup.vioMove = some t) ∧
    (∃ (s : State) (b : Fin 5), Tab.find b.val s.dev.sup.vioMove = none) ∧
    (∃ (s : State) (vin vint vcore vdda v0 v1 v2 v3 v4 : Nat), vin < 0x10000 ∧ vint < 0x10000 ∧ vcore < 0x10000 ∧ vdda < 0x10000 ∧
      v0 < 0x10000 ∧ v1 < 0x10000 ∧ v2 < 0x10000 ∧ v3 < 0x10000 ∧ v4 < 0x10000) :=
  ⟨⟨mkS fun d =>
      { ((d.setReg SUPPLY.DOM_CTRL_0 0xFFFFFFFB).setReg SUPPLY.DOM_STATUS_0 0xFFFFFFFF) with mem := [(0x08100004, 5), (0x08180000, 6)], domUp := [6, 5] }, .loader, 0, 0xFFFFFFBB, 6, by decide +kernel⟩,
   ⟨mkS fun d =>
      { (d.setReg SUPPLY.DOM_CTRL_1 0x05FFFFFF) with sup := { ramping := [1, 2, 3] } }, .loader, 1, 0x07FFFFFF, 25, by decide +kernel⟩,
   ⟨mkS fun d =>
      { (d.setReg SUPPLY.DOM_CTRL_1 0x05FFFFFF) with sup := { ramping := [1, 2, 3, 4] } }, .loader, 1, 0x07FFFFFF, 25, by decide +kernel⟩,
   ⟨mkS fun d => d.setReg (CORES.PAIR_CFG 0) 0xFFFFFFFF, .loader, 0, 0xFFFFFFFE, by decide +kernel⟩,
   ⟨mkS fun d => { d with sup := { ramping := [3, 57] } }, 57, by decide +kernel⟩,
   ⟨mkS fun d => { d with sup := { ramping := [3, 5] }, domUp := [5] }, 5, by decide +kernel⟩,
   ⟨mkS fun d => { d with sup := { ramping := [54, 5] } }, 54, by decide +kernel⟩,
   ⟨mkS fun d => { d with sup := { ramping := [3, 5, 6, 7], rampWait := [9] } }, 5, 9, by decide +kernel⟩,
   ⟨mkS fun d => d, 5, by decide +kernel⟩,
   ⟨mkS fun d => { d.setReg SUPPLY.VIO_CFG 8 with sup := { vioMove := [(3, 7)] } }, 3, 7, by decide +kernel⟩,
   ⟨mkS fun d => d, 3, by decide +kernel⟩,
   ⟨mkS fun d =>
      { d with sup := { railOut := [(5, 3)] }, time := { milepost := 640 } }, 4800, 5200, 750, 1800, 1800, 1800, 1800, 1800, 1800, by decide +kernel⟩⟩

/-- The hypotheses of clauses 13, 14, 15, 17, 18 of RailsAndDomains are met. -/
theorem witness_RailsAndDomains_13 :
    (∃ (s : State) (r : Fin 8) (t : Time), Tab.find r.val s.dev.sup.railOut = some t ∧ s.dev.due (t + nsT 10000) = true ∧
      s.dev.sup.railTold.contains r.val = false) ∧
    (∃ (s : State) (r : Fin 8), (match Tab.find r.val s.dev.sup.railOut with | none => true | some t => !s.dev.due (t + nsT 10000) || s.dev.sup.railTold.contains r.val) = true) ∧
    (∃ (s : State) (tj : Int), s.dev.fld SUPPLY.THERM_CFG_WARN ≤ s.dev.fld SUPPLY.THERM_CFG_TRIP) ∧
    (∃ (s : State) (a : Agent) (v : Word), s.dev.refusalAt a.id SUPPLY.VIO_CFG v = none ∧ s.dev.holdsBack SUPPLY.VIO_CFG v = false ∧
      s.dev.lgRoom = true) ∧
    (∃ (s : State) (a : Agent) (v : Word), s.dev.refusalAt a.id SUPPLY.VIO_CFG v = some .state ∧ s.dev.lgRoom = true) :=
  ⟨⟨mkS fun d => { d with sup := { railOut := [(3, 0)] }, time := { milepost := nsT 10000 } }, 3, 0, by decide +kernel⟩,
   ⟨mkS fun d => d, 3, by decide +kernel⟩,
   ⟨mkS fun d => d, 2000, by decide +kernel⟩,
   ⟨mkS fun d => d, .loader, 9, by decide +kernel⟩,
   ⟨mkS fun d => d.setReg (PINMUX.PIN_OWN 116) 0x02000207, .loader, 9, by decide +kernel⟩⟩

/-- The hypotheses of clauses 1 to 3 of SoftwareRaise are met. -/
theorem witness_SoftwareRaise_1 :
    (∃ (s : State) (a : Agent) (v : Word), s.dev.blkLevel a.id 0x06 = 2 ∧ s.dev.holdsBack JUNCTION.SW_RAISE v = false ∧ s.dev.lgRoom = true ∧
      1256 ≤ bitsOf v.toNat 26 16 ∧ bitsOf v.toNat 26 16 ≤ 1407) ∧
    (∃ (s : State) (a : Agent) (v : Word), s.dev.blkLevel a.id 0x06 = 2 ∧ s.dev.holdsBack JUNCTION.SW_RAISE v = false ∧ s.dev.lgRoom = true ∧
      (bitsOf v.toNat 26 16 < 1256 ∨ 1407 < bitsOf v.toNat 26 16)) ∧
    (∃ (s : State) (r : Raised) (l m : List Raised), s.dev.events = l ++ r :: m ∧ comesFirst r l m = true ∧ r.id < 1536 ∧
      r.stamp ≠ floorNs s.dev.now ∧ s.dev.unheard r.id = true ∧ 1256 ≤ r.id ∧ r.id ≤ 1407 ∧ s.dev.fld (JUNCTION.ROUTE_CORES r.id) = 0 ∧
      wordBit (s.dev.reg (JUNCTION.ROUTE r.id)) 23 = false ∧ wordBit (s.dev.reg (JUNCTION.ROUTE r.id)) 27 = false ∧
      wordBit (s.dev.reg (JUNCTION.ROUTE r.id)) 31 = true ∧
      s.dev.ringTakes ({ ring := s.dev.fld (JUNCTION.ROUTE_RING r.id), typ := 1, event := BitVec.ofNat 16 r.id, agent := r.agent, time := r.stamp, payload := toBytes 2 r.value.toNat } : HostRec) = true) :=
  ⟨⟨mkS fun d => d, .loader, 0x04E81234, by decide +kernel⟩,
   ⟨mkS fun d => d, .loader, 0x00001234, by decide +kernel⟩,
   ⟨mkS fun d =>
      { ((d.setNum (JUNCTION.ROUTE 1300) 0xA0000000).setFld (HOST.RING_CTRL_EN 2) 1) with events := [{ id := 1400, stamp := 64 }, { id := 1300, value := 0x1234, agent := 0x0400, stamp := 64 }, { id := 3, stamp := 128 }], time := { milepost := 6400 } }, { id := 1300, value := 0x1234, agent := 0x0400, stamp := 64 }, [{ id := 1400, stamp := 64 }], [{ id := 3, stamp := 128 }], by decide +kernel⟩⟩

/-- StepRunsFrontCommand: a queue with a command in front, and an empty one. -/
theorem witness_StepRunsFrontCommand :
    (∃ (c : Instr) (l : List Instr) (s : State), s.pending = c :: l) ∧ ∃ s : State, s.pending = [] :=
  ⟨⟨.refEdge 0, [.timeBaseQualified], { pending := [.refEdge 0, .timeBaseQualified] }, rfl⟩, State.reset, rfl⟩

/-- LineSelection: a core that takes a line, and one that takes none. -/
theorem witness_LineSelection :
    (∃ cs : CoreSt, cs.eligible = none) ∧
    ∃ cs : CoreSt, cs.eligible = some 5 :=
  ⟨⟨{}, by decide +kernel⟩,
   { status := 5, sys := [(0x140, 0x20), (0x214, 0x80000003)] }, by decide +kernel⟩

/-- RoundingIsNearest: a magnitude of either format. -/
theorem witness_RoundingIsNearest : ∃ (f : FFmt) (m : Nat), (f = fmtS ∨ f = fmtD) ∧ 0 < m := ⟨fmtS, 3, .inl rfl, by decide⟩

/-- LedgerStaysShown: the state after reset and the step of an empty queue from it. -/
theorem witness_LedgerStaysShown : ∃ s t : State, s.dev.ledgerShown ∧ step s = .next t :=
  ⟨State.reset, _, ⟨by decide +kernel, by decide +kernel, by decide +kernel⟩, rfl⟩

end Sys2Proof.Tests
end

/-! ## The scope of the model (spec/00): the order of times, commands that complete, and register writes -/

namespace Sys2Proof.Machine

/-! ### The order of times (R4) -/

/-- Settles O54: a difference of two times is a number below 2^64, so being nonzero and below 2^63 is lying in R4's range. -/
theorem timestampOrder : Obligations.TimestampOrder := by
  unfold Obligations.TimestampOrder
  intro a b
  have hzero : b - a = 0 ↔ (b - a).toNat = 0 := BitVec.toNat_eq
  simp only [before, Bool.and_eq_true, bne_iff_ne, ne_eq, decide_eq_true_eq, hzero]
  omega

/-! ### Commands that complete -/

/-- Every command answers the state with some device brought to the end of the command: no arm of `exec` stops, and none writes
the queue. -/
theorem exec_eq_settle (c : Instr) (s : State) : ∃ d : Dev, exec c s = .next { s with dev := settle d } := by
  cases c <;> exact ⟨_, rfl⟩

/-- Settles O56: the next state that a command answers differs from the one before it in the device alone. -/
theorem everyCommandCompletes : Obligations.EveryCommandCompletes := by
  unfold Obligations.EveryCommandCompletes
  intro c s
  obtain ⟨d, hd⟩ := exec_eq_settle c s
  exact ⟨_, hd, rfl⟩

/-! ### Held LIVE writes and the Ledger (R49, R59, R60) -/

/-- The device without the held LIVE write `p`. -/
def Dev.unheld (d : Dev) (p : LivePend) : Dev := { d with livePend := d.livePend.erase p }

theorem Dev.admitHeld_eq (d : Dev) (p : LivePend) :
    d.admitHeld p = (d.unheld p).letIn p.agent (.live p.addr p.v) ((d.unheld p).takeHeld p) := rfl

/-- A change of an agent whose records find no place in the Ledger waits (R60). -/
theorem Dev.letIn_of_full {d e : Dev} {agent : AgentId} (w : WaitKind) (ha : agent ≠ devAgent)
    (hf : d.lgFull (e.ordinary - d.ordinary) = true) : d.letIn agent w e = d.stall ⟨agent, w, d.now⟩ :=
  if_pos ⟨ha, hf⟩

theorem Dev.reg_when {f : Dev → Dev} {k : Nat} (d : Dev) {c : Bool} (h : ∀ e : Dev, (f e).reg k = e.reg k) :
    (d.when c f).reg k = d.reg k := by
  cases c
  · rfl
  · exact h d

/-- A change that waits writes only registers of the Ledger (R60). -/
theorem Dev.reg_stall (d : Dev) (w : Waiting) {k : Nat} (hk : k / 0x10000 ≠ 0x01) : (d.stall w).reg k = d.reg k := by
  have hcount : k ≠ LEDGER.LG_STALL_COUNT := by rintro rfl; exact hk (by decide)
  have hstatus : k ≠ LEDGER.LG_STATUS_STALLING.addr := by rintro rfl; exact hk (by decide)
  have hflags : k ≠ LEDGER.LG_FLAGS_STALL.addr := by rintro rfl; exact hk (by decide)
  have hcounted (e : Dev) : ((e.incNum LEDGER.LG_STALL_COUNT).setFld LEDGER.LG_STATUS_STALLING 1).reg k = e.reg k :=
    (Dev.reg_setFld_ne _ hstatus 1).trans (Dev.reg_setReg_ne e hcount _)
  have hflagged (e : Dev) : ((e.setFld LEDGER.LG_FLAGS_STALL 1).raise 1208).reg k = e.reg k := Dev.reg_setFld_ne e hflags 1
  exact (Dev.reg_when _ hflagged).trans (hcounted { d with led := { d.led with waiting := d.led.waiting ++ [w] }, answer := .waits })

/-- A held LIVE write whose record finds no place in the Ledger goes on waiting: no register outside the Ledger and the host rings
changes, the word it names among them (R49, R60). -/
theorem liveFieldApply_reg_of_full {s t : State} {p : LivePend} {k : Nat}
    (hp : s.dev.livePend.find? (fun p => p.addr ≠ LEDGER.LG_CTRL ∧ ¬ s.dev.midOperation p.addr) = some p)
    (ha : p.agent ≠ devAgent)
    (hf : (s.dev.begun.unheld p).lgFull (((s.dev.begun.unheld p).takeHeld p).ordinary - (s.dev.begun.unheld p).ordinary) = true)
    (hk1 : k / 0x10000 ≠ 0x01) (hk7 : k / 0x10000 ≠ 0x07) (ht : exec .liveFieldApply s = .next t) :
    t.dev.reg k = s.dev.reg k := by
  have hstep : exec .liveFieldApply s = s.onDev fun d => d.admitHeld p := by
    refine congrArg (fun d => Host.Outcome.next { s with dev := settle d }) ?_
    change (match s.dev.livePend.find? (fun p => p.addr ≠ LEDGER.LG_CTRL ∧ ¬ s.dev.midOperation p.addr) with
      | some p => s.dev.begun.admitHeld p
      | none => s.dev.begun) = s.dev.begun.admitHeld p
    rw [hp]
  cases hstep.symm.trans ht
  calc (settle (s.dev.begun.admitHeld p)).reg k
      = (s.dev.begun.admitHeld p).reg k := settle_reg _ k hk1 hk7
    _ = ((s.dev.begun.unheld p).stall ⟨p.agent, .live p.addr p.v, s.dev.now⟩).reg k := by
        rw [Dev.admitHeld_eq, Dev.letIn_of_full _ ha hf]; rfl
    _ = s.dev.reg k := Dev.reg_stall _ _ hk1

/-- Refutes O4 in its clause of LIVE_FIELD_APPLY, which does not ask for room in the Ledger. While the Ledger drains to DRAM and an
earlier change waits for its place, the record of a held write of ADC TRUE_CTRL finds none (R59, R60): the word keeps its reset
value, where the clause says that it takes the held one. -/
theorem not_registerWrites : ¬ Obligations.RegisterWrites := by
  unfold Obligations.RegisterWrites
  intro h
  obtain ⟨-, -, -, -, happly⟩ := h { dev :=
    { ({} : Dev).setFld LEDGER.LG_CTRL_TARGET 1 with
      led := { waiting := [{ agent := 0x0400, kind := .write MILEPOST.PACE_STEP 0, since := 0 }] }
      livePend := [{ agent := 0x0400, addr := ADC.TRUE_CTRL 0, v := 1 }] } }
  obtain ⟨t, ht, -, -, htaken, -⟩ := happly { agent := 0x0400, addr := ADC.TRUE_CTRL 0, v := 1 } (by decide +kernel) (by decide)
  have hkept := liveFieldApply_reg_of_full (p := { agent := 0x0400, addr := ADC.TRUE_CTRL 0, v := 1 })
    (k := ADC.TRUE_CTRL 0) (by decide +kernel) (by decide) (by decide +kernel)
    (by decide) (by decide) ht
  rw [hkept] at htaken
  exact absurd htaken (by decide +kernel)

end Sys2Proof.Machine

/-! ## Time (spec/01): the Milepost, its reference and the pace monitor -/

namespace Sys2Proof.Machine

/-! ### What a command makes before its end -/

/-- Between `d` and `e` a command wrote no register word but those at the keys in `l`, raised the events `ids` at the present
nanosecond of `d`, and made the records `rs`; none of them has been entered yet. -/
structure Dev.Makes (d e : Dev) (l ids : List Nat) (rs : List Record) : Prop where
  regs : ∀ k, k ∉ l → e.reg k = d.reg k
  events : e.events = d.events ++ ids.map fun id => { id := id, stamp := floorNs d.now }
  fresh : e.led.fresh = d.led.fresh ++ rs
  chip : e.led.chip = d.led.chip

theorem Dev.sysRec_reg (d : Dev) (a k : Nat) (old : Word) : (d.sysRec a old).reg k = d.reg k := reg_of_regs k rfl

namespace Dev.Makes

variable {d e e' : Dev} {l ids : List Nat} {rs : List Record}

theorem begun (d : Dev) : d.Makes d.begun l [] [] :=
  ⟨fun _ _ => rfl, (List.append_nil _).symm, (List.append_nil _).symm, rfl⟩

/-- A change of units alone. -/
theorem frame (h : d.Makes e l ids rs) (hr : e'.regs = e.regs) (he : e'.events = e.events)
    (hf : e'.led.fresh = e.led.fresh) (hc : e'.led.chip = e.led.chip) : d.Makes e' l ids rs :=
  ⟨fun k hk => (Dev.reg_of_regs k hr).trans (h.regs k hk), he.trans h.events, hf.trans h.fresh, hc.trans h.chip⟩

theorem setReg (h : d.Makes e l ids rs) {a : Nat} (ha : a ∈ l) (v : Word) : d.Makes (e.setReg a v) l ids rs :=
  ⟨fun k hk => (Dev.reg_setReg_ne e (by rintro rfl; exact hk ha) v).trans (h.regs k hk), h.events, h.fresh, h.chip⟩

theorem setNum (h : d.Makes e l ids rs) {a : Nat} (ha : a ∈ l) (n : Nat) : d.Makes (e.setNum a n) l ids rs :=
  h.setReg ha _

theorem setFld (h : d.Makes e l ids rs) {f : Fld} (hf : f.addr ∈ l) (n : Nat) : d.Makes (e.setFld f n) l ids rs :=
  h.setNum hf _

theorem raise (h : d.Makes e l ids rs) (hn : e.now = d.now) (id : Nat) : d.Makes (e.raise id) l (ids ++ [id]) rs := by
  refine ⟨h.regs, ?_, h.fresh, h.chip⟩
  have hraise : (e.raise id).events = e.events ++ [{ id := id, stamp := floorNs d.now }] := by rw [← hn]; rfl
  simp only [hraise, h.events, List.map_append, List.map_cons, List.map_nil, List.append_assoc]

theorem report (h : d.Makes e l ids rs) (src unit : Nat) : d.Makes (e.report src unit) l ids rs := h.frame rfl rfl rfl rfl

/-- A record of one word, with the flags `fl`. -/
theorem logFlags (h : d.Makes e l ids rs) (hn : e.now = d.now) (k : RecKind) (fl : Nat) (o : AgentId) (a : Nat) (new old : Word) :
    d.Makes (e.logRec k fl o a new old) l ids
      (rs ++ [{ wordRecord d.nowNs k 0 o a new old with flags := BitVec.ofNat 8 fl }]) := by
  refine ⟨h.regs, h.events, ?_, h.chip⟩
  have hlog : (e.logRec k fl o a new old).led.fresh
      = e.led.fresh ++ [{ wordRecord d.nowNs k 0 o a new old with flags := BitVec.ofNat 8 fl }] := by
    rw [Dev.nowNs, ← hn]; rfl
  rw [hlog, h.fresh, List.append_assoc]

/-- A record of one word outside a commit (R55). -/
theorem logRec (h : d.Makes e l ids rs) (hn : e.now = d.now) (k : RecKind) (fl : Nat) (o : AgentId) (a : Nat) (new old : Word) :
    d.Makes (e.logRec k (3 + fl) o a new old) l ids (rs ++ [wordRecord d.nowNs k fl o a new old]) :=
  h.logFlags hn k (3 + fl) o a new old

theorem sysRec (h : d.Makes e l ids rs) (hn : e.now = d.now) (a : Nat) (old : Word) :
    d.Makes (e.sysRec a old) l ids (rs ++ [wordRecord d.nowNs .system 0 0x0600 a (e.reg a) old]) :=
  h.logRec hn .system 0 0x0600 a (e.reg a) old

theorem rejectRec (h : d.Makes e l ids rs) (hn : e.now = d.now) (o : AgentId) (a : Nat) (new old : Word) (c : Cause) :
    d.Makes (e.rejectRec o a new old c) l ids (rs ++ [wordRecord d.nowNs .reject (16 * c.code) o a new old]) :=
  (h.logRec hn .reject (16 * c.code) o a new old).frame rfl rfl rfl rfl

/-- The two records of a 64-bit register (R7). -/
theorem recPair (h : d.Makes e l ids rs) (hn : e.now = d.now) (k : RecKind) (fl : Nat) (o : AgentId) (a : Nat) (new old : DWord) :
    ∃ r₁ r₂, d.Makes (e.recPair k fl o a new old) l ids (rs ++ [r₁] ++ [r₂]) :=
  ⟨_, _, (h.logFlags hn k (1 + fl) o a _ _).logFlags hn k (2 + fl) o (a + 4) _ _⟩

/-- The Ledger's target stays where LG_CTRL is not written. -/
theorem lgDram (h : d.Makes e l ids rs) (hl : LEDGER.LG_CTRL ∉ l) : e.lgDram = d.lgDram := by
  simp only [Dev.lgDram, Dev.fld_of_reg (g := LEDGER.LG_CTRL_TARGET) (h.regs _ hl)]

end Dev.Makes

/-! ### What the end of a command leaves of it -/

/-- Events are only added while the records of a change are entered, whatever records it made. -/
theorem enterRun_events (d : Dev) (u : List Record) : d.events <+: (d.enterRun u).events := by
  have henter : d.events <+: (u.foldl Dev.enter d).events := by
    induction u generalizing d with
    | nil => exact List.prefix_refl _
    | cons r u ih => exact (enter_record d r).2.2.trans (ih _)
  have heq : (d.enterRun u).events = (u.foldl Dev.enter d).events := (apply_ite Dev.events _ _ _).trans (ite_self _)
  rwa [heq]

/-- The events raised by a command are on their way at its end (R396). -/
theorem settle_events (d : Dev) : d.events <+: (settle d).events := by
  have hruns : ∀ (us : List (List Record)) (e : Dev), e.events <+: (us.foldl Dev.enterRun e).events := by
    intro us
    induction us with
    | nil => exact fun e => List.prefix_refl _
    | cons u us ih => exact fun e => (enterRun_events e u).trans (ih _)
  exact ((hruns _ { d with led := { d.led with fresh := [] } }).trans (Mirrors.persist _ _).events).trans (settle_tail d).2.2

theorem settle_fld (d : Dev) (f : Fld) (h1 : f.addr / 0x10000 ≠ 0x01) (h7 : f.addr / 0x10000 ≠ 0x07) :
    (settle d).fld f = d.fld f :=
  Dev.fld_of_reg (settle_reg d f.addr h1 h7)

theorem settle_flag (d : Dev) (f : Fld) (h1 : f.addr / 0x10000 ≠ 0x01) (h7 : f.addr / 0x10000 ≠ 0x07) :
    (settle d).flag f = d.flag f := by
  simp only [Dev.flag, settle_fld d f h1 h7]

theorem settle_num (d : Dev) (k : Nat) (h1 : k / 0x10000 ≠ 0x01) (h7 : k / 0x10000 ≠ 0x07) : (settle d).num k = d.num k :=
  congrArg BitVec.toNat (settle_reg d k h1 h7)

theorem settle_halfR (d : Dev) : (settle d).halfR = d.halfR := by have h := congrArg Dev.halfR (settles d).units; exact h
theorem settle_halfW (d : Dev) : (settle d).halfW = d.halfW := by have h := congrArg Dev.halfW (settles d).units; exact h

namespace Dev.Makes

variable {d e : Dev} {l ids : List Nat} {rs : List Record}

theorem settle_keepsRegs (h : d.Makes e l ids rs) : d.keepsRegs (settle e) l :=
  Machine.settle_keepsRegs fun k hk _ _ => h.regs k hk

theorem settle_raised (h : d.Makes e l ids rs) : d.raised (settle e) ids := by
  unfold Dev.raised
  rw [← h.events]
  exact settle_events e

theorem settle_noRecord (h : d.Makes e l ids []) (hl : LEDGER.LG_NEXT_SEQ ∉ l) : d.noRecord (settle e) := by
  intro hd
  obtain ⟨hchip, hnext, -⟩ := settle_none (d := e) (by rw [h.fresh, hd]; rfl)
  exact ⟨by rw [hchip, h.chip], hnext.trans (h.regs _ hl)⟩

theorem settle_oneRecord {r : Record} (h : d.Makes e l ids [r]) (hl : LEDGER.LG_NEXT_SEQ ∉ l) : d.oneRecord (settle e) r := by
  intro hd
  obtain ⟨hchip, hnext, -⟩ := settle_one (d := e) (r := r) (by rw [h.fresh, hd]; rfl)
  refine ⟨?_, by rw [hnext, h.regs _ hl]⟩
  rw [hchip, Dev.withRun, Dev.withRun, h.chip, h.regs _ hl]

/-- The units that a command leaves are those at its end; `d₀` is the device before it with the units that it changed. -/
theorem settle_keepsUnits {d₀ : Dev} (h : d.Makes e l ids rs) (hl : LEDGER.LG_CTRL ∉ l) (h₀ : d₀.regs = d.regs)
    (hu : d₀.keepsUnits e) : d₀.keepsUnits (settle e) := by
  refine Machine.settle_keepsUnits hu ((h.lgDram hl).trans ?_)
  simp only [Dev.lgDram, Dev.fld_of_regs LEDGER.LG_CTRL_TARGET h₀]

/-- The same for a command that changed the time base to `t`. -/
theorem settle_keepsUnits_of_time {t : Timebase} (h : d.Makes e l ids rs) (hl : LEDGER.LG_CTRL ∉ l) (ht : e.time = t)
    (hu : { d with time := t }.keepsUnits e) : { d with time := (settle e).time }.keepsUnits (settle e) := by
  rw [settle_time, ht]
  exact h.settle_keepsUnits hl rfl hu

/-- The same for a command that changed the time base. -/
theorem settle_keepsUnits_time (h : d.Makes e l ids rs) (hl : LEDGER.LG_CTRL ∉ l) (hu : { d with time := e.time }.keepsUnits e) :
    { d with time := (settle e).time }.keepsUnits (settle e) :=
  h.settle_keepsUnits_of_time hl rfl hu

end Dev.Makes

/-- What words, records and events alone are added to what keeps the units. -/
theorem Dev.keepsUnits.of_rest {d e e' : Dev} (h : d.keepsUnits e) (he : e' = e.rest e') (hm : e'.mem = e.mem) : d.keepsUnits e' :=
  ⟨he.trans (congrArg (fun x => x.rest e') h.1), fun hl => hm.trans (h.2 hl)⟩

theorem Dev.keepsUnits.setReg {d e : Dev} (h : d.keepsUnits e) (a : Nat) (v : Word) : d.keepsUnits (e.setReg a v) := h.of_rest rfl rfl

theorem Dev.keepsUnits.setFld {d e : Dev} (h : d.keepsUnits e) (f : Fld) (n : Nat) : d.keepsUnits (e.setFld f n) := h.of_rest rfl rfl

theorem Dev.keepsUnits.raise {d e : Dev} (h : d.keepsUnits e) (id : Nat) : d.keepsUnits (e.raise id) := h.of_rest rfl rfl

theorem Dev.keepsUnits.sysRec {d e : Dev} (h : d.keepsUnits e) (a : Nat) (old : Word) : d.keepsUnits (e.sysRec a old) :=
  h.of_rest rfl rfl

theorem Dev.keepsUnits.report {d e : Dev} (h : d.keepsUnits e) (src unit : Nat) :
    { d with faults := (e.report src unit).faults }.keepsUnits (e.report src unit) :=
  ⟨congrArg (fun x : Dev => { x with faults := (e.report src unit).faults }) h.1, h.2⟩

/-- The time base of both set to `t`. -/
theorem Dev.keepsUnits.setTime {d e : Dev} {u : Timebase} (h : { d with time := u }.keepsUnits e) (t : Timebase) :
    { d with time := t }.keepsUnits { e with time := t } :=
  ⟨congrArg (fun x : Dev => { x with time := t }) h.1, h.2⟩

theorem Dev.when_of_true (d : Dev) {c : Bool} (h : c = true) (f : Dev → Dev) : d.when c f = f d := if_pos h
theorem Dev.when_of_false (d : Dev) {c : Bool} (h : c = false) (f : Dev → Dev) : d.when c f = d := if_neg (ne_true_of_eq_false h)

/-- A command completes with what holds once its effect on the device, worked out as `e`, is brought to the end of the command. -/
theorem does_of_effect {c : Instr} {s : State} {e e' : Dev} {P : Dev → Prop} (hc : exec c s = .next { s with dev := settle e' })
    (he : e' = e) (hp : P (settle e)) : Does c s P :=
  ⟨_, hc, rfl, he ▸ hp⟩

/-! ### Fields after a write -/

namespace Dev

theorem fld_setFld_of_lt (d : Dev) (f : Fld) (n : Nat) (h : f.lo ≤ f.hi) (hw : f.hi < 32) (hn : n < 2 ^ (f.hi + 1 - f.lo)) :
    (d.setFld f n).fld f = n :=
  (fld_setFld_self d f n h hw).trans (Nat.mod_eq_of_lt hn)

/-- A flag reads as it was written. -/
theorem flag_setFld_b2n (d : Dev) (f : Fld) (b : Bool) (h : f.lo ≤ f.hi) (hw : f.hi < 32) : (d.setFld f (b2n b)).flag f = b := by
  have hpos : 1 < 2 ^ (f.hi + 1 - f.lo) := Nat.one_lt_two_pow (by omega)
  have hb : b2n b < 2 ^ (f.hi + 1 - f.lo) := lt_of_le_of_lt (by cases b <;> decide) hpos
  rw [flag, fld_setFld_of_lt d f _ h hw hb]
  cases b <;> rfl

theorem flag_setFld_one (d : Dev) (f : Fld) (h : f.lo ≤ f.hi) (hw : f.hi < 32) : (d.setFld f 1).flag f = true :=
  flag_setFld_b2n d f true h hw

/-- A flag of another word, or of other bits of the same word, reads as before. -/
theorem flag_setFld_ne (d : Dev) (f g : Fld) (n : Nat) (h : f.lo ≤ f.hi) (hw : g.hi < 32)
    (hd : g.addr ≠ f.addr ∨ g.hi < f.lo ∨ f.hi < g.lo) : (d.setFld f n).flag g = d.flag g := by
  simp only [flag, fld_setFld_ne d f g n h hw hd]

end Dev

/-! ### The reference is lost and comes back (R17, R19, R20) -/

namespace Dev

theorem refLost_time (d : Dev) : d.refLost.time = { d.time with holdStart := d.now, qualSince := none } := rfl
theorem refLost_faults (d : Dev) : d.refLost.faults = d.faults ++ [{ src := 1, unit := 0, stamp := d.nowNs }] := rfl
/-- A return before its record: the words, the time base and event 2. -/
def returnReported (d : Dev) : Dev :=
  ({ (d.setFld MILEPOST.MP_STATUS_REF_STATE 1).setFld MILEPOST.MP_FLAGS_REF_RETURNED 1 with time := d.refReturn.time } : Dev).raise 2

theorem refReturn_eq (d : Dev) : d.refReturn = d.returnReported.sysRec MILEPOST.MP_STATUS (d.reg MILEPOST.MP_STATUS) := rfl

theorem keepsUnits.refReturn {d e : Dev} (h : d.keepsUnits e) : { d with time := e.refReturn.time }.keepsUnits e.refReturn := by
  have hwords : d.keepsUnits ((e.setFld MILEPOST.MP_STATUS_REF_STATE 1).setFld MILEPOST.MP_FLAGS_REF_RETURNED 1) :=
    (h.setFld _ 1).setFld _ 1
  exact ((hwords.setTime e.refReturn.time).raise 2).sysRec _ _

theorem refReturn_time (d : Dev) : d.refReturn.time = { d.time with lockedSince := d.now, qualSince := none } := rfl

/-- The words that a loss writes. -/
def lossWords (d : Dev) : Dev :=
  ((d.setFld MILEPOST.MP_STATUS_REF_STATE 2).setFld MILEPOST.MP_FLAGS_REF_LOST 1).setNum MILEPOST.MP_HOLD_TIME 0

theorem refLost_regs (d : Dev) : d.refLost.regs = d.lossWords.regs := rfl

/-- A loss before its record: the words, the time base, event 1 and the report of source 1. -/
def lossReported (d : Dev) : Dev := (({ d.lossWords with time := d.refLost.time } : Dev).raise 1).report 1 0

theorem refLost_eq (d : Dev) : d.refLost = d.lossReported.sysRec MILEPOST.MP_STATUS (d.reg MILEPOST.MP_STATUS) := rfl

theorem keepsUnits.refLost {d e : Dev} (h : d.keepsUnits e) :
    { d with time := e.refLost.time, faults := e.refLost.faults }.keepsUnits e.refLost := by
  have hwords : d.keepsUnits e.lossWords := ((h.setFld _ 2).setFld _ 1).setReg _ _
  have htime : { d with time := e.refLost.time }.keepsUnits { e.lossWords with time := e.refLost.time } := hwords.setTime _
  exact ((htime.raise 1).report 1 0).sysRec _ _

theorem refLost_refState (d : Dev) : d.refLost.refState = 2 := by
  have hstate : (d.setFld MILEPOST.MP_STATUS_REF_STATE 2).fld MILEPOST.MP_STATUS_REF_STATE = 2 :=
    fld_setFld_of_lt _ _ _ (by decide) (by decide) (by decide)
  rw [refState, fld_of_regs _ d.refLost_regs, lossWords, setNum, fld_setReg_ne _ (by decide),
    fld_setFld_ne _ _ _ _ (by decide) (by decide) (by decide), hstate]

theorem refLost_flag (d : Dev) : d.refLost.flag MILEPOST.MP_FLAGS_REF_LOST = true := by
  rw [flag, fld_of_regs _ d.refLost_regs, lossWords, setNum, fld_setReg_ne _ (by decide)]
  exact flag_setFld_one _ _ (by decide) (by decide)

theorem refLost_holdTime (d : Dev) : d.refLost.num MILEPOST.MP_HOLD_TIME = 0 := by
  rw [num, reg_of_regs _ d.refLost_regs]
  exact num_setNum _ MILEPOST.MP_HOLD_TIME 0 (by decide)

theorem refReturn_refState (d : Dev) : d.refReturn.refState = 1 :=
  (fld_setFld_ne (d.setFld MILEPOST.MP_STATUS_REF_STATE 1) MILEPOST.MP_FLAGS_REF_RETURNED MILEPOST.MP_STATUS_REF_STATE 1
    (by decide) (by decide) (by decide)).trans (fld_setFld_of_lt d _ 1 (by decide) (by decide) (by decide))

theorem refReturn_flag (d : Dev) : d.refReturn.flag MILEPOST.MP_FLAGS_REF_RETURNED = true :=
  flag_setFld_one (d.setFld MILEPOST.MP_STATUS_REF_STATE 1) MILEPOST.MP_FLAGS_REF_RETURNED (by decide) (by decide)

/-- The SYSTEM record of a new reference state (R17): MP_STATUS as `e` shows it, against the word `old`. -/
def refRecord (d e : Dev) (old : Word) : Record :=
  wordRecord d.nowNs .system 0 0x0600 MILEPOST.MP_STATUS (e.reg MILEPOST.MP_STATUS) old

namespace Makes

variable {d e : Dev} {l : List Nat} {rs : List Record}

/-- A loss writes three words, raises event 1 and makes the record of MP_STATUS (R17). -/
theorem refLost (h : d.Makes e l [] rs) (hn : e.now = d.now) (hs : MILEPOST.MP_STATUS ∈ l) (hf : MILEPOST.MP_FLAGS ∈ l)
    (ht : MILEPOST.MP_HOLD_TIME ∈ l) :
    d.Makes e.refLost l [1] (rs ++ [d.refRecord e.refLost (e.reg MILEPOST.MP_STATUS)]) := by
  have hwords : d.Makes e.lossWords l [] rs :=
    ((h.setFld (f := MILEPOST.MP_STATUS_REF_STATE) hs 2).setFld (f := MILEPOST.MP_FLAGS_REF_LOST) hf 1).setNum ht 0
  have htime : d.Makes { e.lossWords with time := e.refLost.time } l [] rs := hwords.frame rfl rfl rfl rfl
  have hreported : d.Makes e.lossReported l [1] rs := (htime.raise hn 1).report 1 0
  rw [refRecord, refLost_eq, sysRec_reg]
  exact hreported.sysRec hn MILEPOST.MP_STATUS (e.reg MILEPOST.MP_STATUS)

/-- A return writes two words, raises event 2 and makes the record of MP_STATUS (R19, R20). -/
theorem refReturn (h : d.Makes e l [] rs) (hn : e.now = d.now) (hs : MILEPOST.MP_STATUS ∈ l) (hf : MILEPOST.MP_FLAGS ∈ l) :
    d.Makes e.refReturn l [2] (rs ++ [d.refRecord e.refReturn (e.reg MILEPOST.MP_STATUS)]) := by
  have hwords := (h.setFld (f := MILEPOST.MP_STATUS_REF_STATE) hs 1).setFld (f := MILEPOST.MP_FLAGS_REF_RETURNED) hf 1
  have htime : d.Makes { (e.setFld MILEPOST.MP_STATUS_REF_STATE 1).setFld MILEPOST.MP_FLAGS_REF_RETURNED 1 with
      time := e.refReturn.time } l [] rs := hwords.frame rfl rfl rfl rfl
  have hreported : d.Makes e.returnReported l [2] rs := htime.raise hn 2
  rw [refRecord, refReturn_eq, sysRec_reg]
  exact hreported.sysRec hn MILEPOST.MP_STATUS (e.reg MILEPOST.MP_STATUS)

end Makes

end Dev

/-- The time base set to `t`, and REF_STATE shown as `n`. -/
def Dev.showState (d : Dev) (t : Timebase) (n : Nat) : Dev := ({ d with time := t } : Dev).setFld MILEPOST.MP_STATUS_REF_STATE n

theorem Dev.Makes.showState (d : Dev) (t : Timebase) (n : Nat) : d.Makes (d.begun.showState t n) [MILEPOST.MP_STATUS] [] [] := by
  have htime : d.Makes { d.begun with time := t } [MILEPOST.MP_STATUS] [] [] := (Dev.Makes.begun d).frame rfl rfl rfl rfl
  exact htime.setFld (by decide) n

/-- A command that only shows a reference state leaves all else as it was, and makes no record. -/
theorem settle_showState (d : Dev) (t : Timebase) {n : Nat} (hn : n < 8) :
    let e := settle (d.begun.showState t n)
    e.time = t ∧ e.refState = n ∧ d.keepsRegs e [MILEPOST.MP_STATUS] ∧ { d with time := e.time }.keepsUnits e ∧ d.noRecord e := by
  have hm := Dev.Makes.showState d t n
  refine ⟨settle_time _, ?_, hm.settle_keepsRegs, hm.settle_keepsUnits_time (by decide) ⟨rfl, fun _ => rfl⟩,
    hm.settle_noRecord (by decide)⟩
  exact (settle_fld _ _ (by decide) (by decide)).trans (Dev.fld_setFld_of_lt _ _ n (by decide) (by decide) hn)

/-- A loss, whatever the time base counted before it (R17). -/
theorem settle_refLost (d : Dev) {t : Timebase} (ht : t.milepost = d.now) :
    let e := settle ({ d.begun with time := t } : Dev).refLost
    e.time = { t with holdStart := d.now, qualSince := none } ∧ e.refState = 2 ∧
    e.flag MILEPOST.MP_FLAGS_REF_LOST = true ∧ e.num MILEPOST.MP_HOLD_TIME = 0 ∧ d.raised e [1] ∧
    e.faults = d.faults ++ [{ src := 1, unit := 0, stamp := d.nowNs }] ∧
    d.oneRecord e (d.refRecord e (d.reg MILEPOST.MP_STATUS)) ∧
    d.keepsRegs e [MILEPOST.MP_STATUS, MILEPOST.MP_FLAGS, MILEPOST.MP_HOLD_TIME] ∧
    { d with time := e.time, faults := e.faults }.keepsUnits e := by
  have hnow : ({ d.begun with time := t } : Dev).now = d.now := ht
  have htime : d.Makes { d.begun with time := t } [MILEPOST.MP_STATUS, MILEPOST.MP_FLAGS, MILEPOST.MP_HOLD_TIME] [] [] :=
    (Dev.Makes.begun d).frame rfl rfl rfl rfl
  have hunits : { d with time := t }.keepsUnits { d.begun with time := t } := ⟨rfl, fun _ => rfl⟩
  have hm := htime.refLost hnow (by decide) (by decide) (by decide)
  refine ⟨?_, ?_, ?_, ?_, hm.settle_raised, ?_, ?_, hm.settle_keepsRegs, ?_⟩
  · rw [settle_time, Dev.refLost_time, hnow]
  · exact (settle_fld _ _ (by decide) (by decide)).trans (Dev.refLost_refState _)
  · exact (settle_flag _ _ (by decide) (by decide)).trans (Dev.refLost_flag _)
  · exact (settle_num _ _ (by decide) (by decide)).trans (Dev.refLost_holdTime _)
  · rw [settle_faults, Dev.refLost_faults, Dev.nowNs, hnow]; rfl
  · rw [Dev.refRecord, settle_reg _ _ (by decide) (by decide)]
    exact hm.settle_oneRecord (by decide)
  · rw [settle_time, settle_faults]
    exact hm.settle_keepsUnits (by decide) rfl hunits.refLost

/-- A return from what a command has done before it: no event, and the records `rs` (R19, R20). -/
theorem settle_refReturn {d e : Dev} {l : List Nat} {rs : List Record} (h : d.Makes e l [] rs) (hs : MILEPOST.MP_STATUS ∈ l)
    (hf : MILEPOST.MP_FLAGS ∈ l) (hl : LEDGER.LG_CTRL ∉ l) (ht : e.time = d.time) (hu : d.keepsUnits e) :
    let e' := settle e.refReturn
    e'.refState = 1 ∧ e'.flag MILEPOST.MP_FLAGS_REF_RETURNED = true ∧ d.raised e' [2] ∧
    e'.time = { d.time with lockedSince := d.now, qualSince := none } ∧ d.keepsRegs e' l ∧
    { d with time := e'.time }.keepsUnits e' := by
  have hm := h.refReturn (congrArg Timebase.milepost ht) hs hf
  refine ⟨?_, ?_, hm.settle_raised, ?_, hm.settle_keepsRegs, hm.settle_keepsUnits_time hl hu.refReturn⟩
  · exact (settle_fld _ _ (by decide) (by decide)).trans (Dev.refReturn_refState _)
  · exact (settle_flag _ _ (by decide) (by decide)).trans (Dev.refReturn_flag _)
  · rw [settle_time, Dev.refReturn_time, Dev.now, ht]; rfl

/-! ### The commands of the reference (R16 to R20) -/

/-- What a qualification of 1 ms does (R19, R20). -/
def Dev.qualified (d : Dev) : Dev :=
  if d.refState = 4 then d.refReturn
  else if d.refState = 2 then
    if (d.showState d.time 3).flag MILEPOST.MP_CTRL_AUTO_RETURN then (d.showState d.time 3).refReturn else d.showState d.time 3
  else d

theorem exec_refQualified {s : State} {t : Time} (hqual : s.dev.time.qualSince = some t) (hdue : s.dev.due (t + nsT 1000000) = true) :
    exec .refQualified s = .next { s with dev := settle s.dev.begun.qualified } := by
  refine congrArg (fun d => Host.Outcome.next { s with dev := settle d }) ?_
  dsimp only
  split
  case h_1 hnone => exact absurd (hqual.symm.trans hnone) (by simp)
  case h_2 u hsome =>
    obtain rfl : t = u := Option.some.inj (hqual.symm.trans hsome)
    have hnot : (!s.dev.begun.due (t + nsT 1000000)) ≠ true := by rw [show s.dev.begun.due _ = true from hdue]; decide
    exact if_neg hnot

theorem showState_autoReturn (d : Dev) (t : Timebase) (n : Nat) :
    (d.showState t n).flag MILEPOST.MP_CTRL_AUTO_RETURN = d.flag MILEPOST.MP_CTRL_AUTO_RETURN :=
  Dev.flag_setFld_ne _ MILEPOST.MP_STATUS_REF_STATE _ _ (by decide) (by decide) (by decide)

theorem Dev.qualified_of_free {d : Dev} (h : d.refState = 4) : d.qualified = d.refReturn := if_pos h

theorem Dev.qualified_of_holdover {d : Dev} (h : d.refState = 2) :
    d.qualified = if d.flag MILEPOST.MP_CTRL_AUTO_RETURN then (d.showState d.time 3).refReturn else d.showState d.time 3 := by
  rw [Dev.qualified, if_neg (by omega), if_pos h, showState_autoReturn]

/-- Settles O1: each command of the reference either shows a state, starts the qualification, loses the reference or takes it back,
and the end of a command keeps all of it. -/
theorem referenceCommands : Obligations.ReferenceCommands := by
  unfold Obligations.ReferenceCommands
  intro s
  refine ⟨?_, ?_, ?_, ?_, ?_, ?_, ?_, ?_, ?_⟩
  · intro hstopped
    exact does_of_effect rfl (if_pos (by rw [Bool.not_eq_true']; exact hstopped)) (settle_showState s.dev _ (by decide))
  · intro hstopped
    exact does_of_effect rfl (if_pos (by rw [Bool.not_eq_true']; exact hstopped)) (settle_showState s.dev _ (by decide))
  · intro hlocked hdue
    have hm : s.dev.Makes (s.dev.begun.setFld MILEPOST.MP_STATUS_BACKUP_TRAINED 1) [MILEPOST.MP_STATUS] [] [] :=
      (Dev.Makes.begun s.dev).setFld (by decide) 1
    refine does_of_effect rfl (if_pos (Bool.and_eq_true_iff.mpr ⟨decide_eq_true hlocked, hdue⟩)) ⟨?_, ?_, hm.settle_keepsRegs,
      hm.settle_keepsUnits (by decide) rfl ⟨rfl, fun _ => rfl⟩, hm.settle_noRecord (by decide)⟩
    · exact (settle_flag _ _ (by decide) (by decide)).trans (Dev.flag_setFld_one _ _ (by decide) (by decide))
    · exact (settle_fld _ _ (by decide) (by decide)).trans
        ((Dev.fld_setFld_ne _ _ _ _ (by decide) (by decide) (by decide)).trans hlocked)
  · intro ppb hstate hqual hok
    have hm : s.dev.Makes { s.dev.begun with time := { s.dev.time with lastEdge := s.dev.now, qualSince := some s.dev.now } } [] [] [] :=
      (Dev.Makes.begun s.dev).frame rfl rfl rfl rfl
    have hrun : s.dev.begun.refState ≠ 0 := by rcases hstate with h | h <;> exact ne_of_eq_of_ne h (by decide)
    refine does_of_effect rfl ((if_pos (decide_eq_true hrun)).trans ((if_neg (Nat.not_lt.mpr hok)).trans (if_pos ⟨hstate, hqual⟩)))
      ⟨settle_time _, hm.settle_keepsRegs, hm.settle_keepsUnits_time (by decide) ⟨rfl, fun _ => rfl⟩, hm.settle_noRecord (by decide)⟩
  · intro ppb hlocked hoff
    have hrun : s.dev.begun.refState ≠ 0 := ne_of_eq_of_ne hlocked (by decide)
    refine does_of_effect rfl ((if_pos (decide_eq_true hrun)).trans ((if_pos hoff).trans (if_pos hlocked))) ?_
    exact settle_refLost s.dev rfl
  · intro hlocked hdue
    have hrun : s.dev.begun.refState ≠ 0 := ne_of_eq_of_ne hlocked (by decide)
    refine does_of_effect rfl ((if_pos (Bool.and_eq_true_iff.mpr ⟨decide_eq_true hrun, hdue⟩)).trans (if_pos hlocked)) ?_
    exact settle_refLost s.dev (t := s.dev.time) rfl
  · intro t hqual hdue hfree
    have hb : s.dev.Makes s.dev.begun [MILEPOST.MP_STATUS, MILEPOST.MP_FLAGS] [] [] := Dev.Makes.begun s.dev
    obtain ⟨hstate, hflag, hraised, htime, hregs, hunits⟩ :=
      settle_refReturn hb (by decide) (by decide) (by decide) rfl ⟨rfl, fun _ => rfl⟩
    refine does_of_effect (exec_refQualified hqual hdue) (Dev.qualified_of_free hfree)
      ⟨hstate, hflag, hraised, htime, ?_, hregs, hunits⟩
    rw [settle_reg _ _ (by decide) (by decide)]
    exact (hb.refReturn rfl (by decide) (by decide)).settle_oneRecord (by decide)
  · intro t hqual hdue hhold hauto
    obtain ⟨htime, hstate, hregs, hunits, hrec⟩ := settle_showState s.dev s.dev.time (n := 3) (by decide)
    rw [htime] at hunits
    have hstay : s.dev.begun.flag MILEPOST.MP_CTRL_AUTO_RETURN ≠ true := by
      rw [show s.dev.begun.flag MILEPOST.MP_CTRL_AUTO_RETURN = false from hauto]; decide
    exact does_of_effect (exec_refQualified hqual hdue) ((Dev.qualified_of_holdover (d := s.dev.begun) hhold).trans (if_neg hstay))
      ⟨hstate, htime, hregs, hunits, hrec⟩
  · intro t hqual hdue hhold hauto
    have hm : s.dev.Makes (s.dev.begun.showState s.dev.time 3) [MILEPOST.MP_STATUS, MILEPOST.MP_FLAGS] [] [] :=
      (Dev.Makes.begun s.dev).setFld (by decide) 3
    exact does_of_effect (exec_refQualified hqual hdue) ((Dev.qualified_of_holdover (d := s.dev.begun) hhold).trans (if_pos hauto))
      (settle_refReturn hm (by decide) (by decide) (by decide) rfl ⟨rfl, fun _ => rfl⟩)

/-! ### A write of a register word that is taken (R49, R51, R59) -/

/-- The parts of `takes`: the word is plain and asks for its action, nothing refuses it, it is at its safe point, and its records find
room. -/
structure Dev.TakesAt (d : Dev) (agent : AgentId) (h : RegHit) (a : Nat) (v : Word) : Prop where
  hit : regHit a = some h
  plain : plainWord a h = true
  acts : noAction h a v.toNat = false
  allowed : d.writeRefusal agent h a v.toNat = none
  safe : d.holdsBack a v = false
  room : d.lgRoom = true

theorem Dev.takesAt_of_takes {d : Dev} {agent : AgentId} {h : RegHit} {a : Nat} {v : Word} (hit : regHit a = some h)
    (ht : d.takes agent a v = true) : d.TakesAt agent h a v := by
  simp only [Dev.takes, hit, Bool.and_eq_true, Bool.not_eq_true', Option.isNone_iff_eq_none] at ht
  obtain ⟨⟨⟨⟨plain, acts⟩, allowed⟩, safe⟩, room⟩ := ht
  exact ⟨hit, plain, acts, allowed, safe, room⟩

/-- A plain word is written as its register's table says. -/
theorem Dev.regTry_of_plain {d : Dev} {agent : AgentId} {h : RegHit} {a : Nat} {v : Word} (hit : regHit a = some h)
    (hp : plainWord a h = true) : d.regTry agent a v = d.writeWord agent h a v := by
  simp only [plainWord, Bool.and_eq_true, Bool.not_eq_true', decide_eq_true_eq] at hp
  obtain ⟨⟨⟨⟨⟨⟨⟨⟨⟨haligned, hblock⟩, hgrp⟩, hmsix⟩, hdead⟩, hfields⟩, hnarrow⟩, -⟩, hvio⟩, -⟩ := hp
  have hbus : ¬ (a % 4 ≠ 0 ∨ ¬ blockExists (a / 0x10000) = true) := by simp [haligned, hblock]
  have hro : ¬ ((h.r.fields.all fun f => f.acc = .ro) = true ∨ (a = SUPPLY.VIO_CFG ∧ Config.strapIoExt = true)) := by
    rintro (hall | ⟨rfl, -⟩)
    · simp only [List.any_eq_true, List.all_eq_true, decide_eq_true_eq] at hfields hall
      obtain ⟨f, hf, hne⟩ := hfields
      exact hne (hall f hf)
    · exact hvio rfl
  rw [Dev.regTry, if_neg hbus, if_neg (ne_true_of_eq_false hgrp), if_neg (ne_true_of_eq_false hmsix),
    if_neg (ne_true_of_eq_false hdead), hit]
  exact (if_neg hro).trans (if_neg (ne_true_of_eq_false hnarrow))

/-- A plain word is of no commit group, and is not CONS_CMD. -/
theorem plainWord_apart {a : Nat} {h : RegHit} (hp : plainWord a h = true) : h.stg = false ∧ a ≠ PROTECT.CONS_CMD := by
  simp only [plainWord, Bool.and_eq_true, Bool.not_eq_true', decide_eq_true_eq] at hp
  obtain ⟨⟨⟨-, hstg⟩, -⟩, hcons⟩ := hp
  exact ⟨hstg, hcons⟩

theorem Dev.regTry_of_takes {d : Dev} {agent : AgentId} {h : RegHit} {a : Nat} {v : Word} (ht : d.TakesAt agent h a v) :
    d.regTry agent a v = d.takeWord agent h a v := by
  obtain ⟨hstg, hcons⟩ := plainWord_apart ht.plain
  have hlapse : d.when (decide (a = PROTECT.CONS_CMD)) Dev.consLapse = d := Dev.when_of_false d (decide_eq_false hcons) _
  simp only [Dev.regTry_of_plain ht.hit ht.plain, Dev.writeWord, ht.acts, hlapse, ht.allowed, hstg, ht.safe, Bool.false_eq_true, if_false]

theorem Dev.regTry_of_refused {d : Dev} {agent : AgentId} {h : RegHit} {a : Nat} {v : Word} {c : Cause} (hit : regHit a = some h)
    (hp : plainWord a h = true) (hact : noAction h a v.toNat = false) (hc : d.writeRefusal agent h a v.toNat = some c) :
    d.regTry agent a v = d.refuseWord agent h a v c := by
  obtain ⟨-, hcons⟩ := plainWord_apart hp
  have hlapse : d.when (decide (a = PROTECT.CONS_CMD)) Dev.consLapse = d := Dev.when_of_false d (decide_eq_false hcons) _
  simp only [Dev.regTry_of_plain hit hp, Dev.writeWord, hact, hlapse, hc, Bool.false_eq_true, if_false]

/-! ### Room in the Ledger (R59) -/

/-- The ordinary records of a change are among those it made (R61). -/
theorem Dev.Makes.ordinary_le {d e : Dev} {l ids : List Nat} {rs : List Record} (h : d.Makes e l ids rs) :
    e.ordinary ≤ d.ordinary + rs.length := by
  rw [Dev.ordinary, h.fresh, List.filter_append, List.length_append]
  exact Nat.add_le_add_left (List.length_filter_le _ _) _

/-- A change of at most 64 records is admitted where the Ledger has room. -/
theorem Dev.letIn_of_room {b e : Dev} {agent : AgentId} {w : WaitKind} (hroom : b.lgRoom = true) (he : e.ordinary ≤ b.ordinary + 64) :
    b.letIn agent w e = e := by
  have hfull : b.lgFull (e.ordinary - b.ordinary) = false := by
    simp only [Dev.lgRoom, Bool.or_eq_true, Bool.not_eq_true', Bool.and_eq_true, decide_eq_true_eq] at hroom
    rcases hroom with hchip | ⟨hwait, hfree⟩
    · simp only [Dev.lgFull, hchip, Bool.false_and]
    · have hsmall : ¬ 4032 < b.fld LEDGER.LG_STATUS_OCC + b.ordinary + b.heldPlaces + (e.ordinary - b.ordinary) := by omega
      simp only [Dev.lgFull, hwait, Bool.not_true, Bool.false_or, decide_eq_false hsmall, Bool.and_false]
  exact if_neg fun hwaits => ne_true_of_eq_false hfull hwaits.2

/-- A write of a register other than DBG_CMD does what `regTry` says, where the Ledger has room. -/
theorem Dev.regWrite_of_room {b : Dev} {agent : AgentId} {a : Nat} {v : Word} (hroom : b.lgRoom = true)
    (he : (b.regTry agent a v).ordinary ≤ b.ordinary + 64) (ha : a ≠ DEBUG.DBG_CMD) :
    b.regWrite agent a v = b.regTry agent a v := by
  rw [Dev.regWrite, Dev.regStore, Dev.letIn_of_room hroom he]
  exact if_neg fun hgo => ha hgo.1

/-! ### The words of MILEPOST (R33) -/

/-- The table entry of the `i`-th register of MILEPOST. -/
def milepostHit (i : Fin 20) : RegHit := ⟨milepostRegs[i], 0, 0, false⟩

theorem regHit_mpCtrl : regHit MILEPOST.MP_CTRL = some (milepostHit 2) := rfl
theorem regHit_mpSlew : regHit MILEPOST.MP_SLEW = some (milepostHit 6) := rfl
theorem regHit_mpSlewCfg : regHit MILEPOST.MP_SLEW_CFG = some (milepostHit 7) := rfl
theorem regHit_lateClr : regHit MILEPOST.LATE_CLR = some (milepostHit 11) := rfl

/-- The key of a word of MILEPOST is no pin's owner word, no engine's word, no coefficient, and no RETIRE entry. -/
theorem milepost_apart {a : Nat} (hb : a / 0x10000 = 2) : ownPin a = none ∧ engAt a = none ∧ coefAt a = none ∧
    ¬ (MEMCTL.RETIRE 0 ≤ a ∧ a < MEMCTL.RETIRE 128) := by
  refine ⟨if_neg ?_, ?_, if_neg ?_, ?_⟩
  · simp only [PINMUX.PIN_OWN]; omega
  · rw [engAt, if_neg (by simp only [PENG.ENG_CLK]; omega), if_neg (by simp only [PENG.ENG_PROG]; omega)]
  · omega
  · simp only [MEMCTL.RETIRE]; omega

theorem Dev.wordNow_milepost (d : Dev) {a : Nat} (hb : a / 0x10000 = 2) : d.wordNow a = d.reg a := by
  obtain ⟨-, -, hcoef, -⟩ := milepost_apart hb
  simp only [Dev.wordNow, hcoef]

theorem Dev.blockEffect_milepost (d : Dev) (agent : AgentId) {a : Nat} (hb : a / 0x10000 = 2) (old v ev : Word) :
    d.blockEffect agent a old v ev = d.milepostEffect a old ev := by
  simp only [Dev.blockEffect, hb]
  rfl

/-- The bits of `m` taken from `v`, the others kept. -/
def merge (m c v : Word) : Word := (c &&& ~~~m) ||| (v &&& m)

/-- A word whose fields are all LIVE or STOP, after a write (R8, R9): no bit is of another access code. -/
theorem merge_eq (m c v : Word) : (((c &&& ~~~m) ||| (v &&& m)) &&& ~~~(v &&& 0#32)) ||| (v &&& 0#32) = merge m c v := by
  rw [BitVec.and_zero, BitVec.not_zero, BitVec.and_allOnes, BitVec.or_zero, merge]

theorem merge_allOnes (c v : Word) : merge 0xFFFFFFFF#32 c v = v := by
  rw [merge, show 0xFFFFFFFF#32 = BitVec.allOnes 32 from rfl, BitVec.not_allOnes, BitVec.and_zero, BitVec.and_allOnes, BitVec.zero_or]

/-- A field within `m` reads as it was written. -/
theorem bitsOf_merge {m : Word} {hi lo : Nat} (hm : ∀ i < hi + 1 - lo, m.getLsbD (lo + i) = true) (c v : Word) :
    bitsOf (merge m c v).toNat hi lo = bitsOf v.toNat hi lo := by
  refine Nat.eq_of_testBit_eq fun i => ?_
  rw [testBit_bitsOf, testBit_bitsOf, BitVec.testBit_toNat, BitVec.testBit_toNat, merge]
  by_cases h : i < hi + 1 - lo
  · simp [hm i h]
  · simp [h]

/-- The word as its action sees it: the CMD fields as written. -/
def RegHit.acted (h : RegHit) (w v : Word) : Word := w ||| (v &&& BitVec.ofNat 32 (h.mask fun c => decide (c = .cmd)))

/-- A word of MILEPOST taken: it is stored with its record, and acts (R33, R49). -/
theorem Dev.takeWord_milepost (d : Dev) (agent : AgentId) (h : RegHit) {a : Nat} (hb : a / 0x10000 = 2) (v : Word) :
    d.takeWord agent h a v =
      ((({ d with answer := .ok } : Dev).setReg a (d.wordAfter h a v)).writeRecord h agent a v (h.acted (d.wordAfter h a v) v)
        (d.reg a)).milepostEffect a (d.reg a) (h.acted (d.wordAfter h a v) v) := by
  obtain ⟨hpin, heng, hcoef, hretire⟩ := milepost_apart hb
  simp only [Dev.takeWord, hpin, heng, hretire, if_false, d.wordNow_milepost hb, Dev.putWord, hcoef]
  exact Dev.blockEffect_milepost _ agent hb _ _ _

/-- What refuses a write of a register of MILEPOST (R33, R51): the protection map, the fields' ranges, the block's own rules. -/
theorem Dev.writeRefusal_milepost (d : Dev) (agent : AgentId) {h : RegHit} {a : Nat} (hb : a / 0x10000 = 2)
    (hstg : h.stg = false) (v : Nat) :
    d.writeRefusal agent h a v = causeOf ((if d.blkLevel agent 2 < 2 then [(1, 99, .permission)] else [])
      ++ tableRefusals h v (!d.regulated) ++ d.milepostRefusals a (BitVec.ofNat 32 v)) := by
  have hcons : a ≠ PROTECT.CONS_CMD := by rintro rfl; exact absurd hb (by decide)
  have hwriter : d.writerForbidden agent a h = decide (d.blkLevel agent 2 < 2) := by simp [Dev.writerForbidden, hb]
  have hoff : d.ledgerOff (a / 0x10000) = false := by simp [Dev.ledgerOff, hb]
  have hstop : d.stopOk a = !d.regulated := by simp [Dev.stopOk, hb]
  have hblock : d.blockRefusals agent a v = d.milepostRefusals a (BitVec.ofNat 32 v) := by simp [Dev.blockRefusals, hb]
  have hlist : d.refusals agent h a v = (if d.blkLevel agent 2 < 2 then [(1, 99, .permission)] else [])
      ++ tableRefusals h v (!d.regulated) ++ d.milepostRefusals a (BitVec.ofNat 32 v) := by
    simp only [Dev.refusals, hwriter, hoff, hstg, hstop, hblock, decide_eq_true_eq, Bool.false_eq_true, if_false, List.append_nil]
  rw [Dev.writeRefusal, hlist, if_neg hcons]
  generalize causeOf _ = c
  cases c <;> rfl

/-- A write of MILEPOST that is taken is taken by the device in which its command begins. -/
theorem Dev.TakesAt.begun {d : Dev} {agent : AgentId} {h : RegHit} {a : Nat} {v : Word} (ht : d.TakesAt agent h a v)
    (hb : a / 0x10000 = 2) : d.begun.TakesAt agent h a v := by
  obtain ⟨hstg, -⟩ := plainWord_apart ht.plain
  have hsame : d.begun.writeRefusal agent h a v.toNat = d.writeRefusal agent h a v.toNat := by
    rw [Dev.writeRefusal_milepost _ agent hb hstg, Dev.writeRefusal_milepost _ agent hb hstg]
    rfl
  exact ⟨ht.hit, ht.plain, ht.acts, hsame.trans ht.allowed, ht.safe, ht.room⟩

/-! ### What a write of MILEPOST does (R19, R21, R22, R33) -/

/-- The tick count restarted. -/
def Dev.restartTicks (d : Dev) : Dev := { d with time := { d.time with slewTicks := 0 } }

/-- The three words of lateness zeroed. -/
def Dev.clearLate (d : Dev) : Dev :=
  ((d.setNum MILEPOST.LATE_COUNT 0).setReg64 MILEPOST.LATE_LAST 0).setNum MILEPOST.LATE_SRC 0

theorem milepostEffect_mpCtrl (d : Dev) (old v : Word) : d.milepostEffect MILEPOST.MP_CTRL old v =
    d.when (decide (d.refState = 3) && (bitOf v.toNat 2 || bitOf v.toNat 4)) Dev.refReturn := rfl

theorem milepostEffect_mpSet (d : Dev) (old v : Word) : d.milepostEffect (MILEPOST.MP_SET + 4) old v =
    d.loadStep (d.reg64 MILEPOST.MP_SET - d.now) := rfl

theorem milepostEffect_mpSlew (d : Dev) (old v : Word) : d.milepostEffect MILEPOST.MP_SLEW old v = d.setSlew v := rfl

theorem milepostEffect_slewCfg (d : Dev) (old v : Word) : d.milepostEffect MILEPOST.MP_SLEW_CFG old v =
    if old = v then d else d.restartTicks := rfl

theorem milepostEffect_lateClr (d : Dev) (old v : Word) : d.milepostEffect MILEPOST.LATE_CLR old v =
    d.when (bitOf v.toNat 0) Dev.clearLate := rfl

/-! ### Writes that ask for the return, and their refusal (R19) -/

/-- A word of MILEPOST stored with its LIVE record, before it acts. -/
def Dev.stored (d : Dev) (agent : AgentId) (a : Nat) (w new old : Word) : Dev :=
  (({ d with answer := .ok } : Dev).setReg a w).liveRec agent a new old

namespace Dev

theorem Makes.stored (d : Dev) (agent : AgentId) {a : Nat} {l : List Nat} (ha : a ∈ l) (w new old : Word) :
    d.Makes (d.begun.stored agent a w new old) l [] [wordRecord d.nowNs .live 0 agent a new old] := by
  have hok : d.Makes { d.begun with answer := .ok } l [] [] := (Makes.begun d).frame rfl rfl rfl rfl
  exact (hok.setReg ha w).logRec rfl .live 0 agent a new old

theorem stored_reg_self (d : Dev) (agent : AgentId) (a : Nat) (w new old : Word) : (d.stored agent a w new old).reg a = w :=
  reg_setReg_self _ a w

theorem stored_reg_ne (d : Dev) (agent : AgentId) {a k : Nat} (hk : k ≠ a) (w new old : Word) :
    (d.stored agent a w new old).reg k = d.reg k :=
  reg_setReg_ne { d with answer := .ok } hk w

theorem stored_fld_ne (d : Dev) (agent : AgentId) {a : Nat} {f : Fld} (hf : f.addr ≠ a) (w new old : Word) :
    (d.stored agent a w new old).fld f = d.fld f :=
  fld_of_reg (d.stored_reg_ne agent hf w new old)

theorem keepsUnits.stored (d : Dev) (agent : AgentId) (a : Nat) (w new old : Word) :
    d.keepsUnits (d.begun.stored agent a w new old) := ⟨rfl, fun _ => rfl⟩

end Dev

/-- A LIVE word of MILEPOST that is taken is stored with its record, and acts. -/
theorem Dev.takeWord_live (d : Dev) (agent : AgentId) {h : RegHit} {a : Nat} (hb : a / 0x10000 = 2) (hlive : h.logged = true) (v : Word) :
    d.takeWord agent h a v = (d.stored agent a (d.wordAfter h a v) (h.acted (d.wordAfter h a v) v) (d.reg a)).milepostEffect a (d.reg a)
      (h.acted (d.wordAfter h a v) v) := by
  have hcons : a ≠ PROTECT.CONS_CMD := by rintro rfl; exact absurd hb (by decide)
  rw [Dev.takeWord_milepost d agent h hb, Dev.writeRecord, if_neg hcons, if_pos hlive]
  rfl

/-- A word of CMD fields alone is recorded as it was written (R49). -/
theorem Dev.takeWord_command (d : Dev) (agent : AgentId) {h : RegHit} {a : Nat} (hb : a / 0x10000 = 2) (hlive : h.logged = false)
    (hcmd : h.command = true) (v : Word) :
    d.takeWord agent h a v = (d.stored agent a (d.wordAfter h a v) v 0).milepostEffect a (d.reg a) (h.acted (d.wordAfter h a v) v) := by
  have hcons : a ≠ PROTECT.CONS_CMD := by rintro rfl; exact absurd hb (by decide)
  rw [Dev.takeWord_milepost d agent h hb, Dev.writeRecord, if_neg hcons, if_neg (ne_true_of_eq_false hlive), if_pos hcmd]
  rfl

/-- A taken write of a word of MILEPOST does what `takeWord` says, if its records find room. -/
theorem Dev.regWrite_milepost {d e : Dev} {agent : AgentId} {h : RegHit} {a : Nat} {v : Word} {l ids : List Nat} {rs : List Record}
    (hb : a / 0x10000 = 2) (ht : d.TakesAt agent h a v) (he : d.begun.takeWord agent h a v = e) (hm : d.Makes e l ids rs)
    (hrs : rs.length ≤ 64) : d.begun.regWrite agent a v = e := by
  have htry : d.begun.regTry agent a v = e := (Dev.regTry_of_takes (ht.begun hb)).trans he
  have hdbg : a ≠ DEBUG.DBG_CMD := by rintro rfl; exact absurd hb (by decide)
  have hroom : (d.begun.regTry agent a v).ordinary ≤ d.begun.ordinary + 64 := by
    rw [htry]
    exact hm.ordinary_le.trans (Nat.add_le_add_left hrs _)
  exact (Dev.regWrite_of_room (b := d.begun) ht.room hroom hdbg).trans htry

/-- A bit of a word, as the bit vector has it. -/
theorem bitOf_toNat (w : Word) (i : Nat) : bitOf w.toNat i = w.getLsbD i := by
  rw [BitVec.getLsbD, Nat.testBit_eq_decide_div_mod_eq, bitOf, beq_eq_decide]

/-- RETURN and AUTO_RETURN reach the action of MP_CTRL as they were written. -/
theorem mpCtrl_acted (d : Dev) (v : Word) {i : Nat} (hi : i = 2 ∨ i = 4) :
    bitOf ((milepostHit 2).acted (d.wordAfter (milepostHit 2) MILEPOST.MP_CTRL v) v).toNat i = wordBit v i := by
  have hword : (milepostHit 2).acted (d.wordAfter (milepostHit 2) MILEPOST.MP_CTRL v) v =
      ((((d.reg MILEPOST.MP_CTRL &&& ~~~0x14#32) ||| (v &&& 0x10#32)) &&& ~~~(v &&& 0#32)) ||| (v &&& 0#32)) ||| (v &&& 0x4#32) := rfl
  rw [hword, wordBit, bitOf_toNat, bitOf_toNat]
  rcases hi with rfl | rfl <;> simp

/-- A write of MP_CTRL that asks for a return from QUALIFYING. -/
theorem regWrite_mpCtrl_return {d : Dev} {agent : AgentId} {v : Word} (ht : d.TakesAt agent (milepostHit 2) MILEPOST.MP_CTRL v)
    (hask : wordBit v 2 = true ∨ wordBit v 4 = true) (hstate : d.refState = 3) : ∃ w new : Word,
    d.begun.regWrite agent MILEPOST.MP_CTRL v = (d.begun.stored agent MILEPOST.MP_CTRL w new (d.reg MILEPOST.MP_CTRL)).refReturn := by
  have hm := (Dev.Makes.stored d agent (a := MILEPOST.MP_CTRL)
    (l := [MILEPOST.MP_CTRL, MILEPOST.MP_STATUS, MILEPOST.MP_FLAGS]) (by decide)
    (d.begun.wordAfter (milepostHit 2) MILEPOST.MP_CTRL v)
    ((milepostHit 2).acted (d.begun.wordAfter (milepostHit 2) MILEPOST.MP_CTRL v) v) (d.reg MILEPOST.MP_CTRL)).refReturn rfl
    (by decide) (by decide)
  refine ⟨_, _, Dev.regWrite_milepost (by decide) ht ?_ hm (by simp)⟩
  have hkept : (d.begun.stored agent MILEPOST.MP_CTRL (d.begun.wordAfter (milepostHit 2) MILEPOST.MP_CTRL v)
      ((milepostHit 2).acted (d.begun.wordAfter (milepostHit 2) MILEPOST.MP_CTRL v) v) (d.begun.reg MILEPOST.MP_CTRL)).refState = 3 :=
    (Dev.stored_fld_ne _ _ (by decide) _ _ _).trans hstate
  rw [Dev.takeWord_live _ _ (by decide) (by decide)]
  refine (milepostEffect_mpCtrl _ _ _).trans (Dev.when_of_true _ ?_ _)
  rw [mpCtrl_acted _ _ (.inl rfl), mpCtrl_acted _ _ (.inr rfl), hkept]
  simpa using hask

/-- A RETURN that finds no QUALIFYING Milepost is refused (R19). -/
theorem regTry_return_refused {d : Dev} {agent : AgentId} (hlevel : d.blkLevel agent 0x02 ≥ 2) (hstate : d.refState ≠ 3) :
    d.begun.regTry agent MILEPOST.MP_CTRL 4 = d.begun.rejectRec agent MILEPOST.MP_CTRL 4 (d.reg MILEPOST.MP_CTRL) .state := by
  have hrule : d.begun.milepostRefusals MILEPOST.MP_CTRL 4 = [(3, 2, .state)] :=
    (if_pos rfl).trans (if_pos ⟨rfl, hstate⟩)
  have hcause : d.begun.writeRefusal agent (milepostHit 2) MILEPOST.MP_CTRL (4 : Word).toNat = some .state := by
    have hopen : ¬ d.begun.blkLevel agent 2 < 2 := Nat.not_lt.mpr hlevel
    have htable : ∀ stopped, tableRefusals (milepostHit 2) (4 : Word).toNat stopped = [] := by decide
    rw [Dev.writeRefusal_milepost _ agent (by decide) (by decide), if_neg hopen, htable, BitVec.ofNat_toNat, BitVec.setWidth_eq, hrule]
    rfl
  rw [Dev.regTry_of_refused regHit_mpCtrl (by decide) (by decide) hcause]
  rfl

/-! ### The counter slews (R22) -/

namespace Dev

theorem when_cases {p : Dev → Prop} {f : Dev → Dev} {d : Dev} (c : Bool) (h : p d) (hf : p (f d)) : p (d.when c f) := by
  cases c
  · exact h
  · exact hf

/-- The remainder written, and whether one is left. -/
def slewWords (d : Dev) (v : Word) : Dev := (d.setReg MILEPOST.MP_SLEW v).setFld MILEPOST.MP_STATUS_SLEWING (b2n (v != 0))

theorem setSlew_eq (d : Dev) (v : Word) :
    d.setSlew v = (d.slewWords v).restartTicks.when (v == 0) fun d => d.setFld MILEPOST.MP_FLAGS_SLEW_DONE 1 :=
  rfl

theorem setSlew_time (d : Dev) (v : Word) : (d.setSlew v).time = { d.time with slewTicks := 0 } := by
  rw [setSlew_eq]
  exact when_cases (p := fun e => e.time = _) _ rfl rfl

theorem setSlew_answer (d : Dev) (v : Word) : (d.setSlew v).answer = d.answer := by
  rw [setSlew_eq]
  exact when_cases (p := fun e => e.answer = _) _ rfl rfl

theorem setSlew_reg (d : Dev) (v : Word) : (d.setSlew v).reg MILEPOST.MP_SLEW = v := by
  have hword : (d.slewWords v).reg MILEPOST.MP_SLEW = v := (reg_setFld_ne _ (by decide) _).trans (reg_setReg_self d _ v)
  rw [setSlew_eq]
  exact when_cases (p := fun e => e.reg MILEPOST.MP_SLEW = v) _ hword ((reg_setFld_ne _ (by decide) _).trans hword)

theorem setSlew_slewing (d : Dev) (v : Word) : (d.setSlew v).flag MILEPOST.MP_STATUS_SLEWING = decide (v ≠ 0) := by
  have hword : (d.slewWords v).flag MILEPOST.MP_STATUS_SLEWING = decide (v ≠ 0) :=
    (flag_setFld_b2n _ _ _ (by decide) (by decide)).trans (by simp [bne, beq_eq_decide])
  rw [setSlew_eq]
  exact when_cases (p := fun e => e.flag MILEPOST.MP_STATUS_SLEWING = _) _ hword
    ((flag_setFld_ne _ _ _ _ (by decide) (by decide) (by decide)).trans hword)

/-- SLEW_DONE sets where no remainder is left. -/
theorem setSlew_done (d : Dev) (v : Word) :
    (d.setSlew v).flag MILEPOST.MP_FLAGS_SLEW_DONE = (decide (v = 0) || d.flag MILEPOST.MP_FLAGS_SLEW_DONE) := by
  have hword : (d.slewWords v).restartTicks.flag MILEPOST.MP_FLAGS_SLEW_DONE = d.flag MILEPOST.MP_FLAGS_SLEW_DONE :=
    (flag_setFld_ne _ MILEPOST.MP_STATUS_SLEWING _ _ (by decide) (by decide) (by decide)).trans
      (congrArg (· != 0) (fld_setReg_ne d (by decide) v))
  rw [setSlew_eq]
  by_cases hv : v = 0
  · rw [when_of_true _ (beq_iff_eq.mpr hv), decide_eq_true hv, flag_setFld_one _ _ (by decide) (by decide)]
    rfl
  · rw [when_of_false _ (beq_eq_false_iff_ne.mpr hv), decide_eq_false hv, hword]
    rfl

theorem Makes.restartTicks {d e : Dev} {l ids : List Nat} {rs : List Record} (h : d.Makes e l ids rs) :
    d.Makes e.restartTicks l ids rs := h.frame rfl rfl rfl rfl

theorem Makes.setSlew {d e : Dev} {l ids : List Nat} {rs : List Record} (h : d.Makes e l ids rs) (hw : MILEPOST.MP_SLEW ∈ l)
    (hs : MILEPOST.MP_STATUS ∈ l) (hf : MILEPOST.MP_FLAGS ∈ l) (v : Word) : d.Makes (e.setSlew v) l ids rs := by
  have hwords : d.Makes (e.slewWords v).restartTicks l ids rs :=
    ((h.setReg hw v).setFld (f := MILEPOST.MP_STATUS_SLEWING) hs _).restartTicks
  rw [setSlew_eq]
  exact when_cases (p := fun e => d.Makes e l ids rs) _ hwords (hwords.setFld (f := MILEPOST.MP_FLAGS_SLEW_DONE) hf 1)

theorem keepsUnits.setSlew {d e : Dev} {u : Timebase} (h : ({ d with time := u } : Dev).keepsUnits e) (v : Word) :
    ({ d with time := (e.setSlew v).time } : Dev).keepsUnits (e.setSlew v) := by
  rw [setSlew_time, setSlew_eq]
  have hwords : ({ d with time := { e.time with slewTicks := 0 } } : Dev).keepsUnits (e.slewWords v).restartTicks :=
    ((h.setReg MILEPOST.MP_SLEW v).setFld MILEPOST.MP_STATUS_SLEWING _).setTime _
  exact when_cases (p := fun x => keepsUnits _ x) _ hwords (hwords.setFld _ 1)

/-! ### The microseconds of a holdover (R18) -/

theorem holdTime_time (d : Dev) : d.holdTime.time = d.time := when_cases (p := fun e => e.time = d.time) _ rfl rfl

theorem holdTime_reg (d : Dev) {k : Nat} (hk : k ≠ MILEPOST.MP_HOLD_TIME) : d.holdTime.reg k = d.reg k :=
  when_cases (p := fun e => e.reg k = d.reg k) _ rfl (reg_setReg_ne d hk _)

theorem holdTime_flag (d : Dev) {f : Fld} (hf : f.addr ≠ MILEPOST.MP_HOLD_TIME) : d.holdTime.flag f = d.flag f := by
  simp only [flag, fld_of_reg (d.holdTime_reg hf)]

theorem Makes.holdTime {d e : Dev} {l ids : List Nat} {rs : List Record} (h : d.Makes e l ids rs) (ht : MILEPOST.MP_HOLD_TIME ∈ l) :
    d.Makes e.holdTime l ids rs :=
  when_cases (p := fun e => d.Makes e l ids rs) _ h (h.setNum ht _)

theorem keepsUnits.holdTime {d e : Dev} (h : d.keepsUnits e) : d.keepsUnits e.holdTime :=
  when_cases (p := fun e => d.keepsUnits e) _ h (h.setReg _ _)

end Dev

/-! ### Adjusted ticks (R22) -/

/-- An adjusted tick that moves the Milepost to `m` and leaves the remainder `v`. -/
theorem settle_slewTick (d : Dev) (m : Time) (v : Word) :
    let e := settle (({ d.begun with time := { d.time with milepost := m } } : Dev).setSlew v).holdTime
    e.time.milepost = m ∧ e.slewRemain = v.toInt ∧
    e.flag MILEPOST.MP_FLAGS_SLEW_DONE = (decide (e.slewRemain = 0) || d.flag MILEPOST.MP_FLAGS_SLEW_DONE) ∧
    d.keepsRegs e [MILEPOST.MP_SLEW, MILEPOST.MP_STATUS, MILEPOST.MP_FLAGS, MILEPOST.MP_HOLD_TIME] ∧
    { d with time := e.time }.keepsUnits e ∧ d.noRecord e := by
  intro e
  have hmoved : d.Makes { d.begun with time := { d.time with milepost := m } }
      [MILEPOST.MP_SLEW, MILEPOST.MP_STATUS, MILEPOST.MP_FLAGS, MILEPOST.MP_HOLD_TIME] [] [] :=
    (Dev.Makes.begun d).frame rfl rfl rfl rfl
  have hunits : ({ d with time := { d.time with milepost := m } } : Dev).keepsUnits
      { d.begun with time := { d.time with milepost := m } } := ⟨rfl, fun _ => rfl⟩
  have hm := (hmoved.setSlew (by decide) (by decide) (by decide) v).holdTime (by decide)
  have hremain : e.slewRemain = v.toInt := by
    rw [Dev.slewRemain, settle_reg _ _ (by decide) (by decide), Dev.holdTime_reg _ (by decide), Dev.setSlew_reg]
  have hzero : decide (e.slewRemain = 0) = decide (v = 0) := by
    rw [hremain, decide_eq_decide, ← BitVec.toInt_inj]
    rfl
  refine ⟨?_, hremain, ?_, hm.settle_keepsRegs, hm.settle_keepsUnits_of_time (by decide) (Dev.holdTime_time _)
    (hunits.setSlew v).holdTime, hm.settle_noRecord (by decide)⟩
  · rw [settle_time, Dev.holdTime_time, Dev.setSlew_time]
  · rw [settle_flag _ _ (by decide) (by decide), Dev.holdTime_flag _ (by decide), Dev.setSlew_done, hzero]
    rfl

theorem Dev.slewTick_up {d : Dev} (h : 0 < d.slewRemain) :
    d.slewTick = (({ d with time := { d.time with milepost := d.now + 65 } } : Dev).setSlew (d.reg MILEPOST.MP_SLEW - 1)).holdTime := by
  simp only [Dev.slewTick, gt_iff_lt, decide_eq_true h, if_true]
  rfl

theorem Dev.slewTick_down {d : Dev} (h : d.slewRemain < 0) :
    d.slewTick = (({ d with time := { d.time with milepost := d.now + 63 } } : Dev).setSlew (d.reg MILEPOST.MP_SLEW + 1)).holdTime := by
  have hneg : ¬ 0 < d.slewRemain := by omega
  simp only [Dev.slewTick, gt_iff_lt, decide_eq_false hneg, Bool.false_eq_true, if_false]
  rfl

/-- One step toward zero of a remainder above it. -/
theorem toInt_sub_one {v : Word} (h : 0 < v.toInt) : (v - 1).toInt = v.toInt - 1 := by
  have hlt := BitVec.toInt_lt (x := v)
  rw [BitVec.toInt_sub, show (1 : Word).toInt = 1 from rfl]
  exact Int.bmod_eq_of_le (by norm_num; omega) (by norm_num; omega)

/-- One step toward zero of a remainder below it. -/
theorem toInt_add_one {v : Word} (h : v.toInt < 0) : (v + 1).toInt = v.toInt + 1 := by
  have hle := BitVec.le_toInt v
  rw [BitVec.toInt_add, show (1 : Word).toInt = 1 from rfl]
  exact Int.bmod_eq_of_le (by norm_num; omega) (by norm_num; omega)

/-! ### Other writes of MILEPOST (R22, R33) -/

/-- A word without CMD fields reaches its action as it stands. -/
theorem acted_of_live {h : RegHit} {w v : Word} (hcmd : (h.mask fun c => decide (c = .cmd)) = 0) : h.acted w v = w := by
  rw [RegHit.acted, hcmd]
  exact (congrArg (w ||| ·) BitVec.and_zero).trans BitVec.or_zero

/-- A write of MP_SLEW sets the remainder and restarts the tick count. -/
theorem regWrite_mpSlew {d : Dev} {agent : AgentId} {v : Word} (ht : d.TakesAt agent (milepostHit 6) MILEPOST.MP_SLEW v) :
    d.begun.regWrite agent MILEPOST.MP_SLEW v = (d.begun.stored agent MILEPOST.MP_SLEW v v (d.reg MILEPOST.MP_SLEW)).setSlew v := by
  have hword : d.begun.wordAfter (milepostHit 6) MILEPOST.MP_SLEW v = v :=
    (merge_eq 0xFFFFFFFF#32 (d.reg MILEPOST.MP_SLEW) v).trans (merge_allOnes _ _)
  have hacted : (milepostHit 6).acted v v = v := acted_of_live rfl
  have hm := (Dev.Makes.stored d agent (a := MILEPOST.MP_SLEW) (l := [MILEPOST.MP_SLEW, MILEPOST.MP_STATUS, MILEPOST.MP_FLAGS])
    (by decide) v v (d.reg MILEPOST.MP_SLEW)).setSlew (by decide) (by decide) (by decide) v
  refine Dev.regWrite_milepost (by decide) ht ?_ hm (by simp)
  rw [Dev.takeWord_live _ _ (by decide) (by decide), hword, hacted]
  exact milepostEffect_mpSlew _ _ _

/-- The word of MP_SLEW_CFG after a write. -/
def slewCfgAfter (d : Dev) (v : Word) : Word := merge 0xFFFF#32 (d.reg MILEPOST.MP_SLEW_CFG) v

/-- A write of MP_SLEW_CFG with another INTERVAL restarts the tick count. -/
theorem regWrite_slewCfg {d : Dev} {agent : AgentId} {v : Word} (ht : d.TakesAt agent (milepostHit 7) MILEPOST.MP_SLEW_CFG v)
    (hnew : d.fld MILEPOST.MP_SLEW_CFG_INTERVAL ≠ bitsOf v.toNat 15 0) : d.begun.regWrite agent MILEPOST.MP_SLEW_CFG v =
      (d.begun.stored agent MILEPOST.MP_SLEW_CFG (slewCfgAfter d v) (slewCfgAfter d v) (d.reg MILEPOST.MP_SLEW_CFG)).restartTicks := by
  have hword : d.begun.wordAfter (milepostHit 7) MILEPOST.MP_SLEW_CFG v = slewCfgAfter d v :=
    merge_eq 0xFFFF#32 (d.reg MILEPOST.MP_SLEW_CFG) v
  have hacted : (milepostHit 7).acted (slewCfgAfter d v) v = slewCfgAfter d v := acted_of_live rfl
  have hm := (Dev.Makes.stored d agent (a := MILEPOST.MP_SLEW_CFG) (l := [MILEPOST.MP_SLEW_CFG]) (by decide) (slewCfgAfter d v)
    (slewCfgAfter d v) (d.reg MILEPOST.MP_SLEW_CFG)).restartTicks
  refine Dev.regWrite_milepost (by decide) ht ?_ hm (by simp)
  rw [Dev.takeWord_live _ _ (by decide) (by decide), hword, hacted]
  refine (milepostEffect_slewCfg _ _ _).trans (if_neg fun hold => hnew ?_)
  rw [Dev.fld, Dev.num, show d.reg MILEPOST.MP_SLEW_CFG_INTERVAL.addr = slewCfgAfter d v from hold]
  exact bitsOf_merge (by decide) _ v

theorem lateClr_acted (d : Dev) (v : Word) :
    bitOf ((milepostHit 11).acted (d.wordAfter (milepostHit 11) MILEPOST.LATE_CLR v) v).toNat 0 = wordBit v 0 := by
  have hword : (milepostHit 11).acted (d.wordAfter (milepostHit 11) MILEPOST.LATE_CLR v) v =
      ((((d.reg MILEPOST.LATE_CLR &&& ~~~0x1#32) ||| (v &&& 0x0#32)) &&& ~~~(v &&& 0#32)) ||| (v &&& 0#32)) ||| (v &&& 0x1#32) := rfl
  rw [hword, wordBit, bitOf_toNat, bitOf_toNat]
  simp

theorem Dev.Makes.clearLate {d e : Dev} {l ids : List Nat} {rs : List Record} (h : d.Makes e l ids rs) (hc : MILEPOST.LATE_COUNT ∈ l)
    (hl : MILEPOST.LATE_LAST ∈ l) (hh : MILEPOST.LATE_LAST + 4 ∈ l) (hs : MILEPOST.LATE_SRC ∈ l) : d.Makes e.clearLate l ids rs :=
  (((h.setNum hc 0).setReg hl _).setReg hh _).setNum hs 0

theorem Dev.keepsUnits.clearLate {d e : Dev} (h : d.keepsUnits e) : d.keepsUnits e.clearLate :=
  (((h.setReg _ _).setReg _ _).setReg _ _).setReg _ _

theorem Dev.clearLate_src (d : Dev) : d.clearLate.reg MILEPOST.LATE_SRC = 0 := Dev.reg_setReg_self _ _ _

theorem Dev.clearLate_count (d : Dev) : d.clearLate.reg MILEPOST.LATE_COUNT = 0 := by
  rw [Dev.clearLate, Dev.reg_setNum, if_neg (by decide), Dev.setReg64, Dev.reg_setReg_ne _ (by decide), Dev.reg_setReg_ne _ (by decide)]
  exact Dev.reg_setReg_self _ _ _

theorem Dev.clearLate_last (d : Dev) : d.clearLate.reg64 MILEPOST.LATE_LAST = 0 := by
  have hhigh : d.clearLate.reg (MILEPOST.LATE_LAST + 4) = 0 := by
    rw [Dev.clearLate, Dev.reg_setNum, if_neg (by decide)]
    exact Dev.reg_setReg_self _ _ _
  have hlow : d.clearLate.reg MILEPOST.LATE_LAST = 0 := by
    rw [Dev.clearLate, Dev.reg_setNum, if_neg (by decide), Dev.setReg64, Dev.reg_setReg_ne _ (by decide)]
    exact Dev.reg_setReg_self _ _ _
  rw [Dev.reg64, hhigh, hlow]
  rfl

theorem regWrite_lateClr {d : Dev} {agent : AgentId} {v : Word} (ht : d.TakesAt agent (milepostHit 11) MILEPOST.LATE_CLR v)
    (hask : wordBit v 0 = true) : d.begun.regWrite agent MILEPOST.LATE_CLR v =
      (d.begun.stored agent MILEPOST.LATE_CLR (d.begun.wordAfter (milepostHit 11) MILEPOST.LATE_CLR v) v 0).clearLate := by
  have hm := (Dev.Makes.stored d agent (a := MILEPOST.LATE_CLR)
    (l := [MILEPOST.LATE_COUNT, MILEPOST.LATE_LAST, MILEPOST.LATE_LAST + 4, MILEPOST.LATE_SRC, MILEPOST.LATE_CLR]) (by decide)
    (d.begun.wordAfter (milepostHit 11) MILEPOST.LATE_CLR v) v 0).clearLate (by decide) (by decide) (by decide) (by decide)
  refine Dev.regWrite_milepost (by decide) ht ?_ hm (by simp)
  rw [Dev.takeWord_command _ _ (by decide) (by decide) (by decide)]
  exact (milepostEffect_lateClr _ _ _).trans (Dev.when_of_true _ ((lateClr_acted d.begun v).trans hask) _)

/-! ### Loads of the Milepost (R21) -/

/-- The two halves of a 64-bit value, the high one first. -/
theorem append_halves (v : DWord) : ((v >>> 32).setWidth 32 ++ v.setWidth 32 : DWord) = v := by
  refine BitVec.eq_of_getLsbD_eq fun i hi => ?_
  simp only [BitVec.getLsbD_append, BitVec.getLsbD_setWidth, BitVec.getLsbD_ushiftRight]
  by_cases h : i < 32
  · simp [h]
  · simp [h, show i - 32 < 32 by omega, show 32 + (i - 32) = i by omega]

/-- The device with the low word of MP_SET held for an agent. -/
def Dev.holdsLow (d : Dev) (agent : AgentId) (v : Word) : Dev :=
  { d with halfW := Tab.put (halfKey agent MILEPOST.MP_SET) v d.halfW, answer := .ok }

/-- The device with no low word of MP_SET held for an agent. -/
def Dev.takesLow (d : Dev) (agent : AgentId) : Dev := { d with halfW := Tab.del (halfKey agent MILEPOST.MP_SET) d.halfW }

/-- The device that a write of both words of MP_SET finds at its second word. -/
def Dev.wideBegun (d : Dev) (agent : AgentId) (v : DWord) : Dev := (d.begun.holdsLow agent (v.setWidth 32)).takesLow agent

/-- A write of both words of MP_SET, refused or taken. -/
def Dev.wideWrite (d : Dev) (agent : AgentId) (v : DWord) : Dev :=
  match d.writeRefusal agent (milepostHit 5) MILEPOST.MP_SET v.toNat with
  | some c => d.refuseWide agent (milepostHit 5) MILEPOST.MP_SET v c
  | none => d.takeWide agent (milepostHit 5) MILEPOST.MP_SET v

/-- The high word of MP_SET carries the write of both words (R7). -/
theorem regTry_mpSet_high (d : Dev) (agent : AgentId) (v : DWord) :
    (d.begun.holdsLow agent (v.setWidth 32)).regTry agent (MILEPOST.MP_SET + 4) ((v >>> 32).setWidth 32)
      = (d.wideBegun agent v).wideWrite agent v := by
  have hwhole : ((v >>> 32).setWidth 32 ++ (Tab.find (halfKey agent MILEPOST.MP_SET) (d.begun.holdsLow agent (v.setWidth 32)).halfW).getD
      ((d.begun.holdsLow agent (v.setWidth 32)).reg MILEPOST.MP_SET) : DWord) = v := by
    rw [Dev.holdsLow, Tab.find_put_self]
    exact append_halves v
  exact congrArg ((d.wideBegun agent v).wideWrite agent) hwhole

/-- MP_SET has no reserved values and no range (R33). -/
theorem tableRefusals_mpSet (v : DWord) (stopped : Bool) :
    tableRefusals (milepostHit 5) v.toNat stopped = if stopped then [] else [(2, 63, .running)] := by
  have hwhole : bitsOf v.toNat 63 0 < 2 ^ 64 := bitsOf_lt _ _ _
  have hmax : ¬ 18446744073709551615 < bitsOf v.toNat 63 0 := by omega
  cases stopped
  · rfl
  · have hfields : tableRefusals (milepostHit 5) v.toNat true = (if bitsOf v.toNat 63 0 > 18446744073709551615 then [(2, 63, .reserved)]
        else if bitsOf v.toNat 63 0 < 0 ∨ 18446744073709551615 < bitsOf v.toNat 63 0 then [(2, 63, .range)] else []) ++ [] := rfl
    rw [hfields, if_neg hmax, if_neg (by omega)]
    rfl

/-- What refuses a write of MP_SET: the protection map, and a Milepost that counts as running (R21). -/
theorem writeRefusal_mpSet {d : Dev} {agent : AgentId} (hlevel : d.blkLevel agent 0x02 ≥ 2) (v : DWord) :
    d.writeRefusal agent (milepostHit 5) MILEPOST.MP_SET v.toNat = if d.regulated then some .running else none := by
  have hopen : ¬ d.blkLevel agent 2 < 2 := Nat.not_lt.mpr hlevel
  have hrule : d.milepostRefusals MILEPOST.MP_SET (BitVec.ofNat 32 v.toNat) = [] := rfl
  rw [Dev.writeRefusal_milepost _ agent (by decide) (by decide), if_neg hopen, hrule, tableRefusals_mpSet]
  cases d.regulated <;> rfl

/-- The words of MP_SET stored with their records, before the load. -/
def Dev.storedMpSet (d : Dev) (agent : AgentId) (v : DWord) : Dev :=
  { (((d.setReg MILEPOST.MP_SET (v.setWidth 32)).setReg (MILEPOST.MP_SET + 4) ((v >>> 32).setWidth 32)).recPair .live 0 agent
      MILEPOST.MP_SET v (d.reg64 MILEPOST.MP_SET)) with answer := .ok }

theorem Dev.storedMpSet_reg64 (d : Dev) (agent : AgentId) (v : DWord) : (d.storedMpSet agent v).reg64 MILEPOST.MP_SET = v := by
  have hhigh : (d.storedMpSet agent v).reg (MILEPOST.MP_SET + 4) = (v >>> 32).setWidth 32 := Dev.reg_setReg_self _ _ _
  have hlow : (d.storedMpSet agent v).reg MILEPOST.MP_SET = v.setWidth 32 :=
    (Dev.reg_setReg_ne (d.setReg MILEPOST.MP_SET (v.setWidth 32)) (by decide) _).trans (Dev.reg_setReg_self d _ _)
  rw [Dev.reg64, hhigh, hlow]
  exact append_halves v

/-- A taken write of MP_SET stores its words and loads the Milepost (R21). -/
theorem takeWide_mpSet (d : Dev) (agent : AgentId) (v : DWord) :
    d.takeWide agent (milepostHit 5) MILEPOST.MP_SET v = (d.storedMpSet agent v).loadStep (v - d.now) := by
  have hlow : d.wordAfter { milepostHit 5 with hiWord := false } MILEPOST.MP_SET (v.setWidth 32) = v.setWidth 32 :=
    (merge_eq 0xFFFFFFFF#32 (d.reg MILEPOST.MP_SET) _).trans (merge_allOnes _ _)
  have hhigh : d.wordAfter { milepostHit 5 with hiWord := true } (MILEPOST.MP_SET + 4) ((v >>> 32).setWidth 32)
      = (v >>> 32).setWidth 32 :=
    (merge_eq 0xFFFFFFFF#32 (d.reg (MILEPOST.MP_SET + 4)) _).trans (merge_allOnes _ _)
  have hlogged : (milepostHit 5).logged = true := by decide
  simp only [Dev.takeWide, hlow, hhigh, hlogged, append_halves, Dev.when_true]
  rw [Dev.blockEffect_milepost _ agent (by decide), milepostEffect_mpSet]
  exact congrArg (fun x => (d.storedMpSet agent v).loadStep (x - d.now)) (d.storedMpSet_reg64 agent v)

/-- Both words written, what the second does is what the write does, where its records find room. -/
theorem writeBoth_mpSet {d e : Dev} {agent : AgentId} {v : DWord} {l ids : List Nat} {rs : List Record} (hroom : d.lgRoom = true)
    (he : (d.wideBegun agent v).wideWrite agent v = e) (hm : d.Makes e l ids rs) (hrs : rs.length ≤ 64) :
    d.begun.writeBoth agent MILEPOST.MP_SET v = e := by
  have hlow : d.begun.regWrite agent MILEPOST.MP_SET (v.setWidth 32) = d.begun.holdsLow agent (v.setWidth 32) :=
    Dev.regWrite_of_room (b := d.begun) hroom (Nat.le_add_right _ _) (by decide)
  have htry := (regTry_mpSet_high d agent v).trans he
  have hfree : (Dev.regTry (d.begun.holdsLow agent (v.setWidth 32)) agent (MILEPOST.MP_SET + 4) ((v >>> 32).setWidth 32)).ordinary
      ≤ (d.begun.holdsLow agent (v.setWidth 32)).ordinary + 64 := by
    rw [htry]
    exact hm.ordinary_le.trans (Nat.add_le_add_left hrs _)
  rw [Dev.writeBoth, hlow]
  exact (Dev.regWrite_of_room (b := d.begun.holdsLow agent (v.setWidth 32)) hroom hfree (by decide)).trans htry

namespace Dev

theorem Makes.wideBegun (d : Dev) (agent : AgentId) (v : DWord) {l : List Nat} : d.Makes (d.wideBegun agent v) l [] [] :=
  (Makes.begun d).frame rfl rfl rfl rfl

theorem Makes.loadStep {d e : Dev} {l ids : List Nat} {rs : List Record} (h : d.Makes e l ids rs) (x : Time) :
    d.Makes (e.loadStep x) l ids rs := h.frame rfl rfl rfl rfl

theorem keepsUnits.logRec {d e : Dev} (h : d.keepsUnits e) (k : RecKind) (fl : Nat) (o : AgentId) (a : Nat) (new old : Word) :
    d.keepsUnits (e.logRec k fl o a new old) := h.of_rest rfl rfl

theorem keepsUnits.setAnswer {d e : Dev} (h : d.keepsUnits e) (x : Answer) : d.keepsUnits { e with answer := x } := h.of_rest rfl rfl

theorem keepsUnits.loadStep {d e : Dev} (h : d.keepsUnits e) (x : Time) : (d.loadStep x).keepsUnits (e.loadStep x) :=
  ⟨congrArg (fun y => y.loadStep x) h.1, h.2⟩

theorem keepsUnits.wideBegun (d : Dev) (agent : AgentId) (v : DWord) :
    { d with halfW := (d.wideBegun agent v).halfW }.keepsUnits (d.wideBegun agent v) := ⟨rfl, fun _ => rfl⟩

theorem keepsUnits.recPair {d e : Dev} (h : d.keepsUnits e) (k : RecKind) (fl : Nat) (o : AgentId) (a : Nat) (new old : DWord) :
    d.keepsUnits (e.recPair k fl o a new old) := (h.logRec _ _ _ _ _ _).logRec _ _ _ _ _ _

/-- The records of a load. -/
theorem Makes.storedMpSet (d : Dev) (agent : AgentId) (v : DWord) : ∃ r₁ r₂,
    d.Makes ((d.wideBegun agent v).storedMpSet agent v) [MILEPOST.MP_SET, MILEPOST.MP_SET + 4] [] [r₁, r₂] := by
  have hwords := ((Makes.wideBegun d agent v (l := [MILEPOST.MP_SET, MILEPOST.MP_SET + 4])).setReg (a := MILEPOST.MP_SET) (by decide)
    (v.setWidth 32)).setReg (a := MILEPOST.MP_SET + 4) (by decide) ((v >>> 32).setWidth 32)
  obtain ⟨r₁, r₂, h⟩ := hwords.recPair rfl .live 0 agent MILEPOST.MP_SET v (d.reg64 MILEPOST.MP_SET)
  exact ⟨r₁, r₂, h.frame rfl rfl rfl rfl⟩

/-- The records of a load refused. -/
theorem Makes.refusedMpSet (d : Dev) (agent : AgentId) (v : DWord) (c : Cause) : ∃ r₁ r₂,
    d.Makes ((d.wideBegun agent v).refuseWide agent (milepostHit 5) MILEPOST.MP_SET v c) [] [] [r₁, r₂] := by
  obtain ⟨r₁, r₂, h⟩ := (Makes.wideBegun d agent v (l := [])).recPair rfl .reject (16 * c.code) agent MILEPOST.MP_SET v
    (d.reg64 MILEPOST.MP_SET)
  exact ⟨r₁, r₂, h.frame rfl rfl rfl rfl⟩

theorem keepsUnits.storedMpSet {d e : Dev} (h : d.keepsUnits e) (agent : AgentId) (v : DWord) : d.keepsUnits (e.storedMpSet agent v) :=
  (((h.setReg _ _).setReg _ _).recPair _ _ _ _ _ _).setAnswer _

end Dev

/-- A Milepost that counts as stopped takes the load (R21). -/
theorem wideWrite_of_stopped {d : Dev} {agent : AgentId} (hlevel : d.blkLevel agent 0x02 ≥ 2) (hstopped : d.regulated = false)
    (v : DWord) :
    d.wideWrite agent v = d.takeWide agent (milepostHit 5) MILEPOST.MP_SET v := by
  have hcause := writeRefusal_mpSet hlevel v
  rw [hstopped] at hcause
  simp only [Dev.wideWrite, hcause, Bool.false_eq_true, if_false]

/-- A Milepost that counts as running refuses it (R21). -/
theorem wideWrite_of_running {d : Dev} {agent : AgentId} (hlevel : d.blkLevel agent 0x02 ≥ 2) (hruns : d.regulated = true) (v : DWord) :
    d.wideWrite agent v = d.refuseWide agent (milepostHit 5) MILEPOST.MP_SET v .running := by
  have hcause := writeRefusal_mpSet hlevel v
  rw [hruns] at hcause
  simp only [Dev.wideWrite, hcause, if_true]

/-! ### The commands of the Milepost (R14, R19, R21, R22, R33) -/

/-- A return that a write of MP_CTRL asked for (R19). -/
theorem settle_storedReturn (d : Dev) (agent : AgentId) (w new : Word) :
    let e := settle (d.begun.stored agent MILEPOST.MP_CTRL w new (d.reg MILEPOST.MP_CTRL)).refReturn
    e.answer = .ok ∧ e.refState = 1 ∧ e.flag MILEPOST.MP_FLAGS_REF_RETURNED = true ∧ d.raised e [2] ∧
    e.time = { d.time with lockedSince := d.now, qualSince := none } ∧
    d.keepsRegs e [MILEPOST.MP_CTRL, MILEPOST.MP_STATUS, MILEPOST.MP_FLAGS] ∧ { d with time := e.time }.keepsUnits e :=
  ⟨settle_answer _, settle_refReturn (Dev.Makes.stored d agent (by decide) w new _) (by decide) (by decide) (by decide) rfl
    (Dev.keepsUnits.stored d agent MILEPOST.MP_CTRL w new _)⟩

/-- A RETURN refused leaves its record alone (R19, R51). -/
theorem regWrite_return_refused {d : Dev} {agent : AgentId} (hlevel : d.blkLevel agent 0x02 ≥ 2) (hstate : d.refState ≠ 3)
    (hroom : d.lgRoom = true) :
    d.begun.regWrite agent MILEPOST.MP_CTRL 4 = d.begun.rejectRec agent MILEPOST.MP_CTRL 4 (d.reg MILEPOST.MP_CTRL) .state := by
  have htry := regTry_return_refused hlevel hstate
  have hm : d.Makes (d.begun.rejectRec agent MILEPOST.MP_CTRL 4 (d.reg MILEPOST.MP_CTRL) .state) [] [] _ :=
    (Dev.Makes.begun d).rejectRec rfl agent MILEPOST.MP_CTRL 4 (d.reg MILEPOST.MP_CTRL) .state
  have hfree : (d.begun.regTry agent MILEPOST.MP_CTRL 4).ordinary ≤ d.begun.ordinary + 64 := by
    rw [htry]
    exact hm.ordinary_le.trans (Nat.add_le_add_left (by simp) _)
  exact (Dev.regWrite_of_room (b := d.begun) hroom hfree (by decide)).trans htry

/-- A load taken (R21): what counts elapsed time moves with the Milepost. -/
theorem settle_mpSet (d : Dev) (agent : AgentId) (v : DWord) :
    let e := settle (((d.wideBegun agent v).storedMpSet agent v).loadStep (v - d.now))
    e.answer = .ok ∧ e.now = v ∧ e.now - e.time.lockedSince = d.now - d.time.lockedSince ∧
    e.now - e.time.holdStart = d.now - d.time.holdStart ∧ e.now - e.time.windowStart = d.now - d.time.windowStart ∧
    (e.time.qualSince = d.time.qualSince.map fun t => t + (v - d.now)) ∧
    (e.time.upHold = d.time.upHold.map fun t => t + (v - d.now)) ∧ e.reg64 MILEPOST.MP_SET = v ∧
    d.keepsRegs e [MILEPOST.MP_SET, MILEPOST.MP_SET + 4] ∧ { d.loadStep (v - d.now) with halfW := e.halfW }.keepsUnits e := by
  intro e
  obtain ⟨r₁, r₂, hstored⟩ := Dev.Makes.storedMpSet d agent v
  have hm := hstored.loadStep (v - d.now)
  have htime : e.time = d.time.shift (v - d.now) := settle_time _
  have hnow : e.now = v := by rw [Dev.now, htime]; exact add_sub_cancel d.now v
  have hmoved (t : Time) : v - (t + (v - d.now)) = d.now - t := by rw [← sub_sub, sub_right_comm, sub_sub_cancel]
  have hword : e.reg64 MILEPOST.MP_SET = v := by
    rw [Dev.reg64, settle_reg _ _ (by decide) (by decide), settle_reg _ _ (by decide) (by decide)]
    exact Dev.storedMpSet_reg64 _ agent v
  refine ⟨settle_answer _, hnow, ?_, ?_, ?_, ?_, ?_, hword, hm.settle_keepsRegs, ?_⟩
  · rw [hnow, htime]; exact hmoved _
  · rw [hnow, htime]; exact hmoved _
  · rw [hnow, htime]; exact hmoved _
  · rw [htime]; rfl
  · rw [htime]; rfl
  · rw [settle_halfW]
    exact hm.settle_keepsUnits (by decide) rfl ((Dev.keepsUnits.storedMpSet (Dev.keepsUnits.wideBegun d agent v) agent v).loadStep _)

/-- A load refused (R21): its two records are all it leaves. -/
theorem settle_mpSet_refused (d : Dev) (agent : AgentId) (v : DWord) (c : Cause) :
    let e := settle ((d.wideBegun agent v).refuseWide agent (milepostHit 5) MILEPOST.MP_SET v c)
    e.answer = .rejected c ∧ e.time = d.time ∧ d.keepsRegs e [] ∧ { d with halfW := e.halfW }.keepsUnits e := by
  obtain ⟨r₁, r₂, hm⟩ := Dev.Makes.refusedMpSet d agent v c
  refine ⟨settle_answer _, settle_time _, hm.settle_keepsRegs, ?_⟩
  rw [settle_halfW]
  exact hm.settle_keepsUnits (by decide) rfl (((Dev.keepsUnits.wideBegun d agent v).recPair _ _ _ _ _ _).setAnswer _)

/-- A new remainder (R22). -/
theorem settle_mpSlew (d : Dev) (agent : AgentId) (v : Word) :
    let e := settle ((d.begun.stored agent MILEPOST.MP_SLEW v v (d.reg MILEPOST.MP_SLEW)).setSlew v)
    e.answer = .ok ∧ e.reg MILEPOST.MP_SLEW = v ∧ e.flag MILEPOST.MP_STATUS_SLEWING = decide (v ≠ 0) ∧
    e.time = { d.time with slewTicks := 0 } ∧
    e.flag MILEPOST.MP_FLAGS_SLEW_DONE = (decide (v = 0) || d.flag MILEPOST.MP_FLAGS_SLEW_DONE) ∧
    d.keepsRegs e [MILEPOST.MP_SLEW, MILEPOST.MP_STATUS, MILEPOST.MP_FLAGS] ∧ { d with time := e.time }.keepsUnits e := by
  have hm := (Dev.Makes.stored d agent (a := MILEPOST.MP_SLEW) (l := [MILEPOST.MP_SLEW, MILEPOST.MP_STATUS, MILEPOST.MP_FLAGS])
    (by decide) v v (d.reg MILEPOST.MP_SLEW)).setSlew (by decide) (by decide) (by decide) v
  have hu : ({ d with time := d.time } : Dev).keepsUnits (d.begun.stored agent MILEPOST.MP_SLEW v v (d.reg MILEPOST.MP_SLEW)) :=
    Dev.keepsUnits.stored d agent _ _ _ _
  refine ⟨?_, ?_, ?_, ?_, ?_, hm.settle_keepsRegs, hm.settle_keepsUnits_of_time (by decide) rfl (hu.setSlew v)⟩
  · exact (settle_answer _).trans (Dev.setSlew_answer _ _)
  · exact (settle_reg _ _ (by decide) (by decide)).trans (Dev.setSlew_reg _ _)
  · exact (settle_flag _ _ (by decide) (by decide)).trans (Dev.setSlew_slewing _ _)
  · exact (settle_time _).trans (Dev.setSlew_time _ _)
  · rw [settle_flag _ _ (by decide) (by decide), Dev.setSlew_done, Dev.flag, Dev.stored_fld_ne _ _ (by decide)]
    rfl

/-- A new INTERVAL (R22). -/
theorem settle_slewCfg (d : Dev) (agent : AgentId) (v : Word) :
    let e := settle (d.begun.stored agent MILEPOST.MP_SLEW_CFG (slewCfgAfter d v) (slewCfgAfter d v)
      (d.reg MILEPOST.MP_SLEW_CFG)).restartTicks
    e.answer = .ok ∧ e.fld MILEPOST.MP_SLEW_CFG_INTERVAL = bitsOf v.toNat 15 0 ∧ e.time = { d.time with slewTicks := 0 } ∧
    d.keepsRegs e [MILEPOST.MP_SLEW_CFG] ∧ { d with time := e.time }.keepsUnits e := by
  have hm := (Dev.Makes.stored d agent (a := MILEPOST.MP_SLEW_CFG) (l := [MILEPOST.MP_SLEW_CFG]) (by decide) (slewCfgAfter d v)
    (slewCfgAfter d v) (d.reg MILEPOST.MP_SLEW_CFG)).restartTicks
  have hu : ({ d with time := d.time } : Dev).keepsUnits (d.begun.stored agent MILEPOST.MP_SLEW_CFG (slewCfgAfter d v)
      (slewCfgAfter d v) (d.reg MILEPOST.MP_SLEW_CFG)) := Dev.keepsUnits.stored d agent _ _ _ _
  refine ⟨settle_answer _, ?_, settle_time _, hm.settle_keepsRegs, hm.settle_keepsUnits_of_time (by decide) rfl (hu.setTime _)⟩
  refine (settle_fld _ _ (by decide) (by decide)).trans ?_
  refine (congrArg (fun w : Word => bitsOf w.toNat 15 0) (Dev.stored_reg_self d.begun agent MILEPOST.MP_SLEW_CFG (slewCfgAfter d v)
    (slewCfgAfter d v) (d.reg MILEPOST.MP_SLEW_CFG))).trans ?_
  exact bitsOf_merge (by decide) _ v

/-- The lateness cleared (R33). -/
theorem settle_lateClr (d : Dev) (agent : AgentId) (w v : Word) :
    let e := settle (d.begun.stored agent MILEPOST.LATE_CLR w v 0).clearLate
    e.answer = .ok ∧ e.num MILEPOST.LATE_COUNT = 0 ∧ e.reg64 MILEPOST.LATE_LAST = 0 ∧ e.num MILEPOST.LATE_SRC = 0 ∧
    d.oneRecord e (wordRecord d.nowNs .live 0 agent MILEPOST.LATE_CLR v 0) ∧
    d.keepsRegs e [MILEPOST.LATE_COUNT, MILEPOST.LATE_LAST, MILEPOST.LATE_LAST + 4, MILEPOST.LATE_SRC, MILEPOST.LATE_CLR] ∧
    d.keepsUnits e := by
  have hm := (Dev.Makes.stored d agent (a := MILEPOST.LATE_CLR)
    (l := [MILEPOST.LATE_COUNT, MILEPOST.LATE_LAST, MILEPOST.LATE_LAST + 4, MILEPOST.LATE_SRC, MILEPOST.LATE_CLR]) (by decide)
    w v 0).clearLate (by decide) (by decide) (by decide) (by decide)
  refine ⟨settle_answer _, ?_, ?_, ?_, hm.settle_oneRecord (by decide), hm.settle_keepsRegs,
    hm.settle_keepsUnits (by decide) rfl (Dev.keepsUnits.stored d agent MILEPOST.LATE_CLR w v 0).clearLate⟩
  · rw [settle_num _ _ (by decide) (by decide), Dev.num, Dev.clearLate_count]; rfl
  · rw [Dev.reg64, settle_reg _ _ (by decide) (by decide), settle_reg _ _ (by decide) (by decide)]
    exact Dev.clearLate_last _
  · rw [settle_num _ _ (by decide) (by decide), Dev.num, Dev.clearLate_src]; rfl

/-- Settles O2: a read and the writes of MILEPOST do what their words ask, and the end of a command keeps all of it. -/
theorem milepostCommands : Obligations.MilepostCommands := by
  unfold Obligations.MilepostCommands
  intro s
  refine ⟨?_, ?_, ?_, ?_, ?_, ?_, ?_, ?_, ?_, ?_, ?_⟩
  · intro a hopen
    have hm : s.dev.Makes { (s.dev.begun.readNow a.id).2 with answer := .value (s.dev.begun.readNow a.id).1 } [] [] [] :=
      (Dev.Makes.begun s.dev).frame rfl rfl rfl rfl
    refine does_of_effect (e := { (s.dev.begun.readNow a.id).2 with answer := .value (s.dev.begun.readNow a.id).1 }) rfl (if_neg hopen)
      ⟨settle_answer _, settle_halfR _, hm.settle_keepsRegs, ?_, hm.settle_noRecord (by decide)⟩
    rw [settle_halfR]
    exact hm.settle_keepsUnits (by decide) rfl ⟨rfl, fun _ => rfl⟩
  · intro a v htakes hask hstate
    obtain ⟨w, new, hwrite⟩ := regWrite_mpCtrl_return (Dev.takesAt_of_takes regHit_mpCtrl htakes) (.inl hask) hstate
    exact does_of_effect rfl ((if_pos hask).trans hwrite) (settle_storedReturn s.dev a.id w new)
  · intro a v htakes hask hstate
    obtain ⟨w, new, hwrite⟩ := regWrite_mpCtrl_return (Dev.takesAt_of_takes regHit_mpCtrl htakes) (.inr hask) hstate
    exact does_of_effect rfl ((if_pos hask).trans hwrite) (settle_storedReturn s.dev a.id w new)
  · rintro a _ hlevel rfl hstate hroom
    have hm : s.dev.Makes (s.dev.begun.rejectRec a.id MILEPOST.MP_CTRL 4 (s.dev.reg MILEPOST.MP_CTRL) .state) [] [] _ :=
      (Dev.Makes.begun s.dev).rejectRec rfl a.id MILEPOST.MP_CTRL 4 (s.dev.reg MILEPOST.MP_CTRL) .state
    exact does_of_effect rfl ((if_pos (by decide)).trans (regWrite_return_refused hlevel hstate hroom))
      ⟨settle_answer _, hm.settle_oneRecord (by decide), hm.settle_keepsRegs,
        hm.settle_keepsUnits (by decide) rfl ⟨rfl, fun _ => rfl⟩⟩
  · intro a v hlevel hstopped hroom
    obtain ⟨r₁, r₂, hm⟩ := Dev.Makes.storedMpSet s.dev a.id v
    have heffect : (s.dev.wideBegun a.id v).wideWrite a.id v
        = ((s.dev.wideBegun a.id v).storedMpSet a.id v).loadStep (v - s.dev.now) :=
      (wideWrite_of_stopped (d := s.dev.wideBegun a.id v) hlevel hstopped v).trans (takeWide_mpSet _ a.id v)
    exact does_of_effect rfl (writeBoth_mpSet hroom heffect (hm.loadStep _) (by simp)) (settle_mpSet s.dev a.id v)
  · intro a v hlevel hruns hroom
    obtain ⟨r₁, r₂, hm⟩ := Dev.Makes.refusedMpSet s.dev a.id v .running
    have heffect := wideWrite_of_running (d := s.dev.wideBegun a.id v) hlevel hruns v
    exact does_of_effect rfl (writeBoth_mpSet hroom heffect hm (by simp)) (settle_mpSet_refused s.dev a.id v .running)
  · intro a v htakes
    exact does_of_effect rfl (regWrite_mpSlew (Dev.takesAt_of_takes regHit_mpSlew htakes)) (settle_mpSlew s.dev a.id v)
  · intro a v htakes hnew
    exact does_of_effect rfl (regWrite_slewCfg (Dev.takesAt_of_takes regHit_mpSlewCfg htakes) hnew) (settle_slewCfg s.dev a.id v)
  · intro hdue hup
    obtain ⟨hnow, hremain, hrest⟩ := settle_slewTick s.dev (s.dev.now + 65) (s.dev.reg MILEPOST.MP_SLEW - 1)
    exact does_of_effect rfl ((Dev.when_of_true s.dev.begun (c := s.dev.begun.slewDue) hdue _).trans
        (Dev.slewTick_up (d := s.dev.begun) hup))
      ⟨hnow, hremain.trans (toInt_sub_one hup), hrest⟩
  · intro hdue hdown
    obtain ⟨hnow, hremain, hrest⟩ := settle_slewTick s.dev (s.dev.now + 63) (s.dev.reg MILEPOST.MP_SLEW + 1)
    exact does_of_effect rfl ((Dev.when_of_true s.dev.begun (c := s.dev.begun.slewDue) hdue _).trans
        (Dev.slewTick_down (d := s.dev.begun) hdown))
      ⟨hnow, hremain.trans (toInt_add_one hdown), hrest⟩
  · intro a v htakes hask
    exact does_of_effect rfl ((if_pos hask).trans (regWrite_lateClr (Dev.takesAt_of_takes regHit_lateClr htakes) hask))
      (settle_lateClr s.dev a.id _ v)

/-! ### A step and the state after power-on reset (R13, R54, R56, R67) -/

theorem step_cons {s : State} {c : Instr} {l : List Instr} (h : s.pending = c :: l) : step s = exec c { s with pending := l } := by
  rw [step, h]

theorem step_nil {s : State} (h : s.pending = []) : step s = s.onDev Dev.tick := by
  rw [step, h]

/-- Settles O55, by what the queue holds. -/
theorem stepRunsFrontCommand : Obligations.StepRunsFrontCommand := by
  unfold Obligations.StepRunsFrontCommand
  exact ⟨fun c l s h => step_cons h, fun s h => ⟨_, step_nil h, h⟩⟩

/-- A word that reset does not write reads its reset value (R13). -/
theorem reset_reg {k : Nat} (hstatus : k ≠ LEDGER.LG_STATUS) (hnext : k ≠ LEDGER.LG_NEXT_SEQ) :
    State.reset.dev.reg k = regReset k := by
  have hregs : State.reset.dev.regs = [(LEDGER.LG_STATUS, 1), (LEDGER.LG_NEXT_SEQ, 1)] := rfl
  simp only [Dev.reg, hregs, Tab.get, hstatus.symm, hnext.symm, if_false]

theorem reset_nextSeq : State.reset.dev.reg LEDGER.LG_NEXT_SEQ = 1 := rfl

/-- The reader is one record behind after reset, less than any ring (R57, R58). -/
theorem reset_ledgerShown : State.reset.dev.ledgerShown := by
  have hread : State.reset.dev.reg LEDGER.LG_READ_SEQ = 0 :=
    (reset_reg (by decide) (by decide)).trans (by decide +kernel)
  have hring : 4096 ≤ State.reset.dev.ringSize := by unfold Dev.ringSize; split <;> decide
  refine ⟨rfl, by decide, fun hbehind => absurd hbehind ?_⟩
  rw [reset_nextSeq, hread]
  exact Nat.not_lt.mpr (le_trans (by decide) hring)

/-- Settles O60: reset writes two words of the Ledger alone, those that show its first record. -/
theorem resetState : Obligations.ResetState := by
  unfold Obligations.ResetState
  have hctrl : regReset LEDGER.LG_CTRL = 0 := by decide +kernel
  exact ⟨rfl, rfl, rfl, rfl, rfl, rfl, rfl, by rw [hctrl]; rfl, reset_nextSeq, fun k => reset_reg, reset_ledgerShown⟩

/-! ### The pace monitor (R30 to R32) -/

/-- A loop latency above its budget leaves no margin (R31). -/
theorem marginOk_of_over {budget lat : Nat} (m : Nat) (h : budget < lat) : marginOk budget lat m = false := by
  have hmul : budget * 256 < lat * 256 := by omega
  exact decide_eq_false (by omega)

namespace Dev

/-- The words that a request writes. -/
def vcoreWords (d : Dev) (mv : Nat) : Dev :=
  ((d.setFld MILEPOST.PACE_STATUS_VCORE_MV mv).setFld MILEPOST.PACE_STATUS_AT_CEILING (b2n (mv == 850))).setFld
    MILEPOST.PACE_STATUS_AT_FLOOR (b2n (mv == 680))

theorem requestVcore_regs (d : Dev) (mv : Nat) (old : Word) :
    (d.requestVcore mv old).regs = (d.vcoreWords (min 850 (max 680 mv))).regs := rfl

/-- The supply voltage that a request sets (R30). -/
theorem requestVcore_mv (d : Dev) (mv : Nat) (old : Word) :
    (d.requestVcore mv old).fld MILEPOST.PACE_STATUS_VCORE_MV = min 850 (max 680 mv) := by
  have hlt : min 850 (max 680 mv) < 2 ^ 12 := by omega
  have hset := fld_setFld_of_lt d MILEPOST.PACE_STATUS_VCORE_MV _ (by decide) (by decide) hlt
  rw [fld_of_regs _ (requestVcore_regs d mv old), vcoreWords, fld_setFld_ne _ _ _ _ (by decide) (by decide) (by decide),
    fld_setFld_ne _ _ _ _ (by decide) (by decide) (by decide), hset]

theorem requestVcore_atFloor (d : Dev) (mv : Nat) (old : Word) :
    (d.requestVcore mv old).flag MILEPOST.PACE_STATUS_AT_FLOOR = decide (min 850 (max 680 mv) = 680) := by
  rw [flag, fld_of_regs _ (requestVcore_regs d mv old)]
  exact flag_setFld_b2n _ MILEPOST.PACE_STATUS_AT_FLOOR _ (by decide) (by decide)

theorem requestVcore_overBudget (d : Dev) (mv : Nat) (old : Word) :
    (d.requestVcore mv old).flag MILEPOST.PACE_STATUS_OVER_BUDGET = d.flag MILEPOST.PACE_STATUS_OVER_BUDGET := by
  rw [flag, fld_of_regs _ (requestVcore_regs d mv old), vcoreWords, fld_setFld_ne _ _ _ _ (by decide) (by decide) (by decide),
    fld_setFld_ne _ _ _ _ (by decide) (by decide) (by decide), fld_setFld_ne _ _ _ _ (by decide) (by decide) (by decide), flag]

/-- A request is of words and a record alone. -/
theorem keepsUnits.requestVcore {d₀ d : Dev} (h : d₀.keepsUnits d) (mv : Nat) (old : Word) :
    d₀.keepsUnits (d.requestVcore mv old) :=
  (((h.setFld _ _).setFld _ _).setFld _ _).sysRec _ _

theorem requestVcore_time (d : Dev) (mv : Nat) (old : Word) : (d.requestVcore mv old).time = d.time := rfl

/-- A request writes PACE_STATUS and makes its record (R32). -/
theorem Makes.requestVcore {d e : Dev} {l ids : List Nat} {rs : List Record} (h : d.Makes e l ids rs) (hn : e.now = d.now)
    (hs : MILEPOST.PACE_STATUS ∈ l) (mv : Nat) (old : Word) :
    d.Makes (e.requestVcore mv old) l ids
      (rs ++ [wordRecord d.nowNs .system 0 0x0600 MILEPOST.PACE_STATUS ((e.requestVcore mv old).reg MILEPOST.PACE_STATUS) old]) :=
  (((h.setFld (f := MILEPOST.PACE_STATUS_VCORE_MV) hs _).setFld (f := MILEPOST.PACE_STATUS_AT_CEILING) hs _).setFld
    (f := MILEPOST.PACE_STATUS_AT_FLOOR) hs _).sysRec hn MILEPOST.PACE_STATUS old

end Dev

/-! ### A measurement (R31) -/

namespace Dev

/-- A measurement kept in its path's worst. -/
def measured (d : Dev) (loop : Bool) (lat : Nat) : Dev :=
  { d with time :=
      if loop then { d.time with loopWorst := worse d.time.loopWorst lat }
      else { d.time with ringWorst := worse d.time.ringWorst lat } }

/-- OVER_BUDGET set with its event. -/
def overBudget (d : Dev) : Dev := (d.setFld MILEPOST.PACE_STATUS_OVER_BUDGET 1).raise 3

theorem overBudget_fld (d : Dev) {f : Fld} (hw : f.hi < 32) (hd : f.addr ≠ MILEPOST.PACE_STATUS ∨ f.hi < 15) :
    d.overBudget.fld f = d.fld f :=
  (fld_of_regs f (raise_regs (d.setFld MILEPOST.PACE_STATUS_OVER_BUDGET 1) 3)).trans
    (fld_setFld_ne d MILEPOST.PACE_STATUS_OVER_BUDGET f 1 (by decide) hw (hd.imp_right .inl))

theorem Makes.overBudget {d e : Dev} {l : List Nat} {rs : List Record} (h : d.Makes e l [] rs) (hn : e.now = d.now)
    (hs : MILEPOST.PACE_STATUS ∈ l) : d.Makes e.overBudget l [3] rs :=
  (h.setFld (f := MILEPOST.PACE_STATUS_OVER_BUDGET) hs 1).raise ((congrArg Timebase.milepost (setFld_time e _ 1)).trans hn) 3

theorem overBudget_time (d : Dev) : d.overBudget.time = d.time := (raise_time _ 3).trans (setFld_time d _ 1)

theorem keepsUnits.overBudget {d₀ d : Dev} (h : d₀.keepsUnits d) : d₀.keepsUnits d.overBudget :=
  (h.setFld MILEPOST.PACE_STATUS_OVER_BUDGET 1).raise 3

theorem overBudget_flag (d : Dev) : d.overBudget.flag MILEPOST.PACE_STATUS_OVER_BUDGET = true := by
  rw [overBudget, flag, fld_of_regs _ (raise_regs _ 3)]
  exact flag_setFld_one d _ (by decide) (by decide)

/-- The time base of an up request. -/
def upHeld (d : Dev) : Dev := { d with time := { d.time with upHold := some (d.now + nsT 1000), downBlocked := 5 } }

/-- An up request: UP_STEP more, a hold-off of 1 µs, and no down step in four windows after the present one. -/
def raiseVcore (d : Dev) (old : Word) : Dev :=
  d.upHeld.requestVcore (d.upHeld.fld MILEPOST.PACE_STATUS_VCORE_MV + d.upHeld.fld MILEPOST.PACE_STEP_UP_STEP) old

theorem upHeld_fld (d : Dev) (f : Fld) : d.upHeld.fld f = d.fld f := fld_of_regs f rfl

theorem raiseVcore_time (d : Dev) (old : Word) :
    (d.raiseVcore old).time = { d.time with upHold := some (d.now + nsT 1000), downBlocked := 5 } := rfl

theorem raiseVcore_mv (d : Dev) (old : Word) : (d.raiseVcore old).fld MILEPOST.PACE_STATUS_VCORE_MV
    = min 850 (max 680 (d.fld MILEPOST.PACE_STATUS_VCORE_MV + d.fld MILEPOST.PACE_STEP_UP_STEP)) := by
  rw [raiseVcore, requestVcore_mv, upHeld_fld, upHeld_fld]

theorem raiseVcore_overBudget (d : Dev) (old : Word) :
    (d.raiseVcore old).flag MILEPOST.PACE_STATUS_OVER_BUDGET = d.flag MILEPOST.PACE_STATUS_OVER_BUDGET := by
  rw [raiseVcore, requestVcore_overBudget, flag, upHeld_fld, flag]

theorem Makes.raiseVcore {d e : Dev} {l ids : List Nat} {rs : List Record} (h : d.Makes e l ids rs) (hn : e.now = d.now)
    (hs : MILEPOST.PACE_STATUS ∈ l) (old : Word) : d.Makes (e.raiseVcore old) l ids
      (rs ++ [wordRecord d.nowNs .system 0 0x0600 MILEPOST.PACE_STATUS ((e.raiseVcore old).reg MILEPOST.PACE_STATUS) old]) :=
  have hheld : d.Makes e.upHeld l ids rs := h.frame rfl rfl rfl rfl
  hheld.requestVcore hn hs _ old

/-- A latency beyond the budget sets OVER_BUDGET and asks for a higher voltage at once, where nothing holds the request off. -/
theorem paceAdapt_of_over {d : Dev} {budget lat : Nat} (hover : budget < lat)
    (hflag : d.flag MILEPOST.PACE_STATUS_OVER_BUDGET = false) (hext : d.flag MILEPOST.PACE_STATUS_EXTERNAL = false)
    (hhold : d.time.upHold = none) (hmv : d.fld MILEPOST.PACE_STATUS_VCORE_MV < 850) :
    d.paceAdapt budget lat = d.overBudget.raiseVcore (d.reg MILEPOST.PACE_STATUS) := by
  have hset : (decide (lat > budget) && !d.flag MILEPOST.PACE_STATUS_OVER_BUDGET) = true := by
    rw [hflag, decide_eq_true hover]; rfl
  have hext' : d.overBudget.flag MILEPOST.PACE_STATUS_EXTERNAL = false := by
    rw [flag, overBudget_fld d (by decide) (by decide)]; exact hext
  have hmv' : d.overBudget.fld MILEPOST.PACE_STATUS_VCORE_MV < 850 := by rw [overBudget_fld d (by decide) (by decide)]; exact hmv
  rw [paceAdapt, when_of_true d hset]
  refine if_neg ?_
  rintro (hmargin | hfed | hheld | hceiling)
  · rw [marginOk_of_over _ hover] at hmargin
    exact absurd hmargin (by decide)
  · exact absurd (hext'.symm.trans hfed) (by decide)
  · exact hheld hhold
  · exact absurd hmv' (Nat.not_lt.mpr hceiling)

end Dev

/-! ### The end of a window (R31) -/

namespace Dev

/-- A new window, with the worst values of the last one shown. -/
def closeWindow (d : Dev) : Dev :=
  { d.setNum MILEPOST.PACE_WORST (min 0xFFFF (d.time.ringWorst.getD 0) * 0x10000 + min 0xFFFF (d.time.loopWorst.getD 0)) with
    time := { d.time with windowStart := d.now, loopWorst := none, ringWorst := none, downBlocked := d.time.downBlocked - 1 } }

theorem closeWindow_reg (d : Dev) {k : Nat} (hk : k ≠ MILEPOST.PACE_WORST) : d.closeWindow.reg k = d.reg k := reg_setReg_ne d hk _

theorem closeWindow_fld (d : Dev) {f : Fld} (hf : f.addr ≠ MILEPOST.PACE_WORST) : d.closeWindow.fld f = d.fld f :=
  fld_of_reg (d.closeWindow_reg hf)

theorem closeWindow_now (d : Dev) : d.closeWindow.now = d.now := rfl

theorem closeWindow_worst (d : Dev) : d.closeWindow.num MILEPOST.PACE_WORST
    = min 0xFFFF (d.time.ringWorst.getD 0) * 0x10000 + min 0xFFFF (d.time.loopWorst.getD 0) :=
  num_setNum d _ _ (by omega)

theorem closeWindow_loopWorst (d : Dev) : d.closeWindow.fld MILEPOST.PACE_WORST_LOOP_WORST = min 0xFFFF (d.time.loopWorst.getD 0) := by
  have hbits : d.closeWindow.fld MILEPOST.PACE_WORST_LOOP_WORST = d.closeWindow.num MILEPOST.PACE_WORST / 2 ^ 0 % 2 ^ 16 := rfl
  rw [hbits, closeWindow_worst]
  omega

theorem closeWindow_ringWorst (d : Dev) : d.closeWindow.fld MILEPOST.PACE_WORST_RING_WORST = min 0xFFFF (d.time.ringWorst.getD 0) := by
  have hbits : d.closeWindow.fld MILEPOST.PACE_WORST_RING_WORST = d.closeWindow.num MILEPOST.PACE_WORST / 2 ^ 16 % 2 ^ 16 := rfl
  rw [hbits, closeWindow_worst]
  omega

theorem Makes.closeWindow (d : Dev) {l : List Nat} (hl : MILEPOST.PACE_WORST ∈ l) : d.Makes d.begun.closeWindow l [] [] := by
  have hworst (n : Nat) : d.Makes (d.begun.setNum MILEPOST.PACE_WORST n) l [] [] := (Makes.begun d).setNum hl n
  exact (hworst _).frame rfl rfl rfl rfl

end Dev

/-- A window that ends: the new one, with a down request in ADAPT where both margins are kept, nothing blocks it, and an internal
supply is above the least (R30, R31). -/
def Dev.windowEnd (d : Dev) : Dev :=
  if d.closeWindow.fld MILEPOST.PACE_CTRL_MODE = 2 ∧
      (d.lowerOk d.time.loopWorst (d.fld MILEPOST.PACE_TARGET_LOOP_BUDGET)
        && d.lowerOk d.time.ringWorst (d.fld MILEPOST.PACE_TARGET_RING_BUDGET)) = true ∧
      d.time.downBlocked = 0 ∧ ¬ d.closeWindow.flag MILEPOST.PACE_STATUS_EXTERNAL = true ∧
      d.closeWindow.fld MILEPOST.PACE_STATUS_VCORE_MV > 680 then
    d.closeWindow.requestVcore
      (d.closeWindow.fld MILEPOST.PACE_STATUS_VCORE_MV - d.closeWindow.fld MILEPOST.PACE_STEP_DOWN_STEP)
      (d.closeWindow.reg MILEPOST.PACE_STATUS)
  else d.closeWindow

/-- The monitor alone requests nothing. -/
theorem Dev.windowEnd_of_monitor {d : Dev} (h : d.fld MILEPOST.PACE_CTRL_MODE = 1) : d.windowEnd = d.closeWindow := by
  have hmode : d.closeWindow.fld MILEPOST.PACE_CTRL_MODE = 1 := (d.closeWindow_fld (by decide)).trans h
  refine if_neg ?_
  rintro ⟨hadapt, -⟩
  exact absurd (hmode.symm.trans hadapt) (by decide)

/-- Both margins kept and nothing blocked, a down request follows. -/
theorem Dev.windowEnd_of_margin {d : Dev} (hmode : d.fld MILEPOST.PACE_CTRL_MODE = 2)
    (hloop : d.lowerOk d.time.loopWorst (d.fld MILEPOST.PACE_TARGET_LOOP_BUDGET) = true)
    (hring : d.lowerOk d.time.ringWorst (d.fld MILEPOST.PACE_TARGET_RING_BUDGET) = true) (hblocked : d.time.downBlocked = 0)
    (hext : d.flag MILEPOST.PACE_STATUS_EXTERNAL = false) (hmv : 680 < d.fld MILEPOST.PACE_STATUS_VCORE_MV) :
    d.windowEnd = d.closeWindow.requestVcore (d.fld MILEPOST.PACE_STATUS_VCORE_MV - d.fld MILEPOST.PACE_STEP_DOWN_STEP)
      (d.reg MILEPOST.PACE_STATUS) := by
  have hmv' := d.closeWindow_fld (f := MILEPOST.PACE_STATUS_VCORE_MV) (by decide)
  have hext' := d.closeWindow_fld (f := MILEPOST.PACE_STATUS_EXTERNAL) (by decide)
  have hstep := d.closeWindow_fld (f := MILEPOST.PACE_STEP_DOWN_STEP) (by decide)
  have hold := d.closeWindow_reg (k := MILEPOST.PACE_STATUS) (by decide)
  have hinternal : ¬ d.closeWindow.flag MILEPOST.PACE_STATUS_EXTERNAL = true := by
    rw [Dev.flag, hext']
    exact ne_true_of_eq_false hext
  rw [Dev.windowEnd, if_pos ⟨(d.closeWindow_fld (by decide)).trans hmode, Bool.and_eq_true_iff.mpr ⟨hloop, hring⟩, hblocked,
    hinternal, hmv'.symm ▸ hmv⟩, hmv', hstep, hold]

theorem exec_paceWindowEnd {s : State} (hon : s.dev.fld MILEPOST.PACE_CTRL_MODE ≠ 0)
    (hdue : s.dev.due (s.dev.time.windowStart + nsT s.dev.paceWindow) = true) :
    exec .paceWindowEnd s = .next { s with dev := settle s.dev.begun.windowEnd } := by
  have hends : (decide (s.dev.begun.fld MILEPOST.PACE_CTRL_MODE ≠ 0)
      && s.dev.begun.due (s.dev.begun.time.windowStart + nsT s.dev.begun.paceWindow)) = true :=
    Bool.and_eq_true_iff.mpr ⟨decide_eq_true hon, hdue⟩
  exact congrArg (fun d => Host.Outcome.next { s with dev := settle d }) (Dev.when_of_true _ hends _)

theorem exec_paceUpHoldoffEnd {s : State} {t : Time} (h : s.dev.time.upHold = some t) :
    exec .paceUpHoldoffEnd s = .next { s with dev := settle (s.dev.begun.when (s.dev.begun.due t) fun d =>
      { d with time := { d.time with upHold := none } }) } := by
  refine congrArg (fun d => Host.Outcome.next { s with dev := settle d }) ?_
  dsimp only
  split
  case h_1 hnone => exact absurd (h.symm.trans hnone) (by simp)
  case h_2 u hsome => rw [Option.some.inj (h.symm.trans hsome)]; rfl

/-- Settles O3: a measurement keeps its path's worst, one beyond its budget raises the voltage, and a window ends with its worst values
shown and the voltage lowered where the margins allow it. -/
theorem paceCommands : Obligations.PaceCommands := by
  unfold Obligations.PaceCommands
  intro s
  refine ⟨?_, ?_, ?_, ?_, ?_⟩
  · intro loop lat hmode
    have hm : s.dev.Makes (s.dev.begun.measured loop lat) [] [] [] := (Dev.Makes.begun s.dev).frame rfl rfl rfl rfl
    have hon : s.dev.begun.fld MILEPOST.PACE_CTRL_MODE ≠ 0 := ne_of_eq_of_ne hmode (by decide)
    have hmonitor : (s.dev.begun.measured loop lat).fld MILEPOST.PACE_CTRL_MODE ≠ 2 := ne_of_eq_of_ne hmode (by decide)
    exact does_of_effect rfl ((Dev.when_of_true _ (decide_eq_true hon) _).trans (Dev.when_of_false _ (decide_eq_false hmonitor) _))
      ⟨settle_time _, hm.settle_keepsRegs, hm.settle_keepsUnits_time (by decide) ⟨rfl, fun _ => rfl⟩, hm.settle_noRecord (by decide)⟩
  · intro lat hmode hover hflag hext hhold hmv
    have hm : s.dev.Makes (s.dev.begun.measured true lat) [MILEPOST.PACE_STATUS] [] [] :=
      (Dev.Makes.begun s.dev).frame rfl rfl rfl rfl
    have hon : s.dev.begun.fld MILEPOST.PACE_CTRL_MODE ≠ 0 := ne_of_eq_of_ne hmode (by decide)
    have hadapt : (s.dev.begun.measured true lat).fld MILEPOST.PACE_CTRL_MODE = 2 := hmode
    have hreq := (hm.overBudget rfl (by decide)).raiseVcore
      ((congrArg Timebase.milepost (Dev.overBudget_time _)).trans rfl) (by decide) (s.dev.reg MILEPOST.PACE_STATUS)
    have htime := Dev.raiseVcore_time (s.dev.begun.measured true lat).overBudget (s.dev.reg MILEPOST.PACE_STATUS)
    rw [Dev.now, Dev.overBudget_time] at htime
    refine does_of_effect rfl ((Dev.when_of_true _ (decide_eq_true hon) _).trans ((Dev.when_of_true _ (decide_eq_true hadapt) _).trans
      (Dev.paceAdapt_of_over (d := s.dev.begun.measured true lat) hover hflag hext hhold hmv)))
      ⟨?_, hreq.settle_raised, ?_, ?_, ?_, hreq.settle_keepsRegs, ?_⟩
    · rw [settle_flag _ _ (by decide) (by decide), Dev.raiseVcore_overBudget, Dev.overBudget_flag]
    · rw [settle_fld _ _ (by decide) (by decide), Dev.raiseVcore_mv, Dev.overBudget_fld _ (by decide) (by decide),
        Dev.overBudget_fld _ (by decide) (by decide)]
      rfl
    · exact (settle_time _).trans htime
    · rw [settle_reg _ _ (by decide) (by decide)]
      exact hreq.settle_oneRecord (by decide)
    · have hu : ({ s.dev with time := (s.dev.begun.measured true lat).time } : Dev).keepsUnits (s.dev.begun.measured true lat) :=
        ⟨rfl, fun _ => rfl⟩
      exact hreq.settle_keepsUnits_of_time (by decide) (Dev.requestVcore_time _ _ _) ((hu.overBudget.setTime _).requestVcore _ _)
  · intro t hhold hdue
    have hm : s.dev.Makes { s.dev.begun with time := { s.dev.time with upHold := none } } [] [] [] :=
      (Dev.Makes.begun s.dev).frame rfl rfl rfl rfl
    exact does_of_effect (exec_paceUpHoldoffEnd hhold) (Dev.when_of_true _ hdue _)
      ⟨settle_time _, hm.settle_keepsRegs, hm.settle_keepsUnits_time (by decide) ⟨rfl, fun _ => rfl⟩, hm.settle_noRecord (by decide)⟩
  · intro hmode hdue
    have hm := Dev.Makes.closeWindow s.dev (l := [MILEPOST.PACE_WORST]) (by decide)
    exact does_of_effect (exec_paceWindowEnd (ne_of_eq_of_ne hmode (by decide)) hdue) (Dev.windowEnd_of_monitor (d := s.dev.begun) hmode)
      ⟨(settle_fld _ _ (by decide) (by decide)).trans (Dev.closeWindow_loopWorst _),
        (settle_fld _ _ (by decide) (by decide)).trans (Dev.closeWindow_ringWorst _), settle_time _, hm.settle_keepsRegs,
        hm.settle_keepsUnits_time (by decide) ⟨rfl, fun _ => rfl⟩, hm.settle_noRecord (by decide)⟩
  · intro hmode hdue hloop hring hblocked hext hmv
    have hwords := Dev.Makes.closeWindow s.dev (l := [MILEPOST.PACE_WORST, MILEPOST.PACE_STATUS]) (by decide)
    have hm := hwords.requestVcore (Dev.closeWindow_now _) (by decide)
      (s.dev.begun.fld MILEPOST.PACE_STATUS_VCORE_MV - s.dev.begun.fld MILEPOST.PACE_STEP_DOWN_STEP) (s.dev.reg MILEPOST.PACE_STATUS)
    have hu : ({ s.dev with time := s.dev.begun.closeWindow.time } : Dev).keepsUnits s.dev.begun.closeWindow := ⟨rfl, fun _ => rfl⟩
    refine does_of_effect (exec_paceWindowEnd (ne_of_eq_of_ne hmode (by decide)) hdue)
      (Dev.windowEnd_of_margin (d := s.dev.begun) hmode hloop hring hblocked hext hmv)
      ⟨?_, ?_, hm.settle_keepsRegs, hm.settle_keepsUnits_of_time (by decide) (Dev.requestVcore_time _ _ _) (hu.requestVcore _ _), ?_⟩
    · exact (settle_fld _ _ (by decide) (by decide)).trans (Dev.requestVcore_mv _ _ _)
    · rw [settle_flag _ _ (by decide) (by decide), settle_fld _ _ (by decide) (by decide), Dev.requestVcore_mv]
      exact Dev.requestVcore_atFloor _ _ _
    · rw [settle_reg _ _ (by decide) (by decide)]
      exact hm.settle_oneRecord (by decide)

end Sys2Proof.Machine

/-! ## Coherent configuration (spec/02): the Ledger, claims, commits and snapshots -/

namespace Sys2Proof.Machine

/-! ### What mirroring a record leaves of the Ledger (R62) -/

/-- The Ledger's records that wait, its mode, its occupancy and its flags stay. -/
structure Mirrored (d d' : Dev) : Prop where
  fresh : d'.led.fresh = d.led.fresh
  status : d'.reg LEDGER.LG_STATUS = d.reg LEDGER.LG_STATUS

namespace Mirrored

theorem refl (d : Dev) : Mirrored d d := ⟨rfl, rfl⟩

theorem trans {a b c : Dev} (h : Mirrored a b) (g : Mirrored b c) : Mirrored a c :=
  ⟨g.fresh.trans h.fresh, g.status.trans h.status⟩

theorem setReg (d : Dev) {a : Nat} (v : Word) (ha : a ≠ LEDGER.LG_STATUS) : Mirrored d (d.setReg a v) :=
  ⟨rfl, Dev.reg_setReg_ne d ha.symm v⟩

theorem of_eq {d d' : Dev} (hf : d'.led.fresh = d.led.fresh) (hr : d'.regs = d.regs) : Mirrored d d' :=
  ⟨hf, Dev.reg_of_regs _ hr⟩

theorem ringStatus (d : Dev) (n : Nat) (v : Word) : Mirrored d (d.setReg (HOST.RING_STATUS n) v) :=
  setReg d v (by simp only [HOST.RING_STATUS, LEDGER.LG_STATUS]; omega)

theorem hostLose (d : Dev) (r : HostRec) : Mirrored d (d.hostLose r) := by
  simp only [Dev.hostLose]
  split
  · refine trans ?_ (ringStatus _ r.ring _)
    exact of_eq rfl rfl
  · exact ringStatus d r.ring _

theorem hostPush (d : Dev) (r : HostRec) : Mirrored d (d.hostPush r) := of_eq rfl rfl

/-- A ring's OVERFLOW record placed, and what it counted zeroed. -/
theorem hostOwed (d : Dev) (n : Nat) (x : HostRec) (l : Tab Time) :
    Mirrored d { (d.hostPush x).setNum (HOST.RING_STATUS n) 0 with hostLost := l } :=
  ((hostPush d x).trans (ringStatus _ n 0)).trans (of_eq rfl rfl)

theorem hostEnqueue (d : Dev) (r : HostRec) : Mirrored d (d.hostEnqueue r) := by
  simp only [Dev.hostEnqueue]
  split
  · exact setReg d _ (by decide)
  split
  · exact of_eq rfl rfl
  split
  · exact hostLose d r
  split
  · split
    · exact (hostOwed d r.ring _ _).trans (hostLose _ r)
    · exact (hostOwed d r.ring _ _).trans (hostPush _ r)
  · exact hostPush d r

theorem mirror (d : Dev) (r : Record) : Mirrored d (d.mirror r) := by
  unfold Dev.mirror
  generalize he : (if bitOf (d.fld LEDGER.LG_HOST_MIRROR_KINDS) (r.kind.code - 1) = true then _ else d) = e
  have hhost : Mirrored d e := by
    subst he
    split
    · exact hostEnqueue d _
    · exact refl d
  refine hhost.trans ?_
  dsimp only
  split
  · split
    · exact setReg e _ (by decide)
    · exact of_eq rfl rfl
  · exact refl e

end Mirrored

theorem setBytes_led (d : Dev) (a : Nat) (bs : List Byte) : (d.setBytes a bs).led = d.led := by
  induction bs generalizing d a with
  | nil => rfl
  | cons b bs ih => exact (ih _ _)

theorem drainOne_led (d : Dev) : d.drainOne.led = d.led := by
  simp only [Dev.drainOne]
  split
  · rfl
  · rw [Dev.setReg_led, Dev.setFld_led]
    split
    · exact setBytes_led d _ _
    · rfl


/-- The device with a place free for a record: a full buffer on its way to DRAM gives up its oldest (R61). -/
def Dev.makeRoom (d : Dev) : Dev := if d.lgDram && decide (d.fld LEDGER.LG_STATUS_OCC ≥ 4096) then d.drainOne else d

/-- The device with the record `r` at the head, the sequence counted on and the place taken. -/
def Dev.addRecord (d : Dev) (r : Record) : Dev :=
  let e := ({ d with led := { d.led with chip := r :: d.led.chip } } : Dev).wrapNum LEDGER.LG_NEXT_SEQ
  e.setFld LEDGER.LG_STATUS_OCC (satInc 4096 (e.fld LEDGER.LG_STATUS_OCC))

/-- The record `r` with the next sequence number. -/
def Dev.nextRecord (d : Dev) (r : Record) : Record := { r with seq := d.reg LEDGER.LG_NEXT_SEQ }

theorem enter_eq (d : Dev) (r : Record) :
    d.enter r = (d.makeRoom.addRecord (d.makeRoom.nextRecord r)).mirror (d.makeRoom.nextRecord r) := rfl

theorem makeRoom_led (d : Dev) : d.makeRoom.led = d.led := by
  rw [Dev.makeRoom]
  split
  · exact drainOne_led d
  · rfl

theorem addRecord_fresh (d : Dev) (r : Record) : (d.addRecord r).led.fresh = d.led.fresh := rfl

theorem enter_fresh (d : Dev) (r : Record) : (d.enter r).led.fresh = d.led.fresh := by
  rw [enter_eq, (Mirrored.mirror _ _).fresh, addRecord_fresh, makeRoom_led]

/-- A run put in its place: none of its records waits any longer. -/
theorem enterRun_fresh (d : Dev) (u : List Record) : (d.enterRun u).led.fresh = d.led.fresh := by
  have henter : (u.foldl Dev.enter d).led.fresh = d.led.fresh := by
    induction u generalizing d with
    | nil => rfl
    | cons r u ih => exact (ih _).trans (enter_fresh d r)
  refine Eq.trans ?_ henter
  simp only [Dev.enterRun]
  split <;> rfl

theorem persist_fresh (d : Dev) (us : List (List Record)) : (d.persist us).led.fresh = d.led.fresh := by
  simp only [Dev.persist]
  split <;> rfl

theorem enterAll_fresh (d : Dev) : d.enterAll.led.fresh = [] := by
  have hruns (us : List (List Record)) (e : Dev) : (us.foldl Dev.enterRun e).led.fresh = e.led.fresh := by
    induction us generalizing e with
    | nil => rfl
    | cons u us ih => exact (ih _).trans (enterRun_fresh e u)
  exact (persist_fresh _ _).trans (hruns _ _)

/-- The reader is more than a ring behind (R58). -/
def Dev.behind (d : Dev) : Prop := d.ringSize < (d.reg LEDGER.LG_NEXT_SEQ - d.reg LEDGER.LG_READ_SEQ).toNat

/-- The device with the records entered and the latest 4,096 kept. -/
def Dev.entered (d : Dev) : Dev := { d.enterAll with led := { d.enterAll.led with chip := d.enterAll.led.chip.take 4096 } }

theorem entered_fresh (d : Dev) : d.entered.led.fresh = [] := enterAll_fresh d

theorem settle_of_behind {d : Dev} (h : d.entered.behind) (ho : d.entered.fld LEDGER.LG_STATUS_OVERRUN = 0) :
    settle d = (d.entered.setFld LEDGER.LG_STATUS_OVERRUN 1).raise 1209 := if_pos ⟨h, ho⟩

theorem settle_of_shown {d : Dev} (h : ¬ (d.entered.behind ∧ d.entered.fld LEDGER.LG_STATUS_OVERRUN = 0)) :
    settle d = d.entered := if_neg h

theorem settle_fresh (d : Dev) : (settle d).led.fresh = [] := by
  by_cases h : d.entered.behind ∧ d.entered.fld LEDGER.LG_STATUS_OVERRUN = 0
  · rw [settle_of_behind h.1 h.2, Dev.raise_led, Dev.setFld_led, entered_fresh]
  · rw [settle_of_shown h, entered_fresh]

theorem settle_chip_length (d : Dev) : (settle d).led.chip.length ≤ 4096 := by
  rw [(settle_tail d).1]
  exact List.length_take_le _ _

/-- OVERRUN is set at the end of a command that finds the reader behind (R58). -/
theorem settle_overrun {d : Dev} (h : (settle d).behind) : (settle d).flag LEDGER.LG_STATUS_OVERRUN = true := by
  by_cases hset : d.entered.behind ∧ d.entered.fld LEDGER.LG_STATUS_OVERRUN = 0
  · rw [settle_of_behind hset.1 hset.2, Dev.flag, Dev.fld_of_regs _ (Dev.raise_regs _ 1209)]
    exact Dev.flag_setFld_one d.entered LEDGER.LG_STATUS_OVERRUN (by decide) (by decide)
  · rw [settle_of_shown hset] at h ⊢
    exact bne_iff_ne.mpr fun hnone => hset ⟨h, hnone⟩

/-- The end of a command shows the Ledger, whatever the command did. -/
theorem settle_ledgerShown (d : Dev) : (settle d).ledgerShown := ⟨settle_fresh d, settle_chip_length d, settle_overrun⟩

/-- A step ends as a command does, also the tick of an empty queue. -/
theorem step_eq_settle (s : State) : ∃ (d : Dev) (l : List Instr), step s = .next { s with dev := settle d, pending := l } := by
  cases hq : s.pending with
  | nil =>
    refine ⟨Dev.tick s.dev.begun, s.pending, ?_⟩
    rw [step_nil hq, State.onDev_next]
    rfl
  | cons c l =>
    obtain ⟨d, hd⟩ := exec_eq_settle c { s with pending := l }
    exact ⟨d, l, (step_cons hq).trans hd⟩

/-- Settles O59: every step ends by showing the Ledger. -/
theorem ledgerStaysShown : Obligations.LedgerStaysShown := by
  unfold Obligations.LedgerStaysShown
  intro s t _ hstep
  obtain ⟨d, l, hd⟩ := step_eq_settle s
  cases hd.symm.trans hstep
  exact settle_ledgerShown d

/-! ### A change of the Ledger's target that finds no place (R57, R60) -/

/-- Every commit makes a record, if only the one at 0xFF08 (R43). -/
theorem grpRecs_pos (d : Dev) (k : Nat) : 0 < (d.grpRecs k).length := by
  unfold Dev.grpRecs
  dsimp only
  split
  · exact Nat.one_pos
  · rename_i hne
    rw [List.length_map]
    exact List.length_pos_iff.mpr hne

/-- Each admitted commit that waits for its boundary holds a place at least (R60). -/
theorem admitted_le_heldPlaces (d : Dev) : (d.groups.filter fun p => p.2.admitted).length ≤ d.heldPlaces := by
  have hfold (gs : List (Nat × Grp)) (n : Nat) : n + (gs.filter fun p => p.2.admitted).length
      ≤ gs.foldl (fun n p => if p.2.admitted then n + (d.grpRecs p.1).length else n) n := by
    induction gs generalizing n with
    | nil => exact le_refl _
    | cons p gs ih =>
      have hpos := grpRecs_pos d p.1
      by_cases hp : p.2.admitted = true
      · rw [List.foldl_cons, List.filter_cons, if_pos hp, if_pos hp, List.length_cons]
        exact le_trans (by omega) (ih _)
      · rw [List.foldl_cons, List.filter_cons, if_neg hp, if_neg hp]
        exact ih n
  simpa [Dev.heldPlaces] using hfold d.groups 0

/-- The switch of the Ledger's target, once the buffer is empty: the held write is admitted or goes on waiting. -/
theorem exec_ledgerTargetSwitch {s : State} {p : LivePend} (hp : s.dev.livePend = [p]) (ha : p.addr = LEDGER.LG_CTRL)
    (hocc : s.dev.fld LEDGER.LG_STATUS_OCC = 0) : exec .ledgerTargetSwitch s =
      .next { s with dev := settle ((s.dev.begun.admitHeld p).when (!(s.dev.begun.admitHeld p).livePend.any fun p => p.addr = LEDGER.LG_CTRL) fun d =>
        d.setFld LEDGER.LG_STATUS_DRAINING 0) } := by
  refine congrArg (fun d => Host.Outcome.next { s with dev := settle d }) ?_
  have hfind : s.dev.livePend.find? (fun p => p.addr = LEDGER.LG_CTRL) = some p := by rw [hp]; simp [ha]
  have hdue : (decide (s.dev.fld LEDGER.LG_STATUS_OCC = 0) || decide (p.v.toNat % 4 = 1)) = true := by rw [hocc]; rfl
  change (match s.dev.livePend.find? fun p => p.addr = LEDGER.LG_CTRL with
    | none => s.dev.begun
    | some p => s.dev.begun.when (decide (s.dev.fld LEDGER.LG_STATUS_OCC = 0) || decide (p.v.toNat % 4 = 1)) fun d =>
      (d.admitHeld p).when (!(d.admitHeld p).livePend.any fun p => p.addr = LEDGER.LG_CTRL)
        fun d => d.setFld LEDGER.LG_STATUS_DRAINING 0) = _
  rw [hfind]
  exact Dev.when_of_true _ hdue _

theorem lgDram_of_reg {d d' : Dev} (h : d'.reg LEDGER.LG_CTRL = d.reg LEDGER.LG_CTRL) : d'.lgDram = d.lgDram := by
  simp only [Dev.lgDram, Dev.fld_of_reg (g := LEDGER.LG_CTRL_TARGET) h]

theorem stall_lgDram (d : Dev) (w : Waiting) : (d.stall w).lgDram = d.lgDram := by
  have hflagged (e : Dev) : ((e.setFld LEDGER.LG_FLAGS_STALL 1).raise 1208).reg LEDGER.LG_CTRL = e.reg LEDGER.LG_CTRL :=
    Dev.reg_setFld_ne e (by decide) 1
  have hcounted (e : Dev) :
      ((e.incNum LEDGER.LG_STALL_COUNT).setFld LEDGER.LG_STATUS_STALLING 1).reg LEDGER.LG_CTRL = e.reg LEDGER.LG_CTRL :=
    (Dev.reg_setFld_ne _ (by decide) 1).trans (Dev.reg_setReg_ne e (by decide) _)
  exact lgDram_of_reg ((Dev.reg_when _ hflagged).trans
    (hcounted { d with led := { d.led with waiting := d.led.waiting ++ [w] }, answer := .waits }))

/-- A held write of LG_CTRL that finds no place in the Ledger leaves the target as it was (R57, R60). -/
theorem ledgerTargetSwitch_of_full {s t : State} {p : LivePend} (hp : s.dev.livePend = [p]) (haddr : p.addr = LEDGER.LG_CTRL)
    (hocc : s.dev.fld LEDGER.LG_STATUS_OCC = 0) (ha : p.agent ≠ devAgent)
    (hf : (s.dev.begun.unheld p).lgFull (((s.dev.begun.unheld p).takeHeld p).ordinary - (s.dev.begun.unheld p).ordinary) = true)
    (ht : exec .ledgerTargetSwitch s = .next t) : t.dev.lgDram = s.dev.lgDram := by
  obtain rfl := Host.Outcome.next.inj ((exec_ledgerTargetSwitch hp haddr hocc).symm.trans ht)
  have hwaits : (s.dev.begun.admitHeld p).lgDram = s.dev.lgDram := by
    rw [Dev.admitHeld_eq, Dev.letIn_of_full _ ha hf, stall_lgDram]
    rfl
  have hshown (c : Bool) : ((s.dev.begun.admitHeld p).when c fun d => d.setFld LEDGER.LG_STATUS_DRAINING 0).lgDram = s.dev.lgDram :=
    Dev.when_cases (p := fun e => e.lgDram = s.dev.lgDram) c hwaits ((lgDram_of_reg (Dev.reg_setFld_ne _ (by decide) 0)).trans hwaits)
  rw [(settles _).dram]
  exact hshown _

/-- An empty buffer is full where commits hold all its ordinary places. -/
theorem lgFull_of_heldPlaces {d : Dev} {n : Nat} (hdram : d.lgDram = true) (hn : n ≠ 0) (hheld : 4032 ≤ d.heldPlaces) :
    d.lgFull n = true := by
  have hover : 4032 < d.fld LEDGER.LG_STATUS_OCC + d.ordinary + d.heldPlaces + n := by omega
  simp only [Dev.lgFull, hdram, decide_eq_true hn, decide_eq_true hover, Bool.or_true, Bool.and_true]

/-- `n` admitted commits, each of which waits for its boundary. -/
def heldGroups (n : Nat) : Tab Grp := (List.range n).map fun k => (k, { st := .pending, admitted := true })

theorem heldGroups_admitted (n : Nat) : ((heldGroups n).filter fun p => p.2.admitted).length = n := by
  rw [heldGroups, List.filter_map, List.length_map]
  simp only [Function.comp_def, List.filter_true, List.length_range]

/-- The Ledger in DRAM mode with an empty buffer, a held write that leaves DRAM, and `n` places held at least (R57, R60). -/
def placesHeld (n : Nat) : Dev :=
  { ({} : Dev).setFld LEDGER.LG_CTRL_TARGET 1 with
    groups := heldGroups n
    livePend := [{ agent := 0x0400, addr := LEDGER.LG_CTRL, v := 0 }] }

theorem placesHeld_heldPlaces (n : Nat) : n ≤ (placesHeld n).heldPlaces :=
  (heldGroups_admitted n).symm.le.trans (admitted_le_heldPlaces (placesHeld n))

theorem placesHeld_lgDram (n : Nat) : (placesHeld n).lgDram = true :=
  show (({} : Dev).setFld LEDGER.LG_CTRL_TARGET 1).lgDram = true by decide +kernel

theorem placesHeld_occ (n : Nat) : (placesHeld n).fld LEDGER.LG_STATUS_OCC = 0 :=
  show (({} : Dev).setFld LEDGER.LG_CTRL_TARGET 1).fld LEDGER.LG_STATUS_OCC = 0 by decide +kernel

/-- The switch of the target finds no place for its record where 4,032 places are held. -/
theorem ledgerTargetSwitch_placesHeld {n : Nat} {t : State} (hn : 4032 ≤ n)
    (ht : exec .ledgerTargetSwitch { dev := placesHeld n } = .next t) : t.dev.lgDram = true := by
  have hheld : 4032 ≤ ((placesHeld n).begun.unheld { agent := 0x0400, addr := LEDGER.LG_CTRL, v := 0 }).heldPlaces :=
    hn.trans (placesHeld_heldPlaces n)
  have hfull := lgFull_of_heldPlaces (n := 1) (placesHeld_lgDram n) (by decide) hheld
  exact (ledgerTargetSwitch_of_full (s := { dev := placesHeld n }) (p := { agent := 0x0400, addr := LEDGER.LG_CTRL, v := 0 })
    rfl rfl (placesHeld_occ n) (by decide) hfull ht).trans (placesHeld_lgDram n)

/-- Refutes O5 in its clause of LEDGER_TARGET_SWITCH, which does not ask for room in the Ledger. Where admitted commits that wait for
their boundaries hold every ordinary place, the record of the held write finds none although the buffer is empty (R59, R60): the
Ledger's target stays DRAM, where the clause says that it leaves it. -/
theorem not_ledgerCommands : ¬ Obligations.LedgerCommands := by
  unfold Obligations.LedgerCommands
  intro h
  obtain ⟨-, -, -, hswitch, -⟩ := h { dev := placesHeld 4032 }
  obtain ⟨t, ht, -, hleft, -⟩ := hswitch { agent := 0x0400, addr := LEDGER.LG_CTRL, v := 0 } rfl rfl rfl (by decide) (placesHeld_occ 4032)
  exact absurd (hleft.symm.trans (ledgerTargetSwitch_placesHeld (le_refl _) ht)) (by decide)

/-! ### A claim in a pending global commit that grows too old (R38, R46, R164) -/

/-- Group 0 of the fault manager listed in a global commit that is pending for 3 us, claimed 2 us ago under a limit of 1 us. -/
def oldGlobalClaim : Dev :=
  { (((({} : Dev).setFld SYS.CLAIM_LIMIT_LIMIT_US 1).setFld (SYS.GC_LIST_VALID 0) 1).setFld (SYS.GC_LIST_BLOCK 0) 4).gcShow 2 0x0400 with
    time := { milepost := nsT 2000 }
    groups := [(grpKey 4 0, { st := .global, owner := 0x0400 })]
    gc := some { groups := [grpKey 4 0], target := nsT 3000, applyAt := nsT 3000 } }

/-- The abort of an old claim takes its group from the list: the entry is invalid then (R164). -/
theorem claimAgeExpiry_oldGlobalClaim {t : State} (ht : exec (.claimAgeExpiry 4 0) { dev := oldGlobalClaim } = .next t) :
    t.dev.flag (SYS.GC_LIST_VALID 0) = false := by
  obtain rfl := Host.Outcome.next.inj ht
  rw [settle_flag _ _ (by decide) (by decide)]
  decide +kernel

/-- Refutes O6 in its clause of CLAIM_AGE_EXPIRY, which says that no register word changes. A claim on a group of a pending global
commit grows too old like any other; its abort makes the group's list entry invalid (R38, R46, R164). -/
theorem not_stagingAndClaims : ¬ Obligations.StagingAndClaims := by
  unfold Obligations.StagingAndClaims
  intro h
  obtain ⟨-, -, -, -, hexpiry, -⟩ := h { dev := oldGlobalClaim }
  obtain ⟨t, ht, -, -, hregs, -⟩ := hexpiry 4 0 (by decide) (by decide +kernel) (by decide +kernel) (by decide +kernel)
  have hkept : t.dev.flag (SYS.GC_LIST_VALID 0) = oldGlobalClaim.flag (SYS.GC_LIST_VALID 0) :=
    congrArg (· != 0) (Dev.fld_of_reg (hregs _ (by decide) (by decide) (by decide)))
  rw [claimAgeExpiry_oldGlobalClaim ht] at hkept
  exact absurd hkept (by decide +kernel)

/-! ### Where the words of a group lie (R36, R64) -/

theorem findReg_mem {l : List RegD} {o : Nat} {h : RegHit} (hf : findReg l o = some h) : h.r ∈ l := by
  induction l with
  | nil => exact absurd hf (by simp [findReg])
  | cons r l ih =>
    have hcase : findReg l o = some h ∨ r = h.r := by
      rw [findReg] at hf
      generalize (if r.cnt = 1 then 0 else (o - r.off) / r.stride) = i at hf
      split_ifs at hf
      exacts [.inl hf, .inr (congrArg RegHit.r (Option.some.inj hf)), .inr (congrArg RegHit.r (Option.some.inj hf)), .inl hf,
        .inr (congrArg RegHit.r (Option.some.inj hf)), .inl hf]
    rcases hcase with htail | rfl
    · exact List.mem_cons_of_mem _ (ih htail)
    · exact List.mem_cons_self

/-- A word of a commit group: its block lists its register, which has STG fields. -/
theorem groupOf_some {a k : Nat} (hg : groupOf a = some k) :
    ∃ h : RegHit, h.r ∈ blockRegs (a / 0x10000) ∧ h.stg = true ∧ k = grpKey (a / 0x10000) h.group := by
  unfold groupOf at hg
  split at hg
  · rename_i h hhit
    split_ifs at hg with hstg
    exact ⟨h, findReg_mem hhit, hstg, (Option.some.inj hg).symm⟩
  · exact absurd hg (by simp)

/-- The blocks SYS, LEDGER and MILEPOST have no STG fields. -/
theorem unstaged_of_mem {b : Nat} {r : RegD} (hb : b < 3) (hr : r ∈ blockRegs b) : (r.fields.any fun f => f.acc = .stg) = false := by
  have hall : ∀ b < 3, (blockRegs b).all (fun r => !(r.fields.any fun f => f.acc = .stg)) = true := by decide
  simpa using List.all_eq_true.mp (hall b hb) r hr

/-- The fault manager and the Junction: the blocks whose groups no unit takes up. -/
def plainGroup (k : Nat) : Prop := k / 256 = 0x04 ∨ k / 256 = 0x06

/-- A word of a group of the fault manager or the Junction lies apart from the words that a commit and its records write. -/
theorem groupOf_apart {a k : Nat} (hk : plainGroup k) (hg : groupOf a = some k) : 3 ≤ a / 0x10000 ∧ a / 0x10000 < 7 := by
  obtain ⟨h, hmem, hstg, hkey⟩ := groupOf_some hg
  refine ⟨Nat.le_of_not_lt fun hlt => ?_, ?_⟩
  · exact absurd (hstg.symm.trans (unstaged_of_mem hlt hmem)) (by decide)
  · unfold plainGroup at hk
    unfold grpKey at hkey
    omega

/-! ### Staged words applied (R41) -/

/-- Words set in turn, each to what `f` makes of its entry. -/
def Dev.setWords (d : Dev) (f : Nat × Word → Word) (l : List (Nat × Word)) : Dev := l.foldl (fun e p => e.setReg p.1 (f p)) d

theorem setWords_reg_ne (d : Dev) (f : Nat × Word → Word) {l : List (Nat × Word)} {a : Nat} (ha : a ∉ l.map (·.1)) :
    (d.setWords f l).reg a = d.reg a := by
  induction l generalizing d with
  | nil => rfl
  | cons p l ih =>
    simp only [List.map_cons, List.mem_cons, not_or] at ha
    exact (ih (d.setReg p.1 (f p)) ha.2).trans (Dev.reg_setReg_ne d ha.1 _)

/-- Each word of a table reads as it was set. -/
theorem setWords_reg_mem (d : Dev) (f : Nat × Word → Word) {l : List (Nat × Word)} (hs : Tab.sorted l = true) {p : Nat × Word}
    (hp : p ∈ l) : (d.setWords f l).reg p.1 = f p := by
  induction l generalizing d with
  | nil => exact absurd hp (by simp)
  | cons q l ih =>
    rcases List.mem_cons.mp hp with rfl | hp
    · refine (setWords_reg_ne (d.setReg p.1 (f p)) f ?_).trans (Dev.reg_setReg_self d p.1 _)
      intro hmem
      obtain ⟨r, hr, heq⟩ := List.mem_map.mp hmem
      exact absurd (Tab.sorted_lt hs r hr) (by omega)
    · exact ih (d.setReg q.1 (f q)) (Tab.sorted_tail hs) hp

/-- Words and nothing else are set. -/
theorem setWords_eq (d : Dev) (f : Nat × Word → Word) (l : List (Nat × Word)) : d.setWords f l = { d with regs := (d.setWords f l).regs } := by
  induction l generalizing d with
  | nil => rfl
  | cons p l ih => exact (ih (d.setReg p.1 (f p)))

theorem Dev.Makes.setWords {d e : Dev} {keys ids : List Nat} {rs : List Record} (h : d.Makes e keys ids rs) (f : Nat × Word → Word)
    {l : List (Nat × Word)} (hl : ∀ p ∈ l, p.1 ∈ keys) : d.Makes (e.setWords f l) keys ids rs := by
  induction l generalizing e with
  | nil => exact h
  | cons p l ih => exact ih (h.setReg (hl p List.mem_cons_self) (f p)) fun q hq => hl q (List.mem_cons_of_mem p hq)

theorem Dev.keepsUnits.setWords {d e : Dev} (h : d.keepsUnits e) (f : Nat × Word → Word) (l : List (Nat × Word)) :
    d.keepsUnits (e.setWords f l) := by
  induction l generalizing e with
  | nil => exact h
  | cons p l ih => exact ih (h.setReg p.1 (f p))

/-! ### The records of a commit (R43, R55) -/

/-- The run of COMMIT records of changed words: the first of them FIRST where `first` holds, the last LAST. -/
def runRecords (t : Time) (late : Bool) (cs : Half) : Bool → List (AgentId × Nat × Word × Word) → List Record
  | _, [] => []
  | first, (o, a, new, old) :: rest =>
    { kind := .commit, flags := BitVec.ofNat 8 (b2n first + 2 * b2n rest.isEmpty + 4 * b2n late), origin := o, time := t
      block := BitVec.ofNat 8 (a / 0x10000), off := BitVec.ofNat 16 a, new := new, old := old, cseq := cs } ::
      runRecords t late cs false rest

theorem runRecords_length (t : Time) (late : Bool) (cs : Half) (first : Bool) (l : List (AgentId × Nat × Word × Word)) :
    (runRecords t late cs first l).length = l.length := by
  induction l generalizing first with
  | nil => rfl
  | cons x l ih => exact congrArg (· + 1) (ih false)

/-- The device with records made and not yet entered. -/
def Dev.withFresh (d : Dev) (rs : List Record) : Dev := { d with led := { d.led with fresh := d.led.fresh ++ rs } }

theorem logRun_eq (t : Time) (late : Bool) (cs : Half) (first : Bool) (l : List (AgentId × Nat × Word × Word)) (d : Dev) :
    Dev.logRun t late cs first l d = d.withFresh (runRecords t late cs first l) := by
  induction l generalizing first d with
  | nil => simp only [Dev.logRun, runRecords, Dev.withFresh, List.append_nil]
  | cons x l ih =>
    obtain ⟨o, a, new, old⟩ := x
    rw [Dev.logRun, ih]
    simp only [runRecords, Dev.withFresh, Dev.logAt, List.append_assoc, List.cons_append, List.nil_append]

theorem commitRecords_eq (t : Time) (late : Bool) (cs : Half) (l : List (AgentId × Nat × Word × Word)) :
    commitRecords t late cs l = runRecords t late cs true l := by
  rw [commitRecords, logRun_eq]
  rfl

theorem Dev.Makes.withFresh {d e : Dev} {keys ids : List Nat} {rs : List Record} (h : d.Makes e keys ids rs) (us : List Record) :
    d.Makes (e.withFresh us) keys ids (rs ++ us) :=
  ⟨h.regs, h.events, by rw [Dev.withFresh, h.fresh, List.append_assoc], h.chip⟩

theorem Dev.keepsUnits.withFresh {d e : Dev} (h : d.keepsUnits e) (us : List Record) : d.keepsUnits (e.withFresh us) :=
  h.of_rest rfl rfl

/-! ### A group of the fault manager or the Junction applied (R41, R43) -/

theorem mergeStg_of_reg {d d' : Dev} {a : Nat} (h : d'.reg a = d.reg a) (v : Word) : d'.mergeStg a v = d.mergeStg a v := by
  simp only [Dev.mergeStg, h]

/-- The records of a group's commit are those of its staged words. -/
theorem grpRecs_of_reg {d d' : Dev} {k : Nat} (hg : d'.grp k = d.grp k) (hr : ∀ p ∈ (d.grp k).staged, d'.reg p.1 = d.reg p.1) :
    d'.grpRecs k = d.grpRecs k := by
  have hchanges : d'.grpChanges k = d.grpChanges k := by
    rw [Dev.grpChanges, Dev.grpChanges, hg]
    refine List.filterMap_congr fun p hp => ?_
    simp only [mergeStg_of_reg (hr p hp), hr p hp]
  rw [Dev.grpRecs, Dev.grpRecs, hg, hchanges]

theorem setWords_congr (d : Dev) {f g : Nat × Word → Word} {l : List (Nat × Word)} (h : ∀ p ∈ l, f p = g p) :
    d.setWords f l = d.setWords g l :=
  List.foldl_ext _ _ d fun e p hp => by rw [h p hp]

theorem nextSeq_reg_ne (d : Dev) {a : Nat} (ha : a ≠ SYS.COMMIT_SEQ) : d.nextSeq.2.reg a = d.reg a := Dev.reg_setFld_ne d ha _

/-- The sequence number of the next commit, as COMMIT_SEQ shows it then. -/
theorem nextSeq_fld (d : Dev) : d.nextSeq.2.fld SYS.COMMIT_SEQ_SEQ = d.nextSeq.1.toNat := by
  have hn : d.fld SYS.COMMIT_SEQ_SEQ < 2 ^ 16 := bitsOf_lt _ _ _
  have hnext : (if d.fld SYS.COMMIT_SEQ_SEQ = 0xFFFF then 1 else d.fld SYS.COMMIT_SEQ_SEQ + 1) < 2 ^ 16 := by split <;> omega
  exact (Dev.fld_setFld_of_lt d _ _ (by decide) (by decide) hnext).trans (by
    rw [Dev.nextSeq, BitVec.toNat_ofNat, Nat.mod_eq_of_lt hnext])

/-- No unit takes up a commit of the fault manager's groups or the Junction's. -/
theorem commitApplied_plain {k : Nat} (hk : plainGroup k) (old d : Dev) (t : Time) (byTime : Bool) :
    Dev.commitApplied old d k t byTime = d := by
  rcases hk with h | h <;> simp [Dev.commitApplied, h]

/-- The staged words of group `k` in their places, with the next commit sequence, and the records of the change made. -/
def Dev.wordsApplied (d : Dev) (k : Nat) (t : Time) (late : Bool) : Dev :=
  (d.nextSeq.2.setWords (fun p => d.mergeStg p.1 p.2) (d.grp k).staged).withFresh (runRecords t late d.nextSeq.1 true (d.grpRecs k))

/-- The claim on group `k` ended by a commit of sequence `cs` at `t`. -/
def Dev.committed (d : Dev) (k : Nat) (cs : Half) (late : Bool) (t : Time) : Dev :=
  d.setGrp k { (d.grp k).release with seq := cs, late := late, applied := unitTime (k / 256) t }

/-- Group `k` as its commit at `t` leaves it. -/
def Dev.applied (d : Dev) (k : Nat) (t : Time) (late : Bool) : Dev :=
  (d.wordsApplied k t late).committed k d.nextSeq.1 late t

/-- Every staged word of group `k` lies in the group. -/
def Dev.stagedInGroup (d : Dev) (k : Nat) : Prop := ∀ p ∈ (d.grp k).staged, groupOf p.1 = some k

/-- A word of one of these groups is none that a commit and its records write. -/
theorem staged_ne {d : Dev} {k : Nat} (hk : plainGroup k) (hw : d.stagedInGroup k) {p : Nat × Word} (hp : p ∈ (d.grp k).staged) {a : Nat}
    (ha : a / 0x10000 < 3) : p.1 ≠ a := by
  have hapart := (groupOf_apart hk (hw p hp)).1
  rintro rfl
  omega

theorem setWords_grp (d : Dev) (f : Nat × Word → Word) (l : List (Nat × Word)) (k : Nat) : (d.setWords f l).grp k = d.grp k := by
  rw [setWords_eq]
  rfl

theorem applyGroups_one {d : Dev} {k : Nat} (hk : plainGroup k) (hw : d.stagedInGroup k) (t : Time) (late byTime : Bool) :
    d.applyGroups [k] t late byTime = (d.nextSeq.1, (d.grpRecs k).length, d.applied k t late) := by
  have hreg : ∀ p ∈ (d.grp k).staged, d.nextSeq.2.reg p.1 = d.reg p.1 := fun p hp =>
    nextSeq_reg_ne d (staged_ne hk hw hp (by decide))
  have hrecs : d.nextSeq.2.grpRecs k = d.grpRecs k := grpRecs_of_reg rfl hreg
  have hrail : ([k].any fun k => decide (k / 256 = 0x23)) = false := by
    rcases hk with h | h <;> simp [h]
  have hshape : d.applyGroups [k] t late byTime =
      let d' := d.nextSeq.2.when ([k].any fun k => decide (k / 256 = 0x23)) fun d => d.formSoon (List.range 96)
      let e := Dev.logRun t late d.nextSeq.1 true ([k].flatMap d.nextSeq.2.grpRecs)
        (d'.setWords (fun p => d'.mergeStg p.1 p.2) (d'.grp k).staged)
      (d.nextSeq.1, ([k].flatMap d.nextSeq.2.grpRecs).length,
        Dev.commitApplied d' (e.committed k d.nextSeq.1 late t) k (unitTime (k / 256) t) byTime) := rfl
  have hwords : d.nextSeq.2.setWords (fun p => d.nextSeq.2.mergeStg p.1 p.2) (d.nextSeq.2.grp k).staged
      = d.nextSeq.2.setWords (fun p => d.mergeStg p.1 p.2) (d.grp k).staged :=
    setWords_congr _ fun p hp => mergeStg_of_reg (hreg p hp) p.2
  rw [hshape, hrail, Dev.when_false]
  dsimp only
  rw [commitApplied_plain hk, List.flatMap_singleton, hrecs, logRun_eq, hwords]
  rfl

theorem wordsApplied_grp (d : Dev) (k : Nat) (t : Time) (late : Bool) (j : Nat) : (d.wordsApplied k t late).grp j = d.grp j :=
  setWords_grp d.nextSeq.2 _ _ j

theorem grp_setGrp_self (d : Dev) (k : Nat) (g : Grp) : (d.setGrp k g).grp k = g := Tab.get_set_self _ k g d.groups

/-- The group after its commit: no claim and no staged word is left. -/
theorem applied_grp (d : Dev) (k : Nat) (t : Time) (late : Bool) : (d.applied k t late).grp k =
    { (d.grp k).release with seq := d.nextSeq.1, late := late, applied := unitTime (k / 256) t } := by
  rw [Dev.applied, Dev.committed, grp_setGrp_self, wordsApplied_grp]

theorem applied_reg (d : Dev) (k : Nat) (t : Time) (late : Bool) (a : Nat) :
    (d.applied k t late).reg a = (d.nextSeq.2.setWords (fun p => d.mergeStg p.1 p.2) (d.grp k).staged).reg a := rfl

/-- Each staged word is the active one after the commit. -/
theorem applied_reg_staged {d : Dev} {k : Nat} (hs : Tab.sorted (d.grp k).staged = true) (t : Time) (late : Bool) {p : Nat × Word}
    (hp : p ∈ (d.grp k).staged) : (d.applied k t late).reg p.1 = d.mergeStg p.1 p.2 := by
  rw [applied_reg, setWords_reg_mem _ _ hs hp]

/-- COMMIT_SEQ shows the commit's sequence. -/
theorem applied_commitSeq {d : Dev} {k : Nat} (hk : plainGroup k) (hw : d.stagedInGroup k) (t : Time) (late : Bool) :
    (d.applied k t late).fld SYS.COMMIT_SEQ_SEQ = d.nextSeq.1.toNat := by
  rw [← nextSeq_fld]
  refine Dev.fld_of_reg ((applied_reg d k t late _).trans (setWords_reg_ne _ _ fun hmem => ?_))
  obtain ⟨p, hp, heq⟩ := List.mem_map.mp hmem
  exact staged_ne hk hw hp (by decide) heq

theorem Dev.Makes.applied {d e : Dev} {keys ids : List Nat} {rs : List Record} (h : d.Makes e keys ids rs) (k : Nat) (t : Time)
    (late : Bool) (hseq : SYS.COMMIT_SEQ ∈ keys) (hl : ∀ p ∈ (e.grp k).staged, p.1 ∈ keys) :
    d.Makes (e.applied k t late) keys ids (rs ++ runRecords t late e.nextSeq.1 true (e.grpRecs k)) :=
  (((h.setFld (f := SYS.COMMIT_SEQ_SEQ) hseq _).setWords _ hl).withFresh _).frame rfl rfl rfl rfl

/-- The same where only the groups are let go. -/
theorem Dev.keepsUnits.committed {d e : Dev} (h : d.keepsUnits e) (k : Nat) (cs : Half) (late : Bool) (t : Time) :
    { d with groups := (e.committed k cs late t).groups }.keepsUnits (e.committed k cs late t) :=
  ⟨congrArg (fun x : Dev => { x with groups := (e.committed k cs late t).groups }) h.1, h.2⟩

theorem Dev.keepsUnits.applied {d e : Dev} (h : d.keepsUnits e) (k : Nat) (t : Time) (late : Bool) :
    { d with groups := (e.applied k t late).groups }.keepsUnits (e.applied k t late) :=
  (((h.setFld _ _).setWords _ _).withFresh _).committed k e.nextSeq.1 late t

/-! ### Pending commits that apply (R40 to R42) -/

theorem unitLate_plain {k : Nat} (hk : plainGroup k) (d : Dev) : d.unitLate k = d := by
  rcases hk with h | h <;> simp [Dev.unitLate, h]

theorem applyOne_onTime {d : Dev} {k : Nat} (hk : plainGroup k) (hw : d.stagedInGroup k) (t : Time) :
    d.applyOne k t none = d.applied k t false := by
  simp only [Dev.applyOne, applyGroups_one hk hw, Option.isSome_none]

theorem applyOne_late {d : Dev} {k : Nat} (hk : plainGroup k) (hw : d.stagedInGroup k) (t target : Time) :
    d.applyOne k t (some target) = (d.applied k t true).lateAct (k / 256) target t := by
  simp only [Dev.applyOne, applyGroups_one hk hw, Option.isSome_some, Dev.lateCommit, unitLate_plain hk]

theorem lgFull_of_chip {d : Dev} (h : d.lgDram = false) (n : Nat) : d.lgFull n = false := by
  simp only [Dev.lgFull, h, Bool.false_and]

/-- On chip, where no change waits, a commit that is due applies (R59). -/
theorem tryApply_of_chip {d : Dev} (hchip : d.lgDram = false) (hwait : d.led.waiting = []) (k : Nat) (t : Time) (late : Option Time) :
    d.tryApply k t late = d.applyOne k t late := by
  simp only [Dev.tryApply, hwait, List.any_nil, lgFull_of_chip hchip, Bool.and_false, Bool.false_eq_true, if_false]

theorem unitRuns_plain {k : Nat} (hk : plainGroup k) (d : Dev) : d.unitRuns k = false := by
  rcases hk with h | h <;> simp [Dev.unitRuns, h]

/-- A group of no unit has its boundary now. -/
theorem boundaryNow_plain {k : Nat} (hk : plainGroup k) (d : Dev) : d.boundaryNow k = some d.nowNs := by
  have hruns := unitRuns_plain hk d
  rcases hk with h | h <;> simp [Dev.boundaryNow, h, hruns]

theorem applyDue_boundary {d : Dev} {k : Nat} (hk : plainGroup k) (hst : (d.grp k).st = .pending) (hmode : (d.grp k).mode = .boundary) :
    d.applyDue k = d.tryApply k d.nowNs none := by
  simp only [Dev.applyDue, hst, hmode, boundaryNow_plain hk, ne_eq, not_true_eq_false, if_false]

theorem applyDue_now {d : Dev} {k : Nat} (hst : (d.grp k).st = .pending) (hmode : (d.grp k).mode = .now) :
    d.applyDue k = d.tryApply k d.nowNs none := by
  simp only [Dev.applyDue, hst, hmode, ne_eq, not_true_eq_false, if_false]

theorem applyDue_future {d : Dev} {k : Nat} (hmode : (d.grp k).mode = .atTime) (hdue : d.due (d.grp k).target = false) :
    d.applyDue k = d := by
  simp [Dev.applyDue, hmode, hdue]

theorem applyDue_onTime {d : Dev} {k : Nat} (hst : (d.grp k).st = .pending) (hmode : (d.grp k).mode = .atTime)
    (hdue : d.due (d.grp k).target = true) (hdist : dist ((d.grp k).goT + commitSetup (k / 256)) (d.grp k).target ≥ 0) :
    d.applyDue k = d.tryApply k (d.grp k).target none := by
  simp only [Dev.applyDue, hst, hmode, hdue, hdist, ne_eq, not_true_eq_false, if_false, if_true]

theorem applyDue_late {d : Dev} {k : Nat} (hst : (d.grp k).st = .pending) (hmode : (d.grp k).mode = .atTime)
    (hdue : d.due (d.grp k).target = true) (hdist : dist ((d.grp k).goT + commitSetup (k / 256)) (d.grp k).target < 0) :
    d.applyDue k = d.tryApply k (maxT (d.grp k).goT (d.grp k).target) (some (d.grp k).target) := by
  simp only [Dev.applyDue, hst, hmode, hdue, not_le.mpr hdist, ne_eq, not_true_eq_false, if_false]

/-- What stops in no command applies nothing as it stops (R42). -/
theorem applyStopped_of_same {old d : Dev} {k : Nat} (h : d.unitRuns k = old.unitRuns k) : Dev.applyStopped old d k = d := by
  refine Dev.when_of_false _ ?_ _
  rw [h]
  cases old.unitRuns k <;> simp

theorem floorNs_floorNs (t : Time) : floorNs (floorNs t) = floorNs t := by
  simp only [floorNs, BitVec.and_assoc, BitVec.and_self]

theorem unitTime_plain {k : Nat} (hk : plainGroup k) (t : Time) : unitTime (k / 256) t = floorNs t := by
  rcases hk with h | h <;> simp [unitTime, h]

/-! ### What a commit leaves at the end of its command (R41, R43) -/

/-- The device `e` has the register words of `d` and, in group `k`, its staged words and their owner. -/
structure Dev.SameWords (d e : Dev) (k : Nat) : Prop where
  regs : e.regs = d.regs
  staged : (e.grp k).staged = (d.grp k).staged
  owner : (e.grp k).owner = (d.grp k).owner

namespace Dev.SameWords

variable {d e : Dev} {k : Nat}

theorem nextSeq (h : d.SameWords e k) : e.nextSeq.1 = d.nextSeq.1 := by
  simp only [Dev.nextSeq, Dev.fld_of_regs SYS.COMMIT_SEQ_SEQ h.regs]

theorem mergeStg (h : d.SameWords e k) (a : Nat) (v : Word) : e.mergeStg a v = d.mergeStg a v :=
  mergeStg_of_reg (Dev.reg_of_regs a h.regs) v

theorem grpRecs (h : d.SameWords e k) : e.grpRecs k = d.grpRecs k := by
  have hchanges : e.grpChanges k = d.grpChanges k := by
    simp only [Dev.grpChanges, h.staged, h.mergeStg, Dev.reg_of_regs _ h.regs]
  simp only [Dev.grpRecs, hchanges, h.owner]

theorem stagedInGroup (h : d.SameWords e k) (hw : d.stagedInGroup k) : e.stagedInGroup k := by
  unfold Dev.stagedInGroup
  rw [h.staged]
  exact hw

end Dev.SameWords

theorem Dev.sameWords_begun (d : Dev) (k : Nat) : d.SameWords d.begun k := ⟨rfl, rfl, rfl⟩

theorem settle_grp (d : Dev) (k : Nat) : (settle d).grp k = d.grp k := by
  simp only [Dev.grp, settle_groups]

/-- A commit at its end: the words, COMMIT_SEQ, the group, and what stays. -/
theorem settle_applied {d e : Dev} {k : Nat} {rs : List Record} (hm : ∀ l, d.Makes e l [] rs) (hsame : d.SameWords e k)
    (hu : { d with groups := e.groups }.keepsUnits e) (hk : plainGroup k) (hw : d.stagedInGroup k)
    (hs : Tab.sorted (d.grp k).staged = true) (t : Time) (late : Bool) :
    let e' := settle (e.applied k t late)
    (d.grp k).staged.all (fun p => decide (e'.reg p.1 = d.mergeStg p.1 p.2)) = true ∧
    e'.grp k = { (e.grp k).release with seq := d.nextSeq.1, late := late, applied := unitTime (k / 256) t } ∧
    e'.fld SYS.COMMIT_SEQ_SEQ = d.nextSeq.1.toNat ∧ d.keepsRegs e' (SYS.COMMIT_SEQ :: (d.grp k).staged.map (·.1)) ∧
    { d with groups := e'.groups }.keepsUnits e' := by
  intro e'
  have hmade := (hm (SYS.COMMIT_SEQ :: (d.grp k).staged.map (·.1))).applied k t late List.mem_cons_self fun p hp =>
    List.mem_cons_of_mem _ (List.mem_map_of_mem (hsame.staged ▸ hp))
  have hwe := hsame.stagedInGroup hw
  have hctrl : LEDGER.LG_CTRL ∉ SYS.COMMIT_SEQ :: (d.grp k).staged.map (·.1) := by
    rw [List.mem_cons, List.mem_map]
    rintro (hseq | ⟨p, hp, heq⟩)
    · exact absurd hseq (by decide)
    · exact staged_ne hk hw hp (by decide) heq
  refine ⟨List.all_eq_true.mpr fun p hp => decide_eq_true ?_, ?_, ?_, hmade.settle_keepsRegs, ?_⟩
  · have hpe : p ∈ (e.grp k).staged := hsame.staged.symm ▸ hp
    have hblock := groupOf_apart hk (hw p hp)
    have hword := applied_reg_staged (d := e) (hsame.staged.symm ▸ hs) t late hpe
    rw [settle_reg _ _ (by omega) (by omega), hword, hsame.mergeStg]
  · rw [settle_grp, applied_grp, hsame.nextSeq]
  · rw [settle_fld _ _ (by decide) (by decide), applied_commitSeq hk hwe, hsame.nextSeq]
  · have hunits : { d with groups := (e.applied k t late).groups }.keepsUnits (e.applied k t late) := hu.applied k t late
    rw [show e'.groups = (e.applied k t late).groups from settle_groups _]
    exact hmade.settle_keepsUnits hctrl rfl hunits

/-! ### A run among the records on chip (R43, R54) -/

/-- The record but for its sequence number. -/
def Record.SameBut (q r : Record) : Prop := { q with seq := r.seq } = r

theorem Record.SameBut.refl (r : Record) : r.SameBut r := rfl

theorem Record.SameBut.trans {p q r : Record} (h : p.SameBut q) (g : q.SameBut r) : p.SameBut r := by
  unfold Record.SameBut at h g ⊢
  rw [← g, ← h]

theorem insertRun_perm (u : List Record) (vs : List (List Record)) : (insertRun u vs).flatten.Perm (u ++ vs.flatten) := by
  induction vs with
  | nil => exact List.Perm.refl _
  | cons v vs ih =>
    rw [insertRun]
    split
    · exact List.Perm.refl _
    · simp only [List.flatten_cons]
      exact (ih.append_left v).trans (by
        rw [← List.append_assoc, ← List.append_assoc]
        exact (List.perm_append_comm).append_right _)

theorem runsOf_flatten (l : List Record) : (runsOf l).flatten = l := by
  induction l with
  | nil => rfl
  | cons r l ih =>
    rw [runsOf]
    split
    · rw [List.flatten_cons, ih]; rfl
    · cases hruns : runsOf l with
      | nil => rw [hruns] at ih; rw [← ih]; rfl
      | cons u us => rw [hruns] at ih; rw [← ih]; rfl

/-- No more records move than may. -/
theorem movable_length (t : Time) (n : Nat) (l : List Record) : (movable t n l).flatten.length ≤ n := by
  have hall : (runsOf ((l.take n).takeWhile fun v => !before v.time t).reverse).flatten.length ≤ n := by
    rw [runsOf_flatten, List.length_reverse]
    exact ((List.takeWhile_sublist _).length_le).trans (List.length_take_le n l)
  unfold movable
  split
  · rename_i x u us heq
    rw [heq] at hall
    split
    · exact hall
    · rw [List.flatten_cons, List.length_append] at hall
      omega
  · exact hall

/-- The run and what it moves: the latest `n` records, and no more than are buffered. -/
theorem placed_perm {n occ : Nat} (l : List Record) (hn : n ≤ occ) :
    ∃ m : List Record, (placed n occ l).Perm (l.take n ++ m) ∧ (placed n occ l).length ≤ occ := by
  unfold placed
  split
  · rename_i hnil
    exact ⟨[], by simpa using hnil, Nat.zero_le _⟩
  · rename_i x u hrev
    have hperm : (insertRun (x :: u) (movable x.time (occ - n) (l.drop n))).flatten.reverse.Perm
        (l.take n ++ (movable x.time (occ - n) (l.drop n)).flatten) := by
      refine (List.reverse_perm _).trans ((insertRun_perm _ _).trans (List.Perm.append_right _ ?_))
      rw [← hrev]
      exact List.reverse_perm _
    refine ⟨_, hperm, ?_⟩
    have hmoved := movable_length x.time (occ - n) (l.drop n)
    have htake := List.length_take_le n l
    rw [hperm.length_eq, List.length_append]
    omega

theorem numbered_length (s : Word) (l : List Record) : (numbered s l).length = l.length := by
  induction l generalizing s with
  | nil => rfl
  | cons r l ih => exact congrArg (· + 1) (ih _)

theorem mem_numbered (s : Word) {l : List Record} {r : Record} (hr : r ∈ l) : ∃ q ∈ numbered s l, q.SameBut r := by
  induction l generalizing s with
  | nil => exact absurd hr (by simp)
  | cons x l ih =>
    rcases List.mem_cons.mp hr with rfl | hr
    · exact ⟨_, List.mem_cons_self, rfl⟩
    · obtain ⟨q, hq, hsame⟩ := ih (s - 1) hr
      exact ⟨q, List.mem_cons_of_mem _ hq, hsame⟩

/-- A record of the run stays among the latest `occ`, whatever number it takes there. -/
theorem mem_inPlace {n occ : Nat} {l : List Record} (hn : n ≤ occ) {r : Record} (hr : r ∈ l.take n) :
    ∃ q ∈ (inPlace n occ l).take occ, q.SameBut r := by
  obtain ⟨m, hperm, hlen⟩ := placed_perm l hn
  have hplaced : r ∈ placed n occ l := hperm.mem_iff.mpr (List.mem_append_left m hr)
  unfold inPlace
  dsimp only
  split
  · exact absurd hr (by simp)
  · rename_i x t
    split
    · exact ⟨r, (List.take_subset_take_left _ hn) hr, rfl⟩
    · obtain ⟨q, hq, hsame⟩ := mem_numbered x.seq hplaced
      refine ⟨q, ?_, hsame⟩
      have hfits : (numbered x.seq (placed n occ (x :: t))).length ≤ occ := (numbered_length _ _).le.trans hlen
      rw [List.take_append, List.take_of_length_le hfits]
      exact List.mem_append_left _ hq

/-! ### A run entered on chip (R54, R57) -/

theorem enter_occ {d : Dev} (hchip : d.lgDram = false) (r : Record) :
    (d.enter r).fld LEDGER.LG_STATUS_OCC = satInc 4096 (d.fld LEDGER.LG_STATUS_OCC) := by
  have hroom : d.makeRoom = d := by rw [Dev.makeRoom, hchip]; rfl
  have hsat : satInc 4096 (d.fld LEDGER.LG_STATUS_OCC) < 2 ^ 13 := by unfold satInc; split <;> omega
  rw [enter_eq, hroom, Dev.fld_of_reg (Mirrored.mirror _ _).status]
  have hnext (e : Dev) : (e.wrapNum LEDGER.LG_NEXT_SEQ).fld LEDGER.LG_STATUS_OCC = e.fld LEDGER.LG_STATUS_OCC :=
    Dev.fld_setReg_ne e (by decide) _
  unfold Dev.addRecord
  dsimp only
  rw [hnext]
  exact Dev.fld_setFld_of_lt _ LEDGER.LG_STATUS_OCC _ (by decide) (by decide) hsat

/-- A run entered record by record on chip: it heads the records there, and each of its records takes a place, up to 4,096. -/
theorem foldl_enter (u : List Record) {d : Dev} (hchip : d.lgDram = false) :
    (∃ x : List Record, (u.foldl Dev.enter d).led.chip = x ++ d.led.chip ∧ x.length = u.length ∧ ∀ r ∈ u, ∃ q ∈ x, q.SameBut r) ∧
    ∀ n, n ≤ d.fld LEDGER.LG_STATUS_OCC → n + u.length ≤ 4096 → n + u.length ≤ (u.foldl Dev.enter d).fld LEDGER.LG_STATUS_OCC := by
  induction u generalizing d with
  | nil => exact ⟨⟨[], rfl, rfl, by simp⟩, fun n hn _ => hn⟩
  | cons r u ih =>
    obtain ⟨⟨x, hx, hlen, hmem⟩, hocc⟩ := ih (d := d.enter r) ((Settles.enter d r).dram.trans hchip)
    obtain ⟨hhead, -, -⟩ := enter_record d r
    refine ⟨⟨x ++ [d.nextRecord r], ?_, ?_, ?_⟩, fun n hn hfits => ?_⟩
    · rw [List.foldl_cons, hx, hhead, List.append_assoc]; rfl
    · rw [List.length_append, hlen]; rfl
    · intro q hq
      rcases List.mem_cons.mp hq with rfl | hq
      · exact ⟨_, List.mem_append_right x List.mem_cons_self, rfl⟩
      · obtain ⟨p, hp, hsame⟩ := hmem q hq
        exact ⟨p, List.mem_append_left _ hp, hsame⟩
    · have hone := hocc (n + 1)
      rw [enter_occ hchip] at hone
      simp only [List.length_cons, List.foldl_cons] at hfits ⊢
      unfold satInc at hone
      split at hone <;> omega

/-- The occupancy saturates at the size of the chip. -/
theorem foldl_enter_occ_le {u : List Record} {d : Dev} (hchip : d.lgDram = false) (hu : u ≠ []) :
    (u.foldl Dev.enter d).fld LEDGER.LG_STATUS_OCC ≤ 4096 := by
  induction u generalizing d with
  | nil => exact absurd rfl hu
  | cons r u ih =>
    cases u with
    | nil =>
      rw [List.foldl_cons, List.foldl_nil, enter_occ hchip]
      unfold satInc
      split <;> omega
    | cons q u =>
      rw [List.foldl_cons]
      exact ih (d := d.enter r) ((Settles.enter d r).dram.trans hchip) (by simp)

theorem enterRun_chip (d : Dev) (u : List Record) : (d.enterRun u).led.chip =
    inPlace u.length ((u.foldl Dev.enter d).fld LEDGER.LG_STATUS_OCC) (u.foldl Dev.enter d).led.chip := rfl

/-- Each record of a run entered stays among the latest 4,096. -/
theorem mem_enterRun {d : Dev} (hchip : d.lgDram = false) {u : List Record} (hne : u ≠ []) (hlen : u.length ≤ 4096) {r : Record}
    (hr : r ∈ u) : ∃ q ∈ (d.enterRun u).led.chip.take 4096, q.SameBut r := by
  obtain ⟨⟨x, hx, hxlen, hmem⟩, hocc⟩ := foldl_enter u hchip
  have hle := foldl_enter_occ_le hchip hne
  have hge : u.length ≤ (u.foldl Dev.enter d).fld LEDGER.LG_STATUS_OCC := by
    have hfrom := hocc 0 (Nat.zero_le _)
    omega
  obtain ⟨q, hq, hqr⟩ := hmem r hr
  rw [enterRun_chip]
  generalize u.foldl Dev.enter d = e at hx hle hge ⊢
  have htake : q ∈ e.led.chip.take u.length := by
    rw [hx, ← hxlen, List.take_left]
    exact hq
  obtain ⟨p, hp, hpq⟩ := mem_inPlace hge htake
  exact ⟨p, List.take_subset_take_left _ hle hp, hpq.trans hqr⟩

theorem enterAll_chip (d : Dev) : d.enterAll.led.chip =
    ((orderRuns d.led.fresh).foldl Dev.enterRun { d with led := { d.led with fresh := [] } }).led.chip :=
  (Mirrors.persist _ _).chip

/-- A command that made one run leaves each of its records on chip (R43, R54). -/
theorem settle_run {d : Dev} (hchip : d.lgDram = false) (hrun : orderRuns d.led.fresh = [d.led.fresh]) (hne : d.led.fresh ≠ [])
    (hlen : d.led.fresh.length ≤ 4096) {r : Record} (hr : r ∈ d.led.fresh) : ∃ q ∈ (settle d).led.chip, q.SameBut r := by
  rw [(settle_tail d).1, enterAll_chip, hrun, List.foldl_cons, List.foldl_nil]
  exact mem_enterRun (d := { d with led := { d.led with fresh := [] } }) hchip hne hlen hr

/-! ### The runs of commits (R43, R54, R55) -/

/-- A record of a commit carries LAST where it is the last one. -/
theorem bitOf_runFlags (first last late : Bool) : bitOf (BitVec.ofNat 8 (b2n first + 2 * b2n last + 4 * b2n late)).toNat 1 = last := by
  revert first last late
  decide

theorem runsOf_runRecords (t : Time) (late : Bool) (cs : Half) (first : Bool) {l : List (AgentId × Nat × Word × Word)} (hl : l ≠ []) :
    runsOf (runRecords t late cs first l) = [runRecords t late cs first l] := by
  induction l generalizing first with
  | nil => exact absurd rfl hl
  | cons x l ih =>
    obtain ⟨o, a, new, old⟩ := x
    rw [runRecords, runsOf, bitOf_runFlags]
    cases l with
    | nil => rfl
    | cons y l => rw [ih false (by simp)]; rfl

/-- The records of a commit are one run. -/
theorem orderRuns_runRecords (t : Time) (late : Bool) (cs : Half) {l : List (AgentId × Nat × Word × Word)} (hl : l ≠ []) :
    orderRuns (runRecords t late cs true l) = [runRecords t late cs true l] := by
  rw [orderRuns, runsOf_runRecords t late cs true hl]
  rfl

/-! ### Writes of the group control registers (R37, R64) -/

theorem grpReg_block (b : Fin 64) {o : Nat} (ho : o < 0x10000) : grpReg b o / 0x10000 = b.val := by
  unfold grpReg
  omega

theorem grpReg_off (b : Fin 64) {o : Nat} (ho : o < 0x10000) : grpReg b o % 0x10000 = o := by
  unfold grpReg
  omega

/-- The key of a selected group names its block and its number. -/
theorem grpKey_block {b g : Nat} (hg : g < 256) : grpKey b g / 256 = b := by
  unfold grpKey
  omega

theorem selected_lt (d : Dev) (agent : AgentId) (b : Nat) : d.selected agent b < 256 := Nat.mod_lt _ (by decide)

/-- A group control register is written as its rules say (R64). -/
theorem regTry_grpReg {d : Dev} {agent : AgentId} {b : Fin 64} {o : Nat} (hb : blockExists b = true) (hlo : 0xFF00 ≤ o) (hhi : o < 0xFF28)
    (h4 : o % 4 = 0) (v : Word) : d.regTry agent (grpReg b o) v = d.grpWrite agent (grpReg b o) v := by
  have hblock := grpReg_block b (o := o) (by omega)
  have hoff := grpReg_off b (o := o) (by omega)
  have haligned : grpReg b o % 4 = 0 := by omega
  have hgrp : isGrpReg (grpReg b o) = true := by
    simp only [isGrpReg, hoff, decide_eq_true hlo, decide_eq_true hhi, Bool.and_self]
  have hbus : ¬ (grpReg b o % 4 ≠ 0 ∨ ¬ blockExists (grpReg b o / 0x10000) = true) := by simp [haligned, hblock, hb]
  rw [Dev.regTry, if_neg hbus, if_pos hgrp]

theorem grpReg_ne_dbgCmd (b : Fin 64) {o : Nat} (hlo : 0xFF00 ≤ o) (hhi : o < 0x10000) : grpReg b o ≠ DEBUG.DBG_CMD := by
  intro heq
  have hoff := grpReg_off b hhi
  have hdbg : DEBUG.DBG_CMD % 0x10000 < 0xFF00 := by decide
  omega

/-- What `grpOpen` asks for (R37, R59, R64). -/
theorem Dev.grpOpen_iff (d : Dev) (agent : AgentId) (b : Nat) :
    d.grpOpen agent b = true ↔ blockExists b = true ∧ 2 ≤ d.blkLevel agent b ∧ grpCount b ≠ 0 ∧ d.lgRoom = true := by
  simp only [Dev.grpOpen, Bool.and_eq_true, decide_eq_true_eq, ge_iff_le, and_assoc]

/-- On chip every write is made at once (R59). -/
theorem Dev.regWrite_of_chip {b : Dev} {agent : AgentId} {a : Nat} {v : Word} (hchip : b.lgDram = false) (ha : a ≠ DEBUG.DBG_CMD) :
    b.regWrite agent a v = b.regTry agent a v := by
  have hin : b.letIn agent (.write a v) (b.regTry agent a v) = b.regTry agent a v :=
    if_neg fun hwaits => ne_true_of_eq_false (lgFull_of_chip hchip _) hwaits.2
  rw [Dev.regWrite, Dev.regStore, hin]
  exact if_neg fun hgo => ha hgo.1

/-! ### GRP_COMMIT.GO (R40) -/

theorem setWords_begun (d : Dev) (f : Nat × Word → Word) (l : List (Nat × Word)) : d.begun.setWords f l = (d.setWords f l).begun := by
  induction l generalizing d with
  | nil => rfl
  | cons p l ih => exact ih (d.setReg p.1 (f p))

theorem groupWould_begun (d : Dev) (k : Nat) : d.begun.groupWould k = (d.groupWould k).begun :=
  setWords_begun d (fun p => d.mergeStg p.1 p.2) (d.grp k).staged

/-- What refuses a GO does not depend on what was answered before. -/
theorem goRefusal_begun (d : Dev) (agent : AgentId) (k mode : Nat) : d.begun.goRefusal agent k mode = d.goRefusal agent k mode := by
  rw [Dev.goRefusal, Dev.goRefusal, groupWould_begun]
  rfl

/-- The device with the write of GRP_COMMIT answered and recorded. -/
def Dev.goLogged (d : Dev) (agent : AgentId) (a : Nat) (v : Word) : Dev := ({ d.begun with answer := .ok } : Dev).liveRec agent a v 0

/-- The mode that a GO names (R40). -/
def goMode (mode : Nat) : CommitMode := if mode = 0 then .boundary else if mode = 1 then .atTime else .now

/-- Group `k` pending with a mode since now (R40). -/
def Grp.goAs (g : Grp) (k mode : Nat) (now : Time) : Grp :=
  { g with st := .pending, mode := goMode mode, goT := now, target := unitTime (k / 256) g.atT }

/-- The device with group `k` pending. -/
def Dev.pendingAs (d : Dev) (k mode : Nat) : Dev := d.setGrp k ((d.grp k).goAs k mode d.now)

/-- Beside the tie link's plan, a GO makes the group pending, and applies it where its mode and its unit allow. -/
theorem grpGo_eq {d : Dev} {k : Nat} (hk : k / 256 ≠ 0x08) (mode : Nat) : d.grpGo k mode =
    if slotGroup k && decide (mode = 0) && (d.pendingAs k mode).unitRuns k then d.pendingAs k mode
    else (d.pendingAs k mode).applyDue k := by
  have hplan : (decide (k = grpKey 0x08 0) && (d.pendingAs k mode).tieOn) = false := by
    rw [decide_eq_false (fun h => hk (by rw [h]; rfl)), Bool.false_and]
  have hshape : d.grpGo k mode =
      let e := (d.pendingAs k mode).when (decide (k = grpKey 0x08 0) && (d.pendingAs k mode).tieOn) fun e =>
        e.sendPlan (e.groupWould k) ((List.range 16).filter fun i =>
          ((d.grp k).goAs k mode d.now).staged.any fun p => p.1 = TIE.PLAN_T i ∨ p.1 = TIE.PLAN_T i + 4) ((d.grp k).goAs k mode d.now).target
      if slotGroup k && decide (mode = 0) && e.unitRuns k then e else e.applyDue k := rfl
  rw [hshape, hplan, Dev.when_false]

/-- An accepted GO is answered, recorded and carried out (R40, R49). -/
theorem grpWrite_go {d : Dev} {agent : AgentId} {b : Fin 64} {v : Word} (hlevel : 2 ≤ d.blkLevel agent b) (hcnt : grpCount b ≠ 0)
    (hask : wordBit v 31 = true) (hgo : d.goRefusal agent (grpKey b (d.selected agent b)) (v.toNat % 4) = none) :
    d.begun.grpWrite agent (grpReg b 0xFF08) v =
      (d.goLogged agent (grpReg b 0xFF08) v).grpGo (grpKey b (d.selected agent b)) (v.toNat % 4) := by
  have hdenied : decide (d.begun.blkLevel agent b < 2) = false := decide_eq_false (Nat.not_lt.mpr hlevel)
  have hask' : bitOf v.toNat 31 = true := hask
  have hsel : d.begun.selected agent b = d.selected agent b := rfl
  have hgo' := (goRefusal_begun d agent (grpKey b (d.selected agent b)) (v.toNat % 4)).trans hgo
  simp only [Dev.grpWrite, grpReg_block b (o := 0xFF08) (by decide), grpReg_off b (o := 0xFF08) (by decide), hdenied, hcnt, hask', hsel, hgo',
    Bool.not_true, Bool.false_eq_true, if_false, if_true]
  rfl

/-- A write of GRP_COMMIT that is taken does what GO does, where its records find room or the Ledger is on chip. -/
theorem regWrite_go {d e : Dev} {agent : AgentId} {b : Fin 64} {v : Word} (hopen : d.grpOpen agent b = true)
    (hask : wordBit v 31 = true) (hgo : d.goRefusal agent (grpKey b (d.selected agent b)) (v.toNat % 4) = none)
    (he : (d.goLogged agent (grpReg b 0xFF08) v).grpGo (grpKey b (d.selected agent b)) (v.toNat % 4) = e)
    (hfit : d.lgDram = false ∨ e.ordinary ≤ d.ordinary + 64) : d.begun.regWrite agent (grpReg b 0xFF08) v = e := by
  obtain ⟨hexists, hlevel, hcnt, hroom⟩ := (d.grpOpen_iff agent b).mp hopen
  have htry : d.begun.regTry agent (grpReg b 0xFF08) v = e :=
    (regTry_grpReg hexists (by decide) (by decide) (by decide) v).trans ((grpWrite_go hlevel hcnt hask hgo).trans he)
  have hdbg := grpReg_ne_dbgCmd b (o := 0xFF08) (by decide) (by decide)
  rcases hfit with hchip | hfew
  · exact (Dev.regWrite_of_chip (b := d.begun) hchip hdbg).trans htry
  · exact (Dev.regWrite_of_room (b := d.begun) hroom (by rw [htry]; exact hfew) hdbg).trans htry

/-! ### A group made pending (R40) -/

theorem goLogged_makes (d : Dev) (agent : AgentId) (a : Nat) (v : Word) (l : List Nat) :
    d.Makes (d.goLogged agent a v) l [] [wordRecord d.nowNs .live 0 agent a v 0] := by
  have hok : d.Makes { d.begun with answer := .ok } l [] [] := (Dev.Makes.begun d).frame rfl rfl rfl rfl
  exact hok.logRec rfl .live 0 agent a v 0

theorem pending_makes (d : Dev) (agent : AgentId) (a : Nat) (v : Word) (k mode : Nat) (l : List Nat) :
    d.Makes ((d.goLogged agent a v).pendingAs k mode) l [] [wordRecord d.nowNs .live 0 agent a v 0] :=
  (goLogged_makes d agent a v l).frame rfl rfl rfl rfl

theorem pending_grp (d : Dev) (agent : AgentId) (a : Nat) (v : Word) (k mode : Nat) :
    ((d.goLogged agent a v).pendingAs k mode).grp k = (d.grp k).goAs k mode d.now := grp_setGrp_self _ _ _

theorem pending_keepsUnits (d : Dev) (agent : AgentId) (a : Nat) (v : Word) (k mode : Nat) :
    { d with groups := ((d.goLogged agent a v).pendingAs k mode).groups }.keepsUnits ((d.goLogged agent a v).pendingAs k mode) :=
  ⟨rfl, fun _ => rfl⟩

theorem pending_ordinary (d : Dev) (agent : AgentId) (a : Nat) (v : Word) (k mode : Nat) :
    ((d.goLogged agent a v).pendingAs k mode).ordinary ≤ d.ordinary + 64 :=
  (pending_makes d agent a v k mode []).ordinary_le.trans (Nat.add_le_add_left (by simp) _)

/-- A GO that leaves its group pending: the record of its write is all that is made. -/
theorem settle_pending (d : Dev) (agent : AgentId) (a : Nat) (v : Word) (k mode : Nat) :
    let e := settle ((d.goLogged agent a v).pendingAs k mode)
    e.answer = .ok ∧ e.grp k = (d.grp k).goAs k mode d.now ∧ d.oneRecord e (wordRecord d.nowNs .live 0 agent a v 0) ∧
    d.keepsRegs e [] ∧ { d with groups := e.groups }.keepsUnits e := by
  have hm := pending_makes d agent a v k mode []
  refine ⟨settle_answer _, (settle_grp _ _).trans (pending_grp d agent a v k mode), hm.settle_oneRecord (by decide), hm.settle_keepsRegs, ?_⟩
  rw [settle_groups]
  exact hm.settle_keepsUnits (by decide) rfl (pending_keepsUnits d agent a v k mode)

/-- A pending loop slot that runs waits for its own boundary (R157). -/
theorem grpGo_slot {d : Dev} {k : Nat} (hk : k / 256 = 0x18 ∨ k / 256 = 0x19) (hruns : d.unitRuns k = true) :
    d.grpGo k 0 = d.pendingAs k 0 := by
  have hslot : slotGroup k = true := by rcases hk with h | h <;> simp [slotGroup, h]
  have hruns' : (d.pendingAs k 0).unitRuns k = true := hruns
  rw [grpGo_eq (by omega), hslot, hruns']
  rfl

/-- A commit AT a time to come waits for it. -/
theorem grpGo_future {d : Dev} {k : Nat} (hk : k / 256 ≠ 0x08) (hdue : d.due (unitTime (k / 256) (d.grp k).atT) = false) :
    d.grpGo k 1 = d.pendingAs k 1 := by
  have hgrp : (d.pendingAs k 1).grp k = (d.grp k).goAs k 1 d.now := grp_setGrp_self _ _ _
  rw [grpGo_eq hk, decide_eq_false (by decide), Bool.and_false, Bool.false_and, if_neg (by decide)]
  exact applyDue_future (by rw [hgrp]; rfl) (by rw [hgrp]; exact hdue)

/-- A GO that takes effect at once: BOUNDARY and NOW of a group that no unit runs (R40). -/
theorem grpGo_plain {d : Dev} {k mode : Nat} (hk : plainGroup k) (hmode : mode = 0 ∨ mode = 2) (hchip : d.lgDram = false)
    (hwait : d.led.waiting = []) (hw : d.stagedInGroup k) : d.grpGo k mode = (d.pendingAs k mode).applied k d.nowNs false := by
  have hgrp : (d.pendingAs k mode).grp k = (d.grp k).goAs k mode d.now := grp_setGrp_self _ _ _
  have hst : ((d.pendingAs k mode).grp k).st = .pending := by rw [hgrp]; rfl
  have hwp : (d.pendingAs k mode).stagedInGroup k := by
    unfold Dev.stagedInGroup
    rw [hgrp]
    exact hw
  have hdue : (d.pendingAs k mode).applyDue k = (d.pendingAs k mode).tryApply k d.nowNs none := by
    rcases hmode with rfl | rfl
    · exact applyDue_boundary hk hst (by rw [hgrp]; rfl)
    · exact applyDue_now hst (by rw [hgrp]; rfl)
  rw [grpGo_eq (by unfold plainGroup at hk; omega), unitRuns_plain hk, Bool.and_false, if_neg (by decide), hdue,
    tryApply_of_chip (d := d.pendingAs k mode) hchip hwait, applyOne_onTime hk hwp]

theorem applied_answer (d : Dev) (k : Nat) (t : Time) (late : Bool) : (d.applied k t late).answer = d.answer := by
  have hwords : (d.applied k t late).answer = (d.nextSeq.2.setWords (fun p => d.mergeStg p.1 p.2) (d.grp k).staged).answer := rfl
  rw [hwords, setWords_eq]
  rfl

/-- A group as its commit at `t` leaves it. -/
theorem released_iff {g : Grp} (h : Grp) (cs : Half) (late : Bool) (t : Time) (hg : g = { h.release with seq := cs, late := late, applied := t }) :
    g.st = .idle ∧ g.staged = [] ∧ g.seq = cs ∧ g.applied = t := by
  subst hg
  exact ⟨rfl, rfl, rfl, rfl⟩

/-- A GO that takes effect at once, at the end of its command. -/
theorem settle_goApplied {d : Dev} {k mode : Nat} (agent : AgentId) (a : Nat) (v : Word) (hk : plainGroup k) (hw : d.stagedInGroup k)
    (hs : Tab.sorted (d.grp k).staged = true) :
    let e := settle (((d.goLogged agent a v).pendingAs k mode).applied k d.nowNs false)
    e.answer = .ok ∧ (d.grp k).staged.all (fun p => decide (e.reg p.1 = d.mergeStg p.1 p.2)) = true ∧
    ((e.grp k).st = .idle ∧ (e.grp k).staged = [] ∧ (e.grp k).seq = d.nextSeq.1 ∧ (e.grp k).applied = unitTime (k / 256) d.now) ∧
    e.fld SYS.COMMIT_SEQ_SEQ = d.nextSeq.1.toNat ∧ d.keepsRegs e (SYS.COMMIT_SEQ :: (d.grp k).staged.map (·.1)) ∧
    { d with groups := e.groups }.keepsUnits e := by
  intro e
  have hgrp := pending_grp d agent a v k mode
  have hsame : d.SameWords ((d.goLogged agent a v).pendingAs k mode) k := ⟨rfl, by rw [hgrp]; rfl, by rw [hgrp]; rfl⟩
  obtain ⟨hwords, hgroup, hseq, hregs, hunits⟩ := settle_applied (pending_makes d agent a v k mode) hsame
    (pending_keepsUnits d agent a v k mode) hk hw hs d.nowNs false
  have hnow : unitTime (k / 256) d.nowNs = unitTime (k / 256) d.now := by
    rw [unitTime_plain hk, unitTime_plain hk, Dev.nowNs, floorNs_floorNs]
  have hok : (((d.goLogged agent a v).pendingAs k mode).applied k d.nowNs false).answer = .ok := applied_answer _ _ _ _
  refine ⟨(settle_answer _).trans hok, hwords, ?_, hseq, hregs, hunits⟩
  rw [hnow] at hgroup
  exact released_iff _ _ _ _ hgroup

/-! ### The GO commands (R40) -/

/-- A command that writes GRP_COMMIT with an accepted GO does what the GO does. -/
theorem does_go {c : Instr} {s : State} {e : Dev} {P : Dev → Prop} {agent : AgentId} {b : Fin 64} {v : Word} {mode : Nat}
    (hc : exec c s = s.onDev fun d => d.writeIf (wordBit v 31 && decide (v.toNat % 4 = mode)) agent (grpReg b 0xFF08) v)
    (hopen : s.dev.grpOpen agent b = true) (hask : wordBit v 31 = true) (hmode : v.toNat % 4 = mode)
    (hgo : s.dev.goRefusal agent (grpKey b (s.dev.selected agent b)) mode = none)
    (he : (s.dev.goLogged agent (grpReg b 0xFF08) v).grpGo (grpKey b (s.dev.selected agent b)) mode = e)
    (hfit : s.dev.lgDram = false ∨ e.ordinary ≤ s.dev.ordinary + 64) (hp : P (settle e)) : Does c s P := by
  subst hmode
  have hasks : (wordBit v 31 && decide (v.toNat % 4 = v.toNat % 4)) = true := by rw [hask, decide_eq_true rfl]; rfl
  exact does_of_effect hc ((if_pos hasks).trans (regWrite_go hopen hask hgo he hfit)) hp

/-- The selected group waits with mode `m` for its boundary or its time. -/
def Dev.WaitsAs (d : Dev) (agent : AgentId) (b : Fin 64) (v : Word) (m : CommitMode) (e : Dev) : Prop :=
  e.answer = .ok ∧
  e.grp (grpKey b (d.selected agent b)) = { d.grp (grpKey b (d.selected agent b)) with
    st := .pending, mode := m, goT := d.now, target := unitTime b (d.grp (grpKey b (d.selected agent b))).atT } ∧
  d.oneRecord e (wordRecord d.nowNs .live 0 agent (grpReg b 0xFF08) v 0) ∧ d.keepsRegs e [] ∧ { d with groups := e.groups }.keepsUnits e

theorem settle_waitsAs (d : Dev) (agent : AgentId) (b : Fin 64) (v : Word) (mode : Nat) :
    d.WaitsAs agent b v (goMode mode)
      (settle ((d.goLogged agent (grpReg b 0xFF08) v).pendingAs (grpKey b (d.selected agent b)) mode)) := by
  obtain ⟨hok, hgrp, hrest⟩ := settle_pending d agent (grpReg b 0xFF08) v (grpKey b (d.selected agent b)) mode
  refine ⟨hok, hgrp.trans ?_, hrest⟩
  rw [Grp.goAs, grpKey_block (selected_lt d agent b)]

/-- A GO that leaves its group pending. -/
theorem does_goWaits {c : Instr} {s : State} {agent : AgentId} {b : Fin 64} {v : Word} {mode : Nat}
    (hc : exec c s = s.onDev fun d => d.writeIf (wordBit v 31 && decide (v.toNat % 4 = mode)) agent (grpReg b 0xFF08) v)
    (hopen : s.dev.grpOpen agent b = true) (hask : wordBit v 31 = true) (hmode : v.toNat % 4 = mode)
    (hgo : s.dev.goRefusal agent (grpKey b (s.dev.selected agent b)) mode = none)
    (he : (s.dev.goLogged agent (grpReg b 0xFF08) v).grpGo (grpKey b (s.dev.selected agent b)) mode =
      (s.dev.goLogged agent (grpReg b 0xFF08) v).pendingAs (grpKey b (s.dev.selected agent b)) mode) :
    Does c s (s.dev.WaitsAs agent b v (goMode mode)) :=
  does_go hc hopen hask hmode hgo he (.inr (pending_ordinary _ _ _ _ _ _)) (settle_waitsAs _ _ _ _ _)

/-- A GO that takes effect at once, on chip. -/
theorem does_goApplies {c : Instr} {s : State} {agent : AgentId} {b : Fin 64} {v : Word} {mode : Nat} {P : Dev → Prop}
    (hc : exec c s = s.onDev fun d => d.writeIf (wordBit v 31 && decide (v.toNat % 4 = mode)) agent (grpReg b 0xFF08) v)
    (hopen : s.dev.grpOpen agent b = true) (hask : wordBit v 31 = true) (hmode : v.toNat % 4 = mode)
    (hgo : s.dev.goRefusal agent (grpKey b (s.dev.selected agent b)) mode = none)
    (hk : plainGroup (grpKey b (s.dev.selected agent b))) (hzero : mode = 0 ∨ mode = 2) (hchip : s.dev.lgDram = false)
    (hwait : s.dev.led.waiting = []) (hw : s.dev.stagedInGroup (grpKey b (s.dev.selected agent b)))
    (hp : P (settle (((s.dev.goLogged agent (grpReg b 0xFF08) v).pendingAs (grpKey b (s.dev.selected agent b)) mode).applied
      (grpKey b (s.dev.selected agent b)) s.dev.nowNs false))) : Does c s P :=
  does_go hc hopen hask hmode hgo
    (grpGo_plain (d := s.dev.goLogged agent (grpReg b 0xFF08) v) hk hzero hchip hwait hw) (.inl hchip) hp

theorem plainGroup_selected {d : Dev} {agent : AgentId} {b : Nat} (hb : b = 0x04 ∨ b = 0x06) :
    plainGroup (grpKey b (d.selected agent b)) := by
  unfold plainGroup
  rwa [grpKey_block (selected_lt d agent b)]

/-! ### COMMIT_APPLY (R41, R42) -/

theorem applied_sliceDet (d : Dev) (k : Nat) (t : Time) (late : Bool) : (d.applied k t late).sliceDet = d.sliceDet := by
  have hwords : (d.applied k t late).sliceDet = (d.nextSeq.2.setWords (fun p => d.mergeStg p.1 p.2) (d.grp k).staged).sliceDet := rfl
  rw [hwords, setWords_eq]
  rfl

theorem unitRuns_sup (d : Dev) : d.unitRuns supGroup = d.sliceDet.isSome := rfl

/-- A COMMIT_APPLY that ends no slice supervision is the commit alone. -/
theorem exec_commitApply {s : State} {b g : Nat} {e : Dev} (he : s.dev.begun.applyDue (grpKey b g) = e)
    (hdet : e.sliceDet = s.dev.sliceDet) : exec (.commitApply b g) s = .next { s with dev := settle e } := by
  have hstop : Dev.applyStopped s.dev.begun e supGroup = e := by
    refine applyStopped_of_same ?_
    rw [unitRuns_sup, unitRuns_sup, hdet]
    rfl
  rw [← hstop, ← he]
  rfl

/-- A commit AT its time (R41). -/
theorem begun_applyDue_onTime {d : Dev} {k : Nat} (hk : plainGroup k) (hst : (d.grp k).st = .pending)
    (hmode : (d.grp k).mode = .atTime) (hdue : d.due (d.grp k).target = true)
    (hdist : dist ((d.grp k).goT + commitSetup (k / 256)) (d.grp k).target ≥ 0) (hchip : d.lgDram = false)
    (hwait : d.led.waiting = []) (hw : d.stagedInGroup k) : d.begun.applyDue k = d.begun.applied k (d.grp k).target false :=
  (applyDue_onTime (d := d.begun) hst hmode hdue hdist).trans
    ((tryApply_of_chip (d := d.begun) hchip hwait k (d.grp k).target none).trans (applyOne_onTime (d := d.begun) hk hw _))

/-- A commit whose GO came too late for its time (R42). -/
theorem begun_applyDue_late {d : Dev} {k : Nat} (hk : plainGroup k) (hst : (d.grp k).st = .pending)
    (hmode : (d.grp k).mode = .atTime) (hdue : d.due (d.grp k).target = true)
    (hdist : dist ((d.grp k).goT + commitSetup (k / 256)) (d.grp k).target < 0) (hchip : d.lgDram = false)
    (hwait : d.led.waiting = []) (hw : d.stagedInGroup k) : d.begun.applyDue k =
      (d.begun.applied k (maxT (d.grp k).goT (d.grp k).target) true).lateAct (k / 256) (d.grp k).target (maxT (d.grp k).goT (d.grp k).target) :=
  (applyDue_late (d := d.begun) hst hmode hdue hdist).trans
    ((tryApply_of_chip (d := d.begun) hchip hwait k _ (some (d.grp k).target)).trans (applyOne_late (d := d.begun) hk hw _ _))

/-- The records of a commit stand on chip after it (R43, R54). -/
theorem settle_applied_records {d : Dev} {k : Nat} (hk : plainGroup k) (hw : d.stagedInGroup k) (hchip : d.lgDram = false)
    (hfresh : d.led.fresh = []) (t : Time) (late : Bool) (hlen : (d.grpRecs k).length ≤ 4096) {r : Record}
    (hr : r ∈ commitRecords t late d.nextSeq.1 (d.grpRecs k)) :
    (settle (d.begun.applied k t late)).led.chip.any (fun q => decide ({ q with seq := r.seq } = r)) = true := by
  have hmade := (Dev.Makes.begun d (l := SYS.COMMIT_SEQ :: (d.grp k).staged.map (·.1))).applied k t late List.mem_cons_self
    fun p hp => List.mem_cons_of_mem _ (List.mem_map_of_mem hp)
  have hctrl : LEDGER.LG_CTRL ∉ SYS.COMMIT_SEQ :: (d.grp k).staged.map (·.1) := by
    rw [List.mem_cons, List.mem_map]
    rintro (hseq | ⟨p, hp, heq⟩)
    · exact absurd hseq (by decide)
    · exact staged_ne hk hw hp (by decide) heq
  have hsame := d.sameWords_begun k
  have hruns : (d.begun.applied k t late).led.fresh = runRecords t late d.nextSeq.1 true (d.grpRecs k) := by
    rw [hmade.fresh, hfresh, hsame.nextSeq, hsame.grpRecs]
    rfl
  have hne : d.grpRecs k ≠ [] := List.ne_nil_of_length_pos (grpRecs_pos d k)
  rw [commitRecords_eq] at hr
  obtain ⟨q, hq, hqr⟩ := settle_run ((hmade.lgDram hctrl).trans hchip)
    (by rw [hruns, orderRuns_runRecords t late _ hne])
    (by rw [hruns]; exact List.ne_nil_of_mem hr) (by rw [hruns, runRecords_length]; exact hlen) (hruns ▸ hr)
  exact List.any_eq_true.mpr ⟨q, hq, decide_eq_true hqr⟩

/-! ### A late commit counted (R27, R42) -/

/-- A late act writes registers of the Milepost only. -/
theorem lateAct_reg (d : Dev) (block : Nat) (target t : Time) {a : Nat} (ha : a / 0x10000 ≠ 2) :
    (d.lateAct block target t).reg a = d.reg a := by
  have hne (x : Nat) (hx : x / 0x10000 = 2) : a ≠ x := by
    rintro rfl
    exact ha hx
  rw [Dev.lateAct, Dev.reg_setFld_ne _ (hne _ (by decide)), Dev.reg_setNum, if_neg (hne _ (by decide)), Dev.setReg64,
    Dev.reg_setReg_ne _ (hne _ (by decide)), Dev.reg_setReg_ne _ (hne _ (by decide)), Dev.incNum, Dev.reg_setNum,
    if_neg (hne _ (by decide))]

theorem satInc_le (cap n : Nat) : satInc cap n ≤ cap := by
  unfold satInc
  split <;> omega

theorem lateAct_count (d : Dev) (block : Nat) (target t : Time) :
    (d.lateAct block target t).num MILEPOST.LATE_COUNT = satInc 0xFFFFFFFF (d.num MILEPOST.LATE_COUNT) := by
  have hkept : (d.lateAct block target t).num MILEPOST.LATE_COUNT = (d.incNum MILEPOST.LATE_COUNT).num MILEPOST.LATE_COUNT := by
    refine congrArg BitVec.toNat ?_
    rw [Dev.lateAct, Dev.reg_setFld_ne _ (by decide), Dev.reg_setNum, if_neg (by decide), Dev.setReg64,
      Dev.reg_setReg_ne _ (by decide), Dev.reg_setReg_ne _ (by decide)]
  have hcap := satInc_le 0xFFFFFFFF (d.num MILEPOST.LATE_COUNT)
  rw [hkept, Dev.incNum, Dev.num_setNum _ _ _ (by omega)]

theorem setReg64_reg64 (d : Dev) (a : Nat) (v : DWord) : (d.setReg64 a v).reg64 a = v := by
  rw [Dev.reg64, Dev.setReg64, Dev.reg_setReg_self, Dev.reg_setReg_ne _ (by omega), Dev.reg_setReg_self, append_halves]

theorem lateAct_last (d : Dev) (block : Nat) (target t : Time) : (d.lateAct block target t).reg64 MILEPOST.LATE_LAST = target := by
  have hkept (a : Nat) (hsrc : a ≠ MILEPOST.LATE_SRC) (hflags : a ≠ MILEPOST.MP_FLAGS) : (d.lateAct block target t).reg a =
      ((d.incNum MILEPOST.LATE_COUNT).setReg64 MILEPOST.LATE_LAST target).reg a := by
    rw [Dev.lateAct, Dev.reg_setFld_ne _ hflags, Dev.reg_setNum, if_neg hsrc]
  rw [Dev.reg64, hkept _ (by decide) (by decide), hkept _ (by decide) (by decide)]
  exact setReg64_reg64 _ _ _

theorem lateAct_flag (d : Dev) (block : Nat) (target t : Time) : (d.lateAct block target t).flag MILEPOST.MP_FLAGS_LATE = true :=
  Dev.flag_setFld_one _ MILEPOST.MP_FLAGS_LATE (by decide) (by decide)

/-! ### Commits of one group (R40 to R43) -/

theorem plainGroup_key {b g : Nat} (hb : b = 0x04 ∨ b = 0x06) (hg : g < 256) : plainGroup (grpKey b g) := by
  unfold plainGroup
  rwa [grpKey_block hg]

/-- A commit of group `k` at its end: the words, the group, COMMIT_SEQ, and what stays. -/
theorem settle_begun_applied {d : Dev} {k : Nat} (hk : plainGroup k) (hw : d.stagedInGroup k)
    (hs : Tab.sorted (d.grp k).staged = true) (t : Time) (late : Bool) :
    let e := settle (d.begun.applied k t late)
    (d.grp k).staged.all (fun p => decide (e.reg p.1 = d.mergeStg p.1 p.2)) = true ∧
    e.grp k = { (d.grp k).release with seq := d.nextSeq.1, late := late, applied := unitTime (k / 256) t } ∧
    e.fld SYS.COMMIT_SEQ_SEQ = d.nextSeq.1.toNat ∧ d.keepsRegs e (SYS.COMMIT_SEQ :: (d.grp k).staged.map (·.1)) ∧
    { d with groups := e.groups }.keepsUnits e :=
  settle_applied (fun _ => Dev.Makes.begun d) (d.sameWords_begun k)
    (show { d with groups := d.groups }.keepsUnits d.begun from ⟨rfl, fun _ => rfl⟩) hk hw hs t late

/-- A late commit of group `k` at its end: the words and the group of the commit, and the lateness counted (R27). -/
theorem settle_applied_late {d : Dev} {k : Nat} (hk : plainGroup k) (hw : d.stagedInGroup k)
    (hs : Tab.sorted (d.grp k).staged = true) (t target : Time) :
    let e := settle ((d.begun.applied k t true).lateAct (k / 256) target t)
    (d.grp k).staged.all (fun p => decide (e.reg p.1 = d.mergeStg p.1 p.2)) = true ∧
    ((e.grp k).st = .idle ∧ (e.grp k).late = true ∧ (e.grp k).applied = floorNs t) ∧
    e.num MILEPOST.LATE_COUNT = satInc 0xFFFFFFFF (d.num MILEPOST.LATE_COUNT) ∧
    e.reg64 MILEPOST.LATE_LAST = target ∧ e.flag MILEPOST.MP_FLAGS_LATE = true := by
  intro e
  have hgrp : e.grp k = { (d.grp k).release with seq := d.begun.nextSeq.1, late := true, applied := unitTime (k / 256) t } :=
    (settle_grp _ k).trans (applied_grp d.begun k t true)
  have hcount : (d.begun.applied k t true).num MILEPOST.LATE_COUNT = d.num MILEPOST.LATE_COUNT := by
    refine congrArg BitVec.toNat ((applied_reg d.begun k t true _).trans ((setWords_reg_ne _ _ fun hmem => ?_).trans (nextSeq_reg_ne _ (by decide))))
    obtain ⟨p, hp, heq⟩ := List.mem_map.mp hmem
    exact staged_ne hk hw hp (by decide) heq
  refine ⟨List.all_eq_true.mpr fun p hp => decide_eq_true ?_, ?_, ?_, ?_, ?_⟩
  · have hblock := groupOf_apart hk (hw p hp)
    exact (settle_reg _ _ (by omega) (by omega)).trans ((lateAct_reg _ _ _ _ (by omega)).trans (applied_reg_staged (d := d.begun) hs t true hp))
  · rw [hgrp, unitTime_plain hk]
    exact ⟨rfl, rfl, rfl⟩
  · rw [settle_num _ _ (by decide) (by decide), lateAct_count, hcount]
  · rw [Dev.reg64, settle_reg _ _ (by decide) (by decide), settle_reg _ _ (by decide) (by decide)]
    exact lateAct_last _ _ _ _
  · rw [settle_flag _ _ (by decide) (by decide)]
    exact lateAct_flag _ _ _ _

/-- Settles O7: a GO makes the selected group pending, and the commit of a group of the fault manager or the Junction, due at once or at a
time that is reached, sets its staged words as one change. -/
theorem commitsOfOneGroup : Obligations.CommitsOfOneGroup := by
  unfold Obligations.CommitsOfOneGroup
  intro s
  refine ⟨?boundary, ?atTime, ?now, ?onTime, ?boundaryPlain, ?late⟩
  case boundary =>
    intro a b v hopen hask hmode hgo _ hruns hslot
    refine does_goWaits (mode := 0) rfl hopen hask hmode hgo ?_
    exact grpGo_slot (d := s.dev.goLogged a.id (grpReg b 0xFF08) v) (by rwa [grpKey_block (selected_lt _ _ _)]) hruns
  case atTime =>
    intro a b v hopen hask hmode hgo htie hdue
    refine does_goWaits (mode := 1) rfl hopen hask hmode hgo ?_
    refine grpGo_future (d := s.dev.goLogged a.id (grpReg b 0xFF08) v) ?_ ?_
    · rwa [grpKey_block (selected_lt _ _ _)]
    · rw [grpKey_block (selected_lt _ _ _)]
      exact hdue
  case now =>
    intro a b v hopen hask hmode hgo hb hchip hwait hs hw
    have hk := plainGroup_selected (d := s.dev) (agent := a.id) hb
    exact does_goApplies (mode := 2) rfl hopen hask hmode hgo hk (.inr rfl) hchip hwait hw (settle_goApplied a.id _ v hk hw hs)
  case onTime =>
    intro b g hb hg hst hmode hdue hdist hchip hwait hs hw hlen
    have hk := plainGroup_key hb hg
    rw [← congrArg commitSetup (grpKey_block (b := b) hg)] at hdist
    have hdet := applied_sliceDet s.dev.begun (grpKey b g) (s.dev.grp (grpKey b g)).target false
    refine does_of_effect (exec_commitApply (begun_applyDue_onTime hk hst hmode hdue hdist hchip hwait hw) hdet) rfl ?_
    obtain ⟨hwords, hgrp, hseq, hregs, hunits⟩ := settle_begun_applied hk hw hs (s.dev.grp (grpKey b g)).target false
    exact ⟨hwords, released_iff _ _ _ _ hgrp, hseq, hregs, hunits, fun r hr hfresh =>
      settle_applied_records hk hw hchip hfresh _ _ (by omega) hr⟩
  case boundaryPlain =>
    intro a b v hopen hask hmode hgo hb hchip hwait hs hw
    have hk := plainGroup_selected (d := s.dev) (agent := a.id) hb
    exact does_goApplies (mode := 0) rfl hopen hask hmode hgo hk (.inl rfl) hchip hwait hw (settle_goApplied a.id _ v hk hw hs)
  case late =>
    intro b g hb hg hst hmode hdue hdist hchip hwait hs hw _
    have hk := plainGroup_key hb hg
    rw [← congrArg commitSetup (grpKey_block (b := b) hg)] at hdist
    have hdet := applied_sliceDet s.dev.begun (grpKey b g) (maxT (s.dev.grp (grpKey b g)).goT (s.dev.grp (grpKey b g)).target) true
    refine does_of_effect (exec_commitApply (begun_applyDue_late hk hst hmode hdue hdist hchip hwait hw) hdet) rfl ?_
    exact settle_applied_late hk hw hs _ _

/-! ### Writes of SYS (R44, R45, R48, R65) -/

/-- The key of a word of SYS is no pin's owner word, no engine's word, no coefficient, and no RETIRE entry. -/
theorem sys_apart {a : Nat} (hb : a / 0x10000 = 0) : ownPin a = none ∧ engAt a = none ∧ coefAt a = none ∧
    ¬ (MEMCTL.RETIRE 0 ≤ a ∧ a < MEMCTL.RETIRE 128) := by
  refine ⟨if_neg ?_, ?_, if_neg ?_, ?_⟩
  · simp only [PINMUX.PIN_OWN]; omega
  · rw [engAt, if_neg (by simp only [PENG.ENG_CLK]; omega), if_neg (by simp only [PENG.ENG_PROG]; omega)]
  · omega
  · simp only [MEMCTL.RETIRE]; omega

theorem Dev.wordNow_sys (d : Dev) {a : Nat} (hb : a / 0x10000 = 0) : d.wordNow a = d.reg a := by
  obtain ⟨-, -, hcoef, -⟩ := sys_apart hb
  simp only [Dev.wordNow, hcoef]

theorem Dev.blockEffect_sys (d : Dev) (agent : AgentId) {a : Nat} (hb : a / 0x10000 = 0) (old v ev : Word) :
    d.blockEffect agent a old v ev = d.sysEffect agent a v := by
  simp only [Dev.blockEffect, hb]
  rfl

/-- A word of SYS taken: it is stored with its record, if it has one, and acts. -/
theorem Dev.takeWord_sys (d : Dev) (agent : AgentId) (h : RegHit) {a : Nat} (hb : a / 0x10000 = 0) (v : Word) :
    d.takeWord agent h a v =
      ((({ d with answer := .ok } : Dev).setReg a (d.wordAfter h a v)).writeRecord h agent a v (h.acted (d.wordAfter h a v) v)
        (d.reg a)).sysEffect agent a v := by
  obtain ⟨hpin, heng, hcoef, hretire⟩ := sys_apart hb
  simp only [Dev.takeWord, hpin, heng, hretire, if_false, d.wordNow_sys hb, Dev.putWord, hcoef]
  exact Dev.blockEffect_sys _ agent hb _ _ _

/-- A word stored without a record. -/
def Dev.put (d : Dev) (a : Nat) (w : Word) : Dev := ({ d with answer := .ok } : Dev).setReg a w

/-- A word of RW fields alone makes no record (R49). -/
theorem Dev.takeWord_sys_plain (d : Dev) (agent : AgentId) {h : RegHit} {a : Nat} (hb : a / 0x10000 = 0) (hlive : h.logged = false)
    (hcmd : h.command = false) (v : Word) : d.takeWord agent h a v = (d.put a (d.wordAfter h a v)).sysEffect agent a v := by
  have hcons : a ≠ PROTECT.CONS_CMD := by rintro rfl; exact absurd hb (by decide)
  rw [Dev.takeWord_sys d agent h hb, Dev.writeRecord, if_neg hcons, if_neg (ne_true_of_eq_false hlive), if_neg (ne_true_of_eq_false hcmd)]
  rfl

/-- A word of CMD fields alone is recorded as it was written (R49). -/
theorem Dev.takeWord_sys_command (d : Dev) (agent : AgentId) {h : RegHit} {a : Nat} (hb : a / 0x10000 = 0) (hlive : h.logged = false)
    (hcmd : h.command = true) (v : Word) :
    d.takeWord agent h a v = (d.stored agent a (d.wordAfter h a v) v 0).sysEffect agent a v := by
  have hcons : a ≠ PROTECT.CONS_CMD := by rintro rfl; exact absurd hb (by decide)
  rw [Dev.takeWord_sys d agent h hb, Dev.writeRecord, if_neg hcons, if_neg (ne_true_of_eq_false hlive), if_pos hcmd]
  rfl

/-- What refuses a write of a register of SYS (R51, R65): the protection map, the fields' ranges, the facility's own rules. -/
theorem Dev.writeRefusal_sys (d : Dev) (agent : AgentId) {h : RegHit} {a : Nat} (hb : a / 0x10000 = 0) (hstg : h.stg = false) (v : Nat) :
    d.writeRefusal agent h a v = causeOf ((if d.blkLevel agent 0 < 2 then [(1, 99, .permission)] else [])
      ++ tableRefusals h v true ++ d.sysRefusals agent a v) := by
  have hcons : a ≠ PROTECT.CONS_CMD := by rintro rfl; exact absurd hb (by decide)
  have hwriter : d.writerForbidden agent a h = decide (d.blkLevel agent 0 < 2) := by simp [Dev.writerForbidden, hb]
  have hoff : d.ledgerOff (a / 0x10000) = false := by simp [Dev.ledgerOff, hb]
  have hstop : d.stopOk a = true := by simp [Dev.stopOk, hb]
  have hblock : d.blockRefusals agent a v = d.sysRefusals agent a v := by simp [Dev.blockRefusals, hb]
  have hlist : d.refusals agent h a v = (if d.blkLevel agent 0 < 2 then [(1, 99, .permission)] else [])
      ++ tableRefusals h v true ++ d.sysRefusals agent a v := by
    simp only [Dev.refusals, hwriter, hoff, hstg, hstop, hblock, decide_eq_true_eq, Bool.false_eq_true, if_false, List.append_nil]
  rw [Dev.writeRefusal, hlist, if_neg hcons]
  generalize causeOf _ = c
  cases c <;> rfl

theorem causeOf_eq_none {l : List (Nat × Nat × Cause)} (h : causeOf l = none) : l = [] := by
  cases l with
  | nil => rfl
  | cons x t => exact absurd h (by simp [causeOf])

/-- A write of SYS that nothing refuses has no refusal of the facility. -/
theorem sysRefusals_of_allowed {d : Dev} {agent : AgentId} {h : RegHit} {a v : Nat} (hb : a / 0x10000 = 0) (hstg : h.stg = false)
    (hnone : d.writeRefusal agent h a v = none) : d.sysRefusals agent a v = [] := by
  rw [Dev.writeRefusal_sys d agent hb hstg] at hnone
  exact (List.append_eq_nil_iff.mp (causeOf_eq_none hnone)).2

/-- The words as the commit of the groups of `l` would leave them, on top of `e`. -/
def Dev.listWould (d : Dev) (l : List Nat) (e : Dev) : Dev :=
  l.foldl (fun e k => e.setWords (fun p => d.mergeStg p.1 p.2) (d.grp k).staged) e

theorem listWould_begun (d : Dev) (l : List Nat) (e : Dev) : d.begun.listWould l e.begun = (d.listWould l e).begun := by
  induction l generalizing e with
  | nil => rfl
  | cons k l ih =>
    have hhead := setWords_begun e (fun p => d.mergeStg p.1 p.2) (d.grp k).staged
    exact (congrArg (d.begun.listWould l) hhead).trans (ih (e.setWords (fun p => d.mergeStg p.1 p.2) (d.grp k).staged))

theorem gcGoRefusal_eq (d : Dev) : d.gcGoRefusal =
    if !d.gcListOk then some .list
    else if d.gcEntries.contains (grpKey 0x08 0) ∧ ¬ d.tieMaster then some .state
    else match d.gcEntries.findSome? (fun k => d.commitCheck (d.listWould d.gcEntries d) k) with
      | some c => some c
      | none => if (d.gcEntries.flatMap d.grpRecs).length > 4032 then some .size else none := rfl

/-- What refuses a GO does not depend on what was answered before. -/
theorem gcGoRefusal_begun (d : Dev) : d.begun.gcGoRefusal = d.gcGoRefusal := by
  rw [gcGoRefusal_eq, gcGoRefusal_eq, show d.begun.gcEntries = d.gcEntries from rfl, listWould_begun]
  rfl

theorem sysRefusals_begun (d : Dev) (agent : AgentId) (a v : Nat) : d.begun.sysRefusals agent a v = d.sysRefusals agent a v := by
  have hctrl : d.begun.gcCtrlRefusal agent v = d.gcCtrlRefusal agent v := by
    rw [Dev.gcCtrlRefusal, Dev.gcCtrlRefusal, gcGoRefusal_begun]
    rfl
  rw [Dev.sysRefusals, Dev.sysRefusals, hctrl]
  rfl

/-- A write of SYS that is taken is taken by the device in which its command begins. -/
theorem Dev.TakesAt.begun_sys {d : Dev} {agent : AgentId} {h : RegHit} {a : Nat} {v : Word} (ht : d.TakesAt agent h a v)
    (hb : a / 0x10000 = 0) : d.begun.TakesAt agent h a v := by
  obtain ⟨hstg, -⟩ := plainWord_apart ht.plain
  have hsame : d.begun.writeRefusal agent h a v.toNat = d.writeRefusal agent h a v.toNat := by
    rw [Dev.writeRefusal_sys _ agent hb hstg, Dev.writeRefusal_sys _ agent hb hstg, sysRefusals_begun]
    rfl
  exact ⟨ht.hit, ht.plain, ht.acts, hsame.trans ht.allowed, ht.safe, ht.room⟩

/-- A taken write of a word of SYS does what `takeWord` says, if its records find room. -/
theorem Dev.regWrite_sys {d e : Dev} {agent : AgentId} {h : RegHit} {a : Nat} {v : Word} {l ids : List Nat} {rs : List Record}
    (hb : a / 0x10000 = 0) (ht : d.TakesAt agent h a v) (he : d.begun.takeWord agent h a v = e) (hm : d.Makes e l ids rs)
    (hrs : rs.length ≤ 64) : d.begun.regWrite agent a v = e := by
  have htry : d.begun.regTry agent a v = e := (Dev.regTry_of_takes (ht.begun_sys hb)).trans he
  have hdbg : a ≠ DEBUG.DBG_CMD := by rintro rfl; exact absurd hb (by decide)
  have hroom : (d.begun.regTry agent a v).ordinary ≤ d.begun.ordinary + 64 := by
    rw [htry]
    exact hm.ordinary_le.trans (Nat.add_le_add_left hrs _)
  exact (Dev.regWrite_of_room (b := d.begun) ht.room hroom hdbg).trans htry

theorem Dev.Makes.put (d : Dev) {a : Nat} {l : List Nat} (ha : a ∈ l) (w : Word) : d.Makes (d.begun.put a w) l [] [] := by
  have hok : d.Makes { d.begun with answer := .ok } l [] [] := (Dev.Makes.begun d).frame rfl rfl rfl rfl
  exact hok.setReg ha w

theorem Dev.keepsUnits.put (d : Dev) (a : Nat) (w : Word) : d.keepsUnits (d.begun.put a w) := ⟨rfl, fun _ => rfl⟩

theorem Dev.put_reg_self (d : Dev) (a : Nat) (w : Word) : (d.put a w).reg a = w := Dev.reg_setReg_self _ a w

theorem Dev.put_reg_ne (d : Dev) {a k : Nat} (hk : k ≠ a) (w : Word) : (d.put a w).reg k = d.reg k :=
  Dev.reg_setReg_ne { d with answer := .ok } hk w

/-! ### The facility's state (R44, R65) -/

theorem gcShow_state (d : Dev) {n : Nat} (hn : n < 8) (o : AgentId) : (d.gcShow n o).gcState = n :=
  (Dev.fld_setFld_ne _ SYS.GC_STATUS_OWNER SYS.GC_STATUS_STATE _ (by decide) (by decide) (by decide)).trans
    (Dev.fld_setFld_of_lt d SYS.GC_STATUS_STATE n (by decide) (by decide) hn)

theorem gcShow_owner (d : Dev) (n : Nat) (o : AgentId) : (d.gcShow n o).gcOwner = o := by
  have hfld : (d.gcShow n o).fld SYS.GC_STATUS_OWNER = o.toNat :=
    Dev.fld_setFld_of_lt _ SYS.GC_STATUS_OWNER _ (by decide) (by decide) o.isLt
  rw [Dev.gcOwner, hfld, BitVec.ofNat_toNat, BitVec.setWidth_eq]

theorem gcShow_late (d : Dev) (n : Nat) (o : AgentId) : (d.gcShow n o).flag SYS.GC_STATUS_LATE = d.flag SYS.GC_STATUS_LATE :=
  (Dev.flag_setFld_ne _ SYS.GC_STATUS_OWNER _ _ (by decide) (by decide) (by decide)).trans
    (Dev.flag_setFld_ne _ SYS.GC_STATUS_STATE _ _ (by decide) (by decide) (by decide))

theorem gcShow_reg (d : Dev) (n : Nat) (o : AgentId) {a : Nat} (ha : a ≠ SYS.GC_STATUS) : (d.gcShow n o).reg a = d.reg a :=
  (Dev.reg_setFld_ne _ ha _).trans (Dev.reg_setFld_ne _ ha _)

theorem Dev.Makes.gcShow {d e : Dev} {l ids : List Nat} {rs : List Record} (h : d.Makes e l ids rs) (hs : SYS.GC_STATUS ∈ l) (n : Nat)
    (o : AgentId) : d.Makes (e.gcShow n o) l ids rs :=
  (h.setFld (f := SYS.GC_STATUS_STATE) hs n).setFld (f := SYS.GC_STATUS_OWNER) hs o.toNat

theorem Dev.keepsUnits.gcShow {d e : Dev} (h : d.keepsUnits e) (n : Nat) (o : AgentId) : d.keepsUnits (e.gcShow n o) :=
  (h.setFld SYS.GC_STATUS_STATE n).setFld SYS.GC_STATUS_OWNER o.toNat

theorem settle_gcState (d : Dev) : (settle d).gcState = d.gcState := settle_fld d SYS.GC_STATUS_STATE (by decide) (by decide)

theorem settle_gcOwner (d : Dev) : (settle d).gcOwner = d.gcOwner :=
  congrArg (BitVec.ofNat 16) (settle_fld d SYS.GC_STATUS_OWNER (by decide) (by decide))

theorem settle_gc (d : Dev) : (settle d).gc = d.gc := by
  have h := congrArg Dev.gc (settles d).units
  exact h

theorem settle_snap (d : Dev) : (settle d).snap = d.snap := by
  have h := congrArg Dev.snap (settles d).units
  exact h

/-! ### A list entry (R44) -/

/-- The table entry of the list entry `n`. -/
def gcListHit (n : Fin 64) : RegHit := ⟨sysRegs[13], n.val, 0, false⟩

theorem regHit_gcList (n : Fin 64) : regHit (SYS.GC_LIST n) = some (gcListHit n) := by
  revert n
  decide

theorem gcList_block (n : Fin 64) : SYS.GC_LIST n / 0x10000 = 0 := by
  unfold SYS.GC_LIST
  omega

/-- A write of an idle facility's list entry claims the facility. -/
theorem sysEffect_gcList (d : Dev) (agent : AgentId) (n : Fin 64) (v : Word) (hidle : d.gcState = 0) :
    d.sysEffect agent (SYS.GC_LIST n) v = d.gcShow 1 agent := by
  have hn := n.isLt
  have hlimit : ¬ SYS.GC_LIST n = SYS.CLAIM_LIMIT := by simp only [SYS.GC_LIST, SYS.CLAIM_LIMIT]; omega
  have hctrl : ¬ SYS.GC_LIST n = SYS.GC_CTRL := by simp only [SYS.GC_LIST, SYS.GC_CTRL]; omega
  have hlist : SYS.GC_LIST n = SYS.GC_AT + 4 ∨ (SYS.GC_LIST 0 ≤ SYS.GC_LIST n ∧ SYS.GC_LIST n < SYS.GC_LIST 64) :=
    .inr (by simp only [SYS.GC_LIST]; omega)
  rw [Dev.sysEffect, if_neg hlimit, if_neg hctrl, if_pos hlist]
  exact Dev.when_of_true d (decide_eq_true hidle) _

theorem gcList_ne_status (n : Nat) : SYS.GC_STATUS ≠ SYS.GC_LIST n := by
  simp only [SYS.GC_LIST, SYS.GC_STATUS]
  omega

theorem gcList_ne_ctrl (n : Nat) : SYS.GC_LIST n ≠ SYS.GC_CTRL := by
  simp only [SYS.GC_LIST, SYS.GC_CTRL]
  omega

/-- A write of a list entry that is taken. -/
theorem regWrite_gcList {d : Dev} {agent : AgentId} {n : Fin 64} {v : Word} (ht : d.takes agent (SYS.GC_LIST n) v = true)
    (hidle : d.gcState = 0) : d.begun.regWrite agent (SYS.GC_LIST n) v =
      (d.begun.put (SYS.GC_LIST n) (d.begun.wordAfter (gcListHit n) (SYS.GC_LIST n) v)).gcShow 1 agent := by
  have htakes := Dev.takesAt_of_takes (regHit_gcList n) ht
  have hm := (Dev.Makes.put d (a := SYS.GC_LIST n) (l := [SYS.GC_LIST n, SYS.GC_STATUS]) (by simp)
    (d.begun.wordAfter (gcListHit n) (SYS.GC_LIST n) v)).gcShow (by simp) 1 agent
  refine Dev.regWrite_sys (gcList_block n) htakes ?_ hm (by simp)
  rw [Dev.takeWord_sys_plain (h := gcListHit n) _ _ (gcList_block n) rfl rfl]
  refine sysEffect_gcList _ _ _ _ (Eq.trans ?_ hidle)
  exact Dev.fld_of_reg (Dev.put_reg_ne d.begun (gcList_ne_status n) _)

/-- A list entry taken, at the end of its command. -/
theorem settle_gcList (d : Dev) (agent : AgentId) (n : Fin 64) (w : Word) :
    let e := settle ((d.begun.put (SYS.GC_LIST n) w).gcShow 1 agent)
    e.answer = .ok ∧ e.reg (SYS.GC_LIST n) = w ∧ e.gcState = 1 ∧ e.gcOwner = agent ∧
    d.keepsRegs e [SYS.GC_LIST n, SYS.GC_STATUS] ∧ d.keepsUnits e := by
  have hm := (Dev.Makes.put d (a := SYS.GC_LIST n) (l := [SYS.GC_LIST n, SYS.GC_STATUS]) (by simp) w).gcShow (by simp) 1 agent
  have hblock := gcList_block n
  have hctrl : LEDGER.LG_CTRL ∉ [SYS.GC_LIST n, SYS.GC_STATUS] := by
    simp only [List.mem_cons, List.not_mem_nil, or_false, not_or]
    exact ⟨fun heq => absurd (heq ▸ hblock) (by decide), by decide⟩
  refine ⟨settle_answer _, ?_, (settle_gcState _).trans (gcShow_state _ (by decide) _), (settle_gcOwner _).trans (gcShow_owner _ _ _),
    hm.settle_keepsRegs, hm.settle_keepsUnits hctrl rfl ((Dev.keepsUnits.put d _ w).gcShow 1 agent)⟩
  rw [settle_reg _ _ (by omega) (by omega), gcShow_reg _ _ _ (gcList_ne_status n).symm, Dev.put_reg_self]

/-! ### Groups changed in turn -/

/-- The groups of `ks` changed in turn by `f`. -/
def Dev.mapGrps (d : Dev) (f : Grp → Grp) (ks : List Nat) : Dev := d.each ks fun d k => d.setGrp k (f (d.grp k))

theorem mapGrps_cons (d : Dev) (f : Grp → Grp) (k : Nat) (ks : List Nat) :
    d.mapGrps f (k :: ks) = (d.setGrp k (f (d.grp k))).mapGrps f ks := rfl

theorem mapGrps_eq (d : Dev) (f : Grp → Grp) (ks : List Nat) : d.mapGrps f ks = { d with groups := (d.mapGrps f ks).groups } := by
  induction ks generalizing d with
  | nil => rfl
  | cons k ks ih => exact ih (d.setGrp k (f (d.grp k)))

theorem grp_setGrp_ne (d : Dev) {j k : Nat} (h : j ≠ k) (g : Grp) : (d.setGrp k g).grp j = d.grp j := Tab.get_set_ne _ _ h g d.groups

theorem mapGrps_grp_of_not_mem (d : Dev) (f : Grp → Grp) {ks : List Nat} {j : Nat} (hj : j ∉ ks) : (d.mapGrps f ks).grp j = d.grp j := by
  induction ks generalizing d with
  | nil => rfl
  | cons k ks ih =>
    simp only [List.mem_cons, not_or] at hj
    exact (ih (d.setGrp k (f (d.grp k))) hj.2).trans (grp_setGrp_ne d hj.1 _)

/-- A change that changes nothing a second time reaches each group of the list, however often it is named. -/
theorem mapGrps_grp (d : Dev) {f : Grp → Grp} (hf : ∀ g, f (f g) = f g) {ks : List Nat} {j : Nat} (hj : j ∈ ks) :
    (d.mapGrps f ks).grp j = f (d.grp j) := by
  induction ks generalizing d with
  | nil => exact absurd hj (by simp)
  | cons k ks ih =>
    rw [mapGrps_cons]
    by_cases hrest : j ∈ ks
    · rw [ih _ hrest]
      by_cases hjk : j = k
      · rw [hjk, grp_setGrp_self, hf]
      · rw [grp_setGrp_ne d hjk]
    · obtain rfl : j = k := (List.mem_cons.mp hj).resolve_right hrest
      rw [mapGrps_grp_of_not_mem _ f hrest, grp_setGrp_self]

/-- The facility's groups and the commit that is pending changed. -/
def Dev.gcHeld (d : Dev) (f : Grp → Grp) (ks : List Nat) (x : Option GlobalCommit) : Dev :=
  { d with gc := x, groups := (d.mapGrps f ks).groups }

theorem gcHeld_of_mapGrps (d : Dev) (f : Grp → Grp) (ks : List Nat) (x : Option GlobalCommit) :
    ({ d.mapGrps f ks with gc := x } : Dev) = d.gcHeld f ks x := by
  rw [mapGrps_eq]
  rfl

theorem mapGrps_regs (d : Dev) (f : Grp → Grp) (ks : List Nat) : (d.mapGrps f ks).regs = d.regs := by
  rw [mapGrps_eq]

theorem mapGrps_gcOwner (d : Dev) (f : Grp → Grp) (ks : List Nat) : (d.mapGrps f ks).gcOwner = d.gcOwner :=
  congrArg (BitVec.ofNat 16) (Dev.fld_of_regs _ (mapGrps_regs d f ks))

theorem Dev.Makes.gcHeld {d e : Dev} {l ids : List Nat} {rs : List Record} (h : d.Makes e l ids rs) (f : Grp → Grp) (ks : List Nat)
    (x : Option GlobalCommit) : d.Makes (e.gcHeld f ks x) l ids rs := h.frame rfl rfl rfl rfl

theorem Dev.keepsUnits.setGc {d e : Dev} (h : d.keepsUnits e) (x : Option GlobalCommit) (gs : Tab Grp) :
    { d with gc := x, groups := gs }.keepsUnits { e with gc := x, groups := gs } :=
  ⟨congrArg (fun y : Dev => { y with gc := x, groups := gs }) h.1, h.2⟩

/-! ### GC_CTRL (R45, R46, R65) -/

/-- A group made GLOBAL at `t` (R45). -/
def Grp.toGlobal (t : Time) (g : Grp) : Grp := { g with st := .global, goT := t }

/-- A group returned to CLAIMED (R46). -/
def Grp.toClaimed (g : Grp) : Grp := { g with st := .claimed }

theorem gcCtrl_clear (d : Dev) {n : Nat} (h29 : bitOf n 29 = true) : d.gcCtrl n = d.gcClearList.gcShow 0 0 := if_pos h29

theorem gcCtrl_cancel {d : Dev} {n : Nat} {g : GlobalCommit} (h29 : bitOf n 29 = false) (h30 : bitOf n 30 = true)
    (hg : d.gc = some g) : d.gcCtrl n = (d.gcHeld Grp.toClaimed g.groups none).gcShow 1 d.gcOwner := by
  have hshape : d.gcCtrl n = ({ d.mapGrps Grp.toClaimed g.groups with gc := none } : Dev).gcShow 1 (d.mapGrps Grp.toClaimed g.groups).gcOwner := by
    rw [Dev.gcCtrl, if_neg (ne_true_of_eq_false h29), if_pos h30, hg]
    rfl
  rw [hshape, gcHeld_of_mapGrps, mapGrps_gcOwner]

/-- The groups made GLOBAL in turn, as GO writes them. -/
theorem each_global (d : Dev) (ks : List Nat) :
    (d.each ks fun d k => d.setGrp k { d.grp k with st := .global, goT := d.now }) = d.mapGrps (Grp.toGlobal d.now) ks := by
  induction ks generalizing d with
  | nil => rfl
  | cons k ks ih => exact ih (d.setGrp k ((d.grp k).toGlobal d.now))

/-- What GO with MODE ASAP sets pending (R45). -/
def Dev.gcAsap (d : Dev) : GlobalCommit :=
  { groups := sortBy id d.gcEntries, target := d.soon, applyAt := d.soon, late := false }

theorem gcCtrl_asap {d : Dev} {n : Nat} (h29 : bitOf n 29 = false) (h30 : bitOf n 30 = false) (h31 : bitOf n 31 = true)
    (h0 : bitOf n 0 = true) : d.gcCtrl n =
      (d.gcHeld (Grp.toGlobal d.now) (sortBy id d.gcEntries) (some d.gcAsap)).gcShow 2 d.gcOwner := by
  have hsoon : (d.mapGrps (Grp.toGlobal d.now) (sortBy id d.gcEntries)).soon = d.soon := by
    rw [mapGrps_eq]
    rfl
  have hshape : d.gcCtrl n =
      ({ d.mapGrps (Grp.toGlobal d.now) (sortBy id d.gcEntries) with gc := some d.gcAsap } : Dev).gcShow 2
        (d.mapGrps (Grp.toGlobal d.now) (sortBy id d.gcEntries)).gcOwner := by
    simp only [Dev.gcCtrl, h29, h30, h31, h0, Bool.false_eq_true, if_false, if_true, each_global, Bool.not_true, Bool.false_and,
      true_or, hsoon]
    rfl
  rw [hshape, gcHeld_of_mapGrps, mapGrps_gcOwner]

/-- Of GO, CANCEL and CLEAR a write that is taken asks for one alone (R65). -/
theorem one_of_gcCtrl {d : Dev} {agent : AgentId} {n : Nat} (h : d.gcCtrlRefusal agent n = none) :
    n / 2 ^ 29 = 0 ∨ popCount 3 (n / 2 ^ 29) ≤ 1 := by
  by_cases hzero : n / 2 ^ 29 = 0
  · exact .inl hzero
  · refine .inr (Nat.le_of_not_lt fun hmany => ?_)
    rw [Dev.gcCtrlRefusal, if_neg hzero] at h
    by_cases hbusy : d.gcBusy agent = true
    · rw [if_pos hbusy] at h
      exact absurd h (by simp)
    · rw [if_neg hbusy, if_pos hmany] at h
      exact absurd h (by simp)

theorem bitOf_eq_true {n i : Nat} : bitOf n i = true ↔ n / 2 ^ i % 2 = 1 := beq_iff_eq

theorem bitOf_eq_false {n i : Nat} : bitOf n i = false ↔ n / 2 ^ i % 2 = 0 := by
  rw [bitOf, beq_eq_false_iff_ne]
  omega

/-- The other bits of a write that asks for GO, CANCEL or CLEAR are clear. -/
theorem others_clear {d : Dev} {agent : AgentId} {n i j : Nat} (h : d.gcCtrlRefusal agent n = none) (hi : i = 29 ∨ i = 30 ∨ i = 31)
    (hj : j = 29 ∨ j = 30 ∨ j = 31) (hij : j ≠ i) (hask : bitOf n i = true) : bitOf n j = false := by
  have hone := one_of_gcCtrl h
  rw [bitOf_eq_true] at hask
  rw [bitOf_eq_false]
  simp only [popCount] at hone
  rcases hi with rfl | rfl | rfl <;> rcases hj with rfl | rfl | rfl <;> omega

/-- The table entry of GC_CTRL. -/
def gcCtrlHit : RegHit := ⟨sysRegs[3], 0, 0, false⟩

theorem regHit_gcCtrl : regHit SYS.GC_CTRL = some gcCtrlHit := rfl

theorem gcCtrlRefusal_of_takes {d : Dev} {agent : AgentId} {v : Word} (ht : d.takes agent SYS.GC_CTRL v = true) :
    d.gcCtrlRefusal agent v.toNat = none := by
  have hlist := sysRefusals_of_allowed (d := d) (by decide) (by decide) (Dev.takesAt_of_takes regHit_gcCtrl ht).allowed
  rw [Dev.sysRefusals, if_pos rfl] at hlist
  cases hcause : d.gcCtrlRefusal agent v.toNat with
  | none => rfl
  | some c =>
    rw [hcause] at hlist
    exact absurd hlist (by simp)

/-- The write of GC_CTRL answered and recorded. -/
def Dev.gcLogged (d : Dev) (agent : AgentId) (v : Word) : Dev :=
  d.begun.stored agent SYS.GC_CTRL (d.begun.wordAfter gcCtrlHit SYS.GC_CTRL v) v 0

theorem Dev.Makes.gcLogged (d : Dev) (agent : AgentId) (v : Word) {l : List Nat} (hl : SYS.GC_CTRL ∈ l) :
    d.Makes (d.gcLogged agent v) l [] [wordRecord d.nowNs .live 0 agent SYS.GC_CTRL v 0] :=
  Dev.Makes.stored d agent hl _ v 0

theorem gcLogged_reg (d : Dev) (agent : AgentId) (v : Word) {a : Nat} (ha : a ≠ SYS.GC_CTRL) : (d.gcLogged agent v).reg a = d.reg a :=
  Dev.stored_reg_ne d.begun agent ha _ v 0

theorem sysEffect_gcCtrl (d : Dev) (agent : AgentId) (v : Word) : d.sysEffect agent SYS.GC_CTRL v = d.gcCtrl v.toNat := by
  rw [Dev.sysEffect, if_neg (by decide), if_pos rfl]

/-- A write of GC_CTRL that is taken is recorded and acts. -/
theorem regWrite_gcCtrl {d e : Dev} {agent : AgentId} {v : Word} {l ids : List Nat} {rs : List Record}
    (ht : d.takes agent SYS.GC_CTRL v = true) (he : (d.gcLogged agent v).gcCtrl v.toNat = e) (hm : d.Makes e l ids rs)
    (hrs : rs.length ≤ 64) : d.begun.regWrite agent SYS.GC_CTRL v = e := by
  refine Dev.regWrite_sys (by decide) (Dev.takesAt_of_takes regHit_gcCtrl ht) ?_ hm hrs
  rw [Dev.takeWord_sys_command _ _ (by decide) (by decide) (by decide), sysEffect_gcCtrl, ← he, Dev.gcLogged]

theorem gcEntries_of_reg {d e : Dev} (h : ∀ n, e.reg (SYS.GC_LIST n) = d.reg (SYS.GC_LIST n)) : e.gcEntries = d.gcEntries := by
  have hvalid (n : Nat) : e.flag (SYS.GC_LIST_VALID n) = d.flag (SYS.GC_LIST_VALID n) := by
    simp only [Dev.flag, Dev.fld_of_reg (g := SYS.GC_LIST_VALID n) (h n)]
  have hblock (n : Nat) : e.fld (SYS.GC_LIST_BLOCK n) = d.fld (SYS.GC_LIST_BLOCK n) := Dev.fld_of_reg (h n)
  have hgroup (n : Nat) : e.fld (SYS.GC_LIST_GROUP n) = d.fld (SYS.GC_LIST_GROUP n) := Dev.fld_of_reg (h n)
  simp only [Dev.gcEntries, hvalid, hblock, hgroup]

theorem gcLogged_gcOwner (d : Dev) (agent : AgentId) (v : Word) : (d.gcLogged agent v).gcOwner = d.gcOwner :=
  congrArg (BitVec.ofNat 16) (Dev.fld_of_reg (gcLogged_reg d agent v (by decide)))

theorem gcLogged_gcEntries (d : Dev) (agent : AgentId) (v : Word) : (d.gcLogged agent v).gcEntries = d.gcEntries :=
  gcEntries_of_reg fun n => gcLogged_reg d agent v (gcList_ne_ctrl n)

theorem gcShow_answer (d : Dev) (n : Nat) (o : AgentId) : (d.gcShow n o).answer = d.answer := by
  rw [Dev.gcShow, Dev.setFld_answer, Dev.setFld_answer]

theorem gcShow_gc (d : Dev) (n : Nat) (o : AgentId) : (d.gcShow n o).gc = d.gc := by
  rw [Dev.gcShow, Dev.setFld_gc, Dev.setFld_gc]

theorem gcShow_groups (d : Dev) (n : Nat) (o : AgentId) : (d.gcShow n o).groups = d.groups := by
  rw [Dev.gcShow, Dev.setFld_groups, Dev.setFld_groups]

/-- What a command leaves of the facility that changed the groups of `ks` and what is pending. -/
theorem settle_gcHeld (d : Dev) (agent : AgentId) (v : Word) {f : Grp → Grp} (hf : ∀ g, f (f g) = f g) (ks : List Nat)
    (x : Option GlobalCommit) {n : Nat} (hn : n < 8) :
    let e := settle (((d.gcLogged agent v).gcHeld f ks x).gcShow n (d.gcLogged agent v).gcOwner)
    e.answer = .ok ∧ e.gc = x ∧ e.gcState = n ∧ e.gcOwner = d.gcOwner ∧ (∀ k ∈ ks, e.grp k = f (d.grp k)) ∧
    d.keepsRegs e [SYS.GC_STATUS, SYS.GC_CTRL] ∧ { d with gc := e.gc, groups := e.groups }.keepsUnits e := by
  intro e
  have hm := ((Dev.Makes.gcLogged d agent v (l := [SYS.GC_STATUS, SYS.GC_CTRL]) (by decide)).gcHeld f ks x).gcShow (by decide) n
    (d.gcLogged agent v).gcOwner
  have hgc : e.gc = x := (settle_gc _).trans (gcShow_gc _ _ _)
  have hgroups : e.groups = ((d.gcLogged agent v).mapGrps f ks).groups := (settle_groups _).trans (gcShow_groups _ _ _)
  refine ⟨(settle_answer _).trans (gcShow_answer _ _ _), hgc, (settle_gcState _).trans (gcShow_state _ hn _), ?_,
    fun k hk => ?_, hm.settle_keepsRegs, ?_⟩
  · rw [settle_gcOwner, gcShow_owner, gcLogged_gcOwner]
  · have hgrp : e.grp k = ((d.gcLogged agent v).mapGrps f ks).grp k := by
      simp only [Dev.grp, hgroups]
    exact hgrp.trans (mapGrps_grp _ hf hk)
  · rw [hgc, hgroups]
    exact hm.settle_keepsUnits (by decide) rfl (((Dev.keepsUnits.stored d agent SYS.GC_CTRL _ v 0).setGc x _).gcShow n _)

/-! ### GO (R45) -/

theorem mem_insertBy {key : Nat → Nat} {p q : Nat} {l : List Nat} : q ∈ insertBy key p l ↔ q = p ∨ q ∈ l := by
  induction l with
  | nil => rw [insertBy]; simp
  | cons x l ih =>
    rw [insertBy]
    split
    · exact List.mem_cons
    · rw [List.mem_cons, ih, List.mem_cons]
      exact or_left_comm

theorem mem_sortBy {key : Nat → Nat} {q : Nat} {l : List Nat} : q ∈ sortBy key l ↔ q ∈ l := by
  have hfold (acc : List Nat) : q ∈ l.foldl (fun acc p => insertBy key p acc) acc ↔ q ∈ acc ∨ q ∈ l := by
    induction l generalizing acc with
    | nil => simp
    | cons x l ih =>
      rw [List.foldl_cons, ih, mem_insertBy, List.mem_cons]
      exact or_assoc.trans or_left_comm
  exact (hfold []).trans (by simp)

theorem toGlobal_twice (t : Time) (g : Grp) : (g.toGlobal t).toGlobal t = g.toGlobal t := rfl

theorem toClaimed_twice (g : Grp) : g.toClaimed.toClaimed = g.toClaimed := rfl

/-- A GO with MODE ASAP that is taken. -/
theorem regWrite_gcGo {d : Dev} {agent : AgentId} {v : Word} (ht : d.takes agent SYS.GC_CTRL v = true) (hgo : wordBit v 31 = true)
    (hasap : wordBit v 0 = true) : d.begun.regWrite agent SYS.GC_CTRL v =
      ((d.gcLogged agent v).gcHeld (Grp.toGlobal d.now) (sortBy id d.gcEntries) (some d.gcAsap)).gcShow 2 (d.gcLogged agent v).gcOwner := by
  have hnone := gcCtrlRefusal_of_takes ht
  have hm := ((Dev.Makes.gcLogged d agent v (l := [SYS.GC_STATUS, SYS.GC_CTRL]) (by decide)).gcHeld (Grp.toGlobal d.now)
    (sortBy id d.gcEntries) (some d.gcAsap)).gcShow (by decide) 2 (d.gcLogged agent v).gcOwner
  refine regWrite_gcCtrl ht ?_ hm (by simp)
  have h29 : bitOf v.toNat 29 = false := others_clear hnone (i := 31) (by simp) (by simp) (by decide) hgo
  have h30 : bitOf v.toNat 30 = false := others_clear hnone (i := 31) (by simp) (by simp) (by decide) hgo
  rw [gcCtrl_asap h29 h30 hgo hasap, Dev.gcAsap, gcLogged_gcEntries]
  rfl

/-- A CANCEL that is taken. -/
theorem regWrite_gcCancel {d : Dev} {agent : AgentId} {v : Word} {g : GlobalCommit} (ht : d.takes agent SYS.GC_CTRL v = true)
    (hask : wordBit v 30 = true) (hg : d.gc = some g) : d.begun.regWrite agent SYS.GC_CTRL v =
      ((d.gcLogged agent v).gcHeld Grp.toClaimed g.groups none).gcShow 1 (d.gcLogged agent v).gcOwner := by
  have hm := ((Dev.Makes.gcLogged d agent v (l := [SYS.GC_STATUS, SYS.GC_CTRL]) (by decide)).gcHeld Grp.toClaimed g.groups
    none).gcShow (by decide) 1 (d.gcLogged agent v).gcOwner
  refine regWrite_gcCtrl ht ?_ hm (by simp)
  exact gcCtrl_cancel (d := d.gcLogged agent v) (others_clear (gcCtrlRefusal_of_takes ht) (i := 30) (by simp) (by simp) (by decide) hask) hask hg

/-! ### CLEAR (R65) -/

/-- The list entries of `ns` made invalid in turn. -/
def Dev.clearEntries (d : Dev) (ns : List Nat) : Dev := d.each ns fun d n => d.setFld (SYS.GC_LIST_VALID n) 0

theorem gcClearList_eq (d : Dev) : d.gcClearList = d.clearEntries (List.range 64) := rfl

theorem clearEntries_cons (d : Dev) (n : Nat) (ns : List Nat) :
    d.clearEntries (n :: ns) = (d.setFld (SYS.GC_LIST_VALID n) 0).clearEntries ns := by
  rw [Dev.clearEntries, Dev.clearEntries, Dev.each, Dev.each, List.foldl_cons]

theorem clearEntries_reg (d : Dev) {ns : List Nat} {a : Nat} (ha : a ∉ ns.map SYS.GC_LIST) : (d.clearEntries ns).reg a = d.reg a := by
  induction ns generalizing d with
  | nil => rfl
  | cons n ns ih =>
    simp only [List.map_cons, List.mem_cons, not_or] at ha
    rw [clearEntries_cons, ih (d.setFld (SYS.GC_LIST_VALID n) 0) ha.2, Dev.reg_setFld_ne d ha.1 0]

/-- An entry stays invalid. -/
theorem clearEntries_kept {d : Dev} (ns : List Nat) {m : Nat} (h : d.flag (SYS.GC_LIST_VALID m) = false) :
    (d.clearEntries ns).flag (SYS.GC_LIST_VALID m) = false := by
  induction ns generalizing d with
  | nil => exact h
  | cons n ns ih =>
    rw [clearEntries_cons]
    refine ih (d := d.setFld (SYS.GC_LIST_VALID n) 0) ?_
    by_cases hnm : m = n
    · subst hnm
      exact Dev.flag_setFld_b2n d (SYS.GC_LIST_VALID m) false (Nat.le_refl 31) (by simp [SYS.GC_LIST_VALID])
    · exact (Dev.flag_setFld_ne d (SYS.GC_LIST_VALID n) _ 0 (Nat.le_refl 31) (by simp [SYS.GC_LIST_VALID])
        (.inl (by simp only [SYS.GC_LIST_VALID, SYS.GC_LIST]; omega))).trans h

theorem clearEntries_flag (d : Dev) {ns : List Nat} {m : Nat} (hm : m ∈ ns) :
    (d.clearEntries ns).flag (SYS.GC_LIST_VALID m) = false := by
  induction ns generalizing d with
  | nil => exact absurd hm (by simp)
  | cons n ns ih =>
    rw [clearEntries_cons]
    rcases List.mem_cons.mp hm with rfl | hm
    · exact clearEntries_kept ns (Dev.flag_setFld_b2n d (SYS.GC_LIST_VALID m) false (Nat.le_refl 31) (by simp [SYS.GC_LIST_VALID]))
    · exact ih _ hm

theorem gcEntries_of_clear {d : Dev} (h : ∀ n, n < 64 → d.flag (SYS.GC_LIST_VALID n) = false) : d.gcEntries = [] := by
  have hnone : (List.range 64).filter (fun n => d.flag (SYS.GC_LIST_VALID n)) = [] :=
    List.filter_eq_nil_iff.mpr fun n hn => ne_true_of_eq_false (h n (List.mem_range.mp hn))
  rw [Dev.gcEntries, hnone]
  rfl

/-- A cleared list names no group. -/
theorem gcClearList_gcEntries (d : Dev) : d.gcClearList.gcEntries = [] :=
  gcEntries_of_clear fun _ hn => clearEntries_flag d (List.mem_range.mpr hn)

theorem gcClearList_reg (d : Dev) {a : Nat} (ha : a ∉ (List.range 64).map SYS.GC_LIST) : d.gcClearList.reg a = d.reg a :=
  clearEntries_reg d ha

theorem setFld_withRegs (d : Dev) (f : Fld) (n : Nat) (r : Tab Word) :
    ({ d.setFld f n with regs := r } : Dev) = { d with regs := r } := rfl

theorem clearEntries_eq (d : Dev) (ns : List Nat) : d.clearEntries ns = { d with regs := (d.clearEntries ns).regs } := by
  induction ns generalizing d with
  | nil => rfl
  | cons n ns ih =>
    rw [clearEntries_cons]
    exact (ih (d.setFld (SYS.GC_LIST_VALID n) 0)).trans (setFld_withRegs _ _ _ _)

theorem Dev.Makes.gcClearList {d e : Dev} {l ids : List Nat} {rs : List Record} (h : d.Makes e l ids rs)
    (hl : ∀ n < 64, SYS.GC_LIST n ∈ l) : d.Makes e.gcClearList l ids rs := by
  have hfold (ns : List Nat) (hns : ∀ n ∈ ns, n < 64) : d.Makes (e.clearEntries ns) l ids rs := by
    induction ns generalizing e with
    | nil => exact h
    | cons n ns ih =>
      rw [clearEntries_cons]
      have hmem : (SYS.GC_LIST_VALID n).addr ∈ l := hl n (hns n List.mem_cons_self)
      exact ih (e := e.setFld (SYS.GC_LIST_VALID n) 0) (h.setFld hmem 0) fun m hm => hns m (List.mem_cons_of_mem n hm)
  rw [gcClearList_eq]
  exact hfold _ fun n hn => List.mem_range.mp hn

theorem Dev.keepsUnits.gcClearList {d e : Dev} (h : d.keepsUnits e) : d.keepsUnits e.gcClearList := by
  have hfold (ns : List Nat) : d.keepsUnits (e.clearEntries ns) := by
    induction ns generalizing e with
    | nil => exact h
    | cons n ns ih =>
      rw [clearEntries_cons]
      exact ih (h.setFld (SYS.GC_LIST_VALID n) 0)
  rw [gcClearList_eq]
  exact hfold _

theorem gcClearList_answer (d : Dev) : d.gcClearList.answer = d.answer := by
  rw [gcClearList_eq, clearEntries_eq]

theorem gcShow_gcEntries (d : Dev) (n : Nat) (o : AgentId) : (d.gcShow n o).gcEntries = d.gcEntries :=
  gcEntries_of_reg fun m => gcShow_reg d n o (gcList_ne_status m).symm

theorem settle_gcEntries (d : Dev) : (settle d).gcEntries = d.gcEntries := by
  have hvalid (n : Nat) (hn : n < 64) : (settle d).reg (SYS.GC_LIST n) = d.reg (SYS.GC_LIST n) := by
    have hblock := gcList_block ⟨n, hn⟩
    exact settle_reg _ _ (by simp only at hblock; omega) (by simp only at hblock; omega)
  have hfilter : (List.range 64).filter (fun n => (settle d).flag (SYS.GC_LIST_VALID n)) =
      (List.range 64).filter (fun n => d.flag (SYS.GC_LIST_VALID n)) := by
    refine List.filter_congr fun n hn => ?_
    simp only [Dev.flag, Dev.fld_of_reg (g := SYS.GC_LIST_VALID n) (hvalid n (List.mem_range.mp hn))]
  rw [Dev.gcEntries, Dev.gcEntries, hfilter]
  refine List.map_congr_left fun n hn => ?_
  have hreg := hvalid n (List.mem_range.mp (List.mem_filter.mp hn).1)
  rw [Dev.fld_of_reg (g := SYS.GC_LIST_BLOCK n) hreg, Dev.fld_of_reg (g := SYS.GC_LIST_GROUP n) hreg]

/-- The keys that a CLEAR writes. -/
def clearKeys : List Nat := SYS.GC_STATUS :: SYS.GC_CTRL :: (List.range 64).map SYS.GC_LIST

theorem gcList_mem_clearKeys {n : Nat} (hn : n < 64) : SYS.GC_LIST n ∈ clearKeys :=
  List.mem_cons_of_mem _ (List.mem_cons_of_mem _ (List.mem_map_of_mem (List.mem_range.mpr hn)))

theorem regWrite_gcClear {d : Dev} {agent : AgentId} {v : Word} (ht : d.takes agent SYS.GC_CTRL v = true) (hask : wordBit v 29 = true) :
    d.begun.regWrite agent SYS.GC_CTRL v = (d.gcLogged agent v).gcClearList.gcShow 0 0 := by
  have hm := ((Dev.Makes.gcLogged d agent v (l := clearKeys) (by decide)).gcClearList fun n hn => gcList_mem_clearKeys hn).gcShow
    (by decide) 0 0
  exact regWrite_gcCtrl ht (gcCtrl_clear _ hask) hm (by simp)

/-- A CLEAR taken, at the end of its command. -/
theorem settle_gcClear (d : Dev) (agent : AgentId) (v : Word) :
    let e := settle ((d.gcLogged agent v).gcClearList.gcShow 0 0)
    e.answer = .ok ∧ e.gcState = 0 ∧ e.gcOwner = 0 ∧ e.gcEntries = [] ∧ d.keepsRegs e clearKeys ∧ d.keepsUnits e := by
  have hm := ((Dev.Makes.gcLogged d agent v (l := clearKeys) (by decide)).gcClearList fun n hn => gcList_mem_clearKeys hn).gcShow
    (by decide) 0 0
  refine ⟨?_, (settle_gcState _).trans (gcShow_state _ (by decide) _), (settle_gcOwner _).trans (gcShow_owner _ _ _), ?_,
    hm.settle_keepsRegs, hm.settle_keepsUnits (by decide) rfl ((Dev.keepsUnits.stored d agent SYS.GC_CTRL _ v 0).gcClearList.gcShow 0 0)⟩
  · rw [settle_answer, gcShow_answer, gcClearList_answer]
    rfl
  · rw [settle_gcEntries, gcShow_gcEntries, gcClearList_gcEntries]

/-! ### The global commit applied (R46) -/

/-- The result of a global commit: the records it made and its sequence. -/
def Dev.resultShown (d : Dev) (cs : Half) (n : Nat) : Dev := (d.setFld SYS.GC_RESULT_RECORDS n).setFld SYS.GC_RESULT_SEQ cs.toNat

/-- The time of a global commit that was not late. -/
def Dev.appliedShown (d : Dev) (t : Time) : Dev := (d.setReg64 SYS.GC_APPLIED t).setFld SYS.GC_STATUS_LATE 0

/-- The facility idle again. -/
def Dev.gcClosed (d : Dev) : Dev := ({ d with gc := none } : Dev).gcShow 0 0

/-- What a global commit at `t` of sequence `cs` with `n` records shows of itself. -/
def Dev.gcShown (d : Dev) (cs : Half) (n : Nat) (t : Time) : Dev := ((d.resultShown cs n).appliedShown t).gcClearList.gcClosed

theorem gcApply_of_none {d : Dev} {g : GlobalCommit} (hg : g.groups = []) (t : Time) : d.gcApply g t false = d.gcShown 0 0 t := by
  have hquiet (e : Dev) : e.when (decide (d.gcOwner = 0) && !e.regulated && !g.groups.isEmpty) (fun d => d.firstRegulation t) = e :=
    Dev.when_of_false _ (by rw [hg]; simp) _
  rw [Dev.gcApply]
  simp only [hg, List.isEmpty_nil, if_true, Dev.when_false] at hquiet ⊢
  exact hquiet _

/-- After first regulation a global commit of one group is its commit, shown (R46). -/
theorem gcApply_of_one {d : Dev} {g : GlobalCommit} {k : Nat} (hk : plainGroup k) (hw : d.stagedInGroup k) (hg : g.groups = [k]) (t : Time)
    (hreg : ((d.applied k t false).gcShown d.nextSeq.1 (d.grpRecs k).length t).regulated = true) :
    d.gcApply g t false = (d.applied k t false).gcShown d.nextSeq.1 (d.grpRecs k).length t := by
  have hquiet : ∀ e : Dev, e.regulated = true →
      e.when (decide (d.gcOwner = 0) && !e.regulated && !g.groups.isEmpty) (fun d => d.firstRegulation t) = e := fun e he =>
    Dev.when_of_false _ (by rw [he]; simp) _
  rw [Dev.gcApply]
  simp only [hg, List.isEmpty_cons, Bool.false_eq_true, if_false, Dev.when_false, applyGroups_one hk hw] at hquiet ⊢
  exact hquiet _ hreg

theorem exec_globalCommitApply {s : State} {g : GlobalCommit} {e : Dev} (hg : s.dev.gc = some g) (hdue : s.dev.due g.applyAt = true)
    (hwait : s.dev.led.waiting = []) (hfull : s.dev.lgFull (g.groups.flatMap s.dev.grpRecs).length = false)
    (he : s.dev.begun.gcApply g g.applyAt g.late = e) (hdet : e.sliceDet = s.dev.sliceDet) :
    exec .globalCommitApply s = .next { s with dev := settle e } := by
  have hstop : Dev.applyStopped s.dev.begun e supGroup = e := by
    refine applyStopped_of_same ?_
    rw [unitRuns_sup, unitRuns_sup, hdet]
    rfl
  have hstay : ¬ (¬ s.dev.due g.applyAt = true ∨ (s.dev.led.waiting.any fun w => decide (w.kind = .globalApply)) = true) := by
    rw [hdue, hwait]
    simp
  have hbody : (match s.dev.begun.gc with
      | none => s.dev.begun
      | some g =>
        if ¬ s.dev.begun.due g.applyAt ∨ (s.dev.begun.led.waiting.any fun w => w.kind = .globalApply) then s.dev.begun
        else if s.dev.begun.lgFull (g.groups.flatMap s.dev.begun.grpRecs).length then
          s.dev.begun.stall { agent := s.dev.begun.gcOwner, kind := .globalApply, since := s.dev.begun.now }
        else Dev.applyStopped s.dev.begun (s.dev.begun.gcApply g g.applyAt g.late) supGroup) = e := by
    rw [show s.dev.begun.gc = some g from hg]
    exact (if_neg hstay).trans ((if_neg (ne_true_of_eq_false hfull)).trans ((congrArg (Dev.applyStopped s.dev.begun · supGroup) he).trans hstop))
  rw [← hbody]
  rfl

/-! ### What a global commit shows (R46, R65) -/

theorem gcClosed_reg (d : Dev) {a : Nat} (hs : a ≠ SYS.GC_STATUS) : d.gcClosed.reg a = d.reg a :=
  gcShow_reg { d with gc := none } 0 0 hs

theorem gcClosed_gc (d : Dev) : d.gcClosed.gc = none := rfl

theorem gcClosed_groups (d : Dev) : d.gcClosed.groups = d.groups := gcShow_groups { d with gc := none } 0 0

theorem gcClosed_sliceDet (d : Dev) : d.gcClosed.sliceDet = d.sliceDet := by
  rw [Dev.gcClosed, Dev.gcShow, Dev.setFld_sliceDet, Dev.setFld_sliceDet]

theorem gcClosed_state (d : Dev) : d.gcClosed.gcState = 0 := gcShow_state _ (by decide) _

theorem gcClosed_gcEntries (d : Dev) : d.gcClosed.gcEntries = d.gcEntries := gcShow_gcEntries { d with gc := none } 0 0

theorem gcClosed_late (d : Dev) : d.gcClosed.flag SYS.GC_STATUS_LATE = d.flag SYS.GC_STATUS_LATE := gcShow_late { d with gc := none } 0 0

theorem Dev.Makes.gcClosed {d e : Dev} {l ids : List Nat} {rs : List Record} (h : d.Makes e l ids rs) (hs : SYS.GC_STATUS ∈ l) :
    d.Makes e.gcClosed l ids rs :=
  Dev.Makes.gcShow (e := { e with gc := none }) (h.frame rfl rfl rfl rfl) hs 0 0

theorem Dev.keepsUnits.gcClosed {d e : Dev} (h : d.keepsUnits e) : { d with gc := none }.keepsUnits e.gcClosed := by
  have hnone : { d with gc := none }.keepsUnits { e with gc := none } := ⟨congrArg (fun y : Dev => { y with gc := none }) h.1, h.2⟩
  exact hnone.gcShow 0 0

theorem gcClearList_groups (d : Dev) : d.gcClearList.groups = d.groups := by
  rw [gcClearList_eq, clearEntries_eq]

theorem gcClearList_sliceDet (d : Dev) : d.gcClearList.sliceDet = d.sliceDet := by
  rw [gcClearList_eq, clearEntries_eq]

/-- The words that a global commit shows apart from its list. -/
def shownKeys : List Nat := SYS.GC_RESULT :: SYS.GC_APPLIED :: (SYS.GC_APPLIED + 4) :: clearKeys

theorem appliedShown_reg (d : Dev) (t : Time) {a : Nat} (hs : a ≠ SYS.GC_STATUS) (h0 : a ≠ SYS.GC_APPLIED) (h4 : a ≠ SYS.GC_APPLIED + 4) :
    (d.appliedShown t).reg a = d.reg a := by
  rw [Dev.appliedShown, Dev.reg_setFld_ne _ hs, Dev.setReg64, Dev.reg_setReg_ne _ h4, Dev.reg_setReg_ne _ h0]

theorem gcShown_reg (d : Dev) (cs : Half) (n : Nat) (t : Time) {a : Nat} (ha : a ∉ shownKeys) : (d.gcShown cs n t).reg a = d.reg a := by
  simp only [shownKeys, clearKeys, List.mem_cons, not_or] at ha
  obtain ⟨hresult, h0, h4, hs, -, hl⟩ := ha
  rw [Dev.gcShown, gcClosed_reg _ hs, gcClearList_reg _ hl, appliedShown_reg _ _ hs h0 h4, Dev.resultShown, Dev.reg_setFld_ne _ hresult,
    Dev.reg_setFld_ne _ hresult]

theorem gcShown_gcEntries (d : Dev) (cs : Half) (n : Nat) (t : Time) : (d.gcShown cs n t).gcEntries = [] := by
  rw [Dev.gcShown, gcClosed_gcEntries, gcClearList_gcEntries]

theorem gcShown_late (d : Dev) (cs : Half) (n : Nat) (t : Time) : (d.gcShown cs n t).flag SYS.GC_STATUS_LATE = false := by
  have hlist : ((d.resultShown cs n).appliedShown t).gcClearList.flag SYS.GC_STATUS_LATE =
      ((d.resultShown cs n).appliedShown t).flag SYS.GC_STATUS_LATE :=
    congrArg (· != 0) (Dev.fld_of_reg (g := SYS.GC_STATUS_LATE) (gcClearList_reg _ (by decide)))
  rw [Dev.gcShown, gcClosed_late, hlist]
  exact Dev.flag_setFld_b2n _ SYS.GC_STATUS_LATE false (by decide) (by decide)

theorem gcShown_applied (d : Dev) (cs : Half) (n : Nat) (t : Time) : (d.gcShown cs n t).reg64 SYS.GC_APPLIED = t := by
  have hkept (a : Nat) (hs : a ≠ SYS.GC_STATUS) (hl : a ∉ (List.range 64).map SYS.GC_LIST) :
      (d.gcShown cs n t).reg a = ((d.resultShown cs n).setReg64 SYS.GC_APPLIED t).reg a := by
    rw [Dev.gcShown, gcClosed_reg _ hs, gcClearList_reg _ hl, Dev.appliedShown, Dev.reg_setFld_ne _ hs]
  rw [Dev.reg64, hkept _ (by decide) (by decide), hkept _ (by decide) (by decide)]
  exact setReg64_reg64 _ _ _

theorem gcShown_result (d : Dev) (cs : Half) (n : Nat) (t : Time) {f : Fld} (hf : f.addr = SYS.GC_RESULT) :
    (d.gcShown cs n t).fld f = (d.resultShown cs n).fld f := by
  refine Dev.fld_of_reg ?_
  rw [Dev.gcShown, hf, gcClosed_reg _ (by decide), gcClearList_reg _ (by decide), appliedShown_reg _ _ (by decide) (by decide) (by decide)]

theorem gcShown_seq (d : Dev) (cs : Half) (n : Nat) (t : Time) : (d.gcShown cs n t).fld SYS.GC_RESULT_SEQ = cs.toNat :=
  (gcShown_result d cs n t rfl).trans (Dev.fld_setFld_of_lt _ SYS.GC_RESULT_SEQ _ (by decide) (by decide) cs.isLt)

theorem gcShown_records (d : Dev) (cs : Half) (n : Nat) (t : Time) :
    (d.gcShown cs n t).fld SYS.GC_RESULT_RECORDS = n % 0x10000 :=
  (gcShown_result d cs n t rfl).trans ((Dev.fld_setFld_ne _ SYS.GC_RESULT_SEQ SYS.GC_RESULT_RECORDS _ (by decide) (by decide) (by decide)).trans
    (Dev.fld_setFld_self d SYS.GC_RESULT_RECORDS n (by decide) (by decide)))

/-- The two fields of GC_RESULT are its whole word. -/
theorem gcResult_num (d : Dev) : d.num SYS.GC_RESULT = d.fld SYS.GC_RESULT_RECORDS * 0x10000 + d.fld SYS.GC_RESULT_SEQ := by
  have hlt : d.num SYS.GC_RESULT < 2 ^ 32 := (d.reg SYS.GC_RESULT).isLt
  have hrecords : d.fld SYS.GC_RESULT_RECORDS = d.num SYS.GC_RESULT / 2 ^ 16 % 2 ^ 16 := rfl
  have hseq : d.fld SYS.GC_RESULT_SEQ = d.num SYS.GC_RESULT / 2 ^ 0 % 2 ^ 16 := rfl
  omega

theorem gcShown_groups (d : Dev) (cs : Half) (n : Nat) (t : Time) : (d.gcShown cs n t).groups = d.groups := by
  rw [Dev.gcShown, gcClosed_groups, gcClearList_groups, Dev.appliedShown, Dev.setFld_groups, Dev.setReg64, Dev.setReg_groups, Dev.setReg_groups,
    Dev.resultShown, Dev.setFld_groups, Dev.setFld_groups]

theorem gcShown_sliceDet (d : Dev) (cs : Half) (n : Nat) (t : Time) : (d.gcShown cs n t).sliceDet = d.sliceDet := by
  rw [Dev.gcShown, gcClosed_sliceDet, gcClearList_sliceDet, Dev.appliedShown, Dev.setFld_sliceDet, Dev.setReg64, Dev.setReg_sliceDet,
    Dev.setReg_sliceDet, Dev.resultShown, Dev.setFld_sliceDet, Dev.setFld_sliceDet]

theorem Dev.Makes.gcShown {d e : Dev} {ids : List Nat} {rs : List Record} (h : d.Makes e shownKeys ids rs) (cs : Half) (n : Nat) (t : Time) :
    d.Makes (e.gcShown cs n t) shownKeys ids rs := by
  have hresult : d.Makes (e.resultShown cs n) shownKeys ids rs :=
    (h.setFld (f := SYS.GC_RESULT_RECORDS) (by decide) n).setFld (f := SYS.GC_RESULT_SEQ) (by decide) cs.toNat
  have happlied : d.Makes ((e.resultShown cs n).appliedShown t) shownKeys ids rs :=
    ((hresult.setReg (a := SYS.GC_APPLIED) (by decide) _).setReg (a := SYS.GC_APPLIED + 4) (by decide) _).setFld
      (f := SYS.GC_STATUS_LATE) (by decide) 0
  have hclear := happlied.gcClearList fun n hn =>
    List.mem_cons_of_mem _ (List.mem_cons_of_mem _ (List.mem_cons_of_mem _ (gcList_mem_clearKeys hn)))
  exact hclear.gcClosed (by decide)

theorem Dev.keepsUnits.gcShown {d e : Dev} (h : d.keepsUnits e) (cs : Half) (n : Nat) (t : Time) :
    { d with gc := none }.keepsUnits (e.gcShown cs n t) := by
  have hshown : d.keepsUnits ((e.resultShown cs n).appliedShown t).gcClearList :=
    (((((h.setFld _ _).setFld _ _).setReg _ _).setReg _ _).setFld SYS.GC_STATUS_LATE 0).gcClearList
  exact hshown.gcClosed

/-- What a global commit shows, at the end of its command. -/
theorem settle_gcShown (d : Dev) (cs : Half) (n : Nat) (t : Time) :
    let e := settle (d.gcShown cs n t)
    e.gc = none ∧ e.gcState = 0 ∧ e.gcEntries = [] ∧ e.reg64 SYS.GC_APPLIED = t ∧ e.fld SYS.GC_RESULT_SEQ = cs.toNat ∧
    e.fld SYS.GC_RESULT_RECORDS = n % 0x10000 ∧ e.flag SYS.GC_STATUS_LATE = false := by
  refine ⟨(settle_gc _).trans (gcClosed_gc _), (settle_gcState _).trans (gcClosed_state _),
    (settle_gcEntries _).trans (gcShown_gcEntries d cs n t), ?_,
    (settle_fld _ _ (by decide) (by decide)).trans (gcShown_seq d cs n t),
    (settle_fld _ _ (by decide) (by decide)).trans (gcShown_records d cs n t),
    (settle_flag _ _ (by decide) (by decide)).trans (gcShown_late d cs n t)⟩
  rw [Dev.reg64, settle_reg _ _ (by decide) (by decide), settle_reg _ _ (by decide) (by decide)]
  exact gcShown_applied d cs n t

/-! ### The time of a global commit (R7, R44) -/

/-- The low word of a 64-bit register held for an agent. -/
def Dev.lowHeld (d : Dev) (agent : AgentId) (lo : Nat) (v : Word) : Dev :=
  { d with halfW := Tab.put (halfKey agent lo) v d.halfW, answer := .ok }

/-- The device that a write of both words of GC_AT finds at its second word. -/
def Dev.gcAtBegun (d : Dev) (agent : AgentId) (v : DWord) : Dev :=
  { d.begun.lowHeld agent SYS.GC_AT (v.setWidth 32) with
    halfW := Tab.del (halfKey agent SYS.GC_AT) (d.begun.lowHeld agent SYS.GC_AT (v.setWidth 32)).halfW }

/-- The table entry of GC_AT. -/
def gcAtHit : RegHit := ⟨sysRegs[4], 0, 0, false⟩

theorem regHit_gcAt : regHit SYS.GC_AT = some gcAtHit := rfl
theorem regHit_gcAt_high : regHit (SYS.GC_AT + 4) = some { gcAtHit with hiWord := true } := rfl

/-- A write of GC_AT, refused or taken. -/
def Dev.gcAtWrite (d : Dev) (agent : AgentId) (v : DWord) : Dev :=
  match d.writeRefusal agent gcAtHit SYS.GC_AT v.toNat with
  | some c => d.refuseWide agent gcAtHit SYS.GC_AT v c
  | none => d.takeWide agent gcAtHit SYS.GC_AT v

/-- The high word of GC_AT carries the write of both words (R7). -/
theorem regTry_gcAt_high (d : Dev) (agent : AgentId) (v : DWord) :
    (d.begun.lowHeld agent SYS.GC_AT (v.setWidth 32)).regTry agent (SYS.GC_AT + 4) ((v >>> 32).setWidth 32)
      = (d.gcAtBegun agent v).gcAtWrite agent v := by
  have hwhole : ((v >>> 32).setWidth 32 ++ (Tab.find (halfKey agent SYS.GC_AT)
      (d.begun.lowHeld agent SYS.GC_AT (v.setWidth 32)).halfW).getD
        ((d.begun.lowHeld agent SYS.GC_AT (v.setWidth 32)).reg SYS.GC_AT) : DWord) = v := by
    rw [Dev.lowHeld, Tab.find_put_self]
    exact append_halves v
  exact congrArg ((d.gcAtBegun agent v).gcAtWrite agent) hwhole

theorem sysRefusals_gcAt (d : Dev) (agent : AgentId) (v : Nat) : d.sysRefusals agent SYS.GC_AT v =
    if d.gcBusy agent then [(1, 63, .busy)] else if d.gcState = 2 then [(1, 63, .pending)] else [] := by
  rw [Dev.sysRefusals, if_neg (by decide), if_pos (.inl rfl)]

theorem writeRefusal_gcAtBegun (d : Dev) (agent : AgentId) (w v : DWord) :
    (d.gcAtBegun agent w).writeRefusal agent gcAtHit SYS.GC_AT v.toNat = d.writeRefusal agent gcAtHit SYS.GC_AT v.toNat := by
  rw [Dev.writeRefusal_sys _ agent (by decide) (by decide), Dev.writeRefusal_sys _ agent (by decide) (by decide), sysRefusals_gcAt,
    sysRefusals_gcAt]
  rfl

theorem sysEffect_gcAt (d : Dev) (agent : AgentId) (v : Word) (hidle : d.gcState = 0) :
    d.sysEffect agent (SYS.GC_AT + 4) v = d.gcShow 1 agent := by
  rw [Dev.sysEffect, if_neg (by decide), if_neg (by decide), if_pos (.inl rfl)]
  exact Dev.when_of_true d (decide_eq_true hidle) _

/-- Both words of GC_AT stored. -/
def Dev.gcAtStored (d : Dev) (v : DWord) : Dev := { d.setReg64 SYS.GC_AT v with answer := .ok }

/-- A write of an idle facility's GC_AT claims the facility. -/
theorem takeWide_gcAt {d : Dev} (hidle : d.gcState = 0) (agent : AgentId) (v : DWord) :
    d.takeWide agent gcAtHit SYS.GC_AT v = (d.gcAtStored v).gcShow 1 agent := by
  have hlow : d.wordAfter { gcAtHit with hiWord := false } SYS.GC_AT (v.setWidth 32) = v.setWidth 32 :=
    (merge_eq 0xFFFFFFFF#32 (d.reg SYS.GC_AT) _).trans (merge_allOnes _ _)
  have hhigh : d.wordAfter { gcAtHit with hiWord := true } (SYS.GC_AT + 4) ((v >>> 32).setWidth 32) = (v >>> 32).setWidth 32 :=
    (merge_eq 0xFFFFFFFF#32 (d.reg (SYS.GC_AT + 4)) _).trans (merge_allOnes _ _)
  have hlogged : gcAtHit.logged = false := by decide
  have hstate : (d.gcAtStored v).gcState = 0 := by
    refine Eq.trans (Dev.fld_of_reg ?_) hidle
    exact (Dev.reg_setReg_ne _ (by decide) _).trans (Dev.reg_setReg_ne d (by decide) _)
  simp only [Dev.takeWide, hlow, hhigh, hlogged, Dev.when_false]
  rw [Dev.blockEffect_sys _ agent (by decide)]
  exact sysEffect_gcAt (d.gcAtStored v) agent _ hstate

theorem Dev.Makes.gcAt (d : Dev) (agent : AgentId) (v : DWord) :
    d.Makes (((d.gcAtBegun agent v).gcAtStored v).gcShow 1 agent) [SYS.GC_AT, SYS.GC_AT + 4, SYS.GC_STATUS] [] [] := by
  have hbegun : d.Makes (d.gcAtBegun agent v) [SYS.GC_AT, SYS.GC_AT + 4, SYS.GC_STATUS] [] [] := (Dev.Makes.begun d).frame rfl rfl rfl rfl
  have hwords := (hbegun.setReg (a := SYS.GC_AT) (by decide) (v.setWidth 32)).setReg (a := SYS.GC_AT + 4) (by decide) ((v >>> 32).setWidth 32)
  have hstored : d.Makes ((d.gcAtBegun agent v).gcAtStored v) [SYS.GC_AT, SYS.GC_AT + 4, SYS.GC_STATUS] [] [] := hwords.frame rfl rfl rfl rfl
  exact hstored.gcShow (by decide) 1 agent

theorem allowed_of_takesWide {d : Dev} {agent : AgentId} {v : DWord} (ht : d.takesWide agent SYS.GC_AT v = true) :
    d.writeRefusal agent gcAtHit SYS.GC_AT v.toNat = none ∧ d.lgRoom = true := by
  simp only [Dev.takesWide, regHit_gcAt, regHit_gcAt_high, Bool.and_eq_true, Option.isNone_iff_eq_none] at ht
  exact ⟨ht.1.2, ht.2⟩

/-- A write of both words of GC_AT that is taken. -/
theorem writeBoth_gcAt {d : Dev} {agent : AgentId} {v : DWord} (ht : d.takesWide agent SYS.GC_AT v = true) (hidle : d.gcState = 0) :
    d.begun.writeBoth agent SYS.GC_AT v = ((d.gcAtBegun agent v).gcAtStored v).gcShow 1 agent := by
  obtain ⟨hallowed, hroom⟩ := allowed_of_takesWide ht
  have htake : (d.gcAtBegun agent v).gcAtWrite agent v = ((d.gcAtBegun agent v).gcAtStored v).gcShow 1 agent := by
    rw [Dev.gcAtWrite, writeRefusal_gcAtBegun, hallowed]
    exact takeWide_gcAt (d := d.gcAtBegun agent v) hidle agent v
  have hlow : d.begun.regWrite agent SYS.GC_AT (v.setWidth 32) = d.begun.lowHeld agent SYS.GC_AT (v.setWidth 32) :=
    Dev.regWrite_of_room (b := d.begun) hroom (Nat.le_add_right _ _) (by decide)
  have htry := (regTry_gcAt_high d agent v).trans htake
  have hfree : (Dev.regTry (d.begun.lowHeld agent SYS.GC_AT (v.setWidth 32)) agent (SYS.GC_AT + 4) ((v >>> 32).setWidth 32)).ordinary
      ≤ (d.begun.lowHeld agent SYS.GC_AT (v.setWidth 32)).ordinary + 64 := by
    rw [htry]
    exact (Dev.Makes.gcAt d agent v).ordinary_le.trans (Nat.add_le_add_left (by simp) _)
  rw [Dev.writeBoth, hlow]
  exact (Dev.regWrite_of_room (b := d.begun.lowHeld agent SYS.GC_AT (v.setWidth 32)) hroom hfree (by decide)).trans htry

/-- GC_AT taken, at the end of its command. -/
theorem settle_gcAt (d : Dev) (agent : AgentId) (v : DWord) :
    let e := settle (((d.gcAtBegun agent v).gcAtStored v).gcShow 1 agent)
    e.answer = .ok ∧ e.reg64 SYS.GC_AT = v ∧ e.gcState = 1 ∧ e.gcOwner = agent ∧
    d.keepsRegs e [SYS.GC_AT, SYS.GC_AT + 4, SYS.GC_STATUS] ∧ { d with halfW := e.halfW }.keepsUnits e := by
  have hm := Dev.Makes.gcAt d agent v
  have hunits : { d with halfW := (d.gcAtBegun agent v).halfW }.keepsUnits (d.gcAtBegun agent v) := ⟨rfl, fun _ => rfl⟩
  have hstored : { d with halfW := (d.gcAtBegun agent v).halfW }.keepsUnits ((d.gcAtBegun agent v).gcAtStored v) :=
    ((hunits.setReg SYS.GC_AT _).setReg (SYS.GC_AT + 4) _).setAnswer .ok
  have hhalf : (((d.gcAtBegun agent v).gcAtStored v).gcShow 1 agent).halfW = (d.gcAtBegun agent v).halfW := by
    rw [Dev.gcShow, Dev.setFld_halfW, Dev.setFld_halfW, Dev.gcAtStored, Dev.setReg64, Dev.setReg_halfW, Dev.setReg_halfW]
  refine ⟨(settle_answer _).trans (gcShow_answer _ _ _), ?_, (settle_gcState _).trans (gcShow_state _ (by decide) _),
    (settle_gcOwner _).trans (gcShow_owner _ _ _), hm.settle_keepsRegs, ?_⟩
  · rw [Dev.reg64, settle_reg _ _ (by decide) (by decide), settle_reg _ _ (by decide) (by decide), gcShow_reg _ _ _ (by decide),
      gcShow_reg _ _ _ (by decide)]
    exact setReg64_reg64 (d.gcAtBegun agent v) SYS.GC_AT v
  · rw [settle_halfW, hhalf]
    exact hm.settle_keepsUnits (by decide) rfl (hstored.gcShow 1 agent)

/-! ### Snapshots asked for (R48) -/

/-- The table entry of SNAP_CTRL. -/
def snapCtrlHit : RegHit := ⟨sysRegs[8], 0, 0, false⟩

theorem regHit_snapCtrl : regHit SYS.SNAP_CTRL = some snapCtrlHit := rfl

/-- MODE reads as it was written. -/
theorem snapCtrl_mode (d : Dev) (v : Word) :
    (d.put SYS.SNAP_CTRL (d.wordAfter snapCtrlHit SYS.SNAP_CTRL v)).flag SYS.SNAP_CTRL_MODE = wordBit v 1 := by
  have hword : d.wordAfter snapCtrlHit SYS.SNAP_CTRL v =
      ((((d.reg SYS.SNAP_CTRL &&& ~~~0x2#32) ||| (v &&& 0x2#32)) &&& ~~~(v &&& 0#32)) ||| (v &&& 0x1#32)) := rfl
  have hflag (w : Word) : (bitsOf w.toNat 1 1 != 0) = bitOf w.toNat 1 := by
    rw [bitsOf, bitOf]
    simp
  rw [Dev.flag, Dev.fld, Dev.num]
  rw [show SYS.SNAP_CTRL_MODE.addr = SYS.SNAP_CTRL from rfl, Dev.put_reg_self, hword]
  refine (hflag _).trans ?_
  rw [wordBit, bitOf_toNat, bitOf_toNat]
  simp

/-- What a request for a snapshot NOW sets pending. -/
def Dev.snapNow (d : Dev) : Snapshot :=
  { mask := d.reg64 SYS.SNAP_MASK, latchAt := d.soon, target := floorNs (d.reg64 SYS.SNAP_AT), late := false }

theorem snapRequest_now {d : Dev} (hnone : d.snap = none) (hmode : d.flag SYS.SNAP_CTRL_MODE = false) :
    d.snapRequest = ({ d with snap := some d.snapNow } : Dev).setFld SYS.SNAP_STATUS_PENDING 1 := by
  simp only [Dev.snapRequest, hnone, hmode, Option.isSome_none, Bool.false_eq_true, if_false, Bool.false_and, Dev.snapNow]

theorem sysEffect_snapCtrl (d : Dev) (agent : AgentId) (v : Word) :
    d.sysEffect agent SYS.SNAP_CTRL v = d.when (bitOf v.toNat 0) Dev.snapRequest := by
  rw [Dev.sysEffect, if_neg (by decide), if_neg (by decide), if_neg (by decide), if_pos rfl]

/-- The device with a snapshot asked for by a write that left `w` in SNAP_CTRL. -/
def Dev.snapAsked (d : Dev) (w : Word) : Dev :=
  ({ d.begun.put SYS.SNAP_CTRL w with snap := some d.snapNow } : Dev).setFld SYS.SNAP_STATUS_PENDING 1

theorem Dev.Makes.snapAsked (d : Dev) (w : Word) : d.Makes (d.snapAsked w) [SYS.SNAP_CTRL, SYS.SNAP_STATUS] [] [] := by
  have hput := Dev.Makes.put d (a := SYS.SNAP_CTRL) (l := [SYS.SNAP_CTRL, SYS.SNAP_STATUS]) (by decide) w
  have hsnap : d.Makes { d.begun.put SYS.SNAP_CTRL w with snap := some d.snapNow } [SYS.SNAP_CTRL, SYS.SNAP_STATUS] [] [] :=
    hput.frame rfl rfl rfl rfl
  exact hsnap.setFld (f := SYS.SNAP_STATUS_PENDING) (by decide) 1

theorem put_snapNow (d : Dev) (w : Word) : (d.begun.put SYS.SNAP_CTRL w).snapNow = d.snapNow := by
  have hkept (a : Nat) (ha : a ≠ SYS.SNAP_CTRL) (ha' : a + 4 ≠ SYS.SNAP_CTRL) : (d.begun.put SYS.SNAP_CTRL w).reg64 a = d.reg64 a := by
    rw [Dev.reg64, Dev.put_reg_ne _ ha, Dev.put_reg_ne _ ha']
    rfl
  rw [Dev.snapNow, Dev.snapNow, hkept _ (by decide) (by decide), hkept _ (by decide) (by decide)]
  rfl

theorem put_snapRequest {d : Dev} {w : Word} (hnone : d.snap = none)
    (hmode : (d.begun.put SYS.SNAP_CTRL w).flag SYS.SNAP_CTRL_MODE = false) : (d.begun.put SYS.SNAP_CTRL w).snapRequest = d.snapAsked w := by
  have hsnap : (d.begun.put SYS.SNAP_CTRL w).snap = none := (Dev.setReg_snap _ _ _).trans hnone
  rw [snapRequest_now hsnap hmode, put_snapNow, Dev.snapAsked]

theorem regWrite_snapCtrl {d : Dev} {agent : AgentId} {v : Word} (ht : d.takes agent SYS.SNAP_CTRL v = true) (hask : wordBit v 0 = true)
    (hmode : wordBit v 1 = false) (hnone : d.snap = none) : d.begun.regWrite agent SYS.SNAP_CTRL v =
      d.snapAsked (d.begun.wordAfter snapCtrlHit SYS.SNAP_CTRL v) := by
  refine Dev.regWrite_sys (by decide) (Dev.takesAt_of_takes regHit_snapCtrl ht) ?_ (Dev.Makes.snapAsked d _) (by simp)
  rw [Dev.takeWord_sys_plain _ _ (by decide) (by decide) (by decide), sysEffect_snapCtrl, Dev.when_of_true _ (c := bitOf v.toNat 0) hask]
  exact put_snapRequest hnone ((snapCtrl_mode _ _).trans hmode)

/-- A snapshot asked for, at the end of its command. -/
theorem settle_snapAsked (d : Dev) (w : Word) :
    let e := settle (d.snapAsked w)
    e.answer = .ok ∧ e.snap = some d.snapNow ∧ e.flag SYS.SNAP_STATUS_PENDING = true ∧
    d.keepsRegs e [SYS.SNAP_CTRL, SYS.SNAP_STATUS] ∧ { d with snap := e.snap }.keepsUnits e := by
  intro e
  have hm := Dev.Makes.snapAsked d w
  have hsnap : e.snap = some d.snapNow := (settle_snap _).trans (Dev.setFld_snap _ _ _)
  refine ⟨(settle_answer _).trans (Dev.setFld_answer _ _ _), hsnap,
    (settle_flag _ _ (by decide) (by decide)).trans (Dev.flag_setFld_one _ SYS.SNAP_STATUS_PENDING (by decide) (by decide)),
    hm.settle_keepsRegs, ?_⟩
  have hunits : { d with snap := some d.snapNow }.keepsUnits { d.begun.put SYS.SNAP_CTRL w with snap := some d.snapNow } :=
    ⟨rfl, fun _ => rfl⟩
  rw [hsnap]
  exact hm.settle_keepsUnits (by decide) rfl (hunits.setFld SYS.SNAP_STATUS_PENDING 1)

/-! ### Snapshots latched (R48, R207) -/

/-- A snapshot latched at `t` counted and done. -/
def Dev.latchShown (d : Dev) (t : Time) : Dev :=
  ((d.setReg64 SYS.SNAP_TIME t).setFld SYS.SNAP_STATUS_COUNT (d.fld SYS.SNAP_STATUS_COUNT + 1)).setFld SYS.SNAP_STATUS_DONE 1

/-- No snapshot pending any more. -/
def Dev.snapClosed (d : Dev) : Dev := (({ d with snap := none } : Dev).setFld SYS.SNAP_STATUS_PENDING 0).setFld SYS.SNAP_CTRL_REQUEST 0

/-- The end of a snapshot latched at `t` shown. -/
def Dev.latchEnd (d : Dev) (t : Time) : Dev := (d.latchShown t).snapClosed

/-- The shadows of the blocks of `bs` latched in turn. -/
def Dev.latchBlocks (d : Dev) (t : Time) (bs : List Nat) : Dev := d.each bs fun d b => d.latchBlock t b

/-- A snapshot on time is latched at its time. -/
theorem exec_snapshotLatch {s : State} {x : Snapshot} (hx : s.dev.snap = some x) (hlate : x.late = false)
    (hdue : s.dev.due x.latchAt = true) : exec .snapshotLatch s =
      .next { s with dev := settle ((s.dev.begun.latchBlocks x.latchAt (setBits 64 x.mask.toNat)).latchEnd x.latchAt) } := by
  have hbody : (match s.dev.begun.snap with
      | none => s.dev.begun
      | some x => s.dev.begun.when (s.dev.begun.due x.latchAt) fun d =>
        ((d.latchBlocks x.latchAt (setBits 64 x.mask.toNat)).when x.late fun d => d.lateAct 0 x.target x.latchAt).latchEnd x.latchAt) =
      (s.dev.begun.latchBlocks x.latchAt (setBits 64 x.mask.toNat)).latchEnd x.latchAt := by
    rw [show s.dev.begun.snap = some x from hx]
    refine (Dev.when_of_true s.dev.begun (c := s.dev.begun.due x.latchAt) hdue _).trans ?_
    rw [hlate, Dev.when_false]
  rw [← hbody]
  rfl

/-- The words in which a snapshot shows its end. -/
def latchKeys : List Nat := [SYS.SNAP_TIME, SYS.SNAP_TIME + 4, SYS.SNAP_STATUS, SYS.SNAP_CTRL]

theorem snapClosed_reg (d : Dev) {a : Nat} (hstatus : a ≠ SYS.SNAP_STATUS) (hctrl : a ≠ SYS.SNAP_CTRL) : d.snapClosed.reg a = d.reg a := by
  rw [Dev.snapClosed, Dev.reg_setFld_ne _ hctrl, Dev.reg_setFld_ne _ hstatus]
  rfl

theorem latchShown_reg (d : Dev) (t : Time) {a : Nat} (hstatus : a ≠ SYS.SNAP_STATUS) :
    (d.latchShown t).reg a = (d.setReg64 SYS.SNAP_TIME t).reg a := by
  rw [Dev.latchShown, Dev.reg_setFld_ne _ hstatus, Dev.reg_setFld_ne _ hstatus]

theorem latchEnd_reg (d : Dev) (t : Time) {a : Nat} (ha : a ∉ latchKeys) : (d.latchEnd t).reg a = d.reg a := by
  simp only [latchKeys, List.mem_cons, List.not_mem_nil, or_false, not_or] at ha
  obtain ⟨h0, h4, hstatus, hctrl⟩ := ha
  rw [Dev.latchEnd, snapClosed_reg _ hstatus hctrl, latchShown_reg _ _ hstatus, Dev.setReg64, Dev.reg_setReg_ne _ h4,
    Dev.reg_setReg_ne _ h0]

theorem snapClosed_snap (d : Dev) : d.snapClosed.snap = none := by
  rw [Dev.snapClosed, Dev.setFld_snap, Dev.setFld_snap]

theorem snapClosed_request (d : Dev) : d.snapClosed.flag SYS.SNAP_CTRL_REQUEST = false :=
  Dev.flag_setFld_b2n _ SYS.SNAP_CTRL_REQUEST false (by decide) (by decide)

theorem snapClosed_pending (d : Dev) : d.snapClosed.flag SYS.SNAP_STATUS_PENDING = false :=
  (Dev.flag_setFld_ne _ SYS.SNAP_CTRL_REQUEST SYS.SNAP_STATUS_PENDING _ (by decide) (by decide) (by decide)).trans
    (Dev.flag_setFld_b2n _ SYS.SNAP_STATUS_PENDING false (by decide) (by decide))

/-- The fields of SNAP_STATUS above PENDING stay. -/
theorem snapClosed_fld (d : Dev) {f : Fld} (haddr : f.addr = SYS.SNAP_STATUS) (hlo : 0 < f.lo) (hhi : f.hi < 32) :
    d.snapClosed.fld f = d.fld f := by
  have hctrl : f.addr ≠ SYS.SNAP_CTRL := by rw [haddr]; decide
  rw [Dev.snapClosed, Dev.fld_setFld_ne _ SYS.SNAP_CTRL_REQUEST f _ (by decide) hhi (.inl hctrl),
    Dev.fld_setFld_ne _ SYS.SNAP_STATUS_PENDING f _ (by decide) hhi (.inr (.inr hlo))]
  rfl

theorem latchEnd_done (d : Dev) (t : Time) : (d.latchEnd t).flag SYS.SNAP_STATUS_DONE = true := by
  rw [Dev.latchEnd, Dev.flag, snapClosed_fld _ rfl (by decide) (by decide)]
  exact Dev.flag_setFld_one _ SYS.SNAP_STATUS_DONE (by decide) (by decide)

theorem latchEnd_count (d : Dev) (t : Time) :
    (d.latchEnd t).fld SYS.SNAP_STATUS_COUNT = (d.fld SYS.SNAP_STATUS_COUNT + 1) % 0x10000 := by
  rw [Dev.latchEnd, snapClosed_fld _ rfl (by decide) (by decide), Dev.latchShown,
    Dev.fld_setFld_ne _ SYS.SNAP_STATUS_DONE SYS.SNAP_STATUS_COUNT _ (by decide) (by decide) (by decide)]
  exact Dev.fld_setFld_self _ SYS.SNAP_STATUS_COUNT _ (by decide) (by decide)

theorem latchEnd_time (d : Dev) (t : Time) : (d.latchEnd t).reg64 SYS.SNAP_TIME = t := by
  have hkept (a : Nat) (hstatus : a ≠ SYS.SNAP_STATUS) (hctrl : a ≠ SYS.SNAP_CTRL) :
      (d.latchEnd t).reg a = (d.setReg64 SYS.SNAP_TIME t).reg a := by
    rw [Dev.latchEnd, snapClosed_reg _ hstatus hctrl, latchShown_reg _ _ hstatus]
  rw [Dev.reg64, hkept _ (by decide) (by decide), hkept _ (by decide) (by decide)]
  exact setReg64_reg64 _ _ _

theorem Dev.Makes.snapClosed {d e : Dev} {l ids : List Nat} {rs : List Record} (h : d.Makes e l ids rs) (hstatus : SYS.SNAP_STATUS ∈ l)
    (hctrl : SYS.SNAP_CTRL ∈ l) : d.Makes e.snapClosed l ids rs := by
  have hnone : d.Makes { e with snap := none } l ids rs := h.frame rfl rfl rfl rfl
  exact (hnone.setFld (f := SYS.SNAP_STATUS_PENDING) hstatus 0).setFld (f := SYS.SNAP_CTRL_REQUEST) hctrl 0

theorem Dev.keepsUnits.snapClosed {d e : Dev} (h : d.keepsUnits e) : { d with snap := none }.keepsUnits e.snapClosed := by
  have hnone : { d with snap := none }.keepsUnits { e with snap := none } := ⟨congrArg (fun y : Dev => { y with snap := none }) h.1, h.2⟩
  exact (hnone.setFld SYS.SNAP_STATUS_PENDING 0).setFld SYS.SNAP_CTRL_REQUEST 0

theorem Dev.Makes.latchEnd {d e : Dev} {ids : List Nat} {rs : List Record} (h : d.Makes e latchKeys ids rs) (t : Time) :
    d.Makes (e.latchEnd t) latchKeys ids rs := by
  have hshown : d.Makes (e.latchShown t) latchKeys ids rs :=
    (((h.setReg (a := SYS.SNAP_TIME) (by decide) (t.setWidth 32)).setReg (a := SYS.SNAP_TIME + 4) (by decide)
      ((t >>> 32).setWidth 32)).setFld (f := SYS.SNAP_STATUS_COUNT) (by decide) (e.fld SYS.SNAP_STATUS_COUNT + 1)).setFld
      (f := SYS.SNAP_STATUS_DONE) (by decide) 1
  exact hshown.snapClosed (by decide) (by decide)

theorem Dev.keepsUnits.latchEnd {d e : Dev} (h : d.keepsUnits e) (t : Time) : { d with snap := none }.keepsUnits (e.latchEnd t) := by
  have hshown : d.keepsUnits (e.latchShown t) :=
    (((h.setReg SYS.SNAP_TIME _).setReg (SYS.SNAP_TIME + 4) _).setFld SYS.SNAP_STATUS_COUNT _).setFld SYS.SNAP_STATUS_DONE 1
  exact hshown.snapClosed

/-- A snapshot's end shown, at the end of its command. -/
theorem settle_latchEnd (d : Dev) (t : Time) :
    let e := settle (d.latchEnd t)
    e.snap = none ∧ e.reg64 SYS.SNAP_TIME = t ∧ e.fld SYS.SNAP_STATUS_COUNT = (d.fld SYS.SNAP_STATUS_COUNT + 1) % 0x10000 ∧
    e.flag SYS.SNAP_STATUS_DONE = true ∧ e.flag SYS.SNAP_STATUS_PENDING = false ∧ e.flag SYS.SNAP_CTRL_REQUEST = false := by
  refine ⟨(settle_snap _).trans (snapClosed_snap _), ?_, (settle_fld _ _ (by decide) (by decide)).trans (latchEnd_count d t),
    (settle_flag _ _ (by decide) (by decide)).trans (latchEnd_done d t), (settle_flag _ _ (by decide) (by decide)).trans (snapClosed_pending _),
    (settle_flag _ _ (by decide) (by decide)).trans (snapClosed_request _)⟩
  rw [Dev.reg64, settle_reg _ _ (by decide) (by decide), settle_reg _ _ (by decide) (by decide)]
  exact latchEnd_time d t

/-! ### The outputs' times latched (R207) -/

/-- The times of the outputs of `os` latched in turn. -/
def Dev.latchOuts (d : Dev) (os : List Nat) : Dev := d.each os fun d o => d.setReg (PWM.SNAP_CMP o) (d.reg (outNow o))

theorem latchOuts_cons (d : Dev) (o : Nat) (os : List Nat) :
    d.latchOuts (o :: os) = (d.setReg (PWM.SNAP_CMP o) (d.reg (outNow o))).latchOuts os := by
  rw [Dev.latchOuts, Dev.latchOuts, Dev.each, Dev.each, List.foldl_cons]

/-- In the first PWM block a latched word is no output's time. -/
theorem snapCmp_ne_outNow {o j : Nat} (ho : o < 32) (hj : j < 32) : outNow j ≠ PWM.SNAP_CMP o := by
  unfold outNow PWM.SNAP_CMP PWM.TIM_NOW_A PWM.TIM_NOW_B
  split <;> omega

theorem snapCmp_injective {o j : Nat} (ho : o < 32) (hj : j < 32) (h : PWM.SNAP_CMP o = PWM.SNAP_CMP j) : o = j := by
  unfold PWM.SNAP_CMP at h
  omega

theorem latchOuts_not_mem (d : Dev) {os : List Nat} (hos : ∀ o ∈ os, o < 32) {j : Nat} (hj : j < 32) (hmem : j ∉ os) :
    (d.latchOuts os).reg (PWM.SNAP_CMP j) = d.reg (PWM.SNAP_CMP j) := by
  induction os generalizing d with
  | nil => rfl
  | cons o os ih =>
    simp only [List.mem_cons, not_or] at hmem
    rw [latchOuts_cons, ih _ (fun p hp => hos p (List.mem_cons_of_mem o hp)) hmem.2,
      Dev.reg_setReg_ne _ fun heq => hmem.1 (snapCmp_injective hj (hos o List.mem_cons_self) heq)]

/-- Each output's time is latched as it stood. -/
theorem latchOuts_mem (d : Dev) {os : List Nat} (hos : ∀ o ∈ os, o < 32) {j : Nat} (hmem : j ∈ os) :
    (d.latchOuts os).reg (PWM.SNAP_CMP j) = d.reg (outNow j) := by
  have hj := hos j hmem
  induction os generalizing d with
  | nil => exact absurd hmem (by simp)
  | cons o os ih =>
    have hrest : ∀ p ∈ os, p < 32 := fun p hp => hos p (List.mem_cons_of_mem o hp)
    rw [latchOuts_cons]
    by_cases hin : j ∈ os
    · rw [ih _ hrest hin, Dev.reg_setReg_ne _ (snapCmp_ne_outNow (hos o List.mem_cons_self) hj)]
    · obtain rfl : j = o := (List.mem_cons.mp hmem).resolve_right hin
      rw [latchOuts_not_mem _ hrest hj hin, Dev.reg_setReg_self]

theorem latchBlocks_one (d : Dev) (t : Time) (b : Nat) : d.latchBlocks t [b] = d.latchBlock t b := rfl

/-- The first PWM block latches the times of its 32 outputs. -/
theorem latchBlocks_pwm (d : Dev) (t : Time) : d.latchBlocks t [0x20] = d.latchOuts (List.range 32) := by
  have hshift : (List.range 32).map (32 * (0x20 - 0x20) + ·) = List.range 32 := by decide
  have hblock : d.latchBlock t 0x20 = d.latchOuts ((List.range 32).map (32 * (0x20 - 0x20) + ·)) := by
    rw [Dev.latchBlock, if_neg (by decide), if_neg (by decide), if_neg (by decide), if_pos (by decide)]
    rfl
  rw [latchBlocks_one, hblock, hshift]

/-! ### The global commit facility and snapshots (R44 to R48, R65) -/

theorem lgFull_zero (d : Dev) : d.lgFull 0 = false := by
  rw [Dev.lgFull, decide_eq_false (by decide), Bool.and_false, Bool.false_and]

/-- A global commit of no group, at the end of its command. -/
theorem settle_gcApply_none (d : Dev) (t : Time) :
    let e := settle (d.begun.gcShown 0 0 t)
    e.gc = none ∧ e.gcState = 0 ∧ e.gcEntries = [] ∧ e.reg64 SYS.GC_APPLIED = t ∧ e.num SYS.GC_RESULT = 0 ∧
    e.flag SYS.GC_STATUS_LATE = false ∧ { d with gc := none }.keepsUnits e ∧ d.noRecord e := by
  obtain ⟨hgc, hstate, hlist, happlied, hseq, hrecords, hlate⟩ := settle_gcShown d.begun 0 0 t
  have hm := (Dev.Makes.begun d).gcShown 0 0 t
  have hunits : d.keepsUnits d.begun := ⟨rfl, fun _ => rfl⟩
  refine ⟨hgc, hstate, hlist, happlied, ?_, hlate, hm.settle_keepsUnits (by decide) rfl (hunits.gcShown 0 0 t),
    hm.settle_noRecord (by decide)⟩
  rw [gcResult_num, hrecords, hseq]
  rfl

/-- A word of a group of the fault manager or the Junction is none that the facility shows. -/
theorem not_mem_shownKeys {a : Nat} (ha : 3 ≤ a / 0x10000) : a ∉ shownKeys := by
  intro hmem
  have hall : ∀ x ∈ shownKeys, x / 0x10000 = 0 := by decide
  have hzero := hall a hmem
  omega

theorem applied_regulated {d : Dev} {k : Nat} (hk : plainGroup k) (hw : d.stagedInGroup k) (t : Time) (late : Bool) (cs : Half) (n : Nat) :
    ((d.applied k t late).gcShown cs n t).regulated = d.regulated := by
  have hword : ((d.applied k t late).gcShown cs n t).reg NVM.BOOT_STATUS = d.reg NVM.BOOT_STATUS := by
    rw [gcShown_reg _ _ _ _ (not_mem_shownKeys (by decide)), applied_reg, setWords_reg_ne, nextSeq_reg_ne _ (by decide)]
    intro hmem
    obtain ⟨p, hp, heq⟩ := List.mem_map.mp hmem
    have hapart := groupOf_apart hk (hw p hp)
    rw [heq] at hapart
    exact absurd hapart.2 (by decide)
  rw [Dev.regulated, Dev.regulated, Dev.fld_of_reg (g := NVM.BOOT_STATUS_STATE) hword]

/-- A global commit of one group, at the end of its command. -/
theorem settle_gcApply_one {d : Dev} {k : Nat} (hk : plainGroup k) (hw : d.stagedInGroup k) (hs : Tab.sorted (d.grp k).staged = true)
    (t : Time) :
    let e := settle ((d.begun.applied k t false).gcShown d.nextSeq.1 (d.grpRecs k).length t)
    e.gc = none ∧ e.gcState = 0 ∧ e.gcEntries = [] ∧ e.reg64 SYS.GC_APPLIED = t ∧ e.fld SYS.GC_RESULT_SEQ = d.nextSeq.1.toNat ∧
    e.fld SYS.GC_RESULT_RECORDS = (d.grpRecs k).length % 0x10000 ∧ ((e.grp k).st = .idle ∧ (e.grp k).staged = []) ∧
    (d.grp k).staged.all (fun p => decide (e.reg p.1 = d.mergeStg p.1 p.2)) = true := by
  intro e
  obtain ⟨hgc, hstate, hlist, happlied, hseq, hrecords, -⟩ :=
    settle_gcShown (d.begun.applied k t false) d.nextSeq.1 (d.grpRecs k).length t
  have hgrp : e.grp k = (d.begun.applied k t false).grp k := by
    rw [settle_grp]
    simp only [Dev.grp, gcShown_groups]
  refine ⟨hgc, hstate, hlist, happlied, hseq, hrecords, ?_, List.all_eq_true.mpr fun p hp => decide_eq_true ?_⟩
  · rw [hgrp, applied_grp]
    exact ⟨rfl, rfl⟩
  · have hapart := groupOf_apart hk (hw p hp)
    rw [settle_reg _ _ (by omega) (by omega), gcShown_reg _ _ _ _ (not_mem_shownKeys hapart.1)]
    exact applied_reg_staged (d := d.begun) hs t false hp

/-- Settles O8: each command of the facility and of snapshots shows what it did in the words of SYS, and the end of a command keeps all
of it. -/
theorem globalCommitAndSnapshots : Obligations.GlobalCommitAndSnapshots := by
  unfold Obligations.GlobalCommitAndSnapshots
  intro s
  refine ⟨?list, ?atWrite, ?go, ?cancel, ?clear, ?applyNone, ?applyOne, ?request, ?latchNone, ?latchOuts⟩
  case list =>
    intro a n v ht hidle
    obtain ⟨hok, hword, hrest⟩ := settle_gcList s.dev a.id n (s.dev.begun.wordAfter (gcListHit n) (SYS.GC_LIST n) v)
    refine does_of_effect rfl (regWrite_gcList ht hidle) ⟨hok, hword.trans ?_, hrest⟩
    rw [Dev.afterWrite, regHit_gcList]
    rfl
  case atWrite =>
    intro a v ht hidle
    exact does_of_effect rfl (writeBoth_gcAt ht hidle) (settle_gcAt s.dev a.id v)
  case go =>
    intro a v ht hgo hasap howner
    obtain ⟨hok, hgc, hstate, hown, hgrps, hrest⟩ := settle_gcHeld s.dev a.id v (toGlobal_twice s.dev.now) (sortBy id s.dev.gcEntries)
      (some s.dev.gcAsap) (n := 2) (by decide)
    refine does_of_effect rfl ((if_pos hgo).trans (regWrite_gcGo ht hgo hasap)) ⟨hok, hgc, hstate, hown.trans howner, ?_, hrest⟩
    exact List.all_eq_true.mpr fun k hk => decide_eq_true (hgrps k (mem_sortBy.mpr hk))
  case cancel =>
    intro a v k g ht hask hg hk
    obtain ⟨hok, hgc, hstate, hown, hgrps, hrest⟩ := settle_gcHeld s.dev a.id v toClaimed_twice g.groups none (n := 1) (by decide)
    refine does_of_effect rfl ((if_pos hask).trans (regWrite_gcCancel ht hask hg)) ⟨hok, hgc, hstate, hown, ?_, hrest⟩
    rw [hgrps k hk]
    exact ⟨rfl, rfl⟩
  case clear =>
    intro a v ht hask
    exact does_of_effect rfl ((if_pos hask).trans (regWrite_gcClear ht hask)) (settle_gcClear s.dev a.id v)
  case applyNone =>
    intro g hg hnone hlate hdue hwait
    have hfull : s.dev.lgFull (g.groups.flatMap s.dev.grpRecs).length = false := by
      rw [hnone]
      exact lgFull_zero s.dev
    have happly : s.dev.begun.gcApply g g.applyAt g.late = s.dev.begun.gcShown 0 0 g.applyAt := by
      rw [hlate]
      exact gcApply_of_none hnone g.applyAt
    exact does_of_effect (exec_globalCommitApply hg hdue hwait hfull happly (gcShown_sliceDet _ _ _ _)) rfl
      (settle_gcApply_none s.dev g.applyAt)
  case applyOne =>
    intro g k hg hone hk hlate hdue hchip hwait hreg hs hw
    have happly : s.dev.begun.gcApply g g.applyAt g.late =
        (s.dev.begun.applied k g.applyAt false).gcShown s.dev.nextSeq.1 (s.dev.grpRecs k).length g.applyAt := by
      rw [hlate]
      exact gcApply_of_one (d := s.dev.begun) hk hw hone g.applyAt ((applied_regulated (d := s.dev.begun) hk hw _ _ _ _).trans hreg)
    have hdet := (gcShown_sliceDet _ s.dev.nextSeq.1 (s.dev.grpRecs k).length g.applyAt).trans
      (applied_sliceDet s.dev.begun k g.applyAt false)
    exact does_of_effect (exec_globalCommitApply hg hdue hwait (lgFull_of_chip hchip _) happly hdet) rfl
      (settle_gcApply_one hk hw hs g.applyAt)
  case request =>
    intro a v ht hask hmode hnone
    exact does_of_effect rfl ((if_pos hask).trans (regWrite_snapCtrl ht hask hmode hnone)) (settle_snapAsked s.dev _)
  case latchNone =>
    intro x hx hmask hlate hdue
    have hexec := exec_snapshotLatch hx hlate hdue
    rw [hmask] at hexec
    obtain ⟨hnone, htime, hcount, hdone, hpending, hrequest⟩ := settle_latchEnd s.dev.begun x.latchAt
    have hunits : s.dev.keepsUnits s.dev.begun := ⟨rfl, fun _ => rfl⟩
    exact does_of_effect hexec rfl ⟨hnone, htime, hcount, hdone, hpending, hrequest,
      ((Dev.Makes.begun s.dev).latchEnd x.latchAt).settle_keepsUnits (by decide) rfl (hunits.latchEnd x.latchAt)⟩
  case latchOuts =>
    intro x o hx hmask hlate ho hdue
    have hbits : setBits 64 (0x100000000 : DWord).toNat = [0x20] := by decide
    have hexec := exec_snapshotLatch hx hlate hdue
    rw [hmask, hbits, latchBlocks_pwm] at hexec
    obtain ⟨hnone, -, -, hdone, -⟩ := settle_latchEnd (s.dev.begun.latchOuts (List.range 32)) x.latchAt
    have hblock : PWM.SNAP_CMP o / 0x10000 = 0x20 := by
      unfold PWM.SNAP_CMP
      omega
    have hkeys : PWM.SNAP_CMP o ∉ latchKeys := by
      intro hmem
      have hall : ∀ a ∈ latchKeys, a / 0x10000 = 0 := by decide
      exact absurd ((hall _ hmem).symm.trans hblock) (by decide)
    refine does_of_effect hexec rfl ⟨hnone, hdone, ?_⟩
    rw [settle_reg _ _ (by omega) (by omega), latchEnd_reg _ _ hkeys,
      latchOuts_mem _ (fun _ => List.mem_range.mp) (List.mem_range.mpr ho)]
    rfl

end Sys2Proof.Machine

/-! ## Start-up and power edges (spec/03): bring-up and resets, the loader, power loss, the flash and the journal -/

namespace Sys2Proof.Machine

/-! ### Commands that leave nothing to bring up to date -/

theorem entered_of_ledgerShown {d : Dev} (h : d.ledgerShown) : d.entered = d := by
  obtain ⟨hfresh, hchip, -⟩ := h
  have hnone : d.enterAll = d := by
    have hsame : ({ d with led := { d.led with fresh := [] } } : Dev) = d := by rw [← hfresh]
    rw [Dev.enterAll, hfresh, orderRuns_nil, List.foldl_nil, hsame]
    rfl
  rw [Dev.entered, hnone, List.take_of_length_le hchip]

/-- A command that leaves the Ledger shown ends there. -/
theorem settle_of_ledgerShown {d : Dev} (h : d.ledgerShown) : settle d = d := by
  have hentered := entered_of_ledgerShown h
  obtain ⟨-, -, hover⟩ := h
  rw [settle_of_shown, hentered]
  rw [hentered]
  rintro ⟨hbehind, hnot⟩
  exact absurd hnot (bne_iff_ne.mp (hover hbehind))

/-- Whether the Ledger is shown lies in its records and in the register words. -/
theorem ledgerShown_of_same {d e : Dev} (hregs : e.regs = d.regs) (hled : e.led = d.led) (h : d.ledgerShown) : e.ledgerShown := by
  obtain ⟨hfresh, hchip, hover⟩ := h
  have hsize : e.ringSize = d.ringSize := by
    rw [Dev.ringSize, Dev.ringSize, Dev.lgDram, Dev.lgDram, Dev.fld_of_regs LEDGER.LG_CTRL_TARGET hregs]
  refine ⟨hled ▸ hfresh, hled ▸ hchip, ?_⟩
  rw [hsize, Dev.reg_of_regs _ hregs, Dev.reg_of_regs _ hregs, Dev.flag, Dev.fld_of_regs _ hregs]
  exact hover

/-! ### Power-on reset (R13, R56, R67, R70) -/

/-- A device with the words and the records of power-on reset is what the end of a command leaves. -/
theorem settle_of_powerOn {d : Dev} (hregs : d.regs = Dev.powerOn.regs) (hled : d.led = Dev.powerOn.led) : settle d = d :=
  settle_of_ledgerShown (ledgerShown_of_same hregs hled reset_ledgerShown)

/-- A command that only resets the device completes with the device reset. -/
theorem does_reset {c : Instr} {s : State} {e e' : Dev} (hc : exec c s = .next { s with dev := settle e' }) (he : e' = e)
    (hregs : e.regs = Dev.powerOn.regs) (hled : e.led = Dev.powerOn.led) : Does c s fun d => d = e :=
  does_of_effect hc he (settle_of_powerOn hregs hled)

/-! ### A change of units alone -/

theorem settle_phase (d : Dev) : (settle d).phase = d.phase := by have h := congrArg Dev.phase (settles d).units; exact h
theorem settle_sup (d : Dev) : (settle d).sup = d.sup := by have h := congrArg Dev.sup (settles d).units; exact h

/-- What a command leaves that wrote no word, raised no event and made no record; `d₀` is the device before it with the units that it
changed. -/
theorem Dev.Makes.settle_silent {d d₀ e : Dev} (h : d.Makes e [] [] []) (h₀ : d₀.regs = d.regs) (hu : d₀.keepsUnits e) :
    d.keepsRegs (settle e) [] ∧ d₀.keepsUnits (settle e) ∧ d.noRecord (settle e) :=
  ⟨h.settle_keepsRegs, h.settle_keepsUnits (by decide) h₀ hu, h.settle_noRecord (by decide)⟩

/-- The bring-up in its phase `p` (R67). -/
def Dev.inPhase (d : Dev) (p : SupplyPhase) : Dev := { d with phase := p }

/-- A command that only moves the bring-up on (R67). -/
theorem settle_inPhase (d : Dev) (p : SupplyPhase) :
    (settle (d.begun.inPhase p)).phase = p ∧ d.keepsRegs (settle (d.begun.inPhase p)) [] ∧
    (d.inPhase p).keepsUnits (settle (d.begun.inPhase p)) ∧ d.noRecord (settle (d.begun.inPhase p)) :=
  have hm : d.Makes (d.begun.inPhase p) [] [] [] := (Dev.Makes.begun d).frame rfl rfl rfl rfl
  ⟨settle_phase _, hm.settle_silent rfl ⟨rfl, fun _ => rfl⟩⟩

/-! ### Bring-up, pin reset and the loss of the supply (R67, R70, R87, R88) -/

/-- A trip that has not written its waypoint holds the device up while VINT stands at 3.0 V or more (R87). -/
def Dev.heldUp (d : Dev) : Bool :=
  match d.loss with
  | some l => l.written.isNone && decide (d.num SUPPLY.MON_VINT ≥ 3000)
  | none => false

theorem heldUp_of_none {d : Dev} (hl : d.loss = none) : d.heldUp = false := by
  simp only [Dev.heldUp, hl]

theorem heldUp_of_unwritten {d : Dev} {l : PowerLoss} (hl : d.loss = some l) (hw : l.written = none)
    (hv : 3000 ≤ d.num SUPPLY.MON_VINT) : d.heldUp = true := by
  simp only [Dev.heldUp, hl, hw, Option.isNone_none, Bool.true_and]
  exact decide_eq_true hv

/-- VIN falls below 4.1 V (R67, R87). -/
def Dev.supplyLost (d : Dev) : Dev := if d.heldUp then { d with answer := .ignored } else d.powerReset .off

theorem exec_supplyOff (s : State) : exec .supplyOff s = .next { s with dev := settle s.dev.begun.supplyLost } := rfl

/-- The restart after a loss whose waypoint was written or skipped at `t` (R88). -/
def Dev.restart (d : Dev) (below : Bool) (l : PowerLoss) (t : Time) : Dev :=
  if below then d.powerReset .off
  else match l.above with
    | none => d
    | some a => d.when (d.due (laterT t a + nsT 1000000)) fun d => d.powerReset .insertion

theorem exec_powerLossRestart {s : State} {l : PowerLoss} {t : Time} (below : Bool) (hl : s.dev.loss = some l)
    (hw : l.written = some t) : exec (.powerLossRestart below) s = .next { s with dev := settle (s.dev.begun.restart below l t) } := by
  refine congrArg (fun d => Host.Outcome.next { s with dev := settle d }) ?_
  dsimp only
  split
  case h_1 hnone => exact absurd (hl.symm.trans hnone) (by simp)
  case h_2 m hsome =>
    obtain rfl : l = m := Option.some.inj (hl.symm.trans hsome)
    split
    case h_1 hnone => exact absurd (hw.symm.trans hnone) (by simp)
    case h_2 u hu =>
      obtain rfl : t = u := Option.some.inj (hw.symm.trans hu)
      rfl

/-- VIN has stood above the threshold since `a`, for 1 ms of it after the waypoint (R88). -/
theorem restart_above {d : Dev} {l : PowerLoss} {t a : Time} (ha : l.above = some a)
    (hdue : d.due (laterT t a + nsT 1000000) = true) : d.restart false l t = d.powerReset .insertion := by
  simp only [Dev.restart, ha, Bool.false_eq_true, if_false]
  exact Dev.when_of_true d hdue _

/-- VIN_FAIL armed (R445). -/
def Dev.arm (d : Dev) : Dev := { d with sup := { d.sup with armed := true } }

theorem exec_vinFailArm {s : State} {t : Time} (ht : s.dev.sup.vinSince = some t) (hdue : s.dev.due (t + nsT 1000000) = true) :
    exec .vinFailArm s = .next { s with dev := settle s.dev.begun.arm } := by
  refine congrArg (fun d => Host.Outcome.next { s with dev := settle d }) ?_
  dsimp only
  split
  case h_1 hnone => exact absurd (ht.symm.trans hnone) (by simp)
  case h_2 u hsome =>
    obtain rfl : t = u := Option.some.inj (ht.symm.trans hsome)
    exact Dev.when_of_true s.dev.begun hdue Dev.arm

/-- Settles O9: a reset leaves the Ledger as power-on does, so that the end of the command adds nothing to it; the other commands change
the phase, the answer or the arming alone. -/
theorem supplyCommands : Obligations.SupplyCommands := by
  unfold Obligations.SupplyCommands
  intro s
  refine ⟨?rise, ?waited, ?ramped, ?off, ?held, ?pin, ?arm, ?below, ?above⟩
  case rise =>
    intro hoff
    exact does_reset rfl (Dev.when_of_true s.dev.begun (decide_eq_true hoff) fun d => d.powerReset .insertion) rfl rfl
  case waited =>
    intro hphase
    exact does_of_effect rfl (Dev.when_of_true s.dev.begun (decide_eq_true hphase) fun d => d.inPhase .ramp) (settle_inPhase s.dev .ramp)
  case ramped =>
    intro hphase
    exact does_of_effect rfl (Dev.when_of_true s.dev.begun (decide_eq_true hphase) fun d => d.inPhase .rails) (settle_inPhase s.dev .rails)
  case off =>
    intro hnone
    exact does_reset (exec_supplyOff s) (if_neg (ne_true_of_eq_false (heldUp_of_none (d := s.dev.begun) hnone))) rfl rfl
  case held =>
    intro l hl hw hv
    have hm : s.dev.Makes { s.dev.begun with answer := .ignored } [] [] [] := (Dev.Makes.begun s.dev).frame rfl rfl rfl rfl
    exact does_of_effect (exec_supplyOff s) (if_pos (heldUp_of_unwritten (d := s.dev.begun) hl hw hv)) ⟨settle_answer _, hm.settle_silent rfl ⟨rfl, fun _ => rfl⟩⟩
  case pin =>
    intro hgood
    exact does_reset rfl (Dev.when_of_true s.dev.begun (decide_eq_true hgood) fun d => { d.powerReset .pinReset with domUp := d.domUp })
      rfl rfl
  case arm =>
    intro t ht hdue
    have hm : s.dev.Makes s.dev.begun.arm [] [] [] := (Dev.Makes.begun s.dev).frame rfl rfl rfl rfl
    refine does_of_effect (exec_vinFailArm ht hdue) rfl ⟨settle_sup _, ?_⟩
    rw [settle_sup]
    exact hm.settle_silent rfl ⟨rfl, fun _ => rfl⟩
  case below =>
    intro l t hl hw
    exact does_reset (exec_powerLossRestart true hl hw) (e := s.dev.powerReset .off) rfl rfl rfl
  case above =>
    intro l t a hl hw ha hdue
    exact does_reset (exec_powerLossRestart false hl hw) (restart_above (d := s.dev.begun) ha hdue) rfl rfl

/-! ### The loader's reset and comparators that failed (R80, R130) -/

theorem settle_comps (d : Dev) : (settle d).comps = d.comps := by have h := congrArg Dev.comps (settles d).units; exact h

/-- Copy B has waited at a poll for 10 ms, with entries applied, and comparator 3 has failed its test. -/
def polledOut : Dev :=
  { loader := some { copyB := true, wait := some (.poll SYS.GC_STATUS 1 true), applied := true }
    comps := [(3, { failed := true })]
    time := { milepost := nsT 10000000 } }

/-- The configuration reset of R80 leaves the comparator failed, which it is until power-on reset (R130). -/
theorem loaderPollTimeout_polledOut {t : State} (ht : exec .loaderPollTimeout { dev := polledOut } = .next t) :
    t.dev.comps = [(3, { failed := true })] := by
  obtain rfl := Host.Outcome.next.inj ht
  rw [settle_comps]
  decide +kernel

/-- Refutes O10 in its clause of LOADER_POLL_TIMEOUT, which says that no comparator has any state after the configuration reset. A
comparator that failed its test stays failed through it (R80, R130). -/
theorem not_loaderCommands : ¬ Obligations.LoaderCommands := by
  unfold Obligations.LoaderCommands
  intro h
  obtain ⟨-, -, -, -, -, -, htimeout, -⟩ := h { dev := polledOut }
  obtain ⟨t, ht, -, -, -, -, ⟨-, -, -, hcomps, -⟩, -⟩ := htimeout _ _ _ _ rfl rfl rfl rfl (by decide +kernel)
  rw [loaderPollTimeout_polledOut ht] at hcomps
  exact absurd hcomps (by simp)

/-! ### What the stop at a trip reports (R88) -/

theorem Tab.get_filter_none {α : Type} (x : α) {k : Nat} {p : Nat × α → Bool} (h : ∀ v, p (k, v) = false) (t : Tab α) :
    Tab.get x k (t.filter p) = x := by
  induction t with
  | nil => rfl
  | cons q t ih =>
    obtain ⟨j, v⟩ := q
    by_cases hj : j = k
    · subst hj
      rw [List.filter_cons_of_neg (by rw [h]; decide), ih]
    · by_cases hp : p (j, v) = true
      · rw [List.filter_cons_of_pos hp, Tab.get, if_neg hj, ih]
      · rw [List.filter_cons_of_neg hp, ih]

/-- A word that is dropped reads its reset value. -/
theorem reg_dropRegs {d : Dev} {p : Nat → Bool} {k : Nat} (h : p k = true) : (d.dropRegs p).reg k = regReset k :=
  Tab.get_filter_none _ (fun _ => by simp [h]) d.regs

theorem each_faults {f : Dev → Nat → Dev} {l : List Nat} (d : Dev) (h : ∀ e, ∀ n ∈ l, (f e n).faults = e.faults) :
    (d.each l f).faults = d.faults :=
  List.foldlRecOn (motive := fun e => e.faults = d.faults) l f rfl fun e he n hn => (h e n hn).trans he

/-- No comparator of bank `k` makes a trip signal: no pair of it has TRIP_EN set (R121). -/
def Dev.tripless (d : Dev) (k : Nat) : Prop := ∀ n < 192, n / 48 = k → d.flag (COMP.PAIR_CFG_TRIP_EN n) = false

theorem tripless_tripOf {d : Dev} {k n : Nat} (h : d.tripless k) (hn : n < 192) (hk : n / 48 = k) : d.tripOf n = false := by
  rw [Dev.tripOf, h (n / 2 * 2) (by omega) (by omega), Bool.false_and]

theorem tripless_of_reg {d e : Dev} {k : Nat} (h : d.tripless k) (he : ∀ n, e.reg (COMP.PAIR_CFG n) = d.reg (COMP.PAIR_CFG n)) :
    e.tripless k := by
  intro n hn hk
  rw [Dev.flag, Dev.fld_of_reg (g := COMP.PAIR_CFG_TRIP_EN n) (he n)]
  exact h n hn hk

theorem pairCfg_ne_status (m n : Nat) : COMP.PAIR_CFG m ≠ COMP.CMP_STATUS n := by
  unfold COMP.PAIR_CFG COMP.CMP_STATUS; omega

theorem pairCfg_ne_out {m i : Nat} : COMP.PAIR_CFG m ≠ COMP.OUT i := by
  unfold COMP.PAIR_CFG COMP.OUT; omega

theorem pairCfg_ne_trip {m i : Nat} : COMP.PAIR_CFG m ≠ COMP.TRIP i := by
  unfold COMP.PAIR_CFG COMP.TRIP; omega

theorem setOutBit_pairCfg (d : Dev) (n : Nat) (b : Bool) (m : Nat) :
    (d.setOutBit n b).reg (COMP.PAIR_CFG m) = d.reg (COMP.PAIR_CFG m) :=
  (Dev.reg_setReg_ne _ pairCfg_ne_out _).trans (Dev.reg_setFld_ne (f := COMP.CMP_STATUS_OUT n) d (pairCfg_ne_status m n) _)

/-- A trip signal that falls, or stays low, reports nothing. -/
theorem showTrip_low {d : Dev} {n : Nat} (h : d.tripOf n = false) :
    (d.showTrip n).faults = d.faults ∧ ∀ m, (d.showTrip n).reg (COMP.PAIR_CFG m) = d.reg (COMP.PAIR_CFG m) := by
  have hshown (v : Word) : ((d.setFld (COMP.CMP_STATUS_TRIP n) 0).setReg (COMP.TRIP (n / 96 * 3 + n % 96 / 32)) v).faults = d.faults ∧
      ∀ m, ((d.setFld (COMP.CMP_STATUS_TRIP n) 0).setReg (COMP.TRIP (n / 96 * 3 + n % 96 / 32)) v).reg (COMP.PAIR_CFG m)
        = d.reg (COMP.PAIR_CFG m) :=
    ⟨rfl, fun m => (Dev.reg_setReg_ne _ pairCfg_ne_trip v).trans
      (Dev.reg_setFld_ne (f := COMP.CMP_STATUS_TRIP n) d (pairCfg_ne_status m n) 0)⟩
  unfold Dev.showTrip
  rw [h]
  dsimp only [Dev.when_false]
  split
  · exact ⟨rfl, fun _ => rfl⟩
  · exact Dev.when_cases (p := fun e => e.faults = d.faults ∧ ∀ m, e.reg (COMP.PAIR_CFG m) = d.reg (COMP.PAIR_CFG m)) _
      (hshown _) (hshown _)

theorem tripless_dropped (d : Dev) (k : Nat) :
    (d.dropRegs fun a => decide (COMP.CMP_CFG (48 * k) ≤ a) && decide (a < COMP.CMP_CFG (48 * k) + 0x600)).tripless k := by
  have hreset : ∀ n < 192, bitsOf (regReset (COMP.PAIR_CFG n)).toNat 8 8 = 0 := by decide +kernel
  intro n hn hb
  have hin : COMP.CMP_CFG (48 * k) ≤ COMP.PAIR_CFG n ∧ COMP.PAIR_CFG n < COMP.CMP_CFG (48 * k) + 0x600 := by
    unfold COMP.CMP_CFG COMP.PAIR_CFG
    omega
  have hword := reg_dropRegs (d := d) (p := fun a => decide (COMP.CMP_CFG (48 * k) ≤ a) && decide (a < COMP.CMP_CFG (48 * k) + 0x600))
    (k := COMP.PAIR_CFG n) (by simp [hin])
  simp only [Dev.flag, Dev.fld, Dev.num]
  rw [show (COMP.PAIR_CFG_TRIP_EN n).addr = COMP.PAIR_CFG n from rfl, hword, show (COMP.PAIR_CFG_TRIP_EN n).hi = 8 from rfl,
    show (COMP.PAIR_CFG_TRIP_EN n).lo = 8 from rfl, hreset n hn]
  rfl

/-- A comparator bank without power makes no trip signal any more. -/
theorem compOff_faults (d : Dev) {k : Nat} (hk : k < 4) : (d.compOff k).faults = d.faults := by
  unfold Dev.compOff
  dsimp only
  rw [Dev.setFld_faults]
  refine (List.foldlRecOn (motive := fun e : Dev => e.faults = d.faults ∧ e.tripless k) _ _
    ⟨?_, tripless_of_reg (tripless_dropped d k) fun _ => ?_⟩ fun e he n hn => ?_).1
  · rfl
  · rfl
  obtain ⟨hfaults, hnone⟩ := he
  obtain ⟨i, hi, rfl⟩ := List.mem_map.mp hn
  have hi : i < 48 := List.mem_range.mp hi
  have hout : (e.setOutBit (48 * k + i) false).tripless k := tripless_of_reg hnone (setOutBit_pairCfg e _ false)
  obtain ⟨hshow, hwords⟩ := showTrip_low (tripless_tripOf hout (by omega) (by omega : (48 * k + i) / 48 = k))
  exact ⟨hshow.trans hfaults, tripless_of_reg hout hwords⟩

theorem showTrims_faults (d : Dev) (h : Nat) : (d.showTrims h).faults = d.faults :=
  each_faults _ fun _ _ _ => rfl

theorem adcKeep_faults (old d : Dev) (h : Nat) : (Dev.adcKeep old d h).faults = d.faults := by
  unfold Dev.adcKeep
  rw [showTrims_faults]
  split <;> rfl

theorem zeroRange_faults (d : Dev) (base size : Nat) : (d.zeroRange base size).faults = d.faults := rfl

theorem adcOff_faults (d : Dev) (h : Nat) : (d.adcOff h).faults = d.faults := by
  unfold Dev.adcOff
  dsimp only
  rw [Dev.setFld_faults, zeroRange_faults, adcKeep_faults]
  rfl

theorem dramOff_faults (d : Dev) (c : Nat) : (d.dramOff c).faults = d.faults := by
  rw [Dev.dramOff, Dev.setDramState]
  split <;> rfl

theorem engBankOff_faults (d : Dev) (k : Nat) : (d.engBankOff k).faults = d.faults := by
  have hmap (e : Dev) (a i : Nat) (b : Bool) : (e.setMapBit a i b).faults = e.faults := rfl
  unfold Dev.engBankOff
  dsimp only
  rw [hmap, each_faults _ fun e n _ => hmap e _ _ _]
  exact each_faults d fun _ _ _ => rfl

/-- The domains that VIN_FAIL powers down: the ADC halves, the comparator banks, the host block and the DRAM channels. -/
theorem domLose_faults (d : Dev) {n : Nat} (hlo : 36 ≤ n) (hhi : n < 55) : (d.domLose n).faults = d.faults := by
  by_cases hadc : n < 48
  · rw [Dev.domLose]
    iterate 9 rw [if_neg (by omega)]
    rw [if_pos hadc]
    exact adcOff_faults d _
  by_cases hcomp : n < 52
  · rw [Dev.domLose]
    iterate 10 rw [if_neg (by omega)]
    rw [if_pos hcomp]
    exact compOff_faults d (by omega)
  · rw [Dev.domLose]
    iterate 11 rw [if_neg (by omega)]
    rw [if_pos hhi]
    split
    · rfl
    · exact dramOff_faults d _

theorem domDown_faults (d : Dev) {n : Nat} (hlo : 36 ≤ n) (hhi : n < 55) : (d.domDown n).faults = d.faults :=
  domLose_faults d hlo hhi

/-- The stop at a trip reports nothing of its own. -/
theorem lossStop_faults (d : Dev) : d.lossStop.faults = d.faults := by
  have hdomains : ∀ n ∈ [53, 54, 52] ++ (List.range 16).map (36 + ·), 36 ≤ n ∧ n < 55 := by decide
  have hring (e : Dev) (r : Nat) : (e.ringOff r).faults = e.faults := rfl
  have hblock (e : Dev) (b : Nat) : (e.resetBlock b).faults = e.faults := rfl
  unfold Dev.lossStop
  dsimp only
  rw [each_faults _ fun e n hn => domDown_faults e (hdomains n hn).1 (hdomains n hn).2, each_faults _ fun e n _ => engBankOff_faults e n,
    hblock, hring, hring, each_faults _ fun e t _ => Dev.setFld_faults e _ _]

/-! ### A page program in progress when VIN fails (R87, R88, R367) -/

theorem each_same {f : Dev → Nat → Dev} {d : Dev} {l : List Nat} (h : ∀ n ∈ l, f d n = d) : d.each l f = d :=
  List.foldlRecOn (motive := fun e => e = d) l f rfl fun _ he n hn => he ▸ h n hn

/-- A trip shown, reported and recorded (R87). -/
def Dev.tripNoted (d : Dev) (vin : Nat) : Dev :=
  ((((d.hardwire).setNum SUPPLY.MON_VIN vin).raise 0).report 0 0).sysRec SUPPLY.MON_VIN (d.reg SUPPLY.MON_VIN)

/-- A trip reports source 0, and what the page program in progress finds in its buffer. -/
theorem vinTrip_faults (d : Dev) (vin : Nat) : (d.vinTrip vin).faults = (d.tripNoted vin).flashHold.faults := by
  unfold Dev.vinTrip
  dsimp only
  rw [lossStop_faults]
  rfl

/-- VIN_FAIL is armed and every output stands at its safe level; the page program in progress takes its byte from a word of shared SRAM
whose code is uncorrectable. -/
def tornPage : Dev :=
  { ((({} : Dev).setFld MEMCTL.SRAM_STATUS_READY 255).setFld SUPPLY.VIN_FAIL_CFG_THRESH 200) with
    sup := { armed := true }
    outs := (List.range 96).map fun o => (o, { level := .hiz })
    ecc := [(0x10000000, 2)]
    flash := { ops := [{ op := .program, addr := 0x901000, len := 1, buf := 0x10000000, copyB := false, agent := 0 }] } }

theorem tornPage_hardwire : tornPage.hardwire = { tornPage with hardSafe := true } :=
  each_same (d := { tornPage with hardSafe := true }) (by decide +kernel)

/-- The page program takes its buffer as VIN fails, and the code that it finds there is reported as source 0x11. -/
theorem vinFail_tornPage {t : State} (ht : exec (.vinFail 999) { dev := tornPage } = .next t) :
    t.dev.faults = [{ src := 0, unit := 0, stamp := 0 }, { src := 0x11, unit := 8, stamp := 0 }] := by
  have hexec : exec (.vinFail 999) { dev := tornPage } = .next { dev := settle (tornPage.vinTrip 999) } :=
    congrArg (fun d => Host.Outcome.next ({ dev := settle d } : State)) (Dev.when_of_true tornPage (by decide +kernel) _)
  obtain rfl := Host.Outcome.next.inj (hexec.symm.trans ht)
  rw [settle_faults, vinTrip_faults, Dev.tripNoted, tornPage_hardwire]
  decide +kernel

/-- Refutes O11 in its clause of VIN_FAIL, which says that source 0 alone is reported. A page program in progress takes its buffer at the
trip (R88); where a byte of it is uncorrectable, that is reported as source 0x11 at once (R367). -/
theorem not_powerLossCommands : ¬ Obligations.PowerLossCommands := by
  unfold Obligations.PowerLossCommands
  intro h
  obtain ⟨hfail, -⟩ := h { dev := tornPage }
  obtain ⟨t, ht, -, -, -, -, hfaults, -⟩ := hfail 999 rfl (by decide +kernel)
  rw [vinFail_tornPage ht] at hfaults
  exact absurd hfaults (by decide +kernel)

/-! ### Bytes of the flash at the end of a command -/

theorem settle_norBytes (d : Dev) (a n : Nat) : (settle d).norBytes a n = d.norBytes a n := by
  have hnor : (settle d).flash.nor = d.flash.nor := by
    have h := congrArg (fun e : Dev => e.flash.nor) (settles d).units
    exact h
  simp only [Dev.norBytes, Dev.nor, hnor]

/-! ### A page program that finishes after a trip (R88, R93) -/

/-- A page program of one byte, which it took at a trip: 0x0F. -/
def heldPage : FlashOp :=
  { op := .program, addr := 0x901000, len := 1, buf := 0x10000000, copyB := false, agent := 0, data := some [0x0F] }

/-- The page program is in progress, and its buffer in shared SRAM holds 0x00 by now. -/
def pageHeld : Dev := { ({} : Dev).setFld MEMCTL.SRAM_STATUS_READY 255 with flash := { ops := [heldPage] } }

/-- The byte taken at the trip is programmed (R88). -/
theorem flashOpDone_pageHeld {t : State} (ht : exec .flashOpDone { dev := pageHeld } = .next t) :
    t.dev.norBytes 0x901000 1 = [0x0F] := by
  obtain rfl := Host.Outcome.next.inj ht
  rw [settle_norBytes]
  decide +kernel

/-- Refutes O12 in its clause of a PROGRAM within one page, which programs the bytes that the buffer holds at FLASH_OP_DONE. A page program
in progress at a trip has taken its bytes already (R88), and the buffer may hold others since. -/
theorem not_flashCommands : ¬ Obligations.FlashCommands := by
  unfold Obligations.FlashCommands
  intro h
  obtain ⟨-, -, -, -, -, -, -, -, hprogram⟩ := h { dev := pageHeld }
  obtain ⟨t, ht, -, -, -, -, -, -, hbytes, -⟩ := hprogram heldPage [] rfl rfl (by decide) (by decide) (by decide) rfl (by decide)
    (by decide) rfl (by decide +kernel)
  exact absurd ((flashOpDone_pageHeld ht).symm.trans hbytes) (by decide +kernel)

/-! ### A journal sector that is not blank (R85) -/

/-- An entry waits, and the head stands at the first place of a sector: the place is erased, the next one is not. -/
def soiledSector : Dev := { flash := { queue := [⟨.persist, [1, 2, 3]⟩], nor := [(flashJournal + 0x40, 0)] } }

/-- Nothing is written into the sector, which is to be erased first (R85). -/
theorem journalAppend_soiledSector {t : State} (ht : exec .journalAppend { dev := soiledSector } = .next t) :
    t.dev.norBytes (soiledSector.jAddr 0) 63 = List.replicate 63 0xFF := by
  obtain rfl := Host.Outcome.next.inj ht
  rw [settle_norBytes]
  decide +kernel

/-- Refutes O13 in its clause of JOURNAL_APPEND, which asks only that the place at the head be erased. At the first place of a sector the
whole sector must be blank (R85); where a later byte of it is programmed, the entry waits. -/
theorem not_journalCommands : ¬ Obligations.JournalCommands := by
  unfold Obligations.JournalCommands
  intro h
  obtain ⟨happend, -⟩ := h { dev := soiledSector }
  obtain ⟨t, ht, -, hentry, -⟩ := happend ⟨.persist, [1, 2, 3]⟩ [] rfl (by decide) (by decide) rfl (by decide +kernel) rfl
  exact absurd ((journalAppend_soiledSector ht).symm.trans hentry) (by decide +kernel)

end Sys2Proof.Machine

/-! ## Analog inputs (spec/04): sampling and delivery of an ADC channel -/

namespace Sys2Proof.Machine

/-! ### Channels at the end of a command -/

theorem settle_adcs (d : Dev) : (settle d).adcs = d.adcs := by have h := congrArg Dev.adcs (settles d).units; exact h
theorem settle_adcTrig (d : Dev) : (settle d).adcTrig = d.adcTrig := by have h := congrArg Dev.adcTrig (settles d).units; exact h

theorem settle_adc (d : Dev) (c : Nat) : (settle d).adc c = d.adc c := congrArg (Tab.get ({} : AdcSt) c) (settle_adcs d)

theorem adc_setAdc_self (d : Dev) (c : Nat) (x : AdcSt) : (d.setAdc c x).adc c = x := Tab.get_set_self ({} : AdcSt) c x d.adcs

theorem setAdc_keeps (d : Dev) (c : Nat) (x : AdcSt) : Tab.keeps {} [c] d.adcs (d.setAdc c x).adcs :=
  fun _ hk => Tab.get_set_ne {} {} (List.ne_of_not_mem_cons hk) x d.adcs

theorem Dev.Makes.setAdc {d e : Dev} {l ids : List Nat} {rs : List Record} (h : d.Makes e l ids rs) (c : Nat) (x : AdcSt) :
    d.Makes (e.setAdc c x) l ids rs := h.frame rfl rfl rfl rfl

/-- From `d` to `e` no unit changed but channel `c`, which became `x`. -/
structure Dev.ChannelSet (d e : Dev) (c : Nat) (x : AdcSt) : Prop where
  adc : e.adc c = x
  others : Tab.keeps {} [c] d.adcs e.adcs
  units : { d with adcs := e.adcs }.keepsUnits e

namespace Dev.ChannelSet

variable {d e : Dev} {c : Nat} {x : AdcSt}

theorem begun (d : Dev) (c : Nat) : d.ChannelSet d.begun c (d.adc c) := ⟨rfl, fun _ _ => rfl, rfl, fun _ => rfl⟩

theorem setAdc (h : d.ChannelSet e c x) (y : AdcSt) : d.ChannelSet (e.setAdc c y) c y :=
  ⟨adc_setAdc_self e c y, fun k hk => (setAdc_keeps e c y k hk).trans (h.others k hk),
    congrArg (fun u : Dev => { u with adcs := (e.setAdc c y).adcs }) h.units.1, h.units.2⟩

theorem setReg (h : d.ChannelSet e c x) (a : Nat) (v : Word) : d.ChannelSet (e.setReg a v) c x :=
  ⟨h.adc, h.others, h.units.setReg a v⟩

theorem setFld (h : d.ChannelSet e c x) (f : Fld) (n : Nat) : d.ChannelSet (e.setFld f n) c x := h.setReg _ _

/-- What a command leaves of the units is there at its end. -/
theorem settle {l ids : List Nat} {rs : List Record} (h : d.ChannelSet e c x) (hm : d.Makes e l ids rs) (hl : LEDGER.LG_CTRL ∉ l) :
    d.ChannelSet (Machine.settle e) c x :=
  ⟨(settle_adc e c).trans h.adc, settle_adcs e ▸ h.others, settle_adcs e ▸ hm.settle_keepsUnits hl rfl h.units⟩

end Dev.ChannelSet

/-! ### A sample captured (R95 to R98) -/

/-- The sample of channel `c` at `t`, of an input of `vd` nanovolts: its word, its number and the words in force (R97, R103). -/
def Dev.sampleOf (d : Dev) (c : Nat) (t : Time) (vd : Int) : Sample where
  t := t
  word := adcWord (d.adcInput c vd) (d.adc c).newcfg (d.reg (ADC.CH_COUNT c))
  num := d.reg (ADC.CH_COUNT c)
  lim := d.reg (ADC.CH_WIN_LIM c)
  cfg := d.reg (ADC.CH_WIN_CFG c)
  strm := d.reg (ADC.CH_STREAM c)

/-- A channel that has taken the sample `m`, which converts. -/
def AdcSt.captured (x : AdcSt) (m : Sample) : AdcSt :=
  { x with prev := some m.t, newcfg := false, conv := x.conv ++ [m], taken := (m :: x.taken).take 8 }

theorem capture_eq (d : Dev) (c : Nat) (t : Time) (vd : Int) :
    d.capture c t vd = (d.setAdc c ((d.adc c).captured (d.sampleOf c t vd))).wrapNum (ADC.CH_COUNT c) := rfl

/-- The words of channel `c` that a sample is made of. -/
def sampleKeys (c : Nat) : List Nat := [ADC.CH_CFG c, ADC.CH_COUNT c, ADC.CH_WIN_LIM c, ADC.CH_WIN_CFG c, ADC.CH_STREAM c]

/-- A sample rests on these words and on whether the configuration is new. -/
theorem sampleOf_congr {d e : Dev} {c : Nat} (hr : ∀ k ∈ sampleKeys c, e.reg k = d.reg k) (hn : (e.adc c).newcfg = (d.adc c).newcfg)
    (t : Time) (vd : Int) : e.sampleOf c t vd = d.sampleOf c t vd := by
  simp only [sampleKeys, List.forall_mem_cons] at hr
  obtain ⟨hcfg, hcount, hlim, hwin, hstream, -⟩ := hr
  have hfld (f : Fld) (hf : f.addr = ADC.CH_CFG c) : e.fld f = d.fld f := Dev.fld_of_reg (hf ▸ hcfg)
  have hinput : e.adcInput c vd = d.adcInput c vd := by
    simp only [Dev.adcInput, hfld (ADC.CH_CFG_INPUT c) rfl, hfld (ADC.CH_CFG_GAIN c) rfl]
  simp only [Dev.sampleOf, hinput, hn, hcount, hlim, hwin, hstream]

/-- The registers of a channel lie in its ADC block (R116). -/
theorem channelKey_block (c : Fin 96) {o : Nat} (ho : o < 0x40) :
    (0x100100 + o + 0x10000 * (c.val / 16) + 0x40 * (c.val % 16)) / 0x10000 = 0x10 + c.val / 16 := by
  omega

theorem chCount_block (c : Fin 96) : ADC.CH_COUNT c / 0x10000 = 0x10 + c.val / 16 := channelKey_block c (o := 0x2C) (by decide)

/-- From `d` to `e` channel `c` became `x` and counted a sample, with no other word changed but those at the keys in `l`. -/
def Dev.Sampled (d e : Dev) (c : Nat) (x : AdcSt) (l : List Nat) : Prop :=
  e.adc c = x ∧ e.reg (ADC.CH_COUNT c) = d.reg (ADC.CH_COUNT c) + 1 ∧ Tab.keeps {} [c] d.adcs e.adcs ∧
  { d with adcs := e.adcs }.keepsUnits e ∧ d.noRecord e ∧ d.keepsRegs e (ADC.CH_COUNT c :: l)

/-- A capture at the end of its command, whatever the command did to the channel before it. -/
theorem settle_capture {d e : Dev} {c : Fin 96} {x : AdcSt} {l : List Nat} (hx : d.ChannelSet e c x) (hm : d.Makes e l [] [])
    (hn : x.newcfg = (d.adc c).newcfg) (hl : ∀ k ∈ LEDGER.LG_CTRL :: LEDGER.LG_NEXT_SEQ :: sampleKeys c, k ∉ l) (t : Time) (vd : Int) :
    d.Sampled (settle (e.capture c t vd)) c (x.captured (d.sampleOf c t vd)) l := by
  simp only [List.forall_mem_cons] at hl
  obtain ⟨hctrl, hseq, hkeys⟩ := hl
  have hblock := chCount_block c
  have hledger (k : Nat) (hk : k / 0x10000 = 1) : ADC.CH_COUNT c ≠ k := by rintro rfl; omega
  have hctrl' : LEDGER.LG_CTRL ∉ ADC.CH_COUNT c :: l := List.not_mem_cons_of_ne_of_not_mem (hledger _ (by decide)).symm hctrl
  have hseq' : LEDGER.LG_NEXT_SEQ ∉ ADC.CH_COUNT c :: l := List.not_mem_cons_of_ne_of_not_mem (hledger _ (by decide)).symm hseq
  have hsample : e.sampleOf c t vd = d.sampleOf c t vd := sampleOf_congr (fun k hk => hm.regs k (hkeys k hk)) (hx.adc ▸ hn) t vd
  have hcount : (e.capture c t vd).reg (ADC.CH_COUNT c) = d.reg (ADC.CH_COUNT c) + 1 := by
    rw [← hm.regs _ (hkeys _ (by simp [sampleKeys])), capture_eq]
    exact Dev.reg_setReg_self _ _ _
  have hmade : d.Makes (e.capture c t vd) (ADC.CH_COUNT c :: l) [] [] :=
    ((Dev.Makes.mk (fun k hk => hm.regs k fun h => hk (List.mem_cons_of_mem _ h)) hm.events hm.fresh hm.chip).setAdc c _).setReg
      List.mem_cons_self _
  have hset : d.ChannelSet (e.capture c t vd) c (x.captured (d.sampleOf c t vd)) := by
    rw [← hsample, ← hx.adc]
    exact (hx.setAdc _).setReg _ _
  obtain ⟨hadc, hothers, hunits⟩ := hset.settle hmade hctrl'
  exact ⟨hadc, (settle_reg _ _ (by omega) (by omega)).trans hcount, hothers, hunits, hmade.settle_noRecord hseq', hmade.settle_keepsRegs⟩

/-! ### The instant of a channel (R98 to R102) -/

/-- The channel with the trigger instants `l` pending. -/
def AdcSt.withTrigs (x : AdcSt) (l : List TrigAt) : AdcSt := { x with trigs := l }

/-- A trigger instant that is reached, taken from those that wait; a late one is counted (R101). -/
def Dev.trigTaken (d : Dev) (c : Nat) (g : TrigAt) (rest : List TrigAt) : Dev :=
  match g.late with
  | some t => (d.setAdc c ((d.adc c).withTrigs rest)).adcLate c t g.at_
  | none => d.setAdc c ((d.adc c).withTrigs rest)

/-- The oldest trigger instant sampled, where it is reached. -/
def Dev.trigSample (d : Dev) (c : Nat) (vd : Int) : List TrigAt → Dev
  | [] => d
  | g :: rest => d.when (d.due g.at_) fun d => (d.trigTaken c g rest).capture c g.at_ vd

/-- The next instant of a channel sampled, by its MODE. -/
def Dev.modeSample (d : Dev) (c : Nat) (vd : Int) : Nat → Dev
  | 1 => d.when (d.due (d.contNext c)) fun d => d.capture c (d.contNext c) vd
  | 2 => d.trigSample c vd (d.adc c).trigs
  | 3 => d.timedSample c vd
  | _ => d

theorem modeSample_cont {d : Dev} {c : Nat} (vd : Int) (hdue : d.due (d.contNext c) = true) :
    d.modeSample c vd 1 = d.capture c (d.contNext c) vd := by
  rw [Dev.modeSample, Dev.when_of_true _ hdue]

/-- The oldest trigger instant of a channel in TRIG mode, reached, is taken and sampled. -/
theorem modeSample_trig {d : Dev} {c : Nat} (vd : Int) {g : TrigAt} {rest : List TrigAt} (htrigs : (d.adc c).trigs = g :: rest)
    (hdue : d.due g.at_ = true) : d.modeSample c vd 2 = (d.trigTaken c g rest).capture c g.at_ vd := by
  rw [Dev.modeSample, htrigs, Dev.trigSample, Dev.when_of_true _ hdue]

theorem trigTaken_onTime (d : Dev) (c : Nat) {g : TrigAt} (rest : List TrigAt) (hlate : g.late = none) :
    d.trigTaken c g rest = d.setAdc c ((d.adc c).withTrigs rest) := by
  rw [Dev.trigTaken, hlate]

theorem trigTaken_late (d : Dev) (c : Nat) {g : TrigAt} (rest : List TrigAt) {t : Time} (hlate : g.late = some t) :
    d.trigTaken c g rest = (d.setAdc c ((d.adc c).withTrigs rest)).adcLate c t g.at_ := by
  rw [Dev.trigTaken, hlate]

theorem exec_adcSampleInstant (c : Fin 96) (vd : Int) (s : State) : exec (.adcSampleInstant c vd) s =
    s.onDev fun d => d.when (decide (d.adcRun c = 1)) fun d => d.modeSample c vd (d.adcMode c) := rfl

/-- An operating channel samples by its MODE. -/
theorem does_sampleInstant {s : State} {c : Fin 96} {vd : Int} {m : Nat} {e : Dev} {P : Dev → Prop} (hrun : s.dev.adcRun c = 1)
    (hmode : s.dev.adcMode c = m) (he : s.dev.begun.modeSample c vd m = e) (hp : P (settle e)) : Does (.adcSampleInstant c vd) s P := by
  subst hmode
  exact does_of_effect (exec_adcSampleInstant c vd s) ((Dev.when_of_true _ (decide_eq_true hrun) _).trans he) hp

/-! ### A late sample (R25, R101) -/

/-- The words in which channel `c` shows a late sample. -/
def lateKeys (c : Nat) : List Nat :=
  [ADC.CH_STATUS c, MILEPOST.LATE_COUNT, MILEPOST.LATE_LAST, MILEPOST.LATE_LAST + 4, MILEPOST.LATE_SRC, MILEPOST.MP_FLAGS]

theorem chStatus_block (c : Fin 96) : ADC.CH_STATUS c / 0x10000 = 0x10 + c.val / 16 := channelKey_block c (o := 0x30) (by decide)

/-- None of them is a word that a sample is made of, nor one of the Ledger. -/
theorem lateKeys_apart (c : Fin 96) : ∀ k ∈ LEDGER.LG_CTRL :: LEDGER.LG_NEXT_SEQ :: sampleKeys c, k ∉ lateKeys c := by
  intro k hk hmem
  simp only [sampleKeys, lateKeys, List.mem_cons, List.not_mem_nil, or_false, LEDGER.LG_CTRL, LEDGER.LG_NEXT_SEQ, ADC.CH_CFG,
    ADC.CH_COUNT, ADC.CH_WIN_LIM, ADC.CH_WIN_CFG, ADC.CH_STREAM, ADC.CH_STATUS, MILEPOST.LATE_COUNT, MILEPOST.LATE_LAST,
    MILEPOST.LATE_SRC, MILEPOST.MP_FLAGS] at hk hmem
  omega

theorem Dev.Makes.adcLate {d e : Dev} {ids : List Nat} {rs : List Record} {c : Nat} (h : d.Makes e (lateKeys c) ids rs)
    (target t : Time) : d.Makes (e.adcLate c target t) (lateKeys c) ids rs :=
  (((((h.setNum (by simp [lateKeys]) _).setReg (by simp [lateKeys]) _).setReg (by simp [lateKeys]) _).setNum
    (by simp [lateKeys]) _).setFld (f := MILEPOST.MP_FLAGS_LATE) (by simp [lateKeys, MILEPOST.MP_FLAGS_LATE]) 1).setFld
    (f := ADC.CH_STATUS_LATE c) List.mem_cons_self 1

theorem Dev.ChannelSet.adcLate {d e : Dev} {c : Nat} {x : AdcSt} (h : d.ChannelSet e c x) (target t : Time) :
    d.ChannelSet (e.adcLate c target t) c x :=
  (((((h.setReg _ _).setReg _ _).setReg _ _).setReg _ _).setFld _ 1).setFld _ 1

theorem capture_reg_ne (d : Dev) (c : Nat) (t : Time) (vd : Int) {k : Nat} (hk : k ≠ ADC.CH_COUNT c) :
    (d.capture c t vd).reg k = d.reg k :=
  Dev.reg_setReg_ne (d.setAdc c ((d.adc c).captured (d.sampleOf c t vd))) hk _

/-- A late sample at the end of its command: LATE, and the lateness counted. -/
theorem settle_lateCapture (d : Dev) (c : Fin 96) (target t : Time) (vd : Int) :
    let e := settle ((d.adcLate c target t).capture c t vd)
    e.flag (ADC.CH_STATUS_LATE c) = true ∧ e.num MILEPOST.LATE_COUNT = satInc 0xFFFFFFFF (d.num MILEPOST.LATE_COUNT) ∧
    e.reg64 MILEPOST.LATE_LAST = target ∧ e.flag MILEPOST.MP_FLAGS_LATE = true := by
  intro e
  have hcount := chCount_block c
  have hstatus := chStatus_block c
  have hlate (k : Nat) (hk : k / 0x10000 = 2) : e.reg k = (d.lateAct (0x10 + c / 16) target t).reg k := by
    rw [settle_reg _ _ (by omega) (by omega), capture_reg_ne _ _ _ _ (by rintro rfl; omega), Dev.adcLate,
      Dev.reg_setFld_ne _ (by rintro rfl; simp only [ADC.CH_STATUS_LATE] at hk; omega)]
  refine ⟨?_, ?_, ?_, ?_⟩
  · have hkept : e.reg (ADC.CH_STATUS c) = (d.adcLate c target t).reg (ADC.CH_STATUS c) := by
      rw [settle_reg _ _ (by omega) (by omega), capture_reg_ne _ _ _ _ (by simp only [ADC.CH_STATUS, ADC.CH_COUNT]; omega)]
    rw [Dev.flag, Dev.fld_of_reg (g := ADC.CH_STATUS_LATE c) hkept]
    exact Dev.flag_setFld_one _ (ADC.CH_STATUS_LATE c) (le_refl 8) (by decide : 8 < 32)
  · rw [Dev.num, hlate _ (by decide)]
    exact lateAct_count _ _ _ _
  · rw [Dev.reg64, hlate _ (by decide), hlate _ (by decide)]
    exact lateAct_last _ _ _ _
  · rw [Dev.flag, Dev.fld_of_reg (g := MILEPOST.MP_FLAGS_LATE) (hlate _ (by decide))]
    exact lateAct_flag _ _ _ _

/-! ### The TIMED occurrence (R28, R29, R102) -/

/-- The schedule of channel `c` and whether it fell behind, once its occurrence is taken. -/
def Dev.timedNext (d : Dev) (c : Nat) : Sched × Bool :=
  (d.adc c).sched.advance (d.fld (ADC.CH_SCHED_CATCHUP c)) (d.fld (ADC.CH_SCHED_BEHIND c)) (d.timedAt c)

/-- The channel with its schedule moved on. -/
def Dev.timedMoved (d : Dev) (c : Nat) : AdcSt := { d.adc c with sched := (d.timedNext c).1 }

/-- BEHIND = 0 raises nothing (R29). -/
theorem advance_fire_zero (s : Sched) (catchup : Nat) (applied : Time) : (s.advance catchup 0 applied).2 = false := by
  simp [Sched.advance]

theorem timedSample_onTime {d : Dev} {c : Nat} (vd : Int) (hdue : d.due (d.timedAt c) = true)
    (hontime : before (d.timedTarget c) (d.timedAt c) = false) (hbehind : d.fld (ADC.CH_SCHED_BEHIND c) = 0) :
    d.timedSample c vd = (d.setAdc c (d.timedMoved c)).capture c (d.timedAt c) vd := by
  have hnext : (d.adc c).sched.advance (d.fld (ADC.CH_SCHED_CATCHUP c)) (d.fld (ADC.CH_SCHED_BEHIND c)) (d.timedAt c)
      = ((d.timedNext c).1, false) := by
    refine Prod.ext rfl ?_
    rw [hbehind]
    exact advance_fire_zero _ _ _
  simp only [Dev.timedSample, hdue, hnext, hontime, Dev.when_true, Dev.when_false]
  rfl

theorem settle_timedCapture (d : Dev) (c : Fin 96) (vd : Int) :
    d.Sampled (settle ((d.begun.setAdc c (d.timedMoved c)).capture c (d.timedAt c) vd)) c
      ((d.timedMoved c).captured (d.sampleOf c (d.timedAt c) vd)) [] :=
  settle_capture ((Dev.ChannelSet.begun d c).setAdc (d.timedMoved c)) ((Dev.Makes.begun d).setAdc c (d.timedMoved c)) rfl (by simp)
    (d.timedAt c) vd

/-! ### A trigger that arrives (R101) -/

/-- A trigger off its way to a channel. -/
def Dev.trigOff (d : Dev) (p : Nat × Time) : Dev := { d with adcTrig := d.adcTrig.erase p }

/-- The oldest trigger on its way to channel `c`, which arrives `lead` ns before its event. -/
def Dev.trigArrives (d : Dev) (c lead : Nat) : Option (Nat × Time) → Dev
  | none => d
  | some p => (d.trigOff p).when (decide (d.adcRun c = 1) && decide (d.adcMode c = 2)) fun d =>
    d.adcTrigger c p.2 (p.2 - nsT (max 1 lead))

theorem exec_adcTrigger (c : Fin 96) (lead : Nat) (s : State) : exec (.adcTrigger c lead) s =
    s.onDev fun d => d.trigArrives c lead (d.adcTrig.find? fun y => decide (y.1 = c.val)) := rfl

/-- A trigger that reaches an operating channel in TRIG mode. -/
theorem does_adcTrigger {s : State} {c : Fin 96} {lead : Nat} {p : Nat × Time} {e : Dev} {P : Dev → Prop}
    (hfind : s.dev.adcTrig.find? (fun y => decide (y.1 = c.val)) = some p) (hrun : s.dev.adcRun c = 1) (hmode : s.dev.adcMode c = 2)
    (he : (s.dev.begun.trigOff p).adcTrigger c p.2 (p.2 - nsT (max 1 lead)) = e) (hp : P (settle e)) : Does (.adcTrigger c lead) s P := by
  have hruns : (decide (s.dev.begun.adcRun c = 1) && decide (s.dev.begun.adcMode c = 2)) = true :=
    Bool.and_eq_true_iff.mpr ⟨decide_eq_true hrun, decide_eq_true hmode⟩
  have harrives : s.dev.begun.trigArrives c lead (s.dev.adcTrig.find? fun y => decide (y.1 = c.val)) = e := by
    rw [hfind, Dev.trigArrives, Dev.when_of_true _ hruns, he]
  exact does_of_effect (exec_adcTrigger c lead s) harrives hp

/-- A trigger in time, at a channel where none waits and none was sampled, adds its instant. -/
theorem adcTrigger_first {d : Dev} {c : Nat} {e a : Time} (htrigs : (d.adc c).trigs = []) (hprev : (d.adc c).prev = none)
    (htime : dist (a + nsT 2) (e + nsT (d.fld (ADC.CH_TRIG_DELAY c))) ≥ 0) :
    d.adcTrigger c e a = d.setAdc c ((d.adc c).withTrigs [⟨e + nsT (d.fld (ADC.CH_TRIG_DELAY c)), false, none⟩]) := by
  simp [Dev.adcTrigger, AdcSt.withTrigs, htrigs, hprev, not_lt.mpr htime]

/-- A trigger is dropped where an instant was already moved (R101). -/
theorem adcTrigger_drop {d : Dev} {c : Nat} (e a : Time) (hmoved : (d.adc c).trigs.any TrigAt.moved = true) :
    d.adcTrigger c e a = d.incFld (ADC.CH_DROPS_TRIG_DROP c) := if_pos hmoved

theorem chDrops_block (c : Fin 96) : ADC.CH_DROPS c / 0x10000 = 0x10 + c.val / 16 := channelKey_block c (o := 0x34) (by decide)

/-- A trigger dropped, at the end of its command: it is counted, and nothing else changes. -/
theorem settle_trigDrop (d : Dev) (c : Fin 96) :
    let e := settle (d.begun.incFld (ADC.CH_DROPS_TRIG_DROP c))
    d.keepsUnits e ∧ d.noRecord e ∧
    e.fld (ADC.CH_DROPS_TRIG_DROP c) = satInc 0xFFFF (d.fld (ADC.CH_DROPS_TRIG_DROP c)) ∧ d.keepsRegs e [ADC.CH_DROPS c] := by
  intro e
  have hblock := chDrops_block c
  have haddr : (ADC.CH_DROPS_TRIG_DROP c).addr = ADC.CH_DROPS c := rfl
  have hm : d.Makes (d.begun.incFld (ADC.CH_DROPS_TRIG_DROP c)) [ADC.CH_DROPS c] [] [] :=
    (Dev.Makes.begun d).setFld (f := ADC.CH_DROPS_TRIG_DROP c) List.mem_cons_self _
  have hledger (k : Nat) (hk : k / 0x10000 = 1) : k ∉ [ADC.CH_DROPS c] := by
    rw [List.mem_singleton]
    rintro rfl
    omega
  have hunits : d.keepsUnits d.begun := ⟨rfl, fun _ => rfl⟩
  have hcap := satInc_le 0xFFFF (d.fld (ADC.CH_DROPS_TRIG_DROP c))
  refine ⟨hm.settle_keepsUnits (hledger _ (by decide)) rfl (hunits.setFld _ _), hm.settle_noRecord (hledger _ (by decide)), ?_,
    hm.settle_keepsRegs⟩
  have hfits : satInc 0xFFFF (d.fld (ADC.CH_DROPS_TRIG_DROP c)) < 2 ^ 16 := by omega
  rw [settle_fld _ _ (by omega) (by omega)]
  exact Dev.fld_setFld_of_lt d.begun (ADC.CH_DROPS_TRIG_DROP c) _ (by decide : 0 ≤ 15) (by decide : 15 < 32) hfits

/-- Settles O14: an instant that is reached captures one sample, after what its MODE does to the channel first, and a trigger that arrives
either adds its instant or is counted as dropped. -/
theorem adcSampling : Obligations.AdcSampling := by
  unfold Obligations.AdcSampling
  intro s
  refine ⟨?cont, ?trig, ?trigLate, ?timed, ?timedOccurrence, ?arrives, ?drops⟩
  case cont =>
    intro c vd hrun hmode hdue
    exact does_sampleInstant hrun hmode (modeSample_cont (d := s.dev.begun) vd hdue)
      (settle_capture (l := []) (.begun s.dev c) (.begun s.dev) rfl (by simp) (s.dev.contNext c) vd)
  case trig =>
    intro c vd g rest hrun hmode htrigs hdue hlate
    have he := (modeSample_trig (d := s.dev.begun) vd htrigs hdue).trans (by rw [trigTaken_onTime _ _ _ hlate])
    exact does_sampleInstant hrun hmode he
      (settle_capture (l := []) ((Dev.ChannelSet.begun s.dev c).setAdc ((s.dev.adc c).withTrigs rest))
        ((Dev.Makes.begun s.dev).setAdc c _) rfl (by simp) g.at_ vd)
  case trigLate =>
    intro c vd g rest t hrun hmode htrigs hdue hlate
    have he := (modeSample_trig (d := s.dev.begun) vd htrigs hdue).trans (by rw [trigTaken_late _ _ _ hlate])
    refine does_sampleInstant hrun hmode he ?_
    have hset := (Dev.ChannelSet.begun s.dev c).setAdc ((s.dev.adc c).withTrigs rest)
    have hm := (Dev.Makes.begun s.dev (l := lateKeys c)).setAdc c ((s.dev.adc c).withTrigs rest)
    obtain ⟨hadc, hcount, hothers, hunits, hrec, hregs⟩ := settle_capture (hset.adcLate t g.at_) (hm.adcLate t g.at_) rfl
      (lateKeys_apart c) g.at_ vd
    obtain ⟨hlate, hlates, hlast, hflag⟩ := settle_lateCapture (s.dev.begun.setAdc c ((s.dev.adc c).withTrigs rest)) c t g.at_ vd
    exact ⟨hadc, hcount, hothers, hunits, hrec, hlate, hlates, hlast, hflag, hregs⟩
  case timed =>
    intro c vd hrun hmode hdue hontime hbehind
    exact does_sampleInstant hrun hmode (timedSample_onTime (d := s.dev.begun) vd hdue hontime hbehind)
      (settle_timedCapture s.dev c vd)
  case timedOccurrence =>
    intro c vd hrun hmode hdue hontime hbehind
    have hruns : (decide (s.dev.adcRun c = 1) && decide (s.dev.adcMode c = 3)) = true := by rw [hrun, hmode]; rfl
    exact does_of_effect rfl ((Dev.when_of_true _ hruns _).trans (timedSample_onTime (d := s.dev.begun) vd hdue hontime hbehind))
      (settle_timedCapture s.dev c vd)
  case arrives =>
    intro c n p hfind hrun hmode htrigs hprev hlead
    have he := adcTrigger_first (d := s.dev.begun.trigOff p) htrigs hprev hlead
    have hm := (Dev.Makes.begun (s.dev.trigOff p) (l := [])).setAdc c
      ((s.dev.adc c).withTrigs [⟨p.2 + nsT (s.dev.fld (ADC.CH_TRIG_DELAY c)), false, none⟩])
    obtain ⟨hadc, hothers, hunits⟩ := ((Dev.ChannelSet.begun (s.dev.trigOff p) c).setAdc
      ((s.dev.adc c).withTrigs [⟨p.2 + nsT (s.dev.fld (ADC.CH_TRIG_DELAY c)), false, none⟩])).settle hm (by simp)
    refine does_adcTrigger hfind hrun hmode he ⟨?_, hm.settle_noRecord (by simp), settle_adcTrig _, hadc, hothers, hm.settle_keepsRegs⟩
    rw [settle_adcTrig]
    exact hunits
  case drops =>
    intro c n p hfind hrun hmode hmoved
    have he := adcTrigger_drop (d := s.dev.begun.trigOff p) p.2 (p.2 - nsT (max 1 n)) hmoved
    obtain ⟨hunits, hrec, hcount, hregs⟩ := settle_trigDrop (s.dev.trigOff p) c
    refine does_adcTrigger hfind hrun hmode he ⟨?_, hrec, settle_adcTrig _, settle_adc _ c, hcount, hregs⟩
    rw [settle_adcs, settle_adcTrig]
    exact hunits

/-! ### A block that is open outside the stream area (R107, R371) -/

/-- A converted sample of channel 0 awaits its block, whose half the state numbers so high that its words fall in DRAM, where a single
bit of the word that takes the sample is in error. The error log is full, so that its correction is counted and not logged. -/
def strayBlock : Dev :=
  { adcs := [(0, { conv := [{ t := 0, word := 0x1230, num := 0, strm := 0x101 }], blkHalf := some 0x7DFF7C0, blkLen := 8 })]
    ecc := [(0x1000000010, 1)]
    errLog := List.replicate 64 { w0 := 0, w1 := 0, w2 := 0, w3 := 0 }
    time := { milepost := nsT 12 } }

/-- The sample is merged into the word in DRAM, and the error that this corrects is counted (R371, R375). -/
theorem sampleDelivery_strayBlock {t : State} (ht : exec (.sampleDelivery 0) { dev := strayBlock } = .next t) :
    t.dev.reg MEMCTL.ECC_COUNTS = 1 := by
  obtain rfl := Host.Outcome.next.inj ht
  rw [settle_reg _ _ (by decide) (by decide)]
  decide +kernel

/-- Refutes O15 in its clause of a sample stored in the open block, which does not ask that the block's half be one of the two, as the
clause of a stream's last sample does. The words of a half that lies beyond them fall in DRAM, where the store may correct an error and
count it (R371, R375): a word of MEMCTL changes that the clause keeps. -/
theorem not_adcDelivery : ¬ Obligations.AdcDelivery := by
  unfold Obligations.AdcDelivery
  intro h
  obtain ⟨-, -, -, -, hstored, -⟩ := h { dev := strayBlock }
  obtain ⟨t, ht, -, -, -, -, -, hregs, -⟩ := hstored 0 { t := 0, word := 0x1230, num := 0, strm := 0x101 } [] 0x7DFF7C0
    (by decide +kernel) (by decide +kernel) (by decide +kernel) (by decide +kernel) (by decide) (by decide) rfl (by decide +kernel)
    (by decide +kernel)
  have hkept := hregs MEMCTL.ECC_COUNTS (by decide) (by decide) (by decide)
  rw [sampleDelivery_strayBlock ht] at hkept
  exact absurd hkept (by decide +kernel)

end Sys2Proof.Machine

/-! ## Comparators (spec/05): OUT, trip signals and the self-test -/

namespace Sys2Proof.Machine

/-! ### What a trip that a timer answers leaves of lower blocks (R198 to R200, R217) -/

/-- No register word below the PWM blocks differs between `d` and `e`; those of the comparators lie there. -/
def Dev.KeepsLow (d e : Dev) : Prop := ∀ k < 0x200000, e.reg k = d.reg k

theorem phState_high (p : Nat) : 0x200000 ≤ PHASE.PH_STATE p := by unfold PHASE.PH_STATE; omega
theorem phPos_high (p : Nat) : 0x200000 ≤ PHASE.PH_POS p := by unfold PHASE.PH_POS; omega
theorem railStatus_high (r : Nat) : 0x200000 ≤ PHASE.PH_RAIL_STATUS r := by unfold PHASE.PH_RAIL_STATUS; omega
theorem railCounts_high (r : Nat) : 0x200000 ≤ PHASE.PH_RAIL_COUNTS r := by unfold PHASE.PH_RAIL_COUNTS; omega
theorem timStatus_high (t : Nat) : 0x200000 ≤ PWM.TIM_STATUS t := by unfold PWM.TIM_STATUS; omega
theorem timTrips_high (t : Nat) : 0x200000 ≤ PWM.TIM_TRIPS t := by unfold PWM.TIM_TRIPS; omega

theorem witCommand_regs (d : Dev) (o : Nat) (t : Time) (old new : Level) (measured : Bool) :
    (d.witCommand o t old new measured).regs = d.regs := by
  unfold Dev.witCommand
  split
  · rfl
  · extract_lets
    exact (apply_ite Dev.regs _ _ _).trans (ite_self _)

theorem relevel_regs (d : Dev) (o : Nat) (t : Time) (measured : Bool) : (d.relevel o t measured).regs = d.regs := by
  refine List.foldlRecOn (motive := fun e : Dev => e.regs = d.regs) _ _ rfl fun e he q _ => ?_
  dsimp only
  split
  · exact he
  · exact (witCommand_regs _ _ _ _ _ _).trans he

theorem refresh_regs (d : Dev) (o : Nat) (t : Time) : (d.refresh o t).regs = d.regs := relevel_regs _ _ _ _

namespace Dev.KeepsLow

variable {d e : Dev}

theorem refl (d : Dev) : d.KeepsLow d := fun _ _ => rfl

theorem trans {b c : Dev} (h : d.KeepsLow b) (g : b.KeepsLow c) : d.KeepsLow c := fun k hk => (g k hk).trans (h k hk)

theorem of_regs (h : d.KeepsLow e) {e' : Dev} (hr : e'.regs = e.regs) : d.KeepsLow e' :=
  fun k hk => (reg_of_regs k hr).trans (h k hk)

theorem setReg (h : d.KeepsLow e) {a : Nat} (ha : 0x200000 ≤ a) (v : Word) : d.KeepsLow (e.setReg a v) :=
  fun k hk => (reg_setReg_ne e (by omega) v).trans (h k hk)

theorem setFld (h : d.KeepsLow e) {f : Fld} (ha : 0x200000 ≤ f.addr) (n : Nat) : d.KeepsLow (e.setFld f n) := h.setReg ha _

theorem foldl {α : Type} (h : d.KeepsLow e) (l : List α) {f : Dev → α → Dev} (hf : ∀ (u : Dev) x, u.KeepsLow (f u x)) :
    d.KeepsLow (l.foldl f e) :=
  List.foldlRecOn (motive := fun u : Dev => d.KeepsLow u) l f h fun u hu x _ => hu.trans (hf u x)

theorem each (h : d.KeepsLow e) (l : List Nat) {f : Dev → Nat → Dev} (hf : ∀ (u : Dev) n, u.KeepsLow (f u n)) : d.KeepsLow (e.each l f) :=
  h.foldl l hf

theorem setOut (h : d.KeepsLow e) (o : Nat) (x : OutSt) : d.KeepsLow (e.setOut o x) := h.of_regs rfl
theorem setPh (h : d.KeepsLow e) (p : Nat) (x : PhSt) : d.KeepsLow (e.setPh p x) := h.of_regs rfl
theorem setRailList (h : d.KeepsLow e) (r : Nat) (l : List Nat) : d.KeepsLow (e.setRailList r l) := h.of_regs rfl
theorem report (h : d.KeepsLow e) (src unit : Nat) : d.KeepsLow (e.report src unit) := h.of_regs rfl
theorem logRec (h : d.KeepsLow e) (k : RecKind) (fl : Nat) (o : AgentId) (a : Nat) (new old : Word) :
    d.KeepsLow (e.logRec k fl o a new old) := h.of_regs rfl
theorem refresh (h : d.KeepsLow e) (o : Nat) (t : Time) : d.KeepsLow (e.refresh o t) := h.of_regs (refresh_regs e o t)

/-! #### Frames (R180 to R183, R209 to R216) -/

theorem setPhState (h : d.KeepsLow e) {f : Fld} {p : Nat} (hf : f.addr = PHASE.PH_STATE p) (n : Nat) : d.KeepsLow (e.setFld f n) :=
  h.setFld (hf ▸ phState_high p) n

theorem setRailStatus (h : d.KeepsLow e) {f : Fld} {r : Nat} (hf : f.addr = PHASE.PH_RAIL_STATUS r) (n : Nat) :
    d.KeepsLow (e.setFld f n) :=
  h.setFld (hf ▸ railStatus_high r) n

theorem setTimStatus (h : d.KeepsLow e) {f : Fld} {t : Nat} (hf : f.addr = PWM.TIM_STATUS t) (n : Nat) : d.KeepsLow (e.setFld f n) :=
  h.setFld (hf ▸ timStatus_high t) n

theorem showMoving (h : d.KeepsLow e) (p : Nat) : d.KeepsLow (e.showMoving p) := h.setPhState (f := PHASE.PH_STATE_MOVING p) rfl _

theorem railShow (h : d.KeepsLow e) (r : Nat) : d.KeepsLow (e.railShow r) :=
  (((h.setRailStatus (f := PHASE.PH_RAIL_STATUS_LISTED r) rfl _).setRailStatus (f := PHASE.PH_RAIL_STATUS_SPARES r) rfl _).setRailStatus
    (f := PHASE.PH_RAIL_STATUS_MOVING r) rfl _).setRailStatus (f := PHASE.PH_RAIL_STATUS_RAMPING r) rfl _

theorem placePhase (h : d.KeepsLow e) (p pos : Nat) : d.KeepsLow (e.placePhase p pos) :=
  ((h.setReg (phPos_high p) _).showMoving p).each _ fun u _ => when_cases _ (refl u) ((refl u).setOut _ _)

theorem retarget (h : d.KeepsLow e) (r : Nat) (at_ : Time) : d.KeepsLow (e.retarget r at_) := by
  refine (h.foldl _ fun u ⟨p, j⟩ => when_cases _ (refl u) ?_).railShow r
  have hindex : u.KeepsLow (u.setFld (PHASE.PH_STATE_INDEX p) j) := (refl u).setPhState (f := PHASE.PH_STATE_INDEX p) rfl j
  extract_lets
  split
  · split
    · exact placePhase (setPh hindex _ _) _ _
    · exact showMoving (setPh hindex _ _) _
  · split
    · exact hindex
    · exact showMoving (setPh hindex _ _) _

theorem phaseFrame (d : Dev) (p : Nat) (f : Time) : d.KeepsLow (d.phaseFrame p f).2 := by
  have hstate (m n : Nat) : d.KeepsLow ((d.setFld (PHASE.PH_STATE_FACTOR p) m).setFld (PHASE.PH_STATE_STATE p) n) :=
    ((refl d).setPhState (f := PHASE.PH_STATE_FACTOR p) rfl m).setPhState (f := PHASE.PH_STATE_STATE p) rfl n
  unfold Dev.phaseFrame
  extract_lets
  split
  · exact refl d
  split
  · exact refl d
  split
  · exact refl d
  split
  · exact refl d
  extract_lets f1 st' u v w
  have hu : d.KeepsLow u := hstate _ _
  have hv : d.KeepsLow v := (hu.setPhState (f := PHASE.PH_STATE_INDEX p) rfl 0).setPhState (f := PHASE.PH_STATE_MOVING p) rfl 0
  split
  · exact ((hv.setPh _ _).setRailList _ _).retarget _ _
  · exact ((hu.setPh _ _).showMoving _).railShow _

theorem movePos (h : d.KeepsLow e) (p : Nat) (m : Int) : d.KeepsLow (e.movePos p m) :=
  ((h.setReg (phPos_high p) _).showMoving p).railShow _

theorem laterMove (h : d.KeepsLow e) (o : Nat) : d.KeepsLow (e.laterMove o) := by
  unfold Dev.laterMove
  extract_lets
  split
  · exact h
  split
  · exact h
  · exact movePos (each h _ fun u _ => (refl u).setOut _ _) _ _

theorem formFrame (h : d.KeepsLow e) (o : Nat) (f : Time) (l k : Nat) : d.KeepsLow (e.formFrame o f l k) := by
  unfold Dev.formFrame Dev.replan
  exact (h.setOut _ _).setOut _ _

theorem formOwn (h : d.KeepsLow e) (o : Nat) (parked : Option Bool) : d.KeepsLow (e.formOwn o parked) := by
  unfold Dev.formOwn
  extract_lets t f x b inP
  cases parked with
  | some k => exact (h.setOut _ _).formFrame _ _ _ _
  | none => exact ((h.trans (phaseFrame e _ _)).setOut _ _).formFrame _ _ _ _

theorem formNext (h : d.KeepsLow e) (o : Nat) : d.KeepsLow (e.formNext o) := by
  unfold Dev.formNext
  split
  · exact h.formOwn _ _
  · exact formOwn (when_cases _ h (h.formOwn _ _)) _ _

theorem formSoon (h : d.KeepsLow e) (ps : List Nat) : d.KeepsLow (e.formSoon ps) := by
  refine h.each _ fun u _ => (refl u).each _ fun v o => when_cases _ (refl v) ?_
  exact when_cases _ ((refl v).laterMove o) (((refl v).laterMove o).formNext o)

/-! #### The failure of a phase (R217 to R219) -/

theorem supply (h : d.KeepsLow e) (p : Nat) : d.KeepsLow (e.supply p) := h.each _ fun u _ => (refl u).setOut _ _

theorem leaveLast (h : d.KeepsLow e) (r k : Nat) : d.KeepsLow (e.leaveLast r k) := h.each _ fun u _ => (refl u).setPh _ _

theorem joinMore (h : d.KeepsLow e) (r k : Nat) : d.KeepsLow (e.joinMore r k) := by
  unfold Dev.joinMore
  extract_lets back u new v w
  have hu : d.KeepsLow u := h.each _ fun u _ => (refl u).setPh _ _
  have hw : d.KeepsLow w := (hu.setRailList _ _).each _ fun u _ => (refl u).setPh _ _
  exact (hw.retarget _ _).each _ fun u p => ((refl u).placePhase p _).supply p

theorem noteCount (h : d.KeepsLow e) (r : Nat) (old : Word) : d.KeepsLow (e.noteCount r old) := by
  unfold Dev.noteCount
  split
  · exact h
  · exact logRec (h.setFld (f := PHASE.PH_RAIL_COUNTS_CHANGES r) (railCounts_high r) _) _ _ _ _ _ _

theorem recount (h : d.KeepsLow e) (r : Nat) : d.KeepsLow (e.recount r) := by
  unfold Dev.recount
  split
  · exact h.railShow r
  · extract_lets u n old k v
    have hu : d.KeepsLow u := h.formSoon _
    have hv : d.KeepsLow v := by
      simp only [v]
      split
      · exact hu.leaveLast _ _
      · split
        · exact hu.joinMore _ _
        · exact hu
    exact ((hv.setRailStatus (f := PHASE.PH_RAIL_STATUS_N r) rfl _).retarget _ _).noteCount _ _

theorem substitute (h : d.KeepsLow e) (r p q j : Nat) : d.KeepsLow (e.substitute r p q j) := by
  unfold Dev.substitute Dev.phRec
  extract_lets old x u y v w z
  have hv : d.KeepsLow v := ((h.setRailList _ _).setPhState (f := PHASE.PH_STATE_INDEX q) rfl _).setPh _ _
  have hw : d.KeepsLow w := (((hv.placePhase _ _).supply _).setPh _ _).railShow _
  exact ((hw.setRailStatus (f := PHASE.PH_RAIL_STATUS_DEGRADED r) rfl _).setFld (f := PHASE.PH_RAIL_COUNTS_SUBST r)
    (railCounts_high r) _).logRec _ _ _ _ _ _

theorem phLoss (h : d.KeepsLow e) (r p : Nat) : d.KeepsLow (e.phLoss r p) := by
  unfold Dev.phLoss
  extract_lets u old v
  have hu : d.KeepsLow u := ((h.setRailStatus (f := PHASE.PH_RAIL_STATUS_LOSS r) rfl _).setRailStatus
    (f := PHASE.PH_RAIL_STATUS_DEGRADED r) rfl _).report _ _
  split
  · exact ((hu.setRailStatus (f := PHASE.PH_RAIL_STATUS_N r) rfl _).railShow _).noteCount _ _
  · exact (((hu.setPh _ _).setRailList _ _).retarget _ _).recount _

theorem phFail (h : d.KeepsLow e) (p : Nat) : d.KeepsLow (e.phFail p) := by
  unfold Dev.phFail
  split
  · exact h
  extract_lets r u old j listed v
  have hv : d.KeepsLow v := ((h.formSoon _).setReg (phState_high p) _).logRec _ _ _ _ _ _
  split
  · exact when_cases _ hv (hv.recount r)
  · split
    · exact (hv.substitute _ _ _ _).recount _
    · exact hv.phLoss _ _

/-! #### The answer of the timers (R198 to R200) -/

theorem showTripped (h : d.KeepsLow e) (t : Nat) : d.KeepsLow (e.showTripped t) := h.setTimStatus (f := PWM.TIM_STATUS_TRIPPED t) rfl _

theorem tripOut (h : d.KeepsLow e) (o : Nat) : d.KeepsLow (e.tripOut o) := (h.setOut _ _).refresh _ _

theorem tripLatchNow (h : d.KeepsLow e) (t : Nat) : d.KeepsLow (e.tripLatchNow t) := by
  unfold Dev.tripLatchNow
  split
  · exact h
  extract_lets u v
  have hu : d.KeepsLow u := (h.setTimStatus (f := PWM.TIM_STATUS_LATCHED t) rfl 1).setFld (f := PWM.TIM_TRIPS_LATCHES t) (timTrips_high t) _
  have hv : d.KeepsLow v := (hu.each _ fun u o => (refl u).tripOut o).showTripped t
  split
  · exact hv
  · exact (hv.report _ _).each _ fun u p => when_cases _ (refl u) ((refl u).phFail p)

theorem tripCycle (h : d.KeepsLow e) (t i : Nat) : d.KeepsLow (e.tripCycle t i) := by
  unfold Dev.tripCycle
  extract_lets os u
  split
  · exact h
  · have hu : d.KeepsLow u :=
      (h.setTimStatus (f := PWM.TIM_STATUS_CYCLE_TRIP t) rfl 1).setFld (f := PWM.TIM_TRIPS_CYCLES t) (timTrips_high t) _
    exact (hu.each _ fun u o => (refl u).tripOut o).showTripped t

theorem tripRises (h : d.KeepsLow e) (n : Nat) : d.KeepsLow (e.tripRises n) := by
  refine h.each _ fun u t => (refl u).each _ fun v i => ?_
  split
  · exact refl v
  · split
    · exact (refl v).tripLatchNow t
    · exact (refl v).tripCycle t i

end Dev.KeepsLow

/-! ### Trip signals and OUT as fields (R119, R124) -/

/-- The bit of comparator `n` in the words of OUT. -/
def outPlace (n : Nat) : Fld := ⟨COMP.OUT (n / 96 * 3 + n % 96 / 32), n % 32, n % 32⟩

/-- The bit of comparator `n` in the words of TRIP. -/
def tripPlace (n : Nat) : Fld := ⟨COMP.TRIP (n / 96 * 3 + n % 96 / 32), n % 32, n % 32⟩

theorem bitOf_eq_field (x i : Nat) : bitOf x i = (bitsOf x i i != 0) := by
  simp only [bitOf, bitsOf, Nat.add_sub_cancel_left, pow_one]
  rcases Nat.mod_two_eq_zero_or_one (x / 2 ^ i) with h | h <;> rw [h] <;> rfl

theorem tripSig_eq_flag (d : Dev) (n : Nat) : d.tripSig n = d.flag (tripPlace n) := bitOf_eq_field _ _

/-- A field written after one of another word, from the number its word had before both. -/
theorem setNum_of_num (d : Dev) {f g : Fld} (h : g.addr ≠ f.addr) (x v : Nat) :
    (d.setFld f x).setNum g.addr (putBits (d.num g.addr) g.hi g.lo v) = (d.setFld f x).setFld g v := by
  rw [Dev.setFld.eq_def _ g, Dev.num, Dev.num, Dev.reg_setFld_ne d h]

theorem outPlace_ne_status (m n : Nat) : (outPlace m).addr ≠ COMP.CMP_STATUS n := by
  simp only [outPlace, COMP.OUT, COMP.CMP_STATUS]; omega

theorem tripPlace_ne_status (m n : Nat) : (tripPlace m).addr ≠ COMP.CMP_STATUS n := by
  simp only [tripPlace, COMP.TRIP, COMP.CMP_STATUS]; omega

theorem setOutBit_eq (d : Dev) (n : Nat) (b : Bool) :
    d.setOutBit n b = (d.setFld (COMP.CMP_STATUS_OUT n) (b2n b)).setFld (outPlace n) (b2n b) :=
  setNum_of_num d (f := COMP.CMP_STATUS_OUT n) (g := outPlace n) (outPlace_ne_status n n) _ _

/-- The fields in which the trip signal of comparator `n` is shown. -/
def tripFlds (n : Nat) : List Fld := [COMP.CMP_STATUS_TRIP n, tripPlace n, COMP.CMP_STATUS_TRIPPED n, COMP.CMP_COUNT_TRIPS n]

/-- Field `g` is no field of a timer or a rail, and shares no bit with a field of `l`. -/
def Fld.clearOf (g : Fld) (l : List Fld) : Prop :=
  g.hi < 32 ∧ g.addr < 0x200000 ∧ ∀ f ∈ l, g.addr ≠ f.addr ∨ g.hi < f.lo ∨ f.hi < g.lo

/-- Field `g` is none in which a trip signal is shown. -/
def Fld.tripFree (g : Fld) : Prop := ∀ n, g.clearOf (tripFlds n)

/-- A word beside CMP_STATUS, CMP_COUNT and TRIP. -/
theorem tripFree_of_key {g : Fld} (hw : g.hi < 32) (hlow : g.addr < 0x200000)
    (hk : g.addr < 0x160000 ∨ g.addr % 0x10000 < 0x30 ∨ (0x100 ≤ g.addr % 0x10000 ∧ g.addr % 0x20 < 0x10)) : g.tripFree := by
  intro n
  refine ⟨hw, hlow, fun f hf => .inl ?_⟩
  simp only [tripFlds, List.mem_cons, List.not_mem_nil, or_false] at hf
  rcases hf with rfl | rfl | rfl | rfl <;>
    simp only [COMP.CMP_STATUS_TRIP, COMP.CMP_STATUS_TRIPPED, COMP.CMP_COUNT_TRIPS, tripPlace, COMP.CMP_STATUS, COMP.CMP_COUNT, COMP.TRIP] <;>
    omega

/-- The bits of CMP_STATUS beside TRIP and TRIPPED. -/
theorem tripFree_of_status {g : Fld} {m : Nat} (hm : m < 192) (hg : g.addr = COMP.CMP_STATUS m) (hw : g.hi < 32)
    (hb : g.hi < 1 ∨ (1 < g.lo ∧ g.hi < 8) ∨ 8 < g.lo) : g.tripFree := by
  intro n
  refine ⟨hw, by rw [hg, COMP.CMP_STATUS]; omega, fun f hf => ?_⟩
  simp only [tripFlds, List.mem_cons, List.not_mem_nil, or_false] at hf
  rcases hf with rfl | rfl | rfl | rfl
  · simp only [COMP.CMP_STATUS_TRIP]; omega
  · simp only [tripPlace, hg, COMP.CMP_STATUS, COMP.TRIP]; omega
  · simp only [COMP.CMP_STATUS_TRIPPED]; omega
  · simp only [COMP.CMP_COUNT_TRIPS, hg, COMP.CMP_STATUS, COMP.CMP_COUNT]; omega

/-- The fields in which a trip signal is shown are clear of those of another. -/
theorem tripFlds_clearOf {m n : Nat} (hm : m < 192) (hne : m ≠ n) : ∀ g ∈ tripFlds m, g.clearOf (tripFlds n) := by
  intro g hg
  simp only [tripFlds, List.mem_cons, List.not_mem_nil, or_false] at hg
  refine ⟨?_, ?_, fun f hf => ?_⟩
  · rcases hg with rfl | rfl | rfl | rfl <;>
      simp only [COMP.CMP_STATUS_TRIP, COMP.CMP_STATUS_TRIPPED, COMP.CMP_COUNT_TRIPS, tripPlace] <;> omega
  · rcases hg with rfl | rfl | rfl | rfl <;>
      simp only [COMP.CMP_STATUS_TRIP, COMP.CMP_STATUS_TRIPPED, COMP.CMP_COUNT_TRIPS, tripPlace, COMP.CMP_STATUS, COMP.CMP_COUNT,
        COMP.TRIP] <;> omega
  · simp only [tripFlds, List.mem_cons, List.not_mem_nil, or_false] at hf
    rcases hg with rfl | rfl | rfl | rfl <;> rcases hf with rfl | rfl | rfl | rfl <;>
      simp only [COMP.CMP_STATUS_TRIP, COMP.CMP_STATUS_TRIPPED, COMP.CMP_COUNT_TRIPS, tripPlace, COMP.CMP_STATUS, COMP.CMP_COUNT,
        COMP.TRIP] <;> omega

/-! ### One trip signal brought up to date (R121, R124) -/

/-- The words of a trip signal that has become `new`. -/
def Dev.tripShown (d : Dev) (n : Nat) (new : Bool) : Dev :=
  ((d.setFld (COMP.CMP_STATUS_TRIP n) (b2n new)).setFld (tripPlace n) (b2n new)).when new fun d =>
    (d.setFld (COMP.CMP_STATUS_TRIPPED n) 1).incFld (COMP.CMP_COUNT_TRIPS n)

/-- The event of a trip signal's change, if CMP_CFG asks for it. -/
def Dev.tripEvent (d : Dev) (n : Nat) (new : Bool) : Dev :=
  d.when (bitOf (d.fld (COMP.CMP_CFG_EVENT n)) (if new then 0 else 1)) fun d => d.raise (64 + n)

theorem showTrip_eq (d : Dev) (n : Nat) : d.showTrip n = if d.tripOf n = d.tripSig n then d
    else ((d.tripShown n (d.tripOf n)).tripEvent n (d.tripOf n)).when (d.tripOf n) fun d => d.tripRises n := by
  unfold Dev.showTrip Dev.tripShown Dev.tripEvent
  extract_lets new old a u v w
  have hu : u = (d.setFld (COMP.CMP_STATUS_TRIP n) (b2n new)).setFld (tripPlace n) (b2n new) :=
    setNum_of_num d (f := COMP.CMP_STATUS_TRIP n) (g := tripPlace n) (tripPlace_ne_status n n) _ _
  simp only [w, v, hu, new, old]

theorem tripEvent_regs (d : Dev) (n : Nat) (new : Bool) : (d.tripEvent n new).regs = d.regs :=
  Dev.when_cases (p := fun e => e.regs = d.regs) _ rfl rfl

/-- A trip signal that changes is shown in the comparators' words, whatever the timers do. -/
theorem showTrip_keepsLow {d : Dev} {n : Nat} (h : d.tripOf n ≠ d.tripSig n) :
    (d.tripShown n (d.tripOf n)).KeepsLow (d.showTrip n) := by
  have hevent := (Dev.KeepsLow.refl (d.tripShown n (d.tripOf n))).of_regs (tripEvent_regs _ n (d.tripOf n))
  rw [showTrip_eq, if_neg h]
  exact Dev.when_cases _ hevent (hevent.tripRises n)

theorem showTrip_fld {d : Dev} {n : Nat} {g : Fld} (h : d.tripOf n ≠ d.tripSig n) (hlow : g.addr < 0x200000) :
    (d.showTrip n).fld g = (d.tripShown n (d.tripOf n)).fld g :=
  Dev.fld_of_reg (showTrip_keepsLow h _ hlow)

theorem tripShown_fld_ne (d : Dev) {n : Nat} (new : Bool) {g : Fld} (hw : g.hi < 32)
    (hne : ∀ f ∈ tripFlds n, g.addr ≠ f.addr ∨ g.hi < f.lo ∨ f.hi < g.lo) : (d.tripShown n new).fld g = d.fld g := by
  simp only [tripFlds, List.forall_mem_cons] at hne
  obtain ⟨htrip, hplace, htripped, hcount, -⟩ := hne
  have hsig : ((d.setFld (COMP.CMP_STATUS_TRIP n) (b2n new)).setFld (tripPlace n) (b2n new)).fld g = d.fld g := by
    rw [Dev.fld_setFld_ne _ _ g _ (le_refl (n % 32)) hw hplace, Dev.fld_setFld_ne _ _ g _ (le_refl 1) hw htrip]
  refine Dev.when_cases (p := fun e => e.fld g = d.fld g) new hsig ?_
  rw [Dev.incFld, Dev.fld_setFld_ne _ _ g _ (Nat.zero_le _) hw hcount, Dev.fld_setFld_ne _ _ g _ (le_refl 8) hw htripped, hsig]

/-- A field clear of those of a trip signal stays when the signal is shown. -/
theorem showTrip_fld_ne (d : Dev) {n : Nat} {g : Fld} (hg : g.clearOf (tripFlds n)) : (d.showTrip n).fld g = d.fld g := by
  by_cases h : d.tripOf n = d.tripSig n
  · rw [showTrip_eq, if_pos h]
  · obtain ⟨hw, hlow, hne⟩ := hg
    rw [showTrip_fld h hlow, tripShown_fld_ne d _ hw hne]

/-- From `d` to `e` the trip signal of comparator `n` was brought up to date: a rise sets TRIPPED and counts (R124). -/
structure Dev.TripAt (d e : Dev) (n : Nat) : Prop where
  sig : e.tripSig n = d.tripOf n
  tripped : e.flag (COMP.CMP_STATUS_TRIPPED n) = (d.flag (COMP.CMP_STATUS_TRIPPED n) || (d.tripOf n && !d.tripSig n))
  count : e.fld (COMP.CMP_COUNT_TRIPS n) = if d.tripOf n = true ∧ d.tripSig n = false then
    satInc 0xFFFF (d.fld (COMP.CMP_COUNT_TRIPS n)) else d.fld (COMP.CMP_COUNT_TRIPS n)

theorem tripShown_sig (d : Dev) (n : Nat) (new : Bool) : (d.tripShown n new).tripSig n = new := by
  have hplace : ((d.setFld (COMP.CMP_STATUS_TRIP n) (b2n new)).setFld (tripPlace n) (b2n new)).flag (tripPlace n) = new :=
    Dev.flag_setFld_b2n _ (tripPlace n) new (le_refl (n % 32)) (by simp only [tripPlace]; omega)
  rw [tripSig_eq_flag]
  refine Dev.when_cases (p := fun e => e.flag (tripPlace n) = new) new hplace ?_
  have hw : (tripPlace n).hi < 32 := by simp only [tripPlace]; omega
  rw [Dev.incFld, Dev.flag_setFld_ne _ _ (tripPlace n) _ (Nat.zero_le _) hw (.inl ?_), Dev.flag_setFld_ne _ _ (tripPlace n) _ (le_refl 8) hw
    (.inl ?_), hplace]
  · simp only [tripPlace, COMP.CMP_STATUS_TRIPPED, COMP.CMP_STATUS, COMP.TRIP]; omega
  · simp only [tripPlace, COMP.CMP_COUNT_TRIPS, COMP.CMP_COUNT, COMP.TRIP]; omega

theorem tripShown_tripped (d : Dev) (n : Nat) (new : Bool) :
    (d.tripShown n new).flag (COMP.CMP_STATUS_TRIPPED n) = (d.flag (COMP.CMP_STATUS_TRIPPED n) || new) := by
  have hplace : (COMP.CMP_STATUS_TRIPPED n).addr ≠ (tripPlace n).addr := (tripPlace_ne_status n n).symm
  have hkept (v : Nat) : ((d.setFld (COMP.CMP_STATUS_TRIP n) v).setFld (tripPlace n) v).flag (COMP.CMP_STATUS_TRIPPED n)
      = d.flag (COMP.CMP_STATUS_TRIPPED n) := by
    rw [Dev.flag_setFld_ne _ _ _ _ (le_refl (n % 32)) (by decide : 8 < 32) (.inl hplace),
      Dev.flag_setFld_ne _ _ _ _ (le_refl 1) (by decide : 8 < 32) (.inr (.inr (by decide : 1 < 8)))]
  have hcount : (COMP.CMP_STATUS_TRIPPED n).addr ≠ (COMP.CMP_COUNT_TRIPS n).addr := by
    simp only [COMP.CMP_STATUS_TRIPPED, COMP.CMP_COUNT_TRIPS, COMP.CMP_STATUS, COMP.CMP_COUNT]; omega
  cases new with
  | false => rw [Dev.tripShown, Dev.when_false, hkept, Bool.or_false]
  | true =>
    rw [Dev.tripShown, Dev.when_true, Dev.incFld, Dev.flag_setFld_ne _ _ _ _ (Nat.zero_le _) (by decide : 8 < 32) (.inl hcount),
      Dev.flag_setFld_one _ _ (le_refl 8) (by decide : 8 < 32), Bool.or_true]

theorem tripShown_count (d : Dev) (n : Nat) (new : Bool) : (d.tripShown n new).fld (COMP.CMP_COUNT_TRIPS n) =
    if new = true then satInc 0xFFFF (d.fld (COMP.CMP_COUNT_TRIPS n)) else d.fld (COMP.CMP_COUNT_TRIPS n) := by
  have hstatus : (COMP.CMP_COUNT_TRIPS n).addr ≠ COMP.CMP_STATUS n := by
    simp only [COMP.CMP_COUNT_TRIPS, COMP.CMP_STATUS, COMP.CMP_COUNT]; omega
  have hplace : (COMP.CMP_COUNT_TRIPS n).addr ≠ (tripPlace n).addr := by
    simp only [COMP.CMP_COUNT_TRIPS, tripPlace, COMP.TRIP, COMP.CMP_COUNT]; omega
  have hkept (v : Nat) : ((d.setFld (COMP.CMP_STATUS_TRIP n) v).setFld (tripPlace n) v).fld (COMP.CMP_COUNT_TRIPS n)
      = d.fld (COMP.CMP_COUNT_TRIPS n) := by
    rw [Dev.fld_setFld_ne _ _ _ _ (le_refl (n % 32)) (by decide : 15 < 32) (.inl hplace),
      Dev.fld_setFld_ne _ _ _ _ (le_refl 1) (by decide : 15 < 32) (.inl hstatus)]
  cases new with
  | false => rw [Dev.tripShown, Dev.when_false, hkept, if_neg Bool.false_ne_true]
  | true =>
    have hcap := satInc_le 0xFFFF (d.fld (COMP.CMP_COUNT_TRIPS n))
    rw [Dev.tripShown, Dev.when_true, if_pos rfl, Dev.incFld,
      Dev.fld_setFld_ne _ (COMP.CMP_STATUS_TRIPPED n) _ _ (le_refl 8) (by decide : 15 < 32) (.inl hstatus), hkept]
    exact Dev.fld_setFld_of_lt _ _ _ (Nat.zero_le _) (by decide : 15 < 32) (by omega : satInc 0xFFFF (d.fld (COMP.CMP_COUNT_TRIPS n)) < 2 ^ 16)

theorem tripFlds_low {n : Nat} (hn : n < 192) : ∀ g ∈ tripFlds n, g.addr < 0x200000 := fun g hg =>
  (tripFlds_clearOf hn (show n ≠ n + 1 by omega) g hg).2.1

theorem showTrip_tripAt (d : Dev) {n : Nat} (hn : n < 192) : d.TripAt (d.showTrip n) n := by
  by_cases h : d.tripOf n = d.tripSig n
  · rw [showTrip_eq, if_pos h]
    exact ⟨h.symm, by simp [h], by simp [h]⟩
  · have hlow := tripFlds_low hn
    simp only [tripFlds, List.forall_mem_cons] at hlow
    obtain ⟨-, hplace, htripped, hcount, -⟩ := hlow
    have hrise : (d.tripOf n && !d.tripSig n) = d.tripOf n := by
      generalize d.tripOf n = x at h
      generalize d.tripSig n = y at h
      revert h; revert x y; decide
    refine ⟨?_, ?_, ?_⟩
    · rw [tripSig_eq_flag, Dev.flag, showTrip_fld h hplace, ← Dev.flag, ← tripSig_eq_flag, tripShown_sig]
    · rw [Dev.flag, showTrip_fld h htripped, ← Dev.flag, tripShown_tripped, hrise]
    · rw [showTrip_fld h hcount, tripShown_count]
      refine if_congr ?_ rfl rfl
      rw [← Bool.not_eq_true', ← Bool.and_eq_true, hrise]

/-! ### A pair brought up to date (R121, R127) -/

/-- The words of the state of a trip signal's contributions are the same in `d` and `e`. -/
theorem tripOf_congr {d e : Dev} {n : Nat} (hn : n < 192) (hc : e.comps = d.comps) (hf : ∀ g : Fld, g.tripFree → e.fld g = d.fld g) :
    e.tripOf n = d.tripOf n := by
  have hservice (m : Nat) (hm : m < 192) : e.service m = d.service m :=
    hf _ (tripFree_of_status hm rfl (by decide : 6 < 32) (.inr (.inl (by decide : 1 < 4 ∧ 6 < 8))))
  have hpair (g : Fld) (hg : g.addr = COMP.PAIR_CFG (n / 2 * 2)) (hw : g.hi < 32) : e.fld g = d.fld g :=
    hf g (tripFree_of_key hw (by rw [hg, COMP.PAIR_CFG]; omega) (by rw [hg, COMP.PAIR_CFG]; omega))
  have hcontrib (m : Nat) (hm : m < 192) : e.contribution m = d.contribution m := by
    simp only [Dev.contribution, hservice m hm, Dev.comp, hc]
  simp only [Dev.tripOf, Dev.pairing, Dev.flag, hcontrib n hn, hcontrib (n / 2 * 2) (by omega), hcontrib (n / 2 * 2 + 1) (by omega),
    hpair (COMP.PAIR_CFG_TRIP_EN (n / 2 * 2)) rfl (by decide : 8 < 32), hpair (COMP.PAIR_CFG_WIN_SENSE (n / 2 * 2)) rfl (by decide : 4 < 32),
    hpair (COMP.PAIR_CFG_PAIRING (n / 2 * 2)) rfl (by decide : 1 < 32)] <;> rfl

/-- No timer selects a trip signal (R198). -/
def Dev.untimed (d : Dev) : Prop := ∀ t : Fin 48, d.tripEn t.val 0 = false ∧ d.tripEn t.val 1 = false

theorem tripRises_of_untimed {d : Dev} (h : d.untimed) (n : Nat) : d.tripRises n = d := by
  refine each_same fun t ht => each_same fun i hi => if_pos (.inl ?_)
  obtain ⟨h0, h1⟩ := h ⟨t, List.mem_range.mp ht⟩
  simp only [List.mem_cons, List.not_mem_nil, or_false] at hi
  rcases hi with rfl | rfl <;> simp [h0, h1]

theorem untimed_of_flds {d e : Dev} (h : d.untimed) (hf : ∀ g : Fld, g.hi < 32 → 0x200000 ≤ g.addr → e.fld g = d.fld g) :
    e.untimed := by
  have hen (t i : Nat) : e.tripEn t i = d.tripEn t i := by
    have hfld : e.fld (if i = 0 then PWM.TIM_TRIP_EN0 t else PWM.TIM_TRIP_EN1 t)
        = d.fld (if i = 0 then PWM.TIM_TRIP_EN0 t else PWM.TIM_TRIP_EN1 t) := by
      refine hf _ ?_ ?_ <;> split <;> simp only [PWM.TIM_TRIP_EN0, PWM.TIM_TRIP_EN1, PWM.TIM_TRIP] <;> omega
    simp only [Dev.tripEn, Dev.flag, hfld]
  exact fun t => ⟨(hen t 0).trans (h t).1, (hen t 1).trans (h t).2⟩

theorem tripEvent_comps (d : Dev) (n : Nat) (new : Bool) : (d.tripEvent n new).comps = d.comps :=
  Dev.when_cases (p := fun e => e.comps = d.comps) _ rfl rfl

theorem tripShown_comps (d : Dev) (n : Nat) (new : Bool) : (d.tripShown n new).comps = d.comps :=
  Dev.when_cases (p := fun e => e.comps = d.comps) new (by simp only [Dev.setFld_comps]) (by simp only [Dev.incFld, Dev.setFld_comps])

theorem tripEvent_untimed {d : Dev} (h : d.untimed) {n : Nat} (hn : n < 192) (new : Bool) :
    ((d.tripShown n new).tripEvent n new).untimed := by
  refine untimed_of_flds h fun g hw hg => ?_
  rw [Dev.fld_of_regs g (tripEvent_regs _ _ _)]
  exact tripShown_fld_ne d _ hw fun f hf => .inl (by have := tripFlds_low hn f hf; omega)

/-- Where no timer selects a trip signal, showing one changes words and raises an event. -/
theorem showTrip_of_untimed {d : Dev} (h : d.untimed) {n : Nat} (hn : n < 192) : d.showTrip n = if d.tripOf n = d.tripSig n then d
    else (d.tripShown n (d.tripOf n)).tripEvent n (d.tripOf n) := by
  rw [showTrip_eq, Dev.when, tripRises_of_untimed (tripEvent_untimed h hn _), ite_self]

theorem showTrip_untimed {d : Dev} (h : d.untimed) {n : Nat} (hn : n < 192) : (d.showTrip n).untimed := by
  rw [showTrip_of_untimed h hn]
  split
  · exact h
  · exact tripEvent_untimed h hn _

theorem showTrip_comps {d : Dev} (h : d.untimed) {n : Nat} (hn : n < 192) : (d.showTrip n).comps = d.comps := by
  rw [showTrip_of_untimed h hn]
  split
  · rfl
  · rw [tripEvent_comps, tripShown_comps]

/-! ### What a command of the comparators makes -/

/-- Keys of blocks 0x03 to 0x1F: none of the Ledger, of a timer or of a rail. -/
def lowKeys (l : List Nat) : Prop := ∀ k ∈ l, 0x30000 ≤ k ∧ k < 0x200000

/-- From `d` to `e` a command wrote no words but those at the keys in `l`, made the records `rs` and raised events; the units are those of
`d₀`, but for the comparators. -/
structure Dev.CompRun (d d₀ e : Dev) (l : List Nat) (rs : List Record) : Prop where
  makes : ∃ ids, d.Makes e l ids rs
  units : { d₀ with comps := e.comps }.keepsUnits e
  now : e.now = d.now
  base : d₀.regs = d.regs

namespace Dev.CompRun

variable {d d₀ e : Dev} {l : List Nat} {rs : List Record}

theorem begun (d : Dev) (l : List Nat) : d.CompRun d d.begun l [] := ⟨⟨[], Makes.begun d⟩, ⟨rfl, fun _ => rfl⟩, rfl, rfl⟩

theorem setFld (h : d.CompRun d₀ e l rs) {f : Fld} (hf : f.addr ∈ l) (n : Nat) : d.CompRun d₀ (e.setFld f n) l rs :=
  have ⟨ids, hm⟩ := h.makes
  ⟨⟨ids, hm.setFld hf n⟩, h.units.setFld f n, h.now, h.base⟩

theorem setNum (h : d.CompRun d₀ e l rs) {a : Nat} (ha : a ∈ l) (n : Nat) : d.CompRun d₀ (e.setNum a n) l rs :=
  have ⟨ids, hm⟩ := h.makes
  ⟨⟨ids, hm.setNum ha n⟩, h.units.setReg a _, h.now, h.base⟩

theorem raise (h : d.CompRun d₀ e l rs) (id : Nat) : d.CompRun d₀ (e.raise id) l rs :=
  have ⟨_, hm⟩ := h.makes
  ⟨⟨_, hm.raise h.now id⟩, h.units.raise id, h.now, h.base⟩

theorem sysRec (h : d.CompRun d₀ e l rs) (a : Nat) (old : Word) :
    d.CompRun d₀ (e.sysRec a old) l (rs ++ [wordRecord d.nowNs .system 0 0x0600 a (e.reg a) old]) :=
  have ⟨_, hm⟩ := h.makes
  ⟨⟨_, hm.sysRec h.now a old⟩, h.units.sysRec a old, h.now, h.base⟩

theorem setComp (h : d.CompRun d₀ e l rs) (n : Nat) (x : CompSt) : d.CompRun d₀ (e.setComp n x) l rs :=
  have ⟨ids, hm⟩ := h.makes
  ⟨⟨ids, hm.frame rfl rfl rfl rfl⟩, ⟨congrArg (fun u : Dev => { u with comps := (e.setComp n x).comps }) h.units.1, h.units.2⟩,
    h.now, h.base⟩

theorem setCompBlk (h : d.CompRun d₀ e l rs) (b : Nat) (x : CompBlk) :
    d.CompRun { d₀ with compBlks := (e.setCompBlk b x).compBlks } (e.setCompBlk b x) l rs :=
  have ⟨ids, hm⟩ := h.makes
  ⟨⟨ids, hm.frame rfl rfl rfl rfl⟩, ⟨congrArg (fun u : Dev => { u with compBlks := (e.setCompBlk b x).compBlks }) h.units.1, h.units.2⟩,
    h.now, h.base⟩

theorem report (h : d.CompRun d₀ e l rs) (src unit : Nat) :
    d.CompRun { d₀ with faults := (e.report src unit).faults } (e.report src unit) l rs :=
  have ⟨ids, hm⟩ := h.makes
  ⟨⟨ids, hm.report src unit⟩, ⟨congrArg (fun u : Dev => { u with faults := (e.report src unit).faults }) h.units.1, h.units.2⟩,
    h.now, h.base⟩

theorem noteCalib (h : d.CompRun d₀ e l rs) (block idx : Nat) (body : List Byte) :
    d.CompRun { d₀ with trued := (e.noteCalib block idx body).trued } (e.noteCalib block idx body) l rs :=
  have ⟨ids, hm⟩ := h.makes
  ⟨⟨ids, hm.frame rfl rfl rfl rfl⟩, ⟨congrArg (fun u : Dev => { u with trued := (e.noteCalib block idx body).trued }) h.units.1, h.units.2⟩,
    h.now, h.base⟩

theorem untimed (h : d.CompRun d₀ e l rs) (hl : lowKeys l) (hu : d.untimed) : e.untimed :=
  have ⟨_, hm⟩ := h.makes
  untimed_of_flds hu fun g _ hg => Dev.fld_of_reg (hm.regs g.addr fun hmem => by have := hl _ hmem; omega)

theorem compBlks (h : d.CompRun d₀ e l rs) : e.compBlks = d₀.compBlks := by rw [h.units.1]; rfl
theorem faults (h : d.CompRun d₀ e l rs) : e.faults = d₀.faults := by rw [h.units.1]; rfl
/-- The occurrence that a command reports. -/
theorem report_faults (h : d.CompRun d₀ e l rs) (src unit : Nat) :
    (e.report src unit).faults = d₀.faults ++ [{ src := src, unit := unit, stamp := d.nowNs }] := by
  have hreport : (e.report src unit).faults = e.faults ++ [{ src := src, unit := unit, stamp := e.nowNs }] := rfl
  rw [hreport, h.faults, Dev.nowNs, h.now, ← Dev.nowNs]

theorem trued (h : d.CompRun d₀ e l rs) : e.trued = d₀.trued := by rw [h.units.1]; rfl

theorem tripShown (h : d.CompRun d₀ e l rs) {n : Nat} (hk : ∀ f ∈ tripFlds n, f.addr ∈ l) (new : Bool) :
    d.CompRun d₀ (e.tripShown n new) l rs := by
  simp only [tripFlds, List.forall_mem_cons] at hk
  obtain ⟨htrip, hplace, htripped, hcount, -⟩ := hk
  have hsig := (h.setFld htrip (b2n new)).setFld hplace (b2n new)
  exact when_cases (p := fun u => d.CompRun d₀ u l rs) new hsig ((hsig.setFld htripped 1).setFld hcount _)

theorem tripEvent (h : d.CompRun d₀ e l rs) (n : Nat) (new : Bool) : d.CompRun d₀ (e.tripEvent n new) l rs :=
  when_cases (p := fun u => d.CompRun d₀ u l rs) _ h (h.raise _)

theorem showTrip (h : d.CompRun d₀ e l rs) (hl : lowKeys l) (hu : d.untimed) {n : Nat} (hn : n < 192)
    (hk : ∀ f ∈ tripFlds n, f.addr ∈ l) : d.CompRun d₀ (e.showTrip n) l rs := by
  rw [showTrip_of_untimed (h.untimed hl hu) hn]
  split
  · exact h
  · exact (h.tripShown hk _).tripEvent _ _

/-! #### At the end of the command -/

theorem settle_units (h : d.CompRun d₀ e l rs) (hl : lowKeys l) : { d₀ with comps := (settle e).comps }.keepsUnits (settle e) := by
  obtain ⟨_, hm⟩ := h.makes
  rw [settle_comps]
  exact hm.settle_keepsUnits (d₀ := { d₀ with comps := e.comps })
    (fun hmem => absurd (hl _ hmem).1 (by decide)) h.base h.units

theorem settle_keepsRegs (h : d.CompRun d₀ e l rs) : d.keepsRegs (settle e) l := have ⟨_, hm⟩ := h.makes; hm.settle_keepsRegs

theorem settle_noRecord (h : d.CompRun d₀ e l []) (hl : lowKeys l) : d.noRecord (settle e) :=
  have ⟨_, hm⟩ := h.makes
  hm.settle_noRecord fun hmem => absurd (hl _ hmem).1 (by decide)

theorem settle_oneRecord {r : Record} (h : d.CompRun d₀ e l [r]) (hl : lowKeys l) : d.oneRecord (settle e) r :=
  have ⟨_, hm⟩ := h.makes
  hm.settle_oneRecord fun hmem => absurd (hl _ hmem).1 (by decide)

end Dev.CompRun

/-! ### Both trip signals of a pair brought up to date (R121, R124, R127) -/

theorem comp_setComp_self (d : Dev) (n : Nat) (x : CompSt) : (d.setComp n x).comp n = x := Tab.get_set_self ({} : CompSt) n x d.comps

theorem comp_setComp_ne (d : Dev) {m n : Nat} (h : m ≠ n) (x : CompSt) : (d.setComp n x).comp m = d.comp m :=
  Tab.get_set_ne ({} : CompSt) {} h x d.comps

/-- A comparator without the disagreement timer of its pair. -/
def CompSt.unwatched (x : CompSt) : CompSt := { x with disSince := none, disArmed := true }

/-- What the disagreement timer does not touch. -/
theorem CompSt.eq_of_unwatched {x y : CompSt} (h : x.unwatched = y.unwatched) :
    x.contrib = y.contrib ∧ x.riseAt = y.riseAt ∧ x.settleEnd = y.settleEnd ∧ x.failed = y.failed := by
  simp only [CompSt.unwatched, CompSt.mk.injEq] at h
  obtain ⟨hcontrib, hrise, hsettle, hfailed, -⟩ := h
  exact ⟨hcontrib, hrise, hsettle, hfailed⟩

theorem pairWatch_unwatched (d : Dev) (n m : Nat) : ((d.pairWatch n).comp m).unwatched = (d.comp m).unwatched := by
  unfold Dev.pairWatch
  extract_lets a x differ run since
  by_cases h : m = a
  · rw [h, comp_setComp_self]
    rfl
  · rw [comp_setComp_ne _ h]

theorem pairShow_fld (d : Dev) (n : Nat) {g : Fld} (hg : g.tripFree) : (d.pairShow n).fld g = d.fld g :=
  calc (d.pairShow n).fld g = ((d.showTrip (n / 2 * 2)).showTrip (n / 2 * 2 + 1)).fld g := Dev.fld_of_regs g rfl
    _ = d.fld g := by rw [showTrip_fld_ne _ (hg _), showTrip_fld_ne _ (hg _)]

theorem pairShow_flag (d : Dev) (n : Nat) {g : Fld} (hg : g.tripFree) : (d.pairShow n).flag g = d.flag g := by
  rw [Dev.flag, pairShow_fld d n hg, Dev.flag]

theorem pairShow_unwatched {d : Dev} (h : d.untimed) {n : Nat} (hn : n < 192) (m : Nat) :
    ((d.pairShow n).comp m).unwatched = (d.comp m).unwatched := by
  rw [Dev.pairShow, pairWatch_unwatched, Dev.comp, showTrip_comps (showTrip_untimed h (by omega)) (by omega),
    showTrip_comps h (by omega), ← Dev.comp]

theorem Dev.TripAt.of_flds {d e e' : Dev} {n : Nat} (h : d.TripAt e n) (hf : ∀ g ∈ tripFlds n, e'.fld g = e.fld g) : d.TripAt e' n := by
  simp only [tripFlds, List.forall_mem_cons] at hf
  obtain ⟨-, hplace, htripped, hcount, -⟩ := hf
  exact ⟨by rw [tripSig_eq_flag, Dev.flag, hplace, ← Dev.flag, ← tripSig_eq_flag, h.sig], by rw [Dev.flag, htripped, ← Dev.flag, h.tripped],
    hcount.trans h.count⟩

/-- The trip signal of a comparator is brought up to date with its pair. -/
theorem pairShow_tripAt {d : Dev} (h : d.untimed) {n : Nat} (hn : n < 192) : d.TripAt (d.pairShow n) n := by
  have heven : n / 2 * 2 < 192 := by omega
  rcases (by omega : n = n / 2 * 2 ∨ n = n / 2 * 2 + 1) with ha | ha
  · refine Dev.TripAt.of_flds (e := d.showTrip n) (showTrip_tripAt d hn) fun g hg => ?_
    calc (d.pairShow n).fld g = ((d.showTrip (n / 2 * 2)).showTrip (n / 2 * 2 + 1)).fld g := Dev.fld_of_regs g rfl
      _ = (d.showTrip n).fld g := by rw [showTrip_fld_ne _ (tripFlds_clearOf hn (by omega) g hg), ← ha]
  · have hkept (g : Fld) (hg : g ∈ tripFlds n) : (d.showTrip (n / 2 * 2)).fld g = d.fld g :=
      showTrip_fld_ne _ (tripFlds_clearOf hn (by omega) g hg)
    have hof : (d.showTrip (n / 2 * 2)).tripOf n = d.tripOf n :=
      tripOf_congr hn (showTrip_comps h heven) fun g hg => showTrip_fld_ne d (hg _)
    simp only [tripFlds, List.forall_mem_cons] at hkept
    obtain ⟨-, hplace, htripped, hcount, -⟩ := hkept
    have hsig : (d.showTrip (n / 2 * 2)).tripSig n = d.tripSig n := by rw [tripSig_eq_flag, Dev.flag, hplace, ← Dev.flag, ← tripSig_eq_flag]
    have hat := showTrip_tripAt (d.showTrip (n / 2 * 2)) hn
    have hshow : d.TripAt ((d.showTrip (n / 2 * 2)).showTrip n) n :=
      ⟨hat.sig.trans hof, by rw [hat.tripped, hof, hsig, Dev.flag, htripped, Dev.flag], by rw [hat.count, hof, hsig, hcount]⟩
    refine hshow.of_flds fun g hg => ?_
    rw [Dev.pairShow, ← ha]
    exact Dev.fld_of_regs g rfl

/-! #### The words that a pair's trip signals are shown in -/

/-- The words in which the trip signals of comparator `n` and of its mate are shown. -/
def tripKeys (n : Nat) : List Nat :=
  [COMP.CMP_STATUS n, COMP.CMP_STATUS (mate n), COMP.CMP_COUNT n, COMP.CMP_COUNT (mate n), COMP.TRIP (n / 96 * 3 + n % 96 / 32)]

theorem tripFlds_mem_tripKeys {n m : Nat} (hm : m = n ∨ m = mate n) : ∀ f ∈ tripFlds m, f.addr ∈ tripKeys n := by
  have hword : m / 96 * 3 + m % 96 / 32 = n / 96 * 3 + n % 96 / 32 := by
    unfold mate at hm
    split at hm <;> omega
  intro f hf
  simp only [tripFlds, List.mem_cons, List.not_mem_nil, or_false] at hf
  rcases hf with rfl | rfl | rfl | rfl <;> rcases hm with rfl | rfl <;>
    simp [tripKeys, COMP.CMP_STATUS_TRIP, COMP.CMP_STATUS_TRIPPED, COMP.CMP_COUNT_TRIPS, tripPlace, hword]

theorem pair_eq (n : Nat) : (n / 2 * 2 = n ∨ n / 2 * 2 = mate n) ∧ (n / 2 * 2 + 1 = n ∨ n / 2 * 2 + 1 = mate n) := by
  unfold mate
  split <;> omega

theorem Dev.CompRun.pairShow {d d₀ e : Dev} {l : List Nat} {rs : List Record} (h : d.CompRun d₀ e l rs) (hl : lowKeys l) (hu : d.untimed)
    {n : Nat} (hn : n < 192) (hk : tripKeys n ⊆ l) : d.CompRun d₀ (e.pairShow n) l rs := by
  obtain ⟨heven, hodd⟩ := pair_eq n
  exact ((h.showTrip hl hu (by omega) fun f hf => hk (tripFlds_mem_tripKeys heven f hf)).showTrip hl hu (by omega) fun f hf =>
    hk (tripFlds_mem_tripKeys hodd f hf)).setComp _ _

/-! ### OUT that follows the input (R119, R123) -/

theorem setOutBit_fld_ne (d : Dev) (n : Nat) (b : Bool) {g : Fld} (hw : g.hi < 32) (hs : g.addr ≠ COMP.CMP_STATUS n ∨ 0 < g.lo)
    (ho : g.addr ≠ (outPlace n).addr) : (d.setOutBit n b).fld g = d.fld g := by
  rw [setOutBit_eq, Dev.fld_setFld_ne _ _ _ _ (le_refl (n % 32)) hw (.inl ho),
    Dev.fld_setFld_ne _ _ _ _ (le_refl 0) hw (hs.imp id .inr)]

theorem setOutBit_outBit (d : Dev) (n : Nat) (b : Bool) : (d.setOutBit n b).outBit n = b := by
  rw [setOutBit_eq, Dev.outBit, Dev.flag_setFld_ne _ _ _ _ (le_refl (n % 32)) (by decide : 0 < 32) (.inl (outPlace_ne_status n n).symm)]
  exact Dev.flag_setFld_b2n d (COMP.CMP_STATUS_OUT n) b (le_refl 0) (by decide : 0 < 32)

/-- What a comparator keeps once OUT has become `b` at `now`, with the filter code `filt` (R123). -/
def CompSt.follow (x : CompSt) (b : Bool) (filt : Nat) (now : Time) : CompSt :=
  if !b then { x with contrib := false, riseAt := none }
  else if x.contrib then x
  else if filt = 0 then { x with contrib := true, riseAt := none }
  else if x.riseAt.isSome then x
  else { x with riseAt := some now }

/-- The comparator after OUT has become `b`, before its pair is brought up to date. -/
def Dev.following (d : Dev) (n : Nat) (b : Bool) : Dev :=
  (d.setOutBit n b).setComp n ((d.comp n).follow b (d.fld (COMP.CMP_CFG_FILT n)) d.now)

theorem cfg_ne_status (m n : Nat) : COMP.CMP_CFG m ≠ COMP.CMP_STATUS n := by unfold COMP.CMP_CFG COMP.CMP_STATUS; omega

theorem cfg_ne_out (m n : Nat) : COMP.CMP_CFG m ≠ (outPlace n).addr := by simp only [COMP.CMP_CFG, outPlace, COMP.OUT]; omega

theorem compSetOut_eq (d : Dev) (n : Nat) (b : Bool) : d.compSetOut n b = (d.following n b).pairShow n := by
  have hfilt : (d.setOutBit n b).fld (COMP.CMP_CFG_FILT n) = d.fld (COMP.CMP_CFG_FILT n) :=
    setOutBit_fld_ne d n b (by decide : 13 < 32) (.inl (cfg_ne_status n n)) (cfg_ne_out n n)
  rw [Dev.following, ← hfilt]
  rfl

theorem following_fld_ne (d : Dev) (n : Nat) (b : Bool) {g : Fld} (hw : g.hi < 32) (hs : g.addr ≠ COMP.CMP_STATUS n ∨ 0 < g.lo)
    (ho : g.addr ≠ (outPlace n).addr) : (d.following n b).fld g = d.fld g :=
  (Dev.fld_of_regs g rfl).trans (setOutBit_fld_ne d n b hw hs ho)

theorem tripFree_service {n : Nat} (hn : n < 192) : (COMP.CMP_STATUS_SERVICE n).tripFree :=
  tripFree_of_status hn rfl (by decide : 6 < 32) (.inr (.inl (by decide : 1 < 4 ∧ 6 < 8)))

theorem tripFree_out {n : Nat} (hn : n < 192) : (COMP.CMP_STATUS_OUT n).tripFree :=
  tripFree_of_status hn rfl (by decide : 0 < 32) (.inl (by decide : 0 < 1))

theorem pairShow_service (d : Dev) (m : Nat) {n : Nat} (hn : n < 192) : (d.pairShow m).service n = d.service n :=
  pairShow_fld d m (tripFree_service hn)

theorem following_service (d : Dev) (m n : Nat) (b : Bool) : (d.following m b).service n = d.service n :=
  following_fld_ne d m b (by decide : 6 < 32) (.inr (by decide : 0 < 4)) (outPlace_ne_status m n).symm

theorem compSetOut_outBit (d : Dev) {n : Nat} (hn : n < 192) (b : Bool) : (d.compSetOut n b).outBit n = b := by
  rw [compSetOut_eq, Dev.outBit, pairShow_flag _ n (tripFree_out hn)]
  exact setOutBit_outBit d n b

theorem compSetOut_service (d : Dev) {n : Nat} (hn : n < 192) (b : Bool) : (d.compSetOut n b).service n = d.service n := by
  rw [compSetOut_eq, pairShow_service _ _ hn, following_service]

theorem following_untimed {d : Dev} (h : d.untimed) {n : Nat} (hn : n < 192) (b : Bool) : (d.following n b).untimed :=
  untimed_of_flds h fun g hw hg =>
    following_fld_ne d n b hw (.inl (by unfold COMP.CMP_STATUS; omega)) (by simp only [outPlace, COMP.OUT]; omega)

/-- What the comparator keeps, but for its pair's disagreement timer. -/
theorem compSetOut_unwatched {d : Dev} (h : d.untimed) {n : Nat} (hn : n < 192) (b : Bool) :
    ((d.compSetOut n b).comp n).unwatched = ((d.comp n).follow b (d.fld (COMP.CMP_CFG_FILT n)) d.now).unwatched := by
  rw [compSetOut_eq, pairShow_unwatched (following_untimed h hn b) hn, Dev.following, comp_setComp_self]

/-- In an INDEPENDENT pair a trip signal is TRIP_EN and the comparator's own contribution (R121). -/
theorem tripOf_independent {d : Dev} {n : Nat} (hp : d.pairing n = 0) :
    d.tripOf n = (d.flag (COMP.PAIR_CFG_TRIP_EN (n / 2 * 2)) && d.contribution n) := by
  simp only [Dev.tripOf, hp]

theorem contribution_of_inService {d : Dev} {n : Nat} (hs : d.service n = 1) : d.contribution n = (d.comp n).contrib := by
  rw [Dev.contribution, hs]
  rfl

theorem pairCfg_ne_outPlace (m n : Nat) : COMP.PAIR_CFG m ≠ (outPlace n).addr := pairCfg_ne_out

theorem following_tripOf {d : Dev} {n : Nat} (hs : d.service n = 1) (hp : d.pairing n = 0) (b : Bool) : (d.following n b).tripOf n =
    (d.flag (COMP.PAIR_CFG_TRIP_EN (n / 2 * 2)) && ((d.comp n).follow b (d.fld (COMP.CMP_CFG_FILT n)) d.now).contrib) := by
  have hpair (g : Fld) (hg : g.addr = COMP.PAIR_CFG (n / 2 * 2)) (hw : g.hi < 32) : (d.following n b).fld g = d.fld g :=
    following_fld_ne d n b hw (.inl (hg ▸ pairCfg_ne_status _ n)) (hg ▸ pairCfg_ne_outPlace _ n)
  rw [tripOf_independent ((hpair (COMP.PAIR_CFG_PAIRING (n / 2 * 2)) rfl (by decide : 1 < 32)).trans hp),
    contribution_of_inService ((following_service d n n b).trans hs), Dev.flag, hpair _ rfl (by decide : 8 < 32), Dev.following,
    comp_setComp_self, Dev.flag]

theorem following_tripFlds (d : Dev) (n : Nat) (b : Bool) : ∀ g ∈ tripFlds n, (d.following n b).fld g = d.fld g := by
  intro g hg
  simp only [tripFlds, List.mem_cons, List.not_mem_nil, or_false] at hg
  rcases hg with rfl | rfl | rfl | rfl
  · exact following_fld_ne d n b (by decide : 1 < 32) (.inr (by decide : 0 < 1)) (outPlace_ne_status n n).symm
  · exact following_fld_ne d n b (by simp only [tripPlace]; omega) (.inl (tripPlace_ne_status n n))
      (by simp only [tripPlace, outPlace, COMP.TRIP, COMP.OUT]; omega)
  · exact following_fld_ne d n b (by decide : 8 < 32) (.inr (by decide : 0 < 8)) (outPlace_ne_status n n).symm
  · exact following_fld_ne d n b (by decide : 15 < 32) (.inl (by simp only [COMP.CMP_COUNT_TRIPS, COMP.CMP_COUNT, COMP.CMP_STATUS]; omega))
      (by simp only [COMP.CMP_COUNT_TRIPS, COMP.CMP_COUNT, outPlace, COMP.OUT]; omega)

/-- The trip signal of a comparator in service, in an INDEPENDENT pair, once OUT has become `b` (R119, R121, R124). -/
theorem compSetOut_trip {d : Dev} (h : d.untimed) {n : Nat} (hn : n < 192) (hs : d.service n = 1) (hp : d.pairing n = 0) (b : Bool)
    {x : CompSt} (hx : (d.comp n).follow b (d.fld (COMP.CMP_CFG_FILT n)) d.now = x) :
    (d.compSetOut n b).tripSig n = (d.flag (COMP.PAIR_CFG_TRIP_EN (n / 2 * 2)) && x.contrib) ∧
    (d.compSetOut n b).flag (COMP.CMP_STATUS_TRIPPED n) =
      (d.flag (COMP.CMP_STATUS_TRIPPED n) || ((d.compSetOut n b).tripSig n && !d.tripSig n)) ∧
    (d.compSetOut n b).fld (COMP.CMP_COUNT_TRIPS n) = if (d.compSetOut n b).tripSig n = true ∧ d.tripSig n = false then
      satInc 0xFFFF (d.fld (COMP.CMP_COUNT_TRIPS n)) else d.fld (COMP.CMP_COUNT_TRIPS n) := by
  obtain ⟨hsig, htripped, hcount⟩ := pairShow_tripAt (following_untimed h hn b) hn
  have hkept := following_tripFlds d n b
  simp only [tripFlds, List.forall_mem_cons] at hkept
  obtain ⟨-, hplace, hstatus, hcnt, -⟩ := hkept
  have hold : (d.following n b).tripSig n = d.tripSig n := by rw [tripSig_eq_flag, Dev.flag, hplace, ← Dev.flag, ← tripSig_eq_flag]
  rw [← compSetOut_eq] at hsig htripped hcount
  refine ⟨hsig.trans (hx ▸ following_tripOf hs hp b), ?_, ?_⟩
  · rw [htripped, ← hsig, hold, Dev.flag, hstatus, ← Dev.flag]
  · rw [hcount, ← hsig, hold, hcnt]

/-! #### The words of a comparator -/

/-- The words in which OUT of comparator `n` is shown. -/
def outKeys (n : Nat) : List Nat := [COMP.CMP_STATUS n, COMP.OUT (n / 96 * 3 + n % 96 / 32)]

/-- The words in which OUT of comparator `n` and the trip signals of its pair are shown. -/
def compKeys (n : Nat) : List Nat :=
  [COMP.CMP_STATUS n, COMP.CMP_STATUS (mate n), COMP.CMP_COUNT n, COMP.CMP_COUNT (mate n), COMP.OUT (n / 96 * 3 + n % 96 / 32),
    COMP.TRIP (n / 96 * 3 + n % 96 / 32)]

theorem outKeys_subset (n : Nat) : outKeys n ⊆ compKeys n := by
  intro k hk
  simp only [outKeys, compKeys, List.mem_cons, List.not_mem_nil, or_false] at hk ⊢
  tauto

theorem tripKeys_subset (n : Nat) : tripKeys n ⊆ compKeys n := by
  intro k hk
  simp only [tripKeys, compKeys, List.mem_cons, List.not_mem_nil, or_false] at hk ⊢
  tauto

theorem compKeys_low {n : Nat} (hn : n < 192) : lowKeys (compKeys n) := by
  have hmate : mate n < 192 := by
    unfold mate
    split <;> omega
  intro k hk
  simp only [compKeys, List.mem_cons, List.not_mem_nil, or_false] at hk
  rcases hk with rfl | rfl | rfl | rfl | rfl | rfl <;> simp only [COMP.CMP_STATUS, COMP.CMP_COUNT, COMP.OUT, COMP.TRIP] <;> omega

theorem lowKeys.subset {l l' : List Nat} (h : lowKeys l) (hs : l' ⊆ l) : lowKeys l' := fun k hk => h k (hs hk)

namespace Dev.CompRun

variable {d d₀ e : Dev} {l : List Nat} {rs : List Record}

theorem setOutBit (h : d.CompRun d₀ e l rs) {n : Nat} (hk : outKeys n ⊆ l) (b : Bool) : d.CompRun d₀ (e.setOutBit n b) l rs := by
  rw [setOutBit_eq]
  exact (h.setFld (f := COMP.CMP_STATUS_OUT n) (hk (by simp [outKeys, COMP.CMP_STATUS_OUT])) _).setFld (f := outPlace n)
    (hk (by simp [outKeys, outPlace])) _

theorem compSetOut (h : d.CompRun d₀ e l rs) (hl : lowKeys l) (hu : d.untimed) {n : Nat} (hn : n < 192) (hk : compKeys n ⊆ l) (b : Bool) :
    d.CompRun d₀ (e.compSetOut n b) l rs := by
  rw [compSetOut_eq]
  exact ((h.setOutBit (List.Subset.trans (outKeys_subset n) hk) b).setComp n _).pairShow hl hu hn (List.Subset.trans (tripKeys_subset n) hk)

end Dev.CompRun

/-! ### The end of a command of the comparators -/

theorem settle_compFld (d : Dev) {g : Fld} (hg : 0x80000 ≤ g.addr) : (settle d).fld g = d.fld g :=
  settle_fld d g (by omega) (by omega)

theorem settle_compFlag (d : Dev) {g : Fld} (hg : 0x80000 ≤ g.addr) : (settle d).flag g = d.flag g :=
  settle_flag d g (by omega) (by omega)

theorem cmpStatus_high (n : Nat) : 0x80000 ≤ COMP.CMP_STATUS n := by unfold COMP.CMP_STATUS; omega
theorem cmpCount_high (n : Nat) : 0x80000 ≤ COMP.CMP_COUNT n := by unfold COMP.CMP_COUNT; omega

theorem settle_service (d : Dev) (n : Nat) : (settle d).service n = d.service n :=
  settle_compFld d (g := COMP.CMP_STATUS_SERVICE n) (cmpStatus_high n)

theorem settle_outBit (d : Dev) (n : Nat) : (settle d).outBit n = d.outBit n :=
  settle_compFlag d (g := COMP.CMP_STATUS_OUT n) (cmpStatus_high n)

theorem settle_tripSig (d : Dev) (n : Nat) : (settle d).tripSig n = d.tripSig n := by
  rw [tripSig_eq_flag, tripSig_eq_flag, settle_compFlag d (by simp only [tripPlace, COMP.TRIP]; omega)]

theorem settle_comp (d : Dev) (n : Nat) : (settle d).comp n = d.comp n := by rw [Dev.comp, settle_comps, Dev.comp]

/-! ### The commands of a comparator (R119, R123, R126) -/

/-- An input that crosses the reference, by the comparator's SERVICE. -/
def Dev.crossed (d : Dev) (n : Nat) (vd : Int) : Dev :=
  if d.service n = 1 then d.compSetOut n (d.compOut n vd (d.outBit n))
  else if d.service n = 4 then d.setOutBit n (d.compOut n vd (d.outBit n)) else d

theorem exec_compInputCrossing (n : Fin 192) (vd : Int) (s : State) :
    exec (.compInputCrossing n vd) s = .next { s with dev := settle (s.dev.begun.crossed n vd) } := rfl

theorem crossed_inService {d : Dev} {n : Nat} (hs : d.service n = 1) (vd : Int) :
    d.crossed n vd = d.compSetOut n (d.compOut n vd (d.outBit n)) := if_pos hs

theorem crossed_failed {d : Dev} {n : Nat} (hs : d.service n = 4) (vd : Int) :
    d.crossed n vd = d.setOutBit n (d.compOut n vd (d.outBit n)) := by
  rw [Dev.crossed, hs, if_neg (by decide), if_pos rfl]

/-- A contribution that rises at once, or falls. -/
theorem follow_at_once {x : CompSt} {b : Bool} {filt : Nat} (h : filt = 0 ∨ b = false) (now : Time) : (x.follow b filt now).contrib = b := by
  cases b with
  | false => rfl
  | true =>
    have hfilt : filt = 0 := h.resolve_right (by decide)
    by_cases hc : x.contrib = true
    · simp [CompSt.follow, hc]
    · simp [CompSt.follow, hc, hfilt]

/-- A rise that the filter holds back. -/
theorem follow_held {x : CompSt} {filt : Nat} (hf : filt ≠ 0) (hc : x.contrib = false) (hr : x.riseAt = none) (now : Time) :
    x.follow true filt now = { x with riseAt := some now } := by
  simp [CompSt.follow, hf, hc, hr]

theorem compOut_above {d : Dev} {n : Nat} {vd : Int} (hm : d.compMode n ≠ 0) (hb : d.compBelow n = false)
    (h : sext 10 (d.fld (COMP.CMP_REF_REF n)) * d.lsb2 n < 2 * vd) (was : Bool) : d.compOut n vd was = true := by
  simp [Dev.compOut, hm, hb, h]

/-- OUT of a comparator in service that becomes `b`, at the end of the command. -/
theorem settle_compSetOut {d : Dev} (h : d.untimed) {n : Nat} (hn : n < 192) (b : Bool) :
    let e := settle (d.begun.compSetOut n b)
    e.outBit n = b ∧ (e.comp n).unwatched = ((d.comp n).follow b (d.fld (COMP.CMP_CFG_FILT n)) d.now).unwatched ∧
    d.keepsRegs e (compKeys n) ∧ { d with comps := e.comps }.keepsUnits e ∧ d.noRecord e := by
  intro e
  have hl := compKeys_low hn
  have hr : d.CompRun d (d.begun.compSetOut n b) (compKeys n) [] :=
    (Dev.CompRun.begun d _).compSetOut hl h hn (List.Subset.refl _) b
  refine ⟨(settle_outBit _ n).trans (compSetOut_outBit _ hn b), ?_, hr.settle_keepsRegs, hr.settle_units hl, hr.settle_noRecord hl⟩
  rw [settle_comp]
  exact compSetOut_unwatched (d := d.begun) h hn b

/-! ### The filter (R123) -/

/-- The comparator whose rise the filter lets through, before its pair is brought up to date. -/
def Dev.filtered (d : Dev) (n : Nat) : Dev := d.setComp n { d.comp n with contrib := true, riseAt := none }

theorem exec_compFilterExpiry {n : Fin 192} {s : State} {t : Time} (hr : (s.dev.comp n.val).riseAt = some t)
    (hs : s.dev.service n.val = 1) (ho : s.dev.outBit n.val = true)
    (hdue : s.dev.due (t + nsT (compFilt (s.dev.fld (COMP.CMP_CFG_FILT n.val)))) = true) :
    exec (.compFilterExpiry n) s = .next { s with dev := settle ((s.dev.begun.filtered n.val).pairShow n.val) } := by
  have hgo : (decide (s.dev.service n.val = 1) && s.dev.outBit n.val &&
      s.dev.due (t + nsT (compFilt (s.dev.fld (COMP.CMP_CFG_FILT n.val))))) = true := by rw [hs, ho, hdue]; rfl
  refine congrArg (fun d => Host.Outcome.next { s with dev := settle d }) ?_
  dsimp only
  split
  case h_1 hnone => exact absurd (hr.symm.trans hnone) (by simp)
  case h_2 u hsome =>
    obtain rfl : t = u := Option.some.inj (hr.symm.trans hsome)
    exact Dev.when_of_true s.dev.begun hgo _

theorem filtered_untimed {d : Dev} (h : d.untimed) (n : Nat) : (d.begun.filtered n).untimed := h

/-- In an INDEPENDENT pair the rise reaches the trip signal (R121, R123). -/
theorem filtered_tripOf {d : Dev} {n : Nat} (hs : d.service n = 1) (hp : d.pairing n = 0) :
    (d.filtered n).tripOf n = d.flag (COMP.PAIR_CFG_TRIP_EN (n / 2 * 2)) := by
  rw [tripOf_independent (d := d.filtered n) hp, contribution_of_inService (d := d.filtered n) hs, Dev.filtered, comp_setComp_self, Bool.and_true]
  rfl

theorem Dev.CompRun.filtered (d : Dev) (l : List Nat) (n : Nat) : d.CompRun d (d.begun.filtered n) l [] :=
  (Dev.CompRun.begun d l).setComp n _

/-! ### The end of the settle time (R126) -/

theorem tripPlace_ne_out (m n : Nat) : (tripPlace m).addr ≠ (outPlace n).addr := by
  simp only [tripPlace, outPlace, COMP.TRIP, COMP.OUT]; omega

theorem setService_fld_ne (d : Dev) (n v : Nat) {g : Fld} (hw : g.hi < 32) (hg : g.addr ≠ COMP.CMP_STATUS n ∨ g.hi < 4 ∨ 6 < g.lo) :
    (d.setService n v).fld g = d.fld g :=
  Dev.fld_setFld_ne d (COMP.CMP_STATUS_SERVICE n) g v (by decide : 4 ≤ 6) hw hg

theorem setService_service (d : Dev) (n : Nat) {v : Nat} (hv : v < 8) : (d.setService n v).service n = v :=
  Dev.fld_setFld_of_lt d (COMP.CMP_STATUS_SERVICE n) v (by decide : 4 ≤ 6) (by decide : 6 < 32) hv

theorem setService_compMode (d : Dev) (m n v : Nat) : (d.setService m v).compMode n = d.compMode n :=
  setService_fld_ne d m v (by decide : 1 < 32) (.inl (cfg_ne_status n m))

theorem setService_outBit (d : Dev) (n v : Nat) : (d.setService n v).outBit n = d.outBit n := by
  rw [Dev.outBit, Dev.flag, setService_fld_ne d n v (by decide : 0 < 32) (.inr (.inl (by decide : 0 < 4))), ← Dev.flag, ← Dev.outBit]

theorem setService_compOut (d : Dev) (m n v : Nat) (vd : Int) (was : Bool) : (d.setService m v).compOut n vd was = d.compOut n vd was := by
  have hcfg (g : Fld) (ha : g.addr = COMP.CMP_CFG n) (hw : g.hi < 32) : (d.setService m v).fld g = d.fld g :=
    setService_fld_ne d m v hw (.inl (ha ▸ cfg_ne_status n m))
  have hhyst : (d.setService m v).fld (COMP.CMP_CFG_HYST n) = d.fld (COMP.CMP_CFG_HYST n) := hcfg _ rfl (by decide : 19 < 32)
  have hrange : (d.setService m v).fld (COMP.CMP_CFG_RANGE n) = d.fld (COMP.CMP_CFG_RANGE n) := hcfg _ rfl (by decide : 8 < 32)
  have hpol : (d.setService m v).fld (COMP.CMP_CFG_POL n) = d.fld (COMP.CMP_CFG_POL n) := hcfg _ rfl (by decide : 4 < 32)
  have href : (d.setService m v).fld (COMP.CMP_REF_REF n) = d.fld (COMP.CMP_REF_REF n) :=
    setService_fld_ne d m v (by decide : 9 < 32) (.inl (by simp only [COMP.CMP_REF_REF, COMP.CMP_REF, COMP.CMP_STATUS]; omega))
  have hpair : (d.setService m v).pairing n = d.pairing n :=
    setService_fld_ne d m v (by decide : 1 < 32) (.inl (pairCfg_ne_status _ m))
  simp only [Dev.compOut, setService_compMode, Dev.lsb2, Dev.compBelow, Dev.flag, href, hpair, hhyst, hrange, hpol] <;> rfl

theorem exec_compSettleEnd {n : Fin 192} {s : State} (vd : Int) (hs : s.dev.service n.val = 3)
    (hdue : s.dev.due (s.dev.comp n.val).settleEnd = true) : exec (.compSettleEnd n vd) s =
      .next { s with dev := settle ((s.dev.begun.setService n.val 1).compSetOut n.val (s.dev.compOut n.val vd (s.dev.outBit n.val))) } := by
  have hend : (decide (s.dev.begun.service n.val = 3) && s.dev.begun.due (s.dev.begun.comp n.val).settleEnd) = true := by
    rw [show s.dev.begun.service n.val = 3 from hs]
    exact hdue
  have hout : (s.dev.begun.setService n.val 1).compOut n.val vd ((s.dev.begun.setService n.val 1).outBit n.val)
      = s.dev.compOut n.val vd (s.dev.outBit n.val) := by
    rw [setService_compOut, setService_outBit]
    rfl
  rw [← hout]
  exact congrArg (fun d => Host.Outcome.next { s with dev := settle d }) (Dev.when_of_true s.dev.begun hend _)

/-! ### Disagreement (R127) -/

/-- Comparator A of a pair whose disagreement is past its limit, with the flag. -/
def Dev.disarmed (d : Dev) (a : Nat) : Dev := (d.setComp a { d.comp a with disArmed := false }).setFld (COMP.CMP_STATUS_DISAGREE a) 1

/-- A disagreement past its limit, counted. -/
def Dev.disagreed (d : Dev) (a : Nat) : Dev := (d.disarmed a).incFld (COMP.CMP_COUNT_DISAGREES a)

theorem exec_compDisagree {c : Fin 96} {s : State} {t : Time} (ht : (s.dev.comp (2 * c.val)).disSince = some t)
    (harm : (s.dev.comp (2 * c.val)).disArmed = true)
    (hlim : before (t + nsT (s.dev.fld (COMP.PAIR_CFG_DIS_TIME (2 * c.val)) *
      (if s.dev.flag (COMP.PAIR_CFG_DIS_SCALE (2 * c.val)) then 1000 else 10))) (s.dev.now ||| 63) = true) :
    exec (.compDisagree c) s = .next { s with dev := settle (((s.dev.begun.disagreed (2 * c.val)).raise 12).report 0x0E (2 * c.val)) } := by
  refine congrArg (fun d => Host.Outcome.next { s with dev := settle d }) ?_
  dsimp only
  split
  case h_1 hnone => exact absurd (ht.symm.trans hnone) (by simp)
  case h_2 u hsome =>
    obtain rfl : t = u := Option.some.inj (ht.symm.trans hsome)
    exact Dev.when_of_true s.dev.begun (Bool.and_eq_true_iff.mpr ⟨harm, hlim⟩) _

/-! ### An input that crosses the reference (R119, R121, R123, R130) -/

theorem exec_crossing_inService {s : State} {n : Fin 192} {vd : Int} {b : Bool} (hs : s.dev.service n.val = 1)
    (hb : s.dev.compOut n.val vd (s.dev.outBit n.val) = b) :
    exec (.compInputCrossing n vd) s = .next { s with dev := settle (s.dev.begun.compSetOut n.val b) } := by
  subst hb
  exact (exec_compInputCrossing n vd s).trans (congrArg (fun d => Host.Outcome.next { s with dev := settle d })
    (crossed_inService (d := s.dev.begun) hs vd))

theorem exec_crossing_failed {s : State} {n : Fin 192} {vd : Int} {b : Bool} (hs : s.dev.service n.val = 4)
    (hb : s.dev.compOut n.val vd (s.dev.outBit n.val) = b) :
    exec (.compInputCrossing n vd) s = .next { s with dev := settle (s.dev.begun.setOutBit n.val b) } := by
  subst hb
  exact (exec_compInputCrossing n vd s).trans (congrArg (fun d => Host.Outcome.next { s with dev := settle d })
    (crossed_failed (d := s.dev.begun) hs vd))

theorem settle_tripped (d : Dev) (n : Nat) : (settle d).flag (COMP.CMP_STATUS_TRIPPED n) = d.flag (COMP.CMP_STATUS_TRIPPED n) :=
  settle_compFlag d (cmpStatus_high n)

theorem settle_trips (d : Dev) (n : Nat) : (settle d).fld (COMP.CMP_COUNT_TRIPS n) = d.fld (COMP.CMP_COUNT_TRIPS n) :=
  settle_compFld d (cmpCount_high n)

/-- The trip signal at the end of the command, of a comparator in service in an INDEPENDENT pair, as its contribution `q` makes it. -/
theorem settle_compSetOut_trip {d : Dev} (h : d.untimed) {n : Nat} (hn : n < 192) (hs : d.service n = 1) (hp : d.pairing n = 0) {b q : Bool}
    (hq : ((d.comp n).follow b (d.fld (COMP.CMP_CFG_FILT n)) d.now).contrib = q) :
    let e := settle (d.begun.compSetOut n b)
    e.tripSig n = (d.flag (COMP.PAIR_CFG_TRIP_EN (n / 2 * 2)) && q) ∧
    e.flag (COMP.CMP_STATUS_TRIPPED n) = (d.flag (COMP.CMP_STATUS_TRIPPED n) || (e.tripSig n && !d.tripSig n)) ∧
    e.fld (COMP.CMP_COUNT_TRIPS n) = if e.tripSig n = true ∧ d.tripSig n = false then
      satInc 0xFFFF (d.fld (COMP.CMP_COUNT_TRIPS n)) else d.fld (COMP.CMP_COUNT_TRIPS n) := by
  intro e
  obtain ⟨hsig, htripped, hcount⟩ := compSetOut_trip (d := d.begun) h hn hs hp b rfl
  rw [← settle_tripSig] at hsig htripped hcount
  rw [← settle_tripped] at htripped
  rw [← settle_trips] at hcount
  exact ⟨hsig.trans (congrArg (d.flag (COMP.PAIR_CFG_TRIP_EN (n / 2 * 2)) && ·) hq), htripped, hcount⟩

/-- OUT that a comparator marked FAILED shows (R130). -/
theorem settle_setOutBit (d : Dev) {n : Nat} (hn : n < 192) (b : Bool) :
    let e := settle (d.begun.setOutBit n b)
    e.outBit n = b ∧ e.service n = d.service n ∧ e.tripSig n = d.tripSig n ∧ d.keepsRegs e (outKeys n) ∧ d.keepsUnits e ∧ d.noRecord e := by
  intro e
  have hl : lowKeys (outKeys n) := (compKeys_low hn).subset (outKeys_subset n)
  have hr : d.CompRun d (d.begun.setOutBit n b) (outKeys n) [] := (Dev.CompRun.begun d _).setOutBit (List.Subset.refl _) b
  have hservice : (d.begun.setOutBit n b).service n = d.service n :=
    setOutBit_fld_ne d.begun n b (by decide : 6 < 32) (.inr (by decide : 0 < 4)) (outPlace_ne_status n n).symm
  have hsig : (d.begun.setOutBit n b).fld (tripPlace n) = d.fld (tripPlace n) :=
    setOutBit_fld_ne d.begun n b (Nat.mod_lt _ (by decide)) (.inl (tripPlace_ne_status n n)) (tripPlace_ne_out n n)
  have hcomps : e.comps = d.comps := by rw [settle_comps, setOutBit_eq, Dev.setFld_comps, Dev.setFld_comps]; rfl
  have hunits := hr.settle_units hl
  rw [show (settle (d.begun.setOutBit n b)).comps = d.comps from hcomps] at hunits
  exact ⟨(settle_outBit _ n).trans (setOutBit_outBit _ n b), (settle_service _ n).trans hservice,
    by rw [settle_tripSig, tripSig_eq_flag, tripSig_eq_flag, Dev.flag, hsig, Dev.flag], hr.settle_keepsRegs, hunits, hr.settle_noRecord hl⟩

/-- The filter time runs out: the rise reaches the trip signal (R123). -/
theorem settle_filtered {d : Dev} (h : d.untimed) {n : Nat} (hn : n < 192) (hs : d.service n = 1) (hp : d.pairing n = 0) :
    let e := settle ((d.begun.filtered n).pairShow n)
    (e.comp n).unwatched = { d.comp n with contrib := true, riseAt := none }.unwatched ∧
    e.tripSig n = d.flag (COMP.PAIR_CFG_TRIP_EN (n / 2 * 2)) ∧ e.outBit n = d.outBit n ∧ d.keepsRegs e (compKeys n) ∧
    { d with comps := e.comps }.keepsUnits e ∧ d.noRecord e := by
  intro e
  have hl := compKeys_low hn
  have hrun := (Dev.CompRun.filtered d (compKeys n) n).pairShow hl h hn (tripKeys_subset n)
  refine ⟨?_, ?_, ?_, hrun.settle_keepsRegs, hrun.settle_units hl, hrun.settle_noRecord hl⟩
  · rw [settle_comp, pairShow_unwatched (filtered_untimed h n) hn, Dev.filtered, comp_setComp_self]
    rfl
  · rw [settle_tripSig, (pairShow_tripAt (filtered_untimed h n) hn).sig]
    exact filtered_tripOf (d := d.begun) hs hp
  · exact (settle_outBit _ n).trans (pairShow_flag (d.begun.filtered n) n (tripFree_out hn))

/-- The settle time ends (R126). -/
theorem settle_settled {d : Dev} (h : d.untimed) {n : Nat} (hn : n < 192) (b : Bool) :
    let e := settle ((d.begun.setService n 1).compSetOut n b)
    e.service n = 1 ∧ e.outBit n = b ∧ d.keepsRegs e (compKeys n) ∧ { d with comps := e.comps }.keepsUnits e ∧ d.noRecord e := by
  intro e
  have hl := compKeys_low hn
  have hserv : d.CompRun d (d.begun.setService n 1) (compKeys n) [] :=
    (Dev.CompRun.begun d _).setFld (f := COMP.CMP_STATUS_SERVICE n) (by simp [compKeys, COMP.CMP_STATUS_SERVICE]) 1
  have hrun := hserv.compSetOut hl h hn (List.Subset.refl _) b
  refine ⟨?_, (settle_outBit _ n).trans (compSetOut_outBit _ hn b), hrun.settle_keepsRegs, hrun.settle_units hl, hrun.settle_noRecord hl⟩
  rw [settle_service, compSetOut_service _ hn, setService_service _ _ (by decide)]

/-! #### A disagreement past its limit (R127) -/

theorem count_ne_status (m n : Nat) : COMP.CMP_COUNT m ≠ COMP.CMP_STATUS n := by unfold COMP.CMP_COUNT COMP.CMP_STATUS; omega

theorem incFld_of_cap (d : Dev) {f : Fld} {cap : Nat} (h : 2 ^ (f.hi + 1 - f.lo) - 1 = cap) : d.incFld f = d.setFld f (satInc cap (d.fld f)) := by
  rw [Dev.incFld, h]

theorem disarmed_count (d : Dev) (a : Nat) : (d.disarmed a).fld (COMP.CMP_COUNT_DISAGREES a) = d.fld (COMP.CMP_COUNT_DISAGREES a) :=
    Dev.fld_setFld_ne _ (COMP.CMP_STATUS_DISAGREE a) _ _ (le_refl 9) (by decide : 31 < 32) (.inl (count_ne_status a a))

theorem disarmed_flag (d : Dev) (a : Nat) : (d.disarmed a).flag (COMP.CMP_STATUS_DISAGREE a) = true :=
  Dev.flag_setFld_one _ (COMP.CMP_STATUS_DISAGREE a) (le_refl 9) (by decide : 9 < 32)

theorem disagreed_comps (d : Dev) (a : Nat) : (d.disagreed a).comps = Tab.set {} a { d.comp a with disArmed := false } d.comps := by
  rw [Dev.disagreed, Dev.incFld, Dev.setFld_comps, Dev.disarmed, Dev.setFld_comps, Dev.setComp]

theorem disagreed_flag (d : Dev) (a : Nat) : (d.disagreed a).flag (COMP.CMP_STATUS_DISAGREE a) = true := by
  have hne : (COMP.CMP_STATUS_DISAGREE a).addr ≠ (COMP.CMP_COUNT_DISAGREES a).addr := (count_ne_status a a).symm
  rw [Dev.disagreed, Dev.incFld, Dev.flag_setFld_ne _ _ _ _ (by decide : 16 ≤ 31) (by decide : 9 < 32) (.inl hne), disarmed_flag]

theorem disagreed_count (d : Dev) (a : Nat) :
    (d.disagreed a).fld (COMP.CMP_COUNT_DISAGREES a) = satInc 0xFFFF (d.fld (COMP.CMP_COUNT_DISAGREES a)) := by
  rw [Dev.disagreed, incFld_of_cap _ (by decide : 2 ^ (31 + 1 - 16) - 1 = 0xFFFF), disarmed_count,
    Dev.fld_setFld_of_lt _ _ _ (by decide : 16 ≤ 31) (by decide : 31 < 32)]
  exact Nat.lt_succ_of_le (satInc_le 0xFFFF _)

theorem Dev.CompRun.disagreed (d : Dev) {a : Nat} {l : List Nat} (hs : COMP.CMP_STATUS a ∈ l) (hc : COMP.CMP_COUNT a ∈ l) :
    d.CompRun d (d.begun.disagreed a) l [] := by
  have hdis : d.CompRun d (d.begun.disarmed a) l [] :=
    ((Dev.CompRun.begun d l).setComp a { d.comp a with disArmed := false }).setFld (f := COMP.CMP_STATUS_DISAGREE a) hs 1
  exact hdis.setFld (f := COMP.CMP_COUNT_DISAGREES a) hc _

theorem disagreed_makes (d : Dev) (a : Nat) : d.Makes ((d.begun.disagreed a).raise 12) [COMP.CMP_STATUS a, COMP.CMP_COUNT a] [12] [] := by
  have hset : d.Makes (d.begun.setComp a { d.comp a with disArmed := false }) [COMP.CMP_STATUS a, COMP.CMP_COUNT a] [] [] :=
    (Dev.Makes.begun d).frame rfl rfl rfl rfl
  have hcount : (COMP.CMP_COUNT_DISAGREES a).addr ∈ [COMP.CMP_STATUS a, COMP.CMP_COUNT a] := List.mem_cons_of_mem _ (List.mem_singleton_self _)
  have hdis : d.Makes (d.begun.disarmed a) [COMP.CMP_STATUS a, COMP.CMP_COUNT a] [] [] :=
    hset.setFld (f := COMP.CMP_STATUS_DISAGREE a) List.mem_cons_self 1
  have hinc : d.Makes (d.begun.disagreed a) [COMP.CMP_STATUS a, COMP.CMP_COUNT a] [] [] := hdis.setFld hcount _
  exact hinc.raise (Dev.CompRun.disagreed d (l := [COMP.CMP_STATUS a, COMP.CMP_COUNT a]) List.mem_cons_self hcount).now 12

theorem settle_disagreed (d : Dev) {a : Nat} (ha : a < 192) :
    let e := settle (((d.begun.disagreed a).raise 12).report 0x0E a)
    e.flag (COMP.CMP_STATUS_DISAGREE a) = true ∧
    e.fld (COMP.CMP_COUNT_DISAGREES a) = satInc 0xFFFF (d.fld (COMP.CMP_COUNT_DISAGREES a)) ∧
    d.raised e [12] ∧ e.faults = d.faults ++ [{ src := 0x0E, unit := a, stamp := d.nowNs }] ∧
    e.comp a = { d.comp a with disArmed := false } ∧ Tab.keeps {} [a] d.comps e.comps ∧
    d.keepsRegs e [COMP.CMP_STATUS a, COMP.CMP_COUNT a] ∧ { d with comps := e.comps, faults := e.faults }.keepsUnits e ∧ d.noRecord e := by
  intro e
  have hl : lowKeys [COMP.CMP_STATUS a, COMP.CMP_COUNT a] := (compKeys_low ha).subset (by simp [compKeys])
  have hm := (disagreed_makes d a).report 0x0E a
  have hdis := (Dev.CompRun.disagreed d (l := [COMP.CMP_STATUS a, COMP.CMP_COUNT a]) List.mem_cons_self
    (List.mem_cons_of_mem _ (List.mem_singleton_self _))).raise 12
  have hrun := hdis.report 0x0E a
  have hcomps : e.comps = Tab.set {} a { d.comp a with disArmed := false } d.comps :=
    (settle_comps _).trans (disagreed_comps d.begun a)
  have hfaults : e.faults = d.faults ++ [{ src := 0x0E, unit := a, stamp := d.nowNs }] := (settle_faults _).trans (hdis.report_faults 0x0E a)
  have hunits := hrun.settle_units hl
  refine ⟨?_, ?_, hm.settle_raised, hfaults, ?_, ?_, hm.settle_keepsRegs, ?_, hrun.settle_noRecord hl⟩
  · exact (settle_compFlag _ (cmpStatus_high a)).trans (disagreed_flag d.begun a)
  · exact (settle_compFld _ (cmpCount_high a)).trans (disagreed_count d.begun a)
  · rw [Dev.comp, hcomps]
    exact Tab.get_set_self _ _ _ _
  · rw [hcomps]
    exact fun k hk => Tab.get_set_ne _ _ (by simpa using hk) _ _
  · rwa [← settle_faults] at hunits

/-! ### A comparator begins to settle (R126) -/

theorem status_inj {m n : Nat} (h : COMP.CMP_STATUS m = COMP.CMP_STATUS n) : m = n := by unfold COMP.CMP_STATUS at h; omega

theorem setService_service_ne (d : Dev) {m n : Nat} (h : m ≠ n) (v : Nat) : (d.setService n v).service m = d.service m :=
  setService_fld_ne d n v (by decide : 6 < 32) (.inl fun hs => h (status_inj hs))

theorem settleStart_fld (d : Dev) (n : Nat) (t : Time) {g : Fld} (hg : g.tripFree)
    (hs : g.addr ≠ COMP.CMP_STATUS n ∨ g.hi < 4 ∨ 6 < g.lo) : (d.settleStart n t).fld g = d.fld g := by
  obtain ⟨hw, -⟩ := hg 0
  exact (pairShow_fld _ n hg).trans (setService_fld_ne _ n 3 hw hs)

theorem settleStart_service (d : Dev) (t : Time) {n : Nat} (hn : n < 192) : (d.settleStart n t).service n = 3 :=
  (pairShow_service _ n hn).trans (setService_service _ n (by decide))

theorem settleStart_service_ne (d : Dev) (t : Time) {m n : Nat} (hm : m < 192) (h : m ≠ n) : (d.settleStart n t).service m = d.service m :=
  (pairShow_service _ n hm).trans (setService_service_ne _ h 3)

theorem setService_untimed {d : Dev} (h : d.untimed) {n : Nat} (hn : n < 192) (v : Nat) : (d.setService n v).untimed :=
  untimed_of_flds h fun _ hw hg => setService_fld_ne d n v hw (.inl (by unfold COMP.CMP_STATUS; omega))

theorem settleStart_unwatched {d : Dev} (h : d.untimed) (t : Time) {n : Nat} (hn : n < 192) (m : Nat) :
    ((d.settleStart n t).comp m).unwatched =
      if m = n then { d.comp n with settleEnd := t + nsT (settleNs (d.compMode n)), riseAt := none }.unwatched else (d.comp m).unwatched := by
  rw [Dev.settleStart, pairShow_unwatched (setService_untimed (d := d.setComp n _) h hn 3) hn, Dev.comp, Dev.setService,
    Dev.setFld_comps, ← Dev.comp]
  split
  case isTrue heq => rw [heq, comp_setComp_self]
  case isFalse hne => rw [comp_setComp_ne _ hne]

theorem settleStart_settleEnd {d : Dev} (h : d.untimed) (t : Time) {n : Nat} (hn : n < 192) (m : Nat) :
    ((d.settleStart n t).comp m).settleEnd = if m = n then t + nsT (settleNs (d.compMode m)) else (d.comp m).settleEnd := by
  have hend := congrArg CompSt.settleEnd (settleStart_unwatched h t hn m)
  refine hend.trans ?_
  split
  case isTrue heq => rw [heq]; rfl
  case isFalse => rfl

theorem Dev.CompRun.settleStart {d d₀ e : Dev} {l : List Nat} {rs : List Record} (h : d.CompRun d₀ e l rs) (hl : lowKeys l) (hu : d.untimed)
    {n : Nat} (hn : n < 192) (hk : tripKeys n ⊆ l) (t : Time) : d.CompRun d₀ (e.settleStart n t) l rs :=
  ((h.setComp n _).setFld (f := COMP.CMP_STATUS_SERVICE n) (hk (by simp [tripKeys, COMP.CMP_STATUS_SERVICE])) 3).pairShow hl hu hn hk

/-! #### The comparators of a bank that WAIT (R133) -/

/-- A comparator that WAITs begins to settle. -/
def Dev.waitEnd (d : Dev) (n : Nat) : Dev := d.when (decide (d.service n = 5)) fun d => d.settleStart n d.now

theorem waitEnd_of_waiting {d : Dev} {n : Nat} (h : d.service n = 5) : d.waitEnd n = d.settleStart n d.now :=
  Dev.when_of_true d (decide_eq_true h) _

theorem waitEnd_of_not {d : Dev} {n : Nat} (h : d.service n ≠ 5) : d.waitEnd n = d := Dev.when_of_false d (decide_eq_false h) _

theorem waitEnd_fld (d : Dev) (n : Nat) {g : Fld} (hg : g.tripFree) (hs : g.addr ≠ COMP.CMP_STATUS n) : (d.waitEnd n).fld g = d.fld g := by
  by_cases h : d.service n = 5
  · rw [waitEnd_of_waiting h, settleStart_fld d n _ hg (.inl hs)]
  · rw [waitEnd_of_not h]

theorem waitEnd_service (d : Dev) {m n : Nat} (hm : m < 192) :
    (d.waitEnd n).service m = if m = n ∧ d.service m = 5 then 3 else d.service m := by
  by_cases h : d.service n = 5
  · rw [waitEnd_of_waiting h]
    by_cases heq : m = n
    · rw [if_pos ⟨heq, heq ▸ h⟩, heq, settleStart_service _ _ (heq ▸ hm)]
    · rw [if_neg fun hc => heq hc.1, settleStart_service_ne _ _ hm heq]
  · rw [waitEnd_of_not h, if_neg]
    rintro ⟨rfl, hs⟩
    exact h hs

theorem waitEnd_settleEnd {d : Dev} (hu : d.untimed) {n : Nat} (hn : n < 192) (m : Nat) : ((d.waitEnd n).comp m).settleEnd =
    if m = n ∧ d.service m = 5 then d.now + nsT (settleNs (d.compMode m)) else (d.comp m).settleEnd := by
  by_cases h : d.service n = 5
  · rw [waitEnd_of_waiting h, settleStart_settleEnd hu _ hn]
    by_cases heq : m = n
    · rw [if_pos heq, if_pos ⟨heq, heq ▸ h⟩]
    · rw [if_neg heq, if_neg fun hc => heq hc.1]
  · rw [waitEnd_of_not h, if_neg]
    rintro ⟨rfl, hs⟩
    exact h hs

theorem tripFree_cfg (n : Nat) (hn : n < 192) : (COMP.CMP_CFG_MODE n).tripFree :=
  tripFree_of_key (by decide : 1 < 32) (by simp only [COMP.CMP_CFG_MODE, COMP.CMP_CFG]; omega)
    (by simp only [COMP.CMP_CFG_MODE, COMP.CMP_CFG]; omega)

/-- Every key of blocks 0x03 to 0x1F. -/
def lowBlocks : List Nat := List.range' 0x30000 0x1D0000

theorem mem_lowBlocks {k : Nat} : k ∈ lowBlocks ↔ 0x30000 ≤ k ∧ k < 0x200000 := List.mem_range'_1

theorem lowKeys_lowBlocks : lowKeys lowBlocks := fun _ => mem_lowBlocks.mp

theorem compKeys_lowBlocks {n : Nat} (hn : n < 192) : compKeys n ⊆ lowBlocks := fun k hk => mem_lowBlocks.mpr (compKeys_low hn k hk)

theorem tripKeys_lowBlocks {n : Nat} (hn : n < 192) : tripKeys n ⊆ lowBlocks :=
  List.Subset.trans (tripKeys_subset n) (compKeys_lowBlocks hn)

theorem Dev.CompRun.waitEnd {d d₀ e : Dev} {rs : List Record} (h : d.CompRun d₀ e lowBlocks rs) (hu : d.untimed)
    {n : Nat} (hn : n < 192) : d.CompRun d₀ (e.waitEnd n) lowBlocks rs :=
  Dev.when_cases (p := fun u => d.CompRun d₀ u lowBlocks rs) _ h (h.settleStart lowKeys_lowBlocks hu hn (tripKeys_lowBlocks hn) _)

/-- The comparators of `l` that WAIT begin to settle; the others stay. -/
structure Dev.Woken (e e' : Dev) (l : List Nat) : Prop where
  service : ∀ m < 192, e'.service m = if m ∈ l ∧ e.service m = 5 then 3 else e.service m
  settleEnd : ∀ m < 192, (e'.comp m).settleEnd =
    if m ∈ l ∧ e.service m = 5 then e.now + nsT (settleNs (e.compMode m)) else (e.comp m).settleEnd

theorem each_waitEnd {d d₀ : Dev} {rs : List Record} (hu : d.untimed) (l : List Nat) :
    ∀ {e : Dev}, d.CompRun d₀ e lowBlocks rs → (∀ n ∈ l, n < 192) →
      d.CompRun d₀ (e.each l Dev.waitEnd) lowBlocks rs ∧ e.Woken (e.each l Dev.waitEnd) l := by
  induction l with
  | nil =>
    intro e h _
    exact ⟨h, fun m _ => (if_neg (by simp)).symm, fun m _ => (if_neg (by simp)).symm⟩
  | cons n l ih =>
    intro e h hl
    obtain ⟨hn, hl⟩ := List.forall_mem_cons.mp hl
    obtain ⟨hrun, hwoken⟩ := ih (h.waitEnd hu hn) hl
    have hnow : (e.waitEnd n).now = e.now := ((h.waitEnd hu hn).now).trans h.now.symm
    have hmode (m : Nat) (hm : m < 192) : (e.waitEnd n).compMode m = e.compMode m := waitEnd_fld e n (tripFree_cfg m hm) (cfg_ne_status m n)
    refine ⟨hrun, fun m hm => (hwoken.service m hm).trans ?_, fun m hm => (hwoken.settleEnd m hm).trans ?_⟩
    · rw [waitEnd_service e hm]
      by_cases h5 : e.service m = 5
      · rcases eq_or_ne m n with rfl | hne
        · simp [h5]
        · simp [h5, hne]
      · simp [h5]
    · rw [waitEnd_service e hm, waitEnd_settleEnd (h.untimed lowKeys_lowBlocks hu) hn, hnow, hmode m hm]
      by_cases h5 : e.service m = 5
      · rcases eq_or_ne m n with rfl | hne
        · simp [h5]
        · simp [h5, hne]
      · simp [h5]

theorem each_waitEnd_fld (e : Dev) (l : List Nat) {g : Fld} (hg : g.tripFree) (hs : ∀ n, g.addr ≠ COMP.CMP_STATUS n) :
    (e.each l Dev.waitEnd).fld g = e.fld g :=
  List.foldlRecOn (motive := fun u : Dev => u.fld g = e.fld g) l Dev.waitEnd rfl fun u hu n _ => (waitEnd_fld u n hg (hs n)).trans hu

/-! ### A bank becomes ready (R133) -/

/-- The flag of a bank's readiness. -/
def bankFlag (k : Nat) : Fld := if k % 2 = 0 then COMP.BANK_STATUS_BANK0_READY (k / 2) else COMP.BANK_STATUS_BANK1_READY (k / 2)

/-- The bit of a bank's domain in DOM_STATUS. -/
def bankDom (k : Nat) : Fld := ⟨SUPPLY.DOM_STATUS_0 + 4 * ((48 + k) / 32), (48 + k) % 32, (48 + k) % 32⟩

/-- A bank marked ready, with its domain. -/
def Dev.bankUp (d : Dev) (k : Nat) : Dev := (d.setFld (bankFlag k) 1).setFld (bankDom k) 1

/-- The comparators of a bank. -/
def bankComps (k : Nat) : List Nat := (List.range 48).map (48 * k + ·)

theorem mem_bankComps {k n : Nat} : n ∈ bankComps k ↔ ∃ i < 48, 48 * k + i = n := by simp [bankComps]

theorem bankComps_lt {k : Nat} (hk : k < 4) : ∀ n ∈ bankComps k, n < 192 := by
  intro n hn
  obtain ⟨i, hi, rfl⟩ := mem_bankComps.mp hn
  omega

theorem exec_compBankReady {k : Fin 4} {s : State} (h : s.dev.powered (48 + k.val) 10000 = true) :
    exec (.compBankReady k) s = .next { s with dev := settle ((s.dev.begun.bankUp k.val).each (bankComps k.val) Dev.waitEnd) } := by
  have heff : exec (.compBankReady k) s = .next { s with dev := settle (s.dev.begun.when (s.dev.begun.powered (48 + k.val) 10000) fun d =>
      (d.bankUp k.val).each (bankComps k.val) Dev.waitEnd) } := rfl
  have hup : s.dev.begun.powered (48 + k.val) 10000 = true := h
  rw [heff, Dev.when_of_true _ hup]

theorem bankFlag_eq (k : Nat) :
    (bankFlag k).addr = COMP.BANK_STATUS (k / 2) ∧ (bankFlag k).hi = (bankFlag k).lo ∧ (bankFlag k).hi < 2 := by
  unfold bankFlag
  split
  · exact ⟨rfl, rfl, (by decide : 0 < 2)⟩
  · exact ⟨rfl, rfl, (by decide : 1 < 2)⟩

theorem bankFlag_ne_dom (k : Nat) : (bankFlag k).addr ≠ (bankDom k).addr := by
  rw [(bankFlag_eq k).1]
  simp only [bankDom, COMP.BANK_STATUS, SUPPLY.DOM_STATUS_0]; omega

/-- A field of neither the readiness words nor those of trip signals stays while a bank becomes ready. -/
theorem bankUp_fld (d : Dev) {k : Nat} (hk : k < 4) {g : Fld} (hw : g.hi < 32) (hg : 0x100 ≤ g.addr % 0x10000) : (d.bankUp k).fld g = d.fld g := by
  obtain ⟨haddr, hbit, hsmall⟩ := bankFlag_eq k
  have hdom : g.addr ≠ (bankDom k).addr := by
    simp only [bankDom, SUPPLY.DOM_STATUS_0]; omega
  rw [Dev.bankUp, Dev.fld_setFld_ne _ _ _ _ (le_refl _) hw (.inl hdom), Dev.fld_setFld_ne _ _ _ _ hbit.ge hw (.inl ?_)]
  rw [haddr, COMP.BANK_STATUS]; omega

theorem bankUp_flags (d : Dev) (k : Nat) :
    (d.bankUp k).fld (bankDom k) = 1 ∧ (d.bankUp k).fld (bankFlag k) = 1 := by
  obtain ⟨haddr, hbit, hsmall⟩ := bankFlag_eq k
  have hdom : (bankDom k).hi < 32 := Nat.mod_lt _ (by decide)
  refine ⟨Dev.fld_setFld_of_lt _ (bankDom k) 1 (le_refl _) hdom (Nat.one_lt_two_pow (by simp [bankDom])), ?_⟩
  rw [Dev.bankUp, Dev.fld_setFld_ne _ (bankDom k) _ _ (le_refl _) (by omega) (.inl (bankFlag_ne_dom k))]
  exact Dev.fld_setFld_of_lt d (bankFlag k) 1 hbit.ge (by omega) (Nat.one_lt_two_pow (by omega))

theorem bankUp_service (d : Dev) {k : Nat} (hk : k < 4) (n : Nat) : (d.bankUp k).service n = d.service n :=
  bankUp_fld d hk (by decide : 6 < 32) (by simp only [COMP.CMP_STATUS_SERVICE, COMP.CMP_STATUS]; omega)

theorem bankUp_compMode (d : Dev) {k : Nat} (hk : k < 4) (n : Nat) : (d.bankUp k).compMode n = d.compMode n :=
  bankUp_fld d hk (by decide : 1 < 32) (by simp only [COMP.CMP_CFG_MODE, COMP.CMP_CFG]; omega)

theorem Dev.CompRun.bankUp (d : Dev) {k : Nat} (hk : k < 4) : d.CompRun d (d.begun.bankUp k) lowBlocks [] := by
  have hflag : (bankFlag k).addr ∈ lowBlocks := by
    rw [(bankFlag_eq k).1, mem_lowBlocks, COMP.BANK_STATUS]; omega
  have hdom : (bankDom k).addr ∈ lowBlocks := by
    simp only [mem_lowBlocks, bankDom, SUPPLY.DOM_STATUS_0]; omega
  exact ((Dev.CompRun.begun d _).setFld hflag 1).setFld hdom 1

theorem bankFlds_free {k : Nat} (hk : k < 4) : (bankDom k).tripFree ∧ (bankFlag k).tripFree := by
  obtain ⟨haddr, hbit, hsmall⟩ := bankFlag_eq k
  refine ⟨tripFree_of_key (Nat.mod_lt _ (by decide)) ?_ ?_, tripFree_of_key (by omega) ?_ ?_⟩
  · simp only [bankDom, SUPPLY.DOM_STATUS_0]; omega
  · simp only [bankDom, SUPPLY.DOM_STATUS_0]; omega
  · rw [haddr, COMP.BANK_STATUS]; omega
  · rw [haddr, COMP.BANK_STATUS]; omega

theorem bankFlds_ne_status {k : Nat} (hk : k < 4) (n : Nat) : (bankDom k).addr ≠ COMP.CMP_STATUS n ∧ (bankFlag k).addr ≠ COMP.CMP_STATUS n := by
  rw [(bankFlag_eq k).1]
  simp only [bankDom, SUPPLY.DOM_STATUS_0, COMP.BANK_STATUS, COMP.CMP_STATUS]
  omega

theorem domReady_eq_flag (d : Dev) (k : Nat) : d.domReady (48 + k) = d.flag (bankDom k) := bitOf_eq_field _ _

/-- A bank ready at the end of the command: the comparators that WAIT settle (R133). -/
theorem settle_bankReady {d : Dev} (h : d.untimed) {k : Nat} (hk : k < 4) :
    let e := settle ((d.begun.bankUp k).each (bankComps k) Dev.waitEnd)
    e.domReady (48 + k) = true ∧ e.flag (bankFlag k) = true ∧
    (∀ i : Fin 48, d.service (48 * k + i.val) = 5 → e.service (48 * k + i.val) = 3 ∧
      (e.comp (48 * k + i.val)).settleEnd = d.now + nsT (settleNs (d.compMode (48 * k + i.val)))) ∧
    { d with comps := e.comps }.keepsUnits e ∧ d.noRecord e := by
  intro e
  obtain ⟨hrun, hwoken⟩ := each_waitEnd h (bankComps k) (Dev.CompRun.bankUp d hk) (bankComps_lt hk)
  obtain ⟨hdom, hflag⟩ := bankUp_flags d.begun k
  obtain ⟨hdomFree, hflagFree⟩ := bankFlds_free hk
  have hkeys := bankFlds_ne_status hk
  refine ⟨?_, ?_, fun i hi => ?_, hrun.settle_units lowKeys_lowBlocks, hrun.settle_noRecord lowKeys_lowBlocks⟩
  · have hhigh : (bankDom k).addr / 0x10000 = 3 := by simp only [bankDom, SUPPLY.DOM_STATUS_0]; omega
    rw [domReady_eq_flag, settle_flag _ _ (by omega) (by omega), Dev.flag, each_waitEnd_fld _ _ hdomFree fun n => (hkeys n).1, hdom]
    rfl
  · have hhigh : 0x80000 ≤ (bankFlag k).addr := by rw [(bankFlag_eq k).1, COMP.BANK_STATUS]; omega
    rw [settle_compFlag _ hhigh, Dev.flag, each_waitEnd_fld _ _ hflagFree fun n => (hkeys n).2, hflag]
    rfl
  · have hn : 48 * k + i.val < 192 := by omega
    have hwaits : 48 * k + i.val ∈ bankComps k ∧ (d.begun.bankUp k).service (48 * k + i.val) = 5 :=
      ⟨mem_bankComps.mpr ⟨i.val, i.isLt, rfl⟩, (bankUp_service d.begun hk _).trans hi⟩
    refine ⟨?_, ?_⟩
    · rw [settle_service, hwoken.service _ hn, if_pos hwaits]
    · rw [settle_comp, hwoken.settleEnd _ hn, if_pos hwaits, bankUp_compMode _ hk]
      rfl

/-! ### Writes of CMP_TEST (R132, R135) -/

/-- A word of a block of comparators. -/
def compWord (a : Nat) : Prop := a / 0x10000 = 0x16 ∨ a / 0x10000 = 0x17

/-- The key of a word of a block of comparators is no pin's owner word, no engine's word, no coefficient, and no RETIRE entry. -/
theorem comp_apart {a : Nat} (hb : compWord a) : ownPin a = none ∧ engAt a = none ∧ coefAt a = none ∧
    ¬ (MEMCTL.RETIRE 0 ≤ a ∧ a < MEMCTL.RETIRE 128) := by
  unfold compWord at hb
  refine ⟨if_neg ?_, ?_, if_neg ?_, ?_⟩
  · simp only [PINMUX.PIN_OWN]; omega
  · rw [engAt, if_neg (by simp only [PENG.ENG_CLK]; omega), if_neg (by simp only [PENG.ENG_PROG]; omega)]
  · omega
  · simp only [MEMCTL.RETIRE]; omega

theorem compWord_ne {a : Nat} (hb : compWord a) : a ≠ PROTECT.CONS_CMD ∧ a ≠ DEBUG.DBG_CMD := by
  unfold compWord at hb
  simp only [PROTECT.CONS_CMD, DEBUG.DBG_CMD]
  omega

theorem Dev.blockEffect_comp (d : Dev) (agent : AgentId) {a : Nat} (hb : compWord a) (old v ev : Word) :
    d.blockEffect agent a old v ev = d.compEffect a ev := by
  rcases hb with hb | hb <;> simp only [Dev.blockEffect, hb] <;> rfl

/-- A word of CMD fields alone is recorded as it was written, and acts (R49). -/
theorem Dev.takeWord_comp (d : Dev) (agent : AgentId) {h : RegHit} {a : Nat} (hb : compWord a) (hlive : h.logged = false)
    (hcmd : h.command = true) (v : Word) : d.takeWord agent h a v =
      (d.stored agent a (d.wordAfter h a v) v 0).compEffect a (h.acted (d.wordAfter h a v) v) := by
  obtain ⟨hpin, heng, hcoef, hretire⟩ := comp_apart hb
  have hcons := (compWord_ne hb).1
  simp only [Dev.takeWord, hpin, heng, hretire, if_false, Dev.putWord, hcoef, Dev.writeRecord, if_neg hcons, hlive, hcmd, if_true,
    Bool.false_eq_true]
  exact Dev.blockEffect_comp _ agent hb _ _ _

/-- What refuses a write of a word of comparators does not depend on what was answered before. -/
theorem Dev.writeRefusal_comp_begun (d : Dev) (agent : AgentId) {h : RegHit} {a : Nat} (hb : compWord a) (hstg : h.stg = false) (v : Nat) :
    d.begun.writeRefusal agent h a v = d.writeRefusal agent h a v := by
  have hcons := (compWord_ne hb).1
  have hwriter (u : Dev) : u.writerForbidden agent a h = decide (u.blkLevel agent (a / 0x10000) < 2) := by
    rcases hb with hb | hb <;> simp [Dev.writerForbidden, hb]
  have hoff (u : Dev) : u.ledgerOff (a / 0x10000) = false := by rcases hb with hb | hb <;> simp [Dev.ledgerOff, hb]
  have hstop (u : Dev) : u.stopOk a = true := by rcases hb with hb | hb <;> simp [Dev.stopOk, hb]
  have hblock (u : Dev) : u.blockRefusals agent a v = u.compRefusals a (BitVec.ofNat 32 v) := by
    rcases hb with hb | hb <;> simp [Dev.blockRefusals, hb]
  have hsame : d.begun.refusals agent h a v = d.refusals agent h a v := by
    simp only [Dev.refusals, hwriter, hoff, hstop, hblock, hstg, Bool.false_eq_true, if_false]
    rfl
  simp only [Dev.writeRefusal, hsame, if_neg hcons]

/-- A write of a word of comparators that is taken is taken by the device in which its command begins. -/
theorem Dev.TakesAt.begun_comp {d : Dev} {agent : AgentId} {h : RegHit} {a : Nat} {v : Word} (ht : d.TakesAt agent h a v)
    (hb : compWord a) : d.begun.TakesAt agent h a v := by
  obtain ⟨hstg, -⟩ := plainWord_apart ht.plain
  exact ⟨ht.hit, ht.plain, ht.acts, (d.writeRefusal_comp_begun agent hb hstg _).trans ht.allowed, ht.safe, ht.room⟩

/-- The table entry of CMP_TEST. -/
def cmpTestHit (n : Nat) : RegHit := ⟨compRegs[11], n % 96, 0, false⟩

theorem cmpTest_compWord {n : Nat} (hn : n < 192) : compWord (COMP.CMP_TEST n) := by
  simp only [compWord, COMP.CMP_TEST]
  omega

theorem findReg_cmpTest (i : Fin 96) : findReg compRegs (0x10C + 0x20 * i.val) = some ⟨compRegs[11], i.val, 0, false⟩ := by
  revert i
  decide

theorem regHit_cmpTest (n : Fin 192) : regHit (COMP.CMP_TEST n.val) = some (cmpTestHit n.val) := by
  have hoff : COMP.CMP_TEST n.val % 0x10000 = 0x10C + 0x20 * (n.val % 96) := by unfold COMP.CMP_TEST; omega
  have hregs : blockRegs (COMP.CMP_TEST n.val / 0x10000) = compRegs := by
    rcases cmpTest_compWord n.isLt with hb | hb <;> rw [hb] <;> rfl
  rw [regHit, hregs, hoff]
  exact findReg_cmpTest ⟨n.val % 96, Nat.mod_lt _ (by decide)⟩

theorem compAt_cmpTest {n : Nat} (hn : n < 192) : compAt (COMP.CMP_TEST n) = some (n, 0x0C) := by
  rw [compAt, if_pos (by simp only [COMP.CMP_CFG, COMP.CMP_TEST]; omega)]
  refine congrArg some (Prod.ext ?_ ?_) <;> simp only [COMP.CMP_TEST] <;> omega

/-- The bits of CMD fields, on top of a word in which they read 0. -/
theorem acted_and (m old v : Word) :
    ((((((old &&& ~~~m) ||| (v &&& 0#32)) &&& ~~~(v &&& 0#32)) ||| (v &&& 0#32)) ||| (v &&& m)) &&& m) = v &&& m := by
  ext i hi
  simp only [BitVec.and_zero, BitVec.or_zero, BitVec.not_zero, BitVec.and_allOnes, BitVec.getElem_and, BitVec.getElem_or, BitVec.getElem_not]
  cases old[i] <;> cases m[i] <;> cases v[i] <;> rfl

/-- CMP_TEST as its action sees it: the word that the write leaves, with CLEAR and OP as written. -/
def cmpTestActed (d : Dev) (n : Nat) (v : Word) : Word := (cmpTestHit n).acted (d.wordAfter (cmpTestHit n) (COMP.CMP_TEST n) v) v

theorem cmpTestActed_and (d : Dev) (n : Nat) (v : Word) : cmpTestActed d n v &&& 0x107#32 = v &&& 0x107#32 := by
  have hne : ¬ COMP.CMP_TEST n / 0x10000 = 0x05 := by simp only [COMP.CMP_TEST]; omega
  rw [cmpTestActed, Dev.wordAfter, if_neg hne]
  exact acted_and 0x107#32 _ v

theorem cmpTestActed_op (d : Dev) (n : Nat) (v : Word) : (cmpTestActed d n v).toNat % 8 = v.toNat % 8 := by
  have hlow (w : Word) : w.toNat % 8 = (w &&& 0x107#32).toNat % 8 := by
    refine Nat.eq_of_testBit_eq fun i => ?_
    rw [show (8 : Nat) = 2 ^ 3 from rfl, Nat.testBit_mod_two_pow, Nat.testBit_mod_two_pow, BitVec.testBit_toNat, BitVec.testBit_toNat]
    by_cases hi : i < 3
    · interval_cases i <;> simp
    · simp [hi]
  rw [hlow, cmpTestActed_and, ← hlow]

theorem cmpTestActed_clear (d : Dev) (n : Nat) (v : Word) : bitOf (cmpTestActed d n v).toNat 8 = wordBit v 8 := by
  have hand := congrArg (fun w : Word => w.getLsbD 8) (cmpTestActed_and d n v)
  simpa [wordBit, bitOf_toNat] using hand

/-- A write of CMP_TEST that is taken does what its effect says, where it makes one record. -/
theorem regWrite_cmpTest {d e : Dev} {agent : AgentId} {n : Fin 192} {v : Word} {l ids : List Nat} {rs : List Record}
    (ht : d.takes agent (COMP.CMP_TEST n.val) v = true)
    (he : (d.begun.stored agent (COMP.CMP_TEST n.val) (d.begun.wordAfter (cmpTestHit n.val) (COMP.CMP_TEST n.val) v) v 0).compEffect
      (COMP.CMP_TEST n.val) (cmpTestActed d.begun n.val v) = e) (hm : d.Makes e l ids rs) (hrs : rs.length ≤ 64) :
    d.begun.regWrite agent (COMP.CMP_TEST n.val) v = e := by
  have hb := cmpTest_compWord n.isLt
  have hat := (Dev.takesAt_of_takes (regHit_cmpTest n) ht).begun_comp hb
  have htry : d.begun.regTry agent (COMP.CMP_TEST n.val) v = e :=
    (Dev.regTry_of_takes hat).trans ((d.begun.takeWord_comp agent hb rfl rfl v).trans he)
  have hdbg := (compWord_ne hb).2
  have hroom : (d.begun.regTry agent (COMP.CMP_TEST n.val) v).ordinary ≤ d.begun.ordinary + 64 := by
    rw [htry]
    exact hm.ordinary_le.trans (Nat.add_le_add_left hrs _)
  exact (Dev.regWrite_of_room (b := d.begun) hat.room hroom hdbg).trans htry

/-! ### What a write of CMP_TEST does (R132, R135) -/

theorem compEffect_cmpTest (d : Dev) {n : Nat} (hn : n < 192) (ev : Word) : d.compEffect (COMP.CMP_TEST n) ev =
    let e := d.when (bitOf ev.toNat 8) fun d => d.setNum (COMP.CMP_COUNT n) 0
    if ev.toNat % 8 = 0 then e
    else if (e.compBlk (n / 96)).test.isSome then
      e.setCompBlk (n / 96) { e.compBlk (n / 96) with queue := (e.compBlk (n / 96)).queue ++ [(n, ev.toNat % 8)] }
    else e.testStart n (ev.toNat % 8) := by
  rw [Dev.compEffect, compAt_cmpTest hn]
  rfl

/-- CLEAR alone zeroes the counts. -/
theorem compEffect_clear (d : Dev) {n : Nat} (hn : n < 192) {ev : Word} (hclear : bitOf ev.toNat 8 = true) (hop : ev.toNat % 8 = 0) :
    d.compEffect (COMP.CMP_TEST n) ev = d.setNum (COMP.CMP_COUNT n) 0 := by
  rw [compEffect_cmpTest d hn, Dev.when_of_true d hclear]
  exact if_pos hop

/-- An OP starts the test of a block that is free. -/
theorem compEffect_start {d : Dev} {n op : Nat} (hn : n < 192) {ev : Word} (hclear : bitOf ev.toNat 8 = false) (hop : ev.toNat % 8 = op)
    (h0 : op ≠ 0) (hfree : (d.compBlk (n / 96)).test = none) : d.compEffect (COMP.CMP_TEST n) ev = d.testStart n op := by
  subst hop
  have hnot : ¬ (d.compBlk (n / 96)).test.isSome = true := by rw [hfree]; decide
  rw [compEffect_cmpTest d hn, Dev.when_of_false d hclear]
  exact (if_neg h0).trans (if_neg hnot)

/-- A manual test that waits. -/
def Dev.testWaits (d : Dev) (n op : Nat) : Dev :=
  d.setCompBlk (n / 96) { d.compBlk (n / 96) with queue := (d.compBlk (n / 96)).queue ++ [(n, op)] }

/-- An OP waits behind the test that runs. -/
theorem compEffect_wait {d : Dev} {n op : Nat} (hn : n < 192) {ev : Word} (hclear : bitOf ev.toNat 8 = false) (hop : ev.toNat % 8 = op)
    (h0 : op ≠ 0) (hbusy : (d.compBlk (n / 96)).test ≠ none) : d.compEffect (COMP.CMP_TEST n) ev = d.testWaits n op := by
  subst hop
  rw [compEffect_cmpTest d hn, Dev.when_of_false d hclear]
  exact (if_neg h0).trans (if_pos (Option.isSome_iff_ne_none.mpr hbusy))

/-- CMP_TEST stored with the record of its write, before it acts. -/
def Dev.testStored (d : Dev) (agent : AgentId) (n : Nat) (v : Word) : Dev :=
  d.begun.stored agent (COMP.CMP_TEST n) (d.begun.wordAfter (cmpTestHit n) (COMP.CMP_TEST n) v) v 0

/-- The record of a write of CMP_TEST. -/
def Dev.testRecord (d : Dev) (agent : AgentId) (n : Nat) (v : Word) : Record := wordRecord d.nowNs .live 0 agent (COMP.CMP_TEST n) v 0

theorem Dev.CompRun.testStored (d : Dev) (agent : AgentId) {n : Nat} {l : List Nat} (hk : COMP.CMP_TEST n ∈ l) (v : Word) :
    d.CompRun d (d.testStored agent n v) l [d.testRecord agent n v] :=
  ⟨⟨[], Dev.Makes.stored d agent hk _ v 0⟩, Dev.keepsUnits.stored d agent _ _ v 0, rfl, rfl⟩

/-- A taken write of CMP_TEST that asks for `e`. -/
theorem exec_cmpTest {c : Instr} {s : State} {agent : AgentId} {n : Fin 192} {v : Word} {asks : Bool} {e : Dev} {d₀ : Dev} {l : List Nat}
    (hc : exec c s = s.onDev fun d => d.writeIf asks agent (COMP.CMP_TEST n.val) v) (ht : s.dev.takes agent (COMP.CMP_TEST n.val) v = true)
    (hasks : asks = true)
    (he : (s.dev.testStored agent n.val v).compEffect (COMP.CMP_TEST n.val) (cmpTestActed s.dev.begun n.val v) = e)
    (hr : s.dev.CompRun d₀ e l [s.dev.testRecord agent n.val v]) : exec c s = .next { s with dev := settle e } := by
  obtain ⟨_, hm⟩ := hr.makes
  have hwrite : s.dev.begun.writeIf asks agent (COMP.CMP_TEST n.val) v = e := (if_pos hasks).trans (regWrite_cmpTest ht he hm (by simp))
  have hrun : exec c s = .next { s with dev := settle (s.dev.begun.writeIf asks agent (COMP.CMP_TEST n.val) v) } := hc
  rw [hrun, hwrite]

/-- The counts zeroed (R135). -/
def Dev.countsCleared (d : Dev) (agent : AgentId) (n : Nat) (v : Word) : Dev := (d.testStored agent n v).setNum (COMP.CMP_COUNT n) 0

theorem Dev.CompRun.countsCleared (d : Dev) (agent : AgentId) (n : Nat) (v : Word) :
    d.CompRun d (d.countsCleared agent n v) [COMP.CMP_COUNT n, COMP.CMP_TEST n] [d.testRecord agent n v] :=
  (Dev.CompRun.testStored d agent (List.mem_cons_of_mem _ (List.mem_singleton_self _)) v).setNum List.mem_cons_self 0

theorem cmpTest_lowKeys {n : Nat} (hn : n < 192) : lowKeys [COMP.CMP_TEST n] := by
  intro k hk
  rw [List.mem_singleton.mp hk, COMP.CMP_TEST]
  omega

theorem lowKeys.cons {k : Nat} {l : List Nat} (hk : 0x30000 ≤ k ∧ k < 0x200000) (hl : lowKeys l) : lowKeys (k :: l) :=
  List.forall_mem_cons.mpr ⟨hk, hl⟩

/-- The counts of a comparator at the end of the command that clears them (R135). -/
theorem settle_countsCleared (d : Dev) (agent : AgentId) {n : Nat} (hn : n < 192) (v : Word) :
    let e := settle (d.countsCleared agent n v)
    e.answer = .ok ∧ e.num (COMP.CMP_COUNT n) = 0 ∧ d.keepsRegs e [COMP.CMP_COUNT n, COMP.CMP_TEST n] ∧ d.keepsUnits e ∧
    d.oneRecord e (d.testRecord agent n v) := by
  intro e
  have hrun := Dev.CompRun.countsCleared d agent n v
  have hl : lowKeys [COMP.CMP_COUNT n, COMP.CMP_TEST n] := (cmpTest_lowKeys hn).cons (by unfold COMP.CMP_COUNT; omega)
  have hunits := hrun.settle_units hl
  have hcomps : (settle (d.countsCleared agent n v)).comps = d.comps := by
    rw [settle_comps]
    rfl
  rw [hcomps] at hunits
  refine ⟨?_, ?_, hrun.settle_keepsRegs, hunits, hrun.settle_oneRecord hl⟩
  · rw [settle_answer]
    rfl
  · have hhigh := cmpCount_high n
    rw [settle_num _ _ (by omega) (by omega)]
    exact congrArg BitVec.toNat (Dev.reg_setReg_self _ (COMP.CMP_COUNT n) _)

/-- Settles O16: OUT follows the rule of R119, what a comparator contributes follows OUT at once or after the filter's time, and the pair
is brought up to date with it, in words and events alone where no timer selects a trip signal. -/
theorem comparatorTrips : Obligations.ComparatorTrips := by
  unfold Obligations.ComparatorTrips
  intro s
  refine ⟨?follows, ?above, ?held, ?failed, ?filter, ?settled, ?disagree, ?bank, ?clear⟩
  case follows =>
    intro n vd hs hu hp hf
    generalize hb : s.dev.compOut n.val vd (s.dev.outBit n.val) = b at hf ⊢
    obtain ⟨hout, hcomp, hregs, hunits, hrec⟩ := settle_compSetOut hu n.isLt b
    obtain ⟨hfollows, -⟩ := CompSt.eq_of_unwatched hcomp
    have hcontrib := follow_at_once (x := s.dev.comp n.val) hf s.dev.now
    obtain ⟨hsig, htripped, hcount⟩ := settle_compSetOut_trip hu n.isLt hs hp hcontrib
    exact does_of_effect (exec_crossing_inService hs hb) rfl ⟨hout, hfollows.trans (hcontrib.trans hout.symm),
      hsig.trans (congrArg _ hout.symm), htripped, hcount, hregs, hunits, hrec⟩
  case above =>
    intro n vd hs hm hb habove
    exact does_of_effect (exec_crossing_inService hs (compOut_above hm hb habove _)) rfl
      ((settle_outBit _ n.val).trans (compSetOut_outBit _ n.isLt true))
  case held =>
    intro n vd hs hu _ hb hf hc hr
    obtain ⟨hout, hcomp, hregs, hunits, hrec⟩ := settle_compSetOut hu n.isLt true
    rw [follow_held hf hc hr] at hcomp
    obtain ⟨hcontrib, hrise, -⟩ := CompSt.eq_of_unwatched hcomp
    exact does_of_effect (exec_crossing_inService hs hb) rfl
      ⟨hout, hrise, hcontrib.trans hc, hregs, hunits, hrec⟩
  case failed =>
    intro n vd hs
    generalize hb : s.dev.compOut n.val vd (s.dev.outBit n.val) = b
    obtain ⟨hout, hservice, hsig, hregs, hunits, hrec⟩ := settle_setOutBit s.dev n.isLt b
    exact does_of_effect (exec_crossing_failed hs hb) rfl ⟨hout, hservice.trans hs, hsig, hregs, hunits, hrec⟩
  case filter =>
    intro n t hs hu hp ho hr hdue
    obtain ⟨hcomp, hsig, hout, hregs, hunits, hrec⟩ := settle_filtered hu n.isLt hs hp
    obtain ⟨hcontrib, hrise, -⟩ := CompSt.eq_of_unwatched hcomp
    exact does_of_effect (exec_compFilterExpiry hr hs ho hdue) rfl
      ⟨hcontrib, hrise, hsig, hout.trans ho, hregs, hunits, hrec⟩
  case settled =>
    intro n vd hs hdue hu
    exact does_of_effect (exec_compSettleEnd vd hs hdue) rfl (settle_settled hu n.isLt _)
  case disagree =>
    intro c t ht harm hlim
    exact does_of_effect (exec_compDisagree ht harm hlim) rfl (settle_disagreed s.dev (by omega))
  case bank =>
    intro k hpow hu
    exact does_of_effect (exec_compBankReady hpow) rfl (settle_bankReady hu k.isLt)
  case clear =>
    intro a n v ht hclear hop
    have he := compEffect_clear (s.dev.testStored a.id n.val v) n.isLt ((cmpTestActed_clear s.dev.begun n.val v).trans hclear)
      ((cmpTestActed_op s.dev.begun n.val v).trans hop)
    exact does_of_effect (exec_cmpTest rfl ht hclear he (Dev.CompRun.countsCleared s.dev a.id n.val v)) rfl
      (settle_countsCleared s.dev a.id n.isLt v)

/-! ### A self-test begins (R128, R129, R132) -/

theorem tripShown_answer (d : Dev) (n : Nat) (new : Bool) : (d.tripShown n new).answer = d.answer :=
  Dev.when_cases (p := fun e => e.answer = d.answer) new (by simp only [Dev.setFld_answer]) (by simp only [Dev.incFld, Dev.setFld_answer])

theorem tripEvent_answer (d : Dev) (n : Nat) (new : Bool) : (d.tripEvent n new).answer = d.answer :=
  Dev.when_cases (p := fun e => e.answer = d.answer) _ rfl rfl

theorem showTrip_answer {d : Dev} (h : d.untimed) {n : Nat} (hn : n < 192) : (d.showTrip n).answer = d.answer := by
  rw [showTrip_of_untimed h hn]
  split
  · rfl
  · rw [tripEvent_answer, tripShown_answer]

theorem pairShow_answer {d : Dev} (h : d.untimed) {n : Nat} (hn : n < 192) : (d.pairShow n).answer = d.answer :=
  (showTrip_answer (showTrip_untimed h (by omega)) (by omega)).trans (showTrip_answer h (by omega))

/-- The test of comparator `n` that an OP asks for. -/
def Dev.testFor (d : Dev) (n op : Nat) : CompTest :=
  { n := n, checks := opChecks op, marks := decide (op = 1), nextAt := d.now + nsT (checkWait (d.compMode n) (opChecks op)) }

/-- The block of comparator `n` with the test that an OP asks for. -/
def Dev.testBegun (d : Dev) (n op : Nat) : Dev :=
  d.setCompBlk (n / 96) { d.compBlk (n / 96) with test := some (d.testFor n op) }

/-- The comparator under test, before its pair is brought up to date. -/
def Dev.underTest (d : Dev) (n op : Nat) : Dev :=
  ((((d.testBegun n op).setComp n { d.comp n with contrib := false, riseAt := none }).setFld (COMP.TEST_STATUS_SUBJECT (n / 96)) (n % 96)).setFld
    (COMP.CMP_STATUS_RESULT n) 0).setService n 2

theorem testStart_eq (d : Dev) (n op : Nat) : d.testStart n op = (d.underTest n op).pairShow n := rfl

theorem testStatus_ne_status (m n : Nat) : COMP.TEST_STATUS m ≠ COMP.CMP_STATUS n := by
  simp only [COMP.TEST_STATUS, COMP.CMP_STATUS]; omega

theorem tripFree_subject {b : Nat} (hb : b < 2) : (COMP.TEST_STATUS_SUBJECT b).tripFree :=
  tripFree_of_key (by decide : 6 < 32) (by simp only [COMP.TEST_STATUS_SUBJECT, COMP.TEST_STATUS]; omega)
    (by simp only [COMP.TEST_STATUS_SUBJECT, COMP.TEST_STATUS]; omega)

theorem underTest_untimed {d : Dev} (h : d.untimed) {n : Nat} (hn : n < 192) (op : Nat) : (d.underTest n op).untimed := by
  refine setService_untimed (untimed_of_flds h fun g hw hg => ?_) hn 2
  rw [Dev.fld_setFld_ne _ (COMP.CMP_STATUS_RESULT n) g 0 (by decide : 12 ≤ 15) hw (.inl ?_),
    Dev.fld_setFld_ne _ (COMP.TEST_STATUS_SUBJECT (n / 96)) g _ (Nat.zero_le 6) hw (.inl ?_)]
  · exact Dev.fld_of_regs g rfl
  · simp only [COMP.TEST_STATUS_SUBJECT, COMP.TEST_STATUS]; omega
  · simp only [COMP.CMP_STATUS_RESULT, COMP.CMP_STATUS]; omega

theorem testStart_service (d : Dev) {n : Nat} (hn : n < 192) (op : Nat) : (d.testStart n op).service n = 2 := by
  rw [testStart_eq, pairShow_service _ _ hn]
  exact setService_service _ n (by decide)

theorem testStart_subject (d : Dev) {n : Nat} (hn : n < 192) (op : Nat) :
    (d.testStart n op).fld (COMP.TEST_STATUS_SUBJECT (n / 96)) = n % 96 := by
  have hne := testStatus_ne_status (n / 96) n
  rw [testStart_eq, pairShow_fld _ n (tripFree_subject (by omega)), Dev.underTest, setService_fld_ne _ _ _ (by decide : 6 < 32) (.inl hne),
    Dev.fld_setFld_ne _ (COMP.CMP_STATUS_RESULT n) _ _ (by decide : 12 ≤ 15) (by decide : 6 < 32) (.inl hne)]
  exact Dev.fld_setFld_of_lt _ (COMP.TEST_STATUS_SUBJECT (n / 96)) _ (Nat.zero_le 6) (by decide : 6 < 32) (by omega : n % 96 < 2 ^ 7)

theorem testStart_answer {d : Dev} (h : d.untimed) {n : Nat} (hn : n < 192) (op : Nat) : (d.testStart n op).answer = d.answer :=
  (pairShow_answer (underTest_untimed h hn op) hn).trans (by
    simp only [Dev.underTest, Dev.setService, Dev.setFld_answer]
    rfl)

/-- The words that the start of a test of comparator `n` changes. -/
def testKeys (n : Nat) : List Nat := tripKeys n ++ [COMP.TEST_STATUS (n / 96)]

theorem testKeys_low {n : Nat} (hn : n < 192) : lowKeys (testKeys n) := by
  intro k hk
  rcases List.mem_append.mp hk with htrip | hstatus
  · exact compKeys_low hn k (tripKeys_subset n htrip)
  · rw [List.mem_singleton.mp hstatus, COMP.TEST_STATUS]
    omega

theorem Dev.CompRun.testStart {d d₀ e : Dev} {l : List Nat} {rs : List Record} (h : d.CompRun d₀ e l rs) (hl : lowKeys l) (hu : d.untimed)
    {n : Nat} (hn : n < 192) (hk : testKeys n ⊆ l) (op : Nat) :
    d.CompRun { d₀ with compBlks := (e.testBegun n op).compBlks } (e.testStart n op) l rs := by
  have htrip : tripKeys n ⊆ l := List.Subset.trans (List.subset_append_left _ _) hk
  have hsubject : (COMP.TEST_STATUS_SUBJECT (n / 96)).addr ∈ l := hk (List.mem_append_right _ (List.mem_singleton_self _))
  have hstatus : COMP.CMP_STATUS n ∈ l := htrip List.mem_cons_self
  have hblk : d.CompRun { d₀ with compBlks := (e.testBegun n op).compBlks } (e.testBegun n op) l rs := h.setCompBlk _ _
  exact ((((hblk.setComp n _).setFld hsubject _).setFld (f := COMP.CMP_STATUS_RESULT n) hstatus 0).setFld
    (f := COMP.CMP_STATUS_SERVICE n) hstatus 2).pairShow hl hu hn htrip

theorem settle_compBlks (d : Dev) : (settle d).compBlks = d.compBlks := by
  have h := congrArg Dev.compBlks (settles d).units
  exact h

theorem settle_trued (d : Dev) : (settle d).trued = d.trued := by
  have h := congrArg Dev.trued (settles d).units
  exact h

/-- The blocks of comparators that a command leaves are those at its end. -/
theorem Dev.CompRun.settle_blks {d d₀ e : Dev} {l : List Nat} {rs : List Record} (h : d.CompRun d₀ e l rs) :
    (settle e).compBlks = d₀.compBlks := (settle_compBlks e).trans h.compBlks

theorem compBlk_setCompBlk_self (d : Dev) (b : Nat) (x : CompBlk) : (d.setCompBlk b x).compBlk b = x :=
  Tab.get_set_self ({} : CompBlk) b x d.compBlks

theorem compBlks_setCompBlk_keeps (d : Dev) (b : Nat) (x : CompBlk) : Tab.keeps {} [b] d.compBlks (d.setCompBlk b x).compBlks :=
  fun _ hk => Tab.get_set_ne _ _ (by simpa using hk) _ _

theorem compBlk_of_compBlks {d e : Dev} (h : e.compBlks = d.compBlks) (b : Nat) : e.compBlk b = d.compBlk b := by
  rw [Dev.compBlk, h, Dev.compBlk]

/-! #### A manual test (R132) -/

theorem testBegun_test (d : Dev) (n op : Nat) : ((d.testBegun n op).compBlk (n / 96)).test = some (d.testFor n op) := by
  rw [Dev.testBegun, compBlk_setCompBlk_self]

/-- The words of a write of CMP_TEST that starts a test. -/
def manualKeys (n : Nat) : List Nat := COMP.CMP_TEST n :: testKeys n

theorem manualKeys_low {n : Nat} (hn : n < 192) : lowKeys (manualKeys n) :=
  (testKeys_low hn).cons (by unfold COMP.CMP_TEST; omega)

theorem testStored_testFor (d : Dev) (agent : AgentId) (n : Nat) (v : Word) (op : Nat) :
    (d.testStored agent n v).testFor n op = d.testFor n op := by
  have hne : (COMP.CMP_CFG_MODE n).addr ≠ COMP.CMP_TEST n := by simp only [COMP.CMP_CFG_MODE, COMP.CMP_CFG, COMP.CMP_TEST]; omega
  have hmode : (d.testStored agent n v).compMode n = d.compMode n := Dev.stored_fld_ne d.begun agent hne _ v 0
  rw [Dev.testFor, hmode]
  rfl

theorem Dev.CompRun.manualStart {d : Dev} (hu : d.untimed) (agent : AgentId) {n : Nat} (hn : n < 192) (v : Word) (op : Nat) :
    d.CompRun { d with compBlks := ((d.testStored agent n v).testBegun n op).compBlks } ((d.testStored agent n v).testStart n op)
      (manualKeys n) [d.testRecord agent n v] :=
  (Dev.CompRun.testStored d agent List.mem_cons_self v).testStart (manualKeys_low hn) hu hn (List.subset_cons_self _ _) op

theorem testStored_untimed {d : Dev} (h : d.untimed) (agent : AgentId) {n : Nat} (hn : n < 192) (v : Word) :
    (d.testStored agent n v).untimed :=
  (Dev.CompRun.testStored d agent (List.mem_singleton_self _) v).untimed (cmpTest_lowKeys hn) h

/-- A manual test of a free block begins (R132). -/
theorem settle_manualStart {d : Dev} (h : d.untimed) (agent : AgentId) {n : Nat} (hn : n < 192) (v : Word) (op : Nat) :
    let e := settle ((d.testStored agent n v).testStart n op)
    e.answer = .ok ∧ (e.compBlk (n / 96)).test = some (d.testFor n op) ∧ e.service n = 2 ∧
    e.fld (COMP.TEST_STATUS_SUBJECT (n / 96)) = n % 96 ∧ d.keepsRegs e (manualKeys n) ∧
    { d with comps := e.comps, compBlks := e.compBlks }.keepsUnits e ∧ d.oneRecord e (d.testRecord agent n v) := by
  intro e
  have hl := manualKeys_low hn
  have hrun := Dev.CompRun.manualStart h agent hn v op
  have hblks : e.compBlks = ((d.testStored agent n v).testBegun n op).compBlks := hrun.settle_blks
  have hunits := hrun.settle_units hl
  rw [← hblks] at hunits
  have hhigh : 0x80000 ≤ (COMP.TEST_STATUS_SUBJECT (n / 96)).addr := by simp only [COMP.TEST_STATUS_SUBJECT, COMP.TEST_STATUS]; omega
  refine ⟨?_, ?_, ?_, ?_, hrun.settle_keepsRegs, hunits, hrun.settle_oneRecord hl⟩
  · rw [settle_answer, testStart_answer (testStored_untimed h agent hn v) hn]
    rfl
  · rw [compBlk_of_compBlks hblks, testBegun_test, testStored_testFor]
  · rw [settle_service, testStart_service _ hn]
  · rw [settle_compFld _ hhigh, testStart_subject _ hn]

/-- A write of CMP_TEST that names an OP starts its test where the block is free (R132). -/
theorem manualTest_starts {c : Instr} {s : State} {a : Agent} {n : Fin 192} {v : Word} {op : Nat}
    (hc : exec c s = s.onDev fun d => d.writeIf (decide (v.toNat % 8 = op)) a.id (COMP.CMP_TEST n.val) v)
    (ht : s.dev.takes a.id (COMP.CMP_TEST n.val) v = true) (hop : v.toNat % 8 = op) (h0 : op ≠ 0) (hclear : wordBit v 8 = false)
    (hu : s.dev.untimed) (hfree : (s.dev.compBlk (n.val / 96)).test = none) : Does c s fun d => d.answer = .ok ∧
      (d.compBlk (n.val / 96)).test = some (s.dev.testFor n.val op) ∧ d.service n.val = 2 ∧
      d.fld (COMP.TEST_STATUS_SUBJECT (n.val / 96)) = n.val % 96 ∧ s.dev.keepsRegs d (manualKeys n.val) ∧
      { s.dev with comps := d.comps, compBlks := d.compBlks }.keepsUnits d ∧ s.dev.oneRecord d (s.dev.testRecord a.id n.val v) := by
  have hstored : ((s.dev.testStored a.id n.val v).compBlk (n.val / 96)).test = none := hfree
  have he := compEffect_start (d := s.dev.testStored a.id n.val v) n.isLt ((cmpTestActed_clear s.dev.begun n.val v).trans hclear)
    ((cmpTestActed_op s.dev.begun n.val v).trans hop) h0 hstored
  exact does_of_effect (exec_cmpTest hc ht (decide_eq_true hop) he (Dev.CompRun.manualStart hu a.id n.isLt v op)) rfl
    (settle_manualStart hu a.id n.isLt v op)

/-- A manual test waits behind the one that runs (R132). -/
theorem settle_testWaits (d : Dev) (agent : AgentId) {n : Nat} (hn : n < 192) (v : Word) (op : Nat) :
    let e := settle ((d.testStored agent n v).testWaits n op)
    e.answer = .ok ∧ e.compBlk (n / 96) = { d.compBlk (n / 96) with queue := (d.compBlk (n / 96)).queue ++ [(n, op)] } ∧
    d.keepsRegs e [COMP.CMP_TEST n] ∧ { d with compBlks := e.compBlks }.keepsUnits e ∧ d.oneRecord e (d.testRecord agent n v) := by
  intro e
  have hl := cmpTest_lowKeys hn
  have hrun : d.CompRun { d with compBlks := ((d.testStored agent n v).testWaits n op).compBlks } ((d.testStored agent n v).testWaits n op)
      [COMP.CMP_TEST n] [d.testRecord agent n v] :=
    (Dev.CompRun.testStored d agent (List.mem_singleton_self _) v).setCompBlk _ _
  have hblks : e.compBlks = ((d.testStored agent n v).testWaits n op).compBlks := hrun.settle_blks
  have hcomps : e.comps = d.comps := settle_comps _
  have hunits := hrun.settle_units hl
  rw [← hblks, show (settle ((d.testStored agent n v).testWaits n op)).comps = d.comps from hcomps] at hunits
  refine ⟨settle_answer _, ?_, hrun.settle_keepsRegs, hunits, hrun.settle_oneRecord hl⟩
  rw [compBlk_of_compBlks hblks, Dev.testWaits, compBlk_setCompBlk_self]
  rfl

/-! #### The automatic test (R128) -/

theorem testNext_lt {d : Dev} {b i : Nat} (h : d.testNext b = some i) : i < 96 := by
  unfold Dev.testNext at h
  extract_lets ok l at h
  have hmem : i ∈ l := by
    split at h
    next j hfind => exact Option.some.inj h ▸ List.mem_of_find?_eq_some hfind
    next => exact List.mem_of_head? h
  exact List.mem_range.mp (List.mem_of_mem_filter hmem)

/-- The pass of a block's tests moved on to index `i`, with the time of the last lap. -/
def Dev.lapped (d : Dev) (b i : Nat) : Dev :=
  d.when (decide (i < (d.compBlk b).pos)) fun u =>
    u.setFld (COMP.TEST_STATUS_LAP_MS b) (min 0xFFFF ((u.now - (d.compBlk b).lapStart).toNat / 64000000))

/-- The block of tests as it goes on after index `i`. -/
def Dev.passAt (d : Dev) (b i : Nat) : CompBlk :=
  let x := d.compBlk b
  { x with pos := i + 1, lapStart := if decide (i < x.pos) ∨ x.pos = 0 then (d.lapped b i).now else x.lapStart }

/-- The automatic test of index `i` of block `b` begins. -/
def Dev.selftest (d : Dev) (b i : Nat) : Dev := ((d.lapped b i).setCompBlk b (d.passAt b i)).testStart (96 * b + i) 1

theorem exec_compSelftestStart {b : Fin 2} {s : State} {i : Nat} (hfree : (s.dev.compBlk b.val).test = none)
    (hhold : s.dev.flag (COMP.TEST_CTRL_HOLD b.val) = false) (hdue : s.dev.due (s.dev.compBlk b.val).nextAt = true)
    (hnext : s.dev.testNext b.val = some i) :
    exec (.compSelftestStart b) s = .next { s with dev := settle (s.dev.begun.selftest b.val i) } := by
  have hgo : ((s.dev.compBlk b.val).test.isNone && !s.dev.flag (COMP.TEST_CTRL_HOLD b.val) && s.dev.due (s.dev.compBlk b.val).nextAt) = true := by
    rw [hfree, hhold, hdue]
    rfl
  refine congrArg (fun d => Host.Outcome.next { s with dev := settle d }) ?_
  refine (Dev.when_of_true s.dev.begun hgo _).trans ?_
  dsimp only
  split
  case h_1 hnone => exact absurd (hnext.symm.trans hnone) (by simp)
  case h_2 j hsome =>
    obtain rfl : i = j := Option.some.inj (hnext.symm.trans hsome)
    rfl

/-- The block of tests at the start of the automatic test of index `i`. -/
def Dev.passed (d : Dev) (b i : Nat) : Dev := (d.lapped b i).setCompBlk b (d.passAt b i)

theorem Dev.CompRun.lapped (d : Dev) {b : Nat} (hb : b < 2) (i : Nat) : d.CompRun d (d.begun.lapped b i) lowBlocks [] := by
  have hkey : (COMP.TEST_STATUS_LAP_MS b).addr ∈ lowBlocks := by
    simp only [mem_lowBlocks, COMP.TEST_STATUS_LAP_MS, COMP.TEST_STATUS]; omega
  have hbegun := Dev.CompRun.begun d lowBlocks
  exact Dev.when_cases (p := fun u => d.CompRun d u lowBlocks []) _ hbegun (hbegun.setFld hkey _)

theorem Dev.CompRun.passed (d : Dev) {b : Nat} (hb : b < 2) (i : Nat) :
    d.CompRun { d with compBlks := (d.begun.passed b i).compBlks } (d.begun.passed b i) lowBlocks [] :=
  (Dev.CompRun.lapped d hb i).setCompBlk b _

theorem lapped_compMode (d : Dev) (b i n : Nat) : (d.lapped b i).compMode n = d.compMode n := by
  have hne : (COMP.CMP_CFG_MODE n).addr ≠ (COMP.TEST_STATUS_LAP_MS b).addr := by
    simp only [COMP.CMP_CFG_MODE, COMP.CMP_CFG, COMP.TEST_STATUS_LAP_MS, COMP.TEST_STATUS]; omega
  exact Dev.when_cases (p := fun u => u.compMode n = d.compMode n) _ rfl
    (Dev.fld_setFld_ne _ _ (COMP.CMP_CFG_MODE n) _ (by decide : 16 ≤ 31) (by decide : 1 < 32) (.inl hne))

theorem passed_testFor (d : Dev) {b : Nat} (hb : b < 2) (i n op : Nat) : (d.begun.passed b i).testFor n op = d.testFor n op := by
  have hnow : (d.begun.passed b i).now = d.now := (Dev.CompRun.passed d hb i).now
  have hmode : (d.begun.passed b i).compMode n = d.compMode n := lapped_compMode d.begun b i n
  rw [Dev.testFor, hnow, hmode, Dev.testFor]

theorem testKeys_lowBlocks {n : Nat} (hn : n < 192) : testKeys n ⊆ lowBlocks := fun k hk => mem_lowBlocks.mpr (testKeys_low hn k hk)

/-- The automatic test of index `i` begins (R128). -/
theorem settle_selftest {d : Dev} (h : d.untimed) {b i : Nat} (hb : b < 2) (hi : i < 96) :
    let e := settle (d.begun.selftest b i)
    (e.compBlk b).test = some (d.testFor (96 * b + i) 1) ∧ e.service (96 * b + i) = 2 ∧ e.fld (COMP.TEST_STATUS_SUBJECT b) = i % 128 ∧
    (e.compBlk b).pos = i + 1 ∧ Tab.keeps {} [b] d.compBlks e.compBlks ∧
    { d with comps := e.comps, compBlks := e.compBlks }.keepsUnits e ∧ d.noRecord e := by
  intro e
  obtain ⟨n, hn⟩ : ∃ n, n = 96 * b + i := ⟨_, rfl⟩
  have hlt : n < 192 := by omega
  have hdiv : n / 96 = b := by omega
  have hmod : n % 96 = i % 128 := by omega
  have hrun := (Dev.CompRun.passed d hb i).testStart lowKeys_lowBlocks h hlt (testKeys_lowBlocks hlt) 1
  have he : e = settle ((d.begun.passed b i).testStart n 1) := by rw [hn]; rfl
  have hblks : e.compBlks = ((d.begun.passed b i).testBegun n 1).compBlks := by rw [he]; exact hrun.settle_blks
  have hblk : e.compBlk b = { d.begun.passAt b i with test := some (d.testFor n 1) } := by
    rw [compBlk_of_compBlks hblks, Dev.testBegun, hdiv, compBlk_setCompBlk_self, passed_testFor d hb, Dev.passed, compBlk_setCompBlk_self]
  have hlap : (d.begun.lapped b i).compBlks = d.compBlks := (Dev.CompRun.lapped d hb i).compBlks
  have hunits := hrun.settle_units lowKeys_lowBlocks
  have hrec := hrun.settle_noRecord lowKeys_lowBlocks
  have hhigh : 0x80000 ≤ (COMP.TEST_STATUS_SUBJECT b).addr := by simp only [COMP.TEST_STATUS_SUBJECT, COMP.TEST_STATUS]; omega
  rw [← hblks, ← he] at hunits
  rw [← he] at hrec
  rw [← hn]
  refine ⟨congrArg CompBlk.test hblk, ?_, ?_, congrArg CompBlk.pos hblk, fun k hk => ?_, hunits, hrec⟩
  · rw [he, settle_service, testStart_service _ hlt]
  · rw [he, settle_compFld _ hhigh, ← hmod, ← hdiv, testStart_subject _ hlt]
  · have hpass := compBlks_setCompBlk_keeps (d.begun.lapped b i) b (d.begun.passAt b i) k hk
    have htest := compBlks_setCompBlk_keeps (d.begun.passed b i) (n / 96)
      { (d.begun.passed b i).compBlk (n / 96) with test := some ((d.begun.passed b i).testFor n 1) } k (hdiv ▸ hk)
    rw [hlap] at hpass
    rw [hblks]
    exact htest.trans hpass

/-! #### A check of a test (R129) -/

/-- The test after a check of it: its comparator and what it can mark stay. -/
theorem check_kept (t : CompTest) (below out : Bool) : (t.check below out).n = t.n ∧ (t.check below out).marks = t.marks := by
  unfold CompTest.check
  split
  case h_4 =>
    extract_lets trim ok
    split <;> exact ⟨rfl, rfl⟩
  all_goals exact ⟨rfl, rfl⟩

/-- A check with its OUT. -/
def Dev.checked (d : Dev) (b : Nat) (out : Bool) (t : CompTest) : Dev :=
  let t := t.check (d.compBelow t.n) out
  if t.checks.isEmpty then d.testEnd t
  else d.setCompBlk b { d.compBlk b with test := some { t with nextAt := d.now + nsT (checkWait (d.compMode t.n) t.checks) } }

theorem exec_compTestCheck {b : Fin 2} {out : Bool} {s : State} {t : CompTest} (ht : (s.dev.compBlk b.val).test = some t)
    (hdue : s.dev.due t.nextAt = true) :
    exec (.compTestCheck b out) s = .next { s with dev := settle (s.dev.begun.checked b.val out t) } := by
  refine congrArg (fun d => Host.Outcome.next { s with dev := settle d }) ?_
  dsimp only
  split
  case h_1 hnone => exact absurd (ht.symm.trans hnone) (by simp)
  case h_2 u hsome =>
    obtain rfl : t = u := Option.some.inj (ht.symm.trans hsome)
    exact Dev.when_of_true s.dev.begun hdue _

theorem checked_more {d : Dev} {b : Nat} {out : Bool} {t : CompTest} (h : (t.check (d.compBelow t.n) out).checks ≠ []) :
    d.checked b out t = d.setCompBlk b { d.compBlk b with
      test := some { t.check (d.compBelow t.n) out with
        nextAt := d.now + nsT (checkWait (d.compMode t.n) (t.check (d.compBelow t.n) out).checks) } } := by
  have hsome : ¬ (t.check (d.compBelow t.n) out).checks.isEmpty = true := by rwa [List.isEmpty_iff]
  have hmode : d.compMode (t.check (d.compBelow t.n) out).n = d.compMode t.n := by rw [(check_kept t (d.compBelow t.n) out).1]
  rw [Dev.checked, if_neg hsome, hmode]

theorem checked_last {d : Dev} {b : Nat} {out : Bool} {t : CompTest} (h : (t.check (d.compBelow t.n) out).checks = []) :
    d.checked b out t = d.testEnd (t.check (d.compBelow t.n) out) :=
  if_pos (List.isEmpty_iff.mpr h)

/-- A block whose test alone changes, at the end of the command. -/
theorem settle_setCompBlk (d : Dev) (b : Nat) (x : CompBlk) :
    let e := settle (d.begun.setCompBlk b x)
    e.compBlk b = x ∧ d.keepsRegs e [] ∧ { d with compBlks := e.compBlks }.keepsUnits e ∧ Tab.keeps {} [b] d.compBlks e.compBlks ∧
    d.noRecord e := by
  intro e
  have hl : lowKeys [] := fun k hk => absurd hk List.not_mem_nil
  have hrun := (Dev.CompRun.begun d []).setCompBlk b x
  have hblks : e.compBlks = (d.begun.setCompBlk b x).compBlks := hrun.settle_blks
  have hunits := hrun.settle_units hl
  rw [← hblks, show (settle (d.begun.setCompBlk b x)).comps = d.comps from settle_comps _] at hunits
  refine ⟨?_, hrun.settle_keepsRegs, hunits, ?_, hrun.settle_noRecord hl⟩
  · rw [compBlk_of_compBlks hblks, compBlk_setCompBlk_self]
  · rw [hblks]
    exact compBlks_setCompBlk_keeps d.begun b x

/-! #### The end of a test (R129, R130) -/

/-- RESULT and TEST_DONE shown. -/
def Dev.testResult (d : Dev) (n result : Nat) : Dev :=
  (d.setFld (COMP.CMP_STATUS_RESULT n) result).setFld (COMP.CMP_STATUS_TEST_DONE n) 1

/-- The trim that the truing found, shown and kept (R109, R129). -/
def Dev.truingShown (d : Dev) (t : CompTest) (failed : Bool) : Dev :=
  (d.setFld (COMP.CMP_TRIM_OFFSET t.n) (low 16 t.trim)).noteCalib (0x16 + t.n / 96) (t.n % 96)
    (toBytes 2 (low 16 t.trim) ++ d.tjBytes ++ [BitVec.ofNat 8 (b2n failed)])

/-- The outcome of a test shown, with the truing's if it ended within its range. -/
def Dev.outcomeShown (d : Dev) (t : CompTest) (failed : Bool) : Dev :=
  (d.testResult t.n t.result).when (bitOf t.result 3) fun d => d.truingShown t failed

theorem testEnd_passed {d : Dev} {t : CompTest} (h : ((t.bad && t.marks) || (d.comp t.n).failed) = false) :
    d.testEnd t = (((d.outcomeShown t false).settleStart t.n (d.outcomeShown t false).now).pairShow t.n).testFree (t.n / 96) := by
  unfold Dev.testEnd
  extract_lets n failed old e f g
  have hfailed : failed = false := h
  have hf : f = d.outcomeShown t false := by
    simp only [f, e, hfailed]
    rfl
  simp only [g, hfailed, hf]
  rfl

theorem testEnd_failed {d : Dev} {t : CompTest} (h : ((t.bad && t.marks) || (d.comp t.n).failed) = true) :
    d.testEnd t = (((d.outcomeShown t true).compFail t.n (d.reg (COMP.CMP_STATUS t.n))).pairShow t.n).testFree (t.n / 96) := by
  unfold Dev.testEnd
  extract_lets n failed old e f g
  have hfailed : failed = true := h
  have hf : f = d.outcomeShown t true := by
    simp only [f, e, hfailed]
    rfl
  simp only [g, hfailed, hf]
  rfl

/-- A block freed of its test, where no other waits. -/
def Dev.testFreed (d : Dev) (b : Nat) : Dev :=
  (d.setCompBlk b { d.compBlk b with
    test := none, nextAt := d.now + nsT (d.fld (COMP.TEST_CTRL_INTERVAL_MS b) * 1000000), queue := [] }).setFld (COMP.TEST_STATUS_SUBJECT b) 0x7F

theorem testFree_of_idle {d : Dev} {b : Nat} (h : (d.compBlk b).queue = []) : d.testFree b = d.testFreed b := by
  unfold Dev.testFree
  extract_lets x nextAt e
  have hx : x.queue = [] := h
  rw [hx]
  simp only [e, hx]
  rfl

/-! #### The outcome shown (R129) -/

theorem trim_ne_status (m n : Nat) : COMP.CMP_TRIM m ≠ COMP.CMP_STATUS n := by simp only [COMP.CMP_TRIM, COMP.CMP_STATUS]; omega

theorem testResult_fld_ne (d : Dev) (n result : Nat) {g : Fld} (hw : g.hi < 32)
    (hs : g.addr ≠ COMP.CMP_STATUS n ∨ g.hi < 10 ∨ (10 < g.lo ∧ g.hi < 12)) : (d.testResult n result).fld g = d.fld g := by
  rw [Dev.testResult, Dev.fld_setFld_ne _ (COMP.CMP_STATUS_TEST_DONE n) g 1 (le_refl 10) hw (hs.imp id fun h => h.imp id And.left),
    Dev.fld_setFld_ne _ (COMP.CMP_STATUS_RESULT n) g _ (by decide : 12 ≤ 15) hw (hs.imp id fun h => .inl ?_)]
  rcases h with h | ⟨-, h⟩
  · exact Nat.lt_trans h (by decide : 10 < 12)
  · exact h

theorem noteCalib_regs (d : Dev) (block idx : Nat) (body : List Byte) : (d.noteCalib block idx body).regs = d.regs := rfl

theorem noteCalib_comps (d : Dev) (block idx : Nat) (body : List Byte) : (d.noteCalib block idx body).comps = d.comps := rfl

theorem truingShown_fld (d : Dev) (t : CompTest) (failed : Bool) {g : Fld} (hw : g.hi < 32) (ht : g.addr ≠ COMP.CMP_TRIM t.n) :
    (d.truingShown t failed).fld g = d.fld g := by
  rw [Dev.truingShown, Dev.fld_of_regs g (noteCalib_regs _ _ _ _),
    Dev.fld_setFld_ne _ (COMP.CMP_TRIM_OFFSET t.n) g _ (Nat.zero_le 15) hw (.inl ht)]

theorem outcomeShown_fld (d : Dev) (t : CompTest) (failed : Bool) {g : Fld} (hw : g.hi < 32) (ht : g.addr ≠ COMP.CMP_TRIM t.n) :
    (d.outcomeShown t failed).fld g = (d.testResult t.n t.result).fld g :=
  Dev.when_cases (p := fun u => u.fld g = (d.testResult t.n t.result).fld g) _ rfl (truingShown_fld _ t failed hw ht)

theorem outcomeShown_fld_ne (d : Dev) (t : CompTest) (failed : Bool) {g : Fld} (hw : g.hi < 32) (ht : g.addr ≠ COMP.CMP_TRIM t.n)
    (hs : g.addr ≠ COMP.CMP_STATUS t.n ∨ g.hi < 10 ∨ (10 < g.lo ∧ g.hi < 12)) : (d.outcomeShown t failed).fld g = d.fld g :=
  (outcomeShown_fld d t failed hw ht).trans (testResult_fld_ne d t.n t.result hw hs)

theorem outcomeShown_result (d : Dev) (t : CompTest) (failed : Bool) :
    (d.outcomeShown t failed).fld (COMP.CMP_STATUS_RESULT t.n) = t.result % 16 := by
  have hbits : (COMP.CMP_STATUS_TEST_DONE t.n).hi < (COMP.CMP_STATUS_RESULT t.n).lo := (by decide : 10 < 12)
  rw [outcomeShown_fld d t failed (by decide : 15 < 32) (trim_ne_status t.n t.n).symm, Dev.testResult,
    Dev.fld_setFld_ne _ (COMP.CMP_STATUS_TEST_DONE t.n) _ _ (le_refl 10) (by decide : 15 < 32) (.inr (.inr hbits))]
  exact Dev.fld_setFld_self d (COMP.CMP_STATUS_RESULT t.n) t.result (by decide : 12 ≤ 15) (by decide : 15 < 32)

theorem outcomeShown_done (d : Dev) (t : CompTest) (failed : Bool) :
    (d.outcomeShown t failed).flag (COMP.CMP_STATUS_TEST_DONE t.n) = true := by
  rw [Dev.flag, outcomeShown_fld d t failed (by decide : 10 < 32) (trim_ne_status t.n t.n).symm, ← Dev.flag]
  exact Dev.flag_setFld_one _ (COMP.CMP_STATUS_TEST_DONE t.n) (le_refl 10) (by decide : 10 < 32)

theorem outcomeShown_comps (d : Dev) (t : CompTest) (failed : Bool) : (d.outcomeShown t failed).comps = d.comps := by
  have hresult : (d.testResult t.n t.result).comps = d.comps := by rw [Dev.testResult, Dev.setFld_comps, Dev.setFld_comps]
  refine Dev.when_cases (p := fun u => u.comps = d.comps) _ hresult ?_
  rw [Dev.truingShown, noteCalib_comps, Dev.setFld_comps, hresult]

theorem outcomeShown_compMode (d : Dev) (t : CompTest) (failed : Bool) (n : Nat) : (d.outcomeShown t failed).compMode n = d.compMode n :=
  outcomeShown_fld_ne d t failed (by decide : 1 < 32) (by simp only [COMP.CMP_CFG_MODE, COMP.CMP_CFG, COMP.CMP_TRIM]; omega)
    (.inl (cfg_ne_status n t.n))

theorem Dev.CompRun.truingShown {d d₀ e : Dev} {rs : List Record} (h : d.CompRun d₀ e lowBlocks rs) {t : CompTest} (hn : t.n < 192)
    (failed : Bool) : d.CompRun { d₀ with trued := (e.truingShown t failed).trued } (e.truingShown t failed) lowBlocks rs := by
  have htrim : (COMP.CMP_TRIM_OFFSET t.n).addr ∈ lowBlocks := by
    simp only [mem_lowBlocks, COMP.CMP_TRIM_OFFSET, COMP.CMP_TRIM]; omega
  have hset := h.setFld htrim (low 16 t.trim)
  exact hset.noteCalib _ _ _

theorem Dev.CompRun.outcomeShown (d : Dev) {t : CompTest} (hn : t.n < 192) (failed : Bool) :
    ∃ T, d.CompRun { d with trued := T } (d.begun.outcomeShown t failed) lowBlocks [] := by
  have hstatus : COMP.CMP_STATUS t.n ∈ lowBlocks := compKeys_lowBlocks hn List.mem_cons_self
  have hresult : d.CompRun d (d.begun.testResult t.n t.result) lowBlocks [] :=
    ((Dev.CompRun.begun d _).setFld (f := COMP.CMP_STATUS_RESULT t.n) hstatus _).setFld (f := COMP.CMP_STATUS_TEST_DONE t.n) hstatus 1
  exact Dev.when_cases (p := fun u => ∃ T, d.CompRun { d with trued := T } u lowBlocks []) _ ⟨d.trued, hresult⟩
    ⟨_, hresult.truingShown hn failed⟩

/-! #### The block freed (R128) -/

theorem testFreed_fld (d : Dev) (b : Nat) {g : Fld} (hw : g.hi < 32) (hg : g.addr ≠ COMP.TEST_STATUS b) :
    (d.testFreed b).fld g = d.fld g :=
  Dev.fld_setFld_ne _ (COMP.TEST_STATUS_SUBJECT b) g 0x7F (Nat.zero_le 6) hw (.inl hg)

theorem testFreed_subject (d : Dev) (b : Nat) : (d.testFreed b).fld (COMP.TEST_STATUS_SUBJECT b) = 0x7F :=
  Dev.fld_setFld_of_lt _ (COMP.TEST_STATUS_SUBJECT b) 0x7F (Nat.zero_le 6) (by decide : 6 < 32) (by decide : 0x7F < 2 ^ 7)

theorem testFreed_comps (d : Dev) (b : Nat) : (d.testFreed b).comps = d.comps := by
  rw [Dev.testFreed, Dev.setFld_comps, Dev.setCompBlk]

theorem testFreed_test (d : Dev) (b : Nat) : ((d.testFreed b).compBlk b).test = none := by
  rw [Dev.testFreed, compBlk_of_compBlks (Dev.setFld_compBlks _ _ _), compBlk_setCompBlk_self]

theorem Dev.CompRun.testFreed {d d₀ e : Dev} {rs : List Record} (h : d.CompRun d₀ e lowBlocks rs) {b : Nat} (hb : b < 2) :
    d.CompRun { d₀ with compBlks := (e.testFreed b).compBlks } (e.testFreed b) lowBlocks rs := by
  have hkey : (COMP.TEST_STATUS_SUBJECT b).addr ∈ lowBlocks := by
    simp only [mem_lowBlocks, COMP.TEST_STATUS_SUBJECT, COMP.TEST_STATUS]; omega
  exact (h.setCompBlk b _).setFld hkey 0x7F

/-- The pair of the comparator brought up to date, and its block freed. -/
def Dev.testClosed (d : Dev) (n : Nat) : Dev := (d.pairShow n).testFreed (n / 96)

theorem testClosed_fld (d : Dev) (n : Nat) {g : Fld} (hg : g.tripFree) (hs : g.addr ≠ COMP.TEST_STATUS (n / 96)) :
    (d.testClosed n).fld g = d.fld g := by
  obtain ⟨hw, -⟩ := hg 0
  exact (testFreed_fld _ _ hw hs).trans (pairShow_fld d n hg)

theorem testClosed_flag (d : Dev) (n : Nat) {g : Fld} (hg : g.tripFree) (hs : g.addr ≠ COMP.TEST_STATUS (n / 96)) :
    (d.testClosed n).flag g = d.flag g := by
  rw [Dev.flag, testClosed_fld d n hg hs, Dev.flag]

theorem testClosed_unwatched {d : Dev} (h : d.untimed) {n : Nat} (hn : n < 192) (m : Nat) :
    ((d.testClosed n).comp m).unwatched = (d.comp m).unwatched := by
  rw [Dev.comp, Dev.testClosed, testFreed_comps, ← Dev.comp, pairShow_unwatched h hn]

theorem Dev.CompRun.testClosed {d d₀ e : Dev} {rs : List Record} (h : d.CompRun d₀ e lowBlocks rs) (hu : d.untimed) {n : Nat} (hn : n < 192) :
    d.CompRun { d₀ with compBlks := (e.testClosed n).compBlks } (e.testClosed n) lowBlocks rs :=
  (h.pairShow lowKeys_lowBlocks hu hn (tripKeys_lowBlocks hn)).testFreed (by omega)

/-- The block is freed as the command found it, if no test waits in it. -/
theorem testFree_eq_testClosed {d d₀ e : Dev} {rs : List Record} (h : d.CompRun d₀ e lowBlocks rs) (hu : d.untimed) {n : Nat} (hn : n < 192)
    (hblk : d₀.compBlks = d.compBlks) (hq : (d.compBlk (n / 96)).queue = []) : (e.pairShow n).testFree (n / 96) = e.testClosed n := by
  have hshown : (e.pairShow n).compBlks = d.compBlks :=
    (h.pairShow lowKeys_lowBlocks hu hn (tripKeys_lowBlocks hn)).compBlks.trans hblk
  have hqueue : ((e.pairShow n).compBlk (n / 96)).queue = [] := by rw [compBlk_of_compBlks hshown, hq]
  exact testFree_of_idle hqueue

/-! #### A test whose checks all passed (R129) -/

theorem tripFree_result {n : Nat} (hn : n < 192) : (COMP.CMP_STATUS_RESULT n).tripFree :=
  tripFree_of_status hn rfl (by decide : 15 < 32) (.inr (.inr (by decide : 8 < 12)))

theorem tripFree_testDone {n : Nat} (hn : n < 192) : (COMP.CMP_STATUS_TEST_DONE n).tripFree :=
  tripFree_of_status hn rfl (by decide : 10 < 32) (.inr (.inr (by decide : 8 < 10)))

theorem tripFree_testFail {n : Nat} (hn : n < 192) : (COMP.CMP_STATUS_TEST_FAIL n).tripFree :=
  tripFree_of_status hn rfl (by decide : 11 < 32) (.inr (.inr (by decide : 8 < 11)))

/-- The comparator settles after its test. -/
def Dev.passSettled (d : Dev) (t : CompTest) : Dev := (d.outcomeShown t false).settleStart t.n (d.outcomeShown t false).now

theorem Dev.CompRun.passSettled {d : Dev} (hu : d.untimed) {t : CompTest} (hn : t.n < 192) :
    ∃ T, d.CompRun { d with trued := T } (d.begun.passSettled t) lowBlocks [] := by
  obtain ⟨T, hshown⟩ := Dev.CompRun.outcomeShown d hn false
  exact ⟨T, hshown.settleStart lowKeys_lowBlocks hu hn (tripKeys_lowBlocks hn) _⟩

theorem testStatus_high (b : Nat) : 0x80000 ≤ COMP.TEST_STATUS b := by unfold COMP.TEST_STATUS; omega

/-- The end of a test that leaves its comparator unmarked (R129). -/
theorem settle_testPassed {d : Dev} (h : d.untimed) {t : CompTest} (hn : t.n < 192) (hq : (d.compBlk (t.n / 96)).queue = [])
    (hpass : ((t.bad && t.marks) || (d.comp t.n).failed) = false) :
    let e := settle (d.begun.testEnd t)
    (e.compBlk (t.n / 96)).test = none ∧ e.fld (COMP.CMP_STATUS_RESULT t.n) = t.result % 16 ∧
    e.flag (COMP.CMP_STATUS_TEST_DONE t.n) = true ∧ e.fld (COMP.TEST_STATUS_SUBJECT (t.n / 96)) = 0x7F ∧ e.service t.n = 3 ∧
    (e.comp t.n).settleEnd = d.now + nsT (settleNs (d.compMode t.n)) ∧
    { d with comps := e.comps, compBlks := e.compBlks, trued := e.trued }.keepsUnits e ∧ d.noRecord e := by
  intro e
  obtain ⟨T, hrun⟩ := Dev.CompRun.passSettled h hn
  obtain ⟨_, hshown⟩ := Dev.CompRun.outcomeShown d hn false
  have hend : d.begun.testEnd t = (d.begun.passSettled t).testClosed t.n :=
    (testEnd_passed (d := d.begun) hpass).trans (testFree_eq_testClosed hrun h hn rfl hq)
  have he : e = settle ((d.begun.passSettled t).testClosed t.n) := congrArg settle hend
  have hclosed := hrun.testClosed h hn
  have hblks : e.compBlks = ((d.begun.passSettled t).testClosed t.n).compBlks := by rw [he, settle_compBlks]
  have htrued : e.trued = T := by rw [he, settle_trued]; exact hclosed.trued
  have hunits := hclosed.settle_units lowKeys_lowBlocks
  have hrec := hclosed.settle_noRecord lowKeys_lowBlocks
  rw [← hblks, ← he, ← htrued] at hunits
  rw [← he] at hrec
  have hne := testStatus_ne_status (t.n / 96) t.n
  clear_value e
  refine ⟨?_, ?_, ?_, ?_, ?_, ?_, hunits, hrec⟩
  · rw [compBlk_of_compBlks hblks]
    exact testFreed_test _ _
  · rw [he, settle_compFld _ (cmpStatus_high t.n), testClosed_fld _ _ (tripFree_result hn) hne.symm, Dev.passSettled,
      settleStart_fld _ _ _ (tripFree_result hn) (.inr (.inr (by decide : 6 < 12))), outcomeShown_result]
  · rw [he, settle_compFlag _ (cmpStatus_high t.n), testClosed_flag _ _ (tripFree_testDone hn) hne.symm, Dev.passSettled, Dev.flag,
      settleStart_fld _ _ _ (tripFree_testDone hn) (.inr (.inr (by decide : 6 < 10))), ← Dev.flag, outcomeShown_done]
  · rw [he, settle_compFld _ (testStatus_high _)]
    exact testFreed_subject _ _
  · rw [he, settle_service]
    exact (testClosed_fld _ _ (tripFree_service hn) hne.symm).trans (settleStart_service _ _ hn)
  · have hsettled : (d.begun.passSettled t).untimed := hrun.untimed lowKeys_lowBlocks h
    obtain ⟨-, -, hsettleEnd, -⟩ := CompSt.eq_of_unwatched (testClosed_unwatched hsettled hn t.n)
    rw [he, settle_comp, hsettleEnd, Dev.passSettled, settleStart_settleEnd (hshown.untimed lowKeys_lowBlocks h) _ hn, if_pos rfl,
      hshown.now, outcomeShown_compMode]
    rfl

/-! #### A test that marks its comparator FAILED (R130) -/

/-- The comparator marked FAILED, with the flag. -/
def Dev.failMarked (d : Dev) (n : Nat) : Dev :=
  ((d.setService n 4).setFld (COMP.CMP_STATUS_TEST_FAIL n) 1).setComp n { d.comp n with failed := true, contrib := false }

/-- The failure counted. -/
def Dev.failCounted (d : Dev) (n : Nat) : Dev := (d.failMarked n).incFld (COMP.TEST_FAILS_COUNT (n / 96))

theorem compFail_eq {d : Dev} {n : Nat} (h : (d.comp n).failed = false) (old : Word) :
    d.compFail n old = ((d.failCounted n).report 0x0F n).sysRec (COMP.CMP_STATUS n) old := by
  unfold Dev.compFail
  extract_lets x e f g
  have hx : ¬ x.failed = true := by rw [show x.failed = false from h]; decide
  rw [if_neg hx]
  rfl

theorem setComp_fld (d : Dev) (n : Nat) (x : CompSt) (g : Fld) : (d.setComp n x).fld g = d.fld g := rfl

theorem failMarked_fld (d : Dev) (n : Nat) (g : Fld) :
    (d.failMarked n).fld g = ((d.setService n 4).setFld (COMP.CMP_STATUS_TEST_FAIL n) 1).fld g := setComp_fld _ n _ g

theorem testFails_ne_status (m n : Nat) : COMP.TEST_FAILS m ≠ COMP.CMP_STATUS n := by
  simp only [COMP.TEST_FAILS, COMP.CMP_STATUS]; omega

theorem failMarked_fld_ne (d : Dev) (n : Nat) {g : Fld} (hw : g.hi < 32)
    (hs : g.addr ≠ COMP.CMP_STATUS n ∨ g.hi < 4 ∨ (6 < g.lo ∧ (g.hi < 11 ∨ 11 < g.lo))) : (d.failMarked n).fld g = d.fld g := by
  have hfail : g.addr ≠ COMP.CMP_STATUS n ∨ g.hi < 11 ∨ 11 < g.lo := by omega
  have hservice : g.addr ≠ COMP.CMP_STATUS n ∨ g.hi < 4 ∨ 6 < g.lo := by omega
  rw [failMarked_fld, Dev.fld_setFld_ne _ (COMP.CMP_STATUS_TEST_FAIL n) g 1 (le_refl 11) hw hfail, setService_fld_ne d n 4 hw hservice]

theorem failMarked_service (d : Dev) (n : Nat) : (d.failMarked n).service n = 4 := by
  have hbits : (COMP.CMP_STATUS_SERVICE n).hi < (COMP.CMP_STATUS_TEST_FAIL n).lo := (by decide : 6 < 11)
  rw [Dev.service, failMarked_fld, Dev.fld_setFld_ne _ _ _ 1 (le_refl 11) (by decide : 6 < 32) (.inr (.inl hbits))]
  exact setService_service d n (by decide)

theorem failMarked_flag (d : Dev) (n : Nat) : (d.failMarked n).flag (COMP.CMP_STATUS_TEST_FAIL n) = true := by
  rw [Dev.flag, failMarked_fld, ← Dev.flag]
  exact Dev.flag_setFld_one (d.setService n 4) (COMP.CMP_STATUS_TEST_FAIL n) (le_refl 11) (by decide : 11 < 32)

theorem failCounted_fld_ne (d : Dev) (n : Nat) {g : Fld} (hw : g.hi < 32) (hg : g.addr ≠ COMP.TEST_FAILS (n / 96)) :
    (d.failCounted n).fld g = (d.failMarked n).fld g :=
  Dev.fld_setFld_ne _ (COMP.TEST_FAILS_COUNT (n / 96)) g _ (Nat.zero_le 6) hw (.inl hg)

theorem failCounted_count (d : Dev) (n : Nat) :
    (d.failCounted n).fld (COMP.TEST_FAILS_COUNT (n / 96)) = satInc 0x7F (d.fld (COMP.TEST_FAILS_COUNT (n / 96))) := by
  rw [Dev.failCounted, incFld_of_cap _ (by decide : 2 ^ (6 + 1 - 0) - 1 = 0x7F),
    Dev.fld_setFld_of_lt _ _ _ (Nat.zero_le 6) (by decide : 6 < 32) (Nat.lt_succ_of_le (satInc_le 0x7F _)),
    failMarked_fld_ne d n (by decide : 6 < 32) (.inl (testFails_ne_status _ n))]

theorem failCounted_comp (d : Dev) (n : Nat) : ((d.failCounted n).comp n).failed = true := by
  rw [Dev.comp, Dev.failCounted, Dev.incFld, Dev.setFld_comps, ← Dev.comp, Dev.failMarked, comp_setComp_self]

theorem Dev.CompRun.failCounted {d d₀ e : Dev} {rs : List Record} (h : d.CompRun d₀ e lowBlocks rs) {n : Nat} (hn : n < 192) :
    d.CompRun d₀ (e.failCounted n) lowBlocks rs := by
  have hstatus : COMP.CMP_STATUS n ∈ lowBlocks := compKeys_lowBlocks hn List.mem_cons_self
  have hfails : (COMP.TEST_FAILS_COUNT (n / 96)).addr ∈ lowBlocks := by
    simp only [mem_lowBlocks, COMP.TEST_FAILS_COUNT, COMP.TEST_FAILS]; omega
  have hmarked : d.CompRun d₀ (e.failMarked n) lowBlocks rs :=
    ((h.setFld (f := COMP.CMP_STATUS_SERVICE n) hstatus 4).setFld (f := COMP.CMP_STATUS_TEST_FAIL n) hstatus 1).setComp n _
  exact hmarked.setFld hfails _

/-- The comparator marked FAILED after its test, and reported with a record. -/
def Dev.failReported (d : Dev) (t : CompTest) : Dev :=
  (((d.outcomeShown t true).failCounted t.n).report 0x0F t.n).sysRec (COMP.CMP_STATUS t.n) (d.reg (COMP.CMP_STATUS t.n))

theorem failReported_regs (d : Dev) (t : CompTest) : (d.failReported t).regs = ((d.outcomeShown t true).failCounted t.n).regs := rfl

theorem failReported_comps (d : Dev) (t : CompTest) : (d.failReported t).comps = ((d.outcomeShown t true).failCounted t.n).comps := rfl

theorem failReported_fld (d : Dev) (t : CompTest) (g : Fld) : (d.failReported t).fld g = ((d.outcomeShown t true).failCounted t.n).fld g :=
  Dev.fld_of_regs g (failReported_regs d t)

/-- What a failure reports is fault source 0x0F of its comparator. -/
theorem Dev.CompRun.failReported (d : Dev) {t : CompTest} (hn : t.n < 192) : ∃ T rs, d.CompRun
    { d with trued := T, faults := d.faults ++ [{ src := 0x0F, unit := t.n, stamp := d.nowNs }] } (d.begun.failReported t) lowBlocks rs := by
  obtain ⟨T, hshown⟩ := Dev.CompRun.outcomeShown d hn true
  have hcounted := hshown.failCounted hn
  have hreport := (hcounted.report 0x0F t.n).sysRec (COMP.CMP_STATUS t.n) (d.begun.reg (COMP.CMP_STATUS t.n))
  rw [hcounted.report_faults] at hreport
  exact ⟨T, _, hreport⟩

/-- A field of CMP_STATUS or TEST_FAILS at the end of a test that failed. -/
theorem settle_testClosed_fld (d : Dev) (n : Nat) {g : Fld} (hg : g.tripFree) (hs : g.addr ≠ COMP.TEST_STATUS (n / 96))
    (hhigh : 0x80000 ≤ g.addr) : (settle (d.testClosed n)).fld g = d.fld g := by
  rw [settle_compFld _ hhigh, testClosed_fld d n hg hs]

theorem tripFree_testFails {b : Nat} (hb : b < 2) : (COMP.TEST_FAILS_COUNT b).tripFree :=
  tripFree_of_key (by decide : 6 < 32) (by simp only [COMP.TEST_FAILS_COUNT, COMP.TEST_FAILS]; omega)
    (by simp only [COMP.TEST_FAILS_COUNT, COMP.TEST_FAILS]; omega)

/-- The end of an automatic test of which a check failed (R130). -/
theorem settle_testFailed {d : Dev} (h : d.untimed) {t : CompTest} (hn : t.n < 192) (hq : (d.compBlk (t.n / 96)).queue = [])
    (hbad : (t.bad && t.marks) = true) (hmark : (d.comp t.n).failed = false) :
    let e := settle (d.begun.testEnd t)
    (e.compBlk (t.n / 96)).test = none ∧ e.fld (COMP.CMP_STATUS_RESULT t.n) = t.result % 16 ∧
    e.flag (COMP.CMP_STATUS_TEST_DONE t.n) = true ∧ e.fld (COMP.TEST_STATUS_SUBJECT (t.n / 96)) = 0x7F ∧ e.service t.n = 4 ∧
    (e.comp t.n).failed = true ∧ e.flag (COMP.CMP_STATUS_TEST_FAIL t.n) = true ∧
    e.faults = d.faults ++ [{ src := 0x0F, unit := t.n, stamp := d.nowNs }] ∧
    e.fld (COMP.TEST_FAILS_COUNT (t.n / 96)) = satInc 0x7F (d.fld (COMP.TEST_FAILS_COUNT (t.n / 96))) := by
  intro e
  obtain ⟨T, rs, hrun⟩ := Dev.CompRun.failReported d hn
  have hfail : ((t.bad && t.marks) || (d.begun.comp t.n).failed) = true := by rw [hbad, Bool.true_or]
  have hmarked : ((d.begun.outcomeShown t true).comp t.n).failed = false := by
    rw [Dev.comp, outcomeShown_comps]
    exact hmark
  have hend : d.begun.testEnd t = (d.begun.failReported t).testClosed t.n := by
    rw [testEnd_failed hfail, compFail_eq hmarked]
    exact testFree_eq_testClosed hrun h hn rfl hq
  have he : e = settle ((d.begun.failReported t).testClosed t.n) := congrArg settle hend
  have hblks : e.compBlks = ((d.begun.failReported t).testClosed t.n).compBlks := by rw [he, settle_compBlks]
  have hne := testStatus_ne_status (t.n / 96) t.n
  have hstatus (g : Fld) (hg : g.tripFree) (ha : g.addr = COMP.CMP_STATUS t.n) : e.fld g = ((d.begun.outcomeShown t true).failMarked t.n).fld g := by
    obtain ⟨hw, -⟩ := hg 0
    rw [he, settle_testClosed_fld _ _ hg (ha ▸ hne.symm) (ha ▸ cmpStatus_high t.n), failReported_fld,
      failCounted_fld_ne _ _ hw (ha ▸ (testFails_ne_status _ _).symm)]
  refine ⟨?_, ?_, ?_, ?_, ?_, ?_, ?_, ?_, ?_⟩
  · rw [compBlk_of_compBlks hblks]
    exact testFreed_test _ _
  · have hbits : (COMP.CMP_STATUS_RESULT t.n).addr ≠ COMP.CMP_STATUS t.n ∨ (COMP.CMP_STATUS_RESULT t.n).hi < 4 ∨
        (6 < (COMP.CMP_STATUS_RESULT t.n).lo ∧ ((COMP.CMP_STATUS_RESULT t.n).hi < 11 ∨ 11 < (COMP.CMP_STATUS_RESULT t.n).lo)) :=
      .inr (.inr (by decide : 6 < 12 ∧ (15 < 11 ∨ 11 < 12)))
    rw [hstatus _ (tripFree_result hn) rfl, failMarked_fld_ne _ _ (by decide : 15 < 32) hbits, outcomeShown_result]
  · have hbits : (COMP.CMP_STATUS_TEST_DONE t.n).addr ≠ COMP.CMP_STATUS t.n ∨ (COMP.CMP_STATUS_TEST_DONE t.n).hi < 4 ∨
        (6 < (COMP.CMP_STATUS_TEST_DONE t.n).lo ∧ ((COMP.CMP_STATUS_TEST_DONE t.n).hi < 11 ∨ 11 < (COMP.CMP_STATUS_TEST_DONE t.n).lo)) :=
      .inr (.inr (by decide : 6 < 10 ∧ (10 < 11 ∨ 11 < 10)))
    rw [Dev.flag, hstatus _ (tripFree_testDone hn) rfl, failMarked_fld_ne _ _ (by decide : 10 < 32) hbits, ← Dev.flag, outcomeShown_done]
  · rw [he, settle_compFld _ (testStatus_high _)]
    exact testFreed_subject _ _
  · exact (hstatus _ (tripFree_service hn) rfl).trans (failMarked_service _ _)
  · have hreported : (d.begun.failReported t).untimed := hrun.untimed lowKeys_lowBlocks h
    obtain ⟨-, -, -, hfailed⟩ := CompSt.eq_of_unwatched (testClosed_unwatched hreported hn t.n)
    rw [he, settle_comp, hfailed, Dev.comp, failReported_comps, ← Dev.comp, failCounted_comp]
  · rw [Dev.flag, hstatus _ (tripFree_testFail hn) rfl, ← Dev.flag, failMarked_flag]
  · rw [he, settle_faults]
    exact (hrun.testClosed h hn).faults
  · have hsubject : (COMP.TEST_FAILS_COUNT (t.n / 96)).addr ≠ COMP.TEST_STATUS (t.n / 96) := by
      simp only [COMP.TEST_FAILS_COUNT, COMP.TEST_FAILS, COMP.TEST_STATUS]; omega
    have hhigh : 0x80000 ≤ (COMP.TEST_FAILS_COUNT (t.n / 96)).addr := by simp only [COMP.TEST_FAILS_COUNT, COMP.TEST_FAILS]; omega
    have htrim : (COMP.TEST_FAILS_COUNT (t.n / 96)).addr ≠ COMP.CMP_TRIM t.n := by
      simp only [COMP.TEST_FAILS_COUNT, COMP.TEST_FAILS, COMP.CMP_TRIM]; omega
    rw [he, settle_testClosed_fld _ _ (tripFree_testFails (by omega)) hsubject hhigh, failReported_fld, failCounted_count,
      outcomeShown_fld_ne _ _ _ (by decide : 6 < 32) htrim (.inl (testFails_ne_status _ _))]
    rfl

/-- Settles O17: a test begins with its comparator UNDER_TEST and the checks of its OP, each check leaves the rest, and the last one
shows the result, frees the block, and either lets the comparator settle or marks it FAILED and reports it. -/
theorem comparatorTests : Obligations.ComparatorTests := by
  unfold Obligations.ComparatorTests
  intro s
  refine ⟨?selftest, ?sequence, ?tieTrip, ?tieClear, ?swap, ?waits, ?more, ?passed, ?failed⟩
  case selftest =>
    intro b i hfree hhold hdue hnext hu
    exact does_of_effect (exec_compSelftestStart hfree hhold hdue hnext) rfl (settle_selftest hu b.isLt (testNext_lt hnext))
  case sequence =>
    intro a n v ht hop hclear hu hfree
    exact manualTest_starts rfl ht hop (by decide) hclear hu hfree
  case tieTrip =>
    intro a n v ht hop hclear hu hfree
    exact manualTest_starts rfl ht hop (by decide) hclear hu hfree
  case tieClear =>
    intro a n v ht hop hclear hu hfree
    exact manualTest_starts rfl ht hop (by decide) hclear hu hfree
  case swap =>
    intro a n v ht hop hclear hu hfree
    exact manualTest_starts rfl ht hop (by decide) hclear hu hfree
  case waits =>
    intro a n v ht hop hclear hbusy
    have hstored : ((s.dev.testStored a.id n.val v).compBlk (n.val / 96)).test ≠ none := hbusy
    have he := compEffect_wait (d := s.dev.testStored a.id n.val v) n.isLt ((cmpTestActed_clear s.dev.begun n.val v).trans hclear)
      ((cmpTestActed_op s.dev.begun n.val v).trans hop) (by decide) hstored
    exact does_of_effect (exec_cmpTest rfl ht (decide_eq_true hop) he
      ((Dev.CompRun.testStored s.dev a.id (List.mem_singleton_self _) v).setCompBlk _ _)) rfl (settle_testWaits s.dev a.id n.isLt v 4)
  case more =>
    intro b o t ht hdue hmore
    obtain ⟨hblk, hregs, hunits, hkeeps, hrec⟩ := settle_setCompBlk s.dev b.val { s.dev.compBlk b.val with
      test := some { t.check (s.dev.compBelow t.n) o with
        nextAt := s.dev.now + nsT (checkWait (s.dev.compMode t.n) (t.check (s.dev.compBelow t.n) o).checks) } }
    exact does_of_effect (exec_compTestCheck ht hdue) (checked_more (d := s.dev.begun) hmore)
      ⟨congrArg CompBlk.test hblk, hregs, hunits, hkeeps, hrec⟩
  case passed =>
    intro b o t ht hdue hlast hq hb _ hu hgood hmark
    obtain ⟨hn, hmarks⟩ := check_kept t (s.dev.compBelow t.n) o
    have hpass : (((t.check (s.dev.compBelow t.n) o).bad && (t.check (s.dev.compBelow t.n) o).marks) ||
        (s.dev.comp (t.check (s.dev.compBelow t.n) o).n).failed) = false := by
      rw [hn, hmark, hmarks]
      rcases hgood with hgood | hgood <;> simp [hgood]
    have hfreed := settle_testPassed hu (t := t.check (s.dev.compBelow t.n) o) (by rw [hn]; omega) (by rw [hn, hb, hq]) hpass
    rw [hn, hb] at hfreed
    exact does_of_effect (exec_compTestCheck ht hdue) (checked_last (d := s.dev.begun) hlast) hfreed
  case failed =>
    intro b o t ht hdue hlast hq hb _ hu hbad hm hmark
    obtain ⟨hn, hmarks⟩ := check_kept t (s.dev.compBelow t.n) o
    have hfail : ((t.check (s.dev.compBelow t.n) o).bad && (t.check (s.dev.compBelow t.n) o).marks) = true := by rw [hbad, hmarks, hm]; rfl
    have hfreed := settle_testFailed hu (t := t.check (s.dev.compBelow t.n) o) (by rw [hn]; omega) (by rw [hn, hb, hq]) hfail
      (by rw [hn, hmark])
    rw [hn, hb] at hfreed
    exact does_of_effect (exec_compTestCheck ht hdue) (checked_last (d := s.dev.begun) hlast) hfreed

end Sys2Proof.Machine

/-! ## The loop engine (spec/06): coefficients and slot evaluations -/

namespace Sys2Proof.Machine

/-! ### Records that fill the buffer (R54, R57, R61) -/

theorem enterRun_mem (d : Dev) (u : List Record) : (d.enterRun u).mem = (u.foldl Dev.enter d).mem :=
  (apply_ite Dev.mem _ _ _).trans (ite_self _)

theorem enterAll_mem (d : Dev) :
    d.enterAll.mem = ((orderRuns d.led.fresh).foldl Dev.enterRun { d with led := { d.led with fresh := [] } }).mem :=
  (apply_ite Dev.mem _ _ _).trans (ite_self _)

theorem settle_mem (d : Dev) : (settle d).mem = d.enterAll.mem := by
  have hshown : ∀ e : Dev, (if (e.reg LEDGER.LG_NEXT_SEQ - e.reg LEDGER.LG_READ_SEQ).toNat > e.ringSize
      ∧ e.fld LEDGER.LG_STATUS_OVERRUN = 0 then (e.setFld LEDGER.LG_STATUS_OVERRUN 1).raise 1209 else e).mem = e.mem := by
    intro e
    split
    · exact (Dev.raise_mem _ _).trans (Dev.setFld_mem _ _ _)
    · rfl
  exact hshown { d.enterAll with led := { d.enterAll.led with chip := d.enterAll.led.chip.take 4096 } }

theorem bytes_of_mem {d e : Dev} (h : d.mem = e.mem) (a n : Nat) : d.bytes a n = e.bytes a n := by
  induction n generalizing a with
  | zero => rfl
  | succ n ih => rw [Dev.bytes, Dev.bytes, ih, Dev.byte, Dev.byte, h]

/-- The first bytes of a range. -/
theorem bytes_take (d : Dev) (a : Nat) {m n : Nat} (h : m ≤ n) : d.bytes a m = (d.bytes a n).take m := by
  induction m generalizing a n with
  | zero => rfl
  | succ m ih =>
    obtain ⟨n, rfl⟩ : ∃ k, n = k + 1 := ⟨n - 1, by omega⟩
    rw [Dev.bytes, Dev.bytes, List.take_succ_cons, ← ih _ (by omega)]

theorem hostEnqueue_mem (d : Dev) (r : HostRec) : (d.hostEnqueue r).mem = d.mem := by
  have hlose (e : Dev) : (e.hostLose r).mem = e.mem := by
    unfold Dev.hostLose
    dsimp only
    split
    · rfl
    · rfl
  unfold Dev.hostEnqueue
  dsimp only
  split
  · rfl
  split
  · rfl
  split
  · exact hlose d
  split
  · split
    · exact hlose _
    · rfl
  · rfl

theorem mirror_mem (d : Dev) (r : Record) : (d.mirror r).mem = d.mem := by
  unfold Dev.mirror
  generalize he : (if bitOf (d.fld LEDGER.LG_HOST_MIRROR_KINDS) (r.kind.code - 1) = true then _ else d) = e
  have hhost : e.mem = d.mem := by
    subst he
    split
    · exact hostEnqueue_mem d _
    · rfl
  dsimp only
  split
  · split
    · exact hhost
    · exact hhost
  · exact hhost

/-- A full buffer on its way to DRAM writes its oldest record to the record's place in the ring (R57). -/
theorem drainOne_mem {d : Dev} {q : Word} {r : Record} (hocc : d.fld LEDGER.LG_STATUS_OCC ≠ 0)
    (hseq : d.reg LEDGER.LG_NEXT_SEQ - BitVec.ofNat 32 (d.fld LEDGER.LG_STATUS_OCC) = q) (hr : d.onChip q = some r) :
    d.drainOne.mem = (d.setBytes (d.ringAddr q) r.bytes).mem := by
  simp only [Dev.drainOne, if_neg hocc, hseq, hr]
  rfl

/-- A record of kinds that no mirror selects is not mirrored (R62). -/
theorem mirror_off {d : Dev} (hhost : d.fld LEDGER.LG_HOST_MIRROR_KINDS = 0) (hnor : d.fld LEDGER.LG_NOR_MIRROR_KINDS = 0)
    (r : Record) : d.mirror r = d := by
  have hbit (i : Nat) : bitOf 0 i = false := by simp [bitOf]
  simp [Dev.mirror, hhost, hnor, hbit]

/-! ### A coefficient under the Ledger's ring (R57, R145) -/

/-- The oldest record that waits in the buffer: its sequence number is 0. -/
def oldestRecord : Record :=
  { kind := .system, flags := 3, origin := devAgent, time := 0, block := 1, off := 0, new := 0, old := 0 }

/-- The Ledger drains to a ring that lies over the coefficient memory, and its buffer holds 3,968 records, the oldest of them on chip. A
run of 128 SYSTEM records, which need no room (R61), waits to be entered. -/
def crowdedBuffer : Dev :=
  { (((({} : Dev).setFld LEDGER.LG_CTRL_TARGET 1).setFld LEDGER.LG_STATUS_OCC 3968).setNum LEDGER.LG_NEXT_SEQ 3968).setReg64
      LEDGER.LG_RING_BASE 0x30000000 with
    led := { chip := [oldestRecord], fresh := List.replicate 128 { oldestRecord with flags := 0 } } }

/-- The device after `n` more records have been entered in the crowded buffer. -/
structure Crowded (e : Dev) (n : Nat) : Prop where
  words : ∀ k, k ≠ LEDGER.LG_STATUS → k ≠ LEDGER.LG_NEXT_SEQ → e.reg k = crowdedBuffer.reg k
  occ : e.fld LEDGER.LG_STATUS_OCC = 3968 + n
  next : e.reg LEDGER.LG_NEXT_SEQ = BitVec.ofNat 32 (3968 + n)
  oldest : e.onChip 0 = some oldestRecord

namespace Crowded

variable {e : Dev} {n : Nat}

theorem fld (h : Crowded e n) {f : Fld} (h1 : f.addr ≠ LEDGER.LG_STATUS) (h2 : f.addr ≠ LEDGER.LG_NEXT_SEQ) :
    e.fld f = crowdedBuffer.fld f :=
  Dev.fld_of_reg (h.words _ h1 h2)

theorem lgDram (h : Crowded e n) : e.lgDram = true := by
  rw [Dev.lgDram, h.fld (f := LEDGER.LG_CTRL_TARGET) (by decide) (by decide)]
  decide +kernel

/-- Nothing is mirrored. -/
theorem mirror (h : Crowded e n) (r : Record) : e.mirror r = e :=
  mirror_off ((h.fld (by decide) (by decide)).trans (by decide +kernel)) ((h.fld (by decide) (by decide)).trans (by decide +kernel)) r

/-- A record that finds a place takes it. -/
theorem addRecord (h : Crowded e n) (hn : n < 128) (r : Record) : Crowded (e.addRecord (e.nextRecord r)) (n + 1) := by
  have hocc : (({ e with led := { e.led with chip := e.nextRecord r :: e.led.chip } } : Dev).wrapNum LEDGER.LG_NEXT_SEQ).fld
      LEDGER.LG_STATUS_OCC = 3968 + n := (Dev.fld_setReg_ne _ (by decide) _).trans h.occ
  refine ⟨fun k h1 h2 => ?_, ?_, ?_, ?_⟩
  · exact (Dev.reg_setFld_ne _ (f := LEDGER.LG_STATUS_OCC) h1 _).trans ((Dev.reg_setReg_ne _ h2 _).trans (h.words k h1 h2))
  · have hsat : satInc 4096 (3968 + n) = 3968 + (n + 1) := if_pos (by omega)
    rw [Dev.addRecord, hocc, hsat]
    exact Dev.fld_setFld_of_lt _ LEDGER.LG_STATUS_OCC _ (by decide) (by decide) (show 3968 + (n + 1) < 8192 by omega)
  · refine (Dev.reg_setFld_ne _ (f := LEDGER.LG_STATUS_OCC) (by decide) _).trans ((Dev.reg_setReg_self _ _ _).trans ?_)
    rw [show ({ e with led := { e.led with chip := e.nextRecord r :: e.led.chip } } : Dev).reg LEDGER.LG_NEXT_SEQ
      = BitVec.ofNat 32 (3968 + n) from h.next]
    exact (BitVec.ofNat_add (3968 + n) 1).symm
  · have hseq : (e.nextRecord r).seq ≠ 0 := by
      rw [show (e.nextRecord r).seq = BitVec.ofNat 32 (3968 + n) from h.next]
      intro h0
      have hzero := congrArg BitVec.toNat h0
      rw [BitVec.toNat_ofNat, Nat.mod_eq_of_lt (by omega)] at hzero
      exact absurd hzero (by simp)
    exact (List.find?_cons_of_neg (by simpa using hseq)).trans h.oldest

theorem enter (h : Crowded e n) (hn : n < 128) (r : Record) : Crowded (e.enter r) (n + 1) := by
  have hfree : e.makeRoom = e := by
    rw [Dev.makeRoom, h.occ, decide_eq_false (by omega), Bool.and_false]
    rfl
  rw [enter_eq, hfree, (h.addRecord hn r).mirror]
  exact h.addRecord hn r

theorem foldl (h : Crowded e n) (u : List Record) (hn : n + u.length ≤ 128) : Crowded (u.foldl Dev.enter e) (n + u.length) := by
  induction u generalizing e n with
  | nil => exact h
  | cons r u ih =>
    rw [List.length_cons] at hn ⊢
    rw [← Nat.succ_add_eq_add_succ]
    exact ih (h.enter (by omega) r) (by omega)

/-- A record that finds the buffer full sends the oldest one, whose sequence number is 0, to the first place of the ring: over the first
coefficient word. -/
theorem drains (h : Crowded e 128) (r : Record) : (e.enter r).bytes (coefAddr 0 0 0) 4 = [0, 0, 0, 0] := by
  have hseq : e.reg LEDGER.LG_NEXT_SEQ - BitVec.ofNat 32 (e.fld LEDGER.LG_STATUS_OCC) = 0 := by
    rw [h.next, h.occ, BitVec.sub_self]
    rfl
  have hbase : e.reg64 LEDGER.LG_RING_BASE = 0x30000000 := by
    rw [Dev.reg64, h.words _ (by decide) (by decide), h.words _ (by decide) (by decide)]
    decide +kernel
  have haddr : e.ringAddr 0 = coefAddr 0 0 0 := by rw [Dev.ringAddr, hbase]; rfl
  have hfull : e.makeRoom = e.drainOne := by
    rw [Dev.makeRoom, h.lgDram, h.occ]
    rfl
  have hmem : (e.enter r).mem = (e.setBytes (coefAddr 0 0 0) oldestRecord.bytes).mem := by
    rw [enter_eq, mirror_mem, hfull, ← haddr]
    exact drainOne_mem (by rw [h.occ]; exact Nat.succ_ne_zero _) hseq h.oldest
  rw [bytes_of_mem hmem, bytes_take _ _ (show 4 ≤ oldestRecord.bytes.length by decide), Dev.bytes_setBytes]
  decide

end Crowded

theorem crowded_of_regs {e : Dev} (hregs : e.regs = crowdedBuffer.regs) (hold : e.onChip 0 = some oldestRecord) : Crowded e 0 :=
  ⟨fun k _ _ => Dev.reg_of_regs k hregs, (Dev.fld_of_regs _ hregs).trans (by decide +kernel),
    (Dev.reg_of_regs _ hregs).trans (by decide +kernel), hold⟩

/-- A run of 129 records drains the oldest record over the coefficient (R57). -/
theorem settle_crowded {e : Dev} {u : List Record} {q : Record} (hu : u.length = 128) (hregs : e.regs = crowdedBuffer.regs)
    (hchip : e.led.chip = [oldestRecord]) (hfresh : e.led.fresh = u ++ [q]) (hrun : orderRuns e.led.fresh = [e.led.fresh]) :
    (settle e).bytes (coefAddr 0 0 0) 4 = [0, 0, 0, 0] := by
  have hstart : Crowded { e with led := { e.led with fresh := [] } } 0 :=
    crowded_of_regs hregs (by rw [Dev.onChip, hchip]; rfl)
  have hmem := (settle_mem e).trans (enterAll_mem e)
  rw [hrun, List.foldl_cons, List.foldl_nil, enterRun_mem, hfresh, List.foldl_append] at hmem
  have hfull := hstart.foldl u (by rw [hu])
  rw [hu, Nat.zero_add] at hfull
  exact (bytes_of_mem hmem _ _).trans (hfull.drains q)

/-- A coefficient word written through the window of its slot's block (R145). -/
theorem exec_coefWrite_window (a : Agent) (n : Fin 32) (k : Fin 4) (i : Fin 16) (v : Word) (s : State) {key : Nat}
    (hkey : (0x18 + n.val / 16) * 0x10000 + 0x4000 + 0x100 * (n.val % 16) + 0x40 * k.val + 4 * i.val = key) :
    exec (.coefWrite a n k i false v) s = .next { s with dev := settle (s.dev.begun.regWrite a.id key v) } := by
  rw [← hkey]
  rfl

/-- The records of the command fill the buffer. -/
theorem coefWrite_crowdedBuffer {t : State} (ht : exec (.coefWrite .host 0 0 0 false 1) { dev := crowdedBuffer } = .next t) :
    t.dev.bytes (coefAddr 0 0 0) 4 = [0, 0, 0, 0] := by
  obtain rfl := Host.Outcome.next.inj ((exec_coefWrite_window .host 0 0 0 1 _ (key := 0x184000) (by decide)).symm.trans ht)
  have hregs : (crowdedBuffer.begun.regWrite Agent.host.id 0x184000 1).regs = crowdedBuffer.regs := by decide +kernel
  have hchip : (crowdedBuffer.begun.regWrite Agent.host.id 0x184000 1).led.chip = [oldestRecord] := by decide +kernel
  have hfresh : (crowdedBuffer.begun.regWrite Agent.host.id 0x184000 1).led.fresh =
      crowdedBuffer.led.fresh ++ [wordRecord 0 .live 0 Agent.host.id 0x184000 1 0] := by decide +kernel
  have hrun : orderRuns (crowdedBuffer.begun.regWrite Agent.host.id 0x184000 1).led.fresh =
      [(crowdedBuffer.begun.regWrite Agent.host.id 0x184000 1).led.fresh] := by decide +kernel
  generalize crowdedBuffer.begun.regWrite Agent.host.id 0x184000 1 = e at hregs hchip hfresh hrun ⊢
  exact settle_crowded List.length_replicate hregs hchip hfresh hrun

/-- Refutes O20 in its clause of COEF_WRITE through the window, which says that the coefficient memory holds the word at the end of the
command whatever records wait then. Room in the Ledger (R59) counts no SYSTEM records: 128 of them, which no command leaves waiting but
which the clause does not exclude, fill the buffer beside the record of the write, and the oldest record drains to DRAM, or to whatever
the ring's base names (R57). -/
theorem not_slotCommands : ¬ Obligations.SlotCommands := by
  unfold Obligations.SlotCommands
  intro h
  obtain ⟨-, -, -, hwindow, -⟩ := h { dev := crowdedBuffer }
  obtain ⟨t, ht, -, -, hstored, -⟩ := hwindow .host 0 0 0 1 (by decide +kernel) (by decide)
  exact absurd ((coefWrite_crowdedBuffer ht).symm.trans hstored) (by decide)

/-! ### Slots at the end of a command -/

theorem settle_slots (d : Dev) : (settle d).slots = d.slots := by have h := congrArg Dev.slots (settles d).units; exact h

theorem settle_slot (d : Dev) (n : Nat) : (settle d).slot n = d.slot n := congrArg (Tab.get ({} : SlotSt) n) (settle_slots d)

theorem slot_setSlot_self (d : Dev) (n : Nat) (x : SlotSt) : (d.setSlot n x).slot n = x := Tab.get_set_self ({} : SlotSt) n x d.slots

theorem setSlot_keeps (d : Dev) (n : Nat) (x : SlotSt) : Tab.keeps {} [n] d.slots (d.setSlot n x).slots :=
  fun _ hk => Tab.get_set_ne {} {} (List.ne_of_not_mem_cons hk) x d.slots

/-- From `d` to `e` no unit changed but slot `n`, which became `x`, no register word but those at the keys in `l`, and no record was
made. -/
structure Dev.SlotRun (d e : Dev) (n : Nat) (x : SlotSt) (l : List Nat) : Prop where
  slot : e.slot n = x
  others : Tab.keeps {} [n] d.slots e.slots
  units : { d with slots := e.slots }.keepsUnits e
  makes : ∃ ids, d.Makes e l ids []

namespace Dev.SlotRun

variable {d e : Dev} {n : Nat} {x : SlotSt} {l : List Nat}

theorem begun (d : Dev) (n : Nat) (l : List Nat) : d.SlotRun d.begun n (d.slot n) l :=
  ⟨rfl, fun _ _ => rfl, ⟨rfl, fun _ => rfl⟩, [], Dev.Makes.begun d⟩

theorem refl (d : Dev) (n : Nat) (l : List Nat) : d.SlotRun d n (d.slot n) l :=
  ⟨rfl, fun _ _ => rfl, ⟨rfl, fun _ => rfl⟩, [], ⟨fun _ _ => rfl, (List.append_nil _).symm, (List.append_nil _).symm, rfl⟩⟩

theorem reg (h : d.SlotRun e n x l) {k : Nat} (hk : k ∉ l) : e.reg k = d.reg k :=
  have ⟨_, hm⟩ := h.makes
  hm.regs k hk

theorem fld (h : d.SlotRun e n x l) {f : Fld} (hf : f.addr ∉ l) : e.fld f = d.fld f := Dev.fld_of_reg (h.reg hf)

theorem now (h : d.SlotRun e n x l) : e.now = d.now := by
  have hnow := congrArg Dev.now h.units.1
  exact hnow

theorem sliceDet (h : d.SlotRun e n x l) : e.sliceDet = d.sliceDet := by
  have hdet := congrArg Dev.sliceDet h.units.1
  exact hdet

theorem setSlot (h : d.SlotRun e n x l) (y : SlotSt) : d.SlotRun (e.setSlot n y) n y l :=
  have ⟨ids, hm⟩ := h.makes
  ⟨slot_setSlot_self e n y, fun k hk => (setSlot_keeps e n y k hk).trans (h.others k hk),
    ⟨congrArg (fun u : Dev => { u with slots := (e.setSlot n y).slots }) h.units.1, h.units.2⟩, ids, hm.frame rfl rfl rfl rfl⟩

theorem setReg (h : d.SlotRun e n x l) {a : Nat} (ha : a ∈ l) (v : Word) : d.SlotRun (e.setReg a v) n x l :=
  have ⟨ids, hm⟩ := h.makes
  ⟨h.slot, h.others, h.units.setReg a v, ids, hm.setReg ha v⟩

theorem setNum (h : d.SlotRun e n x l) {a : Nat} (ha : a ∈ l) (v : Nat) : d.SlotRun (e.setNum a v) n x l := h.setReg ha _

theorem setFld (h : d.SlotRun e n x l) {f : Fld} (hf : f.addr ∈ l) (v : Nat) : d.SlotRun (e.setFld f v) n x l := h.setReg hf _

theorem raise (h : d.SlotRun e n x l) (id : Nat) : d.SlotRun (e.raise id) n x l :=
  have ⟨ids, hm⟩ := h.makes
  ⟨h.slot, h.others, h.units.raise id, ids ++ [id], hm.raise h.now id⟩

theorem when (h : d.SlotRun e n x l) {c : Bool} {f : Dev → Dev} (hf : d.SlotRun (f e) n x l) : d.SlotRun (e.when c f) n x l :=
  Dev.when_cases (p := fun u => d.SlotRun u n x l) c h hf

/-- What a command leaves of the units, and that it entered no record, is there at its end. -/
theorem settle (h : d.SlotRun e n x l) (hl : ∀ k ∈ l, k / 0x10000 ≠ 1) :
    (Machine.settle e).slot n = x ∧ Tab.keeps {} [n] d.slots (Machine.settle e).slots ∧ d.keepsRegs (Machine.settle e) l ∧
    { d with slots := (Machine.settle e).slots }.keepsUnits (Machine.settle e) ∧ d.noRecord (Machine.settle e) := by
  obtain ⟨ids, hm⟩ := h.makes
  rw [settle_slot, settle_slots]
  exact ⟨h.slot, h.others, hm.settle_keepsRegs, hm.settle_keepsUnits (fun hk => hl _ hk rfl) rfl h.units,
    hm.settle_noRecord fun hk => hl _ hk rfl⟩

end Dev.SlotRun

/-! ### The oldest sample of a slot (R138) -/

/-- The device with the oldest sample of slot `n` taken; the samples `rest` still wait. -/
def Dev.sampleTaken (d : Dev) (n : Nat) (rest : List (Time × Half)) : Dev := d.setSlot n { d.slot n with queue := rest }

/-- The device after the oldest sample of a slot for which no commit waits, where no detour is in progress. -/
theorem slotEval_eq {d : Dev} {n : Nat} {g : Bool} {t : Time} {w : Half} {rest : List (Time × Half)}
    (hqueue : (d.slot n).queue = (t, w) :: rest) (hdefer : (d.slot n).defer = none) (hdet : d.sliceDet = none) :
    d.slotEval n g = if d.slotRun n ≠ 1 ∧ d.slotRun n ≠ 3 then d.sampleTaken n rest
      else (((d.sampleTaken n rest).evalSample n g t w).slotDue n).runGroupsOf [n] := by
  simp only [Dev.slotEval, Dev.sampleTaken, hqueue, hdefer, Dev.skipped, Dev.slotBlocked, hdet, Bool.false_eq_true, if_false, Bool.false_and]
  rfl

theorem unitRuns_supGroup (d : Dev) : d.unitRuns supGroup = d.sliceDet.isSome := rfl

/-- Without a detour no commit of the supervision waits for one to end (R177). -/
theorem exec_slotEvaluation {s : State} (n : Fin 32) (g : Bool) (hdet : s.dev.sliceDet = none) :
    exec (.slotEvaluation n g) s = .next { s with dev := settle (s.dev.begun.slotEval n g) } := by
  have hrests : s.dev.begun.unitRuns supGroup = false := by rw [unitRuns_supGroup, show s.dev.begun.sliceDet = none from hdet]; rfl
  refine congrArg (fun d => Host.Outcome.next { s with dev := settle d }) ?_
  change Dev.applyStopped s.dev.begun (s.dev.begun.slotEval n g) supGroup = _
  rw [Dev.applyStopped, hrests]
  rfl

/-! ### An evaluation: its numbers, and what it stores (R139) -/

/-- The numbers of an evaluation: what it stores of itself, the target and rq, the error before its saturation, y between its limits, u
before its limits, whether another member of its group held it, and whether its sample was out of range. -/
structure EvalNums where
  ev : Eval
  tgt : Int
  rq : Int
  dErr : Int
  eFull : Int
  y : Int
  lo : Int
  hi : Int
  u0 : Int
  held : Bool
  ovr : Bool

/-- The numbers of an evaluation of sample word `w` of instant `t` under the configuration of `cfg`. -/
def Dev.evalNums (d cfg : Dev) (s : Nat) (t : Time) (w : Half) : EvalNums :=
  let st := d.slot s
  let k := codeOf w
  let x := (if cfg.flag (LOOP.SLOT_CFG_INV s) then -k else k) * 256
  let tgt := cfg.spTarget s t * 256
  let rq := cfg.nextRq s t x tgt
  let r := shrFloor rq 8
  let dErr := r - x
  let eFull := dErr * (2 ^ cfg.fld (LOOP.SLOT_CFG_SHIFT s) : Nat)
  let e := satI 32 eFull
  let c := d.coefs s (d.fld (LOOP.SLOT_STATUS_CUR_SET s))
  let y := satI 48 (shrFloor ((c.headD 0) * e * 4096 + st.p + 2 ^ 27) 28)
  let lo := cfg.int (LOOP.SLOT_INT_LO s) * 4096
  let hi := cfg.int (LOOP.SLOT_INT_HI s) * 4096
  let g := cfg.fld (LOOP.SLOT_OUT_CFG_INDEX s)
  let held := if cfg.fld (LOOP.SLOT_OUT_CFG_TARGET s) = 4 then (d.refDecision g t).filter fun x => decide (x.slot ≠ s) else none
  let hi' := match held with
    | some x => min hi ((x.u + (d.num (LOOP.CG_MARGIN g) : Nat)) * 4096)
    | none => hi
  let yc := if cfg.slotMode s = 3 then clampLo (cfg.int (LOOP.SLOT_MAN s) * 4096) lo hi' else clampLo y lo hi'
  let u0 := satI 32 (shrFloor (yc + 2048) 12)
  let u := clampLo u0 (cfg.int (LOOP.SLOT_OUT_LO s)) (cfg.int (LOOP.SLOT_OUT_HI s))
  { ev := { t := t, u := u, r := r, e := e, yc := yc }, tgt, rq, dErr, eFull, y, lo, hi, u0, held := held.isSome, ovr := bitOf w.toNat 3 }

/-- The slot with the evaluation `v` in its histories, and its partial recomputed with the coefficients `c`. -/
def SlotSt.evaluated (x : SlotSt) (c : List Int) (v : Eval) (rq : Int) : SlotSt :=
  let st : SlotSt := { x with
    first := false, spJump := false, rq := rq, tPrev := v.t
    e1 := v.e, e2 := x.e1, e3 := x.e2, e4 := x.e3, y1 := v.yc, y2 := x.y1, y3 := x.y2, y4 := x.y3
    evs := (v :: x.evs).take 16 }
  { st with p := st.partialOf c, commitNew := false }

/-- The evaluation stored: the slot, its count, and the words that show it (R142). -/
def Dev.evalStored (d : Dev) (s : Nat) (x : EvalNums) : Dev :=
  let st := d.slot s
  let d := d.setSlot s (st.evaluated (d.coefs s (d.fld (LOOP.SLOT_STATUS_CUR_SET s))) x.ev x.rq)
  let d := d.wrapNum (LOOP.SLOT_EVALS s)
  let d := d.when st.commitNew fun d => d.setReg (LOOP.SLOT_COMMIT_EVAL s) (d.reg (LOOP.SLOT_EVALS s))
  let d := ((d.setNum (LOOP.SLOT_OUT s) (low 32 x.ev.u)).setNum (LOOP.SLOT_SP_NOW s) (low 24 x.ev.r)).setNum (LOOP.SLOT_ERR s) (low 32 x.ev.e)
  d.setReg64 (LOOP.SLOT_STATE s) (BitVec.ofNat 64 (low 48 x.ev.yc))

/-- The flags of SLOT_STATUS that an evaluation sets and does not clear. -/
def Dev.evalMarked (d : Dev) (s : Nat) (x : EvalNums) : Dev :=
  let d := d.when (decide (x.ev.e ≠ x.eFull)) fun d => (d.setFld (LOOP.SLOT_STATUS_E_SAT s) 1).incFld (LOOP.SLOT_COUNTS_E_SATS s)
  d.when x.ovr fun d => d.setFld (LOOP.SLOT_STATUS_OVR_SEEN s) 1

/-- The flags of SLOT_STATUS that show an evaluation. -/
def Dev.evalShown (d : Dev) (s : Nat) (x : EvalNums) : Dev :=
  let d := (d.setFld (LOOP.SLOT_STATUS_CLAMPED_LO s) (b2n (decide (x.y < x.lo)))).setFld (LOOP.SLOT_STATUS_CLAMPED_HI s) (b2n (decide (x.y > x.hi)))
  let d := (d.setFld (LOOP.SLOT_STATUS_LOSING s) (b2n x.held)).setFld (LOOP.SLOT_STATUS_OUT_LIM s) (b2n (decide (x.ev.u ≠ x.u0)))
  d.setFld (LOOP.SLOT_STATUS_SLEWING s) (b2n (decide (x.rq ≠ x.tgt)))

/-- Snapshot, CLAMP event and oscillation detector after an evaluation. -/
def Dev.evalWatched (d : Dev) (s : Nat) (x : EvalNums) : Dev :=
  ((d.snapEval s x.ev.t x.ev.u x.ev.r).clampEvent s (decide (x.y < x.lo) || decide (x.y > x.hi))).oscRun s x.ev.t x.dErr x.ev.u

/-- The cadence instants of the slot's nodes (R172). -/
def Dev.evalTraced (d : Dev) (s : Nat) (t : Time) : Dev := (((d.cadence 2 s t).cadence 3 s t).cadence 4 s t).cadence 5 s t

theorem evaluate_eq (d cfg : Dev) (s : Nat) (t : Time) (w : Half) :
    let x := d.evalNums cfg s t w
    d.evaluate cfg s t w = (((((d.evalStored s x).evalMarked s x).evalShown s x).evalWatched s x).slotOutput cfg s t x.ev.u).evalTraced s t :=
  rfl

/-! ### What each part of an evaluation leaves -/

/-- The words that show an evaluation. -/
def storedKeys (n : Nat) : List Nat :=
  [LOOP.SLOT_EVALS n, LOOP.SLOT_COMMIT_EVAL n, LOOP.SLOT_OUT n, LOOP.SLOT_SP_NOW n, LOOP.SLOT_ERR n, LOOP.SLOT_STATE n,
    LOOP.SLOT_STATE n + 4]

/-- The words of its flags, its counts and the detector. -/
def statusKeys (n : Nat) : List Nat := [LOOP.SLOT_STATUS n, LOOP.SLOT_COUNTS n, LOOP.OSC_STATUS n]

/-- The words of a snapshot. -/
def snapKeys (n : Nat) : List Nat := [LOOP.SNAP_OUT n, LOOP.SNAP_SP n]

/-- What a slot keeps of its evaluations, its configuration and its samples: all but what waits for a snapshot, the CLAMP event and the
detector. -/
def SlotSt.core (x : SlotSt) : SlotSt :=
  { x with snapT := none, calm := 0, armed := false, oscHist := [], oscFirst := false, oscExt := 0 }

section
variable {d e : Dev} {n : Nat} {x : SlotSt} {l : List Nat}

theorem Dev.SlotRun.evalStored (h : d.SlotRun e n x l) (hl : ∀ k ∈ storedKeys n, k ∈ l) (v : EvalNums) :
    d.SlotRun (e.evalStored n v) n (x.evaluated (e.coefs n (e.fld (LOOP.SLOT_STATUS_CUR_SET n))) v.ev v.rq) l := by
  simp only [storedKeys, List.forall_mem_cons] at hl
  obtain ⟨hevals, hcommit, hout, hsp, herr, hlo, hhi, -⟩ := hl
  obtain rfl := h.slot
  have hcount := (h.setSlot ((e.slot n).evaluated (e.coefs n (e.fld (LOOP.SLOT_STATUS_CUR_SET n))) v.ev v.rq)).setReg hevals
  unfold Dev.evalStored
  refine (((((Dev.SlotRun.when ?_ ?_).setNum hout _).setNum hsp _).setNum herr _).setReg hlo _).setReg hhi _
  · exact hcount _
  · exact (hcount _).setReg hcommit _

theorem Dev.SlotRun.evalMarked (h : d.SlotRun e n x l) (hl : ∀ k ∈ statusKeys n, k ∈ l) (v : EvalNums) :
    d.SlotRun (e.evalMarked n v) n x l := by
  simp only [statusKeys, List.forall_mem_cons] at hl
  obtain ⟨hstatus, hcounts, -, -⟩ := hl
  have hsat := h.when (c := decide (v.ev.e ≠ v.eFull))
    (f := fun u => (u.setFld (LOOP.SLOT_STATUS_E_SAT n) 1).incFld (LOOP.SLOT_COUNTS_E_SATS n))
    ((h.setFld (f := LOOP.SLOT_STATUS_E_SAT n) hstatus 1).setFld (f := LOOP.SLOT_COUNTS_E_SATS n) hcounts _)
  exact hsat.when (f := fun u => u.setFld (LOOP.SLOT_STATUS_OVR_SEEN n) 1) (hsat.setFld (f := LOOP.SLOT_STATUS_OVR_SEEN n) hstatus 1)

theorem Dev.SlotRun.evalShown (h : d.SlotRun e n x l) (hl : LOOP.SLOT_STATUS n ∈ l) (v : EvalNums) :
    d.SlotRun (e.evalShown n v) n x l :=
  ((((h.setFld (f := LOOP.SLOT_STATUS_CLAMPED_LO n) hl _).setFld (f := LOOP.SLOT_STATUS_CLAMPED_HI n) hl _).setFld
    (f := LOOP.SLOT_STATUS_LOSING n) hl _).setFld (f := LOOP.SLOT_STATUS_OUT_LIM n) hl _).setFld (f := LOOP.SLOT_STATUS_SLEWING n) hl _

/-- A snapshot that does not wait takes nothing; one that waits takes the evaluation, or waits no longer (R159). -/
theorem Dev.SlotRun.snapEval (h : d.SlotRun e n x l) (hl : x.snapT = none ∨ ∀ k ∈ snapKeys n, k ∈ l) (t : Time) (u r : Int) :
    ∃ y, y.core = x.core ∧ d.SlotRun (e.snapEval n t u r) n y l := by
  obtain rfl := h.slot
  unfold Dev.snapEval
  split
  · exact ⟨_, by rfl, h⟩
  · rename_i z hz
    split
    · have hkeys := hl.resolve_left (by simp [hz])
      simp only [snapKeys, List.forall_mem_cons] at hkeys
      obtain ⟨hout, hsp, -⟩ := hkeys
      exact ⟨_, by rfl, (h.setNum hout _).setNum hsp _⟩
    · exact ⟨_, by rfl, h.setSlot _⟩

theorem Dev.SlotRun.clampEvent (h : d.SlotRun e n x l) (hl : ∀ k ∈ statusKeys n, k ∈ l) (c : Bool) :
    ∃ y, y.core = x.core ∧ d.SlotRun (e.clampEvent n c) n y l := by
  simp only [statusKeys, List.forall_mem_cons] at hl
  obtain ⟨hstatus, hcounts, -, -⟩ := hl
  obtain rfl := h.slot
  unfold Dev.clampEvent
  dsimp only
  split
  · exact ⟨_, by rfl, h.setSlot _⟩
  split
  · exact ⟨_, by rfl, h.setSlot _⟩
  · exact ⟨_, by rfl, (((h.setSlot _).raise _).setFld (f := LOOP.SLOT_STATUS_CLAMP_SEEN n) hstatus 1).setFld
      (f := LOOP.SLOT_COUNTS_CLAMPS n) hcounts _⟩

theorem Dev.SlotRun.oscReset (h : d.SlotRun e n x l) (hl : ∀ k ∈ statusKeys n, k ∈ l) :
    ∃ y, y.core = x.core ∧ d.SlotRun (e.oscReset n) n y l := by
  simp only [statusKeys, List.forall_mem_cons] at hl
  obtain ⟨-, -, hosc, -⟩ := hl
  obtain rfl := h.slot
  exact ⟨_, by rfl, (((h.setSlot _).setFld (f := LOOP.OSC_STATUS_SENSE n) hosc 0).setFld (f := LOOP.OSC_STATUS_ARMED n) hosc 1).setFld
    (f := LOOP.OSC_STATUS_RECENT n) hosc 0⟩

end

/-- A detector without an action is reset by every evaluation (R163). -/
theorem oscRun_off {d : Dev} {n : Nat} (h : d.fld (LOOP.OSC_CFG_ACTION n) = 0) (t : Time) (dErr u : Int) :
    d.oscRun n t dErr u = d.oscReset n :=
  if_pos h

/-! ### The words of an evaluation -/

/-- The words of the slot that every evaluation may write; those of a snapshot are apart. -/
def evalKeys (n : Nat) : List Nat := storedKeys n ++ statusKeys n

theorem slotKeys_range {n : Nat} (hn : n < 32) {k : Nat} (hk : k ∈ evalKeys n ++ snapKeys n) : 0x180000 ≤ k ∧ k < 0x1B0000 := by
  simp only [evalKeys, storedKeys, statusKeys, snapKeys, List.cons_append, List.nil_append, List.mem_cons,
    List.not_mem_nil, or_false, LOOP.SLOT_EVALS, LOOP.SLOT_COMMIT_EVAL, LOOP.SLOT_OUT, LOOP.SLOT_SP_NOW, LOOP.SLOT_ERR, LOOP.SLOT_STATE,
    LOOP.SLOT_STATUS, LOOP.SLOT_COUNTS, LOOP.OSC_STATUS, LOOP.SNAP_OUT, LOOP.SNAP_SP] at hk
  omega

/-- Where the output goes and what the detector does is none of them. -/
theorem cfgKeys_apart {n a : Nat} (ha : a = LOOP.OSC_CFG n ∨ a = LOOP.SLOT_OUT_CFG n) :
    a ∉ evalKeys n ++ snapKeys n := by
  intro hk
  simp only [evalKeys, storedKeys, statusKeys, snapKeys, List.cons_append, List.nil_append, List.mem_cons,
    List.not_mem_nil, or_false, LOOP.SLOT_EVALS, LOOP.SLOT_COMMIT_EVAL, LOOP.SLOT_OUT, LOOP.SLOT_SP_NOW, LOOP.SLOT_ERR, LOOP.SLOT_STATE,
    LOOP.SLOT_STATUS, LOOP.SLOT_COUNTS, LOOP.OSC_STATUS, LOOP.SNAP_OUT, LOOP.SNAP_SP] at hk
  simp only [LOOP.OSC_CFG, LOOP.SLOT_OUT_CFG] at ha
  omega

/-- The words that show an evaluation are not those of its flags, its counts, the detector and a snapshot. -/
theorem storedKeys_apart {n : Nat} (hn : n < 32) {k : Nat} (hk : k ∈ storedKeys n) : k ∉ statusKeys n ++ snapKeys n := by
  intro hmem
  simp only [storedKeys, statusKeys, snapKeys, List.cons_append, List.nil_append, List.mem_cons,
    List.not_mem_nil, or_false, LOOP.SLOT_EVALS, LOOP.SLOT_COMMIT_EVAL, LOOP.SLOT_OUT, LOOP.SLOT_SP_NOW, LOOP.SLOT_ERR, LOOP.SLOT_STATE,
    LOOP.SLOT_STATUS, LOOP.SLOT_COUNTS, LOOP.OSC_STATUS, LOOP.SNAP_OUT, LOOP.SNAP_SP] at hk hmem
  omega

/-- A snapshot's words are those of no flag and no value of an evaluation. -/
theorem snapKeys_apart {n : Nat} (hn : n < 32) {k : Nat} (hk : k ∈ snapKeys n) : k ∉ evalKeys n := by
  intro hmem
  simp only [evalKeys, storedKeys, statusKeys, snapKeys, List.cons_append, List.nil_append, List.mem_cons,
    List.not_mem_nil, or_false, LOOP.SLOT_EVALS, LOOP.SLOT_COMMIT_EVAL, LOOP.SLOT_OUT, LOOP.SLOT_SP_NOW, LOOP.SLOT_ERR, LOOP.SLOT_STATE,
    LOOP.SLOT_STATUS, LOOP.SLOT_COUNTS, LOOP.OSC_STATUS, LOOP.SNAP_OUT, LOOP.SNAP_SP] at hk hmem
  omega

/-- A detector without an action is reset after a snapshot and a CLAMP event. -/
theorem evalWatched_eq {d : Dev} {n : Nat} (hosc : d.fld (LOOP.OSC_CFG_ACTION n) = 0) (v : EvalNums) : d.evalWatched n v =
    ((d.snapEval n v.ev.t v.ev.u v.ev.r).clampEvent n (decide (v.y < v.lo) || decide (v.y > v.hi))).oscReset n := by
  obtain ⟨y, -, hsnapped⟩ := (Dev.SlotRun.refl d n (evalKeys n ++ snapKeys n)).snapEval (.inr fun _ => List.mem_append_right _) v.ev.t
    v.ev.u v.ev.r
  obtain ⟨z, -, hclamped⟩ := hsnapped.clampEvent (fun _ hk => List.mem_append_left _ (List.mem_append_right _ hk))
    (decide (v.y < v.lo) || decide (v.y > v.hi))
  exact oscRun_off ((hclamped.fld (f := LOOP.OSC_CFG_ACTION n) (cfgKeys_apart (.inl rfl))).trans hosc) _ _ _

/-- An evaluation counted and shown, flags, counts, snapshot and detector included (R142, R159, R163). -/
def Dev.evalDone (d : Dev) (n : Nat) (v : EvalNums) : Dev := (((d.evalStored n v).evalMarked n v).evalShown n v).evalWatched n v

theorem Dev.SlotRun.evalTail {d e : Dev} {n : Nat} {x : SlotSt} {l : List Nat} (h : d.SlotRun e n x l)
    (hl : ∀ k ∈ statusKeys n, k ∈ l) (hsnap : x.snapT = none ∨ ∀ k ∈ snapKeys n, k ∈ l)
    (hosc : e.fld (LOOP.OSC_CFG_ACTION n) = 0) (v : EvalNums) :
    ∃ y, y.core = x.core ∧ d.SlotRun (((e.evalMarked n v).evalShown n v).evalWatched n v) n y l := by
  have hkept := (((Dev.SlotRun.refl e n (evalKeys n)).evalMarked (fun _ => List.mem_append_right _) v).evalShown
    (List.mem_append_right _ List.mem_cons_self) v).fld (f := LOOP.OSC_CFG_ACTION n) fun hk => cfgKeys_apart (.inl rfl) (List.mem_append_left _ hk)
  rw [evalWatched_eq (hkept.trans hosc)]
  obtain ⟨y, hy, hsnapped⟩ := ((h.evalMarked hl v).evalShown (hl _ List.mem_cons_self) v).snapEval hsnap v.ev.t v.ev.u v.ev.r
  obtain ⟨z, hz, hclamped⟩ := hsnapped.clampEvent hl (decide (v.y < v.lo) || decide (v.y > v.hi))
  obtain ⟨w, hw, hreset⟩ := hclamped.oscReset hl
  exact ⟨w, hw.trans (hz.trans hy), hreset⟩

theorem Dev.SlotRun.evalDone {d e : Dev} {n : Nat} {x : SlotSt} {l : List Nat} (h : d.SlotRun e n x l)
    (hl : ∀ k ∈ evalKeys n, k ∈ l) (hsnap : x.snapT = none ∨ ∀ k ∈ snapKeys n, k ∈ l)
    (hosc : e.fld (LOOP.OSC_CFG_ACTION n) = 0) (v : EvalNums) :
    ∃ y, y.core = (x.evaluated (e.coefs n (e.fld (LOOP.SLOT_STATUS_CUR_SET n))) v.ev v.rq).core ∧
      d.SlotRun (e.evalDone n v) n y l :=
  have hkept := ((Dev.SlotRun.refl e n (evalKeys n)).evalStored (fun _ => List.mem_append_left _) v).fld (f := LOOP.OSC_CFG_ACTION n)
    fun hk => cfgKeys_apart (.inl rfl) (List.mem_append_left _ hk)
  (h.evalStored (fun k hk => hl k (List.mem_append_left _ hk)) v).evalTail (fun k hk => hl k (List.mem_append_right _ hk)) hsnap
    (hkept.trans hosc) v

/-! ### Reading the words of an evaluation -/

section
variable (d : Dev) (n : Nat) (v : EvalNums)

/-- The words that show an evaluation, after it. -/
theorem evalStored_regs : (d.evalStored n v).reg (LOOP.SLOT_EVALS n) = d.reg (LOOP.SLOT_EVALS n) + 1 ∧
    (d.evalStored n v).reg (LOOP.SLOT_OUT n) = BitVec.ofNat 32 (low 32 v.ev.u) ∧
    (d.evalStored n v).reg (LOOP.SLOT_SP_NOW n) = BitVec.ofNat 32 (low 24 v.ev.r) ∧
    (d.evalStored n v).reg (LOOP.SLOT_ERR n) = BitVec.ofNat 32 (low 32 v.ev.e) := by
  have hstate (e : Dev) (w : DWord) {k : Nat} (hk : k < LOOP.SLOT_STATE n) :
      (e.setReg64 (LOOP.SLOT_STATE n) w).reg k = e.reg k :=
    (Dev.reg_setReg_ne _ (by omega) _).trans (Dev.reg_setReg_ne _ (by omega) _)
  unfold Dev.evalStored
  dsimp only
  refine ⟨?_, ?_, ?_, ?_⟩
  · rw [hstate _ _ (by simp [LOOP.SLOT_EVALS, LOOP.SLOT_STATE])]
    refine (Dev.reg_setReg_ne _ (by simp [LOOP.SLOT_EVALS, LOOP.SLOT_ERR]) _).trans ?_
    refine (Dev.reg_setReg_ne _ (by simp [LOOP.SLOT_EVALS, LOOP.SLOT_SP_NOW]) _).trans ?_
    refine (Dev.reg_setReg_ne _ (by simp [LOOP.SLOT_EVALS, LOOP.SLOT_OUT]) _).trans ?_
    refine (Dev.reg_when _ fun e => Dev.reg_setReg_ne e (by simp [LOOP.SLOT_EVALS, LOOP.SLOT_COMMIT_EVAL]) _).trans ?_
    exact Dev.reg_setReg_self _ _ _
  · rw [hstate _ _ (by simp [LOOP.SLOT_OUT, LOOP.SLOT_STATE])]
    refine (Dev.reg_setReg_ne _ (by simp [LOOP.SLOT_OUT, LOOP.SLOT_ERR]) _).trans ?_
    refine (Dev.reg_setReg_ne _ (by simp [LOOP.SLOT_OUT, LOOP.SLOT_SP_NOW]) _).trans ?_
    exact Dev.reg_setReg_self _ _ _
  · rw [hstate _ _ (by simp [LOOP.SLOT_SP_NOW, LOOP.SLOT_STATE])]
    refine (Dev.reg_setReg_ne _ (by simp [LOOP.SLOT_SP_NOW, LOOP.SLOT_ERR]) _).trans ?_
    exact Dev.reg_setReg_self _ _ _
  · rw [hstate _ _ (by simp [LOOP.SLOT_ERR, LOOP.SLOT_STATE])]
    exact Dev.reg_setReg_self _ _ _

theorem oscReset_status {f : Fld} (hf : f.addr = LOOP.SLOT_STATUS n) : (d.oscReset n).fld f = d.fld f := by
  have hosc : f.addr ≠ LOOP.OSC_STATUS n := by
    rw [hf]
    simp only [LOOP.SLOT_STATUS, LOOP.OSC_STATUS]
    omega
  exact (Dev.fld_setReg_ne _ hosc _).trans ((Dev.fld_setReg_ne _ hosc _).trans (Dev.fld_setReg_ne _ hosc _))

/-- The CLAMP event writes one flag of SLOT_STATUS alone. -/
theorem clampEvent_status (c : Bool) {f : Fld} (hf : f.addr = LOOP.SLOT_STATUS n) (hhi : f.hi < 16) : (d.clampEvent n c).fld f = d.fld f := by
  have hcounts : f.addr ≠ LOOP.SLOT_COUNTS n := by
    rw [hf]
    simp [LOOP.SLOT_STATUS, LOOP.SLOT_COUNTS]
  unfold Dev.clampEvent
  dsimp only
  split
  · rfl
  split
  · rfl
  · exact (Dev.fld_setReg_ne _ hcounts _).trans (Dev.fld_setFld_ne _ (LOOP.SLOT_STATUS_CLAMP_SEEN n) f 1 (by decide : 16 ≤ 16) (by omega)
      (.inr (.inl hhi)))

/-- A snapshot's words hold no flag. -/
theorem snapEval_status (t : Time) (u r : Int) {f : Fld} (hf : f.addr = LOOP.SLOT_STATUS n) : (d.snapEval n t u r).fld f = d.fld f := by
  obtain ⟨y, -, hsnapped⟩ := (Dev.SlotRun.refl d n (snapKeys n)).snapEval (.inr fun _ hk => hk) t u r
  refine hsnapped.fld ?_
  rw [hf]
  simp only [snapKeys, List.mem_cons, List.not_mem_nil, or_false, LOOP.SNAP_OUT, LOOP.SNAP_SP, LOOP.SLOT_STATUS]
  omega

/-- The flags of SLOT_STATUS that show an evaluation stay as they are shown. -/
theorem evalWatched_status (hosc : d.fld (LOOP.OSC_CFG_ACTION n) = 0) {f : Fld} (hf : f.addr = LOOP.SLOT_STATUS n)
    (hhi : f.hi < 16) : (d.evalWatched n v).fld f = d.fld f := by
  rw [evalWatched_eq hosc, oscReset_status _ _ hf, clampEvent_status _ _ _ hf hhi, snapEval_status _ _ _ _ _ hf]

theorem evalShown_clamped : (d.evalShown n v).flag (LOOP.SLOT_STATUS_CLAMPED_LO n) = decide (v.y < v.lo) ∧
    (d.evalShown n v).flag (LOOP.SLOT_STATUS_CLAMPED_HI n) = decide (v.hi < v.y) := by
  unfold Dev.evalShown
  dsimp only
  have hkept (e : Dev) (a b c : Nat) {f : Fld} (hlo : f.hi < 8) : (((e.setFld (LOOP.SLOT_STATUS_LOSING n) a).setFld
      (LOOP.SLOT_STATUS_OUT_LIM n) b).setFld (LOOP.SLOT_STATUS_SLEWING n) c).flag f = e.flag f := by
    rw [Dev.flag_setFld_ne _ (LOOP.SLOT_STATUS_SLEWING n) f _ (by decide : 11 ≤ 11) (by omega) (.inr (.inl (by omega : f.hi < 11))),
      Dev.flag_setFld_ne _ (LOOP.SLOT_STATUS_OUT_LIM n) f _ (by decide : 8 ≤ 8) (by omega) (.inr (.inl (by omega : f.hi < 8))),
      Dev.flag_setFld_ne _ (LOOP.SLOT_STATUS_LOSING n) f _ (by decide : 9 ≤ 9) (by omega) (.inr (.inl (by omega : f.hi < 9)))]
  rw [hkept _ _ _ _ (by decide : 6 < 8), hkept _ _ _ _ (by decide : 7 < 8)]
  refine ⟨?_, ?_⟩
  · rw [Dev.flag_setFld_ne _ (LOOP.SLOT_STATUS_CLAMPED_HI n) (LOOP.SLOT_STATUS_CLAMPED_LO n) _ (by decide : 7 ≤ 7) (by decide : 6 < 32)
      (.inr (.inl (by decide : 6 < 7)))]
    exact Dev.flag_setFld_b2n _ _ _ (by decide : 6 ≤ 6) (by decide : 6 < 32)
  · exact Dev.flag_setFld_b2n _ _ _ (by decide : 7 ≤ 7) (by decide : 7 < 32)
end

/-! ### The controller of R139 -/

theorem spTarget_register {d : Dev} {n : Nat} (hsrc : d.fld (LOOP.SLOT_SP_CFG_SRC n) = 0) (t : Time) :
    d.spTarget n t = d.int24 (LOOP.SLOT_SP_TARGET n) := by
  simp only [Dev.spTarget, hsrc]

/-- Without slew rq is the target at once (R150). -/
theorem nextRq_target {d : Dev} {n : Nat} (hfirst : (d.slot n).first = false) (hslew : d.fld (LOOP.SLOT_SP_SLEW_SLEW n) = 0) (t : Time)
    (x tgt : Int) : d.nextRq n t x tgt = tgt := by
  simp [Dev.nextRq, hfirst, hslew]

theorem shrFloor_mul (i : Int) : shrFloor (i * 256) 8 = i := Int.mul_ediv_cancel i (by decide)

/-- The error of an evaluation of sample word `w` (R139). -/
def Dev.slotErr (d : Dev) (n : Nat) (w : Half) : Int :=
  pidErr (d.fld (LOOP.SLOT_CFG_SHIFT n)) (d.int24 (LOOP.SLOT_SP_TARGET n)) (codeOf w * 256)

/-- Its y (R139). -/
def Dev.slotY (d : Dev) (n : Nat) (w : Half) : Int :=
  pidY ((d.coefs n (d.fld (LOOP.SLOT_STATUS_CUR_SET n))).headD 0) (d.slotErr n w) (d.slot n).p

/-- y between the limits of the integral, of which the lower one prevails (R139). -/
def Dev.slotClamp (d : Dev) (n : Nat) (y : Int) : Int :=
  max (d.int (LOOP.SLOT_INT_LO n) * 4096) (min y (d.int (LOOP.SLOT_INT_HI n) * 4096))

/-- The evaluation whose y before its limits is `y`. -/
def Dev.evalOf (d : Dev) (n : Nat) (t : Time) (w : Half) (y : Int) : Eval where
  t := t
  u := pidU (d.slotClamp n y) (d.int (LOOP.SLOT_OUT_LO n)) (d.int (LOOP.SLOT_OUT_HI n))
  r := d.int24 (LOOP.SLOT_SP_TARGET n)
  e := d.slotErr n w
  yc := d.slotClamp n y

/-- A slot whose set-point is the register without slew, whose input is not inverted, and which has no target. -/
structure Dev.PlainSlot (d : Dev) (n : Nat) : Prop where
  input : d.flag (LOOP.SLOT_CFG_INV n) = false
  source : d.fld (LOOP.SLOT_SP_CFG_SRC n) = 0
  slew : d.fld (LOOP.SLOT_SP_SLEW_SLEW n) = 0
  first : (d.slot n).first = false
  target : d.fld (LOOP.SLOT_OUT_CFG_TARGET n) = 0

/-- The numbers of an evaluation of a plain slot are those of R139. -/
theorem evalNums_plain {d : Dev} {n : Nat} (h : d.PlainSlot n) (t : Time) (w : Half) :
    (d.evalNums d n t w).ev = d.evalOf n t w (if d.slotMode n = 3 then d.int (LOOP.SLOT_MAN n) * 4096 else d.slotY n w) ∧
    (d.evalNums d n t w).y = d.slotY n w ∧ (d.evalNums d n t w).lo = d.int (LOOP.SLOT_INT_LO n) * 4096 ∧
    (d.evalNums d n t w).hi = d.int (LOOP.SLOT_INT_HI n) * 4096 := by
  obtain ⟨hinput, hsource, hslew, hfirst, htarget⟩ := h
  have hfree : ¬ d.fld (LOOP.SLOT_OUT_CFG_TARGET n) = 4 := by omega
  have hinv : ¬ d.flag (LOOP.SLOT_CFG_INV n) = true := ne_true_of_eq_false hinput
  have herr (i : Int) : satI 32 ((i - codeOf w * 256) * (2 ^ d.fld (LOOP.SLOT_CFG_SHIFT n) : Nat))
      = pidErr (d.fld (LOOP.SLOT_CFG_SHIFT n)) i (codeOf w * 256) := rfl
  have hy (b e p : Int) : satI 48 (shrFloor (b * e * 4096 + p + 2 ^ 27) 28) = pidY b e p := rfl
  have hu (yc lo hi : Int) : clampLo (satI 32 (shrFloor (yc + 2048) 12)) lo hi = pidU yc lo hi := rfl
  refine ⟨?_, ?_, rfl, rfl⟩
  · simp only [Dev.evalNums, if_neg hfree, if_neg hinv, spTarget_register hsource, nextRq_target hfirst hslew, shrFloor_mul, herr, hy, hu,
      Dev.evalOf, Dev.slotClamp, Dev.slotY, Dev.slotErr, Eval.mk.injEq, true_and]
    by_cases hman : d.slotMode n = 3
    · simp only [if_pos hman]
      exact ⟨rfl, rfl⟩
    · simp only [if_neg hman]
      exact ⟨rfl, rfl⟩
  · simp only [Dev.evalNums, if_neg hinv, spTarget_register hsource, nextRq_target hfirst hslew, shrFloor_mul, herr, hy, Dev.slotY,
      Dev.slotErr]

/-! ### Numbers kept in words -/

/-- A number of 32 bits reads back from a word. -/
theorem toInt_low {i : Int} (hlo : -2 ^ 31 ≤ i) (hhi : i < 2 ^ 31) : (BitVec.ofNat 32 (low 32 i)).toInt = i := by
  have hword : BitVec.ofNat 32 (low 32 i) = BitVec.ofInt 32 i :=
    BitVec.eq_of_toNat_eq (by rw [BitVec.toNat_ofNat, BitVec.toNat_ofInt, low, Nat.mod_eq_of_lt (by omega)])
  rw [hword, BitVec.toInt_ofInt]
  exact Int.bmod_eq_of_le (by omega) (by omega)

/-- A number of 24 bits reads back from the low bits of a word. -/
theorem sext_low {i : Int} (hlo : -2 ^ 23 ≤ i) (hhi : i < 2 ^ 23) : sext 24 (BitVec.ofNat 32 (low 24 i)).toNat = i := by
  simp only [sext, low, BitVec.toNat_ofNat]
  norm_num
  split <;> omega

theorem sext_range (n : Nat) : -2 ^ 23 ≤ sext 24 n ∧ sext 24 n < 2 ^ 23 := by
  simp only [sext]
  norm_num
  split <;> omega

theorem satI_range (i : Int) : -2 ^ 31 ≤ satI 32 i ∧ satI 32 i < 2 ^ 31 := by
  simp only [satI, clampI]
  norm_num
  split
  · omega
  split <;> omega

/-- The output lies within its limits, or is the lower one: a number of 32 bits. -/
theorem pidU_range (yc : Int) (lo hi : Word) : -2 ^ 31 ≤ pidU yc lo.toInt hi.toInt ∧ pidU yc lo.toInt hi.toInt < 2 ^ 31 := by
  have hsat := satI_range ((yc + 2048) / 4096)
  have hlo := lo.toInt_lt
  have hle := lo.le_toInt
  have hhi := hi.toInt_lt
  have hhe := hi.le_toInt
  simp only [pidU]
  omega

/-! ### An evaluation without target, traces and detour -/

theorem slotOutput_none {d cfg : Dev} {n : Nat} (htarget : cfg.fld (LOOP.SLOT_OUT_CFG_TARGET n) = 0) (t : Time) (u : Int) :
    d.slotOutput cfg n t u = d := by
  rw [Dev.slotOutput, htarget]
  rfl

/-- Trace units that do not run note no cadence instant. -/
theorem cadence_idle {d : Dev} (h : ∀ u : Fin 4, d.trcState u.val = 0) (kind index : Nat) (t : Time) : d.cadence kind index t = d := by
  refine each_same fun u hu => if_neg ?_
  have hstate : d.fld (LOOP.TRC_STATUS_STATE u) = 0 := h ⟨u, List.mem_range.mp hu⟩
  rintro ⟨-, hruns, -⟩
  omega

theorem evalTraced_idle {d : Dev} (h : ∀ u : Fin 4, d.trcState u.val = 0) (n : Nat) (t : Time) : d.evalTraced n t = d := by
  rw [Dev.evalTraced, cadence_idle h, cadence_idle h, cadence_idle h, cadence_idle h]

theorem slotOld_settled {d : Dev} {n : Nat} (hdefer : (d.slot n).defer = none) : d.slotOld n = d := by
  rw [Dev.slotOld, hdefer]

theorem slotView_settled {d : Dev} {n : Nat} (hdefer : (d.slot n).defer = none) (t : Time) : d.slotView n t = d := by
  rw [Dev.slotView, hdefer]

theorem slotDue_settled {d : Dev} {n : Nat} (hdefer : (d.slot n).defer = none) : d.slotDue n = d := by
  rw [Dev.slotDue, hdefer]

theorem detourDelivered_none {d : Dev} (hdet : d.sliceDet = none) (n : Nat) : d.detourDelivered n = d := by
  rw [Dev.detourDelivered, hdet]

/-- A slot that delivers to no group holds up none. -/
theorem runGroupsOf_none {d : Dev} {n : Nat} (htarget : d.fld (LOOP.SLOT_OUT_CFG_TARGET n) = 0) (hdefer : (d.slot n).defer = none) :
    d.runGroupsOf [n] = d := by
  have hmember (g : Nat) : d.memberOf g n = false := by simp [Dev.memberOf, htarget]
  refine each_same fun g _ => Dev.when_of_false _ ?_ _
  simp [slotOld_settled hdefer, hmember]

/-- Where no code of memory is in error the coefficients are good (R367). -/
theorem coefsOk_clean {d : Dev} (hecc : d.ecc = []) (n : Nat) : d.coefsOk n = (true, d) := by
  have hread (a k : Nat) : ∃ bs, d.readMem 6 loopAgent a k = (true, bs, d) := by
    unfold Dev.readMem
    split
    · exact ⟨_, rfl⟩
    · exact ⟨_, if_pos (by rw [hecc]; rfl)⟩
  obtain ⟨bs, hbs⟩ := hread (coefAddr n (d.fld (LOOP.SLOT_STATUS_CUR_SET n)) 0) 36
  rw [Dev.coefsOk, hbs]

/-- A slot that runs and is plain, with nothing around it that an evaluation would touch: no detour, no waiting commit, no detector, no
trace unit, and no error in memory. -/
structure Dev.QuietSlot (d : Dev) (n : Nat) : Prop where
  plain : d.PlainSlot n
  settled : (d.slot n).defer = none
  home : d.sliceDet = none
  clean : d.ecc = []
  detector : d.fld (LOOP.OSC_CFG_ACTION n) = 0
  traces : ∀ u : Fin 4, d.trcState u.val = 0

theorem Dev.QuietSlot.sampleTaken {d : Dev} {n : Nat} (h : d.QuietSlot n) (rest : List (Time × Half)) :
    (d.sampleTaken n rest).QuietSlot n := by
  obtain ⟨⟨hinput, hsource, hslew, hfirst, htarget⟩, hdefer, hhome, hclean, hosc, htrc⟩ := h
  have hslot : (d.sampleTaken n rest).slot n = { d.slot n with queue := rest } := slot_setSlot_self d n _
  exact ⟨⟨hinput, hsource, hslew, by rw [hslot]; exact hfirst, htarget⟩, by rw [hslot]; exact hdefer, hhome, hclean, hosc, htrc⟩

/-- A quiet slot's evaluation does no more than count and show its numbers. -/
theorem evalSample_quiet {d : Dev} {n : Nat} (hn : n < 32) (h : d.QuietSlot n) (t : Time) (w : Half) :
    ((d.evalSample n true t w).slotDue n).runGroupsOf [n] = d.evalDone n (d.evalNums d n t w) := by
  obtain ⟨y, hy, hdone⟩ := (Dev.SlotRun.refl d n (evalKeys n ++ snapKeys n)).evalDone (fun _ => List.mem_append_left _)
    (.inr fun _ => List.mem_append_right _) h.detector (d.evalNums d n t w)
  have htraces (u : Fin 4) : (d.evalDone n (d.evalNums d n t w)).trcState u.val = 0 := by
    refine (hdone.fld (f := LOOP.TRC_STATUS_STATE u) fun hk => ?_).trans (h.traces u)
    have hrange := (slotKeys_range hn hk).2
    simp only [LOOP.TRC_STATUS_STATE, LOOP.TRC_STATUS] at hrange
    omega
  have heval : d.evaluate d n t w = d.evalDone n (d.evalNums d n t w) := by
    rw [evaluate_eq, slotOutput_none h.plain.target]
    exact evalTraced_idle htraces n t
  have hdefer : ((d.evalDone n (d.evalNums d n t w)).slot n).defer = none := by
    rw [hdone.slot]
    exact (congrArg SlotSt.defer hy).trans h.settled
  have hsample : d.evalSample n true t w = d.evalDone n (d.evalNums d n t w) := by
    simp only [Dev.evalSample, coefsOk_clean h.clean, slotView_settled h.settled, heval, Bool.not_true, Bool.false_eq_true, if_false]
    exact detourDelivered_none (hdone.sliceDet.trans h.home) n
  rw [hsample, slotDue_settled hdefer]
  exact runGroupsOf_none ((hdone.fld (f := LOOP.SLOT_OUT_CFG_TARGET n) (cfgKeys_apart (.inr rfl))).trans h.plain.target) hdefer

/-- A quiet slot that runs evaluates its oldest sample. -/
theorem slotEval_quiet {d : Dev} {n : Nat} (hn : n < 32) (h : d.QuietSlot n) {t : Time} {w : Half} {rest : List (Time × Half)}
    (hqueue : (d.slot n).queue = (t, w) :: rest) (hrun : d.slotRun n = 1 ∨ d.slotRun n = 3) : d.slotEval n true =
      (d.sampleTaken n rest).evalDone n ((d.sampleTaken n rest).evalNums (d.sampleTaken n rest) n t w) := by
  rw [slotEval_eq hqueue h.settled h.home, if_neg (by omega)]
  exact evalSample_quiet hn (h.sampleTaken rest) t w

/-! ### An evaluation at the end of its command -/

/-- From `d` to `e` slot `n` took its oldest sample, leaving `rest`, and made the evaluation `v`: it stands in the histories and the
words of the slot, and nothing else changed. -/
def Dev.EvalMade (d e : Dev) (n : Nat) (rest : List (Time × Half)) (v : Eval) : Prop :=
  (e.slot n).evs.head? = some v ∧
  ((e.slot n).e1 = v.e ∧ (e.slot n).e2 = (d.slot n).e1 ∧ (e.slot n).e3 = (d.slot n).e2 ∧ (e.slot n).e4 = (d.slot n).e3) ∧
  ((e.slot n).y1 = v.yc ∧ (e.slot n).y2 = (d.slot n).y1 ∧ (e.slot n).y3 = (d.slot n).y2 ∧ (e.slot n).y4 = (d.slot n).y3) ∧
  (e.slot n).p = (e.slot n).partialOf (d.coefs n (d.fld (LOOP.SLOT_STATUS_CUR_SET n))) ∧
  (e.slot n).queue = rest ∧ (e.slot n).tPrev = v.t ∧ e.int (LOOP.SLOT_OUT n) = v.u ∧
  e.reg (LOOP.SLOT_EVALS n) = d.reg (LOOP.SLOT_EVALS n) + 1 ∧ e.int24 (LOOP.SLOT_SP_NOW n) = v.r ∧ e.int (LOOP.SLOT_ERR n) = v.e ∧
  Tab.keeps {} [n] d.slots e.slots ∧ d.keepsRegs e (evalKeys n ++ snapKeys n) ∧
  ((d.slot n).snapT = none → e.reg (LOOP.SNAP_OUT n) = d.reg (LOOP.SNAP_OUT n) ∧ e.reg (LOOP.SNAP_SP n) = d.reg (LOOP.SNAP_SP n)) ∧
  { d with slots := e.slots }.keepsUnits e ∧ d.noRecord e

theorem settle_evalDone {d : Dev} {n : Nat} (hn : n < 32) (rest : List (Time × Half)) (v : EvalNums)
    (hosc : d.fld (LOOP.OSC_CFG_ACTION n) = 0) (hu : -2 ^ 31 ≤ v.ev.u ∧ v.ev.u < 2 ^ 31) (he : -2 ^ 31 ≤ v.ev.e ∧ v.ev.e < 2 ^ 31)
    (hr : -2 ^ 23 ≤ v.ev.r ∧ v.ev.r < 2 ^ 23) : d.EvalMade (settle ((d.begun.sampleTaken n rest).evalDone n v)) n rest v.ev := by
  have hblock {k : Nat} (hk : k ∈ evalKeys n ++ snapKeys n) : k / 0x10000 ≠ 0x01 ∧ k / 0x10000 ≠ 0x07 := by
    have hrange := slotKeys_range hn hk
    omega
  have htaken (l : List Nat) : d.SlotRun (d.begun.sampleTaken n rest) n { d.slot n with queue := rest } l :=
    (Dev.SlotRun.begun d n l).setSlot _
  obtain ⟨y, hy, hdone⟩ := (htaken (evalKeys n ++ snapKeys n)).evalDone (fun _ => List.mem_append_left _)
    (.inr fun _ => List.mem_append_right _) hosc v
  have hsnap (hfree : (d.slot n).snapT = none) {k : Nat} (hk : k ∈ snapKeys n) :
      (settle ((d.begun.sampleTaken n rest).evalDone n v)).reg k = d.reg k := by
    obtain ⟨hb1, hb7⟩ := hblock (List.mem_append_right _ hk)
    obtain ⟨z, -, hquiet⟩ := (htaken (evalKeys n)).evalDone (fun _ hk => hk) (.inl hfree) hosc v
    exact (settle_reg _ _ hb1 hb7).trans (hquiet.reg (snapKeys_apart hn hk))
  have hstored {k : Nat} (hk : k ∈ storedKeys n) : (settle ((d.begun.sampleTaken n rest).evalDone n v)).reg k
      = ((d.begun.sampleTaken n rest).evalStored n v).reg k := by
    obtain ⟨hb1, hb7⟩ := hblock (List.mem_append_left _ (List.mem_append_left _ hk))
    have hcfg := ((htaken (evalKeys n)).evalStored (fun _ => List.mem_append_left _) v).fld (f := LOOP.OSC_CFG_ACTION n)
      fun hmem => cfgKeys_apart (.inl rfl) (List.mem_append_left _ hmem)
    obtain ⟨z, -, htail⟩ := (Dev.SlotRun.refl ((d.begun.sampleTaken n rest).evalStored n v) n (statusKeys n ++ snapKeys n)).evalTail
      (fun _ => List.mem_append_left _) (.inr fun _ => List.mem_append_right _) (hcfg.trans hosc) v
    exact (settle_reg _ _ hb1 hb7).trans (htail.reg (storedKeys_apart hn hk))
  obtain ⟨hevals, hout, hsp, herr⟩ := evalStored_regs (d.begun.sampleTaken n rest) n v
  obtain ⟨hslot, hothers, hregs, hunits, hrec⟩ := hdone.settle fun k hk => (hblock hk).1
  have hcore {α : Type} (f : SlotSt → α) := congrArg f hy
  have hcoefs : (d.begun.sampleTaken n rest).coefs n ((d.begun.sampleTaken n rest).fld (LOOP.SLOT_STATUS_CUR_SET n))
      = d.coefs n (d.fld (LOOP.SLOT_STATUS_CUR_SET n)) := rfl
  have hpartial : y.p = y.partialOf (d.coefs n (d.fld (LOOP.SLOT_STATUS_CUR_SET n))) := by
    rw [hcoefs] at hcore
    exact (hcore SlotSt.p).trans (hcore fun x => x.partialOf (d.coefs n (d.fld (LOOP.SLOT_STATUS_CUR_SET n)))).symm
  unfold Dev.EvalMade
  rw [hslot]
  refine ⟨congrArg List.head? (hcore SlotSt.evs), ⟨hcore SlotSt.e1, hcore SlotSt.e2, hcore SlotSt.e3, hcore SlotSt.e4⟩,
    ⟨hcore SlotSt.y1, hcore SlotSt.y2, hcore SlotSt.y3, hcore SlotSt.y4⟩, hpartial, hcore SlotSt.queue, hcore SlotSt.tPrev, ?_, ?_, ?_, ?_,
    hothers, hregs, fun hfree => ⟨hsnap hfree (by simp [snapKeys]), hsnap hfree (by simp [snapKeys])⟩, hunits, hrec⟩
  · rw [Dev.int, hstored (by simp [storedKeys]), hout]
    exact toInt_low hu.1 hu.2
  · rw [hstored (by simp [storedKeys]), hevals]
    rfl
  · rw [Dev.int24, Dev.num, hstored (by simp [storedKeys]), hsp]
    exact sext_low hr.1 hr.2
  · rw [Dev.int, hstored (by simp [storedKeys]), herr]
    exact toInt_low he.1 he.2

/-- The clamp flags of an evaluation at the end of its command. -/
theorem settle_clamped {d : Dev} {n : Nat} (hn : n < 32) (rest : List (Time × Half)) (v : EvalNums)
    (hosc : d.fld (LOOP.OSC_CFG_ACTION n) = 0) :
    (settle ((d.begun.sampleTaken n rest).evalDone n v)).flag (LOOP.SLOT_STATUS_CLAMPED_HI n) = decide (v.hi < v.y) ∧
    (settle ((d.begun.sampleTaken n rest).evalDone n v)).flag (LOOP.SLOT_STATUS_CLAMPED_LO n) = decide (v.y < v.lo) := by
  have hshown := ((((Dev.SlotRun.begun d n (evalKeys n)).setSlot { d.slot n with queue := rest }).evalStored
    (fun _ => List.mem_append_left _) v).evalMarked
    (fun _ => List.mem_append_right _) v).evalShown (List.mem_append_right _ List.mem_cons_self) v
  have hcfg := (hshown.fld (f := LOOP.OSC_CFG_ACTION n) fun hmem => cfgKeys_apart (.inl rfl) (List.mem_append_left _ hmem)).trans hosc
  have hkept {f : Fld} (hf : f.addr = LOOP.SLOT_STATUS n) (hhi : f.hi < 16) :
      (settle ((d.begun.sampleTaken n rest).evalDone n v)).flag f
        = ((((d.begun.sampleTaken n rest).evalStored n v).evalMarked n v).evalShown n v).flag f := by
    have hrange := slotKeys_range hn (List.mem_append_left _ (List.mem_append_right (storedKeys n) (List.mem_cons_self (l := _))))
    rw [settle_flag _ _ (by omega) (by omega), Dev.flag, Dev.flag]
    exact congrArg (· != 0) (evalWatched_status _ _ _ hcfg hf hhi)
  obtain ⟨hlo, hhi⟩ := evalShown_clamped (((d.begun.sampleTaken n rest).evalStored n v).evalMarked n v) n v
  exact ⟨(hkept rfl (by decide : 7 < 16)).trans hhi, (hkept rfl (by decide : 6 < 16)).trans hlo⟩

/-! ### SLOT_EVALUATION (R138 to R142) -/

theorem Dev.QuietSlot.begun {d : Dev} {n : Nat} (h : d.QuietSlot n) : d.begun.QuietSlot n := by
  obtain ⟨⟨hinput, hsource, hslew, hfirst, htarget⟩, hdefer, hhome, hclean, hosc, htrc⟩ := h
  exact ⟨⟨hinput, hsource, hslew, hfirst, htarget⟩, hdefer, hhome, hclean, hosc, htrc⟩

/-- The numbers of the oldest sample, taken from its slot, are those of the slot before it was taken. -/
theorem evalNums_taken {d : Dev} {n : Nat} (h : d.QuietSlot n) (rest : List (Time × Half)) (t : Time) (w : Half) :
    let v := (d.begun.sampleTaken n rest).evalNums (d.begun.sampleTaken n rest) n t w
    v.ev = d.evalOf n t w (if d.slotMode n = 3 then d.int (LOOP.SLOT_MAN n) * 4096 else d.slotY n w) ∧
    v.y = d.slotY n w ∧ v.lo = d.int (LOOP.SLOT_INT_LO n) * 4096 ∧ v.hi = d.int (LOOP.SLOT_INT_HI n) * 4096 := by
  have hslot : (d.begun.sampleTaken n rest).slot n = { d.slot n with queue := rest } := slot_setSlot_self d.begun n _
  have hp : ((d.begun.sampleTaken n rest).slot n).p = (d.slot n).p := by rw [hslot]
  have hy : (d.begun.sampleTaken n rest).slotY n w = d.slotY n w := by
    rw [Dev.slotY, Dev.slotY, hp]
    rfl
  obtain ⟨hev, hvy, hlo, hhi⟩ := evalNums_plain (h.begun.sampleTaken rest).plain t w
  rw [hy] at hev hvy
  exact ⟨hev, hvy, hlo, hhi⟩

/-- A slot that runs makes the evaluation of its oldest sample. -/
theorem does_slotEvaluation {s : State} {n : Fin 32} {t : Time} {w : Half} {rest : List (Time × Half)} (h : s.dev.QuietSlot n)
    (hqueue : (s.dev.slot n).queue = (t, w) :: rest) (hrun : s.dev.slotRun n = 1 ∨ s.dev.slotRun n = 3) {y : Int}
    (hy : (if s.dev.slotMode n = 3 then s.dev.int (LOOP.SLOT_MAN n) * 4096 else s.dev.slotY n w) = y) :
    Does (.slotEvaluation n true) s fun d => s.dev.EvalMade d n rest (s.dev.evalOf n t w y) ∧
      d.flag (LOOP.SLOT_STATUS_CLAMPED_HI n) = decide (s.dev.int (LOOP.SLOT_INT_HI n) * 4096 < s.dev.slotY n w) ∧
      d.flag (LOOP.SLOT_STATUS_CLAMPED_LO n) = decide (s.dev.slotY n w < s.dev.int (LOOP.SLOT_INT_LO n) * 4096) := by
  obtain ⟨hev, hvy, hlo, hhi⟩ := evalNums_taken h rest t w
  rw [hy] at hev
  have hmade := settle_evalDone n.isLt rest
    ((s.dev.begun.sampleTaken n rest).evalNums (s.dev.begun.sampleTaken n rest) n t w) h.detector
    (by rw [hev]; exact pidU_range _ _ _) (by rw [hev]; exact satI_range _) (by rw [hev]; exact sext_range _)
  have hclamped := settle_clamped n.isLt rest
    ((s.dev.begun.sampleTaken n rest).evalNums (s.dev.begun.sampleTaken n rest) n t w) h.detector
  rw [hvy, hlo, hhi] at hclamped
  rw [hev] at hmade
  exact does_of_effect (exec_slotEvaluation n true h.home) (slotEval_quiet n.isLt h.begun hqueue hrun) ⟨hmade, hclamped⟩

/-- Settles O18: the oldest sample of a running slot is evaluated by the controller of R139, in MANUAL with SLOT_MAN in the place of y,
and that of a slot that is not running is taken and dropped. -/
theorem slotEvaluations : Obligations.SlotEvaluations := by
  unfold Obligations.SlotEvaluations
  intro s
  refine ⟨?running, ?manual, ?stopped⟩
  case running =>
    intro n t w rest hqueue hdefer hdet hrun hmode hecc hinput hsource hslew hfirst htarget hosc htrc
    obtain ⟨s', hs, hpending, hmade, hhi, hlo⟩ := does_slotEvaluation
      ⟨⟨hinput, hsource, hslew, hfirst, htarget⟩, hdefer, hdet, hecc, hosc, htrc⟩ hqueue (.inl hrun) (if_neg hmode)
    obtain ⟨hevs, he, hy, hp, hrest, hprev, hout, hevals, hsp, herr, hothers, hregs, hsnap, hunits, hrec⟩ := hmade
    exact ⟨s', hs, hpending, hevs, he, hy, hp, hrest, hprev, hout, hevals, hsp, herr, hothers, hregs, hsnap, hunits, hrec, hhi, hlo⟩
  case manual =>
    intro n t w rest hqueue hdefer hdet hrun hmode hecc hinput hsource hslew hfirst htarget hosc htrc
    obtain ⟨s', hs, hpending, hmade, -⟩ := does_slotEvaluation
      ⟨⟨hinput, hsource, hslew, hfirst, htarget⟩, hdefer, hdet, hecc, hosc, htrc⟩ hqueue (.inr hrun) (if_pos hmode)
    exact ⟨s', hs, hpending, hmade⟩
  case stopped =>
    intro n g t w rest hqueue hdefer hdet hrun
    have hstopped : s.dev.begun.slotEval n g = s.dev.begun.sampleTaken n rest := by
      rw [slotEval_eq (d := s.dev.begun) hqueue hdefer hdet]
      have hidle : ¬ (s.dev.slotRun n = 1 ∨ s.dev.slotRun n = 3) := by omega
      exact if_pos (not_or.mp hidle)
    obtain ⟨hslot, hothers, hregs, hunits, hrec⟩ := ((Dev.SlotRun.begun s.dev n []).setSlot
      { s.dev.slot n with queue := rest }).settle (by simp)
    exact does_of_effect (exec_slotEvaluation n g hdet) hstopped ⟨hslot, hothers, hregs, hunits, hrec⟩

end Sys2Proof.Machine

/-! ## Loop supervision (spec/07): the trace units and the duplex slices -/

namespace Sys2Proof.Machine

/-! ### Refutation of O21 (R57, R172, R173) -/

/-- The Ledger drains to a ring that lies over the trace RAM, its buffer holds one record to be entered and has no room left, and trace
unit 0, ARMED, has one instant due. -/
def overlaidTrace : Dev :=
  { (((((({} : Dev).setFld LEDGER.LG_CTRL_TARGET 1).setFld LEDGER.LG_STATUS_OCC 4096).setNum LEDGER.LG_NEXT_SEQ 4096).setReg64
      LEDGER.LG_RING_BASE 0x30100000).setFld (LOOP.TRC_CFG_MODE 0) 1).setNum (LOOP.TRC_STATUS 0) 1 with
    led := { chip := [oldestRecord], fresh := [oldestRecord] }
    traces := [(0, { due := [nsT 1] })] }

/-- The place of the trace record holds the Ledger's oldest record at the end of the command. -/
theorem traceRecord_overlaidTrace {t : State} (ht : exec (.traceRecord 0) { dev := overlaidTrace } = .next t) :
    t.dev.bytes 0x30100000 16 = oldestRecord.bytes.take 16 := by
  obtain rfl := Host.Outcome.next.inj ht
  decide +kernel

/-- Refutes O21 in its clause of a TRACE_RECORD of an ARMED unit, which says that the trace RAM holds the record at the end of the
command. Where a Ledger record waits to be entered while the buffer is full and the Ledger drains to DRAM, the command enters it and so
moves the oldest record to its place in the ring (R57), which here is the trace record's own place in the RAM (R173). No command leaves a
record waiting, but the clause does not exclude it; its last part, on the other bytes, does ask whether the Ledger drains to DRAM. -/
theorem not_traceUnits : ¬ Obligations.TraceUnits := by
  unfold Obligations.TraceUnits
  intro h
  obtain ⟨-, -, -, harmed, -⟩ := h { dev := overlaidTrace }
  obtain ⟨t, ht, -, hstored, -⟩ := harmed 0 (nsT 1) [] 0 0 0 (by decide +kernel) (by decide +kernel) (by decide +kernel)
    (by decide +kernel) (by decide +kernel) (by decide +kernel) (by decide +kernel)
  have hwptr : overlaidTrace.fld (LOOP.TRC_STATUS_WPTR (0 : Fin 4).val) = 0 := by decide +kernel
  rw [hwptr] at hstored
  exact absurd ((traceRecord_overlaidTrace ht).symm.trans hstored) (by decide)

/-! ### What a step of the slices leaves (R166 to R171) -/

/-- From `d` to `e` no slot changed but those in `ns`, and no register word but those at the keys in `l`; the events `ids` and the
records `rs` were made. The other units are those of `d₀`, whose registers are those of `d`. -/
structure Dev.LoopRun (d d₀ e : Dev) (ns l ids : List Nat) (rs : List Record) : Prop where
  makes : d.Makes e l ids rs
  slots : Tab.keeps {} ns d.slots e.slots
  units : { d₀ with slots := e.slots }.keepsUnits e
  base : d₀.regs = d.regs
  now : e.now = d.now

theorem lowKeys_of_all {l : List Nat} (h : l.all (fun k => decide (0x30000 ≤ k ∧ k < 0x200000)) = true) : lowKeys l := by
  simpa [lowKeys, List.all_eq_true] using h

theorem settle_sliceDet (d : Dev) : (settle d).sliceDet = d.sliceDet := by
  have h := congrArg Dev.sliceDet (settles d).units
  exact h

theorem settle_sliceRet (d : Dev) : (settle d).sliceRet = d.sliceRet := by
  have h := congrArg Dev.sliceRet (settles d).units
  exact h

theorem settle_spareTestT (d : Dev) : (settle d).spareTestT = d.spareTestT := by
  have h := congrArg Dev.spareTestT (settles d).units
  exact h

namespace Dev.LoopRun

variable {d d₀ e : Dev} {ns l ids : List Nat} {rs : List Record}

theorem refl (d : Dev) (ns l : List Nat) : d.LoopRun d d ns l [] [] :=
  ⟨⟨fun _ _ => rfl, (List.append_nil _).symm, (List.append_nil _).symm, rfl⟩, fun _ _ => rfl, ⟨rfl, fun _ => rfl⟩, rfl, rfl⟩

theorem begun (d : Dev) (ns l : List Nat) : d.LoopRun d d.begun ns l [] [] :=
  ⟨⟨fun _ _ => rfl, (List.append_nil _).symm, (List.append_nil _).symm, rfl⟩, fun _ _ => rfl, ⟨rfl, fun _ => rfl⟩, rfl, rfl⟩

theorem reg (h : d.LoopRun d₀ e ns l ids rs) {k : Nat} (hk : k ∉ l) : e.reg k = d.reg k := h.makes.regs k hk

theorem fld (h : d.LoopRun d₀ e ns l ids rs) {f : Fld} (hf : f.addr ∉ l) : e.fld f = d.fld f := Dev.fld_of_reg (h.reg hf)

theorem slot (h : d.LoopRun d₀ e ns l ids rs) {n : Nat} (hn : n ∉ ns) : e.slot n = d.slot n := h.slots n hn

theorem groups (h : d.LoopRun d₀ e ns l ids rs) : e.groups = d₀.groups := by
  have hgroups := congrArg Dev.groups h.units.1
  exact hgroups

theorem sliceDet (h : d.LoopRun d₀ e ns l ids rs) : e.sliceDet = d₀.sliceDet := by
  have hdet := congrArg Dev.sliceDet h.units.1
  exact hdet

theorem faults (h : d.LoopRun d₀ e ns l ids rs) : e.faults = d₀.faults := by
  have hfaults := congrArg Dev.faults h.units.1
  exact hfaults

theorem sliceRet (h : d.LoopRun d₀ e ns l ids rs) : e.sliceRet = d₀.sliceRet := by
  have hret := congrArg Dev.sliceRet h.units.1
  exact hret

theorem setReg (h : d.LoopRun d₀ e ns l ids rs) {a : Nat} (ha : a ∈ l) (v : Word) : d.LoopRun d₀ (e.setReg a v) ns l ids rs :=
  ⟨h.makes.setReg ha v, h.slots, h.units.setReg a v, h.base, h.now⟩

theorem setNum (h : d.LoopRun d₀ e ns l ids rs) {a : Nat} (ha : a ∈ l) (n : Nat) : d.LoopRun d₀ (e.setNum a n) ns l ids rs := h.setReg ha _

theorem setFld (h : d.LoopRun d₀ e ns l ids rs) {f : Fld} (hf : f.addr ∈ l) (n : Nat) : d.LoopRun d₀ (e.setFld f n) ns l ids rs :=
  h.setReg hf _

theorem setReg64 (h : d.LoopRun d₀ e ns l ids rs) {a : Nat} (hlo : a ∈ l) (hhi : a + 4 ∈ l) (v : DWord) :
    d.LoopRun d₀ (e.setReg64 a v) ns l ids rs :=
  (h.setReg hlo _).setReg hhi _

theorem setSlot (h : d.LoopRun d₀ e ns l ids rs) {n : Nat} (hn : n ∈ ns) (x : SlotSt) : d.LoopRun d₀ (e.setSlot n x) ns l ids rs :=
  ⟨h.makes.frame rfl rfl rfl rfl,
    fun k hk => (Tab.get_set_ne {} {} (ne_of_mem_of_not_mem hn hk).symm x e.slots).trans (h.slots k hk),
    ⟨congrArg (fun u : Dev => { u with slots := (e.setSlot n x).slots }) h.units.1, h.units.2⟩, h.base, h.now⟩

theorem setDet (h : d.LoopRun d₀ e ns l ids rs) (x : Option SliceDet) :
    d.LoopRun { d₀ with sliceDet := x } { e with sliceDet := x } ns l ids rs :=
  ⟨h.makes.frame rfl rfl rfl rfl, h.slots, ⟨congrArg (fun u : Dev => { u with sliceDet := x }) h.units.1, h.units.2⟩, h.base, h.now⟩

theorem setRet (h : d.LoopRun d₀ e ns l ids rs) (x : List (Nat × Time)) :
    d.LoopRun { d₀ with sliceRet := x } { e with sliceRet := x } ns l ids rs :=
  ⟨h.makes.frame rfl rfl rfl rfl, h.slots, ⟨congrArg (fun u : Dev => { u with sliceRet := x }) h.units.1, h.units.2⟩, h.base, h.now⟩

theorem setTest (h : d.LoopRun d₀ e ns l ids rs) (t : Time) :
    d.LoopRun { d₀ with spareTestT := t } { e with spareTestT := t } ns l ids rs :=
  ⟨h.makes.frame rfl rfl rfl rfl, h.slots, ⟨congrArg (fun u : Dev => { u with spareTestT := t }) h.units.1, h.units.2⟩, h.base, h.now⟩

theorem raise (h : d.LoopRun d₀ e ns l ids rs) (id : Nat) : d.LoopRun d₀ (e.raise id) ns l (ids ++ [id]) rs :=
  ⟨h.makes.raise h.now id, h.slots, h.units.raise id, h.base, h.now⟩

theorem report (h : d.LoopRun d₀ e ns l ids rs) (src unit : Nat) :
    d.LoopRun { d₀ with faults := d₀.faults ++ [{ src := src, unit := unit, stamp := d.nowNs }] } (e.report src unit) ns l ids rs := by
  have hfaults : (e.report src unit).faults = d₀.faults ++ [{ src := src, unit := unit, stamp := d.nowNs }] := by
    rw [← h.faults, Dev.nowNs, ← h.now]
    rfl
  refine ⟨h.makes.report src unit, h.slots, ?_, h.base, h.now⟩
  rw [← hfaults]
  exact ⟨congrArg (fun u : Dev => { u with faults := (e.report src unit).faults }) h.units.1, h.units.2⟩

theorem sysRec (h : d.LoopRun d₀ e ns l ids rs) (a : Nat) (old : Word) :
    d.LoopRun d₀ (e.sysRec a old) ns l ids (rs ++ [wordRecord d.nowNs .system 0 0x0600 a (e.reg a) old]) :=
  ⟨h.makes.sysRec h.now a old, h.slots, h.units.sysRec a old, h.base, h.now⟩

theorem when (h : d.LoopRun d₀ e ns l ids rs) {c : Bool} {f : Dev → Dev} (hf : d.LoopRun d₀ (f e) ns l ids rs) :
    d.LoopRun d₀ (e.when c f) ns l ids rs :=
  Dev.when_cases (p := fun u => d.LoopRun d₀ u ns l ids rs) c h hf

theorem each (h : d.LoopRun d₀ e ns l ids rs) {xs : List Nat} {f : Dev → Nat → Dev}
    (hf : ∀ u, ∀ n ∈ xs, d.LoopRun d₀ u ns l ids rs → d.LoopRun d₀ (f u n) ns l ids rs) : d.LoopRun d₀ (e.each xs f) ns l ids rs :=
  List.foldlRecOn (motive := fun u : Dev => d.LoopRun d₀ u ns l ids rs) xs f h fun u hu n hn => hf u n hn hu

/-! #### At the end of the command -/

theorem settle_units (h : d.LoopRun d₀ e ns l ids rs) (hl : lowKeys l) :
    { d₀ with slots := (settle e).slots }.keepsUnits (settle e) := by
  rw [settle_slots]
  exact h.makes.settle_keepsUnits (d₀ := { d₀ with slots := e.slots }) (fun hmem => absurd (hl _ hmem).1 (by decide)) h.base h.units

/-- Where no slot changed. -/
theorem settle_units_of_slots (h : d.LoopRun d₀ e [] l ids rs) (hl : lowKeys l) (hs : e.slots = d₀.slots) :
    d₀.keepsUnits (settle e) := by
  have hunits := h.settle_units hl
  rwa [settle_slots, hs] at hunits

theorem settle_noRecord (h : d.LoopRun d₀ e ns l ids []) (hl : lowKeys l) : d.noRecord (settle e) :=
  h.makes.settle_noRecord fun hmem => absurd (hl _ hmem).1 (by decide)

theorem settle_oneRecord {r : Record} (h : d.LoopRun d₀ e ns l ids [r]) (hl : lowKeys l) : d.oneRecord (settle e) r :=
  h.makes.settle_oneRecord fun hmem => absurd (hl _ hmem).1 (by decide)

end Dev.LoopRun

/-! ### The detour's copy and the spare's test (R167, R170) -/

theorem Dev.report_reg (d : Dev) (src unit k : Nat) : (d.report src unit).reg k = d.reg k := Dev.reg_of_regs k rfl
theorem Dev.raise_reg (d : Dev) (id k : Nat) : (d.raise id).reg k = d.reg k := Dev.reg_of_regs k rfl
theorem Dev.setSlot_reg (d : Dev) (n : Nat) (x : SlotSt) (k : Nat) : (d.setSlot n x).reg k = d.reg k := Dev.reg_of_regs k rfl

theorem settle_supReg (d : Dev) {k : Nat} (hk : k / 0x10000 = 0x1A) : (settle d).reg k = d.reg k :=
  settle_reg d k (by omega) (by omega)

theorem settle_supFld (d : Dev) {f : Fld} (hf : f.addr / 0x10000 = 0x1A) : (settle d).fld f = d.fld f :=
  settle_fld d f (by omega) (by omega)

/-- The spare in the place of the slice of a detour (R167). -/
def Dev.spareTaken (d : Dev) (x : SliceDet) (ns : Nat) : Dev :=
  (({ d with sliceDet := some { x with copied := true } } : Dev).setFld LOOP.SUP_DETOUR_INFO_TRANSFER_NS (min 2047 ns)).setFld
    LOOP.SUP_STATUS_SPARE_FOR x.k

theorem exec_detourStateCopy {s : State} {x : SliceDet} (ns : Nat) (hdet : s.dev.sliceDet = some x) (hcopied : x.copied = false) :
    exec (.detourStateCopy ns) s = .next { s with dev := settle (s.dev.begun.spareTaken x ns) } := by
  refine congrArg (fun d => Host.Outcome.next { s with dev := settle d }) ?_
  dsimp only
  split
  case h_1 hnone => exact absurd (hdet.symm.trans hnone) (by simp)
  case h_2 u hsome =>
    obtain rfl : x = u := Option.some.inj (hdet.symm.trans hsome)
    exact Dev.when_of_true s.dev.begun (by rw [hcopied]; rfl) _

theorem Dev.LoopRun.spareTaken (d : Dev) (x : SliceDet) (ns : Nat) :
    d.LoopRun { d with sliceDet := some { x with copied := true } } (d.begun.spareTaken x ns) []
      [LOOP.SUP_DETOUR_INFO, LOOP.SUP_STATUS] [] [] :=
  (((Dev.LoopRun.begun d [] _).setDet _).setFld (f := LOOP.SUP_DETOUR_INFO_TRANSFER_NS) (by decide) _).setFld
    (f := LOOP.SUP_STATUS_SPARE_FOR) (by decide) _

/-- The copy at the end of its command. -/
theorem settle_spareTaken (d : Dev) {x : SliceDet} (ns : Nat) (hk : x.k < 4) :
    let e := settle (d.begun.spareTaken x ns)
    e.sliceDet = some { x with copied := true } ∧ e.fld LOOP.SUP_DETOUR_INFO_TRANSFER_NS = min 2047 ns ∧
    e.fld LOOP.SUP_STATUS_SPARE_FOR = x.k ∧ d.keepsRegs e [LOOP.SUP_DETOUR_INFO, LOOP.SUP_STATUS] ∧
    { d with sliceDet := e.sliceDet }.keepsUnits e ∧ d.noRecord e := by
  intro e
  have hrun := Dev.LoopRun.spareTaken d x ns
  have hl : lowKeys [LOOP.SUP_DETOUR_INFO, LOOP.SUP_STATUS] := lowKeys_of_all (by decide)
  have hdet : e.sliceDet = some { x with copied := true } := (settle_sliceDet _).trans hrun.sliceDet
  refine ⟨hdet, ?_, ?_, hrun.makes.settle_keepsRegs, ?_, hrun.settle_noRecord hl⟩
  · rw [settle_supFld _ (by decide)]
    refine (Dev.fld_setFld_ne _ LOOP.SUP_STATUS_SPARE_FOR LOOP.SUP_DETOUR_INFO_TRANSFER_NS _ (by decide) (by decide) (by decide)).trans ?_
    exact Dev.fld_setFld_of_lt _ LOOP.SUP_DETOUR_INFO_TRANSFER_NS _ (by decide) (by decide) (show min 2047 ns < 2048 by omega)
  · rw [settle_supFld _ (by decide)]
    exact Dev.fld_setFld_of_lt _ LOOP.SUP_STATUS_SPARE_FOR _ (by decide) (by decide) (show x.k < 8 by omega)
  · rw [hdet]
    exact hrun.settle_units_of_slots hl rfl

/-- The instant of the spare's latest test. -/
def Dev.spareTested (d : Dev) : Dev := { d with spareTestT := d.now }

/-- A test of the spare that failed, before its record (R170). -/
def Dev.spareShown (d : Dev) : Dev := ((d.spareTested.incNum LOOP.SUP_MISMATCHES).setFld LOOP.SUP_STATUS_SPARE_FAIL 1).report 0x08 4

/-- A test of the spare that failed (R170). -/
def Dev.spareFailed (d : Dev) : Dev := d.spareShown.supRec (d.reg LOOP.SUP_STATUS)

/-- An idle spare is tested once its interval has passed (R170). -/
structure Dev.SpareTestDue (d : Dev) : Prop where
  on : d.fld LOOP.SUP_CFG_SPARE_TEST_US ≠ 0
  ready : d.sliceReady 4 = true
  free : d.fld LOOP.SUP_STATUS_SPARE_FOR = 7
  home : d.sliceDet = none
  due : d.due (d.spareTestT + nsT (d.fld LOOP.SUP_CFG_SPARE_TEST_US * 1000)) = true

theorem exec_spareTest {s : State} (h : s.dev.SpareTestDue) (ok : Bool) : exec (.spareTest ok) s =
    .next { s with dev := settle (if ok then s.dev.begun.spareTested else s.dev.begun.spareFailed) } := by
  obtain ⟨hon, hready, hfree, hhome, hdue⟩ := h
  refine congrArg (fun d => Host.Outcome.next { s with dev := settle d }) ?_
  have hgo : (decide (s.dev.fld LOOP.SUP_CFG_SPARE_TEST_US ≠ 0) &&
      (s.dev.sliceReady 4 && decide (s.dev.fld LOOP.SUP_STATUS_SPARE_FOR = 7) && s.dev.sliceDet.isNone) &&
      s.dev.due (s.dev.spareTestT + nsT (s.dev.fld LOOP.SUP_CFG_SPARE_TEST_US * 1000))) = true := by
    simp [hon, hready, hfree, hhome, hdue]
  refine (Dev.when_of_true s.dev.begun hgo _).trans ?_
  cases ok <;> rfl

theorem settle_spareTested (d : Dev) :
    let e := settle d.begun.spareTested
    e.spareTestT = d.now ∧ d.keepsRegs e [] ∧ { d with spareTestT := e.spareTestT }.keepsUnits e ∧ d.noRecord e := by
  intro e
  have hrun : d.LoopRun { d with spareTestT := d.now } d.begun.spareTested [] [] [] [] := (Dev.LoopRun.begun d [] []).setTest d.now
  have htest : e.spareTestT = d.now := settle_spareTestT _
  refine ⟨htest, hrun.makes.settle_keepsRegs, ?_, hrun.settle_noRecord (lowKeys_of_all rfl)⟩
  rw [htest]
  exact hrun.settle_units_of_slots (lowKeys_of_all rfl) rfl

/-- A count of a word, one higher. -/
theorem num_incNum (d : Dev) (a : Nat) : (d.incNum a).num a = satInc 0xFFFFFFFF (d.num a) := by
  have hcap := satInc_le 0xFFFFFFFF (d.num a)
  rw [Dev.incNum, Dev.num_setNum _ _ _ (by omega)]

theorem Dev.LoopRun.spareShown (d : Dev) :
    d.LoopRun { d with spareTestT := d.now, faults := d.faults ++ [{ src := 0x08, unit := 4, stamp := d.nowNs }] }
      d.begun.spareShown [] [LOOP.SUP_MISMATCHES, LOOP.SUP_STATUS] [] [] := by
  have hcount := ((Dev.LoopRun.begun d [] [LOOP.SUP_MISMATCHES, LOOP.SUP_STATUS]).setTest d.now).setNum (a := LOOP.SUP_MISMATCHES)
    (by decide) (satInc 0xFFFFFFFF (d.begun.spareTested.num LOOP.SUP_MISMATCHES))
  exact (hcount.setFld (f := LOOP.SUP_STATUS_SPARE_FAIL) (by decide) 1).report 0x08 4

/-- A failed test at the end of its command. -/
theorem settle_spareFailed (d : Dev) :
    let e := settle d.begun.spareFailed
    e.spareTestT = d.now ∧ e.num LOOP.SUP_MISMATCHES = satInc 0xFFFFFFFF (d.num LOOP.SUP_MISMATCHES) ∧
    e.flag LOOP.SUP_STATUS_SPARE_FAIL = true ∧ e.faults = d.faults ++ [{ src := 0x08, unit := 4, stamp := d.nowNs }] ∧
    d.oneRecord e (wordRecord d.nowNs .system 0 0x0600 LOOP.SUP_STATUS (e.reg LOOP.SUP_STATUS) (d.reg LOOP.SUP_STATUS)) ∧
    d.keepsRegs e [LOOP.SUP_MISMATCHES, LOOP.SUP_STATUS] ∧
    { d with spareTestT := e.spareTestT, faults := e.faults }.keepsUnits e := by
  intro e
  have hrun : d.LoopRun { d with spareTestT := d.now, faults := d.faults ++ [{ src := 0x08, unit := 4, stamp := d.nowNs }] }
      d.begun.spareFailed [] [LOOP.SUP_MISMATCHES, LOOP.SUP_STATUS] []
      [wordRecord d.nowNs .system 0 0x0600 LOOP.SUP_STATUS (d.begun.spareShown.reg LOOP.SUP_STATUS) (d.reg LOOP.SUP_STATUS)] :=
    (Dev.LoopRun.spareShown d).sysRec LOOP.SUP_STATUS (d.reg LOOP.SUP_STATUS)
  have hl : lowKeys [LOOP.SUP_MISMATCHES, LOOP.SUP_STATUS] := lowKeys_of_all (by decide)
  have htest : e.spareTestT = d.now := settle_spareTestT _
  have hfaults : e.faults = d.faults ++ [{ src := 0x08, unit := 4, stamp := d.nowNs }] := (settle_faults _).trans hrun.faults
  have hreg {k : Nat} (hk : k / 0x10000 = 0x1A) : e.reg k = d.begun.spareShown.reg k := (settle_supReg _ hk).trans (Dev.sysRec_reg _ _ _ _)
  refine ⟨htest, ?_, ?_, hfaults, ?_, hrun.makes.settle_keepsRegs, ?_⟩
  · have hcount : d.begun.spareShown.reg LOOP.SUP_MISMATCHES = (d.begun.spareTested.incNum LOOP.SUP_MISMATCHES).reg LOOP.SUP_MISMATCHES :=
      (Dev.report_reg _ _ _ _).trans (Dev.reg_setFld_ne _ (by decide) _)
    refine (congrArg BitVec.toNat ((hreg (k := LOOP.SUP_MISMATCHES) (by decide)).trans hcount)).trans ?_
    exact num_incNum d.begun.spareTested LOOP.SUP_MISMATCHES
  · have hshown := Dev.fld_of_reg (g := LOOP.SUP_STATUS_SPARE_FAIL) ((hreg (by decide)).trans (Dev.report_reg _ _ _ _))
    rw [Dev.flag, hshown]
    exact Dev.flag_setFld_one _ LOOP.SUP_STATUS_SPARE_FAIL (by decide) (by decide)
  · rw [hreg (k := LOOP.SUP_STATUS) (by decide)]
    exact hrun.settle_oneRecord hl
  · rw [htest]
    rw [hfaults]
    exact hrun.settle_units_of_slots hl (by simp [Dev.spareFailed, Dev.spareShown, Dev.spareTested, Dev.supRec, Dev.sysRec, Dev.incNum]; rfl)

/-! ### A scheduled return (R171) -/

/-- SUP_CMD is no pin's owner word, no engine's word, no coefficient, and no RETIRE entry. -/
theorem supCmd_apart : ownPin LOOP.SUP_CMD = none ∧ engAt LOOP.SUP_CMD = none ∧ coefAt LOOP.SUP_CMD = none ∧
    ¬ (MEMCTL.RETIRE 0 ≤ LOOP.SUP_CMD ∧ LOOP.SUP_CMD < MEMCTL.RETIRE 128) := by decide

theorem supCmd_ne : LOOP.SUP_CMD ≠ PROTECT.CONS_CMD ∧ LOOP.SUP_CMD ≠ DEBUG.DBG_CMD := by decide

/-- The table entry of SUP_CMD. -/
def supCmdHit : RegHit := ⟨loopSupRegs[13], 0, 0, false⟩

theorem regHit_supCmd : regHit LOOP.SUP_CMD = some supCmdHit := by decide

/-- SUP_CMD as its action sees it: the word that the write leaves, with RETURN and SLICE as written. -/
def supCmdActed (d : Dev) (v : Word) : Word := supCmdHit.acted (d.wordAfter supCmdHit LOOP.SUP_CMD v) v

theorem supCmdActed_and (d : Dev) (v : Word) : supCmdActed d v &&& 0x107#32 = v &&& 0x107#32 := by
  rw [supCmdActed, Dev.wordAfter, if_neg (by decide)]
  exact acted_and 0x107#32 _ v

theorem supCmdActed_slice (d : Dev) (v : Word) : (supCmdActed d v).toNat % 8 = v.toNat % 8 := by
  have hlow (w : Word) : w.toNat % 8 = ((w &&& 0x107#32) &&& 7#32).toNat := by
    rw [BitVec.and_assoc, show (0x107#32 &&& 7#32 : Word) = 7#32 from rfl, BitVec.toNat_and]
    exact (Nat.and_two_pow_sub_one_eq_mod w.toNat 3).symm
  rw [hlow, supCmdActed_and, ← hlow]

theorem supCmdActed_return (d : Dev) (v : Word) : bitOf (supCmdActed d v).toNat 8 = wordBit v 8 := by
  have hand := congrArg (fun w : Word => w.getLsbD 8) (supCmdActed_and d v)
  simpa [wordBit, bitOf_toNat] using hand

/-- A word of CMD fields alone is recorded as it was written, and acts (R49). -/
theorem takeWord_supCmd (d : Dev) (agent : AgentId) (v : Word) : d.takeWord agent supCmdHit LOOP.SUP_CMD v =
    (d.stored agent LOOP.SUP_CMD (d.wordAfter supCmdHit LOOP.SUP_CMD v) v 0).loopEffect LOOP.SUP_CMD (supCmdActed d v) := by
  obtain ⟨hpin, heng, hcoef, hretire⟩ := supCmd_apart
  have hlogged : supCmdHit.logged = false := rfl
  have hcommand : supCmdHit.command = true := rfl
  simp only [Dev.takeWord, hpin, heng, hretire, if_false, Dev.putWord, hcoef, Dev.writeRecord, if_neg supCmd_ne.1, hlogged, hcommand,
    if_true, Bool.false_eq_true]
  rfl

/-- What refuses a write of SUP_CMD does not depend on what was answered before. -/
theorem writeRefusal_supCmd_begun (d : Dev) (agent : AgentId) (v : Nat) :
    d.begun.writeRefusal agent supCmdHit LOOP.SUP_CMD v = d.writeRefusal agent supCmdHit LOOP.SUP_CMD v := by
  have hwriter (u : Dev) : u.writerForbidden agent LOOP.SUP_CMD supCmdHit = decide (u.blkLevel agent 0x1A < 2) := by
    simp [Dev.writerForbidden, LOOP.SUP_CMD]
  have hoff (u : Dev) : u.ledgerOff (LOOP.SUP_CMD / 0x10000) = false := by simp [Dev.ledgerOff, LOOP.SUP_CMD]
  have hstop (u : Dev) : u.stopOk LOOP.SUP_CMD = true := by simp [Dev.stopOk, LOOP.SUP_CMD]
  have hblock (u : Dev) : u.blockRefusals agent LOOP.SUP_CMD v = u.loopRefusals LOOP.SUP_CMD (BitVec.ofNat 32 v) := by
    simp [Dev.blockRefusals, LOOP.SUP_CMD, Dev.coefRefusals, coefAt]
  have hstg : supCmdHit.stg = false := rfl
  have hsame : d.begun.refusals agent supCmdHit LOOP.SUP_CMD v = d.refusals agent supCmdHit LOOP.SUP_CMD v := by
    simp only [Dev.refusals, hwriter, hoff, hstop, hblock, hstg, Bool.false_eq_true, if_false]
    rfl
  simp only [Dev.writeRefusal, hsame, if_neg supCmd_ne.1]

/-- SUP_CMD stored with the record of its write, before it acts. -/
def Dev.supCmdStored (d : Dev) (agent : AgentId) (v : Word) : Dev :=
  d.begun.stored agent LOOP.SUP_CMD (d.begun.wordAfter supCmdHit LOOP.SUP_CMD v) v 0

/-- The returns scheduled once slice `k` returns at `t`. -/
def Dev.returnsAfter (d : Dev) (k : Nat) (t : Time) : List (Nat × Time) := (d.sliceRet.filter fun p => decide (p.1 ≠ k)) ++ [(k, t)]

/-- The return of slice `k` scheduled for `t`. -/
def Dev.returnScheduled (d : Dev) (k : Nat) (t : Time) : Dev := { d with sliceRet := d.returnsAfter k t }

theorem loopEffect_supCmd (d : Dev) {v ev : Word} (hreturn : bitOf ev.toNat 8 = true) (hslice : ev.toNat % 8 = v.toNat % 8) :
    d.loopEffect LOOP.SUP_CMD ev = d.returnScheduled (v.toNat % 8) (d.reg64 LOOP.SUP_RETURN_AT) := by
  rw [Dev.loopEffect, if_pos rfl]
  refine (Dev.when_of_true d hreturn _).trans ?_
  rw [hslice]
  rfl

theorem supCmdStored_returnAt (d : Dev) (agent : AgentId) (v : Word) :
    (d.supCmdStored agent v).reg64 LOOP.SUP_RETURN_AT = d.reg64 LOOP.SUP_RETURN_AT := by
  have hreg {k : Nat} (hk : k ≠ LOOP.SUP_CMD) : (d.supCmdStored agent v).reg k = d.reg k :=
    (Dev.Makes.stored d agent (l := [LOOP.SUP_CMD]) (List.mem_singleton_self _) _ v 0).regs k (by simpa using hk)
  rw [Dev.reg64, hreg (by decide), hreg (by decide), Dev.reg64]

/-- A taken SUP_CMD with RETURN, before the end of its command. -/
theorem Dev.LoopRun.returnScheduled (d : Dev) (agent : AgentId) (v : Word) (k : Nat) (t : Time) :
    d.LoopRun { d with sliceRet := d.returnsAfter k t } ((d.supCmdStored agent v).returnScheduled k t) [] [LOOP.SUP_CMD] []
      [wordRecord d.nowNs .live 0 agent LOOP.SUP_CMD v 0] :=
  Dev.LoopRun.setRet (d := d) (d₀ := d)
    ⟨Dev.Makes.stored d agent (List.mem_singleton_self _) _ v 0, fun _ _ => rfl, Dev.keepsUnits.stored d agent _ _ v 0, rfl, rfl⟩
    (d.returnsAfter k t)

theorem regWrite_supCmd {d : Dev} {agent : AgentId} {v : Word} (ht : d.takes agent LOOP.SUP_CMD v = true) (hreturn : wordBit v 8 = true) :
    d.begun.regWrite agent LOOP.SUP_CMD v =
      (d.supCmdStored agent v).returnScheduled (v.toNat % 8) (d.reg64 LOOP.SUP_RETURN_AT) := by
  have hat := Dev.takesAt_of_takes regHit_supCmd ht
  have hbegun : d.begun.TakesAt agent supCmdHit LOOP.SUP_CMD v :=
    ⟨hat.hit, hat.plain, hat.acts, (writeRefusal_supCmd_begun d agent _).trans hat.allowed, hat.safe, hat.room⟩
  have hact := loopEffect_supCmd (d.supCmdStored agent v) ((supCmdActed_return d.begun v).trans hreturn) (supCmdActed_slice d.begun v)
  rw [supCmdStored_returnAt] at hact
  have htry := (Dev.regTry_of_takes hbegun).trans ((takeWord_supCmd d.begun agent v).trans hact)
  have hrun := Dev.LoopRun.returnScheduled d agent v (v.toNat % 8) (d.reg64 LOOP.SUP_RETURN_AT)
  have hroom : (d.begun.regTry agent LOOP.SUP_CMD v).ordinary ≤ d.begun.ordinary + 64 := by
    rw [htry]
    exact hrun.makes.ordinary_le.trans (Nat.add_le_add_left (by simp) _)
  exact (Dev.regWrite_of_room (b := d.begun) hbegun.room hroom supCmd_ne.2).trans htry

theorem exec_supReturn {s : State} {a : Agent} {v : Word} (ht : s.dev.takes a.id LOOP.SUP_CMD v = true) (hreturn : wordBit v 8 = true) :
    exec (.supReturn a v) s = .next { s with
      dev := settle ((s.dev.supCmdStored a.id v).returnScheduled (v.toNat % 8) (s.dev.reg64 LOOP.SUP_RETURN_AT)) } := by
  have hwrite : s.dev.begun.writeIf (wordBit v 8) a.id LOOP.SUP_CMD v = _ := (if_pos hreturn).trans (regWrite_supCmd ht hreturn)
  exact congrArg (fun d => Host.Outcome.next { s with dev := settle d }) hwrite

/-- A scheduled return at the end of its command. -/
theorem settle_returnScheduled (d : Dev) (agent : AgentId) (v : Word) (k : Nat) (t : Time) :
    let e := settle ((d.supCmdStored agent v).returnScheduled k t)
    e.answer = .ok ∧ e.sliceRet = d.returnsAfter k t ∧ d.keepsRegs e [LOOP.SUP_CMD] ∧ { d with sliceRet := e.sliceRet }.keepsUnits e ∧
    d.oneRecord e (wordRecord d.nowNs .live 0 agent LOOP.SUP_CMD v 0) := by
  intro e
  have hrun := Dev.LoopRun.returnScheduled d agent v k t
  have hl : lowKeys [LOOP.SUP_CMD] := lowKeys_of_all (by decide)
  have hret : e.sliceRet = d.returnsAfter k t := (settle_sliceRet _).trans hrun.sliceRet
  refine ⟨?_, hret, hrun.makes.settle_keepsRegs, ?_, hrun.settle_oneRecord hl⟩
  · rw [settle_answer]
    rfl
  · rw [hret]
    exact hrun.settle_units_of_slots hl rfl

/-! ### Bits of the bitmaps of SUP_STATUS -/

theorem bitOf_eq_testBit (n i : Nat) : bitOf n i = n.testBit i := by
  rw [Nat.testBit_eq_decide_div_mod_eq, bitOf, beq_eq_decide]

theorem bitOf_putBits_self (n i v : Nat) : bitOf (putBits n i i v) i = bitOf v 0 := by
  rw [bitOf_eq_testBit, testBit_putBits _ _ _ _ _ le_rfl, if_pos ⟨le_rfl, le_rfl⟩, Nat.sub_self, bitOf_eq_testBit]

theorem bitOf_putBits_ne {i j : Nat} (h : j ≠ i) (n v : Nat) : bitOf (putBits n i i v) j = bitOf n j := by
  rw [bitOf_eq_testBit, testBit_putBits _ _ _ _ _ le_rfl, if_neg (by omega), bitOf_eq_testBit]

/-- A bit of a field reads as it was written. -/
theorem Dev.fldBit_setFld (d : Dev) (f : Fld) (n : Nat) {i : Nat} (h : f.lo ≤ f.hi) (hw : f.hi < 32) (hi : i < f.hi + 1 - f.lo) :
    bitOf ((d.setFld f n).fld f) i = bitOf n i := by
  rw [Dev.fld_setFld_self d f n h hw, bitOf_eq_testBit, Nat.testBit_mod_two_pow, bitOf_eq_testBit, decide_eq_true hi, Bool.true_and]

/-! ### What a step made of several slots shows of one of them -/

/-- What no step of a list of slots changes. -/
theorem each_view {α : Type} (view : Dev → α) {l : List Nat} {f : Dev → Nat → Dev} (d : Dev)
    (h : ∀ e, ∀ n ∈ l, view (f e n) = view e) : view (d.each l f) = view d :=
  List.foldlRecOn (motive := fun e : Dev => view e = view d) l f rfl fun e he n hn => (h e n hn).trans he

/-- What only the step of slot `j` changes: it is changed once. -/
theorem each_view_once {α : Type} (view : Dev → α) {l : List Nat} {f : Dev → Nat → Dev} {j : Nat} (hnodup : l.Nodup) (hj : j ∈ l)
    (h : ∀ e, ∀ n ∈ l, n ≠ j → view (f e n) = view e) (d : Dev) :
    ∃ e, view e = view d ∧ view (d.each l f) = view (f e j) := by
  obtain ⟨as, bs, rfl⟩ := List.append_of_mem hj
  obtain ⟨-, hbs, hapart⟩ := List.nodup_append.mp hnodup
  have hbefore : view (d.each as f) = view d :=
    each_view view d fun e n hn => h e n (List.mem_append_left _ hn) (hapart n hn j List.mem_cons_self)
  have hafter : view ((f (d.each as f) j).each bs f) = view (f (d.each as f) j) :=
    each_view view _ fun e n hn => h e n (List.mem_append_right _ (List.mem_cons_of_mem _ hn))
      (ne_of_mem_of_not_mem hn (List.nodup_cons.mp hbs).1)
  refine ⟨d.each as f, hbefore, ?_⟩
  rw [← hafter, Dev.each, List.foldl_append]
  rfl

/-- A slot, with its words that say whether and how it runs, and the instant. -/
def Dev.slotFace (d : Dev) (j : Nat) : SlotSt × Word × Word × Time :=
  (d.slot j, d.reg (LOOP.SLOT_STATUS j), d.reg (LOOP.SLOT_CFG j), d.now)

theorem slotFace_eq {d e : Dev} {j : Nat} (h : e.slotFace j = d.slotFace j) :
    e.slot j = d.slot j ∧ e.slotRun j = d.slotRun j ∧ e.slotMode j = d.slotMode j ∧ e.now = d.now := by
  simp only [Dev.slotFace, Prod.mk.injEq] at h
  obtain ⟨hslot, hstatus, hcfg, hnow⟩ := h
  exact ⟨hslot, Dev.fld_of_reg hstatus, Dev.fld_of_reg hcfg, hnow⟩

/-! ### A slot that starts (R144) -/

/-- The words that a start of slot `n` writes. -/
def startKeys (n : Nat) : List Nat := [LOOP.SLOT_STATUS n, LOOP.SLOT_EVALS n, LOOP.OSC_STATUS n]

theorem startKeys_low {n : Nat} (hn : n < 32) : startKeys n ⊆ lowBlocks := by
  intro k hk
  simp only [startKeys, List.mem_cons, List.not_mem_nil, or_false, LOOP.SLOT_STATUS, LOOP.SLOT_EVALS, LOOP.OSC_STATUS] at hk
  rw [mem_lowBlocks]
  omega

/-- They are no word of the supervision, none of the words that show readiness, and no configuration word of a slot. -/
theorem startKeys_apart {n a : Nat} (hn : n < 32) (ha : LOOP.SUP_CFG ≤ a ∨ a < 0x180200 ∨ ∃ j < 32, a = LOOP.SLOT_CFG j) : a ∉ startKeys n := by
  intro hk
  simp only [startKeys, List.mem_cons, List.not_mem_nil, or_false, LOOP.SLOT_STATUS, LOOP.SLOT_EVALS, LOOP.OSC_STATUS] at hk
  simp only [LOOP.SUP_CFG, LOOP.SLOT_CFG] at ha
  rcases ha with ha | ha | ⟨j, hj, rfl⟩ <;> omega

theorem slotStatus_apart {n j : Nat} (hn : n < 32) (hj : j < 32) (hne : n ≠ j) : LOOP.SLOT_STATUS j ∉ startKeys n := by
  intro hk
  simp only [startKeys, List.mem_cons, List.not_mem_nil, or_false, LOOP.SLOT_STATUS, LOOP.SLOT_EVALS, LOOP.OSC_STATUS] at hk
  omega

/-- A step of one slot and of the words of its start leaves another slot as it was. -/
theorem Dev.LoopRun.slotFace {d d₀ e : Dev} {n j : Nat} {ids : List Nat} {rs : List Record} (h : d.LoopRun d₀ e [n] (startKeys n) ids rs)
    (hn : n < 32) (hj : j < 32) (hne : n ≠ j) : e.slotFace j = d.slotFace j := by
  simp only [Dev.slotFace, h.now, h.slot (by simpa using hne.symm), h.reg (slotStatus_apart hn hj hne),
    h.reg (startKeys_apart hn (.inr (.inr ⟨j, hj, rfl⟩)))]

section
variable {d d₀ e : Dev} {ns l ids : List Nat} {rs : List Record} {n : Nat}

theorem Dev.LoopRun.oscReset (h : d.LoopRun d₀ e ns l ids rs) (hn : n ∈ ns) (hosc : LOOP.OSC_STATUS n ∈ l) :
    d.LoopRun d₀ (e.oscReset n) ns l ids rs :=
  (((h.setSlot hn _).setFld (f := LOOP.OSC_STATUS_SENSE n) hosc 0).setFld (f := LOOP.OSC_STATUS_ARMED n) hosc 1).setFld
    (f := LOOP.OSC_STATUS_RECENT n) hosc 0

theorem Dev.LoopRun.recompute (h : d.LoopRun d₀ e ns l ids rs) (hn : n ∈ ns) : d.LoopRun d₀ (e.recompute n) ns l ids rs :=
  h.setSlot hn _

end

/-- A slot that starts, before the words that show it: its histories hold the manual value between the limits of the integrator (R144). -/
def Dev.slotFresh (d : Dev) (n : Nat) (t : Time) : Dev :=
  let y := clampLo (d.int (LOOP.SLOT_MAN n) * 4096) (d.int (LOOP.SLOT_INT_LO n) * 4096) (d.int (LOOP.SLOT_INT_HI n) * 4096)
  d.setSlot n { start := t, since := t, y1 := y, y2 := y, y3 := y, y4 := y, evs := (d.slot n).evs, commitNew := (d.slot n).commitNew,
                pulseEdge := (d.slot n).pulseEdge, pulseOk := (d.slot n).pulseOk, defer := (d.slot n).defer }

/-- A slot that starts, with the words that show it. -/
def Dev.slotShown (d : Dev) (n : Nat) (t : Time) : Dev :=
  let e := ((d.slotFresh n t).setNum (LOOP.SLOT_EVALS n) 0).setFld (LOOP.SLOT_STATUS_RUN n) ((d.slotFresh n t).slotMode n)
  e.setFld (LOOP.SLOT_STATUS_CUR_SET n) (e.fld (LOOP.SLOT_CFG_SET n))

theorem slotStart_eq (d : Dev) (n : Nat) (t : Time) : d.slotStart n t = ((d.slotShown n t).oscReset n).recompute n := rfl

theorem Dev.LoopRun.slotStart {d d₀ e : Dev} {ns l ids : List Nat} {rs : List Record} (h : d.LoopRun d₀ e ns l ids rs) {n : Nat}
    (hn : n ∈ ns) (hl : startKeys n ⊆ l) (t : Time) : d.LoopRun d₀ (e.slotStart n t) ns l ids rs := by
  obtain ⟨hstatus, hevals, hosc⟩ : LOOP.SLOT_STATUS n ∈ l ∧ LOOP.SLOT_EVALS n ∈ l ∧ LOOP.OSC_STATUS n ∈ l := by
    simpa [startKeys] using hl
  have hfresh : d.LoopRun d₀ (e.slotFresh n t) ns l ids rs := h.setSlot hn _
  have hshown : d.LoopRun d₀ (e.slotShown n t) ns l ids rs :=
    ((hfresh.setNum hevals 0).setFld (f := LOOP.SLOT_STATUS_RUN n) hstatus _).setFld (f := LOOP.SLOT_STATUS_CUR_SET n) hstatus _
  rw [slotStart_eq]
  exact (hshown.oscReset hn hosc).recompute hn

theorem slotMode_lt (d : Dev) (n : Nat) : d.slotMode n < 4 := bitsOf_lt _ _ _

theorem oscReset_start (d : Dev) (n : Nat) : ((d.oscReset n).slot n).start = (d.slot n).start := by
  have hcleared := (Dev.LoopRun.refl (d.setSlot n { d.slot n with oscHist := [], oscFirst := true, oscExt := 0 }) [] [LOOP.OSC_STATUS n])
  have hwords := ((hcleared.setFld (f := LOOP.OSC_STATUS_SENSE n) List.mem_cons_self 0).setFld (f := LOOP.OSC_STATUS_ARMED n)
    List.mem_cons_self 1).setFld (f := LOOP.OSC_STATUS_RECENT n) List.mem_cons_self 0
  refine (congrArg SlotSt.start (hwords.slot List.not_mem_nil)).trans ?_
  rw [slot_setSlot_self]

/-- A slot that starts runs in its mode from the instant of its start. -/
theorem slotStart_shows (d : Dev) (n : Nat) (t : Time) :
    (d.slotStart n t).slotRun n = d.slotMode n ∧ ((d.slotStart n t).slot n).start = t := by
  have hosc : LOOP.SLOT_STATUS n ∉ [LOOP.OSC_STATUS n] := by
    simp only [List.mem_singleton, LOOP.SLOT_STATUS, LOOP.OSC_STATUS]
    omega
  have hkept := (((Dev.LoopRun.refl (d.slotShown n t) [n] [LOOP.OSC_STATUS n]).oscReset (List.mem_singleton_self n)
    (List.mem_singleton_self _)).recompute (List.mem_singleton_self n)).fld (f := LOOP.SLOT_STATUS_RUN n) hosc
  rw [slotStart_eq]
  refine ⟨hkept.trans ?_, ?_⟩
  · refine (Dev.fld_setFld_ne _ (LOOP.SLOT_STATUS_CUR_SET n) (LOOP.SLOT_STATUS_RUN n) _ (by decide : 4 ≤ 5) (by decide : 2 < 32)
      (.inr (.inl (by decide : 2 < 4)))).trans ?_
    exact Dev.fld_setFld_of_lt _ (LOOP.SLOT_STATUS_RUN n) _ (by decide : 0 ≤ 2) (by decide : 2 < 32)
      (Nat.lt_trans (slotMode_lt d n) (by decide : 4 < 8))
  · have hfresh : ((d.slotShown n t).slot n).start = t := by
      have hwords := (((Dev.LoopRun.refl (d.slotFresh n t) [] (startKeys n)).setNum (a := LOOP.SLOT_EVALS n) (by simp [startKeys]) 0).setFld
        (f := LOOP.SLOT_STATUS_RUN n) List.mem_cons_self ((d.slotFresh n t).slotMode n)).setFld (f := LOOP.SLOT_STATUS_CUR_SET n)
        List.mem_cons_self
      exact (congrArg SlotSt.start ((hwords _).slot List.not_mem_nil)).trans (congrArg SlotSt.start (slot_setSlot_self d n _))
    exact (congrArg SlotSt.start (slot_setSlot_self ((d.slotShown n t).oscReset n) n _)).trans ((oscReset_start _ n).trans hfresh)

/-! ### A slice that becomes ready (R137) -/

/-- The flag of a block that shows slice `k` ready. -/
def sliceFlag (k : Nat) : Fld := if k % 2 = 0 then LOOP.BLK_STATUS_LOWER_READY (k / 2) else LOOP.BLK_STATUS_UPPER_READY (k / 2)

theorem sliceFlag_addr (k : Nat) : (sliceFlag k).addr = LOOP.BLK_STATUS (k / 2) := by
  unfold sliceFlag
  split <;> rfl

/-- The bit of DOM_STATUS that shows the domain of slice `k` ready. -/
def sliceDom (k : Nat) : Fld := ⟨SUPPLY.DOM_STATUS_0 + 4 * ((25 + k) / 32), (25 + k) % 32, (25 + k) % 32⟩

theorem domReady_eq_sliceDom (d : Dev) (k : Nat) : d.domReady (25 + k) = d.flag (sliceDom k) := bitOf_eq_field _ _

/-- Slice `k` shown ready, before its waiting slots start. -/
def Dev.sliceUp (d : Dev) (k : Nat) : Dev :=
  let e := (d.setFld LOOP.SUP_STATUS_READY (putBits (d.fld LOOP.SUP_STATUS_READY) k k 1)).setFld (sliceDom k) 1
  e.when (decide (k < 4)) fun e => e.setFld (sliceFlag k) 1

/-- The words that show a slice ready. -/
def readyKeys (k : Nat) : List Nat := [LOOP.SUP_STATUS, (sliceDom k).addr, LOOP.BLK_STATUS (k / 2)]

/-- They are no words of a slot. -/
theorem readyKeys_apart {k a : Nat} (hk : k < 5) (ha : ∃ j < 32, a = LOOP.SLOT_STATUS j ∨ a = LOOP.SLOT_CFG j) : a ∉ readyKeys k := by
  obtain ⟨j, hj, ha⟩ := ha
  simp only [readyKeys, sliceDom, List.mem_cons, List.not_mem_nil, or_false, LOOP.SUP_STATUS, SUPPLY.DOM_STATUS_0, LOOP.BLK_STATUS]
  simp only [LOOP.SLOT_STATUS, LOOP.SLOT_CFG] at ha
  omega

theorem Dev.LoopRun.sliceUp {d d₀ e : Dev} {ns l ids : List Nat} {rs : List Record} (h : d.LoopRun d₀ e ns l ids rs) {k : Nat}
    (hl : readyKeys k ⊆ l) : d.LoopRun d₀ (e.sliceUp k) ns l ids rs := by
  obtain ⟨hstatus, hdom, hblk⟩ : LOOP.SUP_STATUS ∈ l ∧ (sliceDom k).addr ∈ l ∧ LOOP.BLK_STATUS (k / 2) ∈ l := by
    simpa [readyKeys] using hl
  have hready := (h.setFld (f := LOOP.SUP_STATUS_READY) hstatus (putBits (e.fld LOOP.SUP_STATUS_READY) k k 1)).setFld (f := sliceDom k) hdom 1
  exact hready.when (f := fun u => u.setFld (sliceFlag k) 1) (hready.setFld (f := sliceFlag k) (by rwa [sliceFlag_addr]) 1)

/-- The words of readiness once a slice is ready. -/
theorem sliceUp_fld (d : Dev) {k : Nat} (hk : k < 5) {g : Fld} (hg : g.addr = LOOP.SUP_STATUS ∨ g.addr = (sliceDom k).addr) :
    (d.sliceUp k).fld g =
      ((d.setFld LOOP.SUP_STATUS_READY (putBits (d.fld LOOP.SUP_STATUS_READY) k k 1)).setFld (sliceDom k) 1).fld g := by
  refine Dev.when_cases (p := fun e => e.fld g = _) _ rfl (Dev.fld_of_reg (Dev.reg_setFld_ne _ ?_ _))
  rw [sliceFlag_addr]
  rcases hg with hg | hg <;> rw [hg] <;> simp only [LOOP.SUP_STATUS, sliceDom, SUPPLY.DOM_STATUS_0, LOOP.BLK_STATUS] <;> omega

theorem supStatus_ne_sliceDom (k : Nat) (hk : k < 5) : LOOP.SUP_STATUS ≠ (sliceDom k).addr := by
  simp only [LOOP.SUP_STATUS, sliceDom, SUPPLY.DOM_STATUS_0]
  omega

theorem sliceUp_ready (d : Dev) {k : Nat} (hk : k < 5) : (d.sliceUp k).sliceReady k = true ∧ (d.sliceUp k).domReady (25 + k) = true := by
  refine ⟨?_, ?_⟩
  · rw [Dev.sliceReady, sliceUp_fld d hk (.inl rfl),
      Dev.fld_of_reg (g := LOOP.SUP_STATUS_READY) (Dev.reg_setFld_ne _ (supStatus_ne_sliceDom k hk) _),
      Dev.fldBit_setFld d LOOP.SUP_STATUS_READY _ (by decide) (by decide) hk, bitOf_putBits_self]
    rfl
  · rw [domReady_eq_sliceDom, Dev.flag, sliceUp_fld d hk (.inr rfl)]
    exact Dev.flag_setFld_one _ (sliceDom k) le_rfl (Nat.mod_lt _ (by decide))

/-- Readiness moves no slot to another slice. -/
theorem sliceUp_slotSlice (d : Dev) {k : Nat} (hk : k < 5) (n : Nat) : (d.sliceUp k).slotSlice n = d.slotSlice n := by
  have hspare : (d.sliceUp k).fld LOOP.SUP_STATUS_SPARE_FOR = d.fld LOOP.SUP_STATUS_SPARE_FOR := by
    rw [sliceUp_fld d hk (.inl rfl),
      Dev.fld_of_reg (g := LOOP.SUP_STATUS_SPARE_FOR) (Dev.reg_setFld_ne _ (supStatus_ne_sliceDom k hk) _)]
    exact Dev.fld_setFld_ne d LOOP.SUP_STATUS_READY LOOP.SUP_STATUS_SPARE_FOR _ (by decide) (by decide) (by decide)
  simp only [Dev.slotSlice, hspare, ((Dev.LoopRun.refl d [] (readyKeys k)).sliceUp (List.Subset.refl _)).sliceDet]

/-- The slots of slice `k` that wait for it. -/
def Dev.waiting (d : Dev) (k : Nat) : List Nat :=
  (d.slotsOf k).filter fun j => decide (d.slotRun j = 4) && decide ((d.slot j).held = none)

theorem waiting_lt {d : Dev} {k n : Nat} (hn : n ∈ d.waiting k) : n < 32 :=
  List.mem_range.mp (List.mem_of_mem_filter (List.mem_of_mem_filter hn))

/-- A slot that starts now. -/
def Dev.startNow (d : Dev) (n : Nat) : Dev := d.slotStart n d.now

/-- The slots of slice `k` started. -/
def Dev.sliceStarted (d : Dev) (k : Nat) : Dev := (d.sliceUp k).each ((d.sliceUp k).waiting k) Dev.startNow

theorem exec_sliceReady {k : Fin 5} {s : State} (h : s.dev.powered (25 + k.val) 5000 = true) :
    exec (.sliceReady k) s = .next { s with dev := settle (s.dev.begun.sliceStarted k.val) } := by
  refine congrArg (fun d => Host.Outcome.next { s with dev := settle d }) ?_
  exact Dev.when_of_true s.dev.begun h fun d => d.sliceStarted k.val

theorem Dev.LoopRun.sliceStarted (d : Dev) {k : Nat} (hk : k < 5) :
    d.LoopRun d (d.begun.sliceStarted k) (List.range 32) lowBlocks [] [] := by
  have hready : readyKeys k ⊆ lowBlocks := by
    intro a ha
    simp only [readyKeys, sliceDom, List.mem_cons, List.not_mem_nil, or_false, LOOP.SUP_STATUS, SUPPLY.DOM_STATUS_0, LOOP.BLK_STATUS] at ha
    rw [mem_lowBlocks]
    omega
  exact ((Dev.LoopRun.begun d _ _).sliceUp hready).each fun _ _ hn hrun =>
    hrun.slotStart (List.mem_range.mpr (waiting_lt hn)) (startKeys_low (waiting_lt hn)) _

/-- The words that show readiness stay as slots start. -/
theorem startNow_reg {a : Nat} (ha : LOOP.SUP_CFG ≤ a ∨ a < 0x180200) (d : Dev) {n : Nat} (hn : n < 32) : (d.startNow n).reg a = d.reg a :=
  ((Dev.LoopRun.refl d [n] (startKeys n)).slotStart List.mem_cons_self (List.Subset.refl _) d.now).reg
    (startKeys_apart hn (ha.imp_right .inl))

theorem startNow_slotFace (d : Dev) {n j : Nat} (hn : n < 32) (hj : j < 32) (hne : n ≠ j) : (d.startNow n).slotFace j = d.slotFace j :=
  ((Dev.LoopRun.refl d [n] (startKeys n)).slotStart List.mem_cons_self (List.Subset.refl _) d.now).slotFace hn hj hne

/-- A slot that waits for slice `k` runs once it is ready. -/
theorem sliceStarted_slot (d : Dev) {k j : Nat} (hk : k < 5) (hj : j < 32) (hslice : d.slotSlice j = k) (hwaits : d.slotRun j = 4)
    (hfree : (d.slot j).held = none) :
    (d.sliceStarted k).slotRun j = d.slotMode j ∧ ((d.sliceStarted k).slot j).start = d.now := by
  have hup := (Dev.LoopRun.refl d [] (readyKeys k)).sliceUp (List.Subset.refl _)
  have hface : (d.sliceUp k).slotFace j = d.slotFace j := by
    simp only [Dev.slotFace, hup.now, hup.slot List.not_mem_nil, hup.reg (readyKeys_apart hk ⟨j, hj, .inl rfl⟩),
      hup.reg (readyKeys_apart hk ⟨j, hj, .inr rfl⟩)]
  obtain ⟨hslot, hrun, -, -⟩ := slotFace_eq hface
  have hmem : j ∈ (d.sliceUp k).waiting k := by
    simp [Dev.waiting, Dev.slotsOf, hj, sliceUp_slotSlice d hk, hslice, hrun, hwaits, hslot, hfree]
  have hnodup : ((d.sliceUp k).waiting k).Nodup := (List.nodup_range.filter _).filter _
  obtain ⟨e, hbefore, hafter⟩ := each_view_once (fun u => u.slotFace j) hnodup hmem
    (fun u n hn hne => startNow_slotFace u (waiting_lt hn) hj hne) (d.sliceUp k)
  obtain ⟨-, -, hmode, hnow⟩ := slotFace_eq (hbefore.trans hface)
  obtain ⟨hslotEnd, hrunEnd, -, -⟩ := slotFace_eq hafter
  obtain ⟨hruns, hstart⟩ := slotStart_shows e j e.now
  exact ⟨hrunEnd.trans (hruns.trans hmode), (congrArg SlotSt.start hslotEnd).trans (hstart.trans hnow)⟩

theorem sliceStarted_fld (d : Dev) (k : Nat) {g : Fld} (hg : LOOP.SUP_CFG ≤ g.addr ∨ g.addr < 0x180200) :
    (d.sliceStarted k).fld g = (d.sliceUp k).fld g :=
  Dev.fld_of_reg (each_view (fun u => u.reg g.addr) (d.sliceUp k) fun u _ hn => startNow_reg hg u (waiting_lt hn))

/-- A slice ready at the end of the command. -/
theorem settle_sliceStarted (d : Dev) {k : Nat} (hk : k < 5) :
    let e := settle (d.begun.sliceStarted k)
    e.sliceReady k = true ∧ e.domReady (25 + k) = true ∧
    (∀ j : Fin 32, d.slotSlice j.val = k → d.slotRun j.val = 4 → (d.slot j.val).held = none →
      e.slotRun j.val = d.slotMode j.val ∧ (e.slot j.val).start = d.now) ∧
    { d with slots := e.slots }.keepsUnits e ∧ d.noRecord e := by
  intro e
  have hrun := Dev.LoopRun.sliceStarted d hk
  obtain ⟨hready, hdom⟩ := sliceUp_ready d.begun hk
  refine ⟨?_, ?_, fun j hslice hwaits hfree => ?_, hrun.settle_units lowKeys_lowBlocks, hrun.settle_noRecord lowKeys_lowBlocks⟩
  · rw [Dev.sliceReady, settle_supFld _ (by decide), sliceStarted_fld _ k (.inl (by decide))]
    exact hready
  · have haddr : (sliceDom k).addr / 0x10000 = 3 := by
      simp only [sliceDom, SUPPLY.DOM_STATUS_0]
      omega
    have hsame := sliceStarted_fld d.begun k (g := sliceDom k) (.inr (by omega))
    rw [domReady_eq_sliceDom, settle_flag _ _ (by omega) (by omega), Dev.flag, hsame]
    rwa [domReady_eq_sliceDom] at hdom
  · obtain ⟨hruns, hstart⟩ := sliceStarted_slot d.begun hk j.isLt hslice hwaits hfree
    have hstatus : e.slotRun j.val = (d.begun.sliceStarted k).slotRun j.val :=
      settle_fld _ _ (by simp only [LOOP.SLOT_STATUS_RUN, LOOP.SLOT_STATUS]; omega) (by simp only [LOOP.SLOT_STATUS_RUN, LOOP.SLOT_STATUS]; omega)
    exact ⟨hstatus.trans hruns, (congrArg SlotSt.start (settle_slot _ _)).trans hstart⟩

/-! ### A slice that returns (R171) -/

/-- Slot `n` of its home slice again; `upTo` is the instant up to which the spare evaluates its samples. -/
def Dev.slotFreed (d : Dev) (upTo : Option Time) (n : Nat) : Dev := d.setSlot n { d.slot n with held := none, spareTo := upTo }

/-- Slot `n` passes back to its home slice at `t`. -/
def Dev.slotPassed (upTo : Option Time) (t : Time) (d : Dev) (n : Nat) : Dev :=
  (d.slotFreed upTo n).when (decide ((d.slotFreed upTo n).slotRun n = 4)) fun e => e.slotStart n t

/-- The slots of slice `k` after its return at `t`, where `served` says whether the spare stood in its place. -/
def Dev.slotsPassed (d : Dev) (served : Bool) (k : Nat) (t : Time) : Dev :=
  d.each (homeSlots k) (Dev.slotPassed (if served then some t else none) t)

/-- Slice `k` no longer FAULTY, and its return no longer scheduled. -/
def Dev.faultyCleared (d : Dev) (k : Nat) : Dev :=
  ({ d with sliceRet := d.sliceRet.filter fun p => p.1 ≠ k } : Dev).setFld LOOP.SUP_STATUS_FAULTY
    (putBits (d.fld LOOP.SUP_STATUS_FAULTY) k k 0)

/-- The return of slice `k` at `t`, before its record. -/
def Dev.returnShown (d : Dev) (k : Nat) (t : Time) : Dev :=
  ((d.faultyCleared k).slotsPassed (decide (d.fld LOOP.SUP_STATUS_SPARE_FOR = k)) k t).when
    (decide (d.fld LOOP.SUP_STATUS_SPARE_FOR = k)) fun d => d.setFld LOOP.SUP_STATUS_SPARE_FOR 7

/-- The return of slice `k` at `t`, with its record. -/
def Dev.sliceReturned (d : Dev) (k : Nat) (t : Time) : Dev := (d.returnShown k t).supRec (d.reg LOOP.SUP_STATUS)

theorem exec_sliceReturnAt {k : Fin 4} {s : State} {x : Nat × Time}
    (hdue : s.dev.sliceRet.find? (fun p => decide (p.1 = k.val)) = some x) (hnow : s.dev.due x.2 = true) :
    exec (.sliceReturnAt k) s = .next { s with dev := settle (s.dev.begun.sliceReturned k.val x.2) } := by
  refine congrArg (fun d => Host.Outcome.next { s with dev := settle d }) ?_
  dsimp only
  split
  case h_1 hnone => exact absurd (hdue.symm.trans hnone) (by simp)
  case h_2 j t hsome =>
    obtain rfl : x = (j, t) := Option.some.inj (hdue.symm.trans hsome)
    exact Dev.when_of_true s.dev.begun hnow fun d => d.sliceReturned k.val t

section
variable {d d₀ e : Dev} {ns l ids : List Nat} {rs : List Record}

theorem Dev.LoopRun.slotPassed (h : d.LoopRun d₀ e ns l ids rs) {n : Nat} (hn : n ∈ ns) (hl : startKeys n ⊆ l) (upTo : Option Time)
    (t : Time) : d.LoopRun d₀ (Dev.slotPassed upTo t e n) ns l ids rs :=
  have hfreed : d.LoopRun d₀ (e.slotFreed upTo n) ns l ids rs := h.setSlot hn _
  hfreed.when (hfreed.slotStart hn hl t)

theorem homeSlots_lt {k n : Nat} (hk : k < 4) (hn : n ∈ homeSlots k) : n < 32 := by
  obtain ⟨i, hi, rfl⟩ := List.mem_map.mp hn
  have := List.mem_range.mp hi
  omega

theorem mem_homeSlots (k : Nat) (i : Fin 8) : 8 * k + i.val ∈ homeSlots k :=
  List.mem_map.mpr ⟨i.val, List.mem_range.mpr i.isLt, rfl⟩

theorem homeSlots_nodup (k : Nat) : (homeSlots k).Nodup := List.nodup_range.map (fun _ _ h => Nat.add_left_cancel h)

theorem Dev.LoopRun.slotsPassed {k : Nat} (h : d.LoopRun d₀ e (homeSlots k) lowBlocks ids rs) (hk : k < 4) (served : Bool) (t : Time) :
    d.LoopRun d₀ (e.slotsPassed served k t) (homeSlots k) lowBlocks ids rs := by
  refine h.each fun u n hn hrun => ?_
  exact hrun.slotPassed hn (startKeys_low (homeSlots_lt hk hn)) _ t

end

theorem supStatus_low : LOOP.SUP_STATUS ∈ lowBlocks := mem_lowBlocks.mpr (by decide)

theorem Dev.LoopRun.returnShown (d : Dev) {k : Nat} (hk : k < 4) (t : Time) :
    d.LoopRun { d with sliceRet := d.sliceRet.filter fun p => p.1 ≠ k } (d.begun.returnShown k t) (homeSlots k) lowBlocks [] [] := by
  have hcleared : d.LoopRun { d with sliceRet := d.sliceRet.filter fun p => p.1 ≠ k } (d.begun.faultyCleared k) (homeSlots k) lowBlocks
      [] [] := ((Dev.LoopRun.begun d _ _).setRet _).setFld (f := LOOP.SUP_STATUS_FAULTY) supStatus_low _
  have hpassed := hcleared.slotsPassed hk (decide (d.fld LOOP.SUP_STATUS_SPARE_FOR = k)) t
  exact hpassed.when (f := fun u => u.setFld LOOP.SUP_STATUS_SPARE_FOR 7) (hpassed.setFld (f := LOOP.SUP_STATUS_SPARE_FOR) supStatus_low 7)

theorem slotPassed_run (d : Dev) (upTo : Option Time) (t : Time) (n : Nat) :
    d.LoopRun d (Dev.slotPassed upTo t d n) [n] (startKeys n) [] [] :=
  (Dev.LoopRun.refl d [n] (startKeys n)).slotPassed List.mem_cons_self (List.Subset.refl _) upTo t

/-- The word of the slices stays as slots pass back. -/
theorem slotsPassed_supStatus (d : Dev) {k : Nat} (hk : k < 4) (served : Bool) (t : Time) :
    (d.slotsPassed served k t).reg LOOP.SUP_STATUS = d.reg LOOP.SUP_STATUS :=
  each_view (fun u => u.reg LOOP.SUP_STATUS) d fun u n hn =>
    (slotPassed_run u _ t n).reg (startKeys_apart (homeSlots_lt hk hn) (.inl (by decide)))

/-- A slot that waits runs from the instant of the return. -/
theorem slotPassed_shows (d : Dev) (upTo : Option Time) (t : Time) {n : Nat} (hwaits : d.slotRun n = 4) :
    (Dev.slotPassed upTo t d n).slotRun n = d.slotMode n ∧ ((Dev.slotPassed upTo t d n).slot n).start = t := by
  have hstill : (d.slotFreed upTo n).slotRun n = 4 := hwaits
  rw [Dev.slotPassed, Dev.when_of_true _ (decide_eq_true hstill)]
  exact slotStart_shows _ n t

/-- A waiting slot of slice `k` after its return. -/
theorem slotsPassed_slot (d : Dev) {k : Nat} (hk : k < 4) (served : Bool) (t : Time) (i : Fin 8) (hwaits : d.slotRun (8 * k + i.val) = 4) :
    (d.slotsPassed served k t).slotRun (8 * k + i.val) = d.slotMode (8 * k + i.val) ∧
    ((d.slotsPassed served k t).slot (8 * k + i.val)).start = t := by
  have hj : 8 * k + i.val < 32 := homeSlots_lt hk (mem_homeSlots k i)
  obtain ⟨e, hbefore, hafter⟩ := each_view_once (fun u => u.slotFace (8 * k + i.val)) (homeSlots_nodup k) (mem_homeSlots k i)
    (fun u n hn hne => (slotPassed_run u (if served then some t else none) t n).slotFace (homeSlots_lt hk hn) hj hne) d
  obtain ⟨-, hrun, hmode, -⟩ := slotFace_eq hbefore
  obtain ⟨hslotEnd, hrunEnd, -, -⟩ := slotFace_eq hafter
  obtain ⟨hruns, hstart⟩ := slotPassed_shows e (if served then some t else none) t (hrun.trans hwaits)
  exact ⟨hrunEnd.trans (hruns.trans hmode), (congrArg SlotSt.start hslotEnd).trans hstart⟩

/-- The slice is no longer FAULTY, and the spare free where it stood in its place. -/
theorem returnShown_status (d : Dev) {k : Nat} (hk : k < 4) (t : Time) :
    bitOf ((d.returnShown k t).fld LOOP.SUP_STATUS_FAULTY) k = false ∧
    (d.fld LOOP.SUP_STATUS_SPARE_FOR ≠ k ∨ (d.returnShown k t).fld LOOP.SUP_STATUS_SPARE_FOR = 7) := by
  refine ⟨?_, ?_⟩
  · have hpassed := Dev.fld_of_reg (g := LOOP.SUP_STATUS_FAULTY)
      (slotsPassed_supStatus (d.faultyCleared k) hk (decide (d.fld LOOP.SUP_STATUS_SPARE_FOR = k)) t)
    have hshown : (d.returnShown k t).fld LOOP.SUP_STATUS_FAULTY = (d.faultyCleared k).fld LOOP.SUP_STATUS_FAULTY :=
      Dev.when_cases (p := fun u => u.fld LOOP.SUP_STATUS_FAULTY = _) _ hpassed ((Dev.fld_setFld_ne _ LOOP.SUP_STATUS_SPARE_FOR
        LOOP.SUP_STATUS_FAULTY _ (by decide) (by decide) (by decide)).trans hpassed)
    rw [hshown]
    refine (Dev.fldBit_setFld _ LOOP.SUP_STATUS_FAULTY _ (by decide) (by decide) (show k < 5 by omega)).trans ?_
    rw [bitOf_putBits_self]
    rfl
  · by_cases hserved : d.fld LOOP.SUP_STATUS_SPARE_FOR = k
    · right
      rw [Dev.returnShown, Dev.when_of_true _ (decide_eq_true hserved)]
      exact Dev.fld_setFld_of_lt _ LOOP.SUP_STATUS_SPARE_FOR 7 (by decide) (by decide) (by decide)
    · exact .inl hserved

theorem Dev.setFld_slot (d : Dev) (f : Fld) (v n : Nat) : (d.setFld f v).slot n = d.slot n := rfl

theorem returnShown_slot (d : Dev) {k : Nat} (hk : k < 4) (t : Time) (i : Fin 8) (hwaits : d.slotRun (8 * k + i.val) = 4) :
    (d.returnShown k t).slotRun (8 * k + i.val) = d.slotMode (8 * k + i.val) ∧
    ((d.returnShown k t).slot (8 * k + i.val)).start = t := by
  have hj : 8 * k + i.val < 32 := homeSlots_lt hk (mem_homeSlots k i)
  have hne : LOOP.SLOT_STATUS (8 * k + i.val) ≠ LOOP.SUP_STATUS ∧ LOOP.SLOT_CFG (8 * k + i.val) ≠ LOOP.SUP_STATUS := by
    simp only [LOOP.SLOT_STATUS, LOOP.SLOT_CFG, LOOP.SUP_STATUS]
    omega
  have hclear : (d.faultyCleared k).slotRun (8 * k + i.val) = d.slotRun (8 * k + i.val) := Dev.fld_of_reg (Dev.reg_setFld_ne _ hne.1 _)
  have hmode : (d.faultyCleared k).slotMode (8 * k + i.val) = d.slotMode (8 * k + i.val) := Dev.fld_of_reg (Dev.reg_setFld_ne _ hne.2 _)
  obtain ⟨hrun, hstart⟩ := slotsPassed_slot (d.faultyCleared k) hk (decide (d.fld LOOP.SUP_STATUS_SPARE_FOR = k)) t i (hclear.trans hwaits)
  rw [hmode] at hrun
  exact Dev.when_cases (p := fun u => u.slotRun (8 * k + i.val) = _ ∧ (u.slot (8 * k + i.val)).start = t) _ ⟨hrun, hstart⟩
    ⟨(Dev.fld_of_reg (Dev.reg_setFld_ne _ hne.1 _)).trans hrun, (congrArg SlotSt.start (Dev.setFld_slot _ _ _ _)).trans hstart⟩

/-- A slice returned at the end of the command. -/
theorem settle_sliceReturned (d : Dev) {k : Nat} (hk : k < 4) (t : Time) :
    let e := settle (d.begun.sliceReturned k t)
    bitOf (e.fld LOOP.SUP_STATUS_FAULTY) k = false ∧
    (d.fld LOOP.SUP_STATUS_SPARE_FOR ≠ k ∨ e.fld LOOP.SUP_STATUS_SPARE_FOR = 7) ∧
    e.sliceRet.all (fun p => decide (p.1 ≠ k)) = true ∧
    (∀ i : Fin 8, d.slotRun (8 * k + i.val) = 4 →
      e.slotRun (8 * k + i.val) = d.slotMode (8 * k + i.val) ∧ (e.slot (8 * k + i.val)).start = t) ∧
    d.oneRecord e (wordRecord d.nowNs .system 0 0x0600 LOOP.SUP_STATUS (e.reg LOOP.SUP_STATUS) (d.reg LOOP.SUP_STATUS)) ∧
    { d with slots := e.slots, sliceRet := e.sliceRet }.keepsUnits e := by
  intro e
  have hrun := (Dev.LoopRun.returnShown d hk t).sysRec LOOP.SUP_STATUS (d.reg LOOP.SUP_STATUS)
  have hret : e.sliceRet = d.sliceRet.filter fun p => p.1 ≠ k := (settle_sliceRet _).trans hrun.sliceRet
  obtain ⟨hfaulty, hspare⟩ := returnShown_status d.begun hk t
  have hreg {a : Nat} (ha : 0x18 ≤ a / 0x10000) : e.reg a = (d.begun.returnShown k t).reg a :=
    (settle_reg _ _ (by omega) (by omega)).trans (Dev.sysRec_reg _ _ _ _)
  have hfld {g : Fld} (hg : 0x18 ≤ g.addr / 0x10000) : e.fld g = (d.begun.returnShown k t).fld g := Dev.fld_of_reg (hreg hg)
  refine ⟨?_, ?_, ?_, fun i hwaits => ?_, ?_, ?_⟩
  · rwa [hfld (by decide)]
  · rwa [hfld (by decide)]
  · rw [hret, List.all_eq_true]
    intro p hp
    simpa using List.of_mem_filter hp
  · obtain ⟨hruns, hstart⟩ := returnShown_slot d.begun hk t i hwaits
    have hstatus : e.slotRun (8 * k + i.val) = (d.begun.returnShown k t).slotRun (8 * k + i.val) :=
      hfld (by simp only [LOOP.SLOT_STATUS_RUN, LOOP.SLOT_STATUS]; omega)
    exact ⟨hstatus.trans hruns, (congrArg SlotSt.start (settle_slot _ _)).trans hstart⟩
  · rw [hreg (by decide)]
    exact hrun.settle_oneRecord lowKeys_lowBlocks
  · rw [hret]
    exact hrun.settle_units lowKeys_lowBlocks

/-! ### A detour's end (R167, R168) -/

/-- Groups that are all off decide nothing. -/
theorem runGroupsOf_off {d : Dev} (h : ∀ g : Fin 8, d.cgOn g.val = false) (ns : List Nat) : d.runGroupsOf ns = d :=
  each_same fun g hg => Dev.when_of_false _ (by rw [h ⟨g, List.mem_range.mp hg⟩, Bool.false_and]) _

/-- A slot of a detour at `tr`, its earlier samples dropped. -/
def Dev.samplesDropped (d : Dev) (tr : Time) (n : Nat) : Dev :=
  let q := (d.slot n).queue.filter fun e => decide (dist tr e.1 ≥ 0)
  (d.setSlot n { d.slot n with queue := q }).skip ((d.slot n).queue.length - q.length)

/-- A slot of a detour at `tr`, its earlier samples dropped and RESUME acted on (R168). -/
def Dev.slotResumed (tr : Time) (d : Dev) (n : Nat) : Dev :=
  (d.samplesDropped tr n).when ((d.samplesDropped tr n).flag LOOP.SUP_CFG_RESUME) fun e =>
    e.switchSet n (e.fld (LOOP.SLOT_STATUS_CUR_SET n)) true

theorem resumeSlots_eq (d : Dev) (x : SliceDet) : d.resumeSlots x = d.each (homeSlots x.k) (Dev.slotResumed (x.tm + nsT 1500)) := rfl

/-- The words that the resume of slot `n` writes. -/
def resumeKeys (n : Nat) : List Nat := [LOOP.SUP_DETOUR_INFO, LOOP.SLOT_STATUS n]

section
variable {d d₀ e : Dev} {ns l ids : List Nat} {rs : List Record} {n : Nat}

theorem Dev.LoopRun.samplesDropped (h : d.LoopRun d₀ e ns l ids rs) (hn : n ∈ ns) (hinfo : LOOP.SUP_DETOUR_INFO ∈ l) (tr : Time) :
    d.LoopRun d₀ (e.samplesDropped tr n) ns l ids rs :=
  (h.setSlot hn _).setFld (f := LOOP.SUP_DETOUR_INFO_SKIPPED) hinfo _

theorem Dev.LoopRun.switchSet (h : d.LoopRun d₀ e ns l ids rs) (hn : n ∈ ns) (hstatus : LOOP.SLOT_STATUS n ∈ l) (set : Nat) (rebase : Bool) :
    d.LoopRun d₀ (e.switchSet n set rebase) ns l ids rs :=
  ((h.setFld (f := LOOP.SLOT_STATUS_CUR_SET n) hstatus set).setSlot hn _).recompute hn

theorem Dev.LoopRun.slotResumed (h : d.LoopRun d₀ e ns l ids rs) (hn : n ∈ ns) (hl : resumeKeys n ⊆ l) (tr : Time) :
    d.LoopRun d₀ (Dev.slotResumed tr e n) ns l ids rs := by
  obtain ⟨hinfo, hstatus⟩ : LOOP.SUP_DETOUR_INFO ∈ l ∧ LOOP.SLOT_STATUS n ∈ l := by simpa [resumeKeys] using hl
  have hdropped := h.samplesDropped hn hinfo tr
  exact hdropped.when (hdropped.switchSet hn hstatus _ true)

end

theorem slotResumed_run (d : Dev) (tr : Time) (n : Nat) : d.LoopRun d (Dev.slotResumed tr d n) [n] (resumeKeys n) [] [] :=
  (Dev.LoopRun.refl d [n] (resumeKeys n)).slotResumed List.mem_cons_self (List.Subset.refl _) tr

theorem skip_slot (d : Dev) (m n : Nat) : (d.skip m).slot n = d.slot n := Dev.setFld_slot d LOOP.SUP_DETOUR_INFO_SKIPPED _ n

/-- What a new set in use keeps of its slot. -/
theorem switchSet_slot (d : Dev) (n set : Nat) (rebase : Bool) :
    ((d.switchSet n set rebase).slot n).queue = (d.slot n).queue ∧ ((d.switchSet n set rebase).slot n).defer = (d.slot n).defer := by
  cases rebase <;> simp [Dev.switchSet, Dev.recompute, slot_setSlot_self]

theorem slotResumed_slot (d : Dev) (tr : Time) (n : Nat) :
    ((Dev.slotResumed tr d n).slot n).queue = (d.slot n).queue.filter (fun e => decide (dist tr e.1 ≥ 0)) ∧
    ((Dev.slotResumed tr d n).slot n).defer = (d.slot n).defer := by
  have hslot : (d.samplesDropped tr n).slot n =
      { d.slot n with queue := (d.slot n).queue.filter fun e => decide (dist tr e.1 ≥ 0) } :=
    (skip_slot _ _ n).trans (slot_setSlot_self d n _)
  have hdropped := And.intro (congrArg SlotSt.queue hslot) (congrArg SlotSt.defer hslot)
  obtain ⟨hqueue, hdefer⟩ := switchSet_slot (d.samplesDropped tr n) n ((d.samplesDropped tr n).fld (LOOP.SLOT_STATUS_CUR_SET n)) true
  exact Dev.when_cases (p := fun u => (u.slot n).queue = _ ∧ (u.slot n).defer = _) _ hdropped
    ⟨hqueue.trans hdropped.1, hdefer.trans hdropped.2⟩

theorem switchSet_reg (d : Dev) (n set : Nat) (rebase : Bool) (a : Nat) :
    (d.switchSet n set rebase).reg a = (d.setFld (LOOP.SLOT_STATUS_CUR_SET n) set).reg a :=
  Dev.reg_of_regs a rfl

theorem slotStatus_ne_info (j : Nat) : LOOP.SLOT_STATUS j ≠ LOOP.SUP_DETOUR_INFO := by
  simp only [LOOP.SLOT_STATUS, LOOP.SUP_DETOUR_INFO]
  omega

/-- The resume of a slot changes no slot's run. -/
theorem slotResumed_slotRun (d : Dev) (tr : Time) (n j : Nat) : (Dev.slotResumed tr d n).slotRun j = d.slotRun j := by
  have hdropped : (d.samplesDropped tr n).slotRun j = d.slotRun j := Dev.fld_of_reg (Dev.reg_setFld_ne _ (slotStatus_ne_info j) _)
  refine Dev.when_cases (p := fun u => u.slotRun j = d.slotRun j) _ hdropped
    ((Dev.fld_of_reg (switchSet_reg _ n _ true _)).trans (Eq.trans ?_ hdropped))
  exact Dev.fld_setFld_ne (d.samplesDropped tr n) (LOOP.SLOT_STATUS_CUR_SET n) (LOOP.SLOT_STATUS_RUN j) _ (by decide : 4 ≤ 5)
    (by decide : 2 < 32) (.inr (.inl (by decide : 2 < 4)))

/-- A word of neither SLOT_STATUS nor SUP_DETOUR_INFO is no word of a resume. -/
theorem resumeKeys_apart {n a : Nat} (hn : n < 32) (ha : 0x1A0000 ≤ a) (hne : a ≠ LOOP.SUP_DETOUR_INFO) : a ∉ resumeKeys n := by
  simp only [resumeKeys, List.mem_cons, List.not_mem_nil, or_false, not_or, LOOP.SLOT_STATUS]
  exact ⟨hne, by omega⟩

theorem Dev.LoopRun.resumeSlots (d : Dev) {x : SliceDet} (hk : x.k < 4) :
    d.LoopRun d (d.begun.resumeSlots x) (homeSlots x.k) lowBlocks [] [] := by
  have hlow {n : Nat} (hn : n ∈ homeSlots x.k) : resumeKeys n ⊆ lowBlocks := by
    have hlt := homeSlots_lt hk hn
    intro a ha
    simp only [resumeKeys, List.mem_cons, List.not_mem_nil, or_false, LOOP.SLOT_STATUS, LOOP.SUP_DETOUR_INFO] at ha
    rw [mem_lowBlocks]
    omega
  rw [resumeSlots_eq]
  exact (Dev.LoopRun.begun d _ _).each fun _ _ hn hrun => hrun.slotResumed hn (hlow hn) _

/-- A word of the supervision other than SUP_DETOUR_INFO stays as the slots resume. -/
theorem resumeSlots_reg (d : Dev) {x : SliceDet} (hk : x.k < 4) {a : Nat} (ha : 0x1A0000 ≤ a) (hne : a ≠ LOOP.SUP_DETOUR_INFO) :
    (d.resumeSlots x).reg a = d.reg a := by
  rw [resumeSlots_eq]
  exact each_view (fun u => u.reg a) d fun u n hn => (slotResumed_run u _ n).reg (resumeKeys_apart (homeSlots_lt hk hn) ha hne)

theorem resumeSlots_slotRun (d : Dev) (x : SliceDet) (j : Nat) : (d.resumeSlots x).slotRun j = d.slotRun j := by
  rw [resumeSlots_eq]
  exact each_view (fun u => u.slotRun j) d fun u n _ => slotResumed_slotRun u _ n j

/-- A slot of the detour, once the slots resume. -/
theorem resumeSlots_slot (d : Dev) {x : SliceDet} {j : Nat} (hj : j ∈ homeSlots x.k) :
    ((d.resumeSlots x).slot j).queue = (d.slot j).queue.filter (fun e => decide (dist (x.tm + nsT 1500) e.1 ≥ 0)) ∧
    ((d.resumeSlots x).slot j).defer = (d.slot j).defer := by
  rw [resumeSlots_eq]
  obtain ⟨e, hbefore, hafter⟩ := each_view_once (fun u => u.slot j) (homeSlots_nodup x.k) hj
    (fun u n _ hne => (slotResumed_run u (x.tm + nsT 1500) n).slot (by simpa using hne.symm)) d
  obtain ⟨hqueue, hdefer⟩ := slotResumed_slot e (x.tm + nsT 1500) j
  exact ⟨(congrArg SlotSt.queue hafter).trans (hqueue.trans (by rw [hbefore])),
    (congrArg SlotSt.defer hafter).trans (hdefer.trans (congrArg SlotSt.defer hbefore))⟩

/-- A detour at t_r whose slots wait for no commit, where no group decides: DETOUR_RESUME does only what the slots and the spare do. -/
structure Dev.ResumeDue (d : Dev) (x : SliceDet) : Prop where
  det : d.sliceDet = some x
  copied : x.copied = true
  fresh : x.resumed = false
  due : d.due (x.tm + nsT 1500) = true
  slice : x.k < 4
  slots : ∀ i : Fin 8, (d.grp (grpKey (0x18 + (8 * x.k + i.val) / 16) ((8 * x.k + i.val) % 16))).st ≠ .pending ∧
    (d.slot (8 * x.k + i.val)).defer = none
  sup : (d.grp supGroup).st ≠ .pending
  groups : ∀ g : Fin 8, d.cgOn g.val = false

theorem mem_homeSlots_iff {k j : Nat} : j ∈ homeSlots k ↔ ∃ i : Fin 8, j = 8 * k + i.val := by
  constructor
  · intro hj
    obtain ⟨i, hi, rfl⟩ := List.mem_map.mp hj
    exact ⟨⟨i, List.mem_range.mp hi⟩, rfl⟩
  · rintro ⟨i, rfl⟩
    exact mem_homeSlots k i

section
variable {d : Dev} {x : SliceDet}

/-- No commit of the slots waits. -/
theorem resumeSlots_commits (h : d.ResumeDue x) : (d.begun.resumeSlots x).slotCommits x.k = d.begun.resumeSlots x := by
  refine each_same fun j hj => Dev.when_of_false _ ?_ _
  obtain ⟨i, rfl⟩ := mem_homeSlots_iff.mp hj
  have hgrp (k : Nat) : (d.begun.resumeSlots x).grp k = d.grp k :=
    congrArg (Tab.get ({} : Grp) k) (Dev.LoopRun.resumeSlots d h.slice).groups
  rw [hgrp, decide_eq_false (h.slots i).1, Bool.false_and]

theorem resumeSlots_due (h : d.ResumeDue x) : (d.begun.resumeSlots x).each (homeSlots x.k) Dev.slotDue = d.begun.resumeSlots x := by
  refine each_same fun j hj => ?_
  obtain ⟨i, rfl⟩ := mem_homeSlots_iff.mp hj
  exact slotDue_settled ((resumeSlots_slot d.begun hj).2.trans (h.slots i).2)

/-- Where no group of the loops is on, what leaves their words leaves them off. -/
theorem cgOn_of_reg {d e : Dev} (h : ∀ g : Fin 8, d.cgOn g.val = false) (hreg : ∀ g : Fin 8, e.reg (LOOP.CG_CFG g.val) = d.reg (LOOP.CG_CFG g.val))
    (g : Fin 8) : e.cgOn g.val = false := by
  rw [← h g, Dev.cgOn, Dev.cgOn, Dev.flag, Dev.flag, Dev.fld_of_reg (g := LOOP.CG_CFG_ENABLE g.val) (hreg g)]

theorem cgCfg_ge (g : Nat) : 0x1A0000 ≤ LOOP.CG_CFG g := by
  unfold LOOP.CG_CFG
  omega

/-- The slots of slice `k` that run. -/
def Dev.running (d : Dev) (k : Nat) : List Nat := (homeSlots k).filter fun j => decide (d.slotRun j = 1) || decide (d.slotRun j = 3)

theorem resumeSlots_running : (d.begun.resumeSlots x).running x.k = d.running x.k := by
  refine List.filter_congr fun j hj => ?_
  rw [resumeSlots_slotRun d.begun x j]
  rfl

end

section
variable {d : Dev} {x : SliceDet}

/-- The detour goes on: the spare evaluates from now on for the slots that run. -/
def Dev.spareEvaluates (d : Dev) (x : SliceDet) (left : List Nat) : Dev := { d with sliceDet := some { x with resumed := true, left := left } }

/-- No detour in progress. -/
def Dev.withoutDetour (d : Dev) : Dev := { d with sliceDet := none }

theorem withoutDetour_reg (d : Dev) (a : Nat) : d.withoutDetour.reg a = d.reg a := rfl

/-- A detour's end, before its record. -/
def Dev.detourShown (d : Dev) : Dev := ((d.setFld LOOP.SUP_STATUS_DETOURING 0).setFld LOOP.SUP_STATUS_DETOUR_DONE 1).withoutDetour

theorem detourEnd_eq (d : Dev) : d.detourEnd = d.detourShown.sysRec LOOP.SUP_STATUS (d.reg LOOP.SUP_STATUS) := rfl

theorem detourShown_fld (d : Dev) (f : Fld) :
    d.detourShown.fld f = ((d.setFld LOOP.SUP_STATUS_DETOURING 0).setFld LOOP.SUP_STATUS_DETOUR_DONE 1).fld f :=
  Dev.fld_of_reg (withoutDetour_reg _ _)

theorem detourShown_reg (d : Dev) {a : Nat} (ha : a ≠ LOOP.SUP_STATUS) : d.detourShown.reg a = d.reg a := by
  exact (withoutDetour_reg _ a).trans ((Dev.reg_setFld_ne _ ha _).trans (Dev.reg_setFld_ne _ ha _))

theorem detourShown_flags (d : Dev) :
    d.detourShown.flag LOOP.SUP_STATUS_DETOURING = false ∧ d.detourShown.flag LOOP.SUP_STATUS_DETOUR_DONE = true := by
  refine ⟨?_, ?_⟩
  · rw [Dev.flag, detourShown_fld, Dev.fld_setFld_ne _ LOOP.SUP_STATUS_DETOUR_DONE LOOP.SUP_STATUS_DETOURING _ (by decide) (by decide)
      (by decide)]
    exact Dev.flag_setFld_b2n d LOOP.SUP_STATUS_DETOURING false (by decide) (by decide)
  · rw [Dev.flag, detourShown_fld]
    exact Dev.flag_setFld_one _ LOOP.SUP_STATUS_DETOUR_DONE (by decide) (by decide)

theorem Dev.LoopRun.detourShown {d d₀ e : Dev} {ns l ids : List Nat} {rs : List Record} (h : d.LoopRun d₀ e ns l ids rs)
    (hl : LOOP.SUP_STATUS ∈ l) : d.LoopRun { d₀ with sliceDet := none } e.detourShown ns l ids rs :=
  ((h.setFld (f := LOOP.SUP_STATUS_DETOURING) hl 0).setFld (f := LOOP.SUP_STATUS_DETOUR_DONE) hl 1).setDet none

theorem spareEvaluates_slot (d : Dev) (x : SliceDet) (left : List Nat) (n : Nat) : (d.spareEvaluates x left).slot n = d.slot n := rfl

theorem spareEvaluates_reg (d : Dev) (x : SliceDet) (left : List Nat) (a : Nat) : (d.spareEvaluates x left).reg a = d.reg a := rfl

theorem Dev.LoopRun.spareEvaluates {d d₀ e : Dev} {ns l ids : List Nat} {rs : List Record} (h : d.LoopRun d₀ e ns l ids rs)
    (x : SliceDet) (left : List Nat) :
    d.LoopRun { d₀ with sliceDet := some { x with resumed := true, left := left } } (e.spareEvaluates x left) ns l ids rs :=
  h.setDet _

/-- The device after DETOUR_RESUME at t_r, where no slot runs that would wait for the spare. -/
def Dev.detourEnded (d : Dev) (x : SliceDet) : Dev := (d.begun.resumeSlots x).detourEnd

/-- The device after DETOUR_RESUME at t_r, where some slots run. -/
def Dev.detourResumed (d : Dev) (x : SliceDet) : Dev := (d.begun.resumeSlots x).spareEvaluates x (d.running x.k)

theorem detourOpen_ended (hnone : d.running x.k = []) : (d.begun.resumeSlots x).detourOpen x = d.detourEnded x :=
  if_pos (List.isEmpty_iff.mpr (resumeSlots_running.trans hnone))

theorem detourOpen_resumed (hsome : d.running x.k ≠ []) :
    (d.begun.resumeSlots x).detourOpen x = d.detourResumed x := by
  have hleft := resumeSlots_running (d := d) (x := x)
  rw [Dev.detourResumed, ← hleft]
  exact if_neg (by rw [List.isEmpty_iff]; exact fun hnil => hsome (hleft.symm.trans hnil))

/-- Where the groups stay off, DETOUR_RESUME at t_r opens the detour and does no more. -/
theorem exec_detourResume {s : State} {e : Dev} (h : s.dev.ResumeDue x) (hopen : (s.dev.begun.resumeSlots x).detourOpen x = e)
    (hoff : ∀ g : Fin 8, e.cgOn g.val = false) (hgroups : e.groups = s.dev.groups) :
    exec .detourResume s = .next { s with dev := settle e } := by
  have hgo : (x.copied && !x.resumed && s.dev.begun.due (x.tm + nsT 1500)) = true := by
    rw [h.copied, h.fresh, show s.dev.begun.due (x.tm + nsT 1500) = true from h.due]
    rfl
  have hstays : Dev.applyStopped s.dev.begun e supGroup = e := by
    have hgrp : e.grp supGroup = s.dev.grp supGroup := congrArg (Tab.get ({} : Grp) supGroup) hgroups
    refine Dev.when_of_false _ ?_ _
    rw [hgrp, decide_eq_false h.sup, Bool.and_false, Bool.false_and]
  refine congrArg (fun d => Host.Outcome.next { s with dev := settle d }) ?_
  dsimp only
  split
  case h_1 hnone => exact absurd (h.det.symm.trans hnone) (by simp)
  case h_2 y hsome =>
    obtain rfl : x = y := Option.some.inj (h.det.symm.trans hsome)
    refine (Dev.when_of_true s.dev.begun hgo _).trans ?_
    rw [resumeSlots_commits h, resumeSlots_due h, hopen, runGroupsOf_off hoff, hstays]

theorem Dev.LoopRun.detourEnded (hk : x.k < 4) : d.LoopRun { d with sliceDet := none } (d.detourEnded x) (homeSlots x.k) lowBlocks []
    [wordRecord d.nowNs .system 0 0x0600 LOOP.SUP_STATUS ((d.begun.resumeSlots x).detourShown.reg LOOP.SUP_STATUS)
      (d.reg LOOP.SUP_STATUS)] := by
  have hold : (d.begun.resumeSlots x).reg LOOP.SUP_STATUS = d.reg LOOP.SUP_STATUS :=
    resumeSlots_reg d.begun hk (by decide) (by decide)
  rw [Dev.detourEnded, detourEnd_eq, hold]
  exact ((Dev.LoopRun.resumeSlots d hk).detourShown supStatus_low).sysRec LOOP.SUP_STATUS _

theorem detourEnded_reg (d : Dev) (x : SliceDet) (a : Nat) : (d.detourEnded x).reg a = (d.begun.resumeSlots x).detourShown.reg a := by
  rw [Dev.detourEnded, detourEnd_eq]
  exact Dev.sysRec_reg _ _ _ _

theorem Dev.LoopRun.detourResumed (hk : x.k < 4) :
    d.LoopRun { d with sliceDet := some { x with resumed := true, left := d.running x.k } } (d.detourResumed x) (homeSlots x.k) lowBlocks
      [] [] :=
  (Dev.LoopRun.resumeSlots d hk).spareEvaluates x _

/-- The end of a detour that no slot waits for, at the end of its command. -/
theorem settle_detourEnded (hk : x.k < 4) :
    let e := settle (d.detourEnded x)
    e.sliceDet = none ∧ e.flag LOOP.SUP_STATUS_DETOURING = false ∧ e.flag LOOP.SUP_STATUS_DETOUR_DONE = true ∧
    d.oneRecord e (wordRecord d.nowNs .system 0 0x0600 LOOP.SUP_STATUS (e.reg LOOP.SUP_STATUS) (d.reg LOOP.SUP_STATUS)) ∧
    { d with slots := e.slots, sliceDet := none }.keepsUnits e := by
  intro e
  have hrun := Dev.LoopRun.detourEnded (d := d) hk
  obtain ⟨hdetouring, hdone⟩ := detourShown_flags (d.begun.resumeSlots x)
  have hfld {f : Fld} (hf : f.addr / 0x10000 = 0x1A) : e.fld f = (d.begun.resumeSlots x).detourShown.fld f :=
    (settle_supFld _ hf).trans (Dev.fld_of_reg (detourEnded_reg d x f.addr))
  refine ⟨(settle_sliceDet _).trans hrun.sliceDet, ?_, ?_, ?_, hrun.settle_units lowKeys_lowBlocks⟩
  · rwa [Dev.flag, hfld (f := LOOP.SUP_STATUS_DETOURING) (by decide)]
  · rwa [Dev.flag, hfld (f := LOOP.SUP_STATUS_DETOUR_DONE) (by decide)]
  · rw [settle_supReg (d.detourEnded x) (k := LOOP.SUP_STATUS) (by decide), detourEnded_reg]
    exact hrun.settle_oneRecord lowKeys_lowBlocks

theorem detourResumed_queue (d : Dev) (x : SliceDet) (i : Fin 8) : ((d.detourResumed x).slot (8 * x.k + i.val)).queue =
    (d.slot (8 * x.k + i.val)).queue.filter fun p => decide (dist (x.tm + nsT 1500) p.1 ≥ 0) :=
  (congrArg SlotSt.queue (spareEvaluates_slot _ x _ _)).trans (resumeSlots_slot d.begun (mem_homeSlots x.k i)).1

theorem settle_detourResumed_det (hk : x.k < 4) :
    (settle (d.detourResumed x)).sliceDet = some { x with resumed := true, left := d.running x.k } :=
  (settle_sliceDet _).trans (Dev.LoopRun.detourResumed hk).sliceDet

/-- The spare evaluating for the running slots, at the end of the command. -/
theorem settle_detourResumed (hk : x.k < 4) :
    let e := settle (d.detourResumed x)
    e.sliceDet = some { x with resumed := true, left := d.running x.k } ∧
    (∀ i : Fin 8, (e.slot (8 * x.k + i.val)).queue =
      (d.slot (8 * x.k + i.val)).queue.filter fun p => decide (dist (x.tm + nsT 1500) p.1 ≥ 0)) ∧
    { d with slots := e.slots, sliceDet := e.sliceDet }.keepsUnits e ∧ d.noRecord e := by
  have hrun := Dev.LoopRun.detourResumed (d := d) hk
  refine ⟨settle_detourResumed_det hk, fun i => ?_, ?_, hrun.settle_noRecord lowKeys_lowBlocks⟩
  · exact (congrArg SlotSt.queue (settle_slot _ _)).trans (detourResumed_queue d x i)
  · rw [settle_detourResumed_det hk]
    exact hrun.settle_units lowKeys_lowBlocks
theorem cgCfg_ne (g : Fin 8) : LOOP.CG_CFG g.val ≠ LOOP.SUP_DETOUR_INFO ∧ LOOP.CG_CFG g.val ≠ LOOP.SUP_STATUS := by
  simp only [LOOP.CG_CFG, LOOP.SUP_DETOUR_INFO, LOOP.SUP_STATUS]
  omega

theorem exec_detourEnded {s : State} (h : s.dev.ResumeDue x) (hnone : s.dev.running x.k = []) :
    exec .detourResume s = .next { s with dev := settle (s.dev.detourEnded x) } := by
  refine exec_detourResume h (detourOpen_ended hnone) (cgOn_of_reg h.groups fun g => ?_) (Dev.LoopRun.detourEnded h.slice).groups
  exact (detourEnded_reg _ x _).trans ((detourShown_reg _ (cgCfg_ne g).2).trans
    (resumeSlots_reg s.dev.begun h.slice (cgCfg_ge g.val) (cgCfg_ne g).1))

theorem exec_detourResumed {s : State} (h : s.dev.ResumeDue x) (hsome : s.dev.running x.k ≠ []) :
    exec .detourResume s = .next { s with dev := settle (s.dev.detourResumed x) } := by
  refine exec_detourResume h (detourOpen_resumed hsome) (cgOn_of_reg h.groups fun g => ?_)
    (Dev.LoopRun.detourResumed h.slice).groups
  exact (spareEvaluates_reg _ x _ _).trans (resumeSlots_reg s.dev.begun h.slice (cgCfg_ge g.val) (cgCfg_ne g).1)

/-- No slot of the slice runs. -/
theorem running_nil {k : Nat} (h : ∀ i : Fin 8, d.slotRun (8 * k + i.val) ≠ 1 ∧ d.slotRun (8 * k + i.val) ≠ 3) : d.running k = [] := by
  refine List.filter_eq_nil_iff.mpr fun j hj => ?_
  obtain ⟨i, rfl⟩ := mem_homeSlots_iff.mp hj
  simp [h i]

theorem running_ne_nil {k : Nat} (h : ∃ i : Fin 8, d.slotRun (8 * k + i.val) = 1) : d.running k ≠ [] := by
  obtain ⟨i, hi⟩ := h
  exact List.ne_nil_of_mem (List.mem_filter.mpr ⟨mem_homeSlots k i, by simp [hi]⟩)

end

/-! ### What the decisions of the groups leave (R152, R154) -/

/-- From `d` to `e` no slot changed, none runs otherwise, no detour began or ended, and no word of the supervision changed. -/
structure Dev.Decided (d e : Dev) : Prop where
  slots : e.slots = d.slots
  det : e.sliceDet = d.sliceDet
  words : ∀ a, LOOP.SUP_CFG ≤ a → a < 0x200000 → e.reg a = d.reg a
  runs : ∀ j < 32, e.slotRun j = d.slotRun j

namespace Dev.Decided

variable {d e f : Dev}

theorem refl (d : Dev) : d.Decided d := ⟨rfl, rfl, fun _ _ _ => rfl, fun _ _ => rfl⟩

theorem trans (h : d.Decided e) (h' : e.Decided f) : d.Decided f :=
  ⟨h'.slots.trans h.slots, h'.det.trans h.det, fun a hlo hhi => (h'.words a hlo hhi).trans (h.words a hlo hhi),
    fun j hj => (h'.runs j hj).trans (h.runs j hj)⟩

theorem of_regs (hslots : e.slots = d.slots) (hdet : e.sliceDet = d.sliceDet) (hregs : e.regs = d.regs) : d.Decided e :=
  ⟨hslots, hdet, fun a _ _ => Dev.reg_of_regs a hregs, fun j _ => Dev.fld_of_regs (LOOP.SLOT_STATUS_RUN j) hregs⟩

/-- A word of neither the supervision nor a slot's status is written. -/
theorem setReg (d : Dev) {a : Nat} (ha : a < LOOP.SUP_CFG ∨ 0x200000 ≤ a) (hs : ∀ j < 32, a ≠ LOOP.SLOT_STATUS j) (v : Word) :
    d.Decided (d.setReg a v) :=
  ⟨rfl, rfl, fun b hlo hhi => Dev.reg_setReg_ne d (by omega) v,
    fun j hj => Dev.fld_of_reg (g := LOOP.SLOT_STATUS_RUN j) (Dev.reg_setReg_ne d (hs j hj).symm v)⟩

theorem setReg_high (d : Dev) {a : Nat} (ha : 0x200000 ≤ a) (v : Word) : d.Decided (d.setReg a v) :=
  setReg d (.inr ha) (fun j hj => by simp only [LOOP.SLOT_STATUS]; omega) v

/-- A word that shows the decision of a group is written. -/
theorem setReg_group (d : Dev) {g a : Nat} (hg : g < 8) (ha : a = LOOP.CG_STATUS g ∨ a = LOOP.CG_OUT g) (v : Word) :
    d.Decided (d.setReg a v) := by
  simp only [LOOP.CG_STATUS, LOOP.CG_OUT] at ha
  refine setReg d (.inl (by simp only [LOOP.SUP_CFG]; omega)) (fun j hj => ?_) v
  simp only [LOOP.SLOT_STATUS]
  omega

/-- WINNER of a slot is written. -/
theorem setWinner (d : Dev) {n : Nat} (hn : n < 32) (v : Nat) : d.Decided (d.setFld (LOOP.SLOT_STATUS_WINNER n) v) := by
  refine ⟨rfl, rfl, fun a hlo _ => Dev.reg_setFld_ne d ?_ v, fun j _ => ?_⟩
  · simp only [LOOP.SUP_CFG] at hlo
    simp only [LOOP.SLOT_STATUS_WINNER, LOOP.SLOT_STATUS]
    omega
  · exact Dev.fld_setFld_ne d (LOOP.SLOT_STATUS_WINNER n) (LOOP.SLOT_STATUS_RUN j) v (by decide : 10 ≤ 10) (by decide : 2 < 32)
      (.inr (.inl (by decide : 2 < 10)))

theorem when (h : d.Decided e) {c : Bool} {f : Dev → Dev} (hf : d.Decided (f e)) : d.Decided (e.when c f) :=
  Dev.when_cases (p := fun u => d.Decided u) c h hf

theorem foldl (h : d.Decided e) {l : List Nat} {f : Dev → Nat → Dev} (hf : ∀ u : Dev, ∀ n ∈ l, u.Decided (f u n)) :
    d.Decided (l.foldl f e) :=
  List.foldlRecOn (motive := fun u : Dev => d.Decided u) l f h fun u hu n hn => hu.trans (hf u n hn)

theorem each (h : d.Decided e) {l : List Nat} {f : Dev → Nat → Dev} (hf : ∀ u : Dev, ∀ n ∈ l, u.Decided (f u n)) : d.Decided (e.each l f) :=
  h.foldl hf

theorem setCgrp (d : Dev) (g : Nat) (x : GroupSt) : d.Decided (d.setCgrp g x) := of_regs rfl rfl rfl

theorem cadence (d : Dev) (kind index : Nat) (t : Time) : d.Decided (d.cadence kind index t) := by
  refine (refl d).each fun u n _ => ?_
  dsimp only
  split
  · exact of_regs rfl rfl rfl
  · exact refl u

/-- A word of the rails is written. -/
theorem setRailNum (d : Dev) {a : Nat} (ha : (∃ r, a = PHASE.PH_RAIL_VALUE r) ∨ ∃ p, a = PHASE.PH_TRIM p) (n : Nat) :
    d.Decided (d.setNum a n) := by
  refine setReg_high d ?_ _
  rcases ha with ⟨r, rfl⟩ | ⟨p, rfl⟩
  · simp only [PHASE.PH_RAIL_VALUE]; omega
  · simp only [PHASE.PH_TRIM]; omega

theorem deliverRail (d : Dev) (r : Nat) (v : UpdVal) : d.Decided (d.deliverRail r v) := by
  refine (refl d).when ?_
  dsimp only
  refine Dev.Decided.foldl (Dev.Decided.each (setRailNum d (.inl ⟨r, rfl⟩) v.num) fun u p _ => ?_) fun u p _ => ?_
  · exact of_regs rfl rfl rfl
  · exact (setRailNum u (.inr ⟨p, rfl⟩) _).trans (of_regs rfl rfl rfl)

theorem deliver (d : Dev) (target index : Nat) (ontime : Bool) (u : Int) : d.Decided (d.deliver target index ontime u) := by
  unfold Dev.deliver
  dsimp only
  split
  · exact of_regs rfl rfl rfl
  · exact deliverRail d _ _
  · exact of_regs rfl rfl rfl
  · exact refl d

theorem decideAt (d : Dev) {g : Nat} (hg : g < 8) (t : Time) : d.Decided (d.decideAt g t) := by
  have hshown (u : Dev) (f : Fld) (v : Nat) (hf : f.addr = LOOP.CG_STATUS g) : u.Decided (u.setFld f v) := setReg_group u hg (.inl hf) _
  unfold Dev.decideAt
  dsimp only
  split
  · refine Dev.Decided.trans ?_ (hshown _ (LOOP.CG_STATUS_VALID g) _ rfl)
    exact (setCgrp d g _).each fun u n hn => setWinner u (List.mem_range.mp (List.mem_of_mem_filter hn)) _
  · refine Dev.Decided.trans ?_ ((deliver _ _ _ _ _).trans (cadence _ _ _ _))
    refine Dev.Decided.trans ?_ (setReg_group _ hg (.inr rfl) _)
    refine Dev.Decided.trans ?_ ((hshown _ (LOOP.CG_STATUS_VALID g) 1 rfl).trans (hshown _ (LOOP.CG_STATUS_WINNER g) _ rfl))
    exact (setCgrp d g _).each fun u n hn => setWinner u (List.mem_range.mp (List.mem_of_mem_filter hn)) _

theorem runGroup (d : Dev) {g : Nat} (hg : g < 8) (fuel : Nat) : d.Decided (d.runGroup g fuel) := by
  induction fuel generalizing d with
  | zero => exact refl d
  | succ fuel ih =>
    rw [Dev.runGroup]
    split
    · exact refl d
    · split
      · exact refl d
      · exact ((setCgrp d g _).trans (decideAt _ hg _)).trans (ih _)

theorem runGroupsOf (d : Dev) (ns : List Nat) : d.Decided (d.runGroupsOf ns) :=
  (refl d).each fun u _ hg => (refl u).when (runGroup u (List.mem_range.mp hg) 64)

end Dev.Decided

/-! ### A mismatch (R166, R167, R169) -/

/-- A mismatch counted, with its instant. -/
def Dev.mismatchCounted (d : Dev) (t : Time) : Dev := (d.incNum LOOP.SUP_MISMATCHES).setReg64 LOOP.SUP_DETOUR_T t

/-- Slices `k` and `home` shown FAULTY. -/
def Dev.slicesFaulty (d : Dev) (k home : Nat) : Dev :=
  d.setFld LOOP.SUP_STATUS_FAULTY (putBits (putBits (d.fld LOOP.SUP_STATUS_FAULTY) k k 1) home home 1)

/-- A slot whose latest output is of no use from `t` on (R168). -/
def Dev.slotGap (t : Time) (d : Dev) (n : Nat) : Dev := d.setSlot n { d.slot n with gap := some t, spareTo := none }

/-- A mismatch of slice `k` at `t` noted, for the slots of slice `home`. -/
def Dev.mismatchNoted (d : Dev) (k home : Nat) (t : Time) : Dev :=
  ((d.mismatchCounted t).slicesFaulty k home).each (homeSlots home) (Dev.slotGap t)

/-- A detour in progress. -/
def Dev.withDetour (d : Dev) (x : SliceDet) : Dev := { d with sliceDet := some x }

/-- A detour of slice `k` begun. -/
def Dev.detourBegun (d : Dev) (k : Nat) (t : Time) : Dev :=
  (((d.setFld LOOP.SUP_STATUS_DETOURING 1).setNum LOOP.SUP_DETOUR_INFO 0).withDetour { k := k, tm := t }).skip 1

/-- The slots of slice `home` stopped by slice `k`. -/
def Dev.slotsStopped (d : Dev) (k home : Nat) : Dev := d.each (homeSlots home) fun d n => d.slotStop k n

/-- A mismatch of slice `k` told: event 10, source 7, and the record of SUP_STATUS. -/
def Dev.mismatchTold (d : Dev) (k : Nat) (old : Word) : Dev := ((d.raise 10).report 0x07 k).supRec old

theorem mismatch_detour {d : Dev} {n : Nat} {t : Time} (hok : d.sliceDetourOk (d.evalSlice n t) = true) : d.mismatch n t =
    (((d.mismatchNoted (d.evalSlice n t) (n / 8) t).detourBegun (d.evalSlice n t) t).mismatchTold (d.evalSlice n t)
      (d.reg LOOP.SUP_STATUS)).runGroupsOf (homeSlots (n / 8)) := by
  exact congrArg (fun e : Dev => (e.mismatchTold (d.evalSlice n t) (d.reg LOOP.SUP_STATUS)).runGroupsOf (homeSlots (n / 8))) (if_pos hok)

/-! #### What a mismatch leaves -/

/-- The words that a mismatch writes. -/
def mismatchKeys : List Nat := [LOOP.SUP_MISMATCHES, LOOP.SUP_DETOUR_T, LOOP.SUP_DETOUR_T + 4, LOOP.SUP_STATUS, LOOP.SUP_DETOUR_INFO]

section
variable {d d₀ e : Dev} {ns l ids : List Nat} {rs : List Record}

theorem Dev.LoopRun.mismatchNoted (h : d.LoopRun d₀ e ns l ids rs) (hl : mismatchKeys ⊆ l) {home : Nat} (hns : homeSlots home ⊆ ns)
    (k : Nat) (t : Time) : d.LoopRun d₀ (e.mismatchNoted k home t) ns l ids rs := by
  simp only [mismatchKeys, List.cons_subset] at hl
  obtain ⟨hcount, hlo, hhi, hstatus, -⟩ := hl
  have hcounted : d.LoopRun d₀ (e.mismatchCounted t) ns l ids rs := (h.setNum hcount _).setReg64 hlo hhi t
  have hfaulty : d.LoopRun d₀ ((e.mismatchCounted t).slicesFaulty k home) ns l ids rs :=
    hcounted.setFld (f := LOOP.SUP_STATUS_FAULTY) hstatus _
  exact hfaulty.each fun _ _ hn hrun => hrun.setSlot (hns hn) _

theorem Dev.LoopRun.withDetour (h : d.LoopRun d₀ e ns l ids rs) (x : SliceDet) : d.LoopRun (d₀.withDetour x) (e.withDetour x) ns l ids rs :=
  h.setDet _

theorem Dev.LoopRun.detourBegun (h : d.LoopRun d₀ e ns l ids rs) (hl : mismatchKeys ⊆ l) (k : Nat) (t : Time) :
    d.LoopRun (d₀.withDetour { k := k, tm := t }) (e.detourBegun k t) ns l ids rs := by
  simp only [mismatchKeys, List.cons_subset] at hl
  obtain ⟨-, -, -, hstatus, hinfo, -⟩ := hl
  have hshown := ((h.setFld (f := LOOP.SUP_STATUS_DETOURING) hstatus 1).setNum hinfo 0).withDetour { k := k, tm := t }
  exact hshown.setFld (f := LOOP.SUP_DETOUR_INFO_SKIPPED) hinfo _

theorem Dev.LoopRun.slotStop (h : d.LoopRun d₀ e ns l ids rs) {n : Nat} (hn : n ∈ ns) (hl : LOOP.SLOT_STATUS n ∈ l) (k : Nat) :
    d.LoopRun d₀ (e.slotStop k n) ns l ids rs := by
  have hheld := h.setSlot hn { e.slot n with held := some k }
  exact hheld.when (f := fun u => (u.setSlot n { u.slot n with queue := [] }).setFld (LOOP.SLOT_STATUS_RUN n) 4)
    ((hheld.setSlot hn _).setFld (f := LOOP.SLOT_STATUS_RUN n) hl 4)

/-- A source reported. -/
def Dev.reported (d : Dev) (src unit : Nat) (stamp : DWord) : Dev := { d with faults := d.faults ++ [{ src := src, unit := unit, stamp := stamp }] }

theorem Dev.LoopRun.mismatchTold (h : d.LoopRun d₀ e ns l [] []) (k : Nat) (old : Word) :
    d.LoopRun (d₀.reported 0x07 k d.nowNs) (e.mismatchTold k old) ns l [10]
      [wordRecord d.nowNs .system 0 0x0600 LOOP.SUP_STATUS (e.reg LOOP.SUP_STATUS) old] :=
  ((h.raise 10).report 0x07 k).sysRec LOOP.SUP_STATUS old

end

/-! #### The words of a mismatch -/

/-- The mismatch of slice `k` at `t`, in a slot of slice `home`, is counted and shown in `e`. -/
structure Dev.MismatchShown (d e : Dev) (k home : Nat) (t : Time) : Prop where
  count : e.num LOOP.SUP_MISMATCHES = satInc 0xFFFFFFFF (d.num LOOP.SUP_MISMATCHES)
  instant : e.reg64 LOOP.SUP_DETOUR_T = t
  slice : bitOf (e.fld LOOP.SUP_STATUS_FAULTY) k = true
  home : bitOf (e.fld LOOP.SUP_STATUS_FAULTY) home = true

/-- What leaves the words of a mismatch leaves it shown. -/
theorem Dev.MismatchShown.of_words {d e f : Dev} {k home : Nat} {t : Time} (h : d.MismatchShown e k home t)
    (hreg : ∀ a ∈ [LOOP.SUP_MISMATCHES, LOOP.SUP_DETOUR_T, LOOP.SUP_DETOUR_T + 4], f.reg a = e.reg a)
    (hfld : f.fld LOOP.SUP_STATUS_FAULTY = e.fld LOOP.SUP_STATUS_FAULTY) : d.MismatchShown f k home t := by
  simp only [List.forall_mem_cons] at hreg
  obtain ⟨hcount, hlo, hhi, -⟩ := hreg
  refine ⟨(congrArg BitVec.toNat hcount).trans h.count, ?_, ?_, ?_⟩
  · rw [Dev.reg64, hlo, hhi]
    exact h.instant
  · rw [hfld]
    exact h.slice
  · rw [hfld]
    exact h.home

theorem mismatchCounted_shown (d : Dev) (t : Time) :
    (d.mismatchCounted t).num LOOP.SUP_MISMATCHES = satInc 0xFFFFFFFF (d.num LOOP.SUP_MISMATCHES) ∧
    (d.mismatchCounted t).reg64 LOOP.SUP_DETOUR_T = t := by
  refine ⟨?_, setReg64_reg64 _ _ t⟩
  refine (congrArg BitVec.toNat ?_).trans (num_incNum d LOOP.SUP_MISMATCHES)
  exact (Dev.reg_setReg_ne _ (by decide) _).trans (Dev.reg_setReg_ne _ (by decide) _)

theorem slicesFaulty_bits (d : Dev) {k home : Nat} (hk : k < 5) (hh : home < 5) :
    bitOf ((d.slicesFaulty k home).fld LOOP.SUP_STATUS_FAULTY) k = true ∧
    bitOf ((d.slicesFaulty k home).fld LOOP.SUP_STATUS_FAULTY) home = true := by
  have hbit {i : Nat} (hi : i < 5) := Dev.fldBit_setFld d LOOP.SUP_STATUS_FAULTY
    (putBits (putBits (d.fld LOOP.SUP_STATUS_FAULTY) k k 1) home home 1) (by decide) (by decide) hi
  refine ⟨(hbit hk).trans ?_, (hbit hh).trans (bitOf_putBits_self _ _ _)⟩
  by_cases heq : k = home
  · rw [heq]
    exact bitOf_putBits_self _ _ _
  · rw [bitOf_putBits_ne heq]
    exact bitOf_putBits_self _ _ _

theorem slotGap_reg (d : Dev) (t : Time) (l : List Nat) (a : Nat) : (d.each l (Dev.slotGap t)).reg a = d.reg a :=
  each_view (fun u => u.reg a) d fun u n _ => Dev.setSlot_reg u n _ a

theorem mismatchNoted_shown (d : Dev) {k home : Nat} (hk : k < 5) (hh : home < 5) (t : Time) :
    d.MismatchShown (d.mismatchNoted k home t) k home t := by
  obtain ⟨hcount, hinstant⟩ := mismatchCounted_shown d t
  obtain ⟨hslice, hhome⟩ := slicesFaulty_bits (d.mismatchCounted t) hk hh
  have hword {a : Nat} (ha : a ≠ LOOP.SUP_STATUS) : ((d.mismatchCounted t).slicesFaulty k home).reg a = (d.mismatchCounted t).reg a :=
    Dev.reg_setFld_ne _ ha _
  have hfaulty : d.MismatchShown ((d.mismatchCounted t).slicesFaulty k home) k home t := by
    refine ⟨(congrArg BitVec.toNat (hword (by decide))).trans hcount, ?_, hslice, hhome⟩
    rw [Dev.reg64, hword (by decide), hword (by decide)]
    exact hinstant
  exact hfaulty.of_words (fun a _ => slotGap_reg _ t _ a) (Dev.fld_of_reg (slotGap_reg _ t _ _))

/-! #### The two ends of a mismatch -/

theorem withDetour_reg (d : Dev) (x : SliceDet) (a : Nat) : (d.withDetour x).reg a = d.reg a := rfl

/-- A detour begun keeps the mismatch shown, and shows itself. -/
theorem detourBegun_shown {d e : Dev} {k home : Nat} {t : Time} (h : d.MismatchShown e k home t) (j : Nat) :
    d.MismatchShown (e.detourBegun j t) k home t ∧ (e.detourBegun j t).flag LOOP.SUP_STATUS_DETOURING = true := by
  have hinfo {a : Nat} (ha : a ≠ LOOP.SUP_DETOUR_INFO) : (e.detourBegun j t).reg a = (e.setFld LOOP.SUP_STATUS_DETOURING 1).reg a :=
    (Dev.reg_setFld_ne _ ha _).trans ((withDetour_reg _ _ a).trans (Dev.reg_setReg_ne _ ha _))
  have hstatus {f : Fld} (hf : f.addr = LOOP.SUP_STATUS) : (e.detourBegun j t).fld f = (e.setFld LOOP.SUP_STATUS_DETOURING 1).fld f :=
    Dev.fld_of_reg (hinfo (by rw [hf]; decide))
  refine ⟨h.of_words (fun a ha => ?_) ?_, ?_⟩
  · have hne : a ≠ LOOP.SUP_DETOUR_INFO ∧ a ≠ LOOP.SUP_STATUS := by
      simp only [List.mem_cons, List.not_mem_nil, or_false] at ha
      rcases ha with rfl | rfl | rfl <;> decide
    exact (hinfo hne.1).trans (Dev.reg_setFld_ne _ hne.2 _)
  · exact (hstatus rfl).trans (Dev.fld_setFld_ne e LOOP.SUP_STATUS_DETOURING LOOP.SUP_STATUS_FAULTY 1 (by decide) (by decide) (by decide))
  · rw [Dev.flag, hstatus (f := LOOP.SUP_STATUS_DETOURING) rfl]
    exact Dev.flag_setFld_one e LOOP.SUP_STATUS_DETOURING (by decide) (by decide)

theorem slotStop_run (d : Dev) (k n : Nat) : d.LoopRun d (d.slotStop k n) [n] (startKeys n) [] [] :=
  (Dev.LoopRun.refl d [n] (startKeys n)).slotStop List.mem_cons_self List.mem_cons_self k

/-- Slots that stop keep the words of the supervision. -/
theorem slotsStopped_reg (d : Dev) (k : Nat) {home a : Nat} (hh : home < 4) (ha : 0x1A0000 ≤ a) :
    (d.slotsStopped k home).reg a = d.reg a := by
  refine each_view (fun u => u.reg a) d fun u n hn => ?_
  have hlt := homeSlots_lt hh hn
  have hne : a ∉ [LOOP.SLOT_STATUS n] := by
    simp only [List.mem_singleton, LOOP.SLOT_STATUS]
    omega
  exact ((Dev.LoopRun.refl u [n] [LOOP.SLOT_STATUS n]).slotStop List.mem_cons_self List.mem_cons_self k).reg hne

theorem slotsStopped_sliceDet (d : Dev) (k home : Nat) : (d.slotsStopped k home).sliceDet = d.sliceDet :=
  each_view (fun u => u.sliceDet) d fun u n _ => (slotStop_run u k n).sliceDet

/-- A slot held by a slice. -/
def Dev.slotHeld (d : Dev) (k n : Nat) : Dev := d.setSlot n { d.slot n with held := some k }

/-- A slot that waits without samples. -/
def Dev.slotIdled (d : Dev) (n : Nat) : Dev := (d.setSlot n { d.slot n with queue := [] }).setFld (LOOP.SLOT_STATUS_RUN n) 4

theorem slotStop_eq (d : Dev) (k n : Nat) :
    d.slotStop k n = (d.slotHeld k n).when (decide ((d.slotHeld k n).slotMode n ≠ 0)) fun e => e.slotIdled n := rfl

theorem slotIdled_slot (d : Dev) (n : Nat) : (d.slotIdled n).slot n = { d.slot n with queue := [] } := by
  rw [Dev.slotIdled, Dev.setFld_slot, slot_setSlot_self]

theorem slotIdled_slotRun (d : Dev) (n : Nat) : (d.slotIdled n).slotRun n = 4 :=
  Dev.fld_setFld_of_lt _ (LOOP.SLOT_STATUS_RUN n) 4 (by decide : 0 ≤ 2) (by decide : 2 < 32) (by decide : 4 < 8)

/-- A slot that stops is held, and waits without samples unless it is OFF. -/
theorem slotStop_shows (d : Dev) (k n : Nat) : ((d.slotStop k n).slot n).held = some k ∧
    (d.slotMode n ≠ 0 → (d.slotStop k n).slotRun n = 4 ∧ ((d.slotStop k n).slot n).queue = []) := by
  have hheld : (d.slotHeld k n).slot n = { d.slot n with held := some k } := slot_setSlot_self d n _
  have hsame : (d.slotHeld k n).slotMode n = d.slotMode n := rfl
  rw [slotStop_eq, hsame]
  by_cases hmode : d.slotMode n ≠ 0
  · rw [Dev.when_of_true _ (decide_eq_true hmode), slotIdled_slot, hheld]
    exact ⟨rfl, fun _ => ⟨slotIdled_slotRun _ n, rfl⟩⟩
  · rw [Dev.when_of_false _ (decide_eq_false hmode), hheld]
    exact ⟨rfl, fun h => absurd h hmode⟩

/-- A slot of a slice that stops. -/
theorem slotsStopped_slot (d : Dev) (k : Nat) {home : Nat} (hh : home < 4) (i : Fin 8) :
    ((d.slotsStopped k home).slot (8 * home + i.val)).held = some k ∧
    (d.slotMode (8 * home + i.val) ≠ 0 →
      (d.slotsStopped k home).slotRun (8 * home + i.val) = 4 ∧ ((d.slotsStopped k home).slot (8 * home + i.val)).queue = []) := by
  have hj : 8 * home + i.val < 32 := homeSlots_lt hh (mem_homeSlots home i)
  obtain ⟨e, hbefore, hafter⟩ := each_view_once (fun u => u.slotFace (8 * home + i.val)) (homeSlots_nodup home) (mem_homeSlots home i)
    (fun u n hn hne => (slotStop_run u k n).slotFace (homeSlots_lt hh hn) hj hne) d
  obtain ⟨-, -, hmode, -⟩ := slotFace_eq hbefore
  obtain ⟨hslotEnd, hrunEnd, -, -⟩ := slotFace_eq hafter
  obtain ⟨hheld, hstops⟩ := slotStop_shows e k (8 * home + i.val)
  refine ⟨(congrArg SlotSt.held hslotEnd).trans hheld, fun hon => ?_⟩
  obtain ⟨hrun, hqueue⟩ := hstops (by rwa [hmode])
  exact ⟨hrunEnd.trans hrun, (congrArg SlotSt.queue hslotEnd).trans hqueue⟩

theorem mismatchNoted_sliceDet (d : Dev) (k home : Nat) (t : Time) : (d.mismatchNoted k home t).sliceDet = d.sliceDet :=
  ((Dev.LoopRun.refl d (homeSlots home) mismatchKeys).mismatchNoted (List.Subset.refl _) (List.Subset.refl _) k t).sliceDet

theorem mismatch_stopped {d : Dev} {n : Nat} {t : Time} (hok : d.sliceDetourOk (d.evalSlice n t) = false) (hdet : d.sliceDet = none) :
    d.mismatch n t = (((d.mismatchNoted (d.evalSlice n t) (n / 8) t).slotsStopped (d.evalSlice n t) (n / 8)).mismatchTold (d.evalSlice n t)
      (d.reg LOOP.SUP_STATUS)).runGroupsOf (homeSlots (n / 8)) := by
  have hstill : ((d.mismatchNoted (d.evalSlice n t) (n / 8) t).slotsStopped (d.evalSlice n t) (n / 8)).sliceDet = none :=
    (slotsStopped_sliceDet _ _ _).trans ((mismatchNoted_sliceDet _ _ _ _).trans hdet)
  rw [Dev.mismatch]
  dsimp only
  rw [if_neg (ne_true_of_eq_false hok)]
  split
  case h_1 x hsome => exact absurd (hstill.symm.trans hsome) (by simp)
  case h_2 => rfl

/-! #### The evaluation that finds a mismatch -/

theorem evalSlice_le (d : Dev) {n : Nat} (hn : n < 32) (t : Time) : d.evalSlice n t < 5 := by
  unfold Dev.evalSlice
  repeat' split
  all_goals omega

/-- What a mismatch of slot `n` asks for, before its groups decide. -/
def Dev.mismatchRest (d : Dev) (n : Nat) : Dev := ((d.runGroupsOf (homeSlots (n / 8))).slotDue n).runGroupsOf [n]

theorem mismatchRest_eq {d : Dev} {n : Nat} (hdefer : (d.slot n).defer = none) :
    d.mismatchRest n = (d.runGroupsOf (homeSlots (n / 8))).runGroupsOf [n] := by
  have hslot : ((d.runGroupsOf (homeSlots (n / 8))).slot n).defer = none :=
    (congrArg SlotSt.defer (congrArg (Tab.get ({} : SlotSt) n) (Dev.Decided.runGroupsOf d _).slots)).trans hdefer
  rw [Dev.mismatchRest, slotDue_settled hslot]

theorem mismatchRest_decided {d : Dev} {n : Nat} (hdefer : (d.slot n).defer = none) : d.Decided (d.mismatchRest n) := by
  rw [mismatchRest_eq hdefer]
  exact (Dev.Decided.runGroupsOf _ _).trans (Dev.Decided.runGroupsOf _ _)

theorem mismatchRest_off {d : Dev} {n : Nat} (hdefer : (d.slot n).defer = none) (hoff : ∀ g : Fin 8, d.cgOn g.val = false) :
    d.mismatchRest n = d := by
  rw [mismatchRest_eq hdefer, runGroupsOf_off hoff, runGroupsOf_off hoff]

/-- A slot that runs and whose computations disagree. -/
structure Dev.Disagrees (d : Dev) (n : Nat) (t : Time) (w : Half) (rest : List (Time × Half)) : Prop where
  slot : n < 32
  queue : (d.slot n).queue = (t, w) :: rest
  defer : (d.slot n).defer = none
  det : d.sliceDet = none
  runs : d.slotRun n = 1 ∨ d.slotRun n = 3

section
variable {d : Dev} {n : Nat} {t : Time} {w : Half} {rest : List (Time × Half)}

theorem Dev.LoopRun.sampleTaken (d : Dev) (n : Nat) (rest : List (Time × Half)) (l : List Nat) :
    d.LoopRun d (d.begun.sampleTaken n rest) (homeSlots (n / 8)) l [] [] := by
  have hmem : n ∈ homeSlots (n / 8) := mem_homeSlots_iff.mpr ⟨⟨n % 8, Nat.mod_lt _ (by decide)⟩, by simp only; omega⟩
  exact (Dev.LoopRun.begun d _ l).setSlot hmem _

/-- The oldest sample gone, the slice that evaluates it and what permits a detour are as before. -/
theorem sampleTaken_evalSlice (d : Dev) (n : Nat) (rest : List (Time × Half)) (t : Time) :
    (d.begun.sampleTaken n rest).evalSlice n t = d.evalSlice n t := by
  have hslot : ((d.begun.sampleTaken n rest).slot n).spareTo = (d.slot n).spareTo := by
    rw [Dev.sampleTaken, slot_setSlot_self]
    rfl
  unfold Dev.evalSlice
  rw [hslot]
  rfl

theorem sampleTaken_detourOk (d : Dev) (n : Nat) (rest : List (Time × Half)) (k : Nat) :
    (d.begun.sampleTaken n rest).sliceDetourOk k = d.sliceDetourOk k := rfl

theorem slotEval_disagrees (h : d.Disagrees n t w rest) {e : Dev}
    (he : (d.begun.sampleTaken n rest).mismatch n t = e.runGroupsOf (homeSlots (n / 8))) : d.begun.slotEval n false = e.mismatchRest n := by
  have hruns : ¬ (d.begun.slotRun n ≠ 1 ∧ d.begun.slotRun n ≠ 3) := by
    rintro ⟨h1, h3⟩
    exact h.runs.elim h1 h3
  rw [slotEval_eq (d := d.begun) h.queue h.defer h.det, if_neg hruns, Dev.mismatchRest, ← he]
  rfl

end

/-! #### A mismatch at the end of its command -/

section
variable {d : Dev} {n : Nat} {t : Time} {w : Half} {rest : List (Time × Half)}

/-- What a mismatch that begins a detour asks for, before the groups decide. -/
def Dev.detourAsked (d : Dev) (n : Nat) (t : Time) (rest : List (Time × Half)) : Dev :=
  (((d.begun.sampleTaken n rest).mismatchNoted (d.evalSlice n t) (n / 8) t).detourBegun (d.evalSlice n t) t).mismatchTold
    (d.evalSlice n t) (d.reg LOOP.SUP_STATUS)

/-- What a mismatch that no detour serves asks for, before the groups decide. -/
def Dev.stopAsked (d : Dev) (n : Nat) (t : Time) (rest : List (Time × Half)) : Dev :=
  (((d.begun.sampleTaken n rest).mismatchNoted (d.evalSlice n t) (n / 8) t).slotsStopped (d.evalSlice n t) (n / 8)).mismatchTold
    (d.evalSlice n t) (d.reg LOOP.SUP_STATUS)

theorem exec_detourAsked {s : State} {n : Fin 32} (h : s.dev.Disagrees n.val t w rest)
    (hok : s.dev.sliceDetourOk (s.dev.evalSlice n.val t) = true) : exec (.slotEvaluation n false) s =
      .next { s with dev := settle ((s.dev.detourAsked n.val t rest).mismatchRest n.val) } := by
  have hbegins := mismatch_detour (d := s.dev.begun.sampleTaken n.val rest) (n := n.val) (t := t)
    (by rw [sampleTaken_evalSlice, sampleTaken_detourOk]; exact hok)
  rw [sampleTaken_evalSlice] at hbegins
  rw [exec_slotEvaluation n false h.det, slotEval_disagrees h hbegins]
  rfl

theorem exec_stopAsked {s : State} {n : Fin 32} (h : s.dev.Disagrees n.val t w rest)
    (hok : s.dev.sliceDetourOk (s.dev.evalSlice n.val t) = false) : exec (.slotEvaluation n false) s =
      .next { s with dev := settle ((s.dev.stopAsked n.val t rest).mismatchRest n.val) } := by
  have hstops := mismatch_stopped (d := s.dev.begun.sampleTaken n.val rest) (n := n.val) (t := t)
    (by rw [sampleTaken_evalSlice, sampleTaken_detourOk]; exact hok) h.det
  rw [sampleTaken_evalSlice] at hstops
  rw [exec_slotEvaluation n false h.det, slotEval_disagrees h hstops]
  rfl

/-- The record of a mismatch. -/
def Dev.mismatchRecord (d e : Dev) : Record := wordRecord d.nowNs .system 0 0x0600 LOOP.SUP_STATUS (e.reg LOOP.SUP_STATUS) (d.reg LOOP.SUP_STATUS)

theorem mismatchTold_reg (d : Dev) (k : Nat) (old : Word) (a : Nat) : (d.mismatchTold k old).reg a = d.reg a :=
  (Dev.sysRec_reg _ _ _ _).trans ((Dev.report_reg _ _ _ a).trans (Dev.raise_reg d 10 a))

theorem Dev.LoopRun.detourAsked (d : Dev) (n : Nat) (t : Time) (rest : List (Time × Half)) :
    d.LoopRun ((d.withDetour { k := d.evalSlice n t, tm := t }).reported 0x07 (d.evalSlice n t) d.nowNs) (d.detourAsked n t rest)
      (homeSlots (n / 8)) mismatchKeys [10] [d.mismatchRecord (d.detourAsked n t rest)] := by
  have hbegun := ((Dev.LoopRun.sampleTaken d n rest mismatchKeys).mismatchNoted (List.Subset.refl _) (List.Subset.refl _)
    (d.evalSlice n t) t).detourBegun (List.Subset.refl _) (d.evalSlice n t) t
  rw [Dev.mismatchRecord, Dev.detourAsked, mismatchTold_reg]
  exact hbegun.mismatchTold _ _

theorem Dev.LoopRun.stopAsked (d : Dev) {n : Nat} (hn : n < 32) (t : Time) (rest : List (Time × Half)) :
    d.LoopRun (d.reported 0x07 (d.evalSlice n t) d.nowNs) (d.stopAsked n t rest) (homeSlots (n / 8)) lowBlocks [10]
      [d.mismatchRecord (d.stopAsked n t rest)] := by
  have hkeys : mismatchKeys ⊆ lowBlocks := by
    intro a ha
    rw [mem_lowBlocks]
    simp only [mismatchKeys, List.mem_cons, List.not_mem_nil, or_false, LOOP.SUP_MISMATCHES, LOOP.SUP_DETOUR_T, LOOP.SUP_STATUS,
      LOOP.SUP_DETOUR_INFO] at ha
    omega
  have hnoted := (Dev.LoopRun.sampleTaken d n rest lowBlocks).mismatchNoted hkeys (List.Subset.refl _) (d.evalSlice n t) t
  have hstopped : d.LoopRun d (((d.begun.sampleTaken n rest).mismatchNoted (d.evalSlice n t) (n / 8) t).slotsStopped (d.evalSlice n t)
      (n / 8)) (homeSlots (n / 8)) lowBlocks [] [] :=
    hnoted.each fun u j hj hrun => hrun.slotStop hj (startKeys_low (homeSlots_lt (by omega) hj) List.mem_cons_self) _
  rw [Dev.mismatchRecord, Dev.stopAsked, mismatchTold_reg]
  exact hstopped.mismatchTold _ _

/-- The mismatch shown, with the slices of a slot. -/
theorem sampleTaken_noted (d : Dev) {n : Nat} (hn : n < 32) (t : Time) (rest : List (Time × Half)) :
    d.MismatchShown ((d.begun.sampleTaken n rest).mismatchNoted (d.evalSlice n t) (n / 8) t) (d.evalSlice n t) (n / 8) t :=
  have hshown := mismatchNoted_shown (d.begun.sampleTaken n rest) (evalSlice_le d hn t) (show n / 8 < 5 by omega) t
  ⟨hshown.count, hshown.instant, hshown.slice, hshown.home⟩

theorem detourAsked_shown (d : Dev) {n : Nat} (hn : n < 32) (t : Time) (rest : List (Time × Half)) :
    d.MismatchShown (d.detourAsked n t rest) (d.evalSlice n t) (n / 8) t ∧
    (d.detourAsked n t rest).flag LOOP.SUP_STATUS_DETOURING = true := by
  obtain ⟨hshown, hflag⟩ := detourBegun_shown (sampleTaken_noted d hn t rest) (d.evalSlice n t)
  refine ⟨hshown.of_words (fun a _ => mismatchTold_reg _ _ _ a) (Dev.fld_of_reg (mismatchTold_reg _ _ _ _)), ?_⟩
  rw [Dev.detourAsked, Dev.flag, Dev.fld_of_reg (g := LOOP.SUP_STATUS_DETOURING) (mismatchTold_reg _ _ _ _)]
  exact hflag

theorem stopAsked_shown (d : Dev) {n : Nat} (hn : n < 32) (t : Time) (rest : List (Time × Half)) :
    d.MismatchShown (d.stopAsked n t rest) (d.evalSlice n t) (n / 8) t := by
  have hreg {a : Nat} (ha : 0x1A0000 ≤ a) := (mismatchTold_reg
    (((d.begun.sampleTaken n rest).mismatchNoted (d.evalSlice n t) (n / 8) t).slotsStopped (d.evalSlice n t) (n / 8)) (d.evalSlice n t)
    (d.reg LOOP.SUP_STATUS) a).trans (slotsStopped_reg _ (d.evalSlice n t) (show n / 8 < 4 by omega) ha)
  refine (sampleTaken_noted d hn t rest).of_words (fun a ha => hreg ?_) (Dev.fld_of_reg (hreg (by decide)))
  simp only [List.mem_cons, List.not_mem_nil, or_false] at ha
  rcases ha with rfl | rfl | rfl <;> decide

/-- What the groups and the end of the command leave of the words of a mismatch. -/
theorem settle_mismatchShown {d e f : Dev} {k home : Nat} (h : d.MismatchShown e k home t) (hd : e.Decided f) :
    d.MismatchShown (settle f) k home t := by
  have hreg {a : Nat} (hlo : LOOP.SUP_CFG ≤ a) (hhi : a < 0x1B0000) : (settle f).reg a = e.reg a :=
    (settle_supReg f (by simp only [LOOP.SUP_CFG] at hlo; omega)).trans (hd.words a hlo (by omega))
  refine h.of_words (fun a ha => ?_) (Dev.fld_of_reg (hreg (by decide) (by decide)))
  simp only [List.mem_cons, List.not_mem_nil, or_false] at ha
  rcases ha with rfl | rfl | rfl <;> exact hreg (by decide) (by decide)

/-- Event, source and record of a mismatch, where no group decides. -/
theorem settle_mismatchTold {d₀ e : Dev} {ns l : List Nat} (hl : lowKeys l) {k : Nat}
    (hrun : d.LoopRun (d₀.reported 0x07 k d.nowNs) e ns l [10] [d.mismatchRecord e]) (hfaults : d₀.faults = d.faults) :
    d.raised (settle e) [10] ∧ (settle e).faults = d.faults ++ [{ src := 0x07, unit := k, stamp := d.nowNs }] ∧
    d.oneRecord (settle e) (d.mismatchRecord (settle e)) := by
  refine ⟨hrun.makes.settle_raised, ?_, ?_⟩
  · rw [settle_faults, hrun.faults, ← hfaults]
    rfl
  · rw [Dev.mismatchRecord, settle_supReg e (k := LOOP.SUP_STATUS) (by decide)]
    exact hrun.settle_oneRecord hl

end

/-! #### No commit waits, and no group decides -/

section
variable {d : Dev} {n : Nat} {t : Time} {w : Half} {rest : List (Time × Half)}

/-- A slot written without its waiting commit. -/
theorem setSlot_defer (d : Dev) (m : Nat) {x : SlotSt} (hx : x.defer = (d.slot m).defer) (n : Nat) :
    ((d.setSlot m x).slot n).defer = (d.slot n).defer := by
  by_cases hn : n = m
  · subst hn
    rw [slot_setSlot_self, hx]
  · exact congrArg SlotSt.defer (setSlot_keeps d m x n (by simpa using hn))

theorem sampleTaken_defer (d : Dev) (n : Nat) (rest : List (Time × Half)) :
    ((d.begun.sampleTaken n rest).slot n).defer = (d.slot n).defer :=
  setSlot_defer d.begun n (x := { d.begun.slot n with queue := rest }) rfl n

theorem mismatchNoted_defer (d : Dev) (k home : Nat) (t : Time) (n : Nat) :
    ((d.mismatchNoted k home t).slot n).defer = (d.slot n).defer := by
  have hcounted : (d.mismatchCounted t).slot n = d.slot n :=
    (((Dev.LoopRun.refl d [] mismatchKeys).setNum (a := LOOP.SUP_MISMATCHES) (by decide) _).setReg64 (a := LOOP.SUP_DETOUR_T) (by decide)
      (by decide) t).slot List.not_mem_nil
  have hgaps : ((d.mismatchNoted k home t).slot n).defer = (((d.mismatchCounted t).slicesFaulty k home).slot n).defer :=
    each_view (fun u => (u.slot n).defer) _ fun u m _ => setSlot_defer u m (by rfl) n
  exact hgaps.trans (congrArg SlotSt.defer ((Dev.setFld_slot _ _ _ n).trans hcounted))

theorem mismatchTold_slot (d : Dev) (k : Nat) (old : Word) (n : Nat) : (d.mismatchTold k old).slot n = d.slot n :=
  ((Dev.LoopRun.refl d [] []).mismatchTold k old).slot List.not_mem_nil

theorem detourBegun_slot (d : Dev) (k : Nat) (t : Time) (n : Nat) : (d.detourBegun k t).slot n = d.slot n :=
  ((Dev.LoopRun.refl d [] mismatchKeys).detourBegun (List.Subset.refl _) k t).slot List.not_mem_nil

theorem slotStop_defer (d : Dev) (k m n : Nat) : ((d.slotStop k m).slot n).defer = (d.slot n).defer := by
  have hheld : ((d.slotHeld k m).slot n).defer = (d.slot n).defer := setSlot_defer d m (by rfl) n
  have hidled : (((d.slotHeld k m).slotIdled m).slot n).defer = ((d.slotHeld k m).slot n).defer := by
    rw [Dev.slotIdled, Dev.setFld_slot]
    exact setSlot_defer (d.slotHeld k m) m (by rfl) n
  rw [slotStop_eq]
  exact Dev.when_cases (p := fun u => (u.slot n).defer = _) _ hheld (hidled.trans hheld)

theorem detourAsked_defer (h : d.Disagrees n t w rest) : ((d.detourAsked n t rest).slot n).defer = none := by
  rw [Dev.detourAsked, mismatchTold_slot, detourBegun_slot, mismatchNoted_defer, sampleTaken_defer]
  exact h.defer

theorem stopAsked_defer (h : d.Disagrees n t w rest) : ((d.stopAsked n t rest).slot n).defer = none := by
  have hstopped (e : Dev) (k home : Nat) : ((e.slotsStopped k home).slot n).defer = (e.slot n).defer :=
    each_view (fun u => (u.slot n).defer) e fun u m _ => slotStop_defer u k m n
  rw [Dev.stopAsked, mismatchTold_slot, hstopped, mismatchNoted_defer, sampleTaken_defer]
  exact h.defer

theorem cgCfg_apart (g : Fin 8) : LOOP.CG_CFG g.val ∉ mismatchKeys := by
  simp only [mismatchKeys, List.mem_cons, List.not_mem_nil, or_false, LOOP.CG_CFG, LOOP.SUP_MISMATCHES, LOOP.SUP_DETOUR_T, LOOP.SUP_STATUS,
    LOOP.SUP_DETOUR_INFO]
  omega

theorem detourAsked_off (hoff : ∀ g : Fin 8, d.cgOn g.val = false) (g : Fin 8) : (d.detourAsked n t rest).cgOn g.val = false :=
  cgOn_of_reg hoff (fun g => (Dev.LoopRun.detourAsked d n t rest).reg (cgCfg_apart g)) g

theorem stopAsked_off (hn : n < 32) (hoff : ∀ g : Fin 8, d.cgOn g.val = false) (g : Fin 8) :
    (d.stopAsked n t rest).cgOn g.val = false := by
  refine cgOn_of_reg hoff (fun g => ?_) g
  have hnoted := (Dev.LoopRun.sampleTaken d n rest mismatchKeys).mismatchNoted (List.Subset.refl _) (List.Subset.refl _) (d.evalSlice n t) t
  exact (mismatchTold_reg _ _ _ _).trans ((slotsStopped_reg _ _ (by omega) (cgCfg_ge g.val)).trans (hnoted.reg (cgCfg_apart g)))

/-! #### The two mismatches at the end of their command -/

theorem settle_detourAsked (h : d.Disagrees n t w rest) :
    let e := settle ((d.detourAsked n t rest).mismatchRest n)
    d.MismatchShown e (d.evalSlice n t) (n / 8) t ∧ e.sliceDet = some { k := d.evalSlice n t, tm := t } ∧
    e.flag LOOP.SUP_STATUS_DETOURING = true := by
  intro e
  have hdecided := mismatchRest_decided (detourAsked_defer h)
  obtain ⟨hshown, hflag⟩ := detourAsked_shown d h.slot t rest
  refine ⟨settle_mismatchShown hshown hdecided, ?_, ?_⟩
  · exact (settle_sliceDet _).trans (hdecided.det.trans (Dev.LoopRun.detourAsked d n t rest).sliceDet)
  · have hword : e.reg LOOP.SUP_STATUS = (d.detourAsked n t rest).reg LOOP.SUP_STATUS :=
      (settle_supReg _ (by decide)).trans (hdecided.words _ (by decide) (by decide))
    rw [Dev.flag, Dev.fld_of_reg (g := LOOP.SUP_STATUS_DETOURING) hword]
    exact hflag

/-- Where no group is on, the mismatch tells and leaves no more. -/
theorem settle_detourAsked_off (h : d.Disagrees n t w rest) (hoff : ∀ g : Fin 8, d.cgOn g.val = false) :
    let e := settle ((d.detourAsked n t rest).mismatchRest n)
    (d.raised e [10] ∧ e.faults = d.faults ++ [{ src := 0x07, unit := d.evalSlice n t, stamp := d.nowNs }] ∧
      d.oneRecord e (d.mismatchRecord e)) ∧
    d.keepsRegs e mismatchKeys ∧ { d with slots := e.slots, sliceDet := e.sliceDet, faults := e.faults }.keepsUnits e := by
  rw [mismatchRest_off (detourAsked_defer h) (detourAsked_off hoff)]
  intro e
  have hrun := Dev.LoopRun.detourAsked d n t rest
  have hl : lowKeys mismatchKeys := lowKeys_of_all (by decide)
  have hdet : e.sliceDet = some { k := d.evalSlice n t, tm := t } := (settle_sliceDet _).trans hrun.sliceDet
  obtain ⟨hraised, hfaults, hrec⟩ := settle_mismatchTold hl hrun rfl
  refine ⟨⟨hraised, hfaults, hrec⟩, hrun.makes.settle_keepsRegs, ?_⟩
  rw [hdet, hfaults]
  exact hrun.settle_units hl

/-- A slot at the end of a mismatch is what the mismatch left, whatever the groups decide. -/
theorem settle_stopAsked (h : d.Disagrees n t w rest) :
    let e := settle ((d.stopAsked n t rest).mismatchRest n)
    d.MismatchShown e (d.evalSlice n t) (n / 8) t ∧ e.sliceDet = none ∧
    ∀ i : Fin 8, (e.slot (8 * (n / 8) + i.val)).held = some (d.evalSlice n t) ∧
      (d.slotMode (8 * (n / 8) + i.val) ≠ 0 → e.slotRun (8 * (n / 8) + i.val) = 4 ∧ (e.slot (8 * (n / 8) + i.val)).queue = []) := by
  intro e
  have hn := h.slot
  have hdecided := mismatchRest_decided (stopAsked_defer h)
  refine ⟨settle_mismatchShown (stopAsked_shown d hn t rest) hdecided, ?_, fun i => ?_⟩
  · exact (settle_sliceDet _).trans (hdecided.det.trans ((Dev.LoopRun.stopAsked d hn t rest).sliceDet.trans h.det))
  have hi : 8 * (n / 8) + i.val < 32 := by omega
  have hslot : e.slot (8 * (n / 8) + i.val) =
      (((d.begun.sampleTaken n rest).mismatchNoted (d.evalSlice n t) (n / 8) t).slotsStopped (d.evalSlice n t) (n / 8)).slot
        (8 * (n / 8) + i.val) :=
    (settle_slot _ _).trans ((congrArg (Tab.get ({} : SlotSt) _) hdecided.slots).trans (mismatchTold_slot _ _ _ _))
  have hrun : e.slotRun (8 * (n / 8) + i.val) =
      (((d.begun.sampleTaken n rest).mismatchNoted (d.evalSlice n t) (n / 8) t).slotsStopped (d.evalSlice n t) (n / 8)).slotRun
        (8 * (n / 8) + i.val) := by
    refine (settle_fld _ _ ?_ ?_).trans ((hdecided.runs _ hi).trans (Dev.fld_of_reg (mismatchTold_reg _ _ _ _)))
    · simp only [LOOP.SLOT_STATUS_RUN, LOOP.SLOT_STATUS]; omega
    · simp only [LOOP.SLOT_STATUS_RUN, LOOP.SLOT_STATUS]; omega
  have hmode : ((d.begun.sampleTaken n rest).mismatchNoted (d.evalSlice n t) (n / 8) t).slotMode (8 * (n / 8) + i.val) =
      d.slotMode (8 * (n / 8) + i.val) := by
    refine Dev.fld_of_reg (((Dev.LoopRun.sampleTaken d n rest mismatchKeys).mismatchNoted (List.Subset.refl _) (List.Subset.refl _)
      (d.evalSlice n t) t).reg fun hk => ?_)
    simp only [mismatchKeys, List.mem_cons, List.not_mem_nil, or_false, LOOP.SLOT_CFG_MODE, LOOP.SLOT_CFG, LOOP.SUP_MISMATCHES,
      LOOP.SUP_DETOUR_T, LOOP.SUP_STATUS, LOOP.SUP_DETOUR_INFO] at hk
    omega
  obtain ⟨hheld, hstops⟩ := slotsStopped_slot ((d.begun.sampleTaken n rest).mismatchNoted (d.evalSlice n t) (n / 8) t) (d.evalSlice n t)
    (show n / 8 < 4 by omega) i
  rw [hslot, hrun, ← hmode]
  exact ⟨hheld, hstops⟩

theorem settle_stopAsked_off (h : d.Disagrees n t w rest) (hoff : ∀ g : Fin 8, d.cgOn g.val = false) :
    let e := settle ((d.stopAsked n t rest).mismatchRest n)
    d.raised e [10] ∧ e.faults = d.faults ++ [{ src := 0x07, unit := d.evalSlice n t, stamp := d.nowNs }] ∧
      d.oneRecord e (d.mismatchRecord e) := by
  rw [mismatchRest_off (stopAsked_defer h) (stopAsked_off h.slot hoff)]
  exact settle_mismatchTold lowKeys_lowBlocks (Dev.LoopRun.stopAsked d h.slot t rest) rfl

end

/-! ### O19 -/

/-- Settles O19: every step of a mismatch, a detour, the spare's test and a return changes only the slots of one slice and a few words of
the supervision, which each clause reads back at the end of the command; the decisions of competition groups that follow a mismatch leave
both. -/
theorem sliceDetours : Obligations.SliceDetours := by
  unfold Obligations.SliceDetours
  intro s
  refine ⟨?mismatch, ?stopped, ?copy, ?ended, ?resumed, ?tested, ?failed, ?ready, ?scheduled, ?returned⟩
  case mismatch =>
    intro n t w rest hqueue hdefer hdet hruns hok
    have h : s.dev.Disagrees n.val t w rest := ⟨n.isLt, hqueue, hdefer, hdet, hruns⟩
    obtain ⟨⟨hcount, hinstant, hslice, hhome⟩, hdetour, hflag⟩ := settle_detourAsked h
    exact does_of_effect (exec_detourAsked h hok) rfl ⟨hcount, hinstant, hslice, hhome, fun hoff => (settle_detourAsked_off h hoff).1,
      hdetour, hflag, fun hoff => (settle_detourAsked_off h hoff).2⟩
  case stopped =>
    intro n t w rest hqueue hdefer hdet hruns hok
    have h : s.dev.Disagrees n.val t w rest := ⟨n.isLt, hqueue, hdefer, hdet, hruns⟩
    obtain ⟨⟨hcount, hinstant, hslice, hhome⟩, hdetour, hslots⟩ := settle_stopAsked h
    exact does_of_effect (exec_stopAsked h hok) rfl ⟨hcount, hinstant, hslice, hhome, fun hoff => settle_stopAsked_off h hoff, hdetour,
      hslots⟩
  case copy =>
    intro ns x hdet hcopied hk
    exact does_of_effect (exec_detourStateCopy ns hdet hcopied) rfl (settle_spareTaken s.dev ns hk)
  case ended =>
    intro x hdet hcopied hfresh hdue hk hslots hsup hoff hstill
    have h : s.dev.ResumeDue x := ⟨hdet, hcopied, hfresh, hdue, hk, hslots, hsup, hoff⟩
    exact does_of_effect (exec_detourEnded h (running_nil hstill)) rfl (settle_detourEnded hk)
  case resumed =>
    intro x hdet hcopied hfresh hdue hk hslots hsup hoff hsome
    have h : s.dev.ResumeDue x := ⟨hdet, hcopied, hfresh, hdue, hk, hslots, hsup, hoff⟩
    exact does_of_effect (exec_detourResumed h (running_ne_nil hsome)) rfl (settle_detourResumed hk)
  case tested =>
    intro hon hready hfree hhome hdue
    exact does_of_effect (exec_spareTest ⟨hon, hready, hfree, hhome, hdue⟩ true) rfl (settle_spareTested s.dev)
  case failed =>
    intro hon hready hfree hhome hdue
    exact does_of_effect (exec_spareTest ⟨hon, hready, hfree, hhome, hdue⟩ false) rfl (settle_spareFailed s.dev)
  case ready =>
    intro k hpowered
    exact does_of_effect (exec_sliceReady hpowered) rfl (settle_sliceStarted s.dev k.isLt)
  case scheduled =>
    intro a v htakes hreturn
    exact does_of_effect (exec_supReturn htakes hreturn) rfl (settle_returnScheduled s.dev a.id v (v.toNat % 8) (s.dev.reg64 LOOP.SUP_RETURN_AT))
  case returned =>
    intro k x hfind hdue
    exact does_of_effect (exec_sliceReturnAt hfind hdue) rfl (settle_sliceReturned s.dev k.isLt x.2)

end Sys2Proof.Machine
